-- ==== Sys2Proof/Word.lean ====
section
/-! DEFINITION. The word types of the QF: octets, 32-bit words and the plainest arithmetic on them. -/

namespace Sys2Proof

/-- An octet of a payload, a record or an image (R11, R419). -/
abbrev Byte := BitVec 8

/-- A 32-bit word: an edge word (R94), a micro-op (R115), a header word (R427). -/
abbrev Word := BitVec 32

/-- A 64-bit latch frame (R507). -/
abbrev Frame64 := BitVec 64

end Sys2Proof
end

