-- ==== Sys2Proof/Syntax.lean ====
section
/-! DEFINITION. The commands of the QF: one constructor per row of spec/opcode_table.json, in the table's order.
Operands are what the row's event brings from outside: which die, channel or object it names, what was measured,
what a request carries. Times are not operands: the machine has its own clocks (R379, R383). -/

namespace Sys2Proof

/-- Where a dictionary request comes from (R423, R486, R490): a Keyway session with its SEQ, the user partition's
local API (port code 2), or the service port of an unlocked debugger (port code 3). -/
inductive Src where
  | keyway (session seq : Nat)
  | user
  | service
  deriving DecidableEq, Repr

/-- An instance of R12: a channel, a die site, the metrology instance, the device; `other` is any other encoding. -/
inductive Inst where
  | ch (c : Nat)
  | site (n : Nat)
  | met
  | dev
  | other (e : Nat)
  deriving DecidableEq, Repr

/-- The direction of a Hinge-C link (R26). -/
inductive Dir where
  | toHub
  | toDie
  deriving DecidableEq, Repr

/-- A tagged entry of a slot's sample set as its release finds it (R112): tag, value, and whether it was refreshed. -/
structure Sample where
  tag : Nat
  value : Int
  fresh : Bool
  deriving DecidableEq, Repr

/-- What an ordinary Hinge-C flit carries (R26): a heartbeat (R509), a trail entry (R498), or anything else. -/
inductive FlitKind where
  | beat
  | entry
  | other
  deriving DecidableEq, Repr

/-- An adjustment token of R237. The public key and the signature are carried as octets. -/
structure Token where
  kind : Nat
  slot : Nat
  bodyLen : Nat
  nonce : Nat
  evCount : Nat
  keyId : List Byte
  body : List Byte
  pubKey : List Byte
  sig : List Byte
  deriving DecidableEq, Repr

/-- An event frame of the QM (opcode 0x23, R208): backpressure (R233), a calibration event (R257 to R262). -/
inductive QmEvent where
  | backpressure (on : Bool)
  | calibration (kind site group modulator : Nat)
  deriving DecidableEq, Repr

/-- Results of a mean pair of a channel at one epoch (R164, R219): µV and 10 µA. -/
structure MeanVI where
  chan : Nat
  v : Int
  i : Int
  deriving DecidableEq, Repr

/-- One channel of a mirror set (R219): means and the latest temperature, µV, 10 µA, m°C. -/
structure Mirror where
  chan : Nat
  v : Int
  i : Int
  temp : Int
  deriving DecidableEq, Repr

/-- An address span of a request (R431): index, first subindex, count, first and last instance. -/
structure Span where
  index : Nat
  sub : Nat
  count : Nat
  first : Inst
  last : Inst
  deriving DecidableEq, Repr

/-- One entry of a SUBSCRIBE payload (R438). -/
structure SubEntry where
  index : Nat
  sub : Nat
  first : Inst
  last : Inst
  deriving DecidableEq, Repr

/-- A CAN frame on the bus (R457, R463). -/
structure CanFrame where
  ide : Bool
  rtr : Bool
  id : Nat
  fdf : Bool
  brs : Bool
  esi : Bool
  dlc : Nat
  data : List Byte
  deriving DecidableEq, Repr

/-- What the error counting of ISO 11898-1 makes of a bus error (R467): an error detected; one that it exempts from
counting (a transmitter's ACK error while error passive with no dominant bit in its flag, its stuff error in arbitration);
and a dominant bit after the flag, a bit error within it, or eight dominant bits more, of the error detected before. -/
inductive CanErr where
  | detected
  | exempt
  | more
  deriving DecidableEq, Repr

/-- How an engine stopped a job (R124): the cycle count passed W, or an uncorrectable ECC error. -/
inductive EngFault where
  | overW
  | ecc
  deriving DecidableEq, Repr

/-- A new level of a back-EMF comparator (R309): the phase (0 U, 1 V, 2 W), BEMFa_x above the star point or not, and the
first 320 MHz count of the level. -/
structure Crossing where
  phase : Nat
  high : Bool
  at' : Nat
  deriving DecidableEq, Repr

/-- One sample of the supervisor's 100 µs cycle (R336, R338): the level of each safe input in mV, the readbacks of the
safe outputs in mV, the pin levels of the contactor drives in mV, the contact feedback in mV. -/
structure SupSample where
  sin : List Int
  sout : List Int
  kdrv : List Int
  kfb : List Int
  deriving DecidableEq, Repr

/-- The commands of the QF. -/
inductive Instr where
  /-- VSYS_VALID: bank voltages in mV, H0, H1, VIO1 to VIO6. -/
  | vsysValid (banksMv : List Nat)
  /-- VSYS_INVALID -/
  | vsysInvalid
  /-- VMET_POWER_ON: VIO_M in mV. -/
  | vmetPowerOn (vioM : Nat)
  /-- VMET_LOSS -/
  | vmetLoss
  /-- QM_WATCHDOG_EXPIRY -/
  | qmWatchdogExpiry
  /-- QM_BOOT -/
  | qmBoot
  /-- SITE_FRAMING_PROBE: site, framing reached within 10 ms. -/
  | siteFramingProbe (site : Nat) (framed : Bool)
  /-- RESET_N: low time in ns. -/
  | resetN (lowNs : Nat)
  /-- HUB_WATCHDOG -/
  | hubWatchdog
  /-- WARM_RESET: the value written to 0x1203.01. -/
  | warmReset (src : Src) (v : Nat)
  /-- SITE_RESET: the value written to 0x1203.02. -/
  | siteReset (src : Src) (mask : Nat)
  /-- ENGINE_RESET: the value written to 0x1203.03. -/
  | engineReset (src : Src) (mask : Nat)
  /-- RECIPE_SCRUB: site, rows with an uncorrectable error as (local channel, row). -/
  | recipeScrub (site : Nat) (bad : List (Nat × Nat))
  /-- BOOT_ROM_CHECK -/
  | bootRomCheck
  /-- RESIDENT_FIRMWARE_START -/
  | residentFirmwareStart
  /-- HINGE_C_TRAINING: site, outcome of this training. -/
  | hingeCTraining (site : Nat) (ok : Bool)
  /-- QCFW_CHECK: site. -/
  | qcfwCheck (site : Nat)
  /-- DRIVER_ARMING: site. -/
  | driverArming (site : Nat)
  /-- ECHO_TIMEOUT: site. -/
  | echoTimeout (site : Nat)
  /-- HINGE_C_REPLAY: site, direction, how many flits of the line (those to be resent, then `later`, the ones on the way
  behind them) came whole before the one that failed its CRC. -/
  | hingeCReplay (site : Nat) (dir : Dir) (good : Nat) (later : List FlitKind)
  /-- HINGE_C_LINK_FAILED -/
  | hingeCLinkFailed (site : Nat) (dir : Dir)
  /-- LATCH_FRAME_SEND -/
  | latchFrameSend (site : Nat) (dir : Dir)
  /-- HEARTBEAT: site and direction of the heartbeat flit. -/
  | heartbeat (site : Nat) (dir : Dir)
  /-- HEARTBEAT_TIMEOUT -/
  | heartbeatTimeout (site : Nat)
  /-- DIE_WATCHDOG: site, the die's management core has not serviced the watchdog for 100 µs. -/
  | dieWatchdog (site : Nat) (core : Bool)
  /-- SITE_RECOVERY -/
  | siteRecovery (site : Nat)
  /-- METROLOGY_LINK_SILENT -/
  | metrologyLinkSilent
  /-- STREAM_LOSS -/
  | streamLoss (site : Nat)
  /-- STREAM_RETURN -/
  | streamReturn (site : Nat)
  /-- DCOV_COMPARATOR: site reached, the two copies of the frame as they came over the lanes (R31). -/
  | dcovComparator (site : Nat) (a b : Frame64)
  /-- DC_LINK_ABOVE_OV2 -/
  | dcLinkAboveOv2 (site : Nat) (a b : Frame64)
  /-- SAFETY_STOP -/
  | safetyStop (site : Nat) (a b : Frame64)
  /-- SEGMENT_STOP -/
  | segmentStop (site : Nat) (a b : Frame64)
  /-- SEGMENT_STOP_REQUEST -/
  | segmentStopRequest (site : Nat) (a b : Frame64)
  /-- REGENERATION_INHIBIT -/
  | regenerationInhibit (site : Nat) (a b : Frame64)
  /-- DOOR_LIMIT -/
  | doorLimit (site : Nat) (a b : Frame64)
  /-- REGENERATION_RELEASE -/
  | regenerationRelease (site : Nat) (a b : Frame64)
  /-- DOOR_RELEASE -/
  | doorRelease (site : Nat) (a b : Frame64)
  /-- RUN_RELEASE -/
  | runRelease (site : Nat) (a b : Frame64)
  /-- TEST -/
  | test (site : Nat) (a b : Frame64)
  /-- TEST_ECHO -/
  | testEcho (site : Nat) (a b : Frame64)
  /-- SEGMENT_BUS_FAULT -/
  | segmentBusFault (site : Nat) (a b : Frame64)
  /-- OVER_TEMPERATURE: site, the two copies. -/
  | overTemperature (site : Nat) (a b : Frame64)
  /-- CLOCK_LOST -/
  | clockLost (site : Nat) (a b : Frame64)
  /-- DAB_STAGE_LATCHED: site, the two copies. -/
  | dabStageLatched (site : Nat) (a b : Frame64)
  /-- TRAIL_ENTRY: the next trail entry of a channel die reaches the hub. -/
  | trailEntry (site : Nat)
  /-- TRAIL_FREEZE -/
  | trailFreeze
  /-- IDENTIFY -/
  | identify
  /-- MAILBOX_READ: index, subindex, channel (0xFFFF for @met). -/
  | mailboxRead (index sub chan : Nat)
  /-- MAILBOX_SUBSCRIBE: class mask. -/
  | mailboxSubscribe (mask : Nat)
  /-- ACK_RECORDS: batch sequence. -/
  | ackRecords (n : Nat)
  /-- CELL_ID -/
  | cellId (chan : Nat) (id : List Byte)
  /-- STEP_START: the payload of R207. -/
  | stepStart (chan row stepIndex mode rate gang origin firstJob loop sub4 sub2 : Nat)
  /-- STEP_CLOSE: channel, next row, cause, end LT. -/
  | stepClose (chan nextRow cause endLt : Nat)
  /-- REQ_ADJUST_IMAGE_SEGMENT: offset, image data. -/
  | reqAdjustImageSegment (offset : Nat) (data : List Byte)
  /-- ENTER_TOKEN -/
  | enterToken (t : Token)
  /-- LEAVE_TOKEN -/
  | leaveToken (t : Token)
  /-- AUDIT_ACKNOWLEDGE -/
  | auditAcknowledge (t : Token)
  /-- CALIBRATION_WRITE -/
  | calibrationWrite (t : Token)
  /-- AUTHORITY_KEY_SET -/
  | authorityKeySet (t : Token)
  /-- SOFTWARE_ANNOUNCE -/
  | softwareAnnounce (t : Token)
  /-- BEACON: epoch LT, epoch number, MCLK time of receipt in ns. -/
  | beacon (epochLt number mclk : Nat)
  /-- MAILBOX_FRAME_DISCARD: the octets of a request frame. -/
  | mailboxFrameDiscard (bytes : List Byte)
  /-- QM_RECORD_FRAME: record sequence. -/
  | qmRecordFrame (seq : Nat)
  /-- QM_BATCH_RECORD_FRAME: batch sequence. -/
  | qmBatchRecordFrame (seq : Nat)
  /-- MIRROR_SET: the epoch of the means that the QM formed. -/
  | mirrorSet (epochLt : Nat)
  /-- METROLOGY_EVENT -/
  | metrologyEvent (e : QmEvent)
  /-- INTEGRATOR_SAMPLE: channel, and what the filter chains of the modulators give before calibration, in nV at the input:
  those that serve the channel's voltage, current and temperature, and the spares of its group and of group 8. -/
  | integratorSample (chan : Nat) (v i t spare spareT : Int)
  /-- MIRROR_MEANS: the ending epoch's LT. -/
  | mirrorMeans (epochLt : Nat)
  /-- PERIODIC_RECORD: channel. -/
  | periodicRecord (chan : Nat)
  /-- AC_RECORD: the samples of the AC modulators since the last record, in nV at the pins: voltage of phases 1 to 3,
  current of phases 1 to 3. -/
  | acRecord (samples : List (List Int))
  /-- IMPEDANCE_RECORD: channel. -/
  | impedanceRecord (chan : Nat)
  /-- CHECKPOINT -/
  | checkpoint
  /-- BATCH_CLOSE -/
  | batchClose
  /-- ADJ_EN_CHANGE: the level of one 1 ms sample. -/
  | adjEnChange (level : Bool)
  /-- ADJUSTMENT_EXPIRY -/
  | adjustmentExpiry
  /-- MCLK_FAULT -/
  | mclkFault
  /-- MCLK_RETURN -/
  | mclkReturn
  /-- IDENT: the octets after the command on MET_MOSI, and how many octets of the response are clocked out, before MET_CS_N
  rises (so of every port command). -/
  | ident (arg : List Byte) (clocked : Nat)
  /-- STATUS -/
  | status (arg : List Byte) (clocked : Nat)
  /-- AUDIT: the argument, entry sequence. -/
  | audit (arg : List Byte) (clocked : Nat)
  /-- RECORD: the argument, record sequence. -/
  | record (arg : List Byte) (clocked : Nat)
  /-- BATCH: the argument, batch sequence. -/
  | batch (arg : List Byte) (clocked : Nat)
  /-- PROOF: the argument, record sequence. -/
  | proof (arg : List Byte) (clocked : Nat)
  /-- LIVE: the argument, channel. -/
  | live (arg : List Byte) (clocked : Nat)
  /-- AC -/
  | ac (arg : List Byte) (clocked : Nat)
  /-- PUBKEY -/
  | pubkey (arg : List Byte) (clocked : Nat)
  /-- OVERLAP_START: site, rotation group. -/
  | overlapStart (site group : Nat)
  /-- PROVISIONAL_TAKEOVER -/
  | provisionalTakeover (site group : Nat)
  /-- ROTATION_COMMIT -/
  | rotationCommit (site group : Nat)
  /-- FREED_CALIBRATION_PHASE: phase 0 zero, 1 point A, 2 point B, and the mean measured in it before calibration, in pV. -/
  | freedCalibrationPhase (site group phase : Nat) (mean : Int)
  /-- FREED_CALIBRATION_END -/
  | freedCalibrationEnd (site group : Nat)
  /-- SUSPECT_RECALIBRATION: site, group, modulator, the means of the run in pV at zero, point A and point B. -/
  | suspectRecalibration (site group modulator : Nat) (zero a b : Int)
  /-- CALIBRATION_AGE_EVENT -/
  | calibrationAgeEvent (site modulator : Nat)
  /-- PATH_DIAGNOSIS: die (0 hub), unit. -/
  | pathDiagnosis (die unit : Nat)
  /-- PATH_DIAGNOSIS_RESULT: the raw code of each input path at each DAC code: path, DAC code, 16-bit conversion. -/
  | pathDiagnosisResult (die unit : Nat) (results : List (Nat × Nat × Nat))
  /-- DIAGNOSIS_REPEAT -/
  | diagnosisRepeat (die unit : Nat)
  /-- DIAGNOSE_NOW: site, unit mask. -/
  | diagnoseNow (src : Src) (site mask : Nat)
  /-- CONTROL_ADC_CALIBRATION_WRITE -/
  | controlAdcCalibrationWrite (src : Src) (index sub : Nat) (inst : Inst) (v : Int)
  /-- VDRV_UNDERVOLTAGE: site, VDRVn in mV. -/
  | vdrvUndervoltage (site mv : Nat)
  /-- VDRV_RELEASE -/
  | vdrvRelease (site mv : Nat)
  /-- BOOTSTRAP_HOLD: channel, bootstrap voltage in mV. -/
  | bootstrapHold (chan mv : Nat)
  /-- BOOTSTRAP_RELEASE -/
  | bootstrapRelease (chan mv : Nat)
  /-- FORCED_REFRESH -/
  | forcedRefresh (chan : Nat)
  /-- EDGE_WORD: the slice that receives it, the word. -/
  | edgeWord (chan : Nat) (w : Word)
  /-- EDGE_TIME -/
  | edgeTime (chan : Nat)
  /-- DEAD_TIME_TURN_ON -/
  | deadTimeTurnOn (chan : Nat)
  /-- SOFT_COMPARATOR_TRIP: shunt voltage in µV. -/
  | softComparatorTrip (chan : Nat) (uv : Int)
  /-- HARD_COMPARATOR_TRIP -/
  | hardComparatorTrip (chan : Nat) (uv : Int)
  /-- BLANKING_END -/
  | blankingEnd (chan : Nat) (uv : Int)
  /-- CHECK_NOW -/
  | checkNow (src : Src) (chan v : Nat)
  /-- CONTACT_CHECK_START -/
  | contactCheckStart (chan : Nat)
  /-- CONTACT_CHECK_PHASE: the codes of its 32 conversions. -/
  | contactCheckPhase (chan : Nat) (codes : List Nat)
  /-- CONTACT_CHECK_RESULT -/
  | contactCheckResult (chan : Nat)
  /-- PERIOD_BOUNDARY: die, generator unit. -/
  | periodBoundary (die unit : Nat)
  /-- MID_PERIOD_UPDATE -/
  | midPeriodUpdate (die unit : Nat)
  /-- EDGE_DECISION: the unit's next edge. -/
  | edgeDecision (die unit : Nat)
  /-- COMMIT: the value written to 0x2831.04. -/
  | commit (src : Src) (chan v : Nat)
  /-- OUTPUT_START -/
  | outputStart (die unit : Nat)
  /-- OUTPUT_STOP -/
  | outputStop (die unit : Nat)
  /-- FAULT_SOURCE_ASSERT: site, source, the bus-sense unit, 0 or 8, and the codes of two consecutive
  conversions; for source 3 the die temperature in 0.1 °C. -/
  | faultSourceAssert (site source unit : Nat) (m1 m2 : Int)
  /-- FAULT_SOURCE_DEASSERT: site, source, the codes of the bus senses of units 0 and 8, or the temperature. -/
  | faultSourceDeassert (site source : Nat) (a b : Int)
  /-- FLT_INPUT: input, level, consecutive 320 MHz counts it has been held. -/
  | fltInput (k : Nat) (level : Bool) (counts : Nat)
  /-- DEBUG_HALT: die. -/
  | debugHalt (die : Nat)
  /-- DEBUG_RESUME -/
  | debugResume (die : Nat)
  /-- RELEASE: die, slot, the 16-bit codes that the die's ADC units have converted for it: for a channel tags 0 to 3; for a
  DAB stage the bus sense of unit 0 as tag 0 and of unit 8 as tag 8, DABISn_0 as tag 1 and DABISn_1 as tag 2. -/
  | release (die slot : Nat) (samples : List Sample)
  /-- JOB_START: die, engine. -/
  | jobStart (die eng : Nat)
  /-- JOB_END -/
  | jobEnd (die eng : Nat)
  /-- ENGINE_FAULT -/
  | engineFault (die eng : Nat) (k : EngFault)
  /-- NOP -/
  | nop (die eng : Nat)
  /-- LDS: D, tag. -/
  | lds (die eng d tag : Nat)
  /-- LDP: D, subentry. -/
  | ldp (die eng d n : Nat)
  /-- LDW: D, state word. -/
  | ldw (die eng d w : Nat)
  /-- STW: A, state word. -/
  | stw (die eng a w : Nat)
  /-- LDI: D, 24-bit immediate. -/
  | ldi (die eng d : Nat) (imm : BitVec 24)
  /-- LDH: D, 16-bit immediate. -/
  | ldh (die eng d : Nat) (imm : BitVec 16)
  /-- MOV -/
  | mov (die eng d a : Nat)
  /-- ADD -/
  | add (die eng d a b : Nat)
  /-- SUB -/
  | sub (die eng d a b : Nat)
  /-- MUL: accumulator, A, B. -/
  | mul (die eng acc a b : Nat)
  /-- MAC -/
  | mac (die eng acc a b : Nat)
  /-- ACC -/
  | acc (die eng acc a : Nat)
  /-- STA: D, accumulator. -/
  | sta (die eng d acc : Nat)
  /-- MIN -/
  | min (die eng d a b : Nat)
  /-- MAX -/
  | max (die eng d a b : Nat)
  /-- LIM: D, A, state word of the bounds. -/
  | lim (die eng d a w : Nat)
  /-- SHF: D, A, signed shift. -/
  | shf (die eng d a : Nat) (n : BitVec 6)
  /-- FLT: D, A, state word. -/
  | flt (die eng d a w : Nat)
  /-- BQD -/
  | bqd (die eng d a w : Nat)
  /-- PI -/
  | pi (die eng d a w : Nat)
  /-- DIV: D, A, B. -/
  | div (die eng d a b : Nat)
  /-- CRV: D, A, curve table. -/
  | crv (die eng d a t : Nat)
  /-- CMP -/
  | cmp (die eng a b : Nat)
  /-- BR: condition, offset. -/
  | br (die eng cond off : Nat)
  /-- TRM -/
  | trm (die eng : Nat)
  /-- EDG: target, A. -/
  | edg (die eng target a : Nat)
  /-- CMT -/
  | cmt (die eng : Nat)
  /-- LAT: latch code. -/
  | lat (die eng code : Nat)
  /-- PUB: A, word index. -/
  | pub (die eng a k : Nat)
  /-- LDG: D, word index. -/
  | ldg (die eng d k : Nat)
  /-- YLD -/
  | yld (die eng : Nat)
  /-- DESCRIPTOR_LOAD: site (0 hub), the octets written to 0x2505.01. -/
  | descriptorLoad (src : Src) (die : Nat) (bytes : List Byte)
  /-- DESCRIPTOR_REMOVE -/
  | descriptorRemove (src : Src) (die id : Nat)
  /-- CURVE_TABLE_LOAD -/
  | curveTableLoad (src : Src) (die t : Nat) (bytes : List Byte)
  /-- SAMPLES_STALE: channel. -/
  | samplesStale (chan : Nat)
  /-- FOLLOWING_ERROR -/
  | followingError (chan : Nat)
  /-- VOLTAGE_LIMIT -/
  | voltageLimit (chan : Nat)
  /-- PLAUSIBILITY_FAULT -/
  | plausibilityFault (chan : Nat)
  /-- PLAUSIBILITY_UNAVAILABLE -/
  | plausibilityUnavailable (chan : Nat)
  /-- RECIPE_LOAD: first and last channel, the octets written to 0x2400.01. -/
  | recipeLoad (src : Src) (first last : Nat) (bytes : List Byte)
  /-- RUN_START -/
  | runStart (src : Src) (first last : Nat)
  /-- RUN_STOP -/
  | runStop (src : Src) (first last : Nat)
  /-- RUN_CONTINUE -/
  | runContinue (src : Src) (first last : Nat)
  /-- MILESTONE_CLOSE -/
  | milestoneClose (chan : Nat)
  /-- GROUP_WAIT_LIMIT -/
  | groupWaitLimit (g : Nat)
  /-- GROUP_START -/
  | groupStart (g : Nat)
  /-- WINDOW_CROSSING: hub ADC input 0 to 63, window limit 0 W0 low, 1 W0 high, 2 W1 low, 3 W1 high, crossed or cleared. -/
  | windowCrossing (input limit : Nat) (crossed : Bool)
  /-- OV1_RELEASE -/
  | ov1Release
  /-- DCOV_TRIP: comparator 0 A, 1 B. -/
  | dcovTrip (k : Nat)
  /-- DCOV_RELEASE -/
  | dcovRelease (k : Nat)
  /-- CROSS_CHECK_DISAGREEMENT: pair 0 DC link, 1 phase currents, 2 grid voltages. -/
  | crossCheckDisagreement (pair : Nat)
  /-- HUB_SAMPLES_STALE: slot 0 or 1. -/
  | hubSamplesStale (slot : Nat)
  /-- GRID_LOCKED -/
  | gridLocked
  /-- GRID_LOSS -/
  | gridLoss
  /-- POWER_START -/
  | powerStart (src : Src)
  /-- POWER_STOP -/
  | powerStop (src : Src)
  /-- GRID_SYNC_TIMEOUT -/
  | gridSyncTimeout
  /-- PRECHARGE_COMPLETE -/
  | prechargeComplete
  /-- PRECHARGE_TIMEOUT -/
  | prechargeTimeout
  /-- MAIN_CONTACTOR_CLOSED -/
  | mainContactorClosed
  /-- AFE_RAMP_COMPLETE -/
  | afeRampComplete
  /-- SEGMENT_BUSES_READY -/
  | segmentBusesReady
  /-- CONTROLLED_STOP: cause. -/
  | controlledStop (cause : Nat)
  /-- SEGMENT_STOP_DELAY -/
  | segmentStopDelay
  /-- CONTACTORS_OPEN -/
  | contactorsOpen
  /-- DC_LINK_UNDERVOLTAGE -/
  | dcLinkUndervoltage
  /-- VDC_UPDATE -/
  | vdcUpdate
  /-- DAB_AT_LIMIT: site, stage. -/
  | dabAtLimit (site stage : Nat)
  /-- DAB_SAMPLES_STALE -/
  | dabSamplesStale (site stage : Nat)
  /-- CHOPPER_OPEN -/
  | chopperOpen
  /-- CHOPPER_SHORT -/
  | chopperShort
  /-- CHOPPER_OVERLOAD -/
  | chopperOverload
  /-- DISCHARGE_NO_CURRENT -/
  | dischargeNoCurrent
  /-- DISCHARGE_RELEASE -/
  | dischargeRelease
  /-- DISCHARGE_EXHAUSTED -/
  | dischargeExhausted
  /-- ZERO_CROSSING: drive, the comparator's new level. -/
  | zeroCrossing (a : Nat) (x : Crossing)
  /-- COMMUTATION -/
  | commutation (a : Nat)
  /-- LISTEN_END -/
  | listenEnd (a : Nat)
  /-- BRAKE_WINDOW -/
  | brakeWindow (a : Nat)
  /-- BRAKE_FAILED -/
  | brakeFailed (a : Nat)
  /-- ALIGN_END -/
  | alignEnd (a : Nat)
  /-- RAMP_FAILED -/
  | rampFailed (a : Nat)
  /-- LOCKED_ROTOR -/
  | lockedRotor (a : Nat)
  /-- RETRY_DELAY_END -/
  | retryDelayEnd (a : Nat)
  /-- RETRY_COUNT_RESET -/
  | retryCountReset (a : Nat)
  /-- LOAD_FAULT -/
  | loadFault (a : Nat)
  /-- SPEED_SETPOINT: drive, rpm. -/
  | speedSetpoint (src : Src) (a : Nat) (rpm : Int)
  /-- AUX_SAMPLES_STALE: 0 to 3 drives, 4 to 7 axes. -/
  | auxSamplesStale (k : Nat)
  /-- TARGET_POSITION: axis, target. -/
  | targetPosition (src : Src) (a : Nat) (t : Int)
  /-- STEP_EDGE: axis, AXa_DIR level. -/
  | stepEdge (a : Nat) (dir : Bool)
  /-- INPUT_OVERRUN -/
  | inputOverrun (a : Nat)
  /-- LIMIT_SWITCH: axis, positive side, pin level of one 20 µs sample. -/
  | limitSwitch (a : Nat) (pos level : Bool)
  /-- HOLD_DELAY -/
  | holdDelay (a : Nat)
  /-- REFERENCE_POSITION: axis, position. -/
  | referencePosition (src : Src) (a : Nat) (x : Int)
  /-- STO: safe output. -/
  | sto (out : Nat)
  /-- STO_RELEASE -/
  | stoRelease (out : Nat)
  /-- SS1: safe output. -/
  | ss1 (out : Nat)
  /-- SS1_TIME: safe output; every fed drive and axis reports standstill. -/
  | ss1Time (out : Nat)
  /-- SUPERVISOR_CYCLE -/
  | supervisorCycle (x : SupSample)
  /-- INPUT_DEMAND: input. -/
  | inputDemand (k : Nat)
  /-- INPUT_DEMAND_END -/
  | inputDemandEnd (k : Nat)
  /-- SAFETY_STOP_DELAY -/
  | safetyStopDelay
  /-- CONTACTOR_OPEN_DELAY -/
  | contactorOpenDelay
  /-- ADIS_DELAY -/
  | adisDelay
  /-- INPUT_FAULT: input. -/
  | inputFault (k : Nat)
  /-- TEST_PULSE: test source 0 or 1, the inputs' levels in mV at the last sample within the pulse. -/
  | testPulse (stp : Nat)
  /-- DISCREPANCY_FAULT: function code 1 to 3. -/
  | discrepancyFault (code : Nat)
  /-- INPUT_RECOVERY: input. -/
  | inputRecovery (k : Nat)
  /-- DOOR_LIMIT_LATCH: channel. -/
  | doorLimitLatch (chan : Nat)
  /-- OVER_TEMPERATURE_CHECK: site, latest conversion of each local channel in m°C. -/
  | overTemperatureCheck (site : Nat) (codes : List Nat)
  /-- TEMPERATURE_PLAUSIBILITY_CHECK: site, control temperature of each local channel in m°C. -/
  | temperaturePlausibilityCheck (site : Nat)
  /-- TEMPERATURE_PLAUSIBILITY_FAULT -/
  | temperaturePlausibilityFault (chan : Nat)
  /-- APPLICATION_HEARTBEAT_TIMEOUT -/
  | applicationHeartbeatTimeout
  /-- SAFETY_RESET: input with code 4 that falls. -/
  | safetyReset (k : Nat)
  /-- RESET_REQUEST: the value written to 0x4007.00. -/
  | resetRequest (src : Src) (v : Nat)
  /-- SAFE_OUTPUT_REQUEST: output, value. -/
  | safeOutputRequest (src : Src) (out v : Nat)
  /-- OFF_PULSE: output. -/
  | offPulse (out : Nat)
  /-- OFF_PULSE_END: output, readback in mV at the end of the pulse, and 300 µs after it. -/
  | offPulseEnd (out : Nat) (rb : Int)
  /-- OUTPUT_FAULT: output. -/
  | outputFault (out : Nat)
  /-- CONTACTOR_REQUEST: KDRV2 or KDRV3, value. -/
  | contactorRequest (src : Src) (k v : Nat)
  /-- CONTACTOR_TIMEOUT: contactor. -/
  | contactorTimeout (k : Nat)
  /-- CONTACTOR_FAULT: contactor. -/
  | contactorFault (k : Nat)
  /-- WELDED_CONTACT -/
  | weldedContact (k : Nat)
  /-- LOCKSTEP_FAULT -/
  | lockstepFault
  /-- SUPERVISOR_CLOCK_FAULT: deviation in 0.01 %. -/
  | supervisorClockFault (dev : Int)
  /-- SUPERVISOR_WATCHDOG -/
  | supervisorWatchdog
  /-- MEMORY_FAULT -/
  | memoryFault
  /-- H_SAFE_SUPPLY_FAULT -/
  | hSafeSupplyFault
  /-- UNLOCK: password octets. -/
  | unlock (src : Src) (pw : List Byte)
  /-- PASSWORD_CHANGE: the octets written to 0x40F0.02. -/
  | passwordChange (src : Src) (bytes : List Byte)
  /-- LOCK: value. -/
  | lock (src : Src) (v : Nat)
  /-- RWP_WRITE -/
  | rwpWrite (src : Src) (index sub : Nat) (inst : Inst) (v : Int)
  /-- APPLY: the expected pending CRC. -/
  | apply (src : Src) (crc : Nat)
  /-- UNLOCK_TIMEOUT -/
  | unlockTimeout
  /-- LOCKOUT_END -/
  | lockoutEnd
  /-- REFCLK_ABSENT: die. -/
  | refclkAbsent (die : Nat)
  /-- REFCLK_PRESENT -/
  | refclkPresent (die : Nat)
  /-- XTAL32_FAILED -/
  | xtal32Failed
  /-- XTAL32_RETURN -/
  | xtal32Return
  /-- LOCK_WINDOW: loop 0 hub core, 1 hub pulse, 2 to 7 the sites 1 to 6; feedback count of the window. -/
  | lockWindow (loop count : Nat)
  /-- COAST_LIMIT: loop. -/
  | coastLimit (loop : Nat)
  /-- SYNC: offset of LT from the grandmaster in ns, rate ratio minus 1 in 0.01 ppb, slave port. -/
  | sync (gm ratio : Int) (port : Nat)
  /-- SYNC_TIMEOUT -/
  | syncTimeout
  /-- LT_STEP -/
  | ltStep
  /-- CARRIER_EPOCH: the measured phase error of each die in fine steps, hub first. -/
  | carrierEpoch (errs : List Int)
  /-- EPOCH_PERIOD: the value written to 0x1101.01. -/
  | epochPeriod (src : Src) (n : Nat)
  /-- REST_ENTRY: site. -/
  | restEntry (site : Nat)
  /-- WINDOW_LEFT: channel. -/
  | windowLeft (chan vCode tCode : Nat)
  /-- REST_WAKE_TIMER: site. -/
  | restWakeTimer (site : Nat)
  /-- BUS_WITHIN_SETPOINT: site, bus voltage in mV. -/
  | busWithinSetpoint (site a b : Nat)
  /-- RUN_REQUEST -/
  | runRequest (src : Src)
  /-- STANDBY_REQUEST -/
  | standbyRequest (src : Src)
  /-- SLEEP_REQUEST -/
  | sleepRequest (src : Src)
  /-- STANDBY_ENTRY -/
  | standbyEntry
  /-- SLEEP_WAKE: source bit 0 to 4. -/
  | sleepWake (source : Nat)
  /-- SLEEP_WAKE_TIMER -/
  | sleepWakeTimer
  /-- WAKE_TO_STANDBY: the retained image matches its stored hash. -/
  | wakeToStandby (hash : List Byte)
  /-- VIO_UNDERVOLTAGE: bank 0 H0, 1 H1, 2 to 7 VIO1 to VIO6; millivolts; 8 is VIO_M. -/
  | vioUndervoltage (bank mv : Nat)
  /-- VIO_RECOVERY -/
  | vioRecovery (bank mv : Nat)
  /-- HUB_OVER_TEMPERATURE: temperature in 0.1 °C. -/
  | hubOverTemperature (t : Int)
  /-- READ -/
  | read (src : Src) (span : Span)
  /-- WRITE: span and the payload octets. -/
  | write (src : Src) (span : Span) (payload : List Byte)
  /-- READ_RANGE -/
  | readRange (src : Src) (span : Span)
  /-- WRITE_RANGE -/
  | writeRange (src : Src) (span : Span) (payload : List Byte)
  /-- SEG_INIT_WRITE: span, payload octets (direction, zeros, total). -/
  | segInitWrite (src : Src) (span : Span) (payload : List Byte)
  /-- SEG_INIT_READ -/
  | segInitRead (src : Src) (span : Span) (payload : List Byte)
  /-- SEG_DATA_WRITE: transfer, offset, data. -/
  | segDataWrite (src : Src) (transfer offset : Nat) (data : List Byte)
  /-- SEG_DATA_READ: transfer, offset, requested length. -/
  | segDataRead (src : Src) (transfer offset : Nat) (payload : List Byte)
  /-- SEG_END_WRITE: transfer, CRC-32. -/
  | segEndWrite (src : Src) (transfer crc : Nat)
  /-- SEG_END_READ -/
  | segEndRead (src : Src) (transfer : Nat)
  /-- SUBSCRIBE: period, handle, entry count, entries. -/
  | subscribe (src : Src) (period handle count : Nat) (entries : List SubEntry)
  /-- NOTIFY -/
  | notify
  /-- RECORD_STREAM_PUBLISH: session, handle. -/
  | recordStreamPublish (session handle : Nat)
  /-- ABORT_TRANSFER -/
  | abortTransfer (src : Src) (transfer : Nat)
  /-- ABORT_SESSION -/
  | abortSession (src : Src)
  /-- SESSION_OPEN_STAGE_1: SEQ, the 1,220 payload octets. -/
  | sessionOpenStage1 (seq : Nat) (payload : List Byte)
  /-- SESSION_OPEN_STAGE_3: session ID of stage 2, SEQ, host key and signature octets. -/
  | sessionOpenStage3 (session seq : Nat) (hostKey sig : List Byte)
  /-- DATAGRAM_DISCARD: the octets of the UDP payload. -/
  | datagramDiscard (udp : List Byte)
  /-- TRANSFER_TIMEOUT: session, transfer. -/
  | transferTimeout (session transfer : Nat)
  /-- HANDSHAKE_TIMEOUT: session ID of the handshake. -/
  | handshakeTimeout (session : Nat)
  /-- SESSION_IDLE_TIMEOUT -/
  | sessionIdleTimeout (session : Nat)
  /-- KEPT_REPLY_EXPIRY: session, SEQ. -/
  | keptReplyExpiry (session seq : Nat)
  /-- STORE: value. -/
  | store (src : Src) (v : Nat)
  /-- STORE_COMPLETE: the flash write went well. -/
  | storeComplete (ok : Bool)
  /-- RESTORE_DEFAULTS: value. -/
  | restoreDefaults (src : Src) (v : Nat)
  /-- HOST_KEY_SLOT: slot 1 to 8, 32 octets. -/
  | hostKeySlot (src : Src) (k : Nat) (hash : List Byte)
  /-- CAN_MODE: port, value, a frame is on the bus. -/
  | canMode (src : Src) (p v : Nat) (busy : Bool)
  /-- TRANSMIT_SUBMIT: port, the octets written to 0x1410. -/
  | transmitSubmit (src : Src) (p : Nat) (bytes : List Byte)
  /-- CANCEL: port, handle; the FIFO head has passed the sample point of its SOF. -/
  | cancel (src : Src) (p h : Nat) (started : Bool)
  /-- CANCEL_ALL: as for CANCEL. -/
  | cancelAll (src : Src) (p : Nat) (started : Bool)
  /-- DEADLINE_EXPIRY: port, handle; as for CANCEL. -/
  | deadlineExpiry (p h : Nat) (started : Bool)
  /-- ARBITRATION_LOST: port. -/
  | arbitrationLost (p : Nat)
  /-- FRAME_RECEIVED: port, frame, SOF sample point LT. -/
  | frameReceived (p : Nat) (f : CanFrame) (sofLt : Nat)
  /-- FRAME_SENT: port, SOF sample point LT. -/
  | frameSent (p sofLt : Nat)
  /-- BUS_ERROR: port, how the standard counts it, error code of R463, the port's own frame was on the bus. -/
  | busError (p : Nat) (e : CanErr) (code : Nat) (own : Bool)
  /-- BUS_OFF_RECOVERY: port, the sequences of 11 recessive bits seen. -/
  | busOffRecovery (p n : Nat)
  /-- RESTART: port, value. -/
  | restart (src : Src) (p v : Nat)
  /-- RING_CONSUMER: port, value. -/
  | ringConsumer (src : Src) (p v : Nat)
  /-- CUSTOMER_ROOT_WRITE: slot 1 or 2, hash. -/
  | customerRootWrite (src : Src) (k : Nat) (hash : List Byte)
  /-- CUSTOMER_ROOT_REVOKE: slot, value. -/
  | customerRootRevoke (src : Src) (k v : Nat)
  /-- ROLLBACK_COMMIT: type 1 to 3, value. -/
  | rollbackCommit (src : Src) (ty v : Nat)
  /-- PREFERRED_SLOT: type 1 to 3, slot. -/
  | preferredSlot (src : Src) (ty v : Nat)
  /-- LOAD_BEGIN: type, total. -/
  | loadBegin (src : Src) (ty total : Nat)
  /-- LOAD_PIECE: offset, data. -/
  | loadPiece (src : Src) (offset : Nat) (data : List Byte)
  /-- LOAD_END: value, the flash holds what was written. -/
  | loadEnd (src : Src) (v : Nat) (flashOk : Bool)
  /-- LOAD_ABANDON -/
  | loadAbandon
  /-- PARTITION_START -/
  | partitionStart (src : Src)
  /-- PARTITION_STOP -/
  | partitionStop (src : Src)
  /-- PARTITION_FAULT: cause 1 to 3. -/
  | partitionFault (cause : Nat)
  /-- API_CALL: a read (no payload) or a write of one span. -/
  | apiCall (span : Span) (payload : Option (List Byte))
  /-- DEBUG_TOKEN: root slot, key, signature. -/
  | debugToken (src : Src) (root : Nat) (key sig : List Byte)
  /-- DEBUG_LOCK: value. -/
  | debugLock (src : Src) (v : Nat)
  /-- IDCODE -/
  | idcode
  /-- BYPASS -/
  | bypass
  /-- SAMPLE/PRELOAD -/
  | samplePreload (bits : List Bool)
  /-- EXTEST -/
  | extest
  /-- ATTESTATION_NONCE -/
  | attestationNonce (src : Src) (nonce : List Byte)
  /-- ATTESTATION_REPORT: SEG_INIT read of 0x7070.02; the QM's replies arrived within 100 ms. -/
  | attestationReport (src : Src) (qmReplied : Bool)
  /-- READ_CURSOR: value. -/
  | readCursor (src : Src) (v : Nat)
  /-- FREEZE_SEVERITY -/
  | freezeSeverity (src : Src) (v : Nat)
  /-- UNFREEZE -/
  | unfreeze (src : Src) (v : Nat)
  /-- WRITE_ZERO_TO_CLEAR -/
  | writeZeroToClear (src : Src) (index sub : Nat) (inst : Inst) (v : Int)
  /-- CHANNEL_LATCH_CLEAR: range, value; shunt voltages now in µV, temperatures now in m°C by channel offset. -/
  | channelLatchClear (src : Src) (first last v : Nat)
  /-- DIE_CLEAR -/
  | dieClear (src : Src) (site v : Nat)
  /-- FLT_GROUP_CLEAR -/
  | fltGroupClear (src : Src) (mask : Nat)
  /-- BLDC_CLEAR -/
  | bldcClear (src : Src) (a v : Nat)
  /-- AXIS_CLEAR -/
  | axisClear (src : Src) (a v : Nat)
  /-- SUPERVISOR_START -/
  | supervisorStart (crc : Nat)
  /-- HUB_ADC_CONVERSION: unit, raw code of the frame's next input. -/
  | hubAdcConversion (unit code : Nat)
  /-- DCOV_TEST_END: comparator, it reported its trip, it reads untripped within 1 µs of release. -/
  | dcovTestEnd (k : Nat)
  /-- BEST_MASTER_CLOCK: the grandmaster's identity octets and slave port, or none for the QF itself. -/
  | bestMasterClock (gm : Option (List Byte × Nat))
  /-- SWITCH_FORWARD: input port 0 A, 1 B; the frame's octets from the destination address to the FCS. -/
  | switchForward (port : Nat) (frame : List Byte)
  /-- ARP_NDP_ICMP_ECHO: 0 ARP, 1 NDP, 2 ICMP echo, 3 ICMPv6 echo, else any other packet; its VLAN, 0 untagged; an IP
  fragment; the address it asks for, its octets in network order. -/
  | arpNdpIcmpEcho (kind vlan : Nat) (fragment : Bool) (addr : List Byte)
  /-- UNKNOWN_OPCODE: opcode. -/
  | unknownOpcode (src : Src) (op word3 word4 : Nat)
  /-- UNKNOWN_COMMAND: command byte. -/
  | unknownCommand (cmd : Nat) (arg : List Byte) (clocked : Nat)
  deriving DecidableEq, Repr

end Sys2Proof
end

