-- ==== Sys2Proof/Config.lean ====
section
/-! DEFINITION. What an implementation fixes and the values the manual leaves open: opaque constants without a body,
applied to the operands they depend on or to the free-value counter of State. No proof can see a value of one. -/

namespace Sys2Proof.Config

/-- FREE VALUE (log 5): a fresh 64-bit nonce of the QM or the debug port (R238, R491). -/
opaque freeNonce : Nat → BitVec 64
/-- FREE VALUE (log 5): fresh random octets: password salts, device nonces, the randomness of ML-KEM (R366, R448). -/
opaque freeByte : Nat → Nat → BitVec 8
/-- FREE VALUE (log 5): a value the manual does not state (a result outside its stated cases). -/
opaque freeInt : Nat → Int
/-- FREE VALUE (log 5): the line time that the QM gives an MCLK time before it has received any beacon (R210). -/
opaque bareLt : Nat → Nat
/-- FREE VALUE (log 5): the kind octet of entry 0x5002 (R497): 0 drift, 1 suspect, 2 cleared, 3 skip, 4 calibration age. -/
opaque calKind : Nat → BitVec 8
/-- FREE VALUE (log 5): whether a CAN frame is on the bus, or the FIFO head has passed its SOF sample point, when a plain
WRITE changes a mode or cancels (R455, R460). -/
opaque onBus : Nat → Bool
/-- FREE VALUE (log 5): whether the flash holds what a load has written, when a plain WRITE ends the load (R477). -/
opaque flashOk : Nat → Bool
/-- FREE VALUES (log 81): the octet of entry 0x0014 for a rail that 0x1220.03 does not number (8 VIO_M, 9 VMET, 10 + n
VDRVn), and its octet for a state: undervoltage, or valid again (R531). -/
opaque railOctet : Nat → BitVec 8
opaque supplyOctet : Bool → BitVec 8
/-- FREE VALUE (log 6): whether a RESET_N pulse of 500 ns to 1 µs resets, which R543 leaves to the part. -/
opaque glitchResets : Nat → Bool
/-- UNINTERPRETED (log 5): ML-DSA signing by a private key the part holds (0 device identity, 1 metrology). -/
opaque mldsaSign : Nat → List Byte → List Byte → List Byte
/-- Per part (log 2): what the flash slots hold at power-on (R479): 0, 1 HUBFW, 2, 3 QCFW, 4, 5 USER. -/
opaque flashSlot : Nat → List Byte
/-- Per part, fixed at manufacture (log 2): serial number, MAC address, identity keys, certificates, where State lists no others. -/
opaque partBytes : Nat → List Byte
/-- FREE VALUE (log 9): the rounding of a quotient or an interpolation that is not a whole number, where the manual
states no rounding (R116, R121): upward for these numerator and denominator. -/
opaque roundUp : Int → Int → Bool
/-- FREE VALUE (log 9): the output and the two new states of BQD (R116 names its coefficients and states and no
recurrence): coefficients, states, input. -/
opaque biquad : List Int → List Int → Int → Int × Int × Int
/-- FREE VALUE (log 9): a ratio whose divisor is 0 in a control law (R139, R149), by the count of free values. -/
opaque ratio : Nat → Rat

/-- FREE VALUE (log 10): gains the manual names and gives no value for: 0 and 1 kp_b and ki_b of the bus regulator, 2 and 3
the stage-current PI (R290), 4 and 5 the PLL in Hz (R279), 6 and 7 the neutral-point PI (R282), 8 and 9 the align
current PI (R316). -/
opaque gain : Nat → Rat
/-- FREE VALUE (log 10): whether a hub or control ADC adds its offset before or after its gain (R250, R273). -/
opaque offsetFirst : Bool
/-- FREE VALUE (log 46): how the estimates of R24 carry a mean power in W from one side of a converter to the other: 0 a
channel, cell to segment bus; 1 a DAB pair, segment bus to DC link; 2 the AFE, DC link to grid. -/
opaque carried : Nat → Rat → Rat
/-- FREE VALUE (log 49): the shunt of a channel in Ω, which the control path's current conversion takes and no object
holds. -/
opaque shunt : Nat → Rat
/-- FREE VALUE (log 49): the macro's temperature less that of a reference value in K, by the count of free values (R248). -/
opaque refKelvin : Nat → Rat
/-- FREE VALUE (log 49): mV or mA at the grid per µV at each AC input of the QM; a stream shifted by a phase trim in 0.1
µrad; the frequency in mHz of phase 1's voltages (R223, R248). -/
opaque acScale : Nat → Rat
opaque acPhase : Int → List Rat → List Rat
opaque acFreq : List Rat → Nat
/-- Per variant (log 2): the entries of the device, site and metrology instances, of which R418 gives a QF8 "about 36,000". -/
opaque otherEntries : Nat → Nat
/-- Per part (log 2): the length in micro-ops that 0x2506 shows for a vendor template. -/
opaque templateLen : Nat → Nat
/-- FREE VALUE (log 8): what the release planner finds (R133, R134): for a die, the slots to place (slot, W, L) and
the placements it keeps (slot, home engine, offset), a home engine and an offset for each slot, or none. The manual
gives the rules a plan meets and a preference, and no search; the model checks the rules on the answer. -/
opaque plan : Nat → List (Nat × Nat × Nat) → List (Nat × Nat × Nat) → Option (List (Nat × Nat × Nat))

end Sys2Proof.Config
end

