-- ==== Sys2Proof/Machine/Aes.lean ====
section
/-! DEFINITION. AES-256-GCM, which the manual names by its standards (FIPS 197 and SP 800-38D; R449), computed octet by
octet. -/

namespace Sys2Proof.Machine

/-- An octet times x in the field of AES. -/
def aesTwice (x : Byte) : Byte := (x <<< 1) ^^^ (if x.msb then 0x1B else 0)

/-- The product of two octets in that field. -/
def aesMul (x y : Byte) : Byte :=
  ((List.range 8).foldl (fun (p : Byte × Byte) i => (if y.getLsbD i then p.1 ^^^ p.2 else p.1, aesTwice p.2)) (0, x)).1

/-- The substitution of an octet: its inverse x^254, then the affine map. -/
def aesSub (x : Byte) : Byte :=
  let inv := (List.range 7).foldl (fun (p : Byte × Byte) _ => let q := aesMul p.2 p.2; (aesMul p.1 q, q)) (1, x)
  let b := inv.1
  b ^^^ b.rotateLeft 1 ^^^ b.rotateLeft 2 ^^^ b.rotateLeft 3 ^^^ b.rotateLeft 4 ^^^ 0x63

/-- Octets added place by place. -/
def xorBytes (a b : List Byte) : List Byte := List.zipWith (· ^^^ ·) a b

/-- The 60 words of the key schedule. -/
def aesSchedule (key : List Byte) : List (List Byte) :=
  let first := (List.range 8).map fun i => (key.drop (4 * i)).take 4
  ((List.range 52).foldl (fun (p : List (List Byte) × Byte) k =>
    let w := p.1
    let last := w.getLastD []
    let old := w.getD k []
    if k % 8 = 0 then
      let t := xorBytes ((last.drop 1 ++ last.take 1).map aesSub) [p.2, 0, 0, 0]
      (w ++ [xorBytes old t], aesTwice p.2)
    else if k % 8 = 4 then (w ++ [xorBytes old (last.map aesSub)], p.2)
    else (w ++ [xorBytes old last], p.2)) (first, 1)).1

/-- The rows of the state, four columns of four octets, rotated by their number. -/
def aesShift (b : List Byte) : List Byte :=
  (List.range 16).map fun i => b.getD (i % 4 + 4 * ((i / 4 + i % 4) % 4)) 0

/-- The columns of the state mixed. -/
def aesMix (b : List Byte) : List Byte :=
  (List.range 16).map fun i =>
    let at' (k : Nat) : Byte := b.getD (4 * (i / 4) + (i + k) % 4) 0
    aesTwice (at' 0) ^^^ aesTwice (at' 1) ^^^ at' 1 ^^^ at' 2 ^^^ at' 3

/-- The round key of a round. -/
def aesKey (w : List (List Byte)) (r : Nat) : List Byte := ((w.drop (4 * r)).take 4).flatten

/-- One block under a key schedule. -/
def aesBlock (w : List (List Byte)) (b : List Byte) : List Byte :=
  let x := (List.range 13).foldl (fun x r => xorBytes (aesMix (aesShift (x.map aesSub))) (aesKey w (r + 1))) (xorBytes b (aesKey w 0))
  xorBytes (aesShift (x.map aesSub)) (aesKey w 14)

/-- A block of 16 octets as a word, the first octet highest, and back. -/
def gcmWord (b : List Byte) : BitVec 128 := b.foldl (fun acc x => (acc <<< 8) ||| x.setWidth 128) 0
def gcmBytes (v : BitVec 128) : List Byte := (List.range 16).map fun i => (v >>> (8 * (15 - i))).setWidth 8

/-- The product of two words in the field of GCM. -/
def gcmMul (x y : BitVec 128) : BitVec 128 :=
  ((List.range 128).foldl (fun (p : BitVec 128 × BitVec 128) i =>
    (if x.getMsbD i then p.1 ^^^ p.2 else p.1, (p.2 >>> 1) ^^^ (if p.2.getLsbD 0 then 0xE1#128 <<< 120 else 0))) (0, y)).1

/-- Octets as whole blocks, zeros after the last. -/
def gcmBlocks (b : List Byte) : List (List Byte) :=
  (List.range ((b.length + 15) / 16)).map fun i =>
    let x := (b.drop (16 * i)).take 16
    x ++ List.replicate (16 - x.length) 0

/-- The hash of additional data and ciphertext under a hash key. -/
def ghash (h : BitVec 128) (aad c : List Byte) : BitVec 128 :=
  let sum := (gcmBlocks aad ++ gcmBlocks c).foldl (fun y b => gcmMul (y ^^^ gcmWord b) h) 0
  gcmMul (sum ^^^ (BitVec.ofNat 128 (8 * aad.length * 2 ^ 64 + 8 * c.length))) h

/-- The key stream applied to octets, from the counter after the one of the tag. -/
def gcmStream (w : List (List Byte)) (nonce b : List Byte) : List Byte :=
  let ctr (k : Nat) : List Byte := nonce ++ (gcmBytes (BitVec.ofNat 128 k)).drop 12
  xorBytes b ((List.range ((b.length + 15) / 16)).flatMap fun k => aesBlock w (ctr (k + 2)))

/-- The tag of additional data and ciphertext under a 12-octet nonce. -/
def gcmTag (w : List (List Byte)) (nonce aad c : List Byte) : List Byte :=
  xorBytes (gcmBytes (ghash (gcmWord (aesBlock w (List.replicate 16 0))) aad c)) (aesBlock w (nonce ++ [0, 0, 0, 1]))

/-- AES-256-GCM: the ciphertext and the tag. -/
@[irreducible] def gcmSeal (key nonce aad plain : List Byte) : List Byte × List Byte :=
  let w := aesSchedule key
  let c := gcmStream w nonce plain
  (c, gcmTag w nonce aad c)

/-- The tag that a ciphertext must carry. -/
@[irreducible] def gcmExpect (key nonce aad cipher : List Byte) : List Byte := gcmTag (aesSchedule key) nonce aad cipher

end Sys2Proof.Machine
end

