-- ==== Sys2Proof/Machine/State.lean ====
section
/-! DEFINITION. The state of the QF. Every object of the dictionary is one register of `objs` (or, for an STR or a
BLOB, of `blobs`); what the manual gives the machine without an address stands in the records below. Sparse tables
list the entries that have been set, in ascending key order; an entry not listed is at its reset value. -/

namespace Sys2Proof.Machine

/-- A sparse table: ascending keys; a key it does not list holds the table's default. -/
abbrev Tbl (α : Type) := List (Nat × α)

/-- The address of a dictionary entry (R417): index, subindex, instance encoding of R12. -/
structure Addr where
  index : Nat
  sub : Nat
  inst : Nat
  deriving DecidableEq, Repr

/-- The coherence set of a generator unit (R81, R99): period in counts, compares in fine steps, DAB phase offset. -/
structure PSet where
  period : Nat
  rise : Nat
  fall : Nat
  delta : Int
  deriving DecidableEq, Repr

/-- A pulse generator unit (R74): a channel pair, a DAB stage or a hub output. -/
structure GenUnit where
  active : PSet := ⟨1600, 0, 0, 0⟩
  staged : PSet := ⟨1600, 0, 0, 0⟩
  /-- The pending commit (R82): the set it carries and the first count at which it is eligible. -/
  commit : Option (PSet × Nat) := none
  /-- A commit has come since the last stop, or since start-up (R79). -/
  committed : Bool := false
  /-- The count from which a pending start may take a boundary (R79). -/
  startAt : Option Nat := none
  /-- The count from which a pending stop may take a boundary (R80). -/
  stopAt : Option Nat := none
  /-- A start arrived while a stop was pending (R80). -/
  restart : Bool := false
  running : Bool := false
  /-- The count of the unit's last period boundary. -/
  boundary : Nat := 0
  /-- The grid shift c in fine steps (R386). -/
  shift : Int := 0
  /-- The output is on (R75), as last decided; the time of the last decided edge, in fine steps of the die time base; and
  the key of the last decision (R90): four times its requested instant, and its rank at that instant. -/
  on : Bool := false
  lastEdge : Nat := 0
  decided : Nat := 0
  /-- The output at the last boundary, and the edges decided since then, oldest first: instant, output, and whether
  the edge was postponed (R90, R92). -/
  before : Bool := false
  edges : List (Nat × Bool × Bool) := []
  clip : Bool := false
  rfr : Bool := false
  /-- A gap was suppressed across the last fall: the following rise is not produced (R89). -/
  gapHeld : Bool := false
  /-- The applied-output word of the last period (R92). -/
  applied : Nat := 0
  /-- The applied-output word is newer than the slot's last release (R92, R112). -/
  wordNew : Bool := false
  /-- The pins of a hub pair, or the eight outputs of a DAB stage (R100, R289): which of them the unit last asked to be
  high, their levels, and the changes to come: instant, pin, level. -/
  want : List Bool := []
  pins : List Bool := []
  moves : List (Nat × Nat × Bool) := []
  /-- The interlock flag of the unit's pairs (R100), and its latch. -/
  ilock : Bool := false
  latched : Bool := false
  /-- How a commutation unit sets the pair (R308, R315): 0 PWM, 1 LOW, 2 FLOAT, 3 braking. -/
  gate : Nat := 0
  deriving DecidableEq, Repr

/-- A leg state of R49. -/
inductive Leg where
  | off
  | low
  | high
  deriving DecidableEq, Repr

/-- A driver slice (R45 to R60). Times are fine steps of the die time base. -/
structure Slice where
  hg : Bool := false
  lg : Bool := false
  leg : Leg := .off
  /-- Refused until the next word with PB = 1 (R53). -/
  blocked : Bool := false
  /-- Counts of the last three refusals, newest first (R54). -/
  refusals : List Nat := []
  /-- Accepted edge words whose edge time is to come: time in fine steps, leg state, PB. -/
  words : List (Nat × Leg × Bool) := []
  /-- The turn-on that waits for the dead time (R49): high side or not, due time. -/
  turnOn : Option (Bool × Nat) := none
  /-- End of the soft blanking window (R56). -/
  blankEnd : Nat := 0
  /-- Carrier periods in a row without a sufficient low-side on-time (R48). -/
  refresh : Nat := 0
  /-- The low side has been on for the minimum pulse in this period (R48). -/
  lowEnough : Bool := false
  /-- When the low side last turned on. -/
  lowSince : Option Nat := none
  deriving DecidableEq, Repr

/-- What a contact check gates (R65, R68). -/
inductive Gate where
  | runStart
  | milestone
  | host
  deriving DecidableEq, Repr

/-- A running contact check (R66): what it gates, its phase (readings taken), its start LT, the readings in µV. -/
structure Check where
  gate : Gate
  phase : Nat
  start : Nat
  v : List Int
  deriving DecidableEq, Repr

/-- The control state of a channel's step that has no object (chapter 5): exact values between jobs (log 7). -/
structure Law where
  /-- Jobs and fresh jobs of the step so far (R153). -/
  jobs : Nat := 0
  fresh : Nat := 0
  iRef : Rat := 0
  /-- The inner and outer integrators (R147, R149), in duty and in A. -/
  iInt : Rat := 0
  vInt : Rat := 0
  v0 : Rat := 0
  handed : Bool := false
  handLt : Nat := 0
  satLo : Bool := false
  satHi : Bool := false
  vHeld : Bool := false
  /-- Bounds of R154 and R155 in A. -/
  boundLo : Option Rat := none
  boundHi : Option Rat := none
  /-- Jobs in the present phase of a pulse train or DCIR step, the sweep point and its E_k (R141, R143). -/
  phaseJobs : Nat := 0
  pointLt : Option Nat := none
  /-- The time in ns for which stale jobs have held the present point's timer (R143, R153). -/
  lag : Rat := 0
  /-- Last fresh v_m in µV and i_m in 10 µA, the step integrals (R172) in A·s and J, v_ref in V. -/
  vLast : Int := 0
  iLast : Int := 0
  charge : Rat := 0
  energy : Rat := 0
  vRef : Rat := 0
  /-- The last temperature in use, m°C (R153). -/
  tLast : Int := 0
  /-- A drain ramp: its length k, the jobs done, the i* of the terminating job (R190). -/
  drainK : Nat := 0
  drainJ : Nat := 0
  drainI : Rat := 0
  /-- The sweep point k, and the jobs since the member reference last changed (R143, R163). -/
  point : Nat := 0
  still : Nat := 0
  deriving DecidableEq, Repr

/-- What a won termination or a stop hands to the step sequencer (R172, R188). -/
inductive Act where
  | next (row : Nat)
  | loop (counter row : Nat)
  | hold (row : Nat)
  | ending
  | abort (code : Nat)
  | hostStop
  deriving DecidableEq, Repr

/-- The run of a channel, beyond its objects (chapter 6). -/
structure RunSt where
  /-- The winning condition number and its action (R176, R177). -/
  winner : Option (Nat × Act) := none
  /-- Hold counters of the three conditions (R174). -/
  holds : List Nat := [0, 0, 0]
  /-- The row that starts when the wait or hold ends, and whether its start joins the group. -/
  nextRow : Nat := 0
  /-- The drain of the step is in its stop phase: the R80 stop has been issued. -/
  stopping : Bool := false
  /-- A stop command waits for the contact check (R188). -/
  stopAfterCheck : Bool := false
  /-- LT of the arrival at a group milestone (R193). -/
  arrived : Option Nat := none
  /-- A step record is open at the QM for the channel. -/
  stepOpen : Bool := false
  /-- The LT of the release at which a step without a ramp ends (R188, R190). -/
  closeLt : Option Nat := none
  /-- A job of the step has committed (R188). -/
  jobCommitted : Bool := false
  deriving DecidableEq, Repr

/-- The supervision timers of a channel: the LT at which an unbroken run began (R153, R157, R158, R165, R166, R346, R349). -/
structure SupTimers where
  stale : Option Nat := none
  follow : Option Nat := none
  vLimit : Option Nat := none
  disagree : Option Nat := none
  door : Option Nat := none
  tempDiff : Option Nat := none
  noMirror : Option Nat := none
  /-- LT since which no temperature comparison has been possible (R349). -/
  tempMiss : Option Nat := none
  /-- The length of the voltage-limit run at its latest job, in ns (R158). -/
  vRun : Nat := 0
  /-- Comparisons in a row above the temperature limit (R348). -/
  overTemp : Nat := 0
  deriving DecidableEq, Repr

/-- A channel of the cabinet, beyond its dictionary objects. -/
structure Chan where
  slice : Slice := {}
  law : Law := {}
  run : RunSt := {}
  sup : SupTimers := {}
  check : Option Check := none
  /-- The channel's own class and V0 of its latest check for each gate (R69). -/
  own : List (Gate × Nat × Int) := []
  /-- Checks that wait for the ADC unit or for the present check (R65). -/
  queued : List Gate := []
  /-- Control means of the last 16 epochs (R166): epoch LT, µV, 10 µA. -/
  means : List (Nat × Int × Int) := []
  /-- Sums of the fresh control samples released in the present epoch, of their products, and their count (R24, R164,
  log 15). -/
  sumV : Int := 0
  sumI : Int := 0
  sumP : Int := 0
  sumN : Nat := 0
  /-- The latest shunt voltage in µV that a comparator reported (R516). -/
  shunt : Int := 0
  /-- The latest temperature conversion in m°C (R348, R516). -/
  temp : Int := 0
  /-- The temperature mirror received since the last comparison of R349. -/
  mTemp : Option Int := none
  /-- The latest mirrors of tags 5 and 6, in µV and 10 µA, and whether they came since the last release (R219). -/
  mV : Int := 0
  mI : Int := 0
  mNew : Bool := false
  /-- The count at which a cause of the channel's latch was last raised (R515). -/
  causeAt : Option Nat := none
  deriving DecidableEq, Repr

/-- A loop slot (R108, R110, R114), key 128 × die + slot. -/
structure Slot where
  home : Nat := 0
  offset : Nat := 0
  w : Nat := 0
  planned : Bool := false
  busy : Bool := false
  seq : Nat := 0
  words : Tbl Int := []
  samples : List Sample := []
  ages : Tbl Nat := []
  /-- Published words of the latest completed job (R120). -/
  pub : Tbl Int := []
  /-- The count of the latest release (R111). -/
  lastRel : Option Nat := none
  overruns : Nat := 0
  consec : Nat := 0
  /-- Sums and counts of the conversions of each hub ADC input since the slot's previous release (R272). -/
  sums : Tbl (Int × Nat) := []
  lastLat : Nat := 0
  peakLat : Nat := 0
  jobs : Nat := 0
  stolen : Nat := 0
  staleReads : Nat := 0
  releaseLt : Nat := 0
  /-- LTs of a hub slot's latest release and of the one before it: its sample interval (R272). -/
  relAt : Nat := 0
  relFrom : Nat := 0
  /-- LT since which a hub or auxiliary or DAB slot's samples have been stale. -/
  staleSince : Option Nat := none
  /-- A DAB, hub or axis slot is latched with this cause; 0 none. -/
  latch : Nat := 0
  deriving DecidableEq, Repr

/-- A pending loop job (R111): its slot, its release on the die's count and in LT. -/
structure Job where
  slot : Nat
  release : Nat
  at' : Nat
  deriving DecidableEq, Repr

/-- The job an engine runs (R127): slot, descriptor, release count and LT, run away from home. -/
structure RunJob where
  slot : Nat
  desc : Nat
  release : Nat
  at' : Nat
  stolen : Bool
  deriving DecidableEq, Repr

/-- The flag register (R115). -/
structure Flags where
  lt : Bool := false
  eq : Bool := false
  gt : Bool := false
  slo : Bool := false
  shi : Bool := false
  st : Bool := false
  ovf : Bool := false
  deriving DecidableEq, Repr

/-- A loop engine (R108, R115), key 16 × die + engine. -/
structure Engine where
  deque : List Job := []
  job : Option RunJob := none
  w : Tbl Int := []
  acc0 : Int := 0
  acc1 : Int := 0
  flags : Flags := {}
  words : Tbl Int := []
  cycles : Nat := 0
  /-- The next micro-op of the descriptor (R115, R116). -/
  pc : Nat := 0
  /-- YLD or LAT has ended the micro-op sequence. -/
  ended : Bool := false
  /-- Staging writes (target, value) and commits (none) of the job in order, handed over at its end (R113, R119). -/
  staged : List (Option (Nat × Int)) := []
  pubs : List (Nat × Int) := []
  /-- The gang master's published words 0 and 1 as a gang-slave job read them (R120, R162). -/
  ldg : Int × Int := (0, 0)
  /-- When the job began, in 1/16 ns of the die's time base (R135). -/
  began : Nat := 0
  /-- An engine without a job runs the take procedure at this time (R127), in the same unit. -/
  wakeAt : Option Nat := none
  /-- The job it has taken and not started: the deque it came from, and when. -/
  claim : Option (Nat × Job × Nat) := none
  deriving DecidableEq, Repr

/-- A descriptor of the library (R122). Vendor templates have no micro-op words. -/
structure Desc where
  kind : Nat := 0
  len : Nat := 0
  w : Nat := 0
  ops : List Word := []
  loaded : Bool := false
  deriving DecidableEq, Repr

/-- A trail entry (R496), with the sequence number that the store gives it. -/
structure Stored where
  site : Nat
  severity : Nat
  chan : Nat
  code : Nat
  lt : Nat
  data : List Byte
  corr : Nat
  seq : Nat
  deriving DecidableEq, Repr

/-- A latch frame on a link (R507), and the count at which it was raised (R32). -/
structure LFrame where
  code : Nat
  arg : Nat
  corr : Nat
  born : Nat
  deriving DecidableEq, Repr

/-- An ordinary flit on a link. -/
inductive Flit where
  | beat
  | entry (e : Stored)
  | other
  deriving DecidableEq, Repr

/-- A replay in progress (R27, R28): its retries, 0 when none is, and its correlation ID. -/
structure Replay where
  retries : Nat := 0
  corr : Nat := 0
  deriving DecidableEq, Repr

/-- One direction of a Hinge-C link (R27 to R32). -/
structure Link where
  /-- The replay of ordinary flits, and that of a latch frame. -/
  replay : Replay := {}
  again : Replay := {}
  failed : Bool := false
  pending : List LFrame := []
  router : List LFrame := []
  wire : List LFrame := []
  /-- Trail entries that wait to be sent (R498), and flits sent that have not been delivered, oldest first (R27). -/
  queue : List Stored := []
  resend : List Flit := []
  deriving DecidableEq, Repr

/-- A frequency loop (R374 to R377). State codes of 0x1102.03. -/
structure Loop where
  state : Nat := 0
  good : Nat := 0
  off : Nat := 0
  /-- LT since which the loop coasts without a lock (R377). -/
  coastAt : Option Nat := none
  deriving DecidableEq, Repr

/-- An ADC unit (control units 0 to 15 of a die, hub units 0 to 3): its diagnosis (R264 to R266). -/
structure Adc where
  diagUntil : Option Nat := none
  repeatAt : Option Nat := none
  repeated : Bool := false
  waiting : Bool := false
  lastDiag : Nat := 0
  /-- A hub unit's place in its sequence of conversions, 12 frames of 8 (R271, R305). -/
  turn : Nat := 0
  /-- Local channel under contact check, if any. -/
  checking : Option Nat := none
  /-- The edge-bus lane of a control unit's quad (R93): edge time and word, in the order in which they leave. -/
  lane : List (Nat × Word) := []
  deriving DecidableEq, Repr

/-- A DAB stage beyond its objects (chapter 9). -/
structure Dab where
  started : Bool := false
  /-- Exact control state (log 7): bus setpoint ramp in V, pair current, bus integrator, phase correction. -/
  vRef : Rat := 0
  /-- The ramp starts from the bus voltage of the next job (R286, R404). -/
  atBus : Bool := false
  iPair : Rat := 0
  iInt : Rat := 0
  dInt : Rat := 0
  limitSince : Option Nat := none
  latched : Bool := false
  later : Nat := 0
  /-- The count at which a cause of its latch was last raised (R515). -/
  causeAt : Option Nat := none
  corr : Nat := 0
  arg : Nat := 0
  deriving DecidableEq, Repr

/-- A die: 0 the hub, 1 to 6 the channel dies. -/
structure Die where
  loop : Loop := {}
  refPresent : Bool := true
  /-- The last measured phase error against LT, in fine steps (R384). -/
  tbErr : Int := 0
  halted : Bool := false
  haltAt : Nat := 0
  unplanned : Bool := false
  up : Link := {}
  down : Link := {}
  /-- Counts of the last heartbeat flits that the hub received from the die, and the die from the hub (R509). -/
  hbHub : Nat := 0
  hbDie : Nat := 0
  /-- The watchdog has expired (R511). -/
  wdog : Bool := false
  tag7 : BitVec 32 := 0
  door : Bool := false
  /-- Short trips in the window of R62: local channel, fine-step time. -/
  trips : List (Nat × Nat) := []
  dab0 : Dab := {}
  dab1 : Dab := {}
  vdc : Int := 0
  vdcAt : Nat := 0
  /-- The die shows backpressure (R197). -/
  bp : Bool := false
  trained : Bool := false
  attempts : Nat := 0
  /-- The die has passed its path test since it was last sent (R363). -/
  tested : Bool := false
  echoAt : Option Nat := none
  /-- The test frame belongs to the arming of the drivers, not to a start (R363). -/
  arming : Bool := false
  /-- LT at which an engine reset ends (R413). -/
  engRst : Option Nat := none
  /-- The last millisecond, and the last 100 ms, whose temperature checks the die has made (R348, R349). -/
  overAt : Option Nat := none
  plausAt : Option Nat := none
  /-- REST: LT since which the conditions hold, and the wake timer (R402). -/
  restSince : Option Nat := none
  wakeAt : Option Nat := none
  busRamp : Bool := false
  scrub : Bool := false
  /-- Segment marks of R288: bus fault, clock loss, reset, lost. -/
  markBus : Bool := false
  markClk : Bool := false
  markRst : Bool := false
  markLost : Bool := false
  /-- LT of the losses within the last hour, the automatic recovery that waits, and whether three losses stopped it (R513). -/
  losses : List Nat := []
  recoverAt : Option Nat := none
  recoveryOff : Bool := false
  /-- Correlation ID of the segment latch (R63). -/
  segCorr : Nat := 0
  /-- Recycled energy in 10^-4 J (0x3180.03). -/
  recycled : Nat := 0
  /-- Entries sent per code and channel in this epoch (R499), key 65536 × code + channel. -/
  sent : Tbl Nat := []
  deriving DecidableEq, Repr

/-- A BLDC drive beyond its objects (chapter 10). Times are 320 MHz counts; speeds exact rpm. -/
structure Bldc where
  comm : Nat := 0
  forward : Bool := true
  lastComm : Nat := 0
  t1 : Nat := 0
  t2 : Nat := 0
  nextComm : Option Nat := none
  lastCross : Nat := 0
  consistent : Nat := 0
  since : Nat := 0
  brakeSince : Nat := 0
  speedRef : Rat := 0
  int : Rat := 0
  lastFail : Nat := 2
  loadSince : Option Nat := none
  nearSince : Option Nat := none
  ss1 : Bool := false
  floating : Bool := true
  /-- The last three crossings that a listen saw, newest first, each as the commutation state in which a rotor that turns
  forward shows it, with its count; and the latest classification (R313): forward, that state, and the last two intervals. -/
  seen : List (Nat × Nat) := []
  rotor : Option (Bool × Nat × Nat × Nat) := none
  /-- The load deviation's excursion has acted (R322). -/
  loadDone : Bool := false
  /-- A cycle-by-cycle limit has acted since the last job (R320). -/
  limited : Bool := false
  /-- Correlation ID of the latch (R504). -/
  corr : Nat := 0
  deriving DecidableEq, Repr

/-- A stepper axis beyond its objects: position and commanded positions in 2^-32 microsteps (R327, R330). -/
structure Axis where
  x : Int := 0
  v : Rat := 0
  c : Int := 0
  rate : Rat := 0
  lastEdge : Option Nat := none
  stillSince : Option Nat := none
  /-- LT at which the fall to the hold current began (R324). -/
  holdAt : Option Nat := none
  ia : Rat := 0
  ib : Rat := 0
  /-- The last three samples of each limit switch, newest first (R331). -/
  limN : List Bool := []
  limP : List Bool := []
  /-- LT of the last sample of each switch. -/
  limNAt : Option Nat := none
  limPAt : Option Nat := none
  ss1 : Bool := false
  /-- The axis decelerates toward its target (R328, rule 3). -/
  stopping : Bool := false
  /-- Correlation ID of the latch (R504). -/
  corr : Nat := 0
  deriving DecidableEq, Repr

/-- A hub ADC input's windows (R274): conversions in a row beyond and inside each of the four limits, the last value. -/
structure Win where
  beyond : List Nat := [0, 0, 0, 0]
  inside : List Nat := [0, 0, 0, 0]
  last : Int := 0
  /-- LT of the last conversion. -/
  at' : Nat := 0
  deriving DecidableEq, Repr

/-- The hub's power chain beyond its objects (chapter 9). -/
structure Power where
  theta : Rat := 0
  omega : Rat := 0
  iPll : Rat := 0
  vd : Rat := 0
  vq : Rat := 0
  lockSince : Option Nat := none
  lossJobs : Nat := 0
  /-- LTs since which a criterion of loss holds in the conversions, and in the jobs alone (R280); LT of slot 1's last job. -/
  onset : Option Nat := none
  jobOnset : Option Nat := none
  gridAt : Nat := 0
  /-- VG_WU at slot 1's last job in V, and its last two zero crossings in ns of LT, newest first (R278). -/
  wu : Option Rat := none
  wuCross : List Rat := []
  locked : Bool := false
  vdcRef : Rat := 0
  iDc : Rat := 0
  iD : Rat := 0
  iQ : Rat := 0
  fullRegen : Bool := false
  afeOn : Bool := false
  afeLatched : Bool := false
  chop : Bool := false
  chopSince : Nat := 0
  chopProve : Option Nat := none
  /-- LT at which the chopper's test pulse ends; conversions of ICHOP in a row above its limit without CHOP (R296). -/
  testPulse : Option Nat := none
  shortRun : Nat := 0
  adis : Bool := false
  adisSince : Nat := 0
  /-- LT by which IDIS must have shown the discharge current (R297). -/
  adisProve : Option Nat := none
  energy : Rat := 0
  /-- V_dc in mV at slot 2's jobs of the last 10 ms and one before, newest first (R286); LT of the last V_dc sent (R293). -/
  vdcHist : List (Nat × Int) := []
  vdcSent : Option Nat := none
  below60 : Option Nat := none
  ov1Since : Option Nat := none
  underSince : Option Nat := none
  stateSince : Nat := 0
  stopAt : Option Nat := none
  segStopped : Bool := false
  dcovA : Bool := false
  dcovB : Bool := false
  /-- The comparator under forced test (R364) and the end of its test. -/
  testing : Option (Nat × Nat) := none
  testFailed : Bool := false
  /-- LT since which each pair has disagreed: DC link, phases U, V, W, grid (R275). -/
  cross : List (Option Nat) := [none, none, none, none, none]
  /-- The comparator under test reported its trip (R364). -/
  tripSeen : Bool := false
  /-- The comparator under forced test reads tripped (R364). -/
  testHigh : Bool := false
  /-- The integrator of the neutral-point term (R282). -/
  npInt : Rat := 0
  corr : Nat := 0
  /-- The FLT inputs asserted (R104), and the correlation ID of each latched group. -/
  flt : Nat := 0
  fltCorr : Tbl Nat := []
  deriving DecidableEq, Repr

/-- A safe input of the supervisor (R338 to R342). -/
structure SafeIn where
  low : Nat := 0
  high : Nat := 0
  invalid : Nat := 0
  level : Nat := 0
  demand : Bool := false
  faulted : Bool := false
  recovered : Bool := true
  passes : Nat := 0
  validSince : Option Nat := none
  highSince : Option Nat := none
  maskUntil : Nat := 0
  /-- It has read low in the other source's latest pulse after reading high (R339). -/
  crossLow : Bool := false
  /-- Its last sample within its source's latest pulse, until the pulse ends (R339). -/
  pulseLevel : Option Nat := none
  deriving DecidableEq, Repr

/-- A safe output (R356). -/
structure SafeOut where
  on : Bool := false
  pulse : Bool := false
  /-- LT of the start of its latest pulse slot, until the slot ends; the number of that slot; the LT of the pulse's end, until the
  readback has shown high again (R356). -/
  slotAt : Option Nat := none
  slotNo : Option Nat := none
  backAt : Option Nat := none
  bad : Nat := 0
  fault : Nat := 0
  passed : Bool := false
  ss1At : Option Nat := none
  deriving DecidableEq, Repr

/-- A contactor drive (R358 to R361): command, LT of the command, samples in mismatch, feedback and its open time. -/
structure Contactor where
  close : Bool := false
  cmdAt : Nat := 0
  settled : Bool := true
  bad : Nat := 0
  drvBad : Nat := 0
  kfbClosed : Bool := false
  openSince : Option Nat := some 0
  welded : Bool := false
  deriving DecidableEq, Repr

/-- The safety supervisor beyond its objects (chapter 11). -/
structure Super where
  ins : Tbl SafeIn := []
  outs : Tbl SafeOut := []
  kdrv : Tbl Contactor := []
  /-- LT since which each pair, code 1 to 3, has disagreed (R341). -/
  disagree : List (Option Nat) := [none, none, none]
  /-- LT of the latest test pulse of each source (R339). -/
  lastPulse : List (Option Nat) := [none, none]
  /-- LT of the supervisor's start and of its latest cycle (R336). -/
  startAt : Nat := 0
  cycleAt : Option Nat := none
  thermal : List Nat := []
  stopDelayAt : Option Nat := none
  openDelayAt : Option Nat := none
  adisAt : Option Nat := none
  door : Bool := false
  fire : Bool := false
  /-- Fire demands that no input holds (R559): thermal, application heartbeat. -/
  thermalFire : Bool := false
  appFire : Bool := false
  appMissing : Bool := false
  autoDone : Bool := false
  cycles : Nat := 0
  deriving DecidableEq, Repr

/-- A record of the QM (R224): its type, its octets, the LT and the MCLK time of its creation, and the octets (slots, for
a step record) that its area had taken before it. -/
structure Rec where
  kind : Nat
  bytes : List Byte
  lt : Nat
  made : Nat
  place : Nat
  deriving DecidableEq, Repr

/-- A closed batch (R227 to R229): first record, count, header octets and signature. -/
structure Bat where
  first : Nat
  count : Nat
  header : List Byte
  sig : List Byte
  deriving DecidableEq, Repr

/-- The integrators of a channel (R214): nC and nJ, with residuals in 1/800 nC and 1/(8·10^8) nJ. -/
structure Integ where
  q : Int := 0
  qRes : Int := 0
  e : Int := 0
  eRes : Int := 0
  deriving DecidableEq, Repr

/-- A calibrated sample (R209, R210): the MCLK instant at the centre of its 125 µs interval, the LT at which the interval
starts, voltage in µV and current in 10 nA, the values the working modulators give (R255, R256), input beyond its range
(R213), and the integrators at the start of the interval, with the samples that stand and with the working ones. -/
structure QSample where
  m : Nat
  at' : Nat
  v : Int
  i : Int
  wv : Int
  wi : Int
  ovr : Bool
  acc : Integ
  wAcc : Integ
  deriving DecidableEq, Repr

/-- An open step of the QM (R207, R215): what its STEP_START carried, its cell ID, its interruption (R226) and the
sequence of its first impedance record; the sweep's next point and, but for the first, its E_k (R221). -/
structure QStep where
  row : Nat
  index : Nat
  mode : Nat
  gang : Nat
  firstJob : Nat
  loop : Nat
  sub4 : Nat
  sub2 : Nat
  cell : List Byte
  int : Bool := false
  firstImp : Nat := 0
  point : Nat := 0
  pointAt : Nat := 0
  deriving DecidableEq, Repr

/-- A metrology channel (chapter 7). -/
structure QChan where
  /-- The integrators, and what they would hold with the working modulators' samples alone (R255). -/
  acc : Integ := {}
  wAcc : Integ := {}
  /-- The samples, newest first, from 100 ms before the last close on; and the latest temperature in m°C (R211), as it
  stands and as the working modulator gives it. -/
  hist : List QSample := []
  temp : Int := 0
  wTemp : Int := 0
  step : Option QStep := none
  cell : List Byte := []
  cellNext : List Byte := []
  /-- The window (R215, R216): whether one has begun, its start LT, the integrators there, and the row of the step that
  it counts toward. -/
  begun : Bool := false
  winStart : Nat := 0
  winQ : Int := 0
  winE : Int := 0
  nextRow : Nat := 0xFFFF
  gangSize : Nat := 1
  /-- A periodic record of the window was dropped (R234); the QM has restarted in the window before its step (R225). -/
  pgap : Bool := false
  broken : Bool := false
  /-- Periodic records (R218): rate code, LT at which the interval in progress starts. -/
  rate : Nat := 0
  intStart : Nat := 0
  /-- The mirror means of the last epoch (R219): epoch LT, µV, 10 µA, and the integrators at that LT. -/
  mLt : Option Nat := none
  mV : Int := 0
  mI : Int := 0
  mQ : Int := 0
  mE : Int := 0
  /-- Checkpointed integrators (R226). -/
  ck : Integ := {}
  deriving DecidableEq, Repr

/-- A span of line time in which a flag of R225 applies: its bit, the site (0 all), its start and its end. -/
structure Mark where
  bit : Nat
  site : Nat
  start : Nat
  stop : Option Nat
  deriving DecidableEq, Repr

/-- The sums of a fit window (R254) over its samples in µV: the spare's, the working modulator's, and the extremes of
the latter. -/
structure Fit where
  n : Nat := 0
  x : Rat := 0
  y : Rat := 0
  xx : Rat := 0
  xy : Rat := 0
  yy : Rat := 0
  lo : Rat := 0
  hi : Rat := 0
  deriving DecidableEq, Repr

/-- A rotation group (R252 to R261), key 16 × site + group. Phases: 0 waiting, 1 overlap, 2 clearance, 3 freed
calibration, 4 no spare. -/
structure Rot where
  /-- Modulator of each input, in input order; none listed while they stand as at power-on. -/
  mods : List Nat := []
  spare : Option Nat := none
  /-- The spare has been set (it differs from its place at power-on). -/
  moved : Bool := false
  input : Nat := 0
  phase : Nat := 0
  /-- The MCLK time from which the next cycle starts; those of S, H and C, the instant for C once a beacon has set it
  (R256), and the LTs of S and H. -/
  next : Nat := 0
  s : Nat := 0
  h : Nat := 0
  c : Nat := 0
  cAt : Option Nat := none
  sLt : Nat := 0
  hLt : Nat := 0
  /-- The fit: its sums, the gain correction, and the offset correction in µV; and the input that its ramp runs on (R255). -/
  fit : Fit := {}
  gain : Rat := 0
  offs : Rat := 0
  ramp : Nat := 0
  abandons : Nat := 0
  /-- The freed modulator, the steps of its calibration done, the means of zero and point A in pV, and whether point B
  deviates too far (R258). -/
  freed : Nat := 0
  steps : Nat := 0
  zero : Int := 0
  pointA : Int := 0
  bad : Bool := false
  deriving DecidableEq, Repr

/-- Running trims (R251): offset in nV, gain with 0x8000_0000 for 1, and the MCLK time in ns of the calibration that they
come from (none: from the set, older than 900 s). -/
structure Trim where
  offs : Int := 0
  gain : Int := 0x80000000
  date : Option Int := none
  deriving DecidableEq, Repr

/-- A modulator (R251), key 256 × site + modulator: running trims for each range, suspect mark, drift excesses in a row,
recalibrations passed in a row, the MCLK time of the last, and whether its age has been reported. -/
structure Modl where
  volt : Trim := {}
  amp : Trim := {}
  suspect : Bool := false
  drifts : Nat := 0
  passes : Nat := 0
  lastRun : Nat := 0
  aged : Bool := false
  deriving DecidableEq, Repr

/-- An audit entry (R243). -/
structure Audit where
  seq : Nat
  evCount : Nat
  lt : Nat
  kind : Nat
  sealSt : Nat
  target : Nat
  slot : Nat
  tq : Bool
  old : List Byte
  new' : List Byte
  nonce : Nat
  deriving DecidableEq, Repr

/-- Octets placed piece by piece (R435, R485): the announced total and the pieces in order of arrival. -/
structure Pieces where
  total : Nat := 0
  parts : List (Nat × List Byte) := []
  deriving DecidableEq, Repr

/-- A mailbox reply (R205): opcode, tag, status, payload. -/
structure MbReply where
  op : Nat
  tag : Nat
  status : Nat
  payload : List Byte
  deriving DecidableEq, Repr

/-- A metrology port response (R246), and how many of its octets the controller clocked out. -/
structure PortReply where
  status : Nat
  payload : List Byte
  clocked : Nat
  deriving DecidableEq, Repr

/-- A VIO bank (R528). -/
structure Bank where
  /-- 0 absent, 1 a 1.8 V bank, 2 a 3.3 V bank. -/
  cls : Nat := 0
  /-- The count of its last reading as absent, or of its undervoltage. -/
  since : Nat := 0
  deriving DecidableEq, Repr

/-- The hub's temperature above 0x1221.02 since a count, and whether the stop of R536 has followed. -/
structure HubHeat where
  since : Option Nat := none
  acted : Bool := false
  deriving DecidableEq, Repr

/-- The measuring part (chapters 7 and 8). -/
structure Qm where
  powered : Bool := false
  booted : Bool := false
  vioM : Bool := true
  /-- VIO_M as the QM reads it (R528). -/
  bankM : Bank := {}
  /-- MCLK time in ns at a count of the package, from which it runs on (R202). -/
  mclk : Nat := 0
  mclkCnt : Nat := 0
  /-- The beacons received, newest first: MCLK time of receipt, epoch LT, epoch number (R210, R392). -/
  beacons : List (Nat × Nat × Nat) := []
  /-- Time quality is lost (R392); MCLK has failed, and since when in MCLK time (R373). -/
  tq : Bool := false
  clk : Bool := false
  clkSince : Nat := 0
  marks : List Mark := []
  /-- Sites whose M-MOD is on, and whose macro is configured (R19, R410). -/
  modOn : Nat := 0
  macros : Nat := 0
  /-- The LTs of the last 16 epoch markers of each site's Hinge-M stream, newest first (R33). -/
  markers : Tbl (List Nat) := []
  /-- Sites found at boot, sites whose framing is lost, the MCLK time of each site's last probe (R35, R410). -/
  sites : Nat := 0
  lost : Nat := 0
  probes : Tbl Nat := []
  chans : Tbl QChan := []
  /-- A checkpoint exists; its LT and MCLK time (R226). -/
  checked : Bool := false
  ckLt : Nat := 0
  ckAt : Nat := 0
  recs : Tbl Rec := []
  nextRec : Nat := 1
  bats : Tbl Bat := []
  lastBat : Nat := 0
  ackBat : Nat := 0
  /-- The first unbatched record; batches wait for free slots (R227). -/
  unbatched : Nat := 1
  stalled : Bool := false
  /-- Periodic area and step area: what unacknowledged records take, and what all records have taken (R203, R232). -/
  perUsed : Nat := 0
  perAll : Nat := 0
  stepUsed : Nat := 0
  stepAll : Nat := 0
  bp : Bool := false
  dropped : Nat := 0
  acImp : Nat := 0
  acExp : Nat := 0
  /-- The parts of a mJ that the registers do not show yet. -/
  acImpRes : Rat := 0
  acExpRes : Rat := 0
  acSec : Nat := 0
  lastAc : Option (List Byte) := none
  /-- Mailbox: classes subscribed, the latest reply, rejected frames (R205 to R208); the latest port response (R246). -/
  mask : Nat := 0
  reply : Option MbReply := none
  rejected : Nat := 0
  port : Option PortReply := none
  alerts : Nat := 0
  /-- STATUS has returned cause [2] for the beacon that is overdue (R247). -/
  lateSeen : Bool := false
  /-- Committed cycles, abandons and drift events of each site (0x5010, 0x5012). -/
  cycles : Tbl Nat := []
  abandons : Tbl Nat := []
  driftEvents : Tbl Nat := []
  /-- The seal (R236 to R244). -/
  sealSt : Nat := 1
  adjLevel : Bool := false
  adjSame : Nat := 0
  /-- MCLK time of the last sample of ADJ_EN. -/
  adjAt : Option Nat := none
  adjUntil : Option Nat := none
  leavePower : Bool := false
  /-- MCLK times of a leave by token, and of an expiry, for R240. -/
  leftAt : Option Nat := none
  expiredAt : Option Nat := none
  evCount : Nat := 0
  calGen : Nat := 0
  nonce : Option Nat := none
  refused : Nat := 0
  keys : Tbl (List Byte) := []
  audit : List Audit := []
  auditNext : Nat := 1
  auditAck : Nat := 0
  /-- Calibration items written at least once (R248, R249). -/
  cal : Tbl (List Byte) := []
  rots : Tbl Rot := []
  mods : Tbl Modl := []
  ckMods : Tbl Modl := []
  /-- QMFW slots A and B as written since manufacture, the active one, the announced image (R241). -/
  fwSlots : Tbl (List Byte) := []
  active : Nat := 0
  announced : Option (Nat × List Byte) := none
  image : Pieces := {}
  verified : Bool := false
  rollback : Nat := 0
  /-- Milestones received with their end LT, for R260: channel and end LT, newest first. -/
  closes : List (Nat × Nat) := []
  /-- Descriptors and records of a channel under a provisional takeover, in order, until C (R255). -/
  held : List Instr := []
  /-- Events sent to the hub and not yet received, oldest first (opcode 0x23). -/
  events : List QmEvent := []
  deriving DecidableEq, Repr

/-- A kept reply (R429, R443). -/
structure Reply where
  seq : Nat
  op : Nat
  status : Nat
  word3 : Nat
  word4 : Nat
  payload : List Byte
  sentLt : Nat
  deriving DecidableEq, Repr

/-- An open segmented transfer (R434). -/
structure Transfer where
  id : Nat
  write : Bool
  span : Span
  pieces : Pieces
  snapshot : List Byte
  lastLt : Nat
  deriving DecidableEq, Repr

/-- A subscription (R438). -/
structure Subscr where
  handle : Nat
  period : Nat
  entries : List SubEntry
  /-- Next record a record stream publishes (R440). -/
  nextRec : Nat
  nextBat : Nat
  deriving DecidableEq, Repr

/-- A Keyway session (R443, R447). -/
structure Session where
  id : Nat
  highest : Nat
  kept : List Reply
  transfers : List Transfer
  subs : List Subscr
  notifySeq : Nat
  lastLt : Nat
  keySlot : Nat
  confidential : Bool
  nonce : List Byte
  keys : List Byte
  deriving DecidableEq, Repr

/-- A handshake under way (R448). -/
structure Handshake where
  id : Nat
  seq : Nat
  mode : Nat
  t2 : List Byte
  secret : List Byte
  lastLt : Nat
  deriving DecidableEq, Repr

/-- A datagram the device sends (R427): its header fields, the payload in clear, the octets and the tag with which it
leaves (R449), its PCP and VLAN (R425). -/
structure Sent where
  op : Nat
  rsp : Bool
  session : Nat
  seq : Nat
  part : Nat
  more : Bool
  status : Nat
  word3 : Nat
  word4 : Nat
  payload : List Byte
  enc : Bool := false
  body : List Byte := []
  tag : List Byte := []
  pcp : Nat := 0
  vlan : Nat := 0
  deriving DecidableEq, Repr

/-- A publication whose values have been taken at an epoch (R439): session, 0 the user partition, handle, epoch number. -/
structure Pub where
  session : Nat
  handle : Nat
  number : Nat
  bytes : List Byte
  deriving DecidableEq, Repr

/-- The network objects in force since the last power-on or warm reset (R426): 0x1300.02 to 0x1300.0A. -/
structure IpCfg where
  v4 : Nat := 0xC0A8640A
  v4Prefix : Nat := 24
  gateway : Nat := 0
  v6 : List Byte := []
  v6Prefix : Nat := 64
  port : Nat := 29170
  vlan : Nat := 0
  replyPcp : Nat := 5
  notifyPcp : Nat := 6
  deriving DecidableEq, Repr

/-- The network side of the hub (chapter 14). -/
structure Net where
  sessions : List Session := []
  shakes : List Handshake := []
  nextId : Nat := 1
  /-- What the latest sending command handed to the switch. -/
  out : List Sent := []
  /-- The latest reply to the user partition or the service port: status and payload. -/
  local' : Option (Nat × List Byte) := none
  storing : Bool := false
  storeBy : Option Src := none
  /-- The opcode and words 3 and 4 of the reply that waits for the store (R422). -/
  storeAck : Nat × Nat × Nat := (0, 0, 0)
  storeSnap : List (Addr × Int) := []
  storeBlobs : List (Addr × List Byte) := []
  /-- The frames that wait at each Ethernet port with their queues, oldest first, and the one that left last (R425). -/
  egress : Tbl (List (Nat × List Byte)) := []
  forwarded : Option (Nat × List Byte) := none
  /-- Answered ARP, NDP and echo requests (R426). -/
  answered : Nat := 0
  /-- The highest record and batch sequences that have reached the hub (R208). -/
  gotRec : Nat := 0
  gotBat : Nat := 0
  unlockBy : Option Src := none
  unlockLt : Nat := 0
  /-- Subscriptions of the user partition, and its NOTIFY counter (R488). -/
  userSubs : List Subscr := []
  userSeq : Nat := 0
  ip : IpCfg := {}
  /-- Publications taken at an epoch and not yet sent (R439). -/
  pubs : List Pub := []
  /-- The octets and datagrams that record streams have sent in a second of line time (R440). -/
  streamSec : Nat := 0
  streamBytes : Nat := 0
  streamGrams : Nat := 0
  deriving DecidableEq, Repr

/-- A frame in a CAN transmit FIFO (R457 to R461): the LT of its deadline; how it leaves once its attempt ends: 0 as the
standard says, 1 a cancel is registered, 2 its deadline has expired. -/
structure CanTx where
  frame : CanFrame
  one : Bool
  handle : Nat
  deadline : Option Nat
  stop : Nat := 0
  deriving DecidableEq, Repr

/-- A ring entry (R463): LT, frame or octets of an event, kind, GAP, handle, outcome. -/
structure RingEntry where
  lt : Nat
  frame : CanFrame
  kind : Nat
  gap : Bool
  handle : Nat
  outcome : Nat
  deriving DecidableEq, Repr

/-- A CAN FD port beyond its objects (chapter 15). -/
structure Can where
  /-- The mode in force, which follows 0x1400 at the end of the frame on the bus (R455). -/
  mode : Nat := 0
  pendingMode : Option Nat := none
  fifo : List CanTx := []
  ring : Tbl RingEntry := []
  gap : Bool := false
  /-- A change to mode 0 has ended a recovery: error active at the next entry of mode 1 (R468). -/
  ended : Bool := false
  deriving DecidableEq, Repr

/-- Keys, images, the user partition and debug (chapter 16). -/
structure Sec where
  /-- Images of the flash slots written since power-on of the model; a slot not listed holds what Config gives it. -/
  slots : Tbl Pieces := []
  bootBlank : Bool := true
  /-- The boot ROM has accepted a HUBFW slot in this start (R478). -/
  booted : Bool := false
  /-- The boot ROM holds every output off because both slots failed (R481). -/
  dead : Bool := false
  fallback : Bool := false
  runSlot : List Nat := [0, 0, 0]
  loadTy : Nat := 0
  loadBy : Option Src := none
  loadLast : Nat := 0
  userNonce : List Byte := []
  serviceNonce : List Byte := []
  partYield : Nat := 0
  debug : Bool := false
  jtag : Nat := 2
  boundary : List Bool := []
  deriving DecidableEq, Repr

/-- The trail beyond its objects (R500 to R504): stored entries by slot, the armed freeze, waymark and correlation counts. -/
structure Trail where
  entries : Tbl Stored := []
  armed : Option Nat := none
  sinceMark : Nat := 0
  corr : Tbl Nat := []
  deriving DecidableEq, Repr

/-- The clocks (chapter 12): 320 MHz counts since power-on; LT in ns with its 2^-32 fraction; the phase of the next
REFCLK or always-on edge; the rate trim in force. -/
structure Clock where
  cnt : Nat := 0
  /-- The package's time base of R383 in fine steps, with the 2^-32 fraction of its rate trim. -/
  tb : Nat := 0
  tbFrac : Nat := 0
  lt : Nat := 0
  frac : Nat := 0
  phase : Nat := 0
  rho : Int := 0
  nextRho : Int := 0
  xtal : Bool := true
  core : Loop := {}
  lockCount : Nat := 0
  outCount : Nat := 0
  step : Option Int := none
  lastSync : Nat := 0
  withheld : Bool := false
  /-- LT of the latest epoch (R389), and of the beacon that is on its way to the QM. -/
  lastEpoch : Nat := 0
  beacon : Option Nat := none
  /-- LT at which the hub's REFCLK was last found present (R395). -/
  refAt : Nat := 0
  deriving DecidableEq, Repr

/-- A change-log entry (R370). -/
structure LogEntry where
  lt : Nat
  kind : Nat
  port : Nat
  index : Nat
  sub : Nat
  inst : Nat
  old : Int
  new' : Int
  crc : Nat
  seq : Nat
  deriving DecidableEq, Repr

/-- The safety password, the pending set and the change log (R366 to R370), in H-SAFE storage. -/
structure Lockbox where
  salt : List Byte := []
  hash : Option (List Byte) := none
  lockedAt : Option Nat := none
  pending : List (Addr × Int) := []
  log : List LogEntry := []
  logNext : Nat := 1
  deriving DecidableEq, Repr

/-- Resets that an answered request has asked for (R411): warm, a mask of sites, a mask of dies for their engines. -/
structure ResetReq where
  warm : Bool := false
  sites : Nat := 0
  engines : Nat := 0
  deriving DecidableEq, Repr

/-- Group waits (R193 to R198), key the group. -/
structure Group where
  first : Option Nat := none
  last : Nat := 0
  due : Option Nat := none
  deriving DecidableEq, Repr

/-- The state of the QF. -/
structure State where
  /-- The part: variant digit 2 to 8, an S part (R5, R8). -/
  variant : Nat
  sealedPart : Bool
  /-- VSYS is valid (R526), and the hub's firmware serves the dictionary (R395). -/
  vsys : Bool
  fw : Bool
  clock : Clock
  /-- The dictionary's numeric registers, and its STR and BLOB registers. -/
  objs : List (Addr × Int)
  blobs : List (Addr × List Byte)
  /-- Hub flash: the stored P objects (R422). -/
  flash : List (Addr × Int)
  flashBlobs : List (Addr × List Byte)
  chans : Tbl Chan
  units : Tbl GenUnit
  slots : Tbl Slot
  engines : Tbl Engine
  dies : Tbl Die
  descs : Tbl Desc
  adcs : Tbl Adc
  wins : Tbl Win
  /-- Result queues of the hub ADC units: entries of 64 bits, oldest first (R272). -/
  queues : Tbl (List (BitVec 64))
  groups : Tbl Group
  bldc : Tbl Bldc
  axes : Tbl Axis
  power : Power
  sup : Super
  lockbox : Lockbox
  qm : Qm
  net : Net
  can : Tbl Can
  sec : Sec
  trail : Trail
  /-- Start-up and power state: STANDBY or SLEEP is due at the next epoch, LT of SLEEP entry, REST wake. -/
  standbyDue : Nat
  sleepLt : Nat
  /-- LT of the last entry that the metrology die is not present (R397). -/
  metNote : Nat
  /-- LT of the last Hinge-R frame, and whether the link has been silent since (R514). -/
  lastMet : Nat
  metSilent : Bool
  /-- What the hub holds of the measuring part from the latest Hinge-R frame, and its count (R38); the tag of the hub's
  next request (R205). -/
  metView : Qm
  metViewAt : Nat
  tag : Nat
  sleepHash : List Byte
  /-- A wake from SLEEP is under way (R407). -/
  waking : Bool
  resetLt : Nat
  resetReq : ResetReq
  /-- Mailbox requests the hub has queued for the QM, oldest first (R191, R207), and those it has sent and the QM has not
  answered. -/
  lane : List Instr
  flight : List Instr
  /-- What manufacture programmed into fuses and key stores (R470): octets by item, where they are not those of Config. -/
  part : Tbl (List Byte)
  /-- The banks VIO_H0, VIO_H1 and VIO1 to VIO6 (R528), keys 0 to 7. -/
  banks : Tbl Bank
  /-- The hub's over-temperature (R536). -/
  hot : HubHeat
  /-- The model's own: how many free values have been drawn (log 5). -/
  free : Nat
  /-- The model's own: the commands that wait, first in first out. -/
  pending : List Instr
  deriving DecidableEq, Repr

/-- Why the machine stops. No command of the QF stops this model (NOTES.md, Stops): every refusal of the manual is a
Keyway, mailbox or port status and leaves a next state. -/
inductive Fault where
  /-- Raised by no command: kept so that the outcome type is inhabited for every kind of stop. Safe. -/
  | none
  deriving DecidableEq, Repr

/-- Why a command has no meaning in the model. -/
inductive Refusal where
  /-- Raised only by an arm of exec whose command has not got its meaning yet. Safe. -/
  | notModelled (mnemonic : String)
  deriving DecidableEq, Repr

/-- The machine after power-on reset: H-AO, H-SAFE and C-AO powered, LT 0, the trail empty, every object at its
default (R395, R412); the part is a QF8S (log 1); the free-value counter at 0 (log 5). -/
def State.reset : State where
  variant := 8
  sealedPart := true
  vsys := false
  fw := false
  clock := {}
  objs := []
  blobs := []
  flash := []
  flashBlobs := []
  chans := []
  units := []
  slots := []
  engines := []
  dies := []
  descs := []
  adcs := []
  wins := []
  queues := []
  groups := []
  bldc := []
  axes := []
  power := {}
  sup := {}
  lockbox := {}
  qm := {}
  net := {}
  can := []
  sec := {}
  trail := {}
  standbyDue := 0
  sleepLt := 0
  metNote := 0
  lastMet := 0
  metSilent := false
  metView := {}
  metViewAt := 0
  tag := 0
  sleepHash := []
  waking := false
  resetLt := 0
  resetReq := {}
  lane := []
  flight := []
  part := []
  banks := []
  hot := {}
  free := 0
  pending := []

end Sys2Proof.Machine
end

