-- ==== Sys2Proof/Machine/Dict.lean ====
section
/-! DEFINITION. The dictionary of R417 as data: one row per object row of the manual's object tables, with its
instances, type, access class, retention (P), the values a write may carry (for an STR or a BLOB: its length), and its
value at reset. Where the manual states no value ("Per part", "—", "Factory") the row holds the value of log 2. -/

namespace Sys2Proof.Machine

/-- Where an object has instances (R12): channels, die sites 1 to 6, the metrology instance, the device, or both
the device and the die sites. -/
inductive Scope where
  | ch
  | site
  | met
  | dev
  | devSite
  deriving DecidableEq, Repr

/-- The data types of R419. -/
inductive Ty where
  | bool
  | u8
  | u16
  | u32
  | u64
  | s8
  | s16
  | s32
  | s64
  | time64
  | str
  | blob
  deriving DecidableEq, Repr

/-- The access classes of R417. -/
inductive Acc where
  | ro
  | rw
  | rwi
  | rwp
  | mro
  | wo
  deriving DecidableEq, Repr

/-- A row of the dictionary: indices from `index` on, subindices from `sub` on. -/
structure Row where
  index : Nat
  count : Nat
  sub : Nat
  subs : Nat
  scope : Scope
  ty : Ty
  acc : Acc
  persist : Bool
  lo : Int
  hi : Int
  also : Option Int
  /-- The reset values in address order; one value stands for all. -/
  reset : List Int
  name : String
  deriving DecidableEq, Repr

/-- Objects 0x10xx. -/
def rows10 : List Row := [
  ⟨0x1000, 1, 1, 1, .dev, .str, .ro, false, 0, 64, none, [0], "Vendor"⟩,
  ⟨0x1000, 1, 2, 1, .dev, .str, .ro, false, 0, 64, none, [0], "Product"⟩,
  ⟨0x1000, 1, 3, 1, .dev, .str, .ro, false, 0, 64, none, [0], "Serial number"⟩,
  ⟨0x1010, 1, 1, 1, .dev, .u8, .wo, false, 1, 1, none, [0], "Store"⟩,
  ⟨0x1010, 1, 2, 1, .dev, .u8, .ro, false, 0, 255, none, [0], "Store status"⟩,
  ⟨0x1010, 1, 3, 1, .dev, .u8, .wo, false, 1, 1, none, [0], "Restore defaults"⟩,
  ⟨0x1020, 1, 0, 1, .dev, .u8, .ro, false, 0, 255, none, [0], "Site population"⟩,
  ⟨0x1021, 1, 1, 8, .dev, .u16, .ro, false, 0, 65535, none, [0], "Die step, sites 0–7"⟩,
  ⟨0x1022, 1, 0, 1, .dev, .u8, .ro, false, 0, 255, none, [0], "Variant"⟩,
  ⟨0x1023, 1, 0, 1, .dev, .u8, .ro, false, 0, 255, none, [0], "Suffix"⟩,
  ⟨0x1024, 1, 0, 1, .dev, .u32, .ro, false, 0, 4294967295, none, [0], "Entry count"⟩]

/-- Objects 0x11xx. -/
def rows11 : List Row := [
  ⟨0x1100, 1, 0, 1, .dev, .time64, .ro, false, 0, 18446744073709551615, none, [0], "Line time"⟩,
  ⟨0x1101, 1, 1, 1, .dev, .u8, .rwi, true, 1, 100, none, [10], "Epoch period"⟩,
  ⟨0x1101, 1, 2, 1, .dev, .u32, .ro, false, 0, 4294967295, none, [320000], "Epoch count"⟩,
  ⟨0x1101, 1, 3, 1, .dev, .u32, .ro, false, 0, 4294967295, none, [0], "Epoch number"⟩,
  ⟨0x1102, 1, 1, 1, .dev, .bool, .ro, false, 0, 1, none, [0], "REFCLK present"⟩,
  ⟨0x1102, 1, 2, 1, .dev, .u8, .ro, false, 0, 255, none, [0], "Always-on source"⟩,
  ⟨0x1102, 1, 3, 1, .dev, .u8, .ro, false, 0, 255, none, [0], "Hub core loop state"⟩,
  ⟨0x1102, 1, 5, 1, .dev, .u8, .ro, false, 0, 255, none, [0], "Time quality"⟩,
  ⟨0x1104, 1, 0, 1, .devSite, .u8, .ro, false, 0, 255, none, [0], "Pulse loop state"⟩,
  ⟨0x1105, 1, 0, 1, .devSite, .s32, .ro, false, (-2147483648), 2147483647, none, [0], "Last phase error"⟩,
  ⟨0x1106, 1, 0, 1, .devSite, .u32, .ro, false, 0, 4294967295, none, [0], "Lock losses"⟩,
  ⟨0x1108, 1, 1, 9, .dev, .u32, .rwi, true, 0, 31999, none, [0], "Hub phase offsets"⟩,
  ⟨0x1110, 1, 1, 1, .dev, .u8, .rwi, true, 0, 127, none, [0], "gPTP domain"⟩,
  ⟨0x1110, 1, 2, 1, .dev, .u8, .rw, true, 0, 255, none, [250], "Priority1"⟩,
  ⟨0x1110, 1, 3, 1, .dev, .u8, .rw, true, 0, 255, none, [248], "Priority2"⟩,
  ⟨0x1110, 1, 4, 1, .dev, .s8, .rwi, true, (-5), 0, none, [(-3)], "Log sync interval"⟩,
  ⟨0x1110, 1, 5, 1, .dev, .u8, .rwi, true, 0, 3, none, [3], "gPTP ports"⟩,
  ⟨0x1110, 1, 6, 1, .dev, .u32, .rw, true, 1000, 1000000000, none, [1000000], "Step threshold"⟩,
  ⟨0x1110, 1, 7, 1, .dev, .u32, .rw, true, 100000, 20000000, none, [5000000], "Slew limit"⟩,
  ⟨0x1110, 1, 8, 1, .dev, .u32, .rw, true, 20, 100000, none, [100], "Lock threshold"⟩,
  ⟨0x1111, 1, 1, 1, .dev, .u8, .ro, false, 0, 255, none, [0], "Sync state"⟩,
  ⟨0x1111, 1, 2, 1, .dev, .s64, .ro, false, (-9223372036854775808), 9223372036854775807, none, [0], "Offset"⟩,
  ⟨0x1111, 1, 3, 1, .dev, .s32, .ro, false, (-2147483648), 2147483647, none, [0], "Rate trim"⟩,
  ⟨0x1111, 1, 4, 1, .dev, .blob, .ro, false, 8, 8, none, [0], "Grandmaster identity"⟩,
  ⟨0x1111, 1, 5, 1, .dev, .u8, .ro, false, 0, 255, none, [255], "Slave port"⟩,
  ⟨0x1111, 1, 6, 1, .dev, .u32, .ro, false, 0, 4294967295, none, [0], "LT steps"⟩,
  ⟨0x1111, 1, 7, 1, .dev, .s64, .ro, false, (-9223372036854775808), 9223372036854775807, none, [0], "Last step"⟩]

/-- Objects 0x12xx. -/
def rows12 : List Row := [
  ⟨0x1200, 1, 1, 1, .dev, .u8, .ro, false, 0, 255, none, [1], "Device power state"⟩,
  ⟨0x1200, 1, 1, 1, .site, .u8, .ro, false, 0, 255, none, [5], "Site power state"⟩,
  ⟨0x1201, 1, 1, 1, .dev, .u8, .wo, false, 1, 4, none, [0], "Power state request"⟩,
  ⟨0x1201, 1, 2, 1, .dev, .u8, .rw, true, 0, 31, none, [1], "Wake sources"⟩,
  ⟨0x1201, 1, 3, 1, .dev, .u32, .rw, false, 0, 2592000, none, [0], "Wake timer"⟩,
  ⟨0x1202, 1, 1, 1, .dev, .u8, .ro, false, 0, 255, none, [0], "Start-up phase"⟩,
  ⟨0x1202, 1, 2, 1, .dev, .u8, .ro, false, 0, 255, none, [0], "Last reset kind"⟩,
  ⟨0x1202, 1, 3, 1, .dev, .u16, .ro, false, 0, 65535, none, [0], "Start-up time"⟩,
  ⟨0x1202, 1, 4, 1, .dev, .time64, .ro, false, 0, 18446744073709551615, none, [0], "Last reset LT"⟩,
  ⟨0x1202, 1, 5, 1, .dev, .bool, .ro, false, 0, 1, none, [0], "Metrology present"⟩,
  ⟨0x1203, 1, 1, 1, .dev, .u8, .wo, false, 165, 165, none, [0], "Warm reset"⟩,
  ⟨0x1203, 1, 2, 1, .dev, .u8, .wo, false, 0, 255, none, [0], "Site reset"⟩,
  ⟨0x1203, 1, 3, 1, .dev, .u8, .wo, false, 0, 255, none, [0], "Engine reset"⟩,
  ⟨0x1204, 1, 0, 1, .dev, .bool, .rw, true, 0, 1, none, [0], "Auto power start"⟩,
  ⟨0x1210, 1, 1, 1, .site, .bool, .rw, true, 0, 1, none, [1], "REST enable"⟩,
  ⟨0x1210, 1, 2, 1, .site, .u16, .rw, true, 10, 60000, none, [100], "REST entry delay"⟩,
  ⟨0x1210, 1, 3, 1, .site, .u32, .ro, false, 0, 4294967295, none, [0], "REST entries"⟩,
  ⟨0x1210, 1, 4, 1, .site, .u8, .ro, false, 0, 255, none, [0], "Last wake cause"⟩,
  ⟨0x1220, 1, 1, 1, .dev, .u16, .ro, false, 0, 65535, none, [0], "VSYS measured"⟩,
  ⟨0x1220, 1, 2, 1, .dev, .u16, .ro, false, 0, 65535, none, [0], "VSO measured"⟩,
  ⟨0x1220, 1, 3, 1, .dev, .u16, .ro, false, 0, 65535, none, [0], "VIO levels"⟩,
  ⟨0x1220, 1, 4, 1, .dev, .u8, .ro, false, 0, 255, none, [0], "VIO undervoltage"⟩,
  ⟨0x1220, 1, 5, 1, .dev, .u32, .ro, false, 0, 4294967295, none, [0], "Supply events"⟩,
  ⟨0x1221, 1, 1, 1, .dev, .s16, .ro, false, (-32768), 32767, none, [0], "Hub die temperature"⟩,
  ⟨0x1221, 1, 2, 1, .dev, .u8, .rwi, true, 90, 125, none, [120], "Hub over-temperature"⟩,
  ⟨0x1221, 1, 3, 1, .dev, .s16, .rw, false, 0, 0, none, [0], "Peak hub temperature"⟩]

/-- Objects 0x13xx. -/
def rows13 : List Row := [
  ⟨0x1300, 1, 1, 1, .dev, .blob, .ro, false, 6, 6, none, [0], "MAC address"⟩,
  ⟨0x1300, 1, 2, 1, .dev, .u32, .rw, true, 0, 4294967295, none, [3232261130], "IPv4 address"⟩,
  ⟨0x1300, 1, 3, 1, .dev, .u8, .rw, true, 1, 30, none, [24], "IPv4 prefix length"⟩,
  ⟨0x1300, 1, 4, 1, .dev, .u32, .rw, true, 0, 4294967295, none, [0], "IPv4 gateway"⟩,
  ⟨0x1300, 1, 5, 1, .dev, .blob, .rw, true, 16, 16, none, [0], "IPv6 global address"⟩,
  ⟨0x1300, 1, 6, 1, .dev, .u8, .rw, true, 1, 127, none, [64], "IPv6 prefix length"⟩,
  ⟨0x1300, 1, 7, 1, .dev, .u16, .rw, true, 1024, 65535, none, [29170], "Keyway port"⟩,
  ⟨0x1300, 1, 8, 1, .dev, .u16, .rw, true, 0, 4094, none, [0], "Keyway VLAN"⟩,
  ⟨0x1300, 1, 9, 1, .dev, .u8, .rw, true, 0, 7, none, [5], "Reply priority"⟩,
  ⟨0x1300, 1, 10, 1, .dev, .u8, .rw, true, 0, 7, none, [6], "NOTIFY priority"⟩,
  ⟨0x1301, 1, 1, 2, .dev, .u8, .ro, false, 0, 255, none, [0], "Link state, Ethernet A, B"⟩,
  ⟨0x1301, 1, 3, 2, .dev, .u32, .ro, false, 0, 4294967295, none, [0], "Oversize frames, A, B"⟩,
  ⟨0x1302, 1, 0, 1, .dev, .u16, .rw, true, 10, 3600, none, [60], "Session idle timeout"⟩,
  ⟨0x1303, 1, 1, 8, .dev, .blob, .rw, true, 32, 32, none, [0], "Host key slots"⟩,
  ⟨0x1304, 1, 0, 1, .dev, .bool, .rw, true, 0, 1, none, [0], "Confidentiality required"⟩,
  ⟨0x1305, 1, 0, 1, .dev, .u8, .ro, false, 0, 255, none, [0], "Open sessions"⟩,
  ⟨0x1310, 1, 1, 1, .dev, .u32, .ro, false, 0, 4294967295, none, [0], "Discarded datagrams"⟩,
  ⟨0x1310, 1, 2, 1, .dev, .u32, .ro, false, 0, 4294967295, none, [0], "Tag failures"⟩,
  ⟨0x1310, 1, 3, 1, .dev, .u32, .ro, false, 0, 4294967295, none, [0], "Duplicates answered"⟩,
  ⟨0x1310, 1, 4, 1, .dev, .u32, .ro, false, 0, 4294967295, none, [0], "Transfer timeouts"⟩,
  ⟨0x1310, 1, 5, 1, .dev, .u8, .ro, false, 0, 255, none, [0], "Open transfers"⟩,
  ⟨0x1310, 1, 6, 1, .dev, .u32, .ro, false, 0, 4294967295, none, [0], "Publication load"⟩,
  ⟨0x1310, 1, 7, 1, .dev, .u32, .ro, false, 0, 4294967295, none, [0], "Record stream backlog"⟩,
  ⟨0x1310, 1, 8, 1, .dev, .u32, .ro, false, 0, 4294967295, none, [0], "Records skipped by streams"⟩]

/-- Objects 0x14xx. -/
def rows14 : List Row := [
  ⟨0x1400, 1, 1, 2, .dev, .u8, .rw, true, 0, 2, none, [0], "Mode"⟩,
  ⟨0x1401, 1, 1, 2, .dev, .u8, .rwi, true, 1, 32, none, [1], "Nominal BRP"⟩,
  ⟨0x1402, 1, 1, 2, .dev, .u16, .rwi, true, 2, 256, none, [127], "Nominal TSEG1"⟩,
  ⟨0x1403, 1, 1, 2, .dev, .u8, .rwi, true, 1, 128, none, [32], "Nominal TSEG2"⟩,
  ⟨0x1404, 1, 1, 2, .dev, .u8, .rwi, true, 1, 128, none, [32], "Nominal SJW"⟩,
  ⟨0x1405, 1, 1, 2, .dev, .u8, .rwi, true, 1, 32, none, [1], "Data BRP"⟩,
  ⟨0x1406, 1, 1, 2, .dev, .u8, .rwi, true, 1, 32, none, [31], "Data TSEG1"⟩,
  ⟨0x1407, 1, 1, 2, .dev, .u8, .rwi, true, 1, 16, none, [8], "Data TSEG2"⟩,
  ⟨0x1408, 1, 1, 2, .dev, .u8, .rwi, true, 1, 16, none, [8], "Data SJW"⟩,
  ⟨0x1409, 1, 1, 2, .dev, .u8, .rwi, true, 0, 127, none, [32], "TDC offset"⟩,
  ⟨0x140A, 1, 1, 2, .dev, .bool, .rwi, true, 0, 1, none, [1], "TDC enable"⟩,
  ⟨0x140B, 1, 1, 2, .dev, .u8, .rw, true, 0, 1, none, [0], "Recovery mode"⟩,
  ⟨0x140C, 1, 1, 2, .dev, .u8, .wo, false, 1, 1, none, [0], "Restart"⟩,
  ⟨0x1410, 1, 1, 2, .dev, .blob, .wo, false, 12, 1408, none, [0], "Transmit submit"⟩,
  ⟨0x1411, 1, 1, 2, .dev, .u16, .wo, false, 0, 256, none, [0], "Cancel"⟩,
  ⟨0x1412, 1, 1, 2, .dev, .u8, .ro, false, 0, 255, none, [0], "FIFO fill"⟩,
  ⟨0x1413, 1, 1, 2, .dev, .u8, .ro, false, 0, 255, none, [0], "Error state"⟩,
  ⟨0x1414, 1, 1, 2, .dev, .u16, .ro, false, 0, 65535, none, [0], "TEC"⟩,
  ⟨0x1415, 1, 1, 2, .dev, .u8, .ro, false, 0, 255, none, [0], "REC"⟩,
  ⟨0x1416, 1, 1, 2, .dev, .u32, .ro, false, 0, 4294967295, none, [0], "Bus-off count"⟩,
  ⟨0x1417, 1, 1, 2, .dev, .u8, .ro, false, 0, 255, none, [0], "Recovery sequences"⟩,
  ⟨0x1418, 1, 1, 2, .dev, .u16, .ro, false, 0, 65535, none, [0], "Ring producer"⟩,
  ⟨0x1419, 1, 1, 2, .dev, .u16, .rw, false, 0, 65535, none, [0], "Ring consumer"⟩,
  ⟨0x141A, 1, 1, 2, .dev, .blob, .ro, false, 0, 1360, none, [0], "Ring block"⟩,
  ⟨0x141B, 1, 1, 2, .dev, .u32, .ro, false, 0, 4294967295, none, [0], "Dropped entries"⟩,
  ⟨0x141C, 1, 1, 2, .dev, .u8, .rwi, true, 0, 1, none, [0], "Ring reader"⟩,
  ⟨0x141D, 1, 1, 2, .dev, .u8, .ro, false, 0, 255, none, [0], "Measured delay"⟩,
  ⟨0x141E, 1, 1, 2, .dev, .u32, .ro, false, 0, 4294967295, none, [0], "Lost arbitrations"⟩]

/-- Objects 0x20xx. -/
def rows20 : List Row := [
  ⟨0x2000, 1024, 1, 12, .ch, .u32, .rwi, false, 0, 4294967295, none, [0], "Step row subentries"⟩]

/-- Objects 0x24xx. -/
def rows24 : List Row := [
  ⟨0x2400, 1, 1, 1, .ch, .blob, .wo, false, 48, 49152, none, [0], "Recipe load"⟩,
  ⟨0x2400, 1, 2, 1, .ch, .u16, .rwi, false, 0, 1023, none, [0], "Load base row"⟩,
  ⟨0x2400, 1, 3, 1, .ch, .u32, .ro, false, 0, 4294967295, none, [0], "Recipe CRC"⟩,
  ⟨0x2401, 1, 1, 1, .ch, .u8, .wo, false, 1, 3, none, [0], "Run command"⟩,
  ⟨0x2401, 1, 2, 1, .ch, .u16, .rwi, false, 0, 1023, none, [0], "Start row"⟩,
  ⟨0x2402, 1, 1, 1, .ch, .u8, .ro, false, 0, 255, none, [0], "Run state"⟩,
  ⟨0x2402, 1, 2, 1, .ch, .u16, .ro, false, 0, 65535, none, [0], "Current row"⟩,
  ⟨0x2402, 1, 3, 1, .ch, .u8, .ro, false, 0, 255, none, [0], "Run result"⟩,
  ⟨0x2402, 1, 4, 1, .ch, .u8, .ro, false, 0, 255, none, [0], "Abort code"⟩,
  ⟨0x2402, 1, 5, 1, .ch, .u32, .ro, false, 0, 4294967295, none, [0], "Steps run"⟩,
  ⟨0x2402, 1, 6, 1, .ch, .time64, .ro, false, 0, 18446744073709551615, none, [0], "Step-time origin"⟩,
  ⟨0x2402, 1, 7, 1, .ch, .u32, .ro, false, 0, 4294967295, none, [0], "Step time"⟩,
  ⟨0x2402, 1, 8, 1, .ch, .u16, .ro, false, 0, 65535, none, [65535], "First invalid row"⟩,
  ⟨0x2402, 1, 9, 1, .ch, .u8, .ro, false, 0, 255, none, [0], "Step end cause"⟩,
  ⟨0x2402, 1, 10, 1, .ch, .time64, .ro, false, 0, 18446744073709551615, none, [0], "Last step end LT"⟩,
  ⟨0x2403, 1, 1, 4, .ch, .u8, .ro, false, 0, 255, none, [0], "Loop counters 0–3"⟩,
  ⟨0x2403, 1, 5, 1, .ch, .u32, .rw, false, 0, 4294967295, none, [0], "Host flag"⟩,
  ⟨0x2403, 1, 6, 1, .ch, .s32, .ro, false, (-2147483648), 2147483647, none, [0], "Step charge"⟩,
  ⟨0x2403, 1, 7, 1, .ch, .s32, .ro, false, (-2147483648), 2147483647, none, [0], "Step energy"⟩,
  ⟨0x2404, 1, 1, 1, .ch, .u8, .rwi, true, 0, 127, (some 255), [255], "Group"⟩,
  ⟨0x2404, 1, 2, 1, .ch, .bool, .ro, false, 0, 1, none, [0], "Group detached"⟩,
  ⟨0x2405, 1, 1, 128, .dev, .u32, .rw, true, 0, 4294967295, none, [600000], "Group wait limit, groups 0–127"⟩,
  ⟨0x2406, 1, 1, 128, .dev, .u8, .ro, false, 0, 255, none, [0], "Group state"⟩,
  ⟨0x2407, 1, 1, 128, .dev, .time64, .ro, false, 0, 18446744073709551615, none, [0], "Group start LT"⟩,
  ⟨0x2408, 1, 0, 1, .dev, .bool, .ro, false, 0, 1, none, [0], "Backpressure in force"⟩,
  ⟨0x2440, 1, 1, 1, .ch, .u32, .rwi, true, 0, 4294967295, none, [2000], "Current kp"⟩,
  ⟨0x2440, 1, 2, 1, .ch, .u32, .rwi, true, 0, 4294967295, none, [40000], "Current ki"⟩,
  ⟨0x2440, 1, 3, 1, .ch, .u32, .rwi, true, 0, 4294967295, none, [200000], "Voltage kp"⟩,
  ⟨0x2440, 1, 4, 1, .ch, .u32, .rwi, true, 0, 4294967295, none, [20000000], "Voltage ki"⟩,
  ⟨0x2440, 1, 5, 1, .ch, .bool, .rwi, true, 0, 1, none, [1], "Feed-forward"⟩,
  ⟨0x2441, 1, 1, 1, .ch, .u32, .rwi, true, 100, 100000, none, [5000], "Current following-error limit"⟩,
  ⟨0x2441, 1, 2, 1, .ch, .u32, .rwi, true, 1000, 500000, none, [20000], "Voltage following-error limit"⟩,
  ⟨0x2441, 1, 3, 1, .ch, .u32, .rwi, true, 100, 1000000, none, [10000], "Following-error time"⟩,
  ⟨0x2441, 1, 4, 1, .ch, .u16, .rwi, true, 100, 10000, none, [2000], "Inhibit ramp rate"⟩,
  ⟨0x2441, 1, 5, 1, .ch, .u16, .rwi, true, 100, 10000, none, [4000], "Stale limit"⟩,
  ⟨0x2441, 1, 6, 1, .ch, .u32, .rwi, true, 100000, 10000000, none, [10000000], "Current limit I_max"⟩,
  ⟨0x2442, 1, 1, 1, .ch, .u8, .rwi, true, 0, 63, (some 255), [255], "CV compensation table"⟩,
  ⟨0x2442, 1, 2, 1, .ch, .u8, .rwi, true, 0, 63, (some 255), [255], "Temperature table"⟩,
  ⟨0x2443, 1, 1, 1, .ch, .u8, .ro, false, 0, 255, none, [0], "Plausibility status"⟩,
  ⟨0x2443, 1, 2, 1, .ch, .s32, .ro, false, (-2147483648), 2147483647, none, [0], "Voltage difference"⟩,
  ⟨0x2443, 1, 3, 1, .ch, .s32, .ro, false, (-2147483648), 2147483647, none, [0], "Current difference"⟩,
  ⟨0x2443, 1, 4, 1, .ch, .u32, .ro, false, 0, 4294967295, none, [0], "Disagreement run"⟩,
  ⟨0x2443, 1, 5, 1, .ch, .u32, .ro, false, 0, 4294967295, none, [0], "Plausibility faults"⟩,
  ⟨0x2444, 1, 1, 1, .ch, .u8, .ro, false, 0, 255, none, [0], "Control phase"⟩,
  ⟨0x2444, 1, 2, 1, .ch, .s32, .ro, false, (-2147483648), 2147483647, none, [0], "Current reference"⟩,
  ⟨0x2444, 1, 3, 1, .ch, .s32, .ro, false, (-2147483648), 2147483647, none, [0], "Current target"⟩,
  ⟨0x2444, 1, 4, 1, .ch, .s32, .ro, false, (-2147483648), 2147483647, none, [0], "Voltage reference"⟩,
  ⟨0x2444, 1, 5, 1, .ch, .s32, .ro, false, (-2147483648), 2147483647, none, [0], "Current integrator"⟩,
  ⟨0x2444, 1, 6, 1, .ch, .s32, .ro, false, (-2147483648), 2147483647, none, [0], "Voltage integrator"⟩,
  ⟨0x2444, 1, 7, 1, .ch, .time64, .ro, false, 0, 18446744073709551615, none, [0], "Handover LT"⟩,
  ⟨0x2444, 1, 8, 1, .ch, .u32, .ro, false, 0, 4294967295, none, [0], "Following-error run"⟩,
  ⟨0x2444, 1, 9, 1, .ch, .u8, .ro, false, 0, 255, none, [0], "Saturation flags"⟩,
  ⟨0x2444, 1, 10, 1, .ch, .u16, .ro, false, 0, 65535, none, [0], "Pulse or sweep phase"⟩,
  ⟨0x2445, 1, 1, 1, .ch, .s32, .ro, false, (-2147483648), 2147483647, none, [0], "Member reference"⟩,
  ⟨0x2445, 1, 2, 1, .ch, .s16, .ro, false, (-32768), 32767, none, [0], "Sharing deviation"⟩,
  ⟨0x2445, 1, 3, 1, .ch, .u16, .rw, false, 0, 0, none, [0], "Peak sharing deviation"⟩]

/-- Objects 0x25xx. -/
def rows25 : List Row := [
  ⟨0x2500, 1, 1, 1, .site, .u8, .ro, false, 0, 255, none, [16], "Engine count"⟩,
  ⟨0x2500, 1, 1, 1, .dev, .u8, .ro, false, 0, 255, none, [12], "Engine count"⟩,
  ⟨0x2500, 1, 2, 1, .site, .u16, .ro, false, 0, 65535, none, [640], "Engine clock"⟩,
  ⟨0x2500, 1, 2, 1, .dev, .u16, .ro, false, 0, 65535, none, [800], "Engine clock"⟩,
  ⟨0x2500, 1, 3, 1, .site, .u32, .ro, false, 0, 4294967295, none, [0], "Admitted load"⟩,
  ⟨0x2500, 1, 3, 1, .dev, .u32, .ro, false, 0, 4294967295, none, [0], "Admitted load"⟩,
  ⟨0x2500, 1, 4, 1, .site, .u32, .ro, false, 0, 4294967295, none, [6000], "Load limit"⟩,
  ⟨0x2500, 1, 4, 1, .dev, .u32, .ro, false, 0, 4294967295, none, [6000], "Load limit"⟩,
  ⟨0x2500, 1, 5, 1, .site, .u8, .ro, false, 0, 255, none, [0], "Last admission result"⟩,
  ⟨0x2500, 1, 5, 1, .dev, .u8, .ro, false, 0, 255, none, [0], "Last admission result"⟩,
  ⟨0x2501, 1, 1, 16, .site, .u32, .ro, false, 0, 4294967295, none, [0], "Steals, engines 0–15"⟩,
  ⟨0x2501, 1, 1, 12, .dev, .u32, .ro, false, 0, 4294967295, none, [0], "Steals, engines 0–15"⟩,
  ⟨0x2502, 1, 1, 16, .site, .u32, .ro, false, 0, 4294967295, none, [0], "Jobs run, engines 0–15"⟩,
  ⟨0x2502, 1, 1, 12, .dev, .u32, .ro, false, 0, 4294967295, none, [0], "Jobs run, engines 0–15"⟩,
  ⟨0x2503, 1, 1, 16, .site, .u8, .rw, false, 0, 0, none, [0], "Peak deque depth, engines 0–15"⟩,
  ⟨0x2503, 1, 1, 12, .dev, .u8, .rw, false, 0, 0, none, [0], "Peak deque depth, engines 0–15"⟩,
  ⟨0x2504, 1, 0, 1, .site, .u32, .rw, false, 0, 0, none, [0], "Peak job latency"⟩,
  ⟨0x2504, 1, 0, 1, .dev, .u32, .rw, false, 0, 0, none, [0], "Peak job latency"⟩,
  ⟨0x2505, 1, 1, 1, .site, .blob, .wo, false, 20, 1040, none, [0], "Descriptor load"⟩,
  ⟨0x2505, 1, 1, 1, .dev, .blob, .wo, false, 20, 1040, none, [0], "Descriptor load"⟩,
  ⟨0x2505, 1, 2, 1, .site, .u8, .wo, false, 32, 63, none, [0], "Descriptor remove"⟩,
  ⟨0x2505, 1, 2, 1, .dev, .u8, .wo, false, 32, 63, none, [0], "Descriptor remove"⟩,
  ⟨0x2505, 1, 3, 1, .site, .u16, .ro, false, 0, 65535, none, [11264], "Library free"⟩,
  ⟨0x2505, 1, 3, 1, .dev, .u16, .ro, false, 0, 65535, none, [11264], "Library free"⟩,
  ⟨0x2506, 1, 1, 64, .site, .u32, .ro, false, 0, 4294967295, none, [0], "Descriptor info, IDs 0–63"⟩,
  ⟨0x2506, 1, 1, 64, .dev, .u32, .ro, false, 0, 4294967295, none, [0], "Descriptor info, IDs 0–63"⟩,
  ⟨0x2507, 1, 1, 64, .site, .blob, .rwi, true, 2048, 2048, none, [0], "Curve table, 0–63"⟩,
  ⟨0x2507, 1, 1, 64, .dev, .blob, .rwi, true, 2048, 2048, none, [0], "Curve table, 0–63"⟩,
  ⟨0x2510, 1, 1, 1, .ch, .u32, .rwi, true, 3200, 320000, none, [16000], "Loop period"⟩,
  ⟨0x2510, 1, 2, 1, .ch, .u32, .ro, false, 0, 4294967295, none, [20000], "Loop rate"⟩,
  ⟨0x2510, 1, 3, 1, .ch, .u8, .ro, false, 0, 255, none, [0], "Home engine"⟩,
  ⟨0x2510, 1, 4, 1, .ch, .u32, .ro, false, 0, 4294967295, none, [0], "Release offset"⟩,
  ⟨0x2510, 1, 5, 1, .ch, .u16, .ro, false, 0, 65535, none, [0], "Admitted W"⟩,
  ⟨0x2511, 1, 1, 16, .ch, .u8, .rwi, true, 0, 255, none, [255, 1, 2, 3, 4, 5, 6, 7, 8, 9, 255, 255, 255, 255, 255, 255], "Mode map, modes 0–15"⟩,
  ⟨0x2511, 1, 17, 1, .ch, .u8, .rwi, true, 0, 255, none, [10], "Gang slave descriptor"⟩,
  ⟨0x2512, 1, 1, 1, .ch, .u32, .ro, false, 0, 4294967295, none, [0], "Overrun count"⟩,
  ⟨0x2512, 1, 2, 1, .ch, .u8, .ro, false, 0, 255, none, [0], "Consecutive overruns"⟩,
  ⟨0x2512, 1, 3, 1, .ch, .u32, .ro, false, 0, 4294967295, none, [0], "Last job latency"⟩,
  ⟨0x2512, 1, 4, 1, .ch, .u32, .rw, false, 0, 0, none, [0], "Peak job latency"⟩,
  ⟨0x2512, 1, 5, 1, .ch, .u32, .ro, false, 0, 4294967295, none, [0], "Jobs run"⟩,
  ⟨0x2512, 1, 6, 1, .ch, .u32, .ro, false, 0, 4294967295, none, [0], "Jobs stolen"⟩,
  ⟨0x2512, 1, 7, 1, .ch, .u32, .ro, false, 0, 4294967295, none, [0], "Stale reads"⟩,
  ⟨0x2513, 1, 0, 1, .ch, .blob, .ro, false, 256, 256, none, [0], "Loop state"⟩,
  ⟨0x2514, 1, 1, 2, .site, .u32, .rwi, true, 3200, 320000, none, [6400], "DAB loop period, stages 0–1"⟩,
  ⟨0x2514, 1, 3, 2, .site, .u8, .rwi, true, 0, 255, none, [11], "DAB descriptor, stages 0–1"⟩,
  ⟨0x2515, 1, 1, 2, .site, .u32, .ro, false, 0, 4294967295, none, [0], "DAB last job latency, stages 0–1"⟩,
  ⟨0x2520, 1, 1, 24, .dev, .u32, .rwi, true, 3200, 320000, none, [10000, 10000, 3200, 3200, 16000, 16000, 16000, 16000, 6400, 6400, 6400, 6400, 6400, 6400, 6400, 6400, 320000, 320000, 320000, 320000, 320000, 320000, 320000, 320000], "Hub slot loop period, slots 0–23"⟩,
  ⟨0x2521, 1, 1, 24, .dev, .u8, .ro, false, 0, 255, none, [0], "Hub slot home engine"⟩,
  ⟨0x2522, 1, 1, 24, .dev, .u32, .ro, false, 0, 4294967295, none, [0], "Hub slot release offset"⟩,
  ⟨0x2523, 1, 1, 24, .dev, .u8, .rwi, true, 0, 255, none, [16, 17, 18, 19, 20, 20, 20, 20, 21, 21, 21, 21, 22, 22, 22, 22, 255, 255, 255, 255, 255, 255, 255, 255], "Hub slot descriptor"⟩,
  ⟨0x2524, 1, 1, 24, .dev, .u32, .ro, false, 0, 4294967295, none, [0], "Hub slot overrun count"⟩,
  ⟨0x2525, 1, 1, 24, .dev, .u32, .rw, false, 0, 0, none, [0], "Hub slot peak latency"⟩]

/-- Objects 0x28xx (part). -/
def rows28a : List Row := [
  ⟨0x2800, 1, 1, 1, .site, .u8, .rwi, true, 2, 38, none, [8], "Dead time"⟩,
  ⟨0x2800, 1, 2, 1, .site, .u16, .ro, false, 0, 65535, none, [0], "VDRV measured"⟩,
  ⟨0x2800, 1, 3, 1, .site, .bool, .ro, false, 0, 1, none, [1], "VDRV undervoltage"⟩,
  ⟨0x2800, 1, 4, 1, .site, .bool, .ro, false, 0, 1, none, [0], "Drivers released"⟩,
  ⟨0x2800, 1, 5, 1, .site, .u8, .rwi, true, 4, 64, none, [12], "Minimum pulse"⟩,
  ⟨0x2801, 1, 1, 1, .site, .bool, .ro, false, 0, 1, none, [0], "Segment-bus fault"⟩,
  ⟨0x2801, 1, 2, 1, .site, .u8, .ro, false, 0, 255, none, [0], "Segment-bus pattern"⟩,
  ⟨0x2801, 1, 3, 1, .site, .u8, .ro, false, 0, 255, none, [255], "First tripping channel"⟩,
  ⟨0x2801, 1, 4, 1, .site, .u8, .ro, false, 0, 255, none, [0], "Trips in window"⟩,
  ⟨0x2801, 1, 5, 1, .site, .u32, .ro, false, 0, 4294967295, none, [0], "Segment-bus fault count"⟩,
  ⟨0x2802, 1, 1, 16, .site, .u8, .rwi, true, 0, 7, none, [0], "Gang code, quad 0–15"⟩,
  ⟨0x2803, 1, 1, 8, .site, .u8, .rwi, true, 0, 255, none, [26, 4, 1, 25, 26, 26, 25, 25], "Source mask, sources 0–7"⟩,
  ⟨0x2803, 1, 9, 1, .site, .u8, .ro, false, 0, 255, none, [0], "Sources asserted"⟩,
  ⟨0x2804, 1, 1, 3, .site, .u64, .rwi, true, 0, 18446744073709551615, none, [0], "Group mask G5–G7"⟩,
  ⟨0x2810, 1, 1, 1, .ch, .u32, .rwi, true, 10000, 95000, none, [75000], "Soft threshold"⟩,
  ⟨0x2810, 1, 2, 1, .ch, .u32, .rwi, true, 15000, 120000, none, [90000], "Hard threshold"⟩,
  ⟨0x2810, 1, 3, 1, .ch, .u16, .rwi, true, 40, 400, none, [100], "Soft blanking"⟩,
  ⟨0x2810, 1, 4, 1, .ch, .u8, .ro, false, 0, 255, none, [0], "Short status"⟩,
  ⟨0x2810, 1, 5, 1, .ch, .u32, .ro, false, 0, 4294967295, none, [0], "Short trip count"⟩,
  ⟨0x2811, 1, 1, 1, .ch, .bool, .rw, false, 0, 0, none, [0], "Interlock flag"⟩,
  ⟨0x2811, 1, 2, 1, .ch, .u32, .ro, false, 0, 4294967295, none, [0], "Refusal count"⟩,
  ⟨0x2811, 1, 3, 1, .ch, .u8, .ro, false, 0, 255, none, [0], "Last refusal cause"⟩,
  ⟨0x2811, 1, 4, 1, .ch, .time64, .ro, false, 0, 18446744073709551615, none, [0], "Last refusal LT"⟩,
  ⟨0x2812, 1, 1, 1, .ch, .u32, .ro, false, 0, 4294967295, none, [0], "Forced refresh count"⟩,
  ⟨0x2812, 1, 2, 1, .ch, .bool, .ro, false, 0, 1, none, [0], "Bootstrap undervoltage"⟩,
  ⟨0x2820, 1, 1, 1, .ch, .bool, .rw, true, 0, 1, none, [0], "Check at group milestone"⟩,
  ⟨0x2820, 1, 2, 1, .ch, .u8, .wo, false, 1, 1, none, [0], "Check now"⟩,
  ⟨0x2820, 1, 3, 1, .ch, .u8, .ro, false, 0, 255, none, [0], "Contact class"⟩,
  ⟨0x2820, 1, 4, 1, .ch, .s32, .ro, false, (-2147483648), 2147483647, none, [0], "V0"⟩,
  ⟨0x2820, 1, 5, 1, .ch, .s32, .ro, false, (-2147483648), 2147483647, none, [0], "V1"⟩,
  ⟨0x2820, 1, 6, 1, .ch, .s32, .ro, false, (-2147483648), 2147483647, none, [0], "V2"⟩,
  ⟨0x2820, 1, 7, 1, .ch, .s32, .ro, false, (-2147483648), 2147483647, none, [0], "V3"⟩,
  ⟨0x2820, 1, 8, 1, .ch, .u32, .ro, false, 0, 4294967295, none, [0], "Apparent resistance"⟩,
  ⟨0x2820, 1, 9, 1, .ch, .u32, .rw, true, 100, 50000, none, [2000], "Zero window"⟩,
  ⟨0x2820, 1, 10, 1, .ch, .time64, .ro, false, 0, 18446744073709551615, none, [0], "Check LT"⟩,
  ⟨0x2830, 1, 1, 1, .ch, .u8, .rwi, true, 0, 1, none, [0], "Update point mode"⟩,
  ⟨0x2830, 1, 2, 1, .ch, .u8, .rwi, true, 0, 1, none, [0], "Output owner"⟩,
  ⟨0x2830, 1, 3, 1, .ch, .u8, .rwi, true, 0, 1, none, [0], "Override"⟩,
  ⟨0x2831, 1, 1, 1, .ch, .u32, .rw, false, 640, 32000, none, [1600], "Staged period"⟩,
  ⟨0x2831, 1, 2, 1, .ch, .u32, .rw, false, 0, 4294967295, none, [0], "Staged rise"⟩,
  ⟨0x2831, 1, 3, 1, .ch, .u32, .rw, false, 0, 4294967295, none, [0], "Staged fall"⟩,
  ⟨0x2831, 1, 4, 1, .ch, .u8, .wo, false, 1, 1, none, [0], "Commit"⟩,
  ⟨0x2832, 1, 1, 1, .ch, .u32, .ro, false, 0, 4294967295, none, [1600], "Active period"⟩,
  ⟨0x2832, 1, 2, 1, .ch, .u32, .ro, false, 0, 4294967295, none, [0], "Active rise"⟩,
  ⟨0x2832, 1, 3, 1, .ch, .u32, .ro, false, 0, 4294967295, none, [0], "Active fall"⟩,
  ⟨0x2832, 1, 4, 1, .ch, .bool, .ro, false, 0, 1, none, [0], "Commit pending"⟩,
  ⟨0x2833, 1, 1, 1, .ch, .u32, .ro, false, 0, 4294967295, none, [0], "Suppressed pulses"⟩,
  ⟨0x2833, 1, 2, 1, .ch, .u32, .ro, false, 0, 4294967295, none, [0], "Suppressed gaps"⟩,
  ⟨0x2833, 1, 3, 1, .ch, .u32, .ro, false, 0, 4294967295, none, [0], "Postponed edges"⟩,
  ⟨0x2833, 1, 4, 1, .ch, .bool, .rw, false, 0, 0, none, [0], "Set-clipped flag"⟩,
  ⟨0x2833, 1, 5, 1, .ch, .u32, .ro, false, 0, 4294967295, none, [0], "Clipped periods"⟩,
  ⟨0x2833, 1, 6, 1, .ch, .u32, .ro, false, 0, 4294967295, none, [0], "Applied on-time"⟩,
  ⟨0x2833, 1, 7, 1, .ch, .u32, .ro, false, 0, 4294967295, none, [0], "Discarded engine commits"⟩,
  ⟨0x2834, 1, 0, 1, .ch, .u32, .rwi, true, 0, 31999, none, [0], "Phase offset"⟩,
  ⟨0x2835, 1, 0, 1, .ch, .s32, .ro, false, (-2147483648), 2147483647, none, [0], "Grid shift"⟩,
  ⟨0x2851, 1, 1, 16, .site, .s32, .rw, true, (-2147483648), 2147483647, none, [0], "Bus-sense offset, units 0–15"⟩,
  ⟨0x2852, 1, 1, 1, .ch, .s32, .rw, true, (-2147483648), 2147483647, none, [0], "Voltage offset"⟩,
  ⟨0x2852, 1, 2, 1, .ch, .u32, .rw, true, 900000, 1100000, none, [1000000], "Voltage gain"⟩,
  ⟨0x2852, 1, 3, 1, .ch, .s32, .rw, true, (-2147483648), 2147483647, none, [0], "Current offset"⟩,
  ⟨0x2852, 1, 4, 1, .ch, .u32, .rw, true, 900000, 1100000, none, [1000000], "Current gain"⟩]

/-- Objects 0x28xx (part). -/
def rows28b : List Row := [
  ⟨0x2852, 1, 5, 1, .ch, .s32, .rw, true, (-2147483648), 2147483647, none, [0], "Temperature offset"⟩,
  ⟨0x2852, 1, 6, 1, .ch, .u32, .rw, true, 900000, 1100000, none, [1000000], "Temperature gain"⟩,
  ⟨0x2853, 1, 1, 1, .site, .u32, .rw, true, 1, 3600, none, [60], "Diagnosis interval"⟩,
  ⟨0x2853, 1, 2, 1, .site, .u32, .ro, false, 0, 4294967295, none, [0], "Diagnoses run"⟩,
  ⟨0x2853, 1, 3, 1, .site, .u32, .ro, false, 0, 4294967295, none, [0], "Diagnosis failures"⟩,
  ⟨0x2853, 1, 4, 1, .site, .u16, .ro, false, 0, 65535, none, [0], "Failed units"⟩,
  ⟨0x2853, 1, 5, 1, .site, .u32, .ro, false, 0, 4294967295, none, [0], "Postponed diagnoses"⟩,
  ⟨0x2853, 1, 6, 1, .site, .u16, .wo, false, 0, 65535, none, [0], "Diagnose now"⟩,
  ⟨0x2855, 1, 1, 16, .site, .u32, .rw, true, 900000, 1100000, none, [1000000], "Bus-sense gain, units 0–15"⟩]

/-- Objects 0x30xx. -/
def rows30 : List Row := [
  ⟨0x3010, 1, 1, 8, .dev, .u8, .rwi, true, 0, 255, none, [1, 2, 4, 8, 16, 32, 64, 128], "Hub FLT mask, FLT0–FLT7"⟩,
  ⟨0x3011, 1, 1, 36, .dev, .u8, .rwi, true, 0, 7, none, [0, 0, 0, 0, 0, 0, 1, 2, 3, 3, 3, 3, 3, 3, 4, 4, 4, 4, 4, 4, 5, 5, 5, 5, 5, 5, 5, 5, 6, 6, 6, 6, 6, 6, 6, 6], "Hub unit group"⟩,
  ⟨0x3012, 1, 1, 8, .dev, .u8, .rwi, true, 0, 1, none, [0], "Hub group fault state"⟩,
  ⟨0x3020, 1, 1, 1, .dev, .u32, .rw, true, 1, 3600, none, [60], "Hub diagnosis interval"⟩,
  ⟨0x3020, 1, 2, 1, .dev, .u32, .ro, false, 0, 4294967295, none, [0], "Hub diagnoses run"⟩,
  ⟨0x3020, 1, 3, 1, .dev, .u32, .ro, false, 0, 4294967295, none, [0], "Hub diagnosis failures"⟩,
  ⟨0x3020, 1, 4, 1, .dev, .u8, .ro, false, 0, 255, none, [0], "Hub failed units"⟩,
  ⟨0x3021, 1, 1, 64, .dev, .s32, .rw, true, (-2147483648), 2147483647, none, [0], "Hub input offset"⟩,
  ⟨0x3022, 1, 1, 64, .dev, .u32, .rw, true, 900000, 1100000, none, [1000000], "Hub input gain"⟩,
  ⟨0x3030, 1, 1, 64, .dev, .u8, .rw, true, 0, 3, none, [3, 3, 3, 3, 3, 3, 3, 3, 3, 3, 3, 0, 0, 0, 0, 0, 3, 3, 3, 3, 3, 3, 3, 3, 3, 3, 3, 0, 0, 0, 0, 0, 3, 3, 3, 3, 3, 3, 3, 0, 0, 0, 0, 0, 0, 0, 0, 0, 3, 3, 3, 3, 3, 3, 3, 0, 0, 0, 0, 0, 0, 0, 0, 0], "Input format"⟩,
  ⟨0x3031, 1, 1, 64, .dev, .s32, .rwi, true, (-2147483648), 2147483647, none, [1000000], "Input scale"⟩,
  ⟨0x3032, 1, 1, 64, .dev, .s32, .rw, true, (-2147483648), 2147483647, none, [(-2147483648)], "W0 low"⟩,
  ⟨0x3033, 1, 1, 64, .dev, .s32, .rw, true, (-2147483648), 2147483647, none, [2147483647], "W0 high"⟩,
  ⟨0x3034, 1, 1, 64, .dev, .s32, .rw, true, (-2147483648), 2147483647, none, [(-2147483648)], "W1 low"⟩,
  ⟨0x3035, 1, 1, 64, .dev, .s32, .rw, true, (-2147483648), 2147483647, none, [2147483647], "W1 high"⟩,
  ⟨0x3036, 1, 1, 64, .dev, .u8, .rw, true, 1, 16, none, [2], "Window count"⟩,
  ⟨0x3037, 1, 1, 64, .dev, .u8, .ro, false, 0, 255, none, [0], "Window state"⟩,
  ⟨0x3038, 1, 1, 4, .dev, .u32, .ro, false, 0, 4294967295, none, [0], "Queue overwrites"⟩,
  ⟨0x3040, 1, 1, 1, .dev, .u32, .rwi, true, 6400, 64000, none, [20000], "AFE carrier period"⟩,
  ⟨0x3040, 1, 2, 1, .dev, .u16, .rwi, true, 32, 640, none, [160], "AFE dead time"⟩,
  ⟨0x3040, 1, 3, 1, .dev, .u16, .rwi, true, 34, 1280, none, [320], "AFE minimum pulse"⟩,
  ⟨0x3040, 1, 4, 1, .dev, .u16, .rwi, true, 380, 480, none, [400], "Nominal grid voltage"⟩,
  ⟨0x3040, 1, 5, 1, .dev, .u32, .rwi, true, 1000, 600000, none, [380000], "Current limit"⟩,
  ⟨0x3040, 1, 6, 1, .dev, .s32, .rw, true, (-2147483648), 2147483647, none, [0], "Reactive current setpoint"⟩,
  ⟨0x3040, 1, 7, 1, .dev, .u32, .rwi, true, 0, 4294967295, none, [250000], "Boost inductance"⟩,
  ⟨0x3040, 1, 8, 1, .dev, .u32, .rwi, true, 0, 4294967295, none, [1500], "Current kp"⟩,
  ⟨0x3040, 1, 9, 1, .dev, .u32, .rwi, true, 0, 4294967295, none, [300000], "Current ki"⟩,
  ⟨0x3040, 1, 10, 1, .dev, .u32, .rwi, true, 0, 4294967295, none, [5000], "DC-link kp"⟩,
  ⟨0x3040, 1, 11, 1, .dev, .u32, .rwi, true, 0, 4294967295, none, [100000], "DC-link ki"⟩,
  ⟨0x3040, 1, 12, 1, .dev, .u8, .ro, false, 0, 255, none, [0], "Grid state"⟩,
  ⟨0x3040, 1, 13, 1, .dev, .u32, .ro, false, 0, 4294967295, none, [0], "Grid frequency"⟩,
  ⟨0x3040, 1, 14, 1, .dev, .u32, .ro, false, 0, 4294967295, none, [0], "Grid voltage"⟩,
  ⟨0x3040, 1, 15, 1, .dev, .s32, .ro, false, (-2147483648), 2147483647, none, [0], "i_d"⟩,
  ⟨0x3040, 1, 16, 1, .dev, .s32, .ro, false, (-2147483648), 2147483647, none, [0], "i_q"⟩,
  ⟨0x3040, 1, 17, 1, .dev, .u8, .ro, false, 0, 255, none, [0], "AFE status"⟩,
  ⟨0x3050, 1, 1, 1, .dev, .u8, .wo, false, 1, 2, none, [0], "Power command"⟩,
  ⟨0x3050, 1, 2, 1, .dev, .u8, .ro, false, 0, 255, none, [0], "DC-link state"⟩,
  ⟨0x3050, 1, 3, 1, .dev, .u8, .ro, false, 0, 255, none, [0], "Stop cause"⟩,
  ⟨0x3050, 1, 4, 1, .dev, .u16, .rwi, true, 500, 10000, none, [3000], "Precharge timeout"⟩,
  ⟨0x3050, 1, 5, 1, .dev, .u16, .rwi, true, 1, 50, none, [5], "Segment stop delay"⟩,
  ⟨0x3060, 1, 1, 1, .dev, .u16, .rwi, true, 700, 850, none, [760], "DC-link setpoint"⟩,
  ⟨0x3060, 1, 2, 1, .dev, .u16, .rwi, true, 0, 65535, none, [860], "V_chop_off"⟩,
  ⟨0x3060, 1, 3, 1, .dev, .u16, .rwi, true, 0, 65535, none, [880], "V_chop_on"⟩,
  ⟨0x3060, 1, 4, 1, .dev, .u16, .rwi, true, 0, 65535, none, [900], "OV1"⟩,
  ⟨0x3060, 1, 5, 1, .dev, .u16, .rwi, true, 0, 65535, none, [930], "OV2"⟩,
  ⟨0x3060, 1, 6, 1, .dev, .u16, .rwi, true, 10, 50, none, [20], "OV1 release hysteresis"⟩,
  ⟨0x3060, 1, 7, 1, .dev, .u16, .rwi, true, 400, 650, none, [550], "DC-link undervoltage"⟩,
  ⟨0x3060, 1, 8, 1, .dev, .u32, .ro, false, 0, 4294967295, none, [0], "V_dc A"⟩,
  ⟨0x3060, 1, 9, 1, .dev, .u32, .ro, false, 0, 4294967295, none, [0], "V_dc B"⟩,
  ⟨0x3060, 1, 10, 1, .dev, .s32, .ro, false, (-2147483648), 2147483647, none, [0], "Midpoint imbalance"⟩,
  ⟨0x3060, 1, 11, 1, .dev, .u8, .ro, false, 0, 255, none, [0], "Cascade level"⟩,
  ⟨0x3060, 1, 12, 1, .dev, .u8, .ro, false, 0, 255, none, [0], "DCOV status"⟩,
  ⟨0x3070, 1, 1, 1, .dev, .u32, .rwi, true, 1000, 100000, none, [6000], "Chopper resistance"⟩,
  ⟨0x3070, 1, 2, 1, .dev, .u16, .rwi, true, 100, 10000, none, [2000], "Chopper on-time limit"⟩,
  ⟨0x3070, 1, 3, 1, .dev, .u8, .ro, false, 0, 255, none, [4], "Chopper state"⟩,
  ⟨0x3070, 1, 4, 1, .dev, .u32, .rwi, true, 0, 4294967295, none, [330000], "Discharge resistance"⟩,
  ⟨0x3070, 1, 5, 1, .dev, .u32, .rwi, true, 100, 100000, none, [1000], "Discharge energy rating"⟩,
  ⟨0x3070, 1, 6, 1, .dev, .u32, .ro, false, 0, 4294967295, none, [0], "Last discharge energy"⟩,
  ⟨0x3070, 1, 7, 1, .dev, .u32, .rwi, true, 100, 50000, none, [1500], "DC-link capacitance"⟩,
  ⟨0x3070, 1, 8, 1, .dev, .u8, .ro, false, 0, 255, none, [0], "Discharge state"⟩]

/-- Objects 0x31xx. -/
def rows31 : List Row := [
  ⟨0x3100, 1, 1, 1, .site, .u32, .rwi, true, 640, 32000, none, [3200], "DAB carrier period"⟩,
  ⟨0x3100, 1, 2, 1, .site, .u16, .rwi, true, 4, 320, none, [32], "DAB dead time"⟩,
  ⟨0x3100, 1, 3, 1, .site, .u16, .rwi, true, 6, 640, none, [64], "DAB minimum pulse"⟩,
  ⟨0x3100, 1, 4, 1, .site, .u32, .rwi, true, 10000, 16000, none, [14000], "Bus setpoint"⟩,
  ⟨0x3100, 1, 5, 1, .site, .u16, .rwi, true, 1000, 15000, none, [15000], "Stage power limit"⟩,
  ⟨0x3100, 1, 6, 1, .site, .u16, .rwi, true, 100, 1700, none, [900], "Δ limit"⟩,
  ⟨0x3100, 1, 7, 1, .site, .u32, .rwi, true, 14500, 17000, none, [16500], "Segment overvoltage"⟩,
  ⟨0x3100, 1, 8, 1, .site, .u32, .rwi, true, 8000, 15000, none, [9500], "Segment undervoltage"⟩,
  ⟨0x3100, 1, 9, 1, .site, .u8, .rwi, true, 90, 125, none, [120], "Die over-temperature"⟩,
  ⟨0x3100, 1, 10, 1, .site, .bool, .rwi, true, 0, 1, none, [1], "Segment enable"⟩,
  ⟨0x3100, 1, 11, 1, .site, .u32, .rwi, true, 0, 4294967295, none, [54000], "Turns ratio"⟩,
  ⟨0x3100, 1, 12, 1, .site, .u32, .rwi, true, 0, 4294967295, none, [40000], "Leakage inductance"⟩,
  ⟨0x3101, 1, 1, 2, .site, .u8, .ro, false, 0, 255, none, [0], "Stage state"⟩,
  ⟨0x3102, 1, 1, 2, .site, .s32, .ro, false, (-2147483648), 2147483647, none, [0], "Active Δ"⟩,
  ⟨0x3103, 1, 1, 2, .site, .s32, .ro, false, (-2147483648), 2147483647, none, [0], "Stage current"⟩,
  ⟨0x3104, 1, 0, 1, .site, .u8, .ro, false, 0, 255, none, [0], "Segment status"⟩,
  ⟨0x3105, 1, 0, 1, .site, .u32, .ro, false, 0, 4294967295, none, [0], "Bus voltage"⟩,
  ⟨0x3106, 1, 0, 1, .site, .s16, .ro, false, (-32768), 32767, none, [0], "Die temperature"⟩,
  ⟨0x3107, 1, 1, 2, .site, .u32, .rwi, true, 0, 4294967295, none, [10000], "Stage current scale"⟩,
  ⟨0x3108, 1, 0, 1, .site, .u32, .rwi, true, 0, 31999, none, [0], "DAB phase offset"⟩,
  ⟨0x3109, 1, 1, 2, .site, .s32, .ro, false, (-2147483648), 2147483647, none, [0], "DAB grid shift, stages 0–1"⟩,
  ⟨0x3180, 1, 1, 1, .site, .s32, .ro, false, (-2147483648), 2147483647, none, [0], "Segment net power"⟩,
  ⟨0x3180, 1, 2, 1, .site, .u32, .ro, false, 0, 4294967295, none, [0], "Segment exchange power"⟩,
  ⟨0x3180, 1, 3, 1, .site, .u64, .ro, false, 0, 18446744073709551615, none, [0], "Segment recycled energy"⟩,
  ⟨0x3181, 1, 1, 1, .dev, .s32, .ro, false, (-2147483648), 2147483647, none, [0], "DC-link segment sum"⟩,
  ⟨0x3181, 1, 2, 1, .dev, .s32, .ro, false, (-2147483648), 2147483647, none, [0], "AFE AC power"⟩]

/-- Objects 0x34xx (part). -/
def rows34a : List Row := [
  ⟨0x3400, 1, 1, 4, .dev, .s32, .rw, false, (-2147483648), 2147483647, none, [0], "Speed setpoint"⟩,
  ⟨0x3401, 1, 1, 4, .dev, .u8, .rwi, true, 1, 16, none, [4], "Pole pairs"⟩,
  ⟨0x3402, 1, 1, 4, .dev, .u16, .rwi, true, 50, 10000, none, [300], "Minimum speed"⟩,
  ⟨0x3403, 1, 1, 4, .dev, .u16, .rwi, true, 50, 60000, none, [6000], "Maximum speed"⟩,
  ⟨0x3404, 1, 1, 4, .dev, .u16, .rwi, true, 10, 60000, none, [1000], "Speed ramp rate"⟩,
  ⟨0x3405, 1, 1, 4, .dev, .u16, .rwi, true, 50, 10000, none, [500], "Catch threshold"⟩,
  ⟨0x3406, 1, 1, 4, .dev, .u32, .rwi, true, 0, 4294967295, none, [2000], "Back-EMF constant"⟩,
  ⟨0x3407, 1, 1, 4, .dev, .u16, .rwi, true, 0, 10000, none, [5000], "Brake duty"⟩,
  ⟨0x3408, 1, 1, 4, .dev, .u16, .rwi, true, 100, 60000, none, [5000], "Brake time limit"⟩,
  ⟨0x3409, 1, 1, 4, .dev, .u32, .rwi, true, 0, 4294967295, none, [2000], "Align current"⟩,
  ⟨0x340A, 1, 1, 4, .dev, .u16, .rwi, true, 10, 5000, none, [300], "Align time"⟩,
  ⟨0x340B, 1, 1, 4, .dev, .blob, .rwi, true, 128, 128, none, [0], "Ramp table"⟩,
  ⟨0x340C, 1, 1, 4, .dev, .u16, .rwi, true, 0, 65535, none, [600], "Handover speed"⟩,
  ⟨0x340D, 1, 1, 4, .dev, .u8, .rwi, true, 3, 32, none, [6], "Handover crossings"⟩,
  ⟨0x340E, 1, 1, 4, .dev, .blob, .rwi, true, 64, 64, none, [0], "Advance table"⟩,
  ⟨0x340F, 1, 1, 4, .dev, .u32, .rwi, true, 0, 4294967295, none, [10000], "Current limit"⟩,
  ⟨0x3410, 1, 1, 4, .dev, .u32, .rwi, true, 0, 4294967295, none, [15000], "Overcurrent trip"⟩,
  ⟨0x3411, 1, 1, 4, .dev, .u8, .rwi, true, 0, 10, none, [3], "Retry limit"⟩,
  ⟨0x3412, 1, 1, 4, .dev, .u16, .rwi, true, 100, 60000, none, [2000], "Retry delay"⟩,
  ⟨0x3413, 1, 1, 4, .dev, .u32, .rwi, true, 0, 4294967295, none, [100], "Speed kp"⟩,
  ⟨0x3414, 1, 1, 4, .dev, .u32, .rwi, true, 0, 4294967295, none, [500], "Speed ki"⟩,
  ⟨0x3415, 1, 1, 4, .dev, .u8, .rwi, true, 0, 63, (some 255), [255], "Load curve"⟩,
  ⟨0x3416, 1, 1, 4, .dev, .u32, .rwi, true, 0, 4294967295, none, [1000], "Load band"⟩,
  ⟨0x3417, 1, 1, 4, .dev, .u16, .rwi, true, 100, 60000, none, [5000], "Load time"⟩,
  ⟨0x3418, 1, 1, 4, .dev, .u8, .rwi, true, 0, 1, none, [0], "Load action"⟩,
  ⟨0x3419, 1, 1, 4, .dev, .u16, .rwi, true, 100, 60000, none, [6000], "SS1 deceleration"⟩,
  ⟨0x341A, 1, 1, 4, .dev, .u8, .ro, false, 0, 255, none, [0], "Drive state"⟩,
  ⟨0x341B, 1, 1, 4, .dev, .s32, .ro, false, (-2147483648), 2147483647, none, [0], "Measured speed"⟩,
  ⟨0x341C, 1, 1, 4, .dev, .s32, .ro, false, (-2147483648), 2147483647, none, [0], "DC current"⟩,
  ⟨0x341D, 1, 1, 4, .dev, .u8, .ro, false, 0, 255, none, [0], "Retries used"⟩,
  ⟨0x341E, 1, 1, 4, .dev, .u32, .ro, false, 0, 4294967295, none, [0], "Cycle-by-cycle limits"⟩,
  ⟨0x341F, 1, 1, 4, .dev, .u32, .ro, false, 0, 4294967295, none, [0], "Refused reversals"⟩,
  ⟨0x3420, 1, 1, 4, .dev, .u8, .ro, false, 0, 255, none, [0], "Latch cause"⟩,
  ⟨0x3421, 1, 1, 4, .dev, .s32, .ro, false, (-2147483648), 2147483647, none, [0], "Load deviation"⟩,
  ⟨0x3422, 1, 0, 1, .dev, .u32, .rwi, true, 640, 640000, none, [16000], "BLDC carrier period"⟩,
  ⟨0x3423, 1, 0, 1, .dev, .u16, .rwi, true, 8, 640, none, [64], "BLDC dead time"⟩,
  ⟨0x3424, 1, 0, 1, .dev, .u16, .rwi, true, 10, 1280, none, [128], "BLDC minimum pulse"⟩,
  ⟨0x3440, 1, 1, 4, .dev, .u8, .rwi, true, 0, 1, none, [0], "Axis mode"⟩,
  ⟨0x3441, 1, 1, 4, .dev, .s32, .rw, false, (-2147483648), 2147483647, none, [0], "Target position"⟩,
  ⟨0x3442, 1, 1, 4, .dev, .u32, .rwi, true, 1, 2000000, none, [4000], "Start speed"⟩,
  ⟨0x3443, 1, 1, 4, .dev, .u32, .rwi, true, 1, 2000000, none, [100000], "V1"⟩,
  ⟨0x3444, 1, 1, 4, .dev, .u32, .rwi, true, 1, 2000000, none, [200000], "Vmax"⟩,
  ⟨0x3445, 1, 1, 4, .dev, .u32, .rwi, true, 1000, 100000000, none, [2000000], "A1"⟩,
  ⟨0x3446, 1, 1, 4, .dev, .u32, .rwi, true, 1000, 100000000, none, [1000000], "A2"⟩,
  ⟨0x3447, 1, 1, 4, .dev, .u32, .rwi, true, 1, 2000000, none, [4000], "Stop speed"⟩,
  ⟨0x3448, 1, 1, 4, .dev, .u32, .rwi, true, 100, 19500, none, [2000], "Run current"⟩,
  ⟨0x3449, 1, 1, 4, .dev, .u8, .rwi, true, 0, 100, none, [50], "Hold fraction"⟩,
  ⟨0x344A, 1, 1, 4, .dev, .u16, .rwi, true, 0, 60000, none, [500], "Hold delay"⟩,
  ⟨0x344B, 1, 1, 4, .dev, .u16, .rwi, true, 1, 256, none, [16], "Input step size"⟩,
  ⟨0x344C, 1, 1, 4, .dev, .u8, .rwi, true, 0, 63, none, [48], "Limit configuration"⟩,
  ⟨0x344D, 1, 1, 4, .dev, .s32, .rwi, false, (-2147483648), 2147483647, none, [0], "Actual position"⟩,
  ⟨0x344E, 1, 1, 4, .dev, .s32, .ro, false, (-2147483648), 2147483647, none, [0], "Actual speed"⟩,
  ⟨0x344F, 1, 1, 4, .dev, .u8, .ro, false, 0, 255, none, [0], "Axis state"⟩,
  ⟨0x3450, 1, 1, 4, .dev, .u8, .ro, false, 0, 255, none, [8], "Axis status"⟩,
  ⟨0x3451, 1, 1, 4, .dev, .u32, .ro, false, 0, 4294967295, none, [0], "Discarded input steps"⟩,
  ⟨0x3452, 1, 1, 4, .dev, .u32, .rwi, true, 0, 4294967295, none, [400], "Coil current kp"⟩,
  ⟨0x3453, 1, 1, 4, .dev, .u32, .rwi, true, 0, 4294967295, none, [200000], "Coil current ki"⟩,
  ⟨0x3454, 1, 1, 4, .dev, .u32, .ro, false, 0, 4294967295, none, [0], "Reversals"⟩,
  ⟨0x3455, 1, 1, 4, .dev, .s32, .ro, false, (-2147483648), 2147483647, none, [0], "Input lag"⟩,
  ⟨0x3456, 1, 1, 4, .dev, .u32, .rwi, true, 600, 20000, none, [4000], "Coil overcurrent trip"⟩]

/-- Objects 0x34xx (part). -/
def rows34b : List Row := [
  ⟨0x3457, 1, 1, 4, .dev, .u8, .ro, false, 0, 255, none, [0], "Latch cause"⟩,
  ⟨0x3460, 1, 0, 1, .dev, .u32, .rwi, true, 640, 640000, none, [12800], "Stepper carrier period"⟩,
  ⟨0x3461, 1, 0, 1, .dev, .u16, .rwi, true, 8, 640, none, [96], "Stepper dead time"⟩,
  ⟨0x3462, 1, 0, 1, .dev, .u16, .rwi, true, 10, 1280, none, [192], "Stepper minimum pulse"⟩,
  ⟨0x34F0, 1, 1, 1, .dev, .u32, .ro, false, 0, 4294967295, none, [0], "Postponed hub diagnoses"⟩]

/-- Objects 0x40xx. -/
def rows40 : List Row := [
  ⟨0x4000, 1, 1, 1, .dev, .u8, .ro, false, 0, 255, none, [0], "Supervisor state"⟩,
  ⟨0x4000, 1, 2, 1, .dev, .u16, .ro, false, 0, 65535, none, [258], "Hold reasons"⟩,
  ⟨0x4000, 1, 3, 1, .dev, .u8, .ro, false, 0, 255, none, [0], "Active functions"⟩,
  ⟨0x4000, 1, 4, 1, .dev, .u32, .ro, false, 0, 4294967295, none, [0], "Configuration CRC"⟩,
  ⟨0x4000, 1, 5, 1, .dev, .u16, .ro, false, 0, 65535, none, [0], "Last fault code"⟩,
  ⟨0x4000, 1, 6, 1, .dev, .time64, .ro, false, 0, 18446744073709551615, none, [0], "Last fault LT"⟩,
  ⟨0x4001, 1, 1, 8, .dev, .u8, .rwp, true, 0, 4, none, [1, 1, 2, 2, 3, 4, 0, 0], "Input function, SIN0–SIN7"⟩,
  ⟨0x4002, 1, 1, 8, .dev, .u8, .rwp, true, 0, 2, none, [1, 2, 1, 2, 1, 2, 0, 0], "Input test source"⟩,
  ⟨0x4003, 1, 1, 1, .dev, .u16, .rwp, true, 10, 500, none, [100], "Discrepancy time"⟩,
  ⟨0x4004, 1, 1, 1, .dev, .u16, .rwp, true, 200, 600, none, [300], "Test width"⟩,
  ⟨0x4004, 1, 2, 1, .dev, .u16, .rwp, true, 10, 1000, none, [50], "Test period"⟩,
  ⟨0x4005, 1, 1, 8, .dev, .u8, .ro, false, 0, 255, none, [0], "Input state"⟩,
  ⟨0x4006, 1, 0, 1, .dev, .u8, .rwp, true, 0, 1, none, [0], "Reset mode"⟩,
  ⟨0x4007, 1, 0, 1, .dev, .u8, .wo, false, 1, 1, none, [0], "Reset request"⟩,
  ⟨0x4010, 1, 1, 4, .dev, .u8, .ro, false, 0, 255, none, [0], "Safe output state"⟩,
  ⟨0x4012, 1, 1, 1, .dev, .u8, .rwp, true, 0, 15, none, [3], "Emergency stop mask"⟩,
  ⟨0x4012, 1, 2, 1, .dev, .u8, .rwp, true, 0, 15, none, [2], "Door mask"⟩,
  ⟨0x4012, 1, 3, 1, .dev, .u8, .rwp, true, 0, 15, none, [15], "Fire mask"⟩,
  ⟨0x4013, 1, 0, 1, .dev, .u16, .rwp, true, 100, 300, none, [200], "Off-pulse width"⟩,
  ⟨0x4014, 1, 1, 4, .dev, .u8, .rw, false, 0, 1, none, [1, 1, 0, 0], "Safe output request"⟩,
  ⟨0x4016, 1, 1, 1, .dev, .u8, .rwp, true, 0, 3, none, [0], "BLDC STO output"⟩,
  ⟨0x4016, 1, 2, 1, .dev, .u8, .rwp, true, 0, 3, none, [1], "Stepper STO output"⟩,
  ⟨0x4017, 1, 0, 1, .dev, .u16, .rwp, true, 100, 10000, none, [2000], "SS1 time"⟩,
  ⟨0x4020, 1, 1, 4, .dev, .u8, .rwp, true, 0, 1, none, [1, 1, 0, 0], "KDRV use"⟩,
  ⟨0x4021, 1, 1, 4, .dev, .u8, .ro, false, 0, 255, none, [0], "Contactor state"⟩,
  ⟨0x4022, 1, 0, 1, .dev, .u16, .rwp, true, 1000, 4000, none, [2000], "Open delay"⟩,
  ⟨0x4023, 1, 1, 2, .dev, .u8, .rw, false, 0, 1, none, [0], "KDRV2, KDRV3 request"⟩,
  ⟨0x4030, 1, 0, 1, .dev, .u32, .rwp, true, 0, 10000000, none, [500000], "Door current limit"⟩,
  ⟨0x4031, 1, 0, 1, .dev, .u16, .rwp, true, 10, 1000, none, [100], "Door monitor time"⟩,
  ⟨0x4032, 1, 0, 1, .ch, .s32, .rwp, true, 0, 120000, none, [60000], "Cell temperature limit"⟩,
  ⟨0x4033, 1, 0, 1, .ch, .u8, .ro, false, 0, 255, none, [0], "Temperature status"⟩,
  ⟨0x4034, 1, 0, 1, .ch, .s32, .ro, false, (-2147483648), 2147483647, none, [0], "Temperature difference"⟩,
  ⟨0x4035, 1, 1, 1, .dev, .u8, .rwp, true, 0, 64, none, [3], "Thermal count"⟩,
  ⟨0x4035, 1, 2, 1, .dev, .u16, .rwp, true, 10, 3600, none, [60], "Thermal window"⟩,
  ⟨0x4036, 1, 0, 1, .ch, .bool, .rwp, true, 0, 1, none, [1], "Temperature supervision"⟩,
  ⟨0x40F0, 1, 1, 1, .dev, .str, .wo, false, 0, 32, none, [0], "Unlock"⟩,
  ⟨0x40F0, 1, 2, 1, .dev, .blob, .wo, false, 10, 66, none, [0], "Password change"⟩,
  ⟨0x40F0, 1, 3, 1, .dev, .u8, .wo, false, 1, 1, none, [0], "Lock"⟩,
  ⟨0x40F0, 1, 4, 1, .dev, .u32, .wo, false, 0, 4294967295, none, [0], "Apply"⟩,
  ⟨0x40F0, 1, 5, 1, .dev, .u8, .ro, false, 0, 255, none, [0], "Write access"⟩,
  ⟨0x40F0, 1, 6, 1, .dev, .u8, .ro, false, 0, 255, none, [0], "Wrong attempts"⟩,
  ⟨0x40F0, 1, 7, 1, .dev, .u16, .ro, false, 0, 65535, none, [0], "Lockout remaining"⟩,
  ⟨0x40F0, 1, 8, 1, .dev, .u32, .ro, false, 0, 4294967295, none, [0], "Pending CRC"⟩,
  ⟨0x40F8, 1, 0, 1, .dev, .u32, .rw, false, 0, 4294967295, none, [1], "Change-log cursor"⟩,
  ⟨0x40F9, 1, 0, 1, .dev, .blob, .ro, false, 40, 40, none, [0], "Change-log entry"⟩,
  ⟨0x40FA, 1, 0, 1, .dev, .u32, .ro, false, 0, 4294967295, none, [0], "Newest change-log sequence"⟩]

/-- Objects 0x50xx. -/
def rows50 : List Row := [
  ⟨0x5000, 1, 1, 1, .met, .u8, .mro, false, 0, 255, none, [1], "Seal state"⟩,
  ⟨0x5000, 1, 2, 1, .met, .u32, .mro, false, 0, 4294967295, none, [0], "Event counter"⟩,
  ⟨0x5000, 1, 3, 1, .met, .u16, .mro, false, 0, 65535, none, [4096], "Free audit entries"⟩,
  ⟨0x5000, 1, 4, 1, .met, .u32, .mro, false, 0, 4294967295, none, [0], "Newest audit sequence"⟩,
  ⟨0x5000, 1, 5, 1, .met, .bool, .mro, false, 0, 1, none, [0], "ADJ_EN"⟩,
  ⟨0x5000, 1, 6, 1, .met, .u32, .mro, false, 0, 4294967295, none, [0], "Rejected requests"⟩,
  ⟨0x5000, 1, 7, 1, .met, .u32, .mro, false, 0, 4294967295, none, [0], "Refused tokens"⟩,
  ⟨0x5000, 1, 8, 1, .met, .u8, .mro, false, 0, 255, none, [0], "Time status"⟩,
  ⟨0x5001, 1, 1, 1, .met, .str, .mro, false, 0, 16, none, [0], "Software name"⟩,
  ⟨0x5001, 1, 2, 1, .met, .str, .mro, false, 0, 8, none, [0], "Software version"⟩,
  ⟨0x5001, 1, 3, 1, .met, .blob, .mro, false, 32, 32, none, [0], "Software checksum"⟩,
  ⟨0x5001, 1, 4, 1, .met, .u64, .mro, false, 0, 18446744073709551615, none, [0], "Adjustment nonce"⟩,
  ⟨0x5002, 1, 1, 1, .met, .u32, .mro, false, 0, 4294967295, none, [0], "Periodic area used"⟩,
  ⟨0x5002, 1, 2, 1, .met, .u16, .mro, false, 0, 65535, none, [16384], "Free step slots"⟩,
  ⟨0x5002, 1, 3, 1, .met, .u16, .mro, false, 0, 65535, none, [512], "Free batch slots"⟩,
  ⟨0x5002, 1, 4, 1, .met, .bool, .mro, false, 0, 1, none, [0], "Backpressure"⟩,
  ⟨0x5002, 1, 5, 1, .met, .u64, .mro, false, 0, 18446744073709551615, none, [0], "Last closed batch"⟩,
  ⟨0x5002, 1, 6, 1, .met, .u64, .mro, false, 0, 18446744073709551615, none, [0], "Last acknowledged batch"⟩,
  ⟨0x5002, 1, 7, 1, .met, .u32, .mro, false, 0, 4294967295, none, [0], "Dropped records"⟩,
  ⟨0x5002, 1, 8, 1, .met, .u64, .mro, false, 0, 18446744073709551615, none, [1], "Next record sequence"⟩,
  ⟨0x5003, 1, 0, 1, .met, .blob, .mro, false, 1952, 1952, none, [0], "Metrology public key"⟩,
  ⟨0x5010, 1, 1, 6, .met, .u32, .mro, false, 0, 4294967295, none, [0], "Rotation cycles, sites 1–6"⟩,
  ⟨0x5011, 1, 1, 54, .met, .u32, .mro, false, 0, 4294967295, none, [0], "Group state"⟩,
  ⟨0x5012, 1, 1, 6, .met, .u32, .mro, false, 0, 4294967295, none, [0], "Abandons, sites 1–6"⟩,
  ⟨0x5012, 1, 7, 6, .met, .u32, .mro, false, 0, 4294967295, none, [0], "Drift events, sites 1–6"⟩,
  ⟨0x5013, 1, 1, 6, .met, .u32, .mro, false, 0, 4294967295, none, [0], "Oldest trim age, sites 1–6"⟩,
  ⟨0x5014, 1, 1, 6, .met, .blob, .mro, false, 18, 18, none, [0], "Suspect modulators, sites 1–6"⟩,
  ⟨0x5015, 1, 0, 1, .met, .u32, .mro, false, 0, 4294967295, none, [0], "Calibration generation"⟩,
  ⟨0x5016, 1, 0, 1, .dev, .u16, .rw, false, 0, 65535, none, [0], "Calibration item cursor"⟩,
  ⟨0x5017, 1, 0, 1, .met, .blob, .mro, false, 16, 16, none, [0], "Item at cursor"⟩,
  ⟨0x5018, 1, 0, 1, .met, .u32, .mro, false, 0, 4294967295, none, [0], "Items off factory value"⟩,
  ⟨0x5050, 1, 1, 1, .met, .u64, .mro, false, 0, 18446744073709551615, none, [0], "AC import"⟩,
  ⟨0x5050, 1, 2, 1, .met, .u64, .mro, false, 0, 18446744073709551615, none, [0], "AC export"⟩]

/-- Objects 0x51xx. -/
def rows51 : List Row := [
  ⟨0x5100, 384, 1, 1, .met, .s32, .mro, false, (-2147483648), 2147483647, none, [0], "Channel voltage"⟩,
  ⟨0x5100, 384, 2, 1, .met, .s32, .mro, false, (-2147483648), 2147483647, none, [0], "Channel current"⟩,
  ⟨0x5100, 384, 3, 1, .met, .s32, .mro, false, (-2147483648), 2147483647, none, [0], "Channel temperature"⟩,
  ⟨0x5100, 384, 4, 1, .met, .s64, .mro, false, (-9223372036854775808), 9223372036854775807, none, [0], "Charge integrator"⟩,
  ⟨0x5100, 384, 5, 1, .met, .s64, .mro, false, (-9223372036854775808), 9223372036854775807, none, [0], "Energy integrator"⟩,
  ⟨0x5100, 384, 6, 1, .met, .time64, .mro, false, 0, 18446744073709551615, none, [0], "Mean LT"⟩]

/-- Objects 0x53xx. -/
def rows53 : List Row := [
  ⟨0x5300, 1, 0, 1, .ch, .str, .rw, false, 0, 24, none, [0], "Cell ID"⟩]

/-- Objects 0x54xx. -/
def rows54 : List Row := [
  ⟨0x5420, 1, 0, 1, .met, .blob, .mro, false, 0, 3469, none, [0], "Record stream"⟩,
  ⟨0x5421, 1, 0, 1, .dev, .u64, .rw, false, 0, 18446744073709551615, none, [1], "Record cursor"⟩,
  ⟨0x5422, 1, 0, 1, .met, .blob, .mro, false, 32, 128, none, [0], "Record at cursor"⟩,
  ⟨0x5423, 1, 0, 1, .dev, .u64, .rw, false, 0, 18446744073709551615, none, [1], "Batch cursor"⟩,
  ⟨0x5424, 1, 0, 1, .met, .blob, .mro, false, 3469, 3469, none, [0], "Batch at cursor"⟩,
  ⟨0x5426, 1, 0, 1, .met, .blob, .mro, false, 3, 399, none, [0], "Proof at cursor"⟩,
  ⟨0x5430, 1, 0, 1, .dev, .u64, .wo, false, 0, 18446744073709551615, none, [0], "Acknowledge batch"⟩,
  ⟨0x5440, 1, 0, 1, .dev, .blob, .wo, false, 5293, 8192, none, [0], "Adjustment token"⟩,
  ⟨0x5441, 1, 0, 1, .dev, .u8, .ro, false, 0, 255, none, [0], "Last adjustment status"⟩,
  ⟨0x5442, 1, 0, 1, .dev, .blob, .wo, false, 1, 1048576, none, [0], "Metrology image"⟩]

/-- Objects 0x60xx. -/
def rows60 : List Row := [
  ⟨0x6000, 1, 1, 1, .dev, .u32, .ro, false, 0, 4294967295, none, [0], "Store count"⟩,
  ⟨0x6000, 1, 2, 1, .dev, .u32, .rw, false, 0, 4294967295, none, [0], "Read cursor"⟩,
  ⟨0x6000, 1, 3, 1, .dev, .blob, .ro, false, 0, 1408, none, [0], "Trail block"⟩,
  ⟨0x6000, 1, 4, 1, .dev, .u32, .ro, false, 0, 4294967295, none, [0], "Overflow count"⟩,
  ⟨0x6000, 1, 5, 1, .dev, .u8, .rw, true, 0, 4, (some 255), [255], "Freeze severity"⟩,
  ⟨0x6000, 1, 6, 1, .dev, .u16, .rw, true, 0, 16383, none, [256], "Post-trigger count"⟩,
  ⟨0x6000, 1, 7, 1, .dev, .bool, .ro, false, 0, 1, none, [0], "Frozen"⟩,
  ⟨0x6000, 1, 8, 1, .dev, .u8, .wo, false, 1, 1, none, [0], "Unfreeze"⟩,
  ⟨0x6000, 1, 9, 1, .dev, .u32, .ro, false, 0, 4294967295, none, [0], "Entries not stored"⟩,
  ⟨0x6000, 1, 10, 1, .dev, .u16, .rw, true, 0, 10000, none, [1000], "Waymark interval"⟩,
  ⟨0x6010, 1, 1, 1, .ch, .bool, .ro, false, 0, 1, none, [0], "Latched"⟩,
  ⟨0x6010, 1, 2, 1, .ch, .u8, .ro, false, 0, 255, none, [0], "First cause"⟩,
  ⟨0x6010, 1, 3, 1, .ch, .u16, .ro, false, 0, 65535, none, [0], "Cause argument"⟩,
  ⟨0x6010, 1, 4, 1, .ch, .time64, .ro, false, 0, 18446744073709551615, none, [0], "Latch LT"⟩,
  ⟨0x6010, 1, 5, 1, .ch, .u32, .ro, false, 0, 4294967295, none, [0], "Correlation ID"⟩,
  ⟨0x6010, 1, 6, 1, .ch, .u32, .ro, false, 0, 4294967295, none, [0], "Later causes"⟩,
  ⟨0x6010, 1, 7, 1, .ch, .u8, .wo, false, 1, 1, none, [0], "Clear"⟩,
  ⟨0x6010, 1, 8, 1, .ch, .u32, .ro, false, 0, 4294967295, none, [0], "Latch count"⟩,
  ⟨0x6012, 1, 1, 1, .site, .bool, .ro, false, 0, 1, none, [0], "Segment latched"⟩,
  ⟨0x6012, 1, 2, 2, .site, .u8, .ro, false, 0, 255, none, [0], "DAB stage cause"⟩,
  ⟨0x6012, 1, 4, 1, .site, .u8, .wo, false, 1, 1, none, [0], "Die clear"⟩,
  ⟨0x6014, 1, 1, 1, .dev, .u8, .ro, false, 0, 255, none, [0], "FLT group latches"⟩,
  ⟨0x6014, 1, 2, 1, .dev, .u8, .wo, false, 0, 255, none, [0], "FLT group clear"⟩,
  ⟨0x6015, 1, 1, 4, .dev, .u8, .wo, false, 1, 1, none, [0], "BLDC clear"⟩,
  ⟨0x6016, 1, 1, 4, .dev, .u8, .wo, false, 1, 1, none, [0], "Axis clear"⟩,
  ⟨0x6020, 1, 1, 1, .dev, .u8, .rw, true, 0, 1, none, [0], "Site recovery mode"⟩,
  ⟨0x6020, 1, 2, 1, .dev, .u16, .rw, true, 100, 60000, none, [1000], "Recovery delay"⟩,
  ⟨0x6021, 1, 1, 6, .dev, .u32, .ro, false, 0, 4294967295, none, [0], "Die losses"⟩]

/-- Objects 0x70xx. -/
def rows70 : List Row := [
  ⟨0x7000, 1, 1, 1, .dev, .blob, .ro, false, 16, 16, none, [0], "Vendor root key ID"⟩,
  ⟨0x7000, 1, 2, 1, .dev, .blob, .ro, false, 16, 16, none, [0], "Device identity key ID"⟩,
  ⟨0x7010, 1, 0, 1, .dev, .blob, .ro, false, 5313, 5313, none, [0], "Device certificate"⟩,
  ⟨0x7011, 1, 0, 1, .met, .blob, .mro, false, 5313, 5313, none, [0], "Metrology certificate"⟩,
  ⟨0x7020, 1, 1, 2, .dev, .blob, .rw, true, 32, 32, none, [0], "Customer root hash C0, C1"⟩,
  ⟨0x7021, 1, 1, 2, .dev, .bool, .rw, true, 1, 1, none, [0], "Customer root revoked"⟩,
  ⟨0x7030, 1, 1, 4, .dev, .u8, .ro, false, 0, 255, none, [0], "Rollback counter"⟩,
  ⟨0x7031, 1, 1, 3, .dev, .u8, .wo, false, 1, 1, none, [0], "Rollback commit"⟩,
  ⟨0x7032, 1, 1, 4, .dev, .u8, .ro, false, 0, 255, none, [255], "Running rollback value"⟩,
  ⟨0x7033, 1, 1, 4, .dev, .blob, .ro, false, 32, 32, none, [0], "Running image hash"⟩,
  ⟨0x7034, 1, 1, 3, .dev, .u8, .rw, true, 0, 1, none, [0], "Preferred slot"⟩,
  ⟨0x7035, 1, 1, 6, .dev, .u8, .ro, false, 0, 255, none, [0], "Slot state"⟩,
  ⟨0x7040, 1, 1, 1, .dev, .blob, .wo, false, 8, 8, none, [0], "Load begin"⟩,
  ⟨0x7040, 1, 2, 1, .dev, .blob, .wo, false, 5, 1048576, none, [0], "Load piece"⟩,
  ⟨0x7040, 1, 3, 1, .dev, .u8, .wo, false, 1, 1, none, [0], "Load end"⟩,
  ⟨0x7040, 1, 4, 1, .dev, .u8, .ro, false, 0, 255, none, [0], "Load state"⟩,
  ⟨0x7040, 1, 5, 1, .dev, .u8, .ro, false, 0, 255, none, [0], "Load result"⟩,
  ⟨0x7050, 1, 1, 1, .dev, .u8, .wo, false, 1, 2, none, [0], "Partition command"⟩,
  ⟨0x7050, 1, 2, 1, .dev, .bool, .rw, true, 0, 1, none, [0], "Partition autostart"⟩,
  ⟨0x7050, 1, 3, 1, .dev, .u8, .ro, false, 0, 255, none, [0], "Partition state"⟩,
  ⟨0x7050, 1, 4, 1, .dev, .u8, .ro, false, 0, 255, none, [0], "Partition fault"⟩,
  ⟨0x7060, 1, 1, 1, .dev, .u64, .ro, false, 0, 18446744073709551615, none, [0], "Debug nonce"⟩,
  ⟨0x7060, 1, 2, 1, .dev, .blob, .wo, false, 3736, 5265, none, [0], "Debug token"⟩,
  ⟨0x7060, 1, 3, 1, .dev, .u8, .wo, false, 1, 1, none, [0], "Debug lock"⟩,
  ⟨0x7060, 1, 4, 1, .dev, .u8, .ro, false, 0, 255, none, [0], "Debug state"⟩,
  ⟨0x7070, 1, 1, 1, .dev, .blob, .wo, false, 32, 32, none, [0], "Attestation nonce"⟩,
  ⟨0x7070, 1, 2, 1, .dev, .blob, .ro, false, 3565, 3565, none, [0], "Attestation report"⟩]

/-- The rows whose first index has the high octet `h`. -/
def rowsOf (h : Nat) : List Row :=
  match h with
  | 0x10 => rows10
  | 0x11 => rows11
  | 0x12 => rows12
  | 0x13 => rows13
  | 0x14 => rows14
  | 0x20 => rows20
  | 0x21 => rows20
  | 0x22 => rows20
  | 0x23 => rows20
  | 0x24 => rows24
  | 0x25 => rows25
  | 0x28 => rows28a ++ rows28b
  | 0x30 => rows30
  | 0x31 => rows31
  | 0x34 => rows34a ++ rows34b
  | 0x40 => rows40
  | 0x50 => rows50
  | 0x51 => rows51
  | 0x52 => rows51
  | 0x53 => rows53
  | 0x54 => rows54
  | 0x60 => rows60
  | 0x70 => rows70
  | _ => []

/-- Whether a row of this scope has the instance encoding `e` at all (R12); the population is checked elsewhere. -/
def Scope.admits (c : Scope) (e : Nat) : Bool :=
  match c with
  | .ch => e < 0x180
  | .site => 0x3C1 ≤ e && e ≤ 0x3C6
  | .met => e == 0x3E0
  | .dev => e == 0x3FF
  | .devSite => e == 0x3FF || (0x3C1 ≤ e && e ≤ 0x3C6)

/-- The row covers index `i` and subindex `j`. -/
def Row.covers (r : Row) (i j : Nat) : Bool :=
  r.index ≤ i && i < r.index + r.count && r.sub ≤ j && j < r.sub + r.subs

/-- The first row that holds the object at an address. -/
def findRow (a : Addr) : Option Row :=
  (rowsOf (a.index / 256)).find? fun r => r.covers a.index a.sub && r.scope.admits a.inst

/-- The reset value of the entry at index `i`, subindex `j` of a row. -/
def Row.dflt (r : Row) (i j : Nat) : Int :=
  match r.reset with
  | [x] => x
  | xs => xs.getD ((i - r.index) * r.subs + (j - r.sub)) 0

/-- The reset value of the register at an address. -/
def dflt (a : Addr) : Int :=
  match findRow a with
  | some r => r.dflt a.index a.sub
  | none => 0

/-- The values a write of the row may carry (R420): its range, or the one value beside it. -/
def Row.accepts (r : Row) (v : Int) : Bool :=
  (decide (r.lo ≤ v) && decide (v ≤ r.hi)) || r.also == some v

/-- The octets of a numeric type (R419). -/
def Ty.size : Ty → Nat
  | .bool | .u8 | .s8 => 1
  | .u16 | .s16 => 2
  | .u32 | .s32 => 4
  | .u64 | .s64 | .time64 => 8
  | .str | .blob => 0

/-- A signed type. -/
def Ty.signed : Ty → Bool
  | .s8 | .s16 | .s32 | .s64 => true
  | _ => false

end Sys2Proof.Machine
end

