-- ==== Sys2Proof/Machine/Keccak.lean ====
section
/-! DEFINITION. SHA3-256, SHA3-512, SHAKE and KMAC256, which the manual names by their standards (FIPS 202 and SP 800-185; R366,
R448, R470, R477). The state of Keccak is one number of 1,600 bits: lane (x, y) stands at bit 64 (x + 5 y), a plane y is
320 bits. -/

namespace Sys2Proof.Machine

/-- A power of two. -/
def p2 (k : Nat) : Nat := Nat.pow 2 k

/-- Use a number once it is computed: evaluation does not carry the unevaluated term further. -/
def now {α : Type} (n : Nat) (k : Nat → α) : α :=
  match n with
  | 0 => k 0
  | m + 1 => k (m + 1)

/-- The same number at the foot of every lane of a plane, and of every plane. -/
def onLanes (v : Nat) : Nat := v * (1 + p2 64 + p2 128 + p2 192 + p2 256)
def onPlanes (v : Nat) : Nat := v * (1 + p2 320 + p2 640 + p2 960 + p2 1280)

/-- Every lane of a plane takes the lane `k` places further round. -/
def turnPlane (k c : Nat) : Nat := (c >>> (64 * k)) ||| (c <<< (320 - 64 * k)) % p2 320

/-- Every lane of a plane rotates by one bit. -/
def rotPlane (c : Nat) : Nat := ((c <<< 1) &&& onLanes (p2 64 - 2)) ||| ((c >>> 63) &&& onLanes 1)

/-- θ: every lane takes the parities of the columns on both sides. -/
def keccakTheta (a : Nat) : Nat :=
  now ((a ^^^ (a >>> 320) ^^^ (a >>> 640) ^^^ (a >>> 960) ^^^ (a >>> 1280)) % p2 320) fun c =>
  now (turnPlane 1 (rotPlane c) ^^^ turnPlane 4 c) fun d => a ^^^ onPlanes d

/-- A lane moved and rotated: place `i` takes lane `j`, rotated by `r`. -/
def keccakMove (a i j r : Nat) : Nat :=
  now ((a >>> (64 * j)) % p2 64) fun v => ((((v <<< r) % p2 64) ||| (v >>> (64 - r))) <<< (64 * i))

/-- ρ and π. -/
def keccakRhoPi (a : Nat) : Nat :=
  keccakMove a 0 0 0 ||| keccakMove a 1 6 44 ||| keccakMove a 2 12 43 ||| keccakMove a 3 18 21 ||| keccakMove a 4 24 14 |||
  keccakMove a 5 3 28 ||| keccakMove a 6 9 20 ||| keccakMove a 7 10 3 ||| keccakMove a 8 16 45 ||| keccakMove a 9 22 61 |||
  keccakMove a 10 1 1 ||| keccakMove a 11 7 6 ||| keccakMove a 12 13 25 ||| keccakMove a 13 19 8 ||| keccakMove a 14 20 18 |||
  keccakMove a 15 4 27 ||| keccakMove a 16 5 36 ||| keccakMove a 17 11 10 ||| keccakMove a 18 17 15 ||| keccakMove a 19 23 56 |||
  keccakMove a 20 2 62 ||| keccakMove a 21 8 55 ||| keccakMove a 22 14 39 ||| keccakMove a 23 15 41 ||| keccakMove a 24 21 2

/-- Every lane of the state takes the lane `k` places further round in its plane. -/
def turnState (k a : Nat) : Nat :=
  ((a >>> (64 * k)) &&& onPlanes (p2 (320 - 64 * k) - 1)) ||| ((a &&& onPlanes (p2 (64 * k) - 1)) <<< (320 - 64 * k))

/-- χ: the only step that is not linear. -/
def keccakChi (a : Nat) : Nat := a ^^^ (((p2 1600 - 1) ^^^ turnState 1 a) &&& turnState 2 a)

/-- The constants of ι, by round. -/
def keccakIota : List Nat :=
  [0x0000000000000001, 0x0000000000008082, 0x800000000000808A, 0x8000000080008000, 0x000000000000808B, 0x0000000080000001,
   0x8000000080008081, 0x8000000000008009, 0x000000000000008A, 0x0000000000000088, 0x0000000080008009, 0x000000008000000A,
   0x000000008000808B, 0x800000000000008B, 0x8000000000008089, 0x8000000000008003, 0x8000000000008002, 0x8000000000000080,
   0x000000000000800A, 0x800000008000000A, 0x8000000080008081, 0x8000000000008080, 0x0000000080000001, 0x8000000080008008]

/-- The rounds with these constants. -/
def keccakRounds : List Nat → Nat → Nat
  | [], a => a
  | rc :: t, a =>
    now (keccakTheta a) fun b => now (keccakRhoPi b) fun c => now (keccakChi c ^^^ rc) fun d => keccakRounds t d

/-- The permutation Keccak-f[1600]. -/
def keccakF (a : Nat) : Nat := keccakRounds keccakIota a

/-- The number that octets spell, the first lowest; and the octets of a number. -/
def numOf : List Byte → Nat
  | [] => 0
  | x :: t => now (numOf t) fun n => x.toNat + 256 * n
def octets (len n : Nat) : List Byte := (List.range len).map fun i => BitVec.ofNat 8 (n >>> (8 * i))

/-- A message padded to whole blocks of `rate` octets, as one number: the suffix bits of the function, then the final bit. -/
def keccakPad (rate suffix : Nat) (b : List Byte) : Nat × Nat :=
  let n := b.length / rate + 1
  (n, numOf b + suffix * p2 (8 * b.length) + p2 (8 * rate * n - 1))

/-- Absorb `n` blocks. -/
def keccakAbsorb (rate : Nat) : Nat → Nat → Nat → Nat
  | 0, _, a => a
  | n + 1, m, a =>
    now (keccakF (a ^^^ (m % p2 (8 * rate)))) fun a => now (m >>> (8 * rate)) fun m => keccakAbsorb rate n m a

/-- Squeeze `n` blocks, as one number. -/
def keccakSqueeze (rate : Nat) : Nat → Nat → Nat
  | 0, _ => 0
  | n + 1, a =>
    now (a % p2 (8 * rate)) fun r => now (keccakF a) fun a =>
      now (keccakSqueeze rate n a) fun t => r + t * p2 (8 * rate)

/-- The sponge: the number that the first `n` blocks of output spell. -/
def spongeNum (rate suffix n : Nat) (b : List Byte) : Nat :=
  let p := keccakPad rate suffix b
  now p.2 fun m => now (keccakAbsorb rate p.1 m 0) fun a =>
    match n with
    | 0 => 0
    | k + 1 =>
      now (a % p2 (8 * rate)) fun r => if k = 0 then r else now (keccakF a) fun a => r + keccakSqueeze rate k a * p2 (8 * rate)

/-- The sponge: `len` octets from a message. -/
def sponge (rate suffix len : Nat) (b : List Byte) : List Byte :=
  now (spongeNum rate suffix ((len + rate - 1) / rate) b) fun n => octets len n

/-- SHA3-256 and SHA3-512 of octets (FIPS 202). -/
@[irreducible] def sha3 (b : List Byte) : List Byte := sponge 136 0x06 32 b
def sha3x512 (b : List Byte) : List Byte := sponge 72 0x06 64 b

/-- The first blocks of SHAKE128 and the first octets of SHAKE256 (FIPS 202), as a number. -/
def shake128 (blocks : Nat) (b : List Byte) : Nat := spongeNum 168 0x1F blocks b
def shake256 (len : Nat) (b : List Byte) : Nat := spongeNum 136 0x1F ((len + 135) / 136) b % p2 (8 * len)

/-- The octets of a number, most significant first, at least one. -/
def beBytes (n : Nat) : List Byte :=
  ((List.range (n.log2 / 8 + 1)).map fun i => BitVec.ofNat 8 (n / 256 ^ i)).reverse

/-- The encodings of SP 800-185: a number before and after its length, a string, and padding to the rate. -/
def leftEncode (n : Nat) : List Byte := BitVec.ofNat 8 (beBytes n).length :: beBytes n
def rightEncode (n : Nat) : List Byte := beBytes n ++ [BitVec.ofNat 8 (beBytes n).length]
def encodeString (b : List Byte) : List Byte := leftEncode (8 * b.length) ++ b
def bytePad (b : List Byte) : List Byte :=
  let x := leftEncode 136 ++ b
  x ++ List.replicate ((136 - x.length % 136) % 136) 0

/-- KMAC256 of a key, a message, an output length in octets and a customisation string (SP 800-185). -/
@[irreducible] def kmac256 (key msg : List Byte) (len : Nat) (custom : List Byte) : List Byte :=
  sponge 136 0x04 len (bytePad (encodeString [0x4B, 0x4D, 0x41, 0x43] ++ encodeString custom) ++
    (bytePad (encodeString key) ++ msg ++ rightEncode (8 * len)))

end Sys2Proof.Machine
end

