-- ==== Sys2Proof/Machine/Ring.lean ====
section
/-! DEFINITION. Polynomials modulo X ^ 256 + 1 as the lattice schemes of FIPS 203 and FIPS 204 use them: lists of
coefficients, fields of a number, and the number-theoretic transform. -/

namespace Sys2Proof.Machine

/-- Apply a function to each element, computing each result. -/
def mapNow {α : Type} (f : α → Nat) : List α → List Nat
  | [] => []
  | x :: t => now (f x) fun v => v :: mapNow f t

/-- Combine two lists of numbers, computing each result. -/
def zipNow (f : Nat → Nat → Nat) : List Nat → List Nat → List Nat
  | x :: s, y :: t => now (f x y) fun v => v :: zipNow f s t
  | _, _ => []

/-- `n` fields of `w` bits of a number, lowest first. -/
def fieldsOf (w : Nat) : Nat → Nat → List Nat
  | 0, _ => []
  | n + 1, v => now (v % p2 w) fun x => now (v >>> w) fun v => x :: fieldsOf w n v

/-- The number that fields of `w` bits spell. -/
def packOf (w : Nat) : List Nat → Nat
  | [] => 0
  | x :: t => now (packOf w t) fun n => x + n * p2 w

/-! ## The transform

A polynomial of n coefficients is one number with a field of 256 bits for each: eight levels of exact arithmetic on
coefficients below q fit, and one remainder at the end brings them back. -/

/-- The roots of the levels, the last one `z`, each the square of the one after it. -/
def nttRoots (q : Nat) : Nat → Nat → List Nat → List Nat
  | 0, _, l => l
  | n + 1, z, l => now (z * z % q) fun y => nttRoots q n y (z :: l)

/-- Split the nodes of a level, each with its factor: `b` bits hold half of a node. -/
def nttSplit (q b : Nat) : List Nat → List Nat → List Nat
  | z :: zs, f :: fs =>
    now (f % p2 b) fun lo => now (f >>> b) fun hi => now (lo + z * hi) fun x => now (lo + (q - z) * hi) fun y =>
      x :: y :: nttSplit q b zs fs
  | _, _ => []

/-- Join the nodes of a level in pairs. -/
def nttJoin (q b : Nat) : List Nat → List Nat → List Nat
  | z :: zs, x :: y :: fs =>
    now (x + y + ((z * x + (q - z) * y) <<< b)) fun f => f :: nttJoin q b zs fs
  | _, _ => []

/-- The factors of a level: those of the levels above, times its root. -/
def nttFactors (q w : Nat) (t : List Nat) : List Nat := mapNow (fun z => w * z % q) t

/-- The levels from the top down, and from the foot up. -/
def nttDown (q : Nat) : List Nat → Nat → List Nat → List Nat → List Nat
  | [], _, _, fs => fs
  | w :: ws, b, t, fs => nttDown q ws (b / 2) (t ++ nttFactors q w t) (nttSplit q b (nttFactors q w t) fs)
def nttUp (q : Nat) : List Nat → Nat → List Nat → List Nat → List Nat
  | [], _, _, fs => fs
  | w :: ws, b, t, fs => nttJoin q b (nttFactors q w t) (nttUp q ws (b / 2) (t ++ nttFactors q w t) fs)

end Sys2Proof.Machine
end

