-- ==== Sys2Proof/Machine/Mldsa.lean ====
section
/-! DEFINITION. The verification of an ML-DSA signature with a context, which the manual names by its standard (FIPS 204; R229,
R237, R448, R470, R475). A polynomial is the list of its 256 coefficients modulo q. -/

namespace Sys2Proof.Machine

/-- What a parameter set fixes (FIPS 204, section 4): the size of the matrix, the powers γ1 and 2 γ2, the ones of the challenge,
the bound β, the most hints ω, the octets of the commitment hash, and the bits of a coefficient of z and of w1. -/
structure DsaSet where
  rows : Nat
  cols : Nat
  gamma1 : Nat
  alpha : Nat
  ones : Nat
  beta : Nat
  hints : Nat
  hashLen : Nat
  zBits : Nat
  wBits : Nat

def dsa65 : DsaSet := ⟨6, 5, 524288, 523776, 49, 196, 55, 48, 20, 4⟩
def dsa44 : DsaSet := ⟨4, 4, 131072, 190464, 39, 78, 80, 32, 18, 6⟩

/-- The octets of a public key and of a signature. -/
def DsaSet.keyLen (d : DsaSet) : Nat := 32 + 320 * d.rows
def DsaSet.sigLen (d : DsaSet) : Nat := d.hashLen + 32 * d.zBits * d.cols + d.hints + d.rows

def dsaQ : Nat := 8380417

/-- The transform of 256 coefficients, and back: the root 1753 and its inverse, of order 512; 8347681 is the inverse of 256. -/
def dsaNtt (f : List Nat) : List Nat :=
  now (packOf 256 f) fun n => mapNow (· % dsaQ) (nttDown dsaQ (nttRoots dsaQ 8 1753 []) 32768 [1] [n])
def dsaInv (f : List Nat) : List Nat :=
  now ((nttUp dsaQ (nttRoots dsaQ 8 731434 []) 32768 [1] f).headD 0) fun n =>
    mapNow (fun x => x % dsaQ * 8347681 % dsaQ) (fieldsOf 256 256 n)

/-! ## Sampling and decoding -/

/-- The candidates of a block of SHAKE128: three octets each, the top bit left out, kept where they are below q. -/
def dsaCandidates : Nat → Nat → List Nat
  | 0, _ => []
  | n + 1, v =>
    now (v % 8388608) fun x => now (v >>> 24) fun v => if x < dsaQ then x :: dsaCandidates n v else dsaCandidates n v

/-- Take blocks of SHAKE128 until `need` coefficients stand. -/
def dsaReject : Nat → Nat → Nat → List Nat
  | 0, _, _ => []
  | n + 1, need, a =>
    let l := (dsaCandidates 56 (a % p2 1344)).take need
    if l.length = need then l else now (need - l.length) fun need => now (keccakF a) fun a => l ++ dsaReject n need a

/-- An entry of the matrix A, in the transform's domain (RejNTTPoly). -/
def dsaEntry (rho : List Byte) (row col : Nat) : List Nat :=
  let p := keccakPad 168 0x1F (rho ++ [BitVec.ofNat 8 col, BitVec.ofNat 8 row])
  now (keccakAbsorb 168 p.1 p.2 0) fun a => dsaReject 6 256 a

/-- Place `i` of the challenge takes what place `j` held, and place `j` takes the sign, the octets above `i` passed over. -/
def dsaBall : Nat → Nat → Nat → List Byte → List Nat → List Nat
  | 0, _, _, _, c => c
  | n + 1, i, signs, b, c =>
    match b.dropWhile (fun x => decide (i < x.toNat)) with
    | [] => []
    | x :: b =>
      now (if signs % 2 = 1 then dsaQ - 1 else 1) fun v =>
        dsaBall n (i + 1) (signs / 2) b ((c.set i (c.getD x.toNat 0)).set x.toNat v)

/-- The challenge of a commitment hash (SampleInBall). -/
def dsaChallenge (d : DsaSet) (h : List Byte) : List Nat :=
  let b := octets 136 (shake256 136 h)
  dsaBall d.ones (256 - d.ones) (numOf (b.take 8)) (b.drop 8) (List.replicate 256 0)

/-- The hints of the rows: the places of each, rising, and zeros after the last; none where the octets say otherwise. -/
def dsaHints (d : DsaSet) (b : List Byte) : Option (List (List Nat)) :=
  let places := (b.take d.hints).map BitVec.toNat
  let ends := (b.drop d.hints).map BitVec.toNat
  let starts := 0 :: ends
  let rows := (starts.zip ends).map fun p => (places.take p.2).drop p.1
  if (starts.zip ends).all (fun p => p.1 ≤ p.2 && p.2 ≤ d.hints) &&
      rows.all (fun l => (l.zip (l.drop 1)).all fun p => decide (p.1 < p.2)) &&
      (places.drop (ends.getLastD 0)).all (· == 0) then some rows else none

/-- The high part of a coefficient, corrected by its hint (UseHint). -/
def dsaHigh (d : DsaSet) (hint : Bool) (r : Nat) : Nat :=
  let m := (dsaQ - 1) / d.alpha
  let t := r % d.alpha
  now ((if t ≤ d.alpha / 2 then r / d.alpha else r / d.alpha + 1) % m) fun h =>
    if hint then (if t ≤ d.alpha / 2 ∧ 0 < t then (h + 1) % m else (h + m - 1) % m) else h

/-- The high parts of a row from place `i` on, with the places of the hints that are left. -/
def dsaHighs (d : DsaSet) : List Nat → Nat → List Nat → List Nat
  | _, _, [] => []
  | [], i, r :: t => now (dsaHigh d false r) fun v => v :: dsaHighs d [] i t
  | h :: hs, i, r :: t =>
    if h = i then now (dsaHigh d true r) fun v => now (i + 1) fun i => v :: dsaHighs d hs i t
    else now (dsaHigh d false r) fun v => now (i + 1) fun i => v :: dsaHighs d (h :: hs) i t

/-! ## The verification -/

/-- The polynomials that octets hold, 256 fields of `w` bits each. -/
def dsaPolys (w n : Nat) (b : List Byte) : List (List Nat) :=
  (List.range n).map fun i => now (numOf ((b.drop (32 * w * i)).take (32 * w))) fun v => fieldsOf w 256 v

/-- A row of A z - c t1 2^13 back from the transform's domain, in its high parts. -/
def dsaRow (d : DsaSet) (rho : List Byte) (zs : List (List Nat)) (c : List Nat) (i : Nat) (t1 hints : List Nat) : Nat :=
  let sum := zs.zipIdx.foldl (fun acc p =>
    zipNow (fun a v => (a + v) % dsaQ) acc (zipNow (fun a v => a * v % dsaQ) (dsaEntry rho i p.2) p.1))
    (zipNow (fun c t => (dsaQ - c * t % dsaQ) % dsaQ) c (dsaNtt (mapNow (· * 8192) t1)))
  packOf d.wBits (dsaHighs d hints 0 (dsaInv sum))

/-- The commitment hash that a public key, a message digest and the decoded parts of a signature give again. -/
def dsaCommitment (d : DsaSet) (key mu h : List Byte) (z : List (List Nat)) (hints : List (List Nat)) : List Byte :=
  let rho := key.take 32
  let zs := z.map fun p => dsaNtt (mapNow (fun x => (d.gamma1 + dsaQ - x) % dsaQ) p)
  let c := dsaNtt (dsaChallenge d h)
  let w := ((dsaPolys 10 d.rows (key.drop 32)).zip hints).zipIdx.map fun p =>
    octets (32 * d.wBits) (dsaRow d rho zs c p.2 p.1.1 p.1.2)
  octets d.hashLen (shake256 d.hashLen (mu ++ w.flatten))

/-- Verify a signature with one parameter set; the lengths are those of the set. -/
def dsaVerify (d : DsaSet) (key ctx msg sig : List Byte) : Bool :=
  let h := sig.take d.hashLen
  let z := dsaPolys d.zBits d.cols (sig.drop d.hashLen)
  let m := 0 :: BitVec.ofNat 8 ctx.length :: (ctx ++ msg)
  let mu := octets 64 (shake256 64 (octets 64 (shake256 64 key) ++ m))
  match dsaHints d (sig.drop (d.hashLen + 32 * d.zBits * d.cols)) with
  | some hints =>
    sig.length == d.sigLen && decide (ctx.length ≤ 255) &&
      z.all (fun p => p.all fun x => decide (d.beta < x ∧ x < 2 * d.gamma1 - d.beta)) &&
      dsaCommitment d key mu h z hints == h
  | none => false

/-- Verify an ML-DSA signature over octets with a context; the length of the key tells ML-DSA-65 from ML-DSA-44, and no signature
verifies with a key of another length. -/
@[irreducible] def mldsaVerify (key ctx msg sig : List Byte) : Bool :=
  if key.length = dsa65.keyLen then dsaVerify dsa65 key ctx msg sig
  else if key.length = dsa44.keyLen then dsaVerify dsa44 key ctx msg sig
  else false

end Sys2Proof.Machine
end

