-- ==== Sys2Proof/Machine/Numeric.lean ====
section
/-! DEFINITION. The sine, square root and powers of ten of the control laws and the sealed part (R139, R142, R221, R279 to
R282, R290, R323) on rationals: exact where the value is rational at the points named, else to the precision of log 7. -/

namespace Sys2Proof.Machine

/-- The scale of the fixed-point sine, and 2π in it. -/
def sinScale : Int := 281474976710656
def twoPiScaled : Int := 1768559438007110

/-- The sine series from a term: the terms `k`, `k + 1`, … of x − x³/3! + …, `n` of them, in the scale. -/
def sinTerms (x term : Int) (k : Nat) : Nat → Int
  | 0 => 0
  | n + 1 => term + sinTerms x (-(term * x / sinScale * x / sinScale) / ((2 * k + 2) * (2 * k + 3) : Nat)) (k + 1) n

/-- The sine of a fraction of a turn within its first quarter, rounded to 2^-40 (log 7). -/
def sinQuarter (g : Rat) : Rat :=
  let x := (g * twoPiScaled).floor
  (((sinTerms x x 0 12 + 128) / 256 : Int) : Rat) / 1099511627776

/-- The sine of a fraction of a turn; exact at the quarter turns. -/
def sineOf (t : Rat) : Rat :=
  let f := t - t.floor
  let q := (4 * f).floor
  let g := f - (q : Rat) / 4
  let m := if q % 2 = 0 then (if g = 0 then 0 else sinQuarter g) else if g = 0 then 1 else sinQuarter (1 / 4 - g)
  if 2 ≤ q then -m else m

/-- The square root of a rational, exact when it is rational, else down to a step of 2^-40 of its denominator's inverse
(log 7); 0 for a negative argument. -/
def sqrtQ (x : Rat) : Rat :=
  if x ≤ 0 then 0 else ((Nat.sqrt (x.num.toNat * x.den * 2 ^ 80) : Nat) : Rat) / ((x.den * 2 ^ 40 : Nat) : Rat)

/-- The largest number whose `p`-th power does not exceed `x`, bit by bit from bit `n`. -/
def rootBits (p x : Nat) (r : Nat) : Nat → Nat
  | 0 => r
  | n + 1 => rootBits p x (if (r + 2 ^ n) ^ p ≤ x then r + 2 ^ n else r) n

/-- The whole part of the `p`-th root of a number. -/
def rootN (p x : Nat) : Nat := rootBits p x 0 (x.log2 / max p 1 + 2)

/-- A rational cut to steps of 2^-48. -/
def cut48 (x : Rat) : Rat := ((x * sinScale).floor : Rat) / sinScale

/-- The tangent of half the angle with a tangent. -/
def halfTan (t : Rat) : Rat := cut48 (t / (1 + sqrtQ (1 + t * t)))

/-- The arctangent series from a term on. -/
def atanTerms (x2 term : Rat) (k : Nat) : Nat → Rat
  | 0 => 0
  | n + 1 => term / (2 * k + 1 : Nat) + atanTerms x2 (cut48 (-(term * x2))) (k + 1) n

/-- The angle of a point in thousandths of a degree, from -180,000 to 180,000 (R221), to the precision of log 7. -/
def angleOf (x y : Rat) : Rat :=
  let ax := if x < 0 then -x else x
  let ay := if y < 0 then -y else y
  let t := cut48 (if ay ≤ ax then ay / ax else ax / ay)
  let h := halfTan (halfTan (halfTan t))
  let a := 8 * atanTerms (cut48 (h * h)) h 0 10 * 360000 * sinScale / twoPiScaled
  let a := if ay ≤ ax then a else 90000 - a
  let a := if x < 0 then 180000 - a else a
  if y < 0 then -a else a

end Sys2Proof.Machine
end

