-- ==== Sys2Proof/Machine/Ops.lean ====
section
/-! DEFINITION. The named operations every command is written over: sparse tables, the register file of the
dictionary, octets, the records of State, line time, the trail, correlation IDs, latch frames and latches. -/

namespace Sys2Proof.Machine

/-- The answer of a command. -/
abbrev Res := Host.Outcome State Fault Refusal

/-! ## Sparse tables -/

/-- The entry at a key, if the table lists one. -/
def lookup? {κ α : Type} [DecidableEq κ] (k : κ) : List (κ × α) → Option α
  | [] => none
  | (j, v) :: t => if j = k then some v else lookup? k t

/-- The table with an entry set, keys ascending in the order that `ord` gives. -/
def insertBy {κ α : Type} [DecidableEq κ] (ord : κ → Nat) (k : κ) (v : α) : List (κ × α) → List (κ × α)
  | [] => [(k, v)]
  | (j, w) :: t =>
    if ord j < ord k then (j, w) :: insertBy ord k v t
    else if j = k then (k, v) :: t
    else (k, v) :: (j, w) :: t

/-- The entry of a table with number keys, or the default. -/
def look {α : Type} (d : α) (t : Tbl α) (k : Nat) : α := (lookup? k t).getD d

/-- Set an entry of a table with number keys. -/
def put {α : Type} (t : Tbl α) (k : Nat) (v : α) : Tbl α := insertBy id k v t

/-- Remove an entry of a table. -/
def dropKey {α : Type} (t : Tbl α) (k : Nat) : Tbl α := t.filter fun e => decide (e.1 ≠ k)

/-- The place of an address in the register file's order: by index, subindex, instance. -/
def Addr.key (a : Addr) : Nat := (a.index * 256 + a.sub) * 1024 + a.inst

/-! ## Octets and numbers (little-endian, R419) -/

/-- The low `n` octets of a number. -/
def leNat (n x : Nat) : List Byte := (List.range n).map fun i => BitVec.ofNat 8 (x / 256 ^ i)

/-- The low `n` octets of a number in two's complement. -/
def leInt (n : Nat) (v : Int) : List Byte := leNat n (v % 2 ^ (8 * n)).toNat

/-- The number that octets spell. -/
def ofLe (b : List Byte) : Nat := b.foldr (fun x acc => x.toNat + 256 * acc) 0

/-- The number that octets spell in two's complement. -/
def ofLeInt (b : List Byte) : Int :=
  let x := ofLe b
  if 2 * x < 256 ^ b.length then (x : Int) else (x : Int) - (256 ^ b.length : Nat)

/-- `n` octets of a list from an offset. -/
def sliceB (b : List Byte) (off n : Nat) : List Byte := (b.drop off).take n

/-- The unsigned field of `n` octets at an offset. -/
def fieldAt (b : List Byte) (off n : Nat) : Nat := ofLe (sliceB b off n)

/-- Octets padded with zeros, or cut, to a length. -/
def padTo (n : Nat) (b : List Byte) : List Byte := (b ++ List.replicate n 0).take n

/-- A text as octets. -/
def text (t : String) : List Byte := t.toList.map fun c => BitVec.ofNat 8 c.toNat

/-- The bit `k` of a number as a Bool. -/
def bit (x k : Nat) : Bool := (x / 2 ^ k) % 2 == 1

/-- A number with bit `k` set. -/
def setBit (x k : Nat) : Nat := if bit x k then x else x + 2 ^ k

/-- A number with bit `k` clear. -/
def clearBit (x k : Nat) : Nat := if bit x k then x - 2 ^ k else x

/-- A Bool as a register value. -/
def b2i (b : Bool) : Int := if b then 1 else 0

/-- A value clamped between two bounds. -/
def clampI (lo hi v : Int) : Int := if v < lo then lo else if hi < v then hi else v

/-- A value saturated to a signed 32-bit register. -/
def sat32 (v : Int) : Int := clampI (-2147483648) 2147483647 v

/-- Quotient rounded to the nearest whole number, half away from zero (the divisor is positive). -/
def divRound (a : Int) (b : Int) : Int :=
  if 0 ≤ a then (2 * a + b) / (2 * b) else -((2 * -a + b) / (2 * b))

/-- A rational rounded to the nearest whole number, half away from zero. -/
def roundQ (x : Rat) : Int := divRound x.num x.den

/-- CRC-32 of IEEE 802.3 (R183), octet by octet. -/
def crc32Byte (c : BitVec 32) (b : Byte) : BitVec 32 :=
  (List.range 8).foldl (fun c _ => if c.getLsbD 0 then (c >>> 1) ^^^ 0xEDB88320#32 else c >>> 1)
    (c ^^^ b.setWidth 32)

/-- The CRC-32 of octets: initial value and final complement all ones (R183). -/
def crc32 (b : List Byte) : Nat := (~~~ (b.foldl crc32Byte 0xFFFFFFFF#32)).toNat

/-- A CRC of `w` bits over message bits, most significant first (R94, R507). -/
def crcBits (w : Nat) (poly init : BitVec w) (bits : List Bool) : BitVec w :=
  bits.foldl (fun c b => if c.getMsbD 0 != b then (c <<< 1) ^^^ poly else c <<< 1) init

/-! ## The register file -/

/-- The instance encodings of R12. -/
def dev : Nat := 0x3FF
def met : Nat := 0x3E0
def siteI (n : Nat) : Nat := 0x3C0 + n

/-- The instance of the engine objects of a die: the device for the hub, the site for a channel die. -/
def dieI (d : Nat) : Nat := if d = 0 then dev else siteI d

/-- The value a register holds. -/
def State.rd (s : State) (i j e : Nat) : Int := (lookup? ⟨i, j, e⟩ s.objs).getD (dflt ⟨i, j, e⟩)

/-- The value a register holds, as a number. -/
def State.rdN (s : State) (i j e : Nat) : Nat := (s.rd i j e).toNat

/-- Set a register. -/
def State.wr (s : State) (i j e : Nat) (v : Int) : State :=
  { s with objs := insertBy Addr.key ⟨i, j, e⟩ v s.objs }

/-- Count one event in an unsigned register of `w` bits. -/
def State.inc (s : State) (i j e : Nat) (w : Nat := 32) : State :=
  s.wr i j e ((s.rd i j e + 1) % 2 ^ w)

/-- The octets an STR or BLOB register holds. -/
def State.rdB (s : State) (i j e : Nat) : List Byte := (lookup? ⟨i, j, e⟩ s.blobs).getD []

/-- The octets of an item that manufacture fixed (log 2). -/
def State.partOctets (s : State) (k : Nat) : List Byte := (lookup? k s.part).getD (Config.partBytes k)

/-- Set an STR or BLOB register. -/
def State.wrB (s : State) (i j e : Nat) (b : List Byte) : State :=
  { s with blobs := insertBy Addr.key ⟨i, j, e⟩ b s.blobs }

/-! ## The records of State -/

/-- The set of a generator unit at start-up: the defaults of R81's objects, of 0x3040.01 to 0x3460.00 for the hub's
units (AFE 0 to 5, chopper 6, ADIS 7, BLDC 8 to 19, stepper 20 to 35) and of 0x3100.01 for a DAB pair. -/
def unitReset (die u : Nat) : GenUnit :=
  let p := if die = 0 then
      (if u < 6 then (dflt ⟨0x3040, 1, dev⟩).toNat
       else if u < 8 then 640
       else if u < 20 then (dflt ⟨0x3422, 0, dev⟩).toNat
       else (dflt ⟨0x3460, 0, dev⟩).toNat)
    else if u < 64 then 1600 else (dflt ⟨0x3100, 1, siteI die⟩).toNat
  { active := ⟨p, 0, 0, 0⟩, staged := ⟨p, 0, 0, 0⟩ }

def State.chan (s : State) (c : Nat) : Chan := look {} s.chans c
def State.setChan (s : State) (c : Nat) (x : Chan) : State := { s with chans := put s.chans c x }
def State.unit (s : State) (die u : Nat) : GenUnit := look (unitReset die u) s.units (128 * die + u)
def State.setUnit (s : State) (die u : Nat) (x : GenUnit) : State := { s with units := put s.units (128 * die + u) x }
def State.slot (s : State) (die k : Nat) : Slot := look {} s.slots (128 * die + k)
def State.setSlot (s : State) (die k : Nat) (x : Slot) : State := { s with slots := put s.slots (128 * die + k) x }
def State.eng (s : State) (die e : Nat) : Engine := look {} s.engines (16 * die + e)
def State.setEng (s : State) (die e : Nat) (x : Engine) : State := { s with engines := put s.engines (16 * die + e) x }
def State.die (s : State) (d : Nat) : Die := look {} s.dies d
def State.setDie (s : State) (d : Nat) (x : Die) : State := { s with dies := put s.dies d x }
def State.desc (s : State) (die id : Nat) : Desc := look {} s.descs (64 * die + id)
def State.setDesc (s : State) (die id : Nat) (x : Desc) : State := { s with descs := put s.descs (64 * die + id) x }
def State.adc (s : State) (die u : Nat) : Adc := look {} s.adcs (16 * die + u)
def State.setAdc (s : State) (die u : Nat) (x : Adc) : State := { s with adcs := put s.adcs (16 * die + u) x }
def State.win (s : State) (k : Nat) : Win := look {} s.wins k
def State.setWin (s : State) (k : Nat) (x : Win) : State := { s with wins := put s.wins k x }
def State.group (s : State) (g : Nat) : Group := look {} s.groups g
def State.setGroup (s : State) (g : Nat) (x : Group) : State := { s with groups := put s.groups g x }
def State.drive (s : State) (a : Nat) : Bldc := look {} s.bldc a
def State.setDrive (s : State) (a : Nat) (x : Bldc) : State := { s with bldc := put s.bldc a x }
def State.axis (s : State) (a : Nat) : Axis := look {} s.axes a
def State.setAxis (s : State) (a : Nat) (x : Axis) : State := { s with axes := put s.axes a x }
def State.port (s : State) (p : Nat) : Can := look {} s.can p
def State.setPort (s : State) (p : Nat) (x : Can) : State := { s with can := put s.can p x }
def State.queue (s : State) (u : Nat) : List (BitVec 64) := look [] s.queues u
def State.setQueue (s : State) (u : Nat) (x : List (BitVec 64)) : State := { s with queues := put s.queues u x }

/-- Line time, in ns (R379). -/
def State.lt (s : State) : Nat := s.clock.lt

/-- A die's time base in fine steps (R383): the package's time base and the die's phase error. -/
def State.fine (s : State) (die : Nat) : Nat := ((s.clock.tb : Int) + (s.die die).tbErr).toNat

/-- A die's time base in counts of 3.125 ns. -/
def State.cnt (s : State) (die : Nat) : Nat := s.fine die / 32

/-- The die and the local channel of a global channel (R12). -/
def dieOf (c : Nat) : Nat := c / 64 + 1
def localOf (c : Nat) : Nat := c % 64
def chanOf (site k : Nat) : Nat := 64 * (site - 1) + k

/-- A channel die is populated at a site (R43): QFn has n − 2 of them. -/
def State.sitePop (s : State) (n : Nat) : Bool := decide (1 ≤ n) && decide (n + 2 ≤ s.variant)

/-- A channel is populated. -/
def State.chanPop (s : State) (c : Nat) : Bool := s.sitePop (dieOf c)

/-- A die, the hub included, exists. -/
def State.diePop (s : State) (d : Nat) : Bool := d == 0 || s.sitePop d

/-- The populated channel dies, and the populated channels. -/
def State.sites (s : State) : List Nat := ((List.range 7).drop 1).filter s.sitePop
def State.channels (s : State) : List Nat := s.sites.flatMap fun n => (List.range 64).map (chanOf n)

/-- The channels of a site. -/
def siteChans (n : Nat) : List Nat := (List.range 64).map (chanOf n)

/-- Draw a free value's number (log 5). -/
def State.draw (s : State) : State := { s with free := s.free + 1 }

/-- Apply an operation for each element of a list, in order. -/
def each {α : Type} (l : List α) (f : State → α → State) (s : State) : State := l.foldl f s

/-- Apply an operation when a condition holds. -/
def when' (b : Bool) (f : State → State) (s : State) : State := if b then f s else s

/-! ## Correlation IDs and the trail (R495 to R504) -/

/-- The next correlation ID of a site (R504): the site in [31:29], its running count in [28:0]. -/
def State.corrId (s : State) (site : Nat) : Nat :=
  site % 8 * 2 ^ 29 + (look 0 s.trail.corr site + 1) % 2 ^ 29

/-- Open that ID. -/
def State.openCorr (s : State) (site : Nat) : State :=
  { s with trail := { s.trail with corr := put s.trail.corr site ((look 0 s.trail.corr site + 1) % 2 ^ 29) } }

/-- The severity of each trail code (R497). -/
def severityOf (code : Nat) : Nat :=
  match code with
  | 0x0001 => 0
  | 0x0002 | 0x0010 | 0x0011 | 0x0013 | 0x0022 | 0x0030 => 2
  | 0x0014 | 0x0020 | 0x0021 => 3
  | 0x2001 | 0x2004 | 0x200A | 0x200C => 3
  | 0x2003 | 0x2005 | 0x2009 => 1
  | 0x2002 | 0x2006 | 0x2007 | 0x2008 | 0x200B | 0x200D => 2
  | 0x3001 | 0x3002 | 0x3003 | 0x3005 | 0x3401 => 3
  | 0x3004 => 2
  | 0x4001 | 0x4002 => 4
  | 0x4003 => 1
  | 0x5001 => 1
  | 0x5002 | 0x5003 => 2
  | 0x6001 => 0
  | 0x6002 | 0x6003 | 0x6004 => 1
  | 0x7001 | 0x7002 => 2
  | _ => 0

/-- Count an entry that a frozen trail does not store (R502). -/
def State.countUnstored (s : State) : State := s.inc 0x6000 9 dev

/-- The freeze is in force (R502): frozen, or the post-trigger count of entries has been stored. -/
def State.frozen (s : State) : Bool := s.rd 0x6000 7 dev == 1 || s.trail.armed == some 0

/-- Advance the freeze after an entry of a severity was stored (R502). -/
def State.armFreeze (s : State) (sev : Nat) : State :=
  match s.trail.armed with
  | some n => { s with trail := { s.trail with armed := some (n - 1) } }
  | none =>
    if s.rd 0x6000 5 dev ≤ 4 ∧ s.rd 0x6000 5 dev ≤ sev then
      { s with trail := { s.trail with armed := some (s.rdN 0x6000 6 dev) } }
    else s

/-- Write an entry into its slot (R500, R501): the oldest unread entry gives way when 16,384 are unread. -/
def State.placeEntry (s : State) (e : Stored) : State :=
  let n := s.rdN 0x6000 1 dev
  let full := (n + 2 ^ 32 - s.rdN 0x6000 2 dev) % 2 ^ 32 = 16384
  let s := if full then (s.inc 0x6000 2 dev).inc 0x6000 4 dev else s
  let s := { s with trail := { s.trail with
    entries := put s.trail.entries (n % 16384) { e with seq := n % 65536 }, sinceMark := s.trail.sinceMark + 1 } }
  s.inc 0x6000 1 dev

/-- Store an entry that reaches the hub (R498, R500 to R502). -/
def State.store (s : State) (e : Stored) : State :=
  if s.frozen then s.countUnstored else (s.placeEntry e).armFreeze e.severity

/-- The trail entry of an event at a site, at line time. -/
def mkEntry (s : State) (site chan code : Nat) (data : List Byte) (corr : Nat) : Stored :=
  { site := site, severity := severityOf code, chan := chan, code := code, lt := s.lt, data := padTo 12 data,
    corr := corr, seq := 0 }

/-- A channel die queues an entry for the hub, as an ordinary flit (R498). -/
def State.sendEntry (s : State) (site : Nat) (e : Stored) : State :=
  let d := s.die site
  s.setDie site { d with up := { d.up with queue := d.up.queue ++ [e] } }

/-- Raise an entry on a die: the hub stores its own at once, a channel die sends at most 16 entries of one code and
channel in an epoch, and never suppresses 0x2001 (R498, R499). -/
def State.raise (s : State) (site chan code : Nat) (data : List Byte) (corr : Nat) : State :=
  if 1 ≤ site ∧ site ≤ 6 then
    if code = 0x2001 then s.sendEntry site (mkEntry s site chan code data corr)
    else
      let d := s.die site
      let k := 65536 * code + chan
      let n := look 0 d.sent k
      let s := s.setDie site { d with sent := put d.sent k (n + 1) }
      if n < 16 then s.sendEntry site (mkEntry s site chan code data corr) else s
  else s.store (mkEntry s site chan code data corr)

/-- No channel in a trail entry. -/
def noChan : Nat := 0xFFFF

/-- Raise an entry of the hub for an event that opens a new correlation ID. -/
def State.note (s : State) (code : Nat) (data : List Byte) : State :=
  (s.openCorr 0).raise 0 noChan code data (s.corrId 0)

/-- Raise an entry of a die for an event that opens a new correlation ID. -/
def State.noteAt (s : State) (site chan code : Nat) (data : List Byte) : State :=
  (s.openCorr site).raise site chan code data (s.corrId site)

/-- A supply event (R531): entry 0x0014 with the bank, numbered as in 0x1220.03, or the rail, and its new state; and the count.
The manual prints no codes for other rails and for the states (log 81). -/
def State.supplyNote (s : State) (b : Nat) (under : Bool) : State :=
  (s.inc 0x1220 5 dev).note 0x0014 [if b < 8 then BitVec.ofNat 8 b else Config.railOctet b, Config.supplyOctet under]

/-! ## Latch frames on Hinge-C (R30 to R32, R507) -/

/-- A code that always finds a place: 0x01 and 0x02. -/
def LFrame.first (f : LFrame) : Bool := f.code == 1 || f.code == 2

/-- A frame takes its place in the order raised; frames of one clock cycle stand in ascending code. -/
def insFrame (f : LFrame) : List LFrame → List LFrame
  | [] => [f]
  | g :: t => if g.born = f.born ∧ f.code < g.code then f :: g :: t else g :: insFrame f t

/-- A direction whose frames with other codes are a list in order: at most 8 are pending, the router holds the rest. -/
def Link.hold (l : Link) (others : List LFrame) : Link :=
  { l with pending := l.pending.filter LFrame.first ++ others.take 8, router := others.drop 8 }

/-- The frames with other codes of a direction, in order. -/
def Link.others (l : Link) : List LFrame := (l.pending.filter fun f => !f.first) ++ l.router

/-- Queue a latch frame on a direction of a link (R32). -/
def Link.raiseF (l : Link) (f : LFrame) : Link :=
  if f.first then { l with pending := l.pending ++ [f] } else l.hold (insFrame f l.others)

/-- The frame that leaves next (R32): DCOV first, then OV2, then the order raised. -/
def Link.next? (l : Link) : Option LFrame :=
  match l.pending.find? (fun f => f.code == 1) with
  | some f => some f
  | none =>
    match l.pending.find? (fun f => f.code == 2) with
    | some f => some f
    | none => l.pending.head?

/-- Send the next frame: it goes onto the wire, and a frame of the router takes the freed place. -/
def Link.send (l : Link) : Link :=
  match l.next? with
  | none => l
  | some f =>
    let l := { l with pending := l.pending.erase f, wire := l.wire ++ [f] }
    l.hold l.others

/-- A direction of a die's link. -/
def Die.link (d : Die) : Dir → Link
  | .toHub => d.up
  | .toDie => d.down

/-- Set a direction of a die's link. -/
def Die.setLink (d : Die) (dir : Dir) (l : Link) : Die :=
  match dir with
  | .toHub => { d with up := l }
  | .toDie => { d with down := l }

/-- Raise a latch frame to or from a die. -/
def State.raiseFrame (s : State) (site : Nat) (dir : Dir) (code arg corr : Nat) : State :=
  let d := s.die site
  s.setDie site (d.setLink dir ((d.link dir).raiseF ⟨code, arg, corr, s.clock.cnt⟩))

/-- Raise a latch frame to every populated channel die. -/
def State.raiseAll (s : State) (code arg corr : Nat) : State :=
  each s.sites (fun s n => s.raiseFrame n .toDie code arg corr) s

/-- A frame with this code arrives: it leaves the wire. -/
def State.frameIn (s : State) (site : Nat) (dir : Dir) (code : Nat) : State :=
  let d := s.die site
  let l := d.link dir
  match l.wire.find? (fun f => f.code == code) with
  | some f => s.setDie site (d.setLink dir { l with wire := l.wire.erase f })
  | none => s

/-- The CRC-8 of a frame over [63:8] (R507). -/
def frameCrc (head : BitVec 56) : BitVec 8 := crcBits 8 0x07#8 0xFF#8 ((List.range 56).map fun i => head.getMsbD i)

/-- The 64-bit form of a latch frame (R507): CODE, SITE, ARG, CORR and the CRC-8. -/
def frameWord (site code arg corr : Nat) : Frame64 :=
  let head : BitVec 56 := BitVec.ofNat 56 (code % 256 * 2 ^ 48 + site % 8 * 2 ^ 45 + arg % 128 * 2 ^ 38 + corr % 2 ^ 32)
  head ++ frameCrc head

/-- The fields of a frame (R507); [45:40] is reserved. -/
def frameCode (w : Frame64) : Nat := w.toNat / 2 ^ 56
def frameArg (w : Frame64) : Nat := w.toNat / 2 ^ 46 % 128
def frameRsv (w : Frame64) : Nat := w.toNat / 2 ^ 40 % 64
def frameCorr (w : Frame64) : Nat := w.toNat / 2 ^ 8 % 2 ^ 32

/-- A copy whose CRC checks, and the copy the receiver acts on (R31): the first good one. -/
def frameOk (w : Frame64) : Bool := frameCrc (w.extractLsb' 8 56) == w.extractLsb' 0 8
def goodFrame (a b : Frame64) : Option Frame64 := if frameOk a then some a else if frameOk b then some b else none

/-- Change one direction of a link. -/
def State.onLink (s : State) (n : Nat) (dir : Dir) (f : Link → Link) : State :=
  let d := s.die n
  s.setDie n (d.setLink dir (f (d.link dir)))

/-- The site that detects a CRC failure in a direction: the receiver; and the direction field of entry 0x0022. -/
def receiverOf (n : Nat) : Dir → Nat
  | .toHub => 0
  | .toDie => n
def dirField : Dir → Nat
  | .toHub => 0
  | .toDie => 1

/-- Entry 0x0022: 0 delivered, 1 failed, 2 cancelled. -/
def State.replayNote (s : State) (n : Nat) (dir : Dir) (retries outcome corr : Nat) : State :=
  s.raise (receiverOf n dir) noChan 0x0022 (leNat 1 n ++ leNat 1 (dirField dir) ++ leNat 1 retries ++ leNat 1 outcome) corr

/-- A replay of ordinary flits, or of a latch frame, ends with an outcome. -/
def State.endReplay (s : State) (n : Nat) (dir : Dir) (outcome : Nat) : State :=
  let r := ((s.die n).link dir).replay
  if r.retries = 0 then s
  else (s.replayNote n dir r.retries outcome r.corr).onLink n dir fun l => { l with replay := {} }
def State.endAgain (s : State) (n : Nat) (dir : Dir) (outcome : Nat) : State :=
  let r := ((s.die n).link dir).again
  if r.retries = 0 then s
  else (s.replayNote n dir r.retries outcome r.corr).onLink n dir fun l => { l with again := {} }

/-- One more retry; the first failure opens the correlation ID. -/
def Replay.next (r : Replay) (corr : Nat) : Replay := { retries := r.retries + 1, corr := if r.retries = 0 then corr else r.corr }
def State.openReplay (s : State) (n : Nat) (dir : Dir) (r : Replay) : State :=
  if r.retries = 0 then s.openCorr (receiverOf n dir) else s

/-- Both copies of a latch frame failed (R31): it is sent again, ahead of the frames that wait (R28, R32). -/
def State.frameAgain (s : State) (n : Nat) (dir : Dir) : State :=
  let l := (s.die n).link dir
  if l.again.retries < 3 then
    let corr := s.corrId (receiverOf n dir)
    (s.openReplay n dir l.again).onLink n dir fun l =>
      let l := { l with again := l.again.next corr }
      match l.wire with
      | f :: w => { l with pending := f :: l.pending, wire := w }
      | [] => l
  else s

/-- A die of the part is powered: its frames and flits travel. -/
def State.linkUp (s : State) (n : Nat) : Bool := s.vsys && s.sitePop n

/-- A direction of a link carries flits and frames. -/
def State.linkOk (s : State) (n : Nat) (dir : Dir) : Bool := s.linkUp n && !((s.die n).link dir).failed

/-- The hub receives a frame with one of its codes (R508): `f` takes ARG and CORR. -/
def State.hubFrame (s : State) (n code : Nat) (a b : Frame64) (f : Nat → Nat → State → State) : State :=
  if s.linkOk n .toHub then
    match goodFrame a b with
    | none => s.frameAgain n .toHub
    | some w =>
      if frameCode w = code ∧ frameRsv w = 0 then f (frameArg w) (frameCorr w) ((s.endAgain n .toHub 0).frameIn n .toHub code) else s
  else s

/-! ## Channel states (R185 to R187) and gangs (R70, R72) -/

def State.runState (s : State) (c : Nat) : Nat := s.rdN 0x2402 1 c
def State.latched (s : State) (c : Nat) : Bool := s.rd 0x6010 1 c == 1

/-- The channel's run is active: run state 1 to 6 (R182). -/
def State.active (s : State) (c : Nat) : Bool := decide (1 ≤ s.runState c) && decide (s.runState c ≤ 6)

/-- The gangs of a quad under a gang code (R70), as lists of places 0 to 3. -/
def gangsOf (code : Nat) : List (List Nat) :=
  match code with
  | 1 => [[0, 1]]
  | 2 => [[2, 3]]
  | 3 => [[0, 1], [2, 3]]
  | 4 => [[1, 2]]
  | 5 => [[0, 1, 2]]
  | 6 => [[1, 2, 3]]
  | 7 => [[0, 1, 2, 3]]
  | _ => []

/-- The members of a channel's gang, ascending; the channel alone when it is not ganged. -/
def State.gang (s : State) (c : Nat) : List Nat :=
  let q := localOf c / 4
  match (gangsOf (s.rdN 0x2802 (q + 1) (siteI (dieOf c)))).find? (fun g => g.contains (c % 4)) with
  | some g => g.map fun k => chanOf (dieOf c) (4 * q + k)
  | none => [c]

/-- The master of a channel's gang (R70). -/
def State.master (s : State) (c : Nat) : Nat := (s.gang c).headD c

/-- The channel is a gang slave. -/
def State.slave (s : State) (c : Nat) : Bool := s.master c != c

/-- Subentry `n` of row `r` of a channel (R181). -/
def State.row (s : State) (c r n : Nat) : Nat := s.rdN (0x2000 + r) (n + 1) c

/-- The current row of a channel: a gang slave runs its master's (R161). -/
def State.curRow (s : State) (c : Nat) : Nat := s.rdN 0x2402 2 (s.master c)

/-- Subentry `n` of the row that the channel's step runs (R161, R167). -/
def State.rowNow (s : State) (c n : Nat) : Nat := s.row (s.master c) (s.curRow c) n

/-- The mode of that row (R168). -/
def State.mode (s : State) (c : Nat) : Nat := s.rowNow c 0 / 2 ^ 28 % 16

/-- Idle (R187). -/
def State.idle (s : State) (c : Nat) : Bool := (s.runState c == 0 || s.runState c == 7) && !s.latched c

/-- Resting (R187): in a rest step, or in run state 4, 5 or 6. -/
def State.resting (s : State) (c : Nat) : Bool :=
  (s.runState c == 2 && s.mode c == 6) || s.runState c == 4 || s.runState c == 5 || s.runState c == 6

/-- Switching (R187). -/
def State.switching (s : State) (c : Nat) : Bool :=
  s.runState c == 3 || (s.runState c == 2 && s.mode c != 6)

/-- Both DAB stages of a die are stopped. -/
def State.dabsStopped (s : State) (n : Nat) : Bool := !(s.unit n 64).running && !(s.unit n 65).running

/-- A channel die is idle (R51). -/
def State.dieIdle (s : State) (n : Nat) : Bool :=
  (siteChans n).all (fun c => s.idle c || s.resting c || s.latched c) && s.dabsStopped n

/-- Some pulse output of a die switches, with the number of its generator units. -/
def State.dieSwitches (s : State) (d : Nat) : Bool :=
  (List.range (if d = 0 then 36 else 66)).any fun u => (s.unit d u).running

/-- Some pulse output of the QF switches (R77). -/
def State.anySwitching (s : State) : Bool := s.dieSwitches 0 || s.sites.any s.dieSwitches

/-! ## Stops and latches -/

/-- Stop a generator unit at once, without a boundary (R59, R103): it is stopped and emits nothing. DESIGN CHOICE (log
167): it loses its pending commit, start and stop, and needs a new commit before it can start again. -/
def GenUnit.cut (u : GenUnit) : GenUnit :=
  { u with running := false, on := false, committed := false, commit := none, startAt := none, stopAt := none,
           restart := false, shift := 0, before := false, edges := [], gapHeld := false, want := [], pins := [], moves := [] }

/-- The low side turns off at a time: its on-time counts for the refresh limiter (R48). -/
def Slice.lowOff (x : Slice) (t m : Nat) : Slice :=
  { x with lg := false, lowSince := none,
           lowEnough := x.lowEnough || (match x.lowSince with | some a => decide (a + 32 * m ≤ t) | none => false) }

/-- Turn both gates of a slice off at once; words that wait are dropped. -/
def Slice.cut (x : Slice) : Slice := { x with hg := false, lg := false, leg := .off, words := [], turnOn := none, lowSince := none }

/-- Turn both gates of a channel off now. -/
def State.sliceOff (s : State) (c : Nat) : State :=
  let ch := s.chan c
  s.setChan c { ch with slice := (ch.slice.lowOff (s.fine (dieOf c)) (s.rdN 0x2800 5 (siteI (dieOf c)))).cut }

/-- Turn both gates of a channel off at once and stop its unit. -/
def State.gatesOff (s : State) (c : Nat) : State :=
  let s := s.sliceOff c
  s.setUnit (dieOf c) (localOf c) (s.unit (dieOf c) (localOf c)).cut

/-- Engines of a die (R108), and its loop slots. -/
def engineCount (die : Nat) : Nat := if die = 0 then 12 else 16
def slotCount (die : Nat) : Nat := if die = 0 then 24 else 66

/-- Drop every pending job of a slot from the deques of its die (R113). -/
def State.dropJobs (s : State) (die k : Nat) : State :=
  each (List.range (engineCount die)) (fun s e =>
    let x := s.eng die e
    s.setEng die e { x with deque := x.deque.filter fun j => decide (j.slot ≠ k) }) s

/-- A state word of a slot: word 4 holds 65,536 outside a drain (R190), every other word 0 until it is set. -/
def Slot.word (x : Slot) (k : Nat) : Int := look (if k = 4 then 65536 else 0) x.words k

/-- Set the drain factor of a channel's slot (R190). -/
def State.setWord4 (s : State) (c g : Nat) : State :=
  let x := s.slot (dieOf c) (localOf c)
  s.setSlot (dieOf c) (localOf c) { x with words := put x.words 4 g }

/-- Set words 8 to 63 of a slot and its published words to 0 (R114, R190). -/
def State.discardSlot (s : State) (die k : Nat) : State :=
  let x := s.slot die k
  s.setSlot die k { x with words := x.words.filter (fun e => decide (e.1 < 8)), pub := [] }

/-- The credit in frames that the QM grants the hub (R207). -/
def mailCredit : Nat := 64

/-- The hub sends what waits, in order, while it has credit. -/
def State.pump (s : State) : State :=
  let n := mailCredit - s.flight.length
  { s with flight := s.flight ++ s.lane.take n, lane := s.lane.drop n }

/-- Request a mailbox command to the QM; the lane sends in this order (R191, R207). -/
def State.mail (s : State) (i : Instr) : State := { s with lane := s.lane ++ [i] }.pump

/-- The next row that a STEP_CLOSE carries when no step follows. -/
def noRow : Nat := 0xFFFF

/-- Close the open step of a channel at an LT (R190): the hub queues the step descriptor for the QM. -/
def State.closeStep (s : State) (c nextRow cause endLt : Nat) : State :=
  let s := s.wr 0x2402 0x0A c endLt
  let ch := s.chan c
  let s := s.setChan c { ch with run := { ch.run with stepOpen := false } }
  s.mail (.stepClose c nextRow cause endLt)

/-- End the run of a channel with a result (R188, R189, R172); no drain goes on (R190). -/
def State.endRun (s : State) (c : Nat) (result : Nat) : State :=
  let ch := s.chan c
  let s := s.setChan c { ch with run := {}, law := {}, sup := { ch.sup with stale := none, follow := none, vLimit := none, vRun := 0, door := none } }
  (((s.wr 0x2402 1 c 7).wr 0x2402 3 c result).wr 0x2444 1 c 0).setWord4 c 65536

/-- A latch ends the run at once with result 4 (R189): the current step ends at the LT of the latch. -/
def State.endByLatch (s : State) (c : Nat) : State :=
  if s.active c then
    let s := if (s.chan c).run.stepOpen then (s.wr 0x2402 9 c 5).closeStep c noRow 2 s.lt else s
    s.endRun c 4
  else s

/-- The data of a 0x2001 entry (R497). -/
def latchData (cause arg : Nat) (iRef vm : Int) : List Byte :=
  leNat 1 cause ++ leNat 1 0 ++ leNat 2 arg ++ leInt 4 iRef ++ leInt 4 vm

/-- Latch one channel (R45, R505, R506): gates off, the first cause recorded, one entry 0x2001, its run ended, its
pending jobs dropped. A cause raised while the latch is held sets its bit in 0x6010.06 and nothing else. -/
def State.latchOne (s : State) (c cause arg corr : Nat) : State :=
  let s := s.setChan c { s.chan c with causeAt := some s.clock.cnt }
  if s.latched c then s.wr 0x6010 6 c (setBit (s.rdN 0x6010 6 c) cause)
  else
    let iRef := s.rd 0x2444 2 c
    let vm := (s.chan c).law.vLast
    let s := s.gatesOff c
    let s := ((((s.wr 0x6010 1 c 1).wr 0x6010 2 c cause).wr 0x6010 3 c arg).wr 0x6010 4 c s.lt).wr 0x6010 5 c corr
    let s := (s.wr 0x6010 6 c 0).inc 0x6010 8 c
    let s := s.raise (dieOf c) c 0x2001 (latchData cause arg iRef vm) corr
    (s.dropJobs (dieOf c) (localOf c)).endByLatch c

/-- Latch channels, and with each the rest of its gang with the cause "gang" and the gang-propagated bit (R73). -/
def State.latchChans (s : State) (cs : List Nat) (cause arg corr : Nat) : State :=
  let rest := (cs.flatMap s.gang).filter fun m => !cs.contains m
  let s := each cs (fun s c => s.latchOne c cause arg corr) s
  each rest.eraseDups (fun s m => (s.latchOne m 3 0 corr).wr 0x2810 4 m (setBit (s.rdN 0x2810 4 m) 3)) s

/-- Latch one channel and its gang for a cause that its die detects, under a new correlation ID. -/
def State.latchNew (s : State) (c cause arg : Nat) : State :=
  (s.openCorr (dieOf c)).latchChans [c] cause arg (s.corrId (dieOf c))

/-- The two stages of a die. -/
def Die.dab (d : Die) (i : Nat) : Dab := if i = 0 then d.dab0 else d.dab1
def Die.setDab (d : Die) (i : Nat) (x : Dab) : Die := if i = 0 then { d with dab0 := x } else { d with dab1 := x }

/-- Latch a DAB stage (R103, R505, R506): its outputs go to the stop level, the cause is recorded, entry 0x2001 and
latch frame 0x23 follow. -/
def State.latchDab (s : State) (n i cause arg corr : Nat) : State :=
  let d := s.die n
  let x := d.dab i
  if x.latched then s.setDie n (d.setDab i { x with later := setBit x.later cause, causeAt := some s.clock.cnt })
  else
    let s := s.setDie n (d.setDab i { x with latched := true, later := 0, arg := arg, corr := corr, started := false, causeAt := some s.clock.cnt })
    let s := s.setUnit n (64 + i) (s.unit n (64 + i)).cut
    let s := (s.wr 0x6012 (2 + i) (siteI n) cause).wr 0x3101 (1 + i) (siteI n) 4
    let s := s.raise n (0x200 + i) 0x2001 (latchData cause arg 0 0) corr
    (s.dropJobs n (64 + i)).raiseFrame n .toHub 0x23 (64 + i) corr

/-! ## Answers of requests (R427, R429, R451) -/

/-- The abort codes of R451. -/
def aDone : Nat := 0
def aUnknownOp : Nat := 1
def aNoObject : Nat := 2
def aNoInstance : Nat := 3
def aReadOnly : Nat := 4
def aWriteOnly : Nat := 5
def aType : Nat := 6
def aLength : Nat := 7
def aRange : Nat := 8
def aNotIdle : Nat := 9
def aTooLarge : Nat := 0xA
def aCrc : Nat := 0xB
def aTransfer : Nat := 0xC
def aBusy : Nat := 0xD
def aTimeout : Nat := 0xE
def aDenied : Nat := 0xF
def aAuth : Nat := 0x10
def aPassword : Nat := 0x11
def aLocked : Nat := 0x12
def aMismatch : Nat := 0x13
def aBudget : Nat := 0x14
def aNoPlan : Nat := 0x15
def aDescriptor : Nat := 0x16
def aRecipe : Nat := 0x17

/-- A refusal: its abort code, and the instance it reports when that is not the request's own (R429, R452). -/
structure Refuse where
  code : Nat
  inst : Option Nat := none
  deriving DecidableEq, Repr

/-- What a request answers: a refusal, or the state after it and the reply payload. -/
abbrev Ans := Except Refuse (State × List Byte)

/-- Refuse with a code unless a condition holds. -/
def need (b : Bool) (code : Nat) (k : Ans) : Ans := if b then k else .error ⟨code, none⟩

/-- Refuse with a code that is not "done". -/
def needDone (code : Nat) (k : Ans) : Ans := if code = 0 then k else .error ⟨code, none⟩

/-- The request is carried out and answered without a payload. -/
def done (s : State) : Ans := .ok (s, [])

/-- The first code of a list that is not "done". -/
def firstCode (l : List Nat) : Nat := (l.find? fun c => decide (c ≠ 0)).getD 0

/-- The octets received so far of a staged object (R435, R485): later pieces replace what they cover. -/
def overlay (buf : List (Option Byte)) (off : Nat) (d : List Byte) : List (Option Byte) :=
  buf.take off ++ d.map some ++ buf.drop (off + d.length)

/-- The staging buffer of a transfer. -/
def Pieces.buffer (p : Pieces) : List (Option Byte) :=
  p.parts.foldl (fun b (o, d) => overlay b o d) (List.replicate p.total none)

/-- The whole object, once every octet has been received. -/
def Pieces.whole (p : Pieces) : Option (List Byte) :=
  let b := p.buffer
  if b.all Option.isSome then some (b.map fun x => x.getD 0) else none

end Sys2Proof.Machine
end

