-- ==== Sys2Proof/Machine/Flags.lean ====
section
/-! DEFINITION. The arithmetic and the flag register of the loop engines (R115 to R118, R121). -/

namespace Sys2Proof.Machine

/-- OVF is set when a result was saturated (R117). -/
def Flags.sat (f : Flags) (exact kept : Int) : Flags := if exact = kept then f else { f with ovf := true }

/-- A value saturated to a 40-bit accumulator: ±(2^39 − 1) (R117). -/
def satAcc (v : Int) : Int := clampI (-549755813887) 549755813887 v

/-- A product shifted right by 16, rounded half away from zero (R117). -/
def mulQ (a b : Int) : Int := divRound (a * b) 65536

/-- LT, EQ and GT from a comparison (R116). -/
def Flags.cmp (f : Flags) (a b : Int) : Flags :=
  { f with lt := decide (a < b), eq := decide (a = b), gt := decide (b < a) }

/-- The condition of a branch (R116). -/
def Flags.holds (f : Flags) (cond : Nat) : Bool :=
  match cond with
  | 0 => true
  | 1 => f.eq
  | 2 => !f.eq
  | 3 => f.lt
  | 4 => f.gt || f.eq
  | 5 => f.gt
  | 6 => f.slo || f.shi
  | 7 => f.st
  | _ => false

/-- A clamp with its saturation flags (R116): below the lower bound sets SLO, above the upper bound SHI. -/
def Flags.lim (f : Flags) (lo hi a : Int) : Flags :=
  if a < lo then { f with slo := true } else if hi < a then { f with shi := true } else f

/-- PI holds its integrator: SHI with a positive error or SLO with a negative one (R118). -/
def Flags.piHeld (f : Flags) (err : Int) : Bool := (f.shi && decide (0 < err)) || (f.slo && decide (err < 0))

/-- A shift by a signed count (R116). DEDUCED (log 13): the rounding to the right is that of R117, half away from zero. -/
def shiftBy (a : Int) (n : Int) : Int := if 0 ≤ n then a * 2 ^ n.toNat else divRound a (2 ^ (-n).toNat)

/-- A value kept as a signed 32-bit word. -/
def wrap32 (v : Int) : Int := (BitVec.ofInt 32 v).toInt

/-- A point of a curve table (R121): abscissa and ordinate. -/
def curvePoint (t : List Byte) (i : Nat) : Int × Int :=
  (ofLeInt (sliceB t (8 + 8 * i) 4), ofLeInt (sliceB t (12 + 8 * i) 4))

/-- The points of a curve table. -/
def curvePoints (t : List Byte) : List (Int × Int) := (List.range (fieldAt t 2 2)).map (curvePoint t)

/-- A quotient whose rounding the manual does not state: the exact value, or one of its two neighbours (log 9). -/
def quot (a b : Int) : Int :=
  let q := a.fdiv b
  if q * b = a then q else if Config.roundUp a b then q + 1 else q

/-- A rational as a whole number; the rounding is left open (log 9). -/
def wholeOf (x : Rat) : Int := quot x.num x.den

/-- The ordinate between two points, on their line (R121). -/
def lineAt (p q : Int × Int) (x : Int) : Int := p.2 + quot ((q.2 - p.2) * (x - p.1)) (q.1 - p.1)

/-- The interpolation over points in ascending order of abscissa. -/
def curveWalk (x : Int) : List (Int × Int) → Int
  | [] => 0
  | [p] => p.2
  | p :: q :: t => if x ≤ q.1 then lineAt p q x else curveWalk x (q :: t)

/-- The value of a curve at an argument; below the first point the first ordinate, above the last the last (R121). -/
def curveAt (t : List Byte) (x : Int) : Int :=
  match curvePoints t with
  | [] => 0
  | p :: ps => if x < p.1 then p.2 else curveWalk x (p :: ps)

/-- SLO below the first abscissa, SHI above the last (R121). -/
def Flags.curve (f : Flags) (t : List Byte) (x : Int) : Flags :=
  match curvePoints t with
  | [] => f
  | p :: ps => f.lim p.1 ((ps.getLastD p).1) x

/-- The layout a curve table must have (R121). -/
def curveOk (t : List Byte) : Bool :=
  let n := fieldAt t 2 2
  decide (2 ≤ n) && decide (n ≤ 255) && fieldAt t 0 2 == 0 && fieldAt t 4 4 == 0 &&
    ((curvePoints t).zip ((curvePoints t).drop 1)).all fun (p, q) => decide (p.1 < q.1)

end Sys2Proof.Machine
end

