-- ==== Sys2Proof/Machine/Operands.lean ====
section
/-! DEFINITION. What a dictionary request brings and how it is answered: instances, sessions and kept replies, the
order of checks of R452 for a write of one object, and the states R421 asks for. -/

namespace Sys2Proof.Machine

/-! ## Instances -/

/-- The encoding of an instance (R12). -/
def instOf : Inst → Nat
  | .ch c => c
  | .site n => siteI n
  | .met => met
  | .dev => dev
  | .other e => e

/-- Whether an encoding is one of R12's, and its site populated (R4, R12). -/
def State.instOk (s : State) (e : Nat) : Bool :=
  (decide (e < 0x180) && s.chanPop e) || (decide (0x3C1 ≤ e) && decide (e ≤ 0x3C6) && s.sitePop (e - 0x3C0)) ||
    e == met || e == dev

/-- The site an instance belongs to, if any. -/
def siteOfInst (e : Nat) : Option Nat :=
  if e < 0x180 then some (dieOf e)
  else if 0x3C1 ≤ e ∧ e ≤ 0x3C6 then some (e - 0x3C0)
  else none

/-- The mirrors of a channel at @met, 0x5100 on: there is none of a channel whose site is not populated (R4). -/
def State.mirrorGone (s : State) (i e : Nat) : Bool :=
  e == met && decide (0x5100 ≤ i) && decide (i ≤ 0x527F) && !s.chanPop (i - 0x5100)

/-- Stage 3 of R452 for one instance of an object: its encoding and population, then R444 for a failed or lost site. -/
def State.instCheck (s : State) (i e : Nat) : Nat :=
  if s.instOk e ∧ !s.mirrorGone i e then
    match siteOfInst e with
    | some n => if s.rd 0x1200 1 (siteI n) = 6 ∨ s.rd 0x1200 1 (siteI n) = 7 then aNotIdle else aDone
    | none => aDone
  else aNoInstance

/-- Stage 4 of R452: the object exists somewhere, then at the instance (R417). -/
def existCheck (i j e : Nat) : Nat :=
  if ((rowsOf (i / 256)).any fun r => r.covers i j) then
    if (findRow ⟨i, j, e⟩).isSome then aDone else aNoInstance
  else aNoObject

/-- The instances of a range, ascending. -/
def instRange (first last : Nat) : List Nat := (List.range (last + 1 - first)).map (first + ·)

/-! ## Wakes (R403) -/

/-- Wake a die that rests (R403, R404), with its cause; its DAB pair starts again while the DC link runs. On a die in RUN the event restarts the entry delay of R402. -/
def State.wakeDie (s : State) (n cause : Nat) : State :=
  if s.rd 0x1200 1 (siteI n) = 2 then
    let d := s.die n
    let s := s.setDie n { d with restSince := none, wakeAt := none, busRamp := true }
    let s := (s.wr 0x1200 1 (siteI n) 1).wr 0x1210 4 (siteI n) cause
    each [0, 1] (fun s i =>
      if s.rd 0x3100 0xA (siteI n) = 1 ∧ (s.rd 0x3050 2 dev = 4 ∨ s.rd 0x3050 2 dev = 5) ∧ !(s.die n).unplanned ∧ !((s.die n).dab i).latched then
        let d := s.die n
        let x := d.dab i
        let u := s.unit n (64 + i)
        ((s.setDie n (d.setDab i { x with started := true, atBus := true, iPair := 0, iInt := 0, dInt := 0, limitSince := none })).setUnit n (64 + i)
          (if u.running then { u with restart := u.stopAt.isSome }
           else { u with startAt := some (s.cnt n), committed := false })).wr 0x3101 (1 + i) (siteI n) 1
      else s) s
  else s.setDie n { s.die n with restSince := none }

/-- A write to an object of a die's site or channels wakes it. -/
def State.touch (s : State) (e : Nat) : State :=
  match siteOfInst e with
  | some n => s.wakeDie n 3
  | none => s

/-! ## Owners (R421) -/

/-- The DC link is off or stopped on a fault. -/
def State.powerOff (s : State) : Bool := s.rd 0x3050 2 dev == 0 || s.rd 0x3050 2 dev == 8

/-- A BLDC drive is in state 0, 8 or 9; an axis stands, is latched or in STO. -/
def State.driveClosed (s : State) (a : Nat) : Bool := [0, 8, 9].contains (s.rdN 0x341A (a + 1) dev)
def State.axisClosed (s : State) (a : Nat) : Bool := [0, 7, 8].contains (s.rdN 0x344F (a + 1) dev)
def State.allClosed (s : State) : Bool := (List.range 4).all fun a => s.driveClosed a && s.axisClosed a

/-- The owner of an RWI object is idle (R421). -/
def State.ownerIdle (s : State) (i j e : Nat) : Bool :=
  if e < 0x180 then s.idle e || s.latched e
  else if 0x3C1 ≤ e ∧ e ≤ 0x3C6 then s.dieIdle (e - 0x3C0)
  else if (0x2500 ≤ i ∧ i ≤ 0x2525) ∨ (0x3000 ≤ i ∧ i ≤ 0x33FF) then s.powerOff
  else if 0x3400 ≤ i ∧ i ≤ 0x35FF then
    if i = 0x3422 ∨ i = 0x3423 ∨ i = 0x3424 ∨ i = 0x3460 ∨ i = 0x3461 ∨ i = 0x3462 then s.allClosed
    else if i < 0x3440 then s.driveClosed (j - 1)
    else s.axisClosed (j - 1)
  else !s.anySwitching

/-! ## Requests and replies -/

/-- The operation codes of R430. -/
def opRead : Nat := 0x01
def opWrite : Nat := 0x02
def opReadRange : Nat := 0x03
def opWriteRange : Nat := 0x04
def opSegInit : Nat := 0x10
def opSegData : Nat := 0x11
def opSegEnd : Nat := 0x12
def opSubscribe : Nat := 0x20
def opNotify : Nat := 0x21
def opAbort : Nat := 0x30
def opSession : Nat := 0x40

def State.session? (s : State) (id : Nat) : Option Session := s.net.sessions.find? fun x => x.id == id

/-- Replace an open session. -/
def State.setSession (s : State) (x : Session) : State :=
  { s with net := { s.net with sessions := s.net.sessions.map fun y => if y.id = x.id then x else y } }

/-- Words 3 and 4 of an object address (R427): index, subindex and count; first and last instance. -/
def addrWord (i j n : Nat) : Nat := i % 65536 * 65536 + j % 256 * 256 + n % 256
def rangeWord (first last : Nat) : Nat := first % 1024 * 2 ^ 22 + last % 1024 * 2 ^ 12

/-- The 24 octets of a header (R427), VER 1. -/
def headerBytes (d : Sent) : List Byte :=
  let f (b : Bool) (k : Nat) : Nat := if b then 2 ^ k else 0
  leNat 4 (2 ^ 28 + f d.rsp 27 + f d.enc 26 + f d.more 25 + d.op % 256 * 2 ^ 16 + d.part % 256 * 256 + d.status % 256) ++
    leNat 4 d.session ++ leNat 4 d.seq ++ leNat 4 d.word3 ++ leNat 4 d.word4 ++ leNat 4 d.payload.length

/-- The nonce of a datagram (R449): kind 0 a request, 1 a reply, 2 a NOTIFY. -/
def gcmNonce (session seq part kind : Nat) : List Byte :=
  leNat 4 session ++ leNat 4 seq ++ leNat 1 part ++ leNat 1 kind ++ [0, 0]

/-- The four keys of a session (R449): 0 K_hm, 1 K_qm, 2 K_he, 3 K_qe. -/
def Session.key (x : Session) (k : Nat) : List Byte := sliceB x.keys (32 * k) 32

/-- The tag of a datagram without confidentiality (R449). -/
def macTag (key b : List Byte) : List Byte := kmac256 key b 16 (text "Keyway tag")

/-- A datagram of a session under its keys (R449). -/
def Session.seal (x : Session) (d : Sent) : Sent :=
  let d := { d with enc := x.confidential }
  if x.confidential then
    let r := gcmSeal (x.key 3) (gcmNonce d.session d.seq d.part (if d.rsp then 1 else if d.op = opNotify then 2 else 0))
      (headerBytes d) d.payload
    { d with body := r.1, tag := r.2 }
  else { d with body := d.payload, tag := macTag (x.key 1) (headerBytes d ++ d.payload) }

/-- Hand a datagram to the switch, with the PCP of its kind and the Keyway VLAN (R425). -/
def State.sendRaw (s : State) (d : Sent) : State :=
  let d := { d with vlan := s.net.ip.vlan, pcp := if d.op = opNotify then s.net.ip.notifyPcp else s.net.ip.replyPcp }
  { s with net := { s.net with out := s.net.out ++ [d] } }

/-- Send a datagram of an open session under its keys. -/
def State.send (s : State) (d : Sent) : State :=
  s.sendRaw (match s.session? d.session with
    | some x => x.seal d
    | none => d)

/-- The sending command starts with nothing handed over. -/
def State.clearOut (s : State) : State := { s with net := { s.net with out := [] } }

/-- A reply carries the request's OP, SESSION, SEQ and words 3 and 4 (R429). -/
def sentReply (id seq op status word3 word4 : Nat) (payload : List Byte) : Sent :=
  { op := op, rsp := true, session := id, seq := seq, part := 0, more := false, status := status, word3 := word3,
    word4 := word4, payload := payload }

/-- Keep the reply of an executed request and send it (R443): the last 64 replies are kept. -/
def State.answer (s : State) (src : Src) (op status word3 word4 : Nat) (payload : List Byte) : State :=
  match src with
  | .keyway id seq =>
    match s.session? id with
    | none => s
    | some x =>
      let r : Reply := ⟨seq, op, status, word3, word4, payload, s.lt⟩
      let s := s.setSession { x with kept := (r :: x.kept).take 64, highest := max x.highest seq, lastLt := s.lt }
      s.send (sentReply id seq op status word3 word4 payload)
  | .user | .service => { s with net := { s.net with local' := some (status, payload) } }

/-- What a request leaves behind: the state after it, and its refusal or its payload. -/
abbrev Outcome' := State × Except Refuse (List Byte)

/-- A refusal that changes nothing, or what the request did. -/
def Ans.outcome (a : Ans) (s : State) : Outcome' :=
  match a with
  | .ok (s', payload) => (s', .ok payload)
  | .error r => (s, .error r)

/-- The SEQ of a request has been executed (R443). -/
def State.executed (s : State) (src : Src) : State :=
  match src with
  | .keyway id seq =>
    match s.session? id with
    | some x => s.setSession { x with highest := max x.highest seq }
    | none => s
  | .user | .service => s

/-- Carry out a request and answer it; FIRST and LAST of a refusal both hold the instance it reports (R429). The answer
of a request that starts a store waits for the store's end (R422). -/
def State.execute (s : State) (src : Src) (op word3 word4 : Nat) (k : State → Outcome') : State :=
  match k s with
  | (s', .ok payload) =>
    if s'.net.storing && !s.net.storing then
      { s' with net := { s'.net with storeBy := some src, storeAck := (op, word3, word4) } }.executed src
    else s'.answer src op aDone word3 word4 payload
  | (s', .error r) => s'.answer src op r.code word3 ((r.inst.map fun e => rangeWord e e).getD word4) []

/-- The kept reply of a SEQ (R443): one of the last 64, for 2,000 ms. -/
def State.keptReply (s : State) (x : Session) (seq : Nat) : Option Reply :=
  x.kept.find? fun r => r.seq == seq && decide (s.lt ≤ r.sentLt + 2000000000)

/-- A SEQ is stale (R443): 0, more than 63 below the highest, or none left. -/
def Session.stale (x : Session) (seq : Nat) : Bool := seq == 0 || decide (seq + 64 ≤ x.highest) || x.highest == 0xFFFFFFFF

/-- A request reaches the dictionary: the firmware runs (R395), the device is not in SLEEP (R407), and for a session the
network has its supply VIO_H1 (R531). -/
def State.reached (s : State) (src : Src) : Bool :=
  s.fw && s.rd 0x1200 1 dev != 4 &&
    (match src with
     | .keyway _ _ => !bit (s.rdN 0x1220 4 dev) 1
     | _ => true)

/-- The request that a running store still has to answer (R422, R443). -/
def State.storesFor (s : State) (src : Src) : Bool :=
  match src with
  | .keyway _ _ => s.net.storing && s.net.storeBy == some src
  | .user | .service => false

/-- A request is executed: it reaches the dictionary, its sender is served, and its SEQ is neither stale nor a
duplicate. -/
def State.serves (s : State) (src : Src) : Bool :=
  s.reached src && !s.storesFor src && (match src with
    | .keyway id seq =>
      match s.session? id with
      | none => false
      | some x => (s.keptReply x seq).isNone && !x.stale seq
    | .user => s.rd 0x7050 3 dev == 1
    | .service => s.sec.debug)

/-- A valid datagram of a session arrives: its idle time starts again (R447). -/
def State.hear (s : State) (src : Src) : State :=
  match src with
  | .keyway id _ =>
    match s.session? id with
    | some x => s.setSession { x with lastLt := s.lt }
    | none => s
  | .user | .service => s

/-- A request that is not executed (R428, R443): a duplicate of one that still executes is discarded, one with a kept
reply gets it again, any other datagram is discarded and counted. -/
def State.unserved (s : State) (src : Src) : State :=
  match src with
  | .keyway id seq =>
    if s.storesFor src then s
    else
      match s.session? id with
      | none => s.inc 0x1310 1 dev
      | some x =>
        match s.keptReply x seq with
        | some r => (s.inc 0x1310 3 dev).send (sentReply id seq r.op r.status r.word3 r.word4 r.payload)
        | none => s.inc 0x1310 1 dev
  | .user | .service => s

/-- Serve a request (R442, R443, R486, R490). Nothing is served before the firmware runs (R395). A session discards a
stale SEQ, answers a duplicate from its kept reply, and executes any other. The user partition is served while it runs,
the service port while debug is unlocked. -/
def State.serveWith (s : State) (src : Src) (op word3 word4 : Nat) (k : State → Outcome') : State :=
  let s := s.clearOut
  if s.reached src then
    if s.serves src then (s.hear src).execute src op word3 word4 k else (s.hear src).unserved src
  else s

/-- Serve a request whose refusal changes nothing. -/
def State.serve (s : State) (src : Src) (op word3 word4 : Nat) (k : State → Ans) : State :=
  s.serveWith src op word3 word4 fun s => (k s).outcome s

/-- The user partition's own refusals (R486): writes to 0x1300 to 0x1304, to 0x70xx but for 0x7070.01, and the safety
unlock and password. -/
def partitionDenied (src : Src) (i j : Nat) : Bool :=
  match src with
  | .user => (decide (0x1300 ≤ i) && decide (i ≤ 0x1304)) ||
      (decide (0x7000 ≤ i) && decide (i ≤ 0x70FF) && !(i == 0x7070 && j == 1)) ||
      (i == 0x40F0 && (j == 1 || j == 2))
  | _ => false

/-- Two requests come from one session, or both from the service port (R367). -/
def sameSession : Src → Src → Bool
  | .keyway i _, .keyway j _ => i == j
  | .service, .service => true
  | _, _ => false

/-- RWP writing is unlocked for the sender (R367). -/
def State.unlocked (s : State) (src : Src) : Bool := s.net.unlockBy.any (sameSession src)

/-- The password check of an RWP write (R366, R367). -/
def State.rwpAccess (s : State) (src : Src) : Nat :=
  if s.lockbox.hash.isNone ∨ !s.unlocked src then aPassword else aDone

/-- Inputs whose format and windows belong to the hub (R273, R305). -/
def fixedInput (k : Nat) : Bool := if k < 32 then decide (k % 16 ≤ 10) else decide (k % 16 ≤ 6)

/-- A format, window or count object of such an input (R274, R305). -/
def hubOwned (i j : Nat) : Bool := (i == 0x3030 || (decide (0x3032 ≤ i) && decide (i ≤ 0x3036))) && fixedInput (j - 1)

/-- Stage 5 of R452 for a write: access, with the password of an RWP object. -/
def State.accessCheck (s : State) (src : Src) (i j e : Nat) : Nat :=
  if partitionDenied src i j then aDenied
  else
    match findRow ⟨i, j, e⟩ with
    | none => aDone
    | some r =>
      match r.acc with
      | .ro | .mro => aReadOnly
      | .rwp => s.rwpAccess src
      | _ => if hubOwned i j then aReadOnly else aDone

/-- Stage 7 of R452 for a numeric value. -/
def rangeCheck (i j e : Nat) (v : Int) : Nat :=
  match findRow ⟨i, j, e⟩ with
  | none => aDone
  | some r => if r.accepts v then aDone else aRange

/-- The stage of R452 at which a check answers a code. -/
def stageOf (code : Nat) : Nat :=
  if code = aUnknownOp then 1
  else if code = aLength then 2
  else if code = aNoInstance then 3
  else if code = aNoObject then 4
  else if code = aReadOnly ∨ code = aWriteOnly ∨ code = aDenied ∨ code = aAuth ∨ code = aPassword ∨ code = aLocked then 5
  else if code = aType ∨ code = aTooLarge then 6
  else if code = aRange then 7
  else if code = aNotIdle then 8
  else if code = aCrc ∨ code = aMismatch ∨ code = aDescriptor ∨ code = aRecipe ∨ code = aTransfer then 9
  else if code = aBudget ∨ code = aNoPlan then 10
  else 11

/-- A check of a request at an instance, with its stage when its code does not tell it (R444). -/
structure Check' where
  stage : Option Nat
  code : Nat → Nat

/-- The stage at which a check fails at an instance. -/
def Check'.failsAt (c : Check') (e : Nat) : Option Nat := if c.code e = 0 then none else some (c.stage.getD (stageOf (c.code e)))

/-- The stages of R452 in order; at the end of a transfer content stands before state (R436). -/
def stages (transfer : Bool) : List Nat := if transfer then [1, 2, 3, 4, 5, 6, 7, 9, 8, 10, 11] else [1, 2, 3, 4, 5, 6, 7, 8, 9, 10, 11]

/-- The refusal of a range (R452): the earliest stage at which any instance fails, and the lowest instance failing there. -/
def firstBad (l : List Nat) (cs : List Check') (transfer : Bool := false) : Option Refuse :=
  (stages transfer).findSome? fun st =>
    l.findSome? fun e => (cs.find? fun c => c.failsAt e == some st).map fun c => ⟨c.code e, some e⟩

/-- The checks of a write of value `v` to object `i`.`j` at every instance of a list, in the order of R452: the
instances, existence, access and range, with the object's own state and content checks. -/
def State.writeChecks (s : State) (src : Src) (i j : Nat) (es : List Nat) (v : Int)
    (own : State → Nat → Nat) : Option Refuse :=
  firstBad es [⟨some 3, s.instCheck i⟩, ⟨some 4, existCheck i j⟩, ⟨none, s.accessCheck src i j⟩,
    ⟨none, fun e => rangeCheck i j e v⟩, ⟨none, own s⟩]

/-- A write of one object to one instance or to a range, for all of them or for none (R433). -/
def State.writeObj (s : State) (src : Src) (i j : Nat) (es : List Nat) (v : Int)
    (own : State → Nat → Nat) (eff : State → Nat → State) : State :=
  let op := if es.length = 1 then opWrite else opWriteRange
  s.serve src op (addrWord i j 1) (rangeWord (es.headD 0) (es.getLastD 0)) fun s =>
    match s.writeChecks src i j es v own with
    | some r => .error r
    | none => done (each es (fun s e => eff (s.touch e) e) s)

/-- Stage 2 of R452 for a write of octets: the length is one the object takes (R441). -/
def blobLength (i j e : Nat) (n : Nat) : Nat :=
  match findRow ⟨i, j, e⟩ with
  | none => aDone
  | some r => if r.lo ≤ (n : Int) ∧ (n : Int) ≤ r.hi then aDone else aLength

/-- The checks of a write of octets to an STR or BLOB object at a list of instances, in the order of R452: length,
instances, existence, access, then the object's own checks. -/
def State.blobChecks (s : State) (src : Src) (i j : Nat) (es : List Nat) (b : List Byte)
    (own : State → Nat → Nat) : Option Refuse :=
  firstBad es [⟨none, fun e => blobLength i j e b.length⟩, ⟨some 3, s.instCheck i⟩, ⟨some 4, existCheck i j⟩,
    ⟨none, s.accessCheck src i j⟩, ⟨none, own s⟩]

/-- A write of octets, for all instances or for none. -/
def State.writeBlob (s : State) (src : Src) (i j : Nat) (es : List Nat) (b : List Byte)
    (own : State → Nat → Nat) (eff : State → Nat → State) : State :=
  let op := if es.length = 1 then opWrite else opWriteRange
  s.serve src op (addrWord i j 1) (rangeWord (es.headD 0) (es.getLastD 0)) fun s =>
    match s.blobChecks src i j es b own with
    | some r => .error r
    | none => done (each es (fun s e => eff (s.touch e) e) s)

/-- Admit a state: the code "not idle" unless it holds. -/
def idleOr (b : Bool) : Nat := if b then aDone else aNotIdle

/-- The quad's ADC unit of a channel, on its die. -/
def quadOf (c : Nat) : Nat := localOf c / 4

/-! ## Conversions of the control ADC units (R250, R546) -/

/-- A 16-bit code across a range, in µV; a mean of codes likewise. -/
def codeUv (lo hi code : Rat) : Rat := lo + code * (hi - lo) / 65535

/-- An offset in µV and a gain in 10^-6 applied (R250); their order is left open (log 10). -/
def trimUv (o g x : Rat) : Rat := if Config.offsetFirst then (x + o) * g / 1000000 else x * g / 1000000 + o

/-- The range of a path of a control ADC unit in µV: 0 cell voltage, 1 shunt voltage, 2 temperature, 3 bus sense, 4 DABIS. -/
def pathLo (kind : Nat) : Rat := if kind = 0 then -5500000 else if kind = 1 then -150000 else 0
def pathHi (kind : Nat) : Rat := if kind = 0 then 6000000 else if kind = 1 then 150000 else if kind = 2 then 1500000 else if kind = 3 then 20000000 else 3000000

/-- The calibrated input of a path, by its kind and its channel (for the bus sense any channel of the unit), in µV. -/
def State.pathUv (s : State) (kind c : Nat) (code : Rat) : Rat :=
  let x := codeUv (pathLo kind) (pathHi kind) code
  let t (o g : Nat) (d : Rat) := trimUv ((s.rd 0x2852 o c : Rat) / d) (s.rd 0x2852 g c) x
  match kind with
  | 0 => t 1 2 1
  | 1 => t 3 4 1000
  | 2 => t 5 6 1
  | 3 => trimUv (s.rd 0x2851 (quadOf c + 1) (siteI (dieOf c))) (s.rd 0x2855 (quadOf c + 1) (siteI (dieOf c))) x
  | _ => x

end Sys2Proof.Machine
end

