-- ==== Sys2Proof/Machine/PowerStage.lean ====
section
/-! DEFINITION. The channel power stage (chapter 2): driver supply, bootstrap, edge words at the slice, the short
comparators, the segment-bus fault; and the fault matrix of a channel die (R101 to R103). -/

namespace Sys2Proof.Machine

/-! ## The fault matrix of a channel die (R101 to R103) -/

/-- A channel's gang sums to this control current, in 10 µA (R102). -/
def State.gangCurrent (s : State) (c : Nat) : Int := ((s.gang c).map fun m => (s.chan m).law.iLast).sum

/-- Channels of G1 (discharging) and G2 (charging) at this instant (R102): a gang as a whole. -/
def State.inG1 (s : State) (c : Nat) : Bool := s.switching (s.master c) && decide (s.gangCurrent c < -50000)
def State.inG2 (s : State) (c : Nat) : Bool := s.switching (s.master c) && decide (50000 < s.gangCurrent c)

/-- The channels of an output group (R101). -/
def State.groupChans (s : State) (n g : Nat) : List Nat :=
  match g with
  | 0 => siteChans n
  | 1 => (siteChans n).filter s.inG1
  | 2 => (siteChans n).filter s.inG2
  | 5 | 6 | 7 => (siteChans n).filter fun c => bit (s.rdN 0x2804 (g - 4) (siteI n)) (localOf c)
  | _ => []

/-- The channels and the DAB stages that a group mask reaches. -/
def State.maskChans (s : State) (n mask : Nat) : List Nat :=
  (siteChans n).filter fun c => (List.range 8).any fun g => bit mask g && (s.groupChans n g).contains c
def maskDabs (mask : Nat) : List Nat := (if bit mask 3 then [0] else []) ++ (if bit mask 4 then [1] else [])

/-- A source acts on every group in its mask (R103): cause 5, argument the source. -/
def State.actSource (s : State) (n src corr : Nat) : State :=
  let mask := s.rdN 0x2803 (src + 1) (siteI n)
  let cs := s.maskChans n mask
  let s := s.latchChans cs 5 src corr
  each (maskDabs mask) (fun s i => s.latchDab n i 5 src corr) s

/-- A source asserts on a die. -/
def State.assertSource (s : State) (n src corr : Nat) : State :=
  (s.wr 0x2803 9 (siteI n) (setBit (s.rdN 0x2803 9 (siteI n)) src)).actSource n src corr

/-- A source deasserts on a die. -/
def State.deassertSource (s : State) (n src : Nat) : State :=
  s.wr 0x2803 9 (siteI n) (clearBit (s.rdN 0x2803 9 (siteI n)) src)

/-- A source that stays asserted acts on every group in its mask (R101): on channels that join G1 or G2 later (R103),
on members that a write of a mask brings in, and on a stage that starts again. -/
def State.standingSources (s : State) (n : Nat) : State :=
  each ((List.range 8).filter fun k => bit (s.rdN 0x2803 9 (siteI n)) k) (fun s k =>
    let mask := s.rdN 0x2803 (k + 1) (siteI n)
    let late := (s.maskChans n mask).filter fun c => !s.latched c
    let stages := (maskDabs mask).filter fun i => !((s.die n).dab i).latched
    if late.isEmpty ∧ stages.isEmpty then s
    else
      let corr := s.corrId n
      each stages (fun s i => s.latchDab n i 5 k corr) ((s.openCorr n).latchChans late 5 k corr)) s

/-! ## Driver supply and bootstrap (R45 to R48) -/

/-- A slice holds both gates low (R45, R66): drivers not released, lockout, latched, or under a contact check. -/
def State.heldLow (s : State) (c : Nat) : Bool :=
  s.rd 0x2800 4 (siteI (dieOf c)) == 0 || s.rd 0x2800 3 (siteI (dieOf c)) == 1 || s.latched c || (s.chan c).check.isSome

/-- Both gates low on every slice of a die, the units still running. -/
def State.slicesLow (s : State) (n : Nat) : State :=
  each (siteChans n) (fun s c => s.sliceOff c) s

/-- The lockout of a site changes: a supply event that running firmware sees (R531). -/
def State.vdrvNote (s : State) (n : Nat) (under : Bool) : State :=
  if s.fw ∧ s.rd 0x2800 3 (siteI n) ≠ (if under then 1 else 0) then s.supplyNote (10 + n) under else s

/-- VDRV_UNDERVOLTAGE (R46, R531): below 7.2 V the lockout engages, every slice holds both gates low, and source 2 asserts. -/
def execVdrvUndervoltage (n mv : Nat) (s : State) : Res := .next <|
  if s.sitePop n ∧ mv < 7200 then
    let s := ((s.vdrvNote n true).wr 0x2800 2 (siteI n) mv).wr 0x2800 3 (siteI n) 1
    let s := (s.slicesLow n).wakeDie n 5
    (s.openCorr n).assertSource n 2 (s.corrId n)
  else s

/-- VDRV_RELEASE (R46): above 7.6 V the lockout releases and source 2 clears. -/
def execVdrvRelease (n mv : Nat) (s : State) : Res := .next <|
  if s.sitePop n ∧ 7600 < mv then
    (((s.vdrvNote n false).wr 0x2800 2 (siteI n) mv).wr 0x2800 3 (siteI n) 0).deassertSource n 2
  else s

/-- BOOTSTRAP_HOLD (R47): below 5.6 V the high side is held low and on-commands are carried out as "both off". -/
def execBootstrapHold (c mv : Nat) (s : State) : Res := .next <|
  if s.chanPop c ∧ mv < 5600 then
    let ch := s.chan c
    let x := ch.slice
    let x := if x.leg = .high then { x with hg := false, leg := .off, turnOn := none } else { x with hg := false }
    (s.setChan c { ch with slice := x }).wr 0x2812 2 c 1
  else s

/-- BOOTSTRAP_RELEASE (R47): above 6.0 V the hold ends; both gates stay off until the next word that changes the leg. -/
def execBootstrapRelease (c mv : Nat) (s : State) : Res := .next <|
  if s.chanPop c ∧ 6000 < mv then s.wr 0x2812 2 c 0 else s

/-- The dead time and the minimum pulse of a die, in counts (R51, R86). -/
def State.deadTime (s : State) (n : Nat) : Nat := s.rdN 0x2800 1 (siteI n)
def State.minPulse (s : State) (n : Nat) : Nat := s.rdN 0x2800 5 (siteI n)

/-! ## The slice's legs (R49) -/

/-- The soft blanking time in counts (R56): ns rounded up to a multiple of 3.125 ns. -/
def State.blankCounts (s : State) (c : Nat) : Nat := (s.rdN 0x2810 3 c * 8 + 24) / 25

/-- A gate turns on at a time: the blanking window begins (R56). -/
def Slice.gateOn (x : Slice) (hi : Bool) (t blank : Nat) : Slice :=
  if hi then { x with hg := true, turnOn := none, blankEnd := t + 32 * blank }
  else { x with lg := true, turnOn := none, blankEnd := t + 32 * blank, lowSince := some t }

/-- A leg state is taken at a time (R49): the conducting switch turns off at once, the other turns on after the dead
time when the conducting one was on before. -/
def Slice.take (x : Slice) (leg : Leg) (t dt m blank : Nat) : Slice :=
  if leg = x.leg then x
  else
    match leg with
    | .off => { (x.lowOff t m) with hg := false, leg := .off, turnOn := none }
    | .low =>
      if x.hg then { x with hg := false, leg := .low, turnOn := some (false, t + 32 * dt) }
      else { (x.gateOn false t blank) with leg := .low }
    | .high =>
      if x.lg then { (x.lowOff t m) with leg := .high, turnOn := some (true, t + 32 * dt) }
      else { (x.gateOn true t blank) with leg := .high }

/-- A slice takes a leg state at a time; held low it stays off, and a bootstrap hold makes high on "both off" (R45, R47). -/
def State.takeLeg (s : State) (c : Nat) (leg : Leg) (t : Nat) : State :=
  let n := dieOf c
  let ch := s.chan c
  let leg := if s.heldLow c then .off else if leg = .high ∧ s.rd 0x2812 2 c = 1 then .off else leg
  s.setChan c { ch with slice := ch.slice.take leg t (s.deadTime n) (s.minPulse n) (s.blankCounts c) }

/-- The low side has been on for the minimum pulse in the present period, by a time (R48). -/
def Slice.lowLong (x : Slice) (t m : Nat) : Bool :=
  x.lowEnough || (match x.lowSince with | some a => decide (a + 32 * m ≤ t) | none => false)

/-! ## Latching for an interlock or a short (R53, R54, R59 to R63) -/

/-- The CRC-5 of an edge word (R94). -/
def edgeCrc (w : Word) : BitVec 5 := crcBits 5 0b00101#5 0b11111#5 ((List.range 27).map fun i => w.getMsbD i)

/-- The word passes its check bits (R94). -/
def edgeOk (w : Word) : Bool := edgeCrc w == w.setWidth 5 && !w.getLsbD 23

/-- The leg code of an edge word, and its fields. -/
def edgeLeg (w : Word) : Nat := (w >>> 30).toNat
def edgeChan (w : Word) : Nat := (w >>> 24).toNat % 64
def edgePb (w : Word) : Bool := w.getLsbD 22
def edgeTap (w : Word) : Nat := (w >>> 17).toNat % 32
def edgeTimeField (w : Word) : Nat := (w >>> 5).toNat % 4096

/-- The edge word of a leg state at a time in fine steps (R94). -/
def edgeWordOf (k : Nat) (leg : Leg) (t : Nat) (pb : Bool) : Word :=
  let code := match leg with | .off => 0 | .low => 1 | .high => 2
  let head : BitVec 27 := BitVec.ofNat 27
    (code * 2 ^ 25 + k % 64 * 2 ^ 19 + (if pb then 2 ^ 17 else 0) + t % 32 * 2 ^ 12 + t / 32 % 4096)
  head ++ crcBits 5 0b00101#5 0b11111#5 ((List.range 27).map fun i => head.getMsbD i)

/-- The instant that the TIME and TAP of a word name: the one nearest to now (R93, R94). -/
def edgeInstant (now : Nat) (w : Word) : Nat :=
  let d := (edgeTimeField w + 4096 - now % 4096) % 4096
  let t := if d < 2048 then now + d else now - (4096 - d)
  32 * t + edgeTap w

/-- A slice refuses a word (R53): both gates off at once, blocked until a word with PB = 1, flag, count, cause and LT;
the third refusal in less than 1 ms latches the channel with the cause "interlock" (R54). -/
def State.refuseWord (s : State) (c cause : Nat) : State :=
  let s := s.sliceOff c
  let ch := s.chan c
  let now := s.cnt (dieOf c)
  let hist := (now :: ch.slice.refusals).take 3
  let s := s.setChan c { ch with slice := { ch.slice with blocked := true, refusals := hist } }
  let s := (((s.wr 0x2811 1 c 1).inc 0x2811 2 c).wr 0x2811 3 c cause).wr 0x2811 4 c s.lt
  let corr := s.corrId (dieOf c)
  let s := (s.openCorr (dieOf c)).raise (dieOf c) c 0x2003 (leNat 1 cause) corr
  if hist.length = 3 ∧ now < hist.getLastD 0 + 320000 then s.latchChans [c] 1 0 corr else s

/-- The leg state of a code. -/
def legOf (code : Nat) : Leg := if code = 1 then .low else if code = 2 then .high else .off

/-- Put an edge word on the lane of its quad, where words leave in order of edge time (R93). -/
def laneInsert (t : Nat) (w : Word) : List (Nat × Word) → List (Nat × Word)
  | [] => [(t, w)]
  | (a, v) :: l => if a ≤ t then (a, v) :: laneInsert t w l else (t, w) :: (a, v) :: l

/-- A word comes off the lane of a slice's quad (R93): the first one, or what a fault on the lane made of it. -/
def State.laneTake (s : State) (c : Nat) (w : Word) : State :=
  let a := s.adc (dieOf c) (localOf c / 4)
  match a.lane with
  | (_, v) :: l => if v = w ∨ !edgeOk w then s.setAdc (dieOf c) (localOf c / 4) { a with lane := l } else s
  | [] => s

/-- EDGE_WORD (R53, R94, R95): the slice checks the word whatever produced it; a blocked slice and a channel under a
contact check ignore it (R66). -/
def State.receiveWord (s : State) (c : Nat) (w : Word) : State :=
  let s := s.laneTake c w
  let ch := s.chan c
  if ch.check.isSome then s
  else if ch.slice.blocked ∧ ¬ (edgeOk w ∧ edgePb w) then s
  else if !edgeOk w then s.refuseWord c 2
  else if edgeChan w ≠ localOf c then s
  else if edgeLeg w = 3 then s.refuseWord c 1
  else
    s.setChan c { ch with slice := { ch.slice with
      blocked := false,
      words := ch.slice.words ++ [(edgeInstant (s.cnt (dieOf c)) w, legOf (edgeLeg w), edgePb w)] } }

/-- A word that waits on the lane behind another leaves after it (R93). -/
def State.outOfTurn (s : State) (c : Nat) (w : Word) : Bool :=
  ((s.adc (dieOf c) (localOf c / 4)).lane.drop 1).any fun x => x.2 == w

/-- The word is the first of its lane, or not on it. -/
def State.laneHas (s : State) (c : Nat) (w : Word) : Bool :=
  match (s.adc (dieOf c) (localOf c / 4)).lane with
  | (_, v) :: _ => v == w
  | [] => false

def execEdgeWord (c : Nat) (w : Word) (s : State) : Res := .next <|
  if s.chanPop c ∧ (s.laneHas c w ∨ !s.outOfTurn c w) then s.receiveWord c w else s

/-- EDGE_TIME (R49, R93): the edge time of the next accepted word comes and its leg state is taken. While the die is
halted the slices keep their levels (R105). -/
def execEdgeTime (c : Nat) (s : State) : Res := .next <|
  let ch := s.chan c
  match ch.slice.words with
  | (t, leg, _) :: ws =>
    if t ≤ s.fine (dieOf c) ∧ !(s.die (dieOf c)).halted then (s.setChan c { ch with slice := { ch.slice with words := ws } }).takeLeg c leg t else s
  | [] => s

/-- DEAD_TIME_TURN_ON (R49): the dead time is over and the waiting switch turns on. -/
def execDeadTimeTurnOn (c : Nat) (s : State) : Res := .next <|
  let ch := s.chan c
  match ch.slice.turnOn with
  | some (hi, t) =>
    if t ≤ s.fine (dieOf c) ∧ !(s.die (dieOf c)).halted then
      if s.heldLow c ∨ (hi ∧ s.rd 0x2812 2 c = 1) then
        s.setChan c { ch with slice := { ch.slice with turnOn := none, leg := .off } }
      else s.setChan c { ch with slice := ch.slice.gateOn hi t (s.blankCounts c) }
    else s
  | none => s

/-- Two channels' gangs are adjacent (R61, R62). -/
def State.gangsAdjacent (s : State) (a b : Nat) : Bool :=
  ((s.gang a).getLastD a) + 1 == (s.gang b).headD b || ((s.gang b).getLastD b) + 1 == (s.gang a).headD a

/-- The segment-bus pattern of the trips in a window (R61, R62): [0] adjacent, [1] four or more; and the gangs counted. -/
def State.tripPattern (s : State) (cs : List Nat) : Nat × Nat :=
  let ms := (cs.map s.master).eraseDups
  let adj := ms.any fun a => ms.any fun b => s.gangsAdjacent a b
  ((if adj then 1 else 0) + (if 4 ≤ ms.length then 2 else 0), ms.length)

/-- Declare the segment-bus fault (R63): every channel latched with cause 4, both DAB stages stopped, the objects of
0x2801 set, entry 0x2004, and latch frame 0x20 to the hub. -/
def State.segmentBusFault (s : State) (n pattern first count corr : Nat) : State :=
  let s := (((s.wr 0x2801 1 (siteI n) 1).wr 0x2801 2 (siteI n) pattern).wr 0x2801 3 (siteI n) first).wr 0x2801 4 (siteI n) count
  let s := ((s.inc 0x2801 5 (siteI n)).wr 0x6012 1 (siteI n) 1).setDie n { s.die n with segCorr := corr }
  let s := each (siteChans n) (fun s c => s.latchOne c 4 0 corr) s
  let s := each [0, 1] (fun s i => s.latchDab n i 4 0 corr) s
  let s := s.raise n noChan 0x2004 (leNat 1 pattern ++ leNat 1 first ++ leNat 1 count) corr
  s.raiseFrame n .toHub 0x20 127 corr

/-- Look for the segment-bus pattern at a trip of a channel (R62): the trips of its last carrier period. Trips are kept
for the longest period that a channel may have (R76). -/
def State.checkSegmentBus (s : State) (c corr : Nat) : State :=
  let n := dieOf c
  let d := s.die n
  let t := s.fine n
  let span := 32 * (s.unit n (localOf c)).active.period
  let kept := (d.trips ++ [(localOf c, t)]).filter fun x => decide (t ≤ x.2 + 32 * 32000)
  let recent := kept.filter fun x => decide (t ≤ x.2 + span)
  let s := s.setDie n { d with trips := kept }
  let (pattern, count) := s.tripPattern (recent.map fun x => chanOf n x.1)
  if pattern ≠ 0 ∧ s.rd 0x2801 1 (siteI n) = 0 then
    s.segmentBusFault n pattern ((recent.head?.map (·.1)).getD 255) count corr
  else s

/-- A comparator of a slice trips (R59, R60): the bits of 0x2810.04 are set; the gates turn off and the channel and its
gang latch, once per overcurrent, with the trip counted; then the segment-bus rule is looked at. While the latch stands,
a comparator bit says that its action has been taken, whatever latched the channel first. -/
def State.trip (s : State) (c bits : Nat) : State :=
  let taken := s.latched c && (bit (s.rdN 0x2810 4 c) 0 || bit (s.rdN 0x2810 4 c) 1)
  let s := s.wr 0x2810 4 c ((s.rdN 0x2810 4 c ||| bits : Nat) : Int)
  if taken then s
  else
    let n := dieOf c
    let corr := s.corrId n
    let s := (s.openCorr n).inc 0x2810 5 c
    let s := s.latchChans [c] 2 0 corr
    let s := s.wakeDie n 5
    s.checkSegmentBus c corr

/-- Remember the shunt voltage a comparator saw (R516). -/
def State.sawShunt (s : State) (c : Nat) (uv : Int) : State := let ch := s.chan c; s.setChan c { ch with shunt := uv }

/-- The slice's soft comparator is blanked (R56). -/
def State.blanked (s : State) (c : Nat) : Bool := decide (s.fine (dieOf c) < (s.chan c).slice.blankEnd)

/-- SOFT_COMPARATOR_TRIP (R56): the magnitude exceeds the soft threshold outside the blanking window. -/
def execSoftComparatorTrip (c : Nat) (uv : Int) (s : State) : Res := .next <|
  if s.chanPop c then
    let s := s.sawShunt c uv
    if s.rd 0x2810 1 c < uv.natAbs ∧ !s.blanked c then s.trip c 1 else s
  else s

/-- HARD_COMPARATOR_TRIP (R57, R60): the magnitude exceeds the hard threshold; never blanked. -/
def execHardComparatorTrip (c : Nat) (uv : Int) (s : State) : Res := .next <|
  if s.chanPop c then
    let s := s.sawShunt c uv
    if s.rd 0x2810 2 c < uv.natAbs then s.trip c (if s.blanked c then 6 else 2) else s
  else s

/-- BLANKING_END (R56): the window ends; a magnitude above the soft threshold trips there. -/
def execBlankingEnd (c : Nat) (uv : Int) (s : State) : Res := .next <|
  if s.chanPop c ∧ (s.chan c).slice.blankEnd ≠ 0 ∧ !s.blanked c then
    let s := s.sawShunt c uv
    let ch := s.chan c
    let s := s.setChan c { ch with slice := { ch.slice with blankEnd := 0 } }
    if s.rd 0x2810 1 c < uv.natAbs then s.trip c 1 else s
  else s

/-! ## Sources 0, 1 and 3 of a die (R295) -/

/-- A bus-sense code of unit 0 or 8 in mV. -/
def State.busMv (s : State) (n u : Nat) (code : Int) : Rat := s.pathUv 3 (chanOf n (4 * u)) code / 1000

/-- The crossing of R295 holds for a measurement: a bus-sense code of a unit, or the die temperature in 0.1 °C. -/
def State.sourceBeyond (s : State) (n src u : Nat) (m : Int) : Bool :=
  match src with
  | 0 => decide ((s.rd 0x3100 7 (siteI n) : Rat) < s.busMv n u m)
  | 1 => decide (s.busMv n u m < s.rd 0x3100 8 (siteI n)) &&
      [1, 2].any fun i => s.rd 0x3101 i (siteI n) == 2 || s.rd 0x3101 i (siteI n) == 3
  | 3 => decide (10 * s.rd 0x3100 9 (siteI n) < m)
  | _ => false

/-- The measurement has cleared the source's threshold by its hysteresis (R295). -/
def State.sourceInside (s : State) (n src u : Nat) (m : Int) : Bool :=
  match src with
  | 0 => decide (s.busMv n u m < s.rd 0x3100 7 (siteI n) - 500)
  | 1 => decide ((s.rd 0x3100 8 (siteI n) : Rat) + 500 < s.busMv n u m)
  | 3 => decide (m ≤ 10 * s.rd 0x3100 9 (siteI n) - 100)
  | _ => false

/-- Keep a die's latest bus voltage or temperature. -/
def State.sawDie (s : State) (n src u : Nat) (m : Int) : State :=
  if src = 3 then s.wr 0x3106 0 (siteI n) m else s.wr 0x3105 0 (siteI n) (wholeOf (s.busMv n u m))

/-- FAULT_SOURCE_ASSERT (R101 to R103, R295): two conversions in a row of one bus-sense input lie beyond the threshold, or the
die temperature does. -/
def execFaultSourceAssert (n src u : Nat) (m1 m2 : Int) (s : State) : Res := .next <|
  if s.sitePop n then
    let s := s.sawDie n src u m2
    if s.sourceBeyond n src u m1 ∧ s.sourceBeyond n src u m2 then
      let s := s.wakeDie n 5
      (s.openCorr n).assertSource n src (s.corrId n)
    else s
  else s

/-- FAULT_SOURCE_DEASSERT (R101, R295): both bus-sense inputs, those of units 0 and 8, lie inside, or the temperature does. -/
def execFaultSourceDeassert (n src : Nat) (a b : Int) (s : State) : Res := .next <|
  if s.sitePop n then
    let s := s.sawDie n src 0 a
    if s.sourceInside n src 0 a ∧ (src = 3 ∨ s.sourceInside n src 8 b) then s.deassertSource n src else s
  else s

end Sys2Proof.Machine
end

