-- ==== Sys2Proof/Machine/Pulse.lean ====
section
/-! DEFINITION. Pulse generation (chapter 3): period boundaries, commits, edges, start and stop, debug halt; the
slew of the grid shift (R386 to R388). Unit numbers: 0 to 63 channels, 64 and 65 DAB stages; on the hub AFE 0 to 5,
chopper 6, ADIS 7, BLDC 8 to 19, stepper 20 to 35 (R104). -/

namespace Sys2Proof.Machine

/-- The phase offset Φ of a unit, in counts (R289, R393). -/
def State.phi (s : State) (die u : Nat) : Nat :=
  if die = 0 then
    if u < 6 then s.rdN 0x1108 1 dev
    else if u < 8 then 0
    else if u < 20 then s.rdN 0x1108 ((u - 8) / 3 + 2) dev
    else s.rdN 0x1108 ((u - 20) / 4 + 6) dev
  else if u < 64 then s.rdN 0x2834 0 (chanOf die u)
  else s.rdN 0x3108 0 (siteI die) + (if u = 65 then (s.unit die 65).active.period / 4 else 0)

/-- The first boundary of a grid with period `p` and phase `ph` at or after a count (R78). -/
def gridAt (p ph b : Nat) : Nat := b + (ph % p + p - b % p) % p

/-- The minimum pulse of a unit, in counts (R86, R99, R283, R306). -/
def State.unitMin (s : State) (die u : Nat) : Nat :=
  if die = 0 then
    if u < 6 then s.rdN 0x3040 3 dev else if u < 8 then 0
    else if u < 20 then s.rdN 0x3424 0 dev else s.rdN 0x3462 0 dev
  else if u < 64 then s.minPulse die else s.rdN 0x3100 3 (siteI die)

/-- A unit is a channel's. -/
def isChan (die u : Nat) : Bool := die != 0 && decide (u < 64)

/-- The pair is swapped (R96, R98). Only channels have an override object. -/
def State.swapped (s : State) (die u : Nat) : Bool := isChan die u && bit (s.rdN 0x2830 3 (chanOf die u)) 0

/-- The leg state of an output that is on or off (R75, R96). -/
def legFor (on swap : Bool) : Leg := if on != swap then .high else .low

/-- A hub single output: chopper or ADIS (R100). -/
def isSingle (die u : Nat) : Bool := die == 0 && (u == 6 || u == 7)

/-- The dead time of a unit's pairs in counts (R100, R289, R306): none for channels, whose slices insert it, and singles. -/
def State.unitDead (s : State) (die u : Nat) : Nat :=
  if die = 0 then
    if u < 6 then s.rdN 0x3040 2 dev else if u < 8 then 0
    else if u < 20 then s.rdN 0x3423 0 dev else s.rdN 0x3461 0 dev
  else if u < 64 then 0 else s.rdN 0x3100 2 (siteI die)

/-- The outputs that a hub unit asks to be high (R96, R100, R308, R315): A carries the on interval, B the off interval of
a pair; a single output has no B. -/
def GenUnit.pair (u : GenUnit) (single : Bool) : List Bool :=
  match u.gate with
  | 0 => [u.on, !single && !u.on]
  | 1 => [false, true]
  | 2 => [false, false]
  | _ => [false, u.on]

/-- The outputs of a bridge of a DAB stage (R289): leg A is on from rise to fall, leg B for the rest of the period. -/
def bridge (on : Bool) : List Bool := [on, !on, !on, on]

/-- The other output of a pair. -/
def partner (k : Nat) : Nat := if k % 2 = 0 then k + 1 else k - 1

/-- One output of a pair is asked for a level at an instant (R100): off at once, on after the dead time when the other
output of its pair was asked to be high before. -/
def GenUnit.askPin (x : GenUnit) (old : List Bool) (t dt k : Nat) (level : Bool) : GenUnit :=
  if level = old.getD k false then x
  else
    let at' := if level && old.getD (partner k) false then t + 32 * dt else t
    { x with moves := (x.moves.filter fun m => decide (m.2.1 ≠ k) || decide (m.1 < t)) ++ [(at', k, level)] }

/-- Some outputs of a unit, from number `k` on, are asked for levels at an instant. -/
def GenUnit.ask (x : GenUnit) (t dt k : Nat) (l : List Bool) : GenUnit :=
  let old := x.want
  let y := (l.zipIdx k).foldl (fun y p => y.askPin old t dt p.2 p.1) x
  { y with want := (old ++ List.replicate (k - old.length) false).take k ++ l ++ old.drop (k + l.length) }

/-- A pair whose outputs would both be high is forced low, and its interlock flag set (R100). -/
def GenUnit.interlock (x : GenUnit) : GenUnit :=
  let both (k : Nat) := x.pins.getD k false && x.pins.getD (partner k) false
  if (List.range x.pins.length).any both then
    { x with ilock := true, pins := x.pins.mapIdx fun k l => l && !both k }
  else x

/-- The level of one output is set. -/
def setPin (l : List Bool) (k : Nat) (b : Bool) : List Bool :=
  (l ++ List.replicate (k + 1 - l.length) false).set k b

/-- The changes of a unit's outputs that have come by an instant happen, in order of time. -/
def GenUnit.settle (x : GenUnit) (now : Nat) : GenUnit :=
  let past := (x.moves.filter fun m => decide (m.1 ≤ now)).mergeSort fun a b => decide (a.1 ≤ b.1)
  if past.isEmpty then x
  else
    let y := { x with moves := x.moves.filter fun m => decide (now < m.1), pins := past.foldl (fun (l : List Bool) (m : Nat × Nat × Bool) => setPin l m.2.1 m.2.2) x.pins }
    y.interlock

/-- The outputs of the hub's and the DAB units follow the time base of their die; those of a halted die stand (R105). -/
def State.settlePins (s : State) : State :=
  { s with units := s.units.map fun e =>
      if e.2.moves.isEmpty || (s.die (e.1 / 128)).halted then e else (e.1, e.2.settle (s.fine (e.1 / 128))) }

/-- Put an edge word of a channel on the lane of its quad (R93, R95). -/
def State.emit (s : State) (c : Nat) (leg : Leg) (t : Nat) (pb : Bool) : State :=
  let a := s.adc (dieOf c) (localOf c / 4)
  s.setAdc (dieOf c) (localOf c / 4) { a with lane := laneInsert t (edgeWordOf (localOf c) leg t pb) a.lane }

/-- Carry a unit's decided output to its outputs at an instant, or to its slice by an edge word. -/
def State.drivePins (s : State) (die u : Nat) (t : Nat) (pb : Bool) : State :=
  let x := s.unit die u
  if isChan die u then s.emit (chanOf die u) (legFor x.on (s.swapped die u)) t pb
  else
    let l := if die = 0 then x.pair (isSingle die u) else bridge x.on
    s.setUnit die u ((x.ask t (s.unitDead die u) 0 l).settle (s.fine die))

/-- A hub unit asks for its outputs now. -/
def State.askNow (s : State) (u : Nat) (l : List Bool) : State :=
  s.setUnit 0 u (((s.unit 0 u).ask (s.fine 0) (s.unitDead 0 u) 0 l).settle (s.fine 0))

/-- The level of one output is set at once, unless a latch holds the unit's outputs (R104). -/
def State.holdPin (s : State) (u : Nat) (on : Bool) : State :=
  let x := s.unit 0 u
  if x.latched then s else s.setUnit 0 u { x with want := setPin x.want 0 on, pins := setPin x.pins 0 on }

/-- The first change of an output to a level that is to come happens at an instant. -/
def pullMove (t k : Nat) (b : Bool) : List (Nat × Nat × Bool) → List (Nat × Nat × Bool)
  | [] => []
  | m :: l => if m.2.1 = k ∧ m.2.2 = b then (min m.1 t, k, b) :: l else m :: pullMove t k b l

/-- The on interval of a hub pair ends now (R320): a fall that was to come later comes at once. -/
def GenUnit.endOn (x : GenUnit) (now dt : Nat) (single : Bool) : GenUnit :=
  if x.on then
    let y := { x with on := false, gapHeld := false, lastEdge := now, edges := x.edges ++ [(now, false, false)] }
    (y.ask now dt 0 (y.pair single)).settle now
  else if x.pins.getD 0 false then
    { x with
      moves := pullMove (now + 32 * dt) 1 true (pullMove now 0 false x.moves),
      edges := x.edges.map fun (e : Nat × Bool × Bool) => if now < e.1 ∧ !e.2.1 then (now, e.2) else e }.settle now
  else x

/-! ## Commits (R81 to R85) -/

/-- A commit is received: the set it carries is the staging as it stands; it is due 256 counts later (R82). A commit
received while one is pending replaces it. -/
def State.commitUnit (s : State) (die u : Nat) : State :=
  let x := s.unit die u
  s.setUnit die u { x with commit := some (x.staged, s.cnt die + 256), committed := true }

/-- The pending set transfers: it becomes active, and the staging holds the active values (R81). -/
def GenUnit.transfer (x : GenUnit) (set : PSet) : GenUnit := { x with active := set, staged := set, commit := none }

/-- The instant of the period boundary that a unit last passed, in fine steps of its die's time base, with the grid
shift of the unit (R386). -/
def GenUnit.base (x : GenUnit) : Nat := (32 * (x.boundary : Int) + x.shift).toNat

/-- The grid shift moves by one fine step toward 0 at a boundary (R387). -/
def slew (c : Int) : Int := if 0 < c then c - 1 else if c < 0 then c + 1 else 0

/-- The next boundary of a running unit, in counts of its grid, and in fine steps with the shift it will have there
(R386, R387). -/
def GenUnit.nextB (x : GenUnit) : Nat := x.boundary + x.active.period
def GenUnit.nextFine (x : GenUnit) : Int := 32 * (x.nextB : Int) + slew x.shift

/-- At a boundary, 256 counts or more after the commit: the set transfers, unless it changes the period and the boundary
is not on the new grid (R82, R84). -/
def GenUnit.transferAt (x : GenUnit) (ph : Nat) : GenUnit :=
  match x.commit with
  | some (set, due) =>
    if 32 * (due : Int) ≤ x.nextFine ∧ (set.period = x.active.period ∨ gridAt set.period ph x.nextB = x.nextB) then x.transfer set
    else x
  | none => x

/-- The mid-period of the present period, in fine steps (R83). -/
def GenUnit.midFine (x : GenUnit) : Nat := x.base + 32 * (x.active.period / 2)

/-- The set that transfers at mid-period (R83): in update point mode 1 a set that is due there and keeps the period. -/
def GenUnit.midSet (x : GenUnit) (mode1 : Bool) : Option PSet :=
  match x.commit with
  | some (set, due) => if mode1 ∧ set.period = x.active.period ∧ 32 * due ≤ x.midFine then some set else none
  | none => none

/-- The unit as it will be after the mid-period of its present period, and after its next boundary, as known now. -/
def GenUnit.pastMid (x : GenUnit) (mode1 : Bool) : GenUnit :=
  match x.midSet mode1 with
  | some set => x.transfer set
  | none => x
def GenUnit.pastNext (x : GenUnit) (ph : Nat) (mode1 : Bool) : GenUnit :=
  { ((x.pastMid mode1).transferAt ph) with boundary := x.nextB, shift := slew x.shift }

/-- A period value is accepted (R76). -/
def State.periodOk (s : State) (hub : Bool) (p : Nat) : Bool :=
  decide (640 ≤ p) && decide (p ≤ if hub then 640000 else 32000) && decide (p ∣ 32000 * s.rdN 0x1101 1 dev)

/-- The host may write the staging of a channel: its owner is 1 (R85). -/
def hostOwns (s : State) (c : Nat) : Nat := if s.rd 0x2830 2 c = 1 then aDone else aReadOnly

/-- Staging writes of the host (R76, R81, R85): subindex 1 period, 2 rise, 3 fall. -/
def stageCheck (j : Nat) (v : Int) (s : State) (c : Nat) : Nat :=
  if hostOwns s c ≠ 0 then aReadOnly
  else if j = 1 ∧ !s.periodOk false v.toNat then aRange
  else aDone

def stageSet (j : Nat) (v : Int) (s : State) (c : Nat) : State :=
  let x := s.unit (dieOf c) (localOf c)
  let st := match j with
    | 1 => { x.staged with period := v.toNat }
    | 2 => { x.staged with rise := v.toNat }
    | _ => { x.staged with fall := v.toNat }
  s.setUnit (dieOf c) (localOf c) { x with staged := st }

/-- COMMIT (R82, R85): a write of 1 to 0x2831.04. -/
def commitSet (s : State) (c : Nat) : State := s.commitUnit (dieOf c) (localOf c)

def execCommit (src : Src) (c v : Nat) (s : State) : Res :=
  .next (s.writeObj src 0x2831 4 [c] v hostOwns commitSet)

/-! ## Start and stop (R79, R80) -/

/-- The first boundary of a stopped unit has been decided (R90): its edges are on the way. -/
def GenUnit.starting (x : GenUnit) : Bool := !x.running && !x.edges.isEmpty

/-- A start command: while a stop is pending it counts as received at the stop's boundary (R80). DESIGN CHOICE (log 168): a
further start command of a stopped unit restarts the wait of 256 counts, unless its first boundary is decided. -/
def State.startUnit (s : State) (die u : Nat) : State :=
  let x := s.unit die u
  if x.running then
    if x.stopAt.isSome then s.setUnit die u { x with restart := true } else s
  else if x.starting then s
  else s.setUnit die u { x with startAt := some (s.cnt die) }

/-- A stop command: a running unit stops at the first boundary at least 256 counts later; a commit is needed after it.
DESIGN CHOICE (log 168): it cancels the pending start of a stopped unit, unless that unit's first boundary is decided, and
a second stop command does not cancel the start that follows a pending stop. -/
def State.stopUnit (s : State) (die u : Nat) : State :=
  let x := s.unit die u
  if x.running ∨ x.starting then
    if x.stopAt.isSome then s else s.setUnit die u { x with stopAt := some (s.cnt die), committed := false }
  else s.setUnit die u { x with startAt := none }

/-- The owner of a unit is latched: a latch holds its outputs until a clear (R505). -/
def State.unitLatched (s : State) (die u : Nat) : Bool :=
  (s.unit die u).latched || (isChan die u && s.latched (chanOf die u)) ||
    (die != 0 && decide (64 ≤ u) && ((s.die die).dab (u - 64)).latched)

/-- A unit of a populated die. -/
def State.unitPop (s : State) (die u : Nat) : Bool := s.diePop die && decide (u < if die = 0 then 36 else 66)

def execOutputStart (die u : Nat) (s : State) : Res := .next <|
  if s.unitPop die u ∧ !s.unitLatched die u then s.startUnit die u else s

def execOutputStop (die u : Nat) (s : State) : Res := .next <|
  if s.unitPop die u then s.stopUnit die u else s

/-! ## Period boundaries (R74 to R84, R92, R387) -/

/-- The applied-output word of a period that ends (R92). -/
def appliedWord (x : GenUnit) (on : Nat) (pp : Bool) : Nat :=
  let full := 32 * x.active.period
  (if on = 0 then 2 ^ 31 else 0) + (if full ≤ on ∨ x.rfr then 2 ^ 30 else 0) + (if x.clip then 2 ^ 29 else 0) +
    (if x.rfr then 2 ^ 28 else 0) + (if pp then 2 ^ 27 else 0) + on % 2 ^ 25

/-- The time for which an output is on from an instant to an end, its edges given in order. -/
def onTime (on : Bool) (a stop : Nat) : List (Nat × Bool × Bool) → Nat
  | [] => if on then stop - a else 0
  | (t, b, _) :: l => (if on then min t stop - a else 0) + onTime b (max a (min t stop)) stop l

/-- The edges of the period that ends at the next boundary. -/
def GenUnit.ended (x : GenUnit) : List (Nat × Bool × Bool) := x.edges.filter fun e => decide ((e.1 : Int) < x.nextFine)

/-- On-time of the period that ends, in fine steps of its grid: a step by which the shift moves is no on-time. -/
def GenUnit.onAt (x : GenUnit) : Nat := onTime x.before x.base (x.base + 32 * x.active.period) x.ended

/-- The refresh limiter counts a period without a sufficient low-side on-time (R48); a forced gap has cleared the count. -/
def Slice.countPeriod (x : Slice) (t m : Nat) (forced : Bool) : Slice :=
  { x with refresh := if forced || x.lowLong t m then 0 else min 15 (x.refresh + 1), lowEnough := false,
           lowSince := x.lowSince.map fun _ => t }

/-- Close a period of a channel: its applied-output word and the refresh count. -/
def State.endPeriod (s : State) (die u : Nat) : State :=
  let x := s.unit die u
  let on := x.onAt
  let w := appliedWord x on (x.ended.any fun e => e.2.2)
  let s := s.setUnit die u { x with applied := w, wordNew := true }
  if isChan die u then
    let c := chanOf die u
    let s := s.wr 0x2833 6 c (on % 2 ^ 25 : Nat)
    let ch := s.chan c
    s.setChan c { ch with slice := ch.slice.countPeriod x.nextFine.toNat (s.minPulse die) x.rfr }
  else s

/-- The set requests zero on-time (R75). -/
def PSet.zero (p : PSet) : Bool := decide (p.fall ≤ p.rise)

/-- The set clips its fall (R75); a DAB stage's second leg is outside this. -/
def PSet.clips (p : PSet) : Bool := decide (p.rise < p.fall) && decide (32 * p.period < p.fall)

/-- A set that clips raises its flag and is counted (R75). -/
def State.noteClip (s : State) (die u : Nat) (clips : Bool) : State :=
  if clips ∧ isChan die u then (s.wr 0x2833 4 (chanOf die u) 1).inc 0x2833 5 (chanOf die u) else s

/-- The secondary edges of a DAB stage's period (R99): each primary edge delayed by the phase offset, modulo the period. -/
def GenUnit.secondary (x : GenUnit) (dt : Nat) : GenUnit :=
  let full := 32 * max x.active.period 1
  let at' (c : Nat) : Nat := x.base + (((c : Int) + x.active.delta) % full).toNat
  let r := at' x.active.rise
  let f := at' x.active.fall
  if x.active.zero then x
  else if r ≤ f then (x.ask r dt 4 (bridge true)).ask f dt 4 (bridge false)
  else (x.ask f dt 4 (bridge false)).ask r dt 4 (bridge true)

/-- A period begins at a boundary: flags restart, and the edges decided before it are done. -/
def State.beginPeriod (s : State) (die u b : Nat) (shift : Int) : State :=
  let x := s.unit die u
  let y := { x with boundary := b, shift := shift, clip := x.active.clips, rfr := false }
  let past := y.edges.filter fun e => decide (e.1 < y.base)
  let y := { y with
    before := (past.getLast?.map fun e => e.2.1).getD y.before, edges := y.edges.filter fun e => decide (y.base ≤ e.1) }
  let y := if die ≠ 0 ∧ 64 ≤ u then y.secondary (s.unitDead die u) else y
  (s.setUnit die u y).noteClip die u x.active.clips

/-- An on-pulse greater than 0 and shorter than the minimum is suppressed (R88). -/
def PSet.shortPulse (p : PSet) (m : Nat) : Bool :=
  decide (p.rise < p.fall) && decide (min p.fall (32 * p.period) - p.rise < 32 * m)

/-- An edge at a requested time, postponed to the last decided edge plus the minimum (R90). -/
def edgeTimeAfter (last m t : Nat) : Nat := if t < last + 32 * m then last + 32 * m else t

/-- The set switches the output on in its period (R75, R88). -/
def PSet.rises (p : PSet) (m : Nat) : Bool := !p.zero && !p.shortPulse m

/-! ## Decisions, 256 counts ahead (R87 to R91) -/

/-- An edge that is to be decided: its requested instant, its rank at that instant (0 fall, 1 boundary, 2 mid-period,
3 rise), the start of its period, the set that asks for it, the set of the boundary after, and whether the unit stops or
starts there. -/
structure Ask where
  time : Nat
  rank : Nat
  base : Nat
  set : PSet
  next : PSet
  stops : Bool := false
  starts : Bool := false
  deriving DecidableEq, Repr

def Ask.key (k : Ask) : Nat := 4 * k.time + k.rank

/-- What a set asks for in its period after an instant; an edge at the period end belongs to the boundary. -/
def PSet.asks (p next : PSet) (base a : Nat) : List Ask :=
  if p.zero then []
  else
    ([⟨base + p.rise, 3, base, p, next, false, false⟩, ⟨base + p.fall, 0, base, p, next, false, false⟩] : List Ask).filter fun k =>
      decide (a < k.time) && decide (k.time < base + 32 * p.period)

/-- A pending stop takes the next boundary (R80). -/
def GenUnit.stopsNext (x : GenUnit) : Bool :=
  match x.stopAt with
  | some t => decide (32 * ((t : Int) + 256) ≤ x.nextFine)
  | none => false

/-- The edges of a running unit from its last boundary to one period beyond the next, with the set each will have. -/
def GenUnit.asks (x : GenUnit) (ph : Nat) (mode1 : Bool) : List Ask :=
  let n := x.pastNext ph mode1
  let after := (n.pastNext ph mode1).active
  let here := match x.midSet mode1 with
    | none => x.active.asks n.active x.base x.base
    | some set => ((x.active.asks n.active x.base x.base).filter fun k => decide (k.time < x.midFine)) ++
        ⟨x.midFine, 2, x.base, set, n.active, false, false⟩ :: set.asks n.active x.base x.midFine
  here ++ ⟨x.nextFine.toNat, 1, n.base, n.active, after, x.stopsNext, false⟩ ::
    (if x.stopsNext then [] else n.active.asks after n.base n.base)

/-- A pending start takes the first grid boundary at least 256 counts after the start and the first commit, whose set
may have become active already (R79). -/
def GenUnit.firstB (x : GenUnit) (ph : Nat) : Option (Nat × PSet) :=
  match x.startAt with
  | some t0 =>
    if x.starting then (x.edges.head?.map fun e => (e.1 / 32, x.active))
    else if x.committed then
      match x.commit with
      | some (set, due) => some (gridAt set.period ph (max (t0 + 256) due), set)
      | none => some (gridAt x.active.period ph (t0 + 256), x.active)
    else none
  | none => none

/-- The edges of a stopped unit whose start is pending: its first boundary and the period after it. -/
def GenUnit.firstAsks (x : GenUnit) (ph : Nat) : List Ask :=
  match x.firstB ph with
  | some (b, set) => ⟨32 * b, 1, 32 * b, set, set, false, true⟩ :: set.asks set (32 * b) (32 * b)
  | none => []

/-- The unit transfers at mid-period as well (R83): a channel in update point mode 1, an AFE or stepper pair (R282, R323). -/
def State.midMode (s : State) (die u : Nat) : Bool :=
  if die = 0 then decide (u < 6) || decide (20 ≤ u) else decide (u < 64) && s.rd 0x2830 1 (chanOf die u) == 1

/-- The next edge that a unit has not decided yet. -/
def State.nextAsk (s : State) (die u : Nat) : Option Ask :=
  let x := s.unit die u
  let l := if x.running then x.asks (s.phi die u) (s.midMode die u) else x.firstAsks (s.phi die u)
  (l.filter fun k => decide (x.decided < k.key)).foldl (fun m k =>
    match m with
    | none => some k
    | some j => if k.key < j.key then some k else some j) none

/-- Count an event of a channel's unit in 0x2833. -/
def State.bump (s : State) (die u j : Nat) : State := if isChan die u then s.inc 0x2833 j (chanOf die u) else s

/-- An edge is decided, at its requested instant or postponed to the last edge plus the minimum (R90). -/
def State.place (s : State) (die u t : Nat) (on pb : Bool) : State :=
  let x := s.unit die u
  let t' := edgeTimeAfter x.lastEdge (s.unitMin die u) t
  let late := decide (t' ≠ t)
  let s := if pb ∧ late then s.drivePins die u t true else s
  let s := if late then s.bump die u 3 else s
  (s.setUnit die u { x with on := on, gapHeld := false, lastEdge := t', edges := x.edges ++ [(t', on, late)] }).drivePins die u t'
    (pb && !late)

/-- A gap shorter than the minimum is suppressed and counted (R89). -/
def State.holdGap (s : State) (die u : Nat) : State :=
  (s.setUnit die u { s.unit die u with gapHeld := true }).bump die u 2

/-- Decide a rise (R88): a suppressed pulse gives no edge and is counted; the rise after a suppressed gap is not produced. -/
def State.decideRise (s : State) (die u : Nat) (k : Ask) : State :=
  let x := s.unit die u
  if x.gapHeld then s.setUnit die u { x with gapHeld := false }
  else if x.on then s
  else if k.set.shortPulse (s.unitMin die u) then s.bump die u 1
  else s.place die u k.time true false

/-- Decide a fall (R89). -/
def State.decideFall (s : State) (die u : Nat) (k : Ask) : State :=
  let m := s.unitMin die u
  if !(s.unit die u).on then s
  else if k.next.rises m ∧ k.base + 32 * k.set.period + k.next.rise < k.time + 32 * m then s.holdGap die u
  else s.place die u k.time false false

/-- Decide the state at mid-period (R83): the new compares applied to the instant of the transfer. -/
def State.decideMid (s : State) (die u : Nat) (k : Ask) : State :=
  let x := s.unit die u
  let m := s.unitMin die u
  let c := k.time - k.base
  let on := decide (k.set.rise ≤ c) && decide (c < k.set.fall)
  let rise := if c < k.set.rise ∧ !k.set.zero then some k.set.rise
    else if k.next.rises m then some (32 * k.set.period + k.next.rise) else none
  if on = x.on then s.setUnit die u { x with gapHeld := false }
  else if on then (if k.set.shortPulse m then s.bump die u 1 else s.place die u k.time true false)
  else if rise.any fun r => decide (r < c + 32 * m) then s.holdGap die u
  else s.place die u k.time false false

/-- Decide the edge at a boundary (R75, R89, R95): the output stays on into a rise at 0, falls where the new set is off,
and turns on where it rises at 0; a channel sends its PB word in any case. -/
def State.decideBound (s : State) (die u : Nat) (k : Ask) : State :=
  let x := s.unit die u
  let m := s.unitMin die u
  let stay (s : State) : State := s.drivePins die u k.time true
  if x.on then
    if k.set.zero then s.place die u k.time false true
    else if k.set.rise = 0 then stay (s.setUnit die u { x with gapHeld := false })
    else if x.gapHeld then stay s
    else if k.set.rises m ∧ k.set.rise < 32 * m then stay (s.holdGap die u)
    else s.place die u k.time false true
  else if !k.set.zero ∧ k.set.rise = 0 then
    if k.set.shortPulse m then stay (s.bump die u 1) else s.place die u k.time true true
  else stay s

/-- The outputs of a unit take their stop level at a boundary: leg state 00 for a channel (R80). -/
def State.decideStop (s : State) (die u t : Nat) : State :=
  let x := s.unit die u
  let y := { x with on := false, gapHeld := false, edges := x.edges ++ [(t, false, false)] }
  if isChan die u then (s.setUnit die u y).emit (chanOf die u) .off t true
  else s.setUnit die u ((y.ask t 0 0 (List.replicate y.want.length false)).settle (s.fine die))

/-- The first boundary of a stopped unit (R79): its set becomes active and its state at that instant is decided. -/
def State.decideStart (s : State) (die u : Nat) (k : Ask) : State :=
  let x := s.unit die u
  let m := s.unitMin die u
  let y := if x.commit.isSome then x.transfer k.set else x
  let on := !k.set.zero && k.set.rise == 0 && !k.set.shortPulse m
  let s := if !k.set.zero ∧ k.set.rise = 0 ∧ k.set.shortPulse m then s.bump die u 1 else s
  (s.setUnit die u { y with on := on, lastEdge := if on then k.time else y.lastEdge, edges := [(k.time, on, false)] }).drivePins
    die u k.time true

/-- Decide one edge. -/
def State.decideEdge (s : State) (die u : Nat) (k : Ask) : State :=
  let s := s.setUnit die u { s.unit die u with decided := if k.rank = 2 then k.key + 1 else k.key }
  match k.rank with
  | 0 => s.decideFall die u k
  | 1 => if k.stops then s.decideStop die u k.time else if k.starts then s.decideStart die u k else s.decideBound die u k
  | 2 => s.decideMid die u k
  | _ => s.decideRise die u k

/-- Decide the edges up to a key that are still to be decided. -/
def State.decideUpTo (s : State) (die u key : Nat) : Nat → State
  | 0 => s
  | n + 1 =>
    match s.nextAsk die u with
    | some k => if k.key ≤ key then (s.decideEdge die u k).decideUpTo die u key n else s
    | none => s

/-- EDGE_DECISION (R90): the unit decides its next edge, at most 256 counts before its time. -/
def execEdgeDecision (die u : Nat) (s : State) : Res := .next <|
  match s.nextAsk die u with
  | some k =>
    if s.unitPop die u ∧ !s.unitLatched die u ∧ !(s.die die).halted ∧ k.time ≤ s.fine die + 32 * 256 then s.decideEdge die u k else s
  | none => s

/-! ## Boundaries -/

/-- A unit has stopped at a boundary; its shift is dropped (R80, R387). -/
def State.haltAtBoundary (s : State) (die u : Nat) : State :=
  let x := s.unit die u
  s.setUnit die u { x with
    running := false, on := false, stopAt := none, shift := 0, boundary := x.nextB, restart := false, before := false,
    edges := [], startAt := if x.restart then some x.nextB else none }

/-- PERIOD_BOUNDARY of a running unit: what is left to decide is decided, the period closes, and a stop, or a transfer,
takes effect. -/
def State.runBoundary (s : State) (die u : Nat) : State :=
  let x := s.unit die u
  let s := s.decideUpTo die u (4 * x.nextFine.toNat + 1) 8
  let s := s.endPeriod die u
  let x := s.unit die u
  if x.stopsNext then s.haltAtBoundary die u
  else (s.setUnit die u (x.transferAt (s.phi die u))).beginPeriod die u x.nextB (slew x.shift)

/-- PERIOD_BOUNDARY of a stopped unit whose start is pending. -/
def State.startBoundary (s : State) (die u : Nat) (b : Nat) : State :=
  let s := s.decideUpTo die u (128 * b + 1) 1
  let s := s.setUnit die u { s.unit die u with running := true, startAt := none }
  let s := s.beginPeriod die u b 0
  if die = 0 then s else s.standingSources die

/-- PERIOD_BOUNDARY (R74 to R84, R92): the unit's counter reaches its boundary. -/
def execPeriodBoundary (die u : Nat) (s : State) : Res := .next <|
  let x := s.unit die u
  if s.unitPop die u ∧ !(s.die die).halted then
    if x.running then
      if x.nextFine ≤ s.fine die then s.runBoundary die u else s
    else
      match x.firstB (s.phi die u) with
      | some (b, _) => if b ≤ s.cnt die ∧ !s.unitLatched die u then s.startBoundary die u b else s
      | none => s
  else s

/-- MID_PERIOD_UPDATE (R83): in mode 1 a due set that keeps the period transfers at count P / 2; its edge there, if it
gives another output state, is decided. -/
def execMidPeriodUpdate (die u : Nat) (s : State) : Res := .next <|
  let x := s.unit die u
  match x.midSet (s.midMode die u) with
  | some set =>
    if s.unitPop die u ∧ x.running ∧ !(s.die die).halted ∧ x.midFine ≤ s.fine die then
      let s := s.decideUpTo die u (4 * x.midFine + 3) 4
      let y := s.unit die u
      (s.setUnit die u { (y.transfer set) with clip := set.clips }).noteClip die u (set.clips && !y.clip)
    else s
  | none => s

/-! ## The forced refresh (R48, R91) -/

/-- The instant of the forced gap (R91): the minimum pulse before the period end, or the requested fall where it is
earlier. -/
def State.refreshAt (s : State) (c : Nat) : Nat :=
  let u := s.unit (dieOf c) (localOf c)
  let t := 32 * (u.active.period - s.minPulse (dieOf c))
  u.base + if u.active.zero || s.swapped (dieOf c) (localOf c) then t else min u.active.fall t

/-- The leg that a channel's unit has last asked for is low, and will have been on for the minimum pulse by the period's
end. -/
def State.lowComes (s : State) (c : Nat) : Bool :=
  let n := dieOf c
  let u := s.unit n (localOf c)
  legFor u.on (s.swapped n (localOf c)) == .low &&
    decide (((u.lastEdge + 32 * (s.deadTime n + s.minPulse n) : Nat) : Int) ≤ u.nextFine)

/-- The forced gap of a period is due: the sixteenth period in which the low side is not on for long enough. -/
def State.refreshDue (s : State) (c : Nat) : Bool :=
  let n := dieOf c
  let x := (s.chan c).slice
  let u := s.unit n (localOf c)
  u.running && !(s.die n).halted && !u.rfr && decide (15 ≤ x.refresh) && decide (s.refreshAt c ≤ s.fine n + 32 * 256) &&
    decide ((u.decided : Int) < 4 * u.nextFine) && !x.lowLong (s.refreshAt c) (s.minPulse n) && !s.lowComes c

/-- FORCED_REFRESH (R48, R91): the sixteenth period without a sufficient low-side on-time gets a gap of the minimum
pulse before its end: an edge word turns the high side off and the low side on, and the count is cleared. -/
def execForcedRefresh (c : Nat) (s : State) : Res := .next <|
  let n := dieOf c
  let k := localOf c
  let t := s.refreshAt c
  if s.chanPop c ∧ s.refreshDue c then
    let ch := s.chan c
    let s := s.setChan c { ch with slice := { ch.slice with refresh := 0 } }
    let u := s.unit n k
    let s := s.setUnit n k { u with rfr := true, gapHeld := false, decided := max u.decided (4 * t) }
    let s := if legFor u.on (s.swapped n k) = .low then s else s.place n k t (s.swapped n k) false
    s.inc 0x2812 1 c
  else s

/-! ## Debug halt (R105 to R107, R388) -/

/-- Fold an offset in fine steps into −16 × P < c ≤ 16 × P (R388). -/
def foldShift (p : Nat) (c : Int) : Int :=
  let r := c % (32 * (max p 1 : Nat) : Int)
  if r ≤ 16 * p then r else r - 32 * p

/-- DEBUG_HALT (R105): on a D part with debug unlocked, one die at a time freezes as it is. -/
def execDebugHalt (die : Nat) (s : State) : Res := .next <|
  if !s.sealedPart ∧ s.sec.debug ∧ s.diePop die ∧ !((List.range 7).any fun d => (s.die d).halted) then
    let d := s.die die
    s.setDie die { d with halted := true, haltAt := s.cnt die }
  else s

/-- An edge word that still waits names a time `d` fine steps later (R107, R386). -/
def retime (d : Int) (w : Word) : Word :=
  if edgeOk w then
    edgeWordOf (edgeChan w) (legOf (edgeLeg w)) ((((edgeTimeField w * 32 + edgeTap w : Nat) : Int) + d) % 131072).toNat (edgePb w)
  else w

/-- The edges that a slice still has to carry out move by `d` fine steps of the die's time counter. -/
def Slice.move (x : Slice) (d : Int) : Slice :=
  { x with
    words := x.words.map fun w => ((((w.1 : Nat) : Int) + d).toNat, w.2.1, w.2.2),
    turnOn := x.turnOn.map fun w => (w.1, (((w.2 : Nat) : Int) + d).toNat) }

/-- The edges and pin changes of a unit move by `d` fine steps of the die's time counter. -/
def GenUnit.move (x : GenUnit) (d : Int) : GenUnit :=
  let by' (t : Nat) : Nat := ((t : Int) + d).toNat
  { x with lastEdge := by' x.lastEdge, decided := ((x.decided : Int) + 4 * d).toNat,
           edges := x.edges.map fun e => (by' e.1, e.2), moves := x.moves.map fun e => (by' e.1, e.2) }

/-- A running unit resumes from its frozen count and takes the offset of its grid as its shift (R107, R388). -/
def GenUnit.resume (x : GenUnit) (len : Nat) : GenUnit :=
  if x.running then
    let p := max x.active.period 1
    let c := foldShift p (x.shift + 32 * (len % p : Nat))
    let moved : Int := 32 * ((x.boundary + len : Nat) : Int) + x.shift - c
    { (x.move (32 * len : Nat)) with shift := c, boundary := (moved / 32).toNat }
  else x

/-- Every slice of a channel die changes in the same way. -/
def State.mapSlices (s : State) (die : Nat) (f : Slice → Slice) : State :=
  if die = 0 then s else each (siteChans die) (fun s c => let ch := s.chan c; s.setChan c { ch with slice := f ch.slice }) s

/-- The words on the lanes of a channel die name instants `d` fine steps later. -/
def State.retimeLanes (s : State) (die : Nat) (d : Int) : State :=
  if die = 0 then s
  else each (List.range 16) (fun s u =>
    let a := s.adc die u
    if a.lane.isEmpty then s
    else s.setAdc die u { a with lane := a.lane.map fun e => (((e.1 : Int) + d).toNat, retime d e.2) }) s

/-- The BLDC drives whose outputs went low during a halt of the hub carry it out at the resume (log 171). -/
def State.lowAtResume (s : State) : State :=
  each [0, 1, 2, 3] (fun s a =>
    if [0, 1, 7, 8, 9].contains (s.rdN 0x341A (a + 1) dev) then
      each [8 + 3 * a, 9 + 3 * a, 10 + 3 * a] (fun s u => if (s.unit 0 u).latched then s else s.setUnit 0 u (s.unit 0 u).cut) s
    else s) s

/-- DEBUG_RESUME (R107, R388): each counter continues; the watchdog and heartbeat timers run again from here. -/
def execDebugResume (die : Nat) (s : State) : Res := .next <|
  let d := s.die die
  if s.diePop die ∧ d.halted then
    let len := s.cnt die - d.haltAt
    let s := s.setDie die { d with halted := false, hbHub := s.clock.cnt, hbDie := s.clock.cnt }
    let s := (s.mapSlices die fun x => x.move (32 * len : Nat)).retimeLanes die (32 * len : Nat)
    let s := if die = 0 then s.lowAtResume else s
    each (List.range (if die = 0 then 36 else 66)) (fun s u => s.setUnit die u ((s.unit die u).resume len)) s
  else s

end Sys2Proof.Machine
end

