-- ==== Sys2Proof/Machine/Admission.lean ====
section
/-! DEFINITION. Descriptors (R122 to R126) and admission (R132 to R134, R557). -/

namespace Sys2Proof.Machine

/-- The vendor templates (chapter 4): slot kind and W, by ID. -/
def vendor (id : Nat) : Option (Nat × Nat) :=
  match id with
  | 1 => some (0, 312)
  | 2 => some (0, 356)
  | 3 => some (0, 488)
  | 4 => some (0, 430)
  | 5 => some (0, 418)
  | 6 => some (0, 96)
  | 7 => some (0, 344)
  | 8 => some (0, 402)
  | 9 => some (0, 600)
  | 10 => some (0, 236)
  | 11 => some (1, 520)
  | 16 => some (2, 780)
  | 17 => some (2, 560)
  | 18 => some (2, 300)
  | 19 => some (2, 180)
  | 20 => some (2, 720)
  | 21 => some (2, 640)
  | 22 => some (2, 420)
  | _ => none

/-- The slot kind and W of the descriptor under an ID of a die, if one is loaded. -/
def State.descOf (s : State) (die id : Nat) : Option (Nat × Nat) :=
  if id < 32 then vendor id
  else
    let d := s.desc die id
    if d.loaded then some (d.kind, d.w) else none

/-- The W of an ID; 0 when it is empty. -/
def State.descW (s : State) (die id : Nat) : Nat := ((s.descOf die id).map (·.2)).getD 0

/-- The slot kind of a slot: 0 channel, 1 DAB, 2 hub. -/
def kindOf (die k : Nat) : Nat := if die = 0 then 2 else if k < 64 then 0 else 1

/-- The loop period L of a slot, in counts (R110). -/
def State.loopL (s : State) (die k : Nat) : Nat :=
  if die = 0 then s.rdN 0x2520 (k + 1) dev
  else if k < 64 then s.rdN 0x2510 1 (chanOf die k)
  else s.rdN 0x2514 (k - 63) (siteI die)

/-- The phase offset of a slot's releases (R393): DAB stage 1 releases on the Φ of stage 0. -/
def State.slotPhi (s : State) (die k : Nat) : Nat :=
  if die = 0 then
    if k < 4 then s.rdN 0x1108 1 dev
    else if k < 8 then s.rdN 0x1108 (k - 2) dev
    else if k < 12 then s.rdN 0x1108 (k - 2) dev
    else if k < 16 then s.rdN 0x1108 (k - 6) dev
    else 0
  else if k < 64 then s.rdN 0x2834 0 (chanOf die k)
  else s.rdN 0x3108 0 (siteI die)

/-- The IDs that a slot can run (R125, R132). -/
def State.idsOf (s : State) (die k : Nat) : List Nat :=
  if die = 0 then [s.rdN 0x2523 (k + 1) dev]
  else if k < 64 then
    let c := chanOf die k
    if s.slave c then [s.rdN 0x2511 0x11 c] else (List.range 16).map fun m => s.rdN 0x2511 (m + 1) c
  else [s.rdN 0x2514 (k - 61) (siteI die)]

/-- The largest W of a slot (R132). -/
def State.slotW (s : State) (die k : Nat) : Nat :=
  ((s.idsOf die k).filter (· ≠ 255)).foldl (fun w i => max w (s.descW die i)) 0

/-- The slots of a die that are not unused. -/
def State.usedSlots (s : State) (die : Nat) : List Nat :=
  (List.range (slotCount die)).filter fun k => die != 0 || (decide (k < 16) && s.rdN 0x2523 (k + 1) dev != 255)

/-- The epoch count (R389). -/
def State.epochCount (s : State) : Nat := 32000 * s.rdN 0x1101 1 dev

/-- Cycles of all slots in one epoch. -/
def State.epochCycles (s : State) (die : Nat) : Nat :=
  ((s.usedSlots die).map fun k => s.slotW die k * (s.epochCount / max (s.loopL die k) 1)).sum

/-- The capacity of a die, cycles/s (R108). -/
def capacity (die : Nat) : Nat := if die = 0 then 9600000000 else 10240000000

/-- The rate rule (R133): at most 60 % of the capacity. -/
def State.rateOk (s : State) (die : Nat) : Bool :=
  decide (s.epochCycles die * 320000000 * 100 ≤ 60 * capacity die * s.epochCount)

/-- The admitted load 0x2500.03, in 0.01 % of the capacity, rounded up. -/
def State.loadOf (s : State) (die : Nat) : Nat :=
  let d := capacity die * s.epochCount
  (s.epochCycles die * 320000000 * 10000 + d - 1) / max d 1

/-- σ, and κ in half cycles per count (R133). -/
def sigma (die : Nat) : Nat := if die = 0 then 2160 else 1728
def kappa2 (die : Nat) : Nat := if die = 0 then 5 else 4

/-- The release instants of a slot in one epoch, with its W (R111). -/
def releasesIn (ec ph l w : Nat) : List (Nat × Nat) :=
  (List.range (ec / max l 1)).map fun n => ((ph + n * l) % max ec 1, w)

/-- The release rule for the home jobs of one engine (R133): for every two instants of an epoch, taken cyclically. -/
def releaseRule (die ec : Nat) (rs : List (Nat × Nat)) : Bool :=
  rs.all fun a => rs.all fun b =>
    let d := (b.1 + ec - a.1) % max ec 1
    let sum := ((rs.filter fun r => decide ((r.1 + ec - a.1) % max ec 1 ≤ d)).map (·.2)).sum
    decide (2 * sum ≤ 2 * sigma die + kappa2 die * d)

/-- A plan meets the rules of R110, R133 and R134. -/
def State.planOk (s : State) (die : Nat) (kept plan : List (Nat × Nat × Nat)) : Bool :=
  let all := kept ++ plan
  let ec := s.epochCount
  (s.usedSlots die).all (fun k => (all.filter fun p => p.1 == k).length == 1) &&
  all.all (fun p => decide (p.2.1 < engineCount die) && decide (160 ∣ p.2.2) && decide (p.2.2 + 160 ≤ s.loopL die p.1)) &&
  (List.range (engineCount die)).all fun e =>
    let mine := all.filter fun p => p.2.1 == e
    decide (mine.length ≤ 8) &&
      releaseRule die ec (mine.flatMap fun p => releasesIn ec (s.slotPhi die p.1 + p.2.2) (s.loopL die p.1) (s.slotW die p.1))

/-- The engine that the planner prefers for a slot (R557): the quad's, and engines 0 and 8 for the DAB stages. -/
def prefHome (die k : Nat) : Option Nat := if die = 0 then none else if k < 64 then some (k / 4) else some (8 * (k - 64))

/-- A slot stands on its preferred engine, or the rules of a plan keep it from there whatever its offset (R557, log 8). -/
def State.forcedAway (s : State) (die : Nat) (kept plan : List (Nat × Nat × Nat)) (p : Nat × Nat × Nat) : Bool :=
  match prefHome die p.1 with
  | some h => p.2.1 == h || !(List.range (s.loopL die p.1 / 160)).any fun o =>
      s.planOk die kept (plan.map fun q => if q.1 = p.1 then (p.1, h, 160 * o) else q)
  | none => true

/-- A slot is switching or resting in a step (R134). -/
def State.slotBusy (s : State) (die k : Nat) : Bool :=
  if die = 0 then
    if k < 4 then !s.powerOff
    else if k < 8 then !s.driveClosed (k - 4)
    else if k < 12 then !s.axisClosed (k - 8)
    else if k < 16 then !s.axisClosed (k - 12)
    else false
  else if k < 64 then let c := chanOf die k; s.switching c || s.resting c
  else (s.unit die k).running

/-- The slots the planner places: those affected that are not switching or resting in a step, or every slot when none is
busy or the die is unplanned. -/
def State.toPlace (s : State) (die : Nat) (affected : List Nat) : List Nat :=
  if (s.die die).unplanned || !((s.usedSlots die).any (s.slotBusy die)) then s.usedSlots die
  else (s.usedSlots die).filter fun k => !(s.slot die k).planned || (affected.contains k && !s.slotBusy die k)

/-- Placements that stay as they are. -/
def State.stays (s : State) (die : Nat) (affected : List Nat) : List (Nat × Nat × Nat) :=
  ((s.usedSlots die).filter fun k => !(s.toPlace die affected).contains k).map
    fun k => (k, (s.slot die k).home, (s.slot die k).offset)

/-- What the planner finds for a configuration, when it meets the rules. -/
def State.findPlan (s : State) (die : Nat) (affected : List Nat) : Option (List (Nat × Nat × Nat)) :=
  let stays := s.stays die affected
  match Config.plan die ((s.toPlace die affected).map fun k => (k, s.slotW die k, s.loopL die k)) stays with
  | some p => if s.planOk die stays p && p.all (s.forcedAway die stays p) then some p else none
  | none => none

/-- The result of admission (R133): 0 accepted, 1 budget exceeded, 2 no release plan. -/
def State.admitResult (s : State) (die : Nat) (affected : List Nat) : Nat :=
  if !s.rateOk die then 1 else if (s.findPlan die affected).isNone then 2 else 0

/-- The abort code of a refused admission. -/
def admitCode (r : Nat) : Nat := if r = 1 then aBudget else if r = 2 then aNoPlan else aDone

/-- Place the slots of an accepted plan. -/
def State.placeSlots (s : State) (die : Nat) (p : List (Nat × Nat × Nat)) : State :=
  each p (fun s (k, h, o) => let x := s.slot die k
    s.setSlot die k { x with home := h, offset := o, w := s.slotW die k, planned := true }) s

/-- Carry out an accepted admission: the plan, the load, the result, and the die leaves the state of R557. -/
def State.admitDie (s : State) (die : Nat) (affected : List Nat) : State :=
  match s.findPlan die affected with
  | some p =>
    let s := s.placeSlots die p
    let d := s.die die
    ((s.setDie die { d with unplanned := false }).wr 0x2500 3 (dieI die) (s.loadOf die)).wr 0x2500 5 (dieI die) 0
  | none => s

/-- Admission of restored objects (R557): on a failure the die plans no slot, shows the result and writes 0x200C. -/
def State.admitRestored (s : State) (die : Nat) : State :=
  let s := each (List.range (slotCount die)) (fun s k => let x := s.slot die k; s.setSlot die k { x with planned := false }) s
  let r := s.admitResult die (s.usedSlots die)
  if r = 0 then s.admitDie die (s.usedSlots die)
  else
    let d := s.die die
    let s := (s.setDie die { d with unplanned := true }).wr 0x2500 5 (dieI die) r
    s.noteAt die noChan 0x200C (leNat 1 die ++ leNat 1 r)

/-- A write that runs admission on a die, carried out or refused at stage 10 (R132, R452). -/
def State.admitted (s : State) (dies : List (Nat × List Nat)) (k : State → Ans) : Ans :=
  match dies.find? fun d => decide (s.admitResult d.1 d.2 ≠ 0) with
  | some d => .error ⟨admitCode (s.admitResult d.1 d.2), none⟩
  | none => k (each dies (fun s d => s.admitDie d.1 d.2) s)

/-! ## Empty IDs (R126) -/

/-- Replace one object that names an empty ID; entry 0x200B names the slot, the mode, the old and the new ID. -/
def State.replaceId (s : State) (die i j e slot mode new' : Nat) : State :=
  let old := s.rdN i j e
  if old ≠ 255 ∧ (s.descOf die old).isNone then
    (s.wr i j e new').noteAt die noChan 0x200B
      (leNat 1 die ++ leNat 1 slot ++ leNat 1 mode ++ leNat 1 old ++ leNat 1 new')
  else s

/-- The template of a hub slot (chapter 4). -/
def hubTemplate (k : Nat) : Nat :=
  if k < 4 then 16 + k else if k < 8 then 20 else if k < 12 then 21 else if k < 16 then 22 else 255

/-- Replace every object of a die that names an empty ID (R126). -/
def State.replaceIds (s : State) (die : Nat) : State :=
  if die = 0 then
    each (List.range 24) (fun s k => s.replaceId 0 0x2523 (k + 1) dev k 0xFF (hubTemplate k)) s
  else
    let s := each (List.range 64) (fun s k =>
      let c := chanOf die k
      let s := each (List.range 16) (fun s m =>
        s.replaceId die 0x2511 (m + 1) c k m (if 1 ≤ m ∧ m ≤ 9 then m else 255)) s
      s.replaceId die 0x2511 0x11 c k 0xFF 10) s
    each [0, 1] (fun s i => s.replaceId die 0x2514 (3 + i) (siteI die) (64 + i) 0xFF 11) s

/-! ## Return from STANDBY (R406), used by every write that wakes the device -/

/-- Line time in fine steps of 97.65625 ps (R383). -/
def fineOf (lt : Nat) : Nat := lt * 256 / 25

/-- Load the time base of every die from LT (R383). -/
def State.loadTimeBases (s : State) : State :=
  let s := { s with clock := { s.clock with tb := fineOf s.lt, tbFrac := 0 } }
  each (0 :: s.sites) (fun s d => s.setDie d { s.die d with tbErr := 0 }) s

/-- A loop that has locked (R375). -/
def lockedLoop : Loop := { state := 2 }

/-- Return to RUN from STANDBY (R406): the loops lock, the time bases load, admission runs. In RUN it takes back a
request of STANDBY that has not been carried out. -/
def State.leaveStandby (s : State) : State :=
  if s.rd 0x1200 1 dev = 3 then
    let s := { s with clock := { s.clock with core := lockedLoop } }
    let s := each (0 :: s.sites) (fun s d => s.setDie d { s.die d with loop := lockedLoop }) s
    let s := s.loadTimeBases.wr 0x1200 1 dev 1
    let s := each s.sites (fun s n => if s.rd 0x1200 1 (siteI n) = 3 then s.wr 0x1200 1 (siteI n) 1 else s) s
    each (0 :: s.sites) (fun s d => s.admitRestored d) { s with standbyDue := 0 }
  else { s with standbyDue := 0 }

end Sys2Proof.Machine
end

