-- ==== Sys2Proof/Machine/Recipe.lean ====
section
/-! DEFINITION. Recipes, runs and milestones (chapter 6). A gang runs through its master; its slaves carry the
master's run state. -/

namespace Sys2Proof.Machine

/-! ## Rows and conditions (R167 to R171) -/

/-- The fields of a row's mode and flags word, and of subentry 5. -/
def rowMode (w : Nat) : Nat := w / 2 ^ 28 % 16
def rowGsync (w : Nat) : Bool := bit w 27
def rowDrain (w : Nat) : Nat := w / 2 ^ 16 % 1024
def rowLci (w : Nat) : Nat := w / 2 ^ 8 % 256
def rowLcs (w : Nat) : Nat := w / 2 ^ 6 % 4
def rowRamp (w5 : Nat) : Nat := w5 / 2 ^ 16 % 65536
def rowRate (w5 : Nat) : Nat := w5 / 2 ^ 12 % 16

/-- A condition word with its threshold (R171). -/
structure Cond where
  qty : Nat
  cmp : Nat
  hold : Nat
  act : Nat
  arg : Nat
  next : Nat
  thr : Nat
  deriving DecidableEq, Repr

/-- Condition `k` (1 to 3) of a row. -/
def State.cond (s : State) (c r k : Nat) : Cond :=
  let w := s.row c r (4 + 2 * k)
  { qty := w / 2 ^ 27 % 32, cmp := w / 2 ^ 24 % 8, hold := w / 2 ^ 16 % 256, act := w / 2 ^ 13 % 8,
    arg := w / 2 ^ 10 % 8, next := w % 1024, thr := s.row c r (5 + 2 * k) }

/-- A word as a signed 32-bit field. -/
def s32 (w : Nat) : Int := (BitVec.ofNat 32 w).toInt

/-- A condition obeys R171 at a row. -/
def Cond.ok (q : Cond) (r : Nat) : Bool :=
  if q.qty = 0 then q.cmp == 0 && q.hold == 0 && q.act == 0 && q.arg == 0 && q.next == 0 && q.thr == 0
  else decide (q.qty ≤ 13) && decide (q.cmp ≤ 5) && decide (1 ≤ q.hold) && decide (q.act ≤ 4) &&
    (match q.act with
     | 1 => decide (q.arg ≤ 3) && decide (r ≠ 1023)
     | 4 => q.next == 0
     | 3 => q.arg == 0 && q.next == 0
     | _ => q.arg == 0)

/-- The control fields of a row lie in the ranges of R136 and R137. -/
def State.fieldsOk (s : State) (c r mode : Nat) : Bool :=
  let w5 := s.row c r 5
  let f4 := s.row c r 4
  let sp2 := s.row c r 2
  decide (1 ≤ rowRamp w5) && decide (rowRamp w5 ≤ 10000) &&
    (match mode with
     | 5 => decide (0 < f4)
     | 9 => decide (1 ≤ sp2 / 2 ^ 24) && decide (sp2 / 2 ^ 24 ≤ 20) && decide (50 ≤ sp2 % 2 ^ 24) &&
        decide (sp2 % 2 ^ 24 ≤ 2000000) && decide (10 ≤ f4 / 2 ^ 24) && decide (f4 / 2 ^ 24 ≤ 100) &&
        decide (50 ≤ f4 % 2 ^ 24) && decide (f4 % 2 ^ 24 ≤ 2000000)
     | _ => true)

/-- A row passes the validation of R184. -/
def State.rowOk (s : State) (c r : Nat) : Bool :=
  let w := s.row c r 0
  let w5 := s.row c r 5
  let m := rowMode w
  m != 0 && s.rdN 0x2511 (m + 1) c != 255 && !bit w 26 && w % 64 == 0 &&
    decide (2 ≤ rowDrain w) && w5 % 4096 == 0 && decide (rowRate w5 ≤ 10) &&
    s.fieldsOk c r m && [1, 2, 3].all fun k => (s.cond c r k).ok r

/-- The rows a row leads to (R184): NEXT of a NEXT, LOOP or HOLD condition, and row + 1 of a LOOP condition. -/
def State.leadsTo (s : State) (c r : Nat) : List Nat :=
  [1, 2, 3].flatMap fun k =>
    let q := s.cond c r k
    if q.qty = 0 then []
    else match q.act with
      | 0 | 2 => [q.next]
      | 1 => if r < 1023 then [q.next, r + 1] else [q.next]
      | _ => []

/-- The rows reachable from a list, within so many rounds. -/
def State.reach (s : State) (c : Nat) : Nat → List Nat → List Nat → List Nat
  | 0, _, seen => seen
  | _ + 1, [], seen => seen
  | n + 1, r :: todo, seen =>
    if seen.contains r then s.reach c n todo seen
    else s.reach c n (todo ++ s.leadsTo c r) (seen ++ [r])

/-- The lowest row reachable from the start row that fails validation (R184). Each of at most 1,024 rows leads to at
most six. -/
def State.firstInvalid (s : State) (c : Nat) : Option Nat :=
  let bad := (s.reach c 7169 [s.rdN 0x2401 2 c] []).filter fun r => !s.rowOk c r
  bad.min?

/-! ## Starting steps (R186, R190, R192 to R198) -/

/-- Set the run state of a channel and of the slaves of its gang. -/
def State.setRun (s : State) (c : Nat) (v : Nat) : State := each (s.gang c) (fun s m => s.wr 0x2402 1 m v) s

/-- The run record of a channel. -/
def State.run (s : State) (c : Nat) : RunSt := (s.chan c).run
def State.setRunSt (s : State) (c : Nat) (r : RunSt) : State := let x := s.chan c; s.setChan c { x with run := r }

/-- The first release instant of a slot at or after an LT (R111), as LT. -/
def State.releaseFrom (s : State) (die k lt : Nat) : Nat :=
  let l := max (s.loopL die k) 1
  gridAt l (s.slotPhi die k + (s.slot die k).offset) ((lt * 8 + 24) / 25) * 25 / 8

/-- A channel's group, when it has one and is not detached (R193, R195). -/
def State.groupOf (s : State) (c : Nat) : Option Nat :=
  let g := s.rdN 0x2404 1 c
  if g ≤ 127 ∧ s.rd 0x2404 2 c = 0 then some g else none

/-- The row starts at a group milestone of the channel's group (R193). -/
def State.gsync (s : State) (c r : Nat) : Bool := rowGsync (s.row c r 0) && (s.groupOf c).isSome

/-- The state a step begins from: word 4 of its slots at 65,536, its law state and hold counters empty (R174, R190). -/
def State.freshSlot (s : State) (c : Nat) : State :=
  let s := s.setWord4 c 65536
  let ch := s.chan c
  s.setChan c { ch with law := { vLast := ch.law.vLast, iLast := ch.law.iLast, tLast := ch.law.tLast } }

/-- A step of a channel begins at a row with a step-time origin (R192): the counters of the row are loaded (R168), the
hub queues STEP_START for the QM (R207), and a switching step's output is started (R79). -/
def State.beginStep (s : State) (c r origin : Nat) : State :=
  let w := s.row c r 0
  let w5 := s.row c r 5
  let die := dieOf c
  let idx := s.rdN 0x2402 5 c + 1
  let s := s.setRun c 2
  let s := (((s.wr 0x2402 2 c r).wr 0x2402 5 c idx).wr 0x2402 6 c origin).wr 0x2402 7 c 0
  let s := ((s.wr 0x2403 6 c 0).wr 0x2403 7 c 0).wr 0x2444 7 c 0
  let s := if rowLci w = 0 then s else s.wr 0x2403 (rowLcs w + 1) c (rowLci w)
  let s := each (s.gang c) (fun s m => s.freshSlot m) s
  let s := s.setRunSt c { stepOpen := true }
  let s := s.mail (.stepStart c r idx (rowMode w) (rowRate w5) (s.gang c).length origin
    (s.releaseFrom die (localOf c) origin) (s.loopL die (localOf c)) (s.row c r 4) (s.row c r 2))
  if rowMode w = 6 then s else each (s.gang c) (fun s m => s.startUnit die (localOf m)) s

/-- A member arrives at its group's milestone and waits in run state 4 (R193). -/
def State.arrive (s : State) (c r g : Nat) : State :=
  let s := (s.setRun c 4).wr 0x2402 2 c r
  let s := s.setRunSt c { nextRow := r, arrived := some s.lt }
  let x := s.group g
  let s := s.setGroup g { x with first := some (x.first.getD s.lt), last := s.lt }
  s.wr 0x2406 (g + 1) dev 1

/-- Backpressure is in force for a channel's die (R197). -/
def State.backpressed (s : State) (c : Nat) : Bool := (s.die (dieOf c)).bp

/-- A channel goes on to a row (R192, R193, R197): held by backpressure it waits in run state 5; a group step waits for
its group; any other begins at the origin. -/
def State.goOn (s : State) (c r origin : Nat) : State :=
  if s.backpressed c then ((s.setRun c 5).wr 0x2402 2 c r).setRunSt c { nextRow := r }
  else
    match s.groupOf c with
    | some g => if rowGsync (s.row c r 0) then s.arrive c r g else s.beginStep c r origin
    | none => s.beginStep c r origin

/-- Queue a contact check on every member of a gang, in ascending order (R65, R69). -/
def State.queueCheck (s : State) (c : Nat) (g : Gate) : State :=
  each (s.gang c) (fun s m => let x := s.chan m; s.setChan m { x with queued := x.queued ++ [g] }) s

/-- A channel enters a row after a drain or a hold: a milestone contact check comes first where 0x2820.01 asks it. -/
def State.enterRow (s : State) (c r origin : Nat) : State :=
  if s.gsync c r ∧ s.rd 0x2820 1 c = 1 then
    (((s.setRun c 1).wr 0x2402 2 c r).setRunSt c { nextRow := r }).queueCheck c .milestone
  else s.goOn c r origin

/-- End the run of a channel and of the slaves of its gang. -/
def State.endGang (s : State) (c result : Nat) : State := each (s.gang c) (fun s m => s.endRun m result) s

/-! ## Run commands (R185 to R188) -/

/-- The die still scrubs its recipe store (R414). -/
def State.scrubbing (s : State) (c : Nat) : Bool := (s.die (dieOf c)).scrub

/-- The checks of a start (R184 to R186, R351, R397, R414, R557). -/
def startCheck (s : State) (c : Nat) : Nat :=
  if !s.idle c ∨ s.slave c ∨ s.scrubbing c ∨ s.rd 0x1202 5 dev = 0 ∨ s.rd 0x4036 0 c = 0 ∨
      !(s.gang c).all s.idle then aNotIdle
  else if (s.firstInvalid c).isSome then aRecipe
  else if (s.die (dieOf c)).unplanned then aNoPlan
  else aDone

/-- An accepted start (R186): loop counters 0, run state 1, the contact check of R65. -/
def startSet (s : State) (c : Nat) : State :=
  let s := s.leaveStandby.wakeDie (dieOf c) 3
  let s := (((s.wr 0x2403 1 c 0).wr 0x2403 2 c 0).wr 0x2403 3 c 0).wr 0x2403 4 c 0
  let s := ((((s.setRun c 1).wr 0x2402 2 c (s.rd 0x2401 2 c)).wr 0x2402 3 c 0).wr 0x2402 4 c 0).wr 0x2402 5 c 0
  let s := ((s.wr 0x2402 8 c 0xFFFF).wr 0x2402 9 c 0).wr 0x2404 2 c 0
  (s.setRunSt c { nextRow := s.rdN 0x2401 2 c }).queueCheck c .runStart

/-- The checks and the effect of a stop (R185, R188). -/
def stopCheck (s : State) (c : Nat) : Nat := idleOr (s.active c)

def stopSet (s : State) (c : Nat) : State :=
  let c := s.master c
  let r := s.run c
  match s.runState c with
  | 1 => s.setRunSt c { r with stopAfterCheck := true }
  | 2 => s.setRunSt c { r with winner := some ((r.winner.map (·.1)).getD 4, .hostStop) }
  | 3 => s.setRunSt c { r with winner := some ((r.winner.map (·.1)).getD 4, .hostStop) }
  | _ => s.endGang c 3

/-- The checks and the effect of a continue (R172, R185, R192, R197). -/
def continueCheck (s : State) (c : Nat) : Nat := idleOr (s.runState c == 6 && !s.slave c)

def continueSet (s : State) (c : Nat) : State :=
  let r := (s.run c).nextRow
  let s := s.wakeDie (dieOf c) 4
  s.enterRow c r (s.releaseFrom (dieOf c) (localOf c) s.lt)

/-- The channels of a range, as instances. -/
def chanRange (first last : Nat) : List Nat := instRange first last

/-- A start refused with "recipe invalid" names the lowest failing row in 0x2402.08 (R184). -/
def State.markInvalid (s : State) (cs : List Nat) : State :=
  each cs (fun s c =>
    if startCheck s c = aRecipe then s.wr 0x2402 8 c ((s.firstInvalid c).getD 0xFFFF) else s) s

def execRunStart (src : Src) (first last : Nat) (s : State) : Res :=
  let cs := chanRange first last
  let marks := (s.writeChecks src 0x2401 1 cs 1 startCheck).map (·.code) == some aRecipe && s.serves src
  .next ((when' marks (·.markInvalid cs) s).writeObj src 0x2401 1 cs 1 startCheck startSet)

def execRunStop (src : Src) (first last : Nat) (s : State) : Res :=
  .next (s.writeObj src 0x2401 1 (chanRange first last) 2 stopCheck stopSet)

def execRunContinue (src : Src) (first last : Nat) (s : State) : Res :=
  .next (s.writeObj src 0x2401 1 (chanRange first last) 3 continueCheck continueSet)

/-! ## Milestones (R190, R192, R172) -/

/-- The action of a winner after the drain: the row it names for the QM (0xFFFF none), LOOP's counter counted down. -/
def State.actRow (s : State) (c r : Nat) (a : Act) : Nat :=
  match a with
  | .next n => n
  | .hold n => n
  | .loop k n => if 1 < s.rdN 0x2403 (k + 1) c then n else r + 1
  | _ => noRow

/-- Carry out a winner's action at an LT (R172). -/
def State.doAct (s : State) (c r lt : Nat) (a : Act) : State :=
  match a with
  | .next n => s.enterRow c n lt
  | .loop k n =>
    let v := s.rdN 0x2403 (k + 1) c - 1
    (s.wr 0x2403 (k + 1) c v).enterRow c (if 0 < v then n else r + 1) lt
  | .hold n => ((s.setRun c 6).wr 0x2402 2 c n).setRunSt c { nextRow := n }
  | .ending => s.endGang c 1
  | .abort code => (s.wr 0x2402 4 c code).endGang c 2
  | .hostStop => s.endGang c 3

/-- Steps 3 to 5 of R190 and the action: discard, drop, close at an LT, then go on. -/
def State.milestone (s : State) (c lt : Nat) : State :=
  match (s.run c).winner with
  | none => s
  | some (n, a) =>
    let die := dieOf c
    let r := s.rdN 0x2402 2 c
    let s := each (s.gang c) (fun s m =>
      (((s.dropJobs die (localOf m)).discardSlot die (localOf m)).freshSlot m).wr 0x2444 1 m 0) s
    let s := s.wr 0x2402 9 c n
    let s := s.closeStep c (s.actRow c r a) (if n = 4 then 1 else 0) lt
    s.doAct c r lt a

/-- MILESTONE_CLOSE (R190): the drain ends at its stop boundary, or at the release after a rest step. -/
def execMilestoneClose (c : Nat) (s : State) : Res := .next <|
  let r := s.run c
  if !s.chanPop c then s
  else
    match r.closeLt with
    | some t => s.milestone c t
    | none =>
      if r.stopping ∧ (s.gang c).all (fun m => !(s.unit (dieOf c) (localOf m)).running) then
        s.milestone c ((s.unit (dieOf c) (localOf c)).boundary * 25 / 8)
      else s

/-! ## Groups (R193 to R198) -/

/-- The members of a group with an active run that are not detached nor on a lost site (R512), and those that have not
arrived. -/
def State.members (s : State) (g : Nat) : List Nat :=
  s.channels.filter fun c => s.groupOf c == some g && s.active c && !s.slave c &&
    s.rd 0x1200 1 (siteI (dieOf c)) != 7
def State.missing (s : State) (g : Nat) : List Nat :=
  (s.members g).filter fun c => (s.run c).arrived.isNone

/-- The epoch period in ns (R389), and the first epoch at or after an LT. -/
def State.epochNs (s : State) : Nat := 100000 * s.rdN 0x1101 1 dev
def State.epochFrom (s : State) (lt : Nat) : Nat :=
  let t := max s.epochNs 1
  (lt + t - 1) / t * t

/-- A group's common start falls due at an epoch. -/
def State.setDue (s : State) (g e : Nat) : State :=
  let x := s.group g
  ((s.setGroup g { x with due := some e }).wr 0x2406 (g + 1) dev 2).wr 0x2407 (g + 1) dev e

/-- The coordinator's check of a group at a carrier epoch (R194): a group with no arrival left waits no more; a
complete one starts at the first epoch at least 200 µs after the last arrival, while no backpressure holds (R198). -/
def State.groupCheck (s : State) (g : Nat) : State :=
  let x := s.group g
  let arrived := (s.members g).filter fun c => (s.run c).arrived.isSome
  if x.first.isNone then s
  else if arrived.isEmpty then (s.setGroup g {}).wr 0x2406 (g + 1) dev 0
  else if (s.missing g).isEmpty ∧ x.due.isNone ∧ !(s.rd 0x2408 0 dev == 1) then
    s.setDue g (s.epochFrom (max (x.last + 200000) s.lt))
  else s

/-- GROUP_WAIT_LIMIT (R194, R195): at an epoch beyond the limit the members that have not arrived are detached. While
backpressure holds, no start is due (R198). -/
def execGroupWaitLimit (g : Nat) (s : State) : Res := .next <|
  let x := s.group g
  let limit := s.rdN 0x2405 (g + 1) dev
  match x.first with
  | some t =>
    if limit ≠ 0 ∧ t + limit * 1000000 < s.clock.lastEpoch ∧ x.due.isNone ∧ !(s.missing g).isEmpty ∧ s.rd 0x2408 0 dev ≠ 1 then
      let s := each (s.missing g) (fun s c =>
        (s.wr 0x2404 2 c 1).noteAt (dieOf c) c 0x2007 (leNat 1 g)) s
      s.setDue g (s.epochFrom (max (t + limit * 1000000 + 200000) s.lt))
    else s
  | none => s

/-- GROUP_START (R196, R198): at E_start every waiting member begins its row; under backpressure they return to run
state 5 and a new E_start follows the release. -/
def execGroupStart (g : Nat) (s : State) : Res := .next <|
  match (s.group g).due with
  | some e =>
    if e ≤ s.lt then
      let ms := (s.members g).filter fun c => (s.run c).arrived.isSome
      let s := each ms (fun s c => s.wakeDie (dieOf c) 4) s
      let s := (s.setGroup g {}).wr 0x2406 (g + 1) dev 0
      if s.rd 0x2408 0 dev = 1 then
        each ms (fun s c => (s.setRun c 5).setRunSt c { nextRow := (s.run c).nextRow }) s
      else each ms (fun s c => s.beginStep c (s.run c).nextRow e) s
    else s
  | none => s

/-! ## Metrology backpressure (R197, R198) -/

/-- The hub relays an assertion to every die. -/
def State.relayBackpressure (s : State) (on : Bool) : State :=
  each s.sites (fun s n => let d := s.die n; s.setDie n { d with bp := on }) (s.wr 0x2408 0 dev (b2i on))

/-- A channel held in run state 5 goes on at its first release after the release of backpressure. -/
def State.resumeHeld (s : State) (c : Nat) : State :=
  if s.runState c = 5 ∧ !s.slave c then
    (s.wakeDie (dieOf c) 4).goOn c (s.run c).nextRow (s.releaseFrom (dieOf c) (localOf c) s.lt)
  else s

/-- Backpressure asserted or released at the dies (R197, R198). -/
def State.backpressure (s : State) (on : Bool) : State :=
  let s := s.relayBackpressure on
  if on then s else each s.channels (fun s c => s.resumeHeld c) s

/-! ## Recipe loads (R181 to R183) -/

/-- The octets of one row of a channel, and of all its rows. -/
def State.rowBytes (s : State) (c r : Nat) : List Byte := (List.range 12).flatMap fun n => leNat 4 (s.row c r n)

/-- The recipe CRC of a channel (R183). -/
def State.recipeCrc (s : State) (c : Nat) : Nat := crc32 ((List.range 1024).flatMap (s.rowBytes c))

/-- The checks of a recipe load (R182): length, place, no active run. -/
def recipeLength (n : Nat) : Nat := if n % 48 = 0 ∧ 48 ≤ n ∧ n ≤ 49152 then aDone else aLength
def recipeCheck (n : Nat) (s : State) (c : Nat) : Nat :=
  if recipeLength n ≠ 0 then aLength
  else if 1024 < s.rdN 0x2400 2 c + n / 48 then aRange
  else idleOr (!s.active c)

/-- Write whole rows from the base row (R181). -/
def recipeSet (b : List Byte) (s : State) (c : Nat) : State :=
  let base := s.rdN 0x2400 2 c
  each (List.range (b.length / 48)) (fun s r =>
    each (List.range 12) (fun s n => s.wr (0x2000 + base + r) (n + 1) c (fieldAt b (48 * r + 4 * n) 4)) s) s

/-- RECIPE_LOAD: the content checks of R182, for every channel of the range or none (R183). -/
def execRecipeLoad (src : Src) (first last : Nat) (b : List Byte) (s : State) : Res :=
  .next (s.writeBlob src 0x2400 1 (chanRange first last) b (recipeCheck b.length) (recipeSet b))

end Sys2Proof.Machine
end

