-- ==== Sys2Proof/Machine/Contact.lean ====
section
/-! DEFINITION. The contact check (R65 to R69): queueing, its 900 µs sequence, classification, and what the checks
that gate a start do. -/

namespace Sys2Proof.Machine

/-! ## The check -/

/-- Both gates of a channel are off. -/
def State.gatesAreOff (s : State) (c : Nat) : Bool := !(s.chan c).slice.hg && !(s.chan c).slice.lg

/-- CHECK_NOW is refused while the channel is not idle or resting, or a check of it is queued or runs (R65). -/
def checkNowCheck (s : State) (c : Nat) : Nat :=
  idleOr ((s.idle c || s.resting c) && (s.chan c).check.isNone && (s.chan c).queued.isEmpty)

def checkNowSet (s : State) (c : Nat) : State := (s.wakeDie (dieOf c) 3).queueCheck c .host

def execCheckNow (src : Src) (c v : Nat) (s : State) : Res :=
  .next (s.writeObj src 0x2820 2 [c] v checkNowCheck checkNowSet)

/-- A member of the gang has a check for this gate queued, or under way. -/
def State.hasCheck (s : State) (m : Nat) (g : Gate) : Bool :=
  (s.chan m).queued.contains g || (s.chan m).check.any fun k => k.gate == g

/-- A check of the gang comes first: one of a lower member (R69: ascending order), or a host's check of any member, which
a required check waits for as a whole (R65). -/
def State.checkFirst (s : State) (c : Nat) (g : Gate) : Bool :=
  (s.gang c).any fun m => (decide (m < c) && s.hasCheck m g) || (g != .host && s.hasCheck m .host)

/-- CONTACT_CHECK_START (R66): the unit is free, both gates are off, and the check takes it; what the slice had still to
carry out is dropped. -/
def execContactCheckStart (c : Nat) (s : State) : Res := .next <|
  let ch := s.chan c
  let a := s.adc (dieOf c) (quadOf c)
  match ch.queued with
  | g :: gs =>
    if s.chanPop c ∧ ch.check.isNone ∧ a.checking.isNone ∧ a.diagUntil.isNone ∧ s.gatesAreOff c ∧ !s.checkFirst c g then
      (s.setChan c { ch with check := some ⟨g, 0, s.lt, []⟩, queued := gs, slice := ch.slice.cut }).setAdc (dieOf c) (quadOf c)
        { a with checking := some (localOf c) }
    else s
  | [] => s

/-- The ends of the four averages of R66, in ns from the start of the check. -/
def checkTimes : List Nat := [220000, 440000, 660000, 880000]

/-- The average of conversions of a channel's voltage, in µV. -/
def State.averageV (s : State) (c : Nat) (codes : List Nat) : Int :=
  wholeOf (s.pathUv 0 c ((codes.sum : Nat) / max codes.length 1))

/-- CONTACT_CHECK_PHASE (R66): an average over 32 samples ends and its reading is kept. -/
def execContactCheckPhase (c : Nat) (codes : List Nat) (s : State) : Res := .next <|
  let ch := s.chan c
  match ch.check with
  | some k =>
    match checkTimes[k.phase]? with
    | some t =>
      if k.start + t ≤ s.lt then
        s.setChan c { ch with check := some { k with phase := k.phase + 1, v := k.v ++ [s.averageV c codes] } }
      else s
    | none => s
  | none => s

/-- The class of four readings in µV and the zero window (R67): the first matching row, on exact values.
Rt < x ohm reads 10 × (V3 − V1) < 99 × x × 1000; abs(E) ≤ 20 mV reads abs(11 (V2 − V1) − (V3 − V1)) ≤ 220,000. -/
def classify (v0 v1 v2 v3 zero : Int) : Nat :=
  let d := v3 - v1
  let lin := decide ((11 * (v2 - v1) - d).natAbs ≤ 220000)
  let rt (ohm : Int) := decide (10 * d < 99000 * ohm)
  if 5750000 < v0 then 4
  else if v0 < -600000 ∧ rt 10 ∧ lin then 5
  else if 5500000 ≤ v1 then 2
  else if (v0.natAbs : Int) ≤ zero ∧ rt 2 ∧ lin then 3
  else if -600000 ≤ v0 ∧ v0 ≤ 5500000 ∧ rt 10 ∧ lin then 1
  else 6

/-- The apparent resistance shown in 0x2820.08, in mΩ: 0 when the rounded value is 0 or negative, all ones at
compliance (6.0 V). -/
def shownRt (v1 v3 : Int) : Int :=
  if 6000000 ≤ v3 then 0xFFFFFFFF else max 0 (divRound (10 * (v3 - v1)) 99)

/-- Write a channel's class and readings (R66). -/
def State.writeCheck (s : State) (c cls : Nat) (v : List Int) : State :=
  let s := (((s.wr 0x2820 3 c cls).wr 0x2820 4 c (v.getD 0 0)).wr 0x2820 5 c (v.getD 1 0)).wr 0x2820 6 c (v.getD 2 0)
  ((s.wr 0x2820 7 c (v.getD 3 0)).wr 0x2820 8 c (shownRt (v.getD 1 0) (v.getD 3 0))).wr 0x2820 0xA c s.lt

/-- A channel's own class and V0 at its latest check for a gate. -/
def State.ownResult (s : State) (c : Nat) (g : Gate) : Nat × Int :=
  (((s.chan c).own.find? fun x => x.1 == g).map fun x => x.2).getD (0, 0)

/-- Keep a channel's own result for a gate. -/
def Chan.keepOwn (x : Chan) (g : Gate) (cls : Nat) (v0 : Int) : Chan :=
  { x with own := (g, cls, v0) :: x.own.filter fun y => y.1 != g }

/-- The class of a gang at a check (R69): 1 when every member's class is 1 and their V0 lie within 5 mV of one another,
else 6. -/
def State.gangClass (s : State) (c : Nat) (g : Gate) : Nat :=
  let rs := (s.gang c).map fun m => s.ownResult m g
  if rs.length = 1 then (s.ownResult c g).1
  else if rs.all (fun r => r.1 == 1) ∧ rs.all (fun a => rs.all fun b => decide (a.2 - b.2 ≤ 5000)) then 1
  else 6

/-- A member of the gang still has a check with this gate queued or running. -/
def State.checkPending (s : State) (c : Nat) (g : Gate) : Bool := (s.gang c).any fun m => s.hasCheck m g

/-- A check that gates a start has its result (R68, R186, R188): class 1 lets the channel go on; any other class ends
the run with result 5 and writes entry 0x2002; a stop that waited ends it with result 3. -/
def State.gateResult (s : State) (m cls : Nat) (g : Gate) : State :=
  match g with
  | .host => s
  | _ =>
    if s.runState m ≠ 1 then s
    else if (s.run m).stopAfterCheck then s.endGang m 3
    else if cls = 1 then s.goOn m (s.run m).nextRow s.lt
    else (s.noteAt (dieOf m) m 0x2002 (leNat 1 cls ++ leNat 3 0 ++ leInt 4 (s.rd 0x2820 4 m))).endGang m 5

/-- The result of a check at its 900 µs: class and readings are written, the unit is free; when it was the gang's last,
the gang's class stands in the master's 0x2820.03 and gates the start. -/
def State.checkResult (s : State) (c : Nat) (k : Check) : State :=
  let ch := s.chan c
  let a := s.adc (dieOf c) (quadOf c)
  let cls := classify (k.v.getD 0 0) (k.v.getD 1 0) (k.v.getD 2 0) (k.v.getD 3 0) (s.rd 0x2820 9 c)
  let s := (s.setChan c { (ch.keepOwn k.gate cls (k.v.getD 0 0)) with check := none }).setAdc (dieOf c) (quadOf c)
    { a with checking := none }
  let s := s.writeCheck c cls k.v
  if s.checkPending c k.gate then s
  else
    let m := s.master c
    let cls := s.gangClass m k.gate
    (s.wr 0x2820 3 m cls).gateResult m cls k.gate

/-- CONTACT_CHECK_RESULT (R66 to R69): 900 µs after its start. -/
def execContactCheckResult (c : Nat) (s : State) : Res := .next <|
  match (s.chan c).check with
  | some k => if k.phase = 4 ∧ k.start + 900000 ≤ s.lt then s.checkResult c k else s
  | none => s

end Sys2Proof.Machine
end

