-- ==== Sys2Proof/Machine/MicroOps.lean ====
section
/-! DEFINITION. The micro-ops of a loop job (R115 to R121) and the termination conditions that TRM evaluates (R171 to
R177). A micro-op command runs when the descriptor's word that its engine comes to spells it. -/

namespace Sys2Proof.Machine

/-! ## Samples and terminations -/

/-- The entry of a slot's sample set under a tag; an unused tag is stale (R112). -/
def Slot.sample (x : Slot) (tag : Nat) : Sample := (x.samples.find? fun e => e.tag == tag).getD ⟨tag, 0, false⟩

/-- The channel of a slot, when it is one. -/
def chanSlot (die k : Nat) : Option Nat := if die ≠ 0 ∧ k < 64 then some (chanOf die k) else none

/-- The tags a quantity depends on (R172). -/
def qtyTags (q : Nat) : List Nat :=
  match q with
  | 2 | 12 => [0]
  | 3 | 4 | 6 => [1]
  | 5 => [2]
  | 7 | 10 => [0, 1]
  | 8 => [5]
  | 9 => [6]
  | _ => []

/-- A quantity of the channel's current step in its threshold's unit (R172); none before a handover (quantity 11). -/
def State.quantity (s : State) (c : Nat) (q : Nat) : Option Rat :=
  let x := s.slot (dieOf c) (localOf c)
  let v := (x.sample 0).value
  let i := (x.sample 1).value
  let law := (s.chan c).law
  match q with
  | 1 => some (((x.releaseLt : Int) - s.rd 0x2402 6 c).toNat / 1000000 : Nat)
  | 2 => some v
  | 3 => some i
  | 4 => some (i.natAbs : Int)
  | 5 => some (x.sample 2).value
  | 6 => some (law.charge * 1000000 / 3600)
  | 7 => some (law.energy * 1000 / 3600)
  | 8 => some (x.sample 5).value
  | 9 => some (x.sample 6).value
  | 10 => some ((v * i : Int) / 100000000)
  | 11 => if law.handed then some ((x.releaseLt - law.handLt) / 1000000 : Nat) else none
  | 12 => if law.fresh = 0 then none else some (v - (law.v0 * 1000000))
  | 13 => some (s.rd 0x2403 5 c)
  | _ => none

/-- A quantity meets a comparator (R172). -/
def meets (cmp : Nat) (a b : Rat) : Bool :=
  match cmp with
  | 0 => decide (b ≤ a)
  | 1 => decide (b < a)
  | 2 => decide (a ≤ b)
  | 3 => decide (a < b)
  | 4 => decide (a = b)
  | _ => decide (a ≠ b)

/-- Quantities whose threshold is unsigned, and that ignore HOLD (R172, R174). -/
def qtyPlain (q : Nat) : Bool := q == 1 || q == 11 || q == 13

/-- The evaluation of one condition: its new hold count and whether it is met (R174, R175). -/
def State.evalCond (s : State) (c k : Nat) (held : Nat) : Nat × Bool :=
  let q := s.cond c (s.rdN 0x2402 2 c) k
  let x := s.slot (dieOf c) (localOf c)
  if q.qty = 0 then (held, false)
  else if (qtyTags q.qty).any (fun t => !(x.sample t).fresh) then (held, false)
  else
    let thr : Int := if qtyPlain q.qty then q.thr else s32 q.thr
    let met := (s.quantity c q.qty).any fun v => meets q.cmp v thr
    if qtyPlain q.qty then (held, met)
    else
      let n := if met then held + 1 else 0
      (n, met && n == q.hold)

/-- The action of a condition (R172). -/
def Cond.action (q : Cond) : Act :=
  match q.act with
  | 0 => .next q.next
  | 1 => .loop q.arg q.next
  | 2 => .hold q.next
  | 3 => .ending
  | _ => .abort q.arg

/-- Exactly one of the met conditions wins (R176): the lowest that is not on quantity 1 or 11, else the lowest. -/
def winnerOf (met : List (Nat × Nat)) : Option Nat :=
  match met.find? (fun m => m.2 != 1 && m.2 != 11) with
  | some m => some m.1
  | none => (met.head?).map (·.1)

/-- The three conditions of the current step as this job finds them: number, hold count, met (R173). -/
def State.condResults (s : State) (c : Nat) : List (Nat × Nat × Bool) :=
  let held := (s.chan c).run.holds
  [1, 2, 3].map fun k => (k, s.evalCond c k (held.getD (k - 1) 0))

/-- TRM (R173 to R177): the three conditions are evaluated in every job; the winner's action goes to the sequencer, and
a step that has a winner ignores further results. -/
def State.trm (s : State) (c : Nat) : State :=
  let rs := s.condResults c
  let row := s.rdN 0x2402 2 c
  let met := (rs.filter (fun x => x.2.2)).map (fun x => (x.1, (s.cond c row x.1).qty))
  let r := { (s.chan c).run with holds := rs.map fun (x : Nat × Nat × Bool) => x.2.1 }
  match r.winner, winnerOf met with
  | none, some k => s.setRunSt c { r with winner := some (k, (s.cond c row k).action) }
  | _, _ => s.setRunSt c r

/-! ## The micro-ops -/

/-- The cycles of each opcode (R116). -/
def opCycles (op : Nat) : Nat :=
  [1, 3, 3, 1, 1, 1, 1, 1, 1, 1, 2, 2, 1, 1, 1, 1, 2, 1, 4, 10, 6, 12, 16, 1, 1, 24, 2, 2, 4, 2, 3, 2].getD op 0

/-- The fields of a micro-op word (R115). -/
def opOf (w : Word) : Nat := w.toNat / 2 ^ 27
def opD (w : Word) : Nat := w.toNat / 2 ^ 24 % 8
def opA (w : Word) : Nat := w.toNat / 2 ^ 21 % 8
def opB (w : Word) : Nat := w.toNat / 2 ^ 18 % 8
def opF (w : Word) : Nat := w.toNat % 2 ^ 18

/-- The micro-op that a word spells on an engine (R115, R116): each names only the fields of its row. -/
def microOf (die e : Nat) (w : Word) : Instr :=
  let d := opD w
  let a := opA w
  let b := opB w
  let f := opF w
  match opOf w with
  | 0x00 => .nop die e
  | 0x01 => .lds die e d (f % 16)
  | 0x02 => .ldp die e d (f % 16)
  | 0x03 => .ldw die e d (f % 64)
  | 0x04 => .stw die e a (f % 64)
  | 0x05 => .ldi die e d (w.setWidth 24)
  | 0x06 => .ldh die e d (w.setWidth 16)
  | 0x07 => .mov die e d a
  | 0x08 => .add die e d a b
  | 0x09 => .sub die e d a b
  | 0x0A => .mul die e (d % 2) a b
  | 0x0B => .mac die e (d % 2) a b
  | 0x0C => .acc die e (d % 2) a
  | 0x0D => .sta die e d (b % 2)
  | 0x0E => .min die e d a b
  | 0x0F => .max die e d a b
  | 0x10 => .lim die e d a (f % 64)
  | 0x11 => .shf die e d a (w.setWidth 6)
  | 0x12 => .flt die e d a (f % 64)
  | 0x13 => .bqd die e d a (f % 64)
  | 0x14 => .pi die e d a (f % 64)
  | 0x15 => .div die e d a b
  | 0x16 => .crv die e d a (f % 64)
  | 0x17 => .cmp die e a b
  | 0x18 => .br die e d (f % 4096)
  | 0x19 => .trm die e
  | 0x1A => .edg die e d a
  | 0x1B => .cmt die e
  | 0x1C => .lat die e (f % 65536)
  | 0x1D => .pub die e a (f % 16)
  | 0x1E => .ldg die e d (f % 16)
  | _ => .yld die e

/-- The micro-op word that an engine's job comes to next (R115, R125): none without a custom descriptor's job, or once YLD
or LAT has ended it. -/
def State.fetched (s : State) (die e : Nat) : Option (RunJob × Word) :=
  let x := s.eng die e
  match x.job with
  | some j => if x.ended then none else ((s.desc die j.desc).ops[x.pc]?).map fun w => (j, w)
  | none => none

/-- Carry out a micro-op: it runs when the engine's job comes to a word that spells it. Its cycles are counted, and a job
whose cycles pass its W carries nothing more out (R116, R124). -/
def State.micro (s : State) (die e : Nat) (i : Instr) (f : State → Engine → RunJob → State) : State :=
  match s.fetched die e with
  | some (j, w) =>
    if microOf die e w = i then
      let x := s.eng die e
      let n := x.cycles + opCycles (opOf w)
      if (s.desc die j.desc).w < n then s.setEng die e { x with cycles := n }
      else f s { x with cycles := n, pc := x.pc + 1 } j
    else s
  | none => s

/-- Working registers. -/
def Engine.reg (x : Engine) (r : Nat) : Int := look 0 x.w r
def Engine.setReg (x : Engine) (r : Nat) (v : Int) : Engine := { x with w := put x.w r v }

/-- The job's local state words. -/
def Engine.word (x : Engine) (k : Nat) : Int := look 0 x.words k
def Engine.setWord (x : Engine) (k : Nat) (v : Int) : Engine := { x with words := put x.words k v }

/-- A 32-bit result with its saturation (R117). -/
def Engine.result (x : Engine) (d : Nat) (v : Int) : Engine :=
  { (x.setReg d (sat32 v)) with flags := x.flags.sat v (sat32 v) }

/-- The accumulators. -/
def Engine.acc (x : Engine) (k : Nat) : Int := if k = 0 then x.acc0 else x.acc1
def Engine.setAcc (x : Engine) (k : Nat) (v : Int) : Engine :=
  let x := { x with flags := x.flags.sat v (satAcc v) }
  if k = 0 then { x with acc0 := satAcc v } else { x with acc1 := satAcc v }

/-- A state word kept saturated (R117). -/
def Engine.keepWord (x : Engine) (k : Nat) (v : Int) : Engine :=
  { (x.setWord k (sat32 v)) with flags := x.flags.sat v (sat32 v) }

/-- A micro-op on the engine's own registers alone. -/
def State.alu (s : State) (die e : Nat) (i : Instr) (f : Engine → Engine) : State :=
  s.micro die e i fun s x _ => s.setEng die e (f x)

def execNop (die e : Nat) (s : State) : Res := .next (s.alu die e (.nop die e) id)

/-- LDS: the sample under a tag; ST when stale, and for tag 4 SLO and SHI from the word (R116). -/
def execLds (die e d tag : Nat) (s : State) : Res := .next <|
  s.micro die e (.lds die e d tag) fun s x j =>
    let a := (s.slot die j.slot).sample tag
    let fl := if a.fresh then x.flags else { x.flags with st := true }
    let word := (a.value % 4294967296).toNat
    let fl := if tag = 4 then { fl with slo := bit word 31, shi := bit word 30 } else fl
    let s := if a.fresh then s else
      let y := s.slot die j.slot
      s.setSlot die j.slot { y with staleReads := y.staleReads + 1 }
    s.setEng die e { (x.setReg d (wrap32 a.value)) with flags := fl }

/-- LDP: subentry n of the slot's current step row; a slot that has no row reads a free value (log 9). -/
def execLdp (die e d n : Nat) (s : State) : Res := .next <|
  s.micro die e (.ldp die e d n) fun s x j =>
    match chanSlot die j.slot with
    | some c => s.setEng die e (x.setReg d (s32 (s.rowNow c n)))
    | none => s.draw.setEng die e (x.setReg d (wrap32 (Config.freeInt s.free)))

def execLdw (die e d w : Nat) (s : State) : Res := .next (s.alu die e (.ldw die e d w) fun x => x.setReg d (x.word w))

/-- STW: words 0 to 7 belong to the die and are never written (R114). -/
def execStw (die e a w : Nat) (s : State) : Res :=
  .next (s.alu die e (.stw die e a w) fun x => if 8 ≤ w then x.setWord w (x.reg a) else x)

def execLdi (die e d : Nat) (imm : BitVec 24) (s : State) : Res := .next (s.alu die e (.ldi die e d imm) fun x => x.setReg d imm.toInt)

def execLdh (die e d : Nat) (imm : BitVec 16) (s : State) : Res := .next <|
  s.alu die e (.ldh die e d imm) fun x =>
    x.setReg d (imm ++ (BitVec.ofInt 16 (x.reg d)) : BitVec 32).toInt

def execMov (die e d a : Nat) (s : State) : Res := .next (s.alu die e (.mov die e d a) fun x => x.setReg d (x.reg a))
def execAdd (die e d a b : Nat) (s : State) : Res := .next (s.alu die e (.add die e d a b) fun x => x.result d (x.reg a + x.reg b))
def execSub (die e d a b : Nat) (s : State) : Res := .next (s.alu die e (.sub die e d a b) fun x => x.result d (x.reg a - x.reg b))

def execMul (die e acc a b : Nat) (s : State) : Res :=
  .next (s.alu die e (.mul die e acc a b) fun x => x.setAcc acc (mulQ (x.reg a) (x.reg b)))

def execMac (die e acc a b : Nat) (s : State) : Res :=
  .next (s.alu die e (.mac die e acc a b) fun x => x.setAcc acc (x.acc acc + mulQ (x.reg a) (x.reg b)))

def execAcc (die e acc a : Nat) (s : State) : Res := .next (s.alu die e (.acc die e acc a) fun x => x.setAcc acc (x.reg a))
def execSta (die e d acc : Nat) (s : State) : Res := .next (s.alu die e (.sta die e d acc) fun x => x.result d (x.acc acc))

def execMin (die e d a b : Nat) (s : State) : Res :=
  .next (s.alu die e (.min die e d a b) fun x => x.setReg d (if x.reg a ≤ x.reg b then x.reg a else x.reg b))

def execMax (die e d a b : Nat) (s : State) : Res :=
  .next (s.alu die e (.max die e d a b) fun x => x.setReg d (if x.reg a ≤ x.reg b then x.reg b else x.reg a))

def execLim (die e d a w : Nat) (s : State) : Res := .next <|
  s.alu die e (.lim die e d a w) fun x =>
    { (x.setReg d (clampI (x.word w) (x.word (w + 1)) (x.reg a))) with
      flags := x.flags.lim (x.word w) (x.word (w + 1)) (x.reg a) }

def execShf (die e d a : Nat) (n : BitVec 6) (s : State) : Res :=
  .next (s.alu die e (.shf die e d a n) fun x => x.result d (shiftBy (x.reg a) n.toInt))

/-- FLT: s + 1 moves toward A by the fraction s / 65,536; D takes it. -/
def execFlt (die e d a w : Nat) (s : State) : Res := .next <|
  s.alu die e (.flt die e d a w) fun x =>
    let y := x.word (w + 1) + mulQ (x.reg a - x.word (w + 1)) (x.word w)
    (x.keepWord (w + 1) y).setReg d (sat32 y)

/-- BQD: the output and both states, whose recurrence the manual does not state (log 9), kept saturated. -/
def execBqd (die e d a w : Nat) (s : State) : Res := .next <|
  s.alu die e (.bqd die e d a w) fun x =>
    let r := Config.biquad ((List.range 5).map fun k => x.word (w + k)) [x.word (w + 5), x.word (w + 6)] (x.reg a)
    ((x.keepWord (w + 5) r.2.1).keepWord (w + 6) r.2.2).result d r.1

/-- PI: kp in s, ki in s + 1, the integrator in s + 2, held under R118. -/
def execPi (die e d a w : Nat) (s : State) : Res := .next <|
  s.alu die e (.pi die e d a w) fun x =>
    let err := x.reg a
    let out := mulQ (x.word w) err + x.word (w + 2)
    let y := if x.flags.piHeld err then x else x.keepWord (w + 2) (x.word (w + 2) + mulQ (x.word (w + 1)) err)
    y.result d out

/-- DIV: A × 65,536 / B; B = 0 gives the saturated value of A's sign and sets OVF. The sign of A = 0 is left open. -/
def divValue (a b : Int) : Int :=
  if b = 0 then
    if 0 < a then 2147483647 else if a < 0 then -2147483648
    else if Config.roundUp 0 0 then 2147483647 else -2147483648
  else if 0 < b then quot (a * 65536) b else quot (-a * 65536) (-b)

def execDiv (die e d a b : Nat) (s : State) : Res := .next <|
  s.alu die e (.div die e d a b) fun x =>
    let y := x.result d (divValue (x.reg a) (x.reg b))
    if x.reg b = 0 then { y with flags := { y.flags with ovf := true } } else y

/-- CRV: the curve table t of the die at A (R121). -/
def execCrv (die e d a t : Nat) (s : State) : Res := .next <|
  s.micro die e (.crv die e d a t) fun s x _ =>
    let b := s.rdB 0x2507 (t + 1) (dieI die)
    s.setEng die e { (x.setReg d (curveAt b (x.reg a))) with flags := x.flags.curve b (x.reg a) }

def execCmp (die e a b : Nat) (s : State) : Res :=
  .next (s.alu die e (.cmp die e a b) fun x => { x with flags := x.flags.cmp (x.reg a) (x.reg b) })

/-- BR: when the condition holds, the next `off` words are skipped. -/
def execBr (die e cond off : Nat) (s : State) : Res :=
  .next (s.alu die e (.br die e cond off) fun x => if x.flags.holds cond then { x with pc := x.pc + off } else x)

/-- TRM: evaluate the current step's conditions; a slot without a step has none. -/
def execTrm (die e : Nat) (s : State) : Res := .next <|
  s.micro die e (.trm die e) fun s x j =>
    let s := s.setEng die e x
    match chanSlot die j.slot with
    | some c => if s.runState c = 2 ∧ !s.slave c then s.trm c else s
    | none => s

/-- The host owns the output of a channel slot (R85): staging and commits of its jobs are discarded and counted. -/
def State.hostOwned (s : State) (die k : Nat) : Bool :=
  match chanSlot die k with
  | some c => s.rd 0x2830 2 c == 1
  | none => false

/-- EDG: stage A in the slot's own output (R119); the job's end hands it over. -/
def execEdg (die e target a : Nat) (s : State) : Res := .next <|
  s.micro die e (.edg die e target a) fun s x j =>
    if s.hostOwned die j.slot then (s.setEng die e x).inc 0x2833 7 (chanOf die j.slot)
    else s.setEng die e { x with staged := x.staged ++ [some (target, x.reg a)] }

/-- CMT: commit, at the end of the job, the set as staged up to here (R81, R119). -/
def execCmt (die e : Nat) (s : State) : Res := .next <|
  s.micro die e (.cmt die e) fun s x j =>
    if s.hostOwned die j.slot then (s.setEng die e x).inc 0x2833 7 (chanOf die j.slot)
    else s.setEng die e { x with staged := x.staged ++ [none] }

/-- PUB: published word k of the slot, visible when the job completes (R120). -/
def execPub (die e a k : Nat) (s : State) : Res :=
  .next (s.alu die e (.pub die e a k) fun x => { x with pubs := x.pubs ++ [(k, x.reg a)] })

/-- The slot of the gang master of a slot. -/
def State.masterSlot (s : State) (die k : Nat) : Nat :=
  match chanSlot die k with
  | some c => localOf (s.master c)
  | none => k

/-- LDG: the master's word as its latest completed job published it (R120). -/
def execLdg (die e d k : Nat) (s : State) : Res := .next <|
  s.micro die e (.ldg die e d k) fun s x j =>
    s.setEng die e (x.setReg d (look 0 (s.slot die (s.masterSlot die j.slot)).pub k))

def execYld (die e : Nat) (s : State) : Res := .next (s.alu die e (.yld die e) fun x => { x with ended := true })

end Sys2Proof.Machine
end

