-- ==== Sys2Proof/Machine/Control.lean ====
section
/-! DEFINITION. The channel control law (chapter 5): what the vendor templates 1 to 10 compute in one job, on exact
values (log 7), the supervision of R153, R157 and R158, and the comparison with metrology (R164 to R166). -/

namespace Sys2Proof.Machine

/-! ## One job's inputs -/

/-- What a job of a channel works with: samples in V and A, the row's fields, the loop period L in counts, the gang's
size and current limit, the inhibit rate and ramp rate per job. -/
structure JobIn where
  tmpl : Nat
  v : Rat
  i : Rat
  vbus : Rat
  satLo : Bool
  satHi : Bool
  l : Nat
  n : Nat
  limit : Rat
  sp1 : Nat
  sp2 : Nat
  clamp : Nat
  f4 : Nat
  ramp : Nat
  veff : Rat
  inhibit : Bool
  stop : Bool
  inhRate : Rat
  kpv : Rat
  kiv : Rat
  lt : Nat
  epoch : Nat
  deriving DecidableEq, Repr

/-- The loop period in seconds. -/
def JobIn.tl (p : JobIn) : Rat := (p.l : Rat) / 320000000

/-- A word as a current in A, and as a voltage in V (R136). -/
def amps (w : Nat) : Rat := (s32 w : Rat) / 100000
def volts (w : Nat) : Rat := (s32 w : Rat) / 1000000

/-- A value limited to a range. -/
def limQ (lo hi x : Rat) : Rat := if x < lo then lo else if hi < x then hi else x

/-- A magnitude. -/
def absQ (x : Rat) : Rat := if x < 0 then -x else x

/-- A quotient of a control law; by 0 the free value of log 9. -/
def ratioQ (k : Nat) (a b : Rat) : Rat := if b = 0 then Config.ratio k else a / b

/-- The slew per job (R137, R145): A in the modes that read r in A/ms, V in CV. -/
def JobIn.slew (p : JobIn) : Rat := if p.tmpl = 2 then p.ramp * p.tl else p.ramp * 1000 * p.tl

/-- The current that the step's starting values take (R145, R147, R163): N times the member's own. -/
def JobIn.start (p : JobIn) : Rat := p.n * p.i

/-! ## Phases of pulse trains, DCIR steps and sweeps (R141 to R144) -/

/-- A duration in 100 µs as a number of loop periods, rounded half up, at least 1 (R141). -/
def durJobs (d l : Nat) : Nat := max 1 ((2 * (d * 32000) + l) / (2 * max l 1))

/-- Point k of a sweep before the end rule, in mHz (R142): f_start × 10^(±k / p), rounded to 1 mHz. Twice it is the p-th root
of (2 f_start)^p × 10^(±k). -/
def sweepRaw (f0 f1 p k : Nat) : Int :=
  let p := max p 1
  ((rootN p (if f1 < f0 then (2 * f0) ^ p / 10 ^ k else (2 * f0) ^ p * 10 ^ k) + 1) / 2 : Nat)

/-- A frequency has passed the end of the sweep. -/
def sweepPassed (f0 f1 : Nat) (f : Int) : Bool := if f1 < f0 then decide (f < f1) else decide ((f1 : Int) < f)

/-- Point k of a sweep (R142): the sequence, then f_stop when the sequence did not land on it. -/
def sweepFreq (f0 f1 p k : Nat) : Option Int :=
  let f := sweepRaw f0 f1 p k
  if !sweepPassed f0 f1 f then some f
  else if k = 0 then none
  else
    let g := sweepRaw f0 f1 p (k - 1)
    if !sweepPassed f0 f1 g ∧ g ≠ f1 then some f1 else none

/-- The sweep's fields: f_start, f_stop, points per decade, amplitude fraction (R136). -/
def JobIn.f0 (p : JobIn) : Nat := p.f4 % 2 ^ 24
def JobIn.f1 (p : JobIn) : Nat := p.sp2 % 2 ^ 24
def JobIn.perDecade (p : JobIn) : Nat := p.sp2 / 2 ^ 24
def JobIn.amp (p : JobIn) : Rat := ((p.f4 / 2 ^ 24 : Nat) : Rat) / 1000

/-- Some point of the sweep exceeds a twentieth of the loop rate (R144); the ends are its extremes. -/
def JobIn.sweepTooFast (p : JobIn) : Bool := decide (320000000 * 1000 < 20 * p.l * max p.f0 p.f1)

/-- The first carrier epoch at or after an LT. -/
def epochAfter (e : Nat) (t : Rat) : Nat := ((t / max e 1).ceil * (max e 1 : Nat)).toNat

/-- The end of 8 cycles from an epoch, in ns, after the time for which the point's timer was held (R143, R153). -/
def pointEnd (e : Nat) (f : Int) (lag : Rat) : Rat := e + lag + 8000000000000 / (f : Rat)

/-- A stale job holds the timer of the running point for a loop period (R153, log 172). -/
def Law.holdPoint (x : Law) (p : JobIn) : Law :=
  match x.pointLt with
  | some e => if 0 < x.fresh ∧ e ≤ p.lt then { x with lag := x.lag + (p.l : Rat) * 25 / 8 } else x
  | none => x

/-- The sweep's point and its epoch at a job (R143). -/
def Law.sweep (x : Law) (p : JobIn) : Law :=
  let x := if x.fresh = 0 then { x with point := 0, pointLt := some (epochAfter p.epoch p.lt), lag := 0 } else x
  match x.pointLt, sweepFreq p.f0 p.f1 p.perDecade x.point with
  | some e, some f =>
    let t := pointEnd e f x.lag
    if t ≤ p.lt then
      if (sweepFreq p.f0 p.f1 p.perDecade (x.point + 1)).isSome then
        { x with point := x.point + 1, pointLt := some (epochAfter p.epoch t), lag := 0 }
      else { x with pointLt := none }
    else x
  | _, _ => x

/-- The phase of a pulse train (0 A, 1 B) or of a DCIR step (0 before, 1 pulse, 2 after) at a job (R141). -/
def Law.phase (x : Law) (p : JobIn) : Law :=
  match p.tmpl with
  | 7 =>
    let d := durJobs (if x.point = 0 then p.f4 / 65536 else p.f4 % 65536) p.l
    if d ≤ x.phaseJobs then { x with point := 1 - x.point, phaseJobs := 1 } else { x with phaseJobs := x.phaseJobs + 1 }
  | 8 =>
    let d := durJobs (if x.point = 0 then p.f4 % 65536 else p.f4 / 65536) p.l
    if x.point < 2 ∧ d ≤ x.phaseJobs then { x with point := x.point + 1, phaseJobs := 1 }
    else { x with phaseJobs := x.phaseJobs + 1 }
  | 9 => x.sweep p
  | _ => x

/-- The perturbation of the running point (R139), 0 outside a point. -/
def Law.perturb (x : Law) (p : JobIn) : Rat :=
  let idc := amps p.sp1
  match x.pointLt, sweepFreq p.f0 p.f1 p.perDecade x.point with
  | some e, some f =>
    if e ≤ p.lt ∧ (p.lt : Rat) < pointEnd e f x.lag then
      p.amp * max (absQ idc) 1 * (if idc < 0 then -1 else 1) * sineOf ((f : Rat) * (((p.lt - e : Nat) : Rat) - x.lag) / 1000000000000)
    else 0
  | _, _ => 0

/-! ## Targets, slew and the voltage loop (R138, R139, R145 to R148) -/

/-- i_T before its clamp (R139); CV has none. -/
def Law.rawTarget (x : Law) (k : Nat) (p : JobIn) : Rat :=
  match p.tmpl with
  | 4 => (s32 p.f4 : Rat) / 1000 / max p.v (1 / 2)
  | 5 => -(ratioQ k (max p.v 0) ((p.f4 : Rat) / 1000000))
  | 7 => if x.point = 0 then amps p.sp1 else amps p.sp2
  | 8 => if x.point = 1 then amps p.sp2 else amps p.sp1
  | 9 => amps p.sp1 + x.perturb p
  | _ => amps p.sp1

/-- The previous i*, or the start of the soft start (R145). -/
def Law.before (x : Law) (p : JobIn) : Rat := if x.fresh = 0 then p.start else x.iRef

/-- The current range of the voltage loop (R147), within ±I_max × N (R138). -/
def JobIn.range (p : JobIn) : Rat × Rat :=
  let c := limQ (-p.limit) p.limit (if p.tmpl = 2 then amps p.clamp else amps p.sp1)
  if 0 < c then (0, c) else (c, 0)

/-- The ends that the bounds of R154 and R155 move back to. -/
def Law.ends (x : Law) (p : JobIn) : Rat × Rat :=
  if p.tmpl = 2 ∨ (p.tmpl = 3 ∧ x.handed) then p.range else (-p.limit, p.limit)

/-- A job's reference: the law after it, whether the voltage loop formed it, and its flags. -/
structure RefOut where
  law : Law
  target : Option Rat
  vloop : Bool
  ramping : Bool
  clamped : Bool
  slewing : Bool
  deriving DecidableEq, Repr

/-- CC-CV hands over at this job (R148). -/
def Law.handsOver (x : Law) (p : JobIn) : Bool :=
  p.tmpl == 3 && !x.handed &&
    let c := limQ (-p.limit) p.limit (amps p.sp1)
    (decide (0 < c) && decide (p.veff ≤ p.v)) || (decide (c < 0) && decide (p.v ≤ p.veff))

/-- The reference of a current-target mode before the bounds (R138, R145). -/
def Law.currentRef (x : Law) (k : Nat) (p : JobIn) : RefOut :=
  let raw := x.rawTarget k p
  let it := limQ (-p.limit) p.limit raw
  let b := x.before p
  let d := limQ (-p.slew) p.slew (it - b)
  { law := { x with iRef := b + d }, target := some it, vloop := false, ramping := decide (d ≠ it - b),
    clamped := decide (it ≠ raw), slewing := decide (d ≠ it - b) }

/-- v_ref of a voltage-loop job (R146, R147). -/
def Law.vTarget (x : Law) (p : JobIn) : Rat :=
  if p.tmpl = 3 then p.veff
  else
    let d := min (p.slew * (x.fresh : Rat)) (absQ (p.veff - x.v0))
    if p.veff < x.v0 then x.v0 - d else x.v0 + d

/-- The output of the voltage loop before the bounds (R147). -/
def Law.voltageRef (x : Law) (p : JobIn) : RefOut :=
  let vr := x.vTarget p
  let iU := p.kpv * (vr - p.v) + x.vInt
  let (lo, hi) := p.range
  let i := limQ lo hi iU
  { law := { x with vRef := vr, iRef := i }, target := if p.tmpl = 3 then some (limQ (-p.limit) p.limit (amps p.sp1)) else none,
    vloop := true, ramping := decide (vr ≠ p.veff), clamped := decide (i ≠ iU), slewing := false }

/-- The clamp of a mode is a voltage limit (R136, R158): CV reads it as a current limit, and a rest step ignores it. DESIGN
CHOICE (log 173): the manual gives the clamp of custom modes 10 to 15 no meaning; it is taken as a voltage limit. -/
def clampLimits (mode : Nat) : Bool := mode != 2 && mode != 6

/-- The bounds of R154 and R155 move. DESIGN CHOICE (log 173): a gang's bounds move at the master's inhibit rate, which is not
multiplied by N. While a bit is set toward 0 at the inhibit rate, from the job's i* at first;
after it clears back toward the end of the mode's range at the release rate, and end there. -/
def Law.moveBounds (x : Law) (p : JobIn) (i : Rat) : Law :=
  let (lo, hi) := x.ends p
  let rel := if p.tmpl = 2 then p.inhRate else p.slew
  let bLo := if p.inhibit || p.stop then
      match x.boundLo with
      | some b => some (min 0 (b + p.inhRate))
      | none => if i < 0 then some i else none
    else match x.boundLo with
      | some b => if b - rel ≤ lo then none else some (b - rel)
      | none => none
  let bHi := if p.stop then
      match x.boundHi with
      | some b => some (max 0 (b - p.inhRate))
      | none => if 0 < i then some i else none
    else match x.boundHi with
      | some b => if hi ≤ b + rel then none else some (b + rel)
      | none => none
  { x with boundLo := bLo, boundHi := bHi }

/-- i* under the bounds. -/
def Law.bounded (x : Law) (i : Rat) : Rat :=
  let i := match x.boundLo with | some b => max i b | none => i
  match x.boundHi with | some b => min i b | none => i

/-- I_v of the voltage loop after a job (R147, R152, R154): held outside the range, bounds included, or while the inner
loop of the previous job was saturated. -/
def Law.integrateV (x : Law) (p : JobIn) : Law :=
  let e := x.vRef - p.v
  let iU := p.kpv * e + x.vInt
  let (lo, hi) := p.range
  let lo := match x.boundLo with | some b => max lo b | none => lo
  let hi := match x.boundHi with | some b => min hi b | none => hi
  let held := (decide (hi < iU) && decide (0 < e)) || (decide (iU < lo) && decide (e < 0)) ||
    (x.satHi && decide (0 < e)) || (x.satLo && decide (e < 0))
  { x with vHeld := held, vInt := if held then x.vInt else x.vInt + p.kiv * p.tl * e }

/-- The law takes the starting values of the step's first fresh job (R146, R153). -/
def Law.begin (x : Law) (p : JobIn) : Law :=
  if x.fresh = 0 then { x with v0 := p.v, vInt := if p.tmpl = 2 then p.start else x.vInt } else x

/-- The reference of a fresh job outside a drain: the law after it, its flags, and whether a bound holds i* (R156). DEDUCED
(log 173): a bound that moves back together with the slew does not hold i*. -/
def Law.refer (x : Law) (k : Nat) (p : JobIn) : RefOut × Bool :=
  let x := (x.begin p).phase p
  let x := if x.handsOver p then { x with handed := true, handLt := p.lt, vInt := x.before p } else x
  let r := if p.tmpl = 2 ∨ (p.tmpl = 3 ∧ x.handed) then x.voltageRef p else x.currentRef k p
  let y := r.law.moveBounds p r.law.iRef
  let y := if r.vloop then y.integrateV p else y
  let i := y.bounded y.iRef
  ({ r with law := { y with iRef := i } }, decide (i ≠ y.iRef))

/-! ## The inner loop (R149 to R151) -/

/-- The inner loop toward a member reference: the law after it and the duty. -/
def Law.inner (x : Law) (p : JobIn) (kp ki ff ref : Rat) : Law × Rat :=
  let e := ref - p.i
  let u := ff + kp * e + x.iInt
  let hi := p.satHi || decide (1 < u)
  let lo := p.satLo || decide (u < 0)
  let held := (hi && decide (0 < e)) || (lo && decide (e < 0))
  ({ x with iInt := if held then x.iInt else x.iInt + ki * p.tl * e, satHi := hi, satLo := lo }, limQ 0 1 u)

/-! ## A channel's job -/

/-- Tags 0, 1 and 3 of a slot are fresh (R153). -/
def Slot.fresh (x : Slot) : Bool := (x.sample 0).fresh && (x.sample 1).fresh && (x.sample 3).fresh

/-- The current limit of a channel (R138, R346), in A, for its whole gang. -/
def State.gangLimit (s : State) (c : Nat) : Rat :=
  let l := s.rd 0x2441 6 c
  let l := if (s.die (dieOf c)).door then min l (s.rd 0x4030 0 dev) else l
  (s.gang c).length * (l : Rat) / 100000

/-- V_eff of a channel (R159). -/
def State.vEff (s : State) (c : Nat) (set : Int) : Rat :=
  let t := s.rdN 0x2442 1 c
  let temp := ((s.slot (dieOf c) (localOf c)).sample 2).value
  let off := if t = 0xFF then 0 else curveAt (s.rdB 0x2507 (t + 1) (siteI (dieOf c))) temp
  ((set + off : Int) : Rat) / 1000000

/-- The inputs of a job of a channel's slot. -/
def State.jobIn (s : State) (c tmpl : Nat) : JobIn :=
  let die := dieOf c
  let x := s.slot die (localOf c)
  let m := s.master c
  let r := s.rdN 0x2402 2 m
  let w4 := ((x.sample 4).value % 4294967296).toNat
  let t7 := (x.sample 7).value.toNat
  let l := s.loopL die (localOf c)
  let inh : Rat := (s.rd 0x2441 4 c : Rat) * 1000 * l / 320000000
  { tmpl := tmpl, v := ((x.sample 0).value : Rat) / 1000000, i := ((x.sample 1).value : Rat) / 100000,
    vbus := ((x.sample 3).value : Rat) / 1000000, satLo := bit w4 31, satHi := bit w4 30, l := l,
    n := (s.gang c).length, limit := s.gangLimit c, sp1 := s.row m r 1, sp2 := s.row m r 2, clamp := s.row m r 3,
    f4 := s.row m r 4, ramp := rowRamp (s.row m r 5),
    veff := s.vEff c (s32 (if tmpl = 2 then s.row m r 1 else s.row m r 2)),
    inhibit := bit t7 0, stop := bit t7 1, inhRate := inh, kpv := (s.rd 0x2440 3 c : Rat) / 1000,
    kiv := (s.rd 0x2440 4 c : Rat) / 1000, lt := x.releaseLt, epoch := s.epochNs }

/-- Replace the control state of a channel. -/
def State.setLaw (s : State) (c : Nat) (x : Law) : State := let ch := s.chan c; s.setChan c { ch with law := x }

/-- A current in 10 µA, and a voltage in µV, as the objects show them. -/
def show10uA (x : Rat) : Int := roundQ (x * 100000)
def showUv (x : Rat) : Int := roundQ (x * 1000000)

/-- The last fresh values, the control-path sums and the counts of a job (R153, R172). -/
def Law.tally (x : Law) (a b t : Sample) (tl : Rat) (fresh : Bool) : Law :=
  let v := if a.fresh then a.value else x.vLast
  let i := if b.fresh then b.value else x.iLast
  { x with
    jobs := x.jobs + 1, fresh := if fresh then x.fresh + 1 else x.fresh, vLast := v, iLast := i,
    tLast := if t.fresh then t.value else x.tLast,
    charge := x.charge + (i : Rat) / 100000 * tl, energy := x.energy + (v : Rat) / 1000000 * ((i : Rat) / 100000) * tl }

/-- A quantity of the step as its object shows it (0x2402.07, 0x2403.06, 0x2403.07). -/
def State.shown (s : State) (c q : Nat) : Int := let v := (s.quantity c q).getD 0; quot v.num v.den

/-- The step time, step charge and step energy of a channel at a job of its step. -/
def State.showStep (s : State) (c : Nat) : State :=
  if s.slave c then s
  else ((s.wr 0x2402 7 c (s.shown c 1)).wr 0x2403 6 c (sat32 (s.shown c 6))).wr 0x2403 7 c (sat32 (s.shown c 7))

def State.tallyJob (s : State) (c : Nat) : State :=
  let die := dieOf c
  let x := s.slot die (localOf c)
  (s.setLaw c
    ((s.chan c).law.tally (x.sample 0) (x.sample 1) (x.sample 2) ((s.loopL die (localOf c) : Rat) / 320000000) x.fresh)).showStep c

/-- A run timer: it starts at a job that finds its error and ends at one that finds none (R157). -/
def runOf (t : Option Nat) (found : Bool) (lt : Nat) : Option Nat := if found then some (t.getD lt) else none

/-- The same in a safety path: a run that has reached its time does not end, so that the expiry wins over the condition's end in
its tick (R179). -/
def runTo (t : Option Nat) (ns : Nat) (found : Bool) (lt : Nat) : Option Nat :=
  if t.any fun a => decide (a + ns ≤ lt) then t else runOf t found lt

/-- R157 and R158 for a fresh job: the following-error run and the voltage-limit run. -/
def State.supervise (s : State) (c : Nat) (ref iStar i v : Rat) (vErr clampOn : Bool) (clamp : Rat) : State :=
  let lt := (s.slot (dieOf c) (localOf c)).releaseLt
  let ch := s.chan c
  let f := decide ((s.rd 0x2441 1 c : Rat) < absQ (ref - i) * 1000) || vErr
  let w := clampOn && ((decide (0 < iStar) && decide (clamp < v)) || (decide (iStar < 0) && decide (v < clamp)))
  let fo := runOf ch.sup.follow f lt
  let vl := runOf ch.sup.vLimit w lt
  let s := s.setChan c { ch with sup := { ch.sup with
    follow := fo, vLimit := vl, vRun := match vl with | some t => lt - t | none => 0 } }
  s.wr 0x2444 8 c (match fo with | some t => (lt - t) / 1000 | none => 0 : Nat)

/-- The sharing deviation of a gang member in 0.01 % of the reference (R163), an S16; its peak in steady state. -/
def State.sharing (s : State) (c : Nat) (ref i : Rat) (still : Nat) : State :=
  let s := if ref = 0 then s.draw else s
  let dv := clampI (-32768) 32767 (if ref = 0 then Config.freeInt s.free else roundQ ((i - ref) / ref * 10000))
  let s := s.wr 0x2445 2 c dv
  if 10 < still then s.wr 0x2445 3 c (max (s.rd 0x2445 3 c) (dv.natAbs : Int)) else s

/-- The member reference of a job: its object, the count since it last changed, the deviation in a gang (R163). -/
def State.showMember (s : State) (c : Nat) (ref i : Rat) : State :=
  let m := show10uA ref
  let law := (s.chan c).law
  let still := if s.rd 0x2445 1 c = m then law.still + 1 else 0
  let s := (s.setLaw c { law with still := still }).wr 0x2445 1 c m
  if (s.gang c).length = 1 then s else s.sharing c ref i still

/-- Stage and commit a duty (R149) in an engine's job; while the host owns the output each is discarded (R119). -/
def State.stageDuty (s : State) (c e : Nat) (d : Rat) : State :=
  let die := dieOf c
  let p := (s.unit die (localOf c)).staged.period
  if s.hostOwned die (localOf c) then s.wr 0x2833 7 c ((s.rd 0x2833 7 c + 4) % 2 ^ 32)
  else
    let x := s.eng die e
    s.setEng die e { x with staged := [some (0, p), some (1, 0), some (2, roundQ (d * 32 * p)), none] }

/-- Publish the member reference and the control phase (R161). -/
def State.publish (s : State) (c e : Nat) (ref : Rat) (phase : Nat) : State :=
  let x := s.eng (dieOf c) e
  s.setEng (dieOf c) e { x with pubs := [(0, show10uA ref), (1, phase)] }

/-- The inner loop of a member toward its reference: integrator, flags, duty, deviation. -/
def State.runInner (s : State) (c e : Nat) (p : JobIn) (ref : Rat) (flags : Nat) : State :=
  let s := if p.vbus = 0 then s.draw else s
  let ff := if s.rd 0x2440 5 c = 1 then ratioQ s.free p.v p.vbus else 0
  let (law, d) := (s.chan c).law.inner p ((s.rd 0x2440 1 c : Rat) / 1000000) ((s.rd 0x2440 2 c : Rat) / 1000) ff ref
  let s := s.setLaw c law
  let s := s.wr 0x2444 5 c (roundQ (law.iInt * 1000000))
  let s := s.wr 0x2444 9 c ((flags + (if law.satLo then 1 else 0) + (if law.satHi then 2 else 0) : Nat) : Int)
  (s.showMember c ref p.i).stageDuty c e d

/-- What the objects of 0x2444 show of the reference. -/
def State.showRef (s : State) (c : Nat) (r : RefOut) (phase tmpl : Nat) : State :=
  let s := (s.wr 0x2444 1 c phase).wr 0x2444 2 c (show10uA r.law.iRef)
  let s := match r.target with | some t => s.wr 0x2444 3 c (show10uA t) | none => s
  let s := if r.vloop then (s.wr 0x2444 4 c (showUv r.law.vRef)).wr 0x2444 6 c (show10uA r.law.vInt) else s
  let s := if r.law.handed then s.wr 0x2444 7 c r.law.handLt else s
  if 7 ≤ tmpl ∧ tmpl ≤ 9 then s.wr 0x2444 0xA c r.law.point else s

/-- A fresh job of a master or a single channel in a switching step. DEDUCED (log 173): the control phase is 1 while the slew
limits i* or v_ref has not reached V_eff, else 2 or 3 by the loop that forms i*. -/
def State.switchJob (s : State) (c e : Nat) (p : JobIn) : State :=
  let law := (s.chan c).law
  if s.runState c = 3 then
    -- a ramp job (R190): i* scaled by word 4, the inner loop alone
    let g := (s.slot (dieOf c) (localOf c)).word 4
    let i := law.drainI * g / 65536
    let s := (s.setLaw c { law with iRef := i }).wr 0x2444 2 c (show10uA i)
    let s := s.supervise c (i / p.n) i p.i p.v false (clampLimits p.tmpl) (volts p.clamp)
    ((s.wr 0x2444 1 c 1).publish c e (i / p.n) 1).runInner c e p (i / p.n) 0
  else
    let (r, held) := law.refer s.free p
    let s := s.setLaw c r.law
    let phase := if held then 4 else if r.ramping then 1 else if r.vloop then 3 else 2
    let s := s.showRef c r phase p.tmpl
    let i := r.law.iRef
    let vErr := r.vloop && !r.law.vHeld && decide ((s.rd 0x2441 2 c : Rat) < absQ (r.law.vRef - p.v) * 1000000)
    let s := s.supervise c (i / p.n) i p.i p.v vErr (clampLimits p.tmpl) (volts p.clamp)
    (s.publish c e (i / p.n) phase).runInner c e p (i / p.n) ((if r.clamped then 4 else 0) + (if r.slewing then 8 else 0))

/-- A fresh job of a gang slave (R161, R162): the member reference that its LDG read. -/
def State.slaveJob (s : State) (c e : Nat) (p : JobIn) : State :=
  let (w0, w1) := (s.eng (dieOf c) e).ldg
  let ref : Rat := (w0 : Rat) / 100000
  let law := (s.chan c).law
  let s := ((s.setLaw c { law with iRef := ref }).wr 0x2444 1 c w1).wr 0x2444 2 c w0
  let s := s.supervise c ref ref p.i p.v false (clampLimits (s.mode c)) (volts p.clamp)
  s.runInner c e p ref 0

/-- A gang slave while its master rests (R140, R161): nothing is staged; it shows the master's control phase. -/
def State.slaveRest (s : State) (c e : Nat) : State := s.wr 0x2444 1 c (s.eng (dieOf c) e).ldg.2

/-- The rest template (R140): the first job stops the output; the control phase is published. -/
def State.restJob (s : State) (c e : Nat) : State :=
  let s := if (s.chan c).law.jobs = 0 then s.stopUnit (dieOf c) (localOf c) else s
  let x := s.eng (dieOf c) e
  (s.setEng (dieOf c) e { x with pubs := [(1, 0)] }).wr 0x2444 1 c 0

/-- A job of a channel slot that runs vendor template `tmpl` on engine `e` (R139 to R163, R173). -/
def State.lawJob (s : State) (c tmpl e : Nat) : State :=
  let p := s.jobIn c tmpl
  if tmpl = 9 ∧ (s.chan c).law.jobs = 0 ∧ p.sweepTooFast then s.latchNew c 12 0
  else
    let fresh := (s.slot (dieOf c) (localOf c)).fresh
    let s := if tmpl = 6 then s.restJob c e
      else if !fresh then s
      else if tmpl = 10 then (if s.mode c = 6 then s.slaveRest c e else s.slaveJob c e p)
      else s.switchJob c e p
    let s := if tmpl = 6 ∧ fresh then s.setLaw c ((s.chan c).law.begin p) else s
    let s := if tmpl = 9 ∧ !fresh then s.setLaw c ((s.chan c).law.holdPoint p) else s
    let s := s.tallyJob c
    if s.runState c = 2 ∧ !s.slave c then s.trm c else s

/-- A custom descriptor's job starts: the starting values of the step's first fresh job and the sums of R172, which TRM
reads, take its samples. -/
def State.customStart (s : State) (c : Nat) : State :=
  let s := if (s.slot (dieOf c) (localOf c)).fresh then s.setLaw c ((s.chan c).law.begin (s.jobIn c 0)) else s
  s.tallyJob c

/-- A job under a custom descriptor ends: the supervision of R157 and R158 against the reference that it publishes in word 0
(log 14, log 173). -/
def State.customJob (s : State) (c e : Nat) : State :=
  let x := s.slot (dieOf c) (localOf c)
  let p := s.jobIn c 0
  let pub := (lookup? 0 (s.eng (dieOf c) e).pubs)
  match pub with
    | some w => if x.fresh then
        (s.supervise c ((w : Rat) / 100000) ((w : Rat) / 100000) p.i p.v false
          (clampLimits (s.mode c)) (volts p.clamp)).wr 0x2445 1 c w
      else s
    | none => s

/-! ## Supervision that latches (R153, R157, R158) -/

/-- SAMPLES_STALE (R153): tags 0, 1 or 3 stale beyond the stale limit. -/
def execSamplesStale (c : Nat) (s : State) : Res := .next <|
  match (s.chan c).sup.stale with
  | some t => if s.chanPop c ∧ t + s.rdN 0x2441 5 c * 1000 < s.lt ∧ !s.latched c then s.latchNew c 8 0 else s
  | none => s

/-- FOLLOWING_ERROR (R157). -/
def execFollowingError (c : Nat) (s : State) : Res := .next <|
  if s.chanPop c ∧ (s.chan c).sup.follow.isSome ∧ s.rd 0x2441 3 c ≤ s.rd 0x2444 8 c ∧ !s.latched c then s.latchNew c 9 0
  else s

/-- VOLTAGE_LIMIT (R158): passed for 1 ms. -/
def execVoltageLimit (c : Nat) (s : State) : Res := .next <|
  if s.chanPop c ∧ (s.chan c).sup.vLimit.isSome ∧ 1000000 ≤ (s.chan c).sup.vRun ∧ !s.latched c then s.latchNew c 10 0
  else s

/-! ## Control against metrology (R164 to R166) -/

/-- A difference disagrees (R164): voltage beyond max(0.5 %, 2 mV), current beyond max(0.5 %, 50 mA). -/
def vDisagrees (ctrl met : Int) : Bool := decide (max (met.natAbs : Int) 400000 < 200 * (ctrl - met).natAbs)
def iDisagrees (ctrl met : Int) : Bool := decide (max (met.natAbs : Int) 1000000 < 200 * (ctrl - met).natAbs)

/-- The comparison of a channel's means at an epoch with the mirror of the same epoch (R164, R165). -/
def State.compare (s : State) (c epochLt : Nat) (cv ci mv mi : Int) : State :=
  let dv := vDisagrees cv mv
  let di := iDisagrees ci mi
  let ch := s.chan c
  let t := runOf ch.sup.disagree (dv || di) epochLt
  let s := s.setChan c { ch with sup := { ch.sup with disagree := t, noMirror := none } }
  let st := s.rdN 0x2443 1 c
  let s := s.wr 0x2443 1 c (((if dv then 1 else 0) + (if di then 2 else 0) + (if bit st 2 then 4 else 0) : Nat) : Int)
  let s := (s.wr 0x2443 2 c (cv - mv)).wr 0x2443 3 c (ci - mi)
  s.wr 0x2443 4 c (match t with | some a => (epochLt - a) / 1000000 | none => 0 : Nat)

/-- A mirror of a channel for an epoch whose control means the die still holds gives a comparison (R164, R166). -/
def State.compareMirror (s : State) (epochLt : Nat) (m : Mirror) : State :=
  if s.switching m.chan ∨ s.resting m.chan then
    match (s.chan m.chan).means.find? (fun e => e.1 == epochLt) with
    | some e => s.compare m.chan epochLt e.2.1 e.2.2 m.v m.i
    | none => s
  else s

/-- The data of an entry 0x2006: the last differences. -/
def State.plausData (s : State) (c : Nat) : List Byte := leInt 4 (s.rd 0x2443 2 c) ++ leInt 4 (s.rd 0x2443 3 c)

/-- PLAUSIBILITY_FAULT (R165): the comparisons have disagreed for at least 100 ms. -/
def execPlausibilityFault (c : Nat) (s : State) : Res := .next <|
  if s.chanPop c ∧ (s.chan c).sup.disagree.isSome ∧ 100 ≤ s.rd 0x2443 4 c ∧ !s.latched c then
    let corr := s.corrId (dieOf c)
    let s := (s.openCorr (dieOf c)).inc 0x2443 5 c
    let s := s.wr 0x2443 1 c (setBit (s.rdN 0x2443 1 c) 2)
    let s := s.raise (dieOf c) c 0x2006 (s.plausData c) corr
    s.latchChans [c] 11 0 corr
  else s

/-- PLAUSIBILITY_UNAVAILABLE (R166): no comparison for 1 s. -/
def execPlausibilityUnavailable (c : Nat) (s : State) : Res := .next <|
  match (s.chan c).sup.noMirror with
  | some t =>
    if s.chanPop c ∧ t + 1000000000 ≤ s.lt ∧ (s.switching c ∨ s.resting c) ∧ !bit (s.rdN 0x2443 1 c) 3 then
      let ch := s.chan c
      let s := s.setChan c { ch with sup := { ch.sup with disagree := none } }
      let s := (s.wr 0x2443 1 c (setBit (s.rdN 0x2443 1 c) 3)).wr 0x2443 4 c 0
      s.noteAt (dieOf c) c 0x2006 (s.plausData c)
    else s
  | none => s

end Sys2Proof.Machine
end

