-- ==== Sys2Proof/Machine/Power.lean ====
section
/-! DEFINITION. The hub's power chain (chapter 9): contactor drives, AFE, chopper and discharge outputs, the power-up
sequence, the controlled stop, the overvoltage cascade, the DAB supervision. -/

namespace Sys2Proof.Machine

def State.setPower (s : State) (p : Power) : State := { s with power := p }

/-! ## The supervisor's words that the power chain reads and sets (R353, R365) -/

def State.setHold (s : State) (b : Nat) : State := s.wr 0x4000 2 dev (setBit (s.rdN 0x4000 2 dev) b)
def State.clearHold (s : State) (b : Nat) : State := s.wr 0x4000 2 dev (clearBit (s.rdN 0x4000 2 dev) b)

/-- A supervisor fault is recorded: code, LT and trail entry 0x4001 (R365). -/
def State.supFault (s : State) (code : Nat) : State :=
  ((s.wr 0x4000 5 dev code).wr 0x4000 6 dev s.lt).note 0x4001 (leNat 2 code)

/-! ## Contactor drives (R358 to R360) -/

def State.kdrv (s : State) (k : Nat) : Contactor := look {} s.sup.kdrv k
def State.setKdrv (s : State) (k : Nat) (x : Contactor) : State := { s with sup := { s.sup with kdrv := put s.sup.kdrv k x } }

/-- A contactor drive is used: KDRV0 and KDRV1 always (R358). -/
def State.kdrvUsed (s : State) (k : Nat) : Bool := decide (k < 2) || s.rd 0x4020 (k + 1) dev == 1

/-- Command a drive closed: only while it is used, no hold reason is set, and no contact is welded. -/
def State.closeKdrv (s : State) (k : Nat) : State :=
  let x := s.kdrv k
  if s.kdrvUsed k ∧ s.rd 0x4000 2 dev = 0 ∧ !x.close then
    (s.setKdrv k { x with close := true, cmdAt := s.lt, settled := false, bad := 0 }).wr 0x4021 (k + 1) dev 1
  else s

/-- Command a drive open. -/
def State.openKdrv (s : State) (k : Nat) : State :=
  let x := s.kdrv k
  if x.close then
    (s.setKdrv k { x with close := false, cmdAt := s.lt, settled := false, bad := 0 }).wr 0x4021 (k + 1) dev 3
  else s

/-- The feedback of a used contactor shows closed. -/
def State.kfbClosed (s : State) (k : Nat) : Bool := s.kdrvUsed k && (s.kdrv k).kfbClosed

/-! ## AFE, chopper and discharge outputs -/

/-- Turn hub units off at once. -/
def State.cutUnits (s : State) (us : List Nat) : State := each us (fun s u => s.setUnit 0 u (s.unit 0 u).cut) s

/-- All AFE outputs low. -/
def State.afeLow (s : State) : State := (s.cutUnits (List.range 6)).setPower { s.power with afeOn := false }

/-- The AFE latches: its outputs low, the latch shown, and the pending job of its slot dropped (R113). -/
def State.latchAfe (s : State) : State :=
  let s := s.afeLow
  ((s.setPower { s.power with afeLatched := true }).wr 0x3040 0x11 dev (setBit (s.rdN 0x3040 0x11 dev) 0)).dropJobs 0 0

/-- CHOP on (R296): held high unless it is latched; proven 20 µs later. -/
def State.chopOn (s : State) : State :=
  if s.power.chop then s
  else ((s.setPower { s.power with chop := true, chopSince := s.lt, chopProve := some (s.lt + 20000) }).holdPin 6 true).wr
    0x3070 3 dev (if s.rd 0x3070 3 dev = 0 then 1 else s.rd 0x3070 3 dev)

def State.chopOff (s : State) : State :=
  ((s.setPower { s.power with chop := false, chopProve := none, testPulse := none }).holdPin 6 false).wr
    0x3070 3 dev (if s.rd 0x3070 3 dev = 1 then 0 else s.rd 0x3070 3 dev)

/-- Engage the active discharge (R297). -/
def State.adisOn (s : State) : State :=
  if s.power.adis then s
  else (((s.setPower { s.power with
    adis := true, adisSince := s.lt, adisProve := some (s.lt + 20000), energy := 0, below60 := none }).holdPin 7 true).wr
    0x3070 6 dev 0).wr 0x3070 8 dev 1

/-- Release it with the discharge state that then reads. -/
def State.adisOff (s : State) (st : Nat) : State :=
  ((s.setPower { s.power with adis := false, adisProve := none }).holdPin 7 false).wr 0x3070 8 dev st

/-- A chopper or discharge fault's entry 0x3003. -/
def State.chopNote (s : State) : State :=
  s.note 0x3003 (leInt 1 (s.rd 0x3070 3 dev) ++ leInt 1 (s.rd 0x3070 8 dev))

/-! ## The controlled stop (R287) -/

def State.linkState (s : State) : Nat := s.rdN 0x3050 2 dev
def State.setLink (s : State) (v : Nat) : State := (s.wr 0x3050 2 dev v).setPower { s.power with stateSince := s.lt }

/-- The entry 0x3001 of a stop cause. -/
def State.stopNote (s : State) (cause corr : Nat) : State :=
  s.raise 0 noChan 0x3001 (leNat 1 cause ++ leNat 1 s.linkState) corr

/-- Start the controlled stop with a cause: in state 0, 6, 7 or 8 the cause only goes to the trail. -/
def State.stopWith (s : State) (cause corr : Nat) : State :=
  if s.linkState = 0 ∨ 6 ≤ s.linkState then s.stopNote cause corr
  else
    let s := ((s.setLink 6).wr 0x3050 3 dev cause).stopNote cause corr
    let s := (s.raiseAll 0x06 127 corr).raiseAll 0x05 127 corr
    s.setPower { s.power with stopAt := some (s.lt + s.rdN 0x3050 5 dev * 1000000), segStopped := false, corr := corr }

/-- A stop cause that the hub detects opens its correlation ID. -/
def State.controlledStop (s : State) (cause : Nat) : State := (s.openCorr 0).stopWith cause (s.corrId 0)

/-- The codes of the stop-cause table and its extensions (R278, R344, R363, R377, R531, R536). -/
def stopCodes : List Nat := [1, 2, 3, 4, 5, 6, 7, 8, 9, 10, 11, 12, 13, 14, 15, 16, 17, 18, 19, 20]

/-- CONTROLLED_STOP (R287). -/
def execControlledStop (cause : Nat) (s : State) : Res := .next <|
  if stopCodes.contains cause then s.controlledStop cause else s

/-- SEGMENT_STOP_DELAY (R287, step 2). -/
def execSegmentStopDelay (s : State) : Res := .next <|
  match s.power.stopAt with
  | some t =>
    if s.linkState = 6 ∧ !s.power.segStopped ∧ t ≤ s.lt then
      let s := (s.raiseAll 0x04 127 s.power.corr).afeLow
      ((s.openKdrv 1).openKdrv 0).setPower { ((s.openKdrv 1).openKdrv 0).power with segStopped := true }
    else s
  | none => s

/-- CONTACTORS_OPEN (R287, step 3; R360): the feedback shows both contactors open. -/
def execContactorsOpen (s : State) : Res := .next <|
  if s.linkState = 6 ∧ s.power.segStopped ∧ (s.kdrv 0).openSince.isSome ∧ (s.kdrv 1).openSince.isSome then
    s.adisOn.setLink 7
  else s

/-- The discharge has ended: a stop in state 7 ends (R287, step 4). -/
def State.endStop (s : State) : State :=
  if s.linkState = 7 then s.setLink (if s.rd 0x3050 3 dev = 1 then 0 else 8) else s

/-- DISCHARGE_RELEASE (R297): both DCL inputs below 60 V for 100 ms. -/
def execDischargeRelease (s : State) : Res := .next <|
  match s.power.below60 with
  | some t => if s.power.adis ∧ t + 100000000 ≤ s.lt then (s.adisOff 0).endStop else s
  | none => s

/-- DISCHARGE_EXHAUSTED (R297): the integral reaches the rating. -/
def execDischargeExhausted (s : State) : Res := .next <|
  if s.power.adis ∧ (s.rdN 0x3070 5 dev : Rat) ≤ s.power.energy then (s.adisOff 2).endStop else s

/-- A delay has run out. -/
def due (t : Option Nat) (lt : Nat) : Bool := t.any fun a => decide (a ≤ lt)

/-- The DC-link voltage in mV as the hub forms it: the mean of DCL_A and DCL_B, or the remaining one (R275, R278). -/
def State.vdcMv (s : State) : Int :=
  let a := s.rd 0x3060 8 dev
  let b := s.rd 0x3060 9 dev
  if (s.adc 0 0).diagUntil.isSome then b else if (s.adc 0 1).diagUntil.isSome then a else quot (a + b) 2

/-- A current in mA reaches a share (in percent) of V_dc / R (R296, R297). -/
def reaches (ma : Nat) (pct : Nat) (vdc : Int) (r : Nat) : Bool := decide ((pct : Int) * vdc * 1000 ≤ 100 * (ma : Int) * (r : Int))

/-- What a current must prove can be told (R278): no diagnosis of its unit runs, and after one that lay in its time the
input has been converted. -/
def State.provable (s : State) (u k since : Nat) : Bool :=
  let e := (s.adc 0 u).lastDiag + 400000
  (s.adc 0 u).diagUntil.isNone && ((s.adc 0 u).lastDiag == 0 || decide (e ≤ since) || decide (e ≤ (s.win k).at'))

/-- DISCHARGE_NO_CURRENT (R297, R278): 20 µs after ADIS, no conversion of IDIS has reached half its expected value. -/
def execDischargeNoCurrent (s : State) : Res := .next <|
  if s.power.adis ∧ s.rd 0x3070 8 dev = 1 ∧ due s.power.adisProve s.lt ∧ s.provable 1 23 s.power.adisSince then
    ((s.setPower { s.power with adisProve := none }).wr 0x3070 8 dev 3).chopNote
  else s

/-! ## The overvoltage cascade (R301) -/

/-- Record a cascade level; its entry carries both DCL voltages. -/
def State.cascade (s : State) (level corr : Nat) : State :=
  let s := s.wr 0x3060 0xB dev (max (s.rd 0x3060 0xB dev) level)
  s.raise 0 noChan 0x3002 (leNat 1 level ++ leInt 4 (s.rd 0x3060 8 dev) ++ leInt 4 (s.rd 0x3060 9 dev)) corr

/-- Level 1: full regeneration commanded, "regeneration inhibit" to every die. -/
def State.level1 (s : State) : State :=
  let corr := s.corrId 0
  let s := ((s.openCorr 0).cascade 1 corr).raiseAll 0x06 127 corr
  s.setPower { s.power with fullRegen := true, ov1Since := none }

/-- Level 2: "DC link above OV2" to every die. -/
def State.level2 (s : State) : State :=
  let corr := s.corrId 0
  ((s.openCorr 0).cascade 2 corr).raiseAll 0x02 127 corr

/-- Level 3, in hub hardware. -/
def State.level3 (s : State) (k : Nat) : State :=
  let corr := s.corrId 0
  let s := ((s.openCorr 0).cascade 3 corr).wr 0x3060 0xC dev (setBit (s.rdN 0x3060 0xC dev) k)
  let s := (s.raiseAll 0x01 127 corr).afeLow
  let s := if s.rd 0x3070 3 dev = 2 ∨ s.rd 0x3070 3 dev = 3 then s else s.chopOn
  let s := ((s.adisOn).openKdrv 1).openKdrv 0
  s.stopWith 14 corr

/-- A comparator reads tripped. -/
def Power.setDcov (p : Power) (k : Nat) (on : Bool) : Power := if k = 0 then { p with dcovA := on } else { p with dcovB := on }
def Power.dcov (p : Power) (k : Nat) : Bool := if k = 0 then p.dcovA else p.dcovB

/-- DCOV_TRIP (R301, R364): level 3, but for the comparator under forced test, whose trip only reaches the test readback. -/
def execDcovTrip (k : Nat) (s : State) : Res := .next <|
  if k < 2 then
    if (s.power.testing.map (·.1)) = some k then s.setPower { s.power with tripSeen := true, testHigh := true }
    else (s.setPower (s.power.setDcov k true)).level3 k
  else s

/-- DCOV_RELEASE (R301, R364): the comparator no longer reads tripped; under forced test the readback shows it. -/
def execDcovRelease (k : Nat) (s : State) : Res := .next <|
  if k < 2 then
    if (s.power.testing.map (·.1)) = some k then s.setPower { s.power with testHigh := false }
    else s.setPower (s.power.setDcov k false)
  else s

/-- OV1_RELEASE (R301): both DCL below OV1 less the hysteresis for 10 ms. "Regeneration release" is sent unless a
controlled stop holds the bit until the next start (R287). -/
def execOv1Release (s : State) : Res := .next <|
  match s.power.ov1Since with
  | some t =>
    if s.power.fullRegen ∧ t + 10000000 ≤ s.lt then
      let s := s.setPower { s.power with fullRegen := false, ov1Since := none }
      if s.power.stopAt.isNone then (s.openCorr 0).raiseAll 0x08 127 (s.corrId 0) else s
    else s
  | none => s

/-! ## Cross-checks, grid and supervision (R275, R278 to R280) -/

/-- A condition that has held since an LT for a time. -/
def heldFor (t : Option Nat) (ns lt : Nat) : Bool := t.any fun a => decide (a + ns ≤ lt)

/-- CROSS_CHECK_DISAGREEMENT (R275): pair 0 DC link, 1 phase currents, 2 grid voltages. -/
def execCrossCheckDisagreement (pair : Nat) (s : State) : Res := .next <|
  let c := s.power.cross
  let at' (k : Nat) := c.getD k none
  let held := match pair with
    | 0 => heldFor (at' 0) 1000000 s.lt
    | 1 => [1, 2, 3].any fun k => heldFor (at' k) 1000000 s.lt
    | 2 => heldFor (at' 4) 10000000 s.lt
    | _ => false
  if held then s.controlledStop (4 + pair) else s

/-- HUB_SAMPLES_STALE (R278): a tag of slot 0 or 1 stale for 1 ms. -/
def execHubSamplesStale (k : Nat) (s : State) : Res := .next <|
  if k < 2 ∧ heldFor (s.slot 0 k).staleSince 1000000 s.lt then
    let x := s.slot 0 k
    (s.setSlot 0 k { x with staleSince := none }).controlledStop 19
  else s

/-- The path tests of a start are over and have passed (R363). -/
def State.testsPassed (s : State) : Bool := s.power.testing.isNone && !bit (s.rdN 0x4000 2 dev) 8

/-- GRID_LOCKED (R279, R286): the lock criteria have held for 100 ms; in state 1 KDRV0 closes. -/
def execGridLocked (s : State) : Res := .next <|
  if heldFor s.power.lockSince 100000000 s.lt then
    let s := (s.setPower { s.power with locked := true, lossJobs := 0 }).wr 0x3040 0xC dev 2
    if s.linkState = 1 ∧ s.testsPassed then (s.setLink 2).closeKdrv 0 else s
  else s

/-- GRID_LOSS (R280): a criterion held in 56 consecutive jobs. -/
def execGridLoss (s : State) : Res := .next <|
  if 56 ≤ s.power.lossJobs ∧ s.rd 0x3040 0xC dev ≠ 3 then
    ((s.setPower { s.power with locked := false, lockSince := none, lossJobs := 0 }).wr 0x3040 0xC dev 3).controlledStop 2
  else s

/-! ## Power-up (R285, R286, R363) -/

/-- Clear a DAB stage's latch; the stage stays stopped. -/
def State.clearDab (s : State) (n i : Nat) : State :=
  let d := s.die n
  let x := d.dab i
  if x.latched then
    let s := s.setDie n (d.setDab i { ({} : Dab) with started := false })
    let s := (s.wr 0x6012 (2 + i) (siteI n) 0).wr 0x3101 (1 + i) (siteI n) 0
    if ((s.die n).dab (1 - i)).latched then s else s.wr 0x3104 0 (siteI n) (clearBit (s.rdN 0x3104 0 (siteI n)) 0)
  else s

/-- Send a test frame to a die: its echo is due within 50 µs (R363). -/
def State.sendTest (s : State) (n corr : Nat) : State :=
  let d := s.die n
  (s.setDie n { d with echoAt := some (s.lt + 50000), arming := false, tested := false }).raiseFrame n .toDie 0x0B 127 corr

/-- Bit [8] clears when both tests have passed on every die (R363). -/
def State.testsDone (s : State) : State :=
  if s.power.testing.isNone ∧ !s.power.testFailed ∧ s.sites.all (fun n => (s.die n).tested) then s.clearHold 8 else s

/-- A path test failed: its code, bit [8], and in a start the controlled stop with cause 20 (R363). The tests of a start
run in DC-link state 1, before KDRV0 closes. -/
def State.pathFailed (s : State) (code : Nat) : State :=
  let s := (s.supFault code).setHold 8
  let s := s.setPower { s.power with testFailed := true, testing := none }
  if s.linkState = 1 then s.controlledStop 20 else s

/-- DCOV_TEST_END (R364): the 10 µs of a comparator's test end; it must have reported its trip and read untripped within 1 µs.
DCOV_B follows DCOV_A. -/
def execDcovTestEnd (k : Nat) (s : State) : Res := .next <|
  match s.power.testing with
  | some (j, t) =>
    if j = k ∧ t ≤ s.lt then
      if !s.power.tripSeen then s.pathFailed 0x52
      else if s.power.testHigh then (if t + 1000 ≤ s.lt then s.pathFailed 0x52 else s)
      else if k = 0 then s.setPower { s.power with testing := some (1, s.lt + 10000), tripSeen := false }
      else (s.setPower { s.power with testing := none, tripSeen := false }).testsDone
    else s
  | none => s

/-- A timer of a power-up state has run out. -/
def State.inStateFor (s : State) (st ns : Nat) : Bool := s.linkState == st && decide (s.power.stateSince + ns ≤ s.lt)

/-- GRID_SYNC_TIMEOUT (R286): 2 s in state 1. -/
def execGridSyncTimeout (s : State) : Res := .next (if s.inStateFor 1 2000000000 then s.controlledStop 11 else s)

/-- Precharge is complete (R286), on exact values: V_dc ≥ 0.9 × √2 × line, and less than 5 V of change in 10 ms. -/
def precharged (vdc vdc10 line : Nat) : Bool :=
  decide (162 * line ^ 2 ≤ 100 * vdc ^ 2) && decide (((vdc : Int) - vdc10).natAbs < 5000)

/-- V_dc 10 ms ago, when slot 2 has run for so long. -/
def State.vdcBefore (s : State) : Option Int := (s.power.vdcHist.find? fun e => decide (e.1 + 10000000 ≤ s.lt)).map (·.2)

/-- Precharge is complete at the hub's own measurements. -/
def State.prechargeDone (s : State) : Bool :=
  s.vdcBefore.any fun v => precharged s.vdcMv.toNat v.toNat (s.rdN 0x3040 0xE dev)

/-- PRECHARGE_COMPLETE (R286, R296): first the chopper's test pulse of 20 µs begins; when it ends and its current has shown,
KDRV1 closes. -/
def execPrechargeComplete (s : State) : Res := .next <|
  if s.linkState = 2 ∧ s.kfbClosed 0 ∧ !(s.kdrv 1).close then
    match s.power.testPulse with
    | none =>
      if s.prechargeDone ∧ (s.adc 0 0).diagUntil.isNone then
        s.chopOn.setPower { s.chopOn.power with testPulse := some (s.lt + 20000) }
      else s
    | some t => if t ≤ s.lt ∧ s.power.chopProve.isNone then (s.chopOff.wr 0x3070 3 dev 0).closeKdrv 1 else s
  else s

/-- PRECHARGE_TIMEOUT (R286). -/
def execPrechargeTimeout (s : State) : Res := .next <|
  if s.inStateFor 2 (s.rdN 0x3050 4 dev * 1000000) ∧ !(s.kdrv 1).close then s.controlledStop 10 else s

/-- MAIN_CONTACTOR_CLOSED (R286): KDRV0 opens and the AFE starts at the measured V_dc. -/
def execMainContactorClosed (s : State) : Res := .next <|
  if s.linkState = 2 ∧ (s.kdrv 1).close ∧ s.kfbClosed 1 then
    let s := (s.openKdrv 0).setLink 3
    let s := s.setPower { s.power with
      afeOn := true, vdcRef := (s.vdcMv : Rat) / 1000, iDc := 0, iD := 0, iQ := 0, npInt := 0 }
    if s.power.afeLatched then s
    else each (List.range 6) (fun s u => if (s.unit 0 u).latched then s else s.startUnit 0 u) s
  else s

/-- Start a segment's DAB pair: the bus setpoint rises from the measured bus voltage (R286, R292, R557). -/
def State.startDabs (s : State) (n : Nat) : State :=
  if s.rd 0x3100 0xA (siteI n) = 1 ∧ !(s.die n).unplanned then
    each [0, 1] (fun s i =>
      let d := s.die n
      let x := d.dab i
      if x.latched then s
      else
        let s := s.setDie n (d.setDab i { x with started := true, atBus := true, iPair := 0, iInt := 0, dInt := 0, limitSince := none })
        (s.startUnit n (64 + i)).wr 0x3101 (1 + i) (siteI n) 1) s
  else s

/-- AFE_RAMP_COMPLETE (R286): V_dc* stands at the setpoint; every enabled segment starts its pair. -/
def execAfeRampComplete (s : State) : Res := .next <|
  if s.linkState = 3 ∧ s.power.vdcRef = s.rdN 0x3060 1 dev then
    each s.sites (fun s n => if s.rd 0x1200 1 (siteI n) = 1 then s.startDabs n else s) (s.setLink 4)
  else s

/-- A started segment's bus lies within 2 % of its setpoint. -/
def State.busReady (s : State) (n : Nat) : Bool :=
  !((s.die n).dab0.started || (s.die n).dab1.started) ||
    let v := s.rd 0x3105 0 (siteI n)
    let r := s.rd 0x3100 4 (siteI n)
    decide (50 * (v - r).natAbs ≤ r.natAbs)

/-- SEGMENT_BUSES_READY (R286). -/
def execSegmentBusesReady (s : State) : Res := .next <|
  if s.linkState = 4 ∧ s.sites.all s.busReady then s.setLink 5 else s

/-- DC_LINK_UNDERVOLTAGE (R287): both DCL below the undervoltage for 1 ms in state 5. -/
def execDcLinkUndervoltage (s : State) : Res := .next <|
  if s.linkState = 5 ∧ heldFor s.power.underSince 1000000 s.lt then s.controlledStop 13 else s

/-! ## Chopper faults (R296) -/

/-- CHOPPER_OPEN: 20 µs after CHOP no conversion of ICHOP has shown the current; a failed test pulse stops the start, in states
3 to 5 only an entry follows. -/
def execChopperOpen (s : State) : Res := .next <|
  if s.power.chop ∧ due s.power.chopProve s.lt ∧ s.provable 0 7 s.power.chopSince then
    let test := s.power.testPulse.isSome
    let s := (s.chopOff.wr 0x3070 3 dev 2).chopNote
    if test then s.controlledStop 12 else s
  else s

/-- CHOPPER_SHORT: three conversions above 5 % while CHOP is not commanded. -/
def execChopperShort (s : State) : Res := .next <|
  if !s.power.chop ∧ (s.adc 0 0).diagUntil.isNone ∧ s.rd 0x3070 3 dev ≠ 3 ∧ 3 ≤ s.power.shortRun then
    ((s.wr 0x3070 3 dev 3).chopNote).controlledStop 8
  else s

/-- CHOPPER_OVERLOAD: CHOP on for longer than its limit. -/
def execChopperOverload (s : State) : Res := .next <|
  if s.power.chop ∧ s.power.chopSince + s.rdN 0x3070 2 dev * 1000000 < s.lt then
    ((s.chopOff.wr 0x3070 3 dev 5).chopNote).controlledStop 9
  else s

/-! ## DAB stages (R291, R293) -/

/-- VDC_UPDATE (R293): every 10 µs the hub's V_dc goes to every die that its link reaches. -/
def execVdcUpdate (s : State) : Res := .next <|
  if s.fw ∧ s.power.vdcSent.all (fun t => decide (t + 10000 ≤ s.lt)) then
    let v := s.vdcMv
    each s.sites (fun s n => if s.linkOk n .toDie then s.setDie n { s.die n with vdc := v, vdcAt := s.lt } else s)
      (s.setPower { s.power with vdcSent := some s.lt })
  else s

/-- DAB_AT_LIMIT (R291): in regulation or on the way to it. -/
def execDabAtLimit (n i : Nat) (s : State) : Res := .next <|
  if s.sitePop n ∧ i < 2 ∧ heldFor ((s.die n).dab i).limitSince 10000000 s.lt ∧
      (s.rd 0x3101 (1 + i) (siteI n) = 1 ∨ s.rd 0x3101 (1 + i) (siteI n) = 2) then
    (s.wr 0x3101 (1 + i) (siteI n) 3).noteAt n noChan 0x3004 (leNat 1 i ++ leNat 1 3)
  else s

/-- DAB_SAMPLES_STALE (R293): 200 µs of stale samples latch the stage. -/
def execDabSamplesStale (n i : Nat) (s : State) : Res := .next <|
  if s.sitePop n ∧ i < 2 ∧ heldFor (s.slot n (64 + i)).staleSince 200000 s.lt ∧ !((s.die n).dab i).latched then
    let s := s.wakeDie n 5
    (s.openCorr n).latchDab n i 8 0 (s.corrId n)
  else s

end Sys2Proof.Machine
end

