-- ==== Sys2Proof/Machine/PowerJobs.lean ====
section
/-! DEFINITION. The hub templates 16 to 19 (R275, R278 to R282, R296) and the DAB template 11 (R289 to R294), each as
what one job computes on exact values (log 7), with the gains of log 10. -/

namespace Sys2Proof.Machine

/-- Sine and cosine of a turn fraction, exact at the quarter turns. -/
def sinT (t : Rat) : Rat := sineOf t
def cosT (t : Rat) : Rat := sineOf (t + 1 / 4)

/-- The phase offset Δ in fine steps for a power in W, a DC-link and a bus voltage in V, the turns ratio in 10^-3, the leakage
in nH and the period in counts, by the single-phase-shift law (R290): with d = φ / π, P = n V_dc v_bus d (1 − |d|) / (2 f L),
and a phase of π is 16 × P fine steps. A power beyond the law's largest takes d = 1/2. -/
def shiftFor (pw vdc bus : Rat) (ratio nh p : Nat) : Rat :=
  let top := (ratio : Rat) / 1000 * vdc * bus
  let y := 2 * (320000000 / (p : Rat)) * ((nh : Rat) / 1000000000) * absQ pw / top
  let d := if pw = 0 then 0 else if top ≤ 0 ∨ 1 / 4 ≤ y then 1 / 2 else (1 - sqrtQ (1 - 4 * y)) / 2
  16 * p * (if pw < 0 then -d else d)

/-- The loop period of a slot in seconds. -/
def State.slotT (s : State) (die k : Nat) : Rat := (s.loopL die k : Rat) / 320000000

/-- A sample of a slot as a rational, in thousandths. -/
def Slot.milli (x : Slot) (tag : Nat) : Rat := ((x.sample tag).value : Rat) / 1000

/-- Every tag of a list is fresh. -/
def Slot.freshAll (x : Slot) (tags : List Nat) : Bool := tags.all fun t => (x.sample t).fresh

/-- A set placed symmetrically about mid-period at a duty (R282, R323). -/
def pwmSet (p : Nat) (d : Rat) : PSet :=
  let w := (roundQ (limQ 0 1 d * 32 * p)).toNat
  ⟨p, 16 * p - w / 2, 16 * p - w / 2 + w, 0⟩

/-- Stage a set on a unit and commit it. -/
def State.stageUnit (s : State) (die u : Nat) (set : PSet) : State :=
  let x := s.unit die u
  (s.setUnit die u { x with staged := set }).commitUnit die u

/-! ## Slot 1: grid synchronisation (R278 to R280) -/

/-- The grid as slot 1 sees it: v_α, v_β × √3 in V. -/
def gridAlpha (uv vw : Rat) : Rat := (2 * uv + vw) / 3
def gridBeta3 (uv vw : Rat) : Rat := gridAlpha uv vw + 2 * ((vw - uv) / 3)

/-- The voltage criteria of loss, on the squares of abs(V) and v_q (R280); the frequency criterion. -/
def vectorLost (v2 vq nom : Rat) : Bool := decide (v2 < nom ^ 2 / 6) || decide (24 * nom ^ 2 / 25 < v2) || decide (v2 < vq ^ 2 * 25)
def freqLost (f : Rat) : Bool := decide (f < 44) || decide (66 < f)

/-- Count a job of slot 1 toward the loss of the grid (R280): only a job whose sample interval begins at or after the onset
counts, one that begins before it neither counts nor breaks the run. `own` holds a criterion that only jobs tell. -/
def State.countLoss (s : State) (bad own : Bool) : State :=
  let p := s.power
  let x := s.slot 0 1
  let counts := p.onset.any (fun t => decide (t ≤ x.relFrom)) || p.jobOnset.any fun t => decide (t ≤ x.relFrom)
  s.setPower { p with
    jobOnset := if own || (bad && p.onset.isNone) then some (p.jobOnset.getD x.relAt) else none,
    lossJobs := if !bad then 0 else if counts then p.lossJobs + 1 else p.lossJobs }

/-- Track the lock and the loss criteria of one job (R279, R280). -/
def State.trackGrid (s : State) (v2 vq f nom : Rat) : State :=
  let ok := decide (vq ^ 2 * 2500 < v2) && decide (45 ≤ f) && decide (f ≤ 65)
  (s.setPower { s.power with lockSince := if ok then some (s.power.lockSince.getD s.lt) else none }).countLoss
    (vectorLost v2 vq nom || freqLost f) (freqLost f)

/-- A conversion of VG_UV or VG_VW tells from when the voltage criteria hold (R280), at the angle that the PLL has reached. -/
def State.watchGrid (s : State) : State :=
  let p := s.power
  let uv : Rat := ((s.win 5).last : Rat) / 1000
  let vw : Rat := ((s.win 6).last : Rat) / 1000
  let al := gridAlpha uv vw
  let b3 := gridBeta3 uv vw
  let th := p.theta + p.omega * (s.lt - p.gridAt : Nat) / 1000000000
  let vq := b3 / sqrtQ 3 * cosT th - al * sinT th
  s.setPower { p with onset := runOf p.onset (vectorLost (al ^ 2 + b3 ^ 2 / 3) vq (s.rd 0x3040 4 dev)) s.lt }

/-- Keep VG_WU and its zero crossings, each placed on the line between two jobs (R278). -/
def State.trackWu (s : State) (v : Rat) : State :=
  let p := s.power
  let cross := match p.wu with
    | some w =>
      if (w < 0 ∧ 0 ≤ v) ∨ (0 ≤ w ∧ v < 0) then
        ((p.gridAt : Rat) + ((s.lt : Rat) - p.gridAt) * w / (w - v)) :: p.wuCross.take 1
      else p.wuCross
    | none => p.wuCross
  s.setPower { p with wu := some v, wuCross := cross }

/-- VG_WU alone meets a criterion of loss (R278): its amplitude, from its last two values at the last ω, or the frequency of
its last two zero crossings (log 48). -/
def State.wuLost (s : State) (v nom : Rat) : Bool :=
  let p := s.power
  let d := p.omega * s.slotT 0 1
  let amp := match p.wu with
    | some w =>
      let sn := sinT d
      let a2 := v ^ 2 + ((v * cosT d - w) / sn) ^ 2
      sn != 0 && (decide (a2 < nom ^ 2 / 2) || decide (72 * nom ^ 2 / 25 < a2))
    | none => false
  amp || (match p.wuCross with
    | [a, b] => a != b && freqLost (1000000000 / (2 * (a - b)))
    | _ => false)

/-- Publish the angle, ω in mrad/s and v_gd, v_gq in mV. -/
def State.publishGrid (s : State) (e : Nat) (theta f : Rat) (vd vq : Rat) : State :=
  let x := s.eng 0 e
  s.setEng 0 e { x with pubs := [(0, wholeOf (theta * 4294967296) % 4294967296), (1, roundQ (f * 6283185307 / 1000000)),
    (2, roundQ (vd * 1000)), (3, roundQ (vq * 1000))] }

def State.gridJob (s : State) (e : Nat) : State :=
  let x := s.slot 0 1
  let p := s.power
  let t := s.slotT 0 1
  if (s.adc 0 0).diagUntil.isSome then
    -- R278: coast at the last ω, the published voltages kept; VG_WU alone tells a loss
    let th := p.theta + p.omega * t
    let th := th - th.floor
    let s := if (x.sample 2).fresh then
        let bad := s.wuLost (x.milli 2) (s.rd 0x3040 4 dev)
        (s.trackWu (x.milli 2)).countLoss bad bad
      else s
    (s.setPower { s.power with theta := th, gridAt := s.lt }).publishGrid e th p.omega p.vd p.vq
  else if !x.freshAll [0, 1, 2] then s
  else
    let al := gridAlpha (x.milli 0) (x.milli 1)
    let b3 := gridBeta3 (x.milli 0) (x.milli 1)
    let be := b3 / sqrtQ 3
    let vd := al * cosT p.theta + be * sinT p.theta
    let vq := be * cosT p.theta - al * sinT p.theta
    let v2 := al ^ 2 + b3 ^ 2 / 3
    let va := sqrtQ v2
    let s := if va = 0 then s.draw else s
    let r := ratioQ s.free vq va
    let f := 50 + Config.gain 4 * r + p.iPll
    let th := p.theta + f * t
    let th := th - th.floor
    let s := s.trackWu (x.milli 2)
    let s := s.setPower { s.power with
      theta := th, omega := f, iPll := p.iPll + Config.gain 5 * t * r, vd := vd, vq := vq, gridAt := s.lt }
    let s := (s.wr 0x3040 0xD dev (roundQ (f * 1000))).wr 0x3040 0xE dev (roundQ (va * sqrtQ (3 / 2) * 1000))
    (s.trackGrid v2 vq f (s.rd 0x3040 4 dev)).publishGrid e th f vd vq

/-! ## Slot 0: AFE (R281, R282) -/

/-- An integrator after a job: held when its output is at a limit in the direction of its error (R118). -/
def integ (i ki t e : Rat) (hi lo : Bool) : Rat :=
  if (hi && decide (0 < e)) || (lo && decide (e < 0)) then i else i + ki * t * e

/-- The modulation of the three phases before its limit. -/
def afeMod (k : Nat) (vcd vcq theta vdc np : Rat) : List Rat :=
  let ph (o : Rat) := ratioQ k (vcd * cosT (theta + o) - vcq * sinT (theta + o)) (vdc / 2)
  let m := [ph 0, ph (-1 / 3), ph (1 / 3)]
  let mx := m.foldl max (m.headD 0)
  let mn := m.foldl min (m.headD 0)
  m.map fun v => v - (mx + mn) / 2 + np

/-- Drive the two pairs of a phase (R282). -/
def State.stagePhase (s : State) (x : Nat) (m : Rat) : State :=
  let p := s.rdN 0x3040 1 dev
  let m := limQ (-1) 1 m
  (s.stageUnit 0 (2 * x) (pwmSet p (if 0 ≤ m then m else 0))).stageUnit 0 (2 * x + 1) (pwmSet p (if 0 ≤ m then 0 else -m))

/-- V_dc* moves toward the setpoint at 200 V/s (R286). -/
def State.rampVdc (s : State) : State :=
  let p := s.power
  let set : Rat := s.rd 0x3060 1 dev
  let d := limQ (-(200 * s.slotT 0 0)) (200 * s.slotT 0 0) (set - p.vdcRef)
  s.setPower { p with vdcRef := p.vdcRef + d }

def State.afeJob (s : State) : State :=
  let x := s.slot 0 0
  if !s.power.afeOn ∨ !x.freshAll [0, 1, 2, 3, 4, 5, 6, 8, 9] then s
  else
    let s := s.rampVdc
    let p := s.power
    let t := s.slotT 0 0
    let th : Rat := ((x.sample 5).value : Rat) / 4294967296
    let w := x.milli 6
    let vdc := x.milli 0
    let ia := x.milli 2
    let ib := (x.milli 2 + 2 * x.milli 3) / sqrtQ 3
    let id := ia * cosT th + ib * sinT th
    let iq := ib * cosT th - ia * sinT th
    let pk := sqrtQ 2 * (s.rd 0x3040 5 dev : Rat) / 1000
    let e := p.vdcRef - vdc
    let raw := (s.rd 0x3040 0xA dev : Rat) / 1000 * e + p.iDc
    let regen := p.fullRegen && p.locked
    let idR := if regen then -pk else limQ (-pk) pk raw
    let qm := sqrtQ (pk ^ 2 - idR ^ 2)
    let iqR := limQ (-qm) qm (sqrtQ 2 * (s.rd 0x3040 6 dev : Rat) / 1000)
    let kp := (s.rd 0x3040 8 dev : Rat) / 1000
    let ki := (s.rd 0x3040 9 dev : Rat) / 1000
    let lb := (s.rd 0x3040 7 dev : Rat) / 1000000000
    let ud := kp * (idR - id) + p.iD
    let uq := kp * (iqR - iq) + p.iQ
    let vcd := x.milli 8 + w * lb * iq - ud
    let vcq := x.milli 9 - w * lb * id - uq
    let imb := x.milli 1
    let npRaw := Config.gain 6 * imb + p.npInt
    let np := limQ (-1 / 20) (1 / 20) npRaw
    let s := if vdc = 0 then s.draw else s
    let m := afeMod s.free vcd vcq th vdc np
    let sat := m.any fun v => decide (1 < v) || decide (v < -1)
    -- R281: a positive error lowers its axis's voltage, so it drives a limited modulation further out below 0, a negative one above
    let outD := sat && decide (vcd < 0)
    let inD := sat && decide (0 < vcd)
    let lim := decide (raw ≤ -pk) || decide (pk ≤ raw) || regen
    let s := s.setPower { s.power with
      iDc := if regen then p.iDc
        else integ p.iDc ((s.rd 0x3040 0xB dev : Rat) / 1000) t e (decide (pk ≤ raw) || outD) (decide (raw ≤ -pk) || inD),
      iD := integ p.iD ki t (idR - id) outD inD, iQ := integ p.iQ ki t (iqR - iq) (sat && decide (vcq < 0)) (sat && decide (0 < vcq)),
      npInt := integ p.npInt (Config.gain 7) t imb (decide (1 / 20 ≤ npRaw)) (decide (npRaw ≤ -1 / 20)) }
    let s := (s.wr 0x3040 0xF dev (roundQ (id * 1000))).wr 0x3040 0x10 dev (roundQ (iq * 1000))
    let s := s.wr 0x3040 0x11 dev (((if p.afeLatched then 1 else 0) + (if lim then 2 else 0) + (if regen then 4 else 0) : Nat) : Int)
    each [0, 1, 2] (fun s k => s.stagePhase k (m.getD k 0)) s

/-! ## Slots 2 and 3 (R275, R296, R297) -/

/-- The limits of R275. -/
def dclDiffers (a b : Int) : Bool := decide (max ((a + b).natAbs : Int) 1000000 < 200 * (a - b).natAbs)
def phaseDiffers (a b : Int) : Bool := decide (max (max (a.natAbs : Int) b.natAbs) 250000 < 50 * (a - b).natAbs)
def gridDiffers (sum nom : Int) : Bool := decide (2 * (nom * 1000) ^ 2 < 400 * sum ^ 2)

/-- Slot 2: the sensor cross-checks, whose timers stand still while unit 0 or 1 is diagnosed (R278), the discharge integral,
and what the last 10 ms of V_dc were. -/
def State.linkJob (s : State) : State :=
  let x := s.slot 0 2
  let p := s.power
  let v (k : Nat) := (x.sample k).value
  let grid := (s.win 5).last + (s.win 6).last + (s.win 21).last
  let found := [dclDiffers (v 0) (v 1), phaseDiffers (v 5) (v 2), phaseDiffers (v 6) (v 3), phaseDiffers (v 7) (v 4),
    gridDiffers grid (s.rd 0x3040 4 dev)]
  let paused := (s.adc 0 0).diagUntil.isSome || (s.adc 0 1).diagUntil.isSome || !x.freshAll [0, 1, 2, 3, 4, 5, 6, 7]
  let cross := if paused then p.cross.map (Option.map (· + s.loopL 0 2 * 25 / 8))
    else (List.range 5).map fun k => runTo (p.cross.getD k none) (if k = 4 then 10000000 else 1000000) (found.getD k false) s.lt
  let en := if p.adis then p.energy + ((s.vdcMv : Rat) / 1000) ^ 2 / ((s.rdN 0x3070 4 dev : Rat) / 1000) * s.slotT 0 2 else p.energy
  let old := p.vdcHist.takeWhile fun e => decide (s.lt < e.1 + 10000000)
  let hist := (s.lt, s.vdcMv) :: old ++ (p.vdcHist.drop old.length).take 1
  let s := s.setPower { p with cross := cross, energy := en, vdcHist := hist }
  if p.adis then s.wr 0x3070 6 dev (wholeOf en) else s

/-- Slot 3: CHOP on at V_chop_on, off at V_chop_off; a latched chopper stays off. -/
def State.chopJob (s : State) : State :=
  let x := s.slot 0 3
  if !(x.sample 0).fresh then s
  else
    let v := (x.sample 0).value
    if s.rd 0x3060 3 dev * 1000 ≤ v ∧ !([2, 3, 5].contains (s.rdN 0x3070 3 dev)) then s.chopOn
    else if v ≤ s.rd 0x3060 2 dev * 1000 ∧ s.power.testPulse.isNone then s.chopOff
    else s

/-! ## The DAB template (R290, R291, R294) -/

/-- i_pair* of a job: the bus regulator, or its way to 0 while tag 7 [1] is set (R290, R294). -/
def Dab.pair (x : Dab) (v rate : Rat) (stop : Bool) : Rat :=
  if stop then limQ (min x.iPair 0) (max x.iPair 0) (if 0 < x.iPair then max 0 (x.iPair - rate) else min 0 (x.iPair + rate))
  else Config.gain 0 * (x.vRef - v) + x.iInt

/-- A DAB job of stage `i` of die `n` on engine `e`. -/
def State.dabJob (s : State) (n i e : Nat) : State :=
  let x := s.slot n (64 + i)
  let d := s.die n
  let b := d.dab i
  if !x.freshAll [0, 1, 3] ∨ !b.started then s
  else
    let t := s.slotT n (64 + i)
    let site := siteI n
    let v : Rat := ((x.sample 0).value : Rat) / 1000000
    let own := x.milli 1
    let set : Rat := (s.rd 0x3100 4 site : Rat) / 1000
    let v0 := if b.atBus then v else b.vRef
    let b := { b with atBus := false, vRef := v0 + limQ (-(1000 * t)) (1000 * t) (set - v0) }
    let stop := bit ((x.sample 7).value.toNat) 1
    let pair := b.pair v ((s.rd 0x2441 4 (chanOf n 0) : Rat) * 1000 * t) stop
    let s := if v = 0 then s.draw else s
    let lim := ratioQ s.free (s.rd 0x3100 5 site) v
    let raw := pair / 2 + (x.milli 2 - own) / 2
    let i' := limQ (-lim) lim raw
    let p := s.rdN 0x3100 1 site
    let dl : Rat := (s.rd 0x3100 6 site : Rat) * 32 * p / 3600
    let dRaw := shiftFor (i' * v) (x.milli 3) v (s.rdN 0x3100 0xB site) (s.rdN 0x3100 0xC site) p +
      Config.gain 2 * (i' - own) + b.dInt
    let dd := limQ (-dl) dl dRaw
    let atLim := decide (i' ≠ raw) || decide (dd ≠ dRaw)
    let b := { b with
      iPair := pair, iInt := if stop || atLim then b.iInt else b.iInt + Config.gain 1 * t * (b.vRef - v),
      dInt := if decide (dd ≠ dRaw) then b.dInt else b.dInt + Config.gain 3 * t * (i' - own),
      limitSince := if atLim then some (b.limitSince.getD s.lt) else none }
    let d := s.die n
    let s := s.setDie n (d.setDab i b)
    let st := s.rd 0x3101 (1 + i) site
    let s := s.wr 0x3101 (1 + i) site (if st = 3 ∧ atLim then 3 else if b.vRef = set then 2 else 1)
    let s := ((s.wr 0x3102 (1 + i) site (roundQ dd)).wr 0x3103 (1 + i) site (x.sample 1).value).wr 0x3105 0 site (roundQ (v * 1000))
    let en := s.eng n e
    s.setEng n e { en with staged := [some (0, p), some (1, 0), some (2, 16 * p), some (3, roundQ dd), none] }

end Sys2Proof.Machine
end

