-- ==== Sys2Proof/Machine/AuxDrives.lean ====
section
/-! DEFINITION. The auxiliary drives (chapter 10): four sensorless BLDC drives and four stepper axes. Times of the
commutation units are counts of the hub's 320 MHz time base. -/

namespace Sys2Proof.Machine

/-! ## Tables -/

/-- The ramp table of a drive; unset, the two rows of the example: (0 ms, 60 rpm, 5 %) and (1,000 ms, 900 rpm, 25 %). -/
def defaultRamp : List Byte :=
  padTo 128 (leNat 2 0 ++ leNat 2 60 ++ leNat 2 500 ++ leNat 2 0 ++ leNat 2 1000 ++ leNat 2 900 ++ leNat 2 2500 ++ leNat 2 0)

/-- The advance table; unset, speeds 0 to 60,000 in 4,000 steps, advance 0. -/
def defaultAdvance : List Byte := (List.range 16).flatMap fun i => leNat 2 (4000 * i) ++ leNat 2 0

def orDefault (d b : List Byte) : List Byte := if b.isEmpty then d else b

def State.rampTable (s : State) (a : Nat) : List Byte := orDefault defaultRamp (s.rdB 0x340B (a + 1) dev)
def State.advanceTable (s : State) (a : Nat) : List Byte := orDefault defaultAdvance (s.rdB 0x340E (a + 1) dev)

/-- The used rows of a ramp table: time ms, speed rpm, duty 0.01 % (R317). -/
def rampRows (b : List Byte) : List (Nat × Nat × Nat) :=
  let rs := (List.range 16).map fun i => (fieldAt b (8 * i) 2, fieldAt b (8 * i + 2) 2, fieldAt b (8 * i + 4) 2)
  let more := ((List.range 16).drop 1).filter fun i => (sliceB b (8 * i) 8).any (· ≠ 0)
  rs.take (more.getLastD 0 + 1)

/-- A ramp table obeys R317. -/
def rampOk (b : List Byte) : Bool :=
  let rs := rampRows b
  b.length == 128 && decide (2 ≤ rs.length) && (rs.map (·.1)).head? == some 0 &&
    ((rs.map (·.1)).zip ((rs.map (·.1)).drop 1)).all (fun p => decide (p.1 < p.2)) &&
    (List.range 16).all fun i => fieldAt b (8 * i + 6) 2 == 0

/-- An advance table obeys R311. -/
def advanceOk (b : List Byte) : Bool :=
  let sp := (List.range 16).map fun i => fieldAt b (4 * i) 2
  b.length == 64 && (sp.zip (sp.drop 1)).all (fun p => decide (p.1 < p.2)) &&
    (List.range 16).all fun i => decide (fieldAt b (4 * i + 2) 2 ≤ 300)

/-- Linear interpolation over ascending points; the end values outside. -/
def interp (x : Rat) : List (Rat × Rat) → Rat
  | [] => 0
  | [p] => p.2
  | p :: q :: t => if x ≤ p.1 then p.2 else if x ≤ q.1 then p.2 + (q.2 - p.2) * (x - p.1) / (q.1 - p.1) else interp x (q :: t)

/-- The ramp's speed and duty at a time in ms. -/
def rampAt (b : List Byte) (ms : Rat) : Rat × Rat :=
  let rs := rampRows b
  (interp ms (rs.map fun r => ((r.1 : Rat), (r.2.1 : Rat))), interp ms (rs.map fun r => ((r.1 : Rat), (r.2.2 : Rat))) / 10000)

/-- The advance δ in 0.1° at a speed. -/
def advanceAt (b : List Byte) (rpm : Rat) : Rat :=
  interp rpm ((List.range 16).map fun i => ((fieldAt b (4 * i) 2 : Rat), (fieldAt b (4 * i + 2) 2 : Rat)))

/-! ## BLDC drives -/

/-- The hub units of a drive (R304). -/
def bldcUnits (a : Nat) : List Nat := [8 + 3 * a, 9 + 3 * a, 10 + 3 * a]

/-- The settings of U, V, W in a commutation state (R308): 0 PWM, 1 LOW, 2 FLOAT. -/
def commGates (k : Nat) : List Nat :=
  match k with
  | 0 => [0, 1, 2]
  | 1 => [0, 2, 1]
  | 2 => [2, 0, 1]
  | 3 => [1, 0, 2]
  | 4 => [1, 2, 0]
  | _ => [2, 1, 0]

/-- Set how the three pairs of a drive are driven; the outputs follow at once, with the dead time (R100, R306). While the hub
is halted they keep their levels (R105). -/
def State.setGates (s : State) (a : Nat) (g : List Nat) : State :=
  if (s.die 0).halted then s else each [0, 1, 2] (fun s x =>
    let u := 8 + 3 * a + x
    let y := s.unit 0 u
    let y := { y with gate := g.getD x 2 }
    (s.setUnit 0 u y).askNow u (if !y.latched && (y.running || y.gate == 1) then y.pair false else [false, false])) s

/-- Every pair to FLOAT. -/
def State.floatAll (s : State) (a : Nat) : State := s.setGates a [2, 2, 2]

/-- Every output of a drive low at once, its generator units stopped. -/
def State.driveCut (s : State) (a : Nat) : State := (s.floatAll a).cutUnits (bldcUnits a)

/-- The same as a change of state of the drive does it: while the hub is halted, its outputs go low at the resume (R105). -/
def State.driveLow (s : State) (a : Nat) : State := if (s.die 0).halted then s else s.driveCut a

/-- The drive's generator units run (R79). -/
def State.driveRun (s : State) (a : Nat) : State :=
  each (bldcUnits a) (fun s u => if (s.unit 0 u).latched then s else s.startUnit 0 u) s

def State.driveState (s : State) (a : Nat) : Nat := s.rdN 0x341A (a + 1) dev

/-- Enter a drive state. -/
def State.enterDrive (s : State) (a st : Nat) : State :=
  let x := s.drive a
  (s.setDrive a { x with since := s.lt, limited := false }).wr 0x341A (a + 1) dev st

/-- Stage a duty on the drive's pairs: rise 0, fall at the duty. -/
def State.driveDuty (s : State) (a : Nat) (d : Rat) : State :=
  let p := s.rdN 0x3422 0 dev
  each (bldcUnits a) (fun s u => s.stageUnit 0 u ⟨p, 0, (roundQ (limQ 0 1 d * 32 * p)).toNat, 0⟩) s

/-- Latch a drive (R505): outputs low, state 8, its cause, entry 0x3401. -/
def State.latchDrive (s : State) (a cause : Nat) : State :=
  if s.driveState a = 8 then s
  else
    let s := ((s.driveCut a).enterDrive a 8).wr 0x3420 (a + 1) dev cause
    let s := s.setDrive a { s.drive a with corr := s.corrId 0 }
    (s.dropJobs 0 (4 + a)).note 0x3401 (leNat 1 cause ++ leInt 1 (s.rd 0x341D (a + 1) dev))

/-- T60 in counts, exact: the mean of the last two commutation intervals (R310). -/
def Bldc.t60 (x : Bldc) : Rat := ((x.t1 + x.t2 : Nat) : Rat) / 2

/-- The measured speed in rpm, exact (R310); 0 before an interval. -/
def State.speedOf (s : State) (a : Nat) (t60 : Rat) : Rat :=
  if t60 = 0 then 0 else 3200000000 / ((s.rd 0x3401 (a + 1) dev : Rat) * t60)

/-- The latest completed speed measurement of a drive. -/
def State.speedNow (s : State) (a : Nat) : Rat := s.speedOf a (s.drive a).t60

/-- The commutation interval of a speed in counts; its rounding is left open (log 9). -/
def State.intervalOf (s : State) (a : Nat) (rpm : Rat) : Nat :=
  if rpm = 0 then 0 else (wholeOf (3200000000 / ((s.rd 0x3401 (a + 1) dev : Rat) * rpm))).toNat

/-- Show a measured speed with the sign of the drive's direction. -/
def State.showSpeed (s : State) (a : Nat) (rpm : Rat) : State :=
  s.wr 0x341B (a + 1) dev (if (s.drive a).forward then roundQ rpm else -(roundQ rpm))

/-- The magnitude of the latest speed measurement. -/
def State.measured (s : State) (a : Nat) : Nat := (s.rd 0x341B (a + 1) dev).natAbs

/-- The direction of a setpoint differs from the drive's. -/
def State.reverses (s : State) (a : Nat) (rpm : Int) : Bool :=
  decide (rpm ≠ 0) && (decide (0 < rpm) != (s.drive a).forward)

/-- The drive turns faster than the catch threshold. -/
def State.tooFast (s : State) (a : Nat) : Bool := decide ((s.rdN 0x3405 (a + 1) dev : Rat) < s.speedNow a)

/-- The job of a drive's slot in which a count falls, and an LT (R178, R179): its releases cut time into jobs. -/
def State.jobAt (s : State) (a t : Nat) : Nat :=
  let l := max (s.loopL 0 (4 + a)) 1
  (t + l - (s.slotPhi 0 (4 + a) + (s.slot 0 (4 + a)).offset) % l) / l
def State.jobAtLt (s : State) (a t : Nat) : Nat := s.jobAt a ((s.cnt 0 : Int) + ((t : Int) - s.lt) * 8 / 25).toNat

/-- The LT at which the brake time of a drive ends (R315), and the ramp table (R317). -/
def State.brakeEnd (s : State) (a : Nat) : Nat := (s.drive a).brakeSince + s.rdN 0x3408 (a + 1) dev * 1000000
def State.rampEnd (s : State) (a : Nat) : Nat := (s.drive a).since + ((rampRows (s.rampTable a)).getLastD (0, 0, 0)).1 * 1000000

/-- The counts without a crossing after which a rotor is locked (R318). -/
def State.lockCounts (s : State) (a : Nat) : Rat := 6400000000 / ((s.rd 0x3401 (a + 1) dev : Rat) * s.rd 0x3402 (a + 1) dev)

/-- The checks of a setpoint (R321, R334, R557). -/
def setpointCheck (a : Nat) (v : Int) (s : State) (_ : Nat) : Nat :=
  let st := s.driveState a
  if v ≠ 0 ∧ ((v.natAbs : Int) < s.rd 0x3402 (a + 1) dev ∨ s.rd 0x3403 (a + 1) dev < v.natAbs) then aRange
  else if st = 8 ∨ st = 9 ∨ (s.drive a).ss1 then aNotIdle
  else if s.reverses a v ∧ 1 ≤ st ∧ st ≤ 4 then aNotIdle
  else if s.reverses a v ∧ (st = 5 ∨ st = 6) ∧ s.tooFast a then aNotIdle
  else if (s.die 0).unplanned then aNoPlan
  else aDone

/-- A refused reversal is counted (R321). -/
def State.countReversal (s : State) (a : Nat) (v : Int) : State :=
  let st := s.driveState a
  if s.reverses a v ∧ (st = 5 ∨ st = 6) ∧ s.tooFast a then s.inc 0x341F (a + 1) dev else s

/-- Begin a Listen in the direction of the setpoint. -/
def State.beginListen (s : State) (a : Nat) : State :=
  let x := s.drive a
  let s := s.setDrive a { x with forward := decide (0 ≤ s.rd 0x3400 (a + 1) dev), consistent := 0, seen := [], rotor := none }
  (s.driveLow a).enterDrive a 1

/-- The effect of an accepted setpoint (R312, R321). -/
def setpointSet (a : Nat) (v : Int) (s : State) (_ : Nat) : State :=
  let st := s.driveState a
  let rev := s.reverses a v
  let s := s.leaveStandby.wr 0x3400 (a + 1) dev v
  if st = 0 then (if v = 0 then s else s.beginListen a)
  else if v = 0 then
    if st = 5 then s.enterDrive a 6 else if st = 6 then s else (s.driveLow a).enterDrive a 0
  else if rev ∧ (st = 5 ∨ st = 6) then s.beginListen a
  else s

/-- SPEED_SETPOINT (R321). -/
def execSpeedSetpoint (src : Src) (a : Nat) (rpm : Int) (s : State) : Res :=
  let counts := (s.writeChecks src 0x3400 (a + 1) [dev] rpm (setpointCheck a rpm)).map (·.code) == some aNotIdle && s.serves src
  .next ((when' counts (·.countReversal a rpm) s).writeObj src 0x3400 (a + 1) [dev] rpm (setpointCheck a rpm) (setpointSet a rpm))

/-- A drive number. -/
def isDrive (a : Nat) : Bool := decide (a < 4)

/-- The next commutation state in a direction (R308). -/
def nextComm (fwd : Bool) (k : Nat) : Nat := if fwd then (k + 1) % 6 else (k + 5) % 6

/-- The floating phase of a commutation state (R308). -/
def floatOf (k : Nat) : Nat := 2 - k % 3

/-- The level that the floating phase's comparator takes at the crossing of a state: that of the phase's next setting, high
when it is PWM (log 183). -/
def crossHigh (fwd : Bool) (k : Nat) : Bool := (commGates (nextComm fwd k)).getD (floatOf k) 2 == 0

/-- The commutation state whose crossing a forward rotor shows by this level of this phase. -/
def crossState (phase : Nat) (high : Bool) : Nat := ((List.range 6).find? fun k => floatOf k == phase && crossHigh true k == high).getD 0

/-- A listen sees a crossing (R313): three in a row in a sequence classify the rotor, with the last two intervals. -/
def Bldc.see (x : Bldc) (c : Crossing) : Bldc :=
  let l := ((crossState c.phase c.high, c.at') :: x.seen).take 3
  let r := match l with
    | [n, m, o] =>
      if n.1 = (m.1 + 1) % 6 ∧ m.1 = (o.1 + 1) % 6 then some (true, n.1, n.2 - m.2, m.2 - o.2)
      else if n.1 = (m.1 + 5) % 6 ∧ m.1 = (o.1 + 5) % 6 then some (false, (n.1 + 3) % 6, n.2 - m.2, m.2 - o.2)
      else x.rotor
    | _ => x.rotor
  { x with seen := l, rotor := r }

/-- The speed of the rotor that a listen has seen (R313); a standstill counts as below the catch threshold. -/
def State.rotorFast (s : State) (a : Nat) : Bool :=
  match (s.drive a).rotor with
  | some (_, _, t1, t2) => decide (((s.rdN 0x3405 (a + 1) dev : Nat) : Rat) ≤ s.speedOf a (((t1 + t2 : Nat) : Rat) / 2))
  | none => false

/-- The drive's VAUX input in mV (R305). -/
def State.vAux (s : State) (a : Nat) : Int := (s.win (if a < 2 then 38 else 54)).last

/-- Catch a rotor that turns with the command (R314): its state `k`, its last two intervals. -/
def State.catchRotor (s : State) (a k t1 t2 : Nat) : State :=
  let x := s.drive a
  let n := s.speedOf a (((t1 + t2 : Nat) : Rat) / 2)
  let k' := nextComm x.forward k
  let s := if s.vAux a = 0 then s.draw else s
  let d := ratioQ s.free ((s.rd 0x3406 (a + 1) dev : Rat) * n / 1000) (s.vAux a)
  let s := (s.driveRun a).setDrive a { x with
    comm := k', speedRef := n, int := d, t1 := t1, t2 := t2, lastCross := s.cnt 0, lastComm := s.cnt 0,
    nextComm := none, limited := false }
  let s := (s.showSpeed a n).driveDuty a d
  (s.setGates a (commGates k')).enterDrive a 5

/-- Enter Align (R316). -/
def State.beginAlign (s : State) (a : Nat) : State :=
  let x := s.drive a
  let k := if x.forward then 5 else 0
  let s := (s.driveRun a).setDrive a { x with comm := k, int := 0 }
  ((s.driveDuty a 0).setGates a (commGates k)).enterDrive a 3

/-- Enter Brake (R315). -/
def State.beginBrake (s : State) (a : Nat) : State :=
  let x := s.drive a
  let s := (s.driveRun a).setDrive a { x with brakeSince := s.lt, floating := false }
  ((s.driveDuty a ((s.rd 0x3407 (a + 1) dev : Rat) / 10000)).setGates a [3, 3, 3]).enterDrive a 2

/-- LISTEN_END (R312 to R314): 200 ms of Listen are over. -/
def execListenEnd (a : Nat) (s : State) : Res := .next <|
  let x := s.drive a
  if isDrive a ∧ !(s.die 0).halted ∧ s.driveState a = 1 ∧ x.since + 200000000 ≤ s.lt then
    match x.rotor with
    | some (fwd, k, t1, t2) =>
      if !s.rotorFast a then s.beginAlign a else if fwd = x.forward then s.catchRotor a k t1 t2 else s.beginBrake a
    | none => s.beginAlign a
  else s

/-- The length of a listen window of Brake in ns (R315). -/
def State.windowNs (s : State) (a : Nat) : Nat :=
  max 20000000 (40000000000 / max (s.rdN 0x3401 (a + 1) dev * s.rdN 0x3405 (a + 1) dev) 1)

/-- BRAKE_WINDOW (R315): the 50 ms of braking end and a window opens, or the window ends with the rotor it saw. A window that
ends in the job of the brake time limit decides nothing (R179). -/
def execBrakeWindow (a : Nat) (s : State) : Res := .next <|
  let x := s.drive a
  if isDrive a ∧ !(s.die 0).halted ∧ s.driveState a = 2 then
    if !x.floating then
      if x.since + 50000000 ≤ s.lt then
        (s.setDrive a { x with floating := true, since := s.lt, seen := [], rotor := none }).floatAll a
      else s
    else if x.since + s.windowNs a ≤ s.lt ∧ s.lt < s.brakeEnd a ∧ s.jobAt a (s.cnt 0) < s.jobAtLt a (s.brakeEnd a) then
      if s.rotorFast a then (s.setDrive a { x with floating := false, since := s.lt }).setGates a [3, 3, 3] else s.beginAlign a
    else s
  else s

/-- BRAKE_FAILED (R315): the brake time limit passes. -/
def execBrakeFailed (a : Nat) (s : State) : Res := .next <|
  if isDrive a ∧ s.driveState a = 2 ∧ s.brakeEnd a ≤ s.lt then s.latchDrive a 4 else s

/-- ALIGN_END (R316): Ramp begins in state 0 forward or state 5 backward. -/
def execAlignEnd (a : Nat) (s : State) : Res := .next <|
  let x := s.drive a
  if isDrive a ∧ !(s.die 0).halted ∧ s.driveState a = 3 ∧ x.since + s.rdN 0x340A (a + 1) dev * 1000000 ≤ s.lt then
    let k := if x.forward then 0 else 5
    let t := s.intervalOf a (rampAt (s.rampTable a) 0).1
    let s := s.setDrive a { x with comm := k, lastComm := s.cnt 0, t1 := t, t2 := t, nextComm := none, consistent := 0 }
    (s.setGates a (commGates k)).enterDrive a 4
  else s

/-- The time in Ramp in ms, and the ramp's speed and duty there. -/
def State.rampMs (s : State) (a : Nat) : Rat := ((s.lt - (s.drive a).since : Nat) : Rat) / 1000000
def State.rampNow (s : State) (a : Nat) : Rat × Rat := rampAt (s.rampTable a) (s.rampMs a)

/-- Commutate at a count. -/
def State.commutate (s : State) (a : Nat) : State :=
  let x := s.drive a
  let k := nextComm x.forward x.comm
  let now := s.cnt 0
  let t := now - x.lastComm
  let x := { x with comm := k, lastComm := now, t2 := x.t1, t1 := t, nextComm := none }
  let s := (s.setDrive a x).setGates a (commGates k)
  s.showSpeed a (s.speedOf a x.t60)

/-- COMMUTATION (R308, R310, R317): due after a crossing in states 5 and 6, by the ramp's speed in state 4. -/
def execCommutation (a : Nat) (s : State) : Res := .next <|
  let x := s.drive a
  if !isDrive a ∨ (s.die 0).halted then s
  else if s.driveState a = 4 then
    let n := (s.rampNow a).1
    if n ≠ 0 ∧ x.lastComm + s.intervalOf a n ≤ s.cnt 0 then s.commutate a else s
  else if s.driveState a = 5 ∨ s.driveState a = 6 then
    match x.nextComm with
    | some t => if t ≤ s.cnt 0 then s.commutate a else s
    | none => s
  else s

/-- A comparator is blanked at a count (R309): 1 µs after a PWM edge of the drive, and the first 25 % of the last commutation
interval after a commutation. -/
def State.bemfBlanked (s : State) (a t : Nat) : Bool :=
  let x := s.drive a
  decide (4 * t < 4 * x.lastComm + x.t1) || (bldcUnits a).any fun u =>
    let y := s.unit 0 u
    y.gate == 0 && (y.lastEdge :: y.edges.map (·.1)).any fun e => decide (e ≤ 32 * t) && decide (32 * t < e + 10240)

/-- An accepted crossing (R309): the floating phase takes the level expected for the direction, the first time in this
commutation interval and not blanked, and holds it for 2 µs. -/
def State.accepts (s : State) (a : Nat) (c : Crossing) : Bool :=
  let x := s.drive a
  c.phase == floatOf x.comm && c.high == crossHigh x.forward x.comm && decide (c.at' + 640 ≤ s.cnt 0) &&
    decide (x.lastCross ≤ x.lastComm) && decide (x.lastComm < c.at') && !s.bemfBlanked a c.at'

/-- A crossing of the ramp is consistent (R317): within 25 % of T60 of the instant half of T60 after the commutation. -/
def Bldc.fits (x : Bldc) (t : Nat) : Bool :=
  decide (8 * ((t : Rat) - x.lastComm) ≤ 6 * x.t60) && decide (2 * x.t60 ≤ 8 * ((t : Rat) - x.lastComm))

/-- The next commutation after an accepted crossing (R310); the rounding to a count is left open (log 9). -/
def State.planComm (s : State) (a t : Nat) : State :=
  let x := s.drive a
  let adv := advanceAt (s.advanceTable a) (s.speedOf a x.t60)
  s.setDrive a { x with lastCross := t, nextComm := some (t + (wholeOf (x.t60 * (300 - adv) / 600)).toNat) }

/-- The handover from Ramp to Run (R317); its crossing sets the next commutation. -/
def State.handover (s : State) (a t : Nat) : State :=
  let x := s.drive a
  let (n, d) := s.rampNow a
  ((s.setDrive a { x with speedRef := n, int := d }).planComm a t).enterDrive a 5

/-- ZERO_CROSSING (R309, R310, R313, R317, R318): a listen sees it; an accepted one counts toward the handover, up to the job in
which the ramp table ends, or sets the next commutation, up to the job before the one in which the rotor is locked. -/
def execZeroCrossing (a : Nat) (c : Crossing) (s : State) : Res := .next <|
  let x := s.drive a
  let st := s.driveState a
  if !isDrive a then s
  else if st = 1 ∨ (st = 2 ∧ x.floating) then
    if c.at' + 640 ≤ s.cnt 0 then s.setDrive a (x.see c) else s
  else if !s.accepts a c then s
  else if st = 4 then
    let n := if x.fits c.at' then x.consistent + 1 else 0
    let s := s.setDrive a { x with consistent := n, lastCross := c.at' }
    if s.rdN 0x340D (a + 1) dev ≤ n ∧ (s.rd 0x340C (a + 1) dev : Rat) ≤ (s.rampNow a).1 ∧
        s.jobAt a (s.cnt 0) ≤ s.jobAtLt a (s.rampEnd a) then s.handover a c.at'
    else s
  else if st = 5 then
    if s.jobAt a (s.cnt 0) < s.jobAt a (x.lastCross + (s.lockCounts a).ceil.toNat) then s.planComm a c.at' else s
  else if st = 6 then s.planComm a c.at'
  else s

/-- A failed start or a locked rotor (R319): counted, with an entry; every pair floats in state 7. -/
def State.failDrive (s : State) (a cause : Nat) : State :=
  let x := s.drive a
  let s := (s.setDrive a { x with lastFail := cause }).wr 0x341D (a + 1) dev (min 255 (s.rd 0x341D (a + 1) dev + 1))
  ((s.driveLow a).enterDrive a 7).note 0x3401 (leNat 1 cause ++ leInt 1 (s.rd 0x341D (a + 1) dev))

/-- RAMP_FAILED (R317): the last row's time has passed without a handover, the job in which it passed included (R178). -/
def execRampFailed (a : Nat) (s : State) : Res := .next <|
  if isDrive a ∧ s.driveState a = 4 ∧ s.rampEnd a ≤ s.lt ∧ s.jobAtLt a (s.rampEnd a) < s.jobAt a (s.cnt 0) then s.failDrive a 3
  else s

/-- LOCKED_ROTOR (R318): no crossing within 20 / (pp × n_min) s. -/
def execLockedRotor (a : Nat) (s : State) : Res := .next <|
  if isDrive a ∧ s.driveState a = 5 ∧ ((s.drive a).lastCross : Rat) + s.lockCounts a ≤ s.cnt 0 then s.failDrive a 2 else s

/-- RETRY_DELAY_END (R319). -/
def execRetryDelayEnd (a : Nat) (s : State) : Res := .next <|
  let x := s.drive a
  if isDrive a ∧ s.driveState a = 7 ∧ x.since + s.rdN 0x3412 (a + 1) dev * 1000000 ≤ s.lt then
    if s.rd 0x341D (a + 1) dev ≤ s.rd 0x3411 (a + 1) dev then s.beginListen a else s.latchDrive a x.lastFail
  else s

/-- RETRY_COUNT_RESET (R319): 10 s without a break in state 5. -/
def execRetryCountReset (a : Nat) (s : State) : Res := .next <|
  if isDrive a ∧ s.driveState a = 5 ∧ (s.drive a).since + 10000000000 ≤ s.lt then s.wr 0x341D (a + 1) dev 0 else s

/-- The load deviation has stayed outside its band for the load time. With action 1 the expiry wins a tie (R179), with action 0
the deviation's return (R178). -/
def State.loadExpired (s : State) (a : Nat) : Bool :=
  heldFor (s.drive a).loadSince (s.rdN 0x3417 (a + 1) dev * 1000000 + (if s.rd 0x3418 (a + 1) dev = 1 then 0 else 1)) s.lt

/-- LOAD_FAULT (R322): once for an excursion. -/
def execLoadFault (a : Nat) (s : State) : Res := .next <|
  let x := s.drive a
  if isDrive a ∧ !x.loadDone ∧ s.loadExpired a then
    let s := s.setDrive a { x with loadDone := true }
    if s.rd 0x3418 (a + 1) dev = 1 then s.latchDrive a 5
    else s.note 0x3401 (leNat 1 5 ++ leInt 1 (s.rd 0x341D (a + 1) dev))
  else s

/-- The windows of IBL_a (R305, R320): W0 ends the on-interval of the period, W1 latches the drive. -/
def State.driveLimit (s : State) (a : Nat) : State :=
  if [3, 4, 5, 6].contains (s.driveState a) then
    let s := each (bldcUnits a) (fun s u =>
      let x := s.unit 0 u
      if x.gate = 0 then s.setUnit 0 u (x.endOn (s.fine 0) (s.unitDead 0 u) false) else s) s
    let x := s.drive a
    (s.setDrive a { x with limited := true }).inc 0x341E (a + 1) dev
  else s

def State.driveTrip (s : State) (a : Nat) : State := s.latchDrive a 1

/-! ## The BLDC job (template 20; R316, R317, R320, R322, R334) -/

/-- The load comparison of a job (R322). -/
def State.loadCheck (s : State) (a : Nat) (ma : Int) : State :=
  let x := s.drive a
  let set : Rat := (s.rd 0x3400 (a + 1) dev).natAbs
  let ns := runOf x.nearSince (decide (20 * absQ (s.speedNow a - set) ≤ set)) s.lt
  let t := s.rdN 0x3415 (a + 1) dev
  let held := s.rd 0x3418 (a + 1) dev == 1 && s.loadExpired a && !x.loadDone
  let x := { x with nearSince := ns }
  if t = 0xFF ∨ !heldFor ns 1000000000 s.lt then
    s.setDrive a { x with loadSince := if held then x.loadSince else none, loadDone := x.loadDone && held }
  else
    let dv := ma - curveAt (s.rdB 0x2507 (t + 1) dev) (s.measured a)
    let out := held || decide (s.rd 0x3416 (a + 1) dev < dv.natAbs)
    (s.setDrive a { x with loadSince := runOf x.loadSince out s.lt, loadDone := x.loadDone && out }).wr 0x3421 (a + 1) dev dv

/-- The speed loop of states 5 and 6 (R320). -/
def State.speedLoop (s : State) (a : Nat) (t : Rat) : State :=
  let x := s.drive a
  let set : Rat := if s.driveState a = 6 then 0 else (s.rd 0x3400 (a + 1) dev).natAbs
  let rate : Rat := (if x.ss1 then s.rd 0x3419 (a + 1) dev else s.rd 0x3404 (a + 1) dev : Int) * t
  let ref := x.speedRef + limQ (-rate) rate (set - x.speedRef)
  let e := ref - s.speedOf a x.t60
  let u := (s.rd 0x3413 (a + 1) dev : Rat) / 1000000 * e + x.int
  let int := integ x.int ((s.rd 0x3414 (a + 1) dev : Rat) / 1000000) t e (x.limited || decide (1 < u)) (decide (u < 0))
  let s := s.setDrive a { x with speedRef := ref, int := int, limited := false }
  s.driveDuty a (limQ 0 1 u)

/-- State 6 ends when the speed falls below the minimum speed (R312); a setpoint that waits starts the drive again. -/
def State.stopSlow (s : State) (a : Nat) : State :=
  if s.driveState a = 6 ∧ s.speedNow a < s.rd 0x3402 (a + 1) dev then
    let s := (s.driveLow a).enterDrive a 0
    if s.rd 0x3400 (a + 1) dev ≠ 0 ∧ !(s.drive a).ss1 then s.beginListen a else s
  else s

def State.bldcJob (s : State) (a : Nat) : State :=
  let x := s.slot 0 (4 + a)
  let t := s.slotT 0 (4 + a)
  if !(x.sample 0).fresh then s
  else
    let ma := (x.sample 0).value
    let s := s.wr 0x341C (a + 1) dev ma
    match s.driveState a with
    | 2 => s.driveDuty a ((s.rd 0x3407 (a + 1) dev : Rat) / 10000)
    | 3 =>
      let d := s.drive a
      let e : Rat := ((s.rd 0x3409 (a + 1) dev - ma : Int) : Rat) / 1000
      let u := Config.gain 8 * e + d.int
      let s := s.setDrive a { d with
        int := integ d.int (Config.gain 9) t e (d.limited || decide (1 < u)) (decide (u < 0)), limited := false }
      s.driveDuty a (limQ 0 1 u)
    | 4 => s.driveDuty a (s.rampNow a).2
    | 5 => ((s.speedLoop a t).loadCheck a ma)
    | 6 => ((s.speedLoop a t).loadCheck a ma).stopSlow a
    | _ => s

/-! ## Stepper axes -/

def stepUnits (a : Nat) : List Nat := [20 + 4 * a, 21 + 4 * a, 22 + 4 * a, 23 + 4 * a]

def State.axisState (s : State) (a : Nat) : Nat := s.rdN 0x344F (a + 1) dev

/-- A microstep in the position's units (R327: a 32-bit fraction). -/
def ustep : Int := 4294967296

/-- The target as the position counts it. -/
def State.targetX (s : State) (a : Nat) : Int := s.rd 0x3441 (a + 1) dev * ustep

/-- Set and clear bits of the axis status. -/
def State.axisBit (s : State) (a b : Nat) (on : Bool) : State :=
  let w := s.rdN 0x3450 (a + 1) dev
  s.wr 0x3450 (a + 1) dev (if on then setBit w b else clearBit w b)

/-- T is set to the position. -/
def State.targetHere (s : State) (a : Nat) : State := s.wr 0x3441 (a + 1) dev ((s.axis a).x / ustep)

/-- Stop an axis where it is, its outputs low, in a state. -/
def State.axisLow (s : State) (a st : Nat) : State :=
  let x := s.axis a
  let s := (s.cutUnits (stepUnits a)).setAxis a { x with v := 0, stopping := false, ss1 := false, ia := 0, ib := 0, holdAt := none, stillSince := some s.lt }
  (((s.wr 0x344F (a + 1) dev st).wr 0x344E (a + 1) dev 0).axisBit a 3 true)

/-- Latch an axis (R325, R330, R332). -/
def State.latchAxis (s : State) (a cause : Nat) : State :=
  if s.axisState a = 7 then s
  else
    let s := (s.axisLow a 7).wr 0x3457 (a + 1) dev cause
    let s := s.setAxis a { s.axis a with corr := s.corrId 0 }
    ((s.dropJobs 0 (8 + a)).dropJobs 0 (12 + a)).note 0x3401 (leNat 1 cause ++ leNat 1 0)

/-- The axis stands: state 0, or latched or in STO. -/
def State.axisStill (s : State) (a : Nat) : Bool := decide ((s.axis a).v = 0) && s.axisState a != 6

/-- A limit switch is enabled and active (R331): three equal samples at its active level. -/
def State.limitActive (s : State) (a : Nat) (pos : Bool) : Bool := bit (s.rdN 0x3450 (a + 1) dev) (if pos then 1 else 0)

/-- A target beyond an active switch, in its direction. -/
def State.beyondLimit (s : State) (a : Nat) (t : Int) : Bool :=
  (s.limitActive a true && decide ((s.axis a).x < t * ustep)) || (s.limitActive a false && decide (t * ustep < (s.axis a).x))

/-- The checks of a target (R329, R334, R557). -/
def targetCheck (a : Nat) (t : Int) (s : State) (_ : Nat) : Nat :=
  if s.rd 0x3440 (a + 1) dev = 1 then aReadOnly
  else if s.beyondLimit a t then aRange
  else if (s.axis a).ss1 then aNotIdle
  else if (s.die 0).unplanned then aNoPlan
  else aDone

/-- An accepted target takes effect at the next profile period (R329). -/
def targetSet (a : Nat) (t : Int) (s : State) (_ : Nat) : State :=
  let s := s.leaveStandby
  let x := s.axis a
  (s.setAxis a { x with stopping := false }).wr 0x3441 (a + 1) dev t

/-- TARGET_POSITION (R329). -/
def execTargetPosition (src : Src) (a : Nat) (t : Int) (s : State) : Res :=
  .next (s.writeObj src 0x3441 (a + 1) [dev] t (targetCheck a t) (targetSet a t))

/-- STEP_EDGE (R330, R331, R333): a rising edge adds m microsteps to C; edges toward an active switch and edges in STO
are discarded and counted. -/
def execStepEdge (a : Nat) (dir : Bool) (s : State) : Res := .next <|
  let x := s.axis a
  let m := s.rd 0x344B (a + 1) dev
  if !isDrive a ∨ s.rd 0x3440 (a + 1) dev ≠ 1 ∨ s.axisState a = 7 then s
  else if s.axisState a = 8 ∨ s.limitActive a dir then s.inc 0x3451 (a + 1) dev
  else
    let now := s.cnt 0
    let s := if x.lastEdge = some now then s.draw else s
    let r : Rat := match x.lastEdge with
      | some t => if 32000000 ≤ now - t then s.rd 0x3442 (a + 1) dev else ratioQ s.free ((m : Rat) * 320000000) (now - t : Nat)
      | none => s.rd 0x3442 (a + 1) dev
    s.setAxis a { x with c := if dir then x.c + m * ustep else x.c - m * ustep, lastEdge := some now, rate := r }

/-- INPUT_OVERRUN (R330): abs(C − E) beyond 16 × m latches the axis. -/
def execInputOverrun (a : Nat) (s : State) : Res := .next <|
  let x := s.axis a
  if isDrive a ∧ s.rd 0x3440 (a + 1) dev = 1 ∧ s.axisState a ≠ 8 ∧ 16 * s.rd 0x344B (a + 1) dev * ustep < (x.c - x.x).natAbs then
    s.latchAxis a 2
  else s

/-- The sample history of a switch with a new sample, and the level it accepts. -/
def takeSample (h : List Bool) (l : Bool) : List Bool := (l :: h).take 3
def accepted? (h : List Bool) : Option Bool :=
  match h with
  | [a, b, c] => if a = b ∧ b = c then some a else none
  | _ => none

/-- LIMIT_SWITCH (R331): one sample, every 20 µs; a change is accepted after three equal samples. -/
def execLimitSwitch (a : Nat) (pos level : Bool) (s : State) : Res := .next <|
  let x := s.axis a
  if isDrive a ∧ (if pos then x.limPAt else x.limNAt).all (fun t => decide (t + 20000 ≤ s.lt)) then
    let h := takeSample (if pos then x.limP else x.limN) level
    let s := s.setAxis a (if pos then { x with limP := h, limPAt := some s.lt } else { x with limN := h, limNAt := some s.lt })
    let cfg := s.rdN 0x344C (a + 1) dev
    match accepted? h with
    | some l => s.axisBit a (if pos then 1 else 0) (bit cfg (if pos then 5 else 4) && (l == bit cfg (if pos then 3 else 2)))
    | none => s
  else s

/-- HOLD_DELAY (R324): the axis has stood for the hold delay; I falls to the hold current over 50 ms. -/
def execHoldDelay (a : Nat) (s : State) : Res := .next <|
  let x := s.axis a
  if isDrive a ∧ s.axisState a = 0 ∧ x.holdAt.isNone ∧ heldFor x.stillSince (s.rdN 0x344A (a + 1) dev * 1000000) s.lt then
    s.setAxis a { x with holdAt := some s.lt }
  else s

/-- A reference write needs standstill (R332); it sets position and target and clears "unreferenced". -/
def referenceCheck (a : Nat) (s : State) (_ : Nat) : Nat := idleOr (s.axisState a == 0 && s.axisStill a)

def referenceSet (a : Nat) (v : Int) (s : State) (_ : Nat) : State :=
  let x := s.axis a
  let s := s.setAxis a { x with x := v * ustep, c := v * ustep }
  ((s.wr 0x344D (a + 1) dev v).wr 0x3441 (a + 1) dev v).axisBit a 3 false

/-- REFERENCE_POSITION (R332). -/
def execReferencePosition (src : Src) (a : Nat) (v : Int) (s : State) : Res :=
  .next (s.writeObj src 0x344D (a + 1) [dev] v (referenceCheck a) (referenceSet a v))

/-! ## The profile generator (template 22; R326 to R331, R334) -/

/-- The profile parameters of an axis. -/
structure Prof where
  start : Rat
  v1 : Rat
  vmax : Rat
  a1 : Rat
  a2 : Rat
  stop : Rat
  deriving DecidableEq, Repr

def State.prof (s : State) (a : Nat) : Prof :=
  ⟨s.rd 0x3442 (a + 1) dev, s.rd 0x3443 (a + 1) dev, s.rd 0x3444 (a + 1) dev, s.rd 0x3445 (a + 1) dev,
   s.rd 0x3446 (a + 1) dev, s.rd 0x3447 (a + 1) dev⟩

/-- The profile period: 20 µs. -/
def profT : Rat := 1 / 50000

/-- The speed after one period of acceleration, the rate switching at V1 within the period (R327). -/
def Prof.up (p : Prof) (v : Rat) : Rat :=
  min p.vmax (if v < p.v1 then
      let w := v + p.a1 * profT
      if w ≤ p.v1 then w else p.v1 + p.a2 * (profT - (p.v1 - v) / p.a1)
    else v + p.a2 * profT)

/-- The speed after one period of deceleration. -/
def Prof.down (p : Prof) (v : Rat) : Rat :=
  if p.v1 < v then
    let w := v - p.a2 * profT
    if p.v1 ≤ w then w else p.v1 - p.a1 * (profT - (v - p.v1) / p.a2)
  else v - p.a1 * profT

/-- The braking distance (R326). -/
def Prof.brake (p : Prof) (v : Rat) : Rat :=
  if p.v1 < v then (v ^ 2 - p.v1 ^ 2) / (2 * p.a2) + (p.v1 ^ 2 - p.stop ^ 2) / (2 * p.a1)
  else if p.stop < v then (v ^ 2 - p.stop ^ 2) / (2 * p.a1)
  else 0

/-- One period of R328 along the direction of motion: speed magnitude, remaining distance (negative: away), whether the
axis already decelerates toward T. The answer: the magnitude for the trapezoid's start, the new magnitude, the state
code, whether it decelerates toward T, and whether rule 4 ended in a reversal. -/
structure Move where
  v0 : Rat
  v1 : Rat
  code : Nat
  stopping : Bool
  reversed : Bool
  deriving DecidableEq, Repr

/-- Rule 4 and ramped stops: decelerate, and end at 0 in the period that reaches v_stop. -/
def Prof.away (p : Prof) (v : Rat) : Move :=
  let w := p.down v
  if w ≤ p.stop then ⟨v, 0, 5, false, true⟩ else ⟨v, w, 5, false, false⟩

def Prof.move (p : Prof) (v r : Rat) (stopping : Bool) : Move :=
  if v = 0 then
    let w := p.up p.start
    ⟨p.start, w, if w = p.vmax then 2 else 1, false, false⟩
  else if r < 0 then p.away v
  else if stopping ∨ (p.brake v ≤ r ∧ r ≤ p.brake v + v * profT) then
    let w := max (p.down v) (min v p.stop)
    ⟨v, w, if w ≤ p.stop then 4 else 3, true, false⟩
  else if r < p.brake v then p.away v
  else
    let w := p.up v
    ⟨v, w, if w = v then 2 else 1, false, false⟩

/-- The axis moves toward an active switch (R331). -/
def State.towardLimit (s : State) (a : Nat) (fwd : Bool) : Bool := s.limitActive a fwd
def State.rampedLimit (s : State) (a : Nat) (fwd : Bool) : Bool := bit (s.rdN 0x344C (a + 1) dev) (if fwd then 1 else 0)

/-- The axis comes to stand: state 0, the hold delay starts. -/
def State.axisStands (s : State) (a : Nat) : State :=
  let x := s.axis a
  (s.setAxis a { x with v := 0, stopping := false, stillSince := some s.lt }).wr 0x344F (a + 1) dev 0

/-- The axis is energised: its units run (R79). -/
def State.axisRun (s : State) (a : Nat) : State :=
  each (stepUnits a) (fun s u => if (s.unit 0 u).latched then s else s.startUnit 0 u) s

/-- Apply a move: the position by the trapezoid, whose rounding is left open (log 9), ending exactly at T when the period
reaches it. -/
def State.applyMove (s : State) (a : Nat) (fwd : Bool) (m : Move) (toT : Bool) : State :=
  let x := s.axis a
  let dx := wholeOf ((m.v0 + m.v1) / 2 * profT * ustep)
  let left := if fwd then s.targetX a - x.x else x.x - s.targetX a
  if toT ∧ 0 ≤ left ∧ left ≤ dx ∧ !m.reversed ∧ m.code ≠ 5 then
    (s.setAxis a { x with x := s.targetX a, v := 0 }).axisStands a
  else
    let s := s.setAxis a { x with
      x := if fwd then x.x + dx else x.x - dx, v := if fwd then m.v1 else -m.v1, stopping := m.stopping,
      stillSince := none, holdAt := none }
    let s := s.wr 0x344F (a + 1) dev m.code
    if m.reversed then (s.axisStands a).inc 0x3454 (a + 1) dev else s

/-- A stop by a limit or by SS1: T is set to x (R331, R334). -/
def State.stopHere (s : State) (a : Nat) (byLimit : Bool) : State :=
  let s := (s.axisStands a).targetHere a
  if byLimit then s.axisBit a 2 true else s

/-- A profile period in profile mode. -/
def State.profileStep (s : State) (a : Nat) : State :=
  let x := s.axis a
  let p := s.prof a
  let still := decide (x.v = 0)
  let fwd := if still then decide (x.x < s.targetX a) else decide (0 < x.v)
  let mag := absQ x.v
  if still ∧ (x.x = s.targetX a ∨ x.ss1) then s
  else if still ∧ s.towardLimit a fwd then s.stopHere a true
  else if !still ∧ s.towardLimit a fwd ∧ !s.rampedLimit a fwd then s.stopHere a true
  else if !still ∧ (x.ss1 ∨ s.towardLimit a fwd) then
    let m := p.away mag
    let s' := s.applyMove a fwd { m with reversed := false, code := 3 } false
    if m.reversed then s'.stopHere a (!x.ss1) else s'
  else
    let r : Rat := ((if fwd then s.targetX a - x.x else x.x - s.targetX a : Int) : Rat) / ustep
    let s := if still then (s.axisRun a).axisBit a 2 false else s
    s.applyMove a fwd (p.move mag r x.stopping) true

/-- In STEP/DIR mode the axis stops where it is: C is set to E (log 67). -/
def State.followStop (s : State) (a : Nat) (byLimit : Bool) : State :=
  let s := s.axisStands a
  let s := s.setAxis a { s.axis a with c := (s.axis a).x }
  if byLimit then s.axisBit a 2 true else s

/-- A ramped stop in STEP/DIR mode (R331, R334): the axis decelerates along its ramps, a limit's stop no further than C. -/
def State.followDown (s : State) (a : Nat) (most : Option Int) : State :=
  let x := s.axis a
  let m := (s.prof a).away (absQ x.v)
  let dx := wholeOf ((m.v0 + m.v1) / 2 * profT * ustep)
  let k := (most.map (min dx)).getD dx
  let s := s.setAxis a { x with x := if 0 < x.v then x.x + k else x.x - k, v := if 0 < x.v then m.v1 else -m.v1 }
  if m.reversed ∨ most = some k then s.followStop a most.isSome else s

/-- A profile period in STEP/DIR mode (R330, R331, R334): E moves toward C. -/
def State.followStep (s : State) (a : Nat) : State :=
  let x := s.axis a
  let d := x.c - x.x
  let fwd := decide (0 < d)
  let lim := wholeOf (min (x.rate * profT) ((s.rd 0x3444 (a + 1) dev : Rat) * profT) * ustep)
  let k := min (d.natAbs : Int) lim
  let nx := if 0 ≤ d then x.x + k else x.x - k
  if x.ss1 then (if x.v = 0 then s.followStop a false else s.followDown a none)
  else if d = 0 then
    if s.axisState a = 6 then s.axisStands a else s
  else if s.towardLimit a fwd then
    if s.rampedLimit a fwd ∧ x.v ≠ 0 ∧ decide (0 < x.v) = fwd then s.followDown a (some d.natAbs) else s.followStop a true
  else
    let s := if s.axisState a = 6 then s else (s.axisRun a).axisBit a 2 false
    let s := s.setAxis a { x with
      x := nx, v := (if 0 ≤ d then (k : Rat) else -(k : Rat)) / ustep / profT, stillSince := none, holdAt := none }
    s.wr 0x344F (a + 1) dev 6

/-- The profile job of an axis on engine `e`: one period, the address published (R327), the objects shown. In profile mode
the command position of STEP and DIR follows E (log 67). -/
def State.profileJob (s : State) (a e : Nat) : State :=
  let s := if s.axisState a = 7 ∨ s.axisState a = 8 then s
    else if s.rd 0x3440 (a + 1) dev = 1 then s.followStep a else s.profileStep a
  let s := if s.rd 0x3440 (a + 1) dev = 1 then s else s.setAxis a { s.axis a with c := (s.axis a).x }
  let x := s.axis a
  let s := ((s.wr 0x344D (a + 1) dev (x.x / ustep)).wr 0x344E (a + 1) dev (roundQ x.v)).wr 0x3455 (a + 1) dev
    (if s.rd 0x3440 (a + 1) dev = 1 then (x.c - x.x) / ustep else 0)
  let y := s.eng 0 e
  s.setEng 0 e { y with pubs := [(0, x.x / ustep % 1024)] }

/-! ## The stepper current job (template 21; R323, R324) -/

/-- The current I of an axis in mA (R324). -/
def State.axisCurrent (s : State) (a : Nat) : Rat :=
  let run : Rat := s.rd 0x3448 (a + 1) dev
  match (s.axis a).holdAt with
  | some t =>
    let f := min 1 (((s.lt - t : Nat) : Rat) / 50000000)
    run * (1 - f * (1 - (s.rd 0x3449 (a + 1) dev : Rat) / 100))
  | none => run

/-- One coil: its integrator after the job and u. -/
def State.coil (s : State) (a : Nat) (int ref i t : Rat) : Rat × Rat :=
  let e := ref - i
  let u := (s.rd 0x3452 (a + 1) dev : Rat) / 1000000 * e + int
  (integ int ((s.rd 0x3453 (a + 1) dev : Rat) / 1000000) t e (decide (1 < u)) (decide (u < -1)), limQ (-1) 1 u)

def State.stepJob (s : State) (a : Nat) : State :=
  let x := s.slot 0 (8 + a)
  if !x.freshAll [0, 1] then s
  else
    let t := s.slotT 0 (8 + a)
    let ad : Rat := ((look 0 (s.slot 0 (12 + a)).pub 0 : Int) : Rat) / 1024
    let i := s.axisCurrent a
    let y := s.axis a
    let (ia, ua) := s.coil a y.ia (i * cosT ad) (x.sample 0).value t
    let (ib, ub) := s.coil a y.ib (i * sinT ad) (x.sample 1).value t
    let s := s.setAxis a { y with ia := ia, ib := ib }
    let p := s.rdN 0x3460 0 dev
    each [(0, ua), (1, -ua), (2, ub), (3, -ub)] (fun s (k, u) => s.stageUnit 0 (20 + 4 * a + k) (pwmSet p ((1 + u) / 2))) s

/-! ## Stale samples, STO and SS1 (R307, R333, R334) -/

/-- AUX_SAMPLES_STALE (R307): a current input stale for 1 ms. -/
def execAuxSamplesStale (k : Nat) (s : State) : Res := .next <|
  if k < 8 ∧ heldFor (s.slot 0 (4 + k)).staleSince 1000000 s.lt then
    let x := s.slot 0 (4 + k)
    let s := s.setSlot 0 (4 + k) { x with staleSince := none }
    if k < 4 then s.latchDrive k 6 else s.latchAxis (k - 4) 6
  else s

/-- The drives, and the axes, that a safe output feeds (R357). -/
def State.fedDrives (s : State) (out : Nat) : List Nat := if s.rdN 0x4016 1 dev = out then [0, 1, 2, 3] else []
def State.fedAxes (s : State) (out : Nat) : List Nat := if s.rdN 0x4016 2 dev = out then [0, 1, 2, 3] else []

/-- STO of one drive, of one axis. -/
def State.stoDrive (s : State) (a : Nat) : State :=
  let s := s.driveCut a
  let x := s.drive a
  (s.setDrive a { x with ss1 := false }).wr 0x341A (a + 1) dev (if s.driveState a = 8 then 8 else 9)
def State.stoAxis (s : State) (a : Nat) : State := s.axisLow a (if s.axisState a = 7 then 7 else 8)

/-- Release of STO (R333). -/
def State.freeDrive (s : State) (a : Nat) : State :=
  if s.driveState a = 9 then (s.enterDrive a 0).wr 0x3400 (a + 1) dev 0 else s
def State.freeAxis (s : State) (a : Nat) : State :=
  if s.axisState a = 8 then
    let x := s.axis a
    (((s.setAxis a { x with c := x.x }).wr 0x344F (a + 1) dev 0).targetHere a).axisBit a 3 true
  else s

/-- STO and its release for everything a safe output feeds. -/
def State.stoOut (s : State) (out : Nat) : State := each (s.fedAxes out) (·.stoAxis) (each (s.fedDrives out) (·.stoDrive) s)
def State.freeOut (s : State) (out : Nat) : State := each (s.fedAxes out) (·.freeAxis) (each (s.fedDrives out) (·.freeDrive) s)

/-- SS1 (R334): a drive takes its speed reference down at 0x3419; an axis decelerates along its ramps. -/
def State.ss1Drive (s : State) (a : Nat) : State :=
  let x := s.drive a
  let s := s.setDrive a { x with ss1 := true }
  if s.driveState a = 5 then s.enterDrive a 6
  else if [1, 2, 3, 4, 7].contains (s.driveState a) then (s.driveCut a).enterDrive a 0 else s
def State.ss1Axis (s : State) (a : Nat) : State := let x := s.axis a; s.setAxis a { x with ss1 := true, stopping := false }
def State.ss1Out (s : State) (out : Nat) : State := each (s.fedAxes out) (·.ss1Axis) (each (s.fedDrives out) (·.ss1Drive) s)

/-- Everything an output feeds reports below minimum speed or at standstill (R357). -/
def State.allSlow (s : State) (out : Nat) : Bool :=
  (s.fedDrives out).all (fun a => !([5, 6].contains (s.driveState a))) && (s.fedAxes out).all s.axisStill

end Sys2Proof.Machine
end

