-- ==== Sys2Proof/Machine/HubAdc.lean ====
section
/-! DEFINITION. The hub ADC units (R270 to R275, R305): conversions, result queues, windows and what their crossings
do; the hub slots' sample sets (R272, R277, R278); the hub's FLT inputs and group latches (R104, R543). -/

namespace Sys2Proof.Machine

/-! ## Values and windows (R250, R273, R274, R305, R547) -/

/-- The pin voltage of a code in µV after calibration (R250, R547); the order of offset and gain is left open (log 10). -/
def State.pinUv (s : State) (k code : Nat) : Rat :=
  trimUv (s.rd 0x3021 (k + 1) dev) (s.rd 0x3022 (k + 1) dev) (codeUv 0 3000000 code)

/-- VALUE of a conversion in the input's format (R273). -/
def State.hubValue (s : State) (k code : Nat) : Int :=
  match (if fixedInput k then 3 else s.rdN 0x3030 (k + 1) dev) with
  | 0 => code
  | 1 => (code : Int) - 32768
  | 2 => ((code : Int) - 32768) * 65536
  | _ => sat32 (wholeOf (s.pinUv k code * (s.rd 0x3031 (k + 1) dev : Rat) / 1000000))

/-- The kinds of hub inputs whose windows the hub sets. -/
def isDcl (k : Nat) : Bool := k == 0 || k == 16
def isIph (k : Nat) : Bool := (decide (2 ≤ k) && decide (k ≤ 4)) || (decide (18 ≤ k) && decide (k ≤ 20))
def ibl? (k : Nat) : Option Nat := if k = 32 ∨ k = 33 then some (k - 32) else if k = 48 ∨ k = 49 then some (k - 46) else none
def coil? (k : Nat) : Option Nat :=
  if 34 ≤ k ∧ k ≤ 37 then some ((k - 34) / 2) else if 50 ≤ k ∧ k ≤ 53 then some (2 + (k - 50) / 2) else none

/-- Limit `w` of an input's windows: 0 W0 low, 1 W0 high, 2 W1 low, 3 W1 high, in the input's format. The hub sets those of
its own inputs (R274, R305): a phase current's is the whole part of 1.5 × √2 × the current limit, beyond which the same
whole numbers lie. -/
def State.winLimit (s : State) (k w : Nat) : Int :=
  let none' : Int := if w % 2 = 0 then -2147483648 else 2147483647
  if isDcl k then
    if w = 0 then s.rd 0x3060 7 dev * 1000 else if w = 1 then s.rd 0x3060 4 dev * 1000
    else if w = 3 then s.rd 0x3060 5 dev * 1000 else none'
  else if isIph k then
    let l : Int := Nat.sqrt (9 * s.rdN 0x3040 5 dev ^ 2 / 2)
    if w = 0 then -l else if w = 1 then l else none'
  else match ibl? k with
    | some a => if w = 1 then s.rd 0x340F (a + 1) dev else if w = 3 then s.rd 0x3410 (a + 1) dev else none'
    | none => match coil? k with
      | some a => if w = 0 then -(s.rd 0x3456 (a + 1) dev) else if w = 1 then s.rd 0x3456 (a + 1) dev else none'
      | none => if fixedInput k then none' else s.rd (0x3032 + w) (k + 1) dev

/-- A value lies beyond a limit. -/
def State.beyond (s : State) (k w : Nat) (v : Int) : Bool :=
  if w % 2 = 0 then decide (v < s.winLimit k w) else decide (s.winLimit k w < v)

/-- The count n of an input's windows (R274, R305). -/
def State.winCount (s : State) (k : Nat) : Nat := if fixedInput k then 2 else s.rdN 0x3036 (k + 1) dev

/-- Count a conversion at each limit. -/
def State.countWindows (s : State) (k : Nat) (v : Int) : Win :=
  let x := s.win k
  let b := (List.range 4).map fun w => s.beyond k w v
  { x with
    last := v, at' := s.lt,
    beyond := (List.range 4).map fun w => if b.getD w false then min 16 (x.beyond.getD w 0 + 1) else 0,
    inside := (List.range 4).map fun w => if b.getD w false then 0 else min 16 (x.inside.getD w 0 + 1) }

/-- The window state after a conversion (R272). -/
def winState (old n : Nat) (x : Win) : Nat :=
  (List.range 4).foldl (fun a w =>
    if n ≤ x.beyond.getD w 0 then setBit a w else if n ≤ x.inside.getD w 0 then clearBit a w else a) old

/-! ## Conversions (R271, R272) -/

/-- The inputs a hub slot's sample set takes (R277, R278, R305). -/
def slotInputs (k : Nat) : List Nat :=
  match k with
  | 0 => [0, 16, 1, 17, 2, 3, 4, 18, 19, 20]
  | 1 => [5, 6, 21]
  | 2 => [0, 16, 2, 3, 4, 18, 19, 20]
  | 3 => [0, 16, 7, 23]
  | 4 => [32, 38]
  | 5 => [33, 38]
  | 6 => [48, 54]
  | 7 => [49, 54]
  | 8 => [34, 35]
  | 9 => [36, 37]
  | 10 => [50, 51]
  | 11 => [52, 53]
  | _ => []

/-- Add a conversion to the slots that use its input. -/
def State.addSums (s : State) (k : Nat) (v : Int) : State :=
  each ((List.range 12).filter fun j => (slotInputs j).contains k) (fun s j =>
    let x := s.slot 0 j
    let a := look (0, 0) x.sums k
    s.setSlot 0 j { x with sums := put x.sums k (a.1 + v, a.2 + 1) }) s

/-- A result-queue entry (R272). -/
def queueEntry (time win k : Nat) (v : Int) : BitVec 64 :=
  BitVec.ofNat 64 (time % 65536 * 2 ^ 48 + win % 16 * 2 ^ 44 + k % 256 * 2 ^ 32 + (v % 4294967296).toNat)

/-- Put an entry into a unit's queue: when it is full the oldest gives way and is counted (R272). -/
def State.enqueue (s : State) (u : Nat) (e : BitVec 64) : State :=
  let q := s.queue u
  if 64 ≤ q.length then (s.setQueue u (q.drop 1 ++ [e])).inc 0x3038 (u + 1) dev else s.setQueue u (q ++ [e])

/-- A condition on both DCL voltages that has held since an LT. -/
def State.since (s : State) (t : Option Nat) (b : Bool) : Option Nat := if b then some (t.getD s.lt) else none

/-- What the hub keeps of a DC-link conversion: both voltages, the midpoint imbalance, the timers of R297 and R301. -/
def State.watchLink (s : State) (k : Nat) (v : Int) : State :=
  let s := if k = 0 then s.wr 0x3060 8 dev (max 0 v) else if k = 16 then s.wr 0x3060 9 dev (max 0 v) else s
  let s := if k = 1 ∨ k = 17 then s.wr 0x3060 0xA dev (s.vdcMv - 2 * v) else s
  let both (lim : Int) : Bool := decide (s.rd 0x3060 8 dev < lim) && decide (s.rd 0x3060 9 dev < lim)
  let p := s.power
  s.setPower { p with
    ov1Since := s.since p.ov1Since (both ((s.rd 0x3060 4 dev - s.rd 0x3060 6 dev) * 1000)),
    underSince := runTo p.underSince 1000000 (both (s.rd 0x3060 7 dev * 1000)) s.lt,
    below60 := s.since p.below60 (both 60000) }

/-- What the hub tells from a conversion of ICHOP or IDIS (R296, R297): the current that CHOP or ADIS must show, and the run
of ICHOP above 5 % without CHOP. -/
def State.watchCurrents (s : State) (k : Nat) (v : Int) : State :=
  let p := s.power
  let r := s.rdN 0x3070 1 dev
  if k = 7 then
    s.setPower { p with
      chopProve := if reaches v.toNat 50 s.vdcMv r then none else p.chopProve,
      shortRun := if !p.chop && decide (5 * s.vdcMv * 1000 < 100 * v * r) then min 3 (p.shortRun + 1) else 0 }
  else if k = 23 ∧ reaches v.toNat 50 s.vdcMv (s.rdN 0x3070 4 dev) then s.setPower { p with adisProve := none }
  else s

/-- The input of a unit's conversion (R271, R305): frames of 8; in units 0 and 1 inputs 0, 2, 3, 4, 0, 1, 5 and 7, where unit 0
alternates 5 and 6, and odd frames take 8, 9 and 10, or 8 and 9, in turn for 7. -/
def frameInput (u turn : Nat) : Nat :=
  let f := turn / 8
  let n := turn % 8
  if 2 ≤ u then min n 6
  else if n = 6 ∧ u = 0 ∧ f % 2 = 1 then 6
  else if n = 7 ∧ f % 2 = 1 then 8 + f / 2 % (if u = 0 then 3 else 2)
  else [0, 2, 3, 4, 0, 1, 5, 7].getD n 0

/-- HUB_ADC_CONVERSION (R271, R272): the unit converts its frame's next input; a diagnosis suspends the frame (R264). -/
def execHubAdcConversion (u code : Nat) (s : State) : Res := .next <|
  if u < 4 ∧ (s.adc 0 u).diagUntil.isNone then
    let a := s.adc 0 u
    let k := 16 * u + frameInput u a.turn
    let s := s.setAdc 0 u { a with turn := (a.turn + 1) % 96 }
    let v := s.hubValue k (code % 65536)
    let w := s.countWindows k v
    let st := winState (s.rdN 0x3037 (k + 1) dev) (s.winCount k) w
    let s := ((s.setWin k w).enqueue u (queueEntry (s.cnt 0) st k v)).addSums k v
    if isDcl k ∨ k = 1 ∨ k = 17 then s.watchLink k v else if k = 5 ∨ k = 6 then s.watchGrid else s.watchCurrents k v
  else s

/-! ## Window crossings (R274, R284, R301, R320, R325) -/

/-- AFE overcurrent (R284). -/
def State.afeTrip (s : State) : State :=
  s.latchAfe.controlledStop 7

/-- The consumer's action at a crossing. -/
def State.crossed (s : State) (k w : Nat) : State :=
  if isDcl k then (if w = 1 then s.level1 else if w = 3 then s.level2 else s)
  else if isIph k then s.afeTrip
  else match ibl? k with
    | some a => if w = 1 then s.driveLimit a else s.driveTrip a
    | none => match coil? k with
      | some a => s.latchAxis a 1
      | none => s

/-- WINDOW_CROSSING: n consecutive conversions lay beyond the limit, or inside it. -/
def execWindowCrossing (k w : Nat) (crossed : Bool) (s : State) : Res := .next <|
  if k < 64 ∧ w < 4 then
    let x := s.win k
    let st := s.rdN 0x3037 (k + 1) dev
    if crossed ∧ s.winCount k ≤ x.beyond.getD w 0 ∧ !bit st w then
      (s.wr 0x3037 (k + 1) dev (setBit st w)).crossed k w
    else if !crossed ∧ s.winCount k ≤ x.inside.getD w 0 ∧ bit st w then s.wr 0x3037 (k + 1) dev (clearBit st w)
    else s
  else s

/-! ## The sample sets of hub slots (R272, R277, R278) -/

/-- The mean of an input's conversions since the slot's previous release. -/
def Slot.mean (x : Slot) (k : Nat) : Option Rat :=
  let a := look (0, 0) x.sums k
  if a.2 = 0 then none else some ((a.1 : Rat) / a.2)

/-- A sample from a mean; with no conversion the last value, stale. -/
def Slot.entry (x : Slot) (tag : Nat) (v : Option Rat) : Sample :=
  match v with
  | some r => ⟨tag, wholeOf r, true⟩
  | none => ⟨tag, (x.sample tag).value, false⟩

/-- The mean of two inputs, or the remaining one while the other's unit is diagnosed. -/
def both? (a b : Option Rat) (noA noB : Bool) : Option Rat :=
  if noA then b else if noB then a else match a, b with | some x, some y => some ((x + y) / 2) | _, _ => none

/-- The sample set of a hub slot at its release. -/
def State.hubSamples (s : State) (k : Nat) : List Sample :=
  let x := s.slot 0 k
  let d0 := (s.adc 0 0).diagUntil.isSome
  let d1 := (s.adc 0 1).diagUntil.isSome
  let m := x.mean
  let e := x.entry
  match k with
  | 0 =>
    let v := both? (m 0) (m 16) d0 d1
    let lo := both? (m 1) (m 17) d0 d1
    let imb := match v, lo with | some a, some b => some (a - 2 * b) | _, _ => none
    let ph (i : Nat) := if d0 then m (16 + i) else m i
    let g := s.slot 0 1
    let p (w : Nat) : Option Rat := (lookup? w g.pub).map fun v => (v : Rat)
    let cmd : Rat := (if s.power.fullRegen then 1 else 0) + (if s.power.segStopped then 2 else 0)
    [e 0 v, e 1 imb, e 2 (ph 2), e 3 (ph 3), e 4 (ph 4), e 5 (p 0), e 6 (p 1), e 7 (some cmd), e 8 (p 2), e 9 (p 3)]
  | 1 => [e 0 (m 5), e 1 (m 6), e 2 (m 21)]
  | 2 => [e 0 (m 0), e 1 (m 16), e 2 (m 18), e 3 (m 19), e 4 (m 20), e 5 (m 2), e 6 (m 3), e 7 (m 4)]
  | 3 =>
    let v := if d0 then m 16 else if d1 then m 0 else
      match m 0, m 16 with | some a, some b => some (max a b) | some a, none => some a | none, b => b
    [e 0 v, e 1 (m 7), e 2 (m 23)]
  | _ => (slotInputs k).zipIdx.map fun (i, t) => e t (m i)

/-- The tags of a hub slot whose staleness is timed: all of slots 0 and 1, the current inputs of 4 to 11 (R278, R307). -/
def timedTags (k : Nat) : List Nat :=
  match k with
  | 0 => [0, 1, 2, 3, 4, 5, 6, 8, 9]
  | 1 => [0, 1, 2]
  | _ => if k < 8 then (if 4 ≤ k then [0] else []) else if k < 12 then [0, 1] else []

/-! ## FLT inputs (R104, R543) -/

/-- The drives and axes whose units a group holds. -/
def drivesOf (us : List Nat) : List Nat := [0, 1, 2, 3].filter fun a => (bldcUnits a).any us.contains
def axesOf (us : List Nat) : List Nat := [0, 1, 2, 3].filter fun a => (stepUnits a).any us.contains

/-- The hub units of a group. -/
def State.groupUnits (s : State) (g : Nat) : List Nat := (List.range 36).filter fun u => s.rdN 0x3011 (u + 1) dev = g

/-- A fault input acts on a group: each member takes the fault state and latches. -/
def State.fltGroup (s : State) (g : Nat) : State :=
  let us := s.groupUnits g
  let high := s.rd 0x3012 (g + 1) dev = 1
  let s := (s.wr 0x6014 1 dev (setBit (s.rdN 0x6014 1 dev) g)).setPower { s.power with fltCorr := put s.power.fltCorr g (s.corrId 0) }
  let s := s.openCorr 0
  let s := each us (fun s u =>
    let l := if isSingle 0 u then [decide high] else []
    s.setUnit 0 u { (s.unit 0 u).cut with latched := true, want := l, pins := l }) s
  let s := when' (us.any (· < 6)) (fun s => s.dropJobs 0 0) (when' (us.contains 6) (fun s => s.dropJobs 0 3) s)
  let s := each (drivesOf us) (fun s a => s.latchDrive a 8) s
  let s := each (axesOf us) (fun s a => s.latchAxis a 8) s
  if us.any (· < 6) then s.setPower { s.power with afeOn := false } else s

/-- FLT_INPUT: a level held for 2 counts is taken (R543); the asserted level is high (log 11). -/
def execFltInput (k : Nat) (level : Bool) (counts : Nat) (s : State) : Res := .next <|
  if s.vsys ∧ k < 8 ∧ 2 ≤ counts then
    let f := s.power.flt
    if level then
      let s := s.setPower { s.power with flt := setBit f k }
      let mask := s.rdN 0x3010 (k + 1) dev
      each ((List.range 8).filter fun g => bit mask g) (fun s g => s.fltGroup g) s
    else s.setPower { s.power with flt := clearBit f k }
  else s

end Sys2Proof.Machine
end

