-- ==== Sys2Proof/Machine/Engine.lean ====
section
/-! DEFINITION. The loop engines (chapter 4): releases and sample sets, posting and overruns, the take procedure, the
end of a job, engine faults; the descriptor library and the curve tables. -/

namespace Sys2Proof.Machine

/-! ## Latching a slot (R113, R124, R131) -/

/-- The outputs that a hub slot drives latch with it (R131): the AFE, the chopper, a drive, an axis. The cause that a drive or
axis then shows, for which the manual gives no code, is a free value (log 9). -/
def State.latchOutputs (s : State) (k : Nat) : State :=
  let cause := (Config.freeInt s.free % 256).toNat
  if k = 0 then s.latchAfe
  else if k = 3 then s.setUnit 0 6 { (s.unit 0 6).cut with latched := true }
  else if 4 ≤ k ∧ k < 8 then s.draw.latchDrive (k - 4) cause
  else if 8 ≤ k ∧ k < 16 then s.draw.latchAxis (k % 4) cause
  else s

/-- Latch a loop slot of a die with a cause: a channel with its gang, a DAB stage, or a hub slot. -/
def State.latchSlot (s : State) (die k cause arg : Nat) : State :=
  let corr := s.corrId die
  let s := s.openCorr die
  if die = 0 then
    let x := s.slot 0 k
    if x.latch = 0 then (((s.setSlot 0 k { x with latch := cause }).dropJobs 0 k).latchOutputs k) else s
  else if k < 64 then s.latchChans [chanOf die k] cause arg corr
  else s.latchDab die (k - 64) cause arg corr

/-- LAT: latch the slot with the code and end the job (cause 19, argument the operand). -/
def execLat (die e code : Nat) (s : State) : Res := .next <|
  s.micro die e (.lat die e code) fun s x j => (s.setEng die e { x with ended := true }).latchSlot die j.slot 19 code

/-! ## The sample set at a release (R112, R160) -/

/-- The thermistor reading in µV as a temperature in m°C (R160). -/
def State.tempOf (s : State) (c : Nat) (uv : Int) : Int :=
  let t := s.rdN 0x2442 2 c
  if t = 0xFF then quot (uv - 500000) 10 else curveAt (s.rdB 0x2507 (t + 1) (siteI (dieOf c))) uv

/-- A code that the release brings under a tag, cut to 16 bits. -/
def broughtCode (given : List Sample) (tag : Nat) : Option Nat :=
  (given.find? fun e => e.tag == tag && e.fresh).map fun e => (e.value % 65536).toNat

/-- An entry of a set: what is new, or the last value, stale. -/
def Slot.keepOr (x : Slot) (tag : Nat) (v : Option Int) : Sample :=
  match v with
  | some v => ⟨tag, v, true⟩
  | none => ⟨tag, (x.sample tag).value, false⟩

/-- A channel's control current in 10 µA from its shunt voltage in µV; no object holds the shunt (log 49). -/
def State.shuntTenUa (s : State) (c : Nat) (uv : Rat) : Rat :=
  if Config.shunt c = 0 then Config.ratio s.free else uv / (10 * Config.shunt c)

/-- A control path's value in the unit of its tag (R112). -/
def State.pathValue (s : State) (c tag code : Nat) : Int :=
  let u := s.pathUv tag c code
  match tag with
  | 1 => wholeOf (s.shuntTenUa c u)
  | 2 => s.tempOf c (wholeOf u)
  | _ => wholeOf u

/-- The step time of a channel in µs, saturating (R112, tag 8): a gang slave runs its master's step (R161). -/
def State.stepMicros (s : State) (c : Nat) : Int :=
  min (((s.lt : Int) - s.rd 0x2402 6 (s.master c)).toNat / 1000 : Nat) 0x7FFFFFFF

/-- The control ADC unit of a channel is taken by a contact check or a diagnosis (R112, R266). -/
def State.unitTaken (s : State) (die q : Nat) : Bool := (s.adc die q).checking.isSome || (s.adc die q).diagUntil.isSome

/-- The set of a channel slot: tags 0 to 3 from the conversions that the release brings, stale while the unit is taken;
tags 5 and 6 from the mirror set that has reached the die (R219); tags 4, 7 and 8 from the die. -/
def State.chanSamples (s : State) (c : Nat) (given : List Sample) : List Sample :=
  let die := dieOf c
  let x := s.slot die (localOf c)
  let m := s.unitTaken die (quadOf c)
  let u := s.unit die (localOf c)
  let ch := s.chan c
  let conv (t : Nat) := x.keepOr t (if m then none else (broughtCode given t).map (s.pathValue c t))
  let mirror (t : Nat) (v : Int) := x.keepOr t (if ch.mNew then some v else none)
  [conv 0, conv 1, conv 2, conv 3, ⟨4, u.applied, u.wordNew⟩, mirror 5 ch.mV, mirror 6 ch.mI,
   ⟨7, (s.die die).tag7.toNat, true⟩, ⟨8, s.stepMicros c, true⟩]

/-- A DAB stage's current in mA from its sensor's code (R293, R546): zero at 1.5 V, the scale of 0x3107. -/
def State.stageMilli (s : State) (n i code : Nat) : Int :=
  wholeOf ((codeUv 0 3000000 code - 1500000) / 1000 * s.rd 0x3107 (i + 1) (siteI n))

/-- The segment bus in µV from the bus senses of units 0 and 8: their mean, or the one that there is. -/
def State.busUv (s : State) (n : Nat) (a b : Option Nat) : Option Int :=
  let v (u : Nat) (c : Option Nat) : List Rat := (c.map fun c => s.pathUv 3 (chanOf n (4 * u)) c).toList
  match v 0 a ++ v 8 b with
  | [] => none
  | l => some (wholeOf (l.sum / l.length))

/-- The set of a DAB slot (R293): bus voltage, own current, the other stage's current, V_dc as last received, stale after
20 µs, and the die command word. -/
def State.dabSamples (s : State) (n i : Nat) (given : List Sample) : List Sample :=
  let x := s.slot n (64 + i)
  let d := s.die n
  let amps (j : Nat) := (broughtCode given (1 + j)).map (s.stageMilli n j)
  [x.keepOr 0 (s.busUv n (broughtCode given 0) (broughtCode given 8)), x.keepOr 1 (amps i), x.keepOr 2 (amps (1 - i)),
   ⟨3, d.vdc, decide (s.lt ≤ d.vdcAt + 20000)⟩, ⟨7, d.tag7.toNat, true⟩]

/-- Ages count the releases since an entry was refreshed, saturating at 255 (R112). -/
def Slot.setSamples (x : Slot) (l : List Sample) : Slot :=
  { x with samples := l, ages := l.map fun e => (e.tag, if e.fresh then 0 else min 255 (look 0 x.ages e.tag + 1)) }

/-- The gang's latest control current exceeds the door limit by more than 0.5 A while the door function limits (R346). -/
def State.doorBeyond (s : State) (c : Nat) : Bool :=
  let i := ((s.gang c).map fun m => ((s.slot (dieOf m) (localOf m)).sample 1).value).sum
  (s.die (dieOf c)).door && !s.slave c && decide (s.rd 0x4030 0 dev * (s.gang c).length + 50000 < i.natAbs)

/-- Complete a slot's sample set at its release and keep the stale timers (R153, R278, R294, R307) and the sums of the
control means (R164). -/
def State.takeSamples (s : State) (die k : Nat) (given : List Sample) : State :=
  let x := s.slot die k
  if die = 0 then
    let y := x.setSamples (s.hubSamples k)
    s.setSlot 0 k { y with sums := [], relFrom := x.relAt, relAt := s.lt, staleSince := runTo x.staleSince 1000000 (!y.freshAll (timedTags k)) s.lt }
  else if k < 64 then
    let c := chanOf die k
    let y := x.setSamples (s.chanSamples c given)
    let u := s.unit die k
    let s := (s.setSlot die k y).setUnit die k { u with wordNew := false }
    let ch := s.chan c
    let both := y.freshAll [0, 1]
    s.setChan c { ch with
      mNew := false, temp := if (y.sample 2).fresh then (y.sample 2).value else ch.temp,
      sup := { ch.sup with
        stale := runOf ch.sup.stale (!y.fresh) s.lt,
        door := runTo ch.sup.door (s.rdN 0x4031 0 dev * 1000000) (s.doorBeyond c) s.lt },
      sumV := if both then ch.sumV + (y.sample 0).value else ch.sumV,
      sumI := if both then ch.sumI + (y.sample 1).value else ch.sumI,
      sumP := if both then ch.sumP + (y.sample 0).value * (y.sample 1).value else ch.sumP,
      sumN := if both then ch.sumN + 1 else ch.sumN }
  else
    let y := x.setSamples (s.dabSamples die (k - 64) given)
    s.setSlot die k { y with staleSince := runTo x.staleSince 200000 (!y.freshAll [0, 1, 3]) s.lt }

/-! ## Releases (R111 to R113, R130, R131, R188, R190) -/

/-- A hub slot is latched (R113): by a latch of its own, or through the outputs it drives. -/
def State.hubLatched (s : State) (k : Nat) : Bool :=
  (s.slot 0 k).latch != 0 ||
    (if k = 0 then s.power.afeLatched || (List.range 6).any fun u => (s.unit 0 u).latched
     else if k = 3 then (s.unit 0 6).latched
     else if 4 ≤ k ∧ k < 8 then s.driveState (k - 4) == 8
     else decide (8 ≤ k) && decide (k < 16) && s.axisState (k % 4) == 7)

/-- The slot releases jobs (R113): its owner is neither idle nor latched, the die
has a plan and the slot is in it, and its engines are not gated (R402, R404, R405). -/
def State.slotActive (s : State) (die k : Nat) : Bool :=
  let x := s.slot die k
  s.diePop die && !(s.die die).unplanned && x.planned && !(s.die die).halted &&
    (if die = 0 then
       !s.hubLatched k && s.rd 0x1200 1 dev != 3 && s.rd 0x1200 1 dev != 4 &&
       (if k < 4 then !s.powerOff
        else if k < 8 then !s.driveClosed (k - 4)
        else if k < 12 then !([7, 8].contains (s.axisState (k - 8))) &&
          (stepUnits (k - 8)).any fun u => (s.unit 0 u).running || (s.unit 0 u).startAt.isSome
        else decide (k < 16) && !([7, 8].contains (s.axisState (k - 12))))
     else if k < 64 then
       let c := chanOf die k
       let r := s.run (s.master c)
       !s.latched c && r.closeLt.isNone && !r.stopping &&
         s.rd 0x1200 1 (siteI die) == 1 &&
         (s.runState c == 3 || (s.runState c == 2 && decide (s.rd 0x2402 6 (s.master c) ≤ s.lt) &&
           !((s.die die).busRamp && (s.chan c).law.jobs == 0 && s.mode (s.master c) != 6)))
     else decide (k < 66) && s.rd 0x1200 1 (siteI die) == 1 && ((s.die die).dab (k - 64)).started && !((s.die die).dab (k - 64)).latched)

/-- The length of a drain ramp in jobs (R190). -/
def drainJobs (drain l : Nat) : Nat := max 2 ((drain * 3200 + l - 1) / max l 1)

/-- The drain factor of ramp job `j` of `k` (R190); the manual states no rounding (log 9). -/
def drainFactor (k j : Nat) : Nat := (quot (65536 * (k - j) : Nat) (max k 1 : Nat)).toNat

/-- The ramp begins at this release (R190, step 1). -/
def State.beginRamp (s : State) (c : Nat) : State :=
  let k := drainJobs (rowDrain (s.row c (s.rdN 0x2402 2 c) 0)) (s.loopL (dieOf c) (localOf c))
  let law := (s.chan c).law
  ((s.setRun c 3).setLaw c { law with drainK := k, drainJ := 1, drainI := law.iRef }).setWord4 c (drainFactor k 1)

/-- The stop of the drain (R190, step 2): every unit of the gang is stopped; one that never ran has no boundary to wait
for, and the step closes at this release. -/
def State.drainStop (s : State) (c : Nat) : State :=
  let die := dieOf c
  let idle := (s.gang c).all fun m => !(s.unit die (localOf m)).running
  let s := each (s.gang c) (fun s m => s.stopUnit die (localOf m)) s
  s.setRunSt c { s.run c with stopping := true, closeLt := if idle then some s.lt else none }

/-- What a release of a master's slot does for the drain (R188, R190): the state, and whether a job is posted. -/
def State.drainRelease (s : State) (c : Nat) : State × Bool :=
  let r := s.run c
  match r.winner with
  | none => (s, true)
  | some (_, a) =>
    if s.runState c = 3 then
      let law := (s.chan c).law
      if law.drainJ < law.drainK then
        ((s.setLaw c { law with drainJ := law.drainJ + 1 }).setWord4 c (drainFactor law.drainK (law.drainJ + 1)), true)
      else (s.drainStop c, false)
    else if s.mode c = 6 ∨ (a = .hostStop ∧ !r.jobCommitted) then
      (((each (s.gang c) (fun s m => s.stopUnit (dieOf c) (localOf m)) s)).setRunSt c { r with closeLt := some s.lt }, false)
    else (s.beginRamp c, true)

/-- A job of the slot is pending in some deque of the die. -/
def State.jobPending (s : State) (die k : Nat) : Bool :=
  (List.range (engineCount die)).any fun e => (s.eng die e).deque.any fun j => j.slot == k

/-- The trail's channel field of a slot. -/
def slotField (die k : Nat) : Nat := if die = 0 then noChan else if k < 64 then chanOf die k else 0x200 + (k - 64)

/-- Cycles of the engines of a die in 1/16 ns (R108): 1.5625 ns on a channel die, 1.25 ns on the hub. -/
def cycle16 (die : Nat) : Nat := if die = 0 then 20 else 25

/-- When the job of an engine ends, in 1/16 ns of the die's time base (R135). -/
def Engine.endsAt (x : Engine) (die : Nat) : Nat := x.began + x.cycles * cycle16 die

/-- An instant in 1/16 ns has come on a die's time base. -/
def State.hasCome (s : State) (die t : Nat) : Bool := decide (16 * t ≤ 25 * s.fine die)

/-- The job of an engine has run its micro-ops: a template's its cost, a custom descriptor's to YLD or LAT. -/
def Engine.ran (x : Engine) : Bool := x.job.any fun j => decide (j.desc < 32) || x.ended

/-- A job of the slot has ended by a count of the die's time base: one that ends in the cycle of a release ends first
(R130). -/
def State.endedBy (s : State) (die k r : Nat) : Bool :=
  (List.range (engineCount die)).any fun e =>
    let y := s.eng die e
    y.ran && (y.job.any fun j => j.slot == k) && decide (y.endsAt die ≤ 50 * r)

/-- A job enters a deque 20 ns after a release (R111, log 169), and the engines without a job run the take procedure. -/
def State.wakeEngines (s : State) (die t : Nat) : State :=
  each (List.range (engineCount die)) (fun s e =>
    let y := s.eng die e
    if y.job.isNone ∧ y.claim.isNone ∧ y.wakeAt.isNone then s.setEng die e { y with wakeAt := some t } else s) s

/-- The latest release instant of a slot on its die's count (R111): epochs lie at multiples of the epoch count. -/
def State.relCount (s : State) (die k : Nat) : Nat :=
  let l := max (s.loopL die k) 1
  s.cnt die - (s.cnt die + l - (s.slotPhi die k + (s.slot die k).offset) % l) % l

/-- Put a job into the deque of its home engine, or in the place of the slot's pending one (R111, R130). -/
def State.postJob (s : State) (die k : Nat) : State :=
  let x := s.slot die k
  let r := s.relCount die k
  let j : Job := ⟨k, r, s.lt⟩
  if s.jobPending die k then
    each (List.range (engineCount die)) (fun s e =>
      let y := s.eng die e
      s.setEng die e { y with deque := y.deque.map fun o => if o.slot = k then j else o }) s
  else
    let y := s.eng die x.home
    let s := (s.setEng die x.home { y with deque := y.deque ++ [j] }).wakeEngines die (50 * r + 320)
    s.wr 0x2503 (x.home + 1) (dieI die) (max (s.rd 0x2503 (x.home + 1) (dieI die)) (y.deque.length + 1 : Nat))

/-- Post a slot's job and count its overrun; the third in a row latches the slot (R130, R131). In an engine reset the release
counts an overrun and brings no job (R413). -/
def State.post (s : State) (die k : Nat) : State :=
  let x := s.slot die k
  let reset := (s.die die).engRst.any fun t => decide (s.lt < t)
  let late := (x.busy && !s.endedBy die k (s.relCount die k)) || s.jobPending die k || reset
  let s := s.setSlot die k { x with
    overruns := if late then x.overruns + 1 else x.overruns, consec := if late then x.consec + 1 else 0 }
  let s := if reset then s else s.postJob die k
  if late then
    let s := s.noteAt die (slotField die k) 0x2005 (leNat 1 (x.consec + 1))
    if 3 ≤ x.consec + 1 then s.latchSlot die k 7 0 else s
  else s

/-- The slot's release is due (R111): its instant has come, this release has not been made, and no lower slot of the same
instant still waits for its own. -/
def State.relDue (s : State) (die k : Nat) : Bool :=
  let r := s.relCount die k
  decide (s.cnt die ≤ r + 1) && (s.slot die k).lastRel != some r &&
    (List.range k).all fun i => !(s.slotActive die i && s.relCount die i == r && (s.slot die i).lastRel != some r)

/-- RELEASE: the slot's sample set is completed, and a job is posted unless the drain stops it. -/
def State.release (s : State) (die k : Nat) (given : List Sample) : State :=
  let s := s.setSlot die k { s.slot die k with lastRel := some (s.relCount die k) }
  let s := s.takeSamples die k given
  match chanSlot die k with
  | some c =>
    if s.slave c then s.post die k
    else
      let (s, go) := s.drainRelease c
      if go then s.post die k else s
  | none => s.post die k

def execRelease (die k : Nat) (given : List Sample) (s : State) : Res := .next <|
  if s.slotActive die k ∧ s.relDue die k then s.release die k given else s

/-! ## Taking a job (R115, R125 to R129) -/

/-- The descriptor of a slot's job (R125). -/
def State.descFor (s : State) (die k : Nat) : Nat :=
  if die = 0 then s.rdN 0x2523 (k + 1) dev
  else if k < 64 then
    let c := chanOf die k
    if s.slave c then s.rdN 0x2511 0x11 c else s.rdN 0x2511 (s.mode c + 1) c
  else s.rdN 0x2514 (k - 61) (siteI die)

/-- The oldest job of a deque whose slot is not busy. -/
def State.oldestFree (s : State) (die v : Nat) : Option Job := (s.eng die v).deque.find? fun j => !(s.slot die j.slot).busy

/-- The other engines of a die, in the order in which engine `e` scans them. -/
def scanOrder (die e : Nat) : List Nat := (List.range (engineCount die - 1)).map fun i => (e + 1 + i) % engineCount die

/-- A selection: the engine that takes, the deque it takes from, the job. -/
abbrev Pick := Nat × Nat × Job

/-- What an engine without a job of its own steals (R127, R129): the oldest free job of the first victim that holds two, if
no other engine takes that job in the same cycle. -/
def State.steals (s : State) (die e : Nat) (taken : List Pick) : Option Pick :=
  (scanOrder die e).findSome? fun v =>
    if 2 ≤ (s.eng die v).deque.length then
      match s.oldestFree die v with
      | some j => if taken.any (fun p => p.2.1 == v && p.2.2 == j) then none else some (e, v, j)
      | none => none
    else none

/-- What the engines that run the procedure in one cycle take (R127, R129): each its own oldest free job; then the thieves,
the lower number first, pass over what is taken. -/
def State.picks (s : State) (die : Nat) (es : List Nat) : List Pick :=
  let own := es.filterMap fun e => (s.oldestFree die e).map fun j => (e, e, j)
  (es.filter fun e => !own.any fun p => p.1 == e).foldl (fun l e =>
    match s.steals die e l with | some p => l ++ [p] | none => l) own

/-- A job leaves a deque for an engine, and its slot is busy (R128). -/
def State.claimJob (s : State) (die t : Nat) (p : Pick) : State :=
  let y := s.eng die p.2.1
  let s := s.setEng die p.2.1 { y with deque := y.deque.erase p.2.2 }
  let s := s.setSlot die p.2.2.slot { s.slot die p.2.2.slot with busy := true }
  s.setEng die p.1 { s.eng die p.1 with claim := some (p.2.1, p.2.2, t) }

/-- The engines of a die that run the procedure at a time. -/
def State.wokenAt (s : State) (die t : Nat) : List Nat :=
  (List.range (engineCount die)).filter fun e => (s.eng die e).wakeAt == some t

/-- The engines that run the procedure at a time take their jobs; those that find none stay idle. -/
def State.arbitrate (s : State) (die t : Nat) : State :=
  let es := s.wokenAt die t
  let ps := s.picks die es
  let s := each es (fun s e => s.setEng die e { s.eng die e with wakeAt := none }) s
  each ps (fun s p => s.claimJob die t p) s

/-- The times, up to one, at which engines of a die run the procedure, in order. -/
def State.wakeTimes (s : State) (die t : Nat) : List Nat :=
  (((List.range (engineCount die)).filterMap fun e => (s.eng die e).wakeAt).filter fun u => decide (u ≤ t)).eraseDups.mergeSort
    fun a b => decide (a ≤ b)

/-- The words an engine copies at a job's start (R114): the die's status, sequence number and release LT stand in words
0 to 3 (log 12), the drain factor in word 4 (R190). -/
def Slot.words' (x : Slot) (status : Int) (seq lt : Nat) : Tbl Int :=
  put (put (put (put (put x.words 0 status) 1 (wrap32 seq)) 2 (wrap32 lt)) 3 (wrap32 (lt / 2 ^ 32 : Nat))) 4 (x.word 4)

/-- The cycles of a job as it starts (R123): the 40 cycles around the micro-ops; a template runs at its W (log 169). -/
def State.firstCycles (s : State) (die id : Nat) : Nat := if id < 32 then s.descW die id else 40

/-- Engine `e` starts at a time a job it took from the deque of engine `v` (R115). -/
def State.startJob (s : State) (die e v t : Nat) (j : Job) : State :=
  let x := s.slot die j.slot
  let g := s.slot die (s.masterSlot die j.slot)
  let words := x.words' (wrap32 (Config.freeInt s.free)) (x.seq + 1) j.at'
  let s := s.draw.setSlot die j.slot { x with
    busy := true, seq := x.seq + 1, words := words, releaseLt := j.at', stolen := if e = v then x.stolen else x.stolen + 1 }
  let s := if e = v then s else s.inc 0x2501 (e + 1) (dieI die)
  let s := match chanSlot die j.slot with
    | some c => if s.descFor die j.slot < 32 then s else s.customStart c
    | none => s
  let z := s.eng die e
  s.setEng die e { ({} : Engine) with
    deque := z.deque, job := some ⟨j.slot, s.descFor die j.slot, j.release, j.at', e != v⟩, words := words, began := t,
    cycles := s.firstCycles die (s.descFor die j.slot),
    ldg := (look 0 g.pub 0, look 0 g.pub 1) }

/-- The take procedure has run on every engine of a die that was to run it up to the time of engine `e` (R127, R129). -/
def State.takeUpTo (s : State) (die e : Nat) : State :=
  match (s.eng die e).wakeAt with
  | some t => if s.hasCome die t then each (s.wakeTimes die t) (fun s t => s.arbitrate die t) s else s
  | none => s

/-- JOB_START (R127): a free engine runs the take procedure, and starts the job it takes. -/
def execJobStart (die e : Nat) (s : State) : Res := .next <|
  if s.diePop die ∧ e < engineCount die ∧ (s.eng die e).job.isNone ∧ !(s.die die).halted then
    let s := s.takeUpTo die e
    match (s.eng die e).claim with
    | some (v, j, t) => s.startJob die e v t j
    | none => s
  else s

/-! ## The end of a job (R113, R114, R119, R120, R123, R124) -/

/-- The slot holds a latch. -/
def State.slotLatched (s : State) (die k : Nat) : Bool :=
  if die = 0 then s.hubLatched k
  else if k < 64 then s.latched (chanOf die k) else ((s.die die).dab (k - 64)).latched

/-- The generator unit that a slot's EDG and CMT act on (R119); a hub slot's own output is its first unit (log 14). -/
def outputOf (die k : Nat) : Option Nat :=
  if die ≠ 0 then some k
  else if k = 0 then some 0 else if k = 3 then some 6
  else if 4 ≤ k ∧ k < 8 then some (8 + 3 * (k - 4)) else if 8 ≤ k ∧ k < 12 then some (20 + 4 * (k - 8)) else none

/-- One staging write of a job (R76, R81): an invalid period, or a Δ beyond half a period (R99, log 170), leaves the staging
as it was. -/
def State.stageWord (s : State) (die u : Nat) (w : Nat × Int) : State :=
  let x := s.unit die u
  let raw := (w.2 % 4294967296).toNat
  let st := match w.1 with
    | 0 => if s.periodOk (die == 0) raw then { x.staged with period := raw } else x.staged
    | 1 => { x.staged with rise := raw }
    | 2 => { x.staged with fall := raw }
    | 3 => if w.2.natAbs ≤ 16 * x.staged.period then { x.staged with delta := w.2 } else x.staged
    | _ => x.staged
  s.setUnit die u { x with staged := st }

/-- A commit of a job: the set as staged so far (R81, R119). -/
def State.jobCommit (s : State) (die k u : Nat) : State :=
  let s := s.commitUnit die u
  match chanSlot die k with
  | some c => let m := s.master c; s.setRunSt m { s.run m with jobCommitted := true }
  | none => s

/-- Hand the staging writes and the commits of a job to its output, in their order. -/
def State.handOver (s : State) (die k : Nat) (x : Engine) : State :=
  match outputOf die k with
  | some u => each x.staged (fun s w => match w with | some w => s.stageWord die u w | none => s.jobCommit die k u) s
  | none => s

/-- What a vendor template computes in one job of a slot. -/
def State.templateJob (s : State) (die k id e : Nat) : State :=
  if die = 0 then
    if s.slotLatched 0 k then s
    else
      match id with
      | 16 => s.afeJob
      | 17 => s.gridJob e
      | 18 => s.linkJob
      | 19 => s.chopJob
      | 20 => s.bldcJob (k - 4)
      | 21 => s.stepJob (k - 8)
      | 22 => s.profileJob (k - 12) e
      | _ => s
  else if k < 64 then s.lawJob (chanOf die k) id e
  else s.dabJob die (k - 64) e

/-- Published words as they stand after a job. -/
def publishAll (pub : Tbl Int) (l : List (Nat × Int)) : Tbl Int := l.foldl (fun t w => put t w.1 w.2) pub

/-- Count a job that ends: latency in ns truncated, peaks, counts; the slot is free (R128, R135). -/
def State.countJob (s : State) (die e : Nat) (j : RunJob) : State :=
  let lat := ((s.eng die e).endsAt die - 50 * j.release) / 16
  let x := s.slot die j.slot
  let s := s.setSlot die j.slot { x with busy := false, jobs := x.jobs + 1, lastLat := lat, peakLat := max x.peakLat lat }
  let s := s.inc 0x2502 (e + 1) (dieI die)
  s.wr 0x2504 0 (dieI die) (max (s.rd 0x2504 0 (dieI die)) (lat : Nat))

/-- End the job of an engine: write-back and published words, the hand-over unless the slot is latched. -/
def State.finishJob (s : State) (die e : Nat) (j : RunJob) : State :=
  let y := s.eng die e
  let x := s.slot die j.slot
  let s := s.setSlot die j.slot { x with
    words := x.words.filter (fun w => decide (w.1 < 8)) ++ y.words.filter (fun w => decide (8 ≤ w.1)),
    pub := publishAll x.pub y.pubs }
  let s := if s.slotLatched die j.slot then s else s.handOver die j.slot y
  let s := (s.countJob die e j).setEng die e { ({} : Engine) with deque := y.deque, wakeAt := some (y.endsAt die) }
  if die = 0 then s else s.standingSources die

/-- JOB_END: the job of an engine ends, once its cycles have passed (R135). A custom descriptor ends in its YLD or LAT. -/
def execJobEnd (die e : Nat) (s : State) : Res := .next <|
  let y := s.eng die e
  match y.job with
  | some j =>
    if (s.die die).halted ∨ !y.ran ∨ !s.hasCome die (y.endsAt die) then s
    else if j.desc < 32 then (s.templateJob die j.slot j.desc e).finishJob die e j
    else (match chanSlot die j.slot with | some c => s.customJob c e | none => s).finishJob die e j
  | none => s

/-- ENGINE_FAULT (R124): the job stops, its staging and commit are discarded, and the slot latches, cause 6. -/
def execEngineFault (die e : Nat) (k : EngFault) (s : State) : Res := .next <|
  let y := s.eng die e
  match y.job with
  | some j =>
    if k = .ecc ∨ s.descW die j.desc < y.cycles then
      let x := s.slot die j.slot
      ((s.setSlot die j.slot { x with busy := false }).setEng die e
        { ({} : Engine) with deque := y.deque, wakeAt := some (50 * s.cnt die) }).latchSlot die j.slot 6 0
    else s
  | none => s

/-! ## The descriptor library (R122, R123) -/

/-- The bits that the micro-op of an opcode uses beside OP (R115, R116). -/
def opMask (op : Nat) : Nat :=
  let d := 0x7000000
  let a := 0xE00000
  let b := 0x1C0000
  let acc := 0x1000000
  [0, d + 0xF, d + 0xF, d + 0x3F, a + 0x3F, d + 0xFFFFFF, d + 0xFFFF, d + a, d + a + b, d + a + b,
   acc + a + b, acc + a + b, acc + a, d + 0x40000, d + a + b, d + a + b, d + a + 0x3F, d + a + 0x3F,
   d + a + 0x3F, d + a + 0x3F, d + a + 0x3F, d + a + b, d + a + 0x3F, a + b, d + 0xFFF, 0,
   d + a, 0, 0xFFFF, a + 0xF, d + 0xF, 0].getD op 0

/-- A tag that exists for a slot kind (R112, R290). DEDUCED (log 13): a tag that the table lists as unused does not exist; the
hub's slots have tags 0 to 9, whichever of them a slot fills. -/
def tagExists (kind tag : Nat) : Bool :=
  if kind = 0 then decide (tag ≤ 8) else if kind = 1 then [0, 1, 2, 3, 7].contains tag else decide (tag ≤ 9)

/-- A state-word span of a micro-op lies in 8 to 63. -/
def spanOk (w n : Nat) : Bool := decide (8 ≤ w) && decide (w + n ≤ 64)

/-- One micro-op passes the checks of R122 that look at it alone. DEDUCED (log 13): LIM reads words s and s + 1, so s = 63
has no second bound. -/
def State.opOk (s : State) (die kind : Nat) (w : Word) : Bool :=
  let op := opOf w
  let f := opF w
  w.toNat % 2 ^ 27 == (w.toNat % 2 ^ 27) &&& opMask op &&
    (match op with
     | 0x01 => tagExists kind f
     | 0x02 => decide (f ≤ 11)
     | 0x04 => spanOk f 1
     | 0x10 => decide (f ≤ 62)
     | 0x11 => f != 32
     | 0x12 => spanOk f 2
     | 0x13 => spanOk f 7
     | 0x14 => spanOk f 3
     | 0x16 => !(s.rdB 0x2507 (f + 1) (dieI die)).isEmpty
     | 0x1A => decide (opD w ≤ 2) || (opD w == 3 && kind == 1)
     | _ => true)

/-- The largest cost of a path from a word, given the costs from the words behind it (R123): none where a path does not
end in YLD or LAT, or a branch leaves the descriptor. -/
def pathCost (w : Word) (rest : List (Option Nat)) : Option Nat :=
  let op := opOf w
  let own := opCycles op
  if op = 0x1F ∨ op = 0x1C then some own
  else
    let next := rest.head?.join
    if op = 0x18 then
      let taken := if opF w = 0 then none else (rest[opF w]?).join
      if opD w = 0 then taken.map (own + ·)
      else match next, taken with | some a, some b => some (own + max a b) | _, _ => none
    else next.map (own + ·)

/-- The costs from every word of a descriptor, first word first. -/
def pathCosts (ops : List Word) : List (Option Nat) := ops.foldr (fun w rest => pathCost w rest :: rest) []

/-- The branches of a descriptor are greater than 0 and land inside it. -/
def branchesOk : List Word → Bool
  | [] => true
  | w :: t => (opOf w != 0x18 || (opF w != 0 && decide (opF w < t.length))) && branchesOk t

/-- W of a descriptor (R123). -/
def costOf (ops : List Word) : Option Nat := ((pathCosts ops).head?.join).map (40 + ·)

/-- The words of a descriptor's octets behind its header. -/
def opWords (b : List Byte) : List Word := (List.range ((b.length - 16) / 4)).map fun i => BitVec.ofNat 32 (fieldAt b (16 + 4 * i) 4)

/-- The ID of a descriptor's header, and its kind, length and declared W. -/
def hdrId (b : List Byte) : Nat := fieldAt b 2 1
def hdrKind (b : List Byte) : Nat := fieldAt b 1 1
def hdrLen (b : List Byte) : Nat := fieldAt b 6 2
def hdrW (b : List Byte) : Nat := fieldAt b 4 2

/-- Octets that a custom descriptor takes in the library. -/
def descSize (len : Nat) : Nat := 16 + 4 * len

/-- The room of the library once the descriptor under an ID has left it. -/
def State.libraryRoom (s : State) (die id : Nat) : Nat :=
  s.rdN 0x2505 3 (dieI die) + (if (s.desc die id).loaded then descSize (s.desc die id).len else 0)

/-- The checks of R122 on the octets of a load. -/
def State.descriptorOk (s : State) (die : Nat) (b : List Byte) : Bool :=
  let ops := opWords b
  fieldAt b 3 1 == 1 && decide (32 ≤ hdrId b) && decide (hdrId b ≤ 63) && decide (hdrKind b ≤ 2) && fieldAt b 0 1 == 0 &&
    decide (1 ≤ hdrLen b) && decide (hdrLen b ≤ 256) && b.length == descSize (hdrLen b) &&
    fieldAt b 8 4 == crc32 (b.drop 16) && fieldAt b 12 4 == 0 &&
    ops.all (s.opOk die (hdrKind b)) && branchesOk ops && costOf ops == some (hdrW b) &&
    decide (hdrW b ≤ if hdrKind b = 2 then 800 else 640) &&
    decide (descSize (hdrLen b) ≤ s.libraryRoom die (hdrId b))

/-- The slots whose objects name an ID (R122, R126). -/
def State.mappedTo (s : State) (die id : Nat) : List Nat :=
  (List.range (slotCount die)).filter fun k =>
    if die = 0 then s.rdN 0x2523 (k + 1) dev == id
    else if k < 64 then (List.range 17).any fun m => s.rdN 0x2511 (m + 1) (chanOf die k) == id
    else s.rdN 0x2514 (k - 61) (siteI die) == id

/-- A slot is idle for the library: a channel idle or, DEDUCED from R421 (log 13), latched; a stage stopped; a hub slot's
owner closed. -/
def State.slotIdle (s : State) (die k : Nat) : Bool :=
  if die ≠ 0 ∧ k < 64 then s.idle (chanOf die k) || s.latched (chanOf die k) else !s.slotBusy die k

/-- An ID is mapped to a slot that is not idle. -/
def State.idInUse (s : State) (die id : Nat) : Bool := (s.mappedTo die id).any fun k => !s.slotIdle die k

/-- The die of an instance of the engine objects. -/
def dieAt (e : Nat) : Nat := if e = dev then 0 else e - 0x3C0

/-- The checks of a descriptor load beyond length and access. -/
def descriptorCheck (b : List Byte) (s : State) (e : Nat) : Nat :=
  if s.idInUse (dieAt e) (hdrId b) then aNotIdle
  else if s.descriptorOk (dieAt e) b then aDone else aDescriptor

/-- Load a descriptor into the library of a die. -/
def descriptorSet (b : List Byte) (s : State) (e : Nat) : State :=
  let die := dieAt e
  let id := hdrId b
  let room := s.libraryRoom die id - descSize (hdrLen b)
  (s.setDesc die id ⟨hdrKind b, hdrLen b, hdrW b, opWords b, true⟩).wr 0x2505 3 e room

def execDescriptorLoad (src : Src) (die : Nat) (b : List Byte) (s : State) : Res :=
  .next (s.writeBlob src 0x2505 1 [dieI die] b (descriptorCheck b) (descriptorSet b))

/-- The checks and the effect of a remove (R126): the library loses the ID, every object that names it is replaced, and
admission runs on the result. -/
def removeCheck (id : Nat) (s : State) (e : Nat) : Nat := idleOr (!s.idInUse (dieAt e) id)

/-- Admission after replacements that nothing refuses: carried out when it passes, shown when it fails. -/
def State.admitAfter (s : State) (die : Nat) (affected : List Nat) : State :=
  let r := s.admitResult die affected
  if r = 0 then s.admitDie die affected else s.wr 0x2500 5 (dieI die) r

def removeSet (id : Nat) (s : State) (e : Nat) : State :=
  let die := dieAt e
  if (s.desc die id).loaded then
    let slots := s.mappedTo die id
    let s := (s.wr 0x2505 3 e (s.libraryRoom die id)).setDesc die id {}
    (s.replaceIds die).admitAfter die slots
  else s

def execDescriptorRemove (src : Src) (die id : Nat) (s : State) : Res :=
  .next (s.writeObj src 0x2505 2 [dieI die] id (removeCheck id) (removeSet id))

/-! ## Curve tables (R121) -/

/-- The checks of a curve-table load beyond its length. -/
def curveCheck (i j : Nat) (b : List Byte) (s : State) (e : Nat) : Nat :=
  if !curveOk b then aRange else idleOr (s.ownerIdle i j e)

def execCurveTableLoad (src : Src) (die t : Nat) (b : List Byte) (s : State) : Res :=
  .next (s.writeBlob src 0x2507 (t + 1) [dieI die] b (curveCheck 0x2507 (t + 1) b) (fun s e => s.wrB 0x2507 (t + 1) e b))

end Sys2Proof.Machine
end

