-- ==== Sys2Proof/Machine/Supervisor.lean ====
section
/-! DEFINITION. The safety supervisor (chapter 11): its cycle, safe inputs and their tests, the functions, reset,
safe outputs, contactors, the safe state; the door and temperature checks of the channel dies. -/

namespace Sys2Proof.Machine

def State.setSup (s : State) (x : Super) : State := { s with sup := x }
def State.sin (s : State) (k : Nat) : SafeIn := look {} s.sup.ins k
def State.setSin (s : State) (k : Nat) (x : SafeIn) : State := s.setSup { s.sup with ins := put s.sup.ins k x }
def State.sout (s : State) (k : Nat) : SafeOut := look {} s.sup.outs k
def State.setSout (s : State) (k : Nat) (x : SafeOut) : State := s.setSup { s.sup with outs := put s.sup.outs k x }

/-- The supervisor runs (R336): not starting, not in the safe state. -/
def State.supRuns (s : State) : Bool := s.rd 0x4000 1 dev == 1

/-- The function code and the test source of an input (0x4001, 0x4002). -/
def State.inFn (s : State) (k : Nat) : Nat := s.rdN 0x4001 (k + 1) dev
def State.inSrc (s : State) (k : Nat) : Nat := s.rdN 0x4002 (k + 1) dev

/-! ## Safe outputs (R337, R355 to R357) -/

/-- The outputs that feed STO supplies (R357). -/
def State.isStoOut (s : State) (n : Nat) : Bool := s.rdN 0x4016 1 dev == n || s.rdN 0x4016 2 dev == n

/-- An output switches off; STO takes effect on what it feeds (R357). -/
def State.switchOff (s : State) (n : Nat) : State :=
  let x := s.sout n
  let s := (s.setSout n { x with on := false, bad := 0, ss1At := none }).wr 0x4010 (n + 1) dev x.fault
  s.stoOut n

/-- An output turns on: the STO demand on what it feeds is released (R333). -/
def State.switchOn (s : State) (n : Nat) : State :=
  let x := s.sout n
  ((s.setSout n { x with on := true, bad := 0 }).wr 0x4010 (n + 1) dev 1).freeOut n

/-- The last samples of an input make it demand, or fault it, in this cycle (R338, R340). -/
def State.demandPends (s : State) : Bool :=
  (List.range 8).any fun k =>
    let x := s.sin k
    decide (1 ≤ s.inFn k ∧ s.inFn k ≤ 3) && !x.demand && (decide (2 ≤ x.low) || decide (3 ≤ x.invalid))

/-- The grant rule of R337: an off request of the same cycle wins. Bit [1] of the hold reasons stays set from a demand to the reset, so it covers an output that a
demanded function has switched off. -/
def State.granted (s : State) (n : Nat) : Bool :=
  let h := s.rdN 0x4000 2 dev
  s.rd 0x4014 (n + 1) dev == 1 && (s.sout n).fault == 0 && s.supRuns &&
    !bit h 1 && !bit h 5 && !bit h 6 && !bit h 7 && !s.demandPends

/-- Turn on every output that is off and granted. -/
def State.grantOutputs (s : State) : State :=
  each [0, 1, 2, 3] (fun s n => if !(s.sout n).on ∧ !(s.sout n).pulse ∧ s.granted n then s.switchOn n else s) s

/-- A function switches an output off; its request goes to 0 unless the output feeds an STO supply (R355). -/
def State.functionOff (s : State) (n : Nat) : State :=
  let s := s.switchOff n
  if s.isStoOut n then s else s.wr 0x4014 (n + 1) dev 0

/-- The outputs of a mask. -/
def maskOuts (m : Nat) : List Nat := [0, 1, 2, 3].filter (bit m)

/-! ## Contactors (R358 to R360) -/

/-- A safety function opens every contactor; the requests of KDRV2 and KDRV3 go to 0 (R355). -/
def State.openAll (s : State) : State :=
  ((each [0, 1, 2, 3] (fun s k => s.openKdrv k) s).wr 0x4023 1 dev 0).wr 0x4023 2 dev 0

/-! ## The functions (R343, R344, R346, R350, R559) -/

/-- A function is demanded by an input (R341). -/
def State.inputDemands (s : State) (code : Nat) : Bool :=
  (List.range 8).any fun k => s.inFn k == code && (s.sin k).demand

/-- Show the active functions and hold reason [0] (R353, R559). -/
def State.showActive (s : State) : State :=
  let a := (if s.inputDemands 1 then 1 else 0) + (if s.inputDemands 2 then 2 else 0) +
    (if s.inputDemands 3 || s.sup.thermalFire || s.sup.appFire then 4 else 0) + (if s.sup.thermalFire then 8 else 0)
  let s := s.wr 0x4000 3 dev (a : Nat)
  if s.inputDemands 1 || s.inputDemands 2 || s.inputDemands 3 then s.setHold 0 else s.clearHold 0

/-- Entry 0x4002 when a function is demanded or ends. -/
def State.activeNote (s : State) (corr : Nat) : State := s.raise 0 noChan 0x4002 (leInt 1 (s.rd 0x4000 3 dev)) corr

/-- The emergency stop (R343): segment stop request, SS1 or off on its mask, the two delays, the controlled stop. -/
def State.emergencyStop (s : State) (corr : Nat) : State :=
  let s := s.raiseAll 0x05 127 corr
  let s := s.setSup { s.sup with
    stopDelayAt := some (s.lt + 1000000), openDelayAt := some (s.lt + s.rdN 0x4022 0 dev * 1000) }
  let s := each (maskOuts (s.rdN 0x4012 1 dev)) (fun s n =>
    if s.isStoOut n ∧ (s.sout n).on then
      let s := s.ss1Out n
      if s.allSlow n then s.functionOff n
      else s.setSout n { s.sout n with ss1At := some (s.lt + s.rdN 0x4017 0 dev * 1000000) }
    else s.functionOff n) s
  s.stopWith 15 corr

/-- The door function (R343, R346): the door limit, and STO of the axes. -/
def State.doorOpen (s : State) (corr : Nat) : State :=
  let s := (s.raiseAll 0x07 127 corr).setSup { s.sup with door := true }
  let axes := s.rdN 0x4016 2 dev
  each ((maskOuts (s.rdN 0x4012 2 dev) ++ [axes]).eraseDups) (fun s n => s.functionOff n) s

/-- ADIS is due 100 µs after KFB0 and KFB1 both show open (R347). -/
def State.adisDue (s : State) : State :=
  let both := (s.kdrv 0).openSince.isSome && (s.kdrv 1).openSince.isSome
  s.setSup { s.sup with adisAt := if both then some (s.sup.adisAt.getD (s.lt + 100000)) else none }

/-- The fire function (R343, R347): safety stop at once, all off, all contactors open with the AFE low. -/
def State.fireDemand (s : State) (corr : Nat) : State :=
  let s := s.raiseAll 0x03 127 corr
  let outs := maskOuts (s.rdN 0x4012 3 dev) ++ [s.rdN 0x4016 1 dev, s.rdN 0x4016 2 dev]
  let s := each outs.eraseDups (fun s n => s.functionOff n) s
  let s := (s.openAll.afeLow).stopWith 15 corr
  (s.setSup { s.sup with fire := true, adisAt := none }).adisDue

/-- A function's demand begins (R343): its code's actions, hold reasons [0] and [1], entry 0x4002. -/
def State.demandFn (s : State) (code : Nat) : State :=
  let corr := s.corrId 0
  let s := ((s.openCorr 0).setHold 1).showActive.activeNote corr
  match code with
  | 1 => s.emergencyStop corr
  | 2 => s.doorOpen corr
  | 3 => s.fireDemand corr
  | _ => s

/-- An input takes up a demand of its function. -/
def State.demandInput (s : State) (k : Nat) : State :=
  let code := s.inFn k
  let new' := !s.inputDemands code
  let s := s.setSin k { s.sin k with demand := true }
  if 1 ≤ code ∧ code ≤ 3 ∧ new' then s.demandFn code else s

/-- An input drops its demand; the function ends when no other input holds it. -/
def State.dropInput (s : State) (k : Nat) : State :=
  let code := s.inFn k
  let s := s.setSin k { s.sin k with demand := false }
  if 1 ≤ code ∧ code ≤ 3 ∧ !s.inputDemands code then
    let corr := s.corrId 0
    (s.openCorr 0).showActive.activeNote corr
  else s

/-! ## Safe inputs (R338 to R342) -/

/-- A sample of an input (R338): 0 low, 1 high, 2 invalid. -/
def sinLevel (mv : Int) : Nat := if 11000 < mv then 1 else if mv < 5000 then 0 else 2

/-- The sample of a cycle: masked samples of R340 count for no demand. -/
def SafeIn.take (x : SafeIn) (l lt : Nat) : SafeIn :=
  let x := { x with invalid := if l = 2 then x.invalid + 1 else 0, validSince := runOf x.validSince (l != 2) lt }
  let x := if l = 2 then { x with passes := 0 } else x
  if lt < x.maskUntil then x
  else
    { x with
      low := if l = 0 then x.low + 1 else 0, high := if l = 1 then x.high + 1 else 0, level := l,
      highSince := if l = 1 then some (x.highSince.getD lt)
        else if l = 0 ∧ x.level = 1 then x.highSince else none }

/-- An input is faulted (R338 to R342): it demands its function until it recovers. -/
def State.faultInput (s : State) (k code : Nat) : State :=
  if (s.sin k).faulted ∧ !(s.sin k).recovered then s
  else
    let s := s.setSin k { s.sin k with faulted := true, recovered := false, passes := 0, validSince := none }
    (((s.wr 0x4005 (k + 1) dev 3).setHold 5).supFault code).demandInput k

/-- A source's test pulse is in progress (R339). -/
def State.inPulse (s : State) (stp : Nat) : Bool :=
  (s.sup.lastPulse.getD stp none).any fun a => decide (s.lt < a + s.rdN 0x4004 1 dev * 1000)

/-- The last sample in its source's pulse, once the pulse is over: it must be low (R339); what passes counts toward R342. -/
def State.ownPulse (s : State) (k : Nat) : State :=
  let x := s.sin k
  match x.pulseLevel with
  | some l =>
    if s.inPulse (s.inSrc k - 1) then s
    else if l = 0 then s.setSin k { x with pulseLevel := none, passes := if x.invalid = 0 then x.passes + 1 else 0 }
    else (s.setSin k { x with pulseLevel := none, passes := 0 }).faultInput k 0x22
  | none => s

/-- The sample of one input. After the other source's pulse it decides a cross-circuit: low in the pulse, and high before and
after it (R339). -/
def State.sampleInput (s : State) (k : Nat) (mv : Int) : State :=
  let l := sinLevel mv
  let x := s.sin k
  let used := decide (s.inFn k ≠ 0 ∧ s.inSrc k ≠ 0)
  let own := used && s.inPulse (s.inSrc k - 1)
  let other := used && s.inPulse (2 - s.inSrc k)
  let low := x.crossLow || (other && x.level == 1 && l == 0)
  let y := x.take l s.lt
  let s := (s.setSin k { y with
    crossLow := low && other, pulseLevel := if own then some l else y.pulseLevel }).wr 0x4005 (k + 1) dev (if y.faulted then 3 else l)
  let s := s.ownPulse k
  if low ∧ !other ∧ l = 1 then s.faultInput k 0x23 else s

/-- The inputs of a cycle. -/
def State.sampleInputs (s : State) (sin : List Int) : State :=
  each (List.range 8) (fun s k => s.sampleInput k (sin.getD k 0)) s

/-- The pair of a function code, when two inputs carry it (R341). -/
def State.pairOf (s : State) (code : Nat) : List Nat := (List.range 8).filter fun k => s.inFn k == code

/-- The timer of one pair at a cycle (R341). -/
def State.pairSince (s : State) (code : Nat) : Option Nat :=
  match s.pairOf code with
  | [a, b] => runTo (s.sup.disagree.getD (code - 1) none) (s.rdN 0x4003 1 dev * 1000000) ((s.sin a).level != (s.sin b).level) s.lt
  | _ => none

def State.watchPairs (s : State) : State := s.setSup { s.sup with disagree := [1, 2, 3].map s.pairSince }

/-- INPUT_DEMAND (R340). -/
def execInputDemand (k : Nat) (s : State) : Res := .next <|
  if s.supRuns ∧ k < 8 ∧ 1 ≤ s.inFn k ∧ s.inFn k ≤ 3 ∧ 2 ≤ (s.sin k).low ∧ !(s.sin k).demand then s.demandInput k else s

/-- INPUT_DEMAND_END (R340, R342): a faulted input holds its demand until it recovers. -/
def execInputDemandEnd (k : Nat) (s : State) : Res := .next <|
  if s.supRuns ∧ k < 8 ∧ 2 ≤ (s.sin k).high ∧ (s.sin k).demand ∧ ((s.sin k).recovered ∨ !(s.sin k).faulted) then s.dropInput k
  else s

/-- INPUT_FAULT (R338): invalid on 3 consecutive samples. -/
def execInputFault (k : Nat) (s : State) : Res := .next <|
  if s.supRuns ∧ k < 8 ∧ s.inFn k ≠ 0 ∧ 3 ≤ (s.sin k).invalid then s.faultInput k 0x21 else s

/-- A source's pulse is due (R339): STP0's one period after its last, STP1's half a period after STP0's. -/
def State.pulseDue (s : State) (stp : Nat) : Bool :=
  let p := s.rdN 0x4004 2 dev * 1000000
  let last (k : Nat) := s.sup.lastPulse.getD k none
  if stp = 0 then (last 0).all fun t => decide (t + p ≤ s.lt)
  else (last 0).any fun t => decide (t + p / 2 ≤ s.lt) && (last 1).all fun u => decide (u < t + p / 2)

/-- TEST_PULSE (R339, R340): a source's pulse begins; the samples of its inputs are masked to 100 µs after its end. What it finds
shows at the cycles that follow. -/
def execTestPulse (stp : Nat) (s : State) : Res := .next <|
  if s.supRuns ∧ stp < 2 ∧ s.pulseDue stp then
    let s := s.setSup { s.sup with lastPulse := s.sup.lastPulse.set stp (some s.lt) }
    each (List.range 8) (fun s k =>
      if s.inSrc k = stp + 1 then s.setSin k { s.sin k with maskUntil := s.lt + (s.rdN 0x4004 1 dev + 100) * 1000 } else s) s
  else s

/-- DISCREPANCY_FAULT (R341). -/
def execDiscrepancyFault (code : Nat) (s : State) : Res := .next <|
  if s.supRuns ∧ 1 ≤ code ∧ code ≤ 3 ∧ heldFor (s.sup.disagree.getD (code - 1) none) (s.rdN 0x4003 1 dev * 1000000) s.lt then
    each (s.pairOf code) (fun s k => s.faultInput k 0x24) s
  else s

/-- A faulted input has met R342. -/
def State.inputRecovers (s : State) (k : Nat) : Bool :=
  let x := s.sin k
  x.faulted && !x.recovered &&
    (if s.inSrc k = 0 then heldFor x.validSince (2 * s.rdN 0x4004 2 dev * 1000000) s.lt
     else decide (2 ≤ x.passes) && x.invalid == 0)

/-- INPUT_RECOVERY (R342): from here on the input demands only as its samples require. -/
def execInputRecovery (k : Nat) (s : State) : Res := .next <|
  if s.supRuns ∧ k < 8 ∧ s.inputRecovers k then
    let s := s.setSin k { s.sin k with recovered := true }
    if 2 ≤ (s.sin k).high then s.dropInput k else s
  else s

/-! ## The cycle (R336) -/

/-- An output's fault marks it and switches it off: stuck on, code 0x31 (R356), sets hold reason [4] and starts the controlled
stop. -/
def State.stuckOn (s : State) (n : Nat) : State :=
  let s := s.setSout n { s.sout n with fault := 2, passed := false, pulse := false, backAt := none }
  (((s.switchOff n).setHold 4).supFault 0x31).controlledStop 15

/-- Overload, code 0x32: off. -/
def State.overload (s : State) (n : Nat) : State :=
  let s := s.setSout n { s.sout n with fault := 3, passed := false, pulse := false, backAt := none }
  (s.switchOff n).supFault 0x32

/-- The readback of a safe output (R356): beyond its thresholds on consecutive samples, and high again within 300 µs after its
pulse. -/
def State.sampleOutput (s : State) (n : Nat) (mv : Int) : State :=
  let x := s.sout n
  let wrong := if x.on then decide (mv < 5000) else decide (18000 < mv)
  let back := if x.on && decide (mv ≤ 18000) then x.backAt else none
  let s := s.setSout n { x with bad := if x.pulse then 0 else if wrong then x.bad + 1 else 0, backAt := back }
  if back.any fun t => decide (t + 300000 ≤ s.lt) then s.overload n else s

/-- The feedback and the drive level of a contactor (R359; high above 15 V, low below 5 V (chapter 19)). -/
def State.sampleContactor (s : State) (k : Nat) (kfb drv : Int) : State :=
  let x := s.kdrv k
  if !s.kdrvUsed k then s
  else
    let isOpen := decide (15000 < kfb)
    let closed := decide (kfb < 5000)
    let fits := if x.close then closed else isOpen
    let drvOk := if x.close then decide (drv < 5000) else decide (15000 < drv)
    let inTime := decide (s.lt < x.cmdAt + 150000000)
    let settles := !x.settled && fits && inTime
    let y := { x with
      kfbClosed := closed, openSince := runOf x.openSince isOpen s.lt, drvBad := if drvOk then 0 else x.drvBad + 1,
      settled := x.settled || settles, bad := if x.settled && !fits then x.bad + 1 else 0 }
    let s := s.setKdrv k y
    if settles ∧ s.rd 0x4021 (k + 1) dev ≠ 4 then s.wr 0x4021 (k + 1) dev (if x.close then 2 else 0) else s

/-- KDRV2 and KDRV3 close on their requests (R358). -/
def State.contactorRequests (s : State) : State :=
  each [2, 3] (fun s k => if s.rd 0x4023 (k - 1) dev = 1 then s.closeKdrv k else s) s

/-- SUPERVISOR_CYCLE (R336): the samples of all inputs, readbacks and feedback; grants; the wait for ADIS. -/
def execSupervisorCycle (x : SupSample) (s : State) : Res := .next <|
  if !s.vsys ∨ !s.sup.cycleAt.all (fun t => decide (t + 100000 ≤ s.lt)) then s
  else if !s.supRuns then
    -- the safe state's hardware reads the contactors for ADIS (R347, R362, R413)
    let s := s.setSup { s.sup with cycleAt := some s.lt }
    let s := each [0, 1] (fun s k => s.sampleContactor k (x.kfb.getD k 0) (x.kdrv.getD k 0)) s
    if s.sup.fire then s.adisDue else s
  else
    let s := s.setSup { s.sup with cycles := s.sup.cycles + 1, cycleAt := some s.lt }
    let s := (s.sampleInputs x.sin).watchPairs
    let s := each [0, 1, 2, 3] (fun s n => s.sampleOutput n (x.sout.getD n 0)) s
    let s := each [0, 1, 2, 3] (fun s k => s.sampleContactor k (x.kfb.getD k 0) (x.kdrv.getD k 0)) s
    let s := if s.sup.fire then s.adisDue else s
    s.grantOutputs.contactorRequests

/-! ## Delays -/

/-- SAFETY_STOP_DELAY (R343): 1,000 µs after the stop request. -/
def execSafetyStopDelay (s : State) : Res := .next <|
  if due s.sup.stopDelayAt s.lt then
    let corr := s.corrId 0
    (((s.openCorr 0).raiseAll 0x03 127 corr)).setSup { s.sup with stopDelayAt := none }
  else s

/-- CONTACTOR_OPEN_DELAY (R343, R344). -/
def execContactorOpenDelay (s : State) : Res := .next <|
  if due s.sup.openDelayAt s.lt then s.openAll.afeLow.setSup { s.openAll.afeLow.sup with openDelayAt := none } else s

/-- ADIS_DELAY (R347, R360, R413): no ADIS while KFB0 or KFB1 shows closed. -/
def execAdisDelay (s : State) : Res := .next <|
  if due s.sup.adisAt s.lt ∧ !s.kfbClosed 0 ∧ !s.kfbClosed 1 then
    s.adisOn.setSup { s.adisOn.sup with adisAt := none, fire := false }
  else s

/-! ## STO and SS1 (R333, R334, R357) -/

/-- STO: the output that feeds the supply is off. -/
def execSto (out : Nat) (s : State) : Res := .next (if out < 4 ∧ !(s.sout out).on then s.stoOut out else s)

/-- STO_RELEASE: the output is on again. -/
def execStoRelease (out : Nat) (s : State) : Res := .next (if out < 4 ∧ (s.sout out).on then s.freeOut out else s)

/-- SS1: signalled to what the output feeds. -/
def execSs1 (out : Nat) (s : State) : Res := .next (if out < 4 ∧ (s.sout out).ss1At.isSome then s.ss1Out out else s)

/-- SS1_TIME: every fed drive is slow and every fed axis stands, or the time has elapsed. -/
def execSs1Time (out : Nat) (s : State) : Res := .next <|
  match (s.sout out).ss1At with
  | some t => if out < 4 ∧ (s.allSlow out ∨ t ≤ s.lt) then s.functionOff out else s
  | none => s

/-! ## Reset (R353 to R355, R399) -/

/-- An output's fault clears at a reset after its passing off-pulse. -/
def State.clearOutputs (s : State) : State :=
  let s := each [0, 1, 2, 3] (fun s n =>
    let x := s.sout n
    if x.fault ≠ 0 ∧ x.passed then (s.setSout n { x with fault := 0, passed := false, bad := 0 }).wr 0x4010 (n + 1) dev 0 else s) s
  if [0, 1, 2, 3].any (fun n => (s.sout n).fault == 2) then s else s.clearHold 4

/-- Inputs that have recovered lose their fault mark. -/
def State.clearInputs (s : State) : State :=
  let s := each (List.range 8) (fun s k =>
    let x := s.sin k
    if x.faulted ∧ x.recovered then (s.setSin k { x with faulted := false }).wr 0x4005 (k + 1) dev x.level else s) s
  if (List.range 8).any (fun k => (s.sin k).faulted) then s else s.clearHold 5

/-- Every used KFB has shown open for 150 ms (R360). -/
def State.allOpen (s : State) : Bool :=
  (List.range 4).all fun k => !s.kdrvUsed k || heldFor (s.kdrv k).openSince 150000000 s.lt

/-- Contactor faults clear at a reset, welded contacts only while every used KFB shows open. -/
def State.clearContactors (s : State) : State :=
  let weld := s.allOpen
  let s := each (List.range 4) (fun s k =>
    let x := s.kdrv k
    let s := if s.rd 0x4021 (k + 1) dev = 4 then s.wr 0x4021 (k + 1) dev 0 else s
    if x.welded ∧ weld then (s.setKdrv k { x with welded := false, bad := 0 }).wr 0x4021 (k + 1) dev 0 else s) s
  (if weld then s.clearHold 2 else s).clearHold 3

/-! ## What stands in the way of a clear (R508, R516) -/

/-- VIOn of a site is present and not undervoltage (R528). -/
def State.vioOk (s : State) (n : Nat) : Bool := (look {} s.banks (n + 1)).cls != 0 && !bit (s.rdN 0x1220 4 dev) (n + 1)

/-- The cause of a frame-asserted source persists at the hub (R508). -/
def State.frameCause (s : State) (src : Nat) : Bool :=
  match src with
  | 4 =>
    let lim := (s.rd 0x3060 4 dev - s.rd 0x3060 6 dev) * 1000
    decide (lim ≤ s.rd 0x3060 8 dev) || decide (lim ≤ s.rd 0x3060 9 dev)
  | 5 => s.power.dcovA || s.power.dcovB
  | 6 => s.linkState == 6 || s.linkState == 7
  | 7 => s.rd 0x4000 1 dev == 2 || s.inputDemands 1 || s.inputDemands 3 || s.sup.thermalFire || s.sup.appFire
  | _ => false

/-- A source is asserted on a die. -/
def State.asserted (s : State) (n src : Nat) : Bool := bit (s.rdN 0x2803 9 (siteI n)) src

/-- A fault source still stands in the way of a clear. -/
def State.sourcePersists (s : State) (n src : Nat) : Bool := if src < 4 then s.asserted n src else s.frameCause src

/-- A group-fault cause persists: by its source for a first cause; for a later one, whose source no object keeps, by any
source asserted. -/
def State.groupPersists (s : State) (n : Nat) (arg : Option Nat) : Bool :=
  match arg with
  | some k => s.sourcePersists n k
  | none => (List.range 8).any fun k => s.asserted n k && s.sourcePersists n k

/-- A DAB stage's cause persists (R516 with the stage's argument); its samples come from unit 0 or 8. The segment latch, cause
4, goes with the die clear. -/
def State.dabPersists (s : State) (n i : Nat) : Bool :=
  let x := (s.die n).dab i
  let own (cause : Nat) (arg : Option Nat) : Bool :=
    match cause with
    | 5 => s.groupPersists n arg
    | 8 | 13 => bit (s.rdN 0x2853 4 (siteI n)) (8 * i)
    | 17 => (s.die n).loop.state != 2
    | 18 => true
    | 20 => !s.vioOk n
    | _ => false
  x.latched && (x.causeAt == some s.clock.cnt || own (s.rdN 0x6012 (2 + i) (siteI n)) (some x.arg) ||
    (List.range 32).any fun k => bit x.later k && own k none)

/-! ## Power start and stop (R285, R287, R363) -/

/-- Show the segment marks of a site in bit [1] of 0x3104 (R288). -/
def State.showMarks (s : State) (n : Nat) : State :=
  let d := s.die n
  let w := s.rdN 0x3104 0 (siteI n)
  s.wr 0x3104 0 (siteI n) (if d.markBus || d.markClk || d.markRst || d.markLost then setBit w 1 else clearBit w 1)

/-- A clock mark clears when nothing on the site is latched with cause 17 (R288). -/
def State.clockMark (s : State) (n : Nat) : State :=
  let d := s.die n
  let held := (siteChans n).any (fun c => s.latched c && (s.rd 0x6010 2 c == 17 || bit (s.rdN 0x6010 6 c) 17)) ||
    [0, 1].any fun i => (d.dab i).latched && (s.rd 0x6012 (2 + i) (siteI n) == 17 || bit (d.dab i).later 17)
  if d.markClk ∧ !held then (s.setDie n { d with markClk := false }).showMarks n else s

/-- VIO_H0 is undervoltage, or the hub is within 10 K of its limit (R531, R536): a start is refused. -/
def State.supplyBad (s : State) : Bool :=
  bit (s.rdN 0x1220 4 dev) 0 || decide (10 * (s.rd 0x1221 2 dev - 10) < s.rd 0x1221 1 dev)

/-- A start is refused (R285, R353, R531, R536, R557). -/
def powerCheck (v : Int) (s : State) (_ : Nat) : Nat :=
  if v = 1 then
    if (s.linkState ≠ 0 ∧ s.linkState ≠ 8) ∨ clearBit (s.rdN 0x4000 2 dev) 8 ≠ 0 ∨ s.power.dcovA ∨ s.power.dcovB ∨
        s.supplyBad then aNotIdle
    else if (s.die 0).unplanned then aNoPlan
    else aDone
  else idleOr (!s.powerOff)

/-- A power start clears a stage's latch (R285, R516) unless a cause of it persists or the segment latch of the die is held by
one of cause 4; a frame source that caused it deasserts (R508). -/
def State.startClears (s : State) (n i : Nat) : State :=
  let x := (s.die n).dab i
  let seg := s.rd 0x6012 1 (siteI n) == 1 && (s.rd 0x6012 (2 + i) (siteI n) == 4 || bit x.later 4)
  if !x.latched ∨ s.dabPersists n i ∨ seg then s
  else
    let frame := decide (s.rd 0x6012 (2 + i) (siteI n) = 5 ∧ 4 ≤ x.arg)
    let s := s.clearDab n i
    if frame then s.deassertSource n x.arg else s

/-- An accepted start: stop cause and clearable latches cleared, "run release" sent, both path tests begun. -/
def powerStart (s : State) : State :=
  let s := s.leaveStandby
  let corr := s.corrId 0
  let s := (s.openCorr 0).raiseAll 0x0A 127 corr
  let s := ((s.wr 0x3050 3 dev 0).wr 0x3060 0xB dev 0).wr 0x3060 0xC dev 0
  let s := s.wr 0x3040 0x11 dev (clearBit (s.rdN 0x3040 0x11 dev) 0)
  let s := if [2, 3, 5].contains (s.rdN 0x3070 3 dev) then s.wr 0x3070 3 dev 4 else s
  let s := if s.power.adis then s else s.wr 0x3070 8 dev 0
  let s := each s.sites (fun s n => (each [0, 1] (fun s i => s.startClears n i) s).clockMark n) s
  let s := each [0, 1, 2, 3] (fun s k => s.setSlot 0 k { s.slot 0 k with latch := 0 }) s
  let s := s.setPower { s.power with
    afeLatched := false, stopAt := none, segStopped := false, fullRegen := false, ov1Since := none,
    testing := some (0, s.lt + 10000), tripSeen := false, testFailed := false,
    cross := [none, none, none, none, none], lossJobs := 0, onset := none, jobOnset := none, locked := false, lockSince := none }
  let s := (s.setLink 1).wr 0x3040 0xC dev 1
  let s := each (List.range 8) (fun s u =>
    if bit (s.rdN 0x6014 1 dev) (s.rdN 0x3011 (u + 1) dev) then s else s.setUnit 0 u { s.unit 0 u with latched := false }) s
  each s.sites (fun s n => s.sendTest n corr) (s.setHold 8)

/-- The effect of a power command. -/
def powerSet (v : Int) (s : State) (_ : Nat) : State := if v = 1 then powerStart s else s.controlledStop 1

def execPowerStart (src : Src) (s : State) : Res := .next (s.writeObj src 0x3050 1 [dev] 1 (powerCheck 1) (powerSet 1))
def execPowerStop (src : Src) (s : State) : Res := .next (s.writeObj src 0x3050 1 [dev] 2 (powerCheck 2) (powerSet 2))

/-- The auto power start at the first accepted reset after start-up (R399). -/
def State.autoStart (s : State) : State :=
  if s.sup.autoDone then s
  else
    let s := s.setSup { s.sup with autoDone := true }
    if s.rd 0x1204 0 dev = 1 ∧ powerCheck 1 s dev = aDone then powerStart s else s

/-- An accepted reset (R353). -/
def State.acceptReset (s : State) : State :=
  let s := s.setSup { s.sup with thermalFire := false, appFire := false, thermal := [] }
  let s := (s.clearHold 1).showActive
  let s := s.clearContactors.clearOutputs.clearInputs
  let s := if s.sup.door then
      let corr := s.corrId 0
      ((s.openCorr 0).raiseAll 0x09 127 corr).setSup { s.sup with door := false }
    else s
  s.grantOutputs.autoStart

/-- A reset attempt (R354, R559): ignored with an entry while bit [0] is set or the application heartbeat is missing. -/
def State.tryReset (s : State) : State :=
  if bit (s.rdN 0x4000 2 dev) 0 ∨ s.sup.appMissing then s.note 0x4003 (leInt 2 (s.rd 0x4000 2 dev)) else s.acceptReset

/-- SAFETY_RESET (R354): an input with code 4 falls after 0.1 to 2.0 s high. -/
def execSafetyReset (k : Nat) (s : State) : Res := .next <|
  let x := s.sin k
  match x.highSince with
  | some t =>
    if s.supRuns ∧ k < 8 ∧ s.inFn k = 4 ∧ (x.recovered ∨ !x.faulted) ∧ x.level = 0 ∧ t + 100000000 ≤ s.lt ∧ s.lt ≤ t + 2000000000 then
      (s.setSin k { x with highSince := none }).tryReset
    else s
  | none => s

/-- A reset request needs reset mode 1 (R354). -/
def resetCheck (s : State) (_ : Nat) : Nat := if s.rd 0x4006 0 dev = 1 then aDone else aDenied
def resetSet (s : State) (_ : Nat) : State := if s.supRuns then s.tryReset else s

def execResetRequest (src : Src) (v : Nat) (s : State) : Res := .next (s.writeObj src 0x4007 0 [dev] v resetCheck resetSet)

/-! ## Outputs: requests, off-pulses, faults (R356) -/

/-- A request for an output: off acts at once, on under the grant rule. -/
def outputSet (n : Nat) (v : Int) (s : State) (_ : Nat) : State :=
  let s := s.wr 0x4014 (n + 1) dev v
  if v = 0 then (if (s.sout n).on then s.switchOff n else s) else if (s.sout n).on then s else s.grantOutputs

def execSafeOutputRequest (src : Src) (n v : Nat) (s : State) : Res :=
  .next (s.writeObj src 0x4014 (n + 1) [dev] v (fun _ _ => aDone) (outputSet n v))

/-- The number of an output's pulse slot at this LT (R356): every 100 ms from the supervisor's start, n × 25 ms into the period. -/
def State.pulseSlot (s : State) (n : Nat) : Option Nat :=
  if s.sup.startAt + n * 25000000 ≤ s.lt then some ((s.lt - s.sup.startAt - n * 25000000) / 100000000) else none

/-- OFF_PULSE (R356): an output's pulse slot begins, once a period; one that is on starts its off-pulse, a faulted one sends none. -/
def execOffPulse (n : Nat) (s : State) : Res := .next <|
  let x := s.sout n
  let k := s.pulseSlot n
  if s.supRuns ∧ n < 4 ∧ k.isSome ∧ k ≠ x.slotNo ∧ x.slotAt.isNone then
    s.setSout n { x with slotNo := k, slotAt := some s.lt, pulse := x.on && x.fault == 0, backAt := none }
  else s

/-- OFF_PULSE_END (R356): the readback at the end of the pulse; a faulted output only passes its slot. An output that is still
on returns and must read high within 300 µs. -/
def execOffPulseEnd (n : Nat) (rb : Int) (s : State) : Res := .next <|
  let x := s.sout n
  if s.supRuns ∧ n < 4 ∧ x.slotAt.any (fun t => decide (t + s.rdN 0x4013 0 dev * 1000 ≤ s.lt)) then
    let y := { x with slotAt := none, pulse := false }
    if x.fault ≠ 0 then s.setSout n { y with passed := x.passed || decide (rb < 5000) }
    else if !x.pulse then s.setSout n y
    else if 5000 ≤ rb then (s.setSout n y).stuckOn n
    else s.setSout n { y with backAt := if x.on then some s.lt else none }
  else s

/-- OUTPUT_FAULT: the readback is wrong on 3 consecutive samples. -/
def execOutputFault (n : Nat) (s : State) : Res := .next <|
  let x := s.sout n
  if s.supRuns ∧ n < 4 ∧ 3 ≤ x.bad ∧ x.fault = 0 then (if x.on then s.overload n else s.stuckOn n) else s

/-! ## Contactors: requests and faults (R358 to R361) -/

def contactorSet (k : Nat) (v : Int) (s : State) (_ : Nat) : State :=
  let s := s.wr 0x4023 (k - 1) dev v
  if v = 1 then (if s.supRuns then s.closeKdrv k else s) else s.openKdrv k

def execContactorRequest (src : Src) (k v : Nat) (s : State) : Res :=
  .next (s.writeObj src 0x4023 (k - 1) [dev] v (fun _ _ => aDone) (contactorSet k v))

/-- A contactor fault (R359): the drive opens and hold reason [3] is set. -/
def State.contactorFault (s : State) (k code : Nat) : State :=
  let s := (s.openKdrv k).setHold 3
  let x := s.kdrv k
  ((s.setKdrv k { x with bad := 0, drvBad := 0 }).wr 0x4021 (k + 1) dev 4).supFault code

/-- A welded contact (R360). -/
def State.weld (s : State) (k : Nat) : State :=
  let x := s.kdrv k
  (((s.setKdrv k { x with welded := true, settled := true, bad := 0 }).wr 0x4021 (k + 1) dev 5).setHold 2).supFault 0x43

/-- CONTACTOR_TIMEOUT (R359 to R361): 150 ms after the command. -/
def execContactorTimeout (k : Nat) (s : State) : Res := .next <|
  let x := s.kdrv k
  if k < 4 ∧ s.supRuns ∧ s.kdrvUsed k ∧ !x.settled ∧ x.cmdAt + 150000000 ≤ s.lt then
    if x.close then s.contactorFault k 0x41 else s.weld k
  else s

/-- CONTACTOR_FAULT (R359): the feedback or the drive level mismatches on 3 consecutive samples. -/
def execContactorFault (k : Nat) (s : State) : Res := .next <|
  let x := s.kdrv k
  if k < 4 ∧ s.supRuns ∧ s.kdrvUsed k then
    if 3 ≤ x.bad ∧ (x.close ∨ !x.kfbClosed) then s.contactorFault k 0x41
    else if 3 ≤ x.drvBad then s.contactorFault k 0x42
    else s
  else s

/-- WELDED_CONTACT (R360): the feedback shows closed while open is commanded. -/
def execWeldedContact (k : Nat) (s : State) : Res := .next <|
  let x := s.kdrv k
  if k < 4 ∧ s.supRuns ∧ s.kdrvUsed k ∧ !x.close ∧ x.kfbClosed ∧ 3 ≤ x.bad ∧ !x.welded then s.weld k else s

/-! ## The safe state (R362, R365) -/

/-- The safe state: everything off in hardware, "safety stop" to every die, ADIS under R347. -/
def State.safeState (s : State) (code : Nat) : State :=
  if s.rd 0x4000 1 dev = 2 then s
  else
    let s := ((s.wr 0x4000 1 dev 2).setHold 6).supFault code
    let corr := s.corrId 0
    let s := (s.openCorr 0).raiseAll 0x03 127 corr
    let s := each [0, 1, 2, 3] (fun s n => s.switchOff n) s
    let s := each [0, 1, 2, 3] (fun s k => s.openKdrv k) s
    let s := s.afeLow.chopOff
    let s := each [0, 1, 2, 3] (fun s a => (s.stoDrive a).stoAxis a) s
    (s.setSup { s.sup with fire := true, adisAt := none }).adisDue

def execLockstepFault (s : State) : Res := .next (s.safeState 0x11)

/-- SUPERVISOR_CLOCK_FAULT: more than ±5 %, in 0.01 %. -/
def execSupervisorClockFault (dv : Int) (s : State) : Res := .next (if 500 < dv.natAbs then s.safeState 0x12 else s)

def execSupervisorWatchdog (s : State) : Res := .next (s.safeState 0x13)
def execMemoryFault (s : State) : Res := .next (s.safeState 0x14)
def execHSafeSupplyFault (s : State) : Res := .next (s.safeState 0x15)

/-- A fire demand that no input holds (R350, R559): it acts in full. -/
def State.fireAlone (s : State) : State :=
  let corr := s.corrId 0
  (((s.openCorr 0).setHold 1).showActive.activeNote corr).fireDemand corr

/-- APPLICATION_HEARTBEAT_TIMEOUT (R365, R559). -/
def execApplicationHeartbeatTimeout (s : State) : Res := .next <|
  if s.supRuns ∧ !s.sup.appMissing then (s.setSup { s.sup with appMissing := true, appFire := true }).supFault 0x16 |>.fireAlone
  else s

/-- OVER_TEMPERATURE (R350): a frame counts; the count within the window demands the fire function. -/
def execOverTemperature (n : Nat) (a b : Frame64) (s : State) : Res := .next <| s.hubFrame n 0x21 a b fun _ _ s =>
  let span := s.rdN 0x4035 2 dev * 1000000000
  let l := (s.lt :: s.sup.thermal).filter fun t => decide (s.lt ≤ t + span)
  let s := s.setSup { s.sup with thermal := l }
  let n := s.rdN 0x4035 1 dev
  if n ≠ 0 ∧ n ≤ l.length ∧ !s.sup.thermalFire ∧ s.supRuns then
    (s.setSup { s.sup with thermalFire := true }).fireAlone
  else s

/-! ## Start (R353, R395) -/

/-- The configuration rules of R341 on function codes and test sources. -/
def inputsOk (fn src : Nat → Nat) : Bool :=
  [1, 2, 3].all fun code =>
    match (List.range 8).filter (fun k => fn k == code) with
    | [] => true
    | [_] => true
    | [a, b] => src a != src b
    | _ => false

/-! ## Door and temperature checks of the channel dies (R346, R348, R349, R351) -/

/-- DOOR_LIMIT_LATCH (R346): the magnitude beyond the limit for the monitor time, cause 16. -/
def execDoorLimitLatch (c : Nat) (s : State) : Res := .next <|
  if s.chanPop c ∧ heldFor (s.chan c).sup.door (s.rdN 0x4031 0 dev * 1000000) s.lt ∧ !s.latched c then s.latchNew c 16 0 else s

/-- A channel takes part in R348 and R349: its own supervision, and it is no slave (R351). -/
def State.tempWatched (s : State) (c : Nat) : Bool := s.rd 0x4036 0 c == 1 && !s.slave c

/-- A bit of 0x4033. -/
def State.tempBit (s : State) (c b : Nat) (on : Bool) : State :=
  s.wr 0x4033 0 c (if on then setBit (s.rdN 0x4033 0 c) b else clearBit (s.rdN 0x4033 0 c) b)

/-- One comparison of R348 for a channel: the second in a row beyond the limit latches it and its gang, and sends
frame 0x21. -/
def State.checkTemp (s : State) (c : Nat) : State :=
  if !s.tempWatched c then
    let ch := s.chan c
    let s := s.setChan c { ch with sup := { ch.sup with overTemp := 0 } }
    if s.rd 0x4036 0 c = 1 then s else s.wr 0x4033 0 c 0
  else
    let ch := s.chan c
    let beyond := decide (s.rd 0x4032 0 c < ch.temp)
    let n := if beyond then min 3 (ch.sup.overTemp + 1) else 0
    let s := (s.setChan c { ch with sup := { ch.sup with overTemp := n } }).tempBit c 0 beyond
    if n = 2 then
      let corr := s.corrId (dieOf c)
      let s := (s.openCorr (dieOf c)).latchChans [c] 14 0 corr
      s.raiseFrame (dieOf c) .toHub 0x21 (localOf c) corr
    else s

/-- The latest conversion of a channel's temperature (R160, R250): none from a unit that a check or a diagnosis has taken. -/
def State.takeTemp (s : State) (c code : Nat) : State :=
  if s.unitTaken (dieOf c) (localOf c / 4) then s else s.setChan c { s.chan c with temp := s.pathValue c 2 code }

/-- OVER_TEMPERATURE_CHECK (R348): the latest conversion of each channel, once in every 1 ms of LT. -/
def execOverTemperatureCheck (n : Nat) (codes : List Nat) (s : State) : Res := .next <|
  let d := s.die n
  if s.sitePop n ∧ d.overAt ≠ some (s.lt / 1000000) then
    let s := s.setDie n { d with overAt := some (s.lt / 1000000) }
    let s := each ((siteChans n).zip codes) (fun s (c, k) => s.takeTemp c k) s
    each (siteChans n) (fun s c => s.checkTemp c) s
  else s

/-- One comparison of R349 for a channel. -/
def State.compareTemp (s : State) (c : Nat) : State :=
  let ch := s.chan c
  let t := ch.temp
  if !s.tempWatched c then s.setChan c { ch with sup := { ch.sup with tempDiff := none, tempMiss := none } }
  else
    match ch.mTemp with
    | some m =>
      let d := t - m
      let s := (s.setChan c { ch with
        mTemp := none,
        sup := { ch.sup with tempMiss := none, tempDiff := runTo ch.sup.tempDiff 1000000000 (decide (3000 < d.natAbs)) s.lt } }).wr 0x4034 0 c d
      s.tempBit c 2 false
    | none =>
      let t0 := ch.sup.tempMiss.getD s.lt
      let s := s.setChan c { ch with sup := { ch.sup with tempMiss := some t0 } }
      if t0 + 1000000000 ≤ s.lt ∧ !bit (s.rdN 0x4033 0 c) 2 then
        let ch := s.chan c
        ((s.setChan c { ch with sup := { ch.sup with tempDiff := none } }).tempBit c 2 true).noteAt (dieOf c) c 0x200D []
      else s

/-- TEMPERATURE_PLAUSIBILITY_CHECK (R349): the control temperature of each channel, once in every 100 ms of LT. -/
def execTemperaturePlausibilityCheck (n : Nat) (s : State) : Res := .next <|
  let d := s.die n
  if s.sitePop n ∧ d.plausAt ≠ some (s.lt / 100000000) then
    each (siteChans n) (fun s c => s.compareTemp c) (s.setDie n { d with plausAt := some (s.lt / 100000000) })
  else s

/-- TEMPERATURE_PLAUSIBILITY_FAULT (R349): beyond 3,000 m°C for 1 s. -/
def execTemperaturePlausibilityFault (c : Nat) (s : State) : Res := .next <|
  if s.chanPop c ∧ s.tempWatched c ∧ heldFor (s.chan c).sup.tempDiff 1000000000 s.lt ∧ !s.latched c then (s.tempBit c 1 true).latchNew c 15 0 else s

end Sys2Proof.Machine
end

