-- ==== Sys2Proof/Machine/Clocks.lean ====
section
/-! DEFINITION. Clocks, line time and carrier epochs (chapter 12): the reference detectors, the frequency loops, the
servo of line time, the epoch, and what one 320 MHz count does. -/

namespace Sys2Proof.Machine

def State.setClock (s : State) (x : Clock) : State := { s with clock := x }

/-! ## Always-on sources (R371, R372) -/

/-- The source of a die's always-on domains, 0x1102.02: 0 REFCLK, 1 XTAL32, 2 the internal RC. -/
def State.aonSource (s : State) (die : Nat) : Nat :=
  if (s.die die).refPresent then 0 else if s.clock.xtal then 1 else 2

/-- Entry 0x0010 of a source change. -/
def State.sourceNote (s : State) (die : Nat) : State := s.noteAt die noChan 0x0010 (leNat 1 (s.aonSource die))

/-! ## Frequency loops (R374 to R377) -/

/-- Loop numbers of LOCK_WINDOW: 0 hub core, 1 hub pulse, 2 to 7 the sites 1 to 6. -/
def loopDie (l : Nat) : Nat := l - 1
def State.loop (s : State) (l : Nat) : Loop := if l = 0 then s.clock.core else (s.die (loopDie l)).loop
def State.setLoop (s : State) (l : Nat) (x : Loop) : State :=
  if l = 0 then s.setClock { s.clock with core := x } else s.setDie (loopDie l) { s.die (loopDie l) with loop := x }

/-- The loop exists in this part. -/
def State.loopPop (s : State) (l : Nat) : Bool := decide (l ≤ 1) || s.sitePop (loopDie l)

/-- The expected feedback count of a window (R374). -/
def expectedCount (l : Nat) : Nat := if l = 0 then 98304 else 262144

/-- A loop's state goes to the trail (0x0011). -/
def State.loopNote (s : State) (l : Nat) : State :=
  s.noteAt (loopDie l) noChan 0x0011 (leNat 1 (loopDie l) ++ leNat 1 (s.loop l).state)

/-- A locked loop loses lock (R376): it coasts, the loss is counted, beacons are withheld (R391). One that is about to
lock again coasts on. -/
def State.loseLock (s : State) (l : Nat) : State :=
  let x := s.loop l
  if x.state = 2 then
    let s := s.setLoop l { x with state := 3, good := 0, off := 0, coastAt := some s.lt }
    let s := s.inc 0x1106 0 (dieI (loopDie l))
    (s.setClock { s.clock with withheld := true }).loopNote l
  else s.setLoop l { x with good := 0, off := 0, state := if x.state = 1 ∧ x.coastAt.isSome then 3 else x.state }

/-- A loop declares lock (R375): after start-up or wake its die's time base loads from LT (R383). -/
def State.declareLock (s : State) (l : Nat) : State :=
  let x := s.loop l
  let s := s.setLoop l { state := 2, good := 0, off := 0, coastAt := none }
  if x.coastAt.isSome ∨ x.state = 4 then s.loopNote l
  else if l = 0 then s
  else s.setDie (loopDie l) { s.die (loopDie l) with tbErr := (fineOf s.lt : Int) - s.clock.tb }

/-- Latch every hub pulse output, drives and axes with a cause (R377, R531). The discharge is set low and not latched: the
stop that this starts engages it (log 18). -/
def State.latchHubOutputs (s : State) (cause : Nat) : State :=
  let s := (s.latchAfe.chopOff).cutUnits (List.range 36)
  let s := (s.setUnit 0 6 { s.unit 0 6 with latched := true }).dropJobs 0 3
  each [0, 1, 2, 3] (fun s a => (s.latchDrive a cause).latchAxis a cause) s

/-- The coast limit (R377): a channel die latches everything with the cause "clock"; a hub loop stops the hub. The manual
gives drives and axes no cause code for it: a free value (log 9). -/
def State.coastOut (s : State) (l : Nat) : State :=
  let s := s.setLoop l { s.loop l with state := 4, good := 0 }
  let n := loopDie l
  let corr := s.corrId n
  let s := s.openCorr n
  if 2 ≤ l then
    let s := each (siteChans n) (fun s c => s.latchOne c 17 0 corr) s
    let s := each [0, 1] (fun s i => s.latchDab n i 17 0 corr) s
    s.raiseFrame n .toHub 0x22 127 corr
  else ((s.draw.latchHubOutputs (Config.freeInt s.free % 256).toNat).raiseAll 0x04 127 corr).stopWith 16 corr

/-- The coast has lasted 10 ms without a lock. -/
def State.coastDue (s : State) (l : Nat) : Bool := (s.loop l).state != 4 && heldFor (s.loop l).coastAt 10000000 s.lt

/-- LOCK_WINDOW (R375 to R377): a window's feedback count; the coast limit wins over a lock in the same window. -/
def execLockWindow (l count : Nat) (s : State) : Res := .next <|
  let x := s.loop l
  let d := ((count : Int) - expectedCount l).natAbs
  if !s.loopPop l ∨ x.state = 0 ∨ !(s.die (loopDie l)).refPresent then s
  else if x.state = 2 then
    if 16 < d ∨ (2 < d ∧ 1 ≤ x.off) then s.loseLock l
    else s.setLoop l { x with off := if 2 < d then x.off + 1 else 0 }
  else if s.coastDue l then s.coastOut l
  else if 2 < d then s.setLoop l { x with good := 0, state := if x.coastAt.isSome ∧ x.state = 1 then 3 else x.state }
  else if 3 ≤ x.good then s.declareLock l
  else s.setLoop l { x with good := x.good + 1, state := if x.state = 3 then 1 else x.state }

/-- COAST_LIMIT (R377). -/
def execCoastLimit (l : Nat) (s : State) : Res := .next (if s.loopPop l ∧ s.coastDue l then s.coastOut l else s)

/-- REFCLK_ABSENT (R372, R376): no edge for 200 ns at a die's detector; its loops coast. -/
def execRefclkAbsent (die : Nat) (s : State) : Res := .next <|
  if s.diePop die ∧ (s.die die).refPresent then
    let s := s.setDie die { s.die die with refPresent := false }
    let s := s.setClock { s.clock with withheld := true, phase := if die = 0 then 0 else s.clock.phase }
    let s := (s.sourceNote die).loseLock (die + 1)
    if die = 0 then s.loseLock 0 else s
  else s

/-- REFCLK_PRESENT (R372): 1,000 consecutive edges. -/
def execRefclkPresent (die : Nat) (s : State) : Res := .next <|
  if s.diePop die ∧ !(s.die die).refPresent then
    let s := s.setDie die { s.die die with refPresent := true }
    (s.setClock { s.clock with
      phase := if die = 0 then 0 else s.clock.phase, refAt := if die = 0 then s.lt else s.clock.refAt }).sourceNote die
  else s

/-- XTAL32_FAILED and XTAL32_RETURN (R372). -/
def execXtal32Failed (s : State) : Res :=
  .next (if s.clock.xtal then (s.setClock { s.clock with xtal := false }).sourceNote 0 else s)

def execXtal32Return (s : State) : Res :=
  .next (if s.clock.xtal then s else (s.setClock { s.clock with xtal := true }).sourceNote 0)

/-! ## Line time (R379 to R382) -/

/-- ± 200 ppm, in 0.01 ppb. -/
def trimLimit : Int := 20000000

/-- The rate trim of a Sync (R381): the rate ratio less 1, and a correction against the offset whose gain the manual
leaves open (log 10), limited to the slew limit. -/
def State.trimFor (s : State) (offset ratio : Int) : Int :=
  let slew := s.rd 0x1110 7 dev
  clampI (-trimLimit) trimLimit (ratio + clampI (-slew) slew (roundQ (-(Config.gain 10 * offset))))

/-- Slave sync states. -/
def State.isSlave (s : State) : Bool := [1, 2, 3].contains (s.rdN 0x1111 1 dev)

/-- The lock and leave counts of a Sync (R381). -/
def State.syncCounts (s : State) (offset : Int) : State :=
  let thr := s.rdN 0x1110 8 dev
  let near := decide (offset.natAbs ≤ thr)
  let far := decide (4 * thr < offset.natAbs)
  let st := s.rdN 0x1111 1 dev
  let st := if st = 3 then 1 else st
  let n := if near then s.clock.lockCount + 1 else 0
  let m := if far then s.clock.outCount + 1 else 0
  let st' := if st = 2 then (if 4 ≤ m then 1 else 2) else if 16 ≤ n then 2 else 1
  let s := s.setClock { s.clock with lockCount := if st' = st then n else 0, outCount := if st' = st then m else 0 }
  s.wr 0x1111 1 dev st'

/-- No pulse output switches and no run is active: LT may step (R382). -/
def State.mayStep (s : State) : Bool := !s.anySwitching && !s.channels.any s.active

/-- SYNC (R381, R382) on the slave port: the grandmaster's time in ns at its receipt, and the rate ratio less 1. -/
def execSync (gm ratio : Int) (port : Nat) (s : State) : Res := .next <|
  if s.isSlave ∧ s.rd 0x1111 5 dev = port ∧ s.rd 0x1200 1 dev ≠ 4 then
    let offset := (s.lt : Int) - gm
    let s := (s.wr 0x1111 2 dev offset).syncCounts offset
    let big := s.rd 0x1110 6 dev < offset.natAbs
    let s := s.setClock { s.clock with
      nextRho := s.trimFor offset ratio, lastSync := s.lt, step := if big then some offset else none }
    s
  else s

/-- The sync interval in ns: 2 to the power of 0x1110.04 seconds. -/
def State.syncNs (s : State) : Nat := 1000000000 / 2 ^ (-(s.rd 0x1110 4 dev)).toNat

/-- SYNC_TIMEOUT (R381): no Sync within 3 intervals while slave; ρ is held. A Sync at their end is taken first (R178). -/
def execSyncTimeout (s : State) : Res := .next <|
  if (s.rd 0x1111 1 dev = 1 ∨ s.rd 0x1111 1 dev = 2) ∧ s.clock.lastSync + 3 * s.syncNs < s.lt then
    (s.setClock { s.clock with nextRho := s.clock.rho, lockCount := 0, outCount := 0, step := none }).wr 0x1111 1 dev 3
  else s

/-- BEST_MASTER_CLOCK (R380, R381): the QF becomes grandmaster, or takes a grandmaster on a port. -/
def execBestMasterClock (gm : Option (List Byte × Nat)) (s : State) : Res := .next <|
  match gm with
  | none =>
    let s := (s.wrB 0x1111 4 dev (padTo 8 (s.partOctets 3))).wr 0x1111 5 dev 0xFF
    (s.setClock { s.clock with nextRho := s.clock.rho, lockCount := 0, outCount := 0, step := none }).wr 0x1111 1 dev 4
  | some (identity, port) =>
    if port < 2 ∧ bit (s.rdN 0x1110 5 dev) port then
      let s := if s.isSlave ∧ s.rdB 0x1111 4 dev = identity then s
        else (s.setClock { s.clock with lockCount := 0, outCount := 0, lastSync := s.lt, step := none }).wr 0x1111 1 dev 1
      (s.wrB 0x1111 4 dev identity).wr 0x1111 5 dev port
    else s

/-! ## Carrier epochs (R384 to R391) -/

/-- The latest multiple of the epoch period in LT, when it lies after the last epoch. -/
def State.epochDue (s : State) : Option Nat :=
  let t := max s.epochNs 1
  let e := s.lt / t * t
  if s.clock.lastEpoch < e then some e else none

/-- A step that its epoch does not allow is deferred (R382): LT is only slewed, and entry 0x0013 gives the offset of the
Sync (log 52). -/
def State.deferStep (s : State) : State :=
  match s.clock.step with
  | some off => if s.mayStep then s else (s.setClock { s.clock with step := none }).note 0x0013 (leInt 8 off)
  | none => s

/-- An epoch that allows it steps LT by the offset (R382); every die time base is reloaded. -/
def State.stepTime (s : State) : State :=
  match s.clock.step with
  | some off =>
    if s.mayStep then
      let lt := ((s.lt : Int) - off).toNat
      let s := (s.setClock { s.clock with lt := lt, frac := 0, step := none, lastEpoch := lt }).loadTimeBases
      ((s.inc 0x1111 6 dev).wr 0x1111 7 dev off).note 0x0013 (leInt 8 off)
    else s
  | none => s

/-- A unit's grid shift takes a correction (R386), and its edges keep their instants; a unit that does not run has no
shift. -/
def GenUnit.correct (x : GenUnit) (e : Int) : GenUnit :=
  { (x.move (-e)) with shift := if x.running then x.shift - e else 0 }

/-- A slice's copy of the time counter steps by −e; every edge keeps its physical instant (R386). -/
def Slice.correct (x : Slice) (e : Int) : Slice :=
  { x.move (-e) with
    blankEnd := if x.blankEnd = 0 then 0 else ((x.blankEnd : Int) - e).toNat, lowSince := x.lowSince.map fun a => ((a : Int) - e).toNat }

/-- The phase error measured on a die (R384, R386): a locked die beyond 2 fine steps steps its time base; one that
coasts makes no correction. -/
def State.correctDie (s : State) (die : Nat) (e : Int) : State :=
  let d := s.die die
  if d.loop.state = 2 ∧ 2 < e.natAbs then
    let s := (((s.setDie die { d with tbErr := 0 }).wr 0x1105 0 (dieI die) e).mapSlices die fun x => x.correct e).retimeLanes die (-e)
    each (List.range (if die = 0 then 36 else 66)) (fun s u => s.setUnit die u ((s.unit die u).correct e)) s
  else s.setDie die { d with tbErr := e }

/-- A loop that has lost lock has not declared it again. -/
def Loop.lost (x : Loop) : Bool := x.coastAt.isSome || x.state == 4

/-- No loop is lost, and REFCLK is present on every die. -/
def State.clocksGood (s : State) : Bool :=
  !s.clock.core.lost && (0 :: s.sites).all fun d => (s.die d).refPresent && !(s.die d).loop.lost

/-- The control means of the epoch period that ends (R164, R166): the last 16 epochs are kept. -/
def State.closeMeans (s : State) (c epochLt : Nat) : State :=
  let ch := s.chan c
  let live := s.switching c || s.resting c
  let m := if ch.sumN = 0 then [] else [(epochLt, divRound ch.sumV ch.sumN, divRound ch.sumI ch.sumN)]
  if live || ch.sumN != 0 then
    s.setChan c { ch with
      sumV := 0, sumI := 0, sumP := 0, sumN := 0, means := if live then (m ++ ch.means).take 16 else [],
      sup := { ch.sup with noMirror := runOf ch.sup.noMirror live epochLt } }
  else s

/-- The repeats that a channel die suppressed since the last epoch (R499). -/
def State.flushRepeats (s : State) (n : Nat) : State :=
  let d := s.die n
  let s := s.setDie n { d with sent := [] }
  each (d.sent.filter fun e => decide (16 < e.2)) (fun s (k, m) =>
    (s.openCorr n).sendEntry n (mkEntry s n (k % 65536) 0x6003 (leNat 2 (k / 65536) ++ leNat 2 (m - 16)) (s.corrId n))) s

/-- The waymark of an epoch (R503). -/
def State.waymark (s : State) (number : Nat) : State :=
  let w := s.rdN 0x6000 0xA dev
  if w ≠ 0 ∧ number % w = 0 then
    let frozen := s.frozen
    let s := s.note 0x6001 (leNat 4 number ++ leNat 4 s.trail.sinceMark ++ leInt 4 (s.rd 0x6000 4 dev))
    if frozen then s else { s with trail := { s.trail with sinceMark := 0 } }
  else s

/-- The epoch number of an epoch (R389). -/
def State.epochNumber (s : State) (e : Nat) : Nat := e / max s.epochNs 1 % 2 ^ 32

/-- The estimate of R24 on the other side of a converter; no power gives none (log 46). -/
def carry (k : Nat) (p : Rat) : Rat := if p = 0 then 0 else Config.carried k p

/-- The mean power of a channel at the segment bus over the epoch period that ends, in W: positive drawn (R24). -/
def State.busPower (s : State) (c : Nat) : Rat :=
  let ch := s.chan c
  if ch.sumN = 0 then 0 else carry 0 ((ch.sumP : Rat) / (ch.sumN * 100000000000 : Rat))

/-- What the charging channels of a segment draw from its bus, and what the discharging ones supply (R24); a die that
rests, is stopped or is lost has none. -/
def State.busDraw (s : State) (n : Nat) : Rat :=
  if s.rd 0x1200 1 (siteI n) = 1 then ((siteChans n).map fun c => max (s.busPower c) 0).sum else 0
def State.busSupply (s : State) (n : Nat) : Rat :=
  if s.rd 0x1200 1 (siteI n) = 1 then ((siteChans n).map fun c => max (-s.busPower c) 0).sum else 0

/-- The DC-link side of all DAB pairs, in W: positive into the segments. -/
def State.linkSum (s : State) : Rat := (s.sites.map fun n => carry 1 (s.busDraw n - s.busSupply n)).sum

/-- The energy-flow objects of a site at an epoch (R24): the recycled energy is the integral of the exchange power. -/
def State.siteFlow (s : State) (n : Nat) : State :=
  let x := (roundQ (min (s.busDraw n) (s.busSupply n))).toNat
  let net := roundQ (s.busDraw n - s.busSupply n)
  let d := s.die n
  ((s.setDie n { d with recycled := d.recycled + x * s.rdN 0x1101 1 dev }).wr 0x3180 1 (siteI n) (sat32 net)).wr 0x3180 2 (siteI n) x

/-- The energy-flow objects at an epoch (R24, R512): the sum leaves lost sites out. -/
def State.energyFlow (s : State) : State :=
  let sum := s.linkSum
  let s := each s.sites (fun s n => s.siteFlow n) s
  (s.wr 0x3181 1 dev (sat32 (roundQ sum))).wr 0x3181 2 dev (sat32 (roundQ (carry 2 sum)))

/-- A change of the measuring part. -/
def State.onQm (s : State) (f : Qm → Qm) : State := { s with qm := f s.qm }

/-- The epoch strobe of a die inserts a marker in its site's Hinge-M stream, while the macro has power (R33). -/
def State.strobe (s : State) (n epochLt : Nat) : State :=
  if bit s.qm.modOn n then s.onQm fun q => { q with markers := put q.markers n ((epochLt :: look [] q.markers n).take 16) } else s

/-- What an epoch does (R24, R33, R164, R194, R381, R384 to R391, R499, R503). -/
def State.epoch (s : State) (e : Nat) (errs : List Int) : State :=
  let held := s.clock.withheld
  let s := s.deferStep
  let s := s.setClock { s.clock with
    lastEpoch := e, rho := s.clock.nextRho, beacon := if held || !s.fw then none else some e,
    withheld := held && !s.clocksGood }
  let s := (s.wr 0x1111 3 dev s.clock.rho).wr 0x1101 3 dev (s.epochNumber e)
  let s := each ((0 :: s.sites).zipIdx) (fun s (d, k) => s.correctDie d (errs.getD k 0)) s
  let s := each s.channels (fun s c => s.closeMeans c e) s.energyFlow
  let s := each s.sites (fun s n => (s.strobe n e).flushRepeats n) s
  let s := each (List.range 128) (fun s g => s.groupCheck g) s
  (s.waymark (s.epochNumber e)).stepTime

/-! ## The epoch period (R390) -/

/-- The periods that an epoch count must be a multiple of. -/
def State.gridPeriods (s : State) : List Nat :=
  (0 :: s.sites).flatMap (fun d =>
    ((List.range (if d = 0 then 36 else 66)).flatMap fun u => [(s.unit d u).active.period, (s.unit d u).staged.period]) ++
      (s.usedSlots d).map (s.loopL d)) ++ [s.rdN 0x3040 1 dev]

def epochCheck (n : Int) (s : State) (_ : Nat) : Nat :=
  if !s.gridPeriods.all (fun p => decide (p ∣ 32000 * n.toNat)) then aRange else idleOr (!s.anySwitching)

/-- The new period counts from the LT at which it is written. -/
def epochSet (n : Int) (s : State) (_ : Nat) : State := (s.wr 0x1101 1 dev n).setClock { s.clock with lastEpoch := s.lt }

def execEpochPeriod (src : Src) (n : Nat) (s : State) : Res := .next (s.writeObj src 0x1101 1 [dev] n (epochCheck n) (epochSet n))

/-! ## One count of 3.125 ns (R379, R383; log 3) -/

/-- An amount times 1 + ρ, in units of 2^-32. -/
def trimmed (amount : Nat) (rho : Int) : Nat := ((amount : Int) * (100000000000 + rho) * 4294967296 / 100000000000).toNat

/-- `n` counts: the time base gains `n` counts and their share of ρ; line time advances at every edge of its source,
REFCLK at 25 MHz or else 32,768 Hz. -/
def Clock.pass (x : Clock) (ref : Bool) (n : Nat) : Clock :=
  let t := x.tb * 4294967296 + x.tbFrac + n * trimmed 32 x.rho
  let edge := if ref then 64 else 78125
  let p := x.phase + n * if ref then 5 else 8
  let u := x.lt * 4294967296 + x.frac + p / edge * (trimmed (if ref then 40000000 else 30517578125) x.rho / 1000000)
  { x with
    cnt := x.cnt + n, tb := t / 4294967296, tbFrac := t % 4294967296, phase := p % edge, lt := u / 4294967296,
    frac := u % 4294967296 }

/-- `n` counts pass: while VSYS is valid for the whole clock; MCLK time follows from the count of counts. -/
def State.pass (s : State) (n : Nat) : State :=
  if s.vsys then s.setClock (s.clock.pass (s.die 0).refPresent n)
  else s.setClock { s.clock with cnt := s.clock.cnt + n }

end Sys2Proof.Machine
end

