-- ==== Sys2Proof/Machine/Images.lean ====
section
/-! DEFINITION. Signed images (R469 to R484): headers, the checks of R477, flash slots, and the start of the user
partition. Types 1 HUBFW, 2 QCFW, 3 QMFW, 4 USER. -/

namespace Sys2Proof.Machine

def State.setSec (s : State) (x : Sec) : State := { s with sec := x }

/-- The signature contexts of R470, by their last two octets. -/
def context (a b : Byte) : List Byte := [0x51, 0x46, a, b]

/-- The last two octets of the contexts: image headers, attestation reports, debug tokens, batches and tokens, Keyway. -/
def imageCtx : List Byte := context 0x49 0x4D
def attestCtx : List Byte := context 0x41 0x54
def debugCtx : List Byte := context 0x44 0x42
def metCtx : List Byte := context 0x4D 0x42
def keywayCtx : List Byte := context 0x4B 0x57

/-- The key ID of a public key (R470). -/
def keyId (key : List Byte) : List Byte := (sha3 key).take 16

/-- Octets of a public key and of a signature under an algorithm (R475): 1 ML-DSA-65, 2 ML-DSA-44. -/
def keyLen (alg : Nat) : Nat := if alg = 1 then 1952 else 1312
def sigLen (alg : Nat) : Nat := if alg = 1 then 3309 else 2420

/-- Fields of an image (R475). -/
def imgType (b : List Byte) : Nat := fieldAt b 5 1
def imgAlg (b : List Byte) : Nat := fieldAt b 6 1
def imgRoot (b : List Byte) : Nat := fieldAt b 7 1
def imgLen (b : List Byte) : Nat := fieldAt b 8 4
def imgRollback (b : List Byte) : Nat := fieldAt b 12 1
def imgStep (b : List Byte) : Nat := fieldAt b 14 2
def imgFirst (b : List Byte) : Nat := fieldAt b 40 4
def imgHash (b : List Byte) : List Byte := sliceB b 48 32
def imgKey (b : List Byte) : List Byte := sliceB b 256 (keyLen (imgAlg b))
def imgSig (b : List Byte) : List Byte := sliceB b (256 + keyLen (imgAlg b)) (sigLen (imgAlg b))
def imgPayload (b : List Byte) : List Byte := b.drop (256 + keyLen (imgAlg b) + sigLen (imgAlg b))

/-- The largest payload of a type (R476). -/
def maxPayload (ty : Nat) : Nat :=
  match ty with
  | 1 => 3145728
  | 2 => 262144
  | 3 => 1043059
  | _ => 4194304

/-- All octets of a span are zero. -/
def zeroB (b : List Byte) (off n : Nat) : Bool := (sliceB b off n).all (· == 0)

/-- Check 1 of R477 for a type. -/
def imageHeaderOk (ty : Nat) (b : List Byte) : Bool :=
  sliceB b 0 4 == imageCtx && fieldAt b 4 1 == 1 && imgType b == ty &&
    (if ty = 4 then (imgAlg b == 1 || imgAlg b == 2) && (imgRoot b == 1 || imgRoot b == 2)
     else imgAlg b == 1 && imgRoot b == 0) &&
    decide (1 ≤ imgLen b) && decide (imgLen b ≤ maxPayload ty) && zeroB b 13 1 && zeroB b 44 4 && zeroB b 112 144 &&
    (if ty = 1 then decide (4096 ≤ imgFirst b) && decide (imgFirst b ≤ 262144) else imgFirst b == 0 && zeroB b 80 32) &&
    b.length == 256 + keyLen (imgAlg b) + sigLen (imgAlg b) + imgLen b

/-- The hash of a root, when its slot is programmed and not revoked (R473, R474). -/
def State.rootHash (s : State) (ty root : Nat) : Option (List Byte) :=
  if root = 0 then some (s.partOctets (if ty = 3 then 11 else 10))
  else if s.rdB 0x7020 root dev = [] ∨ s.rd 0x7021 root dev = 1 then none
  else some (s.rdB 0x7020 root dev)

/-- The subindex of a type in 0x7030 to 0x7034: HUBFW, QCFW, USER, QMFW. -/
def typeSub (ty : Nat) : Nat := if ty = 4 then 3 else if ty = 3 then 4 else ty
def subType (k : Nat) : Nat := if k = 3 then 4 else k

/-- The anti-rollback counter of a type (R482). -/
def State.counterOf (s : State) (ty : Nat) : Nat := if ty = 3 then s.qm.rollback else s.rdN 0x7030 (typeSub ty) dev

/-- The step of a die, 0x1021: the current steps of R10, hub B0, channel die A2, metrology die A1. -/
def dieStep (site : Nat) : Nat := if site = 0 then 0x4200 else if site = 7 then 0x4101 else 0x4102

/-- Checks 2 to 4 of R477, in their order: 0 when all pass. -/
def State.signerCheck (s : State) (ty : Nat) (b : List Byte) : Nat :=
  if s.rootHash ty (imgRoot b) ≠ some (sha3 (imgKey b)) then 2
  else if !mldsaVerify (imgKey b) imageCtx (b.take 256 ++ imgKey b) (imgSig b) then 3
  else if imgRollback b < s.counterOf ty ∨ 64 < imgRollback b then 4
  else 0

/-- The first section of a HUBFW image has its hash. -/
def firstSectionOk (b : List Byte) : Bool := sha3 ((imgPayload b).take (imgFirst b)) == sliceB b 80 32

/-- The payload has its hash. -/
def payloadOk (b : List Byte) : Bool := sha3 (imgPayload b) == imgHash b

/-- The checks of R477 in order for a type on dies of these steps: the number of the first that fails, or 0. -/
def State.imageCheck (s : State) (ty : Nat) (steps : List Nat) (b : List Byte) : Nat :=
  if !imageHeaderOk ty b then 1
  else if s.signerCheck ty b ≠ 0 then s.signerCheck ty b
  else if !payloadOk b ∨ (ty = 1 ∧ !firstSectionOk b) then 5
  else if imgStep b ≠ 0 ∧ !steps.all (· == imgStep b) then 6
  else 0

/-- What the hub's boot ROM checks (R478): checks 1 to 4, and check 5 on the first section. -/
def State.bootCheck (s : State) (b : List Byte) : Nat :=
  if !imageHeaderOk 1 b then 1 else if s.signerCheck 1 b ≠ 0 then s.signerCheck 1 b else if !firstSectionOk b then 5 else 0

/-! ## Flash slots (R479, R480) -/

/-- The flash slot of a subindex of 0x7034 (1 HUBFW, 2 QCFW, 3 USER) and a slot 0 A, 1 B. -/
def slotNo (k p : Nat) : Nat := 2 * (k - 1) + p

/-- The octets a flash slot holds: what was loaded into it, or what it held at power-on. -/
def State.slotBytes (s : State) (n : Nat) : List Byte :=
  match lookup? n s.sec.slots with
  | some p => p.buffer.map fun x => x.getD 0xFF
  | none => Config.flashSlot n

/-- The preferred slot of a type, and the octets it holds. -/
def State.preferred (s : State) (k : Nat) : Nat := s.rdN 0x7034 k dev
def State.preferredBytes (s : State) (k : Nat) : List Byte := s.slotBytes (slotNo k (s.preferred k))

/-- The state of a slot: 0 empty, 1 verified, 2 invalid. The boot record keeps it. -/
def State.slotState (s : State) (k p : Nat) : Nat := s.rdN 0x7035 (slotNo k p + 1) dev
def State.setSlotState (s : State) (k p v : Nat) : State :=
  (s.wr 0x7035 (slotNo k p + 1) dev v).setSec { s.sec with bootBlank := false }
def State.prefer (s : State) (k p : Nat) : State := (s.wr 0x7034 k dev p).setSec { s.sec with bootBlank := false }

/-- An image of a type runs from a slot: its rollback value and its payload hash show (0x7032, 0x7033). -/
def State.runs (s : State) (k p : Nat) : State :=
  let b := s.slotBytes (slotNo k p)
  ((s.wr 0x7032 k dev (imgRollback b)).wrB 0x7033 k dev (imgHash b)).setSec { s.sec with runSlot := s.sec.runSlot.set (k - 1) p }

/-- No image of a type runs. -/
def State.runsNone (s : State) (k : Nat) : State := (s.wr 0x7032 k dev 0xFF).wrB 0x7033 k dev []

/-- The open load is abandoned: its slot takes state 2 (R485). -/
def State.abandonLoad (s : State) : State :=
  if s.rd 0x7040 4 dev = 1 then
    let k := typeSub s.sec.loadTy
    let s := s.setSlotState k (1 - s.preferred k) 2
    (s.wr 0x7040 4 dev 5).setSec { s.sec with loadBy := none }
  else s

/-- Entry 0x7001 of a load or of a boot fallback. -/
def State.imageNote (s : State) (ty slot result : Nat) : State :=
  s.note 0x7001 (leNat 1 ty ++ leNat 1 slot ++ leNat 1 result)

/-! ## The user partition (R486 to R488) -/

/-- A start needs a verified preferred image that still passes its check, and a stopped partition (R474, R487), in the
order of R452. -/
def partStartCheck (s : State) (_ : Nat) : Nat :=
  if s.slotState 3 (s.preferred 3) ≠ 1 then aRange
  else if s.imageCheck 4 [dieStep 0] (s.preferredBytes 3) ≠ 0 then aRange
  else if s.rd 0x7050 3 dev = 1 then aNotIdle
  else aDone

def partStart (s : State) : State :=
  let s := ((s.wr 0x7050 3 dev 1).wr 0x7050 4 dev 0).runs 3 (s.preferred 3)
  s.setSec { s.sec with partYield := s.lt }

/-- The partition stops in a state, no USER image runs, and its subscriptions end (R488). -/
def partHalt (v : Int) (s : State) : State :=
  let s := { s with net := { s.net with userSubs := [], pubs := s.net.pubs.filter fun p => p.session != 0 } }
  let s := (s.wr 0x7050 3 dev v).runsNone 3
  s.setSec { s.sec with userNonce := [] }

/-- The effect of a write to 0x7050.01. -/
def partitionCheck (v : Int) (s : State) (e : Nat) : Nat := if v = 1 then partStartCheck s e else aDone
def partitionSet (v : Int) (s : State) (_ : Nat) : State :=
  if v = 1 then partStart s else if s.rd 0x7050 3 dev = 1 then partHalt 0 s else s

def execPartitionStart (src : Src) (s : State) : Res :=
  .next (s.writeObj src 0x7050 1 [dev] 1 (partitionCheck 1) (partitionSet 1))
def execPartitionStop (src : Src) (s : State) : Res :=
  .next (s.writeObj src 0x7050 1 [dev] 2 (partitionCheck 2) (partitionSet 2))

/-- PARTITION_FAULT (R488): 1 no yield for 100 ms, 2 an exception, 3 a protection fault. -/
def execPartitionFault (cause : Nat) (s : State) : Res := .next <|
  if s.rd 0x7050 3 dev = 1 ∧ 1 ≤ cause ∧ cause ≤ 3 ∧ (cause = 1 → s.sec.partYield + 100000000 ≤ s.lt) then
    ((partHalt 3 s).wr 0x7050 4 dev cause).note 0x7002 (leNat 1 cause)
  else s

end Sys2Proof.Machine
end

