-- ==== Sys2Proof/Machine/Startup.lean ====
section
/-! DEFINITION. Start-up, sleep and reset (chapter 13) and the loss of VSYS (chapter 18). -/

namespace Sys2Proof.Machine

/-! ## What a reset keeps (R412) -/

/-- Objects that outlive a power-on: those of the metrology part, the safety configuration and its wrong attempts, OTP
and the boot record. -/
def keptAlways (a : Addr) : Bool :=
  a.inst == met || (findRow a).any (fun r => r.acc == .rwp) || [0x7020, 0x7021, 0x7030, 0x7034, 0x7035].contains a.index ||
    (a.index == 0x40F0 && a.sub == 6)

/-- A word of a channel's recipe store (R181). -/
def isRecipe (a : Addr) : Bool := decide (0x2000 ≤ a.index) && decide (a.index ≤ 0x23FF)

/-- The driver-supply detector's words (R46), which a reset of the die leaves. -/
def isVdrv (a : Addr) : Bool := a.index == 0x2800 && (a.sub == 2 || a.sub == 3)

/-- Objects that outlive a warm reset (R412): beside those above the trail's counts, the epoch number, the recipe store,
the supply detectors and what H-AO records of resets. -/
def keptWarm (a : Addr) : Bool :=
  keptAlways a || isRecipe a || isVdrv a || (a.index == 0x6000 && [1, 2, 4, 7, 9].contains a.sub) ||
    (a.index == 0x7060 && a.sub == 1) || (a.index == 0x1202 && a.sub == 4) || (a.index == 0x1101 && a.sub == 3) || (a.index == 0x1220 && a.sub ≠ 5)

/-- Restore stored P objects from hub flash (R422): those that a predicate takes. -/
def State.restore (s : State) (p : Addr → Bool) : State :=
  let take (a : Addr) : Bool := p a && !keptAlways a
  { s with
    objs := (s.flash.filter fun e => take e.1).foldl (fun l e => insertBy Addr.key e.1 e.2 l) s.objs,
    blobs := (s.flashBlobs.filter fun e => take e.1).foldl (fun l e => insertBy Addr.key e.1 e.2 l) s.blobs }

/-- The configured carrier period of a unit, if an object configures it (R81, R283, R289, R306). -/
def State.unitPeriod (s : State) (die u : Nat) : Option Nat :=
  if die = 0 then
    if u < 6 then some (s.rdN 0x3040 1 dev)
    else if u < 8 then none
    else if u < 20 then some (s.rdN 0x3422 0 dev)
    else some (s.rdN 0x3460 0 dev)
  else if u < 64 then none
  else some (s.rdN 0x3100 1 (siteI die))

/-- Units that stand take their configured period. -/
def State.loadPeriods (s : State) (die : Nat) : State :=
  each (List.range (if die = 0 then 36 else 66)) (fun s u =>
    let x := s.unit die u
    match s.unitPeriod die u with
    | some p => if x.running ∨ p = x.active.period then s
                else s.setUnit die u { x with active := { x.active with period := p }, staged := { x.staged with period := p } }
    | none => s) s

/-! ## The hub and every channel die restart -/

/-- A frequency loop that starts to lock (R375). -/
def lockingLoop : Loop := { state := 1 }

/-- The die after a reset of its logic: its reference detector, its recipe store to be scrubbed or not. -/
def State.freshDie (s : State) (d : Nat) (scrub : Bool) : Die :=
  { loop := lockingLoop, refPresent := (s.die d).refPresent, tbErr := (s.die d).tbErr, scrub := scrub }

/-- The contactor drives off; their feedback stays as it is. -/
def State.drivesOff (s : State) : Tbl Contactor :=
  s.sup.kdrv.map fun e => (e.1, { e.2 with close := false, settled := true, bad := 0, drvBad := 0 })

/-- The hub and the channel dies restart: kept objects and records, everything else at reset. -/
def State.restart (s : State) (keep : Addr → Bool) (scrub : Bool) : State :=
  { State.reset with
    variant := s.variant, sealedPart := s.sealedPart, vsys := true,
    clock := { s.clock with core := lockingLoop, nextRho := s.clock.rho, lockCount := 0, outCount := 0, step := none, beacon := none },
    objs := s.objs.filter fun e => keep e.1,
    blobs := s.blobs.filter fun e => keep e.1,
    flash := s.flash, flashBlobs := s.flashBlobs,
    dies := (0 :: s.sites).map fun d => (d, s.freshDie d (scrub && d != 0)),
    sup := { kdrv := s.drivesOff },
    lockbox := { s.lockbox with pending := [] },
    qm := s.qm,
    net := { nextId := s.net.nextId, out := s.net.out, local' := s.net.local' },
    sec := { slots := s.sec.slots, bootBlank := s.sec.bootBlank, jtag := s.sec.jtag, boundary := s.sec.boundary },
    trail := s.trail, resetLt := s.lt, banks := s.banks, part := s.part, free := s.free, pending := s.pending }

/-- A run that a reset has ended shows result 4 (R412). -/
def State.endedByReset (s : State) (c : Nat) : State := (s.wr 0x2402 1 c 7).wr 0x2402 3 c 4

/-- A warm reset (R411 to R415): 1 RESET_N, 2 by write, 3 the watchdog. The manual gives the bit mask of its entry no
value (log 5). Afterwards the safe-state hardware waits for KFB0 and KFB1 to engage ADIS (R413). -/
def State.warm (s : State) (kind : Nat) : State :=
  let s := s.abandonLoad
  let ran := s.channels.filter s.active
  let mask := (Config.freeInt s.free % 256).toNat
  let s := (s.draw.restart keptWarm true).note 0x0002 (leNat 1 1 ++ leNat 1 mask)
  let s := ((s.wr 0x1200 1 dev 5).wr 0x1202 2 dev kind).wr 0x1202 4 dev s.lt
  let s := each ran (fun s c => s.endedByReset c) s
  (s.setSup { s.sup with fire := true }).adisDue

/-! ## Site and engine resets -/

/-- Entry 0x3005 of a marked segment. -/
def State.markNote (s : State) (n reason corr : Nat) : State := s.raise 0 noChan 0x3005 (leNat 1 n ++ leNat 1 reason) corr

/-- The hub queues STEP_CLOSE with cause 3 and an end LT for every channel of a site (R415, R512). -/
def State.closeSite (s : State) (n endLt : Nat) : State :=
  each (siteChans n) (fun s c => s.mail (.stepClose c noRow 3 endLt)) s

/-- Drop the entries of a table that belong to a die, `w` keys a die. -/
def dropDie {α : Type} (t : Tbl α) (w die : Nat) : Tbl α := t.filter fun e => decide (e.1 / w ≠ die)

/-- A site reset of one die (R412, R413): it starts up again, its runs are ended, its recipe store is kept for a scrub. -/
def State.resetSite (s : State) (n corr : Nat) : State :=
  let ran := (siteChans n).filter s.active
  let keep (a : Addr) : Bool := siteOfInst a.inst != some n || keptAlways a || isRecipe a || isVdrv a
  let s := { s with
    objs := s.objs.filter fun e => keep e.1, blobs := s.blobs.filter fun e => keep e.1,
    chans := dropDie s.chans 64 (n - 1), units := dropDie s.units 128 n, slots := dropDie s.slots 128 n,
    engines := dropDie s.engines 16 n, descs := dropDie s.descs 64 n, adcs := dropDie s.adcs 16 n,
    dies := put s.dies n { s.freshDie n true with
      bp := s.rd 0x2408 0 dev == 1, markRst := true, losses := (s.die n).losses, recoveryOff := (s.die n).recoveryOff, recycled := (s.die n).recycled } }
  let s := each ran (fun s c => s.endedByReset c) s
  ((s.showMarks n).markNote n 3 corr).closeSite n s.lt

/-- The sites of a mask, and its dies. -/
def State.maskSites (s : State) (m : Nat) : List Nat := s.sites.filter (bit m)

/-- Site resets (R411): one entry 0x0002 for the mask; H-AO records the LT (R415). -/
def State.resetSites (s : State) (m : Nat) : State :=
  let corr := s.corrId 0
  let s := ((s.openCorr 0).raise 0 noChan 0x0002 (leNat 1 2 ++ leNat 1 m) corr).wr 0x1202 4 dev s.lt
  each (s.maskSites m) (fun s n => s.resetSite n corr) s

/-- An engine reset of a die (R412, R413): running and pending jobs are dropped, the loop state and the active sets stay. It
lasts at most 8 µs, how long the manual leaves open (log 6). -/
def State.resetEngine (s : State) (d : Nat) : State :=
  let ns := (Config.freeInt s.free % 8001).toNat
  let s := { s.draw with engines := dropDie s.engines 16 d }
  let s := s.setDie d { s.die d with engRst := some (s.lt + ns) }
  each (List.range (slotCount d)) (fun s k => s.setSlot d k { s.slot d k with busy := false }) s

def State.resetEngines (s : State) (m : Nat) : State :=
  let s := s.note 0x0002 (leNat 1 3 ++ leNat 1 m)
  each ((0 :: s.sites).filter (bit m)) (fun s d => s.resetEngine d) s

/-! ## The resets' sources (R411, R416) -/

/-- The counts of the 10 ms between a reply and the reset it asked for (R411). -/
def resetDelay : Nat := 3200000

/-- Carry out the resets that an answered request asked for, 10 ms after its reply; the largest kind wins. -/
def State.settle (s : State) : State :=
  let r := s.resetReq
  if r = {} then s
  else
    let s := { s with resetReq := {} }.pass resetDelay
    if r.warm then s.warm 2
    else
      let s := if r.sites = 0 then s else s.resetSites r.sites
      let m := (List.range 8).foldl (fun m b => if bit r.sites b then clearBit m b else m) r.engines
      if m = 0 then s else s.resetEngines m

def warmSet (s : State) (_ : Nat) : State := { s with resetReq := { s.resetReq with warm := true } }

/-- Bits of unpopulated sites are no such instance. -/
def siteResetCheck (m : Int) (s : State) (_ : Nat) : Nat :=
  if (List.range 8).all fun b => !bit m.toNat b || s.sitePop b then aDone else aNoInstance

def siteResetSet (m : Int) (s : State) (_ : Nat) : State := { s with resetReq := { s.resetReq with sites := m.toNat } }
def engineResetSet (m : Int) (s : State) (_ : Nat) : State := { s with resetReq := { s.resetReq with engines := m.toNat } }

def execWarmReset (src : Src) (v : Nat) (s : State) : Res :=
  .next (s.writeObj src 0x1203 1 [dev] v (fun _ _ => aDone) warmSet).settle
def execSiteReset (src : Src) (mask : Nat) (s : State) : Res :=
  .next (s.writeObj src 0x1203 2 [dev] mask (siteResetCheck mask) (siteResetSet mask)).settle
def execEngineReset (src : Src) (mask : Nat) (s : State) : Res :=
  .next (s.writeObj src 0x1203 3 [dev] mask (fun _ _ => aDone) (engineResetSet mask)).settle

/-- RESET_N (R411, R543): 1 µs resets; from 500 ns to 1 µs the part decides (log 6). -/
def execResetN (lowNs : Nat) (s : State) : Res := .next <|
  if !s.vsys ∨ lowNs < 500 then s
  else if 1000 ≤ lowNs then s.warm 1
  else if Config.glitchResets s.free then s.draw.warm 1 else s.draw

/-- HUB_WATCHDOG (R411). -/
def execHubWatchdog (s : State) : Res := .next (if s.vsys then s.warm 3 else s)

/-- The recovery of a lost die: a site reset by the hub. -/
def State.recoverSite (s : State) (n : Nat) : State := s.resetSites (2 ^ n)

/-! ## Power-on (R395, R526 to R529) -/

/-- The class of a bank by its voltage (R528): 0 absent, 1 a 1.8 V bank, 2 a 3.3 V bank. -/
def bankClass (mv : Nat) : Nat := if 2400 < mv then 2 else if 1500 ≤ mv then 1 else 0

/-- The banks as they read at VSYS valid, and 0x1220.03. -/
def State.readBanks (s : State) (mv : List Nat) : State :=
  let cls := (List.range 8).map fun b => bankClass (mv.getD b 0)
  ({ s with banks := cls.zipIdx.map fun (c, b) => (b, { cls := c, since := s.clock.cnt }) }).wr 0x1220 3 dev ((cls.zipIdx.map fun (c, b) => c * 4 ^ b).sum : Nat)

/-- The suffix octet of a part (R8, R471). -/
def State.suffixByte (s : State) : Nat := if s.sealedPart then 0x53 else 0x44

/-- A fresh debug nonce (R491; log 5). -/
def State.newNonce (s : State) : State :=
  s.draw.wr 0x7060 1 dev (Config.freeNonce s.free).toNat

/-- VSYS_VALID (R395, R412, R495): power-on. LT starts at 0, the trail is empty and takes entry 0x0001. -/
def State.powerOn (s : State) (mv : List Nat) : State :=
  let s := { s with
    clock := { cnt := s.clock.cnt, xtal := s.clock.xtal }, trail := {}, sup := {},
    dies := [], lockbox := { s.lockbox with lockedAt := s.lockbox.lockedAt.map fun _ => 0 },
    net := { nextId := s.net.nextId }, sec := { slots := s.sec.slots, bootBlank := s.sec.bootBlank } }
  let s := s.restart keptAlways false
  let s := ((s.readBanks mv).newNonce.wr 0x1200 1 dev 5)
  s.note 0x0001 (leNat 1 s.variant ++ leNat 1 s.suffixByte)

def execVsysValid (mv : List Nat) (s : State) : Res := .next (if s.vsys then s else s.powerOn mv)

/-- VSYS_INVALID (R529): every output off, LT and the trail lost. -/
def execVsysInvalid (s : State) : Res := .next <|
  if s.vsys then
    let s := s.abandonLoad
    { ({ s with trail := {}, net := { nextId := s.net.nextId } }).restart keptAlways false with
      vsys := false, clock := { cnt := s.clock.cnt, xtal := s.clock.xtal }, dies := [], banks := [], resetLt := 0 }
  else s

/-! ## The hub's boot (R478, R481) -/

/-- The other HUBFW slot boots: the failed one is marked, the other becomes preferred; entry 0x7001 follows later. -/
def State.bootOther (s : State) (p : Nat) : State :=
  let q := 1 - p
  if s.bootCheck (s.slotBytes (slotNo 1 q)) = 0 ∧ !s.sec.fallback then
    let s := (s.setSlotState 1 p 2).prefer 1 q
    s.setSec { s.sec with booted := true, fallback := true, runSlot := s.sec.runSlot.set 0 q }
  else s.setSec { s.sec with booted := false, dead := true }

/-- BOOT_ROM_CHECK (R478, R481): the preferred HUBFW slot, then the other; with a blank boot record slot A alone. -/
def execBootRomCheck (s : State) : Res := .next <|
  if s.vsys ∧ !s.fw ∧ !s.sec.booted ∧ !s.sec.dead then
    let p := s.preferred 1
    if s.bootCheck (s.slotBytes (slotNo 1 p)) = 0 then
      s.setSec { s.sec with booted := true, runSlot := s.sec.runSlot.set 0 p }
    else if s.sec.bootBlank then s.setSec { s.sec with dead := true }
    else s.bootOther p
  else s

/-- Raise the start-up phase. -/
def State.phase (s : State) (v : Nat) : State := s.wr 0x1202 1 dev (max (s.rd 0x1202 1 dev) v)

/-- Start-up reaches phase 6, its time counted from the reset or from REFCLK if that came later (R395), once every populated site that has not failed has its drivers released (R395, R487). -/
def State.checkReady (s : State) : State :=
  if s.fw ∧ s.rd 0x1202 1 dev < 6 ∧
      s.sites.all (fun n => s.rd 0x2800 4 (siteI n) == 1 || s.rd 0x1200 1 (siteI n) == 6) then
    let s := (s.wr 0x1202 1 dev 6).wr 0x1202 3 dev (min ((s.lt - max s.resetLt s.clock.refAt) / 1000000) 65535 : Nat)
    if s.rd 0x7050 2 dev = 1 ∧ partStartCheck s dev = aDone then partStart s else s
  else s

/-- A QF2 runs no QCFW (R493). -/
def State.noSites (s : State) : State := if s.sites = [] then s.runsNone 2 else s

/-- The network objects as they stand (R426). -/
def State.ipNow (s : State) : IpCfg :=
  let n (j : Nat) : Nat := s.rdN 0x1300 j dev
  { v4 := n 2, v4Prefix := n 3, gateway := n 4, v6 := padTo 16 (s.rdB 0x1300 5 dev), v6Prefix := n 6, port := n 7, vlan := n 8,
    replyPcp := n 9, notifyPcp := n 10 }

/-- RESIDENT_FIRMWARE_START (R395, R415, R456, R478): the payload is checked, P objects of the hub are restored, the CAN
ports start in their stored modes, STEP_CLOSE is queued for every populated channel. -/
def State.startFirmware (s : State) : State :=
  let p := s.sec.runSlot.getD 0 0
  let s := { s with fw := true, metNote := s.lt, lastMet := s.lt }
  let s := ((s.restore fun a => (siteOfInst a.inst).isNone).loadPeriods 0).wr 0x1200 1 dev 1
  let s := ((s.phase 2).runs 1 p).runs 2 (s.preferred 2)
  let s := s.noSites.wr 0x7060 4 dev (b2i !s.sealedPart)
  let s := if s.sec.fallback then
      let b := s.slotBytes (slotNo 1 (1 - p))
      s.imageNote 1 (1 - p) (if s.bootCheck b = 0 then 5 else s.bootCheck b)
    else s
  let s := each [0, 1] (fun s k => s.setPort k { mode := s.rdN 0x1400 (k + 1) dev }) s
  let s := { s with net := { s.net with ip := s.ipNow } }
  let s := (s.setSec { s.sec with fallback := false }).replaceIds 0
  let s := each s.sites (fun s n => s.closeSite n s.resetLt) s
  (s.admitRestored 0).checkReady

def execResidentFirmwareStart (s : State) : Res := .next <|
  if s.vsys ∧ !s.fw ∧ s.sec.booted then
    let p := s.sec.runSlot.getD 0 0
    if payloadOk (s.slotBytes (slotNo 1 p)) then s.startFirmware else s.bootOther p
  else s

/-! ## A site's start (R396, R398) -/

/-- A site fails (R396): state 6 and entry 0x0020. -/
def State.failSite (s : State) (n result : Nat) : State :=
  ((s.wr 0x1200 1 (siteI n) 6).note 0x0020 (leNat 1 n ++ leNat 1 (s.die n).attempts ++ leNat 1 result)).checkReady

/-- HINGE_C_TRAINING (R396): the third failure makes the site fail. -/
def execHingeCTraining (n : Nat) (ok : Bool) (s : State) : Res := .next <|
  let d := s.die n
  if s.fw ∧ s.sitePop n ∧ s.rd 0x1200 1 (siteI n) = 5 ∧ !d.trained then
    let s := s.phase 3
    if ok then s.setDie n { d with trained := true, attempts := d.attempts + 1, up := {}, down := {} }
    else
      let s := s.setDie n { d with attempts := d.attempts + 1 }
      if 3 ≤ d.attempts + 1 then s.failSite n 0 else s
  else s

/-- The die's heartbeats count from now (R509). -/
def State.beatNow (s : State) (n : Nat) : State :=
  s.setDie n { s.die n with hbHub := s.clock.cnt, hbDie := s.clock.cnt }

/-- A site whose QCFW passed (R395, R396): its P objects, its admission, power state 1; a reset or lost site's mark
clears (R288), and its pair starts while the DC link runs (R292). -/
def State.siteUp (s : State) (n : Nat) : State :=
  let s := ((s.restore fun a => siteOfInst a.inst == some n).loadPeriods n).wr 0x1200 1 (siteI n) 1
  let s := s.beatNow n
  let s := (s.setDie n { s.die n with markRst := false, markLost := false }).showMarks n
  let s := ((s.phase 4).replaceIds n).admitRestored n
  let s := if s.sites.all fun m => s.rd 0x1200 1 (siteI m) != 5 then s.phase 5 else s
  if s.linkState = 4 ∨ s.linkState = 5 then s.startDabs n else s

/-- QCFW_CHECK (R396, R478, R480): the image that the sites run, checked by the die's ROM once its pulse loop is
locked. -/
def execQcfwCheck (n : Nat) (s : State) : Res := .next <|
  let d := s.die n
  if s.fw ∧ s.sitePop n ∧ s.rd 0x1200 1 (siteI n) = 5 ∧ d.trained ∧ d.loop.state = 2 then
    let r := s.imageCheck 2 [dieStep n] (s.slotBytes (slotNo 2 (s.sec.runSlot.getD 1 0)))
    if r = 0 then s.siteUp n else s.failSite n r
  else s

/-- A site can have its drivers armed or released (R398, R528). -/
def State.armable (s : State) (n : Nat) : Bool :=
  s.sitePop n && s.rd 0x1200 1 (siteI n) == 1 && s.rd 0x2800 3 (siteI n) == 0 && s.vioOk n

/-- DRIVER_ARMING (R398): the supervisor sends the site's test frame. -/
def execDriverArming (n : Nat) (s : State) : Res := .next <|
  if s.armable n ∧ s.supRuns ∧ s.rd 0x2800 4 (siteI n) = 0 ∧ (s.die n).echoAt.isNone then
    let s := (s.openCorr 0).sendTest n (s.corrId 0)
    s.setDie n { s.die n with arming := true }
  else s

/-- TEST_ECHO (R363): the echo arrives within 50 µs; the die's test has passed and its drivers are released. An echo
that arrives as the 50 µs end loses (R179). -/
def execTestEcho (n : Nat) (a b : Frame64) (s : State) : Res := .next <| s.hubFrame n 0x2B a b fun _ _ s =>
  match (s.die n).echoAt with
  | some t =>
    if s.lt < t then
      let s := s.setDie n { s.die n with echoAt := none, tested := true }
      ((if s.armable n then s.wr 0x2800 4 (siteI n) 1 else s).testsDone).checkReady
    else s
  | none => s

/-- ECHO_TIMEOUT (R363): the echo has not come within 50 µs. At arming the drivers stay held; a start ends. -/
def execEchoTimeout (n : Nat) (s : State) : Res := .next <|
  let d := s.die n
  match d.echoAt with
  | some t =>
    if t ≤ s.lt then
      let s := s.setDie n { d with echoAt := none }
      if d.arming then ((s.setPower { s.power with testFailed := true }).supFault 0x51).setHold 8 else s.pathFailed 0x51
    else s
  | none => s

/-- RECIPE_SCRUB (R414): rows with an uncorrectable error become zero, with an entry each. -/
def execRecipeScrub (n : Nat) (bad : List (Nat × Nat)) (s : State) : Res := .next <|
  if s.sitePop n ∧ s.vsys ∧ (s.die n).scrub then
    let s := each (bad.filter fun b => decide (b.1 < 64) && decide (b.2 < 1024)) (fun s (k, r) =>
      let c := chanOf n k
      let s := each (List.range 12) (fun s j => s.wr (0x2000 + r) (j + 1) c 0) s
      s.noteAt n c 0x2008 (leNat 2 r)) s
    s.setDie n { s.die n with scrub := false }
  else s

/-! ## REST (R402 to R404) -/

/-- The quantities that a rest step's conditions may use in REST. -/
def restQty (q : Nat) : Bool := [0, 1, 2, 5, 12, 13].contains q

/-- A channel lets its die rest. -/
def State.chanRests (s : State) (c : Nat) : Bool :=
  (s.idle c || s.latched c || s.resting c) && (s.chan c).check.isNone && (s.chan c).queued.isEmpty &&
    (s.runState c != 2 || [1, 2, 3].all fun k => restQty (s.cond (s.master c) (s.rdN 0x2402 2 (s.master c)) k).qty)

/-- The conditions of REST hold on a die. -/
def State.restCond (s : State) (n : Nat) : Bool :=
  s.rd 0x1200 1 (siteI n) == 1 && s.rd 0x1210 1 (siteI n) == 1 &&
    (List.range 16).all (fun u => (s.adc n u).diagUntil.isNone) && (siteChans n).all s.chanRests

/-- The frame that leaves a port next: the oldest of its highest queue (R425). -/
def nextFrame (l : List (Nat × List Byte)) : Option (Nat × List Byte) :=
  (((List.range 8).reverse).findSome? fun q => l.find? fun x => x.1 == q)

/-- A frame leaves each port that has one. DESIGN CHOICE (log 192): one at each count. -/
def State.drainSwitch (s : State) : State :=
  each [0, 1] (fun s p =>
    match nextFrame (look [] s.net.egress p) with
    | some f => { s with net := { s.net with
        egress := put s.net.egress p ((look [] s.net.egress p).erase f), forwarded := some (p, f.2) } }
    | none => s) s

/-- What passes when no command waits (log 3): one count, and the timers of REST. -/
def State.tick (s : State) : State :=
  let s := (s.pass 1).settlePins.drainSwitch
  each s.sites (fun s n =>
    let d := s.die n
    let t := runOf d.restSince (s.restCond n) s.lt
    if t = d.restSince then s else s.setDie n { d with restSince := t }) s

/-- The step-time thresholds of a channel in a rest step, as the LT of the first release at or after each. -/
def State.restEnds (s : State) (c : Nat) : List Nat :=
  if s.runState c = 2 ∧ !s.slave c then
    ([1, 2, 3].map (s.cond c (s.rdN 0x2402 2 c))).filterMap fun q =>
      if q.qty = 1 then some (s.releaseFrom (dieOf c) (localOf c) (s.rdN 0x2402 6 c + q.thr * 1000000)) else none
  else []

/-- The die enters REST (R402). -/
def State.enterRest (s : State) (n : Nat) : State :=
  let s := each [0, 1] (fun s i =>
    let d := s.die n
    let x := d.dab i
    ((s.setDie n (d.setDab i { x with started := false })).stopUnit n (64 + i)).wr 0x3101 (1 + i) (siteI n)
      (if x.latched then 4 else 0)) s
  let s := ((s.slicesLow n).wr 0x1200 1 (siteI n) 2).inc 0x1210 3 (siteI n)
  let ends := (siteChans n).flatMap s.restEnds
  s.setDie n { s.die n with restSince := none, wakeAt := ends.min?.map fun t => t - 1000000 }

def execRestEntry (n : Nat) (s : State) : Res := .next <|
  if s.sitePop n ∧ s.restCond n ∧ heldFor (s.die n).restSince (s.rdN 0x1210 2 (siteI n) * 1000000) s.lt then s.enterRest n else s

/-- A voltage in µV or a temperature in m°C leaves the band in which no condition of the rest step on quantity 2, 5 or 12 is met
(R402). -/
def State.leavesBand (s : State) (c : Nat) (v t : Int) : Bool :=
  s.runState c == 2 && !s.slave c && [1, 2, 3].any fun k =>
    let q := s.cond c (s.rdN 0x2402 2 c) k
    let law := (s.chan c).law
    match q.qty with
    | 2 => meets q.cmp v (s32 q.thr)
    | 5 => meets q.cmp t (s32 q.thr)
    | 12 => law.fresh != 0 && meets q.cmp ((v : Rat) - law.v0 * 1000000) (s32 q.thr)
    | _ => false

/-- WINDOW_LEFT (R402, R403): a rest window's conversions. They go on into the control means of R164, with no current, since the
gates are held low (log 187); outside the band they wake the die. -/
def execWindowLeft (c vCode tCode : Nat) (s : State) : Res := .next <|
  if s.chanPop c ∧ s.rd 0x1200 1 (siteI (dieOf c)) = 2 then
    let v := s.pathValue c 0 vCode
    let t := s.pathValue c 2 tCode
    let ch := s.chan c
    let s := s.setChan c { ch with temp := t, sumV := ch.sumV + v, sumN := ch.sumN + 1 }
    if s.leavesBand c v t then s.wakeDie (dieOf c) 1 else s
  else s

/-- REST_WAKE_TIMER (R403). -/
def execRestWakeTimer (n : Nat) (s : State) : Res :=
  .next (if s.sitePop n ∧ due (s.die n).wakeAt s.lt then s.wakeDie n 2 else s)

/-- BUS_WITHIN_SETPOINT (R404): the bus-sense conversions of units 0 and 8 lie within 2 % of 0x3100.04. -/
def execBusWithinSetpoint (n a b : Nat) (s : State) : Res := .next <|
  let r := s.rd 0x3100 4 (siteI n) * 1000
  if s.sitePop n ∧ (s.busUv n (some a) (some b)).any (fun v => decide (50 * (v - r).natAbs ≤ r.natAbs)) then
    s.setDie n { s.die n with busRamp := false }
  else s

/-! ## STANDBY and SLEEP (R405 to R408) -/

/-- The terms of STANDBY and SLEEP. -/
def State.mayStandby (s : State) : Bool := s.powerOff && !s.anySwitching && !s.channels.any s.active

/-- The checks and the effect of a power state request. -/
def powerReqCheck (v : Int) (s : State) (_ : Nat) : Nat :=
  if v = 1 then aDone else if v = 3 ∨ v = 4 then idleOr s.mayStandby else aRange

def powerReqSet (v : Int) (s : State) (_ : Nat) : State :=
  if v = 1 then each s.sites (fun s n => s.wakeDie n 6) s.leaveStandby
  else if v = 3 ∧ s.rd 0x1200 1 dev = 3 then { s with standbyDue := 0 }
  else { s with standbyDue := v.toNat }

def execRunRequest (src : Src) (s : State) : Res :=
  .next (s.writeObj src 0x1201 1 [dev] 1 (powerReqCheck 1) (powerReqSet 1))
def execStandbyRequest (src : Src) (s : State) : Res :=
  .next (s.writeObj src 0x1201 1 [dev] 3 (powerReqCheck 3) (powerReqSet 3))
def execSleepRequest (src : Src) (s : State) : Res :=
  .next (s.writeObj src 0x1201 1 [dev] 4 (powerReqCheck 4) (powerReqSet 4))

/-- The device enters STANDBY: every loop stops, every site that runs or rests follows. -/
def State.enterStandby (s : State) : State :=
  let s := s.setClock { s.clock with core := {} }
  let s := each (0 :: s.sites) (fun s d => s.setDie d { s.die d with loop := {}, restSince := none, wakeAt := none }) s
  let s := each s.sites (fun s n =>
    if s.rd 0x1200 1 (siteI n) = 1 ∨ s.rd 0x1200 1 (siteI n) = 2 then s.wr 0x1200 1 (siteI n) 3 else s) s
  s.wr 0x1200 1 dev 3

/-- SLEEP from STANDBY (R407): SUBSCRIBE 0, the hash of the retained image, the cores down. -/
def State.enterSleep (s : State) : State :=
  let s := s.mail (.mailboxSubscribe 0)
  { s with sleepHash := s.rdB 0x7033 1 dev, sleepLt := s.lt }.wr 0x1200 1 dev 4

/-- STANDBY_ENTRY (R405): at the next epoch. -/
def execStandbyEntry (s : State) : Res := .next <|
  if s.standbyDue ≠ 0 ∧ s.epochDue.isSome ∧ s.mayStandby then
    let sleep := s.standbyDue = 4
    let s := { s with standbyDue := 0 }
    let s := if s.rd 0x1200 1 dev = 3 then s else s.enterStandby
    if sleep then s.enterSleep else s
  else s

/-- The wake timer has expired. -/
def State.sleepTimer (s : State) : Bool :=
  s.rd 0x1201 3 dev != 0 && decide (s.sleepLt + s.rdN 0x1201 3 dev * 1000000000 ≤ s.lt)

/-- An enabled source wakes the QF (R407, R408). -/
def State.wakeBy (s : State) (k : Nat) : State :=
  if s.rd 0x1200 1 dev = 4 ∧ k < 5 ∧ bit (s.rdN 0x1201 2 dev) k ∧ (k = 4 → s.sleepTimer) then { s with waking := true } else s

def execSleepWake (k : Nat) (s : State) : Res := .next (s.wakeBy k)
def execSleepWakeTimer (s : State) : Res := .next (s.wakeBy 4)

/-- WAKE_TO_STANDBY (R407): the boot ROM compares the hash of the retained image with the stored one; a matching image resumes,
a mismatch runs the full start-up, which is no reset. -/
def execWakeToStandby (hash : List Byte) (s : State) : Res := .next <|
  if s.waking then
    if hash = s.sleepHash then
      ((({ s with waking := false }).wr 0x1200 1 dev 3).wr 0x1111 1 dev 1).mail (.mailboxSubscribe 0x3F)
    else ((s.restart keptWarm true).wr 0x1200 1 dev 5)
  else s

end Sys2Proof.Machine
end

