-- ==== Sys2Proof/Machine/Links.lean ====
section
/-! DEFINITION. The links between the dies (chapters 1 and 17): replays, latch frames and what they do at the receiver,
heartbeats, the watchdog, the loss of a die and its recovery, the metrology link. -/

namespace Sys2Proof.Machine

/-! ## Flits (R27, R28, R509, R510) -/

/-- The heartbeat timeout of a die has expired at the hub (R509); a debug halt suspends it (R106). -/
def State.beatLate (s : State) (n : Nat) : Bool :=
  let d := s.die n
  [1, 2, 3].contains (s.rdN 0x1200 1 (siteI n)) && !d.halted && decide (d.hbHub + 16000 ≤ s.clock.cnt)

/-- A flit is delivered. A heartbeat that arrives as its timeout expires does not undo the expiry (R179). -/
def State.deliver (s : State) (n : Nat) (dir : Dir) : Flit → State
  | .beat =>
    match dir with
    | .toHub => if s.beatLate n then s else s.setDie n { s.die n with hbHub := s.clock.cnt }
    | .toDie => s.setDie n { s.die n with hbDie := s.clock.cnt }
  | .entry e => s.store e
  | .other => s

/-- Flits of these kinds leave: the entries come from the queue, in order. -/
def leave : List FlitKind → List Stored → List Flit × List Stored
  | [], q => ([], q)
  | .beat :: t, q => let r := leave t q; (.beat :: r.1, r.2)
  | .other :: t, q => let r := leave t q; (.other :: r.1, r.2)
  | .entry :: t, e :: q => let r := leave t q; (.entry e :: r.1, r.2)
  | .entry :: t, [] => leave t []

/-- The kind of a flit. -/
def Flit.kind : Flit → FlitKind
  | .beat => .beat
  | .entry _ => .entry
  | .other => .other

/-- The flits of a line to the first of a kind, that one included. -/
def untilKind (k : FlitKind) : List Flit → List Flit
  | [] => []
  | f :: t => if f.kind = k then [f] else f :: untilKind k t

/-- A flit of a kind arrives (R27): the flits that were to be resent come before it, in order, and the replay has
succeeded; unless the heartbeat timeout has expired, which wins (R510). -/
def State.arriveFlit (s : State) (n : Nat) (dir : Dir) (k : FlitKind) : State :=
  let l := (s.die n).link dir
  if l.replay.retries ≠ 0 ∧ s.beatLate n then s
  else
    let got := untilKind k l.resend
    let s := (s.endReplay n dir 0).onLink n dir fun l => { l with resend := l.resend.drop got.length }
    let s := each got (fun s f => s.deliver n dir f) s
    if got.any fun f => f.kind == k then s
    else
      let r := leave [k] ((s.die n).link dir).queue
      each r.1 (fun s f => s.deliver n dir f) (s.onLink n dir fun l => { l with queue := r.2 })

/-- HEARTBEAT (R509): a heartbeat flit arrives. -/
def execHeartbeat (n : Nat) (dir : Dir) (s : State) : Res := .next (if s.linkOk n dir then s.arriveFlit n dir .beat else s)

/-- TRAIL_ENTRY (R498, R500 to R502): a flit with a die's next entry arrives and the hub stores it. -/
def execTrailEntry (n : Nat) (s : State) : Res := .next (if s.linkOk n .toHub then s.arriveFlit n .toHub .entry else s)

/-- HINGE_C_REPLAY (R27, R28): a flit fails its CRC. The flits before it in the line are delivered; it and every later
one are resent. A retry of the same flit counts; another flit's failure is a replay of its own. -/
def execHingeCReplay (n : Nat) (dir : Dir) (good : Nat) (later : List FlitKind) (s : State) : Res := .next <|
  let l := (s.die n).link dir
  let r := leave later l.queue
  let line := l.resend ++ r.1
  if s.linkOk n dir ∧ good < line.length ∧ line.length ≤ good + 64 ∧ (0 < good ∨ l.replay.retries < 3) then
    let s := if 0 < good then s.endReplay n dir 0 else s
    let s := (s.onLink n dir fun l => { l with queue := r.2, resend := line.drop good })
    let s := each (line.take good) (fun s f => s.deliver n dir f) s
    let x := ((s.die n).link dir).replay
    let corr := s.corrId (receiverOf n dir)
    (s.openReplay n dir x).onLink n dir fun l => { l with replay := l.replay.next corr }
  else s

/-! ## The loss of a die (R512, R513) -/

/-- One hour in ns. -/
def hour : Nat := 3600000000000

/-- The hub declares a die lost: 1 link failed, 2 heartbeat. -/
def State.loseDie (s : State) (n trigger corr : Nat) : State :=
  let s := if (s.die n).down.failed then s else s.raiseFrame n .toDie 0x04 127 corr
  let s := (s.wr 0x1200 1 (siteI n) 7).inc 0x6021 n dev
  let d := s.die n
  let losses := s.lt :: d.losses.filter fun t => decide (s.lt ≤ t + hour)
  let off := d.recoveryOff || decide (3 ≤ losses.length)
  let s := s.setDie n { d with
    markLost := true, losses := losses, recoveryOff := off,
    recoverAt := if s.rd 0x6020 1 dev = 1 ∧ !off then some (s.lt + s.rdN 0x6020 2 dev * 1000000) else none }
  let s := ((s.showMarks n).markNote n 4 corr).closeSite n s.lt
  let s := each (siteChans n) (fun s c => if (s.run c).arrived.isSome then s.setRunSt c { s.run c with arrived := none } else s) s
  s.raise 0 noChan 0x0021 (leNat 1 n ++ leNat 1 trigger) corr

/-- A site whose die can be lost: it runs, rests or stands by, or its start has come past the training (R512). -/
def State.losable (s : State) (n : Nat) : Bool :=
  [1, 2, 3].contains (s.rdN 0x1200 1 (siteI n)) || (s.rd 0x1200 1 (siteI n) == 5 && (s.die n).trained)

/-- The correlation ID of the replay in progress on a link, if any (R510). -/
def Link.replayCorr (l : Link) : Option Nat :=
  if l.replay.retries ≠ 0 then some l.replay.corr else if l.again.retries ≠ 0 then some l.again.corr else none

/-- HINGE_C_LINK_FAILED (R28): the third retry failed; the hub handles the loss of the die. -/
def execHingeCLinkFailed (n : Nat) (dir : Dir) (s : State) : Res := .next <|
  let l := (s.die n).link dir
  if s.linkOk n dir ∧ (l.replay.retries = 3 ∨ l.again.retries = 3) then
    let corr := if l.replay.retries = 3 then l.replay.corr else l.again.corr
    let s := ((s.endReplay n dir 1).endAgain n dir 1).onLink n dir fun l => { l with failed := true }
    if s.losable n then s.loseDie n 1 corr else s
  else s

/-- The retries of a direction are cancelled (R510), and the flits that they were to bring. -/
def State.cancelReplay (s : State) (n : Nat) (dir : Dir) : State :=
  let s := if ((s.die n).link dir).replay.retries = 0 then s else (s.endReplay n dir 2).onLink n dir fun l => { l with resend := [] }
  s.endAgain n dir 2

/-- HEARTBEAT_TIMEOUT (R509, R510, R512): 50 µs without a heartbeat; outstanding replays are cancelled and lend their
correlation ID. -/
def execHeartbeatTimeout (n : Nat) (s : State) : Res := .next <|
  let d := s.die n
  if s.linkUp n ∧ s.beatLate n then
    let open' := d.up.replayCorr.orElse fun _ => d.down.replayCorr
    let corr := open'.getD (s.corrId 0)
    let s := if open'.isSome then s else s.openCorr 0
    ((s.cancelReplay n .toHub).cancelReplay n .toDie).loseDie n 2 corr
  else s

/-- DIE_WATCHDOG (R511): 100 µs without a hub heartbeat, or without service by the core: every gate off, both stages
stopped, all latched with cause 18, once until the die is reset. A debug halt suspends it. -/
def execDieWatchdog (n : Nat) (core : Bool) (s : State) : Res := .next <|
  if s.linkUp n ∧ (s.losable n ∨ s.rd 0x1200 1 (siteI n) = 7) ∧ !(s.die n).wdog ∧ !(s.die n).halted ∧
      (core ∨ (s.die n).hbDie + 32000 ≤ s.clock.cnt) then
    let corr := s.corrId n
    let s := (s.openCorr n).setDie n { s.die n with wdog := true }
    let s := each (siteChans n) (fun s c => s.latchOne c 18 0 corr) s
    each [0, 1] (fun s i => s.latchDab n i 18 0 corr) s
  else s

/-- SITE_RECOVERY (R513): the recovery delay has passed in automatic mode. -/
def execSiteRecovery (n : Nat) (s : State) : Res := .next <|
  if s.fw ∧ s.sitePop n ∧ s.rd 0x1200 1 (siteI n) = 7 ∧ s.rd 0x6020 1 dev = 1 ∧ due (s.die n).recoverAt s.lt then s.recoverSite n
  else s

/-- METROLOGY_LINK_SILENT (R514): no Hinge-R frame for 500 ms. -/
def execMetrologyLinkSilent (s : State) : Res := .next <|
  if s.fw ∧ s.rd 0x1202 5 dev = 1 ∧ s.lastMet + 500000000 ≤ s.lt then
    ({ s with metSilent := true }.wr 0x1202 5 dev 0).note 0x0030 (leNat 1 0)
  else s

/-! ## Latch frames (R30 to R32, R508) -/

/-- LATCH_FRAME_SEND (R30): the next pending frame of a direction goes onto the wire at a flit boundary; the ordinary
flits of the direction wait, and go on after it. -/
def execLatchFrameSend (n : Nat) (dir : Dir) (s : State) : Res := .next <|
  if s.linkOk n dir then s.onLink n dir Link.send else s

/-- A code that a channel die knows (R508). -/
def dieCode (k : Nat) : Bool := decide (1 ≤ k) && decide (k ≤ 0x0B)

/-- A frame reaches a die with one of its codes: it wakes a die that rests (R403), and acts; `f` takes ARG and CORR. A
frame with an unknown code or a non-zero reserved field is discarded with entry 0x0022 (R508); of two bad copies the die
asks for another (R31). -/
def State.arrives (s : State) (n code : Nat) (a b : Frame64) (f : Nat → State → State) : State :=
  if s.linkOk n .toDie then
    match goodFrame a b with
    | none => s.frameAgain n .toDie
    | some w =>
      let s := s.endAgain n .toDie 0
      if !dieCode (frameCode w) ∨ frameRsv w ≠ 0 then
        s.raise 0 noChan 0x0022 (leNat 1 n ++ leNat 1 1 ++ leNat 1 0 ++ leNat 1 1) (frameCorr w)
      else if frameCode w = code then f (frameCorr w) ((s.frameIn n .toDie code).wakeDie n 5)
      else s
  else s

/-- Set a bit of a die's command word, tag 7 (R112). -/
def State.tagBit (s : State) (n b : Nat) (on : Bool) : State :=
  let d := s.die n
  let w := d.tag7.toNat
  s.setDie n { d with tag7 := BitVec.ofNat 32 (if on then setBit w b else clearBit w b) }

def execDcovComparator (n : Nat) (a b : Frame64) (s : State) : Res :=
  .next (s.arrives n 0x01 a b fun corr s => s.assertSource n 5 corr)
def execDcLinkAboveOv2 (n : Nat) (a b : Frame64) (s : State) : Res :=
  .next (s.arrives n 0x02 a b fun corr s => s.assertSource n 4 corr)
def execSafetyStop (n : Nat) (a b : Frame64) (s : State) : Res :=
  .next (s.arrives n 0x03 a b fun corr s => s.assertSource n 7 corr)
def execSegmentStop (n : Nat) (a b : Frame64) (s : State) : Res :=
  .next (s.arrives n 0x04 a b fun corr s => s.assertSource n 6 corr)
def execSegmentStopRequest (n : Nat) (a b : Frame64) (s : State) : Res :=
  .next (s.arrives n 0x05 a b fun _ s => s.tagBit n 1 true)
def execRegenerationInhibit (n : Nat) (a b : Frame64) (s : State) : Res :=
  .next (s.arrives n 0x06 a b fun _ s => s.tagBit n 0 true)
def execRegenerationRelease (n : Nat) (a b : Frame64) (s : State) : Res :=
  .next (s.arrives n 0x08 a b fun _ s => s.tagBit n 0 false)

/-- DOOR_LIMIT (R346): the die limits the current and starts the door monitor. -/
def execDoorLimit (n : Nat) (a b : Frame64) (s : State) : Res :=
  .next (s.arrives n 0x07 a b fun _ s => s.setDie n { s.die n with door := true })

/-- DOOR_RELEASE (R346): the limit is lifted and the monitor ends. -/
def execDoorRelease (n : Nat) (a b : Frame64) (s : State) : Res := .next <| s.arrives n 0x09 a b fun _ s =>
  each (siteChans n) (fun s c =>
    let ch := s.chan c
    if ch.sup.door.isSome then s.setChan c { ch with sup := { ch.sup with door := none } } else s)
    (s.setDie n { s.die n with door := false })

/-- RUN_RELEASE (R508): tag 7 [0] and [1] clear, sources 4 to 7 deassert. -/
def execRunRelease (n : Nat) (a b : Frame64) (s : State) : Res := .next <| s.arrives n 0x0A a b fun _ s =>
  each [4, 5, 6, 7] (fun s k => s.deassertSource n k) ((s.tagBit n 0 false).tagBit n 1 false)

/-- TEST (R363): the die echoes the frame. -/
def execTest (n : Nat) (a b : Frame64) (s : State) : Res :=
  .next (s.arrives n 0x0B a b fun corr s => s.raiseFrame n .toHub 0x2B 127 corr)

/-- SEGMENT_BUS_FAULT (R288): the hub marks the segment; no controlled stop. -/
def execSegmentBusFault (n : Nat) (a b : Frame64) (s : State) : Res := .next <| s.hubFrame n 0x20 a b fun _ corr s =>
  ((s.setDie n { s.die n with markBus := true }).showMarks n).markNote n 1 corr

/-- CLOCK_LOST (R288, R508). -/
def execClockLost (n : Nat) (a b : Frame64) (s : State) : Res := .next <| s.hubFrame n 0x22 a b fun _ corr s =>
  ((s.setDie n { s.die n with markClk := true }).showMarks n).markNote n 2 corr

/-- DAB_STAGE_LATCHED (R292, R508): bit [0] of 0x3104 and an entry; ARG 64 and 65 name the stages. -/
def execDabStageLatched (n : Nat) (a b : Frame64) (s : State) : Res := .next <| s.hubFrame n 0x23 a b fun arg corr s =>
  let i := arg - 64
  let s := s.wr 0x3104 0 (siteI n) (setBit (s.rdN 0x3104 0 (siteI n)) 0)
  if 64 ≤ arg ∧ arg < 66 then s.raise 0 (0x200 + i) 0x3004 (leNat 1 i ++ leInt 1 (s.rd 0x3101 (1 + i) (siteI n))) corr else s

end Sys2Proof.Machine
end

