-- ==== Sys2Proof/Machine/Metrology.lean ====
section
/-! DEFINITION. The measuring part (chapter 7): its time base, windows and integrals, records, checkpoints and restarts,
batches and backpressure, and the frames that it sends to the hub. -/

namespace Sys2Proof.Machine

def State.qc (s : State) (c : Nat) : QChan := look {} s.qm.chans c
def State.setQc (s : State) (c : Nat) (x : QChan) : State := s.onQm fun q => { q with chans := put q.chans c x }

/-- The QM measures: VMET is present and its restart is complete (R201, R410). -/
def State.qmUp (s : State) : Bool := s.qm.powered && s.qm.booted

/-! ## Time (R202, R210, R373, R392) -/

/-- MCLK time in ns. -/
def State.mclkNow (s : State) : Nat := s.qm.mclk + (s.clock.cnt - s.qm.mclkCnt) * 25 / 8

/-- An LT on the line through two beacons. -/
def beaconLine (m1 l1 m0 l0 m : Nat) : Nat :=
  if m0 < m1 then ((l1 : Int) + quot (((m : Int) - m1) * ((l1 : Int) - l0)) ((m1 : Int) - m0)).toNat else l1

/-- The LT of an MCLK time (R210): interpolated between the beacons around it, newest first; beyond the newest extended
from the last two, beyond the oldest held from the first two. One beacon gives the rate 1; without any the label is free
(log 5). -/
def ltAmong (m : Nat) : List (Nat × Nat × Nat) → Nat
  | [] => Config.bareLt m
  | [(m1, l1, _)] => ((l1 : Int) + m - m1).toNat
  | (m1, l1, _) :: b :: t => if t = [] ∨ b.1 ≤ m then beaconLine m1 l1 b.1 b.2.1 m else ltAmong m (b :: t)

def Qm.ltOf (q : Qm) (m : Nat) : Nat := ltAmong m q.beacons

/-- The QM's line time. -/
def State.qmLt (s : State) : Nat := s.qm.ltOf s.mclkNow

/-- The beacon that the epoch period implies is overdue (R392): the span from the last one carries TQ. -/
def State.beaconLate (s : State) : Bool :=
  match s.qm.beacons with
  | (m1, l1, _) :: (_, l0, _) :: _ => decide (m1 + (l1 - l0) + (l1 - l0) / 10000 + 1000 < s.mclkNow)
  | [_] => false
  | [] => true

/-- A span with a flag begins, or ends, now. -/
def State.mark (s : State) (bit site : Nat) : State :=
  s.onQm fun q => { q with marks := ⟨bit, site, s.qmLt, none⟩ :: q.marks }
def State.unmark (s : State) (bit site : Nat) : State :=
  s.onQm fun q => { q with marks := q.marks.map fun k =>
    if k.bit = bit ∧ k.site = site ∧ k.stop = none then { k with stop := some s.qmLt } else k }

/-- A flag applies to a channel's site (0: to the QM) within a span of LT. -/
def State.marked (s : State) (bit site a b : Nat) : Bool :=
  s.qm.marks.any fun k => k.bit == bit && (k.site == 0 || k.site == site) && decide (k.start < b) && k.stop.all fun t => decide (a < t)

/-- TQ over a span (R225, R392). -/
def State.tqOver (s : State) (a b : Nat) : Bool :=
  s.marked 1 0 a b || (s.beaconLate && (match s.qm.beacons with | (_, l, _) :: _ => decide (l < b) | [] => true))

/-- Time quality is lost now. -/
def State.tqNow (s : State) : Bool := s.qm.tq || s.beaconLate

/-- Set an alert cause (R247). -/
def State.alert (s : State) (k : Nat) : State := s.onQm fun q => { q with alerts := setBit q.alerts k }

/-- The alert causes (R247): time quality is also lost, and the cause set, while a beacon is overdue. -/
def State.alertsNow (s : State) : Nat :=
  if s.beaconLate ∧ !s.qm.tq ∧ !s.qm.lateSeen then setBit s.qm.alerts 2 else s.qm.alerts

/-- MET_ALERT_N (R247): low while any alert cause is set. -/
def State.metAlertN (s : State) : Bool := s.alertsNow == 0

/-- The seal state (R7, R239): a D part is always UNSEALED. -/
def State.seal (s : State) : Nat := if s.sealedPart then s.qm.sealSt else 3

/-- A site's macro has framing (R35, R410). -/
def State.framed (s : State) (n : Nat) : Bool := bit s.qm.sites n && !bit s.qm.lost n

/-! ## Samples and integrators (R209 to R219) -/

/-- The sample interval, in ns. -/
def interval : Nat := 125000

/-- The delay of every lane from the centre of an interval to its sample, in ns (R210). -/
def chainDelay : Nat := 812350

/-- An integrator takes a voltage in µV and a current in 10 nA for one interval (R214). -/
def Integ.add (a : Integ) (v i : Int) : Integ :=
  { q := a.q + (a.qRes + i).fdiv 800, qRes := (a.qRes + i).fmod 800,
    e := a.e + (a.eRes + v * i).fdiv 800000000, eRes := (a.eRes + v * i).fmod 800000000 }

/-- An integrator at an LT (R216): its value at the start of the interval and the floor of the share before the LT; before
the oldest sample its value there, without samples its present value. -/
def valueAt (h : List QSample) (now : Int) (get after : QSample → Int) (lt : Nat) : Int :=
  match h.find? fun x => decide (x.at' ≤ lt) with
  | some x => get x + ((after x - get x) * min (lt - x.at') interval).fdiv interval
  | none => match h.getLast? with
    | some x => get x
    | none => now

/-- The integrators at the end of a sample's interval, with what stands and with the working modulators. -/
def QSample.next (x : QSample) : Integ := x.acc.add x.v x.i
def QSample.wNext (x : QSample) : Integ := x.wAcc.add x.wv x.wi

def QChan.chargeAt (x : QChan) (lt : Nat) : Int := valueAt x.hist x.acc.q (·.acc.q) (·.next.q) lt
def QChan.energyAt (x : QChan) (lt : Nat) : Int := valueAt x.hist x.acc.e (·.acc.e) (·.next.e) lt
def QChan.wChargeAt (x : QChan) (lt : Nat) : Int := valueAt x.hist x.wAcc.q (·.wAcc.q) (·.wNext.q) lt
def QChan.wEnergyAt (x : QChan) (lt : Nat) : Int := valueAt x.hist x.wAcc.e (·.wAcc.e) (·.wNext.e) lt

/-- The ns of a sample's interval that lie in a span. -/
def QSample.overlap (x : QSample) (a b : Nat) : Nat := min (x.at' + interval) b - max x.at' a

/-- The ns of a span that samples cover, and a mean over it, each sample weighted by its overlap (R219). -/
def covered (h : List QSample) (a b : Nat) : Nat := (h.map (·.overlap a b)).sum
def meanOver (h : List QSample) (f : QSample → Int) (a b : Nat) : Rat :=
  ((h.map fun x => f x * (x.overlap a b : Int)).sum : Rat) / (covered h a b : Rat)

/-- The channels of a record: a gang's recChans (R217), or the channel alone. -/
def recChans (c n : Nat) : List Nat := (List.range (max n 1)).map (c + ·)

/-- The mean voltage of a record's channels over a span in µV, the master's (R217); without any sample a free value. -/
def State.meanV (s : State) (c a b : Nat) : Rat :=
  if covered (s.qc c).hist a b = 0 then Config.freeInt s.free else meanOver (s.qc c).hist (·.v) a b

/-- Their mean current in 10 nA, the sum of the recChans'. -/
def State.meanI (s : State) (cs : List Nat) (a b : Nat) : Rat :=
  (cs.map fun m => if covered (s.qc m).hist a b = 0 then (Config.freeInt s.free : Rat) else meanOver (s.qc m).hist (·.i) a b).sum

/-- The charge of a window to an LT: the integrator there less its value at the window's start (R216). -/
def State.chargeTo (s : State) (cs : List Nat) (lt : Nat) : Int :=
  (cs.map fun m => (s.qc m).chargeAt lt - (if m = cs.headD 0 then (s.qc m).winQ else (s.qc m).chargeAt (s.qc (cs.headD 0)).winStart)).sum

/-- The product of the master's voltage and the summed current over a span, in 10^-14 nJ (R217). -/
def State.gangWork (s : State) (cs : List Nat) (a b : Nat) : Int :=
  let hm := (s.qc (cs.headD 0)).hist
  (cs.map fun m => ((s.qc m).hist.map fun x =>
    match hm.find? (fun y => y.m == x.m) with
    | some y => y.v * x.i * (x.overlap a b : Int)
    | none => 0).sum).sum

/-- The energy of a window to an LT. -/
def State.energyTo (s : State) (cs : List Nat) (lt : Nat) : Int :=
  let x := s.qc (cs.headD 0)
  if cs.length ≤ 1 then x.energyAt lt - x.winE else (s.gangWork cs x.winStart lt).fdiv 100000000000000

/-- Some sample of the channels in a span lay beyond its input range (R213). -/
def State.ovrOver (s : State) (cs : List Nat) (a b : Nat) : Bool :=
  cs.any fun m => (s.qc m).hist.any fun x => x.ovr && decide (0 < x.overlap a b)

/-- The channel takes a sample (R214). -/
def QChan.add (x : QChan) (y : QSample) : QChan := { x with acc := y.next, wAcc := y.wNext, hist := y :: x.hist }

/-- The MCLK time at which the last interval starts whose sample has come out of the chain (R210). -/
def State.sampleStart (s : State) : Nat := (s.mclkNow - (chainDelay + interval / 2)) / interval * interval

/-- The channel's sample of that interval has not been taken. -/
def State.sampleDue (s : State) (c : Nat) : Bool :=
  decide (chainDelay + interval / 2 ≤ s.mclkNow) && ((s.qc c).hist.head?.all fun y => decide (y.m < s.sampleStart))

/-- The samples of a channel reach an LT. -/
def QChan.reaches (x : QChan) (lt : Nat) : Bool := x.hist.head?.any fun y => decide (lt ≤ y.at' + interval)

/-- The mirror means of a channel for the epoch period that ends at an LT (R219, R255), with the working modulators'
samples. -/
def State.formMirror (s : State) (epochLt c : Nat) : State :=
  let x := s.qc c
  let a := epochLt - s.epochNs
  if covered x.hist a epochLt = 0 ∨ !x.reaches epochLt then s
  else s.setQc c { x with
    mLt := some epochLt, mV := wholeOf (meanOver x.hist (·.wv) a epochLt), mI := wholeOf (meanOver x.hist (·.wi) a epochLt / 1000),
    mQ := x.wChargeAt epochLt, mE := x.wEnergyAt epochLt }

/-- The channels of the sites that have framing. -/
def State.metChans (s : State) : List Nat := (s.sites.filter s.framed).flatMap siteChans

/-- MIRROR_MEANS: an epoch whose marker has come with a site's stream (R33), once the samples reach it. -/
def execMirrorMeans (epochLt : Nat) (s : State) : Res := .next <|
  if s.qmUp then
    each (s.metChans.filter fun c => (look [] s.qm.markers (dieOf c)).contains epochLt) (fun s c => s.formMirror epochLt c) s
  else s

/-! ## Backpressure (R233) -/

/-- Free step slots and batch slots (R203). -/
def Qm.freeSteps (q : Qm) : Nat := 16384 - q.stepUsed
def Qm.freeBats (q : Qm) : Nat := 512 - (q.lastBat - q.ackBat)

def Qm.mustHold (q : Qm) : Bool := decide (7340032 ≤ q.perUsed) || decide (q.freeSteps < 1024) || decide (q.freeBats < 64)
def Qm.mayRelease (q : Qm) : Bool := decide (q.perUsed ≤ 4194304) && decide (2048 ≤ q.freeSteps) && decide (128 ≤ q.freeBats)

/-- Assert or release backpressure; each change is an event to the hub. -/
def State.checkHold (s : State) : State :=
  if !s.qm.bp ∧ s.qm.mustHold then
    (s.onQm fun q => { q with bp := true, events := q.events ++ [.backpressure true] }).alert 4
  else if s.qm.bp ∧ s.qm.mayRelease then
    s.onQm fun q => { q with bp := false, events := q.events ++ [.backpressure false] }
  else s

/-! ## Records (R224, R225, R234, R235) -/

/-- The size of a record by its type, and of the area it goes to (R203, R224). -/
def recSize (kind : Nat) : Nat := if kind = 1 then 128 else if kind = 3 then 64 else 32
def periodicArea : Nat := 8388608

/-- The periodic area has room for a record. -/
def State.recRoom (s : State) (kind : Nat) : Bool := kind == 1 || decide (s.qm.perUsed + recSize kind ≤ periodicArea)

/-- Write a record of octets that may hold its sequence. -/
def State.writeRec (s : State) (kind : Nat) (body : Nat → List Byte) : State :=
  let lt := s.qmLt
  let m := s.mclkNow
  (s.onQm fun q =>
    let r : Rec := ⟨kind, padTo (recSize kind) (body q.nextRec), lt, m, if kind = 1 then q.stepAll else q.perAll⟩
    let q := { q with recs := put q.recs q.nextRec r, nextRec := q.nextRec + 1, stalled := q.stalled || q.freeBats == 0 }
    if kind = 1 then { q with stepUsed := q.stepUsed + 1, stepAll := q.stepAll + 1 }
    else { q with perUsed := q.perUsed + recSize kind, perAll := q.perAll + recSize kind }).checkHold

/-- Store a periodic, AC or impedance record, or count it as dropped. -/
def State.putRec (s : State) (kind : Nat) (body : Nat → List Byte) : State :=
  if s.recRoom kind then s.writeRec kind body else s.onQm fun q => { q with dropped := q.dropped + 1 }

/-- A record is there: created, and not freed and overwritten (R232, R558). -/
def State.recAt (s : State) (n : Nat) : Option Rec :=
  match lookup? n s.qm.recs with
  | some r =>
    if (if r.kind = 1 then s.qm.stepAll ≤ r.place + 16384 else s.qm.perAll ≤ r.place + periodicArea) then some r else none
  | none => none

/-- The flags of a record (R225). -/
def State.recFlags (s : State) (cs : List Nat) (a b : Nat) (int pgap dcirx : Bool) : Nat :=
  let c := cs.headD 0
  let n := dieOf c
  let sloss := s.marked 2 n a b
  let clk := s.marked 6 0 a b
  let ovr := s.ovrOver cs a b
  let nft := s.seal == 3 || clk || sloss || int || ovr
  let f := fun (b : Bool) (k : Nat) => if b then 2 ^ k else 0
  f nft 0 + f (s.tqOver a b) 1 + f sloss 2 + f pgap 3 + f (s.marked 4 0 a b) 4 + f int 5 + f clk 6 +
    f (decide (1 < cs.length)) 7 + f ovr 8 + f dcirx 9

/-- The voltages over a window, or a free value when no sample lies in it. -/
def State.extremes (s : State) (c a b : Nat) : Int × Int :=
  match ((s.qc c).hist.filter fun x => decide (0 < x.overlap a b)).map (·.v) with
  | [] => (Config.freeInt s.free, Config.freeInt s.free)
  | v :: t => (t.foldl min v, t.foldl max v)

/-- The last sample before an LT (R224). -/
def State.lastSample (s : State) (c lt : Nat) : Option QSample := (s.qc c).hist.find? fun x => decide (x.at' + interval ≤ lt)

/-- DCIR in nΩ, 0 with DCIRX when it is invalid (R220). -/
def State.dcir (s : State) (cs : List Nat) (w : QStep) (endLt : Nat) : Nat × Bool :=
  let c := cs.headD 0
  let pre := durJobs (w.sub4 % 65536) w.loop * w.loop * 25 / 8
  let pulse := durJobs (w.sub4 / 65536) w.loop * w.loop * 25 / 8
  let a := w.firstJob + pre
  let b := a + pulse
  let w1 := min 10000000 pre
  let w2 := min 10000000 pulse
  let di := s.meanI cs (b - w2) b - s.meanI cs (a - w1) a
  let dv := s.meanV c (b - w2) b - s.meanV c (a - w1) a
  if endLt < b ∨ w1 < 1000000 ∨ w2 < 1000000 ∨ (-100000000 < di ∧ di < 100000000) ∨ dv / di < 0 then (0, true)
  else ((wholeOf (dv / di * 100000000000)).toNat, false)

/-- A step record (R224). -/
def State.stepRecord (s : State) (c : Nat) (w : QStep) (endLt cause seq : Nat) : List Byte :=
  let x := s.qc c
  let cs := recChans c w.gang
  let d := if w.mode = 8 then s.dcir cs w endLt else (0, false)
  let free := Config.freeInt s.free
  let v := ((s.lastSample c endLt).map (·.v)).getD free
  let i := (cs.map fun m => ((s.lastSample m endLt).map (·.i)).getD free).sum
  let mm := s.extremes c x.winStart endLt
  [0x01, 0x01] ++ leNat 2 c ++ leNat 2 w.row ++ leNat 2 (s.recFlags cs x.winStart endLt w.int x.pgap d.2) ++ leNat 8 seq ++
    padTo 24 w.cell ++ leNat 8 x.winStart ++ leNat 8 endLt ++ leInt 8 (s.chargeTo cs endLt) ++ leInt 8 (s.energyTo cs endLt) ++
    leInt 4 v ++ leInt 4 (quot i 1000) ++ leInt 4 x.temp ++ leNat 4 d.1 ++ leNat 4 w.firstImp ++ leNat 1 s.seal ++
    leNat 1 w.mode ++ leNat 2 cause ++ leNat 4 s.qm.evCount ++ leInt 4 mm.1 ++ leInt 4 mm.2 ++ leNat 4 s.qm.calGen ++
    leNat 4 w.index

/-- Close the open step of a channel at an LT (R215, R216): its record is written, and the next window starts there. -/
def State.closeQStep (s : State) (c endLt cause next : Nat) : State :=
  let x := s.qc c
  match x.step with
  | none => s
  | some w =>
    let q := x.chargeAt endLt
    let e := x.energyAt endLt
    let s := (s.writeRec 1 (s.stepRecord c w endLt cause)).draw
    let x := s.qc c
    s.setQc c { x with
      step := none, begun := true, winStart := endLt, winQ := q, winE := e, nextRow := next, gangSize := w.gang, pgap := false,
      broken := false, intStart := endLt, hist := x.hist.filter fun y => decide (endLt < y.at' + interval + 100000000) }

/-! ## Step descriptors (R191, R207, R215, R218) -/

/-- The start LT of a step: the end LT of the step before it, or, for the first step of a run, its origin LT. -/
def QChan.startOf (x : QChan) (index origin : Nat) : Nat := if index ≤ 1 ∨ !x.begun then origin else x.winStart

/-- STEP_START takes effect (R215, R218): a step still open is closed at the origin with cause 5. -/
def State.startQStep (s : State) (c row index mode rate gang origin firstJob loop sub4 sub2 : Nat) : State :=
  let s := s.closeQStep c origin 5 row
  let x := s.qc c
  let a := x.startOf index origin
  let fresh := decide (a ≠ x.winStart) || !x.begun
  let broken := !fresh && x.broken
  let x := { x with
    cell := x.cellNext, begun := true, winStart := a, winQ := if fresh then x.chargeAt a else x.winQ,
    winE := if fresh then x.energyAt a else x.winE, nextRow := row, gangSize := gang, pgap := !fresh && x.pgap,
    rate := rate, intStart := max a x.intStart, broken := false }
  let w : QStep :=
    { row := row, index := index, mode := mode, gang := gang, firstJob := firstJob, loop := loop, sub4 := sub4, sub2 := sub2,
      cell := x.cell, int := broken }
  s.setQc c { x with step := some w }

/-- A rotation group of a site, key 16 × site + group. -/
def State.rot (s : State) (site g : Nat) : Rot := look {} s.qm.rots (16 * site + g)
def State.setRot (s : State) (site g : Nat) (x : Rot) : State := s.onQm fun q => { q with rots := put q.rots (16 * site + g) x }

/-- An input of a channel, voltage, current or temperature, is under a provisional takeover whose H lies before an LT:
records that end after H wait for C (R255). -/
def State.provisional (s : State) (c lt : Nat) : Bool :=
  let k := localOf c
  let r := s.rot (dieOf c) (k / 8)
  let t := s.rot (dieOf c) 8
  (r.phase == 2 && r.input / 2 == k % 8 && decide (r.hLt < lt)) || (t.phase == 2 && t.input == k / 16 && decide (t.hLt < lt))

/-- The channel whose order among what waits a command must keep. -/
def keptChan : Instr → Option Nat
  | .stepStart c _ _ _ _ _ _ _ _ _ _ => some c
  | .stepClose c _ _ _ => some c
  | .periodicRecord c => some c
  | .impedanceRecord c => some c
  | _ => none

/-- A descriptor or a record of a channel waits: for the commit, for the sample that covers its LT (R216), or behind one
that waits. -/
def State.holds (s : State) (c n lt : Nat) : Bool :=
  (recChans c n).any (fun m => s.provisional m lt || (s.framed (dieOf m) && !(s.qc m).reaches lt)) ||
    s.qm.held.any fun i => keptChan i == some c

/-- Keep a command of the channel until then. -/
def State.keep (s : State) (i : Instr) : State := s.onQm fun q => { q with held := q.held ++ [i] }

/-- What the hub holds of the measuring part is what the latest frame brought (R38, R514). -/
def State.heard (s : State) : State := { s with lastMet := s.lt, metView := s.qm, metViewAt := s.clock.cnt }

/-- The octets of a reply frame (R205). -/
def MbReply.frame (r : MbReply) : List Byte :=
  let b := leNat 1 r.op ++ leNat 1 r.tag ++ leNat 1 r.status ++ leNat 2 r.payload.length ++ r.payload
  [0xA5] ++ b ++ leNat 4 (crc32 b)

/-- The QM answers a mailbox request (R205, R207): the reply carries the opcode with bit 7 set, the request's tag and a
status, and returns its credit. -/
def State.mailReply (s : State) (op status : Nat) (payload : List Byte) : State :=
  { s.onQm fun q => { q with reply := some ⟨op + 128, s.tag, status, payload⟩ } with tag := (s.tag + 1) % 256 }.heard

/-- The command has been answered: its frame leaves the lane and its credit returns. -/
def State.answered (s : State) (i : Instr) : State := { s with flight := s.flight.erase i }.pump

/-- STEP_START (R207, R215). -/
def State.doStepStart (s : State) (i : Instr) : State :=
  match i with
  | .stepStart c row index mode rate gang origin firstJob loop sub4 sub2 =>
    if s.holds c gang origin then s.keep i
    else s.startQStep c row index mode rate gang origin firstJob loop sub4 sub2
  | _ => s

/-- STEP_CLOSE (R207, R215): the record ends at the carried LT, whenever the descriptor arrives (R191). -/
def State.doStepClose (s : State) (i : Instr) : State :=
  match i with
  | .stepClose c next cause endLt =>
    if s.holds c (s.qc c).gangSize endLt then s.keep i else s.closeQStep c endLt cause next
  | _ => s

/-- The close of an open step: the QM keeps its LT for R260. -/
def State.doClose (s : State) (c next cause endLt : Nat) : State :=
  (s.onQm fun q => { q with closes := (c, endLt) :: q.closes.filter fun e => decide (endLt ≤ e.2 + 10000000000) }).doStepClose
    (.stepClose c next cause endLt)

/-! ## Periodic, AC and impedance records (R218, R221, R223) -/

/-- Samples per second of a record rate code (R170). -/
def rateOf (code : Nat) : Nat := [0, 1, 2, 5, 10, 20, 50, 100, 200, 500, 1000].getD code 0

/-- Charge in µAh, saturated to 32 bits. -/
def microAh (nC : Int) : Int := sat32 (quot nC 3600000)

/-- A periodic record over the interval that ends at an LT. -/
def State.periodicBytes (s : State) (c endLt : Nat) : List Byte :=
  let x := s.qc c
  let cs := recChans c x.gangSize
  let row := match x.step with | some w => w.row | none => x.nextRow
  [0x02, 0x01] ++ leNat 2 c ++
    leNat 2 (s.recFlags cs x.intStart endLt ((x.step.map (·.int)).getD x.broken) false false) ++ leNat 2 row ++ leNat 8 endLt ++
    leInt 4 (wholeOf (s.meanV c x.intStart endLt)) ++ leInt 4 (wholeOf (s.meanI cs x.intStart endLt / 1000)) ++ leInt 4 x.temp ++
    leInt 4 (microAh (s.chargeTo cs endLt))

/-- The end of the interval in progress. -/
def QChan.intEnd (x : QChan) : Nat := x.intStart + 1000000000 / rateOf x.rate

/-- The end of the interval of the next periodic record: those that wait for C come first. -/
def State.nextIntEnd (s : State) (c : Nat) : Nat :=
  (s.qc c).intEnd + s.qm.held.count (.periodicRecord c) * (1000000000 / rateOf (s.qc c).rate)

/-- A channel measured as a gang's slave: a master below it in its quad has begun a gang that reaches it, and no step of
its own came later (R217). -/
def State.qSlave (s : State) (c : Nat) : Bool :=
  [1, 2, 3].any fun k => decide (k ≤ c % 4) && (s.qc (c - k)).begun && decide (k < (s.qc (c - k)).gangSize) &&
    decide ((s.qc c).winStart ≤ (s.qc (c - k)).winStart)

/-- An interval of the channel's periodic records has ended (R218); a slave has none (R217). -/
def State.periodicDue (s : State) (c : Nat) : Bool :=
  (s.qc c).begun && !s.qSlave c && rateOf (s.qc c).rate != 0 && decide (s.nextIntEnd c ≤ s.qmLt)

/-- PERIODIC_RECORD takes effect: the record is stored or dropped, and the next interval starts. -/
def State.doPeriodic (s : State) (c : Nat) : State :=
  let x := s.qc c
  if s.holds c x.gangSize (s.nextIntEnd c) then s.keep (.periodicRecord c)
  else
    let room := s.recRoom 2
    let s := (s.putRec 2 fun _ => s.periodicBytes c x.intEnd).draw
    let y := s.qc c
    s.setQc c { y with intStart := x.intEnd, pgap := y.pgap || !room }

def execPeriodicRecord (c : Nat) (s : State) : Res := .next <|
  if s.qmUp ∧ s.chanPop c ∧ s.periodicDue c then s.doPeriodic c else s

/-- The flags of an AC record over a span: TQ, CLK, OVR (R225). -/
def State.acFlags (s : State) (a b : Nat) (ovr : Bool) : Nat :=
  (if s.tqOver a b then 2 else 0) + (if s.marked 6 0 a b then 64 else 0) + (if ovr then 256 else 0)

/-- A calibration item (R248): its value as written, or the factory's (log 2). -/
def State.item (s : State) (k : Nat) : List Byte := (lookup? k s.qm.cal).getD (padTo 16 (s.partOctets (65536 + k)))

/-- A signed field of an item. -/
def itemInt (v : List Byte) (off : Nat) : Int := ofLeInt (sliceB v off 4)

/-- The input range of the AC modulators in µV (R542). -/
def acRange : Rat := 600000

/-- The stream of an AC input (R223, R263): samples in nV at the pin, clipped to the range, converted with the class 3
item alone, in mV or mA at the grid. -/
def State.acStream (s : State) (k : Nat) (raw : List Int) : List Rat :=
  let v := s.item (12288 + k)
  let l := raw.map fun x =>
    let u : Rat := (max (-acRange) (min acRange ((x : Rat) / 1000)) + (itemInt v 0 : Rat) / 1000) * (fieldAt v 4 4 : Rat) / 2147483648
    u * Config.acScale k
  if itemInt v 8 = 0 then l else Config.acPhase (itemInt v 8) l

/-- The energy of a phase over its samples, in mJ. -/
def phaseEnergy (v i : List Rat) : Rat := ((v.zip i).map fun x => x.1 * x.2).sum / 8000000

/-- The root of the mean square. -/
def rms (l : List Rat) : Nat := if l = [] then 0 else (wholeOf (sqrtQ ((l.map fun x => x * x).sum / l.length))).toNat

/-- The AC registers take energies of the phases: what a phase draws is imported, what it returns is exported. -/
def Qm.takeAc (q : Qm) (e : List Rat) : Qm :=
  let i := q.acImpRes + (e.map fun x => max x 0).sum
  let o := q.acExpRes + (e.map fun x => max (-x) 0).sum
  { q with acImp := (q.acImp + i.floor.toNat) % 2 ^ 64, acImpRes := i - i.floor,
           acExp := (q.acExp + o.floor.toNat) % 2 ^ 64, acExpRes := o - o.floor }

/-- AC_RECORD (R223): every whole second of LT, with the samples of the six AC modulators since the last one: voltage of
phases 1 to 3, current of phases 1 to 3. -/
def execAcRecord (samples : List (List Int)) (s : State) : Res := .next <|
  let sec := s.qmLt / 1000000000
  if s.qmUp ∧ s.qm.acSec < sec then
    let a := s.qm.acSec * 1000000000
    let lt := sec * 1000000000
    let st := (List.range 6).map fun k => s.acStream k (samples.map fun x => x.getD k 0)
    let ovr := samples.any fun x => x.any fun v => decide (acRange * 1000 < v.natAbs)
    let s := s.onQm fun q => { q.takeAc ((List.range 3).map fun k => phaseEnergy (st.getD k []) (st.getD (3 + k) [])) with acSec := sec }
    let b := [0x03, 0x01] ++ leNat 2 0 ++ leNat 4 (s.acFlags a lt ovr) ++ leNat 8 lt ++ leNat 8 s.qm.acImp ++ leNat 8 s.qm.acExp ++
      (st.flatMap fun l => leNat 4 (rms l)) ++ leNat 4 (Config.acFreq (st.getD 0 []))
    (s.onQm fun q => { q with lastAc := some (padTo 64 b) }).putRec 3 fun _ => b
  else s

/-! ## Impedance (R221) -/

/-- A least-squares line through weighted points (weight, time, value) taken off: a constant and a linear drift leave
nothing. -/
def detrend (l : List (Rat × Rat × Rat)) : List (Rat × Rat × Rat) :=
  let sum (f : Rat × Rat × Rat → Rat) : Rat := (l.map f).sum
  let w := sum (·.1)
  let t := sum fun p => p.1 * p.2.1
  let tt := sum fun p => p.1 * p.2.1 * p.2.1
  let x := sum fun p => p.1 * p.2.2
  let tx := sum fun p => p.1 * p.2.1 * p.2.2
  let d := w * tt - t * t
  if d = 0 then l
  else
    let b := (w * tx - t * x) / d
    let a := (x - b * t) / w
    l.map fun p => (p.1, p.2.1, p.2.2 - a - b * p.2.1)

/-- The sums of a quantity with the sine and the cosine of 2π·f·(t − E) over [E, end), each sample weighted by its overlap;
f in mHz. -/
def phasor (h : List QSample) (get : QSample → Int) (e b f : Nat) : Rat × Rat :=
  let l := detrend (((h.filter fun x => decide (0 < x.overlap e b)).map fun x =>
    ((x.overlap e b : Rat), (((x.at' + interval / 2 : Nat) : Int) - e : Int), (get x : Rat))))
  let turn (p : Rat × Rat × Rat) : Rat := f * p.2.1 / 1000000000000
  ((l.map fun p => p.1 * p.2.2 * sineOf (turn p)).sum, (l.map fun p => p.1 * p.2.2 * sineOf (turn p + 1 / 4)).sum)

/-- The sweep's next point at the QM: its frequency in mHz, E_k and the end of its eight cycles (R142, R221). -/
def State.sweepPoint (s : State) (w : QStep) : Option (Nat × Nat × Nat) :=
  match sweepFreq (w.sub4 % 2 ^ 24) (w.sub2 % 2 ^ 24) (w.sub2 / 2 ^ 24) w.point with
  | some f =>
    let e := if w.point = 0 then s.epochFrom w.firstJob else w.pointAt
    some (f.toNat, e, (pointEnd e f 0).floor.toNat)
  | none => none

/-- IMPEDANCE_RECORD takes effect: the point's record, and the step goes on to the next point. -/
def State.doImpedance (s : State) (c : Nat) : State :=
  let x := s.qc c
  match x.step with
  | none => s
  | some w =>
    match s.sweepPoint w with
    | none => s
    | some (f, e, b) =>
      let cs := recChans c w.gang
      if s.holds c w.gang b then s.keep (.impedanceRecord c)
      else
        let v := phasor x.hist (·.v) e b f
        let is := cs.map fun m => phasor (s.qc m).hist (·.i) e b f
        let i := ((is.map (·.1)).sum, (is.map (·.2)).sum)
        let d := i.1 * i.1 + i.2 * i.2
        let re := if d = 0 then Config.ratio s.free else (v.1 * i.1 + v.2 * i.2) / d
        let im := if d = 0 then Config.ratio (s.free + 1) else (v.2 * i.1 - v.1 * i.2) / d
        let mag := (wholeOf (sqrtQ (re * re + im * im) * 100000000000)).toNat
        let amp := (wholeOf (2 * sqrtQ d / (max (covered x.hist e b) 1 * 1000))).toNat
        let room := s.recRoom 4
        let n := s.qm.nextRec
        let fl := s.recFlags cs e b w.int false false
        let s := (s.putRec 4 fun _ => [0x04, 0x01] ++ leNat 2 c ++ leNat 2 fl ++ leNat 2 w.point ++ leNat 8 e ++ leNat 4 f ++
          leNat 4 mag ++ leInt 4 (wholeOf (angleOf re im)) ++ leNat 4 amp).draw.draw
        let y := s.qc c
        s.setQc c { y with
          pgap := y.pgap || !room,
          step := some { w with
            firstImp := if room ∧ w.firstImp = 0 then n % 2 ^ 32 else w.firstImp, point := w.point + 1,
            pointAt := epochAfter s.epochNs (pointEnd e f 0) } }

/-- The eight cycles of the sweep's next point have ended. -/
def State.impedanceDue (s : State) (c : Nat) : Bool :=
  (s.qc c).step.any fun w => w.mode == 9 && (s.sweepPoint w).any fun p => decide (p.2.2 ≤ s.qmLt)

def execImpedanceRecord (c : Nat) (s : State) : Res := .next <|
  if s.qmUp ∧ s.chanPop c ∧ s.impedanceDue c then s.doImpedance c else s

/-! ## Batches (R227 to R231) -/

/-- A leaf and an inner node of the Merkle tree (R228). -/
def leafHash (b : List Byte) : List Byte := sha3 (0x00 :: b)
def nodeHash (l r : List Byte) : List Byte := sha3 (0x01 :: (l ++ r))

/-- One level up: nodes pair from left to right, a last node without a partner moves up unchanged. -/
def merkleUp : List (List Byte) → List (List Byte)
  | l :: r :: t => nodeHash l r :: merkleUp t
  | [l] => [l]
  | [] => []

/-- The root over at most 4,096 leaves. -/
def merkleRoot (leaves : List (List Byte)) : List Byte := ((List.range 12).foldl (fun l _ => merkleUp l) leaves).headD []

/-- The steps of an inclusion proof (R231): a side octet and the sibling, none where the node moves up unchanged. -/
def proofSteps : Nat → List (List Byte) → Nat → List (List Byte)
  | 0, _, _ => []
  | n + 1, l, k =>
    if l.length ≤ 1 then []
    else
      let here := if k % 2 = 1 then [0x00 :: l.getD (k - 1) []] else if k + 1 < l.length then [0x01 :: l.getD (k + 1) []] else []
      here ++ proofSteps n (merkleUp l) (k / 2)

/-- The records of a batch, by first record and count. -/
def State.batchRecs (s : State) (first n : Nat) : List Rec := (List.range n).filterMap fun k => lookup? (first + k) s.qm.recs

/-- The flags of a record, by its type (R224). -/
def Rec.flags (r : Rec) : Nat := if r.kind = 1 then fieldAt r.bytes 6 2 else fieldAt r.bytes 4 2

/-- The metrology public key (log 2). -/
def State.metKey (s : State) : List Byte := padTo 1952 (s.partOctets 12)

/-- The QMFW image that a slot of the MRAM holds: as manufactured until it is written (log 2). -/
def State.fwBytes (s : State) (k : Nat) : List Byte := (lookup? k s.qm.fwSlots).getD (s.partOctets (30 + k))

/-- The software name, version and checksum (R245): the checksum is computed from the running image. -/
def State.swName (s : State) : List Byte := padTo 16 (sliceB (s.fwBytes s.qm.active) 16 16)
def State.swVersion (s : State) : List Byte := padTo 8 (sliceB (s.fwBytes s.qm.active) 32 8)
def State.swSum (s : State) : List Byte := sha3 (imgPayload (s.fwBytes s.qm.active))

/-- The header of a batch (R228). -/
def State.batchHeader (s : State) (n : Nat) : List Byte :=
  let rs := s.batchRecs s.qm.unbatched n
  let prev := match lookup? s.qm.lastBat s.qm.bats with
    | some b => sha3 b.header
    | none => List.replicate 32 0
  let f := (if rs.any (fun r => bit r.flags 1) then 1 else 0) + (if rs.any (fun r => bit r.flags 0) then 2 else 0) + (if n = 4096 then 4 else 0)
  [0x51, 0x4D, 0x42, 0x01] ++ leNat 4 n ++ leNat 8 (s.qm.lastBat + 1) ++ leNat 8 s.qm.unbatched ++
    leNat 8 ((rs.head?.map (·.lt)).getD 0) ++ leNat 8 s.qmLt ++ leNat 4 s.qm.evCount ++ leNat 1 s.seal ++ leNat 1 f ++ leNat 2 0 ++
    padTo 32 (merkleRoot (rs.map fun r => leafHash r.bytes)) ++ padTo 32 prev ++ padTo 32 s.swSum ++ padTo 16 (keyId s.metKey)

/-- Records that wait, and whether a batch closes now (R227). -/
def Qm.waiting (q : Qm) : Nat := q.nextRec - q.unbatched
def State.batchDue (s : State) : Bool :=
  decide (0 < s.qm.waiting) && decide (0 < s.qm.freeBats) &&
    (decide (4096 ≤ s.qm.waiting) || s.qm.stalled ||
      (lookup? s.qm.unbatched s.qm.recs).any fun r => decide (r.made + 1000000000 ≤ s.mclkNow))

/-- A batch closes (R227 to R229). -/
def State.closeBatch (s : State) : State :=
  let n := min 4096 s.qm.waiting
  let h := s.batchHeader n
  (s.onQm fun q => { q with
    bats := put q.bats (q.lastBat + 1) ⟨q.unbatched, n, h, Config.mldsaSign 1 metCtx h⟩,
    lastBat := q.lastBat + 1, unbatched := q.unbatched + n,
    stalled := (q.stalled || decide (q.freeBats ≤ 1)) && decide (n < q.waiting) }).checkHold

def execBatchClose (s : State) : Res := .next (if s.qmUp ∧ s.batchDue then s.closeBatch else s)

/-- A batch is there: closed, and not freed and overwritten (R558). -/
def State.batAt (s : State) (n : Nat) : Option Bat :=
  if s.qm.lastBat < n + 512 then lookup? n s.qm.bats else none

/-- A batch record (R229). -/
def Bat.bytes (b : Bat) : List Byte := padTo 160 b.header ++ padTo 3309 b.sig

/-- The inclusion proof of a record (R231): none unless it lies in a closed batch that is still there. -/
def State.proofOf (s : State) (n : Nat) : Option (List Byte) :=
  match s.recAt n, s.qm.bats.find? (fun e => decide (e.2.first ≤ n) && decide (n < e.2.first + e.2.count)) with
  | some _, some (_, b) =>
    let steps := proofSteps 12 ((s.batchRecs b.first b.count).map fun r => leafHash r.bytes) (n - b.first)
    some (leNat 2 (n - b.first) ++ leNat 1 steps.length ++ steps.flatten)
  | _, _ => none

/-- Acknowledgement of batches 1 to n (R232): 5 beyond the last closed or below the last acknowledged one. -/
def State.ackStatus (s : State) (n : Nat) : Nat := if s.qm.lastBat < n ∨ n < s.qm.ackBat then 5 else 0

/-- Free the records and the slots of batches up to n. -/
def State.ackTo (s : State) (n : Nat) : State :=
  let freed := (s.qm.bats.filter fun e => decide (s.qm.ackBat < e.1) && decide (e.1 ≤ n)).flatMap fun e =>
    s.batchRecs e.2.first e.2.count
  (s.onQm fun q => { q with
    ackBat := n, stepUsed := q.stepUsed - (freed.filter fun r => decide (r.kind = 1)).length,
    perUsed := q.perUsed - ((freed.filter fun r => decide (r.kind ≠ 1)).map fun r => recSize r.kind).sum }).checkHold

def State.doAck (s : State) (n : Nat) : State := if s.ackStatus n = 0 then s.ackTo n else s

/-! ## The mailbox's commands in order (R207) -/

/-- SUBSCRIBE: the classes that the QM sends; bits 7 and 6 are zero. -/
def State.doSubscribe (s : State) (mask : Nat) : State :=
  if mask < 64 then (s.onQm fun q => { q with mask := mask }).mailReply 0x03 0 [] else s.mailReply 0x03 5 []

/-- CELL_ID: 24 octets, from the next STEP_START on. -/
def State.doCellId (s : State) (c : Nat) (id : List Byte) : State :=
  if s.chanPop c ∧ id.length ≤ 24 then (s.setQc c { s.qc c with cellNext := padTo 24 id }).mailReply 0x05 0 []
  else s.mailReply 0x05 4 []

/-- The QM carries out a request of the hub and answers it. -/
def State.carry (s : State) (i : Instr) : State :=
  let s := s.answered i
  match i with
  | .mailboxSubscribe mask => s.doSubscribe mask
  | .cellId c id => s.doCellId c id
  | .stepStart c _ _ _ _ _ _ _ _ _ _ => if s.chanPop c then (s.doStepStart i).mailReply 0x06 0 [] else s.mailReply 0x06 4 []
  | .stepClose c next cause endLt =>
    if s.chanPop c ∧ (s.qc c).step.isSome then (s.doClose c next cause endLt).mailReply 0x07 0 [] else s.mailReply 0x07 4 []
  | .ackRecords n => (s.doAck n).mailReply 0x04 (s.ackStatus n) []
  | _ => s

/-- The requests sent before one are carried out first. -/
def State.ahead (s : State) (i : Instr) : State := each (s.flight.takeWhile (· ≠ i)) (fun s j => s.carry j) s

/-- Everything that the hub has to send, in order: what must reach the QM before a request that it sends now. -/
def State.flushMail (s : State) : State := each (s.flight ++ s.lane) (fun s j => s.carry j) s

/-- A request reaches the QM in its order. -/
def State.request (s : State) (i : Instr) : State := if s.qmUp then (s.ahead i).carry i else s

def execStepStart (c row index mode rate gang origin firstJob loop sub4 sub2 : Nat) (s : State) : Res :=
  .next (s.request (.stepStart c row index mode rate gang origin firstJob loop sub4 sub2))
def execStepClose (c next cause endLt : Nat) (s : State) : Res := .next (s.request (.stepClose c next cause endLt))
def execAckRecords (n : Nat) (s : State) : Res := .next (s.request (.ackRecords n))
def execMailboxSubscribe (mask : Nat) (s : State) : Res := .next (s.request (.mailboxSubscribe mask))
def execCellId (c : Nat) (id : List Byte) (s : State) : Res := .next (s.request (.cellId c id))

/-- A command that waited. -/
def State.runHeld (s : State) (i : Instr) : State :=
  match i with
  | .stepStart .. => s.doStepStart i
  | .stepClose .. => s.doStepClose i
  | .periodicRecord c => if s.periodicDue c then s.doPeriodic c else s
  | .impedanceRecord c => s.doImpedance c
  | _ => s

/-- What waited is carried out in its order; what still waits stays. -/
def State.releaseHeld (s : State) : State :=
  let l := s.qm.held
  each l (fun s i => s.runHeld i) (s.onQm fun q => { q with held := [] })

/-! ## Checkpoints and restarts (R201, R226, R239, R251) -/

/-- Write a checkpoint: the integrators, the open steps' starts, the running trims. -/
def State.checkpointNow (s : State) : State :=
  let lt := s.qmLt
  let m := s.mclkNow
  s.onQm fun q => { q with
    checked := true, ckLt := lt, ckAt := m, ckMods := q.mods,
    chans := q.chans.map fun (c, x) => (c, { x with ck := x.acc }) }

/-- CHECKPOINT: every second. -/
def execCheckpoint (s : State) : Res := .next <|
  if s.qmUp ∧ (!s.qm.checked ∨ s.qm.ckAt + 1000000000 ≤ s.mclkNow) then s.checkpointNow else s

/-- The QM restarts: what it holds outside the MRAM is lost, the integrators stand at their checkpoint (R214, R410). -/
def State.qmRestart (s : State) : State :=
  let s := each [1, 2, 3, 4, 5, 6] (fun s n => s.unmark 2 n) s
  s.onQm fun q => { q with
    booted := false, mask := 0, reply := none, port := none, alerts := 0, lateSeen := false, sites := 0, lost := 0, probes := [],
    held := [],
    rots := q.rots.map fun (k, r) => (k, if r.phase = 3 then { r with steps := 0, c := s.mclkNow, gain := 0, offs := 0 }
      else { r with phase := if r.phase = 4 then 4 else 0, next := 0, cAt := none, gain := 0, offs := 0 }) }

/-- A step that is open at a restart (R226): closed with the values at the last checkpoint, INT and cause 4. -/
def State.closeAtCheckpoint (s : State) (c : Nat) : State :=
  let x := s.qc c
  match x.step with
  | none => s
  | some w =>
    let t := max s.qm.ckLt x.winStart
    let late := decide (s.qm.ckLt < x.winStart)
    let s := s.setQc c { x with
      step := some { w with int := true }, acc := if late then { x.acc with q := x.winQ, e := x.winE } else x.ck,
      hist := if late then [] else x.hist.filter fun y => decide (y.at' + interval ≤ t) }
    s.closeQStep c t 4 w.row

/-- The integrators resume from their checkpoint, and an open step goes on in a new record from the restart LT; without
one the window of the next step keeps what the checkpoint holds of it, and the interruption (R225). -/
def State.resumeChan (s : State) (c : Nat) (w : Option QStep) (lt : Nat) : State :=
  let x := s.qc c
  let x := { x with acc := x.ck, wAcc := x.ck, hist := [], mLt := none }
  match w with
  | none =>
    let late := decide (s.qm.ckLt < x.winStart)
    s.setQc c { x with broken := x.begun, winQ := if late then x.ck.q else x.winQ, winE := if late then x.ck.e else x.winE }
  | some w => s.setQc c { x with
      step := some { w with int := true, firstImp := 0 }, winStart := lt, winQ := x.ck.q, winE := x.ck.e, intStart := lt }

/-- MCLK is absent or beyond its limit (R373): the CLK flag applies from now. -/
def State.mclkFault (s : State) : State :=
  if s.qmUp ∧ !s.qm.clk then ((s.onQm fun q => { q with clk := true, clkSince := s.mclkNow }).mark 6 0).alert 3 else s

/-- QM_BOOT (R226, R410); without VIO_M, MCLK reads as absent (R531). -/
def execQmBoot (s : State) : Res := .next <|
  if s.qm.powered ∧ !s.qm.booted then
    let cs := s.qm.chans.map (·.1)
    let steps := cs.map fun c => (s.qc c).step
    let s := each cs (fun s c => s.closeAtCheckpoint c) s
    let lt := s.qmLt
    let s := each (cs.zip steps) (fun s (c, w) => s.resumeChan c w lt) s
    let s := s.onQm fun q => { q with booted := true, modOn := 0x7E }
    if s.qm.vioM then s else s.mclkFault
  else s

/-- QM_WATCHDOG_EXPIRY (R201). -/
def execQmWatchdogExpiry (s : State) : Res := .next (if s.qmUp then s.qmRestart else s)

/-- SITE_FRAMING_PROBE (R410): a site whose lanes reach framing within 10 ms counts as present, and its macro is
configured; the M-MOD of another goes off and is tried again every 1 s. An unpopulated site never frames. -/
def execSiteFramingProbe (n : Nat) (framed : Bool) (s : State) : Res := .next <|
  if s.qmUp ∧ 1 ≤ n ∧ n ≤ 6 ∧ !bit s.qm.sites n ∧ (lookup? n s.qm.probes).all (fun t => decide (t + 1000000000 ≤ s.mclkNow)) then
    s.onQm fun q =>
      let q := { q with probes := put q.probes n s.mclkNow }
      if framed && s.sitePop n then { q with sites := setBit q.sites n, modOn := setBit q.modOn n, macros := setBit q.macros n }
      else { q with modOn := clearBit q.modOn n }
  else s

/-- STREAM_LOSS and STREAM_RETURN (R35): what waits for a sample of the site's channels waits no longer. -/
def execStreamLoss (n : Nat) (s : State) : Res := .next <|
  if s.qmUp ∧ s.framed n then ((s.onQm fun q => { q with lost := setBit q.lost n }).mark 2 n).releaseHeld else s

def execStreamReturn (n : Nat) (s : State) : Res := .next <|
  if s.qmUp ∧ bit s.qm.sites n ∧ bit s.qm.lost n then (s.onQm fun q => { q with lost := clearBit q.lost n }).unmark 2 n else s

/-! ## MCLK and beacons (R37, R373, R391, R392) -/

/-- MCLK_FAULT (R373). -/
def execMclkFault (s : State) : Res := .next s.mclkFault

/-- MCLK_RETURN (R373, R531): 100 ms within the limit; without VIO_M, MCLK reads as absent. -/
def execMclkReturn (s : State) : Res := .next <|
  if s.qmUp ∧ s.qm.clk ∧ s.qm.vioM ∧ s.qm.clkSince + 100000000 ≤ s.mclkNow then
    (s.onQm fun q => { q with clk := false }).unmark 6 0
  else s

/-- Two beacons lose time quality (R392): they disagree with MCLK by more than 100 ppm and 1 µs, or one between them is
missing. -/
def tqLost (m0 l0 n0 m1 l1 n1 : Nat) : Bool :=
  decide ((m1 : Int) - m0 + 10000000 < 10000 * (((l1 : Int) - l0) - ((m1 : Int) - m0)).natAbs) || n1 != (n0 + 1) % 2 ^ 32

/-- The first sample boundary after an MCLK time. -/
def boundaryAfter (t : Nat) : Nat := (t / interval + 1) * interval

/-- A group in clearance hears a beacon (R256): the first whose epoch LT is at least H + 20 ms, within 100 ms, sets C. -/
def Rot.hear (r : Rot) (m lt : Nat) : Rot :=
  if r.phase = 2 ∧ r.cAt.isNone ∧ r.hLt + 20000000 ≤ lt ∧ m ≤ r.h + 100000000 then { r with cAt := some (boundaryAfter m) } else r

/-- The beacon is received at an MCLK time, which does not run back. -/
def State.takeBeacon (s : State) (lt number mclk : Nat) : State :=
  let m := max mclk s.mclkNow
  let s := s.onQm fun q => { q with mclk := m, mclkCnt := s.clock.cnt }
  let bad : Bool := match s.qm.beacons with
    | (m0, l0, n0) :: _ => tqLost m0 l0 n0 m lt number
    | [] => false
  let s := if bad then
      (s.onQm fun q => { q with marks := ⟨1, 0, ((q.beacons.head?.map (·.2.1)).getD 0), some lt⟩ :: q.marks })
    else s
  let s := if bad ∧ !s.qm.tq ∧ !s.qm.lateSeen then s.alert 2 else s
  let s := s.setClock { s.clock with beacon := none }
  s.onQm fun q =>
    { q with tq := bad, lateSeen := false, beacons := ((m, lt, number) :: q.beacons).take 16,
             rots := q.rots.map fun (k, r) => (k, r.hear m lt) }

/-- Every STEP_CLOSE that the hub must send before the beacon of an epoch has been sent (R256). -/
def State.closesSent (s : State) (lt : Nat) : Bool :=
  s.lane.all fun i => match i with
    | .stepClose _ _ _ e => decide (lt < e + 20000000)
    | _ => true

/-- BEACON: the hub sends one per epoch unless it is withheld (R391). It takes no credit and gets no reply (R207). -/
def execBeacon (lt number mclk : Nat) (s : State) : Res := .next <|
  if s.qmUp ∧ s.fw ∧ s.clock.beacon = some lt ∧ s.closesSent lt then
    (s.ahead (.beacon lt number mclk)).takeBeacon lt number mclk
  else s

/-! ## Frames to the hub (R208, R219, R514) -/

/-- A frame of the QM reaches the hub: the class is subscribed, both run. -/
def State.hears (s : State) (cls : Nat) : Bool := s.qmUp && s.fw && bit s.qm.mask cls

/-- The class of a record (R207). -/
def recClass (kind : Nat) : Nat := if kind = 1 then 0 else if kind = 2 then 1 else if kind = 3 then 2 else 3

/-- QM_RECORD_FRAME and QM_BATCH_RECORD_FRAME (R208): the hub has the record for cursors and streams. -/
def execQmRecordFrame (n : Nat) (s : State) : Res := .next <|
  match s.recAt n with
  | some r => if s.hears (recClass r.kind) then { s.heard with net := { s.net with gotRec := max n s.net.gotRec } } else s
  | none => s

def execQmBatchRecordFrame (n : Nat) (s : State) : Res := .next <|
  match s.batAt n with
  | some _ => if s.hears 4 then { s.heard with net := { s.net with gotBat := max n s.net.gotBat } } else s
  | none => s

/-- A channel's mirrors reach the hub, and over its link the die (R219): tags 5 and 6, and the temperature of R349. -/
def State.putMirror (s : State) (epochLt c : Nat) : State :=
  let x := s.qc c
  let i := 0x5100 + c
  let s := (((s.wr i 1 met x.mV).wr i 2 met x.mI).wr i 3 met x.wTemp).wr i 4 met x.mQ
  let s := (s.wr i 5 met x.mE).wr i 6 met epochLt
  if s.linkOk (dieOf c) .toDie then
    let ch := s.chan c
    (s.setChan c { ch with mTemp := some x.wTemp, mV := x.mV, mI := x.mI, mNew := true }).compareMirror epochLt ⟨c, x.mV, x.mI, x.wTemp⟩
  else s

/-- MIRROR_SET: the means that the QM formed for an epoch. -/
def execMirrorSet (epochLt : Nat) (s : State) : Res := .next <|
  if s.hears 5 then
    each (s.metChans.filter fun c => (s.qc c).mLt == some epochLt) (fun s c => s.putMirror epochLt c) s.heard
  else s

/-- What an event does at the hub (R197, R233, R257 to R262). -/
def State.takeEvent (s : State) : QmEvent → State
  | .backpressure on => (s.noteAt 7 noChan 0x5001 (leNat 1 (if on then 1 else 0))).backpressure on
  | .calibration kind site group modulator =>
    s.noteAt 7 noChan 0x5002 ([Config.calKind kind] ++ leNat 1 site ++ leNat 1 group ++ leNat 1 modulator)

/-- METROLOGY_EVENT: an event that the QM has sent reaches the hub. -/
def execMetrologyEvent (e : QmEvent) (s : State) : Res := .next <|
  if s.qmUp ∧ s.fw ∧ s.qm.events.contains e then
    (s.onQm fun q => { q with events := q.events.erase e }).heard.takeEvent e
  else s

end Sys2Proof.Machine
end

