-- ==== Sys2Proof/Machine/Seal.lean ====
section
/-! DEFINITION. The seal of the measuring part (R236 to R244, R248, R249): its states, adjustment tokens, the audit trail,
software images, and what VMET does. -/

namespace Sys2Proof.Machine

/-! ## Event counter and audit trail (R242 to R244) -/

/-- The event counter counts one change, and stops at its end (R242). -/
def State.countEvent (s : State) : State := s.onQm fun q => { q with evCount := min (q.evCount + 1) 4294967295 }

/-- Free audit entries, and whether the trail counts as full (R243). -/
def State.auditFree (s : State) : Nat := 4096 - (s.qm.auditNext - 1 - s.qm.auditAck)
def State.auditFull (s : State) : Bool := decide (s.auditFree < 2)

/-- Write an audit entry (R243): kind, target, authority slot (0xFF none), old and new value, nonce of the token. -/
def State.auditAdd (s : State) (kind target slot : Nat) (old new' : List Byte) (nonce : Nat) : State :=
  let e : Audit := ⟨s.qm.auditNext, s.qm.evCount, s.qmLt, kind, s.seal, target, slot, s.tqNow, old, new', nonce⟩
  let s := s.onQm fun q => { q with audit := e :: q.audit, auditNext := q.auditNext + 1 }
  if s.auditFull then s.alert 1 else s

/-- The octets of an audit entry. -/
def Audit.bytes (e : Audit) : List Byte :=
  leNat 4 e.seq ++ leNat 4 e.evCount ++ leNat 8 e.lt ++ leNat 1 e.kind ++ leNat 1 e.sealSt ++ leNat 2 e.target ++ leNat 1 e.slot ++
    leNat 1 (if e.tq then 1 else 0) ++ leNat 2 0 ++ padTo 16 e.old ++ padTo 16 e.new' ++ leNat 8 e.nonce

/-- An audit entry is there: written, and not overwritten. -/
def State.auditAt (s : State) (n : Nat) : Option Audit :=
  if s.qm.auditNext ≤ n + 4096 then s.qm.audit.find? (·.seq == n) else none

/-! ## Leaving ADJUSTMENT and activation (R239 to R241) -/

/-- The inactive slot becomes active: an audit entry, and the counter rises to the image's value (R241, R483). -/
def State.swapFw (s : State) : State :=
  let k := 1 - s.qm.active
  let r := imgRollback (s.fwBytes k)
  (s.onQm fun q => { q with
    active := k, rollback := max q.rollback r, announced := none, image := {}, verified := false }).auditAdd 6 0 0xFF [] [] 0

/-- Activation: a last checkpoint, then the QM restarts (R201, R226, R241). -/
def State.activate (s : State) : State := if s.qm.verified then s.checkpointNow.swapFw.qmRestart else s

/-- The part leaves ADJUSTMENT for SEALED with a cause: 0 token, 1 strap, 2 expiry, 3 power (R239). -/
def State.sealAgain (s : State) (cause slot nonce : Nat) : State :=
  let s := ((s.onQm fun q => { q with sealSt := 1, adjUntil := none, leavePower := false }).unmark 4 0).alert 0
  s.auditAdd 2 cause slot [] [] nonce

def State.leave (s : State) (cause slot nonce : Nat) : State := (s.sealAgain cause slot nonce).activate

/-- The validity has elapsed. -/
def State.expire (s : State) : State := (s.onQm fun q => { q with expiredAt := some s.mclkNow }).leave 2 0xFF 0

/-! ## Calibration items (R248, R249, R251) -/

/-- An item number of R248. -/
def itemOk (item : Nat) : Bool :=
  let n := item % 4096
  match item / 4096 with
  | 0 => decide (1 ≤ n / 512) && decide (n / 512 ≤ 6) && decide (n % 256 ≤ 140) && !(bit n 8 && decide (136 ≤ n % 256))
  | 1 => decide (1 ≤ n / 512) && decide (n / 512 ≤ 6) && decide (n % 512 ≤ 5)
  | 2 => decide (n ≤ 383)
  | 3 => decide (n ≤ 5)
  | 4 => decide (n ≤ 32)
  | _ => false

/-- A value has the layout of its item. -/
def itemLayout (item : Nat) (v : List Byte) : Bool :=
  v.length == 16 &&
    match item / 4096 with
    | 2 => zeroB v 8 8
    | 4 => if item % 4096 = 32 then zeroB v 4 12 && (fieldAt v 0 4 == 0 || (decide (2 ≤ fieldAt v 0 4) && decide (fieldAt v 0 4 ≤ 32)))
      else zeroB v 8 8
    | _ => zeroB v 12 4

/-- The class 0 trims of a modulator in a range: 0 voltage or temperature, 1 current. -/
def State.setTrim (s : State) (site range m : Nat) : Trim :=
  let v := s.item (512 * site + 256 * range + m)
  { offs := itemInt v 0, gain := fieldAt v 4 4 }

/-- A modulator's running trims and marks, key 256 × site + modulator: without a calibration the trims of the set (R251). -/
def State.modl (s : State) (site m : Nat) : Modl :=
  (lookup? (256 * site + m) s.qm.mods).getD { volt := s.setTrim site 0 m, amp := s.setTrim site 1 m }

/-- The running trims of a range. -/
def Modl.trim (x : Modl) (range : Nat) : Trim := if range = 1 then x.amp else x.volt
def Modl.setTrim (x : Modl) (range : Nat) (t : Trim) : Modl := if range = 1 then { x with amp := t } else { x with volt := t }

/-- The quadratic term of a modulator, always the set's (R251). -/
def State.quadOf' (s : State) (site range m : Nat) : Int := itemInt (s.item (512 * site + 256 * range + m)) 8

/-- Trims applied to an input in µV (R209): offset, gain, then the quadratic term of the offset-corrected input (log 49). -/
def Trim.apply (t : Trim) (quad : Int) (x : Rat) : Rat :=
  let u := x + (t.offs : Rat) / 1000
  u * t.gain / 2147483648 + quad * u * u / 1000000000000000

/-- The calibrated input of a modulator in µV, from its filter's output in nV. -/
def State.conv (s : State) (site range m : Nat) (raw : Int) : Rat :=
  ((s.modl site m).trim range).apply (s.quadOf' site range m) ((raw : Rat) / 1000)

/-- The input ranges of R212 in µV: 0 voltage, 1 current, 2 temperature. -/
def inputLo (kind : Nat) : Rat := if kind = 0 then -500000 else if kind = 1 then -100000 else 0
def inputHi (kind : Nat) : Rat := if kind = 0 then 5500000 else if kind = 1 then 100000 else 1500000

/-- A value clipped to its range, and whether it lay beyond (R213). -/
def clipIn (kind : Nat) (x : Rat) : Rat := max (inputLo kind) (min (inputHi kind) x)
def beyondIn (kind : Nat) (x : Rat) : Bool := decide (x < inputLo kind) || decide (inputHi kind < x)

/-- A channel's current in 10 nA from its shunt voltage in µV, with the class 2 item (R248); a shunt of 0 gives a free
value (log 49). -/
def State.shuntAmps (s : State) (c : Nat) (uv : Rat) : Rat :=
  let r := fieldAt (s.item (8192 + c)) 0 8
  if r = 0 then Config.ratio s.free else uv * 100000000000000 / r

/-- The temperature in m°C of an input in µV (R211, R248): by the class 4 table, or linearly as in R160. -/
def State.metTemp (s : State) (uv : Rat) : Int :=
  let n := fieldAt (s.item (16384 + 32)) 0 4
  let x := wholeOf uv
  if n = 0 then quot (x - 500000) 10
  else
    match (List.range (min n 32)).map fun k => let v := s.item (16384 + k); (itemInt v 0, itemInt v 4) with
    | [] => 0
    | p :: ps => if x < p.1 then p.2 else curveWalk x (p :: ps)

/-- The value of a reference point in µV (R248): points 0 and 1 voltage, 2 and 3 current, 4 and 5 temperature. -/
def State.refPoint (s : State) (site k : Nat) : Rat :=
  let v := s.item (4096 + 512 * site + k)
  (ofLeInt (sliceB v 0 8) : Rat) / 1000000 * (1 + (itemInt v 8 : Rat) * Config.refKelvin s.free / 1000000000)

def State.setModl (s : State) (site m : Nat) (x : Modl) : State :=
  s.onQm fun q => { q with mods := put q.mods (256 * site + m) x }

/-- Write an item: one value, which replaces the previous one for good (R249). A class 0 write replaces the running trims
of its modulator at once (R251). -/
def State.writeItem (s : State) (k : Nat) (v : List Byte) : State :=
  let s := s.onQm fun q => { q with cal := put q.cal k v, calGen := (q.calGen + 1) % 2 ^ 32 }
  if k < 4096 then
    let x := s.modl (k / 512) (k % 256)
    s.setModl (k / 512) (k % 256) (x.setTrim (k / 256 % 2) { offs := itemInt v 0, gain := fieldAt v 4 4 })
  else s

/-! ## Tokens (R237, R238) -/

/-- The body length of a token kind. -/
def bodyLenOf (kind : Nat) : Option Nat :=
  match kind with
  | 1 => some 4
  | 2 => some 0
  | 3 => some 4
  | 4 => some 20
  | 5 => some 36
  | 6 => some 36
  | _ => none

/-- The octets that a token's signature covers (R237). -/
def tokenSigned (t : Token) : List Byte :=
  leNat 1 t.kind ++ leNat 1 t.slot ++ leNat 2 t.bodyLen ++ leNat 8 t.nonce ++ leNat 4 t.evCount ++ padTo 16 t.keyId ++ t.body ++ t.pubKey

/-- The octets of a token as a token. -/
def tokenOf (b : List Byte) : Token :=
  let n := fieldAt b 2 2
  { kind := fieldAt b 0 1, slot := fieldAt b 1 1, bodyLen := n, nonce := fieldAt b 4 8, evCount := fieldAt b 12 4,
    keyId := sliceB b 16 16, body := sliceB b 32 n, pubKey := sliceB b (32 + n) 1952, sig := b.drop (32 + n + 1952) }

/-- The hash in an authority slot: slot 0 from manufacture (R238), others once set. -/
def State.authority (s : State) (k : Nat) : Option (List Byte) :=
  match lookup? k s.qm.keys with
  | some h => some h
  | none => if k = 0 then some (padTo 32 (s.partOctets 13)) else none

/-- The nonce in force (log 2 until one has been drawn). -/
def State.metNonce (s : State) : Nat := s.qm.nonce.getD (ofLe (padTo 8 (s.partOctets 14)))

/-- The seal state admits a kind (R237, R242). -/
def State.admits (s : State) (kind : Nat) : Bool :=
  match kind with
  | 1 => s.seal == 1 && s.qm.adjLevel
  | 2 => s.seal == 2
  | 3 => true
  | _ => s.seal != 1 && s.qm.evCount != 4294967295

/-- The checks of R238, in order: a reply status, 0 when all pass. -/
def State.tokenCheck (s : State) (t : Token) : Nat :=
  if bodyLenOf t.kind ≠ some t.bodyLen ∨ t.body.length ≠ t.bodyLen ∨ t.pubKey.length ≠ 1952 ∨ t.sig.length ≠ 3309 then 2
  else if s.authority t.slot ≠ some (sha3 t.pubKey) ∨ 3 < t.slot then 2
  else if !mldsaVerify t.pubKey metCtx (tokenSigned t) t.sig then 2
  else if t.nonce ≠ s.metNonce ∨ t.evCount ≠ s.qm.evCount ∨ t.keyId ≠ keyId s.metKey then 2
  else if !s.admits t.kind then 1
  else if s.auditFull ∧ t.kind ≠ 2 ∧ t.kind ≠ 3 then 3
  else 0

/-- The body of a token lies in its range (R237, R244, R248); 5 otherwise. -/
def State.bodyCheck (s : State) (t : Token) : Nat :=
  let b := t.body
  let ok : Bool := match t.kind with
    | 1 => decide (60 ≤ fieldAt b 0 4) && decide (fieldAt b 0 4 ≤ 28800)
    | 3 => decide (s.qm.auditAck < fieldAt b 0 4) && decide (fieldAt b 0 4 < s.qm.auditNext)
    | 4 => itemOk (fieldAt b 0 2) && zeroB b 2 2 && itemLayout (fieldAt b 0 2) (b.drop 4)
    | 5 => decide (fieldAt b 0 1 ≤ 3) && zeroB b 1 3
    | 6 => decide (1 ≤ fieldAt b 0 4) && decide (fieldAt b 0 4 ≤ 1048576)
    | _ => true
  if ok then 0 else 5

/-- What an accepted token does (R239, R241, R244, R249). -/
def State.tokenEffect (s : State) (t : Token) : State :=
  let b := t.body
  match t.kind with
  | 1 =>
    let s := s.onQm fun q => { q with sealSt := 2, adjUntil := some (s.mclkNow + fieldAt b 0 4 * 1000000000), leftAt := none }
    ((s.mark 4 0).alert 0).auditAdd 1 0 t.slot [] [] t.nonce
  | 2 => (s.onQm fun q => { q with leftAt := some s.mclkNow }).leave 0 t.slot t.nonce
  | 3 => (s.onQm fun q => { q with auditAck := fieldAt b 0 4 }).auditAdd 7 0 t.slot [] [] t.nonce
  | 4 =>
    let k := fieldAt b 0 2
    ((s.writeItem k (b.drop 4)).countEvent).auditAdd 3 k t.slot (s.item k) (b.drop 4) t.nonce
  | 5 =>
    let k := fieldAt b 0 1
    let old := ((s.authority k).getD []).take 16
    ((s.onQm fun q => { q with keys := put q.keys k (b.drop 4) }).countEvent).auditAdd 4 k t.slot old ((b.drop 4).take 16) t.nonce
  | 6 => s.onQm fun q => { q with
      announced := some (fieldAt b 0 4, b.drop 4), image := { total := fieldAt b 0 4, parts := [] }, verified := false }
  | _ => s

/-- A new nonce (R238; log 5). -/
def State.newMetNonce (s : State) : State := s.draw.onQm fun q => { q with nonce := some (Config.freeNonce s.free).toNat }

/-- A refused token is counted and changes nothing else. -/
def State.refuseToken (s : State) : State := s.onQm fun q => { q with refused := (q.refused + 1) % 2 ^ 32 }

/-- The validity elapses in this millisecond of MCLK (R240). -/
def State.expiring (s : State) : Bool := s.qm.sealSt == 2 && s.qm.adjUntil.any fun t => decide (t / 1000000 ≤ s.mclkNow / 1000000)

/-- The validity elapses, or has elapsed, in this millisecond: a token loses against it (R240). -/
def State.expiryNow (s : State) : Bool := s.expiring || s.qm.expiredAt.any fun t => t / 1000000 == s.mclkNow / 1000000

/-- The hub shows the status of the last REQ_ADJUST, 0x5441, when its reply arrives. -/
def State.adjustReply (s : State) (status : Nat) : State :=
  let s := s.mailReply 0x08 status []
  if s.fw then s.wr 0x5441 0 dev status else s

/-- The QM takes a token (R238, R240): the status it replies. -/
def State.tokenStatus (s : State) (t : Token) : Nat :=
  if s.tokenCheck t ≠ 0 then s.tokenCheck t else if s.expiryNow then 1 else s.bodyCheck t

/-- The QM takes a token. -/
def State.takeToken (s : State) (t : Token) : State :=
  let st := s.tokenStatus t
  if st = 0 then ((s.tokenEffect t).newMetNonce).adjustReply 0
  else
    let s := if s.tokenCheck t = 0 ∧ s.expiring then s.expire else s
    s.refuseToken.adjustReply st

/-- A token of a kind arrives. -/
def State.tokenIn (s : State) (kind : Nat) (t : Token) : State :=
  if s.qmUp then s.flushMail.takeToken { t with kind := kind } else s

def execEnterToken (t : Token) (s : State) : Res := .next (s.tokenIn 1 t)
def execLeaveToken (t : Token) (s : State) : Res := .next (s.tokenIn 2 t)
def execAuditAcknowledge (t : Token) (s : State) : Res := .next (s.tokenIn 3 t)
def execCalibrationWrite (t : Token) (s : State) : Res := .next (s.tokenIn 4 t)
def execAuthorityKeySet (t : Token) (s : State) : Res := .next (s.tokenIn 5 t)
def execSoftwareAnnounce (t : Token) (s : State) : Res := .next (s.tokenIn 6 t)

/-! ## Software images (R241, R242) -/

/-- An image passes: its length is the announced one by construction, its hash is the announced one, and the checks of
R477 pass for QMFW. -/
def State.fwOk (s : State) (hash img : List Byte) : Bool :=
  sha3 img == hash && decide (s.imageCheck 3 [dieStep 7] img = 0)

/-- A complete image is verified: it waits in the inactive slot, is counted and audited; one that fails is discarded. While
the audit trail is full the last free entry is kept for the leave: the image waits for an acknowledgement (R243, log 65). -/
def State.verifyFw (s : State) (hash img : List Byte) : State × Nat :=
  if s.auditFull then (s.onQm fun q => { q with image := { q.image with parts := q.image.parts.dropLast } }, 3)
  else if s.fwOk hash img then
    (((s.onQm fun q => { q with fwSlots := put q.fwSlots (1 - q.active) img, verified := true }).countEvent).auditAdd 5 0 0xFF [] [] 0, 0)
  else (s.onQm fun q => { q with announced := none, image := {} }, 5)

/-- An image segment (R241): 1 while the seal forbids it, 4 without an announced image, 5 outside its length. -/
def State.takeSegment (s : State) (offset : Nat) (data : List Byte) : State × Nat :=
  if s.seal = 1 then (s, 1)
  else
    match s.qm.announced with
    | none => (s, 4)
    | some (len, hash) =>
      if s.qm.verified then (s, 4)
      else if len < offset + data.length ∨ data = [] then (s, 5)
      else
        let im : Pieces := { s.qm.image with parts := s.qm.image.parts ++ [(offset, data)] }
        let s := s.onQm fun q => { q with image := im }
        match im.whole with
        | some img => s.verifyFw hash img
        | none => (s, 0)

/-- REQ_ADJUST_IMAGE_SEGMENT: subtype 2 of REQ_ADJUST, 5 to 8,192 octets in all (R207). -/
def execReqAdjustImageSegment (offset : Nat) (data : List Byte) (s : State) : Res := .next <|
  if s.qmUp then
    if data.length + 8 ≤ 8192 then
      let r := s.flushMail.takeSegment offset data
      r.1.adjustReply r.2
    else s.onQm fun q => { q with rejected := (q.rejected + 1) % 2 ^ 32 }
  else s

/-! ## The strap and the validity (R236, R239, R240) -/

/-- A strap's release in the millisecond of a leave token: the one leave entry carries the cause strap (R240). -/
def State.recause (s : State) : State :=
  match s.qm.leftAt with
  | some t =>
    if t / 1000000 = s.mclkNow / 1000000 then
      let a := (s.qm.audit.find? (·.kind == 2)).map (·.seq)
      s.onQm fun q => { q with audit := q.audit.map fun e => if a = some e.seq then { e with target := 1 } else e }
    else s
  | none => s

/-- A new level of ADJ_EN is accepted. -/
def State.acceptLevel (s : State) (l : Bool) : State :=
  let s := s.onQm fun q => { q with adjLevel := l, adjSame := 0 }
  if l then s else if s.seal = 2 then s.leave 1 0xFF 0 else s.recause

/-- A sample of ADJ_EN is due: 1 ms after the last. -/
def State.adjDue (s : State) : Bool := s.qm.adjAt.all fun t => decide (t + 1000000 ≤ s.mclkNow)

/-- ADJ_EN_CHANGE (R236): one sample per ms; a change is accepted after 10 equal samples in a row. Without VIO_M the input
reads low (R531). The tenth low sample in the millisecond of a leave token counts also while the leave restarts the QM
(R240). -/
def execAdjEnChange (level : Bool) (s : State) : Res := .next <|
  let l := level && s.qm.vioM
  if s.qm.powered ∧ s.adjDue ∧ (s.qmUp ∨ s.qm.leftAt.isSome) then
    let s := s.onQm fun q => { q with adjAt := some s.mclkNow }
    if l = s.qm.adjLevel then s.onQm fun q => { q with adjSame := 0 }
    else if 9 ≤ s.qm.adjSame then s.acceptLevel l
    else s.onQm fun q => { q with adjSame := q.adjSame + 1 }
  else s

/-- ADJUSTMENT_EXPIRY (R239): the validity has elapsed on MCLK. -/
def execAdjustmentExpiry (s : State) : Res := .next <|
  if s.qmUp ∧ s.seal = 2 ∧ s.qm.adjUntil.any (fun t => decide (t ≤ s.mclkNow)) then s.expire else s

/-! ## VMET (R201, R226, R239, R241, R251, R252) -/

/-- Trims restored from a checkpoint count as 600 s old (R262). -/
def Trim.restored (x : Trim) (now : Nat) : Trim := { x with date := some ((now : Int) - 600000000000) }
def Modl.restored (x : Modl) (now : Nat) : Modl := { volt := x.volt.restored now, amp := x.amp.restored now }

/-- The rotation at VMET power-on: every group on its own modulators, the counts at zero. -/
def State.rotationReset (s : State) : State :=
  let m := s.mclkNow
  s.onQm fun q => { q with
    rots := [], mods := if q.checked then q.ckMods.map fun (k, x) => (k, x.restored m) else [],
    cycles := [], abandons := [], driftEvents := [] }

/-- VMET_POWER_ON: the QM boots from MRAM; a leave for want of power is written, and an image that waits is activated
when ADJUSTMENT was left, or on a D part. -/
def execVmetPowerOn (vioM : Nat) (s : State) : Res := .next <|
  if s.qm.powered then s
  else
    let s := (s.onQm fun q => { q with powered := true, vioM := decide (bankClass vioM ≠ 0), bankM := { cls := bankClass vioM, since := s.clock.cnt } }).qmRestart.rotationReset
    let s := if s.vsys then s.supplyNote 9 false else s
    let s := if s.qm.leavePower then s.sealAgain 3 0xFF 0 else s
    if s.qm.verified then s.swapFw else s

/-- VMET_LOSS (R531): the QM stops. -/
def execVmetLoss (s : State) : Res := .next <|
  if s.qm.powered then
    let s := if s.vsys then s.supplyNote 9 true else s
    s.qmRestart.onQm fun q => { q with powered := false, leavePower := decide (q.sealSt = 2), modOn := 0, macros := 0, markers := [] }
  else s

end Sys2Proof.Machine
end

