-- ==== Sys2Proof/Machine/Rotation.lean ====
section
/-! DEFINITION. Calibration under live measurement (chapter 8): the rotation of the spare modulators, the calibration of a
freed one, the ages of trims. -/

namespace Sys2Proof.Machine

/-! ## Groups (R252) -/

/-- The inputs of a group, and its modulators at VMET power-on. -/
def groupInputs (g : Nat) : Nat := if g = 8 then 4 else 16
def homeMods (g : Nat) : List Nat := (List.range (groupInputs g)).map ((if g = 8 then 136 else 16 * g) + ·)
def homeSpare (g : Nat) : Nat := if g = 8 then 140 else 128 + g

/-- The modulators that serve a group's inputs, and its spare. -/
def Rot.serving (x : Rot) (g : Nat) : List Nat := if x.mods = [] then homeMods g else x.mods
def Rot.spareOf (x : Rot) (g : Nat) : Option Nat := if x.moved then x.spare else some (homeSpare g)

/-- The group of a modulator, which it never leaves. -/
def groupOfMod (m : Nat) : Nat := if m < 128 then m / 16 else if m < 136 then m - 128 else 8

/-- The kind of an input: 0 voltage, 1 current, 2 temperature; and the range of its trims (R248). -/
def inputKind (g p : Nat) : Nat := if g = 8 then 2 else p % 2
def rangeOf (kind : Nat) : Nat := if kind = 1 then 1 else 0

/-- The channels of an input: its channel, or, for a temperature lane, the 16 it serves in turn (R211). -/
def inputChans (site g p : Nat) : List Nat :=
  if g = 8 then (List.range 16).map fun k => chanOf site (16 * p + k) else [chanOf site (8 * g + p / 2)]

/-- The next input in cyclic order. -/
def nextInput (g p : Nat) : Nat := (p + 1) % groupInputs g

/-- A calibration event goes to the hub (R257 to R262). -/
def State.calEvent (s : State) (kind site g m : Nat) : State :=
  s.onQm fun q => { q with events := q.events ++ [.calibration kind site g m] }

/-- The rotation of a group runs: the QM measures and the macro frames. -/
def State.rotates (s : State) (site g : Nat) : Bool := s.qmUp && s.sitePop site && s.framed site && decide (g ≤ 8)

/-- Count one more of a site. -/
def countSite (t : Tbl Nat) (site : Nat) : Tbl Nat := put t site ((look 0 t site + 1) % 2 ^ 32)

/-! ## The cycle (R253 to R261) -/

/-- The fit window: 16,000 sample intervals. -/
def fitWindow : Nat := 16000 * interval

/-- OVERLAP_START: at a sample boundary S, the one from which the cycle may start or a later one. -/
def execOverlapStart (site g : Nat) (s : State) : Res := .next <|
  let x := s.rot site g
  if s.rotates site g ∧ x.phase = 0 ∧ (x.spareOf g).isSome ∧ x.next ≤ s.mclkNow then
    let t := max x.next (s.mclkNow / interval * interval)
    s.setRot site g { x with phase := 1, s := t, sLt := s.qm.ltOf t, fit := {} }
  else s

/-- The cycle is abandoned, and the next may start at an MCLK time: the fourth in a row on one input moves the spare on
(R261). The spare keeps its trims. -/
def State.abandonCycle (s : State) (site g next : Nat) : State :=
  let s := s.onQm fun q => { q with abandons := countSite q.abandons site }
  let x : Rot := { s.rot site g with phase := 0, next := next, cAt := none, gain := 0, offs := 0 }
  if 4 ≤ x.abandons + 1 then
    (s.setRot site g { x with abandons := 0, input := nextInput g x.input }).calEvent 3 site g ((x.serving g).getD x.input 0)
  else s.setRot site g { x with abandons := x.abandons + 1 }

/-- The limit of the fit residual, in µV (R254). -/
def residualLimit (kind : Nat) : Rat := if kind = 0 then 40 else if kind = 1 then 1 else 50

/-- The corrections of a fit (R254), gain and offset in µV, by least squares: with a gain when the input spans at least
10 % of its range. -/
def Fit.solve (f : Fit) (kind : Nat) : Rat × Rat :=
  let n : Rat := f.n
  let d := n * f.xx - f.x * f.x
  if 10 * (f.hi - f.lo) < inputHi kind - inputLo kind ∨ d = 0 then (0, (f.y - f.x) / n)
  else
    let a := (n * f.xy - f.x * f.y) / d
    (a - 1, (f.y - a * f.x) / n)

/-- The mean square of the difference between the corrected spare and W, in µV². -/
def Fit.residual (f : Fit) (gain offs : Rat) : Rat :=
  let a := 1 + gain
  (f.yy - 2 * a * f.xy - 2 * offs * f.y + a * a * f.xx + 2 * a * offs * f.x + f.n * offs * offs) / f.n

/-- A sample of the window enters the fit: the spare's reading and W's. -/
def Fit.take (f : Fit) (x y : Rat) : Fit :=
  { n := f.n + 1, x := f.x + x, y := f.y + y, xx := f.xx + x * x, xy := f.xy + x * y, yy := f.yy + y * y,
    lo := if f.n = 0 then y else min f.lo y, hi := if f.n = 0 then y else max f.hi y }

/-- The samples of the window have come: a chain's delay has passed, and none of the input's channels owes one. -/
def State.windowDone (s : State) (site g : Nat) (x : Rot) : Bool :=
  decide (x.s + fitWindow + chainDelay ≤ s.mclkNow + interval / 2) &&
    (inputChans site g x.input).all fun c => !s.sampleDue c || decide (x.s + fitWindow ≤ s.sampleStart)

/-- PROVISIONAL_TAKEOVER: from H the spare's samples stand, or the cycle is abandoned at H (R253, R254). -/
def execProvisionalTakeover (site g : Nat) (s : State) : Res := .next <|
  let x := s.rot site g
  if s.rotates site g ∧ x.phase = 1 ∧ s.windowDone site g x then
    let h := x.s + fitWindow
    let kind := inputKind g x.input
    let r := x.fit.solve kind
    if x.fit.n = 0 ∨ residualLimit kind * residualLimit kind < x.fit.residual r.1 r.2 then s.abandonCycle site g (boundaryAfter h)
    else
      s.setRot site g { x with phase := 2, h := h, hLt := s.qm.ltOf h, cAt := none, gain := r.1, offs := r.2, ramp := x.input }
  else s

/-- C (R256): after the first beacon whose epoch LT is at least H + 20 ms, or 100 ms after H without one. -/
def State.commitAt (s : State) (x : Rot) : Option Nat :=
  match x.cAt with
  | some c => some c
  | none =>
    let c := boundaryAfter (x.h + 100000000)
    if c ≤ s.mclkNow then some c else none

/-- A milestone of the overlapped input's channel ended within [S, H] (R260); for a slave the master's count. -/
def State.milestoneIn (s : State) (site g : Nat) (x : Rot) : Bool :=
  (inputChans site g x.input).any fun c =>
    s.qm.closes.any fun e => e.1 == s.master c && decide (x.sLt ≤ e.2) && decide (e.2 ≤ x.hLt)

/-- A sample with the working modulator's readings. -/
def QSample.restoreW (y : QSample) : QSample := { y with v := y.wv, i := y.wi, acc := y.wAcc }

/-- The working modulator's samples from H replace the provisional ones of a channel (R256). -/
def QChan.restoreW (x : QChan) (h kind : Nat) : QChan :=
  if kind = 2 then { x with temp := x.wTemp }
  else { x with acc := x.wAcc, hist := x.hist.map fun y => if h ≤ y.m then y.restoreW else y }

/-- The spare's samples from H stand. -/
def QChan.keepSpare (x : QChan) (kind : Nat) : QChan := if kind = 2 then { x with wTemp := x.temp } else { x with wAcc := x.acc }

/-- The drift limit in µV (R257), for a mean reading in µV. -/
def driftLimit (kind : Nat) (mean : Rat) : Rat :=
  let m := max mean (-mean)
  if kind = 0 then 5 + 3 * m / 1000000 else if kind = 1 then 1 / 10 + 3 * m / 1000000 else 50

/-- The drift check of a commit on the working modulator: an event and a count, and the suspect mark at the second time
in a row. -/
def State.driftCheck (s : State) (site g w : Nat) (x : Rot) : State :=
  let m := s.modl site w
  if driftLimit (inputKind g x.input) (x.fit.y / x.fit.n) < max x.offs (-x.offs) then
    let s := (s.onQm fun q => { q with driftEvents := countSite q.driftEvents site }).calEvent 0 site g w
    if 1 ≤ m.drifts then
      (s.setModl site w { m with drifts := m.drifts + 1, suspect := true, passes := 0, lastRun := s.mclkNow }).calEvent 1 site g w
    else s.setModl site w { m with drifts := m.drifts + 1 }
  else s.setModl site w { m with drifts := 0 }

/-- A commit: the spare serves the input, W is freed and calibrated; a W that is now suspect leaves the group without a
spare (R259). -/
def State.commitCycle (s : State) (site g c : Nat) : State :=
  let x := s.rot site g
  let w := (x.serving g).getD x.input 0
  let n := (x.spareOf g).getD 0
  let s := each (inputChans site g x.input) (fun s m => s.setQc m ((s.qc m).keepSpare (inputKind g x.input))) s
  let s := (s.onQm fun q => { q with cycles := countSite q.cycles site }).driftCheck site g w x
  let bad := (s.modl site w).suspect
  s.setRot site g { x with
    mods := (x.serving g).set x.input n, spare := none, moved := true, phase := if bad then 4 else 3, c := c, cAt := none,
    next := c + 10000000000, freed := w, steps := 0, abandons := 0, input := nextInput g x.input }

/-- ROTATION_COMMIT: at C the takeover is committed or abandoned (R256, R257, R260, R261). -/
def execRotationCommit (site g : Nat) (s : State) : Res := .next <|
  let x := s.rot site g
  match s.commitAt x with
  | some c =>
    if s.rotates site g ∧ x.phase = 2 ∧ c ≤ s.mclkNow then
      if s.milestoneIn site g x then
        let s := each (inputChans site g x.input) (fun s m => s.setQc m ((s.qc m).restoreW x.h (inputKind g x.input))) s
        (s.abandonCycle site g (boundaryAfter c)).releaseHeld
      else (s.commitCycle site g c).releaseHeld
    else s
  | none => s

/-! ## The freed modulator (R258, R259, R262) -/

/-- The end of a phase of the calibration after C, in ns: zero, point A, point B. -/
def phaseEnd (k : Nat) : Nat := if k = 0 then 3500000000 else if k = 1 then 6500000000 else 9500000000

/-- The trims that a calibration gives (R258), from the means of the filter at zero and at point A in pV: the offset takes
the zero away, the gain meets point A with the set's quadratic term. A zero input at point A leaves the gain free. -/
def State.newTrim (s : State) (site m kind : Nat) (zero a : Int) : Trim :=
  let r := rangeOf kind
  let offs := wholeOf (-(zero : Rat) / 1000)
  let u := (a : Rat) / 1000000 + (offs : Rat) / 1000
  let g := (s.refPoint site (2 * kind) - s.quadOf' site r m * u * u / 1000000000000000) * 2147483648 / u
  { offs := offs, gain := (if u = 0 then Config.freeInt s.free else wholeOf g) % 4294967296, date := some s.mclkNow }

/-- The limit of the deviation at point B, in µV. -/
def pointBLimit (kind : Nat) : Rat := if kind = 0 then 20 else if kind = 1 then 1 / 2 else 50

/-- Point B, measured with new trims, deviates too far from its reference value (R258). -/
def State.failsB (s : State) (site m kind : Nat) (t : Trim) (b : Int) : Bool :=
  let d := t.apply (s.quadOf' site (rangeOf kind) m) ((b : Rat) / 1000000) - s.refPoint site (2 * kind + 1)
  decide (pointBLimit kind < max d (-d))

/-- A calibration's trims become running trims. -/
def Modl.calibrated (x : Modl) (kind : Nat) (t : Trim) : Modl := { x.setTrim (rangeOf kind) t with aged := false }

/-- FREED_CALIBRATION_PHASE: the measurement of a phase has ended, with the mean of the modulator's filter in pV: zero,
point A of the range, and point B, at which the trims are computed and stored. -/
def execFreedCalibrationPhase (site g k : Nat) (mean : Int) (s : State) : Res := .next <|
  let x := s.rot site g
  if s.rotates site g ∧ x.phase = 3 ∧ k < 3 ∧ x.steps = k ∧ x.c + phaseEnd k ≤ s.mclkNow then
    let x := { x with steps := k + 1 }
    if k = 0 then s.setRot site g { x with zero := mean }
    else if k = 1 then s.setRot site g { x with pointA := mean }
    else
      let kind := inputKind g x.input
      let t := s.newTrim site x.freed kind x.zero x.pointA
      (s.setModl site x.freed ((s.modl site x.freed).calibrated kind t)).setRot site g
        { x with bad := s.failsB site x.freed kind t mean }
  else s

/-- A modulator becomes the spare. -/
def State.becomeSpare (s : State) (site g m : Nat) : State :=
  s.setRot site g { s.rot site g with phase := 0, spare := some m, moved := true }

/-- FREED_CALIBRATION_END: at C + 10 s the modulator becomes the spare, or is suspect. -/
def execFreedCalibrationEnd (site g : Nat) (s : State) : Res := .next <|
  let x := s.rot site g
  if s.rotates site g ∧ x.phase = 3 ∧ x.steps = 3 ∧ x.c + 10000000000 ≤ s.mclkNow then
    if x.bad then
      let m := s.modl site x.freed
      ((s.setModl site x.freed { m with suspect := true, passes := 0, lastRun := s.mclkNow }).setRot site g { x with phase := 4 }).calEvent
        1 site g x.freed
    else s.becomeSpare site g x.freed
  else s

/-- SUSPECT_RECALIBRATION: every 10 minutes the calibration of R258, with its three means; two passes in a row clear the
mark. -/
def execSuspectRecalibration (site g m : Nat) (zero a b : Int) (s : State) : Res := .next <|
  let y := s.modl site m
  if s.rotates site g ∧ groupOfMod m = g ∧ m ≤ 140 ∧ y.suspect ∧ y.lastRun + 600000000000 ≤ s.mclkNow then
    let kind := inputKind g (s.rot site g).input
    let t := s.newTrim site m kind zero a
    let y : Modl := { y.calibrated kind t with lastRun := s.mclkNow }
    if s.failsB site m kind t b then s.setModl site m { y with passes := 0 }
    else if 1 ≤ y.passes then
      ((s.setModl site m { y with suspect := false, passes := 0, drifts := 0 }).becomeSpare site g m).calEvent 2 site g m
    else s.setModl site m { y with passes := y.passes + 1 }
  else s

/-- The input that a working modulator serves in its group. -/
def State.servedBy (s : State) (site m : Nat) : Option Nat :=
  let g := groupOfMod m
  (List.range (groupInputs g)).find? fun p => ((s.rot site g).serving g)[p]? == some m

/-- The running trims with which a working modulator converts. -/
def State.trimAt (s : State) (site g p m : Nat) : Trim := (s.modl site m).trim (rangeOf (inputKind g p))

/-- The age of running trims passes 900 s; trims from the set are older from the start. -/
def Trim.old (x : Trim) (now : Nat) : Bool :=
  match x.date with
  | some t => decide (t + 900000000000 < now)
  | none => true

/-- CALIBRATION_AGE_EVENT (R262). -/
def execCalibrationAgeEvent (site m : Nat) (s : State) : Res := .next <|
  let y := s.modl site m
  let g := groupOfMod m
  if s.qmUp ∧ s.sitePop site ∧ m ≤ 140 ∧ ((s.servedBy site m).any fun p => (s.trimAt site g p m).old s.mclkNow) ∧ !y.aged then
    (s.setModl site m { y with aged := true }).calEvent 4 site g m
  else s

end Sys2Proof.Machine
end

