-- ==== Sys2Proof/Machine/Samples.lean ====
section
/-! DEFINITION. The samples of the measuring part (R209 to R214, R253 to R255): calibrated by the running trims and the
calibration set, clipped, corrected along a takeover, and taken by the integrators. -/

namespace Sys2Proof.Machine

/-- The corrections of a takeover at an interval's start (R255): whole at H, and zero 8,000 intervals later. -/
def Rot.corrected (x : Rot) (start : Nat) (y : Rat) : Rat :=
  y + (x.gain * y + x.offs) * ((8000 - (start - x.h) / interval : Nat) : Rat) / 8000

/-- An input in the interval that starts at an MCLK time, in µV: what stands (the spare's reading under a takeover, and
along its ramp), and what the working modulator reads. -/
def State.readInput (s : State) (site g p start : Nat) (raw spare : Int) : Rat × Rat :=
  let x := s.rot site g
  let r := rangeOf (inputKind g p)
  let w := s.conv site r ((x.serving g).getD p 0) raw
  if x.phase = 2 ∧ x.input = p ∧ x.h ≤ start then (x.corrected start (s.conv site r ((x.spareOf g).getD 0) spare), w)
  else if x.phase ≠ 2 ∧ x.ramp = p ∧ x.h ≤ start then (x.corrected start w, x.corrected start w)
  else (w, w)

/-- A sample of the overlapped input enters the fit (R254): the spare with its own running trims, W as it is converted. -/
def State.fitInput (s : State) (site g p start : Nat) (raw spare : Int) : State :=
  let x := s.rot site g
  if x.phase = 1 ∧ x.input = p ∧ x.s ≤ start then
    let y := s.conv site (rangeOf (inputKind g p)) ((x.spareOf g).getD 0) spare
    s.setRot site g { x with fit := x.fit.take y (s.readInput site g p start raw spare).2 }
  else s

/-- The group has a step to take before a sample of one of its inputs (R253): the end of the window, or C. -/
def State.rotFirst (s : State) (site g start : Nat) (mine : Nat → Bool) : Bool :=
  let x := s.rot site g
  mine x.input && ((x.phase == 1 && decide (x.s + fitWindow ≤ start)) ||
    (x.phase == 2 && (s.commitAt x).any fun c => decide (c ≤ start)))

/-- The temperature of a channel in its turn (R211): 50 intervals for each of a lane's 16 inputs; the turn's last sample
is the conversion. -/
def inTurn (k start : Nat) : Bool := start / interval / 50 % 16 == k % 16
def lastInTurn (start : Nat) : Bool := start / interval % 50 == 49

/-- The sample of an interval: the readings of the channel's voltage, current and temperature input, those that stand and the
working modulators', clipped and flagged where one lies beyond its range (R213). -/
def State.sampleOf (s : State) (c start : Nat) (v i t : Rat × Rat) : QSample :=
  let x := s.qc c
  let amps := fun (u : Rat) => wholeOf (s.shuntAmps c (clipIn 1 u))
  { m := start + interval / 2, at' := s.qm.ltOf start, v := wholeOf (clipIn 0 v.1), i := amps i.1, wv := wholeOf (clipIn 0 v.2),
    wi := amps i.2, acc := x.acc, wAcc := x.wAcc,
    ovr := beyondIn 0 v.1 || beyondIn 0 v.2 || beyondIn 1 i.1 || beyondIn 1 i.2 ||
      (inTurn (localOf c) start && (beyondIn 2 t.1 || beyondIn 2 t.2)) }

/-- The channel takes the sample of an interval, and its temperature at the last interval of its turn. -/
def State.takeSample (s : State) (c start : Nat) (v i t : Rat × Rat) : State :=
  let x := s.qc c
  let turn := inTurn (localOf c) start
  let y := s.sampleOf c start v i t
  let x := x.add y
  s.setQc c (if turn ∧ lastInTurn start then
    { x with temp := s.metTemp (clipIn 2 t.1), wTemp := s.metTemp (clipIn 2 t.2) } else x)

/-- INTEGRATOR_SAMPLE: what the chains of a channel give for the interval that comes out now, in nV at the pin: voltage,
current, temperature lane, and the spares of its group and of group 8. -/
def execIntegratorSample (c : Nat) (v i t spare spareT : Int) (s : State) : Res := .next <|
  let n := dieOf c
  let k := localOf c
  let g := k / 8
  let p := 2 * (k % 8)
  let start := s.sampleStart
  if s.qmUp ∧ s.chanPop c ∧ s.framed n ∧ s.sampleDue c ∧ !s.rotFirst n g start (fun q => q / 2 == k % 8) ∧
      !s.rotFirst n 8 start (· == k / 16) then
    let rv := s.readInput n g p start v spare
    let ri := s.readInput n g (p + 1) start i spare
    let rt := s.readInput n 8 (k / 16) start t spareT
    let s := (s.fitInput n g p start v spare).fitInput n g (p + 1) start i spare
    let s := if inTurn k start then s.fitInput n 8 (k / 16) start t spareT else s
    (s.takeSample c start rv ri rt).releaseHeld
  else s

end Sys2Proof.Machine
end

