-- ==== Sys2Proof/Machine/Diagnosis.lean ====
section
/-! DEFINITION. Path diagnosis of the control and hub ADC units and the calibration values of the control path (R250,
R264 to R266, R276, R307). -/

namespace Sys2Proof.Machine

/-- The ADC units of a die. -/
def unitCount (die : Nat) : Nat := if die = 0 then 4 else 16

/-- The diagnosis objects of a die: 0x3020 at the device, 0x2853 at a site. -/
def diagObj (die : Nat) : Nat := if die = 0 then 0x3020 else 0x2853

/-- The diagnosis interval in ns. -/
def State.diagInterval (s : State) (die : Nat) : Nat := s.rdN (diagObj die) 1 (dieI die) * 1000000000

/-- The latest instant at which a unit's diagnosis fell due (R265): the units lie evenly over the interval. -/
def State.diagDue (s : State) (die u : Nat) : Option Nat :=
  let i := max (s.diagInterval die) 1
  let o := u * i / unitCount die
  if o ≤ s.lt then some (o + (s.lt - o) / i * i) else none

/-- A diagnosis of the unit must wait: a contact check or a DCIR or sweep step of its quad (R265); an axis that unit 2 or
3 serves does not stand (R307). -/
def State.diagBlocked (s : State) (die u : Nat) : Bool :=
  if die = 0 then (u == 2 && !(s.axisStill 0 && s.axisStill 1)) || (u == 3 && !(s.axisStill 2 && s.axisStill 3))
  else (s.adc die u).checking.isSome ||
    (List.range 4).any fun k =>
      let c := chanOf die (4 * u + k)
      (s.runState c == 2 || s.runState c == 3) && (s.mode c == 8 || s.mode c == 9)

/-- Another diagnosis runs on the die (R265, R271). -/
def State.diagRuns (s : State) (die : Nat) : Bool := (List.range (unitCount die)).any fun v => (s.adc die v).diagUntil.isSome

/-- The die's units run: the hub's firmware, or a site in RUN or REST. -/
def State.diagUp (s : State) (die : Nat) : Bool :=
  if die = 0 then s.fw else s.vsys && s.sitePop die && [1, 2].contains (s.rdN 0x1200 1 (siteI die))

/-- A diagnosis occupies the unit for 400 µs (R264). -/
def State.startDiag (s : State) (die u : Nat) (rep : Bool) : State :=
  let x := s.adc die u
  let s := s.setAdc die u { x with
    diagUntil := some (s.lt + 400000), repeatAt := none, repeated := rep, waiting := false, lastDiag := s.lt }
  s.inc (diagObj die) 2 (dieI die)

/-- A wait is counted once (R265, R307): 0x2853.05, 0x34F0.01. -/
def State.waitDiag (s : State) (die u : Nat) : State :=
  let x := s.adc die u
  if x.waiting then s
  else
    let s := s.setAdc die u { x with waiting := true }
    if die = 0 then s.inc 0x34F0 1 dev else s.inc 0x2853 5 (siteI die)

/-- PATH_DIAGNOSIS. -/
def execPathDiagnosis (die u : Nat) (s : State) : Res := .next <|
  let x := s.adc die u
  if s.diagUp die ∧ u < unitCount die ∧ x.diagUntil.isNone ∧ x.repeatAt.isNone ∧
      ((s.diagDue die u).any fun t => decide (x.lastDiag < t)) then
    if s.diagBlocked die u then s.waitDiag die u
    else if s.diagRuns die then s
    else s.startDiag die u false
  else s

/-- DIAGNOSIS_REPEAT: 1 ms after a failure; a diagnosis of another unit of the die ends first (R265, R271). -/
def execDiagnosisRepeat (die u : Nat) (s : State) : Res := .next <|
  let x := s.adc die u
  if s.diagUp die ∧ u < unitCount die ∧ x.diagUntil.isNone ∧ due x.repeatAt s.lt ∧ !s.diagBlocked die u ∧
      !s.diagRuns die then s.startDiag die u true
  else s

/-- The input paths of a unit (R264, R271, R293, R305): of the hub 16 inputs; of a die 0 to 3 the cell voltages, 4 to 7 the
shunts, 8 to 11 the temperatures of its quad, 12 the bus sense, and in units 0 and 8 a stage's sensor. -/
def unitPaths (die u : Nat) : List Nat := List.range (if die = 0 then 16 else if u = 0 ∨ u = 8 then 14 else 13)

/-- The kind of a die's path. -/
def pathKind (p : Nat) : Nat := if p = 13 then 4 else p / 4

/-- The range of a path in µV (R546, R547). -/
def diagLo (die p : Nat) : Rat := if die = 0 then 0 else pathLo (pathKind p)
def diagHi (die p : Nat) : Rat := if die = 0 then 3000000 else pathHi (pathKind p)

/-- A result converted with the unit's calibration values of R250, in µV. -/
def State.diagUv (s : State) (die u p code : Nat) : Rat :=
  if die = 0 then s.pinUv (16 * u + p) code else s.pathUv (pathKind p) (chanOf die (4 * u + p % 4)) code

/-- The codes that the test DAC drives, and every path with each of them. -/
def dacCodes : List Nat := [410, 2048, 3686]
def diagCases (die u : Nat) : List (Nat × Nat) := (unitPaths die u).flatMap fun p => dacCodes.map fun c => (p, c)

/-- The result of a path at a DAC code, if it is there. -/
def resultAt (l : List (Nat × Nat × Nat)) (x : Nat × Nat) : Option Nat := (l.find? fun r => r.1 == x.1 && r.2.1 == x.2).map (·.2.2)

/-- The converted result differs from the DAC's value, of 4,096 steps over the path's range, by more than 4 steps (R266). -/
def State.badResult (s : State) (die u : Nat) (l : List (Nat × Nat × Nat)) (x : Nat × Nat) : Bool :=
  (resultAt l x).any fun code =>
    let step := (diagHi die x.1 - diagLo die x.1) / 4096
    let d := s.diagUv die u x.1 code - (diagLo die x.1 + x.2 * step)
    decide (4 * step < max d (-d))

/-- A unit is failed (R266, R276, R307). -/
def State.failUnit (s : State) (die u : Nat) (corr : Nat) : State :=
  let i := diagObj die
  let e := dieI die
  let s := (s.wr i 4 e (setBit (s.rdN i 4 e) u)).inc i 3 e
  if die ≠ 0 then s.latchChans ((List.range 4).map fun k => chanOf die (4 * u + k)) 13 0 corr
  else if u ≤ 1 then s.stopWith 3 corr
  else each [2 * (u - 2), 2 * (u - 2) + 1] (fun s a => (s.latchDrive a 7).latchAxis a 7) s

/-- PATH_DIAGNOSIS_RESULT: the diagnosis ends and passes, which clears a failed mark, or fails; the first failure is
repeated, the second fails the unit. A diagnosis has a result for every path at every code. -/
def execPathDiagnosisResult (die u : Nat) (results : List (Nat × Nat × Nat)) (s : State) : Res := .next <|
  let x := s.adc die u
  if u < unitCount die ∧ due x.diagUntil s.lt ∧ (diagCases die u).all fun c => (resultAt results c).isSome then
    let s := s.setAdc die u { x with diagUntil := none, repeated := false }
    match (diagCases die u).find? (s.badResult die u results) with
    | none => s.wr (diagObj die) 4 (dieI die) (clearBit (s.rdN (diagObj die) 4 (dieI die)) u)
    | some r =>
      let corr := s.corrId die
      let s := (s.openCorr die).raise die noChan 0x200A (leNat 1 die ++ leNat 1 u ++ leNat 2 r.2 ++
        leInt 4 (wholeOf (s.diagUv die u r.1 ((resultAt results r).getD 0)))) corr
      if x.repeated then s.failUnit die u corr
      else s.setAdc die u { s.adc die u with repeatAt := some (s.lt + 1000000) }
  else s

/-- DIAGNOSE_NOW (R265): refused with "not idle" when a case of R265 applies to a named unit. -/
def diagnoseNowCheck (v : Int) (s : State) (e : Nat) : Nat :=
  let n := e - 0x3C0
  idleOr ((List.range 16).all fun u => !bit v.toNat u || !s.diagBlocked n u)

def diagnoseNowSet (v : Int) (s : State) (e : Nat) : State :=
  let n := e - 0x3C0
  each ((List.range 16).filter fun u => bit v.toNat u && (s.adc n u).diagUntil.isNone) (fun s u => s.startDiag n u false) s

def execDiagnoseNow (src : Src) (n mask : Nat) (s : State) : Res :=
  .next (s.writeObj src 0x2853 6 [siteI n] mask (diagnoseNowCheck mask) (diagnoseNowSet mask))

/-! ## Calibration values of the control path (R250) -/

/-- The objects of R250. -/
def isCalObj (i : Nat) : Bool := [0x2851, 0x2852, 0x2855, 0x3021, 0x3022].contains i

/-- A written value applies at once, is saved to hub flash at once, and goes to the trail. -/
def calibrationSet (i j : Nat) (v : Int) (s : State) (e : Nat) : State :=
  let old := s.rd i j e
  let s := s.wr i j e v
  let s := { s with flash := insertBy Addr.key ⟨i, j, e⟩ v s.flash }
  let n := (siteOfInst e).getD 0
  s.noteAt n (if e < 0x180 then e else noChan) 0x2009 (leNat 2 i ++ leNat 1 j ++ leNat 1 0 ++ leInt 4 old ++ leInt 4 v)

def execControlAdcCalibrationWrite (src : Src) (i j : Nat) (inst : Inst) (v : Int) (s : State) : Res := .next <|
  if isCalObj i then s.writeObj src i j [instOf inst] v (fun _ _ => aDone) (calibrationSet i j v) else s

end Sys2Proof.Machine
end

