-- ==== Sys2Proof/Machine/MetPort.lean ====
section
/-! DEFINITION. What the measuring part answers: the objects at @met, the mailbox (R205 to R208, R397) and the metrology
port (R246, R247, R558). -/

namespace Sys2Proof.Machine

/-! ## Objects at @met -/

/-- The group state word 0x5011 (chapter 8). -/
def State.groupWord (s : State) (site g : Nat) : Nat :=
  let x := s.rot site g
  let m := if x.phase = 3 then x.freed else if x.phase = 4 then 0xFF else (x.spareOf g).getD 0xFF
  let p := if x.phase = 1 ∨ x.phase = 2 then x.input else 0xFF
  m * 2 ^ 24 + p * 2 ^ 16 + x.abandons * 2 ^ 8 + x.phase

/-- The oldest trim age of a site's working modulators in s (0x5013), each by the trims of the range that it serves; an
age beyond 900 s whose start is not known is free. -/
def State.oldestAge (s : State) (site : Nat) : Nat :=
  ((List.range 9).flatMap fun g => ((s.rot site g).serving g).zipIdx.map fun (m, p) =>
    match (s.trimAt site g p m).date with
    | some t => (((s.mclkNow : Int) - t) / 1000000000).toNat
    | none => 901 + (Config.freeInt (256 * site + m)).natAbs).foldl max 0

/-- The suspect modulators of a site (0x5014): 18 octets, bit m marks modulator m. -/
def State.suspects (s : State) (site : Nat) : List Byte :=
  leNat 18 ((List.range 141).foldl (fun a m => if (s.modl site m).suspect then a + 2 ^ m else a) 0)

/-- The mirrors of a channel, 0x5100 on: they exist where its site is populated (R4). -/
def isMirror (i : Nat) : Bool := decide (0x5100 ≤ i) && decide (i ≤ 0x527F)

/-- The mirrors as the QM has formed them last. -/
def QChan.mirror (x : QChan) (j : Nat) : Int :=
  match j with
  | 1 => x.mV
  | 2 => x.mI
  | 3 => x.wTemp
  | 4 => x.mQ
  | 5 => x.mE
  | _ => (x.mLt.getD 0 : Nat)

/-- The numeric objects of the QM; none where it has none. -/
def State.metNum (s : State) (i j : Nat) : Option Int :=
  let q := s.qm
  if isMirror i then if s.chanPop (i - 0x5100) then some ((s.qc (i - 0x5100)).mirror j) else none
  else match i, j with
  | 0x5000, 1 => some s.seal
  | 0x5000, 2 => some q.evCount
  | 0x5000, 3 => some s.auditFree
  | 0x5000, 4 => some (q.auditNext - 1)
  | 0x5000, 5 => some (if q.adjLevel then 1 else 0)
  | 0x5000, 6 => some q.rejected
  | 0x5000, 7 => some q.refused
  | 0x5000, 8 => some ((if s.tqNow then 1 else 0) + (if q.clk then 2 else 0))
  | 0x5001, 4 => some s.metNonce
  | 0x5002, 1 => some q.perUsed
  | 0x5002, 2 => some q.freeSteps
  | 0x5002, 3 => some q.freeBats
  | 0x5002, 4 => some (if q.bp then 1 else 0)
  | 0x5002, 5 => some q.lastBat
  | 0x5002, 6 => some q.ackBat
  | 0x5002, 7 => some q.dropped
  | 0x5002, 8 => some q.nextRec
  | 0x5015, 0 => some q.calGen
  | 0x5018, 0 => some q.cal.length
  | 0x5050, 1 => some q.acImp
  | 0x5050, 2 => some q.acExp
  | 0x5011, _ => if 1 ≤ j ∧ j ≤ 54 then some (s.groupWord ((j - 1) / 9 + 1) ((j - 1) % 9)) else none
  | 0x5010, _ => if 1 ≤ j ∧ j ≤ 6 then some (look 0 q.cycles j : Nat) else none
  | 0x5012, _ => if 1 ≤ j ∧ j ≤ 6 then some (look 0 q.abandons j : Nat) else if 7 ≤ j ∧ j ≤ 12 then some (look 0 q.driftEvents (j - 6) : Nat) else none
  | 0x5013, _ => if 1 ≤ j ∧ j ≤ 6 then some (s.oldestAge j) else none
  | _, _ => none

/-- The octets of the STR and BLOB objects at @met; none where the object has no value (R558). -/
def State.metBlob (s : State) (i j : Nat) : Option (List Byte) :=
  match i, j with
  | 0x5001, 1 => some s.swName
  | 0x5001, 2 => some s.swVersion
  | 0x5001, 3 => some (padTo 32 s.swSum)
  | 0x5003, 0 => some s.metKey
  | 0x5014, _ => if 1 ≤ j ∧ j ≤ 6 then some (s.suspects j) else none
  | 0x5017, 0 => some (padTo 16 (s.item (s.rdN 0x5016 0 dev)))
  | 0x5422, 0 => (s.recAt (s.rdN 0x5421 0 dev)).map (·.bytes)
  | 0x5424, 0 => (s.batAt (s.rdN 0x5423 0 dev)).map (·.bytes)
  | 0x5426, 0 => s.proofOf (s.rdN 0x5421 0 dev)
  | _, _ => none

/-- The value of an object at @met, as the QM has it. -/
def State.metValue (s : State) (i j : Nat) : Option (List Byte) :=
  match findRow ⟨i, j, met⟩ with
  | none => none
  | some r => if Ty.size r.ty = 0 then s.metBlob i j else (s.metNum i j).map (leInt (Ty.size r.ty))

/-- The measuring part as the hub knows it: as the latest frame on Hinge-R brought it (R38). -/
def State.hubView (s : State) : State := { s with qm := s.metView, clock := { s.clock with cnt := s.metViewAt } }

/-- The value of an object at @met as the hub serves it: the mirrors of a channel as its last mirror set brought them. -/
def State.hubMet (s : State) (i j : Nat) : Option (List Byte) :=
  if isMirror i then
    if s.chanPop (i - 0x5100) then (findRow ⟨i, j, met⟩).map fun r => leInt (Ty.size r.ty) (s.rd i j met) else none
  else s.hubView.metValue i j

/-! ## The mailbox (R205 to R208) -/

/-- The 64 octets of IDENT (R245, R246). -/
def State.identBytes (s : State) : List Byte :=
  s.swName ++ s.swVersion ++ padTo 32 s.swSum ++ leNat 1 s.seal ++ leNat 1 s.suffixByte ++ leNat 2 (dieStep 7) ++ leNat 4 s.qm.evCount

/-- The QM's answer to IDENTIFY reaches the hub (R397, R514): metrology is present, SUBSCRIBE follows. -/
def State.metBack (s : State) : State :=
  if s.fw ∧ s.rd 0x1202 5 dev = 0 then
    let s := (s.wr 0x1202 5 dev 1).mail (.mailboxSubscribe 0x3F)
    if s.metSilent then { s with metSilent := false }.note 0x0030 (leNat 1 1) else s
  else s

/-- Without an answer the hub writes an entry every 10 s (R397). -/
def State.metAbsent (s : State) : State :=
  if s.fw ∧ s.rd 0x1202 5 dev = 0 ∧ s.metNote + 10000000000 ≤ s.lt then { s with metNote := s.lt }.note 0x5003 [] else s

/-- IDENTIFY: what the hub repeats every 100 ms until it is answered. -/
def execIdentify (s : State) : Res := .next <|
  if s.qmUp then
    let s := s.flushMail
    (s.mailReply 0x01 0 (s.identBytes ++ leNat 8 s.metNonce)).metBack
  else s.metAbsent

/-- READ of a metrology object: channel 0xFFFF reads @met; the cell ID is what a channel instance has. -/
def State.mailRead (s : State) (i j c : Nat) : Option (List Byte) :=
  if c = 0xFFFF then s.metValue i j
  else if i = 0x5300 ∧ j = 0 ∧ s.chanPop c then some (padTo 24 (s.qc c).cellNext)
  else none

def execMailboxRead (i j c : Nat) (s : State) : Res := .next <|
  if s.qmUp then
    let s := s.flushMail
    match s.mailRead i j c with
    | some b => s.mailReply 0x02 0 b
    | none => s.mailReply 0x02 4 []
  else s

/-- The payload length that a request opcode fixes; the length of REQ_ADJUST varies from 5 to 8,192 (R207). -/
def reqLenOk (op len : Nat) : Bool :=
  match op with
  | 0x01 => len == 0
  | 0x02 => len == 6
  | 0x03 => len == 4
  | 0x04 => len == 8
  | 0x05 => len == 26
  | 0x06 => len == 40
  | 0x07 => len == 16
  | 0x08 => decide (5 ≤ len) && decide (len ≤ 8192)
  | 0x10 => len == 12
  | _ => false

/-- A request frame that the QM takes (R205, R206). -/
def requestOk (b : List Byte) : Bool :=
  let n := fieldAt b 4 2
  b.length == 10 + n && fieldAt b 0 1 == 0xA5 && reqLenOk (fieldAt b 1 1) n && fieldAt b 3 1 == 0 &&
    fieldAt b (6 + n) 4 == crc32 (sliceB b 1 (5 + n))

/-- MAILBOX_FRAME_DISCARD (R36, R206): any other frame is counted, and changes nothing else. -/
def execMailboxFrameDiscard (b : List Byte) (s : State) : Res := .next <|
  if s.qmUp ∧ !requestOk b then s.onQm fun q => { q with rejected := (q.rejected + 1) % 2 ^ 32 } else s

/-! ## The metrology port (R246, R247) -/

/-- The port answers while the QM runs and VIO_M is present (R531). -/
def State.portUp (s : State) : Bool := s.qmUp && s.qm.vioM

/-- The octets of a response that MET_MISO has returned when MET_CS_N rises (R246). -/
def PortReply.octets (r : PortReply) : List Byte :=
  let b := leNat 1 r.status ++ leNat 2 r.payload.length ++ r.payload
  ([0x5A] ++ b ++ leNat 4 (crc32 b)).take r.clocked

/-- The port answers with a status and a payload, of which the controller clocks some octets out. -/
def State.portReply (s : State) (status : Nat) (payload : List Byte) (clocked : Nat) : State :=
  s.onQm fun q => { q with port := some ⟨status, payload, clocked⟩ }

/-- A response that is an item, or status 2. -/
def State.portItem (s : State) (b : Option (List Byte)) (clocked : Nat) : State :=
  match b with
  | some x => s.portReply 0 x clocked
  | none => s.portReply 2 [] clocked

/-- A transaction of the port, with its argument: U64 in the first eight octets after the command. One that ends before
them is not carried out (R554); octets after them are ignored (R246). -/
def State.onPort (s : State) (arg : List Byte) (f : Nat → State → State) : Res := .next <|
  if s.portUp ∧ 8 ≤ arg.length then f (ofLe (arg.take 8)) s else s

/-- A transaction whose argument is 0; another is out of range (log 174). -/
def State.onBare (s : State) (arg : List Byte) (clocked : Nat) (f : State → State) : Res :=
  s.onPort arg fun n s => if n = 0 then f s else s.portReply 3 [] clocked

def execIdent (arg : List Byte) (clocked : Nat) (s : State) : Res := s.onBare arg clocked fun s => s.portReply 0 s.identBytes clocked

/-- STATUS clears the alert causes that it returns. -/
def State.statusBytes (s : State) : List Byte :=
  leNat 1 s.seal ++ leNat 1 s.alertsNow ++ leNat 2 s.auditFree ++ leNat 4 s.qm.evCount ++ leNat 8 s.qm.lastBat

/-- STATUS: the causes are cleared once their octet, the sixth, has been returned. -/
def execStatus (arg : List Byte) (clocked : Nat) (s : State) : Res := s.onBare arg clocked fun s =>
  let r := s.portReply 0 s.statusBytes clocked
  if 6 ≤ clocked then r.onQm fun q => { q with alerts := 0, lateSeen := s.beaconLate } else r

def execAudit (arg : List Byte) (clocked : Nat) (s : State) : Res :=
  s.onPort arg fun n s => s.portItem ((s.auditAt n).map (·.bytes)) clocked
def execRecord (arg : List Byte) (clocked : Nat) (s : State) : Res :=
  s.onPort arg fun n s => s.portItem ((s.recAt n).map (·.bytes)) clocked
def execBatch (arg : List Byte) (clocked : Nat) (s : State) : Res :=
  s.onPort arg fun n s => s.portItem ((s.batAt n).map (·.bytes)) clocked
def execProof (arg : List Byte) (clocked : Nat) (s : State) : Res :=
  s.onPort arg fun n s => s.portItem (s.proofOf n) clocked

/-- LIVE (R246, R255): the latest sample of the working modulators (free before the first one), and what the integrators
hold with theirs. -/
def State.liveBytes (s : State) (c : Nat) : List Byte :=
  let x := s.qc c
  let y := x.hist.head?
  leInt 4 ((y.map (·.wv)).getD (Config.freeInt s.free)) ++ leInt 4 (quot ((y.map (·.wi)).getD (Config.freeInt s.free)) 1000) ++
    leInt 4 x.wTemp ++ leNat 4 0 ++ leInt 8 x.wAcc.q ++ leInt 8 x.wAcc.e

def execLive (arg : List Byte) (clocked : Nat) (s : State) : Res :=
  s.onPort arg fun n s => if n < 384 ∧ s.chanPop n then s.portReply 0 (s.liveBytes n) clocked else s.portReply 3 [] clocked

def execAc (arg : List Byte) (clocked : Nat) (s : State) : Res := s.onBare arg clocked fun s => s.portItem s.qm.lastAc clocked
def execPubkey (arg : List Byte) (clocked : Nat) (s : State) : Res := s.onBare arg clocked fun s => s.portReply 0 s.metKey clocked

/-- UNKNOWN_COMMAND: any command octet outside 0x01 to 0x09. -/
def execUnknownCommand (cmd : Nat) (arg : List Byte) (clocked : Nat) (s : State) : Res :=
  s.onPort arg fun _ s => if 1 ≤ cmd ∧ cmd ≤ 9 then s else s.portReply 1 [] clocked

end Sys2Proof.Machine
end

