-- ==== Sys2Proof/Machine/CanFd.lean ====
section
/-! DEFINITION. The CAN FD ports (chapter 15): modes, the transmit FIFO, the receive ring, error states. -/

namespace Sys2Proof.Machine

/-! ## Modes and bit timing (R454 to R456) -/

/-- A port takes part in the bus (R456, R531): the device runs, its core loop is not at the coast limit, VIO_H1 is present,
and its mode in force is one of these. -/
def State.canOn (s : State) (p : Nat) (modes : List Nat) : Bool :=
  decide (p < 2) && s.fw && s.rd 0x1200 1 dev == 1 && s.clock.core.state != 4 && !bit (s.rdN 0x1220 4 dev) 1 &&
    modes.contains (s.port p).mode

/-- The error state of a port: 0 active, 1 passive, 2 bus off, 3 recovering. -/
def State.canState (s : State) (p : Nat) : Nat := s.rdN 0x1413 (p + 1) dev

/-- A bit timing: BRP, TSEG1, TSEG2, SJW, with one field replaced. -/
def State.timing (s : State) (p first i v : Nat) : Nat × Nat × Nat × Nat :=
  let f (k : Nat) : Nat := if i = first + k then v else s.rdN (first + k) (p + 1) dev
  (f 0, f 1, f 2, f 3)

/-- Kernel clocks of a bit. -/
def bitClocks (t : Nat × Nat × Nat × Nat) : Nat := t.1 * (1 + t.2.1 + t.2.2.1)

/-- A write of 0x1401 to 0x140A or of 0x141C (R454): the port's mode is 0; the rates and SJW in their bounds. -/
def canTimingCheck (i j : Nat) (v : Int) (s : State) (_ : Nat) : Nat :=
  let p := j - 1
  let n := s.timing p 0x1401 i v.toNat
  let d := s.timing p 0x1405 i v.toNat
  if 0x1401 ≤ i ∧ i ≤ 0x1408 ∧ (bitClocks n < 80 ∨ bitClocks d < 10 ∨ bitClocks n < bitClocks d ∨ n.2.2.1 < n.2.2.2 ∨ d.2.2.1 < d.2.2.2) then
    aRange
  else idleOr (decide ((s.port p).mode = 0 ∧ s.rd 0x1400 (p + 1) dev = 0))

/-! ## The receive ring (R463 to R466) -/

/-- Write a ring entry; a full ring drops it and counts it, and the next one stored carries GAP. -/
def State.ringPut (s : State) (p : Nat) (e : RingEntry) : State :=
  let n := s.rdN 0x1418 (p + 1) dev
  let x := s.port p
  if (n + 65536 - s.rdN 0x1419 (p + 1) dev) % 65536 = 4096 then (s.setPort p { x with gap := true }).inc 0x141B (p + 1) dev
  else (s.setPort p { x with ring := put x.ring (n % 4096) { e with gap := x.gap }, gap := false }).inc 0x1418 (p + 1) dev 16

/-- The frame of an entry without one. -/
def noFrame (data : List Byte) : CanFrame :=
  { ide := false, rtr := false, id := 0, fdf := false, brs := false, esi := false, dlc := 0, data := data }

/-- A removed frame gives an entry of kind 2 (R464). -/
def State.removed (s : State) (p : Nat) (t : CanTx) (outcome : Nat) : State :=
  s.ringPut p ⟨s.lt, { t.frame with data := [] }, 2, false, t.handle, outcome⟩

/-- Remove the frames of the FIFO that a condition picks, in order, with an outcome. -/
def State.removeTx (s : State) (p : Nat) (f : CanTx → Bool) (outcome : CanTx → Nat) : State :=
  let x := s.port p
  let s := s.setPort p { x with fifo := x.fifo.filter fun t => !f t }
  each (x.fifo.filter f) (fun s t => s.removed p t (outcome t)) s

/-- The ring entry's octets (R463). -/
def RingEntry.bytes (e : RingEntry) : List Byte :=
  let b (k : Nat) (c : Bool) : Nat := if c then 2 ^ k else 0
  leNat 8 e.lt ++ leNat 4 (b 31 e.frame.ide + b 30 e.frame.rtr + e.frame.id % 2 ^ 29) ++
    leNat 4 (b 31 e.frame.fdf + b 30 e.frame.brs + b 29 e.frame.esi + e.kind * 2 ^ 26 + b 25 e.gap + e.handle % 256 * 2 ^ 16 +
      e.outcome * 2 ^ 8 + e.frame.dlc % 16) ++ padTo 64 e.frame.data

/-- The ring block 0x141A (R466). -/
def State.ringBlock (s : State) (p : Nat) : List Byte :=
  let c := s.rdN 0x1419 (p + 1) dev
  let n := (s.rdN 0x1418 (p + 1) dev + 65536 - c) % 65536
  (List.range (min n 17)).flatMap fun k => ((lookup? ((c + k) % 65536 % 4096) (s.port p).ring).map (·.bytes)).getD []

/-! ## Error states (R467, R468) -/

/-- An entry of kind 3. -/
def State.errorEvent (s : State) (p st code : Nat) : State :=
  s.ringPut p ⟨s.lt, noFrame (leNat 1 st ++ leNat 1 (s.rdN 0x1415 (p + 1) dev) ++ leNat 2 (s.rdN 0x1414 (p + 1) dev) ++ leNat 1 code), 3, false, 0, 0⟩

/-- Bus off (R462, R468): the FIFO is removed with outcome 8; automatic recovery starts at once. -/
def State.busOff (s : State) (p code : Nat) : State :=
  let s := ((s.wr 0x1413 (p + 1) dev 2).inc 0x1416 (p + 1) dev).errorEvent p 2 code
  let s := (s.removeTx p (fun _ => true) fun _ => 8).wr 0x1417 (p + 1) dev 0
  if s.rd 0x140B (p + 1) dev = 0 then s.wr 0x1413 (p + 1) dev 3 else s

/-- The counters take new values; an entry of kind 3 at a change of state or a crossing of 96. -/
def State.setCounters (s : State) (p tec rec' code : Nat) : State :=
  let t0 := s.rdN 0x1414 (p + 1) dev
  let r0 := s.rdN 0x1415 (p + 1) dev
  let s := (s.wr 0x1414 (p + 1) dev tec).wr 0x1415 (p + 1) dev rec'
  if 255 < tec then s.busOff p code
  else
    let st := if 127 < tec ∨ 127 < rec' then 1 else 0
    let crossed := (decide (96 ≤ t0) != decide (96 ≤ tec)) || (decide (96 ≤ r0) != decide (96 ≤ rec'))
    if st ≠ s.canState p ∨ crossed then (s.wr 0x1413 (p + 1) dev st).errorEvent p st code else s

/-- A mode comes into force (R455, R462, R468). -/
def State.applyMode (s : State) (p v : Nat) : State :=
  let x := s.port p
  let s := s.setPort p { x with mode := v, pendingMode := none, ended := x.ended || decide (v = 0 ∧ 2 ≤ s.canState p) }
  let s := if x.mode = 1 ∧ v ≠ 1 then s.removeTx p (fun _ => true) fun _ => 8 else s
  if v = 1 ∧ (s.port p).ended then
    let s := s.setPort p { s.port p with ended := false }
    (((s.wr 0x1414 (p + 1) dev 0).wr 0x1415 (p + 1) dev 0).wr 0x1413 (p + 1) dev 0).errorEvent p 0 0
  else s

/-- The frame on the bus has ended: a waiting mode comes into force. -/
def State.frameEnd (s : State) (p : Nat) : State :=
  match (s.port p).pendingMode with
  | some v => s.applyMode p v
  | none => s

/-- CAN_MODE: at once on an idle bus, else at the end of the frame. -/
def canModeSet (p v : Nat) (busy : Bool) (s : State) (_ : Nat) : State :=
  let s := s.wr 0x1400 (p + 1) dev v
  if busy then s.setPort p { s.port p with pendingMode := some v } else s.applyMode p v

def execCanMode (src : Src) (p v : Nat) (busy : Bool) (s : State) : Res :=
  .next (s.writeObj src 0x1400 (p + 1) [dev] v (fun _ _ => aDone) (canModeSet p v busy))

/-! ## Transmission (R457 to R461) -/

/-- Data octets of a DLC. -/
def dlcLen (dlc : Nat) : Nat := [0, 1, 2, 3, 4, 5, 6, 7, 8, 12, 16, 20, 24, 32, 48, 64].getD dlc 0

/-- A transmit record: three words and its data. -/
structure TxRecord where
  w0 : Nat
  w1 : Nat
  deadline : Nat
  data : List Byte
  deriving DecidableEq, Repr

/-- The data octets a record carries: none for a remote frame. -/
def recordData (w0 w1 : Nat) : Nat := if bit w0 30 then 0 else dlcLen (w1 % 16)

/-- The records that octets spell, exactly. -/
def parseTx : Nat → List Byte → Option (List TxRecord)
  | 0, b => if b = [] then some [] else none
  | n + 1, b =>
    if b = [] then some []
    else if b.length < 12 then none
    else
      let w0 := fieldAt b 0 4
      let w1 := fieldAt b 4 4
      let k := recordData w0 w1
      if b.length < 12 + k then none
      else (parseTx n (b.drop (12 + k))).map fun t => ⟨w0, w1, fieldAt b 8 4, sliceB b 12 k⟩ :: t

def TxRecord.handle (r : TxRecord) : Nat := r.w1 / 2 ^ 16 % 256

/-- The fields of a record lie in their ranges. -/
def TxRecord.ok (r : TxRecord) : Bool :=
  let rtr := bit r.w0 30
  let fdf := bit r.w1 31
  !bit r.w0 29 && (bit r.w0 31 || decide (r.w0 % 2 ^ 29 < 2 ^ 11)) && decide (r.w1 / 2 ^ 24 % 32 = 0) && decide (r.w1 / 16 % 4096 = 0) &&
    !(rtr && fdf) && (fdf || (!bit r.w1 30 && decide (r.w1 % 16 ≤ 8))) && decide (r.deadline ≤ 60000000)

/-- The FIFO frame of a record. -/
def TxRecord.frame (r : TxRecord) (lt : Nat) : CanTx :=
  { frame := { ide := bit r.w0 31, rtr := bit r.w0 30, id := r.w0 % 2 ^ 29, fdf := bit r.w1 31, brs := bit r.w1 30, esi := false,
               dlc := r.w1 % 16, data := r.data },
    one := bit r.w1 29, handle := r.handle, deadline := if r.deadline = 0 then none else some (lt + r.deadline * 1000) }

/-- The checks of a submission (R458). -/
def submitCheck (p : Nat) (b : List Byte) (s : State) (_ : Nat) : Nat :=
  match parseTx 118 b with
  | none => aLength
  | some rs =>
    let hs := rs.map TxRecord.handle
    if !rs.all TxRecord.ok ∨ hs.eraseDups.length ≠ hs.length ∨ hs.any (fun h => (s.port p).fifo.any fun t => t.handle == h) then aRange
    else if (s.port p).mode ≠ 1 ∨ 2 ≤ s.canState p then aNotIdle
    else if 32 < (s.port p).fifo.length + rs.length then aBusy
    else aDone

def submitSet (p : Nat) (b : List Byte) (s : State) (_ : Nat) : State :=
  let x := s.port p
  s.setPort p { x with fifo := x.fifo ++ ((parseTx 118 b).getD []).map fun r => r.frame s.lt }

def execTransmitSubmit (src : Src) (p : Nat) (b : List Byte) (s : State) : Res :=
  .next (s.writeBlob src 0x1410 (p + 1) [dev] b (submitCheck p b) (submitSet p b))

/-- A frame of the FIFO has started: it is the head, and the head has passed the sample point of its SOF. -/
def State.hasStarted (s : State) (p : Nat) (t : CanTx) (started : Bool) : Bool :=
  started && ((s.port p).fifo.head?.any fun h => h.handle == t.handle)

/-- A cancel (1) or an expiry (2) of the frames that a condition picks: one that has started keeps its attempt, the others
are removed at once with outcome 3 or 6. -/
def State.cancelTx (s : State) (p : Nat) (f : CanTx → Bool) (how : Nat) (started : Bool) : State :=
  let x := s.port p
  let marked := x.fifo.map fun t => if f t && s.hasStarted p t started && t.stop == 0 then { t with stop := how } else t
  let s := s.setPort p { x with fifo := marked }
  s.removeTx p (fun t => f t && !(s.hasStarted p t started)) fun _ => if how = 1 then 3 else 6

/-- A cancel of a handle, or of all with 0x0100; a handle outside the FIFO is out of range. -/
def picks (h : Nat) (t : CanTx) : Bool := h == 0x100 || t.handle == h
def cancelCheck (p h : Nat) (s : State) (_ : Nat) : Nat :=
  if h = 0x100 ∨ (s.port p).fifo.any (picks h) then aDone else aRange
def cancelSet (p h : Nat) (started : Bool) (s : State) (_ : Nat) : State := s.cancelTx p (picks h) 1 started

def execCancel (src : Src) (p h : Nat) (started : Bool) (s : State) : Res :=
  .next (s.writeObj src 0x1411 (p + 1) [dev] h (cancelCheck p h) (cancelSet p h started))

def execCancelAll (src : Src) (p : Nat) (started : Bool) (s : State) : Res :=
  .next (s.writeObj src 0x1411 (p + 1) [dev] 0x100 (cancelCheck p 0x100) (cancelSet p 0x100 started))

/-- DEADLINE_EXPIRY (R461): acts as a cancel at the instant of expiry. -/
def execDeadlineExpiry (p h : Nat) (started : Bool) (s : State) : Res := .next <|
  if p < 2 ∧ ((s.port p).fifo.any fun t => t.handle == h && due t.deadline s.lt) then
    s.cancelTx p (fun t => t.handle == h && due t.deadline s.lt) 2 started
  else s

/-- The outcome of a frame whose attempt ends without success: by a cancel after a lost arbitration or an error, by its
deadline, by one-shot; none when it is tried again. -/
def CanTx.lostOutcome (t : CanTx) (lost : Bool) : Option Nat :=
  if t.stop = 1 then some (if lost then 4 else 5)
  else if t.stop = 2 then some 6
  else if t.one then some 7
  else none

/-- The head's attempt has ended without success. -/
def State.headFails (s : State) (p : Nat) (lost : Bool) : State :=
  match (s.port p).fifo with
  | [] => s
  | t :: rest =>
    match t.lostOutcome lost with
    | some o => (s.setPort p { s.port p with fifo := rest }).removed p t o
    | none => s

/-- ARBITRATION_LOST (R459, R460). -/
def execArbitrationLost (p : Nat) (s : State) : Res := .next <|
  if s.canOn p [1] ∧ s.canState p < 2 ∧ (s.port p).fifo ≠ [] then (s.inc 0x141E (p + 1) dev).headFails p true else s

/-- The error counters of ISO 11898-1 (R467). A frame received counts REC down; from above 127 it falls to a value from
119 to 127, which the standard leaves open (a free value). -/
def State.recDown (s : State) (p : Nat) : Nat :=
  let r := s.rdN 0x1415 (p + 1) dev
  if 127 < r then 119 + (Config.freeInt s.free % 9).toNat else r - 1

/-- TEC and REC after an error: a transmitter counts 8, a receiver 1, or 8 for what follows its flag; REC stays in its
object. -/
def State.errTec (s : State) (p : Nat) (e : CanErr) (own : Bool) : Nat :=
  s.rdN 0x1414 (p + 1) dev + if own && e != .exempt then 8 else 0
def State.errRec (s : State) (p : Nat) (e : CanErr) (own : Bool) : Nat :=
  min 255 (s.rdN 0x1415 (p + 1) dev + if own || e == .exempt then 0 else if e == .more then 8 else 1)

/-- A frame as it can stand on the bus (R453): the data that its DLC gives, at most 8 octets in a classical frame. -/
def canFrameOk (f : CanFrame) : Bool :=
  !(f.rtr && f.fdf) && (f.fdf || (!f.brs && !f.esi)) && decide (f.dlc < 16) && decide (f.id < 2 ^ (if f.ide then 29 else 11)) &&
    decide (f.data.length = (if f.rtr then 0 else if f.fdf then dlcLen f.dlc else min 8 f.dlc))

/-- FRAME_RECEIVED (R463): a frame of another node. -/
def execFrameReceived (p : Nat) (f : CanFrame) (sofLt : Nat) (s : State) : Res := .next <|
  if s.canOn p [1, 2] ∧ s.canState p < 2 ∧ canFrameOk f then
    (((s.ringPut p ⟨sofLt, f, 0, false, 0, 0⟩).setCounters p (s.rdN 0x1414 (p + 1) dev) (s.recDown p) 0).frameEnd p).draw
  else s

/-- FRAME_SENT (R460, R461, R464): TEC counts down; ESI is 1 when sent error passive. -/
def execFrameSent (p sofLt : Nat) (s : State) : Res := .next <|
  match (s.port p).fifo with
  | [] => s
  | t :: rest =>
    if s.canOn p [1] ∧ s.canState p < 2 then
      let f := { t.frame with esi := s.canState p == 1 }
      let s := s.setPort p { s.port p with fifo := rest }
      let s := s.ringPut p ⟨sofLt, f, 1, false, t.handle, if t.stop = 1 then 2 else 1⟩
      (s.setCounters p (s.rdN 0x1414 (p + 1) dev - 1) (s.rdN 0x1415 (p + 1) dev) 0).frameEnd p
    else s

/-- BUS_ERROR (R459, R460, R462, R467): the error itself ends the attempt of the port's own frame. -/
def execBusError (p : Nat) (e : CanErr) (code : Nat) (own : Bool) (s : State) : Res := .next <|
  if s.canOn p [1, 2] ∧ s.canState p < 2 then
    let s := s.setCounters p (s.errTec p e own) (s.errRec p e own) code
    (if own ∧ e ≠ .more ∧ s.canState p < 2 then s.headFails p false else s).frameEnd p
  else s

/-- BUS_OFF_RECOVERY (R468): sequences of 11 recessive bits; after 128 the port is error active. A change to mode 0 has
ended the recovery. -/
def execBusOffRecovery (p n : Nat) (s : State) : Res := .next <|
  if s.canOn p [1, 2] ∧ s.canState p = 3 ∧ !(s.port p).ended then
    let k := min 128 (s.rdN 0x1417 (p + 1) dev + n)
    let s := s.wr 0x1417 (p + 1) dev k
    if k = 128 then (((s.wr 0x1414 (p + 1) dev 0).wr 0x1415 (p + 1) dev 0).wr 0x1413 (p + 1) dev 0).errorEvent p 0 0 else s
  else s

/-- RESTART (R468): manual recovery starts to count. -/
def restartCheck (p : Nat) (s : State) (_ : Nat) : Nat := idleOr (s.canState p == 2)
def restartSet (p : Nat) (s : State) (_ : Nat) : State := (s.wr 0x1413 (p + 1) dev 3).wr 0x1417 (p + 1) dev 0

def execRestart (src : Src) (p v : Nat) (s : State) : Res :=
  .next (s.writeObj src 0x140C (p + 1) [dev] v (restartCheck p) (restartSet p))

/-- RING_CONSUMER (R466): only the reader that 0x141C names, between the consumer and the producer. -/
def consumerCheck (src : Src) (p : Nat) (v : Int) (s : State) (_ : Nat) : Nat :=
  let reader := match src with
    | .keyway _ _ => s.rd 0x141C (p + 1) dev == 0
    | .user => s.rd 0x141C (p + 1) dev == 1
    | .service => false
  let c := s.rdN 0x1419 (p + 1) dev
  if !reader then aDenied
  else if (s.rdN 0x1418 (p + 1) dev + 65536 - c) % 65536 < (v.toNat + 65536 - c) % 65536 then aRange
  else aDone

def consumerSet (p : Nat) (v : Int) (s : State) (_ : Nat) : State := s.wr 0x1419 (p + 1) dev v

def execRingConsumer (src : Src) (p v : Nat) (s : State) : Res :=
  .next (s.writeObj src 0x1419 (p + 1) [dev] v (consumerCheck src p v) (consumerSet p v))

end Sys2Proof.Machine
end

