-- ==== Sys2Proof/Machine/Mlkem.lean ====
section
/-! DEFINITION. The encapsulation of ML-KEM-768, which the manual names by its standard (FIPS 203; R448): the shared secret and
the ciphertext for an encapsulation key and 32 random octets. -/

namespace Sys2Proof.Machine

def kemQ : Nat := 3329

/-- The transform of 256 coefficients into 128 pairs, and back: the root 17 and its inverse, of order 256; 3303 is the inverse
of 128. -/
def kemNtt (f : List Nat) : List Nat :=
  now (packOf 256 f) fun n =>
    mapNow (· % kemQ) ((nttDown kemQ (nttRoots kemQ 7 17 []) 32768 [1] [n]).flatMap (fieldsOf 256 2))

/-- The pairs of neighbours as numbers of two fields. -/
def kemPairs : List Nat → List Nat
  | x :: y :: t => now (x + y * p2 256) fun v => v :: kemPairs t
  | _ => []
def kemInv (f : List Nat) : List Nat :=
  now ((nttUp kemQ (nttRoots kemQ 7 1175 []) 32768 [1] (kemPairs f)).headD 0) fun n =>
    mapNow (fun x => x % kemQ * 3303 % kemQ) (fieldsOf 256 256 n)

/-- The products of pairs modulo X ^ 2 - γ, where γ is a factor of the last level and then its negative. -/
def kemProducts : List Nat → List Nat → List Nat → List Nat
  | g :: gs, a :: b :: c :: d :: s, e :: f :: h :: i :: t =>
    now ((a * e + g * (b * f)) % kemQ) fun u => now ((a * f + b * e) % kemQ) fun v =>
    now ((c * h + (kemQ - g) * (d * i)) % kemQ) fun w => now ((c * i + d * h) % kemQ) fun x =>
      u :: v :: w :: x :: kemProducts gs s t
  | _, _, _ => []

/-- The factors of all levels but the last, and those of the last. -/
def kemTable : List Nat → List Nat → List Nat
  | [], t => t
  | [w], t => nttFactors kemQ w t
  | w :: ws, t => kemTable ws (t ++ nttFactors kemQ w t)
def kemGammas : List Nat := kemTable (nttRoots kemQ 7 17 []) [1]

/-- The inner product of two vectors in the transform's domain, and back from it. -/
def kemDot (u v : List (List Nat)) : List Nat :=
  kemInv ((u.zip v).foldl (fun acc p => zipNow (fun a b => (a + b) % kemQ) acc (kemProducts kemGammas p.1 p.2))
    (List.replicate 256 0))

/-- The candidates of a block of SHAKE128: twelve bits each, kept where they are below q. -/
def kemCandidates : Nat → Nat → List Nat
  | 0, _ => []
  | n + 1, v => now (v % 4096) fun x => now (v >>> 12) fun v => if x < kemQ then x :: kemCandidates n v else kemCandidates n v

/-- Take blocks of SHAKE128 until `need` coefficients stand. -/
def kemReject : Nat → Nat → Nat → List Nat
  | 0, _, _ => []
  | n + 1, need, a =>
    let l := (kemCandidates 112 (a % p2 1344)).take need
    if l.length = need then l else now (need - l.length) fun need => now (keccakF a) fun a => l ++ kemReject n need a

/-- An entry of the matrix, in the transform's domain (SampleNTT). -/
def kemEntry (rho : List Byte) (row col : Nat) : List Nat :=
  let p := keccakPad 168 0x1F (rho ++ [BitVec.ofNat 8 col, BitVec.ofNat 8 row])
  now (keccakAbsorb 168 p.1 p.2 0) fun a => kemReject 6 256 a

/-- A small polynomial of a seed: the difference of two sums of two bits, modulo q (SamplePolyCBD). -/
def kemSmall (seed : List Byte) (n : Nat) : List Nat :=
  now (shake256 128 (seed ++ [BitVec.ofNat 8 n])) fun v =>
    mapNow (fun x => (x % 2 + x / 2 % 2 + kemQ - x / 4 % 2 - x / 8 % 2) % kemQ) (fieldsOf 4 256 v)

/-- A coefficient compressed to `d` bits. -/
def kemCompress (d x : Nat) : Nat := (x * p2 d + 1664) / kemQ % p2 d

/-- A polynomial compressed and packed. -/
def kemPack (d : Nat) (f : List Nat) : List Byte := octets (32 * d) (packOf d (mapNow (kemCompress d) f))

/-- The sum of polynomials. -/
def kemAdd (f g : List Nat) : List Nat := zipNow (fun a b => (a + b) % kemQ) f g

/-- Encrypt 32 octets under an encapsulation key with a seed (K-PKE.Encrypt). -/
def kemEncrypt (ek m seed : List Byte) : List Byte :=
  let t := (List.range 3).map fun i => mapNow (· % kemQ) (fieldsOf 12 256 (numOf ((ek.drop (384 * i)).take 384)))
  let rho := (ek.drop 1152).take 32
  let y := (List.range 3).map fun i => kemNtt (kemSmall seed i)
  let u := (List.range 3).map fun i =>
    kemPack 10 (kemAdd (kemDot ((List.range 3).map fun j => kemEntry rho j i) y) (kemSmall seed (3 + i)))
  let mu := mapNow (· * 1665) (fieldsOf 1 256 (numOf m))
  u.flatten ++ kemPack 4 (kemAdd (kemAdd (kemDot t y) (kemSmall seed 6)) mu)

/-- The shared secret and the ciphertext of ML-KEM-768 for an encapsulation key and 32 random octets. -/
@[irreducible] def mlkemEncaps (ek m : List Byte) : List Byte × List Byte :=
  let g := sha3x512 (m ++ sha3 ek)
  (g.take 32, kemEncrypt ek m (g.drop 32))

end Sys2Proof.Machine
end

