-- ==== Sys2Proof/Machine/Latches.lean ====
section
/-! DEFINITION. Clearing latches (R515 to R517). -/

namespace Sys2Proof.Machine

/-- The port code of a request (R370, R423): which Ethernet port a session uses is not told by the request (log 5). -/
def State.portCode (s : State) (src : Src) : Nat :=
  match src with
  | .keyway _ _ => (Config.freeInt s.free % 2).toNat
  | .user => 2
  | .service => 3

/-- Entry 0x6004 of a cleared latch, with the latch's correlation ID (R504, R515). -/
def State.clearNote (s : State) (src : Src) (site chan cause corr : Nat) : State :=
  s.draw.raise site chan 0x6004 (leNat 1 cause ++ leNat 1 0 ++ leNat 1 (s.portCode src)) corr

/-! ## Channels (R516) -/

/-- The shunt voltage magnitude of a channel exceeds its soft threshold. -/
def State.shuntHigh (s : State) (c : Nat) : Bool := decide (s.rdN 0x2810 1 c < (s.chan c).shunt.natAbs)

/-- A channel's own cause persists (R516, R530); `arg` the argument of a first cause. -/
def State.ownPersists (s : State) (c cause : Nat) (arg : Option Nat) : Bool :=
  let n := dieOf c
  match cause with
  | 2 => s.shuntHigh c
  | 4 => s.rd 0x6012 1 (siteI n) == 1
  | 5 => s.groupPersists n arg
  | 8 | 13 => bit (s.rdN 0x2853 4 (siteI n)) (quadOf c)
  | 14 => decide (s.rd 0x4032 0 c - 5000 < (s.chan c).temp)
  | 16 => s.inputDemands 2
  | 17 => (s.die n).loop.state != 2
  | 18 => true
  | 20 => !s.vioOk n
  | _ => false

/-- The causes of a channel's latch, the first with its argument. -/
def State.causesOf (s : State) (c : Nat) : List (Nat × Option Nat) :=
  (s.rdN 0x6010 2 c, some (s.rdN 0x6010 3 c)) ::
    ((List.range 32).filter fun k => bit (s.rdN 0x6010 6 c) k).map fun k => (k, none)

/-- Some cause of a latched channel persists, or was raised in this tick: the cause wins over a clear (R179, R515). -/
def State.latchPersists (s : State) (c : Nat) : Bool :=
  s.latched c && ((s.chan c).causeAt == some s.clock.cnt || (s.causesOf c).any fun x => s.ownPersists c x.1 x.2)

/-- A clear reaches every member of the gang, or none. -/
def clearCheck (s : State) (c : Nat) : Nat := idleOr (!(s.gang c).any s.latchPersists)

/-- Clear one channel's latch: it is idle, its short status is clear; a frame source that caused it deasserts (R508). -/
def State.clearChan (s : State) (src : Src) (c : Nat) : State :=
  if s.latched c then
    let cause := s.rdN 0x6010 2 c
    let arg := s.rdN 0x6010 3 c
    let corr := s.rdN 0x6010 5 c
    let s := (((s.wr 0x6010 1 c 0).wr 0x6010 2 c 0).wr 0x6010 3 c 0).wr 0x6010 6 c 0
    let s := (s.wr 0x2810 4 c 0).clearNote src (dieOf c) c cause corr
    if cause = 5 ∧ 4 ≤ arg then s.deassertSource (dieOf c) arg else s
  else s

/-- Clear a channel's gang. -/
def clearSet (src : Src) (s : State) (c : Nat) : State :=
  (each (s.gang c) (fun s m => s.clearChan src m) (s.wakeDie (dieOf c) 3)).clockMark (dieOf c)

/-- CHANNEL_LATCH_CLEAR (R516). -/
def execChannelLatchClear (src : Src) (first last v : Nat) (s : State) : Res :=
  .next (s.writeObj src 0x6010 7 (chanRange first last) v clearCheck (clearSet src))

/-! ## The die clear (R517) -/

/-- A channel latch that the die clear takes: every cause lies in 2 to 5. -/
def State.dieClears (s : State) (c : Nat) : Bool :=
  s.latched c && (s.causesOf c).all fun x => decide (2 ≤ x.1) && decide (x.1 ≤ 5)

/-- A latch of cause 5 from a frame whose cause persists. -/
def State.frameLatched (s : State) (c : Nat) : Bool :=
  s.latched c && s.rd 0x6010 2 c == 5 && decide (4 ≤ s.rd 0x6010 3 c) && s.frameCause (s.rdN 0x6010 3 c)

/-- The site that an instance of a site object names. -/
def siteAt (e : Nat) : Nat := e - 0x3C0

def dieClearCheck (s : State) (e : Nat) : Nat :=
  let n := siteAt e
  let now (c : Nat) : Bool := s.dieClears c && (s.chan c).causeAt == some s.clock.cnt
  idleOr (!((siteChans n).any now || (siteChans n).any s.shuntHigh || s.asserted n 0 || s.asserted n 1 || (siteChans n).any s.frameLatched ||
    s.dabPersists n 0 || s.dabPersists n 1))

/-- Clear a stage's latch by the die clear; it restarts only at the next power start (R292). -/
def State.clearStage (s : State) (src : Src) (n i : Nat) : State :=
  let x := (s.die n).dab i
  if x.latched then
    let cause := s.rdN 0x6012 (2 + i) (siteI n)
    let s := (s.clearDab n i).clearNote src n (0x200 + i) cause x.corr
    if cause = 5 ∧ 4 ≤ x.arg then s.deassertSource n x.arg else s
  else s

/-- The segment latch is cleared, and the hub's mark of a segment-bus fault with it (R288). -/
def State.clearSegment (s : State) (src : Src) (n : Nat) : State :=
  if s.rd 0x6012 1 (siteI n) = 1 then
    let s := ((s.wr 0x6012 1 (siteI n) 0).wr 0x2801 1 (siteI n) 0).clearNote src n noChan 4 (s.die n).segCorr
    (s.setDie n { s.die n with markBus := false }).showMarks n
  else s

def dieClearSet (src : Src) (s : State) (e : Nat) : State :=
  let n := siteAt e
  let s := (s.wakeDie n 3).clearSegment src n
  let s := each [0, 1] (fun s i => s.clearStage src n i) s
  (each ((siteChans n).filter s.dieClears) (fun s c => s.clearChan src c) s).clockMark n

/-- DIE_CLEAR (R517). -/
def execDieClear (src : Src) (n v : Nat) (s : State) : Res :=
  .next (s.writeObj src 0x6012 4 [siteI n] v dieClearCheck (dieClearSet src))

/-! ## Hub groups, drives, axes (R517) -/

/-- An asserted FLT input is connected to a group. -/
def State.fltHeld (s : State) (g : Nat) : Bool :=
  (List.range 8).any fun k => bit s.power.flt k && bit (s.rdN 0x3010 (k + 1) dev) g

/-- The groups of a mask. -/
def maskGroups (m : Int) : List Nat := (List.range 8).filter (bit m.toNat)

def fltClearCheck (m : Int) (s : State) (_ : Nat) : Nat := idleOr (!(maskGroups m).any s.fltHeld)

/-- Clear one group: its units are stopped and free again. -/
def State.clearGroup (s : State) (src : Src) (g : Nat) : State :=
  if bit (s.rdN 0x6014 1 dev) g then
    let s := s.wr 0x6014 1 dev (clearBit (s.rdN 0x6014 1 dev) g)
    let s := each (s.groupUnits g) (fun s u => s.setUnit 0 u { s.unit 0 u with latched := false, want := [], pins := [], moves := [] }) s
    s.clearNote src 0 noChan 5 (look 0 s.power.fltCorr g)
  else s

def fltClearSet (src : Src) (m : Int) (s : State) (_ : Nat) : State := each (maskGroups m) (fun s g => s.clearGroup src g) s

/-- FLT_GROUP_CLEAR. -/
def execFltGroupClear (src : Src) (mask : Nat) (s : State) : Res :=
  .next (s.writeObj src 0x6014 2 [dev] mask (fltClearCheck mask) (fltClearSet src mask))

/-- An STO demand stands on a drive, on an axis: a safe output that feeds it is off. -/
def State.stoDemandDrive (s : State) (a : Nat) : Bool := [0, 1, 2, 3].any fun n => (s.fedDrives n).contains a && !(s.sout n).on
def State.stoDemandAxis (s : State) (a : Nat) : Bool := [0, 1, 2, 3].any fun n => (s.fedAxes n).contains a && !(s.sout n).on

/-- An FLT input of the group of some of these units is asserted. -/
def State.unitsHeld (s : State) (us : List Nat) : Bool := us.any fun u => s.fltHeld (s.rdN 0x3011 (u + 1) dev)

def bldcClearCheck (a : Nat) (s : State) (_ : Nat) : Nat :=
  idleOr (!(s.stoDemandDrive a || (s.drive a).ss1 || s.unitsHeld (bldcUnits a)))

/-- A latched drive enters state 0 with setpoint 0. -/
def bldcClearSet (src : Src) (a : Nat) (s : State) (_ : Nat) : State :=
  if s.driveState a = 8 then
    let cause := s.rdN 0x3420 (a + 1) dev
    let corr := (s.drive a).corr
    (((s.enterDrive a 0).wr 0x3400 (a + 1) dev 0).wr 0x3420 (a + 1) dev 0).clearNote src 0 (0x300 + a) cause corr
  else s

/-- BLDC_CLEAR. -/
def execBldcClear (src : Src) (a v : Nat) (s : State) : Res :=
  .next (s.writeObj src 0x6015 (a + 1) [dev] v (bldcClearCheck a) (bldcClearSet src a))

def axisClearCheck (a : Nat) (s : State) (_ : Nat) : Nat :=
  idleOr (!(s.stoDemandAxis a || (s.axis a).ss1 || s.unitsHeld (stepUnits a)))

/-- A latched axis enters state 0, unreferenced (R332). -/
def axisClearSet (src : Src) (a : Nat) (s : State) (_ : Nat) : State :=
  if s.axisState a = 7 then
    let cause := s.rdN 0x3457 (a + 1) dev
    let corr := (s.axis a).corr
    let x := s.axis a
    let s := (((s.setAxis a { x with c := x.x }).wr 0x344F (a + 1) dev 0).targetHere a).axisBit a 3 true
    (s.wr 0x3457 (a + 1) dev 0).clearNote src 0 (0x300 + a) cause corr
  else s

/-- AXIS_CLEAR. -/
def execAxisClear (src : Src) (a v : Nat) (s : State) : Res :=
  .next (s.writeObj src 0x6016 (a + 1) [dev] v (axisClearCheck a) (axisClearSet src a))

end Sys2Proof.Machine
end

