-- ==== Sys2Proof/Machine/Supplies.lean ====
section
/-! DEFINITION. Supplies and the hub's temperature (chapter 18). Banks 0 VIO_H0, 1 VIO_H1, 2 to 7 VIO1 to VIO6,
8 VIO_M, which the measuring part reads. -/

namespace Sys2Proof.Machine

/-- 85 % of the level of a bank, in mV (R528); 0 for an absent bank. -/
def bankThreshold (cls : Nat) : Nat := if cls = 1 then 1530 else if cls = 2 then 2805 else 0

/-- A bank, and whether it is undervoltage (0x1220.04; the QM keeps its own). -/
def State.bank (s : State) (b : Nat) : Bank := if b = 8 then s.qm.bankM else look {} s.banks b
def State.vioUnder (s : State) (b : Nat) : Bool :=
  if b = 8 then !s.qm.vioM else bit (s.rdN 0x1220 4 dev) b

/-- The detector of a bank runs: VSYS is valid, for VIO_M the QM has its supply. -/
def State.bankWatched (s : State) (b : Nat) : Bool := if b = 8 then s.qm.powered else s.vsys && decide (b < 8)

/-- A supply event of a bank; one of VIO_M reaches the trail while VSYS is valid. -/
def State.bankNote (s : State) (b : Nat) (under : Bool) : State := if s.vsys then s.supplyNote b under else s

/-- A bank becomes undervoltage, or valid again. -/
def State.markBank (s : State) (b : Nat) (under : Bool) : State :=
  let x : Bank := { s.bank b with since := s.clock.cnt }
  if b = 8 then s.onQm fun q => { q with vioM := !under, bankM := x }
  else { s with banks := put s.banks b x }.wr 0x1220 4 dev
    (if under then setBit (s.rdN 0x1220 4 dev) b else clearBit (s.rdN 0x1220 4 dev) b)

/-- VIOn of a site is lost (R530): every gate off, both stages stopped, all latched with cause 20, and frame 0x23, which a
stage that latches brings; with both latched before, the die sends it all the same. -/
def State.siteSupply (s : State) (n : Nat) : State :=
  let corr := s.corrId n
  let old := (s.die n).dab0.latched && (s.die n).dab1.latched
  let s := each (siteChans n) (fun s c => s.latchOne c 20 0 corr) (s.openCorr n)
  let s := each [0, 1] (fun s i => s.latchDab n i 20 0 corr) s
  if old then s.raiseFrame n .toHub 0x23 64 corr else s

/-- VIO_H1 is lost (R531): the network and xSPI cease; a store ends with status 3. -/
def State.networkSupply (s : State) : State :=
  if s.net.storing then
    ({ s with net := { s.net with storing := false, storeBy := none, storeSnap := [], storeBlobs := [] } }).wr 0x1010 2 dev 3
  else s

/-- What the loss of a bank does (R530, R531). Without VIO_M, MCLK reads as absent and ADJ_EN as low, and the port is silent. -/
def State.bankLost (s : State) (b : Nat) : State :=
  if b = 0 then (s.latchHubOutputs 8).controlledStop 17
  else if b = 1 then s.networkSupply
  else if b = 8 then s.mclkFault
  else if s.sitePop (b - 1) then s.siteSupply (b - 1)
  else s

/-- VIO_UNDERVOLTAGE (R528, R530 to R532): a present bank below 85 % of its level for 10 µs, whatever follows in the same
tick. -/
def execVioUndervoltage (b mv : Nat) (s : State) : Res := .next <|
  if s.bankWatched b ∧ mv < bankThreshold (s.bank b).cls ∧ !s.vioUnder b then
    ((s.markBank b true).bankNote b true).bankLost b
  else s

/-- A reading of an absent bank, every 1 ms: present, it takes its class. -/
def State.readBank (s : State) (b mv : Nat) : State :=
  let x : Bank := { cls := bankClass mv, since := s.clock.cnt }
  if b = 8 then s.onQm fun q => { q with bankM := x, vioM := decide (x.cls ≠ 0) }
  else { s with banks := put s.banks b x }.wr 0x1220 3 dev (s.rdN 0x1220 3 dev + bankClass mv * 4 ^ b : Nat)

/-- VIO_RECOVERY (R528): at least 1 ms after the reading that found the bank absent, or that it was below, it is found
present, or valid again. -/
def execVioRecovery (b mv : Nat) (s : State) : Res := .next <|
  let x := s.bank b
  if s.bankWatched b ∧ x.since + 320000 ≤ s.clock.cnt then
    if x.cls = 0 then
      let t := s.readBank b mv
      if bankClass mv = 0 then t else t.bankNote b false
    else if s.vioUnder b ∧ bankThreshold x.cls ≤ mv then (s.markBank b false).bankNote b false
    else s
  else s

/-- The 10 ms of R536, in counts. -/
def hotTime : Nat := 3200000

/-- The hub's temperature stands above its limit, since now or since an earlier measurement; after 10 ms the controlled stop
starts, once. -/
def State.hotJob (s : State) : State :=
  let since := s.hot.since.getD s.clock.cnt
  let s := { s with hot := { s.hot with since := some since } }
  if since + hotTime ≤ s.clock.cnt ∧ !s.hot.acted then { s with hot := { s.hot with acted := true } }.controlledStop 18
  else s

/-- HUB_OVER_TEMPERATURE (R536): a measurement of the hub's temperature, in 0.1 °C, of those it takes every 1 ms. -/
def execHubOverTemperature (t : Int) (s : State) : Res := .next <|
  if s.fw then
    let s := (s.wr 0x1221 1 dev t).wr 0x1221 3 dev (max (s.rd 0x1221 3 dev) t)
    if 10 * s.rd 0x1221 2 dev < t then s.hotJob else { s with hot := {} }
  else s

end Sys2Proof.Machine
end

