-- ==== Sys2Proof/Machine/Password.lean ====
section
/-! DEFINITION. The safety password, the pending safety configuration and the change log (R366 to R370). -/

namespace Sys2Proof.Machine

def State.setLockbox (s : State) (x : Lockbox) : State := { s with lockbox := x }

/-- 10 minutes in ns. -/
def tenMinutes : Nat := 600000000000

/-! ## The safety configuration (R368, R369) -/

/-- The instances of a row of the safety configuration, ascending. -/
def State.rowInsts (s : State) (r : Row) : List Nat := if r.scope = .ch then s.channels else [dev]

/-- The addresses of the safety configuration with their sizes, ascending in index, subindex, instance. -/
def State.configAddrs (s : State) : List (Addr × Nat) :=
  (rows40.filter fun r => r.acc == .rwp).flatMap fun r =>
    (List.range r.subs).flatMap fun j => (s.rowInsts r).map fun e => (⟨r.index, r.sub + j, e⟩, r.ty.size)

/-- The value of an address with a pending set laid over it. -/
def State.overlaid (s : State) (p : List (Addr × Int)) (a : Addr) : Int := (lookup? a p).getD (s.rd a.index a.sub a.inst)

/-- The CRC of the configuration with a pending set laid over it; with none, 0x4000.04 (R369). -/
def State.configCrc (s : State) (p : List (Addr × Int)) : Nat :=
  crc32 (s.configAddrs.flatMap fun x => leInt x.2 (s.overlaid p x.1))

/-- SUPERVISOR_START (R353, R395): hold reasons 0x0102, with [7] on a stored configuration that breaks R341 or does not fit the CRC
stored with it. -/
def execSupervisorStart (crc : Nat) (s : State) : Res := .next <|
  if s.vsys ∧ !s.sec.dead ∧ s.rd 0x4000 1 dev = 0 then
    let bad := !inputsOk s.inFn s.inSrc || crc != s.configCrc []
    let s := (s.wr 0x4000 1 dev 1).wr 0x4000 2 dev (0x0102 + if bad then 0x80 else 0)
    let s := s.setSup { s.sup with startAt := s.lt }
    let s := each [2, 3] (fun s k => if s.kdrvUsed k then s else s.wr 0x4021 (k + 1) dev 6) s
    s.wr 0x1202 1 dev (max (s.rd 0x1202 1 dev) 1)
  else s

/-- 0x40F0.08. -/
def State.pendingCrc (s : State) : Nat := s.configCrc s.lockbox.pending

/-! ## The change log (R370) -/

/-- Write an entry: 256 are kept; the sequence is never reused. -/
def State.logEntry (s : State) (src : Src) (kind : Nat) (a : Addr) (old new' : Int) : State :=
  let x := s.lockbox
  let e : LogEntry := ⟨s.lt, kind, s.portCode src, a.index, a.sub, a.inst, old, new', s.configCrc [], x.logNext⟩
  s.draw.setLockbox { x with log := (e :: x.log).take 256, logNext := x.logNext + 1 }

/-- An entry of kind 2 to 5 names no object. -/
def State.logEvent (s : State) (src : Src) (kind : Nat) : State := s.logEntry src kind ⟨0, 0, 0⟩ 0 0

/-! ## Unlock, lock, password (R366, R367) -/

/-- The unlock ends: the pending set is discarded. -/
def State.endUnlock (s : State) : State :=
  ({ s with net := { s.net with unlockBy := none } }).setLockbox { s.lockbox with pending := [] }

/-- A lockout is in force; the millisecond of its end counts as after it (R178). -/
def State.lockedOut (s : State) : Bool := s.lockbox.lockedAt.any fun t => decide (s.lt / 1000000 < (t + tenMinutes) / 1000000)

/-- The lockout has ended. -/
def State.endLockout (s : State) : State :=
  if s.lockbox.lockedAt.isSome ∧ !s.lockedOut then (s.setLockbox { s.lockbox with lockedAt := none }).wr 0x40F0 6 dev 0 else s

/-- The password is the stored one. -/
def Lockbox.fits (x : Lockbox) (pw : List Byte) : Bool := x.hash == some (sha3 (x.salt ++ pw))

/-- A wrong password is counted and logged; the fifth in a row locks. -/
def State.wrongPassword (s : State) (src : Src) : State :=
  let s := s.endLockout
  let n := s.rd 0x40F0 6 dev + 1
  let s := (s.wr 0x40F0 6 dev n).logEvent src 3
  if 5 ≤ n then (s.setLockbox { s.lockbox with lockedAt := some s.lt }).logEvent src 4 else s

/-- The check of a password: none set, locked out, wrong. -/
def unlockCheck (pw : List Byte) (s : State) (_ : Nat) : Nat :=
  if s.lockbox.hash.isNone then aPassword
  else if s.lockedOut then aLocked
  else if s.lockbox.fits pw then aDone
  else aAuth

/-- One unlock at a time: another session's ends. -/
def unlockSet (src : Src) (s : State) (_ : Nat) : State :=
  let s := s.endLockout.wr 0x40F0 6 dev 0
  let s := if s.unlocked src then s else s.endUnlock
  { s with net := { s.net with unlockBy := some src, unlockLt := s.lt } }

/-- A request whose checks end in "authentication failed" counts a wrong password before it is answered. -/
def State.countWrong (s : State) (src : Src) (r : Option Refuse) : State :=
  if r.map (·.code) = some aAuth ∧ s.serves src then s.wrongPassword src else s

/-- UNLOCK (R367). -/
def execUnlock (src : Src) (pw : List Byte) (s : State) : Res := .next <|
  (s.countWrong src (s.blobChecks src 0x40F0 1 [dev] pw (unlockCheck pw))).writeBlob src 0x40F0 1 [dev] pw
    (fun _ e => unlockCheck pw s e) (unlockSet src)

/-- The old and the new password in the octets of a change. -/
def oldPassword (b : List Byte) : List Byte := sliceB b 1 (fieldAt b 0 1)
def newPassword (b : List Byte) : List Byte := b.drop (2 + fieldAt b 0 1)

/-- A printable ASCII octet. -/
def printable (x : Byte) : Bool := decide (0x20 ≤ x.toNat) && decide (x.toNat ≤ 0x7E)

/-- The checks of a password change (R366). -/
def passwordCheck (b : List Byte) (s : State) (_ : Nat) : Nat :=
  let o := fieldAt b 0 1
  let n := fieldAt b (1 + o) 1
  if b.length ≠ 2 + o + n then aLength
  else if n < 8 ∨ 32 < n ∨ !(newPassword b).all printable then aRange
  else
    match s.lockbox.hash with
    | none => if o = 0 then aDone else aRange
    | some _ => if s.lockedOut then aLocked else if s.lockbox.fits (oldPassword b) then aDone else aAuth

/-- A fresh salt and the hash of the new password. -/
def passwordSet (src : Src) (b : List Byte) (s : State) (_ : Nat) : State :=
  let salt := (List.range 16).map (Config.freeByte s.free)
  let s := s.draw.endLockout.wr 0x40F0 6 dev 0
  (s.setLockbox { s.lockbox with salt := salt, hash := some (sha3 (salt ++ newPassword b)) }).logEvent src 2

/-- PASSWORD_CHANGE (R366). -/
def execPasswordChange (src : Src) (b : List Byte) (s : State) : Res := .next <|
  (s.countWrong src (s.blobChecks src 0x40F0 2 [dev] b (passwordCheck b))).writeBlob src 0x40F0 2 [dev] b
    (fun _ e => passwordCheck b s e) (passwordSet src b)

/-- LOCK (R367). -/
def execLock (src : Src) (v : Nat) (s : State) : Res :=
  .next (s.writeObj src 0x40F0 3 [dev] v (fun _ _ => aDone) fun s _ => s.endUnlock)

/-- UNLOCK_TIMEOUT (R367). -/
def execUnlockTimeout (s : State) : Res := .next <|
  if s.net.unlockBy.isSome ∧ s.net.unlockLt + tenMinutes ≤ s.lt then s.endUnlock else s

/-- LOCKOUT_END (R367). -/
def execLockoutEnd (s : State) : Res := .next s.endLockout

/-! ## RWP writes and the apply (R341, R368) -/

/-- An RWP value beyond its range in R358's objects: KDRV0 and KDRV1 are always used. -/
def rwpCheck (i j : Nat) (v : Int) (_ : State) (_ : Nat) : Nat := if i = 0x4020 ∧ j ≤ 2 ∧ v = 0 then aRange else aDone

/-- An RWP write goes to the pending set. -/
def rwpSet (i j : Nat) (v : Int) (s : State) (e : Nat) : State :=
  let s := s.setLockbox { s.lockbox with pending := insertBy Addr.key ⟨i, j, e⟩ v s.lockbox.pending }
  { s with net := { s.net with unlockLt := s.lt } }

/-- The object at an address is RWP. -/
def isRwp (i j e : Nat) : Bool := (findRow ⟨i, j, e⟩).any fun r => r.acc == .rwp

/-- RWP_WRITE (R368). -/
def execRwpWrite (src : Src) (i j : Nat) (inst : Inst) (v : Int) (s : State) : Res := .next <|
  if isRwp i j (instOf inst) then s.writeObj src i j [instOf inst] v (rwpCheck i j v) (rwpSet i j v) else s

/-- Every channel is idle or latched, the DC link off, every drive and axis closed. -/
def State.applyIdle (s : State) : Bool := s.powerOff && s.channels.all (fun c => s.idle c || s.latched c) && s.allClosed

/-- The value of a @dev object under the pending set. -/
def State.pendingAt (s : State) (i j : Nat) : Nat := (s.overlaid s.lockbox.pending ⟨i, j, dev⟩).toNat

/-- The checks of an apply, in the order of R452. -/
def applyCheck (src : Src) (crc : Int) (s : State) (_ : Nat) : Nat :=
  if s.rwpAccess src ≠ aDone then aPassword
  else if !inputsOk (fun k => s.pendingAt 0x4001 (k + 1)) (fun k => s.pendingAt 0x4002 (k + 1)) then aRange
  else if !s.applyIdle then aNotIdle
  else if crc ≠ s.pendingCrc then aMismatch
  else aDone

/-- What a new configuration changes at once: unused contactors, the outputs that feed STO. -/
def State.reconfigure (s : State) : State :=
  let s := each [2, 3] (fun s k =>
    if s.kdrvUsed k then (if s.rd 0x4021 (k + 1) dev = 6 then s.wr 0x4021 (k + 1) dev 0 else s)
    else (s.openKdrv k).wr 0x4021 (k + 1) dev 6) s
  let s := each s.channels (fun s c => if s.rd 0x4036 0 c = 1 then s else s.wr 0x4033 0 c 0) s
  (each [0, 1, 2, 3] (fun s n => if (s.sout n).on then s.freeOut n else s.stoOut n) s).showActive

/-- Apply the pending set: the values, the log, hold reasons [1] and [7]. -/
def applySet (src : Src) (s : State) (_ : Nat) : State :=
  let p := s.lockbox.pending
  let changed := (p.map fun x => (x.1, s.rd x.1.index x.1.sub x.1.inst, x.2)).filter fun x => decide (x.2.1 ≠ x.2.2)
  let s := each p (fun s x => s.wr x.1.index x.1.sub x.1.inst x.2) s
  let s := s.setLockbox { s.lockbox with pending := [] }
  let s := each changed (fun s x => s.logEntry src 1 x.1 x.2.1 x.2.2) s
  let s := (((s.logEvent src 5).setHold 1).clearHold 7).reconfigure
  { s with net := { s.net with unlockLt := s.lt } }

/-- APPLY (R368). -/
def execApply (src : Src) (crc : Nat) (s : State) : Res :=
  .next (s.writeObj src 0x40F0 4 [dev] crc (applyCheck src crc) (applySet src))

end Sys2Proof.Machine
end

