-- ==== Sys2Proof/Machine/Security.lean ====
section
/-! DEFINITION. Security (chapter 16): customer roots, anti-rollback, image loads, debug, JTAG, attestation. -/

namespace Sys2Proof.Machine

/-! ## Customer roots and rollback (R473, R474, R480, R482 to R484) -/

/-- Host key slot k holds a key. -/
def State.keySlotSet (s : State) (k : Nat) : Bool := (s.rdB 0x1303 k dev).any (· != 0)

/-- The sender is a session opened with the key in host key slot 1, and that slot is set. -/
def State.bySlot1 (s : State) (src : Src) : Bool :=
  match src with
  | .keyway id _ => s.keySlotSet 1 && (s.session? id).any fun x => x.keySlot == 1
  | .user | .service => false

/-- CUSTOMER_ROOT_WRITE (R473). -/
def rootWriteCheck (src : Src) (k : Nat) (h : List Byte) (s : State) (_ : Nat) : Nat :=
  if !s.bySlot1 src then aDenied
  else if s.rdB 0x7020 k dev ≠ [] then aReadOnly
  else if h.all (· == 0) then aRange
  else aDone

def rootWriteSet (k : Nat) (h : List Byte) (s : State) (_ : Nat) : State := s.wrB 0x7020 k dev h

def execCustomerRootWrite (src : Src) (k : Nat) (h : List Byte) (s : State) : Res :=
  .next (s.writeBlob src 0x7020 k [dev] h (rootWriteCheck src k h) (rootWriteSet k h))

/-- CUSTOMER_ROOT_REVOKE (R474): the other slot must be programmed and not revoked. -/
def revokeCheck (k : Nat) (s : State) (_ : Nat) : Nat :=
  if s.rdB 0x7020 (3 - k) dev = [] ∨ s.rd 0x7021 (3 - k) dev = 1 then aRange else aDone

def revokeSet (k : Nat) (s : State) (_ : Nat) : State := s.wr 0x7021 k dev 1

def execCustomerRootRevoke (src : Src) (k v : Nat) (s : State) : Res :=
  .next (s.writeObj src 0x7021 k [dev] v (revokeCheck k) (revokeSet k))

/-- ROLLBACK_COMMIT (R483, R484): the counter rises to the running value, and slots with a lower one take state 2. -/
def rollbackCheck (k : Nat) (s : State) (_ : Nat) : Nat := if s.rd 0x7032 k dev = 0xFF then aRange else aDone

def rollbackSet (k : Nat) (s : State) (_ : Nat) : State :=
  let r := s.rdN 0x7032 k dev
  if r ≤ s.rdN 0x7030 k dev then s
  else each [0, 1] (fun s p =>
    if s.slotState k p = 1 ∧ imgRollback (s.slotBytes (slotNo k p)) < r then s.setSlotState k p 2 else s) (s.wr 0x7030 k dev r)

def execRollbackCommit (src : Src) (k v : Nat) (s : State) : Res :=
  .next (s.writeObj src 0x7031 k [dev] v (rollbackCheck k) (rollbackSet k))

/-- PREFERRED_SLOT (R480). -/
def preferCheck (k : Nat) (v : Int) (s : State) (_ : Nat) : Nat := if s.slotState k v.toNat = 1 then aDone else aRange
def preferSet (k : Nat) (v : Int) (s : State) (_ : Nat) : State := s.prefer k v.toNat

def execPreferredSlot (src : Src) (k v : Nat) (s : State) : Res :=
  .next (s.writeObj src 0x7034 k [dev] v (preferCheck k v) (preferSet k v))

/-! ## Loads (R485) -/

/-- The largest image of a type. -/
def maxImage (ty : Nat) : Nat := 256 + 1952 + 3309 + maxPayload ty

/-- The refusals of a load begin, in the order of R485. -/
def loadBeginCode (src : Src) (ty total : Nat) (s : State) : Nat :=
  if ty ≠ 1 ∧ ty ≠ 2 ∧ ty ≠ 4 then aRange
  else if maxImage ty < total ∨ total < 256 + 1312 + 2420 + 1 then aLength
  else if s.rd 0x7040 4 dev = 1 then aBusy
  else match src with
    | .keyway _ _ => aDone
    | .user | .service => aDenied

/-- The load opens: the non-preferred slot is erased. -/
def State.openLoad (s : State) (src : Src) (ty total : Nat) : State :=
  let k := typeSub ty
  let p := 1 - s.preferred k
  let s := s.setSec { s.sec with slots := put s.sec.slots (slotNo k p) ⟨total, []⟩, loadTy := ty, loadBy := some src, loadLast := s.lt }
  ((s.setSlotState k p 0).wr 0x7040 4 dev 1).wr 0x7040 5 dev 0

/-- LOAD_BEGIN. The order is R485's own. -/
def State.loadBegin (s : State) (src : Src) (ty total : Nat) : State :=
  s.serve src opWrite (addrWord 0x7040 1 1) (rangeWord dev dev) fun s => needDone (loadBeginCode src ty total s) (done (s.openLoad src ty total))

def execLoadBegin (src : Src) (ty total : Nat) (s : State) : Res := .next (s.loadBegin src ty total)

/-- The pieces of the open load's slot. -/
def State.loadSlot (s : State) : Nat := let k := typeSub s.sec.loadTy; slotNo k (1 - s.preferred k)
def State.loadPieces (s : State) : Pieces := look {} s.sec.slots s.loadSlot

/-- LOAD_PIECE: octets at an offset; without an open load it is not idle (log 21). -/
def pieceCheck (off n : Nat) (s : State) (_ : Nat) : Nat :=
  if s.rd 0x7040 4 dev ≠ 1 then aNotIdle else if s.loadPieces.total < off + n then aLength else aDone

def pieceSet (off : Nat) (d : List Byte) (s : State) (_ : Nat) : State :=
  let x := s.loadPieces
  s.setSec { s.sec with slots := put s.sec.slots s.loadSlot { x with parts := x.parts ++ [(off, d)] }, loadLast := s.lt }

def execLoadPiece (src : Src) (off : Nat) (d : List Byte) (s : State) : Res :=
  .next (s.writeBlob src 0x7040 2 [dev] (leNat 4 off ++ d) (pieceCheck off d.length) (pieceSet off d))

/-- The dies that are to run an image of a type, by their steps. -/
def State.runSteps (s : State) (ty : Nat) : List Nat := if ty = 2 then s.sites.map dieStep else [dieStep 0]

/-- The result of a load (R477, R485): 7 incomplete, 8 when the flash has failed, else the checks. -/
def State.loadResult (s : State) (flashOk : Bool) : Nat :=
  match s.loadPieces.whole with
  | none => 7
  | some b => if flashOk then s.imageCheck s.sec.loadTy (s.runSteps s.sec.loadTy) b else 8

/-- LOAD_END: a verified slot takes state 1 and becomes preferred, a failed one state 2. -/
def loadEndCheck (s : State) (_ : Nat) : Nat := idleOr (s.rd 0x7040 4 dev == 1)

def loadEndSet (flashOk : Bool) (s : State) (_ : Nat) : State :=
  let ty := s.sec.loadTy
  let k := typeSub ty
  let p := 1 - s.preferred k
  let r := s.loadResult flashOk
  let s := (s.wr 0x7040 5 dev r).setSec { s.sec with loadBy := none }
  let s := if r = 0 then ((s.setSlotState k p 1).prefer k p).wr 0x7040 4 dev 3 else (s.setSlotState k p 2).wr 0x7040 4 dev 4
  s.imageNote ty p r

def execLoadEnd (src : Src) (v : Nat) (flashOk : Bool) (s : State) : Res :=
  .next (s.writeObj src 0x7040 3 [dev] v loadEndCheck (loadEndSet flashOk))

/-- LOAD_ABANDON: 60 s without a piece; a piece at the expiry wins (R178). The end of the session and a reset abandon it too. -/
def execLoadAbandon (s : State) : Res := .next <|
  if s.fw ∧ s.rd 0x7040 4 dev = 1 ∧ s.sec.loadLast + 60000000000 < s.lt then s.abandonLoad else s

/-! ## Debug and JTAG (R489 to R491) -/

/-- The serial number (log 2). -/
def State.serialNo (s : State) : List Byte := padTo 16 (s.partOctets 0)

/-- DEBUG_TOKEN: refused always on an S part. The key and the signature are those of ML-DSA-65 or of ML-DSA-44. -/
def debugCheck (root : Nat) (key sig : List Byte) (s : State) (_ : Nat) : Nat :=
  if !([1, 2].any fun alg => key.length == keyLen alg && sig.length == sigLen alg) then aLength
  else if s.sealedPart then aDenied
  else if 2 < root ∨ s.rootHash 4 root ≠ some (sha3 key) ∨
      !mldsaVerify key debugCtx (leNat 8 (s.rdN 0x7060 1 dev) ++ s.serialNo) sig then aAuth
  else aDone

/-- Debug unlocks, and the nonce changes. -/
def debugSet (s : State) (_ : Nat) : State := ((s.setSec { s.sec with debug := true }).wr 0x7060 4 dev 2).newNonce

def execDebugToken (src : Src) (root : Nat) (key sig : List Byte) (s : State) : Res :=
  .next (s.writeBlob src 0x7060 2 [dev] (leNat 4 root ++ key ++ sig) (debugCheck root key sig) debugSet)

/-- DEBUG_LOCK. -/
def debugLockSet (s : State) (_ : Nat) : State :=
  let s := if s.net.unlockBy = some .service then s.endUnlock else s
  (s.setSec { s.sec with debug := false, serviceNonce := [] }).wr 0x7060 4 dev (if s.sealedPart then 0 else 1)

def execDebugLock (src : Src) (v : Nat) (s : State) : Res :=
  .next (s.writeObj src 0x7060 3 [dev] v (fun _ _ => aDone) debugLockSet)

/-- The TAP's instruction (R490): 1 IDCODE, 2 BYPASS, 3 SAMPLE/PRELOAD, 4 EXTEST. On an S part none has any effect (R489). -/
def State.tap (s : State) (f : Sec → Sec) : Res := .next (if s.vsys && !s.sealedPart then s.setSec (f s.sec) else s)

def execIdcode (s : State) : Res := s.tap fun x => { x with jtag := 1 }
def execBypass (s : State) : Res := s.tap fun x => { x with jtag := 2 }
def execSamplePreload (bits : List Bool) (s : State) : Res := s.tap fun x => { x with jtag := 3, boundary := bits }

/-- The drivers of every site are off and the DC link is off. -/
def State.extestOk (s : State) : Bool := s.sites.all (fun n => s.rd 0x2800 4 (siteI n) == 0) && s.rd 0x3050 2 dev == 0

def execExtest (s : State) : Res := s.tap fun x => { x with jtag := 4 }

/-- The instruction that the TAP acts by: EXTEST acts as BYPASS whenever a driver or the DC link is not off. -/
def State.tapInstr (s : State) : Nat := if s.sec.jtag = 4 ∧ !s.extestOk then 2 else s.sec.jtag

/-! ## Attestation (R492 to R494) -/

/-- The nonce of the sender. -/
def State.attNonce (s : State) (src : Src) : List Byte :=
  match src with
  | .keyway id _ => ((s.session? id).map (·.nonce)).getD []
  | .user => s.sec.userNonce
  | .service => s.sec.serviceNonce

def State.setAttNonce (s : State) (src : Src) (b : List Byte) : State :=
  match src with
  | .keyway id _ =>
    match s.session? id with
    | some x => s.setSession { x with nonce := b }
    | none => s
  | .user => s.setSec { s.sec with userNonce := b }
  | .service => s.setSec { s.sec with serviceNonce := b }

def execAttestationNonce (src : Src) (b : List Byte) (s : State) : Res :=
  .next (s.writeBlob src 0x7070 1 [dev] b (fun _ _ => aDone) fun s _ => s.setAttNonce src b)

/-- The die step of a site, 0x1021: 0 where it is not populated. -/
def State.stepAt (s : State) (n : Nat) : Nat := if n = 0 ∨ n = 7 ∨ s.sitePop n then dieStep n else 0

/-- The populated sites, 0x1020 (chapter 0). -/
def State.population (s : State) : Nat := (s.sites.map (2 ^ ·)).sum + 1 + 128

/-- The 256 signed octets of a report (R493); a QF2 gives the QCFW image it stores; without the QM's replies the metrology fields are zero and flag [3] set. -/
def State.reportHead (s : State) (nonce : List Byte) (qm : Bool) : List Byte :=
  let fl := (if s.sec.debug then 1 else 0) + (if s.rd 0x7050 3 dev = 1 then 2 else 0) + (if s.rd 0x1202 5 dev = 1 then 4 else 0) +
    (if qm then 0 else 8)
  let m (n x : Nat) : List Byte := leNat n (if qm then x else 0)
  let hash (k : Nat) : List Byte :=
    padTo 32 (if k = 2 ∧ s.sites = [] then imgHash (s.preferredBytes 2) else s.rdB 0x7033 k dev)
  [0x51, 0x46, 0x41, 0x54] ++ leNat 1 1 ++ leNat 1 fl ++ leNat 2 3565 ++ padTo 32 nonce ++ s.serialNo ++ leNat 1 s.variant ++
    leNat 1 s.suffixByte ++ leNat 1 s.population ++ leNat 1 (s.rdN 0x1111 1 dev) ++ leNat 8 s.lt ++
    ((List.range 8).flatMap fun n => leNat 2 (s.stepAt n)) ++ hash 1 ++ hash 2 ++ hash 3 ++
    (if qm then padTo 32 s.swSum else List.replicate 32 0) ++
    leNat 1 (s.rdN 0x7032 1 dev) ++ leNat 1 (s.rdN 0x7032 2 dev) ++ leNat 1 (s.rdN 0x7032 3 dev) ++
    m 1 (imgRollback (s.fwBytes s.qm.active)) ++ leNat 1 (s.rdN 0x7030 1 dev) ++ leNat 1 (s.rdN 0x7030 2 dev) ++
    leNat 1 (s.rdN 0x7030 3 dev) ++ m 1 s.qm.rollback ++ m 1 s.seal ++ leNat 3 0 ++ m 4 s.qm.evCount ++ m 4 s.qm.calGen ++
    leNat 4 (s.configCrc []) ++ leNat 2 (s.rdN 0x4000 2 dev) ++ leNat 2 0 ++
    (if qm then padTo 16 (keyId s.metKey) else List.replicate 16 0)

/-- The report, 3,565 octets. -/
def State.reportBytes (s : State) (nonce : List Byte) (qm : Bool) : List Byte :=
  s.reportHead nonce qm ++ padTo 3309 (Config.mldsaSign 0 attestCtx (s.reportHead nonce qm))

end Sys2Proof.Machine
end

