-- ==== Sys2Proof/Machine/Objects.lean ====
section
/-! DEFINITION. What a read of an object returns: the register, or the value that the machine forms from its state at the
read, and the reads of R431 and R432. -/

namespace Sys2Proof.Machine

/-- A number as the value of an object. -/
def num (n : Nat) : Option Int := some (n : Int)

/-- The value of an object as a read gives it: a number, or octets. -/
inductive Val where
  | num (v : Int)
  | oct (b : List Byte)
  deriving DecidableEq, Repr

/-! ## Subscriptions (R438, R440) -/

/-- A subscription that is a record stream (R440). -/
def Subscr.stream (x : Subscr) : Bool := x.entries == [⟨0x5420, 0, .met, .met⟩]

/-- The octets of an entry's values, and of a publication. -/
def SubEntry.size (x : SubEntry) : Nat :=
  (match findRow ⟨x.index, x.sub, instOf x.first⟩ with
   | some r => Ty.size r.ty
   | none => 0) * (instOf x.last + 1 - instOf x.first)
def Subscr.size (x : Subscr) : Nat := (x.entries.map SubEntry.size).sum

/-- The datagrams of a publication. -/
def Subscr.parts (x : Subscr) : Nat := max 1 ((x.size + 1407) / 1408)

/-- Octets and datagrams per second of a subscription: each datagram counts 40 octets beside its payload. -/
def State.rateOf (s : State) (x : Subscr) : Rat × Rat :=
  if x.stream then (1000000, 1000)
  else
    let f : Rat := 10000 / ((x.period : Rat) * (s.rdN 0x1101 1 dev : Rat))
    ((x.size + 40 * x.parts) * f, x.parts * f)

/-- Every subscription of the device, and the total load. -/
def State.allSubs (s : State) : List Subscr := (s.net.sessions.flatMap (·.subs)) ++ s.net.userSubs
def State.loadOfSubs (s : State) (l : List Subscr) : Rat × Rat :=
  (((l.map fun x => (s.rateOf x).1).sum), ((l.map fun x => (s.rateOf x).2).sum))

/-- Records and batch records that a stream has still to publish. -/
def State.backlog (s : State) (x : Subscr) : Nat := (s.net.gotRec + 1 - x.nextRec) + (s.net.gotBat + 1 - x.nextBat)

/-- The open transfers of the device. -/
def State.openTransfers (s : State) : Nat := (s.net.sessions.map (·.transfers.length)).sum

/-! ## Numbers formed at the read -/

/-- The device's power state (R402): REST when every populated site rests. -/
def State.powerState (s : State) : Int :=
  if s.rd 0x1200 1 dev = 1 ∧ s.sites ≠ [] ∧ s.sites.all (fun n => s.rd 0x1200 1 (siteI n) == 2) then 2 else s.rd 0x1200 1 dev

/-- The time quality 0x1102.05. -/
def State.timeQuality (s : State) : Nat :=
  let loops := s.clock.core :: (0 :: s.sites).map fun d => (s.die d).loop
  (if loops.any fun l => l.state == 3 || l.state == 4 then 1 else 0) + (if (s.die 0).refPresent then 0 else 2) +
    (if s.aonSource 0 = 2 then 4 else 0) + (if s.clock.withheld then 8 else 0)

/-- Descriptor info 0x2506: W and the length in micro-ops, 0 when the ID is empty. -/
def State.descInfo (s : State) (die id : Nat) : Nat :=
  match s.descOf die id with
  | some (_, w) => w * 65536 + (if id < 32 then Config.templateLen id % 65536 else (s.desc die id).len)
  | none => 0

/-- Write access 0x40F0.05 as the reader sees it. -/
def State.writeAccess (s : State) (src : Src) : Nat :=
  if s.lockbox.hash.isNone then 0 else if s.unlocked src then 2 else if s.lockedOut then 3 else 1

/-- Seconds of a lockout that remain, a started one counted. -/
def State.lockoutLeft (s : State) : Nat :=
  match s.lockbox.lockedAt with
  | some t => (t + tenMinutes - s.lt + 999999999) / 1000000000
  | none => 0

/-- The windows of an input that the hub sets (R274, R305). -/
def State.hubWindow (s : State) (i j : Nat) : Option Int :=
  if 0x3032 ≤ i ∧ i ≤ 0x3035 ∧ fixedInput (j - 1) then some (s.winLimit (j - 1) (i - 0x3032)) else none

/-- Device objects whose value the machine forms; the link state of the Ethernet ports, the supplies measured and the
delay of a CAN transceiver are what the outside gives: free values (log 5). -/
def State.devNum (s : State) (src : Src) (i j : Nat) : Option Int :=
  match i, j with
  | 0x1020, 0 => num s.population
  | 0x1021, _ => num (s.stepAt (j - 1))
  | 0x1022, 0 => num s.variant
  | 0x1023, 0 => num s.suffixByte
  | 0x1024, 0 => num (14000 * s.channels.length + Config.otherEntries s.variant)
  | 0x1100, 0 => num s.lt
  | 0x1101, 2 => num s.epochCount
  | 0x1102, 1 => some (b2i (s.die 0).refPresent)
  | 0x1102, 2 => num (s.aonSource 0)
  | 0x1102, 3 => num s.clock.core.state
  | 0x1102, 5 => num s.timeQuality
  | 0x1104, 0 => num (s.die 0).loop.state
  | 0x1200, 1 => some s.powerState
  | 0x1220, 1 => some (Config.freeInt s.free % 65536)
  | 0x1220, 2 => some (Config.freeInt s.free % 65536)
  | 0x1301, 1 => some (Config.freeInt s.free % 2)
  | 0x1301, 2 => some (Config.freeInt s.free % 2)
  | 0x141D, _ => some (Config.freeInt s.free % 256)
  | 0x1305, 0 => num s.net.sessions.length
  | 0x1310, 5 => num s.openTransfers
  | 0x1310, 6 => let x := (s.loadOfSubs s.allSubs).1; some (quot x.num x.den)
  | 0x1310, 7 => num (((s.allSubs.filter Subscr.stream).map s.backlog).foldl max 0)
  | 0x1412, _ => num (s.port (j - 1)).fifo.length
  | 0x2506, _ => num (s.descInfo 0 (j - 1))
  | 0x2521, _ => num (s.slot 0 (j - 1)).home
  | 0x2522, _ => num (s.slot 0 (j - 1)).offset
  | 0x2524, _ => num (s.slot 0 (j - 1)).overruns
  | 0x2525, _ => num (s.slot 0 (j - 1)).peakLat
  | 0x3030, _ => if fixedInput (j - 1) then some 3 else none
  | 0x3036, _ => if fixedInput (j - 1) then some 2 else none
  | 0x4000, 4 => num (s.configCrc [])
  | 0x40F0, 5 => num (s.writeAccess src)
  | 0x40F0, 7 => num s.lockoutLeft
  | 0x40F0, 8 => num s.pendingCrc
  | 0x40FA, 0 => num (s.lockbox.logNext - 1)
  | 0x6000, 7 => some (b2i s.frozen)
  | 0x7030, 4 => num s.metView.rollback
  | 0x7032, 4 => num (imgRollback (s.hubView.fwBytes s.metView.active))
  | _, _ => s.hubWindow i j

/-- Site objects whose value the machine forms. -/
def State.siteNum (s : State) (n i j : Nat) : Option Int :=
  match i, j with
  | 0x1104, 0 => num (s.die n).loop.state
  | 0x2506, _ => num (s.descInfo n (j - 1))
  | 0x2515, _ => num (s.slot n (63 + j)).lastLat
  | 0x3109, _ => some (s.unit n (63 + j)).shift
  | 0x3180, 3 => num ((s.die n).recycled / 10000)
  | _, _ => none

/-- Channel objects whose value the machine forms. -/
def State.chanNum (s : State) (c i j : Nat) : Option Int :=
  let die := dieOf c
  let x := s.slot die (localOf c)
  let u := s.unit die (localOf c)
  match i, j with
  | 0x2400, 3 => num (s.recipeCrc c)
  | 0x2510, 2 => some (quot 320000000 (max (s.loopL die (localOf c)) 1))
  | 0x2510, 3 => num x.home
  | 0x2510, 4 => num x.offset
  | 0x2510, 5 => num x.w
  | 0x2512, 1 => num x.overruns
  | 0x2512, 2 => num x.consec
  | 0x2512, 3 => num x.lastLat
  | 0x2512, 4 => num x.peakLat
  | 0x2512, 5 => num x.jobs
  | 0x2512, 6 => num x.stolen
  | 0x2512, 7 => num x.staleReads
  | 0x2831, 1 => num u.staged.period
  | 0x2831, 2 => num u.staged.rise
  | 0x2831, 3 => num u.staged.fall
  | 0x2832, 1 => num u.active.period
  | 0x2832, 2 => num u.active.rise
  | 0x2832, 3 => num u.active.fall
  | 0x2832, 4 => some (b2i u.commit.isSome)
  | 0x2835, 0 => some u.shift
  | _, _ => none

/-- The number an object reads as. -/
def State.number (s : State) (src : Src) (i j e : Nat) : Int :=
  let formed :=
    if e < 0x180 then s.chanNum e i j
    else if e = dev then s.devNum src i j
    else if e = met then none
    else s.siteNum (e - 0x3C0) i j
  formed.getD (s.rd i j e)

/-! ## Octets formed at the read -/

/-- The public key of the device identity, fixed at manufacture (log 2). -/
def State.deviceKey (s : State) : List Byte := padTo 1952 (s.partOctets 4)

/-- A certificate of R471, kind 1 device identity, 2 metrology: its issue time, issuer and signature are per part (log 2). -/
def State.certificate (s : State) (kind : Nat) (key : List Byte) : List Byte :=
  let part := s.partOctets (4 + kind)
  padTo 5313 ([0x51, 0x46, 0x43, 0x54] ++ leNat 1 1 ++ leNat 1 kind ++ leNat 2 0 ++ s.serialNo ++ leNat 1 s.variant ++
    leNat 1 s.suffixByte ++ leNat 2 0 ++ padTo 24 part ++ padTo 1952 key ++ padTo 3309 (part.drop 24))

/-- The 32 octets of a trail entry (R496). -/
def Stored.bytes (e : Stored) : List Byte :=
  leNat 8 e.lt ++ leNat 1 e.site ++ leNat 1 e.severity ++ leNat 2 e.chan ++ leNat 2 e.code ++ leNat 2 e.seq ++
    padTo 12 e.data ++ leNat 4 e.corr

/-- The trail block 0x6000.03 (R500): up to 44 entries from the read cursor. -/
def State.trailBlock (s : State) : List Byte :=
  let c := s.rdN 0x6000 2 dev
  let n := (s.rdN 0x6000 1 dev + 2 ^ 32 - c) % 2 ^ 32
  (List.range (min n 44)).flatMap fun k =>
    ((lookup? ((c + k) % 2 ^ 32 % 16384) s.trail.entries).map Stored.bytes).getD []

/-- The 40 octets of a change-log entry (R370). -/
def LogEntry.bytes (e : LogEntry) : List Byte :=
  leNat 8 e.lt ++ leNat 1 e.kind ++ leNat 1 e.port ++ leNat 2 e.index ++ leNat 1 e.sub ++ leNat 1 0 ++ leNat 2 e.inst ++
    leInt 8 e.old ++ leInt 8 e.new' ++ leNat 4 e.crc ++ leNat 4 e.seq

/-- The octets an STR or BLOB object reads as; none where it has no value at the cursor, or no nonce is up (the report is
formed in Keyway.lean). -/
def State.octets (s : State) (i j e : Nat) : Option (List Byte) :=
  if e = met then (if i = 0x7011 then some (s.certificate 2 s.metKey) else s.hubView.metBlob i j)
  else match i, j with
    | 0x1000, 1 => some (text "Luabutos")
    | 0x1000, 2 => some (text "Qorzon QF")
    | 0x1000, 3 => some s.serialNo
    | 0x1300, 1 => some (padTo 6 (s.partOctets 1))
    | 0x141A, _ => some (s.ringBlock (j - 1))
    | 0x2513, 0 => let x := s.slot (dieOf e) (localOf e); some ((List.range 64).flatMap fun k => leInt 4 (x.word k))
    | 0x340B, _ => some (s.rampTable (j - 1))
    | 0x340E, _ => some (s.advanceTable (j - 1))
    | 0x40F9, 0 => (s.lockbox.log.find? fun x => x.seq == s.rdN 0x40F8 0 dev).map LogEntry.bytes
    | 0x6000, 3 => some s.trailBlock
    | 0x7000, 1 => some ((padTo 16 (s.partOctets 10)))
    | 0x7000, 2 => some (keyId s.deviceKey)
    | 0x7010, 0 => some (s.certificate 1 s.deviceKey)
    | 0x7033, 4 => some (padTo 32 s.hubView.swSum)
    | _, _ =>
      match findRow ⟨i, j, e⟩ with
      | some r => if r.lo = r.hi then some (padTo r.lo.toNat (s.rdB i j e)) else some (s.rdB i j e)
      | none => none

/-! ## Reads -/

/-- Stage 5 of R452 for a read: write-only objects. -/
def readAccess (i j e : Nat) : Nat :=
  match findRow ⟨i, j, e⟩ with
  | some r => if r.acc = .wo then aWriteOnly else aDone
  | none => aDone

/-- The octets of one object on the wire; none where there is no such instance of it now (R370, R558). -/
def State.value (s : State) (src : Src) (i j e : Nat) : Option (List Byte) :=
  match findRow ⟨i, j, e⟩ with
  | none => none
  | some r =>
    if Ty.size r.ty = 0 then s.octets i j e
    else if e = met then s.hubMet i j
    else some (leInt (Ty.size r.ty) (s.number src i j e))

/-- The row of an object at whatever instances it has. -/
def anyRow (i j : Nat) : Option Row := (rowsOf (i / 256)).find? fun r => r.covers i j

/-- An object of octets, by its row anywhere; the octets of a value for the reply size of R432. -/
def isOctets (i j : Nat) : Bool := (anyRow i j).any fun r => Ty.size r.ty == 0
def roomOf (i j e : Nat) (framed : Bool) : Nat :=
  match findRow ⟨i, j, e⟩ with
  | some r => if Ty.size r.ty = 0 then r.hi.toNat + (if framed then 2 else 0) else Ty.size r.ty
  | none => 0

/-- The subindices and the instances of a span. -/
def spanFirst (x : Span) : Nat := instOf x.first
def spanLast (x : Span) : Nat := instOf x.last
def spanSubs (x : Span) : List Nat := (List.range x.count).map (x.sub + ·)
def spanInsts (x : Span) : List Nat := instRange (spanFirst x) (spanLast x)

/-- Words 3 and 4 of a span's request (R427). -/
def spanWord (x : Span) : Nat := addrWord x.index x.sub x.count
def spanRange (x : Span) : Nat := rangeWord (spanFirst x) (spanLast x)

/-- The counts of R441: COUNT 1 to 254, LAST at least FIRST, FIRST = LAST outside a range, COUNT 1 with octets. -/
def countsOk (x : Span) (range : Bool) : Bool :=
  decide (1 ≤ x.count) && decide (x.count < 255) && decide (spanFirst x ≤ spanLast x) &&
    (range || spanFirst x == spanLast x) && (x.count == 1 || (spanSubs x).all fun j => !isOctets x.index j)

/-- The first subindex of a span that fails a check at an instance. -/
def eachSub (x : Span) (f : Nat → Nat → Nat) (e : Nat) : Nat := firstCode ((spanSubs x).map fun j => f j e)

/-- Stage 4 of R452 for a span: every object exists somewhere, then at the instance. -/
def spanExist (x : Span) (e : Nat) : Nat :=
  if (spanSubs x).any fun j => existCheck x.index j e == aNoObject then aNoObject else eachSub x (existCheck x.index) e

/-- The checks of a read in the order of R452 after the counts. -/
def State.readChecks (s : State) (x : Span) (size : Nat) : Option Refuse :=
  firstBad (spanInsts x) [⟨some 3, s.instCheck x.index⟩, ⟨some 4, spanExist x⟩,
    ⟨some 5, eachSub x (readAccess x.index)⟩, ⟨some 6, fun _ => size⟩]

/-- The reply size of a read at its maxima (R432). -/
def replyRoom (x : Span) (framed : Bool) : Nat :=
  ((spanInsts x).map fun e => ((spanSubs x).map fun j => roomOf x.index j e framed).sum).sum

/-- Octets with their length, as a READ_RANGE reply carries them (R432). -/
def framedBytes (i j : Nat) (framed : Bool) (b : List Byte) : List Byte :=
  if framed && isOctets i j then leNat 2 b.length ++ b else b

/-- The values of a span, instances ascending, or the lowest instance without one. -/
def State.gather (s : State) (src : Src) (x : Span) (framed : Bool) : Except Refuse (List Byte) :=
  (spanInsts x).foldl (fun acc e => (spanSubs x).foldl (fun acc j =>
    match acc, s.value src x.index j e with
    | .ok b, some v => .ok (b ++ framedBytes x.index j framed v)
    | .ok _, none => .error ⟨aNoInstance, some e⟩
    | .error r, _ => .error r) acc) (.ok [])

/-- A payload is at most 1,408 octets (R427); the local API and the service port have no datagrams (log 23). -/
def overSize (src : Src) (n : Nat) : Bool :=
  match src with
  | .keyway _ _ => decide (1408 < n)
  | .user | .service => false

/-- The attestation report for the sender's nonce, which it uses up (R492). -/
def State.readReport (s : State) (src : Src) (qm : Bool) : Ans :=
  if s.attNonce src = [] then .error ⟨aRange, none⟩
  else .ok ((s.setAttNonce src []).draw, s.reportBytes (s.attNonce src) qm)

/-- A read of a span: READ (R431) or, framed, READ_RANGE (R432). -/
def State.readSpan (s : State) (src : Src) (x : Span) (framed : Bool) : Ans :=
  if !countsOk x framed then .error ⟨aLength, none⟩
  else
    let size := if framed || !isOctets x.index x.sub || x.index == 0x7070 then replyRoom x framed else 0
    match s.readChecks x (if overSize src size then aTooLarge else aDone) with
    | some r => .error r
    | none =>
      if x.index = 0x7070 ∧ x.sub = 2 then s.readReport src s.qmUp
      else
        match s.gather src x framed with
        | .ok b => if overSize src b.length then .error ⟨aTooLarge, none⟩ else .ok (s.draw, b)
        | .error r => .error r

end Sys2Proof.Machine
end

