-- ==== Sys2Proof/Machine/Trail.lean ====
section
/-! DEFINITION. The trail's commands (chapter 17): the freeze, the read cursor. -/

namespace Sys2Proof.Machine

/-- TRAIL_FREEZE (R502): the post-trigger count has been stored and the trail freezes. -/
def State.freeze (s : State) : State :=
  if s.trail.armed = some 0 then
    ({ s with trail := { s.trail with armed := none } }).wr 0x6000 7 dev 1
  else s

def execTrailFreeze (s : State) : Res := .next s.freeze

/-- A read cursor lies between the present cursor and the store count (R500). -/
def cursorCheck (v : Int) (s : State) (_ : Nat) : Nat :=
  let c := s.rdN 0x6000 2 dev
  if (v.toNat + 2 ^ 32 - c) % 2 ^ 32 ≤ (s.rdN 0x6000 1 dev + 2 ^ 32 - c) % 2 ^ 32 then aDone else aRange

/-- A write of the read cursor frees every entry below it (R500). -/
def cursorSet (v : Int) (s : State) (_ : Nat) : State := s.wr 0x6000 2 dev v

def execReadCursor (src : Src) (v : Nat) (s : State) : Res :=
  .next (s.writeObj src 0x6000 2 [dev] v (cursorCheck v) (cursorSet v))

/-- A write of the freeze severity cancels a freeze that is armed but not yet in force (R502). -/
def severitySet (v : Int) (s : State) (_ : Nat) : State :=
  let s := if s.frozen then s else { s with trail := { s.trail with armed := none } }
  s.wr 0x6000 5 dev v

def execFreezeSeverity (src : Src) (v : Nat) (s : State) : Res :=
  .next (s.writeObj src 0x6000 5 [dev] v (fun _ _ => aDone) (severitySet v))

/-- Unfreeze (R502): the first entry stored is 0x6002 with the count not stored, which returns to 0. A trail that is
not frozen stays as it is. -/
def unfreezeSet (s : State) (_ : Nat) : State :=
  if s.frozen then
    let n := s.rd 0x6000 9 dev
    let s := ({ s with trail := { s.trail with armed := none } }).wr 0x6000 7 dev 0
    (s.wr 0x6000 9 dev 0).note 0x6002 (leInt 4 n)
  else s

def execUnfreeze (src : Src) (v : Nat) (s : State) : Res :=
  .next (s.writeObj src 0x6000 8 [dev] v (fun _ _ => aDone) unfreezeSet)

end Sys2Proof.Machine
end

