-- ==== Sys2Proof/Machine/Writes.lean ====
section
/-! DEFINITION. A write of any span of the dictionary (R431 to R433, R452): its values, the checks of every object it
names, admission, and its effect on every instance. The commands that write one object share these effects. -/

namespace Sys2Proof.Machine

/-! ## Host key slots (R450) and the store (R422) -/

/-- The sender may write the host key slots, and the write leaves slot 1 set while another slot is. -/
def hostKeyCheck (src : Src) (k : Nat) (h : List Byte) (s : State) (_ : Nat) : Nat :=
  let set (n : Nat) : Bool := if n = k then h.any (· != 0) else s.keySlotSet n
  let slots := (List.range 8).map (· + 1)
  if slots.any s.keySlotSet ∧ !s.bySlot1 src then aDenied
  else if !set 1 ∧ slots.any set then aRange
  else aDone

/-- A slot is saved to hub flash at once. -/
def hostKeySet (k : Nat) (h : List Byte) (s : State) (_ : Nat) : State :=
  { s.wrB 0x1303 k dev h with flashBlobs := insertBy Addr.key ⟨0x1303, k, dev⟩ h s.flashBlobs }

/-- HOST_KEY_SLOT. -/
def execHostKeySlot (src : Src) (k : Nat) (hash : List Byte) (s : State) : Res :=
  .next (s.writeBlob src 0x1303 k [dev] hash (hostKeyCheck src k hash) (hostKeySet k hash))

/-- An object that its own rule saves: calibration and host keys, beside those of `keptAlways` (R422). -/
def ownSaved (a : Addr) : Bool := keptAlways a || isCalObj a.index || a.index == 0x1303

/-- A P object that the store saves. -/
def stored (a : Addr) : Bool := (findRow a).any (·.persist) && !ownSaved a

/-- A store is refused while one runs. -/
def storeCheck (s : State) (_ : Nat) : Nat := idleOr !s.net.storing

/-- The store takes its snapshot and runs on; its reply follows when it completes. -/
def storeSet (s : State) (_ : Nat) : State :=
  let net := { s.net with storing := true, storeSnap := s.objs.filter (fun e => stored e.1), storeBlobs := s.blobs.filter (fun e => stored e.1) }
  { s with net := net }.wr 0x1010 2 dev 1

/-- STORE (R422). -/
def execStore (src : Src) (v : Nat) (s : State) : Res := .next (s.writeObj src 0x1010 1 [dev] v storeCheck storeSet)

/-- The stored set is replaced in one step by the snapshot. -/
def State.keepSnapshot (s : State) : State :=
  { s with
    flash := s.net.storeSnap.foldl (fun l e => insertBy Addr.key e.1 e.2 l) (s.flash.filter fun e => ownSaved e.1),
    flashBlobs := s.net.storeBlobs.foldl (fun l e => insertBy Addr.key e.1 e.2 l) (s.flashBlobs.filter fun e => ownSaved e.1) }

/-- STORE_COMPLETE (R422): the status shows done or flash failed, and the write is answered (log 24). -/
def execStoreComplete (ok : Bool) (s : State) : Res := .next <|
  if s.net.storing then
    let by' := s.net.storeBy
    let ack := s.net.storeAck
    let s := (when' ok State.keepSnapshot s.clearOut).wr 0x1010 2 dev (if ok then 2 else 3)
    let s := { s with net := { s.net with storing := false, storeBy := none, storeSnap := [], storeBlobs := [] } }
    match by' with
    | some src => s.answer src ack.1 aDone ack.2.1 ack.2.2 []
    | none => s
  else s

/-! ## Owners with conditions of their own (R421) -/

/-- The generator units whose phase offset is 0x1108.j (R393), and the loop slots. -/
def phaseUnits (j : Nat) : List Nat :=
  if j = 1 then List.range 6
  else if j ≤ 5 then (List.range 3).map (8 + 3 * (j - 2) + ·)
  else (List.range 4).map (20 + 4 * (j - 6) + ·)
def phaseSlots (j : Nat) : List Nat := if j = 1 then [0, 1, 2, 3] else if j ≤ 5 then [j + 2] else [j + 2, j + 6]

/-- The channels of quad q of a site. -/
def quadChans (n q : Nat) : List Nat := (List.range 4).map fun k => chanOf n (4 * q + k)

/-- The owner of an RWI object is idle, by the object's own rule where it has one (R58, R72, R85, R98, R182, R326, R393),
else by R421. The checks of 0x1101, 0x1401 to 0x140A, 0x141C and 0x344D hold theirs. -/
def State.rwiIdle (s : State) (i j e : Nat) : Bool :=
  if i = 0x1101 ∨ (0x1401 ≤ i ∧ i ≤ 0x141C) ∨ i = 0x344D then true
  else if i = 0x1108 then !(phaseUnits j).any fun u => (s.unit 0 u).running
  else if i = 0x2834 then !s.switching e
  else if i = 0x3108 then !(s.unit (e - 0x3C0) 64).running
  else if (0x2000 ≤ i ∧ i ≤ 0x23FF) ∨ i = 0x2404 then !s.active e
  else if i = 0x2802 then (quadChans (e - 0x3C0) (j - 1)).all s.idle
  else if i = 0x2810 ∧ j ≤ 2 then s.idle e || s.resting e || s.latched e
  else if i = 0x2830 ∧ j = 2 then s.idle e
  else if i = 0x2830 ∧ j = 3 then !s.switching e
  else if 0x3442 ≤ i ∧ i ≤ 0x3447 then s.axisStill (j - 1)
  else s.ownerIdle i j e

/-- Stage 8 of R452 for an RWI object. -/
def State.rwiCheck (s : State) (i j e : Nat) : Nat :=
  match findRow ⟨i, j, e⟩ with
  | some r => if r.acc = .rwi then idleOr (s.rwiIdle i j e) else aDone
  | none => aDone

/-! ## Relations between objects, on the values as the whole request would leave them (log 22) -/

/-- A period divides the epoch count (R76, R110). -/
def State.divides (t : State) (v : Int) : Bool := decide (v ∣ (t.epochCount : Int))

/-- The five orders of R299. -/
def State.cascadeOk (t : State) : Bool :=
  let v (k : Nat) : Int := t.rd 0x3060 k dev
  decide (v 1 + 20 ≤ v 2) && decide (v 2 + 10 ≤ v 3) && decide (v 3 + 10 ≤ v 4) && decide (v 4 + 10 ≤ v 5) && decide (v 5 ≤ 1000)

/-- The discharge sizing of R298: R_dis in mΩ, C in µF, so that R × C is in 10^-9 s; the rating in J. -/
def State.dischargeOk (t : State) : Bool :=
  decide (t.rd 0x3070 4 dev * t.rd 0x3070 7 dev * 2813 ≤ 2 * 1000 * 1000000000) &&
    decide (t.rd 0x3070 7 dev ≤ 2 * t.rd 0x3070 5 dev)

/-- The speeds of R326. -/
def State.speedsOk (t : State) (j : Nat) : Bool :=
  let v (i : Nat) : Int := t.rd i j dev
  decide (v 0x3442 ≤ v 0x3443) && decide (v 0x3443 ≤ v 0x3444) && decide (v 0x3447 ≤ v 0x3443)

/-- A hub slot's loop period (R110, R283, R306). -/
def State.hubPeriodOk (t : State) (j : Nat) (v : Int) : Bool :=
  t.divides v &&
    (if j = 1 then decide (2 * v = t.rd 0x3040 1 dev)
     else if j < 5 then true
     else if j < 9 then decide (v = t.rd 0x3422 0 dev)
     else if j < 13 then decide (2 * v = t.rd 0x3460 0 dev)
     else if j < 17 then decide (v = 6400)
     else true)

/-- The stepper and BLDC slots follow their carrier (R306). -/
def State.carrierOk (t : State) (i : Nat) (v : Int) : Bool :=
  t.divides v && [0, 1, 2, 3].all fun a =>
    if i = 0x3422 then decide (t.rd 0x2520 (5 + a) dev = v) else decide (2 * t.rd 0x2520 (9 + a) dev = v)

/-- A table that 0x2442.01 may name (R159). -/
def State.cvTableOk (t : State) (e : Nat) (v : Int) : Bool :=
  v == 255 ||
    (let b := t.rdB 0x2507 (v.toNat + 1) (siteI (dieOf e))
     curveOk b && (curvePoints b).all fun p => decide (-200000 ≤ p.2) && decide (p.2 ≤ 200000))

/-- The mask of a channel-die source keeps the bits that R303 and R344 name. -/
def maskOk (j : Nat) (v : Int) : Bool :=
  let keeps (l : List Nat) : Bool := l.all (bit v.toNat)
  if j = 6 ∨ j = 5 then keeps [1, 3, 4] else if j = 8 then keeps [0, 3, 4] else true

/-- The relations of an object's value with other objects, on the values `t` of the whole request. -/
def State.relationOk (t : State) (i j e : Nat) (v : Int) : Bool :=
  match i with
  | 0x2800 => j != 1 && j != 5 || decide (t.rd 0x2800 1 e + 2 ≤ t.rd 0x2800 5 e)
  | 0x2810 => decide (2 < j) || decide (t.rd 0x2810 1 e + 5000 ≤ t.rd 0x2810 2 e)
  | 0x2803 => maskOk j v
  | 0x2442 => decide (2 < j) || t.cvTableOk e v
  | 0x2510 => t.divides v
  | 0x2511 => j != 1 || v == 255
  | 0x2514 => decide (2 < j) || t.divides v
  | 0x2520 => t.hubPeriodOk j v
  | 0x3040 =>
    if j = 1 then t.divides v && decide (v = 2 * t.rd 0x2520 1 dev)
    else if j = 3 then decide (t.rd 0x3040 2 dev + 2 ≤ v)
    else true
  | 0x3060 => decide (5 < j) || t.cascadeOk
  | 0x3070 => (j != 4 && j != 5 && j != 7) || t.dischargeOk
  | 0x3100 =>
    if j = 1 then t.divides v
    else if j = 3 then decide (t.rd 0x3100 2 e + 2 ≤ v)
    else if j = 8 then decide (v + 1000 ≤ t.rd 0x3100 4 e)
    else true
  | 0x3403 => decide (t.rd 0x3402 j dev ≤ v)
  | 0x3409 => decide (v < t.rd 0x340F j dev)
  | 0x3410 => decide (t.rd 0x340F j dev + 1000 ≤ v)
  | 0x3422 => t.carrierOk i v
  | 0x3424 => decide (t.rd 0x3423 0 dev + 2 ≤ v)
  | 0x3442 => t.speedsOk j
  | 0x3443 => t.speedsOk j
  | 0x3444 => t.speedsOk j
  | 0x3447 => t.speedsOk j
  | 0x3448 => decide (v + 500 ≤ t.rd 0x3456 j dev)
  | 0x3460 => t.carrierOk i v
  | 0x3462 => decide (t.rd 0x3461 0 dev + 2 ≤ v)
  | 0x5016 => itemOk v.toNat
  | _ => true

/-- The slot kind of a descriptor object, or none where the object names no descriptor. -/
def mapKind (i j : Nat) : Option Nat :=
  if i = 0x2511 then some 0 else if i = 0x2514 ∧ 3 ≤ j then some 1 else if i = 0x2523 then some 2 else none

/-- R556: the ID holds a descriptor of the object's slot kind. -/
def State.mapCheck (s : State) (i j e : Nat) (v : Int) : Nat :=
  match mapKind i j with
  | none => aDone
  | some k =>
    if v = 255 then aDone
    else if ((s.descOf (dieAt (if e < 0x180 then siteI (dieOf e) else e)) v.toNat).map (·.1)) = some k then aDone
    else aDescriptor

/-! ## The checks of each object beyond its range and its owner -/

/-- An acknowledgement that the QM answers with status 5 is out of range (R232); without the QM it times out (log 25). -/
def ackCheck (v : Int) (s : State) (_ : Nat) : Nat :=
  if !s.qmUp then aTimeout else if s.ackStatus v.toNat = 0 then aDone else aRange

/-- The run commands (R185). -/
def runCheck (v : Int) (s : State) (e : Nat) : Nat :=
  if v = 1 then startCheck s e else if v = 2 then stopCheck s e else continueCheck s e

/-- The check of a numeric object. -/
def numCheck (src : Src) (i j : Nat) (v : Int) (s : State) (e : Nat) : Nat :=
  match i, j with
  | 0x1010, 1 => storeCheck s e
  | 0x1010, 3 => idleOr s.applyIdle
  | 0x1101, _ => epochCheck v s e
  | 0x1201, 1 => powerReqCheck v s e
  | 0x1203, 2 => siteResetCheck v s e
  | 0x140C, _ => restartCheck (j - 1) s e
  | 0x1411, _ => cancelCheck (j - 1) v.toNat s e
  | 0x1419, _ => consumerCheck src (j - 1) v s e
  | 0x2401, 1 => runCheck v s e
  | 0x2505, 2 => removeCheck v.toNat s e
  | 0x2820, 2 => checkNowCheck s e
  | 0x2831, 4 => hostOwns s e
  | 0x2831, _ => stageCheck j v s e
  | 0x2853, 6 => diagnoseNowCheck v s e
  | 0x3050, 1 => powerCheck v s e
  | 0x3400, _ => setpointCheck (j - 1) v s e
  | 0x3441, _ => targetCheck (j - 1) v s e
  | 0x344D, _ => referenceCheck (j - 1) s e
  | 0x4007, _ => resetCheck s e
  | 0x40F0, 4 => applyCheck src v s e
  | 0x5430, _ => ackCheck v s e
  | 0x6000, 2 => cursorCheck v s e
  | 0x6010, 7 => clearCheck s e
  | 0x6012, 4 => dieClearCheck s e
  | 0x6014, 2 => fltClearCheck v s e
  | 0x6015, _ => bldcClearCheck (j - 1) s e
  | 0x6016, _ => axisClearCheck (j - 1) s e
  | 0x7021, _ => revokeCheck j s e
  | 0x7031, _ => rollbackCheck j s e
  | 0x7034, _ => preferCheck j v s e
  | 0x7040, 3 => loadEndCheck s e
  | 0x7050, 1 => partitionCheck v s e
  | _, _ =>
    if (0x1401 ≤ i ∧ i ≤ 0x140A) ∨ i = 0x141C then canTimingCheck i j v s e
    else if isRwp i j e then rwpCheck i j v s e
    else aDone

/-- The check of an object of octets. -/
def octCheck (src : Src) (i j : Nat) (b : List Byte) (s : State) (e : Nat) : Nat :=
  match i, j with
  | 0x1303, _ => hostKeyCheck src j b s e
  | 0x1410, _ => submitCheck (j - 1) b s e
  | 0x2400, 1 => recipeCheck b.length s e
  | 0x2505, 1 => idleOr !(s.idInUse (dieAt e) (hdrId b))
  | 0x2507, _ => curveCheck i j b s e
  | 0x340B, _ => if rampOk b then aDone else aRange
  | 0x340E, _ => if advanceOk b then aDone else aRange
  | 0x40F0, 1 => unlockCheck b s e
  | 0x40F0, 2 => passwordCheck b s e
  | 0x7020, _ => rootWriteCheck src j b s e
  | 0x7040, 2 => pieceCheck (fieldAt b 0 4) (b.length - 4) s e
  | 0x7060, 2 => debugCheck (fieldAt b 0 4) (sliceB b 4 (if b.length = 3736 then 1312 else 1952))
      (b.drop (4 + if b.length = 3736 then 1312 else 1952)) s e
  | _, _ => aDone

/-- The content of an object of octets, where it has a check of its own beside its state (R122, R436). -/
def octContent (i j : Nat) (b : List Byte) (s : State) (e : Nat) : Nat :=
  if i = 0x2505 ∧ j = 1 ∧ !s.descriptorOk (dieAt e) b then aDescriptor else aDone

/-! ## The effect of each object -/

/-- Clear the peak latency of a slot. -/
def State.clearPeak (s : State) (die k : Nat) : State := s.setSlot die k { s.slot die k with peakLat := 0 }

/-- Units that stand take a carrier period that was written (R283, R289, R306). -/
def State.afterPeriod (s : State) (i j e : Nat) : State :=
  if (i = 0x3040 ∧ j = 1) ∨ i = 0x3422 ∨ i = 0x3460 then s.loadPeriods 0
  else if i = 0x3100 ∧ j = 1 then s.loadPeriods (e - 0x3C0)
  else s

/-- A source that stands acts on what a write of a mask brings under it (R101). -/
def State.afterMask (s : State) (i e : Nat) : State :=
  if i = 0x2803 ∨ i = 0x2804 then s.standingSources (e - 0x3C0) else s

/-- A write of a numeric object, but for the restore of defaults. -/
def numSet (src : Src) (i j : Nat) (v : Int) (s : State) (e : Nat) : State :=
  match i, j with
  | 0x1010, 1 => storeSet s e
  | 0x1101, _ => epochSet v s e
  | 0x1201, 1 => powerReqSet v s e
  | 0x1203, 1 => warmSet s e
  | 0x1203, 2 => siteResetSet v s e
  | 0x1203, 3 => engineResetSet v s e
  | 0x1400, _ => canModeSet (j - 1) v.toNat (Config.onBus s.free) s.draw e
  | 0x140C, _ => restartSet (j - 1) s e
  | 0x1411, _ => cancelSet (j - 1) v.toNat (Config.onBus s.free) s.draw e
  | 0x1419, _ => consumerSet (j - 1) v s e
  | 0x2401, 1 => if v = 1 then startSet s e else if v = 2 then stopSet s e else continueSet s e
  | 0x2505, 2 => removeSet v.toNat s e
  | 0x2512, 4 => s.clearPeak (dieOf e) (localOf e)
  | 0x2525, _ => s.clearPeak 0 (j - 1)
  | 0x2820, 2 => checkNowSet s e
  | 0x2831, 4 => commitSet s e
  | 0x2831, _ => stageSet j v s e
  | 0x2853, 6 => diagnoseNowSet v s e
  | 0x3050, 1 => powerSet v s e
  | 0x3400, _ => setpointSet (j - 1) v s e
  | 0x3441, _ => targetSet (j - 1) v s e
  | 0x344D, _ => referenceSet (j - 1) v s e
  | 0x4007, _ => resetSet s e
  | 0x4014, _ => outputSet (j - 1) v s e
  | 0x4023, _ => contactorSet (j + 1) v s e
  | 0x40F0, 3 => s.endUnlock
  | 0x40F0, 4 => applySet src s e
  | 0x5430, _ => (s.flushMail.doAck v.toNat).mailReply 0x04 0 []
  | 0x6000, 2 => cursorSet v s e
  | 0x6000, 5 => severitySet v s e
  | 0x6000, 8 => unfreezeSet s e
  | 0x6010, 7 => clearSet src s e
  | 0x6012, 4 => dieClearSet src s e
  | 0x6014, 2 => fltClearSet src v s e
  | 0x6015, _ => bldcClearSet src (j - 1) s e
  | 0x6016, _ => axisClearSet src (j - 1) s e
  | 0x7021, _ => revokeSet j s e
  | 0x7031, _ => rollbackSet j s e
  | 0x7034, _ => preferSet j v s e
  | 0x7040, 3 => loadEndSet (Config.flashOk s.free) s.draw e
  | 0x7050, 1 => partitionSet v s e
  | 0x7060, 3 => debugLockSet s e
  | _, _ =>
    if isCalObj i then calibrationSet i j v s e
    else if isRwp i j e then rwpSet i j v s e
    else ((s.wr i j e v).afterPeriod i j e).afterMask i e

/-- An image for the QM goes in segments of at most 8,184 octets, in order (R207, R241). -/
def State.sendImage (s : State) (b : List Byte) : State :=
  each (List.range ((b.length + 8183) / 8184)) (fun s k =>
    let r := s.takeSegment (8184 * k) (sliceB b (8184 * k) 8184)
    r.1.adjustReply r.2) s

/-- A write of an object of octets. -/
def octSet (src : Src) (i j : Nat) (b : List Byte) (s : State) (e : Nat) : State :=
  match i, j with
  | 0x1303, _ => hostKeySet j b s e
  | 0x1410, _ => submitSet (j - 1) b s e
  | 0x2400, 1 => recipeSet b s e
  | 0x2505, 1 => descriptorSet b s e
  | 0x40F0, 1 => unlockSet src s e
  | 0x40F0, 2 => passwordSet src b s e
  | 0x5300, _ => (s.wrB i j e b).mail (.cellId e b)
  | 0x5440, _ => if s.qmUp then s.flushMail.takeToken (tokenOf b) else s
  | 0x5442, _ => if s.qmUp then s.flushMail.sendImage b else s
  | 0x7020, _ => rootWriteSet j b s e
  | 0x7040, 2 => pieceSet (fieldAt b 0 4) (b.drop 4) s e
  | 0x7060, 2 => debugSet s e
  | 0x7070, 1 => s.setAttNonce src b
  | _, _ => s.wrB i j e b

/-! ## Restoring defaults (R423) -/

/-- The P objects that a restore of defaults sets: those of the store but for 0x1300. -/
def restorable (a : Addr) : Bool := stored a && a.index != 0x1300

/-- Every P object takes its default; each die runs admission. -/
def State.setDefaults (s : State) (src : Src) : State :=
  let as := (s.objs.filter fun x => restorable x.1).map (·.1)
  let s := each as (fun s a => numSet src a.index a.sub (dflt a) s a.inst) s
  let s := { s with blobs := s.blobs.filter fun x => !restorable x.1 }
  each (0 :: s.sites) (fun s d => (s.loadPeriods d).admitAfter d (s.usedSlots d)) s

def restoreCheck (s : State) (_ : Nat) : Nat := idleOr s.applyIdle
def restoreSet (src : Src) (s : State) (_ : Nat) : State := s.setDefaults src

/-- RESTORE_DEFAULTS. -/
def execRestoreDefaults (src : Src) (v : Nat) (s : State) : Res :=
  .next (s.writeObj src 0x1010 3 [dev] v restoreCheck (restoreSet src))

/-! ## Writes of a span -/

/-- The numbers of a span's subindices in a payload of their sizes; none when the size differs (R431). -/
def numbersOf (i : Nat) : List Nat → List Byte → Option (List (Nat × Val))
  | [], [] => some []
  | [], _ :: _ => none
  | j :: js, b =>
    match anyRow i j with
    | none => numbersOf i js b
    | some r =>
      let n := Ty.size r.ty
      if b.length < n then none
      else (numbersOf i js (b.drop n)).map fun l =>
        (j, .num (if Ty.signed r.ty then ofLeInt (b.take n) else ofLe (b.take n))) :: l

/-- The values that a payload carries for a span. -/
def itemsOf (x : Span) (b : List Byte) : Option (List (Nat × Val)) :=
  if isOctets x.index x.sub then some [(x.sub, .oct b)] else numbersOf x.index (spanSubs x) b

/-- Stage 2 of R452 for octets: the object's lengths, and 1,408 octets where they travel in one datagram (R441). -/
def octLength (src : Src) (x : Span) (n : Nat) (whole : Bool) : Nat :=
  match anyRow x.index x.sub with
  | some r =>
    if Ty.size r.ty ≠ 0 then aDone
    else if (n : Int) < r.lo ∨ r.hi < (n : Int) ∨ (!whole && overSize src n) then aLength
    else aDone
  | none => aDone

/-- The values of a request laid over the registers, for the checks of relations and admission. -/
def State.trial (s : State) (i : Nat) (es : List Nat) (items : List (Nat × Val)) : State :=
  each es (fun s e => each items (fun s it =>
    match it.2 with
    | .num v => s.wr i it.1 e v
    | .oct b => s.wrB i it.1 e b) s) s

/-- The slots that a write has admission look at (R132), by die. -/
def admissionOf (i j e : Nat) : Option (Nat × List Nat) :=
  if i = 0x2510 ∨ i = 0x2834 ∨ i = 0x2511 then some (dieOf e, [localOf e])
  else if i = 0x2514 then some (e - 0x3C0, [if j ≤ 2 then 63 + j else 61 + j])
  else if i = 0x3108 then some (e - 0x3C0, [64, 65])
  else if i = 0x2802 then some (e - 0x3C0, (List.range 4).map (4 * (j - 1) + ·))
  else if i = 0x1108 then some (0, phaseSlots j)
  else if i = 0x2520 ∨ i = 0x2523 then some (0, [j - 1])
  else none

/-- The dies on which a write runs admission, with the slots it affects. -/
def admissions (i : Nat) (es js : List Nat) : List (Nat × List Nat) :=
  let all := es.flatMap fun e => js.filterMap fun j => admissionOf i j e
  ((all.map (·.1)).eraseDups).map fun d => (d, (all.filter (·.1 == d)).flatMap (·.2))

/-- The checks of one value of a request, in stages. -/
def State.itemChecks (s t : State) (src : Src) (i : Nat) (it : Nat × Val) : List Check' :=
  match it.2 with
  | .num v => [⟨none, fun e => rangeCheck i it.1 e v⟩, ⟨none, numCheck src i it.1 v s⟩,
      ⟨none, fun e => if t.relationOk i it.1 e v then aDone else aRange⟩, ⟨none, fun e => s.mapCheck i it.1 e v⟩,
      ⟨none, s.rwiCheck i it.1⟩]
  | .oct b => [⟨none, octCheck src i it.1 b s⟩, ⟨none, octContent i it.1 b s⟩, ⟨none, s.rwiCheck i it.1⟩]

/-- Every check of a write in the order of R452, admission last; `items` is none where the payload's size is wrong. -/
def State.spanChecks (s : State) (src : Src) (x : Span) (items : Option (List (Nat × Val))) (transfer : Bool) : Option Refuse :=
  let i := x.index
  let es := spanInsts x
  let base : List Check' := [⟨some 3, s.instCheck x.index⟩, ⟨some 4, spanExist x⟩, ⟨some 5, eachSub x (s.accessCheck src i)⟩]
  match items with
  | none => firstBad es (base ++ [⟨some 6, fun _ => aType⟩]) transfer
  | some l => firstBad es (base ++ l.flatMap (s.itemChecks (s.trial i es l) src i)) transfer

/-- What a refusal leaves behind: the lowest invalid row of a refused start (R184), a refused reversal (R321), a wrong
password (R367). -/
def State.refused (s : State) (src : Src) (x : Span) (items : List (Nat × Val)) (r : Refuse) : State :=
  if x.index = 0x2401 ∧ r.code = aRecipe then s.markInvalid (spanInsts x)
  else if x.index = 0x3400 ∧ r.code = aNotIdle then
    each items (fun s it => match it.2 with
      | .num v => s.countReversal (it.1 - 1) v
      | .oct _ => s) s
  else if x.index = 0x40F0 ∧ r.code = aAuth then s.wrongPassword src
  else s

/-- The effect of a write at an instance. -/
def State.setItem (s : State) (src : Src) (i e : Nat) (it : Nat × Val) : State :=
  match it.2 with
  | .num v => if i = 0x1010 ∧ it.1 = 3 then restoreSet src s e else numSet src i it.1 v s e
  | .oct b => octSet src i it.1 b s e

/-- A refused admission shows its result in 0x2500.05 of its die (log 22). -/
def State.showAdmission (s : State) (d r : Nat) : State := s.wr 0x2500 5 (dieI d) r

/-- A write of values to a span: all of it or none (R433). -/
def State.writeItems (s : State) (src : Src) (x : Span) (items : Option (List (Nat × Val))) (transfer : Bool) : Outcome' :=
  match s.spanChecks src x items transfer with
  | some r => (s.refused src x (items.getD []) r, .error r)
  | none =>
    let l := items.getD []
    let es := spanInsts x
    let ads := admissions x.index es (l.map (·.1))
    let t := s.trial x.index es l
    match ads.find? fun a => decide (t.admitResult a.1 a.2 ≠ 0) with
    | some a => (s.showAdmission a.1 (t.admitResult a.1 a.2), .error ⟨admitCode (t.admitResult a.1 a.2), none⟩)
    | none =>
      let s := each es (fun s e => each l (fun s it => s.setItem src x.index e it) (s.touch e)) s
      (each ads (fun s a => s.admitDie a.1 a.2) s, .ok [])

/-- A request that opens a load: its refusals stand in the order of R485. -/
def isLoadBegin (x : Span) (b : List Byte) : Bool :=
  x.index == 0x7040 && x.sub == 1 && x.count == 1 && spanFirst x == dev && spanLast x == dev && b.length == 8

/-- A write of a payload to a span; `whole` where it came by segments. -/
def State.writeSpan (s : State) (src : Src) (x : Span) (b : List Byte) (range whole : Bool) : Outcome' :=
  if !countsOk x range ∨ octLength src x b.length whole ≠ aDone then (s, .error ⟨aLength, none⟩)
  else if isLoadBegin x b then
    (needDone (loadBeginCode src (fieldAt b 0 4) (fieldAt b 4 4) s) (done (s.openLoad src (fieldAt b 0 4) (fieldAt b 4 4)))).outcome s
  else s.writeItems src x (itemsOf x b) whole

/-- Carry out WRITE or WRITE_RANGE; a reset that it asks for follows its reply. -/
def State.writeReq (s : State) (src : Src) (x : Span) (b : List Byte) (range : Bool) : State :=
  (s.serveWith src (if range then opWriteRange else opWrite) (spanWord x) (spanRange x) fun s =>
    s.writeSpan src x b range false).settle

/-- WRITE (R431) and WRITE_RANGE (R432, R433). -/
def execWrite (src : Src) (span : Span) (payload : List Byte) (s : State) : Res := .next (s.writeReq src span payload false)
def execWriteRange (src : Src) (span : Span) (payload : List Byte) (s : State) : Res := .next (s.writeReq src span payload true)

/-- READ (R431) and READ_RANGE (R432). -/
def State.readReq (s : State) (src : Src) (x : Span) (range : Bool) : State :=
  s.serve src (if range then opReadRange else opRead) (spanWord x) (spanRange x) fun s => s.readSpan src x range

def execRead (src : Src) (span : Span) (s : State) : Res := .next (s.readReq src span false)
def execReadRange (src : Src) (span : Span) (s : State) : Res := .next (s.readReq src span true)

/-- API_CALL (R486): one dictionary request of the user partition, a read or a write of one span. -/
def execApiCall (span : Span) (payload : Option (List Byte)) (s : State) : Res := .next <|
  let range := spanFirst span != spanLast span
  match payload with
  | none => s.readReq .user span range
  | some b => s.writeReq .user span b range

/-- WRITE_ZERO_TO_CLEAR (R555): an object that a write of 0 clears; any other value is out of range. -/
def isZeroClear (i j e : Nat) : Bool := (findRow ⟨i, j, e⟩).any fun r => r.acc == .rw && r.lo == 0 && r.hi == 0

def execWriteZeroToClear (src : Src) (index sub : Nat) (inst : Inst) (v : Int) (s : State) : Res := .next <|
  if isZeroClear index sub (instOf inst) then
    s.writeObj src index sub [instOf inst] v (fun _ _ => aDone) (numSet src index sub v)
  else s

end Sys2Proof.Machine
end

