-- ==== Sys2Proof/Machine/Keyway.lean ====
section
/-! DEFINITION. Keyway beyond single requests (chapter 14): segmented transfers, subscriptions and publication, sessions and
their ends, discarded datagrams, the switch. -/

namespace Sys2Proof.Machine

/-- Ticks of 1 ms (R445). -/
def tickOf (lt : Nat) : Nat := lt / 1000000

/-! ## Transfers (R434 to R437, R445) -/

/-- The transfer of a session under an ID, and a session without it. -/
def Session.transfer? (x : Session) (t : Nat) : Option Transfer := x.transfers.find? fun y => y.id == t
def Session.dropTransfer (x : Session) (t : Nat) : Session := { x with transfers := x.transfers.filter fun y => y.id != t }
def Session.putTransfer (x : Session) (y : Transfer) : Session :=
  { x with transfers := x.transfers.map fun z => if z.id = y.id then y else z }

/-- The sender's session, when it is one. -/
def State.sender (s : State) (src : Src) : Option Session :=
  match src with
  | .keyway id _ => s.session? id
  | .user | .service => none

/-- A valid datagram of a transfer arrives: its time starts again (R445). -/
def State.hearTransfer (s : State) (src : Src) (t : Nat) : State :=
  match src with
  | .keyway id seq =>
    match s.session? id with
    | some x =>
      match x.transfer? t with
      | some y => if s.reached src && !x.stale seq then s.setSession (x.putTransfer { y with lastLt := s.lt }) else s
      | none => s
    | none => s
  | .user | .service => s

/-- The data-free checks of an object that a transfer is to write (R434): the length rule, access, state. -/
def initCheck (src : Src) (i j total : Nat) (s : State) (e : Nat) : Nat :=
  match i, j with
  | 0x1303, _ => if (List.range 8).any (fun k => s.keySlotSet (k + 1)) ∧ !s.bySlot1 src then aDenied else aDone
  | 0x1410, _ => idleOr (decide ((s.port (j - 1)).mode = 1 ∧ s.canState (j - 1) < 2))
  | 0x2400, 1 => recipeCheck total s e
  | 0x2831, _ => hostOwns s e
  | 0x40F0, 1 => if s.lockbox.hash.isNone then aPassword else if s.lockedOut then aLocked else aDone
  | 0x40F0, 2 => if s.lockbox.hash.isSome ∧ s.lockedOut then aLocked else aDone
  | 0x7020, _ => if !s.bySlot1 src then aDenied else if s.rdB 0x7020 j dev ≠ [] then aReadOnly else aDone
  | 0x7040, 2 => idleOr (s.rd 0x7040 4 dev == 1)
  | 0x7060, 2 => if total ≠ 3736 ∧ total ≠ 5265 then aLength else if s.sealedPart then aDenied else aDone
  | _, _ => aDone

/-- The size that a span of fixed-size types has. -/
def sizeOf' (x : Span) : Nat := ((spanSubs x).map fun j => ((anyRow x.index j).map fun r => Ty.size r.ty).getD 0).sum

/-- The total that a write transfer announces (R441). -/
def totalCheck (src : Src) (x : Span) (total : Nat) : Nat :=
  if total = 0xFFFFFFFF then aLength
  else if isOctets x.index x.sub then octLength src x total true
  else if (anyRow x.index x.sub).isSome ∧ total ≠ sizeOf' x then aLength
  else aDone

/-- The checks of a SEG_INIT that writes, in the order of R452. -/
def State.initChecks (s : State) (src : Src) (x : Span) (total : Nat) : Option Refuse :=
  let i := x.index
  firstBad (spanInsts x) [⟨some 3, s.instCheck x.index⟩, ⟨some 4, spanExist x⟩, ⟨some 5, eachSub x (s.accessCheck src i)⟩,
    ⟨none, eachSub x fun j => initCheck src i j total s⟩, ⟨some 8, eachSub x fun j => s.rwiCheck i j⟩]

/-- No further transfer fits: 4 in the session, 16 in the device. -/
def State.transfersFull (s : State) (x : Session) : Bool := decide (4 ≤ x.transfers.length) || decide (16 ≤ s.openTransfers)

/-- Open a transfer under the SEQ of its SEG_INIT. -/
def State.openTransfer (s : State) (src : Src) (y : Transfer) : State :=
  match s.sender src with
  | some x => s.setSession { x with transfers := x.transfers ++ [y] }
  | none => s

/-- The ID that a transfer of a request takes. -/
def seqOf : Src → Nat
  | .keyway _ seq => seq
  | .user | .service => 0

/-- A SEG_INIT that writes. -/
def State.initWrite (s : State) (src : Src) (x : Span) (total : Nat) : Ans :=
  if !countsOk x true ∨ totalCheck src x total ≠ aDone then .error ⟨aLength, none⟩
  else
    match s.initChecks src x total with
    | some r => .error r
    | none =>
      if (s.sender src).any s.transfersFull then .error ⟨aBusy, none⟩
      else done (s.openTransfer src ⟨seqOf src, true, x, ⟨total, []⟩, [], s.lt⟩)

/-- A SEG_INIT that reads takes its snapshot and returns its length (R434); the report object builds its report (R492). -/
def State.initRead (s : State) (src : Src) (x : Span) (qm : Bool) : Ans :=
  if !countsOk x false then .error ⟨aLength, none⟩
  else
    match s.readChecks x aDone with
    | some r => .error r
    | none =>
      let a : Ans := if x.index = 0x7070 ∧ x.sub = 2 then s.readReport src qm else (s.gather src x false).map fun b => (s.draw, b)
      match a with
      | .error r => .error r
      | .ok (s', b) =>
        if (s.sender src).any s.transfersFull then .error ⟨aBusy, none⟩
        else .ok (s'.openTransfer src ⟨seqOf src, false, x, ⟨b.length, []⟩, b, s.lt⟩, leNat 4 b.length)

/-- A SEG_INIT whose direction is above 1 or whose zero octets are not 0 is out of range, after what R452 puts before. -/
def State.initBad (s : State) (src : Src) (x : Span) (dir total : Nat) : Ans :=
  let access (j e : Nat) : Nat :=
    if dir = 0 then readAccess x.index j e else if dir = 1 then s.accessCheck src x.index j e else aDone
  if !countsOk x (dir != 0) ∨ (dir ≠ 0 ∧ total = 0xFFFFFFFF) ∨ (dir = 1 ∧ totalCheck src x total ≠ aDone) then .error ⟨aLength, none⟩
  else
    match firstBad (spanInsts x) [⟨some 3, s.instCheck x.index⟩, ⟨some 4, spanExist x⟩, ⟨some 5, eachSub x access⟩] with
    | some r => .error r
    | none => .error ⟨aRange, none⟩

/-- SEG_INIT: its payload of 8 octets gives the direction and the total. -/
def State.segInit (s : State) (src : Src) (x : Span) (p : List Byte) (qm : Bool) : State :=
  match src with
  | .keyway _ _ => s.serve src opSegInit (spanWord x) (spanRange x) fun s =>
    if p.length ≠ 8 then .error ⟨aLength, none⟩
    else if fieldAt p 0 1 = 0 ∧ zeroB p 1 3 then s.initRead src x qm
    else if fieldAt p 0 1 = 1 ∧ zeroB p 1 3 then s.initWrite src x (fieldAt p 4 4)
    else s.initBad src x (fieldAt p 0 1) (fieldAt p 4 4)
  | .user | .service => s

/-- SEG_INIT, direction write, and direction read. -/
def execSegInitWrite (src : Src) (span : Span) (payload : List Byte) (s : State) : Res := .next (s.segInit src span payload s.qmUp)
def execSegInitRead (src : Src) (span : Span) (payload : List Byte) (s : State) : Res := .next (s.segInit src span payload s.qmUp)

/-- Place a chunk in the staging of a transfer (R435). -/
def State.stageChunk (s : State) (src : Src) (y : Transfer) (off : Nat) (d : List Byte) : Ans :=
  if y.pieces.total < off + d.length then .error ⟨aLength, none⟩
  else match s.sender src with
    | some x => done (s.setSession (x.putTransfer { y with pieces := { y.pieces with parts := y.pieces.parts ++ [(off, d)] } }))
    | none => done s

/-- Return octets of a snapshot (R435, R441). -/
def State.snapChunk (s : State) (y : Transfer) (off : Nat) (p : List Byte) : Ans :=
  let n := ofLe p
  if p.length ≠ 4 ∨ n = 0 ∨ 1408 < n ∨ y.pieces.total ≤ off then .error ⟨aLength, none⟩
  else .ok (s, sliceB y.snapshot off n)

/-- The open transfer that a request names. -/
def State.transferOf (s : State) (src : Src) (t : Nat) : Option Transfer := (s.sender src).bind (·.transfer? t)

/-- SEG_DATA (R435): the direction is the transfer's. -/
def State.segData (s : State) (src : Src) (t off : Nat) (p : List Byte) : State :=
  match src with
  | .keyway _ _ => (s.hearTransfer src t).serve src opSegData off t fun s =>
    match s.transferOf src t with
    | none => .error ⟨aTransfer, none⟩
    | some y => if y.write then s.stageChunk src y off p else s.snapChunk y off p
  | .user | .service => s

def execSegDataWrite (src : Src) (transfer offset : Nat) (data : List Byte) (s : State) : Res := .next (s.segData src transfer offset data)
def execSegDataRead (src : Src) (transfer offset : Nat) (payload : List Byte) (s : State) : Res := .next (s.segData src transfer offset payload)

/-- Close a transfer of the sender. -/
def State.closeTransfer (s : State) (src : Src) (t : Nat) : State :=
  match s.sender src with
  | some x => s.setSession (x.dropTransfer t)
  | none => s

/-- Apply a write transfer (R436): every octet there, the CRC, then the checks and the effect of the write. -/
def State.applyTransfer (s : State) (src : Src) (y : Transfer) (crc : Option Nat) : Outcome' :=
  match y.pieces.whole with
  | none => (s, .error ⟨aLength, none⟩)
  | some b =>
    if crc.isNone then (s, .error ⟨aLength, none⟩)
    else if crc ≠ some (crc32 b) then (s, .error ⟨aCrc, none⟩)
    else s.writeSpan src y.span b true true

/-- SEG_END (R436) closes its transfer, whatever the outcome. -/
def State.segEnd (s : State) (src : Src) (t : Nat) (crc : Option Nat) : State :=
  match src with
  | .keyway _ _ => (s.serveWith src opSegEnd 0 t fun s =>
    match s.transferOf src t with
    | none => (s, .error ⟨aTransfer, none⟩)
    | some y =>
      let s := s.closeTransfer src t
      if y.write then s.applyTransfer src y crc else (s, .ok [])).settle
  | .user | .service => s

def execSegEndWrite (src : Src) (transfer crc : Nat) (s : State) : Res := .next (s.segEnd src transfer (some crc))
def execSegEndRead (src : Src) (transfer : Nat) (s : State) : Res := .next (s.segEnd src transfer none)

/-- ABORT_TRANSFER (R437). -/
def execAbortTransfer (src : Src) (transfer : Nat) (s : State) : Res := .next <|
  match src with
  | .keyway _ _ => s.serve src opAbort 0 transfer fun s =>
    if (s.transferOf src transfer).isNone then .error ⟨aTransfer, none⟩ else done (s.closeTransfer src transfer)
  | .user | .service => s

/-- TRANSFER_TIMEOUT (R445): 2,000 ms without a datagram; an ABORT names the transfer, under a SEQ that no rule gives (a free
value). A datagram within the tick of the
expiry wins (R178), so it acts once that tick is over. -/
def execTransferTimeout (session transfer : Nat) (s : State) : Res := .next <|
  match s.session? session with
  | none => s
  | some x =>
    match x.transfer? transfer with
    | none => s
    | some y =>
      if tickOf y.lastLt + 2000 < tickOf s.lt then
        (((s.clearOut.setSession (x.dropTransfer transfer)).inc 0x1310 4 dev).send
          { sentReply session (Config.freeInt s.free % 2 ^ 32).toNat opAbort aTimeout 0 transfer [] with rsp := false }).draw
      else s

/-- ATTESTATION_REPORT (R492, R493): a session reads the report by segments; the user partition's call returns it. -/
def execAttestationReport (src : Src) (qmReplied : Bool) (s : State) : Res := .next <|
  let x : Span := ⟨0x7070, 2, 1, .dev, .dev⟩
  match src with
  | .keyway _ _ => s.segInit src x (leNat 8 0) (qmReplied && s.qmUp)
  | .user | .service => s.serve src opRead (spanWord x) (spanRange x) fun s => s.readReport src (qmReplied && s.qmUp)

/-! ## Subscriptions (R438) -/

/-- The instances of an entry. -/
def entryInsts (x : SubEntry) : List Nat := instRange (instOf x.first) (instOf x.last)

/-- The checks of an entry, as a READ_RANGE of COUNT 1 of fixed size. -/
def State.entryChecks (s : State) (l : List SubEntry) : List Check' :=
  let at' (f : SubEntry → Nat → Nat) (n : Nat) : Nat :=
    match l[n]? with
    | some x => firstCode ((entryInsts x).map (f x))
    | none => aDone
  let one (f : SubEntry → Bool) (code n : Nat) : Nat := if (l[n]?).any f then code else aDone
  [⟨some 2, one (fun x => decide (instOf x.last < instOf x.first)) aLength⟩, ⟨some 3, at' fun x => s.instCheck x.index⟩,
    ⟨some 4, at' fun x => existCheck x.index x.sub⟩, ⟨some 5, at' fun x => readAccess x.index x.sub⟩,
    ⟨some 6, one (fun x => isOctets x.index x.sub) aType⟩]

/-- The subscriptions of a sender, and the sender with others. -/
def State.subsOf (s : State) (src : Src) : List Subscr :=
  match src with
  | .keyway id _ => ((s.session? id).map (·.subs)).getD []
  | .user => s.net.userSubs
  | .service => []

def State.setSubs (s : State) (src : Src) (l : List Subscr) : State :=
  match src with
  | .keyway id _ =>
    match s.session? id with
    | some x => s.setSession { x with subs := l }
    | none => s
  | .user => { s with net := { s.net with userSubs := l } }
  | .service => s

/-- The budget of R438 holds with a subscription in place of the sender's own under its handle. -/
def State.budgetOk (s : State) (src : Src) (x : Subscr) : Bool :=
  let t := s.setSubs src ((s.subsOf src).filter (fun y => y.handle != x.handle) ++ [x])
  let l := t.loadOfSubs t.allSubs
  decide (l.1 ≤ 8000000) && decide (l.2 ≤ 20000)

/-- A new subscription publishes from the next epoch on, a new stream from the next record that arrives. -/
def State.newSub (s : State) (period handle : Nat) (l : List SubEntry) : Subscr :=
  ⟨handle, period, l, s.net.gotRec + 1, s.net.gotBat + 1⟩

/-- Set the subscriptions of a sender; what waits to be sent of a handle is dropped with it. -/
def State.putSubs (s : State) (src : Src) (handle : Nat) (l : List Subscr) : State :=
  let id := match src with
    | .keyway id _ => id
    | .user | .service => 0
  let s := s.setSubs src l
  { s with net := { s.net with pubs := s.net.pubs.filter fun p => p.session != id || p.handle != handle } }

/-- Carry out a SUBSCRIBE. -/
def State.subscribeTo (s : State) (src : Src) (period handle count : Nat) (l : List SubEntry) : Ans :=
  let x := s.newSub period handle l
  let range := decide (10000 < period) || decide (15 < handle)
  if count = 0 ∨ 64 < count ∨ l.length ≠ count then .error ⟨aLength, none⟩
  else if period = 0 then
    if range then .error ⟨aRange, none⟩ else done (s.putSubs src handle ((s.subsOf src).filter fun y => y.handle != handle))
  else
    match (if x.stream then none else firstBad (List.range count) (s.entryChecks l)) with
    | some r => .error ⟨r.code, none⟩
    | none =>
      if range then .error ⟨aRange, none⟩
      else if !s.budgetOk src x then .error ⟨aBudget, none⟩
      else done (s.putSubs src handle ((s.subsOf src).filter (fun y => y.handle != handle) ++ [x]))

/-- SUBSCRIBE (R438). -/
def execSubscribe (src : Src) (period handle count : Nat) (entries : List SubEntry) (s : State) : Res := .next <|
  match src with
  | .service => s
  | .keyway _ _ | .user => s.serve src opSubscribe 0 0 fun s => s.subscribeTo src period handle count entries

/-! ## Publication (R439, R440) -/

/-- The octets of a publication: entries in order, instances ascending. -/
def State.pubBytes (s : State) (src : Src) (x : Subscr) : List Byte :=
  x.entries.flatMap fun y => (entryInsts y).flatMap fun e => (s.value src y.index y.sub e).getD []

/-- A message in parts of at most 1,408 octets, MORE on every part but the last. -/
def partsOf (rsp : Bool) (op session seq word3 word4 : Nat) (b : List Byte) : List Sent :=
  let n := max 1 ((b.length + 1407) / 1408)
  (List.range n).map fun k =>
    { op := op, rsp := rsp, session := session, seq := seq, part := k, more := decide (k + 1 < n), status := 0, word3 := word3,
      word4 := word4, payload := sliceB b (1408 * k) 1408 }

/-- Word 4 of a NOTIFY: the handle in its high octet. -/
def handleWord (h : Nat) : Nat := h % 256 * 2 ^ 24

/-- A subscription publishes at the epoch in force. -/
def State.subDue (s : State) (x : Subscr) : Bool := !x.stream && x.period != 0 && s.rdN 0x1101 3 dev % x.period == 0

/-- The publications that a sender's subscriptions have at the epoch in force. -/
def State.duePubs (s : State) (src : Src) (session : Nat) : List Pub :=
  ((s.subsOf src).filter s.subDue).map fun y => ⟨session, y.handle, s.rdN 0x1101 3 dev, s.pubBytes src y⟩

/-- At an epoch every subscription that is due takes its values (R439); NOTIFY sends them. -/
def State.takePubs (s : State) : State :=
  let a := if s.reached (.keyway 0 0) then s.net.sessions.flatMap fun x => s.duePubs (.keyway x.id 0) x.id else []
  let b := if s.reached .user then s.duePubs .user 0 else []
  { s with net := { s.net with pubs := s.net.pubs ++ a ++ b } }.draw

/-- CARRIER_EPOCH: line time has reached an epoch. -/
def execCarrierEpoch (errs : List Int) (s : State) : Res := .next <|
  match s.epochDue with
  | some e => if s.vsys then (s.epoch e errs).takePubs else s
  | none => s

/-- LT_STEP (R382): the epoch at which a step waits; the time bases are reloaded at it, so that no die is off. -/
def execLtStep (s : State) : Res := .next <|
  match s.clock.step, s.epochDue with
  | some _, some e => if s.vsys then (s.epoch e []).takePubs else s
  | _, _ => s

/-- The next NOTIFY of a session, or of the user partition (session 0): its number, and the state that has counted it. -/
def State.nextNotify (s : State) (session : Nat) : Nat × State :=
  match s.session? session with
  | some x => (x.notifySeq + 1, s.setSession { x with notifySeq := x.notifySeq + 1 })
  | none => (s.net.userSeq + 1, { s with net := { s.net with userSeq := s.net.userSeq + 1 } })

/-- Send a publication in its parts. -/
def State.notifyOut (s : State) (session number handle : Nat) (b : List Byte) : State :=
  let n := s.nextNotify session
  each (partsOf false opNotify session n.1 number (handleWord handle) b) (fun s d => s.send d) n.2

/-- NOTIFY (R439): the publications that wait are sent. -/
def execNotify (s : State) : Res := .next <|
  let t := s.clearOut
  let t := { t with net := { t.net with pubs := [] } }
  each s.net.pubs (fun s p => s.notifyOut p.session p.number p.handle p.bytes) t

/-- A record is freed by an acknowledgement (R232). -/
def State.freedRec (s : State) (n : Nat) : Bool :=
  (s.recAt n).isNone || s.qm.bats.any fun e => decide (e.1 ≤ s.qm.ackBat) && decide (n < e.2.first + e.2.count)

/-- The batch record that a stream publishes next: its records have been published (R440). -/
def State.nextBatch (s : State) (x : Subscr) : Option (Nat × List Byte) :=
  if s.net.gotBat < x.nextBat then none
  else match s.batAt x.nextBat with
    | some b => if b.first + b.count ≤ x.nextRec then some (x.nextBat, b.bytes) else none
    | none => none

/-- Whole records, from one on, that fit into 1,408 octets; a batch record stands between the records of two batches. -/
def State.takeRecs (s : State) (upTo : Nat) : Nat → Nat → List Byte → Nat × Nat × List Byte
  | 0, n, b => (n, 0, b)
  | k + 1, n, b =>
    if upTo < n then (n, 0, b)
    else if s.freedRec n then let r := s.takeRecs upTo k (n + 1) b; (r.1, r.2.1 + 1, r.2.2)
    else
      let y := ((s.recAt n).map (·.bytes)).getD []
      if 1408 < b.length + y.length then (n, 0, b) else s.takeRecs upTo k (n + 1) (b ++ y)

/-- The last record that may be published now. -/
def State.recLimit (s : State) (x : Subscr) : Nat :=
  match s.batAt x.nextBat with
  | some b => min s.net.gotRec (b.first + b.count - 1)
  | none => s.net.gotRec

/-- A batch record that is there no more is passed over. -/
def State.passBatches (s : State) (x : Subscr) : Subscr :=
  if x.nextBat ≤ s.net.gotBat ∧ (s.batAt x.nextBat).isNone then { x with nextBat := x.nextBat + 1 } else x

/-- The next publication of a stream: the stream after it, its octets, the records skipped. -/
def State.streamNext (s : State) (x : Subscr) : Subscr × List Byte × Nat :=
  let x := s.passBatches x
  match s.nextBatch x with
  | some (n, b) => ({ x with nextBat := n + 1 }, b, 0)
  | none =>
    let r := s.takeRecs (s.recLimit x) (s.recLimit x + 1 - x.nextRec) x.nextRec []
    ({ x with nextRec := r.1 }, r.2.2, r.2.1)

/-- What record streams have sent in the present second of line time: octets and datagrams. -/
def State.streamSent (s : State) : Nat × Nat :=
  if s.net.streamSec = s.lt / 1000000000 then (s.net.streamBytes, s.net.streamGrams) else (0, 0)

/-- A stream may send octets now (R440): cyclic publications have gone, and the budget has room beside their load. DESIGN
CHOICE (log 193): the budget of the streams is counted by seconds of line time. -/
def State.streamRoom (s : State) (n : Nat) : Bool :=
  let l := s.loadOfSubs (s.allSubs.filter fun x => !x.stream)
  let k := max 1 ((n + 1407) / 1408)
  s.net.pubs.isEmpty && decide ((s.streamSent.1 + n + 40 * k : Nat) + l.1 ≤ 8000000) &&
    decide ((s.streamSent.2 + k : Nat) + l.2 ≤ 20000)

/-- Count what a stream sends. -/
def State.countStream (s : State) (n : Nat) : State :=
  let k := max 1 ((n + 1407) / 1408)
  { s with net := { s.net with streamSec := s.lt / 1000000000, streamBytes := s.streamSent.1 + n + 40 * k, streamGrams := s.streamSent.2 + k } }

/-- The sender of a stream's subscription: a session, or 0 the user partition. -/
def streamOwner (session : Nat) : Src := if session = 0 then .user else .keyway session 0

/-- RECORD_STREAM_PUBLISH (R440). -/
def execRecordStreamPublish (session handle : Nat) (s : State) : Res := .next <|
  let s := s.clearOut
  let src := streamOwner session
  match (s.subsOf src).find? fun y => y.handle == handle && y.stream with
  | none => s
  | some y =>
    let r := s.streamNext y
    if s.reached src ∧ s.streamRoom r.2.1.length then
      let s := s.wr 0x1310 8 dev ((s.rd 0x1310 8 dev + r.2.2) % 2 ^ 32)
      let s := s.setSubs src ((s.subsOf src).map fun z => if z.handle = handle then r.1 else z)
      if r.2.1 = [] then s else (s.countStream r.2.1.length).notifyOut session (s.rdN 0x1101 3 dev) handle r.2.1
    else s

/-! ## Sessions (R443, R447 to R450) -/

/-- The end of a session (R447). -/
def State.endSession (s : State) (id : Nat) : State :=
  let mine (o : Option Src) : Bool := o.any (sameSession (.keyway id 0))
  let s := when' (mine s.net.unlockBy) State.endUnlock s
  let s := when' (mine s.sec.loadBy) State.abandonLoad s
  { s with net := { s.net with
    sessions := s.net.sessions.filter (fun x => x.id != id),
    pubs := s.net.pubs.filter (fun p => p.session != id),
    storeBy := if mine s.net.storeBy then none else s.net.storeBy } }

/-- ABORT_SESSION (R447): an ABORT with INDEX 0xFFFF. -/
def execAbortSession (src : Src) (s : State) : Res := .next <|
  match src with
  | .keyway id _ =>
    let served := s.reached src && s.serves src
    when' served (·.endSession id) (s.serve src opAbort (addrWord 0xFFFF 0 0) 0 fun s => done s)
  | .user | .service => s

/-- SESSION_IDLE_TIMEOUT (R447); a datagram at the expiry wins (R178). -/
def execSessionIdleTimeout (session : Nat) (s : State) : Res := .next <|
  match s.session? session with
  | some x => if x.lastLt + s.rdN 0x1302 0 dev * 1000000000 < s.lt then s.endSession session else s
  | none => s

/-- KEPT_REPLY_EXPIRY (R443): 2,000 ms after it was sent. -/
def execKeptReplyExpiry (session seq : Nat) (s : State) : Res := .next <|
  match s.session? session with
  | some x => s.setSession { x with kept := x.kept.filter fun r => r.seq != seq || decide (s.lt ≤ r.sentLt + 2000000000) }
  | none => s

/-- The tag of a message of stages 1 to 3 (R448): 16 octets of SHA3-256 over header and payload. -/
def shakeTag (b : List Byte) : List Byte := (sha3 b).take 16

/-- A message of the handshake, each part under the tag of its stage. -/
def State.shakeOut (s : State) (id seq stage : Nat) (b : List Byte) : State :=
  each (partsOf true opSession id seq (stage * 2 ^ 24) 0 b) (fun s d =>
    if stage = 4 then s.send d
    else s.sendRaw { d with body := d.payload, tag := shakeTag (headerBytes d ++ d.payload) }) s

/-- An untagged reply without payload that refuses a stage. -/
def State.shakeRefuse (s : State) (id seq stage code : Nat) : State :=
  s.sendRaw (sentReply id seq opSession code (stage * 2 ^ 24) 0 [])

/-- Eight sessions are open. -/
def State.sessionsFull (s : State) : Bool := decide (8 ≤ s.net.sessions.length)

/-- A well-formed stage 1: 1,220 octets, mode 0 or 1, three zero octets. -/
def stage1Ok (p : List Byte) : Bool := p.length == 1220 && decide (fieldAt p 0 4 ≤ 1)

/-- Begin a handshake: stage 2 with a fresh nonce, the ciphertext, the device key and the signature over T2. -/
def State.beginShake (s : State) (seq : Nat) (p : List Byte) : State :=
  let id := s.net.nextId
  let nonce := (List.range 32).map (Config.freeByte s.free)
  let kem := mlkemEncaps (sliceB p 36 1184) ((List.range 32).map fun i => Config.freeByte s.free (32 + i))
  let head := leNat 4 id ++ leNat 1 (fieldAt p 0 1) ++ leNat 3 0 ++ nonce ++ padTo 1088 kem.2 ++ s.deviceKey
  let t2 := sha3 (p ++ head)
  let x : Handshake := ⟨id, seq, fieldAt p 0 1, t2, kem.1, s.lt⟩
  let s := { s.draw with net := { s.net with shakes := s.net.shakes ++ [x], nextId := id % (2 ^ 32 - 1) + 1 } }
  s.shakeOut id seq 2 (head ++ padTo 3309 (Config.mldsaSign 0 keywayCtx t2))

/-- SESSION_OPEN_STAGE_1 (R448). A stage 1 that is not well formed is ignored (log 26). -/
def execSessionOpenStage1 (seq : Nat) (payload : List Byte) (s : State) : Res := .next <|
  let s := s.clearOut
  if !s.reached (.keyway 0 seq) ∨ !stage1Ok payload then s
  else if fieldAt payload 0 1 = 0 ∧ s.rd 0x1304 0 dev = 1 then s.shakeRefuse 0 seq 2 aDenied
  else if s.sessionsFull ∨ 2 ≤ s.net.shakes.length then s.shakeRefuse 0 seq 2 aBusy
  else s.beginShake seq payload

/-- The host key slot that a key opens: some 0 while every slot is empty, else the lowest slot with its hash (R450). -/
def State.slotOf (s : State) (key : List Byte) : Option Nat :=
  let slots := (List.range 8).map (· + 1)
  if !slots.any s.keySlotSet then some 0
  else slots.find? fun k => s.keySlotSet k && s.rdB 0x1303 k dev == sha3 key

/-- The refusals of stage 3. -/
def State.stage3Code (s : State) (x : Handshake) (key sig : List Byte) : Nat :=
  if (s.slotOf key).isNone then aDenied
  else if !mldsaVerify key keywayCtx (sha3 (x.t2 ++ key)) sig then aAuth
  else if s.sessionsFull then aBusy
  else aDone

/-- The keys of a session (R449): four of 32 octets. -/
def sessionKeys (secret t3 : List Byte) : List Byte := kmac256 secret t3 128 (text "Keyway keys")

/-- Open the session and send stage 4. -/
def State.openSession (s : State) (x : Handshake) (key : List Byte) : State :=
  let t3 := sha3 (x.t2 ++ key)
  let keys := sessionKeys x.secret t3
  let y : Session := ⟨x.id, 0, [], [], [], 0, s.lt, (s.slotOf key).getD 0, x.mode == 1, [], keys⟩
  let s := { s with net := { s.net with sessions := s.net.sessions ++ [y] } }
  s.shakeOut x.id x.seq 4 (padTo 32 (kmac256 (sliceB keys 32 32) t3 32 (text "Keyway finished")))

/-- SESSION_OPEN_STAGE_3 (R448): the handshake ends, with a session or with a refusal. -/
def execSessionOpenStage3 (session seq : Nat) (hostKey sig : List Byte) (s : State) : Res := .next <|
  let s := s.clearOut
  match s.net.shakes.find? fun x => x.id == session && x.seq == seq with
  | none => s
  | some x =>
    if !s.reached (.keyway session seq) ∨ hostKey.length ≠ 1952 ∨ sig.length ≠ 3309 then s
    else
      let c := s.stage3Code x hostKey sig
      let s := { s with net := { s.net with shakes := s.net.shakes.filter fun y => y.id != session } }
      if c = aDone then s.openSession x hostKey else s.shakeRefuse session seq 4 c

/-- HANDSHAKE_TIMEOUT (R445): a stage not completed within 2,000 ms is discarded without a message, once the tick of the
expiry is over (R178). -/
def execHandshakeTimeout (session : Nat) (s : State) : Res := .next <|
  let keep (x : Handshake) : Bool := x.id != session || decide (tickOf s.lt ≤ tickOf x.lastLt + 2000)
  { s with net := { s.net with shakes := s.net.shakes.filter keep } }

/-! ## Discarded datagrams, unknown opcodes (R428, R430) -/

/-- The fields of a datagram in its octets (R427). -/
def dgVer (b : List Byte) : Nat := fieldAt b 0 4 / 2 ^ 28
def dgRsp (b : List Byte) : Bool := bit (fieldAt b 0 4) 27
def dgEnc (b : List Byte) : Bool := bit (fieldAt b 0 4) 26
def dgOp (b : List Byte) : Nat := fieldAt b 2 1
def dgPart (b : List Byte) : Nat := fieldAt b 1 1
def dgSession (b : List Byte) : Nat := fieldAt b 4 4
def dgSeq (b : List Byte) : Nat := fieldAt b 8 4
def dgLength (b : List Byte) : Nat := fieldAt b 20 4
def dgTag (b : List Byte) : List Byte := b.drop (24 + dgLength b)

/-- A datagram of a handshake stage that the host sends. -/
def dgOpens (b : List Byte) : Bool := dgOp b == opSession && (fieldAt b 15 1 == 1 || fieldAt b 15 1 == 3)

/-- The cases of R428 but for the session and the tag. -/
def dgForm (b : List Byte) : Bool :=
  decide (24 ≤ b.length) && b.length == 40 + dgLength b && decide (dgLength b ≤ 1408) && dgVer b == 1 && !dgRsp b

/-- The tag that a datagram must carry (R448, R449), where there is a key or a hash to check it with (log 27). -/
def State.dgExpect (s : State) (b : List Byte) : Option (List Byte) :=
  let whole := b.take (24 + dgLength b)
  if dgOpens b then some (shakeTag whole)
  else (s.session? (dgSession b)).map fun x =>
    if x.confidential then
      gcmExpect (x.key 2) (gcmNonce (dgSession b) (dgSeq b) (dgPart b) 0) (b.take 24) (whole.drop 24)
    else macTag (x.key 0) whole

/-- The tag of a well-formed datagram fails. -/
def State.dgTagFails (s : State) (b : List Byte) : Bool := (s.dgExpect b).any fun t => t != dgTag b

/-- The clear datagram of a confidential session (R449). -/
def State.dgClear (s : State) (b : List Byte) : Bool :=
  !dgOpens b && (s.session? (dgSession b)).any fun x => x.confidential && !dgEnc b

/-- A case of R428. -/
def State.discards (s : State) (b : List Byte) : Bool :=
  !dgForm b || (s.dgExpect b).isNone || s.dgClear b || s.dgTagFails b

/-- DATAGRAM_DISCARD (R428): counted; where the datagram is well formed and not for another reason to be discarded, a tag
failure also (log 27). -/
def execDatagramDiscard (udp : List Byte) (s : State) : Res := .next <|
  if s.reached (.keyway 0 0) ∧ s.discards udp then
    let s := s.inc 0x1310 1 dev
    if dgForm udp && !s.dgClear udp && s.dgTagFails udp then s.inc 0x1310 2 dev else s
  else s

/-- The opcodes that a host sends (R430). -/
def hostOps : List Nat :=
  [opRead, opWrite, opReadRange, opWriteRange, opSegInit, opSegData, opSegEnd, opSubscribe, opAbort, opSession]

/-- UNKNOWN_OPCODE (R430). -/
def execUnknownOpcode (src : Src) (op word3 word4 : Nat) (s : State) : Res := .next <|
  if hostOps.contains op then s else s.serve src op word3 word4 fun _ => .error ⟨aUnknownOp, none⟩

/-! ## The switch and IP (R425, R426) -/

/-- The switch runs: VSYS is valid and VIO_H1 is present (R531). -/
def State.netUp (s : State) : Bool := s.vsys && !bit (s.rdN 0x1220 4 dev) 1

/-- The MAC address of the device, fixed at manufacture (log 2). -/
def State.macAddress (s : State) : List Byte := padTo 6 (s.partOctets 1)

/-- The queue of a frame (R425): the PCP of its IEEE 802.1Q tag, 0 where it carries none. -/
def queueOf (frame : List Byte) : Nat := if sliceB frame 12 2 = [0x81, 0x00] then fieldAt frame 14 1 / 32 else 0

/-- SWITCH_FORWARD (R425): a frame that is not addressed to the device goes unchanged to the other port by the queue of its
PCP; one of more than 1,522 octets is dropped and counted. -/
def execSwitchForward (port : Nat) (frame : List Byte) (s : State) : Res := .next <|
  if !s.netUp ∨ 2 ≤ port ∨ frame.take 6 = s.macAddress then s
  else if 1522 < frame.length then s.inc 0x1301 (3 + port) dev
  else { s with net := { s.net with egress := put s.net.egress (1 - port) (look [] s.net.egress (1 - port) ++ [(queueOf frame, frame)]) } }

/-- The IPv6 link-local address formed from the MAC address (R426): fe80::/64 and the modified EUI-64. -/
def State.linkLocal (s : State) : List Byte :=
  let mac := s.macAddress
  [0xFE, 0x80, 0, 0, 0, 0, 0, 0, mac.getD 0 0 ^^^ 2] ++ sliceB mac 1 2 ++ [0xFF, 0xFE] ++ mac.drop 3

/-- The device has the address that a request names (R426): 0 ARP and 2 ICMP echo by IPv4, 1 NDP and 3 ICMPv6 echo by IPv6. -/
def State.ownsAddress (s : State) (kind : Nat) (addr : List Byte) : Bool :=
  let ip := s.net.ip
  if kind = 0 ∨ kind = 2 then ip.v4 != 0 && addr == (leNat 4 ip.v4).reverse
  else if kind = 1 ∨ kind = 3 then addr == s.linkLocal || (ip.v6.any (· != 0) && addr == ip.v6)
  else false

/-- ARP_NDP_ICMP_ECHO (R426): ARP, NDP and echo requests for an address of the device on the Keyway VLAN are answered; any
other packet and every fragment is discarded. -/
def execArpNdpIcmpEcho (kind vlan : Nat) (fragment : Bool) (addr : List Byte) (s : State) : Res := .next <|
  if s.netUp ∧ s.fw ∧ vlan = s.net.ip.vlan ∧ !fragment ∧ s.ownsAddress kind addr then
    { s with net := { s.net with answered := s.net.answered + 1 } }
  else s

end Sys2Proof.Machine
end

