-- ==== Sys2Proof/Machine/Dispatch.lean ====
section
/-! DEFINITION. The dispatch of a command to its meaning: one arm per row of the command table, in the table's order. -/

namespace Sys2Proof.Machine

def exec (i : Instr) (s : State) : Host.Outcome State Fault Refusal :=
  match i with
  | .vsysValid banksMv => Sys2Proof.Machine.execVsysValid banksMv s
  | .vsysInvalid => Sys2Proof.Machine.execVsysInvalid s
  | .vmetPowerOn vioM => Sys2Proof.Machine.execVmetPowerOn vioM s
  | .vmetLoss => Sys2Proof.Machine.execVmetLoss s
  | .qmWatchdogExpiry => Sys2Proof.Machine.execQmWatchdogExpiry s
  | .qmBoot => Sys2Proof.Machine.execQmBoot s
  | .siteFramingProbe site framed => Sys2Proof.Machine.execSiteFramingProbe site framed s
  | .resetN lowNs => Sys2Proof.Machine.execResetN lowNs s
  | .hubWatchdog => Sys2Proof.Machine.execHubWatchdog s
  | .warmReset src v => Sys2Proof.Machine.execWarmReset src v s
  | .siteReset src mask => Sys2Proof.Machine.execSiteReset src mask s
  | .engineReset src mask => Sys2Proof.Machine.execEngineReset src mask s
  | .recipeScrub site bad => Sys2Proof.Machine.execRecipeScrub site bad s
  | .bootRomCheck => Sys2Proof.Machine.execBootRomCheck s
  | .residentFirmwareStart => Sys2Proof.Machine.execResidentFirmwareStart s
  | .hingeCTraining site ok => Sys2Proof.Machine.execHingeCTraining site ok s
  | .qcfwCheck site => Sys2Proof.Machine.execQcfwCheck site s
  | .driverArming site => Sys2Proof.Machine.execDriverArming site s
  | .echoTimeout site => Sys2Proof.Machine.execEchoTimeout site s
  | .hingeCReplay n dir good later => Sys2Proof.Machine.execHingeCReplay n dir good later s
  | .hingeCLinkFailed site dir => Sys2Proof.Machine.execHingeCLinkFailed site dir s
  | .latchFrameSend site dir => Sys2Proof.Machine.execLatchFrameSend site dir s
  | .heartbeat site dir => Sys2Proof.Machine.execHeartbeat site dir s
  | .heartbeatTimeout site => Sys2Proof.Machine.execHeartbeatTimeout site s
  | .dieWatchdog n core => Sys2Proof.Machine.execDieWatchdog n core s
  | .siteRecovery site => Sys2Proof.Machine.execSiteRecovery site s
  | .metrologyLinkSilent => Sys2Proof.Machine.execMetrologyLinkSilent s
  | .streamLoss site => Sys2Proof.Machine.execStreamLoss site s
  | .streamReturn site => Sys2Proof.Machine.execStreamReturn site s
  | .dcovComparator n a b => Sys2Proof.Machine.execDcovComparator n a b s
  | .dcLinkAboveOv2 n a b => Sys2Proof.Machine.execDcLinkAboveOv2 n a b s
  | .safetyStop n a b => Sys2Proof.Machine.execSafetyStop n a b s
  | .segmentStop n a b => Sys2Proof.Machine.execSegmentStop n a b s
  | .segmentStopRequest n a b => Sys2Proof.Machine.execSegmentStopRequest n a b s
  | .regenerationInhibit n a b => Sys2Proof.Machine.execRegenerationInhibit n a b s
  | .doorLimit n a b => Sys2Proof.Machine.execDoorLimit n a b s
  | .regenerationRelease n a b => Sys2Proof.Machine.execRegenerationRelease n a b s
  | .doorRelease n a b => Sys2Proof.Machine.execDoorRelease n a b s
  | .runRelease n a b => Sys2Proof.Machine.execRunRelease n a b s
  | .test n a b => Sys2Proof.Machine.execTest n a b s
  | .testEcho n a b => Sys2Proof.Machine.execTestEcho n a b s
  | .segmentBusFault n a b => Sys2Proof.Machine.execSegmentBusFault n a b s
  | .overTemperature n a b => Sys2Proof.Machine.execOverTemperature n a b s
  | .clockLost n a b => Sys2Proof.Machine.execClockLost n a b s
  | .dabStageLatched n a b => Sys2Proof.Machine.execDabStageLatched n a b s
  | .trailEntry n => Sys2Proof.Machine.execTrailEntry n s
  | .trailFreeze => Sys2Proof.Machine.execTrailFreeze s
  | .identify => Sys2Proof.Machine.execIdentify s
  | .mailboxRead index sub chan => Sys2Proof.Machine.execMailboxRead index sub chan s
  | .mailboxSubscribe mask => Sys2Proof.Machine.execMailboxSubscribe mask s
  | .ackRecords n => Sys2Proof.Machine.execAckRecords n s
  | .cellId chan id => Sys2Proof.Machine.execCellId chan id s
  | .stepStart chan row stepIndex mode rate gang origin firstJob loop sub4 sub2 => Sys2Proof.Machine.execStepStart chan row stepIndex mode rate gang origin firstJob loop sub4 sub2 s
  | .stepClose chan nextRow cause endLt => Sys2Proof.Machine.execStepClose chan nextRow cause endLt s
  | .reqAdjustImageSegment offset data => Sys2Proof.Machine.execReqAdjustImageSegment offset data s
  | .enterToken t => Sys2Proof.Machine.execEnterToken t s
  | .leaveToken t => Sys2Proof.Machine.execLeaveToken t s
  | .auditAcknowledge t => Sys2Proof.Machine.execAuditAcknowledge t s
  | .calibrationWrite t => Sys2Proof.Machine.execCalibrationWrite t s
  | .authorityKeySet t => Sys2Proof.Machine.execAuthorityKeySet t s
  | .softwareAnnounce t => Sys2Proof.Machine.execSoftwareAnnounce t s
  | .beacon epochLt number mclk => Sys2Proof.Machine.execBeacon epochLt number mclk s
  | .mailboxFrameDiscard bytes => Sys2Proof.Machine.execMailboxFrameDiscard bytes s
  | .qmRecordFrame seq => Sys2Proof.Machine.execQmRecordFrame seq s
  | .qmBatchRecordFrame seq => Sys2Proof.Machine.execQmBatchRecordFrame seq s
  | .mirrorSet epochLt => Sys2Proof.Machine.execMirrorSet epochLt s
  | .metrologyEvent e => Sys2Proof.Machine.execMetrologyEvent e s
  | .integratorSample chan v cur t spare spareT => Sys2Proof.Machine.execIntegratorSample chan v cur t spare spareT s
  | .mirrorMeans epochLt => Sys2Proof.Machine.execMirrorMeans epochLt s
  | .periodicRecord chan => Sys2Proof.Machine.execPeriodicRecord chan s
  | .acRecord samples => Sys2Proof.Machine.execAcRecord samples s
  | .impedanceRecord chan => Sys2Proof.Machine.execImpedanceRecord chan s
  | .checkpoint => Sys2Proof.Machine.execCheckpoint s
  | .batchClose => Sys2Proof.Machine.execBatchClose s
  | .adjEnChange level => Sys2Proof.Machine.execAdjEnChange level s
  | .adjustmentExpiry => Sys2Proof.Machine.execAdjustmentExpiry s
  | .mclkFault => Sys2Proof.Machine.execMclkFault s
  | .mclkReturn => Sys2Proof.Machine.execMclkReturn s
  | .ident arg clocked => Sys2Proof.Machine.execIdent arg clocked s
  | .status arg clocked => Sys2Proof.Machine.execStatus arg clocked s
  | .audit arg clocked => Sys2Proof.Machine.execAudit arg clocked s
  | .record arg clocked => Sys2Proof.Machine.execRecord arg clocked s
  | .batch arg clocked => Sys2Proof.Machine.execBatch arg clocked s
  | .proof arg clocked => Sys2Proof.Machine.execProof arg clocked s
  | .live arg clocked => Sys2Proof.Machine.execLive arg clocked s
  | .ac arg clocked => Sys2Proof.Machine.execAc arg clocked s
  | .pubkey arg clocked => Sys2Proof.Machine.execPubkey arg clocked s
  | .overlapStart site group => Sys2Proof.Machine.execOverlapStart site group s
  | .provisionalTakeover site group => Sys2Proof.Machine.execProvisionalTakeover site group s
  | .rotationCommit site group => Sys2Proof.Machine.execRotationCommit site group s
  | .freedCalibrationPhase site group phase mean => Sys2Proof.Machine.execFreedCalibrationPhase site group phase mean s
  | .freedCalibrationEnd site group => Sys2Proof.Machine.execFreedCalibrationEnd site group s
  | .suspectRecalibration site group modulator zero a b => Sys2Proof.Machine.execSuspectRecalibration site group modulator zero a b s
  | .calibrationAgeEvent site modulator => Sys2Proof.Machine.execCalibrationAgeEvent site modulator s
  | .pathDiagnosis die unit => Sys2Proof.Machine.execPathDiagnosis die unit s
  | .pathDiagnosisResult die unit results => Sys2Proof.Machine.execPathDiagnosisResult die unit results s
  | .diagnosisRepeat die unit => Sys2Proof.Machine.execDiagnosisRepeat die unit s
  | .diagnoseNow src site mask => Sys2Proof.Machine.execDiagnoseNow src site mask s
  | .controlAdcCalibrationWrite src index sub inst v => Sys2Proof.Machine.execControlAdcCalibrationWrite src index sub inst v s
  | .vdrvUndervoltage site mv => Sys2Proof.Machine.execVdrvUndervoltage site mv s
  | .vdrvRelease site mv => Sys2Proof.Machine.execVdrvRelease site mv s
  | .bootstrapHold chan mv => Sys2Proof.Machine.execBootstrapHold chan mv s
  | .bootstrapRelease chan mv => Sys2Proof.Machine.execBootstrapRelease chan mv s
  | .forcedRefresh chan => Sys2Proof.Machine.execForcedRefresh chan s
  | .edgeWord chan w => Sys2Proof.Machine.execEdgeWord chan w s
  | .edgeTime chan => Sys2Proof.Machine.execEdgeTime chan s
  | .deadTimeTurnOn chan => Sys2Proof.Machine.execDeadTimeTurnOn chan s
  | .softComparatorTrip chan uv => Sys2Proof.Machine.execSoftComparatorTrip chan uv s
  | .hardComparatorTrip chan uv => Sys2Proof.Machine.execHardComparatorTrip chan uv s
  | .blankingEnd chan uv => Sys2Proof.Machine.execBlankingEnd chan uv s
  | .checkNow src chan v => Sys2Proof.Machine.execCheckNow src chan v s
  | .contactCheckStart chan => Sys2Proof.Machine.execContactCheckStart chan s
  | .contactCheckPhase chan codes => Sys2Proof.Machine.execContactCheckPhase chan codes s
  | .contactCheckResult chan => Sys2Proof.Machine.execContactCheckResult chan s
  | .periodBoundary die unit => Sys2Proof.Machine.execPeriodBoundary die unit s
  | .midPeriodUpdate die unit => Sys2Proof.Machine.execMidPeriodUpdate die unit s
  | .edgeDecision die unit => Sys2Proof.Machine.execEdgeDecision die unit s
  | .commit src chan v => Sys2Proof.Machine.execCommit src chan v s
  | .outputStart die unit => Sys2Proof.Machine.execOutputStart die unit s
  | .outputStop die unit => Sys2Proof.Machine.execOutputStop die unit s
  | .faultSourceAssert site source unit m1 m2 => Sys2Proof.Machine.execFaultSourceAssert site source unit m1 m2 s
  | .faultSourceDeassert site source a b => Sys2Proof.Machine.execFaultSourceDeassert site source a b s
  | .fltInput k level counts => Sys2Proof.Machine.execFltInput k level counts s
  | .debugHalt die => Sys2Proof.Machine.execDebugHalt die s
  | .debugResume die => Sys2Proof.Machine.execDebugResume die s
  | .release die slot samples => Sys2Proof.Machine.execRelease die slot samples s
  | .jobStart die eng => Sys2Proof.Machine.execJobStart die eng s
  | .jobEnd die eng => Sys2Proof.Machine.execJobEnd die eng s
  | .engineFault die eng k => Sys2Proof.Machine.execEngineFault die eng k s
  | .nop die eng => Sys2Proof.Machine.execNop die eng s
  | .lds die eng d tag => Sys2Proof.Machine.execLds die eng d tag s
  | .ldp die eng d n => Sys2Proof.Machine.execLdp die eng d n s
  | .ldw die eng d w => Sys2Proof.Machine.execLdw die eng d w s
  | .stw die eng a w => Sys2Proof.Machine.execStw die eng a w s
  | .ldi die eng d imm => Sys2Proof.Machine.execLdi die eng d imm s
  | .ldh die eng d imm => Sys2Proof.Machine.execLdh die eng d imm s
  | .mov die eng d a => Sys2Proof.Machine.execMov die eng d a s
  | .add die eng d a b => Sys2Proof.Machine.execAdd die eng d a b s
  | .sub die eng d a b => Sys2Proof.Machine.execSub die eng d a b s
  | .mul die eng acc a b => Sys2Proof.Machine.execMul die eng acc a b s
  | .mac die eng acc a b => Sys2Proof.Machine.execMac die eng acc a b s
  | .acc die eng acc a => Sys2Proof.Machine.execAcc die eng acc a s
  | .sta die eng d acc => Sys2Proof.Machine.execSta die eng d acc s
  | .min die eng d a b => Sys2Proof.Machine.execMin die eng d a b s
  | .max die eng d a b => Sys2Proof.Machine.execMax die eng d a b s
  | .lim die eng d a w => Sys2Proof.Machine.execLim die eng d a w s
  | .shf die eng d a n => Sys2Proof.Machine.execShf die eng d a n s
  | .flt die eng d a w => Sys2Proof.Machine.execFlt die eng d a w s
  | .bqd die eng d a w => Sys2Proof.Machine.execBqd die eng d a w s
  | .pi die eng d a w => Sys2Proof.Machine.execPi die eng d a w s
  | .div die eng d a b => Sys2Proof.Machine.execDiv die eng d a b s
  | .crv die eng d a t => Sys2Proof.Machine.execCrv die eng d a t s
  | .cmp die eng a b => Sys2Proof.Machine.execCmp die eng a b s
  | .br die eng cond off => Sys2Proof.Machine.execBr die eng cond off s
  | .trm die eng => Sys2Proof.Machine.execTrm die eng s
  | .edg die eng target a => Sys2Proof.Machine.execEdg die eng target a s
  | .cmt die eng => Sys2Proof.Machine.execCmt die eng s
  | .lat die eng code => Sys2Proof.Machine.execLat die eng code s
  | .pub die eng a k => Sys2Proof.Machine.execPub die eng a k s
  | .ldg die eng d k => Sys2Proof.Machine.execLdg die eng d k s
  | .yld die eng => Sys2Proof.Machine.execYld die eng s
  | .descriptorLoad src die bytes => Sys2Proof.Machine.execDescriptorLoad src die bytes s
  | .descriptorRemove src die id => Sys2Proof.Machine.execDescriptorRemove src die id s
  | .curveTableLoad src die t bytes => Sys2Proof.Machine.execCurveTableLoad src die t bytes s
  | .samplesStale chan => Sys2Proof.Machine.execSamplesStale chan s
  | .followingError chan => Sys2Proof.Machine.execFollowingError chan s
  | .voltageLimit chan => Sys2Proof.Machine.execVoltageLimit chan s
  | .plausibilityFault chan => Sys2Proof.Machine.execPlausibilityFault chan s
  | .plausibilityUnavailable chan => Sys2Proof.Machine.execPlausibilityUnavailable chan s
  | .recipeLoad src first last bytes => Sys2Proof.Machine.execRecipeLoad src first last bytes s
  | .runStart src first last => Sys2Proof.Machine.execRunStart src first last s
  | .runStop src first last => Sys2Proof.Machine.execRunStop src first last s
  | .runContinue src first last => Sys2Proof.Machine.execRunContinue src first last s
  | .milestoneClose chan => Sys2Proof.Machine.execMilestoneClose chan s
  | .groupWaitLimit g => Sys2Proof.Machine.execGroupWaitLimit g s
  | .groupStart g => Sys2Proof.Machine.execGroupStart g s
  | .windowCrossing input limit crossed => Sys2Proof.Machine.execWindowCrossing input limit crossed s
  | .ov1Release => Sys2Proof.Machine.execOv1Release s
  | .dcovTrip k => Sys2Proof.Machine.execDcovTrip k s
  | .dcovRelease k => Sys2Proof.Machine.execDcovRelease k s
  | .crossCheckDisagreement pair => Sys2Proof.Machine.execCrossCheckDisagreement pair s
  | .hubSamplesStale slot => Sys2Proof.Machine.execHubSamplesStale slot s
  | .gridLocked => Sys2Proof.Machine.execGridLocked s
  | .gridLoss => Sys2Proof.Machine.execGridLoss s
  | .powerStart src => Sys2Proof.Machine.execPowerStart src s
  | .powerStop src => Sys2Proof.Machine.execPowerStop src s
  | .gridSyncTimeout => Sys2Proof.Machine.execGridSyncTimeout s
  | .prechargeComplete => Sys2Proof.Machine.execPrechargeComplete s
  | .prechargeTimeout => Sys2Proof.Machine.execPrechargeTimeout s
  | .mainContactorClosed => Sys2Proof.Machine.execMainContactorClosed s
  | .afeRampComplete => Sys2Proof.Machine.execAfeRampComplete s
  | .segmentBusesReady => Sys2Proof.Machine.execSegmentBusesReady s
  | .controlledStop cause => Sys2Proof.Machine.execControlledStop cause s
  | .segmentStopDelay => Sys2Proof.Machine.execSegmentStopDelay s
  | .contactorsOpen => Sys2Proof.Machine.execContactorsOpen s
  | .dcLinkUndervoltage => Sys2Proof.Machine.execDcLinkUndervoltage s
  | .vdcUpdate => Sys2Proof.Machine.execVdcUpdate s
  | .dabAtLimit site stage => Sys2Proof.Machine.execDabAtLimit site stage s
  | .dabSamplesStale site stage => Sys2Proof.Machine.execDabSamplesStale site stage s
  | .chopperOpen => Sys2Proof.Machine.execChopperOpen s
  | .chopperShort => Sys2Proof.Machine.execChopperShort s
  | .chopperOverload => Sys2Proof.Machine.execChopperOverload s
  | .dischargeNoCurrent => Sys2Proof.Machine.execDischargeNoCurrent s
  | .dischargeRelease => Sys2Proof.Machine.execDischargeRelease s
  | .dischargeExhausted => Sys2Proof.Machine.execDischargeExhausted s
  | .zeroCrossing a x => Sys2Proof.Machine.execZeroCrossing a x s
  | .commutation a => Sys2Proof.Machine.execCommutation a s
  | .listenEnd a => Sys2Proof.Machine.execListenEnd a s
  | .brakeWindow a => Sys2Proof.Machine.execBrakeWindow a s
  | .brakeFailed a => Sys2Proof.Machine.execBrakeFailed a s
  | .alignEnd a => Sys2Proof.Machine.execAlignEnd a s
  | .rampFailed a => Sys2Proof.Machine.execRampFailed a s
  | .lockedRotor a => Sys2Proof.Machine.execLockedRotor a s
  | .retryDelayEnd a => Sys2Proof.Machine.execRetryDelayEnd a s
  | .retryCountReset a => Sys2Proof.Machine.execRetryCountReset a s
  | .loadFault a => Sys2Proof.Machine.execLoadFault a s
  | .speedSetpoint src a rpm => Sys2Proof.Machine.execSpeedSetpoint src a rpm s
  | .auxSamplesStale k => Sys2Proof.Machine.execAuxSamplesStale k s
  | .targetPosition src a t => Sys2Proof.Machine.execTargetPosition src a t s
  | .stepEdge a dir => Sys2Proof.Machine.execStepEdge a dir s
  | .inputOverrun a => Sys2Proof.Machine.execInputOverrun a s
  | .limitSwitch a pos level => Sys2Proof.Machine.execLimitSwitch a pos level s
  | .holdDelay a => Sys2Proof.Machine.execHoldDelay a s
  | .referencePosition src a x => Sys2Proof.Machine.execReferencePosition src a x s
  | .sto out => Sys2Proof.Machine.execSto out s
  | .stoRelease out => Sys2Proof.Machine.execStoRelease out s
  | .ss1 out => Sys2Proof.Machine.execSs1 out s
  | .ss1Time out => Sys2Proof.Machine.execSs1Time out s
  | .supervisorCycle x => Sys2Proof.Machine.execSupervisorCycle x s
  | .inputDemand k => Sys2Proof.Machine.execInputDemand k s
  | .inputDemandEnd k => Sys2Proof.Machine.execInputDemandEnd k s
  | .safetyStopDelay => Sys2Proof.Machine.execSafetyStopDelay s
  | .contactorOpenDelay => Sys2Proof.Machine.execContactorOpenDelay s
  | .adisDelay => Sys2Proof.Machine.execAdisDelay s
  | .inputFault k => Sys2Proof.Machine.execInputFault k s
  | .testPulse stp => Sys2Proof.Machine.execTestPulse stp s
  | .discrepancyFault code => Sys2Proof.Machine.execDiscrepancyFault code s
  | .inputRecovery k => Sys2Proof.Machine.execInputRecovery k s
  | .doorLimitLatch chan => Sys2Proof.Machine.execDoorLimitLatch chan s
  | .overTemperatureCheck site codes => Sys2Proof.Machine.execOverTemperatureCheck site codes s
  | .temperaturePlausibilityCheck site => Sys2Proof.Machine.execTemperaturePlausibilityCheck site s
  | .temperaturePlausibilityFault chan => Sys2Proof.Machine.execTemperaturePlausibilityFault chan s
  | .applicationHeartbeatTimeout => Sys2Proof.Machine.execApplicationHeartbeatTimeout s
  | .safetyReset k => Sys2Proof.Machine.execSafetyReset k s
  | .resetRequest src v => Sys2Proof.Machine.execResetRequest src v s
  | .safeOutputRequest src out v => Sys2Proof.Machine.execSafeOutputRequest src out v s
  | .offPulse out => Sys2Proof.Machine.execOffPulse out s
  | .offPulseEnd out rb => Sys2Proof.Machine.execOffPulseEnd out rb s
  | .outputFault out => Sys2Proof.Machine.execOutputFault out s
  | .contactorRequest src k v => Sys2Proof.Machine.execContactorRequest src k v s
  | .contactorTimeout k => Sys2Proof.Machine.execContactorTimeout k s
  | .contactorFault k => Sys2Proof.Machine.execContactorFault k s
  | .weldedContact k => Sys2Proof.Machine.execWeldedContact k s
  | .lockstepFault => Sys2Proof.Machine.execLockstepFault s
  | .supervisorClockFault dev => Sys2Proof.Machine.execSupervisorClockFault dev s
  | .supervisorWatchdog => Sys2Proof.Machine.execSupervisorWatchdog s
  | .memoryFault => Sys2Proof.Machine.execMemoryFault s
  | .hSafeSupplyFault => Sys2Proof.Machine.execHSafeSupplyFault s
  | .unlock src pw => Sys2Proof.Machine.execUnlock src pw s
  | .passwordChange src bytes => Sys2Proof.Machine.execPasswordChange src bytes s
  | .lock src v => Sys2Proof.Machine.execLock src v s
  | .rwpWrite src index sub inst v => Sys2Proof.Machine.execRwpWrite src index sub inst v s
  | .apply src crc => Sys2Proof.Machine.execApply src crc s
  | .unlockTimeout => Sys2Proof.Machine.execUnlockTimeout s
  | .lockoutEnd => Sys2Proof.Machine.execLockoutEnd s
  | .refclkAbsent die => Sys2Proof.Machine.execRefclkAbsent die s
  | .refclkPresent die => Sys2Proof.Machine.execRefclkPresent die s
  | .xtal32Failed => Sys2Proof.Machine.execXtal32Failed s
  | .xtal32Return => Sys2Proof.Machine.execXtal32Return s
  | .lockWindow loop count => Sys2Proof.Machine.execLockWindow loop count s
  | .coastLimit loop => Sys2Proof.Machine.execCoastLimit loop s
  | .sync gm ratio port => Sys2Proof.Machine.execSync gm ratio port s
  | .syncTimeout => Sys2Proof.Machine.execSyncTimeout s
  | .ltStep => Sys2Proof.Machine.execLtStep s
  | .carrierEpoch errs => Sys2Proof.Machine.execCarrierEpoch errs s
  | .epochPeriod src n => Sys2Proof.Machine.execEpochPeriod src n s
  | .restEntry site => Sys2Proof.Machine.execRestEntry site s
  | .windowLeft chan vCode tCode => Sys2Proof.Machine.execWindowLeft chan vCode tCode s
  | .restWakeTimer site => Sys2Proof.Machine.execRestWakeTimer site s
  | .busWithinSetpoint site a b => Sys2Proof.Machine.execBusWithinSetpoint site a b s
  | .runRequest src => Sys2Proof.Machine.execRunRequest src s
  | .standbyRequest src => Sys2Proof.Machine.execStandbyRequest src s
  | .sleepRequest src => Sys2Proof.Machine.execSleepRequest src s
  | .standbyEntry => Sys2Proof.Machine.execStandbyEntry s
  | .sleepWake source => Sys2Proof.Machine.execSleepWake source s
  | .sleepWakeTimer => Sys2Proof.Machine.execSleepWakeTimer s
  | .wakeToStandby hash => Sys2Proof.Machine.execWakeToStandby hash s
  | .vioUndervoltage bank mv => Sys2Proof.Machine.execVioUndervoltage bank mv s
  | .vioRecovery bank mv => Sys2Proof.Machine.execVioRecovery bank mv s
  | .hubOverTemperature t => Sys2Proof.Machine.execHubOverTemperature t s
  | .read src span => Sys2Proof.Machine.execRead src span s
  | .write src span payload => Sys2Proof.Machine.execWrite src span payload s
  | .readRange src span => Sys2Proof.Machine.execReadRange src span s
  | .writeRange src span payload => Sys2Proof.Machine.execWriteRange src span payload s
  | .segInitWrite src span payload => Sys2Proof.Machine.execSegInitWrite src span payload s
  | .segInitRead src span payload => Sys2Proof.Machine.execSegInitRead src span payload s
  | .segDataWrite src transfer offset data => Sys2Proof.Machine.execSegDataWrite src transfer offset data s
  | .segDataRead src transfer offset payload => Sys2Proof.Machine.execSegDataRead src transfer offset payload s
  | .segEndWrite src transfer crc => Sys2Proof.Machine.execSegEndWrite src transfer crc s
  | .segEndRead src transfer => Sys2Proof.Machine.execSegEndRead src transfer s
  | .subscribe src period handle count entries => Sys2Proof.Machine.execSubscribe src period handle count entries s
  | .notify => Sys2Proof.Machine.execNotify s
  | .recordStreamPublish session handle => Sys2Proof.Machine.execRecordStreamPublish session handle s
  | .abortTransfer src transfer => Sys2Proof.Machine.execAbortTransfer src transfer s
  | .abortSession src => Sys2Proof.Machine.execAbortSession src s
  | .sessionOpenStage1 seq payload => Sys2Proof.Machine.execSessionOpenStage1 seq payload s
  | .sessionOpenStage3 session seq hostKey sig => Sys2Proof.Machine.execSessionOpenStage3 session seq hostKey sig s
  | .datagramDiscard udp => Sys2Proof.Machine.execDatagramDiscard udp s
  | .transferTimeout session transfer => Sys2Proof.Machine.execTransferTimeout session transfer s
  | .handshakeTimeout session => Sys2Proof.Machine.execHandshakeTimeout session s
  | .sessionIdleTimeout session => Sys2Proof.Machine.execSessionIdleTimeout session s
  | .keptReplyExpiry session seq => Sys2Proof.Machine.execKeptReplyExpiry session seq s
  | .store src v => Sys2Proof.Machine.execStore src v s
  | .storeComplete ok => Sys2Proof.Machine.execStoreComplete ok s
  | .restoreDefaults src v => Sys2Proof.Machine.execRestoreDefaults src v s
  | .hostKeySlot src k hash => Sys2Proof.Machine.execHostKeySlot src k hash s
  | .canMode src p v busy => Sys2Proof.Machine.execCanMode src p v busy s
  | .transmitSubmit src p bytes => Sys2Proof.Machine.execTransmitSubmit src p bytes s
  | .cancel src p h started => Sys2Proof.Machine.execCancel src p h started s
  | .cancelAll src p started => Sys2Proof.Machine.execCancelAll src p started s
  | .deadlineExpiry p h started => Sys2Proof.Machine.execDeadlineExpiry p h started s
  | .arbitrationLost p => Sys2Proof.Machine.execArbitrationLost p s
  | .frameReceived p f sofLt => Sys2Proof.Machine.execFrameReceived p f sofLt s
  | .frameSent p sofLt => Sys2Proof.Machine.execFrameSent p sofLt s
  | .busError p e code own => Sys2Proof.Machine.execBusError p e code own s
  | .busOffRecovery p n => Sys2Proof.Machine.execBusOffRecovery p n s
  | .restart src p v => Sys2Proof.Machine.execRestart src p v s
  | .ringConsumer src p v => Sys2Proof.Machine.execRingConsumer src p v s
  | .customerRootWrite src k hash => Sys2Proof.Machine.execCustomerRootWrite src k hash s
  | .customerRootRevoke src k v => Sys2Proof.Machine.execCustomerRootRevoke src k v s
  | .rollbackCommit src ty v => Sys2Proof.Machine.execRollbackCommit src ty v s
  | .preferredSlot src ty v => Sys2Proof.Machine.execPreferredSlot src ty v s
  | .loadBegin src ty total => Sys2Proof.Machine.execLoadBegin src ty total s
  | .loadPiece src offset data => Sys2Proof.Machine.execLoadPiece src offset data s
  | .loadEnd src v flashOk => Sys2Proof.Machine.execLoadEnd src v flashOk s
  | .loadAbandon => Sys2Proof.Machine.execLoadAbandon s
  | .partitionStart src => Sys2Proof.Machine.execPartitionStart src s
  | .partitionStop src => Sys2Proof.Machine.execPartitionStop src s
  | .partitionFault cause => Sys2Proof.Machine.execPartitionFault cause s
  | .apiCall span payload => Sys2Proof.Machine.execApiCall span payload s
  | .debugToken src root key sig => Sys2Proof.Machine.execDebugToken src root key sig s
  | .debugLock src v => Sys2Proof.Machine.execDebugLock src v s
  | .idcode => Sys2Proof.Machine.execIdcode s
  | .bypass => Sys2Proof.Machine.execBypass s
  | .samplePreload bits => Sys2Proof.Machine.execSamplePreload bits s
  | .extest => Sys2Proof.Machine.execExtest s
  | .attestationNonce src nonce => Sys2Proof.Machine.execAttestationNonce src nonce s
  | .attestationReport src qmReplied => Sys2Proof.Machine.execAttestationReport src qmReplied s
  | .readCursor src v => Sys2Proof.Machine.execReadCursor src v s
  | .freezeSeverity src v => Sys2Proof.Machine.execFreezeSeverity src v s
  | .unfreeze src v => Sys2Proof.Machine.execUnfreeze src v s
  | .writeZeroToClear src index sub inst v => Sys2Proof.Machine.execWriteZeroToClear src index sub inst v s
  | .channelLatchClear src first last v => Sys2Proof.Machine.execChannelLatchClear src first last v s
  | .dieClear src site v => Sys2Proof.Machine.execDieClear src site v s
  | .fltGroupClear src mask => Sys2Proof.Machine.execFltGroupClear src mask s
  | .bldcClear src a v => Sys2Proof.Machine.execBldcClear src a v s
  | .axisClear src a v => Sys2Proof.Machine.execAxisClear src a v s
  | .supervisorStart crc => Sys2Proof.Machine.execSupervisorStart crc s
  | .hubAdcConversion unit code => Sys2Proof.Machine.execHubAdcConversion unit code s
  | .dcovTestEnd k => Sys2Proof.Machine.execDcovTestEnd k s
  | .bestMasterClock gm => Sys2Proof.Machine.execBestMasterClock gm s
  | .switchForward port frame => Sys2Proof.Machine.execSwitchForward port frame s
  | .arpNdpIcmpEcho kind vlan fragment addr => Sys2Proof.Machine.execArpNdpIcmpEcho kind vlan fragment addr s
  | .unknownOpcode src op word3 word4 => Sys2Proof.Machine.execUnknownOpcode src op word3 word4 s
  | .unknownCommand cmd arg clocked => Sys2Proof.Machine.execUnknownCommand cmd arg clocked s

end Sys2Proof.Machine
end

