-- ==== Sys2Proof/Safety.lean ====
section
/-! DEFINITION. What counts as a safe state and a safe run of the QF, in the terms the statements use. -/

namespace Sys2Proof.Machine

/-- A slice's gates are safe (R49, R53): never both on, and a turn-on that waits for the dead time waits with the other
gate off. -/
def Slice.Safe (x : Slice) : Prop :=
  ¬ (x.hg = true ∧ x.lg = true) ∧
  (∀ t, x.turnOn = some (true, t) → x.lg = false) ∧ (∀ t, x.turnOn = some (false, t) → x.hg = false)

/-- Every channel's gates are safe. -/
def State.GatesSafe (s : State) : Prop := ∀ e ∈ s.chans, e.2.slice.Safe

/-- The part is one that exists (R5): two to eight dies. -/
def State.PartLegal (s : State) : Prop := 2 ≤ s.variant ∧ s.variant ≤ 8

/-- At most eight sessions are open and at most two handshakes run (R448). -/
def State.SessionsBounded (s : State) : Prop := s.net.sessions.length ≤ 8 ∧ s.net.shakes.length ≤ 2

/-- The invariant of every run. -/
def State.Inv (s : State) : Prop := s.PartLegal ∧ s.SessionsBounded ∧ s.GatesSafe

/-- Both gates of a channel are off, none waits to turn on, and its generator unit is stopped. -/
def State.Off (s : State) (c : Nat) : Prop :=
  (s.chan c).slice.hg = false ∧ (s.chan c).slice.lg = false ∧ (s.chan c).slice.turnOn = none ∧
  (s.unit (dieOf c) (localOf c)).running = false

/-- A state that a state with this one behind it may become, whatever commands come: the same part, the same commands
waiting, and the invariant's other clauses kept. -/
structure Kept (s t : State) : Prop where
  variant : t.variant = s.variant
  part : t.sealedPart = s.sealedPart
  pending : t.pending = s.pending
  sessions : s.SessionsBounded → t.SessionsBounded
  gates : s.GatesSafe → t.GatesSafe

/-! ## Parts of the state, and frames -/

/-- A part of the state: a register index with all its subindices and instances, or a field. -/
inductive Part where
  | reg (i : Nat)
  | blob (i : Nat)
  | variant
  | sealedPart
  | vsys
  | fw
  | clock
  | flash
  | flashBlobs
  | chans
  | units
  | slots
  | engines
  | dies
  | descs
  | adcs
  | wins
  | queues
  | groups
  | bldc
  | axes
  | power
  | sup
  | lockbox
  | qm
  | net
  | can
  | sec
  | trail
  | standbyDue
  | sleepLt
  | metNote
  | lastMet
  | metSilent
  | metView
  | metViewAt
  | tag
  | sleepHash
  | waking
  | resetLt
  | resetReq
  | lane
  | flight
  | part
  | banks
  | hot
  | free
  | pending
  deriving DecidableEq, Repr

/-- A register of the dictionary. -/
def Part.isObj : Part → Bool
  | .reg _ | .blob _ => true
  | _ => false

/-- A part of a state is as in another. -/
def State.Same (k : Part) (a s : State) : Prop :=
  match k with
  | .reg i => ∀ j e, s.rd i j e = a.rd i j e
  | .blob i => ∀ j e, s.rdB i j e = a.rdB i j e
  | .variant => s.variant = a.variant
  | .sealedPart => s.sealedPart = a.sealedPart
  | .vsys => s.vsys = a.vsys
  | .fw => s.fw = a.fw
  | .clock => s.clock = a.clock
  | .flash => s.flash = a.flash
  | .flashBlobs => s.flashBlobs = a.flashBlobs
  | .chans => s.chans = a.chans
  | .units => s.units = a.units
  | .slots => s.slots = a.slots
  | .engines => s.engines = a.engines
  | .dies => s.dies = a.dies
  | .descs => s.descs = a.descs
  | .adcs => s.adcs = a.adcs
  | .wins => s.wins = a.wins
  | .queues => s.queues = a.queues
  | .groups => s.groups = a.groups
  | .bldc => s.bldc = a.bldc
  | .axes => s.axes = a.axes
  | .power => s.power = a.power
  | .sup => s.sup = a.sup
  | .lockbox => s.lockbox = a.lockbox
  | .qm => s.qm = a.qm
  | .net => s.net = a.net
  | .can => s.can = a.can
  | .sec => s.sec = a.sec
  | .trail => s.trail = a.trail
  | .standbyDue => s.standbyDue = a.standbyDue
  | .sleepLt => s.sleepLt = a.sleepLt
  | .metNote => s.metNote = a.metNote
  | .lastMet => s.lastMet = a.lastMet
  | .metSilent => s.metSilent = a.metSilent
  | .metView => s.metView = a.metView
  | .metViewAt => s.metViewAt = a.metViewAt
  | .tag => s.tag = a.tag
  | .sleepHash => s.sleepHash = a.sleepHash
  | .waking => s.waking = a.waking
  | .resetLt => s.resetLt = a.resetLt
  | .resetReq => s.resetReq = a.resetReq
  | .lane => s.lane = a.lane
  | .flight => s.flight = a.flight
  | .part => s.part = a.part
  | .banks => s.banks = a.banks
  | .hot => s.hot = a.hot
  | .free => s.free = a.free
  | .pending => s.pending = a.pending

/-- Every part of the state outside a list is as before. -/
def Frame (l : List Part) (a s : State) : Prop := ∀ k, k ∉ l → State.Same k a s

/-- Every hidden part of the state (all but the registers of the dictionary) outside a list is as before: the frame of a
command that may write any object. -/
def FrameHidden (l : List Part) (a s : State) : Prop := ∀ k, k ∉ l → k.isObj = false → State.Same k a s

/-! Of a table, one entry alone may change; of a register, one instance alone. -/

def OnlyChan (c : Nat) (s t : State) : Prop := ∀ x, x ≠ c → t.chan x = s.chan x
def OnlyDie (n : Nat) (s t : State) : Prop := ∀ x, x ≠ n → t.die x = s.die x
def OnlyUnit (die k : Nat) (s t : State) : Prop := ∀ d x, 128 * d + x ≠ 128 * die + k → t.unit d x = s.unit d x
def OnlySlot (die k : Nat) (s t : State) : Prop := ∀ d x, 128 * d + x ≠ 128 * die + k → t.slot d x = s.slot d x
def OnlyEngine (die e : Nat) (s t : State) : Prop := ∀ d x, 16 * d + x ≠ 16 * die + e → t.eng d x = s.eng d x
def OnlyAdc (die u : Nat) (s t : State) : Prop := ∀ d x, 16 * d + x ≠ 16 * die + u → t.adc d x = s.adc d x
def OnlyDrive (a : Nat) (s t : State) : Prop := ∀ x, x ≠ a → t.drive x = s.drive x
def OnlyAxis (a : Nat) (s t : State) : Prop := ∀ x, x ≠ a → t.axis x = s.axis x
def OnlyPort (p : Nat) (s t : State) : Prop := ∀ x, x ≠ p → t.port x = s.port x
def OnlyInstance (i e : Nat) (s t : State) : Prop := ∀ j x, x ≠ e → t.rd i j x = s.rd i j x

/-- Of an engine, the working register d alone changes among the working registers. -/
def Engine.OnlyReg (d : Nat) (x y : Engine) : Prop := ∀ r, r ≠ d → y.reg r = x.reg r

/-- Of an engine, the local state words listed alone change among the words. -/
def Engine.OnlyWords (l : List Nat) (x y : Engine) : Prop := ∀ w, w ∉ l → y.word w = x.word w

/-- Of an engine, one accumulator alone changes of the two. -/
def Engine.OnlyAcc (k : Nat) (x y : Engine) : Prop := (k = 0 → y.acc1 = x.acc1) ∧ (k ≠ 0 → y.acc0 = x.acc0)

/-! ## Commands that are carried out -/

/-- A command answers a next state of which a property holds. -/
def Gives (c : Instr) (s : State) (p : State → Prop) : Prop := ∃ t, exec c s = .next t ∧ p t

/-- Two states differ in the network side alone. -/
def SameButNet (s t : State) : Prop := t = { s with net := t.net }

/-- The state in which a host's request is carried out: nothing handed over yet, the sender's idle time started again. -/
def State.atRequest (s : State) (src : Src) : State := s.clearOut.hear src

/-- A sender's request is executed (R395, R443): it reaches the dictionary and its SEQ is new. -/
structure State.Hears (s : State) (src : Src) : Prop where
  reached : s.clearOut.reached src = true
  served : s.clearOut.serves src = true

/-- A write of a value to an object at a list of instances passes every check of R452. -/
structure State.Accepts (s : State) (src : Src) (i j : Nat) (es : List Nat) (v : Int) (own : State → Nat → Nat) :
    Prop where
  hears : s.Hears src
  passes : (s.atRequest src).writeChecks src i j es v own = none

/-- A write of octets to an object at a list of instances passes every check of R452. -/
structure State.AcceptsBlob (s : State) (src : Src) (i j : Nat) (es : List Nat) (b : List Byte)
    (own : State → Nat → Nat) : Prop where
  hears : s.Hears src
  passes : (s.atRequest src).blobChecks src i j es b own = none

/-- A latch frame with a code arrives on a direction of a link (R31, R508): the first good copy is `w`, which names the
code, and its reserved field is 0. -/
structure State.GetsFrame (s : State) (n : Nat) (dir : Dir) (code : Nat) (a b w : Frame64) : Prop where
  link : s.linkOk n dir = true
  good : goodFrame a b = some w
  code : frameCode w = code
  clear : frameRsv w = 0

/-- A datagram without what its sealing and its frame add: the tag, the encrypted octets, the fields of the VLAN tag (R425,
R449). -/
def Sent.plain (d : Sent) : Sent := { d with enc := false, body := [], tag := [], pcp := 0, vlan := 0 }

/-- One datagram is handed over, with this header and payload. -/
def State.Sends (t : State) (d : Sent) : Prop := t.net.out.map Sent.plain = [d]

/-- A channel is latched, and by a cause (0x6010 subs 1 and 2). -/
def State.LatchedBy (s : State) (c cause : Nat) : Prop := s.latched c = true ∧ s.rd 0x6010 2 c = cause

/-- A controlled stop with a cause: where the DC link was in a state 1 to 5, it is in STOP and shows the cause (R287). -/
def StopsWith (cause : Nat) (s t : State) : Prop :=
  1 ≤ s.linkState → s.linkState ≤ 5 → t.linkState = 6 ∧ t.rd 0x3050 3 dev = cause

/-- The supervisor is in the safe state for a fault code: the state, the code, hold 6, every safe output off and every
contactor open (R325, R367). -/
structure State.InSafeState (s : State) (code : Nat) : Prop where
  state : s.rd 0x4000 1 dev = 2
  fault : s.rd 0x4000 5 dev = code
  hold : bit (s.rdN 0x4000 2 dev) 6 = true
  outputs : ∀ n ∈ [0, 1, 2, 3], (s.sout n).on = false
  contactors : ∀ k ∈ [0, 1, 2, 3], (s.kdrv k).close = false

/-- An engine executes a micro-op of its job: the descriptor's word that the job comes to spells it, and its cycles stay
within W (R115, R116, R124). -/
structure State.Computes (s : State) (die e : Nat) (i : Instr) (j : RunJob) (w : Word) : Prop where
  here : s.fetched die e = some (j, w)
  spells : microOf die e w = i
  within : (s.eng die e).cycles + opCycles (opOf w) ≤ (s.desc die j.desc).w

end Sys2Proof.Machine
end

