-- ==== Sys2Proof/Certificates/Slice0/Obligations.lean ====
section
/-! DEFINITION. What is stated for the provers. A clause `Gives c s p` says that the command c is carried out in the
state s: exec answers a next state of which p holds. `Frame l s t` says that every part of the state but those of l is
in t as it was in s. -/

open Sys2Proof Sys2Proof.Machine

/-- A step runs the command at the front of the queue on the state with the rest; with no command waiting, one count
of time passes. The queue and the count are the model's (log 3). -/
def Obligations.StepRunsTheFrontCommand : Prop :=
  (∀ (c : Instr) (rest : List Instr) (s : State),
    step { s with pending := c :: rest } = exec c { s with pending := rest }) ∧
  ∀ s : State, s.pending = [] → step s = .next s.tick

/-- Power-on reset (R395, R412): nothing runs, line time is 0, the trail is empty, and the registers of each group
read the defaults of the dictionary. -/
def Obligations.ResetValues : Prop :=
  State.reset.vsys = false ∧ State.reset.fw = false ∧ State.reset.clock.lt = 0 ∧ State.reset.trail.entries = [] ∧
  State.reset.pending = [] ∧ State.reset.lane = [] ∧ State.reset.net.sessions = [] ∧
  State.reset.rd 0x1101 1 dev = 10 ∧ State.reset.rd 0x1302 0 dev = 60 ∧ (∀ c < 0x180, State.reset.rd 0x4032 0 c = 60000) ∧
  (∀ n, 1 ≤ n → n ≤ 6 → State.reset.rd 0x2800 1 (siteI n) = 8) ∧ State.reset.rd 0x3060 1 dev = 760 ∧
  State.reset.rd 0x4017 0 dev = 2000 ∧ State.reset.rd 0x6000 5 dev = 255 ∧ State.reset.rd 0x5421 0 dev = 1 ∧
  State.reset.rd 0x1401 1 dev = 1 ∧ State.reset.rd 0x7040 4 dev = 0

/-- The state after power-on reset meets the invariant of every run (R5, R448, R49, R53). -/
def Obligations.ResetMeetsTheInvariant : Prop :=
  State.reset.Inv

/-- Whatever command comes, and when none waits, a step keeps the invariant: a legal part (R5), bounded sessions and
handshakes (R448), and on every channel never both gates on and the dead time kept (R49, R53). -/
def Obligations.EveryStepKeepsTheInvariant : Prop :=
  ∀ s t : State, s.Inv → step s = .next t → t.Inv

/-- The suffix is fixed at manufacture (R8): every step leaves it as it was. -/
def Obligations.TheSuffixNeverChanges : Prop :=
  ∀ s t : State, step s = .next t → t.sealedPart = s.sealedPart

/-- On an S part the seal state is SEALED or ADJUSTMENT after every step from such a state (R6, R239). -/
def Obligations.AnSPartIsSealedOrAdjusted : Prop :=
  ∀ s t : State, s.sealedPart = true → 1 ≤ s.qm.sealSt → s.qm.sealSt ≤ 2 → step s = .next t →
    1 ≤ t.qm.sealSt ∧ t.qm.sealSt ≤ 2

/-- The resets that a request asks for (R411) are carried out within its command: none waits afterwards. Carrying them
out within the command is the model's reading (log 29). -/
def Obligations.NoResetRequestWaits : Prop :=
  ∀ s t : State, s.resetReq = {} → step s = .next t → t.resetReq = {}

/-- A QFn carries channel dies at sites 1 to n − 2 and nowhere else, with no gap (R2). -/
def Obligations.PopulatedSites : Prop :=
  ∀ s : State, (∀ n, s.sitePop n = true ↔ 1 ≤ n ∧ n ≤ s.variant - 2) ∧
    ∀ m n, 1 ≤ m → m < n → s.sitePop n = true → s.sitePop m = true

/-- The global channel number (R13), and the site and local channel read back from it. -/
def Obligations.GlobalChannelNumbers : Prop :=
  ∀ site loc : Nat, 1 ≤ site → site ≤ 6 → loc < 64 →
    chanOf site loc = 64 * (site - 1) + loc ∧ dieOf (chanOf site loc) = site ∧ localOf (chanOf site loc) = loc

/-- The ring of a CAN port (R465): an entry is stored at the producer's place, and carries GAP after a drop; when the
ring is full it is dropped and counted; no unread entry changes. -/
def Obligations.TheCanRingNeverOverwrites : Prop :=
  ∀ (p : Nat) (e : RingEntry) (s : State),
    (∀ k < (s.rdN 0x1418 (p + 1) dev + 65536 - s.rdN 0x1419 (p + 1) dev) % 65536,
      (s.rdN 0x1418 (p + 1) dev + 65536 - s.rdN 0x1419 (p + 1) dev) % 65536 ≤ 4096 →
      lookup? ((s.rdN 0x1419 (p + 1) dev + k) % 4096) ((s.ringPut p e).port p).ring =
        lookup? ((s.rdN 0x1419 (p + 1) dev + k) % 4096) (s.port p).ring) ∧
    ((s.rdN 0x1418 (p + 1) dev + 65536 - s.rdN 0x1419 (p + 1) dev) % 65536 = 4096 →
      ((s.ringPut p e).port p).ring = (s.port p).ring ∧ ((s.ringPut p e).port p).gap = true ∧
      (s.ringPut p e).rd 0x141B (p + 1) dev = (s.rd 0x141B (p + 1) dev + 1) % 2 ^ 32 ∧
      (s.ringPut p e).rd 0x1418 (p + 1) dev = s.rd 0x1418 (p + 1) dev) ∧
    ((s.rdN 0x1418 (p + 1) dev + 65536 - s.rdN 0x1419 (p + 1) dev) % 65536 ≠ 4096 →
      lookup? (s.rdN 0x1418 (p + 1) dev % 4096) ((s.ringPut p e).port p).ring = some { e with gap := (s.port p).gap } ∧
      ((s.ringPut p e).port p).gap = false ∧ (s.ringPut p e).rd 0x1418 (p + 1) dev = (s.rd 0x1418 (p + 1) dev + 1) % 65536)

/-- Whatever the command and the state, exec answers a next state: none ends in a fault or a refusal. A request that
is refused is answered (R444, R452); an event that cannot happen changes nothing (log 4). -/
def Obligations.EveryCommandAnswersANextState : Prop :=
  ∀ (c : Instr) (s : State), ∃ t : State, exec c s = .next t

/-- VSYS, VMET and the resets of the whole device (R395, R529, R201, R531, R226, R410, R411, R412). Derived from these
rules: each clause says when its command is carried out, the state it then answers, and the parts of the state outside
which nothing changes. Some clauses rest on readings or choices of the model: log 29 (a reset is carried out within
its command), 100 (what the QM loses). A reset, a start or a plain write may set any register, so a FrameHidden clause
frames the rest of the state. -/
def Obligations.PowerOnAndWholeDeviceResets : Prop :=
  (∀ (mv : List Nat) (s : State), s.vsys = false → Gives (.vsysValid mv) s fun t =>
    (t.vsys = true ∧ t.fw = false ∧ t.lt = 0 ∧ t.rd 0x1200 1 dev = 5 ∧ t.chans = [] ∧ t.units = []) ∧ FrameHidden [.vsys,
      .fw, .clock, .chans, .units, .slots, .engines, .dies, .descs, .adcs, .wins, .queues, .groups, .bldc, .axes, .power,
      .sup, .lockbox, .net, .can, .sec, .trail, .standbyDue, .sleepLt, .metNote, .lastMet, .metSilent, .metView,
      .metViewAt, .tag, .sleepHash, .waking, .resetLt, .resetReq, .lane, .flight, .banks, .hot, .free] s t) ∧
  (∀ (s : State), s.vsys = true → Gives .vsysInvalid s fun t =>
    (t.vsys = false ∧ t.fw = false ∧ t.lt = 0 ∧ t.chans = [] ∧ t.dies = [] ∧ t.trail = {}) ∧ FrameHidden [.vsys, .fw,
      .clock, .chans, .units, .slots, .engines, .dies, .descs, .adcs, .wins, .queues, .groups, .bldc, .axes, .power,
      .sup, .lockbox, .net, .can, .sec, .trail, .standbyDue, .sleepLt, .metNote, .lastMet, .metSilent, .metView,
      .metViewAt, .tag, .sleepHash, .waking, .resetLt, .resetReq, .lane, .flight, .banks, .hot] s t) ∧
  (∀ (v : Nat) (s : State), s.qm.powered = false → Gives (.vmetPowerOn v) s fun t =>
    (t.qm.powered = true ∧ t.qm.booted = false ∧ t.qm.sites = 0 ∧ t.qm.mask = 0 ∧ t.qm.vioM = decide (bankClass v ≠ 0)) ∧
      Frame [.reg 0x1220, .reg 0x6000, .dies, .qm, .trail] s t) ∧
  (∀ (s : State), s.qm.powered = true → Gives .vmetLoss s fun t =>
    (t.qm.powered = false ∧ t.qm.booted = false ∧ t.qm.sites = 0 ∧ t.qm.leavePower = decide (s.qm.sealSt = 2)) ∧
      Frame [.reg 0x1220, .reg 0x6000, .dies, .qm, .trail] s t) ∧
  (∀ (s : State), s.qmUp = true → Gives .qmWatchdogExpiry s fun t =>
    (t.qm.powered = true ∧ t.qm.booted = false ∧ t.qm.sites = 0 ∧ t.qm.mask = 0 ∧ t.qm.port = none) ∧ Frame [.qm] s t) ∧
  (∀ (s : State), s.qm.powered = true → s.qm.booted = false → Gives .qmBoot s fun t => (t.qmUp = true) ∧ Frame [.qm, .free] s t) ∧
  (∀ (n : Nat) (framed : Bool) (s : State), s.qmUp = true → 1 ≤ n → n ≤ 6 → bit s.qm.sites n = false →
    (∀ t, lookup? n s.qm.probes = some t → t + 1000000000 ≤ s.mclkNow) → Gives (.siteFramingProbe n framed) s fun t =>
    (bit t.qm.sites n = (framed && s.sitePop n) ∧ lookup? n t.qm.probes = some s.mclkNow) ∧ Frame [.qm] s t) ∧
  (∀ (lowNs : Nat) (s : State), s.vsys = true → 1000 ≤ lowNs → Gives (.resetN lowNs) s fun t =>
    (t.fw = false ∧ t.vsys = true ∧ t.rd 0x1200 1 dev = 5 ∧ t.rd 0x1202 2 dev = 1) ∧ FrameHidden [.vsys, .fw, .clock,
      .chans, .units, .slots, .engines, .dies, .descs, .adcs, .wins, .queues, .groups, .bldc, .axes, .power, .sup,
      .lockbox, .net, .can, .sec, .trail, .standbyDue, .sleepLt, .metNote, .lastMet, .metSilent, .metView, .metViewAt,
      .tag, .sleepHash, .waking, .resetLt, .resetReq, .lane, .flight, .hot, .free] s t) ∧
  (∀ (s : State), s.vsys = true → Gives .hubWatchdog s fun t =>
    (t.fw = false ∧ t.vsys = true ∧ t.rd 0x1200 1 dev = 5 ∧ t.rd 0x1202 2 dev = 3) ∧ FrameHidden [.vsys, .fw, .clock,
      .chans, .units, .slots, .engines, .dies, .descs, .adcs, .wins, .queues, .groups, .bldc, .axes, .power, .sup,
      .lockbox, .net, .can, .sec, .trail, .standbyDue, .sleepLt, .metNote, .lastMet, .metSilent, .metView, .metViewAt,
      .tag, .sleepHash, .waking, .resetLt, .resetReq, .lane, .flight, .hot, .free] s t) ∧
  (∀ (src : Src) (v : Nat) (s : State), s.Accepts src 0x1203 1 [dev] v (fun _ _ => aDone) → Gives (.warmReset src v) s fun t =>
    (t.fw = false ∧ t.vsys = true ∧ t.rd 0x1200 1 dev = 5 ∧ t.rd 0x1202 2 dev = 2 ∧ t.resetReq = {}) ∧
      FrameHidden [.vsys, .fw, .clock, .chans, .units, .slots, .engines, .dies, .descs, .adcs, .wins, .queues, .groups,
      .bldc, .axes, .power, .sup, .lockbox, .net, .can, .sec, .trail, .standbyDue, .sleepLt, .metNote, .lastMet,
      .metSilent, .metView, .metViewAt, .tag, .sleepHash, .waking, .resetLt, .resetReq, .lane, .flight, .hot, .free] s t)

/-- Site and engine resets, the recipe scrub and the start of firmware and dies (R412, R413, R414, R478, R395, R396,
R398). Derived from these rules: each clause says when its command is carried out, the state it then answers, and the
parts of the state outside which nothing changes. Some clauses rest on readings or choices of the model: log 29 (a
reset is carried out within its command), 69 (unpopulated bits), 65 and 73 (start of the firmware). A reset, a start
or a plain write may set any register, so a FrameHidden clause frames the rest of the state. -/
def Obligations.SiteResetsAndStart : Prop :=
  (∀ (src : Src) (mask : Nat) (s : State), s.Accepts src 0x1203 2 [dev] mask (siteResetCheck mask) → s.resetReq = {} →
    Gives (.siteReset src mask) s fun t =>
    (t.resetReq = {} ∧ ∀ n, n ≤ 6 → s.sitePop n = true → bit mask n = true → (t.die n).markRst = true) ∧
      FrameHidden [.vsys, .fw, .clock, .chans, .units, .slots, .engines, .dies, .descs, .adcs, .wins, .queues, .groups,
      .bldc, .axes, .power, .sup, .lockbox, .net, .can, .sec, .trail, .standbyDue, .sleepLt, .metNote, .lastMet,
      .metSilent, .metView, .metViewAt, .tag, .sleepHash, .waking, .resetLt, .resetReq, .lane, .flight, .hot, .free] s t) ∧
  (∀ (src : Src) (mask : Nat) (s : State), s.Accepts src 0x1203 3 [dev] mask (fun _ _ => aDone) → s.resetReq = {} →
    Gives (.engineReset src mask) s fun t =>
    (t.resetReq = {} ∧ ∀ d e, d ≤ 6 → e < 16 → (d = 0 ∨ s.sitePop d = true) → bit mask d = true → t.eng d e = {}) ∧
      FrameHidden [.vsys, .fw, .clock, .chans, .units, .slots, .engines, .dies, .descs, .adcs, .wins, .queues, .groups,
      .bldc, .axes, .power, .sup, .lockbox, .net, .can, .sec, .trail, .standbyDue, .sleepLt, .metNote, .lastMet,
      .metSilent, .metView, .metViewAt, .tag, .sleepHash, .waking, .resetLt, .resetReq, .lane, .flight, .hot, .free] s t) ∧
  (∀ (n : Nat) (bad : List (Nat × Nat)) (s : State), s.vsys = true → s.sitePop n = true → (s.die n).scrub = true →
    Gives (.recipeScrub n bad) s fun t =>
    ((t.die n).scrub = false ∧
      ∀ k r j, (k, r) ∈ bad → k < 64 → r < 1024 → j < 12 → t.rd (0x2000 + r) (j + 1) (chanOf n k) = 0) ∧
      FrameHidden [.dies, .trail] s t) ∧
  (∀ (s : State), s.vsys = true → s.fw = false → s.sec.booted = false → s.sec.dead = false →
    s.bootCheck (s.slotBytes (slotNo 1 (s.preferred 1))) = 0 → Gives .bootRomCheck s fun t =>
    (t.sec.booted = true ∧ t.sec.runSlot = s.sec.runSlot.set 0 (s.preferred 1)) ∧ Frame [.reg 0x7034, .reg 0x7035, .sec] s t) ∧
  (∀ (s : State), s.vsys = true → s.fw = false → s.sec.booted = true →
    payloadOk (s.slotBytes (slotNo 1 (s.sec.runSlot.getD 0 0))) = true → Gives .residentFirmwareStart s fun t =>
    (t.fw = true ∧ t.sec.fallback = false ∧ t.rd 0x7060 4 dev = b2i !s.sealedPart) ∧ FrameHidden [.fw, .units, .slots,
      .dies, .net, .can, .sec, .trail, .metNote, .lastMet, .lane, .flight] s t) ∧
  (∀ (n : Nat) (s : State), s.fw = true → s.sitePop n = true → s.rd 0x1200 1 (siteI n) = 5 → (s.die n).trained = false →
    Gives (.hingeCTraining n true) s fun t =>
    ((t.die n).trained = true ∧ (t.die n).attempts = (s.die n).attempts + 1 ∧
      t.rd 0x1202 1 dev = max (s.rd 0x1202 1 dev) 3) ∧ Frame [.reg 0x1200, .reg 0x1202, .reg 0x6000, .reg 0x7032,
      .reg 0x7050, .blob 0x7033, .dies, .sec, .trail] s t) ∧
  (∀ (n : Nat) (s : State), s.fw = true → s.sitePop n = true → s.rd 0x1200 1 (siteI n) = 5 → (s.die n).trained = false →
    2 ≤ (s.die n).attempts → Gives (.hingeCTraining n false) s fun t =>
    ((t.die n).trained = false ∧ (t.die n).attempts = (s.die n).attempts + 1 ∧ t.rd 0x1200 1 (siteI n) = 6) ∧
      Frame [.reg 0x1200, .reg 0x1202, .reg 0x6000, .reg 0x7032, .reg 0x7050, .blob 0x7033, .dies, .sec, .trail] s t) ∧
  (∀ (n : Nat) (s : State), s.fw = true → s.sitePop n = true → s.rd 0x1200 1 (siteI n) = 5 → (s.die n).trained = true →
    (s.die n).loop.state = 2 → Gives (.qcfwCheck n) s fun t =>
    (t.rd 0x1200 1 (siteI n) =
      if s.imageCheck 2 [dieStep n] (s.slotBytes (slotNo 2 (s.sec.runSlot.getD 1 0))) = 0 then 1 else 6) ∧
      FrameHidden [.units, .slots, .dies, .sec, .trail] s t) ∧
  (∀ (n : Nat) (s : State), s.armable n = true → s.supRuns = true → s.rd 0x2800 4 (siteI n) = 0 → (s.die n).echoAt = none →
    Gives (.driverArming n) s fun t =>
    ((t.die n).echoAt = some (s.lt + 50000) ∧ (t.die n).tested = false ∧ (t.die n).arming = true) ∧ Frame [.dies, .trail] s t)

/-- Hinge-C replay, heartbeats, site loss and recovery, metrology link and streams (R363, R27, R28, R30, R509, R512,
R511, R513, R514, R35). Derived from these rules: each clause says when its command is carried out, the state it then
answers, and the parts of the state outside which nothing changes. Some clauses rest on readings or choices of the
model: log 76 (when a replay has succeeded), 71 (which dies are tested), 88 (metrology link state). A reset, a start
or a plain write may set any register, so a FrameHidden clause frames the rest of the state. -/
def Obligations.LinkSupervision : Prop :=
  (∀ (n e : Nat) (s : State), (s.die n).echoAt = some e → e ≤ s.lt → Gives (.echoTimeout n) s fun t =>
    (t.power.testFailed = true ∧ t.power.testing = none ∧ bit (t.rdN 0x4000 2 dev) 8 = true) ∧ Frame [.reg 0x3050,
      .reg 0x4000, .reg 0x6000, .dies, .power, .trail] s t) ∧
  (∀ (n : Nat) (dir : Dir) (later : List FlitKind) (line : List Flit) (s : State), s.linkOk n dir = true →
    ((s.die n).link dir).resend ++ (leave later ((s.die n).link dir).queue).1 = line → line ≠ [] → line.length ≤ 64 →
    ((s.die n).link dir).replay.retries < 3 → Gives (.hingeCReplay n dir 0 later) s fun t =>
    (((t.die n).link dir).resend = line ∧ ((t.die n).link dir).queue = (leave later ((s.die n).link dir).queue).2 ∧
      ((t.die n).link dir).replay.retries = ((s.die n).link dir).replay.retries + 1) ∧ Frame [.reg 0x6000, .dies, .trail] s t) ∧
  (∀ (n good : Nat) (dir : Dir) (later : List FlitKind) (line : List Flit) (s : State), s.linkOk n dir = true →
    ((s.die n).link dir).resend ++ (leave later ((s.die n).link dir).queue).1 = line → 0 < good → good < line.length →
    line.length ≤ good + 64 → Gives (.hingeCReplay n dir good later) s fun t =>
    (((t.die n).link dir).resend = line.drop good ∧ ((t.die n).link dir).replay.retries = 1) ∧ Frame [.reg 0x6000, .dies,
      .trail] s t) ∧
  (∀ (n : Nat) (dir : Dir) (s : State), s.linkOk n dir = true →
    (((s.die n).link dir).replay.retries = 3 ∨ ((s.die n).link dir).again.retries = 3) →
      Gives (.hingeCLinkFailed n dir) s fun t =>
    (((t.die n).link dir).failed = true ∧ (s.losable n = true → t.rd 0x1200 1 (siteI n) = 7 ∧
      (t.die n).markLost = true)) ∧ Frame [.reg 0x1200, .reg 0x3104, .reg 0x6000, .reg 0x6021, .chans, .dies, .trail,
      .lane, .flight] s t) ∧
  (∀ (n : Nat) (dir : Dir) (s : State), s.linkOk n dir = true → Gives (.latchFrameSend n dir) s fun t =>
    ((t.die n).link dir = ((s.die n).link dir).send) ∧ Frame [.dies] s t) ∧
  (∀ (n : Nat) (dir : Dir) (s : State), s.linkOk n dir = true → s.beatLate n = false → Gives (.heartbeat n dir) s fun t =>
    (((t.die n).link dir).replay.retries = 0 ∧ (dir = .toHub → (t.die n).hbHub = s.clock.cnt) ∧
      (dir = .toDie → (t.die n).hbDie = s.clock.cnt)) ∧ Frame [.reg 0x6000, .dies, .trail] s t) ∧
  (∀ (n : Nat) (s : State), s.linkUp n = true → s.beatLate n = true → Gives (.heartbeatTimeout n) s fun t =>
    (t.rd 0x1200 1 (siteI n) = 7 ∧ (t.die n).markLost = true ∧ (t.die n).up.replay.retries = 0 ∧
      (t.die n).down.replay.retries = 0) ∧ Frame [.reg 0x1200, .reg 0x3104, .reg 0x6000, .reg 0x6021, .chans, .dies,
      .trail, .lane, .flight] s t) ∧
  (∀ (n : Nat) (core : Bool) (s : State), s.linkUp n = true → (s.losable n = true ∨ s.rd 0x1200 1 (siteI n) = 7) →
    (s.die n).wdog = false → (s.die n).halted = false → (core = true ∨ (s.die n).hbDie + 32000 ≤ s.clock.cnt) →
    Gives (.dieWatchdog n core) s fun t => ((t.die n).wdog = true ∧ ∀ c ∈ siteChans n, t.latched c = true) ∧
      Frame [.reg 0x2402, .reg 0x2444, .reg 0x3101, .reg 0x6000, .reg 0x6010, .reg 0x6012, .chans, .units, .slots,
      .engines, .dies, .trail, .lane, .flight] s t) ∧
  (∀ (n r : Nat) (s : State), s.fw = true → s.sitePop n = true → n ≤ 6 → s.rd 0x1200 1 (siteI n) = 7 → s.rd 0x6020 1 dev = 1 →
    (s.die n).recoverAt = some r → r ≤ s.lt → Gives (.siteRecovery n) s fun t =>
    ((t.die n).markRst = true ∧ t.rd 0x1202 4 dev = s.lt) ∧ FrameHidden [.chans, .units, .slots, .engines, .dies, .descs,
      .adcs, .trail, .lane, .flight] s t) ∧
  (∀ (s : State), s.fw = true → s.rd 0x1202 5 dev = 1 → s.lastMet + 500000000 ≤ s.lt → Gives .metrologyLinkSilent s fun t =>
    (t.rd 0x1202 5 dev = 0 ∧ t.metSilent = true) ∧ Frame [.reg 0x1202, .reg 0x6000, .dies, .trail, .metSilent] s t) ∧
  (∀ (n : Nat) (s : State), s.qmUp = true → s.framed n = true → Gives (.streamLoss n) s fun t =>
    (bit t.qm.lost n = true) ∧ Frame [.qm, .free] s t) ∧
  (∀ (n : Nat) (s : State), s.qmUp = true → bit s.qm.sites n = true → bit s.qm.lost n = true →
      Gives (.streamReturn n) s fun t =>
    (bit t.qm.lost n = false) ∧ Frame [.qm] s t)

/-- Latch frames that the hub sends to a die: sources, tag 7 and the door bit (R508, R155, R154, R346). Derived from
these rules: each clause says when its command is carried out, the state it then answers, and the parts of the state
outside which nothing changes. Some clauses rest on readings or choices of the model: log 152 (the two copies of a
frame). -/
def Obligations.HubLatchFrames : Prop :=
  (∀ (n : Nat) (a b w : Frame64) (s : State), s.GetsFrame n .toDie 0x01 a b w → Gives (.dcovComparator n a b) s fun t =>
    (bit (t.rdN 0x2803 9 (siteI n)) 5 = true ∧
      ∀ c ∈ s.maskChans n (s.rdN 0x2803 6 (siteI n)), t.latched c = true) ∧ Frame [.reg 0x1200, .reg 0x1210, .reg 0x2402,
      .reg 0x2444, .reg 0x2803, .reg 0x2810, .reg 0x3101, .reg 0x6000, .reg 0x6010, .reg 0x6012, .chans, .units, .slots,
      .engines, .dies, .trail, .lane, .flight] s t) ∧
  (∀ (n : Nat) (a b w : Frame64) (s : State), s.GetsFrame n .toDie 0x02 a b w → Gives (.dcLinkAboveOv2 n a b) s fun t =>
    (bit (t.rdN 0x2803 9 (siteI n)) 4 = true ∧
      ∀ c ∈ s.maskChans n (s.rdN 0x2803 5 (siteI n)), t.latched c = true) ∧ Frame [.reg 0x1200, .reg 0x1210, .reg 0x2402,
      .reg 0x2444, .reg 0x2803, .reg 0x2810, .reg 0x3101, .reg 0x6000, .reg 0x6010, .reg 0x6012, .chans, .units, .slots,
      .engines, .dies, .trail, .lane, .flight] s t) ∧
  (∀ (n : Nat) (a b w : Frame64) (s : State), s.GetsFrame n .toDie 0x03 a b w → Gives (.safetyStop n a b) s fun t =>
    (bit (t.rdN 0x2803 9 (siteI n)) 7 = true ∧
      ∀ c ∈ s.maskChans n (s.rdN 0x2803 8 (siteI n)), t.latched c = true) ∧ Frame [.reg 0x1200, .reg 0x1210, .reg 0x2402,
      .reg 0x2444, .reg 0x2803, .reg 0x2810, .reg 0x3101, .reg 0x6000, .reg 0x6010, .reg 0x6012, .chans, .units, .slots,
      .engines, .dies, .trail, .lane, .flight] s t) ∧
  (∀ (n : Nat) (a b w : Frame64) (s : State), s.GetsFrame n .toDie 0x04 a b w → Gives (.segmentStop n a b) s fun t =>
    (bit (t.rdN 0x2803 9 (siteI n)) 6 = true ∧
      ∀ c ∈ s.maskChans n (s.rdN 0x2803 7 (siteI n)), t.latched c = true) ∧ Frame [.reg 0x1200, .reg 0x1210, .reg 0x2402,
      .reg 0x2444, .reg 0x2803, .reg 0x2810, .reg 0x3101, .reg 0x6000, .reg 0x6010, .reg 0x6012, .chans, .units, .slots,
      .engines, .dies, .trail, .lane, .flight] s t) ∧
  (∀ (n : Nat) (a b w : Frame64) (s : State), s.GetsFrame n .toDie 0x05 a b w → Gives (.segmentStopRequest n a b) s fun t =>
    (bit (t.die n).tag7.toNat 1 = true ∧ (s.rd 0x1200 1 (siteI n) = 2 → t.rd 0x1200 1 (siteI n) = 1)) ∧
      Frame [.reg 0x1200, .reg 0x1210, .reg 0x3101, .reg 0x6000, .units, .dies, .trail] s t) ∧
  (∀ (n : Nat) (a b w : Frame64) (s : State), s.GetsFrame n .toDie 0x06 a b w → Gives (.regenerationInhibit n a b) s fun t =>
    (bit (t.die n).tag7.toNat 0 = true ∧ (s.rd 0x1200 1 (siteI n) = 2 → t.rd 0x1200 1 (siteI n) = 1)) ∧
      Frame [.reg 0x1200, .reg 0x1210, .reg 0x3101, .reg 0x6000, .units, .dies, .trail] s t) ∧
  (∀ (n : Nat) (a b w : Frame64) (s : State), s.GetsFrame n .toDie 0x07 a b w → Gives (.doorLimit n a b) s fun t =>
    ((t.die n).door = true ∧ (s.rd 0x1200 1 (siteI n) = 2 → t.rd 0x1200 1 (siteI n) = 1)) ∧ Frame [.reg 0x1200,
      .reg 0x1210, .reg 0x3101, .reg 0x6000, .units, .dies, .trail] s t) ∧
  (∀ (n : Nat) (a b w : Frame64) (s : State), s.GetsFrame n .toDie 0x08 a b w → Gives (.regenerationRelease n a b) s fun t =>
    (bit (t.die n).tag7.toNat 0 = false ∧ (s.rd 0x1200 1 (siteI n) = 2 → t.rd 0x1200 1 (siteI n) = 1)) ∧
      Frame [.reg 0x1200, .reg 0x1210, .reg 0x3101, .reg 0x6000, .units, .dies, .trail] s t)

/-- Release frames, the path test, and latch frames from a die (R346, R508, R363, R288, R350, R292). Derived from
these rules: each clause says when its command is carried out, the state it then answers, and the parts of the state
outside which nothing changes. -/
def Obligations.ReleaseAndDieLatchFrames : Prop :=
  (∀ (n : Nat) (a b w : Frame64) (s : State), s.GetsFrame n .toDie 0x09 a b w → Gives (.doorRelease n a b) s fun t =>
    ((t.die n).door = false ∧ ∀ c ∈ siteChans n, (t.chan c).sup.door = none) ∧ Frame [.reg 0x1200, .reg 0x1210,
      .reg 0x3101, .reg 0x6000, .chans, .units, .dies, .trail] s t) ∧
  (∀ (n : Nat) (a b w : Frame64) (s : State), s.GetsFrame n .toDie 0x0A a b w → Gives (.runRelease n a b) s fun t =>
    (bit (t.die n).tag7.toNat 0 = false ∧ bit (t.die n).tag7.toNat 1 = false ∧
      ∀ k ∈ [4, 5, 6, 7], bit (t.rdN 0x2803 9 (siteI n)) k = false) ∧ Frame [.reg 0x1200, .reg 0x1210, .reg 0x2803,
      .reg 0x3101, .reg 0x6000, .units, .dies, .trail] s t) ∧
  (∀ (n : Nat) (a b w : Frame64) (s : State), s.GetsFrame n .toDie 0x0B a b w →
    ((s.die n).link .toHub).others.length < 8 → Gives (.test n a b) s fun t =>
    (⟨0x2B, 127, frameCorr w, s.clock.cnt⟩ ∈ ((t.die n).link .toHub).pending) ∧ Frame [.reg 0x1200, .reg 0x1210,
      .reg 0x3101, .reg 0x6000, .units, .dies, .trail] s t) ∧
  (∀ (n : Nat) (a b w : Frame64) (e : Nat) (s : State), s.GetsFrame n .toHub 0x2B a b w → (s.die n).echoAt = some e → s.lt < e →
    Gives (.testEcho n a b) s fun t =>
    ((t.die n).echoAt = none ∧ (t.die n).tested = true ∧ (s.armable n = true → t.rd 0x2800 4 (siteI n) = 1)) ∧
      Frame [.reg 0x1202, .reg 0x2800, .reg 0x4000, .reg 0x6000, .reg 0x7032, .reg 0x7050, .blob 0x7033, .dies, .sec,
      .trail] s t) ∧
  (∀ (n : Nat) (a b w : Frame64) (s : State), s.GetsFrame n .toHub 0x20 a b w → Gives (.segmentBusFault n a b) s fun t =>
    ((t.die n).markBus = true ∧ bit (t.rdN 0x3104 0 (siteI n)) 1 = true) ∧ Frame [.reg 0x3104, .reg 0x6000, .dies,
      .trail] s t) ∧
  (∀ (n : Nat) (a b w : Frame64) (s : State), s.GetsFrame n .toHub 0x21 a b w → Gives (.overTemperature n a b) s fun t =>
    (t.sup.thermal.head? = some s.lt ∧ ∀ x ∈ t.sup.thermal, s.lt ≤ x + s.rdN 0x4035 2 dev * 1000000000) ∧
      Frame [.reg 0x3050, .reg 0x341A, .reg 0x344E, .reg 0x344F, .reg 0x3450, .reg 0x4000, .reg 0x4010, .reg 0x4014,
      .reg 0x4021, .reg 0x4023, .reg 0x6000, .units, .dies, .bldc, .axes, .power, .sup, .trail] s t) ∧
  (∀ (n : Nat) (a b w : Frame64) (s : State), s.GetsFrame n .toHub 0x22 a b w → Gives (.clockLost n a b) s fun t =>
    ((t.die n).markClk = true ∧ bit (t.rdN 0x3104 0 (siteI n)) 1 = true) ∧ Frame [.reg 0x3104, .reg 0x6000, .dies,
      .trail] s t) ∧
  (∀ (n : Nat) (a b w : Frame64) (s : State), s.GetsFrame n .toHub 0x23 a b w → Gives (.dabStageLatched n a b) s fun t =>
    (bit (t.rdN 0x3104 0 (siteI n)) 0 = true) ∧ Frame [.reg 0x3104, .reg 0x6000, .dies, .trail] s t)

/-- Trail entries, the freeze, and the requests of the mailbox (R498, R502, R397, R207, R208, R232, R215, R241).
Derived from these rules: each clause says when its command is carried out, the state it then answers, and the parts
of the state outside which nothing changes. Some clauses rest on readings or choices of the model: log 35 (repeats of
a channel die), 91 (records that wait), 92 (tags and credits). -/
def Obligations.TrailAndMailbox : Prop :=
  (∀ (n : Nat) (s : State), s.linkOk n .toHub = true → ((s.die n).link .toHub).replay.retries = 0 →
      ((s.die n).link .toHub).resend = [] →
    Gives (.trailEntry n) s fun t =>
    (t.trail = (match ((s.die n).link .toHub).queue with | e :: _ => (s.store e).trail | [] => s.trail) ∧
      ((t.die n).link .toHub).queue = ((s.die n).link .toHub).queue.tail) ∧ Frame [.reg 0x6000, .dies, .trail] s t) ∧
  (∀ (n : Nat) (e : Stored) (l : List Flit) (s : State), s.linkOk n .toHub = true → s.beatLate n = false →
    ((s.die n).link .toHub).resend = .entry e :: l → Gives (.trailEntry n) s fun t =>
    (t.trail = ((s.endReplay n .toHub 0).store e).trail ∧ ((t.die n).link .toHub).resend = l ∧
      ((t.die n).link .toHub).replay.retries = 0) ∧ Frame [.reg 0x6000, .dies, .trail] s t) ∧
  (∀ (s : State), s.trail.armed = some 0 → Gives .trailFreeze s fun t =>
    (t.trail.armed = none ∧ t.rd 0x6000 7 dev = 1) ∧ Frame [.reg 0x6000, .trail] s t) ∧
  (∀ (u : State) (s : State), s.qmUp = true → s.flushMail = u → Gives .identify s fun t =>
    (t.qm.reply = some ⟨0x81, u.tag, 0, u.identBytes ++ leNat 8 u.metNonce⟩ ∧ (s.fw = true → t.rd 0x1202 5 dev ≠ 0)) ∧
      Frame [.reg 0x1202, .reg 0x6000, .dies, .qm, .trail, .metNote, .lastMet, .metSilent, .metView, .metViewAt, .tag,
      .lane, .flight, .free] s t) ∧
  (∀ (i j c : Nat) (u : State) (s : State), s.qmUp = true → s.flushMail = u → Gives (.mailboxRead i j c) s fun t =>
    (t.qm.reply = match u.mailRead i j c with | some b => some ⟨0x82, u.tag, 0, b⟩ | none => some ⟨0x82, u.tag, 4, []⟩) ∧
      Frame [.qm, .lastMet, .metView, .metViewAt, .tag, .lane, .flight, .free] s t) ∧
  (∀ (mask : Nat) (u : State) (s : State), s.qmUp = true → s.ahead (.mailboxSubscribe mask) = u →
    Gives (.mailboxSubscribe mask) s fun t =>
    (t.qm.mask = (if mask < 64 then mask else u.qm.mask) ∧
      t.qm.reply = some ⟨0x83, u.tag, if mask < 64 then 0 else 5, []⟩) ∧ Frame [.qm, .lastMet, .metView, .metViewAt,
      .tag, .lane, .flight, .free] s t) ∧
  (∀ (n : Nat) (u : State) (s : State), s.qmUp = true → s.ahead (.ackRecords n) = u → Gives (.ackRecords n) s fun t =>
    (t.qm.reply = some ⟨0x84, u.tag, u.ackStatus n, []⟩ ∧ (u.ackStatus n = 0 → t.qm.ackBat = n)) ∧ Frame [.qm, .lastMet,
      .metView, .metViewAt, .tag, .lane, .flight, .free] s t) ∧
  (∀ (c : Nat) (id : List Byte) (u : State) (s : State), s.qmUp = true → s.chanPop c = true → id.length ≤ 24 →
    s.ahead (.cellId c id) = u → Gives (.cellId c id) s fun t =>
    ((t.qc c).cellNext = padTo 24 id ∧ t.qm.reply = some ⟨0x85, u.tag, 0, []⟩) ∧ Frame [.qm, .lastMet, .metView,
      .metViewAt, .tag, .lane, .flight, .free] s t) ∧
  (∀ (c row index mode rate gang origin firstJob loop sub4 sub2 : Nat) (u : State) (s : State), s.qmUp = true →
      s.chanPop c = true →
    s.ahead (.stepStart c row index mode rate gang origin firstJob loop sub4 sub2) = u → u.holds c gang origin = false →
    Gives (.stepStart c row index mode rate gang origin firstJob loop sub4 sub2) s fun t =>
    (t.qm.reply = some ⟨0x86, u.tag, 0, []⟩ ∧
      ∃ w, (t.qc c).step = some w ∧ w.row = row ∧ w.index = index ∧ w.mode = mode ∧ w.gang = gang ∧ w.loop = loop) ∧
      Frame [.qm, .lastMet, .metView, .metViewAt, .tag, .lane, .flight, .free] s t) ∧
  (∀ (c next cause endLt : Nat) (u : State) (s : State), s.qmUp = true → s.chanPop c = true →
    s.ahead (.stepClose c next cause endLt) = u → (u.qc c).step.isSome = true → u.holds c (u.qc c).gangSize endLt = false →
    Gives (.stepClose c next cause endLt) s fun t =>
    (t.qm.reply = some ⟨0x87, u.tag, 0, []⟩ ∧ (t.qc c).step = none ∧ (t.qc c).nextRow = next ∧
      (t.qc c).winStart = endLt) ∧ Frame [.qm, .lastMet, .metView, .metViewAt, .tag, .lane, .flight, .free] s t) ∧
  (∀ (offset : Nat) (data : List Byte) (u : State) (s : State), s.qmUp = true → data.length ≤ 8184 → s.flushMail = u →
    Gives (.reqAdjustImageSegment offset data) s fun t =>
    (t.qm.reply = some ⟨0x88, u.tag, (u.takeSegment offset data).2, []⟩ ∧
      (s.fw = true → t.rd 0x5441 0 dev = (u.takeSegment offset data).2)) ∧ Frame [.reg 0x5441, .qm, .lastMet, .metView,
      .metViewAt, .tag, .lane, .flight, .free] s t)

/-- REQ_ADJUST tokens, and the strap, the expiry and the clock of the metrology part (R239, R244, R249, R238, R241,
R236, R373). Derived from these rules: each clause says when its command is carried out, the state it then answers,
and the parts of the state outside which nothing changes. Some clauses rest on readings or choices of the model: log
102, 103 and 104 (statuses of refusals), 105 (trims of a written item). -/
def Obligations.AdjustmentTokens : Prop :=
  (∀ (x : Token) (u : State) (s : State), s.qmUp = true → s.flushMail = u → u.tokenStatus { x with kind := 1 } = 0 →
    Gives (.enterToken x) s fun t =>
    (t.qm.sealSt = 2 ∧ t.qm.adjUntil = some (u.mclkNow + fieldAt x.body 0 4 * 1000000000) ∧ t.qm.leftAt = none ∧
      t.qm.reply = some ⟨0x88, u.tag, 0, []⟩) ∧ Frame [.reg 0x5441, .qm, .lastMet, .metView, .metViewAt, .tag, .lane,
      .flight, .free] s t) ∧
  (∀ (x : Token) (u : State) (s : State), s.qmUp = true → s.flushMail = u → u.tokenStatus { x with kind := 2 } = 0 →
    Gives (.leaveToken x) s fun t =>
    (t.qm.sealSt = 1 ∧ t.qm.adjUntil = none ∧ t.qm.reply = some ⟨0x88, u.tag, 0, []⟩) ∧ Frame [.reg 0x5441, .qm,
      .lastMet, .metView, .metViewAt, .tag, .lane, .flight, .free] s t) ∧
  (∀ (x : Token) (u : State) (s : State), s.qmUp = true → s.flushMail = u → u.tokenStatus { x with kind := 3 } = 0 →
    Gives (.auditAcknowledge x) s fun t =>
    (t.qm.auditAck = fieldAt x.body 0 4 ∧ t.qm.auditNext = u.qm.auditNext + 1 ∧ t.qm.reply = some ⟨0x88, u.tag, 0, []⟩) ∧
      Frame [.reg 0x5441, .qm, .lastMet, .metView, .metViewAt, .tag, .lane, .flight, .free] s t) ∧
  (∀ (x : Token) (u : State) (s : State), s.qmUp = true → s.flushMail = u → u.tokenStatus { x with kind := 4 } = 0 →
    Gives (.calibrationWrite x) s fun t =>
    (lookup? (fieldAt x.body 0 2) t.qm.cal = some (x.body.drop 4) ∧ t.qm.evCount = min (u.qm.evCount + 1) 4294967295 ∧
      t.qm.calGen = (u.qm.calGen + 1) % 2 ^ 32 ∧ t.qm.reply = some ⟨0x88, u.tag, 0, []⟩) ∧ Frame [.reg 0x5441, .qm,
      .lastMet, .metView, .metViewAt, .tag, .lane, .flight, .free] s t) ∧
  (∀ (x : Token) (u : State) (s : State), s.qmUp = true → s.flushMail = u → u.tokenStatus { x with kind := 5 } = 0 →
    Gives (.authorityKeySet x) s fun t =>
    (lookup? (fieldAt x.body 0 1) t.qm.keys = some (x.body.drop 4) ∧ t.qm.evCount = min (u.qm.evCount + 1) 4294967295 ∧
      t.qm.reply = some ⟨0x88, u.tag, 0, []⟩) ∧ Frame [.reg 0x5441, .qm, .lastMet, .metView, .metViewAt, .tag, .lane,
      .flight, .free] s t) ∧
  (∀ (x : Token) (u : State) (s : State), s.qmUp = true → s.flushMail = u → u.tokenStatus { x with kind := 6 } = 0 →
    Gives (.softwareAnnounce x) s fun t =>
    (t.qm.announced = some (fieldAt x.body 0 4, x.body.drop 4) ∧ t.qm.image = { total := fieldAt x.body 0 4, parts := [] } ∧
      t.qm.verified = false ∧ t.qm.reply = some ⟨0x88, u.tag, 0, []⟩) ∧ Frame [.reg 0x5441, .qm, .lastMet, .metView,
      .metViewAt, .tag, .lane, .flight, .free] s t) ∧
  (∀ (x : Token) (k : Nat) (c : Instr) (u : State) (s : State), s.qmUp = true → s.flushMail = u →
    u.tokenCheck { x with kind := k } ≠ 0 →
    (k, c) ∈ [(1, Instr.enterToken x), (2, .leaveToken x), (3, .auditAcknowledge x), (4, .calibrationWrite x),
      (5, .authorityKeySet x), (6, .softwareAnnounce x)] → Gives c s fun t =>
    (t.qm.refused = (u.qm.refused + 1) % 2 ^ 32 ∧ t.qm.reply = some ⟨0x88, u.tag, u.tokenCheck { x with kind := k }, []⟩ ∧
      t.qm.sealSt = u.qm.sealSt ∧ t.qm.audit = u.qm.audit ∧ t.qm.cal = u.qm.cal ∧ t.qm.keys = u.qm.keys ∧
      t.qm.announced = u.qm.announced) ∧ Frame [.reg 0x5441, .qm, .lastMet, .metView, .metViewAt, .tag, .lane, .flight,
      .free] s t) ∧
  (∀ (level : Bool) (s : State), s.qmUp = true → s.adjDue = true → Gives (.adjEnChange level) s fun t =>
    ((t.qm.adjLevel, t.qm.adjSame) =
      if (level && s.qm.vioM) = s.qm.adjLevel then (s.qm.adjLevel, 0)
      else if 9 ≤ s.qm.adjSame then (level && s.qm.vioM, 0) else (s.qm.adjLevel, s.qm.adjSame + 1)) ∧ Frame [.qm] s t) ∧
  (∀ (u : Nat) (s : State), s.qmUp = true → s.seal = 2 → s.qm.adjUntil = some u → u ≤ s.mclkNow →
      Gives .adjustmentExpiry s fun t =>
    (t.qm.sealSt = 1 ∧ t.qm.adjUntil = none ∧ t.qm.auditNext = s.qm.auditNext + 1 + (if s.qm.verified then 1 else 0)) ∧
      Frame [.qm] s t) ∧
  (∀ (s : State), s.qmUp = true → s.qm.clk = false → Gives .mclkFault s fun t =>
    (t.qm.clk = true ∧ t.qm.clkSince = s.mclkNow ∧ bit t.qm.alerts 3 = true) ∧ Frame [.qm] s t) ∧
  (∀ (s : State), s.qmUp = true → s.qm.clk = true → s.qm.vioM = true → s.qm.clkSince + 100000000 ≤ s.mclkNow →
    Gives .mclkReturn s fun t => (t.qm.clk = false) ∧ Frame [.qm] s t)

/-- Beacons, records, mirrors and events on Hinge-R (R37, R206, R208, R219). Derived from these rules: each clause
says when its command is carried out, the state it then answers, and the parts of the state outside which nothing
changes. Some clauses rest on readings or choices of the model: log 92 (tags and credits). A reset, a start or a plain
write may set any register, so a FrameHidden clause frames the rest of the state. -/
def Obligations.FramesFromTheQm : Prop :=
  (∀ (lt number mclk : Nat) (u : State) (s : State), s.qmUp = true → s.fw = true → s.clock.beacon = some lt →
      s.closesSent lt = true →
    s.ahead (.beacon lt number mclk) = u → Gives (.beacon lt number mclk) s fun t =>
    (t.clock.beacon = none ∧ t.qm.mclk = max mclk u.mclkNow ∧ t.qm.mclkCnt = u.clock.cnt ∧
      t.qm.beacons.head? = some (max mclk u.mclkNow, lt, number)) ∧ Frame [.clock, .qm, .lastMet, .metView, .metViewAt,
      .tag, .lane, .flight, .free] s t) ∧
  (∀ (b : List Byte) (s : State), s.qmUp = true → requestOk b = false → Gives (.mailboxFrameDiscard b) s fun t =>
    (t = s.onQm fun q => { q with rejected := (s.qm.rejected + 1) % 2 ^ 32 }) ∧ Frame [.qm] s t) ∧
  (∀ (n : Nat) (r : Rec) (s : State), s.recAt n = some r → s.hears (recClass r.kind) = true →
      Gives (.qmRecordFrame n) s fun t =>
    (t.net.gotRec = max n s.net.gotRec ∧ t.lastMet = s.lt) ∧ Frame [.net, .lastMet, .metView, .metViewAt] s t) ∧
  (∀ (n : Nat) (b : Bat) (s : State), s.batAt n = some b → s.hears 4 = true → Gives (.qmBatchRecordFrame n) s fun t =>
    (t.net.gotBat = max n s.net.gotBat ∧ t.lastMet = s.lt) ∧ Frame [.net, .lastMet, .metView, .metViewAt] s t) ∧
  (∀ (epochLt : Nat) (s : State), s.hears 5 = true → Gives (.mirrorSet epochLt) s fun t =>
    (t.lastMet = s.lt ∧ ∀ c ∈ s.metChans, (s.qc c).mLt = some epochLt →
      t.rd (0x5100 + c) 1 met = (s.qc c).mV ∧ t.rd (0x5100 + c) 2 met = (s.qc c).mI ∧
      t.rd (0x5100 + c) 3 met = (s.qc c).wTemp ∧
      t.rd (0x5100 + c) 4 met = (s.qc c).mQ ∧ t.rd (0x5100 + c) 5 met = (s.qc c).mE ∧
      t.rd (0x5100 + c) 6 met = epochLt) ∧ FrameHidden [.chans, .lastMet, .metView, .metViewAt] s t) ∧
  (∀ (e : QmEvent) (s : State), s.qmUp = true → s.fw = true → e ∈ s.qm.events → Gives (.metrologyEvent e) s fun t =>
    (t.qm.events = s.qm.events.erase e ∧ t.lastMet = s.lt) ∧ Frame [.reg 0x1200, .reg 0x1210, .reg 0x2402, .reg 0x2403,
      .reg 0x2406, .reg 0x2408, .reg 0x2444, .reg 0x3101, .reg 0x6000, .chans, .units, .slots, .dies, .groups, .qm,
      .trail, .lastMet, .metView, .metViewAt, .lane, .flight] s t)

/-- Integration, mirrors, periodic, AC and impedance records, checkpoints and batches (R214, R219, R218, R223, R221,
R226, R227). Derived from these rules: each clause says when its command is carried out, the state it then answers,
and the parts of the state outside which nothing changes. Some clauses rest on readings or choices of the model: log
49 (calibration of the samples), 91 (records that wait), 97 (AC records). -/
def Obligations.Measurement : Prop :=
  (∀ (c : Nat) (v i x spare spareT : Int) (y : QSample) (s : State), s.qmUp = true → s.chanPop c = true →
      s.framed (dieOf c) = true →
    s.sampleDue c = true → s.rotFirst (dieOf c) (localOf c / 8) s.sampleStart (fun q => q / 2 == localOf c % 8) = false →
    s.rotFirst (dieOf c) 8 s.sampleStart (· == localOf c / 16) = false →
    s.sampleOf c s.sampleStart (s.readInput (dieOf c) (localOf c / 8) (2 * (localOf c % 8)) s.sampleStart v spare)
      (s.readInput (dieOf c) (localOf c / 8) (2 * (localOf c % 8) + 1) s.sampleStart i spare)
      (s.readInput (dieOf c) 8 (localOf c / 16) s.sampleStart x spareT) = y →
    Gives (.integratorSample c v i x spare spareT) s fun t =>
    ((t.qc c).acc = y.next ∧ (t.qc c).wAcc = y.wNext ∧ (s.qm.held = [] → (t.qc c).hist = y :: (s.qc c).hist)) ∧
      Frame [.qm, .free] s t) ∧
  (∀ (epochLt : Nat) (s : State), s.qmUp = true → Gives (.mirrorMeans epochLt) s fun t =>
    (∀ c ∈ s.metChans, (look [] s.qm.markers (dieOf c)).contains epochLt = true →
      covered (s.qc c).hist (epochLt - s.epochNs) epochLt ≠ 0 → (s.qc c).reaches epochLt = true →
      (t.qc c).mLt = some epochLt ∧ (t.qc c).mQ = (s.qc c).wChargeAt epochLt ∧
      (t.qc c).mE = (s.qc c).wEnergyAt epochLt) ∧ Frame [.qm] s t) ∧
  (∀ (c : Nat) (s : State), s.qmUp = true → s.chanPop c = true → s.periodicDue c = true →
    s.holds c (s.qc c).gangSize (s.nextIntEnd c) = false → Gives (.periodicRecord c) s fun t =>
    ((t.qc c).intStart = (s.qc c).intEnd ∧ (s.recRoom 2 = true → t.qm.nextRec = s.qm.nextRec + 1) ∧
      (s.recRoom 2 = false → t.qm.dropped = s.qm.dropped + 1 ∧ (t.qc c).pgap = true)) ∧ Frame [.qm, .free] s t) ∧
  (∀ (samples : List (List Int)) (es : List Rat) (s : State), s.qmUp = true → s.qm.acSec < s.qmLt / 1000000000 →
    ((List.range 3).map fun k => phaseEnergy (s.acStream k (samples.map fun x => x.getD k 0))
      (s.acStream (3 + k) (samples.map fun x => x.getD (3 + k) 0))) = es → Gives (.acRecord samples) s fun t =>
    (t.qm.acImp = (s.qm.takeAc es).acImp ∧ t.qm.acExp = (s.qm.takeAc es).acExp ∧ t.qm.acSec = s.qmLt / 1000000000 ∧
      (s.recRoom 3 = true → t.qm.nextRec = s.qm.nextRec + 1)) ∧ Frame [.qm] s t) ∧
  (∀ (c f e b : Nat) (w : QStep) (s : State), s.qmUp = true → s.chanPop c = true → (s.qc c).step = some w → w.mode = 9 →
    s.sweepPoint w = some (f, e, b) → b ≤ s.qmLt → s.holds c w.gang b = false → Gives (.impedanceRecord c) s fun t =>
    ((t.qc c).step.map (·.point) = some (w.point + 1) ∧ (s.recRoom 4 = true → t.qm.nextRec = s.qm.nextRec + 1) ∧
      (s.recRoom 4 = false → t.qm.dropped = s.qm.dropped + 1 ∧ (t.qc c).pgap = true)) ∧ Frame [.qm, .free] s t) ∧
  (∀ (s : State), s.qmUp = true → (s.qm.checked = true → s.qm.ckAt + 1000000000 ≤ s.mclkNow) → Gives .checkpoint s fun t =>
    (t.qm.checked = true ∧ t.qm.ckLt = s.qmLt ∧ t.qm.ckAt = s.mclkNow ∧ t.qm.ckMods = s.qm.mods) ∧ Frame [.qm] s t) ∧
  (∀ (s : State), s.qmUp = true → s.batchDue = true → Gives .batchClose s fun t =>
    (t.qm.lastBat = s.qm.lastBat + 1 ∧ t.qm.unbatched = s.qm.unbatched + min 4096 s.qm.waiting ∧
      lookup? (s.qm.lastBat + 1) t.qm.bats = some ⟨s.qm.unbatched, min 4096 s.qm.waiting,
      s.batchHeader (min 4096 s.qm.waiting),
        Config.mldsaSign 1 metCtx (s.batchHeader (min 4096 s.qm.waiting))⟩) ∧ Frame [.qm] s t)

/-- The commands of the metrology port are answered and change nothing of the measurement (R246, R247, R558). Derived
from these rules: each clause says when its command is carried out, the state it then answers, and the parts of the
state outside which nothing changes. -/
def Obligations.MetrologyPort : Prop :=
  (∀ (arg : List Byte) (clocked : Nat) (s : State), s.portUp = true → 8 ≤ arg.length → Gives (.ident arg clocked) s fun t =>
    (t.qm.port = some (if ofLe (arg.take 8) = 0 then ⟨0, s.identBytes, clocked⟩ else ⟨3, [], clocked⟩) ∧
      t.qm.alerts = s.qm.alerts) ∧ Frame [.qm] s t) ∧
  (∀ (arg : List Byte) (clocked : Nat) (s : State), s.portUp = true → 8 ≤ arg.length → Gives (.status arg clocked) s fun t =>
    (t.qm.port = some (if ofLe (arg.take 8) = 0 then ⟨0, s.statusBytes, clocked⟩ else ⟨3, [], clocked⟩) ∧
      t.qm.alerts = (if ofLe (arg.take 8) = 0 ∧ 6 ≤ clocked then 0 else s.qm.alerts)) ∧ Frame [.qm] s t) ∧
  (∀ (arg : List Byte) (clocked : Nat) (s : State), s.portUp = true → 8 ≤ arg.length → Gives (.audit arg clocked) s fun t =>
    (t.qm.port = some (match (s.auditAt (ofLe (arg.take 8))).map (·.bytes) with | some b => ⟨0, b, clocked⟩ | none => ⟨2,
      [], clocked⟩)) ∧ Frame [.qm] s t) ∧
  (∀ (arg : List Byte) (clocked : Nat) (s : State), s.portUp = true → 8 ≤ arg.length → Gives (.record arg clocked) s fun t =>
    (t.qm.port = some (match (s.recAt (ofLe (arg.take 8))).map (·.bytes) with | some b => ⟨0, b, clocked⟩ | none => ⟨2,
      [], clocked⟩)) ∧ Frame [.qm] s t) ∧
  (∀ (arg : List Byte) (clocked : Nat) (s : State), s.portUp = true → 8 ≤ arg.length → Gives (.batch arg clocked) s fun t =>
    (t.qm.port = some (match (s.batAt (ofLe (arg.take 8))).map (·.bytes) with | some b => ⟨0, b, clocked⟩ | none => ⟨2,
      [], clocked⟩)) ∧ Frame [.qm] s t) ∧
  (∀ (arg : List Byte) (clocked : Nat) (s : State), s.portUp = true → 8 ≤ arg.length → Gives (.proof arg clocked) s fun t =>
    (t.qm.port = some (match s.proofOf (ofLe (arg.take 8)) with | some b => ⟨0, b, clocked⟩ | none => ⟨2, [],
      clocked⟩)) ∧ Frame [.qm] s t) ∧
  (∀ (arg : List Byte) (clocked : Nat) (s : State), s.portUp = true → 8 ≤ arg.length → Gives (.live arg clocked) s fun t =>
    (t.qm.port = some (if ofLe (arg.take 8) < 384 ∧ s.chanPop (ofLe (arg.take 8)) = true
      then ⟨0, s.liveBytes (ofLe (arg.take 8)), clocked⟩ else ⟨3, [], clocked⟩)) ∧ Frame [.qm] s t) ∧
  (∀ (arg : List Byte) (clocked : Nat) (s : State), s.portUp = true → 8 ≤ arg.length → Gives (.ac arg clocked) s fun t =>
    (t.qm.port = some (if ofLe (arg.take 8) = 0 then (match s.qm.lastAc with | some b => ⟨0, b, clocked⟩ | none => ⟨2,
      [], clocked⟩)
      else ⟨3, [], clocked⟩)) ∧ Frame [.qm] s t) ∧
  (∀ (arg : List Byte) (clocked : Nat) (s : State), s.portUp = true → 8 ≤ arg.length → Gives (.pubkey arg clocked) s fun t =>
    (t.qm.port = some (if ofLe (arg.take 8) = 0 then ⟨0, s.metKey, clocked⟩ else ⟨3, [], clocked⟩)) ∧ Frame [.qm] s t)

/-- Spare rotation: overlap, provisional takeover, commit and the freed calibration (R253, R255, R256, R258, R259,
R262). Derived from these rules: each clause says when its command is carried out, the state it then answers, and the
parts of the state outside which nothing changes. Some clauses rest on readings or choices of the model: log 106 and
107 (suspect marks, power-on). -/
def Obligations.Rotation : Prop :=
  (∀ (site g : Nat) (s : State), s.rotates site g = true → (s.rot site g).phase = 0 → ((s.rot site g).spareOf g).isSome = true →
    (s.rot site g).next ≤ s.mclkNow → Gives (.overlapStart site g) s fun t =>
    ((t.rot site g).phase = 1 ∧ (t.rot site g).s = max (s.rot site g).next (s.mclkNow / interval * interval) ∧
      (t.rot site g).fit = {}) ∧ Frame [.qm] s t) ∧
  (∀ (site g : Nat) (x : Rot) (r : Rat × Rat) (s : State), s.rot site g = x → x.fit.solve (inputKind g x.input) = r →
    s.rotates site g = true → x.phase = 1 → s.windowDone site g x = true → x.fit.n ≠ 0 →
    x.fit.residual r.1 r.2 ≤ residualLimit (inputKind g x.input) * residualLimit (inputKind g x.input) →
    Gives (.provisionalTakeover site g) s fun t =>
    ((t.rot site g).phase = 2 ∧ (t.rot site g).h = x.s + fitWindow ∧ (t.rot site g).gain = r.1 ∧
      (t.rot site g).offs = r.2) ∧ Frame [.qm] s t) ∧
  (∀ (site g : Nat) (x : Rot) (r : Rat × Rat) (s : State), s.rot site g = x → x.fit.solve (inputKind g x.input) = r →
    s.rotates site g = true → x.phase = 1 → s.windowDone site g x = true →
    (x.fit.n = 0 ∨ residualLimit (inputKind g x.input) * residualLimit (inputKind g x.input) < x.fit.residual r.1 r.2) →
    Gives (.provisionalTakeover site g) s fun t =>
    ((t.rot site g).phase = 0 ∧ (t.rot site g).next = boundaryAfter (x.s + fitWindow) ∧
      look 0 t.qm.abandons site = (look 0 s.qm.abandons site + 1) % 2 ^ 32) ∧ Frame [.qm] s t) ∧
  (∀ (site g c : Nat) (s : State), s.commitAt (s.rot site g) = some c → s.rotates site g = true → (s.rot site g).phase = 2 →
    c ≤ s.mclkNow → s.milestoneIn site g (s.rot site g) = false → Gives (.rotationCommit site g) s fun t =>
    ((t.rot site g).c = c ∧ (t.rot site g).next = c + 10000000000 ∧ (t.rot site g).steps = 0 ∧ (t.rot site g).spare = none ∧
      (t.rot site g).freed = ((s.rot site g).serving g).getD (s.rot site g).input 0 ∧
      (t.rot site g).input = nextInput g (s.rot site g).input ∧
      look 0 t.qm.cycles site = (look 0 s.qm.cycles site + 1) % 2 ^ 32) ∧ Frame [.qm, .free] s t) ∧
  (∀ (site g c : Nat) (s : State), s.commitAt (s.rot site g) = some c → s.rotates site g = true → (s.rot site g).phase = 2 →
    c ≤ s.mclkNow → s.milestoneIn site g (s.rot site g) = true → Gives (.rotationCommit site g) s fun t =>
    ((t.rot site g).phase = 0 ∧ (t.rot site g).next = boundaryAfter c ∧
      look 0 t.qm.abandons site = (look 0 s.qm.abandons site + 1) % 2 ^ 32) ∧ Frame [.qm, .free] s t) ∧
  (∀ (site g k : Nat) (mean : Int) (s : State), s.rotates site g = true → (s.rot site g).phase = 3 → k < 3 →
      (s.rot site g).steps = k →
    (s.rot site g).c + phaseEnd k ≤ s.mclkNow → Gives (.freedCalibrationPhase site g k mean) s fun t =>
    ((t.rot site g).steps = k + 1 ∧ (t.rot site g).phase = 3 ∧ (k = 0 → (t.rot site g).zero = mean) ∧
      (k = 1 → (t.rot site g).pointA = mean) ∧
      (k = 2 → (t.modl site (s.rot site g).freed).trim (rangeOf (inputKind g (s.rot site g).input)) =
        s.newTrim site (s.rot site g).freed (inputKind g (s.rot site g).input) (s.rot site g).zero (s.rot site g).pointA)) ∧
      Frame [.qm] s t) ∧
  (∀ (site g : Nat) (s : State), s.rotates site g = true → (s.rot site g).phase = 3 →
    (s.rot site g).steps = 3 → (s.rot site g).c + 10000000000 ≤ s.mclkNow → Gives (.freedCalibrationEnd site g) s fun t =>
    (if (s.rot site g).bad = true then
        (t.modl site (s.rot site g).freed).suspect = true ∧ (t.rot site g).phase = 4 ∧
          t.qm.events = s.qm.events ++ [.calibration 1 site g (s.rot site g).freed]
      else (t.rot site g).phase = 0 ∧ (t.rot site g).spare = some (s.rot site g).freed) ∧ Frame [.qm] s t) ∧
  (∀ (site g m kind : Nat) (zero a b : Int) (y : Trim) (s : State), s.rotates site g = true → groupOfMod m = g → m ≤ 140 →
    (s.modl site m).suspect = true → (s.modl site m).lastRun + 600000000000 ≤ s.mclkNow →
    inputKind g (s.rot site g).input = kind → s.newTrim site m kind zero a = y →
    Gives (.suspectRecalibration site g m zero a b) s fun t =>
    ((t.modl site m).trim (rangeOf kind) = y ∧ (t.modl site m).lastRun = s.mclkNow ∧
      if s.failsB site m kind y b = true then (t.modl site m).suspect = true ∧ (t.modl site m).passes = 0
      else if 1 ≤ (s.modl site m).passes then (t.modl site m).suspect = false ∧ (t.rot site g).spare = some m
      else (t.modl site m).suspect = true ∧ (t.modl site m).passes = (s.modl site m).passes + 1) ∧ Frame [.qm] s t) ∧
  (∀ (site m p : Nat) (s : State), s.qmUp = true → s.sitePop site = true → m ≤ 140 → s.servedBy site m = some p →
    (s.trimAt site (groupOfMod m) p m).old s.mclkNow = true → (s.modl site m).aged = false →
      Gives (.calibrationAgeEvent site m) s fun t =>
    ((t.modl site m).aged = true ∧ t.qm.events = s.qm.events ++ [.calibration 4 site (groupOfMod m) m]) ∧ Frame [.qm] s t)

/-- Path diagnosis of the ADC units and writes of control ADC calibration (R264, R266, R265, R250). Derived from these
rules: each clause says when its command is carried out, the state it then answers, and the parts of the state outside
which nothing changes. Some clauses rest on readings or choices of the model: log 111, 113 and 175 (instants, DAC
values and paths of a diagnosis). A reset, a start or a plain write may set any register, so a FrameHidden clause
frames the rest of the state. -/
def Obligations.DiagnosisAndCalibration : Prop :=
  (∀ (die u d : Nat) (s : State), s.diagUp die = true → u < unitCount die → (s.adc die u).diagUntil = none →
    (s.adc die u).repeatAt = none → s.diagDue die u = some d → (s.adc die u).lastDiag < d → s.diagBlocked die u = false →
    s.diagRuns die = false → Gives (.pathDiagnosis die u) s fun t =>
    ((t.adc die u).diagUntil = some (s.lt + 400000) ∧ (t.adc die u).lastDiag = s.lt ∧ (t.adc die u).repeated = false ∧
      t.rd (diagObj die) 2 (dieI die) = (s.rd (diagObj die) 2 (dieI die) + 1) % 2 ^ 32) ∧ FrameHidden [.adcs] s t) ∧
  (∀ (die u d : Nat) (s : State), s.diagUp die = true → u < unitCount die → (s.adc die u).diagUntil = none →
    (s.adc die u).repeatAt = none → s.diagDue die u = some d → (s.adc die u).lastDiag < d → s.diagBlocked die u = true →
    Gives (.pathDiagnosis die u) s fun t =>
    ((t.adc die u).diagUntil = none ∧ (t.adc die u).waiting = true) ∧ FrameHidden [.adcs] s t) ∧
  (∀ (die u d : Nat) (results : List (Nat × Nat × Nat)) (s : State), u < unitCount die → (s.adc die u).diagUntil = some d →
      d ≤ s.lt →
    (diagCases die u).all (fun c => (resultAt results c).isSome) = true →
      (diagCases die u).find? (s.badResult die u results) = none →
    Gives (.pathDiagnosisResult die u results) s fun t =>
    ((t.adc die u).diagUntil = none ∧ bit (t.rdN (diagObj die) 4 (dieI die)) u = false) ∧ FrameHidden [.chans, .units,
      .slots, .engines, .dies, .adcs, .bldc, .axes, .power, .trail, .lane, .flight] s t) ∧
  (∀ (die u d : Nat) (r : Nat × Nat) (results : List (Nat × Nat × Nat)) (s : State), u < unitCount die →
      (s.adc die u).diagUntil = some d →
    d ≤ s.lt → (diagCases die u).all (fun c => (resultAt results c).isSome) = true →
      (diagCases die u).find? (s.badResult die u results) = some r →
    Gives (.pathDiagnosisResult die u results) s fun t =>
    ((t.adc die u).diagUntil = none ∧
      if (s.adc die u).repeated = true then bit (t.rdN (diagObj die) 4 (dieI die)) u = true
      else (t.adc die u).repeatAt = some (s.lt + 1000000)) ∧ FrameHidden [.chans, .units, .slots, .engines, .dies, .adcs,
      .bldc, .axes, .power, .trail, .lane, .flight] s t) ∧
  (∀ (die u d : Nat) (s : State), s.diagUp die = true → u < unitCount die → (s.adc die u).diagUntil = none →
    (s.adc die u).repeatAt = some d → d ≤ s.lt → s.diagBlocked die u = false → s.diagRuns die = false →
    Gives (.diagnosisRepeat die u) s fun t =>
    ((t.adc die u).diagUntil = some (s.lt + 400000) ∧ (t.adc die u).repeated = true ∧ (t.adc die u).repeatAt = none) ∧
      FrameHidden [.adcs] s t) ∧
  (∀ (src : Src) (n mask : Nat) (s : State), s.Accepts src 0x2853 6 [siteI n] mask (diagnoseNowCheck mask) →
    Gives (.diagnoseNow src n mask) s fun t =>
    (∀ u, u < 16 → bit mask u = true → (s.adc n u).diagUntil = none →
      (t.adc n u).diagUntil = some (s.lt + 400000) ∧ (t.adc n u).lastDiag = s.lt) ∧ FrameHidden [.units, .dies, .adcs,
      .net] s t) ∧
  (∀ (src : Src) (i j : Nat) (e : Inst) (v : Int) (s : State), isCalObj i = true →
    s.Accepts src i j [instOf e] v (fun _ _ => aDone) → Gives (.controlAdcCalibrationWrite src i j e v) s fun t =>
    (t.rd i j (instOf e) = v ∧ lookup? ⟨i, j, instOf e⟩ t.flash = some v) ∧ FrameHidden [.flash, .units, .dies, .net,
      .trail] s t)

/-- Driver slices: undervoltage, bootstrap, refresh, edge words, dead time and comparators (R46, R47, R48, R53, R49,
R59, R56). Derived from these rules: each clause says when its command is carried out, the state it then answers, and
the parts of the state outside which nothing changes. Some clauses rest on readings or choices of the model: log 155
(forced gap), 145 (edges that wait). -/
def Obligations.DriverSlices : Prop :=
  (∀ (n mv : Nat) (s : State), s.sitePop n = true → mv < 7200 → Gives (.vdrvUndervoltage n mv) s fun t =>
    (t.rd 0x2800 2 (siteI n) = mv ∧ t.rd 0x2800 3 (siteI n) = 1 ∧ bit (t.rdN 0x2803 9 (siteI n)) 2 = true ∧
      ∀ c ∈ siteChans n, (t.chan c).slice.hg = false ∧ (t.chan c).slice.lg = false) ∧ Frame [.reg 0x1200, .reg 0x1210,
      .reg 0x1220, .reg 0x2402, .reg 0x2444, .reg 0x2800, .reg 0x2803, .reg 0x2810, .reg 0x3101, .reg 0x6000,
      .reg 0x6010, .reg 0x6012, .chans, .units, .slots, .engines, .dies, .trail, .lane, .flight] s t) ∧
  (∀ (n mv : Nat) (s : State), s.sitePop n = true → 7600 < mv → Gives (.vdrvRelease n mv) s fun t =>
    (t.rd 0x2800 2 (siteI n) = mv ∧ t.rd 0x2800 3 (siteI n) = 0 ∧ bit (t.rdN 0x2803 9 (siteI n)) 2 = false) ∧
      Frame [.reg 0x1220, .reg 0x2800, .reg 0x2803, .reg 0x6000, .dies, .trail] s t) ∧
  (∀ (c mv : Nat) (s : State), s.chanPop c = true → mv < 5600 → Gives (.bootstrapHold c mv) s fun t =>
    (t.rd 0x2812 2 c = 1 ∧ (t.chan c).slice.hg = false ∧ (t.chan c).slice.lg = (s.chan c).slice.lg) ∧ Frame [.reg 0x2812,
      .chans] s t) ∧
  (∀ (c mv : Nat) (s : State), s.chanPop c = true → 6000 < mv →
      Gives (.bootstrapRelease c mv) s fun t => (t.rd 0x2812 2 c = 0) ∧ Frame [.reg 0x2812] s t) ∧
  (∀ (c : Nat) (s : State), s.chanPop c = true → s.refreshDue c = true → Gives (.forcedRefresh c) s fun t =>
    ((t.unit (dieOf c) (localOf c)).rfr = true ∧ (t.chan c).slice.refresh = 0 ∧
      legFor (t.unit (dieOf c) (localOf c)).on (s.swapped (dieOf c) (localOf c)) = .low ∧
      t.rd 0x2812 1 c = (s.rd 0x2812 1 c + 1) % 2 ^ 32) ∧ Frame [.reg 0x2812, .reg 0x2833, .chans, .units, .adcs] s t) ∧
  (∀ (c : Nat) (w : Word) (s : State), s.chanPop c = true → (s.laneHas c w = true ∨ s.outOfTurn c w = false) →
      (s.chan c).check = none → edgeOk w = true →
    edgeChan w = localOf c → edgeLeg w ≠ 3 → ((s.chan c).slice.blocked = true → edgePb w = true) →
      Gives (.edgeWord c w) s fun t =>
    ((t.chan c).slice.blocked = false ∧ (t.chan c).slice.words =
      (s.chan c).slice.words ++ [(edgeInstant (s.cnt (dieOf c)) w, legOf (edgeLeg w), edgePb w)]) ∧ Frame [.reg 0x2402,
      .reg 0x2444, .reg 0x2810, .reg 0x2811, .reg 0x6000, .reg 0x6010, .chans, .units, .slots, .engines, .dies, .adcs,
      .trail, .lane, .flight] s t) ∧
  (∀ (c : Nat) (w : Word) (s : State), s.chanPop c = true → (s.laneHas c w = true ∨ s.outOfTurn c w = false) →
      (s.chan c).check = none → edgeOk w = false →
    (s.chan c).slice.blocked = false → Gives (.edgeWord c w) s fun t =>
    ((t.chan c).slice.blocked = true ∧ (t.chan c).slice.hg = false ∧ (t.chan c).slice.lg = false ∧
      t.rd 0x2811 1 c = 1 ∧ t.rd 0x2811 3 c = 2 ∧ t.rd 0x2811 4 c = s.lt) ∧ Frame [.reg 0x2402, .reg 0x2444, .reg 0x2810,
      .reg 0x2811, .reg 0x6000, .reg 0x6010, .chans, .units, .slots, .engines, .dies, .adcs, .trail, .lane, .flight] s t) ∧
  (∀ (c x : Nat) (leg : Leg) (pb : Bool) (ws : List (Nat × Leg × Bool)) (s : State), (s.chan c).slice.words = (x, leg,
      pb) :: ws →
    x ≤ s.fine (dieOf c) → (s.die (dieOf c)).halted = false → s.heldLow c = false → s.rd 0x2812 2 c ≠ 1 →
      Gives (.edgeTime c) s fun t =>
    ((t.chan c).slice.words = ws ∧ (t.chan c).slice.leg = leg) ∧ Frame [.chans] s t) ∧
  (∀ (c x : Nat) (hi : Bool) (s : State), (s.chan c).slice.turnOn = some (hi, x) → x ≤ s.fine (dieOf c) →
      (s.die (dieOf c)).halted = false → s.heldLow c = false →
    s.rd 0x2812 2 c ≠ 1 → Gives (.deadTimeTurnOn c) s fun t =>
    ((t.chan c).slice.turnOn = none ∧ (if hi then (t.chan c).slice.hg = true else (t.chan c).slice.lg = true)) ∧
      Frame [.chans] s t) ∧
  (∀ (c : Nat) (uv : Int) (s : State), s.chanPop c = true → s.rd 0x2810 1 c < uv.natAbs → s.blanked c = false →
    Gives (.softComparatorTrip c uv) s fun t =>
    (t.latched c = true ∧ bit (t.rdN 0x2810 4 c) 0 = true) ∧ Frame [.reg 0x1200, .reg 0x1210, .reg 0x2402, .reg 0x2444,
      .reg 0x2801, .reg 0x2810, .reg 0x3101, .reg 0x6000, .reg 0x6010, .reg 0x6012, .chans, .units, .slots, .engines,
      .dies, .trail, .lane, .flight] s t) ∧
  (∀ (c : Nat) (uv : Int) (s : State), s.chanPop c = true → s.rd 0x2810 2 c < uv.natAbs →
      Gives (.hardComparatorTrip c uv) s fun t =>
    (t.latched c = true ∧ bit (t.rdN 0x2810 4 c) 1 = true ∧ (s.blanked c = true → bit (t.rdN 0x2810 4 c) 2 = true)) ∧
      Frame [.reg 0x1200, .reg 0x1210, .reg 0x2402, .reg 0x2444, .reg 0x2801, .reg 0x2810, .reg 0x3101, .reg 0x6000,
      .reg 0x6010, .reg 0x6012, .chans, .units, .slots, .engines, .dies, .trail, .lane, .flight] s t) ∧
  (∀ (c : Nat) (uv : Int) (s : State), s.chanPop c = true → (s.chan c).slice.blankEnd ≠ 0 → s.blanked c = false →
    Gives (.blankingEnd c uv) s fun t =>
    (if s.rd 0x2810 1 c < uv.natAbs then t.latched c = true else (t.chan c).slice.blankEnd = 0) ∧ Frame [.reg 0x1200,
      .reg 0x1210, .reg 0x2402, .reg 0x2444, .reg 0x2801, .reg 0x2810, .reg 0x3101, .reg 0x6000, .reg 0x6010,
      .reg 0x6012, .chans, .units, .slots, .engines, .dies, .trail, .lane, .flight] s t)

/-- The contact check, fault sources, FLT inputs and debug halts (R65, R66, R68, R103, R101, R104, R105, R388).
Derived from these rules: each clause says when its command is carried out, the state it then answers, and the parts
of the state outside which nothing changes. Some clauses rest on readings or choices of the model: log 11 (FLT inputs
are active high), 145 (edges at a resume). -/
def Obligations.ContactCheckAndFaultSources : Prop :=
  (∀ (src : Src) (c v : Nat) (s : State), s.Accepts src 0x2820 2 [c] v checkNowCheck → Gives (.checkNow src c v) s fun t =>
    (∀ m ∈ s.gang c, .host ∈ (t.chan m).queued) ∧ Frame [.reg 0x1200, .reg 0x1210, .reg 0x1310, .reg 0x3101, .chans,
      .units, .dies, .net] s t) ∧
  (∀ (c : Nat) (g : Gate) (gs : List Gate) (s : State), s.chanPop c = true → (s.chan c).queued = g :: gs →
      (s.chan c).check = none →
    (s.adc (dieOf c) (quadOf c)).checking = none → (s.adc (dieOf c) (quadOf c)).diagUntil = none → s.gatesAreOff c = true →
    s.checkFirst c g = false → Gives (.contactCheckStart c) s fun t =>
    ((t.chan c).check = some ⟨g, 0, s.lt, []⟩ ∧ (t.chan c).queued = gs ∧ (t.chan c).slice.words = [] ∧
      (t.chan c).slice.turnOn = none ∧
      (t.adc (dieOf c) (quadOf c)).checking = some (localOf c)) ∧ Frame [.chans, .adcs] s t) ∧
  (∀ (c x : Nat) (codes : List Nat) (k : Check) (s : State), (s.chan c).check = some k → checkTimes[k.phase]? = some x →
    k.start + x ≤ s.lt → Gives (.contactCheckPhase c codes) s fun t =>
    ((t.chan c).check = some { k with phase := k.phase + 1, v := k.v ++ [s.averageV c codes] }) ∧ Frame [.chans] s t) ∧
  (∀ (c : Nat) (k : Check) (s : State), (s.chan c).check = some k → k.phase = 4 → k.start + 900000 ≤ s.lt →
    Gives (.contactCheckResult c) s fun t =>
    ((t.adc (dieOf c) (quadOf c)).checking = none ∧ t.rd 0x2820 4 c = k.v.getD 0 0 ∧ t.rd 0x2820 5 c = k.v.getD 1 0 ∧
      t.rd 0x2820 6 c = k.v.getD 2 0 ∧ t.rd 0x2820 7 c = k.v.getD 3 0 ∧ t.rd 0x2820 0xA c = s.lt) ∧ Frame [.reg 0x2402,
      .reg 0x2403, .reg 0x2406, .reg 0x2444, .reg 0x2820, .reg 0x6000, .chans, .units, .slots, .dies, .adcs, .groups,
      .trail, .lane, .flight] s t) ∧
  (∀ (n k u : Nat) (m1 m2 : Int) (s : State), s.sitePop n = true → s.sourceBeyond n k u m1 = true →
      s.sourceBeyond n k u m2 = true →
    Gives (.faultSourceAssert n k u m1 m2) s fun t =>
    (bit (t.rdN 0x2803 9 (siteI n)) k = true ∧
      ∀ c ∈ s.maskChans n (s.rdN 0x2803 (k + 1) (siteI n)), t.latched c = true) ∧ Frame [.reg 0x1200, .reg 0x1210,
      .reg 0x2402, .reg 0x2444, .reg 0x2803, .reg 0x2810, .reg 0x3101, .reg 0x3105, .reg 0x3106, .reg 0x6000,
      .reg 0x6010, .reg 0x6012, .chans, .units, .slots, .engines, .dies, .trail, .lane, .flight] s t) ∧
  (∀ (n k : Nat) (a b : Int) (s : State), s.sitePop n = true → s.sourceInside n k 0 a = true →
    (k = 3 ∨ s.sourceInside n k 8 b = true) → Gives (.faultSourceDeassert n k a b) s fun t =>
    (bit (t.rdN 0x2803 9 (siteI n)) k = false) ∧ Frame [.reg 0x2803, .reg 0x3105, .reg 0x3106] s t) ∧
  (∀ (k counts : Nat) (level : Bool) (s : State), s.vsys = true → k < 8 → 2 ≤ counts →
      Gives (.fltInput k level counts) s fun t =>
    (bit t.power.flt k = level ∧ (level = true → ∀ g, g < 8 → bit (s.rdN 0x3010 (k + 1) dev) g = true →
      ∀ u ∈ s.groupUnits g, (t.unit 0 u).latched = true)) ∧ Frame [.reg 0x341A, .reg 0x3420, .reg 0x344E, .reg 0x344F,
      .reg 0x3450, .reg 0x3457, .reg 0x6000, .reg 0x6014, .units, .engines, .dies, .bldc, .axes, .power, .trail] s t) ∧
  (∀ (die : Nat) (s : State), s.sealedPart = false → s.sec.debug = true → s.diePop die = true → (∀ d, d < 7 →
      (s.die d).halted = false) →
    Gives (.debugHalt die) s fun t =>
    ((t.die die).halted = true ∧ (t.die die).haltAt = s.cnt die) ∧ Frame [.dies] s t) ∧
  (∀ (die : Nat) (s : State), s.diePop die = true → (s.die die).halted = true → Gives (.debugResume die) s fun t =>
    ((t.die die).halted = false ∧ (t.die die).hbHub = s.clock.cnt ∧ (t.die die).hbDie = s.clock.cnt) ∧ Frame [.chans,
      .units, .dies, .adcs] s t)

/-- Period boundaries, mid-period updates, edges, commits, starts and stops of pulse outputs (R74, R83, R90, R82, R79,
R80). Derived from these rules: each clause says when its command is carried out, the state it then answers, and the
parts of the state outside which nothing changes. Some clauses rest on readings or choices of the model: log 33
(staging after a transfer), 146 (shift at a boundary), 157 (edge at mid-period), 168 (crossing starts and stops). -/
def Obligations.TimedOutputs : Prop :=
  (∀ (die u b : Nat) (set : Machine.PSet) (s : State), s.unitPop die u = true → (s.die die).halted = false →
      (s.unit die u).running = false →
    (s.unit die u).firstB (s.phi die u) = some (b, set) → b ≤ s.cnt die → s.unitLatched die u = false →
    Gives (.periodBoundary die u) s fun t =>
    ((t.unit die u).running = true ∧ (t.unit die u).boundary = b ∧ (t.unit die u).shift = 0 ∧ (t.unit die u).startAt = none ∧
      ((s.unit die u).starting = true → (t.unit die u).active = set)) ∧ Frame [.reg 0x2402, .reg 0x2444, .reg 0x2810,
      .reg 0x2833, .reg 0x3101, .reg 0x6000, .reg 0x6010, .reg 0x6012, .chans, .units, .slots, .engines, .dies, .adcs,
      .trail, .lane, .flight] s t) ∧
  (∀ (die u : Nat) (s : State), s.unitPop die u = true → (s.die die).halted = false → (s.unit die u).running = true →
    (s.unit die u).nextFine ≤ s.fine die → (s.unit die u).stopAt = none → Gives (.periodBoundary die u) s fun t =>
    ((t.unit die u).running = true ∧ (t.unit die u).boundary = (s.unit die u).nextB) ∧ Frame [.reg 0x2402, .reg 0x2444,
      .reg 0x2810, .reg 0x2833, .reg 0x3101, .reg 0x6000, .reg 0x6010, .reg 0x6012, .chans, .units, .slots, .engines,
      .dies, .adcs, .trail, .lane, .flight] s t) ∧
  (∀ (die u x : Nat) (s : State), s.unitPop die u = true → (s.die die).halted = false → (s.unit die u).running = true →
    (s.unit die u).nextFine ≤ s.fine die → (s.unit die u).stopAt = some x →
      32 * ((x : Int) + 256) ≤ (s.unit die u).nextFine →
    Gives (.periodBoundary die u) s fun t =>
    ((t.unit die u).running = false ∧ (t.unit die u).on = false ∧ (t.unit die u).stopAt = none) ∧ Frame [.reg 0x2402,
      .reg 0x2444, .reg 0x2810, .reg 0x2833, .reg 0x3101, .reg 0x6000, .reg 0x6010, .reg 0x6012, .chans, .units, .slots,
      .engines, .dies, .adcs, .trail, .lane, .flight] s t) ∧
  (∀ (die u : Nat) (set : Machine.PSet) (s : State), (s.unit die u).midSet (s.midMode die u) = some set → s.unitPop die u = true →
    (s.unit die u).running = true → (s.die die).halted = false → (s.unit die u).midFine ≤ s.fine die →
    Gives (.midPeriodUpdate die u) s fun t =>
    ((t.unit die u).active = set ∧ (t.unit die u).commit = none ∧ (t.unit die u).clip = set.clips) ∧ Frame [.reg 0x2833,
      .units, .adcs] s t) ∧
  (∀ (die u : Nat) (k : Ask) (s : State), s.nextAsk die u = some k → s.unitPop die u = true → s.unitLatched die u = false →
    (s.die die).halted = false → k.time ≤ s.fine die + 8192 → Gives (.edgeDecision die u) s fun t =>
    ((t.unit die u).decided = (if k.rank = 2 then k.key + 1 else k.key)) ∧ Frame [.reg 0x2833, .units, .adcs] s t) ∧
  (∀ (src : Src) (c v : Nat) (s : State), s.Accepts src 0x2831 4 [c] v hostOwns → Gives (.commit src c v) s fun t =>
    ((t.unit (dieOf c) (localOf c)).committed = true ∧
      (t.unit (dieOf c) (localOf c)).commit = some ((s.unit (dieOf c) (localOf c)).staged, s.cnt (dieOf c) + 256)) ∧
      Frame [.reg 0x1200, .reg 0x1210, .reg 0x1310, .reg 0x3101, .units, .dies, .net] s t) ∧
  (∀ (die u : Nat) (s : State), s.unitPop die u = true → s.unitLatched die u = false → Gives (.outputStart die u) s fun t =>
    (if (s.unit die u).running = true then ((s.unit die u).stopAt.isSome = true → (t.unit die u).restart = true)
    else if (s.unit die u).starting = true then t.unit die u = s.unit die u else (t.unit die u).startAt = some (s.cnt die)) ∧
      Frame [.units] s t) ∧
  (∀ (die u : Nat) (s : State), s.unitPop die u = true → Gives (.outputStop die u) s fun t =>
    (if (s.unit die u).running = true ∨ (s.unit die u).starting = true then
       ((s.unit die u).stopAt = none → (t.unit die u).stopAt = some (s.cnt die) ∧ (t.unit die u).committed = false)
    else (t.unit die u).startAt = none) ∧ Frame [.units] s t)

/-- Releases, jobs and faults of the loop engines, and descriptor and curve table loads (R111, R127, R128, R124, R122,
R126, R121). Derived from these rules: each clause says when its command is carried out, the state it then answers,
and the parts of the state outside which nothing changes. Some clauses rest on readings or choices of the model: log
13 (checks of a descriptor), 169 (when a job enters its deque, the thief's scan). A reset, a start or a plain write
may set any register, so a FrameHidden clause frames the rest of the state. -/
def Obligations.ReleasesJobsDescriptors : Prop :=
  (∀ (die k : Nat) (given : List Sample) (s : State), s.slotActive die k = true → s.relDue die k = true →
    Gives (.release die k given) s fun t =>
    (t = s.release die k given ∧ (t.slot die k).lastRel = some (s.relCount die k)) ∧ Frame [.reg 0x2402, .reg 0x2444,
      .reg 0x2503, .reg 0x2810, .reg 0x3040, .reg 0x3101, .reg 0x341A, .reg 0x3420, .reg 0x344E, .reg 0x344F,
      .reg 0x3450, .reg 0x3457, .reg 0x6000, .reg 0x6010, .reg 0x6012, .chans, .units, .slots, .engines, .dies, .bldc,
      .axes, .power, .trail, .lane, .flight, .free] s t) ∧
  (∀ (die e v x : Nat) (j : Job) (u : State) (s : State), s.diePop die = true → e < engineCount die → (s.eng die e).job = none →
    (s.die die).halted = false → s.takeUpTo die e = u → (u.eng die e).claim = some (v, j, x) →
      Gives (.jobStart die e) s fun t =>
    ((t.eng die e).job = some ⟨j.slot, (t.eng die e).job.elim 0 (·.desc), j.release, j.at', e != v⟩ ∧
      (t.eng die e).began = x ∧ (t.eng die e).pc = 0 ∧ (t.eng die e).ended = false ∧ (t.eng die e).claim = none ∧
      (t.slot die j.slot).busy = true ∧ (t.slot die j.slot).seq = (u.slot die j.slot).seq + 1) ∧ Frame [.reg 0x2402,
      .reg 0x2403, .reg 0x2501, .chans, .slots, .engines, .free] s t) ∧
  (∀ (die e : Nat) (j : RunJob) (s : State), (s.eng die e).job = some j → (s.die die).halted = false →
      (s.eng die e).ran = true →
    s.hasCome die ((s.eng die e).endsAt die) = true → Gives (.jobEnd die e) s fun t =>
    ((t.eng die e).job = none ∧ (t.eng die e).wakeAt = some ((s.eng die e).endsAt die)) ∧ Frame [.reg 0x2402,
      .reg 0x2403, .reg 0x2444, .reg 0x2445, .reg 0x2502, .reg 0x2504, .reg 0x2810, .reg 0x2833, .reg 0x3040,
      .reg 0x3070, .reg 0x3101, .reg 0x3102, .reg 0x3103, .reg 0x3105, .reg 0x341A, .reg 0x341C, .reg 0x3421,
      .reg 0x3441, .reg 0x344D, .reg 0x344E, .reg 0x344F, .reg 0x3450, .reg 0x3454, .reg 0x3455, .reg 0x6000,
      .reg 0x6010, .reg 0x6012, .chans, .units, .slots, .engines, .dies, .bldc, .axes, .power, .trail, .lane, .flight,
      .free] s t) ∧
  (∀ (die e : Nat) (k : EngFault) (j : RunJob) (s : State), (s.eng die e).job = some j →
    (k = .ecc ∨ s.descW die j.desc < (s.eng die e).cycles) → Gives (.engineFault die e k) s fun t =>
    ((t.eng die e).job = none ∧ (t.slot die j.slot).busy = false ∧ ∀ c, chanSlot die j.slot = some c →
      t.latched c = true) ∧ Frame [.reg 0x2402, .reg 0x2444, .reg 0x2810, .reg 0x3040, .reg 0x3101, .reg 0x341A,
      .reg 0x3420, .reg 0x344E, .reg 0x344F, .reg 0x3450, .reg 0x3457, .reg 0x6000, .reg 0x6010, .reg 0x6012, .chans,
      .units, .slots, .engines, .dies, .bldc, .axes, .power, .trail, .lane, .flight, .free] s t) ∧
  (∀ (src : Src) (die : Nat) (b : List Byte) (s : State), die ≤ 6 →
      s.AcceptsBlob src 0x2505 1 [dieI die] b (descriptorCheck b) →
    Gives (.descriptorLoad src die b) s fun t =>
    (t.desc die (hdrId b) = ⟨hdrKind b, hdrLen b, hdrW b, opWords b, true⟩ ∧
      t.rd 0x2505 3 (dieI die) = s.libraryRoom die (hdrId b) - descSize (hdrLen b)) ∧ Frame [.reg 0x1200, .reg 0x1210,
      .reg 0x1310, .reg 0x2505, .reg 0x3101, .units, .dies, .descs, .net] s t) ∧
  (∀ (src : Src) (die id : Nat) (s : State), die ≤ 6 → s.Accepts src 0x2505 2 [dieI die] id (removeCheck id) →
    Gives (.descriptorRemove src die id) s fun t => ((t.desc die id).loaded = false) ∧ FrameHidden [.units, .slots,
      .dies, .descs, .net, .trail] s t) ∧
  (∀ (src : Src) (die k : Nat) (b : List Byte) (s : State),
    s.AcceptsBlob src 0x2507 (k + 1) [dieI die] b (curveCheck 0x2507 (k + 1) b) →
      Gives (.curveTableLoad src die k b) s fun t =>
    (t.rdB 0x2507 (k + 1) (dieI die) = b) ∧ Frame [.reg 0x1200, .reg 0x1210, .reg 0x1310, .reg 0x3101, .blob 0x2507,
      .units, .dies, .net] s t)

/-- Micro-operations NOP to MOV of a running job (R116). Derived from these rules: each clause says when its command
is carried out, the state it then answers, and the parts of the state outside which nothing changes. Some clauses rest
on readings or choices of the model: log 20 (each fetched micro-op is a command), 9 (LDP of a slot without a row). -/
def Obligations.MicroOpLoads : Prop :=
  (∀ (die e : Nat) (j : RunJob) (op : Word) (s : State), s.Computes die e (.nop die e) j op → Gives (.nop die e) s fun t =>
    ((t.eng die e = { s.eng die e with pc := (s.eng die e).pc + 1, cycles := (s.eng die e).cycles + opCycles 0x00 }) ∧
    OnlyEngine die e s t) ∧ Frame [.engines] s t) ∧
  (∀ (die e : Nat) (j : RunJob) (op : Word) (s : State), s.fetched die e = some (j, op) →
    (s.desc die j.desc).w < (s.eng die e).cycles + opCycles (opOf op) → Gives (microOf die e op) s fun t =>
    (t.eng die e = { s.eng die e with cycles := (s.eng die e).cycles + opCycles (opOf op) } ∧ OnlyEngine die e s t) ∧
      Frame [.engines] s t) ∧
  (∀ (die e d tag : Nat) (j : RunJob) (op : Word) (s : State), s.Computes die e (.lds die e d tag) j op →
      Gives (.lds die e d tag) s fun t =>
    (((t.eng die e).reg d = wrap32 ((s.slot die j.slot).sample tag).value ∧
      (((s.slot die j.slot).sample tag).fresh = false → (t.eng die e).flags.st = true ∧
        (t.slot die j.slot).staleReads = (s.slot die j.slot).staleReads + 1) ∧ (t.eng die e).pc = (s.eng die e).pc + 1 ∧
      (t.eng die e).cycles = (s.eng die e).cycles + opCycles 0x01) ∧
    OnlyEngine die e s t ∧ OnlySlot die j.slot s t ∧
    (s.eng die e).OnlyReg d (t.eng die e) ∧
    t.eng die e = { s.eng die e with
        w := (t.eng die e).w, flags := (t.eng die e).flags, pc := (t.eng die e).pc, cycles := (t.eng die e).cycles }) ∧ Frame [.slots, .engines] s t) ∧
  (∀ (die e d n c : Nat) (j : RunJob) (op : Word) (s : State), s.Computes die e (.ldp die e d n) j op →
      chanSlot die j.slot = some c → Gives (.ldp die e d n) s fun t =>
    (((t.eng die e).reg d = s32 (s.rowNow c n) ∧ (t.eng die e).pc = (s.eng die e).pc + 1 ∧
      (t.eng die e).cycles = (s.eng die e).cycles + opCycles 0x02) ∧
    OnlyEngine die e s t ∧
    (s.eng die e).OnlyReg d (t.eng die e) ∧
    t.eng die e = { s.eng die e with w := (t.eng die e).w, pc := (t.eng die e).pc, cycles := (t.eng die e).cycles }) ∧
      Frame [.engines, .free] s t) ∧
  (∀ (die e d w : Nat) (j : RunJob) (op : Word) (s : State), s.Computes die e (.ldw die e d w) j op →
      Gives (.ldw die e d w) s fun t =>
    (((t.eng die e).reg d = (s.eng die e).word w ∧ (t.eng die e).pc = (s.eng die e).pc + 1 ∧
      (t.eng die e).cycles = (s.eng die e).cycles + opCycles 0x03) ∧
    OnlyEngine die e s t ∧
    (s.eng die e).OnlyReg d (t.eng die e) ∧
    t.eng die e = { s.eng die e with w := (t.eng die e).w, pc := (t.eng die e).pc, cycles := (t.eng die e).cycles }) ∧
      Frame [.engines] s t) ∧
  (∀ (die e a w : Nat) (j : RunJob) (op : Word) (s : State), s.Computes die e (.stw die e a w) j op →
      Gives (.stw die e a w) s fun t =>
    (((t.eng die e).word w = (if 8 ≤ w then (s.eng die e).reg a else (s.eng die e).word w) ∧
      (t.eng die e).pc = (s.eng die e).pc + 1 ∧ (t.eng die e).cycles = (s.eng die e).cycles + opCycles 0x04) ∧
    OnlyEngine die e s t ∧
    (s.eng die e).OnlyWords [w] (t.eng die e) ∧
    t.eng die e = { s.eng die e with
        words := (t.eng die e).words, pc := (t.eng die e).pc, cycles := (t.eng die e).cycles }) ∧ Frame [.engines] s t) ∧
  (∀ (die e d : Nat) (imm : BitVec 24) (j : RunJob) (op : Word) (s : State), s.Computes die e (.ldi die e d imm) j op →
      Gives (.ldi die e d imm) s fun t =>
    (((t.eng die e).reg d = imm.toInt ∧ (t.eng die e).pc = (s.eng die e).pc + 1 ∧
      (t.eng die e).cycles = (s.eng die e).cycles + opCycles 0x05) ∧
    OnlyEngine die e s t ∧
    (s.eng die e).OnlyReg d (t.eng die e) ∧
    t.eng die e = { s.eng die e with w := (t.eng die e).w, pc := (t.eng die e).pc, cycles := (t.eng die e).cycles }) ∧
      Frame [.engines] s t) ∧
  (∀ (die e d : Nat) (imm : BitVec 16) (j : RunJob) (op : Word) (s : State), s.Computes die e (.ldh die e d imm) j op →
      Gives (.ldh die e d imm) s fun t =>
    (((t.eng die e).reg d = (imm ++ BitVec.ofInt 16 ((s.eng die e).reg d) : BitVec 32).toInt ∧
      (t.eng die e).pc = (s.eng die e).pc + 1 ∧ (t.eng die e).cycles = (s.eng die e).cycles + opCycles 0x06) ∧
    OnlyEngine die e s t ∧
    (s.eng die e).OnlyReg d (t.eng die e) ∧
    t.eng die e = { s.eng die e with w := (t.eng die e).w, pc := (t.eng die e).pc, cycles := (t.eng die e).cycles }) ∧
      Frame [.engines] s t) ∧
  (∀ (die e d a : Nat) (j : RunJob) (op : Word) (s : State), s.Computes die e (.mov die e d a) j op →
      Gives (.mov die e d a) s fun t =>
    (((t.eng die e).reg d = (s.eng die e).reg a ∧ (t.eng die e).pc = (s.eng die e).pc + 1 ∧
      (t.eng die e).cycles = (s.eng die e).cycles + opCycles 0x07) ∧
    OnlyEngine die e s t ∧
    (s.eng die e).OnlyReg d (t.eng die e) ∧
    t.eng die e = { s.eng die e with w := (t.eng die e).w, pc := (t.eng die e).pc, cycles := (t.eng die e).cycles }) ∧
      Frame [.engines] s t)

/-- Micro-operations ADD to LIM of a running job (R117, R116). Derived from these rules: each clause says when its
command is carried out, the state it then answers, and the parts of the state outside which nothing changes. Some
clauses rest on readings or choices of the model: log 20 (each fetched micro-op is a command). -/
def Obligations.MicroOpArithmetic : Prop :=
  (∀ (die e d a b : Nat) (j : RunJob) (op : Word) (s : State), s.Computes die e (.add die e d a b) j op →
      Gives (.add die e d a b) s fun t =>
    (((t.eng die e).reg d = sat32 ((s.eng die e).reg a + (s.eng die e).reg b) ∧
      (t.eng die e).flags = (s.eng die e).flags.sat ((s.eng die e).reg a + (s.eng die e).reg b) (sat32 ((s.eng die e).reg a + (s.eng die e).reg b)) ∧
      (t.eng die e).pc = (s.eng die e).pc + 1 ∧ (t.eng die e).cycles = (s.eng die e).cycles + opCycles 0x08) ∧
    OnlyEngine die e s t ∧
    (s.eng die e).OnlyReg d (t.eng die e) ∧
    t.eng die e = { s.eng die e with
        w := (t.eng die e).w, flags := (t.eng die e).flags, pc := (t.eng die e).pc, cycles := (t.eng die e).cycles }) ∧ Frame [.engines] s t) ∧
  (∀ (die e d a b : Nat) (j : RunJob) (op : Word) (s : State), s.Computes die e (.sub die e d a b) j op →
      Gives (.sub die e d a b) s fun t =>
    (((t.eng die e).reg d = sat32 ((s.eng die e).reg a - (s.eng die e).reg b) ∧
      (t.eng die e).flags = (s.eng die e).flags.sat ((s.eng die e).reg a - (s.eng die e).reg b) (sat32 ((s.eng die e).reg a - (s.eng die e).reg b)) ∧
      (t.eng die e).pc = (s.eng die e).pc + 1 ∧ (t.eng die e).cycles = (s.eng die e).cycles + opCycles 0x09) ∧
    OnlyEngine die e s t ∧
    (s.eng die e).OnlyReg d (t.eng die e) ∧
    t.eng die e = { s.eng die e with
        w := (t.eng die e).w, flags := (t.eng die e).flags, pc := (t.eng die e).pc, cycles := (t.eng die e).cycles }) ∧ Frame [.engines] s t) ∧
  (∀ (die e k a b : Nat) (j : RunJob) (op : Word) (s : State), s.Computes die e (.mul die e k a b) j op →
      Gives (.mul die e k a b) s fun t =>
    (((t.eng die e).acc k = satAcc (mulQ ((s.eng die e).reg a) ((s.eng die e).reg b)) ∧
      (t.eng die e).flags = (s.eng die e).flags.sat (mulQ ((s.eng die e).reg a) ((s.eng die e).reg b)) (satAcc (mulQ ((s.eng die e).reg a) ((s.eng die e).reg b))) ∧
      (t.eng die e).pc = (s.eng die e).pc + 1 ∧ (t.eng die e).cycles = (s.eng die e).cycles + opCycles 0x0A) ∧
    OnlyEngine die e s t ∧
    (s.eng die e).OnlyAcc k (t.eng die e) ∧
    t.eng die e = { s.eng die e with
        acc0 := (t.eng die e).acc0, acc1 := (t.eng die e).acc1, flags := (t.eng die e).flags, pc := (t.eng die e).pc, cycles := (t.eng die e).cycles }) ∧ Frame [.engines] s t) ∧
  (∀ (die e k a b : Nat) (j : RunJob) (op : Word) (s : State), s.Computes die e (.mac die e k a b) j op →
      Gives (.mac die e k a b) s fun t =>
    (((t.eng die e).acc k = satAcc ((s.eng die e).acc k + mulQ ((s.eng die e).reg a) ((s.eng die e).reg b)) ∧
      (t.eng die e).flags = (s.eng die e).flags.sat ((s.eng die e).acc k + mulQ ((s.eng die e).reg a) ((s.eng die e).reg b)) (satAcc ((s.eng die e).acc k + mulQ ((s.eng die e).reg a) ((s.eng die e).reg b))) ∧
      (t.eng die e).pc = (s.eng die e).pc + 1 ∧ (t.eng die e).cycles = (s.eng die e).cycles + opCycles 0x0B) ∧
    OnlyEngine die e s t ∧
    (s.eng die e).OnlyAcc k (t.eng die e) ∧
    t.eng die e = { s.eng die e with
        acc0 := (t.eng die e).acc0, acc1 := (t.eng die e).acc1, flags := (t.eng die e).flags, pc := (t.eng die e).pc, cycles := (t.eng die e).cycles }) ∧ Frame [.engines] s t) ∧
  (∀ (die e k a : Nat) (j : RunJob) (op : Word) (s : State), s.Computes die e (.acc die e k a) j op →
      Gives (.acc die e k a) s fun t =>
    (((t.eng die e).acc k = satAcc ((s.eng die e).reg a) ∧
      (t.eng die e).flags = (s.eng die e).flags.sat ((s.eng die e).reg a) (satAcc ((s.eng die e).reg a)) ∧
      (t.eng die e).pc = (s.eng die e).pc + 1 ∧ (t.eng die e).cycles = (s.eng die e).cycles + opCycles 0x0C) ∧
    OnlyEngine die e s t ∧
    (s.eng die e).OnlyAcc k (t.eng die e) ∧
    t.eng die e = { s.eng die e with
        acc0 := (t.eng die e).acc0, acc1 := (t.eng die e).acc1, flags := (t.eng die e).flags, pc := (t.eng die e).pc, cycles := (t.eng die e).cycles }) ∧ Frame [.engines] s t) ∧
  (∀ (die e d k : Nat) (j : RunJob) (op : Word) (s : State), s.Computes die e (.sta die e d k) j op →
      Gives (.sta die e d k) s fun t =>
    (((t.eng die e).reg d = sat32 ((s.eng die e).acc k) ∧
      (t.eng die e).flags = (s.eng die e).flags.sat ((s.eng die e).acc k) (sat32 ((s.eng die e).acc k)) ∧
      (t.eng die e).pc = (s.eng die e).pc + 1 ∧ (t.eng die e).cycles = (s.eng die e).cycles + opCycles 0x0D) ∧
    OnlyEngine die e s t ∧
    (s.eng die e).OnlyReg d (t.eng die e) ∧
    t.eng die e = { s.eng die e with
        w := (t.eng die e).w, flags := (t.eng die e).flags, pc := (t.eng die e).pc, cycles := (t.eng die e).cycles }) ∧ Frame [.engines] s t) ∧
  (∀ (die e d a b : Nat) (j : RunJob) (op : Word) (s : State), s.Computes die e (.min die e d a b) j op →
      Gives (.min die e d a b) s fun t =>
    (((t.eng die e).reg d = (if (s.eng die e).reg a ≤ (s.eng die e).reg b then (s.eng die e).reg a else (s.eng die e).reg b) ∧
      (t.eng die e).pc = (s.eng die e).pc + 1 ∧ (t.eng die e).cycles = (s.eng die e).cycles + opCycles 0x0E) ∧
    OnlyEngine die e s t ∧
    (s.eng die e).OnlyReg d (t.eng die e) ∧
    t.eng die e = { s.eng die e with w := (t.eng die e).w, pc := (t.eng die e).pc, cycles := (t.eng die e).cycles }) ∧
      Frame [.engines] s t) ∧
  (∀ (die e d a b : Nat) (j : RunJob) (op : Word) (s : State), s.Computes die e (.max die e d a b) j op →
      Gives (.max die e d a b) s fun t =>
    (((t.eng die e).reg d = (if (s.eng die e).reg a ≤ (s.eng die e).reg b then (s.eng die e).reg b else (s.eng die e).reg a) ∧
      (t.eng die e).pc = (s.eng die e).pc + 1 ∧ (t.eng die e).cycles = (s.eng die e).cycles + opCycles 0x0F) ∧
    OnlyEngine die e s t ∧
    (s.eng die e).OnlyReg d (t.eng die e) ∧
    t.eng die e = { s.eng die e with w := (t.eng die e).w, pc := (t.eng die e).pc, cycles := (t.eng die e).cycles }) ∧
      Frame [.engines] s t) ∧
  (∀ (die e d a w : Nat) (j : RunJob) (op : Word) (s : State), s.Computes die e (.lim die e d a w) j op →
      Gives (.lim die e d a w) s fun t =>
    (((t.eng die e).reg d = clampI ((s.eng die e).word w) ((s.eng die e).word (w + 1)) ((s.eng die e).reg a) ∧
      (t.eng die e).flags = (s.eng die e).flags.lim ((s.eng die e).word w) ((s.eng die e).word (w + 1)) ((s.eng die e).reg a) ∧
      (t.eng die e).pc = (s.eng die e).pc + 1 ∧ (t.eng die e).cycles = (s.eng die e).cycles + opCycles 0x10) ∧
    OnlyEngine die e s t ∧
    (s.eng die e).OnlyReg d (t.eng die e) ∧
    t.eng die e = { s.eng die e with
        w := (t.eng die e).w, flags := (t.eng die e).flags, pc := (t.eng die e).pc, cycles := (t.eng die e).cycles }) ∧ Frame [.engines] s t)

/-- Micro-operations SHF to CMP of a running job (R116, R118, R121). Derived from these rules: each clause says when
its command is carried out, the state it then answers, and the parts of the state outside which nothing changes. Some
clauses rest on readings or choices of the model: log 20 (each fetched micro-op is a command), 9 (BQD, DIV and curve
rounding are free values). -/
def Obligations.MicroOpFilters : Prop :=
  (∀ (die e d a : Nat) (n : BitVec 6) (j : RunJob) (op : Word) (s : State), s.Computes die e (.shf die e d a n) j op →
      Gives (.shf die e d a n) s fun t =>
    (((t.eng die e).reg d = sat32 (shiftBy ((s.eng die e).reg a) n.toInt) ∧
      (t.eng die e).flags = (s.eng die e).flags.sat (shiftBy ((s.eng die e).reg a) n.toInt) (sat32 (shiftBy ((s.eng die e).reg a) n.toInt)) ∧
      (t.eng die e).pc = (s.eng die e).pc + 1 ∧ (t.eng die e).cycles = (s.eng die e).cycles + opCycles 0x11) ∧
    OnlyEngine die e s t ∧
    (s.eng die e).OnlyReg d (t.eng die e) ∧
    t.eng die e = { s.eng die e with
        w := (t.eng die e).w, flags := (t.eng die e).flags, pc := (t.eng die e).pc, cycles := (t.eng die e).cycles }) ∧ Frame [.engines] s t) ∧
  (∀ (die e d a w : Nat) (j : RunJob) (op : Word) (s : State), s.Computes die e (.flt die e d a w) j op →
      Gives (.flt die e d a w) s fun t =>
    (((t.eng die e).reg d = sat32 ((s.eng die e).word (w + 1) + mulQ ((s.eng die e).reg a - (s.eng die e).word (w + 1)) ((s.eng die e).word w)) ∧
      (t.eng die e).word (w + 1) = sat32 ((s.eng die e).word (w + 1) + mulQ ((s.eng die e).reg a - (s.eng die e).word (w + 1)) ((s.eng die e).word w)) ∧
      (t.eng die e).pc = (s.eng die e).pc + 1 ∧ (t.eng die e).cycles = (s.eng die e).cycles + opCycles 0x12) ∧
    OnlyEngine die e s t ∧
    (s.eng die e).OnlyReg d (t.eng die e) ∧
    (s.eng die e).OnlyWords [w + 1] (t.eng die e) ∧
    t.eng die e = { s.eng die e with
        w := (t.eng die e).w, words := (t.eng die e).words, flags := (t.eng die e).flags, pc := (t.eng die e).pc, cycles := (t.eng die e).cycles }) ∧ Frame [.engines] s t) ∧
  (∀ (die e d a w : Nat) (j : RunJob) (op : Word) (s : State), s.Computes die e (.bqd die e d a w) j op →
      Gives (.bqd die e d a w) s fun t =>
    ((((t.eng die e).reg d = sat32 (Config.biquad ((List.range 5).map fun k => (s.eng die e).word (w + k)) [(s.eng die e).word (w + 5), (s.eng die e).word (w + 6)] ((s.eng die e).reg a)).1 ∧
      (t.eng die e).word (w + 5) = sat32 (Config.biquad ((List.range 5).map fun k => (s.eng die e).word (
      w + k)) [(s.eng die e).word (w + 5), (s.eng die e).word (w + 6)] ((s.eng die e).reg a)).2.1 ∧
      (t.eng die e).word (w + 6) = sat32 (Config.biquad ((List.range 5).map fun k => (s.eng die e).word (w + k)) [(s.eng die e).word (w + 5), (s.eng die e).word (w + 6)] ((s.eng die e).reg a)).2.2) ∧
      (t.eng die e).pc = (s.eng die e).pc + 1 ∧ (t.eng die e).cycles = (s.eng die e).cycles + opCycles 0x13) ∧
    OnlyEngine die e s t ∧
    (s.eng die e).OnlyReg d (t.eng die e) ∧
    (s.eng die e).OnlyWords [w + 5, w + 6] (t.eng die e) ∧
    t.eng die e = { s.eng die e with
        w := (t.eng die e).w, words := (t.eng die e).words, flags := (t.eng die e).flags, pc := (t.eng die e).pc, cycles := (t.eng die e).cycles }) ∧ Frame [.engines] s t) ∧
  (∀ (die e d a w : Nat) (j : RunJob) (op : Word) (s : State), s.Computes die e (.pi die e d a w) j op →
      Gives (.pi die e d a w) s fun t =>
    (((t.eng die e).reg d = sat32 (mulQ ((s.eng die e).word w) ((s.eng die e).reg a) + (s.eng die e).word (w + 2)) ∧
      (t.eng die e).word (w + 2) = (if (s.eng die e).flags.piHeld ((s.eng die e).reg a) = true then (s.eng die e).word (
      w + 2)
        else sat32 ((s.eng die e).word (w + 2) + mulQ ((s.eng die e).word (w + 1)) ((s.eng die e).reg a))) ∧
      (t.eng die e).pc = (s.eng die e).pc + 1 ∧ (t.eng die e).cycles = (s.eng die e).cycles + opCycles 0x14) ∧
    OnlyEngine die e s t ∧
    (s.eng die e).OnlyReg d (t.eng die e) ∧
    (s.eng die e).OnlyWords [w + 2] (t.eng die e) ∧
    t.eng die e = { s.eng die e with
        w := (t.eng die e).w, words := (t.eng die e).words, flags := (t.eng die e).flags, pc := (t.eng die e).pc, cycles := (t.eng die e).cycles }) ∧ Frame [.engines] s t) ∧
  (∀ (die e d a b : Nat) (j : RunJob) (op : Word) (s : State), s.Computes die e (.div die e d a b) j op →
      Gives (.div die e d a b) s fun t =>
    (((t.eng die e).reg d = sat32 (divValue ((s.eng die e).reg a) ((s.eng die e).reg b)) ∧
      (t.eng die e).flags = (let f := (s.eng die e).flags.sat (divValue ((s.eng die e).reg a) ((s.eng die e).reg b)) (sat32 (divValue ((s.eng die e).reg a) ((s.eng die e).reg b))); if (s.eng die e).reg b = 0 then { f with ovf := true } else f) ∧
      (t.eng die e).pc = (s.eng die e).pc + 1 ∧ (t.eng die e).cycles = (s.eng die e).cycles + opCycles 0x15) ∧
    OnlyEngine die e s t ∧
    (s.eng die e).OnlyReg d (t.eng die e) ∧
    t.eng die e = { s.eng die e with
        w := (t.eng die e).w, flags := (t.eng die e).flags, pc := (t.eng die e).pc, cycles := (t.eng die e).cycles }) ∧ Frame [.engines] s t) ∧
  (∀ (die e d a k : Nat) (j : RunJob) (op : Word) (s : State), s.Computes die e (.crv die e d a k) j op →
      Gives (.crv die e d a k) s fun t =>
    (((t.eng die e).reg d = curveAt (s.rdB 0x2507 (k + 1) (dieI die)) ((s.eng die e).reg a) ∧
      (t.eng die e).pc = (s.eng die e).pc + 1 ∧ (t.eng die e).cycles = (s.eng die e).cycles + opCycles 0x16) ∧
    OnlyEngine die e s t ∧
    (s.eng die e).OnlyReg d (t.eng die e) ∧
    t.eng die e = { s.eng die e with
        w := (t.eng die e).w, flags := (t.eng die e).flags, pc := (t.eng die e).pc, cycles := (t.eng die e).cycles }) ∧ Frame [.engines] s t) ∧
  (∀ (die e a b : Nat) (j : RunJob) (op : Word) (s : State), s.Computes die e (.cmp die e a b) j op →
      Gives (.cmp die e a b) s fun t =>
    (((t.eng die e).flags = (s.eng die e).flags.cmp ((s.eng die e).reg a) ((s.eng die e).reg b) ∧
      (t.eng die e).pc = (s.eng die e).pc + 1 ∧ (t.eng die e).cycles = (s.eng die e).cycles + opCycles 0x17) ∧
    OnlyEngine die e s t ∧
    t.eng die e = { s.eng die e with
        flags := (t.eng die e).flags, pc := (t.eng die e).pc, cycles := (t.eng die e).cycles }) ∧ Frame [.engines] s t)

/-- Micro-operations BR to YLD of a running job (R116, R173, R119, R120). Derived from these rules: each clause says
when its command is carried out, the state it then answers, and the parts of the state outside which nothing changes.
Some clauses rest on readings or choices of the model: log 20 (each fetched micro-op is a command). -/
def Obligations.MicroOpControl : Prop :=
  (∀ (die e cond off : Nat) (j : RunJob) (op : Word) (s : State), s.Computes die e (.br die e cond off) j op →
      Gives (.br die e cond off) s fun t =>
    (((t.eng die e).pc = (s.eng die e).pc + 1 + (if (s.eng die e).flags.holds cond = true then off else 0) ∧
      (t.eng die e).cycles = (s.eng die e).cycles + opCycles 0x18) ∧
    OnlyEngine die e s t ∧
    t.eng die e = { s.eng die e with pc := (t.eng die e).pc, cycles := (t.eng die e).cycles }) ∧ Frame [.engines] s t) ∧
  (∀ (die e : Nat) (j : RunJob) (op : Word) (s : State), s.Computes die e (.trm die e) j op → Gives (.trm die e) s fun t =>
    (((t.eng die e).pc = (s.eng die e).pc + 1 ∧ (t.eng die e).cycles = (s.eng die e).cycles + opCycles 0x19 ∧
      ∀ c, chanSlot die j.slot = some c → s.runState c = 2 → s.slave c = false →
        (t.chan c).run.holds = (s.condResults c).map (fun x => x.2.1)) ∧
    OnlyEngine die e s t ∧
    t.eng die e = { s.eng die e with pc := (t.eng die e).pc, cycles := (t.eng die e).cycles }) ∧ Frame [.chans, .engines] s t) ∧
  (∀ (die e g a : Nat) (j : RunJob) (op : Word) (s : State), s.Computes die e (.edg die e g a) j op →
      Gives (.edg die e g a) s fun t =>
    (((s.hostOwned die j.slot = false → (t.eng die e).staged = (s.eng die e).staged ++ [some (g, (s.eng die e).reg a)]) ∧
      (s.hostOwned die j.slot = true → (t.eng die e).staged = (s.eng die e).staged ∧
        t.rd 0x2833 7 (chanOf die j.slot) = (s.rd 0x2833 7 (chanOf die j.slot) + 1) % 2 ^ 32) ∧
      (t.eng die e).pc = (s.eng die e).pc + 1 ∧ (t.eng die e).cycles = (s.eng die e).cycles + opCycles 0x1A) ∧
    OnlyEngine die e s t ∧
    t.eng die e = { s.eng die e with
        staged := (t.eng die e).staged, pc := (t.eng die e).pc, cycles := (t.eng die e).cycles }) ∧ Frame [.reg 0x2833, .engines] s t) ∧
  (∀ (die e : Nat) (j : RunJob) (op : Word) (s : State), s.Computes die e (.cmt die e) j op → Gives (.cmt die e) s fun t =>
    (((s.hostOwned die j.slot = false → (t.eng die e).staged = (s.eng die e).staged ++ [none]) ∧
      (s.hostOwned die j.slot = true → (t.eng die e).staged = (s.eng die e).staged ∧
        t.rd 0x2833 7 (chanOf die j.slot) = (s.rd 0x2833 7 (chanOf die j.slot) + 1) % 2 ^ 32) ∧
      (t.eng die e).pc = (s.eng die e).pc + 1 ∧ (t.eng die e).cycles = (s.eng die e).cycles + opCycles 0x1B) ∧
    OnlyEngine die e s t ∧
    t.eng die e = { s.eng die e with
        staged := (t.eng die e).staged, pc := (t.eng die e).pc, cycles := (t.eng die e).cycles }) ∧ Frame [.reg 0x2833, .engines] s t) ∧
  (∀ (die e code : Nat) (j : RunJob) (op : Word) (s : State), s.Computes die e (.lat die e code) j op →
      Gives (.lat die e code) s fun t =>
    ((t.eng die e).ended = true ∧ (∀ c, chanSlot die j.slot = some c → t.latched c = true) ∧
      (t.eng die e).pc = (s.eng die e).pc + 1 ∧ (t.eng die e).cycles = (s.eng die e).cycles + opCycles 0x1C) ∧
      Frame [.reg 0x2402, .reg 0x2444, .reg 0x2810, .reg 0x3040, .reg 0x3101, .reg 0x341A, .reg 0x3420, .reg 0x344E,
      .reg 0x344F, .reg 0x3450, .reg 0x3457, .reg 0x6000, .reg 0x6010, .reg 0x6012, .chans, .units, .slots, .engines,
      .dies, .bldc, .axes, .power, .trail, .lane, .flight, .free] s t) ∧
  (∀ (die e a k : Nat) (j : RunJob) (op : Word) (s : State), s.Computes die e (.pub die e a k) j op →
      Gives (.pub die e a k) s fun t =>
    (((t.eng die e).pubs = (s.eng die e).pubs ++ [(k, (s.eng die e).reg a)] ∧ (t.eng die e).pc = (s.eng die e).pc + 1 ∧
      (t.eng die e).cycles = (s.eng die e).cycles + opCycles 0x1D) ∧
    OnlyEngine die e s t ∧
    t.eng die e = { s.eng die e with
        pubs := (t.eng die e).pubs, pc := (t.eng die e).pc, cycles := (t.eng die e).cycles }) ∧ Frame [.engines] s t) ∧
  (∀ (die e d k : Nat) (j : RunJob) (op : Word) (s : State), s.Computes die e (.ldg die e d k) j op →
      Gives (.ldg die e d k) s fun t =>
    (((t.eng die e).reg d = look 0 (s.slot die (s.masterSlot die j.slot)).pub k ∧
      (t.eng die e).pc = (s.eng die e).pc + 1 ∧ (t.eng die e).cycles = (s.eng die e).cycles + opCycles 0x1E) ∧
    OnlyEngine die e s t ∧
    (s.eng die e).OnlyReg d (t.eng die e) ∧
    t.eng die e = { s.eng die e with w := (t.eng die e).w, pc := (t.eng die e).pc, cycles := (t.eng die e).cycles }) ∧
      Frame [.engines] s t) ∧
  (∀ (die e : Nat) (j : RunJob) (op : Word) (s : State), s.Computes die e (.yld die e) j op → Gives (.yld die e) s fun t =>
    (((t.eng die e).ended = true ∧ (t.eng die e).pc = (s.eng die e).pc + 1 ∧
      (t.eng die e).cycles = (s.eng die e).cycles + opCycles 0x1F) ∧
    OnlyEngine die e s t ∧
    t.eng die e = { s.eng die e with
        ended := (t.eng die e).ended, pc := (t.eng die e).pc, cycles := (t.eng die e).cycles }) ∧ Frame [.engines] s t)

/-- Stale samples, following error, voltage limit and plausibility latch a channel (R153, R157, R158, R165, R166).
Derived from these rules: each clause says when its command is carried out, the state it then answers, and the parts
of the state outside which nothing changes. -/
def Obligations.ChannelSupervision : Prop :=
  (∀ (c x : Nat) (s : State), s.chanPop c = true → (s.chan c).sup.stale = some x → x + s.rdN 0x2441 5 c * 1000 < s.lt →
    s.latched c = false → Gives (.samplesStale c) s fun t => (t.LatchedBy c 8) ∧ Frame [.reg 0x2402, .reg 0x2444,
      .reg 0x2810, .reg 0x6000, .reg 0x6010, .chans, .units, .slots, .engines, .dies, .trail, .lane, .flight] s t) ∧
  (∀ (c : Nat) (s : State), s.chanPop c = true → (s.chan c).sup.follow.isSome = true → s.rd 0x2441 3 c ≤ s.rd 0x2444 8 c →
    s.latched c = false → Gives (.followingError c) s fun t => (t.LatchedBy c 9) ∧ Frame [.reg 0x2402, .reg 0x2444,
      .reg 0x2810, .reg 0x6000, .reg 0x6010, .chans, .units, .slots, .engines, .dies, .trail, .lane, .flight] s t) ∧
  (∀ (c : Nat) (s : State), s.chanPop c = true → (s.chan c).sup.vLimit.isSome = true → 1000000 ≤ (s.chan c).sup.vRun →
    s.latched c = false → Gives (.voltageLimit c) s fun t => (t.LatchedBy c 10) ∧ Frame [.reg 0x2402, .reg 0x2444,
      .reg 0x2810, .reg 0x6000, .reg 0x6010, .chans, .units, .slots, .engines, .dies, .trail, .lane, .flight] s t) ∧
  (∀ (c : Nat) (s : State), s.chanPop c = true → (s.chan c).sup.disagree.isSome = true → 100 ≤ s.rd 0x2443 4 c →
    s.latched c = false → Gives (.plausibilityFault c) s fun t =>
    (t.LatchedBy c 11 ∧ bit (t.rdN 0x2443 1 c) 2 = true ∧ t.rd 0x2443 5 c = (s.rd 0x2443 5 c + 1) % 2 ^ 32) ∧
      Frame [.reg 0x2402, .reg 0x2443, .reg 0x2444, .reg 0x2810, .reg 0x6000, .reg 0x6010, .chans, .units, .slots,
      .engines, .dies, .trail, .lane, .flight] s t) ∧
  (∀ (c x : Nat) (s : State), s.chanPop c = true → (s.chan c).sup.noMirror = some x → x + 1000000000 ≤ s.lt →
    (s.switching c = true ∨ s.resting c = true) → bit (s.rdN 0x2443 1 c) 3 = false →
      Gives (.plausibilityUnavailable c) s fun t =>
    (bit (t.rdN 0x2443 1 c) 3 = true ∧ t.rd 0x2443 4 c = 0 ∧ (t.chan c).sup.disagree = none) ∧ Frame [.reg 0x2443,
      .reg 0x6000, .chans, .dies, .trail] s t)

/-- Recipe load, run start, stop and continue, milestones and groups (R182, R186, R188, R185, R190, R195, R196).
Derived from these rules: each clause says when its command is carried out, the state it then answers, and the parts
of the state outside which nothing changes. Some clauses rest on readings or choices of the model: log 148 (start of a
group), 22 (values that a check sees). A reset, a start or a plain write may set any register, so a FrameHidden clause
frames the rest of the state. -/
def Obligations.RecipesAndRuns : Prop :=
  (∀ (src : Src) (first last : Nat) (b : List Byte) (s : State),
    s.AcceptsBlob src 0x2400 1 (chanRange first last) b (recipeCheck b.length) →
      Gives (.recipeLoad src first last b) s fun t =>
    (∀ c ∈ chanRange first last, ∀ r n, r < b.length / 48 → n < 12 →
      t.rd (0x2000 + s.rdN 0x2400 2 c + r) (n + 1) c = fieldAt b (48 * r + 4 * n) 4) ∧ FrameHidden [.units, .dies, .net] s t) ∧
  (∀ (src : Src) (first last : Nat) (s : State), s.Accepts src 0x2401 1 (chanRange first last) 1 startCheck →
    s.writeChecks src 0x2401 1 (chanRange first last) 1 startCheck = none → Gives (.runStart src first last) s fun t =>
    (∀ c ∈ chanRange first last, t.runState c = 1 ∧ t.rd 0x2402 2 c = s.rd 0x2401 2 c ∧ t.rd 0x2402 5 c = 0) ∧
      Frame [.reg 0x1200, .reg 0x1210, .reg 0x1310, .reg 0x2402, .reg 0x2403, .reg 0x2404, .reg 0x2500, .reg 0x3101,
      .reg 0x6000, .clock, .chans, .units, .slots, .dies, .net, .trail, .standbyDue] s t) ∧
  (∀ (src : Src) (c : Nat) (s : State), s.Accepts src 0x2401 1 (chanRange c c) 2 stopCheck → Gives (.runStop src c c) s fun t =>
    ((s.runState (s.master c) = 1 → (t.run (s.master c)).stopAfterCheck = true) ∧
      (s.runState (s.master c) = 2 ∨ s.runState (s.master c) = 3 →
        (t.run (s.master c)).winner.map (·.2) = some .hostStop)) ∧ Frame [.reg 0x1200, .reg 0x1210, .reg 0x1310,
      .reg 0x2402, .reg 0x2444, .reg 0x3101, .chans, .units, .slots, .dies, .net] s t) ∧
  (∀ (src : Src) (first last : Nat) (s : State), s.Accepts src 0x2401 1 (chanRange first last) 2 stopCheck →
    Gives (.runStop src first last) s fun t =>
    (SameButNet (each (chanRange first last) (fun u c => stopSet (u.touch c) c) (s.atRequest src)) t) ∧
      Frame [.reg 0x1200, .reg 0x1210, .reg 0x1310, .reg 0x2402, .reg 0x2444, .reg 0x3101, .chans, .units, .slots, .dies,
      .net] s t) ∧
  (∀ (src : Src) (first last : Nat) (s : State), s.Accepts src 0x2401 1 (chanRange first last) 3 continueCheck →
    Gives (.runContinue src first last) s fun t =>
    (SameButNet (each (chanRange first last) (fun u c => continueSet (u.touch c) c) (s.atRequest src)) t) ∧
      Frame [.reg 0x1200, .reg 0x1210, .reg 0x1310, .reg 0x2402, .reg 0x2403, .reg 0x2406, .reg 0x2444, .reg 0x3101,
      .chans, .units, .slots, .dies, .groups, .net, .lane, .flight] s t) ∧
  (∀ (c x : Nat) (s : State), s.chanPop c = true → (s.run c).closeLt = some x → Gives (.milestoneClose c) s fun t =>
    (t = s.milestone c x) ∧ Frame [.reg 0x2402, .reg 0x2403, .reg 0x2406, .reg 0x2444, .chans, .units, .slots, .engines,
      .groups, .lane, .flight] s t) ∧
  (∀ (g x : Nat) (s : State), (s.group g).first = some x → s.rdN 0x2405 (g + 1) dev ≠ 0 →
    x + s.rdN 0x2405 (g + 1) dev * 1000000 < s.clock.lastEpoch → (s.group g).due = none → (s.missing g).isEmpty = false →
      s.rd 0x2408 0 dev ≠ 1 →
    Gives (.groupWaitLimit g) s fun t =>
    (t.rd 0x2406 (g + 1) dev = 2 ∧ (∀ c ∈ s.missing g, t.rd 0x2404 2 c = 1) ∧
      t.rd 0x2407 (g + 1) dev = s.epochFrom (max (x + s.rdN 0x2405 (g + 1) dev * 1000000 + 200000) s.lt)) ∧
      Frame [.reg 0x2404, .reg 0x2406, .reg 0x2407, .reg 0x6000, .dies, .groups, .trail] s t) ∧
  (∀ (g e : Nat) (s : State), (s.group g).due = some e → e ≤ s.lt → Gives (.groupStart g) s fun t =>
    (t.group g = {} ∧ t.rd 0x2406 (g + 1) dev = 0 ∧
      (s.rd 0x2408 0 dev ≠ 1 → ∀ c ∈ s.members g, (s.run c).arrived.isSome = true →
        t.runState c = 2 ∧ t.rd 0x2402 2 c = (s.run c).nextRow ∧ t.rd 0x2402 6 c = e)) ∧ Frame [.reg 0x1200, .reg 0x1210,
      .reg 0x2402, .reg 0x2403, .reg 0x2406, .reg 0x2444, .reg 0x3101, .chans, .units, .slots, .dies, .groups, .lane,
      .flight] s t)

/-- Windows, comparators, cross-checks and stale samples of the DC link (R274, R301, R275, R278). Derived from these
rules: each clause says when its command is carried out, the state it then answers, and the parts of the state outside
which nothing changes. Some clauses rest on readings or choices of the model: log 37 (no release frame in a controlled
stop), 178 (paused timers). -/
def Obligations.DcLinkWindowsAndGrid : Prop :=
  (∀ (k w : Nat) (s : State), k < 64 → w < 4 → s.winCount k ≤ (s.win k).beyond.getD w 0 →
    bit (s.rdN 0x3037 (k + 1) dev) w = false → Gives (.windowCrossing k w true) s fun t =>
    (bit (t.rdN 0x3037 (k + 1) dev) w = true) ∧ Frame [.reg 0x3037, .reg 0x3040, .reg 0x3050, .reg 0x3060, .reg 0x341A,
      .reg 0x341E, .reg 0x3420, .reg 0x344E, .reg 0x344F, .reg 0x3450, .reg 0x3457, .reg 0x6000, .units, .engines, .dies,
      .bldc, .axes, .power, .trail] s t) ∧
  (∀ (k w : Nat) (s : State), k < 64 → w < 4 → s.winCount k ≤ (s.win k).inside.getD w 0 →
    bit (s.rdN 0x3037 (k + 1) dev) w = true → Gives (.windowCrossing k w false) s fun t =>
    (bit (t.rdN 0x3037 (k + 1) dev) w = false) ∧ Frame [.reg 0x3037, .reg 0x3040, .reg 0x3050, .reg 0x3060, .reg 0x341A,
      .reg 0x341E, .reg 0x3420, .reg 0x344E, .reg 0x344F, .reg 0x3450, .reg 0x3457, .reg 0x6000, .units, .engines, .dies,
      .bldc, .axes, .power, .trail] s t) ∧
  (∀ (x : Nat) (s : State), s.power.ov1Since = some x → s.power.fullRegen = true → x + 10000000 ≤ s.lt →
      Gives .ov1Release s fun t =>
    (t.power.fullRegen = false ∧ t.power.ov1Since = none) ∧ Frame [.dies, .power, .trail] s t) ∧
  (∀ (k : Nat) (s : State), k < 2 → s.power.testing.map (·.1) ≠ some k → Gives (.dcovTrip k) s fun t =>
    ((if k = 0 then t.power.dcovA else t.power.dcovB) = true ∧ bit (t.rdN 0x3060 0xC dev) k = true ∧
      (t.kdrv 0).close = false ∧ (t.kdrv 1).close = false ∧ StopsWith 14 s t) ∧ Frame [.reg 0x3050, .reg 0x3060,
      .reg 0x3070, .reg 0x4021, .reg 0x6000, .units, .dies, .power, .sup, .trail] s t) ∧
  (∀ (k : Nat) (s : State), k < 2 → s.power.testing.map (·.1) = some k → Gives (.dcovTrip k) s fun t =>
    (t = s.setPower { s.power with tripSeen := true, testHigh := true }) ∧ Frame [.reg 0x3050, .reg 0x3060, .reg 0x3070,
      .reg 0x4021, .reg 0x6000, .units, .dies, .power, .sup, .trail] s t) ∧
  (∀ (k : Nat) (s : State), k < 2 → s.power.testing.map (·.1) ≠ some k → Gives (.dcovRelease k) s fun t =>
    ((if k = 0 then t.power.dcovA else t.power.dcovB) = false) ∧ Frame [.power] s t) ∧
  (∀ (k : Nat) (s : State), k < 2 → s.power.testing.map (·.1) = some k → Gives (.dcovRelease k) s fun t =>
    (t = s.setPower { s.power with testHigh := false }) ∧ Frame [.power] s t) ∧
  (∀ (p k : Nat) (d : Nat) (s : State), (p, k, d) ∈ [(0, 0, 1000000), (1, 1, 1000000), (1, 2, 1000000), (1, 3, 1000000), (2,
      4, 10000000)] →
    heldFor (s.power.cross.getD k none) d s.lt = true → Gives (.crossCheckDisagreement p) s fun t =>
    (StopsWith (4 + p) s t) ∧ Frame [.reg 0x3050, .reg 0x6000, .dies, .power, .trail] s t) ∧
  (∀ (k : Nat) (s : State), k < 2 → heldFor (s.slot 0 k).staleSince 1000000 s.lt = true → Gives (.hubSamplesStale k) s fun t =>
    ((t.slot 0 k).staleSince = none ∧ StopsWith 19 s t) ∧ Frame [.reg 0x3050, .reg 0x6000, .slots, .dies, .power, .trail] s t)

/-- The start of the DC link: grid, precharge, contactors and ramp (R279, R280, R285, R287, R286). Derived from these
rules: each clause says when its command is carried out, the state it then answers, and the parts of the state outside
which nothing changes. Some clauses rest on readings or choices of the model: log 161 (a start begins unlocked), 71
(which dies are tested), 177, 179 and 181 (grid losses, precharge, what a start clears). -/
def Obligations.DcLinkStart : Prop :=
  (∀ (s : State), heldFor s.power.lockSince 100000000 s.lt = true → Gives .gridLocked s fun t =>
    (t.power.locked = true ∧ t.rd 0x3040 0xC dev = 2 ∧
      (s.linkState = 1 → s.testsPassed = true → t.linkState = 2)) ∧ Frame [.reg 0x3040, .reg 0x3050, .reg 0x4021, .power,
      .sup] s t) ∧
  (∀ (s : State), 56 ≤ s.power.lossJobs → s.rd 0x3040 0xC dev ≠ 3 → Gives .gridLoss s fun t =>
    (t.power.locked = false ∧ t.rd 0x3040 0xC dev = 3 ∧ StopsWith 2 s t) ∧ Frame [.reg 0x3040, .reg 0x3050, .reg 0x6000,
      .dies, .power, .trail] s t) ∧
  (∀ (src : Src) (s : State), s.Accepts src 0x3050 1 [dev] 1 (powerCheck 1) → Gives (.powerStart src) s fun t =>
    (t.linkState = 1 ∧ t.rd 0x3050 3 dev = 0) ∧ Frame [.reg 0x1200, .reg 0x1210, .reg 0x1310, .reg 0x2500, .reg 0x2803,
      .reg 0x3040, .reg 0x3050, .reg 0x3060, .reg 0x3070, .reg 0x3101, .reg 0x3104, .reg 0x4000, .reg 0x6000,
      .reg 0x6012, .clock, .units, .slots, .dies, .power, .net, .trail, .standbyDue] s t) ∧
  (∀ (src : Src) (s : State), s.Accepts src 0x3050 1 [dev] 2 (powerCheck 2) → Gives (.powerStop src) s fun t =>
    (StopsWith 1 s t) ∧ Frame [.reg 0x1200, .reg 0x1210, .reg 0x1310, .reg 0x2500, .reg 0x2803, .reg 0x3040, .reg 0x3050,
      .reg 0x3060, .reg 0x3070, .reg 0x3101, .reg 0x3104, .reg 0x4000, .reg 0x6000, .reg 0x6012, .clock, .units, .slots,
      .dies, .power, .net, .trail, .standbyDue] s t) ∧
  (∀ (s : State), s.inStateFor 1 2000000000 = true → Gives .gridSyncTimeout s fun t =>
    (t.linkState = 6 ∧ t.rd 0x3050 3 dev = 11) ∧ Frame [.reg 0x3050, .reg 0x6000, .dies, .power, .trail] s t) ∧
  (∀ (s : State), s.linkState = 2 → s.kfbClosed 0 = true → (s.kdrv 1).close = false → s.power.testPulse = none →
    s.prechargeDone = true → (s.adc 0 0).diagUntil = none → Gives .prechargeComplete s fun t =>
    (t.power.chop = true ∧ t.power.testPulse = some (s.lt + 20000) ∧ t.linkState = 2) ∧ Frame [.reg 0x3070, .reg 0x4021,
      .units, .power, .sup] s t) ∧
  (∀ (x : Nat) (s : State), s.linkState = 2 → s.kfbClosed 0 = true → (s.kdrv 1).close = false → s.power.testPulse = some x →
    x ≤ s.lt → s.power.chopProve = none → Gives .prechargeComplete s fun t =>
    (t.power.chop = false ∧ t.power.testPulse = none ∧ t.rd 0x3070 3 dev = 0 ∧
      (s.rd 0x4000 2 dev = 0 → (t.kdrv 1).close = true)) ∧ Frame [.reg 0x3070, .reg 0x4021, .units, .power, .sup] s t) ∧
  (∀ (s : State), s.inStateFor 2 (s.rdN 0x3050 4 dev * 1000000) = true → (s.kdrv 1).close = false →
      Gives .prechargeTimeout s fun t =>
    (t.linkState = 6 ∧ t.rd 0x3050 3 dev = 10) ∧ Frame [.reg 0x3050, .reg 0x6000, .dies, .power, .trail] s t) ∧
  (∀ (s : State), s.linkState = 2 → (s.kdrv 1).close = true → s.kfbClosed 1 = true → Gives .mainContactorClosed s fun t =>
    (t.linkState = 3 ∧ t.power.afeOn = true ∧ (t.kdrv 0).close = false ∧ t.power.iDc = 0) ∧ Frame [.reg 0x3050,
      .reg 0x4021, .units, .power, .sup] s t) ∧
  (∀ (s : State), s.linkState = 3 → s.power.vdcRef = s.rdN 0x3060 1 dev →
      Gives .afeRampComplete s fun t => (t.linkState = 4) ∧ Frame [.reg 0x3050, .reg 0x3101, .units, .dies, .power] s t)

/-- The end of the DC link start, and the controlled stop (R286, R287, R293). Derived from these rules: each clause
says when its command is carried out, the state it then answers, and the parts of the state outside which nothing
changes. -/
def Obligations.DcLinkRunAndStop : Prop :=
  (∀ (s : State), s.linkState = 4 → s.sites.all s.busReady = true → Gives .segmentBusesReady s fun t => (t.linkState = 5) ∧
      Frame [.reg 0x3050, .power] s t) ∧
  (∀ (cause : Nat) (s : State), cause ∈ stopCodes → Gives (.controlledStop cause) s fun t => (StopsWith cause s t) ∧
      Frame [.reg 0x3050, .reg 0x6000, .dies, .power, .trail] s t) ∧
  (∀ (x : Nat) (s : State), s.power.stopAt = some x → s.linkState = 6 → s.power.segStopped = false → x ≤ s.lt →
    Gives .segmentStopDelay s fun t =>
    (t.power.segStopped = true ∧ (t.kdrv 0).close = false ∧ (t.kdrv 1).close = false ∧ t.linkState = 6) ∧
      Frame [.reg 0x4021, .units, .dies, .power, .sup] s t) ∧
  (∀ (s : State), s.linkState = 6 → s.power.segStopped = true → (s.kdrv 0).openSince.isSome = true →
    (s.kdrv 1).openSince.isSome = true → Gives .contactorsOpen s fun t => (t.linkState = 7 ∧ t.power.adis = true) ∧
      Frame [.reg 0x3050, .reg 0x3070, .units, .power] s t) ∧
  (∀ (s : State), s.linkState = 5 → heldFor s.power.underSince 1000000 s.lt = true → Gives .dcLinkUndervoltage s fun t =>
    (t.linkState = 6 ∧ t.rd 0x3050 3 dev = 13) ∧ Frame [.reg 0x3050, .reg 0x6000, .dies, .power, .trail] s t) ∧
  (∀ (s : State), s.fw = true → (∀ x, s.power.vdcSent = some x → x + 10000 ≤ s.lt) → Gives .vdcUpdate s fun t =>
    ((∀ n ∈ s.sites, if s.linkOk n .toDie = true then (t.die n).vdc = s.vdcMv ∧
      (t.die n).vdcAt = s.lt else t.die n = s.die n) ∧
      t.power.vdcSent = some s.lt) ∧ Frame [.dies, .power] s t)

/-- DAB stages at their limit or stale, the chopper and the discharge path (R291, R293, R296, R297). Derived from
these rules: each clause says when its command is carried out, the state it then answers, and the parts of the state
outside which nothing changes. Some clauses rest on readings or choices of the model: log 19 (channel field of a
stage). -/
def Obligations.DabStagesAndChopper : Prop :=
  (∀ (n i : Nat) (s : State), s.sitePop n = true → i < 2 → heldFor ((s.die n).dab i).limitSince 10000000 s.lt = true →
    (s.rd 0x3101 (1 + i) (siteI n) = 1 ∨ s.rd 0x3101 (1 + i) (siteI n) = 2) → Gives (.dabAtLimit n i) s fun t =>
    (t.rd 0x3101 (1 + i) (siteI n) = 3) ∧ Frame [.reg 0x3101, .reg 0x6000, .dies, .trail] s t) ∧
  (∀ (n i : Nat) (s : State), s.sitePop n = true → i < 2 → heldFor (s.slot n (64 + i)).staleSince 200000 s.lt = true →
    ((s.die n).dab i).latched = false → Gives (.dabSamplesStale n i) s fun t =>
    (((t.die n).dab i).latched = true ∧ t.rd 0x6012 (2 + i) (siteI n) = 8 ∧ t.rd 0x3101 (1 + i) (siteI n) = 4) ∧
      Frame [.reg 0x1200, .reg 0x1210, .reg 0x3101, .reg 0x6000, .reg 0x6012, .units, .engines, .dies, .trail] s t) ∧
  (∀ (x : Nat) (s : State), s.power.chopProve = some x → s.power.chop = true → x ≤ s.lt →
      s.provable 0 7 s.power.chopSince = true →
    Gives .chopperOpen s fun t =>
    (t.power.chop = false ∧ t.power.chopProve = none ∧ t.rd 0x3070 3 dev = 2 ∧
      (s.power.testPulse.isSome = true → StopsWith 12 s t)) ∧ Frame [.reg 0x3050, .reg 0x3070, .reg 0x6000, .units,
      .dies, .power, .trail] s t) ∧
  (∀ (s : State), s.power.chop = false → (s.adc 0 0).diagUntil = none → s.rd 0x3070 3 dev ≠ 3 → 3 ≤ s.power.shortRun →
    Gives .chopperShort s fun t => (t.rd 0x3070 3 dev = 3 ∧ StopsWith 8 s t) ∧ Frame [.reg 0x3050, .reg 0x3070,
      .reg 0x6000, .dies, .power, .trail] s t) ∧
  (∀ (s : State), s.power.chop = true → s.power.chopSince + s.rdN 0x3070 2 dev * 1000000 < s.lt →
      Gives .chopperOverload s fun t =>
    (t.power.chop = false ∧ t.rd 0x3070 3 dev = 5 ∧ StopsWith 9 s t) ∧ Frame [.reg 0x3050, .reg 0x3070, .reg 0x6000,
      .units, .dies, .power, .trail] s t) ∧
  (∀ (x : Nat) (s : State), s.power.adis = true → s.rd 0x3070 8 dev = 1 → s.power.adisProve = some x → x ≤ s.lt →
    s.provable 1 23 s.power.adisSince = true → Gives .dischargeNoCurrent s fun t =>
    (t.rd 0x3070 8 dev = 3 ∧ t.power.adis = true ∧ t.power.adisProve = none) ∧ Frame [.reg 0x3070, .reg 0x6000, .dies,
      .power, .trail] s t) ∧
  (∀ (x : Nat) (s : State), s.power.below60 = some x → s.power.adis = true → x + 100000000 ≤ s.lt →
      Gives .dischargeRelease s fun t =>
    (t.power.adis = false ∧ t.rd 0x3070 8 dev = 0 ∧
      (s.linkState = 7 → t.linkState = if s.rd 0x3050 3 dev = 1 then 0 else 8)) ∧ Frame [.reg 0x3050, .reg 0x3070,
      .units, .power] s t) ∧
  (∀ (s : State), s.power.adis = true → (s.rdN 0x3070 5 dev : Rat) ≤ s.power.energy → Gives .dischargeExhausted s fun t =>
    (t.power.adis = false ∧ t.rd 0x3070 8 dev = 2 ∧
      (s.linkState = 7 → t.linkState = if s.rd 0x3050 3 dev = 1 then 0 else 8)) ∧ Frame [.reg 0x3050, .reg 0x3070,
      .units, .power] s t)

/-- Sensorless drives: crossings, commutation, listening, braking, alignment and ramp (R309, R310, R313, R315, R316,
R317). Derived from these rules: each clause says when its command is carried out, the state it then answers, and the
parts of the state outside which nothing changes. Some clauses rest on readings or choices of the model: log 45 and
183 (rotor relative to the command, comparator levels). -/
def Obligations.SensorlessStart : Prop :=
  (∀ (a : Nat) (c : Crossing) (s : State), isDrive a = true → (s.driveState a = 5 ∨ s.driveState a = 6) → s.accepts a c = true →
    (s.driveState a = 5 → s.jobAt a (s.cnt 0) < s.jobAt a ((s.drive a).lastCross + (s.lockCounts a).ceil.toNat)) →
    Gives (.zeroCrossing a c) s fun t =>
    ((t.drive a).lastCross = c.at' ∧ t.driveState a = s.driveState a ∧ (t.drive a).nextComm = some (c.at' +
      (wholeOf ((s.drive a).t60 * (300 - advanceAt (s.advanceTable a) (s.speedOf a (s.drive a).t60)) / 600)).toNat)) ∧
      Frame [.reg 0x341A, .bldc] s t) ∧
  (∀ (a : Nat) (c : Crossing) (s : State), isDrive a = true → s.driveState a = 4 → s.accepts a c = true →
    (s.drive a).fits c.at' = true → s.rdN 0x340D (a + 1) dev ≤ (s.drive a).consistent + 1 →
    (s.rd 0x340C (a + 1) dev : Rat) ≤ (s.rampNow a).1 → s.jobAt a (s.cnt 0) ≤ s.jobAtLt a (s.rampEnd a) →
    Gives (.zeroCrossing a c) s fun t =>
    (t.driveState a = 5 ∧ (t.drive a).speedRef = (s.rampNow a).1 ∧ (t.drive a).int = (s.rampNow a).2 ∧
      (t.drive a).nextComm.isSome = true) ∧ Frame [.reg 0x341A, .bldc] s t) ∧
  (∀ (a : Nat) (c : Crossing) (s : State), isDrive a = true → (s.driveState a = 1 ∨ (s.driveState a = 2 ∧
      (s.drive a).floating = true)) →
    c.at' + 640 ≤ s.cnt 0 → Gives (.zeroCrossing a c) s fun t =>
    (t = s.setDrive a ((s.drive a).see c)) ∧ Frame [.reg 0x341A, .bldc] s t) ∧
  (∀ (a x : Nat) (s : State), isDrive a = true → (s.die 0).halted = false → (s.driveState a = 5 ∨ s.driveState a = 6) →
    (s.drive a).nextComm = some x → x ≤ s.cnt 0 → Gives (.commutation a) s fun t =>
    ((t.drive a).comm = nextComm (s.drive a).forward (s.drive a).comm ∧ (t.drive a).lastComm = s.cnt 0 ∧
      (t.drive a).t1 = s.cnt 0 - (s.drive a).lastComm ∧ (t.drive a).t2 = (s.drive a).t1 ∧ (t.drive a).nextComm = none) ∧
      Frame [.reg 0x341B, .units, .bldc] s t) ∧
  (∀ (a : Nat) (s : State), isDrive a = true → (s.die 0).halted = false → s.driveState a = 1 →
      (s.drive a).since + 200000000 ≤ s.lt →
    Gives (.listenEnd a) s fun t =>
    (t.driveState a = if s.rotorFast a = false then 3 else if (s.drive a).rotor.map (·.1) = some (s.drive a).forward then 5 else 2) ∧
      Frame [.reg 0x341A, .reg 0x341B, .units, .bldc, .free] s t) ∧
  (∀ (a : Nat) (s : State), isDrive a = true → (s.die 0).halted = false → s.driveState a = 2 → (s.drive a).floating = false →
    (s.drive a).since + 50000000 ≤ s.lt → Gives (.brakeWindow a) s fun t =>
    ((t.drive a).floating = true ∧ (t.drive a).since = s.lt ∧ (t.drive a).rotor = none ∧ t.driveState a = 2) ∧
      Frame [.reg 0x341A, .units, .bldc] s t) ∧
  (∀ (a : Nat) (s : State), isDrive a = true → (s.die 0).halted = false → s.driveState a = 2 → (s.drive a).floating = true →
    (s.drive a).since + s.windowNs a ≤ s.lt → s.lt < s.brakeEnd a → s.jobAt a (s.cnt 0) < s.jobAtLt a (s.brakeEnd a) →
    Gives (.brakeWindow a) s fun t =>
    (if s.rotorFast a = true then (t.drive a).floating = false ∧ t.driveState a = 2 else t.driveState a = 3) ∧
      Frame [.reg 0x341A, .units, .bldc] s t) ∧
  (∀ (a : Nat) (s : State), isDrive a = true → s.driveState a = 2 → s.brakeEnd a ≤ s.lt → Gives (.brakeFailed a) s fun t =>
    (t.driveState a = 8 ∧ t.rd 0x3420 (a + 1) dev = 4) ∧ Frame [.reg 0x341A, .reg 0x3420, .reg 0x6000, .units, .engines,
      .dies, .bldc, .trail] s t) ∧
  (∀ (a : Nat) (s : State), isDrive a = true → (s.die 0).halted = false → s.driveState a = 3 →
    (s.drive a).since + s.rdN 0x340A (a + 1) dev * 1000000 ≤ s.lt → Gives (.alignEnd a) s fun t =>
    (t.driveState a = 4 ∧ (t.drive a).comm = (if (s.drive a).forward then 0 else 5) ∧ (t.drive a).lastComm = s.cnt 0) ∧
      Frame [.reg 0x341A, .units, .bldc] s t) ∧
  (∀ (a : Nat) (s : State), isDrive a = true → s.driveState a = 4 → s.rampEnd a ≤ s.lt →
    s.jobAtLt a (s.rampEnd a) < s.jobAt a (s.cnt 0) → Gives (.rampFailed a) s fun t =>
    (t.driveState a = 7 ∧ (t.drive a).lastFail = 3 ∧ t.rd 0x341D (a + 1) dev = min 255 (s.rd 0x341D (a + 1) dev + 1)) ∧
      Frame [.reg 0x341A, .reg 0x341D, .reg 0x6000, .units, .dies, .bldc, .trail] s t)

/-- Sensorless drives: locked rotor, retries, load faults and the speed setpoint (R318, R319, R322, R321). Derived
from these rules: each clause says when its command is carried out, the state it then answers, and the parts of the
state outside which nothing changes. Some clauses rest on readings or choices of the model: log 44 (setpoint in state
6), 183 (load faults, time to lock). -/
def Obligations.SensorlessFaults : Prop :=
  (∀ (a : Nat) (s : State), isDrive a = true → s.driveState a = 5 →
      ((s.drive a).lastCross : Rat) + s.lockCounts a ≤ (s.cnt 0 : Rat) →
    Gives (.lockedRotor a) s fun t =>
    (t.driveState a = 7 ∧ (t.drive a).lastFail = 2 ∧ t.rd 0x341D (a + 1) dev = min 255 (s.rd 0x341D (a + 1) dev + 1)) ∧
      Frame [.reg 0x341A, .reg 0x341D, .reg 0x6000, .units, .dies, .bldc, .trail] s t) ∧
  (∀ (a : Nat) (s : State), isDrive a = true → s.driveState a = 7 →
      (s.drive a).since + s.rdN 0x3412 (a + 1) dev * 1000000 ≤ s.lt →
    Gives (.retryDelayEnd a) s fun t =>
    (if s.rd 0x341D (a + 1) dev ≤ s.rd 0x3411 (a + 1) dev then t.driveState a = 1
    else t.driveState a = 8 ∧ t.rd 0x3420 (a + 1) dev = (s.drive a).lastFail) ∧ Frame [.reg 0x341A, .reg 0x3420,
      .reg 0x6000, .units, .engines, .dies, .bldc, .trail] s t) ∧
  (∀ (a : Nat) (s : State), isDrive a = true → s.driveState a = 5 → (s.drive a).since + 10000000000 ≤ s.lt →
    Gives (.retryCountReset a) s fun t => (t.rd 0x341D (a + 1) dev = 0) ∧ Frame [.reg 0x341D] s t) ∧
  (∀ (a : Nat) (s : State), isDrive a = true → (s.drive a).loadDone = false → s.loadExpired a = true →
      Gives (.loadFault a) s fun t =>
    ((t.drive a).loadDone = true ∧ (s.rd 0x3418 (a + 1) dev = 1 → t.driveState a = 8)) ∧ Frame [.reg 0x341A, .reg 0x3420,
      .reg 0x6000, .units, .engines, .dies, .bldc, .trail] s t) ∧
  (∀ (src : Src) (a : Nat) (rpm : Int) (s : State), s.Accepts src 0x3400 (a + 1) [dev] rpm (setpointCheck a rpm) →
    s.writeChecks src 0x3400 (a + 1) [dev] rpm (setpointCheck a rpm) = none → Gives (.speedSetpoint src a rpm) s fun t =>
    (t.rd 0x3400 (a + 1) dev = rpm ∧ (s.driveState a = 0 → rpm ≠ 0 → t.driveState a = 1) ∧
      (s.driveState a = 5 → rpm = 0 → t.driveState a = 6)) ∧ Frame [.reg 0x1200, .reg 0x1210, .reg 0x1310, .reg 0x2500,
      .reg 0x3101, .reg 0x3400, .reg 0x341A, .reg 0x341F, .reg 0x6000, .clock, .units, .slots, .dies, .bldc, .net,
      .trail, .standbyDue] s t)

/-- Stepper axes: targets, steps, limits, holding and the reference (R307, R329, R330, R331, R324, R332). Derived from
these rules: each clause says when its command is carried out, the state it then answers, and the parts of the state
outside which nothing changes. Some clauses rest on readings or choices of the model: log 47 (when an axis is
energised), 67 (C and E). -/
def Obligations.StepperAxes : Prop :=
  (∀ (k : Nat) (s : State), k < 8 → heldFor (s.slot 0 (4 + k)).staleSince 1000000 s.lt = true →
      Gives (.auxSamplesStale k) s fun t =>
    ((t.slot 0 (4 + k)).staleSince = none ∧ if k < 4 then t.driveState k = 8 else t.axisState (k - 4) = 7) ∧
      Frame [.reg 0x341A, .reg 0x3420, .reg 0x344E, .reg 0x344F, .reg 0x3450, .reg 0x3457, .reg 0x6000, .units, .slots,
      .engines, .dies, .bldc, .axes, .trail] s t) ∧
  (∀ (src : Src) (a : Nat) (p : Int) (s : State), s.Accepts src 0x3441 (a + 1) [dev] p (targetCheck a p) →
    Gives (.targetPosition src a p) s fun t => (t.rd 0x3441 (a + 1) dev = p ∧ (t.axis a).stopping = false) ∧
      Frame [.reg 0x1200, .reg 0x1210, .reg 0x1310, .reg 0x2500, .reg 0x3101, .reg 0x3441, .reg 0x6000, .clock, .units,
      .slots, .dies, .axes, .net, .trail, .standbyDue] s t) ∧
  (∀ (a : Nat) (dir : Bool) (s : State), isDrive a = true → s.rd 0x3440 (a + 1) dev = 1 → s.axisState a ≠ 7 →
      s.axisState a ≠ 8 →
    s.limitActive a dir = false → Gives (.stepEdge a dir) s fun t =>
    ((t.axis a).c = (if dir then (s.axis a).c + s.rd 0x344B (a + 1) dev * ustep else (s.axis a).c - s.rd 0x344B (
      a + 1) dev * ustep) ∧
      (t.axis a).lastEdge = some (s.cnt 0)) ∧ Frame [.reg 0x3451, .axes, .free] s t) ∧
  (∀ (a : Nat) (dir : Bool) (s : State), isDrive a = true → s.rd 0x3440 (a + 1) dev = 1 → s.axisState a ≠ 7 →
    (s.axisState a = 8 ∨ s.limitActive a dir = true) → Gives (.stepEdge a dir) s fun t =>
    (t = s.inc 0x3451 (a + 1) dev) ∧ Frame [.reg 0x3451, .axes, .free] s t) ∧
  (∀ (a : Nat) (s : State), isDrive a = true → s.rd 0x3440 (a + 1) dev = 1 → s.axisState a ≠ 8 → s.axisState a ≠ 7 →
    16 * s.rd 0x344B (a + 1) dev * ustep < ((s.axis a).c - (s.axis a).x).natAbs → Gives (.inputOverrun a) s fun t =>
    (t.axisState a = 7 ∧ t.rd 0x3457 (a + 1) dev = 2) ∧ Frame [.reg 0x344E, .reg 0x344F, .reg 0x3450, .reg 0x3457,
      .reg 0x6000, .units, .engines, .dies, .axes, .trail] s t) ∧
  (∀ (a : Nat) (pos level : Bool) (s : State), isDrive a = true →
    (∀ x, (if pos then (s.axis a).limPAt else (s.axis a).limNAt) = some x → x + 20000 ≤ s.lt) →
      Gives (.limitSwitch a pos level) s fun t =>
    ((if pos then (t.axis a).limP else (t.axis a).limN) = takeSample (if pos then (s.axis a).limP else (
      s.axis a).limN) level ∧
      (if pos then (t.axis a).limPAt else (t.axis a).limNAt) = some s.lt) ∧ Frame [.reg 0x3450, .axes] s t) ∧
  (∀ (a : Nat) (s : State), isDrive a = true → s.axisState a = 0 → (s.axis a).holdAt = none →
    heldFor (s.axis a).stillSince (s.rdN 0x344A (a + 1) dev * 1000000) s.lt = true → Gives (.holdDelay a) s fun t =>
    ((t.axis a).holdAt = some s.lt) ∧ Frame [.axes] s t) ∧
  (∀ (src : Src) (a : Nat) (v : Int) (s : State), s.Accepts src 0x344D (a + 1) [dev] v (referenceCheck a) →
    Gives (.referencePosition src a v) s fun t =>
    (t.rd 0x344D (a + 1) dev = v ∧ t.rd 0x3441 (a + 1) dev = v ∧ (t.axis a).x = v * ustep ∧ (t.axis a).c = v * ustep ∧
      bit (t.rdN 0x3450 (a + 1) dev) 3 = false) ∧ Frame [.reg 0x1200, .reg 0x1210, .reg 0x1310, .reg 0x3101, .reg 0x3441,
      .reg 0x344D, .reg 0x3450, .units, .dies, .axes, .net] s t)

/-- Safe torque off and safe stop 1 of the drives and axes (R333, R334, R357). Derived from these rules: each clause
says when its command is carried out, the state it then answers, and the parts of the state outside which nothing
changes. -/
def Obligations.SafeTorqueOff : Prop :=
  (∀ (out : Nat) (s : State), out < 4 → (s.sout out).on = false → Gives (.sto out) s fun t =>
    ((∀ a ∈ s.fedDrives out, t.driveState a = if s.driveState a = 8 then 8 else 9) ∧
      ∀ a ∈ s.fedAxes out, t.axisState a = if s.axisState a = 7 then 7 else 8) ∧ Frame [.reg 0x341A, .reg 0x344E,
      .reg 0x344F, .reg 0x3450, .units, .bldc, .axes] s t) ∧
  (∀ (out : Nat) (s : State), out < 4 → (s.sout out).on = true → Gives (.stoRelease out) s fun t =>
    (∀ a ∈ s.fedDrives out, s.driveState a = 9 → t.driveState a = 0 ∧ t.rd 0x3400 (a + 1) dev = 0) ∧ Frame [.reg 0x3400,
      .reg 0x341A, .reg 0x3441, .reg 0x344F, .reg 0x3450, .bldc, .axes] s t) ∧
  (∀ (out : Nat) (s : State), out < 4 → (s.sout out).ss1At.isSome = true → Gives (.ss1 out) s fun t =>
    ((∀ a ∈ s.fedDrives out, (t.drive a).ss1 = true ∧ (s.driveState a = 5 → t.driveState a = 6)) ∧
      ∀ a ∈ s.fedAxes out, (t.axis a).ss1 = true) ∧ Frame [.reg 0x341A, .units, .bldc, .axes] s t) ∧
  (∀ (out x : Nat) (s : State), out < 4 → (s.sout out).ss1At = some x → (s.allSlow out = true ∨ x ≤ s.lt) →
      Gives (.ss1Time out) s fun t =>
    ((t.sout out).on = false ∧ (t.sout out).ss1At = none ∧ ∀ a ∈ s.fedDrives out,
      t.driveState a = if s.driveState a = 8 then 8 else 9) ∧ Frame [.reg 0x341A, .reg 0x344E, .reg 0x344F, .reg 0x3450,
      .reg 0x4010, .reg 0x4014, .units, .bldc, .axes, .sup] s t)

/-- The supervisor cycle, demands and faults of the safety inputs, and their delays (R336, R340, R343, R347, R338,
R339, R341, R342). Derived from these rules: each clause says when its command is carried out, the state it then
answers, and the parts of the state outside which nothing changes. -/
def Obligations.SupervisorInputs : Prop :=
  (∀ (x : SupSample) (s : State), s.vsys = true → s.supRuns = true → (∀ a, s.sup.cycleAt = some a → a + 100000 ≤ s.lt) →
    Gives (.supervisorCycle x) s fun t => (t.sup.cycles = s.sup.cycles + 1 ∧ t.sup.cycleAt = some s.lt) ∧
      Frame [.reg 0x3050, .reg 0x3400, .reg 0x341A, .reg 0x3441, .reg 0x344E, .reg 0x344F, .reg 0x3450, .reg 0x4000,
      .reg 0x4005, .reg 0x4010, .reg 0x4014, .reg 0x4021, .reg 0x4023, .reg 0x6000, .units, .dies, .bldc, .axes, .power,
      .sup, .trail] s t) ∧
  (∀ (k : Nat) (s : State), s.supRuns = true → k < 8 → 1 ≤ s.inFn k → s.inFn k ≤ 3 → 2 ≤ (s.sin k).low →
      (s.sin k).demand = false →
    Gives (.inputDemand k) s fun t =>
    ((t.sin k).demand = true ∧ (s.inputDemands (s.inFn k) = false → bit (t.rdN 0x4000 2 dev) 1 = true)) ∧
      Frame [.reg 0x3050, .reg 0x341A, .reg 0x344E, .reg 0x344F, .reg 0x3450, .reg 0x4000, .reg 0x4010, .reg 0x4014,
      .reg 0x4021, .reg 0x4023, .reg 0x6000, .units, .dies, .bldc, .axes, .power, .sup, .trail] s t) ∧
  (∀ (k : Nat) (s : State), s.supRuns = true → k < 8 → 2 ≤ (s.sin k).high → (s.sin k).demand = true →
    ((s.sin k).recovered = true ∨ (s.sin k).faulted = false) →
      Gives (.inputDemandEnd k) s fun t => ((t.sin k).demand = false) ∧ Frame [.reg 0x4000, .reg 0x6000, .dies, .sup,
      .trail] s t) ∧
  (∀ (x : Nat) (s : State), s.sup.stopDelayAt = some x → x ≤ s.lt →
      Gives .safetyStopDelay s fun t => (t.sup.stopDelayAt = none) ∧ Frame [.dies, .sup, .trail] s t) ∧
  (∀ (x : Nat) (s : State), s.sup.openDelayAt = some x → x ≤ s.lt → Gives .contactorOpenDelay s fun t =>
    (t.sup.openDelayAt = none ∧ t.power.afeOn = false ∧ t.rd 0x4023 1 dev = 0 ∧ t.rd 0x4023 2 dev = 0 ∧
      ∀ k ∈ [0, 1, 2, 3], (t.kdrv k).close = false) ∧ Frame [.reg 0x4021, .reg 0x4023, .units, .power, .sup] s t) ∧
  (∀ (x : Nat) (s : State), s.sup.adisAt = some x → x ≤ s.lt → s.kfbClosed 0 = false → s.kfbClosed 1 = false →
      Gives .adisDelay s fun t =>
    (t.power.adis = true ∧ t.sup.adisAt = none ∧ t.sup.fire = false) ∧ Frame [.reg 0x3070, .units, .power, .sup] s t) ∧
  (∀ (k : Nat) (s : State), s.supRuns = true → k < 8 → s.inFn k ≠ 0 → 3 ≤ (s.sin k).invalid → (s.sin k).faulted = false →
    Gives (.inputFault k) s fun t =>
    ((t.sin k).faulted = true ∧ (t.sin k).demand = true ∧ t.rd 0x4005 (k + 1) dev = 3 ∧
      bit (t.rdN 0x4000 2 dev) 5 = true) ∧ Frame [.reg 0x3050, .reg 0x341A, .reg 0x344E, .reg 0x344F, .reg 0x3450,
      .reg 0x4000, .reg 0x4005, .reg 0x4010, .reg 0x4014, .reg 0x4021, .reg 0x4023, .reg 0x6000, .units, .dies, .bldc,
      .axes, .power, .sup, .trail] s t) ∧
  (∀ (p : Nat) (s : State), s.supRuns = true → p < 2 → s.pulseDue p = true → Gives (.testPulse p) s fun t =>
    (t.sup.lastPulse = s.sup.lastPulse.set p (some s.lt) ∧
      ∀ k, k < 8 → s.inSrc k = p + 1 → (t.sin k).maskUntil = s.lt + (s.rdN 0x4004 1 dev + 100) * 1000) ∧ Frame [.sup] s t) ∧
  (∀ (code : Nat) (s : State), s.supRuns = true → 1 ≤ code → code ≤ 3 →
    heldFor (s.sup.disagree.getD (code - 1) none) (s.rdN 0x4003 1 dev * 1000000) s.lt = true →
      Gives (.discrepancyFault code) s fun t =>
    (∀ k ∈ s.pairOf code, (t.sin k).faulted = true) ∧ Frame [.reg 0x3050, .reg 0x341A, .reg 0x344E, .reg 0x344F,
      .reg 0x3450, .reg 0x4000, .reg 0x4005, .reg 0x4010, .reg 0x4014, .reg 0x4021, .reg 0x4023, .reg 0x6000, .units,
      .dies, .bldc, .axes, .power, .sup, .trail] s t) ∧
  (∀ (k : Nat) (s : State), s.supRuns = true → k < 8 → s.inputRecovers k = true → Gives (.inputRecovery k) s fun t =>
    ((t.sin k).recovered = true ∧ (2 ≤ (s.sin k).high → (t.sin k).demand = false)) ∧ Frame [.reg 0x4000, .reg 0x6000,
      .dies, .sup, .trail] s t)

/-- Doors, cell temperatures and the application heartbeat (R346, R348, R349, R559). Derived from these rules: each
clause says when its command is carried out, the state it then answers, and the parts of the state outside which
nothing changes. Some clauses rest on readings or choices of the model: log 55, 56 and 62 (temperature frames, missing
mirrors, door timer), 63 (heartbeat), 185 (control temperature). -/
def Obligations.TemperatureAndDoors : Prop :=
  (∀ (c : Nat) (s : State), s.chanPop c = true → heldFor (s.chan c).sup.door (s.rdN 0x4031 0 dev * 1000000) s.lt = true →
    s.latched c = false → Gives (.doorLimitLatch c) s fun t => (t.LatchedBy c 16) ∧ Frame [.reg 0x2402, .reg 0x2444,
      .reg 0x2810, .reg 0x6000, .reg 0x6010, .chans, .units, .slots, .engines, .dies, .trail, .lane, .flight] s t) ∧
  (∀ (n c : Nat) (codes : List Nat) (u : State) (s : State), s.sitePop n = true → n ≤ 6 → c ∈ siteChans n →
    (s.die n).overAt ≠ some (s.lt / 1000000) →
    each ((siteChans n).zip codes) (fun v x => v.takeTemp x.1 x.2) (s.setDie n { s.die n with overAt := some (
      s.lt / 1000000) }) = u →
    u.tempWatched c = true → u.rd 0x4032 0 c < (u.chan c).temp → (u.chan c).sup.overTemp = 1 →
    Gives (.overTemperatureCheck n codes) s fun t => (t.latched c = true ∧ (t.die n).overAt = some (s.lt / 1000000)) ∧
      Frame [.reg 0x2402, .reg 0x2444, .reg 0x2810, .reg 0x4033, .reg 0x6000, .reg 0x6010, .chans, .units, .slots,
      .engines, .dies, .trail, .lane, .flight] s t) ∧
  (∀ (n c : Nat) (m : Int) (s : State), s.sitePop n = true → n ≤ 6 → c ∈ siteChans n →
    (s.die n).plausAt ≠ some (s.lt / 100000000) → s.tempWatched c = true → (s.chan c).mTemp = some m →
    Gives (.temperaturePlausibilityCheck n) s fun t =>
    (t.rd 0x4034 0 c = (s.chan c).temp - m ∧ bit (t.rdN 0x4033 0 c) 2 = false ∧ (t.chan c).mTemp = none) ∧
      Frame [.reg 0x4033, .reg 0x4034, .reg 0x6000, .chans, .dies, .trail] s t) ∧
  (∀ (c : Nat) (s : State), s.chanPop c = true → s.tempWatched c = true →
      heldFor (s.chan c).sup.tempDiff 1000000000 s.lt = true → s.latched c = false →
    Gives (.temperaturePlausibilityFault c) s fun t => (t.LatchedBy c 15 ∧ bit (t.rdN 0x4033 0 c) 1 = true) ∧
      Frame [.reg 0x2402, .reg 0x2444, .reg 0x2810, .reg 0x4033, .reg 0x6000, .reg 0x6010, .chans, .units, .slots,
      .engines, .dies, .trail, .lane, .flight] s t) ∧
  (∀ (s : State), s.supRuns = true → s.sup.appMissing = false → Gives .applicationHeartbeatTimeout s fun t =>
    (t.sup.appMissing = true ∧ t.sup.appFire = true ∧ t.rd 0x4000 5 dev = 0x16 ∧ bit (t.rdN 0x4000 2 dev) 1 = true ∧
      StopsWith 15 s t) ∧ Frame [.reg 0x3050, .reg 0x341A, .reg 0x344E, .reg 0x344F, .reg 0x3450, .reg 0x4000,
      .reg 0x4010, .reg 0x4014, .reg 0x4021, .reg 0x4023, .reg 0x6000, .units, .dies, .bldc, .axes, .power, .sup, .trail] s t)

/-- The safety reset, safe outputs and contactors (R354, R337, R356, R358, R359, R360). Derived from these rules: each
clause says when its command is carried out, the state it then answers, and the parts of the state outside which
nothing changes. Some clauses rest on readings or choices of the model: log 61 (requests act as levels), 160 (state 4
of a contactor). -/
def Obligations.SafetyResetOutputsContactors : Prop :=
  (∀ (k x : Nat) (s : State), (s.sin k).highSince = some x → s.supRuns = true → k < 8 → s.inFn k = 4 →
      ((s.sin k).recovered = true ∨ (s.sin k).faulted = false) →
    (s.sin k).level = 0 → x + 100000000 ≤ s.lt → s.lt ≤ x + 2000000000 →
    (bit (s.rdN 0x4000 2 dev) 0 = true ∨ s.sup.appMissing = true) → Gives (.safetyReset k) s fun t =>
    ((t.sin k).highSince = none ∧ t.rd 0x4000 2 dev = s.rd 0x4000 2 dev) ∧ Frame [.reg 0x1200, .reg 0x2500, .reg 0x2803,
      .reg 0x3040, .reg 0x3050, .reg 0x3060, .reg 0x3070, .reg 0x3101, .reg 0x3104, .reg 0x3400, .reg 0x341A,
      .reg 0x3441, .reg 0x344F, .reg 0x3450, .reg 0x4000, .reg 0x4005, .reg 0x4010, .reg 0x4021, .reg 0x6000,
      .reg 0x6012, .clock, .units, .slots, .dies, .bldc, .axes, .power, .sup, .trail, .standbyDue] s t) ∧
  (∀ (k x : Nat) (s : State), (s.sin k).highSince = some x → s.supRuns = true → k < 8 → s.inFn k = 4 →
      ((s.sin k).recovered = true ∨ (s.sin k).faulted = false) →
    (s.sin k).level = 0 → x + 100000000 ≤ s.lt → s.lt ≤ x + 2000000000 →
    bit (s.rdN 0x4000 2 dev) 0 = false → s.sup.appMissing = false → Gives (.safetyReset k) s fun t =>
    (t = (s.setSin k { s.sin k with highSince := none }).acceptReset) ∧ Frame [.reg 0x1200, .reg 0x2500, .reg 0x2803,
      .reg 0x3040, .reg 0x3050, .reg 0x3060, .reg 0x3070, .reg 0x3101, .reg 0x3104, .reg 0x3400, .reg 0x341A,
      .reg 0x3441, .reg 0x344F, .reg 0x3450, .reg 0x4000, .reg 0x4005, .reg 0x4010, .reg 0x4021, .reg 0x6000,
      .reg 0x6012, .clock, .units, .slots, .dies, .bldc, .axes, .power, .sup, .trail, .standbyDue] s t) ∧
  (∀ (src : Src) (v : Nat) (s : State), s.Accepts src 0x4007 0 [dev] v resetCheck → Gives (.resetRequest src v) s fun t =>
    (SameButNet (resetSet (s.atRequest src) dev) t) ∧ Frame [.reg 0x1200, .reg 0x1210, .reg 0x1310, .reg 0x2500,
      .reg 0x2803, .reg 0x3040, .reg 0x3050, .reg 0x3060, .reg 0x3070, .reg 0x3101, .reg 0x3104, .reg 0x3400,
      .reg 0x341A, .reg 0x3441, .reg 0x344F, .reg 0x3450, .reg 0x4000, .reg 0x4005, .reg 0x4010, .reg 0x4021,
      .reg 0x6000, .reg 0x6012, .clock, .units, .slots, .dies, .bldc, .axes, .power, .sup, .net, .trail, .standbyDue] s t) ∧
  (∀ (src : Src) (n v : Nat) (s : State), n < 4 → s.Accepts src 0x4014 (n + 1) [dev] v (fun _ _ => aDone) →
    Gives (.safeOutputRequest src n v) s fun t =>
    (t.rd 0x4014 (n + 1) dev = v ∧ (v = 0 → (t.sout n).on = false) ∧
      (v = 1 → (s.wr 0x4014 (n + 1) dev 1).granted n = true → (t.sout n).on = true ∨ (s.sout n).pulse = true)) ∧
      Frame [.reg 0x1200, .reg 0x1210, .reg 0x1310, .reg 0x3101, .reg 0x3400, .reg 0x341A, .reg 0x3441, .reg 0x344E,
      .reg 0x344F, .reg 0x3450, .reg 0x4010, .reg 0x4014, .units, .dies, .bldc, .axes, .sup, .net] s t) ∧
  (∀ (n k : Nat) (s : State), s.supRuns = true → n < 4 → s.pulseSlot n = some k → (s.sout n).slotNo ≠ some k →
    (s.sout n).slotAt = none → Gives (.offPulse n) s fun t =>
    ((t.sout n).slotNo = some k ∧ (t.sout n).slotAt = some s.lt ∧
      (t.sout n).pulse = ((s.sout n).on && (s.sout n).fault == 0)) ∧ Frame [.sup] s t) ∧
  (∀ (n x : Nat) (rb : Int) (s : State), s.supRuns = true → n < 4 → (s.sout n).slotAt = some x →
    x + s.rdN 0x4013 0 dev * 1000 ≤ s.lt → Gives (.offPulseEnd n rb) s fun t =>
    ((t.sout n).slotAt = none ∧ (t.sout n).pulse = false ∧
      ((s.sout n).fault ≠ 0 → (t.sout n).fault = (s.sout n).fault ∧
      (t.sout n).passed = ((s.sout n).passed || decide (rb < 5000))) ∧
      ((s.sout n).fault = 0 → (s.sout n).pulse = true → 5000 ≤ rb → (t.sout n).fault = 2 ∧ (t.sout n).on = false ∧
      t.rd 0x4000 5 dev = 0x31) ∧
      ((s.sout n).fault = 0 → (s.sout n).pulse = true → rb < 5000 → (s.sout n).on = true →
      (t.sout n).backAt = some s.lt)) ∧ Frame [.reg 0x3050, .reg 0x341A, .reg 0x344E, .reg 0x344F, .reg 0x3450,
      .reg 0x4000, .reg 0x4010, .reg 0x6000, .units, .dies, .bldc, .axes, .power, .sup, .trail] s t) ∧
  (∀ (n : Nat) (s : State), s.supRuns = true → n < 4 → 3 ≤ (s.sout n).bad → (s.sout n).fault = 0 →
      Gives (.outputFault n) s fun t =>
    ((t.sout n).fault = (if (s.sout n).on = true then 3 else 2) ∧ (t.sout n).on = false ∧
      ((s.sout n).on = false → bit (t.rdN 0x4000 2 dev) 4 = true ∧ StopsWith 15 s t)) ∧ Frame [.reg 0x3050, .reg 0x341A,
      .reg 0x344E, .reg 0x344F, .reg 0x3450, .reg 0x4000, .reg 0x4010, .reg 0x6000, .units, .dies, .bldc, .axes, .power,
      .sup, .trail] s t) ∧
  (∀ (src : Src) (k v : Nat) (s : State), s.Accepts src 0x4023 (k - 1) [dev] v (fun _ _ => aDone) →
    Gives (.contactorRequest src k v) s fun t =>
    (t.rd 0x4023 (k - 1) dev = v ∧ (v ≠ 1 → (t.kdrv k).close = false) ∧
      (v = 1 → s.supRuns = true → s.kdrvUsed k = true → s.rd 0x4000 2 dev = 0 → (t.kdrv k).close = true)) ∧
      Frame [.reg 0x1200, .reg 0x1210, .reg 0x1310, .reg 0x3101, .reg 0x4021, .reg 0x4023, .units, .dies, .sup, .net] s t) ∧
  (∀ (k : Nat) (s : State), k < 4 → s.supRuns = true → s.kdrvUsed k = true → (s.kdrv k).settled = false →
    (s.kdrv k).cmdAt + 150000000 ≤ s.lt → Gives (.contactorTimeout k) s fun t =>
    (if (s.kdrv k).close then (t.kdrv k).close = false ∧ t.rd 0x4021 (k + 1) dev = 4 ∧ t.rd 0x4000 5 dev = 0x41
    else (t.kdrv k).welded = true ∧ t.rd 0x4021 (k + 1) dev = 5 ∧ t.rd 0x4000 5 dev = 0x43) ∧ Frame [.reg 0x4000,
      .reg 0x4021, .reg 0x6000, .dies, .sup, .trail] s t) ∧
  (∀ (k : Nat) (s : State), k < 4 → s.supRuns = true → s.kdrvUsed k = true → 3 ≤ (s.kdrv k).drvBad → (s.kdrv k).bad < 3 →
    Gives (.contactorFault k) s fun t =>
    (t.rd 0x4021 (k + 1) dev = 4 ∧ t.rd 0x4000 5 dev = 0x42 ∧ (t.kdrv k).drvBad = 0 ∧
      bit (t.rdN 0x4000 2 dev) 3 = true) ∧ Frame [.reg 0x4000, .reg 0x4021, .reg 0x6000, .dies, .sup, .trail] s t) ∧
  (∀ (k : Nat) (s : State), k < 4 → s.supRuns = true → s.kdrvUsed k = true → (s.kdrv k).close = false →
      (s.kdrv k).kfbClosed = true →
    3 ≤ (s.kdrv k).bad → (s.kdrv k).welded = false → Gives (.weldedContact k) s fun t =>
    ((t.kdrv k).welded = true ∧ t.rd 0x4021 (k + 1) dev = 5 ∧ bit (t.rdN 0x4000 2 dev) 2 = true) ∧ Frame [.reg 0x4000,
      .reg 0x4021, .reg 0x6000, .dies, .sup, .trail] s t)

/-- The faults of the supervisor itself take the safe state (R365). Derived from these rules: each clause says when
its command is carried out, the state it then answers, and the parts of the state outside which nothing changes. -/
def Obligations.SafeState : Prop :=
  (∀ (s : State), s.rd 0x4000 1 dev ≠ 2 → Gives .lockstepFault s fun t =>
    (t.InSafeState 0x11 ∧ t.power.afeOn = false) ∧ Frame [.reg 0x3070, .reg 0x341A, .reg 0x344E, .reg 0x344F,
      .reg 0x3450, .reg 0x4000, .reg 0x4010, .reg 0x4021, .reg 0x6000, .units, .dies, .bldc, .axes, .power, .sup, .trail] s t) ∧
  (∀ (dv : Int) (s : State), s.rd 0x4000 1 dev ≠ 2 → 500 < dv.natAbs → Gives (.supervisorClockFault dv) s fun t =>
    (t.InSafeState 0x12 ∧ t.power.afeOn = false) ∧ Frame [.reg 0x3070, .reg 0x341A, .reg 0x344E, .reg 0x344F,
      .reg 0x3450, .reg 0x4000, .reg 0x4010, .reg 0x4021, .reg 0x6000, .units, .dies, .bldc, .axes, .power, .sup, .trail] s t) ∧
  (∀ (s : State), s.rd 0x4000 1 dev ≠ 2 → Gives .supervisorWatchdog s fun t =>
    (t.InSafeState 0x13 ∧ t.power.afeOn = false) ∧ Frame [.reg 0x3070, .reg 0x341A, .reg 0x344E, .reg 0x344F,
      .reg 0x3450, .reg 0x4000, .reg 0x4010, .reg 0x4021, .reg 0x6000, .units, .dies, .bldc, .axes, .power, .sup, .trail] s t) ∧
  (∀ (s : State), s.rd 0x4000 1 dev ≠ 2 → Gives .memoryFault s fun t =>
    (t.InSafeState 0x14 ∧ t.power.afeOn = false) ∧ Frame [.reg 0x3070, .reg 0x341A, .reg 0x344E, .reg 0x344F,
      .reg 0x3450, .reg 0x4000, .reg 0x4010, .reg 0x4021, .reg 0x6000, .units, .dies, .bldc, .axes, .power, .sup, .trail] s t) ∧
  (∀ (s : State), s.rd 0x4000 1 dev ≠ 2 → Gives .hSafeSupplyFault s fun t =>
    (t.InSafeState 0x15 ∧ t.power.afeOn = false) ∧ Frame [.reg 0x3070, .reg 0x341A, .reg 0x344E, .reg 0x344F,
      .reg 0x3450, .reg 0x4000, .reg 0x4010, .reg 0x4021, .reg 0x6000, .units, .dies, .bldc, .axes, .power, .sup, .trail] s t)

/-- The safety password, the pending set, APPLY and their timeouts (R367, R366, R368). Derived from these rules: each
clause says when its command is carried out, the state it then answers, and the parts of the state outside which
nothing changes. Some clauses rest on readings or choices of the model: log 59 and 60 (one unlock, wrong passwords). A
reset, a start or a plain write may set any register, so a FrameHidden clause frames the rest of the state. -/
def Obligations.ParameterProtection : Prop :=
  (∀ (src : Src) (pw : List Byte) (s : State), s.AcceptsBlob src 0x40F0 1 [dev] pw (fun _ e => unlockCheck pw s e) →
    s.blobChecks src 0x40F0 1 [dev] pw (unlockCheck pw) = none → Gives (.unlock src pw) s fun t =>
    (t.net.unlockBy = some src ∧ t.net.unlockLt = s.lt ∧ t.rd 0x40F0 6 dev = 0) ∧ Frame [.reg 0x1200, .reg 0x1210,
      .reg 0x1310, .reg 0x3101, .reg 0x40F0, .units, .dies, .lockbox, .net, .free] s t) ∧
  (∀ (src : Src) (b : List Byte) (s : State), s.AcceptsBlob src 0x40F0 2 [dev] b (fun _ e => passwordCheck b s e) →
    s.blobChecks src 0x40F0 2 [dev] b (passwordCheck b) = none → Gives (.passwordChange src b) s fun t =>
    (t.rd 0x40F0 6 dev = 0 ∧ ∃ salt, t.lockbox.salt = salt ∧ salt.length = 16 ∧
      t.lockbox.hash = some (sha3 (salt ++ newPassword b))) ∧ Frame [.reg 0x1200, .reg 0x1210, .reg 0x1310, .reg 0x3101,
      .reg 0x40F0, .units, .dies, .lockbox, .net, .free] s t) ∧
  (∀ (src : Src) (v : Nat) (s : State), s.Accepts src 0x40F0 3 [dev] v (fun _ _ => aDone) → Gives (.lock src v) s fun t =>
    (t.net.unlockBy = none ∧ t.lockbox.pending = []) ∧ Frame [.reg 0x1200, .reg 0x1210, .reg 0x1310, .reg 0x3101, .units,
      .dies, .lockbox, .net] s t) ∧
  (∀ (src : Src) (i j : Nat) (e : Inst) (v : Int) (s : State), isRwp i j (instOf e) = true →
    s.Accepts src i j [instOf e] v (rwpCheck i j v) → Gives (.rwpWrite src i j e v) s fun t =>
    (lookup? ⟨i, j, instOf e⟩ t.lockbox.pending = some v ∧ t.rd i j (instOf e) = s.rd i j (instOf e) ∧
      t.net.unlockLt = s.lt) ∧ Frame [.reg 0x1200, .reg 0x1210, .reg 0x1310, .reg 0x3101, .units, .dies, .lockbox, .net] s t) ∧
  (∀ (src : Src) (crc : Nat) (s : State), s.Accepts src 0x40F0 4 [dev] crc (applyCheck src crc) →
      Gives (.apply src crc) s fun t =>
    (t.lockbox.pending = [] ∧ bit (t.rdN 0x4000 2 dev) 1 = true) ∧ FrameHidden [.units, .dies, .bldc, .axes, .sup,
      .lockbox, .net, .free] s t) ∧
  (∀ (s : State), s.net.unlockBy.isSome = true → s.net.unlockLt + tenMinutes ≤ s.lt → Gives .unlockTimeout s fun t =>
    (t.net.unlockBy = none ∧ t.lockbox.pending = []) ∧ Frame [.lockbox, .net] s t) ∧
  (∀ (s : State), s.lockbox.lockedAt.isSome = true → s.lockedOut = false → Gives .lockoutEnd s fun t =>
    (t.lockbox.lockedAt = none ∧ t.rd 0x40F0 6 dev = 0) ∧ Frame [.reg 0x40F0, .lockbox] s t)

/-- Clock loss and return, lock windows, PTP synchronisation and epochs (R372, R375, R377, R381, R382, R389, R390).
Derived from these rules: each clause says when its command is carried out, the state it then answers, and the parts
of the state outside which nothing changes. Some clauses rest on readings or choices of the model: log 52 (sign and
deferral of a step), 53 and 54 (holdover, relock), 154 (lock losses). -/
def Obligations.ClocksAndSynchronisation : Prop :=
  (∀ (die : Nat) (s : State), s.diePop die = true → (s.die die).refPresent = true → Gives (.refclkAbsent die) s fun t =>
    ((t.die die).refPresent = false ∧ t.clock.withheld = true ∧
      ((s.die die).loop.state = 2 → (t.loop (die + 1)).state = 3)) ∧ Frame [.reg 0x1106, .reg 0x6000, .clock, .dies,
      .trail] s t) ∧
  (∀ (die : Nat) (s : State), s.diePop die = true → (s.die die).refPresent = false → Gives (.refclkPresent die) s fun t =>
    ((t.die die).refPresent = true ∧ (die = 0 → t.clock.phase = 0)) ∧ Frame [.reg 0x6000, .clock, .dies, .trail] s t) ∧
  (∀ (s : State), s.clock.xtal = true → Gives .xtal32Failed s fun t => (t.clock.xtal = false) ∧ Frame [.reg 0x6000, .clock,
      .dies, .trail] s t) ∧
  (∀ (s : State), s.clock.xtal = false → Gives .xtal32Return s fun t => (t.clock.xtal = true) ∧ Frame [.reg 0x6000, .clock,
      .dies, .trail] s t) ∧
  (∀ (l count : Nat) (s : State), s.loopPop l = true → (s.die (loopDie l)).refPresent = true → (s.loop l).state = 2 →
    Gives (.lockWindow l count) s fun t =>
    ((t.loop l).state =
      if 16 < ((count : Int) - expectedCount l).natAbs ∨ (2 < ((count : Int) - expectedCount l).natAbs ∧
      1 ≤ (s.loop l).off) then 3 else 2) ∧ Frame [.reg 0x1106, .reg 0x2402, .reg 0x2444, .reg 0x3040, .reg 0x3050,
      .reg 0x3070, .reg 0x3101, .reg 0x341A, .reg 0x3420, .reg 0x344E, .reg 0x344F, .reg 0x3450, .reg 0x3457,
      .reg 0x6000, .reg 0x6010, .reg 0x6012, .clock, .chans, .units, .slots, .engines, .dies, .bldc, .axes, .power,
      .trail, .lane, .flight, .free] s t) ∧
  (∀ (l count : Nat) (s : State), s.loopPop l = true → (s.die (loopDie l)).refPresent = true → (s.loop l).state = 1 →
    s.coastDue l = false → ((count : Int) - expectedCount l).natAbs ≤ 2 → Gives (.lockWindow l count) s fun t =>
    (if 3 ≤ (s.loop l).good then (t.loop l).state = 2 else (t.loop l).state = 1 ∧
      (t.loop l).good = (s.loop l).good + 1) ∧ Frame [.reg 0x1106, .reg 0x2402, .reg 0x2444, .reg 0x3040, .reg 0x3050,
      .reg 0x3070, .reg 0x3101, .reg 0x341A, .reg 0x3420, .reg 0x344E, .reg 0x344F, .reg 0x3450, .reg 0x3457,
      .reg 0x6000, .reg 0x6010, .reg 0x6012, .clock, .chans, .units, .slots, .engines, .dies, .bldc, .axes, .power,
      .trail, .lane, .flight, .free] s t) ∧
  (∀ (l : Nat) (s : State), s.loopPop l = true → s.coastDue l = true →
      Gives (.coastLimit l) s fun t => ((t.loop l).state = 4) ∧ Frame [.reg 0x2402, .reg 0x2444, .reg 0x3040,
      .reg 0x3050, .reg 0x3070, .reg 0x3101, .reg 0x341A, .reg 0x3420, .reg 0x344E, .reg 0x344F, .reg 0x3450,
      .reg 0x3457, .reg 0x6000, .reg 0x6010, .reg 0x6012, .clock, .chans, .units, .slots, .engines, .dies, .bldc, .axes,
      .power, .trail, .lane, .flight, .free] s t) ∧
  (∀ (gm ratio : Int) (port : Nat) (s : State), s.isSlave = true → s.rd 0x1111 5 dev = port → s.rd 0x1200 1 dev ≠ 4 →
    Gives (.sync gm ratio port) s fun t =>
    (t.rd 0x1111 2 dev = s.lt - gm ∧ t.clock.lastSync = s.lt ∧ t.clock.nextRho = s.trimFor (s.lt - gm) ratio ∧
      t.clock.step = (if s.rd 0x1110 6 dev < ((s.lt : Int) - gm).natAbs then some (s.lt - gm) else none)) ∧
      Frame [.reg 0x1111, .clock] s t) ∧
  (∀ (s : State), (s.rd 0x1111 1 dev = 1 ∨ s.rd 0x1111 1 dev = 2) → s.clock.lastSync + 3 * s.syncNs < s.lt →
      Gives .syncTimeout s fun t =>
    (t.rd 0x1111 1 dev = 3 ∧ t.clock.step = none ∧ t.clock.nextRho = s.clock.rho) ∧ Frame [.reg 0x1111, .clock] s t) ∧
  (∀ (off : Int) (e : Nat) (s : State), s.clock.step = some off → s.epochDue = some e → s.vsys = true → s.mayStep = true →
    Gives .ltStep s fun t =>
    (t.lt = ((s.lt : Int) - off).toNat ∧ t.clock.step = none ∧ t.rd 0x1111 7 dev = off ∧
      t.rd 0x1111 6 dev = (s.rd 0x1111 6 dev + 1) % 2 ^ 32) ∧ Frame [.reg 0x1101, .reg 0x1105, .reg 0x1111, .reg 0x2406,
      .reg 0x2407, .reg 0x3180, .reg 0x3181, .reg 0x6000, .clock, .chans, .units, .dies, .adcs, .groups, .qm, .net,
      .trail, .free] s t) ∧
  (∀ (e : Nat) (errs : List Int) (s : State), s.epochDue = some e → s.vsys = true → (s.clock.step = none ∨ s.mayStep = false) →
    Gives (.carrierEpoch errs) s fun t =>
    (t.clock.lastEpoch = e ∧ t.lt = s.lt ∧ t.clock.rho = s.clock.nextRho ∧ t.rd 0x1101 3 dev = s.epochNumber e ∧
      t.rd 0x1111 3 dev = s.clock.nextRho) ∧ Frame [.reg 0x1101, .reg 0x1105, .reg 0x1111, .reg 0x2406, .reg 0x2407,
      .reg 0x3180, .reg 0x3181, .reg 0x6000, .clock, .chans, .units, .dies, .adcs, .groups, .qm, .net, .trail, .free] s t) ∧
  (∀ (src : Src) (n : Nat) (s : State), s.Accepts src 0x1101 1 [dev] n (epochCheck n) → Gives (.epochPeriod src n) s fun t =>
    (t.rd 0x1101 1 dev = n ∧ t.clock.lastEpoch = s.lt) ∧ Frame [.reg 0x1101, .reg 0x1200, .reg 0x1210, .reg 0x1310,
      .reg 0x3101, .clock, .units, .dies, .net] s t)

/-- REST, STANDBY and SLEEP: entries, wakes and requests (R402, R403, R404, R406, R405, R407). Derived from these
rules: each clause says when its command is carried out, the state it then answers, and the parts of the state outside
which nothing changes. Some clauses rest on readings or choices of the model: log 86 (entry to REST at a tick), 75
(mismatch at wake). A reset, a start or a plain write may set any register, so a FrameHidden clause frames the rest of
the state. -/
def Obligations.PowerStates : Prop :=
  (∀ (n : Nat) (s : State), s.sitePop n = true → n ≤ 6 → s.restCond n = true →
    heldFor (s.die n).restSince (s.rdN 0x1210 2 (siteI n) * 1000000) s.lt = true → Gives (.restEntry n) s fun t =>
    (t.rd 0x1200 1 (siteI n) = 2 ∧ (t.die n).restSince = none) ∧ Frame [.reg 0x1200, .reg 0x1210, .reg 0x3101, .chans,
      .units, .dies] s t) ∧
  (∀ (c v x : Nat) (s : State), s.chanPop c = true → s.rd 0x1200 1 (siteI (dieOf c)) = 2 →
    s.leavesBand c (s.pathValue c 0 v) (s.pathValue c 2 x) = true → Gives (.windowLeft c v x) s fun t =>
    (t.rd 0x1200 1 (siteI (dieOf c)) = 1 ∧ t.rd 0x1210 4 (siteI (dieOf c)) = 1) ∧ Frame [.reg 0x1200, .reg 0x1210,
      .reg 0x3101, .chans, .units, .dies] s t) ∧
  (∀ (n x : Nat) (s : State), s.sitePop n = true → (s.die n).wakeAt = some x → x ≤ s.lt → s.rd 0x1200 1 (siteI n) = 2 →
    Gives (.restWakeTimer n) s fun t => (t.rd 0x1200 1 (siteI n) = 1 ∧ t.rd 0x1210 4 (siteI n) = 2) ∧ Frame [.reg 0x1200,
      .reg 0x1210, .reg 0x3101, .units, .dies] s t) ∧
  (∀ (n a b : Nat) (v : Int) (s : State), s.sitePop n = true → s.busUv n (some a) (some b) = some v →
    50 * (v - s.rd 0x3100 4 (siteI n) * 1000).natAbs ≤ (s.rd 0x3100 4 (siteI n) * 1000).natAbs →
      Gives (.busWithinSetpoint n a b) s fun t =>
    ((t.die n).busRamp = false) ∧ Frame [.dies] s t) ∧
  (∀ (src : Src) (s : State), s.Accepts src 0x1201 1 [dev] 1 (powerReqCheck 1) → Gives (.runRequest src) s fun t =>
    (t.standbyDue = 0 ∧ (s.rd 0x1200 1 dev = 3 → t.clock.core = lockedLoop)) ∧ Frame [.reg 0x1200, .reg 0x1210,
      .reg 0x1310, .reg 0x2500, .reg 0x3101, .reg 0x6000, .clock, .units, .slots, .dies, .net, .trail, .standbyDue] s t) ∧
  (∀ (src : Src) (s : State), s.Accepts src 0x1201 1 [dev] 3 (powerReqCheck 3) → Gives (.standbyRequest src) s fun t =>
    (t.standbyDue = if s.rd 0x1200 1 dev = 3 then 0 else 3) ∧ Frame [.reg 0x1200, .reg 0x1210, .reg 0x1310, .reg 0x2500,
      .reg 0x3101, .reg 0x6000, .clock, .units, .slots, .dies, .net, .trail, .standbyDue] s t) ∧
  (∀ (src : Src) (s : State), s.Accepts src 0x1201 1 [dev] 4 (powerReqCheck 4) → Gives (.sleepRequest src) s fun t =>
    (t.standbyDue = 4) ∧ Frame [.reg 0x1200, .reg 0x1210, .reg 0x1310, .reg 0x2500, .reg 0x3101, .reg 0x6000, .clock,
      .units, .slots, .dies, .net, .trail, .standbyDue] s t) ∧
  (∀ (s : State), (s.standbyDue = 3 ∨ s.standbyDue = 4) → s.epochDue.isSome = true → s.mayStandby = true →
    Gives .standbyEntry s fun t => (t.standbyDue = 0 ∧ t.rd 0x1200 1 dev = s.standbyDue) ∧ Frame [.reg 0x1200, .clock,
      .dies, .standbyDue, .sleepLt, .sleepHash, .lane, .flight] s t) ∧
  (∀ (k : Nat) (s : State), s.rd 0x1200 1 dev = 4 → k < 4 → bit (s.rdN 0x1201 2 dev) k = true → Gives (.sleepWake k) s fun t =>
    (t.waking = true) ∧ Frame [.waking] s t) ∧
  (∀ (s : State), s.rd 0x1200 1 dev = 4 → bit (s.rdN 0x1201 2 dev) 4 = true → s.sleepTimer = true →
      Gives .sleepWakeTimer s fun t =>
    (t.waking = true) ∧ Frame [.waking] s t) ∧
  (∀ (hash : List Byte) (s : State), s.waking = true → Gives (.wakeToStandby hash) s fun t =>
    (t.waking = false ∧ t.rd 0x1200 1 dev = if hash = s.sleepHash then 3 else 5) ∧ FrameHidden [.vsys, .fw, .clock,
      .chans, .units, .slots, .engines, .dies, .descs, .adcs, .wins, .queues, .groups, .bldc, .axes, .power, .sup,
      .lockbox, .net, .can, .sec, .standbyDue, .sleepLt, .metNote, .lastMet, .metSilent, .metView, .metViewAt, .tag,
      .sleepHash, .waking, .resetLt, .resetReq, .lane, .flight, .hot] s t)

/-- VIO banks lost and back, and the hub too hot (R531, R528, R536). Derived from these rules: each clause says when
its command is carried out, the state it then answers, and the parts of the state outside which nothing changes. Some
clauses rest on readings or choices of the model: log 81, 82 and 83 (supply events, late banks, hub temperature). -/
def Obligations.SupplyBanks : Prop :=
  (∀ (b mv : Nat) (s : State), s.bankWatched b = true → mv < bankThreshold (s.bank b).cls → s.vioUnder b = false →
    Gives (.vioUndervoltage b mv) s fun t => (t.vioUnder b = true) ∧ Frame [.reg 0x1010, .reg 0x1220, .reg 0x2402,
      .reg 0x2444, .reg 0x3040, .reg 0x3050, .reg 0x3070, .reg 0x3101, .reg 0x341A, .reg 0x3420, .reg 0x344E,
      .reg 0x344F, .reg 0x3450, .reg 0x3457, .reg 0x6000, .reg 0x6010, .reg 0x6012, .chans, .units, .slots, .engines,
      .dies, .bldc, .axes, .power, .qm, .net, .trail, .lane, .flight, .banks] s t) ∧
  (∀ (b mv : Nat) (s : State), s.bankWatched b = true → (s.bank b).since + 320000 ≤ s.clock.cnt → (s.bank b).cls ≠ 0 →
    s.vioUnder b = true → bankThreshold (s.bank b).cls ≤ mv →
      Gives (.vioRecovery b mv) s fun t => (t.vioUnder b = false) ∧ Frame [.reg 0x1220, .reg 0x6000, .dies, .qm, .trail,
      .banks] s t) ∧
  (∀ (b mv : Nat) (s : State), s.bankWatched b = true → (s.bank b).since + 320000 ≤ s.clock.cnt → (s.bank b).cls = 0 →
    Gives (.vioRecovery b mv) s fun t => (t.bank b = { cls := bankClass mv, since := s.clock.cnt }) ∧ Frame [.reg 0x1220,
      .reg 0x6000, .dies, .qm, .trail, .banks] s t) ∧
  (∀ (x : Int) (s : State), s.fw = true → Gives (.hubOverTemperature x) s fun t =>
    (t.rd 0x1221 1 dev = x ∧ t.rd 0x1221 3 dev = max (s.rd 0x1221 3 dev) x ∧
      (x ≤ 10 * s.rd 0x1221 2 dev → t.hot = {}) ∧
      (10 * s.rd 0x1221 2 dev < x → t.hot.since = some (s.hot.since.getD s.clock.cnt) ∧
        (s.hot.since.getD s.clock.cnt + hotTime ≤ s.clock.cnt → s.hot.acted = false → StopsWith 18 s t))) ∧
      Frame [.reg 0x1221, .reg 0x3050, .reg 0x6000, .dies, .power, .trail, .hot] s t)

/-- READ, WRITE, their ranges, the local API and unknown opcodes (R431, R433, R432, R486, R430). Derived from these
rules: each clause says when its command is carried out, the state it then answers, and the parts of the state outside
which nothing changes. A reset, a start or a plain write may set any register, so a FrameHidden clause frames the rest
of the state. -/
def Obligations.ReadsAndWrites : Prop :=
  (∀ (id seq : Nat) (x : Span) (b : List Byte) (u : State) (s : State), s.Hears (.keyway id seq) →
    (s.atRequest (.keyway id seq)).readSpan (.keyway id seq) x false = .ok (u, b) →
      Gives (.read (.keyway id seq) x) s fun t =>
    (t.Sends (sentReply id seq opRead aDone (spanWord x) (spanRange x) b)) ∧ Frame [.reg 0x1310, .net, .sec, .free] s t) ∧
  (∀ (id seq : Nat) (x : Span) (r : Refuse) (s : State), s.Hears (.keyway id seq) →
    (s.atRequest (.keyway id seq)).readSpan (.keyway id seq) x false = .error r → Gives (.read (.keyway id seq) x) s fun t =>
    (t.Sends (sentReply id seq opRead r.code (spanWord x) ((r.inst.map fun e => rangeWord e e).getD (spanRange x)) [])) ∧
      Frame [.reg 0x1310, .net, .sec, .free] s t) ∧
  (∀ (id seq : Nat) (s : State), s.Hears (.keyway id seq) → Gives (.read (.keyway id seq) ⟨0x1302, 0, 1, .dev, .dev⟩) s fun t =>
    (t.Sends (sentReply id seq opRead aDone (addrWord 0x1302 0 1) (rangeWord dev dev) (leInt 2 (s.rd 0x1302 0 dev)))) ∧
      Frame [.reg 0x1310, .net, .sec, .free] s t) ∧
  (∀ (src : Src) (x : Span) (b p : List Byte) (u : State) (s : State), s.Hears src →
    (s.atRequest src).writeSpan src x b false false = (u, .ok p) → u.resetReq = {} → Gives (.write src x b) s fun t =>
    (SameButNet u t) ∧ FrameHidden [.vsys, .fw, .clock, .flash, .flashBlobs, .chans, .units, .slots, .engines, .dies,
      .descs, .adcs, .wins, .queues, .groups, .bldc, .axes, .power, .sup, .lockbox, .qm, .net, .can, .sec, .trail,
      .standbyDue, .sleepLt, .metNote, .lastMet, .metSilent, .metView, .metViewAt, .tag, .sleepHash, .waking, .resetLt,
      .resetReq, .lane, .flight, .hot, .free] s t) ∧
  (∀ (id seq v : Nat) (s : State), s.Hears (.keyway id seq) → s.resetReq = {} → 10 ≤ v → v ≤ 3600 →
    Gives (.write (.keyway id seq) ⟨0x1302, 0, 1, .dev, .dev⟩ (leNat 2 v)) s fun t =>
    (t.rd 0x1302 0 dev = v ∧ t.Sends (sentReply id seq opWrite aDone (addrWord 0x1302 0 1) (rangeWord dev dev) [])) ∧
      FrameHidden [.vsys, .fw, .clock, .flash, .flashBlobs, .chans, .units, .slots, .engines, .dies, .descs, .adcs,
      .wins, .queues, .groups, .bldc, .axes, .power, .sup, .lockbox, .qm, .net, .can, .sec, .trail, .standbyDue,
      .sleepLt, .metNote, .lastMet, .metSilent, .metView, .metViewAt, .tag, .sleepHash, .waking, .resetLt, .resetReq,
      .lane, .flight, .hot, .free] s t) ∧
  (∀ (id seq : Nat) (x : Span) (b : List Byte) (u : State) (s : State), s.Hears (.keyway id seq) →
    (s.atRequest (.keyway id seq)).readSpan (.keyway id seq) x true = .ok (u, b) →
      Gives (.readRange (.keyway id seq) x) s fun t =>
    (t.Sends (sentReply id seq opReadRange aDone (spanWord x) (spanRange x) b)) ∧ Frame [.reg 0x1310, .net, .sec, .free] s t) ∧
  (∀ (id seq c : Nat) (s : State), s.Hears (.keyway id seq) → c < 0x180 → s.instCheck 0x2403 c = aDone →
    Gives (.readRange (.keyway id seq) ⟨0x2403, 5, 1, .ch c, .ch c⟩) s fun t =>
    (t.Sends (sentReply id seq opReadRange aDone (addrWord 0x2403 5 1) (rangeWord c c) (leInt 4 (s.rd 0x2403 5 c)))) ∧
      Frame [.reg 0x1310, .net, .sec, .free] s t) ∧
  (∀ (src : Src) (x : Span) (b p : List Byte) (u : State) (s : State), s.Hears src →
    (s.atRequest src).writeSpan src x b true false = (u, .ok p) → u.resetReq = {} → Gives (.writeRange src x b) s fun t =>
    (SameButNet u t) ∧ FrameHidden [.vsys, .fw, .clock, .flash, .flashBlobs, .chans, .units, .slots, .engines, .dies,
      .descs, .adcs, .wins, .queues, .groups, .bldc, .axes, .power, .sup, .lockbox, .qm, .net, .can, .sec, .trail,
      .standbyDue, .sleepLt, .metNote, .lastMet, .metSilent, .metView, .metViewAt, .tag, .sleepHash, .waking, .resetLt,
      .resetReq, .lane, .flight, .hot, .free] s t) ∧
  (∀ (id seq a b v : Nat) (s : State), s.Hears (.keyway id seq) → s.resetReq = {} → a ≤ b → b < 0x180 →
    (∀ c, a ≤ c → c ≤ b → s.instCheck 0x2403 c = aDone) → v < 2 ^ 32 →
    Gives (.writeRange (.keyway id seq) ⟨0x2403, 5, 1, .ch a, .ch b⟩ (leNat 4 v)) s fun t =>
    (∀ c, a ≤ c → c ≤ b → t.rd 0x2403 5 c = v) ∧ FrameHidden [.vsys, .fw, .clock, .flash, .flashBlobs, .chans, .units,
      .slots, .engines, .dies, .descs, .adcs, .wins, .queues, .groups, .bldc, .axes, .power, .sup, .lockbox, .qm, .net,
      .can, .sec, .trail, .standbyDue, .sleepLt, .metNote, .lastMet, .metSilent, .metView, .metViewAt, .tag, .sleepHash,
      .waking, .resetLt, .resetReq, .lane, .flight, .hot, .free] s t) ∧
  (∀ (c : Nat) (s : State), s.Hears .user → c < 0x180 → s.instCheck 0x2403 c = aDone →
    Gives (.apiCall ⟨0x2403, 5, 1, .ch c, .ch c⟩ none) s fun t => (t.net.local' = some (aDone,
      leInt 4 (s.rd 0x2403 5 c))) ∧ FrameHidden [.vsys, .fw, .clock, .flash, .flashBlobs, .chans, .units, .slots,
      .engines, .dies, .descs, .adcs, .wins, .queues, .groups, .bldc, .axes, .power, .sup, .lockbox, .qm, .net, .can,
      .sec, .trail, .standbyDue, .sleepLt, .metNote, .lastMet, .metSilent, .metView, .metViewAt, .tag, .sleepHash,
      .waking, .resetLt, .resetReq, .lane, .flight, .hot, .free] s t) ∧
  (∀ (c v : Nat) (s : State), s.Hears .user → s.resetReq = {} → c < 0x180 → s.instCheck 0x2403 c = aDone → v < 2 ^ 32 →
    Gives (.apiCall ⟨0x2403, 5, 1, .ch c, .ch c⟩ (some (leNat 4 v))) s fun t =>
    (t.net.local' = some (aDone, []) ∧ t.rd 0x2403 5 c = v) ∧ FrameHidden [.vsys, .fw, .clock, .flash, .flashBlobs,
      .chans, .units, .slots, .engines, .dies, .descs, .adcs, .wins, .queues, .groups, .bldc, .axes, .power, .sup,
      .lockbox, .qm, .net, .can, .sec, .trail, .standbyDue, .sleepLt, .metNote, .lastMet, .metSilent, .metView,
      .metViewAt, .tag, .sleepHash, .waking, .resetLt, .resetReq, .lane, .flight, .hot, .free] s t) ∧
  (∀ (id seq op w3 w4 : Nat) (s : State), s.Hears (.keyway id seq) → hostOps.contains op = false →
    Gives (.unknownOpcode (.keyway id seq) op w3 w4) s fun t =>
    (t.Sends (sentReply id seq op aUnknownOp w3 w4 [])) ∧ Frame [.reg 0x1310, .net] s t)

/-- Segmented transfers open, fill, end, fail, abort and time out (R434, R435, R436, R437, R445). Derived from these
rules: each clause says when its command is carried out, the state it then answers, and the parts of the state outside
which nothing changes. Some clauses rest on readings or choices of the model: log 124 and 125 (who may open what). A
reset, a start or a plain write may set any register, so a FrameHidden clause frames the rest of the state. -/
def Obligations.SegmentedTransfers : Prop :=
  (∀ (id seq total : Nat) (x : Session) (span : Span) (s : State), s.Hears (.keyway id seq) → s.session? id = some x →
      s.transfersFull x = false →
    total < 2 ^ 32 → countsOk span true = true → totalCheck (.keyway id seq) span total = aDone →
    (s.atRequest (.keyway id seq)).initChecks (.keyway id seq) span total = none →
    Gives (.segInitWrite (.keyway id seq) span ([1, 0, 0, 0] ++ leNat 4 total)) s fun t =>
    (∃ y, t.session? id = some y ∧ ∃ z, y.transfers = x.transfers ++ [z] ∧ z.id = seq ∧ z.write = true ∧ z.span = span ∧
      z.pieces = ⟨total, []⟩) ∧ Frame [.reg 0x1310, .net, .sec, .free] s t) ∧
  (∀ (id seq : Nat) (x : Session) (s : State), s.Hears (.keyway id seq) → s.session? id = some x → s.transfersFull x = false →
    Gives (.segInitRead (.keyway id seq) ⟨0x1302, 0, 1, .dev, .dev⟩ [0, 0, 0, 0, 0, 0, 0, 0]) s fun t =>
    (t.Sends (sentReply id seq opSegInit aDone (addrWord 0x1302 0 1) (rangeWord dev dev) (leNat 4 2)) ∧
      ∃ y, t.session? id = some y ∧ ∃ z, y.transfers = x.transfers ++ [z] ∧ z.id = seq ∧ z.write = false ∧
        z.snapshot = leInt 2 (s.rd 0x1302 0 dev)) ∧ Frame [.reg 0x1310, .net, .sec, .free] s t) ∧
  (∀ (id seq tr off : Nat) (x : Session) (y : Transfer) (d : List Byte) (s : State), s.Hears (.keyway id seq) →
      s.session? id = some x →
    x.transfer? tr = some y → y.write = true → off + d.length ≤ y.pieces.total →
      Gives (.segDataWrite (.keyway id seq) tr off d) s fun t =>
    (∃ x', t.session? id = some x' ∧ ∃ y', x'.transfer? tr = some y' ∧ y'.pieces.parts = y.pieces.parts ++ [(off, d)] ∧
      y'.lastLt = s.lt) ∧ Frame [.reg 0x1310, .net] s t) ∧
  (∀ (id seq tr off n : Nat) (x : Session) (y : Transfer) (s : State), s.Hears (.keyway id seq) → s.session? id = some x →
    x.transfer? tr = some y → y.write = false → 1 ≤ n → n ≤ 1408 → off < y.pieces.total →
    Gives (.segDataRead (.keyway id seq) tr off (leNat 4 n)) s fun t =>
    (t.Sends (sentReply id seq opSegData aDone off tr (sliceB y.snapshot off n))) ∧ Frame [.reg 0x1310, .net] s t) ∧
  (∀ (id seq tr v : Nat) (x : Session) (y : Transfer) (s : State), s.Hears (.keyway id seq) → s.resetReq = {} →
      s.session? id = some x →
    x.transfer? tr = some y → y.write = true → y.span = ⟨0x1302, 0, 1, .dev, .dev⟩ → y.pieces.whole = some (leNat 2 v) →
      10 ≤ v → v ≤ 3600 →
    Gives (.segEndWrite (.keyway id seq) tr (crc32 (leNat 2 v))) s fun t =>
    (t.rd 0x1302 0 dev = v ∧ (t.session? id).bind (·.transfer? tr) = none) ∧ FrameHidden [.vsys, .fw, .clock, .flash,
      .flashBlobs, .chans, .units, .slots, .engines, .dies, .descs, .adcs, .wins, .queues, .groups, .bldc, .axes, .power,
      .sup, .lockbox, .qm, .net, .can, .sec, .trail, .standbyDue, .sleepLt, .metNote, .lastMet, .metSilent, .metView,
      .metViewAt, .tag, .sleepHash, .waking, .resetLt, .resetReq, .lane, .flight, .hot, .free] s t) ∧
  (∀ (id seq tr crc : Nat) (x : Session) (y : Transfer) (p : List Byte) (u : State) (s : State), s.Hears (.keyway id seq) →
    s.session? id = some x → x.transfer? tr = some y → y.write = true →
    ((s.atRequest (.keyway id seq)).closeTransfer (.keyway id seq) tr).applyTransfer (.keyway id seq) y (some crc) = (u,
      .ok p) →
    u.resetReq = {} → Gives (.segEndWrite (.keyway id seq) tr crc) s fun t =>
    (SameButNet u t) ∧ FrameHidden [.vsys, .fw, .clock, .flash, .flashBlobs, .chans, .units, .slots, .engines, .dies,
      .descs, .adcs, .wins, .queues, .groups, .bldc, .axes, .power, .sup, .lockbox, .qm, .net, .can, .sec, .trail,
      .standbyDue, .sleepLt, .metNote, .lastMet, .metSilent, .metView, .metViewAt, .tag, .sleepHash, .waking, .resetLt,
      .resetReq, .lane, .flight, .hot, .free] s t) ∧
  (∀ (id seq tr crc : Nat) (b : List Byte) (x : Session) (y : Transfer) (s : State), s.Hears (.keyway id seq) →
      s.resetReq = {} →
    s.session? id = some x → x.transfer? tr = some y → y.write = true → y.pieces.whole = some b → crc ≠ crc32 b →
    Gives (.segEndWrite (.keyway id seq) tr crc) s fun t =>
    (t.Sends (sentReply id seq opSegEnd aCrc 0 tr []) ∧ (t.session? id).bind (·.transfer? tr) = none) ∧
      FrameHidden [.vsys, .fw, .clock, .flash, .flashBlobs, .chans, .units, .slots, .engines, .dies, .descs, .adcs,
      .wins, .queues, .groups, .bldc, .axes, .power, .sup, .lockbox, .qm, .net, .can, .sec, .trail, .standbyDue,
      .sleepLt, .metNote, .lastMet, .metSilent, .metView, .metViewAt, .tag, .sleepHash, .waking, .resetLt, .resetReq,
      .lane, .flight, .hot, .free] s t) ∧
  (∀ (id seq tr : Nat) (x : Session) (y : Transfer) (s : State), s.Hears (.keyway id seq) → s.resetReq = {} →
      s.session? id = some x →
    x.transfer? tr = some y → y.write = false → Gives (.segEndRead (.keyway id seq) tr) s fun t =>
    (t.Sends (sentReply id seq opSegEnd aDone 0 tr []) ∧ (t.session? id).bind (·.transfer? tr) = none) ∧
      FrameHidden [.vsys, .fw, .clock, .flash, .flashBlobs, .chans, .units, .slots, .engines, .dies, .descs, .adcs,
      .wins, .queues, .groups, .bldc, .axes, .power, .sup, .lockbox, .qm, .net, .can, .sec, .trail, .standbyDue,
      .sleepLt, .metNote, .lastMet, .metSilent, .metView, .metViewAt, .tag, .sleepHash, .waking, .resetLt, .resetReq,
      .lane, .flight, .hot, .free] s t) ∧
  (∀ (id seq tr : Nat) (x : Session) (s : State), s.Hears (.keyway id seq) → s.session? id = some x →
      (x.transfer? tr).isSome = true →
    Gives (.abortTransfer (.keyway id seq) tr) s fun t =>
    (t.Sends (sentReply id seq opAbort aDone 0 tr []) ∧ (t.session? id).bind (·.transfer? tr) = none) ∧
      Frame [.reg 0x1310, .net] s t) ∧
  (∀ (id tr : Nat) (x : Session) (y : Transfer) (s : State), s.session? id = some x → x.transfer? tr = some y →
    tickOf y.lastLt + 2000 < tickOf s.lt → Gives (.transferTimeout id tr) s fun t =>
    ((t.session? id).bind (·.transfer? tr) = none ∧ t.rd 0x1310 4 dev = (s.rd 0x1310 4 dev + 1) % 2 ^ 32 ∧
      ∃ n, t.Sends { sentReply id n opAbort aTimeout 0 tr [] with rsp := false }) ∧ Frame [.reg 0x1310, .net, .free] s t)

/-- Subscriptions, NOTIFY and the record stream (R438, R439, R440). Derived from these rules: each clause says when
its command is carried out, the state it then answers, and the parts of the state outside which nothing changes. Some
clauses rest on readings or choices of the model: log 132, 133, 193 and 194 (values of a NOTIFY, order and budget of a
stream). -/
def Obligations.Subscriptions : Prop :=
  (∀ (src : Src) (period handle : Nat) (l : List SubEntry) (s : State), src ≠ .service → s.Hears src → 1 ≤ period →
      period ≤ 10000 →
    handle ≤ 15 → 1 ≤ l.length → l.length ≤ 64 → (s.newSub period handle l).stream = false →
    firstBad (List.range l.length) (s.entryChecks l) = none → s.budgetOk src (s.newSub period handle l) = true →
    Gives (.subscribe src period handle l.length l) s fun t =>
    (t.subsOf src = (s.subsOf src).filter (fun y => y.handle != handle) ++ [s.newSub period handle l]) ∧
      Frame [.reg 0x1310, .net] s t) ∧
  (∀ (src : Src) (handle count : Nat) (l : List SubEntry) (s : State), src ≠ .service → s.Hears src → handle ≤ 15 →
      1 ≤ count → count ≤ 64 →
    l.length = count → Gives (.subscribe src 0 handle count l) s fun t =>
    (t.subsOf src = (s.subsOf src).filter fun y => y.handle != handle) ∧ Frame [.reg 0x1310, .net] s t) ∧
  (∀ (p : Pub) (x : Session) (s : State), s.net.pubs = [p] → s.session? p.session = some x → Gives .notify s fun t =>
    (t.net.pubs = [] ∧ (t.session? p.session).map (·.notifySeq) = some (x.notifySeq + 1) ∧
      t.net.out.map Sent.plain = partsOf false opNotify p.session (x.notifySeq + 1) p.number (handleWord p.handle) p.bytes) ∧
      Frame [.net] s t) ∧
  (∀ (id handle : Nat) (x : Session) (y z : Subscr) (b : List Byte) (lost : Nat) (s : State), s.session? id = some x →
    (x.subs.find? fun y => y.handle == handle && y.stream) = some y → id ≠ 0 → s.reached (.keyway id 0) = true →
      s.clearOut.streamRoom b.length = true →
    s.clearOut.streamNext y = (z, b, lost) → b ≠ [] → Gives (.recordStreamPublish id handle) s fun t =>
    ((t.session? id).map (·.notifySeq) = some (x.notifySeq + 1) ∧
      t.rd 0x1310 8 dev = (s.rd 0x1310 8 dev + lost) % 2 ^ 32) ∧ Frame [.reg 0x1310, .net] s t)

/-- Sessions open, end and time out; datagrams are discarded (R447, R448, R428, R445, R443). Derived from these rules:
each clause says when its command is carried out, the state it then answers, and the parts of the state outside which
nothing changes. Some clauses rest on readings or choices of the model: log 26, 27, 126 and 191 (malformed stage 1,
tag failures, session IDs, octets of a datagram). -/
def Obligations.Sessions : Prop :=
  (∀ (id seq : Nat) (s : State), s.Hears (.keyway id seq) → Gives (.abortSession (.keyway id seq)) s fun t =>
    (t.session? id = none) ∧ Frame [.reg 0x1310, .reg 0x7035, .reg 0x7040, .lockbox, .net, .sec] s t) ∧
  (∀ (seq : Nat) (p : List Byte) (s : State), s.reached (.keyway 0 seq) = true → stage1Ok p = true →
    (fieldAt p 0 1 ≠ 0 ∨ s.rd 0x1304 0 dev ≠ 1) → s.sessionsFull = false → s.net.shakes.length < 2 →
    Gives (.sessionOpenStage1 seq p) s fun t =>
    (t.net.nextId = s.net.nextId % (2 ^ 32 - 1) + 1 ∧ ∃ x, t.net.shakes = s.net.shakes ++ [x] ∧ x.id = s.net.nextId ∧
      x.seq = seq ∧ x.lastLt = s.lt) ∧ Frame [.net, .free] s t) ∧
  (∀ (id seq : Nat) (key sig : List Byte) (x : Handshake) (s : State),
    (s.net.shakes.find? fun x => x.id == id && x.seq == seq) = some x → s.reached (.keyway id seq) = true →
      key.length = 1952 →
    sig.length = 3309 → s.stage3Code x key sig = aDone → Gives (.sessionOpenStage3 id seq key sig) s fun t =>
    ((t.session? id).isSome = true ∧ t.net.shakes = s.net.shakes.filter fun y => y.id != id) ∧ Frame [.net] s t) ∧
  (∀ (d : List Byte) (s : State), s.reached (.keyway 0 0) = true → s.discards d = true → Gives (.datagramDiscard d) s fun t =>
    (t.rd 0x1310 1 dev = (s.rd 0x1310 1 dev + 1) % 2 ^ 32) ∧ Frame [.reg 0x1310] s t) ∧
  (∀ (id : Nat) (s : State), Gives (.handshakeTimeout id) s fun t =>
    (∀ x ∈ t.net.shakes, x ∈ s.net.shakes ∧ ¬ (x.id = id ∧ tickOf x.lastLt + 2000 < tickOf s.lt)) ∧ Frame [.net] s t) ∧
  (∀ (id : Nat) (x : Session) (s : State), s.session? id = some x → x.lastLt + s.rdN 0x1302 0 dev * 1000000000 < s.lt →
    Gives (.sessionIdleTimeout id) s fun t => (t.session? id = none) ∧ Frame [.reg 0x7035, .reg 0x7040, .lockbox, .net,
      .sec] s t) ∧
  (∀ (id seq : Nat) (x : Session) (s : State), s.session? id = some x → Gives (.keptReplyExpiry id seq) s fun t =>
    (∃ y, t.session? id = some y ∧ ∀ r ∈ y.kept, r ∈ x.kept ∧ ¬ (r.seq = seq ∧ r.sentLt + 2000000000 < s.lt)) ∧
      Frame [.net] s t)

/-- STORE, its completion, RESTORE_DEFAULTS and host key slots (R422, R423, R450). Derived from these rules: each
clause says when its command is carried out, the state it then answers, and the parts of the state outside which
nothing changes. Some clauses rest on readings or choices of the model: log 24 (answer of a failed store), 137
(restore), 144 (first host key). A reset, a start or a plain write may set any register, so a FrameHidden clause
frames the rest of the state. -/
def Obligations.StoreAndHostKeys : Prop :=
  (∀ (src : Src) (v : Nat) (s : State), s.Accepts src 0x1010 1 [dev] v storeCheck → Gives (.store src v) s fun t =>
    (t.rd 0x1010 2 dev = 1 ∧ t.net.storing = true) ∧ Frame [.reg 0x1010, .reg 0x1200, .reg 0x1210, .reg 0x1310,
      .reg 0x3101, .units, .dies, .net] s t) ∧
  (∀ (ok : Bool) (s : State), s.net.storing = true → Gives (.storeComplete ok) s fun t =>
    (t.rd 0x1010 2 dev = (if ok then 2 else 3) ∧ t.net.storing = false) ∧ Frame [.reg 0x1010, .flash, .flashBlobs, .net] s t) ∧
  (∀ (src : Src) (v : Nat) (s : State), s.Accepts src 0x1010 3 [dev] v restoreCheck → Gives (.restoreDefaults src v) s fun t =>
    (SameButNet ((s.atRequest src).setDefaults src) t) ∧ FrameHidden [.clock, .flash, .chans, .units, .slots, .engines,
      .dies, .descs, .adcs, .groups, .bldc, .axes, .power, .sup, .lockbox, .qm, .net, .can, .sec, .trail, .standbyDue,
      .lastMet, .metView, .metViewAt, .tag, .resetReq, .lane, .flight, .free] s t) ∧
  (∀ (src : Src) (k : Nat) (b : List Byte) (s : State), s.AcceptsBlob src 0x1303 k [dev] b (hostKeyCheck src k b) →
    Gives (.hostKeySlot src k b) s fun t => (t.rdB 0x1303 k dev = b) ∧ Frame [.reg 0x1200, .reg 0x1210, .reg 0x1310,
      .reg 0x3101, .blob 0x1303, .flashBlobs, .units, .dies, .net] s t)

/-- CAN FD: mode, submit, cancel, deadlines and lost arbitration, and a received frame (R455, R458, R460, R461, R459,
R463). Derived from these rules: each clause says when its command is carried out, the state it then answers, and the
parts of the state outside which nothing changes. Some clauses rest on readings or choices of the model: log 116
(order of cancel, deadline and one-shot). -/
def Obligations.CanTransmit : Prop :=
  (∀ (src : Src) (p v : Nat) (busy : Bool) (s : State), s.Accepts src 0x1400 (p + 1) [dev] v (fun _ _ => aDone) →
    Gives (.canMode src p v busy) s fun t =>
    (t.rd 0x1400 (p + 1) dev = v ∧ (if busy then (t.port p).pendingMode = some v else (t.port p).mode = v)) ∧
      Frame [.reg 0x1200, .reg 0x1210, .reg 0x1310, .reg 0x1400, .reg 0x1413, .reg 0x1414, .reg 0x1415, .reg 0x1418,
      .reg 0x141B, .reg 0x3101, .units, .dies, .net, .can] s t) ∧
  (∀ (src : Src) (p : Nat) (b : List Byte) (rs : List TxRecord) (s : State), parseTx 118 b = some rs →
    s.AcceptsBlob src 0x1410 (p + 1) [dev] b (submitCheck p b) → Gives (.transmitSubmit src p b) s fun t =>
    ((t.port p).fifo = (s.port p).fifo ++ rs.map fun r => r.frame s.lt) ∧ Frame [.reg 0x1200, .reg 0x1210, .reg 0x1310,
      .reg 0x3101, .units, .dies, .net, .can] s t) ∧
  (∀ (src : Src) (p h : Nat) (started : Bool) (s : State), s.Accepts src 0x1411 (p + 1) [dev] h (cancelCheck p h) →
    Gives (.cancel src p h started) s fun t => (SameButNet (cancelSet p h started (s.atRequest src) dev) t) ∧
      Frame [.reg 0x1200, .reg 0x1210, .reg 0x1310, .reg 0x1418, .reg 0x141B, .reg 0x3101, .units, .dies, .net, .can] s t) ∧
  (∀ (src : Src) (p : Nat) (started : Bool) (s : State), s.Accepts src 0x1411 (p + 1) [dev] 0x100 (cancelCheck p 0x100) →
    Gives (.cancelAll src p started) s fun t =>
    (SameButNet (cancelSet p 0x100 started (s.atRequest src) dev) t ∧ (started = false → (t.port p).fifo = [])) ∧
      Frame [.reg 0x1200, .reg 0x1210, .reg 0x1310, .reg 0x1418, .reg 0x141B, .reg 0x3101, .units, .dies, .net, .can] s t) ∧
  (∀ (p h : Nat) (started : Bool) (s : State), p < 2 →
      ((s.port p).fifo.any fun t => t.handle == h && due t.deadline s.lt) = true →
    Gives (.deadlineExpiry p h started) s fun t =>
    (t = s.cancelTx p (fun t => t.handle == h && due t.deadline s.lt) 2 started ∧
      (started = false → (t.port p).fifo = (s.port p).fifo.filter fun t => !(t.handle == h && due t.deadline s.lt))) ∧
      Frame [.reg 0x1418, .reg 0x141B, .can] s t) ∧
  (∀ (p : Nat) (s : State), s.canOn p [1] = true → s.canState p < 2 → (s.port p).fifo ≠ [] →
      Gives (.arbitrationLost p) s fun t =>
    (t.rd 0x141E (p + 1) dev = (s.rd 0x141E (p + 1) dev + 1) % 2 ^ 32) ∧ Frame [.reg 0x1418, .reg 0x141B, .reg 0x141E,
      .can] s t) ∧
  (∀ (p sofLt : Nat) (f : CanFrame) (s : State), s.canOn p [1, 2] = true → s.canState p < 2 → canFrameOk f = true →
    (s.port p).pendingMode = none → s.rdN 0x1414 (p + 1) dev ≤ 255 → Gives (.frameReceived p f sofLt) s fun t =>
    (t.rd 0x1415 (p + 1) dev = s.recDown p ∧ t.rdN 0x1414 (p + 1) dev = s.rdN 0x1414 (p + 1) dev) ∧ Frame [.reg 0x1413,
      .reg 0x1414, .reg 0x1415, .reg 0x1416, .reg 0x1417, .reg 0x1418, .reg 0x141B, .can, .free] s t)

/-- CAN FD: the receive ring, sent frames, bus errors, bus off and the ring consumer (R463, R464, R467, R468, R466).
Derived from these rules: each clause says when its command is carried out, the state it then answers, and the parts
of the state outside which nothing changes. Some clauses rest on readings or choices of the model: log 114, 115, 117
and 196 (ring entries, error states, counters). -/
def Obligations.CanBus : Prop :=
  (∀ (p sofLt : Nat) (f : CanFrame) (s : State), s.canOn p [1, 2] = true → s.canState p = 0 → canFrameOk f = true →
    (s.port p).pendingMode = none → s.rdN 0x1414 (p + 1) dev < 96 → s.rdN 0x1415 (p + 1) dev < 96 →
    (s.rdN 0x1418 (p + 1) dev + 65536 - s.rdN 0x1419 (p + 1) dev) % 65536 ≠ 4096 →
      Gives (.frameReceived p f sofLt) s fun t =>
    (t.rd 0x1418 (p + 1) dev = (s.rd 0x1418 (p + 1) dev + 1) % 65536 ∧
      lookup? (s.rdN 0x1418 (p + 1) dev % 4096) (t.port p).ring = some ⟨sofLt, f, 0, (s.port p).gap, 0, 0⟩) ∧
      Frame [.reg 0x1413, .reg 0x1414, .reg 0x1415, .reg 0x1416, .reg 0x1417, .reg 0x1418, .reg 0x141B, .can, .free] s t) ∧
  (∀ (p sofLt : Nat) (x : CanTx) (l : List CanTx) (s : State), (s.port p).fifo = x :: l → s.canOn p [1] = true →
      s.canState p < 2 →
    (s.port p).pendingMode = none → s.rdN 0x1414 (p + 1) dev ≤ 255 → Gives (.frameSent p sofLt) s fun t =>
    ((t.port p).fifo = l ∧ t.rdN 0x1414 (p + 1) dev = s.rdN 0x1414 (p + 1) dev - 1) ∧ Frame [.reg 0x1413, .reg 0x1414,
      .reg 0x1415, .reg 0x1416, .reg 0x1417, .reg 0x1418, .reg 0x141B, .can] s t) ∧
  (∀ (p code : Nat) (e : CanErr) (own : Bool) (s : State), s.canOn p [1, 2] = true → s.canState p < 2 →
      (s.port p).pendingMode = none →
    s.errTec p e own ≤ 255 → Gives (.busError p e code own) s fun t =>
    (t.rd 0x1414 (p + 1) dev = s.errTec p e own ∧ t.rd 0x1415 (p + 1) dev = s.errRec p e own ∧
      t.canState p = if 127 < s.errTec p e own ∨ 127 < s.errRec p e own then 1 else 0) ∧ Frame [.reg 0x1413, .reg 0x1414,
      .reg 0x1415, .reg 0x1416, .reg 0x1417, .reg 0x1418, .reg 0x141B, .can] s t) ∧
  (∀ (p code : Nat) (e : CanErr) (own : Bool) (s : State), s.canOn p [1, 2] = true → s.canState p < 2 →
      (s.port p).pendingMode = none →
    255 < s.errTec p e own → Gives (.busError p e code own) s fun t =>
    (t.rd 0x1416 (p + 1) dev = (s.rd 0x1416 (p + 1) dev + 1) % 2 ^ 32 ∧ (t.port p).fifo = [] ∧
      t.canState p = if s.rd 0x140B (p + 1) dev = 0 then 3 else 2) ∧ Frame [.reg 0x1413, .reg 0x1414, .reg 0x1415,
      .reg 0x1416, .reg 0x1417, .reg 0x1418, .reg 0x141B, .can] s t) ∧
  (∀ (p n : Nat) (s : State), s.canOn p [1, 2] = true → s.canState p = 3 → (s.port p).ended = false →
      Gives (.busOffRecovery p n) s fun t =>
    (t.rdN 0x1417 (p + 1) dev = min 128 (s.rdN 0x1417 (p + 1) dev + n) ∧
      (128 ≤ s.rdN 0x1417 (p + 1) dev + n → t.rd 0x1414 (p + 1) dev = 0 ∧ t.rd 0x1415 (p + 1) dev = 0 ∧
      t.canState p = 0)) ∧ Frame [.reg 0x1413, .reg 0x1414, .reg 0x1415, .reg 0x1417, .reg 0x1418, .reg 0x141B, .can] s t) ∧
  (∀ (src : Src) (p v : Nat) (s : State), s.Accepts src 0x140C (p + 1) [dev] v (restartCheck p) →
      Gives (.restart src p v) s fun t =>
    (t.canState p = 3 ∧ t.rd 0x1417 (p + 1) dev = 0) ∧ Frame [.reg 0x1200, .reg 0x1210, .reg 0x1310, .reg 0x1413,
      .reg 0x1417, .reg 0x3101, .units, .dies, .net] s t) ∧
  (∀ (src : Src) (p v : Nat) (s : State), s.Accepts src 0x1419 (p + 1) [dev] v (consumerCheck src p v) →
      Gives (.ringConsumer src p v) s fun t =>
    (t.rd 0x1419 (p + 1) dev = v) ∧ Frame [.reg 0x1200, .reg 0x1210, .reg 0x1310, .reg 0x1419, .reg 0x3101, .units,
      .dies, .net] s t)

/-- Customer roots, rollback counters, preferred slots and image loads (R473, R474, R483, R480, R485, R477). Derived
from these rules: each clause says when its command is carried out, the state it then answers, and the parts of the
state outside which nothing changes. Some clauses rest on readings or choices of the model: log 21, 142, 143 and 197
(load pieces, order of refusals, results, the end of 60 s). -/
def Obligations.TrustStoreAndImages : Prop :=
  (∀ (src : Src) (k : Nat) (h : List Byte) (s : State), s.AcceptsBlob src 0x7020 k [dev] h (rootWriteCheck src k h) →
    Gives (.customerRootWrite src k h) s fun t => (t.rdB 0x7020 k dev = h) ∧ Frame [.reg 0x1200, .reg 0x1210,
      .reg 0x1310, .reg 0x3101, .blob 0x7020, .units, .dies, .net] s t) ∧
  (∀ (src : Src) (k v : Nat) (s : State), s.Accepts src 0x7021 k [dev] v (revokeCheck k) →
      Gives (.customerRootRevoke src k v) s fun t =>
    (t.rd 0x7021 k dev = 1) ∧ Frame [.reg 0x1200, .reg 0x1210, .reg 0x1310, .reg 0x3101, .reg 0x7021, .units, .dies,
      .net] s t) ∧
  (∀ (src : Src) (k v : Nat) (s : State), s.Accepts src 0x7031 k [dev] v (rollbackCheck k) →
      Gives (.rollbackCommit src k v) s fun t =>
    (t.rdN 0x7030 k dev = max (s.rdN 0x7030 k dev) (s.rdN 0x7032 k dev)) ∧ Frame [.reg 0x1200, .reg 0x1210, .reg 0x1310,
      .reg 0x3101, .reg 0x7030, .reg 0x7035, .units, .dies, .net, .sec] s t) ∧
  (∀ (src : Src) (k v : Nat) (s : State), s.Accepts src 0x7034 k [dev] v (preferCheck k v) →
      Gives (.preferredSlot src k v) s fun t =>
    (t.rd 0x7034 k dev = v) ∧ Frame [.reg 0x1200, .reg 0x1210, .reg 0x1310, .reg 0x3101, .reg 0x7034, .units, .dies,
      .net, .sec] s t) ∧
  (∀ (src : Src) (ty total : Nat) (s : State), s.Hears src → loadBeginCode src ty total s = aDone →
      Gives (.loadBegin src ty total) s fun t =>
    (t.rd 0x7040 4 dev = 1 ∧ t.rd 0x7040 5 dev = 0 ∧ t.sec.loadTy = ty ∧ t.sec.loadBy = some src ∧ t.loadPieces = ⟨total,
      []⟩) ∧ Frame [.reg 0x1310, .reg 0x7035, .reg 0x7040, .net, .sec] s t) ∧
  (∀ (src : Src) (off : Nat) (d : List Byte) (s : State),
      s.AcceptsBlob src 0x7040 2 [dev] (leNat 4 off ++ d) (pieceCheck off d.length) →
    Gives (.loadPiece src off d) s fun t =>
    (t.loadPieces.total = s.loadPieces.total ∧ t.loadPieces.parts = s.loadPieces.parts ++ [(off, d)] ∧
      t.sec.loadLast = s.lt) ∧ Frame [.reg 0x1200, .reg 0x1210, .reg 0x1310, .reg 0x3101, .units, .dies, .net, .sec] s t) ∧
  (∀ (src : Src) (v : Nat) (flashOk : Bool) (s : State), s.Accepts src 0x7040 3 [dev] v loadEndCheck →
      Gives (.loadEnd src v flashOk) s fun t =>
    (t.rd 0x7040 5 dev = s.loadResult flashOk ∧ t.rd 0x7040 4 dev = (if s.loadResult flashOk = 0 then 3 else 4) ∧
      t.sec.loadBy = none ∧
      (s.loadResult flashOk = 0 → t.preferred (typeSub s.sec.loadTy) = 1 - s.preferred (typeSub s.sec.loadTy))) ∧
      Frame [.reg 0x1200, .reg 0x1210, .reg 0x1310, .reg 0x3101, .reg 0x6000, .reg 0x7034, .reg 0x7035, .reg 0x7040,
      .units, .dies, .net, .sec, .trail] s t) ∧
  (∀ (s : State), s.fw = true → s.rd 0x7040 4 dev = 1 → s.sec.loadLast + 60000000000 < s.lt → Gives .loadAbandon s fun t =>
    (t.rd 0x7040 4 dev = 5 ∧ t.sec.loadBy = none) ∧ Frame [.reg 0x7035, .reg 0x7040, .sec] s t)

/-- The user partition, debug access, the JTAG instructions and attestation (R487, R488, R491, R490, R492, R493).
Derived from these rules: each clause says when its command is carried out, the state it then answers, and the parts
of the state outside which nothing changes. Some clauses rest on readings or choices of the model: log 66, 120 and 197
(checks at a start, nonce of the service port, EXTEST). -/
def Obligations.PartitionDebugAttestation : Prop :=
  (∀ (src : Src) (s : State), s.Accepts src 0x7050 1 [dev] 1 (partitionCheck 1) → Gives (.partitionStart src) s fun t =>
    (t.rd 0x7050 3 dev = 1 ∧ t.rd 0x7050 4 dev = 0 ∧ t.sec.partYield = s.lt) ∧ Frame [.reg 0x1200, .reg 0x1210,
      .reg 0x1310, .reg 0x3101, .reg 0x7032, .reg 0x7050, .blob 0x7033, .units, .dies, .net, .sec] s t) ∧
  (∀ (src : Src) (s : State), s.Accepts src 0x7050 1 [dev] 2 (partitionCheck 2) → s.rd 0x7050 3 dev = 1 →
      Gives (.partitionStop src) s fun t =>
    (t.rd 0x7050 3 dev = 0 ∧ t.net.userSubs = [] ∧ t.sec.userNonce = []) ∧ Frame [.reg 0x1200, .reg 0x1210, .reg 0x1310,
      .reg 0x3101, .reg 0x7032, .reg 0x7050, .blob 0x7033, .units, .dies, .net, .sec] s t) ∧
  (∀ (cause : Nat) (s : State), s.rd 0x7050 3 dev = 1 → 1 ≤ cause → cause ≤ 3 → (cause = 1 →
      s.sec.partYield + 100000000 ≤ s.lt) →
    Gives (.partitionFault cause) s fun t => (t.rd 0x7050 3 dev = 3 ∧ t.rd 0x7050 4 dev = cause ∧ t.net.userSubs = []) ∧
      Frame [.reg 0x6000, .reg 0x7032, .reg 0x7050, .blob 0x7033, .dies, .net, .sec, .trail] s t) ∧
  (∀ (src : Src) (root : Nat) (key sig : List Byte) (s : State),
    s.AcceptsBlob src 0x7060 2 [dev] (leNat 4 root ++ key ++ sig) (debugCheck root key sig) →
      Gives (.debugToken src root key sig) s fun t =>
    (t.sec.debug = true ∧ t.rd 0x7060 4 dev = 2) ∧ Frame [.reg 0x1200, .reg 0x1210, .reg 0x1310, .reg 0x3101,
      .reg 0x7060, .units, .dies, .net, .sec, .free] s t) ∧
  (∀ (src : Src) (v : Nat) (s : State), s.Accepts src 0x7060 3 [dev] v (fun _ _ => aDone) → Gives (.debugLock src v) s fun t =>
    (t.sec.debug = false ∧ t.sec.serviceNonce = [] ∧ t.rd 0x7060 4 dev = if s.sealedPart then 0 else 1) ∧
      Frame [.reg 0x1200, .reg 0x1210, .reg 0x1310, .reg 0x3101, .reg 0x7060, .units, .dies, .lockbox, .net, .sec] s t) ∧
  (∀ (s : State), s.vsys = true → s.sealedPart = false → Gives .idcode s fun t => (t.sec.jtag = 1 ∧ t.tapInstr = 1) ∧
      Frame [.sec] s t) ∧
  (∀ (s : State), s.vsys = true → s.sealedPart = false → Gives .bypass s fun t => (t.sec.jtag = 2 ∧ t.tapInstr = 2) ∧
      Frame [.sec] s t) ∧
  (∀ (bits : List Bool) (s : State), s.vsys = true → s.sealedPart = false → Gives (.samplePreload bits) s fun t =>
    (t.sec.jtag = 3 ∧ t.tapInstr = 3 ∧ t.sec.boundary = bits) ∧ Frame [.sec] s t) ∧
  (∀ (s : State), s.vsys = true → s.sealedPart = false → Gives .extest s fun t =>
    (t.sec.jtag = 4 ∧ t.tapInstr = if s.extestOk then 4 else 2) ∧ Frame [.sec] s t) ∧
  (∀ (s : State), s.sealedPart = true → Gives .extest s fun t => (t = s) ∧ Frame [.sec] s t) ∧
  (∀ (src : Src) (b : List Byte) (s : State), s.AcceptsBlob src 0x7070 1 [dev] b (fun _ _ => aDone) →
      Gives (.attestationNonce src b) s fun t =>
    (t.attNonce src = b) ∧ Frame [.reg 0x1200, .reg 0x1210, .reg 0x1310, .reg 0x3101, .units, .dies, .net, .sec] s t) ∧
  (∀ (q : Bool) (s : State), s.Hears .user → s.sec.userNonce ≠ [] → Gives (.attestationReport .user q) s fun t =>
    (t.sec.userNonce = [] ∧ ∃ b, t.net.local' = some (aDone, b)) ∧ Frame [.reg 0x1310, .net, .sec, .free] s t) ∧
  (∀ (cid sid : Nat) (q : Bool) (s : State), Gives (.attestationReport (.keyway cid sid) q) s fun t =>
    (t = s.segInit (.keyway cid sid) ⟨0x7070, 2, 1, .dev, .dev⟩ (leNat 8 0) (q && s.qmUp)) ∧ Frame [.reg 0x1310, .net,
      .sec, .free] s t)

/-- The read cursor, the freeze, write-0-to-clear and the clears of latches (R500, R502, R555, R516, R517). Derived
from these rules: each clause says when its command is carried out, the state it then answers, and the parts of the
state outside which nothing changes. Some clauses rest on readings or choices of the model: log 78, 79 and 80 (what a
clear looks at and leaves). A reset, a start or a plain write may set any register, so a FrameHidden clause frames the
rest of the state. -/
def Obligations.TrailAndClearing : Prop :=
  (∀ (src : Src) (v : Nat) (s : State), s.Accepts src 0x6000 2 [dev] v (cursorCheck v) → Gives (.readCursor src v) s fun t =>
    (t.rd 0x6000 2 dev = v) ∧ Frame [.reg 0x1200, .reg 0x1210, .reg 0x1310, .reg 0x3101, .reg 0x6000, .units, .dies,
      .net] s t) ∧
  (∀ (src : Src) (v : Nat) (s : State), s.Accepts src 0x6000 5 [dev] v (fun _ _ => aDone) →
      Gives (.freezeSeverity src v) s fun t =>
    (t.rd 0x6000 5 dev = v ∧ (s.frozen = false → t.trail.armed = none)) ∧ Frame [.reg 0x1200, .reg 0x1210, .reg 0x1310,
      .reg 0x3101, .reg 0x6000, .units, .dies, .net, .trail] s t) ∧
  (∀ (src : Src) (v : Nat) (s : State), s.Accepts src 0x6000 8 [dev] v (fun _ _ => aDone) → Gives (.unfreeze src v) s fun t =>
    (SameButNet (unfreezeSet (s.atRequest src) dev) t) ∧ Frame [.reg 0x1200, .reg 0x1210, .reg 0x1310, .reg 0x3101,
      .reg 0x6000, .units, .dies, .net, .trail] s t) ∧
  (∀ (src : Src) (i j : Nat) (e : Inst) (v : Int) (s : State), isZeroClear i j (instOf e) = true →
    s.Accepts src i j [instOf e] v (fun _ _ => aDone) → Gives (.writeZeroToClear src i j e v) s fun t =>
    (SameButNet (numSet src i j v ((s.atRequest src).touch (instOf e)) (instOf e)) t) ∧ FrameHidden [.clock, .flash,
      .chans, .units, .slots, .engines, .dies, .descs, .adcs, .groups, .bldc, .axes, .power, .sup, .lockbox, .qm, .net,
      .can, .sec, .trail, .standbyDue, .lastMet, .metView, .metViewAt, .tag, .resetReq, .lane, .flight, .free] s t) ∧
  (∀ (src : Src) (first last v : Nat) (s : State), s.Accepts src 0x6010 7 (chanRange first last) v clearCheck →
    Gives (.channelLatchClear src first last v) s fun t =>
    (SameButNet (each (chanRange first last) (fun u c => clearSet src (u.touch c) c) (s.atRequest src)) t) ∧
      Frame [.reg 0x1200, .reg 0x1210, .reg 0x1310, .reg 0x2803, .reg 0x2810, .reg 0x3101, .reg 0x3104, .reg 0x6000,
      .reg 0x6010, .units, .dies, .net, .trail, .free] s t) ∧
  (∀ (src : Src) (n v : Nat) (s : State), s.Accepts src 0x6012 4 [siteI n] v dieClearCheck →
      Gives (.dieClear src n v) s fun t =>
    (SameButNet (dieClearSet src ((s.atRequest src).touch (siteI n)) (siteI n)) t) ∧ Frame [.reg 0x1200, .reg 0x1210,
      .reg 0x1310, .reg 0x2801, .reg 0x2803, .reg 0x2810, .reg 0x3101, .reg 0x3104, .reg 0x6000, .reg 0x6010,
      .reg 0x6012, .units, .dies, .net, .trail, .free] s t) ∧
  (∀ (src : Src) (m : Nat) (s : State), s.Accepts src 0x6014 2 [dev] m (fltClearCheck m) →
      Gives (.fltGroupClear src m) s fun t =>
    (SameButNet (fltClearSet src m (s.atRequest src) dev) t) ∧ Frame [.reg 0x1200, .reg 0x1210, .reg 0x1310, .reg 0x3101,
      .reg 0x6000, .reg 0x6014, .units, .dies, .net, .trail, .free] s t) ∧
  (∀ (src : Src) (a v : Nat) (s : State), s.Accepts src 0x6015 (a + 1) [dev] v (bldcClearCheck a) → s.driveState a = 8 →
    Gives (.bldcClear src a v) s fun t => (t.driveState a = 0 ∧ t.rd 0x3420 (a + 1) dev = 0 ∧
      t.rd 0x3400 (a + 1) dev = 0) ∧ Frame [.reg 0x1200, .reg 0x1210, .reg 0x1310, .reg 0x3101, .reg 0x3400, .reg 0x341A,
      .reg 0x3420, .reg 0x6000, .units, .dies, .bldc, .net, .trail, .free] s t) ∧
  (∀ (src : Src) (a v : Nat) (s : State), s.Accepts src 0x6016 (a + 1) [dev] v (axisClearCheck a) → s.axisState a = 7 →
    Gives (.axisClear src a v) s fun t => (t.axisState a = 0 ∧ t.rd 0x3457 (a + 1) dev = 0) ∧ Frame [.reg 0x1200,
      .reg 0x1210, .reg 0x1310, .reg 0x3101, .reg 0x3441, .reg 0x344F, .reg 0x3450, .reg 0x3457, .reg 0x6000, .units,
      .dies, .axes, .net, .trail, .free] s t)

/-- Supervisor start, hub ADC conversions, path tests, the best master, the switch and echoes (R395, R272, R364, R381,
R425, R426, R246). Derived from these rules: each clause says when its command is carried out, the state it then
answers, and the parts of the state outside which nothing changes. Some clauses rest on readings or choices of the
model: log 49 (codes of a conversion), 176 (the frame), 188 (outcome of the best-master algorithm), 192 (queues), 195
(link-local address). -/
def Obligations.HubServices : Prop :=
  (∀ (crc : Nat) (s : State), s.vsys = true → s.sec.dead = false → s.rd 0x4000 1 dev = 0 →
      Gives (.supervisorStart crc) s fun t =>
    (t.rd 0x4000 1 dev = 1 ∧ t.rd 0x4000 2 dev = (if inputsOk s.inFn s.inSrc = true ∧
      crc = s.configCrc [] then 0x0102 else 0x0182) ∧
      1 ≤ t.rd 0x1202 1 dev) ∧ Frame [.reg 0x1202, .reg 0x4000, .reg 0x4021, .sup] s t) ∧
  (∀ (u code : Nat) (s : State), u < 4 → (s.adc 0 u).diagUntil = none → Gives (.hubAdcConversion u code) s fun t =>
    (t.win (16 * u + frameInput u (s.adc 0 u).turn) = s.countWindows (16 * u + frameInput u (s.adc 0 u).turn)
        (s.hubValue (16 * u + frameInput u (s.adc 0 u).turn) (code % 65536)) ∧
      (t.adc 0 u).turn = ((s.adc 0 u).turn + 1) % 96) ∧ Frame [.reg 0x3038, .reg 0x3060, .slots, .adcs, .wins, .queues,
      .power] s t) ∧
  (∀ (x : Nat) (s : State), s.power.testing = some (0, x) → x ≤ s.lt → s.power.tripSeen = true → s.power.testHigh = false →
    Gives (.dcovTestEnd 0) s fun t => (t.power.testing = some (1, s.lt + 10000) ∧ t.power.tripSeen = false) ∧
      Frame [.reg 0x3050, .reg 0x4000, .reg 0x6000, .dies, .power, .trail] s t) ∧
  (∀ (x : Nat) (s : State), s.power.testing = some (1, x) → x ≤ s.lt → s.power.tripSeen = true → s.power.testHigh = false →
    Gives (.dcovTestEnd 1) s fun t =>
    (t = (s.setPower { s.power with testing := none, tripSeen := false }).testsDone ∧ t.power.testing = none) ∧
      Frame [.reg 0x3050, .reg 0x4000, .reg 0x6000, .dies, .power, .trail] s t) ∧
  (∀ (k x : Nat) (s : State), s.power.testing = some (k, x) → x ≤ s.lt → s.power.tripSeen = false →
      Gives (.dcovTestEnd k) s fun t =>
    (t = s.pathFailed 0x52) ∧ Frame [.reg 0x3050, .reg 0x4000, .reg 0x6000, .dies, .power, .trail] s t) ∧
  (∀ (s : State), Gives (.bestMasterClock none) s fun t => (t.rd 0x1111 1 dev = 4 ∧ t.rd 0x1111 5 dev = 0xFF) ∧
      Frame [.reg 0x1111, .blob 0x1111, .clock] s t) ∧
  (∀ (b : List Byte) (p : Nat) (s : State), p < 2 → bit (s.rdN 0x1110 5 dev) p = true → Gives (.bestMasterClock (some (b,
      p))) s fun t =>
    (t.rdB 0x1111 4 dev = b ∧ t.rd 0x1111 5 dev = p ∧
      (s.isSlave = false ∨ s.rdB 0x1111 4 dev ≠ b → t.rd 0x1111 1 dev = 1 ∧ t.clock.lockCount = 0 ∧
      t.clock.lastSync = s.lt)) ∧ Frame [.reg 0x1111, .blob 0x1111, .clock] s t) ∧
  (∀ (port : Nat) (frame : List Byte) (s : State), s.netUp = true → port < 2 → frame.take 6 ≠ s.macAddress →
      frame.length ≤ 1522 →
    Gives (.switchForward port frame) s fun t =>
    (look [] t.net.egress (1 - port) = look [] s.net.egress (1 - port) ++ [(queueOf frame, frame)] ∧
      look [] t.net.egress port = look [] s.net.egress port) ∧ Frame [.reg 0x1301, .net] s t) ∧
  (∀ (port : Nat) (frame : List Byte) (s : State), s.netUp = true → port < 2 → frame.take 6 ≠ s.macAddress →
      1522 < frame.length →
    Gives (.switchForward port frame) s fun t =>
    (t.rd 0x1301 (3 + port) dev = (s.rd 0x1301 (3 + port) dev + 1) % 2 ^ 32 ∧ t.net.egress = s.net.egress) ∧
      Frame [.reg 0x1301, .net] s t) ∧
  (∀ (kind vlan : Nat) (addr : List Byte) (s : State), s.netUp = true → s.fw = true → vlan = s.net.ip.vlan →
      s.ownsAddress kind addr = true →
    Gives (.arpNdpIcmpEcho kind vlan false addr) s fun t => (t.net.answered = s.net.answered + 1) ∧ Frame [.net] s t) ∧
  (∀ (kind vlan : Nat) (fragment : Bool) (addr : List Byte) (s : State),
    vlan ≠ s.net.ip.vlan ∨ fragment = true ∨ s.ownsAddress kind addr = false →
    Gives (.arpNdpIcmpEcho kind vlan fragment addr) s fun t => (t = s) ∧ Frame [.net] s t) ∧
  (∀ (cmd : Nat) (arg : List Byte) (clocked : Nat) (s : State), s.portUp = true → 8 ≤ arg.length → (cmd = 0 ∨ 9 < cmd) →
    Gives (.unknownCommand cmd arg clocked) s fun t => (t.qm.port = some ⟨1, [], clocked⟩) ∧ Frame [.qm] s t)
end

