-- ==== Sys2Proof/Laws/Kept.lean ====
section
/-! SUPPORT. What every operation keeps: the part, the waiting commands, the bounds on sessions and the gates' safety
(Kept). The basic steps of such a proof; the lemmas of the operations, one each, follow in their own files. -/

namespace Sys2Proof.Machine

set_option Elab.async false

theorem Kept.refl (s : State) : Kept s s := ⟨rfl, rfl, rfl, id, id⟩

theorem Kept.trans {a b c : State} (h : Kept a b) (k : Kept b c) : Kept a c :=
  ⟨k.1.trans h.1, k.2.trans h.2, k.3.trans h.3, fun x => k.4 (h.4 x), fun x => k.5 (h.5 x)⟩

theorem Kept.inv {a b : State} (h : Kept a b) (k : a.Inv) : b.Inv :=
  ⟨by have := k.1; unfold State.PartLegal at *; rw [h.variant]; exact this, h.sessions k.2.1, h.gates k.2.2⟩

/-- Use a state that is kept in place of its value. -/
theorem have_of {a : State} {p : Prop} (s : State) (h : Kept a s) (k : Kept a s → p) : p := k h

/-- A state whose part, queue and channels are another's and whose sessions and handshakes are that one's. -/
theorem Kept.record {a s : State}
    {z_vsys z_fw z_clock z_objs z_blobs z_flash z_flashBlobs z_units z_slots z_engines z_dies z_descs z_adcs
    z_wins z_queues z_groups z_bldc z_axes z_power z_sup z_lockbox z_qm z_net z_can z_sec z_trail z_standbyDue
    z_sleepLt z_metNote z_lastMet z_metSilent z_metView z_metViewAt z_tag z_sleepHash z_waking z_resetLt
    z_resetReq z_lane z_flight z_part z_banks z_hot z_free}
    (h : Kept a s) (h1 : z_net.sessions = s.net.sessions) (h2 : z_net.shakes = s.net.shakes) :
    Kept a
    ⟨s.variant, s.sealedPart, z_vsys, z_fw, z_clock, z_objs, z_blobs, z_flash, z_flashBlobs, s.chans, z_units,
    z_slots, z_engines, z_dies, z_descs, z_adcs, z_wins, z_queues, z_groups, z_bldc, z_axes, z_power, z_sup,
    z_lockbox, z_qm, z_net, z_can, z_sec, z_trail, z_standbyDue, z_sleepLt, z_metNote, z_lastMet, z_metSilent,
    z_metView, z_metViewAt, z_tag, z_sleepHash, z_waking, z_resetLt, z_resetReq, z_lane, z_flight, z_part,
    z_banks, z_hot, z_free, s.pending⟩ := by
  refine ⟨h.1, h.2, h.3, fun k => ?_, h.5⟩
  have := h.4 k
  unfold State.SessionsBounded at *
  rw [← h1, ← h2] at this
  exact this

theorem each_kept {α : Type} {a s : State} {f : State → α → State} {l : List α} (h : Kept a s)
    (hf : ∀ y x, Kept a y → Kept a (f y x)) : Kept a (each l f s) := by
  unfold each
  induction l generalizing s with
  | nil => exact h
  | cons x l ih => exact ih (hf s x h)

theorem foldl_kept {α : Type} {a s : State} {f : State → α → State} {l : List α} (h : Kept a s)
    (hf : ∀ y x, Kept a y → Kept a (f y x)) : Kept a (l.foldl f s) := each_kept h hf

theorem when'_kept {a s : State} {f : State → State} {b : Bool} (h : Kept a s) (hf : ∀ y, Kept a y → Kept a (f y)) :
    Kept a (when' b f s) := by
  unfold when'; split
  · exact hf s h
  · exact h

/-- The answer of a request keeps what it answers with. -/
structure KeptAns (a : State) (r : Ans) : Prop where
  keep : ∀ s b, r = .ok (s, b) → Kept a s

theorem keptAns_ok {a s : State} {b : List Byte} (h : Kept a s) : KeptAns a (.ok (s, b)) := by
  refine ⟨fun t c e => ?_⟩; cases e; exact h

theorem keptAns_error {a : State} {r : Refuse} : KeptAns a (.error r) := by
  refine ⟨fun t c e => ?_⟩; cases e

theorem done_kept {a s : State} (h : Kept a s) : KeptAns a (done s) := keptAns_ok h

theorem need_kept {a : State} {b : Bool} {c : Nat} {k : Ans} (h : KeptAns a k) : KeptAns a (need b c k) := by
  unfold need; split
  · exact h
  · exact keptAns_error

theorem needDone_kept {a : State} {c : Nat} {k : Ans} (h : KeptAns a k) : KeptAns a (needDone c k) := by
  unfold needDone; split
  · exact h
  · exact keptAns_error

/-- Removing a table's entries, or setting one, keeps what holds of every entry. -/
theorem mem_insertBy {κ α : Type} [DecidableEq κ] {ord : κ → Nat} {k : κ} {v : α} {e : κ × α} :
    ∀ {t : List (κ × α)}, e ∈ insertBy ord k v t → e = (k, v) ∨ e ∈ t
  | [], h => by simpa [insertBy] using h
  | (j, w) :: t, h => by
    unfold insertBy at h
    split at h
    · rcases List.mem_cons.1 h with h | h
      · exact .inr (h ▸ List.mem_cons_self ..)
      · rcases mem_insertBy h with h | h
        · exact .inl h
        · exact .inr (List.mem_cons_of_mem _ h)
    · split at h
      · rcases List.mem_cons.1 h with h | h
        · exact .inl h
        · exact .inr (List.mem_cons_of_mem _ h)
      · rcases List.mem_cons.1 h with h | h
        · exact .inl h
        · exact .inr h

theorem lookup?_mem {κ α : Type} [DecidableEq κ] {k : κ} {v : α} :
    ∀ {t : List (κ × α)}, lookup? k t = some v → (k, v) ∈ t
  | [], h => by simp [lookup?] at h
  | (j, w) :: t, h => by
    unfold lookup? at h
    split at h
    · rename_i e; cases h; subst e; exact List.mem_cons_self ..
    · exact List.mem_cons_of_mem _ (lookup?_mem h)

theorem slice_safe_default : Slice.Safe {} := by
  refine ⟨by simp, ?_, ?_⟩ <;> intro t h <;> simp at h

theorem slice_safe_cut (x : Slice) : x.cut.Safe := by
  refine ⟨by simp [Slice.cut], ?_, ?_⟩ <;> intro t h <;> simp [Slice.cut] at h

theorem Slice.Safe.same {x y : Slice} (hy : y.Safe) (h1 : x.hg = y.hg) (h2 : x.lg = y.lg) (h3 : x.turnOn = y.turnOn) :
    x.Safe := by
  unfold Slice.Safe at *
  rw [h1, h2, h3]
  exact hy

theorem Slice.gateOn_safe {x : Slice} {hi : Bool} {t b : Nat} (h : hi = true → x.lg = false) (k : hi = false → x.hg = false) :
    (x.gateOn hi t b).Safe := by
  cases hi <;> simp_all [Slice.gateOn, Slice.Safe]

theorem Slice.take_safe {x : Slice} (hx : x.Safe) (leg : Leg) (t d m b : Nat) : (x.take leg t d m b).Safe := by
  unfold Slice.take
  obtain ⟨h1, h2, h3⟩ := hx
  split
  · exact ⟨h1, h2, h3⟩
  · cases leg
    · refine ⟨?_, ?_, ?_⟩ <;> simp
    · simp only
      split
      · refine ⟨?_, ?_, ?_⟩ <;> simp
      · refine Slice.Safe.same (Slice.gateOn_safe (t := t) (b := b) (x := x) (hi := false) ?_ ?_) rfl rfl rfl <;> simp_all
    · simp only
      split
      · refine ⟨?_, ?_, ?_⟩ <;> simp [Slice.lowOff]
      · refine Slice.Safe.same (Slice.gateOn_safe (t := t) (b := b) (x := x) (hi := true) ?_ ?_) rfl rfl rfl <;> simp_all

/-- Moving what waits in time leaves the gates as they are. -/
theorem Slice.move_safe {x : Slice} (hx : x.Safe) (d : Int) : (x.move d).Safe := by
  obtain ⟨h1, h2, h3⟩ := hx
  refine ⟨h1, fun t h => ?_, fun t h => ?_⟩ <;>
    · obtain ⟨⟨hi, u⟩, e, f⟩ := Option.map_eq_some_iff.1 h
      cases f
      first | exact h2 u e | exact h3 u e

theorem Slice.correct_safe {x : Slice} (hx : x.Safe) (e : Int) : (x.correct e).Safe :=
  Slice.Safe.same (Slice.move_safe hx (-e)) rfl rfl rfl

/-- Every channel's gates are safe, the ones that the table does not list among them. -/
theorem State.GatesSafe.chan {s : State} (g : s.GatesSafe) (c : Nat) : (s.chan c).slice.Safe := by
  unfold State.chan look
  cases e : lookup? c s.chans with
  | none => exact slice_safe_default
  | some x => exact g _ (lookup?_mem e)

theorem Kept.chan {a s : State} (h : Kept a s) (g : a.GatesSafe) (c : Nat) : (s.chan c).slice.Safe := (h.gates g).chan c

theorem State.setChan_kept {a s : State} (h : Kept a s) {c : Nat} {x : Chan} (hx : a.GatesSafe → x.slice.Safe) :
    Kept a (s.setChan c x) := by
  refine ⟨h.1, h.2, h.3, h.4, fun g e m => ?_⟩
  rcases mem_insertBy m with m | m
  · subst m; exact hx g
  · exact h.5 g e m

theorem State.GatesSafe.filter {s t : State} (g : s.GatesSafe) (h : ∀ e ∈ t.chans, e ∈ s.chans) : t.GatesSafe :=
  fun e m => g e (h e m)

end Sys2Proof.Machine
end

