-- ==== Sys2Proof/Laws/State.lean ====
section
/-! SUPPORT. What each update of the state writes: one lemma for each update and field, and one for each update and
reader, so that no proof unfolds a record update. -/

namespace Sys2Proof.Machine

set_option Elab.async false

/-! wr -/

@[simp] theorem State.wr_variant (s : State) (i j e : Nat) (v : Int) : (s.wr i j e v).variant = s.variant := rfl
@[simp] theorem State.wr_sealedPart (s : State) (i j e : Nat) (v : Int) : (s.wr i j e v).sealedPart = s.sealedPart := rfl
@[simp] theorem State.wr_vsys (s : State) (i j e : Nat) (v : Int) : (s.wr i j e v).vsys = s.vsys := rfl
@[simp] theorem State.wr_fw (s : State) (i j e : Nat) (v : Int) : (s.wr i j e v).fw = s.fw := rfl
@[simp] theorem State.wr_clock (s : State) (i j e : Nat) (v : Int) : (s.wr i j e v).clock = s.clock := rfl
@[simp] theorem State.wr_objs (s : State) (i j e : Nat) (v : Int) : (s.wr i j e v).objs = insertBy Addr.key ⟨i, j, e⟩ v s.objs := rfl
@[simp] theorem State.wr_blobs (s : State) (i j e : Nat) (v : Int) : (s.wr i j e v).blobs = s.blobs := rfl
@[simp] theorem State.wr_flash (s : State) (i j e : Nat) (v : Int) : (s.wr i j e v).flash = s.flash := rfl
@[simp] theorem State.wr_flashBlobs (s : State) (i j e : Nat) (v : Int) : (s.wr i j e v).flashBlobs = s.flashBlobs := rfl
@[simp] theorem State.wr_chans (s : State) (i j e : Nat) (v : Int) : (s.wr i j e v).chans = s.chans := rfl
@[simp] theorem State.wr_units (s : State) (i j e : Nat) (v : Int) : (s.wr i j e v).units = s.units := rfl
@[simp] theorem State.wr_slots (s : State) (i j e : Nat) (v : Int) : (s.wr i j e v).slots = s.slots := rfl
@[simp] theorem State.wr_engines (s : State) (i j e : Nat) (v : Int) : (s.wr i j e v).engines = s.engines := rfl
@[simp] theorem State.wr_dies (s : State) (i j e : Nat) (v : Int) : (s.wr i j e v).dies = s.dies := rfl
@[simp] theorem State.wr_descs (s : State) (i j e : Nat) (v : Int) : (s.wr i j e v).descs = s.descs := rfl
@[simp] theorem State.wr_adcs (s : State) (i j e : Nat) (v : Int) : (s.wr i j e v).adcs = s.adcs := rfl
@[simp] theorem State.wr_wins (s : State) (i j e : Nat) (v : Int) : (s.wr i j e v).wins = s.wins := rfl
@[simp] theorem State.wr_queues (s : State) (i j e : Nat) (v : Int) : (s.wr i j e v).queues = s.queues := rfl
@[simp] theorem State.wr_groups (s : State) (i j e : Nat) (v : Int) : (s.wr i j e v).groups = s.groups := rfl
@[simp] theorem State.wr_bldc (s : State) (i j e : Nat) (v : Int) : (s.wr i j e v).bldc = s.bldc := rfl
@[simp] theorem State.wr_axes (s : State) (i j e : Nat) (v : Int) : (s.wr i j e v).axes = s.axes := rfl
@[simp] theorem State.wr_power (s : State) (i j e : Nat) (v : Int) : (s.wr i j e v).power = s.power := rfl
@[simp] theorem State.wr_sup (s : State) (i j e : Nat) (v : Int) : (s.wr i j e v).sup = s.sup := rfl
@[simp] theorem State.wr_lockbox (s : State) (i j e : Nat) (v : Int) : (s.wr i j e v).lockbox = s.lockbox := rfl
@[simp] theorem State.wr_qm (s : State) (i j e : Nat) (v : Int) : (s.wr i j e v).qm = s.qm := rfl
@[simp] theorem State.wr_net (s : State) (i j e : Nat) (v : Int) : (s.wr i j e v).net = s.net := rfl
@[simp] theorem State.wr_can (s : State) (i j e : Nat) (v : Int) : (s.wr i j e v).can = s.can := rfl
@[simp] theorem State.wr_sec (s : State) (i j e : Nat) (v : Int) : (s.wr i j e v).sec = s.sec := rfl
@[simp] theorem State.wr_trail (s : State) (i j e : Nat) (v : Int) : (s.wr i j e v).trail = s.trail := rfl
@[simp] theorem State.wr_standbyDue (s : State) (i j e : Nat) (v : Int) : (s.wr i j e v).standbyDue = s.standbyDue := rfl
@[simp] theorem State.wr_sleepLt (s : State) (i j e : Nat) (v : Int) : (s.wr i j e v).sleepLt = s.sleepLt := rfl
@[simp] theorem State.wr_metNote (s : State) (i j e : Nat) (v : Int) : (s.wr i j e v).metNote = s.metNote := rfl
@[simp] theorem State.wr_lastMet (s : State) (i j e : Nat) (v : Int) : (s.wr i j e v).lastMet = s.lastMet := rfl
@[simp] theorem State.wr_metSilent (s : State) (i j e : Nat) (v : Int) : (s.wr i j e v).metSilent = s.metSilent := rfl
@[simp] theorem State.wr_metView (s : State) (i j e : Nat) (v : Int) : (s.wr i j e v).metView = s.metView := rfl
@[simp] theorem State.wr_metViewAt (s : State) (i j e : Nat) (v : Int) : (s.wr i j e v).metViewAt = s.metViewAt := rfl
@[simp] theorem State.wr_tag (s : State) (i j e : Nat) (v : Int) : (s.wr i j e v).tag = s.tag := rfl
@[simp] theorem State.wr_sleepHash (s : State) (i j e : Nat) (v : Int) : (s.wr i j e v).sleepHash = s.sleepHash := rfl
@[simp] theorem State.wr_waking (s : State) (i j e : Nat) (v : Int) : (s.wr i j e v).waking = s.waking := rfl
@[simp] theorem State.wr_resetLt (s : State) (i j e : Nat) (v : Int) : (s.wr i j e v).resetLt = s.resetLt := rfl
@[simp] theorem State.wr_resetReq (s : State) (i j e : Nat) (v : Int) : (s.wr i j e v).resetReq = s.resetReq := rfl
@[simp] theorem State.wr_lane (s : State) (i j e : Nat) (v : Int) : (s.wr i j e v).lane = s.lane := rfl
@[simp] theorem State.wr_flight (s : State) (i j e : Nat) (v : Int) : (s.wr i j e v).flight = s.flight := rfl
@[simp] theorem State.wr_part (s : State) (i j e : Nat) (v : Int) : (s.wr i j e v).part = s.part := rfl
@[simp] theorem State.wr_banks (s : State) (i j e : Nat) (v : Int) : (s.wr i j e v).banks = s.banks := rfl
@[simp] theorem State.wr_hot (s : State) (i j e : Nat) (v : Int) : (s.wr i j e v).hot = s.hot := rfl
@[simp] theorem State.wr_free (s : State) (i j e : Nat) (v : Int) : (s.wr i j e v).free = s.free := rfl
@[simp] theorem State.wr_pending (s : State) (i j e : Nat) (v : Int) : (s.wr i j e v).pending = s.pending := rfl

@[simp] theorem State.rdB_wr (s : State) (i j e : Nat) (v : Int) (p q r : Nat) : (s.wr i j e v).rdB p q r = s.rdB p q r := rfl
@[simp] theorem State.chan_wr (s : State) (i j e : Nat) (v : Int) (p : Nat) : (s.wr i j e v).chan p = s.chan p := rfl
@[simp] theorem State.unit_wr (s : State) (i j e : Nat) (v : Int) (p q : Nat) : (s.wr i j e v).unit p q = s.unit p q := rfl
@[simp] theorem State.slot_wr (s : State) (i j e : Nat) (v : Int) (p q : Nat) : (s.wr i j e v).slot p q = s.slot p q := rfl
@[simp] theorem State.eng_wr (s : State) (i j e : Nat) (v : Int) (p q : Nat) : (s.wr i j e v).eng p q = s.eng p q := rfl
@[simp] theorem State.die_wr (s : State) (i j e : Nat) (v : Int) (p : Nat) : (s.wr i j e v).die p = s.die p := rfl
@[simp] theorem State.desc_wr (s : State) (i j e : Nat) (v : Int) (p q : Nat) : (s.wr i j e v).desc p q = s.desc p q := rfl
@[simp] theorem State.adc_wr (s : State) (i j e : Nat) (v : Int) (p q : Nat) : (s.wr i j e v).adc p q = s.adc p q := rfl
@[simp] theorem State.win_wr (s : State) (i j e : Nat) (v : Int) (p : Nat) : (s.wr i j e v).win p = s.win p := rfl
@[simp] theorem State.group_wr (s : State) (i j e : Nat) (v : Int) (p : Nat) : (s.wr i j e v).group p = s.group p := rfl
@[simp] theorem State.drive_wr (s : State) (i j e : Nat) (v : Int) (p : Nat) : (s.wr i j e v).drive p = s.drive p := rfl
@[simp] theorem State.axis_wr (s : State) (i j e : Nat) (v : Int) (p : Nat) : (s.wr i j e v).axis p = s.axis p := rfl
@[simp] theorem State.port_wr (s : State) (i j e : Nat) (v : Int) (p : Nat) : (s.wr i j e v).port p = s.port p := rfl
@[simp] theorem State.queue_wr (s : State) (i j e : Nat) (v : Int) (p : Nat) : (s.wr i j e v).queue p = s.queue p := rfl
@[simp] theorem State.lt_wr (s : State) (i j e : Nat) (v : Int) : (s.wr i j e v).lt = s.lt := rfl
@[simp] theorem State.sitePop_wr (s : State) (i j e : Nat) (v : Int) (p : Nat) : (s.wr i j e v).sitePop p = s.sitePop p := rfl
@[simp] theorem State.chanPop_wr (s : State) (i j e : Nat) (v : Int) (p : Nat) : (s.wr i j e v).chanPop p = s.chanPop p := rfl
@[simp] theorem State.sites_wr (s : State) (i j e : Nat) (v : Int) : (s.wr i j e v).sites = s.sites := rfl

/-! wrB -/

@[simp] theorem State.wrB_variant (s : State) (i j e : Nat) (b : List Byte) : (s.wrB i j e b).variant = s.variant := rfl
@[simp] theorem State.wrB_sealedPart (s : State) (i j e : Nat) (b : List Byte) : (s.wrB i j e b).sealedPart = s.sealedPart := rfl
@[simp] theorem State.wrB_vsys (s : State) (i j e : Nat) (b : List Byte) : (s.wrB i j e b).vsys = s.vsys := rfl
@[simp] theorem State.wrB_fw (s : State) (i j e : Nat) (b : List Byte) : (s.wrB i j e b).fw = s.fw := rfl
@[simp] theorem State.wrB_clock (s : State) (i j e : Nat) (b : List Byte) : (s.wrB i j e b).clock = s.clock := rfl
@[simp] theorem State.wrB_objs (s : State) (i j e : Nat) (b : List Byte) : (s.wrB i j e b).objs = s.objs := rfl
@[simp] theorem State.wrB_blobs (s : State) (i j e : Nat) (b : List Byte) : (s.wrB i j e b).blobs = insertBy Addr.key ⟨i, j, e⟩ b s.blobs := rfl
@[simp] theorem State.wrB_flash (s : State) (i j e : Nat) (b : List Byte) : (s.wrB i j e b).flash = s.flash := rfl
@[simp] theorem State.wrB_flashBlobs (s : State) (i j e : Nat) (b : List Byte) : (s.wrB i j e b).flashBlobs = s.flashBlobs := rfl
@[simp] theorem State.wrB_chans (s : State) (i j e : Nat) (b : List Byte) : (s.wrB i j e b).chans = s.chans := rfl
@[simp] theorem State.wrB_units (s : State) (i j e : Nat) (b : List Byte) : (s.wrB i j e b).units = s.units := rfl
@[simp] theorem State.wrB_slots (s : State) (i j e : Nat) (b : List Byte) : (s.wrB i j e b).slots = s.slots := rfl
@[simp] theorem State.wrB_engines (s : State) (i j e : Nat) (b : List Byte) : (s.wrB i j e b).engines = s.engines := rfl
@[simp] theorem State.wrB_dies (s : State) (i j e : Nat) (b : List Byte) : (s.wrB i j e b).dies = s.dies := rfl
@[simp] theorem State.wrB_descs (s : State) (i j e : Nat) (b : List Byte) : (s.wrB i j e b).descs = s.descs := rfl
@[simp] theorem State.wrB_adcs (s : State) (i j e : Nat) (b : List Byte) : (s.wrB i j e b).adcs = s.adcs := rfl
@[simp] theorem State.wrB_wins (s : State) (i j e : Nat) (b : List Byte) : (s.wrB i j e b).wins = s.wins := rfl
@[simp] theorem State.wrB_queues (s : State) (i j e : Nat) (b : List Byte) : (s.wrB i j e b).queues = s.queues := rfl
@[simp] theorem State.wrB_groups (s : State) (i j e : Nat) (b : List Byte) : (s.wrB i j e b).groups = s.groups := rfl
@[simp] theorem State.wrB_bldc (s : State) (i j e : Nat) (b : List Byte) : (s.wrB i j e b).bldc = s.bldc := rfl
@[simp] theorem State.wrB_axes (s : State) (i j e : Nat) (b : List Byte) : (s.wrB i j e b).axes = s.axes := rfl
@[simp] theorem State.wrB_power (s : State) (i j e : Nat) (b : List Byte) : (s.wrB i j e b).power = s.power := rfl
@[simp] theorem State.wrB_sup (s : State) (i j e : Nat) (b : List Byte) : (s.wrB i j e b).sup = s.sup := rfl
@[simp] theorem State.wrB_lockbox (s : State) (i j e : Nat) (b : List Byte) : (s.wrB i j e b).lockbox = s.lockbox := rfl
@[simp] theorem State.wrB_qm (s : State) (i j e : Nat) (b : List Byte) : (s.wrB i j e b).qm = s.qm := rfl
@[simp] theorem State.wrB_net (s : State) (i j e : Nat) (b : List Byte) : (s.wrB i j e b).net = s.net := rfl
@[simp] theorem State.wrB_can (s : State) (i j e : Nat) (b : List Byte) : (s.wrB i j e b).can = s.can := rfl
@[simp] theorem State.wrB_sec (s : State) (i j e : Nat) (b : List Byte) : (s.wrB i j e b).sec = s.sec := rfl
@[simp] theorem State.wrB_trail (s : State) (i j e : Nat) (b : List Byte) : (s.wrB i j e b).trail = s.trail := rfl
@[simp] theorem State.wrB_standbyDue (s : State) (i j e : Nat) (b : List Byte) : (s.wrB i j e b).standbyDue = s.standbyDue := rfl
@[simp] theorem State.wrB_sleepLt (s : State) (i j e : Nat) (b : List Byte) : (s.wrB i j e b).sleepLt = s.sleepLt := rfl
@[simp] theorem State.wrB_metNote (s : State) (i j e : Nat) (b : List Byte) : (s.wrB i j e b).metNote = s.metNote := rfl
@[simp] theorem State.wrB_lastMet (s : State) (i j e : Nat) (b : List Byte) : (s.wrB i j e b).lastMet = s.lastMet := rfl
@[simp] theorem State.wrB_metSilent (s : State) (i j e : Nat) (b : List Byte) : (s.wrB i j e b).metSilent = s.metSilent := rfl
@[simp] theorem State.wrB_metView (s : State) (i j e : Nat) (b : List Byte) : (s.wrB i j e b).metView = s.metView := rfl
@[simp] theorem State.wrB_metViewAt (s : State) (i j e : Nat) (b : List Byte) : (s.wrB i j e b).metViewAt = s.metViewAt := rfl
@[simp] theorem State.wrB_tag (s : State) (i j e : Nat) (b : List Byte) : (s.wrB i j e b).tag = s.tag := rfl
@[simp] theorem State.wrB_sleepHash (s : State) (i j e : Nat) (b : List Byte) : (s.wrB i j e b).sleepHash = s.sleepHash := rfl
@[simp] theorem State.wrB_waking (s : State) (i j e : Nat) (b : List Byte) : (s.wrB i j e b).waking = s.waking := rfl
@[simp] theorem State.wrB_resetLt (s : State) (i j e : Nat) (b : List Byte) : (s.wrB i j e b).resetLt = s.resetLt := rfl
@[simp] theorem State.wrB_resetReq (s : State) (i j e : Nat) (b : List Byte) : (s.wrB i j e b).resetReq = s.resetReq := rfl
@[simp] theorem State.wrB_lane (s : State) (i j e : Nat) (b : List Byte) : (s.wrB i j e b).lane = s.lane := rfl
@[simp] theorem State.wrB_flight (s : State) (i j e : Nat) (b : List Byte) : (s.wrB i j e b).flight = s.flight := rfl
@[simp] theorem State.wrB_part (s : State) (i j e : Nat) (b : List Byte) : (s.wrB i j e b).part = s.part := rfl
@[simp] theorem State.wrB_banks (s : State) (i j e : Nat) (b : List Byte) : (s.wrB i j e b).banks = s.banks := rfl
@[simp] theorem State.wrB_hot (s : State) (i j e : Nat) (b : List Byte) : (s.wrB i j e b).hot = s.hot := rfl
@[simp] theorem State.wrB_free (s : State) (i j e : Nat) (b : List Byte) : (s.wrB i j e b).free = s.free := rfl
@[simp] theorem State.wrB_pending (s : State) (i j e : Nat) (b : List Byte) : (s.wrB i j e b).pending = s.pending := rfl

@[simp] theorem State.rd_wrB (s : State) (i j e : Nat) (b : List Byte) (p q r : Nat) : (s.wrB i j e b).rd p q r = s.rd p q r := rfl
@[simp] theorem State.rdN_wrB (s : State) (i j e : Nat) (b : List Byte) (p q r : Nat) : (s.wrB i j e b).rdN p q r = s.rdN p q r := rfl
@[simp] theorem State.chan_wrB (s : State) (i j e : Nat) (b : List Byte) (p : Nat) : (s.wrB i j e b).chan p = s.chan p := rfl
@[simp] theorem State.unit_wrB (s : State) (i j e : Nat) (b : List Byte) (p q : Nat) : (s.wrB i j e b).unit p q = s.unit p q := rfl
@[simp] theorem State.slot_wrB (s : State) (i j e : Nat) (b : List Byte) (p q : Nat) : (s.wrB i j e b).slot p q = s.slot p q := rfl
@[simp] theorem State.eng_wrB (s : State) (i j e : Nat) (b : List Byte) (p q : Nat) : (s.wrB i j e b).eng p q = s.eng p q := rfl
@[simp] theorem State.die_wrB (s : State) (i j e : Nat) (b : List Byte) (p : Nat) : (s.wrB i j e b).die p = s.die p := rfl
@[simp] theorem State.desc_wrB (s : State) (i j e : Nat) (b : List Byte) (p q : Nat) : (s.wrB i j e b).desc p q = s.desc p q := rfl
@[simp] theorem State.adc_wrB (s : State) (i j e : Nat) (b : List Byte) (p q : Nat) : (s.wrB i j e b).adc p q = s.adc p q := rfl
@[simp] theorem State.win_wrB (s : State) (i j e : Nat) (b : List Byte) (p : Nat) : (s.wrB i j e b).win p = s.win p := rfl
@[simp] theorem State.group_wrB (s : State) (i j e : Nat) (b : List Byte) (p : Nat) : (s.wrB i j e b).group p = s.group p := rfl
@[simp] theorem State.drive_wrB (s : State) (i j e : Nat) (b : List Byte) (p : Nat) : (s.wrB i j e b).drive p = s.drive p := rfl
@[simp] theorem State.axis_wrB (s : State) (i j e : Nat) (b : List Byte) (p : Nat) : (s.wrB i j e b).axis p = s.axis p := rfl
@[simp] theorem State.port_wrB (s : State) (i j e : Nat) (b : List Byte) (p : Nat) : (s.wrB i j e b).port p = s.port p := rfl
@[simp] theorem State.queue_wrB (s : State) (i j e : Nat) (b : List Byte) (p : Nat) : (s.wrB i j e b).queue p = s.queue p := rfl
@[simp] theorem State.lt_wrB (s : State) (i j e : Nat) (b : List Byte) : (s.wrB i j e b).lt = s.lt := rfl
@[simp] theorem State.sitePop_wrB (s : State) (i j e : Nat) (b : List Byte) (p : Nat) : (s.wrB i j e b).sitePop p = s.sitePop p := rfl
@[simp] theorem State.chanPop_wrB (s : State) (i j e : Nat) (b : List Byte) (p : Nat) : (s.wrB i j e b).chanPop p = s.chanPop p := rfl
@[simp] theorem State.sites_wrB (s : State) (i j e : Nat) (b : List Byte) : (s.wrB i j e b).sites = s.sites := rfl

/-! draw -/

@[simp] theorem State.draw_variant (s : State) : (s.draw).variant = s.variant := rfl
@[simp] theorem State.draw_sealedPart (s : State) : (s.draw).sealedPart = s.sealedPart := rfl
@[simp] theorem State.draw_vsys (s : State) : (s.draw).vsys = s.vsys := rfl
@[simp] theorem State.draw_fw (s : State) : (s.draw).fw = s.fw := rfl
@[simp] theorem State.draw_clock (s : State) : (s.draw).clock = s.clock := rfl
@[simp] theorem State.draw_objs (s : State) : (s.draw).objs = s.objs := rfl
@[simp] theorem State.draw_blobs (s : State) : (s.draw).blobs = s.blobs := rfl
@[simp] theorem State.draw_flash (s : State) : (s.draw).flash = s.flash := rfl
@[simp] theorem State.draw_flashBlobs (s : State) : (s.draw).flashBlobs = s.flashBlobs := rfl
@[simp] theorem State.draw_chans (s : State) : (s.draw).chans = s.chans := rfl
@[simp] theorem State.draw_units (s : State) : (s.draw).units = s.units := rfl
@[simp] theorem State.draw_slots (s : State) : (s.draw).slots = s.slots := rfl
@[simp] theorem State.draw_engines (s : State) : (s.draw).engines = s.engines := rfl
@[simp] theorem State.draw_dies (s : State) : (s.draw).dies = s.dies := rfl
@[simp] theorem State.draw_descs (s : State) : (s.draw).descs = s.descs := rfl
@[simp] theorem State.draw_adcs (s : State) : (s.draw).adcs = s.adcs := rfl
@[simp] theorem State.draw_wins (s : State) : (s.draw).wins = s.wins := rfl
@[simp] theorem State.draw_queues (s : State) : (s.draw).queues = s.queues := rfl
@[simp] theorem State.draw_groups (s : State) : (s.draw).groups = s.groups := rfl
@[simp] theorem State.draw_bldc (s : State) : (s.draw).bldc = s.bldc := rfl
@[simp] theorem State.draw_axes (s : State) : (s.draw).axes = s.axes := rfl
@[simp] theorem State.draw_power (s : State) : (s.draw).power = s.power := rfl
@[simp] theorem State.draw_sup (s : State) : (s.draw).sup = s.sup := rfl
@[simp] theorem State.draw_lockbox (s : State) : (s.draw).lockbox = s.lockbox := rfl
@[simp] theorem State.draw_qm (s : State) : (s.draw).qm = s.qm := rfl
@[simp] theorem State.draw_net (s : State) : (s.draw).net = s.net := rfl
@[simp] theorem State.draw_can (s : State) : (s.draw).can = s.can := rfl
@[simp] theorem State.draw_sec (s : State) : (s.draw).sec = s.sec := rfl
@[simp] theorem State.draw_trail (s : State) : (s.draw).trail = s.trail := rfl
@[simp] theorem State.draw_standbyDue (s : State) : (s.draw).standbyDue = s.standbyDue := rfl
@[simp] theorem State.draw_sleepLt (s : State) : (s.draw).sleepLt = s.sleepLt := rfl
@[simp] theorem State.draw_metNote (s : State) : (s.draw).metNote = s.metNote := rfl
@[simp] theorem State.draw_lastMet (s : State) : (s.draw).lastMet = s.lastMet := rfl
@[simp] theorem State.draw_metSilent (s : State) : (s.draw).metSilent = s.metSilent := rfl
@[simp] theorem State.draw_metView (s : State) : (s.draw).metView = s.metView := rfl
@[simp] theorem State.draw_metViewAt (s : State) : (s.draw).metViewAt = s.metViewAt := rfl
@[simp] theorem State.draw_tag (s : State) : (s.draw).tag = s.tag := rfl
@[simp] theorem State.draw_sleepHash (s : State) : (s.draw).sleepHash = s.sleepHash := rfl
@[simp] theorem State.draw_waking (s : State) : (s.draw).waking = s.waking := rfl
@[simp] theorem State.draw_resetLt (s : State) : (s.draw).resetLt = s.resetLt := rfl
@[simp] theorem State.draw_resetReq (s : State) : (s.draw).resetReq = s.resetReq := rfl
@[simp] theorem State.draw_lane (s : State) : (s.draw).lane = s.lane := rfl
@[simp] theorem State.draw_flight (s : State) : (s.draw).flight = s.flight := rfl
@[simp] theorem State.draw_part (s : State) : (s.draw).part = s.part := rfl
@[simp] theorem State.draw_banks (s : State) : (s.draw).banks = s.banks := rfl
@[simp] theorem State.draw_hot (s : State) : (s.draw).hot = s.hot := rfl
@[simp] theorem State.draw_free (s : State) : (s.draw).free = s.free + 1 := rfl
@[simp] theorem State.draw_pending (s : State) : (s.draw).pending = s.pending := rfl

@[simp] theorem State.rd_draw (s : State) (p q r : Nat) : (s.draw).rd p q r = s.rd p q r := rfl
@[simp] theorem State.rdN_draw (s : State) (p q r : Nat) : (s.draw).rdN p q r = s.rdN p q r := rfl
@[simp] theorem State.rdB_draw (s : State) (p q r : Nat) : (s.draw).rdB p q r = s.rdB p q r := rfl
@[simp] theorem State.chan_draw (s : State) (p : Nat) : (s.draw).chan p = s.chan p := rfl
@[simp] theorem State.unit_draw (s : State) (p q : Nat) : (s.draw).unit p q = s.unit p q := rfl
@[simp] theorem State.slot_draw (s : State) (p q : Nat) : (s.draw).slot p q = s.slot p q := rfl
@[simp] theorem State.eng_draw (s : State) (p q : Nat) : (s.draw).eng p q = s.eng p q := rfl
@[simp] theorem State.die_draw (s : State) (p : Nat) : (s.draw).die p = s.die p := rfl
@[simp] theorem State.desc_draw (s : State) (p q : Nat) : (s.draw).desc p q = s.desc p q := rfl
@[simp] theorem State.adc_draw (s : State) (p q : Nat) : (s.draw).adc p q = s.adc p q := rfl
@[simp] theorem State.win_draw (s : State) (p : Nat) : (s.draw).win p = s.win p := rfl
@[simp] theorem State.group_draw (s : State) (p : Nat) : (s.draw).group p = s.group p := rfl
@[simp] theorem State.drive_draw (s : State) (p : Nat) : (s.draw).drive p = s.drive p := rfl
@[simp] theorem State.axis_draw (s : State) (p : Nat) : (s.draw).axis p = s.axis p := rfl
@[simp] theorem State.port_draw (s : State) (p : Nat) : (s.draw).port p = s.port p := rfl
@[simp] theorem State.queue_draw (s : State) (p : Nat) : (s.draw).queue p = s.queue p := rfl
@[simp] theorem State.lt_draw (s : State) : (s.draw).lt = s.lt := rfl
@[simp] theorem State.sitePop_draw (s : State) (p : Nat) : (s.draw).sitePop p = s.sitePop p := rfl
@[simp] theorem State.chanPop_draw (s : State) (p : Nat) : (s.draw).chanPop p = s.chanPop p := rfl
@[simp] theorem State.sites_draw (s : State) : (s.draw).sites = s.sites := rfl

/-! setChan -/

@[simp] theorem State.setChan_variant (s : State) (c : Nat) (x : Chan) : (s.setChan c x).variant = s.variant := rfl
@[simp] theorem State.setChan_sealedPart (s : State) (c : Nat) (x : Chan) : (s.setChan c x).sealedPart = s.sealedPart := rfl
@[simp] theorem State.setChan_vsys (s : State) (c : Nat) (x : Chan) : (s.setChan c x).vsys = s.vsys := rfl
@[simp] theorem State.setChan_fw (s : State) (c : Nat) (x : Chan) : (s.setChan c x).fw = s.fw := rfl
@[simp] theorem State.setChan_clock (s : State) (c : Nat) (x : Chan) : (s.setChan c x).clock = s.clock := rfl
@[simp] theorem State.setChan_objs (s : State) (c : Nat) (x : Chan) : (s.setChan c x).objs = s.objs := rfl
@[simp] theorem State.setChan_blobs (s : State) (c : Nat) (x : Chan) : (s.setChan c x).blobs = s.blobs := rfl
@[simp] theorem State.setChan_flash (s : State) (c : Nat) (x : Chan) : (s.setChan c x).flash = s.flash := rfl
@[simp] theorem State.setChan_flashBlobs (s : State) (c : Nat) (x : Chan) : (s.setChan c x).flashBlobs = s.flashBlobs := rfl
@[simp] theorem State.setChan_chans (s : State) (c : Nat) (x : Chan) : (s.setChan c x).chans = put s.chans c x := rfl
@[simp] theorem State.setChan_units (s : State) (c : Nat) (x : Chan) : (s.setChan c x).units = s.units := rfl
@[simp] theorem State.setChan_slots (s : State) (c : Nat) (x : Chan) : (s.setChan c x).slots = s.slots := rfl
@[simp] theorem State.setChan_engines (s : State) (c : Nat) (x : Chan) : (s.setChan c x).engines = s.engines := rfl
@[simp] theorem State.setChan_dies (s : State) (c : Nat) (x : Chan) : (s.setChan c x).dies = s.dies := rfl
@[simp] theorem State.setChan_descs (s : State) (c : Nat) (x : Chan) : (s.setChan c x).descs = s.descs := rfl
@[simp] theorem State.setChan_adcs (s : State) (c : Nat) (x : Chan) : (s.setChan c x).adcs = s.adcs := rfl
@[simp] theorem State.setChan_wins (s : State) (c : Nat) (x : Chan) : (s.setChan c x).wins = s.wins := rfl
@[simp] theorem State.setChan_queues (s : State) (c : Nat) (x : Chan) : (s.setChan c x).queues = s.queues := rfl
@[simp] theorem State.setChan_groups (s : State) (c : Nat) (x : Chan) : (s.setChan c x).groups = s.groups := rfl
@[simp] theorem State.setChan_bldc (s : State) (c : Nat) (x : Chan) : (s.setChan c x).bldc = s.bldc := rfl
@[simp] theorem State.setChan_axes (s : State) (c : Nat) (x : Chan) : (s.setChan c x).axes = s.axes := rfl
@[simp] theorem State.setChan_power (s : State) (c : Nat) (x : Chan) : (s.setChan c x).power = s.power := rfl
@[simp] theorem State.setChan_sup (s : State) (c : Nat) (x : Chan) : (s.setChan c x).sup = s.sup := rfl
@[simp] theorem State.setChan_lockbox (s : State) (c : Nat) (x : Chan) : (s.setChan c x).lockbox = s.lockbox := rfl
@[simp] theorem State.setChan_qm (s : State) (c : Nat) (x : Chan) : (s.setChan c x).qm = s.qm := rfl
@[simp] theorem State.setChan_net (s : State) (c : Nat) (x : Chan) : (s.setChan c x).net = s.net := rfl
@[simp] theorem State.setChan_can (s : State) (c : Nat) (x : Chan) : (s.setChan c x).can = s.can := rfl
@[simp] theorem State.setChan_sec (s : State) (c : Nat) (x : Chan) : (s.setChan c x).sec = s.sec := rfl
@[simp] theorem State.setChan_trail (s : State) (c : Nat) (x : Chan) : (s.setChan c x).trail = s.trail := rfl
@[simp] theorem State.setChan_standbyDue (s : State) (c : Nat) (x : Chan) : (s.setChan c x).standbyDue = s.standbyDue := rfl
@[simp] theorem State.setChan_sleepLt (s : State) (c : Nat) (x : Chan) : (s.setChan c x).sleepLt = s.sleepLt := rfl
@[simp] theorem State.setChan_metNote (s : State) (c : Nat) (x : Chan) : (s.setChan c x).metNote = s.metNote := rfl
@[simp] theorem State.setChan_lastMet (s : State) (c : Nat) (x : Chan) : (s.setChan c x).lastMet = s.lastMet := rfl
@[simp] theorem State.setChan_metSilent (s : State) (c : Nat) (x : Chan) : (s.setChan c x).metSilent = s.metSilent := rfl
@[simp] theorem State.setChan_metView (s : State) (c : Nat) (x : Chan) : (s.setChan c x).metView = s.metView := rfl
@[simp] theorem State.setChan_metViewAt (s : State) (c : Nat) (x : Chan) : (s.setChan c x).metViewAt = s.metViewAt := rfl
@[simp] theorem State.setChan_tag (s : State) (c : Nat) (x : Chan) : (s.setChan c x).tag = s.tag := rfl
@[simp] theorem State.setChan_sleepHash (s : State) (c : Nat) (x : Chan) : (s.setChan c x).sleepHash = s.sleepHash := rfl
@[simp] theorem State.setChan_waking (s : State) (c : Nat) (x : Chan) : (s.setChan c x).waking = s.waking := rfl
@[simp] theorem State.setChan_resetLt (s : State) (c : Nat) (x : Chan) : (s.setChan c x).resetLt = s.resetLt := rfl
@[simp] theorem State.setChan_resetReq (s : State) (c : Nat) (x : Chan) : (s.setChan c x).resetReq = s.resetReq := rfl
@[simp] theorem State.setChan_lane (s : State) (c : Nat) (x : Chan) : (s.setChan c x).lane = s.lane := rfl
@[simp] theorem State.setChan_flight (s : State) (c : Nat) (x : Chan) : (s.setChan c x).flight = s.flight := rfl
@[simp] theorem State.setChan_part (s : State) (c : Nat) (x : Chan) : (s.setChan c x).part = s.part := rfl
@[simp] theorem State.setChan_banks (s : State) (c : Nat) (x : Chan) : (s.setChan c x).banks = s.banks := rfl
@[simp] theorem State.setChan_hot (s : State) (c : Nat) (x : Chan) : (s.setChan c x).hot = s.hot := rfl
@[simp] theorem State.setChan_free (s : State) (c : Nat) (x : Chan) : (s.setChan c x).free = s.free := rfl
@[simp] theorem State.setChan_pending (s : State) (c : Nat) (x : Chan) : (s.setChan c x).pending = s.pending := rfl

@[simp] theorem State.rd_setChan (s : State) (c : Nat) (x : Chan) (p q r : Nat) : (s.setChan c x).rd p q r = s.rd p q r := rfl
@[simp] theorem State.rdN_setChan (s : State) (c : Nat) (x : Chan) (p q r : Nat) : (s.setChan c x).rdN p q r = s.rdN p q r := rfl
@[simp] theorem State.rdB_setChan (s : State) (c : Nat) (x : Chan) (p q r : Nat) : (s.setChan c x).rdB p q r = s.rdB p q r := rfl
@[simp] theorem State.unit_setChan (s : State) (c : Nat) (x : Chan) (p q : Nat) : (s.setChan c x).unit p q = s.unit p q := rfl
@[simp] theorem State.slot_setChan (s : State) (c : Nat) (x : Chan) (p q : Nat) : (s.setChan c x).slot p q = s.slot p q := rfl
@[simp] theorem State.eng_setChan (s : State) (c : Nat) (x : Chan) (p q : Nat) : (s.setChan c x).eng p q = s.eng p q := rfl
@[simp] theorem State.die_setChan (s : State) (c : Nat) (x : Chan) (p : Nat) : (s.setChan c x).die p = s.die p := rfl
@[simp] theorem State.desc_setChan (s : State) (c : Nat) (x : Chan) (p q : Nat) : (s.setChan c x).desc p q = s.desc p q := rfl
@[simp] theorem State.adc_setChan (s : State) (c : Nat) (x : Chan) (p q : Nat) : (s.setChan c x).adc p q = s.adc p q := rfl
@[simp] theorem State.win_setChan (s : State) (c : Nat) (x : Chan) (p : Nat) : (s.setChan c x).win p = s.win p := rfl
@[simp] theorem State.group_setChan (s : State) (c : Nat) (x : Chan) (p : Nat) : (s.setChan c x).group p = s.group p := rfl
@[simp] theorem State.drive_setChan (s : State) (c : Nat) (x : Chan) (p : Nat) : (s.setChan c x).drive p = s.drive p := rfl
@[simp] theorem State.axis_setChan (s : State) (c : Nat) (x : Chan) (p : Nat) : (s.setChan c x).axis p = s.axis p := rfl
@[simp] theorem State.port_setChan (s : State) (c : Nat) (x : Chan) (p : Nat) : (s.setChan c x).port p = s.port p := rfl
@[simp] theorem State.queue_setChan (s : State) (c : Nat) (x : Chan) (p : Nat) : (s.setChan c x).queue p = s.queue p := rfl
@[simp] theorem State.lt_setChan (s : State) (c : Nat) (x : Chan) : (s.setChan c x).lt = s.lt := rfl
@[simp] theorem State.sitePop_setChan (s : State) (c : Nat) (x : Chan) (p : Nat) : (s.setChan c x).sitePop p = s.sitePop p := rfl
@[simp] theorem State.chanPop_setChan (s : State) (c : Nat) (x : Chan) (p : Nat) : (s.setChan c x).chanPop p = s.chanPop p := rfl
@[simp] theorem State.sites_setChan (s : State) (c : Nat) (x : Chan) : (s.setChan c x).sites = s.sites := rfl

/-! setUnit -/

@[simp] theorem State.setUnit_variant (s : State) (d u : Nat) (x : GenUnit) : (s.setUnit d u x).variant = s.variant := rfl
@[simp] theorem State.setUnit_sealedPart (s : State) (d u : Nat) (x : GenUnit) : (s.setUnit d u x).sealedPart = s.sealedPart := rfl
@[simp] theorem State.setUnit_vsys (s : State) (d u : Nat) (x : GenUnit) : (s.setUnit d u x).vsys = s.vsys := rfl
@[simp] theorem State.setUnit_fw (s : State) (d u : Nat) (x : GenUnit) : (s.setUnit d u x).fw = s.fw := rfl
@[simp] theorem State.setUnit_clock (s : State) (d u : Nat) (x : GenUnit) : (s.setUnit d u x).clock = s.clock := rfl
@[simp] theorem State.setUnit_objs (s : State) (d u : Nat) (x : GenUnit) : (s.setUnit d u x).objs = s.objs := rfl
@[simp] theorem State.setUnit_blobs (s : State) (d u : Nat) (x : GenUnit) : (s.setUnit d u x).blobs = s.blobs := rfl
@[simp] theorem State.setUnit_flash (s : State) (d u : Nat) (x : GenUnit) : (s.setUnit d u x).flash = s.flash := rfl
@[simp] theorem State.setUnit_flashBlobs (s : State) (d u : Nat) (x : GenUnit) : (s.setUnit d u x).flashBlobs = s.flashBlobs := rfl
@[simp] theorem State.setUnit_chans (s : State) (d u : Nat) (x : GenUnit) : (s.setUnit d u x).chans = s.chans := rfl
@[simp] theorem State.setUnit_units (s : State) (d u : Nat) (x : GenUnit) : (s.setUnit d u x).units = put s.units (128 * d + u) x := rfl
@[simp] theorem State.setUnit_slots (s : State) (d u : Nat) (x : GenUnit) : (s.setUnit d u x).slots = s.slots := rfl
@[simp] theorem State.setUnit_engines (s : State) (d u : Nat) (x : GenUnit) : (s.setUnit d u x).engines = s.engines := rfl
@[simp] theorem State.setUnit_dies (s : State) (d u : Nat) (x : GenUnit) : (s.setUnit d u x).dies = s.dies := rfl
@[simp] theorem State.setUnit_descs (s : State) (d u : Nat) (x : GenUnit) : (s.setUnit d u x).descs = s.descs := rfl
@[simp] theorem State.setUnit_adcs (s : State) (d u : Nat) (x : GenUnit) : (s.setUnit d u x).adcs = s.adcs := rfl
@[simp] theorem State.setUnit_wins (s : State) (d u : Nat) (x : GenUnit) : (s.setUnit d u x).wins = s.wins := rfl
@[simp] theorem State.setUnit_queues (s : State) (d u : Nat) (x : GenUnit) : (s.setUnit d u x).queues = s.queues := rfl
@[simp] theorem State.setUnit_groups (s : State) (d u : Nat) (x : GenUnit) : (s.setUnit d u x).groups = s.groups := rfl
@[simp] theorem State.setUnit_bldc (s : State) (d u : Nat) (x : GenUnit) : (s.setUnit d u x).bldc = s.bldc := rfl
@[simp] theorem State.setUnit_axes (s : State) (d u : Nat) (x : GenUnit) : (s.setUnit d u x).axes = s.axes := rfl
@[simp] theorem State.setUnit_power (s : State) (d u : Nat) (x : GenUnit) : (s.setUnit d u x).power = s.power := rfl
@[simp] theorem State.setUnit_sup (s : State) (d u : Nat) (x : GenUnit) : (s.setUnit d u x).sup = s.sup := rfl
@[simp] theorem State.setUnit_lockbox (s : State) (d u : Nat) (x : GenUnit) : (s.setUnit d u x).lockbox = s.lockbox := rfl
@[simp] theorem State.setUnit_qm (s : State) (d u : Nat) (x : GenUnit) : (s.setUnit d u x).qm = s.qm := rfl
@[simp] theorem State.setUnit_net (s : State) (d u : Nat) (x : GenUnit) : (s.setUnit d u x).net = s.net := rfl
@[simp] theorem State.setUnit_can (s : State) (d u : Nat) (x : GenUnit) : (s.setUnit d u x).can = s.can := rfl
@[simp] theorem State.setUnit_sec (s : State) (d u : Nat) (x : GenUnit) : (s.setUnit d u x).sec = s.sec := rfl
@[simp] theorem State.setUnit_trail (s : State) (d u : Nat) (x : GenUnit) : (s.setUnit d u x).trail = s.trail := rfl
@[simp] theorem State.setUnit_standbyDue (s : State) (d u : Nat) (x : GenUnit) : (s.setUnit d u x).standbyDue = s.standbyDue := rfl
@[simp] theorem State.setUnit_sleepLt (s : State) (d u : Nat) (x : GenUnit) : (s.setUnit d u x).sleepLt = s.sleepLt := rfl
@[simp] theorem State.setUnit_metNote (s : State) (d u : Nat) (x : GenUnit) : (s.setUnit d u x).metNote = s.metNote := rfl
@[simp] theorem State.setUnit_lastMet (s : State) (d u : Nat) (x : GenUnit) : (s.setUnit d u x).lastMet = s.lastMet := rfl
@[simp] theorem State.setUnit_metSilent (s : State) (d u : Nat) (x : GenUnit) : (s.setUnit d u x).metSilent = s.metSilent := rfl
@[simp] theorem State.setUnit_metView (s : State) (d u : Nat) (x : GenUnit) : (s.setUnit d u x).metView = s.metView := rfl
@[simp] theorem State.setUnit_metViewAt (s : State) (d u : Nat) (x : GenUnit) : (s.setUnit d u x).metViewAt = s.metViewAt := rfl
@[simp] theorem State.setUnit_tag (s : State) (d u : Nat) (x : GenUnit) : (s.setUnit d u x).tag = s.tag := rfl
@[simp] theorem State.setUnit_sleepHash (s : State) (d u : Nat) (x : GenUnit) : (s.setUnit d u x).sleepHash = s.sleepHash := rfl
@[simp] theorem State.setUnit_waking (s : State) (d u : Nat) (x : GenUnit) : (s.setUnit d u x).waking = s.waking := rfl
@[simp] theorem State.setUnit_resetLt (s : State) (d u : Nat) (x : GenUnit) : (s.setUnit d u x).resetLt = s.resetLt := rfl
@[simp] theorem State.setUnit_resetReq (s : State) (d u : Nat) (x : GenUnit) : (s.setUnit d u x).resetReq = s.resetReq := rfl
@[simp] theorem State.setUnit_lane (s : State) (d u : Nat) (x : GenUnit) : (s.setUnit d u x).lane = s.lane := rfl
@[simp] theorem State.setUnit_flight (s : State) (d u : Nat) (x : GenUnit) : (s.setUnit d u x).flight = s.flight := rfl
@[simp] theorem State.setUnit_part (s : State) (d u : Nat) (x : GenUnit) : (s.setUnit d u x).part = s.part := rfl
@[simp] theorem State.setUnit_banks (s : State) (d u : Nat) (x : GenUnit) : (s.setUnit d u x).banks = s.banks := rfl
@[simp] theorem State.setUnit_hot (s : State) (d u : Nat) (x : GenUnit) : (s.setUnit d u x).hot = s.hot := rfl
@[simp] theorem State.setUnit_free (s : State) (d u : Nat) (x : GenUnit) : (s.setUnit d u x).free = s.free := rfl
@[simp] theorem State.setUnit_pending (s : State) (d u : Nat) (x : GenUnit) : (s.setUnit d u x).pending = s.pending := rfl

@[simp] theorem State.rd_setUnit (s : State) (d u : Nat) (x : GenUnit) (p q r : Nat) : (s.setUnit d u x).rd p q r = s.rd p q r := rfl
@[simp] theorem State.rdN_setUnit (s : State) (d u : Nat) (x : GenUnit) (p q r : Nat) : (s.setUnit d u x).rdN p q r = s.rdN p q r := rfl
@[simp] theorem State.rdB_setUnit (s : State) (d u : Nat) (x : GenUnit) (p q r : Nat) : (s.setUnit d u x).rdB p q r = s.rdB p q r := rfl
@[simp] theorem State.chan_setUnit (s : State) (d u : Nat) (x : GenUnit) (p : Nat) : (s.setUnit d u x).chan p = s.chan p := rfl
@[simp] theorem State.slot_setUnit (s : State) (d u : Nat) (x : GenUnit) (p q : Nat) : (s.setUnit d u x).slot p q = s.slot p q := rfl
@[simp] theorem State.eng_setUnit (s : State) (d u : Nat) (x : GenUnit) (p q : Nat) : (s.setUnit d u x).eng p q = s.eng p q := rfl
@[simp] theorem State.die_setUnit (s : State) (d u : Nat) (x : GenUnit) (p : Nat) : (s.setUnit d u x).die p = s.die p := rfl
@[simp] theorem State.desc_setUnit (s : State) (d u : Nat) (x : GenUnit) (p q : Nat) : (s.setUnit d u x).desc p q = s.desc p q := rfl
@[simp] theorem State.adc_setUnit (s : State) (d u : Nat) (x : GenUnit) (p q : Nat) : (s.setUnit d u x).adc p q = s.adc p q := rfl
@[simp] theorem State.win_setUnit (s : State) (d u : Nat) (x : GenUnit) (p : Nat) : (s.setUnit d u x).win p = s.win p := rfl
@[simp] theorem State.group_setUnit (s : State) (d u : Nat) (x : GenUnit) (p : Nat) : (s.setUnit d u x).group p = s.group p := rfl
@[simp] theorem State.drive_setUnit (s : State) (d u : Nat) (x : GenUnit) (p : Nat) : (s.setUnit d u x).drive p = s.drive p := rfl
@[simp] theorem State.axis_setUnit (s : State) (d u : Nat) (x : GenUnit) (p : Nat) : (s.setUnit d u x).axis p = s.axis p := rfl
@[simp] theorem State.port_setUnit (s : State) (d u : Nat) (x : GenUnit) (p : Nat) : (s.setUnit d u x).port p = s.port p := rfl
@[simp] theorem State.queue_setUnit (s : State) (d u : Nat) (x : GenUnit) (p : Nat) : (s.setUnit d u x).queue p = s.queue p := rfl
@[simp] theorem State.lt_setUnit (s : State) (d u : Nat) (x : GenUnit) : (s.setUnit d u x).lt = s.lt := rfl
@[simp] theorem State.sitePop_setUnit (s : State) (d u : Nat) (x : GenUnit) (p : Nat) : (s.setUnit d u x).sitePop p = s.sitePop p := rfl
@[simp] theorem State.chanPop_setUnit (s : State) (d u : Nat) (x : GenUnit) (p : Nat) : (s.setUnit d u x).chanPop p = s.chanPop p := rfl
@[simp] theorem State.sites_setUnit (s : State) (d u : Nat) (x : GenUnit) : (s.setUnit d u x).sites = s.sites := rfl

/-! setSlot -/

@[simp] theorem State.setSlot_variant (s : State) (d k : Nat) (x : Slot) : (s.setSlot d k x).variant = s.variant := rfl
@[simp] theorem State.setSlot_sealedPart (s : State) (d k : Nat) (x : Slot) : (s.setSlot d k x).sealedPart = s.sealedPart := rfl
@[simp] theorem State.setSlot_vsys (s : State) (d k : Nat) (x : Slot) : (s.setSlot d k x).vsys = s.vsys := rfl
@[simp] theorem State.setSlot_fw (s : State) (d k : Nat) (x : Slot) : (s.setSlot d k x).fw = s.fw := rfl
@[simp] theorem State.setSlot_clock (s : State) (d k : Nat) (x : Slot) : (s.setSlot d k x).clock = s.clock := rfl
@[simp] theorem State.setSlot_objs (s : State) (d k : Nat) (x : Slot) : (s.setSlot d k x).objs = s.objs := rfl
@[simp] theorem State.setSlot_blobs (s : State) (d k : Nat) (x : Slot) : (s.setSlot d k x).blobs = s.blobs := rfl
@[simp] theorem State.setSlot_flash (s : State) (d k : Nat) (x : Slot) : (s.setSlot d k x).flash = s.flash := rfl
@[simp] theorem State.setSlot_flashBlobs (s : State) (d k : Nat) (x : Slot) : (s.setSlot d k x).flashBlobs = s.flashBlobs := rfl
@[simp] theorem State.setSlot_chans (s : State) (d k : Nat) (x : Slot) : (s.setSlot d k x).chans = s.chans := rfl
@[simp] theorem State.setSlot_units (s : State) (d k : Nat) (x : Slot) : (s.setSlot d k x).units = s.units := rfl
@[simp] theorem State.setSlot_slots (s : State) (d k : Nat) (x : Slot) : (s.setSlot d k x).slots = put s.slots (128 * d + k) x := rfl
@[simp] theorem State.setSlot_engines (s : State) (d k : Nat) (x : Slot) : (s.setSlot d k x).engines = s.engines := rfl
@[simp] theorem State.setSlot_dies (s : State) (d k : Nat) (x : Slot) : (s.setSlot d k x).dies = s.dies := rfl
@[simp] theorem State.setSlot_descs (s : State) (d k : Nat) (x : Slot) : (s.setSlot d k x).descs = s.descs := rfl
@[simp] theorem State.setSlot_adcs (s : State) (d k : Nat) (x : Slot) : (s.setSlot d k x).adcs = s.adcs := rfl
@[simp] theorem State.setSlot_wins (s : State) (d k : Nat) (x : Slot) : (s.setSlot d k x).wins = s.wins := rfl
@[simp] theorem State.setSlot_queues (s : State) (d k : Nat) (x : Slot) : (s.setSlot d k x).queues = s.queues := rfl
@[simp] theorem State.setSlot_groups (s : State) (d k : Nat) (x : Slot) : (s.setSlot d k x).groups = s.groups := rfl
@[simp] theorem State.setSlot_bldc (s : State) (d k : Nat) (x : Slot) : (s.setSlot d k x).bldc = s.bldc := rfl
@[simp] theorem State.setSlot_axes (s : State) (d k : Nat) (x : Slot) : (s.setSlot d k x).axes = s.axes := rfl
@[simp] theorem State.setSlot_power (s : State) (d k : Nat) (x : Slot) : (s.setSlot d k x).power = s.power := rfl
@[simp] theorem State.setSlot_sup (s : State) (d k : Nat) (x : Slot) : (s.setSlot d k x).sup = s.sup := rfl
@[simp] theorem State.setSlot_lockbox (s : State) (d k : Nat) (x : Slot) : (s.setSlot d k x).lockbox = s.lockbox := rfl
@[simp] theorem State.setSlot_qm (s : State) (d k : Nat) (x : Slot) : (s.setSlot d k x).qm = s.qm := rfl
@[simp] theorem State.setSlot_net (s : State) (d k : Nat) (x : Slot) : (s.setSlot d k x).net = s.net := rfl
@[simp] theorem State.setSlot_can (s : State) (d k : Nat) (x : Slot) : (s.setSlot d k x).can = s.can := rfl
@[simp] theorem State.setSlot_sec (s : State) (d k : Nat) (x : Slot) : (s.setSlot d k x).sec = s.sec := rfl
@[simp] theorem State.setSlot_trail (s : State) (d k : Nat) (x : Slot) : (s.setSlot d k x).trail = s.trail := rfl
@[simp] theorem State.setSlot_standbyDue (s : State) (d k : Nat) (x : Slot) : (s.setSlot d k x).standbyDue = s.standbyDue := rfl
@[simp] theorem State.setSlot_sleepLt (s : State) (d k : Nat) (x : Slot) : (s.setSlot d k x).sleepLt = s.sleepLt := rfl
@[simp] theorem State.setSlot_metNote (s : State) (d k : Nat) (x : Slot) : (s.setSlot d k x).metNote = s.metNote := rfl
@[simp] theorem State.setSlot_lastMet (s : State) (d k : Nat) (x : Slot) : (s.setSlot d k x).lastMet = s.lastMet := rfl
@[simp] theorem State.setSlot_metSilent (s : State) (d k : Nat) (x : Slot) : (s.setSlot d k x).metSilent = s.metSilent := rfl
@[simp] theorem State.setSlot_metView (s : State) (d k : Nat) (x : Slot) : (s.setSlot d k x).metView = s.metView := rfl
@[simp] theorem State.setSlot_metViewAt (s : State) (d k : Nat) (x : Slot) : (s.setSlot d k x).metViewAt = s.metViewAt := rfl
@[simp] theorem State.setSlot_tag (s : State) (d k : Nat) (x : Slot) : (s.setSlot d k x).tag = s.tag := rfl
@[simp] theorem State.setSlot_sleepHash (s : State) (d k : Nat) (x : Slot) : (s.setSlot d k x).sleepHash = s.sleepHash := rfl
@[simp] theorem State.setSlot_waking (s : State) (d k : Nat) (x : Slot) : (s.setSlot d k x).waking = s.waking := rfl
@[simp] theorem State.setSlot_resetLt (s : State) (d k : Nat) (x : Slot) : (s.setSlot d k x).resetLt = s.resetLt := rfl
@[simp] theorem State.setSlot_resetReq (s : State) (d k : Nat) (x : Slot) : (s.setSlot d k x).resetReq = s.resetReq := rfl
@[simp] theorem State.setSlot_lane (s : State) (d k : Nat) (x : Slot) : (s.setSlot d k x).lane = s.lane := rfl
@[simp] theorem State.setSlot_flight (s : State) (d k : Nat) (x : Slot) : (s.setSlot d k x).flight = s.flight := rfl
@[simp] theorem State.setSlot_part (s : State) (d k : Nat) (x : Slot) : (s.setSlot d k x).part = s.part := rfl
@[simp] theorem State.setSlot_banks (s : State) (d k : Nat) (x : Slot) : (s.setSlot d k x).banks = s.banks := rfl
@[simp] theorem State.setSlot_hot (s : State) (d k : Nat) (x : Slot) : (s.setSlot d k x).hot = s.hot := rfl
@[simp] theorem State.setSlot_free (s : State) (d k : Nat) (x : Slot) : (s.setSlot d k x).free = s.free := rfl
@[simp] theorem State.setSlot_pending (s : State) (d k : Nat) (x : Slot) : (s.setSlot d k x).pending = s.pending := rfl

@[simp] theorem State.rd_setSlot (s : State) (d k : Nat) (x : Slot) (p q r : Nat) : (s.setSlot d k x).rd p q r = s.rd p q r := rfl
@[simp] theorem State.rdN_setSlot (s : State) (d k : Nat) (x : Slot) (p q r : Nat) : (s.setSlot d k x).rdN p q r = s.rdN p q r := rfl
@[simp] theorem State.rdB_setSlot (s : State) (d k : Nat) (x : Slot) (p q r : Nat) : (s.setSlot d k x).rdB p q r = s.rdB p q r := rfl
@[simp] theorem State.chan_setSlot (s : State) (d k : Nat) (x : Slot) (p : Nat) : (s.setSlot d k x).chan p = s.chan p := rfl
@[simp] theorem State.unit_setSlot (s : State) (d k : Nat) (x : Slot) (p q : Nat) : (s.setSlot d k x).unit p q = s.unit p q := rfl
@[simp] theorem State.eng_setSlot (s : State) (d k : Nat) (x : Slot) (p q : Nat) : (s.setSlot d k x).eng p q = s.eng p q := rfl
@[simp] theorem State.die_setSlot (s : State) (d k : Nat) (x : Slot) (p : Nat) : (s.setSlot d k x).die p = s.die p := rfl
@[simp] theorem State.desc_setSlot (s : State) (d k : Nat) (x : Slot) (p q : Nat) : (s.setSlot d k x).desc p q = s.desc p q := rfl
@[simp] theorem State.adc_setSlot (s : State) (d k : Nat) (x : Slot) (p q : Nat) : (s.setSlot d k x).adc p q = s.adc p q := rfl
@[simp] theorem State.win_setSlot (s : State) (d k : Nat) (x : Slot) (p : Nat) : (s.setSlot d k x).win p = s.win p := rfl
@[simp] theorem State.group_setSlot (s : State) (d k : Nat) (x : Slot) (p : Nat) : (s.setSlot d k x).group p = s.group p := rfl
@[simp] theorem State.drive_setSlot (s : State) (d k : Nat) (x : Slot) (p : Nat) : (s.setSlot d k x).drive p = s.drive p := rfl
@[simp] theorem State.axis_setSlot (s : State) (d k : Nat) (x : Slot) (p : Nat) : (s.setSlot d k x).axis p = s.axis p := rfl
@[simp] theorem State.port_setSlot (s : State) (d k : Nat) (x : Slot) (p : Nat) : (s.setSlot d k x).port p = s.port p := rfl
@[simp] theorem State.queue_setSlot (s : State) (d k : Nat) (x : Slot) (p : Nat) : (s.setSlot d k x).queue p = s.queue p := rfl
@[simp] theorem State.lt_setSlot (s : State) (d k : Nat) (x : Slot) : (s.setSlot d k x).lt = s.lt := rfl
@[simp] theorem State.sitePop_setSlot (s : State) (d k : Nat) (x : Slot) (p : Nat) : (s.setSlot d k x).sitePop p = s.sitePop p := rfl
@[simp] theorem State.chanPop_setSlot (s : State) (d k : Nat) (x : Slot) (p : Nat) : (s.setSlot d k x).chanPop p = s.chanPop p := rfl
@[simp] theorem State.sites_setSlot (s : State) (d k : Nat) (x : Slot) : (s.setSlot d k x).sites = s.sites := rfl

/-! setEng -/

@[simp] theorem State.setEng_variant (s : State) (d k : Nat) (x : Engine) : (s.setEng d k x).variant = s.variant := rfl
@[simp] theorem State.setEng_sealedPart (s : State) (d k : Nat) (x : Engine) : (s.setEng d k x).sealedPart = s.sealedPart := rfl
@[simp] theorem State.setEng_vsys (s : State) (d k : Nat) (x : Engine) : (s.setEng d k x).vsys = s.vsys := rfl
@[simp] theorem State.setEng_fw (s : State) (d k : Nat) (x : Engine) : (s.setEng d k x).fw = s.fw := rfl
@[simp] theorem State.setEng_clock (s : State) (d k : Nat) (x : Engine) : (s.setEng d k x).clock = s.clock := rfl
@[simp] theorem State.setEng_objs (s : State) (d k : Nat) (x : Engine) : (s.setEng d k x).objs = s.objs := rfl
@[simp] theorem State.setEng_blobs (s : State) (d k : Nat) (x : Engine) : (s.setEng d k x).blobs = s.blobs := rfl
@[simp] theorem State.setEng_flash (s : State) (d k : Nat) (x : Engine) : (s.setEng d k x).flash = s.flash := rfl
@[simp] theorem State.setEng_flashBlobs (s : State) (d k : Nat) (x : Engine) : (s.setEng d k x).flashBlobs = s.flashBlobs := rfl
@[simp] theorem State.setEng_chans (s : State) (d k : Nat) (x : Engine) : (s.setEng d k x).chans = s.chans := rfl
@[simp] theorem State.setEng_units (s : State) (d k : Nat) (x : Engine) : (s.setEng d k x).units = s.units := rfl
@[simp] theorem State.setEng_slots (s : State) (d k : Nat) (x : Engine) : (s.setEng d k x).slots = s.slots := rfl
@[simp] theorem State.setEng_engines (s : State) (d k : Nat) (x : Engine) : (s.setEng d k x).engines = put s.engines (16 * d + k) x := rfl
@[simp] theorem State.setEng_dies (s : State) (d k : Nat) (x : Engine) : (s.setEng d k x).dies = s.dies := rfl
@[simp] theorem State.setEng_descs (s : State) (d k : Nat) (x : Engine) : (s.setEng d k x).descs = s.descs := rfl
@[simp] theorem State.setEng_adcs (s : State) (d k : Nat) (x : Engine) : (s.setEng d k x).adcs = s.adcs := rfl
@[simp] theorem State.setEng_wins (s : State) (d k : Nat) (x : Engine) : (s.setEng d k x).wins = s.wins := rfl
@[simp] theorem State.setEng_queues (s : State) (d k : Nat) (x : Engine) : (s.setEng d k x).queues = s.queues := rfl
@[simp] theorem State.setEng_groups (s : State) (d k : Nat) (x : Engine) : (s.setEng d k x).groups = s.groups := rfl
@[simp] theorem State.setEng_bldc (s : State) (d k : Nat) (x : Engine) : (s.setEng d k x).bldc = s.bldc := rfl
@[simp] theorem State.setEng_axes (s : State) (d k : Nat) (x : Engine) : (s.setEng d k x).axes = s.axes := rfl
@[simp] theorem State.setEng_power (s : State) (d k : Nat) (x : Engine) : (s.setEng d k x).power = s.power := rfl
@[simp] theorem State.setEng_sup (s : State) (d k : Nat) (x : Engine) : (s.setEng d k x).sup = s.sup := rfl
@[simp] theorem State.setEng_lockbox (s : State) (d k : Nat) (x : Engine) : (s.setEng d k x).lockbox = s.lockbox := rfl
@[simp] theorem State.setEng_qm (s : State) (d k : Nat) (x : Engine) : (s.setEng d k x).qm = s.qm := rfl
@[simp] theorem State.setEng_net (s : State) (d k : Nat) (x : Engine) : (s.setEng d k x).net = s.net := rfl
@[simp] theorem State.setEng_can (s : State) (d k : Nat) (x : Engine) : (s.setEng d k x).can = s.can := rfl
@[simp] theorem State.setEng_sec (s : State) (d k : Nat) (x : Engine) : (s.setEng d k x).sec = s.sec := rfl
@[simp] theorem State.setEng_trail (s : State) (d k : Nat) (x : Engine) : (s.setEng d k x).trail = s.trail := rfl
@[simp] theorem State.setEng_standbyDue (s : State) (d k : Nat) (x : Engine) : (s.setEng d k x).standbyDue = s.standbyDue := rfl
@[simp] theorem State.setEng_sleepLt (s : State) (d k : Nat) (x : Engine) : (s.setEng d k x).sleepLt = s.sleepLt := rfl
@[simp] theorem State.setEng_metNote (s : State) (d k : Nat) (x : Engine) : (s.setEng d k x).metNote = s.metNote := rfl
@[simp] theorem State.setEng_lastMet (s : State) (d k : Nat) (x : Engine) : (s.setEng d k x).lastMet = s.lastMet := rfl
@[simp] theorem State.setEng_metSilent (s : State) (d k : Nat) (x : Engine) : (s.setEng d k x).metSilent = s.metSilent := rfl
@[simp] theorem State.setEng_metView (s : State) (d k : Nat) (x : Engine) : (s.setEng d k x).metView = s.metView := rfl
@[simp] theorem State.setEng_metViewAt (s : State) (d k : Nat) (x : Engine) : (s.setEng d k x).metViewAt = s.metViewAt := rfl
@[simp] theorem State.setEng_tag (s : State) (d k : Nat) (x : Engine) : (s.setEng d k x).tag = s.tag := rfl
@[simp] theorem State.setEng_sleepHash (s : State) (d k : Nat) (x : Engine) : (s.setEng d k x).sleepHash = s.sleepHash := rfl
@[simp] theorem State.setEng_waking (s : State) (d k : Nat) (x : Engine) : (s.setEng d k x).waking = s.waking := rfl
@[simp] theorem State.setEng_resetLt (s : State) (d k : Nat) (x : Engine) : (s.setEng d k x).resetLt = s.resetLt := rfl
@[simp] theorem State.setEng_resetReq (s : State) (d k : Nat) (x : Engine) : (s.setEng d k x).resetReq = s.resetReq := rfl
@[simp] theorem State.setEng_lane (s : State) (d k : Nat) (x : Engine) : (s.setEng d k x).lane = s.lane := rfl
@[simp] theorem State.setEng_flight (s : State) (d k : Nat) (x : Engine) : (s.setEng d k x).flight = s.flight := rfl
@[simp] theorem State.setEng_part (s : State) (d k : Nat) (x : Engine) : (s.setEng d k x).part = s.part := rfl
@[simp] theorem State.setEng_banks (s : State) (d k : Nat) (x : Engine) : (s.setEng d k x).banks = s.banks := rfl
@[simp] theorem State.setEng_hot (s : State) (d k : Nat) (x : Engine) : (s.setEng d k x).hot = s.hot := rfl
@[simp] theorem State.setEng_free (s : State) (d k : Nat) (x : Engine) : (s.setEng d k x).free = s.free := rfl
@[simp] theorem State.setEng_pending (s : State) (d k : Nat) (x : Engine) : (s.setEng d k x).pending = s.pending := rfl

@[simp] theorem State.rd_setEng (s : State) (d k : Nat) (x : Engine) (p q r : Nat) : (s.setEng d k x).rd p q r = s.rd p q r := rfl
@[simp] theorem State.rdN_setEng (s : State) (d k : Nat) (x : Engine) (p q r : Nat) : (s.setEng d k x).rdN p q r = s.rdN p q r := rfl
@[simp] theorem State.rdB_setEng (s : State) (d k : Nat) (x : Engine) (p q r : Nat) : (s.setEng d k x).rdB p q r = s.rdB p q r := rfl
@[simp] theorem State.chan_setEng (s : State) (d k : Nat) (x : Engine) (p : Nat) : (s.setEng d k x).chan p = s.chan p := rfl
@[simp] theorem State.unit_setEng (s : State) (d k : Nat) (x : Engine) (p q : Nat) : (s.setEng d k x).unit p q = s.unit p q := rfl
@[simp] theorem State.slot_setEng (s : State) (d k : Nat) (x : Engine) (p q : Nat) : (s.setEng d k x).slot p q = s.slot p q := rfl
@[simp] theorem State.die_setEng (s : State) (d k : Nat) (x : Engine) (p : Nat) : (s.setEng d k x).die p = s.die p := rfl
@[simp] theorem State.desc_setEng (s : State) (d k : Nat) (x : Engine) (p q : Nat) : (s.setEng d k x).desc p q = s.desc p q := rfl
@[simp] theorem State.adc_setEng (s : State) (d k : Nat) (x : Engine) (p q : Nat) : (s.setEng d k x).adc p q = s.adc p q := rfl
@[simp] theorem State.win_setEng (s : State) (d k : Nat) (x : Engine) (p : Nat) : (s.setEng d k x).win p = s.win p := rfl
@[simp] theorem State.group_setEng (s : State) (d k : Nat) (x : Engine) (p : Nat) : (s.setEng d k x).group p = s.group p := rfl
@[simp] theorem State.drive_setEng (s : State) (d k : Nat) (x : Engine) (p : Nat) : (s.setEng d k x).drive p = s.drive p := rfl
@[simp] theorem State.axis_setEng (s : State) (d k : Nat) (x : Engine) (p : Nat) : (s.setEng d k x).axis p = s.axis p := rfl
@[simp] theorem State.port_setEng (s : State) (d k : Nat) (x : Engine) (p : Nat) : (s.setEng d k x).port p = s.port p := rfl
@[simp] theorem State.queue_setEng (s : State) (d k : Nat) (x : Engine) (p : Nat) : (s.setEng d k x).queue p = s.queue p := rfl
@[simp] theorem State.lt_setEng (s : State) (d k : Nat) (x : Engine) : (s.setEng d k x).lt = s.lt := rfl
@[simp] theorem State.sitePop_setEng (s : State) (d k : Nat) (x : Engine) (p : Nat) : (s.setEng d k x).sitePop p = s.sitePop p := rfl
@[simp] theorem State.chanPop_setEng (s : State) (d k : Nat) (x : Engine) (p : Nat) : (s.setEng d k x).chanPop p = s.chanPop p := rfl
@[simp] theorem State.sites_setEng (s : State) (d k : Nat) (x : Engine) : (s.setEng d k x).sites = s.sites := rfl

/-! setDie -/

@[simp] theorem State.setDie_variant (s : State) (d : Nat) (x : Die) : (s.setDie d x).variant = s.variant := rfl
@[simp] theorem State.setDie_sealedPart (s : State) (d : Nat) (x : Die) : (s.setDie d x).sealedPart = s.sealedPart := rfl
@[simp] theorem State.setDie_vsys (s : State) (d : Nat) (x : Die) : (s.setDie d x).vsys = s.vsys := rfl
@[simp] theorem State.setDie_fw (s : State) (d : Nat) (x : Die) : (s.setDie d x).fw = s.fw := rfl
@[simp] theorem State.setDie_clock (s : State) (d : Nat) (x : Die) : (s.setDie d x).clock = s.clock := rfl
@[simp] theorem State.setDie_objs (s : State) (d : Nat) (x : Die) : (s.setDie d x).objs = s.objs := rfl
@[simp] theorem State.setDie_blobs (s : State) (d : Nat) (x : Die) : (s.setDie d x).blobs = s.blobs := rfl
@[simp] theorem State.setDie_flash (s : State) (d : Nat) (x : Die) : (s.setDie d x).flash = s.flash := rfl
@[simp] theorem State.setDie_flashBlobs (s : State) (d : Nat) (x : Die) : (s.setDie d x).flashBlobs = s.flashBlobs := rfl
@[simp] theorem State.setDie_chans (s : State) (d : Nat) (x : Die) : (s.setDie d x).chans = s.chans := rfl
@[simp] theorem State.setDie_units (s : State) (d : Nat) (x : Die) : (s.setDie d x).units = s.units := rfl
@[simp] theorem State.setDie_slots (s : State) (d : Nat) (x : Die) : (s.setDie d x).slots = s.slots := rfl
@[simp] theorem State.setDie_engines (s : State) (d : Nat) (x : Die) : (s.setDie d x).engines = s.engines := rfl
@[simp] theorem State.setDie_dies (s : State) (d : Nat) (x : Die) : (s.setDie d x).dies = put s.dies d x := rfl
@[simp] theorem State.setDie_descs (s : State) (d : Nat) (x : Die) : (s.setDie d x).descs = s.descs := rfl
@[simp] theorem State.setDie_adcs (s : State) (d : Nat) (x : Die) : (s.setDie d x).adcs = s.adcs := rfl
@[simp] theorem State.setDie_wins (s : State) (d : Nat) (x : Die) : (s.setDie d x).wins = s.wins := rfl
@[simp] theorem State.setDie_queues (s : State) (d : Nat) (x : Die) : (s.setDie d x).queues = s.queues := rfl
@[simp] theorem State.setDie_groups (s : State) (d : Nat) (x : Die) : (s.setDie d x).groups = s.groups := rfl
@[simp] theorem State.setDie_bldc (s : State) (d : Nat) (x : Die) : (s.setDie d x).bldc = s.bldc := rfl
@[simp] theorem State.setDie_axes (s : State) (d : Nat) (x : Die) : (s.setDie d x).axes = s.axes := rfl
@[simp] theorem State.setDie_power (s : State) (d : Nat) (x : Die) : (s.setDie d x).power = s.power := rfl
@[simp] theorem State.setDie_sup (s : State) (d : Nat) (x : Die) : (s.setDie d x).sup = s.sup := rfl
@[simp] theorem State.setDie_lockbox (s : State) (d : Nat) (x : Die) : (s.setDie d x).lockbox = s.lockbox := rfl
@[simp] theorem State.setDie_qm (s : State) (d : Nat) (x : Die) : (s.setDie d x).qm = s.qm := rfl
@[simp] theorem State.setDie_net (s : State) (d : Nat) (x : Die) : (s.setDie d x).net = s.net := rfl
@[simp] theorem State.setDie_can (s : State) (d : Nat) (x : Die) : (s.setDie d x).can = s.can := rfl
@[simp] theorem State.setDie_sec (s : State) (d : Nat) (x : Die) : (s.setDie d x).sec = s.sec := rfl
@[simp] theorem State.setDie_trail (s : State) (d : Nat) (x : Die) : (s.setDie d x).trail = s.trail := rfl
@[simp] theorem State.setDie_standbyDue (s : State) (d : Nat) (x : Die) : (s.setDie d x).standbyDue = s.standbyDue := rfl
@[simp] theorem State.setDie_sleepLt (s : State) (d : Nat) (x : Die) : (s.setDie d x).sleepLt = s.sleepLt := rfl
@[simp] theorem State.setDie_metNote (s : State) (d : Nat) (x : Die) : (s.setDie d x).metNote = s.metNote := rfl
@[simp] theorem State.setDie_lastMet (s : State) (d : Nat) (x : Die) : (s.setDie d x).lastMet = s.lastMet := rfl
@[simp] theorem State.setDie_metSilent (s : State) (d : Nat) (x : Die) : (s.setDie d x).metSilent = s.metSilent := rfl
@[simp] theorem State.setDie_metView (s : State) (d : Nat) (x : Die) : (s.setDie d x).metView = s.metView := rfl
@[simp] theorem State.setDie_metViewAt (s : State) (d : Nat) (x : Die) : (s.setDie d x).metViewAt = s.metViewAt := rfl
@[simp] theorem State.setDie_tag (s : State) (d : Nat) (x : Die) : (s.setDie d x).tag = s.tag := rfl
@[simp] theorem State.setDie_sleepHash (s : State) (d : Nat) (x : Die) : (s.setDie d x).sleepHash = s.sleepHash := rfl
@[simp] theorem State.setDie_waking (s : State) (d : Nat) (x : Die) : (s.setDie d x).waking = s.waking := rfl
@[simp] theorem State.setDie_resetLt (s : State) (d : Nat) (x : Die) : (s.setDie d x).resetLt = s.resetLt := rfl
@[simp] theorem State.setDie_resetReq (s : State) (d : Nat) (x : Die) : (s.setDie d x).resetReq = s.resetReq := rfl
@[simp] theorem State.setDie_lane (s : State) (d : Nat) (x : Die) : (s.setDie d x).lane = s.lane := rfl
@[simp] theorem State.setDie_flight (s : State) (d : Nat) (x : Die) : (s.setDie d x).flight = s.flight := rfl
@[simp] theorem State.setDie_part (s : State) (d : Nat) (x : Die) : (s.setDie d x).part = s.part := rfl
@[simp] theorem State.setDie_banks (s : State) (d : Nat) (x : Die) : (s.setDie d x).banks = s.banks := rfl
@[simp] theorem State.setDie_hot (s : State) (d : Nat) (x : Die) : (s.setDie d x).hot = s.hot := rfl
@[simp] theorem State.setDie_free (s : State) (d : Nat) (x : Die) : (s.setDie d x).free = s.free := rfl
@[simp] theorem State.setDie_pending (s : State) (d : Nat) (x : Die) : (s.setDie d x).pending = s.pending := rfl

@[simp] theorem State.rd_setDie (s : State) (d : Nat) (x : Die) (p q r : Nat) : (s.setDie d x).rd p q r = s.rd p q r := rfl
@[simp] theorem State.rdN_setDie (s : State) (d : Nat) (x : Die) (p q r : Nat) : (s.setDie d x).rdN p q r = s.rdN p q r := rfl
@[simp] theorem State.rdB_setDie (s : State) (d : Nat) (x : Die) (p q r : Nat) : (s.setDie d x).rdB p q r = s.rdB p q r := rfl
@[simp] theorem State.chan_setDie (s : State) (d : Nat) (x : Die) (p : Nat) : (s.setDie d x).chan p = s.chan p := rfl
@[simp] theorem State.unit_setDie (s : State) (d : Nat) (x : Die) (p q : Nat) : (s.setDie d x).unit p q = s.unit p q := rfl
@[simp] theorem State.slot_setDie (s : State) (d : Nat) (x : Die) (p q : Nat) : (s.setDie d x).slot p q = s.slot p q := rfl
@[simp] theorem State.eng_setDie (s : State) (d : Nat) (x : Die) (p q : Nat) : (s.setDie d x).eng p q = s.eng p q := rfl
@[simp] theorem State.desc_setDie (s : State) (d : Nat) (x : Die) (p q : Nat) : (s.setDie d x).desc p q = s.desc p q := rfl
@[simp] theorem State.adc_setDie (s : State) (d : Nat) (x : Die) (p q : Nat) : (s.setDie d x).adc p q = s.adc p q := rfl
@[simp] theorem State.win_setDie (s : State) (d : Nat) (x : Die) (p : Nat) : (s.setDie d x).win p = s.win p := rfl
@[simp] theorem State.group_setDie (s : State) (d : Nat) (x : Die) (p : Nat) : (s.setDie d x).group p = s.group p := rfl
@[simp] theorem State.drive_setDie (s : State) (d : Nat) (x : Die) (p : Nat) : (s.setDie d x).drive p = s.drive p := rfl
@[simp] theorem State.axis_setDie (s : State) (d : Nat) (x : Die) (p : Nat) : (s.setDie d x).axis p = s.axis p := rfl
@[simp] theorem State.port_setDie (s : State) (d : Nat) (x : Die) (p : Nat) : (s.setDie d x).port p = s.port p := rfl
@[simp] theorem State.queue_setDie (s : State) (d : Nat) (x : Die) (p : Nat) : (s.setDie d x).queue p = s.queue p := rfl
@[simp] theorem State.lt_setDie (s : State) (d : Nat) (x : Die) : (s.setDie d x).lt = s.lt := rfl
@[simp] theorem State.sitePop_setDie (s : State) (d : Nat) (x : Die) (p : Nat) : (s.setDie d x).sitePop p = s.sitePop p := rfl
@[simp] theorem State.chanPop_setDie (s : State) (d : Nat) (x : Die) (p : Nat) : (s.setDie d x).chanPop p = s.chanPop p := rfl
@[simp] theorem State.sites_setDie (s : State) (d : Nat) (x : Die) : (s.setDie d x).sites = s.sites := rfl

/-! setDesc -/

@[simp] theorem State.setDesc_variant (s : State) (d k : Nat) (x : Desc) : (s.setDesc d k x).variant = s.variant := rfl
@[simp] theorem State.setDesc_sealedPart (s : State) (d k : Nat) (x : Desc) : (s.setDesc d k x).sealedPart = s.sealedPart := rfl
@[simp] theorem State.setDesc_vsys (s : State) (d k : Nat) (x : Desc) : (s.setDesc d k x).vsys = s.vsys := rfl
@[simp] theorem State.setDesc_fw (s : State) (d k : Nat) (x : Desc) : (s.setDesc d k x).fw = s.fw := rfl
@[simp] theorem State.setDesc_clock (s : State) (d k : Nat) (x : Desc) : (s.setDesc d k x).clock = s.clock := rfl
@[simp] theorem State.setDesc_objs (s : State) (d k : Nat) (x : Desc) : (s.setDesc d k x).objs = s.objs := rfl
@[simp] theorem State.setDesc_blobs (s : State) (d k : Nat) (x : Desc) : (s.setDesc d k x).blobs = s.blobs := rfl
@[simp] theorem State.setDesc_flash (s : State) (d k : Nat) (x : Desc) : (s.setDesc d k x).flash = s.flash := rfl
@[simp] theorem State.setDesc_flashBlobs (s : State) (d k : Nat) (x : Desc) : (s.setDesc d k x).flashBlobs = s.flashBlobs := rfl
@[simp] theorem State.setDesc_chans (s : State) (d k : Nat) (x : Desc) : (s.setDesc d k x).chans = s.chans := rfl
@[simp] theorem State.setDesc_units (s : State) (d k : Nat) (x : Desc) : (s.setDesc d k x).units = s.units := rfl
@[simp] theorem State.setDesc_slots (s : State) (d k : Nat) (x : Desc) : (s.setDesc d k x).slots = s.slots := rfl
@[simp] theorem State.setDesc_engines (s : State) (d k : Nat) (x : Desc) : (s.setDesc d k x).engines = s.engines := rfl
@[simp] theorem State.setDesc_dies (s : State) (d k : Nat) (x : Desc) : (s.setDesc d k x).dies = s.dies := rfl
@[simp] theorem State.setDesc_descs (s : State) (d k : Nat) (x : Desc) : (s.setDesc d k x).descs = put s.descs (64 * d + k) x := rfl
@[simp] theorem State.setDesc_adcs (s : State) (d k : Nat) (x : Desc) : (s.setDesc d k x).adcs = s.adcs := rfl
@[simp] theorem State.setDesc_wins (s : State) (d k : Nat) (x : Desc) : (s.setDesc d k x).wins = s.wins := rfl
@[simp] theorem State.setDesc_queues (s : State) (d k : Nat) (x : Desc) : (s.setDesc d k x).queues = s.queues := rfl
@[simp] theorem State.setDesc_groups (s : State) (d k : Nat) (x : Desc) : (s.setDesc d k x).groups = s.groups := rfl
@[simp] theorem State.setDesc_bldc (s : State) (d k : Nat) (x : Desc) : (s.setDesc d k x).bldc = s.bldc := rfl
@[simp] theorem State.setDesc_axes (s : State) (d k : Nat) (x : Desc) : (s.setDesc d k x).axes = s.axes := rfl
@[simp] theorem State.setDesc_power (s : State) (d k : Nat) (x : Desc) : (s.setDesc d k x).power = s.power := rfl
@[simp] theorem State.setDesc_sup (s : State) (d k : Nat) (x : Desc) : (s.setDesc d k x).sup = s.sup := rfl
@[simp] theorem State.setDesc_lockbox (s : State) (d k : Nat) (x : Desc) : (s.setDesc d k x).lockbox = s.lockbox := rfl
@[simp] theorem State.setDesc_qm (s : State) (d k : Nat) (x : Desc) : (s.setDesc d k x).qm = s.qm := rfl
@[simp] theorem State.setDesc_net (s : State) (d k : Nat) (x : Desc) : (s.setDesc d k x).net = s.net := rfl
@[simp] theorem State.setDesc_can (s : State) (d k : Nat) (x : Desc) : (s.setDesc d k x).can = s.can := rfl
@[simp] theorem State.setDesc_sec (s : State) (d k : Nat) (x : Desc) : (s.setDesc d k x).sec = s.sec := rfl
@[simp] theorem State.setDesc_trail (s : State) (d k : Nat) (x : Desc) : (s.setDesc d k x).trail = s.trail := rfl
@[simp] theorem State.setDesc_standbyDue (s : State) (d k : Nat) (x : Desc) : (s.setDesc d k x).standbyDue = s.standbyDue := rfl
@[simp] theorem State.setDesc_sleepLt (s : State) (d k : Nat) (x : Desc) : (s.setDesc d k x).sleepLt = s.sleepLt := rfl
@[simp] theorem State.setDesc_metNote (s : State) (d k : Nat) (x : Desc) : (s.setDesc d k x).metNote = s.metNote := rfl
@[simp] theorem State.setDesc_lastMet (s : State) (d k : Nat) (x : Desc) : (s.setDesc d k x).lastMet = s.lastMet := rfl
@[simp] theorem State.setDesc_metSilent (s : State) (d k : Nat) (x : Desc) : (s.setDesc d k x).metSilent = s.metSilent := rfl
@[simp] theorem State.setDesc_metView (s : State) (d k : Nat) (x : Desc) : (s.setDesc d k x).metView = s.metView := rfl
@[simp] theorem State.setDesc_metViewAt (s : State) (d k : Nat) (x : Desc) : (s.setDesc d k x).metViewAt = s.metViewAt := rfl
@[simp] theorem State.setDesc_tag (s : State) (d k : Nat) (x : Desc) : (s.setDesc d k x).tag = s.tag := rfl
@[simp] theorem State.setDesc_sleepHash (s : State) (d k : Nat) (x : Desc) : (s.setDesc d k x).sleepHash = s.sleepHash := rfl
@[simp] theorem State.setDesc_waking (s : State) (d k : Nat) (x : Desc) : (s.setDesc d k x).waking = s.waking := rfl
@[simp] theorem State.setDesc_resetLt (s : State) (d k : Nat) (x : Desc) : (s.setDesc d k x).resetLt = s.resetLt := rfl
@[simp] theorem State.setDesc_resetReq (s : State) (d k : Nat) (x : Desc) : (s.setDesc d k x).resetReq = s.resetReq := rfl
@[simp] theorem State.setDesc_lane (s : State) (d k : Nat) (x : Desc) : (s.setDesc d k x).lane = s.lane := rfl
@[simp] theorem State.setDesc_flight (s : State) (d k : Nat) (x : Desc) : (s.setDesc d k x).flight = s.flight := rfl
@[simp] theorem State.setDesc_part (s : State) (d k : Nat) (x : Desc) : (s.setDesc d k x).part = s.part := rfl
@[simp] theorem State.setDesc_banks (s : State) (d k : Nat) (x : Desc) : (s.setDesc d k x).banks = s.banks := rfl
@[simp] theorem State.setDesc_hot (s : State) (d k : Nat) (x : Desc) : (s.setDesc d k x).hot = s.hot := rfl
@[simp] theorem State.setDesc_free (s : State) (d k : Nat) (x : Desc) : (s.setDesc d k x).free = s.free := rfl
@[simp] theorem State.setDesc_pending (s : State) (d k : Nat) (x : Desc) : (s.setDesc d k x).pending = s.pending := rfl

@[simp] theorem State.rd_setDesc (s : State) (d k : Nat) (x : Desc) (p q r : Nat) : (s.setDesc d k x).rd p q r = s.rd p q r := rfl
@[simp] theorem State.rdN_setDesc (s : State) (d k : Nat) (x : Desc) (p q r : Nat) : (s.setDesc d k x).rdN p q r = s.rdN p q r := rfl
@[simp] theorem State.rdB_setDesc (s : State) (d k : Nat) (x : Desc) (p q r : Nat) : (s.setDesc d k x).rdB p q r = s.rdB p q r := rfl
@[simp] theorem State.chan_setDesc (s : State) (d k : Nat) (x : Desc) (p : Nat) : (s.setDesc d k x).chan p = s.chan p := rfl
@[simp] theorem State.unit_setDesc (s : State) (d k : Nat) (x : Desc) (p q : Nat) : (s.setDesc d k x).unit p q = s.unit p q := rfl
@[simp] theorem State.slot_setDesc (s : State) (d k : Nat) (x : Desc) (p q : Nat) : (s.setDesc d k x).slot p q = s.slot p q := rfl
@[simp] theorem State.eng_setDesc (s : State) (d k : Nat) (x : Desc) (p q : Nat) : (s.setDesc d k x).eng p q = s.eng p q := rfl
@[simp] theorem State.die_setDesc (s : State) (d k : Nat) (x : Desc) (p : Nat) : (s.setDesc d k x).die p = s.die p := rfl
@[simp] theorem State.adc_setDesc (s : State) (d k : Nat) (x : Desc) (p q : Nat) : (s.setDesc d k x).adc p q = s.adc p q := rfl
@[simp] theorem State.win_setDesc (s : State) (d k : Nat) (x : Desc) (p : Nat) : (s.setDesc d k x).win p = s.win p := rfl
@[simp] theorem State.group_setDesc (s : State) (d k : Nat) (x : Desc) (p : Nat) : (s.setDesc d k x).group p = s.group p := rfl
@[simp] theorem State.drive_setDesc (s : State) (d k : Nat) (x : Desc) (p : Nat) : (s.setDesc d k x).drive p = s.drive p := rfl
@[simp] theorem State.axis_setDesc (s : State) (d k : Nat) (x : Desc) (p : Nat) : (s.setDesc d k x).axis p = s.axis p := rfl
@[simp] theorem State.port_setDesc (s : State) (d k : Nat) (x : Desc) (p : Nat) : (s.setDesc d k x).port p = s.port p := rfl
@[simp] theorem State.queue_setDesc (s : State) (d k : Nat) (x : Desc) (p : Nat) : (s.setDesc d k x).queue p = s.queue p := rfl
@[simp] theorem State.lt_setDesc (s : State) (d k : Nat) (x : Desc) : (s.setDesc d k x).lt = s.lt := rfl
@[simp] theorem State.sitePop_setDesc (s : State) (d k : Nat) (x : Desc) (p : Nat) : (s.setDesc d k x).sitePop p = s.sitePop p := rfl
@[simp] theorem State.chanPop_setDesc (s : State) (d k : Nat) (x : Desc) (p : Nat) : (s.setDesc d k x).chanPop p = s.chanPop p := rfl
@[simp] theorem State.sites_setDesc (s : State) (d k : Nat) (x : Desc) : (s.setDesc d k x).sites = s.sites := rfl

/-! setAdc -/

@[simp] theorem State.setAdc_variant (s : State) (d u : Nat) (x : Adc) : (s.setAdc d u x).variant = s.variant := rfl
@[simp] theorem State.setAdc_sealedPart (s : State) (d u : Nat) (x : Adc) : (s.setAdc d u x).sealedPart = s.sealedPart := rfl
@[simp] theorem State.setAdc_vsys (s : State) (d u : Nat) (x : Adc) : (s.setAdc d u x).vsys = s.vsys := rfl
@[simp] theorem State.setAdc_fw (s : State) (d u : Nat) (x : Adc) : (s.setAdc d u x).fw = s.fw := rfl
@[simp] theorem State.setAdc_clock (s : State) (d u : Nat) (x : Adc) : (s.setAdc d u x).clock = s.clock := rfl
@[simp] theorem State.setAdc_objs (s : State) (d u : Nat) (x : Adc) : (s.setAdc d u x).objs = s.objs := rfl
@[simp] theorem State.setAdc_blobs (s : State) (d u : Nat) (x : Adc) : (s.setAdc d u x).blobs = s.blobs := rfl
@[simp] theorem State.setAdc_flash (s : State) (d u : Nat) (x : Adc) : (s.setAdc d u x).flash = s.flash := rfl
@[simp] theorem State.setAdc_flashBlobs (s : State) (d u : Nat) (x : Adc) : (s.setAdc d u x).flashBlobs = s.flashBlobs := rfl
@[simp] theorem State.setAdc_chans (s : State) (d u : Nat) (x : Adc) : (s.setAdc d u x).chans = s.chans := rfl
@[simp] theorem State.setAdc_units (s : State) (d u : Nat) (x : Adc) : (s.setAdc d u x).units = s.units := rfl
@[simp] theorem State.setAdc_slots (s : State) (d u : Nat) (x : Adc) : (s.setAdc d u x).slots = s.slots := rfl
@[simp] theorem State.setAdc_engines (s : State) (d u : Nat) (x : Adc) : (s.setAdc d u x).engines = s.engines := rfl
@[simp] theorem State.setAdc_dies (s : State) (d u : Nat) (x : Adc) : (s.setAdc d u x).dies = s.dies := rfl
@[simp] theorem State.setAdc_descs (s : State) (d u : Nat) (x : Adc) : (s.setAdc d u x).descs = s.descs := rfl
@[simp] theorem State.setAdc_adcs (s : State) (d u : Nat) (x : Adc) : (s.setAdc d u x).adcs = put s.adcs (16 * d + u) x := rfl
@[simp] theorem State.setAdc_wins (s : State) (d u : Nat) (x : Adc) : (s.setAdc d u x).wins = s.wins := rfl
@[simp] theorem State.setAdc_queues (s : State) (d u : Nat) (x : Adc) : (s.setAdc d u x).queues = s.queues := rfl
@[simp] theorem State.setAdc_groups (s : State) (d u : Nat) (x : Adc) : (s.setAdc d u x).groups = s.groups := rfl
@[simp] theorem State.setAdc_bldc (s : State) (d u : Nat) (x : Adc) : (s.setAdc d u x).bldc = s.bldc := rfl
@[simp] theorem State.setAdc_axes (s : State) (d u : Nat) (x : Adc) : (s.setAdc d u x).axes = s.axes := rfl
@[simp] theorem State.setAdc_power (s : State) (d u : Nat) (x : Adc) : (s.setAdc d u x).power = s.power := rfl
@[simp] theorem State.setAdc_sup (s : State) (d u : Nat) (x : Adc) : (s.setAdc d u x).sup = s.sup := rfl
@[simp] theorem State.setAdc_lockbox (s : State) (d u : Nat) (x : Adc) : (s.setAdc d u x).lockbox = s.lockbox := rfl
@[simp] theorem State.setAdc_qm (s : State) (d u : Nat) (x : Adc) : (s.setAdc d u x).qm = s.qm := rfl
@[simp] theorem State.setAdc_net (s : State) (d u : Nat) (x : Adc) : (s.setAdc d u x).net = s.net := rfl
@[simp] theorem State.setAdc_can (s : State) (d u : Nat) (x : Adc) : (s.setAdc d u x).can = s.can := rfl
@[simp] theorem State.setAdc_sec (s : State) (d u : Nat) (x : Adc) : (s.setAdc d u x).sec = s.sec := rfl
@[simp] theorem State.setAdc_trail (s : State) (d u : Nat) (x : Adc) : (s.setAdc d u x).trail = s.trail := rfl
@[simp] theorem State.setAdc_standbyDue (s : State) (d u : Nat) (x : Adc) : (s.setAdc d u x).standbyDue = s.standbyDue := rfl
@[simp] theorem State.setAdc_sleepLt (s : State) (d u : Nat) (x : Adc) : (s.setAdc d u x).sleepLt = s.sleepLt := rfl
@[simp] theorem State.setAdc_metNote (s : State) (d u : Nat) (x : Adc) : (s.setAdc d u x).metNote = s.metNote := rfl
@[simp] theorem State.setAdc_lastMet (s : State) (d u : Nat) (x : Adc) : (s.setAdc d u x).lastMet = s.lastMet := rfl
@[simp] theorem State.setAdc_metSilent (s : State) (d u : Nat) (x : Adc) : (s.setAdc d u x).metSilent = s.metSilent := rfl
@[simp] theorem State.setAdc_metView (s : State) (d u : Nat) (x : Adc) : (s.setAdc d u x).metView = s.metView := rfl
@[simp] theorem State.setAdc_metViewAt (s : State) (d u : Nat) (x : Adc) : (s.setAdc d u x).metViewAt = s.metViewAt := rfl
@[simp] theorem State.setAdc_tag (s : State) (d u : Nat) (x : Adc) : (s.setAdc d u x).tag = s.tag := rfl
@[simp] theorem State.setAdc_sleepHash (s : State) (d u : Nat) (x : Adc) : (s.setAdc d u x).sleepHash = s.sleepHash := rfl
@[simp] theorem State.setAdc_waking (s : State) (d u : Nat) (x : Adc) : (s.setAdc d u x).waking = s.waking := rfl
@[simp] theorem State.setAdc_resetLt (s : State) (d u : Nat) (x : Adc) : (s.setAdc d u x).resetLt = s.resetLt := rfl
@[simp] theorem State.setAdc_resetReq (s : State) (d u : Nat) (x : Adc) : (s.setAdc d u x).resetReq = s.resetReq := rfl
@[simp] theorem State.setAdc_lane (s : State) (d u : Nat) (x : Adc) : (s.setAdc d u x).lane = s.lane := rfl
@[simp] theorem State.setAdc_flight (s : State) (d u : Nat) (x : Adc) : (s.setAdc d u x).flight = s.flight := rfl
@[simp] theorem State.setAdc_part (s : State) (d u : Nat) (x : Adc) : (s.setAdc d u x).part = s.part := rfl
@[simp] theorem State.setAdc_banks (s : State) (d u : Nat) (x : Adc) : (s.setAdc d u x).banks = s.banks := rfl
@[simp] theorem State.setAdc_hot (s : State) (d u : Nat) (x : Adc) : (s.setAdc d u x).hot = s.hot := rfl
@[simp] theorem State.setAdc_free (s : State) (d u : Nat) (x : Adc) : (s.setAdc d u x).free = s.free := rfl
@[simp] theorem State.setAdc_pending (s : State) (d u : Nat) (x : Adc) : (s.setAdc d u x).pending = s.pending := rfl

@[simp] theorem State.rd_setAdc (s : State) (d u : Nat) (x : Adc) (p q r : Nat) : (s.setAdc d u x).rd p q r = s.rd p q r := rfl
@[simp] theorem State.rdN_setAdc (s : State) (d u : Nat) (x : Adc) (p q r : Nat) : (s.setAdc d u x).rdN p q r = s.rdN p q r := rfl
@[simp] theorem State.rdB_setAdc (s : State) (d u : Nat) (x : Adc) (p q r : Nat) : (s.setAdc d u x).rdB p q r = s.rdB p q r := rfl
@[simp] theorem State.chan_setAdc (s : State) (d u : Nat) (x : Adc) (p : Nat) : (s.setAdc d u x).chan p = s.chan p := rfl
@[simp] theorem State.unit_setAdc (s : State) (d u : Nat) (x : Adc) (p q : Nat) : (s.setAdc d u x).unit p q = s.unit p q := rfl
@[simp] theorem State.slot_setAdc (s : State) (d u : Nat) (x : Adc) (p q : Nat) : (s.setAdc d u x).slot p q = s.slot p q := rfl
@[simp] theorem State.eng_setAdc (s : State) (d u : Nat) (x : Adc) (p q : Nat) : (s.setAdc d u x).eng p q = s.eng p q := rfl
@[simp] theorem State.die_setAdc (s : State) (d u : Nat) (x : Adc) (p : Nat) : (s.setAdc d u x).die p = s.die p := rfl
@[simp] theorem State.desc_setAdc (s : State) (d u : Nat) (x : Adc) (p q : Nat) : (s.setAdc d u x).desc p q = s.desc p q := rfl
@[simp] theorem State.win_setAdc (s : State) (d u : Nat) (x : Adc) (p : Nat) : (s.setAdc d u x).win p = s.win p := rfl
@[simp] theorem State.group_setAdc (s : State) (d u : Nat) (x : Adc) (p : Nat) : (s.setAdc d u x).group p = s.group p := rfl
@[simp] theorem State.drive_setAdc (s : State) (d u : Nat) (x : Adc) (p : Nat) : (s.setAdc d u x).drive p = s.drive p := rfl
@[simp] theorem State.axis_setAdc (s : State) (d u : Nat) (x : Adc) (p : Nat) : (s.setAdc d u x).axis p = s.axis p := rfl
@[simp] theorem State.port_setAdc (s : State) (d u : Nat) (x : Adc) (p : Nat) : (s.setAdc d u x).port p = s.port p := rfl
@[simp] theorem State.queue_setAdc (s : State) (d u : Nat) (x : Adc) (p : Nat) : (s.setAdc d u x).queue p = s.queue p := rfl
@[simp] theorem State.lt_setAdc (s : State) (d u : Nat) (x : Adc) : (s.setAdc d u x).lt = s.lt := rfl
@[simp] theorem State.sitePop_setAdc (s : State) (d u : Nat) (x : Adc) (p : Nat) : (s.setAdc d u x).sitePop p = s.sitePop p := rfl
@[simp] theorem State.chanPop_setAdc (s : State) (d u : Nat) (x : Adc) (p : Nat) : (s.setAdc d u x).chanPop p = s.chanPop p := rfl
@[simp] theorem State.sites_setAdc (s : State) (d u : Nat) (x : Adc) : (s.setAdc d u x).sites = s.sites := rfl

/-! setWin -/

@[simp] theorem State.setWin_variant (s : State) (k : Nat) (x : Win) : (s.setWin k x).variant = s.variant := rfl
@[simp] theorem State.setWin_sealedPart (s : State) (k : Nat) (x : Win) : (s.setWin k x).sealedPart = s.sealedPart := rfl
@[simp] theorem State.setWin_vsys (s : State) (k : Nat) (x : Win) : (s.setWin k x).vsys = s.vsys := rfl
@[simp] theorem State.setWin_fw (s : State) (k : Nat) (x : Win) : (s.setWin k x).fw = s.fw := rfl
@[simp] theorem State.setWin_clock (s : State) (k : Nat) (x : Win) : (s.setWin k x).clock = s.clock := rfl
@[simp] theorem State.setWin_objs (s : State) (k : Nat) (x : Win) : (s.setWin k x).objs = s.objs := rfl
@[simp] theorem State.setWin_blobs (s : State) (k : Nat) (x : Win) : (s.setWin k x).blobs = s.blobs := rfl
@[simp] theorem State.setWin_flash (s : State) (k : Nat) (x : Win) : (s.setWin k x).flash = s.flash := rfl
@[simp] theorem State.setWin_flashBlobs (s : State) (k : Nat) (x : Win) : (s.setWin k x).flashBlobs = s.flashBlobs := rfl
@[simp] theorem State.setWin_chans (s : State) (k : Nat) (x : Win) : (s.setWin k x).chans = s.chans := rfl
@[simp] theorem State.setWin_units (s : State) (k : Nat) (x : Win) : (s.setWin k x).units = s.units := rfl
@[simp] theorem State.setWin_slots (s : State) (k : Nat) (x : Win) : (s.setWin k x).slots = s.slots := rfl
@[simp] theorem State.setWin_engines (s : State) (k : Nat) (x : Win) : (s.setWin k x).engines = s.engines := rfl
@[simp] theorem State.setWin_dies (s : State) (k : Nat) (x : Win) : (s.setWin k x).dies = s.dies := rfl
@[simp] theorem State.setWin_descs (s : State) (k : Nat) (x : Win) : (s.setWin k x).descs = s.descs := rfl
@[simp] theorem State.setWin_adcs (s : State) (k : Nat) (x : Win) : (s.setWin k x).adcs = s.adcs := rfl
@[simp] theorem State.setWin_wins (s : State) (k : Nat) (x : Win) : (s.setWin k x).wins = put s.wins k x := rfl
@[simp] theorem State.setWin_queues (s : State) (k : Nat) (x : Win) : (s.setWin k x).queues = s.queues := rfl
@[simp] theorem State.setWin_groups (s : State) (k : Nat) (x : Win) : (s.setWin k x).groups = s.groups := rfl
@[simp] theorem State.setWin_bldc (s : State) (k : Nat) (x : Win) : (s.setWin k x).bldc = s.bldc := rfl
@[simp] theorem State.setWin_axes (s : State) (k : Nat) (x : Win) : (s.setWin k x).axes = s.axes := rfl
@[simp] theorem State.setWin_power (s : State) (k : Nat) (x : Win) : (s.setWin k x).power = s.power := rfl
@[simp] theorem State.setWin_sup (s : State) (k : Nat) (x : Win) : (s.setWin k x).sup = s.sup := rfl
@[simp] theorem State.setWin_lockbox (s : State) (k : Nat) (x : Win) : (s.setWin k x).lockbox = s.lockbox := rfl
@[simp] theorem State.setWin_qm (s : State) (k : Nat) (x : Win) : (s.setWin k x).qm = s.qm := rfl
@[simp] theorem State.setWin_net (s : State) (k : Nat) (x : Win) : (s.setWin k x).net = s.net := rfl
@[simp] theorem State.setWin_can (s : State) (k : Nat) (x : Win) : (s.setWin k x).can = s.can := rfl
@[simp] theorem State.setWin_sec (s : State) (k : Nat) (x : Win) : (s.setWin k x).sec = s.sec := rfl
@[simp] theorem State.setWin_trail (s : State) (k : Nat) (x : Win) : (s.setWin k x).trail = s.trail := rfl
@[simp] theorem State.setWin_standbyDue (s : State) (k : Nat) (x : Win) : (s.setWin k x).standbyDue = s.standbyDue := rfl
@[simp] theorem State.setWin_sleepLt (s : State) (k : Nat) (x : Win) : (s.setWin k x).sleepLt = s.sleepLt := rfl
@[simp] theorem State.setWin_metNote (s : State) (k : Nat) (x : Win) : (s.setWin k x).metNote = s.metNote := rfl
@[simp] theorem State.setWin_lastMet (s : State) (k : Nat) (x : Win) : (s.setWin k x).lastMet = s.lastMet := rfl
@[simp] theorem State.setWin_metSilent (s : State) (k : Nat) (x : Win) : (s.setWin k x).metSilent = s.metSilent := rfl
@[simp] theorem State.setWin_metView (s : State) (k : Nat) (x : Win) : (s.setWin k x).metView = s.metView := rfl
@[simp] theorem State.setWin_metViewAt (s : State) (k : Nat) (x : Win) : (s.setWin k x).metViewAt = s.metViewAt := rfl
@[simp] theorem State.setWin_tag (s : State) (k : Nat) (x : Win) : (s.setWin k x).tag = s.tag := rfl
@[simp] theorem State.setWin_sleepHash (s : State) (k : Nat) (x : Win) : (s.setWin k x).sleepHash = s.sleepHash := rfl
@[simp] theorem State.setWin_waking (s : State) (k : Nat) (x : Win) : (s.setWin k x).waking = s.waking := rfl
@[simp] theorem State.setWin_resetLt (s : State) (k : Nat) (x : Win) : (s.setWin k x).resetLt = s.resetLt := rfl
@[simp] theorem State.setWin_resetReq (s : State) (k : Nat) (x : Win) : (s.setWin k x).resetReq = s.resetReq := rfl
@[simp] theorem State.setWin_lane (s : State) (k : Nat) (x : Win) : (s.setWin k x).lane = s.lane := rfl
@[simp] theorem State.setWin_flight (s : State) (k : Nat) (x : Win) : (s.setWin k x).flight = s.flight := rfl
@[simp] theorem State.setWin_part (s : State) (k : Nat) (x : Win) : (s.setWin k x).part = s.part := rfl
@[simp] theorem State.setWin_banks (s : State) (k : Nat) (x : Win) : (s.setWin k x).banks = s.banks := rfl
@[simp] theorem State.setWin_hot (s : State) (k : Nat) (x : Win) : (s.setWin k x).hot = s.hot := rfl
@[simp] theorem State.setWin_free (s : State) (k : Nat) (x : Win) : (s.setWin k x).free = s.free := rfl
@[simp] theorem State.setWin_pending (s : State) (k : Nat) (x : Win) : (s.setWin k x).pending = s.pending := rfl

@[simp] theorem State.rd_setWin (s : State) (k : Nat) (x : Win) (p q r : Nat) : (s.setWin k x).rd p q r = s.rd p q r := rfl
@[simp] theorem State.rdN_setWin (s : State) (k : Nat) (x : Win) (p q r : Nat) : (s.setWin k x).rdN p q r = s.rdN p q r := rfl
@[simp] theorem State.rdB_setWin (s : State) (k : Nat) (x : Win) (p q r : Nat) : (s.setWin k x).rdB p q r = s.rdB p q r := rfl
@[simp] theorem State.chan_setWin (s : State) (k : Nat) (x : Win) (p : Nat) : (s.setWin k x).chan p = s.chan p := rfl
@[simp] theorem State.unit_setWin (s : State) (k : Nat) (x : Win) (p q : Nat) : (s.setWin k x).unit p q = s.unit p q := rfl
@[simp] theorem State.slot_setWin (s : State) (k : Nat) (x : Win) (p q : Nat) : (s.setWin k x).slot p q = s.slot p q := rfl
@[simp] theorem State.eng_setWin (s : State) (k : Nat) (x : Win) (p q : Nat) : (s.setWin k x).eng p q = s.eng p q := rfl
@[simp] theorem State.die_setWin (s : State) (k : Nat) (x : Win) (p : Nat) : (s.setWin k x).die p = s.die p := rfl
@[simp] theorem State.desc_setWin (s : State) (k : Nat) (x : Win) (p q : Nat) : (s.setWin k x).desc p q = s.desc p q := rfl
@[simp] theorem State.adc_setWin (s : State) (k : Nat) (x : Win) (p q : Nat) : (s.setWin k x).adc p q = s.adc p q := rfl
@[simp] theorem State.group_setWin (s : State) (k : Nat) (x : Win) (p : Nat) : (s.setWin k x).group p = s.group p := rfl
@[simp] theorem State.drive_setWin (s : State) (k : Nat) (x : Win) (p : Nat) : (s.setWin k x).drive p = s.drive p := rfl
@[simp] theorem State.axis_setWin (s : State) (k : Nat) (x : Win) (p : Nat) : (s.setWin k x).axis p = s.axis p := rfl
@[simp] theorem State.port_setWin (s : State) (k : Nat) (x : Win) (p : Nat) : (s.setWin k x).port p = s.port p := rfl
@[simp] theorem State.queue_setWin (s : State) (k : Nat) (x : Win) (p : Nat) : (s.setWin k x).queue p = s.queue p := rfl
@[simp] theorem State.lt_setWin (s : State) (k : Nat) (x : Win) : (s.setWin k x).lt = s.lt := rfl
@[simp] theorem State.sitePop_setWin (s : State) (k : Nat) (x : Win) (p : Nat) : (s.setWin k x).sitePop p = s.sitePop p := rfl
@[simp] theorem State.chanPop_setWin (s : State) (k : Nat) (x : Win) (p : Nat) : (s.setWin k x).chanPop p = s.chanPop p := rfl
@[simp] theorem State.sites_setWin (s : State) (k : Nat) (x : Win) : (s.setWin k x).sites = s.sites := rfl

/-! setGroup -/

@[simp] theorem State.setGroup_variant (s : State) (k : Nat) (x : Group) : (s.setGroup k x).variant = s.variant := rfl
@[simp] theorem State.setGroup_sealedPart (s : State) (k : Nat) (x : Group) : (s.setGroup k x).sealedPart = s.sealedPart := rfl
@[simp] theorem State.setGroup_vsys (s : State) (k : Nat) (x : Group) : (s.setGroup k x).vsys = s.vsys := rfl
@[simp] theorem State.setGroup_fw (s : State) (k : Nat) (x : Group) : (s.setGroup k x).fw = s.fw := rfl
@[simp] theorem State.setGroup_clock (s : State) (k : Nat) (x : Group) : (s.setGroup k x).clock = s.clock := rfl
@[simp] theorem State.setGroup_objs (s : State) (k : Nat) (x : Group) : (s.setGroup k x).objs = s.objs := rfl
@[simp] theorem State.setGroup_blobs (s : State) (k : Nat) (x : Group) : (s.setGroup k x).blobs = s.blobs := rfl
@[simp] theorem State.setGroup_flash (s : State) (k : Nat) (x : Group) : (s.setGroup k x).flash = s.flash := rfl
@[simp] theorem State.setGroup_flashBlobs (s : State) (k : Nat) (x : Group) : (s.setGroup k x).flashBlobs = s.flashBlobs := rfl
@[simp] theorem State.setGroup_chans (s : State) (k : Nat) (x : Group) : (s.setGroup k x).chans = s.chans := rfl
@[simp] theorem State.setGroup_units (s : State) (k : Nat) (x : Group) : (s.setGroup k x).units = s.units := rfl
@[simp] theorem State.setGroup_slots (s : State) (k : Nat) (x : Group) : (s.setGroup k x).slots = s.slots := rfl
@[simp] theorem State.setGroup_engines (s : State) (k : Nat) (x : Group) : (s.setGroup k x).engines = s.engines := rfl
@[simp] theorem State.setGroup_dies (s : State) (k : Nat) (x : Group) : (s.setGroup k x).dies = s.dies := rfl
@[simp] theorem State.setGroup_descs (s : State) (k : Nat) (x : Group) : (s.setGroup k x).descs = s.descs := rfl
@[simp] theorem State.setGroup_adcs (s : State) (k : Nat) (x : Group) : (s.setGroup k x).adcs = s.adcs := rfl
@[simp] theorem State.setGroup_wins (s : State) (k : Nat) (x : Group) : (s.setGroup k x).wins = s.wins := rfl
@[simp] theorem State.setGroup_queues (s : State) (k : Nat) (x : Group) : (s.setGroup k x).queues = s.queues := rfl
@[simp] theorem State.setGroup_groups (s : State) (k : Nat) (x : Group) : (s.setGroup k x).groups = put s.groups k x := rfl
@[simp] theorem State.setGroup_bldc (s : State) (k : Nat) (x : Group) : (s.setGroup k x).bldc = s.bldc := rfl
@[simp] theorem State.setGroup_axes (s : State) (k : Nat) (x : Group) : (s.setGroup k x).axes = s.axes := rfl
@[simp] theorem State.setGroup_power (s : State) (k : Nat) (x : Group) : (s.setGroup k x).power = s.power := rfl
@[simp] theorem State.setGroup_sup (s : State) (k : Nat) (x : Group) : (s.setGroup k x).sup = s.sup := rfl
@[simp] theorem State.setGroup_lockbox (s : State) (k : Nat) (x : Group) : (s.setGroup k x).lockbox = s.lockbox := rfl
@[simp] theorem State.setGroup_qm (s : State) (k : Nat) (x : Group) : (s.setGroup k x).qm = s.qm := rfl
@[simp] theorem State.setGroup_net (s : State) (k : Nat) (x : Group) : (s.setGroup k x).net = s.net := rfl
@[simp] theorem State.setGroup_can (s : State) (k : Nat) (x : Group) : (s.setGroup k x).can = s.can := rfl
@[simp] theorem State.setGroup_sec (s : State) (k : Nat) (x : Group) : (s.setGroup k x).sec = s.sec := rfl
@[simp] theorem State.setGroup_trail (s : State) (k : Nat) (x : Group) : (s.setGroup k x).trail = s.trail := rfl
@[simp] theorem State.setGroup_standbyDue (s : State) (k : Nat) (x : Group) : (s.setGroup k x).standbyDue = s.standbyDue := rfl
@[simp] theorem State.setGroup_sleepLt (s : State) (k : Nat) (x : Group) : (s.setGroup k x).sleepLt = s.sleepLt := rfl
@[simp] theorem State.setGroup_metNote (s : State) (k : Nat) (x : Group) : (s.setGroup k x).metNote = s.metNote := rfl
@[simp] theorem State.setGroup_lastMet (s : State) (k : Nat) (x : Group) : (s.setGroup k x).lastMet = s.lastMet := rfl
@[simp] theorem State.setGroup_metSilent (s : State) (k : Nat) (x : Group) : (s.setGroup k x).metSilent = s.metSilent := rfl
@[simp] theorem State.setGroup_metView (s : State) (k : Nat) (x : Group) : (s.setGroup k x).metView = s.metView := rfl
@[simp] theorem State.setGroup_metViewAt (s : State) (k : Nat) (x : Group) : (s.setGroup k x).metViewAt = s.metViewAt := rfl
@[simp] theorem State.setGroup_tag (s : State) (k : Nat) (x : Group) : (s.setGroup k x).tag = s.tag := rfl
@[simp] theorem State.setGroup_sleepHash (s : State) (k : Nat) (x : Group) : (s.setGroup k x).sleepHash = s.sleepHash := rfl
@[simp] theorem State.setGroup_waking (s : State) (k : Nat) (x : Group) : (s.setGroup k x).waking = s.waking := rfl
@[simp] theorem State.setGroup_resetLt (s : State) (k : Nat) (x : Group) : (s.setGroup k x).resetLt = s.resetLt := rfl
@[simp] theorem State.setGroup_resetReq (s : State) (k : Nat) (x : Group) : (s.setGroup k x).resetReq = s.resetReq := rfl
@[simp] theorem State.setGroup_lane (s : State) (k : Nat) (x : Group) : (s.setGroup k x).lane = s.lane := rfl
@[simp] theorem State.setGroup_flight (s : State) (k : Nat) (x : Group) : (s.setGroup k x).flight = s.flight := rfl
@[simp] theorem State.setGroup_part (s : State) (k : Nat) (x : Group) : (s.setGroup k x).part = s.part := rfl
@[simp] theorem State.setGroup_banks (s : State) (k : Nat) (x : Group) : (s.setGroup k x).banks = s.banks := rfl
@[simp] theorem State.setGroup_hot (s : State) (k : Nat) (x : Group) : (s.setGroup k x).hot = s.hot := rfl
@[simp] theorem State.setGroup_free (s : State) (k : Nat) (x : Group) : (s.setGroup k x).free = s.free := rfl
@[simp] theorem State.setGroup_pending (s : State) (k : Nat) (x : Group) : (s.setGroup k x).pending = s.pending := rfl

@[simp] theorem State.rd_setGroup (s : State) (k : Nat) (x : Group) (p q r : Nat) : (s.setGroup k x).rd p q r = s.rd p q r := rfl
@[simp] theorem State.rdN_setGroup (s : State) (k : Nat) (x : Group) (p q r : Nat) : (s.setGroup k x).rdN p q r = s.rdN p q r := rfl
@[simp] theorem State.rdB_setGroup (s : State) (k : Nat) (x : Group) (p q r : Nat) : (s.setGroup k x).rdB p q r = s.rdB p q r := rfl
@[simp] theorem State.chan_setGroup (s : State) (k : Nat) (x : Group) (p : Nat) : (s.setGroup k x).chan p = s.chan p := rfl
@[simp] theorem State.unit_setGroup (s : State) (k : Nat) (x : Group) (p q : Nat) : (s.setGroup k x).unit p q = s.unit p q := rfl
@[simp] theorem State.slot_setGroup (s : State) (k : Nat) (x : Group) (p q : Nat) : (s.setGroup k x).slot p q = s.slot p q := rfl
@[simp] theorem State.eng_setGroup (s : State) (k : Nat) (x : Group) (p q : Nat) : (s.setGroup k x).eng p q = s.eng p q := rfl
@[simp] theorem State.die_setGroup (s : State) (k : Nat) (x : Group) (p : Nat) : (s.setGroup k x).die p = s.die p := rfl
@[simp] theorem State.desc_setGroup (s : State) (k : Nat) (x : Group) (p q : Nat) : (s.setGroup k x).desc p q = s.desc p q := rfl
@[simp] theorem State.adc_setGroup (s : State) (k : Nat) (x : Group) (p q : Nat) : (s.setGroup k x).adc p q = s.adc p q := rfl
@[simp] theorem State.win_setGroup (s : State) (k : Nat) (x : Group) (p : Nat) : (s.setGroup k x).win p = s.win p := rfl
@[simp] theorem State.drive_setGroup (s : State) (k : Nat) (x : Group) (p : Nat) : (s.setGroup k x).drive p = s.drive p := rfl
@[simp] theorem State.axis_setGroup (s : State) (k : Nat) (x : Group) (p : Nat) : (s.setGroup k x).axis p = s.axis p := rfl
@[simp] theorem State.port_setGroup (s : State) (k : Nat) (x : Group) (p : Nat) : (s.setGroup k x).port p = s.port p := rfl
@[simp] theorem State.queue_setGroup (s : State) (k : Nat) (x : Group) (p : Nat) : (s.setGroup k x).queue p = s.queue p := rfl
@[simp] theorem State.lt_setGroup (s : State) (k : Nat) (x : Group) : (s.setGroup k x).lt = s.lt := rfl
@[simp] theorem State.sitePop_setGroup (s : State) (k : Nat) (x : Group) (p : Nat) : (s.setGroup k x).sitePop p = s.sitePop p := rfl
@[simp] theorem State.chanPop_setGroup (s : State) (k : Nat) (x : Group) (p : Nat) : (s.setGroup k x).chanPop p = s.chanPop p := rfl
@[simp] theorem State.sites_setGroup (s : State) (k : Nat) (x : Group) : (s.setGroup k x).sites = s.sites := rfl

/-! setDrive -/

@[simp] theorem State.setDrive_variant (s : State) (k : Nat) (x : Bldc) : (s.setDrive k x).variant = s.variant := rfl
@[simp] theorem State.setDrive_sealedPart (s : State) (k : Nat) (x : Bldc) : (s.setDrive k x).sealedPart = s.sealedPart := rfl
@[simp] theorem State.setDrive_vsys (s : State) (k : Nat) (x : Bldc) : (s.setDrive k x).vsys = s.vsys := rfl
@[simp] theorem State.setDrive_fw (s : State) (k : Nat) (x : Bldc) : (s.setDrive k x).fw = s.fw := rfl
@[simp] theorem State.setDrive_clock (s : State) (k : Nat) (x : Bldc) : (s.setDrive k x).clock = s.clock := rfl
@[simp] theorem State.setDrive_objs (s : State) (k : Nat) (x : Bldc) : (s.setDrive k x).objs = s.objs := rfl
@[simp] theorem State.setDrive_blobs (s : State) (k : Nat) (x : Bldc) : (s.setDrive k x).blobs = s.blobs := rfl
@[simp] theorem State.setDrive_flash (s : State) (k : Nat) (x : Bldc) : (s.setDrive k x).flash = s.flash := rfl
@[simp] theorem State.setDrive_flashBlobs (s : State) (k : Nat) (x : Bldc) : (s.setDrive k x).flashBlobs = s.flashBlobs := rfl
@[simp] theorem State.setDrive_chans (s : State) (k : Nat) (x : Bldc) : (s.setDrive k x).chans = s.chans := rfl
@[simp] theorem State.setDrive_units (s : State) (k : Nat) (x : Bldc) : (s.setDrive k x).units = s.units := rfl
@[simp] theorem State.setDrive_slots (s : State) (k : Nat) (x : Bldc) : (s.setDrive k x).slots = s.slots := rfl
@[simp] theorem State.setDrive_engines (s : State) (k : Nat) (x : Bldc) : (s.setDrive k x).engines = s.engines := rfl
@[simp] theorem State.setDrive_dies (s : State) (k : Nat) (x : Bldc) : (s.setDrive k x).dies = s.dies := rfl
@[simp] theorem State.setDrive_descs (s : State) (k : Nat) (x : Bldc) : (s.setDrive k x).descs = s.descs := rfl
@[simp] theorem State.setDrive_adcs (s : State) (k : Nat) (x : Bldc) : (s.setDrive k x).adcs = s.adcs := rfl
@[simp] theorem State.setDrive_wins (s : State) (k : Nat) (x : Bldc) : (s.setDrive k x).wins = s.wins := rfl
@[simp] theorem State.setDrive_queues (s : State) (k : Nat) (x : Bldc) : (s.setDrive k x).queues = s.queues := rfl
@[simp] theorem State.setDrive_groups (s : State) (k : Nat) (x : Bldc) : (s.setDrive k x).groups = s.groups := rfl
@[simp] theorem State.setDrive_bldc (s : State) (k : Nat) (x : Bldc) : (s.setDrive k x).bldc = put s.bldc k x := rfl
@[simp] theorem State.setDrive_axes (s : State) (k : Nat) (x : Bldc) : (s.setDrive k x).axes = s.axes := rfl
@[simp] theorem State.setDrive_power (s : State) (k : Nat) (x : Bldc) : (s.setDrive k x).power = s.power := rfl
@[simp] theorem State.setDrive_sup (s : State) (k : Nat) (x : Bldc) : (s.setDrive k x).sup = s.sup := rfl
@[simp] theorem State.setDrive_lockbox (s : State) (k : Nat) (x : Bldc) : (s.setDrive k x).lockbox = s.lockbox := rfl
@[simp] theorem State.setDrive_qm (s : State) (k : Nat) (x : Bldc) : (s.setDrive k x).qm = s.qm := rfl
@[simp] theorem State.setDrive_net (s : State) (k : Nat) (x : Bldc) : (s.setDrive k x).net = s.net := rfl
@[simp] theorem State.setDrive_can (s : State) (k : Nat) (x : Bldc) : (s.setDrive k x).can = s.can := rfl
@[simp] theorem State.setDrive_sec (s : State) (k : Nat) (x : Bldc) : (s.setDrive k x).sec = s.sec := rfl
@[simp] theorem State.setDrive_trail (s : State) (k : Nat) (x : Bldc) : (s.setDrive k x).trail = s.trail := rfl
@[simp] theorem State.setDrive_standbyDue (s : State) (k : Nat) (x : Bldc) : (s.setDrive k x).standbyDue = s.standbyDue := rfl
@[simp] theorem State.setDrive_sleepLt (s : State) (k : Nat) (x : Bldc) : (s.setDrive k x).sleepLt = s.sleepLt := rfl
@[simp] theorem State.setDrive_metNote (s : State) (k : Nat) (x : Bldc) : (s.setDrive k x).metNote = s.metNote := rfl
@[simp] theorem State.setDrive_lastMet (s : State) (k : Nat) (x : Bldc) : (s.setDrive k x).lastMet = s.lastMet := rfl
@[simp] theorem State.setDrive_metSilent (s : State) (k : Nat) (x : Bldc) : (s.setDrive k x).metSilent = s.metSilent := rfl
@[simp] theorem State.setDrive_metView (s : State) (k : Nat) (x : Bldc) : (s.setDrive k x).metView = s.metView := rfl
@[simp] theorem State.setDrive_metViewAt (s : State) (k : Nat) (x : Bldc) : (s.setDrive k x).metViewAt = s.metViewAt := rfl
@[simp] theorem State.setDrive_tag (s : State) (k : Nat) (x : Bldc) : (s.setDrive k x).tag = s.tag := rfl
@[simp] theorem State.setDrive_sleepHash (s : State) (k : Nat) (x : Bldc) : (s.setDrive k x).sleepHash = s.sleepHash := rfl
@[simp] theorem State.setDrive_waking (s : State) (k : Nat) (x : Bldc) : (s.setDrive k x).waking = s.waking := rfl
@[simp] theorem State.setDrive_resetLt (s : State) (k : Nat) (x : Bldc) : (s.setDrive k x).resetLt = s.resetLt := rfl
@[simp] theorem State.setDrive_resetReq (s : State) (k : Nat) (x : Bldc) : (s.setDrive k x).resetReq = s.resetReq := rfl
@[simp] theorem State.setDrive_lane (s : State) (k : Nat) (x : Bldc) : (s.setDrive k x).lane = s.lane := rfl
@[simp] theorem State.setDrive_flight (s : State) (k : Nat) (x : Bldc) : (s.setDrive k x).flight = s.flight := rfl
@[simp] theorem State.setDrive_part (s : State) (k : Nat) (x : Bldc) : (s.setDrive k x).part = s.part := rfl
@[simp] theorem State.setDrive_banks (s : State) (k : Nat) (x : Bldc) : (s.setDrive k x).banks = s.banks := rfl
@[simp] theorem State.setDrive_hot (s : State) (k : Nat) (x : Bldc) : (s.setDrive k x).hot = s.hot := rfl
@[simp] theorem State.setDrive_free (s : State) (k : Nat) (x : Bldc) : (s.setDrive k x).free = s.free := rfl
@[simp] theorem State.setDrive_pending (s : State) (k : Nat) (x : Bldc) : (s.setDrive k x).pending = s.pending := rfl

@[simp] theorem State.rd_setDrive (s : State) (k : Nat) (x : Bldc) (p q r : Nat) : (s.setDrive k x).rd p q r = s.rd p q r := rfl
@[simp] theorem State.rdN_setDrive (s : State) (k : Nat) (x : Bldc) (p q r : Nat) : (s.setDrive k x).rdN p q r = s.rdN p q r := rfl
@[simp] theorem State.rdB_setDrive (s : State) (k : Nat) (x : Bldc) (p q r : Nat) : (s.setDrive k x).rdB p q r = s.rdB p q r := rfl
@[simp] theorem State.chan_setDrive (s : State) (k : Nat) (x : Bldc) (p : Nat) : (s.setDrive k x).chan p = s.chan p := rfl
@[simp] theorem State.unit_setDrive (s : State) (k : Nat) (x : Bldc) (p q : Nat) : (s.setDrive k x).unit p q = s.unit p q := rfl
@[simp] theorem State.slot_setDrive (s : State) (k : Nat) (x : Bldc) (p q : Nat) : (s.setDrive k x).slot p q = s.slot p q := rfl
@[simp] theorem State.eng_setDrive (s : State) (k : Nat) (x : Bldc) (p q : Nat) : (s.setDrive k x).eng p q = s.eng p q := rfl
@[simp] theorem State.die_setDrive (s : State) (k : Nat) (x : Bldc) (p : Nat) : (s.setDrive k x).die p = s.die p := rfl
@[simp] theorem State.desc_setDrive (s : State) (k : Nat) (x : Bldc) (p q : Nat) : (s.setDrive k x).desc p q = s.desc p q := rfl
@[simp] theorem State.adc_setDrive (s : State) (k : Nat) (x : Bldc) (p q : Nat) : (s.setDrive k x).adc p q = s.adc p q := rfl
@[simp] theorem State.win_setDrive (s : State) (k : Nat) (x : Bldc) (p : Nat) : (s.setDrive k x).win p = s.win p := rfl
@[simp] theorem State.group_setDrive (s : State) (k : Nat) (x : Bldc) (p : Nat) : (s.setDrive k x).group p = s.group p := rfl
@[simp] theorem State.axis_setDrive (s : State) (k : Nat) (x : Bldc) (p : Nat) : (s.setDrive k x).axis p = s.axis p := rfl
@[simp] theorem State.port_setDrive (s : State) (k : Nat) (x : Bldc) (p : Nat) : (s.setDrive k x).port p = s.port p := rfl
@[simp] theorem State.queue_setDrive (s : State) (k : Nat) (x : Bldc) (p : Nat) : (s.setDrive k x).queue p = s.queue p := rfl
@[simp] theorem State.lt_setDrive (s : State) (k : Nat) (x : Bldc) : (s.setDrive k x).lt = s.lt := rfl
@[simp] theorem State.sitePop_setDrive (s : State) (k : Nat) (x : Bldc) (p : Nat) : (s.setDrive k x).sitePop p = s.sitePop p := rfl
@[simp] theorem State.chanPop_setDrive (s : State) (k : Nat) (x : Bldc) (p : Nat) : (s.setDrive k x).chanPop p = s.chanPop p := rfl
@[simp] theorem State.sites_setDrive (s : State) (k : Nat) (x : Bldc) : (s.setDrive k x).sites = s.sites := rfl

/-! setAxis -/

@[simp] theorem State.setAxis_variant (s : State) (k : Nat) (x : Axis) : (s.setAxis k x).variant = s.variant := rfl
@[simp] theorem State.setAxis_sealedPart (s : State) (k : Nat) (x : Axis) : (s.setAxis k x).sealedPart = s.sealedPart := rfl
@[simp] theorem State.setAxis_vsys (s : State) (k : Nat) (x : Axis) : (s.setAxis k x).vsys = s.vsys := rfl
@[simp] theorem State.setAxis_fw (s : State) (k : Nat) (x : Axis) : (s.setAxis k x).fw = s.fw := rfl
@[simp] theorem State.setAxis_clock (s : State) (k : Nat) (x : Axis) : (s.setAxis k x).clock = s.clock := rfl
@[simp] theorem State.setAxis_objs (s : State) (k : Nat) (x : Axis) : (s.setAxis k x).objs = s.objs := rfl
@[simp] theorem State.setAxis_blobs (s : State) (k : Nat) (x : Axis) : (s.setAxis k x).blobs = s.blobs := rfl
@[simp] theorem State.setAxis_flash (s : State) (k : Nat) (x : Axis) : (s.setAxis k x).flash = s.flash := rfl
@[simp] theorem State.setAxis_flashBlobs (s : State) (k : Nat) (x : Axis) : (s.setAxis k x).flashBlobs = s.flashBlobs := rfl
@[simp] theorem State.setAxis_chans (s : State) (k : Nat) (x : Axis) : (s.setAxis k x).chans = s.chans := rfl
@[simp] theorem State.setAxis_units (s : State) (k : Nat) (x : Axis) : (s.setAxis k x).units = s.units := rfl
@[simp] theorem State.setAxis_slots (s : State) (k : Nat) (x : Axis) : (s.setAxis k x).slots = s.slots := rfl
@[simp] theorem State.setAxis_engines (s : State) (k : Nat) (x : Axis) : (s.setAxis k x).engines = s.engines := rfl
@[simp] theorem State.setAxis_dies (s : State) (k : Nat) (x : Axis) : (s.setAxis k x).dies = s.dies := rfl
@[simp] theorem State.setAxis_descs (s : State) (k : Nat) (x : Axis) : (s.setAxis k x).descs = s.descs := rfl
@[simp] theorem State.setAxis_adcs (s : State) (k : Nat) (x : Axis) : (s.setAxis k x).adcs = s.adcs := rfl
@[simp] theorem State.setAxis_wins (s : State) (k : Nat) (x : Axis) : (s.setAxis k x).wins = s.wins := rfl
@[simp] theorem State.setAxis_queues (s : State) (k : Nat) (x : Axis) : (s.setAxis k x).queues = s.queues := rfl
@[simp] theorem State.setAxis_groups (s : State) (k : Nat) (x : Axis) : (s.setAxis k x).groups = s.groups := rfl
@[simp] theorem State.setAxis_bldc (s : State) (k : Nat) (x : Axis) : (s.setAxis k x).bldc = s.bldc := rfl
@[simp] theorem State.setAxis_axes (s : State) (k : Nat) (x : Axis) : (s.setAxis k x).axes = put s.axes k x := rfl
@[simp] theorem State.setAxis_power (s : State) (k : Nat) (x : Axis) : (s.setAxis k x).power = s.power := rfl
@[simp] theorem State.setAxis_sup (s : State) (k : Nat) (x : Axis) : (s.setAxis k x).sup = s.sup := rfl
@[simp] theorem State.setAxis_lockbox (s : State) (k : Nat) (x : Axis) : (s.setAxis k x).lockbox = s.lockbox := rfl
@[simp] theorem State.setAxis_qm (s : State) (k : Nat) (x : Axis) : (s.setAxis k x).qm = s.qm := rfl
@[simp] theorem State.setAxis_net (s : State) (k : Nat) (x : Axis) : (s.setAxis k x).net = s.net := rfl
@[simp] theorem State.setAxis_can (s : State) (k : Nat) (x : Axis) : (s.setAxis k x).can = s.can := rfl
@[simp] theorem State.setAxis_sec (s : State) (k : Nat) (x : Axis) : (s.setAxis k x).sec = s.sec := rfl
@[simp] theorem State.setAxis_trail (s : State) (k : Nat) (x : Axis) : (s.setAxis k x).trail = s.trail := rfl
@[simp] theorem State.setAxis_standbyDue (s : State) (k : Nat) (x : Axis) : (s.setAxis k x).standbyDue = s.standbyDue := rfl
@[simp] theorem State.setAxis_sleepLt (s : State) (k : Nat) (x : Axis) : (s.setAxis k x).sleepLt = s.sleepLt := rfl
@[simp] theorem State.setAxis_metNote (s : State) (k : Nat) (x : Axis) : (s.setAxis k x).metNote = s.metNote := rfl
@[simp] theorem State.setAxis_lastMet (s : State) (k : Nat) (x : Axis) : (s.setAxis k x).lastMet = s.lastMet := rfl
@[simp] theorem State.setAxis_metSilent (s : State) (k : Nat) (x : Axis) : (s.setAxis k x).metSilent = s.metSilent := rfl
@[simp] theorem State.setAxis_metView (s : State) (k : Nat) (x : Axis) : (s.setAxis k x).metView = s.metView := rfl
@[simp] theorem State.setAxis_metViewAt (s : State) (k : Nat) (x : Axis) : (s.setAxis k x).metViewAt = s.metViewAt := rfl
@[simp] theorem State.setAxis_tag (s : State) (k : Nat) (x : Axis) : (s.setAxis k x).tag = s.tag := rfl
@[simp] theorem State.setAxis_sleepHash (s : State) (k : Nat) (x : Axis) : (s.setAxis k x).sleepHash = s.sleepHash := rfl
@[simp] theorem State.setAxis_waking (s : State) (k : Nat) (x : Axis) : (s.setAxis k x).waking = s.waking := rfl
@[simp] theorem State.setAxis_resetLt (s : State) (k : Nat) (x : Axis) : (s.setAxis k x).resetLt = s.resetLt := rfl
@[simp] theorem State.setAxis_resetReq (s : State) (k : Nat) (x : Axis) : (s.setAxis k x).resetReq = s.resetReq := rfl
@[simp] theorem State.setAxis_lane (s : State) (k : Nat) (x : Axis) : (s.setAxis k x).lane = s.lane := rfl
@[simp] theorem State.setAxis_flight (s : State) (k : Nat) (x : Axis) : (s.setAxis k x).flight = s.flight := rfl
@[simp] theorem State.setAxis_part (s : State) (k : Nat) (x : Axis) : (s.setAxis k x).part = s.part := rfl
@[simp] theorem State.setAxis_banks (s : State) (k : Nat) (x : Axis) : (s.setAxis k x).banks = s.banks := rfl
@[simp] theorem State.setAxis_hot (s : State) (k : Nat) (x : Axis) : (s.setAxis k x).hot = s.hot := rfl
@[simp] theorem State.setAxis_free (s : State) (k : Nat) (x : Axis) : (s.setAxis k x).free = s.free := rfl
@[simp] theorem State.setAxis_pending (s : State) (k : Nat) (x : Axis) : (s.setAxis k x).pending = s.pending := rfl

@[simp] theorem State.rd_setAxis (s : State) (k : Nat) (x : Axis) (p q r : Nat) : (s.setAxis k x).rd p q r = s.rd p q r := rfl
@[simp] theorem State.rdN_setAxis (s : State) (k : Nat) (x : Axis) (p q r : Nat) : (s.setAxis k x).rdN p q r = s.rdN p q r := rfl
@[simp] theorem State.rdB_setAxis (s : State) (k : Nat) (x : Axis) (p q r : Nat) : (s.setAxis k x).rdB p q r = s.rdB p q r := rfl
@[simp] theorem State.chan_setAxis (s : State) (k : Nat) (x : Axis) (p : Nat) : (s.setAxis k x).chan p = s.chan p := rfl
@[simp] theorem State.unit_setAxis (s : State) (k : Nat) (x : Axis) (p q : Nat) : (s.setAxis k x).unit p q = s.unit p q := rfl
@[simp] theorem State.slot_setAxis (s : State) (k : Nat) (x : Axis) (p q : Nat) : (s.setAxis k x).slot p q = s.slot p q := rfl
@[simp] theorem State.eng_setAxis (s : State) (k : Nat) (x : Axis) (p q : Nat) : (s.setAxis k x).eng p q = s.eng p q := rfl
@[simp] theorem State.die_setAxis (s : State) (k : Nat) (x : Axis) (p : Nat) : (s.setAxis k x).die p = s.die p := rfl
@[simp] theorem State.desc_setAxis (s : State) (k : Nat) (x : Axis) (p q : Nat) : (s.setAxis k x).desc p q = s.desc p q := rfl
@[simp] theorem State.adc_setAxis (s : State) (k : Nat) (x : Axis) (p q : Nat) : (s.setAxis k x).adc p q = s.adc p q := rfl
@[simp] theorem State.win_setAxis (s : State) (k : Nat) (x : Axis) (p : Nat) : (s.setAxis k x).win p = s.win p := rfl
@[simp] theorem State.group_setAxis (s : State) (k : Nat) (x : Axis) (p : Nat) : (s.setAxis k x).group p = s.group p := rfl
@[simp] theorem State.drive_setAxis (s : State) (k : Nat) (x : Axis) (p : Nat) : (s.setAxis k x).drive p = s.drive p := rfl
@[simp] theorem State.port_setAxis (s : State) (k : Nat) (x : Axis) (p : Nat) : (s.setAxis k x).port p = s.port p := rfl
@[simp] theorem State.queue_setAxis (s : State) (k : Nat) (x : Axis) (p : Nat) : (s.setAxis k x).queue p = s.queue p := rfl
@[simp] theorem State.lt_setAxis (s : State) (k : Nat) (x : Axis) : (s.setAxis k x).lt = s.lt := rfl
@[simp] theorem State.sitePop_setAxis (s : State) (k : Nat) (x : Axis) (p : Nat) : (s.setAxis k x).sitePop p = s.sitePop p := rfl
@[simp] theorem State.chanPop_setAxis (s : State) (k : Nat) (x : Axis) (p : Nat) : (s.setAxis k x).chanPop p = s.chanPop p := rfl
@[simp] theorem State.sites_setAxis (s : State) (k : Nat) (x : Axis) : (s.setAxis k x).sites = s.sites := rfl

/-! setPort -/

@[simp] theorem State.setPort_variant (s : State) (k : Nat) (x : Can) : (s.setPort k x).variant = s.variant := rfl
@[simp] theorem State.setPort_sealedPart (s : State) (k : Nat) (x : Can) : (s.setPort k x).sealedPart = s.sealedPart := rfl
@[simp] theorem State.setPort_vsys (s : State) (k : Nat) (x : Can) : (s.setPort k x).vsys = s.vsys := rfl
@[simp] theorem State.setPort_fw (s : State) (k : Nat) (x : Can) : (s.setPort k x).fw = s.fw := rfl
@[simp] theorem State.setPort_clock (s : State) (k : Nat) (x : Can) : (s.setPort k x).clock = s.clock := rfl
@[simp] theorem State.setPort_objs (s : State) (k : Nat) (x : Can) : (s.setPort k x).objs = s.objs := rfl
@[simp] theorem State.setPort_blobs (s : State) (k : Nat) (x : Can) : (s.setPort k x).blobs = s.blobs := rfl
@[simp] theorem State.setPort_flash (s : State) (k : Nat) (x : Can) : (s.setPort k x).flash = s.flash := rfl
@[simp] theorem State.setPort_flashBlobs (s : State) (k : Nat) (x : Can) : (s.setPort k x).flashBlobs = s.flashBlobs := rfl
@[simp] theorem State.setPort_chans (s : State) (k : Nat) (x : Can) : (s.setPort k x).chans = s.chans := rfl
@[simp] theorem State.setPort_units (s : State) (k : Nat) (x : Can) : (s.setPort k x).units = s.units := rfl
@[simp] theorem State.setPort_slots (s : State) (k : Nat) (x : Can) : (s.setPort k x).slots = s.slots := rfl
@[simp] theorem State.setPort_engines (s : State) (k : Nat) (x : Can) : (s.setPort k x).engines = s.engines := rfl
@[simp] theorem State.setPort_dies (s : State) (k : Nat) (x : Can) : (s.setPort k x).dies = s.dies := rfl
@[simp] theorem State.setPort_descs (s : State) (k : Nat) (x : Can) : (s.setPort k x).descs = s.descs := rfl
@[simp] theorem State.setPort_adcs (s : State) (k : Nat) (x : Can) : (s.setPort k x).adcs = s.adcs := rfl
@[simp] theorem State.setPort_wins (s : State) (k : Nat) (x : Can) : (s.setPort k x).wins = s.wins := rfl
@[simp] theorem State.setPort_queues (s : State) (k : Nat) (x : Can) : (s.setPort k x).queues = s.queues := rfl
@[simp] theorem State.setPort_groups (s : State) (k : Nat) (x : Can) : (s.setPort k x).groups = s.groups := rfl
@[simp] theorem State.setPort_bldc (s : State) (k : Nat) (x : Can) : (s.setPort k x).bldc = s.bldc := rfl
@[simp] theorem State.setPort_axes (s : State) (k : Nat) (x : Can) : (s.setPort k x).axes = s.axes := rfl
@[simp] theorem State.setPort_power (s : State) (k : Nat) (x : Can) : (s.setPort k x).power = s.power := rfl
@[simp] theorem State.setPort_sup (s : State) (k : Nat) (x : Can) : (s.setPort k x).sup = s.sup := rfl
@[simp] theorem State.setPort_lockbox (s : State) (k : Nat) (x : Can) : (s.setPort k x).lockbox = s.lockbox := rfl
@[simp] theorem State.setPort_qm (s : State) (k : Nat) (x : Can) : (s.setPort k x).qm = s.qm := rfl
@[simp] theorem State.setPort_net (s : State) (k : Nat) (x : Can) : (s.setPort k x).net = s.net := rfl
@[simp] theorem State.setPort_can (s : State) (k : Nat) (x : Can) : (s.setPort k x).can = put s.can k x := rfl
@[simp] theorem State.setPort_sec (s : State) (k : Nat) (x : Can) : (s.setPort k x).sec = s.sec := rfl
@[simp] theorem State.setPort_trail (s : State) (k : Nat) (x : Can) : (s.setPort k x).trail = s.trail := rfl
@[simp] theorem State.setPort_standbyDue (s : State) (k : Nat) (x : Can) : (s.setPort k x).standbyDue = s.standbyDue := rfl
@[simp] theorem State.setPort_sleepLt (s : State) (k : Nat) (x : Can) : (s.setPort k x).sleepLt = s.sleepLt := rfl
@[simp] theorem State.setPort_metNote (s : State) (k : Nat) (x : Can) : (s.setPort k x).metNote = s.metNote := rfl
@[simp] theorem State.setPort_lastMet (s : State) (k : Nat) (x : Can) : (s.setPort k x).lastMet = s.lastMet := rfl
@[simp] theorem State.setPort_metSilent (s : State) (k : Nat) (x : Can) : (s.setPort k x).metSilent = s.metSilent := rfl
@[simp] theorem State.setPort_metView (s : State) (k : Nat) (x : Can) : (s.setPort k x).metView = s.metView := rfl
@[simp] theorem State.setPort_metViewAt (s : State) (k : Nat) (x : Can) : (s.setPort k x).metViewAt = s.metViewAt := rfl
@[simp] theorem State.setPort_tag (s : State) (k : Nat) (x : Can) : (s.setPort k x).tag = s.tag := rfl
@[simp] theorem State.setPort_sleepHash (s : State) (k : Nat) (x : Can) : (s.setPort k x).sleepHash = s.sleepHash := rfl
@[simp] theorem State.setPort_waking (s : State) (k : Nat) (x : Can) : (s.setPort k x).waking = s.waking := rfl
@[simp] theorem State.setPort_resetLt (s : State) (k : Nat) (x : Can) : (s.setPort k x).resetLt = s.resetLt := rfl
@[simp] theorem State.setPort_resetReq (s : State) (k : Nat) (x : Can) : (s.setPort k x).resetReq = s.resetReq := rfl
@[simp] theorem State.setPort_lane (s : State) (k : Nat) (x : Can) : (s.setPort k x).lane = s.lane := rfl
@[simp] theorem State.setPort_flight (s : State) (k : Nat) (x : Can) : (s.setPort k x).flight = s.flight := rfl
@[simp] theorem State.setPort_part (s : State) (k : Nat) (x : Can) : (s.setPort k x).part = s.part := rfl
@[simp] theorem State.setPort_banks (s : State) (k : Nat) (x : Can) : (s.setPort k x).banks = s.banks := rfl
@[simp] theorem State.setPort_hot (s : State) (k : Nat) (x : Can) : (s.setPort k x).hot = s.hot := rfl
@[simp] theorem State.setPort_free (s : State) (k : Nat) (x : Can) : (s.setPort k x).free = s.free := rfl
@[simp] theorem State.setPort_pending (s : State) (k : Nat) (x : Can) : (s.setPort k x).pending = s.pending := rfl

@[simp] theorem State.rd_setPort (s : State) (k : Nat) (x : Can) (p q r : Nat) : (s.setPort k x).rd p q r = s.rd p q r := rfl
@[simp] theorem State.rdN_setPort (s : State) (k : Nat) (x : Can) (p q r : Nat) : (s.setPort k x).rdN p q r = s.rdN p q r := rfl
@[simp] theorem State.rdB_setPort (s : State) (k : Nat) (x : Can) (p q r : Nat) : (s.setPort k x).rdB p q r = s.rdB p q r := rfl
@[simp] theorem State.chan_setPort (s : State) (k : Nat) (x : Can) (p : Nat) : (s.setPort k x).chan p = s.chan p := rfl
@[simp] theorem State.unit_setPort (s : State) (k : Nat) (x : Can) (p q : Nat) : (s.setPort k x).unit p q = s.unit p q := rfl
@[simp] theorem State.slot_setPort (s : State) (k : Nat) (x : Can) (p q : Nat) : (s.setPort k x).slot p q = s.slot p q := rfl
@[simp] theorem State.eng_setPort (s : State) (k : Nat) (x : Can) (p q : Nat) : (s.setPort k x).eng p q = s.eng p q := rfl
@[simp] theorem State.die_setPort (s : State) (k : Nat) (x : Can) (p : Nat) : (s.setPort k x).die p = s.die p := rfl
@[simp] theorem State.desc_setPort (s : State) (k : Nat) (x : Can) (p q : Nat) : (s.setPort k x).desc p q = s.desc p q := rfl
@[simp] theorem State.adc_setPort (s : State) (k : Nat) (x : Can) (p q : Nat) : (s.setPort k x).adc p q = s.adc p q := rfl
@[simp] theorem State.win_setPort (s : State) (k : Nat) (x : Can) (p : Nat) : (s.setPort k x).win p = s.win p := rfl
@[simp] theorem State.group_setPort (s : State) (k : Nat) (x : Can) (p : Nat) : (s.setPort k x).group p = s.group p := rfl
@[simp] theorem State.drive_setPort (s : State) (k : Nat) (x : Can) (p : Nat) : (s.setPort k x).drive p = s.drive p := rfl
@[simp] theorem State.axis_setPort (s : State) (k : Nat) (x : Can) (p : Nat) : (s.setPort k x).axis p = s.axis p := rfl
@[simp] theorem State.queue_setPort (s : State) (k : Nat) (x : Can) (p : Nat) : (s.setPort k x).queue p = s.queue p := rfl
@[simp] theorem State.lt_setPort (s : State) (k : Nat) (x : Can) : (s.setPort k x).lt = s.lt := rfl
@[simp] theorem State.sitePop_setPort (s : State) (k : Nat) (x : Can) (p : Nat) : (s.setPort k x).sitePop p = s.sitePop p := rfl
@[simp] theorem State.chanPop_setPort (s : State) (k : Nat) (x : Can) (p : Nat) : (s.setPort k x).chanPop p = s.chanPop p := rfl
@[simp] theorem State.sites_setPort (s : State) (k : Nat) (x : Can) : (s.setPort k x).sites = s.sites := rfl

/-! setQueue -/

@[simp] theorem State.setQueue_variant (s : State) (k : Nat) (x : List (BitVec 64)) : (s.setQueue k x).variant = s.variant := rfl
@[simp] theorem State.setQueue_sealedPart (s : State) (k : Nat) (x : List (BitVec 64)) : (s.setQueue k x).sealedPart = s.sealedPart := rfl
@[simp] theorem State.setQueue_vsys (s : State) (k : Nat) (x : List (BitVec 64)) : (s.setQueue k x).vsys = s.vsys := rfl
@[simp] theorem State.setQueue_fw (s : State) (k : Nat) (x : List (BitVec 64)) : (s.setQueue k x).fw = s.fw := rfl
@[simp] theorem State.setQueue_clock (s : State) (k : Nat) (x : List (BitVec 64)) : (s.setQueue k x).clock = s.clock := rfl
@[simp] theorem State.setQueue_objs (s : State) (k : Nat) (x : List (BitVec 64)) : (s.setQueue k x).objs = s.objs := rfl
@[simp] theorem State.setQueue_blobs (s : State) (k : Nat) (x : List (BitVec 64)) : (s.setQueue k x).blobs = s.blobs := rfl
@[simp] theorem State.setQueue_flash (s : State) (k : Nat) (x : List (BitVec 64)) : (s.setQueue k x).flash = s.flash := rfl
@[simp] theorem State.setQueue_flashBlobs (s : State) (k : Nat) (x : List (BitVec 64)) : (s.setQueue k x).flashBlobs = s.flashBlobs := rfl
@[simp] theorem State.setQueue_chans (s : State) (k : Nat) (x : List (BitVec 64)) : (s.setQueue k x).chans = s.chans := rfl
@[simp] theorem State.setQueue_units (s : State) (k : Nat) (x : List (BitVec 64)) : (s.setQueue k x).units = s.units := rfl
@[simp] theorem State.setQueue_slots (s : State) (k : Nat) (x : List (BitVec 64)) : (s.setQueue k x).slots = s.slots := rfl
@[simp] theorem State.setQueue_engines (s : State) (k : Nat) (x : List (BitVec 64)) : (s.setQueue k x).engines = s.engines := rfl
@[simp] theorem State.setQueue_dies (s : State) (k : Nat) (x : List (BitVec 64)) : (s.setQueue k x).dies = s.dies := rfl
@[simp] theorem State.setQueue_descs (s : State) (k : Nat) (x : List (BitVec 64)) : (s.setQueue k x).descs = s.descs := rfl
@[simp] theorem State.setQueue_adcs (s : State) (k : Nat) (x : List (BitVec 64)) : (s.setQueue k x).adcs = s.adcs := rfl
@[simp] theorem State.setQueue_wins (s : State) (k : Nat) (x : List (BitVec 64)) : (s.setQueue k x).wins = s.wins := rfl
@[simp] theorem State.setQueue_queues (s : State) (k : Nat) (x : List (BitVec 64)) : (s.setQueue k x).queues = put s.queues k x := rfl
@[simp] theorem State.setQueue_groups (s : State) (k : Nat) (x : List (BitVec 64)) : (s.setQueue k x).groups = s.groups := rfl
@[simp] theorem State.setQueue_bldc (s : State) (k : Nat) (x : List (BitVec 64)) : (s.setQueue k x).bldc = s.bldc := rfl
@[simp] theorem State.setQueue_axes (s : State) (k : Nat) (x : List (BitVec 64)) : (s.setQueue k x).axes = s.axes := rfl
@[simp] theorem State.setQueue_power (s : State) (k : Nat) (x : List (BitVec 64)) : (s.setQueue k x).power = s.power := rfl
@[simp] theorem State.setQueue_sup (s : State) (k : Nat) (x : List (BitVec 64)) : (s.setQueue k x).sup = s.sup := rfl
@[simp] theorem State.setQueue_lockbox (s : State) (k : Nat) (x : List (BitVec 64)) : (s.setQueue k x).lockbox = s.lockbox := rfl
@[simp] theorem State.setQueue_qm (s : State) (k : Nat) (x : List (BitVec 64)) : (s.setQueue k x).qm = s.qm := rfl
@[simp] theorem State.setQueue_net (s : State) (k : Nat) (x : List (BitVec 64)) : (s.setQueue k x).net = s.net := rfl
@[simp] theorem State.setQueue_can (s : State) (k : Nat) (x : List (BitVec 64)) : (s.setQueue k x).can = s.can := rfl
@[simp] theorem State.setQueue_sec (s : State) (k : Nat) (x : List (BitVec 64)) : (s.setQueue k x).sec = s.sec := rfl
@[simp] theorem State.setQueue_trail (s : State) (k : Nat) (x : List (BitVec 64)) : (s.setQueue k x).trail = s.trail := rfl
@[simp] theorem State.setQueue_standbyDue (s : State) (k : Nat) (x : List (BitVec 64)) : (s.setQueue k x).standbyDue = s.standbyDue := rfl
@[simp] theorem State.setQueue_sleepLt (s : State) (k : Nat) (x : List (BitVec 64)) : (s.setQueue k x).sleepLt = s.sleepLt := rfl
@[simp] theorem State.setQueue_metNote (s : State) (k : Nat) (x : List (BitVec 64)) : (s.setQueue k x).metNote = s.metNote := rfl
@[simp] theorem State.setQueue_lastMet (s : State) (k : Nat) (x : List (BitVec 64)) : (s.setQueue k x).lastMet = s.lastMet := rfl
@[simp] theorem State.setQueue_metSilent (s : State) (k : Nat) (x : List (BitVec 64)) : (s.setQueue k x).metSilent = s.metSilent := rfl
@[simp] theorem State.setQueue_metView (s : State) (k : Nat) (x : List (BitVec 64)) : (s.setQueue k x).metView = s.metView := rfl
@[simp] theorem State.setQueue_metViewAt (s : State) (k : Nat) (x : List (BitVec 64)) : (s.setQueue k x).metViewAt = s.metViewAt := rfl
@[simp] theorem State.setQueue_tag (s : State) (k : Nat) (x : List (BitVec 64)) : (s.setQueue k x).tag = s.tag := rfl
@[simp] theorem State.setQueue_sleepHash (s : State) (k : Nat) (x : List (BitVec 64)) : (s.setQueue k x).sleepHash = s.sleepHash := rfl
@[simp] theorem State.setQueue_waking (s : State) (k : Nat) (x : List (BitVec 64)) : (s.setQueue k x).waking = s.waking := rfl
@[simp] theorem State.setQueue_resetLt (s : State) (k : Nat) (x : List (BitVec 64)) : (s.setQueue k x).resetLt = s.resetLt := rfl
@[simp] theorem State.setQueue_resetReq (s : State) (k : Nat) (x : List (BitVec 64)) : (s.setQueue k x).resetReq = s.resetReq := rfl
@[simp] theorem State.setQueue_lane (s : State) (k : Nat) (x : List (BitVec 64)) : (s.setQueue k x).lane = s.lane := rfl
@[simp] theorem State.setQueue_flight (s : State) (k : Nat) (x : List (BitVec 64)) : (s.setQueue k x).flight = s.flight := rfl
@[simp] theorem State.setQueue_part (s : State) (k : Nat) (x : List (BitVec 64)) : (s.setQueue k x).part = s.part := rfl
@[simp] theorem State.setQueue_banks (s : State) (k : Nat) (x : List (BitVec 64)) : (s.setQueue k x).banks = s.banks := rfl
@[simp] theorem State.setQueue_hot (s : State) (k : Nat) (x : List (BitVec 64)) : (s.setQueue k x).hot = s.hot := rfl
@[simp] theorem State.setQueue_free (s : State) (k : Nat) (x : List (BitVec 64)) : (s.setQueue k x).free = s.free := rfl
@[simp] theorem State.setQueue_pending (s : State) (k : Nat) (x : List (BitVec 64)) : (s.setQueue k x).pending = s.pending := rfl

@[simp] theorem State.rd_setQueue (s : State) (k : Nat) (x : List (BitVec 64)) (p q r : Nat) : (s.setQueue k x).rd p q r = s.rd p q r := rfl
@[simp] theorem State.rdN_setQueue (s : State) (k : Nat) (x : List (BitVec 64)) (p q r : Nat) : (s.setQueue k x).rdN p q r = s.rdN p q r := rfl
@[simp] theorem State.rdB_setQueue (s : State) (k : Nat) (x : List (BitVec 64)) (p q r : Nat) : (s.setQueue k x).rdB p q r = s.rdB p q r := rfl
@[simp] theorem State.chan_setQueue (s : State) (k : Nat) (x : List (BitVec 64)) (p : Nat) : (s.setQueue k x).chan p = s.chan p := rfl
@[simp] theorem State.unit_setQueue (s : State) (k : Nat) (x : List (BitVec 64)) (p q : Nat) : (s.setQueue k x).unit p q = s.unit p q := rfl
@[simp] theorem State.slot_setQueue (s : State) (k : Nat) (x : List (BitVec 64)) (p q : Nat) : (s.setQueue k x).slot p q = s.slot p q := rfl
@[simp] theorem State.eng_setQueue (s : State) (k : Nat) (x : List (BitVec 64)) (p q : Nat) : (s.setQueue k x).eng p q = s.eng p q := rfl
@[simp] theorem State.die_setQueue (s : State) (k : Nat) (x : List (BitVec 64)) (p : Nat) : (s.setQueue k x).die p = s.die p := rfl
@[simp] theorem State.desc_setQueue (s : State) (k : Nat) (x : List (BitVec 64)) (p q : Nat) : (s.setQueue k x).desc p q = s.desc p q := rfl
@[simp] theorem State.adc_setQueue (s : State) (k : Nat) (x : List (BitVec 64)) (p q : Nat) : (s.setQueue k x).adc p q = s.adc p q := rfl
@[simp] theorem State.win_setQueue (s : State) (k : Nat) (x : List (BitVec 64)) (p : Nat) : (s.setQueue k x).win p = s.win p := rfl
@[simp] theorem State.group_setQueue (s : State) (k : Nat) (x : List (BitVec 64)) (p : Nat) : (s.setQueue k x).group p = s.group p := rfl
@[simp] theorem State.drive_setQueue (s : State) (k : Nat) (x : List (BitVec 64)) (p : Nat) : (s.setQueue k x).drive p = s.drive p := rfl
@[simp] theorem State.axis_setQueue (s : State) (k : Nat) (x : List (BitVec 64)) (p : Nat) : (s.setQueue k x).axis p = s.axis p := rfl
@[simp] theorem State.port_setQueue (s : State) (k : Nat) (x : List (BitVec 64)) (p : Nat) : (s.setQueue k x).port p = s.port p := rfl
@[simp] theorem State.lt_setQueue (s : State) (k : Nat) (x : List (BitVec 64)) : (s.setQueue k x).lt = s.lt := rfl
@[simp] theorem State.sitePop_setQueue (s : State) (k : Nat) (x : List (BitVec 64)) (p : Nat) : (s.setQueue k x).sitePop p = s.sitePop p := rfl
@[simp] theorem State.chanPop_setQueue (s : State) (k : Nat) (x : List (BitVec 64)) (p : Nat) : (s.setQueue k x).chanPop p = s.chanPop p := rfl
@[simp] theorem State.sites_setQueue (s : State) (k : Nat) (x : List (BitVec 64)) : (s.setQueue k x).sites = s.sites := rfl

/-! setClock -/

@[simp] theorem State.setClock_variant (s : State) (x : Clock) : (s.setClock x).variant = s.variant := rfl
@[simp] theorem State.setClock_sealedPart (s : State) (x : Clock) : (s.setClock x).sealedPart = s.sealedPart := rfl
@[simp] theorem State.setClock_vsys (s : State) (x : Clock) : (s.setClock x).vsys = s.vsys := rfl
@[simp] theorem State.setClock_fw (s : State) (x : Clock) : (s.setClock x).fw = s.fw := rfl
@[simp] theorem State.setClock_clock (s : State) (x : Clock) : (s.setClock x).clock = x := rfl
@[simp] theorem State.setClock_objs (s : State) (x : Clock) : (s.setClock x).objs = s.objs := rfl
@[simp] theorem State.setClock_blobs (s : State) (x : Clock) : (s.setClock x).blobs = s.blobs := rfl
@[simp] theorem State.setClock_flash (s : State) (x : Clock) : (s.setClock x).flash = s.flash := rfl
@[simp] theorem State.setClock_flashBlobs (s : State) (x : Clock) : (s.setClock x).flashBlobs = s.flashBlobs := rfl
@[simp] theorem State.setClock_chans (s : State) (x : Clock) : (s.setClock x).chans = s.chans := rfl
@[simp] theorem State.setClock_units (s : State) (x : Clock) : (s.setClock x).units = s.units := rfl
@[simp] theorem State.setClock_slots (s : State) (x : Clock) : (s.setClock x).slots = s.slots := rfl
@[simp] theorem State.setClock_engines (s : State) (x : Clock) : (s.setClock x).engines = s.engines := rfl
@[simp] theorem State.setClock_dies (s : State) (x : Clock) : (s.setClock x).dies = s.dies := rfl
@[simp] theorem State.setClock_descs (s : State) (x : Clock) : (s.setClock x).descs = s.descs := rfl
@[simp] theorem State.setClock_adcs (s : State) (x : Clock) : (s.setClock x).adcs = s.adcs := rfl
@[simp] theorem State.setClock_wins (s : State) (x : Clock) : (s.setClock x).wins = s.wins := rfl
@[simp] theorem State.setClock_queues (s : State) (x : Clock) : (s.setClock x).queues = s.queues := rfl
@[simp] theorem State.setClock_groups (s : State) (x : Clock) : (s.setClock x).groups = s.groups := rfl
@[simp] theorem State.setClock_bldc (s : State) (x : Clock) : (s.setClock x).bldc = s.bldc := rfl
@[simp] theorem State.setClock_axes (s : State) (x : Clock) : (s.setClock x).axes = s.axes := rfl
@[simp] theorem State.setClock_power (s : State) (x : Clock) : (s.setClock x).power = s.power := rfl
@[simp] theorem State.setClock_sup (s : State) (x : Clock) : (s.setClock x).sup = s.sup := rfl
@[simp] theorem State.setClock_lockbox (s : State) (x : Clock) : (s.setClock x).lockbox = s.lockbox := rfl
@[simp] theorem State.setClock_qm (s : State) (x : Clock) : (s.setClock x).qm = s.qm := rfl
@[simp] theorem State.setClock_net (s : State) (x : Clock) : (s.setClock x).net = s.net := rfl
@[simp] theorem State.setClock_can (s : State) (x : Clock) : (s.setClock x).can = s.can := rfl
@[simp] theorem State.setClock_sec (s : State) (x : Clock) : (s.setClock x).sec = s.sec := rfl
@[simp] theorem State.setClock_trail (s : State) (x : Clock) : (s.setClock x).trail = s.trail := rfl
@[simp] theorem State.setClock_standbyDue (s : State) (x : Clock) : (s.setClock x).standbyDue = s.standbyDue := rfl
@[simp] theorem State.setClock_sleepLt (s : State) (x : Clock) : (s.setClock x).sleepLt = s.sleepLt := rfl
@[simp] theorem State.setClock_metNote (s : State) (x : Clock) : (s.setClock x).metNote = s.metNote := rfl
@[simp] theorem State.setClock_lastMet (s : State) (x : Clock) : (s.setClock x).lastMet = s.lastMet := rfl
@[simp] theorem State.setClock_metSilent (s : State) (x : Clock) : (s.setClock x).metSilent = s.metSilent := rfl
@[simp] theorem State.setClock_metView (s : State) (x : Clock) : (s.setClock x).metView = s.metView := rfl
@[simp] theorem State.setClock_metViewAt (s : State) (x : Clock) : (s.setClock x).metViewAt = s.metViewAt := rfl
@[simp] theorem State.setClock_tag (s : State) (x : Clock) : (s.setClock x).tag = s.tag := rfl
@[simp] theorem State.setClock_sleepHash (s : State) (x : Clock) : (s.setClock x).sleepHash = s.sleepHash := rfl
@[simp] theorem State.setClock_waking (s : State) (x : Clock) : (s.setClock x).waking = s.waking := rfl
@[simp] theorem State.setClock_resetLt (s : State) (x : Clock) : (s.setClock x).resetLt = s.resetLt := rfl
@[simp] theorem State.setClock_resetReq (s : State) (x : Clock) : (s.setClock x).resetReq = s.resetReq := rfl
@[simp] theorem State.setClock_lane (s : State) (x : Clock) : (s.setClock x).lane = s.lane := rfl
@[simp] theorem State.setClock_flight (s : State) (x : Clock) : (s.setClock x).flight = s.flight := rfl
@[simp] theorem State.setClock_part (s : State) (x : Clock) : (s.setClock x).part = s.part := rfl
@[simp] theorem State.setClock_banks (s : State) (x : Clock) : (s.setClock x).banks = s.banks := rfl
@[simp] theorem State.setClock_hot (s : State) (x : Clock) : (s.setClock x).hot = s.hot := rfl
@[simp] theorem State.setClock_free (s : State) (x : Clock) : (s.setClock x).free = s.free := rfl
@[simp] theorem State.setClock_pending (s : State) (x : Clock) : (s.setClock x).pending = s.pending := rfl

@[simp] theorem State.rd_setClock (s : State) (x : Clock) (p q r : Nat) : (s.setClock x).rd p q r = s.rd p q r := rfl
@[simp] theorem State.rdN_setClock (s : State) (x : Clock) (p q r : Nat) : (s.setClock x).rdN p q r = s.rdN p q r := rfl
@[simp] theorem State.rdB_setClock (s : State) (x : Clock) (p q r : Nat) : (s.setClock x).rdB p q r = s.rdB p q r := rfl
@[simp] theorem State.chan_setClock (s : State) (x : Clock) (p : Nat) : (s.setClock x).chan p = s.chan p := rfl
@[simp] theorem State.unit_setClock (s : State) (x : Clock) (p q : Nat) : (s.setClock x).unit p q = s.unit p q := rfl
@[simp] theorem State.slot_setClock (s : State) (x : Clock) (p q : Nat) : (s.setClock x).slot p q = s.slot p q := rfl
@[simp] theorem State.eng_setClock (s : State) (x : Clock) (p q : Nat) : (s.setClock x).eng p q = s.eng p q := rfl
@[simp] theorem State.die_setClock (s : State) (x : Clock) (p : Nat) : (s.setClock x).die p = s.die p := rfl
@[simp] theorem State.desc_setClock (s : State) (x : Clock) (p q : Nat) : (s.setClock x).desc p q = s.desc p q := rfl
@[simp] theorem State.adc_setClock (s : State) (x : Clock) (p q : Nat) : (s.setClock x).adc p q = s.adc p q := rfl
@[simp] theorem State.win_setClock (s : State) (x : Clock) (p : Nat) : (s.setClock x).win p = s.win p := rfl
@[simp] theorem State.group_setClock (s : State) (x : Clock) (p : Nat) : (s.setClock x).group p = s.group p := rfl
@[simp] theorem State.drive_setClock (s : State) (x : Clock) (p : Nat) : (s.setClock x).drive p = s.drive p := rfl
@[simp] theorem State.axis_setClock (s : State) (x : Clock) (p : Nat) : (s.setClock x).axis p = s.axis p := rfl
@[simp] theorem State.port_setClock (s : State) (x : Clock) (p : Nat) : (s.setClock x).port p = s.port p := rfl
@[simp] theorem State.queue_setClock (s : State) (x : Clock) (p : Nat) : (s.setClock x).queue p = s.queue p := rfl
@[simp] theorem State.sitePop_setClock (s : State) (x : Clock) (p : Nat) : (s.setClock x).sitePop p = s.sitePop p := rfl
@[simp] theorem State.chanPop_setClock (s : State) (x : Clock) (p : Nat) : (s.setClock x).chanPop p = s.chanPop p := rfl
@[simp] theorem State.sites_setClock (s : State) (x : Clock) : (s.setClock x).sites = s.sites := rfl

/-! setPower -/

@[simp] theorem State.setPower_variant (s : State) (x : Power) : (s.setPower x).variant = s.variant := rfl
@[simp] theorem State.setPower_sealedPart (s : State) (x : Power) : (s.setPower x).sealedPart = s.sealedPart := rfl
@[simp] theorem State.setPower_vsys (s : State) (x : Power) : (s.setPower x).vsys = s.vsys := rfl
@[simp] theorem State.setPower_fw (s : State) (x : Power) : (s.setPower x).fw = s.fw := rfl
@[simp] theorem State.setPower_clock (s : State) (x : Power) : (s.setPower x).clock = s.clock := rfl
@[simp] theorem State.setPower_objs (s : State) (x : Power) : (s.setPower x).objs = s.objs := rfl
@[simp] theorem State.setPower_blobs (s : State) (x : Power) : (s.setPower x).blobs = s.blobs := rfl
@[simp] theorem State.setPower_flash (s : State) (x : Power) : (s.setPower x).flash = s.flash := rfl
@[simp] theorem State.setPower_flashBlobs (s : State) (x : Power) : (s.setPower x).flashBlobs = s.flashBlobs := rfl
@[simp] theorem State.setPower_chans (s : State) (x : Power) : (s.setPower x).chans = s.chans := rfl
@[simp] theorem State.setPower_units (s : State) (x : Power) : (s.setPower x).units = s.units := rfl
@[simp] theorem State.setPower_slots (s : State) (x : Power) : (s.setPower x).slots = s.slots := rfl
@[simp] theorem State.setPower_engines (s : State) (x : Power) : (s.setPower x).engines = s.engines := rfl
@[simp] theorem State.setPower_dies (s : State) (x : Power) : (s.setPower x).dies = s.dies := rfl
@[simp] theorem State.setPower_descs (s : State) (x : Power) : (s.setPower x).descs = s.descs := rfl
@[simp] theorem State.setPower_adcs (s : State) (x : Power) : (s.setPower x).adcs = s.adcs := rfl
@[simp] theorem State.setPower_wins (s : State) (x : Power) : (s.setPower x).wins = s.wins := rfl
@[simp] theorem State.setPower_queues (s : State) (x : Power) : (s.setPower x).queues = s.queues := rfl
@[simp] theorem State.setPower_groups (s : State) (x : Power) : (s.setPower x).groups = s.groups := rfl
@[simp] theorem State.setPower_bldc (s : State) (x : Power) : (s.setPower x).bldc = s.bldc := rfl
@[simp] theorem State.setPower_axes (s : State) (x : Power) : (s.setPower x).axes = s.axes := rfl
@[simp] theorem State.setPower_power (s : State) (x : Power) : (s.setPower x).power = x := rfl
@[simp] theorem State.setPower_sup (s : State) (x : Power) : (s.setPower x).sup = s.sup := rfl
@[simp] theorem State.setPower_lockbox (s : State) (x : Power) : (s.setPower x).lockbox = s.lockbox := rfl
@[simp] theorem State.setPower_qm (s : State) (x : Power) : (s.setPower x).qm = s.qm := rfl
@[simp] theorem State.setPower_net (s : State) (x : Power) : (s.setPower x).net = s.net := rfl
@[simp] theorem State.setPower_can (s : State) (x : Power) : (s.setPower x).can = s.can := rfl
@[simp] theorem State.setPower_sec (s : State) (x : Power) : (s.setPower x).sec = s.sec := rfl
@[simp] theorem State.setPower_trail (s : State) (x : Power) : (s.setPower x).trail = s.trail := rfl
@[simp] theorem State.setPower_standbyDue (s : State) (x : Power) : (s.setPower x).standbyDue = s.standbyDue := rfl
@[simp] theorem State.setPower_sleepLt (s : State) (x : Power) : (s.setPower x).sleepLt = s.sleepLt := rfl
@[simp] theorem State.setPower_metNote (s : State) (x : Power) : (s.setPower x).metNote = s.metNote := rfl
@[simp] theorem State.setPower_lastMet (s : State) (x : Power) : (s.setPower x).lastMet = s.lastMet := rfl
@[simp] theorem State.setPower_metSilent (s : State) (x : Power) : (s.setPower x).metSilent = s.metSilent := rfl
@[simp] theorem State.setPower_metView (s : State) (x : Power) : (s.setPower x).metView = s.metView := rfl
@[simp] theorem State.setPower_metViewAt (s : State) (x : Power) : (s.setPower x).metViewAt = s.metViewAt := rfl
@[simp] theorem State.setPower_tag (s : State) (x : Power) : (s.setPower x).tag = s.tag := rfl
@[simp] theorem State.setPower_sleepHash (s : State) (x : Power) : (s.setPower x).sleepHash = s.sleepHash := rfl
@[simp] theorem State.setPower_waking (s : State) (x : Power) : (s.setPower x).waking = s.waking := rfl
@[simp] theorem State.setPower_resetLt (s : State) (x : Power) : (s.setPower x).resetLt = s.resetLt := rfl
@[simp] theorem State.setPower_resetReq (s : State) (x : Power) : (s.setPower x).resetReq = s.resetReq := rfl
@[simp] theorem State.setPower_lane (s : State) (x : Power) : (s.setPower x).lane = s.lane := rfl
@[simp] theorem State.setPower_flight (s : State) (x : Power) : (s.setPower x).flight = s.flight := rfl
@[simp] theorem State.setPower_part (s : State) (x : Power) : (s.setPower x).part = s.part := rfl
@[simp] theorem State.setPower_banks (s : State) (x : Power) : (s.setPower x).banks = s.banks := rfl
@[simp] theorem State.setPower_hot (s : State) (x : Power) : (s.setPower x).hot = s.hot := rfl
@[simp] theorem State.setPower_free (s : State) (x : Power) : (s.setPower x).free = s.free := rfl
@[simp] theorem State.setPower_pending (s : State) (x : Power) : (s.setPower x).pending = s.pending := rfl

@[simp] theorem State.rd_setPower (s : State) (x : Power) (p q r : Nat) : (s.setPower x).rd p q r = s.rd p q r := rfl
@[simp] theorem State.rdN_setPower (s : State) (x : Power) (p q r : Nat) : (s.setPower x).rdN p q r = s.rdN p q r := rfl
@[simp] theorem State.rdB_setPower (s : State) (x : Power) (p q r : Nat) : (s.setPower x).rdB p q r = s.rdB p q r := rfl
@[simp] theorem State.chan_setPower (s : State) (x : Power) (p : Nat) : (s.setPower x).chan p = s.chan p := rfl
@[simp] theorem State.unit_setPower (s : State) (x : Power) (p q : Nat) : (s.setPower x).unit p q = s.unit p q := rfl
@[simp] theorem State.slot_setPower (s : State) (x : Power) (p q : Nat) : (s.setPower x).slot p q = s.slot p q := rfl
@[simp] theorem State.eng_setPower (s : State) (x : Power) (p q : Nat) : (s.setPower x).eng p q = s.eng p q := rfl
@[simp] theorem State.die_setPower (s : State) (x : Power) (p : Nat) : (s.setPower x).die p = s.die p := rfl
@[simp] theorem State.desc_setPower (s : State) (x : Power) (p q : Nat) : (s.setPower x).desc p q = s.desc p q := rfl
@[simp] theorem State.adc_setPower (s : State) (x : Power) (p q : Nat) : (s.setPower x).adc p q = s.adc p q := rfl
@[simp] theorem State.win_setPower (s : State) (x : Power) (p : Nat) : (s.setPower x).win p = s.win p := rfl
@[simp] theorem State.group_setPower (s : State) (x : Power) (p : Nat) : (s.setPower x).group p = s.group p := rfl
@[simp] theorem State.drive_setPower (s : State) (x : Power) (p : Nat) : (s.setPower x).drive p = s.drive p := rfl
@[simp] theorem State.axis_setPower (s : State) (x : Power) (p : Nat) : (s.setPower x).axis p = s.axis p := rfl
@[simp] theorem State.port_setPower (s : State) (x : Power) (p : Nat) : (s.setPower x).port p = s.port p := rfl
@[simp] theorem State.queue_setPower (s : State) (x : Power) (p : Nat) : (s.setPower x).queue p = s.queue p := rfl
@[simp] theorem State.lt_setPower (s : State) (x : Power) : (s.setPower x).lt = s.lt := rfl
@[simp] theorem State.sitePop_setPower (s : State) (x : Power) (p : Nat) : (s.setPower x).sitePop p = s.sitePop p := rfl
@[simp] theorem State.chanPop_setPower (s : State) (x : Power) (p : Nat) : (s.setPower x).chanPop p = s.chanPop p := rfl
@[simp] theorem State.sites_setPower (s : State) (x : Power) : (s.setPower x).sites = s.sites := rfl

/-! setSup -/

@[simp] theorem State.setSup_variant (s : State) (x : Super) : (s.setSup x).variant = s.variant := rfl
@[simp] theorem State.setSup_sealedPart (s : State) (x : Super) : (s.setSup x).sealedPart = s.sealedPart := rfl
@[simp] theorem State.setSup_vsys (s : State) (x : Super) : (s.setSup x).vsys = s.vsys := rfl
@[simp] theorem State.setSup_fw (s : State) (x : Super) : (s.setSup x).fw = s.fw := rfl
@[simp] theorem State.setSup_clock (s : State) (x : Super) : (s.setSup x).clock = s.clock := rfl
@[simp] theorem State.setSup_objs (s : State) (x : Super) : (s.setSup x).objs = s.objs := rfl
@[simp] theorem State.setSup_blobs (s : State) (x : Super) : (s.setSup x).blobs = s.blobs := rfl
@[simp] theorem State.setSup_flash (s : State) (x : Super) : (s.setSup x).flash = s.flash := rfl
@[simp] theorem State.setSup_flashBlobs (s : State) (x : Super) : (s.setSup x).flashBlobs = s.flashBlobs := rfl
@[simp] theorem State.setSup_chans (s : State) (x : Super) : (s.setSup x).chans = s.chans := rfl
@[simp] theorem State.setSup_units (s : State) (x : Super) : (s.setSup x).units = s.units := rfl
@[simp] theorem State.setSup_slots (s : State) (x : Super) : (s.setSup x).slots = s.slots := rfl
@[simp] theorem State.setSup_engines (s : State) (x : Super) : (s.setSup x).engines = s.engines := rfl
@[simp] theorem State.setSup_dies (s : State) (x : Super) : (s.setSup x).dies = s.dies := rfl
@[simp] theorem State.setSup_descs (s : State) (x : Super) : (s.setSup x).descs = s.descs := rfl
@[simp] theorem State.setSup_adcs (s : State) (x : Super) : (s.setSup x).adcs = s.adcs := rfl
@[simp] theorem State.setSup_wins (s : State) (x : Super) : (s.setSup x).wins = s.wins := rfl
@[simp] theorem State.setSup_queues (s : State) (x : Super) : (s.setSup x).queues = s.queues := rfl
@[simp] theorem State.setSup_groups (s : State) (x : Super) : (s.setSup x).groups = s.groups := rfl
@[simp] theorem State.setSup_bldc (s : State) (x : Super) : (s.setSup x).bldc = s.bldc := rfl
@[simp] theorem State.setSup_axes (s : State) (x : Super) : (s.setSup x).axes = s.axes := rfl
@[simp] theorem State.setSup_power (s : State) (x : Super) : (s.setSup x).power = s.power := rfl
@[simp] theorem State.setSup_sup (s : State) (x : Super) : (s.setSup x).sup = x := rfl
@[simp] theorem State.setSup_lockbox (s : State) (x : Super) : (s.setSup x).lockbox = s.lockbox := rfl
@[simp] theorem State.setSup_qm (s : State) (x : Super) : (s.setSup x).qm = s.qm := rfl
@[simp] theorem State.setSup_net (s : State) (x : Super) : (s.setSup x).net = s.net := rfl
@[simp] theorem State.setSup_can (s : State) (x : Super) : (s.setSup x).can = s.can := rfl
@[simp] theorem State.setSup_sec (s : State) (x : Super) : (s.setSup x).sec = s.sec := rfl
@[simp] theorem State.setSup_trail (s : State) (x : Super) : (s.setSup x).trail = s.trail := rfl
@[simp] theorem State.setSup_standbyDue (s : State) (x : Super) : (s.setSup x).standbyDue = s.standbyDue := rfl
@[simp] theorem State.setSup_sleepLt (s : State) (x : Super) : (s.setSup x).sleepLt = s.sleepLt := rfl
@[simp] theorem State.setSup_metNote (s : State) (x : Super) : (s.setSup x).metNote = s.metNote := rfl
@[simp] theorem State.setSup_lastMet (s : State) (x : Super) : (s.setSup x).lastMet = s.lastMet := rfl
@[simp] theorem State.setSup_metSilent (s : State) (x : Super) : (s.setSup x).metSilent = s.metSilent := rfl
@[simp] theorem State.setSup_metView (s : State) (x : Super) : (s.setSup x).metView = s.metView := rfl
@[simp] theorem State.setSup_metViewAt (s : State) (x : Super) : (s.setSup x).metViewAt = s.metViewAt := rfl
@[simp] theorem State.setSup_tag (s : State) (x : Super) : (s.setSup x).tag = s.tag := rfl
@[simp] theorem State.setSup_sleepHash (s : State) (x : Super) : (s.setSup x).sleepHash = s.sleepHash := rfl
@[simp] theorem State.setSup_waking (s : State) (x : Super) : (s.setSup x).waking = s.waking := rfl
@[simp] theorem State.setSup_resetLt (s : State) (x : Super) : (s.setSup x).resetLt = s.resetLt := rfl
@[simp] theorem State.setSup_resetReq (s : State) (x : Super) : (s.setSup x).resetReq = s.resetReq := rfl
@[simp] theorem State.setSup_lane (s : State) (x : Super) : (s.setSup x).lane = s.lane := rfl
@[simp] theorem State.setSup_flight (s : State) (x : Super) : (s.setSup x).flight = s.flight := rfl
@[simp] theorem State.setSup_part (s : State) (x : Super) : (s.setSup x).part = s.part := rfl
@[simp] theorem State.setSup_banks (s : State) (x : Super) : (s.setSup x).banks = s.banks := rfl
@[simp] theorem State.setSup_hot (s : State) (x : Super) : (s.setSup x).hot = s.hot := rfl
@[simp] theorem State.setSup_free (s : State) (x : Super) : (s.setSup x).free = s.free := rfl
@[simp] theorem State.setSup_pending (s : State) (x : Super) : (s.setSup x).pending = s.pending := rfl

@[simp] theorem State.rd_setSup (s : State) (x : Super) (p q r : Nat) : (s.setSup x).rd p q r = s.rd p q r := rfl
@[simp] theorem State.rdN_setSup (s : State) (x : Super) (p q r : Nat) : (s.setSup x).rdN p q r = s.rdN p q r := rfl
@[simp] theorem State.rdB_setSup (s : State) (x : Super) (p q r : Nat) : (s.setSup x).rdB p q r = s.rdB p q r := rfl
@[simp] theorem State.chan_setSup (s : State) (x : Super) (p : Nat) : (s.setSup x).chan p = s.chan p := rfl
@[simp] theorem State.unit_setSup (s : State) (x : Super) (p q : Nat) : (s.setSup x).unit p q = s.unit p q := rfl
@[simp] theorem State.slot_setSup (s : State) (x : Super) (p q : Nat) : (s.setSup x).slot p q = s.slot p q := rfl
@[simp] theorem State.eng_setSup (s : State) (x : Super) (p q : Nat) : (s.setSup x).eng p q = s.eng p q := rfl
@[simp] theorem State.die_setSup (s : State) (x : Super) (p : Nat) : (s.setSup x).die p = s.die p := rfl
@[simp] theorem State.desc_setSup (s : State) (x : Super) (p q : Nat) : (s.setSup x).desc p q = s.desc p q := rfl
@[simp] theorem State.adc_setSup (s : State) (x : Super) (p q : Nat) : (s.setSup x).adc p q = s.adc p q := rfl
@[simp] theorem State.win_setSup (s : State) (x : Super) (p : Nat) : (s.setSup x).win p = s.win p := rfl
@[simp] theorem State.group_setSup (s : State) (x : Super) (p : Nat) : (s.setSup x).group p = s.group p := rfl
@[simp] theorem State.drive_setSup (s : State) (x : Super) (p : Nat) : (s.setSup x).drive p = s.drive p := rfl
@[simp] theorem State.axis_setSup (s : State) (x : Super) (p : Nat) : (s.setSup x).axis p = s.axis p := rfl
@[simp] theorem State.port_setSup (s : State) (x : Super) (p : Nat) : (s.setSup x).port p = s.port p := rfl
@[simp] theorem State.queue_setSup (s : State) (x : Super) (p : Nat) : (s.setSup x).queue p = s.queue p := rfl
@[simp] theorem State.lt_setSup (s : State) (x : Super) : (s.setSup x).lt = s.lt := rfl
@[simp] theorem State.sitePop_setSup (s : State) (x : Super) (p : Nat) : (s.setSup x).sitePop p = s.sitePop p := rfl
@[simp] theorem State.chanPop_setSup (s : State) (x : Super) (p : Nat) : (s.setSup x).chanPop p = s.chanPop p := rfl
@[simp] theorem State.sites_setSup (s : State) (x : Super) : (s.setSup x).sites = s.sites := rfl

/-! setSec -/

@[simp] theorem State.setSec_variant (s : State) (x : Sec) : (s.setSec x).variant = s.variant := rfl
@[simp] theorem State.setSec_sealedPart (s : State) (x : Sec) : (s.setSec x).sealedPart = s.sealedPart := rfl
@[simp] theorem State.setSec_vsys (s : State) (x : Sec) : (s.setSec x).vsys = s.vsys := rfl
@[simp] theorem State.setSec_fw (s : State) (x : Sec) : (s.setSec x).fw = s.fw := rfl
@[simp] theorem State.setSec_clock (s : State) (x : Sec) : (s.setSec x).clock = s.clock := rfl
@[simp] theorem State.setSec_objs (s : State) (x : Sec) : (s.setSec x).objs = s.objs := rfl
@[simp] theorem State.setSec_blobs (s : State) (x : Sec) : (s.setSec x).blobs = s.blobs := rfl
@[simp] theorem State.setSec_flash (s : State) (x : Sec) : (s.setSec x).flash = s.flash := rfl
@[simp] theorem State.setSec_flashBlobs (s : State) (x : Sec) : (s.setSec x).flashBlobs = s.flashBlobs := rfl
@[simp] theorem State.setSec_chans (s : State) (x : Sec) : (s.setSec x).chans = s.chans := rfl
@[simp] theorem State.setSec_units (s : State) (x : Sec) : (s.setSec x).units = s.units := rfl
@[simp] theorem State.setSec_slots (s : State) (x : Sec) : (s.setSec x).slots = s.slots := rfl
@[simp] theorem State.setSec_engines (s : State) (x : Sec) : (s.setSec x).engines = s.engines := rfl
@[simp] theorem State.setSec_dies (s : State) (x : Sec) : (s.setSec x).dies = s.dies := rfl
@[simp] theorem State.setSec_descs (s : State) (x : Sec) : (s.setSec x).descs = s.descs := rfl
@[simp] theorem State.setSec_adcs (s : State) (x : Sec) : (s.setSec x).adcs = s.adcs := rfl
@[simp] theorem State.setSec_wins (s : State) (x : Sec) : (s.setSec x).wins = s.wins := rfl
@[simp] theorem State.setSec_queues (s : State) (x : Sec) : (s.setSec x).queues = s.queues := rfl
@[simp] theorem State.setSec_groups (s : State) (x : Sec) : (s.setSec x).groups = s.groups := rfl
@[simp] theorem State.setSec_bldc (s : State) (x : Sec) : (s.setSec x).bldc = s.bldc := rfl
@[simp] theorem State.setSec_axes (s : State) (x : Sec) : (s.setSec x).axes = s.axes := rfl
@[simp] theorem State.setSec_power (s : State) (x : Sec) : (s.setSec x).power = s.power := rfl
@[simp] theorem State.setSec_sup (s : State) (x : Sec) : (s.setSec x).sup = s.sup := rfl
@[simp] theorem State.setSec_lockbox (s : State) (x : Sec) : (s.setSec x).lockbox = s.lockbox := rfl
@[simp] theorem State.setSec_qm (s : State) (x : Sec) : (s.setSec x).qm = s.qm := rfl
@[simp] theorem State.setSec_net (s : State) (x : Sec) : (s.setSec x).net = s.net := rfl
@[simp] theorem State.setSec_can (s : State) (x : Sec) : (s.setSec x).can = s.can := rfl
@[simp] theorem State.setSec_sec (s : State) (x : Sec) : (s.setSec x).sec = x := rfl
@[simp] theorem State.setSec_trail (s : State) (x : Sec) : (s.setSec x).trail = s.trail := rfl
@[simp] theorem State.setSec_standbyDue (s : State) (x : Sec) : (s.setSec x).standbyDue = s.standbyDue := rfl
@[simp] theorem State.setSec_sleepLt (s : State) (x : Sec) : (s.setSec x).sleepLt = s.sleepLt := rfl
@[simp] theorem State.setSec_metNote (s : State) (x : Sec) : (s.setSec x).metNote = s.metNote := rfl
@[simp] theorem State.setSec_lastMet (s : State) (x : Sec) : (s.setSec x).lastMet = s.lastMet := rfl
@[simp] theorem State.setSec_metSilent (s : State) (x : Sec) : (s.setSec x).metSilent = s.metSilent := rfl
@[simp] theorem State.setSec_metView (s : State) (x : Sec) : (s.setSec x).metView = s.metView := rfl
@[simp] theorem State.setSec_metViewAt (s : State) (x : Sec) : (s.setSec x).metViewAt = s.metViewAt := rfl
@[simp] theorem State.setSec_tag (s : State) (x : Sec) : (s.setSec x).tag = s.tag := rfl
@[simp] theorem State.setSec_sleepHash (s : State) (x : Sec) : (s.setSec x).sleepHash = s.sleepHash := rfl
@[simp] theorem State.setSec_waking (s : State) (x : Sec) : (s.setSec x).waking = s.waking := rfl
@[simp] theorem State.setSec_resetLt (s : State) (x : Sec) : (s.setSec x).resetLt = s.resetLt := rfl
@[simp] theorem State.setSec_resetReq (s : State) (x : Sec) : (s.setSec x).resetReq = s.resetReq := rfl
@[simp] theorem State.setSec_lane (s : State) (x : Sec) : (s.setSec x).lane = s.lane := rfl
@[simp] theorem State.setSec_flight (s : State) (x : Sec) : (s.setSec x).flight = s.flight := rfl
@[simp] theorem State.setSec_part (s : State) (x : Sec) : (s.setSec x).part = s.part := rfl
@[simp] theorem State.setSec_banks (s : State) (x : Sec) : (s.setSec x).banks = s.banks := rfl
@[simp] theorem State.setSec_hot (s : State) (x : Sec) : (s.setSec x).hot = s.hot := rfl
@[simp] theorem State.setSec_free (s : State) (x : Sec) : (s.setSec x).free = s.free := rfl
@[simp] theorem State.setSec_pending (s : State) (x : Sec) : (s.setSec x).pending = s.pending := rfl

@[simp] theorem State.rd_setSec (s : State) (x : Sec) (p q r : Nat) : (s.setSec x).rd p q r = s.rd p q r := rfl
@[simp] theorem State.rdN_setSec (s : State) (x : Sec) (p q r : Nat) : (s.setSec x).rdN p q r = s.rdN p q r := rfl
@[simp] theorem State.rdB_setSec (s : State) (x : Sec) (p q r : Nat) : (s.setSec x).rdB p q r = s.rdB p q r := rfl
@[simp] theorem State.chan_setSec (s : State) (x : Sec) (p : Nat) : (s.setSec x).chan p = s.chan p := rfl
@[simp] theorem State.unit_setSec (s : State) (x : Sec) (p q : Nat) : (s.setSec x).unit p q = s.unit p q := rfl
@[simp] theorem State.slot_setSec (s : State) (x : Sec) (p q : Nat) : (s.setSec x).slot p q = s.slot p q := rfl
@[simp] theorem State.eng_setSec (s : State) (x : Sec) (p q : Nat) : (s.setSec x).eng p q = s.eng p q := rfl
@[simp] theorem State.die_setSec (s : State) (x : Sec) (p : Nat) : (s.setSec x).die p = s.die p := rfl
@[simp] theorem State.desc_setSec (s : State) (x : Sec) (p q : Nat) : (s.setSec x).desc p q = s.desc p q := rfl
@[simp] theorem State.adc_setSec (s : State) (x : Sec) (p q : Nat) : (s.setSec x).adc p q = s.adc p q := rfl
@[simp] theorem State.win_setSec (s : State) (x : Sec) (p : Nat) : (s.setSec x).win p = s.win p := rfl
@[simp] theorem State.group_setSec (s : State) (x : Sec) (p : Nat) : (s.setSec x).group p = s.group p := rfl
@[simp] theorem State.drive_setSec (s : State) (x : Sec) (p : Nat) : (s.setSec x).drive p = s.drive p := rfl
@[simp] theorem State.axis_setSec (s : State) (x : Sec) (p : Nat) : (s.setSec x).axis p = s.axis p := rfl
@[simp] theorem State.port_setSec (s : State) (x : Sec) (p : Nat) : (s.setSec x).port p = s.port p := rfl
@[simp] theorem State.queue_setSec (s : State) (x : Sec) (p : Nat) : (s.setSec x).queue p = s.queue p := rfl
@[simp] theorem State.lt_setSec (s : State) (x : Sec) : (s.setSec x).lt = s.lt := rfl
@[simp] theorem State.sitePop_setSec (s : State) (x : Sec) (p : Nat) : (s.setSec x).sitePop p = s.sitePop p := rfl
@[simp] theorem State.chanPop_setSec (s : State) (x : Sec) (p : Nat) : (s.setSec x).chanPop p = s.chanPop p := rfl
@[simp] theorem State.sites_setSec (s : State) (x : Sec) : (s.setSec x).sites = s.sites := rfl

/-! setLockbox -/

@[simp] theorem State.setLockbox_variant (s : State) (x : Lockbox) : (s.setLockbox x).variant = s.variant := rfl
@[simp] theorem State.setLockbox_sealedPart (s : State) (x : Lockbox) : (s.setLockbox x).sealedPart = s.sealedPart := rfl
@[simp] theorem State.setLockbox_vsys (s : State) (x : Lockbox) : (s.setLockbox x).vsys = s.vsys := rfl
@[simp] theorem State.setLockbox_fw (s : State) (x : Lockbox) : (s.setLockbox x).fw = s.fw := rfl
@[simp] theorem State.setLockbox_clock (s : State) (x : Lockbox) : (s.setLockbox x).clock = s.clock := rfl
@[simp] theorem State.setLockbox_objs (s : State) (x : Lockbox) : (s.setLockbox x).objs = s.objs := rfl
@[simp] theorem State.setLockbox_blobs (s : State) (x : Lockbox) : (s.setLockbox x).blobs = s.blobs := rfl
@[simp] theorem State.setLockbox_flash (s : State) (x : Lockbox) : (s.setLockbox x).flash = s.flash := rfl
@[simp] theorem State.setLockbox_flashBlobs (s : State) (x : Lockbox) : (s.setLockbox x).flashBlobs = s.flashBlobs := rfl
@[simp] theorem State.setLockbox_chans (s : State) (x : Lockbox) : (s.setLockbox x).chans = s.chans := rfl
@[simp] theorem State.setLockbox_units (s : State) (x : Lockbox) : (s.setLockbox x).units = s.units := rfl
@[simp] theorem State.setLockbox_slots (s : State) (x : Lockbox) : (s.setLockbox x).slots = s.slots := rfl
@[simp] theorem State.setLockbox_engines (s : State) (x : Lockbox) : (s.setLockbox x).engines = s.engines := rfl
@[simp] theorem State.setLockbox_dies (s : State) (x : Lockbox) : (s.setLockbox x).dies = s.dies := rfl
@[simp] theorem State.setLockbox_descs (s : State) (x : Lockbox) : (s.setLockbox x).descs = s.descs := rfl
@[simp] theorem State.setLockbox_adcs (s : State) (x : Lockbox) : (s.setLockbox x).adcs = s.adcs := rfl
@[simp] theorem State.setLockbox_wins (s : State) (x : Lockbox) : (s.setLockbox x).wins = s.wins := rfl
@[simp] theorem State.setLockbox_queues (s : State) (x : Lockbox) : (s.setLockbox x).queues = s.queues := rfl
@[simp] theorem State.setLockbox_groups (s : State) (x : Lockbox) : (s.setLockbox x).groups = s.groups := rfl
@[simp] theorem State.setLockbox_bldc (s : State) (x : Lockbox) : (s.setLockbox x).bldc = s.bldc := rfl
@[simp] theorem State.setLockbox_axes (s : State) (x : Lockbox) : (s.setLockbox x).axes = s.axes := rfl
@[simp] theorem State.setLockbox_power (s : State) (x : Lockbox) : (s.setLockbox x).power = s.power := rfl
@[simp] theorem State.setLockbox_sup (s : State) (x : Lockbox) : (s.setLockbox x).sup = s.sup := rfl
@[simp] theorem State.setLockbox_lockbox (s : State) (x : Lockbox) : (s.setLockbox x).lockbox = x := rfl
@[simp] theorem State.setLockbox_qm (s : State) (x : Lockbox) : (s.setLockbox x).qm = s.qm := rfl
@[simp] theorem State.setLockbox_net (s : State) (x : Lockbox) : (s.setLockbox x).net = s.net := rfl
@[simp] theorem State.setLockbox_can (s : State) (x : Lockbox) : (s.setLockbox x).can = s.can := rfl
@[simp] theorem State.setLockbox_sec (s : State) (x : Lockbox) : (s.setLockbox x).sec = s.sec := rfl
@[simp] theorem State.setLockbox_trail (s : State) (x : Lockbox) : (s.setLockbox x).trail = s.trail := rfl
@[simp] theorem State.setLockbox_standbyDue (s : State) (x : Lockbox) : (s.setLockbox x).standbyDue = s.standbyDue := rfl
@[simp] theorem State.setLockbox_sleepLt (s : State) (x : Lockbox) : (s.setLockbox x).sleepLt = s.sleepLt := rfl
@[simp] theorem State.setLockbox_metNote (s : State) (x : Lockbox) : (s.setLockbox x).metNote = s.metNote := rfl
@[simp] theorem State.setLockbox_lastMet (s : State) (x : Lockbox) : (s.setLockbox x).lastMet = s.lastMet := rfl
@[simp] theorem State.setLockbox_metSilent (s : State) (x : Lockbox) : (s.setLockbox x).metSilent = s.metSilent := rfl
@[simp] theorem State.setLockbox_metView (s : State) (x : Lockbox) : (s.setLockbox x).metView = s.metView := rfl
@[simp] theorem State.setLockbox_metViewAt (s : State) (x : Lockbox) : (s.setLockbox x).metViewAt = s.metViewAt := rfl
@[simp] theorem State.setLockbox_tag (s : State) (x : Lockbox) : (s.setLockbox x).tag = s.tag := rfl
@[simp] theorem State.setLockbox_sleepHash (s : State) (x : Lockbox) : (s.setLockbox x).sleepHash = s.sleepHash := rfl
@[simp] theorem State.setLockbox_waking (s : State) (x : Lockbox) : (s.setLockbox x).waking = s.waking := rfl
@[simp] theorem State.setLockbox_resetLt (s : State) (x : Lockbox) : (s.setLockbox x).resetLt = s.resetLt := rfl
@[simp] theorem State.setLockbox_resetReq (s : State) (x : Lockbox) : (s.setLockbox x).resetReq = s.resetReq := rfl
@[simp] theorem State.setLockbox_lane (s : State) (x : Lockbox) : (s.setLockbox x).lane = s.lane := rfl
@[simp] theorem State.setLockbox_flight (s : State) (x : Lockbox) : (s.setLockbox x).flight = s.flight := rfl
@[simp] theorem State.setLockbox_part (s : State) (x : Lockbox) : (s.setLockbox x).part = s.part := rfl
@[simp] theorem State.setLockbox_banks (s : State) (x : Lockbox) : (s.setLockbox x).banks = s.banks := rfl
@[simp] theorem State.setLockbox_hot (s : State) (x : Lockbox) : (s.setLockbox x).hot = s.hot := rfl
@[simp] theorem State.setLockbox_free (s : State) (x : Lockbox) : (s.setLockbox x).free = s.free := rfl
@[simp] theorem State.setLockbox_pending (s : State) (x : Lockbox) : (s.setLockbox x).pending = s.pending := rfl

@[simp] theorem State.rd_setLockbox (s : State) (x : Lockbox) (p q r : Nat) : (s.setLockbox x).rd p q r = s.rd p q r := rfl
@[simp] theorem State.rdN_setLockbox (s : State) (x : Lockbox) (p q r : Nat) : (s.setLockbox x).rdN p q r = s.rdN p q r := rfl
@[simp] theorem State.rdB_setLockbox (s : State) (x : Lockbox) (p q r : Nat) : (s.setLockbox x).rdB p q r = s.rdB p q r := rfl
@[simp] theorem State.chan_setLockbox (s : State) (x : Lockbox) (p : Nat) : (s.setLockbox x).chan p = s.chan p := rfl
@[simp] theorem State.unit_setLockbox (s : State) (x : Lockbox) (p q : Nat) : (s.setLockbox x).unit p q = s.unit p q := rfl
@[simp] theorem State.slot_setLockbox (s : State) (x : Lockbox) (p q : Nat) : (s.setLockbox x).slot p q = s.slot p q := rfl
@[simp] theorem State.eng_setLockbox (s : State) (x : Lockbox) (p q : Nat) : (s.setLockbox x).eng p q = s.eng p q := rfl
@[simp] theorem State.die_setLockbox (s : State) (x : Lockbox) (p : Nat) : (s.setLockbox x).die p = s.die p := rfl
@[simp] theorem State.desc_setLockbox (s : State) (x : Lockbox) (p q : Nat) : (s.setLockbox x).desc p q = s.desc p q := rfl
@[simp] theorem State.adc_setLockbox (s : State) (x : Lockbox) (p q : Nat) : (s.setLockbox x).adc p q = s.adc p q := rfl
@[simp] theorem State.win_setLockbox (s : State) (x : Lockbox) (p : Nat) : (s.setLockbox x).win p = s.win p := rfl
@[simp] theorem State.group_setLockbox (s : State) (x : Lockbox) (p : Nat) : (s.setLockbox x).group p = s.group p := rfl
@[simp] theorem State.drive_setLockbox (s : State) (x : Lockbox) (p : Nat) : (s.setLockbox x).drive p = s.drive p := rfl
@[simp] theorem State.axis_setLockbox (s : State) (x : Lockbox) (p : Nat) : (s.setLockbox x).axis p = s.axis p := rfl
@[simp] theorem State.port_setLockbox (s : State) (x : Lockbox) (p : Nat) : (s.setLockbox x).port p = s.port p := rfl
@[simp] theorem State.queue_setLockbox (s : State) (x : Lockbox) (p : Nat) : (s.setLockbox x).queue p = s.queue p := rfl
@[simp] theorem State.lt_setLockbox (s : State) (x : Lockbox) : (s.setLockbox x).lt = s.lt := rfl
@[simp] theorem State.sitePop_setLockbox (s : State) (x : Lockbox) (p : Nat) : (s.setLockbox x).sitePop p = s.sitePop p := rfl
@[simp] theorem State.chanPop_setLockbox (s : State) (x : Lockbox) (p : Nat) : (s.setLockbox x).chanPop p = s.chanPop p := rfl
@[simp] theorem State.sites_setLockbox (s : State) (x : Lockbox) : (s.setLockbox x).sites = s.sites := rfl

/-! onQm -/

@[simp] theorem State.onQm_variant (s : State) (f : Qm → Qm) : (s.onQm f).variant = s.variant := rfl
@[simp] theorem State.onQm_sealedPart (s : State) (f : Qm → Qm) : (s.onQm f).sealedPart = s.sealedPart := rfl
@[simp] theorem State.onQm_vsys (s : State) (f : Qm → Qm) : (s.onQm f).vsys = s.vsys := rfl
@[simp] theorem State.onQm_fw (s : State) (f : Qm → Qm) : (s.onQm f).fw = s.fw := rfl
@[simp] theorem State.onQm_clock (s : State) (f : Qm → Qm) : (s.onQm f).clock = s.clock := rfl
@[simp] theorem State.onQm_objs (s : State) (f : Qm → Qm) : (s.onQm f).objs = s.objs := rfl
@[simp] theorem State.onQm_blobs (s : State) (f : Qm → Qm) : (s.onQm f).blobs = s.blobs := rfl
@[simp] theorem State.onQm_flash (s : State) (f : Qm → Qm) : (s.onQm f).flash = s.flash := rfl
@[simp] theorem State.onQm_flashBlobs (s : State) (f : Qm → Qm) : (s.onQm f).flashBlobs = s.flashBlobs := rfl
@[simp] theorem State.onQm_chans (s : State) (f : Qm → Qm) : (s.onQm f).chans = s.chans := rfl
@[simp] theorem State.onQm_units (s : State) (f : Qm → Qm) : (s.onQm f).units = s.units := rfl
@[simp] theorem State.onQm_slots (s : State) (f : Qm → Qm) : (s.onQm f).slots = s.slots := rfl
@[simp] theorem State.onQm_engines (s : State) (f : Qm → Qm) : (s.onQm f).engines = s.engines := rfl
@[simp] theorem State.onQm_dies (s : State) (f : Qm → Qm) : (s.onQm f).dies = s.dies := rfl
@[simp] theorem State.onQm_descs (s : State) (f : Qm → Qm) : (s.onQm f).descs = s.descs := rfl
@[simp] theorem State.onQm_adcs (s : State) (f : Qm → Qm) : (s.onQm f).adcs = s.adcs := rfl
@[simp] theorem State.onQm_wins (s : State) (f : Qm → Qm) : (s.onQm f).wins = s.wins := rfl
@[simp] theorem State.onQm_queues (s : State) (f : Qm → Qm) : (s.onQm f).queues = s.queues := rfl
@[simp] theorem State.onQm_groups (s : State) (f : Qm → Qm) : (s.onQm f).groups = s.groups := rfl
@[simp] theorem State.onQm_bldc (s : State) (f : Qm → Qm) : (s.onQm f).bldc = s.bldc := rfl
@[simp] theorem State.onQm_axes (s : State) (f : Qm → Qm) : (s.onQm f).axes = s.axes := rfl
@[simp] theorem State.onQm_power (s : State) (f : Qm → Qm) : (s.onQm f).power = s.power := rfl
@[simp] theorem State.onQm_sup (s : State) (f : Qm → Qm) : (s.onQm f).sup = s.sup := rfl
@[simp] theorem State.onQm_lockbox (s : State) (f : Qm → Qm) : (s.onQm f).lockbox = s.lockbox := rfl
@[simp] theorem State.onQm_qm (s : State) (f : Qm → Qm) : (s.onQm f).qm = f s.qm := rfl
@[simp] theorem State.onQm_net (s : State) (f : Qm → Qm) : (s.onQm f).net = s.net := rfl
@[simp] theorem State.onQm_can (s : State) (f : Qm → Qm) : (s.onQm f).can = s.can := rfl
@[simp] theorem State.onQm_sec (s : State) (f : Qm → Qm) : (s.onQm f).sec = s.sec := rfl
@[simp] theorem State.onQm_trail (s : State) (f : Qm → Qm) : (s.onQm f).trail = s.trail := rfl
@[simp] theorem State.onQm_standbyDue (s : State) (f : Qm → Qm) : (s.onQm f).standbyDue = s.standbyDue := rfl
@[simp] theorem State.onQm_sleepLt (s : State) (f : Qm → Qm) : (s.onQm f).sleepLt = s.sleepLt := rfl
@[simp] theorem State.onQm_metNote (s : State) (f : Qm → Qm) : (s.onQm f).metNote = s.metNote := rfl
@[simp] theorem State.onQm_lastMet (s : State) (f : Qm → Qm) : (s.onQm f).lastMet = s.lastMet := rfl
@[simp] theorem State.onQm_metSilent (s : State) (f : Qm → Qm) : (s.onQm f).metSilent = s.metSilent := rfl
@[simp] theorem State.onQm_metView (s : State) (f : Qm → Qm) : (s.onQm f).metView = s.metView := rfl
@[simp] theorem State.onQm_metViewAt (s : State) (f : Qm → Qm) : (s.onQm f).metViewAt = s.metViewAt := rfl
@[simp] theorem State.onQm_tag (s : State) (f : Qm → Qm) : (s.onQm f).tag = s.tag := rfl
@[simp] theorem State.onQm_sleepHash (s : State) (f : Qm → Qm) : (s.onQm f).sleepHash = s.sleepHash := rfl
@[simp] theorem State.onQm_waking (s : State) (f : Qm → Qm) : (s.onQm f).waking = s.waking := rfl
@[simp] theorem State.onQm_resetLt (s : State) (f : Qm → Qm) : (s.onQm f).resetLt = s.resetLt := rfl
@[simp] theorem State.onQm_resetReq (s : State) (f : Qm → Qm) : (s.onQm f).resetReq = s.resetReq := rfl
@[simp] theorem State.onQm_lane (s : State) (f : Qm → Qm) : (s.onQm f).lane = s.lane := rfl
@[simp] theorem State.onQm_flight (s : State) (f : Qm → Qm) : (s.onQm f).flight = s.flight := rfl
@[simp] theorem State.onQm_part (s : State) (f : Qm → Qm) : (s.onQm f).part = s.part := rfl
@[simp] theorem State.onQm_banks (s : State) (f : Qm → Qm) : (s.onQm f).banks = s.banks := rfl
@[simp] theorem State.onQm_hot (s : State) (f : Qm → Qm) : (s.onQm f).hot = s.hot := rfl
@[simp] theorem State.onQm_free (s : State) (f : Qm → Qm) : (s.onQm f).free = s.free := rfl
@[simp] theorem State.onQm_pending (s : State) (f : Qm → Qm) : (s.onQm f).pending = s.pending := rfl

@[simp] theorem State.rd_onQm (s : State) (f : Qm → Qm) (p q r : Nat) : (s.onQm f).rd p q r = s.rd p q r := rfl
@[simp] theorem State.rdN_onQm (s : State) (f : Qm → Qm) (p q r : Nat) : (s.onQm f).rdN p q r = s.rdN p q r := rfl
@[simp] theorem State.rdB_onQm (s : State) (f : Qm → Qm) (p q r : Nat) : (s.onQm f).rdB p q r = s.rdB p q r := rfl
@[simp] theorem State.chan_onQm (s : State) (f : Qm → Qm) (p : Nat) : (s.onQm f).chan p = s.chan p := rfl
@[simp] theorem State.unit_onQm (s : State) (f : Qm → Qm) (p q : Nat) : (s.onQm f).unit p q = s.unit p q := rfl
@[simp] theorem State.slot_onQm (s : State) (f : Qm → Qm) (p q : Nat) : (s.onQm f).slot p q = s.slot p q := rfl
@[simp] theorem State.eng_onQm (s : State) (f : Qm → Qm) (p q : Nat) : (s.onQm f).eng p q = s.eng p q := rfl
@[simp] theorem State.die_onQm (s : State) (f : Qm → Qm) (p : Nat) : (s.onQm f).die p = s.die p := rfl
@[simp] theorem State.desc_onQm (s : State) (f : Qm → Qm) (p q : Nat) : (s.onQm f).desc p q = s.desc p q := rfl
@[simp] theorem State.adc_onQm (s : State) (f : Qm → Qm) (p q : Nat) : (s.onQm f).adc p q = s.adc p q := rfl
@[simp] theorem State.win_onQm (s : State) (f : Qm → Qm) (p : Nat) : (s.onQm f).win p = s.win p := rfl
@[simp] theorem State.group_onQm (s : State) (f : Qm → Qm) (p : Nat) : (s.onQm f).group p = s.group p := rfl
@[simp] theorem State.drive_onQm (s : State) (f : Qm → Qm) (p : Nat) : (s.onQm f).drive p = s.drive p := rfl
@[simp] theorem State.axis_onQm (s : State) (f : Qm → Qm) (p : Nat) : (s.onQm f).axis p = s.axis p := rfl
@[simp] theorem State.port_onQm (s : State) (f : Qm → Qm) (p : Nat) : (s.onQm f).port p = s.port p := rfl
@[simp] theorem State.queue_onQm (s : State) (f : Qm → Qm) (p : Nat) : (s.onQm f).queue p = s.queue p := rfl
@[simp] theorem State.lt_onQm (s : State) (f : Qm → Qm) : (s.onQm f).lt = s.lt := rfl
@[simp] theorem State.sitePop_onQm (s : State) (f : Qm → Qm) (p : Nat) : (s.onQm f).sitePop p = s.sitePop p := rfl
@[simp] theorem State.chanPop_onQm (s : State) (f : Qm → Qm) (p : Nat) : (s.onQm f).chanPop p = s.chanPop p := rfl
@[simp] theorem State.sites_onQm (s : State) (f : Qm → Qm) : (s.onQm f).sites = s.sites := rfl

/-! clearOut -/

@[simp] theorem State.clearOut_variant (s : State) : (s.clearOut).variant = s.variant := rfl
@[simp] theorem State.clearOut_sealedPart (s : State) : (s.clearOut).sealedPart = s.sealedPart := rfl
@[simp] theorem State.clearOut_vsys (s : State) : (s.clearOut).vsys = s.vsys := rfl
@[simp] theorem State.clearOut_fw (s : State) : (s.clearOut).fw = s.fw := rfl
@[simp] theorem State.clearOut_clock (s : State) : (s.clearOut).clock = s.clock := rfl
@[simp] theorem State.clearOut_objs (s : State) : (s.clearOut).objs = s.objs := rfl
@[simp] theorem State.clearOut_blobs (s : State) : (s.clearOut).blobs = s.blobs := rfl
@[simp] theorem State.clearOut_flash (s : State) : (s.clearOut).flash = s.flash := rfl
@[simp] theorem State.clearOut_flashBlobs (s : State) : (s.clearOut).flashBlobs = s.flashBlobs := rfl
@[simp] theorem State.clearOut_chans (s : State) : (s.clearOut).chans = s.chans := rfl
@[simp] theorem State.clearOut_units (s : State) : (s.clearOut).units = s.units := rfl
@[simp] theorem State.clearOut_slots (s : State) : (s.clearOut).slots = s.slots := rfl
@[simp] theorem State.clearOut_engines (s : State) : (s.clearOut).engines = s.engines := rfl
@[simp] theorem State.clearOut_dies (s : State) : (s.clearOut).dies = s.dies := rfl
@[simp] theorem State.clearOut_descs (s : State) : (s.clearOut).descs = s.descs := rfl
@[simp] theorem State.clearOut_adcs (s : State) : (s.clearOut).adcs = s.adcs := rfl
@[simp] theorem State.clearOut_wins (s : State) : (s.clearOut).wins = s.wins := rfl
@[simp] theorem State.clearOut_queues (s : State) : (s.clearOut).queues = s.queues := rfl
@[simp] theorem State.clearOut_groups (s : State) : (s.clearOut).groups = s.groups := rfl
@[simp] theorem State.clearOut_bldc (s : State) : (s.clearOut).bldc = s.bldc := rfl
@[simp] theorem State.clearOut_axes (s : State) : (s.clearOut).axes = s.axes := rfl
@[simp] theorem State.clearOut_power (s : State) : (s.clearOut).power = s.power := rfl
@[simp] theorem State.clearOut_sup (s : State) : (s.clearOut).sup = s.sup := rfl
@[simp] theorem State.clearOut_lockbox (s : State) : (s.clearOut).lockbox = s.lockbox := rfl
@[simp] theorem State.clearOut_qm (s : State) : (s.clearOut).qm = s.qm := rfl
@[simp] theorem State.clearOut_net (s : State) : (s.clearOut).net = { s.net with out := [] } := rfl
@[simp] theorem State.clearOut_can (s : State) : (s.clearOut).can = s.can := rfl
@[simp] theorem State.clearOut_sec (s : State) : (s.clearOut).sec = s.sec := rfl
@[simp] theorem State.clearOut_trail (s : State) : (s.clearOut).trail = s.trail := rfl
@[simp] theorem State.clearOut_standbyDue (s : State) : (s.clearOut).standbyDue = s.standbyDue := rfl
@[simp] theorem State.clearOut_sleepLt (s : State) : (s.clearOut).sleepLt = s.sleepLt := rfl
@[simp] theorem State.clearOut_metNote (s : State) : (s.clearOut).metNote = s.metNote := rfl
@[simp] theorem State.clearOut_lastMet (s : State) : (s.clearOut).lastMet = s.lastMet := rfl
@[simp] theorem State.clearOut_metSilent (s : State) : (s.clearOut).metSilent = s.metSilent := rfl
@[simp] theorem State.clearOut_metView (s : State) : (s.clearOut).metView = s.metView := rfl
@[simp] theorem State.clearOut_metViewAt (s : State) : (s.clearOut).metViewAt = s.metViewAt := rfl
@[simp] theorem State.clearOut_tag (s : State) : (s.clearOut).tag = s.tag := rfl
@[simp] theorem State.clearOut_sleepHash (s : State) : (s.clearOut).sleepHash = s.sleepHash := rfl
@[simp] theorem State.clearOut_waking (s : State) : (s.clearOut).waking = s.waking := rfl
@[simp] theorem State.clearOut_resetLt (s : State) : (s.clearOut).resetLt = s.resetLt := rfl
@[simp] theorem State.clearOut_resetReq (s : State) : (s.clearOut).resetReq = s.resetReq := rfl
@[simp] theorem State.clearOut_lane (s : State) : (s.clearOut).lane = s.lane := rfl
@[simp] theorem State.clearOut_flight (s : State) : (s.clearOut).flight = s.flight := rfl
@[simp] theorem State.clearOut_part (s : State) : (s.clearOut).part = s.part := rfl
@[simp] theorem State.clearOut_banks (s : State) : (s.clearOut).banks = s.banks := rfl
@[simp] theorem State.clearOut_hot (s : State) : (s.clearOut).hot = s.hot := rfl
@[simp] theorem State.clearOut_free (s : State) : (s.clearOut).free = s.free := rfl
@[simp] theorem State.clearOut_pending (s : State) : (s.clearOut).pending = s.pending := rfl

@[simp] theorem State.rd_clearOut (s : State) (p q r : Nat) : (s.clearOut).rd p q r = s.rd p q r := rfl
@[simp] theorem State.rdN_clearOut (s : State) (p q r : Nat) : (s.clearOut).rdN p q r = s.rdN p q r := rfl
@[simp] theorem State.rdB_clearOut (s : State) (p q r : Nat) : (s.clearOut).rdB p q r = s.rdB p q r := rfl
@[simp] theorem State.chan_clearOut (s : State) (p : Nat) : (s.clearOut).chan p = s.chan p := rfl
@[simp] theorem State.unit_clearOut (s : State) (p q : Nat) : (s.clearOut).unit p q = s.unit p q := rfl
@[simp] theorem State.slot_clearOut (s : State) (p q : Nat) : (s.clearOut).slot p q = s.slot p q := rfl
@[simp] theorem State.eng_clearOut (s : State) (p q : Nat) : (s.clearOut).eng p q = s.eng p q := rfl
@[simp] theorem State.die_clearOut (s : State) (p : Nat) : (s.clearOut).die p = s.die p := rfl
@[simp] theorem State.desc_clearOut (s : State) (p q : Nat) : (s.clearOut).desc p q = s.desc p q := rfl
@[simp] theorem State.adc_clearOut (s : State) (p q : Nat) : (s.clearOut).adc p q = s.adc p q := rfl
@[simp] theorem State.win_clearOut (s : State) (p : Nat) : (s.clearOut).win p = s.win p := rfl
@[simp] theorem State.group_clearOut (s : State) (p : Nat) : (s.clearOut).group p = s.group p := rfl
@[simp] theorem State.drive_clearOut (s : State) (p : Nat) : (s.clearOut).drive p = s.drive p := rfl
@[simp] theorem State.axis_clearOut (s : State) (p : Nat) : (s.clearOut).axis p = s.axis p := rfl
@[simp] theorem State.port_clearOut (s : State) (p : Nat) : (s.clearOut).port p = s.port p := rfl
@[simp] theorem State.queue_clearOut (s : State) (p : Nat) : (s.clearOut).queue p = s.queue p := rfl
@[simp] theorem State.lt_clearOut (s : State) : (s.clearOut).lt = s.lt := rfl
@[simp] theorem State.sitePop_clearOut (s : State) (p : Nat) : (s.clearOut).sitePop p = s.sitePop p := rfl
@[simp] theorem State.chanPop_clearOut (s : State) (p : Nat) : (s.clearOut).chanPop p = s.chanPop p := rfl
@[simp] theorem State.sites_clearOut (s : State) : (s.clearOut).sites = s.sites := rfl

/-! setSession -/

@[simp] theorem State.setSession_variant (s : State) (x : Session) : (s.setSession x).variant = s.variant := rfl
@[simp] theorem State.setSession_sealedPart (s : State) (x : Session) : (s.setSession x).sealedPart = s.sealedPart := rfl
@[simp] theorem State.setSession_vsys (s : State) (x : Session) : (s.setSession x).vsys = s.vsys := rfl
@[simp] theorem State.setSession_fw (s : State) (x : Session) : (s.setSession x).fw = s.fw := rfl
@[simp] theorem State.setSession_clock (s : State) (x : Session) : (s.setSession x).clock = s.clock := rfl
@[simp] theorem State.setSession_objs (s : State) (x : Session) : (s.setSession x).objs = s.objs := rfl
@[simp] theorem State.setSession_blobs (s : State) (x : Session) : (s.setSession x).blobs = s.blobs := rfl
@[simp] theorem State.setSession_flash (s : State) (x : Session) : (s.setSession x).flash = s.flash := rfl
@[simp] theorem State.setSession_flashBlobs (s : State) (x : Session) : (s.setSession x).flashBlobs = s.flashBlobs := rfl
@[simp] theorem State.setSession_chans (s : State) (x : Session) : (s.setSession x).chans = s.chans := rfl
@[simp] theorem State.setSession_units (s : State) (x : Session) : (s.setSession x).units = s.units := rfl
@[simp] theorem State.setSession_slots (s : State) (x : Session) : (s.setSession x).slots = s.slots := rfl
@[simp] theorem State.setSession_engines (s : State) (x : Session) : (s.setSession x).engines = s.engines := rfl
@[simp] theorem State.setSession_dies (s : State) (x : Session) : (s.setSession x).dies = s.dies := rfl
@[simp] theorem State.setSession_descs (s : State) (x : Session) : (s.setSession x).descs = s.descs := rfl
@[simp] theorem State.setSession_adcs (s : State) (x : Session) : (s.setSession x).adcs = s.adcs := rfl
@[simp] theorem State.setSession_wins (s : State) (x : Session) : (s.setSession x).wins = s.wins := rfl
@[simp] theorem State.setSession_queues (s : State) (x : Session) : (s.setSession x).queues = s.queues := rfl
@[simp] theorem State.setSession_groups (s : State) (x : Session) : (s.setSession x).groups = s.groups := rfl
@[simp] theorem State.setSession_bldc (s : State) (x : Session) : (s.setSession x).bldc = s.bldc := rfl
@[simp] theorem State.setSession_axes (s : State) (x : Session) : (s.setSession x).axes = s.axes := rfl
@[simp] theorem State.setSession_power (s : State) (x : Session) : (s.setSession x).power = s.power := rfl
@[simp] theorem State.setSession_sup (s : State) (x : Session) : (s.setSession x).sup = s.sup := rfl
@[simp] theorem State.setSession_lockbox (s : State) (x : Session) : (s.setSession x).lockbox = s.lockbox := rfl
@[simp] theorem State.setSession_qm (s : State) (x : Session) : (s.setSession x).qm = s.qm := rfl
@[simp] theorem State.setSession_net (s : State) (x : Session) : (s.setSession x).net = { s.net with sessions := s.net.sessions.map fun y => if y.id = x.id then x else y } := rfl
@[simp] theorem State.setSession_can (s : State) (x : Session) : (s.setSession x).can = s.can := rfl
@[simp] theorem State.setSession_sec (s : State) (x : Session) : (s.setSession x).sec = s.sec := rfl
@[simp] theorem State.setSession_trail (s : State) (x : Session) : (s.setSession x).trail = s.trail := rfl
@[simp] theorem State.setSession_standbyDue (s : State) (x : Session) : (s.setSession x).standbyDue = s.standbyDue := rfl
@[simp] theorem State.setSession_sleepLt (s : State) (x : Session) : (s.setSession x).sleepLt = s.sleepLt := rfl
@[simp] theorem State.setSession_metNote (s : State) (x : Session) : (s.setSession x).metNote = s.metNote := rfl
@[simp] theorem State.setSession_lastMet (s : State) (x : Session) : (s.setSession x).lastMet = s.lastMet := rfl
@[simp] theorem State.setSession_metSilent (s : State) (x : Session) : (s.setSession x).metSilent = s.metSilent := rfl
@[simp] theorem State.setSession_metView (s : State) (x : Session) : (s.setSession x).metView = s.metView := rfl
@[simp] theorem State.setSession_metViewAt (s : State) (x : Session) : (s.setSession x).metViewAt = s.metViewAt := rfl
@[simp] theorem State.setSession_tag (s : State) (x : Session) : (s.setSession x).tag = s.tag := rfl
@[simp] theorem State.setSession_sleepHash (s : State) (x : Session) : (s.setSession x).sleepHash = s.sleepHash := rfl
@[simp] theorem State.setSession_waking (s : State) (x : Session) : (s.setSession x).waking = s.waking := rfl
@[simp] theorem State.setSession_resetLt (s : State) (x : Session) : (s.setSession x).resetLt = s.resetLt := rfl
@[simp] theorem State.setSession_resetReq (s : State) (x : Session) : (s.setSession x).resetReq = s.resetReq := rfl
@[simp] theorem State.setSession_lane (s : State) (x : Session) : (s.setSession x).lane = s.lane := rfl
@[simp] theorem State.setSession_flight (s : State) (x : Session) : (s.setSession x).flight = s.flight := rfl
@[simp] theorem State.setSession_part (s : State) (x : Session) : (s.setSession x).part = s.part := rfl
@[simp] theorem State.setSession_banks (s : State) (x : Session) : (s.setSession x).banks = s.banks := rfl
@[simp] theorem State.setSession_hot (s : State) (x : Session) : (s.setSession x).hot = s.hot := rfl
@[simp] theorem State.setSession_free (s : State) (x : Session) : (s.setSession x).free = s.free := rfl
@[simp] theorem State.setSession_pending (s : State) (x : Session) : (s.setSession x).pending = s.pending := rfl

@[simp] theorem State.rd_setSession (s : State) (x : Session) (p q r : Nat) : (s.setSession x).rd p q r = s.rd p q r := rfl
@[simp] theorem State.rdN_setSession (s : State) (x : Session) (p q r : Nat) : (s.setSession x).rdN p q r = s.rdN p q r := rfl
@[simp] theorem State.rdB_setSession (s : State) (x : Session) (p q r : Nat) : (s.setSession x).rdB p q r = s.rdB p q r := rfl
@[simp] theorem State.chan_setSession (s : State) (x : Session) (p : Nat) : (s.setSession x).chan p = s.chan p := rfl
@[simp] theorem State.unit_setSession (s : State) (x : Session) (p q : Nat) : (s.setSession x).unit p q = s.unit p q := rfl
@[simp] theorem State.slot_setSession (s : State) (x : Session) (p q : Nat) : (s.setSession x).slot p q = s.slot p q := rfl
@[simp] theorem State.eng_setSession (s : State) (x : Session) (p q : Nat) : (s.setSession x).eng p q = s.eng p q := rfl
@[simp] theorem State.die_setSession (s : State) (x : Session) (p : Nat) : (s.setSession x).die p = s.die p := rfl
@[simp] theorem State.desc_setSession (s : State) (x : Session) (p q : Nat) : (s.setSession x).desc p q = s.desc p q := rfl
@[simp] theorem State.adc_setSession (s : State) (x : Session) (p q : Nat) : (s.setSession x).adc p q = s.adc p q := rfl
@[simp] theorem State.win_setSession (s : State) (x : Session) (p : Nat) : (s.setSession x).win p = s.win p := rfl
@[simp] theorem State.group_setSession (s : State) (x : Session) (p : Nat) : (s.setSession x).group p = s.group p := rfl
@[simp] theorem State.drive_setSession (s : State) (x : Session) (p : Nat) : (s.setSession x).drive p = s.drive p := rfl
@[simp] theorem State.axis_setSession (s : State) (x : Session) (p : Nat) : (s.setSession x).axis p = s.axis p := rfl
@[simp] theorem State.port_setSession (s : State) (x : Session) (p : Nat) : (s.setSession x).port p = s.port p := rfl
@[simp] theorem State.queue_setSession (s : State) (x : Session) (p : Nat) : (s.setSession x).queue p = s.queue p := rfl
@[simp] theorem State.lt_setSession (s : State) (x : Session) : (s.setSession x).lt = s.lt := rfl
@[simp] theorem State.sitePop_setSession (s : State) (x : Session) (p : Nat) : (s.setSession x).sitePop p = s.sitePop p := rfl
@[simp] theorem State.chanPop_setSession (s : State) (x : Session) (p : Nat) : (s.setSession x).chanPop p = s.chanPop p := rfl
@[simp] theorem State.sites_setSession (s : State) (x : Session) : (s.setSession x).sites = s.sites := rfl

/-! openCorr -/

@[simp] theorem State.openCorr_variant (s : State) (n : Nat) : (s.openCorr n).variant = s.variant := rfl
@[simp] theorem State.openCorr_sealedPart (s : State) (n : Nat) : (s.openCorr n).sealedPart = s.sealedPart := rfl
@[simp] theorem State.openCorr_vsys (s : State) (n : Nat) : (s.openCorr n).vsys = s.vsys := rfl
@[simp] theorem State.openCorr_fw (s : State) (n : Nat) : (s.openCorr n).fw = s.fw := rfl
@[simp] theorem State.openCorr_clock (s : State) (n : Nat) : (s.openCorr n).clock = s.clock := rfl
@[simp] theorem State.openCorr_objs (s : State) (n : Nat) : (s.openCorr n).objs = s.objs := rfl
@[simp] theorem State.openCorr_blobs (s : State) (n : Nat) : (s.openCorr n).blobs = s.blobs := rfl
@[simp] theorem State.openCorr_flash (s : State) (n : Nat) : (s.openCorr n).flash = s.flash := rfl
@[simp] theorem State.openCorr_flashBlobs (s : State) (n : Nat) : (s.openCorr n).flashBlobs = s.flashBlobs := rfl
@[simp] theorem State.openCorr_chans (s : State) (n : Nat) : (s.openCorr n).chans = s.chans := rfl
@[simp] theorem State.openCorr_units (s : State) (n : Nat) : (s.openCorr n).units = s.units := rfl
@[simp] theorem State.openCorr_slots (s : State) (n : Nat) : (s.openCorr n).slots = s.slots := rfl
@[simp] theorem State.openCorr_engines (s : State) (n : Nat) : (s.openCorr n).engines = s.engines := rfl
@[simp] theorem State.openCorr_dies (s : State) (n : Nat) : (s.openCorr n).dies = s.dies := rfl
@[simp] theorem State.openCorr_descs (s : State) (n : Nat) : (s.openCorr n).descs = s.descs := rfl
@[simp] theorem State.openCorr_adcs (s : State) (n : Nat) : (s.openCorr n).adcs = s.adcs := rfl
@[simp] theorem State.openCorr_wins (s : State) (n : Nat) : (s.openCorr n).wins = s.wins := rfl
@[simp] theorem State.openCorr_queues (s : State) (n : Nat) : (s.openCorr n).queues = s.queues := rfl
@[simp] theorem State.openCorr_groups (s : State) (n : Nat) : (s.openCorr n).groups = s.groups := rfl
@[simp] theorem State.openCorr_bldc (s : State) (n : Nat) : (s.openCorr n).bldc = s.bldc := rfl
@[simp] theorem State.openCorr_axes (s : State) (n : Nat) : (s.openCorr n).axes = s.axes := rfl
@[simp] theorem State.openCorr_power (s : State) (n : Nat) : (s.openCorr n).power = s.power := rfl
@[simp] theorem State.openCorr_sup (s : State) (n : Nat) : (s.openCorr n).sup = s.sup := rfl
@[simp] theorem State.openCorr_lockbox (s : State) (n : Nat) : (s.openCorr n).lockbox = s.lockbox := rfl
@[simp] theorem State.openCorr_qm (s : State) (n : Nat) : (s.openCorr n).qm = s.qm := rfl
@[simp] theorem State.openCorr_net (s : State) (n : Nat) : (s.openCorr n).net = s.net := rfl
@[simp] theorem State.openCorr_can (s : State) (n : Nat) : (s.openCorr n).can = s.can := rfl
@[simp] theorem State.openCorr_sec (s : State) (n : Nat) : (s.openCorr n).sec = s.sec := rfl
@[simp] theorem State.openCorr_trail (s : State) (n : Nat) : (s.openCorr n).trail = { s.trail with corr := put s.trail.corr n ((look 0 s.trail.corr n + 1) % 2 ^ 29) } := rfl
@[simp] theorem State.openCorr_standbyDue (s : State) (n : Nat) : (s.openCorr n).standbyDue = s.standbyDue := rfl
@[simp] theorem State.openCorr_sleepLt (s : State) (n : Nat) : (s.openCorr n).sleepLt = s.sleepLt := rfl
@[simp] theorem State.openCorr_metNote (s : State) (n : Nat) : (s.openCorr n).metNote = s.metNote := rfl
@[simp] theorem State.openCorr_lastMet (s : State) (n : Nat) : (s.openCorr n).lastMet = s.lastMet := rfl
@[simp] theorem State.openCorr_metSilent (s : State) (n : Nat) : (s.openCorr n).metSilent = s.metSilent := rfl
@[simp] theorem State.openCorr_metView (s : State) (n : Nat) : (s.openCorr n).metView = s.metView := rfl
@[simp] theorem State.openCorr_metViewAt (s : State) (n : Nat) : (s.openCorr n).metViewAt = s.metViewAt := rfl
@[simp] theorem State.openCorr_tag (s : State) (n : Nat) : (s.openCorr n).tag = s.tag := rfl
@[simp] theorem State.openCorr_sleepHash (s : State) (n : Nat) : (s.openCorr n).sleepHash = s.sleepHash := rfl
@[simp] theorem State.openCorr_waking (s : State) (n : Nat) : (s.openCorr n).waking = s.waking := rfl
@[simp] theorem State.openCorr_resetLt (s : State) (n : Nat) : (s.openCorr n).resetLt = s.resetLt := rfl
@[simp] theorem State.openCorr_resetReq (s : State) (n : Nat) : (s.openCorr n).resetReq = s.resetReq := rfl
@[simp] theorem State.openCorr_lane (s : State) (n : Nat) : (s.openCorr n).lane = s.lane := rfl
@[simp] theorem State.openCorr_flight (s : State) (n : Nat) : (s.openCorr n).flight = s.flight := rfl
@[simp] theorem State.openCorr_part (s : State) (n : Nat) : (s.openCorr n).part = s.part := rfl
@[simp] theorem State.openCorr_banks (s : State) (n : Nat) : (s.openCorr n).banks = s.banks := rfl
@[simp] theorem State.openCorr_hot (s : State) (n : Nat) : (s.openCorr n).hot = s.hot := rfl
@[simp] theorem State.openCorr_free (s : State) (n : Nat) : (s.openCorr n).free = s.free := rfl
@[simp] theorem State.openCorr_pending (s : State) (n : Nat) : (s.openCorr n).pending = s.pending := rfl

@[simp] theorem State.rd_openCorr (s : State) (n : Nat) (p q r : Nat) : (s.openCorr n).rd p q r = s.rd p q r := rfl
@[simp] theorem State.rdN_openCorr (s : State) (n : Nat) (p q r : Nat) : (s.openCorr n).rdN p q r = s.rdN p q r := rfl
@[simp] theorem State.rdB_openCorr (s : State) (n : Nat) (p q r : Nat) : (s.openCorr n).rdB p q r = s.rdB p q r := rfl
@[simp] theorem State.chan_openCorr (s : State) (n : Nat) (p : Nat) : (s.openCorr n).chan p = s.chan p := rfl
@[simp] theorem State.unit_openCorr (s : State) (n : Nat) (p q : Nat) : (s.openCorr n).unit p q = s.unit p q := rfl
@[simp] theorem State.slot_openCorr (s : State) (n : Nat) (p q : Nat) : (s.openCorr n).slot p q = s.slot p q := rfl
@[simp] theorem State.eng_openCorr (s : State) (n : Nat) (p q : Nat) : (s.openCorr n).eng p q = s.eng p q := rfl
@[simp] theorem State.die_openCorr (s : State) (n : Nat) (p : Nat) : (s.openCorr n).die p = s.die p := rfl
@[simp] theorem State.desc_openCorr (s : State) (n : Nat) (p q : Nat) : (s.openCorr n).desc p q = s.desc p q := rfl
@[simp] theorem State.adc_openCorr (s : State) (n : Nat) (p q : Nat) : (s.openCorr n).adc p q = s.adc p q := rfl
@[simp] theorem State.win_openCorr (s : State) (n : Nat) (p : Nat) : (s.openCorr n).win p = s.win p := rfl
@[simp] theorem State.group_openCorr (s : State) (n : Nat) (p : Nat) : (s.openCorr n).group p = s.group p := rfl
@[simp] theorem State.drive_openCorr (s : State) (n : Nat) (p : Nat) : (s.openCorr n).drive p = s.drive p := rfl
@[simp] theorem State.axis_openCorr (s : State) (n : Nat) (p : Nat) : (s.openCorr n).axis p = s.axis p := rfl
@[simp] theorem State.port_openCorr (s : State) (n : Nat) (p : Nat) : (s.openCorr n).port p = s.port p := rfl
@[simp] theorem State.queue_openCorr (s : State) (n : Nat) (p : Nat) : (s.openCorr n).queue p = s.queue p := rfl
@[simp] theorem State.lt_openCorr (s : State) (n : Nat) : (s.openCorr n).lt = s.lt := rfl
@[simp] theorem State.sitePop_openCorr (s : State) (n : Nat) (p : Nat) : (s.openCorr n).sitePop p = s.sitePop p := rfl
@[simp] theorem State.chanPop_openCorr (s : State) (n : Nat) (p : Nat) : (s.openCorr n).chanPop p = s.chanPop p := rfl
@[simp] theorem State.sites_openCorr (s : State) (n : Nat) : (s.openCorr n).sites = s.sites := rfl

end Sys2Proof.Machine
end

