-- ==== Sys2Proof/Laws/Ops.lean ====
section
/-! SUPPORT. What the shared operations do, once each: tables, the register file, the records, lists of operations, and
the request of a host that is carried out. -/

namespace Sys2Proof.Machine

set_option Elab.async false

/-! ## Tables -/

theorem lookup?_insertBy_self {κ α : Type} [DecidableEq κ] (ord : κ → Nat) (k : κ) (v : α) :
    ∀ t : List (κ × α), lookup? k (insertBy ord k v t) = some v
  | [] => by simp [insertBy, lookup?]
  | (j, w) :: t => by
    unfold insertBy
    split
    · have hj : j ≠ k := by intro e; subst e; omega
      simp [lookup?, hj, lookup?_insertBy_self ord k v t]
    · split <;> simp [lookup?]

theorem lookup?_insertBy_ne {κ α : Type} [DecidableEq κ] (ord : κ → Nat) {k i : κ} (v : α) (h : i ≠ k) :
    ∀ t : List (κ × α), lookup? i (insertBy ord k v t) = lookup? i t
  | [] => by simp [insertBy, lookup?, Ne.symm h]
  | (j, w) :: t => by
    unfold insertBy
    split
    · simp [lookup?, lookup?_insertBy_ne ord v h t]
    · split
      · rename_i e; subst e; simp [lookup?, Ne.symm h]
      · simp [lookup?, Ne.symm h]

@[simp] theorem look_put_self {α : Type} (d : α) (t : Tbl α) (k : Nat) (v : α) : look d (put t k v) k = v := by
  simp [look, put, lookup?_insertBy_self]

theorem look_put_ne {α : Type} (d : α) (t : Tbl α) {k i : Nat} (v : α) (h : i ≠ k) : look d (put t k v) i = look d t i := by
  simp [look, put, lookup?_insertBy_ne id v h]

/-! ## The register file -/

@[simp] theorem State.rd_wr_self (s : State) (i j e : Nat) (v : Int) : (s.wr i j e v).rd i j e = v := by
  simp [State.rd, lookup?_insertBy_self]

theorem State.rd_wr_ne (s : State) {i j e i' j' e' : Nat} (v : Int) (h : (i', j', e') ≠ (i, j, e)) :
    (s.wr i j e v).rd i' j' e' = s.rd i' j' e' := by
  have : (⟨i', j', e'⟩ : Addr) ≠ ⟨i, j, e⟩ := by intro k; cases k; exact h rfl
  simp [State.rd, lookup?_insertBy_ne _ v this]

theorem State.rd_wr (s : State) (i j e i' j' e' : Nat) (v : Int) :
    (s.wr i j e v).rd i' j' e' = if (i', j', e') = (i, j, e) then v else s.rd i' j' e' := by
  split
  · rename_i h; cases h; exact State.rd_wr_self ..
  · rename_i h; exact State.rd_wr_ne s v h

theorem State.rdN_wr (s : State) (i j e i' j' e' : Nat) (v : Int) :
    (s.wr i j e v).rdN i' j' e' = if (i', j', e') = (i, j, e) then v.toNat else s.rdN i' j' e' := by
  unfold State.rdN
  rw [State.rd_wr]
  split <;> rfl

@[simp] theorem State.rdB_wrB_self (s : State) (i j e : Nat) (b : List Byte) : (s.wrB i j e b).rdB i j e = b := by
  simp [State.rdB, lookup?_insertBy_self]

theorem State.rdB_wrB_ne (s : State) {i j e i' j' e' : Nat} (b : List Byte) (h : (i', j', e') ≠ (i, j, e)) :
    (s.wrB i j e b).rdB i' j' e' = s.rdB i' j' e' := by
  have : (⟨i', j', e'⟩ : Addr) ≠ ⟨i, j, e⟩ := by intro k; cases k; exact h rfl
  simp [State.rdB, lookup?_insertBy_ne _ b this]

/-! ## The records -/

@[simp] theorem State.chan_setChan (s : State) (c : Nat) (x : Chan) : (s.setChan c x).chan c = x := by simp [State.chan]
theorem State.chan_setChan_ne (s : State) {c d : Nat} (x : Chan) (h : d ≠ c) : (s.setChan c x).chan d = s.chan d := by
  simp [State.chan, look_put_ne, h]
@[simp] theorem State.unit_setUnit (s : State) (d u : Nat) (x : GenUnit) : (s.setUnit d u x).unit d u = x := by
  simp [State.unit]
@[simp] theorem State.slot_setSlot (s : State) (d k : Nat) (x : Slot) : (s.setSlot d k x).slot d k = x := by
  simp [State.slot]
@[simp] theorem State.eng_setEng (s : State) (d k : Nat) (x : Engine) : (s.setEng d k x).eng d k = x := by
  simp [State.eng]
@[simp] theorem State.die_setDie (s : State) (d : Nat) (x : Die) : (s.setDie d x).die d = x := by simp [State.die]
theorem State.die_setDie_ne (s : State) {d e : Nat} (x : Die) (h : e ≠ d) : (s.setDie d x).die e = s.die e := by
  simp [State.die, look_put_ne, h]
@[simp] theorem State.desc_setDesc (s : State) (d k : Nat) (x : Desc) : (s.setDesc d k x).desc d k = x := by
  simp [State.desc]
@[simp] theorem State.adc_setAdc (s : State) (d u : Nat) (x : Adc) : (s.setAdc d u x).adc d u = x := by simp [State.adc]
@[simp] theorem State.win_setWin (s : State) (k : Nat) (x : Win) : (s.setWin k x).win k = x := by simp [State.win]
@[simp] theorem State.group_setGroup (s : State) (k : Nat) (x : Group) : (s.setGroup k x).group k = x := by
  simp [State.group]
@[simp] theorem State.drive_setDrive (s : State) (k : Nat) (x : Bldc) : (s.setDrive k x).drive k = x := by
  simp [State.drive]
@[simp] theorem State.axis_setAxis (s : State) (k : Nat) (x : Axis) : (s.setAxis k x).axis k = x := by simp [State.axis]
@[simp] theorem State.port_setPort (s : State) (k : Nat) (x : Can) : (s.setPort k x).port k = x := by simp [State.port]
@[simp] theorem State.queue_setQueue (s : State) (k : Nat) (x : List (BitVec 64)) : (s.setQueue k x).queue k = x := by
  simp [State.queue]

/-! ## Lists of operations -/

@[simp] theorem each_nil {α : Type} (f : State → α → State) (s : State) : each [] f s = s := rfl
@[simp] theorem each_cons {α : Type} (a : α) (l : List α) (f : State → α → State) (s : State) :
    each (a :: l) f s = each l f (f s a) := rfl
@[simp] theorem when'_true (f : State → State) (s : State) : when' true f s = f s := rfl
@[simp] theorem when'_false (f : State → State) (s : State) : when' false f s = s := rfl

/-- What every operation of a list keeps, all of them together keep. -/
theorem each_keep {α β : Type} (p : State → β) (l : List α) (f : State → α → State)
    (h : ∀ y x, p (f y x) = p y) (s : State) : p (each l f s) = p s := by
  induction l generalizing s with
  | nil => rfl
  | cons a l ih => rw [each_cons, ih, h]

/-! ## A host's request -/

theorem SameButNet.refl (s : State) : SameButNet s s := rfl

theorem SameButNet.trans {a b c : State} (h : SameButNet a b) (k : SameButNet b c) : SameButNet a c := by
  unfold SameButNet at *
  rw [k, h]

theorem State.answer_sameButNet (s : State) (src : Src) (op st f l : Nat) (p : List Byte) :
    SameButNet s (s.answer src op st f l p) := by
  unfold State.answer
  split
  · split <;> rfl
  · rfl
  · rfl

theorem State.executed_sameButNet (s : State) (src : Src) : SameButNet s (s.executed src) := by
  unfold State.executed
  split
  · split <;> rfl
  · rfl
  · rfl

theorem State.hear_sameButNet (s : State) (src : Src) : SameButNet s (s.hear src) := by
  unfold State.hear
  split
  · split <;> rfl
  · rfl
  · rfl

/-- A request that is carried out leaves, but for the network side, what its operation leaves. -/
theorem State.execute_ok {s : State} {src : Src} {op f l : Nat} {k : State → Outcome'} {t : State} {p : List Byte}
    (h : k s = (t, .ok p)) : SameButNet t (s.execute src op f l k) := by
  unfold State.execute
  rw [h]
  dsimp only
  split
  · refine SameButNet.trans (b := { t with net := { t.net with storeBy := some src, storeAck := (op, f, l) } }) rfl ?_
    exact State.executed_sameButNet _ _
  · exact State.answer_sameButNet ..

theorem State.atRequest_sameButNet (s : State) (src : Src) : SameButNet s (s.atRequest src) :=
  SameButNet.trans (b := s.clearOut) rfl (State.hear_sameButNet ..)

theorem State.serve_ok {s : State} {src : Src} {op f l : Nat} {k : State → Ans} {t : State} {p : List Byte}
    (h2 : s.Hears src) (h : k (s.atRequest src) = .ok (t, p)) :
    SameButNet t (s.serve src op f l k) := by
  unfold State.serve State.serveWith
  simp only [h2.reached, h2.served, if_true]
  refine State.execute_ok (p := p) ?_
  unfold State.atRequest at h
  rw [h]
  rfl

/-- A write that is accepted leaves, but for the network side, its effect at every instance, in order. -/
theorem State.writeObj_ok {s : State} {src : Src} {i j : Nat} {es : List Nat} {v : Int} {own : State → Nat → Nat}
    {eff : State → Nat → State} (h : s.Accepts src i j es v own) :
    SameButNet (each es (fun s e => eff (s.touch e) e) (s.atRequest src)) (s.writeObj src i j es v own eff) := by
  unfold State.writeObj
  refine State.serve_ok (p := []) h.hears ?_
  rw [h.passes]
  rfl

theorem State.writeBlob_ok {s : State} {src : Src} {i j : Nat} {es : List Nat} {b : List Byte} {own : State → Nat → Nat}
    {eff : State → Nat → State} (h : s.AcceptsBlob src i j es b own) :
    SameButNet (each es (fun s e => eff (s.touch e) e) (s.atRequest src)) (s.writeBlob src i j es b own eff) := by
  unfold State.writeBlob
  refine State.serve_ok (p := []) h.hears ?_
  rw [h.passes]
  rfl

end Sys2Proof.Machine
end

