-- ==== Sys2Proof/Laws/Frame.lean ====
section
/-! SUPPORT. Which parts of the state each operation can change (State.Same, Frame). The basic steps of such a proof; the
lemmas of the operations, one each, follow in their own files: a part that the lemma does not list stays as it is. -/

namespace Sys2Proof.Machine

set_option Elab.async false

theorem State.Same.refl (k : Part) (s : State) : State.Same k s s := by cases k <;> simp [State.Same]

theorem State.Same.trans {k : Part} {a b c : State} (h : State.Same k a b) (g : State.Same k b c) : State.Same k a c := by
  cases k <;> simp only [State.Same] at * <;> intros <;> simp [*]

theorem Frame.refl (l : List Part) (s : State) : Frame l s s := fun k _ => .refl k s

theorem Frame.trans {l : List Part} {a b c : State} (h : Frame l a b) (g : Frame l b c) : Frame l a c :=
  fun k n => (h k n).trans (g k n)

theorem notMem_of {k : Part} {l m : List Part} (h : k ∉ m) (hs : (l.all fun x => m.contains x) = true) : k ∉ l :=
  fun i => h (List.contains_iff_mem.1 (List.all_eq_true.1 hs k i))

theorem notMem_any {k : Part} {l m : List Part} (hr : k.isObj = false) (h : k ∉ m)
    (hs : (l.all fun x => x.isObj || m.contains x) = true) : k ∉ l := by
  intro i
  have := List.all_eq_true.1 hs k i
  rw [hr, Bool.false_or] at this
  exact h (List.contains_iff_mem.1 this)

theorem Frame.mono {l m : List Part} {a b : State} (h : Frame l a b) (hs : (l.all fun x => m.contains x) = true) : Frame m a b :=
  fun k n => h k (notMem_of n hs)

/-- Use a state of which a part is as before in place of its value. -/
theorem same_of {k : Part} {a : State} {p : Prop} (s : State) (h : State.Same k a s) (g : State.Same k a s → p) : p := g h

theorem same_variant {k : Part} {a s : State} {x} (hk : k ∉ [.variant]) (h : State.Same k a s) :
    State.Same k a { s with variant := x } := by
  cases k <;> first | exact h | exact absurd (List.mem_singleton.2 rfl) hk

theorem same_sealedPart {k : Part} {a s : State} {x} (hk : k ∉ [.sealedPart]) (h : State.Same k a s) :
    State.Same k a { s with sealedPart := x } := by
  cases k <;> first | exact h | exact absurd (List.mem_singleton.2 rfl) hk

theorem same_vsys {k : Part} {a s : State} {x} (hk : k ∉ [.vsys]) (h : State.Same k a s) :
    State.Same k a { s with vsys := x } := by
  cases k <;> first | exact h | exact absurd (List.mem_singleton.2 rfl) hk

theorem same_fw {k : Part} {a s : State} {x} (hk : k ∉ [.fw]) (h : State.Same k a s) :
    State.Same k a { s with fw := x } := by
  cases k <;> first | exact h | exact absurd (List.mem_singleton.2 rfl) hk

theorem same_clock {k : Part} {a s : State} {x} (hk : k ∉ [.clock]) (h : State.Same k a s) :
    State.Same k a { s with clock := x } := by
  cases k <;> first | exact h | exact absurd (List.mem_singleton.2 rfl) hk

theorem same_flash {k : Part} {a s : State} {x} (hk : k ∉ [.flash]) (h : State.Same k a s) :
    State.Same k a { s with flash := x } := by
  cases k <;> first | exact h | exact absurd (List.mem_singleton.2 rfl) hk

theorem same_flashBlobs {k : Part} {a s : State} {x} (hk : k ∉ [.flashBlobs]) (h : State.Same k a s) :
    State.Same k a { s with flashBlobs := x } := by
  cases k <;> first | exact h | exact absurd (List.mem_singleton.2 rfl) hk

theorem same_chans {k : Part} {a s : State} {x} (hk : k ∉ [.chans]) (h : State.Same k a s) :
    State.Same k a { s with chans := x } := by
  cases k <;> first | exact h | exact absurd (List.mem_singleton.2 rfl) hk

theorem same_units {k : Part} {a s : State} {x} (hk : k ∉ [.units]) (h : State.Same k a s) :
    State.Same k a { s with units := x } := by
  cases k <;> first | exact h | exact absurd (List.mem_singleton.2 rfl) hk

theorem same_slots {k : Part} {a s : State} {x} (hk : k ∉ [.slots]) (h : State.Same k a s) :
    State.Same k a { s with slots := x } := by
  cases k <;> first | exact h | exact absurd (List.mem_singleton.2 rfl) hk

theorem same_engines {k : Part} {a s : State} {x} (hk : k ∉ [.engines]) (h : State.Same k a s) :
    State.Same k a { s with engines := x } := by
  cases k <;> first | exact h | exact absurd (List.mem_singleton.2 rfl) hk

theorem same_dies {k : Part} {a s : State} {x} (hk : k ∉ [.dies]) (h : State.Same k a s) :
    State.Same k a { s with dies := x } := by
  cases k <;> first | exact h | exact absurd (List.mem_singleton.2 rfl) hk

theorem same_descs {k : Part} {a s : State} {x} (hk : k ∉ [.descs]) (h : State.Same k a s) :
    State.Same k a { s with descs := x } := by
  cases k <;> first | exact h | exact absurd (List.mem_singleton.2 rfl) hk

theorem same_adcs {k : Part} {a s : State} {x} (hk : k ∉ [.adcs]) (h : State.Same k a s) :
    State.Same k a { s with adcs := x } := by
  cases k <;> first | exact h | exact absurd (List.mem_singleton.2 rfl) hk

theorem same_wins {k : Part} {a s : State} {x} (hk : k ∉ [.wins]) (h : State.Same k a s) :
    State.Same k a { s with wins := x } := by
  cases k <;> first | exact h | exact absurd (List.mem_singleton.2 rfl) hk

theorem same_queues {k : Part} {a s : State} {x} (hk : k ∉ [.queues]) (h : State.Same k a s) :
    State.Same k a { s with queues := x } := by
  cases k <;> first | exact h | exact absurd (List.mem_singleton.2 rfl) hk

theorem same_groups {k : Part} {a s : State} {x} (hk : k ∉ [.groups]) (h : State.Same k a s) :
    State.Same k a { s with groups := x } := by
  cases k <;> first | exact h | exact absurd (List.mem_singleton.2 rfl) hk

theorem same_bldc {k : Part} {a s : State} {x} (hk : k ∉ [.bldc]) (h : State.Same k a s) :
    State.Same k a { s with bldc := x } := by
  cases k <;> first | exact h | exact absurd (List.mem_singleton.2 rfl) hk

theorem same_axes {k : Part} {a s : State} {x} (hk : k ∉ [.axes]) (h : State.Same k a s) :
    State.Same k a { s with axes := x } := by
  cases k <;> first | exact h | exact absurd (List.mem_singleton.2 rfl) hk

theorem same_power {k : Part} {a s : State} {x} (hk : k ∉ [.power]) (h : State.Same k a s) :
    State.Same k a { s with power := x } := by
  cases k <;> first | exact h | exact absurd (List.mem_singleton.2 rfl) hk

theorem same_sup {k : Part} {a s : State} {x} (hk : k ∉ [.sup]) (h : State.Same k a s) :
    State.Same k a { s with sup := x } := by
  cases k <;> first | exact h | exact absurd (List.mem_singleton.2 rfl) hk

theorem same_lockbox {k : Part} {a s : State} {x} (hk : k ∉ [.lockbox]) (h : State.Same k a s) :
    State.Same k a { s with lockbox := x } := by
  cases k <;> first | exact h | exact absurd (List.mem_singleton.2 rfl) hk

theorem same_qm {k : Part} {a s : State} {x} (hk : k ∉ [.qm]) (h : State.Same k a s) :
    State.Same k a { s with qm := x } := by
  cases k <;> first | exact h | exact absurd (List.mem_singleton.2 rfl) hk

theorem same_net {k : Part} {a s : State} {x} (hk : k ∉ [.net]) (h : State.Same k a s) :
    State.Same k a { s with net := x } := by
  cases k <;> first | exact h | exact absurd (List.mem_singleton.2 rfl) hk

theorem same_can {k : Part} {a s : State} {x} (hk : k ∉ [.can]) (h : State.Same k a s) :
    State.Same k a { s with can := x } := by
  cases k <;> first | exact h | exact absurd (List.mem_singleton.2 rfl) hk

theorem same_sec {k : Part} {a s : State} {x} (hk : k ∉ [.sec]) (h : State.Same k a s) :
    State.Same k a { s with sec := x } := by
  cases k <;> first | exact h | exact absurd (List.mem_singleton.2 rfl) hk

theorem same_trail {k : Part} {a s : State} {x} (hk : k ∉ [.trail]) (h : State.Same k a s) :
    State.Same k a { s with trail := x } := by
  cases k <;> first | exact h | exact absurd (List.mem_singleton.2 rfl) hk

theorem same_standbyDue {k : Part} {a s : State} {x} (hk : k ∉ [.standbyDue]) (h : State.Same k a s) :
    State.Same k a { s with standbyDue := x } := by
  cases k <;> first | exact h | exact absurd (List.mem_singleton.2 rfl) hk

theorem same_sleepLt {k : Part} {a s : State} {x} (hk : k ∉ [.sleepLt]) (h : State.Same k a s) :
    State.Same k a { s with sleepLt := x } := by
  cases k <;> first | exact h | exact absurd (List.mem_singleton.2 rfl) hk

theorem same_metNote {k : Part} {a s : State} {x} (hk : k ∉ [.metNote]) (h : State.Same k a s) :
    State.Same k a { s with metNote := x } := by
  cases k <;> first | exact h | exact absurd (List.mem_singleton.2 rfl) hk

theorem same_lastMet {k : Part} {a s : State} {x} (hk : k ∉ [.lastMet]) (h : State.Same k a s) :
    State.Same k a { s with lastMet := x } := by
  cases k <;> first | exact h | exact absurd (List.mem_singleton.2 rfl) hk

theorem same_metSilent {k : Part} {a s : State} {x} (hk : k ∉ [.metSilent]) (h : State.Same k a s) :
    State.Same k a { s with metSilent := x } := by
  cases k <;> first | exact h | exact absurd (List.mem_singleton.2 rfl) hk

theorem same_metView {k : Part} {a s : State} {x} (hk : k ∉ [.metView]) (h : State.Same k a s) :
    State.Same k a { s with metView := x } := by
  cases k <;> first | exact h | exact absurd (List.mem_singleton.2 rfl) hk

theorem same_metViewAt {k : Part} {a s : State} {x} (hk : k ∉ [.metViewAt]) (h : State.Same k a s) :
    State.Same k a { s with metViewAt := x } := by
  cases k <;> first | exact h | exact absurd (List.mem_singleton.2 rfl) hk

theorem same_tag {k : Part} {a s : State} {x} (hk : k ∉ [.tag]) (h : State.Same k a s) :
    State.Same k a { s with tag := x } := by
  cases k <;> first | exact h | exact absurd (List.mem_singleton.2 rfl) hk

theorem same_sleepHash {k : Part} {a s : State} {x} (hk : k ∉ [.sleepHash]) (h : State.Same k a s) :
    State.Same k a { s with sleepHash := x } := by
  cases k <;> first | exact h | exact absurd (List.mem_singleton.2 rfl) hk

theorem same_waking {k : Part} {a s : State} {x} (hk : k ∉ [.waking]) (h : State.Same k a s) :
    State.Same k a { s with waking := x } := by
  cases k <;> first | exact h | exact absurd (List.mem_singleton.2 rfl) hk

theorem same_resetLt {k : Part} {a s : State} {x} (hk : k ∉ [.resetLt]) (h : State.Same k a s) :
    State.Same k a { s with resetLt := x } := by
  cases k <;> first | exact h | exact absurd (List.mem_singleton.2 rfl) hk

theorem same_resetReq {k : Part} {a s : State} {x} (hk : k ∉ [.resetReq]) (h : State.Same k a s) :
    State.Same k a { s with resetReq := x } := by
  cases k <;> first | exact h | exact absurd (List.mem_singleton.2 rfl) hk

theorem same_lane {k : Part} {a s : State} {x} (hk : k ∉ [.lane]) (h : State.Same k a s) :
    State.Same k a { s with lane := x } := by
  cases k <;> first | exact h | exact absurd (List.mem_singleton.2 rfl) hk

theorem same_flight {k : Part} {a s : State} {x} (hk : k ∉ [.flight]) (h : State.Same k a s) :
    State.Same k a { s with flight := x } := by
  cases k <;> first | exact h | exact absurd (List.mem_singleton.2 rfl) hk

theorem same_part {k : Part} {a s : State} {x} (hk : k ∉ [.part]) (h : State.Same k a s) :
    State.Same k a { s with part := x } := by
  cases k <;> first | exact h | exact absurd (List.mem_singleton.2 rfl) hk

theorem same_banks {k : Part} {a s : State} {x} (hk : k ∉ [.banks]) (h : State.Same k a s) :
    State.Same k a { s with banks := x } := by
  cases k <;> first | exact h | exact absurd (List.mem_singleton.2 rfl) hk

theorem same_hot {k : Part} {a s : State} {x} (hk : k ∉ [.hot]) (h : State.Same k a s) :
    State.Same k a { s with hot := x } := by
  cases k <;> first | exact h | exact absurd (List.mem_singleton.2 rfl) hk

theorem same_free {k : Part} {a s : State} {x} (hk : k ∉ [.free]) (h : State.Same k a s) :
    State.Same k a { s with free := x } := by
  cases k <;> first | exact h | exact absurd (List.mem_singleton.2 rfl) hk

theorem same_pending {k : Part} {a s : State} {x} (hk : k ∉ [.pending]) (h : State.Same k a s) :
    State.Same k a { s with pending := x } := by
  cases k <;> first | exact h | exact absurd (List.mem_singleton.2 rfl) hk

theorem same_start {k : Part} {a s : State} {x y z} (hk : k ∉ [.fw, .metNote, .lastMet]) (h : State.Same k a s) :
    State.Same k a { s with fw := x, metNote := y, lastMet := z } := by
  cases k <;> first | exact h | exact absurd (by simp) hk

theorem same_sleep {k : Part} {a s : State} {x y} (hk : k ∉ [.sleepLt, .sleepHash]) (h : State.Same k a s) :
    State.Same k a { s with sleepLt := x, sleepHash := y } := by
  cases k <;> first | exact h | exact absurd (by simp) hk

theorem same_flashes {k : Part} {a s : State} {x y} (hk : k ∉ [.flash, .flashBlobs]) (h : State.Same k a s) :
    State.Same k a { s with flash := x, flashBlobs := y } := by
  cases k <;> first | exact h | exact absurd (by simp) hk

theorem State.wr_same {k : Part} {a s : State} {i j e v} (hk : k ∉ [.reg i]) (h : State.Same k a s) :
    State.Same k a (s.wr i j e v) := by
  cases k with
  | reg n =>
    intro p q
    rw [State.rd_wr_ne s v]
    · exact h p q
    · intro m
      cases m
      exact hk (List.mem_singleton.2 rfl)
  | _ => exact h

theorem State.inc_same {k : Part} {a s : State} {i j e w} (hk : k ∉ [.reg i]) (h : State.Same k a s) :
    State.Same k a (s.inc i j e w) := State.wr_same hk h

theorem State.wrB_same {k : Part} {a s : State} {i j e v} (hk : k ∉ [.blob i]) (h : State.Same k a s) :
    State.Same k a (s.wrB i j e v) := by
  cases k with
  | blob n =>
    intro p q
    rw [State.rdB_wrB_ne s v]
    · exact h p q
    · intro m
      cases m
      exact hk (List.mem_singleton.2 rfl)
  | _ => exact h

theorem State.wr_field {k : Part} {a s : State} {i j e v} (hr : k.isObj = false) (h : State.Same k a s) :
    State.Same k a (s.wr i j e v) := by
  cases k <;> first | exact h | exact absurd hr (by simp [Part.isObj])

theorem State.inc_field {k : Part} {a s : State} {i j e w} (hr : k.isObj = false) (h : State.Same k a s) :
    State.Same k a (s.inc i j e w) := State.wr_field hr h

theorem State.wrB_field {k : Part} {a s : State} {i j e v} (hr : k.isObj = false) (h : State.Same k a s) :
    State.Same k a (s.wrB i j e v) := by
  cases k <;> first | exact h | exact absurd hr (by simp [Part.isObj])

theorem same_regs {k : Part} {a s : State} {x y} (hr : k.isObj = false) (h : State.Same k a s) :
    State.Same k a { s with objs := x, blobs := y } := by
  cases k <;> first | exact h | exact absurd hr (by simp [Part.isObj])

theorem same_invalid {k : Part} {a s : State} {v w x y z} (hk : k ∉ [.vsys, .clock, .dies, .resetLt, .banks])
    (h : State.Same k a s) :
    State.Same k a { s with vsys := v, clock := w, dies := x, resetLt := y, banks := z } := by
  cases k <;> first | exact h | exact absurd (by simp) hk

theorem same_cleared {k : Part} {a s : State} {x y} (hk : k ∉ [.net, .trail]) (h : State.Same k a s) :
    State.Same k a { s with net := x, trail := y } := by
  cases k <;> first | exact h | exact absurd (by simp) hk

theorem same_powerOn {k : Part} {a s : State} {t u v w x y z}
    (hk : k ∉ [.clock, .dies, .sup, .lockbox, .net, .sec, .trail]) (h : State.Same k a s) :
    State.Same k a { s with clock := t, trail := z, sup := v, dies := u, lockbox := w, net := x, sec := y } := by
  cases k <;> first | exact h | exact absurd (by simp) hk

theorem same_pump {k : Part} {a s : State} {x y} (hk : k ∉ [.lane, .flight]) (h : State.Same k a s) :
    State.Same k a { s with lane := x, flight := y } := by
  cases k <;> first | exact h | exact absurd (by simp) hk

theorem same_heard {k : Part} {a s : State} {x y z} (hk : k ∉ [.lastMet, .metView, .metViewAt]) (h : State.Same k a s) :
    State.Same k a { s with lastMet := x, metView := y, metViewAt := z } := by
  cases k <;> first | exact h | exact absurd (by simp) hk

theorem same_view {k : Part} {a s : State} {x y} (hk : k ∉ [.clock, .qm]) (h : State.Same k a s) :
    State.Same k a { s with clock := x, qm := y } := by
  cases k <;> first | exact h | exact absurd (by simp) hk

theorem same_site {k : Part} {a s : State} {r t u v w x y z o} (hr : k.isObj = false)
    (hk : k ∉ [.chans, .units, .slots, .engines, .dies, .descs, .adcs]) (h : State.Same k a s) :
    State.Same k a { s with
      objs := r, blobs := t, chans := u, units := v, slots := w, engines := x, dies := y,
      descs := z, adcs := o } := by
  cases k <;> first | exact h | exact absurd hr Bool.noConfusion | exact absurd (by simp) hk

theorem each_same {α : Type} {k : Part} {a s : State} {f : State → α → State} {l : List α} (h : State.Same k a s)
    (hf : ∀ y x, State.Same k a y → State.Same k a (f y x)) : State.Same k a (each l f s) := by
  unfold each
  induction l generalizing s with
  | nil => exact h
  | cons x l ih => exact ih (hf s x h)

theorem when'_same {k : Part} {a s : State} {f : State → State} {b : Bool} (h : State.Same k a s)
    (hf : ∀ y, State.Same k a y → State.Same k a (f y)) : State.Same k a (when' b f s) := by
  unfold when'; split
  · exact hf s h
  · exact h

/-- A part is as before in the state that a request answers with. -/
structure SameAns (k : Part) (a : State) (r : Ans) : Prop where
  keep : ∀ s b, r = .ok (s, b) → State.Same k a s

theorem sameAns_ok {k : Part} {a s : State} {b : List Byte} (h : State.Same k a s) : SameAns k a (.ok (s, b)) := by
  refine ⟨fun t c e => ?_⟩; cases e; exact h

theorem sameAns_error {k : Part} {a : State} {r : Refuse} : SameAns k a (.error r) := by
  refine ⟨fun t c e => ?_⟩; cases e

theorem done_same {k : Part} {a s : State} (h : State.Same k a s) : SameAns k a (done s) := sameAns_ok h

theorem need_same {k : Part} {a : State} {b : Bool} {c : Nat} {r : Ans} (h : SameAns k a r) : SameAns k a (need b c r) := by
  unfold need; split
  · exact h
  · exact sameAns_error

theorem needDone_same {k : Part} {a : State} {c : Nat} {r : Ans} (h : SameAns k a r) : SameAns k a (needDone c r) := by
  unfold needDone; split
  · exact h
  · exact sameAns_error

/-- States that differ in the network side alone. -/
theorem SameButNet.frame {s t : State} (h : SameButNet s t) : Frame [.net] s t := by
  intro k hk
  rw [h]
  exact same_net hk (.refl k s)

end Sys2Proof.Machine
end

