-- ==== Sys2Proof/Laws/FrameOps.lean ====
section
/-! SUPPORT. Which parts of the state the operations of the shared operations and requests can change: one lemma for each. -/

namespace Sys2Proof.Machine

set_option Elab.async false

set_option linter.unreachableTactic false
set_option linter.unusedTactic false

theorem State.setChan_same {k : Part} {a s : State} {x1 x2}
    (hk : k ∉ [.chans])
    (h : State.Same k a s) :
    State.Same k a (State.setChan s x1 x2) := by
  unfold State.setChan
  repeat' first
    | with_reducible assumption | exact notMem_of hk (by decide +kernel) | with_reducible apply same_chans

theorem State.setUnit_same {k : Part} {a s : State} {x1 x2 x3}
    (hk : k ∉ [.units])
    (h : State.Same k a s) :
    State.Same k a (State.setUnit s x1 x2 x3) := by
  unfold State.setUnit
  repeat' first
    | with_reducible assumption | exact notMem_of hk (by decide +kernel) | with_reducible apply same_units

theorem State.setSlot_same {k : Part} {a s : State} {x1 x2 x3}
    (hk : k ∉ [.slots])
    (h : State.Same k a s) :
    State.Same k a (State.setSlot s x1 x2 x3) := by
  unfold State.setSlot
  repeat' first
    | with_reducible assumption | exact notMem_of hk (by decide +kernel) | with_reducible apply same_slots

theorem State.setEng_same {k : Part} {a s : State} {x1 x2 x3}
    (hk : k ∉ [.engines])
    (h : State.Same k a s) :
    State.Same k a (State.setEng s x1 x2 x3) := by
  unfold State.setEng
  repeat' first
    | with_reducible assumption | exact notMem_of hk (by decide +kernel) | with_reducible apply same_engines

theorem State.setDie_same {k : Part} {a s : State} {x1 x2}
    (hk : k ∉ [.dies])
    (h : State.Same k a s) :
    State.Same k a (State.setDie s x1 x2) := by
  unfold State.setDie
  repeat' first
    | with_reducible assumption | exact notMem_of hk (by decide +kernel) | with_reducible apply same_dies

theorem State.setDesc_same {k : Part} {a s : State} {x1 x2 x3}
    (hk : k ∉ [.descs])
    (h : State.Same k a s) :
    State.Same k a (State.setDesc s x1 x2 x3) := by
  unfold State.setDesc
  repeat' first
    | with_reducible assumption | exact notMem_of hk (by decide +kernel) | with_reducible apply same_descs

theorem State.setAdc_same {k : Part} {a s : State} {x1 x2 x3}
    (hk : k ∉ [.adcs])
    (h : State.Same k a s) :
    State.Same k a (State.setAdc s x1 x2 x3) := by
  unfold State.setAdc
  repeat' first
    | with_reducible assumption | exact notMem_of hk (by decide +kernel) | with_reducible apply same_adcs

theorem State.setWin_same {k : Part} {a s : State} {x1 x2}
    (hk : k ∉ [.wins])
    (h : State.Same k a s) :
    State.Same k a (State.setWin s x1 x2) := by
  unfold State.setWin
  repeat' first
    | with_reducible assumption | exact notMem_of hk (by decide +kernel) | with_reducible apply same_wins

theorem State.setGroup_same {k : Part} {a s : State} {x1 x2}
    (hk : k ∉ [.groups])
    (h : State.Same k a s) :
    State.Same k a (State.setGroup s x1 x2) := by
  unfold State.setGroup
  repeat' first
    | with_reducible assumption | exact notMem_of hk (by decide +kernel) | with_reducible apply same_groups

theorem State.setDrive_same {k : Part} {a s : State} {x1 x2}
    (hk : k ∉ [.bldc])
    (h : State.Same k a s) :
    State.Same k a (State.setDrive s x1 x2) := by
  unfold State.setDrive
  repeat' first
    | with_reducible assumption | exact notMem_of hk (by decide +kernel) | with_reducible apply same_bldc

theorem State.setAxis_same {k : Part} {a s : State} {x1 x2}
    (hk : k ∉ [.axes])
    (h : State.Same k a s) :
    State.Same k a (State.setAxis s x1 x2) := by
  unfold State.setAxis
  repeat' first
    | with_reducible assumption | exact notMem_of hk (by decide +kernel) | with_reducible apply same_axes

theorem State.setPort_same {k : Part} {a s : State} {x1 x2}
    (hk : k ∉ [.can])
    (h : State.Same k a s) :
    State.Same k a (State.setPort s x1 x2) := by
  unfold State.setPort
  repeat' first
    | with_reducible assumption | exact notMem_of hk (by decide +kernel) | with_reducible apply same_can

theorem State.setQueue_same {k : Part} {a s : State} {x1 x2}
    (hk : k ∉ [.queues])
    (h : State.Same k a s) :
    State.Same k a (State.setQueue s x1 x2) := by
  unfold State.setQueue
  repeat' first
    | with_reducible assumption | exact notMem_of hk (by decide +kernel) | with_reducible apply same_queues

theorem State.draw_same {k : Part} {a s : State}
    (hk : k ∉ [.free])
    (h : State.Same k a s) :
    State.Same k a (State.draw s) := by
  unfold State.draw
  repeat' first
    | with_reducible assumption | exact notMem_of hk (by decide +kernel) | with_reducible apply same_free

theorem State.openCorr_same {k : Part} {a s : State} {x1}
    (hk : k ∉ [.trail])
    (h : State.Same k a s) :
    State.Same k a (State.openCorr s x1) := by
  unfold State.openCorr
  repeat' first
    | with_reducible assumption | exact notMem_of hk (by decide +kernel) | with_reducible apply same_trail

theorem State.countUnstored_same {k : Part} {a s : State}
    (hk : k ∉ [.reg 0x6000])
    (h : State.Same k a s) :
    State.Same k a (State.countUnstored s) := by
  unfold State.countUnstored
  repeat' first
    | with_reducible assumption | exact notMem_of hk (by decide +kernel) | with_reducible apply State.inc_same

theorem State.armFreeze_same {k : Part} {a s : State} {x1}
    (hk : k ∉ [.trail])
    (h : State.Same k a s) :
    State.Same k a (State.armFreeze s x1) := by
  unfold State.armFreeze
  repeat' first
    | with_reducible assumption | exact notMem_of hk (by decide +kernel) | split | with_reducible apply same_trail

theorem State.placeEntry_same {k : Part} {a s : State} {x1}
    (hk : k ∉ [.reg 0x6000, .trail])
    (h : State.Same k a s) :
    State.Same k a (State.placeEntry s x1) := by
  unfold State.placeEntry
  repeat' first
    | with_reducible assumption | exact notMem_of hk (by decide +kernel) | with_reducible apply State.inc_same
    | split | with_reducible apply same_trail

theorem State.store_same {k : Part} {a s : State} {x1}
    (hk : k ∉ [.reg 0x6000, .trail])
    (h : State.Same k a s) :
    State.Same k a (State.store s x1) := by
  unfold State.store
  repeat' first
    | with_reducible assumption | exact notMem_of hk (by decide +kernel)
    | with_reducible apply State.countUnstored_same | with_reducible apply State.armFreeze_same
    | with_reducible apply State.placeEntry_same | split

theorem State.sendEntry_same {k : Part} {a s : State} {x1 x2}
    (hk : k ∉ [.dies])
    (h : State.Same k a s) :
    State.Same k a (State.sendEntry s x1 x2) := by
  unfold State.sendEntry
  repeat' first
    | with_reducible assumption | exact notMem_of hk (by decide +kernel) | with_reducible apply State.setDie_same

theorem State.raise_same {k : Part} {a s : State} {x1 x2 x3 x4 x5}
    (hk : k ∉ [.reg 0x6000, .dies, .trail])
    (h : State.Same k a s) :
    State.Same k a (State.raise s x1 x2 x3 x4 x5) := by
  unfold State.raise
  try lift_lets -underBinder
  repeat' first
    | with_reducible assumption | exact notMem_of hk (by decide +kernel)
    | (intro x
       first
         | (refine same_of (a := a) (k := k) x ?_ fun _ => ?_
            unfold x
            try lift_lets -underBinder
            rotate_left
            clear_value x)
         | clear_value x
         | skip)
    | lift_lets -underBinder | with_reducible apply State.sendEntry_same | with_reducible apply State.setDie_same
    | with_reducible apply State.store_same | (split <;> try lift_lets -underBinder)

theorem State.note_same {k : Part} {a s : State} {x1 x2}
    (hk : k ∉ [.reg 0x6000, .dies, .trail])
    (h : State.Same k a s) :
    State.Same k a (State.note s x1 x2) := by
  unfold State.note
  repeat' first
    | with_reducible assumption | exact notMem_of hk (by decide +kernel) | with_reducible apply State.raise_same
    | with_reducible apply State.openCorr_same

theorem State.noteAt_same {k : Part} {a s : State} {x1 x2 x3 x4}
    (hk : k ∉ [.reg 0x6000, .dies, .trail])
    (h : State.Same k a s) :
    State.Same k a (State.noteAt s x1 x2 x3 x4) := by
  unfold State.noteAt
  repeat' first
    | with_reducible assumption | exact notMem_of hk (by decide +kernel) | with_reducible apply State.raise_same
    | with_reducible apply State.openCorr_same

theorem State.supplyNote_same {k : Part} {a s : State} {x1 x2}
    (hk : k ∉ [.reg 0x1220, .reg 0x6000, .dies, .trail])
    (h : State.Same k a s) :
    State.Same k a (State.supplyNote s x1 x2) := by
  unfold State.supplyNote
  repeat' first
    | with_reducible assumption | exact notMem_of hk (by decide +kernel) | with_reducible apply State.note_same
    | with_reducible apply State.inc_same

theorem State.raiseFrame_same {k : Part} {a s : State} {x1 x2 x3 x4 x5}
    (hk : k ∉ [.dies])
    (h : State.Same k a s) :
    State.Same k a (State.raiseFrame s x1 x2 x3 x4 x5) := by
  unfold State.raiseFrame
  repeat' first
    | with_reducible assumption | exact notMem_of hk (by decide +kernel) | with_reducible apply State.setDie_same

theorem State.raiseAll_same {k : Part} {a s : State} {x1 x2 x3}
    (hk : k ∉ [.dies])
    (h : State.Same k a s) :
    State.Same k a (State.raiseAll s x1 x2 x3) := by
  unfold State.raiseAll
  try lift_lets -underBinder
  repeat' first
    | with_reducible assumption | exact notMem_of hk (by decide +kernel)
    | (intro x
       first
         | (refine same_of (a := a) (k := k) x ?_ fun _ => ?_
            unfold x
            try lift_lets -underBinder
            rotate_left
            clear_value x)
         | clear_value x
         | skip)
    | lift_lets -underBinder | with_reducible apply each_same | with_reducible apply State.raiseFrame_same
    | (split <;> try lift_lets -underBinder)

theorem State.frameIn_same {k : Part} {a s : State} {x1 x2 x3}
    (hk : k ∉ [.dies])
    (h : State.Same k a s) :
    State.Same k a (State.frameIn s x1 x2 x3) := by
  unfold State.frameIn
  try lift_lets -underBinder
  repeat' first
    | with_reducible assumption | exact notMem_of hk (by decide +kernel)
    | (intro x
       first
         | (refine same_of (a := a) (k := k) x ?_ fun _ => ?_
            unfold x
            try lift_lets -underBinder
            rotate_left
            clear_value x)
         | clear_value x
         | skip)
    | lift_lets -underBinder | with_reducible apply State.setDie_same | (split <;> try lift_lets -underBinder)

theorem State.onLink_same {k : Part} {a s : State} {x1 x2 f} (hk : k ∉ [.dies]) (h : State.Same k a s) :
    State.Same k a (s.onLink x1 x2 f) := State.setDie_same hk h

theorem State.replayNote_same {k : Part} {a s : State} {x1 x2 x3 x4 x5}
    (hk : k ∉ [.reg 0x6000, .dies, .trail])
    (h : State.Same k a s) :
    State.Same k a (State.replayNote s x1 x2 x3 x4 x5) := by
  unfold State.replayNote
  repeat' first
    | with_reducible assumption | exact notMem_of hk (by decide +kernel) | with_reducible apply State.raise_same

theorem State.endReplay_same {k : Part} {a s : State} {x1 x2 x3}
    (hk : k ∉ [.reg 0x6000, .dies, .trail])
    (h : State.Same k a s) :
    State.Same k a (State.endReplay s x1 x2 x3) := by
  unfold State.endReplay
  try lift_lets -underBinder
  repeat' first
    | with_reducible assumption | exact notMem_of hk (by decide +kernel)
    | (intro x
       first
         | (refine same_of (a := a) (k := k) x ?_ fun _ => ?_
            unfold x
            try lift_lets -underBinder
            rotate_left
            clear_value x)
         | clear_value x
         | skip)
    | lift_lets -underBinder | with_reducible apply State.onLink_same | with_reducible apply State.replayNote_same
    | (split <;> try lift_lets -underBinder)

theorem State.endAgain_same {k : Part} {a s : State} {x1 x2 x3}
    (hk : k ∉ [.reg 0x6000, .dies, .trail])
    (h : State.Same k a s) :
    State.Same k a (State.endAgain s x1 x2 x3) := by
  unfold State.endAgain
  try lift_lets -underBinder
  repeat' first
    | with_reducible assumption | exact notMem_of hk (by decide +kernel)
    | (intro x
       first
         | (refine same_of (a := a) (k := k) x ?_ fun _ => ?_
            unfold x
            try lift_lets -underBinder
            rotate_left
            clear_value x)
         | clear_value x
         | skip)
    | lift_lets -underBinder | with_reducible apply State.onLink_same | with_reducible apply State.replayNote_same
    | (split <;> try lift_lets -underBinder)

theorem State.openReplay_same {k : Part} {a s : State} {x1 x2 x3}
    (hk : k ∉ [.trail])
    (h : State.Same k a s) :
    State.Same k a (State.openReplay s x1 x2 x3) := by
  unfold State.openReplay
  repeat' first
    | with_reducible assumption | exact notMem_of hk (by decide +kernel) | with_reducible apply State.openCorr_same
    | split

theorem State.frameAgain_same {k : Part} {a s : State} {x1 x2}
    (hk : k ∉ [.dies, .trail])
    (h : State.Same k a s) :
    State.Same k a (State.frameAgain s x1 x2) := by
  unfold State.frameAgain
  try lift_lets -underBinder
  repeat' first
    | with_reducible assumption | exact notMem_of hk (by decide +kernel)
    | (intro x
       first
         | (refine same_of (a := a) (k := k) x ?_ fun _ => ?_
            unfold x
            try lift_lets -underBinder
            rotate_left
            clear_value x)
         | clear_value x
         | skip)
    | lift_lets -underBinder | with_reducible apply State.onLink_same | with_reducible apply State.openReplay_same
    | (split <;> try lift_lets -underBinder)

theorem State.hubFrame_same {k : Part} {a s : State} {x1 x2 x3 x4} {f : Nat → Nat → State → State}
    (hk : k ∉ [.reg 0x6000, .dies, .trail])
    (h : State.Same k a s) (hf : ∀ m n y, State.Same k a y → State.Same k a (f m n y)) :
    State.Same k a (s.hubFrame x1 x2 x3 x4 f) := by
  unfold State.hubFrame
  repeat' split
  · exact State.frameAgain_same (notMem_of hk (by decide +kernel)) h
  · exact hf _ _ _ (State.frameIn_same (notMem_of hk (by decide +kernel)) (State.endAgain_same (notMem_of hk (by decide +kernel)) h))
  · exact h
  · exact h

theorem State.sliceOff_same {k : Part} {a s : State} {x1}
    (hk : k ∉ [.chans])
    (h : State.Same k a s) :
    State.Same k a (State.sliceOff s x1) := by
  unfold State.sliceOff
  repeat' first
    | with_reducible assumption | exact notMem_of hk (by decide +kernel) | with_reducible apply State.setChan_same

theorem State.gatesOff_same {k : Part} {a s : State} {x1}
    (hk : k ∉ [.chans, .units])
    (h : State.Same k a s) :
    State.Same k a (State.gatesOff s x1) := by
  unfold State.gatesOff
  repeat' first
    | with_reducible assumption | exact notMem_of hk (by decide +kernel) | with_reducible apply State.sliceOff_same
    | with_reducible apply State.setUnit_same

theorem State.dropJobs_same {k : Part} {a s : State} {x1 x2}
    (hk : k ∉ [.engines])
    (h : State.Same k a s) :
    State.Same k a (State.dropJobs s x1 x2) := by
  unfold State.dropJobs
  try lift_lets -underBinder
  repeat' first
    | with_reducible assumption | exact notMem_of hk (by decide +kernel)
    | (intro x
       first
         | (refine same_of (a := a) (k := k) x ?_ fun _ => ?_
            unfold x
            try lift_lets -underBinder
            rotate_left
            clear_value x)
         | clear_value x
         | skip)
    | lift_lets -underBinder | with_reducible apply each_same | with_reducible apply State.setEng_same
    | (split <;> try lift_lets -underBinder)

theorem State.setWord4_same {k : Part} {a s : State} {x1 x2}
    (hk : k ∉ [.slots])
    (h : State.Same k a s) :
    State.Same k a (State.setWord4 s x1 x2) := by
  unfold State.setWord4
  repeat' first
    | with_reducible assumption | exact notMem_of hk (by decide +kernel) | with_reducible apply State.setSlot_same

theorem State.discardSlot_same {k : Part} {a s : State} {x1 x2}
    (hk : k ∉ [.slots])
    (h : State.Same k a s) :
    State.Same k a (State.discardSlot s x1 x2) := by
  unfold State.discardSlot
  repeat' first
    | with_reducible assumption | exact notMem_of hk (by decide +kernel) | with_reducible apply State.setSlot_same

theorem State.pump_same {k : Part} {a s : State}
    (hk : k ∉ [.lane, .flight])
    (h : State.Same k a s) :
    State.Same k a (State.pump s) := by
  unfold State.pump
  repeat' first
    | with_reducible assumption | exact notMem_of hk (by decide +kernel) | with_reducible apply same_pump

theorem State.mail_same {k : Part} {a s : State} {x1}
    (hk : k ∉ [.lane, .flight])
    (h : State.Same k a s) :
    State.Same k a (State.mail s x1) := by
  unfold State.mail
  repeat' first
    | with_reducible assumption | exact notMem_of hk (by decide +kernel) | with_reducible apply State.pump_same
    | with_reducible apply same_lane

theorem State.closeStep_same {k : Part} {a s : State} {x1 x2 x3 x4}
    (hk : k ∉ [.reg 0x2402, .chans, .lane, .flight])
    (h : State.Same k a s) :
    State.Same k a (State.closeStep s x1 x2 x3 x4) := by
  unfold State.closeStep
  repeat' first
    | with_reducible assumption | exact notMem_of hk (by decide +kernel) | with_reducible apply State.wr_same
    | with_reducible apply State.setChan_same | with_reducible apply State.mail_same

theorem State.endRun_same {k : Part} {a s : State} {x1 x2}
    (hk : k ∉ [.reg 0x2402, .reg 0x2444, .chans, .slots])
    (h : State.Same k a s) :
    State.Same k a (State.endRun s x1 x2) := by
  unfold State.endRun
  repeat' first
    | with_reducible assumption | exact notMem_of hk (by decide +kernel) | with_reducible apply State.setChan_same
    | with_reducible apply State.setWord4_same | with_reducible apply State.wr_same

theorem State.endByLatch_same {k : Part} {a s : State} {x1}
    (hk : k ∉ [.reg 0x2402, .reg 0x2444, .chans, .slots, .lane, .flight])
    (h : State.Same k a s) :
    State.Same k a (State.endByLatch s x1) := by
  unfold State.endByLatch
  repeat' first
    | with_reducible assumption | exact notMem_of hk (by decide +kernel) | with_reducible apply State.closeStep_same
    | with_reducible apply State.wr_same | with_reducible apply State.endRun_same | split

theorem State.latchOne_same {k : Part} {a s : State} {x1 x2 x3 x4}
    (hk : k ∉ [.reg 0x2402, .reg 0x2444, .reg 0x6000, .reg 0x6010, .chans, .units, .slots, .engines, .dies, .trail,
    .lane, .flight])
    (h : State.Same k a s) :
    State.Same k a (State.latchOne s x1 x2 x3 x4) := by
  unfold State.latchOne
  try lift_lets -underBinder
  repeat' first
    | with_reducible assumption | exact notMem_of hk (by decide +kernel)
    | (intro x
       first
         | (refine same_of (a := a) (k := k) x ?_ fun _ => ?_
            unfold x
            try lift_lets -underBinder
            rotate_left
            clear_value x)
         | clear_value x
         | skip)
    | lift_lets -underBinder | with_reducible apply State.setChan_same | with_reducible apply State.wr_same
    | with_reducible apply State.gatesOff_same | with_reducible apply State.inc_same
    | with_reducible apply State.raise_same | with_reducible apply State.endByLatch_same
    | with_reducible apply State.dropJobs_same | (split <;> try lift_lets -underBinder)

theorem State.latchChans_same {k : Part} {a s : State} {x1 x2 x3 x4}
    (hk : k ∉ [.reg 0x2402, .reg 0x2444, .reg 0x2810, .reg 0x6000, .reg 0x6010, .chans, .units, .slots, .engines,
    .dies, .trail, .lane, .flight])
    (h : State.Same k a s) :
    State.Same k a (State.latchChans s x1 x2 x3 x4) := by
  unfold State.latchChans
  try lift_lets -underBinder
  repeat' first
    | with_reducible assumption | exact notMem_of hk (by decide +kernel)
    | (intro x
       first
         | (refine same_of (a := a) (k := k) x ?_ fun _ => ?_
            unfold x
            try lift_lets -underBinder
            rotate_left
            clear_value x)
         | clear_value x
         | skip)
    | lift_lets -underBinder | with_reducible apply each_same | with_reducible apply State.latchOne_same
    | with_reducible apply State.wr_same | (split <;> try lift_lets -underBinder)

theorem State.latchNew_same {k : Part} {a s : State} {x1 x2 x3}
    (hk : k ∉ [.reg 0x2402, .reg 0x2444, .reg 0x2810, .reg 0x6000, .reg 0x6010, .chans, .units, .slots, .engines,
    .dies, .trail, .lane, .flight])
    (h : State.Same k a s) :
    State.Same k a (State.latchNew s x1 x2 x3) := by
  unfold State.latchNew
  repeat' first
    | with_reducible assumption | exact notMem_of hk (by decide +kernel) | with_reducible apply State.latchChans_same
    | with_reducible apply State.openCorr_same

theorem State.latchDab_same {k : Part} {a s : State} {x1 x2 x3 x4 x5}
    (hk : k ∉ [.reg 0x3101, .reg 0x6000, .reg 0x6012, .units, .engines, .dies, .trail])
    (h : State.Same k a s) :
    State.Same k a (State.latchDab s x1 x2 x3 x4 x5) := by
  unfold State.latchDab
  try lift_lets -underBinder
  repeat' first
    | with_reducible assumption | exact notMem_of hk (by decide +kernel)
    | (intro x
       first
         | (refine same_of (a := a) (k := k) x ?_ fun _ => ?_
            unfold x
            try lift_lets -underBinder
            rotate_left
            clear_value x)
         | clear_value x
         | skip)
    | lift_lets -underBinder | with_reducible apply State.setDie_same | with_reducible apply State.setUnit_same
    | with_reducible apply State.wr_same | with_reducible apply State.raise_same
    | with_reducible apply State.raiseFrame_same | with_reducible apply State.dropJobs_same
    | (split <;> try lift_lets -underBinder)

theorem State.wakeDie_same {k : Part} {a s : State} {x1 x2}
    (hk : k ∉ [.reg 0x1200, .reg 0x1210, .reg 0x3101, .units, .dies])
    (h : State.Same k a s) :
    State.Same k a (State.wakeDie s x1 x2) := by
  unfold State.wakeDie
  try lift_lets -underBinder
  repeat' first
    | with_reducible assumption | exact notMem_of hk (by decide +kernel)
    | (intro x
       first
         | (refine same_of (a := a) (k := k) x ?_ fun _ => ?_
            unfold x
            try lift_lets -underBinder
            rotate_left
            clear_value x)
         | clear_value x
         | skip)
    | lift_lets -underBinder | with_reducible apply State.setDie_same | with_reducible apply State.wr_same
    | with_reducible apply each_same | with_reducible apply State.setUnit_same
    | (split <;> try lift_lets -underBinder)

theorem State.touch_same {k : Part} {a s : State} {x1}
    (hk : k ∉ [.reg 0x1200, .reg 0x1210, .reg 0x3101, .units, .dies])
    (h : State.Same k a s) :
    State.Same k a (State.touch s x1) := by
  unfold State.touch
  repeat' first
    | with_reducible assumption | exact notMem_of hk (by decide +kernel) | with_reducible apply State.wakeDie_same
    | split

theorem State.setSession_same {k : Part} {a s : State} {x1}
    (hk : k ∉ [.net])
    (h : State.Same k a s) :
    State.Same k a (State.setSession s x1) := by
  unfold State.setSession
  repeat' first
    | with_reducible assumption | exact notMem_of hk (by decide +kernel) | with_reducible apply same_net

theorem State.sendRaw_same {k : Part} {a s : State} {x1}
    (hk : k ∉ [.net])
    (h : State.Same k a s) :
    State.Same k a (State.sendRaw s x1) := by
  unfold State.sendRaw
  repeat' first
    | with_reducible assumption | exact notMem_of hk (by decide +kernel) | with_reducible apply same_net

theorem State.send_same {k : Part} {a s : State} {x1}
    (hk : k ∉ [.net])
    (h : State.Same k a s) :
    State.Same k a (State.send s x1) := by
  unfold State.send
  repeat' first
    | with_reducible assumption | exact notMem_of hk (by decide +kernel) | with_reducible apply State.sendRaw_same

theorem State.clearOut_same {k : Part} {a s : State}
    (hk : k ∉ [.net])
    (h : State.Same k a s) :
    State.Same k a (State.clearOut s) := by
  unfold State.clearOut
  repeat' first
    | with_reducible assumption | exact notMem_of hk (by decide +kernel) | with_reducible apply same_net

theorem State.answer_same {k : Part} {a s : State} {x1 x2 x3 x4 x5 x6}
    (hk : k ∉ [.net])
    (h : State.Same k a s) :
    State.Same k a (State.answer s x1 x2 x3 x4 x5 x6) := by
  unfold State.answer
  repeat' first
    | with_reducible assumption | exact notMem_of hk (by decide +kernel) | with_reducible apply State.setSession_same
    | with_reducible apply State.send_same | split | with_reducible apply same_net

theorem Ans.outcome_same {k : Part} {a s : State} {x1 : Ans} (h : State.Same k a s) (hx : SameAns k a x1) :
    State.Same k a (x1.outcome s).1 := by
  unfold Ans.outcome
  split
  · exact hx.keep _ _ rfl
  · exact h

theorem State.executed_same {k : Part} {a s : State} {x1}
    (hk : k ∉ [.net])
    (h : State.Same k a s) :
    State.Same k a (State.executed s x1) := by
  unfold State.executed
  repeat' first
    | with_reducible assumption | exact notMem_of hk (by decide +kernel) | with_reducible apply State.setSession_same
    | split

theorem State.execute_same {k : Part} {a s : State} {x1 x2 x3 x4} {f : State → Outcome'} (hk : k ∉ [.net])
    (h : State.Same k a s) (hf : ∀ y, State.Same k a y → State.Same k a (f y).1) :
    State.Same k a (s.execute x1 x2 x3 x4 f) := by
  unfold State.execute
  have hy := hf s h
  split <;> rename_i e <;> rw [e] at hy
  · split
    · apply State.executed_same hk
      exact same_net hk hy
    · exact State.answer_same hk hy
  · exact State.answer_same hk hy

theorem State.hear_same {k : Part} {a s : State} {x1}
    (hk : k ∉ [.net])
    (h : State.Same k a s) :
    State.Same k a (State.hear s x1) := by
  unfold State.hear
  repeat' first
    | with_reducible assumption | exact notMem_of hk (by decide +kernel) | with_reducible apply State.setSession_same
    | split

theorem State.unserved_same {k : Part} {a s : State} {x1}
    (hk : k ∉ [.reg 0x1310, .net])
    (h : State.Same k a s) :
    State.Same k a (State.unserved s x1) := by
  unfold State.unserved
  repeat' first
    | with_reducible assumption | exact notMem_of hk (by decide +kernel) | with_reducible apply State.inc_same
    | with_reducible apply State.send_same | split

theorem State.serveWith_same {k : Part} {a s : State} {x1 x2 x3 x4} {f : State → Outcome'}
    (hk : k ∉ [.reg 0x1310, .net]) (h : State.Same k a s) (hf : ∀ y, State.Same k a y → State.Same k a (f y).1) :
    State.Same k a (s.serveWith x1 x2 x3 x4 f) := by
  have hn : k ∉ [.net] := notMem_of hk (by decide +kernel)
  unfold State.serveWith
  extract_lets c
  have hc : State.Same k a c := State.clearOut_same hn h
  clear_value c
  repeat' split
  · exact State.execute_same hn (State.hear_same hn hc) hf
  · exact State.unserved_same hk (State.hear_same hn hc)
  · exact hc

theorem State.serve_same {k : Part} {a s : State} {x1 x2 x3 x4} {f : State → Ans} (hk : k ∉ [.reg 0x1310, .net])
    (h : State.Same k a s) (hf : ∀ y, State.Same k a y → SameAns k a (f y)) :
    State.Same k a (s.serve x1 x2 x3 x4 f) :=
  State.serveWith_same hk h fun y hy => Ans.outcome_same hy (hf y hy)

theorem State.writeObj_same {k : Part} {a s : State} {x1 x2 x3 x4 x5 own} {eff : State → Nat → State}
    (hk : k ∉ [.reg 0x1200, .reg 0x1210, .reg 0x1310, .reg 0x3101, .units, .dies, .net])
    (h : State.Same k a s) (hf : ∀ y e, State.Same k a y → State.Same k a (eff y e)) :
    State.Same k a (s.writeObj x1 x2 x3 x4 x5 own eff) := by
  unfold State.writeObj
  refine State.serve_same (notMem_of hk (by decide +kernel)) h fun y hy => ?_
  split
  · exact sameAns_error
  · exact done_same (each_same hy fun z e hz => hf _ e (State.touch_same (notMem_of hk (by decide +kernel)) hz))

theorem State.writeBlob_same {k : Part} {a s : State} {x1 x2 x3 x4 x5 own} {eff : State → Nat → State}
    (hk : k ∉ [.reg 0x1200, .reg 0x1210, .reg 0x1310, .reg 0x3101, .units, .dies, .net])
    (h : State.Same k a s) (hf : ∀ y e, State.Same k a y → State.Same k a (eff y e)) :
    State.Same k a (s.writeBlob x1 x2 x3 x4 x5 own eff) := by
  unfold State.writeBlob
  refine State.serve_same (notMem_of hk (by decide +kernel)) h fun y hy => ?_
  split
  · exact sameAns_error
  · exact done_same (each_same hy fun z e hz => hf _ e (State.touch_same (notMem_of hk (by decide +kernel)) hz))

end Sys2Proof.Machine
end

