-- ==== Sys2Proof/Laws/FrameStage.lean ====
section
/-! SUPPORT. Which parts of the state the operations of the power stage, pulses and admission can change: one lemma for each. -/

namespace Sys2Proof.Machine

set_option Elab.async false

set_option linter.unreachableTactic false
set_option linter.unusedTactic false

theorem State.actSource_same {k : Part} {a s : State} {x1 x2 x3}
    (hk : k ∉ [.reg 0x2402, .reg 0x2444, .reg 0x2810, .reg 0x3101, .reg 0x6000, .reg 0x6010, .reg 0x6012, .chans,
    .units, .slots, .engines, .dies, .trail, .lane, .flight])
    (h : State.Same k a s) :
    State.Same k a (State.actSource s x1 x2 x3) := by
  unfold State.actSource
  try lift_lets -underBinder
  repeat' first
    | with_reducible assumption | exact notMem_of hk (by decide +kernel)
    | (intro x
       first
         | (refine same_of (a := a) (k := k) x ?_ fun _ => ?_
            unfold x
            try lift_lets -underBinder
            rotate_left
            clear_value x)
         | clear_value x
         | skip)
    | lift_lets -underBinder | with_reducible apply State.latchChans_same | with_reducible apply each_same
    | with_reducible apply State.latchDab_same | (split <;> try lift_lets -underBinder)

theorem State.assertSource_same {k : Part} {a s : State} {x1 x2 x3}
    (hk : k ∉ [.reg 0x2402, .reg 0x2444, .reg 0x2803, .reg 0x2810, .reg 0x3101, .reg 0x6000, .reg 0x6010, .reg 0x6012,
    .chans, .units, .slots, .engines, .dies, .trail, .lane, .flight])
    (h : State.Same k a s) :
    State.Same k a (State.assertSource s x1 x2 x3) := by
  unfold State.assertSource
  repeat' first
    | with_reducible assumption | exact notMem_of hk (by decide +kernel) | with_reducible apply State.actSource_same
    | with_reducible apply State.wr_same

theorem State.deassertSource_same {k : Part} {a s : State} {x1 x2}
    (hk : k ∉ [.reg 0x2803])
    (h : State.Same k a s) :
    State.Same k a (State.deassertSource s x1 x2) := by
  unfold State.deassertSource
  repeat' first
    | with_reducible assumption | exact notMem_of hk (by decide +kernel) | with_reducible apply State.wr_same

theorem State.standingSources_same {k : Part} {a s : State} {x1}
    (hk : k ∉ [.reg 0x2402, .reg 0x2444, .reg 0x2810, .reg 0x3101, .reg 0x6000, .reg 0x6010, .reg 0x6012, .chans,
    .units, .slots, .engines, .dies, .trail, .lane, .flight])
    (h : State.Same k a s) :
    State.Same k a (State.standingSources s x1) := by
  unfold State.standingSources
  try lift_lets -underBinder
  repeat' first
    | with_reducible assumption | exact notMem_of hk (by decide +kernel)
    | (intro x
       first
         | (refine same_of (a := a) (k := k) x ?_ fun _ => ?_
            unfold x
            try lift_lets -underBinder
            rotate_left
            clear_value x)
         | clear_value x
         | skip)
    | lift_lets -underBinder | with_reducible apply each_same | with_reducible apply State.latchDab_same
    | with_reducible apply State.latchChans_same | with_reducible apply State.openCorr_same
    | (split <;> try lift_lets -underBinder)

theorem State.slicesLow_same {k : Part} {a s : State} {x1}
    (hk : k ∉ [.chans])
    (h : State.Same k a s) :
    State.Same k a (State.slicesLow s x1) := by
  unfold State.slicesLow
  try lift_lets -underBinder
  repeat' first
    | with_reducible assumption | exact notMem_of hk (by decide +kernel)
    | (intro x
       first
         | (refine same_of (a := a) (k := k) x ?_ fun _ => ?_
            unfold x
            try lift_lets -underBinder
            rotate_left
            clear_value x)
         | clear_value x
         | skip)
    | lift_lets -underBinder | with_reducible apply each_same | with_reducible apply State.sliceOff_same
    | (split <;> try lift_lets -underBinder)

theorem State.vdrvNote_same {k : Part} {a s : State} {x1 x2}
    (hk : k ∉ [.reg 0x1220, .reg 0x6000, .dies, .trail])
    (h : State.Same k a s) :
    State.Same k a (State.vdrvNote s x1 x2) := by
  unfold State.vdrvNote
  repeat' first
    | with_reducible assumption | exact notMem_of hk (by decide +kernel) | with_reducible apply State.supplyNote_same
    | split

theorem State.takeLeg_same {k : Part} {a s : State} {x1 x2 x3}
    (hk : k ∉ [.chans])
    (h : State.Same k a s) :
    State.Same k a (State.takeLeg s x1 x2 x3) := by
  unfold State.takeLeg
  repeat' first
    | with_reducible assumption | exact notMem_of hk (by decide +kernel) | with_reducible apply State.setChan_same

theorem State.refuseWord_same {k : Part} {a s : State} {x1 x2}
    (hk : k ∉ [.reg 0x2402, .reg 0x2444, .reg 0x2810, .reg 0x2811, .reg 0x6000, .reg 0x6010, .chans, .units, .slots,
    .engines, .dies, .trail, .lane, .flight])
    (h : State.Same k a s) :
    State.Same k a (State.refuseWord s x1 x2) := by
  unfold State.refuseWord
  try lift_lets -underBinder
  repeat' first
    | with_reducible assumption | exact notMem_of hk (by decide +kernel)
    | (intro x
       first
         | (refine same_of (a := a) (k := k) x ?_ fun _ => ?_
            unfold x
            try lift_lets -underBinder
            rotate_left
            clear_value x)
         | clear_value x
         | skip)
    | lift_lets -underBinder | with_reducible apply State.sliceOff_same | with_reducible apply State.setChan_same
    | with_reducible apply State.wr_same | with_reducible apply State.inc_same
    | with_reducible apply State.raise_same | with_reducible apply State.openCorr_same
    | with_reducible apply State.latchChans_same | (split <;> try lift_lets -underBinder)

theorem State.laneTake_same {k : Part} {a s : State} {x1 x2}
    (hk : k ∉ [.adcs])
    (h : State.Same k a s) :
    State.Same k a (State.laneTake s x1 x2) := by
  unfold State.laneTake
  try lift_lets -underBinder
  repeat' first
    | with_reducible assumption | exact notMem_of hk (by decide +kernel)
    | (intro x
       first
         | (refine same_of (a := a) (k := k) x ?_ fun _ => ?_
            unfold x
            try lift_lets -underBinder
            rotate_left
            clear_value x)
         | clear_value x
         | skip)
    | lift_lets -underBinder | with_reducible apply State.setAdc_same | (split <;> try lift_lets -underBinder)

theorem State.receiveWord_same {k : Part} {a s : State} {x1 x2}
    (hk : k ∉ [.reg 0x2402, .reg 0x2444, .reg 0x2810, .reg 0x2811, .reg 0x6000, .reg 0x6010, .chans, .units, .slots,
    .engines, .dies, .adcs, .trail, .lane, .flight])
    (h : State.Same k a s) :
    State.Same k a (State.receiveWord s x1 x2) := by
  unfold State.receiveWord
  try lift_lets -underBinder
  repeat' first
    | with_reducible assumption | exact notMem_of hk (by decide +kernel)
    | (intro x
       first
         | (refine same_of (a := a) (k := k) x ?_ fun _ => ?_
            unfold x
            try lift_lets -underBinder
            rotate_left
            clear_value x)
         | clear_value x
         | skip)
    | lift_lets -underBinder | with_reducible apply State.laneTake_same | with_reducible apply State.refuseWord_same
    | with_reducible apply State.setChan_same | (split <;> try lift_lets -underBinder)

theorem State.segmentBusFault_same {k : Part} {a s : State} {x1 x2 x3 x4 x5}
    (hk : k ∉ [.reg 0x2402, .reg 0x2444, .reg 0x2801, .reg 0x3101, .reg 0x6000, .reg 0x6010, .reg 0x6012, .chans,
    .units, .slots, .engines, .dies, .trail, .lane, .flight])
    (h : State.Same k a s) :
    State.Same k a (State.segmentBusFault s x1 x2 x3 x4 x5) := by
  unfold State.segmentBusFault
  try lift_lets -underBinder
  repeat' first
    | with_reducible assumption | exact notMem_of hk (by decide +kernel)
    | (intro x
       first
         | (refine same_of (a := a) (k := k) x ?_ fun _ => ?_
            unfold x
            try lift_lets -underBinder
            rotate_left
            clear_value x)
         | clear_value x
         | skip)
    | lift_lets -underBinder | with_reducible apply State.wr_same | with_reducible apply State.setDie_same
    | with_reducible apply State.inc_same | with_reducible apply each_same | with_reducible apply State.latchOne_same
    | with_reducible apply State.latchDab_same | with_reducible apply State.raise_same
    | with_reducible apply State.raiseFrame_same | (split <;> try lift_lets -underBinder)

theorem State.checkSegmentBus_same {k : Part} {a s : State} {x1 x2}
    (hk : k ∉ [.reg 0x2402, .reg 0x2444, .reg 0x2801, .reg 0x3101, .reg 0x6000, .reg 0x6010, .reg 0x6012, .chans,
    .units, .slots, .engines, .dies, .trail, .lane, .flight])
    (h : State.Same k a s) :
    State.Same k a (State.checkSegmentBus s x1 x2) := by
  unfold State.checkSegmentBus
  try lift_lets -underBinder
  repeat' first
    | with_reducible assumption | exact notMem_of hk (by decide +kernel)
    | (intro x
       first
         | (refine same_of (a := a) (k := k) x ?_ fun _ => ?_
            unfold x
            try lift_lets -underBinder
            rotate_left
            clear_value x)
         | clear_value x
         | skip)
    | lift_lets -underBinder | with_reducible apply State.setDie_same
    | with_reducible apply State.segmentBusFault_same | (split <;> try lift_lets -underBinder)

theorem State.trip_same {k : Part} {a s : State} {x1 x2}
    (hk : k ∉ [.reg 0x1200, .reg 0x1210, .reg 0x2402, .reg 0x2444, .reg 0x2801, .reg 0x2810, .reg 0x3101, .reg 0x6000,
    .reg 0x6010, .reg 0x6012, .chans, .units, .slots, .engines, .dies, .trail, .lane, .flight])
    (h : State.Same k a s) :
    State.Same k a (State.trip s x1 x2) := by
  unfold State.trip
  try lift_lets -underBinder
  repeat' first
    | with_reducible assumption | exact notMem_of hk (by decide +kernel)
    | (intro x
       first
         | (refine same_of (a := a) (k := k) x ?_ fun _ => ?_
            unfold x
            try lift_lets -underBinder
            rotate_left
            clear_value x)
         | clear_value x
         | skip)
    | lift_lets -underBinder | with_reducible apply State.wr_same | with_reducible apply State.inc_same
    | with_reducible apply State.openCorr_same | with_reducible apply State.latchChans_same
    | with_reducible apply State.wakeDie_same | with_reducible apply State.checkSegmentBus_same
    | (split <;> try lift_lets -underBinder)

theorem State.sawShunt_same {k : Part} {a s : State} {x1 x2}
    (hk : k ∉ [.chans])
    (h : State.Same k a s) :
    State.Same k a (State.sawShunt s x1 x2) := by
  unfold State.sawShunt
  repeat' first
    | with_reducible assumption | exact notMem_of hk (by decide +kernel) | with_reducible apply State.setChan_same

theorem State.sawDie_same {k : Part} {a s : State} {x1 x2 x3 x4}
    (hk : k ∉ [.reg 0x3105, .reg 0x3106])
    (h : State.Same k a s) :
    State.Same k a (State.sawDie s x1 x2 x3 x4) := by
  unfold State.sawDie
  repeat' first
    | with_reducible assumption | exact notMem_of hk (by decide +kernel) | with_reducible apply State.wr_same | split

theorem State.settlePins_same {k : Part} {a s : State}
    (hk : k ∉ [.units])
    (h : State.Same k a s) :
    State.Same k a (State.settlePins s) := by
  unfold State.settlePins
  repeat' first
    | with_reducible assumption | exact notMem_of hk (by decide +kernel) | with_reducible apply same_units

theorem State.emit_same {k : Part} {a s : State} {x1 x2 x3 x4}
    (hk : k ∉ [.adcs])
    (h : State.Same k a s) :
    State.Same k a (State.emit s x1 x2 x3 x4) := by
  unfold State.emit
  repeat' first
    | with_reducible assumption | exact notMem_of hk (by decide +kernel) | with_reducible apply State.setAdc_same

theorem State.drivePins_same {k : Part} {a s : State} {x1 x2 x3 x4}
    (hk : k ∉ [.units, .adcs])
    (h : State.Same k a s) :
    State.Same k a (State.drivePins s x1 x2 x3 x4) := by
  unfold State.drivePins
  repeat' first
    | with_reducible assumption | exact notMem_of hk (by decide +kernel) | with_reducible apply State.emit_same
    | with_reducible apply State.setUnit_same | split

theorem State.askNow_same {k : Part} {a s : State} {x1 x2}
    (hk : k ∉ [.units])
    (h : State.Same k a s) :
    State.Same k a (State.askNow s x1 x2) := by
  unfold State.askNow
  repeat' first
    | with_reducible assumption | exact notMem_of hk (by decide +kernel) | with_reducible apply State.setUnit_same

theorem State.holdPin_same {k : Part} {a s : State} {x1 x2}
    (hk : k ∉ [.units])
    (h : State.Same k a s) :
    State.Same k a (State.holdPin s x1 x2) := by
  unfold State.holdPin
  try lift_lets -underBinder
  repeat' first
    | with_reducible assumption | exact notMem_of hk (by decide +kernel)
    | (intro x
       first
         | (refine same_of (a := a) (k := k) x ?_ fun _ => ?_
            unfold x
            try lift_lets -underBinder
            rotate_left
            clear_value x)
         | clear_value x
         | skip)
    | lift_lets -underBinder | with_reducible apply State.setUnit_same | (split <;> try lift_lets -underBinder)

theorem State.commitUnit_same {k : Part} {a s : State} {x1 x2}
    (hk : k ∉ [.units])
    (h : State.Same k a s) :
    State.Same k a (State.commitUnit s x1 x2) := by
  unfold State.commitUnit
  repeat' first
    | with_reducible assumption | exact notMem_of hk (by decide +kernel) | with_reducible apply State.setUnit_same

theorem stageSet_same {k : Part} {a s : State} {x1 x2 x3}
    (hk : k ∉ [.units])
    (h : State.Same k a s) :
    State.Same k a (stageSet x1 x2 s x3) := by
  unfold stageSet
  repeat' first
    | with_reducible assumption | exact notMem_of hk (by decide +kernel) | with_reducible apply State.setUnit_same

theorem commitSet_same {k : Part} {a s : State} {x1}
    (hk : k ∉ [.units])
    (h : State.Same k a s) :
    State.Same k a (commitSet s x1) := by
  unfold commitSet
  repeat' first
    | with_reducible assumption | exact notMem_of hk (by decide +kernel) | with_reducible apply State.commitUnit_same

theorem State.startUnit_same {k : Part} {a s : State} {x1 x2}
    (hk : k ∉ [.units])
    (h : State.Same k a s) :
    State.Same k a (State.startUnit s x1 x2) := by
  unfold State.startUnit
  try lift_lets -underBinder
  repeat' first
    | with_reducible assumption | exact notMem_of hk (by decide +kernel)
    | (intro x
       first
         | (refine same_of (a := a) (k := k) x ?_ fun _ => ?_
            unfold x
            try lift_lets -underBinder
            rotate_left
            clear_value x)
         | clear_value x
         | skip)
    | lift_lets -underBinder | with_reducible apply State.setUnit_same | (split <;> try lift_lets -underBinder)

theorem State.stopUnit_same {k : Part} {a s : State} {x1 x2}
    (hk : k ∉ [.units])
    (h : State.Same k a s) :
    State.Same k a (State.stopUnit s x1 x2) := by
  unfold State.stopUnit
  try lift_lets -underBinder
  repeat' first
    | with_reducible assumption | exact notMem_of hk (by decide +kernel)
    | (intro x
       first
         | (refine same_of (a := a) (k := k) x ?_ fun _ => ?_
            unfold x
            try lift_lets -underBinder
            rotate_left
            clear_value x)
         | clear_value x
         | skip)
    | lift_lets -underBinder | with_reducible apply State.setUnit_same | (split <;> try lift_lets -underBinder)

theorem State.endPeriod_same {k : Part} {a s : State} {x1 x2}
    (hk : k ∉ [.reg 0x2833, .chans, .units])
    (h : State.Same k a s) :
    State.Same k a (State.endPeriod s x1 x2) := by
  unfold State.endPeriod
  repeat' first
    | with_reducible assumption | exact notMem_of hk (by decide +kernel) | with_reducible apply State.setUnit_same
    | with_reducible apply State.wr_same | with_reducible apply State.setChan_same | split

theorem State.noteClip_same {k : Part} {a s : State} {x1 x2 x3}
    (hk : k ∉ [.reg 0x2833])
    (h : State.Same k a s) :
    State.Same k a (State.noteClip s x1 x2 x3) := by
  unfold State.noteClip
  repeat' first
    | with_reducible assumption | exact notMem_of hk (by decide +kernel) | with_reducible apply State.inc_same
    | with_reducible apply State.wr_same | split

theorem State.beginPeriod_same {k : Part} {a s : State} {x1 x2 x3 x4}
    (hk : k ∉ [.reg 0x2833, .units])
    (h : State.Same k a s) :
    State.Same k a (State.beginPeriod s x1 x2 x3 x4) := by
  unfold State.beginPeriod
  try lift_lets -underBinder
  repeat' first
    | with_reducible assumption | exact notMem_of hk (by decide +kernel)
    | (intro x
       first
         | (refine same_of (a := a) (k := k) x ?_ fun _ => ?_
            unfold x
            try lift_lets -underBinder
            rotate_left
            clear_value x)
         | clear_value x
         | skip)
    | lift_lets -underBinder | with_reducible apply State.noteClip_same | with_reducible apply State.setUnit_same
    | (split <;> try lift_lets -underBinder)

theorem State.bump_same {k : Part} {a s : State} {x1 x2 x3}
    (hk : k ∉ [.reg 0x2833])
    (h : State.Same k a s) :
    State.Same k a (State.bump s x1 x2 x3) := by
  unfold State.bump
  repeat' first
    | with_reducible assumption | exact notMem_of hk (by decide +kernel) | with_reducible apply State.inc_same
    | split

theorem State.place_same {k : Part} {a s : State} {x1 x2 x3 x4 x5}
    (hk : k ∉ [.reg 0x2833, .units, .adcs])
    (h : State.Same k a s) :
    State.Same k a (State.place s x1 x2 x3 x4 x5) := by
  unfold State.place
  repeat' first
    | with_reducible assumption | exact notMem_of hk (by decide +kernel) | with_reducible apply State.drivePins_same
    | with_reducible apply State.bump_same | with_reducible apply State.setUnit_same | split

theorem State.holdGap_same {k : Part} {a s : State} {x1 x2}
    (hk : k ∉ [.reg 0x2833, .units])
    (h : State.Same k a s) :
    State.Same k a (State.holdGap s x1 x2) := by
  unfold State.holdGap
  repeat' first
    | with_reducible assumption | exact notMem_of hk (by decide +kernel) | with_reducible apply State.bump_same
    | with_reducible apply State.setUnit_same

theorem State.decideRise_same {k : Part} {a s : State} {x1 x2 x3}
    (hk : k ∉ [.reg 0x2833, .units, .adcs])
    (h : State.Same k a s) :
    State.Same k a (State.decideRise s x1 x2 x3) := by
  unfold State.decideRise
  try lift_lets -underBinder
  repeat' first
    | with_reducible assumption | exact notMem_of hk (by decide +kernel)
    | (intro x
       first
         | (refine same_of (a := a) (k := k) x ?_ fun _ => ?_
            unfold x
            try lift_lets -underBinder
            rotate_left
            clear_value x)
         | clear_value x
         | skip)
    | lift_lets -underBinder | with_reducible apply State.setUnit_same | with_reducible apply State.bump_same
    | with_reducible apply State.place_same | (split <;> try lift_lets -underBinder)

theorem State.decideFall_same {k : Part} {a s : State} {x1 x2 x3}
    (hk : k ∉ [.reg 0x2833, .units, .adcs])
    (h : State.Same k a s) :
    State.Same k a (State.decideFall s x1 x2 x3) := by
  unfold State.decideFall
  try lift_lets -underBinder
  repeat' first
    | with_reducible assumption | exact notMem_of hk (by decide +kernel)
    | (intro x
       first
         | (refine same_of (a := a) (k := k) x ?_ fun _ => ?_
            unfold x
            try lift_lets -underBinder
            rotate_left
            clear_value x)
         | clear_value x
         | skip)
    | lift_lets -underBinder | with_reducible apply State.holdGap_same | with_reducible apply State.place_same
    | (split <;> try lift_lets -underBinder)

theorem State.decideMid_same {k : Part} {a s : State} {x1 x2 x3}
    (hk : k ∉ [.reg 0x2833, .units, .adcs])
    (h : State.Same k a s) :
    State.Same k a (State.decideMid s x1 x2 x3) := by
  unfold State.decideMid
  try lift_lets -underBinder
  repeat' first
    | with_reducible assumption | exact notMem_of hk (by decide +kernel)
    | (intro x
       first
         | (refine same_of (a := a) (k := k) x ?_ fun _ => ?_
            unfold x
            try lift_lets -underBinder
            rotate_left
            clear_value x)
         | clear_value x
         | skip)
    | lift_lets -underBinder | with_reducible apply State.setUnit_same | with_reducible apply State.bump_same
    | with_reducible apply State.place_same | with_reducible apply State.holdGap_same
    | (split <;> try lift_lets -underBinder)

theorem State.decideBound_same {k : Part} {a s : State} {x1 x2 x3}
    (hk : k ∉ [.reg 0x2833, .units, .adcs])
    (h : State.Same k a s) : State.Same k a (s.decideBound x1 x2 x3) := by
  unfold State.decideBound
  extract_lets x m stay
  have hs : ∀ y, State.Same k a y → State.Same k a (stay y) := fun y hy => State.drivePins_same (notMem_of hk (by decide +kernel)) hy
  clear_value stay
  repeat' split
  all_goals first
    | exact State.place_same (notMem_of hk (by decide +kernel)) h
    | exact hs _ h
    | exact hs _ (State.setUnit_same (notMem_of hk (by decide +kernel)) h)
    | exact hs _ (State.holdGap_same (notMem_of hk (by decide +kernel)) h)
    | exact hs _ (State.bump_same (notMem_of hk (by decide +kernel)) h)

theorem State.decideStop_same {k : Part} {a s : State} {x1 x2 x3}
    (hk : k ∉ [.units, .adcs])
    (h : State.Same k a s) :
    State.Same k a (State.decideStop s x1 x2 x3) := by
  unfold State.decideStop
  repeat' first
    | with_reducible assumption | exact notMem_of hk (by decide +kernel) | with_reducible apply State.emit_same
    | with_reducible apply State.setUnit_same | split

theorem State.decideStart_same {k : Part} {a s : State} {x1 x2 x3}
    (hk : k ∉ [.reg 0x2833, .units, .adcs])
    (h : State.Same k a s) :
    State.Same k a (State.decideStart s x1 x2 x3) := by
  unfold State.decideStart
  repeat' first
    | with_reducible assumption | exact notMem_of hk (by decide +kernel) | with_reducible apply State.bump_same
    | with_reducible apply State.drivePins_same | with_reducible apply State.setUnit_same | split

theorem State.decideEdge_same {k : Part} {a s : State} {x1 x2 x3}
    (hk : k ∉ [.reg 0x2833, .units, .adcs])
    (h : State.Same k a s) :
    State.Same k a (State.decideEdge s x1 x2 x3) := by
  unfold State.decideEdge
  repeat' first
    | with_reducible assumption | exact notMem_of hk (by decide +kernel) | with_reducible apply State.setUnit_same
    | with_reducible apply State.decideFall_same | with_reducible apply State.decideStop_same
    | with_reducible apply State.decideStart_same | with_reducible apply State.decideBound_same
    | with_reducible apply State.decideMid_same | with_reducible apply State.decideRise_same | split

theorem State.decideUpTo_same {k : Part} {a s : State} {x1 x2 x3 x4}
    (hk : k ∉ [.reg 0x2833, .units, .adcs])
    (h : State.Same k a s) : State.Same k a (s.decideUpTo x1 x2 x3 x4) := by
  induction x4 generalizing s with
  | zero => exact h
  | succ n ih =>
    unfold State.decideUpTo
    repeat' split
    · exact ih (State.decideEdge_same (notMem_of hk (by decide +kernel)) h)
    · exact h
    · exact h

theorem State.haltAtBoundary_same {k : Part} {a s : State} {x1 x2}
    (hk : k ∉ [.units])
    (h : State.Same k a s) :
    State.Same k a (State.haltAtBoundary s x1 x2) := by
  unfold State.haltAtBoundary
  repeat' first
    | with_reducible assumption | exact notMem_of hk (by decide +kernel) | with_reducible apply State.setUnit_same
    | split

theorem State.runBoundary_same {k : Part} {a s : State} {x1 x2}
    (hk : k ∉ [.reg 0x2833, .chans, .units, .adcs])
    (h : State.Same k a s) : State.Same k a (s.runBoundary x1 x2) := by
  unfold State.runBoundary
  extract_lets x y z w
  have hz : State.Same k a z :=
    State.endPeriod_same (notMem_of hk (by decide +kernel)) (State.decideUpTo_same (notMem_of hk (by decide +kernel)) h)
  clear_value z
  split
  · exact State.haltAtBoundary_same (notMem_of hk (by decide +kernel)) hz
  · exact State.beginPeriod_same (notMem_of hk (by decide +kernel)) (State.setUnit_same (notMem_of hk (by decide +kernel)) hz)

theorem State.startBoundary_same {k : Part} {a s : State} {x1 x2 x3}
    (hk : k ∉ [.reg 0x2402, .reg 0x2444, .reg 0x2810, .reg 0x2833, .reg 0x3101, .reg 0x6000, .reg 0x6010, .reg 0x6012,
    .chans, .units, .slots, .engines, .dies, .adcs, .trail, .lane, .flight])
    (h : State.Same k a s) :
    State.Same k a (State.startBoundary s x1 x2 x3) := by
  unfold State.startBoundary
  repeat' first
    | with_reducible assumption | exact notMem_of hk (by decide +kernel) | with_reducible apply State.decideUpTo_same
    | with_reducible apply State.setUnit_same | with_reducible apply State.beginPeriod_same
    | with_reducible apply State.standingSources_same | split

theorem State.mapSlices_same {k : Part} {a s : State} {x1 f}
    (hk : k ∉ [.chans])
    (h : State.Same k a s) : State.Same k a (s.mapSlices x1 f) := by
  unfold State.mapSlices
  split
  · exact h
  · exact each_same h fun _ _ hy => State.setChan_same hk hy

theorem State.retimeLanes_same {k : Part} {a s : State} {x1 x2}
    (hk : k ∉ [.adcs])
    (h : State.Same k a s) :
    State.Same k a (State.retimeLanes s x1 x2) := by
  unfold State.retimeLanes
  try lift_lets -underBinder
  repeat' first
    | with_reducible assumption | exact notMem_of hk (by decide +kernel)
    | (intro x
       first
         | (refine same_of (a := a) (k := k) x ?_ fun _ => ?_
            unfold x
            try lift_lets -underBinder
            rotate_left
            clear_value x)
         | clear_value x
         | skip)
    | lift_lets -underBinder | with_reducible apply each_same | with_reducible apply State.setAdc_same
    | (split <;> try lift_lets -underBinder)

theorem State.lowAtResume_same {k : Part} {a s : State}
    (hk : k ∉ [.units])
    (h : State.Same k a s) :
    State.Same k a (State.lowAtResume s) := by
  unfold State.lowAtResume
  try lift_lets -underBinder
  repeat' first
    | with_reducible assumption | exact notMem_of hk (by decide +kernel)
    | (intro x
       first
         | (refine same_of (a := a) (k := k) x ?_ fun _ => ?_
            unfold x
            try lift_lets -underBinder
            rotate_left
            clear_value x)
         | clear_value x
         | skip)
    | lift_lets -underBinder | with_reducible apply each_same | with_reducible apply State.setUnit_same
    | (split <;> try lift_lets -underBinder)

theorem State.placeSlots_same {k : Part} {a s : State} {x1 x2}
    (hk : k ∉ [.slots])
    (h : State.Same k a s) :
    State.Same k a (State.placeSlots s x1 x2) := by
  unfold State.placeSlots
  try lift_lets -underBinder
  repeat' first
    | with_reducible assumption | exact notMem_of hk (by decide +kernel)
    | (intro x
       first
         | (refine same_of (a := a) (k := k) x ?_ fun _ => ?_
            unfold x
            try lift_lets -underBinder
            rotate_left
            clear_value x)
         | clear_value x
         | skip)
    | lift_lets -underBinder | with_reducible apply each_same | with_reducible apply State.setSlot_same
    | (split <;> try lift_lets -underBinder)

theorem State.admitDie_same {k : Part} {a s : State} {x1 x2}
    (hk : k ∉ [.reg 0x2500, .slots, .dies])
    (h : State.Same k a s) :
    State.Same k a (State.admitDie s x1 x2) := by
  unfold State.admitDie
  repeat' first
    | with_reducible assumption | exact notMem_of hk (by decide +kernel) | with_reducible apply State.placeSlots_same
    | with_reducible apply State.wr_same | with_reducible apply State.setDie_same | split

theorem State.admitRestored_same {k : Part} {a s : State} {x1}
    (hk : k ∉ [.reg 0x2500, .reg 0x6000, .slots, .dies, .trail])
    (h : State.Same k a s) :
    State.Same k a (State.admitRestored s x1) := by
  unfold State.admitRestored
  try lift_lets -underBinder
  repeat' first
    | with_reducible assumption | exact notMem_of hk (by decide +kernel)
    | (intro x
       first
         | (refine same_of (a := a) (k := k) x ?_ fun _ => ?_
            unfold x
            try lift_lets -underBinder
            rotate_left
            clear_value x)
         | clear_value x
         | skip)
    | lift_lets -underBinder | with_reducible apply each_same | with_reducible apply State.setSlot_same
    | with_reducible apply State.admitDie_same | with_reducible apply State.wr_same
    | with_reducible apply State.setDie_same | with_reducible apply State.noteAt_same
    | (split <;> try lift_lets -underBinder)

theorem State.admitted_same {k : Part} {a s : State} {x1} {f : State → Ans}
    (hk : k ∉ [.reg 0x2500, .slots, .dies])
    (h : State.Same k a s) (hf : ∀ y, State.Same k a y → SameAns k a (f y)) : SameAns k a (s.admitted x1 f) := by
  unfold State.admitted
  split
  · exact sameAns_error
  · exact hf _ (each_same h fun y d hy => State.admitDie_same (notMem_of hk (by decide +kernel)) hy)

theorem State.replaceId_same {k : Part} {a s : State} {x1 x2 x3 x4 x5 x6 x7}
    (hr : k.isObj = false)
    (hk : k ∉ [.dies, .trail])
    (h : State.Same k a s) :
    State.Same k a (State.replaceId s x1 x2 x3 x4 x5 x6 x7) := by
  unfold State.replaceId
  try lift_lets -underBinder
  repeat' first
    | with_reducible assumption | with_reducible exact hr | exact notMem_any hr hk (by decide +kernel)
    | (intro x
       first
         | (refine same_of (a := a) (k := k) x ?_ fun _ => ?_
            unfold x
            try lift_lets -underBinder
            rotate_left
            clear_value x)
         | clear_value x
         | skip)
    | lift_lets -underBinder | with_reducible apply State.noteAt_same | with_reducible apply State.wr_field
    | with_reducible apply State.wr_same | (split <;> try lift_lets -underBinder)

theorem State.replaceIds_same {k : Part} {a s : State} {x1}
    (hr : k.isObj = false)
    (hk : k ∉ [.dies, .trail])
    (h : State.Same k a s) :
    State.Same k a (State.replaceIds s x1) := by
  unfold State.replaceIds
  try lift_lets -underBinder
  repeat' first
    | with_reducible assumption | with_reducible exact hr | exact notMem_any hr hk (by decide +kernel)
    | (intro x
       first
         | (refine same_of (a := a) (k := k) x ?_ fun _ => ?_
            unfold x
            try lift_lets -underBinder
            rotate_left
            clear_value x)
         | clear_value x
         | skip)
    | lift_lets -underBinder | with_reducible apply each_same | with_reducible apply State.replaceId_same
    | (split <;> try lift_lets -underBinder)

theorem State.loadTimeBases_same {k : Part} {a s : State}
    (hk : k ∉ [.clock, .dies])
    (h : State.Same k a s) :
    State.Same k a (State.loadTimeBases s) := by
  unfold State.loadTimeBases
  try lift_lets -underBinder
  repeat' first
    | with_reducible assumption | exact notMem_of hk (by decide +kernel)
    | (intro x
       first
         | (refine same_of (a := a) (k := k) x ?_ fun _ => ?_
            unfold x
            try lift_lets -underBinder
            rotate_left
            clear_value x)
         | clear_value x
         | skip)
    | lift_lets -underBinder | with_reducible apply each_same | with_reducible apply State.setDie_same
    | (split <;> try lift_lets -underBinder) | with_reducible apply same_clock

theorem State.leaveStandby_same {k : Part} {a s : State}
    (hk : k ∉ [.reg 0x1200, .reg 0x2500, .reg 0x6000, .clock, .slots, .dies, .trail, .standbyDue])
    (h : State.Same k a s) :
    State.Same k a (State.leaveStandby s) := by
  unfold State.leaveStandby
  try lift_lets -underBinder
  repeat' first
    | with_reducible assumption | exact notMem_of hk (by decide +kernel)
    | (intro x
       first
         | (refine same_of (a := a) (k := k) x ?_ fun _ => ?_
            unfold x
            try lift_lets -underBinder
            rotate_left
            clear_value x)
         | clear_value x
         | skip)
    | lift_lets -underBinder | with_reducible apply each_same | with_reducible apply State.setDie_same
    | with_reducible apply State.wr_same | with_reducible apply State.loadTimeBases_same
    | with_reducible apply State.admitRestored_same | (split <;> try lift_lets -underBinder)
    | with_reducible apply same_clock | with_reducible apply same_standbyDue

end Sys2Proof.Machine
end

