-- ==== Sys2Proof/Laws/FrameRun.lean ====
section
/-! SUPPORT. Which parts of the state the operations of recipes, contact checks, micro-ops and the control law can change: one lemma for each. -/

namespace Sys2Proof.Machine

set_option Elab.async false

set_option linter.unreachableTactic false
set_option linter.unusedTactic false

theorem State.setRun_same {k : Part} {a s : State} {x1 x2}
    (hk : k ∉ [.reg 0x2402])
    (h : State.Same k a s) :
    State.Same k a (State.setRun s x1 x2) := by
  unfold State.setRun
  try lift_lets -underBinder
  repeat' first
    | with_reducible assumption | exact notMem_of hk (by decide +kernel)
    | (intro x
       first
         | (refine same_of (a := a) (k := k) x ?_ fun _ => ?_
            unfold x
            try lift_lets -underBinder
            rotate_left
            clear_value x)
         | clear_value x
         | skip)
    | lift_lets -underBinder | with_reducible apply each_same | with_reducible apply State.wr_same
    | (split <;> try lift_lets -underBinder)

theorem State.setRunSt_same {k : Part} {a s : State} {x1 x2}
    (hk : k ∉ [.chans])
    (h : State.Same k a s) :
    State.Same k a (State.setRunSt s x1 x2) := by
  unfold State.setRunSt
  repeat' first
    | with_reducible assumption | exact notMem_of hk (by decide +kernel) | with_reducible apply State.setChan_same

theorem State.freshSlot_same {k : Part} {a s : State} {x1}
    (hk : k ∉ [.chans, .slots])
    (h : State.Same k a s) :
    State.Same k a (State.freshSlot s x1) := by
  unfold State.freshSlot
  repeat' first
    | with_reducible assumption | exact notMem_of hk (by decide +kernel) | with_reducible apply State.setWord4_same
    | with_reducible apply State.setChan_same

theorem State.beginStep_same {k : Part} {a s : State} {x1 x2 x3}
    (hk : k ∉ [.reg 0x2402, .reg 0x2403, .reg 0x2444, .chans, .units, .slots, .lane, .flight])
    (h : State.Same k a s) :
    State.Same k a (State.beginStep s x1 x2 x3) := by
  unfold State.beginStep
  try lift_lets -underBinder
  repeat' first
    | with_reducible assumption | exact notMem_of hk (by decide +kernel)
    | (intro x
       first
         | (refine same_of (a := a) (k := k) x ?_ fun _ => ?_
            unfold x
            try lift_lets -underBinder
            rotate_left
            clear_value x)
         | clear_value x
         | skip)
    | lift_lets -underBinder | with_reducible apply State.setRun_same | with_reducible apply State.wr_same
    | with_reducible apply each_same | with_reducible apply State.freshSlot_same
    | with_reducible apply State.setRunSt_same | with_reducible apply State.mail_same
    | with_reducible apply State.startUnit_same | (split <;> try lift_lets -underBinder)

theorem State.arrive_same {k : Part} {a s : State} {x1 x2 x3}
    (hk : k ∉ [.reg 0x2402, .reg 0x2406, .chans, .groups])
    (h : State.Same k a s) :
    State.Same k a (State.arrive s x1 x2 x3) := by
  unfold State.arrive
  repeat' first
    | with_reducible assumption | exact notMem_of hk (by decide +kernel) | with_reducible apply State.wr_same
    | with_reducible apply State.setRun_same | with_reducible apply State.setRunSt_same
    | with_reducible apply State.setGroup_same

theorem State.goOn_same {k : Part} {a s : State} {x1 x2 x3}
    (hk : k ∉ [.reg 0x2402, .reg 0x2403, .reg 0x2406, .reg 0x2444, .chans, .units, .slots, .groups, .lane, .flight])
    (h : State.Same k a s) :
    State.Same k a (State.goOn s x1 x2 x3) := by
  unfold State.goOn
  repeat' first
    | with_reducible assumption | exact notMem_of hk (by decide +kernel) | with_reducible apply State.setRunSt_same
    | with_reducible apply State.wr_same | with_reducible apply State.setRun_same
    | with_reducible apply State.arrive_same | with_reducible apply State.beginStep_same | split

theorem State.queueCheck_same {k : Part} {a s : State} {x1 x2}
    (hk : k ∉ [.chans])
    (h : State.Same k a s) :
    State.Same k a (State.queueCheck s x1 x2) := by
  unfold State.queueCheck
  try lift_lets -underBinder
  repeat' first
    | with_reducible assumption | exact notMem_of hk (by decide +kernel)
    | (intro x
       first
         | (refine same_of (a := a) (k := k) x ?_ fun _ => ?_
            unfold x
            try lift_lets -underBinder
            rotate_left
            clear_value x)
         | clear_value x
         | skip)
    | lift_lets -underBinder | with_reducible apply each_same | with_reducible apply State.setChan_same
    | (split <;> try lift_lets -underBinder)

theorem State.enterRow_same {k : Part} {a s : State} {x1 x2 x3}
    (hk : k ∉ [.reg 0x2402, .reg 0x2403, .reg 0x2406, .reg 0x2444, .chans, .units, .slots, .groups, .lane, .flight])
    (h : State.Same k a s) :
    State.Same k a (State.enterRow s x1 x2 x3) := by
  unfold State.enterRow
  repeat' first
    | with_reducible assumption | exact notMem_of hk (by decide +kernel) | with_reducible apply State.queueCheck_same
    | with_reducible apply State.setRunSt_same | with_reducible apply State.wr_same
    | with_reducible apply State.setRun_same | with_reducible apply State.goOn_same | split

theorem State.endGang_same {k : Part} {a s : State} {x1 x2}
    (hk : k ∉ [.reg 0x2402, .reg 0x2444, .chans, .slots])
    (h : State.Same k a s) :
    State.Same k a (State.endGang s x1 x2) := by
  unfold State.endGang
  try lift_lets -underBinder
  repeat' first
    | with_reducible assumption | exact notMem_of hk (by decide +kernel)
    | (intro x
       first
         | (refine same_of (a := a) (k := k) x ?_ fun _ => ?_
            unfold x
            try lift_lets -underBinder
            rotate_left
            clear_value x)
         | clear_value x
         | skip)
    | lift_lets -underBinder | with_reducible apply each_same | with_reducible apply State.endRun_same
    | (split <;> try lift_lets -underBinder)

theorem startSet_same {k : Part} {a s : State} {x1}
    (hk : k ∉ [.reg 0x1200, .reg 0x1210, .reg 0x2402, .reg 0x2403, .reg 0x2404, .reg 0x2500, .reg 0x3101, .reg 0x6000,
    .clock, .chans, .units, .slots, .dies, .trail, .standbyDue])
    (h : State.Same k a s) :
    State.Same k a (startSet s x1) := by
  unfold startSet
  repeat' first
    | with_reducible assumption | exact notMem_of hk (by decide +kernel) | with_reducible apply State.wakeDie_same
    | with_reducible apply State.leaveStandby_same | with_reducible apply State.wr_same
    | with_reducible apply State.setRun_same | with_reducible apply State.queueCheck_same
    | with_reducible apply State.setRunSt_same

theorem stopSet_same {k : Part} {a s : State} {x1}
    (hk : k ∉ [.reg 0x2402, .reg 0x2444, .chans, .slots])
    (h : State.Same k a s) :
    State.Same k a (stopSet s x1) := by
  unfold stopSet
  try lift_lets -underBinder
  repeat' first
    | with_reducible assumption | exact notMem_of hk (by decide +kernel)
    | (intro x
       first
         | (refine same_of (a := a) (k := k) x ?_ fun _ => ?_
            unfold x
            try lift_lets -underBinder
            rotate_left
            clear_value x)
         | clear_value x
         | skip)
    | lift_lets -underBinder | with_reducible apply State.setRunSt_same | with_reducible apply State.endGang_same
    | (split <;> try lift_lets -underBinder)

theorem continueSet_same {k : Part} {a s : State} {x1}
    (hk : k ∉ [.reg 0x1200, .reg 0x1210, .reg 0x2402, .reg 0x2403, .reg 0x2406, .reg 0x2444, .reg 0x3101, .chans,
    .units, .slots, .dies, .groups, .lane, .flight])
    (h : State.Same k a s) :
    State.Same k a (continueSet s x1) := by
  unfold continueSet
  repeat' first
    | with_reducible assumption | exact notMem_of hk (by decide +kernel) | with_reducible apply State.wakeDie_same
    | with_reducible apply State.enterRow_same

theorem State.markInvalid_same {k : Part} {a s : State} {x1}
    (hk : k ∉ [.reg 0x2402])
    (h : State.Same k a s) :
    State.Same k a (State.markInvalid s x1) := by
  unfold State.markInvalid
  try lift_lets -underBinder
  repeat' first
    | with_reducible assumption | exact notMem_of hk (by decide +kernel)
    | (intro x
       first
         | (refine same_of (a := a) (k := k) x ?_ fun _ => ?_
            unfold x
            try lift_lets -underBinder
            rotate_left
            clear_value x)
         | clear_value x
         | skip)
    | lift_lets -underBinder | with_reducible apply each_same | with_reducible apply State.wr_same
    | (split <;> try lift_lets -underBinder)

theorem State.doAct_same {k : Part} {a s : State} {x1 x2 x3 x4}
    (hk : k ∉ [.reg 0x2402, .reg 0x2403, .reg 0x2406, .reg 0x2444, .chans, .units, .slots, .groups, .lane, .flight])
    (h : State.Same k a s) :
    State.Same k a (State.doAct s x1 x2 x3 x4) := by
  unfold State.doAct
  repeat' first
    | with_reducible assumption | exact notMem_of hk (by decide +kernel) | with_reducible apply State.enterRow_same
    | with_reducible apply State.wr_same | with_reducible apply State.setRunSt_same
    | with_reducible apply State.setRun_same | with_reducible apply State.endGang_same | split

theorem State.milestone_same {k : Part} {a s : State} {x1 x2}
    (hk : k ∉ [.reg 0x2402, .reg 0x2403, .reg 0x2406, .reg 0x2444, .chans, .units, .slots, .engines, .groups, .lane,
    .flight])
    (h : State.Same k a s) :
    State.Same k a (State.milestone s x1 x2) := by
  unfold State.milestone
  try lift_lets -underBinder
  repeat' first
    | with_reducible assumption | exact notMem_of hk (by decide +kernel)
    | (intro x
       first
         | (refine same_of (a := a) (k := k) x ?_ fun _ => ?_
            unfold x
            try lift_lets -underBinder
            rotate_left
            clear_value x)
         | clear_value x
         | skip)
    | lift_lets -underBinder | with_reducible apply each_same | with_reducible apply State.wr_same
    | with_reducible apply State.freshSlot_same | with_reducible apply State.discardSlot_same
    | with_reducible apply State.dropJobs_same | with_reducible apply State.closeStep_same
    | with_reducible apply State.doAct_same | (split <;> try lift_lets -underBinder)

theorem State.setDue_same {k : Part} {a s : State} {x1 x2}
    (hk : k ∉ [.reg 0x2406, .reg 0x2407, .groups])
    (h : State.Same k a s) :
    State.Same k a (State.setDue s x1 x2) := by
  unfold State.setDue
  repeat' first
    | with_reducible assumption | exact notMem_of hk (by decide +kernel) | with_reducible apply State.wr_same
    | with_reducible apply State.setGroup_same

theorem State.groupCheck_same {k : Part} {a s : State} {x1}
    (hk : k ∉ [.reg 0x2406, .reg 0x2407, .groups])
    (h : State.Same k a s) :
    State.Same k a (State.groupCheck s x1) := by
  unfold State.groupCheck
  try lift_lets -underBinder
  repeat' first
    | with_reducible assumption | exact notMem_of hk (by decide +kernel)
    | (intro x
       first
         | (refine same_of (a := a) (k := k) x ?_ fun _ => ?_
            unfold x
            try lift_lets -underBinder
            rotate_left
            clear_value x)
         | clear_value x
         | skip)
    | lift_lets -underBinder | with_reducible apply State.wr_same | with_reducible apply State.setGroup_same
    | with_reducible apply State.setDue_same | (split <;> try lift_lets -underBinder)

theorem State.relayBackpressure_same {k : Part} {a s : State} {x1}
    (hk : k ∉ [.reg 0x2408, .dies])
    (h : State.Same k a s) :
    State.Same k a (State.relayBackpressure s x1) := by
  unfold State.relayBackpressure
  try lift_lets -underBinder
  repeat' first
    | with_reducible assumption | exact notMem_of hk (by decide +kernel)
    | (intro x
       first
         | (refine same_of (a := a) (k := k) x ?_ fun _ => ?_
            unfold x
            try lift_lets -underBinder
            rotate_left
            clear_value x)
         | clear_value x
         | skip)
    | lift_lets -underBinder | with_reducible apply each_same | with_reducible apply State.setDie_same
    | with_reducible apply State.wr_same | (split <;> try lift_lets -underBinder)

theorem State.resumeHeld_same {k : Part} {a s : State} {x1}
    (hk : k ∉ [.reg 0x1200, .reg 0x1210, .reg 0x2402, .reg 0x2403, .reg 0x2406, .reg 0x2444, .reg 0x3101, .chans,
    .units, .slots, .dies, .groups, .lane, .flight])
    (h : State.Same k a s) :
    State.Same k a (State.resumeHeld s x1) := by
  unfold State.resumeHeld
  repeat' first
    | with_reducible assumption | exact notMem_of hk (by decide +kernel) | with_reducible apply State.goOn_same
    | with_reducible apply State.wakeDie_same | split

theorem State.backpressure_same {k : Part} {a s : State} {x1}
    (hk : k ∉ [.reg 0x1200, .reg 0x1210, .reg 0x2402, .reg 0x2403, .reg 0x2406, .reg 0x2408, .reg 0x2444, .reg 0x3101,
    .chans, .units, .slots, .dies, .groups, .lane, .flight])
    (h : State.Same k a s) :
    State.Same k a (State.backpressure s x1) := by
  unfold State.backpressure
  try lift_lets -underBinder
  repeat' first
    | with_reducible assumption | exact notMem_of hk (by decide +kernel)
    | (intro x
       first
         | (refine same_of (a := a) (k := k) x ?_ fun _ => ?_
            unfold x
            try lift_lets -underBinder
            rotate_left
            clear_value x)
         | clear_value x
         | skip)
    | lift_lets -underBinder | with_reducible apply State.relayBackpressure_same | with_reducible apply each_same
    | with_reducible apply State.resumeHeld_same | (split <;> try lift_lets -underBinder)

theorem recipeSet_same {k : Part} {a s : State} {x1 x2}
    (hr : k.isObj = false)
    (h : State.Same k a s) :
    State.Same k a (recipeSet x1 s x2) := by
  unfold recipeSet
  try lift_lets -underBinder
  repeat' first
    | with_reducible assumption | with_reducible exact hr
    | exact notMem_any hr (List.not_mem_nil) (by decide +kernel)
    | (intro x
       first
         | (refine same_of (a := a) (k := k) x ?_ fun _ => ?_
            unfold x
            try lift_lets -underBinder
            rotate_left
            clear_value x)
         | clear_value x
         | skip)
    | lift_lets -underBinder | with_reducible apply each_same | with_reducible apply State.wr_field
    | with_reducible apply State.wr_same | (split <;> try lift_lets -underBinder)

theorem checkNowSet_same {k : Part} {a s : State} {x1}
    (hk : k ∉ [.reg 0x1200, .reg 0x1210, .reg 0x3101, .chans, .units, .dies])
    (h : State.Same k a s) :
    State.Same k a (checkNowSet s x1) := by
  unfold checkNowSet
  repeat' first
    | with_reducible assumption | exact notMem_of hk (by decide +kernel) | with_reducible apply State.queueCheck_same
    | with_reducible apply State.wakeDie_same

theorem State.writeCheck_same {k : Part} {a s : State} {x1 x2 x3}
    (hk : k ∉ [.reg 0x2820])
    (h : State.Same k a s) :
    State.Same k a (State.writeCheck s x1 x2 x3) := by
  unfold State.writeCheck
  repeat' first
    | with_reducible assumption | exact notMem_of hk (by decide +kernel) | with_reducible apply State.wr_same

theorem State.gateResult_same {k : Part} {a s : State} {x1 x2 x3}
    (hk : k ∉ [.reg 0x2402, .reg 0x2403, .reg 0x2406, .reg 0x2444, .reg 0x6000, .chans, .units, .slots, .dies,
    .groups, .trail, .lane, .flight])
    (h : State.Same k a s) :
    State.Same k a (State.gateResult s x1 x2 x3) := by
  unfold State.gateResult
  repeat' first
    | with_reducible assumption | exact notMem_of hk (by decide +kernel) | with_reducible apply State.endGang_same
    | with_reducible apply State.goOn_same | with_reducible apply State.noteAt_same | split

theorem State.checkResult_same {k : Part} {a s : State} {x1 x2}
    (hk : k ∉ [.reg 0x2402, .reg 0x2403, .reg 0x2406, .reg 0x2444, .reg 0x2820, .reg 0x6000, .chans, .units, .slots,
    .dies, .adcs, .groups, .trail, .lane, .flight])
    (h : State.Same k a s) :
    State.Same k a (State.checkResult s x1 x2) := by
  unfold State.checkResult
  try lift_lets -underBinder
  repeat' first
    | with_reducible assumption | exact notMem_of hk (by decide +kernel)
    | (intro x
       first
         | (refine same_of (a := a) (k := k) x ?_ fun _ => ?_
            unfold x
            try lift_lets -underBinder
            rotate_left
            clear_value x)
         | clear_value x
         | skip)
    | lift_lets -underBinder | with_reducible apply State.setAdc_same | with_reducible apply State.setChan_same
    | with_reducible apply State.writeCheck_same | with_reducible apply State.gateResult_same
    | with_reducible apply State.wr_same | (split <;> try lift_lets -underBinder)

theorem State.trm_same {k : Part} {a s : State} {x1}
    (hk : k ∉ [.chans])
    (h : State.Same k a s) :
    State.Same k a (State.trm s x1) := by
  unfold State.trm
  try lift_lets -underBinder
  repeat' first
    | with_reducible assumption | exact notMem_of hk (by decide +kernel)
    | (intro x
       first
         | (refine same_of (a := a) (k := k) x ?_ fun _ => ?_
            unfold x
            try lift_lets -underBinder
            rotate_left
            clear_value x)
         | clear_value x
         | skip)
    | lift_lets -underBinder | with_reducible apply State.setRunSt_same | (split <;> try lift_lets -underBinder)

theorem State.micro_same {k : Part} {a s : State} {x1 x2 x3} {f : State → Engine → RunJob → State}
    (hk : k ∉ [.engines]) (h : State.Same k a s) (hf : ∀ y x j, State.Same k a y → State.Same k a (f y x j)) :
    State.Same k a (s.micro x1 x2 x3 f) := by
  unfold State.micro
  split
  · split
    · extract_lets x n
      split
      · exact State.setEng_same hk h
      · exact hf _ _ _ h
    · exact h
  · exact h

theorem State.alu_same {k : Part} {a s : State} {x1 x2 x3 f} (hk : k ∉ [.engines]) (h : State.Same k a s) :
    State.Same k a (s.alu x1 x2 x3 f) :=
  State.micro_same hk h fun _ _ _ hy => State.setEng_same hk hy

theorem State.setLaw_same {k : Part} {a s : State} {x1 x2}
    (hk : k ∉ [.chans])
    (h : State.Same k a s) :
    State.Same k a (State.setLaw s x1 x2) := by
  unfold State.setLaw
  repeat' first
    | with_reducible assumption | exact notMem_of hk (by decide +kernel) | with_reducible apply State.setChan_same

theorem State.showStep_same {k : Part} {a s : State} {x1}
    (hk : k ∉ [.reg 0x2402, .reg 0x2403])
    (h : State.Same k a s) :
    State.Same k a (State.showStep s x1) := by
  unfold State.showStep
  repeat' first
    | with_reducible assumption | exact notMem_of hk (by decide +kernel) | with_reducible apply State.wr_same | split

theorem State.tallyJob_same {k : Part} {a s : State} {x1}
    (hk : k ∉ [.reg 0x2402, .reg 0x2403, .chans])
    (h : State.Same k a s) :
    State.Same k a (State.tallyJob s x1) := by
  unfold State.tallyJob
  repeat' first
    | with_reducible assumption | exact notMem_of hk (by decide +kernel) | with_reducible apply State.showStep_same
    | with_reducible apply State.setLaw_same

theorem State.supervise_same {k : Part} {a s : State} {x1 x2 x3 x4 x5 x6 x7 x8}
    (hk : k ∉ [.reg 0x2444, .chans])
    (h : State.Same k a s) :
    State.Same k a (State.supervise s x1 x2 x3 x4 x5 x6 x7 x8) := by
  unfold State.supervise
  repeat' first
    | with_reducible assumption | exact notMem_of hk (by decide +kernel) | with_reducible apply State.setChan_same
    | with_reducible apply State.wr_same

theorem State.sharing_same {k : Part} {a s : State} {x1 x2 x3 x4}
    (hk : k ∉ [.reg 0x2445, .free])
    (h : State.Same k a s) :
    State.Same k a (State.sharing s x1 x2 x3 x4) := by
  unfold State.sharing
  repeat' first
    | with_reducible assumption | exact notMem_of hk (by decide +kernel) | with_reducible apply State.draw_same
    | with_reducible apply State.wr_same | split

theorem State.showMember_same {k : Part} {a s : State} {x1 x2 x3}
    (hk : k ∉ [.reg 0x2445, .chans, .free])
    (h : State.Same k a s) :
    State.Same k a (State.showMember s x1 x2 x3) := by
  unfold State.showMember
  try lift_lets -underBinder
  repeat' first
    | with_reducible assumption | exact notMem_of hk (by decide +kernel)
    | (intro x
       first
         | (refine same_of (a := a) (k := k) x ?_ fun _ => ?_
            unfold x
            try lift_lets -underBinder
            rotate_left
            clear_value x)
         | clear_value x
         | skip)
    | lift_lets -underBinder | with_reducible apply State.wr_same | with_reducible apply State.setLaw_same
    | with_reducible apply State.sharing_same | (split <;> try lift_lets -underBinder)

theorem State.stageDuty_same {k : Part} {a s : State} {x1 x2 x3}
    (hk : k ∉ [.reg 0x2833, .engines])
    (h : State.Same k a s) :
    State.Same k a (State.stageDuty s x1 x2 x3) := by
  unfold State.stageDuty
  try lift_lets -underBinder
  repeat' first
    | with_reducible assumption | exact notMem_of hk (by decide +kernel)
    | (intro x
       first
         | (refine same_of (a := a) (k := k) x ?_ fun _ => ?_
            unfold x
            try lift_lets -underBinder
            rotate_left
            clear_value x)
         | clear_value x
         | skip)
    | lift_lets -underBinder | with_reducible apply State.wr_same | with_reducible apply State.setEng_same
    | (split <;> try lift_lets -underBinder)

theorem State.publish_same {k : Part} {a s : State} {x1 x2 x3 x4}
    (hk : k ∉ [.engines])
    (h : State.Same k a s) :
    State.Same k a (State.publish s x1 x2 x3 x4) := by
  unfold State.publish
  repeat' first
    | with_reducible assumption | exact notMem_of hk (by decide +kernel) | with_reducible apply State.setEng_same

theorem State.runInner_same {k : Part} {a s : State} {x1 x2 x3 x4 x5}
    (hk : k ∉ [.reg 0x2444, .reg 0x2445, .reg 0x2833, .chans, .engines, .free])
    (h : State.Same k a s) :
    State.Same k a (State.runInner s x1 x2 x3 x4 x5) := by
  unfold State.runInner
  repeat' first
    | with_reducible assumption | exact notMem_of hk (by decide +kernel) | with_reducible apply State.draw_same
    | with_reducible apply State.setLaw_same | with_reducible apply State.wr_same
    | with_reducible apply State.stageDuty_same | with_reducible apply State.showMember_same | split

theorem State.showRef_same {k : Part} {a s : State} {x1 x2 x3 x4}
    (hk : k ∉ [.reg 0x2444])
    (h : State.Same k a s) :
    State.Same k a (State.showRef s x1 x2 x3 x4) := by
  unfold State.showRef
  repeat' first
    | with_reducible assumption | exact notMem_of hk (by decide +kernel) | with_reducible apply State.wr_same | split

theorem State.switchJob_same {k : Part} {a s : State} {x1 x2 x3}
    (hk : k ∉ [.reg 0x2444, .reg 0x2445, .reg 0x2833, .chans, .engines, .free])
    (h : State.Same k a s) :
    State.Same k a (State.switchJob s x1 x2 x3) := by
  unfold State.switchJob
  repeat' first
    | with_reducible assumption | exact notMem_of hk (by decide +kernel) | with_reducible apply State.wr_same
    | with_reducible apply State.setLaw_same | with_reducible apply State.supervise_same
    | with_reducible apply State.runInner_same | with_reducible apply State.publish_same
    | with_reducible apply State.showRef_same | split

theorem State.slaveJob_same {k : Part} {a s : State} {x1 x2 x3}
    (hk : k ∉ [.reg 0x2444, .reg 0x2445, .reg 0x2833, .chans, .engines, .free])
    (h : State.Same k a s) :
    State.Same k a (State.slaveJob s x1 x2 x3) := by
  unfold State.slaveJob
  repeat' first
    | with_reducible assumption | exact notMem_of hk (by decide +kernel) | with_reducible apply State.wr_same
    | with_reducible apply State.setLaw_same | with_reducible apply State.supervise_same
    | with_reducible apply State.runInner_same

theorem State.slaveRest_same {k : Part} {a s : State} {x1 x2}
    (hk : k ∉ [.reg 0x2444])
    (h : State.Same k a s) :
    State.Same k a (State.slaveRest s x1 x2) := by
  unfold State.slaveRest
  repeat' first
    | with_reducible assumption | exact notMem_of hk (by decide +kernel) | with_reducible apply State.wr_same

theorem State.restJob_same {k : Part} {a s : State} {x1 x2}
    (hk : k ∉ [.reg 0x2444, .units, .engines])
    (h : State.Same k a s) :
    State.Same k a (State.restJob s x1 x2) := by
  unfold State.restJob
  repeat' first
    | with_reducible assumption | exact notMem_of hk (by decide +kernel) | with_reducible apply State.stopUnit_same
    | with_reducible apply State.wr_same | with_reducible apply State.setEng_same | split

theorem State.lawJob_same {k : Part} {a s : State} {x1 x2 x3}
    (hk : k ∉ [.reg 0x2402, .reg 0x2403, .reg 0x2444, .reg 0x2445, .reg 0x2810, .reg 0x2833, .reg 0x6000, .reg 0x6010,
    .chans, .units, .slots, .engines, .dies, .trail, .lane, .flight, .free])
    (h : State.Same k a s) :
    State.Same k a (State.lawJob s x1 x2 x3) := by
  unfold State.lawJob
  try lift_lets -underBinder
  repeat' first
    | with_reducible assumption | exact notMem_of hk (by decide +kernel)
    | (intro x
       first
         | (refine same_of (a := a) (k := k) x ?_ fun _ => ?_
            unfold x
            try lift_lets -underBinder
            rotate_left
            clear_value x)
         | clear_value x
         | skip)
    | lift_lets -underBinder | with_reducible apply State.latchNew_same | with_reducible apply State.restJob_same
    | with_reducible apply State.slaveRest_same | with_reducible apply State.slaveJob_same
    | with_reducible apply State.switchJob_same | with_reducible apply State.setLaw_same
    | with_reducible apply State.tallyJob_same | with_reducible apply State.trm_same
    | (split <;> try lift_lets -underBinder)

theorem State.customStart_same {k : Part} {a s : State} {x1}
    (hk : k ∉ [.reg 0x2402, .reg 0x2403, .chans])
    (h : State.Same k a s) :
    State.Same k a (State.customStart s x1) := by
  unfold State.customStart
  repeat' first
    | with_reducible assumption | exact notMem_of hk (by decide +kernel) | with_reducible apply State.setLaw_same
    | with_reducible apply State.tallyJob_same | split

theorem State.customJob_same {k : Part} {a s : State} {x1 x2}
    (hk : k ∉ [.reg 0x2444, .reg 0x2445, .chans])
    (h : State.Same k a s) :
    State.Same k a (State.customJob s x1 x2) := by
  unfold State.customJob
  try lift_lets -underBinder
  repeat' first
    | with_reducible assumption | exact notMem_of hk (by decide +kernel)
    | (intro x
       first
         | (refine same_of (a := a) (k := k) x ?_ fun _ => ?_
            unfold x
            try lift_lets -underBinder
            rotate_left
            clear_value x)
         | clear_value x
         | skip)
    | lift_lets -underBinder | with_reducible apply State.wr_same | with_reducible apply State.supervise_same
    | (split <;> try lift_lets -underBinder)

theorem State.compare_same {k : Part} {a s : State} {x1 x2 x3 x4 x5 x6}
    (hk : k ∉ [.reg 0x2443, .chans])
    (h : State.Same k a s) :
    State.Same k a (State.compare s x1 x2 x3 x4 x5 x6) := by
  unfold State.compare
  repeat' first
    | with_reducible assumption | exact notMem_of hk (by decide +kernel) | with_reducible apply State.setChan_same
    | with_reducible apply State.wr_same

theorem State.compareMirror_same {k : Part} {a s : State} {x1 x2}
    (hk : k ∉ [.reg 0x2443, .chans])
    (h : State.Same k a s) :
    State.Same k a (State.compareMirror s x1 x2) := by
  unfold State.compareMirror
  repeat' first
    | with_reducible assumption | exact notMem_of hk (by decide +kernel) | with_reducible apply State.compare_same
    | split

end Sys2Proof.Machine
end

