-- ==== Sys2Proof/Laws/FrameChain.lean ====
section
/-! SUPPORT. Which parts of the state the operations of the power chain, the auxiliary drives and the hub ADC units can change: one lemma for each. -/

namespace Sys2Proof.Machine

set_option Elab.async false

set_option linter.unreachableTactic false
set_option linter.unusedTactic false

theorem State.setPower_same {k : Part} {a s : State} {x1}
    (hk : k ∉ [.power])
    (h : State.Same k a s) :
    State.Same k a (State.setPower s x1) := by
  unfold State.setPower
  repeat' first
    | with_reducible assumption | exact notMem_of hk (by decide +kernel) | with_reducible apply same_power

theorem State.setHold_same {k : Part} {a s : State} {x1}
    (hk : k ∉ [.reg 0x4000])
    (h : State.Same k a s) :
    State.Same k a (State.setHold s x1) := by
  unfold State.setHold
  repeat' first
    | with_reducible assumption | exact notMem_of hk (by decide +kernel) | with_reducible apply State.wr_same

theorem State.clearHold_same {k : Part} {a s : State} {x1}
    (hk : k ∉ [.reg 0x4000])
    (h : State.Same k a s) :
    State.Same k a (State.clearHold s x1) := by
  unfold State.clearHold
  repeat' first
    | with_reducible assumption | exact notMem_of hk (by decide +kernel) | with_reducible apply State.wr_same

theorem State.supFault_same {k : Part} {a s : State} {x1}
    (hk : k ∉ [.reg 0x4000, .reg 0x6000, .dies, .trail])
    (h : State.Same k a s) :
    State.Same k a (State.supFault s x1) := by
  unfold State.supFault
  repeat' first
    | with_reducible assumption | exact notMem_of hk (by decide +kernel) | with_reducible apply State.note_same
    | with_reducible apply State.wr_same

theorem State.setKdrv_same {k : Part} {a s : State} {x1 x2}
    (hk : k ∉ [.sup])
    (h : State.Same k a s) :
    State.Same k a (State.setKdrv s x1 x2) := by
  unfold State.setKdrv
  repeat' first
    | with_reducible assumption | exact notMem_of hk (by decide +kernel) | with_reducible apply same_sup

theorem State.closeKdrv_same {k : Part} {a s : State} {x1}
    (hk : k ∉ [.reg 0x4021, .sup])
    (h : State.Same k a s) :
    State.Same k a (State.closeKdrv s x1) := by
  unfold State.closeKdrv
  try lift_lets -underBinder
  repeat' first
    | with_reducible assumption | exact notMem_of hk (by decide +kernel)
    | (intro x
       first
         | (refine same_of (a := a) (k := k) x ?_ fun _ => ?_
            unfold x
            try lift_lets -underBinder
            rotate_left
            clear_value x)
         | clear_value x
         | skip)
    | lift_lets -underBinder | with_reducible apply State.wr_same | with_reducible apply State.setKdrv_same
    | (split <;> try lift_lets -underBinder)

theorem State.openKdrv_same {k : Part} {a s : State} {x1}
    (hk : k ∉ [.reg 0x4021, .sup])
    (h : State.Same k a s) :
    State.Same k a (State.openKdrv s x1) := by
  unfold State.openKdrv
  try lift_lets -underBinder
  repeat' first
    | with_reducible assumption | exact notMem_of hk (by decide +kernel)
    | (intro x
       first
         | (refine same_of (a := a) (k := k) x ?_ fun _ => ?_
            unfold x
            try lift_lets -underBinder
            rotate_left
            clear_value x)
         | clear_value x
         | skip)
    | lift_lets -underBinder | with_reducible apply State.wr_same | with_reducible apply State.setKdrv_same
    | (split <;> try lift_lets -underBinder)

theorem State.cutUnits_same {k : Part} {a s : State} {x1}
    (hk : k ∉ [.units])
    (h : State.Same k a s) :
    State.Same k a (State.cutUnits s x1) := by
  unfold State.cutUnits
  try lift_lets -underBinder
  repeat' first
    | with_reducible assumption | exact notMem_of hk (by decide +kernel)
    | (intro x
       first
         | (refine same_of (a := a) (k := k) x ?_ fun _ => ?_
            unfold x
            try lift_lets -underBinder
            rotate_left
            clear_value x)
         | clear_value x
         | skip)
    | lift_lets -underBinder | with_reducible apply each_same | with_reducible apply State.setUnit_same
    | (split <;> try lift_lets -underBinder)

theorem State.afeLow_same {k : Part} {a s : State}
    (hk : k ∉ [.units, .power])
    (h : State.Same k a s) :
    State.Same k a (State.afeLow s) := by
  unfold State.afeLow
  repeat' first
    | with_reducible assumption | exact notMem_of hk (by decide +kernel) | with_reducible apply State.setPower_same
    | with_reducible apply State.cutUnits_same

theorem State.latchAfe_same {k : Part} {a s : State}
    (hk : k ∉ [.reg 0x3040, .units, .engines, .power])
    (h : State.Same k a s) :
    State.Same k a (State.latchAfe s) := by
  unfold State.latchAfe
  repeat' first
    | with_reducible assumption | exact notMem_of hk (by decide +kernel) | with_reducible apply State.afeLow_same
    | with_reducible apply State.dropJobs_same | with_reducible apply State.wr_same
    | with_reducible apply State.setPower_same

theorem State.chopOn_same {k : Part} {a s : State}
    (hk : k ∉ [.reg 0x3070, .units, .power])
    (h : State.Same k a s) :
    State.Same k a (State.chopOn s) := by
  unfold State.chopOn
  repeat' first
    | with_reducible assumption | exact notMem_of hk (by decide +kernel) | with_reducible apply State.wr_same
    | with_reducible apply State.holdPin_same | with_reducible apply State.setPower_same | split

theorem State.chopOff_same {k : Part} {a s : State}
    (hk : k ∉ [.reg 0x3070, .units, .power])
    (h : State.Same k a s) :
    State.Same k a (State.chopOff s) := by
  unfold State.chopOff
  repeat' first
    | with_reducible assumption | exact notMem_of hk (by decide +kernel) | with_reducible apply State.wr_same
    | with_reducible apply State.holdPin_same | with_reducible apply State.setPower_same

theorem State.adisOn_same {k : Part} {a s : State}
    (hk : k ∉ [.reg 0x3070, .units, .power])
    (h : State.Same k a s) :
    State.Same k a (State.adisOn s) := by
  unfold State.adisOn
  repeat' first
    | with_reducible assumption | exact notMem_of hk (by decide +kernel) | with_reducible apply State.wr_same
    | with_reducible apply State.holdPin_same | with_reducible apply State.setPower_same | split

theorem State.adisOff_same {k : Part} {a s : State} {x1}
    (hk : k ∉ [.reg 0x3070, .units, .power])
    (h : State.Same k a s) :
    State.Same k a (State.adisOff s x1) := by
  unfold State.adisOff
  repeat' first
    | with_reducible assumption | exact notMem_of hk (by decide +kernel) | with_reducible apply State.wr_same
    | with_reducible apply State.holdPin_same | with_reducible apply State.setPower_same

theorem State.chopNote_same {k : Part} {a s : State}
    (hk : k ∉ [.reg 0x6000, .dies, .trail])
    (h : State.Same k a s) :
    State.Same k a (State.chopNote s) := by
  unfold State.chopNote
  repeat' first
    | with_reducible assumption | exact notMem_of hk (by decide +kernel) | with_reducible apply State.note_same

theorem State.setLink_same {k : Part} {a s : State} {x1}
    (hk : k ∉ [.reg 0x3050, .power])
    (h : State.Same k a s) :
    State.Same k a (State.setLink s x1) := by
  unfold State.setLink
  repeat' first
    | with_reducible assumption | exact notMem_of hk (by decide +kernel) | with_reducible apply State.setPower_same
    | with_reducible apply State.wr_same

theorem State.stopNote_same {k : Part} {a s : State} {x1 x2}
    (hk : k ∉ [.reg 0x6000, .dies, .trail])
    (h : State.Same k a s) :
    State.Same k a (State.stopNote s x1 x2) := by
  unfold State.stopNote
  repeat' first
    | with_reducible assumption | exact notMem_of hk (by decide +kernel) | with_reducible apply State.raise_same

theorem State.stopWith_same {k : Part} {a s : State} {x1 x2}
    (hk : k ∉ [.reg 0x3050, .reg 0x6000, .dies, .power, .trail])
    (h : State.Same k a s) :
    State.Same k a (State.stopWith s x1 x2) := by
  unfold State.stopWith
  repeat' first
    | with_reducible assumption | exact notMem_of hk (by decide +kernel) | with_reducible apply State.stopNote_same
    | with_reducible apply State.wr_same | with_reducible apply State.setLink_same
    | with_reducible apply State.raiseAll_same | with_reducible apply State.setPower_same | split

theorem State.controlledStop_same {k : Part} {a s : State} {x1}
    (hk : k ∉ [.reg 0x3050, .reg 0x6000, .dies, .power, .trail])
    (h : State.Same k a s) :
    State.Same k a (State.controlledStop s x1) := by
  unfold State.controlledStop
  repeat' first
    | with_reducible assumption | exact notMem_of hk (by decide +kernel) | with_reducible apply State.stopWith_same
    | with_reducible apply State.openCorr_same

theorem State.endStop_same {k : Part} {a s : State}
    (hk : k ∉ [.reg 0x3050, .power])
    (h : State.Same k a s) :
    State.Same k a (State.endStop s) := by
  unfold State.endStop
  repeat' first
    | with_reducible assumption | exact notMem_of hk (by decide +kernel) | with_reducible apply State.setLink_same
    | split

theorem State.cascade_same {k : Part} {a s : State} {x1 x2}
    (hk : k ∉ [.reg 0x3060, .reg 0x6000, .dies, .trail])
    (h : State.Same k a s) :
    State.Same k a (State.cascade s x1 x2) := by
  unfold State.cascade
  repeat' first
    | with_reducible assumption | exact notMem_of hk (by decide +kernel) | with_reducible apply State.wr_same
    | with_reducible apply State.raise_same

theorem State.level1_same {k : Part} {a s : State}
    (hk : k ∉ [.reg 0x3060, .reg 0x6000, .dies, .power, .trail])
    (h : State.Same k a s) :
    State.Same k a (State.level1 s) := by
  unfold State.level1
  repeat' first
    | with_reducible assumption | exact notMem_of hk (by decide +kernel) | with_reducible apply State.raiseAll_same
    | with_reducible apply State.cascade_same | with_reducible apply State.openCorr_same
    | with_reducible apply State.setPower_same

theorem State.level2_same {k : Part} {a s : State}
    (hk : k ∉ [.reg 0x3060, .reg 0x6000, .dies, .trail])
    (h : State.Same k a s) :
    State.Same k a (State.level2 s) := by
  unfold State.level2
  repeat' first
    | with_reducible assumption | exact notMem_of hk (by decide +kernel) | with_reducible apply State.raiseAll_same
    | with_reducible apply State.cascade_same | with_reducible apply State.openCorr_same

theorem State.level3_same {k : Part} {a s : State} {x1}
    (hk : k ∉ [.reg 0x3050, .reg 0x3060, .reg 0x3070, .reg 0x4021, .reg 0x6000, .units, .dies, .power, .sup, .trail])
    (h : State.Same k a s) :
    State.Same k a (State.level3 s x1) := by
  unfold State.level3
  repeat' first
    | with_reducible assumption | exact notMem_of hk (by decide +kernel) | with_reducible apply State.wr_same
    | with_reducible apply State.cascade_same | with_reducible apply State.openCorr_same
    | with_reducible apply State.afeLow_same | with_reducible apply State.raiseAll_same
    | with_reducible apply State.chopOn_same | with_reducible apply State.openKdrv_same
    | with_reducible apply State.adisOn_same | with_reducible apply State.stopWith_same | split

theorem State.clearDab_same {k : Part} {a s : State} {x1 x2}
    (hk : k ∉ [.reg 0x3101, .reg 0x3104, .reg 0x6012, .dies])
    (h : State.Same k a s) :
    State.Same k a (State.clearDab s x1 x2) := by
  unfold State.clearDab
  try lift_lets -underBinder
  repeat' first
    | with_reducible assumption | exact notMem_of hk (by decide +kernel)
    | (intro x
       first
         | (refine same_of (a := a) (k := k) x ?_ fun _ => ?_
            unfold x
            try lift_lets -underBinder
            rotate_left
            clear_value x)
         | clear_value x
         | skip)
    | lift_lets -underBinder | with_reducible apply State.setDie_same | with_reducible apply State.wr_same
    | (split <;> try lift_lets -underBinder)

theorem State.sendTest_same {k : Part} {a s : State} {x1 x2}
    (hk : k ∉ [.dies])
    (h : State.Same k a s) :
    State.Same k a (State.sendTest s x1 x2) := by
  unfold State.sendTest
  repeat' first
    | with_reducible assumption | exact notMem_of hk (by decide +kernel) | with_reducible apply State.raiseFrame_same
    | with_reducible apply State.setDie_same

theorem State.testsDone_same {k : Part} {a s : State}
    (hk : k ∉ [.reg 0x4000])
    (h : State.Same k a s) :
    State.Same k a (State.testsDone s) := by
  unfold State.testsDone
  repeat' first
    | with_reducible assumption | exact notMem_of hk (by decide +kernel) | with_reducible apply State.clearHold_same
    | split

theorem State.pathFailed_same {k : Part} {a s : State} {x1}
    (hk : k ∉ [.reg 0x3050, .reg 0x4000, .reg 0x6000, .dies, .power, .trail])
    (h : State.Same k a s) :
    State.Same k a (State.pathFailed s x1) := by
  unfold State.pathFailed
  try lift_lets -underBinder
  repeat' first
    | with_reducible assumption | exact notMem_of hk (by decide +kernel)
    | (intro x
       first
         | (refine same_of (a := a) (k := k) x ?_ fun _ => ?_
            unfold x
            try lift_lets -underBinder
            rotate_left
            clear_value x)
         | clear_value x
         | skip)
    | lift_lets -underBinder | with_reducible apply State.setHold_same | with_reducible apply State.supFault_same
    | with_reducible apply State.setPower_same | with_reducible apply State.controlledStop_same
    | (split <;> try lift_lets -underBinder)

theorem State.startDabs_same {k : Part} {a s : State} {x1}
    (hk : k ∉ [.reg 0x3101, .units, .dies])
    (h : State.Same k a s) :
    State.Same k a (State.startDabs s x1) := by
  unfold State.startDabs
  try lift_lets -underBinder
  repeat' first
    | with_reducible assumption | exact notMem_of hk (by decide +kernel)
    | (intro x
       first
         | (refine same_of (a := a) (k := k) x ?_ fun _ => ?_
            unfold x
            try lift_lets -underBinder
            rotate_left
            clear_value x)
         | clear_value x
         | skip)
    | lift_lets -underBinder | with_reducible apply each_same | with_reducible apply State.setDie_same
    | with_reducible apply State.wr_same | with_reducible apply State.startUnit_same
    | (split <;> try lift_lets -underBinder)

theorem State.stageUnit_same {k : Part} {a s : State} {x1 x2 x3}
    (hk : k ∉ [.units])
    (h : State.Same k a s) :
    State.Same k a (State.stageUnit s x1 x2 x3) := by
  unfold State.stageUnit
  repeat' first
    | with_reducible assumption | exact notMem_of hk (by decide +kernel) | with_reducible apply State.commitUnit_same
    | with_reducible apply State.setUnit_same

theorem State.countLoss_same {k : Part} {a s : State} {x1 x2}
    (hk : k ∉ [.power])
    (h : State.Same k a s) :
    State.Same k a (State.countLoss s x1 x2) := by
  unfold State.countLoss
  repeat' first
    | with_reducible assumption | exact notMem_of hk (by decide +kernel) | with_reducible apply State.setPower_same

theorem State.trackGrid_same {k : Part} {a s : State} {x1 x2 x3 x4}
    (hk : k ∉ [.power])
    (h : State.Same k a s) :
    State.Same k a (State.trackGrid s x1 x2 x3 x4) := by
  unfold State.trackGrid
  repeat' first
    | with_reducible assumption | exact notMem_of hk (by decide +kernel) | with_reducible apply State.countLoss_same
    | with_reducible apply State.setPower_same

theorem State.watchGrid_same {k : Part} {a s : State}
    (hk : k ∉ [.power])
    (h : State.Same k a s) :
    State.Same k a (State.watchGrid s) := by
  unfold State.watchGrid
  repeat' first
    | with_reducible assumption | exact notMem_of hk (by decide +kernel) | with_reducible apply State.setPower_same

theorem State.trackWu_same {k : Part} {a s : State} {x1}
    (hk : k ∉ [.power])
    (h : State.Same k a s) :
    State.Same k a (State.trackWu s x1) := by
  unfold State.trackWu
  repeat' first
    | with_reducible assumption | exact notMem_of hk (by decide +kernel) | with_reducible apply State.setPower_same

theorem State.publishGrid_same {k : Part} {a s : State} {x1 x2 x3 x4 x5}
    (hk : k ∉ [.engines])
    (h : State.Same k a s) :
    State.Same k a (State.publishGrid s x1 x2 x3 x4 x5) := by
  unfold State.publishGrid
  repeat' first
    | with_reducible assumption | exact notMem_of hk (by decide +kernel) | with_reducible apply State.setEng_same

theorem State.gridJob_same {k : Part} {a s : State} {x1}
    (hk : k ∉ [.reg 0x3040, .engines, .power, .free])
    (h : State.Same k a s) :
    State.Same k a (State.gridJob s x1) := by
  unfold State.gridJob
  try lift_lets -underBinder
  repeat' first
    | with_reducible assumption | exact notMem_of hk (by decide +kernel)
    | (intro x
       first
         | (refine same_of (a := a) (k := k) x ?_ fun _ => ?_
            unfold x
            try lift_lets -underBinder
            rotate_left
            clear_value x)
         | clear_value x
         | skip)
    | lift_lets -underBinder | with_reducible apply State.countLoss_same | with_reducible apply State.trackWu_same
    | with_reducible apply State.publishGrid_same | with_reducible apply State.setPower_same
    | with_reducible apply State.draw_same | with_reducible apply State.wr_same
    | with_reducible apply State.trackGrid_same | (split <;> try lift_lets -underBinder)

theorem State.stagePhase_same {k : Part} {a s : State} {x1 x2}
    (hk : k ∉ [.units])
    (h : State.Same k a s) :
    State.Same k a (State.stagePhase s x1 x2) := by
  unfold State.stagePhase
  repeat' first
    | with_reducible assumption | exact notMem_of hk (by decide +kernel) | with_reducible apply State.stageUnit_same

theorem State.rampVdc_same {k : Part} {a s : State}
    (hk : k ∉ [.power])
    (h : State.Same k a s) :
    State.Same k a (State.rampVdc s) := by
  unfold State.rampVdc
  repeat' first
    | with_reducible assumption | exact notMem_of hk (by decide +kernel) | with_reducible apply State.setPower_same

theorem State.afeJob_same {k : Part} {a s : State}
    (hk : k ∉ [.reg 0x3040, .units, .power, .free])
    (h : State.Same k a s) :
    State.Same k a (State.afeJob s) := by
  unfold State.afeJob
  try lift_lets -underBinder
  repeat' first
    | with_reducible assumption | exact notMem_of hk (by decide +kernel)
    | (intro x
       first
         | (refine same_of (a := a) (k := k) x ?_ fun _ => ?_
            unfold x
            try lift_lets -underBinder
            rotate_left
            clear_value x)
         | clear_value x
         | skip)
    | lift_lets -underBinder | with_reducible apply State.rampVdc_same | with_reducible apply State.draw_same
    | with_reducible apply State.setPower_same | with_reducible apply State.wr_same | with_reducible apply each_same
    | with_reducible apply State.stagePhase_same | (split <;> try lift_lets -underBinder)

theorem State.linkJob_same {k : Part} {a s : State}
    (hk : k ∉ [.reg 0x3070, .power])
    (h : State.Same k a s) :
    State.Same k a (State.linkJob s) := by
  unfold State.linkJob
  try lift_lets -underBinder
  repeat' first
    | with_reducible assumption | exact notMem_of hk (by decide +kernel)
    | (intro x
       first
         | (refine same_of (a := a) (k := k) x ?_ fun _ => ?_
            unfold x
            try lift_lets -underBinder
            rotate_left
            clear_value x)
         | clear_value x
         | skip)
    | lift_lets -underBinder | with_reducible apply State.setPower_same | with_reducible apply State.wr_same
    | (split <;> try lift_lets -underBinder)

theorem State.chopJob_same {k : Part} {a s : State}
    (hk : k ∉ [.reg 0x3070, .units, .power])
    (h : State.Same k a s) :
    State.Same k a (State.chopJob s) := by
  unfold State.chopJob
  try lift_lets -underBinder
  repeat' first
    | with_reducible assumption | exact notMem_of hk (by decide +kernel)
    | (intro x
       first
         | (refine same_of (a := a) (k := k) x ?_ fun _ => ?_
            unfold x
            try lift_lets -underBinder
            rotate_left
            clear_value x)
         | clear_value x
         | skip)
    | lift_lets -underBinder | with_reducible apply State.chopOn_same | with_reducible apply State.chopOff_same
    | (split <;> try lift_lets -underBinder)

theorem State.dabJob_same {k : Part} {a s : State} {x1 x2 x3}
    (hk : k ∉ [.reg 0x3101, .reg 0x3102, .reg 0x3103, .reg 0x3105, .engines, .dies, .free])
    (h : State.Same k a s) :
    State.Same k a (State.dabJob s x1 x2 x3) := by
  unfold State.dabJob
  try lift_lets -underBinder
  repeat' first
    | with_reducible assumption | exact notMem_of hk (by decide +kernel)
    | (intro x
       first
         | (refine same_of (a := a) (k := k) x ?_ fun _ => ?_
            unfold x
            try lift_lets -underBinder
            rotate_left
            clear_value x)
         | clear_value x
         | skip)
    | lift_lets -underBinder | with_reducible apply State.draw_same | with_reducible apply State.setDie_same
    | with_reducible apply State.wr_same | with_reducible apply State.setEng_same
    | (split <;> try lift_lets -underBinder)

theorem State.setGates_same {k : Part} {a s : State} {x1 x2}
    (hk : k ∉ [.units])
    (h : State.Same k a s) :
    State.Same k a (State.setGates s x1 x2) := by
  unfold State.setGates
  try lift_lets -underBinder
  repeat' first
    | with_reducible assumption | exact notMem_of hk (by decide +kernel)
    | (intro x
       first
         | (refine same_of (a := a) (k := k) x ?_ fun _ => ?_
            unfold x
            try lift_lets -underBinder
            rotate_left
            clear_value x)
         | clear_value x
         | skip)
    | lift_lets -underBinder | with_reducible apply each_same | with_reducible apply State.askNow_same
    | with_reducible apply State.setUnit_same | (split <;> try lift_lets -underBinder)

theorem State.floatAll_same {k : Part} {a s : State} {x1}
    (hk : k ∉ [.units])
    (h : State.Same k a s) :
    State.Same k a (State.floatAll s x1) := by
  unfold State.floatAll
  repeat' first
    | with_reducible assumption | exact notMem_of hk (by decide +kernel) | with_reducible apply State.setGates_same

theorem State.driveCut_same {k : Part} {a s : State} {x1}
    (hk : k ∉ [.units])
    (h : State.Same k a s) :
    State.Same k a (State.driveCut s x1) := by
  unfold State.driveCut
  repeat' first
    | with_reducible assumption | exact notMem_of hk (by decide +kernel) | with_reducible apply State.cutUnits_same
    | with_reducible apply State.floatAll_same

theorem State.driveLow_same {k : Part} {a s : State} {x1}
    (hk : k ∉ [.units])
    (h : State.Same k a s) :
    State.Same k a (State.driveLow s x1) := by
  unfold State.driveLow
  repeat' first
    | with_reducible assumption | exact notMem_of hk (by decide +kernel) | with_reducible apply State.driveCut_same
    | split

theorem State.driveRun_same {k : Part} {a s : State} {x1}
    (hk : k ∉ [.units])
    (h : State.Same k a s) :
    State.Same k a (State.driveRun s x1) := by
  unfold State.driveRun
  try lift_lets -underBinder
  repeat' first
    | with_reducible assumption | exact notMem_of hk (by decide +kernel)
    | (intro x
       first
         | (refine same_of (a := a) (k := k) x ?_ fun _ => ?_
            unfold x
            try lift_lets -underBinder
            rotate_left
            clear_value x)
         | clear_value x
         | skip)
    | lift_lets -underBinder | with_reducible apply each_same | with_reducible apply State.startUnit_same
    | (split <;> try lift_lets -underBinder)

theorem State.enterDrive_same {k : Part} {a s : State} {x1 x2}
    (hk : k ∉ [.reg 0x341A, .bldc])
    (h : State.Same k a s) :
    State.Same k a (State.enterDrive s x1 x2) := by
  unfold State.enterDrive
  repeat' first
    | with_reducible assumption | exact notMem_of hk (by decide +kernel) | with_reducible apply State.wr_same
    | with_reducible apply State.setDrive_same

theorem State.driveDuty_same {k : Part} {a s : State} {x1 x2}
    (hk : k ∉ [.units])
    (h : State.Same k a s) :
    State.Same k a (State.driveDuty s x1 x2) := by
  unfold State.driveDuty
  try lift_lets -underBinder
  repeat' first
    | with_reducible assumption | exact notMem_of hk (by decide +kernel)
    | (intro x
       first
         | (refine same_of (a := a) (k := k) x ?_ fun _ => ?_
            unfold x
            try lift_lets -underBinder
            rotate_left
            clear_value x)
         | clear_value x
         | skip)
    | lift_lets -underBinder | with_reducible apply each_same | with_reducible apply State.stageUnit_same
    | (split <;> try lift_lets -underBinder)

theorem State.latchDrive_same {k : Part} {a s : State} {x1 x2}
    (hk : k ∉ [.reg 0x341A, .reg 0x3420, .reg 0x6000, .units, .engines, .dies, .bldc, .trail])
    (h : State.Same k a s) :
    State.Same k a (State.latchDrive s x1 x2) := by
  unfold State.latchDrive
  repeat' first
    | with_reducible assumption | exact notMem_of hk (by decide +kernel) | with_reducible apply State.wr_same
    | with_reducible apply State.enterDrive_same | with_reducible apply State.driveCut_same
    | with_reducible apply State.setDrive_same | with_reducible apply State.note_same
    | with_reducible apply State.dropJobs_same | split

theorem State.showSpeed_same {k : Part} {a s : State} {x1 x2}
    (hk : k ∉ [.reg 0x341B])
    (h : State.Same k a s) :
    State.Same k a (State.showSpeed s x1 x2) := by
  unfold State.showSpeed
  repeat' first
    | with_reducible assumption | exact notMem_of hk (by decide +kernel) | with_reducible apply State.wr_same

theorem State.countReversal_same {k : Part} {a s : State} {x1 x2}
    (hk : k ∉ [.reg 0x341F])
    (h : State.Same k a s) :
    State.Same k a (State.countReversal s x1 x2) := by
  unfold State.countReversal
  try lift_lets -underBinder
  repeat' first
    | with_reducible assumption | exact notMem_of hk (by decide +kernel)
    | (intro x
       first
         | (refine same_of (a := a) (k := k) x ?_ fun _ => ?_
            unfold x
            try lift_lets -underBinder
            rotate_left
            clear_value x)
         | clear_value x
         | skip)
    | lift_lets -underBinder | with_reducible apply State.inc_same | (split <;> try lift_lets -underBinder)

theorem State.beginListen_same {k : Part} {a s : State} {x1}
    (hk : k ∉ [.reg 0x341A, .units, .bldc])
    (h : State.Same k a s) :
    State.Same k a (State.beginListen s x1) := by
  unfold State.beginListen
  repeat' first
    | with_reducible assumption | exact notMem_of hk (by decide +kernel) | with_reducible apply State.setDrive_same
    | with_reducible apply State.enterDrive_same | with_reducible apply State.driveLow_same

theorem setpointSet_same {k : Part} {a s : State} {x1 x2 x3}
    (hk : k ∉ [.reg 0x1200, .reg 0x2500, .reg 0x3400, .reg 0x341A, .reg 0x6000, .clock, .units, .slots, .dies, .bldc,
    .trail, .standbyDue])
    (h : State.Same k a s) :
    State.Same k a (setpointSet x1 x2 s x3) := by
  unfold setpointSet
  try lift_lets -underBinder
  repeat' first
    | with_reducible assumption | exact notMem_of hk (by decide +kernel)
    | (intro x
       first
         | (refine same_of (a := a) (k := k) x ?_ fun _ => ?_
            unfold x
            try lift_lets -underBinder
            rotate_left
            clear_value x)
         | clear_value x
         | skip)
    | lift_lets -underBinder | with_reducible apply State.wr_same | with_reducible apply State.leaveStandby_same
    | with_reducible apply State.beginListen_same | with_reducible apply State.enterDrive_same
    | with_reducible apply State.driveLow_same | (split <;> try lift_lets -underBinder)

theorem State.catchRotor_same {k : Part} {a s : State} {x1 x2 x3 x4}
    (hk : k ∉ [.reg 0x341A, .reg 0x341B, .units, .bldc, .free])
    (h : State.Same k a s) :
    State.Same k a (State.catchRotor s x1 x2 x3 x4) := by
  unfold State.catchRotor
  repeat' first
    | with_reducible assumption | exact notMem_of hk (by decide +kernel) | with_reducible apply State.draw_same
    | with_reducible apply State.setDrive_same | with_reducible apply State.driveRun_same
    | with_reducible apply State.driveDuty_same | with_reducible apply State.showSpeed_same
    | with_reducible apply State.enterDrive_same | with_reducible apply State.setGates_same | split

theorem State.beginAlign_same {k : Part} {a s : State} {x1}
    (hk : k ∉ [.reg 0x341A, .units, .bldc])
    (h : State.Same k a s) :
    State.Same k a (State.beginAlign s x1) := by
  unfold State.beginAlign
  repeat' first
    | with_reducible assumption | exact notMem_of hk (by decide +kernel) | with_reducible apply State.setDrive_same
    | with_reducible apply State.driveRun_same | with_reducible apply State.enterDrive_same
    | with_reducible apply State.setGates_same | with_reducible apply State.driveDuty_same

theorem State.beginBrake_same {k : Part} {a s : State} {x1}
    (hk : k ∉ [.reg 0x341A, .units, .bldc])
    (h : State.Same k a s) :
    State.Same k a (State.beginBrake s x1) := by
  unfold State.beginBrake
  repeat' first
    | with_reducible assumption | exact notMem_of hk (by decide +kernel) | with_reducible apply State.setDrive_same
    | with_reducible apply State.driveRun_same | with_reducible apply State.enterDrive_same
    | with_reducible apply State.setGates_same | with_reducible apply State.driveDuty_same

theorem State.commutate_same {k : Part} {a s : State} {x1}
    (hk : k ∉ [.reg 0x341B, .units, .bldc])
    (h : State.Same k a s) :
    State.Same k a (State.commutate s x1) := by
  unfold State.commutate
  try lift_lets -underBinder
  repeat' first
    | with_reducible assumption | exact notMem_of hk (by decide +kernel)
    | (intro x
       first
         | (refine same_of (a := a) (k := k) x ?_ fun _ => ?_
            unfold x
            try lift_lets -underBinder
            rotate_left
            clear_value x)
         | clear_value x
         | skip)
    | lift_lets -underBinder | with_reducible apply State.setGates_same | with_reducible apply State.setDrive_same
    | with_reducible apply State.showSpeed_same | (split <;> try lift_lets -underBinder)

theorem State.planComm_same {k : Part} {a s : State} {x1 x2}
    (hk : k ∉ [.bldc])
    (h : State.Same k a s) :
    State.Same k a (State.planComm s x1 x2) := by
  unfold State.planComm
  repeat' first
    | with_reducible assumption | exact notMem_of hk (by decide +kernel) | with_reducible apply State.setDrive_same

theorem State.handover_same {k : Part} {a s : State} {x1 x2}
    (hk : k ∉ [.reg 0x341A, .bldc])
    (h : State.Same k a s) :
    State.Same k a (State.handover s x1 x2) := by
  unfold State.handover
  repeat' first
    | with_reducible assumption | exact notMem_of hk (by decide +kernel) | with_reducible apply State.enterDrive_same
    | with_reducible apply State.planComm_same | with_reducible apply State.setDrive_same

theorem State.failDrive_same {k : Part} {a s : State} {x1 x2}
    (hk : k ∉ [.reg 0x341A, .reg 0x341D, .reg 0x6000, .units, .dies, .bldc, .trail])
    (h : State.Same k a s) :
    State.Same k a (State.failDrive s x1 x2) := by
  unfold State.failDrive
  repeat' first
    | with_reducible assumption | exact notMem_of hk (by decide +kernel) | with_reducible apply State.wr_same
    | with_reducible apply State.setDrive_same | with_reducible apply State.note_same
    | with_reducible apply State.enterDrive_same | with_reducible apply State.driveLow_same

theorem State.driveLimit_same {k : Part} {a s : State} {x1}
    (hk : k ∉ [.reg 0x341E, .units, .bldc])
    (h : State.Same k a s) :
    State.Same k a (State.driveLimit s x1) := by
  unfold State.driveLimit
  try lift_lets -underBinder
  repeat' first
    | with_reducible assumption | exact notMem_of hk (by decide +kernel)
    | (intro x
       first
         | (refine same_of (a := a) (k := k) x ?_ fun _ => ?_
            unfold x
            try lift_lets -underBinder
            rotate_left
            clear_value x)
         | clear_value x
         | skip)
    | lift_lets -underBinder | with_reducible apply each_same | with_reducible apply State.setUnit_same
    | with_reducible apply State.inc_same | with_reducible apply State.setDrive_same
    | (split <;> try lift_lets -underBinder)

theorem State.driveTrip_same {k : Part} {a s : State} {x1}
    (hk : k ∉ [.reg 0x341A, .reg 0x3420, .reg 0x6000, .units, .engines, .dies, .bldc, .trail])
    (h : State.Same k a s) :
    State.Same k a (State.driveTrip s x1) := by
  unfold State.driveTrip
  repeat' first
    | with_reducible assumption | exact notMem_of hk (by decide +kernel) | with_reducible apply State.latchDrive_same

theorem State.loadCheck_same {k : Part} {a s : State} {x1 x2}
    (hk : k ∉ [.reg 0x3421, .bldc])
    (h : State.Same k a s) :
    State.Same k a (State.loadCheck s x1 x2) := by
  unfold State.loadCheck
  try lift_lets -underBinder
  repeat' first
    | with_reducible assumption | exact notMem_of hk (by decide +kernel)
    | (intro x
       first
         | (refine same_of (a := a) (k := k) x ?_ fun _ => ?_
            unfold x
            try lift_lets -underBinder
            rotate_left
            clear_value x)
         | clear_value x
         | skip)
    | lift_lets -underBinder | with_reducible apply State.setDrive_same | with_reducible apply State.wr_same
    | (split <;> try lift_lets -underBinder)

theorem State.speedLoop_same {k : Part} {a s : State} {x1 x2}
    (hk : k ∉ [.units, .bldc])
    (h : State.Same k a s) :
    State.Same k a (State.speedLoop s x1 x2) := by
  unfold State.speedLoop
  repeat' first
    | with_reducible assumption | exact notMem_of hk (by decide +kernel) | with_reducible apply State.setDrive_same
    | with_reducible apply State.driveDuty_same

theorem State.stopSlow_same {k : Part} {a s : State} {x1}
    (hk : k ∉ [.reg 0x341A, .units, .bldc])
    (h : State.Same k a s) :
    State.Same k a (State.stopSlow s x1) := by
  unfold State.stopSlow
  try lift_lets -underBinder
  repeat' first
    | with_reducible assumption | exact notMem_of hk (by decide +kernel)
    | (intro x
       first
         | (refine same_of (a := a) (k := k) x ?_ fun _ => ?_
            unfold x
            try lift_lets -underBinder
            rotate_left
            clear_value x)
         | clear_value x
         | skip)
    | lift_lets -underBinder | with_reducible apply State.enterDrive_same | with_reducible apply State.driveLow_same
    | with_reducible apply State.beginListen_same | (split <;> try lift_lets -underBinder)

theorem State.bldcJob_same {k : Part} {a s : State} {x1}
    (hk : k ∉ [.reg 0x341A, .reg 0x341C, .reg 0x3421, .units, .bldc])
    (h : State.Same k a s) :
    State.Same k a (State.bldcJob s x1) := by
  unfold State.bldcJob
  try lift_lets -underBinder
  repeat' first
    | with_reducible assumption | exact notMem_of hk (by decide +kernel)
    | (intro x
       first
         | (refine same_of (a := a) (k := k) x ?_ fun _ => ?_
            unfold x
            try lift_lets -underBinder
            rotate_left
            clear_value x)
         | clear_value x
         | skip)
    | lift_lets -underBinder | with_reducible apply State.wr_same | with_reducible apply State.driveDuty_same
    | with_reducible apply State.setDrive_same | with_reducible apply State.loadCheck_same
    | with_reducible apply State.speedLoop_same | with_reducible apply State.stopSlow_same
    | (split <;> try lift_lets -underBinder)

theorem State.axisBit_same {k : Part} {a s : State} {x1 x2 x3}
    (hk : k ∉ [.reg 0x3450])
    (h : State.Same k a s) :
    State.Same k a (State.axisBit s x1 x2 x3) := by
  unfold State.axisBit
  repeat' first
    | with_reducible assumption | exact notMem_of hk (by decide +kernel) | with_reducible apply State.wr_same

theorem State.targetHere_same {k : Part} {a s : State} {x1}
    (hk : k ∉ [.reg 0x3441])
    (h : State.Same k a s) :
    State.Same k a (State.targetHere s x1) := by
  unfold State.targetHere
  repeat' first
    | with_reducible assumption | exact notMem_of hk (by decide +kernel) | with_reducible apply State.wr_same

theorem State.axisLow_same {k : Part} {a s : State} {x1 x2}
    (hk : k ∉ [.reg 0x344E, .reg 0x344F, .reg 0x3450, .units, .axes])
    (h : State.Same k a s) :
    State.Same k a (State.axisLow s x1 x2) := by
  unfold State.axisLow
  repeat' first
    | with_reducible assumption | exact notMem_of hk (by decide +kernel) | with_reducible apply State.setAxis_same
    | with_reducible apply State.cutUnits_same | with_reducible apply State.axisBit_same
    | with_reducible apply State.wr_same

theorem State.latchAxis_same {k : Part} {a s : State} {x1 x2}
    (hk : k ∉ [.reg 0x344E, .reg 0x344F, .reg 0x3450, .reg 0x3457, .reg 0x6000, .units, .engines, .dies, .axes,
    .trail])
    (h : State.Same k a s) :
    State.Same k a (State.latchAxis s x1 x2) := by
  unfold State.latchAxis
  repeat' first
    | with_reducible assumption | exact notMem_of hk (by decide +kernel) | with_reducible apply State.wr_same
    | with_reducible apply State.axisLow_same | with_reducible apply State.setAxis_same
    | with_reducible apply State.note_same | with_reducible apply State.dropJobs_same | split

theorem targetSet_same {k : Part} {a s : State} {x1 x2 x3}
    (hk : k ∉ [.reg 0x1200, .reg 0x2500, .reg 0x3441, .reg 0x6000, .clock, .slots, .dies, .axes, .trail, .standbyDue])
    (h : State.Same k a s) :
    State.Same k a (targetSet x1 x2 s x3) := by
  unfold targetSet
  repeat' first
    | with_reducible assumption | exact notMem_of hk (by decide +kernel)
    | with_reducible apply State.leaveStandby_same | with_reducible apply State.wr_same
    | with_reducible apply State.setAxis_same

theorem referenceSet_same {k : Part} {a s : State} {x1 x2 x3}
    (hk : k ∉ [.reg 0x3441, .reg 0x344D, .reg 0x3450, .axes])
    (h : State.Same k a s) :
    State.Same k a (referenceSet x1 x2 s x3) := by
  unfold referenceSet
  repeat' first
    | with_reducible assumption | exact notMem_of hk (by decide +kernel) | with_reducible apply State.setAxis_same
    | with_reducible apply State.axisBit_same | with_reducible apply State.wr_same

theorem State.axisStands_same {k : Part} {a s : State} {x1}
    (hk : k ∉ [.reg 0x344F, .axes])
    (h : State.Same k a s) :
    State.Same k a (State.axisStands s x1) := by
  unfold State.axisStands
  repeat' first
    | with_reducible assumption | exact notMem_of hk (by decide +kernel) | with_reducible apply State.wr_same
    | with_reducible apply State.setAxis_same

theorem State.axisRun_same {k : Part} {a s : State} {x1}
    (hk : k ∉ [.units])
    (h : State.Same k a s) :
    State.Same k a (State.axisRun s x1) := by
  unfold State.axisRun
  try lift_lets -underBinder
  repeat' first
    | with_reducible assumption | exact notMem_of hk (by decide +kernel)
    | (intro x
       first
         | (refine same_of (a := a) (k := k) x ?_ fun _ => ?_
            unfold x
            try lift_lets -underBinder
            rotate_left
            clear_value x)
         | clear_value x
         | skip)
    | lift_lets -underBinder | with_reducible apply each_same | with_reducible apply State.startUnit_same
    | (split <;> try lift_lets -underBinder)

theorem State.applyMove_same {k : Part} {a s : State} {x1 x2 x3 x4}
    (hk : k ∉ [.reg 0x344F, .reg 0x3454, .axes])
    (h : State.Same k a s) :
    State.Same k a (State.applyMove s x1 x2 x3 x4) := by
  unfold State.applyMove
  try lift_lets -underBinder
  repeat' first
    | with_reducible assumption | exact notMem_of hk (by decide +kernel)
    | (intro x
       first
         | (refine same_of (a := a) (k := k) x ?_ fun _ => ?_
            unfold x
            try lift_lets -underBinder
            rotate_left
            clear_value x)
         | clear_value x
         | skip)
    | lift_lets -underBinder | with_reducible apply State.axisStands_same | with_reducible apply State.setAxis_same
    | with_reducible apply State.wr_same | with_reducible apply State.inc_same
    | (split <;> try lift_lets -underBinder)

theorem State.stopHere_same {k : Part} {a s : State} {x1 x2}
    (hk : k ∉ [.reg 0x3441, .reg 0x344F, .reg 0x3450, .axes])
    (h : State.Same k a s) :
    State.Same k a (State.stopHere s x1 x2) := by
  unfold State.stopHere
  repeat' first
    | with_reducible assumption | exact notMem_of hk (by decide +kernel) | with_reducible apply State.targetHere_same
    | with_reducible apply State.axisStands_same | with_reducible apply State.axisBit_same | split

theorem State.profileStep_same {k : Part} {a s : State} {x1}
    (hk : k ∉ [.reg 0x3441, .reg 0x344F, .reg 0x3450, .reg 0x3454, .units, .axes])
    (h : State.Same k a s) :
    State.Same k a (State.profileStep s x1) := by
  unfold State.profileStep
  try lift_lets -underBinder
  repeat' first
    | with_reducible assumption | exact notMem_of hk (by decide +kernel)
    | (intro x
       first
         | (refine same_of (a := a) (k := k) x ?_ fun _ => ?_
            unfold x
            try lift_lets -underBinder
            rotate_left
            clear_value x)
         | clear_value x
         | skip)
    | lift_lets -underBinder | with_reducible apply State.stopHere_same | with_reducible apply State.applyMove_same
    | with_reducible apply State.axisBit_same | with_reducible apply State.axisRun_same
    | (split <;> try lift_lets -underBinder)

theorem State.followStop_same {k : Part} {a s : State} {x1 x2}
    (hk : k ∉ [.reg 0x344F, .reg 0x3450, .axes])
    (h : State.Same k a s) :
    State.Same k a (State.followStop s x1 x2) := by
  unfold State.followStop
  repeat' first
    | with_reducible assumption | exact notMem_of hk (by decide +kernel) | with_reducible apply State.axisStands_same
    | with_reducible apply State.setAxis_same | with_reducible apply State.axisBit_same | split

theorem State.followDown_same {k : Part} {a s : State} {x1 x2}
    (hk : k ∉ [.reg 0x344F, .reg 0x3450, .axes])
    (h : State.Same k a s) :
    State.Same k a (State.followDown s x1 x2) := by
  unfold State.followDown
  try lift_lets -underBinder
  repeat' first
    | with_reducible assumption | exact notMem_of hk (by decide +kernel)
    | (intro x
       first
         | (refine same_of (a := a) (k := k) x ?_ fun _ => ?_
            unfold x
            try lift_lets -underBinder
            rotate_left
            clear_value x)
         | clear_value x
         | skip)
    | lift_lets -underBinder | with_reducible apply State.setAxis_same | with_reducible apply State.followStop_same
    | (split <;> try lift_lets -underBinder)

theorem State.followStep_same {k : Part} {a s : State} {x1}
    (hk : k ∉ [.reg 0x344F, .reg 0x3450, .units, .axes])
    (h : State.Same k a s) :
    State.Same k a (State.followStep s x1) := by
  unfold State.followStep
  try lift_lets -underBinder
  repeat' first
    | with_reducible assumption | exact notMem_of hk (by decide +kernel)
    | (intro x
       first
         | (refine same_of (a := a) (k := k) x ?_ fun _ => ?_
            unfold x
            try lift_lets -underBinder
            rotate_left
            clear_value x)
         | clear_value x
         | skip)
    | lift_lets -underBinder | with_reducible apply State.followStop_same
    | with_reducible apply State.followDown_same | with_reducible apply State.axisStands_same
    | with_reducible apply State.axisBit_same | with_reducible apply State.axisRun_same
    | with_reducible apply State.setAxis_same | with_reducible apply State.wr_same
    | (split <;> try lift_lets -underBinder)

theorem State.profileJob_same {k : Part} {a s : State} {x1 x2}
    (hk : k ∉ [.reg 0x3441, .reg 0x344D, .reg 0x344E, .reg 0x344F, .reg 0x3450, .reg 0x3454, .reg 0x3455, .units,
    .engines, .axes])
    (h : State.Same k a s) :
    State.Same k a (State.profileJob s x1 x2) := by
  unfold State.profileJob
  repeat' first
    | with_reducible assumption | exact notMem_of hk (by decide +kernel) | with_reducible apply State.followStep_same
    | with_reducible apply State.profileStep_same | with_reducible apply State.setAxis_same
    | with_reducible apply State.wr_same | with_reducible apply State.setEng_same | split

theorem State.stepJob_same {k : Part} {a s : State} {x1}
    (hk : k ∉ [.units, .axes])
    (h : State.Same k a s) :
    State.Same k a (State.stepJob s x1) := by
  unfold State.stepJob
  try lift_lets -underBinder
  repeat' first
    | with_reducible assumption | exact notMem_of hk (by decide +kernel)
    | (intro x
       first
         | (refine same_of (a := a) (k := k) x ?_ fun _ => ?_
            unfold x
            try lift_lets -underBinder
            rotate_left
            clear_value x)
         | clear_value x
         | skip)
    | lift_lets -underBinder | with_reducible apply State.setAxis_same | with_reducible apply each_same
    | with_reducible apply State.stageUnit_same | (split <;> try lift_lets -underBinder)

theorem State.stoDrive_same {k : Part} {a s : State} {x1}
    (hk : k ∉ [.reg 0x341A, .units, .bldc])
    (h : State.Same k a s) :
    State.Same k a (State.stoDrive s x1) := by
  unfold State.stoDrive
  repeat' first
    | with_reducible assumption | exact notMem_of hk (by decide +kernel) | with_reducible apply State.driveCut_same
    | with_reducible apply State.wr_same | with_reducible apply State.setDrive_same

theorem State.stoAxis_same {k : Part} {a s : State} {x1}
    (hk : k ∉ [.reg 0x344E, .reg 0x344F, .reg 0x3450, .units, .axes])
    (h : State.Same k a s) :
    State.Same k a (State.stoAxis s x1) := by
  unfold State.stoAxis
  repeat' first
    | with_reducible assumption | exact notMem_of hk (by decide +kernel) | with_reducible apply State.axisLow_same

theorem State.freeDrive_same {k : Part} {a s : State} {x1}
    (hk : k ∉ [.reg 0x3400, .reg 0x341A, .bldc])
    (h : State.Same k a s) :
    State.Same k a (State.freeDrive s x1) := by
  unfold State.freeDrive
  repeat' first
    | with_reducible assumption | exact notMem_of hk (by decide +kernel) | with_reducible apply State.wr_same
    | with_reducible apply State.enterDrive_same | split

theorem State.freeAxis_same {k : Part} {a s : State} {x1}
    (hk : k ∉ [.reg 0x3441, .reg 0x344F, .reg 0x3450, .axes])
    (h : State.Same k a s) :
    State.Same k a (State.freeAxis s x1) := by
  unfold State.freeAxis
  repeat' first
    | with_reducible assumption | exact notMem_of hk (by decide +kernel) | with_reducible apply State.axisBit_same
    | with_reducible apply State.targetHere_same | with_reducible apply State.wr_same
    | with_reducible apply State.setAxis_same | split

theorem State.stoOut_same {k : Part} {a s : State} {x1}
    (hk : k ∉ [.reg 0x341A, .reg 0x344E, .reg 0x344F, .reg 0x3450, .units, .bldc, .axes])
    (h : State.Same k a s) :
    State.Same k a (State.stoOut s x1) := by
  unfold State.stoOut
  try lift_lets -underBinder
  repeat' first
    | with_reducible assumption | exact notMem_of hk (by decide +kernel)
    | (intro x
       first
         | (refine same_of (a := a) (k := k) x ?_ fun _ => ?_
            unfold x
            try lift_lets -underBinder
            rotate_left
            clear_value x)
         | clear_value x
         | skip)
    | lift_lets -underBinder | with_reducible apply each_same | with_reducible apply State.stoAxis_same
    | with_reducible apply State.stoDrive_same | (split <;> try lift_lets -underBinder)

theorem State.freeOut_same {k : Part} {a s : State} {x1}
    (hk : k ∉ [.reg 0x3400, .reg 0x341A, .reg 0x3441, .reg 0x344F, .reg 0x3450, .bldc, .axes])
    (h : State.Same k a s) :
    State.Same k a (State.freeOut s x1) := by
  unfold State.freeOut
  try lift_lets -underBinder
  repeat' first
    | with_reducible assumption | exact notMem_of hk (by decide +kernel)
    | (intro x
       first
         | (refine same_of (a := a) (k := k) x ?_ fun _ => ?_
            unfold x
            try lift_lets -underBinder
            rotate_left
            clear_value x)
         | clear_value x
         | skip)
    | lift_lets -underBinder | with_reducible apply each_same | with_reducible apply State.freeAxis_same
    | with_reducible apply State.freeDrive_same | (split <;> try lift_lets -underBinder)

theorem State.ss1Drive_same {k : Part} {a s : State} {x1}
    (hk : k ∉ [.reg 0x341A, .units, .bldc])
    (h : State.Same k a s) :
    State.Same k a (State.ss1Drive s x1) := by
  unfold State.ss1Drive
  try lift_lets -underBinder
  repeat' first
    | with_reducible assumption | exact notMem_of hk (by decide +kernel)
    | (intro x
       first
         | (refine same_of (a := a) (k := k) x ?_ fun _ => ?_
            unfold x
            try lift_lets -underBinder
            rotate_left
            clear_value x)
         | clear_value x
         | skip)
    | lift_lets -underBinder | with_reducible apply State.setDrive_same | with_reducible apply State.enterDrive_same
    | with_reducible apply State.driveCut_same | (split <;> try lift_lets -underBinder)

theorem State.ss1Axis_same {k : Part} {a s : State} {x1}
    (hk : k ∉ [.axes])
    (h : State.Same k a s) :
    State.Same k a (State.ss1Axis s x1) := by
  unfold State.ss1Axis
  repeat' first
    | with_reducible assumption | exact notMem_of hk (by decide +kernel) | with_reducible apply State.setAxis_same

theorem State.ss1Out_same {k : Part} {a s : State} {x1}
    (hk : k ∉ [.reg 0x341A, .units, .bldc, .axes])
    (h : State.Same k a s) :
    State.Same k a (State.ss1Out s x1) := by
  unfold State.ss1Out
  try lift_lets -underBinder
  repeat' first
    | with_reducible assumption | exact notMem_of hk (by decide +kernel)
    | (intro x
       first
         | (refine same_of (a := a) (k := k) x ?_ fun _ => ?_
            unfold x
            try lift_lets -underBinder
            rotate_left
            clear_value x)
         | clear_value x
         | skip)
    | lift_lets -underBinder | with_reducible apply each_same | with_reducible apply State.ss1Axis_same
    | with_reducible apply State.ss1Drive_same | (split <;> try lift_lets -underBinder)

theorem State.addSums_same {k : Part} {a s : State} {x1 x2}
    (hk : k ∉ [.slots])
    (h : State.Same k a s) :
    State.Same k a (State.addSums s x1 x2) := by
  unfold State.addSums
  try lift_lets -underBinder
  repeat' first
    | with_reducible assumption | exact notMem_of hk (by decide +kernel)
    | (intro x
       first
         | (refine same_of (a := a) (k := k) x ?_ fun _ => ?_
            unfold x
            try lift_lets -underBinder
            rotate_left
            clear_value x)
         | clear_value x
         | skip)
    | lift_lets -underBinder | with_reducible apply each_same | with_reducible apply State.setSlot_same
    | (split <;> try lift_lets -underBinder)

theorem State.enqueue_same {k : Part} {a s : State} {x1 x2}
    (hk : k ∉ [.reg 0x3038, .queues])
    (h : State.Same k a s) :
    State.Same k a (State.enqueue s x1 x2) := by
  unfold State.enqueue
  try lift_lets -underBinder
  repeat' first
    | with_reducible assumption | exact notMem_of hk (by decide +kernel)
    | (intro x
       first
         | (refine same_of (a := a) (k := k) x ?_ fun _ => ?_
            unfold x
            try lift_lets -underBinder
            rotate_left
            clear_value x)
         | clear_value x
         | skip)
    | lift_lets -underBinder | with_reducible apply State.inc_same | with_reducible apply State.setQueue_same
    | (split <;> try lift_lets -underBinder)

theorem State.watchLink_same {k : Part} {a s : State} {x1 x2}
    (hk : k ∉ [.reg 0x3060, .power])
    (h : State.Same k a s) :
    State.Same k a (State.watchLink s x1 x2) := by
  unfold State.watchLink
  repeat' first
    | with_reducible assumption | exact notMem_of hk (by decide +kernel) | with_reducible apply State.wr_same
    | with_reducible apply State.setPower_same | split

theorem State.watchCurrents_same {k : Part} {a s : State} {x1 x2}
    (hk : k ∉ [.power])
    (h : State.Same k a s) :
    State.Same k a (State.watchCurrents s x1 x2) := by
  unfold State.watchCurrents
  repeat' first
    | with_reducible assumption | exact notMem_of hk (by decide +kernel) | with_reducible apply State.setPower_same
    | split

theorem State.afeTrip_same {k : Part} {a s : State}
    (hk : k ∉ [.reg 0x3040, .reg 0x3050, .reg 0x6000, .units, .engines, .dies, .power, .trail])
    (h : State.Same k a s) :
    State.Same k a (State.afeTrip s) := by
  unfold State.afeTrip
  repeat' first
    | with_reducible assumption | exact notMem_of hk (by decide +kernel)
    | with_reducible apply State.controlledStop_same | with_reducible apply State.latchAfe_same

theorem State.crossed_same {k : Part} {a s : State} {x1 x2}
    (hk : k ∉ [.reg 0x3040, .reg 0x3050, .reg 0x3060, .reg 0x341A, .reg 0x341E, .reg 0x3420, .reg 0x344E, .reg 0x344F,
    .reg 0x3450, .reg 0x3457, .reg 0x6000, .units, .engines, .dies, .bldc, .axes, .power, .trail])
    (h : State.Same k a s) :
    State.Same k a (State.crossed s x1 x2) := by
  unfold State.crossed
  repeat' first
    | with_reducible assumption | exact notMem_of hk (by decide +kernel) | with_reducible apply State.level1_same
    | with_reducible apply State.level2_same | with_reducible apply State.afeTrip_same
    | with_reducible apply State.driveLimit_same | with_reducible apply State.driveTrip_same
    | with_reducible apply State.latchAxis_same | split

theorem State.fltGroup_same {k : Part} {a s : State} {x1}
    (hk : k ∉ [.reg 0x341A, .reg 0x3420, .reg 0x344E, .reg 0x344F, .reg 0x3450, .reg 0x3457, .reg 0x6000, .reg 0x6014,
    .units, .engines, .dies, .bldc, .axes, .power, .trail])
    (h : State.Same k a s) :
    State.Same k a (State.fltGroup s x1) := by
  unfold State.fltGroup
  try lift_lets -underBinder
  repeat' first
    | with_reducible assumption | exact notMem_of hk (by decide +kernel)
    | (intro x
       first
         | (refine same_of (a := a) (k := k) x ?_ fun _ => ?_
            unfold x
            try lift_lets -underBinder
            rotate_left
            clear_value x)
         | clear_value x
         | skip)
    | lift_lets -underBinder | with_reducible apply State.setPower_same | with_reducible apply State.wr_same
    | with_reducible apply State.openCorr_same | with_reducible apply each_same
    | with_reducible apply State.setUnit_same | with_reducible apply when'_same
    | with_reducible apply State.dropJobs_same | with_reducible apply State.latchDrive_same
    | with_reducible apply State.latchAxis_same | (split <;> try lift_lets -underBinder)

end Sys2Proof.Machine
end

