-- ==== Sys2Proof/Laws/FrameEngine.lean ====
section
/-! SUPPORT. Which parts of the state the operations of the loop engines, the supervisor and the clocks can change: one lemma for each. -/

namespace Sys2Proof.Machine

set_option Elab.async false

set_option linter.unreachableTactic false
set_option linter.unusedTactic false

theorem State.latchOutputs_same {k : Part} {a s : State} {x1}
    (hk : k ∉ [.reg 0x3040, .reg 0x341A, .reg 0x3420, .reg 0x344E, .reg 0x344F, .reg 0x3450, .reg 0x3457, .reg 0x6000,
    .units, .engines, .dies, .bldc, .axes, .power, .trail, .free])
    (h : State.Same k a s) :
    State.Same k a (State.latchOutputs s x1) := by
  unfold State.latchOutputs
  repeat' first
    | with_reducible assumption | exact notMem_of hk (by decide +kernel) | with_reducible apply State.latchAfe_same
    | with_reducible apply State.setUnit_same | with_reducible apply State.latchDrive_same
    | with_reducible apply State.draw_same | with_reducible apply State.latchAxis_same | split

theorem State.latchSlot_same {k : Part} {a s : State} {x1 x2 x3 x4}
    (hk : k ∉ [.reg 0x2402, .reg 0x2444, .reg 0x2810, .reg 0x3040, .reg 0x3101, .reg 0x341A, .reg 0x3420, .reg 0x344E,
    .reg 0x344F, .reg 0x3450, .reg 0x3457, .reg 0x6000, .reg 0x6010, .reg 0x6012, .chans, .units, .slots, .engines,
    .dies, .bldc, .axes, .power, .trail, .lane, .flight, .free])
    (h : State.Same k a s) :
    State.Same k a (State.latchSlot s x1 x2 x3 x4) := by
  unfold State.latchSlot
  try lift_lets -underBinder
  repeat' first
    | with_reducible assumption | exact notMem_of hk (by decide +kernel)
    | (intro x
       first
         | (refine same_of (a := a) (k := k) x ?_ fun _ => ?_
            unfold x
            try lift_lets -underBinder
            rotate_left
            clear_value x)
         | clear_value x
         | skip)
    | lift_lets -underBinder | with_reducible apply State.openCorr_same
    | with_reducible apply State.latchOutputs_same | with_reducible apply State.dropJobs_same
    | with_reducible apply State.setSlot_same | with_reducible apply State.latchChans_same
    | with_reducible apply State.latchDab_same | (split <;> try lift_lets -underBinder)

theorem State.takeSamples_same {k : Part} {a s : State} {x1 x2 x3}
    (hk : k ∉ [.chans, .units, .slots])
    (h : State.Same k a s) :
    State.Same k a (State.takeSamples s x1 x2 x3) := by
  unfold State.takeSamples
  repeat' first
    | with_reducible assumption | exact notMem_of hk (by decide +kernel) | with_reducible apply State.setSlot_same
    | with_reducible apply State.setUnit_same | with_reducible apply State.setChan_same | split

theorem State.beginRamp_same {k : Part} {a s : State} {x1}
    (hk : k ∉ [.reg 0x2402, .chans, .slots])
    (h : State.Same k a s) :
    State.Same k a (State.beginRamp s x1) := by
  unfold State.beginRamp
  repeat' first
    | with_reducible assumption | exact notMem_of hk (by decide +kernel) | with_reducible apply State.setWord4_same
    | with_reducible apply State.setLaw_same | with_reducible apply State.setRun_same

theorem State.drainStop_same {k : Part} {a s : State} {x1}
    (hk : k ∉ [.chans, .units])
    (h : State.Same k a s) :
    State.Same k a (State.drainStop s x1) := by
  unfold State.drainStop
  try lift_lets -underBinder
  repeat' first
    | with_reducible assumption | exact notMem_of hk (by decide +kernel)
    | (intro x
       first
         | (refine same_of (a := a) (k := k) x ?_ fun _ => ?_
            unfold x
            try lift_lets -underBinder
            rotate_left
            clear_value x)
         | clear_value x
         | skip)
    | lift_lets -underBinder | with_reducible apply each_same | with_reducible apply State.stopUnit_same
    | with_reducible apply State.setRunSt_same | (split <;> try lift_lets -underBinder)

theorem State.drainRelease_same {k : Part} {a s : State} {x1}
    (hk : k ∉ [.reg 0x2402, .chans, .units, .slots])
    (h : State.Same k a s) :
    State.Same k a (State.drainRelease s x1).1 := by
  unfold State.drainRelease
  try lift_lets -underBinder
  repeat' first
    | with_reducible assumption | exact notMem_of hk (by decide +kernel)
    | (intro x
       first
         | (refine same_of (a := a) (k := k) x ?_ fun _ => ?_
            unfold x
            try lift_lets -underBinder
            rotate_left
            clear_value x)
         | clear_value x
         | skip)
    | lift_lets -underBinder | with_reducible apply State.setWord4_same | with_reducible apply State.setLaw_same
    | with_reducible apply State.drainStop_same | with_reducible apply State.setRunSt_same
    | with_reducible apply each_same | with_reducible apply State.stopUnit_same
    | with_reducible apply State.beginRamp_same | (split <;> try lift_lets -underBinder)

theorem State.wakeEngines_same {k : Part} {a s : State} {x1 x2}
    (hk : k ∉ [.engines])
    (h : State.Same k a s) :
    State.Same k a (State.wakeEngines s x1 x2) := by
  unfold State.wakeEngines
  try lift_lets -underBinder
  repeat' first
    | with_reducible assumption | exact notMem_of hk (by decide +kernel)
    | (intro x
       first
         | (refine same_of (a := a) (k := k) x ?_ fun _ => ?_
            unfold x
            try lift_lets -underBinder
            rotate_left
            clear_value x)
         | clear_value x
         | skip)
    | lift_lets -underBinder | with_reducible apply each_same | with_reducible apply State.setEng_same
    | (split <;> try lift_lets -underBinder)

theorem State.postJob_same {k : Part} {a s : State} {x1 x2}
    (hk : k ∉ [.reg 0x2503, .engines])
    (h : State.Same k a s) :
    State.Same k a (State.postJob s x1 x2) := by
  unfold State.postJob
  try lift_lets -underBinder
  repeat' first
    | with_reducible assumption | exact notMem_of hk (by decide +kernel)
    | (intro x
       first
         | (refine same_of (a := a) (k := k) x ?_ fun _ => ?_
            unfold x
            try lift_lets -underBinder
            rotate_left
            clear_value x)
         | clear_value x
         | skip)
    | lift_lets -underBinder | with_reducible apply each_same | with_reducible apply State.setEng_same
    | with_reducible apply State.wakeEngines_same | with_reducible apply State.wr_same
    | (split <;> try lift_lets -underBinder)

theorem State.post_same {k : Part} {a s : State} {x1 x2}
    (hk : k ∉ [.reg 0x2402, .reg 0x2444, .reg 0x2503, .reg 0x2810, .reg 0x3040, .reg 0x3101, .reg 0x341A, .reg 0x3420,
    .reg 0x344E, .reg 0x344F, .reg 0x3450, .reg 0x3457, .reg 0x6000, .reg 0x6010, .reg 0x6012, .chans, .units, .slots,
    .engines, .dies, .bldc, .axes, .power, .trail, .lane, .flight, .free])
    (h : State.Same k a s) :
    State.Same k a (State.post s x1 x2) := by
  unfold State.post
  try lift_lets -underBinder
  repeat' first
    | with_reducible assumption | exact notMem_of hk (by decide +kernel)
    | (intro x
       first
         | (refine same_of (a := a) (k := k) x ?_ fun _ => ?_
            unfold x
            try lift_lets -underBinder
            rotate_left
            clear_value x)
         | clear_value x
         | skip)
    | lift_lets -underBinder | with_reducible apply State.setSlot_same | with_reducible apply State.postJob_same
    | with_reducible apply State.noteAt_same | with_reducible apply State.latchSlot_same
    | (split <;> try lift_lets -underBinder)

theorem State.release_same {k : Part} {a s : State} {x1 x2 x3}
    (hk : k ∉ [.reg 0x2402, .reg 0x2444, .reg 0x2503, .reg 0x2810, .reg 0x3040, .reg 0x3101, .reg 0x341A, .reg 0x3420, .reg 0x344E, .reg 0x344F, .reg 0x3450, .reg 0x3457, .reg 0x6000, .reg 0x6010, .reg 0x6012, .chans, .units, .slots, .engines, .dies, .bldc, .axes, .power, .trail, .lane, .flight, .free])
    (h : State.Same k a s) : State.Same k a (s.release x1 x2 x3) := by
  unfold State.release
  extract_lets q w x
  have hx : State.Same k a x :=
    State.takeSamples_same (notMem_of hk (by decide +kernel)) (State.setSlot_same (notMem_of hk (by decide +kernel)) h)
  clear_value x
  split
  · rename_i c _
    split
    · exact State.post_same (notMem_of hk (by decide +kernel)) hx
    · have hd : State.Same k a (x.drainRelease c).1 := State.drainRelease_same (notMem_of hk (by decide +kernel)) hx
      generalize x.drainRelease c = r at hd ⊢
      obtain ⟨y, go⟩ := r
      dsimp only at hd ⊢
      split
      · exact State.post_same (notMem_of hk (by decide +kernel)) hd
      · exact hd
  · exact State.post_same (notMem_of hk (by decide +kernel)) hx

theorem State.claimJob_same {k : Part} {a s : State} {x1 x2 x3}
    (hk : k ∉ [.slots, .engines])
    (h : State.Same k a s) :
    State.Same k a (State.claimJob s x1 x2 x3) := by
  unfold State.claimJob
  repeat' first
    | with_reducible assumption | exact notMem_of hk (by decide +kernel) | with_reducible apply State.setEng_same
    | with_reducible apply State.setSlot_same

theorem State.arbitrate_same {k : Part} {a s : State} {x1 x2}
    (hk : k ∉ [.slots, .engines])
    (h : State.Same k a s) :
    State.Same k a (State.arbitrate s x1 x2) := by
  unfold State.arbitrate
  try lift_lets -underBinder
  repeat' first
    | with_reducible assumption | exact notMem_of hk (by decide +kernel)
    | (intro x
       first
         | (refine same_of (a := a) (k := k) x ?_ fun _ => ?_
            unfold x
            try lift_lets -underBinder
            rotate_left
            clear_value x)
         | clear_value x
         | skip)
    | lift_lets -underBinder | with_reducible apply each_same | with_reducible apply State.setEng_same
    | with_reducible apply State.claimJob_same | (split <;> try lift_lets -underBinder)

theorem State.startJob_same {k : Part} {a s : State} {x1 x2 x3 x4 x5}
    (hk : k ∉ [.reg 0x2402, .reg 0x2403, .reg 0x2501, .chans, .slots, .engines, .free])
    (h : State.Same k a s) :
    State.Same k a (State.startJob s x1 x2 x3 x4 x5) := by
  unfold State.startJob
  repeat' first
    | with_reducible assumption | exact notMem_of hk (by decide +kernel) | with_reducible apply State.setSlot_same
    | with_reducible apply State.draw_same | with_reducible apply State.inc_same
    | with_reducible apply State.customStart_same | with_reducible apply State.setEng_same | split

theorem State.takeUpTo_same {k : Part} {a s : State} {x1 x2}
    (hk : k ∉ [.slots, .engines])
    (h : State.Same k a s) :
    State.Same k a (State.takeUpTo s x1 x2) := by
  unfold State.takeUpTo
  try lift_lets -underBinder
  repeat' first
    | with_reducible assumption | exact notMem_of hk (by decide +kernel)
    | (intro x
       first
         | (refine same_of (a := a) (k := k) x ?_ fun _ => ?_
            unfold x
            try lift_lets -underBinder
            rotate_left
            clear_value x)
         | clear_value x
         | skip)
    | lift_lets -underBinder | with_reducible apply each_same | with_reducible apply State.arbitrate_same
    | (split <;> try lift_lets -underBinder)

theorem State.stageWord_same {k : Part} {a s : State} {x1 x2 x3}
    (hk : k ∉ [.units])
    (h : State.Same k a s) :
    State.Same k a (State.stageWord s x1 x2 x3) := by
  unfold State.stageWord
  repeat' first
    | with_reducible assumption | exact notMem_of hk (by decide +kernel) | with_reducible apply State.setUnit_same

theorem State.jobCommit_same {k : Part} {a s : State} {x1 x2 x3}
    (hk : k ∉ [.chans, .units])
    (h : State.Same k a s) :
    State.Same k a (State.jobCommit s x1 x2 x3) := by
  unfold State.jobCommit
  repeat' first
    | with_reducible assumption | exact notMem_of hk (by decide +kernel) | with_reducible apply State.commitUnit_same
    | with_reducible apply State.setRunSt_same | split

theorem State.handOver_same {k : Part} {a s : State} {x1 x2 x3}
    (hk : k ∉ [.chans, .units])
    (h : State.Same k a s) :
    State.Same k a (State.handOver s x1 x2 x3) := by
  unfold State.handOver
  try lift_lets -underBinder
  repeat' first
    | with_reducible assumption | exact notMem_of hk (by decide +kernel)
    | (intro x
       first
         | (refine same_of (a := a) (k := k) x ?_ fun _ => ?_
            unfold x
            try lift_lets -underBinder
            rotate_left
            clear_value x)
         | clear_value x
         | skip)
    | lift_lets -underBinder | with_reducible apply each_same | with_reducible apply State.stageWord_same
    | with_reducible apply State.jobCommit_same | (split <;> try lift_lets -underBinder)

theorem State.templateJob_same {k : Part} {a s : State} {x1 x2 x3 x4}
    (hk : k ∉ [.reg 0x2402, .reg 0x2403, .reg 0x2444, .reg 0x2445, .reg 0x2810, .reg 0x2833, .reg 0x3040, .reg 0x3070,
    .reg 0x3101, .reg 0x3102, .reg 0x3103, .reg 0x3105, .reg 0x341A, .reg 0x341C, .reg 0x3421, .reg 0x3441, .reg
    0x344D, .reg 0x344E, .reg 0x344F, .reg 0x3450, .reg 0x3454, .reg 0x3455, .reg 0x6000, .reg 0x6010, .chans, .units,
    .slots, .engines, .dies, .bldc, .axes, .power, .trail, .lane, .flight, .free])
    (h : State.Same k a s) :
    State.Same k a (State.templateJob s x1 x2 x3 x4) := by
  unfold State.templateJob
  repeat' first
    | with_reducible assumption | exact notMem_of hk (by decide +kernel) | with_reducible apply State.afeJob_same
    | with_reducible apply State.gridJob_same | with_reducible apply State.linkJob_same
    | with_reducible apply State.chopJob_same | with_reducible apply State.bldcJob_same
    | with_reducible apply State.stepJob_same | with_reducible apply State.profileJob_same
    | with_reducible apply State.lawJob_same | with_reducible apply State.dabJob_same | split

theorem State.countJob_same {k : Part} {a s : State} {x1 x2 x3}
    (hk : k ∉ [.reg 0x2502, .reg 0x2504, .slots])
    (h : State.Same k a s) :
    State.Same k a (State.countJob s x1 x2 x3) := by
  unfold State.countJob
  repeat' first
    | with_reducible assumption | exact notMem_of hk (by decide +kernel) | with_reducible apply State.setSlot_same
    | with_reducible apply State.inc_same | with_reducible apply State.wr_same

theorem State.finishJob_same {k : Part} {a s : State} {x1 x2 x3}
    (hk : k ∉ [.reg 0x2402, .reg 0x2444, .reg 0x2502, .reg 0x2504, .reg 0x2810, .reg 0x3101, .reg 0x6000, .reg 0x6010,
    .reg 0x6012, .chans, .units, .slots, .engines, .dies, .trail, .lane, .flight])
    (h : State.Same k a s) :
    State.Same k a (State.finishJob s x1 x2 x3) := by
  unfold State.finishJob
  repeat' first
    | with_reducible assumption | exact notMem_of hk (by decide +kernel) | with_reducible apply State.setSlot_same
    | with_reducible apply State.handOver_same | with_reducible apply State.setEng_same
    | with_reducible apply State.countJob_same | with_reducible apply State.standingSources_same | split

theorem descriptorSet_same {k : Part} {a s : State} {x1 x2}
    (hk : k ∉ [.reg 0x2505, .descs])
    (h : State.Same k a s) :
    State.Same k a (descriptorSet x1 s x2) := by
  unfold descriptorSet
  repeat' first
    | with_reducible assumption | exact notMem_of hk (by decide +kernel) | with_reducible apply State.wr_same
    | with_reducible apply State.setDesc_same

theorem State.admitAfter_same {k : Part} {a s : State} {x1 x2}
    (hk : k ∉ [.reg 0x2500, .slots, .dies])
    (h : State.Same k a s) :
    State.Same k a (State.admitAfter s x1 x2) := by
  unfold State.admitAfter
  try lift_lets -underBinder
  repeat' first
    | with_reducible assumption | exact notMem_of hk (by decide +kernel)
    | (intro x
       first
         | (refine same_of (a := a) (k := k) x ?_ fun _ => ?_
            unfold x
            try lift_lets -underBinder
            rotate_left
            clear_value x)
         | clear_value x
         | skip)
    | lift_lets -underBinder | with_reducible apply State.admitDie_same | with_reducible apply State.wr_same
    | (split <;> try lift_lets -underBinder)

theorem removeSet_same {k : Part} {a s : State} {x1 x2}
    (hr : k.isObj = false)
    (hk : k ∉ [.slots, .dies, .descs, .trail])
    (h : State.Same k a s) :
    State.Same k a (removeSet x1 s x2) := by
  unfold removeSet
  try lift_lets -underBinder
  repeat' first
    | with_reducible assumption | with_reducible exact hr | exact notMem_any hr hk (by decide +kernel)
    | (intro x
       first
         | (refine same_of (a := a) (k := k) x ?_ fun _ => ?_
            unfold x
            try lift_lets -underBinder
            rotate_left
            clear_value x)
         | clear_value x
         | skip)
    | lift_lets -underBinder | with_reducible apply State.setDesc_same | with_reducible apply State.wr_field
    | with_reducible apply State.wr_same | with_reducible apply State.admitAfter_same
    | with_reducible apply State.replaceIds_same | (split <;> try lift_lets -underBinder)

theorem State.setSup_same {k : Part} {a s : State} {x1}
    (hk : k ∉ [.sup])
    (h : State.Same k a s) :
    State.Same k a (State.setSup s x1) := by
  unfold State.setSup
  repeat' first
    | with_reducible assumption | exact notMem_of hk (by decide +kernel) | with_reducible apply same_sup

theorem State.setSin_same {k : Part} {a s : State} {x1 x2}
    (hk : k ∉ [.sup])
    (h : State.Same k a s) :
    State.Same k a (State.setSin s x1 x2) := by
  unfold State.setSin
  repeat' first
    | with_reducible assumption | exact notMem_of hk (by decide +kernel) | with_reducible apply State.setSup_same

theorem State.setSout_same {k : Part} {a s : State} {x1 x2}
    (hk : k ∉ [.sup])
    (h : State.Same k a s) :
    State.Same k a (State.setSout s x1 x2) := by
  unfold State.setSout
  repeat' first
    | with_reducible assumption | exact notMem_of hk (by decide +kernel) | with_reducible apply State.setSup_same

theorem State.switchOff_same {k : Part} {a s : State} {x1}
    (hk : k ∉ [.reg 0x341A, .reg 0x344E, .reg 0x344F, .reg 0x3450, .reg 0x4010, .units, .bldc, .axes, .sup])
    (h : State.Same k a s) :
    State.Same k a (State.switchOff s x1) := by
  unfold State.switchOff
  repeat' first
    | with_reducible assumption | exact notMem_of hk (by decide +kernel) | with_reducible apply State.wr_same
    | with_reducible apply State.setSout_same | with_reducible apply State.stoOut_same

theorem State.switchOn_same {k : Part} {a s : State} {x1}
    (hk : k ∉ [.reg 0x3400, .reg 0x341A, .reg 0x3441, .reg 0x344F, .reg 0x3450, .reg 0x4010, .bldc, .axes, .sup])
    (h : State.Same k a s) :
    State.Same k a (State.switchOn s x1) := by
  unfold State.switchOn
  repeat' first
    | with_reducible assumption | exact notMem_of hk (by decide +kernel) | with_reducible apply State.freeOut_same
    | with_reducible apply State.wr_same | with_reducible apply State.setSout_same

theorem State.grantOutputs_same {k : Part} {a s : State}
    (hk : k ∉ [.reg 0x3400, .reg 0x341A, .reg 0x3441, .reg 0x344F, .reg 0x3450, .reg 0x4010, .bldc, .axes, .sup])
    (h : State.Same k a s) :
    State.Same k a (State.grantOutputs s) := by
  unfold State.grantOutputs
  try lift_lets -underBinder
  repeat' first
    | with_reducible assumption | exact notMem_of hk (by decide +kernel)
    | (intro x
       first
         | (refine same_of (a := a) (k := k) x ?_ fun _ => ?_
            unfold x
            try lift_lets -underBinder
            rotate_left
            clear_value x)
         | clear_value x
         | skip)
    | lift_lets -underBinder | with_reducible apply each_same | with_reducible apply State.switchOn_same
    | (split <;> try lift_lets -underBinder)

theorem State.functionOff_same {k : Part} {a s : State} {x1}
    (hk : k ∉ [.reg 0x341A, .reg 0x344E, .reg 0x344F, .reg 0x3450, .reg 0x4010, .reg 0x4014, .units, .bldc, .axes,
    .sup])
    (h : State.Same k a s) :
    State.Same k a (State.functionOff s x1) := by
  unfold State.functionOff
  try lift_lets -underBinder
  repeat' first
    | with_reducible assumption | exact notMem_of hk (by decide +kernel)
    | (intro x
       first
         | (refine same_of (a := a) (k := k) x ?_ fun _ => ?_
            unfold x
            try lift_lets -underBinder
            rotate_left
            clear_value x)
         | clear_value x
         | skip)
    | lift_lets -underBinder | with_reducible apply State.switchOff_same | with_reducible apply State.wr_same
    | (split <;> try lift_lets -underBinder)

theorem State.openAll_same {k : Part} {a s : State}
    (hk : k ∉ [.reg 0x4021, .reg 0x4023, .sup])
    (h : State.Same k a s) :
    State.Same k a (State.openAll s) := by
  unfold State.openAll
  try lift_lets -underBinder
  repeat' first
    | with_reducible assumption | exact notMem_of hk (by decide +kernel)
    | (intro x
       first
         | (refine same_of (a := a) (k := k) x ?_ fun _ => ?_
            unfold x
            try lift_lets -underBinder
            rotate_left
            clear_value x)
         | clear_value x
         | skip)
    | lift_lets -underBinder | with_reducible apply State.wr_same | with_reducible apply each_same
    | with_reducible apply State.openKdrv_same | (split <;> try lift_lets -underBinder)

theorem State.showActive_same {k : Part} {a s : State}
    (hk : k ∉ [.reg 0x4000])
    (h : State.Same k a s) :
    State.Same k a (State.showActive s) := by
  unfold State.showActive
  try lift_lets -underBinder
  repeat' first
    | with_reducible assumption | exact notMem_of hk (by decide +kernel)
    | (intro x
       first
         | (refine same_of (a := a) (k := k) x ?_ fun _ => ?_
            unfold x
            try lift_lets -underBinder
            rotate_left
            clear_value x)
         | clear_value x
         | skip)
    | lift_lets -underBinder | with_reducible apply State.wr_same | with_reducible apply State.setHold_same
    | with_reducible apply State.clearHold_same | (split <;> try lift_lets -underBinder)

theorem State.activeNote_same {k : Part} {a s : State} {x1}
    (hk : k ∉ [.reg 0x6000, .dies, .trail])
    (h : State.Same k a s) :
    State.Same k a (State.activeNote s x1) := by
  unfold State.activeNote
  repeat' first
    | with_reducible assumption | exact notMem_of hk (by decide +kernel) | with_reducible apply State.raise_same

theorem State.emergencyStop_same {k : Part} {a s : State} {x1}
    (hk : k ∉ [.reg 0x3050, .reg 0x341A, .reg 0x344E, .reg 0x344F, .reg 0x3450, .reg 0x4010, .reg 0x4014, .reg 0x6000,
    .units, .dies, .bldc, .axes, .power, .sup, .trail])
    (h : State.Same k a s) :
    State.Same k a (State.emergencyStop s x1) := by
  unfold State.emergencyStop
  try lift_lets -underBinder
  repeat' first
    | with_reducible assumption | exact notMem_of hk (by decide +kernel)
    | (intro x
       first
         | (refine same_of (a := a) (k := k) x ?_ fun _ => ?_
            unfold x
            try lift_lets -underBinder
            rotate_left
            clear_value x)
         | clear_value x
         | skip)
    | lift_lets -underBinder | with_reducible apply State.raiseAll_same | with_reducible apply State.setSup_same
    | with_reducible apply each_same | with_reducible apply State.ss1Out_same
    | with_reducible apply State.functionOff_same | with_reducible apply State.setSout_same
    | with_reducible apply State.stopWith_same | (split <;> try lift_lets -underBinder)

theorem State.doorOpen_same {k : Part} {a s : State} {x1}
    (hk : k ∉ [.reg 0x341A, .reg 0x344E, .reg 0x344F, .reg 0x3450, .reg 0x4010, .reg 0x4014, .units, .dies, .bldc,
    .axes, .sup])
    (h : State.Same k a s) :
    State.Same k a (State.doorOpen s x1) := by
  unfold State.doorOpen
  try lift_lets -underBinder
  repeat' first
    | with_reducible assumption | exact notMem_of hk (by decide +kernel)
    | (intro x
       first
         | (refine same_of (a := a) (k := k) x ?_ fun _ => ?_
            unfold x
            try lift_lets -underBinder
            rotate_left
            clear_value x)
         | clear_value x
         | skip)
    | lift_lets -underBinder | with_reducible apply State.setSup_same | with_reducible apply State.raiseAll_same
    | with_reducible apply each_same | with_reducible apply State.functionOff_same
    | (split <;> try lift_lets -underBinder)

theorem State.adisDue_same {k : Part} {a s : State}
    (hk : k ∉ [.sup])
    (h : State.Same k a s) :
    State.Same k a (State.adisDue s) := by
  unfold State.adisDue
  repeat' first
    | with_reducible assumption | exact notMem_of hk (by decide +kernel) | with_reducible apply State.setSup_same

theorem State.fireDemand_same {k : Part} {a s : State} {x1}
    (hk : k ∉ [.reg 0x3050, .reg 0x341A, .reg 0x344E, .reg 0x344F, .reg 0x3450, .reg 0x4010, .reg 0x4014, .reg 0x4021,
    .reg 0x4023, .reg 0x6000, .units, .dies, .bldc, .axes, .power, .sup, .trail])
    (h : State.Same k a s) :
    State.Same k a (State.fireDemand s x1) := by
  unfold State.fireDemand
  try lift_lets -underBinder
  repeat' first
    | with_reducible assumption | exact notMem_of hk (by decide +kernel)
    | (intro x
       first
         | (refine same_of (a := a) (k := k) x ?_ fun _ => ?_
            unfold x
            try lift_lets -underBinder
            rotate_left
            clear_value x)
         | clear_value x
         | skip)
    | lift_lets -underBinder | with_reducible apply State.raiseAll_same | with_reducible apply each_same
    | with_reducible apply State.functionOff_same | with_reducible apply State.stopWith_same
    | with_reducible apply State.afeLow_same | with_reducible apply State.openAll_same
    | with_reducible apply State.adisDue_same | with_reducible apply State.setSup_same
    | (split <;> try lift_lets -underBinder)

theorem State.demandFn_same {k : Part} {a s : State} {x1}
    (hk : k ∉ [.reg 0x3050, .reg 0x341A, .reg 0x344E, .reg 0x344F, .reg 0x3450, .reg 0x4000, .reg 0x4010, .reg 0x4014,
    .reg 0x4021, .reg 0x4023, .reg 0x6000, .units, .dies, .bldc, .axes, .power, .sup, .trail])
    (h : State.Same k a s) :
    State.Same k a (State.demandFn s x1) := by
  unfold State.demandFn
  repeat' first
    | with_reducible assumption | exact notMem_of hk (by decide +kernel) | with_reducible apply State.activeNote_same
    | with_reducible apply State.showActive_same | with_reducible apply State.setHold_same
    | with_reducible apply State.openCorr_same | with_reducible apply State.emergencyStop_same
    | with_reducible apply State.doorOpen_same | with_reducible apply State.fireDemand_same | split

theorem State.demandInput_same {k : Part} {a s : State} {x1}
    (hk : k ∉ [.reg 0x3050, .reg 0x341A, .reg 0x344E, .reg 0x344F, .reg 0x3450, .reg 0x4000, .reg 0x4010, .reg 0x4014,
    .reg 0x4021, .reg 0x4023, .reg 0x6000, .units, .dies, .bldc, .axes, .power, .sup, .trail])
    (h : State.Same k a s) :
    State.Same k a (State.demandInput s x1) := by
  unfold State.demandInput
  try lift_lets -underBinder
  repeat' first
    | with_reducible assumption | exact notMem_of hk (by decide +kernel)
    | (intro x
       first
         | (refine same_of (a := a) (k := k) x ?_ fun _ => ?_
            unfold x
            try lift_lets -underBinder
            rotate_left
            clear_value x)
         | clear_value x
         | skip)
    | lift_lets -underBinder | with_reducible apply State.setSin_same | with_reducible apply State.demandFn_same
    | (split <;> try lift_lets -underBinder)

theorem State.dropInput_same {k : Part} {a s : State} {x1}
    (hk : k ∉ [.reg 0x4000, .reg 0x6000, .dies, .sup, .trail])
    (h : State.Same k a s) :
    State.Same k a (State.dropInput s x1) := by
  unfold State.dropInput
  try lift_lets -underBinder
  repeat' first
    | with_reducible assumption | exact notMem_of hk (by decide +kernel)
    | (intro x
       first
         | (refine same_of (a := a) (k := k) x ?_ fun _ => ?_
            unfold x
            try lift_lets -underBinder
            rotate_left
            clear_value x)
         | clear_value x
         | skip)
    | lift_lets -underBinder | with_reducible apply State.setSin_same | with_reducible apply State.activeNote_same
    | with_reducible apply State.showActive_same | with_reducible apply State.openCorr_same
    | (split <;> try lift_lets -underBinder)

theorem State.faultInput_same {k : Part} {a s : State} {x1 x2}
    (hk : k ∉ [.reg 0x3050, .reg 0x341A, .reg 0x344E, .reg 0x344F, .reg 0x3450, .reg 0x4000, .reg 0x4005, .reg 0x4010,
    .reg 0x4014, .reg 0x4021, .reg 0x4023, .reg 0x6000, .units, .dies, .bldc, .axes, .power, .sup, .trail])
    (h : State.Same k a s) :
    State.Same k a (State.faultInput s x1 x2) := by
  unfold State.faultInput
  repeat' first
    | with_reducible assumption | exact notMem_of hk (by decide +kernel) | with_reducible apply State.setSin_same
    | with_reducible apply State.demandInput_same | with_reducible apply State.supFault_same
    | with_reducible apply State.setHold_same | with_reducible apply State.wr_same | split

theorem State.ownPulse_same {k : Part} {a s : State} {x1}
    (hk : k ∉ [.reg 0x3050, .reg 0x341A, .reg 0x344E, .reg 0x344F, .reg 0x3450, .reg 0x4000, .reg 0x4005, .reg 0x4010,
    .reg 0x4014, .reg 0x4021, .reg 0x4023, .reg 0x6000, .units, .dies, .bldc, .axes, .power, .sup, .trail])
    (h : State.Same k a s) :
    State.Same k a (State.ownPulse s x1) := by
  unfold State.ownPulse
  try lift_lets -underBinder
  repeat' first
    | with_reducible assumption | exact notMem_of hk (by decide +kernel)
    | (intro x
       first
         | (refine same_of (a := a) (k := k) x ?_ fun _ => ?_
            unfold x
            try lift_lets -underBinder
            rotate_left
            clear_value x)
         | clear_value x
         | skip)
    | lift_lets -underBinder | with_reducible apply State.setSin_same | with_reducible apply State.faultInput_same
    | (split <;> try lift_lets -underBinder)

theorem State.sampleInput_same {k : Part} {a s : State} {x1 x2}
    (hk : k ∉ [.reg 0x3050, .reg 0x341A, .reg 0x344E, .reg 0x344F, .reg 0x3450, .reg 0x4000, .reg 0x4005, .reg 0x4010,
    .reg 0x4014, .reg 0x4021, .reg 0x4023, .reg 0x6000, .units, .dies, .bldc, .axes, .power, .sup, .trail])
    (h : State.Same k a s) :
    State.Same k a (State.sampleInput s x1 x2) := by
  unfold State.sampleInput
  try lift_lets -underBinder
  repeat' first
    | with_reducible assumption | exact notMem_of hk (by decide +kernel)
    | (intro x
       first
         | (refine same_of (a := a) (k := k) x ?_ fun _ => ?_
            unfold x
            try lift_lets -underBinder
            rotate_left
            clear_value x)
         | clear_value x
         | skip)
    | lift_lets -underBinder | with_reducible apply State.wr_same | with_reducible apply State.setSin_same
    | with_reducible apply State.ownPulse_same | with_reducible apply State.faultInput_same
    | (split <;> try lift_lets -underBinder)

theorem State.sampleInputs_same {k : Part} {a s : State} {x1}
    (hk : k ∉ [.reg 0x3050, .reg 0x341A, .reg 0x344E, .reg 0x344F, .reg 0x3450, .reg 0x4000, .reg 0x4005, .reg 0x4010,
    .reg 0x4014, .reg 0x4021, .reg 0x4023, .reg 0x6000, .units, .dies, .bldc, .axes, .power, .sup, .trail])
    (h : State.Same k a s) :
    State.Same k a (State.sampleInputs s x1) := by
  unfold State.sampleInputs
  try lift_lets -underBinder
  repeat' first
    | with_reducible assumption | exact notMem_of hk (by decide +kernel)
    | (intro x
       first
         | (refine same_of (a := a) (k := k) x ?_ fun _ => ?_
            unfold x
            try lift_lets -underBinder
            rotate_left
            clear_value x)
         | clear_value x
         | skip)
    | lift_lets -underBinder | with_reducible apply each_same | with_reducible apply State.sampleInput_same
    | (split <;> try lift_lets -underBinder)

theorem State.watchPairs_same {k : Part} {a s : State}
    (hk : k ∉ [.sup])
    (h : State.Same k a s) :
    State.Same k a (State.watchPairs s) := by
  unfold State.watchPairs
  repeat' first
    | with_reducible assumption | exact notMem_of hk (by decide +kernel) | with_reducible apply State.setSup_same

theorem State.stuckOn_same {k : Part} {a s : State} {x1}
    (hk : k ∉ [.reg 0x3050, .reg 0x341A, .reg 0x344E, .reg 0x344F, .reg 0x3450, .reg 0x4000, .reg 0x4010, .reg 0x6000,
    .units, .dies, .bldc, .axes, .power, .sup, .trail])
    (h : State.Same k a s) :
    State.Same k a (State.stuckOn s x1) := by
  unfold State.stuckOn
  repeat' first
    | with_reducible assumption | exact notMem_of hk (by decide +kernel) | with_reducible apply State.setSout_same
    | with_reducible apply State.controlledStop_same | with_reducible apply State.supFault_same
    | with_reducible apply State.setHold_same | with_reducible apply State.switchOff_same

theorem State.overload_same {k : Part} {a s : State} {x1}
    (hk : k ∉ [.reg 0x341A, .reg 0x344E, .reg 0x344F, .reg 0x3450, .reg 0x4000, .reg 0x4010, .reg 0x6000, .units,
    .dies, .bldc, .axes, .sup, .trail])
    (h : State.Same k a s) :
    State.Same k a (State.overload s x1) := by
  unfold State.overload
  repeat' first
    | with_reducible assumption | exact notMem_of hk (by decide +kernel) | with_reducible apply State.setSout_same
    | with_reducible apply State.supFault_same | with_reducible apply State.switchOff_same

theorem State.sampleOutput_same {k : Part} {a s : State} {x1 x2}
    (hk : k ∉ [.reg 0x341A, .reg 0x344E, .reg 0x344F, .reg 0x3450, .reg 0x4000, .reg 0x4010, .reg 0x6000, .units,
    .dies, .bldc, .axes, .sup, .trail])
    (h : State.Same k a s) :
    State.Same k a (State.sampleOutput s x1 x2) := by
  unfold State.sampleOutput
  try lift_lets -underBinder
  repeat' first
    | with_reducible assumption | exact notMem_of hk (by decide +kernel)
    | (intro x
       first
         | (refine same_of (a := a) (k := k) x ?_ fun _ => ?_
            unfold x
            try lift_lets -underBinder
            rotate_left
            clear_value x)
         | clear_value x
         | skip)
    | lift_lets -underBinder | with_reducible apply State.setSout_same | with_reducible apply State.overload_same
    | (split <;> try lift_lets -underBinder)

theorem State.sampleContactor_same {k : Part} {a s : State} {x1 x2 x3}
    (hk : k ∉ [.reg 0x4021, .sup])
    (h : State.Same k a s) :
    State.Same k a (State.sampleContactor s x1 x2 x3) := by
  unfold State.sampleContactor
  try lift_lets -underBinder
  repeat' first
    | with_reducible assumption | exact notMem_of hk (by decide +kernel)
    | (intro x
       first
         | (refine same_of (a := a) (k := k) x ?_ fun _ => ?_
            unfold x
            try lift_lets -underBinder
            rotate_left
            clear_value x)
         | clear_value x
         | skip)
    | lift_lets -underBinder | with_reducible apply State.setKdrv_same | with_reducible apply State.wr_same
    | (split <;> try lift_lets -underBinder)

theorem State.contactorRequests_same {k : Part} {a s : State}
    (hk : k ∉ [.reg 0x4021, .sup])
    (h : State.Same k a s) :
    State.Same k a (State.contactorRequests s) := by
  unfold State.contactorRequests
  try lift_lets -underBinder
  repeat' first
    | with_reducible assumption | exact notMem_of hk (by decide +kernel)
    | (intro x
       first
         | (refine same_of (a := a) (k := k) x ?_ fun _ => ?_
            unfold x
            try lift_lets -underBinder
            rotate_left
            clear_value x)
         | clear_value x
         | skip)
    | lift_lets -underBinder | with_reducible apply each_same | with_reducible apply State.closeKdrv_same
    | (split <;> try lift_lets -underBinder)

theorem State.clearOutputs_same {k : Part} {a s : State}
    (hk : k ∉ [.reg 0x4000, .reg 0x4010, .sup])
    (h : State.Same k a s) :
    State.Same k a (State.clearOutputs s) := by
  unfold State.clearOutputs
  try lift_lets -underBinder
  repeat' first
    | with_reducible assumption | exact notMem_of hk (by decide +kernel)
    | (intro x
       first
         | (refine same_of (a := a) (k := k) x ?_ fun _ => ?_
            unfold x
            try lift_lets -underBinder
            rotate_left
            clear_value x)
         | clear_value x
         | skip)
    | lift_lets -underBinder | with_reducible apply each_same | with_reducible apply State.wr_same
    | with_reducible apply State.setSout_same | with_reducible apply State.clearHold_same
    | (split <;> try lift_lets -underBinder)

theorem State.clearInputs_same {k : Part} {a s : State}
    (hk : k ∉ [.reg 0x4000, .reg 0x4005, .sup])
    (h : State.Same k a s) :
    State.Same k a (State.clearInputs s) := by
  unfold State.clearInputs
  try lift_lets -underBinder
  repeat' first
    | with_reducible assumption | exact notMem_of hk (by decide +kernel)
    | (intro x
       first
         | (refine same_of (a := a) (k := k) x ?_ fun _ => ?_
            unfold x
            try lift_lets -underBinder
            rotate_left
            clear_value x)
         | clear_value x
         | skip)
    | lift_lets -underBinder | with_reducible apply each_same | with_reducible apply State.wr_same
    | with_reducible apply State.setSin_same | with_reducible apply State.clearHold_same
    | (split <;> try lift_lets -underBinder)

theorem State.clearContactors_same {k : Part} {a s : State}
    (hk : k ∉ [.reg 0x4000, .reg 0x4021, .sup])
    (h : State.Same k a s) :
    State.Same k a (State.clearContactors s) := by
  unfold State.clearContactors
  try lift_lets -underBinder
  repeat' first
    | with_reducible assumption | exact notMem_of hk (by decide +kernel)
    | (intro x
       first
         | (refine same_of (a := a) (k := k) x ?_ fun _ => ?_
            unfold x
            try lift_lets -underBinder
            rotate_left
            clear_value x)
         | clear_value x
         | skip)
    | lift_lets -underBinder | with_reducible apply each_same | with_reducible apply State.wr_same
    | with_reducible apply State.setKdrv_same | with_reducible apply State.clearHold_same
    | (split <;> try lift_lets -underBinder)

theorem State.showMarks_same {k : Part} {a s : State} {x1}
    (hk : k ∉ [.reg 0x3104])
    (h : State.Same k a s) :
    State.Same k a (State.showMarks s x1) := by
  unfold State.showMarks
  repeat' first
    | with_reducible assumption | exact notMem_of hk (by decide +kernel) | with_reducible apply State.wr_same

theorem State.clockMark_same {k : Part} {a s : State} {x1}
    (hk : k ∉ [.reg 0x3104, .dies])
    (h : State.Same k a s) :
    State.Same k a (State.clockMark s x1) := by
  unfold State.clockMark
  try lift_lets -underBinder
  repeat' first
    | with_reducible assumption | exact notMem_of hk (by decide +kernel)
    | (intro x
       first
         | (refine same_of (a := a) (k := k) x ?_ fun _ => ?_
            unfold x
            try lift_lets -underBinder
            rotate_left
            clear_value x)
         | clear_value x
         | skip)
    | lift_lets -underBinder | with_reducible apply State.showMarks_same | with_reducible apply State.setDie_same
    | (split <;> try lift_lets -underBinder)

theorem State.startClears_same {k : Part} {a s : State} {x1 x2}
    (hk : k ∉ [.reg 0x2803, .reg 0x3101, .reg 0x3104, .reg 0x6012, .dies])
    (h : State.Same k a s) :
    State.Same k a (State.startClears s x1 x2) := by
  unfold State.startClears
  try lift_lets -underBinder
  repeat' first
    | with_reducible assumption | exact notMem_of hk (by decide +kernel)
    | (intro x
       first
         | (refine same_of (a := a) (k := k) x ?_ fun _ => ?_
            unfold x
            try lift_lets -underBinder
            rotate_left
            clear_value x)
         | clear_value x
         | skip)
    | lift_lets -underBinder | with_reducible apply State.clearDab_same
    | with_reducible apply State.deassertSource_same | (split <;> try lift_lets -underBinder)

theorem powerStart_same {k : Part} {a s : State}
    (hk : k ∉ [.reg 0x1200, .reg 0x2500, .reg 0x2803, .reg 0x3040, .reg 0x3050, .reg 0x3060, .reg 0x3070, .reg 0x3101,
    .reg 0x3104, .reg 0x4000, .reg 0x6000, .reg 0x6012, .clock, .units, .slots, .dies, .power, .trail, .standbyDue])
    (h : State.Same k a s) :
    State.Same k a (powerStart s) := by
  unfold powerStart
  try lift_lets -underBinder
  repeat' first
    | with_reducible assumption | exact notMem_of hk (by decide +kernel)
    | (intro x
       first
         | (refine same_of (a := a) (k := k) x ?_ fun _ => ?_
            unfold x
            try lift_lets -underBinder
            rotate_left
            clear_value x)
         | clear_value x
         | skip)
    | lift_lets -underBinder | with_reducible apply State.leaveStandby_same
    | with_reducible apply State.raiseAll_same | with_reducible apply State.openCorr_same
    | with_reducible apply State.wr_same | with_reducible apply each_same | with_reducible apply State.clockMark_same
    | with_reducible apply State.startClears_same | with_reducible apply State.setSlot_same
    | with_reducible apply State.setPower_same | with_reducible apply State.setLink_same
    | with_reducible apply State.setUnit_same | with_reducible apply State.sendTest_same
    | with_reducible apply State.setHold_same | (split <;> try lift_lets -underBinder)

theorem powerSet_same {k : Part} {a s : State} {x1 x2}
    (hk : k ∉ [.reg 0x1200, .reg 0x2500, .reg 0x2803, .reg 0x3040, .reg 0x3050, .reg 0x3060, .reg 0x3070, .reg 0x3101,
    .reg 0x3104, .reg 0x4000, .reg 0x6000, .reg 0x6012, .clock, .units, .slots, .dies, .power, .trail, .standbyDue])
    (h : State.Same k a s) :
    State.Same k a (powerSet x1 s x2) := by
  unfold powerSet
  repeat' first
    | with_reducible assumption | exact notMem_of hk (by decide +kernel) | with_reducible apply powerStart_same
    | with_reducible apply State.controlledStop_same | split

theorem State.autoStart_same {k : Part} {a s : State}
    (hk : k ∉ [.reg 0x1200, .reg 0x2500, .reg 0x2803, .reg 0x3040, .reg 0x3050, .reg 0x3060, .reg 0x3070, .reg 0x3101,
    .reg 0x3104, .reg 0x4000, .reg 0x6000, .reg 0x6012, .clock, .units, .slots, .dies, .power, .sup, .trail,
    .standbyDue])
    (h : State.Same k a s) :
    State.Same k a (State.autoStart s) := by
  unfold State.autoStart
  try lift_lets -underBinder
  repeat' first
    | with_reducible assumption | exact notMem_of hk (by decide +kernel)
    | (intro x
       first
         | (refine same_of (a := a) (k := k) x ?_ fun _ => ?_
            unfold x
            try lift_lets -underBinder
            rotate_left
            clear_value x)
         | clear_value x
         | skip)
    | lift_lets -underBinder | with_reducible apply State.setSup_same | with_reducible apply powerStart_same
    | (split <;> try lift_lets -underBinder)

theorem State.acceptReset_same {k : Part} {a s : State}
    (hk : k ∉ [.reg 0x1200, .reg 0x2500, .reg 0x2803, .reg 0x3040, .reg 0x3050, .reg 0x3060, .reg 0x3070, .reg 0x3101,
    .reg 0x3104, .reg 0x3400, .reg 0x341A, .reg 0x3441, .reg 0x344F, .reg 0x3450, .reg 0x4000, .reg 0x4005, .reg
    0x4010, .reg 0x4021, .reg 0x6000, .reg 0x6012, .clock, .units, .slots, .dies, .bldc, .axes, .power, .sup, .trail,
    .standbyDue])
    (h : State.Same k a s) :
    State.Same k a (State.acceptReset s) := by
  unfold State.acceptReset
  repeat' first
    | with_reducible assumption | exact notMem_of hk (by decide +kernel) | with_reducible apply State.setSup_same
    | with_reducible apply State.showActive_same | with_reducible apply State.clearHold_same
    | with_reducible apply State.clearInputs_same | with_reducible apply State.clearOutputs_same
    | with_reducible apply State.clearContactors_same | with_reducible apply State.raiseAll_same
    | with_reducible apply State.openCorr_same | with_reducible apply State.autoStart_same
    | with_reducible apply State.grantOutputs_same | split

theorem State.tryReset_same {k : Part} {a s : State}
    (hk : k ∉ [.reg 0x1200, .reg 0x2500, .reg 0x2803, .reg 0x3040, .reg 0x3050, .reg 0x3060, .reg 0x3070, .reg 0x3101,
    .reg 0x3104, .reg 0x3400, .reg 0x341A, .reg 0x3441, .reg 0x344F, .reg 0x3450, .reg 0x4000, .reg 0x4005, .reg
    0x4010, .reg 0x4021, .reg 0x6000, .reg 0x6012, .clock, .units, .slots, .dies, .bldc, .axes, .power, .sup, .trail,
    .standbyDue])
    (h : State.Same k a s) :
    State.Same k a (State.tryReset s) := by
  unfold State.tryReset
  repeat' first
    | with_reducible assumption | exact notMem_of hk (by decide +kernel) | with_reducible apply State.note_same
    | with_reducible apply State.acceptReset_same | split

theorem resetSet_same {k : Part} {a s : State} {x1}
    (hk : k ∉ [.reg 0x1200, .reg 0x2500, .reg 0x2803, .reg 0x3040, .reg 0x3050, .reg 0x3060, .reg 0x3070, .reg 0x3101,
    .reg 0x3104, .reg 0x3400, .reg 0x341A, .reg 0x3441, .reg 0x344F, .reg 0x3450, .reg 0x4000, .reg 0x4005, .reg
    0x4010, .reg 0x4021, .reg 0x6000, .reg 0x6012, .clock, .units, .slots, .dies, .bldc, .axes, .power, .sup, .trail,
    .standbyDue])
    (h : State.Same k a s) :
    State.Same k a (resetSet s x1) := by
  unfold resetSet
  repeat' first
    | with_reducible assumption | exact notMem_of hk (by decide +kernel) | with_reducible apply State.tryReset_same
    | split

theorem outputSet_same {k : Part} {a s : State} {x1 x2 x3}
    (hk : k ∉ [.reg 0x3400, .reg 0x341A, .reg 0x3441, .reg 0x344E, .reg 0x344F, .reg 0x3450, .reg 0x4010, .reg 0x4014,
    .units, .bldc, .axes, .sup])
    (h : State.Same k a s) :
    State.Same k a (outputSet x1 x2 s x3) := by
  unfold outputSet
  try lift_lets -underBinder
  repeat' first
    | with_reducible assumption | exact notMem_of hk (by decide +kernel)
    | (intro x
       first
         | (refine same_of (a := a) (k := k) x ?_ fun _ => ?_
            unfold x
            try lift_lets -underBinder
            rotate_left
            clear_value x)
         | clear_value x
         | skip)
    | lift_lets -underBinder | with_reducible apply State.wr_same | with_reducible apply State.switchOff_same
    | with_reducible apply State.grantOutputs_same | (split <;> try lift_lets -underBinder)

theorem contactorSet_same {k : Part} {a s : State} {x1 x2 x3}
    (hk : k ∉ [.reg 0x4021, .reg 0x4023, .sup])
    (h : State.Same k a s) :
    State.Same k a (contactorSet x1 x2 s x3) := by
  unfold contactorSet
  try lift_lets -underBinder
  repeat' first
    | with_reducible assumption | exact notMem_of hk (by decide +kernel)
    | (intro x
       first
         | (refine same_of (a := a) (k := k) x ?_ fun _ => ?_
            unfold x
            try lift_lets -underBinder
            rotate_left
            clear_value x)
         | clear_value x
         | skip)
    | lift_lets -underBinder | with_reducible apply State.wr_same | with_reducible apply State.closeKdrv_same
    | with_reducible apply State.openKdrv_same | (split <;> try lift_lets -underBinder)

theorem State.contactorFault_same {k : Part} {a s : State} {x1 x2}
    (hk : k ∉ [.reg 0x4000, .reg 0x4021, .reg 0x6000, .dies, .sup, .trail])
    (h : State.Same k a s) :
    State.Same k a (State.contactorFault s x1 x2) := by
  unfold State.contactorFault
  repeat' first
    | with_reducible assumption | exact notMem_of hk (by decide +kernel) | with_reducible apply State.setHold_same
    | with_reducible apply State.openKdrv_same | with_reducible apply State.supFault_same
    | with_reducible apply State.wr_same | with_reducible apply State.setKdrv_same

theorem State.weld_same {k : Part} {a s : State} {x1}
    (hk : k ∉ [.reg 0x4000, .reg 0x4021, .reg 0x6000, .dies, .sup, .trail])
    (h : State.Same k a s) :
    State.Same k a (State.weld s x1) := by
  unfold State.weld
  repeat' first
    | with_reducible assumption | exact notMem_of hk (by decide +kernel) | with_reducible apply State.supFault_same
    | with_reducible apply State.setHold_same | with_reducible apply State.wr_same
    | with_reducible apply State.setKdrv_same

theorem State.safeState_same {k : Part} {a s : State} {x1}
    (hk : k ∉ [.reg 0x3070, .reg 0x341A, .reg 0x344E, .reg 0x344F, .reg 0x3450, .reg 0x4000, .reg 0x4010, .reg 0x4021,
    .reg 0x6000, .units, .dies, .bldc, .axes, .power, .sup, .trail])
    (h : State.Same k a s) :
    State.Same k a (State.safeState s x1) := by
  unfold State.safeState
  try lift_lets -underBinder
  repeat' first
    | with_reducible assumption | exact notMem_of hk (by decide +kernel)
    | (intro x
       first
         | (refine same_of (a := a) (k := k) x ?_ fun _ => ?_
            unfold x
            try lift_lets -underBinder
            rotate_left
            clear_value x)
         | clear_value x
         | skip)
    | lift_lets -underBinder | with_reducible apply State.supFault_same | with_reducible apply State.setHold_same
    | with_reducible apply State.wr_same | with_reducible apply State.raiseAll_same
    | with_reducible apply State.openCorr_same | with_reducible apply each_same
    | with_reducible apply State.switchOff_same | with_reducible apply State.openKdrv_same
    | with_reducible apply State.chopOff_same | with_reducible apply State.afeLow_same
    | with_reducible apply State.stoAxis_same | with_reducible apply State.stoDrive_same
    | with_reducible apply State.adisDue_same | with_reducible apply State.setSup_same
    | (split <;> try lift_lets -underBinder)

theorem State.fireAlone_same {k : Part} {a s : State}
    (hk : k ∉ [.reg 0x3050, .reg 0x341A, .reg 0x344E, .reg 0x344F, .reg 0x3450, .reg 0x4000, .reg 0x4010, .reg 0x4014,
    .reg 0x4021, .reg 0x4023, .reg 0x6000, .units, .dies, .bldc, .axes, .power, .sup, .trail])
    (h : State.Same k a s) :
    State.Same k a (State.fireAlone s) := by
  unfold State.fireAlone
  repeat' first
    | with_reducible assumption | exact notMem_of hk (by decide +kernel) | with_reducible apply State.fireDemand_same
    | with_reducible apply State.activeNote_same | with_reducible apply State.showActive_same
    | with_reducible apply State.setHold_same | with_reducible apply State.openCorr_same

theorem State.tempBit_same {k : Part} {a s : State} {x1 x2 x3}
    (hk : k ∉ [.reg 0x4033])
    (h : State.Same k a s) :
    State.Same k a (State.tempBit s x1 x2 x3) := by
  unfold State.tempBit
  repeat' first
    | with_reducible assumption | exact notMem_of hk (by decide +kernel) | with_reducible apply State.wr_same

theorem State.checkTemp_same {k : Part} {a s : State} {x1}
    (hk : k ∉ [.reg 0x2402, .reg 0x2444, .reg 0x2810, .reg 0x4033, .reg 0x6000, .reg 0x6010, .chans, .units, .slots,
    .engines, .dies, .trail, .lane, .flight])
    (h : State.Same k a s) :
    State.Same k a (State.checkTemp s x1) := by
  unfold State.checkTemp
  try lift_lets -underBinder
  repeat' first
    | with_reducible assumption | exact notMem_of hk (by decide +kernel)
    | (intro x
       first
         | (refine same_of (a := a) (k := k) x ?_ fun _ => ?_
            unfold x
            try lift_lets -underBinder
            rotate_left
            clear_value x)
         | clear_value x
         | skip)
    | lift_lets -underBinder | with_reducible apply State.setChan_same | with_reducible apply State.wr_same
    | with_reducible apply State.tempBit_same | with_reducible apply State.latchChans_same
    | with_reducible apply State.openCorr_same | with_reducible apply State.raiseFrame_same
    | (split <;> try lift_lets -underBinder)

theorem State.takeTemp_same {k : Part} {a s : State} {x1 x2}
    (hk : k ∉ [.chans])
    (h : State.Same k a s) :
    State.Same k a (State.takeTemp s x1 x2) := by
  unfold State.takeTemp
  repeat' first
    | with_reducible assumption | exact notMem_of hk (by decide +kernel) | with_reducible apply State.setChan_same
    | split

theorem State.compareTemp_same {k : Part} {a s : State} {x1}
    (hk : k ∉ [.reg 0x4033, .reg 0x4034, .reg 0x6000, .chans, .dies, .trail])
    (h : State.Same k a s) :
    State.Same k a (State.compareTemp s x1) := by
  unfold State.compareTemp
  try lift_lets -underBinder
  repeat' first
    | with_reducible assumption | exact notMem_of hk (by decide +kernel)
    | (intro x
       first
         | (refine same_of (a := a) (k := k) x ?_ fun _ => ?_
            unfold x
            try lift_lets -underBinder
            rotate_left
            clear_value x)
         | clear_value x
         | skip)
    | lift_lets -underBinder | with_reducible apply State.setChan_same | with_reducible apply State.wr_same
    | with_reducible apply State.tempBit_same | with_reducible apply State.noteAt_same
    | (split <;> try lift_lets -underBinder)

theorem State.setClock_same {k : Part} {a s : State} {x1}
    (hk : k ∉ [.clock])
    (h : State.Same k a s) :
    State.Same k a (State.setClock s x1) := by
  unfold State.setClock
  repeat' first
    | with_reducible assumption | exact notMem_of hk (by decide +kernel) | with_reducible apply same_clock

theorem State.sourceNote_same {k : Part} {a s : State} {x1}
    (hk : k ∉ [.reg 0x6000, .dies, .trail])
    (h : State.Same k a s) :
    State.Same k a (State.sourceNote s x1) := by
  unfold State.sourceNote
  repeat' first
    | with_reducible assumption | exact notMem_of hk (by decide +kernel) | with_reducible apply State.noteAt_same

theorem State.setLoop_same {k : Part} {a s : State} {x1 x2}
    (hk : k ∉ [.clock, .dies])
    (h : State.Same k a s) :
    State.Same k a (State.setLoop s x1 x2) := by
  unfold State.setLoop
  repeat' first
    | with_reducible assumption | exact notMem_of hk (by decide +kernel) | with_reducible apply State.setClock_same
    | with_reducible apply State.setDie_same | split

theorem State.loopNote_same {k : Part} {a s : State} {x1}
    (hk : k ∉ [.reg 0x6000, .dies, .trail])
    (h : State.Same k a s) :
    State.Same k a (State.loopNote s x1) := by
  unfold State.loopNote
  repeat' first
    | with_reducible assumption | exact notMem_of hk (by decide +kernel) | with_reducible apply State.noteAt_same

theorem State.loseLock_same {k : Part} {a s : State} {x1}
    (hk : k ∉ [.reg 0x1106, .reg 0x6000, .clock, .dies, .trail])
    (h : State.Same k a s) :
    State.Same k a (State.loseLock s x1) := by
  unfold State.loseLock
  try lift_lets -underBinder
  repeat' first
    | with_reducible assumption | exact notMem_of hk (by decide +kernel)
    | (intro x
       first
         | (refine same_of (a := a) (k := k) x ?_ fun _ => ?_
            unfold x
            try lift_lets -underBinder
            rotate_left
            clear_value x)
         | clear_value x
         | skip)
    | lift_lets -underBinder | with_reducible apply State.setLoop_same | with_reducible apply State.inc_same
    | with_reducible apply State.loopNote_same | with_reducible apply State.setClock_same
    | (split <;> try lift_lets -underBinder)

theorem State.declareLock_same {k : Part} {a s : State} {x1}
    (hk : k ∉ [.reg 0x6000, .clock, .dies, .trail])
    (h : State.Same k a s) :
    State.Same k a (State.declareLock s x1) := by
  unfold State.declareLock
  try lift_lets -underBinder
  repeat' first
    | with_reducible assumption | exact notMem_of hk (by decide +kernel)
    | (intro x
       first
         | (refine same_of (a := a) (k := k) x ?_ fun _ => ?_
            unfold x
            try lift_lets -underBinder
            rotate_left
            clear_value x)
         | clear_value x
         | skip)
    | lift_lets -underBinder | with_reducible apply State.setLoop_same | with_reducible apply State.loopNote_same
    | with_reducible apply State.setDie_same | (split <;> try lift_lets -underBinder)

theorem State.latchHubOutputs_same {k : Part} {a s : State} {x1}
    (hk : k ∉ [.reg 0x3040, .reg 0x3070, .reg 0x341A, .reg 0x3420, .reg 0x344E, .reg 0x344F, .reg 0x3450, .reg 0x3457,
    .reg 0x6000, .units, .engines, .dies, .bldc, .axes, .power, .trail])
    (h : State.Same k a s) :
    State.Same k a (State.latchHubOutputs s x1) := by
  unfold State.latchHubOutputs
  try lift_lets -underBinder
  repeat' first
    | with_reducible assumption | exact notMem_of hk (by decide +kernel)
    | (intro x
       first
         | (refine same_of (a := a) (k := k) x ?_ fun _ => ?_
            unfold x
            try lift_lets -underBinder
            rotate_left
            clear_value x)
         | clear_value x
         | skip)
    | lift_lets -underBinder | with_reducible apply State.cutUnits_same | with_reducible apply State.chopOff_same
    | with_reducible apply State.latchAfe_same | with_reducible apply State.dropJobs_same
    | with_reducible apply State.setUnit_same | with_reducible apply each_same
    | with_reducible apply State.latchAxis_same | with_reducible apply State.latchDrive_same
    | (split <;> try lift_lets -underBinder)

theorem State.coastOut_same {k : Part} {a s : State} {x1}
    (hk : k ∉ [.reg 0x2402, .reg 0x2444, .reg 0x3040, .reg 0x3050, .reg 0x3070, .reg 0x3101, .reg 0x341A, .reg 0x3420,
    .reg 0x344E, .reg 0x344F, .reg 0x3450, .reg 0x3457, .reg 0x6000, .reg 0x6010, .reg 0x6012, .clock, .chans, .units,
    .slots, .engines, .dies, .bldc, .axes, .power, .trail, .lane, .flight, .free])
    (h : State.Same k a s) :
    State.Same k a (State.coastOut s x1) := by
  unfold State.coastOut
  try lift_lets -underBinder
  repeat' first
    | with_reducible assumption | exact notMem_of hk (by decide +kernel)
    | (intro x
       first
         | (refine same_of (a := a) (k := k) x ?_ fun _ => ?_
            unfold x
            try lift_lets -underBinder
            rotate_left
            clear_value x)
         | clear_value x
         | skip)
    | lift_lets -underBinder | with_reducible apply State.setLoop_same | with_reducible apply State.openCorr_same
    | with_reducible apply each_same | with_reducible apply State.latchOne_same
    | with_reducible apply State.latchDab_same | with_reducible apply State.raiseFrame_same
    | with_reducible apply State.stopWith_same | with_reducible apply State.raiseAll_same
    | with_reducible apply State.latchHubOutputs_same | with_reducible apply State.draw_same
    | (split <;> try lift_lets -underBinder)

theorem State.syncCounts_same {k : Part} {a s : State} {x1}
    (hk : k ∉ [.reg 0x1111, .clock])
    (h : State.Same k a s) :
    State.Same k a (State.syncCounts s x1) := by
  unfold State.syncCounts
  repeat' first
    | with_reducible assumption | exact notMem_of hk (by decide +kernel) | with_reducible apply State.setClock_same
    | with_reducible apply State.wr_same

theorem State.deferStep_same {k : Part} {a s : State}
    (hk : k ∉ [.reg 0x6000, .clock, .dies, .trail])
    (h : State.Same k a s) :
    State.Same k a (State.deferStep s) := by
  unfold State.deferStep
  repeat' first
    | with_reducible assumption | exact notMem_of hk (by decide +kernel) | with_reducible apply State.note_same
    | with_reducible apply State.setClock_same | split

theorem State.stepTime_same {k : Part} {a s : State}
    (hk : k ∉ [.reg 0x1111, .reg 0x6000, .clock, .dies, .trail])
    (h : State.Same k a s) :
    State.Same k a (State.stepTime s) := by
  unfold State.stepTime
  repeat' first
    | with_reducible assumption | exact notMem_of hk (by decide +kernel)
    | with_reducible apply State.loadTimeBases_same | with_reducible apply State.setClock_same
    | with_reducible apply State.note_same | with_reducible apply State.wr_same | with_reducible apply State.inc_same
    | split

theorem State.correctDie_same {k : Part} {a s : State} {x1 x2}
    (hk : k ∉ [.reg 0x1105, .chans, .units, .dies, .adcs])
    (h : State.Same k a s) :
    State.Same k a (State.correctDie s x1 x2) := by
  unfold State.correctDie
  try lift_lets -underBinder
  repeat' first
    | with_reducible assumption | exact notMem_of hk (by decide +kernel)
    | (intro x
       first
         | (refine same_of (a := a) (k := k) x ?_ fun _ => ?_
            unfold x
            try lift_lets -underBinder
            rotate_left
            clear_value x)
         | clear_value x
         | skip)
    | lift_lets -underBinder | with_reducible apply State.retimeLanes_same
    | with_reducible apply State.mapSlices_same | with_reducible apply State.wr_same
    | with_reducible apply State.setDie_same | with_reducible apply each_same
    | with_reducible apply State.setUnit_same | (split <;> try lift_lets -underBinder)

theorem State.closeMeans_same {k : Part} {a s : State} {x1 x2}
    (hk : k ∉ [.chans])
    (h : State.Same k a s) :
    State.Same k a (State.closeMeans s x1 x2) := by
  unfold State.closeMeans
  try lift_lets -underBinder
  repeat' first
    | with_reducible assumption | exact notMem_of hk (by decide +kernel)
    | (intro x
       first
         | (refine same_of (a := a) (k := k) x ?_ fun _ => ?_
            unfold x
            try lift_lets -underBinder
            rotate_left
            clear_value x)
         | clear_value x
         | skip)
    | lift_lets -underBinder | with_reducible apply State.setChan_same | (split <;> try lift_lets -underBinder)

theorem State.flushRepeats_same {k : Part} {a s : State} {x1}
    (hk : k ∉ [.dies, .trail])
    (h : State.Same k a s) :
    State.Same k a (State.flushRepeats s x1) := by
  unfold State.flushRepeats
  try lift_lets -underBinder
  repeat' first
    | with_reducible assumption | exact notMem_of hk (by decide +kernel)
    | (intro x
       first
         | (refine same_of (a := a) (k := k) x ?_ fun _ => ?_
            unfold x
            try lift_lets -underBinder
            rotate_left
            clear_value x)
         | clear_value x
         | skip)
    | lift_lets -underBinder | with_reducible apply State.setDie_same | with_reducible apply each_same
    | with_reducible apply State.sendEntry_same | with_reducible apply State.openCorr_same
    | (split <;> try lift_lets -underBinder)

theorem State.waymark_same {k : Part} {a s : State} {x1}
    (hk : k ∉ [.reg 0x6000, .dies, .trail])
    (h : State.Same k a s) :
    State.Same k a (State.waymark s x1) := by
  unfold State.waymark
  repeat' first
    | with_reducible assumption | exact notMem_of hk (by decide +kernel) | with_reducible apply State.note_same
    | split | with_reducible apply same_trail

theorem State.siteFlow_same {k : Part} {a s : State} {x1}
    (hk : k ∉ [.reg 0x3180, .dies])
    (h : State.Same k a s) :
    State.Same k a (State.siteFlow s x1) := by
  unfold State.siteFlow
  repeat' first
    | with_reducible assumption | exact notMem_of hk (by decide +kernel) | with_reducible apply State.wr_same
    | with_reducible apply State.setDie_same

theorem State.energyFlow_same {k : Part} {a s : State}
    (hk : k ∉ [.reg 0x3180, .reg 0x3181, .dies])
    (h : State.Same k a s) :
    State.Same k a (State.energyFlow s) := by
  unfold State.energyFlow
  try lift_lets -underBinder
  repeat' first
    | with_reducible assumption | exact notMem_of hk (by decide +kernel)
    | (intro x
       first
         | (refine same_of (a := a) (k := k) x ?_ fun _ => ?_
            unfold x
            try lift_lets -underBinder
            rotate_left
            clear_value x)
         | clear_value x
         | skip)
    | lift_lets -underBinder | with_reducible apply each_same | with_reducible apply State.siteFlow_same
    | with_reducible apply State.wr_same | (split <;> try lift_lets -underBinder)

theorem State.onQm_same {k : Part} {a s : State} {f} (hk : k ∉ [.qm]) (h : State.Same k a s) : State.Same k a (s.onQm f) :=
  same_qm hk h

theorem State.strobe_same {k : Part} {a s : State} {x1 x2}
    (hk : k ∉ [.qm])
    (h : State.Same k a s) :
    State.Same k a (State.strobe s x1 x2) := by
  unfold State.strobe
  repeat' first
    | with_reducible assumption | exact notMem_of hk (by decide +kernel) | with_reducible apply State.onQm_same
    | split

theorem State.epoch_same {k : Part} {a s : State} {x1 x2}
    (hk : k ∉ [.reg 0x1101, .reg 0x1105, .reg 0x1111, .reg 0x2406, .reg 0x2407, .reg 0x3180, .reg 0x3181, .reg 0x6000,
    .clock, .chans, .units, .dies, .adcs, .groups, .qm, .trail])
    (h : State.Same k a s) :
    State.Same k a (State.epoch s x1 x2) := by
  unfold State.epoch
  try lift_lets -underBinder
  repeat' first
    | with_reducible assumption | exact notMem_of hk (by decide +kernel)
    | (intro x
       first
         | (refine same_of (a := a) (k := k) x ?_ fun _ => ?_
            unfold x
            try lift_lets -underBinder
            rotate_left
            clear_value x)
         | clear_value x
         | skip)
    | lift_lets -underBinder | with_reducible apply State.deferStep_same | with_reducible apply State.setClock_same
    | with_reducible apply State.wr_same | with_reducible apply each_same
    | with_reducible apply State.correctDie_same | with_reducible apply State.closeMeans_same
    | with_reducible apply State.energyFlow_same | with_reducible apply State.flushRepeats_same
    | with_reducible apply State.strobe_same | with_reducible apply State.groupCheck_same
    | with_reducible apply State.stepTime_same | with_reducible apply State.waymark_same
    | (split <;> try lift_lets -underBinder)

theorem epochSet_same {k : Part} {a s : State} {x1 x2}
    (hk : k ∉ [.reg 0x1101, .clock])
    (h : State.Same k a s) :
    State.Same k a (epochSet x1 s x2) := by
  unfold epochSet
  repeat' first
    | with_reducible assumption | exact notMem_of hk (by decide +kernel) | with_reducible apply State.setClock_same
    | with_reducible apply State.wr_same

theorem State.pass_same {k : Part} {a s : State} {x1}
    (hk : k ∉ [.clock])
    (h : State.Same k a s) :
    State.Same k a (State.pass s x1) := by
  unfold State.pass
  repeat' first
    | with_reducible assumption | exact notMem_of hk (by decide +kernel) | with_reducible apply State.setClock_same
    | split

end Sys2Proof.Machine
end

