-- ==== Sys2Proof/Laws/FrameStart.lean ====
section
/-! SUPPORT. Which parts of the state the operations of images, start-up and the links can change: one lemma for each. -/

namespace Sys2Proof.Machine

set_option Elab.async false

set_option linter.unreachableTactic false
set_option linter.unusedTactic false

theorem State.setSec_same {k : Part} {a s : State} {x1}
    (hk : k ∉ [.sec])
    (h : State.Same k a s) :
    State.Same k a (State.setSec s x1) := by
  unfold State.setSec
  repeat' first
    | with_reducible assumption | exact notMem_of hk (by decide +kernel) | with_reducible apply same_sec

theorem State.setSlotState_same {k : Part} {a s : State} {x1 x2 x3}
    (hk : k ∉ [.reg 0x7035, .sec])
    (h : State.Same k a s) :
    State.Same k a (State.setSlotState s x1 x2 x3) := by
  unfold State.setSlotState
  repeat' first
    | with_reducible assumption | exact notMem_of hk (by decide +kernel) | with_reducible apply State.setSec_same
    | with_reducible apply State.wr_same

theorem State.prefer_same {k : Part} {a s : State} {x1 x2}
    (hk : k ∉ [.reg 0x7034, .sec])
    (h : State.Same k a s) :
    State.Same k a (State.prefer s x1 x2) := by
  unfold State.prefer
  repeat' first
    | with_reducible assumption | exact notMem_of hk (by decide +kernel) | with_reducible apply State.setSec_same
    | with_reducible apply State.wr_same

theorem State.runs_same {k : Part} {a s : State} {x1 x2}
    (hk : k ∉ [.reg 0x7032, .blob 0x7033, .sec])
    (h : State.Same k a s) :
    State.Same k a (State.runs s x1 x2) := by
  unfold State.runs
  repeat' first
    | with_reducible assumption | exact notMem_of hk (by decide +kernel) | with_reducible apply State.setSec_same
    | with_reducible apply State.wrB_same | with_reducible apply State.wr_same

theorem State.runsNone_same {k : Part} {a s : State} {x1}
    (hk : k ∉ [.reg 0x7032, .blob 0x7033])
    (h : State.Same k a s) :
    State.Same k a (State.runsNone s x1) := by
  unfold State.runsNone
  repeat' first
    | with_reducible assumption | exact notMem_of hk (by decide +kernel) | with_reducible apply State.wrB_same
    | with_reducible apply State.wr_same

theorem State.abandonLoad_same {k : Part} {a s : State}
    (hk : k ∉ [.reg 0x7035, .reg 0x7040, .sec])
    (h : State.Same k a s) :
    State.Same k a (State.abandonLoad s) := by
  unfold State.abandonLoad
  repeat' first
    | with_reducible assumption | exact notMem_of hk (by decide +kernel)
    | with_reducible apply State.setSlotState_same | with_reducible apply State.setSec_same
    | with_reducible apply State.wr_same | split

theorem State.imageNote_same {k : Part} {a s : State} {x1 x2 x3}
    (hk : k ∉ [.reg 0x6000, .dies, .trail])
    (h : State.Same k a s) :
    State.Same k a (State.imageNote s x1 x2 x3) := by
  unfold State.imageNote
  repeat' first
    | with_reducible assumption | exact notMem_of hk (by decide +kernel) | with_reducible apply State.note_same

theorem partStart_same {k : Part} {a s : State}
    (hk : k ∉ [.reg 0x7032, .reg 0x7050, .blob 0x7033, .sec])
    (h : State.Same k a s) :
    State.Same k a (partStart s) := by
  unfold partStart
  repeat' first
    | with_reducible assumption | exact notMem_of hk (by decide +kernel) | with_reducible apply State.runs_same
    | with_reducible apply State.wr_same | with_reducible apply State.setSec_same

theorem partHalt_same {k : Part} {a s : State} {x1}
    (hk : k ∉ [.reg 0x7032, .reg 0x7050, .blob 0x7033, .net, .sec])
    (h : State.Same k a s) :
    State.Same k a (partHalt x1 s) := by
  unfold partHalt
  repeat' first
    | with_reducible assumption | exact notMem_of hk (by decide +kernel) | with_reducible apply State.runsNone_same
    | with_reducible apply State.wr_same | with_reducible apply State.setSec_same | with_reducible apply same_net

theorem partitionSet_same {k : Part} {a s : State} {x1 x2}
    (hk : k ∉ [.reg 0x7032, .reg 0x7050, .blob 0x7033, .net, .sec])
    (h : State.Same k a s) :
    State.Same k a (partitionSet x1 s x2) := by
  unfold partitionSet
  repeat' first
    | with_reducible assumption | exact notMem_of hk (by decide +kernel) | with_reducible apply partStart_same
    | with_reducible apply partHalt_same | split

theorem State.restore_same {k : Part} {a s : State} {p} (hr : k.isObj = false) (h : State.Same k a s) :
    State.Same k a (s.restore p) := same_regs hr h

theorem State.loadPeriods_same {k : Part} {a s : State} {x1}
    (hk : k ∉ [.units])
    (h : State.Same k a s) :
    State.Same k a (State.loadPeriods s x1) := by
  unfold State.loadPeriods
  try lift_lets -underBinder
  repeat' first
    | with_reducible assumption | exact notMem_of hk (by decide +kernel)
    | (intro x
       first
         | (refine same_of (a := a) (k := k) x ?_ fun _ => ?_
            unfold x
            try lift_lets -underBinder
            rotate_left
            clear_value x)
         | clear_value x
         | skip)
    | lift_lets -underBinder | with_reducible apply each_same | with_reducible apply State.setUnit_same
    | (split <;> try lift_lets -underBinder)

theorem State.restart_same {k : Part} {a s : State} {p b}
    (hr : k.isObj = false) (hk : k ∉ [.vsys, .fw, .clock, .chans, .units, .slots, .engines, .dies, .descs, .adcs, .wins, .queues, .groups, .bldc, .axes, .power, .sup, .lockbox, .net, .can, .sec, .standbyDue, .sleepLt, .metNote, .lastMet, .metSilent, .metView, .metViewAt, .tag, .sleepHash, .waking, .resetLt, .resetReq, .lane, .flight, .hot])
    (h : State.Same k a s) : State.Same k a (s.restart p b) := by
  cases k <;> first | exact h | exact absurd hr Bool.noConfusion | exact absurd (by simp) hk

theorem State.endedByReset_same {k : Part} {a s : State} {x1}
    (hk : k ∉ [.reg 0x2402])
    (h : State.Same k a s) :
    State.Same k a (State.endedByReset s x1) := by
  unfold State.endedByReset
  repeat' first
    | with_reducible assumption | exact notMem_of hk (by decide +kernel) | with_reducible apply State.wr_same

theorem State.warm_same {k : Part} {a s : State} {x1}
    (hr : k.isObj = false)
    (hk : k ∉ [.vsys, .fw, .clock, .chans, .units, .slots, .engines, .dies, .descs, .adcs, .wins, .queues, .groups,
    .bldc, .axes, .power, .sup, .lockbox, .net, .can, .sec, .trail, .standbyDue, .sleepLt, .metNote, .lastMet,
    .metSilent, .metView, .metViewAt, .tag, .sleepHash, .waking, .resetLt, .resetReq, .lane, .flight, .hot, .free])
    (h : State.Same k a s) :
    State.Same k a (State.warm s x1) := by
  unfold State.warm
  try lift_lets -underBinder
  repeat' first
    | with_reducible assumption | with_reducible exact hr | exact notMem_any hr hk (by decide +kernel)
    | (intro x
       first
         | (refine same_of (a := a) (k := k) x ?_ fun _ => ?_
            unfold x
            try lift_lets -underBinder
            rotate_left
            clear_value x)
         | clear_value x
         | skip)
    | lift_lets -underBinder | with_reducible apply State.abandonLoad_same | with_reducible apply State.note_same
    | with_reducible apply State.restart_same | with_reducible apply State.draw_same
    | with_reducible apply State.wr_field | with_reducible apply State.wr_same | with_reducible apply each_same
    | with_reducible apply State.endedByReset_same | with_reducible apply State.adisDue_same
    | with_reducible apply State.setSup_same | (split <;> try lift_lets -underBinder)

theorem State.markNote_same {k : Part} {a s : State} {x1 x2 x3}
    (hk : k ∉ [.reg 0x6000, .dies, .trail])
    (h : State.Same k a s) :
    State.Same k a (State.markNote s x1 x2 x3) := by
  unfold State.markNote
  repeat' first
    | with_reducible assumption | exact notMem_of hk (by decide +kernel) | with_reducible apply State.raise_same

theorem State.closeSite_same {k : Part} {a s : State} {x1 x2}
    (hk : k ∉ [.lane, .flight])
    (h : State.Same k a s) :
    State.Same k a (State.closeSite s x1 x2) := by
  unfold State.closeSite
  try lift_lets -underBinder
  repeat' first
    | with_reducible assumption | exact notMem_of hk (by decide +kernel)
    | (intro x
       first
         | (refine same_of (a := a) (k := k) x ?_ fun _ => ?_
            unfold x
            try lift_lets -underBinder
            rotate_left
            clear_value x)
         | clear_value x
         | skip)
    | lift_lets -underBinder | with_reducible apply each_same | with_reducible apply State.mail_same
    | (split <;> try lift_lets -underBinder)

theorem State.resetSite_same {k : Part} {a s : State} {x1 x2}
    (hr : k.isObj = false)
    (hk : k ∉ [.chans, .units, .slots, .engines, .dies, .descs, .adcs, .trail, .lane, .flight])
    (h : State.Same k a s) :
    State.Same k a (State.resetSite s x1 x2) := by
  unfold State.resetSite
  try lift_lets -underBinder
  repeat' first
    | with_reducible assumption | with_reducible exact hr | exact notMem_any hr hk (by decide +kernel)
    | (intro x
       first
         | (refine same_of (a := a) (k := k) x ?_ fun _ => ?_
            unfold x
            try lift_lets -underBinder
            rotate_left
            clear_value x)
         | clear_value x
         | skip)
    | lift_lets -underBinder | with_reducible apply each_same | with_reducible apply State.endedByReset_same
    | with_reducible apply State.closeSite_same | with_reducible apply State.markNote_same
    | with_reducible apply State.showMarks_same | (split <;> try lift_lets -underBinder)
    | with_reducible apply same_site

theorem State.resetSites_same {k : Part} {a s : State} {x1}
    (hr : k.isObj = false)
    (hk : k ∉ [.chans, .units, .slots, .engines, .dies, .descs, .adcs, .trail, .lane, .flight])
    (h : State.Same k a s) :
    State.Same k a (State.resetSites s x1) := by
  unfold State.resetSites
  try lift_lets -underBinder
  repeat' first
    | with_reducible assumption | with_reducible exact hr | exact notMem_any hr hk (by decide +kernel)
    | (intro x
       first
         | (refine same_of (a := a) (k := k) x ?_ fun _ => ?_
            unfold x
            try lift_lets -underBinder
            rotate_left
            clear_value x)
         | clear_value x
         | skip)
    | lift_lets -underBinder | with_reducible apply State.wr_field | with_reducible apply State.wr_same
    | with_reducible apply State.raise_same | with_reducible apply State.openCorr_same
    | with_reducible apply each_same | with_reducible apply State.resetSite_same
    | (split <;> try lift_lets -underBinder)

theorem State.resetEngine_same {k : Part} {a s : State} {x1}
    (hk : k ∉ [.slots, .engines, .dies, .free])
    (h : State.Same k a s) :
    State.Same k a (State.resetEngine s x1) := by
  unfold State.resetEngine
  try lift_lets -underBinder
  repeat' first
    | with_reducible assumption | exact notMem_of hk (by decide +kernel)
    | (intro x
       first
         | (refine same_of (a := a) (k := k) x ?_ fun _ => ?_
            unfold x
            try lift_lets -underBinder
            rotate_left
            clear_value x)
         | clear_value x
         | skip)
    | lift_lets -underBinder | with_reducible apply State.draw_same | with_reducible apply State.setDie_same
    | with_reducible apply each_same | with_reducible apply State.setSlot_same
    | (split <;> try lift_lets -underBinder) | with_reducible apply same_engines

theorem State.resetEngines_same {k : Part} {a s : State} {x1}
    (hk : k ∉ [.reg 0x6000, .slots, .engines, .dies, .trail, .free])
    (h : State.Same k a s) :
    State.Same k a (State.resetEngines s x1) := by
  unfold State.resetEngines
  try lift_lets -underBinder
  repeat' first
    | with_reducible assumption | exact notMem_of hk (by decide +kernel)
    | (intro x
       first
         | (refine same_of (a := a) (k := k) x ?_ fun _ => ?_
            unfold x
            try lift_lets -underBinder
            rotate_left
            clear_value x)
         | clear_value x
         | skip)
    | lift_lets -underBinder | with_reducible apply State.note_same | with_reducible apply each_same
    | with_reducible apply State.resetEngine_same | (split <;> try lift_lets -underBinder)

theorem State.settle_same {k : Part} {a s : State}
    (hr : k.isObj = false)
    (hk : k ∉ [.vsys, .fw, .clock, .chans, .units, .slots, .engines, .dies, .descs, .adcs, .wins, .queues, .groups,
    .bldc, .axes, .power, .sup, .lockbox, .net, .can, .sec, .trail, .standbyDue, .sleepLt, .metNote, .lastMet,
    .metSilent, .metView, .metViewAt, .tag, .sleepHash, .waking, .resetLt, .resetReq, .lane, .flight, .hot, .free])
    (h : State.Same k a s) :
    State.Same k a (State.settle s) := by
  unfold State.settle
  repeat' first
    | with_reducible assumption | with_reducible exact hr | exact notMem_any hr hk (by decide +kernel)
    | with_reducible apply State.pass_same | with_reducible apply State.warm_same
    | with_reducible apply State.resetSites_same | with_reducible apply State.resetEngines_same | split
    | with_reducible apply same_resetReq

theorem warmSet_same {k : Part} {a s : State} {x1}
    (hk : k ∉ [.resetReq])
    (h : State.Same k a s) :
    State.Same k a (warmSet s x1) := by
  unfold warmSet
  repeat' first
    | with_reducible assumption | exact notMem_of hk (by decide +kernel) | with_reducible apply same_resetReq

theorem siteResetSet_same {k : Part} {a s : State} {x1 x2}
    (hk : k ∉ [.resetReq])
    (h : State.Same k a s) :
    State.Same k a (siteResetSet x1 s x2) := by
  unfold siteResetSet
  repeat' first
    | with_reducible assumption | exact notMem_of hk (by decide +kernel) | with_reducible apply same_resetReq

theorem engineResetSet_same {k : Part} {a s : State} {x1 x2}
    (hk : k ∉ [.resetReq])
    (h : State.Same k a s) :
    State.Same k a (engineResetSet x1 s x2) := by
  unfold engineResetSet
  repeat' first
    | with_reducible assumption | exact notMem_of hk (by decide +kernel) | with_reducible apply same_resetReq

theorem State.recoverSite_same {k : Part} {a s : State} {x1}
    (hr : k.isObj = false)
    (hk : k ∉ [.chans, .units, .slots, .engines, .dies, .descs, .adcs, .trail, .lane, .flight])
    (h : State.Same k a s) :
    State.Same k a (State.recoverSite s x1) := by
  unfold State.recoverSite
  repeat' first
    | with_reducible assumption | with_reducible exact hr | exact notMem_any hr hk (by decide +kernel)
    | with_reducible apply State.resetSites_same

theorem State.readBanks_same {k : Part} {a s : State} {x1}
    (hk : k ∉ [.reg 0x1220, .banks])
    (h : State.Same k a s) :
    State.Same k a (State.readBanks s x1) := by
  unfold State.readBanks
  repeat' first
    | with_reducible assumption | exact notMem_of hk (by decide +kernel) | with_reducible apply State.wr_same
    | with_reducible apply same_banks

theorem State.newNonce_same {k : Part} {a s : State}
    (hk : k ∉ [.reg 0x7060, .free])
    (h : State.Same k a s) :
    State.Same k a (State.newNonce s) := by
  unfold State.newNonce
  repeat' first
    | with_reducible assumption | exact notMem_of hk (by decide +kernel) | with_reducible apply State.wr_same
    | with_reducible apply State.draw_same

theorem State.powerOn_same {k : Part} {a s : State} {x1}
    (hr : k.isObj = false)
    (hk : k ∉ [.vsys, .fw, .clock, .chans, .units, .slots, .engines, .dies, .descs, .adcs, .wins, .queues, .groups,
    .bldc, .axes, .power, .sup, .lockbox, .net, .can, .sec, .trail, .standbyDue, .sleepLt, .metNote, .lastMet,
    .metSilent, .metView, .metViewAt, .tag, .sleepHash, .waking, .resetLt, .resetReq, .lane, .flight, .banks, .hot,
    .free])
    (h : State.Same k a s) :
    State.Same k a (State.powerOn s x1) := by
  unfold State.powerOn
  repeat' first
    | with_reducible assumption | with_reducible exact hr | exact notMem_any hr hk (by decide +kernel)
    | with_reducible apply State.restart_same | with_reducible apply State.wr_field
    | with_reducible apply State.wr_same | with_reducible apply State.newNonce_same
    | with_reducible apply State.readBanks_same | with_reducible apply State.note_same
    | with_reducible apply same_powerOn

theorem State.bootOther_same {k : Part} {a s : State} {x1}
    (hk : k ∉ [.reg 0x7034, .reg 0x7035, .sec])
    (h : State.Same k a s) :
    State.Same k a (State.bootOther s x1) := by
  unfold State.bootOther
  try lift_lets -underBinder
  repeat' first
    | with_reducible assumption | exact notMem_of hk (by decide +kernel)
    | (intro x
       first
         | (refine same_of (a := a) (k := k) x ?_ fun _ => ?_
            unfold x
            try lift_lets -underBinder
            rotate_left
            clear_value x)
         | clear_value x
         | skip)
    | lift_lets -underBinder | with_reducible apply State.prefer_same | with_reducible apply State.setSlotState_same
    | with_reducible apply State.setSec_same | (split <;> try lift_lets -underBinder)

theorem State.phase_same {k : Part} {a s : State} {x1}
    (hk : k ∉ [.reg 0x1202])
    (h : State.Same k a s) :
    State.Same k a (State.phase s x1) := by
  unfold State.phase
  repeat' first
    | with_reducible assumption | exact notMem_of hk (by decide +kernel) | with_reducible apply State.wr_same

theorem State.checkReady_same {k : Part} {a s : State}
    (hk : k ∉ [.reg 0x1202, .reg 0x7032, .reg 0x7050, .blob 0x7033, .sec])
    (h : State.Same k a s) :
    State.Same k a (State.checkReady s) := by
  unfold State.checkReady
  try lift_lets -underBinder
  repeat' first
    | with_reducible assumption | exact notMem_of hk (by decide +kernel)
    | (intro x
       first
         | (refine same_of (a := a) (k := k) x ?_ fun _ => ?_
            unfold x
            try lift_lets -underBinder
            rotate_left
            clear_value x)
         | clear_value x
         | skip)
    | lift_lets -underBinder | with_reducible apply State.wr_same | with_reducible apply partStart_same
    | (split <;> try lift_lets -underBinder)

theorem State.noSites_same {k : Part} {a s : State}
    (hk : k ∉ [.reg 0x7032, .blob 0x7033])
    (h : State.Same k a s) :
    State.Same k a (State.noSites s) := by
  unfold State.noSites
  repeat' first
    | with_reducible assumption | exact notMem_of hk (by decide +kernel) | with_reducible apply State.runsNone_same
    | split

theorem State.startFirmware_same {k : Part} {a s : State}
    (hr : k.isObj = false)
    (hk : k ∉ [.fw, .units, .slots, .dies, .net, .can, .sec, .trail, .metNote, .lastMet, .lane, .flight])
    (h : State.Same k a s) :
    State.Same k a (State.startFirmware s) := by
  unfold State.startFirmware
  try lift_lets -underBinder
  repeat' first
    | with_reducible assumption | with_reducible exact hr | exact notMem_any hr hk (by decide +kernel)
    | (intro x
       first
         | (refine same_of (a := a) (k := k) x ?_ fun _ => ?_
            unfold x
            try lift_lets -underBinder
            rotate_left
            clear_value x)
         | clear_value x
         | skip)
    | lift_lets -underBinder | with_reducible apply State.wr_field | with_reducible apply State.wr_same
    | with_reducible apply State.loadPeriods_same | with_reducible apply State.restore_same
    | with_reducible apply State.runs_same | with_reducible apply State.phase_same
    | with_reducible apply State.noSites_same | with_reducible apply State.imageNote_same
    | with_reducible apply each_same | with_reducible apply State.setPort_same
    | with_reducible apply State.replaceIds_same | with_reducible apply State.setSec_same
    | with_reducible apply State.closeSite_same | with_reducible apply State.checkReady_same
    | with_reducible apply State.admitRestored_same | (split <;> try lift_lets -underBinder)
    | with_reducible apply same_net | with_reducible apply same_start

theorem State.failSite_same {k : Part} {a s : State} {x1 x2}
    (hk : k ∉ [.reg 0x1200, .reg 0x1202, .reg 0x6000, .reg 0x7032, .reg 0x7050, .blob 0x7033, .dies, .sec, .trail])
    (h : State.Same k a s) :
    State.Same k a (State.failSite s x1 x2) := by
  unfold State.failSite
  repeat' first
    | with_reducible assumption | exact notMem_of hk (by decide +kernel) | with_reducible apply State.checkReady_same
    | with_reducible apply State.note_same | with_reducible apply State.wr_same

theorem State.beatNow_same {k : Part} {a s : State} {x1}
    (hk : k ∉ [.dies])
    (h : State.Same k a s) :
    State.Same k a (State.beatNow s x1) := by
  unfold State.beatNow
  repeat' first
    | with_reducible assumption | exact notMem_of hk (by decide +kernel) | with_reducible apply State.setDie_same

theorem State.siteUp_same {k : Part} {a s : State} {x1}
    (hr : k.isObj = false)
    (hk : k ∉ [.units, .slots, .dies, .trail])
    (h : State.Same k a s) :
    State.Same k a (State.siteUp s x1) := by
  unfold State.siteUp
  try lift_lets -underBinder
  repeat' first
    | with_reducible assumption | with_reducible exact hr | exact notMem_any hr hk (by decide +kernel)
    | (intro x
       first
         | (refine same_of (a := a) (k := k) x ?_ fun _ => ?_
            unfold x
            try lift_lets -underBinder
            rotate_left
            clear_value x)
         | clear_value x
         | skip)
    | lift_lets -underBinder | with_reducible apply State.wr_field | with_reducible apply State.wr_same
    | with_reducible apply State.loadPeriods_same | with_reducible apply State.restore_same
    | with_reducible apply State.beatNow_same | with_reducible apply State.showMarks_same
    | with_reducible apply State.setDie_same | with_reducible apply State.admitRestored_same
    | with_reducible apply State.replaceIds_same | with_reducible apply State.phase_same
    | with_reducible apply State.startDabs_same | (split <;> try lift_lets -underBinder)

theorem State.drainSwitch_same {k : Part} {a s : State}
    (hk : k ∉ [.net])
    (h : State.Same k a s) :
    State.Same k a (State.drainSwitch s) := by
  unfold State.drainSwitch
  try lift_lets -underBinder
  repeat' first
    | with_reducible assumption | exact notMem_of hk (by decide +kernel)
    | (intro x
       first
         | (refine same_of (a := a) (k := k) x ?_ fun _ => ?_
            unfold x
            try lift_lets -underBinder
            rotate_left
            clear_value x)
         | clear_value x
         | skip)
    | lift_lets -underBinder | with_reducible apply each_same | (split <;> try lift_lets -underBinder)
    | with_reducible apply same_net

theorem State.tick_same {k : Part} {a s : State}
    (hk : k ∉ [.clock, .units, .dies, .net])
    (h : State.Same k a s) :
    State.Same k a (State.tick s) := by
  unfold State.tick
  try lift_lets -underBinder
  repeat' first
    | with_reducible assumption | exact notMem_of hk (by decide +kernel)
    | (intro x
       first
         | (refine same_of (a := a) (k := k) x ?_ fun _ => ?_
            unfold x
            try lift_lets -underBinder
            rotate_left
            clear_value x)
         | clear_value x
         | skip)
    | lift_lets -underBinder | with_reducible apply State.drainSwitch_same
    | with_reducible apply State.settlePins_same | with_reducible apply State.pass_same
    | with_reducible apply each_same | with_reducible apply State.setDie_same
    | (split <;> try lift_lets -underBinder)

theorem State.enterRest_same {k : Part} {a s : State} {x1}
    (hk : k ∉ [.reg 0x1200, .reg 0x1210, .reg 0x3101, .chans, .units, .dies])
    (h : State.Same k a s) :
    State.Same k a (State.enterRest s x1) := by
  unfold State.enterRest
  try lift_lets -underBinder
  repeat' first
    | with_reducible assumption | exact notMem_of hk (by decide +kernel)
    | (intro x
       first
         | (refine same_of (a := a) (k := k) x ?_ fun _ => ?_
            unfold x
            try lift_lets -underBinder
            rotate_left
            clear_value x)
         | clear_value x
         | skip)
    | lift_lets -underBinder | with_reducible apply each_same | with_reducible apply State.wr_same
    | with_reducible apply State.stopUnit_same | with_reducible apply State.setDie_same
    | with_reducible apply State.inc_same | with_reducible apply State.slicesLow_same
    | (split <;> try lift_lets -underBinder)

theorem powerReqSet_same {k : Part} {a s : State} {x1 x2}
    (hk : k ∉ [.reg 0x1200, .reg 0x1210, .reg 0x2500, .reg 0x3101, .reg 0x6000, .clock, .units, .slots, .dies, .trail,
    .standbyDue])
    (h : State.Same k a s) :
    State.Same k a (powerReqSet x1 s x2) := by
  unfold powerReqSet
  try lift_lets -underBinder
  repeat' first
    | with_reducible assumption | exact notMem_of hk (by decide +kernel)
    | (intro x
       first
         | (refine same_of (a := a) (k := k) x ?_ fun _ => ?_
            unfold x
            try lift_lets -underBinder
            rotate_left
            clear_value x)
         | clear_value x
         | skip)
    | lift_lets -underBinder | with_reducible apply each_same | with_reducible apply State.wakeDie_same
    | with_reducible apply State.leaveStandby_same | (split <;> try lift_lets -underBinder)
    | with_reducible apply same_standbyDue

theorem State.enterStandby_same {k : Part} {a s : State}
    (hk : k ∉ [.reg 0x1200, .clock, .dies])
    (h : State.Same k a s) :
    State.Same k a (State.enterStandby s) := by
  unfold State.enterStandby
  try lift_lets -underBinder
  repeat' first
    | with_reducible assumption | exact notMem_of hk (by decide +kernel)
    | (intro x
       first
         | (refine same_of (a := a) (k := k) x ?_ fun _ => ?_
            unfold x
            try lift_lets -underBinder
            rotate_left
            clear_value x)
         | clear_value x
         | skip)
    | lift_lets -underBinder | with_reducible apply State.setClock_same | with_reducible apply each_same
    | with_reducible apply State.setDie_same | with_reducible apply State.wr_same
    | (split <;> try lift_lets -underBinder)

theorem State.enterSleep_same {k : Part} {a s : State}
    (hk : k ∉ [.reg 0x1200, .sleepLt, .sleepHash, .lane, .flight])
    (h : State.Same k a s) :
    State.Same k a (State.enterSleep s) := by
  unfold State.enterSleep
  repeat' first
    | with_reducible assumption | exact notMem_of hk (by decide +kernel) | with_reducible apply State.mail_same
    | with_reducible apply State.wr_same | with_reducible apply same_sleep

theorem State.wakeBy_same {k : Part} {a s : State} {x1}
    (hk : k ∉ [.waking])
    (h : State.Same k a s) :
    State.Same k a (State.wakeBy s x1) := by
  unfold State.wakeBy
  repeat' first
    | with_reducible assumption | exact notMem_of hk (by decide +kernel) | split | with_reducible apply same_waking

theorem State.deliver_same {k : Part} {a s : State} {x1 x2 x3}
    (hk : k ∉ [.reg 0x6000, .dies, .trail])
    (h : State.Same k a s) :
    State.Same k a (State.deliver s x1 x2 x3) := by
  unfold State.deliver
  repeat' first
    | with_reducible assumption | exact notMem_of hk (by decide +kernel) | with_reducible apply State.setDie_same
    | with_reducible apply State.store_same | split

theorem State.arriveFlit_same {k : Part} {a s : State} {x1 x2 x3}
    (hk : k ∉ [.reg 0x6000, .dies, .trail])
    (h : State.Same k a s) :
    State.Same k a (State.arriveFlit s x1 x2 x3) := by
  unfold State.arriveFlit
  try lift_lets -underBinder
  repeat' first
    | with_reducible assumption | exact notMem_of hk (by decide +kernel)
    | (intro x
       first
         | (refine same_of (a := a) (k := k) x ?_ fun _ => ?_
            unfold x
            try lift_lets -underBinder
            rotate_left
            clear_value x)
         | clear_value x
         | skip)
    | lift_lets -underBinder | with_reducible apply State.onLink_same | with_reducible apply State.endReplay_same
    | with_reducible apply each_same | with_reducible apply State.deliver_same
    | (split <;> try lift_lets -underBinder)

theorem State.loseDie_same {k : Part} {a s : State} {x1 x2 x3}
    (hk : k ∉ [.reg 0x1200, .reg 0x3104, .reg 0x6000, .reg 0x6021, .chans, .dies, .trail, .lane, .flight])
    (h : State.Same k a s) :
    State.Same k a (State.loseDie s x1 x2 x3) := by
  unfold State.loseDie
  try lift_lets -underBinder
  repeat' first
    | with_reducible assumption | exact notMem_of hk (by decide +kernel)
    | (intro x
       first
         | (refine same_of (a := a) (k := k) x ?_ fun _ => ?_
            unfold x
            try lift_lets -underBinder
            rotate_left
            clear_value x)
         | clear_value x
         | skip)
    | lift_lets -underBinder | with_reducible apply State.raiseFrame_same | with_reducible apply State.inc_same
    | with_reducible apply State.wr_same | with_reducible apply State.setDie_same
    | with_reducible apply State.closeSite_same | with_reducible apply State.markNote_same
    | with_reducible apply State.showMarks_same | with_reducible apply each_same
    | with_reducible apply State.setRunSt_same | with_reducible apply State.raise_same
    | (split <;> try lift_lets -underBinder)

theorem State.cancelReplay_same {k : Part} {a s : State} {x1 x2}
    (hk : k ∉ [.reg 0x6000, .dies, .trail])
    (h : State.Same k a s) :
    State.Same k a (State.cancelReplay s x1 x2) := by
  unfold State.cancelReplay
  repeat' first
    | with_reducible assumption | exact notMem_of hk (by decide +kernel) | with_reducible apply State.onLink_same
    | with_reducible apply State.endReplay_same | with_reducible apply State.endAgain_same | split

theorem State.arrives_same {k : Part} {a s : State} {x1 x2 x3 x4} {f : Nat → State → State}
    (hk : k ∉ [.reg 0x1200, .reg 0x1210, .reg 0x3101, .reg 0x6000, .units, .dies, .trail])
    (h : State.Same k a s) (hf : ∀ n y, State.Same k a y → State.Same k a (f n y)) :
    State.Same k a (s.arrives x1 x2 x3 x4 f) := by
  unfold State.arrives
  split
  · split
    · exact State.frameAgain_same (notMem_of hk (by decide +kernel)) h
    · extract_lets y
      have hy : State.Same k a y := State.endAgain_same (notMem_of hk (by decide +kernel)) h
      clear_value y
      split
      · exact State.raise_same (notMem_of hk (by decide +kernel)) hy
      · split
        · exact hf _ _ (State.wakeDie_same (notMem_of hk (by decide +kernel)) (State.frameIn_same (notMem_of hk (by decide +kernel)) hy))
        · exact hy
  · exact h

theorem State.tagBit_same {k : Part} {a s : State} {x1 x2 x3}
    (hk : k ∉ [.dies])
    (h : State.Same k a s) :
    State.Same k a (State.tagBit s x1 x2 x3) := by
  unfold State.tagBit
  repeat' first
    | with_reducible assumption | exact notMem_of hk (by decide +kernel) | with_reducible apply State.setDie_same

end Sys2Proof.Machine
end

