-- ==== Sys2Proof/Laws/FrameMeter.lean ====
section
/-! SUPPORT. Which parts of the state the operations of the measuring part can change: one lemma for each. -/

namespace Sys2Proof.Machine

set_option Elab.async false

set_option linter.unreachableTactic false
set_option linter.unusedTactic false

theorem State.setQc_same {k : Part} {a s : State} {x1 x2}
    (hk : k ∉ [.qm])
    (h : State.Same k a s) :
    State.Same k a (State.setQc s x1 x2) := by
  unfold State.setQc
  repeat' first
    | with_reducible assumption | exact notMem_of hk (by decide +kernel) | with_reducible apply State.onQm_same

theorem State.mark_same {k : Part} {a s : State} {x1 x2}
    (hk : k ∉ [.qm])
    (h : State.Same k a s) :
    State.Same k a (State.mark s x1 x2) := by
  unfold State.mark
  repeat' first
    | with_reducible assumption | exact notMem_of hk (by decide +kernel) | with_reducible apply State.onQm_same

theorem State.unmark_same {k : Part} {a s : State} {x1 x2}
    (hk : k ∉ [.qm])
    (h : State.Same k a s) :
    State.Same k a (State.unmark s x1 x2) := by
  unfold State.unmark
  repeat' first
    | with_reducible assumption | exact notMem_of hk (by decide +kernel) | with_reducible apply State.onQm_same

theorem State.alert_same {k : Part} {a s : State} {x1}
    (hk : k ∉ [.qm])
    (h : State.Same k a s) :
    State.Same k a (State.alert s x1) := by
  unfold State.alert
  repeat' first
    | with_reducible assumption | exact notMem_of hk (by decide +kernel) | with_reducible apply State.onQm_same

theorem State.formMirror_same {k : Part} {a s : State} {x1 x2}
    (hk : k ∉ [.qm])
    (h : State.Same k a s) :
    State.Same k a (State.formMirror s x1 x2) := by
  unfold State.formMirror
  try lift_lets -underBinder
  repeat' first
    | with_reducible assumption | exact notMem_of hk (by decide +kernel)
    | (intro x
       first
         | (refine same_of (a := a) (k := k) x ?_ fun _ => ?_
            unfold x
            try lift_lets -underBinder
            rotate_left
            clear_value x)
         | clear_value x
         | skip)
    | lift_lets -underBinder | with_reducible apply State.setQc_same | (split <;> try lift_lets -underBinder)

theorem State.checkHold_same {k : Part} {a s : State}
    (hk : k ∉ [.qm])
    (h : State.Same k a s) :
    State.Same k a (State.checkHold s) := by
  unfold State.checkHold
  repeat' first
    | with_reducible assumption | exact notMem_of hk (by decide +kernel) | with_reducible apply State.alert_same
    | with_reducible apply State.onQm_same | split

theorem State.writeRec_same {k : Part} {a s : State} {x1 f}
    (hk : k ∉ [.qm])
    (h : State.Same k a s) : State.Same k a (s.writeRec x1 f) :=
  State.checkHold_same (notMem_of hk (by decide +kernel)) (State.onQm_same (notMem_of hk (by decide +kernel)) h)

theorem State.putRec_same {k : Part} {a s : State} {x1 f}
    (hk : k ∉ [.qm])
    (h : State.Same k a s) : State.Same k a (s.putRec x1 f) := by
  unfold State.putRec
  split
  · exact State.writeRec_same hk h
  · exact State.onQm_same (notMem_of hk (by decide +kernel)) h

theorem State.closeQStep_same {k : Part} {a s : State} {x1 x2 x3 x4}
    (hk : k ∉ [.qm, .free])
    (h : State.Same k a s) :
    State.Same k a (State.closeQStep s x1 x2 x3 x4) := by
  unfold State.closeQStep
  try lift_lets -underBinder
  repeat' first
    | with_reducible assumption | exact notMem_of hk (by decide +kernel)
    | (intro x
       first
         | (refine same_of (a := a) (k := k) x ?_ fun _ => ?_
            unfold x
            try lift_lets -underBinder
            rotate_left
            clear_value x)
         | clear_value x
         | skip)
    | lift_lets -underBinder | with_reducible apply State.draw_same | with_reducible apply State.writeRec_same
    | with_reducible apply State.setQc_same | (split <;> try lift_lets -underBinder)

theorem State.startQStep_same {k : Part} {a s : State} {x1 x2 x3 x4 x5 x6 x7 x8 x9 x10 x11}
    (hk : k ∉ [.qm, .free])
    (h : State.Same k a s) :
    State.Same k a (State.startQStep s x1 x2 x3 x4 x5 x6 x7 x8 x9 x10 x11) := by
  unfold State.startQStep
  repeat' first
    | with_reducible assumption | exact notMem_of hk (by decide +kernel) | with_reducible apply State.closeQStep_same
    | with_reducible apply State.setQc_same

theorem State.setRot_same {k : Part} {a s : State} {x1 x2 x3}
    (hk : k ∉ [.qm])
    (h : State.Same k a s) :
    State.Same k a (State.setRot s x1 x2 x3) := by
  unfold State.setRot
  repeat' first
    | with_reducible assumption | exact notMem_of hk (by decide +kernel) | with_reducible apply State.onQm_same

theorem State.keep_same {k : Part} {a s : State} {x1}
    (hk : k ∉ [.qm])
    (h : State.Same k a s) :
    State.Same k a (State.keep s x1) := by
  unfold State.keep
  repeat' first
    | with_reducible assumption | exact notMem_of hk (by decide +kernel) | with_reducible apply State.onQm_same

theorem State.heard_same {k : Part} {a s : State}
    (hk : k ∉ [.lastMet, .metView, .metViewAt])
    (h : State.Same k a s) :
    State.Same k a (State.heard s) := by
  unfold State.heard
  repeat' first
    | with_reducible assumption | exact notMem_of hk (by decide +kernel) | with_reducible apply same_heard

theorem State.mailReply_same {k : Part} {a s : State} {x1 x2 x3}
    (hk : k ∉ [.qm, .lastMet, .metView, .metViewAt, .tag])
    (h : State.Same k a s) :
    State.Same k a (State.mailReply s x1 x2 x3) := by
  unfold State.mailReply
  repeat' first
    | with_reducible assumption | exact notMem_of hk (by decide +kernel) | with_reducible apply State.heard_same
    | with_reducible apply State.onQm_same | with_reducible apply same_tag

theorem State.answered_same {k : Part} {a s : State} {x1}
    (hk : k ∉ [.lane, .flight])
    (h : State.Same k a s) :
    State.Same k a (State.answered s x1) := by
  unfold State.answered
  repeat' first
    | with_reducible assumption | exact notMem_of hk (by decide +kernel) | with_reducible apply State.pump_same
    | with_reducible apply same_flight

theorem State.doStepStart_same {k : Part} {a s : State} {x1}
    (hk : k ∉ [.qm, .free])
    (h : State.Same k a s) :
    State.Same k a (State.doStepStart s x1) := by
  unfold State.doStepStart
  repeat' first
    | with_reducible assumption | exact notMem_of hk (by decide +kernel) | with_reducible apply State.keep_same
    | with_reducible apply State.startQStep_same | split

theorem State.doStepClose_same {k : Part} {a s : State} {x1}
    (hk : k ∉ [.qm, .free])
    (h : State.Same k a s) :
    State.Same k a (State.doStepClose s x1) := by
  unfold State.doStepClose
  repeat' first
    | with_reducible assumption | exact notMem_of hk (by decide +kernel) | with_reducible apply State.keep_same
    | with_reducible apply State.closeQStep_same | split

theorem State.doClose_same {k : Part} {a s : State} {x1 x2 x3 x4}
    (hk : k ∉ [.qm, .free])
    (h : State.Same k a s) :
    State.Same k a (State.doClose s x1 x2 x3 x4) := by
  unfold State.doClose
  repeat' first
    | with_reducible assumption | exact notMem_of hk (by decide +kernel)
    | with_reducible apply State.doStepClose_same | with_reducible apply State.onQm_same

theorem State.doPeriodic_same {k : Part} {a s : State} {x1}
    (hk : k ∉ [.qm, .free])
    (h : State.Same k a s) :
    State.Same k a (State.doPeriodic s x1) := by
  unfold State.doPeriodic
  try lift_lets -underBinder
  repeat' first
    | with_reducible assumption | exact notMem_of hk (by decide +kernel)
    | (intro x
       first
         | (refine same_of (a := a) (k := k) x ?_ fun _ => ?_
            unfold x
            try lift_lets -underBinder
            rotate_left
            clear_value x)
         | clear_value x
         | skip)
    | lift_lets -underBinder | with_reducible apply State.keep_same | with_reducible apply State.draw_same
    | with_reducible apply State.putRec_same | with_reducible apply State.setQc_same
    | (split <;> try lift_lets -underBinder)

theorem State.doImpedance_same {k : Part} {a s : State} {x1}
    (hk : k ∉ [.qm, .free])
    (h : State.Same k a s) :
    State.Same k a (State.doImpedance s x1) := by
  unfold State.doImpedance
  try lift_lets -underBinder
  repeat' first
    | with_reducible assumption | exact notMem_of hk (by decide +kernel)
    | (intro x
       first
         | (refine same_of (a := a) (k := k) x ?_ fun _ => ?_
            unfold x
            try lift_lets -underBinder
            rotate_left
            clear_value x)
         | clear_value x
         | skip)
    | lift_lets -underBinder | with_reducible apply State.keep_same | with_reducible apply State.draw_same
    | with_reducible apply State.putRec_same | with_reducible apply State.setQc_same
    | (split <;> try lift_lets -underBinder)

theorem State.closeBatch_same {k : Part} {a s : State}
    (hk : k ∉ [.qm])
    (h : State.Same k a s) :
    State.Same k a (State.closeBatch s) := by
  unfold State.closeBatch
  repeat' first
    | with_reducible assumption | exact notMem_of hk (by decide +kernel) | with_reducible apply State.checkHold_same
    | with_reducible apply State.onQm_same

theorem State.ackTo_same {k : Part} {a s : State} {x1}
    (hk : k ∉ [.qm])
    (h : State.Same k a s) :
    State.Same k a (State.ackTo s x1) := by
  unfold State.ackTo
  repeat' first
    | with_reducible assumption | exact notMem_of hk (by decide +kernel) | with_reducible apply State.checkHold_same
    | with_reducible apply State.onQm_same

theorem State.doAck_same {k : Part} {a s : State} {x1}
    (hk : k ∉ [.qm])
    (h : State.Same k a s) :
    State.Same k a (State.doAck s x1) := by
  unfold State.doAck
  repeat' first
    | with_reducible assumption | exact notMem_of hk (by decide +kernel) | with_reducible apply State.ackTo_same
    | split

theorem State.doSubscribe_same {k : Part} {a s : State} {x1}
    (hk : k ∉ [.qm, .lastMet, .metView, .metViewAt, .tag])
    (h : State.Same k a s) :
    State.Same k a (State.doSubscribe s x1) := by
  unfold State.doSubscribe
  repeat' first
    | with_reducible assumption | exact notMem_of hk (by decide +kernel) | with_reducible apply State.mailReply_same
    | with_reducible apply State.onQm_same | split

theorem State.doCellId_same {k : Part} {a s : State} {x1 x2}
    (hk : k ∉ [.qm, .lastMet, .metView, .metViewAt, .tag])
    (h : State.Same k a s) :
    State.Same k a (State.doCellId s x1 x2) := by
  unfold State.doCellId
  repeat' first
    | with_reducible assumption | exact notMem_of hk (by decide +kernel) | with_reducible apply State.mailReply_same
    | with_reducible apply State.setQc_same | split

theorem State.carry_same {k : Part} {a s : State} {x1}
    (hk : k ∉ [.qm, .lastMet, .metView, .metViewAt, .tag, .lane, .flight, .free])
    (h : State.Same k a s) :
    State.Same k a (State.carry s x1) := by
  unfold State.carry
  try lift_lets -underBinder
  repeat' first
    | with_reducible assumption | exact notMem_of hk (by decide +kernel)
    | (intro x
       first
         | (refine same_of (a := a) (k := k) x ?_ fun _ => ?_
            unfold x
            try lift_lets -underBinder
            rotate_left
            clear_value x)
         | clear_value x
         | skip)
    | lift_lets -underBinder | with_reducible apply State.answered_same | with_reducible apply State.doSubscribe_same
    | with_reducible apply State.doCellId_same | with_reducible apply State.mailReply_same
    | with_reducible apply State.doStepStart_same | with_reducible apply State.doClose_same
    | with_reducible apply State.doAck_same | (split <;> try lift_lets -underBinder)

theorem State.ahead_same {k : Part} {a s : State} {x1}
    (hk : k ∉ [.qm, .lastMet, .metView, .metViewAt, .tag, .lane, .flight, .free])
    (h : State.Same k a s) :
    State.Same k a (State.ahead s x1) := by
  unfold State.ahead
  try lift_lets -underBinder
  repeat' first
    | with_reducible assumption | exact notMem_of hk (by decide +kernel)
    | (intro x
       first
         | (refine same_of (a := a) (k := k) x ?_ fun _ => ?_
            unfold x
            try lift_lets -underBinder
            rotate_left
            clear_value x)
         | clear_value x
         | skip)
    | lift_lets -underBinder | with_reducible apply each_same | with_reducible apply State.carry_same
    | (split <;> try lift_lets -underBinder)

theorem State.flushMail_same {k : Part} {a s : State}
    (hk : k ∉ [.qm, .lastMet, .metView, .metViewAt, .tag, .lane, .flight, .free])
    (h : State.Same k a s) :
    State.Same k a (State.flushMail s) := by
  unfold State.flushMail
  try lift_lets -underBinder
  repeat' first
    | with_reducible assumption | exact notMem_of hk (by decide +kernel)
    | (intro x
       first
         | (refine same_of (a := a) (k := k) x ?_ fun _ => ?_
            unfold x
            try lift_lets -underBinder
            rotate_left
            clear_value x)
         | clear_value x
         | skip)
    | lift_lets -underBinder | with_reducible apply each_same | with_reducible apply State.carry_same
    | (split <;> try lift_lets -underBinder)

theorem State.request_same {k : Part} {a s : State} {x1}
    (hk : k ∉ [.qm, .lastMet, .metView, .metViewAt, .tag, .lane, .flight, .free])
    (h : State.Same k a s) :
    State.Same k a (State.request s x1) := by
  unfold State.request
  repeat' first
    | with_reducible assumption | exact notMem_of hk (by decide +kernel) | with_reducible apply State.carry_same
    | with_reducible apply State.ahead_same | split

theorem State.runHeld_same {k : Part} {a s : State} {x1}
    (hk : k ∉ [.qm, .free])
    (h : State.Same k a s) :
    State.Same k a (State.runHeld s x1) := by
  unfold State.runHeld
  repeat' first
    | with_reducible assumption | exact notMem_of hk (by decide +kernel)
    | with_reducible apply State.doStepStart_same | with_reducible apply State.doStepClose_same
    | with_reducible apply State.doPeriodic_same | with_reducible apply State.doImpedance_same | split

theorem State.releaseHeld_same {k : Part} {a s : State}
    (hk : k ∉ [.qm, .free])
    (h : State.Same k a s) :
    State.Same k a (State.releaseHeld s) := by
  unfold State.releaseHeld
  try lift_lets -underBinder
  repeat' first
    | with_reducible assumption | exact notMem_of hk (by decide +kernel)
    | (intro x
       first
         | (refine same_of (a := a) (k := k) x ?_ fun _ => ?_
            unfold x
            try lift_lets -underBinder
            rotate_left
            clear_value x)
         | clear_value x
         | skip)
    | lift_lets -underBinder | with_reducible apply each_same | with_reducible apply State.runHeld_same
    | with_reducible apply State.onQm_same | (split <;> try lift_lets -underBinder)

theorem State.checkpointNow_same {k : Part} {a s : State}
    (hk : k ∉ [.qm])
    (h : State.Same k a s) :
    State.Same k a (State.checkpointNow s) := by
  unfold State.checkpointNow
  repeat' first
    | with_reducible assumption | exact notMem_of hk (by decide +kernel) | with_reducible apply State.onQm_same

theorem State.qmRestart_same {k : Part} {a s : State}
    (hk : k ∉ [.qm])
    (h : State.Same k a s) :
    State.Same k a (State.qmRestart s) := by
  unfold State.qmRestart
  try lift_lets -underBinder
  repeat' first
    | with_reducible assumption | exact notMem_of hk (by decide +kernel)
    | (intro x
       first
         | (refine same_of (a := a) (k := k) x ?_ fun _ => ?_
            unfold x
            try lift_lets -underBinder
            rotate_left
            clear_value x)
         | clear_value x
         | skip)
    | lift_lets -underBinder | with_reducible apply each_same | with_reducible apply State.unmark_same
    | with_reducible apply State.onQm_same | (split <;> try lift_lets -underBinder)

theorem State.closeAtCheckpoint_same {k : Part} {a s : State} {x1}
    (hk : k ∉ [.qm, .free])
    (h : State.Same k a s) :
    State.Same k a (State.closeAtCheckpoint s x1) := by
  unfold State.closeAtCheckpoint
  try lift_lets -underBinder
  repeat' first
    | with_reducible assumption | exact notMem_of hk (by decide +kernel)
    | (intro x
       first
         | (refine same_of (a := a) (k := k) x ?_ fun _ => ?_
            unfold x
            try lift_lets -underBinder
            rotate_left
            clear_value x)
         | clear_value x
         | skip)
    | lift_lets -underBinder | with_reducible apply State.setQc_same | with_reducible apply State.closeQStep_same
    | (split <;> try lift_lets -underBinder)

theorem State.resumeChan_same {k : Part} {a s : State} {x1 x2 x3}
    (hk : k ∉ [.qm])
    (h : State.Same k a s) :
    State.Same k a (State.resumeChan s x1 x2 x3) := by
  unfold State.resumeChan
  repeat' first
    | with_reducible assumption | exact notMem_of hk (by decide +kernel) | with_reducible apply State.setQc_same
    | split

theorem State.mclkFault_same {k : Part} {a s : State}
    (hk : k ∉ [.qm])
    (h : State.Same k a s) :
    State.Same k a (State.mclkFault s) := by
  unfold State.mclkFault
  repeat' first
    | with_reducible assumption | exact notMem_of hk (by decide +kernel) | with_reducible apply State.alert_same
    | with_reducible apply State.mark_same | with_reducible apply State.onQm_same | split

theorem State.takeBeacon_same {k : Part} {a s : State} {x1 x2 x3}
    (hk : k ∉ [.clock, .qm])
    (h : State.Same k a s) :
    State.Same k a (State.takeBeacon s x1 x2 x3) := by
  unfold State.takeBeacon
  repeat' first
    | with_reducible assumption | exact notMem_of hk (by decide +kernel) | with_reducible apply State.onQm_same
    | with_reducible apply State.alert_same | with_reducible apply State.setClock_same | split

theorem State.putMirror_same {k : Part} {a s : State} {x1 x2}
    (hr : k.isObj = false)
    (hk : k ∉ [.chans])
    (h : State.Same k a s) :
    State.Same k a (State.putMirror s x1 x2) := by
  unfold State.putMirror
  try lift_lets -underBinder
  repeat' first
    | with_reducible assumption | with_reducible exact hr | exact notMem_any hr hk (by decide +kernel)
    | (intro x
       first
         | (refine same_of (a := a) (k := k) x ?_ fun _ => ?_
            unfold x
            try lift_lets -underBinder
            rotate_left
            clear_value x)
         | clear_value x
         | skip)
    | lift_lets -underBinder | with_reducible apply State.wr_field | with_reducible apply State.wr_same
    | with_reducible apply State.compareMirror_same | with_reducible apply State.setChan_same
    | (split <;> try lift_lets -underBinder)

theorem State.takeEvent_same {k : Part} {a s : State} {x1}
    (hk : k ∉ [.reg 0x1200, .reg 0x1210, .reg 0x2402, .reg 0x2403, .reg 0x2406, .reg 0x2408, .reg 0x2444, .reg 0x3101,
    .reg 0x6000, .chans, .units, .slots, .dies, .groups, .trail, .lane, .flight])
    (h : State.Same k a s) :
    State.Same k a (State.takeEvent s x1) := by
  unfold State.takeEvent
  repeat' first
    | with_reducible assumption | exact notMem_of hk (by decide +kernel)
    | with_reducible apply State.backpressure_same | with_reducible apply State.noteAt_same | split

theorem State.countEvent_same {k : Part} {a s : State}
    (hk : k ∉ [.qm])
    (h : State.Same k a s) :
    State.Same k a (State.countEvent s) := by
  unfold State.countEvent
  repeat' first
    | with_reducible assumption | exact notMem_of hk (by decide +kernel) | with_reducible apply State.onQm_same

theorem State.auditAdd_same {k : Part} {a s : State} {x1 x2 x3 x4 x5 x6}
    (hk : k ∉ [.qm])
    (h : State.Same k a s) :
    State.Same k a (State.auditAdd s x1 x2 x3 x4 x5 x6) := by
  unfold State.auditAdd
  try lift_lets -underBinder
  repeat' first
    | with_reducible assumption | exact notMem_of hk (by decide +kernel)
    | (intro x
       first
         | (refine same_of (a := a) (k := k) x ?_ fun _ => ?_
            unfold x
            try lift_lets -underBinder
            rotate_left
            clear_value x)
         | clear_value x
         | skip)
    | lift_lets -underBinder | with_reducible apply State.onQm_same | with_reducible apply State.alert_same
    | (split <;> try lift_lets -underBinder)

theorem State.swapFw_same {k : Part} {a s : State}
    (hk : k ∉ [.qm])
    (h : State.Same k a s) :
    State.Same k a (State.swapFw s) := by
  unfold State.swapFw
  repeat' first
    | with_reducible assumption | exact notMem_of hk (by decide +kernel) | with_reducible apply State.auditAdd_same
    | with_reducible apply State.onQm_same

theorem State.activate_same {k : Part} {a s : State}
    (hk : k ∉ [.qm])
    (h : State.Same k a s) :
    State.Same k a (State.activate s) := by
  unfold State.activate
  repeat' first
    | with_reducible assumption | exact notMem_of hk (by decide +kernel) | with_reducible apply State.qmRestart_same
    | with_reducible apply State.swapFw_same | with_reducible apply State.checkpointNow_same | split

theorem State.sealAgain_same {k : Part} {a s : State} {x1 x2 x3}
    (hk : k ∉ [.qm])
    (h : State.Same k a s) :
    State.Same k a (State.sealAgain s x1 x2 x3) := by
  unfold State.sealAgain
  repeat' first
    | with_reducible assumption | exact notMem_of hk (by decide +kernel) | with_reducible apply State.alert_same
    | with_reducible apply State.unmark_same | with_reducible apply State.onQm_same
    | with_reducible apply State.auditAdd_same

theorem State.leave_same {k : Part} {a s : State} {x1 x2 x3}
    (hk : k ∉ [.qm])
    (h : State.Same k a s) :
    State.Same k a (State.leave s x1 x2 x3) := by
  unfold State.leave
  repeat' first
    | with_reducible assumption | exact notMem_of hk (by decide +kernel) | with_reducible apply State.activate_same
    | with_reducible apply State.sealAgain_same

theorem State.expire_same {k : Part} {a s : State}
    (hk : k ∉ [.qm])
    (h : State.Same k a s) :
    State.Same k a (State.expire s) := by
  unfold State.expire
  repeat' first
    | with_reducible assumption | exact notMem_of hk (by decide +kernel) | with_reducible apply State.leave_same
    | with_reducible apply State.onQm_same

theorem State.setModl_same {k : Part} {a s : State} {x1 x2 x3}
    (hk : k ∉ [.qm])
    (h : State.Same k a s) :
    State.Same k a (State.setModl s x1 x2 x3) := by
  unfold State.setModl
  repeat' first
    | with_reducible assumption | exact notMem_of hk (by decide +kernel) | with_reducible apply State.onQm_same

theorem State.writeItem_same {k : Part} {a s : State} {x1 x2}
    (hk : k ∉ [.qm])
    (h : State.Same k a s) :
    State.Same k a (State.writeItem s x1 x2) := by
  unfold State.writeItem
  repeat' first
    | with_reducible assumption | exact notMem_of hk (by decide +kernel) | with_reducible apply State.onQm_same
    | with_reducible apply State.setModl_same | split

theorem State.tokenEffect_same {k : Part} {a s : State} {x1}
    (hk : k ∉ [.qm])
    (h : State.Same k a s) :
    State.Same k a (State.tokenEffect s x1) := by
  unfold State.tokenEffect
  repeat' first
    | with_reducible assumption | exact notMem_of hk (by decide +kernel) | with_reducible apply State.onQm_same
    | with_reducible apply State.auditAdd_same | with_reducible apply State.alert_same
    | with_reducible apply State.mark_same | with_reducible apply State.leave_same
    | with_reducible apply State.countEvent_same | with_reducible apply State.writeItem_same | split

theorem State.newMetNonce_same {k : Part} {a s : State}
    (hk : k ∉ [.qm, .free])
    (h : State.Same k a s) :
    State.Same k a (State.newMetNonce s) := by
  unfold State.newMetNonce
  repeat' first
    | with_reducible assumption | exact notMem_of hk (by decide +kernel) | with_reducible apply State.onQm_same
    | with_reducible apply State.draw_same

theorem State.refuseToken_same {k : Part} {a s : State}
    (hk : k ∉ [.qm])
    (h : State.Same k a s) :
    State.Same k a (State.refuseToken s) := by
  unfold State.refuseToken
  repeat' first
    | with_reducible assumption | exact notMem_of hk (by decide +kernel) | with_reducible apply State.onQm_same

theorem State.adjustReply_same {k : Part} {a s : State} {x1}
    (hk : k ∉ [.reg 0x5441, .qm, .lastMet, .metView, .metViewAt, .tag])
    (h : State.Same k a s) :
    State.Same k a (State.adjustReply s x1) := by
  unfold State.adjustReply
  try lift_lets -underBinder
  repeat' first
    | with_reducible assumption | exact notMem_of hk (by decide +kernel)
    | (intro x
       first
         | (refine same_of (a := a) (k := k) x ?_ fun _ => ?_
            unfold x
            try lift_lets -underBinder
            rotate_left
            clear_value x)
         | clear_value x
         | skip)
    | lift_lets -underBinder | with_reducible apply State.mailReply_same | with_reducible apply State.wr_same
    | (split <;> try lift_lets -underBinder)

theorem State.takeToken_same {k : Part} {a s : State} {x1}
    (hk : k ∉ [.reg 0x5441, .qm, .lastMet, .metView, .metViewAt, .tag, .free])
    (h : State.Same k a s) :
    State.Same k a (State.takeToken s x1) := by
  unfold State.takeToken
  try lift_lets -underBinder
  repeat' first
    | with_reducible assumption | exact notMem_of hk (by decide +kernel)
    | (intro x
       first
         | (refine same_of (a := a) (k := k) x ?_ fun _ => ?_
            unfold x
            try lift_lets -underBinder
            rotate_left
            clear_value x)
         | clear_value x
         | skip)
    | lift_lets -underBinder | with_reducible apply State.adjustReply_same
    | with_reducible apply State.newMetNonce_same | with_reducible apply State.tokenEffect_same
    | with_reducible apply State.expire_same | with_reducible apply State.refuseToken_same
    | (split <;> try lift_lets -underBinder)

theorem State.tokenIn_same {k : Part} {a s : State} {x1 x2}
    (hk : k ∉ [.reg 0x5441, .qm, .lastMet, .metView, .metViewAt, .tag, .lane, .flight, .free])
    (h : State.Same k a s) :
    State.Same k a (State.tokenIn s x1 x2) := by
  unfold State.tokenIn
  repeat' first
    | with_reducible assumption | exact notMem_of hk (by decide +kernel) | with_reducible apply State.takeToken_same
    | with_reducible apply State.flushMail_same | split

theorem State.verifyFw_same {k : Part} {a s : State} {x1 x2}
    (hk : k ∉ [.qm])
    (h : State.Same k a s) :
    State.Same k a (State.verifyFw s x1 x2).1 := by
  unfold State.verifyFw
  repeat' first
    | with_reducible assumption | exact notMem_of hk (by decide +kernel) | with_reducible apply State.onQm_same
    | with_reducible apply State.auditAdd_same | with_reducible apply State.countEvent_same | split

theorem State.takeSegment_same {k : Part} {a s : State} {x1 x2}
    (hk : k ∉ [.qm])
    (h : State.Same k a s) :
    State.Same k a (State.takeSegment s x1 x2).1 := by
  unfold State.takeSegment
  try lift_lets -underBinder
  repeat' first
    | with_reducible assumption | exact notMem_of hk (by decide +kernel)
    | (intro x
       first
         | (refine same_of (a := a) (k := k) x ?_ fun _ => ?_
            unfold x
            try lift_lets -underBinder
            rotate_left
            clear_value x)
         | clear_value x
         | skip)
    | lift_lets -underBinder | with_reducible apply State.onQm_same | with_reducible apply State.verifyFw_same
    | (split <;> try lift_lets -underBinder)

theorem State.recause_same {k : Part} {a s : State}
    (hk : k ∉ [.qm])
    (h : State.Same k a s) :
    State.Same k a (State.recause s) := by
  unfold State.recause
  repeat' first
    | with_reducible assumption | exact notMem_of hk (by decide +kernel) | with_reducible apply State.onQm_same
    | split

theorem State.acceptLevel_same {k : Part} {a s : State} {x1}
    (hk : k ∉ [.qm])
    (h : State.Same k a s) :
    State.Same k a (State.acceptLevel s x1) := by
  unfold State.acceptLevel
  try lift_lets -underBinder
  repeat' first
    | with_reducible assumption | exact notMem_of hk (by decide +kernel)
    | (intro x
       first
         | (refine same_of (a := a) (k := k) x ?_ fun _ => ?_
            unfold x
            try lift_lets -underBinder
            rotate_left
            clear_value x)
         | clear_value x
         | skip)
    | lift_lets -underBinder | with_reducible apply State.onQm_same | with_reducible apply State.leave_same
    | with_reducible apply State.recause_same | (split <;> try lift_lets -underBinder)

theorem State.rotationReset_same {k : Part} {a s : State}
    (hk : k ∉ [.qm])
    (h : State.Same k a s) :
    State.Same k a (State.rotationReset s) := by
  unfold State.rotationReset
  try lift_lets -underBinder
  repeat' first
    | with_reducible assumption | exact notMem_of hk (by decide +kernel)
    | (intro x
       first
         | (refine same_of (a := a) (k := k) x ?_ fun _ => ?_
            unfold x
            try lift_lets -underBinder
            rotate_left
            clear_value x)
         | clear_value x
         | skip)
    | lift_lets -underBinder | with_reducible apply State.onQm_same | (split <;> try lift_lets -underBinder)

theorem State.calEvent_same {k : Part} {a s : State} {x1 x2 x3 x4}
    (hk : k ∉ [.qm])
    (h : State.Same k a s) :
    State.Same k a (State.calEvent s x1 x2 x3 x4) := by
  unfold State.calEvent
  repeat' first
    | with_reducible assumption | exact notMem_of hk (by decide +kernel) | with_reducible apply State.onQm_same

theorem State.abandonCycle_same {k : Part} {a s : State} {x1 x2 x3}
    (hk : k ∉ [.qm])
    (h : State.Same k a s) :
    State.Same k a (State.abandonCycle s x1 x2 x3) := by
  unfold State.abandonCycle
  try lift_lets -underBinder
  repeat' first
    | with_reducible assumption | exact notMem_of hk (by decide +kernel)
    | (intro x
       first
         | (refine same_of (a := a) (k := k) x ?_ fun _ => ?_
            unfold x
            try lift_lets -underBinder
            rotate_left
            clear_value x)
         | clear_value x
         | skip)
    | lift_lets -underBinder | with_reducible apply State.onQm_same | with_reducible apply State.calEvent_same
    | with_reducible apply State.setRot_same | (split <;> try lift_lets -underBinder)

theorem State.driftCheck_same {k : Part} {a s : State} {x1 x2 x3 x4}
    (hk : k ∉ [.qm])
    (h : State.Same k a s) :
    State.Same k a (State.driftCheck s x1 x2 x3 x4) := by
  unfold State.driftCheck
  try lift_lets -underBinder
  repeat' first
    | with_reducible assumption | exact notMem_of hk (by decide +kernel)
    | (intro x
       first
         | (refine same_of (a := a) (k := k) x ?_ fun _ => ?_
            unfold x
            try lift_lets -underBinder
            rotate_left
            clear_value x)
         | clear_value x
         | skip)
    | lift_lets -underBinder | with_reducible apply State.calEvent_same | with_reducible apply State.onQm_same
    | with_reducible apply State.setModl_same | (split <;> try lift_lets -underBinder)

theorem State.commitCycle_same {k : Part} {a s : State} {x1 x2 x3}
    (hk : k ∉ [.qm])
    (h : State.Same k a s) :
    State.Same k a (State.commitCycle s x1 x2 x3) := by
  unfold State.commitCycle
  try lift_lets -underBinder
  repeat' first
    | with_reducible assumption | exact notMem_of hk (by decide +kernel)
    | (intro x
       first
         | (refine same_of (a := a) (k := k) x ?_ fun _ => ?_
            unfold x
            try lift_lets -underBinder
            rotate_left
            clear_value x)
         | clear_value x
         | skip)
    | lift_lets -underBinder | with_reducible apply each_same | with_reducible apply State.setQc_same
    | with_reducible apply State.driftCheck_same | with_reducible apply State.onQm_same
    | with_reducible apply State.setRot_same | (split <;> try lift_lets -underBinder)

theorem State.becomeSpare_same {k : Part} {a s : State} {x1 x2 x3}
    (hk : k ∉ [.qm])
    (h : State.Same k a s) :
    State.Same k a (State.becomeSpare s x1 x2 x3) := by
  unfold State.becomeSpare
  repeat' first
    | with_reducible assumption | exact notMem_of hk (by decide +kernel) | with_reducible apply State.setRot_same

theorem State.fitInput_same {k : Part} {a s : State} {x1 x2 x3 x4 x5 x6}
    (hk : k ∉ [.qm])
    (h : State.Same k a s) :
    State.Same k a (State.fitInput s x1 x2 x3 x4 x5 x6) := by
  unfold State.fitInput
  try lift_lets -underBinder
  repeat' first
    | with_reducible assumption | exact notMem_of hk (by decide +kernel)
    | (intro x
       first
         | (refine same_of (a := a) (k := k) x ?_ fun _ => ?_
            unfold x
            try lift_lets -underBinder
            rotate_left
            clear_value x)
         | clear_value x
         | skip)
    | lift_lets -underBinder | with_reducible apply State.setRot_same | (split <;> try lift_lets -underBinder)

theorem State.takeSample_same {k : Part} {a s : State} {x1 x2 x3 x4 x5}
    (hk : k ∉ [.qm])
    (h : State.Same k a s) :
    State.Same k a (State.takeSample s x1 x2 x3 x4 x5) := by
  unfold State.takeSample
  repeat' first
    | with_reducible assumption | exact notMem_of hk (by decide +kernel) | with_reducible apply State.setQc_same

theorem State.startDiag_same {k : Part} {a s : State} {x1 x2 x3}
    (hr : k.isObj = false)
    (hk : k ∉ [.adcs])
    (h : State.Same k a s) :
    State.Same k a (State.startDiag s x1 x2 x3) := by
  unfold State.startDiag
  repeat' first
    | with_reducible assumption | with_reducible exact hr | exact notMem_any hr hk (by decide +kernel)
    | with_reducible apply State.setAdc_same | with_reducible apply State.inc_field
    | with_reducible apply State.inc_same

theorem State.waitDiag_same {k : Part} {a s : State} {x1 x2}
    (hk : k ∉ [.reg 0x2853, .reg 0x34F0, .adcs])
    (h : State.Same k a s) :
    State.Same k a (State.waitDiag s x1 x2) := by
  unfold State.waitDiag
  try lift_lets -underBinder
  repeat' first
    | with_reducible assumption | exact notMem_of hk (by decide +kernel)
    | (intro x
       first
         | (refine same_of (a := a) (k := k) x ?_ fun _ => ?_
            unfold x
            try lift_lets -underBinder
            rotate_left
            clear_value x)
         | clear_value x
         | skip)
    | lift_lets -underBinder | with_reducible apply State.setAdc_same | with_reducible apply State.inc_same
    | (split <;> try lift_lets -underBinder)

theorem State.failUnit_same {k : Part} {a s : State} {x1 x2 x3}
    (hr : k.isObj = false)
    (hk : k ∉ [.chans, .units, .slots, .engines, .dies, .bldc, .axes, .power, .trail, .lane, .flight])
    (h : State.Same k a s) :
    State.Same k a (State.failUnit s x1 x2 x3) := by
  unfold State.failUnit
  try lift_lets -underBinder
  repeat' first
    | with_reducible assumption | with_reducible exact hr | exact notMem_any hr hk (by decide +kernel)
    | (intro x
       first
         | (refine same_of (a := a) (k := k) x ?_ fun _ => ?_
            unfold x
            try lift_lets -underBinder
            rotate_left
            clear_value x)
         | clear_value x
         | skip)
    | lift_lets -underBinder | with_reducible apply State.inc_field | with_reducible apply State.inc_same
    | with_reducible apply State.wr_field | with_reducible apply State.wr_same
    | with_reducible apply State.latchChans_same | with_reducible apply State.stopWith_same
    | with_reducible apply each_same | with_reducible apply State.latchAxis_same
    | with_reducible apply State.latchDrive_same | (split <;> try lift_lets -underBinder)

theorem diagnoseNowSet_same {k : Part} {a s : State} {x1 x2}
    (hr : k.isObj = false)
    (hk : k ∉ [.adcs])
    (h : State.Same k a s) :
    State.Same k a (diagnoseNowSet x1 s x2) := by
  unfold diagnoseNowSet
  try lift_lets -underBinder
  repeat' first
    | with_reducible assumption | with_reducible exact hr | exact notMem_any hr hk (by decide +kernel)
    | (intro x
       first
         | (refine same_of (a := a) (k := k) x ?_ fun _ => ?_
            unfold x
            try lift_lets -underBinder
            rotate_left
            clear_value x)
         | clear_value x
         | skip)
    | lift_lets -underBinder | with_reducible apply each_same | with_reducible apply State.startDiag_same
    | (split <;> try lift_lets -underBinder)

theorem calibrationSet_same {k : Part} {a s : State} {x1 x2 x3 x4}
    (hr : k.isObj = false)
    (hk : k ∉ [.flash, .dies, .trail])
    (h : State.Same k a s) :
    State.Same k a (calibrationSet x1 x2 x3 s x4) := by
  unfold calibrationSet
  repeat' first
    | with_reducible assumption | with_reducible exact hr | exact notMem_any hr hk (by decide +kernel)
    | with_reducible apply State.wr_field | with_reducible apply State.wr_same
    | with_reducible apply State.noteAt_same | with_reducible apply same_flash

theorem State.hubView_same {k : Part} {a s : State}
    (hk : k ∉ [.clock, .qm])
    (h : State.Same k a s) :
    State.Same k a (State.hubView s) := by
  unfold State.hubView
  repeat' first
    | with_reducible assumption | exact notMem_of hk (by decide +kernel) | with_reducible apply same_view

theorem State.metBack_same {k : Part} {a s : State}
    (hk : k ∉ [.reg 0x1202, .reg 0x6000, .dies, .trail, .metSilent, .lane, .flight])
    (h : State.Same k a s) :
    State.Same k a (State.metBack s) := by
  unfold State.metBack
  repeat' first
    | with_reducible assumption | exact notMem_of hk (by decide +kernel) | with_reducible apply State.mail_same
    | with_reducible apply State.wr_same | with_reducible apply State.note_same | split
    | with_reducible apply same_metSilent

theorem State.metAbsent_same {k : Part} {a s : State}
    (hk : k ∉ [.reg 0x6000, .dies, .trail, .metNote])
    (h : State.Same k a s) :
    State.Same k a (State.metAbsent s) := by
  unfold State.metAbsent
  repeat' first
    | with_reducible assumption | exact notMem_of hk (by decide +kernel) | with_reducible apply State.note_same
    | split | with_reducible apply same_metNote

theorem State.portReply_same {k : Part} {a s : State} {x1 x2 x3}
    (hk : k ∉ [.qm])
    (h : State.Same k a s) :
    State.Same k a (State.portReply s x1 x2 x3) := by
  unfold State.portReply
  repeat' first
    | with_reducible assumption | exact notMem_of hk (by decide +kernel) | with_reducible apply State.onQm_same

theorem State.portItem_same {k : Part} {a s : State} {x1 x2}
    (hk : k ∉ [.qm])
    (h : State.Same k a s) :
    State.Same k a (State.portItem s x1 x2) := by
  unfold State.portItem
  repeat' first
    | with_reducible assumption | exact notMem_of hk (by decide +kernel) | with_reducible apply State.portReply_same
    | split

end Sys2Proof.Machine
end

