-- ==== Sys2Proof/Laws/FramePorts.lean ====
section
/-! SUPPORT. Which parts of the state the operations of CAN FD, latches, supplies, the password and security can change: one lemma for each. -/

namespace Sys2Proof.Machine

set_option Elab.async false

set_option linter.unreachableTactic false
set_option linter.unusedTactic false

theorem State.ringPut_same {k : Part} {a s : State} {x1 x2}
    (hk : k ∉ [.reg 0x1418, .reg 0x141B, .can])
    (h : State.Same k a s) :
    State.Same k a (State.ringPut s x1 x2) := by
  unfold State.ringPut
  try lift_lets -underBinder
  repeat' first
    | with_reducible assumption | exact notMem_of hk (by decide +kernel)
    | (intro x
       first
         | (refine same_of (a := a) (k := k) x ?_ fun _ => ?_
            unfold x
            try lift_lets -underBinder
            rotate_left
            clear_value x)
         | clear_value x
         | skip)
    | lift_lets -underBinder | with_reducible apply State.inc_same | with_reducible apply State.setPort_same
    | (split <;> try lift_lets -underBinder)

theorem State.removed_same {k : Part} {a s : State} {x1 x2 x3}
    (hk : k ∉ [.reg 0x1418, .reg 0x141B, .can])
    (h : State.Same k a s) :
    State.Same k a (State.removed s x1 x2 x3) := by
  unfold State.removed
  repeat' first
    | with_reducible assumption | exact notMem_of hk (by decide +kernel) | with_reducible apply State.ringPut_same

theorem State.removeTx_same {k : Part} {a s : State} {x1 f g}
    (hk : k ∉ [.reg 0x1418, .reg 0x141B, .can])
    (h : State.Same k a s) : State.Same k a (s.removeTx x1 f g) :=
  each_same (State.setPort_same (notMem_of hk (by decide +kernel)) h) fun _ _ hy =>
    State.removed_same (notMem_of hk (by decide +kernel)) hy

theorem State.errorEvent_same {k : Part} {a s : State} {x1 x2 x3}
    (hk : k ∉ [.reg 0x1418, .reg 0x141B, .can])
    (h : State.Same k a s) :
    State.Same k a (State.errorEvent s x1 x2 x3) := by
  unfold State.errorEvent
  repeat' first
    | with_reducible assumption | exact notMem_of hk (by decide +kernel) | with_reducible apply State.ringPut_same

theorem State.busOff_same {k : Part} {a s : State} {x1 x2}
    (hk : k ∉ [.reg 0x1413, .reg 0x1416, .reg 0x1417, .reg 0x1418, .reg 0x141B, .can])
    (h : State.Same k a s) :
    State.Same k a (State.busOff s x1 x2) := by
  unfold State.busOff
  try lift_lets -underBinder
  repeat' first
    | with_reducible assumption | exact notMem_of hk (by decide +kernel)
    | (intro x
       first
         | (refine same_of (a := a) (k := k) x ?_ fun _ => ?_
            unfold x
            try lift_lets -underBinder
            rotate_left
            clear_value x)
         | clear_value x
         | skip)
    | lift_lets -underBinder | with_reducible apply State.errorEvent_same | with_reducible apply State.inc_same
    | with_reducible apply State.wr_same | with_reducible apply State.removeTx_same
    | (split <;> try lift_lets -underBinder)

theorem State.setCounters_same {k : Part} {a s : State} {x1 x2 x3 x4}
    (hk : k ∉ [.reg 0x1413, .reg 0x1414, .reg 0x1415, .reg 0x1416, .reg 0x1417, .reg 0x1418, .reg 0x141B, .can])
    (h : State.Same k a s) :
    State.Same k a (State.setCounters s x1 x2 x3 x4) := by
  unfold State.setCounters
  try lift_lets -underBinder
  repeat' first
    | with_reducible assumption | exact notMem_of hk (by decide +kernel)
    | (intro x
       first
         | (refine same_of (a := a) (k := k) x ?_ fun _ => ?_
            unfold x
            try lift_lets -underBinder
            rotate_left
            clear_value x)
         | clear_value x
         | skip)
    | lift_lets -underBinder | with_reducible apply State.wr_same | with_reducible apply State.busOff_same
    | with_reducible apply State.errorEvent_same | (split <;> try lift_lets -underBinder)

theorem State.applyMode_same {k : Part} {a s : State} {x1 x2}
    (hk : k ∉ [.reg 0x1413, .reg 0x1414, .reg 0x1415, .reg 0x1418, .reg 0x141B, .can])
    (h : State.Same k a s) :
    State.Same k a (State.applyMode s x1 x2) := by
  unfold State.applyMode
  try lift_lets -underBinder
  repeat' first
    | with_reducible assumption | exact notMem_of hk (by decide +kernel)
    | (intro x
       first
         | (refine same_of (a := a) (k := k) x ?_ fun _ => ?_
            unfold x
            try lift_lets -underBinder
            rotate_left
            clear_value x)
         | clear_value x
         | skip)
    | lift_lets -underBinder | with_reducible apply State.setPort_same | with_reducible apply State.removeTx_same
    | with_reducible apply State.errorEvent_same | with_reducible apply State.wr_same
    | (split <;> try lift_lets -underBinder)

theorem State.frameEnd_same {k : Part} {a s : State} {x1}
    (hk : k ∉ [.reg 0x1413, .reg 0x1414, .reg 0x1415, .reg 0x1418, .reg 0x141B, .can])
    (h : State.Same k a s) :
    State.Same k a (State.frameEnd s x1) := by
  unfold State.frameEnd
  repeat' first
    | with_reducible assumption | exact notMem_of hk (by decide +kernel) | with_reducible apply State.applyMode_same
    | split

theorem canModeSet_same {k : Part} {a s : State} {x1 x2 x3 x4}
    (hk : k ∉ [.reg 0x1400, .reg 0x1413, .reg 0x1414, .reg 0x1415, .reg 0x1418, .reg 0x141B, .can])
    (h : State.Same k a s) :
    State.Same k a (canModeSet x1 x2 x3 s x4) := by
  unfold canModeSet
  repeat' first
    | with_reducible assumption | exact notMem_of hk (by decide +kernel) | with_reducible apply State.wr_same
    | with_reducible apply State.setPort_same | with_reducible apply State.applyMode_same | split

theorem submitSet_same {k : Part} {a s : State} {x1 x2 x3}
    (hk : k ∉ [.can])
    (h : State.Same k a s) :
    State.Same k a (submitSet x1 x2 s x3) := by
  unfold submitSet
  repeat' first
    | with_reducible assumption | exact notMem_of hk (by decide +kernel) | with_reducible apply State.setPort_same

theorem State.cancelTx_same {k : Part} {a s : State} {x1 f n b}
    (hk : k ∉ [.reg 0x1418, .reg 0x141B, .can])
    (h : State.Same k a s) : State.Same k a (s.cancelTx x1 f n b) :=
  State.removeTx_same (notMem_of hk (by decide +kernel)) (State.setPort_same (notMem_of hk (by decide +kernel)) h)

theorem cancelSet_same {k : Part} {a s : State} {x1 x2 x3 x4}
    (hk : k ∉ [.reg 0x1418, .reg 0x141B, .can])
    (h : State.Same k a s) :
    State.Same k a (cancelSet x1 x2 x3 s x4) := by
  unfold cancelSet
  repeat' first
    | with_reducible assumption | exact notMem_of hk (by decide +kernel) | with_reducible apply State.cancelTx_same

theorem State.headFails_same {k : Part} {a s : State} {x1 x2}
    (hk : k ∉ [.reg 0x1418, .reg 0x141B, .can])
    (h : State.Same k a s) :
    State.Same k a (State.headFails s x1 x2) := by
  unfold State.headFails
  repeat' first
    | with_reducible assumption | exact notMem_of hk (by decide +kernel) | with_reducible apply State.removed_same
    | with_reducible apply State.setPort_same | split

theorem restartSet_same {k : Part} {a s : State} {x1 x2}
    (hk : k ∉ [.reg 0x1413, .reg 0x1417])
    (h : State.Same k a s) :
    State.Same k a (restartSet x1 s x2) := by
  unfold restartSet
  repeat' first
    | with_reducible assumption | exact notMem_of hk (by decide +kernel) | with_reducible apply State.wr_same

theorem consumerSet_same {k : Part} {a s : State} {x1 x2 x3}
    (hk : k ∉ [.reg 0x1419])
    (h : State.Same k a s) :
    State.Same k a (consumerSet x1 x2 s x3) := by
  unfold consumerSet
  repeat' first
    | with_reducible assumption | exact notMem_of hk (by decide +kernel) | with_reducible apply State.wr_same

theorem State.clearNote_same {k : Part} {a s : State} {x1 x2 x3 x4 x5}
    (hk : k ∉ [.reg 0x6000, .dies, .trail, .free])
    (h : State.Same k a s) :
    State.Same k a (State.clearNote s x1 x2 x3 x4 x5) := by
  unfold State.clearNote
  repeat' first
    | with_reducible assumption | exact notMem_of hk (by decide +kernel) | with_reducible apply State.raise_same
    | with_reducible apply State.draw_same

theorem State.clearChan_same {k : Part} {a s : State} {x1 x2}
    (hk : k ∉ [.reg 0x2803, .reg 0x2810, .reg 0x6000, .reg 0x6010, .dies, .trail, .free])
    (h : State.Same k a s) :
    State.Same k a (State.clearChan s x1 x2) := by
  unfold State.clearChan
  try lift_lets -underBinder
  repeat' first
    | with_reducible assumption | exact notMem_of hk (by decide +kernel)
    | (intro x
       first
         | (refine same_of (a := a) (k := k) x ?_ fun _ => ?_
            unfold x
            try lift_lets -underBinder
            rotate_left
            clear_value x)
         | clear_value x
         | skip)
    | lift_lets -underBinder | with_reducible apply State.wr_same | with_reducible apply State.clearNote_same
    | with_reducible apply State.deassertSource_same | (split <;> try lift_lets -underBinder)

theorem clearSet_same {k : Part} {a s : State} {x1 x2}
    (hk : k ∉ [.reg 0x1200, .reg 0x1210, .reg 0x2803, .reg 0x2810, .reg 0x3101, .reg 0x3104, .reg 0x6000, .reg 0x6010,
    .units, .dies, .trail, .free])
    (h : State.Same k a s) :
    State.Same k a (clearSet x1 s x2) := by
  unfold clearSet
  try lift_lets -underBinder
  repeat' first
    | with_reducible assumption | exact notMem_of hk (by decide +kernel)
    | (intro x
       first
         | (refine same_of (a := a) (k := k) x ?_ fun _ => ?_
            unfold x
            try lift_lets -underBinder
            rotate_left
            clear_value x)
         | clear_value x
         | skip)
    | lift_lets -underBinder | with_reducible apply State.clockMark_same | with_reducible apply each_same
    | with_reducible apply State.clearChan_same | with_reducible apply State.wakeDie_same
    | (split <;> try lift_lets -underBinder)

theorem State.clearStage_same {k : Part} {a s : State} {x1 x2 x3}
    (hk : k ∉ [.reg 0x2803, .reg 0x3101, .reg 0x3104, .reg 0x6000, .reg 0x6012, .dies, .trail, .free])
    (h : State.Same k a s) :
    State.Same k a (State.clearStage s x1 x2 x3) := by
  unfold State.clearStage
  try lift_lets -underBinder
  repeat' first
    | with_reducible assumption | exact notMem_of hk (by decide +kernel)
    | (intro x
       first
         | (refine same_of (a := a) (k := k) x ?_ fun _ => ?_
            unfold x
            try lift_lets -underBinder
            rotate_left
            clear_value x)
         | clear_value x
         | skip)
    | lift_lets -underBinder | with_reducible apply State.clearNote_same | with_reducible apply State.clearDab_same
    | with_reducible apply State.deassertSource_same | (split <;> try lift_lets -underBinder)

theorem State.clearSegment_same {k : Part} {a s : State} {x1 x2}
    (hk : k ∉ [.reg 0x2801, .reg 0x3104, .reg 0x6000, .reg 0x6012, .dies, .trail, .free])
    (h : State.Same k a s) :
    State.Same k a (State.clearSegment s x1 x2) := by
  unfold State.clearSegment
  repeat' first
    | with_reducible assumption | exact notMem_of hk (by decide +kernel) | with_reducible apply State.clearNote_same
    | with_reducible apply State.wr_same | with_reducible apply State.showMarks_same
    | with_reducible apply State.setDie_same | split

theorem dieClearSet_same {k : Part} {a s : State} {x1 x2}
    (hk : k ∉ [.reg 0x1200, .reg 0x1210, .reg 0x2801, .reg 0x2803, .reg 0x2810, .reg 0x3101, .reg 0x3104, .reg 0x6000,
    .reg 0x6010, .reg 0x6012, .units, .dies, .trail, .free])
    (h : State.Same k a s) :
    State.Same k a (dieClearSet x1 s x2) := by
  unfold dieClearSet
  try lift_lets -underBinder
  repeat' first
    | with_reducible assumption | exact notMem_of hk (by decide +kernel)
    | (intro x
       first
         | (refine same_of (a := a) (k := k) x ?_ fun _ => ?_
            unfold x
            try lift_lets -underBinder
            rotate_left
            clear_value x)
         | clear_value x
         | skip)
    | lift_lets -underBinder | with_reducible apply State.clearSegment_same | with_reducible apply State.wakeDie_same
    | with_reducible apply each_same | with_reducible apply State.clearStage_same
    | with_reducible apply State.clockMark_same | with_reducible apply State.clearChan_same
    | (split <;> try lift_lets -underBinder)

theorem State.clearGroup_same {k : Part} {a s : State} {x1 x2}
    (hk : k ∉ [.reg 0x6000, .reg 0x6014, .units, .dies, .trail, .free])
    (h : State.Same k a s) :
    State.Same k a (State.clearGroup s x1 x2) := by
  unfold State.clearGroup
  try lift_lets -underBinder
  repeat' first
    | with_reducible assumption | exact notMem_of hk (by decide +kernel)
    | (intro x
       first
         | (refine same_of (a := a) (k := k) x ?_ fun _ => ?_
            unfold x
            try lift_lets -underBinder
            rotate_left
            clear_value x)
         | clear_value x
         | skip)
    | lift_lets -underBinder | with_reducible apply State.wr_same | with_reducible apply each_same
    | with_reducible apply State.setUnit_same | with_reducible apply State.clearNote_same
    | (split <;> try lift_lets -underBinder)

theorem fltClearSet_same {k : Part} {a s : State} {x1 x2 x3}
    (hk : k ∉ [.reg 0x6000, .reg 0x6014, .units, .dies, .trail, .free])
    (h : State.Same k a s) :
    State.Same k a (fltClearSet x1 x2 s x3) := by
  unfold fltClearSet
  try lift_lets -underBinder
  repeat' first
    | with_reducible assumption | exact notMem_of hk (by decide +kernel)
    | (intro x
       first
         | (refine same_of (a := a) (k := k) x ?_ fun _ => ?_
            unfold x
            try lift_lets -underBinder
            rotate_left
            clear_value x)
         | clear_value x
         | skip)
    | lift_lets -underBinder | with_reducible apply each_same | with_reducible apply State.clearGroup_same
    | (split <;> try lift_lets -underBinder)

theorem bldcClearSet_same {k : Part} {a s : State} {x1 x2 x3}
    (hk : k ∉ [.reg 0x3400, .reg 0x341A, .reg 0x3420, .reg 0x6000, .dies, .bldc, .trail, .free])
    (h : State.Same k a s) :
    State.Same k a (bldcClearSet x1 x2 s x3) := by
  unfold bldcClearSet
  repeat' first
    | with_reducible assumption | exact notMem_of hk (by decide +kernel) | with_reducible apply State.clearNote_same
    | with_reducible apply State.wr_same | with_reducible apply State.enterDrive_same | split

theorem axisClearSet_same {k : Part} {a s : State} {x1 x2 x3}
    (hk : k ∉ [.reg 0x3441, .reg 0x344F, .reg 0x3450, .reg 0x3457, .reg 0x6000, .dies, .axes, .trail, .free])
    (h : State.Same k a s) :
    State.Same k a (axisClearSet x1 x2 s x3) := by
  unfold axisClearSet
  repeat' first
    | with_reducible assumption | exact notMem_of hk (by decide +kernel) | with_reducible apply State.axisBit_same
    | with_reducible apply State.targetHere_same | with_reducible apply State.wr_same
    | with_reducible apply State.setAxis_same | with_reducible apply State.clearNote_same | split

theorem State.bankNote_same {k : Part} {a s : State} {x1 x2}
    (hk : k ∉ [.reg 0x1220, .reg 0x6000, .dies, .trail])
    (h : State.Same k a s) :
    State.Same k a (State.bankNote s x1 x2) := by
  unfold State.bankNote
  repeat' first
    | with_reducible assumption | exact notMem_of hk (by decide +kernel) | with_reducible apply State.supplyNote_same
    | split

theorem State.markBank_same {k : Part} {a s : State} {x1 x2}
    (hk : k ∉ [.reg 0x1220, .qm, .banks])
    (h : State.Same k a s) :
    State.Same k a (State.markBank s x1 x2) := by
  unfold State.markBank
  repeat' first
    | with_reducible assumption | exact notMem_of hk (by decide +kernel) | with_reducible apply State.onQm_same
    | with_reducible apply State.wr_same | split | with_reducible apply same_banks

theorem State.siteSupply_same {k : Part} {a s : State} {x1}
    (hk : k ∉ [.reg 0x2402, .reg 0x2444, .reg 0x3101, .reg 0x6000, .reg 0x6010, .reg 0x6012, .chans, .units, .slots,
    .engines, .dies, .trail, .lane, .flight])
    (h : State.Same k a s) :
    State.Same k a (State.siteSupply s x1) := by
  unfold State.siteSupply
  try lift_lets -underBinder
  repeat' first
    | with_reducible assumption | exact notMem_of hk (by decide +kernel)
    | (intro x
       first
         | (refine same_of (a := a) (k := k) x ?_ fun _ => ?_
            unfold x
            try lift_lets -underBinder
            rotate_left
            clear_value x)
         | clear_value x
         | skip)
    | lift_lets -underBinder | with_reducible apply each_same | with_reducible apply State.latchOne_same
    | with_reducible apply State.openCorr_same | with_reducible apply State.latchDab_same
    | with_reducible apply State.raiseFrame_same | (split <;> try lift_lets -underBinder)

theorem State.networkSupply_same {k : Part} {a s : State}
    (hk : k ∉ [.reg 0x1010, .net])
    (h : State.Same k a s) :
    State.Same k a (State.networkSupply s) := by
  unfold State.networkSupply
  repeat' first
    | with_reducible assumption | exact notMem_of hk (by decide +kernel) | with_reducible apply State.wr_same | split
    | with_reducible apply same_net

theorem State.bankLost_same {k : Part} {a s : State} {x1}
    (hk : k ∉ [.reg 0x1010, .reg 0x2402, .reg 0x2444, .reg 0x3040, .reg 0x3050, .reg 0x3070, .reg 0x3101, .reg 0x341A,
    .reg 0x3420, .reg 0x344E, .reg 0x344F, .reg 0x3450, .reg 0x3457, .reg 0x6000, .reg 0x6010, .reg 0x6012, .chans,
    .units, .slots, .engines, .dies, .bldc, .axes, .power, .qm, .net, .trail, .lane, .flight])
    (h : State.Same k a s) :
    State.Same k a (State.bankLost s x1) := by
  unfold State.bankLost
  repeat' first
    | with_reducible assumption | exact notMem_of hk (by decide +kernel)
    | with_reducible apply State.controlledStop_same | with_reducible apply State.latchHubOutputs_same
    | with_reducible apply State.networkSupply_same | with_reducible apply State.mclkFault_same
    | with_reducible apply State.siteSupply_same | split

theorem State.readBank_same {k : Part} {a s : State} {x1 x2}
    (hk : k ∉ [.reg 0x1220, .qm, .banks])
    (h : State.Same k a s) :
    State.Same k a (State.readBank s x1 x2) := by
  unfold State.readBank
  repeat' first
    | with_reducible assumption | exact notMem_of hk (by decide +kernel) | with_reducible apply State.onQm_same
    | with_reducible apply State.wr_same | split | with_reducible apply same_banks

theorem State.hotJob_same {k : Part} {a s : State}
    (hk : k ∉ [.reg 0x3050, .reg 0x6000, .dies, .power, .trail, .hot])
    (h : State.Same k a s) :
    State.Same k a (State.hotJob s) := by
  unfold State.hotJob
  extract_lets since late
  split
  · exact State.controlledStop_same (notMem_of hk (by decide +kernel))
      (same_hot (notMem_of hk (by decide +kernel)) (same_hot (notMem_of hk (by decide +kernel)) h))
  · exact same_hot (notMem_of hk (by decide +kernel)) h

theorem State.setLockbox_same {k : Part} {a s : State} {x1}
    (hk : k ∉ [.lockbox])
    (h : State.Same k a s) :
    State.Same k a (State.setLockbox s x1) := by
  unfold State.setLockbox
  repeat' first
    | with_reducible assumption | exact notMem_of hk (by decide +kernel) | with_reducible apply same_lockbox

theorem State.logEntry_same {k : Part} {a s : State} {x1 x2 x3 x4 x5}
    (hk : k ∉ [.lockbox, .free])
    (h : State.Same k a s) :
    State.Same k a (State.logEntry s x1 x2 x3 x4 x5) := by
  unfold State.logEntry
  repeat' first
    | with_reducible assumption | exact notMem_of hk (by decide +kernel) | with_reducible apply State.setLockbox_same
    | with_reducible apply State.draw_same

theorem State.logEvent_same {k : Part} {a s : State} {x1 x2}
    (hk : k ∉ [.lockbox, .free])
    (h : State.Same k a s) :
    State.Same k a (State.logEvent s x1 x2) := by
  unfold State.logEvent
  repeat' first
    | with_reducible assumption | exact notMem_of hk (by decide +kernel) | with_reducible apply State.logEntry_same

theorem State.endUnlock_same {k : Part} {a s : State}
    (hk : k ∉ [.lockbox, .net])
    (h : State.Same k a s) :
    State.Same k a (State.endUnlock s) := by
  unfold State.endUnlock
  repeat' first
    | with_reducible assumption | exact notMem_of hk (by decide +kernel) | with_reducible apply State.setLockbox_same
    | with_reducible apply same_net

theorem State.endLockout_same {k : Part} {a s : State}
    (hk : k ∉ [.reg 0x40F0, .lockbox])
    (h : State.Same k a s) :
    State.Same k a (State.endLockout s) := by
  unfold State.endLockout
  repeat' first
    | with_reducible assumption | exact notMem_of hk (by decide +kernel) | with_reducible apply State.wr_same
    | with_reducible apply State.setLockbox_same | split

theorem State.wrongPassword_same {k : Part} {a s : State} {x1}
    (hk : k ∉ [.reg 0x40F0, .lockbox, .free])
    (h : State.Same k a s) :
    State.Same k a (State.wrongPassword s x1) := by
  unfold State.wrongPassword
  try lift_lets -underBinder
  repeat' first
    | with_reducible assumption | exact notMem_of hk (by decide +kernel)
    | (intro x
       first
         | (refine same_of (a := a) (k := k) x ?_ fun _ => ?_
            unfold x
            try lift_lets -underBinder
            rotate_left
            clear_value x)
         | clear_value x
         | skip)
    | lift_lets -underBinder | with_reducible apply State.endLockout_same | with_reducible apply State.logEvent_same
    | with_reducible apply State.wr_same | with_reducible apply State.setLockbox_same
    | (split <;> try lift_lets -underBinder)

theorem unlockSet_same {k : Part} {a s : State} {x1 x2}
    (hk : k ∉ [.reg 0x40F0, .lockbox, .net])
    (h : State.Same k a s) :
    State.Same k a (unlockSet x1 s x2) := by
  unfold unlockSet
  repeat' first
    | with_reducible assumption | exact notMem_of hk (by decide +kernel) | with_reducible apply State.wr_same
    | with_reducible apply State.endLockout_same | with_reducible apply State.endUnlock_same | split
    | with_reducible apply same_net

theorem State.countWrong_same {k : Part} {a s : State} {x1 x2}
    (hk : k ∉ [.reg 0x40F0, .lockbox, .free])
    (h : State.Same k a s) :
    State.Same k a (State.countWrong s x1 x2) := by
  unfold State.countWrong
  repeat' first
    | with_reducible assumption | exact notMem_of hk (by decide +kernel)
    | with_reducible apply State.wrongPassword_same | split

theorem passwordSet_same {k : Part} {a s : State} {x1 x2 x3}
    (hk : k ∉ [.reg 0x40F0, .lockbox, .free])
    (h : State.Same k a s) :
    State.Same k a (passwordSet x1 x2 s x3) := by
  unfold passwordSet
  repeat' first
    | with_reducible assumption | exact notMem_of hk (by decide +kernel) | with_reducible apply State.wr_same
    | with_reducible apply State.endLockout_same | with_reducible apply State.draw_same
    | with_reducible apply State.logEvent_same | with_reducible apply State.setLockbox_same

theorem rwpSet_same {k : Part} {a s : State} {x1 x2 x3 x4}
    (hk : k ∉ [.lockbox, .net])
    (h : State.Same k a s) :
    State.Same k a (rwpSet x1 x2 x3 s x4) := by
  unfold rwpSet
  repeat' first
    | with_reducible assumption | exact notMem_of hk (by decide +kernel) | with_reducible apply State.setLockbox_same
    | with_reducible apply same_net

theorem State.reconfigure_same {k : Part} {a s : State}
    (hk : k ∉ [.reg 0x3400, .reg 0x341A, .reg 0x3441, .reg 0x344E, .reg 0x344F, .reg 0x3450, .reg 0x4000, .reg 0x4021,
    .reg 0x4033, .units, .bldc, .axes, .sup])
    (h : State.Same k a s) :
    State.Same k a (State.reconfigure s) := by
  unfold State.reconfigure
  try lift_lets -underBinder
  repeat' first
    | with_reducible assumption | exact notMem_of hk (by decide +kernel)
    | (intro x
       first
         | (refine same_of (a := a) (k := k) x ?_ fun _ => ?_
            unfold x
            try lift_lets -underBinder
            rotate_left
            clear_value x)
         | clear_value x
         | skip)
    | lift_lets -underBinder | with_reducible apply each_same | with_reducible apply State.wr_same
    | with_reducible apply State.openKdrv_same | with_reducible apply State.showActive_same
    | with_reducible apply State.freeOut_same | with_reducible apply State.stoOut_same
    | (split <;> try lift_lets -underBinder)

theorem applySet_same {k : Part} {a s : State} {x1 x2}
    (hr : k.isObj = false)
    (hk : k ∉ [.units, .bldc, .axes, .sup, .lockbox, .net, .free])
    (h : State.Same k a s) :
    State.Same k a (applySet x1 s x2) := by
  unfold applySet
  try lift_lets -underBinder
  repeat' first
    | with_reducible assumption | with_reducible exact hr | exact notMem_any hr hk (by decide +kernel)
    | (intro x
       first
         | (refine same_of (a := a) (k := k) x ?_ fun _ => ?_
            unfold x
            try lift_lets -underBinder
            rotate_left
            clear_value x)
         | clear_value x
         | skip)
    | lift_lets -underBinder | with_reducible apply each_same | with_reducible apply State.wr_field
    | with_reducible apply State.wr_same | with_reducible apply State.setLockbox_same
    | with_reducible apply State.logEntry_same | with_reducible apply State.reconfigure_same
    | with_reducible apply State.clearHold_same | with_reducible apply State.setHold_same
    | with_reducible apply State.logEvent_same | (split <;> try lift_lets -underBinder)
    | with_reducible apply same_net

theorem rootWriteSet_same {k : Part} {a s : State} {x1 x2 x3}
    (hk : k ∉ [.blob 0x7020])
    (h : State.Same k a s) :
    State.Same k a (rootWriteSet x1 x2 s x3) := by
  unfold rootWriteSet
  repeat' first
    | with_reducible assumption | exact notMem_of hk (by decide +kernel) | with_reducible apply State.wrB_same

theorem revokeSet_same {k : Part} {a s : State} {x1 x2}
    (hk : k ∉ [.reg 0x7021])
    (h : State.Same k a s) :
    State.Same k a (revokeSet x1 s x2) := by
  unfold revokeSet
  repeat' first
    | with_reducible assumption | exact notMem_of hk (by decide +kernel) | with_reducible apply State.wr_same

theorem rollbackSet_same {k : Part} {a s : State} {x1 x2}
    (hk : k ∉ [.reg 0x7030, .reg 0x7035, .sec])
    (h : State.Same k a s) :
    State.Same k a (rollbackSet x1 s x2) := by
  unfold rollbackSet
  try lift_lets -underBinder
  repeat' first
    | with_reducible assumption | exact notMem_of hk (by decide +kernel)
    | (intro x
       first
         | (refine same_of (a := a) (k := k) x ?_ fun _ => ?_
            unfold x
            try lift_lets -underBinder
            rotate_left
            clear_value x)
         | clear_value x
         | skip)
    | lift_lets -underBinder | with_reducible apply each_same | with_reducible apply State.setSlotState_same
    | with_reducible apply State.wr_same | (split <;> try lift_lets -underBinder)

theorem preferSet_same {k : Part} {a s : State} {x1 x2 x3}
    (hk : k ∉ [.reg 0x7034, .sec])
    (h : State.Same k a s) :
    State.Same k a (preferSet x1 x2 s x3) := by
  unfold preferSet
  repeat' first
    | with_reducible assumption | exact notMem_of hk (by decide +kernel) | with_reducible apply State.prefer_same

theorem State.openLoad_same {k : Part} {a s : State} {x1 x2 x3}
    (hk : k ∉ [.reg 0x7035, .reg 0x7040, .sec])
    (h : State.Same k a s) :
    State.Same k a (State.openLoad s x1 x2 x3) := by
  unfold State.openLoad
  repeat' first
    | with_reducible assumption | exact notMem_of hk (by decide +kernel) | with_reducible apply State.setSec_same
    | with_reducible apply State.wr_same | with_reducible apply State.setSlotState_same

theorem State.loadBegin_same {k : Part} {a s : State} {x1 x2 x3}
    (hk : k ∉ [.reg 0x1310, .reg 0x7035, .reg 0x7040, .net, .sec])
    (h : State.Same k a s) :
    State.Same k a (State.loadBegin s x1 x2 x3) := by
  unfold State.loadBegin
  try lift_lets -underBinder
  repeat' first
    | with_reducible assumption | exact notMem_of hk (by decide +kernel)
    | (intro x
       first
         | (refine same_of (a := a) (k := k) x ?_ fun _ => ?_
            unfold x
            try lift_lets -underBinder
            rotate_left
            clear_value x)
         | clear_value x
         | skip)
    | lift_lets -underBinder | with_reducible apply State.serve_same | with_reducible apply needDone_same
    | with_reducible apply done_same | with_reducible apply State.openLoad_same | with_reducible apply sameAns_ok
    | with_reducible apply sameAns_error | (split <;> try lift_lets -underBinder)

theorem pieceSet_same {k : Part} {a s : State} {x1 x2 x3}
    (hk : k ∉ [.sec])
    (h : State.Same k a s) :
    State.Same k a (pieceSet x1 x2 s x3) := by
  unfold pieceSet
  repeat' first
    | with_reducible assumption | exact notMem_of hk (by decide +kernel) | with_reducible apply State.setSec_same

theorem loadEndSet_same {k : Part} {a s : State} {x1 x2}
    (hk : k ∉ [.reg 0x6000, .reg 0x7034, .reg 0x7035, .reg 0x7040, .dies, .sec, .trail])
    (h : State.Same k a s) :
    State.Same k a (loadEndSet x1 s x2) := by
  unfold loadEndSet
  repeat' first
    | with_reducible assumption | exact notMem_of hk (by decide +kernel) | with_reducible apply State.setSec_same
    | with_reducible apply State.wr_same | with_reducible apply State.prefer_same
    | with_reducible apply State.setSlotState_same | with_reducible apply State.imageNote_same | split

theorem debugSet_same {k : Part} {a s : State} {x1}
    (hk : k ∉ [.reg 0x7060, .sec, .free])
    (h : State.Same k a s) :
    State.Same k a (debugSet s x1) := by
  unfold debugSet
  repeat' first
    | with_reducible assumption | exact notMem_of hk (by decide +kernel) | with_reducible apply State.newNonce_same
    | with_reducible apply State.wr_same | with_reducible apply State.setSec_same

theorem debugLockSet_same {k : Part} {a s : State} {x1}
    (hk : k ∉ [.reg 0x7060, .lockbox, .net, .sec])
    (h : State.Same k a s) :
    State.Same k a (debugLockSet s x1) := by
  unfold debugLockSet
  repeat' first
    | with_reducible assumption | exact notMem_of hk (by decide +kernel) | with_reducible apply State.endUnlock_same
    | with_reducible apply State.wr_same | with_reducible apply State.setSec_same | split

theorem State.setAttNonce_same {k : Part} {a s : State} {x1 x2}
    (hk : k ∉ [.net, .sec])
    (h : State.Same k a s) :
    State.Same k a (State.setAttNonce s x1 x2) := by
  unfold State.setAttNonce
  repeat' first
    | with_reducible assumption | exact notMem_of hk (by decide +kernel) | with_reducible apply State.setSession_same
    | with_reducible apply State.setSec_same | split

end Sys2Proof.Machine
end

