-- ==== Sys2Proof/Laws/FrameKeyway.lean ====
section
/-! SUPPORT. Which parts of the state the operations of objects, the trail, writes and Keyway can change: one lemma for each. -/

namespace Sys2Proof.Machine

set_option Elab.async false

set_option linter.unreachableTactic false
set_option linter.unusedTactic false

theorem State.readReport_same {k : Part} {a s : State} {x1 x2}
    (hk : k ∉ [.net, .sec, .free])
    (h : State.Same k a s) :
    SameAns k a (State.readReport s x1 x2) := by
  unfold State.readReport
  repeat' first
    | with_reducible assumption | exact notMem_of hk (by decide +kernel) | with_reducible apply State.draw_same
    | with_reducible apply State.setAttNonce_same | with_reducible apply sameAns_ok
    | with_reducible apply sameAns_error | split

theorem State.readSpan_same {k : Part} {a s : State} {x1 x2 x3}
    (hk : k ∉ [.net, .sec, .free])
    (h : State.Same k a s) :
    SameAns k a (State.readSpan s x1 x2 x3) := by
  unfold State.readSpan
  try lift_lets -underBinder
  repeat' first
    | with_reducible assumption | exact notMem_of hk (by decide +kernel)
    | (intro x
       first
         | (refine same_of (a := a) (k := k) x ?_ fun _ => ?_
            unfold x
            try lift_lets -underBinder
            rotate_left
            clear_value x)
         | clear_value x
         | skip)
    | lift_lets -underBinder | with_reducible apply State.readReport_same | with_reducible apply State.draw_same
    | with_reducible apply sameAns_ok | with_reducible apply sameAns_error | (split <;> try lift_lets -underBinder)

theorem State.freeze_same {k : Part} {a s : State}
    (hk : k ∉ [.reg 0x6000, .trail])
    (h : State.Same k a s) :
    State.Same k a (State.freeze s) := by
  unfold State.freeze
  repeat' first
    | with_reducible assumption | exact notMem_of hk (by decide +kernel) | with_reducible apply State.wr_same | split
    | with_reducible apply same_trail

theorem cursorSet_same {k : Part} {a s : State} {x1 x2}
    (hk : k ∉ [.reg 0x6000])
    (h : State.Same k a s) :
    State.Same k a (cursorSet x1 s x2) := by
  unfold cursorSet
  repeat' first
    | with_reducible assumption | exact notMem_of hk (by decide +kernel) | with_reducible apply State.wr_same

theorem severitySet_same {k : Part} {a s : State} {x1 x2}
    (hk : k ∉ [.reg 0x6000, .trail])
    (h : State.Same k a s) :
    State.Same k a (severitySet x1 s x2) := by
  unfold severitySet
  repeat' first
    | with_reducible assumption | exact notMem_of hk (by decide +kernel) | with_reducible apply State.wr_same | split
    | with_reducible apply same_trail

theorem unfreezeSet_same {k : Part} {a s : State} {x1}
    (hk : k ∉ [.reg 0x6000, .dies, .trail])
    (h : State.Same k a s) :
    State.Same k a (unfreezeSet s x1) := by
  unfold unfreezeSet
  repeat' first
    | with_reducible assumption | exact notMem_of hk (by decide +kernel) | with_reducible apply State.wr_same
    | with_reducible apply State.note_same | split | with_reducible apply same_trail

theorem hostKeySet_same {k : Part} {a s : State} {x1 x2 x3}
    (hk : k ∉ [.blob 0x1303, .flashBlobs])
    (h : State.Same k a s) :
    State.Same k a (hostKeySet x1 x2 s x3) := by
  unfold hostKeySet
  repeat' first
    | with_reducible assumption | exact notMem_of hk (by decide +kernel) | with_reducible apply State.wrB_same
    | with_reducible apply same_flashBlobs

theorem storeSet_same {k : Part} {a s : State} {x1}
    (hk : k ∉ [.reg 0x1010, .net])
    (h : State.Same k a s) :
    State.Same k a (storeSet s x1) := by
  unfold storeSet
  repeat' first
    | with_reducible assumption | exact notMem_of hk (by decide +kernel) | with_reducible apply State.wr_same
    | with_reducible apply same_net

theorem State.keepSnapshot_same {k : Part} {a s : State}
    (hk : k ∉ [.flash, .flashBlobs])
    (h : State.Same k a s) :
    State.Same k a (State.keepSnapshot s) := by
  unfold State.keepSnapshot
  repeat' first
    | with_reducible assumption | exact notMem_of hk (by decide +kernel) | with_reducible apply same_flashes

theorem State.clearPeak_same {k : Part} {a s : State} {x1 x2}
    (hk : k ∉ [.slots])
    (h : State.Same k a s) :
    State.Same k a (State.clearPeak s x1 x2) := by
  unfold State.clearPeak
  repeat' first
    | with_reducible assumption | exact notMem_of hk (by decide +kernel) | with_reducible apply State.setSlot_same

theorem State.afterPeriod_same {k : Part} {a s : State} {x1 x2 x3}
    (hk : k ∉ [.units])
    (h : State.Same k a s) :
    State.Same k a (State.afterPeriod s x1 x2 x3) := by
  unfold State.afterPeriod
  repeat' first
    | with_reducible assumption | exact notMem_of hk (by decide +kernel)
    | with_reducible apply State.loadPeriods_same | split

theorem State.afterMask_same {k : Part} {a s : State} {x1 x2}
    (hk : k ∉ [.reg 0x2402, .reg 0x2444, .reg 0x2810, .reg 0x3101, .reg 0x6000, .reg 0x6010, .reg 0x6012, .chans,
    .units, .slots, .engines, .dies, .trail, .lane, .flight])
    (h : State.Same k a s) :
    State.Same k a (State.afterMask s x1 x2) := by
  unfold State.afterMask
  repeat' first
    | with_reducible assumption | exact notMem_of hk (by decide +kernel)
    | with_reducible apply State.standingSources_same | split

theorem numSet_same {k : Part} {a s : State} {x1 x2 x3 x4 x5}
    (hr : k.isObj = false)
    (hk : k ∉ [.clock, .flash, .chans, .units, .slots, .engines, .dies, .descs, .adcs, .groups, .bldc, .axes, .power,
    .sup, .lockbox, .qm, .net, .can, .sec, .trail, .standbyDue, .lastMet, .metView, .metViewAt, .tag, .resetReq,
    .lane, .flight, .free])
    (h : State.Same k a s) :
    State.Same k a (numSet x1 x2 x3 x4 s x5) := by
  unfold numSet
  repeat' first
    | with_reducible assumption | with_reducible exact hr | exact notMem_any hr hk (by decide +kernel)
    | with_reducible apply storeSet_same | with_reducible apply epochSet_same | with_reducible apply powerReqSet_same
    | with_reducible apply warmSet_same | with_reducible apply siteResetSet_same
    | with_reducible apply engineResetSet_same | with_reducible apply canModeSet_same
    | with_reducible apply State.draw_same | with_reducible apply restartSet_same
    | with_reducible apply cancelSet_same | with_reducible apply consumerSet_same
    | with_reducible apply startSet_same | with_reducible apply stopSet_same | with_reducible apply continueSet_same
    | with_reducible apply removeSet_same | with_reducible apply State.clearPeak_same
    | with_reducible apply checkNowSet_same | with_reducible apply commitSet_same
    | with_reducible apply stageSet_same | with_reducible apply diagnoseNowSet_same
    | with_reducible apply powerSet_same | with_reducible apply setpointSet_same
    | with_reducible apply targetSet_same | with_reducible apply referenceSet_same
    | with_reducible apply resetSet_same | with_reducible apply outputSet_same
    | with_reducible apply contactorSet_same | with_reducible apply State.endUnlock_same
    | with_reducible apply applySet_same | with_reducible apply State.mailReply_same
    | with_reducible apply State.doAck_same | with_reducible apply State.flushMail_same
    | with_reducible apply cursorSet_same | with_reducible apply severitySet_same
    | with_reducible apply unfreezeSet_same | with_reducible apply clearSet_same
    | with_reducible apply dieClearSet_same | with_reducible apply fltClearSet_same
    | with_reducible apply bldcClearSet_same | with_reducible apply axisClearSet_same
    | with_reducible apply revokeSet_same | with_reducible apply rollbackSet_same
    | with_reducible apply preferSet_same | with_reducible apply loadEndSet_same
    | with_reducible apply partitionSet_same | with_reducible apply debugLockSet_same
    | with_reducible apply calibrationSet_same | with_reducible apply rwpSet_same
    | with_reducible apply State.afterMask_same | with_reducible apply State.afterPeriod_same
    | with_reducible apply State.wr_field | with_reducible apply State.wr_same | split

theorem State.sendImage_same {k : Part} {a s : State} {x1}
    (hk : k ∉ [.reg 0x5441, .qm, .lastMet, .metView, .metViewAt, .tag])
    (h : State.Same k a s) :
    State.Same k a (State.sendImage s x1) := by
  unfold State.sendImage
  try lift_lets -underBinder
  repeat' first
    | with_reducible assumption | exact notMem_of hk (by decide +kernel)
    | (intro x
       first
         | (refine same_of (a := a) (k := k) x ?_ fun _ => ?_
            unfold x
            try lift_lets -underBinder
            rotate_left
            clear_value x)
         | skip)
    | lift_lets -underBinder | with_reducible apply each_same | with_reducible apply State.takeSegment_same
    | with_reducible apply State.adjustReply_same | (split <;> try lift_lets -underBinder)

theorem octSet_same {k : Part} {a s : State} {x1 x2 x3 x4 x5}
    (hr : k.isObj = false)
    (hk : k ∉ [.flashBlobs, .descs, .lockbox, .qm, .net, .can, .sec, .lastMet, .metView, .metViewAt, .tag, .lane,
    .flight, .free])
    (h : State.Same k a s) :
    State.Same k a (octSet x1 x2 x3 x4 s x5) := by
  unfold octSet
  repeat' first
    | with_reducible assumption | with_reducible exact hr | exact notMem_any hr hk (by decide +kernel)
    | with_reducible apply hostKeySet_same | with_reducible apply submitSet_same
    | with_reducible apply recipeSet_same | with_reducible apply descriptorSet_same
    | with_reducible apply unlockSet_same | with_reducible apply passwordSet_same
    | with_reducible apply State.mail_same | with_reducible apply State.wrB_field
    | with_reducible apply State.wrB_same | with_reducible apply State.takeToken_same
    | with_reducible apply State.flushMail_same | with_reducible apply State.sendImage_same
    | with_reducible apply rootWriteSet_same | with_reducible apply pieceSet_same
    | with_reducible apply debugSet_same | with_reducible apply State.setAttNonce_same | split

theorem State.setDefaults_same {k : Part} {a s : State} {x1}
    (hr : k.isObj = false) (hk : k ∉ [.clock, .flash, .chans, .units, .slots, .engines, .dies, .descs, .adcs, .groups, .bldc, .axes, .power, .sup, .lockbox, .qm, .net, .can, .sec, .trail, .standbyDue, .lastMet, .metView, .metViewAt, .tag, .resetReq, .lane, .flight, .free])
    (h : State.Same k a s) : State.Same k a (s.setDefaults x1) := by
  unfold State.setDefaults
  exact each_same (same_regs hr (each_same h fun _ _ hy => numSet_same hr (notMem_any hr hk (by decide +kernel)) hy))
    fun _ _ hy => State.admitAfter_same (notMem_any hr hk (by decide +kernel))
      (State.loadPeriods_same (notMem_any hr hk (by decide +kernel)) hy)

theorem restoreSet_same {k : Part} {a s : State} {x1 x2}
    (hr : k.isObj = false)
    (hk : k ∉ [.clock, .flash, .chans, .units, .slots, .engines, .dies, .descs, .adcs, .groups, .bldc, .axes, .power,
    .sup, .lockbox, .qm, .net, .can, .sec, .trail, .standbyDue, .lastMet, .metView, .metViewAt, .tag, .resetReq,
    .lane, .flight, .free])
    (h : State.Same k a s) :
    State.Same k a (restoreSet x1 s x2) := by
  unfold restoreSet
  repeat' first
    | with_reducible assumption | with_reducible exact hr | exact notMem_any hr hk (by decide +kernel)
    | with_reducible apply State.setDefaults_same

theorem State.trial_same {k : Part} {a s : State} {x1 x2 x3}
    (hr : k.isObj = false)
    (h : State.Same k a s) :
    State.Same k a (State.trial s x1 x2 x3) := by
  unfold State.trial
  try lift_lets -underBinder
  repeat' first
    | with_reducible assumption | with_reducible exact hr
    | exact notMem_any hr (List.not_mem_nil) (by decide +kernel)
    | (intro x
       first
         | (refine same_of (a := a) (k := k) x ?_ fun _ => ?_
            unfold x
            try lift_lets -underBinder
            rotate_left
            clear_value x)
         | clear_value x
         | skip)
    | lift_lets -underBinder | with_reducible apply each_same | with_reducible apply State.wr_field
    | with_reducible apply State.wr_same | with_reducible apply State.wrB_field | with_reducible apply State.wrB_same
    | (split <;> try lift_lets -underBinder)

theorem State.refused_same {k : Part} {a s : State} {x1 x2 x3 x4}
    (hk : k ∉ [.reg 0x2402, .reg 0x341F, .reg 0x40F0, .lockbox, .free])
    (h : State.Same k a s) :
    State.Same k a (State.refused s x1 x2 x3 x4) := by
  unfold State.refused
  try lift_lets -underBinder
  repeat' first
    | with_reducible assumption | exact notMem_of hk (by decide +kernel)
    | (intro x
       first
         | (refine same_of (a := a) (k := k) x ?_ fun _ => ?_
            unfold x
            try lift_lets -underBinder
            rotate_left
            clear_value x)
         | clear_value x
         | skip)
    | lift_lets -underBinder | with_reducible apply State.markInvalid_same | with_reducible apply each_same
    | with_reducible apply State.countReversal_same | with_reducible apply State.wrongPassword_same
    | (split <;> try lift_lets -underBinder)

theorem State.setItem_same {k : Part} {a s : State} {x1 x2 x3 x4}
    (hr : k.isObj = false)
    (hk : k ∉ [.clock, .flash, .flashBlobs, .chans, .units, .slots, .engines, .dies, .descs, .adcs, .groups, .bldc,
    .axes, .power, .sup, .lockbox, .qm, .net, .can, .sec, .trail, .standbyDue, .lastMet, .metView, .metViewAt, .tag,
    .resetReq, .lane, .flight, .free])
    (h : State.Same k a s) :
    State.Same k a (State.setItem s x1 x2 x3 x4) := by
  unfold State.setItem
  repeat' first
    | with_reducible assumption | with_reducible exact hr | exact notMem_any hr hk (by decide +kernel)
    | with_reducible apply restoreSet_same | with_reducible apply numSet_same | with_reducible apply octSet_same
    | split

theorem State.showAdmission_same {k : Part} {a s : State} {x1 x2}
    (hk : k ∉ [.reg 0x2500])
    (h : State.Same k a s) :
    State.Same k a (State.showAdmission s x1 x2) := by
  unfold State.showAdmission
  repeat' first
    | with_reducible assumption | exact notMem_of hk (by decide +kernel) | with_reducible apply State.wr_same

theorem State.writeItems_same {k : Part} {a s : State} {x1 x2 x3 x4}
    (hr : k.isObj = false) (hk : k ∉ [.clock, .flash, .flashBlobs, .chans, .units, .slots, .engines, .dies, .descs, .adcs, .groups, .bldc, .axes, .power, .sup, .lockbox, .qm, .net, .can, .sec, .trail, .standbyDue, .lastMet, .metView, .metViewAt, .tag, .resetReq, .lane, .flight, .free])
    (h : State.Same k a s) : State.Same k a (s.writeItems x1 x2 x3 x4).1 := by
  unfold State.writeItems
  split
  · exact State.refused_same (notMem_any hr hk (by decide +kernel)) h
  · extract_lets l es ads t
    split
    · exact State.wr_field hr h
    · exact each_same (each_same h fun _ _ hy => each_same (State.touch_same (notMem_any hr hk (by decide +kernel)) hy)
        fun _ _ hz => State.setItem_same hr (notMem_any hr hk (by decide +kernel)) hz)
        fun _ _ hy => State.admitDie_same (notMem_any hr hk (by decide +kernel)) hy

theorem State.writeSpan_same {k : Part} {a s : State} {x1 x2 x3 x4 x5}
    (hr : k.isObj = false) (hk : k ∉ [.clock, .flash, .flashBlobs, .chans, .units, .slots, .engines, .dies, .descs, .adcs, .groups, .bldc, .axes, .power, .sup, .lockbox, .qm, .net, .can, .sec, .trail, .standbyDue, .lastMet, .metView, .metViewAt, .tag, .resetReq, .lane, .flight, .free])
    (h : State.Same k a s) : State.Same k a (s.writeSpan x1 x2 x3 x4 x5).1 := by
  unfold State.writeSpan
  repeat' split
  · exact h
  · exact Ans.outcome_same h (needDone_same (done_same (State.openLoad_same (notMem_any hr hk (by decide +kernel)) h)))
  · exact State.writeItems_same hr (notMem_any hr hk (by decide +kernel)) h

theorem State.writeReq_same {k : Part} {a s : State} {x1 x2 x3 x4}
    (hr : k.isObj = false) (hk : k ∉ [.vsys, .fw, .clock, .flash, .flashBlobs, .chans, .units, .slots, .engines, .dies, .descs, .adcs, .wins, .queues, .groups, .bldc, .axes, .power, .sup, .lockbox, .qm, .net, .can, .sec, .trail, .standbyDue, .sleepLt, .metNote, .lastMet, .metSilent, .metView, .metViewAt, .tag, .sleepHash, .waking, .resetLt, .resetReq, .lane, .flight, .hot, .free])
    (h : State.Same k a s) : State.Same k a (s.writeReq x1 x2 x3 x4) :=
  State.settle_same hr (notMem_any hr hk (by decide +kernel)) (State.serveWith_same (notMem_any hr hk (by decide +kernel)) h
    fun _ hy => State.writeSpan_same hr (notMem_any hr hk (by decide +kernel)) hy)

theorem State.readReq_same {k : Part} {a s : State} {x1 x2 x3}
    (hk : k ∉ [.reg 0x1310, .net, .sec, .free])
    (h : State.Same k a s) : State.Same k a (s.readReq x1 x2 x3) :=
  State.serve_same (notMem_of hk (by decide +kernel)) h fun _ hy => State.readSpan_same (notMem_of hk (by decide +kernel)) hy

theorem State.hearTransfer_same {k : Part} {a s : State} {x1 x2}
    (hk : k ∉ [.net])
    (h : State.Same k a s) :
    State.Same k a (State.hearTransfer s x1 x2) := by
  unfold State.hearTransfer
  repeat' first
    | with_reducible assumption | exact notMem_of hk (by decide +kernel) | with_reducible apply State.setSession_same
    | split

theorem State.openTransfer_same {k : Part} {a s : State} {x1 x2}
    (hk : k ∉ [.net])
    (h : State.Same k a s) :
    State.Same k a (State.openTransfer s x1 x2) := by
  unfold State.openTransfer
  repeat' first
    | with_reducible assumption | exact notMem_of hk (by decide +kernel) | with_reducible apply State.setSession_same
    | split

theorem State.initWrite_same {k : Part} {a s : State} {x1 x2 x3}
    (hk : k ∉ [.net])
    (h : State.Same k a s) :
    SameAns k a (State.initWrite s x1 x2 x3) := by
  unfold State.initWrite
  repeat' first
    | with_reducible assumption | exact notMem_of hk (by decide +kernel) | with_reducible apply done_same
    | with_reducible apply State.openTransfer_same | with_reducible apply sameAns_ok
    | with_reducible apply sameAns_error | split

theorem State.initRead_same {k : Part} {a s : State} {x1 x2 x3}
    (hk : k ∉ [.net, .sec, .free])
    (h : State.Same k a s) : SameAns k a (s.initRead x1 x2 x3) := by
  unfold State.initRead
  split
  · exact sameAns_error
  · split
    · exact sameAns_error
    · extract_lets r
      have hr : SameAns k a r := by
        unfold r
        split
        · exact State.readReport_same (notMem_of hk (by decide +kernel)) h
        · cases s.gather x1 x2 false with
          | error e => exact sameAns_error
          | ok b => exact sameAns_ok (State.draw_same (notMem_of hk (by decide +kernel)) h)
      clear_value r
      split
      · exact sameAns_error
      · split
        · exact sameAns_error
        · exact sameAns_ok (State.openTransfer_same (notMem_of hk (by decide +kernel)) (hr.keep _ _ rfl))

theorem State.initBad_same {k : Part} {a s : State} {x1 x2 x3 x4}
    (h : State.Same k a s) :
    SameAns k a (State.initBad s x1 x2 x3 x4) := by
  unfold State.initBad
  try lift_lets -underBinder
  repeat' first
    | with_reducible assumption
    | (intro x
       first
         | (refine same_of (a := a) (k := k) x ?_ fun _ => ?_
            unfold x
            try lift_lets -underBinder
            rotate_left
            clear_value x)
         | clear_value x
         | skip)
    | lift_lets -underBinder | with_reducible apply sameAns_ok | with_reducible apply sameAns_error
    | (split <;> try lift_lets -underBinder)

theorem State.segInit_same {k : Part} {a s : State} {x1 x2 x3 x4}
    (hk : k ∉ [.reg 0x1310, .net, .sec, .free])
    (h : State.Same k a s) :
    State.Same k a (State.segInit s x1 x2 x3 x4) := by
  unfold State.segInit
  try lift_lets -underBinder
  repeat' first
    | with_reducible assumption | exact notMem_of hk (by decide +kernel)
    | (intro x
       first
         | (refine same_of (a := a) (k := k) x ?_ fun _ => ?_
            unfold x
            try lift_lets -underBinder
            rotate_left
            clear_value x)
         | clear_value x
         | skip)
    | lift_lets -underBinder | with_reducible apply State.serve_same | with_reducible apply State.initRead_same
    | with_reducible apply State.initWrite_same | with_reducible apply State.initBad_same
    | with_reducible apply sameAns_ok | with_reducible apply sameAns_error | (split <;> try lift_lets -underBinder)

theorem State.stageChunk_same {k : Part} {a s : State} {x1 x2 x3 x4}
    (hk : k ∉ [.net])
    (h : State.Same k a s) :
    SameAns k a (State.stageChunk s x1 x2 x3 x4) := by
  unfold State.stageChunk
  repeat' first
    | with_reducible assumption | exact notMem_of hk (by decide +kernel) | with_reducible apply done_same
    | with_reducible apply State.setSession_same | with_reducible apply sameAns_ok
    | with_reducible apply sameAns_error | split

theorem State.snapChunk_same {k : Part} {a s : State} {x1 x2 x3}
    (h : State.Same k a s) :
    SameAns k a (State.snapChunk s x1 x2 x3) := by
  unfold State.snapChunk
  try lift_lets -underBinder
  repeat' first
    | with_reducible assumption
    | (intro x
       first
         | (refine same_of (a := a) (k := k) x ?_ fun _ => ?_
            unfold x
            try lift_lets -underBinder
            rotate_left
            clear_value x)
         | clear_value x
         | skip)
    | lift_lets -underBinder | with_reducible apply sameAns_ok | with_reducible apply sameAns_error
    | (split <;> try lift_lets -underBinder)

theorem State.segData_same {k : Part} {a s : State} {x1 x2 x3 x4}
    (hk : k ∉ [.reg 0x1310, .net])
    (h : State.Same k a s) :
    State.Same k a (State.segData s x1 x2 x3 x4) := by
  unfold State.segData
  try lift_lets -underBinder
  repeat' first
    | with_reducible assumption | exact notMem_of hk (by decide +kernel)
    | (intro x
       first
         | (refine same_of (a := a) (k := k) x ?_ fun _ => ?_
            unfold x
            try lift_lets -underBinder
            rotate_left
            clear_value x)
         | clear_value x
         | skip)
    | lift_lets -underBinder | with_reducible apply State.serve_same | with_reducible apply State.hearTransfer_same
    | with_reducible apply State.stageChunk_same | with_reducible apply State.snapChunk_same
    | with_reducible apply sameAns_ok | with_reducible apply sameAns_error | (split <;> try lift_lets -underBinder)

theorem State.closeTransfer_same {k : Part} {a s : State} {x1 x2}
    (hk : k ∉ [.net])
    (h : State.Same k a s) :
    State.Same k a (State.closeTransfer s x1 x2) := by
  unfold State.closeTransfer
  repeat' first
    | with_reducible assumption | exact notMem_of hk (by decide +kernel) | with_reducible apply State.setSession_same
    | split

theorem State.applyTransfer_same {k : Part} {a s : State} {x1 x2 x3}
    (hr : k.isObj = false) (hk : k ∉ [.clock, .flash, .flashBlobs, .chans, .units, .slots, .engines, .dies, .descs, .adcs, .groups, .bldc, .axes, .power, .sup, .lockbox, .qm, .net, .can, .sec, .trail, .standbyDue, .lastMet, .metView, .metViewAt, .tag, .resetReq, .lane, .flight, .free])
    (h : State.Same k a s) : State.Same k a (s.applyTransfer x1 x2 x3).1 := by
  unfold State.applyTransfer
  split
  · exact h
  · repeat' split
    · exact h
    · exact h
    · exact State.writeSpan_same hr (notMem_any hr hk (by decide +kernel)) h

theorem State.segEnd_same {k : Part} {a s : State} {x1 x2 x3}
    (hr : k.isObj = false) (hk : k ∉ [.vsys, .fw, .clock, .flash, .flashBlobs, .chans, .units, .slots, .engines, .dies, .descs, .adcs, .wins, .queues, .groups, .bldc, .axes, .power, .sup, .lockbox, .qm, .net, .can, .sec, .trail, .standbyDue, .sleepLt, .metNote, .lastMet, .metSilent, .metView, .metViewAt, .tag, .sleepHash, .waking, .resetLt, .resetReq, .lane, .flight, .hot, .free])
    (h : State.Same k a s) : State.Same k a (s.segEnd x1 x2 x3) := by
  unfold State.segEnd
  split
  · refine State.settle_same hr (notMem_any hr hk (by decide +kernel)) (State.serveWith_same (notMem_any hr hk (by decide +kernel)) h
      fun y hy => ?_)
    split
    · exact hy
    · dsimp only
      have hc := fun u v => State.closeTransfer_same (x1 := u) (x2 := v) (notMem_any hr hk (by decide +kernel)) hy
      split
      · exact State.applyTransfer_same hr (notMem_any hr hk (by decide +kernel)) (hc _ _)
      · exact hc _ _
  · exact h
  · exact h

theorem State.setSubs_same {k : Part} {a s : State} {x1 x2}
    (hk : k ∉ [.net])
    (h : State.Same k a s) :
    State.Same k a (State.setSubs s x1 x2) := by
  unfold State.setSubs
  repeat' first
    | with_reducible assumption | exact notMem_of hk (by decide +kernel) | with_reducible apply State.setSession_same
    | split | with_reducible apply same_net

theorem State.putSubs_same {k : Part} {a s : State} {x1 x2 x3}
    (hk : k ∉ [.net])
    (h : State.Same k a s) :
    State.Same k a (State.putSubs s x1 x2 x3) := by
  unfold State.putSubs
  repeat' first
    | with_reducible assumption | exact notMem_of hk (by decide +kernel) | with_reducible apply State.setSubs_same
    | with_reducible apply same_net

theorem State.subscribeTo_same {k : Part} {a s : State} {x1 x2 x3 x4 x5}
    (hk : k ∉ [.net])
    (h : State.Same k a s) :
    SameAns k a (State.subscribeTo s x1 x2 x3 x4 x5) := by
  unfold State.subscribeTo
  try lift_lets -underBinder
  repeat' first
    | with_reducible assumption | exact notMem_of hk (by decide +kernel)
    | (intro x
       first
         | (refine same_of (a := a) (k := k) x ?_ fun _ => ?_
            unfold x
            try lift_lets -underBinder
            rotate_left
            clear_value x)
         | clear_value x
         | skip)
    | lift_lets -underBinder | with_reducible apply done_same | with_reducible apply State.putSubs_same
    | with_reducible apply sameAns_ok | with_reducible apply sameAns_error | (split <;> try lift_lets -underBinder)

theorem State.takePubs_same {k : Part} {a s : State}
    (hk : k ∉ [.net, .free])
    (h : State.Same k a s) :
    State.Same k a (State.takePubs s) := by
  unfold State.takePubs
  repeat' first
    | with_reducible assumption | exact notMem_of hk (by decide +kernel) | with_reducible apply State.draw_same
    | with_reducible apply same_net

theorem State.nextNotify_same {k : Part} {a s : State} {x1}
    (hk : k ∉ [.net])
    (h : State.Same k a s) : State.Same k a (s.nextNotify x1).2 := by
  unfold State.nextNotify
  split
  · exact State.setSession_same (notMem_of hk (by decide +kernel)) h
  · exact same_net (notMem_of hk (by decide +kernel)) h

theorem State.notifyOut_same {k : Part} {a s : State} {x1 x2 x3 x4}
    (hk : k ∉ [.net])
    (h : State.Same k a s) :
    State.Same k a (State.notifyOut s x1 x2 x3 x4) := by
  unfold State.notifyOut
  try lift_lets -underBinder
  repeat' first
    | with_reducible assumption | exact notMem_of hk (by decide +kernel)
    | (intro x
       first
         | (refine same_of (a := a) (k := k) x ?_ fun _ => ?_
            unfold x
            try lift_lets -underBinder
            rotate_left
            clear_value x)
         | skip)
    | lift_lets -underBinder | with_reducible apply State.nextNotify_same | with_reducible apply each_same
    | with_reducible apply State.send_same | (split <;> try lift_lets -underBinder)

theorem State.countStream_same {k : Part} {a s : State} {x1}
    (hk : k ∉ [.net])
    (h : State.Same k a s) :
    State.Same k a (State.countStream s x1) := by
  unfold State.countStream
  repeat' first
    | with_reducible assumption | exact notMem_of hk (by decide +kernel) | with_reducible apply same_net

theorem State.endSession_same {k : Part} {a s : State} {x1}
    (hk : k ∉ [.reg 0x7035, .reg 0x7040, .lockbox, .net, .sec])
    (h : State.Same k a s) :
    State.Same k a (State.endSession s x1) := by
  unfold State.endSession
  try lift_lets -underBinder
  repeat' first
    | with_reducible assumption | exact notMem_of hk (by decide +kernel)
    | (intro x
       first
         | (refine same_of (a := a) (k := k) x ?_ fun _ => ?_
            unfold x
            try lift_lets -underBinder
            rotate_left
            clear_value x)
         | clear_value x
         | skip)
    | lift_lets -underBinder | with_reducible apply when'_same | with_reducible apply State.endUnlock_same
    | with_reducible apply State.abandonLoad_same | (split <;> try lift_lets -underBinder)
    | with_reducible apply same_net

theorem State.shakeOut_same {k : Part} {a s : State} {x1 x2 x3 x4}
    (hk : k ∉ [.net])
    (h : State.Same k a s) :
    State.Same k a (State.shakeOut s x1 x2 x3 x4) := by
  unfold State.shakeOut
  try lift_lets -underBinder
  repeat' first
    | with_reducible assumption | exact notMem_of hk (by decide +kernel)
    | (intro x
       first
         | (refine same_of (a := a) (k := k) x ?_ fun _ => ?_
            unfold x
            try lift_lets -underBinder
            rotate_left
            clear_value x)
         | clear_value x
         | skip)
    | lift_lets -underBinder | with_reducible apply each_same | with_reducible apply State.send_same
    | with_reducible apply State.sendRaw_same | (split <;> try lift_lets -underBinder)

theorem State.shakeRefuse_same {k : Part} {a s : State} {x1 x2 x3 x4}
    (hk : k ∉ [.net])
    (h : State.Same k a s) :
    State.Same k a (State.shakeRefuse s x1 x2 x3 x4) := by
  unfold State.shakeRefuse
  repeat' first
    | with_reducible assumption | exact notMem_of hk (by decide +kernel) | with_reducible apply State.sendRaw_same

theorem State.beginShake_same {k : Part} {a s : State} {x1 x2}
    (hk : k ∉ [.net, .free])
    (h : State.Same k a s) :
    State.Same k a (State.beginShake s x1 x2) := by
  unfold State.beginShake
  repeat' first
    | with_reducible assumption | exact notMem_of hk (by decide +kernel) | with_reducible apply State.draw_same
    | with_reducible apply State.shakeOut_same | with_reducible apply same_net

theorem State.openSession_same {k : Part} {a s : State} {x1 x2}
    (hk : k ∉ [.net])
    (h : State.Same k a s) :
    State.Same k a (State.openSession s x1 x2) := by
  unfold State.openSession
  repeat' first
    | with_reducible assumption | exact notMem_of hk (by decide +kernel) | with_reducible apply State.shakeOut_same
    | with_reducible apply same_net

end Sys2Proof.Machine
end

