-- ==== Sys2Proof/Laws/FrameEvents.lean ====
section
/-! SUPPORT. Which parts of the state the commands 1 to 92 of the table can change: one lemma for each. -/

namespace Sys2Proof.Machine

set_option Elab.async false

set_option linter.unreachableTactic false
set_option linter.unusedTactic false

theorem execVsysValid_same {k : Part} {a s : State} {x1} (hr : k.isObj = false) (hk : k ∉ [.vsys, .fw, .clock,
    .chans, .units, .slots, .engines, .dies, .descs, .adcs, .wins, .queues, .groups, .bldc, .axes, .power, .sup,
    .lockbox, .net, .can, .sec, .trail, .standbyDue, .sleepLt, .metNote, .lastMet, .metSilent, .metView, .metViewAt,
    .tag, .sleepHash, .waking, .resetLt, .resetReq, .lane, .flight, .banks, .hot, .free]) (h : State.Same k a s) :
    ∃ t, execVsysValid x1 s = .next t ∧ State.Same k a t := by
  refine ⟨_, rfl, ?_⟩
  try lift_lets -underBinder
  repeat' first
    | with_reducible assumption | with_reducible exact hr | exact notMem_any hr hk (by decide +kernel)
    | (intro x
       first
         | (refine same_of (a := a) (k := k) x ?_ fun _ => ?_
            unfold x
            try lift_lets -underBinder
            rotate_left
            clear_value x)
         | clear_value x
         | skip)
    | lift_lets -underBinder | with_reducible apply State.powerOn_same | (split <;> try lift_lets -underBinder)

theorem execVsysInvalid_same {k : Part} {a s : State} (hr : k.isObj = false) (hk : k ∉ [.vsys, .fw, .clock, .chans,
    .units, .slots, .engines, .dies, .descs, .adcs, .wins, .queues, .groups, .bldc, .axes, .power, .sup, .lockbox,
    .net, .can, .sec, .trail, .standbyDue, .sleepLt, .metNote, .lastMet, .metSilent, .metView, .metViewAt, .tag,
    .sleepHash, .waking, .resetLt, .resetReq, .lane, .flight, .banks, .hot]) (h : State.Same k a s) :
    ∃ t, execVsysInvalid s = .next t ∧ State.Same k a t := by
  refine ⟨_, rfl, ?_⟩
  try lift_lets -underBinder
  repeat' first
    | with_reducible assumption | with_reducible exact hr | exact notMem_any hr hk (by decide +kernel)
    | (intro x
       first
         | (refine same_of (a := a) (k := k) x ?_ fun _ => ?_
            unfold x
            try lift_lets -underBinder
            rotate_left
            clear_value x)
         | clear_value x
         | skip)
    | lift_lets -underBinder | with_reducible apply State.abandonLoad_same | with_reducible apply State.restart_same
    | (split <;> try lift_lets -underBinder) | with_reducible apply same_cleared | with_reducible apply same_invalid

theorem execVmetPowerOn_same {k : Part} {a s : State} {x1} (hk : k ∉ [.reg 0x1220, .reg 0x6000, .dies, .qm, .trail])
    (h : State.Same k a s) :
    ∃ t, execVmetPowerOn x1 s = .next t ∧ State.Same k a t := by
  refine ⟨_, rfl, ?_⟩
  try lift_lets -underBinder
  repeat' first
    | with_reducible assumption | exact notMem_of hk (by decide +kernel)
    | (intro x
       first
         | (refine same_of (a := a) (k := k) x ?_ fun _ => ?_
            unfold x
            try lift_lets -underBinder
            rotate_left
            clear_value x)
         | clear_value x
         | skip)
    | lift_lets -underBinder | with_reducible apply State.rotationReset_same
    | with_reducible apply State.qmRestart_same | with_reducible apply State.onQm_same
    | with_reducible apply State.supplyNote_same | with_reducible apply State.sealAgain_same
    | with_reducible apply State.swapFw_same | (split <;> try lift_lets -underBinder)

theorem execVmetLoss_same {k : Part} {a s : State} (hk : k ∉ [.reg 0x1220, .reg 0x6000, .dies, .qm, .trail]) (h :
    State.Same k a s) :
    ∃ t, execVmetLoss s = .next t ∧ State.Same k a t := by
  refine ⟨_, rfl, ?_⟩
  try lift_lets -underBinder
  repeat' first
    | with_reducible assumption | exact notMem_of hk (by decide +kernel)
    | (intro x
       first
         | (refine same_of (a := a) (k := k) x ?_ fun _ => ?_
            unfold x
            try lift_lets -underBinder
            rotate_left
            clear_value x)
         | clear_value x
         | skip)
    | lift_lets -underBinder | with_reducible apply State.supplyNote_same | with_reducible apply State.onQm_same
    | with_reducible apply State.qmRestart_same | (split <;> try lift_lets -underBinder)

theorem execQmWatchdogExpiry_same {k : Part} {a s : State} (hk : k ∉ [.qm]) (h : State.Same k a s) :
    ∃ t, execQmWatchdogExpiry s = .next t ∧ State.Same k a t := by
  refine ⟨_, rfl, ?_⟩
  try lift_lets -underBinder
  repeat' first
    | with_reducible assumption | exact notMem_of hk (by decide +kernel)
    | (intro x
       first
         | (refine same_of (a := a) (k := k) x ?_ fun _ => ?_
            unfold x
            try lift_lets -underBinder
            rotate_left
            clear_value x)
         | clear_value x
         | skip)
    | lift_lets -underBinder | with_reducible apply State.qmRestart_same | (split <;> try lift_lets -underBinder)

theorem execQmBoot_same {k : Part} {a s : State} (hk : k ∉ [.qm, .free]) (h : State.Same k a s) :
    ∃ t, execQmBoot s = .next t ∧ State.Same k a t := by
  refine ⟨_, rfl, ?_⟩
  try lift_lets -underBinder
  repeat' first
    | with_reducible assumption | exact notMem_of hk (by decide +kernel)
    | (intro x
       first
         | (refine same_of (a := a) (k := k) x ?_ fun _ => ?_
            unfold x
            try lift_lets -underBinder
            rotate_left
            clear_value x)
         | clear_value x
         | skip)
    | lift_lets -underBinder | with_reducible apply each_same | with_reducible apply State.closeAtCheckpoint_same
    | with_reducible apply State.resumeChan_same | with_reducible apply State.onQm_same
    | with_reducible apply State.mclkFault_same | (split <;> try lift_lets -underBinder)

theorem execSiteFramingProbe_same {k : Part} {a s : State} {x1 x2} (hk : k ∉ [.qm]) (h : State.Same k a s) :
    ∃ t, execSiteFramingProbe x1 x2 s = .next t ∧ State.Same k a t := by
  refine ⟨_, rfl, ?_⟩
  try lift_lets -underBinder
  repeat' first
    | with_reducible assumption | exact notMem_of hk (by decide +kernel)
    | (intro x
       first
         | (refine same_of (a := a) (k := k) x ?_ fun _ => ?_
            unfold x
            try lift_lets -underBinder
            rotate_left
            clear_value x)
         | clear_value x
         | skip)
    | lift_lets -underBinder | with_reducible apply State.onQm_same | (split <;> try lift_lets -underBinder)

theorem execResetN_same {k : Part} {a s : State} {x1} (hr : k.isObj = false) (hk : k ∉ [.vsys, .fw, .clock, .chans,
    .units, .slots, .engines, .dies, .descs, .adcs, .wins, .queues, .groups, .bldc, .axes, .power, .sup, .lockbox,
    .net, .can, .sec, .trail, .standbyDue, .sleepLt, .metNote, .lastMet, .metSilent, .metView, .metViewAt, .tag,
    .sleepHash, .waking, .resetLt, .resetReq, .lane, .flight, .hot, .free]) (h : State.Same k a s) :
    ∃ t, execResetN x1 s = .next t ∧ State.Same k a t := by
  refine ⟨_, rfl, ?_⟩
  try lift_lets -underBinder
  repeat' first
    | with_reducible assumption | with_reducible exact hr | exact notMem_any hr hk (by decide +kernel)
    | (intro x
       first
         | (refine same_of (a := a) (k := k) x ?_ fun _ => ?_
            unfold x
            try lift_lets -underBinder
            rotate_left
            clear_value x)
         | clear_value x
         | skip)
    | lift_lets -underBinder | with_reducible apply State.warm_same | with_reducible apply State.draw_same
    | (split <;> try lift_lets -underBinder)

theorem execHubWatchdog_same {k : Part} {a s : State} (hr : k.isObj = false) (hk : k ∉ [.vsys, .fw, .clock, .chans,
    .units, .slots, .engines, .dies, .descs, .adcs, .wins, .queues, .groups, .bldc, .axes, .power, .sup, .lockbox,
    .net, .can, .sec, .trail, .standbyDue, .sleepLt, .metNote, .lastMet, .metSilent, .metView, .metViewAt, .tag,
    .sleepHash, .waking, .resetLt, .resetReq, .lane, .flight, .hot, .free]) (h : State.Same k a s) :
    ∃ t, execHubWatchdog s = .next t ∧ State.Same k a t := by
  refine ⟨_, rfl, ?_⟩
  try lift_lets -underBinder
  repeat' first
    | with_reducible assumption | with_reducible exact hr | exact notMem_any hr hk (by decide +kernel)
    | (intro x
       first
         | (refine same_of (a := a) (k := k) x ?_ fun _ => ?_
            unfold x
            try lift_lets -underBinder
            rotate_left
            clear_value x)
         | clear_value x
         | skip)
    | lift_lets -underBinder | with_reducible apply State.warm_same | (split <;> try lift_lets -underBinder)

theorem execWarmReset_same {k : Part} {a s : State} {x1 x2} (hr : k.isObj = false) (hk : k ∉ [.vsys, .fw, .clock,
    .chans, .units, .slots, .engines, .dies, .descs, .adcs, .wins, .queues, .groups, .bldc, .axes, .power, .sup,
    .lockbox, .net, .can, .sec, .trail, .standbyDue, .sleepLt, .metNote, .lastMet, .metSilent, .metView, .metViewAt,
    .tag, .sleepHash, .waking, .resetLt, .resetReq, .lane, .flight, .hot, .free]) (h : State.Same k a s) :
    ∃ t, execWarmReset x1 x2 s = .next t ∧ State.Same k a t := by
  refine ⟨_, rfl, ?_⟩
  try lift_lets -underBinder
  repeat' first
    | with_reducible assumption | with_reducible exact hr | exact notMem_any hr hk (by decide +kernel)
    | (intro x
       first
         | (refine same_of (a := a) (k := k) x ?_ fun _ => ?_
            unfold x
            try lift_lets -underBinder
            rotate_left
            clear_value x)
         | clear_value x
         | skip)
    | lift_lets -underBinder | with_reducible apply State.settle_same | with_reducible apply State.writeObj_same
    | with_reducible apply warmSet_same | (split <;> try lift_lets -underBinder)

theorem execSiteReset_same {k : Part} {a s : State} {x1 x2} (hr : k.isObj = false) (hk : k ∉ [.vsys, .fw, .clock,
    .chans, .units, .slots, .engines, .dies, .descs, .adcs, .wins, .queues, .groups, .bldc, .axes, .power, .sup,
    .lockbox, .net, .can, .sec, .trail, .standbyDue, .sleepLt, .metNote, .lastMet, .metSilent, .metView, .metViewAt,
    .tag, .sleepHash, .waking, .resetLt, .resetReq, .lane, .flight, .hot, .free]) (h : State.Same k a s) :
    ∃ t, execSiteReset x1 x2 s = .next t ∧ State.Same k a t := by
  refine ⟨_, rfl, ?_⟩
  try lift_lets -underBinder
  repeat' first
    | with_reducible assumption | with_reducible exact hr | exact notMem_any hr hk (by decide +kernel)
    | (intro x
       first
         | (refine same_of (a := a) (k := k) x ?_ fun _ => ?_
            unfold x
            try lift_lets -underBinder
            rotate_left
            clear_value x)
         | clear_value x
         | skip)
    | lift_lets -underBinder | with_reducible apply State.settle_same | with_reducible apply State.writeObj_same
    | with_reducible apply siteResetSet_same | (split <;> try lift_lets -underBinder)

theorem execEngineReset_same {k : Part} {a s : State} {x1 x2} (hr : k.isObj = false) (hk : k ∉ [.vsys, .fw, .clock,
    .chans, .units, .slots, .engines, .dies, .descs, .adcs, .wins, .queues, .groups, .bldc, .axes, .power, .sup,
    .lockbox, .net, .can, .sec, .trail, .standbyDue, .sleepLt, .metNote, .lastMet, .metSilent, .metView, .metViewAt,
    .tag, .sleepHash, .waking, .resetLt, .resetReq, .lane, .flight, .hot, .free]) (h : State.Same k a s) :
    ∃ t, execEngineReset x1 x2 s = .next t ∧ State.Same k a t := by
  refine ⟨_, rfl, ?_⟩
  try lift_lets -underBinder
  repeat' first
    | with_reducible assumption | with_reducible exact hr | exact notMem_any hr hk (by decide +kernel)
    | (intro x
       first
         | (refine same_of (a := a) (k := k) x ?_ fun _ => ?_
            unfold x
            try lift_lets -underBinder
            rotate_left
            clear_value x)
         | clear_value x
         | skip)
    | lift_lets -underBinder | with_reducible apply State.settle_same | with_reducible apply State.writeObj_same
    | with_reducible apply engineResetSet_same | (split <;> try lift_lets -underBinder)

theorem execRecipeScrub_same {k : Part} {a s : State} {x1 x2} (hr : k.isObj = false) (hk : k ∉ [.dies, .trail]) (h :
    State.Same k a s) :
    ∃ t, execRecipeScrub x1 x2 s = .next t ∧ State.Same k a t := by
  refine ⟨_, rfl, ?_⟩
  try lift_lets -underBinder
  repeat' first
    | with_reducible assumption | with_reducible exact hr | exact notMem_any hr hk (by decide +kernel)
    | (intro x
       first
         | (refine same_of (a := a) (k := k) x ?_ fun _ => ?_
            unfold x
            try lift_lets -underBinder
            rotate_left
            clear_value x)
         | clear_value x
         | skip)
    | lift_lets -underBinder | with_reducible apply each_same | with_reducible apply State.wr_field
    | with_reducible apply State.wr_same | with_reducible apply State.noteAt_same
    | with_reducible apply State.setDie_same | (split <;> try lift_lets -underBinder)

theorem execBootRomCheck_same {k : Part} {a s : State} (hk : k ∉ [.reg 0x7034, .reg 0x7035, .sec]) (h : State.Same k
    a s) :
    ∃ t, execBootRomCheck s = .next t ∧ State.Same k a t := by
  refine ⟨_, rfl, ?_⟩
  try lift_lets -underBinder
  repeat' first
    | with_reducible assumption | exact notMem_of hk (by decide +kernel)
    | (intro x
       first
         | (refine same_of (a := a) (k := k) x ?_ fun _ => ?_
            unfold x
            try lift_lets -underBinder
            rotate_left
            clear_value x)
         | clear_value x
         | skip)
    | lift_lets -underBinder | with_reducible apply State.setSec_same | with_reducible apply State.bootOther_same
    | (split <;> try lift_lets -underBinder)

theorem execResidentFirmwareStart_same {k : Part} {a s : State} (hr : k.isObj = false) (hk : k ∉ [.fw, .units,
    .slots, .dies, .net, .can, .sec, .trail, .metNote, .lastMet, .lane, .flight]) (h : State.Same k a s) :
    ∃ t, execResidentFirmwareStart s = .next t ∧ State.Same k a t := by
  refine ⟨_, rfl, ?_⟩
  try lift_lets -underBinder
  repeat' first
    | with_reducible assumption | with_reducible exact hr | exact notMem_any hr hk (by decide +kernel)
    | (intro x
       first
         | (refine same_of (a := a) (k := k) x ?_ fun _ => ?_
            unfold x
            try lift_lets -underBinder
            rotate_left
            clear_value x)
         | clear_value x
         | skip)
    | lift_lets -underBinder | with_reducible apply State.startFirmware_same
    | with_reducible apply State.bootOther_same | (split <;> try lift_lets -underBinder)

theorem execHingeCTraining_same {k : Part} {a s : State} {x1 x2} (hk : k ∉ [.reg 0x1200, .reg 0x1202, .reg 0x6000,
    .reg 0x7032, .reg 0x7050, .blob 0x7033, .dies, .sec, .trail]) (h : State.Same k a s) :
    ∃ t, execHingeCTraining x1 x2 s = .next t ∧ State.Same k a t := by
  refine ⟨_, rfl, ?_⟩
  try lift_lets -underBinder
  repeat' first
    | with_reducible assumption | exact notMem_of hk (by decide +kernel)
    | (intro x
       first
         | (refine same_of (a := a) (k := k) x ?_ fun _ => ?_
            unfold x
            try lift_lets -underBinder
            rotate_left
            clear_value x)
         | clear_value x
         | skip)
    | lift_lets -underBinder | with_reducible apply State.phase_same | with_reducible apply State.setDie_same
    | with_reducible apply State.failSite_same | (split <;> try lift_lets -underBinder)

theorem execQcfwCheck_same {k : Part} {a s : State} {x1} (hr : k.isObj = false) (hk : k ∉ [.units, .slots, .dies,
    .sec, .trail]) (h : State.Same k a s) :
    ∃ t, execQcfwCheck x1 s = .next t ∧ State.Same k a t := by
  refine ⟨_, rfl, ?_⟩
  try lift_lets -underBinder
  repeat' first
    | with_reducible assumption | with_reducible exact hr | exact notMem_any hr hk (by decide +kernel)
    | (intro x
       first
         | (refine same_of (a := a) (k := k) x ?_ fun _ => ?_
            unfold x
            try lift_lets -underBinder
            rotate_left
            clear_value x)
         | clear_value x
         | skip)
    | lift_lets -underBinder | with_reducible apply State.siteUp_same | with_reducible apply State.failSite_same
    | (split <;> try lift_lets -underBinder)

theorem execDriverArming_same {k : Part} {a s : State} {x1} (hk : k ∉ [.dies, .trail]) (h : State.Same k a s) :
    ∃ t, execDriverArming x1 s = .next t ∧ State.Same k a t := by
  refine ⟨_, rfl, ?_⟩
  try lift_lets -underBinder
  repeat' first
    | with_reducible assumption | exact notMem_of hk (by decide +kernel)
    | (intro x
       first
         | (refine same_of (a := a) (k := k) x ?_ fun _ => ?_
            unfold x
            try lift_lets -underBinder
            rotate_left
            clear_value x)
         | clear_value x
         | skip)
    | lift_lets -underBinder | with_reducible apply State.sendTest_same | with_reducible apply State.openCorr_same
    | with_reducible apply State.setDie_same | (split <;> try lift_lets -underBinder)

theorem execEchoTimeout_same {k : Part} {a s : State} {x1} (hk : k ∉ [.reg 0x3050, .reg 0x4000, .reg 0x6000, .dies,
    .power, .trail]) (h : State.Same k a s) :
    ∃ t, execEchoTimeout x1 s = .next t ∧ State.Same k a t := by
  refine ⟨_, rfl, ?_⟩
  try lift_lets -underBinder
  repeat' first
    | with_reducible assumption | exact notMem_of hk (by decide +kernel)
    | (intro x
       first
         | (refine same_of (a := a) (k := k) x ?_ fun _ => ?_
            unfold x
            try lift_lets -underBinder
            rotate_left
            clear_value x)
         | clear_value x
         | skip)
    | lift_lets -underBinder | with_reducible apply State.setDie_same | with_reducible apply State.setHold_same
    | with_reducible apply State.supFault_same | with_reducible apply State.setPower_same
    | with_reducible apply State.pathFailed_same | (split <;> try lift_lets -underBinder)

theorem execHingeCReplay_same {k : Part} {a s : State} {x1 x2 x3 x4} (hk : k ∉ [.reg 0x6000, .dies, .trail]) (h :
    State.Same k a s) :
    ∃ t, execHingeCReplay x1 x2 x3 x4 s = .next t ∧ State.Same k a t := by
  refine ⟨_, rfl, ?_⟩
  try lift_lets -underBinder
  repeat' first
    | with_reducible assumption | exact notMem_of hk (by decide +kernel)
    | (intro x
       first
         | (refine same_of (a := a) (k := k) x ?_ fun _ => ?_
            unfold x
            try lift_lets -underBinder
            rotate_left
            clear_value x)
         | clear_value x
         | skip)
    | lift_lets -underBinder | with_reducible apply State.endReplay_same | with_reducible apply State.onLink_same
    | with_reducible apply each_same | with_reducible apply State.deliver_same
    | with_reducible apply State.openReplay_same | (split <;> try lift_lets -underBinder)

theorem execHingeCLinkFailed_same {k : Part} {a s : State} {x1 x2} (hk : k ∉ [.reg 0x1200, .reg 0x3104, .reg 0x6000,
    .reg 0x6021, .chans, .dies, .trail, .lane, .flight]) (h : State.Same k a s) :
    ∃ t, execHingeCLinkFailed x1 x2 s = .next t ∧ State.Same k a t := by
  refine ⟨_, rfl, ?_⟩
  try lift_lets -underBinder
  repeat' first
    | with_reducible assumption | exact notMem_of hk (by decide +kernel)
    | (intro x
       first
         | (refine same_of (a := a) (k := k) x ?_ fun _ => ?_
            unfold x
            try lift_lets -underBinder
            rotate_left
            clear_value x)
         | clear_value x
         | skip)
    | lift_lets -underBinder | with_reducible apply State.onLink_same | with_reducible apply State.endAgain_same
    | with_reducible apply State.endReplay_same | with_reducible apply State.loseDie_same
    | (split <;> try lift_lets -underBinder)

theorem execLatchFrameSend_same {k : Part} {a s : State} {x1 x2} (hk : k ∉ [.dies]) (h : State.Same k a s) :
    ∃ t, execLatchFrameSend x1 x2 s = .next t ∧ State.Same k a t := by
  refine ⟨_, rfl, ?_⟩
  try lift_lets -underBinder
  repeat' first
    | with_reducible assumption | exact notMem_of hk (by decide +kernel)
    | (intro x
       first
         | (refine same_of (a := a) (k := k) x ?_ fun _ => ?_
            unfold x
            try lift_lets -underBinder
            rotate_left
            clear_value x)
         | clear_value x
         | skip)
    | lift_lets -underBinder | with_reducible apply State.onLink_same | (split <;> try lift_lets -underBinder)

theorem execHeartbeat_same {k : Part} {a s : State} {x1 x2} (hk : k ∉ [.reg 0x6000, .dies, .trail]) (h : State.Same
    k a s) :
    ∃ t, execHeartbeat x1 x2 s = .next t ∧ State.Same k a t := by
  refine ⟨_, rfl, ?_⟩
  try lift_lets -underBinder
  repeat' first
    | with_reducible assumption | exact notMem_of hk (by decide +kernel)
    | (intro x
       first
         | (refine same_of (a := a) (k := k) x ?_ fun _ => ?_
            unfold x
            try lift_lets -underBinder
            rotate_left
            clear_value x)
         | clear_value x
         | skip)
    | lift_lets -underBinder | with_reducible apply State.arriveFlit_same | (split <;> try lift_lets -underBinder)

theorem execHeartbeatTimeout_same {k : Part} {a s : State} {x1} (hk : k ∉ [.reg 0x1200, .reg 0x3104, .reg 0x6000,
    .reg 0x6021, .chans, .dies, .trail, .lane, .flight]) (h : State.Same k a s) :
    ∃ t, execHeartbeatTimeout x1 s = .next t ∧ State.Same k a t := by
  refine ⟨_, rfl, ?_⟩
  try lift_lets -underBinder
  repeat' first
    | with_reducible assumption | exact notMem_of hk (by decide +kernel)
    | (intro x
       first
         | (refine same_of (a := a) (k := k) x ?_ fun _ => ?_
            unfold x
            try lift_lets -underBinder
            rotate_left
            clear_value x)
         | clear_value x
         | skip)
    | lift_lets -underBinder | with_reducible apply State.openCorr_same | with_reducible apply State.loseDie_same
    | with_reducible apply State.cancelReplay_same | (split <;> try lift_lets -underBinder)

theorem execDieWatchdog_same {k : Part} {a s : State} {x1 x2} (hk : k ∉ [.reg 0x2402, .reg 0x2444, .reg 0x3101, .reg
    0x6000, .reg 0x6010, .reg 0x6012, .chans, .units, .slots, .engines, .dies, .trail, .lane, .flight]) (h :
    State.Same k a s) :
    ∃ t, execDieWatchdog x1 x2 s = .next t ∧ State.Same k a t := by
  refine ⟨_, rfl, ?_⟩
  try lift_lets -underBinder
  repeat' first
    | with_reducible assumption | exact notMem_of hk (by decide +kernel)
    | (intro x
       first
         | (refine same_of (a := a) (k := k) x ?_ fun _ => ?_
            unfold x
            try lift_lets -underBinder
            rotate_left
            clear_value x)
         | clear_value x
         | skip)
    | lift_lets -underBinder | with_reducible apply State.setDie_same | with_reducible apply State.openCorr_same
    | with_reducible apply each_same | with_reducible apply State.latchOne_same
    | with_reducible apply State.latchDab_same | (split <;> try lift_lets -underBinder)

theorem execSiteRecovery_same {k : Part} {a s : State} {x1} (hr : k.isObj = false) (hk : k ∉ [.chans, .units,
    .slots, .engines, .dies, .descs, .adcs, .trail, .lane, .flight]) (h : State.Same k a s) :
    ∃ t, execSiteRecovery x1 s = .next t ∧ State.Same k a t := by
  refine ⟨_, rfl, ?_⟩
  try lift_lets -underBinder
  repeat' first
    | with_reducible assumption | with_reducible exact hr | exact notMem_any hr hk (by decide +kernel)
    | (intro x
       first
         | (refine same_of (a := a) (k := k) x ?_ fun _ => ?_
            unfold x
            try lift_lets -underBinder
            rotate_left
            clear_value x)
         | clear_value x
         | skip)
    | lift_lets -underBinder | with_reducible apply State.recoverSite_same | (split <;> try lift_lets -underBinder)

theorem execMetrologyLinkSilent_same {k : Part} {a s : State} (hk : k ∉ [.reg 0x1202, .reg 0x6000, .dies, .trail,
    .metSilent]) (h : State.Same k a s) :
    ∃ t, execMetrologyLinkSilent s = .next t ∧ State.Same k a t := by
  refine ⟨_, rfl, ?_⟩
  try lift_lets -underBinder
  repeat' first
    | with_reducible assumption | exact notMem_of hk (by decide +kernel)
    | (intro x
       first
         | (refine same_of (a := a) (k := k) x ?_ fun _ => ?_
            unfold x
            try lift_lets -underBinder
            rotate_left
            clear_value x)
         | clear_value x
         | skip)
    | lift_lets -underBinder | with_reducible apply State.note_same | with_reducible apply State.wr_same
    | (split <;> try lift_lets -underBinder) | with_reducible apply same_metSilent

theorem execStreamLoss_same {k : Part} {a s : State} {x1} (hk : k ∉ [.qm, .free]) (h : State.Same k a s) :
    ∃ t, execStreamLoss x1 s = .next t ∧ State.Same k a t := by
  refine ⟨_, rfl, ?_⟩
  try lift_lets -underBinder
  repeat' first
    | with_reducible assumption | exact notMem_of hk (by decide +kernel)
    | (intro x
       first
         | (refine same_of (a := a) (k := k) x ?_ fun _ => ?_
            unfold x
            try lift_lets -underBinder
            rotate_left
            clear_value x)
         | clear_value x
         | skip)
    | lift_lets -underBinder | with_reducible apply State.releaseHeld_same | with_reducible apply State.mark_same
    | with_reducible apply State.onQm_same | (split <;> try lift_lets -underBinder)

theorem execStreamReturn_same {k : Part} {a s : State} {x1} (hk : k ∉ [.qm]) (h : State.Same k a s) :
    ∃ t, execStreamReturn x1 s = .next t ∧ State.Same k a t := by
  refine ⟨_, rfl, ?_⟩
  try lift_lets -underBinder
  repeat' first
    | with_reducible assumption | exact notMem_of hk (by decide +kernel)
    | (intro x
       first
         | (refine same_of (a := a) (k := k) x ?_ fun _ => ?_
            unfold x
            try lift_lets -underBinder
            rotate_left
            clear_value x)
         | clear_value x
         | skip)
    | lift_lets -underBinder | with_reducible apply State.unmark_same | with_reducible apply State.onQm_same
    | (split <;> try lift_lets -underBinder)

theorem execDcovComparator_same {k : Part} {a s : State} {x1 x2 x3} (hk : k ∉ [.reg 0x1200, .reg 0x1210, .reg
    0x2402, .reg 0x2444, .reg 0x2803, .reg 0x2810, .reg 0x3101, .reg 0x6000, .reg 0x6010, .reg 0x6012, .chans,
    .units, .slots, .engines, .dies, .trail, .lane, .flight]) (h : State.Same k a s) :
    ∃ t, execDcovComparator x1 x2 x3 s = .next t ∧ State.Same k a t := by
  refine ⟨_, rfl, ?_⟩
  try lift_lets -underBinder
  repeat' first
    | with_reducible assumption | exact notMem_of hk (by decide +kernel)
    | (intro x
       first
         | (refine same_of (a := a) (k := k) x ?_ fun _ => ?_
            unfold x
            try lift_lets -underBinder
            rotate_left
            clear_value x)
         | clear_value x
         | skip)
    | lift_lets -underBinder | with_reducible apply State.arrives_same | with_reducible apply State.assertSource_same
    | (split <;> try lift_lets -underBinder)

theorem execDcLinkAboveOv2_same {k : Part} {a s : State} {x1 x2 x3} (hk : k ∉ [.reg 0x1200, .reg 0x1210, .reg
    0x2402, .reg 0x2444, .reg 0x2803, .reg 0x2810, .reg 0x3101, .reg 0x6000, .reg 0x6010, .reg 0x6012, .chans,
    .units, .slots, .engines, .dies, .trail, .lane, .flight]) (h : State.Same k a s) :
    ∃ t, execDcLinkAboveOv2 x1 x2 x3 s = .next t ∧ State.Same k a t := by
  refine ⟨_, rfl, ?_⟩
  try lift_lets -underBinder
  repeat' first
    | with_reducible assumption | exact notMem_of hk (by decide +kernel)
    | (intro x
       first
         | (refine same_of (a := a) (k := k) x ?_ fun _ => ?_
            unfold x
            try lift_lets -underBinder
            rotate_left
            clear_value x)
         | clear_value x
         | skip)
    | lift_lets -underBinder | with_reducible apply State.arrives_same | with_reducible apply State.assertSource_same
    | (split <;> try lift_lets -underBinder)

theorem execSafetyStop_same {k : Part} {a s : State} {x1 x2 x3} (hk : k ∉ [.reg 0x1200, .reg 0x1210, .reg 0x2402,
    .reg 0x2444, .reg 0x2803, .reg 0x2810, .reg 0x3101, .reg 0x6000, .reg 0x6010, .reg 0x6012, .chans, .units,
    .slots, .engines, .dies, .trail, .lane, .flight]) (h : State.Same k a s) :
    ∃ t, execSafetyStop x1 x2 x3 s = .next t ∧ State.Same k a t := by
  refine ⟨_, rfl, ?_⟩
  try lift_lets -underBinder
  repeat' first
    | with_reducible assumption | exact notMem_of hk (by decide +kernel)
    | (intro x
       first
         | (refine same_of (a := a) (k := k) x ?_ fun _ => ?_
            unfold x
            try lift_lets -underBinder
            rotate_left
            clear_value x)
         | clear_value x
         | skip)
    | lift_lets -underBinder | with_reducible apply State.arrives_same | with_reducible apply State.assertSource_same
    | (split <;> try lift_lets -underBinder)

theorem execSegmentStop_same {k : Part} {a s : State} {x1 x2 x3} (hk : k ∉ [.reg 0x1200, .reg 0x1210, .reg 0x2402,
    .reg 0x2444, .reg 0x2803, .reg 0x2810, .reg 0x3101, .reg 0x6000, .reg 0x6010, .reg 0x6012, .chans, .units,
    .slots, .engines, .dies, .trail, .lane, .flight]) (h : State.Same k a s) :
    ∃ t, execSegmentStop x1 x2 x3 s = .next t ∧ State.Same k a t := by
  refine ⟨_, rfl, ?_⟩
  try lift_lets -underBinder
  repeat' first
    | with_reducible assumption | exact notMem_of hk (by decide +kernel)
    | (intro x
       first
         | (refine same_of (a := a) (k := k) x ?_ fun _ => ?_
            unfold x
            try lift_lets -underBinder
            rotate_left
            clear_value x)
         | clear_value x
         | skip)
    | lift_lets -underBinder | with_reducible apply State.arrives_same | with_reducible apply State.assertSource_same
    | (split <;> try lift_lets -underBinder)

theorem execSegmentStopRequest_same {k : Part} {a s : State} {x1 x2 x3} (hk : k ∉ [.reg 0x1200, .reg 0x1210, .reg
    0x3101, .reg 0x6000, .units, .dies, .trail]) (h : State.Same k a s) :
    ∃ t, execSegmentStopRequest x1 x2 x3 s = .next t ∧ State.Same k a t := by
  refine ⟨_, rfl, ?_⟩
  try lift_lets -underBinder
  repeat' first
    | with_reducible assumption | exact notMem_of hk (by decide +kernel)
    | (intro x
       first
         | (refine same_of (a := a) (k := k) x ?_ fun _ => ?_
            unfold x
            try lift_lets -underBinder
            rotate_left
            clear_value x)
         | clear_value x
         | skip)
    | lift_lets -underBinder | with_reducible apply State.arrives_same | with_reducible apply State.tagBit_same
    | (split <;> try lift_lets -underBinder)

theorem execRegenerationInhibit_same {k : Part} {a s : State} {x1 x2 x3} (hk : k ∉ [.reg 0x1200, .reg 0x1210, .reg
    0x3101, .reg 0x6000, .units, .dies, .trail]) (h : State.Same k a s) :
    ∃ t, execRegenerationInhibit x1 x2 x3 s = .next t ∧ State.Same k a t := by
  refine ⟨_, rfl, ?_⟩
  try lift_lets -underBinder
  repeat' first
    | with_reducible assumption | exact notMem_of hk (by decide +kernel)
    | (intro x
       first
         | (refine same_of (a := a) (k := k) x ?_ fun _ => ?_
            unfold x
            try lift_lets -underBinder
            rotate_left
            clear_value x)
         | clear_value x
         | skip)
    | lift_lets -underBinder | with_reducible apply State.arrives_same | with_reducible apply State.tagBit_same
    | (split <;> try lift_lets -underBinder)

theorem execDoorLimit_same {k : Part} {a s : State} {x1 x2 x3} (hk : k ∉ [.reg 0x1200, .reg 0x1210, .reg 0x3101,
    .reg 0x6000, .units, .dies, .trail]) (h : State.Same k a s) :
    ∃ t, execDoorLimit x1 x2 x3 s = .next t ∧ State.Same k a t := by
  refine ⟨_, rfl, ?_⟩
  try lift_lets -underBinder
  repeat' first
    | with_reducible assumption | exact notMem_of hk (by decide +kernel)
    | (intro x
       first
         | (refine same_of (a := a) (k := k) x ?_ fun _ => ?_
            unfold x
            try lift_lets -underBinder
            rotate_left
            clear_value x)
         | clear_value x
         | skip)
    | lift_lets -underBinder | with_reducible apply State.arrives_same | with_reducible apply State.setDie_same
    | (split <;> try lift_lets -underBinder)

theorem execRegenerationRelease_same {k : Part} {a s : State} {x1 x2 x3} (hk : k ∉ [.reg 0x1200, .reg 0x1210, .reg
    0x3101, .reg 0x6000, .units, .dies, .trail]) (h : State.Same k a s) :
    ∃ t, execRegenerationRelease x1 x2 x3 s = .next t ∧ State.Same k a t := by
  refine ⟨_, rfl, ?_⟩
  try lift_lets -underBinder
  repeat' first
    | with_reducible assumption | exact notMem_of hk (by decide +kernel)
    | (intro x
       first
         | (refine same_of (a := a) (k := k) x ?_ fun _ => ?_
            unfold x
            try lift_lets -underBinder
            rotate_left
            clear_value x)
         | clear_value x
         | skip)
    | lift_lets -underBinder | with_reducible apply State.arrives_same | with_reducible apply State.tagBit_same
    | (split <;> try lift_lets -underBinder)

theorem execDoorRelease_same {k : Part} {a s : State} {x1 x2 x3} (hk : k ∉ [.reg 0x1200, .reg 0x1210, .reg 0x3101,
    .reg 0x6000, .chans, .units, .dies, .trail]) (h : State.Same k a s) :
    ∃ t, execDoorRelease x1 x2 x3 s = .next t ∧ State.Same k a t := by
  refine ⟨_, rfl, ?_⟩
  try lift_lets -underBinder
  repeat' first
    | with_reducible assumption | exact notMem_of hk (by decide +kernel)
    | (intro x
       first
         | (refine same_of (a := a) (k := k) x ?_ fun _ => ?_
            unfold x
            try lift_lets -underBinder
            rotate_left
            clear_value x)
         | clear_value x
         | skip)
    | lift_lets -underBinder | with_reducible apply State.arrives_same | with_reducible apply each_same
    | with_reducible apply State.setChan_same | with_reducible apply State.setDie_same
    | (split <;> try lift_lets -underBinder)

theorem execRunRelease_same {k : Part} {a s : State} {x1 x2 x3} (hk : k ∉ [.reg 0x1200, .reg 0x1210, .reg 0x2803,
    .reg 0x3101, .reg 0x6000, .units, .dies, .trail]) (h : State.Same k a s) :
    ∃ t, execRunRelease x1 x2 x3 s = .next t ∧ State.Same k a t := by
  refine ⟨_, rfl, ?_⟩
  try lift_lets -underBinder
  repeat' first
    | with_reducible assumption | exact notMem_of hk (by decide +kernel)
    | (intro x
       first
         | (refine same_of (a := a) (k := k) x ?_ fun _ => ?_
            unfold x
            try lift_lets -underBinder
            rotate_left
            clear_value x)
         | clear_value x
         | skip)
    | lift_lets -underBinder | with_reducible apply State.arrives_same | with_reducible apply each_same
    | with_reducible apply State.deassertSource_same | with_reducible apply State.tagBit_same
    | (split <;> try lift_lets -underBinder)

theorem execTest_same {k : Part} {a s : State} {x1 x2 x3} (hk : k ∉ [.reg 0x1200, .reg 0x1210, .reg 0x3101, .reg
    0x6000, .units, .dies, .trail]) (h : State.Same k a s) :
    ∃ t, execTest x1 x2 x3 s = .next t ∧ State.Same k a t := by
  refine ⟨_, rfl, ?_⟩
  try lift_lets -underBinder
  repeat' first
    | with_reducible assumption | exact notMem_of hk (by decide +kernel)
    | (intro x
       first
         | (refine same_of (a := a) (k := k) x ?_ fun _ => ?_
            unfold x
            try lift_lets -underBinder
            rotate_left
            clear_value x)
         | clear_value x
         | skip)
    | lift_lets -underBinder | with_reducible apply State.arrives_same | with_reducible apply State.raiseFrame_same
    | (split <;> try lift_lets -underBinder)

theorem execTestEcho_same {k : Part} {a s : State} {x1 x2 x3} (hk : k ∉ [.reg 0x1202, .reg 0x2800, .reg 0x4000, .reg
    0x6000, .reg 0x7032, .reg 0x7050, .blob 0x7033, .dies, .sec, .trail]) (h : State.Same k a s) :
    ∃ t, execTestEcho x1 x2 x3 s = .next t ∧ State.Same k a t := by
  refine ⟨_, rfl, ?_⟩
  try lift_lets -underBinder
  repeat' first
    | with_reducible assumption | exact notMem_of hk (by decide +kernel)
    | (intro x
       first
         | (refine same_of (a := a) (k := k) x ?_ fun _ => ?_
            unfold x
            try lift_lets -underBinder
            rotate_left
            clear_value x)
         | clear_value x
         | skip)
    | lift_lets -underBinder | with_reducible apply State.hubFrame_same | with_reducible apply State.setDie_same
    | with_reducible apply State.checkReady_same | with_reducible apply State.testsDone_same
    | with_reducible apply State.wr_same | (split <;> try lift_lets -underBinder)

theorem execSegmentBusFault_same {k : Part} {a s : State} {x1 x2 x3} (hk : k ∉ [.reg 0x3104, .reg 0x6000, .dies,
    .trail]) (h : State.Same k a s) :
    ∃ t, execSegmentBusFault x1 x2 x3 s = .next t ∧ State.Same k a t := by
  refine ⟨_, rfl, ?_⟩
  try lift_lets -underBinder
  repeat' first
    | with_reducible assumption | exact notMem_of hk (by decide +kernel)
    | (intro x
       first
         | (refine same_of (a := a) (k := k) x ?_ fun _ => ?_
            unfold x
            try lift_lets -underBinder
            rotate_left
            clear_value x)
         | clear_value x
         | skip)
    | lift_lets -underBinder | with_reducible apply State.hubFrame_same | with_reducible apply State.markNote_same
    | with_reducible apply State.showMarks_same | with_reducible apply State.setDie_same
    | (split <;> try lift_lets -underBinder)

theorem execOverTemperature_same {k : Part} {a s : State} {x1 x2 x3} (hk : k ∉ [.reg 0x3050, .reg 0x341A, .reg
    0x344E, .reg 0x344F, .reg 0x3450, .reg 0x4000, .reg 0x4010, .reg 0x4014, .reg 0x4021, .reg 0x4023, .reg 0x6000,
    .units, .dies, .bldc, .axes, .power, .sup, .trail]) (h : State.Same k a s) :
    ∃ t, execOverTemperature x1 x2 x3 s = .next t ∧ State.Same k a t := by
  refine ⟨_, rfl, ?_⟩
  try lift_lets -underBinder
  repeat' first
    | with_reducible assumption | exact notMem_of hk (by decide +kernel)
    | (intro x
       first
         | (refine same_of (a := a) (k := k) x ?_ fun _ => ?_
            unfold x
            try lift_lets -underBinder
            rotate_left
            clear_value x)
         | clear_value x
         | skip)
    | lift_lets -underBinder | with_reducible apply State.hubFrame_same | with_reducible apply State.setSup_same
    | with_reducible apply State.fireAlone_same | (split <;> try lift_lets -underBinder)

theorem execClockLost_same {k : Part} {a s : State} {x1 x2 x3} (hk : k ∉ [.reg 0x3104, .reg 0x6000, .dies, .trail])
    (h : State.Same k a s) :
    ∃ t, execClockLost x1 x2 x3 s = .next t ∧ State.Same k a t := by
  refine ⟨_, rfl, ?_⟩
  try lift_lets -underBinder
  repeat' first
    | with_reducible assumption | exact notMem_of hk (by decide +kernel)
    | (intro x
       first
         | (refine same_of (a := a) (k := k) x ?_ fun _ => ?_
            unfold x
            try lift_lets -underBinder
            rotate_left
            clear_value x)
         | clear_value x
         | skip)
    | lift_lets -underBinder | with_reducible apply State.hubFrame_same | with_reducible apply State.markNote_same
    | with_reducible apply State.showMarks_same | with_reducible apply State.setDie_same
    | (split <;> try lift_lets -underBinder)

theorem execDabStageLatched_same {k : Part} {a s : State} {x1 x2 x3} (hk : k ∉ [.reg 0x3104, .reg 0x6000, .dies,
    .trail]) (h : State.Same k a s) :
    ∃ t, execDabStageLatched x1 x2 x3 s = .next t ∧ State.Same k a t := by
  refine ⟨_, rfl, ?_⟩
  try lift_lets -underBinder
  repeat' first
    | with_reducible assumption | exact notMem_of hk (by decide +kernel)
    | (intro x
       first
         | (refine same_of (a := a) (k := k) x ?_ fun _ => ?_
            unfold x
            try lift_lets -underBinder
            rotate_left
            clear_value x)
         | clear_value x
         | skip)
    | lift_lets -underBinder | with_reducible apply State.hubFrame_same | with_reducible apply State.wr_same
    | with_reducible apply State.raise_same | (split <;> try lift_lets -underBinder)

theorem execTrailEntry_same {k : Part} {a s : State} {x1} (hk : k ∉ [.reg 0x6000, .dies, .trail]) (h : State.Same k
    a s) :
    ∃ t, execTrailEntry x1 s = .next t ∧ State.Same k a t := by
  refine ⟨_, rfl, ?_⟩
  try lift_lets -underBinder
  repeat' first
    | with_reducible assumption | exact notMem_of hk (by decide +kernel)
    | (intro x
       first
         | (refine same_of (a := a) (k := k) x ?_ fun _ => ?_
            unfold x
            try lift_lets -underBinder
            rotate_left
            clear_value x)
         | clear_value x
         | skip)
    | lift_lets -underBinder | with_reducible apply State.arriveFlit_same | (split <;> try lift_lets -underBinder)

theorem execTrailFreeze_same {k : Part} {a s : State} (hk : k ∉ [.reg 0x6000, .trail]) (h : State.Same k a s) :
    ∃ t, execTrailFreeze s = .next t ∧ State.Same k a t := by
  refine ⟨_, rfl, ?_⟩
  try lift_lets -underBinder
  repeat' first
    | with_reducible assumption | exact notMem_of hk (by decide +kernel)
    | (intro x
       first
         | (refine same_of (a := a) (k := k) x ?_ fun _ => ?_
            unfold x
            try lift_lets -underBinder
            rotate_left
            clear_value x)
         | clear_value x
         | skip)
    | lift_lets -underBinder | with_reducible apply State.freeze_same | (split <;> try lift_lets -underBinder)

theorem execIdentify_same {k : Part} {a s : State} (hk : k ∉ [.reg 0x1202, .reg 0x6000, .dies, .qm, .trail,
    .metNote, .lastMet, .metSilent, .metView, .metViewAt, .tag, .lane, .flight, .free]) (h : State.Same k a s) :
    ∃ t, execIdentify s = .next t ∧ State.Same k a t := by
  refine ⟨_, rfl, ?_⟩
  try lift_lets -underBinder
  repeat' first
    | with_reducible assumption | exact notMem_of hk (by decide +kernel)
    | (intro x
       first
         | (refine same_of (a := a) (k := k) x ?_ fun _ => ?_
            unfold x
            try lift_lets -underBinder
            rotate_left
            clear_value x)
         | clear_value x
         | skip)
    | lift_lets -underBinder | with_reducible apply State.flushMail_same | with_reducible apply State.metBack_same
    | with_reducible apply State.mailReply_same | with_reducible apply State.metAbsent_same
    | (split <;> try lift_lets -underBinder)

theorem execMailboxRead_same {k : Part} {a s : State} {x1 x2 x3} (hk : k ∉ [.qm, .lastMet, .metView, .metViewAt,
    .tag, .lane, .flight, .free]) (h : State.Same k a s) :
    ∃ t, execMailboxRead x1 x2 x3 s = .next t ∧ State.Same k a t := by
  refine ⟨_, rfl, ?_⟩
  try lift_lets -underBinder
  repeat' first
    | with_reducible assumption | exact notMem_of hk (by decide +kernel)
    | (intro x
       first
         | (refine same_of (a := a) (k := k) x ?_ fun _ => ?_
            unfold x
            try lift_lets -underBinder
            rotate_left
            clear_value x)
         | clear_value x
         | skip)
    | lift_lets -underBinder | with_reducible apply State.flushMail_same | with_reducible apply State.mailReply_same
    | (split <;> try lift_lets -underBinder)

theorem execMailboxSubscribe_same {k : Part} {a s : State} {x1} (hk : k ∉ [.qm, .lastMet, .metView, .metViewAt,
    .tag, .lane, .flight, .free]) (h : State.Same k a s) :
    ∃ t, execMailboxSubscribe x1 s = .next t ∧ State.Same k a t := by
  refine ⟨_, rfl, ?_⟩
  try lift_lets -underBinder
  repeat' first
    | with_reducible assumption | exact notMem_of hk (by decide +kernel)
    | (intro x
       first
         | (refine same_of (a := a) (k := k) x ?_ fun _ => ?_
            unfold x
            try lift_lets -underBinder
            rotate_left
            clear_value x)
         | clear_value x
         | skip)
    | lift_lets -underBinder | with_reducible apply State.request_same | (split <;> try lift_lets -underBinder)

theorem execAckRecords_same {k : Part} {a s : State} {x1} (hk : k ∉ [.qm, .lastMet, .metView, .metViewAt, .tag,
    .lane, .flight, .free]) (h : State.Same k a s) :
    ∃ t, execAckRecords x1 s = .next t ∧ State.Same k a t := by
  refine ⟨_, rfl, ?_⟩
  try lift_lets -underBinder
  repeat' first
    | with_reducible assumption | exact notMem_of hk (by decide +kernel)
    | (intro x
       first
         | (refine same_of (a := a) (k := k) x ?_ fun _ => ?_
            unfold x
            try lift_lets -underBinder
            rotate_left
            clear_value x)
         | clear_value x
         | skip)
    | lift_lets -underBinder | with_reducible apply State.request_same | (split <;> try lift_lets -underBinder)

theorem execCellId_same {k : Part} {a s : State} {x1 x2} (hk : k ∉ [.qm, .lastMet, .metView, .metViewAt, .tag,
    .lane, .flight, .free]) (h : State.Same k a s) :
    ∃ t, execCellId x1 x2 s = .next t ∧ State.Same k a t := by
  refine ⟨_, rfl, ?_⟩
  try lift_lets -underBinder
  repeat' first
    | with_reducible assumption | exact notMem_of hk (by decide +kernel)
    | (intro x
       first
         | (refine same_of (a := a) (k := k) x ?_ fun _ => ?_
            unfold x
            try lift_lets -underBinder
            rotate_left
            clear_value x)
         | clear_value x
         | skip)
    | lift_lets -underBinder | with_reducible apply State.request_same | (split <;> try lift_lets -underBinder)

theorem execStepStart_same {k : Part} {a s : State} {x1 x2 x3 x4 x5 x6 x7 x8 x9 x10 x11} (hk : k ∉ [.qm, .lastMet,
    .metView, .metViewAt, .tag, .lane, .flight, .free]) (h : State.Same k a s) :
    ∃ t, execStepStart x1 x2 x3 x4 x5 x6 x7 x8 x9 x10 x11 s = .next t ∧ State.Same k a t := by
  refine ⟨_, rfl, ?_⟩
  try lift_lets -underBinder
  repeat' first
    | with_reducible assumption | exact notMem_of hk (by decide +kernel)
    | (intro x
       first
         | (refine same_of (a := a) (k := k) x ?_ fun _ => ?_
            unfold x
            try lift_lets -underBinder
            rotate_left
            clear_value x)
         | clear_value x
         | skip)
    | lift_lets -underBinder | with_reducible apply State.request_same | (split <;> try lift_lets -underBinder)

theorem execStepClose_same {k : Part} {a s : State} {x1 x2 x3 x4} (hk : k ∉ [.qm, .lastMet, .metView, .metViewAt,
    .tag, .lane, .flight, .free]) (h : State.Same k a s) :
    ∃ t, execStepClose x1 x2 x3 x4 s = .next t ∧ State.Same k a t := by
  refine ⟨_, rfl, ?_⟩
  try lift_lets -underBinder
  repeat' first
    | with_reducible assumption | exact notMem_of hk (by decide +kernel)
    | (intro x
       first
         | (refine same_of (a := a) (k := k) x ?_ fun _ => ?_
            unfold x
            try lift_lets -underBinder
            rotate_left
            clear_value x)
         | clear_value x
         | skip)
    | lift_lets -underBinder | with_reducible apply State.request_same | (split <;> try lift_lets -underBinder)

theorem execReqAdjustImageSegment_same {k : Part} {a s : State} {x1 x2} (hk : k ∉ [.reg 0x5441, .qm, .lastMet,
    .metView, .metViewAt, .tag, .lane, .flight, .free]) (h : State.Same k a s) :
    ∃ t, execReqAdjustImageSegment x1 x2 s = .next t ∧ State.Same k a t := by
  refine ⟨_, rfl, ?_⟩
  split
  · split
    · exact State.adjustReply_same (notMem_of hk (by decide +kernel)) (State.takeSegment_same (notMem_of hk (by decide +kernel))
        (State.flushMail_same (notMem_of hk (by decide +kernel)) h))
    · exact State.onQm_same (notMem_of hk (by decide +kernel)) h
  · exact h

theorem execEnterToken_same {k : Part} {a s : State} {x1} (hk : k ∉ [.reg 0x5441, .qm, .lastMet, .metView,
    .metViewAt, .tag, .lane, .flight, .free]) (h : State.Same k a s) :
    ∃ t, execEnterToken x1 s = .next t ∧ State.Same k a t := by
  refine ⟨_, rfl, ?_⟩
  try lift_lets -underBinder
  repeat' first
    | with_reducible assumption | exact notMem_of hk (by decide +kernel)
    | (intro x
       first
         | (refine same_of (a := a) (k := k) x ?_ fun _ => ?_
            unfold x
            try lift_lets -underBinder
            rotate_left
            clear_value x)
         | clear_value x
         | skip)
    | lift_lets -underBinder | with_reducible apply State.tokenIn_same | (split <;> try lift_lets -underBinder)

theorem execLeaveToken_same {k : Part} {a s : State} {x1} (hk : k ∉ [.reg 0x5441, .qm, .lastMet, .metView,
    .metViewAt, .tag, .lane, .flight, .free]) (h : State.Same k a s) :
    ∃ t, execLeaveToken x1 s = .next t ∧ State.Same k a t := by
  refine ⟨_, rfl, ?_⟩
  try lift_lets -underBinder
  repeat' first
    | with_reducible assumption | exact notMem_of hk (by decide +kernel)
    | (intro x
       first
         | (refine same_of (a := a) (k := k) x ?_ fun _ => ?_
            unfold x
            try lift_lets -underBinder
            rotate_left
            clear_value x)
         | clear_value x
         | skip)
    | lift_lets -underBinder | with_reducible apply State.tokenIn_same | (split <;> try lift_lets -underBinder)

theorem execAuditAcknowledge_same {k : Part} {a s : State} {x1} (hk : k ∉ [.reg 0x5441, .qm, .lastMet, .metView,
    .metViewAt, .tag, .lane, .flight, .free]) (h : State.Same k a s) :
    ∃ t, execAuditAcknowledge x1 s = .next t ∧ State.Same k a t := by
  refine ⟨_, rfl, ?_⟩
  try lift_lets -underBinder
  repeat' first
    | with_reducible assumption | exact notMem_of hk (by decide +kernel)
    | (intro x
       first
         | (refine same_of (a := a) (k := k) x ?_ fun _ => ?_
            unfold x
            try lift_lets -underBinder
            rotate_left
            clear_value x)
         | clear_value x
         | skip)
    | lift_lets -underBinder | with_reducible apply State.tokenIn_same | (split <;> try lift_lets -underBinder)

theorem execCalibrationWrite_same {k : Part} {a s : State} {x1} (hk : k ∉ [.reg 0x5441, .qm, .lastMet, .metView,
    .metViewAt, .tag, .lane, .flight, .free]) (h : State.Same k a s) :
    ∃ t, execCalibrationWrite x1 s = .next t ∧ State.Same k a t := by
  refine ⟨_, rfl, ?_⟩
  try lift_lets -underBinder
  repeat' first
    | with_reducible assumption | exact notMem_of hk (by decide +kernel)
    | (intro x
       first
         | (refine same_of (a := a) (k := k) x ?_ fun _ => ?_
            unfold x
            try lift_lets -underBinder
            rotate_left
            clear_value x)
         | clear_value x
         | skip)
    | lift_lets -underBinder | with_reducible apply State.tokenIn_same | (split <;> try lift_lets -underBinder)

theorem execAuthorityKeySet_same {k : Part} {a s : State} {x1} (hk : k ∉ [.reg 0x5441, .qm, .lastMet, .metView,
    .metViewAt, .tag, .lane, .flight, .free]) (h : State.Same k a s) :
    ∃ t, execAuthorityKeySet x1 s = .next t ∧ State.Same k a t := by
  refine ⟨_, rfl, ?_⟩
  try lift_lets -underBinder
  repeat' first
    | with_reducible assumption | exact notMem_of hk (by decide +kernel)
    | (intro x
       first
         | (refine same_of (a := a) (k := k) x ?_ fun _ => ?_
            unfold x
            try lift_lets -underBinder
            rotate_left
            clear_value x)
         | clear_value x
         | skip)
    | lift_lets -underBinder | with_reducible apply State.tokenIn_same | (split <;> try lift_lets -underBinder)

theorem execSoftwareAnnounce_same {k : Part} {a s : State} {x1} (hk : k ∉ [.reg 0x5441, .qm, .lastMet, .metView,
    .metViewAt, .tag, .lane, .flight, .free]) (h : State.Same k a s) :
    ∃ t, execSoftwareAnnounce x1 s = .next t ∧ State.Same k a t := by
  refine ⟨_, rfl, ?_⟩
  try lift_lets -underBinder
  repeat' first
    | with_reducible assumption | exact notMem_of hk (by decide +kernel)
    | (intro x
       first
         | (refine same_of (a := a) (k := k) x ?_ fun _ => ?_
            unfold x
            try lift_lets -underBinder
            rotate_left
            clear_value x)
         | clear_value x
         | skip)
    | lift_lets -underBinder | with_reducible apply State.tokenIn_same | (split <;> try lift_lets -underBinder)

theorem execBeacon_same {k : Part} {a s : State} {x1 x2 x3} (hk : k ∉ [.clock, .qm, .lastMet, .metView, .metViewAt,
    .tag, .lane, .flight, .free]) (h : State.Same k a s) :
    ∃ t, execBeacon x1 x2 x3 s = .next t ∧ State.Same k a t := by
  refine ⟨_, rfl, ?_⟩
  try lift_lets -underBinder
  repeat' first
    | with_reducible assumption | exact notMem_of hk (by decide +kernel)
    | (intro x
       first
         | (refine same_of (a := a) (k := k) x ?_ fun _ => ?_
            unfold x
            try lift_lets -underBinder
            rotate_left
            clear_value x)
         | clear_value x
         | skip)
    | lift_lets -underBinder | with_reducible apply State.takeBeacon_same | with_reducible apply State.ahead_same
    | (split <;> try lift_lets -underBinder)

theorem execMailboxFrameDiscard_same {k : Part} {a s : State} {x1} (hk : k ∉ [.qm]) (h : State.Same k a s) :
    ∃ t, execMailboxFrameDiscard x1 s = .next t ∧ State.Same k a t := by
  refine ⟨_, rfl, ?_⟩
  try lift_lets -underBinder
  repeat' first
    | with_reducible assumption | exact notMem_of hk (by decide +kernel)
    | (intro x
       first
         | (refine same_of (a := a) (k := k) x ?_ fun _ => ?_
            unfold x
            try lift_lets -underBinder
            rotate_left
            clear_value x)
         | clear_value x
         | skip)
    | lift_lets -underBinder | with_reducible apply State.onQm_same | (split <;> try lift_lets -underBinder)

theorem execQmRecordFrame_same {k : Part} {a s : State} {x1} (hk : k ∉ [.net, .lastMet, .metView, .metViewAt]) (h :
    State.Same k a s) :
    ∃ t, execQmRecordFrame x1 s = .next t ∧ State.Same k a t := by
  refine ⟨_, rfl, ?_⟩
  try lift_lets -underBinder
  repeat' first
    | with_reducible assumption | exact notMem_of hk (by decide +kernel)
    | (intro x
       first
         | (refine same_of (a := a) (k := k) x ?_ fun _ => ?_
            unfold x
            try lift_lets -underBinder
            rotate_left
            clear_value x)
         | clear_value x
         | skip)
    | lift_lets -underBinder | with_reducible apply State.heard_same | (split <;> try lift_lets -underBinder)
    | with_reducible apply same_net

theorem execQmBatchRecordFrame_same {k : Part} {a s : State} {x1} (hk : k ∉ [.net, .lastMet, .metView, .metViewAt])
    (h : State.Same k a s) :
    ∃ t, execQmBatchRecordFrame x1 s = .next t ∧ State.Same k a t := by
  refine ⟨_, rfl, ?_⟩
  try lift_lets -underBinder
  repeat' first
    | with_reducible assumption | exact notMem_of hk (by decide +kernel)
    | (intro x
       first
         | (refine same_of (a := a) (k := k) x ?_ fun _ => ?_
            unfold x
            try lift_lets -underBinder
            rotate_left
            clear_value x)
         | clear_value x
         | skip)
    | lift_lets -underBinder | with_reducible apply State.heard_same | (split <;> try lift_lets -underBinder)
    | with_reducible apply same_net

theorem execMirrorSet_same {k : Part} {a s : State} {x1} (hr : k.isObj = false) (hk : k ∉ [.chans, .lastMet,
    .metView, .metViewAt]) (h : State.Same k a s) :
    ∃ t, execMirrorSet x1 s = .next t ∧ State.Same k a t := by
  refine ⟨_, rfl, ?_⟩
  try lift_lets -underBinder
  repeat' first
    | with_reducible assumption | with_reducible exact hr | exact notMem_any hr hk (by decide +kernel)
    | (intro x
       first
         | (refine same_of (a := a) (k := k) x ?_ fun _ => ?_
            unfold x
            try lift_lets -underBinder
            rotate_left
            clear_value x)
         | clear_value x
         | skip)
    | lift_lets -underBinder | with_reducible apply each_same | with_reducible apply State.putMirror_same
    | with_reducible apply State.heard_same | (split <;> try lift_lets -underBinder)

theorem execMetrologyEvent_same {k : Part} {a s : State} {x1} (hk : k ∉ [.reg 0x1200, .reg 0x1210, .reg 0x2402, .reg
    0x2403, .reg 0x2406, .reg 0x2408, .reg 0x2444, .reg 0x3101, .reg 0x6000, .chans, .units, .slots, .dies, .groups,
    .qm, .trail, .lastMet, .metView, .metViewAt, .lane, .flight]) (h : State.Same k a s) :
    ∃ t, execMetrologyEvent x1 s = .next t ∧ State.Same k a t := by
  refine ⟨_, rfl, ?_⟩
  try lift_lets -underBinder
  repeat' first
    | with_reducible assumption | exact notMem_of hk (by decide +kernel)
    | (intro x
       first
         | (refine same_of (a := a) (k := k) x ?_ fun _ => ?_
            unfold x
            try lift_lets -underBinder
            rotate_left
            clear_value x)
         | clear_value x
         | skip)
    | lift_lets -underBinder | with_reducible apply State.takeEvent_same | with_reducible apply State.heard_same
    | with_reducible apply State.onQm_same | (split <;> try lift_lets -underBinder)

theorem execIntegratorSample_same {k : Part} {a s : State} {x1 x2 x3 x4 x5 x6} (hk : k ∉ [.qm, .free]) (h :
    State.Same k a s) :
    ∃ t, execIntegratorSample x1 x2 x3 x4 x5 x6 s = .next t ∧ State.Same k a t := by
  refine ⟨_, rfl, ?_⟩
  try lift_lets -underBinder
  repeat' first
    | with_reducible assumption | exact notMem_of hk (by decide +kernel)
    | (intro x
       first
         | (refine same_of (a := a) (k := k) x ?_ fun _ => ?_
            unfold x
            try lift_lets -underBinder
            rotate_left
            clear_value x)
         | clear_value x
         | skip)
    | lift_lets -underBinder | with_reducible apply State.fitInput_same | with_reducible apply State.releaseHeld_same
    | with_reducible apply State.takeSample_same | (split <;> try lift_lets -underBinder)

theorem execMirrorMeans_same {k : Part} {a s : State} {x1} (hk : k ∉ [.qm]) (h : State.Same k a s) :
    ∃ t, execMirrorMeans x1 s = .next t ∧ State.Same k a t := by
  refine ⟨_, rfl, ?_⟩
  try lift_lets -underBinder
  repeat' first
    | with_reducible assumption | exact notMem_of hk (by decide +kernel)
    | (intro x
       first
         | (refine same_of (a := a) (k := k) x ?_ fun _ => ?_
            unfold x
            try lift_lets -underBinder
            rotate_left
            clear_value x)
         | clear_value x
         | skip)
    | lift_lets -underBinder | with_reducible apply each_same | with_reducible apply State.formMirror_same
    | (split <;> try lift_lets -underBinder)

theorem execPeriodicRecord_same {k : Part} {a s : State} {x1} (hk : k ∉ [.qm, .free]) (h : State.Same k a s) :
    ∃ t, execPeriodicRecord x1 s = .next t ∧ State.Same k a t := by
  refine ⟨_, rfl, ?_⟩
  try lift_lets -underBinder
  repeat' first
    | with_reducible assumption | exact notMem_of hk (by decide +kernel)
    | (intro x
       first
         | (refine same_of (a := a) (k := k) x ?_ fun _ => ?_
            unfold x
            try lift_lets -underBinder
            rotate_left
            clear_value x)
         | clear_value x
         | skip)
    | lift_lets -underBinder | with_reducible apply State.doPeriodic_same | (split <;> try lift_lets -underBinder)

theorem execAcRecord_same {k : Part} {a s : State} {x1} (hk : k ∉ [.qm]) (h : State.Same k a s) :
    ∃ t, execAcRecord x1 s = .next t ∧ State.Same k a t := by
  refine ⟨_, rfl, ?_⟩
  try lift_lets -underBinder
  repeat' first
    | with_reducible assumption | exact notMem_of hk (by decide +kernel)
    | (intro x
       first
         | (refine same_of (a := a) (k := k) x ?_ fun _ => ?_
            unfold x
            try lift_lets -underBinder
            rotate_left
            clear_value x)
         | clear_value x
         | skip)
    | lift_lets -underBinder | with_reducible apply State.onQm_same | with_reducible apply State.putRec_same
    | (split <;> try lift_lets -underBinder)

theorem execImpedanceRecord_same {k : Part} {a s : State} {x1} (hk : k ∉ [.qm, .free]) (h : State.Same k a s) :
    ∃ t, execImpedanceRecord x1 s = .next t ∧ State.Same k a t := by
  refine ⟨_, rfl, ?_⟩
  try lift_lets -underBinder
  repeat' first
    | with_reducible assumption | exact notMem_of hk (by decide +kernel)
    | (intro x
       first
         | (refine same_of (a := a) (k := k) x ?_ fun _ => ?_
            unfold x
            try lift_lets -underBinder
            rotate_left
            clear_value x)
         | clear_value x
         | skip)
    | lift_lets -underBinder | with_reducible apply State.doImpedance_same | (split <;> try lift_lets -underBinder)

theorem execCheckpoint_same {k : Part} {a s : State} (hk : k ∉ [.qm]) (h : State.Same k a s) :
    ∃ t, execCheckpoint s = .next t ∧ State.Same k a t := by
  refine ⟨_, rfl, ?_⟩
  try lift_lets -underBinder
  repeat' first
    | with_reducible assumption | exact notMem_of hk (by decide +kernel)
    | (intro x
       first
         | (refine same_of (a := a) (k := k) x ?_ fun _ => ?_
            unfold x
            try lift_lets -underBinder
            rotate_left
            clear_value x)
         | clear_value x
         | skip)
    | lift_lets -underBinder | with_reducible apply State.checkpointNow_same | (split <;> try lift_lets -underBinder)

theorem execBatchClose_same {k : Part} {a s : State} (hk : k ∉ [.qm]) (h : State.Same k a s) :
    ∃ t, execBatchClose s = .next t ∧ State.Same k a t := by
  refine ⟨_, rfl, ?_⟩
  try lift_lets -underBinder
  repeat' first
    | with_reducible assumption | exact notMem_of hk (by decide +kernel)
    | (intro x
       first
         | (refine same_of (a := a) (k := k) x ?_ fun _ => ?_
            unfold x
            try lift_lets -underBinder
            rotate_left
            clear_value x)
         | clear_value x
         | skip)
    | lift_lets -underBinder | with_reducible apply State.closeBatch_same | (split <;> try lift_lets -underBinder)

theorem execAdjEnChange_same {k : Part} {a s : State} {x1} (hk : k ∉ [.qm]) (h : State.Same k a s) :
    ∃ t, execAdjEnChange x1 s = .next t ∧ State.Same k a t := by
  refine ⟨_, rfl, ?_⟩
  try lift_lets -underBinder
  repeat' first
    | with_reducible assumption | exact notMem_of hk (by decide +kernel)
    | (intro x
       first
         | (refine same_of (a := a) (k := k) x ?_ fun _ => ?_
            unfold x
            try lift_lets -underBinder
            rotate_left
            clear_value x)
         | clear_value x
         | skip)
    | lift_lets -underBinder | with_reducible apply State.onQm_same | with_reducible apply State.acceptLevel_same
    | (split <;> try lift_lets -underBinder)

theorem execAdjustmentExpiry_same {k : Part} {a s : State} (hk : k ∉ [.qm]) (h : State.Same k a s) :
    ∃ t, execAdjustmentExpiry s = .next t ∧ State.Same k a t := by
  refine ⟨_, rfl, ?_⟩
  try lift_lets -underBinder
  repeat' first
    | with_reducible assumption | exact notMem_of hk (by decide +kernel)
    | (intro x
       first
         | (refine same_of (a := a) (k := k) x ?_ fun _ => ?_
            unfold x
            try lift_lets -underBinder
            rotate_left
            clear_value x)
         | clear_value x
         | skip)
    | lift_lets -underBinder | with_reducible apply State.expire_same | (split <;> try lift_lets -underBinder)

theorem execMclkFault_same {k : Part} {a s : State} (hk : k ∉ [.qm]) (h : State.Same k a s) :
    ∃ t, execMclkFault s = .next t ∧ State.Same k a t := by
  refine ⟨_, rfl, ?_⟩
  try lift_lets -underBinder
  repeat' first
    | with_reducible assumption | exact notMem_of hk (by decide +kernel)
    | (intro x
       first
         | (refine same_of (a := a) (k := k) x ?_ fun _ => ?_
            unfold x
            try lift_lets -underBinder
            rotate_left
            clear_value x)
         | clear_value x
         | skip)
    | lift_lets -underBinder | with_reducible apply State.mclkFault_same | (split <;> try lift_lets -underBinder)

theorem execMclkReturn_same {k : Part} {a s : State} (hk : k ∉ [.qm]) (h : State.Same k a s) :
    ∃ t, execMclkReturn s = .next t ∧ State.Same k a t := by
  refine ⟨_, rfl, ?_⟩
  try lift_lets -underBinder
  repeat' first
    | with_reducible assumption | exact notMem_of hk (by decide +kernel)
    | (intro x
       first
         | (refine same_of (a := a) (k := k) x ?_ fun _ => ?_
            unfold x
            try lift_lets -underBinder
            rotate_left
            clear_value x)
         | clear_value x
         | skip)
    | lift_lets -underBinder | with_reducible apply State.unmark_same | with_reducible apply State.onQm_same
    | (split <;> try lift_lets -underBinder)

theorem execIdent_same {k : Part} {a s : State} {x1 x2} (hk : k ∉ [.qm]) (h : State.Same k a s) :
    ∃ t, execIdent x1 x2 s = .next t ∧ State.Same k a t := by
  refine ⟨_, rfl, ?_⟩
  split
  · dsimp only
    repeat' split
    all_goals
      first
        | exact State.portReply_same hk h
        | exact State.portItem_same hk h
        | exact State.onQm_same hk (State.portReply_same hk h)
  · exact h

theorem execStatus_same {k : Part} {a s : State} {x1 x2} (hk : k ∉ [.qm]) (h : State.Same k a s) :
    ∃ t, execStatus x1 x2 s = .next t ∧ State.Same k a t := by
  refine ⟨_, rfl, ?_⟩
  split
  · dsimp only
    repeat' split
    all_goals
      first
        | exact State.portReply_same hk h
        | exact State.portItem_same hk h
        | exact State.onQm_same hk (State.portReply_same hk h)
  · exact h

theorem execAudit_same {k : Part} {a s : State} {x1 x2} (hk : k ∉ [.qm]) (h : State.Same k a s) :
    ∃ t, execAudit x1 x2 s = .next t ∧ State.Same k a t := by
  refine ⟨_, rfl, ?_⟩
  try lift_lets -underBinder
  repeat' first
    | with_reducible assumption | exact notMem_of hk (by decide +kernel)
    | (intro x
       first
         | (refine same_of (a := a) (k := k) x ?_ fun _ => ?_
            unfold x
            try lift_lets -underBinder
            rotate_left
            clear_value x)
         | clear_value x
         | skip)
    | lift_lets -underBinder | with_reducible apply State.onPort_same | with_reducible apply State.portItem_same
    | (split <;> try lift_lets -underBinder)

theorem execRecord_same {k : Part} {a s : State} {x1 x2} (hk : k ∉ [.qm]) (h : State.Same k a s) :
    ∃ t, execRecord x1 x2 s = .next t ∧ State.Same k a t := by
  refine ⟨_, rfl, ?_⟩
  try lift_lets -underBinder
  repeat' first
    | with_reducible assumption | exact notMem_of hk (by decide +kernel)
    | (intro x
       first
         | (refine same_of (a := a) (k := k) x ?_ fun _ => ?_
            unfold x
            try lift_lets -underBinder
            rotate_left
            clear_value x)
         | clear_value x
         | skip)
    | lift_lets -underBinder | with_reducible apply State.onPort_same | with_reducible apply State.portItem_same
    | (split <;> try lift_lets -underBinder)

theorem execBatch_same {k : Part} {a s : State} {x1 x2} (hk : k ∉ [.qm]) (h : State.Same k a s) :
    ∃ t, execBatch x1 x2 s = .next t ∧ State.Same k a t := by
  refine ⟨_, rfl, ?_⟩
  try lift_lets -underBinder
  repeat' first
    | with_reducible assumption | exact notMem_of hk (by decide +kernel)
    | (intro x
       first
         | (refine same_of (a := a) (k := k) x ?_ fun _ => ?_
            unfold x
            try lift_lets -underBinder
            rotate_left
            clear_value x)
         | clear_value x
         | skip)
    | lift_lets -underBinder | with_reducible apply State.onPort_same | with_reducible apply State.portItem_same
    | (split <;> try lift_lets -underBinder)

theorem execProof_same {k : Part} {a s : State} {x1 x2} (hk : k ∉ [.qm]) (h : State.Same k a s) :
    ∃ t, execProof x1 x2 s = .next t ∧ State.Same k a t := by
  refine ⟨_, rfl, ?_⟩
  try lift_lets -underBinder
  repeat' first
    | with_reducible assumption | exact notMem_of hk (by decide +kernel)
    | (intro x
       first
         | (refine same_of (a := a) (k := k) x ?_ fun _ => ?_
            unfold x
            try lift_lets -underBinder
            rotate_left
            clear_value x)
         | clear_value x
         | skip)
    | lift_lets -underBinder | with_reducible apply State.onPort_same | with_reducible apply State.portItem_same
    | (split <;> try lift_lets -underBinder)

theorem execLive_same {k : Part} {a s : State} {x1 x2} (hk : k ∉ [.qm]) (h : State.Same k a s) :
    ∃ t, execLive x1 x2 s = .next t ∧ State.Same k a t := by
  refine ⟨_, rfl, ?_⟩
  split
  · dsimp only
    repeat' split
    all_goals
      first
        | exact State.portReply_same hk h
        | exact State.portItem_same hk h
        | exact State.onQm_same hk (State.portReply_same hk h)
  · exact h

theorem execAc_same {k : Part} {a s : State} {x1 x2} (hk : k ∉ [.qm]) (h : State.Same k a s) :
    ∃ t, execAc x1 x2 s = .next t ∧ State.Same k a t := by
  refine ⟨_, rfl, ?_⟩
  split
  · dsimp only
    repeat' split
    all_goals
      first
        | exact State.portReply_same hk h
        | exact State.portItem_same hk h
        | exact State.onQm_same hk (State.portReply_same hk h)
  · exact h

theorem execPubkey_same {k : Part} {a s : State} {x1 x2} (hk : k ∉ [.qm]) (h : State.Same k a s) :
    ∃ t, execPubkey x1 x2 s = .next t ∧ State.Same k a t := by
  refine ⟨_, rfl, ?_⟩
  split
  · dsimp only
    repeat' split
    all_goals
      first
        | exact State.portReply_same hk h
        | exact State.portItem_same hk h
        | exact State.onQm_same hk (State.portReply_same hk h)
  · exact h

theorem execOverlapStart_same {k : Part} {a s : State} {x1 x2} (hk : k ∉ [.qm]) (h : State.Same k a s) :
    ∃ t, execOverlapStart x1 x2 s = .next t ∧ State.Same k a t := by
  refine ⟨_, rfl, ?_⟩
  try lift_lets -underBinder
  repeat' first
    | with_reducible assumption | exact notMem_of hk (by decide +kernel)
    | (intro x
       first
         | (refine same_of (a := a) (k := k) x ?_ fun _ => ?_
            unfold x
            try lift_lets -underBinder
            rotate_left
            clear_value x)
         | clear_value x
         | skip)
    | lift_lets -underBinder | with_reducible apply State.setRot_same | (split <;> try lift_lets -underBinder)

theorem execProvisionalTakeover_same {k : Part} {a s : State} {x1 x2} (hk : k ∉ [.qm]) (h : State.Same k a s) :
    ∃ t, execProvisionalTakeover x1 x2 s = .next t ∧ State.Same k a t := by
  refine ⟨_, rfl, ?_⟩
  try lift_lets -underBinder
  repeat' first
    | with_reducible assumption | exact notMem_of hk (by decide +kernel)
    | (intro x
       first
         | (refine same_of (a := a) (k := k) x ?_ fun _ => ?_
            unfold x
            try lift_lets -underBinder
            rotate_left
            clear_value x)
         | clear_value x
         | skip)
    | lift_lets -underBinder | with_reducible apply State.abandonCycle_same | with_reducible apply State.setRot_same
    | (split <;> try lift_lets -underBinder)

theorem execRotationCommit_same {k : Part} {a s : State} {x1 x2} (hk : k ∉ [.qm, .free]) (h : State.Same k a s) :
    ∃ t, execRotationCommit x1 x2 s = .next t ∧ State.Same k a t := by
  refine ⟨_, rfl, ?_⟩
  try lift_lets -underBinder
  repeat' first
    | with_reducible assumption | exact notMem_of hk (by decide +kernel)
    | (intro x
       first
         | (refine same_of (a := a) (k := k) x ?_ fun _ => ?_
            unfold x
            try lift_lets -underBinder
            rotate_left
            clear_value x)
         | clear_value x
         | skip)
    | lift_lets -underBinder | with_reducible apply each_same | with_reducible apply State.setQc_same
    | with_reducible apply State.releaseHeld_same | with_reducible apply State.abandonCycle_same
    | with_reducible apply State.commitCycle_same | (split <;> try lift_lets -underBinder)

theorem execFreedCalibrationPhase_same {k : Part} {a s : State} {x1 x2 x3 x4} (hk : k ∉ [.qm]) (h : State.Same k a
    s) :
    ∃ t, execFreedCalibrationPhase x1 x2 x3 x4 s = .next t ∧ State.Same k a t := by
  refine ⟨_, rfl, ?_⟩
  try lift_lets -underBinder
  repeat' first
    | with_reducible assumption | exact notMem_of hk (by decide +kernel)
    | (intro x
       first
         | (refine same_of (a := a) (k := k) x ?_ fun _ => ?_
            unfold x
            try lift_lets -underBinder
            rotate_left
            clear_value x)
         | clear_value x
         | skip)
    | lift_lets -underBinder | with_reducible apply State.setRot_same | with_reducible apply State.setModl_same
    | (split <;> try lift_lets -underBinder)

theorem execFreedCalibrationEnd_same {k : Part} {a s : State} {x1 x2} (hk : k ∉ [.qm]) (h : State.Same k a s) :
    ∃ t, execFreedCalibrationEnd x1 x2 s = .next t ∧ State.Same k a t := by
  refine ⟨_, rfl, ?_⟩
  try lift_lets -underBinder
  repeat' first
    | with_reducible assumption | exact notMem_of hk (by decide +kernel)
    | (intro x
       first
         | (refine same_of (a := a) (k := k) x ?_ fun _ => ?_
            unfold x
            try lift_lets -underBinder
            rotate_left
            clear_value x)
         | clear_value x
         | skip)
    | lift_lets -underBinder | with_reducible apply State.calEvent_same | with_reducible apply State.setRot_same
    | with_reducible apply State.setModl_same | with_reducible apply State.becomeSpare_same
    | (split <;> try lift_lets -underBinder)

end Sys2Proof.Machine
end

