-- ==== Sys2Proof/Laws/FrameControl.lean ====
section
/-! SUPPORT. Which parts of the state the commands 93 to 183 of the table can change: one lemma for each. -/

namespace Sys2Proof.Machine

set_option Elab.async false

set_option linter.unreachableTactic false
set_option linter.unusedTactic false

theorem execSuspectRecalibration_same {k : Part} {a s : State} {x1 x2 x3 x4 x5 x6} (hk : k ∉ [.qm]) (h : State.Same
    k a s) :
    ∃ t, execSuspectRecalibration x1 x2 x3 x4 x5 x6 s = .next t ∧ State.Same k a t := by
  refine ⟨_, rfl, ?_⟩
  try lift_lets -underBinder
  repeat' first
    | with_reducible assumption | exact notMem_of hk (by decide +kernel)
    | (intro x
       first
         | (refine same_of (a := a) (k := k) x ?_ fun _ => ?_
            unfold x
            try lift_lets -underBinder
            rotate_left
            clear_value x)
         | clear_value x
         | skip)
    | lift_lets -underBinder | with_reducible apply State.setModl_same | with_reducible apply State.calEvent_same
    | with_reducible apply State.becomeSpare_same | (split <;> try lift_lets -underBinder)

theorem execCalibrationAgeEvent_same {k : Part} {a s : State} {x1 x2} (hk : k ∉ [.qm]) (h : State.Same k a s) :
    ∃ t, execCalibrationAgeEvent x1 x2 s = .next t ∧ State.Same k a t := by
  refine ⟨_, rfl, ?_⟩
  try lift_lets -underBinder
  repeat' first
    | with_reducible assumption | exact notMem_of hk (by decide +kernel)
    | (intro x
       first
         | (refine same_of (a := a) (k := k) x ?_ fun _ => ?_
            unfold x
            try lift_lets -underBinder
            rotate_left
            clear_value x)
         | clear_value x
         | skip)
    | lift_lets -underBinder | with_reducible apply State.calEvent_same | with_reducible apply State.setModl_same
    | (split <;> try lift_lets -underBinder)

theorem execPathDiagnosis_same {k : Part} {a s : State} {x1 x2} (hr : k.isObj = false) (hk : k ∉ [.adcs]) (h :
    State.Same k a s) :
    ∃ t, execPathDiagnosis x1 x2 s = .next t ∧ State.Same k a t := by
  refine ⟨_, rfl, ?_⟩
  try lift_lets -underBinder
  repeat' first
    | with_reducible assumption | with_reducible exact hr | exact notMem_any hr hk (by decide +kernel)
    | (intro x
       first
         | (refine same_of (a := a) (k := k) x ?_ fun _ => ?_
            unfold x
            try lift_lets -underBinder
            rotate_left
            clear_value x)
         | clear_value x
         | skip)
    | lift_lets -underBinder | with_reducible apply State.waitDiag_same | with_reducible apply State.startDiag_same
    | (split <;> try lift_lets -underBinder)

theorem execPathDiagnosisResult_same {k : Part} {a s : State} {x1 x2 x3} (hr : k.isObj = false) (hk : k ∉ [.chans,
    .units, .slots, .engines, .dies, .adcs, .bldc, .axes, .power, .trail, .lane, .flight]) (h : State.Same k a s) :
    ∃ t, execPathDiagnosisResult x1 x2 x3 s = .next t ∧ State.Same k a t := by
  refine ⟨_, rfl, ?_⟩
  try lift_lets -underBinder
  repeat' first
    | with_reducible assumption | with_reducible exact hr | exact notMem_any hr hk (by decide +kernel)
    | (intro x
       first
         | (refine same_of (a := a) (k := k) x ?_ fun _ => ?_
            unfold x
            try lift_lets -underBinder
            rotate_left
            clear_value x)
         | clear_value x
         | skip)
    | lift_lets -underBinder | with_reducible apply State.setAdc_same | with_reducible apply State.wr_field
    | with_reducible apply State.wr_same | with_reducible apply State.raise_same
    | with_reducible apply State.openCorr_same | with_reducible apply State.failUnit_same
    | (split <;> try lift_lets -underBinder)

theorem execDiagnosisRepeat_same {k : Part} {a s : State} {x1 x2} (hr : k.isObj = false) (hk : k ∉ [.adcs]) (h :
    State.Same k a s) :
    ∃ t, execDiagnosisRepeat x1 x2 s = .next t ∧ State.Same k a t := by
  refine ⟨_, rfl, ?_⟩
  try lift_lets -underBinder
  repeat' first
    | with_reducible assumption | with_reducible exact hr | exact notMem_any hr hk (by decide +kernel)
    | (intro x
       first
         | (refine same_of (a := a) (k := k) x ?_ fun _ => ?_
            unfold x
            try lift_lets -underBinder
            rotate_left
            clear_value x)
         | clear_value x
         | skip)
    | lift_lets -underBinder | with_reducible apply State.startDiag_same | (split <;> try lift_lets -underBinder)

theorem execDiagnoseNow_same {k : Part} {a s : State} {x1 x2 x3} (hr : k.isObj = false) (hk : k ∉ [.units, .dies,
    .adcs, .net]) (h : State.Same k a s) :
    ∃ t, execDiagnoseNow x1 x2 x3 s = .next t ∧ State.Same k a t := by
  refine ⟨_, rfl, ?_⟩
  try lift_lets -underBinder
  repeat' first
    | with_reducible assumption | with_reducible exact hr | exact notMem_any hr hk (by decide +kernel)
    | (intro x
       first
         | (refine same_of (a := a) (k := k) x ?_ fun _ => ?_
            unfold x
            try lift_lets -underBinder
            rotate_left
            clear_value x)
         | clear_value x
         | skip)
    | lift_lets -underBinder | with_reducible apply State.writeObj_same | with_reducible apply diagnoseNowSet_same
    | (split <;> try lift_lets -underBinder)

theorem execControlAdcCalibrationWrite_same {k : Part} {a s : State} {x1 x2 x3 x4 x5} (hr : k.isObj = false) (hk : k
    ∉ [.flash, .units, .dies, .net, .trail]) (h : State.Same k a s) :
    ∃ t, execControlAdcCalibrationWrite x1 x2 x3 x4 x5 s = .next t ∧ State.Same k a t := by
  refine ⟨_, rfl, ?_⟩
  try lift_lets -underBinder
  repeat' first
    | with_reducible assumption | with_reducible exact hr | exact notMem_any hr hk (by decide +kernel)
    | (intro x
       first
         | (refine same_of (a := a) (k := k) x ?_ fun _ => ?_
            unfold x
            try lift_lets -underBinder
            rotate_left
            clear_value x)
         | clear_value x
         | skip)
    | lift_lets -underBinder | with_reducible apply State.writeObj_same | with_reducible apply calibrationSet_same
    | (split <;> try lift_lets -underBinder)

theorem execVdrvUndervoltage_same {k : Part} {a s : State} {x1 x2} (hk : k ∉ [.reg 0x1200, .reg 0x1210, .reg 0x1220,
    .reg 0x2402, .reg 0x2444, .reg 0x2800, .reg 0x2803, .reg 0x2810, .reg 0x3101, .reg 0x6000, .reg 0x6010, .reg
    0x6012, .chans, .units, .slots, .engines, .dies, .trail, .lane, .flight]) (h : State.Same k a s) :
    ∃ t, execVdrvUndervoltage x1 x2 s = .next t ∧ State.Same k a t := by
  refine ⟨_, rfl, ?_⟩
  try lift_lets -underBinder
  repeat' first
    | with_reducible assumption | exact notMem_of hk (by decide +kernel)
    | (intro x
       first
         | (refine same_of (a := a) (k := k) x ?_ fun _ => ?_
            unfold x
            try lift_lets -underBinder
            rotate_left
            clear_value x)
         | clear_value x
         | skip)
    | lift_lets -underBinder | with_reducible apply State.wr_same | with_reducible apply State.vdrvNote_same
    | with_reducible apply State.wakeDie_same | with_reducible apply State.slicesLow_same
    | with_reducible apply State.assertSource_same | with_reducible apply State.openCorr_same
    | (split <;> try lift_lets -underBinder)

theorem execVdrvRelease_same {k : Part} {a s : State} {x1 x2} (hk : k ∉ [.reg 0x1220, .reg 0x2800, .reg 0x2803, .reg
    0x6000, .dies, .trail]) (h : State.Same k a s) :
    ∃ t, execVdrvRelease x1 x2 s = .next t ∧ State.Same k a t := by
  refine ⟨_, rfl, ?_⟩
  try lift_lets -underBinder
  repeat' first
    | with_reducible assumption | exact notMem_of hk (by decide +kernel)
    | (intro x
       first
         | (refine same_of (a := a) (k := k) x ?_ fun _ => ?_
            unfold x
            try lift_lets -underBinder
            rotate_left
            clear_value x)
         | clear_value x
         | skip)
    | lift_lets -underBinder | with_reducible apply State.deassertSource_same | with_reducible apply State.wr_same
    | with_reducible apply State.vdrvNote_same | (split <;> try lift_lets -underBinder)

theorem execBootstrapHold_same {k : Part} {a s : State} {x1 x2} (hk : k ∉ [.reg 0x2812, .chans]) (h : State.Same k a
    s) :
    ∃ t, execBootstrapHold x1 x2 s = .next t ∧ State.Same k a t := by
  refine ⟨_, rfl, ?_⟩
  try lift_lets -underBinder
  repeat' first
    | with_reducible assumption | exact notMem_of hk (by decide +kernel)
    | (intro x
       first
         | (refine same_of (a := a) (k := k) x ?_ fun _ => ?_
            unfold x
            try lift_lets -underBinder
            rotate_left
            clear_value x)
         | clear_value x
         | skip)
    | lift_lets -underBinder | with_reducible apply State.wr_same | with_reducible apply State.setChan_same
    | (split <;> try lift_lets -underBinder)

theorem execBootstrapRelease_same {k : Part} {a s : State} {x1 x2} (hk : k ∉ [.reg 0x2812]) (h : State.Same k a s) :
    ∃ t, execBootstrapRelease x1 x2 s = .next t ∧ State.Same k a t := by
  refine ⟨_, rfl, ?_⟩
  try lift_lets -underBinder
  repeat' first
    | with_reducible assumption | exact notMem_of hk (by decide +kernel)
    | (intro x
       first
         | (refine same_of (a := a) (k := k) x ?_ fun _ => ?_
            unfold x
            try lift_lets -underBinder
            rotate_left
            clear_value x)
         | clear_value x
         | skip)
    | lift_lets -underBinder | with_reducible apply State.wr_same | (split <;> try lift_lets -underBinder)

theorem execForcedRefresh_same {k : Part} {a s : State} {x1} (hk : k ∉ [.reg 0x2812, .reg 0x2833, .chans, .units,
    .adcs]) (h : State.Same k a s) :
    ∃ t, execForcedRefresh x1 s = .next t ∧ State.Same k a t := by
  refine ⟨_, rfl, ?_⟩
  try lift_lets -underBinder
  repeat' first
    | with_reducible assumption | exact notMem_of hk (by decide +kernel)
    | (intro x
       first
         | (refine same_of (a := a) (k := k) x ?_ fun _ => ?_
            unfold x
            try lift_lets -underBinder
            rotate_left
            clear_value x)
         | clear_value x
         | skip)
    | lift_lets -underBinder | with_reducible apply State.setChan_same | with_reducible apply State.setUnit_same
    | with_reducible apply State.place_same | with_reducible apply State.inc_same
    | (split <;> try lift_lets -underBinder)

theorem execEdgeWord_same {k : Part} {a s : State} {x1 x2} (hk : k ∉ [.reg 0x2402, .reg 0x2444, .reg 0x2810, .reg
    0x2811, .reg 0x6000, .reg 0x6010, .chans, .units, .slots, .engines, .dies, .adcs, .trail, .lane, .flight]) (h :
    State.Same k a s) :
    ∃ t, execEdgeWord x1 x2 s = .next t ∧ State.Same k a t := by
  refine ⟨_, rfl, ?_⟩
  try lift_lets -underBinder
  repeat' first
    | with_reducible assumption | exact notMem_of hk (by decide +kernel)
    | (intro x
       first
         | (refine same_of (a := a) (k := k) x ?_ fun _ => ?_
            unfold x
            try lift_lets -underBinder
            rotate_left
            clear_value x)
         | clear_value x
         | skip)
    | lift_lets -underBinder | with_reducible apply State.receiveWord_same | (split <;> try lift_lets -underBinder)

theorem execEdgeTime_same {k : Part} {a s : State} {x1} (hk : k ∉ [.chans]) (h : State.Same k a s) :
    ∃ t, execEdgeTime x1 s = .next t ∧ State.Same k a t := by
  refine ⟨_, rfl, ?_⟩
  try lift_lets -underBinder
  repeat' first
    | with_reducible assumption | exact notMem_of hk (by decide +kernel)
    | (intro x
       first
         | (refine same_of (a := a) (k := k) x ?_ fun _ => ?_
            unfold x
            try lift_lets -underBinder
            rotate_left
            clear_value x)
         | clear_value x
         | skip)
    | lift_lets -underBinder | with_reducible apply State.takeLeg_same | with_reducible apply State.setChan_same
    | (split <;> try lift_lets -underBinder)

theorem execDeadTimeTurnOn_same {k : Part} {a s : State} {x1} (hk : k ∉ [.chans]) (h : State.Same k a s) :
    ∃ t, execDeadTimeTurnOn x1 s = .next t ∧ State.Same k a t := by
  refine ⟨_, rfl, ?_⟩
  try lift_lets -underBinder
  repeat' first
    | with_reducible assumption | exact notMem_of hk (by decide +kernel)
    | (intro x
       first
         | (refine same_of (a := a) (k := k) x ?_ fun _ => ?_
            unfold x
            try lift_lets -underBinder
            rotate_left
            clear_value x)
         | clear_value x
         | skip)
    | lift_lets -underBinder | with_reducible apply State.setChan_same | (split <;> try lift_lets -underBinder)

theorem execSoftComparatorTrip_same {k : Part} {a s : State} {x1 x2} (hk : k ∉ [.reg 0x1200, .reg 0x1210, .reg
    0x2402, .reg 0x2444, .reg 0x2801, .reg 0x2810, .reg 0x3101, .reg 0x6000, .reg 0x6010, .reg 0x6012, .chans,
    .units, .slots, .engines, .dies, .trail, .lane, .flight]) (h : State.Same k a s) :
    ∃ t, execSoftComparatorTrip x1 x2 s = .next t ∧ State.Same k a t := by
  refine ⟨_, rfl, ?_⟩
  try lift_lets -underBinder
  repeat' first
    | with_reducible assumption | exact notMem_of hk (by decide +kernel)
    | (intro x
       first
         | (refine same_of (a := a) (k := k) x ?_ fun _ => ?_
            unfold x
            try lift_lets -underBinder
            rotate_left
            clear_value x)
         | clear_value x
         | skip)
    | lift_lets -underBinder | with_reducible apply State.sawShunt_same | with_reducible apply State.trip_same
    | (split <;> try lift_lets -underBinder)

theorem execHardComparatorTrip_same {k : Part} {a s : State} {x1 x2} (hk : k ∉ [.reg 0x1200, .reg 0x1210, .reg
    0x2402, .reg 0x2444, .reg 0x2801, .reg 0x2810, .reg 0x3101, .reg 0x6000, .reg 0x6010, .reg 0x6012, .chans,
    .units, .slots, .engines, .dies, .trail, .lane, .flight]) (h : State.Same k a s) :
    ∃ t, execHardComparatorTrip x1 x2 s = .next t ∧ State.Same k a t := by
  refine ⟨_, rfl, ?_⟩
  try lift_lets -underBinder
  repeat' first
    | with_reducible assumption | exact notMem_of hk (by decide +kernel)
    | (intro x
       first
         | (refine same_of (a := a) (k := k) x ?_ fun _ => ?_
            unfold x
            try lift_lets -underBinder
            rotate_left
            clear_value x)
         | clear_value x
         | skip)
    | lift_lets -underBinder | with_reducible apply State.sawShunt_same | with_reducible apply State.trip_same
    | (split <;> try lift_lets -underBinder)

theorem execBlankingEnd_same {k : Part} {a s : State} {x1 x2} (hk : k ∉ [.reg 0x1200, .reg 0x1210, .reg 0x2402, .reg
    0x2444, .reg 0x2801, .reg 0x2810, .reg 0x3101, .reg 0x6000, .reg 0x6010, .reg 0x6012, .chans, .units, .slots,
    .engines, .dies, .trail, .lane, .flight]) (h : State.Same k a s) :
    ∃ t, execBlankingEnd x1 x2 s = .next t ∧ State.Same k a t := by
  refine ⟨_, rfl, ?_⟩
  try lift_lets -underBinder
  repeat' first
    | with_reducible assumption | exact notMem_of hk (by decide +kernel)
    | (intro x
       first
         | (refine same_of (a := a) (k := k) x ?_ fun _ => ?_
            unfold x
            try lift_lets -underBinder
            rotate_left
            clear_value x)
         | clear_value x
         | skip)
    | lift_lets -underBinder | with_reducible apply State.sawShunt_same | with_reducible apply State.setChan_same
    | with_reducible apply State.trip_same | (split <;> try lift_lets -underBinder)

theorem execCheckNow_same {k : Part} {a s : State} {x1 x2 x3} (hk : k ∉ [.reg 0x1200, .reg 0x1210, .reg 0x1310, .reg
    0x3101, .chans, .units, .dies, .net]) (h : State.Same k a s) :
    ∃ t, execCheckNow x1 x2 x3 s = .next t ∧ State.Same k a t := by
  refine ⟨_, rfl, ?_⟩
  try lift_lets -underBinder
  repeat' first
    | with_reducible assumption | exact notMem_of hk (by decide +kernel)
    | (intro x
       first
         | (refine same_of (a := a) (k := k) x ?_ fun _ => ?_
            unfold x
            try lift_lets -underBinder
            rotate_left
            clear_value x)
         | clear_value x
         | skip)
    | lift_lets -underBinder | with_reducible apply State.writeObj_same | with_reducible apply checkNowSet_same
    | (split <;> try lift_lets -underBinder)

theorem execContactCheckStart_same {k : Part} {a s : State} {x1} (hk : k ∉ [.chans, .adcs]) (h : State.Same k a s) :
    ∃ t, execContactCheckStart x1 s = .next t ∧ State.Same k a t := by
  refine ⟨_, rfl, ?_⟩
  try lift_lets -underBinder
  repeat' first
    | with_reducible assumption | exact notMem_of hk (by decide +kernel)
    | (intro x
       first
         | (refine same_of (a := a) (k := k) x ?_ fun _ => ?_
            unfold x
            try lift_lets -underBinder
            rotate_left
            clear_value x)
         | clear_value x
         | skip)
    | lift_lets -underBinder | with_reducible apply State.setAdc_same | with_reducible apply State.setChan_same
    | (split <;> try lift_lets -underBinder)

theorem execContactCheckPhase_same {k : Part} {a s : State} {x1 x2} (hk : k ∉ [.chans]) (h : State.Same k a s) :
    ∃ t, execContactCheckPhase x1 x2 s = .next t ∧ State.Same k a t := by
  refine ⟨_, rfl, ?_⟩
  try lift_lets -underBinder
  repeat' first
    | with_reducible assumption | exact notMem_of hk (by decide +kernel)
    | (intro x
       first
         | (refine same_of (a := a) (k := k) x ?_ fun _ => ?_
            unfold x
            try lift_lets -underBinder
            rotate_left
            clear_value x)
         | clear_value x
         | skip)
    | lift_lets -underBinder | with_reducible apply State.setChan_same | (split <;> try lift_lets -underBinder)

theorem execContactCheckResult_same {k : Part} {a s : State} {x1} (hk : k ∉ [.reg 0x2402, .reg 0x2403, .reg 0x2406,
    .reg 0x2444, .reg 0x2820, .reg 0x6000, .chans, .units, .slots, .dies, .adcs, .groups, .trail, .lane, .flight])
    (h : State.Same k a s) :
    ∃ t, execContactCheckResult x1 s = .next t ∧ State.Same k a t := by
  refine ⟨_, rfl, ?_⟩
  try lift_lets -underBinder
  repeat' first
    | with_reducible assumption | exact notMem_of hk (by decide +kernel)
    | (intro x
       first
         | (refine same_of (a := a) (k := k) x ?_ fun _ => ?_
            unfold x
            try lift_lets -underBinder
            rotate_left
            clear_value x)
         | clear_value x
         | skip)
    | lift_lets -underBinder | with_reducible apply State.checkResult_same | (split <;> try lift_lets -underBinder)

theorem execPeriodBoundary_same {k : Part} {a s : State} {x1 x2} (hk : k ∉ [.reg 0x2402, .reg 0x2444, .reg 0x2810,
    .reg 0x2833, .reg 0x3101, .reg 0x6000, .reg 0x6010, .reg 0x6012, .chans, .units, .slots, .engines, .dies, .adcs,
    .trail, .lane, .flight]) (h : State.Same k a s) :
    ∃ t, execPeriodBoundary x1 x2 s = .next t ∧ State.Same k a t := by
  refine ⟨_, rfl, ?_⟩
  try lift_lets -underBinder
  repeat' first
    | with_reducible assumption | exact notMem_of hk (by decide +kernel)
    | (intro x
       first
         | (refine same_of (a := a) (k := k) x ?_ fun _ => ?_
            unfold x
            try lift_lets -underBinder
            rotate_left
            clear_value x)
         | clear_value x
         | skip)
    | lift_lets -underBinder | with_reducible apply State.runBoundary_same
    | with_reducible apply State.startBoundary_same | (split <;> try lift_lets -underBinder)

theorem execMidPeriodUpdate_same {k : Part} {a s : State} {x1 x2} (hk : k ∉ [.reg 0x2833, .units, .adcs]) (h :
    State.Same k a s) :
    ∃ t, execMidPeriodUpdate x1 x2 s = .next t ∧ State.Same k a t := by
  refine ⟨_, rfl, ?_⟩
  try lift_lets -underBinder
  repeat' first
    | with_reducible assumption | exact notMem_of hk (by decide +kernel)
    | (intro x
       first
         | (refine same_of (a := a) (k := k) x ?_ fun _ => ?_
            unfold x
            try lift_lets -underBinder
            rotate_left
            clear_value x)
         | clear_value x
         | skip)
    | lift_lets -underBinder | with_reducible apply State.decideUpTo_same | with_reducible apply State.noteClip_same
    | with_reducible apply State.setUnit_same | (split <;> try lift_lets -underBinder)

theorem execEdgeDecision_same {k : Part} {a s : State} {x1 x2} (hk : k ∉ [.reg 0x2833, .units, .adcs]) (h :
    State.Same k a s) :
    ∃ t, execEdgeDecision x1 x2 s = .next t ∧ State.Same k a t := by
  refine ⟨_, rfl, ?_⟩
  try lift_lets -underBinder
  repeat' first
    | with_reducible assumption | exact notMem_of hk (by decide +kernel)
    | (intro x
       first
         | (refine same_of (a := a) (k := k) x ?_ fun _ => ?_
            unfold x
            try lift_lets -underBinder
            rotate_left
            clear_value x)
         | clear_value x
         | skip)
    | lift_lets -underBinder | with_reducible apply State.decideEdge_same | (split <;> try lift_lets -underBinder)

theorem execCommit_same {k : Part} {a s : State} {x1 x2 x3} (hk : k ∉ [.reg 0x1200, .reg 0x1210, .reg 0x1310, .reg
    0x3101, .units, .dies, .net]) (h : State.Same k a s) :
    ∃ t, execCommit x1 x2 x3 s = .next t ∧ State.Same k a t := by
  refine ⟨_, rfl, ?_⟩
  try lift_lets -underBinder
  repeat' first
    | with_reducible assumption | exact notMem_of hk (by decide +kernel)
    | (intro x
       first
         | (refine same_of (a := a) (k := k) x ?_ fun _ => ?_
            unfold x
            try lift_lets -underBinder
            rotate_left
            clear_value x)
         | clear_value x
         | skip)
    | lift_lets -underBinder | with_reducible apply State.writeObj_same | with_reducible apply commitSet_same
    | (split <;> try lift_lets -underBinder)

theorem execOutputStart_same {k : Part} {a s : State} {x1 x2} (hk : k ∉ [.units]) (h : State.Same k a s) :
    ∃ t, execOutputStart x1 x2 s = .next t ∧ State.Same k a t := by
  refine ⟨_, rfl, ?_⟩
  try lift_lets -underBinder
  repeat' first
    | with_reducible assumption | exact notMem_of hk (by decide +kernel)
    | (intro x
       first
         | (refine same_of (a := a) (k := k) x ?_ fun _ => ?_
            unfold x
            try lift_lets -underBinder
            rotate_left
            clear_value x)
         | clear_value x
         | skip)
    | lift_lets -underBinder | with_reducible apply State.startUnit_same | (split <;> try lift_lets -underBinder)

theorem execOutputStop_same {k : Part} {a s : State} {x1 x2} (hk : k ∉ [.units]) (h : State.Same k a s) :
    ∃ t, execOutputStop x1 x2 s = .next t ∧ State.Same k a t := by
  refine ⟨_, rfl, ?_⟩
  try lift_lets -underBinder
  repeat' first
    | with_reducible assumption | exact notMem_of hk (by decide +kernel)
    | (intro x
       first
         | (refine same_of (a := a) (k := k) x ?_ fun _ => ?_
            unfold x
            try lift_lets -underBinder
            rotate_left
            clear_value x)
         | clear_value x
         | skip)
    | lift_lets -underBinder | with_reducible apply State.stopUnit_same | (split <;> try lift_lets -underBinder)

theorem execFaultSourceAssert_same {k : Part} {a s : State} {x1 x2 x3 x4 x5} (hk : k ∉ [.reg 0x1200, .reg 0x1210,
    .reg 0x2402, .reg 0x2444, .reg 0x2803, .reg 0x2810, .reg 0x3101, .reg 0x3105, .reg 0x3106, .reg 0x6000, .reg
    0x6010, .reg 0x6012, .chans, .units, .slots, .engines, .dies, .trail, .lane, .flight]) (h : State.Same k a s) :
    ∃ t, execFaultSourceAssert x1 x2 x3 x4 x5 s = .next t ∧ State.Same k a t := by
  refine ⟨_, rfl, ?_⟩
  try lift_lets -underBinder
  repeat' first
    | with_reducible assumption | exact notMem_of hk (by decide +kernel)
    | (intro x
       first
         | (refine same_of (a := a) (k := k) x ?_ fun _ => ?_
            unfold x
            try lift_lets -underBinder
            rotate_left
            clear_value x)
         | clear_value x
         | skip)
    | lift_lets -underBinder | with_reducible apply State.sawDie_same | with_reducible apply State.wakeDie_same
    | with_reducible apply State.assertSource_same | with_reducible apply State.openCorr_same
    | (split <;> try lift_lets -underBinder)

theorem execFaultSourceDeassert_same {k : Part} {a s : State} {x1 x2 x3 x4} (hk : k ∉ [.reg 0x2803, .reg 0x3105,
    .reg 0x3106]) (h : State.Same k a s) :
    ∃ t, execFaultSourceDeassert x1 x2 x3 x4 s = .next t ∧ State.Same k a t := by
  refine ⟨_, rfl, ?_⟩
  try lift_lets -underBinder
  repeat' first
    | with_reducible assumption | exact notMem_of hk (by decide +kernel)
    | (intro x
       first
         | (refine same_of (a := a) (k := k) x ?_ fun _ => ?_
            unfold x
            try lift_lets -underBinder
            rotate_left
            clear_value x)
         | clear_value x
         | skip)
    | lift_lets -underBinder | with_reducible apply State.sawDie_same
    | with_reducible apply State.deassertSource_same | (split <;> try lift_lets -underBinder)

theorem execFltInput_same {k : Part} {a s : State} {x1 x2 x3} (hk : k ∉ [.reg 0x341A, .reg 0x3420, .reg 0x344E, .reg
    0x344F, .reg 0x3450, .reg 0x3457, .reg 0x6000, .reg 0x6014, .units, .engines, .dies, .bldc, .axes, .power,
    .trail]) (h : State.Same k a s) :
    ∃ t, execFltInput x1 x2 x3 s = .next t ∧ State.Same k a t := by
  refine ⟨_, rfl, ?_⟩
  try lift_lets -underBinder
  repeat' first
    | with_reducible assumption | exact notMem_of hk (by decide +kernel)
    | (intro x
       first
         | (refine same_of (a := a) (k := k) x ?_ fun _ => ?_
            unfold x
            try lift_lets -underBinder
            rotate_left
            clear_value x)
         | clear_value x
         | skip)
    | lift_lets -underBinder | with_reducible apply State.setPower_same | with_reducible apply each_same
    | with_reducible apply State.fltGroup_same | (split <;> try lift_lets -underBinder)

theorem execDebugHalt_same {k : Part} {a s : State} {x1} (hk : k ∉ [.dies]) (h : State.Same k a s) :
    ∃ t, execDebugHalt x1 s = .next t ∧ State.Same k a t := by
  refine ⟨_, rfl, ?_⟩
  try lift_lets -underBinder
  repeat' first
    | with_reducible assumption | exact notMem_of hk (by decide +kernel)
    | (intro x
       first
         | (refine same_of (a := a) (k := k) x ?_ fun _ => ?_
            unfold x
            try lift_lets -underBinder
            rotate_left
            clear_value x)
         | clear_value x
         | skip)
    | lift_lets -underBinder | with_reducible apply State.setDie_same | (split <;> try lift_lets -underBinder)

theorem execDebugResume_same {k : Part} {a s : State} {x1} (hk : k ∉ [.chans, .units, .dies, .adcs]) (h : State.Same
    k a s) :
    ∃ t, execDebugResume x1 s = .next t ∧ State.Same k a t := by
  refine ⟨_, rfl, ?_⟩
  try lift_lets -underBinder
  repeat' first
    | with_reducible assumption | exact notMem_of hk (by decide +kernel)
    | (intro x
       first
         | (refine same_of (a := a) (k := k) x ?_ fun _ => ?_
            unfold x
            try lift_lets -underBinder
            rotate_left
            clear_value x)
         | clear_value x
         | skip)
    | lift_lets -underBinder | with_reducible apply State.setDie_same | with_reducible apply State.retimeLanes_same
    | with_reducible apply State.mapSlices_same | with_reducible apply State.lowAtResume_same
    | with_reducible apply each_same | with_reducible apply State.setUnit_same
    | (split <;> try lift_lets -underBinder)

theorem execRelease_same {k : Part} {a s : State} {x1 x2 x3} (hk : k ∉ [.reg 0x2402, .reg 0x2444, .reg 0x2503, .reg
    0x2810, .reg 0x3040, .reg 0x3101, .reg 0x341A, .reg 0x3420, .reg 0x344E, .reg 0x344F, .reg 0x3450, .reg 0x3457,
    .reg 0x6000, .reg 0x6010, .reg 0x6012, .chans, .units, .slots, .engines, .dies, .bldc, .axes, .power, .trail,
    .lane, .flight, .free]) (h : State.Same k a s) :
    ∃ t, execRelease x1 x2 x3 s = .next t ∧ State.Same k a t := by
  refine ⟨_, rfl, ?_⟩
  try lift_lets -underBinder
  repeat' first
    | with_reducible assumption | exact notMem_of hk (by decide +kernel)
    | (intro x
       first
         | (refine same_of (a := a) (k := k) x ?_ fun _ => ?_
            unfold x
            try lift_lets -underBinder
            rotate_left
            clear_value x)
         | clear_value x
         | skip)
    | lift_lets -underBinder | with_reducible apply State.release_same | (split <;> try lift_lets -underBinder)

theorem execJobStart_same {k : Part} {a s : State} {x1 x2} (hk : k ∉ [.reg 0x2402, .reg 0x2403, .reg 0x2501, .chans,
    .slots, .engines, .free]) (h : State.Same k a s) :
    ∃ t, execJobStart x1 x2 s = .next t ∧ State.Same k a t := by
  refine ⟨_, rfl, ?_⟩
  try lift_lets -underBinder
  repeat' first
    | with_reducible assumption | exact notMem_of hk (by decide +kernel)
    | (intro x
       first
         | (refine same_of (a := a) (k := k) x ?_ fun _ => ?_
            unfold x
            try lift_lets -underBinder
            rotate_left
            clear_value x)
         | clear_value x
         | skip)
    | lift_lets -underBinder | with_reducible apply State.takeUpTo_same | with_reducible apply State.startJob_same
    | (split <;> try lift_lets -underBinder)

theorem execJobEnd_same {k : Part} {a s : State} {x1 x2} (hk : k ∉ [.reg 0x2402, .reg 0x2403, .reg 0x2444, .reg
    0x2445, .reg 0x2502, .reg 0x2504, .reg 0x2810, .reg 0x2833, .reg 0x3040, .reg 0x3070, .reg 0x3101, .reg 0x3102,
    .reg 0x3103, .reg 0x3105, .reg 0x341A, .reg 0x341C, .reg 0x3421, .reg 0x3441, .reg 0x344D, .reg 0x344E, .reg
    0x344F, .reg 0x3450, .reg 0x3454, .reg 0x3455, .reg 0x6000, .reg 0x6010, .reg 0x6012, .chans, .units, .slots,
    .engines, .dies, .bldc, .axes, .power, .trail, .lane, .flight, .free]) (h : State.Same k a s) :
    ∃ t, execJobEnd x1 x2 s = .next t ∧ State.Same k a t := by
  refine ⟨_, rfl, ?_⟩
  try lift_lets -underBinder
  repeat' first
    | with_reducible assumption | exact notMem_of hk (by decide +kernel)
    | (intro x
       first
         | (refine same_of (a := a) (k := k) x ?_ fun _ => ?_
            unfold x
            try lift_lets -underBinder
            rotate_left
            clear_value x)
         | clear_value x
         | skip)
    | lift_lets -underBinder | with_reducible apply State.finishJob_same
    | with_reducible apply State.templateJob_same | with_reducible apply State.customJob_same
    | (split <;> try lift_lets -underBinder)

theorem execEngineFault_same {k : Part} {a s : State} {x1 x2 x3} (hk : k ∉ [.reg 0x2402, .reg 0x2444, .reg 0x2810,
    .reg 0x3040, .reg 0x3101, .reg 0x341A, .reg 0x3420, .reg 0x344E, .reg 0x344F, .reg 0x3450, .reg 0x3457, .reg
    0x6000, .reg 0x6010, .reg 0x6012, .chans, .units, .slots, .engines, .dies, .bldc, .axes, .power, .trail, .lane,
    .flight, .free]) (h : State.Same k a s) :
    ∃ t, execEngineFault x1 x2 x3 s = .next t ∧ State.Same k a t := by
  refine ⟨_, rfl, ?_⟩
  try lift_lets -underBinder
  repeat' first
    | with_reducible assumption | exact notMem_of hk (by decide +kernel)
    | (intro x
       first
         | (refine same_of (a := a) (k := k) x ?_ fun _ => ?_
            unfold x
            try lift_lets -underBinder
            rotate_left
            clear_value x)
         | clear_value x
         | skip)
    | lift_lets -underBinder | with_reducible apply State.latchSlot_same | with_reducible apply State.setEng_same
    | with_reducible apply State.setSlot_same | (split <;> try lift_lets -underBinder)

theorem execNop_same {k : Part} {a s : State} {x1 x2} (hk : k ∉ [.engines]) (h : State.Same k a s) :
    ∃ t, execNop x1 x2 s = .next t ∧ State.Same k a t := by
  refine ⟨_, rfl, ?_⟩
  try lift_lets -underBinder
  repeat' first
    | with_reducible assumption | exact notMem_of hk (by decide +kernel)
    | (intro x
       first
         | (refine same_of (a := a) (k := k) x ?_ fun _ => ?_
            unfold x
            try lift_lets -underBinder
            rotate_left
            clear_value x)
         | clear_value x
         | skip)
    | lift_lets -underBinder | with_reducible apply State.alu_same | (split <;> try lift_lets -underBinder)

theorem execLds_same {k : Part} {a s : State} {x1 x2 x3 x4} (hk : k ∉ [.slots, .engines]) (h : State.Same k a s) :
    ∃ t, execLds x1 x2 x3 x4 s = .next t ∧ State.Same k a t := by
  refine ⟨_, rfl, ?_⟩
  try lift_lets -underBinder
  repeat' first
    | with_reducible assumption | exact notMem_of hk (by decide +kernel)
    | (intro x
       first
         | (refine same_of (a := a) (k := k) x ?_ fun _ => ?_
            unfold x
            try lift_lets -underBinder
            rotate_left
            clear_value x)
         | clear_value x
         | skip)
    | lift_lets -underBinder | with_reducible apply State.micro_same | with_reducible apply State.setSlot_same
    | with_reducible apply State.setEng_same | (split <;> try lift_lets -underBinder)

theorem execLdp_same {k : Part} {a s : State} {x1 x2 x3 x4} (hk : k ∉ [.engines, .free]) (h : State.Same k a s) :
    ∃ t, execLdp x1 x2 x3 x4 s = .next t ∧ State.Same k a t := by
  refine ⟨_, rfl, ?_⟩
  try lift_lets -underBinder
  repeat' first
    | with_reducible assumption | exact notMem_of hk (by decide +kernel)
    | (intro x
       first
         | (refine same_of (a := a) (k := k) x ?_ fun _ => ?_
            unfold x
            try lift_lets -underBinder
            rotate_left
            clear_value x)
         | clear_value x
         | skip)
    | lift_lets -underBinder | with_reducible apply State.micro_same | with_reducible apply State.setEng_same
    | with_reducible apply State.draw_same | (split <;> try lift_lets -underBinder)

theorem execLdw_same {k : Part} {a s : State} {x1 x2 x3 x4} (hk : k ∉ [.engines]) (h : State.Same k a s) :
    ∃ t, execLdw x1 x2 x3 x4 s = .next t ∧ State.Same k a t := by
  refine ⟨_, rfl, ?_⟩
  try lift_lets -underBinder
  repeat' first
    | with_reducible assumption | exact notMem_of hk (by decide +kernel)
    | (intro x
       first
         | (refine same_of (a := a) (k := k) x ?_ fun _ => ?_
            unfold x
            try lift_lets -underBinder
            rotate_left
            clear_value x)
         | clear_value x
         | skip)
    | lift_lets -underBinder | with_reducible apply State.alu_same | (split <;> try lift_lets -underBinder)

theorem execStw_same {k : Part} {a s : State} {x1 x2 x3 x4} (hk : k ∉ [.engines]) (h : State.Same k a s) :
    ∃ t, execStw x1 x2 x3 x4 s = .next t ∧ State.Same k a t := by
  refine ⟨_, rfl, ?_⟩
  try lift_lets -underBinder
  repeat' first
    | with_reducible assumption | exact notMem_of hk (by decide +kernel)
    | (intro x
       first
         | (refine same_of (a := a) (k := k) x ?_ fun _ => ?_
            unfold x
            try lift_lets -underBinder
            rotate_left
            clear_value x)
         | clear_value x
         | skip)
    | lift_lets -underBinder | with_reducible apply State.alu_same | (split <;> try lift_lets -underBinder)

theorem execLdi_same {k : Part} {a s : State} {x1 x2 x3 x4} (hk : k ∉ [.engines]) (h : State.Same k a s) :
    ∃ t, execLdi x1 x2 x3 x4 s = .next t ∧ State.Same k a t := by
  refine ⟨_, rfl, ?_⟩
  try lift_lets -underBinder
  repeat' first
    | with_reducible assumption | exact notMem_of hk (by decide +kernel)
    | (intro x
       first
         | (refine same_of (a := a) (k := k) x ?_ fun _ => ?_
            unfold x
            try lift_lets -underBinder
            rotate_left
            clear_value x)
         | clear_value x
         | skip)
    | lift_lets -underBinder | with_reducible apply State.alu_same | (split <;> try lift_lets -underBinder)

theorem execLdh_same {k : Part} {a s : State} {x1 x2 x3 x4} (hk : k ∉ [.engines]) (h : State.Same k a s) :
    ∃ t, execLdh x1 x2 x3 x4 s = .next t ∧ State.Same k a t := by
  refine ⟨_, rfl, ?_⟩
  try lift_lets -underBinder
  repeat' first
    | with_reducible assumption | exact notMem_of hk (by decide +kernel)
    | (intro x
       first
         | (refine same_of (a := a) (k := k) x ?_ fun _ => ?_
            unfold x
            try lift_lets -underBinder
            rotate_left
            clear_value x)
         | clear_value x
         | skip)
    | lift_lets -underBinder | with_reducible apply State.alu_same | (split <;> try lift_lets -underBinder)

theorem execMov_same {k : Part} {a s : State} {x1 x2 x3 x4} (hk : k ∉ [.engines]) (h : State.Same k a s) :
    ∃ t, execMov x1 x2 x3 x4 s = .next t ∧ State.Same k a t := by
  refine ⟨_, rfl, ?_⟩
  try lift_lets -underBinder
  repeat' first
    | with_reducible assumption | exact notMem_of hk (by decide +kernel)
    | (intro x
       first
         | (refine same_of (a := a) (k := k) x ?_ fun _ => ?_
            unfold x
            try lift_lets -underBinder
            rotate_left
            clear_value x)
         | clear_value x
         | skip)
    | lift_lets -underBinder | with_reducible apply State.alu_same | (split <;> try lift_lets -underBinder)

theorem execAdd_same {k : Part} {a s : State} {x1 x2 x3 x4 x5} (hk : k ∉ [.engines]) (h : State.Same k a s) :
    ∃ t, execAdd x1 x2 x3 x4 x5 s = .next t ∧ State.Same k a t := by
  refine ⟨_, rfl, ?_⟩
  try lift_lets -underBinder
  repeat' first
    | with_reducible assumption | exact notMem_of hk (by decide +kernel)
    | (intro x
       first
         | (refine same_of (a := a) (k := k) x ?_ fun _ => ?_
            unfold x
            try lift_lets -underBinder
            rotate_left
            clear_value x)
         | clear_value x
         | skip)
    | lift_lets -underBinder | with_reducible apply State.alu_same | (split <;> try lift_lets -underBinder)

theorem execSub_same {k : Part} {a s : State} {x1 x2 x3 x4 x5} (hk : k ∉ [.engines]) (h : State.Same k a s) :
    ∃ t, execSub x1 x2 x3 x4 x5 s = .next t ∧ State.Same k a t := by
  refine ⟨_, rfl, ?_⟩
  try lift_lets -underBinder
  repeat' first
    | with_reducible assumption | exact notMem_of hk (by decide +kernel)
    | (intro x
       first
         | (refine same_of (a := a) (k := k) x ?_ fun _ => ?_
            unfold x
            try lift_lets -underBinder
            rotate_left
            clear_value x)
         | clear_value x
         | skip)
    | lift_lets -underBinder | with_reducible apply State.alu_same | (split <;> try lift_lets -underBinder)

theorem execMul_same {k : Part} {a s : State} {x1 x2 x3 x4 x5} (hk : k ∉ [.engines]) (h : State.Same k a s) :
    ∃ t, execMul x1 x2 x3 x4 x5 s = .next t ∧ State.Same k a t := by
  refine ⟨_, rfl, ?_⟩
  try lift_lets -underBinder
  repeat' first
    | with_reducible assumption | exact notMem_of hk (by decide +kernel)
    | (intro x
       first
         | (refine same_of (a := a) (k := k) x ?_ fun _ => ?_
            unfold x
            try lift_lets -underBinder
            rotate_left
            clear_value x)
         | clear_value x
         | skip)
    | lift_lets -underBinder | with_reducible apply State.alu_same | (split <;> try lift_lets -underBinder)

theorem execMac_same {k : Part} {a s : State} {x1 x2 x3 x4 x5} (hk : k ∉ [.engines]) (h : State.Same k a s) :
    ∃ t, execMac x1 x2 x3 x4 x5 s = .next t ∧ State.Same k a t := by
  refine ⟨_, rfl, ?_⟩
  try lift_lets -underBinder
  repeat' first
    | with_reducible assumption | exact notMem_of hk (by decide +kernel)
    | (intro x
       first
         | (refine same_of (a := a) (k := k) x ?_ fun _ => ?_
            unfold x
            try lift_lets -underBinder
            rotate_left
            clear_value x)
         | clear_value x
         | skip)
    | lift_lets -underBinder | with_reducible apply State.alu_same | (split <;> try lift_lets -underBinder)

theorem execAcc_same {k : Part} {a s : State} {x1 x2 x3 x4} (hk : k ∉ [.engines]) (h : State.Same k a s) :
    ∃ t, execAcc x1 x2 x3 x4 s = .next t ∧ State.Same k a t := by
  refine ⟨_, rfl, ?_⟩
  try lift_lets -underBinder
  repeat' first
    | with_reducible assumption | exact notMem_of hk (by decide +kernel)
    | (intro x
       first
         | (refine same_of (a := a) (k := k) x ?_ fun _ => ?_
            unfold x
            try lift_lets -underBinder
            rotate_left
            clear_value x)
         | clear_value x
         | skip)
    | lift_lets -underBinder | with_reducible apply State.alu_same | (split <;> try lift_lets -underBinder)

theorem execSta_same {k : Part} {a s : State} {x1 x2 x3 x4} (hk : k ∉ [.engines]) (h : State.Same k a s) :
    ∃ t, execSta x1 x2 x3 x4 s = .next t ∧ State.Same k a t := by
  refine ⟨_, rfl, ?_⟩
  try lift_lets -underBinder
  repeat' first
    | with_reducible assumption | exact notMem_of hk (by decide +kernel)
    | (intro x
       first
         | (refine same_of (a := a) (k := k) x ?_ fun _ => ?_
            unfold x
            try lift_lets -underBinder
            rotate_left
            clear_value x)
         | clear_value x
         | skip)
    | lift_lets -underBinder | with_reducible apply State.alu_same | (split <;> try lift_lets -underBinder)

theorem execMin_same {k : Part} {a s : State} {x1 x2 x3 x4 x5} (hk : k ∉ [.engines]) (h : State.Same k a s) :
    ∃ t, execMin x1 x2 x3 x4 x5 s = .next t ∧ State.Same k a t := by
  refine ⟨_, rfl, ?_⟩
  try lift_lets -underBinder
  repeat' first
    | with_reducible assumption | exact notMem_of hk (by decide +kernel)
    | (intro x
       first
         | (refine same_of (a := a) (k := k) x ?_ fun _ => ?_
            unfold x
            try lift_lets -underBinder
            rotate_left
            clear_value x)
         | clear_value x
         | skip)
    | lift_lets -underBinder | with_reducible apply State.alu_same | (split <;> try lift_lets -underBinder)

theorem execMax_same {k : Part} {a s : State} {x1 x2 x3 x4 x5} (hk : k ∉ [.engines]) (h : State.Same k a s) :
    ∃ t, execMax x1 x2 x3 x4 x5 s = .next t ∧ State.Same k a t := by
  refine ⟨_, rfl, ?_⟩
  try lift_lets -underBinder
  repeat' first
    | with_reducible assumption | exact notMem_of hk (by decide +kernel)
    | (intro x
       first
         | (refine same_of (a := a) (k := k) x ?_ fun _ => ?_
            unfold x
            try lift_lets -underBinder
            rotate_left
            clear_value x)
         | clear_value x
         | skip)
    | lift_lets -underBinder | with_reducible apply State.alu_same | (split <;> try lift_lets -underBinder)

theorem execLim_same {k : Part} {a s : State} {x1 x2 x3 x4 x5} (hk : k ∉ [.engines]) (h : State.Same k a s) :
    ∃ t, execLim x1 x2 x3 x4 x5 s = .next t ∧ State.Same k a t := by
  refine ⟨_, rfl, ?_⟩
  try lift_lets -underBinder
  repeat' first
    | with_reducible assumption | exact notMem_of hk (by decide +kernel)
    | (intro x
       first
         | (refine same_of (a := a) (k := k) x ?_ fun _ => ?_
            unfold x
            try lift_lets -underBinder
            rotate_left
            clear_value x)
         | clear_value x
         | skip)
    | lift_lets -underBinder | with_reducible apply State.alu_same | (split <;> try lift_lets -underBinder)

theorem execShf_same {k : Part} {a s : State} {x1 x2 x3 x4 x5} (hk : k ∉ [.engines]) (h : State.Same k a s) :
    ∃ t, execShf x1 x2 x3 x4 x5 s = .next t ∧ State.Same k a t := by
  refine ⟨_, rfl, ?_⟩
  try lift_lets -underBinder
  repeat' first
    | with_reducible assumption | exact notMem_of hk (by decide +kernel)
    | (intro x
       first
         | (refine same_of (a := a) (k := k) x ?_ fun _ => ?_
            unfold x
            try lift_lets -underBinder
            rotate_left
            clear_value x)
         | clear_value x
         | skip)
    | lift_lets -underBinder | with_reducible apply State.alu_same | (split <;> try lift_lets -underBinder)

theorem execFlt_same {k : Part} {a s : State} {x1 x2 x3 x4 x5} (hk : k ∉ [.engines]) (h : State.Same k a s) :
    ∃ t, execFlt x1 x2 x3 x4 x5 s = .next t ∧ State.Same k a t := by
  refine ⟨_, rfl, ?_⟩
  try lift_lets -underBinder
  repeat' first
    | with_reducible assumption | exact notMem_of hk (by decide +kernel)
    | (intro x
       first
         | (refine same_of (a := a) (k := k) x ?_ fun _ => ?_
            unfold x
            try lift_lets -underBinder
            rotate_left
            clear_value x)
         | clear_value x
         | skip)
    | lift_lets -underBinder | with_reducible apply State.alu_same | (split <;> try lift_lets -underBinder)

theorem execBqd_same {k : Part} {a s : State} {x1 x2 x3 x4 x5} (hk : k ∉ [.engines]) (h : State.Same k a s) :
    ∃ t, execBqd x1 x2 x3 x4 x5 s = .next t ∧ State.Same k a t := by
  refine ⟨_, rfl, ?_⟩
  try lift_lets -underBinder
  repeat' first
    | with_reducible assumption | exact notMem_of hk (by decide +kernel)
    | (intro x
       first
         | (refine same_of (a := a) (k := k) x ?_ fun _ => ?_
            unfold x
            try lift_lets -underBinder
            rotate_left
            clear_value x)
         | clear_value x
         | skip)
    | lift_lets -underBinder | with_reducible apply State.alu_same | (split <;> try lift_lets -underBinder)

theorem execPi_same {k : Part} {a s : State} {x1 x2 x3 x4 x5} (hk : k ∉ [.engines]) (h : State.Same k a s) :
    ∃ t, execPi x1 x2 x3 x4 x5 s = .next t ∧ State.Same k a t := by
  refine ⟨_, rfl, ?_⟩
  try lift_lets -underBinder
  repeat' first
    | with_reducible assumption | exact notMem_of hk (by decide +kernel)
    | (intro x
       first
         | (refine same_of (a := a) (k := k) x ?_ fun _ => ?_
            unfold x
            try lift_lets -underBinder
            rotate_left
            clear_value x)
         | clear_value x
         | skip)
    | lift_lets -underBinder | with_reducible apply State.alu_same | (split <;> try lift_lets -underBinder)

theorem execDiv_same {k : Part} {a s : State} {x1 x2 x3 x4 x5} (hk : k ∉ [.engines]) (h : State.Same k a s) :
    ∃ t, execDiv x1 x2 x3 x4 x5 s = .next t ∧ State.Same k a t := by
  refine ⟨_, rfl, ?_⟩
  try lift_lets -underBinder
  repeat' first
    | with_reducible assumption | exact notMem_of hk (by decide +kernel)
    | (intro x
       first
         | (refine same_of (a := a) (k := k) x ?_ fun _ => ?_
            unfold x
            try lift_lets -underBinder
            rotate_left
            clear_value x)
         | clear_value x
         | skip)
    | lift_lets -underBinder | with_reducible apply State.alu_same | (split <;> try lift_lets -underBinder)

theorem execCrv_same {k : Part} {a s : State} {x1 x2 x3 x4 x5} (hk : k ∉ [.engines]) (h : State.Same k a s) :
    ∃ t, execCrv x1 x2 x3 x4 x5 s = .next t ∧ State.Same k a t := by
  refine ⟨_, rfl, ?_⟩
  try lift_lets -underBinder
  repeat' first
    | with_reducible assumption | exact notMem_of hk (by decide +kernel)
    | (intro x
       first
         | (refine same_of (a := a) (k := k) x ?_ fun _ => ?_
            unfold x
            try lift_lets -underBinder
            rotate_left
            clear_value x)
         | clear_value x
         | skip)
    | lift_lets -underBinder | with_reducible apply State.micro_same | with_reducible apply State.setEng_same
    | (split <;> try lift_lets -underBinder)

theorem execCmp_same {k : Part} {a s : State} {x1 x2 x3 x4} (hk : k ∉ [.engines]) (h : State.Same k a s) :
    ∃ t, execCmp x1 x2 x3 x4 s = .next t ∧ State.Same k a t := by
  refine ⟨_, rfl, ?_⟩
  try lift_lets -underBinder
  repeat' first
    | with_reducible assumption | exact notMem_of hk (by decide +kernel)
    | (intro x
       first
         | (refine same_of (a := a) (k := k) x ?_ fun _ => ?_
            unfold x
            try lift_lets -underBinder
            rotate_left
            clear_value x)
         | clear_value x
         | skip)
    | lift_lets -underBinder | with_reducible apply State.alu_same | (split <;> try lift_lets -underBinder)

theorem execBr_same {k : Part} {a s : State} {x1 x2 x3 x4} (hk : k ∉ [.engines]) (h : State.Same k a s) :
    ∃ t, execBr x1 x2 x3 x4 s = .next t ∧ State.Same k a t := by
  refine ⟨_, rfl, ?_⟩
  try lift_lets -underBinder
  repeat' first
    | with_reducible assumption | exact notMem_of hk (by decide +kernel)
    | (intro x
       first
         | (refine same_of (a := a) (k := k) x ?_ fun _ => ?_
            unfold x
            try lift_lets -underBinder
            rotate_left
            clear_value x)
         | clear_value x
         | skip)
    | lift_lets -underBinder | with_reducible apply State.alu_same | (split <;> try lift_lets -underBinder)

theorem execTrm_same {k : Part} {a s : State} {x1 x2} (hk : k ∉ [.chans, .engines]) (h : State.Same k a s) :
    ∃ t, execTrm x1 x2 s = .next t ∧ State.Same k a t := by
  refine ⟨_, rfl, ?_⟩
  try lift_lets -underBinder
  repeat' first
    | with_reducible assumption | exact notMem_of hk (by decide +kernel)
    | (intro x
       first
         | (refine same_of (a := a) (k := k) x ?_ fun _ => ?_
            unfold x
            try lift_lets -underBinder
            rotate_left
            clear_value x)
         | clear_value x
         | skip)
    | lift_lets -underBinder | with_reducible apply State.micro_same | with_reducible apply State.setEng_same
    | with_reducible apply State.trm_same | (split <;> try lift_lets -underBinder)

theorem execEdg_same {k : Part} {a s : State} {x1 x2 x3 x4} (hk : k ∉ [.reg 0x2833, .engines]) (h : State.Same k a
    s) :
    ∃ t, execEdg x1 x2 x3 x4 s = .next t ∧ State.Same k a t := by
  refine ⟨_, rfl, ?_⟩
  try lift_lets -underBinder
  repeat' first
    | with_reducible assumption | exact notMem_of hk (by decide +kernel)
    | (intro x
       first
         | (refine same_of (a := a) (k := k) x ?_ fun _ => ?_
            unfold x
            try lift_lets -underBinder
            rotate_left
            clear_value x)
         | clear_value x
         | skip)
    | lift_lets -underBinder | with_reducible apply State.micro_same | with_reducible apply State.inc_same
    | with_reducible apply State.setEng_same | (split <;> try lift_lets -underBinder)

theorem execCmt_same {k : Part} {a s : State} {x1 x2} (hk : k ∉ [.reg 0x2833, .engines]) (h : State.Same k a s) :
    ∃ t, execCmt x1 x2 s = .next t ∧ State.Same k a t := by
  refine ⟨_, rfl, ?_⟩
  try lift_lets -underBinder
  repeat' first
    | with_reducible assumption | exact notMem_of hk (by decide +kernel)
    | (intro x
       first
         | (refine same_of (a := a) (k := k) x ?_ fun _ => ?_
            unfold x
            try lift_lets -underBinder
            rotate_left
            clear_value x)
         | clear_value x
         | skip)
    | lift_lets -underBinder | with_reducible apply State.micro_same | with_reducible apply State.inc_same
    | with_reducible apply State.setEng_same | (split <;> try lift_lets -underBinder)

theorem execLat_same {k : Part} {a s : State} {x1 x2 x3} (hk : k ∉ [.reg 0x2402, .reg 0x2444, .reg 0x2810, .reg
    0x3040, .reg 0x3101, .reg 0x341A, .reg 0x3420, .reg 0x344E, .reg 0x344F, .reg 0x3450, .reg 0x3457, .reg 0x6000,
    .reg 0x6010, .reg 0x6012, .chans, .units, .slots, .engines, .dies, .bldc, .axes, .power, .trail, .lane, .flight,
    .free]) (h : State.Same k a s) :
    ∃ t, execLat x1 x2 x3 s = .next t ∧ State.Same k a t := by
  refine ⟨_, rfl, ?_⟩
  try lift_lets -underBinder
  repeat' first
    | with_reducible assumption | exact notMem_of hk (by decide +kernel)
    | (intro x
       first
         | (refine same_of (a := a) (k := k) x ?_ fun _ => ?_
            unfold x
            try lift_lets -underBinder
            rotate_left
            clear_value x)
         | clear_value x
         | skip)
    | lift_lets -underBinder | with_reducible apply State.micro_same | with_reducible apply State.latchSlot_same
    | with_reducible apply State.setEng_same | (split <;> try lift_lets -underBinder)

theorem execPub_same {k : Part} {a s : State} {x1 x2 x3 x4} (hk : k ∉ [.engines]) (h : State.Same k a s) :
    ∃ t, execPub x1 x2 x3 x4 s = .next t ∧ State.Same k a t := by
  refine ⟨_, rfl, ?_⟩
  try lift_lets -underBinder
  repeat' first
    | with_reducible assumption | exact notMem_of hk (by decide +kernel)
    | (intro x
       first
         | (refine same_of (a := a) (k := k) x ?_ fun _ => ?_
            unfold x
            try lift_lets -underBinder
            rotate_left
            clear_value x)
         | clear_value x
         | skip)
    | lift_lets -underBinder | with_reducible apply State.alu_same | (split <;> try lift_lets -underBinder)

theorem execLdg_same {k : Part} {a s : State} {x1 x2 x3 x4} (hk : k ∉ [.engines]) (h : State.Same k a s) :
    ∃ t, execLdg x1 x2 x3 x4 s = .next t ∧ State.Same k a t := by
  refine ⟨_, rfl, ?_⟩
  try lift_lets -underBinder
  repeat' first
    | with_reducible assumption | exact notMem_of hk (by decide +kernel)
    | (intro x
       first
         | (refine same_of (a := a) (k := k) x ?_ fun _ => ?_
            unfold x
            try lift_lets -underBinder
            rotate_left
            clear_value x)
         | clear_value x
         | skip)
    | lift_lets -underBinder | with_reducible apply State.micro_same | with_reducible apply State.setEng_same
    | (split <;> try lift_lets -underBinder)

theorem execYld_same {k : Part} {a s : State} {x1 x2} (hk : k ∉ [.engines]) (h : State.Same k a s) :
    ∃ t, execYld x1 x2 s = .next t ∧ State.Same k a t := by
  refine ⟨_, rfl, ?_⟩
  try lift_lets -underBinder
  repeat' first
    | with_reducible assumption | exact notMem_of hk (by decide +kernel)
    | (intro x
       first
         | (refine same_of (a := a) (k := k) x ?_ fun _ => ?_
            unfold x
            try lift_lets -underBinder
            rotate_left
            clear_value x)
         | clear_value x
         | skip)
    | lift_lets -underBinder | with_reducible apply State.alu_same | (split <;> try lift_lets -underBinder)

theorem execDescriptorLoad_same {k : Part} {a s : State} {x1 x2 x3} (hk : k ∉ [.reg 0x1200, .reg 0x1210, .reg
    0x1310, .reg 0x2505, .reg 0x3101, .units, .dies, .descs, .net]) (h : State.Same k a s) :
    ∃ t, execDescriptorLoad x1 x2 x3 s = .next t ∧ State.Same k a t := by
  refine ⟨_, rfl, ?_⟩
  try lift_lets -underBinder
  repeat' first
    | with_reducible assumption | exact notMem_of hk (by decide +kernel)
    | (intro x
       first
         | (refine same_of (a := a) (k := k) x ?_ fun _ => ?_
            unfold x
            try lift_lets -underBinder
            rotate_left
            clear_value x)
         | clear_value x
         | skip)
    | lift_lets -underBinder | with_reducible apply State.writeBlob_same | with_reducible apply descriptorSet_same
    | (split <;> try lift_lets -underBinder)

theorem execDescriptorRemove_same {k : Part} {a s : State} {x1 x2 x3} (hr : k.isObj = false) (hk : k ∉ [.units,
    .slots, .dies, .descs, .net, .trail]) (h : State.Same k a s) :
    ∃ t, execDescriptorRemove x1 x2 x3 s = .next t ∧ State.Same k a t := by
  refine ⟨_, rfl, ?_⟩
  try lift_lets -underBinder
  repeat' first
    | with_reducible assumption | with_reducible exact hr | exact notMem_any hr hk (by decide +kernel)
    | (intro x
       first
         | (refine same_of (a := a) (k := k) x ?_ fun _ => ?_
            unfold x
            try lift_lets -underBinder
            rotate_left
            clear_value x)
         | clear_value x
         | skip)
    | lift_lets -underBinder | with_reducible apply State.writeObj_same | with_reducible apply removeSet_same
    | (split <;> try lift_lets -underBinder)

theorem execCurveTableLoad_same {k : Part} {a s : State} {x1 x2 x3 x4} (hk : k ∉ [.reg 0x1200, .reg 0x1210, .reg
    0x1310, .reg 0x3101, .blob 0x2507, .units, .dies, .net]) (h : State.Same k a s) :
    ∃ t, execCurveTableLoad x1 x2 x3 x4 s = .next t ∧ State.Same k a t := by
  refine ⟨_, rfl, ?_⟩
  try lift_lets -underBinder
  repeat' first
    | with_reducible assumption | exact notMem_of hk (by decide +kernel)
    | (intro x
       first
         | (refine same_of (a := a) (k := k) x ?_ fun _ => ?_
            unfold x
            try lift_lets -underBinder
            rotate_left
            clear_value x)
         | clear_value x
         | skip)
    | lift_lets -underBinder | with_reducible apply State.writeBlob_same | with_reducible apply State.wrB_same
    | (split <;> try lift_lets -underBinder)

theorem execSamplesStale_same {k : Part} {a s : State} {x1} (hk : k ∉ [.reg 0x2402, .reg 0x2444, .reg 0x2810, .reg
    0x6000, .reg 0x6010, .chans, .units, .slots, .engines, .dies, .trail, .lane, .flight]) (h : State.Same k a s) :
    ∃ t, execSamplesStale x1 s = .next t ∧ State.Same k a t := by
  refine ⟨_, rfl, ?_⟩
  try lift_lets -underBinder
  repeat' first
    | with_reducible assumption | exact notMem_of hk (by decide +kernel)
    | (intro x
       first
         | (refine same_of (a := a) (k := k) x ?_ fun _ => ?_
            unfold x
            try lift_lets -underBinder
            rotate_left
            clear_value x)
         | clear_value x
         | skip)
    | lift_lets -underBinder | with_reducible apply State.latchNew_same | (split <;> try lift_lets -underBinder)

theorem execFollowingError_same {k : Part} {a s : State} {x1} (hk : k ∉ [.reg 0x2402, .reg 0x2444, .reg 0x2810, .reg
    0x6000, .reg 0x6010, .chans, .units, .slots, .engines, .dies, .trail, .lane, .flight]) (h : State.Same k a s) :
    ∃ t, execFollowingError x1 s = .next t ∧ State.Same k a t := by
  refine ⟨_, rfl, ?_⟩
  try lift_lets -underBinder
  repeat' first
    | with_reducible assumption | exact notMem_of hk (by decide +kernel)
    | (intro x
       first
         | (refine same_of (a := a) (k := k) x ?_ fun _ => ?_
            unfold x
            try lift_lets -underBinder
            rotate_left
            clear_value x)
         | clear_value x
         | skip)
    | lift_lets -underBinder | with_reducible apply State.latchNew_same | (split <;> try lift_lets -underBinder)

theorem execVoltageLimit_same {k : Part} {a s : State} {x1} (hk : k ∉ [.reg 0x2402, .reg 0x2444, .reg 0x2810, .reg
    0x6000, .reg 0x6010, .chans, .units, .slots, .engines, .dies, .trail, .lane, .flight]) (h : State.Same k a s) :
    ∃ t, execVoltageLimit x1 s = .next t ∧ State.Same k a t := by
  refine ⟨_, rfl, ?_⟩
  try lift_lets -underBinder
  repeat' first
    | with_reducible assumption | exact notMem_of hk (by decide +kernel)
    | (intro x
       first
         | (refine same_of (a := a) (k := k) x ?_ fun _ => ?_
            unfold x
            try lift_lets -underBinder
            rotate_left
            clear_value x)
         | clear_value x
         | skip)
    | lift_lets -underBinder | with_reducible apply State.latchNew_same | (split <;> try lift_lets -underBinder)

theorem execPlausibilityFault_same {k : Part} {a s : State} {x1} (hk : k ∉ [.reg 0x2402, .reg 0x2443, .reg 0x2444,
    .reg 0x2810, .reg 0x6000, .reg 0x6010, .chans, .units, .slots, .engines, .dies, .trail, .lane, .flight]) (h :
    State.Same k a s) :
    ∃ t, execPlausibilityFault x1 s = .next t ∧ State.Same k a t := by
  refine ⟨_, rfl, ?_⟩
  try lift_lets -underBinder
  repeat' first
    | with_reducible assumption | exact notMem_of hk (by decide +kernel)
    | (intro x
       first
         | (refine same_of (a := a) (k := k) x ?_ fun _ => ?_
            unfold x
            try lift_lets -underBinder
            rotate_left
            clear_value x)
         | clear_value x
         | skip)
    | lift_lets -underBinder | with_reducible apply State.inc_same | with_reducible apply State.openCorr_same
    | with_reducible apply State.wr_same | with_reducible apply State.raise_same
    | with_reducible apply State.latchChans_same | (split <;> try lift_lets -underBinder)

theorem execPlausibilityUnavailable_same {k : Part} {a s : State} {x1} (hk : k ∉ [.reg 0x2443, .reg 0x6000, .chans,
    .dies, .trail]) (h : State.Same k a s) :
    ∃ t, execPlausibilityUnavailable x1 s = .next t ∧ State.Same k a t := by
  refine ⟨_, rfl, ?_⟩
  try lift_lets -underBinder
  repeat' first
    | with_reducible assumption | exact notMem_of hk (by decide +kernel)
    | (intro x
       first
         | (refine same_of (a := a) (k := k) x ?_ fun _ => ?_
            unfold x
            try lift_lets -underBinder
            rotate_left
            clear_value x)
         | clear_value x
         | skip)
    | lift_lets -underBinder | with_reducible apply State.setChan_same | with_reducible apply State.wr_same
    | with_reducible apply State.noteAt_same | (split <;> try lift_lets -underBinder)

theorem execRecipeLoad_same {k : Part} {a s : State} {x1 x2 x3 x4} (hr : k.isObj = false) (hk : k ∉ [.units, .dies,
    .net]) (h : State.Same k a s) :
    ∃ t, execRecipeLoad x1 x2 x3 x4 s = .next t ∧ State.Same k a t := by
  refine ⟨_, rfl, ?_⟩
  try lift_lets -underBinder
  repeat' first
    | with_reducible assumption | with_reducible exact hr | exact notMem_any hr hk (by decide +kernel)
    | (intro x
       first
         | (refine same_of (a := a) (k := k) x ?_ fun _ => ?_
            unfold x
            try lift_lets -underBinder
            rotate_left
            clear_value x)
         | clear_value x
         | skip)
    | lift_lets -underBinder | with_reducible apply State.writeBlob_same | with_reducible apply recipeSet_same
    | (split <;> try lift_lets -underBinder)

theorem execRunStart_same {k : Part} {a s : State} {x1 x2 x3} (hk : k ∉ [.reg 0x1200, .reg 0x1210, .reg 0x1310, .reg
    0x2402, .reg 0x2403, .reg 0x2404, .reg 0x2500, .reg 0x3101, .reg 0x6000, .clock, .chans, .units, .slots, .dies,
    .net, .trail, .standbyDue]) (h : State.Same k a s) :
    ∃ t, execRunStart x1 x2 x3 s = .next t ∧ State.Same k a t := by
  refine ⟨_, rfl, ?_⟩
  try lift_lets -underBinder
  repeat' first
    | with_reducible assumption | exact notMem_of hk (by decide +kernel)
    | (intro x
       first
         | (refine same_of (a := a) (k := k) x ?_ fun _ => ?_
            unfold x
            try lift_lets -underBinder
            rotate_left
            clear_value x)
         | clear_value x
         | skip)
    | lift_lets -underBinder | with_reducible apply State.writeObj_same | with_reducible apply when'_same
    | with_reducible apply State.markInvalid_same | with_reducible apply startSet_same
    | (split <;> try lift_lets -underBinder)

theorem execRunStop_same {k : Part} {a s : State} {x1 x2 x3} (hk : k ∉ [.reg 0x1200, .reg 0x1210, .reg 0x1310, .reg
    0x2402, .reg 0x2444, .reg 0x3101, .chans, .units, .slots, .dies, .net]) (h : State.Same k a s) :
    ∃ t, execRunStop x1 x2 x3 s = .next t ∧ State.Same k a t := by
  refine ⟨_, rfl, ?_⟩
  try lift_lets -underBinder
  repeat' first
    | with_reducible assumption | exact notMem_of hk (by decide +kernel)
    | (intro x
       first
         | (refine same_of (a := a) (k := k) x ?_ fun _ => ?_
            unfold x
            try lift_lets -underBinder
            rotate_left
            clear_value x)
         | clear_value x
         | skip)
    | lift_lets -underBinder | with_reducible apply State.writeObj_same | with_reducible apply stopSet_same
    | (split <;> try lift_lets -underBinder)

theorem execRunContinue_same {k : Part} {a s : State} {x1 x2 x3} (hk : k ∉ [.reg 0x1200, .reg 0x1210, .reg 0x1310,
    .reg 0x2402, .reg 0x2403, .reg 0x2406, .reg 0x2444, .reg 0x3101, .chans, .units, .slots, .dies, .groups, .net,
    .lane, .flight]) (h : State.Same k a s) :
    ∃ t, execRunContinue x1 x2 x3 s = .next t ∧ State.Same k a t := by
  refine ⟨_, rfl, ?_⟩
  try lift_lets -underBinder
  repeat' first
    | with_reducible assumption | exact notMem_of hk (by decide +kernel)
    | (intro x
       first
         | (refine same_of (a := a) (k := k) x ?_ fun _ => ?_
            unfold x
            try lift_lets -underBinder
            rotate_left
            clear_value x)
         | clear_value x
         | skip)
    | lift_lets -underBinder | with_reducible apply State.writeObj_same | with_reducible apply continueSet_same
    | (split <;> try lift_lets -underBinder)

theorem execMilestoneClose_same {k : Part} {a s : State} {x1} (hk : k ∉ [.reg 0x2402, .reg 0x2403, .reg 0x2406, .reg
    0x2444, .chans, .units, .slots, .engines, .groups, .lane, .flight]) (h : State.Same k a s) :
    ∃ t, execMilestoneClose x1 s = .next t ∧ State.Same k a t := by
  refine ⟨_, rfl, ?_⟩
  try lift_lets -underBinder
  repeat' first
    | with_reducible assumption | exact notMem_of hk (by decide +kernel)
    | (intro x
       first
         | (refine same_of (a := a) (k := k) x ?_ fun _ => ?_
            unfold x
            try lift_lets -underBinder
            rotate_left
            clear_value x)
         | clear_value x
         | skip)
    | lift_lets -underBinder | with_reducible apply State.milestone_same | (split <;> try lift_lets -underBinder)

theorem execGroupWaitLimit_same {k : Part} {a s : State} {x1} (hk : k ∉ [.reg 0x2404, .reg 0x2406, .reg 0x2407, .reg
    0x6000, .dies, .groups, .trail]) (h : State.Same k a s) :
    ∃ t, execGroupWaitLimit x1 s = .next t ∧ State.Same k a t := by
  refine ⟨_, rfl, ?_⟩
  try lift_lets -underBinder
  repeat' first
    | with_reducible assumption | exact notMem_of hk (by decide +kernel)
    | (intro x
       first
         | (refine same_of (a := a) (k := k) x ?_ fun _ => ?_
            unfold x
            try lift_lets -underBinder
            rotate_left
            clear_value x)
         | clear_value x
         | skip)
    | lift_lets -underBinder | with_reducible apply each_same | with_reducible apply State.noteAt_same
    | with_reducible apply State.wr_same | with_reducible apply State.setDue_same
    | (split <;> try lift_lets -underBinder)

theorem execGroupStart_same {k : Part} {a s : State} {x1} (hk : k ∉ [.reg 0x1200, .reg 0x1210, .reg 0x2402, .reg
    0x2403, .reg 0x2406, .reg 0x2444, .reg 0x3101, .chans, .units, .slots, .dies, .groups, .lane, .flight]) (h :
    State.Same k a s) :
    ∃ t, execGroupStart x1 s = .next t ∧ State.Same k a t := by
  refine ⟨_, rfl, ?_⟩
  try lift_lets -underBinder
  repeat' first
    | with_reducible assumption | exact notMem_of hk (by decide +kernel)
    | (intro x
       first
         | (refine same_of (a := a) (k := k) x ?_ fun _ => ?_
            unfold x
            try lift_lets -underBinder
            rotate_left
            clear_value x)
         | clear_value x
         | skip)
    | lift_lets -underBinder | with_reducible apply each_same | with_reducible apply State.wakeDie_same
    | with_reducible apply State.wr_same | with_reducible apply State.setGroup_same
    | with_reducible apply State.setRunSt_same | with_reducible apply State.setRun_same
    | with_reducible apply State.beginStep_same | (split <;> try lift_lets -underBinder)

theorem execWindowCrossing_same {k : Part} {a s : State} {x1 x2 x3} (hk : k ∉ [.reg 0x3037, .reg 0x3040, .reg
    0x3050, .reg 0x3060, .reg 0x341A, .reg 0x341E, .reg 0x3420, .reg 0x344E, .reg 0x344F, .reg 0x3450, .reg 0x3457,
    .reg 0x6000, .units, .engines, .dies, .bldc, .axes, .power, .trail]) (h : State.Same k a s) :
    ∃ t, execWindowCrossing x1 x2 x3 s = .next t ∧ State.Same k a t := by
  refine ⟨_, rfl, ?_⟩
  try lift_lets -underBinder
  repeat' first
    | with_reducible assumption | exact notMem_of hk (by decide +kernel)
    | (intro x
       first
         | (refine same_of (a := a) (k := k) x ?_ fun _ => ?_
            unfold x
            try lift_lets -underBinder
            rotate_left
            clear_value x)
         | clear_value x
         | skip)
    | lift_lets -underBinder | with_reducible apply State.crossed_same | with_reducible apply State.wr_same
    | (split <;> try lift_lets -underBinder)

theorem execOv1Release_same {k : Part} {a s : State} (hk : k ∉ [.dies, .power, .trail]) (h : State.Same k a s) :
    ∃ t, execOv1Release s = .next t ∧ State.Same k a t := by
  refine ⟨_, rfl, ?_⟩
  try lift_lets -underBinder
  repeat' first
    | with_reducible assumption | exact notMem_of hk (by decide +kernel)
    | (intro x
       first
         | (refine same_of (a := a) (k := k) x ?_ fun _ => ?_
            unfold x
            try lift_lets -underBinder
            rotate_left
            clear_value x)
         | clear_value x
         | skip)
    | lift_lets -underBinder | with_reducible apply State.setPower_same | with_reducible apply State.raiseAll_same
    | with_reducible apply State.openCorr_same | (split <;> try lift_lets -underBinder)

theorem execDcovTrip_same {k : Part} {a s : State} {x1} (hk : k ∉ [.reg 0x3050, .reg 0x3060, .reg 0x3070, .reg
    0x4021, .reg 0x6000, .units, .dies, .power, .sup, .trail]) (h : State.Same k a s) :
    ∃ t, execDcovTrip x1 s = .next t ∧ State.Same k a t := by
  refine ⟨_, rfl, ?_⟩
  try lift_lets -underBinder
  repeat' first
    | with_reducible assumption | exact notMem_of hk (by decide +kernel)
    | (intro x
       first
         | (refine same_of (a := a) (k := k) x ?_ fun _ => ?_
            unfold x
            try lift_lets -underBinder
            rotate_left
            clear_value x)
         | clear_value x
         | skip)
    | lift_lets -underBinder | with_reducible apply State.setPower_same | with_reducible apply State.level3_same
    | (split <;> try lift_lets -underBinder)

theorem execDcovRelease_same {k : Part} {a s : State} {x1} (hk : k ∉ [.power]) (h : State.Same k a s) :
    ∃ t, execDcovRelease x1 s = .next t ∧ State.Same k a t := by
  refine ⟨_, rfl, ?_⟩
  try lift_lets -underBinder
  repeat' first
    | with_reducible assumption | exact notMem_of hk (by decide +kernel)
    | (intro x
       first
         | (refine same_of (a := a) (k := k) x ?_ fun _ => ?_
            unfold x
            try lift_lets -underBinder
            rotate_left
            clear_value x)
         | clear_value x
         | skip)
    | lift_lets -underBinder | with_reducible apply State.setPower_same | (split <;> try lift_lets -underBinder)

theorem execCrossCheckDisagreement_same {k : Part} {a s : State} {x1} (hk : k ∉ [.reg 0x3050, .reg 0x6000, .dies,
    .power, .trail]) (h : State.Same k a s) :
    ∃ t, execCrossCheckDisagreement x1 s = .next t ∧ State.Same k a t := by
  refine ⟨_, rfl, ?_⟩
  try lift_lets -underBinder
  repeat' first
    | with_reducible assumption | exact notMem_of hk (by decide +kernel)
    | (intro x
       first
         | (refine same_of (a := a) (k := k) x ?_ fun _ => ?_
            unfold x
            try lift_lets -underBinder
            rotate_left
            clear_value x)
         | clear_value x
         | skip)
    | lift_lets -underBinder | with_reducible apply State.controlledStop_same
    | (split <;> try lift_lets -underBinder)

theorem execHubSamplesStale_same {k : Part} {a s : State} {x1} (hk : k ∉ [.reg 0x3050, .reg 0x6000, .slots, .dies,
    .power, .trail]) (h : State.Same k a s) :
    ∃ t, execHubSamplesStale x1 s = .next t ∧ State.Same k a t := by
  refine ⟨_, rfl, ?_⟩
  try lift_lets -underBinder
  repeat' first
    | with_reducible assumption | exact notMem_of hk (by decide +kernel)
    | (intro x
       first
         | (refine same_of (a := a) (k := k) x ?_ fun _ => ?_
            unfold x
            try lift_lets -underBinder
            rotate_left
            clear_value x)
         | clear_value x
         | skip)
    | lift_lets -underBinder | with_reducible apply State.controlledStop_same
    | with_reducible apply State.setSlot_same | (split <;> try lift_lets -underBinder)

theorem execGridLocked_same {k : Part} {a s : State} (hk : k ∉ [.reg 0x3040, .reg 0x3050, .reg 0x4021, .power,
    .sup]) (h : State.Same k a s) :
    ∃ t, execGridLocked s = .next t ∧ State.Same k a t := by
  refine ⟨_, rfl, ?_⟩
  try lift_lets -underBinder
  repeat' first
    | with_reducible assumption | exact notMem_of hk (by decide +kernel)
    | (intro x
       first
         | (refine same_of (a := a) (k := k) x ?_ fun _ => ?_
            unfold x
            try lift_lets -underBinder
            rotate_left
            clear_value x)
         | clear_value x
         | skip)
    | lift_lets -underBinder | with_reducible apply State.wr_same | with_reducible apply State.setPower_same
    | with_reducible apply State.closeKdrv_same | with_reducible apply State.setLink_same
    | (split <;> try lift_lets -underBinder)

end Sys2Proof.Machine
end

