-- ==== Sys2Proof/Laws/FramePower.lean ====
section
/-! SUPPORT. Which parts of the state the commands 184 to 274 of the table can change: one lemma for each. -/

namespace Sys2Proof.Machine

set_option Elab.async false

set_option linter.unreachableTactic false
set_option linter.unusedTactic false

theorem execGridLoss_same {k : Part} {a s : State} (hk : k ∉ [.reg 0x3040, .reg 0x3050, .reg 0x6000, .dies, .power,
    .trail]) (h : State.Same k a s) :
    ∃ t, execGridLoss s = .next t ∧ State.Same k a t := by
  refine ⟨_, rfl, ?_⟩
  try lift_lets -underBinder
  repeat' first
    | with_reducible assumption | exact notMem_of hk (by decide +kernel)
    | (intro x
       first
         | (refine same_of (a := a) (k := k) x ?_ fun _ => ?_
            unfold x
            try lift_lets -underBinder
            rotate_left
            clear_value x)
         | clear_value x
         | skip)
    | lift_lets -underBinder | with_reducible apply State.controlledStop_same | with_reducible apply State.wr_same
    | with_reducible apply State.setPower_same | (split <;> try lift_lets -underBinder)

theorem execPowerStart_same {k : Part} {a s : State} {x1} (hk : k ∉ [.reg 0x1200, .reg 0x1210, .reg 0x1310, .reg
    0x2500, .reg 0x2803, .reg 0x3040, .reg 0x3050, .reg 0x3060, .reg 0x3070, .reg 0x3101, .reg 0x3104, .reg 0x4000,
    .reg 0x6000, .reg 0x6012, .clock, .units, .slots, .dies, .power, .net, .trail, .standbyDue]) (h : State.Same k a
    s) :
    ∃ t, execPowerStart x1 s = .next t ∧ State.Same k a t := by
  refine ⟨_, rfl, ?_⟩
  try lift_lets -underBinder
  repeat' first
    | with_reducible assumption | exact notMem_of hk (by decide +kernel)
    | (intro x
       first
         | (refine same_of (a := a) (k := k) x ?_ fun _ => ?_
            unfold x
            try lift_lets -underBinder
            rotate_left
            clear_value x)
         | clear_value x
         | skip)
    | lift_lets -underBinder | with_reducible apply State.writeObj_same | with_reducible apply powerSet_same
    | (split <;> try lift_lets -underBinder)

theorem execPowerStop_same {k : Part} {a s : State} {x1} (hk : k ∉ [.reg 0x1200, .reg 0x1210, .reg 0x1310, .reg
    0x2500, .reg 0x2803, .reg 0x3040, .reg 0x3050, .reg 0x3060, .reg 0x3070, .reg 0x3101, .reg 0x3104, .reg 0x4000,
    .reg 0x6000, .reg 0x6012, .clock, .units, .slots, .dies, .power, .net, .trail, .standbyDue]) (h : State.Same k a
    s) :
    ∃ t, execPowerStop x1 s = .next t ∧ State.Same k a t := by
  refine ⟨_, rfl, ?_⟩
  try lift_lets -underBinder
  repeat' first
    | with_reducible assumption | exact notMem_of hk (by decide +kernel)
    | (intro x
       first
         | (refine same_of (a := a) (k := k) x ?_ fun _ => ?_
            unfold x
            try lift_lets -underBinder
            rotate_left
            clear_value x)
         | clear_value x
         | skip)
    | lift_lets -underBinder | with_reducible apply State.writeObj_same | with_reducible apply powerSet_same
    | (split <;> try lift_lets -underBinder)

theorem execGridSyncTimeout_same {k : Part} {a s : State} (hk : k ∉ [.reg 0x3050, .reg 0x6000, .dies, .power,
    .trail]) (h : State.Same k a s) :
    ∃ t, execGridSyncTimeout s = .next t ∧ State.Same k a t := by
  refine ⟨_, rfl, ?_⟩
  try lift_lets -underBinder
  repeat' first
    | with_reducible assumption | exact notMem_of hk (by decide +kernel)
    | (intro x
       first
         | (refine same_of (a := a) (k := k) x ?_ fun _ => ?_
            unfold x
            try lift_lets -underBinder
            rotate_left
            clear_value x)
         | clear_value x
         | skip)
    | lift_lets -underBinder | with_reducible apply State.controlledStop_same
    | (split <;> try lift_lets -underBinder)

theorem execPrechargeComplete_same {k : Part} {a s : State} (hk : k ∉ [.reg 0x3070, .reg 0x4021, .units, .power,
    .sup]) (h : State.Same k a s) :
    ∃ t, execPrechargeComplete s = .next t ∧ State.Same k a t := by
  refine ⟨_, rfl, ?_⟩
  try lift_lets -underBinder
  repeat' first
    | with_reducible assumption | exact notMem_of hk (by decide +kernel)
    | (intro x
       first
         | (refine same_of (a := a) (k := k) x ?_ fun _ => ?_
            unfold x
            try lift_lets -underBinder
            rotate_left
            clear_value x)
         | clear_value x
         | skip)
    | lift_lets -underBinder | with_reducible apply State.setPower_same | with_reducible apply State.chopOn_same
    | with_reducible apply State.closeKdrv_same | with_reducible apply State.wr_same
    | with_reducible apply State.chopOff_same | (split <;> try lift_lets -underBinder)

theorem execPrechargeTimeout_same {k : Part} {a s : State} (hk : k ∉ [.reg 0x3050, .reg 0x6000, .dies, .power,
    .trail]) (h : State.Same k a s) :
    ∃ t, execPrechargeTimeout s = .next t ∧ State.Same k a t := by
  refine ⟨_, rfl, ?_⟩
  try lift_lets -underBinder
  repeat' first
    | with_reducible assumption | exact notMem_of hk (by decide +kernel)
    | (intro x
       first
         | (refine same_of (a := a) (k := k) x ?_ fun _ => ?_
            unfold x
            try lift_lets -underBinder
            rotate_left
            clear_value x)
         | clear_value x
         | skip)
    | lift_lets -underBinder | with_reducible apply State.controlledStop_same
    | (split <;> try lift_lets -underBinder)

theorem execMainContactorClosed_same {k : Part} {a s : State} (hk : k ∉ [.reg 0x3050, .reg 0x4021, .units, .power,
    .sup]) (h : State.Same k a s) :
    ∃ t, execMainContactorClosed s = .next t ∧ State.Same k a t := by
  refine ⟨_, rfl, ?_⟩
  try lift_lets -underBinder
  repeat' first
    | with_reducible assumption | exact notMem_of hk (by decide +kernel)
    | (intro x
       first
         | (refine same_of (a := a) (k := k) x ?_ fun _ => ?_
            unfold x
            try lift_lets -underBinder
            rotate_left
            clear_value x)
         | clear_value x
         | skip)
    | lift_lets -underBinder | with_reducible apply State.setLink_same | with_reducible apply State.openKdrv_same
    | with_reducible apply State.setPower_same | with_reducible apply each_same
    | with_reducible apply State.startUnit_same | (split <;> try lift_lets -underBinder)

theorem execAfeRampComplete_same {k : Part} {a s : State} (hk : k ∉ [.reg 0x3050, .reg 0x3101, .units, .dies,
    .power]) (h : State.Same k a s) :
    ∃ t, execAfeRampComplete s = .next t ∧ State.Same k a t := by
  refine ⟨_, rfl, ?_⟩
  try lift_lets -underBinder
  repeat' first
    | with_reducible assumption | exact notMem_of hk (by decide +kernel)
    | (intro x
       first
         | (refine same_of (a := a) (k := k) x ?_ fun _ => ?_
            unfold x
            try lift_lets -underBinder
            rotate_left
            clear_value x)
         | clear_value x
         | skip)
    | lift_lets -underBinder | with_reducible apply each_same | with_reducible apply State.startDabs_same
    | with_reducible apply State.setLink_same | (split <;> try lift_lets -underBinder)

theorem execSegmentBusesReady_same {k : Part} {a s : State} (hk : k ∉ [.reg 0x3050, .power]) (h : State.Same k a s) :
    ∃ t, execSegmentBusesReady s = .next t ∧ State.Same k a t := by
  refine ⟨_, rfl, ?_⟩
  try lift_lets -underBinder
  repeat' first
    | with_reducible assumption | exact notMem_of hk (by decide +kernel)
    | (intro x
       first
         | (refine same_of (a := a) (k := k) x ?_ fun _ => ?_
            unfold x
            try lift_lets -underBinder
            rotate_left
            clear_value x)
         | clear_value x
         | skip)
    | lift_lets -underBinder | with_reducible apply State.setLink_same | (split <;> try lift_lets -underBinder)

theorem execControlledStop_same {k : Part} {a s : State} {x1} (hk : k ∉ [.reg 0x3050, .reg 0x6000, .dies, .power,
    .trail]) (h : State.Same k a s) :
    ∃ t, execControlledStop x1 s = .next t ∧ State.Same k a t := by
  refine ⟨_, rfl, ?_⟩
  try lift_lets -underBinder
  repeat' first
    | with_reducible assumption | exact notMem_of hk (by decide +kernel)
    | (intro x
       first
         | (refine same_of (a := a) (k := k) x ?_ fun _ => ?_
            unfold x
            try lift_lets -underBinder
            rotate_left
            clear_value x)
         | clear_value x
         | skip)
    | lift_lets -underBinder | with_reducible apply State.controlledStop_same
    | (split <;> try lift_lets -underBinder)

theorem execSegmentStopDelay_same {k : Part} {a s : State} (hk : k ∉ [.reg 0x4021, .units, .dies, .power, .sup]) (h
    : State.Same k a s) :
    ∃ t, execSegmentStopDelay s = .next t ∧ State.Same k a t := by
  refine ⟨_, rfl, ?_⟩
  try lift_lets -underBinder
  repeat' first
    | with_reducible assumption | exact notMem_of hk (by decide +kernel)
    | (intro x
       first
         | (refine same_of (a := a) (k := k) x ?_ fun _ => ?_
            unfold x
            try lift_lets -underBinder
            rotate_left
            clear_value x)
         | clear_value x
         | skip)
    | lift_lets -underBinder | with_reducible apply State.afeLow_same | with_reducible apply State.raiseAll_same
    | with_reducible apply State.setPower_same | with_reducible apply State.openKdrv_same
    | (split <;> try lift_lets -underBinder)

theorem execContactorsOpen_same {k : Part} {a s : State} (hk : k ∉ [.reg 0x3050, .reg 0x3070, .units, .power]) (h :
    State.Same k a s) :
    ∃ t, execContactorsOpen s = .next t ∧ State.Same k a t := by
  refine ⟨_, rfl, ?_⟩
  try lift_lets -underBinder
  repeat' first
    | with_reducible assumption | exact notMem_of hk (by decide +kernel)
    | (intro x
       first
         | (refine same_of (a := a) (k := k) x ?_ fun _ => ?_
            unfold x
            try lift_lets -underBinder
            rotate_left
            clear_value x)
         | clear_value x
         | skip)
    | lift_lets -underBinder | with_reducible apply State.setLink_same | with_reducible apply State.adisOn_same
    | (split <;> try lift_lets -underBinder)

theorem execDcLinkUndervoltage_same {k : Part} {a s : State} (hk : k ∉ [.reg 0x3050, .reg 0x6000, .dies, .power,
    .trail]) (h : State.Same k a s) :
    ∃ t, execDcLinkUndervoltage s = .next t ∧ State.Same k a t := by
  refine ⟨_, rfl, ?_⟩
  try lift_lets -underBinder
  repeat' first
    | with_reducible assumption | exact notMem_of hk (by decide +kernel)
    | (intro x
       first
         | (refine same_of (a := a) (k := k) x ?_ fun _ => ?_
            unfold x
            try lift_lets -underBinder
            rotate_left
            clear_value x)
         | clear_value x
         | skip)
    | lift_lets -underBinder | with_reducible apply State.controlledStop_same
    | (split <;> try lift_lets -underBinder)

theorem execVdcUpdate_same {k : Part} {a s : State} (hk : k ∉ [.dies, .power]) (h : State.Same k a s) :
    ∃ t, execVdcUpdate s = .next t ∧ State.Same k a t := by
  refine ⟨_, rfl, ?_⟩
  try lift_lets -underBinder
  repeat' first
    | with_reducible assumption | exact notMem_of hk (by decide +kernel)
    | (intro x
       first
         | (refine same_of (a := a) (k := k) x ?_ fun _ => ?_
            unfold x
            try lift_lets -underBinder
            rotate_left
            clear_value x)
         | clear_value x
         | skip)
    | lift_lets -underBinder | with_reducible apply each_same | with_reducible apply State.setDie_same
    | with_reducible apply State.setPower_same | (split <;> try lift_lets -underBinder)

theorem execDabAtLimit_same {k : Part} {a s : State} {x1 x2} (hk : k ∉ [.reg 0x3101, .reg 0x6000, .dies, .trail]) (h
    : State.Same k a s) :
    ∃ t, execDabAtLimit x1 x2 s = .next t ∧ State.Same k a t := by
  refine ⟨_, rfl, ?_⟩
  try lift_lets -underBinder
  repeat' first
    | with_reducible assumption | exact notMem_of hk (by decide +kernel)
    | (intro x
       first
         | (refine same_of (a := a) (k := k) x ?_ fun _ => ?_
            unfold x
            try lift_lets -underBinder
            rotate_left
            clear_value x)
         | clear_value x
         | skip)
    | lift_lets -underBinder | with_reducible apply State.noteAt_same | with_reducible apply State.wr_same
    | (split <;> try lift_lets -underBinder)

theorem execDabSamplesStale_same {k : Part} {a s : State} {x1 x2} (hk : k ∉ [.reg 0x1200, .reg 0x1210, .reg 0x3101,
    .reg 0x6000, .reg 0x6012, .units, .engines, .dies, .trail]) (h : State.Same k a s) :
    ∃ t, execDabSamplesStale x1 x2 s = .next t ∧ State.Same k a t := by
  refine ⟨_, rfl, ?_⟩
  try lift_lets -underBinder
  repeat' first
    | with_reducible assumption | exact notMem_of hk (by decide +kernel)
    | (intro x
       first
         | (refine same_of (a := a) (k := k) x ?_ fun _ => ?_
            unfold x
            try lift_lets -underBinder
            rotate_left
            clear_value x)
         | clear_value x
         | skip)
    | lift_lets -underBinder | with_reducible apply State.wakeDie_same | with_reducible apply State.latchDab_same
    | with_reducible apply State.openCorr_same | (split <;> try lift_lets -underBinder)

theorem execChopperOpen_same {k : Part} {a s : State} (hk : k ∉ [.reg 0x3050, .reg 0x3070, .reg 0x6000, .units,
    .dies, .power, .trail]) (h : State.Same k a s) :
    ∃ t, execChopperOpen s = .next t ∧ State.Same k a t := by
  refine ⟨_, rfl, ?_⟩
  try lift_lets -underBinder
  repeat' first
    | with_reducible assumption | exact notMem_of hk (by decide +kernel)
    | (intro x
       first
         | (refine same_of (a := a) (k := k) x ?_ fun _ => ?_
            unfold x
            try lift_lets -underBinder
            rotate_left
            clear_value x)
         | clear_value x
         | skip)
    | lift_lets -underBinder | with_reducible apply State.chopNote_same | with_reducible apply State.wr_same
    | with_reducible apply State.chopOff_same | with_reducible apply State.controlledStop_same
    | (split <;> try lift_lets -underBinder)

theorem execChopperShort_same {k : Part} {a s : State} (hk : k ∉ [.reg 0x3050, .reg 0x3070, .reg 0x6000, .dies,
    .power, .trail]) (h : State.Same k a s) :
    ∃ t, execChopperShort s = .next t ∧ State.Same k a t := by
  refine ⟨_, rfl, ?_⟩
  try lift_lets -underBinder
  repeat' first
    | with_reducible assumption | exact notMem_of hk (by decide +kernel)
    | (intro x
       first
         | (refine same_of (a := a) (k := k) x ?_ fun _ => ?_
            unfold x
            try lift_lets -underBinder
            rotate_left
            clear_value x)
         | clear_value x
         | skip)
    | lift_lets -underBinder | with_reducible apply State.controlledStop_same
    | with_reducible apply State.chopNote_same | with_reducible apply State.wr_same
    | (split <;> try lift_lets -underBinder)

theorem execChopperOverload_same {k : Part} {a s : State} (hk : k ∉ [.reg 0x3050, .reg 0x3070, .reg 0x6000, .units,
    .dies, .power, .trail]) (h : State.Same k a s) :
    ∃ t, execChopperOverload s = .next t ∧ State.Same k a t := by
  refine ⟨_, rfl, ?_⟩
  try lift_lets -underBinder
  repeat' first
    | with_reducible assumption | exact notMem_of hk (by decide +kernel)
    | (intro x
       first
         | (refine same_of (a := a) (k := k) x ?_ fun _ => ?_
            unfold x
            try lift_lets -underBinder
            rotate_left
            clear_value x)
         | clear_value x
         | skip)
    | lift_lets -underBinder | with_reducible apply State.controlledStop_same
    | with_reducible apply State.chopNote_same | with_reducible apply State.wr_same
    | with_reducible apply State.chopOff_same | (split <;> try lift_lets -underBinder)

theorem execDischargeNoCurrent_same {k : Part} {a s : State} (hk : k ∉ [.reg 0x3070, .reg 0x6000, .dies, .power,
    .trail]) (h : State.Same k a s) :
    ∃ t, execDischargeNoCurrent s = .next t ∧ State.Same k a t := by
  refine ⟨_, rfl, ?_⟩
  try lift_lets -underBinder
  repeat' first
    | with_reducible assumption | exact notMem_of hk (by decide +kernel)
    | (intro x
       first
         | (refine same_of (a := a) (k := k) x ?_ fun _ => ?_
            unfold x
            try lift_lets -underBinder
            rotate_left
            clear_value x)
         | clear_value x
         | skip)
    | lift_lets -underBinder | with_reducible apply State.chopNote_same | with_reducible apply State.wr_same
    | with_reducible apply State.setPower_same | (split <;> try lift_lets -underBinder)

theorem execDischargeRelease_same {k : Part} {a s : State} (hk : k ∉ [.reg 0x3050, .reg 0x3070, .units, .power]) (h
    : State.Same k a s) :
    ∃ t, execDischargeRelease s = .next t ∧ State.Same k a t := by
  refine ⟨_, rfl, ?_⟩
  try lift_lets -underBinder
  repeat' first
    | with_reducible assumption | exact notMem_of hk (by decide +kernel)
    | (intro x
       first
         | (refine same_of (a := a) (k := k) x ?_ fun _ => ?_
            unfold x
            try lift_lets -underBinder
            rotate_left
            clear_value x)
         | clear_value x
         | skip)
    | lift_lets -underBinder | with_reducible apply State.endStop_same | with_reducible apply State.adisOff_same
    | (split <;> try lift_lets -underBinder)

theorem execDischargeExhausted_same {k : Part} {a s : State} (hk : k ∉ [.reg 0x3050, .reg 0x3070, .units, .power])
    (h : State.Same k a s) :
    ∃ t, execDischargeExhausted s = .next t ∧ State.Same k a t := by
  refine ⟨_, rfl, ?_⟩
  try lift_lets -underBinder
  repeat' first
    | with_reducible assumption | exact notMem_of hk (by decide +kernel)
    | (intro x
       first
         | (refine same_of (a := a) (k := k) x ?_ fun _ => ?_
            unfold x
            try lift_lets -underBinder
            rotate_left
            clear_value x)
         | clear_value x
         | skip)
    | lift_lets -underBinder | with_reducible apply State.endStop_same | with_reducible apply State.adisOff_same
    | (split <;> try lift_lets -underBinder)

theorem execZeroCrossing_same {k : Part} {a s : State} {x1 x2} (hk : k ∉ [.reg 0x341A, .bldc]) (h : State.Same k a
    s) :
    ∃ t, execZeroCrossing x1 x2 s = .next t ∧ State.Same k a t := by
  refine ⟨_, rfl, ?_⟩
  try lift_lets -underBinder
  repeat' first
    | with_reducible assumption | exact notMem_of hk (by decide +kernel)
    | (intro x
       first
         | (refine same_of (a := a) (k := k) x ?_ fun _ => ?_
            unfold x
            try lift_lets -underBinder
            rotate_left
            clear_value x)
         | clear_value x
         | skip)
    | lift_lets -underBinder | with_reducible apply State.setDrive_same | with_reducible apply State.handover_same
    | with_reducible apply State.planComm_same | (split <;> try lift_lets -underBinder)

theorem execCommutation_same {k : Part} {a s : State} {x1} (hk : k ∉ [.reg 0x341B, .units, .bldc]) (h : State.Same k
    a s) :
    ∃ t, execCommutation x1 s = .next t ∧ State.Same k a t := by
  refine ⟨_, rfl, ?_⟩
  try lift_lets -underBinder
  repeat' first
    | with_reducible assumption | exact notMem_of hk (by decide +kernel)
    | (intro x
       first
         | (refine same_of (a := a) (k := k) x ?_ fun _ => ?_
            unfold x
            try lift_lets -underBinder
            rotate_left
            clear_value x)
         | clear_value x
         | skip)
    | lift_lets -underBinder | with_reducible apply State.commutate_same | (split <;> try lift_lets -underBinder)

theorem execListenEnd_same {k : Part} {a s : State} {x1} (hk : k ∉ [.reg 0x341A, .reg 0x341B, .units, .bldc, .free])
    (h : State.Same k a s) :
    ∃ t, execListenEnd x1 s = .next t ∧ State.Same k a t := by
  refine ⟨_, rfl, ?_⟩
  try lift_lets -underBinder
  repeat' first
    | with_reducible assumption | exact notMem_of hk (by decide +kernel)
    | (intro x
       first
         | (refine same_of (a := a) (k := k) x ?_ fun _ => ?_
            unfold x
            try lift_lets -underBinder
            rotate_left
            clear_value x)
         | clear_value x
         | skip)
    | lift_lets -underBinder | with_reducible apply State.beginAlign_same
    | with_reducible apply State.catchRotor_same | with_reducible apply State.beginBrake_same
    | (split <;> try lift_lets -underBinder)

theorem execBrakeWindow_same {k : Part} {a s : State} {x1} (hk : k ∉ [.reg 0x341A, .units, .bldc]) (h : State.Same k
    a s) :
    ∃ t, execBrakeWindow x1 s = .next t ∧ State.Same k a t := by
  refine ⟨_, rfl, ?_⟩
  try lift_lets -underBinder
  repeat' first
    | with_reducible assumption | exact notMem_of hk (by decide +kernel)
    | (intro x
       first
         | (refine same_of (a := a) (k := k) x ?_ fun _ => ?_
            unfold x
            try lift_lets -underBinder
            rotate_left
            clear_value x)
         | clear_value x
         | skip)
    | lift_lets -underBinder | with_reducible apply State.floatAll_same | with_reducible apply State.setDrive_same
    | with_reducible apply State.setGates_same | with_reducible apply State.beginAlign_same
    | (split <;> try lift_lets -underBinder)

theorem execBrakeFailed_same {k : Part} {a s : State} {x1} (hk : k ∉ [.reg 0x341A, .reg 0x3420, .reg 0x6000, .units,
    .engines, .dies, .bldc, .trail]) (h : State.Same k a s) :
    ∃ t, execBrakeFailed x1 s = .next t ∧ State.Same k a t := by
  refine ⟨_, rfl, ?_⟩
  try lift_lets -underBinder
  repeat' first
    | with_reducible assumption | exact notMem_of hk (by decide +kernel)
    | (intro x
       first
         | (refine same_of (a := a) (k := k) x ?_ fun _ => ?_
            unfold x
            try lift_lets -underBinder
            rotate_left
            clear_value x)
         | clear_value x
         | skip)
    | lift_lets -underBinder | with_reducible apply State.latchDrive_same | (split <;> try lift_lets -underBinder)

theorem execAlignEnd_same {k : Part} {a s : State} {x1} (hk : k ∉ [.reg 0x341A, .units, .bldc]) (h : State.Same k a
    s) :
    ∃ t, execAlignEnd x1 s = .next t ∧ State.Same k a t := by
  refine ⟨_, rfl, ?_⟩
  try lift_lets -underBinder
  repeat' first
    | with_reducible assumption | exact notMem_of hk (by decide +kernel)
    | (intro x
       first
         | (refine same_of (a := a) (k := k) x ?_ fun _ => ?_
            unfold x
            try lift_lets -underBinder
            rotate_left
            clear_value x)
         | clear_value x
         | skip)
    | lift_lets -underBinder | with_reducible apply State.setDrive_same | with_reducible apply State.enterDrive_same
    | with_reducible apply State.setGates_same | (split <;> try lift_lets -underBinder)

theorem execRampFailed_same {k : Part} {a s : State} {x1} (hk : k ∉ [.reg 0x341A, .reg 0x341D, .reg 0x6000, .units,
    .dies, .bldc, .trail]) (h : State.Same k a s) :
    ∃ t, execRampFailed x1 s = .next t ∧ State.Same k a t := by
  refine ⟨_, rfl, ?_⟩
  try lift_lets -underBinder
  repeat' first
    | with_reducible assumption | exact notMem_of hk (by decide +kernel)
    | (intro x
       first
         | (refine same_of (a := a) (k := k) x ?_ fun _ => ?_
            unfold x
            try lift_lets -underBinder
            rotate_left
            clear_value x)
         | clear_value x
         | skip)
    | lift_lets -underBinder | with_reducible apply State.failDrive_same | (split <;> try lift_lets -underBinder)

theorem execLockedRotor_same {k : Part} {a s : State} {x1} (hk : k ∉ [.reg 0x341A, .reg 0x341D, .reg 0x6000, .units,
    .dies, .bldc, .trail]) (h : State.Same k a s) :
    ∃ t, execLockedRotor x1 s = .next t ∧ State.Same k a t := by
  refine ⟨_, rfl, ?_⟩
  try lift_lets -underBinder
  repeat' first
    | with_reducible assumption | exact notMem_of hk (by decide +kernel)
    | (intro x
       first
         | (refine same_of (a := a) (k := k) x ?_ fun _ => ?_
            unfold x
            try lift_lets -underBinder
            rotate_left
            clear_value x)
         | clear_value x
         | skip)
    | lift_lets -underBinder | with_reducible apply State.failDrive_same | (split <;> try lift_lets -underBinder)

theorem execRetryDelayEnd_same {k : Part} {a s : State} {x1} (hk : k ∉ [.reg 0x341A, .reg 0x3420, .reg 0x6000,
    .units, .engines, .dies, .bldc, .trail]) (h : State.Same k a s) :
    ∃ t, execRetryDelayEnd x1 s = .next t ∧ State.Same k a t := by
  refine ⟨_, rfl, ?_⟩
  try lift_lets -underBinder
  repeat' first
    | with_reducible assumption | exact notMem_of hk (by decide +kernel)
    | (intro x
       first
         | (refine same_of (a := a) (k := k) x ?_ fun _ => ?_
            unfold x
            try lift_lets -underBinder
            rotate_left
            clear_value x)
         | clear_value x
         | skip)
    | lift_lets -underBinder | with_reducible apply State.beginListen_same
    | with_reducible apply State.latchDrive_same | (split <;> try lift_lets -underBinder)

theorem execRetryCountReset_same {k : Part} {a s : State} {x1} (hk : k ∉ [.reg 0x341D]) (h : State.Same k a s) :
    ∃ t, execRetryCountReset x1 s = .next t ∧ State.Same k a t := by
  refine ⟨_, rfl, ?_⟩
  try lift_lets -underBinder
  repeat' first
    | with_reducible assumption | exact notMem_of hk (by decide +kernel)
    | (intro x
       first
         | (refine same_of (a := a) (k := k) x ?_ fun _ => ?_
            unfold x
            try lift_lets -underBinder
            rotate_left
            clear_value x)
         | clear_value x
         | skip)
    | lift_lets -underBinder | with_reducible apply State.wr_same | (split <;> try lift_lets -underBinder)

theorem execLoadFault_same {k : Part} {a s : State} {x1} (hk : k ∉ [.reg 0x341A, .reg 0x3420, .reg 0x6000, .units,
    .engines, .dies, .bldc, .trail]) (h : State.Same k a s) :
    ∃ t, execLoadFault x1 s = .next t ∧ State.Same k a t := by
  refine ⟨_, rfl, ?_⟩
  try lift_lets -underBinder
  repeat' first
    | with_reducible assumption | exact notMem_of hk (by decide +kernel)
    | (intro x
       first
         | (refine same_of (a := a) (k := k) x ?_ fun _ => ?_
            unfold x
            try lift_lets -underBinder
            rotate_left
            clear_value x)
         | clear_value x
         | skip)
    | lift_lets -underBinder | with_reducible apply State.setDrive_same | with_reducible apply State.latchDrive_same
    | with_reducible apply State.note_same | (split <;> try lift_lets -underBinder)

theorem execSpeedSetpoint_same {k : Part} {a s : State} {x1 x2 x3} (hk : k ∉ [.reg 0x1200, .reg 0x1210, .reg 0x1310,
    .reg 0x2500, .reg 0x3101, .reg 0x3400, .reg 0x341A, .reg 0x341F, .reg 0x6000, .clock, .units, .slots, .dies,
    .bldc, .net, .trail, .standbyDue]) (h : State.Same k a s) :
    ∃ t, execSpeedSetpoint x1 x2 x3 s = .next t ∧ State.Same k a t := by
  refine ⟨_, rfl, ?_⟩
  try lift_lets -underBinder
  repeat' first
    | with_reducible assumption | exact notMem_of hk (by decide +kernel)
    | (intro x
       first
         | (refine same_of (a := a) (k := k) x ?_ fun _ => ?_
            unfold x
            try lift_lets -underBinder
            rotate_left
            clear_value x)
         | clear_value x
         | skip)
    | lift_lets -underBinder | with_reducible apply State.writeObj_same | with_reducible apply when'_same
    | with_reducible apply State.countReversal_same | with_reducible apply setpointSet_same
    | (split <;> try lift_lets -underBinder)

theorem execAuxSamplesStale_same {k : Part} {a s : State} {x1} (hk : k ∉ [.reg 0x341A, .reg 0x3420, .reg 0x344E,
    .reg 0x344F, .reg 0x3450, .reg 0x3457, .reg 0x6000, .units, .slots, .engines, .dies, .bldc, .axes, .trail]) (h :
    State.Same k a s) :
    ∃ t, execAuxSamplesStale x1 s = .next t ∧ State.Same k a t := by
  refine ⟨_, rfl, ?_⟩
  try lift_lets -underBinder
  repeat' first
    | with_reducible assumption | exact notMem_of hk (by decide +kernel)
    | (intro x
       first
         | (refine same_of (a := a) (k := k) x ?_ fun _ => ?_
            unfold x
            try lift_lets -underBinder
            rotate_left
            clear_value x)
         | clear_value x
         | skip)
    | lift_lets -underBinder | with_reducible apply State.setSlot_same | with_reducible apply State.latchDrive_same
    | with_reducible apply State.latchAxis_same | (split <;> try lift_lets -underBinder)

theorem execTargetPosition_same {k : Part} {a s : State} {x1 x2 x3} (hk : k ∉ [.reg 0x1200, .reg 0x1210, .reg
    0x1310, .reg 0x2500, .reg 0x3101, .reg 0x3441, .reg 0x6000, .clock, .units, .slots, .dies, .axes, .net, .trail,
    .standbyDue]) (h : State.Same k a s) :
    ∃ t, execTargetPosition x1 x2 x3 s = .next t ∧ State.Same k a t := by
  refine ⟨_, rfl, ?_⟩
  try lift_lets -underBinder
  repeat' first
    | with_reducible assumption | exact notMem_of hk (by decide +kernel)
    | (intro x
       first
         | (refine same_of (a := a) (k := k) x ?_ fun _ => ?_
            unfold x
            try lift_lets -underBinder
            rotate_left
            clear_value x)
         | clear_value x
         | skip)
    | lift_lets -underBinder | with_reducible apply State.writeObj_same | with_reducible apply targetSet_same
    | (split <;> try lift_lets -underBinder)

theorem execStepEdge_same {k : Part} {a s : State} {x1 x2} (hk : k ∉ [.reg 0x3451, .axes, .free]) (h : State.Same k
    a s) :
    ∃ t, execStepEdge x1 x2 s = .next t ∧ State.Same k a t := by
  refine ⟨_, rfl, ?_⟩
  try lift_lets -underBinder
  repeat' first
    | with_reducible assumption | exact notMem_of hk (by decide +kernel)
    | (intro x
       first
         | (refine same_of (a := a) (k := k) x ?_ fun _ => ?_
            unfold x
            try lift_lets -underBinder
            rotate_left
            clear_value x)
         | clear_value x
         | skip)
    | lift_lets -underBinder | with_reducible apply State.inc_same | with_reducible apply State.draw_same
    | with_reducible apply State.setAxis_same | (split <;> try lift_lets -underBinder)

theorem execInputOverrun_same {k : Part} {a s : State} {x1} (hk : k ∉ [.reg 0x344E, .reg 0x344F, .reg 0x3450, .reg
    0x3457, .reg 0x6000, .units, .engines, .dies, .axes, .trail]) (h : State.Same k a s) :
    ∃ t, execInputOverrun x1 s = .next t ∧ State.Same k a t := by
  refine ⟨_, rfl, ?_⟩
  try lift_lets -underBinder
  repeat' first
    | with_reducible assumption | exact notMem_of hk (by decide +kernel)
    | (intro x
       first
         | (refine same_of (a := a) (k := k) x ?_ fun _ => ?_
            unfold x
            try lift_lets -underBinder
            rotate_left
            clear_value x)
         | clear_value x
         | skip)
    | lift_lets -underBinder | with_reducible apply State.latchAxis_same | (split <;> try lift_lets -underBinder)

theorem execLimitSwitch_same {k : Part} {a s : State} {x1 x2 x3} (hk : k ∉ [.reg 0x3450, .axes]) (h : State.Same k a
    s) :
    ∃ t, execLimitSwitch x1 x2 x3 s = .next t ∧ State.Same k a t := by
  refine ⟨_, rfl, ?_⟩
  try lift_lets -underBinder
  repeat' first
    | with_reducible assumption | exact notMem_of hk (by decide +kernel)
    | (intro x
       first
         | (refine same_of (a := a) (k := k) x ?_ fun _ => ?_
            unfold x
            try lift_lets -underBinder
            rotate_left
            clear_value x)
         | clear_value x
         | skip)
    | lift_lets -underBinder | with_reducible apply State.setAxis_same | with_reducible apply State.axisBit_same
    | (split <;> try lift_lets -underBinder)

theorem execHoldDelay_same {k : Part} {a s : State} {x1} (hk : k ∉ [.axes]) (h : State.Same k a s) :
    ∃ t, execHoldDelay x1 s = .next t ∧ State.Same k a t := by
  refine ⟨_, rfl, ?_⟩
  try lift_lets -underBinder
  repeat' first
    | with_reducible assumption | exact notMem_of hk (by decide +kernel)
    | (intro x
       first
         | (refine same_of (a := a) (k := k) x ?_ fun _ => ?_
            unfold x
            try lift_lets -underBinder
            rotate_left
            clear_value x)
         | clear_value x
         | skip)
    | lift_lets -underBinder | with_reducible apply State.setAxis_same | (split <;> try lift_lets -underBinder)

theorem execReferencePosition_same {k : Part} {a s : State} {x1 x2 x3} (hk : k ∉ [.reg 0x1200, .reg 0x1210, .reg
    0x1310, .reg 0x3101, .reg 0x3441, .reg 0x344D, .reg 0x3450, .units, .dies, .axes, .net]) (h : State.Same k a s)
    :
    ∃ t, execReferencePosition x1 x2 x3 s = .next t ∧ State.Same k a t := by
  refine ⟨_, rfl, ?_⟩
  try lift_lets -underBinder
  repeat' first
    | with_reducible assumption | exact notMem_of hk (by decide +kernel)
    | (intro x
       first
         | (refine same_of (a := a) (k := k) x ?_ fun _ => ?_
            unfold x
            try lift_lets -underBinder
            rotate_left
            clear_value x)
         | clear_value x
         | skip)
    | lift_lets -underBinder | with_reducible apply State.writeObj_same | with_reducible apply referenceSet_same
    | (split <;> try lift_lets -underBinder)

theorem execSto_same {k : Part} {a s : State} {x1} (hk : k ∉ [.reg 0x341A, .reg 0x344E, .reg 0x344F, .reg 0x3450,
    .units, .bldc, .axes]) (h : State.Same k a s) :
    ∃ t, execSto x1 s = .next t ∧ State.Same k a t := by
  refine ⟨_, rfl, ?_⟩
  try lift_lets -underBinder
  repeat' first
    | with_reducible assumption | exact notMem_of hk (by decide +kernel)
    | (intro x
       first
         | (refine same_of (a := a) (k := k) x ?_ fun _ => ?_
            unfold x
            try lift_lets -underBinder
            rotate_left
            clear_value x)
         | clear_value x
         | skip)
    | lift_lets -underBinder | with_reducible apply State.stoOut_same | (split <;> try lift_lets -underBinder)

theorem execStoRelease_same {k : Part} {a s : State} {x1} (hk : k ∉ [.reg 0x3400, .reg 0x341A, .reg 0x3441, .reg
    0x344F, .reg 0x3450, .bldc, .axes]) (h : State.Same k a s) :
    ∃ t, execStoRelease x1 s = .next t ∧ State.Same k a t := by
  refine ⟨_, rfl, ?_⟩
  try lift_lets -underBinder
  repeat' first
    | with_reducible assumption | exact notMem_of hk (by decide +kernel)
    | (intro x
       first
         | (refine same_of (a := a) (k := k) x ?_ fun _ => ?_
            unfold x
            try lift_lets -underBinder
            rotate_left
            clear_value x)
         | clear_value x
         | skip)
    | lift_lets -underBinder | with_reducible apply State.freeOut_same | (split <;> try lift_lets -underBinder)

theorem execSs1_same {k : Part} {a s : State} {x1} (hk : k ∉ [.reg 0x341A, .units, .bldc, .axes]) (h : State.Same k
    a s) :
    ∃ t, execSs1 x1 s = .next t ∧ State.Same k a t := by
  refine ⟨_, rfl, ?_⟩
  try lift_lets -underBinder
  repeat' first
    | with_reducible assumption | exact notMem_of hk (by decide +kernel)
    | (intro x
       first
         | (refine same_of (a := a) (k := k) x ?_ fun _ => ?_
            unfold x
            try lift_lets -underBinder
            rotate_left
            clear_value x)
         | clear_value x
         | skip)
    | lift_lets -underBinder | with_reducible apply State.ss1Out_same | (split <;> try lift_lets -underBinder)

theorem execSs1Time_same {k : Part} {a s : State} {x1} (hk : k ∉ [.reg 0x341A, .reg 0x344E, .reg 0x344F, .reg
    0x3450, .reg 0x4010, .reg 0x4014, .units, .bldc, .axes, .sup]) (h : State.Same k a s) :
    ∃ t, execSs1Time x1 s = .next t ∧ State.Same k a t := by
  refine ⟨_, rfl, ?_⟩
  try lift_lets -underBinder
  repeat' first
    | with_reducible assumption | exact notMem_of hk (by decide +kernel)
    | (intro x
       first
         | (refine same_of (a := a) (k := k) x ?_ fun _ => ?_
            unfold x
            try lift_lets -underBinder
            rotate_left
            clear_value x)
         | clear_value x
         | skip)
    | lift_lets -underBinder | with_reducible apply State.functionOff_same | (split <;> try lift_lets -underBinder)

theorem execSupervisorCycle_same {k : Part} {a s : State} {x1} (hk : k ∉ [.reg 0x3050, .reg 0x3400, .reg 0x341A,
    .reg 0x3441, .reg 0x344E, .reg 0x344F, .reg 0x3450, .reg 0x4000, .reg 0x4005, .reg 0x4010, .reg 0x4014, .reg
    0x4021, .reg 0x4023, .reg 0x6000, .units, .dies, .bldc, .axes, .power, .sup, .trail]) (h : State.Same k a s) :
    ∃ t, execSupervisorCycle x1 s = .next t ∧ State.Same k a t := by
  refine ⟨_, rfl, ?_⟩
  try lift_lets -underBinder
  repeat' first
    | with_reducible assumption | exact notMem_of hk (by decide +kernel)
    | (intro x
       first
         | (refine same_of (a := a) (k := k) x ?_ fun _ => ?_
            unfold x
            try lift_lets -underBinder
            rotate_left
            clear_value x)
         | clear_value x
         | skip)
    | lift_lets -underBinder | with_reducible apply State.setSup_same | with_reducible apply each_same
    | with_reducible apply State.sampleContactor_same | with_reducible apply State.adisDue_same
    | with_reducible apply State.watchPairs_same | with_reducible apply State.sampleInputs_same
    | with_reducible apply State.sampleOutput_same | with_reducible apply State.contactorRequests_same
    | with_reducible apply State.grantOutputs_same | (split <;> try lift_lets -underBinder)

theorem execInputDemand_same {k : Part} {a s : State} {x1} (hk : k ∉ [.reg 0x3050, .reg 0x341A, .reg 0x344E, .reg
    0x344F, .reg 0x3450, .reg 0x4000, .reg 0x4010, .reg 0x4014, .reg 0x4021, .reg 0x4023, .reg 0x6000, .units,
    .dies, .bldc, .axes, .power, .sup, .trail]) (h : State.Same k a s) :
    ∃ t, execInputDemand x1 s = .next t ∧ State.Same k a t := by
  refine ⟨_, rfl, ?_⟩
  try lift_lets -underBinder
  repeat' first
    | with_reducible assumption | exact notMem_of hk (by decide +kernel)
    | (intro x
       first
         | (refine same_of (a := a) (k := k) x ?_ fun _ => ?_
            unfold x
            try lift_lets -underBinder
            rotate_left
            clear_value x)
         | clear_value x
         | skip)
    | lift_lets -underBinder | with_reducible apply State.demandInput_same | (split <;> try lift_lets -underBinder)

theorem execInputDemandEnd_same {k : Part} {a s : State} {x1} (hk : k ∉ [.reg 0x4000, .reg 0x6000, .dies, .sup,
    .trail]) (h : State.Same k a s) :
    ∃ t, execInputDemandEnd x1 s = .next t ∧ State.Same k a t := by
  refine ⟨_, rfl, ?_⟩
  try lift_lets -underBinder
  repeat' first
    | with_reducible assumption | exact notMem_of hk (by decide +kernel)
    | (intro x
       first
         | (refine same_of (a := a) (k := k) x ?_ fun _ => ?_
            unfold x
            try lift_lets -underBinder
            rotate_left
            clear_value x)
         | clear_value x
         | skip)
    | lift_lets -underBinder | with_reducible apply State.dropInput_same | (split <;> try lift_lets -underBinder)

theorem execSafetyStopDelay_same {k : Part} {a s : State} (hk : k ∉ [.dies, .sup, .trail]) (h : State.Same k a s) :
    ∃ t, execSafetyStopDelay s = .next t ∧ State.Same k a t := by
  refine ⟨_, rfl, ?_⟩
  try lift_lets -underBinder
  repeat' first
    | with_reducible assumption | exact notMem_of hk (by decide +kernel)
    | (intro x
       first
         | (refine same_of (a := a) (k := k) x ?_ fun _ => ?_
            unfold x
            try lift_lets -underBinder
            rotate_left
            clear_value x)
         | clear_value x
         | skip)
    | lift_lets -underBinder | with_reducible apply State.setSup_same | with_reducible apply State.raiseAll_same
    | with_reducible apply State.openCorr_same | (split <;> try lift_lets -underBinder)

theorem execContactorOpenDelay_same {k : Part} {a s : State} (hk : k ∉ [.reg 0x4021, .reg 0x4023, .units, .power,
    .sup]) (h : State.Same k a s) :
    ∃ t, execContactorOpenDelay s = .next t ∧ State.Same k a t := by
  refine ⟨_, rfl, ?_⟩
  try lift_lets -underBinder
  repeat' first
    | with_reducible assumption | exact notMem_of hk (by decide +kernel)
    | (intro x
       first
         | (refine same_of (a := a) (k := k) x ?_ fun _ => ?_
            unfold x
            try lift_lets -underBinder
            rotate_left
            clear_value x)
         | clear_value x
         | skip)
    | lift_lets -underBinder | with_reducible apply State.setSup_same | with_reducible apply State.afeLow_same
    | with_reducible apply State.openAll_same | (split <;> try lift_lets -underBinder)

theorem execAdisDelay_same {k : Part} {a s : State} (hk : k ∉ [.reg 0x3070, .units, .power, .sup]) (h : State.Same k
    a s) :
    ∃ t, execAdisDelay s = .next t ∧ State.Same k a t := by
  refine ⟨_, rfl, ?_⟩
  try lift_lets -underBinder
  repeat' first
    | with_reducible assumption | exact notMem_of hk (by decide +kernel)
    | (intro x
       first
         | (refine same_of (a := a) (k := k) x ?_ fun _ => ?_
            unfold x
            try lift_lets -underBinder
            rotate_left
            clear_value x)
         | clear_value x
         | skip)
    | lift_lets -underBinder | with_reducible apply State.setSup_same | with_reducible apply State.adisOn_same
    | (split <;> try lift_lets -underBinder)

theorem execInputFault_same {k : Part} {a s : State} {x1} (hk : k ∉ [.reg 0x3050, .reg 0x341A, .reg 0x344E, .reg
    0x344F, .reg 0x3450, .reg 0x4000, .reg 0x4005, .reg 0x4010, .reg 0x4014, .reg 0x4021, .reg 0x4023, .reg 0x6000,
    .units, .dies, .bldc, .axes, .power, .sup, .trail]) (h : State.Same k a s) :
    ∃ t, execInputFault x1 s = .next t ∧ State.Same k a t := by
  refine ⟨_, rfl, ?_⟩
  try lift_lets -underBinder
  repeat' first
    | with_reducible assumption | exact notMem_of hk (by decide +kernel)
    | (intro x
       first
         | (refine same_of (a := a) (k := k) x ?_ fun _ => ?_
            unfold x
            try lift_lets -underBinder
            rotate_left
            clear_value x)
         | clear_value x
         | skip)
    | lift_lets -underBinder | with_reducible apply State.faultInput_same | (split <;> try lift_lets -underBinder)

theorem execTestPulse_same {k : Part} {a s : State} {x1} (hk : k ∉ [.sup]) (h : State.Same k a s) :
    ∃ t, execTestPulse x1 s = .next t ∧ State.Same k a t := by
  refine ⟨_, rfl, ?_⟩
  try lift_lets -underBinder
  repeat' first
    | with_reducible assumption | exact notMem_of hk (by decide +kernel)
    | (intro x
       first
         | (refine same_of (a := a) (k := k) x ?_ fun _ => ?_
            unfold x
            try lift_lets -underBinder
            rotate_left
            clear_value x)
         | clear_value x
         | skip)
    | lift_lets -underBinder | with_reducible apply State.setSup_same | with_reducible apply each_same
    | with_reducible apply State.setSin_same | (split <;> try lift_lets -underBinder)

theorem execDiscrepancyFault_same {k : Part} {a s : State} {x1} (hk : k ∉ [.reg 0x3050, .reg 0x341A, .reg 0x344E,
    .reg 0x344F, .reg 0x3450, .reg 0x4000, .reg 0x4005, .reg 0x4010, .reg 0x4014, .reg 0x4021, .reg 0x4023, .reg
    0x6000, .units, .dies, .bldc, .axes, .power, .sup, .trail]) (h : State.Same k a s) :
    ∃ t, execDiscrepancyFault x1 s = .next t ∧ State.Same k a t := by
  refine ⟨_, rfl, ?_⟩
  try lift_lets -underBinder
  repeat' first
    | with_reducible assumption | exact notMem_of hk (by decide +kernel)
    | (intro x
       first
         | (refine same_of (a := a) (k := k) x ?_ fun _ => ?_
            unfold x
            try lift_lets -underBinder
            rotate_left
            clear_value x)
         | clear_value x
         | skip)
    | lift_lets -underBinder | with_reducible apply each_same | with_reducible apply State.faultInput_same
    | (split <;> try lift_lets -underBinder)

theorem execInputRecovery_same {k : Part} {a s : State} {x1} (hk : k ∉ [.reg 0x4000, .reg 0x6000, .dies, .sup,
    .trail]) (h : State.Same k a s) :
    ∃ t, execInputRecovery x1 s = .next t ∧ State.Same k a t := by
  refine ⟨_, rfl, ?_⟩
  try lift_lets -underBinder
  repeat' first
    | with_reducible assumption | exact notMem_of hk (by decide +kernel)
    | (intro x
       first
         | (refine same_of (a := a) (k := k) x ?_ fun _ => ?_
            unfold x
            try lift_lets -underBinder
            rotate_left
            clear_value x)
         | clear_value x
         | skip)
    | lift_lets -underBinder | with_reducible apply State.setSin_same | with_reducible apply State.dropInput_same
    | (split <;> try lift_lets -underBinder)

theorem execDoorLimitLatch_same {k : Part} {a s : State} {x1} (hk : k ∉ [.reg 0x2402, .reg 0x2444, .reg 0x2810, .reg
    0x6000, .reg 0x6010, .chans, .units, .slots, .engines, .dies, .trail, .lane, .flight]) (h : State.Same k a s) :
    ∃ t, execDoorLimitLatch x1 s = .next t ∧ State.Same k a t := by
  refine ⟨_, rfl, ?_⟩
  try lift_lets -underBinder
  repeat' first
    | with_reducible assumption | exact notMem_of hk (by decide +kernel)
    | (intro x
       first
         | (refine same_of (a := a) (k := k) x ?_ fun _ => ?_
            unfold x
            try lift_lets -underBinder
            rotate_left
            clear_value x)
         | clear_value x
         | skip)
    | lift_lets -underBinder | with_reducible apply State.latchNew_same | (split <;> try lift_lets -underBinder)

theorem execOverTemperatureCheck_same {k : Part} {a s : State} {x1 x2} (hk : k ∉ [.reg 0x2402, .reg 0x2444, .reg
    0x2810, .reg 0x4033, .reg 0x6000, .reg 0x6010, .chans, .units, .slots, .engines, .dies, .trail, .lane, .flight])
    (h : State.Same k a s) :
    ∃ t, execOverTemperatureCheck x1 x2 s = .next t ∧ State.Same k a t := by
  refine ⟨_, rfl, ?_⟩
  try lift_lets -underBinder
  repeat' first
    | with_reducible assumption | exact notMem_of hk (by decide +kernel)
    | (intro x
       first
         | (refine same_of (a := a) (k := k) x ?_ fun _ => ?_
            unfold x
            try lift_lets -underBinder
            rotate_left
            clear_value x)
         | clear_value x
         | skip)
    | lift_lets -underBinder | with_reducible apply State.setDie_same | with_reducible apply each_same
    | with_reducible apply State.takeTemp_same | with_reducible apply State.checkTemp_same
    | (split <;> try lift_lets -underBinder)

theorem execTemperaturePlausibilityCheck_same {k : Part} {a s : State} {x1} (hk : k ∉ [.reg 0x4033, .reg 0x4034,
    .reg 0x6000, .chans, .dies, .trail]) (h : State.Same k a s) :
    ∃ t, execTemperaturePlausibilityCheck x1 s = .next t ∧ State.Same k a t := by
  refine ⟨_, rfl, ?_⟩
  try lift_lets -underBinder
  repeat' first
    | with_reducible assumption | exact notMem_of hk (by decide +kernel)
    | (intro x
       first
         | (refine same_of (a := a) (k := k) x ?_ fun _ => ?_
            unfold x
            try lift_lets -underBinder
            rotate_left
            clear_value x)
         | clear_value x
         | skip)
    | lift_lets -underBinder | with_reducible apply each_same | with_reducible apply State.compareTemp_same
    | with_reducible apply State.setDie_same | (split <;> try lift_lets -underBinder)

theorem execTemperaturePlausibilityFault_same {k : Part} {a s : State} {x1} (hk : k ∉ [.reg 0x2402, .reg 0x2444,
    .reg 0x2810, .reg 0x4033, .reg 0x6000, .reg 0x6010, .chans, .units, .slots, .engines, .dies, .trail, .lane,
    .flight]) (h : State.Same k a s) :
    ∃ t, execTemperaturePlausibilityFault x1 s = .next t ∧ State.Same k a t := by
  refine ⟨_, rfl, ?_⟩
  try lift_lets -underBinder
  repeat' first
    | with_reducible assumption | exact notMem_of hk (by decide +kernel)
    | (intro x
       first
         | (refine same_of (a := a) (k := k) x ?_ fun _ => ?_
            unfold x
            try lift_lets -underBinder
            rotate_left
            clear_value x)
         | clear_value x
         | skip)
    | lift_lets -underBinder | with_reducible apply State.latchNew_same | with_reducible apply State.tempBit_same
    | (split <;> try lift_lets -underBinder)

theorem execApplicationHeartbeatTimeout_same {k : Part} {a s : State} (hk : k ∉ [.reg 0x3050, .reg 0x341A, .reg
    0x344E, .reg 0x344F, .reg 0x3450, .reg 0x4000, .reg 0x4010, .reg 0x4014, .reg 0x4021, .reg 0x4023, .reg 0x6000,
    .units, .dies, .bldc, .axes, .power, .sup, .trail]) (h : State.Same k a s) :
    ∃ t, execApplicationHeartbeatTimeout s = .next t ∧ State.Same k a t := by
  refine ⟨_, rfl, ?_⟩
  try lift_lets -underBinder
  repeat' first
    | with_reducible assumption | exact notMem_of hk (by decide +kernel)
    | (intro x
       first
         | (refine same_of (a := a) (k := k) x ?_ fun _ => ?_
            unfold x
            try lift_lets -underBinder
            rotate_left
            clear_value x)
         | clear_value x
         | skip)
    | lift_lets -underBinder | with_reducible apply State.fireAlone_same | with_reducible apply State.supFault_same
    | with_reducible apply State.setSup_same | (split <;> try lift_lets -underBinder)

theorem execSafetyReset_same {k : Part} {a s : State} {x1} (hk : k ∉ [.reg 0x1200, .reg 0x2500, .reg 0x2803, .reg
    0x3040, .reg 0x3050, .reg 0x3060, .reg 0x3070, .reg 0x3101, .reg 0x3104, .reg 0x3400, .reg 0x341A, .reg 0x3441,
    .reg 0x344F, .reg 0x3450, .reg 0x4000, .reg 0x4005, .reg 0x4010, .reg 0x4021, .reg 0x6000, .reg 0x6012, .clock,
    .units, .slots, .dies, .bldc, .axes, .power, .sup, .trail, .standbyDue]) (h : State.Same k a s) :
    ∃ t, execSafetyReset x1 s = .next t ∧ State.Same k a t := by
  refine ⟨_, rfl, ?_⟩
  try lift_lets -underBinder
  repeat' first
    | with_reducible assumption | exact notMem_of hk (by decide +kernel)
    | (intro x
       first
         | (refine same_of (a := a) (k := k) x ?_ fun _ => ?_
            unfold x
            try lift_lets -underBinder
            rotate_left
            clear_value x)
         | clear_value x
         | skip)
    | lift_lets -underBinder | with_reducible apply State.tryReset_same | with_reducible apply State.setSin_same
    | (split <;> try lift_lets -underBinder)

theorem execResetRequest_same {k : Part} {a s : State} {x1 x2} (hk : k ∉ [.reg 0x1200, .reg 0x1210, .reg 0x1310,
    .reg 0x2500, .reg 0x2803, .reg 0x3040, .reg 0x3050, .reg 0x3060, .reg 0x3070, .reg 0x3101, .reg 0x3104, .reg
    0x3400, .reg 0x341A, .reg 0x3441, .reg 0x344F, .reg 0x3450, .reg 0x4000, .reg 0x4005, .reg 0x4010, .reg 0x4021,
    .reg 0x6000, .reg 0x6012, .clock, .units, .slots, .dies, .bldc, .axes, .power, .sup, .net, .trail, .standbyDue])
    (h : State.Same k a s) :
    ∃ t, execResetRequest x1 x2 s = .next t ∧ State.Same k a t := by
  refine ⟨_, rfl, ?_⟩
  try lift_lets -underBinder
  repeat' first
    | with_reducible assumption | exact notMem_of hk (by decide +kernel)
    | (intro x
       first
         | (refine same_of (a := a) (k := k) x ?_ fun _ => ?_
            unfold x
            try lift_lets -underBinder
            rotate_left
            clear_value x)
         | clear_value x
         | skip)
    | lift_lets -underBinder | with_reducible apply State.writeObj_same | with_reducible apply resetSet_same
    | (split <;> try lift_lets -underBinder)

theorem execSafeOutputRequest_same {k : Part} {a s : State} {x1 x2 x3} (hk : k ∉ [.reg 0x1200, .reg 0x1210, .reg
    0x1310, .reg 0x3101, .reg 0x3400, .reg 0x341A, .reg 0x3441, .reg 0x344E, .reg 0x344F, .reg 0x3450, .reg 0x4010,
    .reg 0x4014, .units, .dies, .bldc, .axes, .sup, .net]) (h : State.Same k a s) :
    ∃ t, execSafeOutputRequest x1 x2 x3 s = .next t ∧ State.Same k a t := by
  refine ⟨_, rfl, ?_⟩
  try lift_lets -underBinder
  repeat' first
    | with_reducible assumption | exact notMem_of hk (by decide +kernel)
    | (intro x
       first
         | (refine same_of (a := a) (k := k) x ?_ fun _ => ?_
            unfold x
            try lift_lets -underBinder
            rotate_left
            clear_value x)
         | clear_value x
         | skip)
    | lift_lets -underBinder | with_reducible apply State.writeObj_same | with_reducible apply outputSet_same
    | (split <;> try lift_lets -underBinder)

theorem execOffPulse_same {k : Part} {a s : State} {x1} (hk : k ∉ [.sup]) (h : State.Same k a s) :
    ∃ t, execOffPulse x1 s = .next t ∧ State.Same k a t := by
  refine ⟨_, rfl, ?_⟩
  try lift_lets -underBinder
  repeat' first
    | with_reducible assumption | exact notMem_of hk (by decide +kernel)
    | (intro x
       first
         | (refine same_of (a := a) (k := k) x ?_ fun _ => ?_
            unfold x
            try lift_lets -underBinder
            rotate_left
            clear_value x)
         | clear_value x
         | skip)
    | lift_lets -underBinder | with_reducible apply State.setSout_same | (split <;> try lift_lets -underBinder)

theorem execOffPulseEnd_same {k : Part} {a s : State} {x1 x2} (hk : k ∉ [.reg 0x3050, .reg 0x341A, .reg 0x344E, .reg
    0x344F, .reg 0x3450, .reg 0x4000, .reg 0x4010, .reg 0x6000, .units, .dies, .bldc, .axes, .power, .sup, .trail])
    (h : State.Same k a s) :
    ∃ t, execOffPulseEnd x1 x2 s = .next t ∧ State.Same k a t := by
  refine ⟨_, rfl, ?_⟩
  try lift_lets -underBinder
  repeat' first
    | with_reducible assumption | exact notMem_of hk (by decide +kernel)
    | (intro x
       first
         | (refine same_of (a := a) (k := k) x ?_ fun _ => ?_
            unfold x
            try lift_lets -underBinder
            rotate_left
            clear_value x)
         | clear_value x
         | skip)
    | lift_lets -underBinder | with_reducible apply State.setSout_same | with_reducible apply State.stuckOn_same
    | (split <;> try lift_lets -underBinder)

theorem execOutputFault_same {k : Part} {a s : State} {x1} (hk : k ∉ [.reg 0x3050, .reg 0x341A, .reg 0x344E, .reg
    0x344F, .reg 0x3450, .reg 0x4000, .reg 0x4010, .reg 0x6000, .units, .dies, .bldc, .axes, .power, .sup, .trail])
    (h : State.Same k a s) :
    ∃ t, execOutputFault x1 s = .next t ∧ State.Same k a t := by
  refine ⟨_, rfl, ?_⟩
  try lift_lets -underBinder
  repeat' first
    | with_reducible assumption | exact notMem_of hk (by decide +kernel)
    | (intro x
       first
         | (refine same_of (a := a) (k := k) x ?_ fun _ => ?_
            unfold x
            try lift_lets -underBinder
            rotate_left
            clear_value x)
         | clear_value x
         | skip)
    | lift_lets -underBinder | with_reducible apply State.overload_same | with_reducible apply State.stuckOn_same
    | (split <;> try lift_lets -underBinder)

theorem execContactorRequest_same {k : Part} {a s : State} {x1 x2 x3} (hk : k ∉ [.reg 0x1200, .reg 0x1210, .reg
    0x1310, .reg 0x3101, .reg 0x4021, .reg 0x4023, .units, .dies, .sup, .net]) (h : State.Same k a s) :
    ∃ t, execContactorRequest x1 x2 x3 s = .next t ∧ State.Same k a t := by
  refine ⟨_, rfl, ?_⟩
  try lift_lets -underBinder
  repeat' first
    | with_reducible assumption | exact notMem_of hk (by decide +kernel)
    | (intro x
       first
         | (refine same_of (a := a) (k := k) x ?_ fun _ => ?_
            unfold x
            try lift_lets -underBinder
            rotate_left
            clear_value x)
         | clear_value x
         | skip)
    | lift_lets -underBinder | with_reducible apply State.writeObj_same | with_reducible apply contactorSet_same
    | (split <;> try lift_lets -underBinder)

theorem execContactorTimeout_same {k : Part} {a s : State} {x1} (hk : k ∉ [.reg 0x4000, .reg 0x4021, .reg 0x6000,
    .dies, .sup, .trail]) (h : State.Same k a s) :
    ∃ t, execContactorTimeout x1 s = .next t ∧ State.Same k a t := by
  refine ⟨_, rfl, ?_⟩
  try lift_lets -underBinder
  repeat' first
    | with_reducible assumption | exact notMem_of hk (by decide +kernel)
    | (intro x
       first
         | (refine same_of (a := a) (k := k) x ?_ fun _ => ?_
            unfold x
            try lift_lets -underBinder
            rotate_left
            clear_value x)
         | clear_value x
         | skip)
    | lift_lets -underBinder | with_reducible apply State.contactorFault_same | with_reducible apply State.weld_same
    | (split <;> try lift_lets -underBinder)

theorem execContactorFault_same {k : Part} {a s : State} {x1} (hk : k ∉ [.reg 0x4000, .reg 0x4021, .reg 0x6000,
    .dies, .sup, .trail]) (h : State.Same k a s) :
    ∃ t, execContactorFault x1 s = .next t ∧ State.Same k a t := by
  refine ⟨_, rfl, ?_⟩
  try lift_lets -underBinder
  repeat' first
    | with_reducible assumption | exact notMem_of hk (by decide +kernel)
    | (intro x
       first
         | (refine same_of (a := a) (k := k) x ?_ fun _ => ?_
            unfold x
            try lift_lets -underBinder
            rotate_left
            clear_value x)
         | clear_value x
         | skip)
    | lift_lets -underBinder | with_reducible apply State.contactorFault_same
    | (split <;> try lift_lets -underBinder)

theorem execWeldedContact_same {k : Part} {a s : State} {x1} (hk : k ∉ [.reg 0x4000, .reg 0x4021, .reg 0x6000,
    .dies, .sup, .trail]) (h : State.Same k a s) :
    ∃ t, execWeldedContact x1 s = .next t ∧ State.Same k a t := by
  refine ⟨_, rfl, ?_⟩
  try lift_lets -underBinder
  repeat' first
    | with_reducible assumption | exact notMem_of hk (by decide +kernel)
    | (intro x
       first
         | (refine same_of (a := a) (k := k) x ?_ fun _ => ?_
            unfold x
            try lift_lets -underBinder
            rotate_left
            clear_value x)
         | clear_value x
         | skip)
    | lift_lets -underBinder | with_reducible apply State.weld_same | (split <;> try lift_lets -underBinder)

theorem execLockstepFault_same {k : Part} {a s : State} (hk : k ∉ [.reg 0x3070, .reg 0x341A, .reg 0x344E, .reg
    0x344F, .reg 0x3450, .reg 0x4000, .reg 0x4010, .reg 0x4021, .reg 0x6000, .units, .dies, .bldc, .axes, .power,
    .sup, .trail]) (h : State.Same k a s) :
    ∃ t, execLockstepFault s = .next t ∧ State.Same k a t := by
  refine ⟨_, rfl, ?_⟩
  try lift_lets -underBinder
  repeat' first
    | with_reducible assumption | exact notMem_of hk (by decide +kernel)
    | (intro x
       first
         | (refine same_of (a := a) (k := k) x ?_ fun _ => ?_
            unfold x
            try lift_lets -underBinder
            rotate_left
            clear_value x)
         | clear_value x
         | skip)
    | lift_lets -underBinder | with_reducible apply State.safeState_same | (split <;> try lift_lets -underBinder)

theorem execSupervisorClockFault_same {k : Part} {a s : State} {x1} (hk : k ∉ [.reg 0x3070, .reg 0x341A, .reg
    0x344E, .reg 0x344F, .reg 0x3450, .reg 0x4000, .reg 0x4010, .reg 0x4021, .reg 0x6000, .units, .dies, .bldc,
    .axes, .power, .sup, .trail]) (h : State.Same k a s) :
    ∃ t, execSupervisorClockFault x1 s = .next t ∧ State.Same k a t := by
  refine ⟨_, rfl, ?_⟩
  try lift_lets -underBinder
  repeat' first
    | with_reducible assumption | exact notMem_of hk (by decide +kernel)
    | (intro x
       first
         | (refine same_of (a := a) (k := k) x ?_ fun _ => ?_
            unfold x
            try lift_lets -underBinder
            rotate_left
            clear_value x)
         | clear_value x
         | skip)
    | lift_lets -underBinder | with_reducible apply State.safeState_same | (split <;> try lift_lets -underBinder)

theorem execSupervisorWatchdog_same {k : Part} {a s : State} (hk : k ∉ [.reg 0x3070, .reg 0x341A, .reg 0x344E, .reg
    0x344F, .reg 0x3450, .reg 0x4000, .reg 0x4010, .reg 0x4021, .reg 0x6000, .units, .dies, .bldc, .axes, .power,
    .sup, .trail]) (h : State.Same k a s) :
    ∃ t, execSupervisorWatchdog s = .next t ∧ State.Same k a t := by
  refine ⟨_, rfl, ?_⟩
  try lift_lets -underBinder
  repeat' first
    | with_reducible assumption | exact notMem_of hk (by decide +kernel)
    | (intro x
       first
         | (refine same_of (a := a) (k := k) x ?_ fun _ => ?_
            unfold x
            try lift_lets -underBinder
            rotate_left
            clear_value x)
         | clear_value x
         | skip)
    | lift_lets -underBinder | with_reducible apply State.safeState_same | (split <;> try lift_lets -underBinder)

theorem execMemoryFault_same {k : Part} {a s : State} (hk : k ∉ [.reg 0x3070, .reg 0x341A, .reg 0x344E, .reg 0x344F,
    .reg 0x3450, .reg 0x4000, .reg 0x4010, .reg 0x4021, .reg 0x6000, .units, .dies, .bldc, .axes, .power, .sup,
    .trail]) (h : State.Same k a s) :
    ∃ t, execMemoryFault s = .next t ∧ State.Same k a t := by
  refine ⟨_, rfl, ?_⟩
  try lift_lets -underBinder
  repeat' first
    | with_reducible assumption | exact notMem_of hk (by decide +kernel)
    | (intro x
       first
         | (refine same_of (a := a) (k := k) x ?_ fun _ => ?_
            unfold x
            try lift_lets -underBinder
            rotate_left
            clear_value x)
         | clear_value x
         | skip)
    | lift_lets -underBinder | with_reducible apply State.safeState_same | (split <;> try lift_lets -underBinder)

theorem execHSafeSupplyFault_same {k : Part} {a s : State} (hk : k ∉ [.reg 0x3070, .reg 0x341A, .reg 0x344E, .reg
    0x344F, .reg 0x3450, .reg 0x4000, .reg 0x4010, .reg 0x4021, .reg 0x6000, .units, .dies, .bldc, .axes, .power,
    .sup, .trail]) (h : State.Same k a s) :
    ∃ t, execHSafeSupplyFault s = .next t ∧ State.Same k a t := by
  refine ⟨_, rfl, ?_⟩
  try lift_lets -underBinder
  repeat' first
    | with_reducible assumption | exact notMem_of hk (by decide +kernel)
    | (intro x
       first
         | (refine same_of (a := a) (k := k) x ?_ fun _ => ?_
            unfold x
            try lift_lets -underBinder
            rotate_left
            clear_value x)
         | clear_value x
         | skip)
    | lift_lets -underBinder | with_reducible apply State.safeState_same | (split <;> try lift_lets -underBinder)

theorem execUnlock_same {k : Part} {a s : State} {x1 x2} (hk : k ∉ [.reg 0x1200, .reg 0x1210, .reg 0x1310, .reg
    0x3101, .reg 0x40F0, .units, .dies, .lockbox, .net, .free]) (h : State.Same k a s) :
    ∃ t, execUnlock x1 x2 s = .next t ∧ State.Same k a t := by
  refine ⟨_, rfl, ?_⟩
  try lift_lets -underBinder
  repeat' first
    | with_reducible assumption | exact notMem_of hk (by decide +kernel)
    | (intro x
       first
         | (refine same_of (a := a) (k := k) x ?_ fun _ => ?_
            unfold x
            try lift_lets -underBinder
            rotate_left
            clear_value x)
         | clear_value x
         | skip)
    | lift_lets -underBinder | with_reducible apply State.writeBlob_same | with_reducible apply State.countWrong_same
    | with_reducible apply unlockSet_same | (split <;> try lift_lets -underBinder)

theorem execPasswordChange_same {k : Part} {a s : State} {x1 x2} (hk : k ∉ [.reg 0x1200, .reg 0x1210, .reg 0x1310,
    .reg 0x3101, .reg 0x40F0, .units, .dies, .lockbox, .net, .free]) (h : State.Same k a s) :
    ∃ t, execPasswordChange x1 x2 s = .next t ∧ State.Same k a t := by
  refine ⟨_, rfl, ?_⟩
  try lift_lets -underBinder
  repeat' first
    | with_reducible assumption | exact notMem_of hk (by decide +kernel)
    | (intro x
       first
         | (refine same_of (a := a) (k := k) x ?_ fun _ => ?_
            unfold x
            try lift_lets -underBinder
            rotate_left
            clear_value x)
         | clear_value x
         | skip)
    | lift_lets -underBinder | with_reducible apply State.writeBlob_same | with_reducible apply State.countWrong_same
    | with_reducible apply passwordSet_same | (split <;> try lift_lets -underBinder)

theorem execLock_same {k : Part} {a s : State} {x1 x2} (hk : k ∉ [.reg 0x1200, .reg 0x1210, .reg 0x1310, .reg
    0x3101, .units, .dies, .lockbox, .net]) (h : State.Same k a s) :
    ∃ t, execLock x1 x2 s = .next t ∧ State.Same k a t := by
  refine ⟨_, rfl, ?_⟩
  try lift_lets -underBinder
  repeat' first
    | with_reducible assumption | exact notMem_of hk (by decide +kernel)
    | (intro x
       first
         | (refine same_of (a := a) (k := k) x ?_ fun _ => ?_
            unfold x
            try lift_lets -underBinder
            rotate_left
            clear_value x)
         | clear_value x
         | skip)
    | lift_lets -underBinder | with_reducible apply State.writeObj_same | with_reducible apply State.endUnlock_same
    | (split <;> try lift_lets -underBinder)

theorem execRwpWrite_same {k : Part} {a s : State} {x1 x2 x3 x4 x5} (hk : k ∉ [.reg 0x1200, .reg 0x1210, .reg
    0x1310, .reg 0x3101, .units, .dies, .lockbox, .net]) (h : State.Same k a s) :
    ∃ t, execRwpWrite x1 x2 x3 x4 x5 s = .next t ∧ State.Same k a t := by
  refine ⟨_, rfl, ?_⟩
  try lift_lets -underBinder
  repeat' first
    | with_reducible assumption | exact notMem_of hk (by decide +kernel)
    | (intro x
       first
         | (refine same_of (a := a) (k := k) x ?_ fun _ => ?_
            unfold x
            try lift_lets -underBinder
            rotate_left
            clear_value x)
         | clear_value x
         | skip)
    | lift_lets -underBinder | with_reducible apply State.writeObj_same | with_reducible apply rwpSet_same
    | (split <;> try lift_lets -underBinder)

theorem execApply_same {k : Part} {a s : State} {x1 x2} (hr : k.isObj = false) (hk : k ∉ [.units, .dies, .bldc,
    .axes, .sup, .lockbox, .net, .free]) (h : State.Same k a s) :
    ∃ t, execApply x1 x2 s = .next t ∧ State.Same k a t := by
  refine ⟨_, rfl, ?_⟩
  try lift_lets -underBinder
  repeat' first
    | with_reducible assumption | with_reducible exact hr | exact notMem_any hr hk (by decide +kernel)
    | (intro x
       first
         | (refine same_of (a := a) (k := k) x ?_ fun _ => ?_
            unfold x
            try lift_lets -underBinder
            rotate_left
            clear_value x)
         | clear_value x
         | skip)
    | lift_lets -underBinder | with_reducible apply State.writeObj_same | with_reducible apply applySet_same
    | (split <;> try lift_lets -underBinder)

theorem execUnlockTimeout_same {k : Part} {a s : State} (hk : k ∉ [.lockbox, .net]) (h : State.Same k a s) :
    ∃ t, execUnlockTimeout s = .next t ∧ State.Same k a t := by
  refine ⟨_, rfl, ?_⟩
  try lift_lets -underBinder
  repeat' first
    | with_reducible assumption | exact notMem_of hk (by decide +kernel)
    | (intro x
       first
         | (refine same_of (a := a) (k := k) x ?_ fun _ => ?_
            unfold x
            try lift_lets -underBinder
            rotate_left
            clear_value x)
         | clear_value x
         | skip)
    | lift_lets -underBinder | with_reducible apply State.endUnlock_same | (split <;> try lift_lets -underBinder)

theorem execLockoutEnd_same {k : Part} {a s : State} (hk : k ∉ [.reg 0x40F0, .lockbox]) (h : State.Same k a s) :
    ∃ t, execLockoutEnd s = .next t ∧ State.Same k a t := by
  refine ⟨_, rfl, ?_⟩
  try lift_lets -underBinder
  repeat' first
    | with_reducible assumption | exact notMem_of hk (by decide +kernel)
    | (intro x
       first
         | (refine same_of (a := a) (k := k) x ?_ fun _ => ?_
            unfold x
            try lift_lets -underBinder
            rotate_left
            clear_value x)
         | clear_value x
         | skip)
    | lift_lets -underBinder | with_reducible apply State.endLockout_same | (split <;> try lift_lets -underBinder)

theorem execRefclkAbsent_same {k : Part} {a s : State} {x1} (hk : k ∉ [.reg 0x1106, .reg 0x6000, .clock, .dies,
    .trail]) (h : State.Same k a s) :
    ∃ t, execRefclkAbsent x1 s = .next t ∧ State.Same k a t := by
  refine ⟨_, rfl, ?_⟩
  try lift_lets -underBinder
  repeat' first
    | with_reducible assumption | exact notMem_of hk (by decide +kernel)
    | (intro x
       first
         | (refine same_of (a := a) (k := k) x ?_ fun _ => ?_
            unfold x
            try lift_lets -underBinder
            rotate_left
            clear_value x)
         | clear_value x
         | skip)
    | lift_lets -underBinder | with_reducible apply State.setDie_same | with_reducible apply State.setClock_same
    | with_reducible apply State.loseLock_same | with_reducible apply State.sourceNote_same
    | (split <;> try lift_lets -underBinder)

theorem execRefclkPresent_same {k : Part} {a s : State} {x1} (hk : k ∉ [.reg 0x6000, .clock, .dies, .trail]) (h :
    State.Same k a s) :
    ∃ t, execRefclkPresent x1 s = .next t ∧ State.Same k a t := by
  refine ⟨_, rfl, ?_⟩
  try lift_lets -underBinder
  repeat' first
    | with_reducible assumption | exact notMem_of hk (by decide +kernel)
    | (intro x
       first
         | (refine same_of (a := a) (k := k) x ?_ fun _ => ?_
            unfold x
            try lift_lets -underBinder
            rotate_left
            clear_value x)
         | clear_value x
         | skip)
    | lift_lets -underBinder | with_reducible apply State.setDie_same | with_reducible apply State.sourceNote_same
    | with_reducible apply State.setClock_same | (split <;> try lift_lets -underBinder)

theorem execXtal32Failed_same {k : Part} {a s : State} (hk : k ∉ [.reg 0x6000, .clock, .dies, .trail]) (h :
    State.Same k a s) :
    ∃ t, execXtal32Failed s = .next t ∧ State.Same k a t := by
  refine ⟨_, rfl, ?_⟩
  try lift_lets -underBinder
  repeat' first
    | with_reducible assumption | exact notMem_of hk (by decide +kernel)
    | (intro x
       first
         | (refine same_of (a := a) (k := k) x ?_ fun _ => ?_
            unfold x
            try lift_lets -underBinder
            rotate_left
            clear_value x)
         | clear_value x
         | skip)
    | lift_lets -underBinder | with_reducible apply State.sourceNote_same | with_reducible apply State.setClock_same
    | (split <;> try lift_lets -underBinder)

theorem execXtal32Return_same {k : Part} {a s : State} (hk : k ∉ [.reg 0x6000, .clock, .dies, .trail]) (h :
    State.Same k a s) :
    ∃ t, execXtal32Return s = .next t ∧ State.Same k a t := by
  refine ⟨_, rfl, ?_⟩
  try lift_lets -underBinder
  repeat' first
    | with_reducible assumption | exact notMem_of hk (by decide +kernel)
    | (intro x
       first
         | (refine same_of (a := a) (k := k) x ?_ fun _ => ?_
            unfold x
            try lift_lets -underBinder
            rotate_left
            clear_value x)
         | clear_value x
         | skip)
    | lift_lets -underBinder | with_reducible apply State.sourceNote_same | with_reducible apply State.setClock_same
    | (split <;> try lift_lets -underBinder)

theorem execLockWindow_same {k : Part} {a s : State} {x1 x2} (hk : k ∉ [.reg 0x1106, .reg 0x2402, .reg 0x2444, .reg
    0x3040, .reg 0x3050, .reg 0x3070, .reg 0x3101, .reg 0x341A, .reg 0x3420, .reg 0x344E, .reg 0x344F, .reg 0x3450,
    .reg 0x3457, .reg 0x6000, .reg 0x6010, .reg 0x6012, .clock, .chans, .units, .slots, .engines, .dies, .bldc,
    .axes, .power, .trail, .lane, .flight, .free]) (h : State.Same k a s) :
    ∃ t, execLockWindow x1 x2 s = .next t ∧ State.Same k a t := by
  refine ⟨_, rfl, ?_⟩
  try lift_lets -underBinder
  repeat' first
    | with_reducible assumption | exact notMem_of hk (by decide +kernel)
    | (intro x
       first
         | (refine same_of (a := a) (k := k) x ?_ fun _ => ?_
            unfold x
            try lift_lets -underBinder
            rotate_left
            clear_value x)
         | clear_value x
         | skip)
    | lift_lets -underBinder | with_reducible apply State.loseLock_same | with_reducible apply State.setLoop_same
    | with_reducible apply State.coastOut_same | with_reducible apply State.declareLock_same
    | (split <;> try lift_lets -underBinder)

theorem execCoastLimit_same {k : Part} {a s : State} {x1} (hk : k ∉ [.reg 0x2402, .reg 0x2444, .reg 0x3040, .reg
    0x3050, .reg 0x3070, .reg 0x3101, .reg 0x341A, .reg 0x3420, .reg 0x344E, .reg 0x344F, .reg 0x3450, .reg 0x3457,
    .reg 0x6000, .reg 0x6010, .reg 0x6012, .clock, .chans, .units, .slots, .engines, .dies, .bldc, .axes, .power,
    .trail, .lane, .flight, .free]) (h : State.Same k a s) :
    ∃ t, execCoastLimit x1 s = .next t ∧ State.Same k a t := by
  refine ⟨_, rfl, ?_⟩
  try lift_lets -underBinder
  repeat' first
    | with_reducible assumption | exact notMem_of hk (by decide +kernel)
    | (intro x
       first
         | (refine same_of (a := a) (k := k) x ?_ fun _ => ?_
            unfold x
            try lift_lets -underBinder
            rotate_left
            clear_value x)
         | clear_value x
         | skip)
    | lift_lets -underBinder | with_reducible apply State.coastOut_same | (split <;> try lift_lets -underBinder)

theorem execSync_same {k : Part} {a s : State} {x1 x2 x3} (hk : k ∉ [.reg 0x1111, .clock]) (h : State.Same k a s) :
    ∃ t, execSync x1 x2 x3 s = .next t ∧ State.Same k a t := by
  refine ⟨_, rfl, ?_⟩
  try lift_lets -underBinder
  repeat' first
    | with_reducible assumption | exact notMem_of hk (by decide +kernel)
    | (intro x
       first
         | (refine same_of (a := a) (k := k) x ?_ fun _ => ?_
            unfold x
            try lift_lets -underBinder
            rotate_left
            clear_value x)
         | clear_value x
         | skip)
    | lift_lets -underBinder | with_reducible apply State.syncCounts_same | with_reducible apply State.wr_same
    | with_reducible apply State.setClock_same | (split <;> try lift_lets -underBinder)

theorem execSyncTimeout_same {k : Part} {a s : State} (hk : k ∉ [.reg 0x1111, .clock]) (h : State.Same k a s) :
    ∃ t, execSyncTimeout s = .next t ∧ State.Same k a t := by
  refine ⟨_, rfl, ?_⟩
  try lift_lets -underBinder
  repeat' first
    | with_reducible assumption | exact notMem_of hk (by decide +kernel)
    | (intro x
       first
         | (refine same_of (a := a) (k := k) x ?_ fun _ => ?_
            unfold x
            try lift_lets -underBinder
            rotate_left
            clear_value x)
         | clear_value x
         | skip)
    | lift_lets -underBinder | with_reducible apply State.wr_same | with_reducible apply State.setClock_same
    | (split <;> try lift_lets -underBinder)

theorem execLtStep_same {k : Part} {a s : State} (hk : k ∉ [.reg 0x1101, .reg 0x1105, .reg 0x1111, .reg 0x2406, .reg
    0x2407, .reg 0x3180, .reg 0x3181, .reg 0x6000, .clock, .chans, .units, .dies, .adcs, .groups, .qm, .net, .trail,
    .free]) (h : State.Same k a s) :
    ∃ t, execLtStep s = .next t ∧ State.Same k a t := by
  refine ⟨_, rfl, ?_⟩
  try lift_lets -underBinder
  repeat' first
    | with_reducible assumption | exact notMem_of hk (by decide +kernel)
    | (intro x
       first
         | (refine same_of (a := a) (k := k) x ?_ fun _ => ?_
            unfold x
            try lift_lets -underBinder
            rotate_left
            clear_value x)
         | clear_value x
         | skip)
    | lift_lets -underBinder | with_reducible apply State.takePubs_same | with_reducible apply State.epoch_same
    | (split <;> try lift_lets -underBinder)

end Sys2Proof.Machine
end

