-- ==== Sys2Proof/Laws/FrameWays.lean ====
section
/-! SUPPORT. Which parts of the state the commands 275 to 365 of the table can change: one lemma for each. -/

namespace Sys2Proof.Machine

set_option Elab.async false

set_option linter.unreachableTactic false
set_option linter.unusedTactic false

theorem execCarrierEpoch_same {k : Part} {a s : State} {x1} (hk : k ∉ [.reg 0x1101, .reg 0x1105, .reg 0x1111, .reg
    0x2406, .reg 0x2407, .reg 0x3180, .reg 0x3181, .reg 0x6000, .clock, .chans, .units, .dies, .adcs, .groups, .qm,
    .net, .trail, .free]) (h : State.Same k a s) :
    ∃ t, execCarrierEpoch x1 s = .next t ∧ State.Same k a t := by
  refine ⟨_, rfl, ?_⟩
  try lift_lets -underBinder
  repeat' first
    | with_reducible assumption | exact notMem_of hk (by decide +kernel)
    | (intro x
       first
         | (refine same_of (a := a) (k := k) x ?_ fun _ => ?_
            unfold x
            try lift_lets -underBinder
            rotate_left
            clear_value x)
         | clear_value x
         | skip)
    | lift_lets -underBinder | with_reducible apply State.takePubs_same | with_reducible apply State.epoch_same
    | (split <;> try lift_lets -underBinder)

theorem execEpochPeriod_same {k : Part} {a s : State} {x1 x2} (hk : k ∉ [.reg 0x1101, .reg 0x1200, .reg 0x1210, .reg
    0x1310, .reg 0x3101, .clock, .units, .dies, .net]) (h : State.Same k a s) :
    ∃ t, execEpochPeriod x1 x2 s = .next t ∧ State.Same k a t := by
  refine ⟨_, rfl, ?_⟩
  try lift_lets -underBinder
  repeat' first
    | with_reducible assumption | exact notMem_of hk (by decide +kernel)
    | (intro x
       first
         | (refine same_of (a := a) (k := k) x ?_ fun _ => ?_
            unfold x
            try lift_lets -underBinder
            rotate_left
            clear_value x)
         | clear_value x
         | skip)
    | lift_lets -underBinder | with_reducible apply State.writeObj_same | with_reducible apply epochSet_same
    | (split <;> try lift_lets -underBinder)

theorem execRestEntry_same {k : Part} {a s : State} {x1} (hk : k ∉ [.reg 0x1200, .reg 0x1210, .reg 0x3101, .chans,
    .units, .dies]) (h : State.Same k a s) :
    ∃ t, execRestEntry x1 s = .next t ∧ State.Same k a t := by
  refine ⟨_, rfl, ?_⟩
  try lift_lets -underBinder
  repeat' first
    | with_reducible assumption | exact notMem_of hk (by decide +kernel)
    | (intro x
       first
         | (refine same_of (a := a) (k := k) x ?_ fun _ => ?_
            unfold x
            try lift_lets -underBinder
            rotate_left
            clear_value x)
         | clear_value x
         | skip)
    | lift_lets -underBinder | with_reducible apply State.enterRest_same | (split <;> try lift_lets -underBinder)

theorem execWindowLeft_same {k : Part} {a s : State} {x1 x2 x3} (hk : k ∉ [.reg 0x1200, .reg 0x1210, .reg 0x3101,
    .chans, .units, .dies]) (h : State.Same k a s) :
    ∃ t, execWindowLeft x1 x2 x3 s = .next t ∧ State.Same k a t := by
  refine ⟨_, rfl, ?_⟩
  try lift_lets -underBinder
  repeat' first
    | with_reducible assumption | exact notMem_of hk (by decide +kernel)
    | (intro x
       first
         | (refine same_of (a := a) (k := k) x ?_ fun _ => ?_
            unfold x
            try lift_lets -underBinder
            rotate_left
            clear_value x)
         | clear_value x
         | skip)
    | lift_lets -underBinder | with_reducible apply State.setChan_same | with_reducible apply State.wakeDie_same
    | (split <;> try lift_lets -underBinder)

theorem execRestWakeTimer_same {k : Part} {a s : State} {x1} (hk : k ∉ [.reg 0x1200, .reg 0x1210, .reg 0x3101,
    .units, .dies]) (h : State.Same k a s) :
    ∃ t, execRestWakeTimer x1 s = .next t ∧ State.Same k a t := by
  refine ⟨_, rfl, ?_⟩
  try lift_lets -underBinder
  repeat' first
    | with_reducible assumption | exact notMem_of hk (by decide +kernel)
    | (intro x
       first
         | (refine same_of (a := a) (k := k) x ?_ fun _ => ?_
            unfold x
            try lift_lets -underBinder
            rotate_left
            clear_value x)
         | clear_value x
         | skip)
    | lift_lets -underBinder | with_reducible apply State.wakeDie_same | (split <;> try lift_lets -underBinder)

theorem execBusWithinSetpoint_same {k : Part} {a s : State} {x1 x2 x3} (hk : k ∉ [.dies]) (h : State.Same k a s) :
    ∃ t, execBusWithinSetpoint x1 x2 x3 s = .next t ∧ State.Same k a t := by
  refine ⟨_, rfl, ?_⟩
  try lift_lets -underBinder
  repeat' first
    | with_reducible assumption | exact notMem_of hk (by decide +kernel)
    | (intro x
       first
         | (refine same_of (a := a) (k := k) x ?_ fun _ => ?_
            unfold x
            try lift_lets -underBinder
            rotate_left
            clear_value x)
         | clear_value x
         | skip)
    | lift_lets -underBinder | with_reducible apply State.setDie_same | (split <;> try lift_lets -underBinder)

theorem execRunRequest_same {k : Part} {a s : State} {x1} (hk : k ∉ [.reg 0x1200, .reg 0x1210, .reg 0x1310, .reg
    0x2500, .reg 0x3101, .reg 0x6000, .clock, .units, .slots, .dies, .net, .trail, .standbyDue]) (h : State.Same k a
    s) :
    ∃ t, execRunRequest x1 s = .next t ∧ State.Same k a t := by
  refine ⟨_, rfl, ?_⟩
  try lift_lets -underBinder
  repeat' first
    | with_reducible assumption | exact notMem_of hk (by decide +kernel)
    | (intro x
       first
         | (refine same_of (a := a) (k := k) x ?_ fun _ => ?_
            unfold x
            try lift_lets -underBinder
            rotate_left
            clear_value x)
         | clear_value x
         | skip)
    | lift_lets -underBinder | with_reducible apply State.writeObj_same | with_reducible apply powerReqSet_same
    | (split <;> try lift_lets -underBinder)

theorem execStandbyRequest_same {k : Part} {a s : State} {x1} (hk : k ∉ [.reg 0x1200, .reg 0x1210, .reg 0x1310, .reg
    0x2500, .reg 0x3101, .reg 0x6000, .clock, .units, .slots, .dies, .net, .trail, .standbyDue]) (h : State.Same k a
    s) :
    ∃ t, execStandbyRequest x1 s = .next t ∧ State.Same k a t := by
  refine ⟨_, rfl, ?_⟩
  try lift_lets -underBinder
  repeat' first
    | with_reducible assumption | exact notMem_of hk (by decide +kernel)
    | (intro x
       first
         | (refine same_of (a := a) (k := k) x ?_ fun _ => ?_
            unfold x
            try lift_lets -underBinder
            rotate_left
            clear_value x)
         | clear_value x
         | skip)
    | lift_lets -underBinder | with_reducible apply State.writeObj_same | with_reducible apply powerReqSet_same
    | (split <;> try lift_lets -underBinder)

theorem execSleepRequest_same {k : Part} {a s : State} {x1} (hk : k ∉ [.reg 0x1200, .reg 0x1210, .reg 0x1310, .reg
    0x2500, .reg 0x3101, .reg 0x6000, .clock, .units, .slots, .dies, .net, .trail, .standbyDue]) (h : State.Same k a
    s) :
    ∃ t, execSleepRequest x1 s = .next t ∧ State.Same k a t := by
  refine ⟨_, rfl, ?_⟩
  try lift_lets -underBinder
  repeat' first
    | with_reducible assumption | exact notMem_of hk (by decide +kernel)
    | (intro x
       first
         | (refine same_of (a := a) (k := k) x ?_ fun _ => ?_
            unfold x
            try lift_lets -underBinder
            rotate_left
            clear_value x)
         | clear_value x
         | skip)
    | lift_lets -underBinder | with_reducible apply State.writeObj_same | with_reducible apply powerReqSet_same
    | (split <;> try lift_lets -underBinder)

theorem execStandbyEntry_same {k : Part} {a s : State} (hk : k ∉ [.reg 0x1200, .clock, .dies, .standbyDue, .sleepLt,
    .sleepHash, .lane, .flight]) (h : State.Same k a s) :
    ∃ t, execStandbyEntry s = .next t ∧ State.Same k a t := by
  refine ⟨_, rfl, ?_⟩
  try lift_lets -underBinder
  repeat' first
    | with_reducible assumption | exact notMem_of hk (by decide +kernel)
    | (intro x
       first
         | (refine same_of (a := a) (k := k) x ?_ fun _ => ?_
            unfold x
            try lift_lets -underBinder
            rotate_left
            clear_value x)
         | clear_value x
         | skip)
    | lift_lets -underBinder | with_reducible apply State.enterStandby_same
    | with_reducible apply State.enterSleep_same | (split <;> try lift_lets -underBinder)
    | with_reducible apply same_standbyDue

theorem execSleepWake_same {k : Part} {a s : State} {x1} (hk : k ∉ [.waking]) (h : State.Same k a s) :
    ∃ t, execSleepWake x1 s = .next t ∧ State.Same k a t := by
  refine ⟨_, rfl, ?_⟩
  try lift_lets -underBinder
  repeat' first
    | with_reducible assumption | exact notMem_of hk (by decide +kernel)
    | (intro x
       first
         | (refine same_of (a := a) (k := k) x ?_ fun _ => ?_
            unfold x
            try lift_lets -underBinder
            rotate_left
            clear_value x)
         | clear_value x
         | skip)
    | lift_lets -underBinder | with_reducible apply State.wakeBy_same | (split <;> try lift_lets -underBinder)

theorem execSleepWakeTimer_same {k : Part} {a s : State} (hk : k ∉ [.waking]) (h : State.Same k a s) :
    ∃ t, execSleepWakeTimer s = .next t ∧ State.Same k a t := by
  refine ⟨_, rfl, ?_⟩
  try lift_lets -underBinder
  repeat' first
    | with_reducible assumption | exact notMem_of hk (by decide +kernel)
    | (intro x
       first
         | (refine same_of (a := a) (k := k) x ?_ fun _ => ?_
            unfold x
            try lift_lets -underBinder
            rotate_left
            clear_value x)
         | clear_value x
         | skip)
    | lift_lets -underBinder | with_reducible apply State.wakeBy_same | (split <;> try lift_lets -underBinder)

theorem execWakeToStandby_same {k : Part} {a s : State} {x1} (hr : k.isObj = false) (hk : k ∉ [.vsys, .fw, .clock,
    .chans, .units, .slots, .engines, .dies, .descs, .adcs, .wins, .queues, .groups, .bldc, .axes, .power, .sup,
    .lockbox, .net, .can, .sec, .standbyDue, .sleepLt, .metNote, .lastMet, .metSilent, .metView, .metViewAt, .tag,
    .sleepHash, .waking, .resetLt, .resetReq, .lane, .flight, .hot]) (h : State.Same k a s) :
    ∃ t, execWakeToStandby x1 s = .next t ∧ State.Same k a t := by
  refine ⟨_, rfl, ?_⟩
  try lift_lets -underBinder
  repeat' first
    | with_reducible assumption | with_reducible exact hr | exact notMem_any hr hk (by decide +kernel)
    | (intro x
       first
         | (refine same_of (a := a) (k := k) x ?_ fun _ => ?_
            unfold x
            try lift_lets -underBinder
            rotate_left
            clear_value x)
         | clear_value x
         | skip)
    | lift_lets -underBinder | with_reducible apply State.mail_same | with_reducible apply State.wr_field
    | with_reducible apply State.wr_same | with_reducible apply State.restart_same
    | (split <;> try lift_lets -underBinder) | with_reducible apply same_waking

theorem execVioUndervoltage_same {k : Part} {a s : State} {x1 x2} (hk : k ∉ [.reg 0x1010, .reg 0x1220, .reg 0x2402,
    .reg 0x2444, .reg 0x3040, .reg 0x3050, .reg 0x3070, .reg 0x3101, .reg 0x341A, .reg 0x3420, .reg 0x344E, .reg
    0x344F, .reg 0x3450, .reg 0x3457, .reg 0x6000, .reg 0x6010, .reg 0x6012, .chans, .units, .slots, .engines,
    .dies, .bldc, .axes, .power, .qm, .net, .trail, .lane, .flight, .banks]) (h : State.Same k a s) :
    ∃ t, execVioUndervoltage x1 x2 s = .next t ∧ State.Same k a t := by
  refine ⟨_, rfl, ?_⟩
  try lift_lets -underBinder
  repeat' first
    | with_reducible assumption | exact notMem_of hk (by decide +kernel)
    | (intro x
       first
         | (refine same_of (a := a) (k := k) x ?_ fun _ => ?_
            unfold x
            try lift_lets -underBinder
            rotate_left
            clear_value x)
         | clear_value x
         | skip)
    | lift_lets -underBinder | with_reducible apply State.bankLost_same | with_reducible apply State.bankNote_same
    | with_reducible apply State.markBank_same | (split <;> try lift_lets -underBinder)

theorem execVioRecovery_same {k : Part} {a s : State} {x1 x2} (hk : k ∉ [.reg 0x1220, .reg 0x6000, .dies, .qm,
    .trail, .banks]) (h : State.Same k a s) :
    ∃ t, execVioRecovery x1 x2 s = .next t ∧ State.Same k a t := by
  refine ⟨_, rfl, ?_⟩
  try lift_lets -underBinder
  repeat' first
    | with_reducible assumption | exact notMem_of hk (by decide +kernel)
    | (intro x
       first
         | (refine same_of (a := a) (k := k) x ?_ fun _ => ?_
            unfold x
            try lift_lets -underBinder
            rotate_left
            clear_value x)
         | clear_value x
         | skip)
    | lift_lets -underBinder | with_reducible apply State.readBank_same | with_reducible apply State.bankNote_same
    | with_reducible apply State.markBank_same | (split <;> try lift_lets -underBinder)

theorem execHubOverTemperature_same {k : Part} {a s : State} {x1} (hk : k ∉ [.reg 0x1221, .reg 0x3050, .reg 0x6000,
    .dies, .power, .trail, .hot]) (h : State.Same k a s) :
    ∃ t, execHubOverTemperature x1 s = .next t ∧ State.Same k a t := by
  refine ⟨_, rfl, ?_⟩
  try lift_lets -underBinder
  repeat' first
    | with_reducible assumption | exact notMem_of hk (by decide +kernel)
    | (intro x
       first
         | (refine same_of (a := a) (k := k) x ?_ fun _ => ?_
            unfold x
            try lift_lets -underBinder
            rotate_left
            clear_value x)
         | clear_value x
         | skip)
    | lift_lets -underBinder | with_reducible apply State.wr_same | with_reducible apply State.hotJob_same
    | (split <;> try lift_lets -underBinder) | with_reducible apply same_hot

theorem execRead_same {k : Part} {a s : State} {x1 x2} (hk : k ∉ [.reg 0x1310, .net, .sec, .free]) (h : State.Same k
    a s) :
    ∃ t, execRead x1 x2 s = .next t ∧ State.Same k a t := by
  refine ⟨_, rfl, ?_⟩
  try lift_lets -underBinder
  repeat' first
    | with_reducible assumption | exact notMem_of hk (by decide +kernel)
    | (intro x
       first
         | (refine same_of (a := a) (k := k) x ?_ fun _ => ?_
            unfold x
            try lift_lets -underBinder
            rotate_left
            clear_value x)
         | clear_value x
         | skip)
    | lift_lets -underBinder | with_reducible apply State.readReq_same | (split <;> try lift_lets -underBinder)

theorem execWrite_same {k : Part} {a s : State} {x1 x2 x3} (hr : k.isObj = false) (hk : k ∉ [.vsys, .fw, .clock,
    .flash, .flashBlobs, .chans, .units, .slots, .engines, .dies, .descs, .adcs, .wins, .queues, .groups, .bldc,
    .axes, .power, .sup, .lockbox, .qm, .net, .can, .sec, .trail, .standbyDue, .sleepLt, .metNote, .lastMet,
    .metSilent, .metView, .metViewAt, .tag, .sleepHash, .waking, .resetLt, .resetReq, .lane, .flight, .hot, .free])
    (h : State.Same k a s) :
    ∃ t, execWrite x1 x2 x3 s = .next t ∧ State.Same k a t := by
  refine ⟨_, rfl, ?_⟩
  try lift_lets -underBinder
  repeat' first
    | with_reducible assumption | with_reducible exact hr | exact notMem_any hr hk (by decide +kernel)
    | (intro x
       first
         | (refine same_of (a := a) (k := k) x ?_ fun _ => ?_
            unfold x
            try lift_lets -underBinder
            rotate_left
            clear_value x)
         | clear_value x
         | skip)
    | lift_lets -underBinder | with_reducible apply State.writeReq_same | (split <;> try lift_lets -underBinder)

theorem execReadRange_same {k : Part} {a s : State} {x1 x2} (hk : k ∉ [.reg 0x1310, .net, .sec, .free]) (h :
    State.Same k a s) :
    ∃ t, execReadRange x1 x2 s = .next t ∧ State.Same k a t := by
  refine ⟨_, rfl, ?_⟩
  try lift_lets -underBinder
  repeat' first
    | with_reducible assumption | exact notMem_of hk (by decide +kernel)
    | (intro x
       first
         | (refine same_of (a := a) (k := k) x ?_ fun _ => ?_
            unfold x
            try lift_lets -underBinder
            rotate_left
            clear_value x)
         | clear_value x
         | skip)
    | lift_lets -underBinder | with_reducible apply State.readReq_same | (split <;> try lift_lets -underBinder)

theorem execWriteRange_same {k : Part} {a s : State} {x1 x2 x3} (hr : k.isObj = false) (hk : k ∉ [.vsys, .fw,
    .clock, .flash, .flashBlobs, .chans, .units, .slots, .engines, .dies, .descs, .adcs, .wins, .queues, .groups,
    .bldc, .axes, .power, .sup, .lockbox, .qm, .net, .can, .sec, .trail, .standbyDue, .sleepLt, .metNote, .lastMet,
    .metSilent, .metView, .metViewAt, .tag, .sleepHash, .waking, .resetLt, .resetReq, .lane, .flight, .hot, .free])
    (h : State.Same k a s) :
    ∃ t, execWriteRange x1 x2 x3 s = .next t ∧ State.Same k a t := by
  refine ⟨_, rfl, ?_⟩
  try lift_lets -underBinder
  repeat' first
    | with_reducible assumption | with_reducible exact hr | exact notMem_any hr hk (by decide +kernel)
    | (intro x
       first
         | (refine same_of (a := a) (k := k) x ?_ fun _ => ?_
            unfold x
            try lift_lets -underBinder
            rotate_left
            clear_value x)
         | clear_value x
         | skip)
    | lift_lets -underBinder | with_reducible apply State.writeReq_same | (split <;> try lift_lets -underBinder)

theorem execSegInitWrite_same {k : Part} {a s : State} {x1 x2 x3} (hk : k ∉ [.reg 0x1310, .net, .sec, .free]) (h :
    State.Same k a s) :
    ∃ t, execSegInitWrite x1 x2 x3 s = .next t ∧ State.Same k a t := by
  refine ⟨_, rfl, ?_⟩
  try lift_lets -underBinder
  repeat' first
    | with_reducible assumption | exact notMem_of hk (by decide +kernel)
    | (intro x
       first
         | (refine same_of (a := a) (k := k) x ?_ fun _ => ?_
            unfold x
            try lift_lets -underBinder
            rotate_left
            clear_value x)
         | clear_value x
         | skip)
    | lift_lets -underBinder | with_reducible apply State.segInit_same | (split <;> try lift_lets -underBinder)

theorem execSegInitRead_same {k : Part} {a s : State} {x1 x2 x3} (hk : k ∉ [.reg 0x1310, .net, .sec, .free]) (h :
    State.Same k a s) :
    ∃ t, execSegInitRead x1 x2 x3 s = .next t ∧ State.Same k a t := by
  refine ⟨_, rfl, ?_⟩
  try lift_lets -underBinder
  repeat' first
    | with_reducible assumption | exact notMem_of hk (by decide +kernel)
    | (intro x
       first
         | (refine same_of (a := a) (k := k) x ?_ fun _ => ?_
            unfold x
            try lift_lets -underBinder
            rotate_left
            clear_value x)
         | clear_value x
         | skip)
    | lift_lets -underBinder | with_reducible apply State.segInit_same | (split <;> try lift_lets -underBinder)

theorem execSegDataWrite_same {k : Part} {a s : State} {x1 x2 x3 x4} (hk : k ∉ [.reg 0x1310, .net]) (h : State.Same
    k a s) :
    ∃ t, execSegDataWrite x1 x2 x3 x4 s = .next t ∧ State.Same k a t := by
  refine ⟨_, rfl, ?_⟩
  try lift_lets -underBinder
  repeat' first
    | with_reducible assumption | exact notMem_of hk (by decide +kernel)
    | (intro x
       first
         | (refine same_of (a := a) (k := k) x ?_ fun _ => ?_
            unfold x
            try lift_lets -underBinder
            rotate_left
            clear_value x)
         | clear_value x
         | skip)
    | lift_lets -underBinder | with_reducible apply State.segData_same | (split <;> try lift_lets -underBinder)

theorem execSegDataRead_same {k : Part} {a s : State} {x1 x2 x3 x4} (hk : k ∉ [.reg 0x1310, .net]) (h : State.Same k
    a s) :
    ∃ t, execSegDataRead x1 x2 x3 x4 s = .next t ∧ State.Same k a t := by
  refine ⟨_, rfl, ?_⟩
  try lift_lets -underBinder
  repeat' first
    | with_reducible assumption | exact notMem_of hk (by decide +kernel)
    | (intro x
       first
         | (refine same_of (a := a) (k := k) x ?_ fun _ => ?_
            unfold x
            try lift_lets -underBinder
            rotate_left
            clear_value x)
         | clear_value x
         | skip)
    | lift_lets -underBinder | with_reducible apply State.segData_same | (split <;> try lift_lets -underBinder)

theorem execSegEndWrite_same {k : Part} {a s : State} {x1 x2 x3} (hr : k.isObj = false) (hk : k ∉ [.vsys, .fw,
    .clock, .flash, .flashBlobs, .chans, .units, .slots, .engines, .dies, .descs, .adcs, .wins, .queues, .groups,
    .bldc, .axes, .power, .sup, .lockbox, .qm, .net, .can, .sec, .trail, .standbyDue, .sleepLt, .metNote, .lastMet,
    .metSilent, .metView, .metViewAt, .tag, .sleepHash, .waking, .resetLt, .resetReq, .lane, .flight, .hot, .free])
    (h : State.Same k a s) :
    ∃ t, execSegEndWrite x1 x2 x3 s = .next t ∧ State.Same k a t := by
  refine ⟨_, rfl, ?_⟩
  try lift_lets -underBinder
  repeat' first
    | with_reducible assumption | with_reducible exact hr | exact notMem_any hr hk (by decide +kernel)
    | (intro x
       first
         | (refine same_of (a := a) (k := k) x ?_ fun _ => ?_
            unfold x
            try lift_lets -underBinder
            rotate_left
            clear_value x)
         | clear_value x
         | skip)
    | lift_lets -underBinder | with_reducible apply State.segEnd_same | (split <;> try lift_lets -underBinder)

theorem execSegEndRead_same {k : Part} {a s : State} {x1 x2} (hr : k.isObj = false) (hk : k ∉ [.vsys, .fw, .clock,
    .flash, .flashBlobs, .chans, .units, .slots, .engines, .dies, .descs, .adcs, .wins, .queues, .groups, .bldc,
    .axes, .power, .sup, .lockbox, .qm, .net, .can, .sec, .trail, .standbyDue, .sleepLt, .metNote, .lastMet,
    .metSilent, .metView, .metViewAt, .tag, .sleepHash, .waking, .resetLt, .resetReq, .lane, .flight, .hot, .free])
    (h : State.Same k a s) :
    ∃ t, execSegEndRead x1 x2 s = .next t ∧ State.Same k a t := by
  refine ⟨_, rfl, ?_⟩
  try lift_lets -underBinder
  repeat' first
    | with_reducible assumption | with_reducible exact hr | exact notMem_any hr hk (by decide +kernel)
    | (intro x
       first
         | (refine same_of (a := a) (k := k) x ?_ fun _ => ?_
            unfold x
            try lift_lets -underBinder
            rotate_left
            clear_value x)
         | clear_value x
         | skip)
    | lift_lets -underBinder | with_reducible apply State.segEnd_same | (split <;> try lift_lets -underBinder)

theorem execSubscribe_same {k : Part} {a s : State} {x1 x2 x3 x4 x5} (hk : k ∉ [.reg 0x1310, .net]) (h : State.Same
    k a s) :
    ∃ t, execSubscribe x1 x2 x3 x4 x5 s = .next t ∧ State.Same k a t := by
  refine ⟨_, rfl, ?_⟩
  try lift_lets -underBinder
  repeat' first
    | with_reducible assumption | exact notMem_of hk (by decide +kernel)
    | (intro x
       first
         | (refine same_of (a := a) (k := k) x ?_ fun _ => ?_
            unfold x
            try lift_lets -underBinder
            rotate_left
            clear_value x)
         | clear_value x
         | skip)
    | lift_lets -underBinder | with_reducible apply State.serve_same | with_reducible apply State.subscribeTo_same
    | with_reducible apply sameAns_ok | with_reducible apply sameAns_error | (split <;> try lift_lets -underBinder)

theorem execNotify_same {k : Part} {a s : State} (hk : k ∉ [.net]) (h : State.Same k a s) :
    ∃ t, execNotify s = .next t ∧ State.Same k a t := by
  refine ⟨_, rfl, ?_⟩
  try lift_lets -underBinder
  repeat' first
    | with_reducible assumption | exact notMem_of hk (by decide +kernel)
    | (intro x
       first
         | (refine same_of (a := a) (k := k) x ?_ fun _ => ?_
            unfold x
            try lift_lets -underBinder
            rotate_left
            clear_value x)
         | clear_value x
         | skip)
    | lift_lets -underBinder | with_reducible apply State.clearOut_same | with_reducible apply each_same
    | with_reducible apply State.notifyOut_same | (split <;> try lift_lets -underBinder)
    | with_reducible apply same_net

theorem execRecordStreamPublish_same {k : Part} {a s : State} {x1 x2} (hk : k ∉ [.reg 0x1310, .net]) (h : State.Same
    k a s) :
    ∃ t, execRecordStreamPublish x1 x2 s = .next t ∧ State.Same k a t := by
  refine ⟨_, rfl, ?_⟩
  try lift_lets -underBinder
  repeat' first
    | with_reducible assumption | exact notMem_of hk (by decide +kernel)
    | (intro x
       first
         | (refine same_of (a := a) (k := k) x ?_ fun _ => ?_
            unfold x
            try lift_lets -underBinder
            rotate_left
            clear_value x)
         | clear_value x
         | skip)
    | lift_lets -underBinder | with_reducible apply State.clearOut_same | with_reducible apply State.wr_same
    | with_reducible apply State.setSubs_same | with_reducible apply State.notifyOut_same
    | with_reducible apply State.countStream_same | (split <;> try lift_lets -underBinder)

theorem execAbortTransfer_same {k : Part} {a s : State} {x1 x2} (hk : k ∉ [.reg 0x1310, .net]) (h : State.Same k a
    s) :
    ∃ t, execAbortTransfer x1 x2 s = .next t ∧ State.Same k a t := by
  refine ⟨_, rfl, ?_⟩
  try lift_lets -underBinder
  repeat' first
    | with_reducible assumption | exact notMem_of hk (by decide +kernel)
    | (intro x
       first
         | (refine same_of (a := a) (k := k) x ?_ fun _ => ?_
            unfold x
            try lift_lets -underBinder
            rotate_left
            clear_value x)
         | clear_value x
         | skip)
    | lift_lets -underBinder | with_reducible apply State.serve_same | with_reducible apply done_same
    | with_reducible apply State.closeTransfer_same | with_reducible apply sameAns_ok
    | with_reducible apply sameAns_error | (split <;> try lift_lets -underBinder)

theorem execAbortSession_same {k : Part} {a s : State} {x1} (hk : k ∉ [.reg 0x1310, .reg 0x7035, .reg 0x7040,
    .lockbox, .net, .sec]) (h : State.Same k a s) :
    ∃ t, execAbortSession x1 s = .next t ∧ State.Same k a t := by
  refine ⟨_, rfl, ?_⟩
  try lift_lets -underBinder
  repeat' first
    | with_reducible assumption | exact notMem_of hk (by decide +kernel)
    | (intro x
       first
         | (refine same_of (a := a) (k := k) x ?_ fun _ => ?_
            unfold x
            try lift_lets -underBinder
            rotate_left
            clear_value x)
         | clear_value x
         | skip)
    | lift_lets -underBinder | with_reducible apply when'_same | with_reducible apply State.endSession_same
    | with_reducible apply State.serve_same | with_reducible apply done_same | with_reducible apply sameAns_ok
    | with_reducible apply sameAns_error | (split <;> try lift_lets -underBinder)

theorem execSessionOpenStage1_same {k : Part} {a s : State} {x1 x2} (hk : k ∉ [.net, .free]) (h : State.Same k a s) :
    ∃ t, execSessionOpenStage1 x1 x2 s = .next t ∧ State.Same k a t := by
  refine ⟨_, rfl, ?_⟩
  try lift_lets -underBinder
  repeat' first
    | with_reducible assumption | exact notMem_of hk (by decide +kernel)
    | (intro x
       first
         | (refine same_of (a := a) (k := k) x ?_ fun _ => ?_
            unfold x
            try lift_lets -underBinder
            rotate_left
            clear_value x)
         | clear_value x
         | skip)
    | lift_lets -underBinder | with_reducible apply State.clearOut_same | with_reducible apply State.shakeRefuse_same
    | with_reducible apply State.beginShake_same | (split <;> try lift_lets -underBinder)

theorem execSessionOpenStage3_same {k : Part} {a s : State} {x1 x2 x3 x4} (hk : k ∉ [.net]) (h : State.Same k a s) :
    ∃ t, execSessionOpenStage3 x1 x2 x3 x4 s = .next t ∧ State.Same k a t := by
  refine ⟨_, rfl, ?_⟩
  try lift_lets -underBinder
  repeat' first
    | with_reducible assumption | exact notMem_of hk (by decide +kernel)
    | (intro x
       first
         | (refine same_of (a := a) (k := k) x ?_ fun _ => ?_
            unfold x
            try lift_lets -underBinder
            rotate_left
            clear_value x)
         | clear_value x
         | skip)
    | lift_lets -underBinder | with_reducible apply State.clearOut_same | with_reducible apply State.openSession_same
    | with_reducible apply State.shakeRefuse_same | (split <;> try lift_lets -underBinder)
    | with_reducible apply same_net

theorem execDatagramDiscard_same {k : Part} {a s : State} {x1} (hk : k ∉ [.reg 0x1310]) (h : State.Same k a s) :
    ∃ t, execDatagramDiscard x1 s = .next t ∧ State.Same k a t := by
  refine ⟨_, rfl, ?_⟩
  try lift_lets -underBinder
  repeat' first
    | with_reducible assumption | exact notMem_of hk (by decide +kernel)
    | (intro x
       first
         | (refine same_of (a := a) (k := k) x ?_ fun _ => ?_
            unfold x
            try lift_lets -underBinder
            rotate_left
            clear_value x)
         | clear_value x
         | skip)
    | lift_lets -underBinder | with_reducible apply State.inc_same | (split <;> try lift_lets -underBinder)

theorem execTransferTimeout_same {k : Part} {a s : State} {x1 x2} (hk : k ∉ [.reg 0x1310, .net, .free]) (h :
    State.Same k a s) :
    ∃ t, execTransferTimeout x1 x2 s = .next t ∧ State.Same k a t := by
  refine ⟨_, rfl, ?_⟩
  try lift_lets -underBinder
  repeat' first
    | with_reducible assumption | exact notMem_of hk (by decide +kernel)
    | (intro x
       first
         | (refine same_of (a := a) (k := k) x ?_ fun _ => ?_
            unfold x
            try lift_lets -underBinder
            rotate_left
            clear_value x)
         | clear_value x
         | skip)
    | lift_lets -underBinder | with_reducible apply State.draw_same | with_reducible apply State.send_same
    | with_reducible apply State.inc_same | with_reducible apply State.setSession_same
    | with_reducible apply State.clearOut_same | (split <;> try lift_lets -underBinder)

theorem execHandshakeTimeout_same {k : Part} {a s : State} {x1} (hk : k ∉ [.net]) (h : State.Same k a s) :
    ∃ t, execHandshakeTimeout x1 s = .next t ∧ State.Same k a t := by
  refine ⟨_, rfl, ?_⟩
  try lift_lets -underBinder
  repeat' first
    | with_reducible assumption | exact notMem_of hk (by decide +kernel)
    | (intro x
       first
         | (refine same_of (a := a) (k := k) x ?_ fun _ => ?_
            unfold x
            try lift_lets -underBinder
            rotate_left
            clear_value x)
         | clear_value x
         | skip)
    | lift_lets -underBinder | (split <;> try lift_lets -underBinder) | with_reducible apply same_net

theorem execSessionIdleTimeout_same {k : Part} {a s : State} {x1} (hk : k ∉ [.reg 0x7035, .reg 0x7040, .lockbox,
    .net, .sec]) (h : State.Same k a s) :
    ∃ t, execSessionIdleTimeout x1 s = .next t ∧ State.Same k a t := by
  refine ⟨_, rfl, ?_⟩
  try lift_lets -underBinder
  repeat' first
    | with_reducible assumption | exact notMem_of hk (by decide +kernel)
    | (intro x
       first
         | (refine same_of (a := a) (k := k) x ?_ fun _ => ?_
            unfold x
            try lift_lets -underBinder
            rotate_left
            clear_value x)
         | clear_value x
         | skip)
    | lift_lets -underBinder | with_reducible apply State.endSession_same | (split <;> try lift_lets -underBinder)

theorem execKeptReplyExpiry_same {k : Part} {a s : State} {x1 x2} (hk : k ∉ [.net]) (h : State.Same k a s) :
    ∃ t, execKeptReplyExpiry x1 x2 s = .next t ∧ State.Same k a t := by
  refine ⟨_, rfl, ?_⟩
  try lift_lets -underBinder
  repeat' first
    | with_reducible assumption | exact notMem_of hk (by decide +kernel)
    | (intro x
       first
         | (refine same_of (a := a) (k := k) x ?_ fun _ => ?_
            unfold x
            try lift_lets -underBinder
            rotate_left
            clear_value x)
         | clear_value x
         | skip)
    | lift_lets -underBinder | with_reducible apply State.setSession_same | (split <;> try lift_lets -underBinder)

theorem execStore_same {k : Part} {a s : State} {x1 x2} (hk : k ∉ [.reg 0x1010, .reg 0x1200, .reg 0x1210, .reg
    0x1310, .reg 0x3101, .units, .dies, .net]) (h : State.Same k a s) :
    ∃ t, execStore x1 x2 s = .next t ∧ State.Same k a t := by
  refine ⟨_, rfl, ?_⟩
  try lift_lets -underBinder
  repeat' first
    | with_reducible assumption | exact notMem_of hk (by decide +kernel)
    | (intro x
       first
         | (refine same_of (a := a) (k := k) x ?_ fun _ => ?_
            unfold x
            try lift_lets -underBinder
            rotate_left
            clear_value x)
         | clear_value x
         | skip)
    | lift_lets -underBinder | with_reducible apply State.writeObj_same | with_reducible apply storeSet_same
    | (split <;> try lift_lets -underBinder)

theorem execStoreComplete_same {k : Part} {a s : State} {x1} (hk : k ∉ [.reg 0x1010, .flash, .flashBlobs, .net]) (h
    : State.Same k a s) :
    ∃ t, execStoreComplete x1 s = .next t ∧ State.Same k a t := by
  refine ⟨_, rfl, ?_⟩
  try lift_lets -underBinder
  repeat' first
    | with_reducible assumption | exact notMem_of hk (by decide +kernel)
    | (intro x
       first
         | (refine same_of (a := a) (k := k) x ?_ fun _ => ?_
            unfold x
            try lift_lets -underBinder
            rotate_left
            clear_value x)
         | clear_value x
         | skip)
    | lift_lets -underBinder | with_reducible apply State.wr_same | with_reducible apply when'_same
    | with_reducible apply State.keepSnapshot_same | with_reducible apply State.clearOut_same
    | with_reducible apply State.answer_same | (split <;> try lift_lets -underBinder) | with_reducible apply same_net

theorem execRestoreDefaults_same {k : Part} {a s : State} {x1 x2} (hr : k.isObj = false) (hk : k ∉ [.clock, .flash,
    .chans, .units, .slots, .engines, .dies, .descs, .adcs, .groups, .bldc, .axes, .power, .sup, .lockbox, .qm,
    .net, .can, .sec, .trail, .standbyDue, .lastMet, .metView, .metViewAt, .tag, .resetReq, .lane, .flight, .free])
    (h : State.Same k a s) :
    ∃ t, execRestoreDefaults x1 x2 s = .next t ∧ State.Same k a t := by
  refine ⟨_, rfl, ?_⟩
  try lift_lets -underBinder
  repeat' first
    | with_reducible assumption | with_reducible exact hr | exact notMem_any hr hk (by decide +kernel)
    | (intro x
       first
         | (refine same_of (a := a) (k := k) x ?_ fun _ => ?_
            unfold x
            try lift_lets -underBinder
            rotate_left
            clear_value x)
         | clear_value x
         | skip)
    | lift_lets -underBinder | with_reducible apply State.writeObj_same | with_reducible apply restoreSet_same
    | (split <;> try lift_lets -underBinder)

theorem execHostKeySlot_same {k : Part} {a s : State} {x1 x2 x3} (hk : k ∉ [.reg 0x1200, .reg 0x1210, .reg 0x1310,
    .reg 0x3101, .blob 0x1303, .flashBlobs, .units, .dies, .net]) (h : State.Same k a s) :
    ∃ t, execHostKeySlot x1 x2 x3 s = .next t ∧ State.Same k a t := by
  refine ⟨_, rfl, ?_⟩
  try lift_lets -underBinder
  repeat' first
    | with_reducible assumption | exact notMem_of hk (by decide +kernel)
    | (intro x
       first
         | (refine same_of (a := a) (k := k) x ?_ fun _ => ?_
            unfold x
            try lift_lets -underBinder
            rotate_left
            clear_value x)
         | clear_value x
         | skip)
    | lift_lets -underBinder | with_reducible apply State.writeBlob_same | with_reducible apply hostKeySet_same
    | (split <;> try lift_lets -underBinder)

theorem execCanMode_same {k : Part} {a s : State} {x1 x2 x3 x4} (hk : k ∉ [.reg 0x1200, .reg 0x1210, .reg 0x1310,
    .reg 0x1400, .reg 0x1413, .reg 0x1414, .reg 0x1415, .reg 0x1418, .reg 0x141B, .reg 0x3101, .units, .dies, .net,
    .can]) (h : State.Same k a s) :
    ∃ t, execCanMode x1 x2 x3 x4 s = .next t ∧ State.Same k a t := by
  refine ⟨_, rfl, ?_⟩
  try lift_lets -underBinder
  repeat' first
    | with_reducible assumption | exact notMem_of hk (by decide +kernel)
    | (intro x
       first
         | (refine same_of (a := a) (k := k) x ?_ fun _ => ?_
            unfold x
            try lift_lets -underBinder
            rotate_left
            clear_value x)
         | clear_value x
         | skip)
    | lift_lets -underBinder | with_reducible apply State.writeObj_same | with_reducible apply canModeSet_same
    | (split <;> try lift_lets -underBinder)

theorem execTransmitSubmit_same {k : Part} {a s : State} {x1 x2 x3} (hk : k ∉ [.reg 0x1200, .reg 0x1210, .reg
    0x1310, .reg 0x3101, .units, .dies, .net, .can]) (h : State.Same k a s) :
    ∃ t, execTransmitSubmit x1 x2 x3 s = .next t ∧ State.Same k a t := by
  refine ⟨_, rfl, ?_⟩
  try lift_lets -underBinder
  repeat' first
    | with_reducible assumption | exact notMem_of hk (by decide +kernel)
    | (intro x
       first
         | (refine same_of (a := a) (k := k) x ?_ fun _ => ?_
            unfold x
            try lift_lets -underBinder
            rotate_left
            clear_value x)
         | clear_value x
         | skip)
    | lift_lets -underBinder | with_reducible apply State.writeBlob_same | with_reducible apply submitSet_same
    | (split <;> try lift_lets -underBinder)

theorem execCancel_same {k : Part} {a s : State} {x1 x2 x3 x4} (hk : k ∉ [.reg 0x1200, .reg 0x1210, .reg 0x1310,
    .reg 0x1418, .reg 0x141B, .reg 0x3101, .units, .dies, .net, .can]) (h : State.Same k a s) :
    ∃ t, execCancel x1 x2 x3 x4 s = .next t ∧ State.Same k a t := by
  refine ⟨_, rfl, ?_⟩
  try lift_lets -underBinder
  repeat' first
    | with_reducible assumption | exact notMem_of hk (by decide +kernel)
    | (intro x
       first
         | (refine same_of (a := a) (k := k) x ?_ fun _ => ?_
            unfold x
            try lift_lets -underBinder
            rotate_left
            clear_value x)
         | clear_value x
         | skip)
    | lift_lets -underBinder | with_reducible apply State.writeObj_same | with_reducible apply cancelSet_same
    | (split <;> try lift_lets -underBinder)

theorem execCancelAll_same {k : Part} {a s : State} {x1 x2 x3} (hk : k ∉ [.reg 0x1200, .reg 0x1210, .reg 0x1310,
    .reg 0x1418, .reg 0x141B, .reg 0x3101, .units, .dies, .net, .can]) (h : State.Same k a s) :
    ∃ t, execCancelAll x1 x2 x3 s = .next t ∧ State.Same k a t := by
  refine ⟨_, rfl, ?_⟩
  try lift_lets -underBinder
  repeat' first
    | with_reducible assumption | exact notMem_of hk (by decide +kernel)
    | (intro x
       first
         | (refine same_of (a := a) (k := k) x ?_ fun _ => ?_
            unfold x
            try lift_lets -underBinder
            rotate_left
            clear_value x)
         | clear_value x
         | skip)
    | lift_lets -underBinder | with_reducible apply State.writeObj_same | with_reducible apply cancelSet_same
    | (split <;> try lift_lets -underBinder)

theorem execDeadlineExpiry_same {k : Part} {a s : State} {x1 x2 x3} (hk : k ∉ [.reg 0x1418, .reg 0x141B, .can]) (h :
    State.Same k a s) :
    ∃ t, execDeadlineExpiry x1 x2 x3 s = .next t ∧ State.Same k a t := by
  refine ⟨_, rfl, ?_⟩
  try lift_lets -underBinder
  repeat' first
    | with_reducible assumption | exact notMem_of hk (by decide +kernel)
    | (intro x
       first
         | (refine same_of (a := a) (k := k) x ?_ fun _ => ?_
            unfold x
            try lift_lets -underBinder
            rotate_left
            clear_value x)
         | clear_value x
         | skip)
    | lift_lets -underBinder | with_reducible apply State.cancelTx_same | (split <;> try lift_lets -underBinder)

theorem execArbitrationLost_same {k : Part} {a s : State} {x1} (hk : k ∉ [.reg 0x1418, .reg 0x141B, .reg 0x141E,
    .can]) (h : State.Same k a s) :
    ∃ t, execArbitrationLost x1 s = .next t ∧ State.Same k a t := by
  refine ⟨_, rfl, ?_⟩
  try lift_lets -underBinder
  repeat' first
    | with_reducible assumption | exact notMem_of hk (by decide +kernel)
    | (intro x
       first
         | (refine same_of (a := a) (k := k) x ?_ fun _ => ?_
            unfold x
            try lift_lets -underBinder
            rotate_left
            clear_value x)
         | clear_value x
         | skip)
    | lift_lets -underBinder | with_reducible apply State.headFails_same | with_reducible apply State.inc_same
    | (split <;> try lift_lets -underBinder)

theorem execFrameReceived_same {k : Part} {a s : State} {x1 x2 x3} (hk : k ∉ [.reg 0x1413, .reg 0x1414, .reg 0x1415,
    .reg 0x1416, .reg 0x1417, .reg 0x1418, .reg 0x141B, .can, .free]) (h : State.Same k a s) :
    ∃ t, execFrameReceived x1 x2 x3 s = .next t ∧ State.Same k a t := by
  refine ⟨_, rfl, ?_⟩
  try lift_lets -underBinder
  repeat' first
    | with_reducible assumption | exact notMem_of hk (by decide +kernel)
    | (intro x
       first
         | (refine same_of (a := a) (k := k) x ?_ fun _ => ?_
            unfold x
            try lift_lets -underBinder
            rotate_left
            clear_value x)
         | clear_value x
         | skip)
    | lift_lets -underBinder | with_reducible apply State.draw_same | with_reducible apply State.frameEnd_same
    | with_reducible apply State.setCounters_same | with_reducible apply State.ringPut_same
    | (split <;> try lift_lets -underBinder)

theorem execFrameSent_same {k : Part} {a s : State} {x1 x2} (hk : k ∉ [.reg 0x1413, .reg 0x1414, .reg 0x1415, .reg
    0x1416, .reg 0x1417, .reg 0x1418, .reg 0x141B, .can]) (h : State.Same k a s) :
    ∃ t, execFrameSent x1 x2 s = .next t ∧ State.Same k a t := by
  refine ⟨_, rfl, ?_⟩
  try lift_lets -underBinder
  repeat' first
    | with_reducible assumption | exact notMem_of hk (by decide +kernel)
    | (intro x
       first
         | (refine same_of (a := a) (k := k) x ?_ fun _ => ?_
            unfold x
            try lift_lets -underBinder
            rotate_left
            clear_value x)
         | clear_value x
         | skip)
    | lift_lets -underBinder | with_reducible apply State.setPort_same | with_reducible apply State.ringPut_same
    | with_reducible apply State.frameEnd_same | with_reducible apply State.setCounters_same
    | (split <;> try lift_lets -underBinder)

theorem execBusError_same {k : Part} {a s : State} {x1 x2 x3 x4} (hk : k ∉ [.reg 0x1413, .reg 0x1414, .reg 0x1415,
    .reg 0x1416, .reg 0x1417, .reg 0x1418, .reg 0x141B, .can]) (h : State.Same k a s) :
    ∃ t, execBusError x1 x2 x3 x4 s = .next t ∧ State.Same k a t := by
  refine ⟨_, rfl, ?_⟩
  try lift_lets -underBinder
  repeat' first
    | with_reducible assumption | exact notMem_of hk (by decide +kernel)
    | (intro x
       first
         | (refine same_of (a := a) (k := k) x ?_ fun _ => ?_
            unfold x
            try lift_lets -underBinder
            rotate_left
            clear_value x)
         | clear_value x
         | skip)
    | lift_lets -underBinder | with_reducible apply State.setCounters_same | with_reducible apply State.frameEnd_same
    | with_reducible apply State.headFails_same | (split <;> try lift_lets -underBinder)

theorem execBusOffRecovery_same {k : Part} {a s : State} {x1 x2} (hk : k ∉ [.reg 0x1413, .reg 0x1414, .reg 0x1415,
    .reg 0x1417, .reg 0x1418, .reg 0x141B, .can]) (h : State.Same k a s) :
    ∃ t, execBusOffRecovery x1 x2 s = .next t ∧ State.Same k a t := by
  refine ⟨_, rfl, ?_⟩
  try lift_lets -underBinder
  repeat' first
    | with_reducible assumption | exact notMem_of hk (by decide +kernel)
    | (intro x
       first
         | (refine same_of (a := a) (k := k) x ?_ fun _ => ?_
            unfold x
            try lift_lets -underBinder
            rotate_left
            clear_value x)
         | clear_value x
         | skip)
    | lift_lets -underBinder | with_reducible apply State.wr_same | with_reducible apply State.errorEvent_same
    | (split <;> try lift_lets -underBinder)

theorem execRestart_same {k : Part} {a s : State} {x1 x2 x3} (hk : k ∉ [.reg 0x1200, .reg 0x1210, .reg 0x1310, .reg
    0x1413, .reg 0x1417, .reg 0x3101, .units, .dies, .net]) (h : State.Same k a s) :
    ∃ t, execRestart x1 x2 x3 s = .next t ∧ State.Same k a t := by
  refine ⟨_, rfl, ?_⟩
  try lift_lets -underBinder
  repeat' first
    | with_reducible assumption | exact notMem_of hk (by decide +kernel)
    | (intro x
       first
         | (refine same_of (a := a) (k := k) x ?_ fun _ => ?_
            unfold x
            try lift_lets -underBinder
            rotate_left
            clear_value x)
         | clear_value x
         | skip)
    | lift_lets -underBinder | with_reducible apply State.writeObj_same | with_reducible apply restartSet_same
    | (split <;> try lift_lets -underBinder)

theorem execRingConsumer_same {k : Part} {a s : State} {x1 x2 x3} (hk : k ∉ [.reg 0x1200, .reg 0x1210, .reg 0x1310,
    .reg 0x1419, .reg 0x3101, .units, .dies, .net]) (h : State.Same k a s) :
    ∃ t, execRingConsumer x1 x2 x3 s = .next t ∧ State.Same k a t := by
  refine ⟨_, rfl, ?_⟩
  try lift_lets -underBinder
  repeat' first
    | with_reducible assumption | exact notMem_of hk (by decide +kernel)
    | (intro x
       first
         | (refine same_of (a := a) (k := k) x ?_ fun _ => ?_
            unfold x
            try lift_lets -underBinder
            rotate_left
            clear_value x)
         | clear_value x
         | skip)
    | lift_lets -underBinder | with_reducible apply State.writeObj_same | with_reducible apply consumerSet_same
    | (split <;> try lift_lets -underBinder)

theorem execCustomerRootWrite_same {k : Part} {a s : State} {x1 x2 x3} (hk : k ∉ [.reg 0x1200, .reg 0x1210, .reg
    0x1310, .reg 0x3101, .blob 0x7020, .units, .dies, .net]) (h : State.Same k a s) :
    ∃ t, execCustomerRootWrite x1 x2 x3 s = .next t ∧ State.Same k a t := by
  refine ⟨_, rfl, ?_⟩
  try lift_lets -underBinder
  repeat' first
    | with_reducible assumption | exact notMem_of hk (by decide +kernel)
    | (intro x
       first
         | (refine same_of (a := a) (k := k) x ?_ fun _ => ?_
            unfold x
            try lift_lets -underBinder
            rotate_left
            clear_value x)
         | clear_value x
         | skip)
    | lift_lets -underBinder | with_reducible apply State.writeBlob_same | with_reducible apply rootWriteSet_same
    | (split <;> try lift_lets -underBinder)

theorem execCustomerRootRevoke_same {k : Part} {a s : State} {x1 x2 x3} (hk : k ∉ [.reg 0x1200, .reg 0x1210, .reg
    0x1310, .reg 0x3101, .reg 0x7021, .units, .dies, .net]) (h : State.Same k a s) :
    ∃ t, execCustomerRootRevoke x1 x2 x3 s = .next t ∧ State.Same k a t := by
  refine ⟨_, rfl, ?_⟩
  try lift_lets -underBinder
  repeat' first
    | with_reducible assumption | exact notMem_of hk (by decide +kernel)
    | (intro x
       first
         | (refine same_of (a := a) (k := k) x ?_ fun _ => ?_
            unfold x
            try lift_lets -underBinder
            rotate_left
            clear_value x)
         | clear_value x
         | skip)
    | lift_lets -underBinder | with_reducible apply State.writeObj_same | with_reducible apply revokeSet_same
    | (split <;> try lift_lets -underBinder)

theorem execRollbackCommit_same {k : Part} {a s : State} {x1 x2 x3} (hk : k ∉ [.reg 0x1200, .reg 0x1210, .reg
    0x1310, .reg 0x3101, .reg 0x7030, .reg 0x7035, .units, .dies, .net, .sec]) (h : State.Same k a s) :
    ∃ t, execRollbackCommit x1 x2 x3 s = .next t ∧ State.Same k a t := by
  refine ⟨_, rfl, ?_⟩
  try lift_lets -underBinder
  repeat' first
    | with_reducible assumption | exact notMem_of hk (by decide +kernel)
    | (intro x
       first
         | (refine same_of (a := a) (k := k) x ?_ fun _ => ?_
            unfold x
            try lift_lets -underBinder
            rotate_left
            clear_value x)
         | clear_value x
         | skip)
    | lift_lets -underBinder | with_reducible apply State.writeObj_same | with_reducible apply rollbackSet_same
    | (split <;> try lift_lets -underBinder)

theorem execPreferredSlot_same {k : Part} {a s : State} {x1 x2 x3} (hk : k ∉ [.reg 0x1200, .reg 0x1210, .reg 0x1310,
    .reg 0x3101, .reg 0x7034, .units, .dies, .net, .sec]) (h : State.Same k a s) :
    ∃ t, execPreferredSlot x1 x2 x3 s = .next t ∧ State.Same k a t := by
  refine ⟨_, rfl, ?_⟩
  try lift_lets -underBinder
  repeat' first
    | with_reducible assumption | exact notMem_of hk (by decide +kernel)
    | (intro x
       first
         | (refine same_of (a := a) (k := k) x ?_ fun _ => ?_
            unfold x
            try lift_lets -underBinder
            rotate_left
            clear_value x)
         | clear_value x
         | skip)
    | lift_lets -underBinder | with_reducible apply State.writeObj_same | with_reducible apply preferSet_same
    | (split <;> try lift_lets -underBinder)

theorem execLoadBegin_same {k : Part} {a s : State} {x1 x2 x3} (hk : k ∉ [.reg 0x1310, .reg 0x7035, .reg 0x7040,
    .net, .sec]) (h : State.Same k a s) :
    ∃ t, execLoadBegin x1 x2 x3 s = .next t ∧ State.Same k a t := by
  refine ⟨_, rfl, ?_⟩
  try lift_lets -underBinder
  repeat' first
    | with_reducible assumption | exact notMem_of hk (by decide +kernel)
    | (intro x
       first
         | (refine same_of (a := a) (k := k) x ?_ fun _ => ?_
            unfold x
            try lift_lets -underBinder
            rotate_left
            clear_value x)
         | clear_value x
         | skip)
    | lift_lets -underBinder | with_reducible apply State.loadBegin_same | (split <;> try lift_lets -underBinder)

theorem execLoadPiece_same {k : Part} {a s : State} {x1 x2 x3} (hk : k ∉ [.reg 0x1200, .reg 0x1210, .reg 0x1310,
    .reg 0x3101, .units, .dies, .net, .sec]) (h : State.Same k a s) :
    ∃ t, execLoadPiece x1 x2 x3 s = .next t ∧ State.Same k a t := by
  refine ⟨_, rfl, ?_⟩
  try lift_lets -underBinder
  repeat' first
    | with_reducible assumption | exact notMem_of hk (by decide +kernel)
    | (intro x
       first
         | (refine same_of (a := a) (k := k) x ?_ fun _ => ?_
            unfold x
            try lift_lets -underBinder
            rotate_left
            clear_value x)
         | clear_value x
         | skip)
    | lift_lets -underBinder | with_reducible apply State.writeBlob_same | with_reducible apply pieceSet_same
    | (split <;> try lift_lets -underBinder)

theorem execLoadEnd_same {k : Part} {a s : State} {x1 x2 x3} (hk : k ∉ [.reg 0x1200, .reg 0x1210, .reg 0x1310, .reg
    0x3101, .reg 0x6000, .reg 0x7034, .reg 0x7035, .reg 0x7040, .units, .dies, .net, .sec, .trail]) (h : State.Same
    k a s) :
    ∃ t, execLoadEnd x1 x2 x3 s = .next t ∧ State.Same k a t := by
  refine ⟨_, rfl, ?_⟩
  try lift_lets -underBinder
  repeat' first
    | with_reducible assumption | exact notMem_of hk (by decide +kernel)
    | (intro x
       first
         | (refine same_of (a := a) (k := k) x ?_ fun _ => ?_
            unfold x
            try lift_lets -underBinder
            rotate_left
            clear_value x)
         | clear_value x
         | skip)
    | lift_lets -underBinder | with_reducible apply State.writeObj_same | with_reducible apply loadEndSet_same
    | (split <;> try lift_lets -underBinder)

theorem execLoadAbandon_same {k : Part} {a s : State} (hk : k ∉ [.reg 0x7035, .reg 0x7040, .sec]) (h : State.Same k
    a s) :
    ∃ t, execLoadAbandon s = .next t ∧ State.Same k a t := by
  refine ⟨_, rfl, ?_⟩
  try lift_lets -underBinder
  repeat' first
    | with_reducible assumption | exact notMem_of hk (by decide +kernel)
    | (intro x
       first
         | (refine same_of (a := a) (k := k) x ?_ fun _ => ?_
            unfold x
            try lift_lets -underBinder
            rotate_left
            clear_value x)
         | clear_value x
         | skip)
    | lift_lets -underBinder | with_reducible apply State.abandonLoad_same | (split <;> try lift_lets -underBinder)

theorem execPartitionStart_same {k : Part} {a s : State} {x1} (hk : k ∉ [.reg 0x1200, .reg 0x1210, .reg 0x1310, .reg
    0x3101, .reg 0x7032, .reg 0x7050, .blob 0x7033, .units, .dies, .net, .sec]) (h : State.Same k a s) :
    ∃ t, execPartitionStart x1 s = .next t ∧ State.Same k a t := by
  refine ⟨_, rfl, ?_⟩
  try lift_lets -underBinder
  repeat' first
    | with_reducible assumption | exact notMem_of hk (by decide +kernel)
    | (intro x
       first
         | (refine same_of (a := a) (k := k) x ?_ fun _ => ?_
            unfold x
            try lift_lets -underBinder
            rotate_left
            clear_value x)
         | clear_value x
         | skip)
    | lift_lets -underBinder | with_reducible apply State.writeObj_same | with_reducible apply partitionSet_same
    | (split <;> try lift_lets -underBinder)

theorem execPartitionStop_same {k : Part} {a s : State} {x1} (hk : k ∉ [.reg 0x1200, .reg 0x1210, .reg 0x1310, .reg
    0x3101, .reg 0x7032, .reg 0x7050, .blob 0x7033, .units, .dies, .net, .sec]) (h : State.Same k a s) :
    ∃ t, execPartitionStop x1 s = .next t ∧ State.Same k a t := by
  refine ⟨_, rfl, ?_⟩
  try lift_lets -underBinder
  repeat' first
    | with_reducible assumption | exact notMem_of hk (by decide +kernel)
    | (intro x
       first
         | (refine same_of (a := a) (k := k) x ?_ fun _ => ?_
            unfold x
            try lift_lets -underBinder
            rotate_left
            clear_value x)
         | clear_value x
         | skip)
    | lift_lets -underBinder | with_reducible apply State.writeObj_same | with_reducible apply partitionSet_same
    | (split <;> try lift_lets -underBinder)

theorem execPartitionFault_same {k : Part} {a s : State} {x1} (hk : k ∉ [.reg 0x6000, .reg 0x7032, .reg 0x7050,
    .blob 0x7033, .dies, .net, .sec, .trail]) (h : State.Same k a s) :
    ∃ t, execPartitionFault x1 s = .next t ∧ State.Same k a t := by
  refine ⟨_, rfl, ?_⟩
  try lift_lets -underBinder
  repeat' first
    | with_reducible assumption | exact notMem_of hk (by decide +kernel)
    | (intro x
       first
         | (refine same_of (a := a) (k := k) x ?_ fun _ => ?_
            unfold x
            try lift_lets -underBinder
            rotate_left
            clear_value x)
         | clear_value x
         | skip)
    | lift_lets -underBinder | with_reducible apply State.note_same | with_reducible apply State.wr_same
    | with_reducible apply partHalt_same | (split <;> try lift_lets -underBinder)

theorem execApiCall_same {k : Part} {a s : State} {x1 x2} (hr : k.isObj = false) (hk : k ∉ [.vsys, .fw, .clock,
    .flash, .flashBlobs, .chans, .units, .slots, .engines, .dies, .descs, .adcs, .wins, .queues, .groups, .bldc,
    .axes, .power, .sup, .lockbox, .qm, .net, .can, .sec, .trail, .standbyDue, .sleepLt, .metNote, .lastMet,
    .metSilent, .metView, .metViewAt, .tag, .sleepHash, .waking, .resetLt, .resetReq, .lane, .flight, .hot, .free])
    (h : State.Same k a s) :
    ∃ t, execApiCall x1 x2 s = .next t ∧ State.Same k a t := by
  refine ⟨_, rfl, ?_⟩
  try lift_lets -underBinder
  repeat' first
    | with_reducible assumption | with_reducible exact hr | exact notMem_any hr hk (by decide +kernel)
    | (intro x
       first
         | (refine same_of (a := a) (k := k) x ?_ fun _ => ?_
            unfold x
            try lift_lets -underBinder
            rotate_left
            clear_value x)
         | clear_value x
         | skip)
    | lift_lets -underBinder | with_reducible apply State.readReq_same | with_reducible apply State.writeReq_same
    | (split <;> try lift_lets -underBinder)

theorem execDebugToken_same {k : Part} {a s : State} {x1 x2 x3 x4} (hk : k ∉ [.reg 0x1200, .reg 0x1210, .reg 0x1310,
    .reg 0x3101, .reg 0x7060, .units, .dies, .net, .sec, .free]) (h : State.Same k a s) :
    ∃ t, execDebugToken x1 x2 x3 x4 s = .next t ∧ State.Same k a t := by
  refine ⟨_, rfl, ?_⟩
  try lift_lets -underBinder
  repeat' first
    | with_reducible assumption | exact notMem_of hk (by decide +kernel)
    | (intro x
       first
         | (refine same_of (a := a) (k := k) x ?_ fun _ => ?_
            unfold x
            try lift_lets -underBinder
            rotate_left
            clear_value x)
         | clear_value x
         | skip)
    | lift_lets -underBinder | with_reducible apply State.writeBlob_same | with_reducible apply debugSet_same
    | (split <;> try lift_lets -underBinder)

theorem execDebugLock_same {k : Part} {a s : State} {x1 x2} (hk : k ∉ [.reg 0x1200, .reg 0x1210, .reg 0x1310, .reg
    0x3101, .reg 0x7060, .units, .dies, .lockbox, .net, .sec]) (h : State.Same k a s) :
    ∃ t, execDebugLock x1 x2 s = .next t ∧ State.Same k a t := by
  refine ⟨_, rfl, ?_⟩
  try lift_lets -underBinder
  repeat' first
    | with_reducible assumption | exact notMem_of hk (by decide +kernel)
    | (intro x
       first
         | (refine same_of (a := a) (k := k) x ?_ fun _ => ?_
            unfold x
            try lift_lets -underBinder
            rotate_left
            clear_value x)
         | clear_value x
         | skip)
    | lift_lets -underBinder | with_reducible apply State.writeObj_same | with_reducible apply debugLockSet_same
    | (split <;> try lift_lets -underBinder)

theorem execIdcode_same {k : Part} {a s : State} (hk : k ∉ [.sec]) (h : State.Same k a s) :
    ∃ t, execIdcode s = .next t ∧ State.Same k a t := by
  refine ⟨_, rfl, ?_⟩
  split
  · exact State.setSec_same (notMem_of hk (by decide +kernel)) h
  · exact h

theorem execBypass_same {k : Part} {a s : State} (hk : k ∉ [.sec]) (h : State.Same k a s) :
    ∃ t, execBypass s = .next t ∧ State.Same k a t := by
  refine ⟨_, rfl, ?_⟩
  split
  · exact State.setSec_same (notMem_of hk (by decide +kernel)) h
  · exact h

theorem execSamplePreload_same {k : Part} {a s : State} {x1} (hk : k ∉ [.sec]) (h : State.Same k a s) :
    ∃ t, execSamplePreload x1 s = .next t ∧ State.Same k a t := by
  refine ⟨_, rfl, ?_⟩
  split
  · exact State.setSec_same (notMem_of hk (by decide +kernel)) h
  · exact h

theorem execExtest_same {k : Part} {a s : State} (hk : k ∉ [.sec]) (h : State.Same k a s) :
    ∃ t, execExtest s = .next t ∧ State.Same k a t := by
  refine ⟨_, rfl, ?_⟩
  split
  · exact State.setSec_same (notMem_of hk (by decide +kernel)) h
  · exact h

theorem execAttestationNonce_same {k : Part} {a s : State} {x1 x2} (hk : k ∉ [.reg 0x1200, .reg 0x1210, .reg 0x1310,
    .reg 0x3101, .units, .dies, .net, .sec]) (h : State.Same k a s) :
    ∃ t, execAttestationNonce x1 x2 s = .next t ∧ State.Same k a t := by
  refine ⟨_, rfl, ?_⟩
  try lift_lets -underBinder
  repeat' first
    | with_reducible assumption | exact notMem_of hk (by decide +kernel)
    | (intro x
       first
         | (refine same_of (a := a) (k := k) x ?_ fun _ => ?_
            unfold x
            try lift_lets -underBinder
            rotate_left
            clear_value x)
         | clear_value x
         | skip)
    | lift_lets -underBinder | with_reducible apply State.writeBlob_same
    | with_reducible apply State.setAttNonce_same | (split <;> try lift_lets -underBinder)

theorem execAttestationReport_same {k : Part} {a s : State} {x1 x2} (hk : k ∉ [.reg 0x1310, .net, .sec, .free]) (h :
    State.Same k a s) :
    ∃ t, execAttestationReport x1 x2 s = .next t ∧ State.Same k a t := by
  refine ⟨_, rfl, ?_⟩
  try lift_lets -underBinder
  repeat' first
    | with_reducible assumption | exact notMem_of hk (by decide +kernel)
    | (intro x
       first
         | (refine same_of (a := a) (k := k) x ?_ fun _ => ?_
            unfold x
            try lift_lets -underBinder
            rotate_left
            clear_value x)
         | clear_value x
         | skip)
    | lift_lets -underBinder | with_reducible apply State.segInit_same | with_reducible apply State.serve_same
    | with_reducible apply State.readReport_same | with_reducible apply sameAns_ok
    | with_reducible apply sameAns_error | (split <;> try lift_lets -underBinder)

theorem execReadCursor_same {k : Part} {a s : State} {x1 x2} (hk : k ∉ [.reg 0x1200, .reg 0x1210, .reg 0x1310, .reg
    0x3101, .reg 0x6000, .units, .dies, .net]) (h : State.Same k a s) :
    ∃ t, execReadCursor x1 x2 s = .next t ∧ State.Same k a t := by
  refine ⟨_, rfl, ?_⟩
  try lift_lets -underBinder
  repeat' first
    | with_reducible assumption | exact notMem_of hk (by decide +kernel)
    | (intro x
       first
         | (refine same_of (a := a) (k := k) x ?_ fun _ => ?_
            unfold x
            try lift_lets -underBinder
            rotate_left
            clear_value x)
         | clear_value x
         | skip)
    | lift_lets -underBinder | with_reducible apply State.writeObj_same | with_reducible apply cursorSet_same
    | (split <;> try lift_lets -underBinder)

theorem execFreezeSeverity_same {k : Part} {a s : State} {x1 x2} (hk : k ∉ [.reg 0x1200, .reg 0x1210, .reg 0x1310,
    .reg 0x3101, .reg 0x6000, .units, .dies, .net, .trail]) (h : State.Same k a s) :
    ∃ t, execFreezeSeverity x1 x2 s = .next t ∧ State.Same k a t := by
  refine ⟨_, rfl, ?_⟩
  try lift_lets -underBinder
  repeat' first
    | with_reducible assumption | exact notMem_of hk (by decide +kernel)
    | (intro x
       first
         | (refine same_of (a := a) (k := k) x ?_ fun _ => ?_
            unfold x
            try lift_lets -underBinder
            rotate_left
            clear_value x)
         | clear_value x
         | skip)
    | lift_lets -underBinder | with_reducible apply State.writeObj_same | with_reducible apply severitySet_same
    | (split <;> try lift_lets -underBinder)

theorem execUnfreeze_same {k : Part} {a s : State} {x1 x2} (hk : k ∉ [.reg 0x1200, .reg 0x1210, .reg 0x1310, .reg
    0x3101, .reg 0x6000, .units, .dies, .net, .trail]) (h : State.Same k a s) :
    ∃ t, execUnfreeze x1 x2 s = .next t ∧ State.Same k a t := by
  refine ⟨_, rfl, ?_⟩
  try lift_lets -underBinder
  repeat' first
    | with_reducible assumption | exact notMem_of hk (by decide +kernel)
    | (intro x
       first
         | (refine same_of (a := a) (k := k) x ?_ fun _ => ?_
            unfold x
            try lift_lets -underBinder
            rotate_left
            clear_value x)
         | clear_value x
         | skip)
    | lift_lets -underBinder | with_reducible apply State.writeObj_same | with_reducible apply unfreezeSet_same
    | (split <;> try lift_lets -underBinder)

theorem execWriteZeroToClear_same {k : Part} {a s : State} {x1 x2 x3 x4 x5} (hr : k.isObj = false) (hk : k ∉
    [.clock, .flash, .chans, .units, .slots, .engines, .dies, .descs, .adcs, .groups, .bldc, .axes, .power, .sup,
    .lockbox, .qm, .net, .can, .sec, .trail, .standbyDue, .lastMet, .metView, .metViewAt, .tag, .resetReq, .lane,
    .flight, .free]) (h : State.Same k a s) :
    ∃ t, execWriteZeroToClear x1 x2 x3 x4 x5 s = .next t ∧ State.Same k a t := by
  refine ⟨_, rfl, ?_⟩
  try lift_lets -underBinder
  repeat' first
    | with_reducible assumption | with_reducible exact hr | exact notMem_any hr hk (by decide +kernel)
    | (intro x
       first
         | (refine same_of (a := a) (k := k) x ?_ fun _ => ?_
            unfold x
            try lift_lets -underBinder
            rotate_left
            clear_value x)
         | clear_value x
         | skip)
    | lift_lets -underBinder | with_reducible apply State.writeObj_same | with_reducible apply numSet_same
    | (split <;> try lift_lets -underBinder)

theorem execChannelLatchClear_same {k : Part} {a s : State} {x1 x2 x3 x4} (hk : k ∉ [.reg 0x1200, .reg 0x1210, .reg
    0x1310, .reg 0x2803, .reg 0x2810, .reg 0x3101, .reg 0x3104, .reg 0x6000, .reg 0x6010, .units, .dies, .net,
    .trail, .free]) (h : State.Same k a s) :
    ∃ t, execChannelLatchClear x1 x2 x3 x4 s = .next t ∧ State.Same k a t := by
  refine ⟨_, rfl, ?_⟩
  try lift_lets -underBinder
  repeat' first
    | with_reducible assumption | exact notMem_of hk (by decide +kernel)
    | (intro x
       first
         | (refine same_of (a := a) (k := k) x ?_ fun _ => ?_
            unfold x
            try lift_lets -underBinder
            rotate_left
            clear_value x)
         | clear_value x
         | skip)
    | lift_lets -underBinder | with_reducible apply State.writeObj_same | with_reducible apply clearSet_same
    | (split <;> try lift_lets -underBinder)

theorem execDieClear_same {k : Part} {a s : State} {x1 x2 x3} (hk : k ∉ [.reg 0x1200, .reg 0x1210, .reg 0x1310, .reg
    0x2801, .reg 0x2803, .reg 0x2810, .reg 0x3101, .reg 0x3104, .reg 0x6000, .reg 0x6010, .reg 0x6012, .units,
    .dies, .net, .trail, .free]) (h : State.Same k a s) :
    ∃ t, execDieClear x1 x2 x3 s = .next t ∧ State.Same k a t := by
  refine ⟨_, rfl, ?_⟩
  try lift_lets -underBinder
  repeat' first
    | with_reducible assumption | exact notMem_of hk (by decide +kernel)
    | (intro x
       first
         | (refine same_of (a := a) (k := k) x ?_ fun _ => ?_
            unfold x
            try lift_lets -underBinder
            rotate_left
            clear_value x)
         | clear_value x
         | skip)
    | lift_lets -underBinder | with_reducible apply State.writeObj_same | with_reducible apply dieClearSet_same
    | (split <;> try lift_lets -underBinder)

theorem execFltGroupClear_same {k : Part} {a s : State} {x1 x2} (hk : k ∉ [.reg 0x1200, .reg 0x1210, .reg 0x1310,
    .reg 0x3101, .reg 0x6000, .reg 0x6014, .units, .dies, .net, .trail, .free]) (h : State.Same k a s) :
    ∃ t, execFltGroupClear x1 x2 s = .next t ∧ State.Same k a t := by
  refine ⟨_, rfl, ?_⟩
  try lift_lets -underBinder
  repeat' first
    | with_reducible assumption | exact notMem_of hk (by decide +kernel)
    | (intro x
       first
         | (refine same_of (a := a) (k := k) x ?_ fun _ => ?_
            unfold x
            try lift_lets -underBinder
            rotate_left
            clear_value x)
         | clear_value x
         | skip)
    | lift_lets -underBinder | with_reducible apply State.writeObj_same | with_reducible apply fltClearSet_same
    | (split <;> try lift_lets -underBinder)

theorem execBldcClear_same {k : Part} {a s : State} {x1 x2 x3} (hk : k ∉ [.reg 0x1200, .reg 0x1210, .reg 0x1310,
    .reg 0x3101, .reg 0x3400, .reg 0x341A, .reg 0x3420, .reg 0x6000, .units, .dies, .bldc, .net, .trail, .free]) (h
    : State.Same k a s) :
    ∃ t, execBldcClear x1 x2 x3 s = .next t ∧ State.Same k a t := by
  refine ⟨_, rfl, ?_⟩
  try lift_lets -underBinder
  repeat' first
    | with_reducible assumption | exact notMem_of hk (by decide +kernel)
    | (intro x
       first
         | (refine same_of (a := a) (k := k) x ?_ fun _ => ?_
            unfold x
            try lift_lets -underBinder
            rotate_left
            clear_value x)
         | clear_value x
         | skip)
    | lift_lets -underBinder | with_reducible apply State.writeObj_same | with_reducible apply bldcClearSet_same
    | (split <;> try lift_lets -underBinder)

theorem execAxisClear_same {k : Part} {a s : State} {x1 x2 x3} (hk : k ∉ [.reg 0x1200, .reg 0x1210, .reg 0x1310,
    .reg 0x3101, .reg 0x3441, .reg 0x344F, .reg 0x3450, .reg 0x3457, .reg 0x6000, .units, .dies, .axes, .net,
    .trail, .free]) (h : State.Same k a s) :
    ∃ t, execAxisClear x1 x2 x3 s = .next t ∧ State.Same k a t := by
  refine ⟨_, rfl, ?_⟩
  try lift_lets -underBinder
  repeat' first
    | with_reducible assumption | exact notMem_of hk (by decide +kernel)
    | (intro x
       first
         | (refine same_of (a := a) (k := k) x ?_ fun _ => ?_
            unfold x
            try lift_lets -underBinder
            rotate_left
            clear_value x)
         | clear_value x
         | skip)
    | lift_lets -underBinder | with_reducible apply State.writeObj_same | with_reducible apply axisClearSet_same
    | (split <;> try lift_lets -underBinder)

theorem execSupervisorStart_same {k : Part} {a s : State} {x1} (hk : k ∉ [.reg 0x1202, .reg 0x4000, .reg 0x4021,
    .sup]) (h : State.Same k a s) :
    ∃ t, execSupervisorStart x1 s = .next t ∧ State.Same k a t := by
  refine ⟨_, rfl, ?_⟩
  try lift_lets -underBinder
  repeat' first
    | with_reducible assumption | exact notMem_of hk (by decide +kernel)
    | (intro x
       first
         | (refine same_of (a := a) (k := k) x ?_ fun _ => ?_
            unfold x
            try lift_lets -underBinder
            rotate_left
            clear_value x)
         | clear_value x
         | skip)
    | lift_lets -underBinder | with_reducible apply State.wr_same | with_reducible apply State.setSup_same
    | with_reducible apply each_same | (split <;> try lift_lets -underBinder)

theorem execHubAdcConversion_same {k : Part} {a s : State} {x1 x2} (hk : k ∉ [.reg 0x3038, .reg 0x3060, .slots,
    .adcs, .wins, .queues, .power]) (h : State.Same k a s) :
    ∃ t, execHubAdcConversion x1 x2 s = .next t ∧ State.Same k a t := by
  refine ⟨_, rfl, ?_⟩
  try lift_lets -underBinder
  repeat' first
    | with_reducible assumption | exact notMem_of hk (by decide +kernel)
    | (intro x
       first
         | (refine same_of (a := a) (k := k) x ?_ fun _ => ?_
            unfold x
            try lift_lets -underBinder
            rotate_left
            clear_value x)
         | clear_value x
         | skip)
    | lift_lets -underBinder | with_reducible apply State.setAdc_same | with_reducible apply State.addSums_same
    | with_reducible apply State.enqueue_same | with_reducible apply State.setWin_same
    | with_reducible apply State.watchLink_same | with_reducible apply State.watchGrid_same
    | with_reducible apply State.watchCurrents_same | (split <;> try lift_lets -underBinder)

theorem execDcovTestEnd_same {k : Part} {a s : State} {x1} (hk : k ∉ [.reg 0x3050, .reg 0x4000, .reg 0x6000, .dies,
    .power, .trail]) (h : State.Same k a s) :
    ∃ t, execDcovTestEnd x1 s = .next t ∧ State.Same k a t := by
  refine ⟨_, rfl, ?_⟩
  try lift_lets -underBinder
  repeat' first
    | with_reducible assumption | exact notMem_of hk (by decide +kernel)
    | (intro x
       first
         | (refine same_of (a := a) (k := k) x ?_ fun _ => ?_
            unfold x
            try lift_lets -underBinder
            rotate_left
            clear_value x)
         | clear_value x
         | skip)
    | lift_lets -underBinder | with_reducible apply State.pathFailed_same | with_reducible apply State.setPower_same
    | with_reducible apply State.testsDone_same | (split <;> try lift_lets -underBinder)

theorem execBestMasterClock_same {k : Part} {a s : State} {x1} (hk : k ∉ [.reg 0x1111, .blob 0x1111, .clock]) (h :
    State.Same k a s) :
    ∃ t, execBestMasterClock x1 s = .next t ∧ State.Same k a t := by
  refine ⟨_, rfl, ?_⟩
  try lift_lets -underBinder
  repeat' first
    | with_reducible assumption | exact notMem_of hk (by decide +kernel)
    | (intro x
       first
         | (refine same_of (a := a) (k := k) x ?_ fun _ => ?_
            unfold x
            try lift_lets -underBinder
            rotate_left
            clear_value x)
         | clear_value x
         | skip)
    | lift_lets -underBinder | with_reducible apply State.wr_same | with_reducible apply State.wrB_same
    | with_reducible apply State.setClock_same | (split <;> try lift_lets -underBinder)

theorem execSwitchForward_same {k : Part} {a s : State} {x1 x2} (hk : k ∉ [.reg 0x1301, .net]) (h : State.Same k a
    s) :
    ∃ t, execSwitchForward x1 x2 s = .next t ∧ State.Same k a t := by
  refine ⟨_, rfl, ?_⟩
  try lift_lets -underBinder
  repeat' first
    | with_reducible assumption | exact notMem_of hk (by decide +kernel)
    | (intro x
       first
         | (refine same_of (a := a) (k := k) x ?_ fun _ => ?_
            unfold x
            try lift_lets -underBinder
            rotate_left
            clear_value x)
         | clear_value x
         | skip)
    | lift_lets -underBinder | with_reducible apply State.inc_same | (split <;> try lift_lets -underBinder)
    | with_reducible apply same_net

theorem execArpNdpIcmpEcho_same {k : Part} {a s : State} {x1 x2 x3 x4} (hk : k ∉ [.net]) (h : State.Same k a s) :
    ∃ t, execArpNdpIcmpEcho x1 x2 x3 x4 s = .next t ∧ State.Same k a t := by
  refine ⟨_, rfl, ?_⟩
  try lift_lets -underBinder
  repeat' first
    | with_reducible assumption | exact notMem_of hk (by decide +kernel)
    | (intro x
       first
         | (refine same_of (a := a) (k := k) x ?_ fun _ => ?_
            unfold x
            try lift_lets -underBinder
            rotate_left
            clear_value x)
         | clear_value x
         | skip)
    | lift_lets -underBinder | (split <;> try lift_lets -underBinder) | with_reducible apply same_net

theorem execUnknownOpcode_same {k : Part} {a s : State} {x1 x2 x3 x4} (hk : k ∉ [.reg 0x1310, .net]) (h : State.Same
    k a s) :
    ∃ t, execUnknownOpcode x1 x2 x3 x4 s = .next t ∧ State.Same k a t := by
  refine ⟨_, rfl, ?_⟩
  try lift_lets -underBinder
  repeat' first
    | with_reducible assumption | exact notMem_of hk (by decide +kernel)
    | (intro x
       first
         | (refine same_of (a := a) (k := k) x ?_ fun _ => ?_
            unfold x
            try lift_lets -underBinder
            rotate_left
            clear_value x)
         | clear_value x
         | skip)
    | lift_lets -underBinder | with_reducible apply State.serve_same | with_reducible apply sameAns_ok
    | with_reducible apply sameAns_error | (split <;> try lift_lets -underBinder)

theorem execUnknownCommand_same {k : Part} {a s : State} {x1 x2 x3} (hk : k ∉ [.qm]) (h : State.Same k a s) :
    ∃ t, execUnknownCommand x1 x2 x3 s = .next t ∧ State.Same k a t := by
  refine ⟨_, rfl, ?_⟩
  try lift_lets -underBinder
  repeat' first
    | with_reducible assumption | exact notMem_of hk (by decide +kernel)
    | (intro x
       first
         | (refine same_of (a := a) (k := k) x ?_ fun _ => ?_
            unfold x
            try lift_lets -underBinder
            rotate_left
            clear_value x)
         | clear_value x
         | skip)
    | lift_lets -underBinder | with_reducible apply State.onPort_same | with_reducible apply State.portReply_same
    | (split <;> try lift_lets -underBinder)

end Sys2Proof.Machine
end

