-- ==== Sys2Proof/Laws/KeptOps.lean ====
section
/-! SUPPORT. What the operations of the shared operations and requests keep (Kept): one lemma for each. -/

namespace Sys2Proof.Machine

set_option Elab.async false

set_option linter.unreachableTactic false
set_option linter.unusedTactic false

theorem State.wr_kept {a s : State} {x1 x2 x3 x4} (h : Kept a s) :
    Kept a (State.wr s x1 x2 x3 x4) := by
  unfold State.wr
  exact Kept.record h rfl rfl

theorem State.inc_kept {a s : State} {x1 x2 x3 x4} (h : Kept a s) :
    Kept a (State.inc s x1 x2 x3 x4) := by
  unfold State.inc
  exact Kept.record h rfl rfl

theorem State.wrB_kept {a s : State} {x1 x2 x3 x4} (h : Kept a s) :
    Kept a (State.wrB s x1 x2 x3 x4) := by
  unfold State.wrB
  exact Kept.record h rfl rfl

theorem State.setUnit_kept {a s : State} {x1 x2 x3} (h : Kept a s) :
    Kept a (State.setUnit s x1 x2 x3) := by
  unfold State.setUnit
  exact Kept.record h rfl rfl

theorem State.setSlot_kept {a s : State} {x1 x2 x3} (h : Kept a s) :
    Kept a (State.setSlot s x1 x2 x3) := by
  unfold State.setSlot
  exact Kept.record h rfl rfl

theorem State.setEng_kept {a s : State} {x1 x2 x3} (h : Kept a s) :
    Kept a (State.setEng s x1 x2 x3) := by
  unfold State.setEng
  exact Kept.record h rfl rfl

theorem State.setDie_kept {a s : State} {x1 x2} (h : Kept a s) :
    Kept a (State.setDie s x1 x2) := by
  unfold State.setDie
  exact Kept.record h rfl rfl

theorem State.setDesc_kept {a s : State} {x1 x2 x3} (h : Kept a s) :
    Kept a (State.setDesc s x1 x2 x3) := by
  unfold State.setDesc
  exact Kept.record h rfl rfl

theorem State.setAdc_kept {a s : State} {x1 x2 x3} (h : Kept a s) :
    Kept a (State.setAdc s x1 x2 x3) := by
  unfold State.setAdc
  exact Kept.record h rfl rfl

theorem State.setWin_kept {a s : State} {x1 x2} (h : Kept a s) :
    Kept a (State.setWin s x1 x2) := by
  unfold State.setWin
  exact Kept.record h rfl rfl

theorem State.setGroup_kept {a s : State} {x1 x2} (h : Kept a s) :
    Kept a (State.setGroup s x1 x2) := by
  unfold State.setGroup
  exact Kept.record h rfl rfl

theorem State.setDrive_kept {a s : State} {x1 x2} (h : Kept a s) :
    Kept a (State.setDrive s x1 x2) := by
  unfold State.setDrive
  exact Kept.record h rfl rfl

theorem State.setAxis_kept {a s : State} {x1 x2} (h : Kept a s) :
    Kept a (State.setAxis s x1 x2) := by
  unfold State.setAxis
  exact Kept.record h rfl rfl

theorem State.setPort_kept {a s : State} {x1 x2} (h : Kept a s) :
    Kept a (State.setPort s x1 x2) := by
  unfold State.setPort
  exact Kept.record h rfl rfl

theorem State.setQueue_kept {a s : State} {x1 x2} (h : Kept a s) :
    Kept a (State.setQueue s x1 x2) := by
  unfold State.setQueue
  exact Kept.record h rfl rfl

theorem State.draw_kept {a s : State} (h : Kept a s) :
    Kept a (State.draw s) := by
  unfold State.draw
  exact Kept.record h rfl rfl

theorem State.openCorr_kept {a s : State} {x1} (h : Kept a s) :
    Kept a (State.openCorr s x1) := by
  unfold State.openCorr
  exact Kept.record h rfl rfl

theorem State.countUnstored_kept {a s : State} (h : Kept a s) :
    Kept a (State.countUnstored s) := by
  unfold State.countUnstored
  exact Kept.record h rfl rfl

theorem State.armFreeze_kept {a s : State} {x1} (h : Kept a s) :
    Kept a (State.armFreeze s x1) := by
  unfold State.armFreeze
  try lift_lets -underBinder
  repeat' first
    | with_reducible assumption
    | (intro x
       first
         | (refine have_of (a := a) x ?_ fun _ => ?_
            unfold x
            try lift_lets -underBinder
            rotate_left
            clear_value x)
         | clear_value x
         | skip)
    | lift_lets -underBinder | (split <;> try lift_lets -underBinder) | with_reducible apply Kept.record
    | with_reducible rfl

theorem State.placeEntry_kept {a s : State} {x1} (h : Kept a s) :
    Kept a (State.placeEntry s x1) := by
  unfold State.placeEntry
  try lift_lets -underBinder
  repeat' first
    | with_reducible assumption
    | (intro x
       first
         | (refine have_of (a := a) x ?_ fun _ => ?_
            unfold x
            try lift_lets -underBinder
            rotate_left
            clear_value x)
         | clear_value x
         | skip)
    | lift_lets -underBinder | with_reducible apply State.inc_kept | (split <;> try lift_lets -underBinder)
    | with_reducible apply Kept.record | with_reducible rfl

theorem State.store_kept {a s : State} {x1} (h : Kept a s) :
    Kept a (State.store s x1) := by
  unfold State.store
  repeat' first
    | with_reducible assumption | with_reducible apply State.countUnstored_kept
    | with_reducible apply State.armFreeze_kept | with_reducible apply State.placeEntry_kept | split

theorem State.sendEntry_kept {a s : State} {x1 x2} (h : Kept a s) :
    Kept a (State.sendEntry s x1 x2) := by
  unfold State.sendEntry
  exact Kept.record h rfl rfl

theorem State.raise_kept {a s : State} {x1 x2 x3 x4 x5} (h : Kept a s) :
    Kept a (State.raise s x1 x2 x3 x4 x5) := by
  unfold State.raise
  try lift_lets -underBinder
  repeat' first
    | with_reducible assumption
    | (intro x
       first
         | (refine have_of (a := a) x ?_ fun _ => ?_
            unfold x
            try lift_lets -underBinder
            rotate_left
            clear_value x)
         | clear_value x
         | skip)
    | lift_lets -underBinder | with_reducible apply State.sendEntry_kept | with_reducible apply State.setDie_kept
    | with_reducible apply State.store_kept | (split <;> try lift_lets -underBinder)
    | with_reducible apply Kept.record | with_reducible rfl

theorem State.note_kept {a s : State} {x1 x2} (h : Kept a s) :
    Kept a (State.note s x1 x2) := by
  unfold State.note
  repeat' first
    | with_reducible assumption | with_reducible apply State.raise_kept | with_reducible apply State.openCorr_kept

theorem State.noteAt_kept {a s : State} {x1 x2 x3 x4} (h : Kept a s) :
    Kept a (State.noteAt s x1 x2 x3 x4) := by
  unfold State.noteAt
  repeat' first
    | with_reducible assumption | with_reducible apply State.raise_kept | with_reducible apply State.openCorr_kept

theorem State.supplyNote_kept {a s : State} {x1 x2} (h : Kept a s) :
    Kept a (State.supplyNote s x1 x2) := by
  unfold State.supplyNote
  repeat' first
    | with_reducible assumption | with_reducible apply State.note_kept | with_reducible apply State.inc_kept

theorem State.raiseFrame_kept {a s : State} {x1 x2 x3 x4 x5} (h : Kept a s) :
    Kept a (State.raiseFrame s x1 x2 x3 x4 x5) := by
  unfold State.raiseFrame
  exact Kept.record h rfl rfl

theorem State.raiseAll_kept {a s : State} {x1 x2 x3} (h : Kept a s) :
    Kept a (State.raiseAll s x1 x2 x3) := by
  unfold State.raiseAll
  try lift_lets -underBinder
  repeat' first
    | with_reducible assumption
    | (intro x
       first
         | (refine have_of (a := a) x ?_ fun _ => ?_
            unfold x
            try lift_lets -underBinder
            rotate_left
            clear_value x)
         | clear_value x
         | skip)
    | lift_lets -underBinder | with_reducible apply each_kept | with_reducible apply State.raiseFrame_kept
    | (split <;> try lift_lets -underBinder) | with_reducible apply Kept.record | with_reducible rfl

theorem State.frameIn_kept {a s : State} {x1 x2 x3} (h : Kept a s) :
    Kept a (State.frameIn s x1 x2 x3) := by
  unfold State.frameIn
  try lift_lets -underBinder
  repeat' first
    | with_reducible assumption
    | (intro x
       first
         | (refine have_of (a := a) x ?_ fun _ => ?_
            unfold x
            try lift_lets -underBinder
            rotate_left
            clear_value x)
         | clear_value x
         | skip)
    | lift_lets -underBinder | with_reducible apply State.setDie_kept | (split <;> try lift_lets -underBinder)
    | with_reducible apply Kept.record | with_reducible rfl

theorem State.onLink_kept {a s : State} {x1 x2 f} (h : Kept a s) : Kept a (s.onLink x1 x2 f) := State.setDie_kept h

theorem State.replayNote_kept {a s : State} {x1 x2 x3 x4 x5} (h : Kept a s) :
    Kept a (State.replayNote s x1 x2 x3 x4 x5) := by
  unfold State.replayNote
  repeat' first
    | with_reducible assumption | with_reducible apply State.raise_kept

theorem State.endReplay_kept {a s : State} {x1 x2 x3} (h : Kept a s) :
    Kept a (State.endReplay s x1 x2 x3) := by
  unfold State.endReplay
  try lift_lets -underBinder
  repeat' first
    | with_reducible assumption
    | (intro x
       first
         | (refine have_of (a := a) x ?_ fun _ => ?_
            unfold x
            try lift_lets -underBinder
            rotate_left
            clear_value x)
         | clear_value x
         | skip)
    | lift_lets -underBinder | with_reducible apply State.onLink_kept | with_reducible apply State.replayNote_kept
    | (split <;> try lift_lets -underBinder) | with_reducible apply Kept.record | with_reducible rfl

theorem State.endAgain_kept {a s : State} {x1 x2 x3} (h : Kept a s) :
    Kept a (State.endAgain s x1 x2 x3) := by
  unfold State.endAgain
  try lift_lets -underBinder
  repeat' first
    | with_reducible assumption
    | (intro x
       first
         | (refine have_of (a := a) x ?_ fun _ => ?_
            unfold x
            try lift_lets -underBinder
            rotate_left
            clear_value x)
         | clear_value x
         | skip)
    | lift_lets -underBinder | with_reducible apply State.onLink_kept | with_reducible apply State.replayNote_kept
    | (split <;> try lift_lets -underBinder) | with_reducible apply Kept.record | with_reducible rfl

theorem State.openReplay_kept {a s : State} {x1 x2 x3} (h : Kept a s) :
    Kept a (State.openReplay s x1 x2 x3) := by
  unfold State.openReplay
  repeat' first
    | with_reducible assumption | with_reducible apply State.openCorr_kept | split

theorem State.frameAgain_kept {a s : State} {x1 x2} (h : Kept a s) :
    Kept a (State.frameAgain s x1 x2) := by
  unfold State.frameAgain
  try lift_lets -underBinder
  repeat' first
    | with_reducible assumption
    | (intro x
       first
         | (refine have_of (a := a) x ?_ fun _ => ?_
            unfold x
            try lift_lets -underBinder
            rotate_left
            clear_value x)
         | clear_value x
         | skip)
    | lift_lets -underBinder | with_reducible apply State.onLink_kept | with_reducible apply State.openReplay_kept
    | (split <;> try lift_lets -underBinder) | with_reducible apply Kept.record | with_reducible rfl

theorem State.hubFrame_kept {a s : State} {x1 x2 x3 x4} {f : Nat → Nat → State → State} (h : Kept a s)
    (hf : ∀ m n y, Kept a y → Kept a (f m n y)) : Kept a (s.hubFrame x1 x2 x3 x4 f) := by
  unfold State.hubFrame
  repeat' split
  · exact State.frameAgain_kept h
  · exact hf _ _ _ (State.frameIn_kept (State.endAgain_kept h))
  · exact h
  · exact h

theorem State.sliceOff_kept {a s : State} {x1} (h : Kept a s) :
    Kept a (State.sliceOff s x1) := by
  unfold State.sliceOff
  try lift_lets -underBinder
  repeat' first
    | with_reducible assumption
    | (intro x
       first
         | (refine have_of (a := a) x ?_ fun _ => ?_
            unfold x
            try lift_lets -underBinder
            rotate_left
            clear_value x)
         | skip)
    | lift_lets -underBinder | with_reducible apply State.setChan_kept | exact Kept.chan ‹_› ‹_› _
    | exact slice_safe_cut _ | exact Slice.Safe.same (slice_safe_cut {}) rfl rfl rfl
    | (split <;> try lift_lets -underBinder) | with_reducible apply Kept.record | with_reducible rfl

theorem State.gatesOff_kept {a s : State} {x1} (h : Kept a s) :
    Kept a (State.gatesOff s x1) := by
  unfold State.gatesOff
  try lift_lets -underBinder
  repeat' first
    | with_reducible assumption
    | (intro x
       first
         | (refine have_of (a := a) x ?_ fun _ => ?_
            unfold x
            try lift_lets -underBinder
            rotate_left
            clear_value x)
         | clear_value x
         | skip)
    | lift_lets -underBinder | with_reducible apply State.sliceOff_kept | with_reducible apply State.setUnit_kept
    | (split <;> try lift_lets -underBinder) | with_reducible apply Kept.record | with_reducible rfl

theorem State.dropJobs_kept {a s : State} {x1 x2} (h : Kept a s) :
    Kept a (State.dropJobs s x1 x2) := by
  unfold State.dropJobs
  try lift_lets -underBinder
  repeat' first
    | with_reducible assumption
    | (intro x
       first
         | (refine have_of (a := a) x ?_ fun _ => ?_
            unfold x
            try lift_lets -underBinder
            rotate_left
            clear_value x)
         | clear_value x
         | skip)
    | lift_lets -underBinder | with_reducible apply each_kept | with_reducible apply State.setEng_kept
    | (split <;> try lift_lets -underBinder) | with_reducible apply Kept.record | with_reducible rfl

theorem State.setWord4_kept {a s : State} {x1 x2} (h : Kept a s) :
    Kept a (State.setWord4 s x1 x2) := by
  unfold State.setWord4
  exact Kept.record h rfl rfl

theorem State.discardSlot_kept {a s : State} {x1 x2} (h : Kept a s) :
    Kept a (State.discardSlot s x1 x2) := by
  unfold State.discardSlot
  exact Kept.record h rfl rfl

theorem State.pump_kept {a s : State} (h : Kept a s) :
    Kept a (State.pump s) := by
  unfold State.pump
  exact Kept.record h rfl rfl

theorem State.mail_kept {a s : State} {x1} (h : Kept a s) :
    Kept a (State.mail s x1) := by
  unfold State.mail
  try lift_lets -underBinder
  repeat' first
    | with_reducible assumption
    | (intro x
       first
         | (refine have_of (a := a) x ?_ fun _ => ?_
            unfold x
            try lift_lets -underBinder
            rotate_left
            clear_value x)
         | clear_value x
         | skip)
    | lift_lets -underBinder | with_reducible apply State.pump_kept | (split <;> try lift_lets -underBinder)
    | with_reducible apply Kept.record | with_reducible rfl

theorem State.closeStep_kept {a s : State} {x1 x2 x3 x4} (h : Kept a s) :
    Kept a (State.closeStep s x1 x2 x3 x4) := by
  unfold State.closeStep
  try lift_lets -underBinder
  repeat' first
    | with_reducible assumption
    | (intro x
       first
         | (refine have_of (a := a) x ?_ fun _ => ?_
            unfold x
            try lift_lets -underBinder
            rotate_left
            clear_value x)
         | skip)
    | lift_lets -underBinder | with_reducible apply State.wr_kept | with_reducible apply State.setChan_kept
    | with_reducible apply State.mail_kept | exact Kept.chan ‹_› ‹_› _ | exact slice_safe_cut _
    | exact Slice.Safe.same (slice_safe_cut {}) rfl rfl rfl | (split <;> try lift_lets -underBinder)
    | with_reducible apply Kept.record | with_reducible rfl

theorem State.endRun_kept {a s : State} {x1 x2} (h : Kept a s) :
    Kept a (State.endRun s x1 x2) := by
  unfold State.endRun
  try lift_lets -underBinder
  repeat' first
    | with_reducible assumption
    | (intro x
       first
         | (refine have_of (a := a) x ?_ fun _ => ?_
            unfold x
            try lift_lets -underBinder
            rotate_left
            clear_value x)
         | skip)
    | lift_lets -underBinder | with_reducible apply State.setChan_kept | with_reducible apply State.setWord4_kept
    | with_reducible apply State.wr_kept | exact Kept.chan ‹_› ‹_› _ | exact slice_safe_cut _
    | exact Slice.Safe.same (slice_safe_cut {}) rfl rfl rfl | (split <;> try lift_lets -underBinder)
    | with_reducible apply Kept.record | with_reducible rfl

theorem State.endByLatch_kept {a s : State} {x1} (h : Kept a s) :
    Kept a (State.endByLatch s x1) := by
  unfold State.endByLatch
  repeat' first
    | with_reducible assumption | with_reducible apply State.closeStep_kept | with_reducible apply State.wr_kept
    | with_reducible apply State.endRun_kept | split

theorem State.latchOne_kept {a s : State} {x1 x2 x3 x4} (h : Kept a s) :
    Kept a (State.latchOne s x1 x2 x3 x4) := by
  unfold State.latchOne
  try lift_lets -underBinder
  repeat' first
    | with_reducible assumption
    | (intro x
       first
         | (refine have_of (a := a) x ?_ fun _ => ?_
            unfold x
            try lift_lets -underBinder
            rotate_left
            clear_value x)
         | skip)
    | lift_lets -underBinder | with_reducible apply State.setChan_kept | with_reducible apply State.wr_kept
    | with_reducible apply State.gatesOff_kept | with_reducible apply State.inc_kept
    | with_reducible apply State.raise_kept | with_reducible apply State.endByLatch_kept
    | with_reducible apply State.dropJobs_kept | exact Kept.chan ‹_› ‹_› _ | exact slice_safe_cut _
    | exact Slice.Safe.same (slice_safe_cut {}) rfl rfl rfl | (split <;> try lift_lets -underBinder)
    | with_reducible apply Kept.record | with_reducible rfl

theorem State.latchChans_kept {a s : State} {x1 x2 x3 x4} (h : Kept a s) :
    Kept a (State.latchChans s x1 x2 x3 x4) := by
  unfold State.latchChans
  try lift_lets -underBinder
  repeat' first
    | with_reducible assumption
    | (intro x
       first
         | (refine have_of (a := a) x ?_ fun _ => ?_
            unfold x
            try lift_lets -underBinder
            rotate_left
            clear_value x)
         | clear_value x
         | skip)
    | lift_lets -underBinder | with_reducible apply each_kept | with_reducible apply State.latchOne_kept
    | with_reducible apply State.wr_kept | (split <;> try lift_lets -underBinder) | with_reducible apply Kept.record
    | with_reducible rfl

theorem State.latchNew_kept {a s : State} {x1 x2 x3} (h : Kept a s) :
    Kept a (State.latchNew s x1 x2 x3) := by
  unfold State.latchNew
  repeat' first
    | with_reducible assumption | with_reducible apply State.latchChans_kept
    | with_reducible apply State.openCorr_kept

theorem State.latchDab_kept {a s : State} {x1 x2 x3 x4 x5} (h : Kept a s) :
    Kept a (State.latchDab s x1 x2 x3 x4 x5) := by
  unfold State.latchDab
  try lift_lets -underBinder
  repeat' first
    | with_reducible assumption
    | (intro x
       first
         | (refine have_of (a := a) x ?_ fun _ => ?_
            unfold x
            try lift_lets -underBinder
            rotate_left
            clear_value x)
         | clear_value x
         | skip)
    | lift_lets -underBinder | with_reducible apply State.setDie_kept | with_reducible apply State.setUnit_kept
    | with_reducible apply State.wr_kept | with_reducible apply State.raise_kept
    | with_reducible apply State.raiseFrame_kept | with_reducible apply State.dropJobs_kept
    | (split <;> try lift_lets -underBinder) | with_reducible apply Kept.record | with_reducible rfl

theorem State.wakeDie_kept {a s : State} {x1 x2} (h : Kept a s) :
    Kept a (State.wakeDie s x1 x2) := by
  unfold State.wakeDie
  try lift_lets -underBinder
  repeat' first
    | with_reducible assumption
    | (intro x
       first
         | (refine have_of (a := a) x ?_ fun _ => ?_
            unfold x
            try lift_lets -underBinder
            rotate_left
            clear_value x)
         | clear_value x
         | skip)
    | lift_lets -underBinder | with_reducible apply State.setDie_kept | with_reducible apply State.wr_kept
    | with_reducible apply each_kept | with_reducible apply State.setUnit_kept
    | (split <;> try lift_lets -underBinder) | with_reducible apply Kept.record | with_reducible rfl

theorem State.touch_kept {a s : State} {x1} (h : Kept a s) :
    Kept a (State.touch s x1) := by
  unfold State.touch
  repeat' first
    | with_reducible assumption | with_reducible apply State.wakeDie_kept | split

theorem State.setSession_kept {a s : State} {x1} (h : Kept a s) : Kept a (s.setSession x1) :=
  ⟨h.1, h.2, h.3, fun k => by have := h.4 k; simpa [State.setSession, State.SessionsBounded] using this, h.5⟩

theorem State.sendRaw_kept {a s : State} {x1} (h : Kept a s) :
    Kept a (State.sendRaw s x1) := by
  unfold State.sendRaw
  exact Kept.record h rfl rfl

theorem State.send_kept {a s : State} {x1} (h : Kept a s) :
    Kept a (State.send s x1) := by
  unfold State.send
  exact Kept.record h rfl rfl

theorem State.clearOut_kept {a s : State} (h : Kept a s) :
    Kept a (State.clearOut s) := by
  unfold State.clearOut
  exact Kept.record h rfl rfl

theorem State.answer_kept {a s : State} {x1 x2 x3 x4 x5 x6} (h : Kept a s) :
    Kept a (State.answer s x1 x2 x3 x4 x5 x6) := by
  unfold State.answer
  try lift_lets -underBinder
  repeat' first
    | with_reducible assumption
    | (intro x
       first
         | (refine have_of (a := a) x ?_ fun _ => ?_
            unfold x
            try lift_lets -underBinder
            rotate_left
            clear_value x)
         | skip)
    | lift_lets -underBinder | with_reducible apply State.setSession_kept | with_reducible apply State.send_kept
    | (split <;> try lift_lets -underBinder) | with_reducible apply Kept.record | with_reducible rfl

theorem Ans.outcome_kept {a s : State} {x1 : Ans} (h : Kept a s) (hx : KeptAns a x1) : Kept a (x1.outcome s).1 := by
  unfold Ans.outcome
  split
  · exact hx.keep _ _ rfl
  · exact h

theorem State.executed_kept {a s : State} {x1} (h : Kept a s) :
    Kept a (State.executed s x1) := by
  unfold State.executed
  repeat' first
    | with_reducible assumption | with_reducible apply State.setSession_kept | split

theorem State.execute_kept {a s : State} {x1 x2 x3 x4} {f : State → Outcome'} (h : Kept a s)
    (hf : ∀ y, Kept a y → Kept a (f y).1) : Kept a (s.execute x1 x2 x3 x4 f) := by
  unfold State.execute
  have hk := hf s h
  split <;> rename_i e <;> rw [e] at hk
  · split
    · apply State.executed_kept
      exact Kept.record hk rfl rfl
    · exact State.answer_kept hk
  · exact State.answer_kept hk

theorem State.hear_kept {a s : State} {x1} (h : Kept a s) :
    Kept a (State.hear s x1) := by
  unfold State.hear
  repeat' first
    | with_reducible assumption | with_reducible apply State.setSession_kept | split

theorem State.unserved_kept {a s : State} {x1} (h : Kept a s) :
    Kept a (State.unserved s x1) := by
  unfold State.unserved
  repeat' first
    | with_reducible assumption | with_reducible apply State.inc_kept | with_reducible apply State.send_kept | split

theorem State.serveWith_kept {a s : State} {x1 x2 x3 x4} {f : State → Outcome'} (h : Kept a s)
    (hf : ∀ y, Kept a y → Kept a (f y).1) : Kept a (s.serveWith x1 x2 x3 x4 f) := by
  unfold State.serveWith
  extract_lets c
  have hc : Kept a c := State.clearOut_kept h
  clear_value c
  repeat' split
  · exact State.execute_kept (State.hear_kept hc) hf
  · exact State.unserved_kept (State.hear_kept hc)
  · exact hc

theorem State.serve_kept {a s : State} {x1 x2 x3 x4} {f : State → Ans} (h : Kept a s)
    (hf : ∀ y, Kept a y → KeptAns a (f y)) : Kept a (s.serve x1 x2 x3 x4 f) :=
  State.serveWith_kept h fun y hy => Ans.outcome_kept hy (hf y hy)

theorem State.writeObj_kept {a s : State} {x1 x2 x3 x4 x5 own} {eff : State → Nat → State} (h : Kept a s)
    (hf : ∀ y e, Kept a y → Kept a (eff y e)) : Kept a (s.writeObj x1 x2 x3 x4 x5 own eff) := by
  unfold State.writeObj
  refine State.serve_kept h fun y hy => ?_
  split
  · exact keptAns_error
  · exact done_kept (each_kept hy fun z e hz => hf _ e (State.touch_kept hz))

theorem State.writeBlob_kept {a s : State} {x1 x2 x3 x4 x5 own} {eff : State → Nat → State} (h : Kept a s)
    (hf : ∀ y e, Kept a y → Kept a (eff y e)) : Kept a (s.writeBlob x1 x2 x3 x4 x5 own eff) := by
  unfold State.writeBlob
  refine State.serve_kept h fun y hy => ?_
  split
  · exact keptAns_error
  · exact done_kept (each_kept hy fun z e hz => hf _ e (State.touch_kept hz))

end Sys2Proof.Machine
end

