-- ==== Sys2Proof/Laws/KeptStage.lean ====
section
/-! SUPPORT. What the operations of the power stage, pulses and admission keep (Kept): one lemma for each. -/

namespace Sys2Proof.Machine

set_option Elab.async false

set_option linter.unreachableTactic false
set_option linter.unusedTactic false

theorem State.actSource_kept {a s : State} {x1 x2 x3} (h : Kept a s) :
    Kept a (State.actSource s x1 x2 x3) := by
  unfold State.actSource
  try lift_lets -underBinder
  repeat' first
    | with_reducible assumption
    | (intro x
       first
         | (refine have_of (a := a) x ?_ fun _ => ?_
            unfold x
            try lift_lets -underBinder
            rotate_left
            clear_value x)
         | clear_value x
         | skip)
    | lift_lets -underBinder | with_reducible apply State.latchChans_kept | with_reducible apply each_kept
    | with_reducible apply State.latchDab_kept | (split <;> try lift_lets -underBinder)
    | with_reducible apply Kept.record | with_reducible rfl

theorem State.assertSource_kept {a s : State} {x1 x2 x3} (h : Kept a s) :
    Kept a (State.assertSource s x1 x2 x3) := by
  unfold State.assertSource
  repeat' first
    | with_reducible assumption | with_reducible apply State.actSource_kept | with_reducible apply State.wr_kept

theorem State.deassertSource_kept {a s : State} {x1 x2} (h : Kept a s) :
    Kept a (State.deassertSource s x1 x2) := by
  unfold State.deassertSource
  exact Kept.record h rfl rfl

theorem State.standingSources_kept {a s : State} {x1} (h : Kept a s) :
    Kept a (State.standingSources s x1) := by
  unfold State.standingSources
  try lift_lets -underBinder
  repeat' first
    | with_reducible assumption
    | (intro x
       first
         | (refine have_of (a := a) x ?_ fun _ => ?_
            unfold x
            try lift_lets -underBinder
            rotate_left
            clear_value x)
         | clear_value x
         | skip)
    | lift_lets -underBinder | with_reducible apply each_kept | with_reducible apply State.latchDab_kept
    | with_reducible apply State.latchChans_kept | with_reducible apply State.openCorr_kept
    | (split <;> try lift_lets -underBinder) | with_reducible apply Kept.record | with_reducible rfl

theorem State.slicesLow_kept {a s : State} {x1} (h : Kept a s) :
    Kept a (State.slicesLow s x1) := by
  unfold State.slicesLow
  try lift_lets -underBinder
  repeat' first
    | with_reducible assumption
    | (intro x
       first
         | (refine have_of (a := a) x ?_ fun _ => ?_
            unfold x
            try lift_lets -underBinder
            rotate_left
            clear_value x)
         | clear_value x
         | skip)
    | lift_lets -underBinder | with_reducible apply each_kept | with_reducible apply State.sliceOff_kept
    | (split <;> try lift_lets -underBinder) | with_reducible apply Kept.record | with_reducible rfl

theorem State.vdrvNote_kept {a s : State} {x1 x2} (h : Kept a s) :
    Kept a (State.vdrvNote s x1 x2) := by
  unfold State.vdrvNote
  repeat' first
    | with_reducible assumption | with_reducible apply State.supplyNote_kept | split

theorem State.takeLeg_kept {a s : State} {x1 x2 x3} (h : Kept a s) : Kept a (s.takeLeg x1 x2 x3) := by
  unfold State.takeLeg
  exact State.setChan_kept h fun g => Slice.take_safe (Kept.chan h g x1) _ _ _ _ _

theorem State.refuseWord_kept {a s : State} {x1 x2} (h : Kept a s) :
    Kept a (State.refuseWord s x1 x2) := by
  unfold State.refuseWord
  try lift_lets -underBinder
  repeat' first
    | with_reducible assumption
    | (intro x
       first
         | (refine have_of (a := a) x ?_ fun _ => ?_
            unfold x
            try lift_lets -underBinder
            rotate_left
            clear_value x)
         | skip)
    | lift_lets -underBinder | with_reducible apply State.sliceOff_kept | with_reducible apply State.setChan_kept
    | with_reducible apply State.wr_kept | with_reducible apply State.inc_kept
    | with_reducible apply State.raise_kept | with_reducible apply State.openCorr_kept
    | with_reducible apply State.latchChans_kept | exact Kept.chan ‹_› ‹_› _ | exact slice_safe_cut _
    | exact Slice.Safe.same (slice_safe_cut {}) rfl rfl rfl | (split <;> try lift_lets -underBinder)
    | with_reducible apply Kept.record | with_reducible rfl

theorem State.laneTake_kept {a s : State} {x1 x2} (h : Kept a s) :
    Kept a (State.laneTake s x1 x2) := by
  unfold State.laneTake
  try lift_lets -underBinder
  repeat' first
    | with_reducible assumption
    | (intro x
       first
         | (refine have_of (a := a) x ?_ fun _ => ?_
            unfold x
            try lift_lets -underBinder
            rotate_left
            clear_value x)
         | clear_value x
         | skip)
    | lift_lets -underBinder | with_reducible apply State.setAdc_kept | (split <;> try lift_lets -underBinder)
    | with_reducible apply Kept.record | with_reducible rfl

theorem State.receiveWord_kept {a s : State} {x1 x2} (h : Kept a s) :
    Kept a (State.receiveWord s x1 x2) := by
  unfold State.receiveWord
  try lift_lets -underBinder
  repeat' first
    | with_reducible assumption
    | (intro x
       first
         | (refine have_of (a := a) x ?_ fun _ => ?_
            unfold x
            try lift_lets -underBinder
            rotate_left
            clear_value x)
         | skip)
    | lift_lets -underBinder | with_reducible apply State.laneTake_kept | with_reducible apply State.refuseWord_kept
    | with_reducible apply State.setChan_kept | exact Kept.chan ‹_› ‹_› _ | exact slice_safe_cut _
    | exact Slice.Safe.same (slice_safe_cut {}) rfl rfl rfl | (split <;> try lift_lets -underBinder)
    | with_reducible apply Kept.record | with_reducible rfl

theorem State.segmentBusFault_kept {a s : State} {x1 x2 x3 x4 x5} (h : Kept a s) :
    Kept a (State.segmentBusFault s x1 x2 x3 x4 x5) := by
  unfold State.segmentBusFault
  try lift_lets -underBinder
  repeat' first
    | with_reducible assumption
    | (intro x
       first
         | (refine have_of (a := a) x ?_ fun _ => ?_
            unfold x
            try lift_lets -underBinder
            rotate_left
            clear_value x)
         | clear_value x
         | skip)
    | lift_lets -underBinder | with_reducible apply State.wr_kept | with_reducible apply State.setDie_kept
    | with_reducible apply State.inc_kept | with_reducible apply each_kept | with_reducible apply State.latchOne_kept
    | with_reducible apply State.latchDab_kept | with_reducible apply State.raise_kept
    | with_reducible apply State.raiseFrame_kept | (split <;> try lift_lets -underBinder)
    | with_reducible apply Kept.record | with_reducible rfl

theorem State.checkSegmentBus_kept {a s : State} {x1 x2} (h : Kept a s) :
    Kept a (State.checkSegmentBus s x1 x2) := by
  unfold State.checkSegmentBus
  try lift_lets -underBinder
  repeat' first
    | with_reducible assumption
    | (intro x
       first
         | (refine have_of (a := a) x ?_ fun _ => ?_
            unfold x
            try lift_lets -underBinder
            rotate_left
            clear_value x)
         | clear_value x
         | skip)
    | lift_lets -underBinder | with_reducible apply State.setDie_kept
    | with_reducible apply State.segmentBusFault_kept | (split <;> try lift_lets -underBinder)
    | with_reducible apply Kept.record | with_reducible rfl

theorem State.trip_kept {a s : State} {x1 x2} (h : Kept a s) :
    Kept a (State.trip s x1 x2) := by
  unfold State.trip
  try lift_lets -underBinder
  repeat' first
    | with_reducible assumption
    | (intro x
       first
         | (refine have_of (a := a) x ?_ fun _ => ?_
            unfold x
            try lift_lets -underBinder
            rotate_left
            clear_value x)
         | clear_value x
         | skip)
    | lift_lets -underBinder | with_reducible apply State.wr_kept | with_reducible apply State.inc_kept
    | with_reducible apply State.openCorr_kept | with_reducible apply State.latchChans_kept
    | with_reducible apply State.wakeDie_kept | with_reducible apply State.checkSegmentBus_kept
    | (split <;> try lift_lets -underBinder) | with_reducible apply Kept.record | with_reducible rfl

theorem State.sawShunt_kept {a s : State} {x1 x2} (h : Kept a s) :
    Kept a (State.sawShunt s x1 x2) := by
  unfold State.sawShunt
  try lift_lets -underBinder
  repeat' first
    | with_reducible assumption
    | (intro x
       first
         | (refine have_of (a := a) x ?_ fun _ => ?_
            unfold x
            try lift_lets -underBinder
            rotate_left
            clear_value x)
         | skip)
    | lift_lets -underBinder | with_reducible apply State.setChan_kept | exact Kept.chan ‹_› ‹_› _
    | exact slice_safe_cut _ | exact Slice.Safe.same (slice_safe_cut {}) rfl rfl rfl
    | (split <;> try lift_lets -underBinder) | with_reducible apply Kept.record | with_reducible rfl

theorem State.sawDie_kept {a s : State} {x1 x2 x3 x4} (h : Kept a s) :
    Kept a (State.sawDie s x1 x2 x3 x4) := by
  unfold State.sawDie
  repeat' first
    | with_reducible assumption | with_reducible apply State.wr_kept | split

theorem State.settlePins_kept {a s : State} (h : Kept a s) :
    Kept a (State.settlePins s) := by
  unfold State.settlePins
  exact Kept.record h rfl rfl

theorem State.emit_kept {a s : State} {x1 x2 x3 x4} (h : Kept a s) :
    Kept a (State.emit s x1 x2 x3 x4) := by
  unfold State.emit
  try lift_lets -underBinder
  repeat' first
    | with_reducible assumption
    | (intro x
       first
         | (refine have_of (a := a) x ?_ fun _ => ?_
            unfold x
            try lift_lets -underBinder
            rotate_left
            clear_value x)
         | clear_value x
         | skip)
    | lift_lets -underBinder | with_reducible apply State.setAdc_kept | (split <;> try lift_lets -underBinder)
    | with_reducible apply Kept.record | with_reducible rfl

theorem State.drivePins_kept {a s : State} {x1 x2 x3 x4} (h : Kept a s) :
    Kept a (State.drivePins s x1 x2 x3 x4) := by
  unfold State.drivePins
  repeat' first
    | with_reducible assumption | with_reducible apply State.emit_kept | with_reducible apply State.setUnit_kept
    | split

theorem State.askNow_kept {a s : State} {x1 x2} (h : Kept a s) :
    Kept a (State.askNow s x1 x2) := by
  unfold State.askNow
  exact Kept.record h rfl rfl

theorem State.holdPin_kept {a s : State} {x1 x2} (h : Kept a s) :
    Kept a (State.holdPin s x1 x2) := by
  unfold State.holdPin
  try lift_lets -underBinder
  repeat' first
    | with_reducible assumption
    | (intro x
       first
         | (refine have_of (a := a) x ?_ fun _ => ?_
            unfold x
            try lift_lets -underBinder
            rotate_left
            clear_value x)
         | clear_value x
         | skip)
    | lift_lets -underBinder | with_reducible apply State.setUnit_kept | (split <;> try lift_lets -underBinder)
    | with_reducible apply Kept.record | with_reducible rfl

theorem State.commitUnit_kept {a s : State} {x1 x2} (h : Kept a s) :
    Kept a (State.commitUnit s x1 x2) := by
  unfold State.commitUnit
  exact Kept.record h rfl rfl

theorem stageSet_kept {a s : State} {x1 x2 x3} (h : Kept a s) :
    Kept a (stageSet x1 x2 s x3) := by
  unfold stageSet
  exact Kept.record h rfl rfl

theorem commitSet_kept {a s : State} {x1} (h : Kept a s) :
    Kept a (commitSet s x1) := by
  unfold commitSet
  exact Kept.record h rfl rfl

theorem State.startUnit_kept {a s : State} {x1 x2} (h : Kept a s) :
    Kept a (State.startUnit s x1 x2) := by
  unfold State.startUnit
  try lift_lets -underBinder
  repeat' first
    | with_reducible assumption
    | (intro x
       first
         | (refine have_of (a := a) x ?_ fun _ => ?_
            unfold x
            try lift_lets -underBinder
            rotate_left
            clear_value x)
         | clear_value x
         | skip)
    | lift_lets -underBinder | with_reducible apply State.setUnit_kept | (split <;> try lift_lets -underBinder)
    | with_reducible apply Kept.record | with_reducible rfl

theorem State.stopUnit_kept {a s : State} {x1 x2} (h : Kept a s) :
    Kept a (State.stopUnit s x1 x2) := by
  unfold State.stopUnit
  try lift_lets -underBinder
  repeat' first
    | with_reducible assumption
    | (intro x
       first
         | (refine have_of (a := a) x ?_ fun _ => ?_
            unfold x
            try lift_lets -underBinder
            rotate_left
            clear_value x)
         | clear_value x
         | skip)
    | lift_lets -underBinder | with_reducible apply State.setUnit_kept | (split <;> try lift_lets -underBinder)
    | with_reducible apply Kept.record | with_reducible rfl

theorem State.endPeriod_kept {a s : State} {x1 x2} (h : Kept a s) :
    Kept a (State.endPeriod s x1 x2) := by
  unfold State.endPeriod
  try lift_lets -underBinder
  repeat' first
    | with_reducible assumption
    | (intro x
       first
         | (refine have_of (a := a) x ?_ fun _ => ?_
            unfold x
            try lift_lets -underBinder
            rotate_left
            clear_value x)
         | skip)
    | lift_lets -underBinder | with_reducible apply State.setUnit_kept | with_reducible apply State.wr_kept
    | with_reducible apply State.setChan_kept | exact Kept.chan ‹_› ‹_› _ | exact slice_safe_cut _
    | exact Slice.Safe.same (slice_safe_cut {}) rfl rfl rfl | (split <;> try lift_lets -underBinder)
    | with_reducible apply Kept.record | with_reducible rfl

theorem State.noteClip_kept {a s : State} {x1 x2 x3} (h : Kept a s) :
    Kept a (State.noteClip s x1 x2 x3) := by
  unfold State.noteClip
  repeat' first
    | with_reducible assumption | with_reducible apply State.inc_kept | with_reducible apply State.wr_kept | split

theorem State.beginPeriod_kept {a s : State} {x1 x2 x3 x4} (h : Kept a s) :
    Kept a (State.beginPeriod s x1 x2 x3 x4) := by
  unfold State.beginPeriod
  try lift_lets -underBinder
  repeat' first
    | with_reducible assumption
    | (intro x
       first
         | (refine have_of (a := a) x ?_ fun _ => ?_
            unfold x
            try lift_lets -underBinder
            rotate_left
            clear_value x)
         | clear_value x
         | skip)
    | lift_lets -underBinder | with_reducible apply State.noteClip_kept | with_reducible apply State.setUnit_kept
    | (split <;> try lift_lets -underBinder) | with_reducible apply Kept.record | with_reducible rfl

theorem State.bump_kept {a s : State} {x1 x2 x3} (h : Kept a s) :
    Kept a (State.bump s x1 x2 x3) := by
  unfold State.bump
  repeat' first
    | with_reducible assumption | with_reducible apply State.inc_kept | split

theorem State.place_kept {a s : State} {x1 x2 x3 x4 x5} (h : Kept a s) :
    Kept a (State.place s x1 x2 x3 x4 x5) := by
  unfold State.place
  repeat' first
    | with_reducible assumption | with_reducible apply State.drivePins_kept | with_reducible apply State.bump_kept
    | with_reducible apply State.setUnit_kept | split

theorem State.holdGap_kept {a s : State} {x1 x2} (h : Kept a s) :
    Kept a (State.holdGap s x1 x2) := by
  unfold State.holdGap
  repeat' first
    | with_reducible assumption | with_reducible apply State.bump_kept | with_reducible apply State.setUnit_kept

theorem State.decideRise_kept {a s : State} {x1 x2 x3} (h : Kept a s) :
    Kept a (State.decideRise s x1 x2 x3) := by
  unfold State.decideRise
  try lift_lets -underBinder
  repeat' first
    | with_reducible assumption
    | (intro x
       first
         | (refine have_of (a := a) x ?_ fun _ => ?_
            unfold x
            try lift_lets -underBinder
            rotate_left
            clear_value x)
         | clear_value x
         | skip)
    | lift_lets -underBinder | with_reducible apply State.setUnit_kept | with_reducible apply State.bump_kept
    | with_reducible apply State.place_kept | (split <;> try lift_lets -underBinder)
    | with_reducible apply Kept.record | with_reducible rfl

theorem State.decideFall_kept {a s : State} {x1 x2 x3} (h : Kept a s) :
    Kept a (State.decideFall s x1 x2 x3) := by
  unfold State.decideFall
  try lift_lets -underBinder
  repeat' first
    | with_reducible assumption
    | (intro x
       first
         | (refine have_of (a := a) x ?_ fun _ => ?_
            unfold x
            try lift_lets -underBinder
            rotate_left
            clear_value x)
         | clear_value x
         | skip)
    | lift_lets -underBinder | with_reducible apply State.holdGap_kept | with_reducible apply State.place_kept
    | (split <;> try lift_lets -underBinder) | with_reducible apply Kept.record | with_reducible rfl

theorem State.decideMid_kept {a s : State} {x1 x2 x3} (h : Kept a s) :
    Kept a (State.decideMid s x1 x2 x3) := by
  unfold State.decideMid
  try lift_lets -underBinder
  repeat' first
    | with_reducible assumption
    | (intro x
       first
         | (refine have_of (a := a) x ?_ fun _ => ?_
            unfold x
            try lift_lets -underBinder
            rotate_left
            clear_value x)
         | clear_value x
         | skip)
    | lift_lets -underBinder | with_reducible apply State.setUnit_kept | with_reducible apply State.bump_kept
    | with_reducible apply State.place_kept | with_reducible apply State.holdGap_kept
    | (split <;> try lift_lets -underBinder) | with_reducible apply Kept.record | with_reducible rfl

theorem State.decideBound_kept {a s : State} {x1 x2 x3} (h : Kept a s) : Kept a (s.decideBound x1 x2 x3) := by
  unfold State.decideBound
  extract_lets x m stay
  have hs : ∀ y, Kept a y → Kept a (stay y) := fun y hy => State.drivePins_kept hy
  clear_value stay
  repeat' split
  all_goals first
    | exact State.place_kept h
    | exact hs _ h
    | exact hs _ (State.setUnit_kept h)
    | exact hs _ (State.holdGap_kept h)
    | exact hs _ (State.bump_kept h)

theorem State.decideStop_kept {a s : State} {x1 x2 x3} (h : Kept a s) :
    Kept a (State.decideStop s x1 x2 x3) := by
  unfold State.decideStop
  repeat' first
    | with_reducible assumption | with_reducible apply State.emit_kept | with_reducible apply State.setUnit_kept
    | split

theorem State.decideStart_kept {a s : State} {x1 x2 x3} (h : Kept a s) :
    Kept a (State.decideStart s x1 x2 x3) := by
  unfold State.decideStart
  repeat' first
    | with_reducible assumption | with_reducible apply State.bump_kept | with_reducible apply State.drivePins_kept
    | with_reducible apply State.setUnit_kept | split

theorem State.decideEdge_kept {a s : State} {x1 x2 x3} (h : Kept a s) :
    Kept a (State.decideEdge s x1 x2 x3) := by
  unfold State.decideEdge
  repeat' first
    | with_reducible assumption | with_reducible apply State.setUnit_kept
    | with_reducible apply State.decideFall_kept | with_reducible apply State.decideStop_kept
    | with_reducible apply State.decideStart_kept | with_reducible apply State.decideBound_kept
    | with_reducible apply State.decideMid_kept | with_reducible apply State.decideRise_kept | split

theorem State.decideUpTo_kept {a s : State} {x1 x2 x3 x4} (h : Kept a s) : Kept a (s.decideUpTo x1 x2 x3 x4) := by
  induction x4 generalizing s with
  | zero => exact h
  | succ n ih =>
    unfold State.decideUpTo
    repeat' split
    · exact ih (State.decideEdge_kept h)
    · exact h
    · exact h

theorem State.haltAtBoundary_kept {a s : State} {x1 x2} (h : Kept a s) :
    Kept a (State.haltAtBoundary s x1 x2) := by
  unfold State.haltAtBoundary
  repeat' first
    | with_reducible assumption | with_reducible apply State.setUnit_kept | split

theorem State.runBoundary_kept {a s : State} {x1 x2} (h : Kept a s) : Kept a (s.runBoundary x1 x2) := by
  unfold State.runBoundary
  extract_lets x y z w
  have hz : Kept a z := State.endPeriod_kept (State.decideUpTo_kept h)
  clear_value z
  split
  · exact State.haltAtBoundary_kept hz
  · exact State.beginPeriod_kept (State.setUnit_kept hz)

theorem State.startBoundary_kept {a s : State} {x1 x2 x3} (h : Kept a s) :
    Kept a (State.startBoundary s x1 x2 x3) := by
  unfold State.startBoundary
  repeat' first
    | with_reducible assumption | with_reducible apply State.decideUpTo_kept
    | with_reducible apply State.setUnit_kept | with_reducible apply State.beginPeriod_kept
    | with_reducible apply State.standingSources_kept | split

theorem State.mapSlices_kept {a s : State} {x1} {f : Slice → Slice} (h : Kept a s) (hf : ∀ x : Slice, x.Safe → (f x).Safe) :
    Kept a (s.mapSlices x1 f) := by
  unfold State.mapSlices
  split
  · exact h
  · exact each_kept h fun y c hy => State.setChan_kept hy fun g => hf _ (Kept.chan hy g c)

theorem State.retimeLanes_kept {a s : State} {x1 x2} (h : Kept a s) :
    Kept a (State.retimeLanes s x1 x2) := by
  unfold State.retimeLanes
  try lift_lets -underBinder
  repeat' first
    | with_reducible assumption
    | (intro x
       first
         | (refine have_of (a := a) x ?_ fun _ => ?_
            unfold x
            try lift_lets -underBinder
            rotate_left
            clear_value x)
         | clear_value x
         | skip)
    | lift_lets -underBinder | with_reducible apply each_kept | with_reducible apply State.setAdc_kept
    | (split <;> try lift_lets -underBinder) | with_reducible apply Kept.record | with_reducible rfl

theorem State.lowAtResume_kept {a s : State} (h : Kept a s) :
    Kept a (State.lowAtResume s) := by
  unfold State.lowAtResume
  try lift_lets -underBinder
  repeat' first
    | with_reducible assumption
    | (intro x
       first
         | (refine have_of (a := a) x ?_ fun _ => ?_
            unfold x
            try lift_lets -underBinder
            rotate_left
            clear_value x)
         | clear_value x
         | skip)
    | lift_lets -underBinder | with_reducible apply each_kept | with_reducible apply State.setUnit_kept
    | (split <;> try lift_lets -underBinder) | with_reducible apply Kept.record | with_reducible rfl

theorem State.placeSlots_kept {a s : State} {x1 x2} (h : Kept a s) :
    Kept a (State.placeSlots s x1 x2) := by
  unfold State.placeSlots
  try lift_lets -underBinder
  repeat' first
    | with_reducible assumption
    | (intro x
       first
         | (refine have_of (a := a) x ?_ fun _ => ?_
            unfold x
            try lift_lets -underBinder
            rotate_left
            clear_value x)
         | clear_value x
         | skip)
    | lift_lets -underBinder | with_reducible apply each_kept | with_reducible apply State.setSlot_kept
    | (split <;> try lift_lets -underBinder) | with_reducible apply Kept.record | with_reducible rfl

theorem State.admitDie_kept {a s : State} {x1 x2} (h : Kept a s) :
    Kept a (State.admitDie s x1 x2) := by
  unfold State.admitDie
  repeat' first
    | with_reducible assumption | with_reducible apply State.placeSlots_kept | with_reducible apply State.wr_kept
    | with_reducible apply State.setDie_kept | split

theorem State.admitRestored_kept {a s : State} {x1} (h : Kept a s) :
    Kept a (State.admitRestored s x1) := by
  unfold State.admitRestored
  try lift_lets -underBinder
  repeat' first
    | with_reducible assumption
    | (intro x
       first
         | (refine have_of (a := a) x ?_ fun _ => ?_
            unfold x
            try lift_lets -underBinder
            rotate_left
            clear_value x)
         | clear_value x
         | skip)
    | lift_lets -underBinder | with_reducible apply each_kept | with_reducible apply State.setSlot_kept
    | with_reducible apply State.admitDie_kept | with_reducible apply State.wr_kept
    | with_reducible apply State.setDie_kept | with_reducible apply State.noteAt_kept
    | (split <;> try lift_lets -underBinder) | with_reducible apply Kept.record | with_reducible rfl

theorem State.admitted_kept {a s : State} {x1} {f : State → Ans} (h : Kept a s) (hf : ∀ y, Kept a y → KeptAns a (f y)) :
    KeptAns a (s.admitted x1 f) := by
  unfold State.admitted
  split
  · exact keptAns_error
  · exact hf _ (each_kept h fun y d hy => State.admitDie_kept hy)

theorem State.replaceId_kept {a s : State} {x1 x2 x3 x4 x5 x6 x7} (h : Kept a s) :
    Kept a (State.replaceId s x1 x2 x3 x4 x5 x6 x7) := by
  unfold State.replaceId
  try lift_lets -underBinder
  repeat' first
    | with_reducible assumption
    | (intro x
       first
         | (refine have_of (a := a) x ?_ fun _ => ?_
            unfold x
            try lift_lets -underBinder
            rotate_left
            clear_value x)
         | clear_value x
         | skip)
    | lift_lets -underBinder | with_reducible apply State.noteAt_kept | with_reducible apply State.wr_kept
    | (split <;> try lift_lets -underBinder) | with_reducible apply Kept.record | with_reducible rfl

theorem State.replaceIds_kept {a s : State} {x1} (h : Kept a s) :
    Kept a (State.replaceIds s x1) := by
  unfold State.replaceIds
  try lift_lets -underBinder
  repeat' first
    | with_reducible assumption
    | (intro x
       first
         | (refine have_of (a := a) x ?_ fun _ => ?_
            unfold x
            try lift_lets -underBinder
            rotate_left
            clear_value x)
         | clear_value x
         | skip)
    | lift_lets -underBinder | with_reducible apply each_kept | with_reducible apply State.replaceId_kept
    | (split <;> try lift_lets -underBinder) | with_reducible apply Kept.record | with_reducible rfl

theorem State.loadTimeBases_kept {a s : State} (h : Kept a s) :
    Kept a (State.loadTimeBases s) := by
  unfold State.loadTimeBases
  try lift_lets -underBinder
  repeat' first
    | with_reducible assumption
    | (intro x
       first
         | (refine have_of (a := a) x ?_ fun _ => ?_
            unfold x
            try lift_lets -underBinder
            rotate_left
            clear_value x)
         | clear_value x
         | skip)
    | lift_lets -underBinder | with_reducible apply each_kept | with_reducible apply State.setDie_kept
    | (split <;> try lift_lets -underBinder) | with_reducible apply Kept.record | with_reducible rfl

theorem State.leaveStandby_kept {a s : State} (h : Kept a s) :
    Kept a (State.leaveStandby s) := by
  unfold State.leaveStandby
  try lift_lets -underBinder
  repeat' first
    | with_reducible assumption
    | (intro x
       first
         | (refine have_of (a := a) x ?_ fun _ => ?_
            unfold x
            try lift_lets -underBinder
            rotate_left
            clear_value x)
         | clear_value x
         | skip)
    | lift_lets -underBinder | with_reducible apply each_kept | with_reducible apply State.setDie_kept
    | with_reducible apply State.wr_kept | with_reducible apply State.loadTimeBases_kept
    | with_reducible apply State.admitRestored_kept | (split <;> try lift_lets -underBinder)
    | with_reducible apply Kept.record | with_reducible rfl

end Sys2Proof.Machine
end

