-- ==== Sys2Proof/Laws/KeptRun.lean ====
section
/-! SUPPORT. What the operations of recipes, contact checks, micro-ops and the control law keep (Kept): one lemma for each. -/

namespace Sys2Proof.Machine

set_option Elab.async false

set_option linter.unreachableTactic false
set_option linter.unusedTactic false

theorem State.setRun_kept {a s : State} {x1 x2} (h : Kept a s) :
    Kept a (State.setRun s x1 x2) := by
  unfold State.setRun
  try lift_lets -underBinder
  repeat' first
    | with_reducible assumption
    | (intro x
       first
         | (refine have_of (a := a) x ?_ fun _ => ?_
            unfold x
            try lift_lets -underBinder
            rotate_left
            clear_value x)
         | clear_value x
         | skip)
    | lift_lets -underBinder | with_reducible apply each_kept | with_reducible apply State.wr_kept
    | (split <;> try lift_lets -underBinder) | with_reducible apply Kept.record | with_reducible rfl

theorem State.setRunSt_kept {a s : State} {x1 x2} (h : Kept a s) :
    Kept a (State.setRunSt s x1 x2) := by
  unfold State.setRunSt
  try lift_lets -underBinder
  repeat' first
    | with_reducible assumption
    | (intro x
       first
         | (refine have_of (a := a) x ?_ fun _ => ?_
            unfold x
            try lift_lets -underBinder
            rotate_left
            clear_value x)
         | skip)
    | lift_lets -underBinder | with_reducible apply State.setChan_kept | exact Kept.chan ‹_› ‹_› _
    | exact slice_safe_cut _ | exact Slice.Safe.same (slice_safe_cut {}) rfl rfl rfl
    | (split <;> try lift_lets -underBinder) | with_reducible apply Kept.record | with_reducible rfl

theorem State.freshSlot_kept {a s : State} {x1} (h : Kept a s) :
    Kept a (State.freshSlot s x1) := by
  unfold State.freshSlot
  try lift_lets -underBinder
  repeat' first
    | with_reducible assumption
    | (intro x
       first
         | (refine have_of (a := a) x ?_ fun _ => ?_
            unfold x
            try lift_lets -underBinder
            rotate_left
            clear_value x)
         | skip)
    | lift_lets -underBinder | with_reducible apply State.setWord4_kept | with_reducible apply State.setChan_kept
    | exact Kept.chan ‹_› ‹_› _ | exact slice_safe_cut _ | exact Slice.Safe.same (slice_safe_cut {}) rfl rfl rfl
    | (split <;> try lift_lets -underBinder) | with_reducible apply Kept.record | with_reducible rfl

theorem State.beginStep_kept {a s : State} {x1 x2 x3} (h : Kept a s) :
    Kept a (State.beginStep s x1 x2 x3) := by
  unfold State.beginStep
  try lift_lets -underBinder
  repeat' first
    | with_reducible assumption
    | (intro x
       first
         | (refine have_of (a := a) x ?_ fun _ => ?_
            unfold x
            try lift_lets -underBinder
            rotate_left
            clear_value x)
         | clear_value x
         | skip)
    | lift_lets -underBinder | with_reducible apply State.setRun_kept | with_reducible apply State.wr_kept
    | with_reducible apply each_kept | with_reducible apply State.freshSlot_kept
    | with_reducible apply State.setRunSt_kept | with_reducible apply State.mail_kept
    | with_reducible apply State.startUnit_kept | (split <;> try lift_lets -underBinder)
    | with_reducible apply Kept.record | with_reducible rfl

theorem State.arrive_kept {a s : State} {x1 x2 x3} (h : Kept a s) :
    Kept a (State.arrive s x1 x2 x3) := by
  unfold State.arrive
  repeat' first
    | with_reducible assumption | with_reducible apply State.wr_kept | with_reducible apply State.setRun_kept
    | with_reducible apply State.setRunSt_kept | with_reducible apply State.setGroup_kept

theorem State.goOn_kept {a s : State} {x1 x2 x3} (h : Kept a s) :
    Kept a (State.goOn s x1 x2 x3) := by
  unfold State.goOn
  repeat' first
    | with_reducible assumption | with_reducible apply State.setRunSt_kept | with_reducible apply State.wr_kept
    | with_reducible apply State.setRun_kept | with_reducible apply State.arrive_kept
    | with_reducible apply State.beginStep_kept | split

theorem State.queueCheck_kept {a s : State} {x1 x2} (h : Kept a s) :
    Kept a (State.queueCheck s x1 x2) := by
  unfold State.queueCheck
  try lift_lets -underBinder
  repeat' first
    | with_reducible assumption
    | (intro x
       first
         | (refine have_of (a := a) x ?_ fun _ => ?_
            unfold x
            try lift_lets -underBinder
            rotate_left
            clear_value x)
         | skip)
    | lift_lets -underBinder | with_reducible apply each_kept | with_reducible apply State.setChan_kept
    | exact Kept.chan ‹_› ‹_› _ | exact slice_safe_cut _ | exact Slice.Safe.same (slice_safe_cut {}) rfl rfl rfl
    | (split <;> try lift_lets -underBinder) | with_reducible apply Kept.record | with_reducible rfl

theorem State.enterRow_kept {a s : State} {x1 x2 x3} (h : Kept a s) :
    Kept a (State.enterRow s x1 x2 x3) := by
  unfold State.enterRow
  repeat' first
    | with_reducible assumption | with_reducible apply State.queueCheck_kept
    | with_reducible apply State.setRunSt_kept | with_reducible apply State.wr_kept
    | with_reducible apply State.setRun_kept | with_reducible apply State.goOn_kept | split

theorem State.endGang_kept {a s : State} {x1 x2} (h : Kept a s) :
    Kept a (State.endGang s x1 x2) := by
  unfold State.endGang
  try lift_lets -underBinder
  repeat' first
    | with_reducible assumption
    | (intro x
       first
         | (refine have_of (a := a) x ?_ fun _ => ?_
            unfold x
            try lift_lets -underBinder
            rotate_left
            clear_value x)
         | clear_value x
         | skip)
    | lift_lets -underBinder | with_reducible apply each_kept | with_reducible apply State.endRun_kept
    | (split <;> try lift_lets -underBinder) | with_reducible apply Kept.record | with_reducible rfl

theorem startSet_kept {a s : State} {x1} (h : Kept a s) :
    Kept a (startSet s x1) := by
  unfold startSet
  repeat' first
    | with_reducible assumption | with_reducible apply State.wakeDie_kept
    | with_reducible apply State.leaveStandby_kept | with_reducible apply State.wr_kept
    | with_reducible apply State.setRun_kept | with_reducible apply State.queueCheck_kept
    | with_reducible apply State.setRunSt_kept

theorem stopSet_kept {a s : State} {x1} (h : Kept a s) :
    Kept a (stopSet s x1) := by
  unfold stopSet
  try lift_lets -underBinder
  repeat' first
    | with_reducible assumption
    | (intro x
       first
         | (refine have_of (a := a) x ?_ fun _ => ?_
            unfold x
            try lift_lets -underBinder
            rotate_left
            clear_value x)
         | clear_value x
         | skip)
    | lift_lets -underBinder | with_reducible apply State.setRunSt_kept | with_reducible apply State.endGang_kept
    | (split <;> try lift_lets -underBinder) | with_reducible apply Kept.record | with_reducible rfl

theorem continueSet_kept {a s : State} {x1} (h : Kept a s) :
    Kept a (continueSet s x1) := by
  unfold continueSet
  repeat' first
    | with_reducible assumption | with_reducible apply State.wakeDie_kept | with_reducible apply State.enterRow_kept

theorem State.markInvalid_kept {a s : State} {x1} (h : Kept a s) :
    Kept a (State.markInvalid s x1) := by
  unfold State.markInvalid
  try lift_lets -underBinder
  repeat' first
    | with_reducible assumption
    | (intro x
       first
         | (refine have_of (a := a) x ?_ fun _ => ?_
            unfold x
            try lift_lets -underBinder
            rotate_left
            clear_value x)
         | clear_value x
         | skip)
    | lift_lets -underBinder | with_reducible apply each_kept | with_reducible apply State.wr_kept
    | (split <;> try lift_lets -underBinder) | with_reducible apply Kept.record | with_reducible rfl

theorem State.doAct_kept {a s : State} {x1 x2 x3 x4} (h : Kept a s) :
    Kept a (State.doAct s x1 x2 x3 x4) := by
  unfold State.doAct
  repeat' first
    | with_reducible assumption | with_reducible apply State.enterRow_kept | with_reducible apply State.wr_kept
    | with_reducible apply State.setRunSt_kept | with_reducible apply State.setRun_kept
    | with_reducible apply State.endGang_kept | split

theorem State.milestone_kept {a s : State} {x1 x2} (h : Kept a s) :
    Kept a (State.milestone s x1 x2) := by
  unfold State.milestone
  try lift_lets -underBinder
  repeat' first
    | with_reducible assumption
    | (intro x
       first
         | (refine have_of (a := a) x ?_ fun _ => ?_
            unfold x
            try lift_lets -underBinder
            rotate_left
            clear_value x)
         | clear_value x
         | skip)
    | lift_lets -underBinder | with_reducible apply each_kept | with_reducible apply State.wr_kept
    | with_reducible apply State.freshSlot_kept | with_reducible apply State.discardSlot_kept
    | with_reducible apply State.dropJobs_kept | with_reducible apply State.closeStep_kept
    | with_reducible apply State.doAct_kept | (split <;> try lift_lets -underBinder)
    | with_reducible apply Kept.record | with_reducible rfl

theorem State.setDue_kept {a s : State} {x1 x2} (h : Kept a s) :
    Kept a (State.setDue s x1 x2) := by
  unfold State.setDue
  repeat' first
    | with_reducible assumption | with_reducible apply State.wr_kept | with_reducible apply State.setGroup_kept

theorem State.groupCheck_kept {a s : State} {x1} (h : Kept a s) :
    Kept a (State.groupCheck s x1) := by
  unfold State.groupCheck
  try lift_lets -underBinder
  repeat' first
    | with_reducible assumption
    | (intro x
       first
         | (refine have_of (a := a) x ?_ fun _ => ?_
            unfold x
            try lift_lets -underBinder
            rotate_left
            clear_value x)
         | clear_value x
         | skip)
    | lift_lets -underBinder | with_reducible apply State.wr_kept | with_reducible apply State.setGroup_kept
    | with_reducible apply State.setDue_kept | (split <;> try lift_lets -underBinder)
    | with_reducible apply Kept.record | with_reducible rfl

theorem State.relayBackpressure_kept {a s : State} {x1} (h : Kept a s) :
    Kept a (State.relayBackpressure s x1) := by
  unfold State.relayBackpressure
  try lift_lets -underBinder
  repeat' first
    | with_reducible assumption
    | (intro x
       first
         | (refine have_of (a := a) x ?_ fun _ => ?_
            unfold x
            try lift_lets -underBinder
            rotate_left
            clear_value x)
         | clear_value x
         | skip)
    | lift_lets -underBinder | with_reducible apply each_kept | with_reducible apply State.setDie_kept
    | with_reducible apply State.wr_kept | (split <;> try lift_lets -underBinder) | with_reducible apply Kept.record
    | with_reducible rfl

theorem State.resumeHeld_kept {a s : State} {x1} (h : Kept a s) :
    Kept a (State.resumeHeld s x1) := by
  unfold State.resumeHeld
  repeat' first
    | with_reducible assumption | with_reducible apply State.goOn_kept | with_reducible apply State.wakeDie_kept
    | split

theorem State.backpressure_kept {a s : State} {x1} (h : Kept a s) :
    Kept a (State.backpressure s x1) := by
  unfold State.backpressure
  repeat' first
    | with_reducible assumption | with_reducible apply State.relayBackpressure_kept | with_reducible apply each_kept
    | with_reducible apply State.resumeHeld_kept | split

theorem recipeSet_kept {a s : State} {x1 x2} (h : Kept a s) :
    Kept a (recipeSet x1 s x2) := by
  unfold recipeSet
  try lift_lets -underBinder
  repeat' first
    | with_reducible assumption
    | (intro x
       first
         | (refine have_of (a := a) x ?_ fun _ => ?_
            unfold x
            try lift_lets -underBinder
            rotate_left
            clear_value x)
         | clear_value x
         | skip)
    | lift_lets -underBinder | with_reducible apply each_kept | with_reducible apply State.wr_kept
    | (split <;> try lift_lets -underBinder) | with_reducible apply Kept.record | with_reducible rfl

theorem checkNowSet_kept {a s : State} {x1} (h : Kept a s) :
    Kept a (checkNowSet s x1) := by
  unfold checkNowSet
  repeat' first
    | with_reducible assumption | with_reducible apply State.queueCheck_kept
    | with_reducible apply State.wakeDie_kept

theorem State.writeCheck_kept {a s : State} {x1 x2 x3} (h : Kept a s) :
    Kept a (State.writeCheck s x1 x2 x3) := by
  unfold State.writeCheck
  repeat' first
    | with_reducible assumption | with_reducible apply State.wr_kept

theorem State.gateResult_kept {a s : State} {x1 x2 x3} (h : Kept a s) :
    Kept a (State.gateResult s x1 x2 x3) := by
  unfold State.gateResult
  repeat' first
    | with_reducible assumption | with_reducible apply State.endGang_kept | with_reducible apply State.goOn_kept
    | with_reducible apply State.noteAt_kept | split

theorem State.checkResult_kept {a s : State} {x1 x2} (h : Kept a s) :
    Kept a (State.checkResult s x1 x2) := by
  unfold State.checkResult
  try lift_lets -underBinder
  repeat' first
    | with_reducible assumption
    | (intro x
       first
         | (refine have_of (a := a) x ?_ fun _ => ?_
            unfold x
            try lift_lets -underBinder
            rotate_left
            clear_value x)
         | skip)
    | lift_lets -underBinder | with_reducible apply State.setAdc_kept | with_reducible apply State.setChan_kept
    | with_reducible apply State.writeCheck_kept | with_reducible apply State.gateResult_kept
    | with_reducible apply State.wr_kept | exact Kept.chan ‹_› ‹_› _ | exact slice_safe_cut _
    | exact Slice.Safe.same (slice_safe_cut {}) rfl rfl rfl | (split <;> try lift_lets -underBinder)
    | with_reducible apply Kept.record | with_reducible rfl

theorem State.trm_kept {a s : State} {x1} (h : Kept a s) :
    Kept a (State.trm s x1) := by
  unfold State.trm
  try lift_lets -underBinder
  repeat' first
    | with_reducible assumption
    | (intro x
       first
         | (refine have_of (a := a) x ?_ fun _ => ?_
            unfold x
            try lift_lets -underBinder
            rotate_left
            clear_value x)
         | clear_value x
         | skip)
    | lift_lets -underBinder | with_reducible apply State.setRunSt_kept | (split <;> try lift_lets -underBinder)
    | with_reducible apply Kept.record | with_reducible rfl

theorem State.micro_kept {a s : State} {x1 x2 x3} {f : State → Engine → RunJob → State} (h : Kept a s)
    (hf : ∀ y x j, Kept a y → Kept a (f y x j)) : Kept a (s.micro x1 x2 x3 f) := by
  unfold State.micro
  split
  · split
    · extract_lets x n
      split
      · exact State.setEng_kept h
      · exact hf _ _ _ h
    · exact h
  · exact h

theorem State.alu_kept {a s : State} {x1 x2 x3 f} (h : Kept a s) : Kept a (s.alu x1 x2 x3 f) :=
  State.micro_kept h fun _ _ _ hy => State.setEng_kept hy

theorem State.setLaw_kept {a s : State} {x1 x2} (h : Kept a s) :
    Kept a (State.setLaw s x1 x2) := by
  unfold State.setLaw
  try lift_lets -underBinder
  repeat' first
    | with_reducible assumption
    | (intro x
       first
         | (refine have_of (a := a) x ?_ fun _ => ?_
            unfold x
            try lift_lets -underBinder
            rotate_left
            clear_value x)
         | skip)
    | lift_lets -underBinder | with_reducible apply State.setChan_kept | exact Kept.chan ‹_› ‹_› _
    | exact slice_safe_cut _ | exact Slice.Safe.same (slice_safe_cut {}) rfl rfl rfl
    | (split <;> try lift_lets -underBinder) | with_reducible apply Kept.record | with_reducible rfl

theorem State.showStep_kept {a s : State} {x1} (h : Kept a s) :
    Kept a (State.showStep s x1) := by
  unfold State.showStep
  repeat' first
    | with_reducible assumption | with_reducible apply State.wr_kept | split

theorem State.tallyJob_kept {a s : State} {x1} (h : Kept a s) :
    Kept a (State.tallyJob s x1) := by
  unfold State.tallyJob
  repeat' first
    | with_reducible assumption | with_reducible apply State.showStep_kept | with_reducible apply State.setLaw_kept

theorem State.supervise_kept {a s : State} {x1 x2 x3 x4 x5 x6 x7 x8} (h : Kept a s) :
    Kept a (State.supervise s x1 x2 x3 x4 x5 x6 x7 x8) := by
  unfold State.supervise
  try lift_lets -underBinder
  repeat' first
    | with_reducible assumption
    | (intro x
       first
         | (refine have_of (a := a) x ?_ fun _ => ?_
            unfold x
            try lift_lets -underBinder
            rotate_left
            clear_value x)
         | skip)
    | lift_lets -underBinder | with_reducible apply State.setChan_kept | with_reducible apply State.wr_kept
    | exact Kept.chan ‹_› ‹_› _ | exact slice_safe_cut _ | exact Slice.Safe.same (slice_safe_cut {}) rfl rfl rfl
    | (split <;> try lift_lets -underBinder) | with_reducible apply Kept.record | with_reducible rfl

theorem State.sharing_kept {a s : State} {x1 x2 x3 x4} (h : Kept a s) :
    Kept a (State.sharing s x1 x2 x3 x4) := by
  unfold State.sharing
  repeat' first
    | with_reducible assumption | with_reducible apply State.draw_kept | with_reducible apply State.wr_kept | split

theorem State.showMember_kept {a s : State} {x1 x2 x3} (h : Kept a s) :
    Kept a (State.showMember s x1 x2 x3) := by
  unfold State.showMember
  try lift_lets -underBinder
  repeat' first
    | with_reducible assumption
    | (intro x
       first
         | (refine have_of (a := a) x ?_ fun _ => ?_
            unfold x
            try lift_lets -underBinder
            rotate_left
            clear_value x)
         | clear_value x
         | skip)
    | lift_lets -underBinder | with_reducible apply State.wr_kept | with_reducible apply State.setLaw_kept
    | with_reducible apply State.sharing_kept | (split <;> try lift_lets -underBinder)
    | with_reducible apply Kept.record | with_reducible rfl

theorem State.stageDuty_kept {a s : State} {x1 x2 x3} (h : Kept a s) :
    Kept a (State.stageDuty s x1 x2 x3) := by
  unfold State.stageDuty
  try lift_lets -underBinder
  repeat' first
    | with_reducible assumption
    | (intro x
       first
         | (refine have_of (a := a) x ?_ fun _ => ?_
            unfold x
            try lift_lets -underBinder
            rotate_left
            clear_value x)
         | clear_value x
         | skip)
    | lift_lets -underBinder | with_reducible apply State.wr_kept | with_reducible apply State.setEng_kept
    | (split <;> try lift_lets -underBinder) | with_reducible apply Kept.record | with_reducible rfl

theorem State.publish_kept {a s : State} {x1 x2 x3 x4} (h : Kept a s) :
    Kept a (State.publish s x1 x2 x3 x4) := by
  unfold State.publish
  exact Kept.record h rfl rfl

theorem State.runInner_kept {a s : State} {x1 x2 x3 x4 x5} (h : Kept a s) :
    Kept a (State.runInner s x1 x2 x3 x4 x5) := by
  unfold State.runInner
  repeat' first
    | with_reducible assumption | with_reducible apply State.draw_kept | with_reducible apply State.setLaw_kept
    | with_reducible apply State.wr_kept | with_reducible apply State.stageDuty_kept
    | with_reducible apply State.showMember_kept | split

theorem State.showRef_kept {a s : State} {x1 x2 x3 x4} (h : Kept a s) :
    Kept a (State.showRef s x1 x2 x3 x4) := by
  unfold State.showRef
  repeat' first
    | with_reducible assumption | with_reducible apply State.wr_kept | split

theorem State.switchJob_kept {a s : State} {x1 x2 x3} (h : Kept a s) :
    Kept a (State.switchJob s x1 x2 x3) := by
  unfold State.switchJob
  repeat' first
    | with_reducible assumption | with_reducible apply State.wr_kept | with_reducible apply State.setLaw_kept
    | with_reducible apply State.supervise_kept | with_reducible apply State.runInner_kept
    | with_reducible apply State.publish_kept | with_reducible apply State.showRef_kept | split

theorem State.slaveJob_kept {a s : State} {x1 x2 x3} (h : Kept a s) :
    Kept a (State.slaveJob s x1 x2 x3) := by
  unfold State.slaveJob
  repeat' first
    | with_reducible assumption | with_reducible apply State.wr_kept | with_reducible apply State.setLaw_kept
    | with_reducible apply State.supervise_kept | with_reducible apply State.runInner_kept

theorem State.slaveRest_kept {a s : State} {x1 x2} (h : Kept a s) :
    Kept a (State.slaveRest s x1 x2) := by
  unfold State.slaveRest
  exact Kept.record h rfl rfl

theorem State.restJob_kept {a s : State} {x1 x2} (h : Kept a s) :
    Kept a (State.restJob s x1 x2) := by
  unfold State.restJob
  repeat' first
    | with_reducible assumption | with_reducible apply State.stopUnit_kept | with_reducible apply State.wr_kept
    | with_reducible apply State.setEng_kept | split

theorem State.lawJob_kept {a s : State} {x1 x2 x3} (h : Kept a s) :
    Kept a (State.lawJob s x1 x2 x3) := by
  unfold State.lawJob
  try lift_lets -underBinder
  repeat' first
    | with_reducible assumption
    | (intro x
       first
         | (refine have_of (a := a) x ?_ fun _ => ?_
            unfold x
            try lift_lets -underBinder
            rotate_left
            clear_value x)
         | clear_value x
         | skip)
    | lift_lets -underBinder | with_reducible apply State.latchNew_kept | with_reducible apply State.restJob_kept
    | with_reducible apply State.slaveRest_kept | with_reducible apply State.slaveJob_kept
    | with_reducible apply State.switchJob_kept | with_reducible apply State.setLaw_kept
    | with_reducible apply State.tallyJob_kept | with_reducible apply State.trm_kept
    | (split <;> try lift_lets -underBinder) | with_reducible apply Kept.record | with_reducible rfl

theorem State.customStart_kept {a s : State} {x1} (h : Kept a s) :
    Kept a (State.customStart s x1) := by
  unfold State.customStart
  repeat' first
    | with_reducible assumption | with_reducible apply State.setLaw_kept | with_reducible apply State.tallyJob_kept
    | split

theorem State.customJob_kept {a s : State} {x1 x2} (h : Kept a s) :
    Kept a (State.customJob s x1 x2) := by
  unfold State.customJob
  try lift_lets -underBinder
  repeat' first
    | with_reducible assumption
    | (intro x
       first
         | (refine have_of (a := a) x ?_ fun _ => ?_
            unfold x
            try lift_lets -underBinder
            rotate_left
            clear_value x)
         | clear_value x
         | skip)
    | lift_lets -underBinder | with_reducible apply State.wr_kept | with_reducible apply State.supervise_kept
    | (split <;> try lift_lets -underBinder) | with_reducible apply Kept.record | with_reducible rfl

theorem State.compare_kept {a s : State} {x1 x2 x3 x4 x5 x6} (h : Kept a s) :
    Kept a (State.compare s x1 x2 x3 x4 x5 x6) := by
  unfold State.compare
  try lift_lets -underBinder
  repeat' first
    | with_reducible assumption
    | (intro x
       first
         | (refine have_of (a := a) x ?_ fun _ => ?_
            unfold x
            try lift_lets -underBinder
            rotate_left
            clear_value x)
         | skip)
    | lift_lets -underBinder | with_reducible apply State.setChan_kept | with_reducible apply State.wr_kept
    | exact Kept.chan ‹_› ‹_› _ | exact slice_safe_cut _ | exact Slice.Safe.same (slice_safe_cut {}) rfl rfl rfl
    | (split <;> try lift_lets -underBinder) | with_reducible apply Kept.record | with_reducible rfl

theorem State.compareMirror_kept {a s : State} {x1 x2} (h : Kept a s) :
    Kept a (State.compareMirror s x1 x2) := by
  unfold State.compareMirror
  repeat' first
    | with_reducible assumption | with_reducible apply State.compare_kept | split

end Sys2Proof.Machine
end

