-- ==== Sys2Proof/Laws/KeptChain.lean ====
section
/-! SUPPORT. What the operations of the power chain, the auxiliary drives and the hub ADC units keep (Kept): one lemma for each. -/

namespace Sys2Proof.Machine

set_option Elab.async false

set_option linter.unreachableTactic false
set_option linter.unusedTactic false

theorem State.setPower_kept {a s : State} {x1} (h : Kept a s) :
    Kept a (State.setPower s x1) := by
  unfold State.setPower
  exact Kept.record h rfl rfl

theorem State.setHold_kept {a s : State} {x1} (h : Kept a s) :
    Kept a (State.setHold s x1) := by
  unfold State.setHold
  exact Kept.record h rfl rfl

theorem State.clearHold_kept {a s : State} {x1} (h : Kept a s) :
    Kept a (State.clearHold s x1) := by
  unfold State.clearHold
  exact Kept.record h rfl rfl

theorem State.supFault_kept {a s : State} {x1} (h : Kept a s) :
    Kept a (State.supFault s x1) := by
  unfold State.supFault
  repeat' first
    | with_reducible assumption | with_reducible apply State.note_kept | with_reducible apply State.wr_kept

theorem State.setKdrv_kept {a s : State} {x1 x2} (h : Kept a s) :
    Kept a (State.setKdrv s x1 x2) := by
  unfold State.setKdrv
  exact Kept.record h rfl rfl

theorem State.closeKdrv_kept {a s : State} {x1} (h : Kept a s) :
    Kept a (State.closeKdrv s x1) := by
  unfold State.closeKdrv
  try lift_lets -underBinder
  repeat' first
    | with_reducible assumption
    | (intro x
       first
         | (refine have_of (a := a) x ?_ fun _ => ?_
            unfold x
            try lift_lets -underBinder
            rotate_left
            clear_value x)
         | clear_value x
         | skip)
    | lift_lets -underBinder | with_reducible apply State.wr_kept | with_reducible apply State.setKdrv_kept
    | (split <;> try lift_lets -underBinder) | with_reducible apply Kept.record | with_reducible rfl

theorem State.openKdrv_kept {a s : State} {x1} (h : Kept a s) :
    Kept a (State.openKdrv s x1) := by
  unfold State.openKdrv
  try lift_lets -underBinder
  repeat' first
    | with_reducible assumption
    | (intro x
       first
         | (refine have_of (a := a) x ?_ fun _ => ?_
            unfold x
            try lift_lets -underBinder
            rotate_left
            clear_value x)
         | clear_value x
         | skip)
    | lift_lets -underBinder | with_reducible apply State.wr_kept | with_reducible apply State.setKdrv_kept
    | (split <;> try lift_lets -underBinder) | with_reducible apply Kept.record | with_reducible rfl

theorem State.cutUnits_kept {a s : State} {x1} (h : Kept a s) :
    Kept a (State.cutUnits s x1) := by
  unfold State.cutUnits
  try lift_lets -underBinder
  repeat' first
    | with_reducible assumption
    | (intro x
       first
         | (refine have_of (a := a) x ?_ fun _ => ?_
            unfold x
            try lift_lets -underBinder
            rotate_left
            clear_value x)
         | clear_value x
         | skip)
    | lift_lets -underBinder | with_reducible apply each_kept | with_reducible apply State.setUnit_kept
    | (split <;> try lift_lets -underBinder) | with_reducible apply Kept.record | with_reducible rfl

theorem State.afeLow_kept {a s : State} (h : Kept a s) :
    Kept a (State.afeLow s) := by
  unfold State.afeLow
  repeat' first
    | with_reducible assumption | with_reducible apply State.setPower_kept | with_reducible apply State.cutUnits_kept

theorem State.latchAfe_kept {a s : State} (h : Kept a s) :
    Kept a (State.latchAfe s) := by
  unfold State.latchAfe
  repeat' first
    | with_reducible assumption | with_reducible apply State.afeLow_kept | with_reducible apply State.dropJobs_kept
    | with_reducible apply State.wr_kept | with_reducible apply State.setPower_kept

theorem State.chopOn_kept {a s : State} (h : Kept a s) :
    Kept a (State.chopOn s) := by
  unfold State.chopOn
  repeat' first
    | with_reducible assumption | with_reducible apply State.wr_kept | with_reducible apply State.holdPin_kept
    | with_reducible apply State.setPower_kept | split

theorem State.chopOff_kept {a s : State} (h : Kept a s) :
    Kept a (State.chopOff s) := by
  unfold State.chopOff
  repeat' first
    | with_reducible assumption | with_reducible apply State.wr_kept | with_reducible apply State.holdPin_kept
    | with_reducible apply State.setPower_kept

theorem State.adisOn_kept {a s : State} (h : Kept a s) :
    Kept a (State.adisOn s) := by
  unfold State.adisOn
  repeat' first
    | with_reducible assumption | with_reducible apply State.wr_kept | with_reducible apply State.holdPin_kept
    | with_reducible apply State.setPower_kept | split

theorem State.adisOff_kept {a s : State} {x1} (h : Kept a s) :
    Kept a (State.adisOff s x1) := by
  unfold State.adisOff
  repeat' first
    | with_reducible assumption | with_reducible apply State.wr_kept | with_reducible apply State.holdPin_kept
    | with_reducible apply State.setPower_kept

theorem State.chopNote_kept {a s : State} (h : Kept a s) :
    Kept a (State.chopNote s) := by
  unfold State.chopNote
  repeat' first
    | with_reducible assumption | with_reducible apply State.note_kept

theorem State.setLink_kept {a s : State} {x1} (h : Kept a s) :
    Kept a (State.setLink s x1) := by
  unfold State.setLink
  repeat' first
    | with_reducible assumption | with_reducible apply State.setPower_kept | with_reducible apply State.wr_kept

theorem State.stopNote_kept {a s : State} {x1 x2} (h : Kept a s) :
    Kept a (State.stopNote s x1 x2) := by
  unfold State.stopNote
  repeat' first
    | with_reducible assumption | with_reducible apply State.raise_kept

theorem State.stopWith_kept {a s : State} {x1 x2} (h : Kept a s) :
    Kept a (State.stopWith s x1 x2) := by
  unfold State.stopWith
  repeat' first
    | with_reducible assumption | with_reducible apply State.stopNote_kept | with_reducible apply State.wr_kept
    | with_reducible apply State.setLink_kept | with_reducible apply State.raiseAll_kept
    | with_reducible apply State.setPower_kept | split

theorem State.controlledStop_kept {a s : State} {x1} (h : Kept a s) :
    Kept a (State.controlledStop s x1) := by
  unfold State.controlledStop
  repeat' first
    | with_reducible assumption | with_reducible apply State.stopWith_kept | with_reducible apply State.openCorr_kept

theorem State.endStop_kept {a s : State} (h : Kept a s) :
    Kept a (State.endStop s) := by
  unfold State.endStop
  repeat' first
    | with_reducible assumption | with_reducible apply State.setLink_kept | split

theorem State.cascade_kept {a s : State} {x1 x2} (h : Kept a s) :
    Kept a (State.cascade s x1 x2) := by
  unfold State.cascade
  repeat' first
    | with_reducible assumption | with_reducible apply State.wr_kept | with_reducible apply State.raise_kept

theorem State.level1_kept {a s : State} (h : Kept a s) :
    Kept a (State.level1 s) := by
  unfold State.level1
  repeat' first
    | with_reducible assumption | with_reducible apply State.raiseAll_kept | with_reducible apply State.cascade_kept
    | with_reducible apply State.openCorr_kept | with_reducible apply State.setPower_kept

theorem State.level2_kept {a s : State} (h : Kept a s) :
    Kept a (State.level2 s) := by
  unfold State.level2
  repeat' first
    | with_reducible assumption | with_reducible apply State.raiseAll_kept | with_reducible apply State.cascade_kept
    | with_reducible apply State.openCorr_kept

theorem State.level3_kept {a s : State} {x1} (h : Kept a s) :
    Kept a (State.level3 s x1) := by
  unfold State.level3
  repeat' first
    | with_reducible assumption | with_reducible apply State.wr_kept | with_reducible apply State.cascade_kept
    | with_reducible apply State.openCorr_kept | with_reducible apply State.afeLow_kept
    | with_reducible apply State.raiseAll_kept | with_reducible apply State.chopOn_kept
    | with_reducible apply State.openKdrv_kept | with_reducible apply State.adisOn_kept
    | with_reducible apply State.stopWith_kept | split

theorem State.clearDab_kept {a s : State} {x1 x2} (h : Kept a s) :
    Kept a (State.clearDab s x1 x2) := by
  unfold State.clearDab
  try lift_lets -underBinder
  repeat' first
    | with_reducible assumption
    | (intro x
       first
         | (refine have_of (a := a) x ?_ fun _ => ?_
            unfold x
            try lift_lets -underBinder
            rotate_left
            clear_value x)
         | clear_value x
         | skip)
    | lift_lets -underBinder | with_reducible apply State.setDie_kept | with_reducible apply State.wr_kept
    | (split <;> try lift_lets -underBinder) | with_reducible apply Kept.record | with_reducible rfl

theorem State.sendTest_kept {a s : State} {x1 x2} (h : Kept a s) :
    Kept a (State.sendTest s x1 x2) := by
  unfold State.sendTest
  repeat' first
    | with_reducible assumption | with_reducible apply State.raiseFrame_kept | with_reducible apply State.setDie_kept

theorem State.testsDone_kept {a s : State} (h : Kept a s) :
    Kept a (State.testsDone s) := by
  unfold State.testsDone
  repeat' first
    | with_reducible assumption | with_reducible apply State.clearHold_kept | split

theorem State.pathFailed_kept {a s : State} {x1} (h : Kept a s) :
    Kept a (State.pathFailed s x1) := by
  unfold State.pathFailed
  try lift_lets -underBinder
  repeat' first
    | with_reducible assumption
    | (intro x
       first
         | (refine have_of (a := a) x ?_ fun _ => ?_
            unfold x
            try lift_lets -underBinder
            rotate_left
            clear_value x)
         | clear_value x
         | skip)
    | lift_lets -underBinder | with_reducible apply State.setHold_kept | with_reducible apply State.supFault_kept
    | with_reducible apply State.setPower_kept | with_reducible apply State.controlledStop_kept
    | (split <;> try lift_lets -underBinder) | with_reducible apply Kept.record | with_reducible rfl

theorem State.startDabs_kept {a s : State} {x1} (h : Kept a s) :
    Kept a (State.startDabs s x1) := by
  unfold State.startDabs
  try lift_lets -underBinder
  repeat' first
    | with_reducible assumption
    | (intro x
       first
         | (refine have_of (a := a) x ?_ fun _ => ?_
            unfold x
            try lift_lets -underBinder
            rotate_left
            clear_value x)
         | clear_value x
         | skip)
    | lift_lets -underBinder | with_reducible apply each_kept | with_reducible apply State.setDie_kept
    | with_reducible apply State.wr_kept | with_reducible apply State.startUnit_kept
    | (split <;> try lift_lets -underBinder) | with_reducible apply Kept.record | with_reducible rfl

theorem State.stageUnit_kept {a s : State} {x1 x2 x3} (h : Kept a s) :
    Kept a (State.stageUnit s x1 x2 x3) := by
  unfold State.stageUnit
  repeat' first
    | with_reducible assumption | with_reducible apply State.commitUnit_kept
    | with_reducible apply State.setUnit_kept

theorem State.countLoss_kept {a s : State} {x1 x2} (h : Kept a s) :
    Kept a (State.countLoss s x1 x2) := by
  unfold State.countLoss
  exact Kept.record h rfl rfl

theorem State.trackGrid_kept {a s : State} {x1 x2 x3 x4} (h : Kept a s) :
    Kept a (State.trackGrid s x1 x2 x3 x4) := by
  unfold State.trackGrid
  repeat' first
    | with_reducible assumption | with_reducible apply State.countLoss_kept
    | with_reducible apply State.setPower_kept

theorem State.watchGrid_kept {a s : State} (h : Kept a s) :
    Kept a (State.watchGrid s) := by
  unfold State.watchGrid
  exact Kept.record h rfl rfl

theorem State.trackWu_kept {a s : State} {x1} (h : Kept a s) :
    Kept a (State.trackWu s x1) := by
  unfold State.trackWu
  exact Kept.record h rfl rfl

theorem State.publishGrid_kept {a s : State} {x1 x2 x3 x4 x5} (h : Kept a s) :
    Kept a (State.publishGrid s x1 x2 x3 x4 x5) := by
  unfold State.publishGrid
  exact Kept.record h rfl rfl

theorem State.gridJob_kept {a s : State} {x1} (h : Kept a s) :
    Kept a (State.gridJob s x1) := by
  unfold State.gridJob
  try lift_lets -underBinder
  repeat' first
    | with_reducible assumption
    | (intro x
       first
         | (refine have_of (a := a) x ?_ fun _ => ?_
            unfold x
            try lift_lets -underBinder
            rotate_left
            clear_value x)
         | clear_value x
         | skip)
    | lift_lets -underBinder | with_reducible apply State.countLoss_kept | with_reducible apply State.trackWu_kept
    | with_reducible apply State.publishGrid_kept | with_reducible apply State.setPower_kept
    | with_reducible apply State.draw_kept | with_reducible apply State.wr_kept
    | with_reducible apply State.trackGrid_kept | (split <;> try lift_lets -underBinder)
    | with_reducible apply Kept.record | with_reducible rfl

theorem State.stagePhase_kept {a s : State} {x1 x2} (h : Kept a s) :
    Kept a (State.stagePhase s x1 x2) := by
  unfold State.stagePhase
  repeat' first
    | with_reducible assumption | with_reducible apply State.stageUnit_kept

theorem State.rampVdc_kept {a s : State} (h : Kept a s) :
    Kept a (State.rampVdc s) := by
  unfold State.rampVdc
  exact Kept.record h rfl rfl

theorem State.afeJob_kept {a s : State} (h : Kept a s) :
    Kept a (State.afeJob s) := by
  unfold State.afeJob
  try lift_lets -underBinder
  repeat' first
    | with_reducible assumption
    | (intro x
       first
         | (refine have_of (a := a) x ?_ fun _ => ?_
            unfold x
            try lift_lets -underBinder
            rotate_left
            clear_value x)
         | clear_value x
         | skip)
    | lift_lets -underBinder | with_reducible apply State.rampVdc_kept | with_reducible apply State.draw_kept
    | with_reducible apply State.setPower_kept | with_reducible apply State.wr_kept | with_reducible apply each_kept
    | with_reducible apply State.stagePhase_kept | (split <;> try lift_lets -underBinder)
    | with_reducible apply Kept.record | with_reducible rfl

theorem State.linkJob_kept {a s : State} (h : Kept a s) :
    Kept a (State.linkJob s) := by
  unfold State.linkJob
  try lift_lets -underBinder
  repeat' first
    | with_reducible assumption
    | (intro x
       first
         | (refine have_of (a := a) x ?_ fun _ => ?_
            unfold x
            try lift_lets -underBinder
            rotate_left
            clear_value x)
         | clear_value x
         | skip)
    | lift_lets -underBinder | with_reducible apply State.setPower_kept | with_reducible apply State.wr_kept
    | (split <;> try lift_lets -underBinder) | with_reducible apply Kept.record | with_reducible rfl

theorem State.chopJob_kept {a s : State} (h : Kept a s) :
    Kept a (State.chopJob s) := by
  unfold State.chopJob
  try lift_lets -underBinder
  repeat' first
    | with_reducible assumption
    | (intro x
       first
         | (refine have_of (a := a) x ?_ fun _ => ?_
            unfold x
            try lift_lets -underBinder
            rotate_left
            clear_value x)
         | clear_value x
         | skip)
    | lift_lets -underBinder | with_reducible apply State.chopOn_kept | with_reducible apply State.chopOff_kept
    | (split <;> try lift_lets -underBinder) | with_reducible apply Kept.record | with_reducible rfl

theorem State.dabJob_kept {a s : State} {x1 x2 x3} (h : Kept a s) :
    Kept a (State.dabJob s x1 x2 x3) := by
  unfold State.dabJob
  try lift_lets -underBinder
  repeat' first
    | with_reducible assumption
    | (intro x
       first
         | (refine have_of (a := a) x ?_ fun _ => ?_
            unfold x
            try lift_lets -underBinder
            rotate_left
            clear_value x)
         | clear_value x
         | skip)
    | lift_lets -underBinder | with_reducible apply State.draw_kept | with_reducible apply State.setDie_kept
    | with_reducible apply State.wr_kept | with_reducible apply State.setEng_kept
    | (split <;> try lift_lets -underBinder) | with_reducible apply Kept.record | with_reducible rfl

theorem State.setGates_kept {a s : State} {x1 x2} (h : Kept a s) :
    Kept a (State.setGates s x1 x2) := by
  unfold State.setGates
  try lift_lets -underBinder
  repeat' first
    | with_reducible assumption
    | (intro x
       first
         | (refine have_of (a := a) x ?_ fun _ => ?_
            unfold x
            try lift_lets -underBinder
            rotate_left
            clear_value x)
         | clear_value x
         | skip)
    | lift_lets -underBinder | with_reducible apply each_kept | with_reducible apply State.askNow_kept
    | with_reducible apply State.setUnit_kept | (split <;> try lift_lets -underBinder)
    | with_reducible apply Kept.record | with_reducible rfl

theorem State.floatAll_kept {a s : State} {x1} (h : Kept a s) :
    Kept a (State.floatAll s x1) := by
  unfold State.floatAll
  repeat' first
    | with_reducible assumption | with_reducible apply State.setGates_kept

theorem State.driveCut_kept {a s : State} {x1} (h : Kept a s) :
    Kept a (State.driveCut s x1) := by
  unfold State.driveCut
  repeat' first
    | with_reducible assumption | with_reducible apply State.cutUnits_kept | with_reducible apply State.floatAll_kept

theorem State.driveLow_kept {a s : State} {x1} (h : Kept a s) :
    Kept a (State.driveLow s x1) := by
  unfold State.driveLow
  repeat' first
    | with_reducible assumption | with_reducible apply State.driveCut_kept | split

theorem State.driveRun_kept {a s : State} {x1} (h : Kept a s) :
    Kept a (State.driveRun s x1) := by
  unfold State.driveRun
  try lift_lets -underBinder
  repeat' first
    | with_reducible assumption
    | (intro x
       first
         | (refine have_of (a := a) x ?_ fun _ => ?_
            unfold x
            try lift_lets -underBinder
            rotate_left
            clear_value x)
         | clear_value x
         | skip)
    | lift_lets -underBinder | with_reducible apply each_kept | with_reducible apply State.startUnit_kept
    | (split <;> try lift_lets -underBinder) | with_reducible apply Kept.record | with_reducible rfl

theorem State.enterDrive_kept {a s : State} {x1 x2} (h : Kept a s) :
    Kept a (State.enterDrive s x1 x2) := by
  unfold State.enterDrive
  repeat' first
    | with_reducible assumption | with_reducible apply State.wr_kept | with_reducible apply State.setDrive_kept

theorem State.driveDuty_kept {a s : State} {x1 x2} (h : Kept a s) :
    Kept a (State.driveDuty s x1 x2) := by
  unfold State.driveDuty
  try lift_lets -underBinder
  repeat' first
    | with_reducible assumption
    | (intro x
       first
         | (refine have_of (a := a) x ?_ fun _ => ?_
            unfold x
            try lift_lets -underBinder
            rotate_left
            clear_value x)
         | clear_value x
         | skip)
    | lift_lets -underBinder | with_reducible apply each_kept | with_reducible apply State.stageUnit_kept
    | (split <;> try lift_lets -underBinder) | with_reducible apply Kept.record | with_reducible rfl

theorem State.latchDrive_kept {a s : State} {x1 x2} (h : Kept a s) :
    Kept a (State.latchDrive s x1 x2) := by
  unfold State.latchDrive
  repeat' first
    | with_reducible assumption | with_reducible apply State.wr_kept | with_reducible apply State.enterDrive_kept
    | with_reducible apply State.driveCut_kept | with_reducible apply State.setDrive_kept
    | with_reducible apply State.note_kept | with_reducible apply State.dropJobs_kept | split

theorem State.showSpeed_kept {a s : State} {x1 x2} (h : Kept a s) :
    Kept a (State.showSpeed s x1 x2) := by
  unfold State.showSpeed
  exact Kept.record h rfl rfl

theorem State.countReversal_kept {a s : State} {x1 x2} (h : Kept a s) :
    Kept a (State.countReversal s x1 x2) := by
  unfold State.countReversal
  try lift_lets -underBinder
  repeat' first
    | with_reducible assumption
    | (intro x
       first
         | (refine have_of (a := a) x ?_ fun _ => ?_
            unfold x
            try lift_lets -underBinder
            rotate_left
            clear_value x)
         | clear_value x
         | skip)
    | lift_lets -underBinder | with_reducible apply State.inc_kept | (split <;> try lift_lets -underBinder)
    | with_reducible apply Kept.record | with_reducible rfl

theorem State.beginListen_kept {a s : State} {x1} (h : Kept a s) :
    Kept a (State.beginListen s x1) := by
  unfold State.beginListen
  repeat' first
    | with_reducible assumption | with_reducible apply State.setDrive_kept
    | with_reducible apply State.enterDrive_kept | with_reducible apply State.driveLow_kept

theorem setpointSet_kept {a s : State} {x1 x2 x3} (h : Kept a s) :
    Kept a (setpointSet x1 x2 s x3) := by
  unfold setpointSet
  try lift_lets -underBinder
  repeat' first
    | with_reducible assumption
    | (intro x
       first
         | (refine have_of (a := a) x ?_ fun _ => ?_
            unfold x
            try lift_lets -underBinder
            rotate_left
            clear_value x)
         | clear_value x
         | skip)
    | lift_lets -underBinder | with_reducible apply State.wr_kept | with_reducible apply State.leaveStandby_kept
    | with_reducible apply State.beginListen_kept | with_reducible apply State.enterDrive_kept
    | with_reducible apply State.driveLow_kept | (split <;> try lift_lets -underBinder)
    | with_reducible apply Kept.record | with_reducible rfl

theorem State.catchRotor_kept {a s : State} {x1 x2 x3 x4} (h : Kept a s) :
    Kept a (State.catchRotor s x1 x2 x3 x4) := by
  unfold State.catchRotor
  repeat' first
    | with_reducible assumption | with_reducible apply State.draw_kept | with_reducible apply State.setDrive_kept
    | with_reducible apply State.driveRun_kept | with_reducible apply State.driveDuty_kept
    | with_reducible apply State.showSpeed_kept | with_reducible apply State.enterDrive_kept
    | with_reducible apply State.setGates_kept | split

theorem State.beginAlign_kept {a s : State} {x1} (h : Kept a s) :
    Kept a (State.beginAlign s x1) := by
  unfold State.beginAlign
  repeat' first
    | with_reducible assumption | with_reducible apply State.setDrive_kept | with_reducible apply State.driveRun_kept
    | with_reducible apply State.enterDrive_kept | with_reducible apply State.setGates_kept
    | with_reducible apply State.driveDuty_kept

theorem State.beginBrake_kept {a s : State} {x1} (h : Kept a s) :
    Kept a (State.beginBrake s x1) := by
  unfold State.beginBrake
  repeat' first
    | with_reducible assumption | with_reducible apply State.setDrive_kept | with_reducible apply State.driveRun_kept
    | with_reducible apply State.enterDrive_kept | with_reducible apply State.setGates_kept
    | with_reducible apply State.driveDuty_kept

theorem State.commutate_kept {a s : State} {x1} (h : Kept a s) :
    Kept a (State.commutate s x1) := by
  unfold State.commutate
  try lift_lets -underBinder
  repeat' first
    | with_reducible assumption
    | (intro x
       first
         | (refine have_of (a := a) x ?_ fun _ => ?_
            unfold x
            try lift_lets -underBinder
            rotate_left
            clear_value x)
         | clear_value x
         | skip)
    | lift_lets -underBinder | with_reducible apply State.setGates_kept | with_reducible apply State.setDrive_kept
    | with_reducible apply State.showSpeed_kept | (split <;> try lift_lets -underBinder)
    | with_reducible apply Kept.record | with_reducible rfl

theorem State.planComm_kept {a s : State} {x1 x2} (h : Kept a s) :
    Kept a (State.planComm s x1 x2) := by
  unfold State.planComm
  exact Kept.record h rfl rfl

theorem State.handover_kept {a s : State} {x1 x2} (h : Kept a s) :
    Kept a (State.handover s x1 x2) := by
  unfold State.handover
  repeat' first
    | with_reducible assumption | with_reducible apply State.enterDrive_kept
    | with_reducible apply State.planComm_kept | with_reducible apply State.setDrive_kept

theorem State.failDrive_kept {a s : State} {x1 x2} (h : Kept a s) :
    Kept a (State.failDrive s x1 x2) := by
  unfold State.failDrive
  repeat' first
    | with_reducible assumption | with_reducible apply State.wr_kept | with_reducible apply State.setDrive_kept
    | with_reducible apply State.note_kept | with_reducible apply State.enterDrive_kept
    | with_reducible apply State.driveLow_kept

theorem State.driveLimit_kept {a s : State} {x1} (h : Kept a s) :
    Kept a (State.driveLimit s x1) := by
  unfold State.driveLimit
  try lift_lets -underBinder
  repeat' first
    | with_reducible assumption
    | (intro x
       first
         | (refine have_of (a := a) x ?_ fun _ => ?_
            unfold x
            try lift_lets -underBinder
            rotate_left
            clear_value x)
         | clear_value x
         | skip)
    | lift_lets -underBinder | with_reducible apply each_kept | with_reducible apply State.setUnit_kept
    | with_reducible apply State.inc_kept | with_reducible apply State.setDrive_kept
    | (split <;> try lift_lets -underBinder) | with_reducible apply Kept.record | with_reducible rfl

theorem State.driveTrip_kept {a s : State} {x1} (h : Kept a s) :
    Kept a (State.driveTrip s x1) := by
  unfold State.driveTrip
  repeat' first
    | with_reducible assumption | with_reducible apply State.latchDrive_kept

theorem State.loadCheck_kept {a s : State} {x1 x2} (h : Kept a s) :
    Kept a (State.loadCheck s x1 x2) := by
  unfold State.loadCheck
  try lift_lets -underBinder
  repeat' first
    | with_reducible assumption
    | (intro x
       first
         | (refine have_of (a := a) x ?_ fun _ => ?_
            unfold x
            try lift_lets -underBinder
            rotate_left
            clear_value x)
         | clear_value x
         | skip)
    | lift_lets -underBinder | with_reducible apply State.setDrive_kept | with_reducible apply State.wr_kept
    | (split <;> try lift_lets -underBinder) | with_reducible apply Kept.record | with_reducible rfl

theorem State.speedLoop_kept {a s : State} {x1 x2} (h : Kept a s) :
    Kept a (State.speedLoop s x1 x2) := by
  unfold State.speedLoop
  repeat' first
    | with_reducible assumption | with_reducible apply State.setDrive_kept
    | with_reducible apply State.driveDuty_kept

theorem State.stopSlow_kept {a s : State} {x1} (h : Kept a s) :
    Kept a (State.stopSlow s x1) := by
  unfold State.stopSlow
  try lift_lets -underBinder
  repeat' first
    | with_reducible assumption
    | (intro x
       first
         | (refine have_of (a := a) x ?_ fun _ => ?_
            unfold x
            try lift_lets -underBinder
            rotate_left
            clear_value x)
         | clear_value x
         | skip)
    | lift_lets -underBinder | with_reducible apply State.enterDrive_kept | with_reducible apply State.driveLow_kept
    | with_reducible apply State.beginListen_kept | (split <;> try lift_lets -underBinder)
    | with_reducible apply Kept.record | with_reducible rfl

theorem State.bldcJob_kept {a s : State} {x1} (h : Kept a s) :
    Kept a (State.bldcJob s x1) := by
  unfold State.bldcJob
  try lift_lets -underBinder
  repeat' first
    | with_reducible assumption
    | (intro x
       first
         | (refine have_of (a := a) x ?_ fun _ => ?_
            unfold x
            try lift_lets -underBinder
            rotate_left
            clear_value x)
         | clear_value x
         | skip)
    | lift_lets -underBinder | with_reducible apply State.wr_kept | with_reducible apply State.driveDuty_kept
    | with_reducible apply State.setDrive_kept | with_reducible apply State.loadCheck_kept
    | with_reducible apply State.speedLoop_kept | with_reducible apply State.stopSlow_kept
    | (split <;> try lift_lets -underBinder) | with_reducible apply Kept.record | with_reducible rfl

theorem State.axisBit_kept {a s : State} {x1 x2 x3} (h : Kept a s) :
    Kept a (State.axisBit s x1 x2 x3) := by
  unfold State.axisBit
  exact Kept.record h rfl rfl

theorem State.targetHere_kept {a s : State} {x1} (h : Kept a s) :
    Kept a (State.targetHere s x1) := by
  unfold State.targetHere
  exact Kept.record h rfl rfl

theorem State.axisLow_kept {a s : State} {x1 x2} (h : Kept a s) :
    Kept a (State.axisLow s x1 x2) := by
  unfold State.axisLow
  repeat' first
    | with_reducible assumption | with_reducible apply State.setAxis_kept | with_reducible apply State.cutUnits_kept
    | with_reducible apply State.axisBit_kept | with_reducible apply State.wr_kept

theorem State.latchAxis_kept {a s : State} {x1 x2} (h : Kept a s) :
    Kept a (State.latchAxis s x1 x2) := by
  unfold State.latchAxis
  repeat' first
    | with_reducible assumption | with_reducible apply State.wr_kept | with_reducible apply State.axisLow_kept
    | with_reducible apply State.setAxis_kept | with_reducible apply State.note_kept
    | with_reducible apply State.dropJobs_kept | split

theorem targetSet_kept {a s : State} {x1 x2 x3} (h : Kept a s) :
    Kept a (targetSet x1 x2 s x3) := by
  unfold targetSet
  repeat' first
    | with_reducible assumption | with_reducible apply State.leaveStandby_kept | with_reducible apply State.wr_kept
    | with_reducible apply State.setAxis_kept

theorem referenceSet_kept {a s : State} {x1 x2 x3} (h : Kept a s) :
    Kept a (referenceSet x1 x2 s x3) := by
  unfold referenceSet
  repeat' first
    | with_reducible assumption | with_reducible apply State.setAxis_kept | with_reducible apply State.axisBit_kept
    | with_reducible apply State.wr_kept

theorem State.axisStands_kept {a s : State} {x1} (h : Kept a s) :
    Kept a (State.axisStands s x1) := by
  unfold State.axisStands
  repeat' first
    | with_reducible assumption | with_reducible apply State.wr_kept | with_reducible apply State.setAxis_kept

theorem State.axisRun_kept {a s : State} {x1} (h : Kept a s) :
    Kept a (State.axisRun s x1) := by
  unfold State.axisRun
  try lift_lets -underBinder
  repeat' first
    | with_reducible assumption
    | (intro x
       first
         | (refine have_of (a := a) x ?_ fun _ => ?_
            unfold x
            try lift_lets -underBinder
            rotate_left
            clear_value x)
         | clear_value x
         | skip)
    | lift_lets -underBinder | with_reducible apply each_kept | with_reducible apply State.startUnit_kept
    | (split <;> try lift_lets -underBinder) | with_reducible apply Kept.record | with_reducible rfl

theorem State.applyMove_kept {a s : State} {x1 x2 x3 x4} (h : Kept a s) :
    Kept a (State.applyMove s x1 x2 x3 x4) := by
  unfold State.applyMove
  try lift_lets -underBinder
  repeat' first
    | with_reducible assumption
    | (intro x
       first
         | (refine have_of (a := a) x ?_ fun _ => ?_
            unfold x
            try lift_lets -underBinder
            rotate_left
            clear_value x)
         | clear_value x
         | skip)
    | lift_lets -underBinder | with_reducible apply State.axisStands_kept | with_reducible apply State.setAxis_kept
    | with_reducible apply State.wr_kept | with_reducible apply State.inc_kept
    | (split <;> try lift_lets -underBinder) | with_reducible apply Kept.record | with_reducible rfl

theorem State.stopHere_kept {a s : State} {x1 x2} (h : Kept a s) :
    Kept a (State.stopHere s x1 x2) := by
  unfold State.stopHere
  repeat' first
    | with_reducible assumption | with_reducible apply State.targetHere_kept
    | with_reducible apply State.axisStands_kept | with_reducible apply State.axisBit_kept | split

theorem State.profileStep_kept {a s : State} {x1} (h : Kept a s) :
    Kept a (State.profileStep s x1) := by
  unfold State.profileStep
  try lift_lets -underBinder
  repeat' first
    | with_reducible assumption
    | (intro x
       first
         | (refine have_of (a := a) x ?_ fun _ => ?_
            unfold x
            try lift_lets -underBinder
            rotate_left
            clear_value x)
         | clear_value x
         | skip)
    | lift_lets -underBinder | with_reducible apply State.stopHere_kept | with_reducible apply State.applyMove_kept
    | with_reducible apply State.axisBit_kept | with_reducible apply State.axisRun_kept
    | (split <;> try lift_lets -underBinder) | with_reducible apply Kept.record | with_reducible rfl

theorem State.followStop_kept {a s : State} {x1 x2} (h : Kept a s) :
    Kept a (State.followStop s x1 x2) := by
  unfold State.followStop
  repeat' first
    | with_reducible assumption | with_reducible apply State.axisStands_kept
    | with_reducible apply State.setAxis_kept | with_reducible apply State.axisBit_kept | split

theorem State.followDown_kept {a s : State} {x1 x2} (h : Kept a s) :
    Kept a (State.followDown s x1 x2) := by
  unfold State.followDown
  try lift_lets -underBinder
  repeat' first
    | with_reducible assumption
    | (intro x
       first
         | (refine have_of (a := a) x ?_ fun _ => ?_
            unfold x
            try lift_lets -underBinder
            rotate_left
            clear_value x)
         | clear_value x
         | skip)
    | lift_lets -underBinder | with_reducible apply State.setAxis_kept | with_reducible apply State.followStop_kept
    | (split <;> try lift_lets -underBinder) | with_reducible apply Kept.record | with_reducible rfl

theorem State.followStep_kept {a s : State} {x1} (h : Kept a s) :
    Kept a (State.followStep s x1) := by
  unfold State.followStep
  try lift_lets -underBinder
  repeat' first
    | with_reducible assumption
    | (intro x
       first
         | (refine have_of (a := a) x ?_ fun _ => ?_
            unfold x
            try lift_lets -underBinder
            rotate_left
            clear_value x)
         | clear_value x
         | skip)
    | lift_lets -underBinder | with_reducible apply State.followStop_kept
    | with_reducible apply State.followDown_kept | with_reducible apply State.axisStands_kept
    | with_reducible apply State.axisBit_kept | with_reducible apply State.axisRun_kept
    | with_reducible apply State.setAxis_kept | with_reducible apply State.wr_kept
    | (split <;> try lift_lets -underBinder) | with_reducible apply Kept.record | with_reducible rfl

theorem State.profileJob_kept {a s : State} {x1 x2} (h : Kept a s) :
    Kept a (State.profileJob s x1 x2) := by
  unfold State.profileJob
  repeat' first
    | with_reducible assumption | with_reducible apply State.followStep_kept
    | with_reducible apply State.profileStep_kept | with_reducible apply State.setAxis_kept
    | with_reducible apply State.wr_kept | with_reducible apply State.setEng_kept | split

theorem State.stepJob_kept {a s : State} {x1} (h : Kept a s) :
    Kept a (State.stepJob s x1) := by
  unfold State.stepJob
  try lift_lets -underBinder
  repeat' first
    | with_reducible assumption
    | (intro x
       first
         | (refine have_of (a := a) x ?_ fun _ => ?_
            unfold x
            try lift_lets -underBinder
            rotate_left
            clear_value x)
         | clear_value x
         | skip)
    | lift_lets -underBinder | with_reducible apply State.setAxis_kept | with_reducible apply each_kept
    | with_reducible apply State.stageUnit_kept | (split <;> try lift_lets -underBinder)
    | with_reducible apply Kept.record | with_reducible rfl

theorem State.stoDrive_kept {a s : State} {x1} (h : Kept a s) :
    Kept a (State.stoDrive s x1) := by
  unfold State.stoDrive
  repeat' first
    | with_reducible assumption | with_reducible apply State.driveCut_kept | with_reducible apply State.wr_kept
    | with_reducible apply State.setDrive_kept

theorem State.stoAxis_kept {a s : State} {x1} (h : Kept a s) :
    Kept a (State.stoAxis s x1) := by
  unfold State.stoAxis
  repeat' first
    | with_reducible assumption | with_reducible apply State.axisLow_kept

theorem State.freeDrive_kept {a s : State} {x1} (h : Kept a s) :
    Kept a (State.freeDrive s x1) := by
  unfold State.freeDrive
  repeat' first
    | with_reducible assumption | with_reducible apply State.wr_kept | with_reducible apply State.enterDrive_kept
    | split

theorem State.freeAxis_kept {a s : State} {x1} (h : Kept a s) :
    Kept a (State.freeAxis s x1) := by
  unfold State.freeAxis
  repeat' first
    | with_reducible assumption | with_reducible apply State.axisBit_kept
    | with_reducible apply State.targetHere_kept | with_reducible apply State.wr_kept
    | with_reducible apply State.setAxis_kept | split

theorem State.stoOut_kept {a s : State} {x1} (h : Kept a s) :
    Kept a (State.stoOut s x1) := by
  unfold State.stoOut
  repeat' first
    | with_reducible assumption | with_reducible apply each_kept | with_reducible apply State.stoAxis_kept
    | with_reducible apply State.stoDrive_kept

theorem State.freeOut_kept {a s : State} {x1} (h : Kept a s) :
    Kept a (State.freeOut s x1) := by
  unfold State.freeOut
  repeat' first
    | with_reducible assumption | with_reducible apply each_kept | with_reducible apply State.freeAxis_kept
    | with_reducible apply State.freeDrive_kept

theorem State.ss1Drive_kept {a s : State} {x1} (h : Kept a s) :
    Kept a (State.ss1Drive s x1) := by
  unfold State.ss1Drive
  try lift_lets -underBinder
  repeat' first
    | with_reducible assumption
    | (intro x
       first
         | (refine have_of (a := a) x ?_ fun _ => ?_
            unfold x
            try lift_lets -underBinder
            rotate_left
            clear_value x)
         | clear_value x
         | skip)
    | lift_lets -underBinder | with_reducible apply State.setDrive_kept | with_reducible apply State.enterDrive_kept
    | with_reducible apply State.driveCut_kept | (split <;> try lift_lets -underBinder)
    | with_reducible apply Kept.record | with_reducible rfl

theorem State.ss1Axis_kept {a s : State} {x1} (h : Kept a s) :
    Kept a (State.ss1Axis s x1) := by
  unfold State.ss1Axis
  exact Kept.record h rfl rfl

theorem State.ss1Out_kept {a s : State} {x1} (h : Kept a s) :
    Kept a (State.ss1Out s x1) := by
  unfold State.ss1Out
  repeat' first
    | with_reducible assumption | with_reducible apply each_kept | with_reducible apply State.ss1Axis_kept
    | with_reducible apply State.ss1Drive_kept

theorem State.addSums_kept {a s : State} {x1 x2} (h : Kept a s) :
    Kept a (State.addSums s x1 x2) := by
  unfold State.addSums
  try lift_lets -underBinder
  repeat' first
    | with_reducible assumption
    | (intro x
       first
         | (refine have_of (a := a) x ?_ fun _ => ?_
            unfold x
            try lift_lets -underBinder
            rotate_left
            clear_value x)
         | clear_value x
         | skip)
    | lift_lets -underBinder | with_reducible apply each_kept | with_reducible apply State.setSlot_kept
    | (split <;> try lift_lets -underBinder) | with_reducible apply Kept.record | with_reducible rfl

theorem State.enqueue_kept {a s : State} {x1 x2} (h : Kept a s) :
    Kept a (State.enqueue s x1 x2) := by
  unfold State.enqueue
  try lift_lets -underBinder
  repeat' first
    | with_reducible assumption
    | (intro x
       first
         | (refine have_of (a := a) x ?_ fun _ => ?_
            unfold x
            try lift_lets -underBinder
            rotate_left
            clear_value x)
         | clear_value x
         | skip)
    | lift_lets -underBinder | with_reducible apply State.inc_kept | with_reducible apply State.setQueue_kept
    | (split <;> try lift_lets -underBinder) | with_reducible apply Kept.record | with_reducible rfl

theorem State.watchLink_kept {a s : State} {x1 x2} (h : Kept a s) :
    Kept a (State.watchLink s x1 x2) := by
  unfold State.watchLink
  repeat' first
    | with_reducible assumption | with_reducible apply State.wr_kept | with_reducible apply State.setPower_kept
    | split

theorem State.watchCurrents_kept {a s : State} {x1 x2} (h : Kept a s) :
    Kept a (State.watchCurrents s x1 x2) := by
  unfold State.watchCurrents
  repeat' first
    | with_reducible assumption | with_reducible apply State.setPower_kept | split

theorem State.afeTrip_kept {a s : State} (h : Kept a s) :
    Kept a (State.afeTrip s) := by
  unfold State.afeTrip
  repeat' first
    | with_reducible assumption | with_reducible apply State.controlledStop_kept
    | with_reducible apply State.latchAfe_kept

theorem State.crossed_kept {a s : State} {x1 x2} (h : Kept a s) :
    Kept a (State.crossed s x1 x2) := by
  unfold State.crossed
  repeat' first
    | with_reducible assumption | with_reducible apply State.level1_kept | with_reducible apply State.level2_kept
    | with_reducible apply State.afeTrip_kept | with_reducible apply State.driveLimit_kept
    | with_reducible apply State.driveTrip_kept | with_reducible apply State.latchAxis_kept | split

theorem State.fltGroup_kept {a s : State} {x1} (h : Kept a s) :
    Kept a (State.fltGroup s x1) := by
  unfold State.fltGroup
  try lift_lets -underBinder
  repeat' first
    | with_reducible assumption
    | (intro x
       first
         | (refine have_of (a := a) x ?_ fun _ => ?_
            unfold x
            try lift_lets -underBinder
            rotate_left
            clear_value x)
         | clear_value x
         | skip)
    | lift_lets -underBinder | with_reducible apply State.setPower_kept | with_reducible apply State.wr_kept
    | with_reducible apply State.openCorr_kept | with_reducible apply each_kept
    | with_reducible apply State.setUnit_kept | with_reducible apply when'_kept
    | with_reducible apply State.dropJobs_kept | with_reducible apply State.latchDrive_kept
    | with_reducible apply State.latchAxis_kept | (split <;> try lift_lets -underBinder)
    | with_reducible apply Kept.record | with_reducible rfl

end Sys2Proof.Machine
end

