-- ==== Sys2Proof/Laws/KeptEngine.lean ====
section
/-! SUPPORT. What the operations of the loop engines, the supervisor and the clocks keep (Kept): one lemma for each. -/

namespace Sys2Proof.Machine

set_option Elab.async false

set_option linter.unreachableTactic false
set_option linter.unusedTactic false

theorem State.latchOutputs_kept {a s : State} {x1} (h : Kept a s) :
    Kept a (State.latchOutputs s x1) := by
  unfold State.latchOutputs
  repeat' first
    | with_reducible assumption | with_reducible apply State.latchAfe_kept | with_reducible apply State.setUnit_kept
    | with_reducible apply State.latchDrive_kept | with_reducible apply State.draw_kept
    | with_reducible apply State.latchAxis_kept | split

theorem State.latchSlot_kept {a s : State} {x1 x2 x3 x4} (h : Kept a s) :
    Kept a (State.latchSlot s x1 x2 x3 x4) := by
  unfold State.latchSlot
  try lift_lets -underBinder
  repeat' first
    | with_reducible assumption
    | (intro x
       first
         | (refine have_of (a := a) x ?_ fun _ => ?_
            unfold x
            try lift_lets -underBinder
            rotate_left
            clear_value x)
         | clear_value x
         | skip)
    | lift_lets -underBinder | with_reducible apply State.openCorr_kept
    | with_reducible apply State.latchOutputs_kept | with_reducible apply State.dropJobs_kept
    | with_reducible apply State.setSlot_kept | with_reducible apply State.latchChans_kept
    | with_reducible apply State.latchDab_kept | (split <;> try lift_lets -underBinder)
    | with_reducible apply Kept.record | with_reducible rfl

theorem State.takeSamples_kept {a s : State} {x1 x2 x3} (h : Kept a s) :
    Kept a (State.takeSamples s x1 x2 x3) := by
  unfold State.takeSamples
  try lift_lets -underBinder
  repeat' first
    | with_reducible assumption
    | (intro x
       first
         | (refine have_of (a := a) x ?_ fun _ => ?_
            unfold x
            try lift_lets -underBinder
            rotate_left
            clear_value x)
         | skip)
    | lift_lets -underBinder | with_reducible apply State.setSlot_kept | with_reducible apply State.setUnit_kept
    | with_reducible apply State.setChan_kept | exact Kept.chan ‹_› ‹_› _ | exact slice_safe_cut _
    | exact Slice.Safe.same (slice_safe_cut {}) rfl rfl rfl | (split <;> try lift_lets -underBinder)
    | with_reducible apply Kept.record | with_reducible rfl

theorem State.beginRamp_kept {a s : State} {x1} (h : Kept a s) :
    Kept a (State.beginRamp s x1) := by
  unfold State.beginRamp
  repeat' first
    | with_reducible assumption | with_reducible apply State.setWord4_kept | with_reducible apply State.setLaw_kept
    | with_reducible apply State.setRun_kept

theorem State.drainStop_kept {a s : State} {x1} (h : Kept a s) :
    Kept a (State.drainStop s x1) := by
  unfold State.drainStop
  try lift_lets -underBinder
  repeat' first
    | with_reducible assumption
    | (intro x
       first
         | (refine have_of (a := a) x ?_ fun _ => ?_
            unfold x
            try lift_lets -underBinder
            rotate_left
            clear_value x)
         | clear_value x
         | skip)
    | lift_lets -underBinder | with_reducible apply each_kept | with_reducible apply State.stopUnit_kept
    | with_reducible apply State.setRunSt_kept | (split <;> try lift_lets -underBinder)
    | with_reducible apply Kept.record | with_reducible rfl

theorem State.drainRelease_kept {a s : State} {x1} (h : Kept a s) :
    Kept a (State.drainRelease s x1).1 := by
  unfold State.drainRelease
  try lift_lets -underBinder
  repeat' first
    | with_reducible assumption
    | (intro x
       first
         | (refine have_of (a := a) x ?_ fun _ => ?_
            unfold x
            try lift_lets -underBinder
            rotate_left
            clear_value x)
         | clear_value x
         | skip)
    | lift_lets -underBinder | with_reducible apply State.setWord4_kept | with_reducible apply State.setLaw_kept
    | with_reducible apply State.drainStop_kept | with_reducible apply State.setRunSt_kept
    | with_reducible apply each_kept | with_reducible apply State.stopUnit_kept
    | with_reducible apply State.beginRamp_kept | (split <;> try lift_lets -underBinder)
    | with_reducible apply Kept.record | with_reducible rfl

theorem State.wakeEngines_kept {a s : State} {x1 x2} (h : Kept a s) :
    Kept a (State.wakeEngines s x1 x2) := by
  unfold State.wakeEngines
  try lift_lets -underBinder
  repeat' first
    | with_reducible assumption
    | (intro x
       first
         | (refine have_of (a := a) x ?_ fun _ => ?_
            unfold x
            try lift_lets -underBinder
            rotate_left
            clear_value x)
         | clear_value x
         | skip)
    | lift_lets -underBinder | with_reducible apply each_kept | with_reducible apply State.setEng_kept
    | (split <;> try lift_lets -underBinder) | with_reducible apply Kept.record | with_reducible rfl

theorem State.postJob_kept {a s : State} {x1 x2} (h : Kept a s) :
    Kept a (State.postJob s x1 x2) := by
  unfold State.postJob
  try lift_lets -underBinder
  repeat' first
    | with_reducible assumption
    | (intro x
       first
         | (refine have_of (a := a) x ?_ fun _ => ?_
            unfold x
            try lift_lets -underBinder
            rotate_left
            clear_value x)
         | clear_value x
         | skip)
    | lift_lets -underBinder | with_reducible apply each_kept | with_reducible apply State.setEng_kept
    | with_reducible apply State.wakeEngines_kept | with_reducible apply State.wr_kept
    | (split <;> try lift_lets -underBinder) | with_reducible apply Kept.record | with_reducible rfl

theorem State.post_kept {a s : State} {x1 x2} (h : Kept a s) :
    Kept a (State.post s x1 x2) := by
  unfold State.post
  try lift_lets -underBinder
  repeat' first
    | with_reducible assumption
    | (intro x
       first
         | (refine have_of (a := a) x ?_ fun _ => ?_
            unfold x
            try lift_lets -underBinder
            rotate_left
            clear_value x)
         | clear_value x
         | skip)
    | lift_lets -underBinder | with_reducible apply State.setSlot_kept | with_reducible apply State.postJob_kept
    | with_reducible apply State.noteAt_kept | with_reducible apply State.latchSlot_kept
    | (split <;> try lift_lets -underBinder) | with_reducible apply Kept.record | with_reducible rfl

theorem State.release_kept {a s : State} {x1 x2 x3} (h : Kept a s) : Kept a (s.release x1 x2 x3) := by
  unfold State.release
  extract_lets q w x
  have hx : Kept a x := State.takeSamples_kept (State.setSlot_kept h)
  clear_value x
  split
  · rename_i c _
    split
    · exact State.post_kept hx
    · have hd : Kept a (x.drainRelease c).1 := State.drainRelease_kept hx
      generalize x.drainRelease c = r at hd ⊢
      obtain ⟨y, go⟩ := r
      dsimp only at hd ⊢
      split
      · exact State.post_kept hd
      · exact hd
  · exact State.post_kept hx

theorem State.claimJob_kept {a s : State} {x1 x2 x3} (h : Kept a s) :
    Kept a (State.claimJob s x1 x2 x3) := by
  unfold State.claimJob
  repeat' first
    | with_reducible assumption | with_reducible apply State.setEng_kept | with_reducible apply State.setSlot_kept

theorem State.arbitrate_kept {a s : State} {x1 x2} (h : Kept a s) :
    Kept a (State.arbitrate s x1 x2) := by
  unfold State.arbitrate
  try lift_lets -underBinder
  repeat' first
    | with_reducible assumption
    | (intro x
       first
         | (refine have_of (a := a) x ?_ fun _ => ?_
            unfold x
            try lift_lets -underBinder
            rotate_left
            clear_value x)
         | clear_value x
         | skip)
    | lift_lets -underBinder | with_reducible apply each_kept | with_reducible apply State.setEng_kept
    | with_reducible apply State.claimJob_kept | (split <;> try lift_lets -underBinder)
    | with_reducible apply Kept.record | with_reducible rfl

theorem State.startJob_kept {a s : State} {x1 x2 x3 x4 x5} (h : Kept a s) :
    Kept a (State.startJob s x1 x2 x3 x4 x5) := by
  unfold State.startJob
  repeat' first
    | with_reducible assumption | with_reducible apply State.setSlot_kept | with_reducible apply State.draw_kept
    | with_reducible apply State.inc_kept | with_reducible apply State.customStart_kept
    | with_reducible apply State.setEng_kept | split

theorem State.takeUpTo_kept {a s : State} {x1 x2} (h : Kept a s) :
    Kept a (State.takeUpTo s x1 x2) := by
  unfold State.takeUpTo
  try lift_lets -underBinder
  repeat' first
    | with_reducible assumption
    | (intro x
       first
         | (refine have_of (a := a) x ?_ fun _ => ?_
            unfold x
            try lift_lets -underBinder
            rotate_left
            clear_value x)
         | clear_value x
         | skip)
    | lift_lets -underBinder | with_reducible apply each_kept | with_reducible apply State.arbitrate_kept
    | (split <;> try lift_lets -underBinder) | with_reducible apply Kept.record | with_reducible rfl

theorem State.stageWord_kept {a s : State} {x1 x2 x3} (h : Kept a s) :
    Kept a (State.stageWord s x1 x2 x3) := by
  unfold State.stageWord
  exact Kept.record h rfl rfl

theorem State.jobCommit_kept {a s : State} {x1 x2 x3} (h : Kept a s) :
    Kept a (State.jobCommit s x1 x2 x3) := by
  unfold State.jobCommit
  repeat' first
    | with_reducible assumption | with_reducible apply State.commitUnit_kept
    | with_reducible apply State.setRunSt_kept | split

theorem State.handOver_kept {a s : State} {x1 x2 x3} (h : Kept a s) :
    Kept a (State.handOver s x1 x2 x3) := by
  unfold State.handOver
  try lift_lets -underBinder
  repeat' first
    | with_reducible assumption
    | (intro x
       first
         | (refine have_of (a := a) x ?_ fun _ => ?_
            unfold x
            try lift_lets -underBinder
            rotate_left
            clear_value x)
         | clear_value x
         | skip)
    | lift_lets -underBinder | with_reducible apply each_kept | with_reducible apply State.stageWord_kept
    | with_reducible apply State.jobCommit_kept | (split <;> try lift_lets -underBinder)
    | with_reducible apply Kept.record | with_reducible rfl

theorem State.templateJob_kept {a s : State} {x1 x2 x3 x4} (h : Kept a s) :
    Kept a (State.templateJob s x1 x2 x3 x4) := by
  unfold State.templateJob
  repeat' first
    | with_reducible assumption | with_reducible apply State.afeJob_kept | with_reducible apply State.gridJob_kept
    | with_reducible apply State.linkJob_kept | with_reducible apply State.chopJob_kept
    | with_reducible apply State.bldcJob_kept | with_reducible apply State.stepJob_kept
    | with_reducible apply State.profileJob_kept | with_reducible apply State.lawJob_kept
    | with_reducible apply State.dabJob_kept | split

theorem State.countJob_kept {a s : State} {x1 x2 x3} (h : Kept a s) :
    Kept a (State.countJob s x1 x2 x3) := by
  unfold State.countJob
  repeat' first
    | with_reducible assumption | with_reducible apply State.setSlot_kept | with_reducible apply State.inc_kept
    | with_reducible apply State.wr_kept

theorem State.finishJob_kept {a s : State} {x1 x2 x3} (h : Kept a s) :
    Kept a (State.finishJob s x1 x2 x3) := by
  unfold State.finishJob
  repeat' first
    | with_reducible assumption | with_reducible apply State.setSlot_kept | with_reducible apply State.handOver_kept
    | with_reducible apply State.setEng_kept | with_reducible apply State.countJob_kept
    | with_reducible apply State.standingSources_kept | split

theorem descriptorSet_kept {a s : State} {x1 x2} (h : Kept a s) :
    Kept a (descriptorSet x1 s x2) := by
  unfold descriptorSet
  repeat' first
    | with_reducible assumption | with_reducible apply State.wr_kept | with_reducible apply State.setDesc_kept

theorem State.admitAfter_kept {a s : State} {x1 x2} (h : Kept a s) :
    Kept a (State.admitAfter s x1 x2) := by
  unfold State.admitAfter
  try lift_lets -underBinder
  repeat' first
    | with_reducible assumption
    | (intro x
       first
         | (refine have_of (a := a) x ?_ fun _ => ?_
            unfold x
            try lift_lets -underBinder
            rotate_left
            clear_value x)
         | clear_value x
         | skip)
    | lift_lets -underBinder | with_reducible apply State.admitDie_kept | with_reducible apply State.wr_kept
    | (split <;> try lift_lets -underBinder) | with_reducible apply Kept.record | with_reducible rfl

theorem removeSet_kept {a s : State} {x1 x2} (h : Kept a s) :
    Kept a (removeSet x1 s x2) := by
  unfold removeSet
  try lift_lets -underBinder
  repeat' first
    | with_reducible assumption
    | (intro x
       first
         | (refine have_of (a := a) x ?_ fun _ => ?_
            unfold x
            try lift_lets -underBinder
            rotate_left
            clear_value x)
         | clear_value x
         | skip)
    | lift_lets -underBinder | with_reducible apply State.setDesc_kept | with_reducible apply State.wr_kept
    | with_reducible apply State.admitAfter_kept | with_reducible apply State.replaceIds_kept
    | (split <;> try lift_lets -underBinder) | with_reducible apply Kept.record | with_reducible rfl

theorem State.setSup_kept {a s : State} {x1} (h : Kept a s) :
    Kept a (State.setSup s x1) := by
  unfold State.setSup
  exact Kept.record h rfl rfl

theorem State.setSin_kept {a s : State} {x1 x2} (h : Kept a s) :
    Kept a (State.setSin s x1 x2) := by
  unfold State.setSin
  exact Kept.record h rfl rfl

theorem State.setSout_kept {a s : State} {x1 x2} (h : Kept a s) :
    Kept a (State.setSout s x1 x2) := by
  unfold State.setSout
  exact Kept.record h rfl rfl

theorem State.switchOff_kept {a s : State} {x1} (h : Kept a s) :
    Kept a (State.switchOff s x1) := by
  unfold State.switchOff
  repeat' first
    | with_reducible assumption | with_reducible apply State.wr_kept | with_reducible apply State.setSout_kept
    | with_reducible apply State.stoOut_kept

theorem State.switchOn_kept {a s : State} {x1} (h : Kept a s) :
    Kept a (State.switchOn s x1) := by
  unfold State.switchOn
  repeat' first
    | with_reducible assumption | with_reducible apply State.freeOut_kept | with_reducible apply State.wr_kept
    | with_reducible apply State.setSout_kept

theorem State.grantOutputs_kept {a s : State} (h : Kept a s) :
    Kept a (State.grantOutputs s) := by
  unfold State.grantOutputs
  try lift_lets -underBinder
  repeat' first
    | with_reducible assumption
    | (intro x
       first
         | (refine have_of (a := a) x ?_ fun _ => ?_
            unfold x
            try lift_lets -underBinder
            rotate_left
            clear_value x)
         | clear_value x
         | skip)
    | lift_lets -underBinder | with_reducible apply each_kept | with_reducible apply State.switchOn_kept
    | (split <;> try lift_lets -underBinder) | with_reducible apply Kept.record | with_reducible rfl

theorem State.functionOff_kept {a s : State} {x1} (h : Kept a s) :
    Kept a (State.functionOff s x1) := by
  unfold State.functionOff
  try lift_lets -underBinder
  repeat' first
    | with_reducible assumption
    | (intro x
       first
         | (refine have_of (a := a) x ?_ fun _ => ?_
            unfold x
            try lift_lets -underBinder
            rotate_left
            clear_value x)
         | clear_value x
         | skip)
    | lift_lets -underBinder | with_reducible apply State.switchOff_kept | with_reducible apply State.wr_kept
    | (split <;> try lift_lets -underBinder) | with_reducible apply Kept.record | with_reducible rfl

theorem State.openAll_kept {a s : State} (h : Kept a s) :
    Kept a (State.openAll s) := by
  unfold State.openAll
  repeat' first
    | with_reducible assumption | with_reducible apply State.wr_kept | with_reducible apply each_kept
    | with_reducible apply State.openKdrv_kept

theorem State.showActive_kept {a s : State} (h : Kept a s) :
    Kept a (State.showActive s) := by
  unfold State.showActive
  try lift_lets -underBinder
  repeat' first
    | with_reducible assumption
    | (intro x
       first
         | (refine have_of (a := a) x ?_ fun _ => ?_
            unfold x
            try lift_lets -underBinder
            rotate_left
            clear_value x)
         | clear_value x
         | skip)
    | lift_lets -underBinder | with_reducible apply State.wr_kept | with_reducible apply State.setHold_kept
    | with_reducible apply State.clearHold_kept | (split <;> try lift_lets -underBinder)
    | with_reducible apply Kept.record | with_reducible rfl

theorem State.activeNote_kept {a s : State} {x1} (h : Kept a s) :
    Kept a (State.activeNote s x1) := by
  unfold State.activeNote
  repeat' first
    | with_reducible assumption | with_reducible apply State.raise_kept

theorem State.emergencyStop_kept {a s : State} {x1} (h : Kept a s) :
    Kept a (State.emergencyStop s x1) := by
  unfold State.emergencyStop
  try lift_lets -underBinder
  repeat' first
    | with_reducible assumption
    | (intro x
       first
         | (refine have_of (a := a) x ?_ fun _ => ?_
            unfold x
            try lift_lets -underBinder
            rotate_left
            clear_value x)
         | clear_value x
         | skip)
    | lift_lets -underBinder | with_reducible apply State.raiseAll_kept | with_reducible apply State.setSup_kept
    | with_reducible apply each_kept | with_reducible apply State.ss1Out_kept
    | with_reducible apply State.functionOff_kept | with_reducible apply State.setSout_kept
    | with_reducible apply State.stopWith_kept | (split <;> try lift_lets -underBinder)
    | with_reducible apply Kept.record | with_reducible rfl

theorem State.doorOpen_kept {a s : State} {x1} (h : Kept a s) :
    Kept a (State.doorOpen s x1) := by
  unfold State.doorOpen
  repeat' first
    | with_reducible assumption | with_reducible apply State.setSup_kept | with_reducible apply State.raiseAll_kept
    | with_reducible apply each_kept | with_reducible apply State.functionOff_kept

theorem State.adisDue_kept {a s : State} (h : Kept a s) :
    Kept a (State.adisDue s) := by
  unfold State.adisDue
  exact Kept.record h rfl rfl

theorem State.fireDemand_kept {a s : State} {x1} (h : Kept a s) :
    Kept a (State.fireDemand s x1) := by
  unfold State.fireDemand
  repeat' first
    | with_reducible assumption | with_reducible apply State.raiseAll_kept | with_reducible apply each_kept
    | with_reducible apply State.functionOff_kept | with_reducible apply State.stopWith_kept
    | with_reducible apply State.afeLow_kept | with_reducible apply State.openAll_kept
    | with_reducible apply State.adisDue_kept | with_reducible apply State.setSup_kept

theorem State.demandFn_kept {a s : State} {x1} (h : Kept a s) :
    Kept a (State.demandFn s x1) := by
  unfold State.demandFn
  repeat' first
    | with_reducible assumption | with_reducible apply State.activeNote_kept
    | with_reducible apply State.showActive_kept | with_reducible apply State.setHold_kept
    | with_reducible apply State.openCorr_kept | with_reducible apply State.emergencyStop_kept
    | with_reducible apply State.doorOpen_kept | with_reducible apply State.fireDemand_kept | split

theorem State.demandInput_kept {a s : State} {x1} (h : Kept a s) :
    Kept a (State.demandInput s x1) := by
  unfold State.demandInput
  try lift_lets -underBinder
  repeat' first
    | with_reducible assumption
    | (intro x
       first
         | (refine have_of (a := a) x ?_ fun _ => ?_
            unfold x
            try lift_lets -underBinder
            rotate_left
            clear_value x)
         | clear_value x
         | skip)
    | lift_lets -underBinder | with_reducible apply State.setSin_kept | with_reducible apply State.demandFn_kept
    | (split <;> try lift_lets -underBinder) | with_reducible apply Kept.record | with_reducible rfl

theorem State.dropInput_kept {a s : State} {x1} (h : Kept a s) :
    Kept a (State.dropInput s x1) := by
  unfold State.dropInput
  try lift_lets -underBinder
  repeat' first
    | with_reducible assumption
    | (intro x
       first
         | (refine have_of (a := a) x ?_ fun _ => ?_
            unfold x
            try lift_lets -underBinder
            rotate_left
            clear_value x)
         | clear_value x
         | skip)
    | lift_lets -underBinder | with_reducible apply State.setSin_kept | with_reducible apply State.activeNote_kept
    | with_reducible apply State.showActive_kept | with_reducible apply State.openCorr_kept
    | (split <;> try lift_lets -underBinder) | with_reducible apply Kept.record | with_reducible rfl

theorem State.faultInput_kept {a s : State} {x1 x2} (h : Kept a s) :
    Kept a (State.faultInput s x1 x2) := by
  unfold State.faultInput
  repeat' first
    | with_reducible assumption | with_reducible apply State.setSin_kept
    | with_reducible apply State.demandInput_kept | with_reducible apply State.supFault_kept
    | with_reducible apply State.setHold_kept | with_reducible apply State.wr_kept | split

theorem State.ownPulse_kept {a s : State} {x1} (h : Kept a s) :
    Kept a (State.ownPulse s x1) := by
  unfold State.ownPulse
  try lift_lets -underBinder
  repeat' first
    | with_reducible assumption
    | (intro x
       first
         | (refine have_of (a := a) x ?_ fun _ => ?_
            unfold x
            try lift_lets -underBinder
            rotate_left
            clear_value x)
         | clear_value x
         | skip)
    | lift_lets -underBinder | with_reducible apply State.setSin_kept | with_reducible apply State.faultInput_kept
    | (split <;> try lift_lets -underBinder) | with_reducible apply Kept.record | with_reducible rfl

theorem State.sampleInput_kept {a s : State} {x1 x2} (h : Kept a s) :
    Kept a (State.sampleInput s x1 x2) := by
  unfold State.sampleInput
  try lift_lets -underBinder
  repeat' first
    | with_reducible assumption
    | (intro x
       first
         | (refine have_of (a := a) x ?_ fun _ => ?_
            unfold x
            try lift_lets -underBinder
            rotate_left
            clear_value x)
         | clear_value x
         | skip)
    | lift_lets -underBinder | with_reducible apply State.wr_kept | with_reducible apply State.setSin_kept
    | with_reducible apply State.ownPulse_kept | with_reducible apply State.faultInput_kept
    | (split <;> try lift_lets -underBinder) | with_reducible apply Kept.record | with_reducible rfl

theorem State.sampleInputs_kept {a s : State} {x1} (h : Kept a s) :
    Kept a (State.sampleInputs s x1) := by
  unfold State.sampleInputs
  try lift_lets -underBinder
  repeat' first
    | with_reducible assumption
    | (intro x
       first
         | (refine have_of (a := a) x ?_ fun _ => ?_
            unfold x
            try lift_lets -underBinder
            rotate_left
            clear_value x)
         | clear_value x
         | skip)
    | lift_lets -underBinder | with_reducible apply each_kept | with_reducible apply State.sampleInput_kept
    | (split <;> try lift_lets -underBinder) | with_reducible apply Kept.record | with_reducible rfl

theorem State.watchPairs_kept {a s : State} (h : Kept a s) :
    Kept a (State.watchPairs s) := by
  unfold State.watchPairs
  exact Kept.record h rfl rfl

theorem State.stuckOn_kept {a s : State} {x1} (h : Kept a s) :
    Kept a (State.stuckOn s x1) := by
  unfold State.stuckOn
  repeat' first
    | with_reducible assumption | with_reducible apply State.setSout_kept
    | with_reducible apply State.controlledStop_kept | with_reducible apply State.supFault_kept
    | with_reducible apply State.setHold_kept | with_reducible apply State.switchOff_kept

theorem State.overload_kept {a s : State} {x1} (h : Kept a s) :
    Kept a (State.overload s x1) := by
  unfold State.overload
  repeat' first
    | with_reducible assumption | with_reducible apply State.setSout_kept | with_reducible apply State.supFault_kept
    | with_reducible apply State.switchOff_kept

theorem State.sampleOutput_kept {a s : State} {x1 x2} (h : Kept a s) :
    Kept a (State.sampleOutput s x1 x2) := by
  unfold State.sampleOutput
  try lift_lets -underBinder
  repeat' first
    | with_reducible assumption
    | (intro x
       first
         | (refine have_of (a := a) x ?_ fun _ => ?_
            unfold x
            try lift_lets -underBinder
            rotate_left
            clear_value x)
         | clear_value x
         | skip)
    | lift_lets -underBinder | with_reducible apply State.setSout_kept | with_reducible apply State.overload_kept
    | (split <;> try lift_lets -underBinder) | with_reducible apply Kept.record | with_reducible rfl

theorem State.sampleContactor_kept {a s : State} {x1 x2 x3} (h : Kept a s) :
    Kept a (State.sampleContactor s x1 x2 x3) := by
  unfold State.sampleContactor
  try lift_lets -underBinder
  repeat' first
    | with_reducible assumption
    | (intro x
       first
         | (refine have_of (a := a) x ?_ fun _ => ?_
            unfold x
            try lift_lets -underBinder
            rotate_left
            clear_value x)
         | clear_value x
         | skip)
    | lift_lets -underBinder | with_reducible apply State.setKdrv_kept | with_reducible apply State.wr_kept
    | (split <;> try lift_lets -underBinder) | with_reducible apply Kept.record | with_reducible rfl

theorem State.contactorRequests_kept {a s : State} (h : Kept a s) :
    Kept a (State.contactorRequests s) := by
  unfold State.contactorRequests
  try lift_lets -underBinder
  repeat' first
    | with_reducible assumption
    | (intro x
       first
         | (refine have_of (a := a) x ?_ fun _ => ?_
            unfold x
            try lift_lets -underBinder
            rotate_left
            clear_value x)
         | clear_value x
         | skip)
    | lift_lets -underBinder | with_reducible apply each_kept | with_reducible apply State.closeKdrv_kept
    | (split <;> try lift_lets -underBinder) | with_reducible apply Kept.record | with_reducible rfl

theorem State.clearOutputs_kept {a s : State} (h : Kept a s) :
    Kept a (State.clearOutputs s) := by
  unfold State.clearOutputs
  try lift_lets -underBinder
  repeat' first
    | with_reducible assumption
    | (intro x
       first
         | (refine have_of (a := a) x ?_ fun _ => ?_
            unfold x
            try lift_lets -underBinder
            rotate_left
            clear_value x)
         | clear_value x
         | skip)
    | lift_lets -underBinder | with_reducible apply each_kept | with_reducible apply State.wr_kept
    | with_reducible apply State.setSout_kept | with_reducible apply State.clearHold_kept
    | (split <;> try lift_lets -underBinder) | with_reducible apply Kept.record | with_reducible rfl

theorem State.clearInputs_kept {a s : State} (h : Kept a s) :
    Kept a (State.clearInputs s) := by
  unfold State.clearInputs
  try lift_lets -underBinder
  repeat' first
    | with_reducible assumption
    | (intro x
       first
         | (refine have_of (a := a) x ?_ fun _ => ?_
            unfold x
            try lift_lets -underBinder
            rotate_left
            clear_value x)
         | clear_value x
         | skip)
    | lift_lets -underBinder | with_reducible apply each_kept | with_reducible apply State.wr_kept
    | with_reducible apply State.setSin_kept | with_reducible apply State.clearHold_kept
    | (split <;> try lift_lets -underBinder) | with_reducible apply Kept.record | with_reducible rfl

theorem State.clearContactors_kept {a s : State} (h : Kept a s) :
    Kept a (State.clearContactors s) := by
  unfold State.clearContactors
  try lift_lets -underBinder
  repeat' first
    | with_reducible assumption
    | (intro x
       first
         | (refine have_of (a := a) x ?_ fun _ => ?_
            unfold x
            try lift_lets -underBinder
            rotate_left
            clear_value x)
         | clear_value x
         | skip)
    | lift_lets -underBinder | with_reducible apply each_kept | with_reducible apply State.wr_kept
    | with_reducible apply State.setKdrv_kept | with_reducible apply State.clearHold_kept
    | (split <;> try lift_lets -underBinder) | with_reducible apply Kept.record | with_reducible rfl

theorem State.showMarks_kept {a s : State} {x1} (h : Kept a s) :
    Kept a (State.showMarks s x1) := by
  unfold State.showMarks
  exact Kept.record h rfl rfl

theorem State.clockMark_kept {a s : State} {x1} (h : Kept a s) :
    Kept a (State.clockMark s x1) := by
  unfold State.clockMark
  try lift_lets -underBinder
  repeat' first
    | with_reducible assumption
    | (intro x
       first
         | (refine have_of (a := a) x ?_ fun _ => ?_
            unfold x
            try lift_lets -underBinder
            rotate_left
            clear_value x)
         | clear_value x
         | skip)
    | lift_lets -underBinder | with_reducible apply State.showMarks_kept | with_reducible apply State.setDie_kept
    | (split <;> try lift_lets -underBinder) | with_reducible apply Kept.record | with_reducible rfl

theorem State.startClears_kept {a s : State} {x1 x2} (h : Kept a s) :
    Kept a (State.startClears s x1 x2) := by
  unfold State.startClears
  try lift_lets -underBinder
  repeat' first
    | with_reducible assumption
    | (intro x
       first
         | (refine have_of (a := a) x ?_ fun _ => ?_
            unfold x
            try lift_lets -underBinder
            rotate_left
            clear_value x)
         | clear_value x
         | skip)
    | lift_lets -underBinder | with_reducible apply State.clearDab_kept
    | with_reducible apply State.deassertSource_kept | (split <;> try lift_lets -underBinder)
    | with_reducible apply Kept.record | with_reducible rfl

theorem powerStart_kept {a s : State} (h : Kept a s) :
    Kept a (powerStart s) := by
  unfold powerStart
  try lift_lets -underBinder
  repeat' first
    | with_reducible assumption
    | (intro x
       first
         | (refine have_of (a := a) x ?_ fun _ => ?_
            unfold x
            try lift_lets -underBinder
            rotate_left
            clear_value x)
         | clear_value x
         | skip)
    | lift_lets -underBinder | with_reducible apply State.leaveStandby_kept
    | with_reducible apply State.raiseAll_kept | with_reducible apply State.openCorr_kept
    | with_reducible apply State.wr_kept | with_reducible apply each_kept | with_reducible apply State.clockMark_kept
    | with_reducible apply State.startClears_kept | with_reducible apply State.setSlot_kept
    | with_reducible apply State.setPower_kept | with_reducible apply State.setLink_kept
    | with_reducible apply State.setUnit_kept | with_reducible apply State.sendTest_kept
    | with_reducible apply State.setHold_kept | (split <;> try lift_lets -underBinder)
    | with_reducible apply Kept.record | with_reducible rfl

theorem powerSet_kept {a s : State} {x1 x2} (h : Kept a s) :
    Kept a (powerSet x1 s x2) := by
  unfold powerSet
  repeat' first
    | with_reducible assumption | with_reducible apply powerStart_kept
    | with_reducible apply State.controlledStop_kept | split

theorem State.autoStart_kept {a s : State} (h : Kept a s) :
    Kept a (State.autoStart s) := by
  unfold State.autoStart
  try lift_lets -underBinder
  repeat' first
    | with_reducible assumption
    | (intro x
       first
         | (refine have_of (a := a) x ?_ fun _ => ?_
            unfold x
            try lift_lets -underBinder
            rotate_left
            clear_value x)
         | clear_value x
         | skip)
    | lift_lets -underBinder | with_reducible apply State.setSup_kept | with_reducible apply powerStart_kept
    | (split <;> try lift_lets -underBinder) | with_reducible apply Kept.record | with_reducible rfl

theorem State.acceptReset_kept {a s : State} (h : Kept a s) :
    Kept a (State.acceptReset s) := by
  unfold State.acceptReset
  repeat' first
    | with_reducible assumption | with_reducible apply State.setSup_kept | with_reducible apply State.showActive_kept
    | with_reducible apply State.clearHold_kept | with_reducible apply State.clearInputs_kept
    | with_reducible apply State.clearOutputs_kept | with_reducible apply State.clearContactors_kept
    | with_reducible apply State.raiseAll_kept | with_reducible apply State.openCorr_kept
    | with_reducible apply State.autoStart_kept | with_reducible apply State.grantOutputs_kept | split

theorem State.tryReset_kept {a s : State} (h : Kept a s) :
    Kept a (State.tryReset s) := by
  unfold State.tryReset
  repeat' first
    | with_reducible assumption | with_reducible apply State.note_kept | with_reducible apply State.acceptReset_kept
    | split

theorem resetSet_kept {a s : State} {x1} (h : Kept a s) :
    Kept a (resetSet s x1) := by
  unfold resetSet
  repeat' first
    | with_reducible assumption | with_reducible apply State.tryReset_kept | split

theorem outputSet_kept {a s : State} {x1 x2 x3} (h : Kept a s) :
    Kept a (outputSet x1 x2 s x3) := by
  unfold outputSet
  try lift_lets -underBinder
  repeat' first
    | with_reducible assumption
    | (intro x
       first
         | (refine have_of (a := a) x ?_ fun _ => ?_
            unfold x
            try lift_lets -underBinder
            rotate_left
            clear_value x)
         | clear_value x
         | skip)
    | lift_lets -underBinder | with_reducible apply State.wr_kept | with_reducible apply State.switchOff_kept
    | with_reducible apply State.grantOutputs_kept | (split <;> try lift_lets -underBinder)
    | with_reducible apply Kept.record | with_reducible rfl

theorem contactorSet_kept {a s : State} {x1 x2 x3} (h : Kept a s) :
    Kept a (contactorSet x1 x2 s x3) := by
  unfold contactorSet
  try lift_lets -underBinder
  repeat' first
    | with_reducible assumption
    | (intro x
       first
         | (refine have_of (a := a) x ?_ fun _ => ?_
            unfold x
            try lift_lets -underBinder
            rotate_left
            clear_value x)
         | clear_value x
         | skip)
    | lift_lets -underBinder | with_reducible apply State.wr_kept | with_reducible apply State.closeKdrv_kept
    | with_reducible apply State.openKdrv_kept | (split <;> try lift_lets -underBinder)
    | with_reducible apply Kept.record | with_reducible rfl

theorem State.contactorFault_kept {a s : State} {x1 x2} (h : Kept a s) :
    Kept a (State.contactorFault s x1 x2) := by
  unfold State.contactorFault
  repeat' first
    | with_reducible assumption | with_reducible apply State.setHold_kept | with_reducible apply State.openKdrv_kept
    | with_reducible apply State.supFault_kept | with_reducible apply State.wr_kept
    | with_reducible apply State.setKdrv_kept

theorem State.weld_kept {a s : State} {x1} (h : Kept a s) :
    Kept a (State.weld s x1) := by
  unfold State.weld
  repeat' first
    | with_reducible assumption | with_reducible apply State.supFault_kept | with_reducible apply State.setHold_kept
    | with_reducible apply State.wr_kept | with_reducible apply State.setKdrv_kept

theorem State.safeState_kept {a s : State} {x1} (h : Kept a s) :
    Kept a (State.safeState s x1) := by
  unfold State.safeState
  try lift_lets -underBinder
  repeat' first
    | with_reducible assumption
    | (intro x
       first
         | (refine have_of (a := a) x ?_ fun _ => ?_
            unfold x
            try lift_lets -underBinder
            rotate_left
            clear_value x)
         | clear_value x
         | skip)
    | lift_lets -underBinder | with_reducible apply State.supFault_kept | with_reducible apply State.setHold_kept
    | with_reducible apply State.wr_kept | with_reducible apply State.raiseAll_kept
    | with_reducible apply State.openCorr_kept | with_reducible apply each_kept
    | with_reducible apply State.switchOff_kept | with_reducible apply State.openKdrv_kept
    | with_reducible apply State.chopOff_kept | with_reducible apply State.afeLow_kept
    | with_reducible apply State.stoAxis_kept | with_reducible apply State.stoDrive_kept
    | with_reducible apply State.adisDue_kept | with_reducible apply State.setSup_kept
    | (split <;> try lift_lets -underBinder) | with_reducible apply Kept.record | with_reducible rfl

theorem State.fireAlone_kept {a s : State} (h : Kept a s) :
    Kept a (State.fireAlone s) := by
  unfold State.fireAlone
  repeat' first
    | with_reducible assumption | with_reducible apply State.fireDemand_kept
    | with_reducible apply State.activeNote_kept | with_reducible apply State.showActive_kept
    | with_reducible apply State.setHold_kept | with_reducible apply State.openCorr_kept

theorem State.tempBit_kept {a s : State} {x1 x2 x3} (h : Kept a s) :
    Kept a (State.tempBit s x1 x2 x3) := by
  unfold State.tempBit
  exact Kept.record h rfl rfl

theorem State.checkTemp_kept {a s : State} {x1} (h : Kept a s) :
    Kept a (State.checkTemp s x1) := by
  unfold State.checkTemp
  try lift_lets -underBinder
  repeat' first
    | with_reducible assumption
    | (intro x
       first
         | (refine have_of (a := a) x ?_ fun _ => ?_
            unfold x
            try lift_lets -underBinder
            rotate_left
            clear_value x)
         | skip)
    | lift_lets -underBinder | with_reducible apply State.setChan_kept | with_reducible apply State.wr_kept
    | with_reducible apply State.tempBit_kept | with_reducible apply State.latchChans_kept
    | with_reducible apply State.openCorr_kept | with_reducible apply State.raiseFrame_kept
    | exact Kept.chan ‹_› ‹_› _ | exact slice_safe_cut _ | exact Slice.Safe.same (slice_safe_cut {}) rfl rfl rfl
    | (split <;> try lift_lets -underBinder) | with_reducible apply Kept.record | with_reducible rfl

theorem State.takeTemp_kept {a s : State} {x1 x2} (h : Kept a s) :
    Kept a (State.takeTemp s x1 x2) := by
  unfold State.takeTemp
  try lift_lets -underBinder
  repeat' first
    | with_reducible assumption
    | (intro x
       first
         | (refine have_of (a := a) x ?_ fun _ => ?_
            unfold x
            try lift_lets -underBinder
            rotate_left
            clear_value x)
         | skip)
    | lift_lets -underBinder | with_reducible apply State.setChan_kept | exact Kept.chan ‹_› ‹_› _
    | exact slice_safe_cut _ | exact Slice.Safe.same (slice_safe_cut {}) rfl rfl rfl
    | (split <;> try lift_lets -underBinder) | with_reducible apply Kept.record | with_reducible rfl

theorem State.compareTemp_kept {a s : State} {x1} (h : Kept a s) :
    Kept a (State.compareTemp s x1) := by
  unfold State.compareTemp
  try lift_lets -underBinder
  repeat' first
    | with_reducible assumption
    | (intro x
       first
         | (refine have_of (a := a) x ?_ fun _ => ?_
            unfold x
            try lift_lets -underBinder
            rotate_left
            clear_value x)
         | skip)
    | lift_lets -underBinder | with_reducible apply State.setChan_kept | with_reducible apply State.wr_kept
    | with_reducible apply State.tempBit_kept | with_reducible apply State.noteAt_kept | exact Kept.chan ‹_› ‹_› _
    | exact slice_safe_cut _ | exact Slice.Safe.same (slice_safe_cut {}) rfl rfl rfl
    | (split <;> try lift_lets -underBinder) | with_reducible apply Kept.record | with_reducible rfl

theorem State.setClock_kept {a s : State} {x1} (h : Kept a s) :
    Kept a (State.setClock s x1) := by
  unfold State.setClock
  exact Kept.record h rfl rfl

theorem State.sourceNote_kept {a s : State} {x1} (h : Kept a s) :
    Kept a (State.sourceNote s x1) := by
  unfold State.sourceNote
  repeat' first
    | with_reducible assumption | with_reducible apply State.noteAt_kept

theorem State.setLoop_kept {a s : State} {x1 x2} (h : Kept a s) :
    Kept a (State.setLoop s x1 x2) := by
  unfold State.setLoop
  repeat' first
    | with_reducible assumption | with_reducible apply State.setClock_kept | with_reducible apply State.setDie_kept
    | split

theorem State.loopNote_kept {a s : State} {x1} (h : Kept a s) :
    Kept a (State.loopNote s x1) := by
  unfold State.loopNote
  repeat' first
    | with_reducible assumption | with_reducible apply State.noteAt_kept

theorem State.loseLock_kept {a s : State} {x1} (h : Kept a s) :
    Kept a (State.loseLock s x1) := by
  unfold State.loseLock
  try lift_lets -underBinder
  repeat' first
    | with_reducible assumption
    | (intro x
       first
         | (refine have_of (a := a) x ?_ fun _ => ?_
            unfold x
            try lift_lets -underBinder
            rotate_left
            clear_value x)
         | clear_value x
         | skip)
    | lift_lets -underBinder | with_reducible apply State.setLoop_kept | with_reducible apply State.inc_kept
    | with_reducible apply State.loopNote_kept | with_reducible apply State.setClock_kept
    | (split <;> try lift_lets -underBinder) | with_reducible apply Kept.record | with_reducible rfl

theorem State.declareLock_kept {a s : State} {x1} (h : Kept a s) :
    Kept a (State.declareLock s x1) := by
  unfold State.declareLock
  try lift_lets -underBinder
  repeat' first
    | with_reducible assumption
    | (intro x
       first
         | (refine have_of (a := a) x ?_ fun _ => ?_
            unfold x
            try lift_lets -underBinder
            rotate_left
            clear_value x)
         | clear_value x
         | skip)
    | lift_lets -underBinder | with_reducible apply State.setLoop_kept | with_reducible apply State.loopNote_kept
    | with_reducible apply State.setDie_kept | (split <;> try lift_lets -underBinder)
    | with_reducible apply Kept.record | with_reducible rfl

theorem State.latchHubOutputs_kept {a s : State} {x1} (h : Kept a s) :
    Kept a (State.latchHubOutputs s x1) := by
  unfold State.latchHubOutputs
  try lift_lets -underBinder
  repeat' first
    | with_reducible assumption
    | (intro x
       first
         | (refine have_of (a := a) x ?_ fun _ => ?_
            unfold x
            try lift_lets -underBinder
            rotate_left
            clear_value x)
         | clear_value x
         | skip)
    | lift_lets -underBinder | with_reducible apply State.cutUnits_kept | with_reducible apply State.chopOff_kept
    | with_reducible apply State.latchAfe_kept | with_reducible apply State.dropJobs_kept
    | with_reducible apply State.setUnit_kept | with_reducible apply each_kept
    | with_reducible apply State.latchAxis_kept | with_reducible apply State.latchDrive_kept
    | (split <;> try lift_lets -underBinder) | with_reducible apply Kept.record | with_reducible rfl

theorem State.coastOut_kept {a s : State} {x1} (h : Kept a s) :
    Kept a (State.coastOut s x1) := by
  unfold State.coastOut
  try lift_lets -underBinder
  repeat' first
    | with_reducible assumption
    | (intro x
       first
         | (refine have_of (a := a) x ?_ fun _ => ?_
            unfold x
            try lift_lets -underBinder
            rotate_left
            clear_value x)
         | clear_value x
         | skip)
    | lift_lets -underBinder | with_reducible apply State.setLoop_kept | with_reducible apply State.openCorr_kept
    | with_reducible apply each_kept | with_reducible apply State.latchOne_kept
    | with_reducible apply State.latchDab_kept | with_reducible apply State.raiseFrame_kept
    | with_reducible apply State.stopWith_kept | with_reducible apply State.raiseAll_kept
    | with_reducible apply State.latchHubOutputs_kept | with_reducible apply State.draw_kept
    | (split <;> try lift_lets -underBinder) | with_reducible apply Kept.record | with_reducible rfl

theorem State.syncCounts_kept {a s : State} {x1} (h : Kept a s) :
    Kept a (State.syncCounts s x1) := by
  unfold State.syncCounts
  repeat' first
    | with_reducible assumption | with_reducible apply State.setClock_kept | with_reducible apply State.wr_kept

theorem State.deferStep_kept {a s : State} (h : Kept a s) :
    Kept a (State.deferStep s) := by
  unfold State.deferStep
  repeat' first
    | with_reducible assumption | with_reducible apply State.note_kept | with_reducible apply State.setClock_kept
    | split

theorem State.stepTime_kept {a s : State} (h : Kept a s) :
    Kept a (State.stepTime s) := by
  unfold State.stepTime
  repeat' first
    | with_reducible assumption | with_reducible apply State.loadTimeBases_kept
    | with_reducible apply State.setClock_kept | with_reducible apply State.note_kept
    | with_reducible apply State.wr_kept | with_reducible apply State.inc_kept | split

theorem State.correctDie_kept {a s : State} {x1 x2} (h : Kept a s) :
    Kept a (State.correctDie s x1 x2) := by
  unfold State.correctDie
  try lift_lets -underBinder
  repeat' first
    | with_reducible assumption
    | exact fun _ hx => Slice.correct_safe hx _ | exact fun _ hx => Slice.move_safe hx _
    | (intro x
       first
         | (refine have_of (a := a) x ?_ fun _ => ?_
            unfold x
            try lift_lets -underBinder
            rotate_left
            clear_value x)
         | clear_value x
         | skip)
    | lift_lets -underBinder | with_reducible apply State.retimeLanes_kept
    | with_reducible apply State.mapSlices_kept | with_reducible apply State.wr_kept
    | with_reducible apply State.setDie_kept | with_reducible apply each_kept
    | with_reducible apply State.setUnit_kept | (split <;> try lift_lets -underBinder)
    | with_reducible apply Kept.record | with_reducible rfl

theorem State.closeMeans_kept {a s : State} {x1 x2} (h : Kept a s) :
    Kept a (State.closeMeans s x1 x2) := by
  unfold State.closeMeans
  try lift_lets -underBinder
  repeat' first
    | with_reducible assumption
    | (intro x
       first
         | (refine have_of (a := a) x ?_ fun _ => ?_
            unfold x
            try lift_lets -underBinder
            rotate_left
            clear_value x)
         | skip)
    | lift_lets -underBinder | with_reducible apply State.setChan_kept | exact Kept.chan ‹_› ‹_› _
    | exact slice_safe_cut _ | exact Slice.Safe.same (slice_safe_cut {}) rfl rfl rfl
    | (split <;> try lift_lets -underBinder) | with_reducible apply Kept.record | with_reducible rfl

theorem State.flushRepeats_kept {a s : State} {x1} (h : Kept a s) :
    Kept a (State.flushRepeats s x1) := by
  unfold State.flushRepeats
  try lift_lets -underBinder
  repeat' first
    | with_reducible assumption
    | (intro x
       first
         | (refine have_of (a := a) x ?_ fun _ => ?_
            unfold x
            try lift_lets -underBinder
            rotate_left
            clear_value x)
         | clear_value x
         | skip)
    | lift_lets -underBinder | with_reducible apply State.setDie_kept | with_reducible apply each_kept
    | with_reducible apply State.sendEntry_kept | with_reducible apply State.openCorr_kept
    | (split <;> try lift_lets -underBinder) | with_reducible apply Kept.record | with_reducible rfl

theorem State.waymark_kept {a s : State} {x1} (h : Kept a s) :
    Kept a (State.waymark s x1) := by
  unfold State.waymark
  try lift_lets -underBinder
  repeat' first
    | with_reducible assumption
    | (intro x
       first
         | (refine have_of (a := a) x ?_ fun _ => ?_
            unfold x
            try lift_lets -underBinder
            rotate_left
            clear_value x)
         | clear_value x
         | skip)
    | lift_lets -underBinder | with_reducible apply State.note_kept | (split <;> try lift_lets -underBinder)
    | with_reducible apply Kept.record | with_reducible rfl

theorem State.siteFlow_kept {a s : State} {x1} (h : Kept a s) :
    Kept a (State.siteFlow s x1) := by
  unfold State.siteFlow
  repeat' first
    | with_reducible assumption | with_reducible apply State.wr_kept | with_reducible apply State.setDie_kept

theorem State.energyFlow_kept {a s : State} (h : Kept a s) :
    Kept a (State.energyFlow s) := by
  unfold State.energyFlow
  repeat' first
    | with_reducible assumption | with_reducible apply each_kept | with_reducible apply State.siteFlow_kept
    | with_reducible apply State.wr_kept

theorem State.onQm_kept {a s : State} {f} (h : Kept a s) : Kept a (s.onQm f) := Kept.record h rfl rfl

theorem State.strobe_kept {a s : State} {x1 x2} (h : Kept a s) :
    Kept a (State.strobe s x1 x2) := by
  unfold State.strobe
  repeat' first
    | with_reducible assumption | with_reducible apply State.onQm_kept | split

theorem State.epoch_kept {a s : State} {x1 x2} (h : Kept a s) :
    Kept a (State.epoch s x1 x2) := by
  unfold State.epoch
  try lift_lets -underBinder
  repeat' first
    | with_reducible assumption
    | (intro x
       first
         | (refine have_of (a := a) x ?_ fun _ => ?_
            unfold x
            try lift_lets -underBinder
            rotate_left
            clear_value x)
         | clear_value x
         | skip)
    | lift_lets -underBinder | with_reducible apply State.deferStep_kept | with_reducible apply State.setClock_kept
    | with_reducible apply State.wr_kept | with_reducible apply each_kept
    | with_reducible apply State.correctDie_kept | with_reducible apply State.closeMeans_kept
    | with_reducible apply State.energyFlow_kept | with_reducible apply State.flushRepeats_kept
    | with_reducible apply State.strobe_kept | with_reducible apply State.groupCheck_kept
    | with_reducible apply State.stepTime_kept | with_reducible apply State.waymark_kept
    | (split <;> try lift_lets -underBinder) | with_reducible apply Kept.record | with_reducible rfl

theorem epochSet_kept {a s : State} {x1 x2} (h : Kept a s) :
    Kept a (epochSet x1 s x2) := by
  unfold epochSet
  repeat' first
    | with_reducible assumption | with_reducible apply State.setClock_kept | with_reducible apply State.wr_kept

theorem State.pass_kept {a s : State} {x1} (h : Kept a s) :
    Kept a (State.pass s x1) := by
  unfold State.pass
  repeat' first
    | with_reducible assumption | with_reducible apply State.setClock_kept | split

end Sys2Proof.Machine
end

