-- ==== Sys2Proof/Laws/KeptStart.lean ====
section
/-! SUPPORT. What the operations of images, start-up and the links keep (Kept): one lemma for each. -/

namespace Sys2Proof.Machine

set_option Elab.async false

set_option linter.unreachableTactic false
set_option linter.unusedTactic false

theorem State.setSec_kept {a s : State} {x1} (h : Kept a s) :
    Kept a (State.setSec s x1) := by
  unfold State.setSec
  exact Kept.record h rfl rfl

theorem State.setSlotState_kept {a s : State} {x1 x2 x3} (h : Kept a s) :
    Kept a (State.setSlotState s x1 x2 x3) := by
  unfold State.setSlotState
  repeat' first
    | with_reducible assumption | with_reducible apply State.setSec_kept | with_reducible apply State.wr_kept

theorem State.prefer_kept {a s : State} {x1 x2} (h : Kept a s) :
    Kept a (State.prefer s x1 x2) := by
  unfold State.prefer
  repeat' first
    | with_reducible assumption | with_reducible apply State.setSec_kept | with_reducible apply State.wr_kept

theorem State.runs_kept {a s : State} {x1 x2} (h : Kept a s) :
    Kept a (State.runs s x1 x2) := by
  unfold State.runs
  repeat' first
    | with_reducible assumption | with_reducible apply State.setSec_kept | with_reducible apply State.wrB_kept
    | with_reducible apply State.wr_kept

theorem State.runsNone_kept {a s : State} {x1} (h : Kept a s) :
    Kept a (State.runsNone s x1) := by
  unfold State.runsNone
  repeat' first
    | with_reducible assumption | with_reducible apply State.wrB_kept | with_reducible apply State.wr_kept

theorem State.abandonLoad_kept {a s : State} (h : Kept a s) :
    Kept a (State.abandonLoad s) := by
  unfold State.abandonLoad
  repeat' first
    | with_reducible assumption | with_reducible apply State.setSlotState_kept
    | with_reducible apply State.setSec_kept | with_reducible apply State.wr_kept | split

theorem State.imageNote_kept {a s : State} {x1 x2 x3} (h : Kept a s) :
    Kept a (State.imageNote s x1 x2 x3) := by
  unfold State.imageNote
  repeat' first
    | with_reducible assumption | with_reducible apply State.note_kept

theorem partStart_kept {a s : State} (h : Kept a s) :
    Kept a (partStart s) := by
  unfold partStart
  repeat' first
    | with_reducible assumption | with_reducible apply State.runs_kept | with_reducible apply State.wr_kept
    | with_reducible apply State.setSec_kept

theorem partHalt_kept {a s : State} {x1} (h : Kept a s) :
    Kept a (partHalt x1 s) := by
  unfold partHalt
  try lift_lets -underBinder
  repeat' first
    | with_reducible assumption
    | (intro x
       first
         | (refine have_of (a := a) x ?_ fun _ => ?_
            unfold x
            try lift_lets -underBinder
            rotate_left
            clear_value x)
         | skip)
    | lift_lets -underBinder | with_reducible apply State.runsNone_kept | with_reducible apply State.wr_kept
    | with_reducible apply State.setSec_kept | (split <;> try lift_lets -underBinder)
    | with_reducible apply Kept.record | with_reducible rfl

theorem partitionSet_kept {a s : State} {x1 x2} (h : Kept a s) :
    Kept a (partitionSet x1 s x2) := by
  unfold partitionSet
  repeat' first
    | with_reducible assumption | with_reducible apply partStart_kept | with_reducible apply partHalt_kept | split

theorem State.restore_kept {a s : State} {p} (h : Kept a s) : Kept a (s.restore p) := by
  unfold State.restore
  exact Kept.record h rfl rfl

theorem State.loadPeriods_kept {a s : State} {x1} (h : Kept a s) :
    Kept a (State.loadPeriods s x1) := by
  unfold State.loadPeriods
  try lift_lets -underBinder
  repeat' first
    | with_reducible assumption
    | (intro x
       first
         | (refine have_of (a := a) x ?_ fun _ => ?_
            unfold x
            try lift_lets -underBinder
            rotate_left
            clear_value x)
         | clear_value x
         | skip)
    | lift_lets -underBinder | with_reducible apply each_kept | with_reducible apply State.setUnit_kept
    | (split <;> try lift_lets -underBinder) | with_reducible apply Kept.record | with_reducible rfl

theorem State.restart_of {a s : State} {p b} (h1 : s.variant = a.variant) (h2 : s.sealedPart = a.sealedPart)
    (h3 : s.pending = a.pending) : Kept a (s.restart p b) := by
  unfold State.restart
  refine ⟨h1, h2, h3, fun _ => ?_, fun _ e m => ?_⟩
  · simp [State.SessionsBounded]
  · cases m

theorem State.restart_kept {a s : State} {p b} (h : Kept a s) : Kept a (s.restart p b) := State.restart_of h.1 h.2 h.3

theorem State.endedByReset_kept {a s : State} {x1} (h : Kept a s) :
    Kept a (State.endedByReset s x1) := by
  unfold State.endedByReset
  repeat' first
    | with_reducible assumption | with_reducible apply State.wr_kept

theorem State.warm_kept {a s : State} {x1} (h : Kept a s) :
    Kept a (State.warm s x1) := by
  unfold State.warm
  repeat' first
    | with_reducible assumption | with_reducible apply State.abandonLoad_kept | with_reducible apply State.note_kept
    | with_reducible apply State.restart_kept | with_reducible apply State.draw_kept
    | with_reducible apply State.wr_kept | with_reducible apply each_kept
    | with_reducible apply State.endedByReset_kept | with_reducible apply State.adisDue_kept
    | with_reducible apply State.setSup_kept

theorem State.markNote_kept {a s : State} {x1 x2 x3} (h : Kept a s) :
    Kept a (State.markNote s x1 x2 x3) := by
  unfold State.markNote
  repeat' first
    | with_reducible assumption | with_reducible apply State.raise_kept

theorem State.closeSite_kept {a s : State} {x1 x2} (h : Kept a s) :
    Kept a (State.closeSite s x1 x2) := by
  unfold State.closeSite
  try lift_lets -underBinder
  repeat' first
    | with_reducible assumption
    | (intro x
       first
         | (refine have_of (a := a) x ?_ fun _ => ?_
            unfold x
            try lift_lets -underBinder
            rotate_left
            clear_value x)
         | clear_value x
         | skip)
    | lift_lets -underBinder | with_reducible apply each_kept | with_reducible apply State.mail_kept
    | (split <;> try lift_lets -underBinder) | with_reducible apply Kept.record | with_reducible rfl

theorem mem_dropDie {α : Type} {t : Tbl α} {w d : Nat} {e : Nat × α} (h : e ∈ dropDie t w d) : e ∈ t :=
  (List.mem_filter.1 h).1

theorem State.resetSite_kept {a s : State} {x1 x2} (h : Kept a s) : Kept a (s.resetSite x1 x2) := by
  unfold State.resetSite
  extract_lets ran keep d x y
  have hx : Kept a x := ⟨h.1, h.2, h.3, h.4, fun g => (h.gates g).filter fun e m => mem_dropDie m⟩
  clear_value x
  have hy : Kept a y := each_kept hx fun _ _ hz => State.endedByReset_kept hz
  exact State.closeSite_kept (State.markNote_kept (State.showMarks_kept hy))

theorem State.resetSites_kept {a s : State} {x1} (h : Kept a s) :
    Kept a (State.resetSites s x1) := by
  unfold State.resetSites
  try lift_lets -underBinder
  repeat' first
    | with_reducible assumption
    | (intro x
       first
         | (refine have_of (a := a) x ?_ fun _ => ?_
            unfold x
            try lift_lets -underBinder
            rotate_left
            clear_value x)
         | clear_value x
         | skip)
    | lift_lets -underBinder | with_reducible apply State.wr_kept | with_reducible apply State.raise_kept
    | with_reducible apply State.openCorr_kept | with_reducible apply each_kept
    | with_reducible apply State.resetSite_kept | (split <;> try lift_lets -underBinder)
    | with_reducible apply Kept.record | with_reducible rfl

theorem State.resetEngine_kept {a s : State} {x1} (h : Kept a s) :
    Kept a (State.resetEngine s x1) := by
  unfold State.resetEngine
  try lift_lets -underBinder
  repeat' first
    | with_reducible assumption
    | (intro x
       first
         | (refine have_of (a := a) x ?_ fun _ => ?_
            unfold x
            try lift_lets -underBinder
            rotate_left
            clear_value x)
         | clear_value x
         | skip)
    | lift_lets -underBinder | with_reducible apply State.draw_kept | with_reducible apply State.setDie_kept
    | with_reducible apply each_kept | with_reducible apply State.setSlot_kept
    | (split <;> try lift_lets -underBinder) | with_reducible apply Kept.record | with_reducible rfl

theorem State.resetEngines_kept {a s : State} {x1} (h : Kept a s) :
    Kept a (State.resetEngines s x1) := by
  unfold State.resetEngines
  repeat' first
    | with_reducible assumption | with_reducible apply State.note_kept | with_reducible apply each_kept
    | with_reducible apply State.resetEngine_kept

theorem State.settle_kept {a s : State} (h : Kept a s) :
    Kept a (State.settle s) := by
  unfold State.settle
  try lift_lets -underBinder
  repeat' first
    | with_reducible assumption
    | (intro x
       first
         | (refine have_of (a := a) x ?_ fun _ => ?_
            unfold x
            try lift_lets -underBinder
            rotate_left
            clear_value x)
         | clear_value x
         | skip)
    | lift_lets -underBinder | with_reducible apply State.pass_kept | with_reducible apply State.warm_kept
    | with_reducible apply State.resetSites_kept | with_reducible apply State.resetEngines_kept
    | (split <;> try lift_lets -underBinder) | with_reducible apply Kept.record | with_reducible rfl

theorem warmSet_kept {a s : State} {x1} (h : Kept a s) :
    Kept a (warmSet s x1) := by
  unfold warmSet
  exact Kept.record h rfl rfl

theorem siteResetSet_kept {a s : State} {x1 x2} (h : Kept a s) :
    Kept a (siteResetSet x1 s x2) := by
  unfold siteResetSet
  exact Kept.record h rfl rfl

theorem engineResetSet_kept {a s : State} {x1 x2} (h : Kept a s) :
    Kept a (engineResetSet x1 s x2) := by
  unfold engineResetSet
  exact Kept.record h rfl rfl

theorem State.recoverSite_kept {a s : State} {x1} (h : Kept a s) :
    Kept a (State.recoverSite s x1) := by
  unfold State.recoverSite
  repeat' first
    | with_reducible assumption | with_reducible apply State.resetSites_kept

theorem State.readBanks_kept {a s : State} {x1} (h : Kept a s) :
    Kept a (State.readBanks s x1) := by
  unfold State.readBanks
  try lift_lets -underBinder
  repeat' first
    | with_reducible assumption
    | (intro x
       first
         | (refine have_of (a := a) x ?_ fun _ => ?_
            unfold x
            try lift_lets -underBinder
            rotate_left
            clear_value x)
         | clear_value x
         | skip)
    | lift_lets -underBinder | with_reducible apply State.wr_kept | (split <;> try lift_lets -underBinder)
    | with_reducible apply Kept.record | with_reducible rfl

theorem State.newNonce_kept {a s : State} (h : Kept a s) :
    Kept a (State.newNonce s) := by
  unfold State.newNonce
  repeat' first
    | with_reducible assumption | with_reducible apply State.wr_kept | with_reducible apply State.draw_kept

theorem State.powerOn_kept {a s : State} {x1} (h : Kept a s) : Kept a (s.powerOn x1) := by
  unfold State.powerOn
  extract_lets w x y z
  have hy : Kept a y := State.restart_of h.1 h.2 h.3
  clear_value y
  exact State.note_kept (State.wr_kept (State.newNonce_kept (State.readBanks_kept hy)))

theorem State.bootOther_kept {a s : State} {x1} (h : Kept a s) :
    Kept a (State.bootOther s x1) := by
  unfold State.bootOther
  try lift_lets -underBinder
  repeat' first
    | with_reducible assumption
    | (intro x
       first
         | (refine have_of (a := a) x ?_ fun _ => ?_
            unfold x
            try lift_lets -underBinder
            rotate_left
            clear_value x)
         | clear_value x
         | skip)
    | lift_lets -underBinder | with_reducible apply State.prefer_kept | with_reducible apply State.setSlotState_kept
    | with_reducible apply State.setSec_kept | (split <;> try lift_lets -underBinder)
    | with_reducible apply Kept.record | with_reducible rfl

theorem State.phase_kept {a s : State} {x1} (h : Kept a s) :
    Kept a (State.phase s x1) := by
  unfold State.phase
  exact Kept.record h rfl rfl

theorem State.checkReady_kept {a s : State} (h : Kept a s) :
    Kept a (State.checkReady s) := by
  unfold State.checkReady
  try lift_lets -underBinder
  repeat' first
    | with_reducible assumption
    | (intro x
       first
         | (refine have_of (a := a) x ?_ fun _ => ?_
            unfold x
            try lift_lets -underBinder
            rotate_left
            clear_value x)
         | clear_value x
         | skip)
    | lift_lets -underBinder | with_reducible apply State.wr_kept | with_reducible apply partStart_kept
    | (split <;> try lift_lets -underBinder) | with_reducible apply Kept.record | with_reducible rfl

theorem State.noSites_kept {a s : State} (h : Kept a s) :
    Kept a (State.noSites s) := by
  unfold State.noSites
  repeat' first
    | with_reducible assumption | with_reducible apply State.runsNone_kept | split

theorem State.startFirmware_kept {a s : State} (h : Kept a s) :
    Kept a (State.startFirmware s) := by
  unfold State.startFirmware
  try lift_lets -underBinder
  repeat' first
    | with_reducible assumption
    | (intro x
       first
         | (refine have_of (a := a) x ?_ fun _ => ?_
            unfold x
            try lift_lets -underBinder
            rotate_left
            clear_value x)
         | skip)
    | lift_lets -underBinder | with_reducible apply State.wr_kept | with_reducible apply State.loadPeriods_kept
    | with_reducible apply State.restore_kept | with_reducible apply State.runs_kept
    | with_reducible apply State.phase_kept | with_reducible apply State.noSites_kept
    | with_reducible apply State.imageNote_kept | with_reducible apply each_kept
    | with_reducible apply State.setPort_kept | with_reducible apply State.replaceIds_kept
    | with_reducible apply State.setSec_kept | with_reducible apply State.closeSite_kept
    | with_reducible apply State.checkReady_kept | with_reducible apply State.admitRestored_kept
    | (split <;> try lift_lets -underBinder) | with_reducible apply Kept.record | with_reducible rfl

theorem State.failSite_kept {a s : State} {x1 x2} (h : Kept a s) :
    Kept a (State.failSite s x1 x2) := by
  unfold State.failSite
  repeat' first
    | with_reducible assumption | with_reducible apply State.checkReady_kept | with_reducible apply State.note_kept
    | with_reducible apply State.wr_kept

theorem State.beatNow_kept {a s : State} {x1} (h : Kept a s) :
    Kept a (State.beatNow s x1) := by
  unfold State.beatNow
  exact Kept.record h rfl rfl

theorem State.siteUp_kept {a s : State} {x1} (h : Kept a s) :
    Kept a (State.siteUp s x1) := by
  unfold State.siteUp
  try lift_lets -underBinder
  repeat' first
    | with_reducible assumption
    | (intro x
       first
         | (refine have_of (a := a) x ?_ fun _ => ?_
            unfold x
            try lift_lets -underBinder
            rotate_left
            clear_value x)
         | clear_value x
         | skip)
    | lift_lets -underBinder | with_reducible apply State.wr_kept | with_reducible apply State.loadPeriods_kept
    | with_reducible apply State.restore_kept | with_reducible apply State.beatNow_kept
    | with_reducible apply State.showMarks_kept | with_reducible apply State.setDie_kept
    | with_reducible apply State.admitRestored_kept | with_reducible apply State.replaceIds_kept
    | with_reducible apply State.phase_kept | with_reducible apply State.startDabs_kept
    | (split <;> try lift_lets -underBinder) | with_reducible apply Kept.record | with_reducible rfl

theorem State.drainSwitch_kept {a s : State} (h : Kept a s) :
    Kept a (State.drainSwitch s) := by
  unfold State.drainSwitch
  try lift_lets -underBinder
  repeat' first
    | with_reducible assumption
    | (intro x
       first
         | (refine have_of (a := a) x ?_ fun _ => ?_
            unfold x
            try lift_lets -underBinder
            rotate_left
            clear_value x)
         | skip)
    | lift_lets -underBinder | with_reducible apply each_kept | (split <;> try lift_lets -underBinder)
    | with_reducible apply Kept.record | with_reducible rfl

theorem State.tick_kept {a s : State} (h : Kept a s) :
    Kept a (State.tick s) := by
  unfold State.tick
  try lift_lets -underBinder
  repeat' first
    | with_reducible assumption
    | (intro x
       first
         | (refine have_of (a := a) x ?_ fun _ => ?_
            unfold x
            try lift_lets -underBinder
            rotate_left
            clear_value x)
         | clear_value x
         | skip)
    | lift_lets -underBinder | with_reducible apply State.drainSwitch_kept
    | with_reducible apply State.settlePins_kept | with_reducible apply State.pass_kept
    | with_reducible apply each_kept | with_reducible apply State.setDie_kept
    | (split <;> try lift_lets -underBinder) | with_reducible apply Kept.record | with_reducible rfl

theorem State.enterRest_kept {a s : State} {x1} (h : Kept a s) :
    Kept a (State.enterRest s x1) := by
  unfold State.enterRest
  try lift_lets -underBinder
  repeat' first
    | with_reducible assumption
    | (intro x
       first
         | (refine have_of (a := a) x ?_ fun _ => ?_
            unfold x
            try lift_lets -underBinder
            rotate_left
            clear_value x)
         | clear_value x
         | skip)
    | lift_lets -underBinder | with_reducible apply each_kept | with_reducible apply State.wr_kept
    | with_reducible apply State.stopUnit_kept | with_reducible apply State.setDie_kept
    | with_reducible apply State.inc_kept | with_reducible apply State.slicesLow_kept
    | (split <;> try lift_lets -underBinder) | with_reducible apply Kept.record | with_reducible rfl

theorem powerReqSet_kept {a s : State} {x1 x2} (h : Kept a s) :
    Kept a (powerReqSet x1 s x2) := by
  unfold powerReqSet
  try lift_lets -underBinder
  repeat' first
    | with_reducible assumption
    | (intro x
       first
         | (refine have_of (a := a) x ?_ fun _ => ?_
            unfold x
            try lift_lets -underBinder
            rotate_left
            clear_value x)
         | clear_value x
         | skip)
    | lift_lets -underBinder | with_reducible apply each_kept | with_reducible apply State.wakeDie_kept
    | with_reducible apply State.leaveStandby_kept | (split <;> try lift_lets -underBinder)
    | with_reducible apply Kept.record | with_reducible rfl

theorem State.enterStandby_kept {a s : State} (h : Kept a s) :
    Kept a (State.enterStandby s) := by
  unfold State.enterStandby
  try lift_lets -underBinder
  repeat' first
    | with_reducible assumption
    | (intro x
       first
         | (refine have_of (a := a) x ?_ fun _ => ?_
            unfold x
            try lift_lets -underBinder
            rotate_left
            clear_value x)
         | clear_value x
         | skip)
    | lift_lets -underBinder | with_reducible apply State.setClock_kept | with_reducible apply each_kept
    | with_reducible apply State.setDie_kept | with_reducible apply State.wr_kept
    | (split <;> try lift_lets -underBinder) | with_reducible apply Kept.record | with_reducible rfl

theorem State.enterSleep_kept {a s : State} (h : Kept a s) :
    Kept a (State.enterSleep s) := by
  unfold State.enterSleep
  try lift_lets -underBinder
  repeat' first
    | with_reducible assumption
    | (intro x
       first
         | (refine have_of (a := a) x ?_ fun _ => ?_
            unfold x
            try lift_lets -underBinder
            rotate_left
            clear_value x)
         | clear_value x
         | skip)
    | lift_lets -underBinder | with_reducible apply State.mail_kept | with_reducible apply State.wr_kept
    | (split <;> try lift_lets -underBinder) | with_reducible apply Kept.record | with_reducible rfl

theorem State.wakeBy_kept {a s : State} {x1} (h : Kept a s) :
    Kept a (State.wakeBy s x1) := by
  unfold State.wakeBy
  try lift_lets -underBinder
  repeat' first
    | with_reducible assumption
    | (intro x
       first
         | (refine have_of (a := a) x ?_ fun _ => ?_
            unfold x
            try lift_lets -underBinder
            rotate_left
            clear_value x)
         | clear_value x
         | skip)
    | lift_lets -underBinder | (split <;> try lift_lets -underBinder) | with_reducible apply Kept.record
    | with_reducible rfl

theorem State.deliver_kept {a s : State} {x1 x2 x3} (h : Kept a s) :
    Kept a (State.deliver s x1 x2 x3) := by
  unfold State.deliver
  repeat' first
    | with_reducible assumption | with_reducible apply State.setDie_kept | with_reducible apply State.store_kept
    | split

theorem State.arriveFlit_kept {a s : State} {x1 x2 x3} (h : Kept a s) :
    Kept a (State.arriveFlit s x1 x2 x3) := by
  unfold State.arriveFlit
  try lift_lets -underBinder
  repeat' first
    | with_reducible assumption
    | (intro x
       first
         | (refine have_of (a := a) x ?_ fun _ => ?_
            unfold x
            try lift_lets -underBinder
            rotate_left
            clear_value x)
         | clear_value x
         | skip)
    | lift_lets -underBinder | with_reducible apply State.onLink_kept | with_reducible apply State.endReplay_kept
    | with_reducible apply each_kept | with_reducible apply State.deliver_kept
    | (split <;> try lift_lets -underBinder) | with_reducible apply Kept.record | with_reducible rfl

theorem State.loseDie_kept {a s : State} {x1 x2 x3} (h : Kept a s) :
    Kept a (State.loseDie s x1 x2 x3) := by
  unfold State.loseDie
  try lift_lets -underBinder
  repeat' first
    | with_reducible assumption
    | (intro x
       first
         | (refine have_of (a := a) x ?_ fun _ => ?_
            unfold x
            try lift_lets -underBinder
            rotate_left
            clear_value x)
         | clear_value x
         | skip)
    | lift_lets -underBinder | with_reducible apply State.raiseFrame_kept | with_reducible apply State.inc_kept
    | with_reducible apply State.wr_kept | with_reducible apply State.setDie_kept
    | with_reducible apply State.closeSite_kept | with_reducible apply State.markNote_kept
    | with_reducible apply State.showMarks_kept | with_reducible apply each_kept
    | with_reducible apply State.setRunSt_kept | with_reducible apply State.raise_kept
    | (split <;> try lift_lets -underBinder) | with_reducible apply Kept.record | with_reducible rfl

theorem State.cancelReplay_kept {a s : State} {x1 x2} (h : Kept a s) :
    Kept a (State.cancelReplay s x1 x2) := by
  unfold State.cancelReplay
  repeat' first
    | with_reducible assumption | with_reducible apply State.onLink_kept | with_reducible apply State.endReplay_kept
    | with_reducible apply State.endAgain_kept | split

theorem State.arrives_kept {a s : State} {x1 x2 x3 x4} {f : Nat → State → State} (h : Kept a s)
    (hf : ∀ n y, Kept a y → Kept a (f n y)) : Kept a (s.arrives x1 x2 x3 x4 f) := by
  unfold State.arrives
  split
  · split
    · exact State.frameAgain_kept h
    · extract_lets y
      have hy : Kept a y := State.endAgain_kept h
      clear_value y
      split
      · exact State.raise_kept hy
      · split
        · exact hf _ _ (State.wakeDie_kept (State.frameIn_kept hy))
        · exact hy
  · exact h

theorem State.tagBit_kept {a s : State} {x1 x2 x3} (h : Kept a s) :
    Kept a (State.tagBit s x1 x2 x3) := by
  unfold State.tagBit
  exact Kept.record h rfl rfl

end Sys2Proof.Machine
end

