-- ==== Sys2Proof/Laws/KeptMeter.lean ====
section
/-! SUPPORT. What the operations of the measuring part keep (Kept): one lemma for each. -/

namespace Sys2Proof.Machine

set_option Elab.async false

set_option linter.unreachableTactic false
set_option linter.unusedTactic false

theorem State.setQc_kept {a s : State} {x1 x2} (h : Kept a s) :
    Kept a (State.setQc s x1 x2) := by
  unfold State.setQc
  exact Kept.record h rfl rfl

theorem State.mark_kept {a s : State} {x1 x2} (h : Kept a s) :
    Kept a (State.mark s x1 x2) := by
  unfold State.mark
  exact Kept.record h rfl rfl

theorem State.unmark_kept {a s : State} {x1 x2} (h : Kept a s) :
    Kept a (State.unmark s x1 x2) := by
  unfold State.unmark
  exact Kept.record h rfl rfl

theorem State.alert_kept {a s : State} {x1} (h : Kept a s) :
    Kept a (State.alert s x1) := by
  unfold State.alert
  exact Kept.record h rfl rfl

theorem State.formMirror_kept {a s : State} {x1 x2} (h : Kept a s) :
    Kept a (State.formMirror s x1 x2) := by
  unfold State.formMirror
  try lift_lets -underBinder
  repeat' first
    | with_reducible assumption
    | (intro x
       first
         | (refine have_of (a := a) x ?_ fun _ => ?_
            unfold x
            try lift_lets -underBinder
            rotate_left
            clear_value x)
         | clear_value x
         | skip)
    | lift_lets -underBinder | with_reducible apply State.setQc_kept | (split <;> try lift_lets -underBinder)
    | with_reducible apply Kept.record | with_reducible rfl

theorem State.checkHold_kept {a s : State} (h : Kept a s) :
    Kept a (State.checkHold s) := by
  unfold State.checkHold
  repeat' first
    | with_reducible assumption | with_reducible apply State.alert_kept | with_reducible apply State.onQm_kept
    | split

theorem State.writeRec_kept {a s : State} {x1 f} (h : Kept a s) : Kept a (s.writeRec x1 f) :=
  State.checkHold_kept (State.onQm_kept h)

theorem State.putRec_kept {a s : State} {x1 f} (h : Kept a s) : Kept a (s.putRec x1 f) := by
  unfold State.putRec
  split
  · exact State.writeRec_kept h
  · exact State.onQm_kept h

theorem State.closeQStep_kept {a s : State} {x1 x2 x3 x4} (h : Kept a s) :
    Kept a (State.closeQStep s x1 x2 x3 x4) := by
  unfold State.closeQStep
  try lift_lets -underBinder
  repeat' first
    | with_reducible assumption
    | (intro x
       first
         | (refine have_of (a := a) x ?_ fun _ => ?_
            unfold x
            try lift_lets -underBinder
            rotate_left
            clear_value x)
         | clear_value x
         | skip)
    | lift_lets -underBinder | with_reducible apply State.draw_kept | with_reducible apply State.writeRec_kept
    | with_reducible apply State.setQc_kept | (split <;> try lift_lets -underBinder)
    | with_reducible apply Kept.record | with_reducible rfl

theorem State.startQStep_kept {a s : State} {x1 x2 x3 x4 x5 x6 x7 x8 x9 x10 x11} (h : Kept a s) :
    Kept a (State.startQStep s x1 x2 x3 x4 x5 x6 x7 x8 x9 x10 x11) := by
  unfold State.startQStep
  repeat' first
    | with_reducible assumption | with_reducible apply State.closeQStep_kept | with_reducible apply State.setQc_kept

theorem State.setRot_kept {a s : State} {x1 x2 x3} (h : Kept a s) :
    Kept a (State.setRot s x1 x2 x3) := by
  unfold State.setRot
  exact Kept.record h rfl rfl

theorem State.keep_kept {a s : State} {x1} (h : Kept a s) :
    Kept a (State.keep s x1) := by
  unfold State.keep
  exact Kept.record h rfl rfl

theorem State.heard_kept {a s : State} (h : Kept a s) :
    Kept a (State.heard s) := by
  unfold State.heard
  exact Kept.record h rfl rfl

theorem State.mailReply_kept {a s : State} {x1 x2 x3} (h : Kept a s) :
    Kept a (State.mailReply s x1 x2 x3) := by
  unfold State.mailReply
  try lift_lets -underBinder
  repeat' first
    | with_reducible assumption
    | (intro x
       first
         | (refine have_of (a := a) x ?_ fun _ => ?_
            unfold x
            try lift_lets -underBinder
            rotate_left
            clear_value x)
         | clear_value x
         | skip)
    | lift_lets -underBinder | with_reducible apply State.heard_kept | with_reducible apply State.onQm_kept
    | (split <;> try lift_lets -underBinder) | with_reducible apply Kept.record | with_reducible rfl

theorem State.answered_kept {a s : State} {x1} (h : Kept a s) :
    Kept a (State.answered s x1) := by
  unfold State.answered
  try lift_lets -underBinder
  repeat' first
    | with_reducible assumption
    | (intro x
       first
         | (refine have_of (a := a) x ?_ fun _ => ?_
            unfold x
            try lift_lets -underBinder
            rotate_left
            clear_value x)
         | clear_value x
         | skip)
    | lift_lets -underBinder | with_reducible apply State.pump_kept | (split <;> try lift_lets -underBinder)
    | with_reducible apply Kept.record | with_reducible rfl

theorem State.doStepStart_kept {a s : State} {x1} (h : Kept a s) :
    Kept a (State.doStepStart s x1) := by
  unfold State.doStepStart
  repeat' first
    | with_reducible assumption | with_reducible apply State.keep_kept | with_reducible apply State.startQStep_kept
    | split

theorem State.doStepClose_kept {a s : State} {x1} (h : Kept a s) :
    Kept a (State.doStepClose s x1) := by
  unfold State.doStepClose
  repeat' first
    | with_reducible assumption | with_reducible apply State.keep_kept | with_reducible apply State.closeQStep_kept
    | split

theorem State.doClose_kept {a s : State} {x1 x2 x3 x4} (h : Kept a s) :
    Kept a (State.doClose s x1 x2 x3 x4) := by
  unfold State.doClose
  repeat' first
    | with_reducible assumption | with_reducible apply State.doStepClose_kept | with_reducible apply State.onQm_kept

theorem State.doPeriodic_kept {a s : State} {x1} (h : Kept a s) :
    Kept a (State.doPeriodic s x1) := by
  unfold State.doPeriodic
  try lift_lets -underBinder
  repeat' first
    | with_reducible assumption
    | (intro x
       first
         | (refine have_of (a := a) x ?_ fun _ => ?_
            unfold x
            try lift_lets -underBinder
            rotate_left
            clear_value x)
         | clear_value x
         | skip)
    | lift_lets -underBinder | with_reducible apply State.keep_kept | with_reducible apply State.draw_kept
    | with_reducible apply State.putRec_kept | with_reducible apply State.setQc_kept
    | (split <;> try lift_lets -underBinder) | with_reducible apply Kept.record | with_reducible rfl

theorem State.doImpedance_kept {a s : State} {x1} (h : Kept a s) :
    Kept a (State.doImpedance s x1) := by
  unfold State.doImpedance
  try lift_lets -underBinder
  repeat' first
    | with_reducible assumption
    | (intro x
       first
         | (refine have_of (a := a) x ?_ fun _ => ?_
            unfold x
            try lift_lets -underBinder
            rotate_left
            clear_value x)
         | clear_value x
         | skip)
    | lift_lets -underBinder | with_reducible apply State.keep_kept | with_reducible apply State.draw_kept
    | with_reducible apply State.putRec_kept | with_reducible apply State.setQc_kept
    | (split <;> try lift_lets -underBinder) | with_reducible apply Kept.record | with_reducible rfl

theorem State.closeBatch_kept {a s : State} (h : Kept a s) :
    Kept a (State.closeBatch s) := by
  unfold State.closeBatch
  repeat' first
    | with_reducible assumption | with_reducible apply State.checkHold_kept | with_reducible apply State.onQm_kept

theorem State.ackTo_kept {a s : State} {x1} (h : Kept a s) :
    Kept a (State.ackTo s x1) := by
  unfold State.ackTo
  repeat' first
    | with_reducible assumption | with_reducible apply State.checkHold_kept | with_reducible apply State.onQm_kept

theorem State.doAck_kept {a s : State} {x1} (h : Kept a s) :
    Kept a (State.doAck s x1) := by
  unfold State.doAck
  repeat' first
    | with_reducible assumption | with_reducible apply State.ackTo_kept | split

theorem State.doSubscribe_kept {a s : State} {x1} (h : Kept a s) :
    Kept a (State.doSubscribe s x1) := by
  unfold State.doSubscribe
  repeat' first
    | with_reducible assumption | with_reducible apply State.mailReply_kept | with_reducible apply State.onQm_kept
    | split

theorem State.doCellId_kept {a s : State} {x1 x2} (h : Kept a s) :
    Kept a (State.doCellId s x1 x2) := by
  unfold State.doCellId
  repeat' first
    | with_reducible assumption | with_reducible apply State.mailReply_kept | with_reducible apply State.setQc_kept
    | split

theorem State.carry_kept {a s : State} {x1} (h : Kept a s) :
    Kept a (State.carry s x1) := by
  unfold State.carry
  try lift_lets -underBinder
  repeat' first
    | with_reducible assumption
    | (intro x
       first
         | (refine have_of (a := a) x ?_ fun _ => ?_
            unfold x
            try lift_lets -underBinder
            rotate_left
            clear_value x)
         | clear_value x
         | skip)
    | lift_lets -underBinder | with_reducible apply State.answered_kept | with_reducible apply State.doSubscribe_kept
    | with_reducible apply State.doCellId_kept | with_reducible apply State.mailReply_kept
    | with_reducible apply State.doStepStart_kept | with_reducible apply State.doClose_kept
    | with_reducible apply State.doAck_kept | (split <;> try lift_lets -underBinder)
    | with_reducible apply Kept.record | with_reducible rfl

theorem State.ahead_kept {a s : State} {x1} (h : Kept a s) :
    Kept a (State.ahead s x1) := by
  unfold State.ahead
  repeat' first
    | with_reducible assumption | with_reducible apply each_kept | with_reducible apply State.carry_kept

theorem State.flushMail_kept {a s : State} (h : Kept a s) :
    Kept a (State.flushMail s) := by
  unfold State.flushMail
  repeat' first
    | with_reducible assumption | with_reducible apply each_kept | with_reducible apply State.carry_kept

theorem State.request_kept {a s : State} {x1} (h : Kept a s) :
    Kept a (State.request s x1) := by
  unfold State.request
  repeat' first
    | with_reducible assumption | with_reducible apply State.carry_kept | with_reducible apply State.ahead_kept
    | split

theorem State.runHeld_kept {a s : State} {x1} (h : Kept a s) :
    Kept a (State.runHeld s x1) := by
  unfold State.runHeld
  repeat' first
    | with_reducible assumption | with_reducible apply State.doStepStart_kept
    | with_reducible apply State.doStepClose_kept | with_reducible apply State.doPeriodic_kept
    | with_reducible apply State.doImpedance_kept | split

theorem State.releaseHeld_kept {a s : State} (h : Kept a s) :
    Kept a (State.releaseHeld s) := by
  unfold State.releaseHeld
  repeat' first
    | with_reducible assumption | with_reducible apply each_kept | with_reducible apply State.runHeld_kept
    | with_reducible apply State.onQm_kept

theorem State.checkpointNow_kept {a s : State} (h : Kept a s) :
    Kept a (State.checkpointNow s) := by
  unfold State.checkpointNow
  exact Kept.record h rfl rfl

theorem State.qmRestart_kept {a s : State} (h : Kept a s) :
    Kept a (State.qmRestart s) := by
  unfold State.qmRestart
  try lift_lets -underBinder
  repeat' first
    | with_reducible assumption
    | (intro x
       first
         | (refine have_of (a := a) x ?_ fun _ => ?_
            unfold x
            try lift_lets -underBinder
            rotate_left
            clear_value x)
         | clear_value x
         | skip)
    | lift_lets -underBinder | with_reducible apply each_kept | with_reducible apply State.unmark_kept
    | with_reducible apply State.onQm_kept | (split <;> try lift_lets -underBinder)
    | with_reducible apply Kept.record | with_reducible rfl

theorem State.closeAtCheckpoint_kept {a s : State} {x1} (h : Kept a s) :
    Kept a (State.closeAtCheckpoint s x1) := by
  unfold State.closeAtCheckpoint
  try lift_lets -underBinder
  repeat' first
    | with_reducible assumption
    | (intro x
       first
         | (refine have_of (a := a) x ?_ fun _ => ?_
            unfold x
            try lift_lets -underBinder
            rotate_left
            clear_value x)
         | clear_value x
         | skip)
    | lift_lets -underBinder | with_reducible apply State.setQc_kept | with_reducible apply State.closeQStep_kept
    | (split <;> try lift_lets -underBinder) | with_reducible apply Kept.record | with_reducible rfl

theorem State.resumeChan_kept {a s : State} {x1 x2 x3} (h : Kept a s) :
    Kept a (State.resumeChan s x1 x2 x3) := by
  unfold State.resumeChan
  repeat' first
    | with_reducible assumption | with_reducible apply State.setQc_kept | split

theorem State.mclkFault_kept {a s : State} (h : Kept a s) :
    Kept a (State.mclkFault s) := by
  unfold State.mclkFault
  repeat' first
    | with_reducible assumption | with_reducible apply State.alert_kept | with_reducible apply State.mark_kept
    | with_reducible apply State.onQm_kept | split

theorem State.takeBeacon_kept {a s : State} {x1 x2 x3} (h : Kept a s) :
    Kept a (State.takeBeacon s x1 x2 x3) := by
  unfold State.takeBeacon
  repeat' first
    | with_reducible assumption | with_reducible apply State.onQm_kept | with_reducible apply State.alert_kept
    | with_reducible apply State.setClock_kept | split

theorem State.putMirror_kept {a s : State} {x1 x2} (h : Kept a s) :
    Kept a (State.putMirror s x1 x2) := by
  unfold State.putMirror
  try lift_lets -underBinder
  repeat' first
    | with_reducible assumption
    | (intro x
       first
         | (refine have_of (a := a) x ?_ fun _ => ?_
            unfold x
            try lift_lets -underBinder
            rotate_left
            clear_value x)
         | skip)
    | lift_lets -underBinder | with_reducible apply State.wr_kept | with_reducible apply State.compareMirror_kept
    | with_reducible apply State.setChan_kept | exact Kept.chan ‹_› ‹_› _ | exact slice_safe_cut _
    | exact Slice.Safe.same (slice_safe_cut {}) rfl rfl rfl | (split <;> try lift_lets -underBinder)
    | with_reducible apply Kept.record | with_reducible rfl

theorem State.takeEvent_kept {a s : State} {x1} (h : Kept a s) :
    Kept a (State.takeEvent s x1) := by
  unfold State.takeEvent
  repeat' first
    | with_reducible assumption | with_reducible apply State.backpressure_kept
    | with_reducible apply State.noteAt_kept | split

theorem State.countEvent_kept {a s : State} (h : Kept a s) :
    Kept a (State.countEvent s) := by
  unfold State.countEvent
  exact Kept.record h rfl rfl

theorem State.auditAdd_kept {a s : State} {x1 x2 x3 x4 x5 x6} (h : Kept a s) :
    Kept a (State.auditAdd s x1 x2 x3 x4 x5 x6) := by
  unfold State.auditAdd
  try lift_lets -underBinder
  repeat' first
    | with_reducible assumption
    | (intro x
       first
         | (refine have_of (a := a) x ?_ fun _ => ?_
            unfold x
            try lift_lets -underBinder
            rotate_left
            clear_value x)
         | clear_value x
         | skip)
    | lift_lets -underBinder | with_reducible apply State.onQm_kept | with_reducible apply State.alert_kept
    | (split <;> try lift_lets -underBinder) | with_reducible apply Kept.record | with_reducible rfl

theorem State.swapFw_kept {a s : State} (h : Kept a s) :
    Kept a (State.swapFw s) := by
  unfold State.swapFw
  repeat' first
    | with_reducible assumption | with_reducible apply State.auditAdd_kept | with_reducible apply State.onQm_kept

theorem State.activate_kept {a s : State} (h : Kept a s) :
    Kept a (State.activate s) := by
  unfold State.activate
  repeat' first
    | with_reducible assumption | with_reducible apply State.qmRestart_kept | with_reducible apply State.swapFw_kept
    | with_reducible apply State.checkpointNow_kept | split

theorem State.sealAgain_kept {a s : State} {x1 x2 x3} (h : Kept a s) :
    Kept a (State.sealAgain s x1 x2 x3) := by
  unfold State.sealAgain
  repeat' first
    | with_reducible assumption | with_reducible apply State.alert_kept | with_reducible apply State.unmark_kept
    | with_reducible apply State.onQm_kept | with_reducible apply State.auditAdd_kept

theorem State.leave_kept {a s : State} {x1 x2 x3} (h : Kept a s) :
    Kept a (State.leave s x1 x2 x3) := by
  unfold State.leave
  repeat' first
    | with_reducible assumption | with_reducible apply State.activate_kept
    | with_reducible apply State.sealAgain_kept

theorem State.expire_kept {a s : State} (h : Kept a s) :
    Kept a (State.expire s) := by
  unfold State.expire
  repeat' first
    | with_reducible assumption | with_reducible apply State.leave_kept | with_reducible apply State.onQm_kept

theorem State.setModl_kept {a s : State} {x1 x2 x3} (h : Kept a s) :
    Kept a (State.setModl s x1 x2 x3) := by
  unfold State.setModl
  exact Kept.record h rfl rfl

theorem State.writeItem_kept {a s : State} {x1 x2} (h : Kept a s) :
    Kept a (State.writeItem s x1 x2) := by
  unfold State.writeItem
  repeat' first
    | with_reducible assumption | with_reducible apply State.onQm_kept | with_reducible apply State.setModl_kept
    | split

theorem State.tokenEffect_kept {a s : State} {x1} (h : Kept a s) :
    Kept a (State.tokenEffect s x1) := by
  unfold State.tokenEffect
  repeat' first
    | with_reducible assumption | with_reducible apply State.onQm_kept | with_reducible apply State.auditAdd_kept
    | with_reducible apply State.alert_kept | with_reducible apply State.mark_kept
    | with_reducible apply State.leave_kept | with_reducible apply State.countEvent_kept
    | with_reducible apply State.writeItem_kept | split

theorem State.newMetNonce_kept {a s : State} (h : Kept a s) :
    Kept a (State.newMetNonce s) := by
  unfold State.newMetNonce
  repeat' first
    | with_reducible assumption | with_reducible apply State.onQm_kept | with_reducible apply State.draw_kept

theorem State.refuseToken_kept {a s : State} (h : Kept a s) :
    Kept a (State.refuseToken s) := by
  unfold State.refuseToken
  exact Kept.record h rfl rfl

theorem State.adjustReply_kept {a s : State} {x1} (h : Kept a s) :
    Kept a (State.adjustReply s x1) := by
  unfold State.adjustReply
  try lift_lets -underBinder
  repeat' first
    | with_reducible assumption
    | (intro x
       first
         | (refine have_of (a := a) x ?_ fun _ => ?_
            unfold x
            try lift_lets -underBinder
            rotate_left
            clear_value x)
         | clear_value x
         | skip)
    | lift_lets -underBinder | with_reducible apply State.mailReply_kept | with_reducible apply State.wr_kept
    | (split <;> try lift_lets -underBinder) | with_reducible apply Kept.record | with_reducible rfl

theorem State.takeToken_kept {a s : State} {x1} (h : Kept a s) :
    Kept a (State.takeToken s x1) := by
  unfold State.takeToken
  try lift_lets -underBinder
  repeat' first
    | with_reducible assumption
    | (intro x
       first
         | (refine have_of (a := a) x ?_ fun _ => ?_
            unfold x
            try lift_lets -underBinder
            rotate_left
            clear_value x)
         | clear_value x
         | skip)
    | lift_lets -underBinder | with_reducible apply State.adjustReply_kept
    | with_reducible apply State.newMetNonce_kept | with_reducible apply State.tokenEffect_kept
    | with_reducible apply State.expire_kept | with_reducible apply State.refuseToken_kept
    | (split <;> try lift_lets -underBinder) | with_reducible apply Kept.record | with_reducible rfl

theorem State.tokenIn_kept {a s : State} {x1 x2} (h : Kept a s) :
    Kept a (State.tokenIn s x1 x2) := by
  unfold State.tokenIn
  repeat' first
    | with_reducible assumption | with_reducible apply State.takeToken_kept
    | with_reducible apply State.flushMail_kept | split

theorem State.verifyFw_kept {a s : State} {x1 x2} (h : Kept a s) :
    Kept a (State.verifyFw s x1 x2).1 := by
  unfold State.verifyFw
  repeat' first
    | with_reducible assumption | with_reducible apply State.onQm_kept | with_reducible apply State.auditAdd_kept
    | with_reducible apply State.countEvent_kept | split

theorem State.takeSegment_kept {a s : State} {x1 x2} (h : Kept a s) :
    Kept a (State.takeSegment s x1 x2).1 := by
  unfold State.takeSegment
  try lift_lets -underBinder
  repeat' first
    | with_reducible assumption
    | (intro x
       first
         | (refine have_of (a := a) x ?_ fun _ => ?_
            unfold x
            try lift_lets -underBinder
            rotate_left
            clear_value x)
         | clear_value x
         | skip)
    | lift_lets -underBinder | with_reducible apply State.onQm_kept | with_reducible apply State.verifyFw_kept
    | (split <;> try lift_lets -underBinder) | with_reducible apply Kept.record | with_reducible rfl

theorem State.recause_kept {a s : State} (h : Kept a s) :
    Kept a (State.recause s) := by
  unfold State.recause
  repeat' first
    | with_reducible assumption | with_reducible apply State.onQm_kept | split

theorem State.acceptLevel_kept {a s : State} {x1} (h : Kept a s) :
    Kept a (State.acceptLevel s x1) := by
  unfold State.acceptLevel
  try lift_lets -underBinder
  repeat' first
    | with_reducible assumption
    | (intro x
       first
         | (refine have_of (a := a) x ?_ fun _ => ?_
            unfold x
            try lift_lets -underBinder
            rotate_left
            clear_value x)
         | clear_value x
         | skip)
    | lift_lets -underBinder | with_reducible apply State.onQm_kept | with_reducible apply State.leave_kept
    | with_reducible apply State.recause_kept | (split <;> try lift_lets -underBinder)
    | with_reducible apply Kept.record | with_reducible rfl

theorem State.rotationReset_kept {a s : State} (h : Kept a s) :
    Kept a (State.rotationReset s) := by
  unfold State.rotationReset
  try lift_lets -underBinder
  repeat' first
    | with_reducible assumption
    | (intro x
       first
         | (refine have_of (a := a) x ?_ fun _ => ?_
            unfold x
            try lift_lets -underBinder
            rotate_left
            clear_value x)
         | clear_value x
         | skip)
    | lift_lets -underBinder | with_reducible apply State.onQm_kept | (split <;> try lift_lets -underBinder)
    | with_reducible apply Kept.record | with_reducible rfl

theorem State.calEvent_kept {a s : State} {x1 x2 x3 x4} (h : Kept a s) :
    Kept a (State.calEvent s x1 x2 x3 x4) := by
  unfold State.calEvent
  exact Kept.record h rfl rfl

theorem State.abandonCycle_kept {a s : State} {x1 x2 x3} (h : Kept a s) :
    Kept a (State.abandonCycle s x1 x2 x3) := by
  unfold State.abandonCycle
  try lift_lets -underBinder
  repeat' first
    | with_reducible assumption
    | (intro x
       first
         | (refine have_of (a := a) x ?_ fun _ => ?_
            unfold x
            try lift_lets -underBinder
            rotate_left
            clear_value x)
         | clear_value x
         | skip)
    | lift_lets -underBinder | with_reducible apply State.onQm_kept | with_reducible apply State.calEvent_kept
    | with_reducible apply State.setRot_kept | (split <;> try lift_lets -underBinder)
    | with_reducible apply Kept.record | with_reducible rfl

theorem State.driftCheck_kept {a s : State} {x1 x2 x3 x4} (h : Kept a s) :
    Kept a (State.driftCheck s x1 x2 x3 x4) := by
  unfold State.driftCheck
  try lift_lets -underBinder
  repeat' first
    | with_reducible assumption
    | (intro x
       first
         | (refine have_of (a := a) x ?_ fun _ => ?_
            unfold x
            try lift_lets -underBinder
            rotate_left
            clear_value x)
         | clear_value x
         | skip)
    | lift_lets -underBinder | with_reducible apply State.calEvent_kept | with_reducible apply State.onQm_kept
    | with_reducible apply State.setModl_kept | (split <;> try lift_lets -underBinder)
    | with_reducible apply Kept.record | with_reducible rfl

theorem State.commitCycle_kept {a s : State} {x1 x2 x3} (h : Kept a s) :
    Kept a (State.commitCycle s x1 x2 x3) := by
  unfold State.commitCycle
  try lift_lets -underBinder
  repeat' first
    | with_reducible assumption
    | (intro x
       first
         | (refine have_of (a := a) x ?_ fun _ => ?_
            unfold x
            try lift_lets -underBinder
            rotate_left
            clear_value x)
         | clear_value x
         | skip)
    | lift_lets -underBinder | with_reducible apply each_kept | with_reducible apply State.setQc_kept
    | with_reducible apply State.driftCheck_kept | with_reducible apply State.onQm_kept
    | with_reducible apply State.setRot_kept | (split <;> try lift_lets -underBinder)
    | with_reducible apply Kept.record | with_reducible rfl

theorem State.becomeSpare_kept {a s : State} {x1 x2 x3} (h : Kept a s) :
    Kept a (State.becomeSpare s x1 x2 x3) := by
  unfold State.becomeSpare
  exact Kept.record h rfl rfl

theorem State.fitInput_kept {a s : State} {x1 x2 x3 x4 x5 x6} (h : Kept a s) :
    Kept a (State.fitInput s x1 x2 x3 x4 x5 x6) := by
  unfold State.fitInput
  try lift_lets -underBinder
  repeat' first
    | with_reducible assumption
    | (intro x
       first
         | (refine have_of (a := a) x ?_ fun _ => ?_
            unfold x
            try lift_lets -underBinder
            rotate_left
            clear_value x)
         | clear_value x
         | skip)
    | lift_lets -underBinder | with_reducible apply State.setRot_kept | (split <;> try lift_lets -underBinder)
    | with_reducible apply Kept.record | with_reducible rfl

theorem State.takeSample_kept {a s : State} {x1 x2 x3 x4 x5} (h : Kept a s) :
    Kept a (State.takeSample s x1 x2 x3 x4 x5) := by
  unfold State.takeSample
  exact Kept.record h rfl rfl

theorem State.startDiag_kept {a s : State} {x1 x2 x3} (h : Kept a s) :
    Kept a (State.startDiag s x1 x2 x3) := by
  unfold State.startDiag
  repeat' first
    | with_reducible assumption | with_reducible apply State.setAdc_kept | with_reducible apply State.inc_kept

theorem State.waitDiag_kept {a s : State} {x1 x2} (h : Kept a s) :
    Kept a (State.waitDiag s x1 x2) := by
  unfold State.waitDiag
  try lift_lets -underBinder
  repeat' first
    | with_reducible assumption
    | (intro x
       first
         | (refine have_of (a := a) x ?_ fun _ => ?_
            unfold x
            try lift_lets -underBinder
            rotate_left
            clear_value x)
         | clear_value x
         | skip)
    | lift_lets -underBinder | with_reducible apply State.setAdc_kept | with_reducible apply State.inc_kept
    | (split <;> try lift_lets -underBinder) | with_reducible apply Kept.record | with_reducible rfl

theorem State.failUnit_kept {a s : State} {x1 x2 x3} (h : Kept a s) :
    Kept a (State.failUnit s x1 x2 x3) := by
  unfold State.failUnit
  try lift_lets -underBinder
  repeat' first
    | with_reducible assumption
    | (intro x
       first
         | (refine have_of (a := a) x ?_ fun _ => ?_
            unfold x
            try lift_lets -underBinder
            rotate_left
            clear_value x)
         | clear_value x
         | skip)
    | lift_lets -underBinder | with_reducible apply State.inc_kept | with_reducible apply State.wr_kept
    | with_reducible apply State.latchChans_kept | with_reducible apply State.stopWith_kept
    | with_reducible apply each_kept | with_reducible apply State.latchAxis_kept
    | with_reducible apply State.latchDrive_kept | (split <;> try lift_lets -underBinder)
    | with_reducible apply Kept.record | with_reducible rfl

theorem diagnoseNowSet_kept {a s : State} {x1 x2} (h : Kept a s) :
    Kept a (diagnoseNowSet x1 s x2) := by
  unfold diagnoseNowSet
  try lift_lets -underBinder
  repeat' first
    | with_reducible assumption
    | (intro x
       first
         | (refine have_of (a := a) x ?_ fun _ => ?_
            unfold x
            try lift_lets -underBinder
            rotate_left
            clear_value x)
         | clear_value x
         | skip)
    | lift_lets -underBinder | with_reducible apply each_kept | with_reducible apply State.startDiag_kept
    | (split <;> try lift_lets -underBinder) | with_reducible apply Kept.record | with_reducible rfl

theorem calibrationSet_kept {a s : State} {x1 x2 x3 x4} (h : Kept a s) :
    Kept a (calibrationSet x1 x2 x3 s x4) := by
  unfold calibrationSet
  try lift_lets -underBinder
  repeat' first
    | with_reducible assumption
    | (intro x
       first
         | (refine have_of (a := a) x ?_ fun _ => ?_
            unfold x
            try lift_lets -underBinder
            rotate_left
            clear_value x)
         | clear_value x
         | skip)
    | lift_lets -underBinder | with_reducible apply State.wr_kept | with_reducible apply State.noteAt_kept
    | (split <;> try lift_lets -underBinder) | with_reducible apply Kept.record | with_reducible rfl

theorem State.hubView_kept {a s : State} (h : Kept a s) :
    Kept a (State.hubView s) := by
  unfold State.hubView
  exact Kept.record h rfl rfl

theorem State.metBack_kept {a s : State} (h : Kept a s) :
    Kept a (State.metBack s) := by
  unfold State.metBack
  try lift_lets -underBinder
  repeat' first
    | with_reducible assumption
    | (intro x
       first
         | (refine have_of (a := a) x ?_ fun _ => ?_
            unfold x
            try lift_lets -underBinder
            rotate_left
            clear_value x)
         | clear_value x
         | skip)
    | lift_lets -underBinder | with_reducible apply State.mail_kept | with_reducible apply State.wr_kept
    | with_reducible apply State.note_kept | (split <;> try lift_lets -underBinder)
    | with_reducible apply Kept.record | with_reducible rfl

theorem State.metAbsent_kept {a s : State} (h : Kept a s) :
    Kept a (State.metAbsent s) := by
  unfold State.metAbsent
  try lift_lets -underBinder
  repeat' first
    | with_reducible assumption
    | (intro x
       first
         | (refine have_of (a := a) x ?_ fun _ => ?_
            unfold x
            try lift_lets -underBinder
            rotate_left
            clear_value x)
         | clear_value x
         | skip)
    | lift_lets -underBinder | with_reducible apply State.note_kept | (split <;> try lift_lets -underBinder)
    | with_reducible apply Kept.record | with_reducible rfl

theorem State.portReply_kept {a s : State} {x1 x2 x3} (h : Kept a s) :
    Kept a (State.portReply s x1 x2 x3) := by
  unfold State.portReply
  exact Kept.record h rfl rfl

theorem State.portItem_kept {a s : State} {x1 x2} (h : Kept a s) :
    Kept a (State.portItem s x1 x2) := by
  unfold State.portItem
  repeat' first
    | with_reducible assumption | with_reducible apply State.portReply_kept | split

end Sys2Proof.Machine
end

