-- ==== Sys2Proof/Laws/KeptPorts.lean ====
section
/-! SUPPORT. What the operations of CAN FD, latches, supplies, the password and security keep (Kept): one lemma for each. -/

namespace Sys2Proof.Machine

set_option Elab.async false

set_option linter.unreachableTactic false
set_option linter.unusedTactic false

theorem State.ringPut_kept {a s : State} {x1 x2} (h : Kept a s) :
    Kept a (State.ringPut s x1 x2) := by
  unfold State.ringPut
  try lift_lets -underBinder
  repeat' first
    | with_reducible assumption
    | (intro x
       first
         | (refine have_of (a := a) x ?_ fun _ => ?_
            unfold x
            try lift_lets -underBinder
            rotate_left
            clear_value x)
         | clear_value x
         | skip)
    | lift_lets -underBinder | with_reducible apply State.inc_kept | with_reducible apply State.setPort_kept
    | (split <;> try lift_lets -underBinder) | with_reducible apply Kept.record | with_reducible rfl

theorem State.removed_kept {a s : State} {x1 x2 x3} (h : Kept a s) :
    Kept a (State.removed s x1 x2 x3) := by
  unfold State.removed
  repeat' first
    | with_reducible assumption | with_reducible apply State.ringPut_kept

theorem State.removeTx_kept {a s : State} {x1 f g} (h : Kept a s) : Kept a (s.removeTx x1 f g) :=
  each_kept (State.setPort_kept h) fun _ _ hy => State.removed_kept hy

theorem State.errorEvent_kept {a s : State} {x1 x2 x3} (h : Kept a s) :
    Kept a (State.errorEvent s x1 x2 x3) := by
  unfold State.errorEvent
  repeat' first
    | with_reducible assumption | with_reducible apply State.ringPut_kept

theorem State.busOff_kept {a s : State} {x1 x2} (h : Kept a s) :
    Kept a (State.busOff s x1 x2) := by
  unfold State.busOff
  try lift_lets -underBinder
  repeat' first
    | with_reducible assumption
    | (intro x
       first
         | (refine have_of (a := a) x ?_ fun _ => ?_
            unfold x
            try lift_lets -underBinder
            rotate_left
            clear_value x)
         | clear_value x
         | skip)
    | lift_lets -underBinder | with_reducible apply State.errorEvent_kept | with_reducible apply State.inc_kept
    | with_reducible apply State.wr_kept | with_reducible apply State.removeTx_kept
    | (split <;> try lift_lets -underBinder) | with_reducible apply Kept.record | with_reducible rfl

theorem State.setCounters_kept {a s : State} {x1 x2 x3 x4} (h : Kept a s) :
    Kept a (State.setCounters s x1 x2 x3 x4) := by
  unfold State.setCounters
  try lift_lets -underBinder
  repeat' first
    | with_reducible assumption
    | (intro x
       first
         | (refine have_of (a := a) x ?_ fun _ => ?_
            unfold x
            try lift_lets -underBinder
            rotate_left
            clear_value x)
         | clear_value x
         | skip)
    | lift_lets -underBinder | with_reducible apply State.wr_kept | with_reducible apply State.busOff_kept
    | with_reducible apply State.errorEvent_kept | (split <;> try lift_lets -underBinder)
    | with_reducible apply Kept.record | with_reducible rfl

theorem State.applyMode_kept {a s : State} {x1 x2} (h : Kept a s) :
    Kept a (State.applyMode s x1 x2) := by
  unfold State.applyMode
  try lift_lets -underBinder
  repeat' first
    | with_reducible assumption
    | (intro x
       first
         | (refine have_of (a := a) x ?_ fun _ => ?_
            unfold x
            try lift_lets -underBinder
            rotate_left
            clear_value x)
         | clear_value x
         | skip)
    | lift_lets -underBinder | with_reducible apply State.setPort_kept | with_reducible apply State.removeTx_kept
    | with_reducible apply State.errorEvent_kept | with_reducible apply State.wr_kept
    | (split <;> try lift_lets -underBinder) | with_reducible apply Kept.record | with_reducible rfl

theorem State.frameEnd_kept {a s : State} {x1} (h : Kept a s) :
    Kept a (State.frameEnd s x1) := by
  unfold State.frameEnd
  repeat' first
    | with_reducible assumption | with_reducible apply State.applyMode_kept | split

theorem canModeSet_kept {a s : State} {x1 x2 x3 x4} (h : Kept a s) :
    Kept a (canModeSet x1 x2 x3 s x4) := by
  unfold canModeSet
  repeat' first
    | with_reducible assumption | with_reducible apply State.wr_kept | with_reducible apply State.setPort_kept
    | with_reducible apply State.applyMode_kept | split

theorem submitSet_kept {a s : State} {x1 x2 x3} (h : Kept a s) :
    Kept a (submitSet x1 x2 s x3) := by
  unfold submitSet
  exact Kept.record h rfl rfl

theorem State.cancelTx_kept {a s : State} {x1 f n b} (h : Kept a s) : Kept a (s.cancelTx x1 f n b) :=
  State.removeTx_kept (State.setPort_kept h)

theorem cancelSet_kept {a s : State} {x1 x2 x3 x4} (h : Kept a s) :
    Kept a (cancelSet x1 x2 x3 s x4) := by
  unfold cancelSet
  repeat' first
    | with_reducible assumption | with_reducible apply State.cancelTx_kept

theorem State.headFails_kept {a s : State} {x1 x2} (h : Kept a s) :
    Kept a (State.headFails s x1 x2) := by
  unfold State.headFails
  repeat' first
    | with_reducible assumption | with_reducible apply State.removed_kept | with_reducible apply State.setPort_kept
    | split

theorem restartSet_kept {a s : State} {x1 x2} (h : Kept a s) :
    Kept a (restartSet x1 s x2) := by
  unfold restartSet
  repeat' first
    | with_reducible assumption | with_reducible apply State.wr_kept

theorem consumerSet_kept {a s : State} {x1 x2 x3} (h : Kept a s) :
    Kept a (consumerSet x1 x2 s x3) := by
  unfold consumerSet
  exact Kept.record h rfl rfl

theorem State.clearNote_kept {a s : State} {x1 x2 x3 x4 x5} (h : Kept a s) :
    Kept a (State.clearNote s x1 x2 x3 x4 x5) := by
  unfold State.clearNote
  repeat' first
    | with_reducible assumption | with_reducible apply State.raise_kept | with_reducible apply State.draw_kept

theorem State.clearChan_kept {a s : State} {x1 x2} (h : Kept a s) :
    Kept a (State.clearChan s x1 x2) := by
  unfold State.clearChan
  try lift_lets -underBinder
  repeat' first
    | with_reducible assumption
    | (intro x
       first
         | (refine have_of (a := a) x ?_ fun _ => ?_
            unfold x
            try lift_lets -underBinder
            rotate_left
            clear_value x)
         | clear_value x
         | skip)
    | lift_lets -underBinder | with_reducible apply State.wr_kept | with_reducible apply State.clearNote_kept
    | with_reducible apply State.deassertSource_kept | (split <;> try lift_lets -underBinder)
    | with_reducible apply Kept.record | with_reducible rfl

theorem clearSet_kept {a s : State} {x1 x2} (h : Kept a s) :
    Kept a (clearSet x1 s x2) := by
  unfold clearSet
  try lift_lets -underBinder
  repeat' first
    | with_reducible assumption
    | (intro x
       first
         | (refine have_of (a := a) x ?_ fun _ => ?_
            unfold x
            try lift_lets -underBinder
            rotate_left
            clear_value x)
         | clear_value x
         | skip)
    | lift_lets -underBinder | with_reducible apply State.clockMark_kept | with_reducible apply each_kept
    | with_reducible apply State.clearChan_kept | with_reducible apply State.wakeDie_kept
    | (split <;> try lift_lets -underBinder) | with_reducible apply Kept.record | with_reducible rfl

theorem State.clearStage_kept {a s : State} {x1 x2 x3} (h : Kept a s) :
    Kept a (State.clearStage s x1 x2 x3) := by
  unfold State.clearStage
  try lift_lets -underBinder
  repeat' first
    | with_reducible assumption
    | (intro x
       first
         | (refine have_of (a := a) x ?_ fun _ => ?_
            unfold x
            try lift_lets -underBinder
            rotate_left
            clear_value x)
         | clear_value x
         | skip)
    | lift_lets -underBinder | with_reducible apply State.clearNote_kept | with_reducible apply State.clearDab_kept
    | with_reducible apply State.deassertSource_kept | (split <;> try lift_lets -underBinder)
    | with_reducible apply Kept.record | with_reducible rfl

theorem State.clearSegment_kept {a s : State} {x1 x2} (h : Kept a s) :
    Kept a (State.clearSegment s x1 x2) := by
  unfold State.clearSegment
  repeat' first
    | with_reducible assumption | with_reducible apply State.clearNote_kept | with_reducible apply State.wr_kept
    | with_reducible apply State.showMarks_kept | with_reducible apply State.setDie_kept | split

theorem dieClearSet_kept {a s : State} {x1 x2} (h : Kept a s) :
    Kept a (dieClearSet x1 s x2) := by
  unfold dieClearSet
  try lift_lets -underBinder
  repeat' first
    | with_reducible assumption
    | (intro x
       first
         | (refine have_of (a := a) x ?_ fun _ => ?_
            unfold x
            try lift_lets -underBinder
            rotate_left
            clear_value x)
         | clear_value x
         | skip)
    | lift_lets -underBinder | with_reducible apply State.clearSegment_kept | with_reducible apply State.wakeDie_kept
    | with_reducible apply each_kept | with_reducible apply State.clearStage_kept
    | with_reducible apply State.clockMark_kept | with_reducible apply State.clearChan_kept
    | (split <;> try lift_lets -underBinder) | with_reducible apply Kept.record | with_reducible rfl

theorem State.clearGroup_kept {a s : State} {x1 x2} (h : Kept a s) :
    Kept a (State.clearGroup s x1 x2) := by
  unfold State.clearGroup
  try lift_lets -underBinder
  repeat' first
    | with_reducible assumption
    | (intro x
       first
         | (refine have_of (a := a) x ?_ fun _ => ?_
            unfold x
            try lift_lets -underBinder
            rotate_left
            clear_value x)
         | clear_value x
         | skip)
    | lift_lets -underBinder | with_reducible apply State.wr_kept | with_reducible apply each_kept
    | with_reducible apply State.setUnit_kept | with_reducible apply State.clearNote_kept
    | (split <;> try lift_lets -underBinder) | with_reducible apply Kept.record | with_reducible rfl

theorem fltClearSet_kept {a s : State} {x1 x2 x3} (h : Kept a s) :
    Kept a (fltClearSet x1 x2 s x3) := by
  unfold fltClearSet
  try lift_lets -underBinder
  repeat' first
    | with_reducible assumption
    | (intro x
       first
         | (refine have_of (a := a) x ?_ fun _ => ?_
            unfold x
            try lift_lets -underBinder
            rotate_left
            clear_value x)
         | clear_value x
         | skip)
    | lift_lets -underBinder | with_reducible apply each_kept | with_reducible apply State.clearGroup_kept
    | (split <;> try lift_lets -underBinder) | with_reducible apply Kept.record | with_reducible rfl

theorem bldcClearSet_kept {a s : State} {x1 x2 x3} (h : Kept a s) :
    Kept a (bldcClearSet x1 x2 s x3) := by
  unfold bldcClearSet
  repeat' first
    | with_reducible assumption | with_reducible apply State.clearNote_kept | with_reducible apply State.wr_kept
    | with_reducible apply State.enterDrive_kept | split

theorem axisClearSet_kept {a s : State} {x1 x2 x3} (h : Kept a s) :
    Kept a (axisClearSet x1 x2 s x3) := by
  unfold axisClearSet
  repeat' first
    | with_reducible assumption | with_reducible apply State.axisBit_kept
    | with_reducible apply State.targetHere_kept | with_reducible apply State.wr_kept
    | with_reducible apply State.setAxis_kept | with_reducible apply State.clearNote_kept | split

theorem State.bankNote_kept {a s : State} {x1 x2} (h : Kept a s) :
    Kept a (State.bankNote s x1 x2) := by
  unfold State.bankNote
  repeat' first
    | with_reducible assumption | with_reducible apply State.supplyNote_kept | split

theorem State.markBank_kept {a s : State} {x1 x2} (h : Kept a s) :
    Kept a (State.markBank s x1 x2) := by
  unfold State.markBank
  try lift_lets -underBinder
  repeat' first
    | with_reducible assumption
    | (intro x
       first
         | (refine have_of (a := a) x ?_ fun _ => ?_
            unfold x
            try lift_lets -underBinder
            rotate_left
            clear_value x)
         | clear_value x
         | skip)
    | lift_lets -underBinder | with_reducible apply State.onQm_kept | with_reducible apply State.wr_kept
    | (split <;> try lift_lets -underBinder) | with_reducible apply Kept.record | with_reducible rfl

theorem State.siteSupply_kept {a s : State} {x1} (h : Kept a s) :
    Kept a (State.siteSupply s x1) := by
  unfold State.siteSupply
  try lift_lets -underBinder
  repeat' first
    | with_reducible assumption
    | (intro x
       first
         | (refine have_of (a := a) x ?_ fun _ => ?_
            unfold x
            try lift_lets -underBinder
            rotate_left
            clear_value x)
         | clear_value x
         | skip)
    | lift_lets -underBinder | with_reducible apply each_kept | with_reducible apply State.latchOne_kept
    | with_reducible apply State.openCorr_kept | with_reducible apply State.latchDab_kept
    | with_reducible apply State.raiseFrame_kept | (split <;> try lift_lets -underBinder)
    | with_reducible apply Kept.record | with_reducible rfl

theorem State.networkSupply_kept {a s : State} (h : Kept a s) :
    Kept a (State.networkSupply s) := by
  unfold State.networkSupply
  try lift_lets -underBinder
  repeat' first
    | with_reducible assumption
    | (intro x
       first
         | (refine have_of (a := a) x ?_ fun _ => ?_
            unfold x
            try lift_lets -underBinder
            rotate_left
            clear_value x)
         | skip)
    | lift_lets -underBinder | with_reducible apply State.wr_kept | (split <;> try lift_lets -underBinder)
    | with_reducible apply Kept.record | with_reducible rfl

theorem State.bankLost_kept {a s : State} {x1} (h : Kept a s) :
    Kept a (State.bankLost s x1) := by
  unfold State.bankLost
  repeat' first
    | with_reducible assumption | with_reducible apply State.controlledStop_kept
    | with_reducible apply State.latchHubOutputs_kept | with_reducible apply State.networkSupply_kept
    | with_reducible apply State.mclkFault_kept | with_reducible apply State.siteSupply_kept | split

theorem State.readBank_kept {a s : State} {x1 x2} (h : Kept a s) :
    Kept a (State.readBank s x1 x2) := by
  unfold State.readBank
  try lift_lets -underBinder
  repeat' first
    | with_reducible assumption
    | (intro x
       first
         | (refine have_of (a := a) x ?_ fun _ => ?_
            unfold x
            try lift_lets -underBinder
            rotate_left
            clear_value x)
         | clear_value x
         | skip)
    | lift_lets -underBinder | with_reducible apply State.onQm_kept | with_reducible apply State.wr_kept
    | (split <;> try lift_lets -underBinder) | with_reducible apply Kept.record | with_reducible rfl

theorem State.hotJob_kept {a s : State} (h : Kept a s) :
    Kept a (State.hotJob s) := by
  unfold State.hotJob
  try lift_lets -underBinder
  repeat' first
    | with_reducible assumption
    | (intro x
       first
         | (refine have_of (a := a) x ?_ fun _ => ?_
            unfold x
            try lift_lets -underBinder
            rotate_left
            clear_value x)
         | clear_value x
         | skip)
    | lift_lets -underBinder | with_reducible apply State.controlledStop_kept
    | (split <;> try lift_lets -underBinder) | with_reducible apply Kept.record | with_reducible rfl

theorem State.setLockbox_kept {a s : State} {x1} (h : Kept a s) :
    Kept a (State.setLockbox s x1) := by
  unfold State.setLockbox
  exact Kept.record h rfl rfl

theorem State.logEntry_kept {a s : State} {x1 x2 x3 x4 x5} (h : Kept a s) :
    Kept a (State.logEntry s x1 x2 x3 x4 x5) := by
  unfold State.logEntry
  repeat' first
    | with_reducible assumption | with_reducible apply State.setLockbox_kept | with_reducible apply State.draw_kept

theorem State.logEvent_kept {a s : State} {x1 x2} (h : Kept a s) :
    Kept a (State.logEvent s x1 x2) := by
  unfold State.logEvent
  repeat' first
    | with_reducible assumption | with_reducible apply State.logEntry_kept

theorem State.endUnlock_kept {a s : State} (h : Kept a s) :
    Kept a (State.endUnlock s) := by
  unfold State.endUnlock
  try lift_lets -underBinder
  repeat' first
    | with_reducible assumption
    | (intro x
       first
         | (refine have_of (a := a) x ?_ fun _ => ?_
            unfold x
            try lift_lets -underBinder
            rotate_left
            clear_value x)
         | skip)
    | lift_lets -underBinder | with_reducible apply State.setLockbox_kept | (split <;> try lift_lets -underBinder)
    | with_reducible apply Kept.record | with_reducible rfl

theorem State.endLockout_kept {a s : State} (h : Kept a s) :
    Kept a (State.endLockout s) := by
  unfold State.endLockout
  repeat' first
    | with_reducible assumption | with_reducible apply State.wr_kept | with_reducible apply State.setLockbox_kept
    | split

theorem State.wrongPassword_kept {a s : State} {x1} (h : Kept a s) :
    Kept a (State.wrongPassword s x1) := by
  unfold State.wrongPassword
  try lift_lets -underBinder
  repeat' first
    | with_reducible assumption
    | (intro x
       first
         | (refine have_of (a := a) x ?_ fun _ => ?_
            unfold x
            try lift_lets -underBinder
            rotate_left
            clear_value x)
         | clear_value x
         | skip)
    | lift_lets -underBinder | with_reducible apply State.endLockout_kept | with_reducible apply State.logEvent_kept
    | with_reducible apply State.wr_kept | with_reducible apply State.setLockbox_kept
    | (split <;> try lift_lets -underBinder) | with_reducible apply Kept.record | with_reducible rfl

theorem unlockSet_kept {a s : State} {x1 x2} (h : Kept a s) :
    Kept a (unlockSet x1 s x2) := by
  unfold unlockSet
  try lift_lets -underBinder
  repeat' first
    | with_reducible assumption
    | (intro x
       first
         | (refine have_of (a := a) x ?_ fun _ => ?_
            unfold x
            try lift_lets -underBinder
            rotate_left
            clear_value x)
         | skip)
    | lift_lets -underBinder | with_reducible apply State.wr_kept | with_reducible apply State.endLockout_kept
    | with_reducible apply State.endUnlock_kept | (split <;> try lift_lets -underBinder)
    | with_reducible apply Kept.record | with_reducible rfl

theorem State.countWrong_kept {a s : State} {x1 x2} (h : Kept a s) :
    Kept a (State.countWrong s x1 x2) := by
  unfold State.countWrong
  repeat' first
    | with_reducible assumption | with_reducible apply State.wrongPassword_kept | split

theorem passwordSet_kept {a s : State} {x1 x2 x3} (h : Kept a s) :
    Kept a (passwordSet x1 x2 s x3) := by
  unfold passwordSet
  repeat' first
    | with_reducible assumption | with_reducible apply State.wr_kept | with_reducible apply State.endLockout_kept
    | with_reducible apply State.draw_kept | with_reducible apply State.logEvent_kept
    | with_reducible apply State.setLockbox_kept

theorem rwpSet_kept {a s : State} {x1 x2 x3 x4} (h : Kept a s) :
    Kept a (rwpSet x1 x2 x3 s x4) := by
  unfold rwpSet
  try lift_lets -underBinder
  repeat' first
    | with_reducible assumption
    | (intro x
       first
         | (refine have_of (a := a) x ?_ fun _ => ?_
            unfold x
            try lift_lets -underBinder
            rotate_left
            clear_value x)
         | skip)
    | lift_lets -underBinder | with_reducible apply State.setLockbox_kept | (split <;> try lift_lets -underBinder)
    | with_reducible apply Kept.record | with_reducible rfl

theorem State.reconfigure_kept {a s : State} (h : Kept a s) :
    Kept a (State.reconfigure s) := by
  unfold State.reconfigure
  try lift_lets -underBinder
  repeat' first
    | with_reducible assumption
    | (intro x
       first
         | (refine have_of (a := a) x ?_ fun _ => ?_
            unfold x
            try lift_lets -underBinder
            rotate_left
            clear_value x)
         | clear_value x
         | skip)
    | lift_lets -underBinder | with_reducible apply each_kept | with_reducible apply State.wr_kept
    | with_reducible apply State.openKdrv_kept | with_reducible apply State.showActive_kept
    | with_reducible apply State.freeOut_kept | with_reducible apply State.stoOut_kept
    | (split <;> try lift_lets -underBinder) | with_reducible apply Kept.record | with_reducible rfl

theorem applySet_kept {a s : State} {x1 x2} (h : Kept a s) :
    Kept a (applySet x1 s x2) := by
  unfold applySet
  try lift_lets -underBinder
  repeat' first
    | with_reducible assumption
    | (intro x
       first
         | (refine have_of (a := a) x ?_ fun _ => ?_
            unfold x
            try lift_lets -underBinder
            rotate_left
            clear_value x)
         | skip)
    | lift_lets -underBinder | with_reducible apply each_kept | with_reducible apply State.wr_kept
    | with_reducible apply State.setLockbox_kept | with_reducible apply State.logEntry_kept
    | with_reducible apply State.reconfigure_kept | with_reducible apply State.clearHold_kept
    | with_reducible apply State.setHold_kept | with_reducible apply State.logEvent_kept
    | (split <;> try lift_lets -underBinder) | with_reducible apply Kept.record | with_reducible rfl

theorem rootWriteSet_kept {a s : State} {x1 x2 x3} (h : Kept a s) :
    Kept a (rootWriteSet x1 x2 s x3) := by
  unfold rootWriteSet
  exact Kept.record h rfl rfl

theorem revokeSet_kept {a s : State} {x1 x2} (h : Kept a s) :
    Kept a (revokeSet x1 s x2) := by
  unfold revokeSet
  exact Kept.record h rfl rfl

theorem rollbackSet_kept {a s : State} {x1 x2} (h : Kept a s) :
    Kept a (rollbackSet x1 s x2) := by
  unfold rollbackSet
  try lift_lets -underBinder
  repeat' first
    | with_reducible assumption
    | (intro x
       first
         | (refine have_of (a := a) x ?_ fun _ => ?_
            unfold x
            try lift_lets -underBinder
            rotate_left
            clear_value x)
         | clear_value x
         | skip)
    | lift_lets -underBinder | with_reducible apply each_kept | with_reducible apply State.setSlotState_kept
    | with_reducible apply State.wr_kept | (split <;> try lift_lets -underBinder) | with_reducible apply Kept.record
    | with_reducible rfl

theorem preferSet_kept {a s : State} {x1 x2 x3} (h : Kept a s) :
    Kept a (preferSet x1 x2 s x3) := by
  unfold preferSet
  repeat' first
    | with_reducible assumption | with_reducible apply State.prefer_kept

theorem State.openLoad_kept {a s : State} {x1 x2 x3} (h : Kept a s) :
    Kept a (State.openLoad s x1 x2 x3) := by
  unfold State.openLoad
  repeat' first
    | with_reducible assumption | with_reducible apply State.setSec_kept | with_reducible apply State.wr_kept
    | with_reducible apply State.setSlotState_kept

theorem State.loadBegin_kept {a s : State} {x1 x2 x3} (h : Kept a s) :
    Kept a (State.loadBegin s x1 x2 x3) := by
  unfold State.loadBegin
  try lift_lets -underBinder
  repeat' first
    | with_reducible assumption
    | (intro x
       first
         | (refine have_of (a := a) x ?_ fun _ => ?_
            unfold x
            try lift_lets -underBinder
            rotate_left
            clear_value x)
         | clear_value x
         | skip)
    | lift_lets -underBinder | with_reducible apply State.serve_kept | with_reducible apply needDone_kept
    | with_reducible apply done_kept | with_reducible apply State.openLoad_kept | with_reducible apply keptAns_ok
    | with_reducible apply keptAns_error | (split <;> try lift_lets -underBinder) | with_reducible apply Kept.record
    | with_reducible rfl

theorem pieceSet_kept {a s : State} {x1 x2 x3} (h : Kept a s) :
    Kept a (pieceSet x1 x2 s x3) := by
  unfold pieceSet
  exact Kept.record h rfl rfl

theorem loadEndSet_kept {a s : State} {x1 x2} (h : Kept a s) :
    Kept a (loadEndSet x1 s x2) := by
  unfold loadEndSet
  repeat' first
    | with_reducible assumption | with_reducible apply State.setSec_kept | with_reducible apply State.wr_kept
    | with_reducible apply State.prefer_kept | with_reducible apply State.setSlotState_kept
    | with_reducible apply State.imageNote_kept | split

theorem debugSet_kept {a s : State} {x1} (h : Kept a s) :
    Kept a (debugSet s x1) := by
  unfold debugSet
  repeat' first
    | with_reducible assumption | with_reducible apply State.newNonce_kept | with_reducible apply State.wr_kept
    | with_reducible apply State.setSec_kept

theorem debugLockSet_kept {a s : State} {x1} (h : Kept a s) :
    Kept a (debugLockSet s x1) := by
  unfold debugLockSet
  repeat' first
    | with_reducible assumption | with_reducible apply State.endUnlock_kept | with_reducible apply State.wr_kept
    | with_reducible apply State.setSec_kept | split

theorem State.setAttNonce_kept {a s : State} {x1 x2} (h : Kept a s) :
    Kept a (State.setAttNonce s x1 x2) := by
  unfold State.setAttNonce
  repeat' first
    | with_reducible assumption | with_reducible apply State.setSession_kept | with_reducible apply State.setSec_kept
    | split

end Sys2Proof.Machine
end

