-- ==== Sys2Proof/Laws/KeptKeyway.lean ====
section
/-! SUPPORT. What the operations of objects, the trail, writes and Keyway keep (Kept): one lemma for each. -/

namespace Sys2Proof.Machine

set_option Elab.async false

set_option linter.unreachableTactic false
set_option linter.unusedTactic false

theorem State.readReport_kept {a s : State} {x1 x2} (h : Kept a s) :
    KeptAns a (State.readReport s x1 x2) := by
  unfold State.readReport
  repeat' first
    | with_reducible assumption | with_reducible apply State.draw_kept | with_reducible apply State.setAttNonce_kept
    | with_reducible apply keptAns_ok | with_reducible apply keptAns_error | split

theorem State.readSpan_kept {a s : State} {x1 x2 x3} (h : Kept a s) :
    KeptAns a (State.readSpan s x1 x2 x3) := by
  unfold State.readSpan
  try lift_lets -underBinder
  repeat' first
    | with_reducible assumption
    | (intro x
       first
         | (refine have_of (a := a) x ?_ fun _ => ?_
            unfold x
            try lift_lets -underBinder
            rotate_left
            clear_value x)
         | clear_value x
         | skip)
    | lift_lets -underBinder | with_reducible apply State.readReport_kept | with_reducible apply State.draw_kept
    | with_reducible apply keptAns_ok | with_reducible apply keptAns_error | (split <;> try lift_lets -underBinder)
    | with_reducible apply Kept.record | with_reducible rfl

theorem State.freeze_kept {a s : State} (h : Kept a s) :
    Kept a (State.freeze s) := by
  unfold State.freeze
  try lift_lets -underBinder
  repeat' first
    | with_reducible assumption
    | (intro x
       first
         | (refine have_of (a := a) x ?_ fun _ => ?_
            unfold x
            try lift_lets -underBinder
            rotate_left
            clear_value x)
         | clear_value x
         | skip)
    | lift_lets -underBinder | with_reducible apply State.wr_kept | (split <;> try lift_lets -underBinder)
    | with_reducible apply Kept.record | with_reducible rfl

theorem cursorSet_kept {a s : State} {x1 x2} (h : Kept a s) :
    Kept a (cursorSet x1 s x2) := by
  unfold cursorSet
  exact Kept.record h rfl rfl

theorem severitySet_kept {a s : State} {x1 x2} (h : Kept a s) :
    Kept a (severitySet x1 s x2) := by
  unfold severitySet
  try lift_lets -underBinder
  repeat' first
    | with_reducible assumption
    | (intro x
       first
         | (refine have_of (a := a) x ?_ fun _ => ?_
            unfold x
            try lift_lets -underBinder
            rotate_left
            clear_value x)
         | clear_value x
         | skip)
    | lift_lets -underBinder | with_reducible apply State.wr_kept | (split <;> try lift_lets -underBinder)
    | with_reducible apply Kept.record | with_reducible rfl

theorem unfreezeSet_kept {a s : State} {x1} (h : Kept a s) :
    Kept a (unfreezeSet s x1) := by
  unfold unfreezeSet
  try lift_lets -underBinder
  repeat' first
    | with_reducible assumption
    | (intro x
       first
         | (refine have_of (a := a) x ?_ fun _ => ?_
            unfold x
            try lift_lets -underBinder
            rotate_left
            clear_value x)
         | clear_value x
         | skip)
    | lift_lets -underBinder | with_reducible apply State.wr_kept | with_reducible apply State.note_kept
    | (split <;> try lift_lets -underBinder) | with_reducible apply Kept.record | with_reducible rfl

theorem hostKeySet_kept {a s : State} {x1 x2 x3} (h : Kept a s) :
    Kept a (hostKeySet x1 x2 s x3) := by
  unfold hostKeySet
  try lift_lets -underBinder
  repeat' first
    | with_reducible assumption
    | (intro x
       first
         | (refine have_of (a := a) x ?_ fun _ => ?_
            unfold x
            try lift_lets -underBinder
            rotate_left
            clear_value x)
         | clear_value x
         | skip)
    | lift_lets -underBinder | with_reducible apply State.wrB_kept | (split <;> try lift_lets -underBinder)
    | with_reducible apply Kept.record | with_reducible rfl

theorem storeSet_kept {a s : State} {x1} (h : Kept a s) :
    Kept a (storeSet s x1) := by
  unfold storeSet
  try lift_lets -underBinder
  repeat' first
    | with_reducible assumption
    | (intro x
       first
         | (refine have_of (a := a) x ?_ fun _ => ?_
            unfold x
            try lift_lets -underBinder
            rotate_left
            clear_value x)
         | skip)
    | lift_lets -underBinder | with_reducible apply State.wr_kept | (split <;> try lift_lets -underBinder)
    | with_reducible apply Kept.record | with_reducible rfl

theorem State.keepSnapshot_kept {a s : State} (h : Kept a s) :
    Kept a (State.keepSnapshot s) := by
  unfold State.keepSnapshot
  exact Kept.record h rfl rfl

theorem State.clearPeak_kept {a s : State} {x1 x2} (h : Kept a s) :
    Kept a (State.clearPeak s x1 x2) := by
  unfold State.clearPeak
  exact Kept.record h rfl rfl

theorem State.afterPeriod_kept {a s : State} {x1 x2 x3} (h : Kept a s) :
    Kept a (State.afterPeriod s x1 x2 x3) := by
  unfold State.afterPeriod
  repeat' first
    | with_reducible assumption | with_reducible apply State.loadPeriods_kept | split

theorem State.afterMask_kept {a s : State} {x1 x2} (h : Kept a s) :
    Kept a (State.afterMask s x1 x2) := by
  unfold State.afterMask
  repeat' first
    | with_reducible assumption | with_reducible apply State.standingSources_kept | split

theorem numSet_kept {a s : State} {x1 x2 x3 x4 x5} (h : Kept a s) :
    Kept a (numSet x1 x2 x3 x4 s x5) := by
  unfold numSet
  repeat' first
    | with_reducible assumption | with_reducible apply storeSet_kept | with_reducible apply epochSet_kept
    | with_reducible apply powerReqSet_kept | with_reducible apply warmSet_kept
    | with_reducible apply siteResetSet_kept | with_reducible apply engineResetSet_kept
    | with_reducible apply canModeSet_kept | with_reducible apply State.draw_kept
    | with_reducible apply restartSet_kept | with_reducible apply cancelSet_kept
    | with_reducible apply consumerSet_kept | with_reducible apply startSet_kept | with_reducible apply stopSet_kept
    | with_reducible apply continueSet_kept | with_reducible apply removeSet_kept
    | with_reducible apply State.clearPeak_kept | with_reducible apply checkNowSet_kept
    | with_reducible apply commitSet_kept | with_reducible apply stageSet_kept
    | with_reducible apply diagnoseNowSet_kept | with_reducible apply powerSet_kept
    | with_reducible apply setpointSet_kept | with_reducible apply targetSet_kept
    | with_reducible apply referenceSet_kept | with_reducible apply resetSet_kept
    | with_reducible apply outputSet_kept | with_reducible apply contactorSet_kept
    | with_reducible apply State.endUnlock_kept | with_reducible apply applySet_kept
    | with_reducible apply State.mailReply_kept | with_reducible apply State.doAck_kept
    | with_reducible apply State.flushMail_kept | with_reducible apply cursorSet_kept
    | with_reducible apply severitySet_kept | with_reducible apply unfreezeSet_kept
    | with_reducible apply clearSet_kept | with_reducible apply dieClearSet_kept
    | with_reducible apply fltClearSet_kept | with_reducible apply bldcClearSet_kept
    | with_reducible apply axisClearSet_kept | with_reducible apply revokeSet_kept
    | with_reducible apply rollbackSet_kept | with_reducible apply preferSet_kept
    | with_reducible apply loadEndSet_kept | with_reducible apply partitionSet_kept
    | with_reducible apply debugLockSet_kept | with_reducible apply calibrationSet_kept
    | with_reducible apply rwpSet_kept | with_reducible apply State.afterMask_kept
    | with_reducible apply State.afterPeriod_kept | with_reducible apply State.wr_kept | split

theorem State.sendImage_kept {a s : State} {x1} (h : Kept a s) :
    Kept a (State.sendImage s x1) := by
  unfold State.sendImage
  try lift_lets -underBinder
  repeat' first
    | with_reducible assumption
    | (intro x
       first
         | (refine have_of (a := a) x ?_ fun _ => ?_
            unfold x
            try lift_lets -underBinder
            rotate_left
            clear_value x)
         | skip)
    | lift_lets -underBinder | with_reducible apply each_kept | with_reducible apply State.takeSegment_kept
    | with_reducible apply State.adjustReply_kept | (split <;> try lift_lets -underBinder)
    | with_reducible apply Kept.record | with_reducible rfl

theorem octSet_kept {a s : State} {x1 x2 x3 x4 x5} (h : Kept a s) :
    Kept a (octSet x1 x2 x3 x4 s x5) := by
  unfold octSet
  repeat' first
    | with_reducible assumption | with_reducible apply hostKeySet_kept | with_reducible apply submitSet_kept
    | with_reducible apply recipeSet_kept | with_reducible apply descriptorSet_kept
    | with_reducible apply unlockSet_kept | with_reducible apply passwordSet_kept
    | with_reducible apply State.mail_kept | with_reducible apply State.wrB_kept
    | with_reducible apply State.takeToken_kept | with_reducible apply State.flushMail_kept
    | with_reducible apply State.sendImage_kept | with_reducible apply rootWriteSet_kept
    | with_reducible apply pieceSet_kept | with_reducible apply debugSet_kept
    | with_reducible apply State.setAttNonce_kept | split

theorem State.setDefaults_kept {a s : State} {x1} (h : Kept a s) :
    Kept a (State.setDefaults s x1) := by
  unfold State.setDefaults
  try lift_lets -underBinder
  repeat' first
    | with_reducible assumption
    | (intro x
       first
         | (refine have_of (a := a) x ?_ fun _ => ?_
            unfold x
            try lift_lets -underBinder
            rotate_left
            clear_value x)
         | clear_value x
         | skip)
    | lift_lets -underBinder | with_reducible apply each_kept | with_reducible apply numSet_kept
    | with_reducible apply State.admitAfter_kept | with_reducible apply State.loadPeriods_kept
    | (split <;> try lift_lets -underBinder) | with_reducible apply Kept.record | with_reducible rfl

theorem restoreSet_kept {a s : State} {x1 x2} (h : Kept a s) :
    Kept a (restoreSet x1 s x2) := by
  unfold restoreSet
  repeat' first
    | with_reducible assumption | with_reducible apply State.setDefaults_kept

theorem State.trial_kept {a s : State} {x1 x2 x3} (h : Kept a s) :
    Kept a (State.trial s x1 x2 x3) := by
  unfold State.trial
  try lift_lets -underBinder
  repeat' first
    | with_reducible assumption
    | (intro x
       first
         | (refine have_of (a := a) x ?_ fun _ => ?_
            unfold x
            try lift_lets -underBinder
            rotate_left
            clear_value x)
         | clear_value x
         | skip)
    | lift_lets -underBinder | with_reducible apply each_kept | with_reducible apply State.wr_kept
    | with_reducible apply State.wrB_kept | (split <;> try lift_lets -underBinder) | with_reducible apply Kept.record
    | with_reducible rfl

theorem State.refused_kept {a s : State} {x1 x2 x3 x4} (h : Kept a s) :
    Kept a (State.refused s x1 x2 x3 x4) := by
  unfold State.refused
  try lift_lets -underBinder
  repeat' first
    | with_reducible assumption
    | (intro x
       first
         | (refine have_of (a := a) x ?_ fun _ => ?_
            unfold x
            try lift_lets -underBinder
            rotate_left
            clear_value x)
         | clear_value x
         | skip)
    | lift_lets -underBinder | with_reducible apply State.markInvalid_kept | with_reducible apply each_kept
    | with_reducible apply State.countReversal_kept | with_reducible apply State.wrongPassword_kept
    | (split <;> try lift_lets -underBinder) | with_reducible apply Kept.record | with_reducible rfl

theorem State.setItem_kept {a s : State} {x1 x2 x3 x4} (h : Kept a s) :
    Kept a (State.setItem s x1 x2 x3 x4) := by
  unfold State.setItem
  repeat' first
    | with_reducible assumption | with_reducible apply restoreSet_kept | with_reducible apply numSet_kept
    | with_reducible apply octSet_kept | split

theorem State.showAdmission_kept {a s : State} {x1 x2} (h : Kept a s) :
    Kept a (State.showAdmission s x1 x2) := by
  unfold State.showAdmission
  exact Kept.record h rfl rfl

theorem State.writeItems_kept {a s : State} {x1 x2 x3 x4} (h : Kept a s) : Kept a (s.writeItems x1 x2 x3 x4).1 := by
  unfold State.writeItems
  split
  · exact State.refused_kept h
  · extract_lets l es ads t
    split
    · exact State.showAdmission_kept h
    · exact each_kept (each_kept h fun _ _ hy => each_kept (State.touch_kept hy) fun _ _ hz => State.setItem_kept hz)
        fun _ _ hy => State.admitDie_kept hy

theorem State.writeSpan_kept {a s : State} {x1 x2 x3 x4 x5} (h : Kept a s) : Kept a (s.writeSpan x1 x2 x3 x4 x5).1 := by
  unfold State.writeSpan
  repeat' split
  · exact h
  · exact Ans.outcome_kept h (needDone_kept (done_kept (State.openLoad_kept h)))
  · exact State.writeItems_kept h

theorem State.writeReq_kept {a s : State} {x1 x2 x3 x4} (h : Kept a s) : Kept a (s.writeReq x1 x2 x3 x4) :=
  State.settle_kept (State.serveWith_kept h fun _ hy => State.writeSpan_kept hy)

theorem State.readReq_kept {a s : State} {x1 x2 x3} (h : Kept a s) : Kept a (s.readReq x1 x2 x3) :=
  State.serve_kept h fun _ hy => State.readSpan_kept hy

theorem State.hearTransfer_kept {a s : State} {x1 x2} (h : Kept a s) :
    Kept a (State.hearTransfer s x1 x2) := by
  unfold State.hearTransfer
  repeat' first
    | with_reducible assumption | with_reducible apply State.setSession_kept | split

theorem State.openTransfer_kept {a s : State} {x1 x2} (h : Kept a s) :
    Kept a (State.openTransfer s x1 x2) := by
  unfold State.openTransfer
  repeat' first
    | with_reducible assumption | with_reducible apply State.setSession_kept | split

theorem State.initWrite_kept {a s : State} {x1 x2 x3} (h : Kept a s) :
    KeptAns a (State.initWrite s x1 x2 x3) := by
  unfold State.initWrite
  repeat' first
    | with_reducible assumption | with_reducible apply done_kept | with_reducible apply State.openTransfer_kept
    | with_reducible apply keptAns_ok | with_reducible apply keptAns_error | split

theorem State.initRead_kept {a s : State} {x1 x2 x3} (h : Kept a s) : KeptAns a (s.initRead x1 x2 x3) := by
  unfold State.initRead
  split
  · exact keptAns_error
  · split
    · exact keptAns_error
    · extract_lets r
      have hr : KeptAns a r := by
        unfold r
        split
        · exact State.readReport_kept h
        · cases s.gather x1 x2 false with
          | error e => exact keptAns_error
          | ok b => exact keptAns_ok (State.draw_kept h)
      clear_value r
      split
      · exact keptAns_error
      · split
        · exact keptAns_error
        · exact keptAns_ok (State.openTransfer_kept (hr.keep _ _ rfl))

theorem State.initBad_kept {a s : State} {x1 x2 x3 x4} (h : Kept a s) :
    KeptAns a (State.initBad s x1 x2 x3 x4) := by
  unfold State.initBad
  try lift_lets -underBinder
  repeat' first
    | with_reducible assumption
    | (intro x
       first
         | (refine have_of (a := a) x ?_ fun _ => ?_
            unfold x
            try lift_lets -underBinder
            rotate_left
            clear_value x)
         | clear_value x
         | skip)
    | lift_lets -underBinder | with_reducible apply keptAns_ok | with_reducible apply keptAns_error
    | (split <;> try lift_lets -underBinder) | with_reducible apply Kept.record | with_reducible rfl

theorem State.segInit_kept {a s : State} {x1 x2 x3 x4} (h : Kept a s) :
    Kept a (State.segInit s x1 x2 x3 x4) := by
  unfold State.segInit
  try lift_lets -underBinder
  repeat' first
    | with_reducible assumption
    | (intro x
       first
         | (refine have_of (a := a) x ?_ fun _ => ?_
            unfold x
            try lift_lets -underBinder
            rotate_left
            clear_value x)
         | clear_value x
         | skip)
    | lift_lets -underBinder | with_reducible apply State.serve_kept | with_reducible apply State.initRead_kept
    | with_reducible apply State.initWrite_kept | with_reducible apply State.initBad_kept
    | with_reducible apply keptAns_ok | with_reducible apply keptAns_error | (split <;> try lift_lets -underBinder)
    | with_reducible apply Kept.record | with_reducible rfl

theorem State.stageChunk_kept {a s : State} {x1 x2 x3 x4} (h : Kept a s) :
    KeptAns a (State.stageChunk s x1 x2 x3 x4) := by
  unfold State.stageChunk
  repeat' first
    | with_reducible assumption | with_reducible apply done_kept | with_reducible apply State.setSession_kept
    | with_reducible apply keptAns_ok | with_reducible apply keptAns_error | split

theorem State.snapChunk_kept {a s : State} {x1 x2 x3} (h : Kept a s) :
    KeptAns a (State.snapChunk s x1 x2 x3) := by
  unfold State.snapChunk
  try lift_lets -underBinder
  repeat' first
    | with_reducible assumption
    | (intro x
       first
         | (refine have_of (a := a) x ?_ fun _ => ?_
            unfold x
            try lift_lets -underBinder
            rotate_left
            clear_value x)
         | clear_value x
         | skip)
    | lift_lets -underBinder | with_reducible apply keptAns_ok | with_reducible apply keptAns_error
    | (split <;> try lift_lets -underBinder) | with_reducible apply Kept.record | with_reducible rfl

theorem State.segData_kept {a s : State} {x1 x2 x3 x4} (h : Kept a s) :
    Kept a (State.segData s x1 x2 x3 x4) := by
  unfold State.segData
  try lift_lets -underBinder
  repeat' first
    | with_reducible assumption
    | (intro x
       first
         | (refine have_of (a := a) x ?_ fun _ => ?_
            unfold x
            try lift_lets -underBinder
            rotate_left
            clear_value x)
         | clear_value x
         | skip)
    | lift_lets -underBinder | with_reducible apply State.serve_kept | with_reducible apply State.hearTransfer_kept
    | with_reducible apply State.stageChunk_kept | with_reducible apply State.snapChunk_kept
    | with_reducible apply keptAns_ok | with_reducible apply keptAns_error | (split <;> try lift_lets -underBinder)
    | with_reducible apply Kept.record | with_reducible rfl

theorem State.closeTransfer_kept {a s : State} {x1 x2} (h : Kept a s) :
    Kept a (State.closeTransfer s x1 x2) := by
  unfold State.closeTransfer
  repeat' first
    | with_reducible assumption | with_reducible apply State.setSession_kept | split

theorem State.applyTransfer_kept {a s : State} {x1 x2 x3} (h : Kept a s) : Kept a (s.applyTransfer x1 x2 x3).1 := by
  unfold State.applyTransfer
  split
  · exact h
  · repeat' split
    · exact h
    · exact h
    · exact State.writeSpan_kept h

theorem State.segEnd_kept {a s : State} {x1 x2 x3} (h : Kept a s) : Kept a (s.segEnd x1 x2 x3) := by
  unfold State.segEnd
  split
  · refine State.settle_kept (State.serveWith_kept h fun y hy => ?_)
    split
    · exact hy
    · dsimp only
      have hc := fun u v => State.closeTransfer_kept (x1 := u) (x2 := v) hy
      split
      · exact State.applyTransfer_kept (hc _ _)
      · exact hc _ _
  · exact h
  · exact h

theorem State.setSubs_kept {a s : State} {x1 x2} (h : Kept a s) :
    Kept a (State.setSubs s x1 x2) := by
  unfold State.setSubs
  try lift_lets -underBinder
  repeat' first
    | with_reducible assumption
    | (intro x
       first
         | (refine have_of (a := a) x ?_ fun _ => ?_
            unfold x
            try lift_lets -underBinder
            rotate_left
            clear_value x)
         | skip)
    | lift_lets -underBinder | with_reducible apply State.setSession_kept | (split <;> try lift_lets -underBinder)
    | with_reducible apply Kept.record | with_reducible rfl

theorem State.putSubs_kept {a s : State} {x1 x2 x3} (h : Kept a s) :
    Kept a (State.putSubs s x1 x2 x3) := by
  unfold State.putSubs
  try lift_lets -underBinder
  repeat' first
    | with_reducible assumption
    | (intro x
       first
         | (refine have_of (a := a) x ?_ fun _ => ?_
            unfold x
            try lift_lets -underBinder
            rotate_left
            clear_value x)
         | skip)
    | lift_lets -underBinder | with_reducible apply State.setSubs_kept | (split <;> try lift_lets -underBinder)
    | with_reducible apply Kept.record | with_reducible rfl

theorem State.subscribeTo_kept {a s : State} {x1 x2 x3 x4 x5} (h : Kept a s) :
    KeptAns a (State.subscribeTo s x1 x2 x3 x4 x5) := by
  unfold State.subscribeTo
  try lift_lets -underBinder
  repeat' first
    | with_reducible assumption
    | (intro x
       first
         | (refine have_of (a := a) x ?_ fun _ => ?_
            unfold x
            try lift_lets -underBinder
            rotate_left
            clear_value x)
         | clear_value x
         | skip)
    | lift_lets -underBinder | with_reducible apply done_kept | with_reducible apply State.putSubs_kept
    | with_reducible apply keptAns_ok | with_reducible apply keptAns_error | (split <;> try lift_lets -underBinder)
    | with_reducible apply Kept.record | with_reducible rfl

theorem State.takePubs_kept {a s : State} (h : Kept a s) :
    Kept a (State.takePubs s) := by
  unfold State.takePubs
  try lift_lets -underBinder
  repeat' first
    | with_reducible assumption
    | (intro x
       first
         | (refine have_of (a := a) x ?_ fun _ => ?_
            unfold x
            try lift_lets -underBinder
            rotate_left
            clear_value x)
         | skip)
    | lift_lets -underBinder | with_reducible apply State.draw_kept | (split <;> try lift_lets -underBinder)
    | with_reducible apply Kept.record | with_reducible rfl

theorem State.nextNotify_kept {a s : State} {x1} (h : Kept a s) : Kept a (s.nextNotify x1).2 := by
  unfold State.nextNotify
  split
  · exact State.setSession_kept h
  · exact Kept.record h rfl rfl

theorem State.notifyOut_kept {a s : State} {x1 x2 x3 x4} (h : Kept a s) :
    Kept a (State.notifyOut s x1 x2 x3 x4) := by
  unfold State.notifyOut
  repeat' first
    | with_reducible assumption | with_reducible apply State.nextNotify_kept | with_reducible apply each_kept
    | with_reducible apply State.send_kept

theorem State.countStream_kept {a s : State} {x1} (h : Kept a s) :
    Kept a (State.countStream s x1) := by
  unfold State.countStream
  exact Kept.record h rfl rfl

theorem State.endSession_kept {a s : State} {x1} (h : Kept a s) : Kept a (s.endSession x1) := by
  unfold State.endSession
  extract_lets f y z
  have hy : Kept a y := when'_kept h fun _ hx => State.endUnlock_kept hx
  clear_value y
  have hz : Kept a z := when'_kept hy fun _ hx => State.abandonLoad_kept hx
  clear_value z
  refine ⟨hz.1, hz.2, hz.3, fun k => ?_, hz.5⟩
  obtain ⟨k1, k2⟩ := hz.4 k
  exact ⟨Nat.le_trans (List.length_filter_le ..) k1, k2⟩

theorem State.shakeOut_kept {a s : State} {x1 x2 x3 x4} (h : Kept a s) :
    Kept a (State.shakeOut s x1 x2 x3 x4) := by
  unfold State.shakeOut
  try lift_lets -underBinder
  repeat' first
    | with_reducible assumption
    | (intro x
       first
         | (refine have_of (a := a) x ?_ fun _ => ?_
            unfold x
            try lift_lets -underBinder
            rotate_left
            clear_value x)
         | clear_value x
         | skip)
    | lift_lets -underBinder | with_reducible apply each_kept | with_reducible apply State.send_kept
    | with_reducible apply State.sendRaw_kept | (split <;> try lift_lets -underBinder)
    | with_reducible apply Kept.record | with_reducible rfl

theorem State.shakeRefuse_kept {a s : State} {x1 x2 x3 x4} (h : Kept a s) :
    Kept a (State.shakeRefuse s x1 x2 x3 x4) := by
  unfold State.shakeRefuse
  exact Kept.record h rfl rfl

theorem State.beginShake_kept {a s : State} {x1 x2} (h : Kept a s) (hn : s.net.shakes.length < 2) :
    Kept a (s.beginShake x1 x2) := by
  unfold State.beginShake
  refine State.shakeOut_kept ⟨h.1, h.2, h.3, fun k => ⟨(h.4 k).1, ?_⟩, h.5⟩
  simp only [List.length_append, List.length_singleton]
  omega

theorem State.openSession_kept {a s : State} {x1 x2} (h : Kept a s) (hn : s.net.sessions.length < 8) :
    Kept a (s.openSession x1 x2) := by
  unfold State.openSession
  refine State.shakeOut_kept ⟨h.1, h.2, h.3, fun k => ⟨?_, (h.4 k).2⟩, h.5⟩
  simp only [List.length_append, List.length_singleton]
  omega

end Sys2Proof.Machine
end

