-- ==== Sys2Proof/Laws/Trail.lean ====
section
/-! SUPPORT. What a trail entry changes: the trail, the trail's own registers (0x6000), how many entries of a code and
channel its die has sent in this epoch, and the entries that wait on the die's link. -/

namespace Sys2Proof.Machine

set_option Elab.async false

/-- A state that differs from another by trail entries alone. -/
structure TrailOnly (s t : State) : Prop where
  eq : ∃ o r d, t = { s with objs := o, trail := r, dies := d }
  rd : ∀ i j e, i ≠ 0x6000 → t.rd i j e = s.rd i j e
  die : ∀ d, ∃ l q, t.die d = { s.die d with sent := l, up := { (s.die d).up with queue := q } }

theorem TrailOnly.refl (s : State) : TrailOnly s s := ⟨⟨_, _, _, rfl⟩, fun _ _ _ _ => rfl, fun d => ⟨(s.die d).sent, (s.die d).up.queue, rfl⟩⟩

theorem TrailOnly.trans {a b c : State} (h : TrailOnly a b) (k : TrailOnly b c) : TrailOnly a c := by
  refine ⟨?_, fun i j e n => (k.rd i j e n).trans (h.rd i j e n), fun d => ?_⟩
  · obtain ⟨_, _, _, rfl⟩ := h.eq
    obtain ⟨_, _, _, rfl⟩ := k.eq
    exact ⟨_, _, _, rfl⟩
  · obtain ⟨l, p, hl⟩ := h.die d
    obtain ⟨m, q, hm⟩ := k.die d
    exact ⟨m, q, by rw [hm, hl]⟩

theorem State.wr_trailOnly (s : State) (j e : Nat) (v : Int) : TrailOnly s (s.wr 0x6000 j e v) := by
  refine ⟨⟨_, _, _, rfl⟩, fun i j' e' n => State.rd_wr_ne s v ?_, fun _ => ⟨_, _, rfl⟩⟩
  intro h
  exact n (congrArg Prod.fst h)

theorem State.trail_trailOnly (s : State) (x : Trail) : TrailOnly s { s with trail := x } :=
  ⟨⟨_, _, _, rfl⟩, fun _ _ _ _ => rfl, fun _ => ⟨_, _, rfl⟩⟩

theorem State.sent_trailOnly (s : State) (n : Nat) (l : Tbl Nat) : TrailOnly s (s.setDie n { s.die n with sent := l }) := by
  refine ⟨⟨_, _, _, rfl⟩, fun _ _ _ _ => rfl, fun d => ?_⟩
  by_cases h : d = n
  · subst h; exact ⟨l, (s.die d).up.queue, by simp⟩
  · exact ⟨(s.die d).sent, (s.die d).up.queue, by rw [State.die_setDie_ne _ _ h]⟩

theorem State.sendEntry_trailOnly (s : State) (n : Nat) (e : Stored) : TrailOnly s (s.sendEntry n e) := by
  refine ⟨⟨_, _, _, rfl⟩, fun _ _ _ _ => rfl, fun d => ?_⟩
  unfold State.sendEntry
  by_cases h : d = n
  · subst h; exact ⟨(s.die d).sent, (s.die d).up.queue ++ [e], by simp⟩
  · exact ⟨(s.die d).sent, (s.die d).up.queue, by rw [State.die_setDie_ne _ _ h]⟩

theorem State.inc_trailOnly (s : State) (j e w : Nat) : TrailOnly s (s.inc 0x6000 j e w) := State.wr_trailOnly ..

theorem State.placeEntry_trailOnly (s : State) (e : Stored) : TrailOnly s (s.placeEntry e) := by
  unfold State.placeEntry
  extract_lets n full x y
  have hx : TrailOnly s x := by
    unfold x
    split
    · exact (State.inc_trailOnly ..).trans (State.inc_trailOnly ..)
    · exact .refl s
  exact (hx.trans (State.trail_trailOnly ..)).trans (State.inc_trailOnly ..)

theorem State.armFreeze_trailOnly (s : State) (n : Nat) : TrailOnly s (s.armFreeze n) := by
  unfold State.armFreeze
  split
  · exact State.trail_trailOnly ..
  · split
    · exact State.trail_trailOnly ..
    · exact .refl _

theorem State.store_trailOnly (s : State) (e : Stored) : TrailOnly s (s.store e) := by
  unfold State.store
  split
  · exact State.inc_trailOnly ..
  · exact (State.placeEntry_trailOnly s e).trans (State.armFreeze_trailOnly ..)

theorem State.raise_trailOnly (s : State) (site chan code : Nat) (data : List Byte) (corr : Nat) :
    TrailOnly s (s.raise site chan code data corr) := by
  unfold State.raise
  split
  · split
    · exact State.sendEntry_trailOnly ..
    · extract_lets d k n x
      split
      · exact (State.sent_trailOnly s site _).trans (State.sendEntry_trailOnly ..)
      · exact State.sent_trailOnly s site _
  · exact State.store_trailOnly ..

theorem State.openCorr_trailOnly (s : State) (n : Nat) : TrailOnly s (s.openCorr n) := State.trail_trailOnly ..

theorem State.note_trailOnly (s : State) (code : Nat) (data : List Byte) : TrailOnly s (s.note code data) :=
  (State.openCorr_trailOnly ..).trans (State.raise_trailOnly ..)

theorem State.noteAt_trailOnly (s : State) (site chan code : Nat) (data : List Byte) :
    TrailOnly s (s.noteAt site chan code data) :=
  (State.openCorr_trailOnly ..).trans (State.raise_trailOnly ..)

@[simp] theorem State.raise_variant (s : State) (n c k : Nat) (b : List Byte) (r : Nat) : (s.raise n c k b r).variant = s.variant := by
  obtain ⟨_, _, _, h⟩ := (State.raise_trailOnly s n c k b r).eq
  rw [h]
@[simp] theorem State.raise_sealedPart (s : State) (n c k : Nat) (b : List Byte) (r : Nat) : (s.raise n c k b r).sealedPart = s.sealedPart := by
  obtain ⟨_, _, _, h⟩ := (State.raise_trailOnly s n c k b r).eq
  rw [h]
@[simp] theorem State.raise_vsys (s : State) (n c k : Nat) (b : List Byte) (r : Nat) : (s.raise n c k b r).vsys = s.vsys := by
  obtain ⟨_, _, _, h⟩ := (State.raise_trailOnly s n c k b r).eq
  rw [h]
@[simp] theorem State.raise_fw (s : State) (n c k : Nat) (b : List Byte) (r : Nat) : (s.raise n c k b r).fw = s.fw := by
  obtain ⟨_, _, _, h⟩ := (State.raise_trailOnly s n c k b r).eq
  rw [h]
@[simp] theorem State.raise_clock (s : State) (n c k : Nat) (b : List Byte) (r : Nat) : (s.raise n c k b r).clock = s.clock := by
  obtain ⟨_, _, _, h⟩ := (State.raise_trailOnly s n c k b r).eq
  rw [h]
@[simp] theorem State.raise_blobs (s : State) (n c k : Nat) (b : List Byte) (r : Nat) : (s.raise n c k b r).blobs = s.blobs := by
  obtain ⟨_, _, _, h⟩ := (State.raise_trailOnly s n c k b r).eq
  rw [h]
@[simp] theorem State.raise_flash (s : State) (n c k : Nat) (b : List Byte) (r : Nat) : (s.raise n c k b r).flash = s.flash := by
  obtain ⟨_, _, _, h⟩ := (State.raise_trailOnly s n c k b r).eq
  rw [h]
@[simp] theorem State.raise_flashBlobs (s : State) (n c k : Nat) (b : List Byte) (r : Nat) : (s.raise n c k b r).flashBlobs = s.flashBlobs := by
  obtain ⟨_, _, _, h⟩ := (State.raise_trailOnly s n c k b r).eq
  rw [h]
@[simp] theorem State.raise_chans (s : State) (n c k : Nat) (b : List Byte) (r : Nat) : (s.raise n c k b r).chans = s.chans := by
  obtain ⟨_, _, _, h⟩ := (State.raise_trailOnly s n c k b r).eq
  rw [h]
@[simp] theorem State.raise_units (s : State) (n c k : Nat) (b : List Byte) (r : Nat) : (s.raise n c k b r).units = s.units := by
  obtain ⟨_, _, _, h⟩ := (State.raise_trailOnly s n c k b r).eq
  rw [h]
@[simp] theorem State.raise_slots (s : State) (n c k : Nat) (b : List Byte) (r : Nat) : (s.raise n c k b r).slots = s.slots := by
  obtain ⟨_, _, _, h⟩ := (State.raise_trailOnly s n c k b r).eq
  rw [h]
@[simp] theorem State.raise_engines (s : State) (n c k : Nat) (b : List Byte) (r : Nat) : (s.raise n c k b r).engines = s.engines := by
  obtain ⟨_, _, _, h⟩ := (State.raise_trailOnly s n c k b r).eq
  rw [h]
@[simp] theorem State.raise_descs (s : State) (n c k : Nat) (b : List Byte) (r : Nat) : (s.raise n c k b r).descs = s.descs := by
  obtain ⟨_, _, _, h⟩ := (State.raise_trailOnly s n c k b r).eq
  rw [h]
@[simp] theorem State.raise_adcs (s : State) (n c k : Nat) (b : List Byte) (r : Nat) : (s.raise n c k b r).adcs = s.adcs := by
  obtain ⟨_, _, _, h⟩ := (State.raise_trailOnly s n c k b r).eq
  rw [h]
@[simp] theorem State.raise_wins (s : State) (n c k : Nat) (b : List Byte) (r : Nat) : (s.raise n c k b r).wins = s.wins := by
  obtain ⟨_, _, _, h⟩ := (State.raise_trailOnly s n c k b r).eq
  rw [h]
@[simp] theorem State.raise_queues (s : State) (n c k : Nat) (b : List Byte) (r : Nat) : (s.raise n c k b r).queues = s.queues := by
  obtain ⟨_, _, _, h⟩ := (State.raise_trailOnly s n c k b r).eq
  rw [h]
@[simp] theorem State.raise_groups (s : State) (n c k : Nat) (b : List Byte) (r : Nat) : (s.raise n c k b r).groups = s.groups := by
  obtain ⟨_, _, _, h⟩ := (State.raise_trailOnly s n c k b r).eq
  rw [h]
@[simp] theorem State.raise_bldc (s : State) (n c k : Nat) (b : List Byte) (r : Nat) : (s.raise n c k b r).bldc = s.bldc := by
  obtain ⟨_, _, _, h⟩ := (State.raise_trailOnly s n c k b r).eq
  rw [h]
@[simp] theorem State.raise_axes (s : State) (n c k : Nat) (b : List Byte) (r : Nat) : (s.raise n c k b r).axes = s.axes := by
  obtain ⟨_, _, _, h⟩ := (State.raise_trailOnly s n c k b r).eq
  rw [h]
@[simp] theorem State.raise_power (s : State) (n c k : Nat) (b : List Byte) (r : Nat) : (s.raise n c k b r).power = s.power := by
  obtain ⟨_, _, _, h⟩ := (State.raise_trailOnly s n c k b r).eq
  rw [h]
@[simp] theorem State.raise_sup (s : State) (n c k : Nat) (b : List Byte) (r : Nat) : (s.raise n c k b r).sup = s.sup := by
  obtain ⟨_, _, _, h⟩ := (State.raise_trailOnly s n c k b r).eq
  rw [h]
@[simp] theorem State.raise_lockbox (s : State) (n c k : Nat) (b : List Byte) (r : Nat) : (s.raise n c k b r).lockbox = s.lockbox := by
  obtain ⟨_, _, _, h⟩ := (State.raise_trailOnly s n c k b r).eq
  rw [h]
@[simp] theorem State.raise_qm (s : State) (n c k : Nat) (b : List Byte) (r : Nat) : (s.raise n c k b r).qm = s.qm := by
  obtain ⟨_, _, _, h⟩ := (State.raise_trailOnly s n c k b r).eq
  rw [h]
@[simp] theorem State.raise_net (s : State) (n c k : Nat) (b : List Byte) (r : Nat) : (s.raise n c k b r).net = s.net := by
  obtain ⟨_, _, _, h⟩ := (State.raise_trailOnly s n c k b r).eq
  rw [h]
@[simp] theorem State.raise_can (s : State) (n c k : Nat) (b : List Byte) (r : Nat) : (s.raise n c k b r).can = s.can := by
  obtain ⟨_, _, _, h⟩ := (State.raise_trailOnly s n c k b r).eq
  rw [h]
@[simp] theorem State.raise_sec (s : State) (n c k : Nat) (b : List Byte) (r : Nat) : (s.raise n c k b r).sec = s.sec := by
  obtain ⟨_, _, _, h⟩ := (State.raise_trailOnly s n c k b r).eq
  rw [h]
@[simp] theorem State.raise_standbyDue (s : State) (n c k : Nat) (b : List Byte) (r : Nat) : (s.raise n c k b r).standbyDue = s.standbyDue := by
  obtain ⟨_, _, _, h⟩ := (State.raise_trailOnly s n c k b r).eq
  rw [h]
@[simp] theorem State.raise_sleepLt (s : State) (n c k : Nat) (b : List Byte) (r : Nat) : (s.raise n c k b r).sleepLt = s.sleepLt := by
  obtain ⟨_, _, _, h⟩ := (State.raise_trailOnly s n c k b r).eq
  rw [h]
@[simp] theorem State.raise_metNote (s : State) (n c k : Nat) (b : List Byte) (r : Nat) : (s.raise n c k b r).metNote = s.metNote := by
  obtain ⟨_, _, _, h⟩ := (State.raise_trailOnly s n c k b r).eq
  rw [h]
@[simp] theorem State.raise_lastMet (s : State) (n c k : Nat) (b : List Byte) (r : Nat) : (s.raise n c k b r).lastMet = s.lastMet := by
  obtain ⟨_, _, _, h⟩ := (State.raise_trailOnly s n c k b r).eq
  rw [h]
@[simp] theorem State.raise_metSilent (s : State) (n c k : Nat) (b : List Byte) (r : Nat) : (s.raise n c k b r).metSilent = s.metSilent := by
  obtain ⟨_, _, _, h⟩ := (State.raise_trailOnly s n c k b r).eq
  rw [h]
@[simp] theorem State.raise_metView (s : State) (n c k : Nat) (b : List Byte) (r : Nat) : (s.raise n c k b r).metView = s.metView := by
  obtain ⟨_, _, _, h⟩ := (State.raise_trailOnly s n c k b r).eq
  rw [h]
@[simp] theorem State.raise_metViewAt (s : State) (n c k : Nat) (b : List Byte) (r : Nat) : (s.raise n c k b r).metViewAt = s.metViewAt := by
  obtain ⟨_, _, _, h⟩ := (State.raise_trailOnly s n c k b r).eq
  rw [h]
@[simp] theorem State.raise_tag (s : State) (n c k : Nat) (b : List Byte) (r : Nat) : (s.raise n c k b r).tag = s.tag := by
  obtain ⟨_, _, _, h⟩ := (State.raise_trailOnly s n c k b r).eq
  rw [h]
@[simp] theorem State.raise_sleepHash (s : State) (n c k : Nat) (b : List Byte) (r : Nat) : (s.raise n c k b r).sleepHash = s.sleepHash := by
  obtain ⟨_, _, _, h⟩ := (State.raise_trailOnly s n c k b r).eq
  rw [h]
@[simp] theorem State.raise_waking (s : State) (n c k : Nat) (b : List Byte) (r : Nat) : (s.raise n c k b r).waking = s.waking := by
  obtain ⟨_, _, _, h⟩ := (State.raise_trailOnly s n c k b r).eq
  rw [h]
@[simp] theorem State.raise_resetLt (s : State) (n c k : Nat) (b : List Byte) (r : Nat) : (s.raise n c k b r).resetLt = s.resetLt := by
  obtain ⟨_, _, _, h⟩ := (State.raise_trailOnly s n c k b r).eq
  rw [h]
@[simp] theorem State.raise_resetReq (s : State) (n c k : Nat) (b : List Byte) (r : Nat) : (s.raise n c k b r).resetReq = s.resetReq := by
  obtain ⟨_, _, _, h⟩ := (State.raise_trailOnly s n c k b r).eq
  rw [h]
@[simp] theorem State.raise_lane (s : State) (n c k : Nat) (b : List Byte) (r : Nat) : (s.raise n c k b r).lane = s.lane := by
  obtain ⟨_, _, _, h⟩ := (State.raise_trailOnly s n c k b r).eq
  rw [h]
@[simp] theorem State.raise_flight (s : State) (n c k : Nat) (b : List Byte) (r : Nat) : (s.raise n c k b r).flight = s.flight := by
  obtain ⟨_, _, _, h⟩ := (State.raise_trailOnly s n c k b r).eq
  rw [h]
@[simp] theorem State.raise_banks (s : State) (n c k : Nat) (b : List Byte) (r : Nat) : (s.raise n c k b r).banks = s.banks := by
  obtain ⟨_, _, _, h⟩ := (State.raise_trailOnly s n c k b r).eq
  rw [h]
@[simp] theorem State.raise_hot (s : State) (n c k : Nat) (b : List Byte) (r : Nat) : (s.raise n c k b r).hot = s.hot := by
  obtain ⟨_, _, _, h⟩ := (State.raise_trailOnly s n c k b r).eq
  rw [h]
@[simp] theorem State.raise_free (s : State) (n c k : Nat) (b : List Byte) (r : Nat) : (s.raise n c k b r).free = s.free := by
  obtain ⟨_, _, _, h⟩ := (State.raise_trailOnly s n c k b r).eq
  rw [h]
@[simp] theorem State.raise_pending (s : State) (n c k : Nat) (b : List Byte) (r : Nat) : (s.raise n c k b r).pending = s.pending := by
  obtain ⟨_, _, _, h⟩ := (State.raise_trailOnly s n c k b r).eq
  rw [h]
@[simp] theorem State.chan_raise (s : State) (n c k : Nat) (b : List Byte) (r : Nat) (p : Nat) : (s.raise n c k b r).chan p = s.chan p := by
  obtain ⟨_, _, _, h⟩ := (State.raise_trailOnly s n c k b r).eq
  rw [h]; rfl
@[simp] theorem State.unit_raise (s : State) (n c k : Nat) (b : List Byte) (r : Nat) (p q : Nat) : (s.raise n c k b r).unit p q = s.unit p q := by
  obtain ⟨_, _, _, h⟩ := (State.raise_trailOnly s n c k b r).eq
  rw [h]; rfl
@[simp] theorem State.slot_raise (s : State) (n c k : Nat) (b : List Byte) (r : Nat) (p q : Nat) : (s.raise n c k b r).slot p q = s.slot p q := by
  obtain ⟨_, _, _, h⟩ := (State.raise_trailOnly s n c k b r).eq
  rw [h]; rfl
@[simp] theorem State.eng_raise (s : State) (n c k : Nat) (b : List Byte) (r : Nat) (p q : Nat) : (s.raise n c k b r).eng p q = s.eng p q := by
  obtain ⟨_, _, _, h⟩ := (State.raise_trailOnly s n c k b r).eq
  rw [h]; rfl
@[simp] theorem State.drive_raise (s : State) (n c k : Nat) (b : List Byte) (r : Nat) (p : Nat) : (s.raise n c k b r).drive p = s.drive p := by
  obtain ⟨_, _, _, h⟩ := (State.raise_trailOnly s n c k b r).eq
  rw [h]; rfl
@[simp] theorem State.axis_raise (s : State) (n c k : Nat) (b : List Byte) (r : Nat) (p : Nat) : (s.raise n c k b r).axis p = s.axis p := by
  obtain ⟨_, _, _, h⟩ := (State.raise_trailOnly s n c k b r).eq
  rw [h]; rfl
@[simp] theorem State.port_raise (s : State) (n c k : Nat) (b : List Byte) (r : Nat) (p : Nat) : (s.raise n c k b r).port p = s.port p := by
  obtain ⟨_, _, _, h⟩ := (State.raise_trailOnly s n c k b r).eq
  rw [h]; rfl
@[simp] theorem State.adc_raise (s : State) (n c k : Nat) (b : List Byte) (r : Nat) (p q : Nat) : (s.raise n c k b r).adc p q = s.adc p q := by
  obtain ⟨_, _, _, h⟩ := (State.raise_trailOnly s n c k b r).eq
  rw [h]; rfl
@[simp] theorem State.lt_raise (s : State) (n c k : Nat) (b : List Byte) (r : Nat)  : (s.raise n c k b r).lt  = s.lt  := by
  obtain ⟨_, _, _, h⟩ := (State.raise_trailOnly s n c k b r).eq
  rw [h]; rfl
@[simp] theorem State.rdB_raise (s : State) (n c k : Nat) (b : List Byte) (r : Nat) (p q r : Nat) : (s.raise n c k b r).rdB p q r = s.rdB p q r := by
  obtain ⟨_, _, _, h⟩ := (State.raise_trailOnly s n c k b r).eq
  rw [h]; rfl
@[simp] theorem State.sitePop_raise (s : State) (n c k : Nat) (b : List Byte) (r : Nat) (p : Nat) : (s.raise n c k b r).sitePop p = s.sitePop p := by
  obtain ⟨_, _, _, h⟩ := (State.raise_trailOnly s n c k b r).eq
  rw [h]; rfl
@[simp] theorem State.chanPop_raise (s : State) (n c k : Nat) (b : List Byte) (r : Nat) (p : Nat) : (s.raise n c k b r).chanPop p = s.chanPop p := by
  obtain ⟨_, _, _, h⟩ := (State.raise_trailOnly s n c k b r).eq
  rw [h]; rfl
@[simp] theorem State.sites_raise (s : State) (n c k : Nat) (b : List Byte) (r : Nat)  : (s.raise n c k b r).sites  = s.sites  := by
  obtain ⟨_, _, _, h⟩ := (State.raise_trailOnly s n c k b r).eq
  rw [h]; rfl
theorem State.rd_raise (s : State) (n c k : Nat) (b : List Byte) (r : Nat) {i : Nat} (j e : Nat) (h : i ≠ 0x6000) : (s.raise n c k b r).rd i j e = s.rd i j e :=
  (State.raise_trailOnly s n c k b r).rd i j e h

@[simp] theorem State.note_variant (s : State) (k : Nat) (b : List Byte) : (s.note k b).variant = s.variant := by
  obtain ⟨_, _, _, h⟩ := (State.note_trailOnly s k b).eq
  rw [h]
@[simp] theorem State.note_sealedPart (s : State) (k : Nat) (b : List Byte) : (s.note k b).sealedPart = s.sealedPart := by
  obtain ⟨_, _, _, h⟩ := (State.note_trailOnly s k b).eq
  rw [h]
@[simp] theorem State.note_vsys (s : State) (k : Nat) (b : List Byte) : (s.note k b).vsys = s.vsys := by
  obtain ⟨_, _, _, h⟩ := (State.note_trailOnly s k b).eq
  rw [h]
@[simp] theorem State.note_fw (s : State) (k : Nat) (b : List Byte) : (s.note k b).fw = s.fw := by
  obtain ⟨_, _, _, h⟩ := (State.note_trailOnly s k b).eq
  rw [h]
@[simp] theorem State.note_clock (s : State) (k : Nat) (b : List Byte) : (s.note k b).clock = s.clock := by
  obtain ⟨_, _, _, h⟩ := (State.note_trailOnly s k b).eq
  rw [h]
@[simp] theorem State.note_blobs (s : State) (k : Nat) (b : List Byte) : (s.note k b).blobs = s.blobs := by
  obtain ⟨_, _, _, h⟩ := (State.note_trailOnly s k b).eq
  rw [h]
@[simp] theorem State.note_flash (s : State) (k : Nat) (b : List Byte) : (s.note k b).flash = s.flash := by
  obtain ⟨_, _, _, h⟩ := (State.note_trailOnly s k b).eq
  rw [h]
@[simp] theorem State.note_flashBlobs (s : State) (k : Nat) (b : List Byte) : (s.note k b).flashBlobs = s.flashBlobs := by
  obtain ⟨_, _, _, h⟩ := (State.note_trailOnly s k b).eq
  rw [h]
@[simp] theorem State.note_chans (s : State) (k : Nat) (b : List Byte) : (s.note k b).chans = s.chans := by
  obtain ⟨_, _, _, h⟩ := (State.note_trailOnly s k b).eq
  rw [h]
@[simp] theorem State.note_units (s : State) (k : Nat) (b : List Byte) : (s.note k b).units = s.units := by
  obtain ⟨_, _, _, h⟩ := (State.note_trailOnly s k b).eq
  rw [h]
@[simp] theorem State.note_slots (s : State) (k : Nat) (b : List Byte) : (s.note k b).slots = s.slots := by
  obtain ⟨_, _, _, h⟩ := (State.note_trailOnly s k b).eq
  rw [h]
@[simp] theorem State.note_engines (s : State) (k : Nat) (b : List Byte) : (s.note k b).engines = s.engines := by
  obtain ⟨_, _, _, h⟩ := (State.note_trailOnly s k b).eq
  rw [h]
@[simp] theorem State.note_descs (s : State) (k : Nat) (b : List Byte) : (s.note k b).descs = s.descs := by
  obtain ⟨_, _, _, h⟩ := (State.note_trailOnly s k b).eq
  rw [h]
@[simp] theorem State.note_adcs (s : State) (k : Nat) (b : List Byte) : (s.note k b).adcs = s.adcs := by
  obtain ⟨_, _, _, h⟩ := (State.note_trailOnly s k b).eq
  rw [h]
@[simp] theorem State.note_wins (s : State) (k : Nat) (b : List Byte) : (s.note k b).wins = s.wins := by
  obtain ⟨_, _, _, h⟩ := (State.note_trailOnly s k b).eq
  rw [h]
@[simp] theorem State.note_queues (s : State) (k : Nat) (b : List Byte) : (s.note k b).queues = s.queues := by
  obtain ⟨_, _, _, h⟩ := (State.note_trailOnly s k b).eq
  rw [h]
@[simp] theorem State.note_groups (s : State) (k : Nat) (b : List Byte) : (s.note k b).groups = s.groups := by
  obtain ⟨_, _, _, h⟩ := (State.note_trailOnly s k b).eq
  rw [h]
@[simp] theorem State.note_bldc (s : State) (k : Nat) (b : List Byte) : (s.note k b).bldc = s.bldc := by
  obtain ⟨_, _, _, h⟩ := (State.note_trailOnly s k b).eq
  rw [h]
@[simp] theorem State.note_axes (s : State) (k : Nat) (b : List Byte) : (s.note k b).axes = s.axes := by
  obtain ⟨_, _, _, h⟩ := (State.note_trailOnly s k b).eq
  rw [h]
@[simp] theorem State.note_power (s : State) (k : Nat) (b : List Byte) : (s.note k b).power = s.power := by
  obtain ⟨_, _, _, h⟩ := (State.note_trailOnly s k b).eq
  rw [h]
@[simp] theorem State.note_sup (s : State) (k : Nat) (b : List Byte) : (s.note k b).sup = s.sup := by
  obtain ⟨_, _, _, h⟩ := (State.note_trailOnly s k b).eq
  rw [h]
@[simp] theorem State.note_lockbox (s : State) (k : Nat) (b : List Byte) : (s.note k b).lockbox = s.lockbox := by
  obtain ⟨_, _, _, h⟩ := (State.note_trailOnly s k b).eq
  rw [h]
@[simp] theorem State.note_qm (s : State) (k : Nat) (b : List Byte) : (s.note k b).qm = s.qm := by
  obtain ⟨_, _, _, h⟩ := (State.note_trailOnly s k b).eq
  rw [h]
@[simp] theorem State.note_net (s : State) (k : Nat) (b : List Byte) : (s.note k b).net = s.net := by
  obtain ⟨_, _, _, h⟩ := (State.note_trailOnly s k b).eq
  rw [h]
@[simp] theorem State.note_can (s : State) (k : Nat) (b : List Byte) : (s.note k b).can = s.can := by
  obtain ⟨_, _, _, h⟩ := (State.note_trailOnly s k b).eq
  rw [h]
@[simp] theorem State.note_sec (s : State) (k : Nat) (b : List Byte) : (s.note k b).sec = s.sec := by
  obtain ⟨_, _, _, h⟩ := (State.note_trailOnly s k b).eq
  rw [h]
@[simp] theorem State.note_standbyDue (s : State) (k : Nat) (b : List Byte) : (s.note k b).standbyDue = s.standbyDue := by
  obtain ⟨_, _, _, h⟩ := (State.note_trailOnly s k b).eq
  rw [h]
@[simp] theorem State.note_sleepLt (s : State) (k : Nat) (b : List Byte) : (s.note k b).sleepLt = s.sleepLt := by
  obtain ⟨_, _, _, h⟩ := (State.note_trailOnly s k b).eq
  rw [h]
@[simp] theorem State.note_metNote (s : State) (k : Nat) (b : List Byte) : (s.note k b).metNote = s.metNote := by
  obtain ⟨_, _, _, h⟩ := (State.note_trailOnly s k b).eq
  rw [h]
@[simp] theorem State.note_lastMet (s : State) (k : Nat) (b : List Byte) : (s.note k b).lastMet = s.lastMet := by
  obtain ⟨_, _, _, h⟩ := (State.note_trailOnly s k b).eq
  rw [h]
@[simp] theorem State.note_metSilent (s : State) (k : Nat) (b : List Byte) : (s.note k b).metSilent = s.metSilent := by
  obtain ⟨_, _, _, h⟩ := (State.note_trailOnly s k b).eq
  rw [h]
@[simp] theorem State.note_metView (s : State) (k : Nat) (b : List Byte) : (s.note k b).metView = s.metView := by
  obtain ⟨_, _, _, h⟩ := (State.note_trailOnly s k b).eq
  rw [h]
@[simp] theorem State.note_metViewAt (s : State) (k : Nat) (b : List Byte) : (s.note k b).metViewAt = s.metViewAt := by
  obtain ⟨_, _, _, h⟩ := (State.note_trailOnly s k b).eq
  rw [h]
@[simp] theorem State.note_tag (s : State) (k : Nat) (b : List Byte) : (s.note k b).tag = s.tag := by
  obtain ⟨_, _, _, h⟩ := (State.note_trailOnly s k b).eq
  rw [h]
@[simp] theorem State.note_sleepHash (s : State) (k : Nat) (b : List Byte) : (s.note k b).sleepHash = s.sleepHash := by
  obtain ⟨_, _, _, h⟩ := (State.note_trailOnly s k b).eq
  rw [h]
@[simp] theorem State.note_waking (s : State) (k : Nat) (b : List Byte) : (s.note k b).waking = s.waking := by
  obtain ⟨_, _, _, h⟩ := (State.note_trailOnly s k b).eq
  rw [h]
@[simp] theorem State.note_resetLt (s : State) (k : Nat) (b : List Byte) : (s.note k b).resetLt = s.resetLt := by
  obtain ⟨_, _, _, h⟩ := (State.note_trailOnly s k b).eq
  rw [h]
@[simp] theorem State.note_resetReq (s : State) (k : Nat) (b : List Byte) : (s.note k b).resetReq = s.resetReq := by
  obtain ⟨_, _, _, h⟩ := (State.note_trailOnly s k b).eq
  rw [h]
@[simp] theorem State.note_lane (s : State) (k : Nat) (b : List Byte) : (s.note k b).lane = s.lane := by
  obtain ⟨_, _, _, h⟩ := (State.note_trailOnly s k b).eq
  rw [h]
@[simp] theorem State.note_flight (s : State) (k : Nat) (b : List Byte) : (s.note k b).flight = s.flight := by
  obtain ⟨_, _, _, h⟩ := (State.note_trailOnly s k b).eq
  rw [h]
@[simp] theorem State.note_banks (s : State) (k : Nat) (b : List Byte) : (s.note k b).banks = s.banks := by
  obtain ⟨_, _, _, h⟩ := (State.note_trailOnly s k b).eq
  rw [h]
@[simp] theorem State.note_hot (s : State) (k : Nat) (b : List Byte) : (s.note k b).hot = s.hot := by
  obtain ⟨_, _, _, h⟩ := (State.note_trailOnly s k b).eq
  rw [h]
@[simp] theorem State.note_free (s : State) (k : Nat) (b : List Byte) : (s.note k b).free = s.free := by
  obtain ⟨_, _, _, h⟩ := (State.note_trailOnly s k b).eq
  rw [h]
@[simp] theorem State.note_pending (s : State) (k : Nat) (b : List Byte) : (s.note k b).pending = s.pending := by
  obtain ⟨_, _, _, h⟩ := (State.note_trailOnly s k b).eq
  rw [h]
@[simp] theorem State.chan_note (s : State) (k : Nat) (b : List Byte) (p : Nat) : (s.note k b).chan p = s.chan p := by
  obtain ⟨_, _, _, h⟩ := (State.note_trailOnly s k b).eq
  rw [h]; rfl
@[simp] theorem State.unit_note (s : State) (k : Nat) (b : List Byte) (p q : Nat) : (s.note k b).unit p q = s.unit p q := by
  obtain ⟨_, _, _, h⟩ := (State.note_trailOnly s k b).eq
  rw [h]; rfl
@[simp] theorem State.slot_note (s : State) (k : Nat) (b : List Byte) (p q : Nat) : (s.note k b).slot p q = s.slot p q := by
  obtain ⟨_, _, _, h⟩ := (State.note_trailOnly s k b).eq
  rw [h]; rfl
@[simp] theorem State.eng_note (s : State) (k : Nat) (b : List Byte) (p q : Nat) : (s.note k b).eng p q = s.eng p q := by
  obtain ⟨_, _, _, h⟩ := (State.note_trailOnly s k b).eq
  rw [h]; rfl
@[simp] theorem State.drive_note (s : State) (k : Nat) (b : List Byte) (p : Nat) : (s.note k b).drive p = s.drive p := by
  obtain ⟨_, _, _, h⟩ := (State.note_trailOnly s k b).eq
  rw [h]; rfl
@[simp] theorem State.axis_note (s : State) (k : Nat) (b : List Byte) (p : Nat) : (s.note k b).axis p = s.axis p := by
  obtain ⟨_, _, _, h⟩ := (State.note_trailOnly s k b).eq
  rw [h]; rfl
@[simp] theorem State.port_note (s : State) (k : Nat) (b : List Byte) (p : Nat) : (s.note k b).port p = s.port p := by
  obtain ⟨_, _, _, h⟩ := (State.note_trailOnly s k b).eq
  rw [h]; rfl
@[simp] theorem State.adc_note (s : State) (k : Nat) (b : List Byte) (p q : Nat) : (s.note k b).adc p q = s.adc p q := by
  obtain ⟨_, _, _, h⟩ := (State.note_trailOnly s k b).eq
  rw [h]; rfl
@[simp] theorem State.lt_note (s : State) (k : Nat) (b : List Byte)  : (s.note k b).lt  = s.lt  := by
  obtain ⟨_, _, _, h⟩ := (State.note_trailOnly s k b).eq
  rw [h]; rfl
@[simp] theorem State.rdB_note (s : State) (k : Nat) (b : List Byte) (p q r : Nat) : (s.note k b).rdB p q r = s.rdB p q r := by
  obtain ⟨_, _, _, h⟩ := (State.note_trailOnly s k b).eq
  rw [h]; rfl
@[simp] theorem State.sitePop_note (s : State) (k : Nat) (b : List Byte) (p : Nat) : (s.note k b).sitePop p = s.sitePop p := by
  obtain ⟨_, _, _, h⟩ := (State.note_trailOnly s k b).eq
  rw [h]; rfl
@[simp] theorem State.chanPop_note (s : State) (k : Nat) (b : List Byte) (p : Nat) : (s.note k b).chanPop p = s.chanPop p := by
  obtain ⟨_, _, _, h⟩ := (State.note_trailOnly s k b).eq
  rw [h]; rfl
@[simp] theorem State.sites_note (s : State) (k : Nat) (b : List Byte)  : (s.note k b).sites  = s.sites  := by
  obtain ⟨_, _, _, h⟩ := (State.note_trailOnly s k b).eq
  rw [h]; rfl
theorem State.rd_note (s : State) (k : Nat) (b : List Byte) {i : Nat} (j e : Nat) (h : i ≠ 0x6000) : (s.note k b).rd i j e = s.rd i j e :=
  (State.note_trailOnly s k b).rd i j e h

@[simp] theorem State.noteAt_variant (s : State) (n c k : Nat) (b : List Byte) : (s.noteAt n c k b).variant = s.variant := by
  obtain ⟨_, _, _, h⟩ := (State.noteAt_trailOnly s n c k b).eq
  rw [h]
@[simp] theorem State.noteAt_sealedPart (s : State) (n c k : Nat) (b : List Byte) : (s.noteAt n c k b).sealedPart = s.sealedPart := by
  obtain ⟨_, _, _, h⟩ := (State.noteAt_trailOnly s n c k b).eq
  rw [h]
@[simp] theorem State.noteAt_vsys (s : State) (n c k : Nat) (b : List Byte) : (s.noteAt n c k b).vsys = s.vsys := by
  obtain ⟨_, _, _, h⟩ := (State.noteAt_trailOnly s n c k b).eq
  rw [h]
@[simp] theorem State.noteAt_fw (s : State) (n c k : Nat) (b : List Byte) : (s.noteAt n c k b).fw = s.fw := by
  obtain ⟨_, _, _, h⟩ := (State.noteAt_trailOnly s n c k b).eq
  rw [h]
@[simp] theorem State.noteAt_clock (s : State) (n c k : Nat) (b : List Byte) : (s.noteAt n c k b).clock = s.clock := by
  obtain ⟨_, _, _, h⟩ := (State.noteAt_trailOnly s n c k b).eq
  rw [h]
@[simp] theorem State.noteAt_blobs (s : State) (n c k : Nat) (b : List Byte) : (s.noteAt n c k b).blobs = s.blobs := by
  obtain ⟨_, _, _, h⟩ := (State.noteAt_trailOnly s n c k b).eq
  rw [h]
@[simp] theorem State.noteAt_flash (s : State) (n c k : Nat) (b : List Byte) : (s.noteAt n c k b).flash = s.flash := by
  obtain ⟨_, _, _, h⟩ := (State.noteAt_trailOnly s n c k b).eq
  rw [h]
@[simp] theorem State.noteAt_flashBlobs (s : State) (n c k : Nat) (b : List Byte) : (s.noteAt n c k b).flashBlobs = s.flashBlobs := by
  obtain ⟨_, _, _, h⟩ := (State.noteAt_trailOnly s n c k b).eq
  rw [h]
@[simp] theorem State.noteAt_chans (s : State) (n c k : Nat) (b : List Byte) : (s.noteAt n c k b).chans = s.chans := by
  obtain ⟨_, _, _, h⟩ := (State.noteAt_trailOnly s n c k b).eq
  rw [h]
@[simp] theorem State.noteAt_units (s : State) (n c k : Nat) (b : List Byte) : (s.noteAt n c k b).units = s.units := by
  obtain ⟨_, _, _, h⟩ := (State.noteAt_trailOnly s n c k b).eq
  rw [h]
@[simp] theorem State.noteAt_slots (s : State) (n c k : Nat) (b : List Byte) : (s.noteAt n c k b).slots = s.slots := by
  obtain ⟨_, _, _, h⟩ := (State.noteAt_trailOnly s n c k b).eq
  rw [h]
@[simp] theorem State.noteAt_engines (s : State) (n c k : Nat) (b : List Byte) : (s.noteAt n c k b).engines = s.engines := by
  obtain ⟨_, _, _, h⟩ := (State.noteAt_trailOnly s n c k b).eq
  rw [h]
@[simp] theorem State.noteAt_descs (s : State) (n c k : Nat) (b : List Byte) : (s.noteAt n c k b).descs = s.descs := by
  obtain ⟨_, _, _, h⟩ := (State.noteAt_trailOnly s n c k b).eq
  rw [h]
@[simp] theorem State.noteAt_adcs (s : State) (n c k : Nat) (b : List Byte) : (s.noteAt n c k b).adcs = s.adcs := by
  obtain ⟨_, _, _, h⟩ := (State.noteAt_trailOnly s n c k b).eq
  rw [h]
@[simp] theorem State.noteAt_wins (s : State) (n c k : Nat) (b : List Byte) : (s.noteAt n c k b).wins = s.wins := by
  obtain ⟨_, _, _, h⟩ := (State.noteAt_trailOnly s n c k b).eq
  rw [h]
@[simp] theorem State.noteAt_queues (s : State) (n c k : Nat) (b : List Byte) : (s.noteAt n c k b).queues = s.queues := by
  obtain ⟨_, _, _, h⟩ := (State.noteAt_trailOnly s n c k b).eq
  rw [h]
@[simp] theorem State.noteAt_groups (s : State) (n c k : Nat) (b : List Byte) : (s.noteAt n c k b).groups = s.groups := by
  obtain ⟨_, _, _, h⟩ := (State.noteAt_trailOnly s n c k b).eq
  rw [h]
@[simp] theorem State.noteAt_bldc (s : State) (n c k : Nat) (b : List Byte) : (s.noteAt n c k b).bldc = s.bldc := by
  obtain ⟨_, _, _, h⟩ := (State.noteAt_trailOnly s n c k b).eq
  rw [h]
@[simp] theorem State.noteAt_axes (s : State) (n c k : Nat) (b : List Byte) : (s.noteAt n c k b).axes = s.axes := by
  obtain ⟨_, _, _, h⟩ := (State.noteAt_trailOnly s n c k b).eq
  rw [h]
@[simp] theorem State.noteAt_power (s : State) (n c k : Nat) (b : List Byte) : (s.noteAt n c k b).power = s.power := by
  obtain ⟨_, _, _, h⟩ := (State.noteAt_trailOnly s n c k b).eq
  rw [h]
@[simp] theorem State.noteAt_sup (s : State) (n c k : Nat) (b : List Byte) : (s.noteAt n c k b).sup = s.sup := by
  obtain ⟨_, _, _, h⟩ := (State.noteAt_trailOnly s n c k b).eq
  rw [h]
@[simp] theorem State.noteAt_lockbox (s : State) (n c k : Nat) (b : List Byte) : (s.noteAt n c k b).lockbox = s.lockbox := by
  obtain ⟨_, _, _, h⟩ := (State.noteAt_trailOnly s n c k b).eq
  rw [h]
@[simp] theorem State.noteAt_qm (s : State) (n c k : Nat) (b : List Byte) : (s.noteAt n c k b).qm = s.qm := by
  obtain ⟨_, _, _, h⟩ := (State.noteAt_trailOnly s n c k b).eq
  rw [h]
@[simp] theorem State.noteAt_net (s : State) (n c k : Nat) (b : List Byte) : (s.noteAt n c k b).net = s.net := by
  obtain ⟨_, _, _, h⟩ := (State.noteAt_trailOnly s n c k b).eq
  rw [h]
@[simp] theorem State.noteAt_can (s : State) (n c k : Nat) (b : List Byte) : (s.noteAt n c k b).can = s.can := by
  obtain ⟨_, _, _, h⟩ := (State.noteAt_trailOnly s n c k b).eq
  rw [h]
@[simp] theorem State.noteAt_sec (s : State) (n c k : Nat) (b : List Byte) : (s.noteAt n c k b).sec = s.sec := by
  obtain ⟨_, _, _, h⟩ := (State.noteAt_trailOnly s n c k b).eq
  rw [h]
@[simp] theorem State.noteAt_standbyDue (s : State) (n c k : Nat) (b : List Byte) : (s.noteAt n c k b).standbyDue = s.standbyDue := by
  obtain ⟨_, _, _, h⟩ := (State.noteAt_trailOnly s n c k b).eq
  rw [h]
@[simp] theorem State.noteAt_sleepLt (s : State) (n c k : Nat) (b : List Byte) : (s.noteAt n c k b).sleepLt = s.sleepLt := by
  obtain ⟨_, _, _, h⟩ := (State.noteAt_trailOnly s n c k b).eq
  rw [h]
@[simp] theorem State.noteAt_metNote (s : State) (n c k : Nat) (b : List Byte) : (s.noteAt n c k b).metNote = s.metNote := by
  obtain ⟨_, _, _, h⟩ := (State.noteAt_trailOnly s n c k b).eq
  rw [h]
@[simp] theorem State.noteAt_lastMet (s : State) (n c k : Nat) (b : List Byte) : (s.noteAt n c k b).lastMet = s.lastMet := by
  obtain ⟨_, _, _, h⟩ := (State.noteAt_trailOnly s n c k b).eq
  rw [h]
@[simp] theorem State.noteAt_metSilent (s : State) (n c k : Nat) (b : List Byte) : (s.noteAt n c k b).metSilent = s.metSilent := by
  obtain ⟨_, _, _, h⟩ := (State.noteAt_trailOnly s n c k b).eq
  rw [h]
@[simp] theorem State.noteAt_metView (s : State) (n c k : Nat) (b : List Byte) : (s.noteAt n c k b).metView = s.metView := by
  obtain ⟨_, _, _, h⟩ := (State.noteAt_trailOnly s n c k b).eq
  rw [h]
@[simp] theorem State.noteAt_metViewAt (s : State) (n c k : Nat) (b : List Byte) : (s.noteAt n c k b).metViewAt = s.metViewAt := by
  obtain ⟨_, _, _, h⟩ := (State.noteAt_trailOnly s n c k b).eq
  rw [h]
@[simp] theorem State.noteAt_tag (s : State) (n c k : Nat) (b : List Byte) : (s.noteAt n c k b).tag = s.tag := by
  obtain ⟨_, _, _, h⟩ := (State.noteAt_trailOnly s n c k b).eq
  rw [h]
@[simp] theorem State.noteAt_sleepHash (s : State) (n c k : Nat) (b : List Byte) : (s.noteAt n c k b).sleepHash = s.sleepHash := by
  obtain ⟨_, _, _, h⟩ := (State.noteAt_trailOnly s n c k b).eq
  rw [h]
@[simp] theorem State.noteAt_waking (s : State) (n c k : Nat) (b : List Byte) : (s.noteAt n c k b).waking = s.waking := by
  obtain ⟨_, _, _, h⟩ := (State.noteAt_trailOnly s n c k b).eq
  rw [h]
@[simp] theorem State.noteAt_resetLt (s : State) (n c k : Nat) (b : List Byte) : (s.noteAt n c k b).resetLt = s.resetLt := by
  obtain ⟨_, _, _, h⟩ := (State.noteAt_trailOnly s n c k b).eq
  rw [h]
@[simp] theorem State.noteAt_resetReq (s : State) (n c k : Nat) (b : List Byte) : (s.noteAt n c k b).resetReq = s.resetReq := by
  obtain ⟨_, _, _, h⟩ := (State.noteAt_trailOnly s n c k b).eq
  rw [h]
@[simp] theorem State.noteAt_lane (s : State) (n c k : Nat) (b : List Byte) : (s.noteAt n c k b).lane = s.lane := by
  obtain ⟨_, _, _, h⟩ := (State.noteAt_trailOnly s n c k b).eq
  rw [h]
@[simp] theorem State.noteAt_flight (s : State) (n c k : Nat) (b : List Byte) : (s.noteAt n c k b).flight = s.flight := by
  obtain ⟨_, _, _, h⟩ := (State.noteAt_trailOnly s n c k b).eq
  rw [h]
@[simp] theorem State.noteAt_banks (s : State) (n c k : Nat) (b : List Byte) : (s.noteAt n c k b).banks = s.banks := by
  obtain ⟨_, _, _, h⟩ := (State.noteAt_trailOnly s n c k b).eq
  rw [h]
@[simp] theorem State.noteAt_hot (s : State) (n c k : Nat) (b : List Byte) : (s.noteAt n c k b).hot = s.hot := by
  obtain ⟨_, _, _, h⟩ := (State.noteAt_trailOnly s n c k b).eq
  rw [h]
@[simp] theorem State.noteAt_free (s : State) (n c k : Nat) (b : List Byte) : (s.noteAt n c k b).free = s.free := by
  obtain ⟨_, _, _, h⟩ := (State.noteAt_trailOnly s n c k b).eq
  rw [h]
@[simp] theorem State.noteAt_pending (s : State) (n c k : Nat) (b : List Byte) : (s.noteAt n c k b).pending = s.pending := by
  obtain ⟨_, _, _, h⟩ := (State.noteAt_trailOnly s n c k b).eq
  rw [h]
@[simp] theorem State.chan_noteAt (s : State) (n c k : Nat) (b : List Byte) (p : Nat) : (s.noteAt n c k b).chan p = s.chan p := by
  obtain ⟨_, _, _, h⟩ := (State.noteAt_trailOnly s n c k b).eq
  rw [h]; rfl
@[simp] theorem State.unit_noteAt (s : State) (n c k : Nat) (b : List Byte) (p q : Nat) : (s.noteAt n c k b).unit p q = s.unit p q := by
  obtain ⟨_, _, _, h⟩ := (State.noteAt_trailOnly s n c k b).eq
  rw [h]; rfl
@[simp] theorem State.slot_noteAt (s : State) (n c k : Nat) (b : List Byte) (p q : Nat) : (s.noteAt n c k b).slot p q = s.slot p q := by
  obtain ⟨_, _, _, h⟩ := (State.noteAt_trailOnly s n c k b).eq
  rw [h]; rfl
@[simp] theorem State.eng_noteAt (s : State) (n c k : Nat) (b : List Byte) (p q : Nat) : (s.noteAt n c k b).eng p q = s.eng p q := by
  obtain ⟨_, _, _, h⟩ := (State.noteAt_trailOnly s n c k b).eq
  rw [h]; rfl
@[simp] theorem State.drive_noteAt (s : State) (n c k : Nat) (b : List Byte) (p : Nat) : (s.noteAt n c k b).drive p = s.drive p := by
  obtain ⟨_, _, _, h⟩ := (State.noteAt_trailOnly s n c k b).eq
  rw [h]; rfl
@[simp] theorem State.axis_noteAt (s : State) (n c k : Nat) (b : List Byte) (p : Nat) : (s.noteAt n c k b).axis p = s.axis p := by
  obtain ⟨_, _, _, h⟩ := (State.noteAt_trailOnly s n c k b).eq
  rw [h]; rfl
@[simp] theorem State.port_noteAt (s : State) (n c k : Nat) (b : List Byte) (p : Nat) : (s.noteAt n c k b).port p = s.port p := by
  obtain ⟨_, _, _, h⟩ := (State.noteAt_trailOnly s n c k b).eq
  rw [h]; rfl
@[simp] theorem State.adc_noteAt (s : State) (n c k : Nat) (b : List Byte) (p q : Nat) : (s.noteAt n c k b).adc p q = s.adc p q := by
  obtain ⟨_, _, _, h⟩ := (State.noteAt_trailOnly s n c k b).eq
  rw [h]; rfl
@[simp] theorem State.lt_noteAt (s : State) (n c k : Nat) (b : List Byte)  : (s.noteAt n c k b).lt  = s.lt  := by
  obtain ⟨_, _, _, h⟩ := (State.noteAt_trailOnly s n c k b).eq
  rw [h]; rfl
@[simp] theorem State.rdB_noteAt (s : State) (n c k : Nat) (b : List Byte) (p q r : Nat) : (s.noteAt n c k b).rdB p q r = s.rdB p q r := by
  obtain ⟨_, _, _, h⟩ := (State.noteAt_trailOnly s n c k b).eq
  rw [h]; rfl
@[simp] theorem State.sitePop_noteAt (s : State) (n c k : Nat) (b : List Byte) (p : Nat) : (s.noteAt n c k b).sitePop p = s.sitePop p := by
  obtain ⟨_, _, _, h⟩ := (State.noteAt_trailOnly s n c k b).eq
  rw [h]; rfl
@[simp] theorem State.chanPop_noteAt (s : State) (n c k : Nat) (b : List Byte) (p : Nat) : (s.noteAt n c k b).chanPop p = s.chanPop p := by
  obtain ⟨_, _, _, h⟩ := (State.noteAt_trailOnly s n c k b).eq
  rw [h]; rfl
@[simp] theorem State.sites_noteAt (s : State) (n c k : Nat) (b : List Byte)  : (s.noteAt n c k b).sites  = s.sites  := by
  obtain ⟨_, _, _, h⟩ := (State.noteAt_trailOnly s n c k b).eq
  rw [h]; rfl
theorem State.rd_noteAt (s : State) (n c k : Nat) (b : List Byte) {i : Nat} (j e : Nat) (h : i ≠ 0x6000) : (s.noteAt n c k b).rd i j e = s.rd i j e :=
  (State.noteAt_trailOnly s n c k b).rd i j e h

end Sys2Proof.Machine
end

