-- ==== Sys2Proof/WellFormed.lean ====
section
/-! DEFINITION. Well-formed commands: every operand that names a site, a die, a channel, an engine or a register
value lies in the range the manual gives it (R4, R12, R108, R419, R427). A command that is not well formed has no
meaning beyond what its meaning says of it. -/

namespace Sys2Proof

/-- A value below a bound. -/
def below (n x : Nat) : Bool := decide (x < n)

/-- A die site (R12). -/
def siteOk (n : Nat) : Bool := decide (1 ≤ n) && decide (n ≤ 6)

/-- A die: 0 the hub, 1 to 6 the channel dies (R2). -/
def dieOk (d : Nat) : Bool := below 7 d

/-- A global channel (R12). -/
def chanOk (c : Nat) : Bool := below 384 c

/-- A loop engine of a die (R108): 12 in the hub, 16 on a channel die. -/
def engOk (die e : Nat) : Bool := below (if die = 0 then 12 else 16) e

/-- A value that fits an unsigned register of 32 bits (R419). -/
def u32Ok (x : Nat) : Bool := below 4294967296 x

/-- A generator unit, an ADC unit and a loop slot of a die (R74, R104, R108, R263). -/
def unitOk (die u : Nat) : Bool := below (if die = 0 then 36 else 66) u
def adcOk (die u : Nat) : Bool := below (if die = 0 then 4 else 16) u
def slotOk (die k : Nat) : Bool := below (if die = 0 then 24 else 66) k

/-- The session ID and the SEQ of a sender are 32-bit words (R427). -/
def srcOk : Src → Bool
  | .keyway id seq => u32Ok id && u32Ok seq
  | .user | .service => true

/-- An instance fits the 10 bits of its field (R12, R427). -/
def instFits : Inst → Bool
  | .ch c => chanOk c
  | .site n => siteOk n
  | .met | .dev => true
  | .other e => below 1024 e

/-- The fields of an address (R427). -/
def spanOk (x : Span) : Bool := below 65536 x.index && below 256 x.sub && below 256 x.count && instFits x.first && instFits x.last

/-- The command's operands lie in their ranges. -/
def wellFormed : Instr → Bool
  | .vsysValid _ => true
  | .vsysInvalid => true
  | .vmetPowerOn _ => true
  | .vmetLoss => true
  | .qmWatchdogExpiry => true
  | .qmBoot => true
  | .siteFramingProbe site _ => siteOk site
  | .resetN _ => true
  | .hubWatchdog => true
  | .warmReset src v => srcOk src && u32Ok v
  | .siteReset src mask => srcOk src && u32Ok mask
  | .engineReset src mask => srcOk src && u32Ok mask
  | .recipeScrub site _ => siteOk site
  | .bootRomCheck => true
  | .residentFirmwareStart => true
  | .hingeCTraining site _ => siteOk site
  | .qcfwCheck site => siteOk site
  | .driverArming site => siteOk site
  | .echoTimeout site => siteOk site
  | .hingeCReplay site _ good later => siteOk site && decide (good < 64) && decide (later.length ≤ 64)
  | .hingeCLinkFailed site _ => siteOk site
  | .latchFrameSend site _ => siteOk site
  | .heartbeat site _ => siteOk site
  | .heartbeatTimeout site => siteOk site
  | .dieWatchdog site _ => siteOk site
  | .siteRecovery site => siteOk site
  | .metrologyLinkSilent => true
  | .streamLoss site => siteOk site
  | .streamReturn site => siteOk site
  | .dcovComparator site _ _ => siteOk site
  | .dcLinkAboveOv2 site _ _ => siteOk site
  | .safetyStop site _ _ => siteOk site
  | .segmentStop site _ _ => siteOk site
  | .segmentStopRequest site _ _ => siteOk site
  | .regenerationInhibit site _ _ => siteOk site
  | .doorLimit site _ _ => siteOk site
  | .regenerationRelease site _ _ => siteOk site
  | .doorRelease site _ _ => siteOk site
  | .runRelease site _ _ => siteOk site
  | .test site _ _ => siteOk site
  | .testEcho site _ _ => siteOk site
  | .segmentBusFault site _ _ => siteOk site
  | .overTemperature site _ _ => siteOk site
  | .clockLost site _ _ => siteOk site
  | .dabStageLatched site _ _ => siteOk site
  | .trailEntry site => siteOk site
  | .trailFreeze => true
  | .identify => true
  | .mailboxRead index sub' chan => below 65536 index && below 256 sub' && (chan == 65535 || chanOk chan)
  | .mailboxSubscribe mask => u32Ok mask
  | .ackRecords _ => true
  | .cellId chan _ => chanOk chan
  | .stepStart chan _ _ _ _ _ _ _ loop _ _ => chanOk chan && u32Ok loop
  | .stepClose chan _ _ _ => chanOk chan
  | .reqAdjustImageSegment _ _ => true
  | .enterToken _ => true
  | .leaveToken _ => true
  | .auditAcknowledge _ => true
  | .calibrationWrite _ => true
  | .authorityKeySet _ => true
  | .softwareAnnounce _ => true
  | .beacon _ _ _ => true
  | .mailboxFrameDiscard _ => true
  | .qmRecordFrame seq => u32Ok seq
  | .qmBatchRecordFrame seq => u32Ok seq
  | .mirrorSet _ => true
  | .metrologyEvent _ => true
  | .integratorSample chan _ _ _ _ _ => chanOk chan
  | .mirrorMeans _ => true
  | .periodicRecord chan => chanOk chan
  | .acRecord samples => samples.all (·.length == 6)
  | .impedanceRecord chan => chanOk chan
  | .checkpoint => true
  | .batchClose => true
  | .adjEnChange _ => true
  | .adjustmentExpiry => true
  | .mclkFault => true
  | .mclkReturn => true
  | .ident _ _ => true
  | .status _ _ => true
  | .audit _ _ => true
  | .record _ _ => true
  | .batch _ _ => true
  | .proof _ _ => true
  | .live _ _ => true
  | .ac _ _ => true
  | .pubkey _ _ => true
  | .overlapStart site group => siteOk site && below 9 group
  | .provisionalTakeover site group => siteOk site && below 9 group
  | .rotationCommit site group => siteOk site && below 9 group
  | .freedCalibrationPhase site group phase _ => siteOk site && below 9 group && below 3 phase
  | .freedCalibrationEnd site group => siteOk site && below 9 group
  | .suspectRecalibration site group modulator _ _ _ => siteOk site && below 9 group && below 141 modulator
  | .calibrationAgeEvent site modulator => siteOk site && below 141 modulator
  | .pathDiagnosis die unit => dieOk die && adcOk die unit
  | .pathDiagnosisResult die unit results =>
    dieOk die && adcOk die unit && results.all fun r => below 16 r.1 && below 4096 r.2.1 && below 65536 r.2.2
  | .diagnosisRepeat die unit => dieOk die && adcOk die unit
  | .diagnoseNow src site mask => srcOk src && siteOk site && u32Ok mask
  | .controlAdcCalibrationWrite src index sub' inst _ => srcOk src && below 65536 index && below 256 sub' && instFits inst
  | .vdrvUndervoltage site _ => siteOk site
  | .vdrvRelease site _ => siteOk site
  | .bootstrapHold chan _ => chanOk chan
  | .bootstrapRelease chan _ => chanOk chan
  | .forcedRefresh chan => chanOk chan
  | .edgeWord chan _ => chanOk chan
  | .edgeTime chan => chanOk chan
  | .deadTimeTurnOn chan => chanOk chan
  | .softComparatorTrip chan _ => chanOk chan
  | .hardComparatorTrip chan _ => chanOk chan
  | .blankingEnd chan _ => chanOk chan
  | .checkNow src chan v => srcOk src && chanOk chan && u32Ok v
  | .contactCheckStart chan => chanOk chan
  | .contactCheckPhase chan codes => chanOk chan && codes.length == 32 && codes.all (below 65536)
  | .contactCheckResult chan => chanOk chan
  | .periodBoundary die unit => dieOk die && unitOk die unit
  | .midPeriodUpdate die unit => dieOk die && unitOk die unit
  | .edgeDecision die unit => dieOk die && unitOk die unit
  | .commit src chan v => srcOk src && chanOk chan && u32Ok v
  | .outputStart die unit => dieOk die && unitOk die unit
  | .outputStop die unit => dieOk die && unitOk die unit
  | .faultSourceAssert site _ unit _ _ => siteOk site && (unit == 0 || unit == 8)
  | .faultSourceDeassert site _ _ _ => siteOk site
  | .fltInput _ _ _ => true
  | .debugHalt die => dieOk die
  | .debugResume die => dieOk die
  | .release die slot samples => dieOk die && slotOk die slot && samples.all fun x => decide (0 ≤ x.value) && decide (x.value < 65536)
  | .jobStart die eng => dieOk die && engOk die eng
  | .jobEnd die eng => dieOk die && engOk die eng
  | .engineFault die eng _ => dieOk die && engOk die eng
  | .nop die eng => dieOk die && engOk die eng
  | .lds die eng d _ => dieOk die && engOk die eng && below 8 d
  | .ldp die eng d _ => dieOk die && engOk die eng && below 8 d
  | .ldw die eng d w => dieOk die && engOk die eng && below 8 d && below 64 w
  | .stw die eng a w => dieOk die && engOk die eng && below 8 a && below 64 w
  | .ldi die eng d _ => dieOk die && engOk die eng && below 8 d
  | .ldh die eng d _ => dieOk die && engOk die eng && below 8 d
  | .mov die eng d a => dieOk die && engOk die eng && below 8 d && below 8 a
  | .add die eng d a b => dieOk die && engOk die eng && below 8 d && below 8 a && below 8 b
  | .sub die eng d a b => dieOk die && engOk die eng && below 8 d && below 8 a && below 8 b
  | .mul die eng acc a b => dieOk die && engOk die eng && below 2 acc && below 8 a && below 8 b
  | .mac die eng acc a b => dieOk die && engOk die eng && below 2 acc && below 8 a && below 8 b
  | .acc die eng acc a => dieOk die && engOk die eng && below 2 acc && below 8 a
  | .sta die eng d acc => dieOk die && engOk die eng && below 8 d && below 2 acc
  | .min die eng d a b => dieOk die && engOk die eng && below 8 d && below 8 a && below 8 b
  | .max die eng d a b => dieOk die && engOk die eng && below 8 d && below 8 a && below 8 b
  | .lim die eng d a w => dieOk die && engOk die eng && below 8 d && below 8 a && below 64 w
  | .shf die eng d a _ => dieOk die && engOk die eng && below 8 d && below 8 a
  | .flt die eng d a w => dieOk die && engOk die eng && below 8 d && below 8 a && below 64 w
  | .bqd die eng d a w => dieOk die && engOk die eng && below 8 d && below 8 a && below 64 w
  | .pi die eng d a w => dieOk die && engOk die eng && below 8 d && below 8 a && below 64 w
  | .div die eng d a b => dieOk die && engOk die eng && below 8 d && below 8 a && below 8 b
  | .crv die eng d a t => dieOk die && engOk die eng && below 8 d && below 8 a && below 64 t
  | .cmp die eng a b => dieOk die && engOk die eng && below 8 a && below 8 b
  | .br die eng cond _ => dieOk die && engOk die eng && below 8 cond
  | .trm die eng => dieOk die && engOk die eng
  | .edg die eng _ a => dieOk die && engOk die eng && below 8 a
  | .cmt die eng => dieOk die && engOk die eng
  | .lat die eng _ => dieOk die && engOk die eng
  | .pub die eng a _ => dieOk die && engOk die eng && below 8 a
  | .ldg die eng d _ => dieOk die && engOk die eng && below 8 d
  | .yld die eng => dieOk die && engOk die eng
  | .descriptorLoad src die _ => srcOk src && dieOk die
  | .descriptorRemove src die _ => srcOk src && dieOk die
  | .curveTableLoad src die t _ => srcOk src && dieOk die && below 64 t
  | .samplesStale chan => chanOk chan
  | .followingError chan => chanOk chan
  | .voltageLimit chan => chanOk chan
  | .plausibilityFault chan => chanOk chan
  | .plausibilityUnavailable chan => chanOk chan
  | .recipeLoad src first last _ => srcOk src && chanOk first && chanOk last
  | .runStart src first last => srcOk src && chanOk first && chanOk last
  | .runStop src first last => srcOk src && chanOk first && chanOk last
  | .runContinue src first last => srcOk src && chanOk first && chanOk last
  | .milestoneClose chan => chanOk chan
  | .groupWaitLimit g => below 128 g
  | .groupStart g => below 128 g
  | .windowCrossing input _ _ => below 64 input
  | .ov1Release => true
  | .dcovTrip _ => true
  | .dcovRelease _ => true
  | .crossCheckDisagreement _ => true
  | .hubSamplesStale slot => below 24 slot
  | .gridLocked => true
  | .gridLoss => true
  | .powerStart src => srcOk src
  | .powerStop src => srcOk src
  | .gridSyncTimeout => true
  | .prechargeComplete => true
  | .prechargeTimeout => true
  | .mainContactorClosed => true
  | .afeRampComplete => true
  | .segmentBusesReady => true
  | .controlledStop _ => true
  | .segmentStopDelay => true
  | .contactorsOpen => true
  | .dcLinkUndervoltage => true
  | .vdcUpdate => true
  | .dabAtLimit site _ => siteOk site
  | .dabSamplesStale site _ => siteOk site
  | .chopperOpen => true
  | .chopperShort => true
  | .chopperOverload => true
  | .dischargeNoCurrent => true
  | .dischargeRelease => true
  | .dischargeExhausted => true
  | .zeroCrossing a x => below 4 a && below 3 x.phase
  | .commutation a => below 4 a
  | .listenEnd a => below 4 a
  | .brakeWindow a => below 4 a
  | .brakeFailed a => below 4 a
  | .alignEnd a => below 4 a
  | .rampFailed a => below 4 a
  | .lockedRotor a => below 4 a
  | .retryDelayEnd a => below 4 a
  | .retryCountReset a => below 4 a
  | .loadFault a => below 4 a
  | .speedSetpoint src a _ => srcOk src && below 4 a
  | .auxSamplesStale _ => true
  | .targetPosition src a _ => srcOk src && below 4 a
  | .stepEdge a _ => below 4 a
  | .inputOverrun a => below 4 a
  | .limitSwitch a _ _ => below 4 a
  | .holdDelay a => below 4 a
  | .referencePosition src a _ => srcOk src && below 4 a
  | .sto out => below 4 out
  | .stoRelease out => below 4 out
  | .ss1 out => below 4 out
  | .ss1Time out => below 4 out
  | .supervisorCycle _ => true
  | .inputDemand _ => true
  | .inputDemandEnd _ => true
  | .safetyStopDelay => true
  | .contactorOpenDelay => true
  | .adisDelay => true
  | .inputFault _ => true
  | .testPulse stp => below 2 stp
  | .discrepancyFault _ => true
  | .inputRecovery _ => true
  | .doorLimitLatch chan => chanOk chan
  | .overTemperatureCheck site _ => siteOk site
  | .temperaturePlausibilityCheck site => siteOk site
  | .temperaturePlausibilityFault chan => chanOk chan
  | .applicationHeartbeatTimeout => true
  | .safetyReset _ => true
  | .resetRequest src v => srcOk src && u32Ok v
  | .safeOutputRequest src out v => srcOk src && below 4 out && u32Ok v
  | .offPulse out => below 4 out
  | .offPulseEnd out _ => below 4 out
  | .outputFault out => below 4 out
  | .contactorRequest src _ v => srcOk src && u32Ok v
  | .contactorTimeout _ => true
  | .contactorFault _ => true
  | .weldedContact _ => true
  | .lockstepFault => true
  | .supervisorClockFault _ => true
  | .supervisorWatchdog => true
  | .memoryFault => true
  | .hSafeSupplyFault => true
  | .unlock src _ => srcOk src
  | .passwordChange src _ => srcOk src
  | .lock src v => srcOk src && u32Ok v
  | .rwpWrite src index sub' inst _ => srcOk src && below 65536 index && below 256 sub' && instFits inst
  | .apply src crc => srcOk src && u32Ok crc
  | .unlockTimeout => true
  | .lockoutEnd => true
  | .refclkAbsent die => dieOk die
  | .refclkPresent die => dieOk die
  | .xtal32Failed => true
  | .xtal32Return => true
  | .lockWindow loop _ => below 8 loop
  | .coastLimit loop => below 8 loop
  | .sync _ _ _ => true
  | .syncTimeout => true
  | .ltStep => true
  | .carrierEpoch _ => true
  | .epochPeriod src _ => srcOk src
  | .restEntry site => siteOk site
  | .windowLeft chan _ _ => chanOk chan
  | .restWakeTimer site => siteOk site
  | .busWithinSetpoint site _ _ => siteOk site
  | .runRequest src => srcOk src
  | .standbyRequest src => srcOk src
  | .sleepRequest src => srcOk src
  | .standbyEntry => true
  | .sleepWake _ => true
  | .sleepWakeTimer => true
  | .wakeToStandby _ => true
  | .vioUndervoltage bank _ => below 9 bank
  | .vioRecovery bank _ => below 9 bank
  | .hubOverTemperature _ => true
  | .read src span => srcOk src && spanOk span
  | .write src span _ => srcOk src && spanOk span
  | .readRange src span => srcOk src && spanOk span
  | .writeRange src span _ => srcOk src && spanOk span
  | .segInitWrite src span _ => srcOk src && spanOk span
  | .segInitRead src span _ => srcOk src && spanOk span
  | .segDataWrite src transfer _ _ => srcOk src && u32Ok transfer
  | .segDataRead src transfer _ _ => srcOk src && u32Ok transfer
  | .segEndWrite src transfer crc => srcOk src && u32Ok transfer && u32Ok crc
  | .segEndRead src transfer => srcOk src && u32Ok transfer
  | .subscribe src _ _ _ _ => srcOk src
  | .notify => true
  | .recordStreamPublish session _ => u32Ok session
  | .abortTransfer src transfer => srcOk src && u32Ok transfer
  | .abortSession src => srcOk src
  | .sessionOpenStage1 seq _ => u32Ok seq
  | .sessionOpenStage3 session seq _ _ => u32Ok session && u32Ok seq
  | .datagramDiscard _ => true
  | .transferTimeout session transfer => u32Ok session && u32Ok transfer
  | .handshakeTimeout session => u32Ok session
  | .sessionIdleTimeout session => u32Ok session
  | .keptReplyExpiry session seq => u32Ok session && u32Ok seq
  | .store src v => srcOk src && u32Ok v
  | .storeComplete _ => true
  | .restoreDefaults src v => srcOk src && u32Ok v
  | .hostKeySlot src _ _ => srcOk src
  | .canMode src p v _ => srcOk src && below 2 p && u32Ok v
  | .transmitSubmit src p _ => srcOk src && below 2 p
  | .cancel src p _ _ => srcOk src && below 2 p
  | .cancelAll src p _ => srcOk src && below 2 p
  | .deadlineExpiry p _ _ => below 2 p
  | .arbitrationLost p => below 2 p
  | .frameReceived p _ _ => below 2 p
  | .frameSent p _ => below 2 p
  | .busError p _ code _ => below 2 p && below 6 code
  | .busOffRecovery p _ => below 2 p
  | .restart src p v => srcOk src && below 2 p && u32Ok v
  | .ringConsumer src p v => srcOk src && below 2 p && u32Ok v
  | .customerRootWrite src _ _ => srcOk src
  | .customerRootRevoke src _ v => srcOk src && u32Ok v
  | .rollbackCommit src _ v => srcOk src && u32Ok v
  | .preferredSlot src _ v => srcOk src && u32Ok v
  | .loadBegin src _ _ => srcOk src
  | .loadPiece src _ _ => srcOk src
  | .loadEnd src v _ => srcOk src && u32Ok v
  | .loadAbandon => true
  | .partitionStart src => srcOk src
  | .partitionStop src => srcOk src
  | .partitionFault _ => true
  | .apiCall span _ => spanOk span
  | .debugToken src _ _ _ => srcOk src
  | .debugLock src v => srcOk src && u32Ok v
  | .idcode => true
  | .bypass => true
  | .samplePreload _ => true
  | .extest => true
  | .attestationNonce src _ => srcOk src
  | .attestationReport src _ => srcOk src
  | .readCursor src v => srcOk src && u32Ok v
  | .freezeSeverity src v => srcOk src && u32Ok v
  | .unfreeze src v => srcOk src && u32Ok v
  | .writeZeroToClear src index sub' inst _ => srcOk src && below 65536 index && below 256 sub' && instFits inst
  | .channelLatchClear src first last v => srcOk src && chanOk first && chanOk last && u32Ok v
  | .dieClear src site v => srcOk src && siteOk site && u32Ok v
  | .fltGroupClear src mask => srcOk src && u32Ok mask
  | .bldcClear src a v => srcOk src && below 4 a && u32Ok v
  | .axisClear src a v => srcOk src && below 4 a && u32Ok v
  | .supervisorStart _ => true
  | .hubAdcConversion unit code => below 4 unit && below 65536 code
  | .dcovTestEnd k => below 2 k
  | .bestMasterClock _ => true
  | .switchForward _ _ => true
  | .arpNdpIcmpEcho _ _ _ _ => true
  | .unknownOpcode src _ _ _ => srcOk src
  | .unknownCommand cmd _ _ => below 256 cmd

end Sys2Proof
end

