-- ==== Sys2Proof/Tests/Slice0.lean ====
section
/-! SUPPORT. The model's own tests: commands that are not well formed are refused by their check; values that the
manual's worked examples print; and, for every statement with premises, states and operands that meet them. -/

namespace Sys2Proof.Machine

set_option Elab.async false
set_option maxRecDepth 4000
set_option linter.unusedVariables false

/-! ## Commands that are not well formed, one for each check -/

theorem test_illformed_site : wellFormed (.qcfwCheck 7) = false := by decide
theorem test_illformed_die : wellFormed (.jobStart 7 0) = false := by decide
theorem test_illformed_channel : wellFormed (.softComparatorTrip 384 0) = false := by decide
theorem test_illformed_hub_engine : wellFormed (.jobStart 0 12) = false := by decide
theorem test_illformed_unit : wellFormed (.periodBoundary 1 66) = false := by decide
theorem test_illformed_hub_unit : wellFormed (.periodBoundary 0 36) = false := by decide
theorem test_illformed_adc_unit : wellFormed (.pathDiagnosis 0 4) = false := by decide
theorem test_illformed_slot : wellFormed (.release 0 24 []) = false := by decide
theorem test_illformed_value : wellFormed (.commit .user 0 4294967296) = false := by decide
theorem test_illformed_sender : wellFormed (.commit (.keyway 4294967296 1) 0 1) = false := by decide
theorem test_illformed_instance : wellFormed (.read .user ⟨0x1302, 0, 1, .other 1024, .dev⟩) = false := by decide
theorem test_illformed_span : wellFormed (.read .user ⟨0x10000, 0, 1, .dev, .dev⟩) = false := by decide
theorem test_illformed_hub_adc : wellFormed (.hubAdcConversion 4 0) = false := by decide
theorem test_wellformed_edges : wellFormed (.jobStart 1 15) = true ∧ wellFormed (.softComparatorTrip 383 0) = true ∧
    wellFormed (.periodBoundary 1 65) = true := by decide

/-! ## Values that the manual's worked examples print -/

/-- Chapter 0: global channel 200 is local channel 8 of site 4. -/
theorem test_channel_200 : dieOf 200 = 4 ∧ localOf 200 = 8 ∧ chanOf 4 8 = 200 := by decide

/-- Chapter 2: the contact check of channel 70 gives class 1 and shows 35 mΩ. -/
theorem test_contact_check : classify 3412000 3412004 3412035 3412350 2000 = 1 ∧ shownRt 3412004 3412350 = 35 := by decide

/-- Chapter 3: the fall word of channel 70 at 423 counts and tap 6 behind the boundary 1,600,000 has LEG 01, CH 6, PB 0,
TAP 6 and TIME 0xBA7, and the next boundary's word LEG 10, PB 1, TAP 0 and TIME 0x040. -/
theorem test_fall_word : let w := edgeWordOf 70 .low (32 * 1600000 + 13542) false
    edgeOk w = true ∧ edgeLeg w = 1 ∧ edgeChan w = 6 ∧ edgePb w = false ∧ edgeTap w = 6 ∧ edgeTimeField w = 0xBA7 := by
  decide +kernel
theorem test_boundary_word : let w := edgeWordOf 70 .high (32 * 1601600) true
    edgeOk w = true ∧ edgeLeg w = 2 ∧ edgeChan w = 6 ∧ edgePb w = true ∧ edgeTap w = 0 ∧ edgeTimeField w = 0x040 := by
  decide +kernel
/-- The word names the instant that it was made for, seen 200 counts before it. -/
theorem test_edge_instant : edgeInstant (1600423 - 200) (edgeWordOf 70 .low (32 * 1600423 + 6) false) = 32 * 1600423 + 6 := by
  decide +kernel

/-- Chapter 4: engine 0 of the example passes the release rule, and 1,729 cycles at one instant break it. -/
theorem test_release_rule : releaseRule 1 3200 [(0, 600), (0, 600), (0, 520), (1600, 600), (1600, 600)] = true ∧
    releaseRule 1 3200 [(0, 1729)] = false := by decide

/-- Chapter 5: a loop rate of 100 kHz (L = 3,200) admits points up to 5 kHz. -/
theorem test_sweep_limit (p : JobIn) (h : p.l = 3200) (f : p.f0 = 100) :
    p.f1 = 5000000 → p.sweepTooFast = false := by
  intro g; simp [JobIn.sweepTooFast, h, f, g]

/-- Chapter 6: row 1 of the formation recipe is mode 1, and its first condition reads v_m ≥ threshold, hold 4, next row 2. -/
theorem test_recipe_row : rowMode 0x100A0000 = 1 ∧ rowDrain 0x100A0000 = 10 ∧
    (let s := (State.reset.wr 0x2001 7 0 0x10040002).wr 0x2001 8 0 0x002DC6C0
     (s.cond 0 1 1).hold = 4 ∧ (s.cond 0 1 1).next = 2 ∧ (s.cond 0 1 1).thr = 3000000 ∧ (s.cond 0 1 1).ok 1 = true) := by
  decide +kernel

/-- Chapter 12: a unit whose grid is shifted by −92 fine steps stands at −91 after one boundary and at 0 after 92. -/
theorem test_slew : slew (-92) = -91 ∧ slew^[92] (-92) = 0 := by decide

/-- Chapter 14: one reference of 384 channels every epoch of 1 ms: 1,536 octets in 2 parts, 1,616,000 octets/s, 2,000
datagrams/s. -/
theorem test_publication_rate : let x : Subscr := ⟨0, 1, [⟨0x2444, 2, .ch 0, .ch 383⟩], 0, 0⟩
    x.size = 1536 ∧ x.parts = 2 ∧ State.reset.rateOf x = (1616000, 2000) := by decide +kernel

/-- IEEE 802.3: the check value of the CRC-32 that R183 names. -/
theorem test_crc32 : crc32 [0x31, 0x32, 0x33, 0x34, 0x35, 0x36, 0x37, 0x38, 0x39] = 0xCBF43926 := by decide +kernel

/-- No row has bits: no word spells a command, and the queue stays as it is. -/
theorem test_no_word (n w : Nat) : decodeTableWord n w = none ∧ State.reset.withFetchWord n w = State.reset := ⟨rfl, rfl⟩

/-! ## Witnesses of the statements about every step -/

/-- The part after VSYS has become valid, its firmware running. -/
def woke : State := { State.reset with vsys := true, fw := true }

theorem woke_step : step woke = .next woke.tick := rfl

/-- A command at the front, and an empty queue. -/
theorem witness_step : (∃ (c : Instr) (rest : List Instr), { woke with pending := c :: rest }.pending = [.hubWatchdog]) ∧
    woke.pending = [] := ⟨⟨.hubWatchdog, [], rfl⟩, rfl⟩

/-- A state of the invariant that takes a step. -/
theorem witness_invariant : ∃ s t : State, s.Inv ∧ step s = .next t :=
  ⟨woke, woke.tick, ⟨by unfold State.PartLegal; decide, by unfold State.SessionsBounded; decide, fun _ h => nomatch h⟩, woke_step⟩

theorem witness_suffix : ∃ s t : State, step s = .next t := ⟨woke, woke.tick, woke_step⟩

theorem witness_sealed : ∃ s t : State, s.sealedPart = true ∧ 1 ≤ s.qm.sealSt ∧ s.qm.sealSt ≤ 2 ∧ step s = .next t :=
  ⟨woke, woke.tick, rfl, by decide, by decide, woke_step⟩

theorem witness_reset_request : ∃ s t : State, s.resetReq = {} ∧ step s = .next t := ⟨woke, woke.tick, rfl, woke_step⟩

theorem witness_populated_sites : ∃ (s : State) (m n : Nat), 1 ≤ m ∧ m < n ∧ s.sitePop n = true :=
  ⟨woke, 1, 6, by decide, by decide, by decide⟩

theorem witness_channel_numbers : ∃ site loc : Nat, 1 ≤ site ∧ site ≤ 6 ∧ loc < 64 := ⟨6, 63, by decide⟩

/-- Port 0 with a full ring: the producer 4,096 entries ahead of the consumer, over the wrap of the pointers. -/
def fullRing : State := (woke.wr 0x1418 1 dev 4095).wr 0x1419 1 dev 65535

/-- A ring with unread entries, a full ring, and one that is not full. -/
theorem witness_can_ring :
    (∃ (s : State) (k : Nat), k < (s.rdN 0x1418 1 dev + 65536 - s.rdN 0x1419 1 dev) % 65536 ∧
      (s.rdN 0x1418 1 dev + 65536 - s.rdN 0x1419 1 dev) % 65536 ≤ 4096) ∧
    (∃ s : State, (s.rdN 0x1418 1 dev + 65536 - s.rdN 0x1419 1 dev) % 65536 = 4096) ∧
    (∃ s : State, (s.rdN 0x1418 1 dev + 65536 - s.rdN 0x1419 1 dev) % 65536 ≠ 4096) :=
  ⟨⟨fullRing, 4095, by decide +kernel, by decide +kernel⟩, ⟨fullRing, by decide +kernel⟩, ⟨woke, by decide +kernel⟩⟩

/-! ## States of the witnesses -/

/-- A session with host key slot 1. -/
def ses : Session := ⟨1, 0, [], [], [], 0, 0, 1, false, [], []⟩

/-- A QF8S that has run for 20,000 s: every die in RUN, the supervisor running, the QM up with all sites, one session. -/
def base : State :=
  let s : State := { State.reset with
    vsys := true, fw := true,
    clock := { cnt := 6400000000000, tb := 204800000000000, lt := 20000000000000, lastEpoch := 19999999000000 },
    qm := { powered := true, booted := true, sites := 126, mask := 63 },
    net := { sessions := [ses], nextId := 2 } }
  each [1, 2, 3, 4, 5, 6] (fun s n => s.wr 0x1200 1 (siteI n) 1) ((s.wr 0x1200 1 dev 1).wr 0x4000 1 dev 1)

def withQm (f : Qm → Qm) : State := { base with qm := f base.qm }
def withNet (f : Net → Net) : State := { base with net := f base.net }
def withClock (f : Clock → Clock) : State := { base with clock := f base.clock }
def withPower (f : Power → Power) : State := { base with power := f base.power }
def withSup (f : Super → Super) : State := { base with sup := f base.sup }
def withSec (f : Sec → Sec) : State := { base with sec := f base.sec }
def withSes (x : Session) : State := withNet fun n => { n with sessions := [x] }
def withIn (k : Nat) (x : SafeIn) : State := withSup fun p => { p with ins := [(k, x)] }
def withOut (k : Nat) (x : SafeOut) : State := withSup fun p => { p with outs := [(k, x)] }
def withDrv (k : Nat) (x : Contactor) : State := withSup fun p => { p with kdrv := [(k, x)] }

/-- A request of the session, of the user partition, of the service port. -/
def kw : Src := .keyway 1 1

/-- The first host key slot is set. -/
def keyed (s : State) : State := s.wrB 0x1303 1 dev (List.replicate 32 1)

/-- The user partition runs; debug access is open. -/
def partOn : State := base.wr 0x7050 3 dev 1
def debugOn : State := { base with sealedPart := false, sec := { base.sec with debug := true } }

theorem accepts_of {s : State} {src : Src} {i j : Nat} {es : List Nat} {v : Int} {own : State → Nat → Nat}
    (h : ((s.clearOut.reached src && s.clearOut.serves src) && ((s.atRequest src).writeChecks src i j es v own).isNone) = true) :
    s.Accepts src i j es v own := by
  simp only [Bool.and_eq_true, Option.isNone_iff_eq_none] at h
  exact ⟨⟨h.1.1, h.1.2⟩, h.2⟩

theorem acceptsBlob_of {s : State} {src : Src} {i j : Nat} {es : List Nat} {b : List Byte} {own : State → Nat → Nat}
    (h : ((s.clearOut.reached src && s.clearOut.serves src) && ((s.atRequest src).blobChecks src i j es b own).isNone) = true) :
    s.AcceptsBlob src i j es b own := by
  simp only [Bool.and_eq_true, Option.isNone_iff_eq_none] at h
  exact ⟨⟨h.1.1, h.1.2⟩, h.2⟩

theorem hears_of {s : State} {src : Src} (h : (s.clearOut.reached src && s.clearOut.serves src) = true) : s.Hears src := by
  simp only [Bool.and_eq_true] at h
  exact ⟨h.1, h.2⟩

/-- Engine 0 of die 1 runs a job of slot 0. -/
def run1 : RunJob := ⟨0, 40, 0, 0, false⟩
def computing (w : Word) : State := (base.setEng 1 0 { job := some run1 }).setDesc 1 40 { w := 1000, ops := [w], loaded := true }

/-- A running unit of channel 0, with the period 1,600. -/
def unitOn : State := base.setUnit 1 0 { (base.unit 1 0) with running := true, boundary := 6399999998400 }

/-- A sparse transfer of the session. -/
def xfer (w : Bool) (b : List Byte) : Transfer := ⟨7, w, ⟨0x1302, 0, 1, .dev, .dev⟩, ⟨2, if w then [(0, b)] else []⟩, b, 0⟩

/-- A CAN frame to send, and one port in normal mode. -/
def frame0 : CanFrame := ⟨false, false, 5, false, false, false, 0, []⟩
def tx0 : CanTx := { frame := frame0, one := false, handle := 3, deadline := some 0 }
def canNormal : State := { base with clock := { base.clock with core := lockedLoop } }.setPort 0 { mode := 1, fifo := [tx0] }

/-- The DC link in a state; 0x3050.02. -/
def link (st : Nat) : State := base.wr 0x3050 2 dev st

/-- A password is set and the session has unlocked. -/
def unlocked : State := { withNet fun n => { n with unlockBy := some kw, unlockLt := 20000000000000 } with lockbox := { hash := some [1] } }

/-- Every safe output is on. -/
def outsOn : State := withSup fun p => { p with outs := [0, 1, 2, 3].map fun n => (n, { on := true }) }

/-- Channel 383 has a recipe of one rest row that ends after 1 ms, and the metrology link is up. -/
def recipe0 : State := ((base.wr 0x1202 5 dev 1).wr 0x2000 1 383 0x10020000).wr 0x2000 6 383 0x10000

/-- A subscription to the record stream, and a closed batch for it. -/
def sub0 : Subscr := ⟨1, 0, [⟨0x5420, 0, .met, .met⟩], 2, 1⟩
def streaming : State :=
  { withSes { ses with subs := [sub0] } with
    qm := { base.qm with bats := [(1, ⟨1, 1, [1], []⟩)], lastBat := 1 }
    net := { (withSes { ses with subs := [sub0] }).net with gotBat := 1 } }

/-- A sample far ahead. -/
def farSample : QSample := ⟨2 ^ 64, 2 ^ 64, 0, 0, 0, 0, false, {}, {}⟩
def sampled (x : QChan) : QChan := { x with hist := [farSample] }

theorem trim_of {o g : Int} {d : Rat} (ho : o = 0) (hg : g = 1000000) (x : Rat) : trimUv ((o : Rat) / d) (g : Rat) x = x := by
  subst ho; subst hg
  unfold trimUv
  split <;> simp
theorem trim_of' {o g : Int} (ho : o = 0) (hg : g = 1000000) (x : Rat) : trimUv (o : Rat) (g : Rat) x = x := by
  subst ho; subst hg
  unfold trimUv
  split <;> simp
theorem cell_uv {s : State} {c : Nat} (h1 : s.rd 0x2852 1 c = 0) (h2 : s.rd 0x2852 2 c = 1000000) (code : Rat) :
    s.pathUv 0 c code = codeUv (-5500000) 6000000 code := trim_of h1 h2 _
theorem sense_uv {s : State} {c : Nat} (h1 : s.rd 0x2851 (quadOf c + 1) (siteI (dieOf c)) = 0)
    (h2 : s.rd 0x2855 (quadOf c + 1) (siteI (dieOf c)) = 1000000) (code : Rat) :
    s.pathUv 3 c code = codeUv 0 20000000 code := trim_of' h1 h2 _
theorem band_left {s : State} {c : Nat} {v t : Int} (h1 : s.runState c = 2) (h2 : s.slave c = false)
    (h3 : (s.cond c (s.rdN 0x2402 2 c) 1).qty = 2)
    (h4 : meets (s.cond c (s.rdN 0x2402 2 c) 1).cmp v (s32 (s.cond c (s.rdN 0x2402 2 c) 1).thr) = true) : s.leavesBand c v t = true := by
  simp [State.leavesBand, h1, h2, h3, h4]

/-! ## Witnesses behind signatures, hashes and larger octet strings -/

/-- A list of zeros only. -/
def Zeros (l : List Nat) : Prop := ∀ x ∈ l, x = 0

theorem now_eq {α : Type} (n : Nat) (k : Nat → α) : now n k = k n := by cases n <;> rfl

theorem zeros_map {α : Type} {f : α → Nat} (h : ∀ x, f x = 0) (l : List α) : Zeros (mapNow f l) := by
  induction l with
  | nil => simp [mapNow, Zeros]
  | cons x t ih => simpa [mapNow, now_eq, Zeros, h] using ih

theorem zeros_zip {f : Nat → Nat → Nat} (h : ∀ x, f x 0 = 0) : ∀ (s t : List Nat), Zeros t → Zeros (zipNow f s t)
  | x :: s, y :: t, ht => by
    have := zeros_zip h s t (fun v hv => ht v (by simp [hv]))
    simpa [zipNow, now_eq, Zeros, h, ht y (by simp)] using this
  | [], _, _ => by simp [zipNow, Zeros]
  | _ :: _, [], _ => by simp [zipNow, Zeros]

theorem zeros_join {q b : Nat} : ∀ (z l : List Nat), Zeros l → Zeros (nttJoin q b z l)
  | z :: zs, x :: y :: l, hl => by
    have := zeros_join (q := q) (b := b) zs l (fun v hv => hl v (by simp [hv]))
    simpa [nttJoin, now_eq, Zeros, hl x (by simp), hl y (by simp)] using this
  | [], _, _ => by simp [nttJoin, Zeros]
  | _ :: _, [], _ => by simp [nttJoin, Zeros]
  | _ :: _, [_], _ => by simp [nttJoin, Zeros]

theorem zeros_up {q : Nat} : ∀ (w : List Nat) (b : Nat) (t l : List Nat), Zeros l → Zeros (nttUp q w b t l)
  | [], _, _, _, h => h
  | _ :: ws, _, _, _, h => zeros_join _ _ (zeros_up ws _ _ _ h)

theorem zeros_head {l : List Nat} (h : Zeros l) : l.headD 0 = 0 := by
  cases l with
  | nil => rfl
  | cons x t => exact h x (by simp)

theorem inv_zeros {l : List Nat} (h : Zeros l) : dsaInv l = dsaInv [0] := by
  rw [dsaInv, dsaInv, zeros_head (zeros_up _ _ _ _ h), zeros_head (zeros_up _ _ _ [0] (by simp [Zeros]))]

theorem row_zeros (rho : List Byte) (c : List Nat) (i : Nat) :
    dsaRow dsa65 rho (List.replicate 5 (List.replicate 256 0)) c i (List.replicate 256 0) [] = 0 := by
  have hz : Zeros (List.replicate 256 0) := fun x h => List.eq_of_mem_replicate h
  have hm : ∀ l, Zeros (zipNow (fun a v => a * v % dsaQ) l (List.replicate 256 0)) := fun l => zeros_zip (by simp) l _ hz
  have ha : ∀ s t, Zeros s → Zeros t → Zeros (zipNow (fun a v => (a + v) % dsaQ) s t) := by
    intro s
    induction s with
    | nil => simp [zipNow, Zeros]
    | cons x s ih =>
      intro t hs ht
      cases t with
      | nil => simp [zipNow, Zeros]
      | cons y t =>
        have := ih t (fun v hv => hs v (by simp [hv])) (fun v hv => ht v (by simp [hv]))
        simpa [zipNow, now_eq, Zeros, hs x (by simp), ht y (by simp)] using this
  have hn : dsaNtt (mapNow (· * 8192) (List.replicate 256 0)) = List.replicate 256 0 := by decide +kernel
  rw [dsaRow, hn, inv_zeros]
  · decide +kernel
  · refine List.foldlRecOn _ _ (zeros_zip (f := fun c t => (dsaQ - c * t % dsaQ) % dsaQ) (by simp) _ _ hz) ?_
    intro l hl p hp
    refine ha _ _ hl ?_
    rw [List.eq_of_mem_replicate (List.fst_mem_of_mem_zipIdx hp)]; exact hm _

/-- A public key of ML-DSA-65 whose t1 is 0, and the signature with z = 0 and no hints under it, of a commitment hash. -/
def witKey : List Byte := List.replicate 32 1 ++ List.replicate 1920 0
def witTail : List Byte := (List.replicate 640 [0, 0, 8, 0, 0x80]).flatten ++ List.replicate 61 0
def witSig (h : Nat) : List Byte := octets 48 h ++ witTail
def witHash (ctx msg : List Byte) : Nat :=
  shake256 48 (octets 64 (shake256 64 (octets 64 (shake256 64 witKey) ++ 0 :: 4 :: (ctx ++ msg))) ++ List.replicate 768 0)

theorem octets_length (n v : Nat) : (octets n v).length = n := by simp [octets]

theorem verifies {ctx msg : List Byte} {h : Nat} (hc : ctx.length = 4) (hh : witHash ctx msg = h) :
    mldsaVerify witKey ctx msg (witSig h) = true := by
  have hk : witKey.length = dsa65.keyLen := by decide +kernel
  have hl : (octets 48 h).length = 48 := octets_length _ _
  have ht : (witSig h).take 48 = octets 48 h := by rw [witSig, ← hl, List.take_left']; rfl
  have hd : ∀ n, (witSig h).drop (48 + n) = witTail.drop n := by
    intro n; rw [← List.drop_drop, witSig, List.drop_left' hl]
  have hz : dsaPolys 20 5 witTail = List.replicate 5 (List.replicate 256 524288) := by decide +kernel
  have hi : dsaHints dsa65 (witTail.drop 3200) = some (List.replicate 6 []) := by decide +kernel
  have hs : (witSig h).length = 3309 := by rw [witSig, List.length_append, hl]; decide +kernel
  have hw : dsaCommitment dsa65 witKey (octets 64 (shake256 64 (octets 64 (shake256 64 witKey) ++ 0 :: 4 :: (ctx ++ msg))))
      (octets 48 h) (List.replicate 5 (List.replicate 256 524288)) (List.replicate 6 []) = octets 48 h := by
    have hp : dsaPolys 10 6 (witKey.drop 32) = List.replicate 6 (List.replicate 256 0) := by decide +kernel
    have h0 : octets 128 0 = List.replicate 128 0 := by decide +kernel
    have hn : dsaNtt (mapNow (fun x => (dsa65.gamma1 + dsaQ - x) % dsaQ) (List.replicate 256 524288)) = List.replicate 256 0 := by
      decide +kernel
    rw [dsaCommitment]
    have hr : dsa65.rows = 6 := rfl
    have hl : dsa65.hashLen = 48 := rfl
    have hb : 32 * dsa65.wBits = 128 := rfl
    rw [hr, hl, hb, hp, List.map_replicate, hn]
    have hq : (((List.replicate 6 (List.replicate 256 0)).zip (List.replicate 6 ([] : List Nat))).zipIdx.map fun p =>
        octets 128 (dsaRow dsa65 (witKey.take 32) (List.replicate 5 (List.replicate 256 0)) (dsaNtt (dsaChallenge dsa65 (octets 48 h)))
          p.2 p.1.1 p.1.2)).flatten = List.replicate 768 0 := by
      rw [List.zip_replicate', List.map_congr_left (g := fun _ => List.replicate 128 0)]
      · decide +kernel
      · intro p hp
        rw [List.eq_of_mem_replicate (List.fst_mem_of_mem_zipIdx hp), row_zeros, h0]
    rw [hq, ← hh, witHash]
  rw [mldsaVerify, if_pos hk, dsaVerify]
  have e1 : dsa65.hashLen = 48 := rfl
  have e3 : dsa65.zBits = 20 := rfl
  have e4 : dsa65.cols = 5 := rfl
  have e5 : dsa65.sigLen = 3309 := rfl
  have h0 : (witSig h).drop 48 = witTail := hd 0
  simp only [e1, e3, e4, e5, hd, hi, ht, h0, hz, hs, hc]
  rw [show BitVec.ofNat 8 4 = (4 : Byte) from rfl, hw, beq_self_eq_true (octets 48 h), Bool.and_true]
  decide +kernel

theorem sig_length (h : Nat) : (witSig h).length = 3309 := by
  rw [witSig, List.length_append, octets_length]; decide +kernel
/-- A token of a kind with a body, to a device whose metrology key is all zeros. -/
def zeroKey : List Byte := List.replicate 1952 0
def token (kind : Nat) (body sig : List Byte) : Token := ⟨kind, 0, body.length, 5, 0, keyId zeroKey, body, witKey, sig⟩
def hubHead : List Byte := imageCtx ++ [1, 1, 1, 0] ++ leNat 4 4096 ++ List.replicate 28 0 ++ leNat 4 4096 ++ leNat 4 0 ++
  sha3 (List.replicate 4096 0) ++ sha3 (List.replicate 4096 0) ++ List.replicate 144 0
def userHead : List Byte := imageCtx ++ [1, 4, 1, 1] ++ leNat 4 1 ++ List.replicate 36 0 ++ sha3 [0] ++ List.replicate 176 0
def witSig0 : List Byte := witSig (witHash metCtx (tokenSigned (token 1 [60, 0, 0, 0] [])))
def witSig1 : List Byte := witSig (witHash metCtx (tokenSigned (token 2 [] [])))
def witSig2 : List Byte := witSig (witHash metCtx (tokenSigned (token 3 [1, 0, 0, 0] [])))
def witSig3 : List Byte := witSig (witHash metCtx (tokenSigned (token 4 ([0, 2] ++ List.replicate 18 0) [])))
def witSig4 : List Byte := witSig (witHash metCtx (tokenSigned (token 5 (List.replicate 36 0) [])))
def witSig5 : List Byte := witSig (witHash metCtx (tokenSigned (token 6 ([1] ++ List.replicate 35 0) [])))
def witSig6 : List Byte := witSig 0xd161949ff2fec1eae9e00d5ad016b8fe8b184912d05c6d25d555049acd7aa32122512efdb7ffccb9efe77dff13705114
theorem verified6 : mldsaVerify witKey imageCtx (hubHead ++ witKey) witSig6 = true := verifies rfl (by decide +kernel)
def witSig7 : List Byte := witSig 0x8aed5b5082ca1fa05b4fd0e28381bad9ccd2281eb5d88598735f70663a410d22e43e3a6827cb935bec133dadd0bef366
theorem verified7 : mldsaVerify witKey imageCtx (userHead ++ witKey) witSig7 = true := verifies rfl (by decide +kernel)
def witSig8 : List Byte := witSig 0x286b18cc8ebe30c7bf2858c6fc71da94726e43cbe52527c56b89726768ee9e3e1ba668d1d69546924c18a31897b66189
theorem verified8 : mldsaVerify witKey debugCtx (List.replicate 24 0) witSig8 = true := verifies rfl (by decide +kernel)
def witSig9 : List Byte := witSig 0x22be6bbe7a2a7bfbe128a1333f713a8ce072aba855512f9d7b2f9382e633b709cb51c31b8979188a2658fc2566e95ede
theorem verified9 : mldsaVerify witKey keywayCtx (sha3 witKey) witSig9 = true := verifies rfl (by decide +kernel)

def tokenState (f : Qm → Qm) : State :=
  { (withQm fun q => f { q with nonce := some 5, sealSt := 2, adjLevel := true, adjUntil := none, keys := [(0, sha3 witKey)] }) with
    part := [(12, [])] }
theorem token_fits {s : State} {x : Token} (hv : mldsaVerify x.pubKey metCtx (tokenSigned x) x.sig = true)
    (h1 : bodyLenOf x.kind = some x.bodyLen) (hb : x.body.length = x.bodyLen) (hk : x.pubKey.length = 1952) (h0 : x.sig.length = 3309)
    (hs : x.slot = 0)
    (h : s.authority 0 = some (sha3 x.pubKey) ∧ x.keyId = keyId s.metKey ∧ x.nonce = s.metNonce ∧ x.evCount = s.qm.evCount ∧
      s.admits x.kind = true ∧ s.auditFull = false ∧ s.expiryNow = false ∧ s.bodyCheck x = 0) : s.tokenStatus x = 0 := by
  obtain ⟨h6, hm, h2, h3, h4, h5, h7, h8⟩ := h
  have : s.tokenCheck x = 0 := by
    simp [State.tokenCheck, h1, hb, hk, h0, hs, h6, hv, h2, h3, hm, h4, h5]
  rw [State.tokenStatus, this, h7]; exact h8
theorem wit_key : witKey.length = 1952 := by decide +kernel
theorem witness_enter_token : ∃ (x : Token) (u : State) (s : State), s.qmUp = true ∧ s.flushMail = u ∧ u.tokenStatus { x with kind := 1 } = 0 :=
  ⟨token 1 [60, 0, 0, 0] witSig0, (tokenState (fun q => { q with sealSt := 1 })), (tokenState (fun q => { q with sealSt := 1 })), by decide +kernel, rfl,
    token_fits (x := token 1 [60, 0, 0, 0] witSig0) (verifies rfl rfl) rfl rfl wit_key (by decide +kernel) rfl
      ⟨rfl, congrArg keyId (by decide +kernel), by decide +kernel⟩⟩
theorem witness_leave_token : ∃ (x : Token) (u : State) (s : State), s.qmUp = true ∧ s.flushMail = u ∧ u.tokenStatus { x with kind := 2 } = 0 :=
  ⟨token 2 [] witSig1, (tokenState id), (tokenState id), by decide +kernel, rfl,
    token_fits (x := token 2 [] witSig1) (verifies rfl rfl) rfl rfl wit_key (by decide +kernel) rfl
      ⟨rfl, congrArg keyId (by decide +kernel), by decide +kernel⟩⟩
theorem witness_audit_acknowledge : ∃ (x : Token) (u : State) (s : State), s.qmUp = true ∧ s.flushMail = u ∧ u.tokenStatus { x with kind := 3 } = 0 :=
  ⟨token 3 [1, 0, 0, 0] witSig2, (tokenState (fun q => { q with auditNext := 5 })), (tokenState (fun q => { q with auditNext := 5 })), by decide +kernel, rfl,
    token_fits (x := token 3 [1, 0, 0, 0] witSig2) (verifies rfl rfl) rfl rfl wit_key (by decide +kernel) rfl
      ⟨rfl, congrArg keyId (by decide +kernel), by decide +kernel⟩⟩
theorem witness_calibration_write : ∃ (x : Token) (u : State) (s : State), s.qmUp = true ∧ s.flushMail = u ∧ u.tokenStatus { x with kind := 4 } = 0 :=
  ⟨token 4 ([0, 2] ++ List.replicate 18 0) witSig3, (tokenState id), (tokenState id), by decide +kernel, rfl,
    token_fits (x := token 4 ([0, 2] ++ List.replicate 18 0) witSig3) (verifies rfl rfl) rfl rfl wit_key (by decide +kernel) rfl
      ⟨rfl, congrArg keyId (by decide +kernel), by decide +kernel⟩⟩
theorem witness_authority_key_set : ∃ (x : Token) (u : State) (s : State), s.qmUp = true ∧ s.flushMail = u ∧ u.tokenStatus { x with kind := 5 } = 0 :=
  ⟨token 5 (List.replicate 36 0) witSig4, (tokenState id), (tokenState id), by decide +kernel, rfl,
    token_fits (x := token 5 (List.replicate 36 0) witSig4) (verifies rfl rfl) rfl rfl wit_key (by decide +kernel) rfl
      ⟨rfl, congrArg keyId (by decide +kernel), by decide +kernel⟩⟩
theorem witness_software_announce : ∃ (x : Token) (u : State) (s : State), s.qmUp = true ∧ s.flushMail = u ∧ u.tokenStatus { x with kind := 6 } = 0 :=
  ⟨token 6 ([1] ++ List.replicate 35 0) witSig5, (tokenState id), (tokenState id), by decide +kernel, rfl,
    token_fits (x := token 6 ([1] ++ List.replicate 35 0) witSig5) (verifies rfl rfl) rfl rfl wit_key (by decide +kernel) rfl
      ⟨rfl, congrArg keyId (by decide +kernel), by decide +kernel⟩⟩

theorem signed {s : State} {ty : Nat} {b h k g : List Byte} (h1 : s.rootHash ty (imgRoot b) = some (sha3 k))
    (h2 : imgKey b = k) (h3 : b.take 256 = h) (h4 : imgSig b = g) (hv : mldsaVerify k imageCtx (h ++ k) g = true)
    (h5 : (imgRollback b < s.counterOf ty ∨ 64 < imgRollback b) = False) : s.signerCheck ty b = 0 := by
  rw [State.signerCheck, h2, h3, h4, h1, hv]
  simp [h5]
def hubImage : List Byte := hubHead ++ witKey ++ witSig6 ++ List.replicate 4096 0
def atReset : State :=
  { State.reset with vsys := true, part := [(10, sha3 witKey)], sec := { State.reset.sec with slots := [(0, ⟨9613, [(0, hubImage)]⟩)] } }
theorem witness_boot_rom_check : ∃ s : State, s.vsys = true ∧ s.fw = false ∧ s.sec.booted = false ∧ s.sec.dead = false ∧
    s.bootCheck (s.slotBytes (slotNo 1 (s.preferred 1))) = 0 := by
  refine ⟨atReset, by decide +kernel, by decide +kernel, by decide +kernel, by decide +kernel, ?_⟩
  rw [show atReset.slotBytes (slotNo 1 (atReset.preferred 1)) = hubImage from by decide +kernel]
  have h := signed (s := atReset) (ty := 1) (b := hubImage) (k := witKey) (g := witSig6) (by decide +kernel) (by decide +kernel) (h := hubHead) (by decide +kernel) (by decide +kernel)
    verified6 (by decide +kernel)
  rw [State.bootCheck, h, show imageHeaderOk 1 hubImage = true from by decide +kernel, show firstSectionOk hubImage = true from by decide +kernel]
  rfl
theorem witness_resident_firmware_start : ∃ s : State, s.vsys = true ∧ s.fw = false ∧ s.sec.booted = true ∧
    payloadOk (s.slotBytes (slotNo 1 (s.sec.runSlot.getD 0 0))) = true :=
  ⟨{ atReset with sec := { atReset.sec with booted := true } }, by decide +kernel, by decide +kernel, by decide +kernel, by decide +kernel⟩

theorem firstBad_own {l : List Nat} {cs : List Check'} {f : Nat → Nat} (h : firstBad l cs = none) (hf : ∀ e ∈ l, f e = 0) :
    firstBad l (cs ++ [⟨none, f⟩]) = none := by
  unfold firstBad at *
  simp only [List.findSome?_eq_none_iff, Option.map_eq_none_iff, List.find?_eq_none] at *
  intro st hst e he c hc
  rcases List.mem_append.1 hc with hc | hc
  · exact h st hst e he c hc
  · simp only [List.mem_singleton] at hc
    subst hc
    simp [Check'.failsAt, hf e he]
theorem accepts_own {s : State} {src : Src} {i j e : Nat} {v : Int} {own : State → Nat → Nat}
    (h : ((s.clearOut.reached src && s.clearOut.serves src) && ((s.atRequest src).writeChecks src i j [e] v fun _ _ => 0).isNone) = true)
    (ho : own (s.atRequest src) e = 0) : s.Accepts src i j [e] v own := by
  simp only [Bool.and_eq_true, Option.isNone_iff_eq_none] at h
  refine ⟨⟨h.1.1, h.1.2⟩, ?_⟩
  have := h.2
  unfold State.writeChecks at this ⊢
  refine firstBad_own (cs := [_, _, _, _]) ?_ (by simpa using ho)
  unfold firstBad at this ⊢
  simp only [List.findSome?_eq_none_iff, Option.map_eq_none_iff, List.find?_eq_none] at *
  intro st hst e he c hc
  exact this st hst e he c (List.mem_append_left [_] hc)
theorem blobChecks_own {s : State} {src : Src} {i j e : Nat} {b : List Byte} {own : State → Nat → Nat}
    (h : (s.blobChecks src i j [e] b fun _ _ => 0).isNone = true)
    (ho : own s e = 0) : s.blobChecks src i j [e] b own = none := by
  have := Option.isNone_iff_eq_none.1 h
  unfold State.blobChecks at this ⊢
  refine firstBad_own (cs := [_, _, _, _]) ?_ (by simpa using ho)
  unfold firstBad at this ⊢
  simp only [List.findSome?_eq_none_iff, Option.map_eq_none_iff, List.find?_eq_none] at *
  intro st hst e he c hc
  exact this st hst e he c (List.mem_append_left [_] hc)
theorem acceptsBlob_own {s : State} {src : Src} {i j e : Nat} {b : List Byte} {own : State → Nat → Nat}
    (h : ((s.clearOut.reached src && s.clearOut.serves src) && ((s.atRequest src).blobChecks src i j [e] b fun _ _ => 0).isNone) = true)
    (ho : own (s.atRequest src) e = 0) : s.AcceptsBlob src i j [e] b own := by
  simp only [Bool.and_eq_true] at h
  exact ⟨⟨h.1.1, h.1.2⟩, blobChecks_own h.2 ho⟩

def passworded : State := { base with lockbox := { hash := some (sha3 [112]) } }
theorem witness_unlock : ∃ (src : Src) (pw : List Byte) (s : State),
    s.AcceptsBlob src 0x40F0 1 [dev] pw (fun u e => unlockCheck pw u e) ∧ s.blobChecks src 0x40F0 1 [dev] pw (unlockCheck pw) = none :=
  ⟨kw, [112], passworded, acceptsBlob_of (by decide +kernel), by decide +kernel⟩
theorem witness_password_change : ∃ (src : Src) (b : List Byte) (s : State),
    s.AcceptsBlob src 0x40F0 2 [dev] b (fun u e => passwordCheck b u e) ∧ s.blobChecks src 0x40F0 2 [dev] b (passwordCheck b) = none :=
  ⟨kw, [0, 8, 97, 97, 97, 97, 97, 97, 97, 97], base, acceptsBlob_of (by decide +kernel), by decide +kernel⟩

def shake0 : Handshake := ⟨0, 1, 1, [], [], 20000000000000⟩
def shaking : State := withNet fun n => { n with shakes := [shake0] }
theorem witness_session_open_stage3 : ∃ (id seq : Nat) (key sig : List Byte) (x : Handshake) (s : State),
      (s.net.shakes.find? fun x => x.id == id && x.seq == seq) = some x ∧ s.reached (.keyway id seq) = true ∧ key.length = 1952 ∧ sig.length = 3309 ∧
      s.stage3Code x key sig = aDone := by
  refine ⟨0, 1, witKey, witSig9, shake0, shaking, by decide +kernel, by decide +kernel, by decide +kernel, by decide +kernel, ?_⟩
  rw [State.stage3Code, show shaking.slotOf witKey = some 0 from by decide +kernel, show shake0.t2 = [] from rfl, List.nil_append, verified9,
    show shaking.sessionsFull = false from by decide +kernel]
  rfl

def userImage : List Byte := userHead ++ witKey ++ witSig7 ++ [0]
def userReady : State :=
  { ((base.wr 0x7035 5 dev 1).wrB 0x7020 1 dev (sha3 witKey)) with sec := { base.sec with slots := [(4, ⟨5518, [(0, userImage)]⟩)] } }
theorem witness_partition_start : ∃ (src : Src) (s : State), s.Accepts src 0x7050 1 [dev] 1 (partitionCheck 1) := by
  refine ⟨kw, userReady, accepts_own (by decide +kernel) ?_⟩
  have h := signed (s := userReady.atRequest kw) (ty := 4) (b := userImage) (k := witKey) (g := witSig7) (by decide +kernel) (by decide +kernel) (h := userHead) (by decide +kernel)
    (by decide +kernel) verified7 (by decide +kernel)
  have h5 : (userReady.atRequest kw).preferredBytes 3 = userImage := by decide +kernel
  have h9 : (userReady.atRequest kw).rd 0x7050 3 dev = 0 := by decide +kernel
  have h10 : (userReady.atRequest kw).slotState 3 ((userReady.atRequest kw).preferred 3) = 1 := by decide +kernel
  have hp : payloadOk userImage = true := by decide +kernel
  have hh : imageHeaderOk 4 userImage = true := by decide +kernel
  have h7 : imgStep userImage = 0 := by decide +kernel
  simp [partitionCheck, partStartCheck, h5, State.imageCheck, h, h9, h10, hp, hh, h7, aDone]
def debugReady : State := { (base.wrB 0x7020 1 dev (sha3 witKey)) with sealedPart := false, part := [(0, [])] }
theorem witness_debug_token : ∃ (src : Src) (root : Nat) (key sig : List Byte) (s : State),
      s.AcceptsBlob src 0x7060 2 [dev] (leNat 4 root ++ key ++ sig) (debugCheck root key sig) := by
  refine ⟨kw, 1, witKey, witSig8, debugReady, acceptsBlob_own (by decide +kernel) ?_⟩
  have h1 : (debugReady.atRequest kw).rootHash 4 1 = some (sha3 witKey) := by decide +kernel
  have h2 : (debugReady.atRequest kw).sealedPart = false := by decide +kernel
  have h3 : (leNat 8 ((debugReady.atRequest kw).rdN 0x7060 1 dev) ++ (debugReady.atRequest kw).serialNo) = List.replicate 24 0 := by decide +kernel
  have h4 : witKey.length = 1952 := by decide +kernel
  have h5 : witSig8.length = 3309 := by decide +kernel
  unfold debugCheck
  rw [h1, h2, h3, h4, h5, verified8]
  simp [keyLen, sigLen, aDone]

theorem accepts_own' {s : State} {src : Src} {i j e : Nat} {v : Int} {own : State → Nat → Nat}
    (h : (s.clearOut.reached src && s.clearOut.serves src) = true)
    (hc : firstBad [e] [⟨some 3, (s.atRequest src).instCheck i⟩, ⟨some 4, existCheck i j⟩, ⟨none, (s.atRequest src).accessCheck src i j⟩] = none)
    (hr : rangeCheck i j e v = 0) (ho : own (s.atRequest src) e = 0) : s.Accepts src i j [e] v own := by
  simp only [Bool.and_eq_true] at h
  refine ⟨⟨h.1, h.2⟩, ?_⟩
  exact firstBad_own (cs := [_, _, _, _]) (firstBad_own (cs := [_, _, _]) hc (by simpa using hr)) (by simpa using ho)
theorem witness_apply : ∃ (src : Src) (crc : Nat) (s : State), s.Accepts src 0x40F0 4 [dev] crc (applyCheck src crc) := by
  refine ⟨kw, (unlocked.atRequest kw).pendingCrc, unlocked, accepts_own' (by decide +kernel) (by decide +kernel) ?_ ?_⟩
  · have h : ∀ v : Int, 0 ≤ v → v < 4294967296 → rangeCheck 0x40F0 4 dev v = 0 := by
      intro v h0 h1
      obtain ⟨r, hr, hl, hh, hx⟩ : ∃ r, findRow ⟨0x40F0, 4, dev⟩ = some r ∧ r.lo = 0 ∧ r.hi = 4294967295 ∧ r.also = none :=
        ⟨_, rfl, by decide +kernel, by decide +kernel, by decide +kernel⟩
      simp [rangeCheck, hr, Row.accepts, hl, hh, hx, aDone]
      omega
    exact h _ (Int.natCast_nonneg _) (by
      rw [State.pendingCrc, State.configCrc, crc32]
      have := (~~~ (List.foldl crc32Byte 0xFFFFFFFF#32 (List.flatMap (fun x => leInt x.2 ((unlocked.atRequest kw).overlaid (unlocked.atRequest kw).lockbox.pending x.1)) (unlocked.atRequest kw).configAddrs))).isLt
      exact Int.ofNat_lt.2 this)
  · have h1 : (unlocked.atRequest kw).rwpAccess kw = aDone := by decide +kernel
    have h2 : inputsOk (fun k => (unlocked.atRequest kw).pendingAt 0x4001 (k + 1)) (fun k => (unlocked.atRequest kw).pendingAt 0x4002 (k + 1)) = true := by decide +kernel
    have h3 : (unlocked.atRequest kw).applyIdle = true := by decide +kernel
    rw [applyCheck, h1, h2, h3]
    simp only [ne_eq, not_true_eq_false, Bool.not_true, Bool.false_eq_true, if_false]
    rfl

theorem hub_uv {s : State} {u p code : Nat} (h1 : s.rd 0x3021 (16 * u + p + 1) dev = 0) (h2 : s.rd 0x3022 (16 * u + p + 1) dev = 1000000) :
    s.diagUv 0 u p code = codeUv 0 3000000 code := by
  unfold State.diagUv State.pinUv
  rw [if_pos rfl]
  exact trim_of' h1 h2 _
def dacResults (f : Nat → Nat) : List (Nat × Nat × Nat) :=
  (List.range 16).flatMap fun p => dacCodes.map fun c => (p, c, f (c * 65535 / 4096))
def diagnosing : State := base.setAdc 0 3 { (base.adc 0 3) with diagUntil := some 1 }
theorem diag_trims : ∀ p < 16, diagnosing.rd 0x3021 (16 * 3 + p + 1) dev = 0 ∧ diagnosing.rd 0x3022 (16 * 3 + p + 1) dev = 1000000 := by
  decide +kernel
theorem diag_cases : ∀ x ∈ diagCases 0 3, x.1 < 16 ∧ x.2 ∈ dacCodes := by decide +kernel
theorem dac_result : ∀ p < 16, ∀ c ∈ dacCodes, resultAt (dacResults id) (p, c) = some (c * 65535 / 4096) := by decide +kernel
theorem dac_close : ∀ c ∈ dacCodes, ¬ 4 * ((3000000 - 0) / 4096 : Rat) <
    max (codeUv 0 3000000 (c * 65535 / 4096 : Nat) - (0 + c * ((3000000 - 0) / 4096)))
      (-(codeUv 0 3000000 (c * 65535 / 4096 : Nat) - (0 + c * ((3000000 - 0) / 4096)))) := by
  unfold codeUv dacCodes
  simp only [List.mem_cons, List.not_mem_nil, or_false]
  rintro c (rfl | rfl | rfl) <;> norm_num
theorem bad_eq {l : List (Nat × Nat × Nat)} {x : Nat × Nat} {code : Nat} (h : x.1 < 16) (hr : resultAt l x = some code) :
    diagnosing.badResult 0 3 l x = decide (4 * ((3000000 - 0) / 4096 : Rat) <
      max (codeUv 0 3000000 code - (0 + x.2 * ((3000000 - 0) / 4096))) (-(codeUv 0 3000000 code - (0 + x.2 * ((3000000 - 0) / 4096))))) := by
  rw [State.badResult, hr, Option.any_some, hub_uv (diag_trims x.1 h).1 (diag_trims x.1 h).2]
  rfl
theorem witness_path_diagnosis_result : ∃ (die u d : Nat) (results : List (Nat × Nat × Nat)) (s : State), u < unitCount die ∧
    (s.adc die u).diagUntil = some d ∧ d ≤ s.lt ∧ (diagCases die u).all (fun c => (resultAt results c).isSome) = true ∧
    (diagCases die u).find? (s.badResult die u results) = none := by
  refine ⟨0, 3, 1, dacResults id, diagnosing, by decide +kernel, by decide +kernel, by decide +kernel, by decide +kernel, ?_⟩
  rw [List.find?_eq_none]
  intro x hx
  obtain ⟨h1, h2⟩ := diag_cases x hx
  rw [bad_eq h1 (dac_result x.1 h1 x.2 h2), decide_eq_true_eq]
  exact dac_close x.2 h2
theorem witness_path_diagnosis_result_1 : ∃ (die u d : Nat) (r : Nat × Nat) (results : List (Nat × Nat × Nat)) (s : State), u < unitCount die ∧
    (s.adc die u).diagUntil = some d ∧ d ≤ s.lt ∧ (diagCases die u).all (fun c => (resultAt results c).isSome) = true ∧
    (diagCases die u).find? (s.badResult die u results) = some r := by
  refine ⟨0, 3, 1, (0, 410), dacResults (· + 3000), diagnosing, by decide +kernel, by decide +kernel, by decide +kernel, by decide +kernel, ?_⟩
  rw [show diagCases 0 3 = (0, 410) :: (diagCases 0 3).tail from by decide +kernel, List.find?_cons_of_pos]
  rw [bad_eq (x := (0, 410)) (by decide) (show resultAt (dacResults (· + 3000)) (0, 410) = some 9559 from by decide +kernel), decide_eq_true_eq]
  unfold codeUv
  norm_num

/-! ## Witnesses of the statements -/

/-- Every clause of PowerOnAndWholeDeviceResets has a state and operands that meet its premises. -/
theorem witness_PowerOnAndWholeDeviceResets :
    (∃ (mv : List Nat) (s : State), s.vsys = false) ∧
    (∃ (s : State), s.vsys = true) ∧
    (∃ (v : Nat) (s : State), s.qm.powered = false) ∧
    (∃ (s : State), s.qm.powered = true) ∧
    (∃ (s : State), s.qmUp = true) ∧
    (∃ (s : State), s.qm.powered = true ∧ s.qm.booted = false) ∧
    (∃ (n : Nat) (framed : Bool) (s : State), s.qmUp = true ∧ 1 ≤ n ∧ n ≤ 6 ∧ bit s.qm.sites n = false ∧ ((∀ t,
        lookup? n s.qm.probes = some t → t + 1000000000 ≤ s.mclkNow))) ∧
    (∃ (lowNs : Nat) (s : State), s.vsys = true ∧ 1000 ≤ lowNs) ∧
    (∃ (s : State), s.vsys = true) ∧
    (∃ (src : Src) (v : Nat) (s : State), s.Accepts src 0x1203 1 [dev] v (fun _ _ => aDone)) :=
  ⟨⟨[], State.reset, by decide +kernel⟩,
    ⟨base, by decide +kernel⟩,
    ⟨3300, State.reset, by decide +kernel⟩,
    ⟨base, by decide +kernel⟩,
    ⟨base, by decide +kernel⟩,
    ⟨(withQm fun q => { q with booted := false }), by decide +kernel⟩,
    ⟨6, true, (withQm fun q => { q with sites := 0 }), by decide +kernel, by decide +kernel, by decide +kernel,
        by decide +kernel, fun t h => nomatch (show (none : Option Nat) = some t from h)⟩,
    ⟨1000, base, by decide +kernel⟩,
    ⟨base, by decide +kernel⟩,
    ⟨kw, 165, base, accepts_of (by decide +kernel)⟩⟩

/-- Every clause of SiteResetsAndStart has a state and operands that meet its premises. -/
theorem witness_SiteResetsAndStart :
    (∃ (src : Src) (mask : Nat) (s : State), s.Accepts src 0x1203 2 [dev] mask (siteResetCheck mask) ∧
        s.resetReq = {}) ∧
    (∃ (src : Src) (mask : Nat) (s : State), s.Accepts src 0x1203 3 [dev] mask (fun _ _ => aDone) ∧ s.resetReq = {}) ∧
    (∃ (n : Nat) (bad : List (Nat × Nat)) (s : State), s.vsys = true ∧ s.sitePop n = true ∧ (s.die n).scrub = true) ∧
    (∃ (n : Nat) (s : State), s.fw = true ∧ s.sitePop n = true ∧ s.rd 0x1200 1 (siteI n) = 5 ∧
        (s.die n).trained = false) ∧
    (∃ (n : Nat) (s : State), s.fw = true ∧ s.sitePop n = true ∧ s.rd 0x1200 1 (siteI n) = 5 ∧
        (s.die n).trained = false ∧ 2 ≤ (s.die n).attempts) ∧
    (∃ (n : Nat) (s : State), s.fw = true ∧ s.sitePop n = true ∧ s.rd 0x1200 1 (siteI n) = 5 ∧
        (s.die n).trained = true ∧ (s.die n).loop.state = 2) ∧
    (∃ (n : Nat) (s : State), s.armable n = true ∧ s.supRuns = true ∧ s.rd 0x2800 4 (siteI n) = 0 ∧
        (s.die n).echoAt = none) :=
  ⟨⟨kw, 64, base, accepts_of (by decide +kernel), rfl⟩,
    ⟨kw, 65, base, accepts_of (by decide +kernel), rfl⟩,
    ⟨6, [(63, 1023)], (base.setDie 6 { scrub := true }), by decide +kernel⟩,
    ⟨6, (base.wr 0x1200 1 (siteI 6) 5), by decide +kernel⟩,
    ⟨6, ((base.wr 0x1200 1 (siteI 6) 5).setDie 6 { attempts := 2 }), by decide +kernel⟩,
    ⟨6, ((base.wr 0x1200 1 (siteI 6) 5).setDie 6 { trained := true, loop := { state := 2 } }), by decide +kernel⟩,
    ⟨6, ({ base.wr 0x2800 3 (siteI 6) 0 with banks := put base.banks 7 { cls := 1 } }), by decide +kernel⟩⟩

/-- Every clause of LinkSupervision has a state and operands that meet its premises. -/
theorem witness_LinkSupervision :
    (∃ (n e : Nat) (s : State), (s.die n).echoAt = some e ∧ e ≤ s.lt) ∧
    (∃ (n : Nat) (dir : Dir) (later : List FlitKind) (line : List Flit) (s : State), s.linkOk n dir = true ∧
        ((s.die n).link dir).resend ++ (leave later ((s.die n).link dir).queue).1 = line ∧ line ≠ [] ∧
        line.length ≤ 64 ∧ ((s.die n).link dir).replay.retries < 3) ∧
    (∃ (n good : Nat) (dir : Dir) (later : List FlitKind) (line : List Flit) (s : State), s.linkOk n dir = true ∧
        ((s.die n).link dir).resend ++ (leave later ((s.die n).link dir).queue).1 = line ∧ 0 < good ∧
        good < line.length ∧ line.length ≤ good + 64) ∧
    (∃ (n : Nat) (dir : Dir) (s : State), s.linkOk n dir = true ∧
        ((((s.die n).link dir).replay.retries = 3 ∨ ((s.die n).link dir).again.retries = 3))) ∧
    (∃ (n : Nat) (dir : Dir) (s : State), s.linkOk n dir = true) ∧
    (∃ (n : Nat) (dir : Dir) (s : State), s.linkOk n dir = true ∧ s.beatLate n = false) ∧
    (∃ (n : Nat) (s : State), s.linkUp n = true ∧ s.beatLate n = true) ∧
    (∃ (n : Nat) (core : Bool) (s : State), s.linkUp n = true ∧
        ((s.losable n = true ∨ s.rd 0x1200 1 (siteI n) = 7)) ∧ (s.die n).wdog = false ∧ (s.die n).halted = false ∧
        ((core = true ∨ (s.die n).hbDie + 32000 ≤ s.clock.cnt))) ∧
    (∃ (n r : Nat) (s : State), s.fw = true ∧ s.sitePop n = true ∧ n ≤ 6 ∧ s.rd 0x1200 1 (siteI n) = 7 ∧
        s.rd 0x6020 1 dev = 1 ∧ (s.die n).recoverAt = some r ∧ r ≤ s.lt) ∧
    (∃ (s : State), s.fw = true ∧ s.rd 0x1202 5 dev = 1 ∧ s.lastMet + 500000000 ≤ s.lt) ∧
    (∃ (n : Nat) (s : State), s.qmUp = true ∧ s.framed n = true) ∧
    (∃ (n : Nat) (s : State), s.qmUp = true ∧ bit s.qm.sites n = true ∧ bit s.qm.lost n = true) :=
  ⟨⟨6, 20000000000000, (base.setDie 6 { echoAt := some 20000000000000 }), by decide +kernel⟩,
    ⟨6, .toHub, [.beat], [.other, .beat], (base.setDie 6 { up := { resend := [.other], replay := { retries := 2 } } }),
        by decide +kernel⟩,
    ⟨6, 1, .toHub, [.beat], [.other, .beat], (base.setDie 6 { up := { resend := [.other], replay := { retries := 2 } } }),
        by decide +kernel⟩,
    ⟨6, .toHub, (base.setDie 6 { up := { replay := { retries := 3 } } }), by decide +kernel⟩,
    ⟨6, .toDie, base, by decide +kernel⟩,
    ⟨6, .toHub, (base.setDie 6 { hbHub := 6399999984001 }), by decide +kernel⟩,
    ⟨6, (base.setDie 6 { hbHub := 6399999984000 }), by decide +kernel⟩,
    ⟨6, false, (base.setDie 6 { hbDie := 6399999968000 }), by decide +kernel⟩,
    ⟨6, 20000000000000, (((base.wr 0x1200 1 (siteI 6) 7).wr 0x6020 1 dev 1).setDie 6 { recoverAt := some 20000000000000 }),
        by decide +kernel⟩,
    ⟨({ (base.wr 0x1202 5 dev 1) with lastMet := 19999500000000 }), by decide +kernel⟩,
    ⟨6, base, by decide +kernel⟩,
    ⟨6, (withQm fun q => { q with lost := 64 }), by decide +kernel⟩⟩

/-- Every clause of HubLatchFrames has a state and operands that meet its premises. -/
theorem witness_HubLatchFrames :
    (∃ (n : Nat) (a b w : Frame64) (s : State), s.GetsFrame n .toDie 0x01 a b w) ∧
    (∃ (n : Nat) (a b w : Frame64) (s : State), s.GetsFrame n .toDie 0x02 a b w) ∧
    (∃ (n : Nat) (a b w : Frame64) (s : State), s.GetsFrame n .toDie 0x03 a b w) ∧
    (∃ (n : Nat) (a b w : Frame64) (s : State), s.GetsFrame n .toDie 0x04 a b w) ∧
    (∃ (n : Nat) (a b w : Frame64) (s : State), s.GetsFrame n .toDie 0x05 a b w) ∧
    (∃ (n : Nat) (a b w : Frame64) (s : State), s.GetsFrame n .toDie 0x06 a b w) ∧
    (∃ (n : Nat) (a b w : Frame64) (s : State), s.GetsFrame n .toDie 0x07 a b w) ∧
    (∃ (n : Nat) (a b w : Frame64) (s : State), s.GetsFrame n .toDie 0x08 a b w) :=
  ⟨⟨6, (frameWord 6 0x01 127 5), 0, (frameWord 6 0x01 127 5), base, ⟨by decide +kernel, by decide +kernel,
        by decide +kernel, by decide +kernel⟩⟩,
    ⟨6, (frameWord 6 0x02 127 5), 0, (frameWord 6 0x02 127 5), base, ⟨by decide +kernel, by decide +kernel,
        by decide +kernel, by decide +kernel⟩⟩,
    ⟨6, (frameWord 6 0x03 127 5), 0, (frameWord 6 0x03 127 5), base, ⟨by decide +kernel, by decide +kernel,
        by decide +kernel, by decide +kernel⟩⟩,
    ⟨6, (frameWord 6 0x04 127 5), 0, (frameWord 6 0x04 127 5), base, ⟨by decide +kernel, by decide +kernel,
        by decide +kernel, by decide +kernel⟩⟩,
    ⟨6, (frameWord 6 0x05 127 5), 0, (frameWord 6 0x05 127 5), base, ⟨by decide +kernel, by decide +kernel,
        by decide +kernel, by decide +kernel⟩⟩,
    ⟨6, (frameWord 6 0x06 127 5), 0, (frameWord 6 0x06 127 5), base, ⟨by decide +kernel, by decide +kernel,
        by decide +kernel, by decide +kernel⟩⟩,
    ⟨6, (frameWord 6 0x07 127 5), 0, (frameWord 6 0x07 127 5), base, ⟨by decide +kernel, by decide +kernel,
        by decide +kernel, by decide +kernel⟩⟩,
    ⟨6, (frameWord 6 0x08 127 5), 0, (frameWord 6 0x08 127 5), base, ⟨by decide +kernel, by decide +kernel,
        by decide +kernel, by decide +kernel⟩⟩⟩

/-- Every clause of ReleaseAndDieLatchFrames has a state and operands that meet its premises. -/
theorem witness_ReleaseAndDieLatchFrames :
    (∃ (n : Nat) (a b w : Frame64) (s : State), s.GetsFrame n .toDie 0x09 a b w) ∧
    (∃ (n : Nat) (a b w : Frame64) (s : State), s.GetsFrame n .toDie 0x0A a b w) ∧
    (∃ (n : Nat) (a b w : Frame64) (s : State), s.GetsFrame n .toDie 0x0B a b w ∧
        ((s.die n).link .toHub).others.length < 8) ∧
    (∃ (n : Nat) (a b w : Frame64) (e : Nat) (s : State), s.GetsFrame n .toHub 0x2B a b w ∧
        (s.die n).echoAt = some e ∧ s.lt < e) ∧
    (∃ (n : Nat) (a b w : Frame64) (s : State), s.GetsFrame n .toHub 0x20 a b w) ∧
    (∃ (n : Nat) (a b w : Frame64) (s : State), s.GetsFrame n .toHub 0x21 a b w) ∧
    (∃ (n : Nat) (a b w : Frame64) (s : State), s.GetsFrame n .toHub 0x22 a b w) ∧
    (∃ (n : Nat) (a b w : Frame64) (s : State), s.GetsFrame n .toHub 0x23 a b w) :=
  ⟨⟨6, (frameWord 6 0x09 127 5), 0, (frameWord 6 0x09 127 5), base, ⟨by decide +kernel, by decide +kernel,
        by decide +kernel, by decide +kernel⟩⟩,
    ⟨6, (frameWord 6 0x0A 127 5), 0, (frameWord 6 0x0A 127 5), base, ⟨by decide +kernel, by decide +kernel,
        by decide +kernel, by decide +kernel⟩⟩,
    ⟨6, (frameWord 6 0x0B 127 5), 0, (frameWord 6 0x0B 127 5), base, ⟨by decide +kernel, by decide +kernel,
        by decide +kernel, by decide +kernel⟩, by decide +kernel⟩,
    ⟨6, (frameWord 6 0x2B 127 5), 0, (frameWord 6 0x2B 127 5), 20000000000001,
        (base.setDie 6 { echoAt := some 20000000000001 }), ⟨by decide +kernel, by decide +kernel, by decide +kernel,
        by decide +kernel⟩, by decide +kernel⟩,
    ⟨6, (frameWord 6 0x20 127 5), 0, (frameWord 6 0x20 127 5), base, ⟨by decide +kernel, by decide +kernel,
        by decide +kernel, by decide +kernel⟩⟩,
    ⟨6, (frameWord 6 0x21 127 5), 0, (frameWord 6 0x21 127 5), base, ⟨by decide +kernel, by decide +kernel,
        by decide +kernel, by decide +kernel⟩⟩,
    ⟨6, (frameWord 6 0x22 127 5), 0, (frameWord 6 0x22 127 5), base, ⟨by decide +kernel, by decide +kernel,
        by decide +kernel, by decide +kernel⟩⟩,
    ⟨6, (frameWord 6 0x23 127 5), 0, (frameWord 6 0x23 127 5), base, ⟨by decide +kernel, by decide +kernel,
        by decide +kernel, by decide +kernel⟩⟩⟩

/-- Every clause of TrailAndMailbox has a state and operands that meet its premises. -/
theorem witness_TrailAndMailbox :
    (∃ (n : Nat) (s : State), s.linkOk n .toHub = true ∧ ((s.die n).link .toHub).replay.retries = 0 ∧
        ((s.die n).link .toHub).resend = []) ∧
    (∃ (n : Nat) (e : Stored) (l : List Flit) (s : State), s.linkOk n .toHub = true ∧ s.beatLate n = false ∧
        ((s.die n).link .toHub).resend = .entry e :: l) ∧
    (∃ (s : State), s.trail.armed = some 0) ∧
    (∃ (u : State) (s : State), s.qmUp = true ∧ s.flushMail = u) ∧
    (∃ (i j c : Nat) (u : State) (s : State), s.qmUp = true ∧ s.flushMail = u) ∧
    (∃ (mask : Nat) (u : State) (s : State), s.qmUp = true ∧ s.ahead (.mailboxSubscribe mask) = u) ∧
    (∃ (n : Nat) (u : State) (s : State), s.qmUp = true ∧ s.ahead (.ackRecords n) = u) ∧
    (∃ (c : Nat) (id : List Byte) (u : State) (s : State), s.qmUp = true ∧ s.chanPop c = true ∧ id.length ≤ 24 ∧
        s.ahead (.cellId c id) = u) ∧
    (∃ (c row index mode rate gang origin firstJob loop sub4 sub2 : Nat) (u : State) (s : State), s.qmUp = true ∧
        s.chanPop c = true ∧ s.ahead (.stepStart c row index mode rate gang origin firstJob loop sub4 sub2) = u ∧
        u.holds c gang origin = false) ∧
    (∃ (c next cause endLt : Nat) (u : State) (s : State), s.qmUp = true ∧ s.chanPop c = true ∧
        s.ahead (.stepClose c next cause endLt) = u ∧ (u.qc c).step.isSome = true ∧
        u.holds c (u.qc c).gangSize endLt = false) ∧
    (∃ (offset : Nat) (data : List Byte) (u : State) (s : State), s.qmUp = true ∧ data.length ≤ 8184 ∧
        s.flushMail = u) :=
  ⟨⟨6, (base.setDie 6 { up := { queue := [⟨6, 0, 3, 0x3001, 7, [1], 2, 0⟩] } }), by decide +kernel⟩,
    ⟨6, ⟨6, 0, 3, 0x3001, 7, [1], 2, 0⟩, [.beat],
        (base.setDie 6 { hbHub := 6399999984001, up := { replay := { retries := 1 }, resend := [.entry ⟨6, 0, 3, 0x3001, 7, [1], 2, 0⟩, .beat] } }),
        by decide +kernel⟩,
    ⟨({ base with trail := { armed := some 0 } }), by decide +kernel⟩,
    ⟨base, base, by decide +kernel, rfl⟩,
    ⟨0x5000, 1, 0xFFFF, base, base, by decide +kernel, rfl⟩,
    ⟨63, base, base, by decide +kernel, rfl⟩,
    ⟨0, base, base, by decide +kernel, rfl⟩,
    ⟨383, (List.replicate 24 65), base, base, by decide +kernel, by decide +kernel, by decide +kernel, rfl⟩,
    ⟨383, 0, 1, 1, 0, 1, 5, 6, 16000, 0, 0, (withQm fun q => { q with chans := [(383, sampled {})] }),
        (withQm fun q => { q with chans := [(383, sampled {})] }), by decide +kernel, by decide +kernel, rfl,
        by decide +kernel⟩,
    ⟨383, 2, 1, 9, (withQm fun q => { q with chans := [(383, sampled { step := some ⟨0, 1, 1, 1, 0, 16000, 0, 0, [], false, 0, 0, 0⟩ })] }),
        (withQm fun q => { q with chans := [(383, sampled { step := some ⟨0, 1, 1, 1, 0, 16000, 0, 0, [], false, 0, 0, 0⟩ })] }),
        by decide +kernel, by decide +kernel, rfl, by decide +kernel⟩,
    ⟨0, [1, 2], base, base, by decide +kernel, by decide +kernel, rfl⟩⟩

/-- Every clause of AdjustmentTokens has a state and operands that meet its premises. -/
theorem witness_AdjustmentTokens :
    (∃ (x : Token) (k : Nat) (c : Instr) (u : State) (s : State), s.qmUp = true ∧ s.flushMail = u ∧
        u.tokenCheck { x with kind := k } ≠ 0 ∧ (k, c) ∈ [(1, Instr.enterToken x), (2, .leaveToken x), (3,
        .auditAcknowledge x), (4, .calibrationWrite x), (5, .authorityKeySet x), (6, .softwareAnnounce x)]) ∧
    (∃ (level : Bool) (s : State), s.qmUp = true ∧ s.adjDue = true) ∧
    (∃ (u : Nat) (s : State), s.qmUp = true ∧ s.seal = 2 ∧ s.qm.adjUntil = some u ∧ u ≤ s.mclkNow) ∧
    (∃ (s : State), s.qmUp = true ∧ s.qm.clk = false) ∧
    (∃ (s : State), s.qmUp = true ∧ s.qm.clk = true ∧ s.qm.vioM = true ∧ s.qm.clkSince + 100000000 ≤ s.mclkNow) :=
  ⟨⟨⟨0, 0, 4, 0, 0, [], [], [], []⟩, 6, (.softwareAnnounce ⟨0, 0, 4, 0, 0, [], [], [], []⟩), base, base,
        by decide +kernel, rfl, by decide +kernel⟩,
    ⟨true, base, by decide +kernel⟩,
    ⟨20000000000000, (withQm fun q => { q with sealSt := 2, adjUntil := some 20000000000000 }), by decide +kernel⟩,
    ⟨base, by decide +kernel⟩,
    ⟨(withQm fun q => { q with clk := true, clkSince := 19999900000000 }), by decide +kernel⟩⟩

/-- Every clause of FramesFromTheQm has a state and operands that meet its premises. -/
theorem witness_FramesFromTheQm :
    (∃ (lt number mclk : Nat) (u : State) (s : State), s.qmUp = true ∧ s.fw = true ∧ s.clock.beacon = some lt ∧
        s.closesSent lt = true ∧ s.ahead (.beacon lt number mclk) = u) ∧
    (∃ (b : List Byte) (s : State), s.qmUp = true ∧ requestOk b = false) ∧
    (∃ (n : Nat) (r : Rec) (s : State), s.recAt n = some r ∧ s.hears (recClass r.kind) = true) ∧
    (∃ (n : Nat) (b : Bat) (s : State), s.batAt n = some b ∧ s.hears 4 = true) ∧
    (∃ (epochLt : Nat) (s : State), s.hears 5 = true) ∧
    (∃ (e : QmEvent) (s : State), s.qmUp = true ∧ s.fw = true ∧ e ∈ s.qm.events) :=
  ⟨⟨5, 6, 7, (withClock fun c => { c with beacon := some 5 }), (withClock fun c => { c with beacon := some 5 }),
        by decide +kernel, by decide +kernel, by decide +kernel, by decide +kernel, rfl⟩,
    ⟨[1], base, by decide +kernel⟩,
    ⟨4, ⟨1, [1], 0, 0, 0⟩, (withQm fun q => { q with recs := [(4, ⟨1, [1], 0, 0, 0⟩)] }), by decide +kernel⟩,
    ⟨4, ⟨1, 1, [1], [2]⟩, (withQm fun q => { q with bats := [(4, ⟨1, 1, [1], [2]⟩)], lastBat := 4 }),
        by decide +kernel⟩,
    ⟨5, base, by decide +kernel⟩,
    ⟨(.backpressure true), (withQm fun q => { q with events := [.backpressure true] }), by decide +kernel⟩⟩

/-- Every clause of Measurement has a state and operands that meet its premises. -/
theorem witness_Measurement :
    (∃ (c : Nat) (v i x spare spareT : Int) (y : QSample) (s : State), s.qmUp = true ∧ s.chanPop c = true ∧
        s.framed (dieOf c) = true ∧ s.sampleDue c = true ∧
        s.rotFirst (dieOf c) (localOf c / 8) s.sampleStart (fun q => q / 2 == localOf c % 8) = false ∧
        s.rotFirst (dieOf c) 8 s.sampleStart (· == localOf c / 16) = false ∧
        s.sampleOf c s.sampleStart (s.readInput (dieOf c) (localOf c / 8) (2 * (localOf c % 8)) s.sampleStart v spare) (s.readInput (dieOf c) (localOf c / 8) (2 * (localOf c % 8) + 1) s.sampleStart i spare) (s.readInput (dieOf c) 8 (localOf c / 16) s.sampleStart x spareT) = y) ∧
    (∃ (epochLt : Nat) (s : State), s.qmUp = true) ∧
    (∃ (c : Nat) (s : State), s.qmUp = true ∧ s.chanPop c = true ∧ s.periodicDue c = true ∧
        s.holds c (s.qc c).gangSize (s.nextIntEnd c) = false) ∧
    (∃ (samples : List (List Int)) (es : List Rat) (s : State), s.qmUp = true ∧ s.qm.acSec < s.qmLt / 1000000000 ∧
        ((List.range 3).map fun k => phaseEnergy (s.acStream k (samples.map fun x => x.getD k 0)) (s.acStream (3 + k) (samples.map fun x => x.getD (3 + k) 0))) = es) ∧
    (∃ (c f e b : Nat) (w : QStep) (s : State), s.qmUp = true ∧ s.chanPop c = true ∧ (s.qc c).step = some w ∧
        w.mode = 9 ∧ s.sweepPoint w = some (f, e, b) ∧ b ≤ s.qmLt ∧ s.holds c w.gang b = false) ∧
    (∃ (s : State), s.qmUp = true ∧ ((s.qm.checked = true → s.qm.ckAt + 1000000000 ≤ s.mclkNow))) ∧
    (∃ (s : State), s.qmUp = true ∧ s.batchDue = true) :=
  ⟨⟨383, 36000000, 10, 25000, 36000001, 7, (base.sampleOf 383 base.sampleStart (base.readInput (dieOf 383) (localOf 383 / 8) (2 * (localOf 383 % 8)) base.sampleStart 36000000 36000001) (base.readInput (dieOf 383) (localOf 383 / 8) (2 * (localOf 383 % 8) + 1) base.sampleStart 10 36000001) (base.readInput (dieOf 383) 8 (localOf 383 / 16) base.sampleStart 25000 7)),
        base, by decide +kernel, by decide +kernel, by decide +kernel, by decide +kernel, by decide +kernel,
        by decide +kernel, rfl⟩,
    ⟨19999990000000, base, by decide +kernel⟩,
    ⟨383, (withQm fun q => { q with chans := [(383, sampled { begun := true, rate := 1 })], beacons := [(1000000, 1000000, 1), (0, 0, 1)] }),
        by decide +kernel⟩,
    ⟨[[1, 2, 3, 4, 5, 6]], _, (withQm fun q => { q with beacons := [(1000000, 1000000, 1), (0, 0, 1)] }),
        by decide +kernel, by decide +kernel, rfl⟩,
    ⟨383, 1000, 0, 8000000000, ⟨0, 1, 9, 1, 0, 16000, 1000, 16778216, [], false, 0, 0, 0⟩,
        (withQm fun q => { q with beacons := [(1000000, 1000000, 1), (0, 0, 1)], chans := [(383, sampled { step := some ⟨0, 1, 9, 1, 0, 16000, 1000, 16778216, [], false, 0, 0, 0⟩ })] }),
        by decide +kernel⟩,
    ⟨(withQm fun q => { q with checked := true, ckAt := 19999000000000 }), by decide +kernel⟩,
    ⟨(withQm fun q => { q with recs := [(1, ⟨2, [1], 0, 0, 0⟩)], nextRec := 2 }), by decide +kernel⟩⟩

/-- Every clause of MetrologyPort has a state and operands that meet its premises. -/
theorem witness_MetrologyPort :
    (∃ (arg : List Byte) (clocked : Nat) (s : State), s.portUp = true ∧ 8 ≤ arg.length) ∧
    (∃ (arg : List Byte) (clocked : Nat) (s : State), s.portUp = true ∧ 8 ≤ arg.length) ∧
    (∃ (arg : List Byte) (clocked : Nat) (s : State), s.portUp = true ∧ 8 ≤ arg.length) ∧
    (∃ (arg : List Byte) (clocked : Nat) (s : State), s.portUp = true ∧ 8 ≤ arg.length) ∧
    (∃ (arg : List Byte) (clocked : Nat) (s : State), s.portUp = true ∧ 8 ≤ arg.length) ∧
    (∃ (arg : List Byte) (clocked : Nat) (s : State), s.portUp = true ∧ 8 ≤ arg.length) ∧
    (∃ (arg : List Byte) (clocked : Nat) (s : State), s.portUp = true ∧ 8 ≤ arg.length) ∧
    (∃ (arg : List Byte) (clocked : Nat) (s : State), s.portUp = true ∧ 8 ≤ arg.length) ∧
    (∃ (arg : List Byte) (clocked : Nat) (s : State), s.portUp = true ∧ 8 ≤ arg.length) :=
  ⟨⟨(List.replicate 8 0), 10, base, by decide +kernel⟩,
    ⟨(List.replicate 8 0), 10, base, by decide +kernel⟩,
    ⟨[1, 0, 0, 0, 0, 0, 0, 0], 10, base, by decide +kernel⟩,
    ⟨[1, 0, 0, 0, 0, 0, 0, 0], 10, base, by decide +kernel⟩,
    ⟨[1, 0, 0, 0, 0, 0, 0, 0], 10, base, by decide +kernel⟩,
    ⟨[1, 0, 0, 0, 0, 0, 0, 0], 10, base, by decide +kernel⟩,
    ⟨[1, 0, 0, 0, 0, 0, 0, 0], 10, base, by decide +kernel⟩,
    ⟨(List.replicate 8 0), 10, base, by decide +kernel⟩,
    ⟨(List.replicate 8 0), 10, base, by decide +kernel⟩⟩

/-- Every clause of Rotation has a state and operands that meet its premises. -/
theorem witness_Rotation :
    (∃ (site g : Nat) (s : State), s.rotates site g = true ∧ (s.rot site g).phase = 0 ∧
        ((s.rot site g).spareOf g).isSome = true ∧ (s.rot site g).next ≤ s.mclkNow) ∧
    (∃ (site g : Nat) (x : Rot) (r : Rat × Rat) (s : State), s.rot site g = x ∧
        x.fit.solve (inputKind g x.input) = r ∧ s.rotates site g = true ∧ x.phase = 1 ∧ s.windowDone site g x = true ∧
        x.fit.n ≠ 0 ∧ x.fit.residual r.1 r.2 ≤ residualLimit (inputKind g x.input) * residualLimit (inputKind g x.input)) ∧
    (∃ (site g : Nat) (x : Rot) (r : Rat × Rat) (s : State), s.rot site g = x ∧
        x.fit.solve (inputKind g x.input) = r ∧ s.rotates site g = true ∧ x.phase = 1 ∧ s.windowDone site g x = true ∧
        ((x.fit.n = 0 ∨ residualLimit (inputKind g x.input) * residualLimit (inputKind g x.input) < x.fit.residual r.1 r.2))) ∧
    (∃ (site g c : Nat) (s : State), s.commitAt (s.rot site g) = some c ∧ s.rotates site g = true ∧
        (s.rot site g).phase = 2 ∧ c ≤ s.mclkNow ∧ s.milestoneIn site g (s.rot site g) = false) ∧
    (∃ (site g c : Nat) (s : State), s.commitAt (s.rot site g) = some c ∧ s.rotates site g = true ∧
        (s.rot site g).phase = 2 ∧ c ≤ s.mclkNow ∧ s.milestoneIn site g (s.rot site g) = true) ∧
    (∃ (site g k : Nat) (mean : Int) (s : State), s.rotates site g = true ∧ (s.rot site g).phase = 3 ∧ k < 3 ∧
        (s.rot site g).steps = k ∧ (s.rot site g).c + phaseEnd k ≤ s.mclkNow) ∧
    (∃ (site g : Nat) (s : State), s.rotates site g = true ∧ (s.rot site g).phase = 3 ∧ (s.rot site g).steps = 3 ∧
        (s.rot site g).c + 10000000000 ≤ s.mclkNow) ∧
    (∃ (site g m kind : Nat) (zero a b : Int) (y : Trim) (s : State), s.rotates site g = true ∧ groupOfMod m = g ∧
        m ≤ 140 ∧ (s.modl site m).suspect = true ∧ (s.modl site m).lastRun + 600000000000 ≤ s.mclkNow ∧
        inputKind g (s.rot site g).input = kind ∧ s.newTrim site m kind zero a = y) ∧
    (∃ (site m p : Nat) (s : State), s.qmUp = true ∧ s.sitePop site = true ∧ m ≤ 140 ∧ s.servedBy site m = some p ∧
        (s.trimAt site (groupOfMod m) p m).old s.mclkNow = true ∧ (s.modl site m).aged = false) :=
  ⟨⟨6, 8, base, by decide +kernel⟩,
    ⟨6, 0, ({ phase := 1, s := 0, fit := { n := 1, x := 5, y := 5, xx := 25, xy := 25, yy := 25, lo := 5, hi := 5 } }),
        ((0, 0)), (withQm fun q => { q with rots := [(96, { phase := 1, s := 0, fit := { n := 1, x := 5, y := 5, xx := 25, xy := 25, yy := 25, lo := 5, hi := 5 } })], chans := [(384, {}), (320, { hist := [farSample] })] }),
        by decide +kernel⟩,
    ⟨6, 0, ({ phase := 1, s := 0 }), ((0, 0)),
        (withQm fun q => { q with rots := [(96, { phase := 1, s := 0 })], chans := [(320, { hist := [farSample] })] }),
        by decide +kernel⟩,
    ⟨6, 0, (boundaryAfter 100000000), (withQm fun q => { q with rots := [(96, { phase := 2 })] }),
        by decide +kernel⟩,
    ⟨6, 0, (boundaryAfter 100000000), (withQm fun q => { q with rots := [(96, { phase := 2, sLt := 5, hLt := 9 })], closes := [(320, 7)] }),
        by decide +kernel⟩,
    ⟨6, 0, 2, 3, (withQm fun q => { q with rots := [(96, { phase := 3, steps := 2 })] }), by decide +kernel⟩,
    ⟨6, 0, (withQm fun q => { q with rots := [(96, { phase := 3, steps := 3 })] }), by decide +kernel⟩,
    ⟨6, 8, 140, 2, 1, 2, 3, ((withQm fun q => { q with mods := [(256 * 6 + 140, { suspect := true })] }).newTrim 6 140 2 1 2),
        (withQm fun q => { q with mods := [(256 * 6 + 140, { suspect := true })] }), by decide +kernel,
        by decide +kernel, by decide +kernel, by decide +kernel, by decide +kernel, by decide +kernel, rfl⟩,
    ⟨6, 0, 0, (withQm fun q => { q with mods := [(256 * 6, { volt := { date := some 0 } })] }), by decide +kernel⟩⟩

/-- Every clause of DiagnosisAndCalibration has a state and operands that meet its premises. -/
theorem witness_DiagnosisAndCalibration :
    (∃ (die u d : Nat) (s : State), s.diagUp die = true ∧ u < unitCount die ∧ (s.adc die u).diagUntil = none ∧
        (s.adc die u).repeatAt = none ∧ s.diagDue die u = some d ∧ (s.adc die u).lastDiag < d ∧
        s.diagBlocked die u = false ∧ s.diagRuns die = false) ∧
    (∃ (die u d : Nat) (s : State), s.diagUp die = true ∧ u < unitCount die ∧ (s.adc die u).diagUntil = none ∧
        (s.adc die u).repeatAt = none ∧ s.diagDue die u = some d ∧ (s.adc die u).lastDiag < d ∧
        s.diagBlocked die u = true) ∧
    (∃ (die u d : Nat) (s : State), s.diagUp die = true ∧ u < unitCount die ∧ (s.adc die u).diagUntil = none ∧
        (s.adc die u).repeatAt = some d ∧ d ≤ s.lt ∧ s.diagBlocked die u = false ∧ s.diagRuns die = false) ∧
    (∃ (src : Src) (n mask : Nat) (s : State), s.Accepts src 0x2853 6 [siteI n] mask (diagnoseNowCheck mask)) ∧
    (∃ (src : Src) (i j : Nat) (e : Inst) (v : Int) (s : State), isCalObj i = true ∧
        s.Accepts src i j [instOf e] v (fun _ _ => aDone)) :=
  ⟨⟨6, 15, 19976250000000, base, by decide +kernel⟩,
    ⟨6, 15, 19976250000000, (base.setAdc 6 15 { checking := some 60 }), by decide +kernel⟩,
    ⟨6, 15, 20000000000000, (base.setAdc 6 15 { repeatAt := some 20000000000000 }), by decide +kernel⟩,
    ⟨kw, 6, 0x8000, base, accepts_of (by decide +kernel)⟩,
    ⟨kw, 0x2852, 1, (.ch 383), 5, base, by decide +kernel, accepts_of (by decide +kernel)⟩⟩

/-- Every clause of DriverSlices has a state and operands that meet its premises. -/
theorem witness_DriverSlices :
    (∃ (n mv : Nat) (s : State), s.sitePop n = true ∧ mv < 7200) ∧
    (∃ (n mv : Nat) (s : State), s.sitePop n = true ∧ 7600 < mv) ∧
    (∃ (c mv : Nat) (s : State), s.chanPop c = true ∧ mv < 5600) ∧
    (∃ (c mv : Nat) (s : State), s.chanPop c = true ∧ 6000 < mv) ∧
    (∃ (c : Nat) (s : State), s.chanPop c = true ∧ s.refreshDue c = true) ∧
    (∃ (c : Nat) (w : Word) (s : State), s.chanPop c = true ∧ ((s.laneHas c w = true ∨ s.outOfTurn c w = false)) ∧
        (s.chan c).check = none ∧ edgeOk w = true ∧ edgeChan w = localOf c ∧ edgeLeg w ≠ 3 ∧
        (((s.chan c).slice.blocked = true → edgePb w = true))) ∧
    (∃ (c : Nat) (w : Word) (s : State), s.chanPop c = true ∧ ((s.laneHas c w = true ∨ s.outOfTurn c w = false)) ∧
        (s.chan c).check = none ∧ edgeOk w = false ∧ (s.chan c).slice.blocked = false) ∧
    (∃ (c x : Nat) (leg : Leg) (pb : Bool) (ws : List (Nat × Leg × Bool)) (s : State), (s.chan c).slice.words = (x,
        leg, pb) :: ws ∧ x ≤ s.fine (dieOf c) ∧ (s.die (dieOf c)).halted = false ∧ s.heldLow c = false ∧
        s.rd 0x2812 2 c ≠ 1) ∧
    (∃ (c x : Nat) (hi : Bool) (s : State), (s.chan c).slice.turnOn = some (hi, x) ∧ x ≤ s.fine (dieOf c) ∧
        (s.die (dieOf c)).halted = false ∧ s.heldLow c = false ∧ s.rd 0x2812 2 c ≠ 1) ∧
    (∃ (c : Nat) (uv : Int) (s : State), s.chanPop c = true ∧ s.rd 0x2810 1 c < uv.natAbs ∧ s.blanked c = false) ∧
    (∃ (c : Nat) (uv : Int) (s : State), s.chanPop c = true ∧ s.rd 0x2810 2 c < uv.natAbs) ∧
    (∃ (c : Nat) (uv : Int) (s : State), s.chanPop c = true ∧ (s.chan c).slice.blankEnd ≠ 0 ∧ s.blanked c = false) :=
  ⟨⟨6, 7199, base, by decide +kernel⟩,
    ⟨6, 7601, base, by decide +kernel⟩,
    ⟨383, 5599, base, by decide +kernel⟩,
    ⟨383, 6001, base, by decide +kernel⟩,
    ⟨0, ((unitOn.setUnit 1 0 { (unitOn.unit 1 0) with on := true, lastEdge := 204799999948800 }).setChan 0 { slice := { refresh := 15 } }),
        by decide +kernel⟩,
    ⟨383, ((0x3F000003 : BitVec 32)), base, by decide +kernel⟩,
    ⟨383, 1, base, by decide +kernel⟩,
    ⟨0, 5, .high, true, [], (((base.wr 0x2800 4 (siteI 1) 1).wr 0x2800 3 (siteI 1) 0).setChan 0 { slice := { words := [(5, .high, true)] } }),
        by decide +kernel⟩,
    ⟨0, 5, true, (((base.wr 0x2800 4 (siteI 1) 1).wr 0x2800 3 (siteI 1) 0).setChan 0 { slice := { turnOn := some (true, 5) } }),
        by decide +kernel⟩,
    ⟨383, (-75001), base, by decide +kernel⟩,
    ⟨383, 90001, base, by decide +kernel⟩,
    ⟨383, 3, (base.setChan 383 { slice := { blankEnd := 1 } }), by decide +kernel⟩⟩

/-- Every clause of ContactCheckAndFaultSources has a state and operands that meet its premises. -/
theorem witness_ContactCheckAndFaultSources :
    (∃ (src : Src) (c v : Nat) (s : State), s.Accepts src 0x2820 2 [c] v checkNowCheck) ∧
    (∃ (c : Nat) (g : Gate) (gs : List Gate) (s : State), s.chanPop c = true ∧ (s.chan c).queued = g :: gs ∧
        (s.chan c).check = none ∧ (s.adc (dieOf c) (quadOf c)).checking = none ∧
        (s.adc (dieOf c) (quadOf c)).diagUntil = none ∧ s.gatesAreOff c = true ∧ s.checkFirst c g = false) ∧
    (∃ (c x : Nat) (codes : List Nat) (k : Check) (s : State), (s.chan c).check = some k ∧
        checkTimes[k.phase]? = some x ∧ k.start + x ≤ s.lt) ∧
    (∃ (c : Nat) (k : Check) (s : State), (s.chan c).check = some k ∧ k.phase = 4 ∧ k.start + 900000 ≤ s.lt) ∧
    (∃ (n k u : Nat) (m1 m2 : Int) (s : State), s.sitePop n = true ∧ s.sourceBeyond n k u m1 = true ∧
        s.sourceBeyond n k u m2 = true) ∧
    (∃ (n k : Nat) (a b : Int) (s : State), s.sitePop n = true ∧ s.sourceInside n k 0 a = true ∧
        ((k = 3 ∨ s.sourceInside n k 8 b = true))) ∧
    (∃ (k counts : Nat) (level : Bool) (s : State), s.vsys = true ∧ k < 8 ∧ 2 ≤ counts) ∧
    (∃ (die : Nat) (s : State), s.sealedPart = false ∧ s.sec.debug = true ∧ s.diePop die = true ∧ ((∀ d,
        d < 7 → (s.die d).halted = false))) ∧
    (∃ (die : Nat) (s : State), s.diePop die = true ∧ (s.die die).halted = true) :=
  ⟨⟨kw, 383, 1, base, accepts_of (by decide +kernel)⟩,
    ⟨383, .host, [], (base.setChan 383 { queued := [.host] }), by decide +kernel⟩,
    ⟨383, 880000, [5], ⟨.host, 3, 19999999120000, [1, 2, 3]⟩,
        (base.setChan 383 { check := some ⟨.host, 3, 19999999120000, [1, 2, 3]⟩ }), by decide +kernel⟩,
    ⟨383, ⟨.host, 4, 19999999100000, [1, 2, 3, 4]⟩,
        (base.setChan 383 { check := some ⟨.host, 4, 19999999100000, [1, 2, 3, 4]⟩ }), by decide +kernel⟩,
    ⟨6, 3, 0, 1000001, 1000001, base, by decide +kernel⟩,
    ⟨6, 3, (-5), 0, base, by decide +kernel⟩,
    ⟨7, 2, true, base, by decide +kernel⟩,
    ⟨6, debugOn, by decide +kernel⟩,
    ⟨6, (base.setDie 6 { halted := true }), by decide +kernel⟩⟩

/-- Every clause of TimedOutputs has a state and operands that meet its premises. -/
theorem witness_TimedOutputs :
    (∃ (die u b : Nat) (set : PSet) (s : State), s.unitPop die u = true ∧ (s.die die).halted = false ∧
        (s.unit die u).running = false ∧ (s.unit die u).firstB (s.phi die u) = some (b, set) ∧ b ≤ s.cnt die ∧
        s.unitLatched die u = false) ∧
    (∃ (die u : Nat) (s : State), s.unitPop die u = true ∧ (s.die die).halted = false ∧
        (s.unit die u).running = true ∧ (s.unit die u).nextFine ≤ s.fine die ∧ (s.unit die u).stopAt = none) ∧
    (∃ (die u x : Nat) (s : State), s.unitPop die u = true ∧ (s.die die).halted = false ∧
        (s.unit die u).running = true ∧ (s.unit die u).nextFine ≤ s.fine die ∧ (s.unit die u).stopAt = some x ∧
        32 * ((x : Int) + 256) ≤ (s.unit die u).nextFine) ∧
    (∃ (die u : Nat) (set : PSet) (s : State), (s.unit die u).midSet (s.midMode die u) = some set ∧
        s.unitPop die u = true ∧ (s.unit die u).running = true ∧ (s.die die).halted = false ∧
        (s.unit die u).midFine ≤ s.fine die) ∧
    (∃ (die u : Nat) (k : Ask) (s : State), s.nextAsk die u = some k ∧ s.unitPop die u = true ∧
        s.unitLatched die u = false ∧ (s.die die).halted = false ∧ k.time ≤ s.fine die + 8192) ∧
    (∃ (src : Src) (c v : Nat) (s : State), s.Accepts src 0x2831 4 [c] v hostOwns) ∧
    (∃ (die u : Nat) (s : State), s.unitPop die u = true ∧ s.unitLatched die u = false) ∧
    (∃ (die u : Nat) (s : State), s.unitPop die u = true) :=
  ⟨⟨1, 0, 1600, ⟨1600, 0, 800, 0⟩, (base.setUnit 1 0 { startAt := some 1, commit := some (⟨1600, 0, 800, 0⟩, 2), committed := true }),
        by decide +kernel⟩,
    ⟨1, 0, unitOn, by decide +kernel⟩,
    ⟨1, 0, 6399999999744, (base.setUnit 1 0 { running := true, boundary := 6399999998400, stopAt := some 6399999999744 }),
        by decide +kernel⟩,
    ⟨1, 0, ⟨1600, 0, 800, 0⟩, ((base.wr 0x2830 1 0 1).setUnit 1 0 { running := true, boundary := 6399999998400, commit := some (⟨1600, 0, 800, 0⟩, 6399999999200) }),
        by decide +kernel⟩,
    ⟨1, 0, ⟨204800000000000, 1, 204800000000000, ⟨1600, 0, 0, 0⟩, ⟨1600, 0, 0, 0⟩, false, false⟩, unitOn,
        by decide +kernel⟩,
    ⟨kw, 383, 1, (base.wr 0x2830 2 383 1), accepts_of (by decide +kernel)⟩,
    ⟨6, 65, base, by decide +kernel⟩,
    ⟨6, 65, base, by decide +kernel⟩⟩

/-- Every clause of ReleasesJobsDescriptors has a state and operands that meet its premises. -/
theorem witness_ReleasesJobsDescriptors :
    (∃ (die k : Nat) (given : List Sample) (s : State), s.slotActive die k = true ∧ s.relDue die k = true) ∧
    (∃ (die e v x : Nat) (j : Job) (u : State) (s : State), s.diePop die = true ∧ e < engineCount die ∧
        (s.eng die e).job = none ∧ (s.die die).halted = false ∧ s.takeUpTo die e = u ∧ (u.eng die e).claim = some (v,
        j, x)) ∧
    (∃ (die e : Nat) (j : RunJob) (s : State), (s.eng die e).job = some j ∧ (s.die die).halted = false ∧
        (s.eng die e).ran = true ∧ s.hasCome die ((s.eng die e).endsAt die) = true) ∧
    (∃ (die e : Nat) (k : EngFault) (j : RunJob) (s : State), (s.eng die e).job = some j ∧
        ((k = .ecc ∨ s.descW die j.desc < (s.eng die e).cycles))) ∧
    (∃ (src : Src) (die : Nat) (b : List Byte) (s : State), die ≤ 6 ∧
        s.AcceptsBlob src 0x2505 1 [dieI die] b (descriptorCheck b)) ∧
    (∃ (src : Src) (die id : Nat) (s : State), die ≤ 6 ∧ s.Accepts src 0x2505 2 [dieI die] id (removeCheck id)) ∧
    (∃ (src : Src) (die k : Nat) (b : List Byte) (s : State),
        s.AcceptsBlob src 0x2507 (k + 1) [dieI die] b (curveCheck 0x2507 (k + 1) b)) :=
  ⟨⟨1, 0, [], ((base.wr 0x2402 1 0 3).setSlot 1 0 { planned := true }), by decide +kernel⟩,
    ⟨6, 15, 15, 7, ⟨0, 5, 6⟩, (base.setEng 6 15 { claim := some (15, ⟨0, 5, 6⟩, 7) }),
        (base.setEng 6 15 { claim := some (15, ⟨0, 5, 6⟩, 7) }), by decide +kernel, by decide +kernel,
        by decide +kernel, by decide +kernel, rfl, by decide +kernel⟩,
    ⟨6, 15, ⟨0, 31, 0, 0, false⟩, (base.setEng 6 15 { job := some ⟨0, 31, 0, 0, false⟩ }), by decide +kernel⟩,
    ⟨6, 15, .ecc, ⟨0, 31, 0, 0, false⟩, (base.setEng 6 15 { job := some ⟨0, 31, 0, 0, false⟩ }), by decide +kernel⟩,
    ⟨kw, 1, [0, 0, 32, 1, 42, 0, 1, 0, 50, 165, 34, 146, 0, 0, 0, 0, 0, 0, 0, 248], base, by decide +kernel,
        acceptsBlob_of (by decide +kernel)⟩,
    ⟨kw, 6, 63, base, by decide +kernel, accepts_of (by decide +kernel)⟩,
    ⟨kw, 1, 0, ([0, 0, 2, 0, 0, 0, 0, 0, 0, 0, 0, 0, 0, 0, 0, 0, 1, 0, 0, 0, 5, 0, 0, 0] ++ List.replicate 2024 0),
        base, acceptsBlob_of (by decide +kernel)⟩⟩

/-- Every clause of MicroOpLoads has a state and operands that meet its premises. -/
theorem witness_MicroOpLoads :
    (∃ (die e : Nat) (j : RunJob) (op : Word) (s : State), s.Computes die e (.nop die e) j op) ∧
    (∃ (die e : Nat) (j : RunJob) (op : Word) (s : State), s.fetched die e = some (j, op) ∧
        (s.desc die j.desc).w < (s.eng die e).cycles + opCycles (opOf op)) ∧
    (∃ (die e d tag : Nat) (j : RunJob) (op : Word) (s : State), s.Computes die e (.lds die e d tag) j op) ∧
    (∃ (die e d n c : Nat) (j : RunJob) (op : Word) (s : State), s.Computes die e (.ldp die e d n) j op ∧
        chanSlot die j.slot = some c) ∧
    (∃ (die e d w : Nat) (j : RunJob) (op : Word) (s : State), s.Computes die e (.ldw die e d w) j op) ∧
    (∃ (die e a w : Nat) (j : RunJob) (op : Word) (s : State), s.Computes die e (.stw die e a w) j op) ∧
    (∃ (die e d : Nat) (imm : BitVec 24) (j : RunJob) (op : Word) (s : State),
        s.Computes die e (.ldi die e d imm) j op) ∧
    (∃ (die e d : Nat) (imm : BitVec 16) (j : RunJob) (op : Word) (s : State),
        s.Computes die e (.ldh die e d imm) j op) ∧
    (∃ (die e d a : Nat) (j : RunJob) (op : Word) (s : State), s.Computes die e (.mov die e d a) j op) :=
  ⟨⟨1, 0, run1, ((0x00000000 : BitVec 32)), (computing (0x00000000 : BitVec 32)), ⟨by decide +kernel,
        by decide +kernel, by decide +kernel⟩⟩,
    ⟨1, 0, run1, ((0xA7C0000D : BitVec 32)), ((computing (0xA7C0000D : BitVec 32)).setDesc 1 40 { w := 5, ops := [(0xA7C0000D : BitVec 32)] }),
        by decide +kernel⟩,
    ⟨1, 0, 7, 7, run1, ((0x0F000007 : BitVec 32)), (computing (0x0F000007 : BitVec 32)), ⟨by decide +kernel,
        by decide +kernel, by decide +kernel⟩⟩,
    ⟨1, 0, 7, 2, 0, run1, ((0x17000002 : BitVec 32)), (computing (0x17000002 : BitVec 32)), ⟨by decide +kernel,
        by decide +kernel, by decide +kernel⟩, by decide +kernel⟩,
    ⟨1, 0, 7, 15, run1, ((0x1F00000F : BitVec 32)), (computing (0x1F00000F : BitVec 32)), ⟨by decide +kernel,
        by decide +kernel, by decide +kernel⟩⟩,
    ⟨1, 0, 6, 8, run1, ((0x20C00008 : BitVec 32)), (computing (0x20C00008 : BitVec 32)), ⟨by decide +kernel,
        by decide +kernel, by decide +kernel⟩⟩,
    ⟨1, 0, 7, 0xFFFFFF, run1, ((0x2FFFFFFF : BitVec 32)), (computing (0x2FFFFFFF : BitVec 32)), ⟨by decide +kernel,
        by decide +kernel, by decide +kernel⟩⟩,
    ⟨1, 0, 7, 0x8000, run1, ((0x37008000 : BitVec 32)), (computing (0x37008000 : BitVec 32)), ⟨by decide +kernel,
        by decide +kernel, by decide +kernel⟩⟩,
    ⟨1, 0, 7, 6, run1, ((0x3FC00000 : BitVec 32)), (computing (0x3FC00000 : BitVec 32)), ⟨by decide +kernel,
        by decide +kernel, by decide +kernel⟩⟩⟩

/-- Every clause of MicroOpArithmetic has a state and operands that meet its premises. -/
theorem witness_MicroOpArithmetic :
    (∃ (die e d a b : Nat) (j : RunJob) (op : Word) (s : State), s.Computes die e (.add die e d a b) j op) ∧
    (∃ (die e d a b : Nat) (j : RunJob) (op : Word) (s : State), s.Computes die e (.sub die e d a b) j op) ∧
    (∃ (die e k a b : Nat) (j : RunJob) (op : Word) (s : State), s.Computes die e (.mul die e k a b) j op) ∧
    (∃ (die e k a b : Nat) (j : RunJob) (op : Word) (s : State), s.Computes die e (.mac die e k a b) j op) ∧
    (∃ (die e k a : Nat) (j : RunJob) (op : Word) (s : State), s.Computes die e (.acc die e k a) j op) ∧
    (∃ (die e d k : Nat) (j : RunJob) (op : Word) (s : State), s.Computes die e (.sta die e d k) j op) ∧
    (∃ (die e d a b : Nat) (j : RunJob) (op : Word) (s : State), s.Computes die e (.min die e d a b) j op) ∧
    (∃ (die e d a b : Nat) (j : RunJob) (op : Word) (s : State), s.Computes die e (.max die e d a b) j op) ∧
    (∃ (die e d a w : Nat) (j : RunJob) (op : Word) (s : State), s.Computes die e (.lim die e d a w) j op) :=
  ⟨⟨1, 0, 7, 6, 5, run1, ((0x47D40000 : BitVec 32)), (computing (0x47D40000 : BitVec 32)), ⟨by decide +kernel,
        by decide +kernel, by decide +kernel⟩⟩,
    ⟨1, 0, 7, 6, 5, run1, ((0x4FD40000 : BitVec 32)), (computing (0x4FD40000 : BitVec 32)), ⟨by decide +kernel,
        by decide +kernel, by decide +kernel⟩⟩,
    ⟨1, 0, 1, 6, 5, run1, ((0x51D40000 : BitVec 32)), (computing (0x51D40000 : BitVec 32)), ⟨by decide +kernel,
        by decide +kernel, by decide +kernel⟩⟩,
    ⟨1, 0, 1, 6, 5, run1, ((0x59D40000 : BitVec 32)), (computing (0x59D40000 : BitVec 32)), ⟨by decide +kernel,
        by decide +kernel, by decide +kernel⟩⟩,
    ⟨1, 0, 1, 6, run1, ((0x61C00000 : BitVec 32)), (computing (0x61C00000 : BitVec 32)), ⟨by decide +kernel,
        by decide +kernel, by decide +kernel⟩⟩,
    ⟨1, 0, 7, 1, run1, ((0x6F040000 : BitVec 32)), (computing (0x6F040000 : BitVec 32)), ⟨by decide +kernel,
        by decide +kernel, by decide +kernel⟩⟩,
    ⟨1, 0, 7, 6, 5, run1, ((0x77D40000 : BitVec 32)), (computing (0x77D40000 : BitVec 32)), ⟨by decide +kernel,
        by decide +kernel, by decide +kernel⟩⟩,
    ⟨1, 0, 7, 6, 5, run1, ((0x7FD40000 : BitVec 32)), (computing (0x7FD40000 : BitVec 32)), ⟨by decide +kernel,
        by decide +kernel, by decide +kernel⟩⟩,
    ⟨1, 0, 7, 6, 13, run1, ((0x87C0000D : BitVec 32)), (computing (0x87C0000D : BitVec 32)), ⟨by decide +kernel,
        by decide +kernel, by decide +kernel⟩⟩⟩

/-- Every clause of MicroOpFilters has a state and operands that meet its premises. -/
theorem witness_MicroOpFilters :
    (∃ (die e d a : Nat) (n : BitVec 6) (j : RunJob) (op : Word) (s : State),
        s.Computes die e (.shf die e d a n) j op) ∧
    (∃ (die e d a w : Nat) (j : RunJob) (op : Word) (s : State), s.Computes die e (.flt die e d a w) j op) ∧
    (∃ (die e d a w : Nat) (j : RunJob) (op : Word) (s : State), s.Computes die e (.bqd die e d a w) j op) ∧
    (∃ (die e d a w : Nat) (j : RunJob) (op : Word) (s : State), s.Computes die e (.pi die e d a w) j op) ∧
    (∃ (die e d a b : Nat) (j : RunJob) (op : Word) (s : State), s.Computes die e (.div die e d a b) j op) ∧
    (∃ (die e d a k : Nat) (j : RunJob) (op : Word) (s : State), s.Computes die e (.crv die e d a k) j op) ∧
    (∃ (die e a b : Nat) (j : RunJob) (op : Word) (s : State), s.Computes die e (.cmp die e a b) j op) :=
  ⟨⟨1, 0, 7, 6, 0x20, run1, ((0x8FC00020 : BitVec 32)), (computing (0x8FC00020 : BitVec 32)), ⟨by decide +kernel,
        by decide +kernel, by decide +kernel⟩⟩,
    ⟨1, 0, 7, 6, 13, run1, ((0x97C0000D : BitVec 32)), (computing (0x97C0000D : BitVec 32)), ⟨by decide +kernel,
        by decide +kernel, by decide +kernel⟩⟩,
    ⟨1, 0, 7, 6, 9, run1, ((0x9FC00009 : BitVec 32)), (computing (0x9FC00009 : BitVec 32)), ⟨by decide +kernel,
        by decide +kernel, by decide +kernel⟩⟩,
    ⟨1, 0, 7, 6, 13, run1, ((0xA7C0000D : BitVec 32)), (computing (0xA7C0000D : BitVec 32)), ⟨by decide +kernel,
        by decide +kernel, by decide +kernel⟩⟩,
    ⟨1, 0, 7, 6, 5, run1, ((0xAFD40000 : BitVec 32)), (computing (0xAFD40000 : BitVec 32)), ⟨by decide +kernel,
        by decide +kernel, by decide +kernel⟩⟩,
    ⟨1, 0, 7, 6, 31, run1, ((0xB7C0001F : BitVec 32)), (computing (0xB7C0001F : BitVec 32)), ⟨by decide +kernel,
        by decide +kernel, by decide +kernel⟩⟩,
    ⟨1, 0, 6, 5, run1, ((0xB8D40000 : BitVec 32)), (computing (0xB8D40000 : BitVec 32)), ⟨by decide +kernel,
        by decide +kernel, by decide +kernel⟩⟩⟩

/-- Every clause of MicroOpControl has a state and operands that meet its premises. -/
theorem witness_MicroOpControl :
    (∃ (die e cond off : Nat) (j : RunJob) (op : Word) (s : State), s.Computes die e (.br die e cond off) j op) ∧
    (∃ (die e : Nat) (j : RunJob) (op : Word) (s : State), s.Computes die e (.trm die e) j op) ∧
    (∃ (die e g a : Nat) (j : RunJob) (op : Word) (s : State), s.Computes die e (.edg die e g a) j op) ∧
    (∃ (die e : Nat) (j : RunJob) (op : Word) (s : State), s.Computes die e (.cmt die e) j op) ∧
    (∃ (die e code : Nat) (j : RunJob) (op : Word) (s : State), s.Computes die e (.lat die e code) j op) ∧
    (∃ (die e a k : Nat) (j : RunJob) (op : Word) (s : State), s.Computes die e (.pub die e a k) j op) ∧
    (∃ (die e d k : Nat) (j : RunJob) (op : Word) (s : State), s.Computes die e (.ldg die e d k) j op) ∧
    (∃ (die e : Nat) (j : RunJob) (op : Word) (s : State), s.Computes die e (.yld die e) j op) :=
  ⟨⟨1, 0, 0, 255, run1, ((0xC00000FF : BitVec 32)), (computing (0xC00000FF : BitVec 32)), ⟨by decide +kernel,
        by decide +kernel, by decide +kernel⟩⟩,
    ⟨1, 0, run1, ((0xC8000000 : BitVec 32)), (computing (0xC8000000 : BitVec 32)), ⟨by decide +kernel,
        by decide +kernel, by decide +kernel⟩⟩,
    ⟨1, 0, 3, 6, run1, ((0xD3C00000 : BitVec 32)), (computing (0xD3C00000 : BitVec 32)), ⟨by decide +kernel,
        by decide +kernel, by decide +kernel⟩⟩,
    ⟨1, 0, run1, ((0xD8000000 : BitVec 32)), (computing (0xD8000000 : BitVec 32)), ⟨by decide +kernel,
        by decide +kernel, by decide +kernel⟩⟩,
    ⟨1, 0, 255, run1, ((0xE00000FF : BitVec 32)), (computing (0xE00000FF : BitVec 32)), ⟨by decide +kernel,
        by decide +kernel, by decide +kernel⟩⟩,
    ⟨1, 0, 6, 3, run1, ((0xE8C00003 : BitVec 32)), (computing (0xE8C00003 : BitVec 32)), ⟨by decide +kernel,
        by decide +kernel, by decide +kernel⟩⟩,
    ⟨1, 0, 7, 1, run1, ((0xF7000001 : BitVec 32)), (computing (0xF7000001 : BitVec 32)), ⟨by decide +kernel,
        by decide +kernel, by decide +kernel⟩⟩,
    ⟨1, 0, run1, ((0xF8000000 : BitVec 32)), (computing (0xF8000000 : BitVec 32)), ⟨by decide +kernel,
        by decide +kernel, by decide +kernel⟩⟩⟩

/-- Every clause of ChannelSupervision has a state and operands that meet its premises. -/
theorem witness_ChannelSupervision :
    (∃ (c x : Nat) (s : State), s.chanPop c = true ∧ (s.chan c).sup.stale = some x ∧
        x + s.rdN 0x2441 5 c * 1000 < s.lt ∧ s.latched c = false) ∧
    (∃ (c : Nat) (s : State), s.chanPop c = true ∧ (s.chan c).sup.follow.isSome = true ∧
        s.rd 0x2441 3 c ≤ s.rd 0x2444 8 c ∧ s.latched c = false) ∧
    (∃ (c : Nat) (s : State), s.chanPop c = true ∧ (s.chan c).sup.vLimit.isSome = true ∧
        1000000 ≤ (s.chan c).sup.vRun ∧ s.latched c = false) ∧
    (∃ (c : Nat) (s : State), s.chanPop c = true ∧ (s.chan c).sup.disagree.isSome = true ∧ 100 ≤ s.rd 0x2443 4 c ∧
        s.latched c = false) ∧
    (∃ (c x : Nat) (s : State), s.chanPop c = true ∧ (s.chan c).sup.noMirror = some x ∧ x + 1000000000 ≤ s.lt ∧
        ((s.switching c = true ∨ s.resting c = true)) ∧ bit (s.rdN 0x2443 1 c) 3 = false) :=
  ⟨⟨383, 0, (base.setChan 383 { sup := { stale := some 0 } }), by decide +kernel⟩,
    ⟨383, ((base.wr 0x2444 8 383 10000).setChan 383 { sup := { follow := some 0 } }), by decide +kernel⟩,
    ⟨383, (base.setChan 383 { sup := { vLimit := some 0, vRun := 1000000 } }), by decide +kernel⟩,
    ⟨383, ((base.wr 0x2443 4 383 100).setChan 383 { sup := { disagree := some 0 } }), by decide +kernel⟩,
    ⟨383, 19999000000000, ((base.wr 0x2402 1 383 3).setChan 383 { sup := { noMirror := some 19999000000000 } }),
        by decide +kernel⟩⟩

/-- Every clause of RecipesAndRuns has a state and operands that meet its premises. -/
theorem witness_RecipesAndRuns :
    (∃ (src : Src) (first last : Nat) (b : List Byte) (s : State),
        s.AcceptsBlob src 0x2400 1 (chanRange first last) b (recipeCheck b.length)) ∧
    (∃ (src : Src) (first last : Nat) (s : State), s.Accepts src 0x2401 1 (chanRange first last) 1 startCheck ∧
        s.writeChecks src 0x2401 1 (chanRange first last) 1 startCheck = none) ∧
    (∃ (src : Src) (c : Nat) (s : State), s.Accepts src 0x2401 1 (chanRange c c) 2 stopCheck) ∧
    (∃ (src : Src) (first last : Nat) (s : State), s.Accepts src 0x2401 1 (chanRange first last) 2 stopCheck) ∧
    (∃ (src : Src) (first last : Nat) (s : State), s.Accepts src 0x2401 1 (chanRange first last) 3 continueCheck) ∧
    (∃ (c x : Nat) (s : State), s.chanPop c = true ∧ (s.run c).closeLt = some x) ∧
    (∃ (g x : Nat) (s : State), (s.group g).first = some x ∧ s.rdN 0x2405 (g + 1) dev ≠ 0 ∧
        x + s.rdN 0x2405 (g + 1) dev * 1000000 < s.clock.lastEpoch ∧ (s.group g).due = none ∧
        (s.missing g).isEmpty = false ∧ s.rd 0x2408 0 dev ≠ 1) ∧
    (∃ (g e : Nat) (s : State), (s.group g).due = some e ∧ e ≤ s.lt) :=
  ⟨⟨kw, 382, 383, (List.replicate 48 0), base, acceptsBlob_of (by decide +kernel)⟩,
    ⟨kw, 383, 383, recipe0, accepts_of (by decide +kernel), by decide +kernel⟩,
    ⟨kw, 383, (base.wr 0x2402 1 383 2), accepts_of (by decide +kernel)⟩,
    ⟨kw, 382, 383, ((base.wr 0x2402 1 382 2).wr 0x2402 1 383 2), accepts_of (by decide +kernel)⟩,
    ⟨kw, 382, 383, ((base.wr 0x2402 1 382 6).wr 0x2402 1 383 6), accepts_of (by decide +kernel)⟩,
    ⟨383, 5, (base.setChan 383 { run := { closeLt := some 5 } }), by decide +kernel⟩,
    ⟨5, 0, (((base.wr 0x2404 1 383 5).wr 0x2402 1 383 2).setGroup 5 { first := some 0 }), by decide +kernel⟩,
    ⟨127, 20000000000000, (base.setGroup 127 { due := some 20000000000000 }), by decide +kernel⟩⟩

/-- Every clause of DcLinkWindowsAndGrid has a state and operands that meet its premises. -/
theorem witness_DcLinkWindowsAndGrid :
    (∃ (k w : Nat) (s : State), k < 64 ∧ w < 4 ∧ s.winCount k ≤ (s.win k).beyond.getD w 0 ∧
        bit (s.rdN 0x3037 (k + 1) dev) w = false) ∧
    (∃ (k w : Nat) (s : State), k < 64 ∧ w < 4 ∧ s.winCount k ≤ (s.win k).inside.getD w 0 ∧
        bit (s.rdN 0x3037 (k + 1) dev) w = true) ∧
    (∃ (x : Nat) (s : State), s.power.ov1Since = some x ∧ s.power.fullRegen = true ∧ x + 10000000 ≤ s.lt) ∧
    (∃ (k : Nat) (s : State), k < 2 ∧ s.power.testing.map (·.1) ≠ some k) ∧
    (∃ (k : Nat) (s : State), k < 2 ∧ s.power.testing.map (·.1) = some k) ∧
    (∃ (k : Nat) (s : State), k < 2 ∧ s.power.testing.map (·.1) ≠ some k) ∧
    (∃ (k : Nat) (s : State), k < 2 ∧ s.power.testing.map (·.1) = some k) ∧
    (∃ (p k : Nat) (d : Nat) (s : State), (p, k, d) ∈ [(0, 0, 1000000), (1, 1, 1000000), (1, 2, 1000000), (1, 3,
        1000000), (2, 4, 10000000)] ∧ heldFor (s.power.cross.getD k none) d s.lt = true) ∧
    (∃ (k : Nat) (s : State), k < 2 ∧ heldFor (s.slot 0 k).staleSince 1000000 s.lt = true) :=
  ⟨⟨63, 3, (base.setWin 63 { beyond := [0, 0, 0, 4095] }), by decide +kernel⟩,
    ⟨63, 3, ((base.wr 0x3037 64 dev 8).setWin 63 { inside := [0, 0, 0, 4095] }), by decide +kernel⟩,
    ⟨19999990000000, (withPower fun p => { p with ov1Since := some 19999990000000, fullRegen := true }),
        by decide +kernel⟩,
    ⟨1, base, by decide +kernel⟩,
    ⟨1, (withPower fun p => { p with testing := some (1, 0) }), by decide +kernel⟩,
    ⟨1, base, by decide +kernel⟩,
    ⟨1, (withPower fun p => { p with testing := some (1, 0) }), by decide +kernel⟩,
    ⟨1, 3, 1000000, (withPower fun p => { p with cross := [none, none, none, some 19999999000000, none] }),
        by decide +kernel⟩,
    ⟨1, (base.setSlot 0 1 { staleSince := some 19999999000000 }), by decide +kernel⟩⟩

/-- Every clause of DcLinkStart has a state and operands that meet its premises. -/
theorem witness_DcLinkStart :
    (∃ (s : State), heldFor s.power.lockSince 100000000 s.lt = true) ∧
    (∃ (s : State), 56 ≤ s.power.lossJobs ∧ s.rd 0x3040 0xC dev ≠ 3) ∧
    (∃ (src : Src) (s : State), s.Accepts src 0x3050 1 [dev] 1 (powerCheck 1)) ∧
    (∃ (src : Src) (s : State), s.Accepts src 0x3050 1 [dev] 2 (powerCheck 2)) ∧
    (∃ (s : State), s.inStateFor 1 2000000000 = true) ∧
    (∃ (s : State), s.linkState = 2 ∧ s.kfbClosed 0 = true ∧ (s.kdrv 1).close = false ∧ s.power.testPulse = none ∧
        s.prechargeDone = true ∧ (s.adc 0 0).diagUntil = none) ∧
    (∃ (x : Nat) (s : State), s.linkState = 2 ∧ s.kfbClosed 0 = true ∧ (s.kdrv 1).close = false ∧
        s.power.testPulse = some x ∧ x ≤ s.lt ∧ s.power.chopProve = none) ∧
    (∃ (s : State), s.inStateFor 2 (s.rdN 0x3050 4 dev * 1000000) = true ∧ (s.kdrv 1).close = false) ∧
    (∃ (s : State), s.linkState = 2 ∧ (s.kdrv 1).close = true ∧ s.kfbClosed 1 = true) ∧
    (∃ (s : State), s.linkState = 3 ∧ s.power.vdcRef = s.rdN 0x3060 1 dev) :=
  ⟨⟨(withPower fun p => { p with lockSince := some 19999900000000 }), by decide +kernel⟩,
    ⟨(withPower fun p => { p with lossJobs := 56 }), by decide +kernel⟩,
    ⟨kw, ((base.wr 0x4000 2 dev 0).wr 0x1221 1 dev 250), accepts_of (by decide +kernel)⟩,
    ⟨kw, (base.wr 0x3050 2 dev 5), accepts_of (by decide +kernel)⟩,
    ⟨(link 1), by decide +kernel⟩,
    ⟨({ link 2 with sup := { base.sup with kdrv := [(0, { close := true, kfbClosed := true })] }, power := { base.power with vdcHist := [(19999990000000, 0)] } }),
        by decide +kernel⟩,
    ⟨19999999999999, ({ link 2 with sup := { base.sup with kdrv := [(0, { close := true, kfbClosed := true })] }, power := { base.power with chop := true, testPulse := some 19999999999999 } }),
        by decide +kernel⟩,
    ⟨(link 2), by decide +kernel⟩,
    ⟨({ link 2 with sup := { base.sup with kdrv := [(1, { close := true, kfbClosed := true })] } }),
        by decide +kernel⟩,
    ⟨({ link 3 with power := { base.power with vdcRef := 760 } }), by decide +kernel⟩⟩

/-- Every clause of DcLinkRunAndStop has a state and operands that meet its premises. -/
theorem witness_DcLinkRunAndStop :
    (∃ (s : State), s.linkState = 4 ∧ s.sites.all s.busReady = true) ∧
    (∃ (cause : Nat) (s : State), cause ∈ stopCodes) ∧
    (∃ (x : Nat) (s : State), s.power.stopAt = some x ∧ s.linkState = 6 ∧ s.power.segStopped = false ∧ x ≤ s.lt) ∧
    (∃ (s : State), s.linkState = 6 ∧ s.power.segStopped = true ∧ (s.kdrv 0).openSince.isSome = true ∧
        (s.kdrv 1).openSince.isSome = true) ∧
    (∃ (s : State), s.linkState = 5 ∧ heldFor s.power.underSince 1000000 s.lt = true) ∧
    (∃ (s : State), s.fw = true ∧ ((∀ x, s.power.vdcSent = some x → x + 10000 ≤ s.lt))) :=
  ⟨⟨(link 4), by decide +kernel⟩,
    ⟨20, (link 5), by decide +kernel⟩,
    ⟨20000000000000, ({ link 6 with power := { base.power with stopAt := some 20000000000000 } }),
        by decide +kernel⟩,
    ⟨({ link 6 with power := { base.power with segStopped := true }, sup := { base.sup with kdrv := [(0, { openSince := some 5 }), (1, { openSince := some 6 })] } }),
        by decide +kernel⟩,
    ⟨({ link 5 with power := { base.power with underSince := some 19999999000000 } }), by decide +kernel⟩,
    ⟨base, by decide +kernel⟩⟩

/-- Every clause of DabStagesAndChopper has a state and operands that meet its premises. -/
theorem witness_DabStagesAndChopper :
    (∃ (n i : Nat) (s : State), s.sitePop n = true ∧ i < 2 ∧
        heldFor ((s.die n).dab i).limitSince 10000000 s.lt = true ∧
        ((s.rd 0x3101 (1 + i) (siteI n) = 1 ∨ s.rd 0x3101 (1 + i) (siteI n) = 2))) ∧
    (∃ (n i : Nat) (s : State), s.sitePop n = true ∧ i < 2 ∧
        heldFor (s.slot n (64 + i)).staleSince 200000 s.lt = true ∧ ((s.die n).dab i).latched = false) ∧
    (∃ (x : Nat) (s : State), s.power.chopProve = some x ∧ s.power.chop = true ∧ x ≤ s.lt ∧
        s.provable 0 7 s.power.chopSince = true) ∧
    (∃ (s : State), s.power.chop = false ∧ (s.adc 0 0).diagUntil = none ∧ s.rd 0x3070 3 dev ≠ 3 ∧
        3 ≤ s.power.shortRun) ∧
    (∃ (s : State), s.power.chop = true ∧ s.power.chopSince + s.rdN 0x3070 2 dev * 1000000 < s.lt) ∧
    (∃ (x : Nat) (s : State), s.power.adis = true ∧ s.rd 0x3070 8 dev = 1 ∧ s.power.adisProve = some x ∧ x ≤ s.lt ∧
        s.provable 1 23 s.power.adisSince = true) ∧
    (∃ (x : Nat) (s : State), s.power.below60 = some x ∧ s.power.adis = true ∧ x + 100000000 ≤ s.lt) ∧
    (∃ (s : State), s.power.adis = true ∧ (s.rdN 0x3070 5 dev : Rat) ≤ s.power.energy) :=
  ⟨⟨6, 1, ((base.wr 0x3101 2 (siteI 6) 2).setDie 6 { dab1 := { limitSince := some 19999990000000 } }),
        by decide +kernel⟩,
    ⟨6, 1, (base.setSlot 6 65 { staleSince := some 19999999800000 }), by decide +kernel⟩,
    ⟨20000000000000, (withPower fun p => { p with chop := true, chopProve := some 20000000000000 }),
        by decide +kernel⟩,
    ⟨(withPower fun p => { p with shortRun := 3 }), by decide +kernel⟩,
    ⟨(withPower fun p => { p with chop := true, chopSince := 0 }), by decide +kernel⟩,
    ⟨20000000000000, ((withPower fun p => { p with adis := true, adisProve := some 20000000000000 }).wr 0x3070 8 dev 1),
        by decide +kernel⟩,
    ⟨19999900000000, (withPower fun p => { p with adis := true, below60 := some 19999900000000 }),
        by decide +kernel⟩,
    ⟨(withPower fun p => { p with adis := true, energy := 1000 }), by decide +kernel⟩⟩

/-- Every clause of SensorlessStart has a state and operands that meet its premises. -/
theorem witness_SensorlessStart :
    (∃ (a : Nat) (c : Crossing) (s : State), isDrive a = true ∧ ((s.driveState a = 5 ∨ s.driveState a = 6)) ∧
        s.accepts a c = true ∧ ((s.driveState a = 5 → s.jobAt a (s.cnt 0) < s.jobAt a ((s.drive a).lastCross + (s.lockCounts a).ceil.toNat)))) ∧
    (∃ (a : Nat) (c : Crossing) (s : State), isDrive a = true ∧ s.driveState a = 4 ∧ s.accepts a c = true ∧
        (s.drive a).fits c.at' = true ∧ s.rdN 0x340D (a + 1) dev ≤ (s.drive a).consistent + 1 ∧
        (s.rd 0x340C (a + 1) dev : Rat) ≤ (s.rampNow a).1 ∧ s.jobAt a (s.cnt 0) ≤ s.jobAtLt a (s.rampEnd a)) ∧
    (∃ (a : Nat) (c : Crossing) (s : State), isDrive a = true ∧ ((s.driveState a = 1 ∨ (s.driveState a = 2 ∧
        (s.drive a).floating = true))) ∧ c.at' + 640 ≤ s.cnt 0) ∧
    (∃ (a x : Nat) (s : State), isDrive a = true ∧ (s.die 0).halted = false ∧
        ((s.driveState a = 5 ∨ s.driveState a = 6)) ∧ (s.drive a).nextComm = some x ∧ x ≤ s.cnt 0) ∧
    (∃ (a : Nat) (s : State), isDrive a = true ∧ (s.die 0).halted = false ∧ s.driveState a = 1 ∧
        (s.drive a).since + 200000000 ≤ s.lt) ∧
    (∃ (a : Nat) (s : State), isDrive a = true ∧ (s.die 0).halted = false ∧ s.driveState a = 2 ∧
        (s.drive a).floating = false ∧ (s.drive a).since + 50000000 ≤ s.lt) ∧
    (∃ (a : Nat) (s : State), isDrive a = true ∧ (s.die 0).halted = false ∧ s.driveState a = 2 ∧
        (s.drive a).floating = true ∧ (s.drive a).since + s.windowNs a ≤ s.lt ∧ s.lt < s.brakeEnd a ∧
        s.jobAt a (s.cnt 0) < s.jobAtLt a (s.brakeEnd a)) ∧
    (∃ (a : Nat) (s : State), isDrive a = true ∧ s.driveState a = 2 ∧ s.brakeEnd a ≤ s.lt) ∧
    (∃ (a : Nat) (s : State), isDrive a = true ∧ (s.die 0).halted = false ∧ s.driveState a = 3 ∧
        (s.drive a).since + s.rdN 0x340A (a + 1) dev * 1000000 ≤ s.lt) ∧
    (∃ (a : Nat) (s : State), isDrive a = true ∧ s.driveState a = 4 ∧ s.rampEnd a ≤ s.lt ∧
        s.jobAtLt a (s.rampEnd a) < s.jobAt a (s.cnt 0)) :=
  ⟨⟨3, ⟨2, false, 6399999999000⟩, ((base.wr 0x341A 4 dev 6).setDrive 3 { lastComm := 6399999998000 }),
        by decide +kernel⟩,
    ⟨3, ⟨2, false, 6399999999000⟩, (((base.wr 0x341A 4 dev 4).wr 0x340C 4 dev 0).setDrive 3 { consistent := 5, lastComm := 6399999998000, t1 := 2000, t2 := 2000, since := 20000000000000 }),
        by decide +kernel⟩,
    ⟨3, ⟨2, true, 6399999999000⟩, (base.wr 0x341A 4 dev 1), by decide +kernel⟩,
    ⟨3, 6400000000000, ((base.wr 0x341A 4 dev 5).setDrive 3 { nextComm := some 6400000000000 }), by decide +kernel⟩,
    ⟨3, (base.wr 0x341A 4 dev 1), by decide +kernel⟩,
    ⟨3, ((base.wr 0x341A 4 dev 2).setDrive 3 { floating := false }), by decide +kernel⟩,
    ⟨3, ((base.wr 0x341A 4 dev 2).setDrive 3 { floating := true, brakeSince := 19999000000000 }), by decide +kernel⟩,
    ⟨3, (base.wr 0x341A 4 dev 2), by decide +kernel⟩,
    ⟨3, (base.wr 0x341A 4 dev 3), by decide +kernel⟩,
    ⟨3, (base.wr 0x341A 4 dev 4), by decide +kernel⟩⟩

/-- Every clause of SensorlessFaults has a state and operands that meet its premises. -/
theorem witness_SensorlessFaults :
    (∃ (a : Nat) (s : State), isDrive a = true ∧ s.driveState a = 5 ∧
        ((s.drive a).lastCross : Rat) + s.lockCounts a ≤ (s.cnt 0 : Rat)) ∧
    (∃ (a : Nat) (s : State), isDrive a = true ∧ s.driveState a = 7 ∧
        (s.drive a).since + s.rdN 0x3412 (a + 1) dev * 1000000 ≤ s.lt) ∧
    (∃ (a : Nat) (s : State), isDrive a = true ∧ s.driveState a = 5 ∧ (s.drive a).since + 10000000000 ≤ s.lt) ∧
    (∃ (a : Nat) (s : State), isDrive a = true ∧ (s.drive a).loadDone = false ∧ s.loadExpired a = true) ∧
    (∃ (src : Src) (a : Nat) (rpm : Int) (s : State), s.Accepts src 0x3400 (a + 1) [dev] rpm (setpointCheck a rpm) ∧
        s.writeChecks src 0x3400 (a + 1) [dev] rpm (setpointCheck a rpm) = none) :=
  ⟨⟨3, (base.wr 0x341A 4 dev 5), by decide +kernel⟩,
    ⟨3, (base.wr 0x341A 4 dev 7), by decide +kernel⟩,
    ⟨3, (base.wr 0x341A 4 dev 5), by decide +kernel⟩,
    ⟨3, (base.setDrive 3 { loadSince := some 0 }), by decide +kernel⟩,
    ⟨kw, 3, (-6000), base, accepts_of (by decide +kernel), by decide +kernel⟩⟩

/-- Every clause of StepperAxes has a state and operands that meet its premises. -/
theorem witness_StepperAxes :
    (∃ (k : Nat) (s : State), k < 8 ∧ heldFor (s.slot 0 (4 + k)).staleSince 1000000 s.lt = true) ∧
    (∃ (src : Src) (a : Nat) (p : Int) (s : State), s.Accepts src 0x3441 (a + 1) [dev] p (targetCheck a p)) ∧
    (∃ (a : Nat) (dir : Bool) (s : State), isDrive a = true ∧ s.rd 0x3440 (a + 1) dev = 1 ∧ s.axisState a ≠ 7 ∧
        s.axisState a ≠ 8 ∧ s.limitActive a dir = false) ∧
    (∃ (a : Nat) (dir : Bool) (s : State), isDrive a = true ∧ s.rd 0x3440 (a + 1) dev = 1 ∧ s.axisState a ≠ 7 ∧
        ((s.axisState a = 8 ∨ s.limitActive a dir = true))) ∧
    (∃ (a : Nat) (s : State), isDrive a = true ∧ s.rd 0x3440 (a + 1) dev = 1 ∧ s.axisState a ≠ 8 ∧
        s.axisState a ≠ 7 ∧ 16 * s.rd 0x344B (a + 1) dev * ustep < ((s.axis a).c - (s.axis a).x).natAbs) ∧
    (∃ (a : Nat) (pos level : Bool) (s : State), isDrive a = true ∧ ((∀ x,
        (if pos then (s.axis a).limPAt else (s.axis a).limNAt) = some x → x + 20000 ≤ s.lt))) ∧
    (∃ (a : Nat) (s : State), isDrive a = true ∧ s.axisState a = 0 ∧ (s.axis a).holdAt = none ∧
        heldFor (s.axis a).stillSince (s.rdN 0x344A (a + 1) dev * 1000000) s.lt = true) ∧
    (∃ (src : Src) (a : Nat) (v : Int) (s : State), s.Accepts src 0x344D (a + 1) [dev] v (referenceCheck a)) :=
  ⟨⟨7, (base.setSlot 0 11 { staleSince := some 19999999000000 }), by decide +kernel⟩,
    ⟨kw, 3, (-5), base, accepts_of (by decide +kernel)⟩,
    ⟨3, true, (base.wr 0x3440 4 dev 1), by decide +kernel⟩,
    ⟨3, true, ((base.wr 0x3440 4 dev 1).wr 0x344F 4 dev 8), by decide +kernel⟩,
    ⟨3, ((base.wr 0x3440 4 dev 1).setAxis 3 { c := 1099511627777 }), by decide +kernel⟩,
    ⟨3, true, true, base, by decide +kernel⟩,
    ⟨3, (base.setAxis 3 { stillSince := some 0 }), by decide +kernel⟩,
    ⟨kw, 3, (-7), base, accepts_of (by decide +kernel)⟩⟩

/-- Every clause of SafeTorqueOff has a state and operands that meet its premises. -/
theorem witness_SafeTorqueOff :
    (∃ (out : Nat) (s : State), out < 4 ∧ (s.sout out).on = false) ∧
    (∃ (out : Nat) (s : State), out < 4 ∧ (s.sout out).on = true) ∧
    (∃ (out : Nat) (s : State), out < 4 ∧ (s.sout out).ss1At.isSome = true) ∧
    (∃ (out x : Nat) (s : State), out < 4 ∧ (s.sout out).ss1At = some x ∧ ((s.allSlow out = true ∨ x ≤ s.lt))) :=
  ⟨⟨3, base, by decide +kernel⟩,
    ⟨3, (withOut 3 { on := true }), by decide +kernel⟩,
    ⟨3, (withOut 3 { ss1At := some 5 }), by decide +kernel⟩,
    ⟨3, 5, (withOut 3 { ss1At := some 5 }), by decide +kernel⟩⟩

/-- Every clause of SupervisorInputs has a state and operands that meet its premises. -/
theorem witness_SupervisorInputs :
    (∃ (x : SupSample) (s : State), s.vsys = true ∧ s.supRuns = true ∧ ((∀ a,
        s.sup.cycleAt = some a → a + 100000 ≤ s.lt))) ∧
    (∃ (k : Nat) (s : State), s.supRuns = true ∧ k < 8 ∧ 1 ≤ s.inFn k ∧ s.inFn k ≤ 3 ∧ 2 ≤ (s.sin k).low ∧
        (s.sin k).demand = false) ∧
    (∃ (k : Nat) (s : State), s.supRuns = true ∧ k < 8 ∧ 2 ≤ (s.sin k).high ∧ (s.sin k).demand = true ∧
        (((s.sin k).recovered = true ∨ (s.sin k).faulted = false))) ∧
    (∃ (x : Nat) (s : State), s.sup.stopDelayAt = some x ∧ x ≤ s.lt) ∧
    (∃ (x : Nat) (s : State), s.sup.openDelayAt = some x ∧ x ≤ s.lt) ∧
    (∃ (x : Nat) (s : State), s.sup.adisAt = some x ∧ x ≤ s.lt ∧ s.kfbClosed 0 = false ∧ s.kfbClosed 1 = false) ∧
    (∃ (k : Nat) (s : State), s.supRuns = true ∧ k < 8 ∧ s.inFn k ≠ 0 ∧ 3 ≤ (s.sin k).invalid ∧
        (s.sin k).faulted = false) ∧
    (∃ (p : Nat) (s : State), s.supRuns = true ∧ p < 2 ∧ s.pulseDue p = true) ∧
    (∃ (code : Nat) (s : State), s.supRuns = true ∧ 1 ≤ code ∧ code ≤ 3 ∧
        heldFor (s.sup.disagree.getD (code - 1) none) (s.rdN 0x4003 1 dev * 1000000) s.lt = true) ∧
    (∃ (k : Nat) (s : State), s.supRuns = true ∧ k < 8 ∧ s.inputRecovers k = true) :=
  ⟨⟨⟨[], [], [], []⟩, base, by decide +kernel⟩,
    ⟨4, (withIn 4 { low := 2 }), by decide +kernel⟩,
    ⟨7, (withIn 7 { high := 2, demand := true }), by decide +kernel⟩,
    ⟨20000000000000, (withSup fun p => { p with stopDelayAt := some 20000000000000 }), by decide +kernel⟩,
    ⟨20000000000000, (withSup fun p => { p with openDelayAt := some 20000000000000 }), by decide +kernel⟩,
    ⟨20000000000000, (withSup fun p => { p with adisAt := some 20000000000000 }), by decide +kernel⟩,
    ⟨5, (withIn 5 { invalid := 3 }), by decide +kernel⟩,
    ⟨1, (withSup fun p => { p with lastPulse := [some 19999000000000, some 5] }), by decide +kernel⟩,
    ⟨2, (withSup fun p => { p with disagree := [none, some 0, none] }), by decide +kernel⟩,
    ⟨0, (withIn 0 { faulted := true, recovered := false, passes := 2 }), by decide +kernel⟩⟩

/-- Every clause of TemperatureAndDoors has a state and operands that meet its premises. -/
theorem witness_TemperatureAndDoors :
    (∃ (c : Nat) (s : State), s.chanPop c = true ∧
        heldFor (s.chan c).sup.door (s.rdN 0x4031 0 dev * 1000000) s.lt = true ∧ s.latched c = false) ∧
    (∃ (n c : Nat) (codes : List Nat) (u : State) (s : State), s.sitePop n = true ∧ n ≤ 6 ∧ c ∈ siteChans n ∧
        (s.die n).overAt ≠ some (s.lt / 1000000) ∧
        each ((siteChans n).zip codes) (fun v x => v.takeTemp x.1 x.2) (s.setDie n { s.die n with overAt := some (s.lt / 1000000) }) = u ∧
        u.tempWatched c = true ∧ u.rd 0x4032 0 c < (u.chan c).temp ∧ (u.chan c).sup.overTemp = 1) ∧
    (∃ (n c : Nat) (m : Int) (s : State), s.sitePop n = true ∧ n ≤ 6 ∧ c ∈ siteChans n ∧
        (s.die n).plausAt ≠ some (s.lt / 100000000) ∧ s.tempWatched c = true ∧ (s.chan c).mTemp = some m) ∧
    (∃ (c : Nat) (s : State), s.chanPop c = true ∧ s.tempWatched c = true ∧
        heldFor (s.chan c).sup.tempDiff 1000000000 s.lt = true ∧ s.latched c = false) ∧
    (∃ (s : State), s.supRuns = true ∧ s.sup.appMissing = false) :=
  ⟨⟨383, (base.setChan 383 { sup := { door := some 0 } }), by decide +kernel⟩,
    ⟨6, 383, [], ((base.setChan 383 { temp := 60001, sup := { overTemp := 1 } }).setDie 6 { ((base.setChan 383 { temp := 60001, sup := { overTemp := 1 } }).die 6) with overAt := some 20000000 }),
        (base.setChan 383 { temp := 60001, sup := { overTemp := 1 } }), by decide +kernel, by decide +kernel,
        by decide +kernel, by decide +kernel, rfl, by decide +kernel⟩,
    ⟨6, 383, 25100, (base.setChan 383 { mTemp := some 25100 }), by decide +kernel⟩,
    ⟨383, (base.setChan 383 { sup := { tempDiff := some 0 } }), by decide +kernel⟩,
    ⟨base, by decide +kernel⟩⟩

/-- Every clause of SafetyResetOutputsContactors has a state and operands that meet its premises. -/
theorem witness_SafetyResetOutputsContactors :
    (∃ (k x : Nat) (s : State), (s.sin k).highSince = some x ∧ s.supRuns = true ∧ k < 8 ∧ s.inFn k = 4 ∧
        (((s.sin k).recovered = true ∨ (s.sin k).faulted = false)) ∧ (s.sin k).level = 0 ∧ x + 100000000 ≤ s.lt ∧
        s.lt ≤ x + 2000000000 ∧ ((bit (s.rdN 0x4000 2 dev) 0 = true ∨ s.sup.appMissing = true))) ∧
    (∃ (k x : Nat) (s : State), (s.sin k).highSince = some x ∧ s.supRuns = true ∧ k < 8 ∧ s.inFn k = 4 ∧
        (((s.sin k).recovered = true ∨ (s.sin k).faulted = false)) ∧ (s.sin k).level = 0 ∧ x + 100000000 ≤ s.lt ∧
        s.lt ≤ x + 2000000000 ∧ bit (s.rdN 0x4000 2 dev) 0 = false ∧ s.sup.appMissing = false) ∧
    (∃ (src : Src) (v : Nat) (s : State), s.Accepts src 0x4007 0 [dev] v resetCheck) ∧
    (∃ (src : Src) (n v : Nat) (s : State), n < 4 ∧ s.Accepts src 0x4014 (n + 1) [dev] v (fun _ _ => aDone)) ∧
    (∃ (n k : Nat) (s : State), s.supRuns = true ∧ n < 4 ∧ s.pulseSlot n = some k ∧ (s.sout n).slotNo ≠ some k ∧
        (s.sout n).slotAt = none) ∧
    (∃ (n x : Nat) (rb : Int) (s : State), s.supRuns = true ∧ n < 4 ∧ (s.sout n).slotAt = some x ∧
        x + s.rdN 0x4013 0 dev * 1000 ≤ s.lt) ∧
    (∃ (n : Nat) (s : State), s.supRuns = true ∧ n < 4 ∧ 3 ≤ (s.sout n).bad ∧ (s.sout n).fault = 0) ∧
    (∃ (src : Src) (k v : Nat) (s : State), s.Accepts src 0x4023 (k - 1) [dev] v (fun _ _ => aDone)) ∧
    (∃ (k : Nat) (s : State), k < 4 ∧ s.supRuns = true ∧ s.kdrvUsed k = true ∧ (s.kdrv k).settled = false ∧
        (s.kdrv k).cmdAt + 150000000 ≤ s.lt) ∧
    (∃ (k : Nat) (s : State), k < 4 ∧ s.supRuns = true ∧ s.kdrvUsed k = true ∧ 3 ≤ (s.kdrv k).drvBad ∧
        (s.kdrv k).bad < 3) ∧
    (∃ (k : Nat) (s : State), k < 4 ∧ s.supRuns = true ∧ s.kdrvUsed k = true ∧ (s.kdrv k).close = false ∧
        (s.kdrv k).kfbClosed = true ∧ 3 ≤ (s.kdrv k).bad ∧ (s.kdrv k).welded = false) :=
  ⟨⟨5, 19999900000000, ((withIn 5 { highSince := some 19999900000000 }).wr 0x4000 2 dev 1), by decide +kernel⟩,
    ⟨5, 19998000000000, (withIn 5 { highSince := some 19998000000000 }), by decide +kernel⟩,
    ⟨kw, 1, (base.wr 0x4006 0 dev 1), accepts_of (by decide +kernel)⟩,
    ⟨kw, 3, 1, base, by decide +kernel, accepts_of (by decide +kernel)⟩,
    ⟨3, 199999, (withOut 3 { on := true }), by decide +kernel⟩,
    ⟨3, 5, 5000, (withOut 3 { on := true, pulse := true, slotAt := some 5 }), by decide +kernel⟩,
    ⟨3, (withOut 3 { bad := 3 }), by decide +kernel⟩,
    ⟨kw, 3, 1, base, accepts_of (by decide +kernel)⟩,
    ⟨1, (withDrv 1 { settled := false }), by decide +kernel⟩,
    ⟨1, (withDrv 1 { drvBad := 3 }), by decide +kernel⟩,
    ⟨1, (withDrv 1 { bad := 3, kfbClosed := true }), by decide +kernel⟩⟩

/-- Every clause of SafeState has a state and operands that meet its premises. -/
theorem witness_SafeState :
    (∃ (s : State), s.rd 0x4000 1 dev ≠ 2) ∧
    (∃ (dv : Int) (s : State), s.rd 0x4000 1 dev ≠ 2 ∧ 500 < dv.natAbs) ∧
    (∃ (s : State), s.rd 0x4000 1 dev ≠ 2) ∧
    (∃ (s : State), s.rd 0x4000 1 dev ≠ 2) ∧
    (∃ (s : State), s.rd 0x4000 1 dev ≠ 2) :=
  ⟨⟨base, by decide +kernel⟩,
    ⟨(-501), base, by decide +kernel⟩,
    ⟨base, by decide +kernel⟩,
    ⟨base, by decide +kernel⟩,
    ⟨base, by decide +kernel⟩⟩

/-- Every clause of ParameterProtection has a state and operands that meet its premises. -/
theorem witness_ParameterProtection :
    (∃ (src : Src) (v : Nat) (s : State), s.Accepts src 0x40F0 3 [dev] v (fun _ _ => aDone)) ∧
    (∃ (src : Src) (i j : Nat) (e : Inst) (v : Int) (s : State), isRwp i j (instOf e) = true ∧
        s.Accepts src i j [instOf e] v (rwpCheck i j v)) ∧
    (∃ (s : State), s.net.unlockBy.isSome = true ∧ s.net.unlockLt + tenMinutes ≤ s.lt) ∧
    (∃ (s : State), s.lockbox.lockedAt.isSome = true ∧ s.lockedOut = false) :=
  ⟨⟨kw, 1, base, accepts_of (by decide +kernel)⟩,
    ⟨kw, 0x4003, 1, .dev, 200, unlocked, by decide +kernel, accepts_of (by decide +kernel)⟩,
    ⟨(withNet fun n => { n with unlockBy := some kw, unlockLt := 19400000000000 }), by decide +kernel⟩,
    ⟨({ base with lockbox := { lockedAt := some 19400000000000 } }), by decide +kernel⟩⟩

/-- Every clause of ClocksAndSynchronisation has a state and operands that meet its premises. -/
theorem witness_ClocksAndSynchronisation :
    (∃ (die : Nat) (s : State), s.diePop die = true ∧ (s.die die).refPresent = true) ∧
    (∃ (die : Nat) (s : State), s.diePop die = true ∧ (s.die die).refPresent = false) ∧
    (∃ (s : State), s.clock.xtal = true) ∧
    (∃ (s : State), s.clock.xtal = false) ∧
    (∃ (l count : Nat) (s : State), s.loopPop l = true ∧ (s.die (loopDie l)).refPresent = true ∧ (s.loop l).state = 2) ∧
    (∃ (l count : Nat) (s : State), s.loopPop l = true ∧ (s.die (loopDie l)).refPresent = true ∧
        (s.loop l).state = 1 ∧ s.coastDue l = false ∧ ((count : Int) - expectedCount l).natAbs ≤ 2) ∧
    (∃ (l : Nat) (s : State), s.loopPop l = true ∧ s.coastDue l = true) ∧
    (∃ (gm ratio : Int) (port : Nat) (s : State), s.isSlave = true ∧ s.rd 0x1111 5 dev = port ∧ s.rd 0x1200 1 dev ≠ 4) ∧
    (∃ (s : State), ((s.rd 0x1111 1 dev = 1 ∨ s.rd 0x1111 1 dev = 2)) ∧ s.clock.lastSync + 3 * s.syncNs < s.lt) ∧
    (∃ (off : Int) (e : Nat) (s : State), s.clock.step = some off ∧ s.epochDue = some e ∧ s.vsys = true ∧
        s.mayStep = true) ∧
    (∃ (e : Nat) (errs : List Int) (s : State), s.epochDue = some e ∧ s.vsys = true ∧
        ((s.clock.step = none ∨ s.mayStep = false))) ∧
    (∃ (src : Src) (n : Nat) (s : State), s.Accepts src 0x1101 1 [dev] n (epochCheck n)) :=
  ⟨⟨6, base, by decide +kernel⟩,
    ⟨6, (base.setDie 6 { refPresent := false }), by decide +kernel⟩,
    ⟨base, by decide +kernel⟩,
    ⟨(withClock fun c => { c with xtal := false }), by decide +kernel⟩,
    ⟨0, 98304, (withClock fun c => { c with core := { state := 2 } }), by decide +kernel⟩,
    ⟨7, 262146, (base.setDie 6 { loop := { state := 1 } }), by decide +kernel⟩,
    ⟨7, (base.setDie 6 { loop := { state := 2, coastAt := some 0 } }), by decide +kernel⟩,
    ⟨5, 0, 1, ((base.wr 0x1111 1 dev 1).wr 0x1111 5 dev 1), by decide +kernel⟩,
    ⟨(base.wr 0x1111 1 dev 2), by decide +kernel⟩,
    ⟨(-3), 20000000000000, (withClock fun c => { c with step := some (-3) }), by decide +kernel⟩,
    ⟨20000000000000, [], base, by decide +kernel⟩,
    ⟨kw, 10, base, accepts_of (by decide +kernel)⟩⟩

/-- Every clause of PowerStates has a state and operands that meet its premises. -/
theorem witness_PowerStates :
    (∃ (n : Nat) (s : State), s.sitePop n = true ∧ n ≤ 6 ∧ s.restCond n = true ∧
        heldFor (s.die n).restSince (s.rdN 0x1210 2 (siteI n) * 1000000) s.lt = true) ∧
    (∃ (c v x : Nat) (s : State), s.chanPop c = true ∧ s.rd 0x1200 1 (siteI (dieOf c)) = 2 ∧
        s.leavesBand c (s.pathValue c 0 v) (s.pathValue c 2 x) = true) ∧
    (∃ (n x : Nat) (s : State), s.sitePop n = true ∧ (s.die n).wakeAt = some x ∧ x ≤ s.lt ∧
        s.rd 0x1200 1 (siteI n) = 2) ∧
    (∃ (n a b : Nat) (v : Int) (s : State), s.sitePop n = true ∧ s.busUv n (some a) (some b) = some v ∧
        50 * (v - s.rd 0x3100 4 (siteI n) * 1000).natAbs ≤ (s.rd 0x3100 4 (siteI n) * 1000).natAbs) ∧
    (∃ (src : Src) (s : State), s.Accepts src 0x1201 1 [dev] 1 (powerReqCheck 1)) ∧
    (∃ (src : Src) (s : State), s.Accepts src 0x1201 1 [dev] 3 (powerReqCheck 3)) ∧
    (∃ (src : Src) (s : State), s.Accepts src 0x1201 1 [dev] 4 (powerReqCheck 4)) ∧
    (∃ (s : State), ((s.standbyDue = 3 ∨ s.standbyDue = 4)) ∧ s.epochDue.isSome = true ∧ s.mayStandby = true) ∧
    (∃ (k : Nat) (s : State), s.rd 0x1200 1 dev = 4 ∧ k < 4 ∧ bit (s.rdN 0x1201 2 dev) k = true) ∧
    (∃ (s : State), s.rd 0x1200 1 dev = 4 ∧ bit (s.rdN 0x1201 2 dev) 4 = true ∧ s.sleepTimer = true) ∧
    (∃ (hash : List Byte) (s : State), s.waking = true) :=
  ⟨⟨6, (base.setDie 6 { restSince := some 19999900000000 }), by decide +kernel⟩,
    ⟨383, 13107, 5, (((base.wr 0x1200 1 (siteI 6) 2).wr 0x2402 1 383 2).wr 0x2000 7 383 0x12000000),
        by decide +kernel, by decide +kernel, (by change State.leavesBand _ _ (wholeOf (State.pathUv _ 0 383 ((13107 : Nat) : Rat))) _ = true; rw [cell_uv (by decide +kernel) (by decide +kernel)]; exact band_left (by decide +kernel) (by decide +kernel) (by decide +kernel) (by decide +kernel))⟩,
    ⟨6, 20000000000000, ((base.wr 0x1200 1 (siteI 6) 2).setDie 6 { wakeAt := some 20000000000000 }),
        by decide +kernel⟩,
    ⟨6, 39321, 39321, 12000000, (base.wr 0x3100 4 (siteI 6) 12000), by decide +kernel,
        (by change some (wholeOf ([State.pathUv _ 3 (chanOf 6 (4 * 0)) ((39321 : Nat) : Rat),
        State.pathUv _ 3 (chanOf 6 (4 * 8)) ((39321 : Nat) : Rat)].sum / ((2 : Nat) : Rat))) = some 12000000; rw [sense_uv (by decide +kernel) (by decide +kernel),
        sense_uv (by decide +kernel) (by decide +kernel)]; decide +kernel), by decide +kernel⟩,
    ⟨kw, (base.wr 0x1200 1 dev 3), accepts_of (by decide +kernel)⟩,
    ⟨kw, base, accepts_of (by decide +kernel)⟩,
    ⟨kw, base, accepts_of (by decide +kernel)⟩,
    ⟨({ base with standbyDue := 4 }), by decide +kernel⟩,
    ⟨0, (base.wr 0x1200 1 dev 4), by decide +kernel⟩,
    ⟨(((base.wr 0x1200 1 dev 4).wr 0x1201 2 dev 16).wr 0x1201 3 dev 1), by decide +kernel⟩,
    ⟨[], ({ base with waking := true }), by decide +kernel⟩⟩

/-- Every clause of SupplyBanks has a state and operands that meet its premises. -/
theorem witness_SupplyBanks :
    (∃ (b mv : Nat) (s : State), s.bankWatched b = true ∧ mv < bankThreshold (s.bank b).cls ∧ s.vioUnder b = false) ∧
    (∃ (b mv : Nat) (s : State), s.bankWatched b = true ∧ (s.bank b).since + 320000 ≤ s.clock.cnt ∧
        (s.bank b).cls ≠ 0 ∧ s.vioUnder b = true ∧ bankThreshold (s.bank b).cls ≤ mv) ∧
    (∃ (b mv : Nat) (s : State), s.bankWatched b = true ∧ (s.bank b).since + 320000 ≤ s.clock.cnt ∧
        (s.bank b).cls = 0) ∧
    (∃ (x : Int) (s : State), s.fw = true) :=
  ⟨⟨8, 2804, (withQm fun q => { q with bankM := { cls := 2 } }), by decide +kernel⟩,
    ⟨7, 1530, ({ base with banks := [(7, { cls := 1 })] }.wr 0x1220 4 dev 128), by decide +kernel⟩,
    ⟨8, 3300, (withQm fun q => { q with vioM := false, bankM := {} }), by decide +kernel⟩,
    ⟨1201, base, by decide +kernel⟩⟩

/-- Every clause of ReadsAndWrites has a state and operands that meet its premises. -/
theorem witness_ReadsAndWrites :
    (∃ (id seq : Nat) (x : Span) (b : List Byte) (u : State) (s : State), s.Hears (.keyway id seq) ∧
        (s.atRequest (.keyway id seq)).readSpan (.keyway id seq) x false = .ok (u, b)) ∧
    (∃ (id seq : Nat) (x : Span) (r : Refuse) (s : State), s.Hears (.keyway id seq) ∧
        (s.atRequest (.keyway id seq)).readSpan (.keyway id seq) x false = .error r) ∧
    (∃ (id seq : Nat) (s : State), s.Hears (.keyway id seq)) ∧
    (∃ (src : Src) (x : Span) (b p : List Byte) (u : State) (s : State), s.Hears src ∧
        (s.atRequest src).writeSpan src x b false false = (u, .ok p) ∧ u.resetReq = {}) ∧
    (∃ (id seq v : Nat) (s : State), s.Hears (.keyway id seq) ∧ s.resetReq = {} ∧ 10 ≤ v ∧ v ≤ 3600) ∧
    (∃ (id seq : Nat) (x : Span) (b : List Byte) (u : State) (s : State), s.Hears (.keyway id seq) ∧
        (s.atRequest (.keyway id seq)).readSpan (.keyway id seq) x true = .ok (u, b)) ∧
    (∃ (id seq c : Nat) (s : State), s.Hears (.keyway id seq) ∧ c < 0x180 ∧ s.instCheck 0x2403 c = aDone) ∧
    (∃ (src : Src) (x : Span) (b p : List Byte) (u : State) (s : State), s.Hears src ∧
        (s.atRequest src).writeSpan src x b true false = (u, .ok p) ∧ u.resetReq = {}) ∧
    (∃ (id seq a b v : Nat) (s : State), s.Hears (.keyway id seq) ∧ s.resetReq = {} ∧ a ≤ b ∧ b < 0x180 ∧ ((∀ c,
        a ≤ c → c ≤ b → s.instCheck 0x2403 c = aDone)) ∧ v < 2 ^ 32) ∧
    (∃ (c : Nat) (s : State), s.Hears .user ∧ c < 0x180 ∧ s.instCheck 0x2403 c = aDone) ∧
    (∃ (c v : Nat) (s : State), s.Hears .user ∧ s.resetReq = {} ∧ c < 0x180 ∧ s.instCheck 0x2403 c = aDone ∧
        v < 2 ^ 32) ∧
    (∃ (id seq op w3 w4 : Nat) (s : State), s.Hears (.keyway id seq) ∧ hostOps.contains op = false) :=
  ⟨⟨1, 1, ⟨0x1302, 0, 1, .dev, .dev⟩, [60, 0], ((base.atRequest kw).draw), base, hears_of (by decide +kernel),
        by decide +kernel⟩,
    ⟨1, 1, ⟨0x1302, 9, 1, .dev, .dev⟩, ⟨aNoObject, some dev⟩, base, hears_of (by decide +kernel), by decide +kernel⟩,
    ⟨1, 1, base, hears_of (by decide +kernel)⟩,
    ⟨kw, ⟨0x1302, 0, 1, .dev, .dev⟩, [60, 0], [], (((base.atRequest kw).writeSpan kw ⟨0x1302, 0, 1, .dev,
        .dev⟩ [60, 0] false false).1), base, hears_of (by decide +kernel), by decide +kernel⟩,
    ⟨1, 1, 3600, base, hears_of (by decide +kernel), rfl, by decide +kernel⟩,
    ⟨1, 1, ⟨0x2403, 5, 1, .ch 382, .ch 383⟩, (List.replicate 8 0), ((base.atRequest kw).draw), base,
        hears_of (by decide +kernel), by decide +kernel⟩,
    ⟨1, 1, 383, base, hears_of (by decide +kernel), by decide +kernel⟩,
    ⟨kw, ⟨0x2403, 5, 1, .ch 382, .ch 383⟩, [60, 0, 0, 0], [], (((base.atRequest kw).writeSpan kw ⟨0x2403, 5, 1,
        .ch 382, .ch 383⟩ [60, 0, 0, 0] true false).1), base, hears_of (by decide +kernel), by decide +kernel⟩,
    ⟨1, 1, 383, 383, 4294967295, base, hears_of (by decide +kernel), rfl, by decide +kernel, by decide +kernel,
        (by intro c h1 h2; obtain rfl : c = 383 := (by omega); decide +kernel), by decide +kernel⟩,
    ⟨383, partOn, hears_of (by decide +kernel), by decide +kernel⟩,
    ⟨383, 4294967295, partOn, hears_of (by decide +kernel), rfl, by decide +kernel⟩,
    ⟨1, 1, 0x77, 5, 6, base, hears_of (by decide +kernel), by decide +kernel⟩⟩

/-- Every clause of SegmentedTransfers has a state and operands that meet its premises. -/
theorem witness_SegmentedTransfers :
    (∃ (id seq total : Nat) (x : Session) (span : Span) (s : State), s.Hears (.keyway id seq) ∧
        s.session? id = some x ∧ s.transfersFull x = false ∧ total < 2 ^ 32 ∧ countsOk span true = true ∧
        totalCheck (.keyway id seq) span total = aDone ∧
        (s.atRequest (.keyway id seq)).initChecks (.keyway id seq) span total = none) ∧
    (∃ (id seq : Nat) (x : Session) (s : State), s.Hears (.keyway id seq) ∧ s.session? id = some x ∧
        s.transfersFull x = false) ∧
    (∃ (id seq tr off : Nat) (x : Session) (y : Transfer) (d : List Byte) (s : State), s.Hears (.keyway id seq) ∧
        s.session? id = some x ∧ x.transfer? tr = some y ∧ y.write = true ∧ off + d.length ≤ y.pieces.total) ∧
    (∃ (id seq tr off n : Nat) (x : Session) (y : Transfer) (s : State), s.Hears (.keyway id seq) ∧
        s.session? id = some x ∧ x.transfer? tr = some y ∧ y.write = false ∧ 1 ≤ n ∧ n ≤ 1408 ∧ off < y.pieces.total) ∧
    (∃ (id seq tr v : Nat) (x : Session) (y : Transfer) (s : State), s.Hears (.keyway id seq) ∧ s.resetReq = {} ∧
        s.session? id = some x ∧ x.transfer? tr = some y ∧ y.write = true ∧ y.span = ⟨0x1302, 0, 1, .dev, .dev⟩ ∧
        y.pieces.whole = some (leNat 2 v) ∧ 10 ≤ v ∧ v ≤ 3600) ∧
    (∃ (id seq tr crc : Nat) (x : Session) (y : Transfer) (p : List Byte) (u : State) (s : State),
        s.Hears (.keyway id seq) ∧ s.session? id = some x ∧ x.transfer? tr = some y ∧ y.write = true ∧
        ((s.atRequest (.keyway id seq)).closeTransfer (.keyway id seq) tr).applyTransfer (.keyway id seq) y (some crc) = (u,
        .ok p) ∧ u.resetReq = {}) ∧
    (∃ (id seq tr crc : Nat) (b : List Byte) (x : Session) (y : Transfer) (s : State), s.Hears (.keyway id seq) ∧
        s.resetReq = {} ∧ s.session? id = some x ∧ x.transfer? tr = some y ∧ y.write = true ∧ y.pieces.whole = some b ∧
        crc ≠ crc32 b) ∧
    (∃ (id seq tr : Nat) (x : Session) (y : Transfer) (s : State), s.Hears (.keyway id seq) ∧ s.resetReq = {} ∧
        s.session? id = some x ∧ x.transfer? tr = some y ∧ y.write = false) ∧
    (∃ (id seq tr : Nat) (x : Session) (s : State), s.Hears (.keyway id seq) ∧ s.session? id = some x ∧
        (x.transfer? tr).isSome = true) ∧
    (∃ (id tr : Nat) (x : Session) (y : Transfer) (s : State), s.session? id = some x ∧ x.transfer? tr = some y ∧
        tickOf y.lastLt + 2000 < tickOf s.lt) :=
  ⟨⟨1, 1, 2, ses, ⟨0x1302, 0, 1, .dev, .dev⟩, base, hears_of (by decide +kernel), by decide +kernel⟩,
    ⟨1, 1, ses, base, hears_of (by decide +kernel), by decide +kernel⟩,
    ⟨1, 1, 7, 1, ({ ses with transfers := [xfer true [1]] }), (xfer true [1]), [2],
        (withSes { ses with transfers := [xfer true [1]] }), hears_of (by decide +kernel), by decide +kernel⟩,
    ⟨1, 1, 7, 1, 1408, ({ ses with transfers := [xfer false [60, 0]] }), (xfer false [60, 0]),
        (withSes { ses with transfers := [xfer false [60, 0]] }), hears_of (by decide +kernel), by decide +kernel⟩,
    ⟨1, 1, 7, 60, ({ ses with transfers := [xfer true [60, 0]] }), (xfer true [60, 0]),
        (withSes { ses with transfers := [xfer true [60, 0]] }), hears_of (by decide +kernel), rfl, by decide +kernel⟩,
    ⟨1, 1, 7, (crc32 [60, 0]), ({ ses with transfers := [xfer true [60, 0]] }), (xfer true [60, 0]), [],
        (((((withSes { ses with transfers := [xfer true [60, 0]] }).atRequest kw).closeTransfer kw 7).applyTransfer kw (xfer true [60,
        0]) (some (crc32 [60, 0]))).1), (withSes { ses with transfers := [xfer true [60, 0]] }),
        hears_of (by decide +kernel), by decide +kernel⟩,
    ⟨1, 1, 7, 1, [60, 0], ({ ses with transfers := [xfer true [60, 0]] }), (xfer true [60, 0]),
        (withSes { ses with transfers := [xfer true [60, 0]] }), hears_of (by decide +kernel), rfl, by decide +kernel⟩,
    ⟨1, 1, 7, ({ ses with transfers := [xfer false [60, 0]] }), (xfer false [60, 0]),
        (withSes { ses with transfers := [xfer false [60, 0]] }), hears_of (by decide +kernel), rfl, by decide +kernel⟩,
    ⟨1, 1, 7, ({ ses with transfers := [xfer false [60, 0]] }),
        (withSes { ses with transfers := [xfer false [60, 0]] }), hears_of (by decide +kernel), by decide +kernel⟩,
    ⟨1, 7, ({ ses with transfers := [xfer false [60, 0]] }), (xfer false [60, 0]),
        (withSes { ses with transfers := [xfer false [60, 0]] }), by decide +kernel⟩⟩

/-- Every clause of Subscriptions has a state and operands that meet its premises. -/
theorem witness_Subscriptions :
    (∃ (src : Src) (period handle : Nat) (l : List SubEntry) (s : State), src ≠ .service ∧ s.Hears src ∧ 1 ≤ period ∧
        period ≤ 10000 ∧ handle ≤ 15 ∧ 1 ≤ l.length ∧ l.length ≤ 64 ∧ (s.newSub period handle l).stream = false ∧
        firstBad (List.range l.length) (s.entryChecks l) = none ∧ s.budgetOk src (s.newSub period handle l) = true) ∧
    (∃ (src : Src) (handle count : Nat) (l : List SubEntry) (s : State), src ≠ .service ∧ s.Hears src ∧ handle ≤ 15 ∧
        1 ≤ count ∧ count ≤ 64 ∧ l.length = count) ∧
    (∃ (p : Pub) (x : Session) (s : State), s.net.pubs = [p] ∧ s.session? p.session = some x) ∧
    (∃ (id handle : Nat) (x : Session) (y z : Subscr) (b : List Byte) (lost : Nat) (s : State),
        s.session? id = some x ∧ (x.subs.find? fun y => y.handle == handle && y.stream) = some y ∧ id ≠ 0 ∧
        s.reached (.keyway id 0) = true ∧ s.clearOut.streamRoom b.length = true ∧ s.clearOut.streamNext y = (z, b,
        lost) ∧ b ≠ []) :=
  ⟨⟨kw, 10000, 15, [⟨0x1302, 0, .dev, .dev⟩], base, by decide +kernel, hears_of (by decide +kernel),
        by decide +kernel⟩,
    ⟨kw, 15, 64, (List.replicate 64 ⟨0x1302, 0, .dev, .dev⟩), base, by decide +kernel,
        hears_of (by decide +kernel), by decide +kernel⟩,
    ⟨⟨1, 3, 5, [1, 2]⟩, ses, (withNet fun n => { n with pubs := [⟨1, 3, 5, [1, 2]⟩] }), by decide +kernel⟩,
    ⟨1, 1, ({ ses with subs := [sub0] }), sub0, ((streaming.clearOut.streamNext sub0).1),
        ((streaming.clearOut.streamNext sub0).2.1), ((streaming.clearOut.streamNext sub0).2.2), streaming,
        by decide +kernel⟩⟩

/-- Every clause of Sessions has a state and operands that meet its premises. -/
theorem witness_Sessions :
    (∃ (id seq : Nat) (s : State), s.Hears (.keyway id seq)) ∧
    (∃ (seq : Nat) (p : List Byte) (s : State), s.reached (.keyway 0 seq) = true ∧ stage1Ok p = true ∧
        ((fieldAt p 0 1 ≠ 0 ∨ s.rd 0x1304 0 dev ≠ 1)) ∧ s.sessionsFull = false ∧ s.net.shakes.length < 2) ∧
    (∃ (d : List Byte) (s : State), s.reached (.keyway 0 0) = true ∧ s.discards d = true) ∧
    (∃ (id : Nat) (x : Session) (s : State), s.session? id = some x ∧
        x.lastLt + s.rdN 0x1302 0 dev * 1000000000 < s.lt) ∧
    (∃ (id seq : Nat) (x : Session) (s : State), s.session? id = some x) :=
  ⟨⟨1, 1, base, hears_of (by decide +kernel)⟩,
    ⟨9, (1 :: List.replicate 1219 0), base, by decide +kernel⟩,
    ⟨[1, 2], base, by decide +kernel⟩,
    ⟨1, ({ ses with lastLt := 19939999999999 }), (withSes { ses with lastLt := 19939999999999 }), by decide +kernel⟩,
    ⟨1, 4, ({ ses with kept := [⟨4, 1, 0, 0, 0, [], 19998000000000⟩] }),
        (withSes { ses with kept := [⟨4, 1, 0, 0, 0, [], 19998000000000⟩] }), by decide +kernel⟩⟩

/-- Every clause of StoreAndHostKeys has a state and operands that meet its premises. -/
theorem witness_StoreAndHostKeys :
    (∃ (src : Src) (v : Nat) (s : State), s.Accepts src 0x1010 1 [dev] v storeCheck) ∧
    (∃ (ok : Bool) (s : State), s.net.storing = true) ∧
    (∃ (src : Src) (v : Nat) (s : State), s.Accepts src 0x1010 3 [dev] v restoreCheck) ∧
    (∃ (src : Src) (k : Nat) (b : List Byte) (s : State), s.AcceptsBlob src 0x1303 k [dev] b (hostKeyCheck src k b)) :=
  ⟨⟨kw, 1, base, accepts_of (by decide +kernel)⟩,
    ⟨true, (withNet fun n => { n with storing := true }), by decide +kernel⟩,
    ⟨kw, 1, base, accepts_of (by decide +kernel)⟩,
    ⟨kw, 8, (List.replicate 32 7), (keyed base), acceptsBlob_of (by decide +kernel)⟩⟩

/-- Every clause of CanTransmit has a state and operands that meet its premises. -/
theorem witness_CanTransmit :
    (∃ (src : Src) (p v : Nat) (busy : Bool) (s : State), s.Accepts src 0x1400 (p + 1) [dev] v (fun _ _ => aDone)) ∧
    (∃ (src : Src) (p : Nat) (b : List Byte) (rs : List TxRecord) (s : State), parseTx 118 b = some rs ∧
        s.AcceptsBlob src 0x1410 (p + 1) [dev] b (submitCheck p b)) ∧
    (∃ (src : Src) (p h : Nat) (started : Bool) (s : State), s.Accepts src 0x1411 (p + 1) [dev] h (cancelCheck p h)) ∧
    (∃ (src : Src) (p : Nat) (started : Bool) (s : State),
        s.Accepts src 0x1411 (p + 1) [dev] 0x100 (cancelCheck p 0x100)) ∧
    (∃ (p h : Nat) (started : Bool) (s : State), p < 2 ∧
        ((s.port p).fifo.any fun t => t.handle == h && due t.deadline s.lt) = true) ∧
    (∃ (p : Nat) (s : State), s.canOn p [1] = true ∧ s.canState p < 2 ∧ (s.port p).fifo ≠ []) ∧
    (∃ (p sofLt : Nat) (f : CanFrame) (s : State), s.canOn p [1, 2] = true ∧ s.canState p < 2 ∧ canFrameOk f = true ∧
        (s.port p).pendingMode = none ∧ s.rdN 0x1414 (p + 1) dev ≤ 255) :=
  ⟨⟨kw, 1, 2, true, base, accepts_of (by decide +kernel)⟩,
    ⟨kw, 0, (List.replicate 12 0), [⟨0, 0, 0, []⟩], canNormal, by decide +kernel,
        acceptsBlob_of (by decide +kernel)⟩,
    ⟨kw, 0, 3, true, canNormal, accepts_of (by decide +kernel)⟩,
    ⟨kw, 0, true, canNormal, accepts_of (by decide +kernel)⟩,
    ⟨0, 3, false, canNormal, by decide +kernel⟩,
    ⟨0, canNormal, by decide +kernel⟩,
    ⟨0, 5, frame0, (canNormal.wr 0x1414 1 dev 255), by decide +kernel⟩⟩

/-- Every clause of CanBus has a state and operands that meet its premises. -/
theorem witness_CanBus :
    (∃ (p sofLt : Nat) (f : CanFrame) (s : State), s.canOn p [1, 2] = true ∧ s.canState p = 0 ∧ canFrameOk f = true ∧
        (s.port p).pendingMode = none ∧ s.rdN 0x1414 (p + 1) dev < 96 ∧ s.rdN 0x1415 (p + 1) dev < 96 ∧
        (s.rdN 0x1418 (p + 1) dev + 65536 - s.rdN 0x1419 (p + 1) dev) % 65536 ≠ 4096) ∧
    (∃ (p sofLt : Nat) (x : CanTx) (l : List CanTx) (s : State), (s.port p).fifo = x :: l ∧ s.canOn p [1] = true ∧
        s.canState p < 2 ∧ (s.port p).pendingMode = none ∧ s.rdN 0x1414 (p + 1) dev ≤ 255) ∧
    (∃ (p code : Nat) (e : CanErr) (own : Bool) (s : State), s.canOn p [1, 2] = true ∧ s.canState p < 2 ∧
        (s.port p).pendingMode = none ∧ s.errTec p e own ≤ 255) ∧
    (∃ (p code : Nat) (e : CanErr) (own : Bool) (s : State), s.canOn p [1, 2] = true ∧ s.canState p < 2 ∧
        (s.port p).pendingMode = none ∧ 255 < s.errTec p e own) ∧
    (∃ (p n : Nat) (s : State), s.canOn p [1, 2] = true ∧ s.canState p = 3 ∧ (s.port p).ended = false) ∧
    (∃ (src : Src) (p v : Nat) (s : State), s.Accepts src 0x140C (p + 1) [dev] v (restartCheck p)) ∧
    (∃ (src : Src) (p v : Nat) (s : State), s.Accepts src 0x1419 (p + 1) [dev] v (consumerCheck src p v)) :=
  ⟨⟨0, 5, frame0, ((canNormal.wr 0x1414 1 dev 95).wr 0x1415 1 dev 95), by decide +kernel⟩,
    ⟨0, 5, tx0, [], (canNormal.wr 0x1414 1 dev 255), by decide +kernel⟩,
    ⟨0, 3, .detected, true, (canNormal.wr 0x1414 1 dev 247), by decide +kernel⟩,
    ⟨0, 3, .detected, true, (canNormal.wr 0x1414 1 dev 248), by decide +kernel⟩,
    ⟨0, 128, (canNormal.wr 0x1413 1 dev 3), by decide +kernel⟩,
    ⟨kw, 1, 1, (base.wr 0x1413 2 dev 2), accepts_of (by decide +kernel)⟩,
    ⟨kw, 1, 4, (base.wr 0x1418 2 dev 4), accepts_of (by decide +kernel)⟩⟩

/-- Every clause of TrustStoreAndImages has a state and operands that meet its premises. -/
theorem witness_TrustStoreAndImages :
    (∃ (src : Src) (k : Nat) (h : List Byte) (s : State), s.AcceptsBlob src 0x7020 k [dev] h (rootWriteCheck src k h)) ∧
    (∃ (src : Src) (k v : Nat) (s : State), s.Accepts src 0x7021 k [dev] v (revokeCheck k)) ∧
    (∃ (src : Src) (k v : Nat) (s : State), s.Accepts src 0x7031 k [dev] v (rollbackCheck k)) ∧
    (∃ (src : Src) (k v : Nat) (s : State), s.Accepts src 0x7034 k [dev] v (preferCheck k v)) ∧
    (∃ (src : Src) (ty total : Nat) (s : State), s.Hears src ∧ loadBeginCode src ty total s = aDone) ∧
    (∃ (src : Src) (off : Nat) (d : List Byte) (s : State),
        s.AcceptsBlob src 0x7040 2 [dev] (leNat 4 off ++ d) (pieceCheck off d.length)) ∧
    (∃ (src : Src) (v : Nat) (flashOk : Bool) (s : State), s.Accepts src 0x7040 3 [dev] v loadEndCheck) ∧
    (∃ (s : State), s.fw = true ∧ s.rd 0x7040 4 dev = 1 ∧ s.sec.loadLast + 60000000000 < s.lt) :=
  ⟨⟨kw, 2, (List.replicate 32 7), (keyed base), acceptsBlob_of (by decide +kernel)⟩,
    ⟨kw, 2, 1, (base.wrB 0x7020 1 dev (List.replicate 32 7)), accepts_of (by decide +kernel)⟩,
    ⟨kw, 3, 1, ((base.wr 0x7030 3 dev 4).wr 0x7032 3 dev 6), accepts_of (by decide +kernel)⟩,
    ⟨kw, 3, 1, (each [1, 2, 3, 4, 5, 6] (fun s j => s.wr 0x7035 j dev 1) base), accepts_of (by decide +kernel)⟩,
    ⟨kw, 4, 4096, base, hears_of (by decide +kernel), by decide +kernel⟩,
    ⟨kw, 8, [1, 2], ((base.wr 0x7040 4 dev 1).setSec { base.sec with loadTy := 4, slots := [(5, ⟨10, []⟩)] }),
        acceptsBlob_of (by decide +kernel)⟩,
    ⟨kw, 1, true, (base.wr 0x7040 4 dev 1), accepts_of (by decide +kernel)⟩,
    ⟨({ (base.wr 0x7040 4 dev 1) with sec := { base.sec with loadLast := 19939999999999 } }), by decide +kernel⟩⟩

/-- Every clause of PartitionDebugAttestation has a state and operands that meet its premises. -/
theorem witness_PartitionDebugAttestation :
    (∃ (src : Src) (s : State), s.Accepts src 0x7050 1 [dev] 2 (partitionCheck 2) ∧ s.rd 0x7050 3 dev = 1) ∧
    (∃ (cause : Nat) (s : State), s.rd 0x7050 3 dev = 1 ∧ 1 ≤ cause ∧ cause ≤ 3 ∧
        ((cause = 1 → s.sec.partYield + 100000000 ≤ s.lt))) ∧
    (∃ (src : Src) (v : Nat) (s : State), s.Accepts src 0x7060 3 [dev] v (fun _ _ => aDone)) ∧
    (∃ (s : State), s.vsys = true ∧ s.sealedPart = false) ∧
    (∃ (s : State), s.vsys = true ∧ s.sealedPart = false) ∧
    (∃ (bits : List Bool) (s : State), s.vsys = true ∧ s.sealedPart = false) ∧
    (∃ (s : State), s.vsys = true ∧ s.sealedPart = false) ∧
    (∃ (s : State), s.sealedPart = true) ∧
    (∃ (src : Src) (b : List Byte) (s : State), s.AcceptsBlob src 0x7070 1 [dev] b (fun _ _ => aDone)) ∧
    (∃ (q : Bool) (s : State), s.Hears .user ∧ s.sec.userNonce ≠ []) :=
  ⟨⟨kw, partOn, accepts_of (by decide +kernel), by decide +kernel⟩,
    ⟨1, ({ partOn with sec := { base.sec with partYield := 19999900000000 } }), by decide +kernel⟩,
    ⟨kw, 1, debugOn, accepts_of (by decide +kernel)⟩,
    ⟨debugOn, by decide +kernel⟩,
    ⟨debugOn, by decide +kernel⟩,
    ⟨[true], debugOn, by decide +kernel⟩,
    ⟨debugOn, by decide +kernel⟩,
    ⟨base, by decide +kernel⟩,
    ⟨kw, (List.replicate 32 9), base, acceptsBlob_of (by decide +kernel)⟩,
    ⟨true, ({ partOn with sec := { partOn.sec with userNonce := [9] } }), hears_of (by decide +kernel),
        by decide +kernel⟩⟩

/-- Every clause of TrailAndClearing has a state and operands that meet its premises. -/
theorem witness_TrailAndClearing :
    (∃ (src : Src) (v : Nat) (s : State), s.Accepts src 0x6000 2 [dev] v (cursorCheck v)) ∧
    (∃ (src : Src) (v : Nat) (s : State), s.Accepts src 0x6000 5 [dev] v (fun _ _ => aDone)) ∧
    (∃ (src : Src) (v : Nat) (s : State), s.Accepts src 0x6000 8 [dev] v (fun _ _ => aDone)) ∧
    (∃ (src : Src) (i j : Nat) (e : Inst) (v : Int) (s : State), isZeroClear i j (instOf e) = true ∧
        s.Accepts src i j [instOf e] v (fun _ _ => aDone)) ∧
    (∃ (src : Src) (first last v : Nat) (s : State), s.Accepts src 0x6010 7 (chanRange first last) v clearCheck) ∧
    (∃ (src : Src) (n v : Nat) (s : State), s.Accepts src 0x6012 4 [siteI n] v dieClearCheck) ∧
    (∃ (src : Src) (m : Nat) (s : State), s.Accepts src 0x6014 2 [dev] m (fltClearCheck m)) ∧
    (∃ (src : Src) (a v : Nat) (s : State), s.Accepts src 0x6015 (a + 1) [dev] v (bldcClearCheck a) ∧
        s.driveState a = 8) ∧
    (∃ (src : Src) (a v : Nat) (s : State), s.Accepts src 0x6016 (a + 1) [dev] v (axisClearCheck a) ∧
        s.axisState a = 7) :=
  ⟨⟨kw, 4, (base.wr 0x6000 1 dev 4), accepts_of (by decide +kernel)⟩,
    ⟨kw, 3, base, accepts_of (by decide +kernel)⟩,
    ⟨kw, 1, (base.wr 0x6000 7 dev 1), accepts_of (by decide +kernel)⟩,
    ⟨kw, 0x2512, 4, (.ch 383), 0, base, by decide +kernel, accepts_of (by decide +kernel)⟩,
    ⟨kw, 382, 383, 1, (base.wr 0x6010 1 383 1), accepts_of (by decide +kernel)⟩,
    ⟨kw, 6, 1, base, accepts_of (by decide +kernel)⟩,
    ⟨kw, 128, base, accepts_of (by decide +kernel)⟩,
    ⟨kw, 3, 1, (outsOn.wr 0x341A 4 dev 8), accepts_of (by decide +kernel), by decide +kernel⟩,
    ⟨kw, 3, 1, (outsOn.wr 0x344F 4 dev 7), accepts_of (by decide +kernel), by decide +kernel⟩⟩

/-- Every clause of HubServices has a state and operands that meet its premises. -/
theorem witness_HubServices :
    (∃ (crc : Nat) (s : State), s.vsys = true ∧ s.sec.dead = false ∧ s.rd 0x4000 1 dev = 0) ∧
    (∃ (u code : Nat) (s : State), u < 4 ∧ (s.adc 0 u).diagUntil = none) ∧
    (∃ (x : Nat) (s : State), s.power.testing = some (0, x) ∧ x ≤ s.lt ∧ s.power.tripSeen = true ∧
        s.power.testHigh = false) ∧
    (∃ (x : Nat) (s : State), s.power.testing = some (1, x) ∧ x ≤ s.lt ∧ s.power.tripSeen = true ∧
        s.power.testHigh = false) ∧
    (∃ (k x : Nat) (s : State), s.power.testing = some (k, x) ∧ x ≤ s.lt ∧ s.power.tripSeen = false) ∧
    (∃ (b : List Byte) (p : Nat) (s : State), p < 2 ∧ bit (s.rdN 0x1110 5 dev) p = true) ∧
    (∃ (port : Nat) (frame : List Byte) (s : State), s.netUp = true ∧ port < 2 ∧ frame.take 6 ≠ s.macAddress ∧
        frame.length ≤ 1522) ∧
    (∃ (port : Nat) (frame : List Byte) (s : State), s.netUp = true ∧ port < 2 ∧ frame.take 6 ≠ s.macAddress ∧
        1522 < frame.length) ∧
    (∃ (kind vlan : Nat) (addr : List Byte) (s : State), s.netUp = true ∧ s.fw = true ∧ vlan = s.net.ip.vlan ∧
        s.ownsAddress kind addr = true) ∧
    (∃ (kind vlan : Nat) (fragment : Bool) (addr : List Byte) (s : State),
        (vlan ≠ s.net.ip.vlan ∨ fragment = true ∨ s.ownsAddress kind addr = false)) ∧
    (∃ (cmd : Nat) (arg : List Byte) (clocked : Nat) (s : State), s.portUp = true ∧ 8 ≤ arg.length ∧
        ((cmd = 0 ∨ 9 < cmd))) :=
  ⟨⟨(base.configCrc []), (base.wr 0x4000 1 dev 0), by decide +kernel⟩,
    ⟨3, 65535, base, by decide +kernel⟩,
    ⟨20000000000000, (withPower fun p => { p with testing := some (0, 20000000000000), tripSeen := true }),
        by decide +kernel⟩,
    ⟨20000000000000, (withPower fun p => { p with testing := some (1, 20000000000000), tripSeen := true }),
        by decide +kernel⟩,
    ⟨1, 20000000000000, (withPower fun p => { p with testing := some (1, 20000000000000) }), by decide +kernel⟩,
    ⟨[1, 2, 3, 4, 5, 6, 7, 8], 1, base, by decide +kernel⟩,
    ⟨1, ([2, 0, 0, 0, 0, 1, 2, 0, 0, 0, 0, 2, 0x81, 0, 0xE0, 5] ++ List.replicate 1506 0),
        ({ base with part := [(1, [2, 0, 0, 0, 0, 9])] }), by decide +kernel⟩,
    ⟨1, ([2, 0, 0, 0, 0, 1, 2, 0, 0, 0, 0, 2, 0x81, 0, 0xE0, 5] ++ List.replicate 1507 0),
        ({ base with part := [(1, [2, 0, 0, 0, 0, 9])] }), by decide +kernel⟩,
    ⟨2, 0, [192, 168, 1, 9], (withNet fun n => { n with ip := { n.ip with v4 := 0xC0A80109 } }), by decide +kernel⟩,
    ⟨2, 0, true, [192, 168, 1, 9], base, by decide +kernel⟩,
    ⟨10, (List.replicate 8 0), 9, base, by decide +kernel⟩⟩

end Sys2Proof.Machine
end

section
/-! SUPPORT. The frame of every command over the parts that the invariants of chapter 0 speak of: the suffix and the size
of the part, the waiting commands, the channels, the network side and the measuring part. -/

namespace Sys2Proof.Machine

/-- The parts of the state that the invariants of chapter 0 speak of. -/
def guarded : List Part := [.variant, .sealedPart, .pending, .chans, .net, .qm]

/-- Of these parts, the ones that a command may change. -/
def touches : Instr → List Part
  | .hingeCLinkFailed .. | .heartbeatTimeout .. | .dieWatchdog .. | .siteRecovery .. | .dcovComparator .. |
    .dcLinkAboveOv2 .. | .safetyStop .. | .segmentStop .. | .doorRelease .. | .mirrorSet .. |
    .pathDiagnosisResult .. | .vdrvUndervoltage .. | .bootstrapHold .. | .forcedRefresh .. | .edgeWord .. |
    .edgeTime .. | .deadTimeTurnOn .. | .softComparatorTrip .. | .hardComparatorTrip .. | .blankingEnd .. |
    .contactCheckStart .. | .contactCheckPhase .. | .contactCheckResult .. | .periodBoundary .. |
    .faultSourceAssert .. | .debugResume .. | .release .. | .jobStart .. | .jobEnd .. | .engineFault .. | .trm .. |
    .lat .. | .samplesStale .. | .followingError .. | .voltageLimit .. | .plausibilityFault .. |
    .plausibilityUnavailable .. | .milestoneClose .. | .groupStart .. | .doorLimitLatch .. |
    .overTemperatureCheck .. | .temperaturePlausibilityCheck .. | .temperaturePlausibilityFault .. | .lockWindow .. |
    .coastLimit .. | .restEntry .. | .windowLeft .. => [.chans]
  | .residentFirmwareStart .. | .qmRecordFrame .. | .qmBatchRecordFrame .. | .diagnoseNow .. |
    .controlAdcCalibrationWrite .. | .commit .. | .descriptorLoad .. | .descriptorRemove .. | .curveTableLoad .. |
    .recipeLoad .. | .powerStart .. | .powerStop .. | .speedSetpoint .. | .targetPosition .. |
    .referencePosition .. | .resetRequest .. | .safeOutputRequest .. | .contactorRequest .. | .unlock .. |
    .passwordChange .. | .lock .. | .rwpWrite .. | .apply .. | .unlockTimeout .. | .epochPeriod .. | .runRequest .. |
    .standbyRequest .. | .sleepRequest .. | .read .. | .readRange .. | .segInitWrite .. | .segInitRead .. |
    .segDataWrite .. | .segDataRead .. | .subscribe .. | .notify .. | .recordStreamPublish .. | .abortTransfer .. |
    .abortSession .. | .sessionOpenStage1 .. | .sessionOpenStage3 .. | .transferTimeout .. | .handshakeTimeout .. |
    .sessionIdleTimeout .. | .keptReplyExpiry .. | .store .. | .storeComplete .. | .hostKeySlot .. | .canMode .. |
    .transmitSubmit .. | .cancel .. | .cancelAll .. | .restart .. | .ringConsumer .. | .customerRootWrite .. |
    .customerRootRevoke .. | .rollbackCommit .. | .preferredSlot .. | .loadBegin .. | .loadPiece .. | .loadEnd .. |
    .partitionStart .. | .partitionStop .. | .partitionFault .. | .debugToken .. | .debugLock .. |
    .attestationNonce .. | .attestationReport .. | .readCursor .. | .freezeSeverity .. | .unfreeze .. |
    .channelLatchClear .. | .dieClear .. | .fltGroupClear .. | .bldcClear .. | .axisClear .. | .switchForward .. |
    .arpNdpIcmpEcho .. | .unknownOpcode .. => [.net]
  | .vmetPowerOn .. | .vmetLoss .. | .qmWatchdogExpiry .. | .qmBoot .. | .siteFramingProbe .. | .streamLoss .. |
    .streamReturn .. | .identify .. | .mailboxRead .. | .mailboxSubscribe .. | .ackRecords .. | .cellId .. |
    .stepStart .. | .stepClose .. | .reqAdjustImageSegment .. | .enterToken .. | .leaveToken .. |
    .auditAcknowledge .. | .calibrationWrite .. | .authorityKeySet .. | .softwareAnnounce .. | .beacon .. |
    .mailboxFrameDiscard .. | .integratorSample .. | .mirrorMeans .. | .periodicRecord .. | .acRecord .. |
    .impedanceRecord .. | .checkpoint .. | .batchClose .. | .adjEnChange .. | .adjustmentExpiry .. | .mclkFault .. |
    .mclkReturn .. | .ident .. | .status .. | .audit .. | .record .. | .batch .. | .proof .. | .live .. | .ac .. |
    .pubkey .. | .overlapStart .. | .provisionalTakeover .. | .rotationCommit .. | .freedCalibrationPhase .. |
    .freedCalibrationEnd .. | .suspectRecalibration .. | .calibrationAgeEvent .. | .vioRecovery .. |
    .unknownCommand .. => [.qm]
  | .vsysValid .. | .vsysInvalid .. | .resetN .. | .hubWatchdog .. | .warmReset .. | .siteReset .. |
    .engineReset .. | .checkNow .. | .runStart .. | .runStop .. | .runContinue .. |
    .wakeToStandby .. => [.chans, .net]
  | .metrologyEvent .. => [.chans, .qm]
  | .ltStep .. | .carrierEpoch .. | .vioUndervoltage .. | .write .. | .writeRange .. | .segEndWrite .. |
    .segEndRead .. | .restoreDefaults .. | .apiCall .. | .writeZeroToClear .. => [.chans, .net, .qm]
  | _ => []

theorem not_isObj_of_guarded {k : Part} (h : k ∈ guarded) : k.isObj = false := by
  fin_cases h <;> rfl

/-- A guarded part that a command does not touch is outside the command's frame, when the frame's guarded parts are
the touched ones. -/
theorem notMem_frame {k : Part} {l m : List Part} (hk : k ∈ guarded) (hm : k ∉ m)
    (hs : (l.all fun x => m.contains x || !guarded.contains x) = true) : k ∉ l := by
  intro hl
  have := List.all_eq_true.1 hs k hl
  simp [hk, hm] at this

/-- The frame of every command, over the guarded parts: each command is carried out, and what it does not touch
stays. -/
theorem exec_same (i : Instr) (s : State) {k : Part} (hk : k ∈ guarded) (hn : k ∉ touches i) :
    Gives i s (State.Same k s) := by
  have hr := not_isObj_of_guarded hk
  have out {l : List Part} := notMem_frame (l := l) hk hn
  cases i with
  | vsysValid => exact execVsysValid_same hr (out rfl) (.refl k s)
  | vsysInvalid => exact execVsysInvalid_same hr (out rfl) (.refl k s)
  | vmetPowerOn => exact execVmetPowerOn_same (out rfl) (.refl k s)
  | vmetLoss => exact execVmetLoss_same (out rfl) (.refl k s)
  | qmWatchdogExpiry => exact execQmWatchdogExpiry_same (out rfl) (.refl k s)
  | qmBoot => exact execQmBoot_same (out rfl) (.refl k s)
  | siteFramingProbe => exact execSiteFramingProbe_same (out rfl) (.refl k s)
  | resetN => exact execResetN_same hr (out rfl) (.refl k s)
  | hubWatchdog => exact execHubWatchdog_same hr (out rfl) (.refl k s)
  | warmReset => exact execWarmReset_same hr (out rfl) (.refl k s)
  | siteReset => exact execSiteReset_same hr (out rfl) (.refl k s)
  | engineReset => exact execEngineReset_same hr (out rfl) (.refl k s)
  | recipeScrub => exact execRecipeScrub_same hr (out rfl) (.refl k s)
  | bootRomCheck => exact execBootRomCheck_same (out rfl) (.refl k s)
  | residentFirmwareStart => exact execResidentFirmwareStart_same hr (out rfl) (.refl k s)
  | hingeCTraining => exact execHingeCTraining_same (out rfl) (.refl k s)
  | qcfwCheck => exact execQcfwCheck_same hr (out rfl) (.refl k s)
  | driverArming => exact execDriverArming_same (out rfl) (.refl k s)
  | echoTimeout => exact execEchoTimeout_same (out rfl) (.refl k s)
  | hingeCReplay => exact execHingeCReplay_same (out rfl) (.refl k s)
  | hingeCLinkFailed => exact execHingeCLinkFailed_same (out rfl) (.refl k s)
  | latchFrameSend => exact execLatchFrameSend_same (out rfl) (.refl k s)
  | heartbeat => exact execHeartbeat_same (out rfl) (.refl k s)
  | heartbeatTimeout => exact execHeartbeatTimeout_same (out rfl) (.refl k s)
  | dieWatchdog => exact execDieWatchdog_same (out rfl) (.refl k s)
  | siteRecovery => exact execSiteRecovery_same hr (out rfl) (.refl k s)
  | metrologyLinkSilent => exact execMetrologyLinkSilent_same (out rfl) (.refl k s)
  | streamLoss => exact execStreamLoss_same (out rfl) (.refl k s)
  | streamReturn => exact execStreamReturn_same (out rfl) (.refl k s)
  | dcovComparator => exact execDcovComparator_same (out rfl) (.refl k s)
  | dcLinkAboveOv2 => exact execDcLinkAboveOv2_same (out rfl) (.refl k s)
  | safetyStop => exact execSafetyStop_same (out rfl) (.refl k s)
  | segmentStop => exact execSegmentStop_same (out rfl) (.refl k s)
  | segmentStopRequest => exact execSegmentStopRequest_same (out rfl) (.refl k s)
  | regenerationInhibit => exact execRegenerationInhibit_same (out rfl) (.refl k s)
  | doorLimit => exact execDoorLimit_same (out rfl) (.refl k s)
  | regenerationRelease => exact execRegenerationRelease_same (out rfl) (.refl k s)
  | doorRelease => exact execDoorRelease_same (out rfl) (.refl k s)
  | runRelease => exact execRunRelease_same (out rfl) (.refl k s)
  | test => exact execTest_same (out rfl) (.refl k s)
  | testEcho => exact execTestEcho_same (out rfl) (.refl k s)
  | segmentBusFault => exact execSegmentBusFault_same (out rfl) (.refl k s)
  | overTemperature => exact execOverTemperature_same (out rfl) (.refl k s)
  | clockLost => exact execClockLost_same (out rfl) (.refl k s)
  | dabStageLatched => exact execDabStageLatched_same (out rfl) (.refl k s)
  | trailEntry => exact execTrailEntry_same (out rfl) (.refl k s)
  | trailFreeze => exact execTrailFreeze_same (out rfl) (.refl k s)
  | identify => exact execIdentify_same (out rfl) (.refl k s)
  | mailboxRead => exact execMailboxRead_same (out rfl) (.refl k s)
  | mailboxSubscribe => exact execMailboxSubscribe_same (out rfl) (.refl k s)
  | ackRecords => exact execAckRecords_same (out rfl) (.refl k s)
  | cellId => exact execCellId_same (out rfl) (.refl k s)
  | stepStart => exact execStepStart_same (out rfl) (.refl k s)
  | stepClose => exact execStepClose_same (out rfl) (.refl k s)
  | reqAdjustImageSegment => exact execReqAdjustImageSegment_same (out rfl) (.refl k s)
  | enterToken => exact execEnterToken_same (out rfl) (.refl k s)
  | leaveToken => exact execLeaveToken_same (out rfl) (.refl k s)
  | auditAcknowledge => exact execAuditAcknowledge_same (out rfl) (.refl k s)
  | calibrationWrite => exact execCalibrationWrite_same (out rfl) (.refl k s)
  | authorityKeySet => exact execAuthorityKeySet_same (out rfl) (.refl k s)
  | softwareAnnounce => exact execSoftwareAnnounce_same (out rfl) (.refl k s)
  | beacon => exact execBeacon_same (out rfl) (.refl k s)
  | mailboxFrameDiscard => exact execMailboxFrameDiscard_same (out rfl) (.refl k s)
  | qmRecordFrame => exact execQmRecordFrame_same (out rfl) (.refl k s)
  | qmBatchRecordFrame => exact execQmBatchRecordFrame_same (out rfl) (.refl k s)
  | mirrorSet => exact execMirrorSet_same hr (out rfl) (.refl k s)
  | metrologyEvent => exact execMetrologyEvent_same (out rfl) (.refl k s)
  | integratorSample => exact execIntegratorSample_same (out rfl) (.refl k s)
  | mirrorMeans => exact execMirrorMeans_same (out rfl) (.refl k s)
  | periodicRecord => exact execPeriodicRecord_same (out rfl) (.refl k s)
  | acRecord => exact execAcRecord_same (out rfl) (.refl k s)
  | impedanceRecord => exact execImpedanceRecord_same (out rfl) (.refl k s)
  | checkpoint => exact execCheckpoint_same (out rfl) (.refl k s)
  | batchClose => exact execBatchClose_same (out rfl) (.refl k s)
  | adjEnChange => exact execAdjEnChange_same (out rfl) (.refl k s)
  | adjustmentExpiry => exact execAdjustmentExpiry_same (out rfl) (.refl k s)
  | mclkFault => exact execMclkFault_same (out rfl) (.refl k s)
  | mclkReturn => exact execMclkReturn_same (out rfl) (.refl k s)
  | ident => exact execIdent_same (out rfl) (.refl k s)
  | status => exact execStatus_same (out rfl) (.refl k s)
  | audit => exact execAudit_same (out rfl) (.refl k s)
  | record => exact execRecord_same (out rfl) (.refl k s)
  | batch => exact execBatch_same (out rfl) (.refl k s)
  | proof => exact execProof_same (out rfl) (.refl k s)
  | live => exact execLive_same (out rfl) (.refl k s)
  | ac => exact execAc_same (out rfl) (.refl k s)
  | pubkey => exact execPubkey_same (out rfl) (.refl k s)
  | overlapStart => exact execOverlapStart_same (out rfl) (.refl k s)
  | provisionalTakeover => exact execProvisionalTakeover_same (out rfl) (.refl k s)
  | rotationCommit => exact execRotationCommit_same (out rfl) (.refl k s)
  | freedCalibrationPhase => exact execFreedCalibrationPhase_same (out rfl) (.refl k s)
  | freedCalibrationEnd => exact execFreedCalibrationEnd_same (out rfl) (.refl k s)
  | suspectRecalibration => exact execSuspectRecalibration_same (out rfl) (.refl k s)
  | calibrationAgeEvent => exact execCalibrationAgeEvent_same (out rfl) (.refl k s)
  | pathDiagnosis => exact execPathDiagnosis_same hr (out rfl) (.refl k s)
  | pathDiagnosisResult => exact execPathDiagnosisResult_same hr (out rfl) (.refl k s)
  | diagnosisRepeat => exact execDiagnosisRepeat_same hr (out rfl) (.refl k s)
  | diagnoseNow => exact execDiagnoseNow_same hr (out rfl) (.refl k s)
  | controlAdcCalibrationWrite => exact execControlAdcCalibrationWrite_same hr (out rfl) (.refl k s)
  | vdrvUndervoltage => exact execVdrvUndervoltage_same (out rfl) (.refl k s)
  | vdrvRelease => exact execVdrvRelease_same (out rfl) (.refl k s)
  | bootstrapHold => exact execBootstrapHold_same (out rfl) (.refl k s)
  | bootstrapRelease => exact execBootstrapRelease_same (out rfl) (.refl k s)
  | forcedRefresh => exact execForcedRefresh_same (out rfl) (.refl k s)
  | edgeWord => exact execEdgeWord_same (out rfl) (.refl k s)
  | edgeTime => exact execEdgeTime_same (out rfl) (.refl k s)
  | deadTimeTurnOn => exact execDeadTimeTurnOn_same (out rfl) (.refl k s)
  | softComparatorTrip => exact execSoftComparatorTrip_same (out rfl) (.refl k s)
  | hardComparatorTrip => exact execHardComparatorTrip_same (out rfl) (.refl k s)
  | blankingEnd => exact execBlankingEnd_same (out rfl) (.refl k s)
  | checkNow => exact execCheckNow_same (out rfl) (.refl k s)
  | contactCheckStart => exact execContactCheckStart_same (out rfl) (.refl k s)
  | contactCheckPhase => exact execContactCheckPhase_same (out rfl) (.refl k s)
  | contactCheckResult => exact execContactCheckResult_same (out rfl) (.refl k s)
  | periodBoundary => exact execPeriodBoundary_same (out rfl) (.refl k s)
  | midPeriodUpdate => exact execMidPeriodUpdate_same (out rfl) (.refl k s)
  | edgeDecision => exact execEdgeDecision_same (out rfl) (.refl k s)
  | commit => exact execCommit_same (out rfl) (.refl k s)
  | outputStart => exact execOutputStart_same (out rfl) (.refl k s)
  | outputStop => exact execOutputStop_same (out rfl) (.refl k s)
  | faultSourceAssert => exact execFaultSourceAssert_same (out rfl) (.refl k s)
  | faultSourceDeassert => exact execFaultSourceDeassert_same (out rfl) (.refl k s)
  | fltInput => exact execFltInput_same (out rfl) (.refl k s)
  | debugHalt => exact execDebugHalt_same (out rfl) (.refl k s)
  | debugResume => exact execDebugResume_same (out rfl) (.refl k s)
  | release => exact execRelease_same (out rfl) (.refl k s)
  | jobStart => exact execJobStart_same (out rfl) (.refl k s)
  | jobEnd => exact execJobEnd_same (out rfl) (.refl k s)
  | engineFault => exact execEngineFault_same (out rfl) (.refl k s)
  | nop => exact execNop_same (out rfl) (.refl k s)
  | lds => exact execLds_same (out rfl) (.refl k s)
  | ldp => exact execLdp_same (out rfl) (.refl k s)
  | ldw => exact execLdw_same (out rfl) (.refl k s)
  | stw => exact execStw_same (out rfl) (.refl k s)
  | ldi => exact execLdi_same (out rfl) (.refl k s)
  | ldh => exact execLdh_same (out rfl) (.refl k s)
  | mov => exact execMov_same (out rfl) (.refl k s)
  | add => exact execAdd_same (out rfl) (.refl k s)
  | sub => exact execSub_same (out rfl) (.refl k s)
  | mul => exact execMul_same (out rfl) (.refl k s)
  | mac => exact execMac_same (out rfl) (.refl k s)
  | acc => exact execAcc_same (out rfl) (.refl k s)
  | sta => exact execSta_same (out rfl) (.refl k s)
  | min => exact execMin_same (out rfl) (.refl k s)
  | max => exact execMax_same (out rfl) (.refl k s)
  | lim => exact execLim_same (out rfl) (.refl k s)
  | shf => exact execShf_same (out rfl) (.refl k s)
  | flt => exact execFlt_same (out rfl) (.refl k s)
  | bqd => exact execBqd_same (out rfl) (.refl k s)
  | pi => exact execPi_same (out rfl) (.refl k s)
  | div => exact execDiv_same (out rfl) (.refl k s)
  | crv => exact execCrv_same (out rfl) (.refl k s)
  | cmp => exact execCmp_same (out rfl) (.refl k s)
  | br => exact execBr_same (out rfl) (.refl k s)
  | trm => exact execTrm_same (out rfl) (.refl k s)
  | edg => exact execEdg_same (out rfl) (.refl k s)
  | cmt => exact execCmt_same (out rfl) (.refl k s)
  | lat => exact execLat_same (out rfl) (.refl k s)
  | pub => exact execPub_same (out rfl) (.refl k s)
  | ldg => exact execLdg_same (out rfl) (.refl k s)
  | yld => exact execYld_same (out rfl) (.refl k s)
  | descriptorLoad => exact execDescriptorLoad_same (out rfl) (.refl k s)
  | descriptorRemove => exact execDescriptorRemove_same hr (out rfl) (.refl k s)
  | curveTableLoad => exact execCurveTableLoad_same (out rfl) (.refl k s)
  | samplesStale => exact execSamplesStale_same (out rfl) (.refl k s)
  | followingError => exact execFollowingError_same (out rfl) (.refl k s)
  | voltageLimit => exact execVoltageLimit_same (out rfl) (.refl k s)
  | plausibilityFault => exact execPlausibilityFault_same (out rfl) (.refl k s)
  | plausibilityUnavailable => exact execPlausibilityUnavailable_same (out rfl) (.refl k s)
  | recipeLoad => exact execRecipeLoad_same hr (out rfl) (.refl k s)
  | runStart => exact execRunStart_same (out rfl) (.refl k s)
  | runStop => exact execRunStop_same (out rfl) (.refl k s)
  | runContinue => exact execRunContinue_same (out rfl) (.refl k s)
  | milestoneClose => exact execMilestoneClose_same (out rfl) (.refl k s)
  | groupWaitLimit => exact execGroupWaitLimit_same (out rfl) (.refl k s)
  | groupStart => exact execGroupStart_same (out rfl) (.refl k s)
  | windowCrossing => exact execWindowCrossing_same (out rfl) (.refl k s)
  | ov1Release => exact execOv1Release_same (out rfl) (.refl k s)
  | dcovTrip => exact execDcovTrip_same (out rfl) (.refl k s)
  | dcovRelease => exact execDcovRelease_same (out rfl) (.refl k s)
  | crossCheckDisagreement => exact execCrossCheckDisagreement_same (out rfl) (.refl k s)
  | hubSamplesStale => exact execHubSamplesStale_same (out rfl) (.refl k s)
  | gridLocked => exact execGridLocked_same (out rfl) (.refl k s)
  | gridLoss => exact execGridLoss_same (out rfl) (.refl k s)
  | powerStart => exact execPowerStart_same (out rfl) (.refl k s)
  | powerStop => exact execPowerStop_same (out rfl) (.refl k s)
  | gridSyncTimeout => exact execGridSyncTimeout_same (out rfl) (.refl k s)
  | prechargeComplete => exact execPrechargeComplete_same (out rfl) (.refl k s)
  | prechargeTimeout => exact execPrechargeTimeout_same (out rfl) (.refl k s)
  | mainContactorClosed => exact execMainContactorClosed_same (out rfl) (.refl k s)
  | afeRampComplete => exact execAfeRampComplete_same (out rfl) (.refl k s)
  | segmentBusesReady => exact execSegmentBusesReady_same (out rfl) (.refl k s)
  | controlledStop => exact execControlledStop_same (out rfl) (.refl k s)
  | segmentStopDelay => exact execSegmentStopDelay_same (out rfl) (.refl k s)
  | contactorsOpen => exact execContactorsOpen_same (out rfl) (.refl k s)
  | dcLinkUndervoltage => exact execDcLinkUndervoltage_same (out rfl) (.refl k s)
  | vdcUpdate => exact execVdcUpdate_same (out rfl) (.refl k s)
  | dabAtLimit => exact execDabAtLimit_same (out rfl) (.refl k s)
  | dabSamplesStale => exact execDabSamplesStale_same (out rfl) (.refl k s)
  | chopperOpen => exact execChopperOpen_same (out rfl) (.refl k s)
  | chopperShort => exact execChopperShort_same (out rfl) (.refl k s)
  | chopperOverload => exact execChopperOverload_same (out rfl) (.refl k s)
  | dischargeNoCurrent => exact execDischargeNoCurrent_same (out rfl) (.refl k s)
  | dischargeRelease => exact execDischargeRelease_same (out rfl) (.refl k s)
  | dischargeExhausted => exact execDischargeExhausted_same (out rfl) (.refl k s)
  | zeroCrossing => exact execZeroCrossing_same (out rfl) (.refl k s)
  | commutation => exact execCommutation_same (out rfl) (.refl k s)
  | listenEnd => exact execListenEnd_same (out rfl) (.refl k s)
  | brakeWindow => exact execBrakeWindow_same (out rfl) (.refl k s)
  | brakeFailed => exact execBrakeFailed_same (out rfl) (.refl k s)
  | alignEnd => exact execAlignEnd_same (out rfl) (.refl k s)
  | rampFailed => exact execRampFailed_same (out rfl) (.refl k s)
  | lockedRotor => exact execLockedRotor_same (out rfl) (.refl k s)
  | retryDelayEnd => exact execRetryDelayEnd_same (out rfl) (.refl k s)
  | retryCountReset => exact execRetryCountReset_same (out rfl) (.refl k s)
  | loadFault => exact execLoadFault_same (out rfl) (.refl k s)
  | speedSetpoint => exact execSpeedSetpoint_same (out rfl) (.refl k s)
  | auxSamplesStale => exact execAuxSamplesStale_same (out rfl) (.refl k s)
  | targetPosition => exact execTargetPosition_same (out rfl) (.refl k s)
  | stepEdge => exact execStepEdge_same (out rfl) (.refl k s)
  | inputOverrun => exact execInputOverrun_same (out rfl) (.refl k s)
  | limitSwitch => exact execLimitSwitch_same (out rfl) (.refl k s)
  | holdDelay => exact execHoldDelay_same (out rfl) (.refl k s)
  | referencePosition => exact execReferencePosition_same (out rfl) (.refl k s)
  | sto => exact execSto_same (out rfl) (.refl k s)
  | stoRelease => exact execStoRelease_same (out rfl) (.refl k s)
  | ss1 => exact execSs1_same (out rfl) (.refl k s)
  | ss1Time => exact execSs1Time_same (out rfl) (.refl k s)
  | supervisorCycle => exact execSupervisorCycle_same (out rfl) (.refl k s)
  | inputDemand => exact execInputDemand_same (out rfl) (.refl k s)
  | inputDemandEnd => exact execInputDemandEnd_same (out rfl) (.refl k s)
  | safetyStopDelay => exact execSafetyStopDelay_same (out rfl) (.refl k s)
  | contactorOpenDelay => exact execContactorOpenDelay_same (out rfl) (.refl k s)
  | adisDelay => exact execAdisDelay_same (out rfl) (.refl k s)
  | inputFault => exact execInputFault_same (out rfl) (.refl k s)
  | testPulse => exact execTestPulse_same (out rfl) (.refl k s)
  | discrepancyFault => exact execDiscrepancyFault_same (out rfl) (.refl k s)
  | inputRecovery => exact execInputRecovery_same (out rfl) (.refl k s)
  | doorLimitLatch => exact execDoorLimitLatch_same (out rfl) (.refl k s)
  | overTemperatureCheck => exact execOverTemperatureCheck_same (out rfl) (.refl k s)
  | temperaturePlausibilityCheck => exact execTemperaturePlausibilityCheck_same (out rfl) (.refl k s)
  | temperaturePlausibilityFault => exact execTemperaturePlausibilityFault_same (out rfl) (.refl k s)
  | applicationHeartbeatTimeout => exact execApplicationHeartbeatTimeout_same (out rfl) (.refl k s)
  | safetyReset => exact execSafetyReset_same (out rfl) (.refl k s)
  | resetRequest => exact execResetRequest_same (out rfl) (.refl k s)
  | safeOutputRequest => exact execSafeOutputRequest_same (out rfl) (.refl k s)
  | offPulse => exact execOffPulse_same (out rfl) (.refl k s)
  | offPulseEnd => exact execOffPulseEnd_same (out rfl) (.refl k s)
  | outputFault => exact execOutputFault_same (out rfl) (.refl k s)
  | contactorRequest => exact execContactorRequest_same (out rfl) (.refl k s)
  | contactorTimeout => exact execContactorTimeout_same (out rfl) (.refl k s)
  | contactorFault => exact execContactorFault_same (out rfl) (.refl k s)
  | weldedContact => exact execWeldedContact_same (out rfl) (.refl k s)
  | lockstepFault => exact execLockstepFault_same (out rfl) (.refl k s)
  | supervisorClockFault => exact execSupervisorClockFault_same (out rfl) (.refl k s)
  | supervisorWatchdog => exact execSupervisorWatchdog_same (out rfl) (.refl k s)
  | memoryFault => exact execMemoryFault_same (out rfl) (.refl k s)
  | hSafeSupplyFault => exact execHSafeSupplyFault_same (out rfl) (.refl k s)
  | unlock => exact execUnlock_same (out rfl) (.refl k s)
  | passwordChange => exact execPasswordChange_same (out rfl) (.refl k s)
  | lock => exact execLock_same (out rfl) (.refl k s)
  | rwpWrite => exact execRwpWrite_same (out rfl) (.refl k s)
  | apply => exact execApply_same hr (out rfl) (.refl k s)
  | unlockTimeout => exact execUnlockTimeout_same (out rfl) (.refl k s)
  | lockoutEnd => exact execLockoutEnd_same (out rfl) (.refl k s)
  | refclkAbsent => exact execRefclkAbsent_same (out rfl) (.refl k s)
  | refclkPresent => exact execRefclkPresent_same (out rfl) (.refl k s)
  | xtal32Failed => exact execXtal32Failed_same (out rfl) (.refl k s)
  | xtal32Return => exact execXtal32Return_same (out rfl) (.refl k s)
  | lockWindow => exact execLockWindow_same (out rfl) (.refl k s)
  | coastLimit => exact execCoastLimit_same (out rfl) (.refl k s)
  | sync => exact execSync_same (out rfl) (.refl k s)
  | syncTimeout => exact execSyncTimeout_same (out rfl) (.refl k s)
  | ltStep => exact execLtStep_same (out rfl) (.refl k s)
  | carrierEpoch => exact execCarrierEpoch_same (out rfl) (.refl k s)
  | epochPeriod => exact execEpochPeriod_same (out rfl) (.refl k s)
  | restEntry => exact execRestEntry_same (out rfl) (.refl k s)
  | windowLeft => exact execWindowLeft_same (out rfl) (.refl k s)
  | restWakeTimer => exact execRestWakeTimer_same (out rfl) (.refl k s)
  | busWithinSetpoint => exact execBusWithinSetpoint_same (out rfl) (.refl k s)
  | runRequest => exact execRunRequest_same (out rfl) (.refl k s)
  | standbyRequest => exact execStandbyRequest_same (out rfl) (.refl k s)
  | sleepRequest => exact execSleepRequest_same (out rfl) (.refl k s)
  | standbyEntry => exact execStandbyEntry_same (out rfl) (.refl k s)
  | sleepWake => exact execSleepWake_same (out rfl) (.refl k s)
  | sleepWakeTimer => exact execSleepWakeTimer_same (out rfl) (.refl k s)
  | wakeToStandby => exact execWakeToStandby_same hr (out rfl) (.refl k s)
  | vioUndervoltage => exact execVioUndervoltage_same (out rfl) (.refl k s)
  | vioRecovery => exact execVioRecovery_same (out rfl) (.refl k s)
  | hubOverTemperature => exact execHubOverTemperature_same (out rfl) (.refl k s)
  | read => exact execRead_same (out rfl) (.refl k s)
  | write => exact execWrite_same hr (out rfl) (.refl k s)
  | readRange => exact execReadRange_same (out rfl) (.refl k s)
  | writeRange => exact execWriteRange_same hr (out rfl) (.refl k s)
  | segInitWrite => exact execSegInitWrite_same (out rfl) (.refl k s)
  | segInitRead => exact execSegInitRead_same (out rfl) (.refl k s)
  | segDataWrite => exact execSegDataWrite_same (out rfl) (.refl k s)
  | segDataRead => exact execSegDataRead_same (out rfl) (.refl k s)
  | segEndWrite => exact execSegEndWrite_same hr (out rfl) (.refl k s)
  | segEndRead => exact execSegEndRead_same hr (out rfl) (.refl k s)
  | subscribe => exact execSubscribe_same (out rfl) (.refl k s)
  | notify => exact execNotify_same (out rfl) (.refl k s)
  | recordStreamPublish => exact execRecordStreamPublish_same (out rfl) (.refl k s)
  | abortTransfer => exact execAbortTransfer_same (out rfl) (.refl k s)
  | abortSession => exact execAbortSession_same (out rfl) (.refl k s)
  | sessionOpenStage1 => exact execSessionOpenStage1_same (out rfl) (.refl k s)
  | sessionOpenStage3 => exact execSessionOpenStage3_same (out rfl) (.refl k s)
  | datagramDiscard => exact execDatagramDiscard_same (out rfl) (.refl k s)
  | transferTimeout => exact execTransferTimeout_same (out rfl) (.refl k s)
  | handshakeTimeout => exact execHandshakeTimeout_same (out rfl) (.refl k s)
  | sessionIdleTimeout => exact execSessionIdleTimeout_same (out rfl) (.refl k s)
  | keptReplyExpiry => exact execKeptReplyExpiry_same (out rfl) (.refl k s)
  | store => exact execStore_same (out rfl) (.refl k s)
  | storeComplete => exact execStoreComplete_same (out rfl) (.refl k s)
  | restoreDefaults => exact execRestoreDefaults_same hr (out rfl) (.refl k s)
  | hostKeySlot => exact execHostKeySlot_same (out rfl) (.refl k s)
  | canMode => exact execCanMode_same (out rfl) (.refl k s)
  | transmitSubmit => exact execTransmitSubmit_same (out rfl) (.refl k s)
  | cancel => exact execCancel_same (out rfl) (.refl k s)
  | cancelAll => exact execCancelAll_same (out rfl) (.refl k s)
  | deadlineExpiry => exact execDeadlineExpiry_same (out rfl) (.refl k s)
  | arbitrationLost => exact execArbitrationLost_same (out rfl) (.refl k s)
  | frameReceived => exact execFrameReceived_same (out rfl) (.refl k s)
  | frameSent => exact execFrameSent_same (out rfl) (.refl k s)
  | busError => exact execBusError_same (out rfl) (.refl k s)
  | busOffRecovery => exact execBusOffRecovery_same (out rfl) (.refl k s)
  | restart => exact execRestart_same (out rfl) (.refl k s)
  | ringConsumer => exact execRingConsumer_same (out rfl) (.refl k s)
  | customerRootWrite => exact execCustomerRootWrite_same (out rfl) (.refl k s)
  | customerRootRevoke => exact execCustomerRootRevoke_same (out rfl) (.refl k s)
  | rollbackCommit => exact execRollbackCommit_same (out rfl) (.refl k s)
  | preferredSlot => exact execPreferredSlot_same (out rfl) (.refl k s)
  | loadBegin => exact execLoadBegin_same (out rfl) (.refl k s)
  | loadPiece => exact execLoadPiece_same (out rfl) (.refl k s)
  | loadEnd => exact execLoadEnd_same (out rfl) (.refl k s)
  | loadAbandon => exact execLoadAbandon_same (out rfl) (.refl k s)
  | partitionStart => exact execPartitionStart_same (out rfl) (.refl k s)
  | partitionStop => exact execPartitionStop_same (out rfl) (.refl k s)
  | partitionFault => exact execPartitionFault_same (out rfl) (.refl k s)
  | apiCall => exact execApiCall_same hr (out rfl) (.refl k s)
  | debugToken => exact execDebugToken_same (out rfl) (.refl k s)
  | debugLock => exact execDebugLock_same (out rfl) (.refl k s)
  | idcode => exact execIdcode_same (out rfl) (.refl k s)
  | bypass => exact execBypass_same (out rfl) (.refl k s)
  | samplePreload => exact execSamplePreload_same (out rfl) (.refl k s)
  | extest => exact execExtest_same (out rfl) (.refl k s)
  | attestationNonce => exact execAttestationNonce_same (out rfl) (.refl k s)
  | attestationReport => exact execAttestationReport_same (out rfl) (.refl k s)
  | readCursor => exact execReadCursor_same (out rfl) (.refl k s)
  | freezeSeverity => exact execFreezeSeverity_same (out rfl) (.refl k s)
  | unfreeze => exact execUnfreeze_same (out rfl) (.refl k s)
  | writeZeroToClear => exact execWriteZeroToClear_same hr (out rfl) (.refl k s)
  | channelLatchClear => exact execChannelLatchClear_same (out rfl) (.refl k s)
  | dieClear => exact execDieClear_same (out rfl) (.refl k s)
  | fltGroupClear => exact execFltGroupClear_same (out rfl) (.refl k s)
  | bldcClear => exact execBldcClear_same (out rfl) (.refl k s)
  | axisClear => exact execAxisClear_same (out rfl) (.refl k s)
  | supervisorStart => exact execSupervisorStart_same (out rfl) (.refl k s)
  | hubAdcConversion => exact execHubAdcConversion_same (out rfl) (.refl k s)
  | dcovTestEnd => exact execDcovTestEnd_same (out rfl) (.refl k s)
  | bestMasterClock => exact execBestMasterClock_same (out rfl) (.refl k s)
  | switchForward => exact execSwitchForward_same (out rfl) (.refl k s)
  | arpNdpIcmpEcho => exact execArpNdpIcmpEcho_same (out rfl) (.refl k s)
  | unknownOpcode => exact execUnknownOpcode_same (out rfl) (.refl k s)
  | unknownCommand => exact execUnknownCommand_same (out rfl) (.refl k s)

/-- No command touches any other guarded part: the part's own constants and the waiting commands. -/
theorem notMem_touches {i : Instr} {k : Part} (hk : k ∉ [Part.chans, .net, .qm]) : k ∉ touches i := by
  have hall : ((touches i).all fun k => [Part.chans, .net, .qm].contains k) = true := by
    cases i <;> rfl
  exact notMem_of hk hall

/-- What a command does not touch of the guarded parts is after it as before. -/
theorem same_of_exec {i : Instr} {s t : State} (h : exec i s = .next t) {k : Part} (hk : k ∈ guarded)
    (hn : k ∉ touches i) : State.Same k s t := by
  obtain ⟨u, hu, hsame⟩ := exec_same i s hk hn
  rw [hu] at h
  cases h
  exact hsame

end Sys2Proof.Machine
end

section
/-! SUPPORT. Every command keeps the part, the waiting commands, the bounds on sessions and the gates' safety (Kept): by
its frame where it touches neither the channels nor the network side, by its operations elsewhere. -/

namespace Sys2Proof.Machine

theorem Kept.ite {a s t : State} {c : Prop} [Decidable c] (hs : Kept a s) (ht : Kept a t) :
    Kept a (if c then s else t) := by
  split
  · exact hs
  · exact ht

/-! ## Power, resets, links -/

theorem vsysInvalid_keeps (s : State) : Gives .vsysInvalid s (Kept s) := by
  have hl : Kept s s.abandonLoad := State.abandonLoad_kept (.refl s)
  exact ⟨_, rfl, .ite (.record (State.restart_of hl.variant hl.part hl.pending) rfl rfl) (.refl s)⟩

theorem resetN_keeps (x : Nat) (s : State) : Gives (.resetN x) s (Kept s) := by
  have hd : Kept s s.draw := State.draw_kept (.refl s)
  exact ⟨_, rfl, .ite (.refl s) (.ite (State.warm_kept (.refl s)) (.ite (State.warm_kept hd) hd))⟩

theorem residentFirmwareStart_keeps (s : State) : Gives .residentFirmwareStart s (Kept s) :=
  ⟨_, rfl, .ite (.ite (State.startFirmware_kept (.refl s)) (State.bootOther_kept (.refl s))) (.refl s)⟩

theorem hingeCLinkFailed_keeps (n : Nat) (dir : Dir) (s : State) : Gives (.hingeCLinkFailed n dir) s (Kept s) := by
  have hf (f : Link → Link) : Kept s (((s.endReplay n dir 1).endAgain n dir 1).onLink n dir f) :=
    State.onLink_kept (State.endAgain_kept (State.endReplay_kept (.refl s)))
  exact ⟨_, rfl, .ite (.ite (State.loseDie_kept (hf _)) (hf _)) (.refl s)⟩

theorem heartbeatTimeout_keeps (n : Nat) (s : State) : Gives (.heartbeatTimeout n) s (Kept s) :=
  ⟨_, rfl, .ite (State.loseDie_kept (State.cancelReplay_kept (State.cancelReplay_kept
    (.ite (.refl s) (State.openCorr_kept (.refl s)))))) (.refl s)⟩

theorem dieWatchdog_keeps (n : Nat) (core : Bool) (s : State) : Gives (.dieWatchdog n core) s (Kept s) :=
  ⟨_, rfl, .ite (each_kept (each_kept (State.setDie_kept (State.openCorr_kept (.refl s)))
    fun _ _ => State.latchOne_kept) fun _ _ => State.latchDab_kept) (.refl s)⟩

/-- A latch frame that asserts a fault source. -/
theorem assertFrame_kept {n code src : Nat} {a b : Frame64} (s : State) :
    Kept s (s.arrives n code a b fun corr y => y.assertSource n src corr) :=
  State.arrives_kept (.refl s) fun _ _ => State.assertSource_kept

/-- Changing what a channel holds beside its slice leaves its gates as they are. -/
theorem Kept.setChan_slice {a s : State} (h : Kept a s) (c : Nat) {x : Chan} (hx : x.slice = (s.chan c).slice) :
    Kept a (s.setChan c x) :=
  State.setChan_kept h fun g => hx ▸ h.chan g c

/-- A slice whose gates and waiting turn-on are the channel's own, in other respects changed. -/
theorem Kept.setChan_gates {a s : State} (h : Kept a s) (c : Nat) {x : Chan} (h1 : x.slice.hg = (s.chan c).slice.hg)
    (h2 : x.slice.lg = (s.chan c).slice.lg) (h3 : x.slice.turnOn = (s.chan c).slice.turnOn) : Kept a (s.setChan c x) :=
  State.setChan_kept h fun g => .same (h.chan g c) h1 h2 h3

theorem doorRelease_keeps (n : Nat) (a b : Frame64) (s : State) : Gives (.doorRelease n a b) s (Kept s) :=
  ⟨_, rfl, State.arrives_kept (.refl s) fun _ _ hy => each_kept (State.setDie_kept hy) fun _ c hz =>
    .ite (.setChan_slice hz c rfl) hz⟩

/-! ## The measuring part's frames -/

theorem qmRecordFrame_keeps (n : Nat) (s : State) : Gives (.qmRecordFrame n) s (Kept s) := by
  refine ⟨_, rfl, ?_⟩
  split
  · exact .ite (.record (State.heard_kept (.refl s)) rfl rfl) (.refl s)
  · exact .refl s

theorem qmBatchRecordFrame_keeps (n : Nat) (s : State) : Gives (.qmBatchRecordFrame n) s (Kept s) := by
  refine ⟨_, rfl, ?_⟩
  split
  · exact .ite (.record (State.heard_kept (.refl s)) rfl rfl) (.refl s)
  · exact .refl s

theorem mirrorSet_keeps (x : Nat) (s : State) : Gives (.mirrorSet x) s (Kept s) :=
  ⟨_, rfl, .ite (each_kept (State.heard_kept (.refl s)) fun _ _ => State.putMirror_kept) (.refl s)⟩

theorem metrologyEvent_keeps (e : QmEvent) (s : State) : Gives (.metrologyEvent e) s (Kept s) :=
  ⟨_, rfl, .ite (State.takeEvent_kept (State.heard_kept (State.onQm_kept (.refl s)))) (.refl s)⟩

/-! ## The power stage -/

theorem pathDiagnosisResult_keeps (die u : Nat) (r : List (Nat × Nat × Nat)) (s : State) :
    Gives (.pathDiagnosisResult die u r) s (Kept s) := by
  refine ⟨_, rfl, ?_⟩
  extract_lets x y corr
  refine .ite ?_ (.refl s)
  have hy : Kept s y := State.setAdc_kept (.refl s)
  split
  · exact State.wr_kept hy
  · extract_lets z
    have hz : Kept s z := State.raise_kept (State.openCorr_kept hy)
    exact .ite (State.failUnit_kept hz) (State.setAdc_kept hz)

theorem vdrvUndervoltage_keeps (n mv : Nat) (s : State) : Gives (.vdrvUndervoltage n mv) s (Kept s) :=
  ⟨_, rfl, .ite (State.assertSource_kept (State.openCorr_kept (State.wakeDie_kept (State.slicesLow_kept
    (State.wr_kept (State.wr_kept (State.vdrvNote_kept (.refl s)))))))) (.refl s)⟩

/-- The held low side (R47): the high gate goes off, and a turn-on that waits goes with it. -/
theorem Slice.Safe.highOff {x : Slice} (hx : x.Safe) :
    (if x.leg = Leg.high then { x with hg := false, leg := .off, turnOn := none }
      else { x with hg := false }).Safe := by
  obtain ⟨_, hhigh, _⟩ := hx
  split <;> simp_all [Slice.Safe]

theorem bootstrapHold_keeps (c mv : Nat) (s : State) : Gives (.bootstrapHold c mv) s (Kept s) :=
  ⟨_, rfl, .ite (State.wr_kept (State.setChan_kept (.refl s) fun g => (g.chan c).highOff)) (.refl s)⟩

theorem forcedRefresh_keeps (c : Nat) (s : State) : Gives (.forcedRefresh c) s (Kept s) := by
  refine ⟨_, rfl, ?_⟩
  extract_lets n k t ch y u v z w
  have hz : Kept s z := State.setUnit_kept (.setChan_gates (.refl s) c rfl rfl rfl)
  have hw : Kept s w := .ite hz (State.place_kept hz)
  exact .ite (State.inc_kept hw) (.refl s)

theorem edgeTime_keeps (c : Nat) (s : State) : Gives (.edgeTime c) s (Kept s) := by
  refine ⟨_, rfl, ?_⟩
  extract_lets ch
  split
  · exact .ite (State.takeLeg_kept (.setChan_gates (.refl s) c rfl rfl rfl)) (.refl s)
  · exact .refl s

/-- The gate that the dead time held back turns on with the other gate off (R49). -/
theorem Slice.Safe.gateOn {x : Slice} {hi : Bool} {t : Nat} (hx : x.Safe) (ht : x.turnOn = some (hi, t)) (u b : Nat) :
    (x.gateOn hi u b).Safe := by
  obtain ⟨_, hhigh, hlow⟩ := hx
  exact Slice.gateOn_safe (fun h => hhigh t (h ▸ ht)) (fun h => hlow t (h ▸ ht))

theorem deadTimeTurnOn_keeps (c : Nat) (s : State) : Gives (.deadTimeTurnOn c) s (Kept s) := by
  refine ⟨_, rfl, ?_⟩
  extract_lets ch
  split
  case h_1 hi t ht =>
    have hoff : s.GatesSafe → ({ ch.slice with turnOn := none, leg := .off } : Slice).Safe := fun g => by
      have hx := g.chan c
      exact ⟨hx.1, nofun, nofun⟩
    exact .ite (.ite (State.setChan_kept (.refl s) hoff)
      (State.setChan_kept (.refl s) fun g => (g.chan c).gateOn ht _ _)) (.refl s)
  case h_2 => exact .refl s

theorem softComparatorTrip_keeps (c : Nat) (uv : Int) (s : State) : Gives (.softComparatorTrip c uv) s (Kept s) := by
  have hs : Kept s (s.sawShunt c uv) := State.sawShunt_kept (.refl s)
  exact ⟨_, rfl, .ite (.ite (State.trip_kept hs) hs) (.refl s)⟩

theorem hardComparatorTrip_keeps (c : Nat) (uv : Int) (s : State) : Gives (.hardComparatorTrip c uv) s (Kept s) := by
  have hs : Kept s (s.sawShunt c uv) := State.sawShunt_kept (.refl s)
  exact ⟨_, rfl, .ite (.ite (State.trip_kept hs) hs) (.refl s)⟩

theorem blankingEnd_keeps (c : Nat) (uv : Int) (s : State) : Gives (.blankingEnd c uv) s (Kept s) := by
  have hz (x : Chan) (hx : x.slice = { ((s.sawShunt c uv).chan c).slice with blankEnd := 0 }) :
      Kept s ((s.sawShunt c uv).setChan c x) :=
    .setChan_gates (State.sawShunt_kept (.refl s)) c (hx ▸ rfl) (hx ▸ rfl) (hx ▸ rfl)
  exact ⟨_, rfl, .ite (.ite (State.trip_kept (hz _ rfl)) (hz _ rfl)) (.refl s)⟩

theorem contactCheckStart_keeps (c : Nat) (s : State) : Gives (.contactCheckStart c) s (Kept s) := by
  refine ⟨_, rfl, ?_⟩
  extract_lets ch a
  split
  · exact .ite (State.setAdc_kept (State.setChan_kept (.refl s) fun _ => slice_safe_cut _)) (.refl s)
  · exact .refl s

theorem contactCheckPhase_keeps (c : Nat) (codes : List Nat) (s : State) :
    Gives (.contactCheckPhase c codes) s (Kept s) := by
  refine ⟨_, rfl, ?_⟩
  extract_lets ch
  split
  · split
    · exact .ite (.setChan_slice (.refl s) c rfl) (.refl s)
    · exact .refl s
  · exact .refl s

theorem contactCheckResult_keeps (c : Nat) (s : State) : Gives (.contactCheckResult c) s (Kept s) := by
  refine ⟨_, rfl, ?_⟩
  split
  · exact .ite (State.checkResult_kept (.refl s)) (.refl s)
  · exact .refl s

/-! ## Pulses, sources, a halted die -/

theorem periodBoundary_keeps (die u : Nat) (s : State) : Gives (.periodBoundary die u) s (Kept s) := by
  refine ⟨_, rfl, ?_⟩
  extract_lets x
  refine .ite (.ite (.ite (State.runBoundary_kept (.refl s)) (.refl s)) ?_) (.refl s)
  split
  · exact .ite (State.startBoundary_kept (.refl s)) (.refl s)
  · exact .refl s

theorem faultSourceAssert_keeps (n src u : Nat) (m1 m2 : Int) (s : State) :
    Gives (.faultSourceAssert n src u m1 m2) s (Kept s) := by
  have hs : Kept s (s.sawDie n src u m2) := State.sawDie_kept (.refl s)
  exact ⟨_, rfl, .ite (.ite (State.assertSource_kept (State.openCorr_kept (State.wakeDie_kept hs))) hs) (.refl s)⟩

theorem debugResume_keeps (die : Nat) (s : State) : Gives (.debugResume die) s (Kept s) := by
  refine ⟨_, rfl, ?_⟩
  extract_lets d len y z w
  have hy : Kept s y := State.setDie_kept (.refl s)
  have hz : Kept s z := State.retimeLanes_kept (State.mapSlices_kept hy fun _ hx => Slice.move_safe hx _)
  have hw : Kept s w := .ite (State.lowAtResume_kept hz) hz
  exact .ite (each_kept hw fun _ _ => State.setUnit_kept) (.refl s)

/-! ## Jobs -/

theorem jobStart_keeps (die e : Nat) (s : State) : Gives (.jobStart die e) s (Kept s) := by
  refine ⟨_, rfl, ?_⟩
  split
  · extract_lets y
    have hy : Kept s y := State.takeUpTo_kept (.refl s)
    split
    · exact State.startJob_kept hy
    · exact hy
  · exact .refl s

theorem jobEnd_keeps (die e : Nat) (s : State) : Gives (.jobEnd die e) s (Kept s) := by
  refine ⟨_, rfl, ?_⟩
  extract_lets y
  split
  · refine .ite (.refl s) (.ite (State.finishJob_kept (State.templateJob_kept (.refl s)))
      (State.finishJob_kept ?_))
    split
    · exact State.customJob_kept (.refl s)
    · exact .refl s
  · exact .refl s

theorem engineFault_keeps (die e : Nat) (k : EngFault) (s : State) : Gives (.engineFault die e k) s (Kept s) := by
  refine ⟨_, rfl, ?_⟩
  extract_lets y
  split
  · exact .ite (State.latchSlot_kept (State.setEng_kept (State.setSlot_kept (.refl s)))) (.refl s)
  · exact .refl s

theorem trm_keeps (die e : Nat) (s : State) : Gives (.trm die e) s (Kept s) := by
  refine ⟨_, rfl, State.micro_kept (.refl s) fun y x j hy => ?_⟩
  have he : Kept s (y.setEng die e x) := State.setEng_kept hy
  dsimp only
  split
  · exact .ite (State.trm_kept he) he
  · exact he

theorem lat_keeps (die e code : Nat) (s : State) : Gives (.lat die e code) s (Kept s) :=
  ⟨_, rfl, State.micro_kept (.refl s) fun _ _ _ hy => State.latchSlot_kept (State.setEng_kept hy)⟩

/-! ## Supervision of a channel -/

theorem samplesStale_keeps (c : Nat) (s : State) : Gives (.samplesStale c) s (Kept s) := by
  refine ⟨_, rfl, ?_⟩
  split
  · exact .ite (State.latchNew_kept (.refl s)) (.refl s)
  · exact .refl s

theorem plausibilityFault_keeps (c : Nat) (s : State) : Gives (.plausibilityFault c) s (Kept s) :=
  ⟨_, rfl, .ite (State.latchChans_kept (State.raise_kept (State.wr_kept (State.inc_kept
    (State.openCorr_kept (.refl s)))))) (.refl s)⟩

theorem plausibilityUnavailable_keeps (c : Nat) (s : State) : Gives (.plausibilityUnavailable c) s (Kept s) := by
  refine ⟨_, rfl, ?_⟩
  split
  · exact .ite (State.noteAt_kept (State.wr_kept (State.wr_kept (.setChan_slice (.refl s) c rfl)))) (.refl s)
  · exact .refl s

/-! ## Recipes and groups -/

theorem runStart_keeps (src : Src) (first last : Nat) (s : State) : Gives (.runStart src first last) s (Kept s) :=
  ⟨_, rfl, State.writeObj_kept (when'_kept (.refl s) fun _ => State.markInvalid_kept) fun _ _ => startSet_kept⟩

theorem milestoneClose_keeps (c : Nat) (s : State) : Gives (.milestoneClose c) s (Kept s) := by
  refine ⟨_, rfl, ?_⟩
  extract_lets r
  refine .ite (.refl s) ?_
  split
  · exact State.milestone_kept (.refl s)
  · exact .ite (State.milestone_kept (.refl s)) (.refl s)

theorem groupStart_keeps (g : Nat) (s : State) : Gives (.groupStart g) s (Kept s) := by
  refine ⟨_, rfl, ?_⟩
  split
  · split
    · extract_lets ms y z
      have hy : Kept s y := each_kept (.refl s) fun _ _ => State.wakeDie_kept
      have hz : Kept s z := State.wr_kept (State.setGroup_kept hy)
      exact .ite (each_kept hz fun _ _ hx => State.setRunSt_kept (State.setRun_kept hx))
        (each_kept hz fun _ _ => State.beginStep_kept)
    · exact .refl s
  · exact .refl s

theorem speedSetpoint_keeps (src : Src) (a : Nat) (rpm : Int) (s : State) :
    Gives (.speedSetpoint src a rpm) s (Kept s) :=
  ⟨_, rfl, State.writeObj_kept (when'_kept (.refl s) fun _ => State.countReversal_kept) fun _ _ => setpointSet_kept⟩

/-! ## Temperatures, clocks, power states -/

theorem overTemperatureCheck_keeps (n : Nat) (codes : List Nat) (s : State) :
    Gives (.overTemperatureCheck n codes) s (Kept s) :=
  ⟨_, rfl, .ite (each_kept (each_kept (State.setDie_kept (.refl s)) fun _ _ => State.takeTemp_kept)
    fun _ _ => State.checkTemp_kept) (.refl s)⟩

theorem temperaturePlausibilityCheck_keeps (n : Nat) (s : State) :
    Gives (.temperaturePlausibilityCheck n) s (Kept s) :=
  ⟨_, rfl, .ite (each_kept (State.setDie_kept (.refl s)) fun _ _ => State.compareTemp_kept) (.refl s)⟩

theorem lockWindow_keeps (l count : Nat) (s : State) : Gives (.lockWindow l count) s (Kept s) := by
  have hset (x : Loop) : Kept s (s.setLoop l x) := State.setLoop_kept (.refl s)
  exact ⟨_, rfl, .ite (.refl s) (.ite (.ite (State.loseLock_kept (.refl s)) (hset _))
    (.ite (State.coastOut_kept (.refl s)) (.ite (hset _) (.ite (State.declareLock_kept (.refl s)) (hset _)))))⟩

theorem ltStep_keeps (s : State) : Gives .ltStep s (Kept s) := by
  refine ⟨_, rfl, ?_⟩
  split
  · exact .ite (State.takePubs_kept (State.epoch_kept (.refl s))) (.refl s)
  · exact .refl s

theorem carrierEpoch_keeps (errs : List Int) (s : State) : Gives (.carrierEpoch errs) s (Kept s) := by
  refine ⟨_, rfl, ?_⟩
  split
  · exact .ite (State.takePubs_kept (State.epoch_kept (.refl s))) (.refl s)
  · exact .refl s

theorem windowLeft_keeps (c vCode tCode : Nat) (s : State) : Gives (.windowLeft c vCode tCode) s (Kept s) := by
  refine ⟨_, rfl, ?_⟩
  split
  · extract_lets v t ch y
    have hy : Kept s y := .setChan_slice (.refl s) c rfl
    exact .ite (State.wakeDie_kept hy) hy
  · exact .refl s

theorem wakeToStandby_keeps (hash : List Byte) (s : State) : Gives (.wakeToStandby hash) s (Kept s) := by
  have hw : Kept s { s with waking := false } := .record (.refl s) rfl rfl
  exact ⟨_, rfl, .ite (.ite (State.mail_kept (State.wr_kept (State.wr_kept hw)))
    (State.wr_kept (State.restart_kept (.refl s)))) (.refl s)⟩

/-! ## Keyway -/

theorem subscribe_keeps (src : Src) (p h n : Nat) (l : List SubEntry) (s : State) :
    Gives (.subscribe src p h n l) s (Kept s) := by
  refine ⟨_, rfl, ?_⟩
  cases src with
  | service => exact .refl s
  | keyway | user => exact State.serve_kept (.refl s) fun _ => State.subscribeTo_kept

theorem notify_keeps (s : State) : Gives .notify s (Kept s) := by
  have ht : Kept s { s.clearOut with net := { s.clearOut.net with pubs := [] } } :=
    .record (State.clearOut_kept (.refl s)) rfl rfl
  exact ⟨_, rfl, each_kept ht fun _ _ => State.notifyOut_kept⟩

theorem recordStreamPublish_keeps (session handle : Nat) (s : State) :
    Gives (.recordStreamPublish session handle) s (Kept s) := by
  refine ⟨_, rfl, ?_⟩
  extract_lets y src
  have hy : Kept s y := State.clearOut_kept (.refl s)
  split
  · exact hy
  · extract_lets r z w
    have hw : Kept s w := State.setSubs_kept (State.wr_kept hy)
    exact .ite (.ite hw (State.notifyOut_kept (State.countStream_kept hw))) hy

theorem abortTransfer_keeps (src : Src) (transfer : Nat) (s : State) :
    Gives (.abortTransfer src transfer) s (Kept s) := by
  refine ⟨_, rfl, ?_⟩
  cases src with
  | keyway =>
    refine State.serve_kept (.refl s) fun y hy => ?_
    split
    · exact keptAns_error
    · exact done_kept (State.closeTransfer_kept hy)
  | user | service => exact .refl s

theorem abortSession_keeps (src : Src) (s : State) : Gives (.abortSession src) s (Kept s) := by
  refine ⟨_, rfl, ?_⟩
  cases src with
  | keyway =>
    exact when'_kept (State.serve_kept (.refl s) fun _ => done_kept) fun _ => State.endSession_kept
  | user | service => exact .refl s

/-- A handshake begins while fewer than two run (R448). -/
theorem sessionOpenStage1_keeps (seq : Nat) (p : List Byte) (s : State) :
    Gives (.sessionOpenStage1 seq p) s (Kept s) := by
  refine ⟨_, rfl, ?_⟩
  extract_lets y
  have hy : Kept s y := State.clearOut_kept (.refl s)
  refine .ite hy (.ite (State.shakeRefuse_kept hy) ?_)
  split
  · exact State.shakeRefuse_kept hy
  case isFalse hroom =>
    have hn : y.net.shakes.length < 2 := Nat.lt_of_not_le fun h => hroom (.inr h)
    exact State.beginShake_kept hy hn

/-- Stage 3 answers `done` only while fewer than eight sessions are open (R448). -/
theorem State.sessions_lt_of_stage3Code {s : State} {x : Handshake} {key sig : List Byte}
    (h : s.stage3Code x key sig = aDone) : s.net.sessions.length < 8 := by
  unfold State.stage3Code at h
  split at h
  · exact absurd h (by decide)
  · split at h
    · exact absurd h (by decide)
    · split at h
      · exact absurd h (by decide)
      case isFalse hfull => simpa [State.sessionsFull] using hfull

/-- Handshakes that end leave the bounds on sessions and handshakes. -/
theorem Kept.filterShakes {a s : State} (h : Kept a s) (p : Handshake → Bool) :
    Kept a { s with net := { s.net with shakes := s.net.shakes.filter p } } := by
  refine ⟨h.variant, h.part, h.pending, fun hb => ?_, h.gates⟩
  obtain ⟨hsessions, hshakes⟩ := h.sessions hb
  exact ⟨hsessions, (List.length_filter_le ..).trans hshakes⟩

theorem sessionOpenStage3_keeps (session seq : Nat) (key sig : List Byte) (s : State) :
    Gives (.sessionOpenStage3 session seq key sig) s (Kept s) := by
  refine ⟨_, rfl, ?_⟩
  extract_lets y
  have hy : Kept s y := State.clearOut_kept (.refl s)
  split
  · exact hy
  · refine .ite hy ?_
    dsimp only
    split
    case isTrue hc =>
      have hn : y.net.sessions.length < 8 := State.sessions_lt_of_stage3Code hc
      exact State.openSession_kept (hy.filterShakes _) hn
    case isFalse => exact State.shakeRefuse_kept (hy.filterShakes _)

theorem transferTimeout_keeps (session transfer : Nat) (s : State) :
    Gives (.transferTimeout session transfer) s (Kept s) := by
  refine ⟨_, rfl, ?_⟩
  split
  · exact .refl s
  · split
    · exact .refl s
    · exact .ite (State.draw_kept (State.send_kept (State.inc_kept (State.setSession_kept
        (State.clearOut_kept (.refl s)))))) (.refl s)

theorem sessionIdleTimeout_keeps (session : Nat) (s : State) : Gives (.sessionIdleTimeout session) s (Kept s) := by
  refine ⟨_, rfl, ?_⟩
  split
  · exact .ite (State.endSession_kept (.refl s)) (.refl s)
  · exact .refl s

theorem keptReplyExpiry_keeps (session seq : Nat) (s : State) : Gives (.keptReplyExpiry session seq) s (Kept s) := by
  refine ⟨_, rfl, ?_⟩
  split
  · exact State.setSession_kept (.refl s)
  · exact .refl s

theorem storeComplete_keeps (ok : Bool) (s : State) : Gives (.storeComplete ok) s (Kept s) := by
  refine ⟨_, rfl, ?_⟩
  refine .ite ?_ (.refl s)
  extract_lets by' ack y n z
  have hy : Kept s y := State.wr_kept (when'_kept (State.clearOut_kept (.refl s)) fun _ => State.keepSnapshot_kept)
  have hz : Kept s z := .record hy rfl rfl
  clear_value by'
  split
  · exact State.answer_kept hz
  · exact hz

theorem partitionFault_keeps (cause : Nat) (s : State) : Gives (.partitionFault cause) s (Kept s) :=
  ⟨_, rfl, .ite (State.note_kept (State.wr_kept (partHalt_kept (.refl s)))) (.refl s)⟩

theorem apiCall_keeps (span : Span) (payload : Option (List Byte)) (s : State) :
    Gives (.apiCall span payload) s (Kept s) := by
  refine ⟨_, rfl, ?_⟩
  cases payload with
  | none => exact State.readReq_kept (.refl s)
  | some => exact State.writeReq_kept (.refl s)

theorem attestationReport_keeps (src : Src) (qm : Bool) (s : State) : Gives (.attestationReport src qm) s (Kept s) := by
  refine ⟨_, rfl, ?_⟩
  cases src with
  | keyway => exact State.segInit_kept (.refl s)
  | user | service => exact State.serve_kept (.refl s) fun _ => State.readReport_kept

theorem switchForward_keeps (port : Nat) (frame : List Byte) (s : State) :
    Gives (.switchForward port frame) s (Kept s) :=
  ⟨_, rfl, .ite (.refl s) (.ite (State.inc_kept (.refl s)) (.record (.refl s) rfl rfl))⟩

/-! ## Every command -/

theorem sessionsBounded_of_net {s t : State} (h : t.net = s.net) (hs : s.SessionsBounded) : t.SessionsBounded := by
  unfold State.SessionsBounded at *
  rwa [h]

theorem gatesSafe_of_chans {s t : State} (h : t.chans = s.chans) (hs : s.GatesSafe) : t.GatesSafe := by
  unfold State.GatesSafe at *
  rwa [h]

/-- A command that touches neither the channels nor the network side keeps the invariant by its frame alone. -/
theorem keeps_of_untouched {i : Instr} {s : State}
    (h : ((touches i).contains .chans || (touches i).contains .net) = false) : Gives i s (Kept s) := by
  obtain ⟨hc, hn⟩ : Part.chans ∉ touches i ∧ Part.net ∉ touches i := by simpa using h
  obtain ⟨t, ht, hvariant⟩ := exec_same i s (k := .variant) (by decide) (notMem_touches (by decide))
  exact ⟨t, ht, hvariant, same_of_exec ht (k := .sealedPart) (by decide) (notMem_touches (by decide)),
    same_of_exec ht (k := .pending) (by decide) (notMem_touches (by decide)),
    sessionsBounded_of_net (same_of_exec ht (k := .net) (by decide) hn),
    gatesSafe_of_chans (same_of_exec ht (k := .chans) (by decide) hc)⟩

/-- Every command is carried out and keeps the part, the waiting commands, the bounds on sessions and the gates'
safety. -/
theorem exec_keeps (i : Instr) (s : State) : Gives i s (Kept s) := by
  cases i with
  | vsysValid => exact ⟨_, rfl, .ite (.refl s) (State.powerOn_kept (.refl s))⟩
  | vsysInvalid => exact vsysInvalid_keeps s
  | resetN => exact resetN_keeps _ s
  | hubWatchdog => exact ⟨_, rfl, .ite (State.warm_kept (.refl s)) (.refl s)⟩
  | warmReset => exact ⟨_, rfl, State.settle_kept (State.writeObj_kept (.refl s) fun _ _ => warmSet_kept)⟩
  | siteReset => exact ⟨_, rfl, State.settle_kept (State.writeObj_kept (.refl s) fun _ _ => siteResetSet_kept)⟩
  | engineReset => exact ⟨_, rfl, State.settle_kept (State.writeObj_kept (.refl s) fun _ _ => engineResetSet_kept)⟩
  | residentFirmwareStart => exact residentFirmwareStart_keeps s
  | hingeCLinkFailed => exact hingeCLinkFailed_keeps _ _ s
  | heartbeatTimeout => exact heartbeatTimeout_keeps _ s
  | dieWatchdog => exact dieWatchdog_keeps _ _ s
  | siteRecovery => exact ⟨_, rfl, .ite (State.recoverSite_kept (.refl s)) (.refl s)⟩
  | dcovComparator | dcLinkAboveOv2 | safetyStop | segmentStop => exact ⟨_, rfl, assertFrame_kept s⟩
  | doorRelease => exact doorRelease_keeps _ _ _ s
  | qmRecordFrame => exact qmRecordFrame_keeps _ s
  | qmBatchRecordFrame => exact qmBatchRecordFrame_keeps _ s
  | mirrorSet => exact mirrorSet_keeps _ s
  | metrologyEvent => exact metrologyEvent_keeps _ s
  | pathDiagnosisResult => exact pathDiagnosisResult_keeps _ _ _ s
  | diagnoseNow => exact ⟨_, rfl, State.writeObj_kept (.refl s) fun _ _ => diagnoseNowSet_kept⟩
  | controlAdcCalibrationWrite =>
    exact ⟨_, rfl, .ite (State.writeObj_kept (.refl s) fun _ _ => calibrationSet_kept) (.refl s)⟩
  | vdrvUndervoltage => exact vdrvUndervoltage_keeps _ _ s
  | bootstrapHold => exact bootstrapHold_keeps _ _ s
  | forcedRefresh => exact forcedRefresh_keeps _ s
  | edgeWord => exact ⟨_, rfl, .ite (State.receiveWord_kept (.refl s)) (.refl s)⟩
  | edgeTime => exact edgeTime_keeps _ s
  | deadTimeTurnOn => exact deadTimeTurnOn_keeps _ s
  | softComparatorTrip => exact softComparatorTrip_keeps _ _ s
  | hardComparatorTrip => exact hardComparatorTrip_keeps _ _ s
  | blankingEnd => exact blankingEnd_keeps _ _ s
  | checkNow => exact ⟨_, rfl, State.writeObj_kept (.refl s) fun _ _ => checkNowSet_kept⟩
  | contactCheckStart => exact contactCheckStart_keeps _ s
  | contactCheckPhase => exact contactCheckPhase_keeps _ _ s
  | contactCheckResult => exact contactCheckResult_keeps _ s
  | periodBoundary => exact periodBoundary_keeps _ _ s
  | commit => exact ⟨_, rfl, State.writeObj_kept (.refl s) fun _ _ => commitSet_kept⟩
  | faultSourceAssert => exact faultSourceAssert_keeps _ _ _ _ _ s
  | debugResume => exact debugResume_keeps _ s
  | release => exact ⟨_, rfl, .ite (State.release_kept (.refl s)) (.refl s)⟩
  | jobStart => exact jobStart_keeps _ _ s
  | jobEnd => exact jobEnd_keeps _ _ s
  | engineFault => exact engineFault_keeps _ _ _ s
  | trm => exact trm_keeps _ _ s
  | lat => exact lat_keeps _ _ _ s
  | descriptorLoad => exact ⟨_, rfl, State.writeBlob_kept (.refl s) fun _ _ => descriptorSet_kept⟩
  | descriptorRemove => exact ⟨_, rfl, State.writeObj_kept (.refl s) fun _ _ => removeSet_kept⟩
  | curveTableLoad => exact ⟨_, rfl, State.writeBlob_kept (.refl s) fun _ _ => State.wrB_kept⟩
  | samplesStale => exact samplesStale_keeps _ s
  | followingError | voltageLimit | doorLimitLatch => exact ⟨_, rfl, .ite (State.latchNew_kept (.refl s)) (.refl s)⟩
  | plausibilityFault => exact plausibilityFault_keeps _ s
  | plausibilityUnavailable => exact plausibilityUnavailable_keeps _ s
  | recipeLoad => exact ⟨_, rfl, State.writeBlob_kept (.refl s) fun _ _ => recipeSet_kept⟩
  | runStart => exact runStart_keeps _ _ _ s
  | runStop => exact ⟨_, rfl, State.writeObj_kept (.refl s) fun _ _ => stopSet_kept⟩
  | runContinue => exact ⟨_, rfl, State.writeObj_kept (.refl s) fun _ _ => continueSet_kept⟩
  | milestoneClose => exact milestoneClose_keeps _ s
  | groupStart => exact groupStart_keeps _ s
  | powerStart | powerStop => exact ⟨_, rfl, State.writeObj_kept (.refl s) fun _ _ => powerSet_kept⟩
  | speedSetpoint => exact speedSetpoint_keeps _ _ _ s
  | targetPosition => exact ⟨_, rfl, State.writeObj_kept (.refl s) fun _ _ => targetSet_kept⟩
  | referencePosition => exact ⟨_, rfl, State.writeObj_kept (.refl s) fun _ _ => referenceSet_kept⟩
  | overTemperatureCheck => exact overTemperatureCheck_keeps _ _ s
  | temperaturePlausibilityCheck => exact temperaturePlausibilityCheck_keeps _ s
  | temperaturePlausibilityFault => exact ⟨_, rfl, .ite (State.latchNew_kept (State.tempBit_kept (.refl s))) (.refl s)⟩
  | resetRequest => exact ⟨_, rfl, State.writeObj_kept (.refl s) fun _ _ => resetSet_kept⟩
  | safeOutputRequest => exact ⟨_, rfl, State.writeObj_kept (.refl s) fun _ _ => outputSet_kept⟩
  | contactorRequest => exact ⟨_, rfl, State.writeObj_kept (.refl s) fun _ _ => contactorSet_kept⟩
  | unlock => exact ⟨_, rfl, State.writeBlob_kept (State.countWrong_kept (.refl s)) fun _ _ => unlockSet_kept⟩
  | passwordChange => exact ⟨_, rfl, State.writeBlob_kept (State.countWrong_kept (.refl s)) fun _ _ => passwordSet_kept⟩
  | lock => exact ⟨_, rfl, State.writeObj_kept (.refl s) fun _ _ => State.endUnlock_kept⟩
  | rwpWrite => exact ⟨_, rfl, .ite (State.writeObj_kept (.refl s) fun _ _ => rwpSet_kept) (.refl s)⟩
  | apply => exact ⟨_, rfl, State.writeObj_kept (.refl s) fun _ _ => applySet_kept⟩
  | unlockTimeout => exact ⟨_, rfl, .ite (State.endUnlock_kept (.refl s)) (.refl s)⟩
  | lockWindow => exact lockWindow_keeps _ _ s
  | coastLimit => exact ⟨_, rfl, .ite (State.coastOut_kept (.refl s)) (.refl s)⟩
  | ltStep => exact ltStep_keeps s
  | carrierEpoch => exact carrierEpoch_keeps _ s
  | epochPeriod => exact ⟨_, rfl, State.writeObj_kept (.refl s) fun _ _ => epochSet_kept⟩
  | restEntry => exact ⟨_, rfl, .ite (State.enterRest_kept (.refl s)) (.refl s)⟩
  | windowLeft => exact windowLeft_keeps _ _ _ s
  | runRequest | standbyRequest | sleepRequest =>
    exact ⟨_, rfl, State.writeObj_kept (.refl s) fun _ _ => powerReqSet_kept⟩
  | wakeToStandby => exact wakeToStandby_keeps _ s
  | vioUndervoltage =>
    exact ⟨_, rfl, .ite (State.bankLost_kept (State.bankNote_kept (State.markBank_kept (.refl s)))) (.refl s)⟩
  | read | readRange => exact ⟨_, rfl, State.readReq_kept (.refl s)⟩
  | write | writeRange => exact ⟨_, rfl, State.writeReq_kept (.refl s)⟩
  | segInitWrite | segInitRead => exact ⟨_, rfl, State.segInit_kept (.refl s)⟩
  | segDataWrite | segDataRead => exact ⟨_, rfl, State.segData_kept (.refl s)⟩
  | segEndWrite | segEndRead => exact ⟨_, rfl, State.segEnd_kept (.refl s)⟩
  | subscribe => exact subscribe_keeps _ _ _ _ _ s
  | notify => exact notify_keeps s
  | recordStreamPublish => exact recordStreamPublish_keeps _ _ s
  | abortTransfer => exact abortTransfer_keeps _ _ s
  | abortSession => exact abortSession_keeps _ s
  | sessionOpenStage1 => exact sessionOpenStage1_keeps _ _ s
  | sessionOpenStage3 => exact sessionOpenStage3_keeps _ _ _ _ s
  | transferTimeout => exact transferTimeout_keeps _ _ s
  | handshakeTimeout => exact ⟨_, rfl, (Kept.refl s).filterShakes _⟩
  | sessionIdleTimeout => exact sessionIdleTimeout_keeps _ s
  | keptReplyExpiry => exact keptReplyExpiry_keeps _ _ s
  | store => exact ⟨_, rfl, State.writeObj_kept (.refl s) fun _ _ => storeSet_kept⟩
  | storeComplete => exact storeComplete_keeps _ s
  | restoreDefaults => exact ⟨_, rfl, State.writeObj_kept (.refl s) fun _ _ => restoreSet_kept⟩
  | hostKeySlot => exact ⟨_, rfl, State.writeBlob_kept (.refl s) fun _ _ => hostKeySet_kept⟩
  | canMode => exact ⟨_, rfl, State.writeObj_kept (.refl s) fun _ _ => canModeSet_kept⟩
  | transmitSubmit => exact ⟨_, rfl, State.writeBlob_kept (.refl s) fun _ _ => submitSet_kept⟩
  | cancel | cancelAll => exact ⟨_, rfl, State.writeObj_kept (.refl s) fun _ _ => cancelSet_kept⟩
  | restart => exact ⟨_, rfl, State.writeObj_kept (.refl s) fun _ _ => restartSet_kept⟩
  | ringConsumer => exact ⟨_, rfl, State.writeObj_kept (.refl s) fun _ _ => consumerSet_kept⟩
  | customerRootWrite => exact ⟨_, rfl, State.writeBlob_kept (.refl s) fun _ _ => rootWriteSet_kept⟩
  | customerRootRevoke => exact ⟨_, rfl, State.writeObj_kept (.refl s) fun _ _ => revokeSet_kept⟩
  | rollbackCommit => exact ⟨_, rfl, State.writeObj_kept (.refl s) fun _ _ => rollbackSet_kept⟩
  | preferredSlot => exact ⟨_, rfl, State.writeObj_kept (.refl s) fun _ _ => preferSet_kept⟩
  | loadBegin => exact ⟨_, rfl, State.loadBegin_kept (.refl s)⟩
  | loadPiece => exact ⟨_, rfl, State.writeBlob_kept (.refl s) fun _ _ => pieceSet_kept⟩
  | loadEnd => exact ⟨_, rfl, State.writeObj_kept (.refl s) fun _ _ => loadEndSet_kept⟩
  | partitionStart | partitionStop => exact ⟨_, rfl, State.writeObj_kept (.refl s) fun _ _ => partitionSet_kept⟩
  | partitionFault => exact partitionFault_keeps _ s
  | apiCall => exact apiCall_keeps _ _ s
  | debugToken => exact ⟨_, rfl, State.writeBlob_kept (.refl s) fun _ _ => debugSet_kept⟩
  | debugLock => exact ⟨_, rfl, State.writeObj_kept (.refl s) fun _ _ => debugLockSet_kept⟩
  | attestationNonce => exact ⟨_, rfl, State.writeBlob_kept (.refl s) fun _ _ => State.setAttNonce_kept⟩
  | attestationReport => exact attestationReport_keeps _ _ s
  | readCursor => exact ⟨_, rfl, State.writeObj_kept (.refl s) fun _ _ => cursorSet_kept⟩
  | freezeSeverity => exact ⟨_, rfl, State.writeObj_kept (.refl s) fun _ _ => severitySet_kept⟩
  | unfreeze => exact ⟨_, rfl, State.writeObj_kept (.refl s) fun _ _ => unfreezeSet_kept⟩
  | writeZeroToClear => exact ⟨_, rfl, .ite (State.writeObj_kept (.refl s) fun _ _ => numSet_kept) (.refl s)⟩
  | channelLatchClear => exact ⟨_, rfl, State.writeObj_kept (.refl s) fun _ _ => clearSet_kept⟩
  | dieClear => exact ⟨_, rfl, State.writeObj_kept (.refl s) fun _ _ => dieClearSet_kept⟩
  | fltGroupClear => exact ⟨_, rfl, State.writeObj_kept (.refl s) fun _ _ => fltClearSet_kept⟩
  | bldcClear => exact ⟨_, rfl, State.writeObj_kept (.refl s) fun _ _ => bldcClearSet_kept⟩
  | axisClear => exact ⟨_, rfl, State.writeObj_kept (.refl s) fun _ _ => axisClearSet_kept⟩
  | switchForward => exact switchForward_keeps _ _ s
  | arpNdpIcmpEcho => exact ⟨_, rfl, .ite (.record (.refl s) rfl rfl) (.refl s)⟩
  | unknownOpcode => exact ⟨_, rfl, .ite (.refl s) (State.serve_kept (.refl s) fun _ _ => keptAns_error)⟩
  | _ => exact keeps_of_untouched rfl

end Sys2Proof.Machine
end

section
/-! SUPPORT. Every command leaves a measuring part that is SEALED or in ADJUSTMENT in one of the two (R239): the
operations of the measuring part, the writes that reach it, and the commands. -/

namespace Sys2Proof.Machine

/-- The measuring part is SEALED or in ADJUSTMENT (R239). -/
def State.Sealed (s : State) : Prop := 1 ≤ s.qm.sealSt ∧ s.qm.sealSt ≤ 2

theorem State.Sealed.of_eq {s t : State} (h : s.Sealed) (e : t.qm.sealSt = s.qm.sealSt) : t.Sealed := by
  unfold State.Sealed at *
  rwa [e]

/-- What leaves the measuring part as it is leaves its seal. -/
theorem State.Sealed.of_same {s t : State} (h : s.Sealed) (e : State.Same .qm s t) : t.Sealed :=
  h.of_eq (congrArg Qm.sealSt e)

/-- An update of the measuring part that writes another field leaves its seal. -/
theorem State.Sealed.onQm {s : State} {f : Qm → Qm} (h : s.Sealed) (e : ∀ q, (f q).sealSt = q.sealSt) :
    (s.onQm f).Sealed :=
  h.of_eq (e s.qm)

theorem State.Sealed.ite {s t : State} {c : Prop} [Decidable c] (hs : s.Sealed) (ht : t.Sealed) :
    (if c then s else t).Sealed := by
  split
  · exact hs
  · exact ht

theorem State.Sealed.each {α : Type} {l : List α} {f : State → α → State} {s : State} (h : s.Sealed)
    (hf : ∀ y x, y.Sealed → (f y x).Sealed) : (each l f s).Sealed := by
  induction l generalizing s with
  | nil => exact h
  | cons x l ih => exact ih (hf s x h)

/-! ## Marks, records and steps of the measuring part -/

section
variable {s : State}

theorem State.draw_sealed (h : s.Sealed) : s.draw.Sealed := h

theorem State.setQc_sealed {c : Nat} {x : QChan} (h : s.Sealed) : (s.setQc c x).Sealed := h.onQm fun _ => rfl

theorem State.setRot_sealed {site g : Nat} {x : Rot} (h : s.Sealed) : (s.setRot site g x).Sealed := h.onQm fun _ => rfl

theorem State.setModl_sealed {site m : Nat} {x : Modl} (h : s.Sealed) : (s.setModl site m x).Sealed :=
  h.onQm fun _ => rfl

theorem State.strobe_sealed {n e : Nat} (h : s.Sealed) : (s.strobe n e).Sealed := .ite (h.onQm fun _ => rfl) h

theorem State.mark_sealed {b site : Nat} (h : s.Sealed) : (s.mark b site).Sealed := h.onQm fun _ => rfl

theorem State.unmark_sealed {b site : Nat} (h : s.Sealed) : (s.unmark b site).Sealed := h.onQm fun _ => rfl

theorem State.alert_sealed {k : Nat} (h : s.Sealed) : (s.alert k).Sealed := h.onQm fun _ => rfl

theorem State.keep_sealed {i : Instr} (h : s.Sealed) : (s.keep i).Sealed := h.onQm fun _ => rfl

theorem State.formMirror_sealed {e c : Nat} (h : s.Sealed) : (s.formMirror e c).Sealed :=
  .ite h (State.setQc_sealed h)

theorem State.checkHold_sealed (h : s.Sealed) : s.checkHold.Sealed :=
  .ite (State.alert_sealed (h.onQm fun _ => rfl)) (.ite (h.onQm fun _ => rfl) h)

theorem State.writeRec_sealed {kind : Nat} {body : Nat → List Byte} (h : s.Sealed) : (s.writeRec kind body).Sealed :=
  State.checkHold_sealed (h.onQm fun q => by dsimp only; split <;> rfl)

theorem State.putRec_sealed {kind : Nat} {body : Nat → List Byte} (h : s.Sealed) : (s.putRec kind body).Sealed :=
  .ite (State.writeRec_sealed h) (h.onQm fun _ => rfl)

theorem State.closeQStep_sealed {c endLt cause next : Nat} (h : s.Sealed) :
    (s.closeQStep c endLt cause next).Sealed := by
  unfold State.closeQStep
  extract_lets x
  split
  · exact h
  · exact State.setQc_sealed (State.draw_sealed (State.writeRec_sealed h))

theorem State.startQStep_sealed {c row index mode rate gang origin firstJob loop sub4 sub2 : Nat} (h : s.Sealed) :
    (s.startQStep c row index mode rate gang origin firstJob loop sub4 sub2).Sealed :=
  State.setQc_sealed (State.closeQStep_sealed h)

theorem State.doStepStart_sealed {i : Instr} (h : s.Sealed) : (s.doStepStart i).Sealed := by
  unfold State.doStepStart
  split
  · exact .ite (State.keep_sealed h) (State.startQStep_sealed h)
  · exact h

theorem State.doStepClose_sealed {i : Instr} (h : s.Sealed) : (s.doStepClose i).Sealed := by
  unfold State.doStepClose
  split
  · exact .ite (State.keep_sealed h) (State.closeQStep_sealed h)
  · exact h

theorem State.doClose_sealed {c next cause endLt : Nat} (h : s.Sealed) : (s.doClose c next cause endLt).Sealed :=
  State.doStepClose_sealed (h.onQm fun _ => rfl)

theorem State.doPeriodic_sealed {c : Nat} (h : s.Sealed) : (s.doPeriodic c).Sealed :=
  .ite (State.keep_sealed h) (State.setQc_sealed (State.draw_sealed (State.putRec_sealed h)))

theorem State.doImpedance_sealed {c : Nat} (h : s.Sealed) : (s.doImpedance c).Sealed := by
  unfold State.doImpedance
  extract_lets x
  split
  · exact h
  · split
    · exact h
    · exact .ite (State.keep_sealed h)
        (State.setQc_sealed (State.draw_sealed (State.draw_sealed (State.putRec_sealed h))))

theorem State.closeBatch_sealed (h : s.Sealed) : s.closeBatch.Sealed := State.checkHold_sealed (h.onQm fun _ => rfl)

theorem State.ackTo_sealed {n : Nat} (h : s.Sealed) : (s.ackTo n).Sealed := State.checkHold_sealed (h.onQm fun _ => rfl)

/-! ## The mailbox -/

theorem State.mailReply_sealed {op st : Nat} {p : List Byte} (h : s.Sealed) : (s.mailReply op st p).Sealed := h

theorem State.doAck_sealed {n : Nat} (h : s.Sealed) : (s.doAck n).Sealed := .ite (State.ackTo_sealed h) h

theorem State.doSubscribe_sealed {mask : Nat} (h : s.Sealed) : (s.doSubscribe mask).Sealed :=
  .ite (State.mailReply_sealed (h.onQm fun _ => rfl)) (State.mailReply_sealed h)

theorem State.doCellId_sealed {c : Nat} {id : List Byte} (h : s.Sealed) : (s.doCellId c id).Sealed :=
  .ite (State.mailReply_sealed (State.setQc_sealed h)) (State.mailReply_sealed h)

theorem State.carry_sealed {i : Instr} (h : s.Sealed) : (s.carry i).Sealed := by
  have ha : (s.answered i).Sealed := h.of_same (State.answered_same (by decide) (.refl _ s))
  unfold State.carry
  extract_lets y
  split
  · exact State.doSubscribe_sealed ha
  · exact State.doCellId_sealed ha
  · exact .ite (State.mailReply_sealed (State.doStepStart_sealed ha)) (State.mailReply_sealed ha)
  · exact .ite (State.mailReply_sealed (State.doClose_sealed ha)) (State.mailReply_sealed ha)
  · exact State.mailReply_sealed (State.doAck_sealed ha)
  · exact ha

theorem State.ahead_sealed {i : Instr} (h : s.Sealed) : (s.ahead i).Sealed := h.each fun _ _ => State.carry_sealed

theorem State.flushMail_sealed (h : s.Sealed) : s.flushMail.Sealed := h.each fun _ _ => State.carry_sealed

theorem State.request_sealed {i : Instr} (h : s.Sealed) : (s.request i).Sealed :=
  .ite (State.carry_sealed (State.ahead_sealed h)) h

theorem State.runHeld_sealed {i : Instr} (h : s.Sealed) : (s.runHeld i).Sealed := by
  unfold State.runHeld
  split
  · exact State.doStepStart_sealed h
  · exact State.doStepClose_sealed h
  · exact .ite (State.doPeriodic_sealed h) h
  · exact State.doImpedance_sealed h
  · exact h

theorem State.releaseHeld_sealed (h : s.Sealed) : s.releaseHeld.Sealed :=
  (h.onQm (f := fun q => { q with held := [] }) fun _ => rfl).each fun _ _ => State.runHeld_sealed

/-! ## Checkpoints and restarts -/

theorem State.checkpointNow_sealed (h : s.Sealed) : s.checkpointNow.Sealed := h.onQm fun _ => rfl

theorem State.qmRestart_sealed (h : s.Sealed) : s.qmRestart.Sealed :=
  (h.each fun _ _ => State.unmark_sealed).onQm fun _ => rfl

theorem State.closeAtCheckpoint_sealed {c : Nat} (h : s.Sealed) : (s.closeAtCheckpoint c).Sealed := by
  unfold State.closeAtCheckpoint
  extract_lets x
  split
  · exact h
  · exact State.closeQStep_sealed (State.setQc_sealed h)

theorem State.resumeChan_sealed {c lt : Nat} {w : Option QStep} (h : s.Sealed) : (s.resumeChan c w lt).Sealed := by
  cases w with
  | none => exact State.setQc_sealed h
  | some => exact State.setQc_sealed h

theorem State.mclkFault_sealed (h : s.Sealed) : s.mclkFault.Sealed :=
  .ite (State.alert_sealed (State.mark_sealed (h.onQm fun _ => rfl))) h

theorem State.takeBeacon_sealed {lt number mclk : Nat} (h : s.Sealed) : (s.takeBeacon lt number mclk).Sealed := by
  unfold State.takeBeacon
  extract_lets m y bad z w clk v
  have hy : y.Sealed := h.onQm fun _ => rfl
  have hz : z.Sealed := .ite (hy.onQm fun _ => rfl) hy
  have hw : w.Sealed := .ite (State.alert_sealed hz) hz
  have hv : v.Sealed := hw
  exact hv.onQm fun _ => rfl

theorem State.rotationReset_sealed (h : s.Sealed) : s.rotationReset.Sealed := h.onQm fun _ => rfl

/-! ## The seal -/

theorem State.countEvent_sealed (h : s.Sealed) : s.countEvent.Sealed := h.onQm fun _ => rfl

theorem State.auditAdd_sealed {kind target slot nonce : Nat} {old new : List Byte} (h : s.Sealed) :
    (s.auditAdd kind target slot old new nonce).Sealed := by
  unfold State.auditAdd
  extract_lets e y
  have hy : y.Sealed := h.onQm fun _ => rfl
  exact .ite (State.alert_sealed hy) hy

theorem State.swapFw_sealed (h : s.Sealed) : s.swapFw.Sealed := State.auditAdd_sealed (h.onQm fun _ => rfl)

theorem State.activate_sealed (h : s.Sealed) : s.activate.Sealed :=
  .ite (State.qmRestart_sealed (State.swapFw_sealed (State.checkpointNow_sealed h))) h

/-- Leaving ADJUSTMENT seals the part, whatever its state was (R240). -/
theorem State.sealAgain_sealed {cause slot nonce : Nat} : (s.sealAgain cause slot nonce).Sealed := by
  have hs : (s.onQm fun q => { q with sealSt := 1, adjUntil := none, leavePower := false }).Sealed :=
    ⟨Nat.le_refl 1, Nat.le_succ 1⟩
  exact State.auditAdd_sealed (State.alert_sealed (State.unmark_sealed hs))

theorem State.leave_sealed {cause slot nonce : Nat} : (s.leave cause slot nonce).Sealed :=
  State.activate_sealed State.sealAgain_sealed

theorem State.expire_sealed : s.expire.Sealed := State.leave_sealed

theorem State.writeItem_sealed {k : Nat} {v : List Byte} (h : s.Sealed) : (s.writeItem k v).Sealed := by
  unfold State.writeItem
  extract_lets y
  have hy : y.Sealed := h.onQm fun _ => rfl
  exact .ite (State.setModl_sealed hy) hy

/-- Of the tokens, one that enters ADJUSTMENT and one that leaves it alone write the seal's state (R240). -/
theorem State.tokenEffect_sealed {t : Token} (h : s.Sealed) : (s.tokenEffect t).Sealed := by
  unfold State.tokenEffect
  extract_lets b y
  have hy : y.Sealed := ⟨Nat.le_succ 1, Nat.le_refl 2⟩
  split
  · exact State.auditAdd_sealed (State.alert_sealed (State.mark_sealed hy))
  · exact State.leave_sealed
  · exact State.auditAdd_sealed (h.onQm fun _ => rfl)
  · exact State.auditAdd_sealed (State.countEvent_sealed (State.writeItem_sealed h))
  · exact State.auditAdd_sealed (State.countEvent_sealed (h.onQm fun _ => rfl))
  · exact h.onQm fun _ => rfl
  · exact h

theorem State.adjustReply_sealed {status : Nat} (h : s.Sealed) : (s.adjustReply status).Sealed := by
  have hm : (s.mailReply 0x08 status []).Sealed := State.mailReply_sealed h
  exact .ite (hm.of_eq rfl) hm

theorem State.takeToken_sealed {t : Token} (h : s.Sealed) : (s.takeToken t).Sealed := by
  have hr {y : State} (hy : y.Sealed) : y.refuseToken.Sealed := hy.onQm fun _ => rfl
  exact .ite (State.adjustReply_sealed ((State.draw_sealed (State.tokenEffect_sealed h)).onQm fun _ => rfl))
    (State.adjustReply_sealed (hr (.ite State.expire_sealed h)))

theorem State.tokenIn_sealed {kind : Nat} {t : Token} (h : s.Sealed) : (s.tokenIn kind t).Sealed :=
  .ite (State.takeToken_sealed (State.flushMail_sealed h)) h

theorem State.verifyFw_sealed {hash img : List Byte} (h : s.Sealed) : (s.verifyFw hash img).1.Sealed := by
  unfold State.verifyFw
  split
  · exact h.onQm fun _ => rfl
  · split
    · exact State.auditAdd_sealed (State.countEvent_sealed (h.onQm fun _ => rfl))
    · exact h.onQm fun _ => rfl

theorem State.takeSegment_sealed {off : Nat} {d : List Byte} (h : s.Sealed) : (s.takeSegment off d).1.Sealed := by
  unfold State.takeSegment
  split
  · exact h
  · split
    · exact h
    · split
      · exact h
      · split
        · exact h
        · extract_lets x im y
          have hy : y.Sealed := h.onQm fun _ => rfl
          split
          · exact State.verifyFw_sealed hy
          · exact hy

theorem State.recause_sealed (h : s.Sealed) : s.recause.Sealed := by
  unfold State.recause
  split
  · exact .ite (h.onQm fun _ => rfl) h
  · exact h

theorem State.acceptLevel_sealed {l : Bool} (h : s.Sealed) : (s.acceptLevel l).Sealed := by
  have ha : (s.onQm fun q => { q with adjLevel := l, adjSame := 0 }).Sealed := h.onQm fun _ => rfl
  exact .ite ha (.ite State.leave_sealed (State.recause_sealed ha))

/-! ## Rotation and samples -/

theorem State.calEvent_sealed {kind site g m : Nat} (h : s.Sealed) : (s.calEvent kind site g m).Sealed :=
  h.onQm fun _ => rfl

theorem State.abandonCycle_sealed {site g next : Nat} (h : s.Sealed) : (s.abandonCycle site g next).Sealed := by
  unfold State.abandonCycle
  extract_lets y x
  have hy : y.Sealed := h.onQm fun _ => rfl
  exact .ite (State.calEvent_sealed (State.setRot_sealed hy)) (State.setRot_sealed hy)

theorem State.driftCheck_sealed {site g w : Nat} {x : Rot} (h : s.Sealed) : (s.driftCheck site g w x).Sealed := by
  unfold State.driftCheck
  extract_lets m y
  have hy : y.Sealed := State.calEvent_sealed (h.onQm fun _ => rfl)
  exact .ite (.ite (State.calEvent_sealed (State.setModl_sealed hy)) (State.setModl_sealed hy)) (State.setModl_sealed h)

theorem State.commitCycle_sealed {site g c : Nat} (h : s.Sealed) : (s.commitCycle site g c).Sealed :=
  State.setRot_sealed (State.driftCheck_sealed ((h.each fun _ _ => State.setQc_sealed).onQm fun _ => rfl))

theorem State.becomeSpare_sealed {site g m : Nat} (h : s.Sealed) : (s.becomeSpare site g m).Sealed :=
  State.setRot_sealed h

theorem State.fitInput_sealed {site g p start : Nat} {raw spare : Int} (h : s.Sealed) :
    (s.fitInput site g p start raw spare).Sealed :=
  .ite (State.setRot_sealed h) h

theorem State.takeSample_sealed {c start : Nat} {v i t : Rat × Rat} (h : s.Sealed) :
    (s.takeSample c start v i t).Sealed :=
  State.setQc_sealed h

/-! ## The metrology port -/

theorem State.portReply_sealed {status clocked : Nat} {p : List Byte} (h : s.Sealed) :
    (s.portReply status p clocked).Sealed :=
  h.onQm fun _ => rfl

theorem State.portItem_sealed {b : Option (List Byte)} {clocked : Nat} (h : s.Sealed) :
    (s.portItem b clocked).Sealed := by
  cases b with
  | none => exact State.portReply_sealed h
  | some => exact State.portReply_sealed h

/-! ## The epoch, and the supply VIO_M -/

theorem State.epoch_sealed {e : Nat} {errs : List Int} (h : s.Sealed) : (s.epoch e errs).Sealed := by
  unfold State.epoch
  extract_lets held a clk b c d f g i
  have ha : a.Sealed := h.of_same (State.deferStep_same (by decide) (.refl _ s))
  have hc : c.Sealed := ha.of_eq rfl
  have hd : d.Sealed := hc.each fun y _ hy => hy.of_same (State.correctDie_same (by decide) (.refl _ y))
  have hf : f.Sealed := .each (hd.of_same (State.energyFlow_same (by decide) (.refl _ d))) fun y _ hy =>
    hy.of_same (State.closeMeans_same (by decide) (.refl _ y))
  have hg : g.Sealed := hf.each fun y n hy =>
    (State.strobe_sealed hy).of_same (State.flushRepeats_same (by decide) (.refl _ (y.strobe n e)))
  have hi : i.Sealed := hg.each fun y _ hy => hy.of_same (State.groupCheck_same (by decide) (.refl _ y))
  exact hi.of_same (State.stepTime_same (by decide) (State.waymark_same (by decide) (.refl _ i)))

theorem State.markBank_sealed {b : Nat} {u : Bool} (h : s.Sealed) : (s.markBank b u).Sealed :=
  .ite (h.onQm fun _ => rfl) (h.of_eq rfl)

theorem State.readBank_sealed {b mv : Nat} (h : s.Sealed) : (s.readBank b mv).Sealed :=
  .ite (h.onQm fun _ => rfl) (h.of_eq rfl)

theorem State.bankLost_sealed {b : Nat} (h : s.Sealed) : (s.bankLost b).Sealed := by
  have hubLoss : ((s.latchHubOutputs 8).controlledStop 17).Sealed :=
    h.of_same (State.controlledStop_same (by decide) (State.latchHubOutputs_same (by decide) (.refl _ s)))
  have netLoss : s.networkSupply.Sealed := h.of_same (State.networkSupply_same (by decide) (.refl _ s))
  have siteLoss : (s.siteSupply (b - 1)).Sealed := h.of_same (State.siteSupply_same (by decide) (.refl _ s))
  exact .ite hubLoss (.ite netLoss (.ite (State.mclkFault_sealed h) (.ite siteLoss h)))

end

/-! ## Writes: of the objects, the acknowledgement of batches (0x5430), the token and the image of an adjustment reach
the measuring part -/

section
variable {s : State}

theorem numSet_sealed {src : Src} {i j e : Nat} {v : Int} (h : s.Sealed) : (numSet src i j v s e).Sealed := by
  have hs : State.Same .qm s s := .refl _ s
  unfold numSet
  split
  · exact h.of_same (storeSet_same (by decide) hs)
  · exact h.of_same (epochSet_same (by decide) hs)
  · exact h.of_same (powerReqSet_same (by decide) hs)
  · exact h.of_same (warmSet_same (by decide) hs)
  · exact h.of_same (siteResetSet_same (by decide) hs)
  · exact h.of_same (engineResetSet_same (by decide) hs)
  · exact h.of_same (canModeSet_same (by decide) (State.draw_same (by decide) hs))
  · exact h.of_same (restartSet_same (by decide) hs)
  · exact h.of_same (cancelSet_same (by decide) (State.draw_same (by decide) hs))
  · exact h.of_same (consumerSet_same (by decide) hs)
  · exact .ite (h.of_same (startSet_same (by decide) hs))
      (.ite (h.of_same (stopSet_same (by decide) hs)) (h.of_same (continueSet_same (by decide) hs)))
  · exact h.of_same (removeSet_same rfl (by decide) hs)
  · exact h.of_same (State.clearPeak_same (by decide) hs)
  · exact h.of_same (State.clearPeak_same (by decide) hs)
  · exact h.of_same (checkNowSet_same (by decide) hs)
  · exact h.of_same (commitSet_same (by decide) hs)
  · exact h.of_same (stageSet_same (by decide) hs)
  · exact h.of_same (diagnoseNowSet_same rfl (by decide) hs)
  · exact h.of_same (powerSet_same (by decide) hs)
  · exact h.of_same (setpointSet_same (by decide) hs)
  · exact h.of_same (targetSet_same (by decide) hs)
  · exact h.of_same (referenceSet_same (by decide) hs)
  · exact h.of_same (resetSet_same (by decide) hs)
  · exact h.of_same (outputSet_same (by decide) hs)
  · exact h.of_same (contactorSet_same (by decide) hs)
  · exact h.of_same (State.endUnlock_same (by decide) hs)
  · exact h.of_same (applySet_same rfl (by decide) hs)
  · exact State.mailReply_sealed (State.doAck_sealed (State.flushMail_sealed h))
  · exact h.of_same (cursorSet_same (by decide) hs)
  · exact h.of_same (severitySet_same (by decide) hs)
  · exact h.of_same (unfreezeSet_same (by decide) hs)
  · exact h.of_same (clearSet_same (by decide) hs)
  · exact h.of_same (dieClearSet_same (by decide) hs)
  · exact h.of_same (fltClearSet_same (by decide) hs)
  · exact h.of_same (bldcClearSet_same (by decide) hs)
  · exact h.of_same (axisClearSet_same (by decide) hs)
  · exact h.of_same (revokeSet_same (by decide) hs)
  · exact h.of_same (rollbackSet_same (by decide) hs)
  · exact h.of_same (preferSet_same (by decide) hs)
  · exact h.of_same (loadEndSet_same (by decide) (State.draw_same (by decide) hs))
  · exact h.of_same (partitionSet_same (by decide) hs)
  · exact h.of_same (debugLockSet_same (by decide) hs)
  · exact .ite (h.of_same (calibrationSet_same rfl (by decide) hs)) (.ite (h.of_same (rwpSet_same (by decide) hs))
      (h.of_same (State.afterMask_same (by decide) (State.afterPeriod_same (by decide) (State.wr_same (by simp) hs)))))

theorem State.sendImage_sealed {b : List Byte} (h : s.Sealed) : (s.sendImage b).Sealed :=
  h.each fun _ _ hy => State.adjustReply_sealed (State.takeSegment_sealed hy)

theorem octSet_sealed {src : Src} {i j e : Nat} {b : List Byte} (h : s.Sealed) : (octSet src i j b s e).Sealed := by
  have hs : State.Same .qm s s := .refl _ s
  unfold octSet
  split
  · exact h.of_same (hostKeySet_same (by decide) hs)
  · exact h.of_same (submitSet_same (by decide) hs)
  · exact h.of_same (recipeSet_same rfl hs)
  · exact h.of_same (descriptorSet_same (by decide) hs)
  · exact h.of_same (unlockSet_same (by decide) hs)
  · exact h.of_same (passwordSet_same (by decide) hs)
  · exact h.of_same (State.mail_same (by decide) (State.wrB_same (by decide) hs))
  · exact .ite (State.takeToken_sealed (State.flushMail_sealed h)) h
  · exact .ite (State.sendImage_sealed (State.flushMail_sealed h)) h
  · exact h.of_same (rootWriteSet_same (by decide) hs)
  · exact h.of_same (pieceSet_same (by decide) hs)
  · exact h.of_same (debugSet_same (by decide) hs)
  · exact h.of_same (State.setAttNonce_same (by decide) hs)
  · exact h

theorem State.setDefaults_sealed {src : Src} (h : s.Sealed) : (s.setDefaults src).Sealed := by
  unfold State.setDefaults
  extract_lets l y z
  have hy : y.Sealed := h.each fun _ _ => numSet_sealed
  have hz : z.Sealed := hy.of_eq rfl
  exact hz.each fun x _ hx =>
    hx.of_same (State.admitAfter_same (by decide) (State.loadPeriods_same (by decide) (.refl _ x)))

theorem State.setItem_sealed {src : Src} {i e : Nat} {it : Nat × Val} (h : s.Sealed) :
    (s.setItem src i e it).Sealed := by
  unfold State.setItem
  split
  · exact .ite (State.setDefaults_sealed h) (numSet_sealed h)
  · exact octSet_sealed h

theorem State.touch_sealed {e : Nat} (h : s.Sealed) : (s.touch e).Sealed :=
  h.of_same (State.touch_same (by decide) (.refl _ s))

theorem State.writeItems_sealed {src : Src} {x : Span} {l : Option (List (Nat × Val))} {b : Bool} (h : s.Sealed) :
    (s.writeItems src x l b).1.Sealed := by
  unfold State.writeItems
  split
  · exact h.of_same (State.refused_same (by decide) (.refl _ s))
  · extract_lets l es ads t
    split
    · exact h.of_same (State.showAdmission_same (by decide) (.refl _ s))
    · refine .each (h.each fun _ _ hy => (State.touch_sealed hy).each fun _ _ => State.setItem_sealed) fun y _ hy => ?_
      exact hy.of_same (State.admitDie_same (by decide) (.refl _ y))

/-- An answer leaves the seal's state valid, where it answers with a state. -/
def Ans.Sealed (r : Ans) : Prop := ∀ t b, r = .ok (t, b) → t.Sealed

theorem Ans.sealed_error {r : Refuse} : Ans.Sealed (.error r) := by
  intro _ _ e
  cases e

theorem Ans.sealed_done (h : s.Sealed) : Ans.Sealed (done s) := by
  rintro _ _ ⟨⟩
  exact h

theorem Ans.Sealed.needDone {c : Nat} {r : Ans} (h : r.Sealed) : Ans.Sealed (needDone c r) := by
  unfold Machine.needDone
  split
  · exact h
  · exact sealed_error

theorem Ans.Sealed.outcome {r : Ans} (hr : r.Sealed) (h : s.Sealed) : (r.outcome s).1.Sealed := by
  unfold Ans.outcome
  split
  · exact hr _ _ rfl
  · exact h

theorem State.writeSpan_sealed {src : Src} {x : Span} {b : List Byte} {range whole : Bool} (h : s.Sealed) :
    (s.writeSpan src x b range whole).1.Sealed := by
  unfold State.writeSpan
  split
  · exact h
  · split
    · have ho : Ans.Sealed (done (s.openLoad src (fieldAt b 0 4) (fieldAt b 4 4))) :=
        Ans.sealed_done (h.of_same (State.openLoad_same (by decide) (.refl _ s)))
      exact ho.needDone.outcome h
    · exact State.writeItems_sealed h

theorem State.applyTransfer_sealed {src : Src} {y : Transfer} {crc : Option Nat} (h : s.Sealed) :
    (s.applyTransfer src y crc).1.Sealed := by
  unfold State.applyTransfer
  split
  · exact h
  · split
    · exact h
    · split
      · exact h
      · exact State.writeSpan_sealed h

/-! ## Requests that are served -/

theorem State.execute_sealed {src : Src} {op f l : Nat} {k : State → Outcome'} (hk : (k s).1.Sealed) :
    (s.execute src op f l k).Sealed := by
  unfold State.execute
  split
  · rename_i e
    rw [e] at hk
    refine .ite (hk.of_same ?_) (hk.of_same ?_)
    · exact State.executed_same (by decide) (same_net (by decide) (.refl _ _))
    · exact State.answer_same (by decide) (.refl _ _)
  · rename_i e
    rw [e] at hk
    exact hk.of_same (State.answer_same (by decide) (.refl _ _))

theorem State.serveWith_sealed {src : Src} {op f l : Nat} {k : State → Outcome'} (h : s.Sealed)
    (hk : ∀ y, y.Sealed → (k y).1.Sealed) : (s.serveWith src op f l k).Sealed := by
  have hear : (s.clearOut.hear src).Sealed :=
    h.of_same (State.hear_same (by decide) (State.clearOut_same (by decide) (.refl _ s)))
  exact .ite (.ite (State.execute_sealed (hk _ hear)) (hear.of_same (State.unserved_same (by decide) (.refl _ _)))) h

theorem State.writeObj_sealed {src : Src} {i j : Nat} {es : List Nat} {v : Int} {own : State → Nat → Nat}
    {eff : State → Nat → State} (h : s.Sealed) (heff : ∀ y e, y.Sealed → (eff y e).Sealed) :
    (s.writeObj src i j es v own eff).Sealed := by
  refine State.serveWith_sealed h fun y hy => Ans.Sealed.outcome ?_ hy
  dsimp only
  split
  · exact Ans.sealed_error
  · exact Ans.sealed_done (hy.each fun z e hz => heff _ e (State.touch_sealed hz))

theorem State.settle_sealed (h : s.Sealed) : s.settle.Sealed :=
  h.of_same (State.settle_same rfl (by decide) (.refl _ s))

theorem State.writeReq_sealed {src : Src} {x : Span} {b : List Byte} {range : Bool} (h : s.Sealed) :
    (s.writeReq src x b range).Sealed :=
  State.settle_sealed (State.serveWith_sealed h fun _ => State.writeSpan_sealed)

theorem State.segEnd_sealed {src : Src} {t : Nat} {crc : Option Nat} (h : s.Sealed) : (s.segEnd src t crc).Sealed := by
  cases src with
  | keyway =>
    refine State.settle_sealed (State.serveWith_sealed h fun y hy => ?_)
    split
    · exact hy
    · have hc (src : Src) : (y.closeTransfer src t).Sealed :=
        hy.of_same (State.closeTransfer_same (by decide) (.refl _ y))
      dsimp only
      split
      · exact State.applyTransfer_sealed (hc _)
      · exact hc _
  | user | service => exact h

end

/-! ## The commands that reach the measuring part -/

section
variable {s : State}

theorem vmetPowerOn_keepsSeal {mv : Nat} (h : s.Sealed) : Gives (.vmetPowerOn mv) s State.Sealed := by
  refine ⟨_, rfl, ?_⟩
  split
  · exact h
  · extract_lets y z w
    have hy : y.Sealed := State.rotationReset_sealed (State.qmRestart_sealed (h.onQm fun _ => rfl))
    have hz : z.Sealed := .ite (hy.of_same (State.supplyNote_same (by decide) (.refl _ y))) hy
    have hw : w.Sealed := .ite State.sealAgain_sealed hz
    exact .ite (State.swapFw_sealed hw) hw

theorem vmetLoss_keepsSeal (h : s.Sealed) : Gives .vmetLoss s State.Sealed := by
  have hn : (s.supplyNote 9 true).Sealed := h.of_same (State.supplyNote_same (by decide) (.refl _ s))
  exact ⟨_, rfl, .ite ((State.qmRestart_sealed (.ite hn h)).onQm fun _ => rfl) h⟩

theorem qmBoot_keepsSeal (h : s.Sealed) : Gives .qmBoot s State.Sealed := by
  refine ⟨_, rfl, ?_⟩
  split
  · extract_lets cs steps y lt z w
    have hy : y.Sealed := h.each fun _ _ => State.closeAtCheckpoint_sealed
    have hz : z.Sealed := hy.each fun _ _ => State.resumeChan_sealed
    have hw : w.Sealed := hz.onQm fun _ => rfl
    exact .ite hw (State.mclkFault_sealed hw)
  · exact h

theorem siteFramingProbe_keepsSeal {n : Nat} {framed : Bool} (h : s.Sealed) :
    Gives (.siteFramingProbe n framed) s State.Sealed :=
  ⟨_, rfl, .ite (h.onQm fun q => by dsimp only; split <;> rfl) h⟩

theorem streamLoss_keepsSeal {n : Nat} (h : s.Sealed) : Gives (.streamLoss n) s State.Sealed :=
  ⟨_, rfl, .ite (State.releaseHeld_sealed (State.mark_sealed (h.onQm fun _ => rfl))) h⟩

theorem streamReturn_keepsSeal {n : Nat} (h : s.Sealed) : Gives (.streamReturn n) s State.Sealed :=
  ⟨_, rfl, .ite (State.unmark_sealed (h.onQm fun _ => rfl)) h⟩

theorem identify_keepsSeal (h : s.Sealed) : Gives .identify s State.Sealed :=
  have hreply := State.mailReply_sealed (State.flushMail_sealed h)
  ⟨_, rfl, .ite (hreply.of_same (State.metBack_same (by decide) (.refl _ _)))
    (h.of_same (State.metAbsent_same (by decide) (.refl _ s)))⟩

theorem mailboxRead_keepsSeal {i j c : Nat} (h : s.Sealed) : Gives (.mailboxRead i j c) s State.Sealed := by
  refine ⟨_, rfl, .ite ?_ h⟩
  have hf : s.flushMail.Sealed := State.flushMail_sealed h
  dsimp only
  split
  · exact State.mailReply_sealed hf
  · exact State.mailReply_sealed hf

theorem reqAdjustImageSegment_keepsSeal {off : Nat} {d : List Byte} (h : s.Sealed) :
    Gives (.reqAdjustImageSegment off d) s State.Sealed :=
  ⟨_, rfl, .ite (.ite (State.adjustReply_sealed (State.takeSegment_sealed (State.flushMail_sealed h)))
    (h.onQm fun _ => rfl)) h⟩

theorem beacon_keepsSeal {lt n m : Nat} (h : s.Sealed) : Gives (.beacon lt n m) s State.Sealed :=
  ⟨_, rfl, .ite (State.takeBeacon_sealed (State.ahead_sealed h)) h⟩

theorem metrologyEvent_keepsSeal {e : QmEvent} (h : s.Sealed) : Gives (.metrologyEvent e) s State.Sealed := by
  have he : (s.onQm fun q => { q with events := q.events.erase e }).heard.Sealed := h.onQm fun _ => rfl
  exact ⟨_, rfl, .ite (he.of_same (State.takeEvent_same (by decide) (.refl _ _))) h⟩

theorem integratorSample_keepsSeal {c : Nat} {v i t spare spareT : Int} (h : s.Sealed) :
    Gives (.integratorSample c v i t spare spareT) s State.Sealed := by
  refine ⟨_, rfl, ?_⟩
  extract_lets n k g p start rv ri rt y z
  have hy : y.Sealed := State.fitInput_sealed (State.fitInput_sealed h)
  have hz : z.Sealed := .ite (State.fitInput_sealed hy) hy
  exact .ite (State.releaseHeld_sealed (State.takeSample_sealed hz)) h

theorem mirrorMeans_keepsSeal {e : Nat} (h : s.Sealed) : Gives (.mirrorMeans e) s State.Sealed :=
  ⟨_, rfl, .ite (h.each fun _ _ => State.formMirror_sealed) h⟩

theorem acRecord_keepsSeal {l : List (List Int)} (h : s.Sealed) : Gives (.acRecord l) s State.Sealed := by
  refine ⟨_, rfl, ?_⟩
  extract_lets sec a lt st ovr y b
  have hy : y.Sealed := h.onQm fun _ => rfl
  exact .ite (State.putRec_sealed (hy.onQm fun _ => rfl)) h

theorem adjEnChange_keepsSeal {level : Bool} (h : s.Sealed) : Gives (.adjEnChange level) s State.Sealed := by
  refine ⟨_, rfl, ?_⟩
  extract_lets l y
  have hy : y.Sealed := h.onQm fun _ => rfl
  exact .ite (.ite (hy.onQm fun _ => rfl) (.ite (State.acceptLevel_sealed hy) (hy.onQm fun _ => rfl))) h

theorem mclkReturn_keepsSeal (h : s.Sealed) : Gives .mclkReturn s State.Sealed :=
  ⟨_, rfl, .ite (State.unmark_sealed (h.onQm fun _ => rfl)) h⟩

theorem status_keepsSeal {arg : List Byte} {clocked : Nat} (h : s.Sealed) :
    Gives (.status arg clocked) s State.Sealed := by
  have hr : (s.portReply 0 s.statusBytes clocked).Sealed := State.portReply_sealed h
  exact ⟨_, rfl, .ite (.ite (.ite (hr.onQm fun _ => rfl) hr) (State.portReply_sealed h)) h⟩

theorem overlapStart_keepsSeal {site g : Nat} (h : s.Sealed) : Gives (.overlapStart site g) s State.Sealed :=
  ⟨_, rfl, .ite (State.setRot_sealed h) h⟩

theorem provisionalTakeover_keepsSeal {site g : Nat} (h : s.Sealed) :
    Gives (.provisionalTakeover site g) s State.Sealed :=
  ⟨_, rfl, .ite (.ite (State.abandonCycle_sealed h) (State.setRot_sealed h)) h⟩

theorem rotationCommit_keepsSeal {site g : Nat} (h : s.Sealed) : Gives (.rotationCommit site g) s State.Sealed := by
  refine ⟨_, rfl, ?_⟩
  extract_lets x
  split
  · exact .ite (.ite
      (State.releaseHeld_sealed (State.abandonCycle_sealed (h.each fun _ _ => State.setQc_sealed)))
      (State.releaseHeld_sealed (State.commitCycle_sealed h))) h
  · exact h

theorem freedCalibrationPhase_keepsSeal {site g k : Nat} {mean : Int} (h : s.Sealed) :
    Gives (.freedCalibrationPhase site g k mean) s State.Sealed :=
  ⟨_, rfl, .ite (.ite (State.setRot_sealed h) (.ite (State.setRot_sealed h)
    (State.setRot_sealed (State.setModl_sealed h)))) h⟩

theorem freedCalibrationEnd_keepsSeal {site g : Nat} (h : s.Sealed) :
    Gives (.freedCalibrationEnd site g) s State.Sealed :=
  ⟨_, rfl, .ite (.ite (State.calEvent_sealed (State.setRot_sealed (State.setModl_sealed h)))
    (State.becomeSpare_sealed h)) h⟩

theorem suspectRecalibration_keepsSeal {site g m : Nat} {zero a b : Int} (h : s.Sealed) :
    Gives (.suspectRecalibration site g m zero a b) s State.Sealed :=
  ⟨_, rfl, .ite (.ite (State.setModl_sealed h)
    (.ite (State.calEvent_sealed (State.becomeSpare_sealed (State.setModl_sealed h))) (State.setModl_sealed h))) h⟩

theorem calibrationAgeEvent_keepsSeal {site m : Nat} (h : s.Sealed) :
    Gives (.calibrationAgeEvent site m) s State.Sealed :=
  ⟨_, rfl, .ite (State.calEvent_sealed (State.setModl_sealed h)) h⟩

/-- The epoch and the publications that fall due in it. -/
theorem epoch_takePubs_sealed {e : Nat} {errs : List Int} (h : s.Sealed) : (s.epoch e errs).takePubs.Sealed :=
  (State.epoch_sealed h).of_same (State.takePubs_same (by decide) (.refl _ _))

theorem ltStep_keepsSeal (h : s.Sealed) : Gives .ltStep s State.Sealed := by
  refine ⟨_, rfl, ?_⟩
  split
  · exact .ite (epoch_takePubs_sealed h) h
  · exact h

theorem carrierEpoch_keepsSeal {errs : List Int} (h : s.Sealed) : Gives (.carrierEpoch errs) s State.Sealed := by
  refine ⟨_, rfl, ?_⟩
  split
  · exact .ite (epoch_takePubs_sealed h) h
  · exact h

theorem State.bankNote_sealed {b : Nat} {u : Bool} (h : s.Sealed) : (s.bankNote b u).Sealed :=
  h.of_same (State.bankNote_same (by decide) (.refl _ s))

theorem vioUndervoltage_keepsSeal {b mv : Nat} (h : s.Sealed) : Gives (.vioUndervoltage b mv) s State.Sealed :=
  ⟨_, rfl, .ite (State.bankLost_sealed (State.bankNote_sealed (State.markBank_sealed h))) h⟩

theorem vioRecovery_keepsSeal {b mv : Nat} (h : s.Sealed) : Gives (.vioRecovery b mv) s State.Sealed := by
  have hr : (s.readBank b mv).Sealed := State.readBank_sealed h
  exact ⟨_, rfl, .ite (.ite (.ite hr (State.bankNote_sealed hr))
    (.ite (State.bankNote_sealed (State.markBank_sealed h)) h)) h⟩

theorem apiCall_keepsSeal {span : Span} {p : Option (List Byte)} (h : s.Sealed) :
    Gives (.apiCall span p) s State.Sealed := by
  refine ⟨_, rfl, ?_⟩
  cases p with
  | none => exact h.of_same (State.readReq_same (by decide) (.refl _ s))
  | some => exact State.writeReq_sealed h

end

/-! ## Every command -/

theorem keepsSeal_of_untouched {i : Instr} {s : State} (h : s.Sealed) (hq : (touches i).contains .qm = false) :
    Gives i s State.Sealed := by
  have hn : Part.qm ∉ touches i := by simpa using hq
  obtain ⟨t, ht, hsame⟩ := exec_same i s (by decide) hn
  exact ⟨t, ht, h.of_same hsame⟩

/-- Every command leaves a part that is SEALED or in ADJUSTMENT in one of the two. -/
theorem exec_keepsSeal (i : Instr) {s : State} (h : s.Sealed) : Gives i s State.Sealed := by
  cases i with
  | vmetPowerOn => exact vmetPowerOn_keepsSeal h
  | vmetLoss => exact vmetLoss_keepsSeal h
  | qmWatchdogExpiry => exact ⟨_, rfl, .ite (State.qmRestart_sealed h) h⟩
  | qmBoot => exact qmBoot_keepsSeal h
  | siteFramingProbe => exact siteFramingProbe_keepsSeal h
  | streamLoss => exact streamLoss_keepsSeal h
  | streamReturn => exact streamReturn_keepsSeal h
  | identify => exact identify_keepsSeal h
  | mailboxRead => exact mailboxRead_keepsSeal h
  | mailboxSubscribe | ackRecords | cellId | stepStart | stepClose => exact ⟨_, rfl, State.request_sealed h⟩
  | reqAdjustImageSegment => exact reqAdjustImageSegment_keepsSeal h
  | enterToken | leaveToken | auditAcknowledge | calibrationWrite | authorityKeySet | softwareAnnounce =>
    exact ⟨_, rfl, State.tokenIn_sealed h⟩
  | beacon => exact beacon_keepsSeal h
  | mailboxFrameDiscard => exact ⟨_, rfl, .ite (h.onQm fun _ => rfl) h⟩
  | metrologyEvent => exact metrologyEvent_keepsSeal h
  | integratorSample => exact integratorSample_keepsSeal h
  | mirrorMeans => exact mirrorMeans_keepsSeal h
  | periodicRecord => exact ⟨_, rfl, .ite (State.doPeriodic_sealed h) h⟩
  | acRecord => exact acRecord_keepsSeal h
  | impedanceRecord => exact ⟨_, rfl, .ite (State.doImpedance_sealed h) h⟩
  | checkpoint => exact ⟨_, rfl, .ite (State.checkpointNow_sealed h) h⟩
  | batchClose => exact ⟨_, rfl, .ite (State.closeBatch_sealed h) h⟩
  | adjEnChange => exact adjEnChange_keepsSeal h
  | adjustmentExpiry => exact ⟨_, rfl, .ite State.expire_sealed h⟩
  | mclkFault => exact ⟨_, rfl, State.mclkFault_sealed h⟩
  | mclkReturn => exact mclkReturn_keepsSeal h
  | ident | pubkey =>
    exact ⟨_, rfl, .ite (.ite (State.portReply_sealed h) (State.portReply_sealed h)) h⟩
  | status => exact status_keepsSeal h
  | audit | record | batch | proof => exact ⟨_, rfl, .ite (State.portItem_sealed h) h⟩
  | live => exact ⟨_, rfl, .ite (.ite (State.portReply_sealed h) (State.portReply_sealed h)) h⟩
  | ac => exact ⟨_, rfl, .ite (.ite (State.portItem_sealed h) (State.portReply_sealed h)) h⟩
  | overlapStart => exact overlapStart_keepsSeal h
  | provisionalTakeover => exact provisionalTakeover_keepsSeal h
  | rotationCommit => exact rotationCommit_keepsSeal h
  | freedCalibrationPhase => exact freedCalibrationPhase_keepsSeal h
  | freedCalibrationEnd => exact freedCalibrationEnd_keepsSeal h
  | suspectRecalibration => exact suspectRecalibration_keepsSeal h
  | calibrationAgeEvent => exact calibrationAgeEvent_keepsSeal h
  | ltStep => exact ltStep_keepsSeal h
  | carrierEpoch => exact carrierEpoch_keepsSeal h
  | vioUndervoltage => exact vioUndervoltage_keepsSeal h
  | vioRecovery => exact vioRecovery_keepsSeal h
  | write | writeRange => exact ⟨_, rfl, State.writeReq_sealed h⟩
  | segEndWrite | segEndRead => exact ⟨_, rfl, State.segEnd_sealed h⟩
  | restoreDefaults => exact ⟨_, rfl, State.writeObj_sealed h fun _ _ => State.setDefaults_sealed⟩
  | writeZeroToClear => exact ⟨_, rfl, .ite (State.writeObj_sealed h fun _ _ => numSet_sealed) h⟩
  | apiCall => exact apiCall_keepsSeal h
  | unknownCommand => exact ⟨_, rfl, .ite (.ite h (State.portReply_sealed h)) h⟩
  | _ => exact keepsSeal_of_untouched h rfl

end Sys2Proof.Machine
end

section
/-! The statements of chapter 0: what every step keeps, the reset, the populated sites, the channel numbers. -/

namespace Sys2Proof.Machine

theorem Gives.of_exec {i : Instr} {s t : State} {p : State → Prop} (h : Gives i s p)
    (ht : exec i s = .next t) : p t := by
  obtain ⟨u, hu, hp⟩ := h
  rw [hu] at ht
  cases ht
  exact hp

/-- A step is a count of time on an empty queue, or the front command on the state with the rest of the queue. -/
theorem step_cases {s t : State} (h : step s = .next t) :
    (s.pending = [] ∧ t = s.tick) ∨ ∃ c rest, s.pending = c :: rest ∧ exec c { s with pending := rest } = .next t := by
  unfold step at h
  split at h
  case h_1 hq =>
    cases h
    exact .inl ⟨hq, rfl⟩
  case h_2 c rest hq => exact .inr ⟨c, rest, hq, h⟩

/-- A step keeps the part, sessions and gates of the state that it starts from. -/
theorem step_kept {s t : State} (h : step s = .next t) : ∃ q, Kept { s with pending := q } t := by
  obtain ⟨hq, rfl⟩ | ⟨c, rest, _, hc⟩ := step_cases h
  · exact ⟨s.pending, State.tick_kept (.refl s)⟩
  · exact ⟨rest, (exec_keeps c _).of_exec hc⟩

theorem step_keepsSeal {s t : State} (hs : s.Sealed) (h : step s = .next t) : t.Sealed := by
  obtain ⟨_, rfl⟩ | ⟨c, rest, _, hc⟩ := step_cases h
  · exact hs.of_same (State.tick_same (by decide) (.refl _ s))
  · exact (exec_keepsSeal c (s := { s with pending := rest }) hs).of_exec hc

/-- Settles O4, by the lemma of every command: the invariant does not speak of the queue, and each command keeps it. -/
theorem everyStepKeepsTheInvariant : Obligations.EveryStepKeepsTheInvariant := by
  intro s t hs hstep
  obtain ⟨q, hkept⟩ := step_kept hstep
  have hq : ({ s with pending := q } : State).Inv := hs
  exact hkept.inv hq

/-- Settles O5: no command writes the part's suffix. -/
theorem theSuffixNeverChanges : Obligations.TheSuffixNeverChanges := by
  intro s t hstep
  obtain ⟨q, hkept⟩ := step_kept hstep
  exact hkept.part

/-- Settles O6: the seal's state is written as 2 by an accepted enter token and as 1 by a leave, and by nothing else. -/
theorem anSPartIsSealedOrAdjusted : Obligations.AnSPartIsSealedOrAdjusted := by
  intro s t _ hlow hhigh hstep
  exact step_keepsSeal ⟨hlow, hhigh⟩ hstep

/-- Settles O3: the part after reset has eight dies, no session, and no channel that has left its reset value. -/
theorem resetMeetsTheInvariant : Obligations.ResetMeetsTheInvariant := by
  have hpart : State.reset.PartLegal := ⟨by decide, by decide⟩
  have hsessions : State.reset.SessionsBounded := ⟨Nat.zero_le 8, Nat.zero_le 2⟩
  have hgates : State.reset.GatesSafe := fun _ h => absurd h List.not_mem_nil
  exact ⟨hpart, hsessions, hgates⟩

theorem State.sitePop_iff (s : State) (n : Nat) : s.sitePop n = true ↔ 1 ≤ n ∧ n + 2 ≤ s.variant := by
  simp [State.sitePop]

/-- Settles O8, by the reading of a populated site as an interval of numbers. -/
theorem populatedSites : Obligations.PopulatedSites := by
  intro s
  refine ⟨fun n => ?_, fun m n hm hmn hn => ?_⟩
  · rw [s.sitePop_iff]
    omega
  · rw [s.sitePop_iff] at *
    omega

/-- Settles O9: division and remainder by 64 read the site and the local channel back. -/
theorem globalChannelNumbers : Obligations.GlobalChannelNumbers := by
  intro site loc hsite _ hloc
  refine ⟨rfl, ?_, ?_⟩
  · unfold dieOf chanOf
    omega
  · unfold localOf chanOf
    omega

end Sys2Proof.Machine
end

section
/-! The statement on Hinge-R: beacons, the records, mirrors and events that the measuring part sends, and the discard of
a bad request frame. -/

namespace Sys2Proof.Machine

/-! ## A command's effect with its frame -/

/-- A command whose guard holds gives what its operation does. -/
theorem Gives.of_guard {c : Instr} {s t u : State} {p : State → Prop} {g : Prop} [Decidable g]
    (h : exec c s = .next (if g then t else u)) (hg : g) (hp : p t) : Gives c s p :=
  ⟨t, by rw [h, if_pos hg], hp⟩

/-- A command's effect, with its frame proved part by part. -/
theorem Gives.framed {c : Instr} {s : State} {p : State → Prop} {l : List Part} (h : Gives c s p)
    (hf : ∀ k, k ∉ l → Gives c s (State.Same k s)) : Gives c s fun t => p t ∧ Frame l s t := by
  obtain ⟨t, ht, hp⟩ := h
  exact ⟨t, ht, hp, fun k hk => (hf k hk).of_exec ht⟩

/-- A command's effect, with its frame over the hidden parts. -/
theorem Gives.framedHidden {c : Instr} {s : State} {p : State → Prop} {l : List Part} (h : Gives c s p)
    (hf : ∀ k, k ∉ l → k.isObj = false → Gives c s (State.Same k s)) :
    Gives c s fun t => p t ∧ FrameHidden l s t := by
  obtain ⟨t, ht, hp⟩ := h
  exact ⟨t, ht, hp, fun k hk hr => (hf k hk hr).of_exec ht⟩

/-! ## Beacons -/

/-- The beacon that was due is no longer. -/
theorem State.takeBeacon_beacon (s : State) (lt number mclk : Nat) :
    (s.takeBeacon lt number mclk).clock.beacon = none := rfl

/-- The newest beacon of the list is the one taken. -/
theorem State.takeBeacon_head (s : State) (lt number mclk : Nat) :
    (s.takeBeacon lt number mclk).qm.beacons.head? = some (max mclk s.mclkNow, lt, number) := rfl

/-- MCLK time stands at the beacon's and counts on from it, whatever the beacon marks. -/
theorem State.takeBeacon_mclk (s : State) (lt number mclk : Nat) :
    (s.takeBeacon lt number mclk).qm.mclk = max mclk s.mclkNow ∧
      (s.takeBeacon lt number mclk).qm.mclkCnt = s.clock.cnt := by
  unfold State.takeBeacon
  extract_lets m y bad z w clk v
  have hz : z.qm.mclk = m ∧ z.qm.mclkCnt = s.clock.cnt := by
    unfold z
    split
    · exact ⟨rfl, rfl⟩
    · exact ⟨rfl, rfl⟩
  have hw : w.qm.mclk = m ∧ w.qm.mclkCnt = s.clock.cnt := by
    unfold w
    split
    · exact hz
    · exact hz
  exact hw

/-! ## Mirrors -/

/-- The registers of R219 hold a channel's mirrors for an epoch, as the measuring part formed them. -/
def State.Mirrors (t : State) (epochLt c : Nat) (x : QChan) : Prop :=
  t.rd (0x5100 + c) 1 met = x.mV ∧ t.rd (0x5100 + c) 2 met = x.mI ∧ t.rd (0x5100 + c) 3 met = x.wTemp ∧
    t.rd (0x5100 + c) 4 met = x.mQ ∧ t.rd (0x5100 + c) 5 met = x.mE ∧ t.rd (0x5100 + c) 6 met = epochLt

/-- Mirrors are read from one register index. -/
theorem State.Mirrors.of_same {s t : State} {epochLt c : Nat} {x : QChan} (h : s.Mirrors epochLt c x)
    (e : State.Same (.reg (0x5100 + c)) s t) : t.Mirrors epochLt c x := by
  have hrd : ∀ j, t.rd (0x5100 + c) j met = s.rd (0x5100 + c) j met := fun j => e j met
  simpa only [State.Mirrors, hrd] using h

/-- The writes of a channel's mirrors to its registers. -/
def State.wrMirrors (s : State) (epochLt c : Nat) (x : QChan) : State :=
  (((((s.wr (0x5100 + c) 1 met x.mV).wr (0x5100 + c) 2 met x.mI).wr (0x5100 + c) 3 met x.wTemp).wr (0x5100 + c) 4 met
    x.mQ).wr (0x5100 + c) 5 met x.mE).wr (0x5100 + c) 6 met epochLt

theorem State.wrMirrors_mirrors (s : State) (epochLt c : Nat) (x : QChan) :
    (s.wrMirrors epochLt c x).Mirrors epochLt c x := by
  simp [State.Mirrors, State.wrMirrors, State.rd_wr]

theorem State.wrMirrors_same {k : Part} (s : State) {epochLt c : Nat} {x : QChan} (hk : k ∉ [.reg (0x5100 + c)]) :
    State.Same k s (s.wrMirrors epochLt c x) :=
  State.wr_same hk (State.wr_same hk (State.wr_same hk (State.wr_same hk (State.wr_same hk (State.wr_same hk
    (.refl k s))))))

/-- After the writes, the die's comparison changes the registers of 0x2443 alone. -/
theorem State.putMirror_same_wrMirrors {k : Part} (s : State) {epochLt c : Nat} (hk : k ∉ [.reg 0x2443, .chans]) :
    State.Same k (s.wrMirrors epochLt c (s.qc c)) (s.putMirror epochLt c) := by
  have hchans : k ∉ [.chans] := notMem_of hk (by decide)
  have hset {x : Chan} : State.Same k (s.wrMirrors epochLt c (s.qc c)) ((s.wrMirrors epochLt c (s.qc c)).setChan c x) :=
    State.setChan_same hchans (.refl k _)
  change State.Same k _ (ite _ _ _)
  split
  · exact State.compareMirror_same hk hset
  · exact .refl k _

/-- A channel's mirrors reach its registers. -/
theorem State.putMirror_mirrors (s : State) (epochLt c : Nat) :
    (s.putMirror epochLt c).Mirrors epochLt c (s.qc c) :=
  (s.wrMirrors_mirrors epochLt c (s.qc c)).of_same (s.putMirror_same_wrMirrors (by simp; omega))

/-- Another channel's mirrors stay as they are. -/
theorem State.Mirrors.putMirror_ne {s : State} {epochLt c d : Nat} {x : QChan} (h : s.Mirrors epochLt c x)
    (hd : c ≠ d) : (s.putMirror epochLt d).Mirrors epochLt c x :=
  have hw : State.Same (.reg (0x5100 + c)) s (s.wrMirrors epochLt d (s.qc d)) :=
    s.wrMirrors_same (by simpa using hd)
  h.of_same (hw.trans (s.putMirror_same_wrMirrors (by simp; omega)))

/-- What the measuring part holds of a channel is not changed by sending a mirror. -/
theorem State.putMirror_qc (s : State) (epochLt c d : Nat) : (s.putMirror epochLt d).qc c = s.qc c := by
  have hqm : (s.putMirror epochLt d).qm = s.qm := State.putMirror_same (k := .qm) rfl (by decide) (.refl .qm s)
  unfold State.qc
  rw [hqm]

/-- After the mirrors of a list of channels, each channel of the list has its own, whatever its place in the list. -/
theorem each_putMirror_mirrors {l : List Nat} {s : State} {epochLt c : Nat} {x : QChan} (hx : s.qc c = x)
    (h : c ∈ l ∨ s.Mirrors epochLt c x) : (each l (fun s d => s.putMirror epochLt d) s).Mirrors epochLt c x := by
  induction l generalizing s with
  | nil => exact h.resolve_left List.not_mem_nil
  | cons d l ih =>
    refine ih ((s.putMirror_qc epochLt c d).trans hx) ?_
    by_cases hd : c = d
    · subst hd hx
      exact .inr (s.putMirror_mirrors epochLt c)
    · exact h.imp (fun hm => (List.mem_cons.1 hm).resolve_left hd) fun hm => hm.putMirror_ne hd

/-! ## The clauses -/

theorem beacon_gives {s : State} {lt : Nat} (number mclk : Nat) (hup : s.qmUp = true) (hfw : s.fw = true)
    (hdue : s.clock.beacon = some lt) (hsent : s.closesSent lt = true) :
    Gives (.beacon lt number mclk) s fun t =>
      t.clock.beacon = none ∧ t.qm.mclk = max mclk (s.ahead (.beacon lt number mclk)).mclkNow ∧
      t.qm.mclkCnt = (s.ahead (.beacon lt number mclk)).clock.cnt ∧
      t.qm.beacons.head? = some (max mclk (s.ahead (.beacon lt number mclk)).mclkNow, lt, number) := by
  obtain ⟨hmclk, hcnt⟩ := (s.ahead (.beacon lt number mclk)).takeBeacon_mclk lt number mclk
  exact .of_guard rfl ⟨hup, hfw, hdue, hsent⟩ ⟨State.takeBeacon_beacon .., hmclk, hcnt, State.takeBeacon_head ..⟩

theorem mailboxFrameDiscard_gives {s : State} {b : List Byte} (hup : s.qmUp = true) (hbad : requestOk b = false) :
    Gives (.mailboxFrameDiscard b) s fun t =>
      t = s.onQm fun q => { q with rejected := (s.qm.rejected + 1) % 2 ^ 32 } :=
  .of_guard rfl ⟨hup, by rw [hbad, Bool.not_false]⟩ rfl

theorem qmRecordFrame_gives {s : State} {n : Nat} {r : Rec} (hrec : s.recAt n = some r)
    (hhears : s.hears (recClass r.kind) = true) :
    Gives (.qmRecordFrame n) s fun t => t.net.gotRec = max n s.net.gotRec ∧ t.lastMet = s.lt := by
  have hexec : exec (.qmRecordFrame n) s = .next (if s.hears (recClass r.kind) then
      { s.heard with net := { s.net with gotRec := max n s.net.gotRec } } else s) := by
    change execQmRecordFrame n s = _
    rw [execQmRecordFrame, hrec]
  exact .of_guard hexec hhears ⟨rfl, rfl⟩

theorem qmBatchRecordFrame_gives {s : State} {n : Nat} {b : Bat} (hbat : s.batAt n = some b)
    (hhears : s.hears 4 = true) :
    Gives (.qmBatchRecordFrame n) s fun t => t.net.gotBat = max n s.net.gotBat ∧ t.lastMet = s.lt := by
  have hexec : exec (.qmBatchRecordFrame n) s = .next (if s.hears 4 then
      { s.heard with net := { s.net with gotBat := max n s.net.gotBat } } else s) := by
    change execQmBatchRecordFrame n s = _
    rw [execQmBatchRecordFrame, hbat]
  exact .of_guard hexec hhears ⟨rfl, rfl⟩

theorem mirrorSet_gives {s : State} (epochLt : Nat) (hhears : s.hears 5 = true) :
    Gives (.mirrorSet epochLt) s fun t =>
      t.lastMet = s.lt ∧ ∀ c ∈ s.metChans, (s.qc c).mLt = some epochLt → t.Mirrors epochLt c (s.qc c) := by
  refine .of_guard rfl hhears ⟨?_, fun c hc hlt => ?_⟩
  · exact each_same (k := .lastMet) (.refl _ s.heard) fun _ _ => State.putMirror_same rfl (by decide)
  · exact each_putMirror_mirrors rfl (.inl (List.mem_filter.2 ⟨hc, beq_iff_eq.2 hlt⟩))

theorem metrologyEvent_gives {s : State} {e : QmEvent} (hup : s.qmUp = true) (hfw : s.fw = true)
    (hsent : e ∈ s.qm.events) :
    Gives (.metrologyEvent e) s fun t => t.qm.events = s.qm.events.erase e ∧ t.lastMet = s.lt := by
  refine .of_guard rfl ⟨hup, hfw, List.contains_iff_mem.2 hsent⟩ ⟨?_, ?_⟩
  · exact congrArg Qm.events (State.takeEvent_same (k := .qm) (by decide) (.refl _ _))
  · exact State.takeEvent_same (k := .lastMet) (by decide) (.refl _ _)

/-- Settles O19: each command's guard holds, so its effect is read off its operation, and the frame is that of the
command. -/
theorem framesFromTheQm : Obligations.FramesFromTheQm := by
  refine ⟨?beacon, ?discard, ?record, ?batch, ?mirrors, ?event⟩
  case beacon =>
    rintro lt number mclk u s hup hfw hdue hsent rfl
    exact (beacon_gives number mclk hup hfw hdue hsent).framed fun k hk => execBeacon_same hk (.refl k s)
  case discard =>
    intro b s hup hbad
    exact (mailboxFrameDiscard_gives hup hbad).framed fun k hk => execMailboxFrameDiscard_same hk (.refl k s)
  case record =>
    intro n r s hrec hhears
    exact (qmRecordFrame_gives hrec hhears).framed fun k hk => execQmRecordFrame_same hk (.refl k s)
  case batch =>
    intro n b s hbat hhears
    exact (qmBatchRecordFrame_gives hbat hhears).framed fun k hk => execQmBatchRecordFrame_same hk (.refl k s)
  case mirrors =>
    intro epochLt s hhears
    exact (mirrorSet_gives epochLt hhears).framedHidden fun k hk hr => execMirrorSet_same hr hk (.refl k s)
  case event =>
    intro e s hup hfw hsent
    exact (metrologyEvent_gives hup hfw hsent).framed fun k hk => execMetrologyEvent_same hk (.refl k s)

end Sys2Proof.Machine
end

section
/-! SUPPORT. What latches, source masks and turn-offs leave behind: a latch stays, gates only turn off, and the operation
of a list holds for each of its elements. -/

namespace Sys2Proof.Machine

/-! ## Bits of a register -/

theorem bit_eq_testBit (x k : Nat) : bit x k = x.testBit k := by
  rw [Nat.testBit_eq_decide_div_mod_eq, bit, beq_eq_decide]

theorem bit_setBit_self (x k : Nat) : bit (setBit x k) k = true := by
  unfold setBit
  split
  case isTrue h => exact h
  case isFalse h =>
    have hx : x / 2 ^ k % 2 ≠ 1 := by simpa [bit] using h
    rw [bit, Nat.add_div_right _ (Nat.two_pow_pos k), beq_iff_eq]
    omega

theorem bit_clearBit_self (x k : Nat) : bit (clearBit x k) k = false := by
  unfold clearBit
  split
  case isTrue h =>
    have hx : x / 2 ^ k % 2 = 1 := by simpa [bit] using h
    have hd : (x - 2 ^ k) / 2 ^ k = x / 2 ^ k - 1 := by
      simpa using Nat.sub_mul_div x (2 ^ k) 1
    rw [bit, hd, beq_eq_false_iff_ne]
    omega
  case isFalse h => simpa using h

/-! ## Lists of operations -/

/-- What the operation of an element brings about and every operation keeps holds after the list of each of its
elements; what held before stays. -/
theorem each_reaches {α : Type} {inv : State → Prop} {p : α → State → Prop} {l : List α} {f : State → α → State}
    {s : State} (hinv : ∀ y x, inv y → inv (f y x)) (hset : ∀ y x, inv y → p x (f y x))
    (hkeep : ∀ y x z, p z y → p z (f y x)) (hs : inv s) {z : α} (h : z ∈ l ∨ p z s) : p z (each l f s) := by
  induction l generalizing s with
  | nil => exact h.resolve_left List.not_mem_nil
  | cons x l ih =>
    refine ih (hinv s x hs) ?_
    obtain h | h := h
    · obtain rfl | hz := List.mem_cons.1 h
      · exact .inr (hset s z hs)
      · exact .inl hz
    · exact .inr (hkeep s x z h)

/-- What every operation of a list keeps holds after the list. -/
theorem each_induct {α : Type} {r : State → Prop} {l : List α} {f : State → α → State} {s : State} (h : r s)
    (hf : ∀ y x, x ∈ l → r y → r (f y x)) : r (each l f s) := by
  induction l generalizing s with
  | nil => exact h
  | cons x l ih => exact ih (hf s x List.mem_cons_self h) fun y z hz => hf y z (List.mem_cons_of_mem x hz)

/-! ## Readers of a part that is unchanged -/

theorem State.chan_of_same {s t : State} (h : State.Same .chans s t) (c : Nat) : t.chan c = s.chan c := by
  rw [State.chan, State.chan, show t.chans = s.chans from h]

theorem State.unit_of_same {s t : State} (h : State.Same .units s t) (d u : Nat) : t.unit d u = s.unit d u := by
  rw [State.unit, State.unit, show t.units = s.units from h]

theorem State.adc_of_same {s t : State} (h : State.Same .adcs s t) (d u : Nat) : t.adc d u = s.adc d u := by
  rw [State.adc, State.adc, show t.adcs = s.adcs from h]

theorem State.die_of_same {s t : State} (h : State.Same .dies s t) (d : Nat) : t.die d = s.die d := by
  rw [State.die, State.die, show t.dies = s.dies from h]

theorem State.cnt_of_same {s t : State} (hclock : State.Same .clock s t) (hdies : State.Same .dies s t) (d : Nat) :
    t.cnt d = s.cnt d := by
  have hclk : t.clock = s.clock := hclock
  have hd : t.dies = s.dies := hdies
  rw [State.cnt, State.cnt, State.fine, State.fine, State.die, State.die, hclk, hd]

/-! ## Latches of channels stay -/

/-- Every channel that was latched is latched. -/
structure LatchesStay (s t : State) : Prop where
  latched : ∀ c, s.latched c = true → t.latched c = true

theorem State.latched_of_same {s t : State} (h : State.Same (.reg 0x6010) s t) (c : Nat) : t.latched c = s.latched c := by
  rw [State.latched, State.latched, h 1 c]

theorem LatchesStay.refl (s : State) : LatchesStay s s := ⟨fun _ h => h⟩

theorem LatchesStay.trans {a s t : State} (h : LatchesStay a s) (k : LatchesStay s t) : LatchesStay a t :=
  ⟨fun c hc => k.latched c (h.latched c hc)⟩

theorem LatchesStay.of_same {s t : State} (h : State.Same (.reg 0x6010) s t) : LatchesStay s t :=
  ⟨fun c hc => (State.latched_of_same h c).trans hc⟩

/-- A latched channel latches again for a later cause alone (R506). -/
theorem State.latchOne_of_latched {s : State} {c : Nat} (h : s.latched c = true) (cause arg corr : Nat) :
    s.latchOne c cause arg corr = (s.setChan c { s.chan c with causeAt := some s.clock.cnt }).wr 0x6010 6 c
      (setBit ((s.setChan c { s.chan c with causeAt := some s.clock.cnt }).rdN 0x6010 6 c) cause) :=
  if_pos h

/-- The registers that a first latch writes (R505), its gates being off. -/
def State.latchRegs (s : State) (c cause arg corr : Nat) : State :=
  (((((((s.wr 0x6010 1 c 1).wr 0x6010 2 c cause).wr 0x6010 3 c arg).wr 0x6010 4 c s.lt).wr 0x6010 5 c corr).wr 0x6010 6
    c 0).inc 0x6010 8 c)

/-- A channel that is not latched turns off, shows the latch, and ends its run (R45, R505). -/
theorem State.latchOne_of_free {s : State} {c : Nat} (h : s.latched c = false) (cause arg corr : Nat) :
    s.latchOne c cause arg corr =
      (((((s.setChan c { s.chan c with causeAt := some s.clock.cnt }).gatesOff c).latchRegs c cause arg corr).raise
        (dieOf c) c 0x2001 (latchData cause arg (s.rd 0x2444 2 c) (s.chan c).law.vLast) corr).dropJobs (dieOf c)
          (localOf c)).endByLatch c := by
  have hfree : ¬ (s.setChan c { s.chan c with causeAt := some s.clock.cnt }).latched c = true := by
    simpa [State.latched] using h
  unfold State.latchOne
  rw [if_neg hfree]
  simp [State.latchRegs]

theorem State.latchRegs_latched (s : State) (c cause arg corr : Nat) : (s.latchRegs c cause arg corr).latched c = true := by
  simp [State.latchRegs, State.latched, State.inc, State.rd_wr]

theorem State.wr_latched_ne (s : State) {j : Nat} (e : Nat) (v : Int) (hj : j ≠ 1) (c : Nat) :
    (s.wr 0x6010 j e v).latched c = s.latched c := by
  rw [State.latched, State.latched, State.rd_wr_ne s v (by simp [Ne.symm hj])]

theorem State.latchRegs_same {k : Part} (s : State) (c cause arg corr : Nat) (hk : k ∉ [.reg 0x6010]) :
    State.Same k s (s.latchRegs c cause arg corr) :=
  State.inc_same hk (State.wr_same hk (State.wr_same hk (State.wr_same hk (State.wr_same hk (State.wr_same hk
    (State.wr_same hk (.refl k s)))))))

/-- The registers of a first latch leave the other channels' latches. -/
theorem State.latchRegs_keeps (s : State) (c cause arg corr : Nat) : LatchesStay s (s.latchRegs c cause arg corr) := by
  refine ⟨fun d hd => ?_⟩
  have hset : (s.wr 0x6010 1 c 1).latched d = true := by
    rw [State.latched, State.rd_wr]
    split
    · rfl
    · exact hd
  simpa [State.latchRegs, State.inc, State.wr_latched_ne] using hset

/-- A latched channel shows its latch, and the latches that stood stay. -/
theorem State.latchOne_latches (s : State) (c cause arg corr : Nat) :
    (s.latchOne c cause arg corr).latched c = true ∧ LatchesStay s (s.latchOne c cause arg corr) := by
  have hset : LatchesStay s (s.setChan c { s.chan c with causeAt := some s.clock.cnt }) :=
    .of_same (State.setChan_same (by decide) (.refl _ s))
  cases h : s.latched c
  case true =>
    rw [State.latchOne_of_latched h]
    have hlater (y : State) (v : Int) : LatchesStay y (y.wr 0x6010 6 c v) :=
      ⟨fun d hd => (y.wr_latched_ne c v (by decide) d).trans hd⟩
    exact ⟨(hset.trans (hlater _ _)).latched c h, hset.trans (hlater _ _)⟩
  case false =>
    rw [State.latchOne_of_free h]
    have hoff : LatchesStay s ((s.setChan c { s.chan c with causeAt := some s.clock.cnt }).gatesOff c) :=
      hset.trans (.of_same (State.gatesOff_same (by decide) (.refl _ _)))
    have hrest (y : State) (data : List Byte) : LatchesStay y
        (((y.raise (dieOf c) c 0x2001 data corr).dropJobs (dieOf c) (localOf c)).endByLatch c) :=
      .of_same (State.endByLatch_same (by decide) (State.dropJobs_same (by decide)
        (State.raise_same (by decide) (.refl _ y))))
    exact ⟨(hrest _ _).latched c (State.latchRegs_latched ..), (hoff.trans (State.latchRegs_keeps ..)).trans (hrest _ _)⟩

/-- Latching a list of channels latches each of them. -/
theorem each_latchOne_latches {l : List Nat} {s : State} {cause arg corr d : Nat} (h : d ∈ l ∨ s.latched d = true) :
    (each l (fun s c => s.latchOne c cause arg corr) s).latched d = true :=
  each_reaches (inv := fun _ => True) (p := fun d s => s.latched d = true) (fun _ _ _ => trivial)
    (fun y x _ => (y.latchOne_latches x cause arg corr).1) (fun y x b => (y.latchOne_latches x cause arg corr).2.latched b)
    trivial h

/-- The rest of the gangs latches after the channels named (R73). -/
theorem State.latchChans_latches (s : State) {l : List Nat} (cause arg corr : Nat) {d : Nat}
    (h : d ∈ l ∨ s.latched d = true) : (s.latchChans l cause arg corr).latched d = true := by
  refine each_induct (r := fun s => s.latched d = true) (each_latchOne_latches h) fun y m _ hy => ?_
  have hone : (y.latchOne m 3 0 corr).latched d = true := (y.latchOne_latches m 3 0 corr).2.latched d hy
  exact (LatchesStay.of_same (State.wr_same (by decide) (.refl _ _))).latched d hone

theorem State.latchChans_keeps (s : State) (l : List Nat) (cause arg corr : Nat) :
    LatchesStay s (s.latchChans l cause arg corr) :=
  ⟨fun _ h => s.latchChans_latches cause arg corr (.inr h)⟩

theorem State.latchDab_keeps (s : State) (n i cause arg corr : Nat) : LatchesStay s (s.latchDab n i cause arg corr) :=
  .of_same (State.latchDab_same (by decide) (.refl _ s))

/-- The comparator bits of the channels named are as before: the gang's bit (R73) is another channel's. -/
theorem State.latchChans_tripBits (s : State) {l : List Nat} (cause arg corr : Nat) {c : Nat} (hc : c ∈ l) :
    (s.latchChans l cause arg corr).rd 0x2810 4 c = s.rd 0x2810 4 c := by
  have hcs : State.Same (.reg 0x2810) s (each l (fun s c => s.latchOne c cause arg corr) s) :=
    each_same (.refl _ s) fun _ _ h => State.latchOne_same (by decide) h
  have hrest {m : Nat} (hm : m ∈ ((l.flatMap s.gang).filter fun m => !l.contains m).eraseDups) : c ≠ m := by
    have := (List.mem_filter.1 (List.mem_eraseDups.1 hm)).2
    rintro rfl
    simp [hc] at this
  refine each_induct (r := fun y => y.rd 0x2810 4 c = s.rd 0x2810 4 c) (hcs 4 c) fun y m hm hy => ?_
  have hone : State.Same (.reg 0x2810) y (y.latchOne m 3 0 corr) := State.latchOne_same (by decide) (.refl _ y)
  rw [State.rd_wr_ne _ _ (by simpa using hrest hm), hone 4 c, hy]

/-! ## Gates only turn off -/

/-- A slice's gates have only turned off, and it refuses words as before. -/
structure Slice.Falls (x y : Slice) : Prop where
  high : y.hg = true → x.hg = true
  low : y.lg = true → x.lg = true
  blocked : y.blocked = x.blocked

/-- The gates of every channel have only turned off, and each slice refuses words as before. -/
structure SlicesFall (s t : State) : Prop where
  slice : ∀ c, (s.chan c).slice.Falls (t.chan c).slice

theorem Slice.Falls.refl (x : Slice) : x.Falls x := ⟨id, id, rfl⟩

theorem Slice.Falls.trans {x y z : Slice} (h : x.Falls y) (k : y.Falls z) : x.Falls z :=
  ⟨h.high ∘ k.high, h.low ∘ k.low, k.blocked.trans h.blocked⟩

theorem Slice.Falls.off {x y : Slice} (h : x.Falls y) (hx : x.hg = false ∧ x.lg = false) :
    y.hg = false ∧ y.lg = false := by
  obtain ⟨hhigh, hlow, _⟩ := h
  constructor
  · exact Bool.eq_false_iff.2 fun hy => by simp [hx.1] at hhigh; simp [hhigh] at hy
  · exact Bool.eq_false_iff.2 fun hy => by simp [hx.2] at hlow; simp [hlow] at hy

theorem Slice.cut_falls (x : Slice) (t m : Nat) : x.Falls (x.lowOff t m).cut := ⟨nofun, nofun, rfl⟩

theorem SlicesFall.refl (s : State) : SlicesFall s s := ⟨fun _ => .refl _⟩

theorem SlicesFall.trans {a s t : State} (h : SlicesFall a s) (k : SlicesFall s t) : SlicesFall a t :=
  ⟨fun c => (h.slice c).trans (k.slice c)⟩

theorem SlicesFall.of_same {s t : State} (h : State.Same .chans s t) : SlicesFall s t :=
  ⟨fun c => State.chan_of_same h c ▸ .refl _⟩

theorem State.setChan_falls (s : State) {c : Nat} {x : Chan} (h : (s.chan c).slice.Falls x.slice) :
    SlicesFall s (s.setChan c x) := by
  refine ⟨fun d => ?_⟩
  by_cases hd : d = c
  · subst hd
    rwa [State.chan_setChan]
  · rw [State.chan_setChan_ne s x hd]
    exact .refl _

theorem State.wr_falls (s : State) (i j e : Nat) (v : Int) : SlicesFall s (s.wr i j e v) := ⟨fun _ => .refl _⟩

theorem State.sliceOff_falls (s : State) (c : Nat) : SlicesFall s (s.sliceOff c) := s.setChan_falls (Slice.cut_falls ..)

theorem State.gatesOff_falls (s : State) (c : Nat) : SlicesFall s (s.gatesOff c) :=
  (s.sliceOff_falls c).trans (.of_same (State.setUnit_same (by decide) (.refl _ _)))

theorem State.closeStep_falls (s : State) (c row cause lt : Nat) : SlicesFall s (s.closeStep c row cause lt) := by
  unfold State.closeStep
  extract_lets y ch run z
  have hz : SlicesFall y z := y.setChan_falls (.refl _)
  exact ((s.wr_falls 0x2402 0x0A c lt).trans hz).trans (.of_same (State.mail_same (by decide) (.refl _ z)))

theorem State.endRun_falls (s : State) (c result : Nat) : SlicesFall s (s.endRun c result) := by
  unfold State.endRun
  extract_lets ch sup y
  have hy : SlicesFall s y := s.setChan_falls (.refl _)
  have hregs : SlicesFall y (((y.wr 0x2402 1 c 7).wr 0x2402 3 c result).wr 0x2444 1 c 0) :=
    ((y.wr_falls ..).trans (State.wr_falls ..)).trans (State.wr_falls ..)
  exact (hy.trans hregs).trans (.of_same (State.setWord4_same (by decide) (.refl _ _)))

theorem State.endByLatch_falls (s : State) (c : Nat) : SlicesFall s (s.endByLatch c) := by
  unfold State.endByLatch
  split
  · refine SlicesFall.trans ?_ (State.endRun_falls ..)
    split
    · exact (s.wr_falls 0x2402 9 c 5).trans (State.closeStep_falls ..)
    · exact .refl s
  · exact .refl s

theorem State.latchOne_falls (s : State) (c cause arg corr : Nat) : SlicesFall s (s.latchOne c cause arg corr) := by
  have hset : SlicesFall s (s.setChan c { s.chan c with causeAt := some s.clock.cnt }) := s.setChan_falls (.refl _)
  cases h : s.latched c
  case true =>
    rw [State.latchOne_of_latched h]
    exact hset.trans (State.wr_falls ..)
  case false =>
    rw [State.latchOne_of_free h]
    have hregs (y : State) (data : List Byte) : SlicesFall y
        (((y.latchRegs c cause arg corr).raise (dieOf c) c 0x2001 data corr).dropJobs (dieOf c) (localOf c)) :=
      .of_same (State.dropJobs_same (by decide) (State.raise_same (by decide)
        (State.latchRegs_same _ _ _ _ _ (by decide))))
    exact ((hset.trans (State.gatesOff_falls ..)).trans (hregs _ _)).trans (State.endByLatch_falls ..)

theorem State.latchChans_falls (s : State) (l : List Nat) (cause arg corr : Nat) :
    SlicesFall s (s.latchChans l cause arg corr) := by
  have hcs : SlicesFall s (each l (fun s c => s.latchOne c cause arg corr) s) :=
    each_induct (.refl s) fun y c _ hy => hy.trans (y.latchOne_falls ..)
  refine each_induct hcs fun y m _ hy => ?_
  exact (hy.trans (y.latchOne_falls ..)).trans (.of_same (State.wr_same (by decide) (.refl _ _)))

/-- A fault source turns gates off only (R103). -/
theorem State.assertSource_falls (s : State) (n src corr : Nat) : SlicesFall s (s.assertSource n src corr) := by
  refine each_induct ((s.wr_falls ..).trans (State.latchChans_falls ..)) fun y i _ hy => hy.trans (.of_same ?_)
  exact State.latchDab_same (by decide) (.refl _ y)

/-! ## Comparators (R59, R60) -/

theorem State.segmentBusFault_keeps (s : State) (n pattern first count corr : Nat) :
    LatchesStay s (s.segmentBusFault n pattern first count corr) := by
  unfold State.segmentBusFault
  extract_lets x d y z w v
  have hy : LatchesStay s y := .of_same (State.setDie_same (by decide) (State.wr_same (by decide) (State.inc_same
    (by decide) (State.wr_same (by decide) (State.wr_same (by decide) (State.wr_same (by decide) (State.wr_same
      (by decide) (.refl _ s))))))))
  have hz : LatchesStay s z := each_induct hy fun u c _ hu => hu.trans (u.latchOne_latches c 4 0 corr).2
  have hw : LatchesStay s w := each_induct hz fun u i _ hu => hu.trans (u.latchDab_keeps n i 4 0 corr)
  exact hw.trans (.of_same (State.raiseFrame_same (by decide) (State.raise_same (by decide) (.refl _ w))))

theorem State.checkSegmentBus_keeps (s : State) (c corr : Nat) : LatchesStay s (s.checkSegmentBus c corr) := by
  unfold State.checkSegmentBus
  extract_lets n d t span kept recent y
  have hy : LatchesStay s y := .of_same (State.setDie_same (by decide) (.refl _ s))
  split
  split
  · exact hy.trans (State.segmentBusFault_keeps ..)
  · exact hy

/-- The state in which a comparator's trip is carried out: its bits are set (R60). -/
def State.setTrip (s : State) (c bits : Nat) : State := s.wr 0x2810 4 c ((s.rdN 0x2810 4 c ||| bits : Nat) : Int)

/-- A trip whose action has been taken sets its bits alone; any other latches the channel and its gang, and looks at the
segment bus (R60, R62). -/
theorem State.trip_cases (s : State) (c bits : Nat) :
    (s.latched c = true ∧ s.trip c bits = s.setTrip c bits) ∨
    ∃ corr, s.trip c bits = (((((s.setTrip c bits).openCorr (dieOf c)).inc 0x2810 5 c).latchChans [c] 2 0 corr).wakeDie
      (dieOf c) 5).checkSegmentBus c corr := by
  unfold State.trip
  extract_lets taken y n corr z w v
  split
  case isTrue h => exact .inl ⟨(Bool.and_eq_true_iff.1 h).1, rfl⟩
  case isFalse => exact .inr ⟨corr, rfl⟩

/-- A trip leaves its channel latched (R59). -/
theorem State.trip_latched (s : State) (c bits : Nat) : (s.trip c bits).latched c = true := by
  obtain ⟨hc, ht⟩ | ⟨corr, ht⟩ := s.trip_cases c bits
  · rw [ht]
    exact (LatchesStay.of_same (State.wr_same (by decide) (.refl _ s))).latched c hc
  · rw [ht]
    refine (State.checkSegmentBus_keeps ..).latched c ?_
    refine (LatchesStay.of_same (State.wakeDie_same (by decide) (.refl _ _))).latched c ?_
    exact State.latchChans_latches _ _ _ _ (.inl List.mem_cons_self)

/-- A trip sets its bits among the channel's comparator bits, and no other (R60). -/
theorem State.trip_bits (s : State) (c bits : Nat) : (s.trip c bits).rdN 0x2810 4 c = s.rdN 0x2810 4 c ||| bits := by
  have hset : (s.setTrip c bits).rd 0x2810 4 c = ((s.rdN 0x2810 4 c ||| bits : Nat) : Int) := State.rd_wr_self ..
  have htrip : (s.trip c bits).rd 0x2810 4 c = (s.setTrip c bits).rd 0x2810 4 c := by
    obtain ⟨_, ht⟩ | ⟨corr, ht⟩ := s.trip_cases c bits
    · rw [ht]
    · have hwake : ∀ y : State, State.Same (.reg 0x2810) y ((y.wakeDie (dieOf c) 5).checkSegmentBus c corr) :=
        fun y => State.checkSegmentBus_same (by decide) (State.wakeDie_same (by decide) (.refl _ y))
      rw [ht, hwake _ 4 c, State.latchChans_tripBits _ _ _ _ List.mem_cons_self]
      exact State.rd_wr_ne _ _ (by simp)
  rw [State.rdN, htrip, hset, Int.toNat_natCast]

theorem State.trip_bit (s : State) (c bits k : Nat) (hk : bits.testBit k = true) :
    bit ((s.trip c bits).rdN 0x2810 4 c) k = true := by
  rw [State.trip_bits, bit_eq_testBit, Nat.testBit_or, hk, Bool.or_true]

end Sys2Proof.Machine
end

section
/-! The statement on driver slices: undervoltage, bootstrap, refresh, edge words, dead time and comparators. -/

namespace Sys2Proof.Machine

/-! ## Driver supply and bootstrap (R46, R47) -/

/-- The slice of a channel holds both gates low. -/
def State.LowAt (c : Nat) (s : State) : Prop := (s.chan c).slice.hg = false ∧ (s.chan c).slice.lg = false

theorem State.LowAt.falls {s t : State} {c : Nat} (hs : s.LowAt c) (h : SlicesFall s t) : t.LowAt c := (h.slice c).off hs

theorem State.sliceOff_low (s : State) (c : Nat) : (s.sliceOff c).LowAt c := by
  rw [State.LowAt, State.sliceOff, State.chan_setChan]
  exact ⟨rfl, rfl⟩

theorem State.slicesLow_low (s : State) (n : Nat) {c : Nat} (hc : c ∈ siteChans n) : (s.slicesLow n).LowAt c := by
  have hset (y : State) (x : Nat) (_ : True) : (y.sliceOff x).LowAt x := y.sliceOff_low x
  have hkeep (y : State) (x b : Nat) (hy : y.LowAt b) : (y.sliceOff x).LowAt b := hy.falls (y.sliceOff_falls x)
  exact each_reaches (fun _ _ _ => trivial) hset hkeep trivial (.inl hc)

/-- A source that asserts stands in the die's sources. -/
theorem State.assertSource_bit (s : State) (n src corr : Nat) :
    bit ((s.assertSource n src corr).rdN 0x2803 9 (siteI n)) src = true := by
  have hact : State.Same (.reg 0x2803) (s.wr 0x2803 9 (siteI n) (setBit (s.rdN 0x2803 9 (siteI n)) src))
      (s.assertSource n src corr) := State.actSource_same (by decide) (.refl _ _)
  rw [State.rdN, hact 9, State.rd_wr_self, Int.toNat_natCast, bit_setBit_self]

/-- A source that deasserts stands there no more. -/
theorem State.deassertSource_bit (s : State) (n src : Nat) :
    bit ((s.deassertSource n src).rdN 0x2803 9 (siteI n)) src = false := by
  rw [State.deassertSource, State.rdN, State.rd_wr_self, Int.toNat_natCast, bit_clearBit_self]

theorem vdrvUndervoltage_gives {s : State} {n mv : Nat} (hpop : s.sitePop n = true) (hmv : mv < 7200) :
    Gives (.vdrvUndervoltage n mv) s fun t =>
      t.rd 0x2800 2 (siteI n) = mv ∧ t.rd 0x2800 3 (siteI n) = 1 ∧ bit (t.rdN 0x2803 9 (siteI n)) 2 = true ∧
      ∀ c ∈ siteChans n, (t.chan c).slice.hg = false ∧ (t.chan c).slice.lg = false := by
  refine .of_guard rfl ⟨hpop, hmv⟩ ?_
  extract_lets y z
  have hregs : State.Same (.reg 0x2800) y ((z.openCorr n).assertSource n 2 (z.corrId n)) :=
    State.assertSource_same (by decide) (State.openCorr_same (by decide) (State.wakeDie_same (by decide)
      (State.slicesLow_same (by decide) (.refl _ y))))
  have hchans : State.Same .chans (y.slicesLow n) (z.openCorr n) :=
    State.openCorr_same (by decide) (State.wakeDie_same (by decide) (.refl _ _))
  refine ⟨?_, ?_, State.assertSource_bit .., fun c hc => ?_⟩
  · rw [hregs 2]
    simp [y, State.rd_wr]
  · rw [hregs 3]
    exact State.rd_wr_self ..
  · have hfall := (SlicesFall.of_same hchans).trans (State.assertSource_falls _ n 2 (z.corrId n))
    exact (y.slicesLow_low n hc).falls hfall

theorem vdrvRelease_gives {s : State} {n mv : Nat} (hpop : s.sitePop n = true) (hmv : 7600 < mv) :
    Gives (.vdrvRelease n mv) s fun t =>
      t.rd 0x2800 2 (siteI n) = mv ∧ t.rd 0x2800 3 (siteI n) = 0 ∧ bit (t.rdN 0x2803 9 (siteI n)) 2 = false := by
  refine .of_guard rfl ⟨hpop, hmv⟩ ⟨?_, ?_, State.deassertSource_bit ..⟩
  · simp [State.deassertSource, State.rd_wr]
  · simp [State.deassertSource, State.rd_wr]

theorem bootstrapHold_gives {s : State} {c mv : Nat} (hpop : s.chanPop c = true) (hmv : mv < 5600) :
    Gives (.bootstrapHold c mv) s fun t =>
      t.rd 0x2812 2 c = 1 ∧ (t.chan c).slice.hg = false ∧ (t.chan c).slice.lg = (s.chan c).slice.lg := by
  refine .of_guard rfl ⟨hpop, hmv⟩ ⟨State.rd_wr_self .., ?_⟩
  rw [State.chan_wr, State.chan_setChan]
  dsimp only
  split
  · exact ⟨rfl, rfl⟩
  · exact ⟨rfl, rfl⟩

theorem bootstrapRelease_gives {s : State} {c mv : Nat} (hpop : s.chanPop c = true) (hmv : 6000 < mv) :
    Gives (.bootstrapRelease c mv) s fun t => t.rd 0x2812 2 c = 0 :=
  .of_guard rfl ⟨hpop, hmv⟩ (State.rd_wr_self ..)

/-! ## The forced refresh (R48, R91) -/

theorem chanOf_local (c : Nat) : chanOf (dieOf c) (localOf c) = c := by
  unfold chanOf dieOf localOf
  omega

theorem isChan_local (c : Nat) : isChan (dieOf c) (localOf c) = true := by
  have hc : c % 64 < 64 := Nat.mod_lt _ (by decide)
  simp [isChan, dieOf, localOf, hc]

/-- The edge of a channel's unit goes out on the lane of its quad, and the unit holds the output decided. -/
theorem State.place_unit (s : State) (c t : Nat) (on : Bool) :
    ((s.place (dieOf c) (localOf c) t on false).unit (dieOf c) (localOf c)).on = on ∧
    ((s.place (dieOf c) (localOf c) t on false).unit (dieOf c) (localOf c)).rfr =
      (s.unit (dieOf c) (localOf c)).rfr := by
  simp [State.place, State.drivePins, isChan_local, State.emit]

/-- A leg is low when the output is as the swap. -/
theorem legFor_self (b : Bool) : legFor b b = .low := by
  cases b <;> rfl

theorem forcedRefresh_gives {s : State} {c : Nat} (hpop : s.chanPop c = true) (hdue : s.refreshDue c = true) :
    Gives (.forcedRefresh c) s fun t =>
      (t.unit (dieOf c) (localOf c)).rfr = true ∧ (t.chan c).slice.refresh = 0 ∧
      legFor (t.unit (dieOf c) (localOf c)).on (s.swapped (dieOf c) (localOf c)) = .low ∧
      t.rd 0x2812 1 c = (s.rd 0x2812 1 c + 1) % 2 ^ 32 := by
  refine .of_guard rfl ⟨hpop, hdue⟩ ?_
  extract_lets ch x y u z w
  have hswap : z.swapped (dieOf c) (localOf c) = s.swapped (dieOf c) (localOf c) := rfl
  have hrfr : (z.unit (dieOf c) (localOf c)).rfr = true := by simp [z]
  have hon : (z.unit (dieOf c) (localOf c)).on = u.on := by simp [z]
  have hw : (w.unit (dieOf c) (localOf c)).rfr = true ∧
      legFor (w.unit (dieOf c) (localOf c)).on (s.swapped (dieOf c) (localOf c)) = .low := by
    unfold w
    split
    case isTrue h => exact ⟨hrfr, by rwa [hon]⟩
    case isFalse =>
      obtain ⟨hplaced, hkept⟩ := z.place_unit c (s.refreshAt c) (z.swapped (dieOf c) (localOf c))
      exact ⟨hkept.trans hrfr, by rw [hplaced, hswap, legFor_self]⟩
  have hsame {k : Part} (hk : k ∉ [.reg 0x2833, .units, .adcs]) : State.Same k y w := by
    have hz : State.Same k y z := State.setUnit_same (notMem_of hk (by decide)) (.refl k y)
    unfold w
    split
    · exact hz
    · exact State.place_same (notMem_of hk (by decide)) hz
  obtain ⟨hwrfr, hlow⟩ := hw
  refine ⟨hwrfr, ?_, hlow, ?_⟩
  · rw [State.inc, State.chan_wr, State.chan_of_same (hsame (by decide))]
    simp [y]
  · rw [State.inc, State.rd_wr_self, hsame (k := .reg 0x2812) (by decide) 1 c]
    simp [y]

/-! ## Edge words (R53, R94, R95) -/

/-- An accepted word waits for its edge time, and the slice is no longer blocked. -/
theorem State.receiveWord_of_ok {s : State} {c : Nat} {w : Word} (hcheck : (s.chan c).check = none)
    (hok : edgeOk w = true) (hchan : edgeChan w = localOf c) (hleg : edgeLeg w ≠ 3)
    (hpb : (s.chan c).slice.blocked = true → edgePb w = true) :
    s.receiveWord c w = (s.laneTake c w).setChan c { s.chan c with slice := { (s.chan c).slice with
      blocked := false,
      words := (s.chan c).slice.words ++ [(edgeInstant (s.cnt (dieOf c)) w, legOf (edgeLeg w), edgePb w)] } } := by
  have hc : (s.laneTake c w).chan c = s.chan c := State.chan_of_same (State.laneTake_same (by decide) (.refl _ s)) c
  have hcnt : (s.laneTake c w).cnt (dieOf c) = s.cnt (dieOf c) :=
    State.cnt_of_same (State.laneTake_same (by decide) (.refl _ s)) (State.laneTake_same (by decide) (.refl _ s)) _
  have hopen : ¬ ((s.chan c).slice.blocked = true ∧ ¬ (edgeOk w = true ∧ edgePb w = true)) :=
    fun ⟨hb, hn⟩ => hn ⟨hok, hpb hb⟩
  simp only [State.receiveWord, hc, hcnt]
  rw [if_neg (by simp [hcheck]), if_neg hopen, if_neg (by simp [hok]), if_neg (by simp [hchan]), if_neg hleg]

theorem edgeWord_accepted_gives {s : State} {c : Nat} {w : Word} (hpop : s.chanPop c = true)
    (hturn : s.laneHas c w = true ∨ s.outOfTurn c w = false) (hcheck : (s.chan c).check = none) (hok : edgeOk w = true)
    (hchan : edgeChan w = localOf c) (hleg : edgeLeg w ≠ 3) (hpb : (s.chan c).slice.blocked = true → edgePb w = true) :
    Gives (.edgeWord c w) s fun t =>
      (t.chan c).slice.blocked = false ∧ (t.chan c).slice.words =
        (s.chan c).slice.words ++ [(edgeInstant (s.cnt (dieOf c)) w, legOf (edgeLeg w), edgePb w)] := by
  refine .of_guard rfl ⟨hpop, by simpa using hturn⟩ ?_
  rw [State.receiveWord_of_ok hcheck hok hchan hleg hpb, State.chan_setChan]
  exact ⟨rfl, rfl⟩

/-- A word whose check bits fail is refused with cause 2 (R53). -/
theorem State.receiveWord_of_bad {s : State} {c : Nat} {w : Word} (hcheck : (s.chan c).check = none)
    (hbad : edgeOk w = false) (hopen : (s.chan c).slice.blocked = false) :
    s.receiveWord c w = (s.laneTake c w).refuseWord c 2 := by
  have hc : (s.laneTake c w).chan c = s.chan c := State.chan_of_same (State.laneTake_same (by decide) (.refl _ s)) c
  simp only [State.receiveWord, hc]
  rw [if_neg (by simp [hcheck]), if_neg (by simp [hopen]), if_pos (by simp [hbad])]

/-- A refusal blocks the slice and turns its gates off at once, with the flag, the cause and the line time (R53). -/
theorem State.refuseWord_effect (s : State) (c cause : Nat) :
    ((s.refuseWord c cause).chan c).slice.blocked = true ∧ (s.refuseWord c cause).LowAt c ∧
    (s.refuseWord c cause).rd 0x2811 1 c = 1 ∧ (s.refuseWord c cause).rd 0x2811 3 c = cause ∧
    (s.refuseWord c cause).rd 0x2811 4 c = s.lt := by
  unfold State.refuseWord
  extract_lets y ch now hist sl z w corr v
  have hz : z.LowAt c ∧ (z.chan c).slice.blocked = true := by
    rw [State.LowAt, State.chan_setChan]
    exact ⟨s.sliceOff_low c, rfl⟩
  have hw : w.rd 0x2811 1 c = 1 ∧ w.rd 0x2811 3 c = cause ∧ w.rd 0x2811 4 c = s.lt := by
    simp [w, State.inc, State.rd_wr, z, y, State.sliceOff]
  have hzw : State.Same .chans z w :=
    State.wr_same (by decide) (State.wr_same (by decide) (State.inc_same (by decide) (State.wr_same (by decide)
      (.refl _ z))))
  have hwv {k : Part} (hk : k ∉ [.reg 0x6000, .dies, .trail]) : State.Same k w v :=
    State.raise_same (notMem_of hk (by decide)) (State.openCorr_same (notMem_of hk (by decide)) (.refl k w))
  generalize ht : (if hist.length = 3 ∧ now < hist.getLastD 0 + 320000 then v.latchChans [c] 1 0 corr else v) = t
  have hvt : SlicesFall v t ∧ State.Same (.reg 0x2811) v t := by
    rw [← ht]
    split
    · exact ⟨v.latchChans_falls .., State.latchChans_same (by decide) (.refl _ v)⟩
    · exact ⟨.refl v, .refl _ v⟩
  obtain ⟨hflag, hcause, hlt⟩ := hw
  have hfall : SlicesFall z t := (SlicesFall.of_same (hzw.trans (hwv (by decide)))).trans hvt.1
  have hregs : State.Same (.reg 0x2811) w t := (hwv (by decide)).trans hvt.2
  exact ⟨(hfall.slice c).blocked.trans hz.2, hz.1.falls hfall, (hregs 1 c).trans hflag, (hregs 3 c).trans hcause,
    (hregs 4 c).trans hlt⟩

theorem edgeWord_refused_gives {s : State} {c : Nat} {w : Word} (hpop : s.chanPop c = true)
    (hturn : s.laneHas c w = true ∨ s.outOfTurn c w = false) (hcheck : (s.chan c).check = none)
    (hbad : edgeOk w = false) (hopen : (s.chan c).slice.blocked = false) :
    Gives (.edgeWord c w) s fun t =>
      (t.chan c).slice.blocked = true ∧ (t.chan c).slice.hg = false ∧ (t.chan c).slice.lg = false ∧
      t.rd 0x2811 1 c = 1 ∧ t.rd 0x2811 3 c = 2 ∧ t.rd 0x2811 4 c = s.lt := by
  refine .of_guard rfl ⟨hpop, by simpa using hturn⟩ ?_
  have hclk : (s.laneTake c w).clock = s.clock := State.laneTake_same (k := .clock) (by decide) (.refl _ s)
  obtain ⟨hblocked, ⟨hhigh, hlow⟩, hflag, hcause, hlt⟩ := (s.laneTake c w).refuseWord_effect c 2
  rw [State.receiveWord_of_bad hcheck hbad hopen]
  exact ⟨hblocked, hhigh, hlow, hflag, hcause, hlt.trans (by rw [State.lt, State.lt, hclk])⟩

/-! ## Legs and the dead time (R49) -/

/-- A slice that takes a leg has it, and its words wait on. -/
theorem Slice.take_leg (x : Slice) (leg : Leg) (t dt m blank : Nat) :
    (x.take leg t dt m blank).leg = leg ∧ (x.take leg t dt m blank).words = x.words := by
  unfold Slice.take
  split
  case isTrue h => exact ⟨h.symm, rfl⟩
  case isFalse =>
    cases leg with
    | off => exact ⟨rfl, rfl⟩
    | low => by_cases h : x.hg = true <;> simp [h, Slice.gateOn]
    | high => by_cases h : x.lg = true <;> simp [h, Slice.gateOn, Slice.lowOff]

/-- A slice that is neither held low nor in a bootstrap hold takes the leg asked for (R45, R47). -/
theorem State.takeLeg_free {s : State} {c : Nat} (hlow : s.heldLow c = false) (hboot : s.rd 0x2812 2 c ≠ 1) (leg : Leg)
    (t : Nat) : ((s.takeLeg c leg t).chan c).slice.leg = leg ∧
      ((s.takeLeg c leg t).chan c).slice.words = (s.chan c).slice.words := by
  simp [State.takeLeg, hlow, hboot, Slice.take_leg]

/-- Of a channel, the hold low reads its contact check alone. -/
theorem State.heldLow_setChan (s : State) {c : Nat} {x : Chan} (hx : x.check = (s.chan c).check) :
    (s.setChan c x).heldLow c = s.heldLow c := by
  simp [State.heldLow, State.latched, hx]

theorem edgeTime_gives {s : State} {c x : Nat} {leg : Leg} {pb : Bool} {ws : List (Nat × Leg × Bool)}
    (hwords : (s.chan c).slice.words = (x, leg, pb) :: ws) (hx : x ≤ s.fine (dieOf c))
    (hrun : (s.die (dieOf c)).halted = false) (hlow : s.heldLow c = false) (hboot : s.rd 0x2812 2 c ≠ 1) :
    Gives (.edgeTime c) s fun t => (t.chan c).slice.words = ws ∧ (t.chan c).slice.leg = leg := by
  have hexec : exec (.edgeTime c) s = .next (if x ≤ s.fine (dieOf c) ∧ !(s.die (dieOf c)).halted then
      (s.setChan c { s.chan c with slice := { (s.chan c).slice with words := ws } }).takeLeg c leg x else s) := by
    change execEdgeTime c s = _
    simp only [execEdgeTime, hwords]
  refine .of_guard hexec ⟨hx, by simp [hrun]⟩ ?_
  have hheld (y : Chan) (hy : y.check = (s.chan c).check) : (s.setChan c y).heldLow c = false :=
    (s.heldLow_setChan hy).trans hlow
  obtain ⟨hleg, hrest⟩ := State.takeLeg_free (hheld { s.chan c with slice := { (s.chan c).slice with words := ws } } rfl)
    hboot leg x
  rw [State.chan_setChan] at hrest
  exact ⟨hrest, hleg⟩

theorem deadTimeTurnOn_gives {s : State} {c x : Nat} {hi : Bool} (hturn : (s.chan c).slice.turnOn = some (hi, x))
    (hx : x ≤ s.fine (dieOf c)) (hrun : (s.die (dieOf c)).halted = false) (hlow : s.heldLow c = false)
    (hboot : s.rd 0x2812 2 c ≠ 1) :
    Gives (.deadTimeTurnOn c) s fun t => (t.chan c).slice.turnOn = none ∧
      if hi then (t.chan c).slice.hg = true else (t.chan c).slice.lg = true := by
  have hexec : exec (.deadTimeTurnOn c) s = .next (if x ≤ s.fine (dieOf c) ∧ !(s.die (dieOf c)).halted then
      s.setChan c { s.chan c with slice := (s.chan c).slice.gateOn hi x (s.blankCounts c) } else s) := by
    change execDeadTimeTurnOn c s = _
    simp [execDeadTimeTurnOn, hturn, hlow, hboot]
  refine .of_guard hexec ⟨hx, by simp [hrun]⟩ ?_
  cases hi <;> simp [Slice.gateOn]

/-! ## Comparators (R56, R59) -/

theorem State.sawShunt_blanked (s : State) (c : Nat) (uv : Int) : (s.sawShunt c uv).blanked c = s.blanked c := by
  have hslice : ((s.sawShunt c uv).chan c).slice = (s.chan c).slice := by rw [State.sawShunt, State.chan_setChan]
  rw [State.blanked, State.blanked, hslice]
  rfl

theorem softComparatorTrip_gives {s : State} {c : Nat} {uv : Int} (hpop : s.chanPop c = true)
    (habove : s.rd 0x2810 1 c < uv.natAbs) (hopen : s.blanked c = false) :
    Gives (.softComparatorTrip c uv) s fun t => t.latched c = true ∧ bit (t.rdN 0x2810 4 c) 0 = true := by
  refine .of_guard rfl hpop ?_
  extract_lets y
  have hguard : y.rd 0x2810 1 c < uv.natAbs ∧ (!y.blanked c) = true := by
    refine ⟨habove, ?_⟩
    rw [State.sawShunt_blanked, hopen, Bool.not_false]
  rw [if_pos hguard]
  exact ⟨y.trip_latched c 1, y.trip_bit c 1 0 rfl⟩

theorem hardComparatorTrip_gives {s : State} {c : Nat} {uv : Int} (hpop : s.chanPop c = true)
    (habove : s.rd 0x2810 2 c < uv.natAbs) :
    Gives (.hardComparatorTrip c uv) s fun t => t.latched c = true ∧ bit (t.rdN 0x2810 4 c) 1 = true ∧
      (s.blanked c = true → bit (t.rdN 0x2810 4 c) 2 = true) := by
  refine .of_guard rfl hpop ?_
  extract_lets y
  have hguard : y.rd 0x2810 2 c < uv.natAbs := habove
  rw [if_pos hguard, State.sawShunt_blanked]
  cases hblank : s.blanked c
  case false => exact ⟨y.trip_latched c 2, y.trip_bit c 2 1 rfl, nofun⟩
  case true => exact ⟨y.trip_latched c 6, y.trip_bit c 6 1 rfl, fun _ => y.trip_bit c 6 2 rfl⟩

theorem blankingEnd_gives {s : State} {c : Nat} {uv : Int} (hpop : s.chanPop c = true)
    (hwindow : (s.chan c).slice.blankEnd ≠ 0) (hopen : s.blanked c = false) :
    Gives (.blankingEnd c uv) s fun t =>
      if s.rd 0x2810 1 c < uv.natAbs then t.latched c = true else (t.chan c).slice.blankEnd = 0 := by
  refine .of_guard rfl ⟨hpop, hwindow, by rw [hopen, Bool.not_false]⟩ ?_
  extract_lets y ch x z
  have hlimit : z.rd 0x2810 1 c = s.rd 0x2810 1 c := rfl
  rw [hlimit]
  split
  · exact z.trip_latched c 1
  · simp [z]

/-- Settles O24: each command's guard holds, so its effect is read off its operation, and the frame is that of the
command. -/
theorem driverSlices : Obligations.DriverSlices := by
  refine ⟨?undervoltage, ?release, ?hold, ?holdEnd, ?refresh, ?accepted, ?refused, ?edgeTime, ?turnOn, ?soft, ?hard,
    ?blanking⟩
  case undervoltage =>
    intro n mv s hpop hmv
    exact (vdrvUndervoltage_gives hpop hmv).framed fun k hk => execVdrvUndervoltage_same hk (.refl k s)
  case release =>
    intro n mv s hpop hmv
    exact (vdrvRelease_gives hpop hmv).framed fun k hk => execVdrvRelease_same hk (.refl k s)
  case hold =>
    intro c mv s hpop hmv
    exact (bootstrapHold_gives hpop hmv).framed fun k hk => execBootstrapHold_same hk (.refl k s)
  case holdEnd =>
    intro c mv s hpop hmv
    exact (bootstrapRelease_gives hpop hmv).framed fun k hk => execBootstrapRelease_same hk (.refl k s)
  case refresh =>
    intro c s hpop hdue
    exact (forcedRefresh_gives hpop hdue).framed fun k hk => execForcedRefresh_same hk (.refl k s)
  case accepted =>
    intro c w s hpop hturn hcheck hok hchan hleg hpb
    exact (edgeWord_accepted_gives hpop hturn hcheck hok hchan hleg hpb).framed fun k hk =>
      execEdgeWord_same hk (.refl k s)
  case refused =>
    intro c w s hpop hturn hcheck hbad hopen
    exact (edgeWord_refused_gives hpop hturn hcheck hbad hopen).framed fun k hk => execEdgeWord_same hk (.refl k s)
  case edgeTime =>
    intro c x leg pb ws s hwords hx hrun hlow hboot
    exact (edgeTime_gives hwords hx hrun hlow hboot).framed fun k hk => execEdgeTime_same hk (.refl k s)
  case turnOn =>
    intro c x hi s hturn hx hrun hlow hboot
    exact (deadTimeTurnOn_gives hturn hx hrun hlow hboot).framed fun k hk => execDeadTimeTurnOn_same hk (.refl k s)
  case soft =>
    intro c uv s hpop habove hopen
    exact (softComparatorTrip_gives hpop habove hopen).framed fun k hk => execSoftComparatorTrip_same hk (.refl k s)
  case hard =>
    intro c uv s hpop habove
    exact (hardComparatorTrip_gives hpop habove).framed fun k hk => execHardComparatorTrip_same hk (.refl k s)
  case blanking =>
    intro c uv s hpop hwindow hopen
    exact (blankingEnd_gives hpop hwindow hopen).framed fun k hk => execBlankingEnd_same hk (.refl k s)

end Sys2Proof.Machine
end

section
/-! The statement on the contact check, fault sources, FLT inputs and debug halts. -/

namespace Sys2Proof.Machine

/-! ## The contact check (R65, R66) -/

theorem State.gang_of_same {s t : State} (h : State.Same (.reg 0x2802) s t) (c : Nat) : t.gang c = s.gang c := by
  rw [State.gang, State.gang, State.rdN, State.rdN, h]

/-- A channel has a check for a gate queued. -/
def State.QueuedAt (g : Gate) (c : Nat) (s : State) : Prop := g ∈ (s.chan c).queued

/-- Every member of the gang has the check queued (R69). -/
theorem State.queueCheck_queued (s : State) (c : Nat) (g : Gate) {m : Nat} (hm : m ∈ s.gang c) :
    (s.queueCheck c g).QueuedAt g m := by
  have hset (y : State) (x : Nat) (_ : True) :
      (y.setChan x { y.chan x with queued := (y.chan x).queued ++ [g] }).QueuedAt g x := by
    simp [State.QueuedAt]
  have hkeep (y : State) (x b : Nat) (hb : y.QueuedAt g b) :
      (y.setChan x { y.chan x with queued := (y.chan x).queued ++ [g] }).QueuedAt g b := by
    by_cases h : b = x
    · exact h ▸ hset y x trivial
    · rwa [State.QueuedAt, State.chan_setChan_ne _ _ h]
  exact each_reaches (fun _ _ _ => trivial) hset hkeep trivial (.inl hm)

theorem checkNow_gives {s : State} {src : Src} {c v : Nat} (hacc : s.Accepts src 0x2820 2 [c] v checkNowCheck) :
    Gives (.checkNow src c v) s fun t => ∀ m ∈ s.gang c, .host ∈ (t.chan m).queued := by
  refine ⟨_, rfl, fun m hm => ?_⟩
  have hwoken : State.Same (.reg 0x2802) s (((s.atRequest src).touch c).wakeDie (dieOf c) 3) :=
    State.wakeDie_same (by decide) (State.touch_same (by decide) ((s.atRequest_sameButNet src).frame _ (by decide)))
  have hchans := (State.writeObj_ok (eff := checkNowSet) hacc).frame .chans (by decide)
  rw [State.chan_of_same hchans]
  exact State.queueCheck_queued _ c .host (by rwa [State.gang_of_same hwoken])

theorem contactCheckStart_gives {s : State} {c : Nat} {g : Gate} {gs : List Gate} (hpop : s.chanPop c = true)
    (hqueue : (s.chan c).queued = g :: gs) (hcheck : (s.chan c).check = none)
    (hfree : (s.adc (dieOf c) (quadOf c)).checking = none) (hdiag : (s.adc (dieOf c) (quadOf c)).diagUntil = none)
    (hoff : s.gatesAreOff c = true) (hfirst : s.checkFirst c g = false) :
    Gives (.contactCheckStart c) s fun t =>
      (t.chan c).check = some ⟨g, 0, s.lt, []⟩ ∧ (t.chan c).queued = gs ∧ (t.chan c).slice.words = [] ∧
      (t.chan c).slice.turnOn = none ∧ (t.adc (dieOf c) (quadOf c)).checking = some (localOf c) := by
  have hexec : exec (.contactCheckStart c) s = .next (if s.chanPop c ∧ (s.chan c).check.isNone ∧
      (s.adc (dieOf c) (quadOf c)).checking.isNone ∧ (s.adc (dieOf c) (quadOf c)).diagUntil.isNone ∧ s.gatesAreOff c ∧
      !s.checkFirst c g then
        (s.setChan c { s.chan c with check := some ⟨g, 0, s.lt, []⟩, queued := gs, slice := (s.chan c).slice.cut }).setAdc
          (dieOf c) (quadOf c) { s.adc (dieOf c) (quadOf c) with checking := some (localOf c) }
      else s) := by
    change execContactCheckStart c s = _
    simp only [execContactCheckStart, hqueue]
  refine .of_guard hexec ⟨hpop, by simp [hcheck], by simp [hfree], by simp [hdiag], hoff, by simp [hfirst]⟩ ?_
  simp [Slice.cut]

theorem contactCheckPhase_gives {s : State} {c x : Nat} (codes : List Nat) {k : Check}
    (hcheck : (s.chan c).check = some k) (hphase : checkTimes[k.phase]? = some x) (hx : k.start + x ≤ s.lt) :
    Gives (.contactCheckPhase c codes) s fun t =>
      (t.chan c).check = some { k with phase := k.phase + 1, v := k.v ++ [s.averageV c codes] } := by
  have hexec : exec (.contactCheckPhase c codes) s = .next (if k.start + x ≤ s.lt then
      s.setChan c { s.chan c with check := some { k with phase := k.phase + 1, v := k.v ++ [s.averageV c codes] } }
      else s) := by
    change execContactCheckPhase c codes s = _
    simp only [execContactCheckPhase, hcheck, hphase]
  refine .of_guard hexec hx ?_
  rw [State.chan_setChan]

/-- The readings of a check stand in the channel's registers (R66). -/
structure State.ShowsCheck (s : State) (c : Nat) (v : List Int) (lt : Nat) : Prop where
  v0 : s.rd 0x2820 4 c = v.getD 0 0
  v1 : s.rd 0x2820 5 c = v.getD 1 0
  v2 : s.rd 0x2820 6 c = v.getD 2 0
  v3 : s.rd 0x2820 7 c = v.getD 3 0
  time : s.rd 0x2820 0xA c = lt

theorem State.writeCheck_shows (s : State) (c cls : Nat) (v : List Int) :
    (s.writeCheck c cls v).ShowsCheck c v s.lt := by
  constructor <;> simp [State.writeCheck, State.rd_wr]

/-- The readings are not the class: a class written later leaves them. -/
theorem State.ShowsCheck.wr_class {s : State} {c : Nat} {v : List Int} {lt : Nat} (h : s.ShowsCheck c v lt) (m : Nat)
    (cls : Int) : (s.wr 0x2820 3 m cls).ShowsCheck c v lt := by
  obtain ⟨h0, h1, h2, h3, hlt⟩ := h
  constructor <;> simpa [State.rd_wr]

theorem State.ShowsCheck.of_same {s t : State} {c : Nat} {v : List Int} {lt : Nat} (h : s.ShowsCheck c v lt)
    (e : State.Same (.reg 0x2820) s t) : t.ShowsCheck c v lt := by
  obtain ⟨h0, h1, h2, h3, hlt⟩ := h
  exact ⟨(e 4 c).trans h0, (e 5 c).trans h1, (e 6 c).trans h2, (e 7 c).trans h3, (e 0xA c).trans hlt⟩

/-- At the result of a check its readings are shown, and its unit is free (R66). -/
theorem State.checkResult_effect (s : State) (c : Nat) (k : Check) :
    (s.checkResult c k).ShowsCheck c k.v s.lt ∧ ((s.checkResult c k).adc (dieOf c) (quadOf c)).checking = none := by
  unfold State.checkResult
  extract_lets ch a cls y z m w
  have hm : (m.adc (dieOf c) (quadOf c)).checking = none := by
    have hzm : State.Same .adcs z m := State.writeCheck_same (by decide) (.refl _ z)
    rw [State.adc_of_same hzm]
    simp [z]
  have hshows : m.ShowsCheck c k.v s.lt := z.writeCheck_shows c cls k.v
  have hgate (y : State) (x : Nat) {p : Part} (hp : p = .adcs ∨ p = .reg 0x2820) :
      State.Same p y (y.gateResult w x k.gate) := by
    obtain rfl | rfl := hp
    · exact State.gateResult_same (by decide) (.refl _ y)
    · exact State.gateResult_same (by decide) (.refl _ y)
  split
  · exact ⟨hshows, hm⟩
  · refine ⟨(hshows.wr_class w _).of_same (hgate _ _ (.inr rfl)), ?_⟩
    rw [State.adc_of_same (hgate _ _ (.inl rfl)), State.adc_wr, hm]

theorem contactCheckResult_gives {s : State} {c : Nat} {k : Check} (hcheck : (s.chan c).check = some k)
    (hphase : k.phase = 4) (hend : k.start + 900000 ≤ s.lt) :
    Gives (.contactCheckResult c) s fun t =>
      (t.adc (dieOf c) (quadOf c)).checking = none ∧ t.rd 0x2820 4 c = k.v.getD 0 0 ∧ t.rd 0x2820 5 c = k.v.getD 1 0 ∧
      t.rd 0x2820 6 c = k.v.getD 2 0 ∧ t.rd 0x2820 7 c = k.v.getD 3 0 ∧ t.rd 0x2820 0xA c = s.lt := by
  have hexec : exec (.contactCheckResult c) s =
      .next (if k.phase = 4 ∧ k.start + 900000 ≤ s.lt then s.checkResult c k else s) := by
    change execContactCheckResult c s = _
    simp only [execContactCheckResult, hcheck]
  obtain ⟨⟨h0, h1, h2, h3, hlt⟩, hadc⟩ := s.checkResult_effect c k
  exact .of_guard hexec ⟨hphase, hend⟩ ⟨hadc, h0, h1, h2, h3, hlt⟩

/-! ## Fault sources (R101, R103, R295) -/

/-- The crossing of a source reads the calibration, the thresholds and the state of the stages alone. -/
theorem State.source_of_rd {s t : State} (h : ∀ i ∉ [0x3105, 0x3106], ∀ j e, t.rd i j e = s.rd i j e) (n src u : Nat)
    (m : Int) : t.sourceBeyond n src u m = s.sourceBeyond n src u m ∧
      t.sourceInside n src u m = s.sourceInside n src u m := by
  have hmv : t.busMv n u m = s.busMv n u m := by
    simp [State.busMv, State.pathUv, h]
  constructor
  · unfold State.sourceBeyond
    simp only [hmv, h 0x3100 (by decide), h 0x3101 (by decide)]
  · unfold State.sourceInside
    simp only [hmv, h 0x3100 (by decide)]

theorem State.sawDie_source (s : State) (n src u v : Nat) (m x : Int) :
    (s.sawDie n src v x).sourceBeyond n src u m = s.sourceBeyond n src u m ∧
    (s.sawDie n src v x).sourceInside n src u m = s.sourceInside n src u m :=
  State.source_of_rd (fun i hi => State.sawDie_same (k := .reg i) (by simpa using hi) (.refl _ s)) n src u m

/-- A source that crosses is 0, 1 or 3 (R295). -/
theorem State.sourceBeyond_src {s : State} {n src u : Nat} {m : Int} (h : s.sourceBeyond n src u m = true) :
    src = 0 ∨ src = 1 ∨ src = 3 := by
  unfold State.sourceBeyond at h
  split at h <;> simp_all

/-- First subindices are as before, or 1, which is no row of a rest step: what a row of a channel says of resting is not
made true. -/
structure RowsStay (s t : State) : Prop where
  first : ∀ i e, t.rd i 1 e = s.rd i 1 e ∨ t.rd i 1 e = 1

theorem RowsStay.refl (s : State) : RowsStay s s := ⟨fun _ _ => .inl rfl⟩

theorem RowsStay.of_rd {a s t : State} (h : RowsStay a s) (e : ∀ i q, t.rd i 1 q = s.rd i 1 q) : RowsStay a t :=
  ⟨fun i q => e i q ▸ h.first i q⟩

theorem RowsStay.wr_one {a s : State} (h : RowsStay a s) (i j e : Nat) : RowsStay a (s.wr i j e 1) := by
  refine ⟨fun p r => ?_⟩
  rw [State.rd_wr]
  split
  · exact .inr rfl
  · exact h.first p r

theorem RowsStay.wr_sub {a s : State} (h : RowsStay a s) (i e : Nat) {j : Nat} (v : Int) (hj : j ≠ 1) :
    RowsStay a (s.wr i j e v) := by
  refine ⟨fun p r => ?_⟩
  rw [State.rd_wr_ne _ _ (by simp [Ne.symm hj])]
  exact h.first p r

theorem RowsStay.sawDie {a s : State} (h : RowsStay a s) (n src u : Nat) (m : Int) :
    RowsStay a (s.sawDie n src u m) := by
  unfold State.sawDie
  split
  · exact h.wr_sub _ _ _ (by decide)
  · exact h.wr_sub _ _ _ (by decide)

theorem RowsStay.wakeDie {a s : State} (h : RowsStay a s) (n cause : Nat) : RowsStay a (s.wakeDie n cause) := by
  unfold State.wakeDie
  split
  · extract_lets d y z
    have hz : RowsStay a z := by
      refine RowsStay.wr_sub (RowsStay.wr_one ?_ 0x1200 1 (siteI n)) 0x1210 (siteI n) _ (by decide)
      exact h.of_rd fun _ _ => rfl
    refine each_induct hz fun w i _ hw => ?_
    split
    · refine RowsStay.wr_one ?_ 0x3101 (1 + i) (siteI n)
      exact hw.of_rd fun _ _ => rfl
    · exact hw
  · exact h.of_rd fun _ _ => rfl

/-- A channel that switches still does: its run state and its row are as before, and the row does not rest. -/
theorem RowsStay.switching {s t : State} (h : RowsStay s t) (hgang : State.Same (.reg 0x2802) s t)
    (hrun : State.Same (.reg 0x2402) s t) {c : Nat} (hs : s.switching c = true) : t.switching c = true := by
  have hstate : t.runState c = s.runState c := by rw [State.runState, State.runState, State.rdN, State.rdN, hrun]
  have hmode : t.mode c = 6 → s.mode c = 6 := by
    have hrow : t.master c = s.master c ∧ t.curRow c = s.curRow c := by
      have hm : t.master c = s.master c := by rw [State.master, State.master, State.gang_of_same hgang]
      refine ⟨hm, ?_⟩
      rw [State.curRow, State.curRow, State.rdN, State.rdN, hrun, hm]
    obtain ⟨hm, hr⟩ := hrow
    simp only [State.mode, State.rowNow, State.row, State.rdN, hm, hr]
    obtain hv | hv := h.first (0x2000 + s.curRow c) (s.master c)
    · simp [hv]
    · simp [hv]
  simp only [State.switching, hstate, Bool.or_eq_true, Bool.and_eq_true, bne_iff_ne] at hs ⊢
  exact hs.imp_right fun ⟨h2, h6⟩ => ⟨h2, mt hmode h6⟩

/-- A source's mask reaches at least the channels that it reached. -/
theorem RowsStay.maskChans {s t : State} (h : RowsStay s t) (hgang : State.Same (.reg 0x2802) s t)
    (hrun : State.Same (.reg 0x2402) s t) (hmembers : State.Same (.reg 0x2804) s t) (hchans : State.Same .chans s t)
    {n mask c : Nat} (hc : c ∈ s.maskChans n mask) : c ∈ t.maskChans n mask := by
  have hcurrent (d : Nat) : t.gangCurrent d = s.gangCurrent d := by
    simp only [State.gangCurrent, State.gang_of_same hgang, State.chan_of_same hchans]
  have hmaster (d : Nat) : t.master d = s.master d := by rw [State.master, State.master, State.gang_of_same hgang]
  have hswitches (d : Nat) : s.switching (s.master d) = true → t.switching (t.master d) = true := by
    rw [hmaster d]
    exact h.switching hgang hrun
  have hG1 (d : Nat) (hd : s.inG1 d = true) : t.inG1 d = true := by
    rw [State.inG1, Bool.and_eq_true, hcurrent] at *
    exact hd.imp_left (hswitches d)
  have hG2 (d : Nat) (hd : s.inG2 d = true) : t.inG2 d = true := by
    rw [State.inG2, Bool.and_eq_true, hcurrent] at *
    exact hd.imp_left (hswitches d)
  have hset (g : Nat) : t.rdN 0x2804 (g - 4) (siteI n) = s.rdN 0x2804 (g - 4) (siteI n) := by
    rw [State.rdN, State.rdN, hmembers]
  have hgroup (g : Nat) (hg : c ∈ s.groupChans n g) : c ∈ t.groupChans n g := by
    unfold State.groupChans at hg
    split at hg
    case h_1 => exact hg
    case h_2 => exact List.mem_filter.2 ((List.mem_filter.1 hg).imp_right (hG1 c))
    case h_3 => exact List.mem_filter.2 ((List.mem_filter.1 hg).imp_right (hG2 c))
    case h_4 => rwa [← hset] at hg
    case h_5 => rwa [← hset] at hg
    case h_6 => rwa [← hset] at hg
    case h_7 => exact absurd hg List.not_mem_nil
  simp only [State.maskChans, List.mem_filter, List.any_eq_true, Bool.and_eq_true, List.contains_iff_mem] at *
  obtain ⟨hsite, g, hrange, hbit, hg⟩ := hc
  exact ⟨hsite, g, hrange, hbit, hgroup g hg⟩

/-- A source that asserts latches every channel that its mask reaches (R103). -/
theorem State.assertSource_latches (s : State) (n src corr : Nat) {c : Nat} (hsrc : src ≠ 8)
    (hc : c ∈ (s.wr 0x2803 9 (siteI n) (setBit (s.rdN 0x2803 9 (siteI n)) src)).maskChans n
      (s.rdN 0x2803 (src + 1) (siteI n))) : (s.assertSource n src corr).latched c = true := by
  have hmask : (s.wr 0x2803 9 (siteI n) (setBit (s.rdN 0x2803 9 (siteI n)) src)).rdN 0x2803 (src + 1) (siteI n) =
      s.rdN 0x2803 (src + 1) (siteI n) := by
    rw [State.rdN, State.rd_wr_ne _ _ (by simp [hsrc]), State.rdN]
  unfold State.assertSource State.actSource
  rw [hmask]
  refine each_induct (r := fun y => y.latched c = true) ?_ fun y i _ hy => (y.latchDab_keeps n i 5 src corr).latched c hy
  exact State.latchChans_latches _ 5 src corr (.inl hc)

theorem faultSourceAssert_gives {s : State} {n k u : Nat} {m1 m2 : Int} (hpop : s.sitePop n = true)
    (h1 : s.sourceBeyond n k u m1 = true) (h2 : s.sourceBeyond n k u m2 = true) :
    Gives (.faultSourceAssert n k u m1 m2) s fun t => bit (t.rdN 0x2803 9 (siteI n)) k = true ∧
      ∀ c ∈ s.maskChans n (s.rdN 0x2803 (k + 1) (siteI n)), t.latched c = true := by
  refine .of_guard rfl hpop ?_
  extract_lets y z
  have hguard : y.sourceBeyond n k u m1 = true ∧ y.sourceBeyond n k u m2 = true :=
    ⟨(s.sawDie_source n k u u m1 m2).1.trans h1, (s.sawDie_source n k u u m2 m2).1.trans h2⟩
  rw [if_pos hguard]
  have hsrc : k ≠ 8 := by
    have := State.sourceBeyond_src h1
    omega
  have hsame {p : Part} (hp : p ∉ [.reg 0x3105, .reg 0x3106, .reg 0x1200, .reg 0x1210, .reg 0x3101, .units, .dies, .trail]) :
      State.Same p s (z.openCorr n) :=
    State.openCorr_same (notMem_of hp (by decide)) (State.wakeDie_same (notMem_of hp (by decide))
      (State.sawDie_same (notMem_of hp (by decide)) (.refl p s)))
  refine ⟨State.assertSource_bit .., fun c hc => State.assertSource_latches _ n k _ hsrc ?_⟩
  have hmask : (z.openCorr n).rdN 0x2803 (k + 1) (siteI n) = s.rdN 0x2803 (k + 1) (siteI n) := by
    rw [State.rdN, State.rdN, hsame (p := .reg 0x2803) (by decide)]
  have hrows : RowsStay s (z.openCorr n) := (((RowsStay.refl s).sawDie n k u m2).wakeDie n 5).of_rd fun _ _ => rfl
  rw [hmask]
  refine (hrows.wr_sub 0x2803 (siteI n) _ (by decide)).maskChans ?_ ?_ ?_ ?_ hc
  · exact State.wr_same (by decide) (hsame (by decide))
  · exact State.wr_same (by decide) (hsame (by decide))
  · exact State.wr_same (by decide) (hsame (by decide))
  · exact State.wr_same (by decide) (hsame (by decide))

theorem faultSourceDeassert_gives {s : State} {n k : Nat} {a b : Int} (hpop : s.sitePop n = true)
    (ha : s.sourceInside n k 0 a = true) (hb : k = 3 ∨ s.sourceInside n k 8 b = true) :
    Gives (.faultSourceDeassert n k a b) s fun t => bit (t.rdN 0x2803 9 (siteI n)) k = false := by
  refine .of_guard rfl hpop ?_
  extract_lets y
  have hguard : y.sourceInside n k 0 a = true ∧ (k = 3 ∨ y.sourceInside n k 8 b = true) :=
    ⟨(s.sawDie_source n k 0 0 a a).2.trans ha, hb.imp_right (s.sawDie_source n k 8 0 b a).2.trans⟩
  rw [if_pos hguard]
  exact State.deassertSource_bit ..

/-! ## FLT inputs (R104) -/

/-- Every hub unit that was latched is latched. -/
structure UnitsStay (s t : State) : Prop where
  latched : ∀ u, (s.unit 0 u).latched = true → (t.unit 0 u).latched = true

theorem UnitsStay.refl (s : State) : UnitsStay s s := ⟨fun _ h => h⟩

theorem UnitsStay.same {a s t : State} (h : UnitsStay a s) (e : State.Same .units s t) : UnitsStay a t :=
  ⟨fun u hu => by rw [State.unit_of_same e]; exact h.latched u hu⟩

/-- A write of a hub unit that keeps its latch, or sets it. -/
theorem UnitsStay.setUnit {a s : State} (h : UnitsStay a s) {u : Nat} {x : GenUnit}
    (hx : (s.unit 0 u).latched = true → x.latched = true) : UnitsStay a (s.setUnit 0 u x) := by
  refine ⟨fun v hv => ?_⟩
  by_cases e : v = u
  · subst e
    rw [State.unit_setUnit]
    exact hx (h.latched v hv)
  · have hne : (s.setUnit 0 u x).unit 0 v = s.unit 0 v := look_put_ne _ _ _ (by omega)
    rw [hne]
    exact h.latched v hv

theorem GenUnit.askPin_latched (x : GenUnit) (old : List Bool) (t dt k : Nat) (level : Bool) :
    (x.askPin old t dt k level).latched = x.latched := by
  unfold GenUnit.askPin
  split
  · rfl
  · rfl

theorem GenUnit.ask_latched (x : GenUnit) (t dt k : Nat) (l : List Bool) : (x.ask t dt k l).latched = x.latched := by
  have hfold (p : List (Bool × Nat)) (y : GenUnit) :
      (p.foldl (fun y p => y.askPin x.want t dt p.2 p.1) y).latched = y.latched := by
    induction p generalizing y with
    | nil => rfl
    | cons q p ih => exact (ih _).trans (y.askPin_latched x.want t dt q.2 q.1)
  exact hfold _ x

theorem GenUnit.settle_latched (x : GenUnit) (now : Nat) : (x.settle now).latched = x.latched := by
  unfold GenUnit.settle
  extract_lets past y
  split
  · rfl
  · unfold GenUnit.interlock
    extract_lets both
    split
    · rfl
    · rfl

theorem UnitsStay.cutUnits {a s : State} (h : UnitsStay a s) (us : List Nat) : UnitsStay a (s.cutUnits us) :=
  each_induct h fun _ _ _ hy => hy.setUnit id

/-- New settings of a drive's pairs leave its latches (R308). -/
theorem UnitsStay.setGates {a s : State} (h : UnitsStay a s) (d : Nat) (g : List Nat) : UnitsStay a (s.setGates d g) := by
  unfold State.setGates
  split
  · exact h
  · refine each_induct h fun y x _ hy => ?_
    extract_lets u z w
    refine (hy.setUnit (x := w) id).setUnit ?_
    rw [GenUnit.settle_latched, GenUnit.ask_latched]
    exact id

theorem UnitsStay.latchDrive {a s : State} (h : UnitsStay a s) (d cause : Nat) : UnitsStay a (s.latchDrive d cause) := by
  unfold State.latchDrive
  split
  · exact h
  · extract_lets y z
    have hy : UnitsStay a y := by
      have hcut : UnitsStay a (s.driveCut d) := (h.setGates d [2, 2, 2]).cutUnits _
      exact hcut.same (State.wr_same (by decide) (State.enterDrive_same (by decide) (.refl _ _)))
    exact hy.same (State.note_same (by decide) (State.dropJobs_same (by decide) (State.setDrive_same (by decide)
      (.refl _ y))))

theorem UnitsStay.latchAxis {a s : State} (h : UnitsStay a s) (d cause : Nat) : UnitsStay a (s.latchAxis d cause) := by
  unfold State.latchAxis
  split
  · exact h
  · extract_lets y z
    have hy : UnitsStay a y := by
      have hcut : UnitsStay a (s.cutUnits (stepUnits d)) := h.cutUnits _
      exact hcut.same (State.wr_same (by decide) (State.axisBit_same (by decide) (State.wr_same (by decide)
        (State.wr_same (by decide) (State.setAxis_same (by decide) (.refl _ _))))))
    exact hy.same (State.note_same (by decide) (State.dropJobs_same (by decide) (State.dropJobs_same (by decide)
      (State.setAxis_same (by decide) (.refl _ y)))))

/-- A fault input latches every unit of the group, and leaves every other latch and the levels of the inputs (R104). -/
theorem State.fltGroup_effect (s : State) (g : Nat) : UnitsStay s (s.fltGroup g) ∧
    (∀ u ∈ s.groupUnits g, ((s.fltGroup g).unit 0 u).latched = true) ∧ (s.fltGroup g).power.flt = s.power.flt := by
  unfold State.fltGroup
  extract_lets us high p z w latched dropped drives axes q
  have hw : UnitsStay s w := (UnitsStay.refl s).same (State.openCorr_same (by decide) (State.setPower_same (by decide)
    (State.wr_same (by decide) (.refl _ s))))
  have hlatched : UnitsStay s latched := each_induct hw fun y u _ hy => hy.setUnit fun _ => rfl
  have hunits (u : Nat) (hu : u ∈ us) : (latched.unit 0 u).latched = true := by
    refine each_reaches (inv := fun _ => True) (p := fun u y => (y.unit 0 u).latched = true)
      (fun _ _ _ => trivial) (fun y u _ => ?_) (fun y u b hb => ?_) trivial (.inl hu)
    · rw [State.unit_setUnit]
    · exact ((UnitsStay.refl y).setUnit fun _ => rfl).latched b hb
  have hdropped {k : Part} (hk : k ∉ [.engines]) : State.Same k latched dropped :=
    when'_same (when'_same (.refl k latched) fun _ hy => State.dropJobs_same hk hy) fun _ hy => State.dropJobs_same hk hy
  have haxes : UnitsStay latched axes := by
    have hdrives : UnitsStay latched drives :=
      each_induct ((UnitsStay.refl latched).same (hdropped (by decide))) fun y d _ hy => hy.latchDrive d 8
    exact each_induct hdrives fun y d _ hy => hy.latchAxis d 8
  have hpower : State.Same .power w axes := by
    have hcut : State.Same .power w latched := each_same (.refl _ w) fun _ _ hy => State.setUnit_same (by decide) hy
    have hdrives : State.Same .power dropped drives :=
      each_same (.refl _ dropped) fun _ _ hy => State.latchDrive_same (by decide) hy
    have hlast : State.Same .power drives axes :=
      each_same (.refl _ drives) fun _ _ hy => State.latchAxis_same (by decide) hy
    exact ((hcut.trans (hdropped (by decide))).trans hdrives).trans hlast
  have hflt : axes.power.flt = w.power.flt := congrArg Power.flt hpower
  have hstay : UnitsStay latched (if us.any (· < 6) then axes.setPower { axes.power with afeOn := false } else axes) := by
    split
    · exact haxes.same (State.setPower_same (by decide) (.refl _ axes))
    · exact haxes
  refine ⟨?_, fun u hu => hstay.latched u (hunits u hu), ?_⟩
  · exact ⟨fun u hu => hstay.latched u (hlatched.latched u hu)⟩
  · split
    · exact hflt
    · exact hflt

theorem State.groupUnits_of_same {s t : State} (h : State.Same (.reg 0x3011) s t) (g : Nat) :
    t.groupUnits g = s.groupUnits g := by
  refine List.filter_congr fun u _ => ?_
  rw [State.rdN, h, ← State.rdN]

/-- After the fault input has acted on a list of groups, every unit of each of them is latched. -/
theorem each_fltGroup_latches {l : List Nat} {s : State} {g : Nat} (hg : g ∈ l) :
    ∀ u ∈ s.groupUnits g, ((each l State.fltGroup s).unit 0 u).latched = true := by
  refine each_reaches (inv := State.Same (.reg 0x3011) s)
    (p := fun g y => ∀ u ∈ s.groupUnits g, (y.unit 0 u).latched = true) (fun y g hy => ?_) (fun y g hy u hu => ?_)
    (fun y g b hb u hu => ?_) (.refl _ s) (.inl hg)
  · exact State.fltGroup_same (by decide) hy
  · exact (y.fltGroup_effect g).2.1 u (by rwa [State.groupUnits_of_same hy])
  · exact (y.fltGroup_effect g).1.latched u (hb u hu)

theorem each_fltGroup_flt (l : List Nat) (s : State) : (each l State.fltGroup s).power.flt = s.power.flt :=
  each_keep (fun y => y.power.flt) l State.fltGroup (fun y g => (y.fltGroup_effect g).2.2) s

theorem fltInput_gives {s : State} {k counts : Nat} (level : Bool) (hsys : s.vsys = true) (hk : k < 8)
    (hcounts : 2 ≤ counts) :
    Gives (.fltInput k level counts) s fun t => bit t.power.flt k = level ∧
      (level = true → ∀ g, g < 8 → bit (s.rdN 0x3010 (k + 1) dev) g = true →
        ∀ u ∈ s.groupUnits g, (t.unit 0 u).latched = true) := by
  refine .of_guard rfl ⟨hsys, hk, hcounts⟩ ?_
  extract_lets f p y
  cases level
  case false => exact ⟨bit_clearBit_self _ _, nofun⟩
  case true =>
    rw [if_pos rfl]
    refine ⟨?_, fun _ g hg hbit u hu => ?_⟩
    · rw [each_fltGroup_flt]
      exact bit_setBit_self _ _
    · have hgroup : g ∈ (List.range 8).filter fun g => bit (y.rdN 0x3010 (k + 1) dev) g :=
        List.mem_filter.2 ⟨List.mem_range.2 hg, hbit⟩
      exact each_fltGroup_latches hgroup u hu

/-! ## Debug halts (R105, R388) -/

theorem debugHalt_gives {s : State} {die : Nat} (hopen : s.sealedPart = false) (hdebug : s.sec.debug = true)
    (hpop : s.diePop die = true) (hrun : ∀ d, d < 7 → (s.die d).halted = false) :
    Gives (.debugHalt die) s fun t => (t.die die).halted = true ∧ (t.die die).haltAt = s.cnt die := by
  have hnone : (List.range 7).any (fun d => (s.die d).halted) = false := by
    simpa using hrun
  refine .of_guard rfl ⟨by rw [hopen, Bool.not_false], hdebug, hpop, by rw [hnone, Bool.not_false]⟩ ?_
  simp

theorem debugResume_gives {s : State} {die : Nat} (hpop : s.diePop die = true) (hhalted : (s.die die).halted = true) :
    Gives (.debugResume die) s fun t =>
      (t.die die).halted = false ∧ (t.die die).hbHub = s.clock.cnt ∧ (t.die die).hbDie = s.clock.cnt := by
  refine .of_guard rfl ⟨hpop, hhalted⟩ ?_
  extract_lets len y z w
  have hw : State.Same .dies y w := by
    have hz : State.Same .dies y z :=
      State.retimeLanes_same (by decide) (State.mapSlices_same (by decide) (.refl _ y))
    unfold w
    split
    · exact State.lowAtResume_same (by decide) hz
    · exact hz
  rw [State.die_of_same (each_same hw fun _ _ h => State.setUnit_same (by decide) h)]
  simp [y]

/-- Settles O25: each command's guard holds, so its effect is read off its operation, and the frame is that of the
command. -/
theorem contactCheckAndFaultSources : Obligations.ContactCheckAndFaultSources := by
  refine ⟨?now, ?start, ?phase, ?result, ?assert, ?deassert, ?flt, ?halt, ?resume⟩
  case now =>
    intro src c v s hacc
    exact (checkNow_gives hacc).framed fun k hk => execCheckNow_same hk (.refl k s)
  case start =>
    intro c g gs s hpop hqueue hcheck hfree hdiag hoff hfirst
    exact (contactCheckStart_gives hpop hqueue hcheck hfree hdiag hoff hfirst).framed fun k hk =>
      execContactCheckStart_same hk (.refl k s)
  case phase =>
    intro c x codes k s hcheck hphase hx
    exact (contactCheckPhase_gives codes hcheck hphase hx).framed fun k hk => execContactCheckPhase_same hk (.refl k s)
  case result =>
    intro c k s hcheck hphase hend
    exact (contactCheckResult_gives hcheck hphase hend).framed fun k hk => execContactCheckResult_same hk (.refl k s)
  case assert =>
    intro n k u m1 m2 s hpop h1 h2
    exact (faultSourceAssert_gives hpop h1 h2).framed fun k hk => execFaultSourceAssert_same hk (.refl k s)
  case deassert =>
    intro n k a b s hpop ha hb
    exact (faultSourceDeassert_gives hpop ha hb).framed fun k hk => execFaultSourceDeassert_same hk (.refl k s)
  case flt =>
    intro k counts level s hsys hk hcounts
    exact (fltInput_gives level hsys hk hcounts).framed fun k hk => execFltInput_same hk (.refl k s)
  case halt =>
    intro die s hopen hdebug hpop hrun
    exact (debugHalt_gives hopen hdebug hpop hrun).framed fun k hk => execDebugHalt_same hk (.refl k s)
  case resume =>
    intro die s hpop hhalted
    exact (debugResume_gives hpop hhalted).framed fun k hk => execDebugResume_same hk (.refl k s)

end Sys2Proof.Machine
end

section
/-! The statement on timed outputs, which fails: a fault source that stands on a die stops a DAB stage at the very
boundary at which the stage starts (R101, R103). -/

namespace Sys2Proof.Machine

/-! ## A source that stands stops a stage -/

/-- A stage that latches is cut from its boundaries (R103). -/
theorem State.latchDab_stops {s : State} {n i : Nat} (hfree : ((s.die n).dab i).latched = false) (cause arg corr : Nat) :
    ((s.latchDab n i cause arg corr).unit n (64 + i)).running = false := by
  unfold State.latchDab
  extract_lets d x latched cut recorded raised
  rw [if_neg (by simp [x, d, hfree])]
  have hlast : State.Same .units raised ((raised.dropJobs n (64 + i)).raiseFrame n .toHub 0x23 (64 + i) corr) :=
    State.raiseFrame_same (by decide) (State.dropJobs_same (by decide) (.refl _ raised))
  have hcut : cut.unit n (64 + i) = (latched.unit n (64 + i)).cut := State.unit_setUnit ..
  rw [State.unit_of_same hlast]
  simp [raised, recorded, hcut, GenUnit.cut]

/-- Source 0 alone stands on a die, and its mask connects it to stage 0 alone. -/
structure State.SourceOnStage (s : State) (n : Nat) : Prop where
  stands : s.rdN 0x2803 9 (siteI n) = 1
  mask : s.rdN 0x2803 1 (siteI n) = 8

theorem State.SourceOnStage.of_same {s t : State} {n : Nat} (h : s.SourceOnStage n) (e : State.Same (.reg 0x2803) s t) :
    t.SourceOnStage n := by
  obtain ⟨hstands, hmask⟩ := h
  rw [State.rdN, ← e] at hstands hmask
  exact ⟨hstands, hmask⟩

/-- A mask of group 3 alone reaches no channel. -/
theorem State.maskChans_of_stage (s : State) (n : Nat) : s.maskChans n 8 = [] := by
  have hgroup (c g : Nat) (hg : g ∈ List.range 8) : (bit 8 g && (s.groupChans n g).contains c) = false := by
    obtain rfl | hne := eq_or_ne g 3
    · rfl
    · have hbit : ∀ g ∈ List.range 8, g ≠ 3 → bit 8 g = false := by decide
      rw [hbit g hg hne, Bool.false_and]
  refine List.filter_eq_nil_iff.2 fun c _ => ?_
  rw [List.any_eq_true]
  rintro ⟨g, hg, hreach⟩
  rw [hgroup c g hg] at hreach
  exact Bool.false_ne_true hreach

/-- A source that stands on a stage alone latches the stage (R101). -/
theorem State.SourceOnStage.standingSources {s : State} {n : Nat} (h : s.SourceOnStage n)
    (hfree : ((s.die n).dab 0).latched = false) :
    s.standingSources n = (s.openCorr n).latchDab n 0 5 0 (s.corrId n) := by
  have hsources : (List.range 8).filter (bit 1) = [0] := by decide
  have hstages : maskDabs 8 = [0] := by decide
  simp [State.standingSources, h.stands, h.mask, hsources, hstages, State.maskChans_of_stage, hfree, State.latchChans]

/-- A stage that starts under such a source is stopped at its first boundary. -/
theorem State.SourceOnStage.startBoundary_stops {s : State} {n : Nat} (h : s.SourceOnStage n) (hn : n ≠ 0)
    (hfree : ((s.die n).dab 0).latched = false) (b : Nat) :
    ((s.startBoundary n 64 b).unit n 64).running = false := by
  unfold State.startBoundary
  extract_lets decided x started begun
  have hsame {k : Part} (hk : k ∉ [.reg 0x2833, .units, .adcs]) : State.Same k s begun := by
    have hdecided : State.Same k s decided := State.decideUpTo_same (notMem_of hk (by decide)) (.refl k s)
    have hstarted : State.Same k s started := State.setUnit_same (notMem_of hk (by decide)) hdecided
    exact State.beginPeriod_same (notMem_of hk (by decide)) hstarted
  have hbegun : ((begun.die n).dab 0).latched = false := by rwa [State.die_of_same (hsame (by decide))]
  rw [if_neg hn, (h.of_same (hsame (by decide))).standingSources hbegun]
  have hopen : (((begun.openCorr n).die n).dab 0).latched = false := by rwa [State.die_openCorr]
  exact State.latchDab_stops hopen 5 0 _

/-- A due first boundary of a stopped unit is carried out as such (R79). -/
theorem periodBoundary_starts {s : State} {die u b : Nat} {set : PSet} (hpop : s.unitPop die u = true)
    (hclock : (s.die die).halted = false) (hstopped : (s.unit die u).running = false)
    (hfirst : (s.unit die u).firstB (s.phi die u) = some (b, set)) (hdue : b ≤ s.cnt die)
    (hfree : s.unitLatched die u = false) :
    exec (.periodBoundary die u) s = .next (s.startBoundary die u b) := by
  change execPeriodBoundary die u s = _
  simp [execPeriodBoundary, hpop, hclock, hstopped, hfirst, hdue, hfree]

/-! ## The counterexample -/

/-- On die 1, source 0 stands on stage 0, whose start from count 0 is pending while 6400 counts have passed. -/
def startUnderSource : State :=
  (((State.reset.wr 0x2803 9 (siteI 1) 1).wr 0x2803 1 (siteI 1) 8).setClock
    { State.reset.clock with tb := 204800 }).setUnit 1 64
      { State.reset.unit 1 64 with startAt := some 0, committed := true }

theorem startUnderSource_due : startUnderSource.unitPop 1 64 = true ∧ (startUnderSource.die 1).halted = false ∧
    (startUnderSource.unit 1 64).running = false ∧
    (startUnderSource.unit 1 64).firstB (startUnderSource.phi 1 64) = some (3200, ⟨3200, 0, 0, 0⟩) ∧
    3200 ≤ startUnderSource.cnt 1 ∧ startUnderSource.unitLatched 1 64 = false := by
  decide

theorem startUnderSource_source : startUnderSource.SourceOnStage 1 :=
  ⟨by decide, by decide⟩

/-- Refutes O26: its first clause has every due start leave the unit running, yet a source that stands on the die
latches a stage that starts (R101, R103), and the stage is stopped again by the end of the same command. -/
theorem not_timedOutputs : ¬ Obligations.TimedOutputs := by
  rintro ⟨hclause, -⟩
  obtain ⟨hpop, hclock, hstopped, hfirst, hdue, hfree⟩ := startUnderSource_due
  have hexec := periodBoundary_starts hpop hclock hstopped hfirst hdue hfree
  have hgives := hclause 1 64 3200 _ startUnderSource hpop hclock hstopped hfirst hdue hfree
  obtain ⟨⟨hruns, -⟩, -⟩ := hgives.of_exec hexec
  have hstops := startUnderSource_source.startBoundary_stops (by decide) (by decide) 3200
  exact Bool.false_ne_true (hstops.symm.trans hruns)

end Sys2Proof.Machine
end

section
/-! SUPPORT. What a micro-op does, once for all of them: the opcode of its word, the engine that it works on, and how
the registers, words and accumulators read after it. -/

namespace Sys2Proof.Machine

/-! ## The opcode of a micro-op (R115, R116) -/

/-- The opcode of a micro-op command; 32, which no word holds, for a command that is none. -/
def opcodeOf : Instr → Nat
  | .nop .. => 0x00
  | .lds .. => 0x01
  | .ldp .. => 0x02
  | .ldw .. => 0x03
  | .stw .. => 0x04
  | .ldi .. => 0x05
  | .ldh .. => 0x06
  | .mov .. => 0x07
  | .add .. => 0x08
  | .sub .. => 0x09
  | .mul .. => 0x0A
  | .mac .. => 0x0B
  | .acc .. => 0x0C
  | .sta .. => 0x0D
  | .min .. => 0x0E
  | .max .. => 0x0F
  | .lim .. => 0x10
  | .shf .. => 0x11
  | .flt .. => 0x12
  | .bqd .. => 0x13
  | .pi .. => 0x14
  | .div .. => 0x15
  | .crv .. => 0x16
  | .cmp .. => 0x17
  | .br .. => 0x18
  | .trm .. => 0x19
  | .edg .. => 0x1A
  | .cmt .. => 0x1B
  | .lat .. => 0x1C
  | .pub .. => 0x1D
  | .ldg .. => 0x1E
  | .yld .. => 0x1F
  | _ => 0x20

theorem opOf_lt (w : Word) : opOf w < 32 := by
  have hw : w.toNat < 2 ^ 32 := w.isLt
  unfold opOf
  omega

/-- The micro-op that a word spells has the word's opcode. -/
theorem opcodeOf_microOf (die e : Nat) (w : Word) : opcodeOf (microOf die e w) = opOf w := by
  have hw := opOf_lt w
  unfold microOf
  split
  case h_32 =>
    change 0x1F = opOf w
    simp only [imp_false] at *
    omega
  all_goals
    rename_i hop
    exact hop.symm

/-! ## The engine that a micro-op works on -/

/-- The engine as a micro-op finds it: its cycles are counted, and the next word is due (R116). -/
def Engine.counted (x : Engine) (op : Nat) : Engine := { x with cycles := x.cycles + opCycles op, pc := x.pc + 1 }

/-- A micro-op whose cycles stay within W works on the engine with its cycles counted. -/
theorem State.Computes.micro {s : State} {die e : Nat} {i : Instr} {j : RunJob} {w : Word} (h : s.Computes die e i j w)
    (f : State → Engine → RunJob → State) :
    s.micro die e i f = f s ((s.eng die e).counted (opcodeOf i)) j := by
  obtain ⟨hhere, hspells, hwithin⟩ := h
  subst hspells
  rw [State.micro, hhere, opcodeOf_microOf]
  simp [Nat.not_lt.2 hwithin, Engine.counted]

/-- The command of a micro-op that computes works on the engine with its cycles counted. -/
theorem State.Computes.exec_eq {s : State} {die e : Nat} {i : Instr} {j : RunJob} {w : Word}
    {f : State → Engine → RunJob → State} (h : s.Computes die e i j w)
    (hexec : exec i s = .next (s.micro die e i f)) :
    exec i s = .next (f s ((s.eng die e).counted (opcodeOf i)) j) := by
  rw [hexec, h.micro]

/-- A micro-op that passes W counts its cycles and carries nothing out (R124). -/
theorem State.micro_beyond {s : State} {die e : Nat} {j : RunJob} {w : Word} (hhere : s.fetched die e = some (j, w))
    (hbeyond : (s.desc die j.desc).w < (s.eng die e).cycles + opCycles (opOf w))
    (f : State → Engine → RunJob → State) :
    s.micro die e (microOf die e w) f =
      s.setEng die e { s.eng die e with cycles := (s.eng die e).cycles + opCycles (opOf w) } := by
  rw [State.micro, hhere]
  simp [hbeyond]

/-- The command of a micro-op is `State.micro` with what it does. -/
theorem exec_microOf (die e : Nat) (w : Word) (s : State) :
    ∃ f, exec (microOf die e w) s = .next (s.micro die e (microOf die e w) f) := by
  unfold microOf
  split
  all_goals exact ⟨_, rfl⟩

/-! ## The engine alone changes -/

/-- A command that sets one engine leaves every other. -/
theorem State.setEng_onlyEngine (s : State) (die e : Nat) (x : Engine) : OnlyEngine die e s (s.setEng die e x) := by
  intro d y h
  exact look_put_ne {} s.engines x h

theorem OnlyEngine.of_same {die e : Nat} {s t u : State} (h : OnlyEngine die e s t) (hsame : State.Same .engines t u) :
    OnlyEngine die e s u := by
  intro d x hne
  rw [State.eng, show u.engines = t.engines from hsame]
  exact h d x hne

theorem State.eng_of_same {s t : State} (h : State.Same .engines s t) (die e : Nat) : t.eng die e = s.eng die e := by
  rw [State.eng, State.eng, show t.engines = s.engines from h]

theorem Gives.imp {i : Instr} {s : State} {p q : State → Prop} (h : Gives i s p) (hpq : ∀ t, p t → q t) :
    Gives i s q := by
  obtain ⟨t, ht, hp⟩ := h
  exact ⟨t, ht, hpq t hp⟩

/-- What holds of the engine that a command sets. -/
theorem Gives.of_setEng {i : Instr} {s : State} {die e : Nat} {y : Engine} {p : State → Prop}
    (hexec : exec i s = .next (s.setEng die e y))
    (hp : ∀ t, t.eng die e = y → OnlyEngine die e s t → p t) : Gives i s p :=
  ⟨_, hexec, hp _ (State.eng_setEng ..) (s.setEng_onlyEngine die e y)⟩

/-! ## Registers, words, accumulators -/

@[simp] theorem Engine.reg_setReg_self (x : Engine) (d : Nat) (v : Int) : (x.setReg d v).reg d = v :=
  look_put_self 0 x.w d v

theorem Engine.onlyReg_of_put {x y : Engine} {d : Nat} {v : Int} (h : y.w = put x.w d v) : x.OnlyReg d y := by
  intro r hr
  rw [Engine.reg, h]
  exact look_put_ne 0 x.w v hr

theorem Engine.onlyWords_of_put {x y : Engine} {k : Nat} {v : Int} (h : y.words = put x.words k v) :
    x.OnlyWords [k] y := by
  intro u hu
  rw [Engine.word, h]
  exact look_put_ne 0 x.words v (by simpa using hu)

theorem Engine.OnlyWords.refl {l : List Nat} {x y : Engine} (h : y.words = x.words) : x.OnlyWords l y := by
  intro u _
  rw [Engine.word, h, Engine.word]

theorem Engine.OnlyWords.trans {k l : List Nat} {x y z : Engine} (h : x.OnlyWords k y) (g : y.OnlyWords l z) :
    x.OnlyWords (k ++ l) z := by
  intro u hu
  rw [List.mem_append, not_or] at hu
  obtain ⟨hk, hl⟩ := hu
  rw [g u hl, h u hk]

@[simp] theorem Engine.word_keepWord_self (x : Engine) (k : Nat) (v : Int) : (x.keepWord k v).word k = sat32 v :=
  look_put_self 0 x.words k (sat32 v)

theorem Engine.word_keepWord_ne (x : Engine) {k u : Nat} (v : Int) (h : u ≠ k) : (x.keepWord k v).word u = x.word u :=
  look_put_ne 0 x.words (sat32 v) h

theorem Engine.keepWord_onlyWords (x : Engine) (k : Nat) (v : Int) : x.OnlyWords [k] (x.keepWord k v) :=
  Engine.onlyWords_of_put rfl

@[simp] theorem Engine.acc_setAcc (x : Engine) (k : Nat) (v : Int) : (x.setAcc k v).acc k = satAcc v := by
  unfold Engine.setAcc Engine.acc
  split
  · rfl
  · rfl

end Sys2Proof.Machine
end

section
/-! The statements on the micro-operations that load, compute and filter. -/

namespace Sys2Proof.Machine

/-! ## Micro-ops that write one register or one accumulator -/

/-- A micro-op that writes a register changes that register alone, beside the count of its cycles. -/
theorem gives_setReg {i : Instr} {s : State} {die e op d : Nat} {v : Int}
    (hexec : exec i s = .next (s.setEng die e (((s.eng die e).counted op).setReg d v))) :
    Gives i s fun t =>
      ((t.eng die e).reg d = v ∧ (t.eng die e).pc = (s.eng die e).pc + 1 ∧
        (t.eng die e).cycles = (s.eng die e).cycles + opCycles op) ∧
      OnlyEngine die e s t ∧ (s.eng die e).OnlyReg d (t.eng die e) ∧
      t.eng die e = { s.eng die e with
        w := (t.eng die e).w, pc := (t.eng die e).pc, cycles := (t.eng die e).cycles } := by
  refine .of_setEng hexec fun t hy honly => ?_
  rw [hy]
  exact ⟨⟨Engine.reg_setReg_self .., rfl, rfl⟩, honly, Engine.onlyReg_of_put rfl, rfl⟩

/-- The same with the flags that the result sets (R117). -/
theorem gives_setRegFlags {i : Instr} {s : State} {die e op d : Nat} {v : Int} {fl : Flags}
    (hexec : exec i s = .next (s.setEng die e { (((s.eng die e).counted op).setReg d v) with flags := fl })) :
    Gives i s fun t =>
      ((t.eng die e).reg d = v ∧ (t.eng die e).flags = fl ∧ (t.eng die e).pc = (s.eng die e).pc + 1 ∧
        (t.eng die e).cycles = (s.eng die e).cycles + opCycles op) ∧
      OnlyEngine die e s t ∧ (s.eng die e).OnlyReg d (t.eng die e) ∧
      t.eng die e = { s.eng die e with
        w := (t.eng die e).w, flags := (t.eng die e).flags, pc := (t.eng die e).pc,
        cycles := (t.eng die e).cycles } := by
  refine .of_setEng hexec fun t hy honly => ?_
  rw [hy]
  exact ⟨⟨Engine.reg_setReg_self .., rfl, rfl, rfl⟩, honly, Engine.onlyReg_of_put rfl, rfl⟩

/-- What an accumulator's write changes of an engine. -/
theorem Engine.setAcc_changes (x : Engine) (k : Nat) (v : Int) :
    x.OnlyAcc k (x.setAcc k v) ∧
      x.setAcc k v = { x with
        acc0 := (x.setAcc k v).acc0, acc1 := (x.setAcc k v).acc1, flags := x.flags.sat v (satAcc v) } := by
  unfold Engine.OnlyAcc Engine.setAcc
  split
  case isTrue hk => exact ⟨⟨fun _ => rfl, fun hne => absurd hk hne⟩, rfl⟩
  case isFalse hk => exact ⟨⟨fun h => absurd h hk, fun _ => rfl⟩, rfl⟩

/-- A micro-op that writes an accumulator leaves the other. -/
theorem gives_setAcc {i : Instr} {s : State} {die e op k : Nat} {v : Int}
    (hexec : exec i s = .next (s.setEng die e (((s.eng die e).counted op).setAcc k v))) :
    Gives i s fun t =>
      ((t.eng die e).acc k = satAcc v ∧ (t.eng die e).flags = (s.eng die e).flags.sat v (satAcc v) ∧
        (t.eng die e).pc = (s.eng die e).pc + 1 ∧ (t.eng die e).cycles = (s.eng die e).cycles + opCycles op) ∧
      OnlyEngine die e s t ∧ (s.eng die e).OnlyAcc k (t.eng die e) ∧
      t.eng die e = { s.eng die e with
        acc0 := (t.eng die e).acc0, acc1 := (t.eng die e).acc1, flags := (t.eng die e).flags,
        pc := (t.eng die e).pc, cycles := (t.eng die e).cycles } := by
  refine .of_setEng hexec fun t hy honly => ?_
  obtain ⟨hother, hrest⟩ := ((s.eng die e).counted op).setAcc_changes k v
  rw [hy]
  refine ⟨⟨Engine.acc_setAcc .., ?_, ?_, ?_⟩, honly, hother, ?_⟩
  all_goals
    rw [hrest]
    rfl

/-! ## Samples and step rows (R112, R116) -/

theorem OnlySlot.refl (die k : Nat) (s : State) : OnlySlot die k s s := fun _ _ _ => rfl

theorem State.setSlot_onlySlot (s : State) (die k : Nat) (x : Slot) : OnlySlot die k s (s.setSlot die k x) := by
  intro d y h
  exact look_put_ne {} s.slots x h

/-- A stale sample sets ST and is counted at its slot. -/
theorem lds_gives {s : State} {die e d tag : Nat} {j : RunJob} {op : Word}
    (h : s.Computes die e (.lds die e d tag) j op) :
    Gives (.lds die e d tag) s fun t =>
      ((t.eng die e).reg d = wrap32 ((s.slot die j.slot).sample tag).value ∧
        (((s.slot die j.slot).sample tag).fresh = false → (t.eng die e).flags.st = true ∧
          (t.slot die j.slot).staleReads = (s.slot die j.slot).staleReads + 1) ∧
        (t.eng die e).pc = (s.eng die e).pc + 1 ∧ (t.eng die e).cycles = (s.eng die e).cycles + opCycles 0x01) ∧
      OnlyEngine die e s t ∧ OnlySlot die j.slot s t ∧ (s.eng die e).OnlyReg d (t.eng die e) ∧
      t.eng die e = { s.eng die e with
        w := (t.eng die e).w, flags := (t.eng die e).flags, pc := (t.eng die e).pc,
        cycles := (t.eng die e).cycles } := by
  refine ⟨_, h.exec_eq rfl, ?_⟩
  dsimp only
  cases hfresh : ((s.slot die j.slot).sample tag).fresh
  case false =>
    have hslot := s.setSlot_onlySlot die j.slot
      { s.slot die j.slot with staleReads := (s.slot die j.slot).staleReads + 1 }
    rw [State.eng_setEng]
    refine ⟨⟨Engine.reg_setReg_self .., fun _ => ⟨?_, ?_⟩, rfl, rfl⟩, s.setEng_onlyEngine die e _, hslot,
      Engine.onlyReg_of_put rfl, rfl⟩
    · split
      · rfl
      · rfl
    · exact congrArg Slot.staleReads (State.slot_setSlot ..)
  case true =>
    rw [State.eng_setEng]
    exact ⟨⟨Engine.reg_setReg_self .., fun hstale => absurd hstale (by decide), rfl, rfl⟩, s.setEng_onlyEngine die e _,
      .refl die j.slot s, Engine.onlyReg_of_put rfl, rfl⟩

/-- LDP on a channel's slot reads the row of the channel's step. -/
theorem execLdp_chan {s : State} {die e d n c : Nat} {j : RunJob} {op : Word}
    (h : s.Computes die e (.ldp die e d n) j op) (hslot : chanSlot die j.slot = some c) :
    exec (.ldp die e d n) s =
      .next (s.setEng die e (((s.eng die e).counted 0x02).setReg d (s32 (s.rowNow c n)))) := by
  refine (h.exec_eq rfl).trans ?_
  simp only [hslot]
  rfl

/-- STW writes words from 8 on, which are not the die's (R114). -/
theorem stw_gives {s : State} {die e a w : Nat} {j : RunJob} {op : Word}
    (h : s.Computes die e (.stw die e a w) j op) :
    Gives (.stw die e a w) s fun t =>
      ((t.eng die e).word w = (if 8 ≤ w then (s.eng die e).reg a else (s.eng die e).word w) ∧
        (t.eng die e).pc = (s.eng die e).pc + 1 ∧ (t.eng die e).cycles = (s.eng die e).cycles + opCycles 0x04) ∧
      OnlyEngine die e s t ∧ (s.eng die e).OnlyWords [w] (t.eng die e) ∧
      t.eng die e = { s.eng die e with
        words := (t.eng die e).words, pc := (t.eng die e).pc, cycles := (t.eng die e).cycles } := by
  refine .of_setEng (h.exec_eq rfl) fun t hy honly => ?_
  rw [hy]
  split
  case isTrue => exact ⟨⟨look_put_self .., rfl, rfl⟩, honly, Engine.onlyWords_of_put rfl, rfl⟩
  case isFalse => exact ⟨⟨rfl, rfl, rfl⟩, honly, .refl rfl, rfl⟩

/-- A micro-op whose cycles pass W counts them and does nothing else (R124). -/
theorem microOf_beyond_gives {s : State} {die e : Nat} {j : RunJob} {op : Word} (hhere : s.fetched die e = some (j, op))
    (hbeyond : (s.desc die j.desc).w < (s.eng die e).cycles + opCycles (opOf op)) :
    Gives (microOf die e op) s fun t =>
      (t.eng die e = { s.eng die e with cycles := (s.eng die e).cycles + opCycles (opOf op) } ∧ OnlyEngine die e s t) ∧
        Frame [.engines] s t := by
  obtain ⟨f, hexec⟩ := exec_microOf die e op s
  rw [State.micro_beyond hhere hbeyond] at hexec
  exact ⟨_, hexec, ⟨State.eng_setEng .., s.setEng_onlyEngine die e _⟩, fun k hk => State.setEng_same hk (.refl k s)⟩

/-- Settles O28: each micro-op's effect on its engine, and the frame of its command. -/
theorem microOpLoads : Obligations.MicroOpLoads := by
  refine ⟨?nop, ?beyond, ?lds, ?ldp, ?ldw, ?stw, ?ldi, ?ldh, ?mov⟩
  case nop =>
    intro die e j op s h
    exact (Gives.of_setEng (h.exec_eq rfl) fun t hy honly => ⟨hy, honly⟩).framed fun k hk => execNop_same hk (.refl k s)
  case beyond =>
    intro die e j op s hhere hbeyond
    exact microOf_beyond_gives hhere hbeyond
  case lds =>
    intro die e d tag j op s h
    exact (lds_gives h).framed fun k hk => execLds_same hk (.refl k s)
  case ldp =>
    intro die e d n c j op s h hslot
    exact (gives_setReg (execLdp_chan h hslot)).framed fun k hk => execLdp_same hk (.refl k s)
  case ldw =>
    intro die e d w j op s h
    exact (gives_setReg (h.exec_eq rfl)).framed fun k hk => execLdw_same hk (.refl k s)
  case stw =>
    intro die e a w j op s h
    exact (stw_gives h).framed fun k hk => execStw_same hk (.refl k s)
  case ldi =>
    intro die e d imm j op s h
    exact (gives_setReg (h.exec_eq rfl)).framed fun k hk => execLdi_same hk (.refl k s)
  case ldh =>
    intro die e d imm j op s h
    exact (gives_setReg (h.exec_eq rfl)).framed fun k hk => execLdh_same hk (.refl k s)
  case mov =>
    intro die e d a j op s h
    exact (gives_setReg (h.exec_eq rfl)).framed fun k hk => execMov_same hk (.refl k s)

/-! ## Arithmetic (R117) -/

/-- Settles O29: every result is written with the flags that it sets, to one register or one accumulator. -/
theorem microOpArithmetic : Obligations.MicroOpArithmetic := by
  refine ⟨?add, ?sub, ?mul, ?mac, ?acc, ?sta, ?min, ?max, ?lim⟩
  case add =>
    intro die e d a b j op s h
    exact (gives_setRegFlags (h.exec_eq rfl)).framed fun k hk => execAdd_same hk (.refl k s)
  case sub =>
    intro die e d a b j op s h
    exact (gives_setRegFlags (h.exec_eq rfl)).framed fun k hk => execSub_same hk (.refl k s)
  case mul =>
    intro die e n a b j op s h
    exact (gives_setAcc (h.exec_eq rfl)).framed fun k hk => execMul_same hk (.refl k s)
  case mac =>
    intro die e n a b j op s h
    exact (gives_setAcc (h.exec_eq rfl)).framed fun k hk => execMac_same hk (.refl k s)
  case acc =>
    intro die e n a j op s h
    exact (gives_setAcc (h.exec_eq rfl)).framed fun k hk => execAcc_same hk (.refl k s)
  case sta =>
    intro die e d n j op s h
    exact (gives_setRegFlags (h.exec_eq rfl)).framed fun k hk => execSta_same hk (.refl k s)
  case min =>
    intro die e d a b j op s h
    exact (gives_setReg (h.exec_eq rfl)).framed fun k hk => execMin_same hk (.refl k s)
  case max =>
    intro die e d a b j op s h
    exact (gives_setReg (h.exec_eq rfl)).framed fun k hk => execMax_same hk (.refl k s)
  case lim =>
    intro die e d a w j op s h
    exact (gives_setRegFlags (h.exec_eq rfl)).framed fun k hk => execLim_same hk (.refl k s)

/-! ## Filters and regulators (R116, R118, R121) -/

/-- FLT keeps its state and its result in one value. -/
theorem flt_gives {s : State} {die e d a w : Nat} {j : RunJob} {op : Word}
    (h : s.Computes die e (.flt die e d a w) j op) {x : Engine} (hx : s.eng die e = x) {y : Int}
    (hy : x.word (w + 1) + mulQ (x.reg a - x.word (w + 1)) (x.word w) = y) :
    Gives (.flt die e d a w) s fun t =>
      ((t.eng die e).reg d = sat32 y ∧ (t.eng die e).word (w + 1) = sat32 y ∧ (t.eng die e).pc = x.pc + 1 ∧
        (t.eng die e).cycles = x.cycles + opCycles 0x12) ∧
      OnlyEngine die e s t ∧ x.OnlyReg d (t.eng die e) ∧ x.OnlyWords [w + 1] (t.eng die e) ∧
      t.eng die e = { x with
        w := (t.eng die e).w, words := (t.eng die e).words, flags := (t.eng die e).flags, pc := (t.eng die e).pc,
        cycles := (t.eng die e).cycles } := by
  subst hx hy
  refine .of_setEng (h.exec_eq rfl) fun t ht honly => ?_
  rw [ht]
  exact ⟨⟨Engine.reg_setReg_self .., look_put_self .., rfl, rfl⟩, honly, Engine.onlyReg_of_put rfl,
    Engine.onlyWords_of_put rfl, rfl⟩

/-- BQD writes its two states, whatever the recurrence gives (log 9). -/
theorem bqd_gives {s : State} {die e d a w : Nat} {j : RunJob} {op : Word}
    (h : s.Computes die e (.bqd die e d a w) j op) {x : Engine} (hx : s.eng die e = x) {r : Int × Int × Int}
    (hr : Config.biquad ((List.range 5).map fun k => x.word (w + k)) [x.word (w + 5), x.word (w + 6)] (x.reg a) = r) :
    Gives (.bqd die e d a w) s fun t =>
      (((t.eng die e).reg d = sat32 r.1 ∧ (t.eng die e).word (w + 5) = sat32 r.2.1 ∧
        (t.eng die e).word (w + 6) = sat32 r.2.2) ∧ (t.eng die e).pc = x.pc + 1 ∧
        (t.eng die e).cycles = x.cycles + opCycles 0x13) ∧
      OnlyEngine die e s t ∧ x.OnlyReg d (t.eng die e) ∧ x.OnlyWords [w + 5, w + 6] (t.eng die e) ∧
      t.eng die e = { x with
        w := (t.eng die e).w, words := (t.eng die e).words, flags := (t.eng die e).flags, pc := (t.eng die e).pc,
        cycles := (t.eng die e).cycles } := by
  have hexec : exec (.bqd die e d a w) s = .next (s.setEng die e
      ((((x.counted 0x13).keepWord (w + 5) r.2.1).keepWord (w + 6) r.2.2).result d r.1)) := by
    subst hx hr
    exact h.exec_eq rfl
  have hfirst (y : Engine) (u v : Int) : ((y.keepWord (w + 5) u).keepWord (w + 6) v).word (w + 5) = sat32 u := by
    rw [Engine.word_keepWord_ne _ _ (by omega), Engine.word_keepWord_self]
  have hwords (y : Engine) (u v : Int) : y.OnlyWords [w + 5, w + 6] ((y.keepWord (w + 5) u).keepWord (w + 6) v) :=
    (y.keepWord_onlyWords (w + 5) u).trans (Engine.keepWord_onlyWords _ (w + 6) v)
  refine .of_setEng hexec fun t ht honly => ?_
  rw [ht]
  refine ⟨⟨⟨Engine.reg_setReg_self .., hfirst (x.counted 0x13) _ _, look_put_self ..⟩, rfl, rfl⟩, honly,
    Engine.onlyReg_of_put rfl, hwords (x.counted 0x13) _ _, ?_⟩
  simp only [Engine.result, Engine.keepWord, Engine.setReg, Engine.setWord, Engine.counted]

/-- PI holds its integrator under R118, and else keeps it saturated. -/
theorem pi_gives {s : State} {die e d a w : Nat} {j : RunJob} {op : Word}
    (h : s.Computes die e (.pi die e d a w) j op) {x : Engine} (hx : s.eng die e = x) :
    Gives (.pi die e d a w) s fun t =>
      ((t.eng die e).reg d = sat32 (mulQ (x.word w) (x.reg a) + x.word (w + 2)) ∧
        (t.eng die e).word (w + 2) = (if x.flags.piHeld (x.reg a) = true then x.word (w + 2)
          else sat32 (x.word (w + 2) + mulQ (x.word (w + 1)) (x.reg a))) ∧
        (t.eng die e).pc = x.pc + 1 ∧ (t.eng die e).cycles = x.cycles + opCycles 0x14) ∧
      OnlyEngine die e s t ∧ x.OnlyReg d (t.eng die e) ∧ x.OnlyWords [w + 2] (t.eng die e) ∧
      t.eng die e = { x with
        w := (t.eng die e).w, words := (t.eng die e).words, flags := (t.eng die e).flags, pc := (t.eng die e).pc,
        cycles := (t.eng die e).cycles } := by
  have hexec : exec (.pi die e d a w) s = .next (s.setEng die e
      ((if x.flags.piHeld (x.reg a) = true then x.counted 0x14
        else (x.counted 0x14).keepWord (w + 2) (x.word (w + 2) + mulQ (x.word (w + 1)) (x.reg a))).result d
          (mulQ (x.word w) (x.reg a) + x.word (w + 2)))) := by
    subst hx
    exact h.exec_eq rfl
  refine .of_setEng hexec fun t ht honly => ?_
  rw [ht]
  split
  case isTrue => exact ⟨⟨Engine.reg_setReg_self .., rfl, rfl, rfl⟩, honly, Engine.onlyReg_of_put rfl, .refl rfl, rfl⟩
  case isFalse =>
    exact ⟨⟨Engine.reg_setReg_self .., look_put_self .., rfl, rfl⟩, honly, Engine.onlyReg_of_put rfl,
      Engine.onlyWords_of_put rfl, rfl⟩

/-- A quotient by 0 sets OVF beside the flags of its result. -/
theorem execDiv_eq {s : State} {die e d a b : Nat} {j : RunJob} {op : Word}
    (h : s.Computes die e (.div die e d a b) j op) {x : Engine} (hx : s.eng die e = x) {v : Int}
    (hv : divValue (x.reg a) (x.reg b) = v) :
    exec (.div die e d a b) s = .next (s.setEng die e { ((x.counted 0x15).setReg d (sat32 v)) with
      flags := if x.reg b = 0 then { x.flags.sat v (sat32 v) with ovf := true } else x.flags.sat v (sat32 v) }) := by
  have hexec : exec (.div die e d a b) s = .next (s.setEng die e
      (if x.reg b = 0 then
        { ((x.counted 0x15).result d v) with flags := { ((x.counted 0x15).result d v).flags with ovf := true } }
      else (x.counted 0x15).result d v)) := by
    subst hx hv
    exact h.exec_eq rfl
  rw [hexec]
  split
  · rfl
  · rfl

/-- CMP changes the flags alone. -/
theorem cmp_gives {s : State} {die e a b : Nat} {j : RunJob} {op : Word} (h : s.Computes die e (.cmp die e a b) j op) :
    Gives (.cmp die e a b) s fun t =>
      ((t.eng die e).flags = (s.eng die e).flags.cmp ((s.eng die e).reg a) ((s.eng die e).reg b) ∧
        (t.eng die e).pc = (s.eng die e).pc + 1 ∧ (t.eng die e).cycles = (s.eng die e).cycles + opCycles 0x17) ∧
      OnlyEngine die e s t ∧
      t.eng die e = { s.eng die e with
        flags := (t.eng die e).flags, pc := (t.eng die e).pc, cycles := (t.eng die e).cycles } := by
  refine .of_setEng (h.exec_eq rfl) fun t hy honly => ?_
  rw [hy]
  exact ⟨⟨rfl, rfl, rfl⟩, honly, rfl⟩

/-- Settles O30: each filter's result, its state words and its flags, and the frame of its command. -/
theorem microOpFilters : Obligations.MicroOpFilters := by
  refine ⟨?shf, ?flt, ?bqd, ?pi, ?div, ?crv, ?cmp⟩
  case shf =>
    intro die e d a n j op s h
    exact (gives_setRegFlags (h.exec_eq rfl)).framed fun k hk => execShf_same hk (.refl k s)
  case flt =>
    intro die e d a w j op s h
    exact (flt_gives h rfl rfl).framed fun k hk => execFlt_same hk (.refl k s)
  case bqd =>
    intro die e d a w j op s h
    exact (bqd_gives h rfl rfl).framed fun k hk => execBqd_same hk (.refl k s)
  case pi =>
    intro die e d a w j op s h
    exact (pi_gives h rfl).framed fun k hk => execPi_same hk (.refl k s)
  case div =>
    intro die e d a b j op s h
    exact (gives_setRegFlags (execDiv_eq h rfl rfl)).framed fun k hk => execDiv_same hk (.refl k s)
  case crv =>
    intro die e d a n j op s h
    refine ((gives_setRegFlags (h.exec_eq rfl)).imp ?_).framed fun k hk => execCrv_same hk (.refl k s)
    rintro t ⟨⟨hreg, -, hcount⟩, hrest⟩
    exact ⟨⟨hreg, hcount⟩, hrest⟩
  case cmp =>
    intro die e a b j op s h
    exact (cmp_gives h).framed fun k hk => execCmp_same hk (.refl k s)

end Sys2Proof.Machine
end

section
/-! SUPPORT. What latches and the computations of a job leave of the loop engines and slots: the jobs that run go on,
and no slot's release or claim on an engine changes. -/

namespace Sys2Proof.Machine

/-- An engine's run goes on: pending jobs, staging and published words alone may differ. -/
def Engine.RunsOn (x y : Engine) : Prop := y = { x with deque := y.deque, staged := y.staged, pubs := y.pubs }

theorem Engine.RunsOn.refl (x : Engine) : x.RunsOn x := rfl

theorem Engine.RunsOn.trans {x y z : Engine} (h : x.RunsOn y) (g : y.RunsOn z) : x.RunsOn z := by
  unfold Engine.RunsOn at *
  rw [g, h]

/-- Every engine's run goes on, and every slot keeps its latest release and whether it is busy. -/
structure JobsStay (s t : State) : Prop where
  runs : ∀ d e, (s.eng d e).RunsOn (t.eng d e)
  busy : ∀ d k, (t.slot d k).busy = (s.slot d k).busy
  lastRel : ∀ d k, (t.slot d k).lastRel = (s.slot d k).lastRel

namespace JobsStay

theorem refl (s : State) : JobsStay s s := ⟨fun _ _ => .refl _, fun _ _ => rfl, fun _ _ => rfl⟩

theorem trans {a s t : State} (h : JobsStay a s) (g : JobsStay s t) : JobsStay a t :=
  ⟨fun d e => (h.runs d e).trans (g.runs d e), fun d k => (g.busy d k).trans (h.busy d k),
    fun d k => (g.lastRel d k).trans (h.lastRel d k)⟩

theorem of_same {s t : State} (heng : State.Same .engines s t) (hslot : State.Same .slots s t) : JobsStay s t := by
  have hs (d k : Nat) : t.slot d k = s.slot d k := by rw [State.slot, State.slot, show t.slots = s.slots from hslot]
  refine ⟨fun d e => ?_, fun d k => by rw [hs], fun d k => by rw [hs]⟩
  rw [State.eng_of_same heng]
  exact .refl _

/-- An operation whose frame leaves engines and slots keeps the jobs. -/
theorem frame {l : List Part} {a s t : State} (h : JobsStay a s) (hf : Frame l s t)
    (hl : .engines ∉ l ∧ .slots ∉ l) : JobsStay a t :=
  h.trans (of_same (hf _ hl.1) (hf _ hl.2))

theorem setEng {a s : State} {d e : Nat} {x : Engine} (h : JobsStay a s) (hx : (s.eng d e).RunsOn x) :
    JobsStay a (s.setEng d e x) := by
  refine h.trans ⟨fun d' e' => ?_, fun _ _ => rfl, fun _ _ => rfl⟩
  by_cases hkey : 16 * d' + e' = 16 * d + e
  · have hold : s.eng d' e' = s.eng d e := by rw [State.eng, State.eng, hkey]
    have hnew : (s.setEng d e x).eng d' e' = x := by
      rw [State.eng, hkey]
      exact s.eng_setEng d e x
    rwa [hold, hnew]
  · rw [s.setEng_onlyEngine d e x d' e' hkey]
    exact .refl _

theorem setSlot {a s : State} {d k : Nat} {x : Slot} (h : JobsStay a s) (hbusy : x.busy = (s.slot d k).busy)
    (hrel : x.lastRel = (s.slot d k).lastRel) : JobsStay a (s.setSlot d k x) := by
  refine h.trans ⟨fun _ _ => .refl _, fun d' k' => ?_, fun d' k' => ?_⟩
  all_goals
    by_cases hkey : 128 * d' + k' = 128 * d + k
    · have hold : s.slot d' k' = s.slot d k := by rw [State.slot, State.slot, hkey]
      have hnew : (s.setSlot d k x).slot d' k' = x := by
        rw [State.slot, hkey]
        exact s.slot_setSlot d k x
      rwa [hold, hnew]
    · rw [s.setSlot_onlySlot d k x d' k' hkey]

theorem each {α : Type} {a s : State} {l : List α} {f : State → α → State} (h : JobsStay a s)
    (hf : ∀ y x, JobsStay a y → JobsStay a (f y x)) : JobsStay a (each l f s) :=
  each_induct (r := JobsStay a) h fun y x _ => hf y x

theorem ite {a s t : State} {c : Prop} [Decidable c] (hs : JobsStay a s) (ht : JobsStay a t) :
    JobsStay a (if c then s else t) := by
  split
  · exact hs
  · exact ht

/-! ## Operations that touch neither engines nor slots -/

section
variable {a s : State} (h : JobsStay a s)
include h

theorem wr (i j e : Nat) (v : Int) : JobsStay a (s.wr i j e v) :=
  h.trans (of_same rfl rfl)

theorem setChan (c : Nat) (x : Chan) : JobsStay a (s.setChan c x) := h.trans (of_same rfl rfl)

theorem setUnit (d u : Nat) (x : GenUnit) : JobsStay a (s.setUnit d u x) := h.trans (of_same rfl rfl)

theorem setDie (d : Nat) (x : Die) : JobsStay a (s.setDie d x) := h.trans (of_same rfl rfl)

theorem setPower (x : Power) : JobsStay a (s.setPower x) := h.trans (of_same rfl rfl)

theorem draw : JobsStay a s.draw := h.trans (of_same rfl rfl)

theorem openCorr (site : Nat) : JobsStay a (s.openCorr site) := h.trans (of_same rfl rfl)

theorem raise (d sub code : Nat) (data : List Byte) (corr : Nat) : JobsStay a (s.raise d sub code data corr) :=
  h.frame (fun k hk => State.raise_same hk (.refl k s)) (by decide)

theorem note (code : Nat) (data : List Byte) : JobsStay a (s.note code data) :=
  h.frame (fun k hk => State.note_same hk (.refl k s)) (by decide)

theorem dropJobs (d k : Nat) : JobsStay a (s.dropJobs d k) := h.each fun _ _ hy => hy.setEng rfl

theorem setWord4 (c g : Nat) : JobsStay a (s.setWord4 c g) := h.setSlot rfl rfl

/-! ## Latches (R45, R73, R103, R113, R505) -/

theorem endByLatch (c : Nat) : JobsStay a (s.endByLatch c) := by
  refine .ite ?_ h
  extract_lets closed
  have hclosed : JobsStay a closed :=
    .ite ((h.wr 0x2402 9 c 5).frame (fun k hk => State.closeStep_same hk (.refl k _)) (by decide)) h
  exact ((((hclosed.setChan ..).wr ..).wr ..).wr ..).setWord4 c 65536

theorem latchOne (c cause arg corr : Nat) : JobsStay a (s.latchOne c cause arg corr) := by
  cases hfree : s.latched c
  case true =>
    rw [State.latchOne_of_latched hfree]
    exact (h.setChan ..).wr ..
  case false =>
    rw [State.latchOne_of_free hfree]
    have hoff := (h.setChan c { s.chan c with causeAt := some s.clock.cnt }).frame
      (fun k hk => State.gatesOff_same (x1 := c) hk (.refl k _)) (by decide)
    have hregs := hoff.frame (fun k hk => State.latchRegs_same _ c cause arg corr hk) (by decide)
    exact ((hregs.raise ..).dropJobs ..).endByLatch c

theorem latchChans (l : List Nat) (cause arg corr : Nat) : JobsStay a (s.latchChans l cause arg corr) :=
  JobsStay.each (h.each fun _ _ hy => hy.latchOne ..) fun _ m hy => (hy.latchOne m 3 0 corr).wr ..

theorem latchNew (c cause arg : Nat) : JobsStay a (s.latchNew c cause arg) := (h.openCorr _).latchChans ..

theorem latchDab (n i cause arg corr : Nat) : JobsStay a (s.latchDab n i cause arg corr) := by
  unfold State.latchDab
  extract_lets d x latched cut recorded raised
  have hraised : JobsStay a raised := ((((h.setDie ..).setUnit ..).wr ..).wr ..).raise ..
  exact .ite (h.setDie ..)
    ((hraised.dropJobs ..).frame (fun k hk => State.raiseFrame_same hk (.refl k _)) (by decide))

/-- A source that stands latches what has joined its mask (R101). -/
theorem standingSources (n : Nat) : JobsStay a (s.standingSources n) := by
  refine h.each fun y k hy => ?_
  extract_lets mask late stages corr
  exact .ite hy (((hy.openCorr n).latchChans ..).each fun _ _ hz => hz.latchDab ..)

theorem latchAfe : JobsStay a s.latchAfe := by
  have hlow : JobsStay a s.afeLow := h.frame (fun k hk => State.afeLow_same hk (.refl k s)) (by decide)
  exact ((hlow.setPower ..).wr ..).dropJobs 0 0

theorem latchDrive (n cause : Nat) : JobsStay a (s.latchDrive n cause) := by
  unfold State.latchDrive
  extract_lets shown x kept
  have hlow : JobsStay a ((s.driveCut n).enterDrive n 8) :=
    (h.frame (fun k hk => State.driveCut_same hk (.refl k s)) (by decide)).frame
      (fun k hk => State.enterDrive_same hk (.refl k _)) (by decide)
  have hkept : JobsStay a kept :=
    (hlow.wr ..).frame (fun k hk => State.setDrive_same hk (.refl k shown)) (by decide)
  exact .ite h ((hkept.dropJobs ..).note ..)

theorem latchAxis (n cause : Nat) : JobsStay a (s.latchAxis n cause) := by
  unfold State.latchAxis
  extract_lets shown x kept
  have hlow : JobsStay a (s.axisLow n 7) := h.frame (fun k hk => State.axisLow_same hk (.refl k s)) (by decide)
  have hkept : JobsStay a kept :=
    (hlow.wr ..).frame (fun k hk => State.setAxis_same hk (.refl k shown)) (by decide)
  exact .ite h (((hkept.dropJobs ..).dropJobs ..).note ..)

theorem latchOutputs (k : Nat) : JobsStay a (s.latchOutputs k) := by
  refine .ite h.latchAfe (.ite (h.setUnit ..) (.ite (h.draw.latchDrive ..) (.ite (h.draw.latchAxis ..) h)))

/-- Latching a slot stops no job that runs, and frees no slot. -/
theorem latchSlot (d k cause arg : Nat) : JobsStay a (s.latchSlot d k cause arg) := by
  unfold State.latchSlot
  extract_lets corr opened x
  have hopened : JobsStay a opened := h.openCorr d
  have hhub : JobsStay a (opened.setSlot 0 k { x with latch := cause }) := hopened.setSlot rfl rfl
  exact .ite (.ite ((hhub.dropJobs 0 k).latchOutputs k) hopened)
    (.ite (hopened.latchChans ..) (hopened.latchDab ..))

end

end JobsStay

/-- Latching a channel's slot latches the channel (R124). -/
theorem State.latchSlot_latches {s : State} {die k c : Nat} (hc : chanSlot die k = some c) (cause arg : Nat) :
    (s.latchSlot die k cause arg).latched c = true := by
  obtain ⟨⟨hdie, hk⟩, rfl⟩ : (die ≠ 0 ∧ k < 64) ∧ chanOf die k = c := by
    simpa [chanSlot] using hc
  unfold State.latchSlot
  rw [if_neg hdie, if_pos hk]
  exact State.latchChans_latches _ cause arg _ (.inl List.mem_cons_self)

end Sys2Proof.Machine
end

section
/-! The statement on the micro-operations that branch, end a step, stage, latch and publish. -/

namespace Sys2Proof.Machine

/-! ## TRM (R173) -/

/-- TRM keeps the hold count of each condition, whether or not one wins. -/
theorem State.trm_holds (s : State) (c : Nat) :
    ((s.trm c).chan c).run.holds = (s.condResults c).map (fun x => x.2.1) := by
  unfold State.trm
  extract_lets rs row met src r
  split
  · exact congrArg (fun x => x.run.holds) (State.chan_setChan ..)
  · exact congrArg (fun x => x.run.holds) (State.chan_setChan ..)

/-- What TRM does behind the count of its cycles: a master's or single channel's running step is evaluated. -/
def State.trmSlot (s : State) (die k : Nat) : State :=
  match chanSlot die k with
  | some c => if s.runState c = 2 ∧ !s.slave c then s.trm c else s
  | none => s

theorem State.trmSlot_same {p : Part} (s : State) (die k : Nat) (hp : p ∉ [.chans]) :
    State.Same p s (s.trmSlot die k) := by
  unfold State.trmSlot
  split
  · split
    · exact State.trm_same hp (.refl p s)
    · exact .refl p s
  · exact .refl p s

theorem State.trmSlot_holds {s : State} {die k c : Nat} (hc : chanSlot die k = some c) (hrun : s.runState c = 2)
    (hmaster : s.slave c = false) :
    ((s.trmSlot die k).chan c).run.holds = (s.condResults c).map (fun x => x.2.1) := by
  simp only [State.trmSlot, hc, hrun, hmaster, Bool.not_false, and_self, if_true]
  exact s.trm_holds c

theorem trm_gives {s : State} {die e : Nat} {j : RunJob} {op : Word} (h : s.Computes die e (.trm die e) j op) :
    Gives (.trm die e) s fun t =>
      ((t.eng die e).pc = (s.eng die e).pc + 1 ∧ (t.eng die e).cycles = (s.eng die e).cycles + opCycles 0x19 ∧
        ∀ c, chanSlot die j.slot = some c → s.runState c = 2 → s.slave c = false →
          (t.chan c).run.holds = (s.condResults c).map (fun x => x.2.1)) ∧
      OnlyEngine die e s t ∧
      t.eng die e = { s.eng die e with pc := (t.eng die e).pc, cycles := (t.eng die e).cycles } := by
  have hexec : exec (.trm die e) s =
      .next ((s.setEng die e ((s.eng die e).counted 0x19)).trmSlot die j.slot) := h.exec_eq rfl
  have hsame := (s.setEng die e ((s.eng die e).counted 0x19)).trmSlot_same (p := .engines) die j.slot (by decide)
  refine ⟨_, hexec, ?_⟩
  beta_reduce
  rw [State.eng_of_same hsame, State.eng_setEng]
  exact ⟨⟨rfl, rfl, fun c hc hrun hmaster => State.trmSlot_holds hc hrun hmaster⟩,
    (s.setEng_onlyEngine die e _).of_same hsame, rfl⟩

/-! ## EDG and CMT (R85, R119) -/

/-- What EDG and CMT do with a staging write or a commit: it joins the job's, or is discarded and counted while the host
owns the output. -/
def State.stageOrCount (s : State) (die e k : Nat) (x : Engine) (w : Option (Nat × Int)) : State :=
  if s.hostOwned die k then (s.setEng die e x).inc 0x2833 7 (chanOf die k)
  else s.setEng die e { x with staged := x.staged ++ [w] }

theorem gives_stageOrCount {i : Instr} {s : State} {die e op k : Nat} {w : Option (Nat × Int)}
    (hexec : exec i s = .next (s.stageOrCount die e k ((s.eng die e).counted op) w)) :
    Gives i s fun t =>
      ((s.hostOwned die k = false → (t.eng die e).staged = (s.eng die e).staged ++ [w]) ∧
        (s.hostOwned die k = true → (t.eng die e).staged = (s.eng die e).staged ∧
          t.rd 0x2833 7 (chanOf die k) = (s.rd 0x2833 7 (chanOf die k) + 1) % 2 ^ 32) ∧
        (t.eng die e).pc = (s.eng die e).pc + 1 ∧ (t.eng die e).cycles = (s.eng die e).cycles + opCycles op) ∧
      OnlyEngine die e s t ∧
      t.eng die e = { s.eng die e with
        staged := (t.eng die e).staged, pc := (t.eng die e).pc, cycles := (t.eng die e).cycles } := by
  refine ⟨_, hexec, ?_⟩
  unfold State.stageOrCount
  cases hown : s.hostOwned die k
  case false =>
    rw [if_neg Bool.false_ne_true, State.eng_setEng]
    exact ⟨⟨fun _ => rfl, fun htrue => absurd htrue Bool.false_ne_true, rfl, rfl⟩, s.setEng_onlyEngine die e _, rfl⟩
  case true =>
    have hsame : State.Same .engines (s.setEng die e ((s.eng die e).counted op))
        ((s.setEng die e ((s.eng die e).counted op)).inc 0x2833 7 (chanOf die k)) :=
      State.inc_same (by decide) (.refl .engines _)
    rw [if_pos rfl, State.eng_of_same hsame, State.eng_setEng]
    exact ⟨⟨fun hfalse => absurd hfalse.symm Bool.false_ne_true, fun _ => ⟨rfl, State.rd_wr_self ..⟩, rfl, rfl⟩,
      (s.setEng_onlyEngine die e _).of_same hsame, rfl⟩

/-! ## BR, LAT, PUB, YLD (R116, R120, R124) -/

theorem br_gives {s : State} {die e cond off : Nat} {j : RunJob} {op : Word}
    (h : s.Computes die e (.br die e cond off) j op) :
    Gives (.br die e cond off) s fun t =>
      ((t.eng die e).pc = (s.eng die e).pc + 1 + (if (s.eng die e).flags.holds cond = true then off else 0) ∧
        (t.eng die e).cycles = (s.eng die e).cycles + opCycles 0x18) ∧
      OnlyEngine die e s t ∧
      t.eng die e = { s.eng die e with pc := (t.eng die e).pc, cycles := (t.eng die e).cycles } := by
  have hexec : exec (.br die e cond off) s = .next (s.setEng die e
      (if (s.eng die e).flags.holds cond then
        { (s.eng die e).counted 0x18 with pc := ((s.eng die e).counted 0x18).pc + off }
      else (s.eng die e).counted 0x18)) := h.exec_eq rfl
  refine .of_setEng hexec fun t hy honly => ?_
  rw [hy]
  split
  · exact ⟨⟨rfl, rfl⟩, honly, rfl⟩
  · exact ⟨⟨rfl, rfl⟩, honly, rfl⟩

/-- LAT ends the job's micro-ops, and its engine goes on to the job's end while the slot latches. -/
theorem lat_gives {s : State} {die e code : Nat} {j : RunJob} {op : Word}
    (h : s.Computes die e (.lat die e code) j op) :
    Gives (.lat die e code) s fun t =>
      (t.eng die e).ended = true ∧ (∀ c, chanSlot die j.slot = some c → t.latched c = true) ∧
      (t.eng die e).pc = (s.eng die e).pc + 1 ∧ (t.eng die e).cycles = (s.eng die e).cycles + opCycles 0x1C := by
  have hexec : exec (.lat die e code) s = .next ((s.setEng die e
      { (s.eng die e).counted 0x1C with ended := true }).latchSlot die j.slot 19 code) := h.exec_eq rfl
  have hruns := ((JobsStay.refl (s.setEng die e { (s.eng die e).counted 0x1C with ended := true })).latchSlot die j.slot
    19 code).runs die e
  rw [State.eng_setEng] at hruns
  refine ⟨_, hexec, ?_⟩
  beta_reduce
  rw [hruns]
  exact ⟨rfl, fun c hc => State.latchSlot_latches hc 19 code, rfl, rfl⟩

theorem pub_gives {s : State} {die e a n : Nat} {j : RunJob} {op : Word} (h : s.Computes die e (.pub die e a n) j op) :
    Gives (.pub die e a n) s fun t =>
      ((t.eng die e).pubs = (s.eng die e).pubs ++ [(n, (s.eng die e).reg a)] ∧
        (t.eng die e).pc = (s.eng die e).pc + 1 ∧ (t.eng die e).cycles = (s.eng die e).cycles + opCycles 0x1D) ∧
      OnlyEngine die e s t ∧
      t.eng die e = { s.eng die e with
        pubs := (t.eng die e).pubs, pc := (t.eng die e).pc, cycles := (t.eng die e).cycles } := by
  refine .of_setEng (h.exec_eq rfl) fun t hy honly => ?_
  rw [hy]
  exact ⟨⟨rfl, rfl, rfl⟩, honly, rfl⟩

theorem yld_gives {s : State} {die e : Nat} {j : RunJob} {op : Word} (h : s.Computes die e (.yld die e) j op) :
    Gives (.yld die e) s fun t =>
      ((t.eng die e).ended = true ∧ (t.eng die e).pc = (s.eng die e).pc + 1 ∧
        (t.eng die e).cycles = (s.eng die e).cycles + opCycles 0x1F) ∧
      OnlyEngine die e s t ∧
      t.eng die e = { s.eng die e with
        ended := (t.eng die e).ended, pc := (t.eng die e).pc, cycles := (t.eng die e).cycles } := by
  refine .of_setEng (h.exec_eq rfl) fun t hy honly => ?_
  rw [hy]
  exact ⟨⟨rfl, rfl, rfl⟩, honly, rfl⟩

/-- Settles O31: each command's effect, the latch of LAT leaving the engine's run alone, and the frame of its
command. -/
theorem microOpControl : Obligations.MicroOpControl := by
  refine ⟨?br, ?trm, ?edg, ?cmt, ?lat, ?pub, ?ldg, ?yld⟩
  case br =>
    intro die e cond off j op s h
    exact (br_gives h).framed fun k hk => execBr_same hk (.refl k s)
  case trm =>
    intro die e j op s h
    exact (trm_gives h).framed fun k hk => execTrm_same hk (.refl k s)
  case edg =>
    intro die e g a j op s h
    exact (gives_stageOrCount (h.exec_eq rfl)).framed fun k hk => execEdg_same hk (.refl k s)
  case cmt =>
    intro die e j op s h
    exact (gives_stageOrCount (h.exec_eq rfl)).framed fun k hk => execCmt_same hk (.refl k s)
  case lat =>
    intro die e code j op s h
    exact (lat_gives h).framed fun k hk => execLat_same hk (.refl k s)
  case pub =>
    intro die e a n j op s h
    exact (pub_gives h).framed fun k hk => execPub_same hk (.refl k s)
  case ldg =>
    intro die e d n j op s h
    exact (gives_setReg (h.exec_eq rfl)).framed fun k hk => execLdg_same hk (.refl k s)
  case yld =>
    intro die e j op s h
    exact (yld_gives h).framed fun k hk => execYld_same hk (.refl k s)

end Sys2Proof.Machine
end

section
/-! SUPPORT. The jobs of every slot go on while a job computes (JobsStay): what a template works out of its samples
reaches its engine as staging and published words alone. -/

namespace Sys2Proof.Machine

namespace JobsStay

section
variable {a s : State} (h : JobsStay a s)
include h

theorem setLaw (c : Nat) (x : Law) : JobsStay a (s.setLaw c x) := h.setChan ..

theorem supervise (c : Nat) (ref iStar i v : Rat) (vErr clampOn : Bool) (clamp : Rat) :
    JobsStay a (s.supervise c ref iStar i v vErr clampOn clamp) :=
  h.frame (fun k hk => State.supervise_same hk (.refl k s)) (by decide)

/-! ## Channel templates (R139 to R163) -/

theorem stageDuty (c e : Nat) (d : Rat) : JobsStay a (s.stageDuty c e d) := .ite (h.wr ..) (h.setEng rfl)

theorem publish (c e : Nat) (ref : Rat) (phase : Nat) : JobsStay a (s.publish c e ref phase) := h.setEng rfl

theorem runInner (c e : Nat) (p : JobIn) (ref : Rat) (flags : Nat) : JobsStay a (s.runInner c e p ref flags) := by
  unfold State.runInner
  extract_lets drawn ff
  have hdrawn : JobsStay a drawn := .ite h.draw h
  split
  exact ((((hdrawn.setLaw ..).wr ..).wr ..).frame (fun k hk => State.showMember_same hk (.refl k _))
    (by decide)).stageDuty ..

theorem switchJob (c e : Nat) (p : JobIn) : JobsStay a (s.switchJob c e p) := by
  unfold State.switchJob
  extract_lets law
  split
  · rename_i g i ramped watched _
    have hwatched : JobsStay a watched := ((h.setLaw ..).wr ..).supervise ..
    exact ((hwatched.wr ..).publish ..).runInner ..
  · split
    extract_lets followed phase shown i vErr watched
    have hshown : JobsStay a shown :=
      (h.setLaw ..).frame (fun k hk => State.showRef_same hk (.refl k followed)) (by decide)
    have hwatched : JobsStay a watched := hshown.supervise ..
    exact (hwatched.publish ..).runInner ..

theorem slaveJob (c e : Nat) (p : JobIn) : JobsStay a (s.slaveJob c e p) := by
  unfold State.slaveJob
  split
  extract_lets ref law shown watched
  have hwatched : JobsStay a watched := (((h.setLaw ..).wr ..).wr ..).supervise ..
  exact hwatched.runInner ..

theorem restJob (c e : Nat) : JobsStay a (s.restJob c e) := by
  unfold State.restJob
  extract_lets stopped x
  have hstopped : JobsStay a stopped := .ite (h.frame (fun k hk => State.stopUnit_same hk (.refl k s)) (by decide)) h
  refine wr (hstopped.setEng ?_) ..
  exact rfl

theorem lawJob (c tmpl e : Nat) : JobsStay a (s.lawJob c tmpl e) := by
  unfold State.lawJob
  extract_lets p fresh computed begun held tallied
  have hcomputed : JobsStay a computed :=
    .ite (h.restJob ..) (.ite h (.ite (.ite (h.wr ..) (h.slaveJob ..)) (h.switchJob ..)))
  have hbegun : JobsStay a begun := .ite (hcomputed.setLaw ..) hcomputed
  have hheld : JobsStay a held := .ite (hbegun.setLaw ..) hbegun
  have htallied : JobsStay a tallied := hheld.frame (fun k hk => State.tallyJob_same hk (.refl k held)) (by decide)
  have htrm : JobsStay a (tallied.trm c) := htallied.frame (fun k hk => State.trm_same hk (.refl k tallied)) (by decide)
  exact .ite (h.latchNew ..) (.ite htrm htallied)

/-! ## Hub templates and the DAB stage (R276, R290, R323) -/

theorem trackWu (v : Rat) : JobsStay a (s.trackWu v) :=
  h.frame (fun k hk => State.trackWu_same hk (.refl k s)) (by decide)

theorem trackGrid (v2 vq f nom : Rat) : JobsStay a (s.trackGrid v2 vq f nom) :=
  h.frame (fun k hk => State.trackGrid_same hk (.refl k s)) (by decide)

theorem publishGrid (e : Nat) (theta f vd vq : Rat) : JobsStay a (s.publishGrid e theta f vd vq) := h.setEng rfl

theorem gridJob (e : Nat) : JobsStay a (s.gridJob e) := by
  unfold State.gridJob
  extract_lets x p t th frac bad coasted src al b3 be vd vq v2 va drawn r f turned wrapped tracked src' swung shown
  have hcoasted : JobsStay a coasted :=
    .ite ((h.trackWu _).frame (fun k hk => State.countLoss_same hk (.refl k _)) (by decide)) h
  have hdrawn : JobsStay a drawn := .ite h.draw h
  have hshown : JobsStay a shown := (((hdrawn.trackWu _).setPower ..).wr ..).wr ..
  exact .ite ((hcoasted.setPower ..).publishGrid ..) (.ite h ((hshown.trackGrid ..).publishGrid ..))

theorem dabJob (n i e : Nat) : JobsStay a (s.dabJob n i e) := by
  unfold State.dabJob
  extract_lets
  refine .ite h ?_
  refine JobsStay.setEng ?_ rfl
  refine ((((JobsStay.wr ?_ ..).wr ..).wr ..).wr ..)
  refine JobsStay.setDie ?_ ..
  exact .ite h.draw h

theorem profileJob (n e : Nat) : JobsStay a (s.profileJob n e) := by
  unfold State.profileJob
  extract_lets moved src followed x shown y
  have hmoved : JobsStay a moved :=
    .ite h (.ite (h.frame (fun k hk => State.followStep_same hk (.refl k s)) (by decide))
      (h.frame (fun k hk => State.profileStep_same hk (.refl k s)) (by decide)))
  have hfollowed : JobsStay a followed :=
    .ite hmoved (hmoved.frame (fun k hk => State.setAxis_same hk (.refl k moved)) (by decide))
  have hshown : JobsStay a shown := ((hfollowed.wr ..).wr ..).wr ..
  exact hshown.setEng rfl

theorem hubJob (k id e : Nat) : JobsStay a (s.templateJob 0 k id e) := by
  unfold State.templateJob
  rw [if_pos rfl]
  refine .ite h ?_
  split
  · exact h.frame (fun k hk => State.afeJob_same hk (.refl k s)) (by decide)
  · exact h.gridJob e
  · exact h.frame (fun k hk => State.linkJob_same hk (.refl k s)) (by decide)
  · exact h.frame (fun k hk => State.chopJob_same hk (.refl k s)) (by decide)
  · exact h.frame (fun k hk => State.bldcJob_same hk (.refl k s)) (by decide)
  · exact h.frame (fun k hk => State.stepJob_same hk (.refl k s)) (by decide)
  · exact h.profileJob ..
  · exact h

/-- A vendor template's job leaves what runs on the engines. -/
theorem templateJob (d k id e : Nat) : JobsStay a (s.templateJob d k id e) := by
  by_cases hd : d = 0
  · subst hd
    exact h.hubJob k id e
  · unfold State.templateJob
    rw [if_neg hd]
    exact .ite (h.lawJob ..) (h.dabJob ..)

theorem handOver (d k : Nat) (x : Engine) : JobsStay a (s.handOver d k x) :=
  h.frame (fun k hk => State.handOver_same hk (.refl k s)) (by decide)

theorem customJob (c e : Nat) : JobsStay a (s.customJob c e) :=
  h.frame (fun k hk => State.customJob_same hk (.refl k s)) (by decide)

end

end JobsStay

end Sys2Proof.Machine
end

section
/-! The statement on releases, jobs and faults of the loop engines, and on the descriptor library and the curve
tables. -/

namespace Sys2Proof.Machine

/-! ## Releases (R111, R130) -/

namespace JobsStay

section
variable {a s : State} (h : JobsStay a s)
include h

theorem takeSamples (d k : Nat) (given : List Sample) : JobsStay a (s.takeSamples d k given) := by
  unfold State.takeSamples
  by_cases hd : d = 0
  · subst hd
    exact h.setSlot rfl rfl
  · rw [if_neg hd]
    refine .ite (setChan (setUnit (h.setSlot ?_ ?_) ..) ..) (h.setSlot ?_ ?_)
    all_goals rfl

theorem stopUnits (l : List Nat) (d : Nat) : JobsStay a (Machine.each l (fun s m => s.stopUnit d (localOf m)) s) :=
  h.each fun y _ hy => hy.frame (fun k hk => State.stopUnit_same hk (.refl k y)) (by decide)

theorem drainStop (c : Nat) : JobsStay a (s.drainStop c) := (h.stopUnits ..).setChan ..

theorem beginRamp (c : Nat) : JobsStay a (s.beginRamp c) := by
  have hrun : JobsStay a (s.setRun c 3) := h.frame (fun k hk => State.setRun_same hk (.refl k s)) (by decide)
  exact (hrun.setLaw ..).setWord4 ..

theorem drainRelease (c : Nat) : JobsStay a (s.drainRelease c).1 := by
  unfold State.drainRelease
  extract_lets r
  split
  · exact h
  · split
    · split
      · exact (h.setLaw ..).setWord4 ..
      · exact h.drainStop c
    · split
      · exact (h.stopUnits ..).setChan ..
      · exact h.beginRamp c

end

end JobsStay

/-- Posting a job leaves the latest release of its slot. -/
theorem State.post_lastRel (s : State) (die k : Nat) :
    ((s.post die k).slot die k).lastRel = (s.slot die k).lastRel := by
  unfold State.post
  extract_lets x reset late counted posted noted
  have hcounted : JobsStay s counted := (JobsStay.refl s).setSlot rfl rfl
  have hposted : posted.slot die k = counted.slot die k := by
    have hsame : State.Same .slots counted posted := by
      unfold posted
      split
      · exact .refl .slots counted
      · exact State.postJob_same (by decide) (.refl .slots counted)
    rw [State.slot, State.slot, show posted.slots = counted.slots from hsame]
  have hnoted : JobsStay posted noted :=
    (JobsStay.refl posted).frame (fun k hk => State.noteAt_same hk (.refl k posted)) (by decide)
  have hlast : JobsStay posted
      (if late then if 3 ≤ x.consec + 1 then noted.latchSlot die k 7 0 else noted else posted) :=
    .ite (.ite (hnoted.latchSlot ..) hnoted) (.refl posted)
  rw [hlast.lastRel, hposted, hcounted.lastRel]

/-- A release stands as its slot's latest, whatever the drain and the overruns do. -/
theorem State.release_lastRel (s : State) (die k : Nat) (given : List Sample) :
    ((s.release die k given).slot die k).lastRel = some (s.relCount die k) := by
  unfold State.release
  extract_lets x marked sampled
  have hmarked : (marked.slot die k).lastRel = some (s.relCount die k) :=
    congrArg Slot.lastRel (State.slot_setSlot ..)
  have hsampled : JobsStay marked sampled := (JobsStay.refl marked).takeSamples ..
  have hpost {u : State} (hu : JobsStay marked u) :
      ((u.post die k).slot die k).lastRel = some (s.relCount die k) := by
    rw [State.post_lastRel, hu.lastRel, hmarked]
  split
  case h_1 c _ =>
    have hdrained : JobsStay marked (sampled.drainRelease c).1 := hsampled.drainRelease c
    cases hpair : sampled.drainRelease c with
    | mk u go =>
      rw [hpair] at hdrained
      split
      · exact hpost hsampled
      · dsimp only
        split
        · exact hpost hdrained
        · rw [hdrained.lastRel, hmarked]
  case h_2 => exact hpost hsampled

theorem release_gives {s : State} {die k : Nat} (given : List Sample) (hactive : s.slotActive die k = true)
    (hdue : s.relDue die k = true) :
    Gives (.release die k given) s fun t =>
      t = s.release die k given ∧ (t.slot die k).lastRel = some (s.relCount die k) :=
  .of_guard rfl ⟨hactive, hdue⟩ ⟨rfl, s.release_lastRel die k given⟩

/-! ## The start of a job (R127, R128) -/

/-- The engine and the slot of a job as it starts. -/
theorem State.startJob_starts (s : State) (die e v x : Nat) (j : Job) {t : State} (ht : s.startJob die e v x j = t) :
    ((t.eng die e).job = some ⟨j.slot, (t.eng die e).job.elim 0 (·.desc), j.release, j.at', e != v⟩ ∧
      (t.eng die e).began = x ∧ (t.eng die e).pc = 0 ∧ (t.eng die e).ended = false ∧ (t.eng die e).claim = none) ∧
    (t.slot die j.slot).busy = true ∧ (t.slot die j.slot).seq = (s.slot die j.slot).seq + 1 := by
  subst ht
  unfold State.startJob
  extract_lets y g words taken stolen custom z
  have hstolen : State.Same .slots taken stolen := by
    unfold stolen
    split
    · exact .refl .slots taken
    · exact State.inc_same (by decide) (.refl .slots taken)
  have hcustom : State.Same .slots stolen custom := by
    unfold custom
    split
    · split
      · exact .refl .slots stolen
      · exact State.customStart_same (by decide) (.refl .slots stolen)
    · exact .refl .slots stolen
  have hslots : custom.slots = taken.slots := hstolen.trans hcustom
  have hslot : custom.slot die j.slot = taken.slot die j.slot := by rw [State.slot, State.slot, hslots]
  have htaken : (taken.slot die j.slot).busy = true ∧ (taken.slot die j.slot).seq = (s.slot die j.slot).seq + 1 := by
    unfold taken
    rw [State.slot_setSlot]
    exact ⟨rfl, rfl⟩
  rw [State.eng_setEng]
  refine ⟨⟨rfl, rfl, rfl, rfl, rfl⟩, ?_⟩
  rw [← hslot] at htaken
  exact htaken

theorem jobStart_gives {s u : State} {die e v x : Nat} {j : Job} (hpop : s.diePop die = true) (he : e < engineCount die)
    (hfree : (s.eng die e).job = none) (hclock : (s.die die).halted = false) (htake : s.takeUpTo die e = u)
    (hclaim : (u.eng die e).claim = some (v, j, x)) :
    Gives (.jobStart die e) s fun t =>
      (t.eng die e).job = some ⟨j.slot, (t.eng die e).job.elim 0 (·.desc), j.release, j.at', e != v⟩ ∧
      (t.eng die e).began = x ∧ (t.eng die e).pc = 0 ∧ (t.eng die e).ended = false ∧ (t.eng die e).claim = none ∧
      (t.slot die j.slot).busy = true ∧ (t.slot die j.slot).seq = (u.slot die j.slot).seq + 1 := by
  have hexec : exec (.jobStart die e) s = .next (u.startJob die e v x j) := by
    change execJobStart die e s = _
    simp [execJobStart, hpop, he, hfree, hclock, htake, hclaim]
  obtain ⟨⟨hjob, hbegan, hpc, hended, hnone⟩, hbusy, hseq⟩ := u.startJob_starts die e v x j rfl
  exact ⟨_, hexec, hjob, hbegan, hpc, hended, hnone, hbusy, hseq⟩

/-! ## The end of a job and its fault (R124, R128, R135) -/

/-- A job that ends leaves its engine without one, to look for the next at the end of its cycles. -/
theorem State.finishJob_frees (s : State) (die e : Nat) (j : RunJob) :
    ((s.finishJob die e j).eng die e).job = none ∧
      ((s.finishJob die e j).eng die e).wakeAt = some ((s.eng die e).endsAt die) := by
  unfold State.finishJob
  extract_lets y x written handed fresh freed
  have hfreed : (freed.eng die e).job = none ∧ (freed.eng die e).wakeAt = some (y.endsAt die) := by
    unfold freed
    rw [State.eng_setEng]
    exact ⟨rfl, rfl⟩
  have hlast : JobsStay freed (if die = 0 then freed else freed.standingSources die) :=
    .ite (.refl freed) ((JobsStay.refl freed).standingSources die)
  rw [hlast.runs die e]
  exact hfreed

theorem Engine.RunsOn.endsAt {x y : Engine} (h : x.RunsOn y) (die : Nat) : y.endsAt die = x.endsAt die := by
  rw [h]
  rfl

theorem jobEnd_gives {s : State} {die e : Nat} {j : RunJob} (hjob : (s.eng die e).job = some j)
    (hclock : (s.die die).halted = false) (hran : (s.eng die e).ran = true)
    (hcome : s.hasCome die ((s.eng die e).endsAt die) = true) :
    Gives (.jobEnd die e) s fun t =>
      (t.eng die e).job = none ∧ (t.eng die e).wakeAt = some ((s.eng die e).endsAt die) := by
  have hends {u : State} (hu : JobsStay s u) :
      ((u.finishJob die e j).eng die e).job = none ∧
        ((u.finishJob die e j).eng die e).wakeAt = some ((s.eng die e).endsAt die) := by
    rw [← (hu.runs die e).endsAt]
    exact u.finishJob_frees die e j
  refine ⟨_, rfl, ?_⟩
  dsimp only
  rw [hjob]
  dsimp only
  rw [if_neg (by simp [hclock, hran, hcome])]
  split
  · exact hends ((JobsStay.refl s).templateJob ..)
  · split
    · exact hends ((JobsStay.refl s).customJob ..)
    · exact hends (.refl s)

theorem engineFault_gives {s : State} {die e : Nat} {k : EngFault} {j : RunJob} (hjob : (s.eng die e).job = some j)
    (hfault : k = .ecc ∨ s.descW die j.desc < (s.eng die e).cycles) :
    Gives (.engineFault die e k) s fun t =>
      (t.eng die e).job = none ∧ (t.slot die j.slot).busy = false ∧
        ∀ c, chanSlot die j.slot = some c → t.latched c = true := by
  refine ⟨_, rfl, ?_⟩
  dsimp only
  rw [hjob]
  dsimp only
  rw [if_pos hfault]
  generalize hstopped : (s.setSlot die j.slot { s.slot die j.slot with busy := false }).setEng die e _ = stopped
  have hlatched : JobsStay stopped (stopped.latchSlot die j.slot 6 0) := (JobsStay.refl stopped).latchSlot ..
  refine ⟨?_, ?_, fun c hc => State.latchSlot_latches hc 6 0⟩
  · rw [hlatched.runs die e, ← hstopped, State.eng_setEng]
  · rw [hlatched.busy, ← hstopped]
    exact congrArg Slot.busy (State.slot_setSlot ..)

/-! ## The descriptor library and the curve tables (R121, R122, R126) -/

/-- Every code is refused at one of the stages (R452). -/
theorem stageOf_mem (code : Nat) : stageOf code ∈ stages false := by
  unfold stageOf
  repeat' split
  all_goals decide

/-- Where no check of a range fails, its last, which gives its own codes, passes. -/
theorem firstBad_none_last {l : List Nat} {cs : List Check'} {f : Nat → Nat}
    (h : firstBad l (cs ++ [⟨none, f⟩]) = none) {e : Nat} (he : e ∈ l) : f e = 0 := by
  unfold firstBad at h
  simp only [List.findSome?_eq_none_iff, Option.map_eq_none_iff, List.find?_eq_none] at h
  have hlast := h _ (stageOf_mem (f e)) e he ⟨none, f⟩ (List.mem_append_right cs List.mem_cons_self)
  by_contra hne
  simp [Check'.failsAt, hne] at hlast

theorem State.AcceptsBlob.own_passes {s : State} {src : Src} {i j e : Nat} {b : List Byte} {own : State → Nat → Nat}
    (h : s.AcceptsBlob src i j [e] b own) : own (s.atRequest src) e = aDone :=
  firstBad_none_last (cs := [_, _, _, _]) h.passes List.mem_cons_self

theorem dieAt_dieI {die : Nat} (h : die ≤ 6) : dieAt (dieI die) = die := by
  unfold dieAt dieI siteI dev
  split
  · rw [if_pos rfl]
    omega
  · rw [if_neg (by omega)]
    omega

theorem State.desc_of_same {s t : State} (h : State.Same .descs s t) (die id : Nat) :
    t.desc die id = s.desc die id := by
  rw [State.desc, State.desc, show t.descs = s.descs from h]

theorem State.libraryRoom_of_same {s t : State} (hreg : State.Same (.reg 0x2505) s t) (hdesc : State.Same .descs s t)
    (die id : Nat) : t.libraryRoom die id = s.libraryRoom die id := by
  rw [State.libraryRoom, State.libraryRoom, State.rdN, State.rdN, hreg, State.desc_of_same hdesc]

/-- A descriptor that passes the checks of R122 fits into the library's room. -/
theorem State.descriptorOk_fits {s : State} {die : Nat} {b : List Byte} (h : s.descriptorOk die b = true) :
    descSize (hdrLen b) ≤ s.libraryRoom die (hdrId b) := by
  simp only [State.descriptorOk, Bool.and_eq_true, decide_eq_true_eq] at h
  exact h.2

theorem descriptorOk_of_check {s : State} {e : Nat} {b : List Byte} (h : descriptorCheck b s e = aDone) :
    s.descriptorOk (dieAt e) b = true := by
  unfold descriptorCheck at h
  split at h
  · exact absurd h (by decide)
  · split at h
    · assumption
    · exact absurd h (by decide)

/-- What a request's execution finds of a part that neither the request nor the waking of a die touches. -/
theorem State.touch_atRequest_same {p : Part} (s : State) (src : Src) (e : Nat)
    (hp : p ∉ [.reg 0x1200, .reg 0x1210, .reg 0x3101, .units, .dies, .net]) :
    State.Same p s ((s.atRequest src).touch e) :=
  State.touch_same (notMem_of hp (by decide)) ((s.atRequest_sameButNet src).frame p (notMem_of hp (by decide)))

theorem descriptorLoad_gives {s : State} {src : Src} {die : Nat} {b : List Byte} (hdie : die ≤ 6)
    (hacc : s.AcceptsBlob src 0x2505 1 [dieI die] b (descriptorCheck b)) :
    Gives (.descriptorLoad src die b) s fun t =>
      t.desc die (hdrId b) = ⟨hdrKind b, hdrLen b, hdrW b, opWords b, true⟩ ∧
        t.rd 0x2505 3 (dieI die) = s.libraryRoom die (hdrId b) - descSize (hdrLen b) := by
  have hok := descriptorOk_of_check hacc.own_passes
  rw [dieAt_dieI hdie] at hok
  have hroom (u : State) (hreg : State.Same (.reg 0x2505) s u) (hdesc : State.Same .descs s u) :
      u.libraryRoom die (hdrId b) = s.libraryRoom die (hdrId b) := State.libraryRoom_of_same hreg hdesc die _
  have hrequest := (s.atRequest_sameButNet src).frame
  have hfits : descSize (hdrLen b) ≤ s.libraryRoom die (hdrId b) := by
    rw [← hroom (s.atRequest src) (hrequest _ (by decide)) (hrequest _ (by decide))]
    exact State.descriptorOk_fits hok
  have hnet := State.writeBlob_ok (eff := descriptorSet b) hacc
  refine ⟨_, rfl, ?_, ?_⟩
  · rw [State.desc_of_same (hnet.frame .descs (by decide))]
    change State.desc (descriptorSet b _ _) _ _ = _
    rw [descriptorSet, dieAt_dieI hdie]
    exact State.desc_setDesc ..
  · rw [hnet.frame (.reg 0x2505) (by decide)]
    change State.rd (descriptorSet b _ _) _ _ _ = _
    rw [descriptorSet, dieAt_dieI hdie, State.rd_wr_self,
      hroom _ (s.touch_atRequest_same src _ (by decide)) (s.touch_atRequest_same src _ (by decide)), Nat.cast_sub hfits]

theorem removeSet_removes {die id : Nat} (s : State) (hdie : die ≤ 6) :
    ((removeSet id s (dieI die)).desc die id).loaded = false := by
  unfold removeSet
  rw [dieAt_dieI hdie]
  extract_lets n slots removed
  split
  case isTrue =>
    have hsame : State.Same .descs removed ((removed.replaceIds die).admitAfter die slots) :=
      State.admitAfter_same (by decide) (State.replaceIds_same rfl (by decide) (.refl .descs removed))
    rw [State.desc_of_same hsame]
    exact congrArg Desc.loaded (State.desc_setDesc ..)
  case isFalse hnone => exact Bool.eq_false_iff.2 hnone

theorem descriptorRemove_gives {s : State} {src : Src} {die id : Nat} (hdie : die ≤ 6)
    (hacc : s.Accepts src 0x2505 2 [dieI die] id (removeCheck id)) :
    Gives (.descriptorRemove src die id) s fun t => (t.desc die id).loaded = false := by
  have hnet := State.writeObj_ok (eff := removeSet id) hacc
  refine ⟨_, rfl, ?_⟩
  beta_reduce
  rw [State.desc_of_same (hnet.frame .descs (by decide))]
  exact removeSet_removes _ hdie

theorem curveTableLoad_gives {s : State} {src : Src} {die k : Nat} {b : List Byte}
    (hacc : s.AcceptsBlob src 0x2507 (k + 1) [dieI die] b (curveCheck 0x2507 (k + 1) b)) :
    Gives (.curveTableLoad src die k b) s fun t => t.rdB 0x2507 (k + 1) (dieI die) = b := by
  have hnet := State.writeBlob_ok (eff := fun s e => s.wrB 0x2507 (k + 1) e b) hacc
  refine ⟨_, rfl, ?_⟩
  beta_reduce
  rw [hnet.frame (.blob 0x2507) (by decide)]
  exact State.rdB_wrB_self ..

/-- Settles O27: a release stands in its slot, a job's engine is read off its start, its end and its fault, since
latches leave what runs, and an accepted load or remove is read off the library. -/
theorem releasesJobsDescriptors : Obligations.ReleasesJobsDescriptors := by
  refine ⟨?release, ?start, ?finish, ?fault, ?load, ?remove, ?curve⟩
  case release =>
    intro die k given s hactive hdue
    exact (release_gives given hactive hdue).framed fun k hk => execRelease_same hk (.refl k s)
  case start =>
    intro die e v x j u s hpop he hfree hclock htake hclaim
    exact (jobStart_gives hpop he hfree hclock htake hclaim).framed fun k hk => execJobStart_same hk (.refl k s)
  case finish =>
    intro die e j s hjob hclock hran hcome
    exact (jobEnd_gives hjob hclock hran hcome).framed fun k hk => execJobEnd_same hk (.refl k s)
  case fault =>
    intro die e k j s hjob hfault
    exact (engineFault_gives hjob hfault).framed fun k hk => execEngineFault_same hk (.refl k s)
  case load =>
    intro src die b s hdie hacc
    exact (descriptorLoad_gives hdie hacc).framed fun k hk => execDescriptorLoad_same hk (.refl k s)
  case remove =>
    intro src die id s hdie hacc
    exact (descriptorRemove_gives hdie hacc).framedHidden fun k hk hr => execDescriptorRemove_same hr hk (.refl k s)
  case curve =>
    intro src die k b s hacc
    exact (curveTableLoad_gives hacc).framed fun k hk => execCurveTableLoad_same hk (.refl k s)

end Sys2Proof.Machine
end

section
/-! SUPPORT. What a first latch shows: its cause stands on its channel, since the latches of the gang that follow write
the registers of other channels alone. -/

namespace Sys2Proof.Machine

/-! ## The cause of a latch (R505, R506) -/

theorem OnlyInstance.refl (i e : Nat) (s : State) : OnlyInstance i e s s := fun _ _ _ => rfl

theorem OnlyInstance.trans {i e : Nat} {a s t : State} (h : OnlyInstance i e a s) (g : OnlyInstance i e s t) :
    OnlyInstance i e a t :=
  fun j x hx => (g j x hx).trans (h j x hx)

theorem OnlyInstance.of_same {i e : Nat} {s t : State} (h : State.Same (.reg i) s t) : OnlyInstance i e s t :=
  fun j x _ => h j x

theorem OnlyInstance.wr {i e : Nat} {a s : State} (h : OnlyInstance i e a s) (j : Nat) (v : Int) :
    OnlyInstance i e a (s.wr i j e v) :=
  h.trans fun _ _ hx => State.rd_wr_ne s v (by simp [hx])

/-- The registers of a first latch are those of its own channel. -/
theorem State.latchRegs_only (s : State) (c cause arg corr : Nat) :
    OnlyInstance 0x6010 c s (s.latchRegs c cause arg corr) :=
  (((((((OnlyInstance.refl 0x6010 c s).wr 1 _).wr 2 _).wr 3 _).wr 4 _).wr 5 _).wr 6 _).wr 8 _

/-- The registers of a first latch show it and its cause (R505). -/
theorem State.latchRegs_latchedBy (s : State) (c cause arg corr : Nat) :
    (s.latchRegs c cause arg corr).LatchedBy c cause :=
  ⟨s.latchRegs_latched c cause arg corr, by simp [State.latchRegs, State.inc, State.rd_wr]⟩

theorem State.LatchedBy.of_same {s t : State} {c cause : Nat} (h : s.LatchedBy c cause)
    (e : State.Same (.reg 0x6010) s t) : t.LatchedBy c cause :=
  ⟨(State.latched_of_same e c).trans h.1, (e 2 c).trans h.2⟩

/-- What only writes the latch registers of another channel leaves a latch with its cause. -/
theorem State.LatchedBy.of_only {s t : State} {c m cause : Nat} (h : s.LatchedBy c cause)
    (e : OnlyInstance 0x6010 m s t) (hm : c ≠ m) : t.LatchedBy c cause :=
  ⟨by rw [State.latched, e 1 c hm]; exact h.1, (e 2 c hm).trans h.2⟩

/-- After its latch registers, a first latch notes the event, drops the jobs and ends the run: the registers stay. -/
theorem State.latchEnd_same (s : State) (c corr : Nat) (data : List Byte) :
    State.Same (.reg 0x6010) s
      (((s.raise (dieOf c) c 0x2001 data corr).dropJobs (dieOf c) (localOf c)).endByLatch c) :=
  State.endByLatch_same (by decide) (State.dropJobs_same (by decide) (State.raise_same (by decide) (.refl _ s)))

/-- A latch writes the latch registers of its own channel alone. -/
theorem State.latchOne_only (s : State) (c cause arg corr : Nat) :
    OnlyInstance 0x6010 c s (s.latchOne c cause arg corr) := by
  cases h : s.latched c
  case true =>
    rw [State.latchOne_of_latched h]
    exact (OnlyInstance.of_same (State.setChan_same (by decide) (.refl _ s))).wr 6 _
  case false =>
    rw [State.latchOne_of_free h]
    have hoff : State.Same (.reg 0x6010) s ((s.setChan c { s.chan c with causeAt := some s.clock.cnt }).gatesOff c) :=
      State.gatesOff_same (by decide) (State.setChan_same (by decide) (.refl _ s))
    exact ((OnlyInstance.of_same hoff).trans (State.latchRegs_only _ c cause arg corr)).trans
      (.of_same (State.latchEnd_same _ c corr _))

/-- A channel that was free shows the latch and its cause. -/
theorem State.latchOne_latchedBy {s : State} {c : Nat} (h : s.latched c = false) (cause arg corr : Nat) :
    (s.latchOne c cause arg corr).LatchedBy c cause := by
  rw [State.latchOne_of_free h]
  exact (State.latchRegs_latchedBy _ c cause arg corr).of_same (State.latchEnd_same _ c corr _)

/-- A free channel latched with its gang shows its own cause: the gang's members are other channels (R73). -/
theorem State.latchChans_latchedBy {s : State} {c : Nat} (h : s.latched c = false) (cause arg corr : Nat) :
    (s.latchChans [c] cause arg corr).LatchedBy c cause := by
  have hother {m : Nat} (hm : m ∈ (([c].flatMap s.gang).filter fun m => !List.contains [c] m).eraseDups) : c ≠ m := by
    rintro rfl
    simpa using (List.mem_filter.1 (List.mem_eraseDups.1 hm)).2
  refine each_induct (r := fun y => y.LatchedBy c cause) (State.latchOne_latchedBy h cause arg corr) fun y m hm hy => ?_
  have hone : (y.latchOne m 3 0 corr).LatchedBy c cause := hy.of_only (y.latchOne_only m 3 0 corr) (hother hm)
  exact hone.of_same (State.wr_same (by decide) (.refl _ _))

/-- A free channel that its die latches shows the cause. -/
theorem State.latchNew_latchedBy {s : State} {c : Nat} (h : s.latched c = false) (cause arg : Nat) :
    (s.latchNew c cause arg).LatchedBy c cause :=
  State.latchChans_latchedBy ((State.latched_of_same (State.openCorr_same (by decide) (.refl _ s)) c).trans h) ..

end Sys2Proof.Machine
end

section
/-! The statement on the supervision that latches a channel: stale samples, following error, voltage limit and
plausibility against the metrology. -/

namespace Sys2Proof.Machine

/-! ## Loop supervision (R153, R157, R158) -/

theorem samplesStale_gives {s : State} {c x : Nat} (hpop : s.chanPop c = true) (hstale : (s.chan c).sup.stale = some x)
    (hlimit : x + s.rdN 0x2441 5 c * 1000 < s.lt) (hfree : s.latched c = false) :
    Gives (.samplesStale c) s fun t => t.LatchedBy c 8 := by
  have hexec : exec (.samplesStale c) s = .next (if s.chanPop c ∧ x + s.rdN 0x2441 5 c * 1000 < s.lt ∧ !s.latched c
      then s.latchNew c 8 0 else s) := by
    change execSamplesStale c s = _
    rw [execSamplesStale, hstale]
  exact .of_guard hexec ⟨hpop, hlimit, by simp [hfree]⟩ (State.latchNew_latchedBy hfree 8 0)

theorem followingError_gives {s : State} {c : Nat} (hpop : s.chanPop c = true)
    (hfollow : (s.chan c).sup.follow.isSome = true) (htime : s.rd 0x2441 3 c ≤ s.rd 0x2444 8 c)
    (hfree : s.latched c = false) : Gives (.followingError c) s fun t => t.LatchedBy c 9 :=
  .of_guard rfl ⟨hpop, hfollow, htime, by simp [hfree]⟩ (State.latchNew_latchedBy hfree 9 0)

theorem voltageLimit_gives {s : State} {c : Nat} (hpop : s.chanPop c = true)
    (hlimit : (s.chan c).sup.vLimit.isSome = true) (hrun : 1000000 ≤ (s.chan c).sup.vRun)
    (hfree : s.latched c = false) : Gives (.voltageLimit c) s fun t => t.LatchedBy c 10 :=
  .of_guard rfl ⟨hpop, hlimit, hrun, by simp [hfree]⟩ (State.latchNew_latchedBy hfree 10 0)

/-! ## Control against metrology (R165, R166) -/

/-- The fault of the plausibility test before its latch (R165): counted, shown in the status and entered in the trail,
under a new correlation ID. -/
def State.plausFault (s : State) (c : Nat) : State :=
  let counted := (s.openCorr (dieOf c)).inc 0x2443 5 c
  let shown := counted.wr 0x2443 1 c (setBit (counted.rdN 0x2443 1 c) 2)
  shown.raise (dieOf c) c 0x2006 (shown.plausData c) (s.corrId (dieOf c))

theorem State.plausFault_shows (s : State) (c : Nat) :
    bit ((s.plausFault c).rdN 0x2443 1 c) 2 = true ∧
      (s.plausFault c).rd 0x2443 5 c = (s.rd 0x2443 5 c + 1) % 2 ^ 32 := by
  unfold State.plausFault
  have hopen : State.Same (.reg 0x2443) s (s.openCorr (dieOf c)) := State.openCorr_same (by decide) (.refl _ s)
  have hraise (y : State) (data : List Byte) (corr : Nat) :
      State.Same (.reg 0x2443) y (y.raise (dieOf c) c 0x2006 data corr) := State.raise_same (by decide) (.refl _ y)
  constructor
  · rw [State.rdN, hraise _ _ _ 1 c, State.rd_wr_self, Int.toNat_natCast]
    exact bit_setBit_self ..
  · rw [hraise _ _ _ 5 c, State.rd_wr_ne _ _ (by simp), State.inc, State.rd_wr_self, hopen 5 c]

theorem State.plausFault_latched (s : State) (c : Nat) : (s.plausFault c).latched c = s.latched c :=
  State.latched_of_same (State.raise_same (by decide) (State.wr_same (by decide) (State.inc_same (by decide)
    (State.openCorr_same (by decide) (.refl _ s))))) c

/-- The latch that follows the fault leaves the test's registers. -/
theorem plausibilityFault_gives {s : State} {c : Nat} (hpop : s.chanPop c = true)
    (hdisagree : (s.chan c).sup.disagree.isSome = true) (htime : 100 ≤ s.rd 0x2443 4 c) (hfree : s.latched c = false) :
    Gives (.plausibilityFault c) s fun t =>
      t.LatchedBy c 11 ∧ bit (t.rdN 0x2443 1 c) 2 = true ∧ t.rd 0x2443 5 c = (s.rd 0x2443 5 c + 1) % 2 ^ 32 := by
  have hregs : State.Same (.reg 0x2443) (s.plausFault c)
      ((s.plausFault c).latchChans [c] 11 0 (s.corrId (dieOf c))) := State.latchChans_same (by decide) (.refl _ _)
  refine .of_guard (t := (s.plausFault c).latchChans [c] 11 0 (s.corrId (dieOf c))) rfl
    ⟨hpop, hdisagree, htime, by simp [hfree]⟩
    ⟨State.latchChans_latchedBy ((s.plausFault_latched c).trans hfree) .., ?_⟩
  rw [State.rdN, hregs 1 c, hregs 5 c]
  exact s.plausFault_shows c

/-- A channel whose comparisons have stopped (R166): the disagreement and its time end, the status says so, and the
trail has its entry. -/
def State.plausLost (s : State) (c : Nat) : State :=
  let ended := s.setChan c { s.chan c with sup := { (s.chan c).sup with disagree := none } }
  let shown := (ended.wr 0x2443 1 c (setBit (ended.rdN 0x2443 1 c) 3)).wr 0x2443 4 c 0
  shown.noteAt (dieOf c) c 0x2006 (shown.plausData c)

theorem State.plausLost_shows (s : State) (c : Nat) :
    bit ((s.plausLost c).rdN 0x2443 1 c) 3 = true ∧ (s.plausLost c).rd 0x2443 4 c = 0 ∧
      ((s.plausLost c).chan c).sup.disagree = none := by
  unfold State.plausLost
  have hregs (y : State) (data : List Byte) : State.Same (.reg 0x2443) y (y.noteAt (dieOf c) c 0x2006 data) :=
    State.noteAt_same (by decide) (.refl _ y)
  have hchans (y : State) (data : List Byte) : State.Same .chans y (y.noteAt (dieOf c) c 0x2006 data) :=
    State.noteAt_same (by decide) (.refl _ y)
  refine ⟨?_, ?_, ?_⟩
  · rw [State.rdN, hregs _ _ 1 c, State.rd_wr_ne _ _ (by simp), State.rd_wr_self, Int.toNat_natCast]
    exact bit_setBit_self ..
  · rw [hregs _ _ 4 c, State.rd_wr_self]
  · rw [State.chan_of_same (hchans _ _), State.chan_wr, State.chan_wr, State.chan_setChan]

theorem plausibilityUnavailable_gives {s : State} {c x : Nat} (hpop : s.chanPop c = true)
    (hmirror : (s.chan c).sup.noMirror = some x) (htime : x + 1000000000 ≤ s.lt)
    (hruns : s.switching c = true ∨ s.resting c = true) (hshown : bit (s.rdN 0x2443 1 c) 3 = false) :
    Gives (.plausibilityUnavailable c) s fun t =>
      bit (t.rdN 0x2443 1 c) 3 = true ∧ t.rd 0x2443 4 c = 0 ∧ (t.chan c).sup.disagree = none := by
  have hexec : exec (.plausibilityUnavailable c) s = .next (if s.chanPop c ∧ x + 1000000000 ≤ s.lt ∧
      (s.switching c ∨ s.resting c) ∧ !bit (s.rdN 0x2443 1 c) 3 then s.plausLost c else s) := by
    change execPlausibilityUnavailable c s = _
    rw [execPlausibilityUnavailable, hmirror]
    rfl
  exact .of_guard hexec ⟨hpop, htime, hruns, by simp [hshown]⟩ (s.plausLost_shows c)

/-- Settles O32: each supervision latches a free channel, whose cause no latch of its gang overwrites, and the
plausibility test's registers stand through the entry and the latch. -/
theorem channelSupervision : Obligations.ChannelSupervision := by
  refine ⟨?stale, ?follow, ?limit, ?fault, ?unavailable⟩
  case stale =>
    intro c x s hpop hstale hlimit hfree
    exact (samplesStale_gives hpop hstale hlimit hfree).framed fun k hk => execSamplesStale_same hk (.refl k s)
  case follow =>
    intro c s hpop hfollow htime hfree
    exact (followingError_gives hpop hfollow htime hfree).framed fun k hk => execFollowingError_same hk (.refl k s)
  case limit =>
    intro c s hpop hlimit hrun hfree
    exact (voltageLimit_gives hpop hlimit hrun hfree).framed fun k hk => execVoltageLimit_same hk (.refl k s)
  case fault =>
    intro c s hpop hdisagree htime hfree
    exact (plausibilityFault_gives hpop hdisagree htime hfree).framed fun k hk =>
      execPlausibilityFault_same hk (.refl k s)
  case unavailable =>
    intro c x s hpop hmirror htime hruns hshown
    exact (plausibilityUnavailable_gives hpop hmirror htime hruns hshown).framed fun k hk =>
      execPlausibilityUnavailable_same hk (.refl k s)

end Sys2Proof.Machine
end

section
/-! SUPPORT. What an operation at each of distinct channels leaves behind, and the run states that a channel enters
together with its gang. -/

namespace Sys2Proof.Machine

/-! ## Operations at distinct elements -/

/-- Of distinct elements, each operation finds what held of its element before the list, and what it brings about stands
after the list: the operations of the others leave both. -/
theorem each_nodup_reaches {α : Type} {p q : α → State → Prop} {l : List α} {f : State → α → State} {s : State}
    (hl : l.Nodup) (hs : ∀ z ∈ l, q z s) (hset : ∀ x ∈ l, ∀ y, q x y → p x (f y x))
    (hfinds : ∀ z ∈ l, ∀ y x, z ≠ x → q z y → q z (f y x)) (hkeeps : ∀ z ∈ l, ∀ y x, z ≠ x → p z y → p z (f y x)) :
    ∀ z ∈ l, p z (each l f s) := by
  induction l generalizing s with
  | nil => nofun
  | cons x l ih =>
    obtain ⟨hx, hl⟩ := List.nodup_cons.1 hl
    obtain ⟨hsx, hsl⟩ := List.forall_mem_cons.1 hs
    obtain ⟨hsetx, hsetl⟩ := List.forall_mem_cons.1 hset
    obtain ⟨-, hfindsl⟩ := List.forall_mem_cons.1 hfinds
    obtain ⟨hkeepsx, hkeepsl⟩ := List.forall_mem_cons.1 hkeeps
    have hne : ∀ z ∈ l, z ≠ x := fun z hz h => hx (h ▸ hz)
    refine List.forall_mem_cons.2 ⟨?_, ?_⟩
    · exact each_induct (l := l) (r := p x) (hsetx s hsx) fun y w hw hy => hkeepsx y w (hne w hw).symm hy
    · exact ih hl (fun z hz => hfindsl z hz s x (hne z hz) (hsl z hz)) hsetl hfindsl hkeepsl

theorem chanRange_nodup (first last : Nat) : (chanRange first last).Nodup :=
  List.nodup_range.map fun _ _ h => Nat.add_left_cancel h

theorem State.sites_nodup (s : State) : s.sites.Nodup :=
  (List.nodup_range.sublist (List.drop_sublist 1 _)).filter _

theorem dieOf_chanOf {n k : Nat} (hn : 1 ≤ n) (hk : k < 64) : dieOf (chanOf n k) = n := by
  unfold dieOf chanOf
  omega

/-- The channels of different sites differ, since a channel names its die. -/
theorem State.channels_nodup (s : State) : s.channels.Nodup := by
  have hdie {n c : Nat} (hn : n ∈ s.sites) (hc : c ∈ (List.range 64).map (chanOf n)) : dieOf c = n := by
    obtain ⟨k, hk, rfl⟩ := List.mem_map.1 hc
    obtain ⟨-, hpop⟩ := List.mem_filter.1 hn
    obtain ⟨hpos, -⟩ := (s.sitePop_iff n).1 hpop
    exact dieOf_chanOf hpos (List.mem_range.1 hk)
  refine List.nodup_flatMap.2 ⟨fun n _ => List.nodup_range.map fun _ _ h => Nat.add_left_cancel h, ?_⟩
  refine s.sites_nodup.imp_of_mem fun {m n} hm hn hmn c hcm hcn => hmn ?_
  rw [← hdie hm hcm, hdie hn hcn]

/-! ## Runs and gangs -/

theorem State.same_touch {p : Part} (s : State) (e : Nat)
    (hp : p ∉ [.reg 0x1200, .reg 0x1210, .reg 0x3101, .units, .dies]) : State.Same p s (s.touch e) :=
  State.touch_same hp (.refl p s)

theorem State.runState_of_same {s t : State} (h : State.Same (.reg 0x2402) s t) (c : Nat) :
    t.runState c = s.runState c := by
  rw [State.runState, State.runState, State.rdN, State.rdN, h]

theorem State.run_of_same {s t : State} (h : State.Same .chans s t) (c : Nat) : t.run c = s.run c := by
  rw [State.run, State.run, State.chan_of_same h]

theorem State.master_of_same {s t : State} (h : State.Same (.reg 0x2802) s t) (c : Nat) :
    t.master c = s.master c := by
  rw [State.master, State.master, State.gang_of_same h]

theorem State.group_of_same {s t : State} (h : State.Same .groups s t) (g : Nat) : t.group g = s.group g := by
  rw [State.group, State.group, show t.groups = s.groups from h]

@[simp] theorem State.run_setRunSt (s : State) (c : Nat) (r : RunSt) : (s.setRunSt c r).run c = r := by
  simp [State.run, State.setRunSt]

theorem State.run_setRunSt_ne (s : State) {c m : Nat} (r : RunSt) (h : m ≠ c) : (s.setRunSt c r).run m = s.run m := by
  rw [State.run, State.setRunSt, State.chan_setChan_ne _ _ h, State.run]

theorem State.mem_gang (s : State) (c : Nat) : c ∈ s.gang c := by
  unfold State.gang
  extract_lets q
  split
  case h_1 g hg =>
    have hplace : c % 4 ∈ g := by simpa using List.find?_some hg
    refine List.mem_map.2 ⟨c % 4, hplace, ?_⟩
    unfold chanOf dieOf q localOf
    omega
  case h_2 => exact List.mem_singleton_self c

theorem State.runState_wr (s : State) (c m v : Nat) :
    (s.wr 0x2402 1 c v).runState m = if m = c then v else s.runState m := by
  simp [State.runState, State.rdN_wr]

/-- A channel enters a run state, and others with it or not; of the rest of 0x2402 its own registers alone change. -/
structure EntersRun (c v : Nat) (s t : State) : Prop where
  state : t.runState c = v
  states : ∀ m, s.runState m = v → t.runState m = v
  others : ∀ j m, j ≠ 1 → m ≠ c → t.rd 0x2402 j m = s.rd 0x2402 j m

theorem State.setRun_enters (s : State) (c v : Nat) : EntersRun c v s (s.setRun c v) where
  state := by
    refine each_reaches (inv := fun _ => True) (p := fun m y => y.runState m = v) (fun _ _ _ => trivial) ?_ ?_ trivial
      (.inl (s.mem_gang c))
    · intro y m _
      rw [State.runState_wr, if_pos rfl]
    · intro y m z hz
      rw [State.runState_wr, hz, ite_self]
  states m hm := by
    refine each_induct (r := fun y => y.runState m = v) hm fun y z _ hy => ?_
    rw [State.runState_wr, hy, ite_self]
  others j m hj _ := each_keep (fun y => y.rd 0x2402 j m) _ _ (fun y z => y.rd_wr_ne _ (by simp [hj])) s

namespace EntersRun

variable {c v : Nat} {s t : State}

theorem of_same {u : State} (h : EntersRun c v s t) (e : State.Same (.reg 0x2402) t u) : EntersRun c v s u where
  state := (State.runState_of_same e c).trans h.state
  states m hm := (State.runState_of_same e m).trans (h.states m hm)
  others j m hj hm := (e j m).trans (h.others j m hj hm)

theorem after {a : State} (h : EntersRun c v s t) (e : State.Same (.reg 0x2402) a s) : EntersRun c v a t where
  state := h.state
  states m hm := h.states m ((State.runState_of_same e m).trans hm)
  others j m hj hm := (h.others j m hj hm).trans (e j m)

theorem wr (h : EntersRun c v s t) {j : Nat} (hj : j ≠ 1) (x : Int) : EntersRun c v s (t.wr 0x2402 j c x) := by
  have hrun (m : Nat) : (t.wr 0x2402 j c x).runState m = t.runState m := by
    rw [State.runState, State.rdN, State.rd_wr_ne _ _ (by simp [hj.symm]), State.runState, State.rdN]
  refine ⟨(hrun c).trans h.state, fun m hm => (hrun m).trans (h.states m hm), fun k m hk hm => ?_⟩
  rw [State.rd_wr_ne _ _ (by simp [hm]), h.others k m hk hm]

end EntersRun

/-- A channel shows a run state, a row, and a value in one register more of its run. -/
structure State.ShowsRun (t : State) (c v j : Nat) (row x : Int) : Prop where
  state : t.runState c = v
  row : t.rd 0x2402 2 c = row
  value : t.rd 0x2402 j c = x

namespace State.ShowsRun

variable {s t : State} {c v j : Nat} {row x : Int}

theorem of_same (h : s.ShowsRun c v j row x) (e : State.Same (.reg 0x2402) s t) : t.ShowsRun c v j row x :=
  ⟨(State.runState_of_same e c).trans h.state, (e 2 c).trans h.row, (e j c).trans h.value⟩

/-- It still does when another channel enters the same run state. -/
theorem of_enters (h : s.ShowsRun c v j row x) {m : Nat} (e : EntersRun m v s t) (hj : j ≠ 1) (hc : c ≠ m) :
    t.ShowsRun c v j row x :=
  ⟨e.states c h.state, (e.others 2 c (by decide) hc).trans h.row, (e.others j c hj hc).trans h.value⟩

end State.ShowsRun

end Sys2Proof.Machine
end

section
/-! The statement on recipe loads, run commands, milestones and groups. -/

namespace Sys2Proof.Machine

/-! ## Recipe loads (R181, R182) -/

/-- One row of a recipe load: its twelve subentries from their place in the octets. -/
def recipeRow (b : List Byte) (base c : Nat) (s : State) (r : Nat) : State :=
  each (List.range 12) (fun s n => s.wr (0x2000 + base + r) (n + 1) c (fieldAt b (48 * r + 4 * n) 4)) s

theorem recipeSet_eq (b : List Byte) (s : State) (c : Nat) :
    recipeSet b s c = each (List.range (b.length / 48)) (recipeRow b (s.rdN 0x2400 2 c) c) s := rfl

theorem recipeRow_rd (b : List Byte) (base c : Nat) (s : State) (r : Nat) {n : Nat} (hn : n < 12) :
    (recipeRow b base c s r).rd (0x2000 + base + r) (n + 1) c = fieldAt b (48 * r + 4 * n) 4 := by
  refine each_nodup_reaches (q := fun _ _ => True)
    (p := fun n y => y.rd (0x2000 + base + r) (n + 1) c = fieldAt b (48 * r + 4 * n) 4) List.nodup_range
    (fun _ _ => trivial) (fun m _ y _ => State.rd_wr_self ..) (fun _ _ _ _ _ _ => trivial) ?_ n (List.mem_range.2 hn)
  intro m _ y k hmk hy
  rw [State.rd_wr_ne _ _ (by simp [hmk]), hy]

theorem recipeRow_rd_ne (b : List Byte) (base c : Nat) (s : State) (r : Nat) {i e : Nat} (j : Nat)
    (h : i ≠ 0x2000 + base + r ∨ e ≠ c) : (recipeRow b base c s r).rd i j e = s.rd i j e :=
  each_keep (fun y => y.rd i j e) _ _ (fun y n => y.rd_wr_ne _ (by simp only [ne_eq, Prod.mk.injEq]; omega)) s

/-- The rows of a load from octets stand in a channel's row objects, from a base row on. -/
def State.HasRows (t : State) (b : List Byte) (base c : Nat) : Prop :=
  ∀ r n, r < b.length / 48 → n < 12 → t.rd (0x2000 + base + r) (n + 1) c = fieldAt b (48 * r + 4 * n) 4

theorem recipeSet_hasRows (b : List Byte) (s : State) (c : Nat) :
    (recipeSet b s c).HasRows b (s.rdN 0x2400 2 c) c := by
  generalize hbase : s.rdN 0x2400 2 c = base
  intro r n hr hn
  rw [recipeSet_eq, hbase]
  refine each_nodup_reaches (q := fun _ _ => True)
    (p := fun r y => y.rd (0x2000 + base + r) (n + 1) c = fieldAt b (48 * r + 4 * n) 4) List.nodup_range
    (fun _ _ => trivial) (fun r _ y _ => recipeRow_rd b base c y r hn) (fun _ _ _ _ _ _ => trivial) ?_ r
    (List.mem_range.2 hr)
  intro r _ y k hrk hy
  rw [recipeRow_rd_ne b base c y k (n + 1) (.inl (by omega)), hy]

theorem recipeSet_rd_ne (b : List Byte) (s : State) {c m : Nat} (h : m ≠ c) (i j : Nat) :
    (recipeSet b s c).rd i j m = s.rd i j m :=
  each_keep (fun y => y.rd i j m) _ _ (fun y r => recipeRow_rd_ne b _ c y r j (.inr h)) s

/-- A recipe that passes its checks ends within the rows that a channel has (R182). -/
theorem recipeCheck_fits {n c : Nat} {s : State} (h : recipeCheck n s c = 0) : s.rdN 0x2400 2 c + n / 48 ≤ 1024 := by
  unfold recipeCheck at h
  split at h
  · exact absurd h (by decide)
  · split at h
    · exact absurd h (by decide)
    · omega

theorem recipeLoad_gives {s : State} {src : Src} {first last : Nat} {b : List Byte}
    (hacc : s.AcceptsBlob src 0x2400 1 (chanRange first last) b (recipeCheck b.length)) :
    Gives (.recipeLoad src first last b) s fun t => ∀ c ∈ chanRange first last, t.HasRows b (s.rdN 0x2400 2 c) c := by
  have hbase (c : Nat) : (s.atRequest src).rdN 0x2400 2 c = s.rdN 0x2400 2 c := by
    rw [State.rdN, (s.atRequest_sameButNet src).frame (.reg 0x2400) (by decide), State.rdN]
  have hfits : ∀ c ∈ chanRange first last, s.rdN 0x2400 2 c + b.length / 48 ≤ 1024 := fun c hc =>
    hbase c ▸ recipeCheck_fits (firstBad_none_last (cs := [_, _, _, _]) hacc.passes hc)
  have hnet := State.writeBlob_ok (eff := recipeSet b) hacc
  refine ⟨_, rfl, fun c hc r n hr hn => (hnet.frame (.reg _) (by simp) (n + 1) c).trans ?_⟩
  refine each_nodup_reaches (q := fun c y => y.rdN 0x2400 2 c = s.rdN 0x2400 2 c)
    (p := fun c y => y.HasRows b (s.rdN 0x2400 2 c) c) (chanRange_nodup first last) (fun c _ => hbase c)
    ?sets ?finds ?keeps c hc r n hr hn
  case sets =>
    intro x _ y hy
    have hrows := recipeSet_hasRows b (y.touch x) x
    rwa [State.rdN, y.same_touch x (p := .reg 0x2400) (by decide), ← State.rdN, hy] at hrows
  case finds =>
    intro z _ y x hzx hy
    rw [State.rdN, recipeSet_rd_ne b _ hzx, y.same_touch x (p := .reg 0x2400) (by decide), ← State.rdN, hy]
  case keeps =>
    intro z hz y x hzx hy r n hr hn
    have hindex : 0x2000 + s.rdN 0x2400 2 z + r < 0x2400 ∧ 0x2000 ≤ 0x2000 + s.rdN 0x2400 2 z + r := by
      have := hfits z hz
      omega
    have hwoken := y.same_touch x (p := .reg (0x2000 + s.rdN 0x2400 2 z + r)) (by simp; omega)
    rw [recipeSet_rd_ne b _ hzx, hwoken, hy r n hr hn]

/-! ## Run commands (R185, R186, R188) -/

/-- A start enters run state 1 and shows the start row and no step yet (R186). -/
theorem startSet_shows (s : State) (c : Nat) :
    EntersRun c 1 s (startSet s c) ∧ (startSet s c).ShowsRun c 1 5 (s.rd 0x2401 2 c) 0 := by
  unfold startSet
  extract_lets woken counters entered cleared
  have hbefore {k : Part} (hk : k ∉ [.reg 0x1200, .reg 0x1210, .reg 0x2403, .reg 0x2500, .reg 0x3101, .reg 0x6000,
      .clock, .units, .slots, .dies, .trail, .standbyDue]) : State.Same k s counters := by
    have hwoken : State.Same k s woken := State.wakeDie_same (notMem_of hk (by decide))
      (State.leaveStandby_same (notMem_of hk (by decide)) (.refl k s))
    have hcounter : k ∉ [.reg 0x2403] := notMem_of hk (by decide)
    exact State.wr_same hcounter (State.wr_same hcounter (State.wr_same hcounter (State.wr_same hcounter hwoken)))
  have hentered : EntersRun c 1 counters entered :=
    ((((counters.setRun_enters c 1).wr (by decide) _).wr (by decide) _).wr (by decide) _).wr (by decide) _
  have hcleared : EntersRun c 1 counters cleared :=
    ((hentered.wr (by decide) _).wr (by decide) _).of_same (State.wr_same (by decide) (.refl _ _))
  have hrow : cleared.rd 0x2402 2 c = s.rd 0x2401 2 c := by
    rw [← hbefore (k := .reg 0x2401) (by decide)]
    simp [cleared, entered, State.rd_wr]
  have hsteps : cleared.rd 0x2402 5 c = 0 := by simp [cleared, entered, State.rd_wr]
  have hend (r : RunSt) : State.Same (.reg 0x2402) cleared ((cleared.setRunSt c r).queueCheck c .runStart) :=
    State.queueCheck_same (by decide) (State.setRunSt_same (by decide) (.refl _ _))
  exact ⟨(hcleared.of_same (hend _)).after (hbefore (by decide)),
    State.ShowsRun.of_same ⟨hcleared.state, hrow, hsteps⟩ (hend _)⟩

theorem runStart_gives {s : State} {src : Src} {first last : Nat}
    (hacc : s.Accepts src 0x2401 1 (chanRange first last) 1 startCheck)
    (hpasses : s.writeChecks src 0x2401 1 (chanRange first last) 1 startCheck = none) :
    Gives (.runStart src first last) s fun t => ∀ c ∈ chanRange first last,
      t.runState c = 1 ∧ t.rd 0x2402 2 c = s.rd 0x2401 2 c ∧ t.rd 0x2402 5 c = 0 := by
  have hexec : exec (.runStart src first last) s =
      .next (s.writeObj src 0x2401 1 (chanRange first last) 1 startCheck startSet) := by
    change execRunStart src first last s = _
    rw [execRunStart, hpasses]
    rfl
  have hnet := State.writeObj_ok (eff := startSet) hacc
  have hstarted : ∀ c ∈ chanRange first last, (each (chanRange first last) (fun y x => startSet (y.touch x) x)
      (s.atRequest src)).ShowsRun c 1 5 (s.rd 0x2401 2 c) 0 := by
    refine each_nodup_reaches (q := fun c y => y.rd 0x2401 2 c = s.rd 0x2401 2 c)
      (p := fun c y => y.ShowsRun c 1 5 (s.rd 0x2401 2 c) 0) (chanRange_nodup first last)
      (fun c _ => (s.atRequest_sameButNet src).frame (.reg 0x2401) (by decide) 2 c) ?sets ?finds ?keeps
    case sets =>
      intro x _ y hy
      have hshows := (startSet_shows (y.touch x) x).2
      rwa [y.same_touch x (p := .reg 0x2401) (by decide), hy] at hshows
    case finds =>
      intro z _ y x _ hy
      have hsame : State.Same (.reg 0x2401) y (startSet (y.touch x) x) :=
        startSet_same (by decide) (y.same_touch x (by decide))
      rw [hsame, hy]
    case keeps =>
      intro z _ y x hzx hy
      exact (hy.of_same (y.same_touch x (by decide))).of_enters (startSet_shows (y.touch x) x).1 (by decide) hzx
  refine ⟨_, hexec, fun c hc => ?_⟩
  obtain ⟨hstate, hrow, hsteps⟩ := (hstarted c hc).of_same (hnet.frame _ (by decide))
  exact ⟨hstate, hrow, hsteps⟩

/-- A stop during the contact check waits for its result (R188). -/
theorem stopSet_checking {s : State} {c : Nat} (h : s.runState (s.master c) = 1) :
    ((stopSet s c).run (s.master c)).stopAfterCheck = true := by
  simp [stopSet, h]

/-- A stop of a step, or of its drain, wins over what ended it (R188). -/
theorem stopSet_running {s : State} {c : Nat} (h : s.runState (s.master c) = 2 ∨ s.runState (s.master c) = 3) :
    ((stopSet s c).run (s.master c)).winner.map (·.2) = some .hostStop := by
  obtain h | h := h
  · simp [stopSet, h]
  · simp [stopSet, h]

theorem runStop_gives {s : State} {src : Src} {c : Nat}
    (hacc : s.Accepts src 0x2401 1 (chanRange c c) 2 stopCheck) :
    Gives (.runStop src c c) s fun t =>
      (s.runState (s.master c) = 1 → (t.run (s.master c)).stopAfterCheck = true) ∧
      (s.runState (s.master c) = 2 ∨ s.runState (s.master c) = 3 →
        (t.run (s.master c)).winner.map (·.2) = some .hostStop) := by
  have hone : chanRange c c = [c] := by simp [chanRange, instRange]
  have hnet := State.writeObj_ok (eff := stopSet) hacc
  rw [hone] at hnet
  have hmaster : ((s.atRequest src).touch c).master c = s.master c :=
    State.master_of_same (s.touch_atRequest_same src c (by decide)) c
  have hstate : ((s.atRequest src).touch c).runState (s.master c) = s.runState (s.master c) :=
    State.runState_of_same (s.touch_atRequest_same src c (by decide)) _
  refine ⟨_, rfl, ?_⟩
  beta_reduce
  rw [hone, State.run_of_same (hnet.frame .chans (by decide)), ← hstate, ← hmaster]
  exact ⟨stopSet_checking, stopSet_running⟩

/-! ## Milestones (R190) -/

theorem milestoneClose_gives {s : State} {c x : Nat} (hpop : s.chanPop c = true) (hclose : (s.run c).closeLt = some x) :
    Gives (.milestoneClose c) s fun t => t = s.milestone c x := by
  refine ⟨_, rfl, ?_⟩
  simp [hpop, hclose]

/-! ## Groups (R194 to R196) -/

theorem State.epochFrom_of_same {s t : State} (h : State.Same (.reg 0x1101) s t) (lt : Nat) :
    t.epochFrom lt = s.epochFrom lt := by
  rw [State.epochFrom, State.epochFrom, State.epochNs, State.epochNs, State.rdN, State.rdN, h]

/-- A group's start falls due: state 2, and the epoch (R196). -/
theorem State.setDue_shows (s : State) (g e : Nat) :
    (s.setDue g e).rd 0x2406 (g + 1) dev = 2 ∧ (s.setDue g e).rd 0x2407 (g + 1) dev = e := by
  simp [State.setDue, State.rd_wr]

/-- The members of a list are detached from their group, each with its entry (R195). -/
def State.detach (s : State) (g : Nat) (l : List Nat) : State :=
  each l (fun s c => (s.wr 0x2404 2 c 1).noteAt (dieOf c) c 0x2007 (leNat 1 g)) s

theorem State.detach_same {k : Part} (s : State) (g : Nat) (l : List Nat)
    (hk : k ∉ [.reg 0x2404, .reg 0x6000, .dies, .trail]) : State.Same k s (s.detach g l) :=
  each_same (.refl k s) fun _ _ hy =>
    State.noteAt_same (notMem_of hk (by decide)) (State.wr_same (notMem_of hk (by decide)) hy)

theorem State.detach_detached (s : State) (g : Nat) {l : List Nat} {c : Nat} (hc : c ∈ l) :
    (s.detach g l).rd 0x2404 2 c = 1 := by
  have hone (y : State) (x z : Nat) : ((y.wr 0x2404 2 x 1).noteAt (dieOf x) x 0x2007 (leNat 1 g)).rd 0x2404 2 z =
      if z = x then 1 else y.rd 0x2404 2 z := by
    have hnote : State.Same (.reg 0x2404) (y.wr 0x2404 2 x 1) ((y.wr 0x2404 2 x 1).noteAt (dieOf x) x 0x2007 (leNat 1 g)) :=
      State.noteAt_same (by decide) (.refl _ _)
    rw [hnote, State.rd_wr]
    simp
  refine each_reaches (inv := fun _ => True) (p := fun z y => y.rd 0x2404 2 z = 1) (fun _ _ _ => trivial) ?_ ?_ trivial
    (.inl hc)
  · intro y x _
    rw [hone, if_pos rfl]
  · intro y x z hz
    rw [hone, hz, ite_self]

theorem groupWaitLimit_gives {s : State} {g x : Nat} (hfirst : (s.group g).first = some x)
    (hlimit : s.rdN 0x2405 (g + 1) dev ≠ 0)
    (hbeyond : x + s.rdN 0x2405 (g + 1) dev * 1000000 < s.clock.lastEpoch) (hdue : (s.group g).due = none)
    (hmissing : (s.missing g).isEmpty = false) (hfree : s.rd 0x2408 0 dev ≠ 1) :
    Gives (.groupWaitLimit g) s fun t =>
      t.rd 0x2406 (g + 1) dev = 2 ∧ (∀ c ∈ s.missing g, t.rd 0x2404 2 c = 1) ∧
      t.rd 0x2407 (g + 1) dev = s.epochFrom (max (x + s.rdN 0x2405 (g + 1) dev * 1000000 + 200000) s.lt) := by
  generalize hd : s.detach g (s.missing g) = d
  have hexec : exec (.groupWaitLimit g) s = .next (if s.rdN 0x2405 (g + 1) dev ≠ 0 ∧
      x + s.rdN 0x2405 (g + 1) dev * 1000000 < s.clock.lastEpoch ∧ (s.group g).due.isNone ∧ !(s.missing g).isEmpty ∧
      s.rd 0x2408 0 dev ≠ 1 then
        d.setDue g (d.epochFrom (max (x + s.rdN 0x2405 (g + 1) dev * 1000000 + 200000) d.lt)) else s) := by
    subst hd
    change execGroupWaitLimit g s = _
    simp only [execGroupWaitLimit, hfirst]
    rfl
  have hsame {k : Part} (hk : k ∉ [.reg 0x2404, .reg 0x6000, .dies, .trail]) : State.Same k s d :=
    hd ▸ s.detach_same g _ hk
  have hlt : d.lt = s.lt := congrArg Clock.lt (hsame (k := .clock) (by decide))
  refine .of_guard hexec ⟨hlimit, hbeyond, by simp [hdue], by simp [hmissing], hfree⟩ ?_
  rw [State.epochFrom_of_same (hsame (by decide)), hlt]
  obtain ⟨hstate, hepoch⟩ := d.setDue_shows g (s.epochFrom (max (x + s.rdN 0x2405 (g + 1) dev * 1000000 + 200000) s.lt))
  refine ⟨hstate, fun c hc => ?_, hepoch⟩
  have hset (e : Nat) : State.Same (.reg 0x2404) d (d.setDue g e) := State.setDue_same (by decide) (.refl _ d)
  rw [hset, ← hd]
  exact s.detach_detached g hc

/-! ## The start of a step (R192) -/

theorem State.freshSlot_run (s : State) (c m : Nat) : (s.freshSlot c).run m = s.run m := by
  unfold State.freshSlot
  extract_lets y ch
  by_cases h : m = c
  · subst h
    rw [State.run, State.chan_setChan]
    rfl
  · rw [State.run, State.chan_setChan_ne _ _ h]
    rfl

theorem State.loadCounter_same {k : Part} {s : State} {c lci lcs : Nat} (hk : k ∉ [.reg 0x2403, .reg 0x2444]) :
    State.Same k s (if lci = 0 then ((s.wr 0x2403 6 c 0).wr 0x2403 7 c 0).wr 0x2444 7 c 0
      else (((s.wr 0x2403 6 c 0).wr 0x2403 7 c 0).wr 0x2444 7 c 0).wr 0x2403 (lcs + 1) c lci) := by
  have hcharge : State.Same k s (((s.wr 0x2403 6 c 0).wr 0x2403 7 c 0).wr 0x2444 7 c 0) :=
    State.wr_same (notMem_of hk (by decide)) (State.wr_same (notMem_of hk (by decide))
      (State.wr_same (notMem_of hk (by decide)) (.refl k s)))
  split
  · exact hcharge
  · exact State.wr_same (notMem_of hk (by decide)) hcharge

theorem State.startGang_same {k : Part} {a s : State} {mode c die : Nat} (hk : k ∉ [.units]) (h : State.Same k a s) :
    State.Same k a (if mode = 6 then s else each (s.gang c) (fun s m => s.startUnit die (localOf m)) s) := by
  split
  · exact h
  · exact each_same h fun _ _ hy => State.startUnit_same hk hy

theorem State.beginStep_shows (s : State) (c r origin : Nat) :
    EntersRun c 2 s (s.beginStep c r origin) ∧ (s.beginStep c r origin).ShowsRun c 2 6 r origin := by
  unfold State.beginStep
  extract_lets w w5 die idx entered shown charge counter fresh opened mailed
  have hshown : EntersRun c 2 s shown :=
    ((((s.setRun_enters c 2).wr (by decide) _).wr (by decide) _).wr (by decide) _).wr (by decide) _
  have hcounter : State.Same (.reg 0x2402) shown counter := State.loadCounter_same (by decide)
  have hmailed : State.Same (.reg 0x2402) counter mailed :=
    State.mail_same (by decide) (State.setRunSt_same (by decide)
      (each_same (.refl _ counter) fun _ _ hy => State.freshSlot_same (by decide) hy))
  have hend := State.startGang_same (mode := rowMode w) (c := c) (die := die) (by decide) (hcounter.trans hmailed)
  refine ⟨hshown.of_same hend, State.ShowsRun.of_same ⟨hshown.state, ?_, ?_⟩ hend⟩
  · simp [shown, State.rd_wr]
  · simp [shown, State.rd_wr]

/-- The step of a channel leaves the run of every other. -/
theorem State.beginStep_run_ne (s : State) {c m : Nat} (r origin : Nat) (h : m ≠ c) :
    (s.beginStep c r origin).run m = s.run m := by
  unfold State.beginStep
  extract_lets w w5 die idx entered shown charge counter fresh opened mailed
  have hshown : State.Same .chans s shown := State.wr_same (by decide) (State.wr_same (by decide)
    (State.wr_same (by decide) (State.wr_same (by decide) (State.setRun_same (by decide) (.refl _ s)))))
  have hcounter : State.Same .chans shown counter := State.loadCounter_same (by decide)
  have hfresh : fresh.run m = counter.run m :=
    each_keep (fun y => y.run m) _ _ (fun y x => y.freshSlot_run x m) counter
  have hend : State.Same .chans opened
      (if rowMode w = 6 then mailed else each (mailed.gang c) (fun s m => s.startUnit die (localOf m)) mailed) :=
    State.startGang_same (by decide) (State.mail_same (by decide) (.refl _ opened))
  rw [State.run_of_same hend, State.run_setRunSt_ne _ _ h, hfresh, State.run_of_same (hshown.trans hcounter)]

/-- Every member of a group begins the row that it waits for, and the start is its origin (R196). -/
theorem each_beginStep_shows {l : List Nat} (hl : l.Nodup) (s : State) (e : Nat) :
    ∀ c ∈ l, (each l (fun s c => s.beginStep c (s.run c).nextRow e) s).ShowsRun c 2 6 (s.run c).nextRow e := by
  refine each_nodup_reaches (q := fun c y => y.run c = s.run c)
    (p := fun c y => y.ShowsRun c 2 6 (s.run c).nextRow e) hl (fun _ _ => rfl) ?sets ?finds ?keeps
  case sets =>
    intro x _ y hy
    rw [← hy]
    exact (y.beginStep_shows x _ e).2
  case finds =>
    intro z _ y x hzx hy
    rw [State.beginStep_run_ne _ _ _ hzx, hy]
  case keeps =>
    intro z _ y x hzx hy
    exact hy.of_enters (y.beginStep_shows x _ e).1 (by decide) hzx

/-! ## The start of a group (R196, R198) -/

/-- The members of a group that have arrived. -/
def State.arrivals (s : State) (g : Nat) : List Nat := (s.members g).filter fun c => (s.run c).arrived.isSome

theorem State.arrivals_nodup (s : State) (g : Nat) : (s.arrivals g).Nodup := (s.channels_nodup.filter _).filter _

/-- A group's arrivals, awake, its wait over. -/
def State.endWait (s : State) (g : Nat) : State :=
  ((each (s.arrivals g) (fun s c => s.wakeDie (dieOf c) 4) s).setGroup g {}).wr 0x2406 (g + 1) dev 0

/-- What the arrivals do at the start: under backpressure they return to run state 5 (R198), else they begin. -/
def State.startArrivals (s : State) (l : List Nat) (e : Nat) : State :=
  if s.rd 0x2408 0 dev = 1 then each l (fun s c => (s.setRun c 5).setRunSt c { nextRow := (s.run c).nextRow }) s
  else each l (fun s c => s.beginStep c (s.run c).nextRow e) s

theorem State.startArrivals_same {k : Part} (s : State) (l : List Nat) (e : Nat)
    (hk : k ∉ [.reg 0x2402, .reg 0x2403, .reg 0x2444, .chans, .units, .slots, .lane, .flight]) :
    State.Same k s (s.startArrivals l e) := by
  unfold State.startArrivals
  split
  · exact each_same (.refl k s) fun _ _ hy =>
      State.setRunSt_same (notMem_of hk (by decide)) (State.setRun_same (notMem_of hk (by decide)) hy)
  · exact each_same (.refl k s) fun _ _ hy => State.beginStep_same hk hy

theorem State.endWait_same {k : Part} (s : State) (g : Nat)
    (hk : k ∉ [.reg 0x1200, .reg 0x1210, .reg 0x2406, .reg 0x3101, .units, .dies, .groups]) :
    State.Same k s (s.endWait g) :=
  State.wr_same (notMem_of hk (by decide)) (State.setGroup_same (notMem_of hk (by decide))
    (each_same (.refl k s) fun _ _ hy => State.wakeDie_same (notMem_of hk (by decide)) hy))

theorem groupStart_gives {s : State} {g e : Nat} (hdue : (s.group g).due = some e) (htime : e ≤ s.lt) :
    Gives (.groupStart g) s fun t =>
      t.group g = {} ∧ t.rd 0x2406 (g + 1) dev = 0 ∧
      (s.rd 0x2408 0 dev ≠ 1 → ∀ c ∈ s.members g, (s.run c).arrived.isSome = true →
        t.runState c = 2 ∧ t.rd 0x2402 2 c = (s.run c).nextRow ∧ t.rd 0x2402 6 c = e) := by
  have hexec : exec (.groupStart g) s =
      .next (if e ≤ s.lt then (s.endWait g).startArrivals (s.arrivals g) e else s) := by
    change execGroupStart g s = _
    simp only [execGroupStart, hdue]
    rfl
  refine .of_guard hexec htime ⟨?_, ?_, fun hfree c hc harrived => ?_⟩
  · rw [State.group_of_same ((s.endWait g).startArrivals_same _ e (by decide))]
    simp [State.endWait]
  · rw [(s.endWait g).startArrivals_same (k := .reg 0x2406) _ e (by decide)]
    simp [State.endWait]
  · have hbegins : (s.endWait g).rd 0x2408 0 dev ≠ 1 := by rwa [s.endWait_same (k := .reg 0x2408) g (by decide)]
    have hrow : (s.endWait g).run c = s.run c := State.run_of_same (s.endWait_same g (by decide)) c
    rw [State.startArrivals, if_neg hbegins, ← hrow]
    obtain ⟨hstate, hnext, horigin⟩ :=
      each_beginStep_shows (s.arrivals_nodup g) (s.endWait g) e c (List.mem_filter.2 ⟨hc, harrived⟩)
    exact ⟨hstate, hnext, horigin⟩

/-- Settles O33: the operations at the channels of a range, and at the members of a group, leave one another's channels,
so each channel shows what its own operation wrote. -/
theorem recipesAndRuns : Obligations.RecipesAndRuns := by
  refine ⟨?load, ?start, ?stop, ?stopRange, ?resume, ?close, ?limit, ?group⟩
  case load =>
    intro src first last b s hacc
    exact (recipeLoad_gives hacc).framedHidden fun k hk hr => execRecipeLoad_same hr hk (.refl k s)
  case start =>
    intro src first last s hacc hpasses
    exact (runStart_gives hacc hpasses).framed fun k hk => execRunStart_same hk (.refl k s)
  case stop =>
    intro src c s hacc
    exact (runStop_gives hacc).framed fun k hk => execRunStop_same hk (.refl k s)
  case stopRange =>
    intro src first last s hacc
    exact Gives.framed ⟨_, rfl, State.writeObj_ok hacc⟩ fun k hk => execRunStop_same hk (.refl k s)
  case resume =>
    intro src first last s hacc
    exact Gives.framed ⟨_, rfl, State.writeObj_ok hacc⟩ fun k hk => execRunContinue_same hk (.refl k s)
  case close =>
    intro c x s hpop hclose
    exact (milestoneClose_gives hpop hclose).framed fun k hk => execMilestoneClose_same hk (.refl k s)
  case limit =>
    intro g x s hfirst hlimit hbeyond hdue hmissing hfree
    exact (groupWaitLimit_gives hfirst hlimit hbeyond hdue hmissing hfree).framed fun k hk =>
      execGroupWaitLimit_same hk (.refl k s)
  case group =>
    intro g e s hdue htime
    exact (groupStart_gives hdue htime).framed fun k hk => execGroupStart_same hk (.refl k s)

end Sys2Proof.Machine
end

section
/-! The statement on REQ_ADJUST tokens, and on the strap, the expiry and the clock of the measuring part. -/

namespace Sys2Proof.Machine

/-! ## What audit entries, restarts and leaves write (R239 to R243) -/

/-- An audit entry is counted; beside the trail it changes the alerts alone. -/
theorem State.auditAdd_qm (s : State) (kind target slot : Nat) (old new : List Byte) (nonce : Nat) :
    (s.auditAdd kind target slot old new nonce).qm =
      { s.qm with
        audit := (s.auditAdd kind target slot old new nonce).qm.audit
        auditNext := s.qm.auditNext + 1
        alerts := (s.auditAdd kind target slot old new nonce).qm.alerts } := by
  unfold State.auditAdd
  extract_lets e y
  split
  · rfl
  · rfl

/-- What the measuring part holds of its seal, of the strap and of the length of its audit trail. -/
structure SealView where
  sealSt : Nat
  adjUntil : Option Nat
  adjLevel : Bool
  adjSame : Nat
  auditNext : Nat

def Qm.sealView (q : Qm) : SealView := ⟨q.sealSt, q.adjUntil, q.adjLevel, q.adjSame, q.auditNext⟩

theorem State.auditAdd_sealView (s : State) (kind target slot : Nat) (old new : List Byte) (nonce : Nat) :
    (s.auditAdd kind target slot old new nonce).qm.sealView =
      { s.qm.sealView with auditNext := s.qm.auditNext + 1 } := by
  rw [State.auditAdd_qm]
  rfl

theorem State.qmRestart_sealView (s : State) : s.qmRestart.qm.sealView = s.qm.sealView :=
  each_keep (fun y => y.qm.sealView) _ (fun y n => y.unmark 2 n) (fun _ _ => rfl) s

/-- An activation adds one audit entry, for the image that becomes active (R241). -/
theorem State.activate_sealView (s : State) :
    s.activate.qm.sealView =
      { s.qm.sealView with auditNext := s.qm.auditNext + if s.qm.verified then 1 else 0 } := by
  unfold State.activate
  split
  · rw [State.qmRestart_sealView, State.swapFw, State.auditAdd_sealView]
    rfl
  · rfl

/-- A leave ends the validity and adds its audit entry, and that of the image that it activates. -/
theorem State.leave_sealView (s : State) (cause slot nonce : Nat) :
    (s.leave cause slot nonce).qm.sealView =
      { s.qm.sealView with
        sealSt := 1
        adjUntil := none
        auditNext := s.qm.auditNext + 1 + if s.qm.verified then 1 else 0 } := by
  unfold State.leave
  rw [State.activate_sealView, State.sealAgain, State.auditAdd_qm]
  rfl

/-! ## Calibration items (R249) -/

theorem lookup?_put_self {α : Type} (t : Tbl α) (k : Nat) (v : α) : lookup? k (put t k v) = some v :=
  lookup?_insertBy_self id k v t

/-- An item is written whether or not it brings the running trims of a modulator. -/
theorem State.writeItem_qm (s : State) (k : Nat) (v : List Byte) :
    (s.writeItem k v).qm =
      { s.qm with
        cal := put s.qm.cal k v
        calGen := (s.qm.calGen + 1) % 2 ^ 32
        mods := (s.writeItem k v).qm.mods } := by
  unfold State.writeItem
  extract_lets y z
  split
  · rfl
  · rfl

/-! ## Tokens (R237 to R244, R249) -/

theorem State.newMetNonce_qm (s : State) :
    s.newMetNonce.qm = { s.qm with nonce := some (Config.freeNonce s.free).toNat } := rfl

theorem State.adjustReply_qm (s : State) (status : Nat) :
    (s.adjustReply status).qm = { s.qm with reply := some ⟨0x88, s.tag, status, []⟩ } := by
  unfold State.adjustReply
  extract_lets y
  split
  · rfl
  · rfl

theorem State.tokenIn_of_up {s : State} (hup : s.qmUp = true) (kind : Nat) (x : Token) :
    s.tokenIn kind x = s.flushMail.takeToken { x with kind := kind } :=
  if_pos hup

theorem State.takeToken_of_accepted {s : State} {x : Token} (h : s.tokenStatus x = 0) :
    s.takeToken x = (s.tokenEffect x).newMetNonce.adjustReply 0 :=
  if_pos h

theorem State.takeToken_of_refused {s : State} {x : Token} (h : s.tokenCheck x ≠ 0) :
    s.takeToken x = s.refuseToken.adjustReply (s.tokenCheck x) := by
  have hstatus : s.tokenStatus x = s.tokenCheck x := if_pos h
  simp only [State.takeToken, hstatus, h, false_and, if_false]

/-- A command that brings a token writes the parts that its mail, its effect and its reply write. -/
theorem Gives.of_token {c : Instr} {s : State} {p : State → Prop} {kind : Nat} {x : Token}
    (hexec : exec c s = .next (s.tokenIn kind x)) (hp : p (s.tokenIn kind x)) :
    Gives c s fun t =>
      p t ∧ Frame [.reg 0x5441, .qm, .lastMet, .metView, .metViewAt, .tag, .lane, .flight, .free] s t :=
  ⟨_, hexec, hp, fun k hk => State.tokenIn_same hk (.refl k s)⟩

/-- Beside the effect of its kind, an accepted token draws a nonce and is answered with status 0. -/
theorem Gives.of_accepted {c : Instr} {s : State} {p : State → Prop} {kind : Nat} {x : Token}
    (hexec : exec c s = .next (s.tokenIn kind x)) (hup : s.qmUp = true)
    (hok : s.flushMail.tokenStatus { x with kind := kind } = 0)
    (hp : ∀ t : State,
      t.qm = { (s.flushMail.tokenEffect { x with kind := kind }).qm with
        nonce := t.qm.nonce
        reply := some ⟨0x88, s.flushMail.tag, 0, []⟩ } → p t) :
    Gives c s fun t =>
      p t ∧ Frame [.reg 0x5441, .qm, .lastMet, .metView, .metViewAt, .tag, .lane, .flight, .free] s t := by
  refine .of_token hexec (hp _ ?_)
  have htag : (s.flushMail.tokenEffect { x with kind := kind }).newMetNonce.tag = s.flushMail.tag :=
    State.newMetNonce_same (k := .tag) (by decide) (State.tokenEffect_same (by decide) (.refl _ _))
  rw [State.tokenIn_of_up hup, State.takeToken_of_accepted hok, State.adjustReply_qm, htag, State.newMetNonce_qm]

section Effects
variable {s : State} {x : Token}

theorem State.tokenEffect_enter (hkind : x.kind = 1) :
    (s.tokenEffect x).qm.sealSt = 2 ∧
      (s.tokenEffect x).qm.adjUntil = some (s.mclkNow + fieldAt x.body 0 4 * 1000000000) ∧
      (s.tokenEffect x).qm.leftAt = none := by
  simp only [State.tokenEffect, hkind]
  rw [State.auditAdd_qm]
  exact ⟨rfl, rfl, rfl⟩

theorem State.tokenEffect_leave (hkind : x.kind = 2) :
    (s.tokenEffect x).qm.sealSt = 1 ∧ (s.tokenEffect x).qm.adjUntil = none := by
  simp only [State.tokenEffect, hkind]
  have h := (s.onQm fun q => { q with leftAt := some s.mclkNow }).leave_sealView 0 x.slot x.nonce
  exact ⟨congrArg SealView.sealSt h, congrArg SealView.adjUntil h⟩

theorem State.tokenEffect_acknowledge (hkind : x.kind = 3) :
    (s.tokenEffect x).qm.auditAck = fieldAt x.body 0 4 ∧ (s.tokenEffect x).qm.auditNext = s.qm.auditNext + 1 := by
  simp only [State.tokenEffect, hkind]
  rw [State.auditAdd_qm]
  exact ⟨rfl, rfl⟩

theorem State.tokenEffect_calibrate (hkind : x.kind = 4) :
    lookup? (fieldAt x.body 0 2) (s.tokenEffect x).qm.cal = some (x.body.drop 4) ∧
      (s.tokenEffect x).qm.evCount = min (s.qm.evCount + 1) 4294967295 ∧
      (s.tokenEffect x).qm.calGen = (s.qm.calGen + 1) % 2 ^ 32 := by
  simp only [State.tokenEffect, hkind]
  rw [State.auditAdd_qm, State.countEvent, State.onQm_qm, State.writeItem_qm]
  exact ⟨lookup?_put_self .., rfl, rfl⟩

theorem State.tokenEffect_setKey (hkind : x.kind = 5) :
    lookup? (fieldAt x.body 0 1) (s.tokenEffect x).qm.keys = some (x.body.drop 4) ∧
      (s.tokenEffect x).qm.evCount = min (s.qm.evCount + 1) 4294967295 := by
  simp only [State.tokenEffect, hkind]
  rw [State.auditAdd_qm]
  exact ⟨lookup?_put_self .., rfl⟩

theorem State.tokenEffect_announce (hkind : x.kind = 6) :
    (s.tokenEffect x).qm.announced = some (fieldAt x.body 0 4, x.body.drop 4) ∧
      (s.tokenEffect x).qm.image = { total := fieldAt x.body 0 4, parts := [] } ∧
      (s.tokenEffect x).qm.verified = false := by
  simp only [State.tokenEffect, hkind]
  exact ⟨rfl, rfl, rfl⟩

end Effects

/-- Each kind of token is brought by the command of its kind. -/
theorem exec_tokenIn {x : Token} {k : Nat} {c : Instr}
    (h : (k, c) ∈ [(1, Instr.enterToken x), (2, .leaveToken x), (3, .auditAcknowledge x), (4, .calibrationWrite x),
      (5, .authorityKeySet x), (6, .softwareAnnounce x)]) (s : State) : exec c s = .next (s.tokenIn k x) := by
  simp only [List.mem_cons, Prod.mk.injEq, List.not_mem_nil, or_false] at h
  obtain ⟨rfl, rfl⟩ | ⟨rfl, rfl⟩ | ⟨rfl, rfl⟩ | ⟨rfl, rfl⟩ | ⟨rfl, rfl⟩ | ⟨rfl, rfl⟩ := h
  all_goals rfl

/-! ## The strap (R236) -/

/-- A strap's release changes no more than the cause of a leave entry. -/
theorem State.recause_sealView (s : State) : s.recause.qm.sealView = s.qm.sealView := by
  unfold State.recause
  split
  · split
    · rfl
    · rfl
  · rfl

/-- An accepted level stands, and its count of equal samples starts again, whether it seals the part or not. -/
theorem State.acceptLevel_strap (s : State) (l : Bool) :
    (s.acceptLevel l).qm.adjLevel = l ∧ (s.acceptLevel l).qm.adjSame = 0 := by
  unfold State.acceptLevel
  extract_lets y
  have hleave := y.leave_sealView 1 0xFF 0
  have hrecause := y.recause_sealView
  split
  · exact ⟨rfl, rfl⟩
  · split
    · exact ⟨congrArg SealView.adjLevel hleave, congrArg SealView.adjSame hleave⟩
    · exact ⟨congrArg SealView.adjLevel hrecause, congrArg SealView.adjSame hrecause⟩

theorem adjEnChange_gives {s : State} (level : Bool) (hup : s.qmUp = true) (hdue : s.adjDue = true) :
    Gives (.adjEnChange level) s fun t =>
      (t.qm.adjLevel, t.qm.adjSame) =
        if (level && s.qm.vioM) = s.qm.adjLevel then (s.qm.adjLevel, 0)
        else if 9 ≤ s.qm.adjSame then (level && s.qm.vioM, 0) else (s.qm.adjLevel, s.qm.adjSame + 1) := by
  have hpowered : s.qm.powered = true := (Bool.and_eq_true_iff.1 hup).1
  refine .of_guard rfl ⟨hpowered, hdue, .inl hup⟩ ?_
  extract_lets y
  obtain ⟨hlevel, hsame⟩ := y.acceptLevel_strap (level && s.qm.vioM)
  split
  case isTrue heq => exact (if_pos heq).symm
  case isFalse hne =>
    split
    case isTrue hnine =>
      rw [hlevel, hsame]
      exact ((if_neg hne).trans (if_pos hnine)).symm
    case isFalse hfew => exact ((if_neg hne).trans (if_neg hfew)).symm

/-! ## The expiry and the clock (R239, R373) -/

theorem adjustmentExpiry_gives {s : State} {u : Nat} (hup : s.qmUp = true) (hseal : s.seal = 2)
    (huntil : s.qm.adjUntil = some u) (hpast : u ≤ s.mclkNow) :
    Gives .adjustmentExpiry s fun t =>
      t.qm.sealSt = 1 ∧ t.qm.adjUntil = none ∧
      t.qm.auditNext = s.qm.auditNext + 1 + (if s.qm.verified then 1 else 0) := by
  have hover : s.qm.adjUntil.any (fun t => decide (t ≤ s.mclkNow)) = true := by
    rw [huntil]
    exact decide_eq_true hpast
  have h := (s.onQm fun q => { q with expiredAt := some s.mclkNow }).leave_sealView 2 0xFF 0
  exact .of_guard rfl ⟨hup, hseal, hover⟩
    ⟨congrArg SealView.sealSt h, congrArg SealView.adjUntil h, congrArg SealView.auditNext h⟩

theorem mclkFault_gives {s : State} (hup : s.qmUp = true) (hclk : s.qm.clk = false) :
    Gives .mclkFault s fun t => t.qm.clk = true ∧ t.qm.clkSince = s.mclkNow ∧ bit t.qm.alerts 3 = true :=
  .of_guard rfl ⟨hup, by rw [hclk, Bool.not_false]⟩ ⟨rfl, rfl, bit_setBit_self ..⟩

theorem mclkReturn_gives {s : State} (hup : s.qmUp = true) (hclk : s.qm.clk = true) (hvio : s.qm.vioM = true)
    (hlong : s.qm.clkSince + 100000000 ≤ s.mclkNow) : Gives .mclkReturn s fun t => t.qm.clk = false :=
  .of_guard rfl ⟨hup, hclk, hvio, hlong⟩ rfl

/-- Settles O18: an accepted token does the effect of its kind, then draws a nonce and is answered; a refused one is
counted and answered; the frame is that of the command. -/
theorem adjustmentTokens : Obligations.AdjustmentTokens := by
  refine ⟨?enter, ?leave, ?acknowledge, ?calibrate, ?key, ?announce, ?refused, ?strap, ?expiry, ?fault, ?back⟩
  case enter =>
    rintro x _ s hup rfl hok
    obtain ⟨hseal, huntil, hleft⟩ := s.flushMail.tokenEffect_enter (x := { x with kind := 1 }) rfl
    refine .of_accepted rfl hup hok fun t ht => ?_
    rw [ht]
    exact ⟨hseal, huntil, hleft, rfl⟩
  case leave =>
    rintro x _ s hup rfl hok
    obtain ⟨hseal, huntil⟩ := s.flushMail.tokenEffect_leave (x := { x with kind := 2 }) rfl
    refine .of_accepted rfl hup hok fun t ht => ?_
    rw [ht]
    exact ⟨hseal, huntil, rfl⟩
  case acknowledge =>
    rintro x _ s hup rfl hok
    obtain ⟨hack, hnext⟩ := s.flushMail.tokenEffect_acknowledge (x := { x with kind := 3 }) rfl
    refine .of_accepted rfl hup hok fun t ht => ?_
    rw [ht]
    exact ⟨hack, hnext, rfl⟩
  case calibrate =>
    rintro x _ s hup rfl hok
    obtain ⟨hitem, hcount, hgen⟩ := s.flushMail.tokenEffect_calibrate (x := { x with kind := 4 }) rfl
    refine .of_accepted rfl hup hok fun t ht => ?_
    rw [ht]
    exact ⟨hitem, hcount, hgen, rfl⟩
  case key =>
    rintro x _ s hup rfl hok
    obtain ⟨hkey, hcount⟩ := s.flushMail.tokenEffect_setKey (x := { x with kind := 5 }) rfl
    refine .of_accepted rfl hup hok fun t ht => ?_
    rw [ht]
    exact ⟨hkey, hcount, rfl⟩
  case announce =>
    rintro x _ s hup rfl hok
    obtain ⟨hannounced, himage, hverified⟩ := s.flushMail.tokenEffect_announce (x := { x with kind := 6 }) rfl
    refine .of_accepted rfl hup hok fun t ht => ?_
    rw [ht]
    exact ⟨hannounced, himage, hverified, rfl⟩
  case refused =>
    rintro x k c _ s hup rfl hrefused hkind
    refine .of_token (exec_tokenIn hkind s) ?_
    rw [State.tokenIn_of_up hup, State.takeToken_of_refused hrefused, State.adjustReply_qm]
    exact ⟨rfl, rfl, rfl, rfl, rfl, rfl, rfl⟩
  case strap =>
    intro level s hup hdue
    exact (adjEnChange_gives level hup hdue).framed fun k hk => execAdjEnChange_same hk (.refl k s)
  case expiry =>
    intro u s hup hseal huntil hpast
    exact (adjustmentExpiry_gives hup hseal huntil hpast).framed fun k hk => execAdjustmentExpiry_same hk (.refl k s)
  case fault =>
    intro s hup hclk
    exact (mclkFault_gives hup hclk).framed fun k hk => execMclkFault_same hk (.refl k s)
  case back =>
    intro s hup hclk hvio hlong
    exact (mclkReturn_gives hup hclk hvio hlong).framed fun k hk => execMclkReturn_same hk (.refl k s)

end Sys2Proof.Machine
end

section
/-! The statement on integration, mirrors, records, checkpoints and batches of the measuring part. -/

namespace Sys2Proof.Machine

/-! ## The channels of the measuring part -/

@[simp] theorem State.qc_setQc_self (s : State) (c : Nat) (x : QChan) : (s.setQc c x).qc c = x := look_put_self ..

theorem State.qc_setQc_ne (s : State) {c d : Nat} (x : QChan) (h : d ≠ c) : (s.setQc c x).qc d = s.qc d :=
  look_put_ne _ _ _ h

@[simp] theorem State.qc_draw (s : State) (c : Nat) : s.draw.qc c = s.qc c := rfl

theorem State.qc_of_chans {s t : State} (h : t.qm.chans = s.qm.chans) (c : Nat) : t.qc c = s.qc c := by
  rw [State.qc, State.qc, h]

/-! ## Records (R224, R233, R234) -/

/-- Backpressure is its flag, an event and an alert. -/
theorem State.checkHold_qm (s : State) :
    s.checkHold.qm =
      { s.qm with bp := s.checkHold.qm.bp, events := s.checkHold.qm.events, alerts := s.checkHold.qm.alerts } := by
  unfold State.checkHold
  split
  · rfl
  · split
    · rfl
    · rfl

/-- Of what the measuring part holds, the record store, its areas and what comes of its backpressure alone change. -/
def Qm.RecordsOnly (q r : Qm) : Prop :=
  r = { q with
    recs := r.recs, nextRec := r.nextRec, stalled := r.stalled, perUsed := r.perUsed, perAll := r.perAll,
    stepUsed := r.stepUsed, stepAll := r.stepAll, dropped := r.dropped, bp := r.bp, events := r.events,
    alerts := r.alerts }

theorem Qm.RecordsOnly.chans {q r : Qm} (h : q.RecordsOnly r) : r.chans = q.chans := by
  rw [h]

theorem Qm.RecordsOnly.mains {q r : Qm} (h : q.RecordsOnly r) :
    r.acImp = q.acImp ∧ r.acExp = q.acExp ∧ r.acSec = q.acSec := by
  rw [h]
  exact ⟨rfl, rfl, rfl⟩

theorem State.writeRec_recordsOnly (s : State) (kind : Nat) (body : Nat → List Byte) :
    s.qm.RecordsOnly (s.writeRec kind body).qm := by
  unfold Qm.RecordsOnly
  by_cases hkind : kind = 1
  · simp only [State.writeRec, hkind, if_true]
    rw [State.checkHold_qm]
    rfl
  · simp only [State.writeRec, hkind, if_false]
    rw [State.checkHold_qm]
    rfl

theorem State.writeRec_nextRec (s : State) (kind : Nat) (body : Nat → List Byte) :
    (s.writeRec kind body).qm.nextRec = s.qm.nextRec + 1 := by
  by_cases hkind : kind = 1
  · simp only [State.writeRec, hkind, if_true]
    rw [State.checkHold_qm]
    rfl
  · simp only [State.writeRec, hkind, if_false]
    rw [State.checkHold_qm]
    rfl

theorem State.putRec_nextRec {s : State} {kind : Nat} (h : s.recRoom kind = true) (body : Nat → List Byte) :
    (s.putRec kind body).qm.nextRec = s.qm.nextRec + 1 := by
  rw [State.putRec, if_pos h]
  exact s.writeRec_nextRec kind body

theorem State.putRec_dropped {s : State} {kind : Nat} (h : s.recRoom kind = false) (body : Nat → List Byte) :
    (s.putRec kind body).qm.dropped = s.qm.dropped + 1 := by
  rw [State.putRec, if_neg (Bool.eq_false_iff.1 h)]
  rfl

theorem State.putRec_recordsOnly (s : State) (kind : Nat) (body : Nat → List Byte) :
    s.qm.RecordsOnly (s.putRec kind body).qm := by
  unfold State.putRec
  split
  · exact s.writeRec_recordsOnly kind body
  · rfl

theorem State.putRec_qc (s : State) (kind : Nat) (body : Nat → List Byte) (c : Nat) :
    (s.putRec kind body).qc c = s.qc c :=
  State.qc_of_chans (s.putRec_recordsOnly kind body).chans c

/-- A periodic record waits, or is stored or dropped and the next interval starts (R218, R234). -/
theorem State.doPeriodic_eq (s : State) (c : Nat) :
    ∃ body, s.doPeriodic c =
      if s.holds c (s.qc c).gangSize (s.nextIntEnd c) then s.keep (.periodicRecord c)
      else (s.putRec 2 body).draw.setQc c
        { s.qc c with intStart := (s.qc c).intEnd, pgap := (s.qc c).pgap || !s.recRoom 2 } := by
  refine ⟨fun _ => s.periodicBytes c (s.qc c).intEnd, ?_⟩
  unfold State.doPeriodic
  extract_lets x room t y
  have hy : y = x := by
    unfold y t
    rw [State.qc_draw, State.putRec_qc]
  rw [hy]

/-- The record of a sweep's point waits, or is stored or dropped and the step goes on to the next point (R221,
R234). -/
theorem State.doImpedance_eq {s : State} {c f e b : Nat} {w : QStep} (hstep : (s.qc c).step = some w)
    (hpoint : s.sweepPoint w = some (f, e, b)) :
    ∃ body z, s.doImpedance c =
        (if s.holds c w.gang b then s.keep (.impedanceRecord c)
        else (s.putRec 4 body).draw.draw.setQc c
          { s.qc c with pgap := (s.qc c).pgap || !s.recRoom 4, step := some z }) ∧
      z.point = w.point + 1 := by
  unfold State.doImpedance
  extract_lets x room n
  split
  case h_1 hnone => exact absurd (hnone.symm.trans hstep) nofun
  case h_2 w' hsome =>
    obtain rfl : w = w' := Option.some.inj (hstep.symm.trans hsome)
    split
    case h_1 hnone => exact absurd (hnone.symm.trans hpoint) nofun
    case h_2 f' e' b' hsome =>
      obtain ⟨rfl, rfl, rfl⟩ : f = f' ∧ e = e' ∧ b = b' := by simpa [hpoint] using hsome
      extract_lets cs v is i d re im mag amp fl t y
      have hy : y = s.qc c := by
        unfold y t
        rw [State.qc_draw, State.qc_draw, State.putRec_qc]
      rw [hy]
      exact ⟨_, _, rfl, rfl⟩

/-! ## The integrators (R214) -/

/-- A channel's integrators: with what stands, and with the working modulators. -/
def QChan.integs (x : QChan) : Integ × Integ := (x.acc, x.wAcc)

/-- An update that leaves its channel's integrators leaves every channel's. -/
theorem State.setQc_integs {s t : State} {c : Nat} {x : QChan} (ht : t.qm.chans = s.qm.chans)
    (h : x.integs = (s.qc c).integs) (d : Nat) : ((t.setQc c x).qc d).integs = (s.qc d).integs := by
  by_cases hd : d = c
  · subst hd
    rw [State.qc_setQc_self, h]
  · rw [State.qc_setQc_ne _ _ hd, State.qc_of_chans ht]

theorem State.closeQStep_integs (s : State) (c endLt cause next d : Nat) :
    ((s.closeQStep c endLt cause next).qc d).integs = (s.qc d).integs := by
  unfold State.closeQStep
  extract_lets x q e
  split
  case h_1 => rfl
  case h_2 w _ =>
    extract_lets t y
    have hchans : t.qm.chans = s.qm.chans := (s.writeRec_recordsOnly 1 (s.stepRecord c w endLt cause)).chans
    have hy : y = s.qc c := State.qc_of_chans hchans c
    refine State.setQc_integs hchans ?_ d
    rw [hy]
    rfl

theorem State.startQStep_integs (s : State) (c row index mode rate gang origin firstJob loop sub4 sub2 d : Nat) :
    ((s.startQStep c row index mode rate gang origin firstJob loop sub4 sub2).qc d).integs = (s.qc d).integs := by
  rw [← s.closeQStep_integs c origin 5 row d]
  unfold State.startQStep
  extract_lets t x a fresh broken y w
  exact State.setQc_integs (s := t) (t := t) (x := { y with step := some w }) rfl rfl d

theorem State.doPeriodic_integs (s : State) (c d : Nat) : ((s.doPeriodic c).qc d).integs = (s.qc d).integs := by
  obtain ⟨body, hrecord⟩ := s.doPeriodic_eq c
  rw [hrecord]
  split
  case isTrue => rfl
  case isFalse =>
    refine State.setQc_integs ?_ ?_ d
    · exact (s.putRec_recordsOnly 2 body).chans
    · rfl

theorem State.doImpedance_integs (s : State) (c d : Nat) : ((s.doImpedance c).qc d).integs = (s.qc d).integs := by
  cases hstep : (s.qc c).step
  case none => simp only [State.doImpedance, hstep]
  case some w =>
    cases hpoint : s.sweepPoint w
    case none => simp only [State.doImpedance, hstep, hpoint]
    case some p =>
      obtain ⟨body, z, hrecord, -⟩ := State.doImpedance_eq hstep hpoint
      rw [hrecord]
      split
      case isTrue => rfl
      case isFalse =>
        refine State.setQc_integs ?_ ?_ d
        · exact (s.putRec_recordsOnly 4 body).chans
        · rfl

theorem State.doStepStart_integs (s : State) (i : Instr) (d : Nat) :
    ((s.doStepStart i).qc d).integs = (s.qc d).integs := by
  unfold State.doStepStart
  split
  · split
    · rfl
    · exact s.startQStep_integs ..
  · rfl

theorem State.doStepClose_integs (s : State) (i : Instr) (d : Nat) :
    ((s.doStepClose i).qc d).integs = (s.qc d).integs := by
  unfold State.doStepClose
  split
  · split
    · rfl
    · exact s.closeQStep_integs ..
  · rfl

theorem State.runHeld_integs (s : State) (i : Instr) (d : Nat) : ((s.runHeld i).qc d).integs = (s.qc d).integs := by
  unfold State.runHeld
  split
  · exact s.doStepStart_integs _ d
  · exact s.doStepClose_integs _ d
  · split
    · exact s.doPeriodic_integs _ d
    · rfl
  · exact s.doImpedance_integs _ d
  · rfl

/-- What waited leaves the integrators as the sample has set them. -/
theorem State.releaseHeld_integs (s : State) (d : Nat) : (s.releaseHeld.qc d).integs = (s.qc d).integs :=
  each_keep (fun y => (y.qc d).integs) _ _ (fun y i => y.runHeld_integs i d) _

theorem State.releaseHeld_qc_of_nil {s : State} (h : s.qm.held = []) (d : Nat) : s.releaseHeld.qc d = s.qc d := by
  rw [State.releaseHeld, h]
  rfl

/-! ## Samples (R210 to R214, R254) -/

/-- A state with other rotation groups. -/
def State.withRots (s : State) (r : Tbl Rot) : State := s.onQm fun q => { q with rots := r }

/-- A sample enters the fit of its group alone. -/
theorem State.fitInput_withRots {s t : State} (h : ∃ r, t = s.withRots r) (site g p start : Nat) (raw spare : Int) :
    ∃ r, t.fitInput site g p start raw spare = s.withRots r := by
  obtain ⟨r, rfl⟩ := h
  unfold State.fitInput
  extract_lets x
  split
  · exact ⟨_, rfl⟩
  · exact ⟨r, rfl⟩

/-- The channel of a sample holds it, whether or not it ends a turn of the temperatures. -/
theorem State.takeSample_qc (s : State) (c start : Nat) (v i t : Rat × Rat) :
    ((s.takeSample c start v i t).qc c).acc = (s.sampleOf c start v i t).next ∧
      ((s.takeSample c start v i t).qc c).wAcc = (s.sampleOf c start v i t).wNext ∧
      ((s.takeSample c start v i t).qc c).hist = s.sampleOf c start v i t :: (s.qc c).hist := by
  unfold State.takeSample
  extract_lets x turn y z
  rw [State.qc_setQc_self]
  split
  · exact ⟨rfl, rfl, rfl⟩
  · exact ⟨rfl, rfl, rfl⟩

/-- A sample is read before its fit, and the fit changes nothing that a sample is made of. -/
theorem State.takeSample_withRots_releaseHeld (s : State) (r : Tbl Rot) (c start : Nat) (v i t : Rat × Rat) :
    ((((s.withRots r).takeSample c start v i t).releaseHeld).qc c).acc = (s.sampleOf c start v i t).next ∧
      ((((s.withRots r).takeSample c start v i t).releaseHeld).qc c).wAcc = (s.sampleOf c start v i t).wNext ∧
      (s.qm.held = [] → (((s.withRots r).takeSample c start v i t).releaseHeld.qc c).hist =
        s.sampleOf c start v i t :: (s.qc c).hist) := by
  obtain ⟨hacc, hwAcc, hhist⟩ := (s.withRots r).takeSample_qc c start v i t
  have hinteg := ((s.withRots r).takeSample c start v i t).releaseHeld_integs c
  refine ⟨(congrArg Prod.fst hinteg).trans hacc, (congrArg Prod.snd hinteg).trans hwAcc, fun hheld => ?_⟩
  rw [State.releaseHeld_qc_of_nil (s := (s.withRots r).takeSample c start v i t) hheld, hhist]
  rfl

theorem integratorSample_gives {s : State} {c : Nat} (v i x spare spareT : Int) (hup : s.qmUp = true)
    (hpop : s.chanPop c = true) (hframed : s.framed (dieOf c) = true) (hdue : s.sampleDue c = true)
    (hgroup : s.rotFirst (dieOf c) (localOf c / 8) s.sampleStart (fun q => q / 2 == localOf c % 8) = false)
    (htemp : s.rotFirst (dieOf c) 8 s.sampleStart (· == localOf c / 16) = false) {y : QSample}
    (hy : s.sampleOf c s.sampleStart
      (s.readInput (dieOf c) (localOf c / 8) (2 * (localOf c % 8)) s.sampleStart v spare)
      (s.readInput (dieOf c) (localOf c / 8) (2 * (localOf c % 8) + 1) s.sampleStart i spare)
      (s.readInput (dieOf c) 8 (localOf c / 16) s.sampleStart x spareT) = y) :
    Gives (.integratorSample c v i x spare spareT) s fun t =>
      (t.qc c).acc = y.next ∧ (t.qc c).wAcc = y.wNext ∧ (s.qm.held = [] → (t.qc c).hist = y :: (s.qc c).hist) := by
  subst hy
  refine .of_guard rfl ⟨hup, hpop, hframed, hdue, by rw [hgroup]; rfl, by rw [htemp]; rfl⟩ ?_
  extract_lets rv ri rt y z
  have hfits : ∃ r, y = s.withRots r :=
    State.fitInput_withRots (State.fitInput_withRots ⟨s.qm.rots, rfl⟩ _ _ _ _ _ _) _ _ _ _ _ _
  obtain ⟨r, hr⟩ : ∃ r, z = s.withRots r := by
    unfold z
    split
    · exact State.fitInput_withRots hfits _ _ _ _ _ _
    · exact hfits
  rw [hr]
  exact s.takeSample_withRots_releaseHeld r c s.sampleStart rv ri rt

/-! ## Mirrors (R219) -/

theorem State.metChans_nodup (s : State) : s.metChans.Nodup :=
  s.channels_nodup.sublist (List.filter_sublist.flatMap siteChans)

/-- The mirrors of an epoch, as a channel's samples give them. -/
def QChan.MirrorsOf (y x : QChan) (epochLt : Nat) : Prop :=
  y.mLt = some epochLt ∧ y.mQ = x.wChargeAt epochLt ∧ y.mE = x.wEnergyAt epochLt

theorem State.formMirror_mirrors {s : State} {epochLt c : Nat}
    (hcovered : covered (s.qc c).hist (epochLt - s.epochNs) epochLt ≠ 0)
    (hreaches : (s.qc c).reaches epochLt = true) :
    ((s.formMirror epochLt c).qc c).MirrorsOf (s.qc c) epochLt := by
  unfold State.formMirror
  rw [if_neg (by simp [hcovered, hreaches]), State.qc_setQc_self]
  exact ⟨rfl, rfl, rfl⟩

theorem State.formMirror_qc_ne (s : State) (epochLt : Nat) {c d : Nat} (h : d ≠ c) :
    (s.formMirror epochLt c).qc d = s.qc d := by
  unfold State.formMirror
  extract_lets x a
  split
  · rfl
  · rw [State.qc_setQc_ne _ _ h]

theorem State.formMirror_epochNs (s : State) (epochLt c : Nat) : (s.formMirror epochLt c).epochNs = s.epochNs := by
  unfold State.formMirror
  extract_lets x a
  split
  · rfl
  · rfl

theorem mirrorMeans_gives {s : State} (epochLt : Nat) (hup : s.qmUp = true) :
    Gives (.mirrorMeans epochLt) s fun t =>
      ∀ c ∈ s.metChans, (look [] s.qm.markers (dieOf c)).contains epochLt = true →
        covered (s.qc c).hist (epochLt - s.epochNs) epochLt ≠ 0 → (s.qc c).reaches epochLt = true →
        (t.qc c).MirrorsOf (s.qc c) epochLt := by
  refine .of_guard rfl hup fun c hc hmarker => ?_
  refine each_nodup_reaches (q := fun c y => y.qc c = s.qc c ∧ y.epochNs = s.epochNs)
    (p := fun c y => covered (s.qc c).hist (epochLt - s.epochNs) epochLt ≠ 0 → (s.qc c).reaches epochLt = true →
      (y.qc c).MirrorsOf (s.qc c) epochLt)
    (s.metChans_nodup.filter _) (fun _ _ => ⟨rfl, rfl⟩) ?forms ?finds ?keeps c (List.mem_filter.2 ⟨hc, hmarker⟩)
  case forms =>
    rintro x _ y ⟨hqc, hepoch⟩ hcovered hreaches
    rw [← hqc, ← hepoch] at hcovered
    rw [← hqc] at hreaches ⊢
    exact State.formMirror_mirrors hcovered hreaches
  case finds =>
    rintro z _ y x hzx ⟨hqc, hepoch⟩
    exact ⟨(y.formMirror_qc_ne epochLt hzx).trans hqc, (y.formMirror_epochNs epochLt x).trans hepoch⟩
  case keeps =>
    intro z _ y x hzx hy
    rwa [y.formMirror_qc_ne epochLt hzx]

/-! ## Records of a channel and of the mains (R218, R221, R223, R234) -/

theorem periodicRecord_gives {s : State} {c : Nat} (hup : s.qmUp = true) (hpop : s.chanPop c = true)
    (hdue : s.periodicDue c = true) (hfree : s.holds c (s.qc c).gangSize (s.nextIntEnd c) = false) :
    Gives (.periodicRecord c) s fun t =>
      (t.qc c).intStart = (s.qc c).intEnd ∧ (s.recRoom 2 = true → t.qm.nextRec = s.qm.nextRec + 1) ∧
      (s.recRoom 2 = false → t.qm.dropped = s.qm.dropped + 1 ∧ (t.qc c).pgap = true) := by
  refine .of_guard rfl ⟨hup, hpop, hdue⟩ ?_
  obtain ⟨body, hrecord⟩ := s.doPeriodic_eq c
  rw [hrecord, if_neg (Bool.eq_false_iff.1 hfree), State.qc_setQc_self]
  refine ⟨rfl, fun hroom => State.putRec_nextRec hroom body, fun hfull => ⟨State.putRec_dropped hfull body, ?_⟩⟩
  rw [hfull, Bool.not_false, Bool.or_true]

/-- The AC registers stand after their record as they took the energies, and the record is numbered if it has room. -/
theorem State.putRec_mains {s t : State} {es : List Rat} {sec : Nat}
    (ht : t.qm = { s.qm.takeAc es with acSec := sec, lastAc := t.qm.lastAc }) (body : Nat → List Byte) :
    (t.putRec 3 body).qm.acImp = (s.qm.takeAc es).acImp ∧ (t.putRec 3 body).qm.acExp = (s.qm.takeAc es).acExp ∧
      (t.putRec 3 body).qm.acSec = sec ∧
      (s.recRoom 3 = true → (t.putRec 3 body).qm.nextRec = s.qm.nextRec + 1) := by
  obtain ⟨himp, hexp, hsec⟩ := (t.putRec_recordsOnly 3 body).mains
  rw [himp, hexp, hsec, ht]
  refine ⟨rfl, rfl, rfl, fun hroom => ?_⟩
  have hroom : t.recRoom 3 = true := by
    rwa [State.recRoom, ht]
  rw [State.putRec_nextRec hroom, ht]
  rfl

theorem acRecord_gives {s : State} {samples : List (List Int)} {es : List Rat} (hup : s.qmUp = true)
    (hnew : s.qm.acSec < s.qmLt / 1000000000)
    (hes : ((List.range 3).map fun k => phaseEnergy (s.acStream k (samples.map fun x => x.getD k 0))
      (s.acStream (3 + k) (samples.map fun x => x.getD (3 + k) 0))) = es) :
    Gives (.acRecord samples) s fun t =>
      t.qm.acImp = (s.qm.takeAc es).acImp ∧ t.qm.acExp = (s.qm.takeAc es).acExp ∧
      t.qm.acSec = s.qmLt / 1000000000 ∧ (s.recRoom 3 = true → t.qm.nextRec = s.qm.nextRec + 1) := by
  refine .of_guard rfl ⟨hup, hnew⟩ ?_
  extract_lets _ _ st _ y b
  have hphases : (List.range 3).map (fun k => phaseEnergy (st.getD k []) (st.getD (3 + k) [])) = es := by
    rw [← hes]
    refine List.map_congr_left fun k hk => ?_
    have hk : k < 3 := List.mem_range.1 hk
    simp [st, show k < 6 by omega, show 3 + k < 6 by omega]
  refine State.putRec_mains ?_ _
  unfold y
  rw [hphases]
  rfl

theorem impedanceRecord_gives {s : State} {c f e b : Nat} {w : QStep} (hup : s.qmUp = true)
    (hpop : s.chanPop c = true) (hstep : (s.qc c).step = some w) (hmode : w.mode = 9)
    (hpoint : s.sweepPoint w = some (f, e, b)) (hended : b ≤ s.qmLt) (hfree : s.holds c w.gang b = false) :
    Gives (.impedanceRecord c) s fun t =>
      (t.qc c).step.map (·.point) = some (w.point + 1) ∧ (s.recRoom 4 = true → t.qm.nextRec = s.qm.nextRec + 1) ∧
      (s.recRoom 4 = false → t.qm.dropped = s.qm.dropped + 1 ∧ (t.qc c).pgap = true) := by
  have hdue : s.impedanceDue c = true := by
    simp [State.impedanceDue, hstep, hmode, hpoint, hended]
  refine .of_guard rfl ⟨hup, hpop, hdue⟩ ?_
  obtain ⟨body, z, hrecord, hz⟩ := State.doImpedance_eq hstep hpoint
  rw [hrecord, if_neg (Bool.eq_false_iff.1 hfree), State.qc_setQc_self]
  refine ⟨congrArg some hz, fun hroom => State.putRec_nextRec hroom body, fun hfull =>
    ⟨State.putRec_dropped hfull body, ?_⟩⟩
  rw [hfull, Bool.not_false, Bool.or_true]

/-! ## Checkpoints and batches (R226 to R229) -/

theorem checkpoint_gives {s : State} (hup : s.qmUp = true)
    (hdue : s.qm.checked = true → s.qm.ckAt + 1000000000 ≤ s.mclkNow) :
    Gives .checkpoint s fun t =>
      t.qm.checked = true ∧ t.qm.ckLt = s.qmLt ∧ t.qm.ckAt = s.mclkNow ∧ t.qm.ckMods = s.qm.mods := by
  have hguard : !s.qm.checked ∨ s.qm.ckAt + 1000000000 ≤ s.mclkNow := by
    cases hchecked : s.qm.checked
    case false => exact .inl rfl
    case true => exact .inr (hdue hchecked)
  exact .of_guard rfl ⟨hup, hguard⟩ ⟨rfl, rfl, rfl, rfl⟩

theorem batchClose_gives {s : State} (hup : s.qmUp = true) (hdue : s.batchDue = true) :
    Gives .batchClose s fun t =>
      t.qm.lastBat = s.qm.lastBat + 1 ∧ t.qm.unbatched = s.qm.unbatched + min 4096 s.qm.waiting ∧
      lookup? (s.qm.lastBat + 1) t.qm.bats = some ⟨s.qm.unbatched, min 4096 s.qm.waiting,
        s.batchHeader (min 4096 s.qm.waiting),
        Config.mldsaSign 1 metCtx (s.batchHeader (min 4096 s.qm.waiting))⟩ := by
  refine .of_guard rfl ⟨hup, hdue⟩ ?_
  unfold State.closeBatch
  rw [State.checkHold_qm]
  exact ⟨rfl, rfl, lookup?_put_self ..⟩

/-- Settles O20: each command's guard holds, so its effect is read off its operation; what waited leaves the
integrators alone, and the frame is that of the command. -/
theorem measurement : Obligations.Measurement := by
  refine ⟨?sample, ?mirrors, ?periodic, ?mains, ?impedance, ?checkpoint, ?batch⟩
  case sample =>
    intro c v i x spare spareT y s hup hpop hframed hdue hgroup htemp hy
    exact (integratorSample_gives v i x spare spareT hup hpop hframed hdue hgroup htemp hy).framed fun k hk =>
      execIntegratorSample_same hk (.refl k s)
  case mirrors =>
    intro epochLt s hup
    exact (mirrorMeans_gives epochLt hup).framed fun k hk => execMirrorMeans_same hk (.refl k s)
  case periodic =>
    intro c s hup hpop hdue hfree
    exact (periodicRecord_gives hup hpop hdue hfree).framed fun k hk => execPeriodicRecord_same hk (.refl k s)
  case mains =>
    intro samples es s hup hnew hes
    exact (acRecord_gives hup hnew hes).framed fun k hk => execAcRecord_same hk (.refl k s)
  case impedance =>
    intro c f e b w s hup hpop hstep hmode hpoint hended hfree
    exact (impedanceRecord_gives hup hpop hstep hmode hpoint hended hfree).framed fun k hk =>
      execImpedanceRecord_same hk (.refl k s)
  case checkpoint =>
    intro s hup hdue
    exact (checkpoint_gives hup hdue).framed fun k hk => execCheckpoint_same hk (.refl k s)
  case batch =>
    intro s hup hdue
    exact (batchClose_gives hup hdue).framed fun k hk => execBatchClose_same hk (.refl k s)

end Sys2Proof.Machine
end

section
/-! The statement on the rotation of the spare modulators: overlap, takeover, commit, and the calibrations that follow. -/

namespace Sys2Proof.Machine

/-! ## Rotation groups and modulators -/

@[simp] theorem State.rot_setRot_self (s : State) (site g : Nat) (x : Rot) : (s.setRot site g x).rot site g = x :=
  look_put_self ..

@[simp] theorem State.rot_calEvent (s : State) (kind site g m n h : Nat) :
    (s.calEvent kind site g m).rot n h = s.rot n h := rfl

@[simp] theorem State.modl_setModl_self (s : State) (site m : Nat) (x : Modl) : (s.setModl site m x).modl site m = x := by
  rw [State.modl]
  exact congrArg (Option.getD · _) (lookup?_put_self s.qm.mods (256 * site + m) x)

@[simp] theorem State.modl_setRot (s : State) (site g n m : Nat) (x : Rot) :
    (s.setRot site g x).modl n m = s.modl n m := rfl

@[simp] theorem State.modl_calEvent (s : State) (kind site g w n m : Nat) :
    (s.calEvent kind site g w).modl n m = s.modl n m := rfl

theorem Modl.trim_setTrim (x : Modl) (kind : Nat) (t : Trim) :
    (x.setTrim (rangeOf kind) t).trim (rangeOf kind) = t := by
  by_cases h : rangeOf kind = 1
  · simp [Modl.setTrim, Modl.trim, h]
  · simp [Modl.setTrim, Modl.trim, h]

/-- The count of a site goes up by one. -/
theorem look_countSite_self (t : Tbl Nat) (site : Nat) :
    look 0 (countSite t site) site = (look 0 t site + 1) % 2 ^ 32 := look_put_self ..

/-! ## What waited leaves the rotation (R255) -/

/-- The rotation groups and the counts of their cycles. -/
def Qm.rotation (q : Qm) : Tbl Rot × Tbl Nat × Tbl Nat := (q.rots, q.cycles, q.abandons)

theorem State.rot_of_rotation {s t : State} (h : t.qm.rotation = s.qm.rotation) (site g : Nat) :
    t.rot site g = s.rot site g := by
  rw [State.rot, State.rot, show t.qm.rots = s.qm.rots from congrArg Prod.fst h]

theorem Qm.RecordsOnly.rotation {q r : Qm} (h : q.RecordsOnly r) : r.rotation = q.rotation := by
  rw [h]
  rfl

@[simp] theorem State.setQc_rotation (s : State) (c : Nat) (x : QChan) : (s.setQc c x).qm.rotation = s.qm.rotation :=
  rfl

@[simp] theorem State.setModl_rotation (s : State) (site m : Nat) (x : Modl) :
    (s.setModl site m x).qm.rotation = s.qm.rotation := rfl

@[simp] theorem State.calEvent_rotation (s : State) (kind site g m : Nat) :
    (s.calEvent kind site g m).qm.rotation = s.qm.rotation := rfl

@[simp] theorem State.draw_rotation (s : State) : s.draw.qm.rotation = s.qm.rotation := rfl

theorem State.closeQStep_rotation (s : State) (c endLt cause next : Nat) :
    (s.closeQStep c endLt cause next).qm.rotation = s.qm.rotation := by
  unfold State.closeQStep
  extract_lets x q e
  split
  case h_1 => rfl
  case h_2 w _ => exact (s.writeRec_recordsOnly 1 (s.stepRecord c w endLt cause)).rotation

theorem State.doStepStart_rotation (s : State) (i : Instr) : (s.doStepStart i).qm.rotation = s.qm.rotation := by
  unfold State.doStepStart
  split
  case h_1 c row _ _ _ _ origin _ _ _ _ =>
    split
    · rfl
    · exact s.closeQStep_rotation c origin 5 row
  case h_2 => rfl

theorem State.doStepClose_rotation (s : State) (i : Instr) : (s.doStepClose i).qm.rotation = s.qm.rotation := by
  unfold State.doStepClose
  split
  case h_1 =>
    split
    · rfl
    · exact s.closeQStep_rotation ..
  case h_2 => rfl

theorem State.doPeriodic_rotation (s : State) (c : Nat) : (s.doPeriodic c).qm.rotation = s.qm.rotation := by
  obtain ⟨body, hrecord⟩ := s.doPeriodic_eq c
  rw [hrecord]
  split
  · rfl
  · rw [State.setQc_rotation, State.draw_rotation]
    exact (s.putRec_recordsOnly 2 body).rotation

theorem State.doImpedance_rotation (s : State) (c : Nat) : (s.doImpedance c).qm.rotation = s.qm.rotation := by
  cases hstep : (s.qc c).step
  case none => simp only [State.doImpedance, hstep]
  case some w =>
    cases hpoint : s.sweepPoint w
    case none => simp only [State.doImpedance, hstep, hpoint]
    case some p =>
      obtain ⟨body, z, hrecord, -⟩ := State.doImpedance_eq hstep hpoint
      rw [hrecord]
      split
      · rfl
      · rw [State.setQc_rotation, State.draw_rotation, State.draw_rotation]
        exact (s.putRec_recordsOnly 4 body).rotation

theorem State.runHeld_rotation (s : State) (i : Instr) : (s.runHeld i).qm.rotation = s.qm.rotation := by
  unfold State.runHeld
  split
  · exact s.doStepStart_rotation _
  · exact s.doStepClose_rotation _
  · split
    · exact s.doPeriodic_rotation _
    · rfl
  · exact s.doImpedance_rotation _
  · rfl

theorem State.releaseHeld_rotation (s : State) : s.releaseHeld.qm.rotation = s.qm.rotation :=
  each_keep (fun y => y.qm.rotation) _ _ (fun y i => y.runHeld_rotation i) _

/-- Updates of channels leave the rotation. -/
theorem each_setQc_rotation (l : List Nat) (f : QChan → QChan) (s : State) :
    (each l (fun y m => y.setQc m (f (y.qc m))) s).qm.rotation = s.qm.rotation :=
  each_keep (fun y => y.qm.rotation) l (fun y m => y.setQc m (f (y.qc m))) (fun y m => y.setQc_rotation m _) s

/-! ## The cycle (R253 to R261) -/

theorem overlapStart_gives {s : State} {site g : Nat} (hrun : s.rotates site g = true)
    (hphase : (s.rot site g).phase = 0) (hspare : ((s.rot site g).spareOf g).isSome = true)
    (hnext : (s.rot site g).next ≤ s.mclkNow) :
    Gives (.overlapStart site g) s fun t =>
      (t.rot site g).phase = 1 ∧ (t.rot site g).s = max (s.rot site g).next (s.mclkNow / interval * interval) ∧
      (t.rot site g).fit = {} := by
  refine .of_guard rfl ⟨hrun, hphase, hspare, hnext⟩ ?_
  rw [State.rot_setRot_self]
  exact ⟨rfl, rfl, rfl⟩

theorem provisionalTakeover_gives {s : State} {site g : Nat} {x : Rot} {r : Rat × Rat} (hx : s.rot site g = x)
    (hr : x.fit.solve (inputKind g x.input) = r) (hrun : s.rotates site g = true) (hphase : x.phase = 1)
    (hdone : s.windowDone site g x = true) (hsamples : x.fit.n ≠ 0)
    (hfits : x.fit.residual r.1 r.2 ≤
      residualLimit (inputKind g x.input) * residualLimit (inputKind g x.input)) :
    Gives (.provisionalTakeover site g) s fun t =>
      (t.rot site g).phase = 2 ∧ (t.rot site g).h = x.s + fitWindow ∧ (t.rot site g).gain = r.1 ∧
      (t.rot site g).offs = r.2 := by
  subst hx hr
  refine .of_guard rfl ⟨hrun, hphase, hdone⟩ ?_
  extract_lets h kind r
  rw [if_neg (not_or.2 ⟨hsamples, not_lt.2 hfits⟩), State.rot_setRot_self]
  exact ⟨rfl, rfl, rfl, rfl⟩

/-- A cycle abandoned waits for the time given, and is counted, whether or not the spare moves on. -/
theorem State.abandonCycle_rot (s : State) (site g next : Nat) :
    ((s.abandonCycle site g next).rot site g).phase = 0 ∧ ((s.abandonCycle site g next).rot site g).next = next ∧
      look 0 (s.abandonCycle site g next).qm.abandons site = (look 0 s.qm.abandons site + 1) % 2 ^ 32 := by
  unfold State.abandonCycle
  extract_lets y x
  split
  · rw [State.rot_calEvent, State.rot_setRot_self]
    exact ⟨rfl, rfl, look_countSite_self ..⟩
  · rw [State.rot_setRot_self]
    exact ⟨rfl, rfl, look_countSite_self ..⟩

theorem provisionalTakeover_abandons {s : State} {site g : Nat} {x : Rot} {r : Rat × Rat} (hx : s.rot site g = x)
    (hr : x.fit.solve (inputKind g x.input) = r) (hrun : s.rotates site g = true) (hphase : x.phase = 1)
    (hdone : s.windowDone site g x = true)
    (hbad : x.fit.n = 0 ∨
      residualLimit (inputKind g x.input) * residualLimit (inputKind g x.input) < x.fit.residual r.1 r.2) :
    Gives (.provisionalTakeover site g) s fun t =>
      (t.rot site g).phase = 0 ∧ (t.rot site g).next = boundaryAfter (x.s + fitWindow) ∧
      look 0 t.qm.abandons site = (look 0 s.qm.abandons site + 1) % 2 ^ 32 := by
  subst hx hr
  refine .of_guard rfl ⟨hrun, hphase, hdone⟩ ?_
  extract_lets h kind r
  rw [if_pos hbad]
  exact s.abandonCycle_rot site g (boundaryAfter h)

/-- The drift check of a commit leaves the rotation. -/
theorem State.driftCheck_rotation (s : State) (site g w : Nat) (x : Rot) :
    (s.driftCheck site g w x).qm.rotation = s.qm.rotation := by
  unfold State.driftCheck
  extract_lets m y
  have hy : y.qm.rotation = s.qm.rotation := State.calEvent_rotation ..
  split
  · split
    · rw [State.calEvent_rotation, State.setModl_rotation, hy]
    · rw [State.setModl_rotation, hy]
  · rw [State.setModl_rotation]

/-- A commit at an instant: the modulator that served the input is freed, the group has no spare and goes on to its next
input, and the cycle is counted. -/
theorem State.commitCycle_rot (s : State) (site g c : Nat) {x : Rot} (hx : s.rot site g = x) :
    ∃ mods phase,
      (s.commitCycle site g c).rot site g = { x with
        mods := mods, spare := none, moved := true, phase := phase, c := c, cAt := none, next := c + 10000000000,
        freed := (x.serving g).getD x.input 0, steps := 0, abandons := 0, input := nextInput g x.input } ∧
      look 0 (s.commitCycle site g c).qm.cycles site = (look 0 s.qm.cycles site + 1) % 2 ^ 32 := by
  subst hx
  unfold State.commitCycle
  extract_lets x w n y z bad
  have hy : y.qm.cycles = s.qm.cycles :=
    congrArg (·.2.1) (each_setQc_rotation _ (·.keepSpare (inputKind g x.input)) s)
  have hz : z.qm.cycles = countSite y.qm.cycles site := congrArg (·.2.1) (State.driftCheck_rotation ..)
  refine ⟨_, _, State.rot_setRot_self .., ?_⟩
  change look 0 z.qm.cycles site = _
  rw [hz, hy, look_countSite_self]

/-- A commit that is due is decided by the milestones of the input (R256, R260). -/
theorem exec_rotationCommit {s : State} {site g c : Nat} (hat : s.commitAt (s.rot site g) = some c)
    (hrun : s.rotates site g = true) (hphase : (s.rot site g).phase = 2) (hdue : c ≤ s.mclkNow) :
    exec (.rotationCommit site g) s = .next (if s.milestoneIn site g (s.rot site g) then
      ((each (inputChans site g (s.rot site g).input) (fun y m => y.setQc m
        ((y.qc m).restoreW (s.rot site g).h (inputKind g (s.rot site g).input))) s).abandonCycle site g
          (boundaryAfter c)).releaseHeld
      else (s.commitCycle site g c).releaseHeld) := by
  change execRotationCommit site g s = _
  simp only [execRotationCommit, hat]
  rw [if_pos ⟨hrun, hphase, hdue⟩]

theorem rotationCommit_gives {s : State} {site g c : Nat} (hat : s.commitAt (s.rot site g) = some c)
    (hrun : s.rotates site g = true) (hphase : (s.rot site g).phase = 2) (hdue : c ≤ s.mclkNow)
    (hclear : s.milestoneIn site g (s.rot site g) = false) :
    Gives (.rotationCommit site g) s fun t =>
      (t.rot site g).c = c ∧ (t.rot site g).next = c + 10000000000 ∧ (t.rot site g).steps = 0 ∧
      (t.rot site g).spare = none ∧
      (t.rot site g).freed = ((s.rot site g).serving g).getD (s.rot site g).input 0 ∧
      (t.rot site g).input = nextInput g (s.rot site g).input ∧
      look 0 t.qm.cycles site = (look 0 s.qm.cycles site + 1) % 2 ^ 32 := by
  refine ⟨_, exec_rotationCommit hat hrun hphase hdue, ?_⟩
  rw [if_neg (Bool.eq_false_iff.1 hclear)]
  obtain ⟨mods, phase, hrot, hcycles⟩ := s.commitCycle_rot site g c rfl
  have hkept := (s.commitCycle site g c).releaseHeld_rotation
  rw [State.rot_of_rotation hkept, hrot]
  exact ⟨rfl, rfl, rfl, rfl, rfl, rfl, (congrArg (look 0 ·.2.1 site) hkept).trans hcycles⟩

theorem rotationCommit_abandons {s : State} {site g c : Nat} (hat : s.commitAt (s.rot site g) = some c)
    (hrun : s.rotates site g = true) (hphase : (s.rot site g).phase = 2) (hdue : c ≤ s.mclkNow)
    (hmilestone : s.milestoneIn site g (s.rot site g) = true) :
    Gives (.rotationCommit site g) s fun t =>
      (t.rot site g).phase = 0 ∧ (t.rot site g).next = boundaryAfter c ∧
      look 0 t.qm.abandons site = (look 0 s.qm.abandons site + 1) % 2 ^ 32 := by
  refine ⟨_, exec_rotationCommit hat hrun hphase hdue, ?_⟩
  rw [if_pos hmilestone]
  generalize hy : each (inputChans site g (s.rot site g).input) (fun y m => y.setQc m
    ((y.qc m).restoreW (s.rot site g).h (inputKind g (s.rot site g).input))) s = y
  have habandons : y.qm.abandons = s.qm.abandons := by
    rw [← hy]
    exact congrArg (·.2.2) (each_setQc_rotation _ (·.restoreW _ _) s)
  obtain ⟨hwaits, hnext, hcount⟩ := y.abandonCycle_rot site g (boundaryAfter c)
  have hkept := (y.abandonCycle site g (boundaryAfter c)).releaseHeld_rotation
  rw [State.rot_of_rotation hkept]
  exact ⟨hwaits, hnext, (congrArg (look 0 ·.2.2 site) hkept).trans (habandons ▸ hcount)⟩

/-! ## The freed modulator (R258, R259, R262) -/

theorem freedCalibrationPhase_gives {s : State} {site g k : Nat} (mean : Int) (hrun : s.rotates site g = true)
    (hphase : (s.rot site g).phase = 3) (hk : k < 3) (hsteps : (s.rot site g).steps = k)
    (hdue : (s.rot site g).c + phaseEnd k ≤ s.mclkNow) :
    Gives (.freedCalibrationPhase site g k mean) s fun t =>
      (t.rot site g).steps = k + 1 ∧ (t.rot site g).phase = 3 ∧ (k = 0 → (t.rot site g).zero = mean) ∧
      (k = 1 → (t.rot site g).pointA = mean) ∧
      (k = 2 → (t.modl site (s.rot site g).freed).trim (rangeOf (inputKind g (s.rot site g).input)) =
        s.newTrim site (s.rot site g).freed (inputKind g (s.rot site g).input) (s.rot site g).zero
          (s.rot site g).pointA) := by
  refine .of_guard rfl ⟨hrun, hphase, hk, hsteps, hdue⟩ ?_
  obtain rfl | rfl | rfl : k = 0 ∨ k = 1 ∨ k = 2 := by omega
  · rw [if_pos rfl, State.rot_setRot_self]
    exact ⟨rfl, hphase, fun _ => rfl, nofun, nofun⟩
  · rw [if_neg (by decide), if_pos rfl, State.rot_setRot_self]
    exact ⟨rfl, hphase, nofun, fun _ => rfl, nofun⟩
  · rw [if_neg (by decide), if_neg (by decide), State.rot_setRot_self, State.modl_setRot, State.modl_setModl_self]
    exact ⟨rfl, hphase, nofun, nofun, fun _ => Modl.trim_setTrim ..⟩

theorem State.becomeSpare_rot (s : State) (site g m : Nat) :
    ((s.becomeSpare site g m).rot site g).phase = 0 ∧ ((s.becomeSpare site g m).rot site g).spare = some m := by
  rw [State.becomeSpare, State.rot_setRot_self]
  exact ⟨rfl, rfl⟩

theorem freedCalibrationEnd_gives {s : State} {site g : Nat} (hrun : s.rotates site g = true)
    (hphase : (s.rot site g).phase = 3) (hsteps : (s.rot site g).steps = 3)
    (hdue : (s.rot site g).c + 10000000000 ≤ s.mclkNow) :
    Gives (.freedCalibrationEnd site g) s fun t =>
      if (s.rot site g).bad = true then
        (t.modl site (s.rot site g).freed).suspect = true ∧ (t.rot site g).phase = 4 ∧
          t.qm.events = s.qm.events ++ [.calibration 1 site g (s.rot site g).freed]
      else (t.rot site g).phase = 0 ∧ (t.rot site g).spare = some (s.rot site g).freed := by
  refine .of_guard rfl ⟨hrun, hphase, hsteps, hdue⟩ ?_
  by_cases hbad : (s.rot site g).bad = true
  · simp only [if_pos hbad]
    rw [State.modl_calEvent, State.modl_setRot, State.modl_setModl_self, State.rot_calEvent, State.rot_setRot_self]
    exact ⟨rfl, rfl, rfl⟩
  · simp only [if_neg hbad]
    exact s.becomeSpare_rot ..

/-- A modulator with the trims of a recalibration at an MCLK time. -/
def Modl.recalibrated (x : Modl) (kind : Nat) (t : Trim) (now : Nat) : Modl :=
  { x.calibrated kind t with lastRun := now }

/-- A recalibration brings its trims and leaves the mark and the count of passes to its outcome. -/
theorem Modl.recalibrated_marks (x : Modl) (kind : Nat) (t : Trim) (now : Nat) :
    (x.recalibrated kind t now).trim (rangeOf kind) = t ∧ (x.recalibrated kind t now).suspect = x.suspect ∧
      (x.recalibrated kind t now).passes = x.passes := by
  refine ⟨x.trim_setTrim kind t, ?_⟩
  unfold Modl.recalibrated Modl.calibrated Modl.setTrim
  split
  · exact ⟨rfl, rfl⟩
  · exact ⟨rfl, rfl⟩

/-- A recalibration that is due fails at point B, is the second pass in a row, or is the first. -/
theorem exec_suspectRecalibration {s : State} {site g m kind : Nat} {zero a : Int} (b : Int) {y : Trim}
    (hrun : s.rotates site g = true) (hgroup : groupOfMod m = g) (hm : m ≤ 140)
    (hsuspect : (s.modl site m).suspect = true) (hdue : (s.modl site m).lastRun + 600000000000 ≤ s.mclkNow)
    (hkind : inputKind g (s.rot site g).input = kind) (hy : s.newTrim site m kind zero a = y) {z : Modl}
    (hz : (s.modl site m).recalibrated kind y s.mclkNow = z) :
    exec (.suspectRecalibration site g m zero a b) s = .next (
      if s.failsB site m kind y b then s.setModl site m { z with passes := 0 }
      else if 1 ≤ z.passes then
        ((s.setModl site m { z with suspect := false, passes := 0, drifts := 0 }).becomeSpare site g m).calEvent 2 site g m
      else s.setModl site m { z with passes := z.passes + 1 }) := by
  subst hkind hy hz
  change execSuspectRecalibration site g m zero a b s = _
  rw [execSuspectRecalibration, if_pos ⟨hrun, hgroup, hm, hsuspect, hdue⟩]
  rfl

theorem suspectRecalibration_gives {s : State} {site g m kind : Nat} {zero a : Int} (b : Int) {y : Trim}
    (hrun : s.rotates site g = true) (hgroup : groupOfMod m = g) (hm : m ≤ 140)
    (hsuspect : (s.modl site m).suspect = true) (hdue : (s.modl site m).lastRun + 600000000000 ≤ s.mclkNow)
    (hkind : inputKind g (s.rot site g).input = kind) (hy : s.newTrim site m kind zero a = y) :
    Gives (.suspectRecalibration site g m zero a b) s fun t =>
      (t.modl site m).trim (rangeOf kind) = y ∧ (t.modl site m).lastRun = s.mclkNow ∧
      if s.failsB site m kind y b = true then (t.modl site m).suspect = true ∧ (t.modl site m).passes = 0
      else if 1 ≤ (s.modl site m).passes then (t.modl site m).suspect = false ∧ (t.rot site g).spare = some m
      else (t.modl site m).suspect = true ∧ (t.modl site m).passes = (s.modl site m).passes + 1 := by
  refine ⟨_, exec_suspectRecalibration b hrun hgroup hm hsuspect hdue hkind hy rfl, ?_⟩
  obtain ⟨htrim, hmark, hpasses⟩ := (s.modl site m).recalibrated_marks kind y s.mclkNow
  rw [hpasses]
  by_cases hbad : s.failsB site m kind y b = true
  · simp only [if_pos hbad, State.modl_setModl_self]
    exact ⟨htrim, rfl, hmark.trans hsuspect, trivial⟩
  by_cases hpass : 1 ≤ (s.modl site m).passes
  · simp only [if_neg hbad, if_pos hpass]
    rw [State.modl_calEvent, State.becomeSpare, State.modl_setRot, State.modl_setModl_self, State.rot_calEvent,
      State.rot_setRot_self]
    exact ⟨htrim, rfl, rfl, rfl⟩
  · simp only [if_neg hbad, if_neg hpass, State.modl_setModl_self]
    exact ⟨htrim, rfl, hmark.trans hsuspect, trivial⟩

theorem calibrationAgeEvent_gives {s : State} {site m p : Nat} (hup : s.qmUp = true) (hpop : s.sitePop site = true)
    (hm : m ≤ 140) (hserved : s.servedBy site m = some p)
    (hold : (s.trimAt site (groupOfMod m) p m).old s.mclkNow = true) (hnew : (s.modl site m).aged = false) :
    Gives (.calibrationAgeEvent site m) s fun t =>
      (t.modl site m).aged = true ∧
        t.qm.events = s.qm.events ++ [.calibration 4 site (groupOfMod m) m] := by
  refine .of_guard rfl ⟨hup, hpop, hm, by simpa [hserved] using hold, by rw [hnew, Bool.not_false]⟩ ?_
  rw [State.modl_calEvent, State.modl_setModl_self]
  exact ⟨rfl, rfl⟩

/-- Settles O22: each command's guard holds, so its effect is read off its operation, what waited leaving the rotation
alone; the frame is that of the command. -/
theorem rotation : Obligations.Rotation := by
  refine ⟨?overlap, ?takeover, ?noTakeover, ?commit, ?noCommit, ?phase, ?freed, ?suspect, ?age⟩
  case overlap =>
    intro site g s hrun hphase hspare hnext
    exact (overlapStart_gives hrun hphase hspare hnext).framed fun k hk => execOverlapStart_same hk (.refl k s)
  case takeover =>
    intro site g x r s hx hr hrun hphase hdone hsamples hfits
    exact (provisionalTakeover_gives hx hr hrun hphase hdone hsamples hfits).framed fun k hk =>
      execProvisionalTakeover_same hk (.refl k s)
  case noTakeover =>
    intro site g x r s hx hr hrun hphase hdone hbad
    exact (provisionalTakeover_abandons hx hr hrun hphase hdone hbad).framed fun k hk =>
      execProvisionalTakeover_same hk (.refl k s)
  case commit =>
    intro site g c s hat hrun hphase hdue hclear
    exact (rotationCommit_gives hat hrun hphase hdue hclear).framed fun k hk =>
      execRotationCommit_same hk (.refl k s)
  case noCommit =>
    intro site g c s hat hrun hphase hdue hmilestone
    exact (rotationCommit_abandons hat hrun hphase hdue hmilestone).framed fun k hk =>
      execRotationCommit_same hk (.refl k s)
  case phase =>
    intro site g k mean s hrun hphase hk hsteps hdue
    exact (freedCalibrationPhase_gives mean hrun hphase hk hsteps hdue).framed fun k hk =>
      execFreedCalibrationPhase_same hk (.refl k s)
  case freed =>
    intro site g s hrun hphase hsteps hdue
    exact (freedCalibrationEnd_gives hrun hphase hsteps hdue).framed fun k hk =>
      execFreedCalibrationEnd_same hk (.refl k s)
  case suspect =>
    intro site g m kind zero a b y s hrun hgroup hm hsuspect hdue hkind hy
    exact (suspectRecalibration_gives b hrun hgroup hm hsuspect hdue hkind hy).framed fun k hk =>
      execSuspectRecalibration_same hk (.refl k s)
  case age =>
    intro site m p s hup hpop hm hserved hold hnew
    exact (calibrationAgeEvent_gives hup hpop hm hserved hold hnew).framed fun k hk =>
      execCalibrationAgeEvent_same hk (.refl k s)

end Sys2Proof.Machine
end

section
/-! The statement on path diagnosis of the ADC units and on the calibration values of the control path. -/

namespace Sys2Proof.Machine

/-! ## Diagnoses (R264, R265) -/

theorem State.adc_setAdc_ne (s : State) (d : Nat) {u v : Nat} (x : Adc) (h : u ≠ v) :
    (s.setAdc d v x).adc d u = s.adc d u := look_put_ne _ _ _ (by omega)

/-- A diagnosis occupies its unit from now on and is counted. -/
theorem State.startDiag_unit (s : State) (die u : Nat) (rep : Bool) :
    (s.startDiag die u rep).adc die u = { s.adc die u with
      diagUntil := some (s.lt + 400000), repeatAt := none, repeated := rep, waiting := false, lastDiag := s.lt } ∧
    (s.startDiag die u rep).rd (diagObj die) 2 (dieI die) = (s.rd (diagObj die) 2 (dieI die) + 1) % 2 ^ 32 := by
  rw [State.startDiag, State.inc, State.adc_wr, State.adc_setAdc, State.rd_wr_self]
  exact ⟨rfl, rfl⟩

theorem State.adc_startDiag_ne (s : State) (die : Nat) {u v : Nat} (rep : Bool) (h : u ≠ v) :
    (s.startDiag die v rep).adc die u = s.adc die u := s.adc_setAdc_ne die _ h

/-- A unit that waits is marked, counted or not. -/
theorem State.waitDiag_unit (s : State) (die u : Nat) :
    ((s.waitDiag die u).adc die u).diagUntil = (s.adc die u).diagUntil ∧
      ((s.waitDiag die u).adc die u).waiting = true := by
  unfold State.waitDiag
  extract_lets x y
  have hy : y.adc die u = { x with waiting := true } := State.adc_setAdc ..
  split
  case isTrue hwaiting => exact ⟨rfl, hwaiting⟩
  case isFalse =>
    split
    · rw [State.inc, State.adc_wr, hy]
      exact ⟨rfl, rfl⟩
    · rw [State.inc, State.adc_wr, hy]
      exact ⟨rfl, rfl⟩

section
variable {s : State} {die u d : Nat}

/-- A diagnosis that is due waits, or starts unless another of its die runs. -/
theorem exec_pathDiagnosis (hup : s.diagUp die = true) (hu : u < unitCount die)
    (hfree : (s.adc die u).diagUntil = none) (honce : (s.adc die u).repeatAt = none)
    (hdue : s.diagDue die u = some d) (hlast : (s.adc die u).lastDiag < d) :
    exec (.pathDiagnosis die u) s = .next (if s.diagBlocked die u then s.waitDiag die u
      else if s.diagRuns die then s else s.startDiag die u false) := by
  change execPathDiagnosis die u s = _
  rw [execPathDiagnosis, if_pos ⟨hup, hu, by rw [hfree, Option.isNone_none], by rw [honce, Option.isNone_none],
    by simpa [hdue] using hlast⟩]

theorem pathDiagnosis_gives (hup : s.diagUp die = true) (hu : u < unitCount die)
    (hfree : (s.adc die u).diagUntil = none) (honce : (s.adc die u).repeatAt = none)
    (hdue : s.diagDue die u = some d) (hlast : (s.adc die u).lastDiag < d) (hopen : s.diagBlocked die u = false)
    (hidle : s.diagRuns die = false) :
    Gives (.pathDiagnosis die u) s fun t =>
      (t.adc die u).diagUntil = some (s.lt + 400000) ∧ (t.adc die u).lastDiag = s.lt ∧
      (t.adc die u).repeated = false ∧
      t.rd (diagObj die) 2 (dieI die) = (s.rd (diagObj die) 2 (dieI die) + 1) % 2 ^ 32 := by
  refine ⟨_, exec_pathDiagnosis hup hu hfree honce hdue hlast, ?_⟩
  obtain ⟨hunit, hcount⟩ := s.startDiag_unit die u false
  rw [if_neg (Bool.eq_false_iff.1 hopen), if_neg (Bool.eq_false_iff.1 hidle), hunit]
  exact ⟨rfl, rfl, rfl, hcount⟩

theorem pathDiagnosis_waits (hup : s.diagUp die = true) (hu : u < unitCount die)
    (hfree : (s.adc die u).diagUntil = none) (honce : (s.adc die u).repeatAt = none)
    (hdue : s.diagDue die u = some d) (hlast : (s.adc die u).lastDiag < d) (hblocked : s.diagBlocked die u = true) :
    Gives (.pathDiagnosis die u) s fun t =>
      (t.adc die u).diagUntil = none ∧ (t.adc die u).waiting = true := by
  refine ⟨_, exec_pathDiagnosis hup hu hfree honce hdue hlast, ?_⟩
  obtain ⟨huntil, hwaiting⟩ := s.waitDiag_unit die u
  rw [if_pos hblocked]
  exact ⟨huntil.trans hfree, hwaiting⟩

theorem diagnosisRepeat_gives (hup : s.diagUp die = true) (hu : u < unitCount die)
    (hfree : (s.adc die u).diagUntil = none) (hrepeat : (s.adc die u).repeatAt = some d) (hd : d ≤ s.lt)
    (hopen : s.diagBlocked die u = false) (hidle : s.diagRuns die = false) :
    Gives (.diagnosisRepeat die u) s fun t =>
      (t.adc die u).diagUntil = some (s.lt + 400000) ∧ (t.adc die u).repeated = true ∧
      (t.adc die u).repeatAt = none := by
  refine .of_guard rfl ⟨hup, hu, by rw [hfree, Option.isNone_none], by simpa [hrepeat, due] using hd,
    by rw [hopen, Bool.not_false], by rw [hidle, Bool.not_false]⟩ ?_
  rw [(s.startDiag_unit die u true).1]
  exact ⟨rfl, rfl, rfl⟩

/-! ## Results (R266)

A result converts by the calibration registers alone, so ending the diagnosis first changes no result. -/

/-- A failed unit is marked in its die's register, and the latches and stops that follow leave the mark and the unit. -/
theorem State.failUnit_effect (s : State) (die u corr : Nat) :
    bit ((s.failUnit die u corr).rdN (diagObj die) 4 (dieI die)) u = true ∧
      (s.failUnit die u corr).adc die u = s.adc die u := by
  refine ⟨?_, State.adc_of_same (State.failUnit_same rfl (by decide) (.refl _ s)) die u⟩
  unfold State.failUnit
  extract_lets i e y
  have hy : bit (y.rdN i 4 e) u = true := by
    unfold y
    rw [State.inc, State.rdN_wr, if_neg (by simp), State.rdN_wr, if_pos rfl, Int.toNat_natCast]
    exact bit_setBit_self ..
  have hkept {t : State} (h : State.Same (.reg i) y t) : bit (t.rdN i 4 e) u = true := by
    rwa [State.rdN, h 4 e]
  by_cases hdie : die = 0
  · have hi : i = 0x3020 := if_pos hdie
    rw [if_neg (not_not.2 hdie)]
    split
    · exact hkept (hi ▸ State.stopWith_same (by decide) (.refl _ y))
    · exact hkept (hi ▸ each_same (.refl _ y) fun z a hz =>
        State.latchAxis_same (by decide) (State.latchDrive_same (by decide) hz))
  · have hi : i = 0x2853 := if_neg hdie
    rw [if_pos hdie]
    exact hkept (hi ▸ State.latchChans_same (by decide) (.refl _ y))

theorem pathDiagnosisResult_passes {results : List (Nat × Nat × Nat)} (hu : u < unitCount die)
    (huntil : (s.adc die u).diagUntil = some d) (hd : d ≤ s.lt)
    (hall : (diagCases die u).all (fun c => (resultAt results c).isSome) = true)
    (hgood : (diagCases die u).find? (s.badResult die u results) = none) :
    Gives (.pathDiagnosisResult die u results) s fun t =>
      (t.adc die u).diagUntil = none ∧ bit (t.rdN (diagObj die) 4 (dieI die)) u = false := by
  refine .of_guard rfl ⟨hu, by simpa [huntil, due] using hd, hall⟩ ?_
  extract_lets y corr
  have hgood : (diagCases die u).find? (y.badResult die u results) = none := hgood
  rw [hgood, State.adc_wr, State.adc_setAdc, State.rdN_wr, if_pos rfl, Int.toNat_natCast]
  exact ⟨rfl, bit_clearBit_self ..⟩

theorem pathDiagnosisResult_fails {results : List (Nat × Nat × Nat)} {r : Nat × Nat} (hu : u < unitCount die)
    (huntil : (s.adc die u).diagUntil = some d) (hd : d ≤ s.lt)
    (hall : (diagCases die u).all (fun c => (resultAt results c).isSome) = true)
    (hbad : (diagCases die u).find? (s.badResult die u results) = some r) :
    Gives (.pathDiagnosisResult die u results) s fun t =>
      (t.adc die u).diagUntil = none ∧
      if (s.adc die u).repeated = true then bit (t.rdN (diagObj die) 4 (dieI die)) u = true
      else (t.adc die u).repeatAt = some (s.lt + 1000000) := by
  refine .of_guard rfl ⟨hu, by simpa [huntil, due] using hd, hall⟩ ?_
  extract_lets y corr
  have hbad : (diagCases die u).find? (y.badResult die u results) = some r := hbad
  rw [hbad]
  dsimp -zeta only
  extract_lets z
  have hsame {k : Part} (hk : k ∉ [.reg 0x6000, .dies, .trail]) : State.Same k y z :=
    State.raise_same hk (State.openCorr_same (notMem_of hk (by decide)) (.refl k y))
  have hended : (z.adc die u).diagUntil = none := by
    rw [State.adc_of_same (hsame (by decide)), State.adc_setAdc]
  have hlt : z.lt = s.lt := congrArg Clock.lt (hsame (k := .clock) (by decide))
  obtain ⟨hmark, hunit⟩ := z.failUnit_effect die u corr
  by_cases hrepeated : (s.adc die u).repeated = true
  · rw [if_pos hrepeated, if_pos hrepeated, hunit]
    exact ⟨hended, hmark⟩
  · rw [if_neg hrepeated, if_neg hrepeated, State.adc_setAdc, hlt]
    exact ⟨hended, rfl⟩

end

/-! ## Diagnoses that a host asks for (R265) -/

/-- Every unit named that no diagnosis occupies starts one. -/
theorem diagnoseNowSet_starts {s : State} {n mask u : Nat} (hu : u < 16) (hnamed : bit mask u = true)
    (hfree : (s.adc n u).diagUntil = none) :
    ((diagnoseNowSet mask s (siteI n)).adc n u).diagUntil = some (s.lt + 400000) ∧
      ((diagnoseNowSet mask s (siteI n)).adc n u).lastDiag = s.lt := by
  have hsite : siteI n - 0x3C0 = n := Nat.add_sub_cancel_left ..
  unfold diagnoseNowSet
  rw [hsite, Int.toNat_natCast]
  refine each_nodup_reaches (q := fun _ y => y.lt = s.lt)
    (p := fun u y => (y.adc n u).diagUntil = some (s.lt + 400000) ∧ (y.adc n u).lastDiag = s.lt)
    (List.nodup_range.filter _) (fun _ _ => rfl) ?starts ?finds ?keeps u
    (List.mem_filter.2 ⟨List.mem_range.2 hu, by simp [hnamed, hfree]⟩)
  case starts =>
    intro v _ y hy
    rw [(y.startDiag_unit n v false).1, hy]
    exact ⟨rfl, rfl⟩
  case finds =>
    intro _ _ y v _ hy
    exact hy
  case keeps =>
    intro v _ y w hvw hy
    rwa [y.adc_startDiag_ne n false hvw]

theorem diagnoseNow_gives {s : State} {src : Src} {n mask : Nat}
    (hacc : s.Accepts src 0x2853 6 [siteI n] mask (diagnoseNowCheck mask)) :
    Gives (.diagnoseNow src n mask) s fun t =>
      ∀ u, u < 16 → bit mask u = true → (s.adc n u).diagUntil = none →
        (t.adc n u).diagUntil = some (s.lt + 400000) ∧ (t.adc n u).lastDiag = s.lt := by
  refine ⟨_, rfl, fun u hu hnamed hfree => ?_⟩
  have hadcs := (State.writeObj_ok (eff := diagnoseNowSet mask) hacc).frame .adcs (by decide)
  have hadc := State.adc_of_same (s.touch_atRequest_same src (siteI n) (by decide)) n u
  have hlt : ((s.atRequest src).touch (siteI n)).lt = s.lt :=
    congrArg Clock.lt (s.touch_atRequest_same (p := .clock) src (siteI n) (by decide))
  rw [State.adc_of_same hadcs, ← hlt]
  exact diagnoseNowSet_starts hu hnamed (hadc ▸ hfree)

/-! ## Calibration values of the control path (R250) -/

theorem isCalObj_ne {i : Nat} (h : isCalObj i = true) : i ≠ 0x6000 := by
  rintro rfl
  exact absurd h (by decide)

/-- A calibration value stands in its register and in the flash at once. -/
theorem calibrationSet_stands (s : State) {i : Nat} (j e : Nat) (v : Int) (hi : isCalObj i = true) :
    (calibrationSet i j v s e).rd i j e = v ∧ lookup? ⟨i, j, e⟩ (calibrationSet i j v s e).flash = some v := by
  unfold calibrationSet
  extract_lets old y z n
  rw [State.rd_noteAt _ _ _ _ _ _ _ (isCalObj_ne hi), State.noteAt_flash]
  exact ⟨State.rd_wr_self .., lookup?_insertBy_self ..⟩

theorem controlAdcCalibrationWrite_gives {s : State} {src : Src} {i j : Nat} {e : Inst} {v : Int}
    (hi : isCalObj i = true) (hacc : s.Accepts src i j [instOf e] v (fun _ _ => aDone)) :
    Gives (.controlAdcCalibrationWrite src i j e v) s fun t =>
      t.rd i j (instOf e) = v ∧ lookup? ⟨i, j, instOf e⟩ t.flash = some v := by
  refine .of_guard rfl hi ?_
  have hnet := State.writeObj_ok (eff := calibrationSet i j v) hacc
  have hflash := hnet.frame .flash (by decide)
  obtain ⟨hreg, hsaved⟩ := calibrationSet_stands ((s.atRequest src).touch (instOf e)) j (instOf e) v hi
  exact ⟨(hnet.frame (.reg i) (by simp) j (instOf e)).trans hreg, (congrArg (lookup? _) hflash).trans hsaved⟩

/-- Settles O23: each command's guard holds, so its effect is read off its operation; what fails a unit leaves its mark
and its own state, and the frame is that of the command. -/
theorem diagnosisAndCalibration : Obligations.DiagnosisAndCalibration := by
  refine ⟨?starts, ?waits, ?passes, ?fails, ?again, ?now, ?write⟩
  case starts =>
    intro die u d s hup hu hfree honce hdue hlast hopen hidle
    exact (pathDiagnosis_gives hup hu hfree honce hdue hlast hopen hidle).framedHidden fun k hk hr =>
      execPathDiagnosis_same hr hk (.refl k s)
  case waits =>
    intro die u d s hup hu hfree honce hdue hlast hblocked
    exact (pathDiagnosis_waits hup hu hfree honce hdue hlast hblocked).framedHidden fun k hk hr =>
      execPathDiagnosis_same hr hk (.refl k s)
  case passes =>
    intro die u d results s hu huntil hd hall hgood
    exact (pathDiagnosisResult_passes hu huntil hd hall hgood).framedHidden fun k hk hr =>
      execPathDiagnosisResult_same hr hk (.refl k s)
  case fails =>
    intro die u d r results s hu huntil hd hall hbad
    exact (pathDiagnosisResult_fails hu huntil hd hall hbad).framedHidden fun k hk hr =>
      execPathDiagnosisResult_same hr hk (.refl k s)
  case again =>
    intro die u d s hup hu hfree hrepeat hd hopen hidle
    exact (diagnosisRepeat_gives hup hu hfree hrepeat hd hopen hidle).framedHidden fun k hk hr =>
      execDiagnosisRepeat_same hr hk (.refl k s)
  case now =>
    intro src n mask s hacc
    exact (diagnoseNow_gives hacc).framedHidden fun k hk hr => execDiagnoseNow_same hr hk (.refl k s)
  case write =>
    intro src i j e v s hi hacc
    exact (controlAdcCalibrationWrite_gives hi hacc).framedHidden fun k hk hr =>
      execControlAdcCalibrationWrite_same hr hk (.refl k s)

end Sys2Proof.Machine
end

section
/-! SUPPORT. What the operations of the power chain leave behind: the state and the stop cause of the DC link, the
contactor drives, and the outputs of the AFE, the chopper and the discharge path. -/

namespace Sys2Proof.Machine

theorem State.slot_of_same {s t : State} (h : State.Same .slots s t) (d k : Nat) : t.slot d k = s.slot d k := by
  rw [State.slot, State.slot, show t.slots = s.slots from h]

/-! ## The state and the stop cause of the DC link (R286, R287) -/

theorem State.linkState_of_same {s t : State} (h : State.Same (.reg 0x3050) s t) : t.linkState = s.linkState := by
  rw [State.linkState, State.linkState, State.rdN, State.rdN, h 2 dev]

@[simp] theorem State.linkState_setLink (s : State) (v : Nat) : (s.setLink v).linkState = v := by
  simp [State.linkState, State.setLink, State.rdN_wr]

/-- A state of the DC link leaves the stop cause shown. -/
theorem State.setLink_cause (s : State) (v : Nat) : (s.setLink v).rd 0x3050 3 dev = s.rd 0x3050 3 dev :=
  s.rd_wr_ne _ (by simp)

theorem StopsWith.of_same {cause : Nat} {s t u : State} (h : StopsWith cause s t)
    (e : State.Same (.reg 0x3050) t u) : StopsWith cause s u := by
  intro hlow hhigh
  obtain ⟨hlink, hcause⟩ := h hlow hhigh
  exact ⟨(State.linkState_of_same e).trans hlink, (e 3 dev).trans hcause⟩

theorem StopsWith.after {cause : Nat} {a s t : State} (h : StopsWith cause s t)
    (e : State.Same (.reg 0x3050) a s) : StopsWith cause a t := by
  intro hlow hhigh
  rw [← State.linkState_of_same e] at hlow hhigh
  exact h hlow hhigh

/-- A controlled stop has begun and sent its frames: the link state, the cause and the entry are set (R287). -/
def State.stopSent (s : State) (cause corr : Nat) : State :=
  ((((s.setLink 6).wr 0x3050 3 dev cause).stopNote cause corr).raiseAll 0x06 127 corr).raiseAll 0x05 127 corr

theorem State.stopSent_same {k : Part} (s : State) (cause corr : Nat) (hk : k ∉ [.reg 0x6000, .dies, .trail]) :
    State.Same k ((s.setLink 6).wr 0x3050 3 dev cause) (s.stopSent cause corr) :=
  State.raiseAll_same (notMem_of hk (by decide)) (State.raiseAll_same (notMem_of hk (by decide))
    (State.stopNote_same hk (.refl k _)))

theorem State.stopWith_of_off {s : State} (h : s.linkState = 0 ∨ 6 ≤ s.linkState) (cause corr : Nat) :
    s.stopWith cause corr = s.stopNote cause corr := if_pos h

theorem State.stopWith_of_running {s : State} (h : ¬ (s.linkState = 0 ∨ 6 ≤ s.linkState)) (cause corr : Nat) :
    s.stopWith cause corr = (s.stopSent cause corr).setPower { (s.stopSent cause corr).power with
      stopAt := some ((s.stopSent cause corr).lt + (s.stopSent cause corr).rdN 0x3050 5 dev * 1000000),
      segStopped := false, corr := corr } := if_neg h

theorem State.stopWith_same_of_running {k : Part} {s : State} (h : ¬ (s.linkState = 0 ∨ 6 ≤ s.linkState))
    (cause corr : Nat) (hk : k ∉ [.reg 0x6000, .dies, .power, .trail]) :
    State.Same k ((s.setLink 6).wr 0x3050 3 dev cause) (s.stopWith cause corr) := by
  rw [State.stopWith_of_running h]
  exact State.setPower_same (notMem_of hk (by decide)) (s.stopSent_same cause corr (notMem_of hk (by decide)))

/-- In states 1 to 5 the stop begins; what it sends leaves its state and its cause (R287). -/
theorem State.stopWith_stops (s : State) (cause corr : Nat) : StopsWith cause s (s.stopWith cause corr) := by
  intro hlow hhigh
  have hsent : State.Same (.reg 0x3050) ((s.setLink 6).wr 0x3050 3 dev cause) (s.stopWith cause corr) :=
    State.stopWith_same_of_running (by omega) cause corr (by decide)
  have hlink : ((s.setLink 6).wr 0x3050 3 dev cause).linkState = 6 := by
    rw [State.linkState, State.rdN_wr, if_neg (by simp)]
    exact s.linkState_setLink 6
  exact ⟨(State.linkState_of_same hsent).trans hlink, (hsent 3 dev).trans (State.rd_wr_self ..)⟩

theorem State.controlledStop_stops (s : State) (cause : Nat) : StopsWith cause s (s.controlledStop cause) :=
  ((s.openCorr 0).stopWith_stops cause _).after (State.openCorr_same (by decide) (.refl _ s))

/-- In a state 1 to 5 a controlled stop enters state 6 with its cause (R287). -/
theorem State.controlledStop_shows {s : State} {v : Nat} (hv : s.linkState = v) (hlow : 1 ≤ v) (hhigh : v ≤ 5)
    (cause : Nat) :
    (s.controlledStop cause).linkState = 6 ∧ (s.controlledStop cause).rd 0x3050 3 dev = cause :=
  s.controlledStop_stops cause (hv ▸ hlow) (hv ▸ hhigh)

/-- Of the power chain a stop sets when its segments stop and its correlation ID; the outputs are as before. -/
theorem State.stopWith_power (s : State) (cause corr : Nat) : ∃ since due seg id, (s.stopWith cause corr).power =
    { s.power with stateSince := since, stopAt := due, segStopped := seg, corr := id } := by
  by_cases h : s.linkState = 0 ∨ 6 ≤ s.linkState
  · rw [State.stopWith_of_off h]
    exact ⟨_, _, _, _, State.stopNote_same (k := .power) (by decide) (.refl _ s)⟩
  · have hsent : (s.stopSent cause corr).power = { s.power with stateSince := s.lt } :=
      s.stopSent_same (k := .power) cause corr (by decide)
    rw [State.stopWith_of_running h, State.setPower_power, hsent]
    exact ⟨_, _, _, _, rfl⟩

theorem State.controlledStop_power (s : State) (cause : Nat) : ∃ since due seg id, (s.controlledStop cause).power =
    { s.power with stateSince := since, stopAt := due, segStopped := seg, corr := id } :=
  (s.openCorr 0).stopWith_power cause _

/-- In state 7 the end of the discharge ends the stop, in a way that its cause decides (R287). -/
theorem State.endStop_linkState {s : State} (h : s.linkState = 7) :
    s.endStop.linkState = if s.rd 0x3050 3 dev = 1 then 0 else 8 := by
  rw [State.endStop, if_pos h, State.linkState_setLink]

theorem State.endStop_adis (s : State) : s.endStop.power.adis = s.power.adis := by
  unfold State.endStop
  split
  · rfl
  · rfl

/-! ## Contactor drives (R358 to R360) -/

theorem State.kdrv_of_same {s t : State} (h : State.Same .sup s t) (k : Nat) : t.kdrv k = s.kdrv k := by
  rw [State.kdrv, State.kdrv, show t.sup = s.sup from h]

@[simp] theorem State.kdrv_setKdrv (s : State) (k : Nat) (x : Contactor) : (s.setKdrv k x).kdrv k = x :=
  look_put_self ..

theorem State.kdrv_setKdrv_ne (s : State) {j k : Nat} (x : Contactor) (h : j ≠ k) :
    (s.setKdrv k x).kdrv j = s.kdrv j := look_put_ne _ _ _ h

@[simp] theorem State.kdrv_wr (s : State) (i j e : Nat) (v : Int) (k : Nat) : (s.wr i j e v).kdrv k = s.kdrv k := rfl

theorem State.openKdrv_opens (s : State) (k : Nat) : ((s.openKdrv k).kdrv k).close = false := by
  unfold State.openKdrv
  extract_lets x
  split
  case isTrue => rw [State.kdrv_wr, State.kdrv_setKdrv]
  case isFalse h => simpa using h

theorem State.openKdrv_ne (s : State) {j k : Nat} (h : j ≠ k) : (s.openKdrv k).kdrv j = s.kdrv j := by
  unfold State.openKdrv
  extract_lets x
  split
  · rw [State.kdrv_wr, State.kdrv_setKdrv_ne _ _ h]
  · rfl

/-- Both DC-link drives open, KDRV1 first (R287, R301). -/
theorem State.openBoth_open (s : State) (k : Nat) (hk : k < 2) :
    (((s.openKdrv 1).openKdrv 0).kdrv k).close = false := by
  obtain rfl | rfl : k = 0 ∨ k = 1 := by omega
  · exact State.openKdrv_opens ..
  · rw [State.openKdrv_ne _ (by decide)]
    exact s.openKdrv_opens 1

/-- A DC-link drive, which is always used, closes while no hold reason is set (R358). -/
theorem State.closeKdrv_closes {s : State} {k : Nat} (hk : k < 2) (hhold : s.rd 0x4000 2 dev = 0) :
    ((s.closeKdrv k).kdrv k).close = true := by
  unfold State.closeKdrv
  extract_lets x
  split
  case isTrue => rw [State.kdrv_wr, State.kdrv_setKdrv]
  case isFalse h => simpa [State.kdrvUsed, hk, hhold] using h

/-! ## AFE, chopper and discharge outputs (R296, R297) -/

theorem State.holdPin_power (s : State) (u : Nat) (on : Bool) : (s.holdPin u on).power = s.power :=
  State.holdPin_same (k := .power) (by decide) (.refl _ s)

theorem State.afeLow_power (s : State) : s.afeLow.power = { s.power with afeOn := false } := by
  have hcut : (s.cutUnits (List.range 6)).power = s.power :=
    State.cutUnits_same (k := .power) (by decide) (.refl _ s)
  rw [← hcut]
  rfl

theorem State.chopOn_chop (s : State) : s.chopOn.power.chop = true := by
  unfold State.chopOn
  split
  case isTrue h => exact h
  case isFalse => rw [State.wr_power, State.holdPin_power, State.setPower_power]

theorem State.chopOff_power (s : State) :
    s.chopOff.power = { s.power with chop := false, chopProve := none, testPulse := none } := by
  rw [State.chopOff, State.wr_power, State.holdPin_power, State.setPower_power]

theorem State.adisOn_adis (s : State) : s.adisOn.power.adis = true := by
  unfold State.adisOn
  split
  case isTrue h => exact h
  case isFalse => rw [State.wr_power, State.wr_power, State.holdPin_power, State.setPower_power]

theorem State.adisOff_power (s : State) (st : Nat) :
    (s.adisOff st).power = { s.power with adis := false, adisProve := none } := by
  rw [State.adisOff, State.wr_power, State.holdPin_power, State.setPower_power]

theorem State.adisOff_state (s : State) (st : Nat) : (s.adisOff st).rd 0x3070 8 dev = st := State.rd_wr_self ..

end Sys2Proof.Machine
end

section
/-! The statement on windows, comparators, cross-checks and stale samples of the DC link. -/

namespace Sys2Proof.Machine

/-! ## Windows (R274) -/

theorem windowCrossing_enters {s : State} {k w : Nat} (hk : k < 64) (hw : w < 4)
    (hcount : s.winCount k ≤ (s.win k).beyond.getD w 0) (hclear : bit (s.rdN 0x3037 (k + 1) dev) w = false) :
    Gives (.windowCrossing k w true) s fun t => bit (t.rdN 0x3037 (k + 1) dev) w = true := by
  refine .of_guard rfl ⟨hk, hw⟩ ?_
  extract_lets x st
  rw [if_pos ⟨rfl, hcount, by rw [hclear, Bool.not_false]⟩]
  have hacts : State.Same (.reg 0x3037) (s.wr 0x3037 (k + 1) dev (setBit st w))
      ((s.wr 0x3037 (k + 1) dev (setBit st w)).crossed k w) := State.crossed_same (by decide) (.refl _ _)
  rw [State.rdN, hacts, State.rd_wr_self, Int.toNat_natCast]
  exact bit_setBit_self ..

theorem windowCrossing_leaves {s : State} {k w : Nat} (hk : k < 64) (hw : w < 4)
    (hcount : s.winCount k ≤ (s.win k).inside.getD w 0) (hset : bit (s.rdN 0x3037 (k + 1) dev) w = true) :
    Gives (.windowCrossing k w false) s fun t => bit (t.rdN 0x3037 (k + 1) dev) w = false := by
  refine .of_guard rfl ⟨hk, hw⟩ ?_
  extract_lets x st
  rw [if_neg (by simp), if_pos ⟨rfl, hcount, hset⟩, State.rdN, State.rd_wr_self, Int.toNat_natCast]
  exact bit_clearBit_self ..

/-! ## The overvoltage cascade (R301, R364) -/

/-- Full regeneration ends; the dies hear of it unless a controlled stop holds the bit (R287, R301). -/
def State.endRegen (s : State) : State :=
  let y := s.setPower { s.power with fullRegen := false, ov1Since := none }
  if y.power.stopAt.isNone then (y.openCorr 0).raiseAll 0x08 127 (y.corrId 0) else y

theorem State.endRegen_power (s : State) :
    s.endRegen.power = { s.power with fullRegen := false, ov1Since := none } := by
  unfold State.endRegen
  extract_lets p y
  split
  · exact State.raiseAll_same (k := .power) (by decide) (State.openCorr_same (by decide) (.refl _ y))
  · rfl

theorem ov1Release_gives {s : State} {x : Nat} (hsince : s.power.ov1Since = some x)
    (hregen : s.power.fullRegen = true) (hx : x + 10000000 ≤ s.lt) :
    Gives .ov1Release s fun t => t.power.fullRegen = false ∧ t.power.ov1Since = none := by
  have hexec : exec .ov1Release s =
      .next (if s.power.fullRegen ∧ x + 10000000 ≤ s.lt then s.endRegen else s) := by
    change execOv1Release s = _
    rw [execOv1Release, hsince]
    rfl
  refine .of_guard hexec ⟨hregen, hx⟩ ?_
  rw [State.endRegen_power]
  exact ⟨rfl, rfl⟩

theorem Power.dcov_setDcov (p : Power) (k : Nat) (on : Bool) : (p.setDcov k on).dcov k = on := by
  unfold Power.dcov Power.setDcov
  split
  · rfl
  · rfl

theorem State.chopOn_dcov (s : State) (k : Nat) : s.chopOn.power.dcov k = s.power.dcov k := by
  unfold State.chopOn
  split
  · rfl
  · rw [State.wr_power, State.holdPin_power]
    rfl

theorem State.adisOn_dcov (s : State) (k : Nat) : s.adisOn.power.dcov k = s.power.dcov k := by
  unfold State.adisOn
  split
  · rfl
  · rw [State.wr_power, State.wr_power, State.holdPin_power]
    rfl

theorem State.stopWith_dcov (s : State) (cause corr k : Nat) :
    (s.stopWith cause corr).power.dcov k = s.power.dcov k := by
  obtain ⟨since, due, seg, id, hpower⟩ := s.stopWith_power cause corr
  rw [hpower]
  rfl

theorem State.afeLow_dcov (s : State) (k : Nat) : s.afeLow.power.dcov k = s.power.dcov k := by
  rw [State.afeLow_power]
  rfl

/-- The third level has shown its comparator (R301). -/
def State.level3Shown (s : State) (k : Nat) : State :=
  ((s.openCorr 0).cascade 3 (s.corrId 0)).wr 0x3060 0xC dev (setBit (s.rdN 0x3060 0xC dev) k)

/-- The third level has sent its frames and set the AFE and the chopper; a chopper whose fault stands is left (R296). -/
def State.level3Chop (s : State) (corr : Nat) : State :=
  let low := (s.raiseAll 0x01 127 corr).afeLow
  if low.rd 0x3070 3 dev = 2 ∨ low.rd 0x3070 3 dev = 3 then low else low.chopOn

/-- The third level has set all its outputs: the discharge is on too, and both contactors are commanded open. -/
def State.level3Outputs (s : State) (corr : Nat) : State := (((s.level3Chop corr).adisOn).openKdrv 1).openKdrv 0

theorem State.level3_eq (s : State) (k : Nat) :
    s.level3 k = ((s.level3Shown k).level3Outputs (s.corrId 0)).stopWith 14 (s.corrId 0) := rfl

theorem State.level3Chop_same {p : Part} (s : State) (corr : Nat) (hp : p ∉ [.reg 0x3070, .units, .dies, .power]) :
    State.Same p s (s.level3Chop corr) := by
  have hlow : State.Same p s (s.raiseAll 0x01 127 corr).afeLow :=
    State.afeLow_same (notMem_of hp (by decide)) (State.raiseAll_same (notMem_of hp (by decide)) (.refl p s))
  unfold State.level3Chop
  extract_lets low
  split
  · exact hlow
  · exact State.chopOn_same (notMem_of hp (by decide)) hlow

theorem State.level3Outputs_same {p : Part} (s : State) (corr : Nat)
    (hp : p ∉ [.reg 0x3070, .reg 0x4021, .units, .dies, .power, .sup]) : State.Same p s (s.level3Outputs corr) :=
  State.openKdrv_same (notMem_of hp (by decide)) (State.openKdrv_same (notMem_of hp (by decide))
    (State.adisOn_same (notMem_of hp (by decide)) (s.level3Chop_same corr (notMem_of hp (by decide)))))

theorem State.level3Outputs_dcov (s : State) (corr k : Nat) :
    (s.level3Outputs corr).power.dcov k = s.power.dcov k := by
  have hopen : (s.level3Outputs corr).power = (s.level3Chop corr).adisOn.power :=
    State.openKdrv_same (k := .power) (by decide) (State.openKdrv_same (by decide) (.refl _ _))
  have hlow : (s.raiseAll 0x01 127 corr).afeLow.power.dcov k = s.power.dcov k := by
    rw [State.afeLow_dcov, State.raiseAll_same (k := .power) (by decide) (.refl _ s)]
  rw [hopen, State.adisOn_dcov, State.level3Chop]
  split
  · exact hlow
  · rw [State.chopOn_dcov, hlow]

/-- The third level leaves what the comparators read. -/
theorem State.level3_dcov (s : State) (k j : Nat) : (s.level3 k).power.dcov j = s.power.dcov j := by
  have hshown : (s.level3Shown k).power = s.power := State.wr_same (k := .power) (by decide) (State.cascade_same
    (by decide) (State.openCorr_same (by decide) (.refl _ s)))
  rw [State.level3_eq, State.stopWith_dcov, State.level3Outputs_dcov, hshown]

/-- The third level shows its comparator, opens both contactors and stops the link (R301). -/
theorem State.level3_effect (s : State) (k : Nat) :
    bit ((s.level3 k).rdN 0x3060 0xC dev) k = true ∧ (∀ j < 2, ((s.level3 k).kdrv j).close = false) ∧
      StopsWith 14 s (s.level3 k) := by
  rw [State.level3_eq]
  have houtputs := (s.level3Shown k).level3Outputs_same (s.corrId 0) (p := .reg 0x3060) (by decide)
  have hstop {p : Part} (hp : p ∉ [.reg 0x3050, .reg 0x6000, .dies, .power, .trail]) :
      State.Same p ((s.level3Shown k).level3Outputs (s.corrId 0)) _ :=
    State.stopWith_same (x1 := 14) (x2 := s.corrId 0) hp (.refl p _)
  refine ⟨?_, fun j hj => ?_, ?_⟩
  · rw [State.rdN, houtputs.trans (hstop (by decide)), State.level3Shown, State.rd_wr_self, Int.toNat_natCast]
    exact bit_setBit_self ..
  · rw [State.kdrv_of_same (hstop (by decide))]
    exact State.openBoth_open _ j hj
  · have hshown : State.Same (.reg 0x3050) s (s.level3Shown k) :=
      State.wr_same (by decide) (State.cascade_same (by decide) (State.openCorr_same (by decide) (.refl _ s)))
    exact StopsWith.after (State.stopWith_stops _ _ _) (hshown.trans (State.level3Outputs_same _ _ (by decide)))

/-- Outside its test a comparator that trips takes the cascade to its third level. -/
theorem dcovTrip_gives {s : State} {k : Nat} (hk : k < 2) (htest : s.power.testing.map (·.1) ≠ some k) :
    Gives (.dcovTrip k) s fun t =>
      (if k = 0 then t.power.dcovA else t.power.dcovB) = true ∧ bit (t.rdN 0x3060 0xC dev) k = true ∧
        (t.kdrv 0).close = false ∧ (t.kdrv 1).close = false ∧ StopsWith 14 s t := by
  refine .of_guard rfl hk ?_
  rw [if_neg htest]
  obtain ⟨hbit, hopen, hstops⟩ := (s.setPower (s.power.setDcov k true)).level3_effect k
  have hdcov : ((s.setPower (s.power.setDcov k true)).level3 k).power.dcov k = true := by
    rw [State.level3_dcov, State.setPower_power, Power.dcov_setDcov]
  exact ⟨hdcov, hbit, hopen 0 (by decide), hopen 1 (by decide), hstops.after (State.setPower_same (by decide)
    (.refl _ s))⟩

theorem dcovTrip_tests {s : State} {k : Nat} (hk : k < 2) (htest : s.power.testing.map (·.1) = some k) :
    Gives (.dcovTrip k) s fun t => t = s.setPower { s.power with tripSeen := true, testHigh := true } :=
  .of_guard rfl hk (if_pos htest)

theorem dcovRelease_gives {s : State} {k : Nat} (hk : k < 2) (htest : s.power.testing.map (·.1) ≠ some k) :
    Gives (.dcovRelease k) s fun t => (if k = 0 then t.power.dcovA else t.power.dcovB) = false := by
  refine .of_guard rfl hk ?_
  rw [if_neg htest]
  exact s.power.dcov_setDcov k false

theorem dcovRelease_tests {s : State} {k : Nat} (hk : k < 2) (htest : s.power.testing.map (·.1) = some k) :
    Gives (.dcovRelease k) s fun t => t = s.setPower { s.power with testHigh := false } :=
  .of_guard rfl hk (if_pos htest)

/-! ## Cross-checks and stale samples (R275, R278) -/

/-- The time since which each measurement of a pair has disagreed stops the link for the pair (R275). -/
theorem crossCheckDisagreement_gives {s : State} {p k d : Nat}
    (hpair : (p, k, d) ∈ [(0, 0, 1000000), (1, 1, 1000000), (1, 2, 1000000), (1, 3, 1000000), (2, 4, 10000000)])
    (hheld : heldFor (s.power.cross.getD k none) d s.lt = true) :
    Gives (.crossCheckDisagreement p) s (StopsWith (4 + p) s) := by
  refine .of_guard rfl ?_ (s.controlledStop_stops (4 + p))
  simp only [List.mem_cons, Prod.mk.injEq, List.not_mem_nil, or_false] at hpair
  obtain ⟨rfl, rfl, rfl⟩ | ⟨rfl, rfl, rfl⟩ | ⟨rfl, rfl, rfl⟩ | ⟨rfl, rfl, rfl⟩ | ⟨rfl, rfl, rfl⟩ := hpair
  · exact hheld
  · exact List.any_eq_true.2 ⟨1, by decide, hheld⟩
  · exact List.any_eq_true.2 ⟨2, by decide, hheld⟩
  · exact List.any_eq_true.2 ⟨3, by decide, hheld⟩
  · exact hheld

theorem hubSamplesStale_gives {s : State} {k : Nat} (hk : k < 2)
    (hstale : heldFor (s.slot 0 k).staleSince 1000000 s.lt = true) :
    Gives (.hubSamplesStale k) s fun t => (t.slot 0 k).staleSince = none ∧ StopsWith 19 s t := by
  refine .of_guard rfl ⟨hk, hstale⟩ ?_
  extract_lets x
  have hslots (y : State) : State.Same .slots y (y.controlledStop 19) :=
    State.controlledStop_same (by decide) (.refl _ y)
  refine ⟨?_, StopsWith.after (State.controlledStop_stops _ _) (State.setSlot_same (by decide) (.refl _ s))⟩
  rw [State.slot_of_same (hslots _), State.slot_setSlot]

/-- Settles O34: each command's guard holds, so its effect is read off its operation; a stop and what it sends leave the
registers and outputs that the command has set, and the frame is that of the command. -/
theorem dcLinkWindowsAndGrid : Obligations.DcLinkWindowsAndGrid := by
  refine ⟨?enters, ?leaves, ?ov1, ?trip, ?tripTest, ?release, ?releaseTest, ?cross, ?stale⟩
  case enters =>
    intro k w s hk hw hcount hclear
    exact (windowCrossing_enters hk hw hcount hclear).framed fun k hk => execWindowCrossing_same hk (.refl k s)
  case leaves =>
    intro k w s hk hw hcount hset
    exact (windowCrossing_leaves hk hw hcount hset).framed fun k hk => execWindowCrossing_same hk (.refl k s)
  case ov1 =>
    intro x s hsince hregen hx
    exact (ov1Release_gives hsince hregen hx).framed fun k hk => execOv1Release_same hk (.refl k s)
  case trip =>
    intro k s hk htest
    exact (dcovTrip_gives hk htest).framed fun k hk => execDcovTrip_same hk (.refl k s)
  case tripTest =>
    intro k s hk htest
    exact (dcovTrip_tests hk htest).framed fun k hk => execDcovTrip_same hk (.refl k s)
  case release =>
    intro k s hk htest
    exact (dcovRelease_gives hk htest).framed fun k hk => execDcovRelease_same hk (.refl k s)
  case releaseTest =>
    intro k s hk htest
    exact (dcovRelease_tests hk htest).framed fun k hk => execDcovRelease_same hk (.refl k s)
  case cross =>
    intro p k d s hpair hheld
    exact (crossCheckDisagreement_gives hpair hheld).framed fun k hk => execCrossCheckDisagreement_same hk (.refl k s)
  case stale =>
    intro k s hk hstale
    exact (hubSamplesStale_gives hk hstale).framed fun k hk => execHubSamplesStale_same hk (.refl k s)

end Sys2Proof.Machine
end

section
/-! The statement on the start of the DC link: grid, precharge, contactors and ramp. -/

namespace Sys2Proof.Machine

/-! ## The grid (R279, R280) -/

/-- The lock shows in every state; in state 1 the precharge begins once the path tests have passed (R286, R363). -/
theorem gridLocked_gives {s : State} (hlock : heldFor s.power.lockSince 100000000 s.lt = true) :
    Gives .gridLocked s fun t => t.power.locked = true ∧ t.rd 0x3040 0xC dev = 2 ∧
      (s.linkState = 1 → s.testsPassed = true → t.linkState = 2) := by
  refine .of_guard rfl hlock ?_
  extract_lets p y
  have hgrid : y.rd 0x3040 0xC dev = 2 := State.rd_wr_self ..
  have hstate : y.linkState = s.linkState :=
    State.linkState_of_same (State.wr_same (by decide) (State.setPower_same (by decide) (.refl _ s)))
  have htested : y.testsPassed = s.testsPassed := by
    have hhold : State.Same (.reg 0x4000) s y :=
      State.wr_same (by decide) (State.setPower_same (by decide) (.refl _ s))
    rw [State.testsPassed, State.rdN, hhold]
    rfl
  have hclose {k : Part} (hk : k ∉ [.reg 0x4021, .sup]) : State.Same k (y.setLink 2) ((y.setLink 2).closeKdrv 0) :=
    State.closeKdrv_same hk (.refl k _)
  split
  case isTrue =>
    refine ⟨?_, ?_, fun _ _ => (State.linkState_of_same (hclose (by decide))).trans (y.linkState_setLink 2)⟩
    · exact congrArg Power.locked (hclose (k := .power) (by decide))
    · rw [hclose (k := .reg 0x3040) (by decide), State.setLink_same (k := .reg 0x3040) (by decide) (.refl _ y), hgrid]
  case isFalse hwait =>
    exact ⟨rfl, hgrid, fun hone htests => absurd ⟨hstate.trans hone, htested.trans htests⟩ hwait⟩

theorem gridLoss_gives {s : State} (hjobs : 56 ≤ s.power.lossJobs) (hshown : s.rd 0x3040 0xC dev ≠ 3) :
    Gives .gridLoss s fun t => t.power.locked = false ∧ t.rd 0x3040 0xC dev = 3 ∧ StopsWith 2 s t := by
  have hstop (y : State) (hlocked : y.power.locked = false) (hgrid : y.rd 0x3040 0xC dev = 3)
      (hlink : State.Same (.reg 0x3050) s y) : (y.controlledStop 2).power.locked = false ∧
        (y.controlledStop 2).rd 0x3040 0xC dev = 3 ∧ StopsWith 2 s (y.controlledStop 2) := by
    obtain ⟨since, due, seg, id, hpower⟩ := y.controlledStop_power 2
    refine ⟨by rw [hpower, hlocked], ?_, (y.controlledStop_stops 2).after hlink⟩
    rw [State.controlledStop_same (k := .reg 0x3040) (by decide) (.refl _ y), hgrid]
  exact .of_guard rfl ⟨hjobs, hshown⟩ (hstop _ rfl (State.rd_wr_self ..)
    (State.wr_same (by decide) (State.setPower_same (by decide) (.refl _ s))))

/-! ## Power start and stop (R285, R287) -/

/-- An accepted start clears the stop cause and enters state 1; nothing of the rest of it writes either. -/
theorem powerStart_shows (s : State) : (powerStart s).linkState = 1 ∧ (powerStart s).rd 0x3050 3 dev = 0 := by
  unfold powerStart
  extract_lets awake corr sent cleared afe chop adis stages slots p ready linked units
  have hready : State.Same (.reg 0x3050) cleared ready := by
    have hafe : State.Same (.reg 0x3050) cleared afe := State.wr_same (by decide) (.refl _ cleared)
    have hchop : State.Same (.reg 0x3050) cleared chop := by
      unfold chop
      split
      · exact State.wr_same (by decide) hafe
      · exact hafe
    have hadis : State.Same (.reg 0x3050) cleared adis := by
      unfold adis
      split
      · exact hchop
      · exact State.wr_same (by decide) hchop
    have hstages : State.Same (.reg 0x3050) cleared stages :=
      each_same hadis fun _ _ hy => State.clockMark_same (by decide)
        (each_same hy fun _ _ hz => State.startClears_same (by decide) hz)
    exact State.setPower_same (by decide) (each_same hstages fun _ _ hy => State.setSlot_same (by decide) hy)
  have hend : State.Same (.reg 0x3050) (ready.setLink 1)
      (each units.sites (fun s n => s.sendTest n corr) (units.setHold 8)) := by
    have hlinked : State.Same (.reg 0x3050) (ready.setLink 1) linked := State.wr_same (by decide) (.refl _ _)
    have hunits : State.Same (.reg 0x3050) (ready.setLink 1) units := each_same hlinked fun y u hy => by
      split
      · exact hy
      · exact State.setUnit_same (by decide) hy
    exact each_same (State.setHold_same (by decide) hunits) fun _ _ hy => State.sendTest_same (by decide) hy
  refine ⟨(State.linkState_of_same hend).trans (ready.linkState_setLink 1), ?_⟩
  rw [hend, State.setLink_cause, hready, State.rd_wr_ne _ _ (by simp), State.rd_wr_ne _ _ (by simp), State.rd_wr_self]

theorem powerStart_gives {s : State} {src : Src} (hacc : s.Accepts src 0x3050 1 [dev] 1 (powerCheck 1)) :
    Gives (.powerStart src) s fun t => t.linkState = 1 ∧ t.rd 0x3050 3 dev = 0 := by
  have hlink : State.Same (.reg 0x3050) (powerStart ((s.atRequest src).touch dev))
      (s.writeObj src 0x3050 1 [dev] 1 (powerCheck 1) (powerSet 1)) :=
    (State.writeObj_ok (eff := powerSet 1) hacc).frame _ (by decide)
  obtain ⟨hstate, hcause⟩ := powerStart_shows ((s.atRequest src).touch dev)
  exact ⟨_, rfl, (State.linkState_of_same hlink).trans hstate, (hlink 3 dev).trans hcause⟩

theorem powerStop_gives {s : State} {src : Src} (hacc : s.Accepts src 0x3050 1 [dev] 2 (powerCheck 2)) :
    Gives (.powerStop src) s (StopsWith 1 s) := by
  have hlink : State.Same (.reg 0x3050) (((s.atRequest src).touch dev).controlledStop 1)
      (s.writeObj src 0x3050 1 [dev] 2 (powerCheck 2) (powerSet 2)) :=
    (State.writeObj_ok (eff := powerSet 2) hacc).frame _ (by decide)
  have hstops := State.controlledStop_stops ((s.atRequest src).touch dev) 1
  exact ⟨_, rfl, (hstops.after (s.touch_atRequest_same src dev (by decide))).of_same hlink⟩

/-! ## Precharge (R286, R296) -/

theorem State.linkState_of_inStateFor {s : State} {v ns : Nat} (h : s.inStateFor v ns = true) : s.linkState = v :=
  beq_iff_eq.1 (Bool.and_eq_true_iff.1 h).1

theorem gridSyncTimeout_gives {s : State} (htime : s.inStateFor 1 2000000000 = true) :
    Gives .gridSyncTimeout s fun t => t.linkState = 6 ∧ t.rd 0x3050 3 dev = 11 :=
  .of_guard rfl htime (State.controlledStop_shows (State.linkState_of_inStateFor htime) (by decide) (by decide) 11)

theorem prechargeTimeout_gives {s : State} (htime : s.inStateFor 2 (s.rdN 0x3050 4 dev * 1000000) = true)
    (hopen : (s.kdrv 1).close = false) :
    Gives .prechargeTimeout s fun t => t.linkState = 6 ∧ t.rd 0x3050 3 dev = 10 :=
  .of_guard rfl ⟨htime, by rw [hopen, Bool.not_false]⟩
    (State.controlledStop_shows (State.linkState_of_inStateFor htime) (by decide) (by decide) 10)

section
variable {s : State}

/-- A precharge that is complete begins the chopper's test pulse. -/
theorem prechargeComplete_tests (hlink : s.linkState = 2) (hclosed : s.kfbClosed 0 = true)
    (hopen : (s.kdrv 1).close = false) (hpulse : s.power.testPulse = none) (hdone : s.prechargeDone = true)
    (hdiag : (s.adc 0 0).diagUntil = none) :
    Gives .prechargeComplete s fun t =>
      t.power.chop = true ∧ t.power.testPulse = some (s.lt + 20000) ∧ t.linkState = 2 := by
  refine .of_guard rfl ⟨hlink, hclosed, by rw [hopen, Bool.not_false]⟩ ?_
  rw [hpulse]
  dsimp only
  rw [if_pos ⟨hdone, by rw [hdiag, Option.isNone_none]⟩]
  have hchop : State.Same (.reg 0x3050) s s.chopOn := State.chopOn_same (by decide) (.refl _ s)
  exact ⟨s.chopOn_chop, rfl,
    (State.linkState_of_same (hchop.trans (State.setPower_same (by decide) (.refl _ _)))).trans hlink⟩

/-- A test pulse that has shown its current ends, and the main contactor closes unless a hold reason is set. -/
theorem prechargeComplete_closes {x : Nat} (hlink : s.linkState = 2) (hclosed : s.kfbClosed 0 = true)
    (hopen : (s.kdrv 1).close = false) (hpulse : s.power.testPulse = some x) (hx : x ≤ s.lt)
    (hproved : s.power.chopProve = none) :
    Gives .prechargeComplete s fun t => t.power.chop = false ∧ t.power.testPulse = none ∧ t.rd 0x3070 3 dev = 0 ∧
      (s.rd 0x4000 2 dev = 0 → (t.kdrv 1).close = true) := by
  refine .of_guard rfl ⟨hlink, hclosed, by rw [hopen, Bool.not_false]⟩ ?_
  rw [hpulse]
  dsimp only
  rw [if_pos ⟨hx, by rw [hproved, Option.isNone_none]⟩]
  have hclose {k : Part} (hk : k ∉ [.reg 0x4021, .sup]) :
      State.Same k (s.chopOff.wr 0x3070 3 dev 0) ((s.chopOff.wr 0x3070 3 dev 0).closeKdrv 1) :=
    State.closeKdrv_same hk (.refl k _)
  have hhold : (s.chopOff.wr 0x3070 3 dev 0).rd 0x4000 2 dev = s.rd 0x4000 2 dev :=
    State.wr_same (k := .reg 0x4000) (by decide) (State.chopOff_same (by decide) (.refl _ s)) 2 dev
  have hpower : ((s.chopOff.wr 0x3070 3 dev 0).closeKdrv 1).power =
      { s.power with chop := false, chopProve := none, testPulse := none } :=
    Eq.trans (hclose (k := .power) (by decide)) s.chopOff_power
  refine ⟨by rw [hpower], by rw [hpower], ?_, fun h => State.closeKdrv_closes (by decide) (hhold.trans h)⟩
  rw [hclose (k := .reg 0x3070) (by decide), State.rd_wr_self]

/-! ## Contactors and ramp (R286) -/

/-- The AFE starts at the measured voltage with its regulators at zero. -/
def State.afeStart (s : State) : State :=
  s.setPower { s.power with afeOn := true, vdcRef := (s.vdcMv : Rat) / 1000, iDc := 0, iD := 0, iQ := 0, npInt := 0 }

theorem mainContactorClosed_gives (hlink : s.linkState = 2) (hclose : (s.kdrv 1).close = true)
    (hclosed : s.kfbClosed 1 = true) :
    Gives .mainContactorClosed s fun t => t.linkState = 3 ∧ t.power.afeOn = true ∧ (t.kdrv 0).close = false ∧
      t.power.iDc = 0 := by
  have hstart {t : State} (hunits : ∀ k, k ∉ [.units] → State.Same k ((s.openKdrv 0).setLink 3).afeStart t) :
      t.linkState = 3 ∧ t.power.afeOn = true ∧ (t.kdrv 0).close = false ∧ t.power.iDc = 0 := by
    have hpower : t.power = ((s.openKdrv 0).setLink 3).afeStart.power := hunits .power (by decide)
    refine ⟨?_, by rw [hpower]; rfl, ?_, by rw [hpower]; rfl⟩
    · exact (State.linkState_of_same (hunits _ (by decide))).trans ((s.openKdrv 0).linkState_setLink 3)
    · rw [State.kdrv_of_same (hunits .sup (by decide))]
      exact s.openKdrv_opens 0
  refine .of_guard rfl ⟨hlink, hclose, hclosed⟩ (hstart fun k hk => ?_)
  extract_lets y p z
  split
  · exact .refl k z
  · refine each_same (.refl k z) fun x u hx => ?_
    split
    · exact hx
    · exact State.startUnit_same hk hx

theorem afeRampComplete_gives (hlink : s.linkState = 3) (href : s.power.vdcRef = s.rdN 0x3060 1 dev) :
    Gives .afeRampComplete s fun t => t.linkState = 4 := by
  refine .of_guard rfl ⟨hlink, href⟩ ?_
  have hstart : State.Same (.reg 0x3050) (s.setLink 4)
      (each s.sites (fun s n => if s.rd 0x1200 1 (siteI n) = 1 then s.startDabs n else s) (s.setLink 4)) :=
    each_same (.refl _ _) fun y n hy => by
      split
      · exact State.startDabs_same (by decide) hy
      · exact hy
  exact (State.linkState_of_same hstart).trans (s.linkState_setLink 4)

end

/-- Settles O35: each command's guard holds, so its effect is read off its operation; what follows the change of state
leaves it, and the frame is that of the command. -/
theorem dcLinkStart : Obligations.DcLinkStart := by
  refine ⟨?locked, ?loss, ?start, ?stop, ?sync, ?tests, ?closes, ?timeout, ?main, ?ramp⟩
  case locked =>
    intro s hlock
    exact (gridLocked_gives hlock).framed fun k hk => execGridLocked_same hk (.refl k s)
  case loss =>
    intro s hjobs hshown
    exact (gridLoss_gives hjobs hshown).framed fun k hk => execGridLoss_same hk (.refl k s)
  case start =>
    intro src s hacc
    exact (powerStart_gives hacc).framed fun k hk => execPowerStart_same hk (.refl k s)
  case stop =>
    intro src s hacc
    exact (powerStop_gives hacc).framed fun k hk => execPowerStop_same hk (.refl k s)
  case sync =>
    intro s htime
    exact (gridSyncTimeout_gives htime).framed fun k hk => execGridSyncTimeout_same hk (.refl k s)
  case tests =>
    intro s hlink hclosed hopen hpulse hdone hdiag
    exact (prechargeComplete_tests hlink hclosed hopen hpulse hdone hdiag).framed fun k hk =>
      execPrechargeComplete_same hk (.refl k s)
  case closes =>
    intro x s hlink hclosed hopen hpulse hx hproved
    exact (prechargeComplete_closes hlink hclosed hopen hpulse hx hproved).framed fun k hk =>
      execPrechargeComplete_same hk (.refl k s)
  case timeout =>
    intro s htime hopen
    exact (prechargeTimeout_gives htime hopen).framed fun k hk => execPrechargeTimeout_same hk (.refl k s)
  case main =>
    intro s hlink hclose hclosed
    exact (mainContactorClosed_gives hlink hclose hclosed).framed fun k hk =>
      execMainContactorClosed_same hk (.refl k s)
  case ramp =>
    intro s hlink href
    exact (afeRampComplete_gives hlink href).framed fun k hk => execAfeRampComplete_same hk (.refl k s)

end Sys2Proof.Machine
end

section
/-! The statement on the end of the DC link start, and the controlled stop. -/

namespace Sys2Proof.Machine

section
variable {s : State}

/-! ## States 4 to 7 of the DC link (R286, R287) -/

theorem segmentBusesReady_gives (hlink : s.linkState = 4) (hready : s.sites.all s.busReady = true) :
    Gives .segmentBusesReady s fun t => t.linkState = 5 :=
  .of_guard rfl ⟨hlink, hready⟩ (s.linkState_setLink 5)

theorem controlledStop_gives {cause : Nat} (hcause : cause ∈ stopCodes) :
    Gives (.controlledStop cause) s (StopsWith cause s) :=
  .of_guard rfl (List.contains_iff_mem.2 hcause) (s.controlledStop_stops cause)

theorem dcLinkUndervoltage_gives (hlink : s.linkState = 5)
    (hunder : heldFor s.power.underSince 1000000 s.lt = true) :
    Gives .dcLinkUndervoltage s fun t => t.linkState = 6 ∧ t.rd 0x3050 3 dev = 13 :=
  .of_guard rfl ⟨hlink, hunder⟩ (State.controlledStop_shows hlink (by decide) (by decide) 13)

/-- After the stop delay the segments have been told to stop, the AFE is low, and both contactors are commanded open. -/
def State.stopSegments (s : State) : State := (((s.raiseAll 0x04 127 s.power.corr).afeLow).openKdrv 1).openKdrv 0

theorem State.stopSegments_linkState (s : State) : s.stopSegments.linkState = s.linkState :=
  State.linkState_of_same (State.openKdrv_same (by decide) (State.openKdrv_same (by decide) (State.afeLow_same
    (by decide) (State.raiseAll_same (by decide) (.refl _ s)))))

theorem segmentStopDelay_gives {x : Nat} (hstop : s.power.stopAt = some x) (hlink : s.linkState = 6)
    (hruns : s.power.segStopped = false) (hx : x ≤ s.lt) :
    Gives .segmentStopDelay s fun t => t.power.segStopped = true ∧ (t.kdrv 0).close = false ∧
      (t.kdrv 1).close = false ∧ t.linkState = 6 := by
  have hexec : exec .segmentStopDelay s = .next (if s.linkState = 6 ∧ !s.power.segStopped ∧ x ≤ s.lt then
      s.stopSegments.setPower { s.stopSegments.power with segStopped := true } else s) := by
    change execSegmentStopDelay s = _
    rw [execSegmentStopDelay, hstop]
    rfl
  have hsup (p : Power) : State.Same .sup s.stopSegments (s.stopSegments.setPower p) :=
    State.setPower_same (by decide) (.refl _ _)
  have hstate (p : Power) : (s.stopSegments.setPower p).linkState = s.stopSegments.linkState :=
    State.linkState_of_same (State.setPower_same (by decide) (.refl _ _))
  refine .of_guard hexec ⟨hlink, by rw [hruns, Bool.not_false], hx⟩ ⟨rfl, ?_, ?_, ?_⟩
  · rw [State.kdrv_of_same (hsup _)]
    exact State.openBoth_open _ 0 (by decide)
  · rw [State.kdrv_of_same (hsup _)]
    exact State.openBoth_open _ 1 (by decide)
  · rw [hstate, State.stopSegments_linkState, hlink]

theorem contactorsOpen_gives (hlink : s.linkState = 6) (hstopped : s.power.segStopped = true)
    (hopen0 : (s.kdrv 0).openSince.isSome = true) (hopen1 : (s.kdrv 1).openSince.isSome = true) :
    Gives .contactorsOpen s fun t => t.linkState = 7 ∧ t.power.adis = true :=
  .of_guard rfl ⟨hlink, hstopped, hopen0, hopen1⟩ ⟨State.linkState_setLink _ 7, s.adisOn_adis⟩

/-! ## The DC-link voltage that the dies receive (R293) -/

/-- The hub sends a voltage to a die that its link reaches. -/
def State.sendVdc (v : Int) (s : State) (n : Nat) : State :=
  if s.linkOk n .toDie then s.setDie n { s.die n with vdc := v, vdcAt := s.lt } else s

/-- What a die holds once the hub has sent it its voltage: the voltage and the time, if the link reaches it. -/
def State.HasVdc (s : State) (n : Nat) (t : State) : Prop :=
  if s.linkOk n .toDie = true then (t.die n).vdc = s.vdcMv ∧ (t.die n).vdcAt = s.lt else t.die n = s.die n

/-- A die, the link to it and line time are as before. -/
structure State.DieAsIn (s : State) (n : Nat) (t : State) : Prop where
  die : t.die n = s.die n
  link : t.linkOk n .toDie = s.linkOk n .toDie
  time : t.lt = s.lt

theorem State.sendVdc_same {k : Part} (v : Int) (s : State) (n : Nat) (hk : k ∉ [.dies]) :
    State.Same k s (s.sendVdc v n) := by
  unfold State.sendVdc
  split
  · exact State.setDie_same hk (.refl k s)
  · exact .refl k s

theorem State.sendVdc_die_ne (v : Int) (s : State) {m n : Nat} (h : m ≠ n) : (s.sendVdc v n).die m = s.die m := by
  unfold State.sendVdc
  split
  · exact s.die_setDie_ne _ h
  · rfl

theorem State.sendVdc_hasVdc {t : State} {n : Nat} (h : s.DieAsIn n t) : s.HasVdc n (t.sendVdc s.vdcMv n) := by
  obtain ⟨hdie, hlink, htime⟩ := h
  unfold State.sendVdc State.HasVdc
  rw [hlink]
  split
  · rw [State.die_setDie, htime]
    exact ⟨rfl, rfl⟩
  · exact hdie

theorem State.linkOk_of_same {t : State} {n : Nat} {dir : Dir} (hdie : t.die n = s.die n)
    (hvsys : State.Same .vsys s t) (hvariant : State.Same .variant s t) : t.linkOk n dir = s.linkOk n dir := by
  have hup : t.vsys = s.vsys := hvsys
  have hpart : t.variant = s.variant := hvariant
  rw [State.linkOk, State.linkOk, State.linkUp, State.linkUp, State.sitePop, State.sitePop, hup, hpart, hdie]

/-- A voltage sent to one die leaves the others and their links. -/
theorem State.DieAsIn.sendVdc_ne {t : State} {m n : Nat} (h : s.DieAsIn m t) (hmn : m ≠ n) (v : Int) :
    s.DieAsIn m (t.sendVdc v n) := by
  obtain ⟨hdie, hlink, htime⟩ := h
  have hsame {k : Part} (hk : k ∉ [.dies]) : State.Same k t (t.sendVdc v n) := t.sendVdc_same v n hk
  refine ⟨(t.sendVdc_die_ne v hmn).trans hdie, ?_, (congrArg Clock.lt (hsame (k := .clock) (by decide))).trans htime⟩
  rw [State.linkOk_of_same (t.sendVdc_die_ne v hmn) (hsame (by decide)) (hsame (by decide)), hlink]

theorem State.HasVdc.sendVdc_ne {t : State} {m n : Nat} (h : s.HasVdc m t) (hmn : m ≠ n) (v : Int) :
    s.HasVdc m (t.sendVdc v n) := by
  unfold State.HasVdc at *
  rwa [t.sendVdc_die_ne v hmn]

theorem vdcUpdate_gives (hfw : s.fw = true) (hdue : ∀ x, s.power.vdcSent = some x → x + 10000 ≤ s.lt) :
    Gives .vdcUpdate s fun t => (∀ n ∈ s.sites, s.HasVdc n t) ∧ t.power.vdcSent = some s.lt := by
  have hsent : s.power.vdcSent.all (fun t => decide (t + 10000 ≤ s.lt)) = true := by
    simpa [Option.all_eq_true] using hdue
  refine .of_guard rfl ⟨hfw, hsent⟩ ⟨?_, ?_⟩
  · exact each_nodup_reaches (f := State.sendVdc s.vdcMv) (q := s.DieAsIn) s.sites_nodup (fun _ _ => ⟨rfl, rfl, rfl⟩)
      (fun _ _ _ hy => State.sendVdc_hasVdc hy) (fun _ _ _ _ hmn hy => hy.sendVdc_ne hmn _)
      (fun _ _ _ _ hmn hy => hy.sendVdc_ne hmn _)
  · exact congrArg Power.vdcSent (each_same (k := .power) (f := State.sendVdc s.vdcMv) (.refl _ _)
      fun y n hy => hy.trans (y.sendVdc_same _ n (by decide)))

end

/-- Settles O36: each command's guard holds, so its effect is read off its operation; the dies are distinct, so each
keeps the voltage sent to it, and the frame is that of the command. -/
theorem dcLinkRunAndStop : Obligations.DcLinkRunAndStop := by
  refine ⟨?ready, ?stop, ?delay, ?opened, ?under, ?vdc⟩
  case ready =>
    intro s hlink hready
    exact (segmentBusesReady_gives hlink hready).framed fun k hk => execSegmentBusesReady_same hk (.refl k s)
  case stop =>
    intro cause s hcause
    exact (controlledStop_gives hcause).framed fun k hk => execControlledStop_same hk (.refl k s)
  case delay =>
    intro x s hstop hlink hruns hx
    exact (segmentStopDelay_gives hstop hlink hruns hx).framed fun k hk => execSegmentStopDelay_same hk (.refl k s)
  case opened =>
    intro s hlink hstopped hopen0 hopen1
    exact (contactorsOpen_gives hlink hstopped hopen0 hopen1).framed fun k hk => execContactorsOpen_same hk (.refl k s)
  case under =>
    intro s hlink hunder
    exact (dcLinkUndervoltage_gives hlink hunder).framed fun k hk => execDcLinkUndervoltage_same hk (.refl k s)
  case vdc =>
    intro s hfw hdue
    exact (vdcUpdate_gives hfw hdue).framed fun k hk => execVdcUpdate_same hk (.refl k s)

end Sys2Proof.Machine
end

section
/-! The statement on DAB stages at their limit or stale, the chopper and the discharge path. -/

namespace Sys2Proof.Machine

/-! ## DAB stages (R291, R293) -/

theorem dabAtLimit_gives {s : State} {n i : Nat} (hpop : s.sitePop n = true) (hi : i < 2)
    (hlimit : heldFor ((s.die n).dab i).limitSince 10000000 s.lt = true)
    (hstate : s.rd 0x3101 (1 + i) (siteI n) = 1 ∨ s.rd 0x3101 (1 + i) (siteI n) = 2) :
    Gives (.dabAtLimit n i) s fun t => t.rd 0x3101 (1 + i) (siteI n) = 3 := by
  refine .of_guard rfl ⟨hpop, hi, hlimit, hstate⟩ ?_
  rw [State.rd_noteAt _ _ _ _ _ _ _ (by decide), State.rd_wr_self]

theorem Die.dab_setDab (d : Die) (i : Nat) (x : Dab) : (d.setDab i x).dab i = x := by
  unfold Die.dab Die.setDab
  split
  · rfl
  · rfl

/-- A stage that changes but for its latch leaves every latch of its die. -/
theorem Die.latched_setDab {d : Die} {i : Nat} {x : Dab} (h : x.latched = (d.dab i).latched) (j : Nat) :
    ((d.setDab i x).dab j).latched = (d.dab j).latched := by
  by_cases hi : i = 0
  · rw [Die.dab, if_pos hi] at h
    rw [Die.setDab, if_pos hi, Die.dab, Die.dab]
    split
    · exact h
    · rfl
  · rw [Die.dab, if_neg hi] at h
    rw [Die.setDab, if_neg hi, Die.dab, Die.dab]
    split
    · rfl
    · exact h

/-- A die that wakes latches none of its stages (R403). -/
theorem State.wakeDie_dabLatched (s : State) (n cause i : Nat) :
    (((s.wakeDie n cause).die n).dab i).latched = ((s.die n).dab i).latched := by
  unfold State.wakeDie
  split
  case isFalse =>
    rw [State.die_setDie]
    rfl
  case isTrue =>
    extract_lets d y z
    have hz : ((z.die n).dab i).latched = ((s.die n).dab i).latched := by
      have hdie : z.die n = { s.die n with restSince := none, wakeAt := none, busRamp := true } := State.die_setDie ..
      rw [hdie]
      rfl
    refine each_induct (r := fun y => ((y.die n).dab i).latched = ((s.die n).dab i).latched) hz fun y j _ hy => ?_
    split
    · rw [State.die_wr, State.die_setUnit, State.die_setDie]
      refine (Die.latched_setDab ?_ i).trans hy
      rfl
    · exact hy

/-- A trail entry leaves the stages of every die. -/
theorem State.raise_dab (s : State) (site chan code : Nat) (data : List Byte) (corr n i : Nat) :
    ((s.raise site chan code data corr).die n).dab i = (s.die n).dab i := by
  obtain ⟨sent, queue, hdie⟩ := (s.raise_trailOnly site chan code data corr).die n
  rw [hdie]
  rfl

/-- A latch frame to the hub leaves the stages of the die that sends it. -/
theorem State.raiseFrame_dab (s : State) (n code arg corr i : Nat) :
    ((s.raiseFrame n .toHub code arg corr).die n).dab i = (s.die n).dab i := by
  rw [State.raiseFrame, State.die_setDie]
  rfl

/-- A stage that latches shows its latch, its cause and state 4 (R103, R505). -/
theorem State.latchDab_shows {s : State} {n i : Nat} (hfree : ((s.die n).dab i).latched = false)
    (cause arg corr : Nat) :
    (((s.latchDab n i cause arg corr).die n).dab i).latched = true ∧
      (s.latchDab n i cause arg corr).rd 0x6012 (2 + i) (siteI n) = cause ∧
      (s.latchDab n i cause arg corr).rd 0x3101 (1 + i) (siteI n) = 4 := by
  unfold State.latchDab
  extract_lets d x latched cut recorded raised
  rw [if_neg (by simp [x, d, hfree])]
  have hend {k : Part} (hk : k ∉ [.reg 0x6000, .engines, .dies, .trail]) :
      State.Same k recorded ((raised.dropJobs n (64 + i)).raiseFrame n .toHub 0x23 (64 + i) corr) :=
    State.raiseFrame_same (notMem_of hk (by decide)) (State.dropJobs_same (notMem_of hk (by decide))
      (State.raise_same (notMem_of hk (by decide)) (.refl k recorded)))
  refine ⟨?_, ?_, ?_⟩
  · have hdrop : State.Same .dies raised (raised.dropJobs n (64 + i)) := State.dropJobs_same (by decide) (.refl _ _)
    rw [State.raiseFrame_dab, State.die_of_same hdrop, State.raise_dab, State.die_wr, State.die_wr, State.die_setUnit,
      State.die_setDie, Die.dab_setDab]
  · rw [hend (k := .reg 0x6012) (by decide), State.rd_wr_ne _ _ (by simp), State.rd_wr_self]
  · rw [hend (k := .reg 0x3101) (by decide), State.rd_wr_self]

theorem dabSamplesStale_gives {s : State} {n i : Nat} (hpop : s.sitePop n = true) (hi : i < 2)
    (hstale : heldFor (s.slot n (64 + i)).staleSince 200000 s.lt = true)
    (hfree : ((s.die n).dab i).latched = false) :
    Gives (.dabSamplesStale n i) s fun t => ((t.die n).dab i).latched = true ∧
      t.rd 0x6012 (2 + i) (siteI n) = 8 ∧ t.rd 0x3101 (1 + i) (siteI n) = 4 := by
  have hawake : ((((s.wakeDie n 5).openCorr n).die n).dab i).latched = false := by
    rw [State.die_openCorr, State.wakeDie_dabLatched, hfree]
  exact .of_guard rfl ⟨hpop, hi, hstale, by rw [hfree, Bool.not_false]⟩ (State.latchDab_shows hawake 8 0 _)

/-! ## The chopper (R296) -/

section
variable {s : State}

/-- A state of the chopper with its entry. -/
def State.showChop (s : State) (v : Int) : State := (s.wr 0x3070 3 dev v).chopNote

theorem State.showChop_same {k : Part} (s : State) (v : Int) (hk : k ∉ [.reg 0x3070, .reg 0x6000, .dies, .trail]) :
    State.Same k s (s.showChop v) :=
  State.chopNote_same (notMem_of hk (by decide)) (State.wr_same (notMem_of hk (by decide)) (.refl k s))

theorem State.showChop_shows (s : State) (v : Int) : (s.showChop v).rd 0x3070 3 dev = v :=
  (State.chopNote_same (k := .reg 0x3070) (by decide) (.refl _ _) 3 dev).trans (State.rd_wr_self ..)

/-- A chopper that is turned off for a fault: its state shows the fault, and the DC link is as before. -/
theorem State.chopFault_effect (s : State) (v : Int) :
    (s.chopOff.showChop v).power = { s.power with chop := false, chopProve := none, testPulse := none } ∧
      State.Same (.reg 0x3050) s (s.chopOff.showChop v) :=
  ⟨Eq.trans (State.showChop_same (k := .power) _ v (by decide)) s.chopOff_power,
    (State.chopOff_same (by decide) (.refl _ s)).trans (State.showChop_same _ v (by decide))⟩

/-- A controlled stop leaves the registers of the chopper and the discharge. -/
theorem State.controlledStop_chopState (s : State) (cause j : Nat) :
    (s.controlledStop cause).rd 0x3070 j dev = s.rd 0x3070 j dev :=
  State.controlledStop_same (k := .reg 0x3070) (by decide) (.refl _ s) j dev

/-- Without its current the chopper turns off; in its test the stop follows. -/
theorem chopperOpen_gives {x : Nat} (hprove : s.power.chopProve = some x) (hchop : s.power.chop = true)
    (hx : x ≤ s.lt) (hprovable : s.provable 0 7 s.power.chopSince = true) :
    Gives .chopperOpen s fun t => t.power.chop = false ∧ t.power.chopProve = none ∧ t.rd 0x3070 3 dev = 2 ∧
      (s.power.testPulse.isSome = true → StopsWith 12 s t) := by
  have hdue : due s.power.chopProve s.lt = true := by
    rw [hprove]
    exact decide_eq_true hx
  refine .of_guard rfl ⟨hchop, hdue, hprovable⟩ ?_
  extract_lets test y
  obtain ⟨hpower, hlink⟩ : y.power = _ ∧ State.Same _ s y := s.chopFault_effect 2
  have hshown : y.rd 0x3070 3 dev = 2 := s.chopOff.showChop_shows 2
  split
  case isTrue =>
    obtain ⟨since, due, seg, id, hstop⟩ := y.controlledStop_power 12
    refine ⟨by rw [hstop, hpower], by rw [hstop, hpower], ?_, fun _ => (y.controlledStop_stops 12).after hlink⟩
    rw [State.controlledStop_chopState, hshown]
  case isFalse hpulse =>
    exact ⟨by rw [hpower], by rw [hpower], hshown, fun htest => absurd htest hpulse⟩

theorem chopperShort_gives (hchop : s.power.chop = false) (hdiag : (s.adc 0 0).diagUntil = none)
    (hshown : s.rd 0x3070 3 dev ≠ 3) (hrun : 3 ≤ s.power.shortRun) :
    Gives .chopperShort s fun t => t.rd 0x3070 3 dev = 3 ∧ StopsWith 8 s t := by
  refine .of_guard (t := (s.showChop 3).controlledStop 8) rfl
    ⟨by rw [hchop, Bool.not_false], by rw [hdiag, Option.isNone_none], hshown, hrun⟩ ⟨?_, ?_⟩
  · rw [State.controlledStop_chopState, State.showChop_shows]
  · exact StopsWith.after (State.controlledStop_stops _ 8) (s.showChop_same 3 (by decide))

theorem chopperOverload_gives (hchop : s.power.chop = true)
    (htime : s.power.chopSince + s.rdN 0x3070 2 dev * 1000000 < s.lt) :
    Gives .chopperOverload s fun t => t.power.chop = false ∧ t.rd 0x3070 3 dev = 5 ∧ StopsWith 9 s t := by
  obtain ⟨hpower, hlink⟩ := s.chopFault_effect 5
  obtain ⟨since, due, seg, id, hstop⟩ := (s.chopOff.showChop 5).controlledStop_power 9
  refine .of_guard (t := (s.chopOff.showChop 5).controlledStop 9) rfl ⟨hchop, htime⟩ ⟨?_, ?_, ?_⟩
  · rw [hstop, hpower]
  · rw [State.controlledStop_chopState, State.showChop_shows]
  · exact StopsWith.after (State.controlledStop_stops _ 9) hlink

/-! ## The discharge (R297) -/

theorem dischargeNoCurrent_gives {x : Nat} (hadis : s.power.adis = true) (hstate : s.rd 0x3070 8 dev = 1)
    (hprove : s.power.adisProve = some x) (hx : x ≤ s.lt) (hprovable : s.provable 1 23 s.power.adisSince = true) :
    Gives .dischargeNoCurrent s fun t =>
      t.rd 0x3070 8 dev = 3 ∧ t.power.adis = true ∧ t.power.adisProve = none := by
  have hdue : due s.power.adisProve s.lt = true := by
    rw [hprove]
    exact decide_eq_true hx
  have hnote (y : State) : (y.wr 0x3070 8 dev 3).chopNote.power = y.power :=
    State.chopNote_same (k := .power) (by decide) (State.wr_same (by decide) (.refl _ y))
  refine .of_guard rfl ⟨hadis, hstate, hdue, hprovable⟩ ⟨?_, ?_, ?_⟩
  · exact (State.chopNote_same (k := .reg 0x3070) (by decide) (.refl _ _) 8 dev).trans (State.rd_wr_self ..)
  · rw [hnote]
    exact hadis
  · rw [hnote]
    rfl

/-- The discharge ends in a state, and with it a stop that waits for its end. -/
theorem State.endDischarge_effect (s : State) (v : Nat) :
    ((s.adisOff v).endStop).power.adis = false ∧ ((s.adisOff v).endStop).rd 0x3070 8 dev = v ∧
      (s.linkState = 7 → ((s.adisOff v).endStop).linkState = if s.rd 0x3050 3 dev = 1 then 0 else 8) := by
  have hlink : State.Same (.reg 0x3050) s (s.adisOff v) := State.adisOff_same (by decide) (.refl _ s)
  refine ⟨?_, ?_, fun hseven => ?_⟩
  · rw [State.endStop_adis, State.adisOff_power]
  · exact (State.endStop_same (k := .reg 0x3070) (by decide) (.refl _ _) 8 dev).trans (s.adisOff_state v)
  · rw [State.endStop_linkState ((State.linkState_of_same hlink).trans hseven), hlink]

theorem dischargeRelease_gives {x : Nat} (hbelow : s.power.below60 = some x) (hadis : s.power.adis = true)
    (hx : x + 100000000 ≤ s.lt) :
    Gives .dischargeRelease s fun t => t.power.adis = false ∧ t.rd 0x3070 8 dev = 0 ∧
      (s.linkState = 7 → t.linkState = if s.rd 0x3050 3 dev = 1 then 0 else 8) := by
  have hexec : exec .dischargeRelease s =
      .next (if s.power.adis ∧ x + 100000000 ≤ s.lt then (s.adisOff 0).endStop else s) := by
    change execDischargeRelease s = _
    rw [execDischargeRelease, hbelow]
  exact .of_guard hexec ⟨hadis, hx⟩ (s.endDischarge_effect 0)

theorem dischargeExhausted_gives (hadis : s.power.adis = true)
    (henergy : (s.rdN 0x3070 5 dev : Rat) ≤ s.power.energy) :
    Gives .dischargeExhausted s fun t => t.power.adis = false ∧ t.rd 0x3070 8 dev = 2 ∧
      (s.linkState = 7 → t.linkState = if s.rd 0x3050 3 dev = 1 then 0 else 8) :=
  .of_guard rfl ⟨hadis, henergy⟩ (s.endDischarge_effect 2)

end

/-- Settles O37: each command's guard holds, so its effect is read off its operation; entries, frames and stops leave
what a fault shows, and the frame is that of the command. -/
theorem dabStagesAndChopper : Obligations.DabStagesAndChopper := by
  refine ⟨?limit, ?stale, ?opens, ?short, ?overload, ?noCurrent, ?release, ?exhausted⟩
  case limit =>
    intro n i s hpop hi hlimit hstate
    exact (dabAtLimit_gives hpop hi hlimit hstate).framed fun k hk => execDabAtLimit_same hk (.refl k s)
  case stale =>
    intro n i s hpop hi hstale hfree
    exact (dabSamplesStale_gives hpop hi hstale hfree).framed fun k hk => execDabSamplesStale_same hk (.refl k s)
  case opens =>
    intro x s hprove hchop hx hprovable
    exact (chopperOpen_gives hprove hchop hx hprovable).framed fun k hk => execChopperOpen_same hk (.refl k s)
  case short =>
    intro s hchop hdiag hshown hrun
    exact (chopperShort_gives hchop hdiag hshown hrun).framed fun k hk => execChopperShort_same hk (.refl k s)
  case overload =>
    intro s hchop htime
    exact (chopperOverload_gives hchop htime).framed fun k hk => execChopperOverload_same hk (.refl k s)
  case noCurrent =>
    intro x s hadis hstate hprove hx hprovable
    exact (dischargeNoCurrent_gives hadis hstate hprove hx hprovable).framed fun k hk =>
      execDischargeNoCurrent_same hk (.refl k s)
  case release =>
    intro x s hbelow hadis hx
    exact (dischargeRelease_gives hbelow hadis hx).framed fun k hk => execDischargeRelease_same hk (.refl k s)
  case exhausted =>
    intro s hadis henergy
    exact (dischargeExhausted_gives hadis henergy).framed fun k hk => execDischargeExhausted_same hk (.refl k s)

end Sys2Proof.Machine
end

section
/-! SUPPORT. What the operations of the auxiliary drives and the stepper axes leave behind: the state of a drive and its
commutation, the state of an axis, and what a latch or a failed start shows. -/

namespace Sys2Proof.Machine

/-- A command whose guard fails gives what it does otherwise. -/
theorem Gives.of_guard_not {c : Instr} {s t u : State} {p : State → Prop} {g : Prop} [Decidable g]
    (h : exec c s = .next (if g then t else u)) (hg : ¬ g) (hp : p u) : Gives c s p :=
  ⟨u, by rw [h, if_neg hg], hp⟩

/-! ## Readers of a part that is unchanged -/

theorem State.drive_of_same {s t : State} (h : State.Same .bldc s t) (a : Nat) : t.drive a = s.drive a := by
  rw [State.drive, State.drive, show t.bldc = s.bldc from h]

theorem State.axis_of_same {s t : State} (h : State.Same .axes s t) (a : Nat) : t.axis a = s.axis a := by
  rw [State.axis, State.axis, show t.axes = s.axes from h]

theorem State.driveState_of_same {s t : State} (h : State.Same (.reg 0x341A) s t) (a : Nat) :
    t.driveState a = s.driveState a := by
  rw [State.driveState, State.driveState, State.rdN, State.rdN, h]

theorem State.axisState_of_same {s t : State} (h : State.Same (.reg 0x344F) s t) (a : Nat) :
    t.axisState a = s.axisState a := by
  rw [State.axisState, State.axisState, State.rdN, State.rdN, h]

/-! ## The outputs of a drive leave its record (R306, R308) -/

@[simp] theorem State.drive_setGates (s : State) (a : Nat) (g : List Nat) (b : Nat) :
    (s.setGates a g).drive b = s.drive b :=
  State.drive_of_same (State.setGates_same (by decide) (.refl _ s)) b

@[simp] theorem State.drive_driveLow (s : State) (a b : Nat) : (s.driveLow a).drive b = s.drive b :=
  State.drive_of_same (State.driveLow_same (by decide) (.refl _ s)) b

@[simp] theorem State.drive_driveCut (s : State) (a b : Nat) : (s.driveCut a).drive b = s.drive b :=
  State.drive_of_same (State.driveCut_same (by decide) (.refl _ s)) b

@[simp] theorem State.driveState_setGates (s : State) (a : Nat) (g : List Nat) (b : Nat) :
    (s.setGates a g).driveState b = s.driveState b :=
  State.driveState_of_same (State.setGates_same (by decide) (.refl _ s)) b

@[simp] theorem State.driveState_driveCut (s : State) (a b : Nat) : (s.driveCut a).driveState b = s.driveState b :=
  State.driveState_of_same (State.driveCut_same (by decide) (.refl _ s)) b

/-! ## The state of a drive (R312) -/

@[simp] theorem State.driveState_setDrive (s : State) (a : Nat) (x : Bldc) (b : Nat) :
    (s.setDrive a x).driveState b = s.driveState b := rfl

theorem State.driveState_wr (s : State) (a : Nat) (v : Int) :
    (s.wr 0x341A (a + 1) dev v).driveState a = v.toNat := by
  rw [State.driveState, State.rdN, State.rd_wr_self]

@[simp] theorem State.driveState_enterDrive (s : State) (a st : Nat) : (s.enterDrive a st).driveState a = st :=
  State.driveState_wr _ a st

@[simp] theorem State.drive_enterDrive (s : State) (a st : Nat) :
    (s.enterDrive a st).drive a = { s.drive a with since := s.lt, limited := false } :=
  State.drive_setDrive ..

@[simp] theorem State.driveState_beginListen (s : State) (a : Nat) : (s.beginListen a).driveState a = 1 :=
  State.driveState_enterDrive ..

@[simp] theorem State.driveState_beginBrake (s : State) (a : Nat) : (s.beginBrake a).driveState a = 2 :=
  State.driveState_enterDrive ..

@[simp] theorem State.driveState_beginAlign (s : State) (a : Nat) : (s.beginAlign a).driveState a = 3 :=
  State.driveState_enterDrive ..

@[simp] theorem State.driveState_catchRotor (s : State) (a k t1 t2 : Nat) :
    (s.catchRotor a k t1 t2).driveState a = 5 :=
  State.driveState_enterDrive ..

/-! ## Latches and failed starts of a drive (R319, R505) -/

/-- After its outputs, its state and its cause, a latch writes the drive's correlation ID, drops its jobs and notes
it. -/
theorem State.latchDrive_same_of_free {k : Part} {s : State} {a : Nat} (hfree : s.driveState a ≠ 8) (cause : Nat)
    (hk : k ∉ [.reg 0x6000, .engines, .dies, .bldc, .trail]) :
    State.Same k (((s.driveCut a).enterDrive a 8).wr 0x3420 (a + 1) dev cause) (s.latchDrive a cause) := by
  rw [State.latchDrive, if_neg hfree]
  exact State.note_same (notMem_of hk (by decide)) (State.dropJobs_same (notMem_of hk (by decide))
    (State.setDrive_same (notMem_of hk (by decide)) (.refl k _)))

theorem State.latchDrive_state (s : State) (a cause : Nat) : (s.latchDrive a cause).driveState a = 8 := by
  by_cases hstate : s.driveState a = 8
  · rw [State.latchDrive, if_pos hstate, hstate]
  · rw [State.driveState_of_same (State.latchDrive_same_of_free hstate cause (by decide)),
      State.driveState_of_same (State.wr_same (by decide) (.refl _ _)), State.driveState_enterDrive]

theorem State.latchDrive_cause {s : State} {a : Nat} (hfree : s.driveState a ≠ 8) (cause : Nat) :
    (s.latchDrive a cause).rd 0x3420 (a + 1) dev = cause :=
  (State.latchDrive_same_of_free (k := .reg 0x3420) hfree cause (by decide) (a + 1) dev).trans (State.rd_wr_self ..)

/-- A latch leaves what the drive's load excursion has done. -/
theorem State.latchDrive_loadDone (s : State) (a cause : Nat) :
    ((s.latchDrive a cause).drive a).loadDone = (s.drive a).loadDone := by
  unfold State.latchDrive
  split
  · rfl
  · extract_lets y x z
    refine (congrArg Bldc.loadDone (State.drive_of_same (s := z) (State.note_same (by decide)
      (State.dropJobs_same (by decide) (.refl _ z))) a)).trans ?_
    simp [z, x, y]

/-- A failed start shows state 7, its cause and one more try, at most 255. -/
theorem State.failDrive_effect (s : State) (a cause : Nat) :
    (s.failDrive a cause).driveState a = 7 ∧ ((s.failDrive a cause).drive a).lastFail = cause ∧
      (s.failDrive a cause).rd 0x341D (a + 1) dev = min 255 (s.rd 0x341D (a + 1) dev + 1) := by
  unfold State.failDrive
  extract_lets x y
  have hnote {k : Part} (hk : k ∉ [.reg 0x6000, .dies, .trail]) : State.Same k ((y.driveLow a).enterDrive a 7)
      (((y.driveLow a).enterDrive a 7).note 0x3401 (leNat 1 cause ++ leInt 1 (y.rd 0x341D (a + 1) dev))) :=
    State.note_same hk (.refl k _)
  refine ⟨?_, ?_, ?_⟩
  · rw [State.driveState_of_same (hnote (by decide)), State.driveState_enterDrive]
  · rw [State.drive_of_same (hnote (by decide)), State.drive_enterDrive, State.drive_driveLow]
    simp [y]
  · have hcount : State.Same (.reg 0x341D) y ((y.driveLow a).enterDrive a 7) :=
      State.enterDrive_same (by decide) (State.driveLow_same (by decide) (.refl _ y))
    rw [hnote (k := .reg 0x341D) (by decide), hcount, State.rd_wr_self]

/-! ## The state of an axis (R325, R333) -/

@[simp] theorem State.axisState_axisLow (s : State) (a st : Nat) : (s.axisLow a st).axisState a = st := by
  have hafter : State.Same (.reg 0x344F) _ (s.axisLow a st) :=
    State.axisBit_same (by decide) (State.wr_same (by decide) (.refl _ _))
  rw [State.axisState_of_same hafter, State.axisState, State.rdN, State.rd_wr_self, Int.toNat_natCast]

/-- After its outputs, its state and its cause, a latch writes the axis's correlation ID, drops its jobs and notes
it. -/
theorem State.latchAxis_same_of_free {k : Part} {s : State} {a : Nat} (hfree : s.axisState a ≠ 7) (cause : Nat)
    (hk : k ∉ [.reg 0x6000, .engines, .dies, .axes, .trail]) :
    State.Same k ((s.axisLow a 7).wr 0x3457 (a + 1) dev cause) (s.latchAxis a cause) := by
  rw [State.latchAxis, if_neg hfree]
  exact State.note_same (notMem_of hk (by decide)) (State.dropJobs_same (notMem_of hk (by decide))
    (State.dropJobs_same (notMem_of hk (by decide)) (State.setAxis_same (notMem_of hk (by decide)) (.refl k _))))

theorem State.latchAxis_state (s : State) (a cause : Nat) : (s.latchAxis a cause).axisState a = 7 := by
  by_cases hstate : s.axisState a = 7
  · rw [State.latchAxis, if_pos hstate, hstate]
  · rw [State.axisState_of_same (State.latchAxis_same_of_free hstate cause (by decide)),
      State.axisState_of_same (State.wr_same (by decide) (.refl _ _)), State.axisState_axisLow]

theorem State.latchAxis_cause {s : State} {a : Nat} (hfree : s.axisState a ≠ 7) (cause : Nat) :
    (s.latchAxis a cause).rd 0x3457 (a + 1) dev = cause :=
  (State.latchAxis_same_of_free (k := .reg 0x3457) hfree cause (by decide) (a + 1) dev).trans (State.rd_wr_self ..)

end Sys2Proof.Machine
end

section
/-! The statement on the start of a sensorless drive: crossings, commutation, listening, braking, alignment and ramp. -/

namespace Sys2Proof.Machine

section
variable {s : State} {a : Nat}

/-! ## Crossings (R309, R310, R313, R317) -/

/-- The ramp is measured from the entry of the drive's state alone. -/
theorem State.rampNow_setDrive {x : Bldc} (hx : x.since = (s.drive a).since) :
    (s.setDrive a x).rampNow a = s.rampNow a := by
  rw [State.rampNow, State.rampMs, State.drive_setDrive, hx]
  rfl

theorem State.rampEnd_setDrive {x : Bldc} (hx : x.since = (s.drive a).since) :
    (s.setDrive a x).rampEnd a = s.rampEnd a := by
  rw [State.rampEnd, State.drive_setDrive, hx]
  rfl

/-- A crossing of a drive that runs sets its next commutation. -/
theorem zeroCrossing_plans {c : Crossing} (hdrive : isDrive a = true) (hstate : s.driveState a = 5 ∨ s.driveState a = 6)
    (haccepts : s.accepts a c = true)
    (hfree : s.driveState a = 5 →
      s.jobAt a (s.cnt 0) < s.jobAt a ((s.drive a).lastCross + (s.lockCounts a).ceil.toNat)) :
    Gives (.zeroCrossing a c) s fun t =>
      (t.drive a).lastCross = c.at' ∧ t.driveState a = s.driveState a ∧ (t.drive a).nextComm = some (c.at' +
        (wholeOf ((s.drive a).t60 * (300 - advanceAt (s.advanceTable a) (s.speedOf a (s.drive a).t60)) /
          600)).toNat) := by
  have hexec : exec (.zeroCrossing a c) s = .next (s.planComm a c.at') := by
    change execZeroCrossing a c s = _
    obtain hrun | hstop := hstate
    · simp [execZeroCrossing, hdrive, hrun, haccepts, hfree hrun]
    · simp [execZeroCrossing, hdrive, hstop, haccepts]
  refine ⟨_, hexec, ?_, rfl, ?_⟩
  · rw [State.planComm, State.drive_setDrive]
  · rw [State.planComm, State.drive_setDrive]

/-- The handover takes the ramp's speed and duty, and plans the first commutation of Run. -/
theorem State.handover_effect (s : State) (a t : Nat) :
    (s.handover a t).driveState a = 5 ∧ ((s.handover a t).drive a).speedRef = (s.rampNow a).1 ∧
      ((s.handover a t).drive a).int = (s.rampNow a).2 ∧ ((s.handover a t).drive a).nextComm.isSome = true := by
  refine ⟨State.driveState_enterDrive .., ?_⟩
  simp [State.handover, State.planComm]

/-- The last consistent crossing that the handover needs brings the drive to Run. -/
theorem zeroCrossing_handsOver {c : Crossing} (hdrive : isDrive a = true) (hstate : s.driveState a = 4)
    (haccepts : s.accepts a c = true) (hfits : (s.drive a).fits c.at' = true)
    (hcount : s.rdN 0x340D (a + 1) dev ≤ (s.drive a).consistent + 1)
    (hspeed : (s.rd 0x340C (a + 1) dev : Rat) ≤ (s.rampNow a).1)
    (hjob : s.jobAt a (s.cnt 0) ≤ s.jobAtLt a (s.rampEnd a)) :
    Gives (.zeroCrossing a c) s fun t =>
      t.driveState a = 5 ∧ (t.drive a).speedRef = (s.rampNow a).1 ∧ (t.drive a).int = (s.rampNow a).2 ∧
        (t.drive a).nextComm.isSome = true := by
  let x : Bldc := { s.drive a with consistent := (s.drive a).consistent + 1, lastCross := c.at' }
  have hramp : (s.setDrive a x).rampNow a = s.rampNow a := State.rampNow_setDrive rfl
  have hend : (s.setDrive a x).rampEnd a = s.rampEnd a := State.rampEnd_setDrive rfl
  have hready : (s.setDrive a x).rdN 0x340D (a + 1) dev ≤ (s.drive a).consistent + 1 ∧
      ((s.setDrive a x).rd 0x340C (a + 1) dev : Rat) ≤ ((s.setDrive a x).rampNow a).1 ∧
      (s.setDrive a x).jobAt a ((s.setDrive a x).cnt 0) ≤ (s.setDrive a x).jobAtLt a ((s.setDrive a x).rampEnd a) := by
    rw [hramp, hend]
    exact ⟨hcount, hspeed, hjob⟩
  have hexec : exec (.zeroCrossing a c) s = .next ((s.setDrive a x).handover a c.at') := by
    change execZeroCrossing a c s = _
    simp only [execZeroCrossing, hdrive, hstate, haccepts, hfits, if_true]
    exact congrArg _ (if_pos hready)
  obtain ⟨hfive, hhandover⟩ := (s.setDrive a x).handover_effect a c.at'
  exact ⟨_, hexec, hfive, hramp ▸ hhandover⟩

/-- A drive that listens sees the crossing. -/
theorem zeroCrossing_seen {c : Crossing} (hdrive : isDrive a = true)
    (hlistens : s.driveState a = 1 ∨ (s.driveState a = 2 ∧ (s.drive a).floating = true))
    (hheld : c.at' + 640 ≤ s.cnt 0) :
    Gives (.zeroCrossing a c) s fun t => t = s.setDrive a ((s.drive a).see c) := by
  refine ⟨_, ?_, rfl⟩
  change execZeroCrossing a c s = _
  simp [execZeroCrossing, hdrive, hlistens, hheld]

/-! ## Commutation (R308, R310) -/

/-- A commutation moves the drive to its next state and measures the interval. -/
theorem State.commutate_drive (s : State) (a : Nat) : (s.commutate a).drive a = { s.drive a with
    comm := nextComm (s.drive a).forward (s.drive a).comm, lastComm := s.cnt 0, t2 := (s.drive a).t1
    t1 := s.cnt 0 - (s.drive a).lastComm, nextComm := none } := by
  unfold State.commutate State.showSpeed
  rw [State.drive_wr, State.drive_setGates, State.drive_setDrive]

theorem commutation_gives {x : Nat} (hdrive : isDrive a = true) (hruns : (s.die 0).halted = false)
    (hstate : s.driveState a = 5 ∨ s.driveState a = 6) (hplan : (s.drive a).nextComm = some x) (hdue : x ≤ s.cnt 0) :
    Gives (.commutation a) s fun t =>
      (t.drive a).comm = nextComm (s.drive a).forward (s.drive a).comm ∧ (t.drive a).lastComm = s.cnt 0 ∧
        (t.drive a).t1 = s.cnt 0 - (s.drive a).lastComm ∧ (t.drive a).t2 = (s.drive a).t1 ∧
        (t.drive a).nextComm = none := by
  have hramp : s.driveState a ≠ 4 := by omega
  have hexec : exec (.commutation a) s = .next (s.commutate a) := by
    change execCommutation a s = _
    simp [execCommutation, hdrive, hruns, hramp, hstate, hplan, hdue]
  exact ⟨_, hexec, by simp [State.commutate_drive]⟩

/-! ## Listen and Brake (R312 to R315) -/

/-- A rotor that no listen has classified counts as slow. -/
theorem State.rotorFast_of_none (h : (s.drive a).rotor = none) : s.rotorFast a = false := by
  rw [State.rotorFast, h]

theorem listenEnd_gives (hdrive : isDrive a = true) (hruns : (s.die 0).halted = false) (hstate : s.driveState a = 1)
    (htime : (s.drive a).since + 200000000 ≤ s.lt) :
    Gives (.listenEnd a) s fun t => t.driveState a =
      if s.rotorFast a = false then 3 else if (s.drive a).rotor.map (·.1) = some (s.drive a).forward then 5 else 2 := by
  refine .of_guard rfl ⟨hdrive, by rw [hruns, Bool.not_false], hstate, htime⟩ ?_
  cases hrotor : (s.drive a).rotor with
  | none => simp [State.rotorFast_of_none hrotor]
  | some r =>
    obtain ⟨forward, k, t1, t2⟩ := r
    cases hfast : s.rotorFast a with
    | false => simp
    | true =>
      by_cases hturns : forward = (s.drive a).forward
      · simp [hturns]
      · simp [hturns]

theorem brakeWindow_opens (hdrive : isDrive a = true) (hruns : (s.die 0).halted = false) (hstate : s.driveState a = 2)
    (hbrakes : (s.drive a).floating = false) (htime : (s.drive a).since + 50000000 ≤ s.lt) :
    Gives (.brakeWindow a) s fun t =>
      (t.drive a).floating = true ∧ (t.drive a).since = s.lt ∧ (t.drive a).rotor = none ∧ t.driveState a = 2 := by
  refine .of_guard rfl ⟨hdrive, by rw [hruns, Bool.not_false], hstate⟩ ?_
  rw [hbrakes, Bool.not_false, if_pos rfl, if_pos htime]
  simp [State.floatAll, hstate]

theorem brakeWindow_decides (hdrive : isDrive a = true) (hruns : (s.die 0).halted = false) (hstate : s.driveState a = 2)
    (hfloats : (s.drive a).floating = true) (htime : (s.drive a).since + s.windowNs a ≤ s.lt)
    (hbefore : s.lt < s.brakeEnd a) (hjob : s.jobAt a (s.cnt 0) < s.jobAtLt a (s.brakeEnd a)) :
    Gives (.brakeWindow a) s fun t =>
      if s.rotorFast a = true then (t.drive a).floating = false ∧ t.driveState a = 2 else t.driveState a = 3 := by
  refine .of_guard rfl ⟨hdrive, by rw [hruns, Bool.not_false], hstate⟩ ?_
  have hdecides : (s.drive a).since + s.windowNs a ≤ s.lt ∧ s.lt < s.brakeEnd a ∧
      s.jobAt a (s.cnt 0) < s.jobAtLt a (s.brakeEnd a) := ⟨htime, hbefore, hjob⟩
  rw [hfloats, Bool.not_true, if_neg Bool.false_ne_true, if_pos hdecides]
  cases hfast : s.rotorFast a with
  | true => simp [hstate]
  | false => simp

theorem brakeFailed_gives (hdrive : isDrive a = true) (hstate : s.driveState a = 2) (htime : s.brakeEnd a ≤ s.lt) :
    Gives (.brakeFailed a) s fun t => t.driveState a = 8 ∧ t.rd 0x3420 (a + 1) dev = 4 :=
  .of_guard rfl ⟨hdrive, hstate, htime⟩
    ⟨State.latchDrive_state s a 4, State.latchDrive_cause (by rw [hstate]; decide) 4⟩

/-! ## Align and Ramp (R316, R317) -/

theorem alignEnd_gives (hdrive : isDrive a = true) (hruns : (s.die 0).halted = false) (hstate : s.driveState a = 3)
    (htime : (s.drive a).since + s.rdN 0x340A (a + 1) dev * 1000000 ≤ s.lt) :
    Gives (.alignEnd a) s fun t => t.driveState a = 4 ∧ (t.drive a).comm = (if (s.drive a).forward then 0 else 5) ∧
      (t.drive a).lastComm = s.cnt 0 := by
  refine .of_guard rfl ⟨hdrive, by rw [hruns, Bool.not_false], hstate, htime⟩ ⟨State.driveState_enterDrive .., ?_⟩
  rw [State.drive_enterDrive, State.drive_setGates, State.drive_setDrive]
  exact ⟨rfl, rfl⟩

theorem rampFailed_gives (hdrive : isDrive a = true) (hstate : s.driveState a = 4) (htime : s.rampEnd a ≤ s.lt)
    (hjob : s.jobAtLt a (s.rampEnd a) < s.jobAt a (s.cnt 0)) :
    Gives (.rampFailed a) s fun t => t.driveState a = 7 ∧ (t.drive a).lastFail = 3 ∧
      t.rd 0x341D (a + 1) dev = min 255 (s.rd 0x341D (a + 1) dev + 1) :=
  .of_guard rfl ⟨hdrive, hstate, htime, hjob⟩ (s.failDrive_effect a 3)

end

/-- Settles O38: each command's guard holds, so its effect is read off its operation, whose outputs leave the drive's
state and commutation, and the frame is that of the command. -/
theorem sensorlessStart : Obligations.SensorlessStart := by
  refine ⟨?plans, ?handover, ?seen, ?commutation, ?listenEnd, ?opens, ?decides, ?brakeFailed, ?alignEnd, ?rampFailed⟩
  case plans =>
    intro a c s hdrive hstate haccepts hfree
    exact (zeroCrossing_plans hdrive hstate haccepts hfree).framed fun k hk => execZeroCrossing_same hk (.refl k s)
  case handover =>
    intro a c s hdrive hstate haccepts hfits hcount hspeed hjob
    exact (zeroCrossing_handsOver hdrive hstate haccepts hfits hcount hspeed hjob).framed fun k hk =>
      execZeroCrossing_same hk (.refl k s)
  case seen =>
    intro a c s hdrive hlistens hheld
    exact (zeroCrossing_seen hdrive hlistens hheld).framed fun k hk => execZeroCrossing_same hk (.refl k s)
  case commutation =>
    intro a x s hdrive hruns hstate hplan hdue
    exact (commutation_gives hdrive hruns hstate hplan hdue).framed fun k hk => execCommutation_same hk (.refl k s)
  case listenEnd =>
    intro a s hdrive hruns hstate htime
    exact (listenEnd_gives hdrive hruns hstate htime).framed fun k hk => execListenEnd_same hk (.refl k s)
  case opens =>
    intro a s hdrive hruns hstate hbrakes htime
    exact (brakeWindow_opens hdrive hruns hstate hbrakes htime).framed fun k hk => execBrakeWindow_same hk (.refl k s)
  case decides =>
    intro a s hdrive hruns hstate hfloats htime hbefore hjob
    exact (brakeWindow_decides hdrive hruns hstate hfloats htime hbefore hjob).framed fun k hk =>
      execBrakeWindow_same hk (.refl k s)
  case brakeFailed =>
    intro a s hdrive hstate htime
    exact (brakeFailed_gives hdrive hstate htime).framed fun k hk => execBrakeFailed_same hk (.refl k s)
  case alignEnd =>
    intro a s hdrive hruns hstate htime
    exact (alignEnd_gives hdrive hruns hstate htime).framed fun k hk => execAlignEnd_same hk (.refl k s)
  case rampFailed =>
    intro a s hdrive hstate htime hjob
    exact (rampFailed_gives hdrive hstate htime hjob).framed fun k hk => execRampFailed_same hk (.refl k s)

end Sys2Proof.Machine
end

section
/-! The statement on sensorless drives: locked rotor, retries, load faults and the speed setpoint. -/

namespace Sys2Proof.Machine

section
variable {s : State} {a : Nat}

/-! ## Failures and retries (R318, R319) -/

theorem lockedRotor_gives (hdrive : isDrive a = true) (hstate : s.driveState a = 5)
    (htime : ((s.drive a).lastCross : Rat) + s.lockCounts a ≤ (s.cnt 0 : Rat)) :
    Gives (.lockedRotor a) s fun t => t.driveState a = 7 ∧ (t.drive a).lastFail = 2 ∧
      t.rd 0x341D (a + 1) dev = min 255 (s.rd 0x341D (a + 1) dev + 1) :=
  .of_guard rfl ⟨hdrive, hstate, htime⟩ (s.failDrive_effect a 2)

/-- Within its retries the drive listens again; beyond them it latches with what failed last. -/
theorem retryDelayEnd_gives (hdrive : isDrive a = true) (hstate : s.driveState a = 7)
    (htime : (s.drive a).since + s.rdN 0x3412 (a + 1) dev * 1000000 ≤ s.lt) :
    Gives (.retryDelayEnd a) s fun t =>
      if s.rd 0x341D (a + 1) dev ≤ s.rd 0x3411 (a + 1) dev then t.driveState a = 1
      else t.driveState a = 8 ∧ t.rd 0x3420 (a + 1) dev = (s.drive a).lastFail := by
  refine .of_guard rfl ⟨hdrive, hstate, htime⟩ ?_
  split
  case isTrue => exact State.driveState_beginListen ..
  case isFalse => exact ⟨State.latchDrive_state .., State.latchDrive_cause (by rw [hstate]; decide) _⟩

theorem retryCountReset_gives (hdrive : isDrive a = true) (hstate : s.driveState a = 5)
    (htime : (s.drive a).since + 10000000000 ≤ s.lt) :
    Gives (.retryCountReset a) s fun t => t.rd 0x341D (a + 1) dev = 0 :=
  .of_guard rfl ⟨hdrive, hstate, htime⟩ (State.rd_wr_self ..)

/-! ## Load faults (R322) -/

/-- An excursion has acted once it is over its time, and with action 1 it has latched the drive. -/
theorem loadFault_gives (hdrive : isDrive a = true) (hfirst : (s.drive a).loadDone = false)
    (htime : s.loadExpired a = true) :
    Gives (.loadFault a) s fun t =>
      (t.drive a).loadDone = true ∧ (s.rd 0x3418 (a + 1) dev = 1 → t.driveState a = 8) := by
  refine .of_guard rfl ⟨hdrive, by rw [hfirst, Bool.not_false], htime⟩ ?_
  extract_lets y
  have hdone : (y.drive a).loadDone = true := by rw [State.drive_setDrive]
  split
  case isTrue => exact ⟨(y.latchDrive_loadDone a 5).trans hdone, fun _ => y.latchDrive_state a 5⟩
  case isFalse haction =>
    refine ⟨?_, fun h => absurd h haction⟩
    rw [State.drive_of_same (State.note_same (by decide) (.refl _ y)), hdone]

/-! ## The speed setpoint (R321) -/

/-- After the setpoint is written, its effect changes the drive alone. -/
theorem setpointSet_same_written {k : Part} (s : State) (a : Nat) (v : Int) (e : Nat)
    (hk : k ∉ [.reg 0x341A, .units, .bldc]) :
    State.Same k (s.leaveStandby.wr 0x3400 (a + 1) dev v) (setpointSet a v s e) := by
  have hlisten {y : State} : State.Same k y (y.beginListen a) := State.beginListen_same hk (.refl k y)
  have henter {y z : State} {st : Nat} (h : State.Same k y z) : State.Same k y (z.enterDrive a st) :=
    State.enterDrive_same (notMem_of hk (by decide)) h
  unfold setpointSet
  extract_lets st rev y
  split_ifs
  · exact .refl k y
  · exact hlisten
  · exact henter (.refl k y)
  · exact .refl k y
  · exact henter (State.driveLow_same (notMem_of hk (by decide)) (.refl k y))
  · exact hlisten
  · exact .refl k y

/-- A setpoint starts a drive that is off, and a setpoint of 0 stops one that runs. -/
theorem setpointSet_effect (s : State) (a : Nat) (v : Int) (e : Nat) :
    (setpointSet a v s e).rd 0x3400 (a + 1) dev = v ∧
      (s.driveState a = 0 → v ≠ 0 → (setpointSet a v s e).driveState a = 1) ∧
      (s.driveState a = 5 → v = 0 → (setpointSet a v s e).driveState a = 6) := by
  refine ⟨?_, fun hoff hv => ?_, fun hruns hv => ?_⟩
  · exact (setpointSet_same_written (k := .reg 0x3400) s a v e (by decide) (a + 1) dev).trans (State.rd_wr_self ..)
  · simp [setpointSet, hoff, hv]
  · simp [setpointSet, hruns, hv]

/-- A setpoint that no check refuses counts no refused reversal and has its effect. -/
theorem speedSetpoint_gives {src : Src} {rpm : Int}
    (hacc : s.Accepts src 0x3400 (a + 1) [dev] rpm (setpointCheck a rpm))
    (hpasses : s.writeChecks src 0x3400 (a + 1) [dev] rpm (setpointCheck a rpm) = none) :
    Gives (.speedSetpoint src a rpm) s fun t =>
      t.rd 0x3400 (a + 1) dev = rpm ∧ (s.driveState a = 0 → rpm ≠ 0 → t.driveState a = 1) ∧
        (s.driveState a = 5 → rpm = 0 → t.driveState a = 6) := by
  have hexec : exec (.speedSetpoint src a rpm) s =
      .next (s.writeObj src 0x3400 (a + 1) [dev] rpm (setpointCheck a rpm) (setpointSet a rpm)) := by
    change execSpeedSetpoint src a rpm s = _
    rw [execSpeedSetpoint, hpasses]
    rfl
  have hnet := (State.writeObj_ok (eff := setpointSet a rpm) hacc).frame
  have hstate : ((s.atRequest src).touch dev).driveState a = s.driveState a :=
    State.driveState_of_same (s.touch_atRequest_same src dev (by decide)) a
  obtain ⟨hwritten, hstarts, hstops⟩ := setpointSet_effect ((s.atRequest src).touch dev) a rpm dev
  rw [hstate] at hstarts hstops
  refine ⟨_, hexec, (hnet (.reg 0x3400) (by decide) (a + 1) dev).trans hwritten, fun h hv => ?_, fun h hv => ?_⟩
  · exact (State.driveState_of_same (hnet _ (by decide)) a).trans (hstarts h hv)
  · exact (State.driveState_of_same (hnet _ (by decide)) a).trans (hstops h hv)

end

/-- Settles O39: each command's guard holds, so its effect is read off its operation; an accepted setpoint is written
before what it starts or stops, which does not write it, and the frame is that of the command. -/
theorem sensorlessFaults : Obligations.SensorlessFaults := by
  refine ⟨?locked, ?retry, ?reset, ?load, ?setpoint⟩
  case locked =>
    intro a s hdrive hstate htime
    exact (lockedRotor_gives hdrive hstate htime).framed fun k hk => execLockedRotor_same hk (.refl k s)
  case retry =>
    intro a s hdrive hstate htime
    exact (retryDelayEnd_gives hdrive hstate htime).framed fun k hk => execRetryDelayEnd_same hk (.refl k s)
  case reset =>
    intro a s hdrive hstate htime
    exact (retryCountReset_gives hdrive hstate htime).framed fun k hk => execRetryCountReset_same hk (.refl k s)
  case load =>
    intro a s hdrive hfirst htime
    exact (loadFault_gives hdrive hfirst htime).framed fun k hk => execLoadFault_same hk (.refl k s)
  case setpoint =>
    intro src a rpm s hacc hpasses
    exact (speedSetpoint_gives hacc hpasses).framed fun k hk => execSpeedSetpoint_same hk (.refl k s)

end Sys2Proof.Machine
end

section
/-! The statement on stepper axes: targets, steps, limits, holding and the reference. -/

namespace Sys2Proof.Machine

section
variable {s : State} {a : Nat}

/-! ## Stale samples (R307) -/

/-- A current input that is stale latches its drive, or its axis, and is stale no longer. -/
theorem auxSamplesStale_gives {k : Nat} (hk : k < 8)
    (hstale : heldFor (s.slot 0 (4 + k)).staleSince 1000000 s.lt = true) :
    Gives (.auxSamplesStale k) s fun t => (t.slot 0 (4 + k)).staleSince = none ∧
      if k < 4 then t.driveState k = 8 else t.axisState (k - 4) = 7 := by
  refine .of_guard rfl ⟨hk, hstale⟩ ?_
  extract_lets x y
  have hfresh : (y.slot 0 (4 + k)).staleSince = none := by rw [State.slot_setSlot]
  split
  case isTrue hdrive =>
    rw [State.slot_of_same (State.latchDrive_same (by decide) (.refl _ y))]
    exact ⟨hfresh, y.latchDrive_state k 6⟩
  case isFalse haxis =>
    rw [State.slot_of_same (State.latchAxis_same (by decide) (.refl _ y))]
    exact ⟨hfresh, y.latchAxis_state (k - 4) 6⟩

/-! ## Targets (R329) -/

theorem targetPosition_gives {src : Src} {p : Int}
    (hacc : s.Accepts src 0x3441 (a + 1) [dev] p (targetCheck a p)) :
    Gives (.targetPosition src a p) s fun t => t.rd 0x3441 (a + 1) dev = p ∧ (t.axis a).stopping = false := by
  have hnet := (State.writeObj_ok (eff := targetSet a p) hacc).frame
  refine ⟨_, rfl, (hnet (.reg 0x3441) (by decide) (a + 1) dev).trans (State.rd_wr_self ..), ?_⟩
  rw [State.axis_of_same (hnet .axes (by decide))]
  simp [targetSet]

/-! ## Steps (R330, R331) -/

/-- In STEP/DIR mode an axis that no latch holds takes its step edges. -/
theorem stepEdge_taken (hdrive : isDrive a = true) (hmode : s.rd 0x3440 (a + 1) dev = 1) (hfree : s.axisState a ≠ 7) :
    ¬ ((!isDrive a) = true ∨ s.rd 0x3440 (a + 1) dev ≠ 1 ∨ s.axisState a = 7) := by
  simp [hdrive, hmode, hfree]

/-- A step edge moves the commanded position by the microsteps of a step. -/
theorem stepEdge_steps {dir : Bool} (hdrive : isDrive a = true) (hmode : s.rd 0x3440 (a + 1) dev = 1)
    (hfree : s.axisState a ≠ 7) (hsto : s.axisState a ≠ 8) (hlimit : s.limitActive a dir = false) :
    Gives (.stepEdge a dir) s fun t =>
      (t.axis a).c = (if dir then (s.axis a).c + s.rd 0x344B (a + 1) dev * ustep
        else (s.axis a).c - s.rd 0x344B (a + 1) dev * ustep) ∧ (t.axis a).lastEdge = some (s.cnt 0) := by
  have hmoves : ¬ (s.axisState a = 8 ∨ s.limitActive a dir = true) := by simp [hsto, hlimit]
  refine .of_guard_not rfl (stepEdge_taken hdrive hmode hfree) ?_
  rw [if_neg hmoves]
  exact ⟨congrArg Axis.c (State.axis_setAxis ..), congrArg Axis.lastEdge (State.axis_setAxis ..)⟩

/-- An edge toward an active switch, or in STO, is discarded and counted. -/
theorem stepEdge_discarded {dir : Bool} (hdrive : isDrive a = true) (hmode : s.rd 0x3440 (a + 1) dev = 1)
    (hfree : s.axisState a ≠ 7) (hbars : s.axisState a = 8 ∨ s.limitActive a dir = true) :
    Gives (.stepEdge a dir) s fun t => t = s.inc 0x3451 (a + 1) dev :=
  .of_guard_not rfl (stepEdge_taken hdrive hmode hfree) (if_pos hbars)

theorem inputOverrun_gives (hdrive : isDrive a = true) (hmode : s.rd 0x3440 (a + 1) dev = 1)
    (hsto : s.axisState a ≠ 8) (hfree : s.axisState a ≠ 7)
    (hbeyond : 16 * s.rd 0x344B (a + 1) dev * ustep < ((s.axis a).c - (s.axis a).x).natAbs) :
    Gives (.inputOverrun a) s fun t => t.axisState a = 7 ∧ t.rd 0x3457 (a + 1) dev = 2 :=
  .of_guard rfl ⟨hdrive, hmode, hsto, hbeyond⟩ ⟨State.latchAxis_state .., State.latchAxis_cause hfree 2⟩

/-! ## Limit switches and holding (R324, R331) -/

/-- A sample of a switch joins its history, whatever the sample decides. -/
theorem limitSwitch_gives {pos level : Bool} (hdrive : isDrive a = true)
    (htime : ∀ x, (if pos then (s.axis a).limPAt else (s.axis a).limNAt) = some x → x + 20000 ≤ s.lt) :
    Gives (.limitSwitch a pos level) s fun t =>
      (if pos then (t.axis a).limP else (t.axis a).limN) =
          takeSample (if pos then (s.axis a).limP else (s.axis a).limN) level ∧
        (if pos then (t.axis a).limPAt else (t.axis a).limNAt) = some s.lt := by
  have hdue : (if pos then (s.axis a).limPAt else (s.axis a).limNAt).all
      (fun t => decide (t + 20000 ≤ s.lt)) = true := by
    rw [Option.all_eq_true]
    exact fun x hx => decide_eq_true (htime x hx)
  refine .of_guard rfl ⟨hdrive, hdue⟩ ?_
  extract_lets h y cfg
  have hsampled : (if pos then (y.axis a).limP else (y.axis a).limN) = h ∧
      (if pos then (y.axis a).limPAt else (y.axis a).limNAt) = some s.lt := by
    rw [State.axis_setAxis]
    cases pos with
    | true => exact ⟨rfl, rfl⟩
    | false => exact ⟨rfl, rfl⟩
  cases accepted? h with
  | none => exact hsampled
  | some l => exact hsampled

theorem holdDelay_gives (hdrive : isDrive a = true) (hstill : s.axisState a = 0) (hruns : (s.axis a).holdAt = none)
    (htime : heldFor (s.axis a).stillSince (s.rdN 0x344A (a + 1) dev * 1000000) s.lt = true) :
    Gives (.holdDelay a) s fun t => (t.axis a).holdAt = some s.lt := by
  refine .of_guard rfl ⟨hdrive, hstill, by rw [hruns, Option.isNone_none], htime⟩ ?_
  rw [State.axis_setAxis]

/-! ## The reference (R332) -/

/-- A bit of the axis status that is cleared reads false. -/
theorem State.axisBit_cleared (s : State) (a b : Nat) :
    bit ((s.axisBit a b false).rdN 0x3450 (a + 1) dev) b = false := by
  rw [State.axisBit, State.rdN, State.rd_wr_self]
  exact bit_clearBit_self ..

/-- A reference sets position and target, and the axis is referenced. -/
theorem referenceSet_effect (s : State) (a : Nat) (v : Int) (e : Nat) :
    (referenceSet a v s e).rd 0x344D (a + 1) dev = v ∧ (referenceSet a v s e).rd 0x3441 (a + 1) dev = v ∧
      ((referenceSet a v s e).axis a).x = v * ustep ∧ ((referenceSet a v s e).axis a).c = v * ustep ∧
      bit ((referenceSet a v s e).rdN 0x3450 (a + 1) dev) 3 = false := by
  refine ⟨?_, ?_, ?_, ?_, State.axisBit_cleared ..⟩
  · simp [referenceSet, State.axisBit, State.rd_wr]
  · simp [referenceSet, State.axisBit, State.rd_wr]
  · simp [referenceSet, State.axisBit]
  · simp [referenceSet, State.axisBit]

theorem referencePosition_gives {src : Src} {v : Int}
    (hacc : s.Accepts src 0x344D (a + 1) [dev] v (referenceCheck a)) :
    Gives (.referencePosition src a v) s fun t =>
      t.rd 0x344D (a + 1) dev = v ∧ t.rd 0x3441 (a + 1) dev = v ∧ (t.axis a).x = v * ustep ∧
        (t.axis a).c = v * ustep ∧ bit (t.rdN 0x3450 (a + 1) dev) 3 = false := by
  have hnet := (State.writeObj_ok (eff := referenceSet a v) hacc).frame
  have hstatus := hnet (.reg 0x3450) (by decide) (a + 1) dev
  have haxis := State.axis_of_same (hnet .axes (by decide)) a
  obtain ⟨hposition, htarget, hx, hc, hreferenced⟩ := referenceSet_effect ((s.atRequest src).touch dev) a v dev
  refine ⟨_, rfl, ?_, ?_, (congrArg Axis.x haxis).trans hx, (congrArg Axis.c haxis).trans hc, ?_⟩
  · exact (hnet (.reg 0x344D) (by decide) (a + 1) dev).trans hposition
  · exact (hnet (.reg 0x3441) (by decide) (a + 1) dev).trans htarget
  · exact (congrArg (fun v : Int => bit v.toNat 3) hstatus).trans hreferenced

end

/-- Settles O40: each command's guard holds, so its effect is read off its operation; an accepted write leaves its
effect but for the network side, and the frame is that of the command. -/
theorem stepperAxes : Obligations.StepperAxes := by
  refine ⟨?stale, ?target, ?steps, ?discarded, ?overrun, ?limit, ?hold, ?reference⟩
  case stale =>
    intro k s hk hstale
    exact (auxSamplesStale_gives hk hstale).framed fun p hp => execAuxSamplesStale_same hp (.refl p s)
  case target =>
    intro src a p s hacc
    exact (targetPosition_gives hacc).framed fun k hk => execTargetPosition_same hk (.refl k s)
  case steps =>
    intro a dir s hdrive hmode hfree hsto hlimit
    exact (stepEdge_steps hdrive hmode hfree hsto hlimit).framed fun k hk => execStepEdge_same hk (.refl k s)
  case discarded =>
    intro a dir s hdrive hmode hfree hbars
    exact (stepEdge_discarded hdrive hmode hfree hbars).framed fun k hk => execStepEdge_same hk (.refl k s)
  case overrun =>
    intro a s hdrive hmode hsto hfree hbeyond
    exact (inputOverrun_gives hdrive hmode hsto hfree hbeyond).framed fun k hk => execInputOverrun_same hk (.refl k s)
  case limit =>
    intro a pos level s hdrive htime
    exact (limitSwitch_gives hdrive htime).framed fun k hk => execLimitSwitch_same hk (.refl k s)
  case hold =>
    intro a s hdrive hstill hruns htime
    exact (holdDelay_gives hdrive hstill hruns htime).framed fun k hk => execHoldDelay_same hk (.refl k s)
  case reference =>
    intro src a v s hacc
    exact (referencePosition_gives hacc).framed fun k hk => execReferencePosition_same hk (.refl k s)

end Sys2Proof.Machine
end

section
/-! The statement on safe torque off and safe stop 1 of the drives and axes. -/

namespace Sys2Proof.Machine

/-! ## A drive among the others -/

/-- A drive is as in another state: its record, its state shown and its setpoint. -/
structure State.DriveAsIn (s : State) (a : Nat) (t : State) : Prop where
  drive : t.drive a = s.drive a
  state : t.driveState a = s.driveState a
  setpoint : t.rd 0x3400 (a + 1) dev = s.rd 0x3400 (a + 1) dev

namespace State.DriveAsIn

variable {r s t : State} {a b : Nat}

theorem refl (a : Nat) (s : State) : s.DriveAsIn a s := ⟨rfl, rfl, rfl⟩

theorem trans (h : r.DriveAsIn a s) (g : s.DriveAsIn a t) : r.DriveAsIn a t :=
  ⟨g.drive.trans h.drive, g.state.trans h.state, g.setpoint.trans h.setpoint⟩

/-- The outputs of a drive, and what is written of the axes, leave every drive. -/
theorem of_frame (h : Frame [.reg 0x3441, .reg 0x344E, .reg 0x344F, .reg 0x3450, .units, .axes] s t) :
    s.DriveAsIn a t :=
  ⟨State.drive_of_same (h _ (by decide)) a, State.driveState_of_same (h _ (by decide)) a,
    h (.reg 0x3400) (by decide) (a + 1) dev⟩

/-! What is written of a drive leaves the others. -/

theorem setDrive (s : State) (hab : a ≠ b) (x : Bldc) : s.DriveAsIn a (s.setDrive b x) :=
  ⟨look_put_ne _ _ _ hab, rfl, rfl⟩

theorem wr (s : State) (hab : a ≠ b) (i : Nat) (v : Int) : s.DriveAsIn a (s.wr i (b + 1) dev v) := by
  have hrd (k : Nat) : (s.wr i (b + 1) dev v).rd k (a + 1) dev = s.rd k (a + 1) dev := s.rd_wr_ne v (by simp [hab])
  exact ⟨rfl, congrArg Int.toNat (hrd 0x341A), hrd 0x3400⟩

theorem enterDrive (s : State) (hab : a ≠ b) (st : Nat) : s.DriveAsIn a (s.enterDrive b st) :=
  (setDrive s hab _).trans (wr _ hab _ _)

theorem driveCut (s : State) (b : Nat) : s.DriveAsIn a (s.driveCut b) :=
  of_frame fun k hk => State.driveCut_same (notMem_of hk (by decide)) (.refl k s)

theorem stoDrive (s : State) (hab : a ≠ b) : s.DriveAsIn a (s.stoDrive b) :=
  (driveCut s b).trans ((setDrive _ hab _).trans (wr _ hab _ _))

theorem freeDrive (s : State) (hab : a ≠ b) : s.DriveAsIn a (s.freeDrive b) := by
  unfold State.freeDrive
  split
  · exact (enterDrive s hab 0).trans (wr _ hab _ _)
  · exact refl a s

theorem ss1Drive (s : State) (hab : a ≠ b) : s.DriveAsIn a (s.ss1Drive b) := by
  unfold State.ss1Drive
  extract_lets x y
  have hy : s.DriveAsIn a y := setDrive s hab _
  split_ifs
  · exact hy.trans (enterDrive y hab 6)
  · exact hy.trans ((driveCut y b).trans (enterDrive _ hab 0))
  · exact hy

/-- Operations on axes leave every drive. -/
theorem eachAxis {l : List Nat} {f : State → Nat → State}
    (hf : ∀ y x, Frame [.reg 0x3441, .reg 0x344E, .reg 0x344F, .reg 0x3450, .units, .axes] y (f y x)) :
    s.DriveAsIn a (each l f s) :=
  of_frame fun k hk => each_same (.refl k s) fun y x hy => hy.trans (hf y x k hk)

end State.DriveAsIn

/-! ## Every drive, every axis that an output feeds (R357) -/

theorem State.fedDrives_nodup (s : State) (out : Nat) : (s.fedDrives out).Nodup := by
  unfold State.fedDrives
  split
  · decide
  · exact List.nodup_nil

theorem State.fedAxes_nodup (s : State) (out : Nat) : (s.fedAxes out).Nodup := by
  unfold State.fedAxes
  split
  · decide
  · exact List.nodup_nil

/-- Each drive of a list finds itself as before the list, and what its operation brings about stands after the list. -/
theorem each_drive_reaches {l : List Nat} {s : State} {f : State → Nat → State} {p : Nat → State → Prop} (hl : l.Nodup)
    (hset : ∀ a y, s.DriveAsIn a y → p a (f y a))
    (hothers : ∀ (y : State) {a b : Nat}, a ≠ b → y.DriveAsIn a (f y b))
    (hstays : ∀ a (y t : State), p a y → y.DriveAsIn a t → p a t) : ∀ a ∈ l, p a (each l f s) :=
  each_nodup_reaches (q := fun a y => s.DriveAsIn a y) hl (fun a _ => .refl a s) (fun a _ y => hset a y)
    (fun _ _ y _ hab hy => hy.trans (hothers y hab)) fun a _ y _ hab hy => hstays a y _ hy (hothers y hab)

/-! ## STO (R333) -/

theorem State.stoDrive_state (s : State) (a : Nat) :
    (s.stoDrive a).driveState a = if s.driveState a = 8 then 8 else 9 := by
  unfold State.stoDrive
  rw [State.driveState_wr, State.driveState_driveCut]
  split
  · rfl
  · rfl

theorem State.stoAxis_state_ne (s : State) {a b : Nat} (hab : a ≠ b) : (s.stoAxis b).axisState a = s.axisState a := by
  have hwr (y : State) (i : Nat) (v : Int) : (y.wr i (b + 1) dev v).axisState a = y.axisState a :=
    congrArg Int.toNat (y.rd_wr_ne v (by simp [hab]))
  unfold State.stoAxis State.axisLow State.axisBit
  rw [hwr, hwr, hwr]
  exact State.axisState_of_same (State.setAxis_same (by decide) (State.cutUnits_same (by decide) (.refl _ s))) a

/-- STO of an output leaves each drive that it feeds in state 9, but for a latch. -/
theorem State.stoOut_drives (s : State) (out : Nat) :
    ∀ a ∈ s.fedDrives out, (s.stoOut out).driveState a = if s.driveState a = 8 then 8 else 9 := by
  intro a ha
  have haxes {y : State} : y.DriveAsIn a (each (s.fedAxes out) (·.stoAxis) y) :=
    .eachAxis fun y x k hk => State.stoAxis_same (notMem_of hk (by decide)) (.refl k y)
  rw [State.stoOut, haxes.state]
  refine each_drive_reaches (p := fun a y => y.driveState a = if s.driveState a = 8 then 8 else 9)
    (s.fedDrives_nodup out) ?_ (fun y => .stoDrive y) (fun a y t hy h => h.state.trans hy) a ha
  intro a y hy
  rw [State.stoDrive_state, hy.state]

/-- STO of an output leaves each axis that it feeds in state 8, but for a latch. -/
theorem State.stoOut_axes (s : State) (out : Nat) :
    ∀ a ∈ s.fedAxes out, (s.stoOut out).axisState a = if s.axisState a = 7 then 7 else 8 := by
  have hdrives : State.Same (.reg 0x344F) s (each (s.fedDrives out) (·.stoDrive) s) :=
    each_same (.refl _ s) fun _ _ hy => State.stoDrive_same (by decide) hy
  refine each_nodup_reaches (q := fun a y => y.axisState a = s.axisState a)
    (p := fun a y => y.axisState a = if s.axisState a = 7 then 7 else 8) (s.fedAxes_nodup out)
    (fun a _ => State.axisState_of_same hdrives a) ?sets ?finds ?keeps
  case sets =>
    intro a _ y hy
    rw [State.stoAxis, State.axisState_axisLow, hy]
  case finds =>
    intro a _ y b hab hy
    rw [State.stoAxis_state_ne y hab, hy]
  case keeps =>
    intro a _ y b hab hy
    rw [State.stoAxis_state_ne y hab, hy]

section
variable {s : State} {out : Nat}

theorem sto_gives (hout : out < 4) (hoff : (s.sout out).on = false) :
    Gives (.sto out) s fun t => (∀ a ∈ s.fedDrives out, t.driveState a = if s.driveState a = 8 then 8 else 9) ∧
      ∀ a ∈ s.fedAxes out, t.axisState a = if s.axisState a = 7 then 7 else 8 :=
  .of_guard rfl ⟨hout, by rw [hoff, Bool.not_false]⟩ ⟨s.stoOut_drives out, s.stoOut_axes out⟩

/-- A drive that STO held is off with setpoint 0 after the release. -/
theorem State.freeDrive_effect {s : State} {a : Nat} (h : s.driveState a = 9) :
    (s.freeDrive a).driveState a = 0 ∧ (s.freeDrive a).rd 0x3400 (a + 1) dev = 0 := by
  rw [State.freeDrive, if_pos h]
  refine ⟨?_, State.rd_wr_self ..⟩
  rw [State.driveState_of_same (State.wr_same (by decide) (.refl _ _)), State.driveState_enterDrive]

theorem stoRelease_gives (hout : out < 4) (hon : (s.sout out).on = true) :
    Gives (.stoRelease out) s fun t =>
      ∀ a ∈ s.fedDrives out, s.driveState a = 9 → t.driveState a = 0 ∧ t.rd 0x3400 (a + 1) dev = 0 := by
  refine .of_guard rfl ⟨hout, hon⟩ fun a ha => ?_
  have haxes {y : State} : y.DriveAsIn a (each (s.fedAxes out) (·.freeAxis) y) :=
    .eachAxis fun y x k hk => State.freeAxis_same (notMem_of hk (by decide)) (.refl k y)
  rw [State.freeOut, haxes.state, haxes.setpoint]
  refine each_drive_reaches
    (p := fun a y => s.driveState a = 9 → y.driveState a = 0 ∧ y.rd 0x3400 (a + 1) dev = 0) (s.fedDrives_nodup out)
    ?_ (fun y => .freeDrive y) ?_ a ha
  · intro a y hy hsto
    exact State.freeDrive_effect (hy.state.trans hsto)
  · intro a y t hfreed h
    rwa [h.state, h.setpoint]

/-! ## SS1 (R334, R357) -/

/-- SS1 marks a drive, and one that runs begins its stop. -/
theorem State.ss1Drive_effect (s : State) (a : Nat) :
    ((s.ss1Drive a).drive a).ss1 = true ∧ (s.driveState a = 5 → (s.ss1Drive a).driveState a = 6) := by
  unfold State.ss1Drive
  extract_lets x y
  have hmark : (y.drive a).ss1 = true := by rw [State.drive_setDrive]
  refine ⟨?_, fun hruns => ?_⟩
  · split_ifs
    · rwa [State.drive_enterDrive]
    · rwa [State.drive_enterDrive, State.drive_driveCut]
    · exact hmark
  · have hy : y.driveState a = 5 := hruns
    rw [if_pos hy, State.driveState_enterDrive]

theorem ss1_gives (hout : out < 4) (hasked : (s.sout out).ss1At.isSome = true) :
    Gives (.ss1 out) s fun t =>
      (∀ a ∈ s.fedDrives out, (t.drive a).ss1 = true ∧ (s.driveState a = 5 → t.driveState a = 6)) ∧
        ∀ a ∈ s.fedAxes out, (t.axis a).ss1 = true := by
  refine .of_guard rfl ⟨hout, hasked⟩ ⟨fun a ha => ?_, ?_⟩
  · have haxes {y : State} : y.DriveAsIn a (each (s.fedAxes out) (·.ss1Axis) y) :=
      .eachAxis fun y x k hk => State.ss1Axis_same (notMem_of hk (by decide)) (.refl k y)
    rw [State.ss1Out, haxes.drive, haxes.state]
    refine each_drive_reaches
      (p := fun a y => (y.drive a).ss1 = true ∧ (s.driveState a = 5 → y.driveState a = 6)) (s.fedDrives_nodup out)
      ?_ (fun y => .ss1Drive y) ?_ a ha
    · intro a y hy
      rw [← hy.state]
      exact y.ss1Drive_effect a
    · intro a y t hmarked h
      rwa [h.drive, h.state]
  · refine fun a ha => each_reaches (inv := fun _ => True) (p := fun a y => (y.axis a).ss1 = true)
      (fun _ _ _ => trivial) ?_ ?_ trivial (.inl ha)
    · intro y a _
      rw [State.ss1Axis, State.axis_setAxis]
    · intro y b a hy
      by_cases hab : a = b
      · rw [hab, State.ss1Axis, State.axis_setAxis]
      · rwa [State.ss1Axis, State.axis, State.setAxis_axes, look_put_ne _ _ _ hab]

/-! ## The end of SS1 (R357) -/

theorem State.sout_of_same {s t : State} (h : State.Same .sup s t) (n : Nat) : t.sout n = s.sout n := by
  rw [State.sout, State.sout, show t.sup = s.sup from h]

@[simp] theorem State.sout_setSout (s : State) (n : Nat) (x : SafeOut) : (s.setSout n x).sout n = x := by
  simp [State.sout, State.setSout]

/-- An output that a function switches off is off, waits for no SS1, and has put its drives in STO. -/
theorem State.functionOff_effect (s : State) (out : Nat) :
    ((s.functionOff out).sout out).on = false ∧ ((s.functionOff out).sout out).ss1At = none ∧
      ∀ a ∈ s.fedDrives out, (s.functionOff out).driveState a = if s.driveState a = 8 then 8 else 9 := by
  have hrequest {k : Part} (hk : k ∉ [.reg 0x4014]) : State.Same k (s.switchOff out) (s.functionOff out) := by
    unfold State.functionOff
    extract_lets y
    split
    · exact .refl k y
    · exact State.wr_same hk (.refl k y)
  have hsout : (s.functionOff out).sout out = { s.sout out with on := false, bad := 0, ss1At := none } := by
    rw [State.sout_of_same (hrequest (by decide))]
    unfold State.switchOff
    rw [State.sout_of_same (State.stoOut_same (by decide) (State.wr_same (by decide) (.refl _ _))), State.sout_setSout]
  refine ⟨by rw [hsout], by rw [hsout], fun a ha => ?_⟩
  rw [State.driveState_of_same (hrequest (by decide))]
  unfold State.switchOff
  extract_lets x y
  have hshown : State.Same (.reg 0x341A) s y :=
    State.wr_same (by decide) (State.setSout_same (by decide) (.refl _ s))
  have hfeeds : State.Same (.reg 0x4016) s y :=
    State.wr_same (by decide) (State.setSout_same (by decide) (.refl _ s))
  have hfed : y.fedDrives out = s.fedDrives out := by
    rw [State.fedDrives, State.fedDrives, State.rdN, State.rdN, hfeeds]
  rw [y.stoOut_drives out a (hfed ▸ ha), State.driveState_of_same hshown]

theorem ss1Time_gives {x : Nat} (hout : out < 4) (hasked : (s.sout out).ss1At = some x)
    (hends : s.allSlow out = true ∨ x ≤ s.lt) :
    Gives (.ss1Time out) s fun t => (t.sout out).on = false ∧ (t.sout out).ss1At = none ∧
      ∀ a ∈ s.fedDrives out, t.driveState a = if s.driveState a = 8 then 8 else 9 := by
  have hexec : exec (.ss1Time out) s =
      .next (if out < 4 ∧ (s.allSlow out ∨ x ≤ s.lt) then s.functionOff out else s) := by
    change execSs1Time out s = _
    rw [execSs1Time, hasked]
  exact .of_guard hexec ⟨hout, hends⟩ (s.functionOff_effect out)

end

/-- Settles O41: the operations at the drives and axes that an output feeds leave one another's, so each shows its own;
each command's guard holds, and the frame is that of the command. -/
theorem safeTorqueOff : Obligations.SafeTorqueOff := by
  refine ⟨?sto, ?release, ?ss1, ?ends⟩
  case sto =>
    intro out s hout hoff
    exact (sto_gives hout hoff).framed fun k hk => execSto_same hk (.refl k s)
  case release =>
    intro out s hout hon
    exact (stoRelease_gives hout hon).framed fun k hk => execStoRelease_same hk (.refl k s)
  case ss1 =>
    intro out s hout hasked
    exact (ss1_gives hout hasked).framed fun k hk => execSs1_same hk (.refl k s)
  case ends =>
    intro out x s hout hasked hends
    exact (ss1Time_gives hout hasked hends).framed fun k hk => execSs1Time_same hk (.refl k s)

end Sys2Proof.Machine
end

section
/-! SUPPORT. What the operations of the safety supervisor leave behind: bits of the hold reasons, its inputs, outputs and
drives, and what a demand leaves of its record. -/

namespace Sys2Proof.Machine

/-! ## Bits of a register -/

/-- Setting a bit carries into no other bit. -/
theorem bit_setBit_ne (x : Nat) {j k : Nat} (h : j ≠ k) : bit (setBit x k) j = bit x j := by
  unfold setBit
  split
  case isTrue => rfl
  case isFalse hclear =>
    have heven : x / 2 ^ k % 2 = 0 := by
      have : x / 2 ^ k % 2 ≠ 1 := by simpa [bit] using hclear
      omega
    unfold bit
    congr 1
    obtain hlt | hlt := Nat.lt_or_gt_of_ne h
    · obtain ⟨m, rfl⟩ : ∃ m, k = j + (m + 1) := ⟨k - j - 1, by omega⟩
      rw [Nat.pow_add, Nat.mul_comm, Nat.add_mul_div_right _ _ (Nat.two_pow_pos j), Nat.pow_succ]
      omega
    · obtain ⟨m, rfl⟩ : ∃ m, j = k + (1 + m) := ⟨j - k - 1, by omega⟩
      rw [Nat.pow_add, Nat.pow_add, ← Nat.div_div_eq_div_mul, ← Nat.div_div_eq_div_mul, ← Nat.div_div_eq_div_mul,
        ← Nat.div_div_eq_div_mul, Nat.add_div_right _ (Nat.two_pow_pos k)]
      congr 2
      omega

theorem setBit_clearBit (x k : Nat) : setBit (clearBit x k) k = setBit x k := by
  rw [setBit, if_neg (by simp [bit_clearBit_self])]
  unfold setBit clearBit
  split
  case isTrue h =>
    have hle : 2 ^ k ≤ x := by
      by_contra hlt
      rw [bit, Nat.div_eq_of_lt (by omega)] at h
      exact absurd h (by decide)
    omega
  case isFalse => rfl

/-- Clearing a bit borrows from no other bit. -/
theorem bit_clearBit_ne (x : Nat) {j k : Nat} (h : j ≠ k) : bit (clearBit x k) j = bit x j := by
  rw [← bit_setBit_ne (clearBit x k) h, setBit_clearBit, bit_setBit_ne x h]

/-! ## Hold reasons (R353) -/

/-- A hold reason of the supervisor is set. -/
def State.held (s : State) (b : Nat) : Bool := bit (s.rdN 0x4000 2 dev) b

theorem State.held_of_rd {s t : State} (h : t.rd 0x4000 2 dev = s.rd 0x4000 2 dev) (b : Nat) : t.held b = s.held b := by
  rw [State.held, State.held, State.rdN, State.rdN, h]

theorem State.held_of_same {s t : State} (h : State.Same (.reg 0x4000) s t) (b : Nat) : t.held b = s.held b :=
  State.held_of_rd (h 2 dev) b

theorem State.held_wr (s : State) (b x : Nat) : (s.wr 0x4000 2 dev x).held b = bit x b := by
  rw [State.held, State.rdN, State.rd_wr_self, Int.toNat_natCast]

theorem State.held_setHold_self (s : State) (b : Nat) : (s.setHold b).held b = true :=
  (s.held_wr b _).trans (bit_setBit_self ..)

theorem State.held_setHold_ne (s : State) {b x : Nat} (h : b ≠ x) : (s.setHold x).held b = s.held b :=
  (s.held_wr b _).trans (bit_setBit_ne _ h)

theorem State.held_clearHold_ne (s : State) {b x : Nat} (h : b ≠ x) : (s.clearHold x).held b = s.held b :=
  (s.held_wr b _).trans (bit_clearBit_ne _ h)

/-- Setting a hold reason leaves the ones that were set. -/
theorem State.held_setHold {s : State} {b : Nat} (h : s.held b = true) (x : Nat) : (s.setHold x).held b = true := by
  by_cases hb : b = x
  · rw [hb, State.held_setHold_self]
  · rwa [s.held_setHold_ne hb]

/-- Showing the active functions touches no hold reason but [0]. -/
theorem State.showActive_held (s : State) {b : Nat} (hb : b ≠ 0) : s.showActive.held b = s.held b := by
  unfold State.showActive
  extract_lets a y
  have hy : y.held b = s.held b := State.held_of_rd (State.rd_wr_ne s _ (by simp)) b
  split
  · exact (y.held_setHold_ne hb).trans hy
  · exact (y.held_clearHold_ne hb).trans hy

theorem State.activeNote_held (s : State) (corr b : Nat) : (s.activeNote corr).held b = s.held b :=
  State.held_of_same (State.activeNote_same (by decide) (.refl _ s)) b

/-- A fault's record leaves the hold reasons. -/
theorem State.supFault_held (s : State) (code b : Nat) : (s.supFault code).held b = s.held b := by
  refine State.held_of_rd ?_ b
  rw [State.supFault, State.note_same (k := .reg 0x4000) (by decide) (.refl _ _) 2 dev, State.rd_wr_ne _ _ (by simp),
    State.rd_wr_ne _ _ (by simp)]

/-- A fault shows its code (R365). -/
theorem State.supFault_shows (s : State) (code : Nat) : (s.supFault code).rd 0x4000 5 dev = code := by
  rw [State.supFault, State.note_same (k := .reg 0x4000) (by decide) (.refl _ _) 5 dev, State.rd_wr_ne _ _ (by simp),
    State.rd_wr_self]

/-! ## Inputs and outputs -/

theorem State.sin_of_ins {s t : State} (h : t.sup.ins = s.sup.ins) (k : Nat) : t.sin k = s.sin k := by
  rw [State.sin, State.sin, h]

theorem State.sin_of_same {s t : State} (h : State.Same .sup s t) (k : Nat) : t.sin k = s.sin k :=
  State.sin_of_ins (congrArg Super.ins h) k

@[simp] theorem State.sin_setSin (s : State) (k : Nat) (x : SafeIn) : (s.setSin k x).sin k = x := look_put_self ..

theorem State.sin_setSin_ne (s : State) {j k : Nat} (x : SafeIn) (h : j ≠ k) : (s.setSin k x).sin j = s.sin j :=
  look_put_ne _ _ _ h

theorem State.sout_setSout_ne (s : State) {m n : Nat} (x : SafeOut) (h : m ≠ n) : (s.setSout n x).sout m = s.sout m :=
  look_put_ne _ _ _ h

/-! ## What a demand leaves of the supervisor's record (R343) -/

/-- The supervisor's record but for what a demand switches and times: outputs, drives, the door and fire marks, the
delays. -/
def State.watch (s : State) : Super :=
  { s.sup with outs := [], kdrv := [], stopDelayAt := none, openDelayAt := none, adisAt := none, door := false, fire := false }

theorem State.watch_of_same {s t : State} (h : State.Same .sup s t) : t.watch = s.watch := by
  rw [State.watch, State.watch, show t.sup = s.sup from h]

theorem State.ins_of_watch {s t : State} (h : t.watch = s.watch) : t.sup.ins = s.sup.ins :=
  (congrArg Super.ins h : t.watch.ins = s.watch.ins)

theorem State.sin_of_watch {s t : State} (h : t.watch = s.watch) (k : Nat) : t.sin k = s.sin k :=
  State.sin_of_ins (State.ins_of_watch h) k

theorem State.watch_setSout (s : State) (n : Nat) (x : SafeOut) : (s.setSout n x).watch = s.watch := rfl

theorem State.watch_setKdrv (s : State) (k : Nat) (x : Contactor) : (s.setKdrv k x).watch = s.watch := rfl

theorem State.watch_wr (s : State) (i j e : Nat) (v : Int) : (s.wr i j e v).watch = s.watch := rfl

theorem State.watch_ite {s t u : State} {c : Prop} [Decidable c] (hs : s.watch = u.watch) (ht : t.watch = u.watch) :
    (if c then s else t).watch = u.watch := by
  split
  · exact hs
  · exact ht

theorem State.watch_switchOff (s : State) (n : Nat) : (s.switchOff n).watch = s.watch :=
  (State.watch_of_same (State.stoOut_same (by decide) (.refl _ _))).trans (s.watch_setSout n _)

theorem State.watch_switchOn (s : State) (n : Nat) : (s.switchOn n).watch = s.watch :=
  (State.watch_of_same (State.freeOut_same (by decide) (.refl _ _))).trans (s.watch_setSout n _)

theorem State.watch_functionOff (s : State) (n : Nat) : (s.functionOff n).watch = s.watch := by
  unfold State.functionOff
  extract_lets y
  have hy : y.watch = s.watch := s.watch_switchOff n
  split
  · exact hy
  · rw [State.watch_wr, hy]

theorem State.watch_openKdrv (s : State) (k : Nat) : (s.openKdrv k).watch = s.watch :=
  State.watch_ite (s.watch_setKdrv k _) rfl

theorem State.watch_closeKdrv (s : State) (k : Nat) : (s.closeKdrv k).watch = s.watch :=
  State.watch_ite (s.watch_setKdrv k _) rfl

theorem State.watch_each {α : Type} (l : List α) {f : State → α → State} (hf : ∀ y x, (f y x).watch = y.watch) (s : State) :
    (each l f s).watch = s.watch :=
  each_keep State.watch l f hf s

theorem State.watch_openAll (s : State) : s.openAll.watch = s.watch := by
  rw [State.openAll, State.watch_wr, State.watch_wr, State.watch_each _ fun y k => y.watch_openKdrv k]

theorem State.watch_adisDue (s : State) : s.adisDue.watch = s.watch := rfl

theorem State.watch_raiseAll (s : State) (code arg corr : Nat) : (s.raiseAll code arg corr).watch = s.watch :=
  State.watch_of_same (State.raiseAll_same (by decide) (.refl _ s))

theorem State.watch_stopWith (s : State) (cause corr : Nat) : (s.stopWith cause corr).watch = s.watch :=
  State.watch_of_same (State.stopWith_same (by decide) (.refl _ s))

theorem State.watch_supFault (s : State) (code : Nat) : (s.supFault code).watch = s.watch :=
  State.watch_of_same (State.supFault_same (by decide) (.refl _ s))

theorem State.watch_emergencyStop (s : State) (corr : Nat) : (s.emergencyStop corr).watch = s.watch := by
  unfold State.emergencyStop
  extract_lets y src z w
  have hz : z.watch = y.watch := rfl
  have hw : w.watch = z.watch := State.watch_each _ (fun u n => by
    dsimp only
    split
    · have hss1 : (u.ss1Out n).watch = u.watch := State.watch_of_same (State.ss1Out_same (by decide) (.refl _ u))
      exact State.watch_ite ((State.watch_functionOff _ n).trans hss1) hss1
    · exact u.watch_functionOff n) z
  exact (((w.watch_stopWith 15 corr).trans hw).trans hz).trans (s.watch_raiseAll ..)

theorem State.watch_doorOpen (s : State) (corr : Nat) : (s.doorOpen corr).watch = s.watch := by
  unfold State.doorOpen
  extract_lets src y axes
  have hy : y.watch = s.watch := rfl
  exact (State.watch_each _ (fun u n => u.watch_functionOff n) y).trans hy

theorem State.watch_setFire (s : State) : (s.setSup { s.sup with fire := true, adisAt := none }).watch = s.watch := rfl

theorem State.watch_fireDemand (s : State) (corr : Nat) : (s.fireDemand corr).watch = s.watch := by
  unfold State.fireDemand
  extract_lets y outs z w
  have hz : z.watch = s.watch := (State.watch_each _ (fun u n => u.watch_functionOff n) y).trans (s.watch_raiseAll ..)
  have hlow : z.openAll.afeLow.watch = z.watch :=
    (State.watch_of_same (State.afeLow_same (by decide) (.refl _ _))).trans z.watch_openAll
  have hw : w.watch = z.openAll.afeLow.watch := State.watch_stopWith ..
  rw [State.watch_adisDue, State.watch_setFire, hw, hlow, hz]

/-- What shows a demand touches no record of the supervisor. -/
theorem State.watch_showActive (s : State) (corr : Nat) : (s.showActive.activeNote corr).watch = s.watch :=
  State.watch_of_same (State.activeNote_same (by decide) (State.showActive_same (by decide) (.refl _ s)))

theorem State.watch_demandFn (s : State) (code : Nat) : (s.demandFn code).watch = s.watch := by
  unfold State.demandFn
  extract_lets corr y
  have hy : y.watch = s.watch := State.watch_showActive ((s.openCorr 0).setHold 1) corr
  split
  · rw [State.watch_emergencyStop, hy]
  · rw [State.watch_doorOpen, hy]
  · rw [State.watch_fireDemand, hy]
  · exact hy

theorem State.watch_grantOutputs (s : State) : s.grantOutputs.watch = s.watch :=
  State.watch_each _ (fun y n => State.watch_ite (y.watch_switchOn n) rfl) s

theorem State.watch_contactorRequests (s : State) : s.contactorRequests.watch = s.watch :=
  State.watch_each _ (fun y k => State.watch_ite (y.watch_closeKdrv k) rfl) s

/-! ## A demand, and its end (R340, R343) -/

theorem State.demandFn_held (s : State) (code : Nat) {b : Nat} (hb : s.held b = true ∨ b = 1) (h0 : b ≠ 0) :
    (s.demandFn code).held b = true := by
  unfold State.demandFn
  extract_lets corr y
  have hy : y.held b = true := by
    rw [State.activeNote_held, State.showActive_held _ h0]
    obtain hb | rfl := hb
    · exact State.held_setHold (s := s.openCorr 0) hb 1
    · exact State.held_setHold_self _ 1
  split
  · rwa [State.held_of_same (State.emergencyStop_same (by decide) (.refl _ y)) b]
  · rwa [State.held_of_same (State.doorOpen_same (by decide) (.refl _ y)) b]
  · rwa [State.held_of_same (State.fireDemand_same (by decide) (.refl _ y)) b]
  · exact hy

/-- An input that takes up a demand: of the inputs' records, its mark alone is set. -/
theorem State.demandInput_sin (s : State) (k j : Nat) :
    (s.demandInput k).sin j = (s.setSin k { s.sin k with demand := true }).sin j := by
  unfold State.demandInput
  extract_lets code new src y
  split
  · exact State.sin_of_watch (y.watch_demandFn code) j
  · rfl

theorem State.demandInput_demand (s : State) (k : Nat) : ((s.demandInput k).sin k).demand = true := by
  rw [State.demandInput_sin, State.sin_setSin]

theorem State.demandInput_faulted (s : State) (k j : Nat) :
    ((s.demandInput k).sin j).faulted = (s.sin j).faulted := by
  rw [State.demandInput_sin]
  by_cases hjk : j = k
  · rw [hjk, State.sin_setSin]
  · rw [State.sin_setSin_ne _ _ hjk]

theorem State.demandInput_held {s : State} {b : Nat} (h : s.held b = true) (h0 : b ≠ 0) (k : Nat) :
    (s.demandInput k).held b = true := by
  unfold State.demandInput
  extract_lets code new src y
  split
  · exact y.demandFn_held code (.inl h) h0
  · exact h

/-- An input that drops its demand: of the inputs' records, its mark alone is cleared. -/
theorem State.dropInput_sin (s : State) (k j : Nat) :
    (s.dropInput k).sin j = (s.setSin k { s.sin k with demand := false }).sin j := by
  unfold State.dropInput
  extract_lets code src y corr
  split
  · exact State.sin_of_watch ((y.openCorr 0).watch_showActive corr) j
  · rfl

/-- The state in which a faulted input takes up its demand: its mark, hold reason [5] and the fault code are set. -/
def State.markFault (s : State) (k code : Nat) : State :=
  (((s.setSin k { s.sin k with faulted := true, recovered := false, passes := 0, validSince := none }).wr 0x4005
    (k + 1) dev 3).setHold 5).supFault code

theorem State.markFault_sin (s : State) (k code j : Nat) : (s.markFault k code).sin j =
    (s.setSin k { s.sin k with faulted := true, recovered := false, passes := 0, validSince := none }).sin j :=
  State.sin_of_same (State.supFault_same (by decide) (State.setHold_same (by decide) (State.wr_same (by decide)
    (.refl _ _)))) j

/-- An input that is not faulted, or has recovered, is marked and takes up its demand (R338, R342). -/
theorem State.faultInput_cases (s : State) (k code : Nat) :
    ((s.sin k).faulted = true ∧ s.faultInput k code = s) ∨ s.faultInput k code = (s.markFault k code).demandInput k := by
  unfold State.faultInput
  split
  case isTrue h => exact .inl ⟨h.1, rfl⟩
  case isFalse => exact .inr rfl

/-- An input that is not faulted is marked so, demands, and shows it (R338). -/
theorem State.faultInput_effect {s : State} {k : Nat} (h : (s.sin k).faulted = false) (code : Nat) :
    ((s.faultInput k code).sin k).faulted = true ∧ ((s.faultInput k code).sin k).demand = true ∧
      (s.faultInput k code).rd 0x4005 (k + 1) dev = 3 ∧ (s.faultInput k code).held 5 = true := by
  obtain ⟨hfaulted, _⟩ | heq := s.faultInput_cases k code
  · exact absurd (h.symm.trans hfaulted) Bool.false_ne_true
  rw [heq]
  refine ⟨?_, State.demandInput_demand .., ?_, ?_⟩
  · rw [State.demandInput_faulted, State.markFault_sin, State.sin_setSin]
  · rw [State.demandInput_same (k := .reg 0x4005) (by decide) (.refl _ _), State.markFault,
      State.supFault_same (k := .reg 0x4005) (by decide) (State.setHold_same (by decide) (.refl _ _)), State.rd_wr_self]
  · refine State.demandInput_held ?_ (by decide) k
    rw [State.markFault, State.supFault_held, State.held_setHold_self]

/-- After a fault the input is marked, and no other input has lost its mark. -/
theorem State.faultInput_marks (s : State) (k code j : Nat) (h : j = k ∨ (s.sin j).faulted = true) :
    ((s.faultInput k code).sin j).faulted = true := by
  obtain ⟨hfaulted, heq⟩ | heq := s.faultInput_cases k code
  · rw [heq]
    exact h.elim (fun hj => hj ▸ hfaulted) id
  · rw [heq, State.demandInput_faulted, State.markFault_sin]
    by_cases hjk : j = k
    · rw [hjk, State.sin_setSin]
    · rw [State.sin_setSin_ne _ _ hjk]
      exact h.resolve_left hjk

/-! ## The supervisor's cycle (R336) -/

/-- The count and the time of the supervisor's cycles. -/
def State.cycleMark (s : State) : Nat × Option Nat := (s.sup.cycles, s.sup.cycleAt)

theorem State.cycles_of_cycleMark {s t : State} (h : t.cycleMark = s.cycleMark) :
    t.sup.cycles = s.sup.cycles ∧ t.sup.cycleAt = s.sup.cycleAt :=
  ⟨congrArg Prod.fst h, congrArg Prod.snd h⟩

theorem State.cycleMark_of_watch {s t : State} (h : t.watch = s.watch) : t.cycleMark = s.cycleMark :=
  (congrArg (fun x => (x.cycles, x.cycleAt)) h : (t.watch.cycles, t.watch.cycleAt) = (s.watch.cycles, s.watch.cycleAt))

theorem State.cycleMark_ite {s t u : State} {c : Prop} [Decidable c] (hs : s.cycleMark = u.cycleMark)
    (ht : t.cycleMark = u.cycleMark) : (if c then s else t).cycleMark = u.cycleMark := by
  split
  · exact hs
  · exact ht

theorem State.cycleMark_setSin (s : State) (k : Nat) (x : SafeIn) : (s.setSin k x).cycleMark = s.cycleMark := rfl

theorem State.cycleMark_demandInput (s : State) (k : Nat) : (s.demandInput k).cycleMark = s.cycleMark := by
  unfold State.demandInput
  extract_lets code new src y
  have hy : y.cycleMark = s.cycleMark := s.cycleMark_setSin k _
  split
  · rw [State.cycleMark_of_watch (y.watch_demandFn code), hy]
  · exact hy

theorem State.cycleMark_faultInput (s : State) (k code : Nat) : (s.faultInput k code).cycleMark = s.cycleMark := by
  obtain ⟨_, heq⟩ | heq := s.faultInput_cases k code
  · rw [heq]
  · have hmark : (s.markFault k code).cycleMark = s.cycleMark :=
      (State.cycleMark_of_watch (State.watch_supFault _ code)).trans (s.cycleMark_setSin k _)
    rw [heq, State.cycleMark_demandInput, hmark]

theorem State.cycleMark_ownPulse (s : State) (k : Nat) : (s.ownPulse k).cycleMark = s.cycleMark := by
  unfold State.ownPulse
  extract_lets x
  split
  · refine State.cycleMark_ite rfl (State.cycleMark_ite (s.cycleMark_setSin k _) ?_)
    rw [State.cycleMark_faultInput, State.cycleMark_setSin]
  · rfl

theorem State.cycleMark_sampleInput (s : State) (k : Nat) (mv : Int) : (s.sampleInput k mv).cycleMark = s.cycleMark := by
  unfold State.sampleInput
  extract_lets l x used own other low y z w
  have hw : w.cycleMark = s.cycleMark := (State.cycleMark_ownPulse z k).trans (s.cycleMark_setSin k _)
  exact State.cycleMark_ite ((w.cycleMark_faultInput k 0x23).trans hw) hw

theorem State.cycleMark_sampleOutput (s : State) (n : Nat) (mv : Int) : (s.sampleOutput n mv).cycleMark = s.cycleMark := by
  unfold State.sampleOutput
  extract_lets x wrong back y
  have hload : (y.overload n).watch = y.watch := by
    rw [State.overload, State.watch_supFault, State.watch_switchOff, State.watch_setSout]
  have hy : y.watch = s.watch := s.watch_setSout n _
  exact State.cycleMark_of_watch (State.watch_ite (hload.trans hy) hy)

theorem State.cycleMark_sampleContactor (s : State) (k : Nat) (kfb drv : Int) :
    (s.sampleContactor k kfb drv).cycleMark = s.cycleMark := by
  unfold State.sampleContactor
  extract_lets x isOpen closed fits drvOk inTime settles y z
  have hz : z.watch = s.watch := s.watch_setKdrv k y
  split
  · rfl
  · split
    · rw [State.cycleMark_of_watch (z.watch_wr ..), State.cycleMark_of_watch hz]
    · exact State.cycleMark_of_watch hz

theorem State.cycleMark_sampleInputs (s : State) (l : List Int) : (s.sampleInputs l).cycleMark = s.cycleMark :=
  each_keep State.cycleMark _ _ (fun q k => q.cycleMark_sampleInput k _) s

theorem State.cycleMark_watchPairs (s : State) : s.watchPairs.cycleMark = s.cycleMark := rfl

/-- The cycle of the running supervisor, from the state that counts it. -/
def State.cycled (s : State) (x : SupSample) : State :=
  let s := (s.sampleInputs x.sin).watchPairs
  let s := each [0, 1, 2, 3] (fun s n => s.sampleOutput n (x.sout.getD n 0)) s
  let s := each [0, 1, 2, 3] (fun s k => s.sampleContactor k (x.kfb.getD k 0) (x.kdrv.getD k 0)) s
  let s := if s.sup.fire then s.adisDue else s
  s.grantOutputs.contactorRequests

theorem State.cycleMark_cycled (s : State) (x : SupSample) : (s.cycled x).cycleMark = s.cycleMark := by
  unfold State.cycled
  extract_lets z w v u
  have hz : z.cycleMark = s.cycleMark := (State.cycleMark_watchPairs _).trans (s.cycleMark_sampleInputs _)
  have hw : w.cycleMark = z.cycleMark := each_keep State.cycleMark _ _ (fun q n => q.cycleMark_sampleOutput n _) z
  have hv : v.cycleMark = w.cycleMark := each_keep State.cycleMark _ _ (fun q k => q.cycleMark_sampleContactor k _ _) w
  have hu : u.watch = v.watch := State.watch_ite v.watch_adisDue rfl
  rw [State.cycleMark_of_watch (u.grantOutputs.watch_contactorRequests.trans u.watch_grantOutputs),
    State.cycleMark_of_watch hu, hv, hw, hz]

/-- A cycle of the running supervisor is counted and timed before its samples are taken. -/
def State.countCycle (s : State) : State := s.setSup { s.sup with cycles := s.sup.cycles + 1, cycleAt := some s.lt }

theorem execSupervisorCycle_of_ready {x : SupSample} {s : State}
    (hready : ¬ ((!s.vsys) = true ∨ (!s.sup.cycleAt.all fun t => decide (t + 100000 ≤ s.lt)) = true))
    (hruns : s.supRuns = true) : execSupervisorCycle x s = .next (s.countCycle.cycled x) := by
  unfold execSupervisorCycle State.cycled State.countCycle
  rw [if_neg hready, if_neg (by rw [hruns]; decide)]

/-- A cycle of the running supervisor is counted, and its time kept, whatever its samples bring about. -/
theorem supervisorCycle_gives {s : State} (x : SupSample) (hsys : s.vsys = true) (hruns : s.supRuns = true)
    (hdue : ∀ a, s.sup.cycleAt = some a → a + 100000 ≤ s.lt) :
    Gives (.supervisorCycle x) s fun t => t.sup.cycles = s.sup.cycles + 1 ∧ t.sup.cycleAt = some s.lt := by
  have hready : ¬ ((!s.vsys) = true ∨ (!s.sup.cycleAt.all fun t => decide (t + 100000 ≤ s.lt)) = true) := by
    simpa [hsys, Option.all_eq_true] using hdue
  have hexec : exec (.supervisorCycle x) s = execSupervisorCycle x s := rfl
  exact ⟨_, hexec.trans (execSupervisorCycle_of_ready hready hruns),
    State.cycles_of_cycleMark (s.countCycle.cycleMark_cycled x)⟩

/-! ## Safety inputs (R338 to R342) -/

theorem inputDemand_gives {s : State} {k : Nat} (hruns : s.supRuns = true) (hk : k < 8) (hlow : 1 ≤ s.inFn k)
    (hhigh : s.inFn k ≤ 3) (hsamples : 2 ≤ (s.sin k).low) (hfree : (s.sin k).demand = false) :
    Gives (.inputDemand k) s fun t =>
      (t.sin k).demand = true ∧ (s.inputDemands (s.inFn k) = false → t.held 1 = true) := by
  refine .of_guard rfl ⟨hruns, hk, hlow, hhigh, hsamples, by rw [hfree]; rfl⟩ ⟨s.demandInput_demand k, fun hnew => ?_⟩
  unfold State.demandInput
  extract_lets code new src y
  rw [if_pos ⟨hlow, hhigh, by rw [show new = true from congrArg not hnew]⟩]
  exact y.demandFn_held code (.inr rfl) (by decide)

theorem inputDemandEnd_gives {s : State} {k : Nat} (hruns : s.supRuns = true) (hk : k < 8) (hhigh : 2 ≤ (s.sin k).high)
    (hdemand : (s.sin k).demand = true) (hsound : (s.sin k).recovered = true ∨ (s.sin k).faulted = false) :
    Gives (.inputDemandEnd k) s fun t => (t.sin k).demand = false := by
  refine .of_guard rfl ⟨hruns, hk, hhigh, hdemand, hsound.imp_right fun h => by rw [h]; rfl⟩ ?_
  rw [State.dropInput_sin, State.sin_setSin]

theorem inputFault_gives {s : State} {k : Nat} (hruns : s.supRuns = true) (hk : k < 8) (hfn : s.inFn k ≠ 0)
    (hinvalid : 3 ≤ (s.sin k).invalid) (hsound : (s.sin k).faulted = false) :
    Gives (.inputFault k) s fun t => (t.sin k).faulted = true ∧ (t.sin k).demand = true ∧
      t.rd 0x4005 (k + 1) dev = 3 ∧ t.held 5 = true :=
  .of_guard rfl ⟨hruns, hk, hfn, hinvalid⟩ (State.faultInput_effect hsound 0x21)

/-- A pulse masks one input's samples. -/
def State.maskInput (s : State) (p : Nat) (k : Nat) : State :=
  if s.inSrc k = p + 1 then s.setSin k { s.sin k with maskUntil := s.lt + (s.rdN 0x4004 1 dev + 100) * 1000 } else s

theorem State.maskInput_same {p : Part} (s : State) (stp k : Nat) (hp : p ∉ [.sup]) :
    State.Same p s (s.maskInput stp k) := by
  unfold State.maskInput
  split
  · exact State.setSin_same hp (.refl p s)
  · exact .refl p s

/-- Every input of the source is masked until 100 µs after its pulse (R340). -/
theorem each_maskInput_masks (s : State) (p : Nat) : ∀ k ∈ List.range 8, s.inSrc k = p + 1 →
    ((each (List.range 8) (fun s k => s.maskInput p k) s).sin k).maskUntil =
      s.lt + (s.rdN 0x4004 1 dev + 100) * 1000 := by
  refine each_nodup_reaches (q := fun _ y => Frame [.sup] s y)
    (p := fun k y => s.inSrc k = p + 1 → (y.sin k).maskUntil = s.lt + (s.rdN 0x4004 1 dev + 100) * 1000)
    List.nodup_range (fun _ _ => Frame.refl _ s) (fun x _ y hy hx => ?_)
    (fun _ _ y x _ hy => hy.trans fun q hq => y.maskInput_same p x hq) (fun z _ y x hzx hz hzsrc => ?_)
  · have hsource : y.inSrc x = s.inSrc x := congrArg Int.toNat (hy (.reg 0x4002) (by decide) _ _)
    have hwidth : y.rdN 0x4004 1 dev = s.rdN 0x4004 1 dev := congrArg Int.toNat (hy (.reg 0x4004) (by decide) _ _)
    have hlt : y.lt = s.lt := congrArg Clock.lt (hy .clock (by decide))
    rw [State.maskInput, if_pos (hsource.trans hx), State.sin_setSin, hlt, hwidth]
  · unfold State.maskInput
    split
    · rw [State.sin_setSin_ne _ _ hzx, hz hzsrc]
    · exact hz hzsrc

/-- Masking leaves the record of the pulses. -/
theorem each_maskInput_pulses (s : State) (p : Nat) :
    (each (List.range 8) (fun s k => s.maskInput p k) s).sup.lastPulse = s.sup.lastPulse :=
  each_keep (fun y => y.sup.lastPulse) _ _ (fun y k => by
    unfold State.maskInput
    split
    · rfl
    · rfl) s

theorem execTestPulse_eq (p : Nat) (s : State) : exec (.testPulse p) s =
    .next (if s.supRuns ∧ p < 2 ∧ s.pulseDue p then
      each (List.range 8) (fun s k => s.maskInput p k)
        (s.setSup { s.sup with lastPulse := s.sup.lastPulse.set p (some s.lt) }) else s) := rfl

theorem testPulse_gives {s : State} {p : Nat} (hruns : s.supRuns = true) (hp : p < 2) (hdue : s.pulseDue p = true) :
    Gives (.testPulse p) s fun t => t.sup.lastPulse = s.sup.lastPulse.set p (some s.lt) ∧
      ∀ k, k < 8 → s.inSrc k = p + 1 → (t.sin k).maskUntil = s.lt + (s.rdN 0x4004 1 dev + 100) * 1000 :=
  .of_guard (execTestPulse_eq p s) ⟨hruns, hp, hdue⟩ ⟨each_maskInput_pulses _ p, fun k hk hsrc =>
    each_maskInput_masks (s.setSup { s.sup with lastPulse := s.sup.lastPulse.set p (some s.lt) }) p k
      (List.mem_range.2 hk) hsrc⟩

theorem discrepancyFault_gives {s : State} {code : Nat} (hruns : s.supRuns = true) (hlow : 1 ≤ code) (hhigh : code ≤ 3)
    (hheld : heldFor (s.sup.disagree.getD (code - 1) none) (s.rdN 0x4003 1 dev * 1000000) s.lt = true) :
    Gives (.discrepancyFault code) s fun t => ∀ k ∈ s.pairOf code, (t.sin k).faulted = true := by
  refine .of_guard rfl ⟨hruns, hlow, hhigh, hheld⟩ fun k hk => ?_
  exact each_reaches (inv := fun _ => True) (p := fun k y => (y.sin k).faulted = true) (fun _ _ _ => trivial)
    (fun y x _ => y.faultInput_marks x 0x24 x (.inl rfl)) (fun y x z hz => y.faultInput_marks x 0x24 z (.inr hz)) trivial
    (.inl hk)

theorem inputRecovery_gives {s : State} {k : Nat} (hruns : s.supRuns = true) (hk : k < 8)
    (hrecovers : s.inputRecovers k = true) :
    Gives (.inputRecovery k) s fun t => (t.sin k).recovered = true ∧ (2 ≤ (s.sin k).high → (t.sin k).demand = false) := by
  refine .of_guard rfl ⟨hruns, hk, hrecovers⟩ ?_
  extract_lets src y
  have hy : y.sin k = { s.sin k with recovered := true } := s.sin_setSin k _
  split
  case isTrue =>
    rw [State.dropInput_sin, State.sin_setSin, hy]
    exact ⟨rfl, fun _ => rfl⟩
  case isFalse hlow =>
    rw [hy] at hlow ⊢
    exact ⟨rfl, fun h => absurd h hlow⟩

/-! ## Delays (R343, R344, R347) -/

theorem due_of_le {t : Option Nat} {x lt : Nat} (ht : t = some x) (hx : x ≤ lt) : due t lt = true := by
  simp [due, ht, hx]

theorem safetyStopDelay_gives {s : State} {x : Nat} (hstop : s.sup.stopDelayAt = some x) (hx : x ≤ s.lt) :
    Gives .safetyStopDelay s fun t => t.sup.stopDelayAt = none :=
  .of_guard rfl (due_of_le hstop hx) rfl

/-- After the drives of a list, each drive of the list is open. -/
theorem each_openKdrv_opens {l : List Nat} {s : State} {k : Nat} (hk : k ∈ l) :
    ((each l (fun s k => s.openKdrv k) s).kdrv k).close = false :=
  each_reaches (inv := fun _ => True) (p := fun k y => (y.kdrv k).close = false) (fun _ _ _ => trivial)
    (fun y x _ => y.openKdrv_opens x) (fun y x z hz => by
      by_cases hzx : z = x
      · rw [hzx]
        exact y.openKdrv_opens x
      · rwa [y.openKdrv_ne hzx]) trivial (.inl hk)

theorem State.openAll_effect (s : State) : s.openAll.rd 0x4023 1 dev = 0 ∧ s.openAll.rd 0x4023 2 dev = 0 ∧
    ∀ k ∈ [0, 1, 2, 3], (s.openAll.kdrv k).close = false := by
  unfold State.openAll
  refine ⟨?_, ?_, fun k hk => ?_⟩
  · rw [State.rd_wr_ne _ _ (by simp), State.rd_wr_self]
  · rw [State.rd_wr_self]
  · rw [State.kdrv_wr, State.kdrv_wr, each_openKdrv_opens hk]

theorem contactorOpenDelay_gives {s : State} {x : Nat} (hopen : s.sup.openDelayAt = some x) (hx : x ≤ s.lt) :
    Gives .contactorOpenDelay s fun t => t.sup.openDelayAt = none ∧ t.power.afeOn = false ∧ t.rd 0x4023 1 dev = 0 ∧
      t.rd 0x4023 2 dev = 0 ∧ ∀ k ∈ [0, 1, 2, 3], (t.kdrv k).close = false := by
  obtain ⟨hreq1, hreq2, hdrives⟩ := s.openAll_effect
  have hlow {k : Part} (hk : k ∉ [.units, .power]) : State.Same k s.openAll s.openAll.afeLow :=
    State.afeLow_same hk (.refl k _)
  have hafe : s.openAll.afeLow.power.afeOn = false := by rw [State.afeLow_power]
  have hend (y : State) (h : y.power.afeOn = false ∧ y.rd 0x4023 1 dev = 0 ∧ y.rd 0x4023 2 dev = 0 ∧
      ∀ k ∈ [0, 1, 2, 3], (y.kdrv k).close = false) : (y.setSup { y.sup with openDelayAt := none }).power.afeOn = false ∧
      (y.setSup { y.sup with openDelayAt := none }).rd 0x4023 1 dev = 0 ∧
      (y.setSup { y.sup with openDelayAt := none }).rd 0x4023 2 dev = 0 ∧
      ∀ k ∈ [0, 1, 2, 3], ((y.setSup { y.sup with openDelayAt := none }).kdrv k).close = false := h
  refine .of_guard rfl (due_of_le hopen hx) ⟨rfl, hend _ ⟨hafe, ?_, ?_, fun k hk => ?_⟩⟩
  · exact (hlow (k := .reg 0x4023) (by decide) 1 dev).trans hreq1
  · exact (hlow (k := .reg 0x4023) (by decide) 2 dev).trans hreq2
  · rw [State.kdrv_of_same (hlow (k := .sup) (by decide)), hdrives k hk]

theorem adisDelay_gives {s : State} {x : Nat} (hat : s.sup.adisAt = some x) (hx : x ≤ s.lt)
    (hopen0 : s.kfbClosed 0 = false) (hopen1 : s.kfbClosed 1 = false) :
    Gives .adisDelay s fun t => t.power.adis = true ∧ t.sup.adisAt = none ∧ t.sup.fire = false :=
  .of_guard rfl ⟨due_of_le hat hx, by rw [hopen0]; rfl, by rw [hopen1]; rfl⟩ ⟨s.adisOn_adis, rfl, rfl⟩

/-- Settles O42: each command's guard holds, so its effect is read off its operation; what a demand switches leaves the
inputs' records and the hold reasons, and the frame is that of the command. -/
theorem supervisorInputs : Obligations.SupervisorInputs := by
  refine ⟨?cycle, ?demand, ?demandEnd, ?stopDelay, ?openDelay, ?adis, ?fault, ?pulse, ?discrepancy, ?recovery⟩
  case cycle =>
    intro x s hsys hruns hdue
    exact (supervisorCycle_gives x hsys hruns hdue).framed fun k hk => execSupervisorCycle_same hk (.refl k s)
  case demand =>
    intro k s hruns hk hlow hhigh hsamples hfree
    exact (inputDemand_gives hruns hk hlow hhigh hsamples hfree).framed fun k hk => execInputDemand_same hk (.refl k s)
  case demandEnd =>
    intro k s hruns hk hhigh hdemand hsound
    exact (inputDemandEnd_gives hruns hk hhigh hdemand hsound).framed fun k hk =>
      execInputDemandEnd_same hk (.refl k s)
  case stopDelay =>
    intro x s hstop hx
    exact (safetyStopDelay_gives hstop hx).framed fun k hk => execSafetyStopDelay_same hk (.refl k s)
  case openDelay =>
    intro x s hopen hx
    exact (contactorOpenDelay_gives hopen hx).framed fun k hk => execContactorOpenDelay_same hk (.refl k s)
  case adis =>
    intro x s hat hx hopen0 hopen1
    exact (adisDelay_gives hat hx hopen0 hopen1).framed fun k hk => execAdisDelay_same hk (.refl k s)
  case fault =>
    intro k s hruns hk hfn hinvalid hsound
    exact (inputFault_gives hruns hk hfn hinvalid hsound).framed fun k hk => execInputFault_same hk (.refl k s)
  case pulse =>
    intro p s hruns hp hdue
    exact (testPulse_gives hruns hp hdue).framed fun k hk => execTestPulse_same hk (.refl k s)
  case discrepancy =>
    intro code s hruns hlow hhigh hheld
    exact (discrepancyFault_gives hruns hlow hhigh hheld).framed fun k hk => execDiscrepancyFault_same hk (.refl k s)
  case recovery =>
    intro k s hruns hk hrecovers
    exact (inputRecovery_gives hruns hk hrecovers).framed fun k hk => execInputRecovery_same hk (.refl k s)

end Sys2Proof.Machine
end

section
/-! The statement on the faults of the supervisor itself, which take the safe state. -/

namespace Sys2Proof.Machine

/-! ## Outputs that switch off (R357) -/

theorem State.sout_of_outs {s t : State} (h : t.sup.outs = s.sup.outs) (n : Nat) : t.sout n = s.sout n := by
  rw [State.sout, State.sout, h]

/-- An output that switches off is off, loses its count and its SS1 time, and keeps the rest of its record. -/
theorem State.switchOff_sout (s : State) (n : Nat) :
    (s.switchOff n).sout n = { s.sout n with on := false, bad := 0, ss1At := none } :=
  (State.sout_of_same (State.stoOut_same (by decide) (.refl _ _)) n).trans (s.sout_setSout n _)

theorem State.switchOff_sout_ne (s : State) {m n : Nat} (h : m ≠ n) : (s.switchOff n).sout m = s.sout m :=
  (State.sout_of_same (State.stoOut_same (by decide) (.refl _ _)) m).trans (s.sout_setSout_ne _ h)

/-- After the outputs of a list, each output of the list is off. -/
theorem each_switchOff_off {l : List Nat} {s : State} {n : Nat} (hn : n ∈ l) :
    ((each l (fun s n => s.switchOff n) s).sout n).on = false :=
  each_reaches (inv := fun _ => True) (p := fun n y => (y.sout n).on = false) (fun _ _ _ => trivial)
    (fun y x _ => by rw [y.switchOff_sout]) (fun y x z hz => by
      by_cases hzx : z = x
      · rw [hzx, y.switchOff_sout]
      · rwa [y.switchOff_sout_ne hzx]) trivial (.inl hn)

theorem State.openKdrv_outs (s : State) (k : Nat) : (s.openKdrv k).sup.outs = s.sup.outs := by
  unfold State.openKdrv
  extract_lets x
  split
  · rfl
  · rfl

theorem State.rd_of_same {s t : State} {i : Nat} (h : State.Same (.reg i) s t) (j e : Nat) : t.rd i j e = s.rd i j e :=
  h j e

/-! ## The safe state (R353, R362, R365) -/

/-- The safe state is entered with its code: the state, hold reason [6] and the fault are shown. -/
def State.showSafe (s : State) (code : Nat) : State := ((s.wr 0x4000 1 dev 2).setHold 6).supFault code

theorem State.showSafe_shows (s : State) (code : Nat) : (s.showSafe code).rd 0x4000 1 dev = 2 ∧
    (s.showSafe code).rd 0x4000 5 dev = code ∧ (s.showSafe code).held 6 = true := by
  refine ⟨?_, State.supFault_shows .., ?_⟩
  · rw [State.showSafe, State.supFault, State.note_same (k := .reg 0x4000) (by decide) (.refl _ _) 1 dev,
      State.rd_wr_ne _ _ (by simp), State.rd_wr_ne _ _ (by simp), State.setHold, State.rd_wr_ne _ _ (by simp),
      State.rd_wr_self]
  · rw [State.showSafe, State.supFault_held, State.held_setHold_self]

/-- The "safety stop" to every die. -/
def State.sendStop (s : State) : State := (s.openCorr 0).raiseAll 0x03 127 (s.corrId 0)

/-- Outputs, contactors, AFE, chopper and drives off. -/
def State.shutDown (s : State) : State :=
  each [0, 1, 2, 3] (fun s a => (s.stoDrive a).stoAxis a)
    (each [0, 1, 2, 3] (fun s k => s.openKdrv k) (each [0, 1, 2, 3] (fun s n => s.switchOff n) s)).afeLow.chopOff

theorem State.shutDown_reg (s : State) : State.Same (.reg 0x4000) s s.shutDown := by
  unfold State.shutDown
  have hoff := each_same (k := .reg 0x4000) (l := [0, 1, 2, 3]) (f := fun s n => s.switchOff n) (.refl _ s) fun _ _ hy =>
    State.switchOff_same (by decide) hy
  have hopened := each_same (l := [0, 1, 2, 3]) (f := fun s k => s.openKdrv k) hoff fun _ _ hy =>
    State.openKdrv_same (by decide) hy
  exact each_same (State.chopOff_same (by decide) (State.afeLow_same (by decide) hopened)) fun _ _ hy =>
    State.stoAxis_same (by decide) (State.stoDrive_same (by decide) hy)

/-- What switches the drives off keeps the supervisor and the AFE. -/
theorem each_sto_same {k : Part} (hk : k ∉ [.reg 0x341A, .reg 0x344E, .reg 0x344F, .reg 0x3450, .units, .bldc, .axes])
    (s : State) : State.Same k s (each [0, 1, 2, 3] (fun s a => (s.stoDrive a).stoAxis a) s) :=
  each_same (.refl k s) fun _ _ hy => State.stoAxis_same (notMem_of hk (by decide))
    (State.stoDrive_same (notMem_of hk (by decide)) hy)

theorem State.shutDown_sup (s : State) : State.Same .sup
    (each [0, 1, 2, 3] (fun s k => s.openKdrv k) (each [0, 1, 2, 3] (fun s n => s.switchOff n) s)) s.shutDown :=
  State.Same.trans (State.chopOff_same (by decide) (State.afeLow_same (by decide) (.refl _ _)))
    (each_sto_same (by decide) _)

theorem State.shutDown_out (s : State) {n : Nat} (hn : n ∈ [0, 1, 2, 3]) : (s.shutDown.sout n).on = false := by
  have houts := each_keep (fun y => y.sup.outs) [0, 1, 2, 3] _ (fun y x => y.openKdrv_outs x)
    (each [0, 1, 2, 3] (fun s n => s.switchOff n) s)
  rw [State.sout_of_same s.shutDown_sup, State.sout_of_outs houts, each_switchOff_off hn]

theorem State.shutDown_kdrv (s : State) {k : Nat} (hk : k ∈ [0, 1, 2, 3]) : (s.shutDown.kdrv k).close = false := by
  rw [State.kdrv_of_same s.shutDown_sup, each_openKdrv_opens hk]

theorem State.shutDown_afe (s : State) : s.shutDown.power.afeOn = false := by
  rw [State.shutDown, each_sto_same (k := .power) (by decide), State.chopOff_power, State.afeLow_power]

/-- The wait for ADIS after a fire or in the safe state. -/
def State.waitAdis (s : State) : State := (s.setSup { s.sup with fire := true, adisAt := none }).adisDue

/-- The wait for ADIS keeps the safe state. -/
theorem State.waitAdis_safe {s : State} {code : Nat} (hstate : s.rd 0x4000 1 dev = 2) (hfault : s.rd 0x4000 5 dev = code)
    (hhold : s.held 6 = true) (houts : ∀ n ∈ [0, 1, 2, 3], (s.sout n).on = false)
    (hdrives : ∀ k ∈ [0, 1, 2, 3], (s.kdrv k).close = false) (hafe : s.power.afeOn = false) :
    s.waitAdis.InSafeState code ∧ s.waitAdis.power.afeOn = false :=
  ⟨⟨hstate, hfault, hhold, houts, hdrives⟩, hafe⟩

theorem State.safeState_eq {s : State} (h : s.rd 0x4000 1 dev ≠ 2) (code : Nat) :
    s.safeState code = (s.showSafe code).sendStop.shutDown.waitAdis := by
  unfold State.safeState State.waitAdis State.shutDown State.sendStop State.showSafe
  rw [if_neg h]

/-- In the safe state every output is off, every contactor open and the AFE off, as the state shows. -/
theorem State.safeState_effect {s : State} (h : s.rd 0x4000 1 dev ≠ 2) (code : Nat) :
    (s.safeState code).InSafeState code ∧ (s.safeState code).power.afeOn = false := by
  rw [State.safeState_eq h]
  have hsent : State.Same (.reg 0x4000) (s.showSafe code) (s.showSafe code).sendStop :=
    State.raiseAll_same (by decide) (State.openCorr_same (by decide) (.refl _ _))
  have hreg := hsent.trans (s.showSafe code).sendStop.shutDown_reg
  obtain ⟨hstate, hfault, hhold⟩ := s.showSafe_shows code
  have h1 := (State.rd_of_same hreg 1 dev).trans hstate
  have h5 := (State.rd_of_same hreg 5 dev).trans hfault
  have h6 := (State.held_of_same hreg 6).trans hhold
  exact State.waitAdis_safe h1 h5 h6 (fun n hn => State.shutDown_out _ hn)
    (fun k hk => State.shutDown_kdrv _ hk) (State.shutDown_afe _)

/-- Settles O45: each fault of the supervisor takes the safe state, and the frame is that of the command. -/
theorem safeState : Obligations.SafeState := by
  refine ⟨?lockstep, ?clock, ?watchdog, ?memory, ?supply⟩
  case lockstep =>
    intro s h
    exact Gives.framed ⟨_, rfl, State.safeState_effect h 0x11⟩ fun k hk => execLockstepFault_same hk (.refl k s)
  case clock =>
    intro dv s h hdv
    exact (Gives.of_guard rfl hdv (State.safeState_effect h 0x12)).framed fun k hk =>
      execSupervisorClockFault_same hk (.refl k s)
  case watchdog =>
    intro s h
    exact Gives.framed ⟨_, rfl, State.safeState_effect h 0x13⟩ fun k hk => execSupervisorWatchdog_same hk (.refl k s)
  case memory =>
    intro s h
    exact Gives.framed ⟨_, rfl, State.safeState_effect h 0x14⟩ fun k hk => execMemoryFault_same hk (.refl k s)
  case supply =>
    intro s h
    exact Gives.framed ⟨_, rfl, State.safeState_effect h 0x15⟩ fun k hk => execHSafeSupplyFault_same hk (.refl k s)

end Sys2Proof.Machine
end

section
/-! The statement on the safety reset, the safe outputs and the contactors. -/

namespace Sys2Proof.Machine

/-! ## The safety reset (R354) -/

theorem State.tryReset_of_blocked {s : State} (h : bit (s.rdN 0x4000 2 dev) 0 = true ∨ s.sup.appMissing = true) :
    s.tryReset = s.note 0x4003 (leInt 2 (s.rd 0x4000 2 dev)) := by
  rw [State.tryReset, if_pos h]

section
variable {s : State} {k x : Nat} (hhigh : (s.sin k).highSince = some x) (hruns : s.supRuns = true) (hk : k < 8)
  (hfn : s.inFn k = 4) (hsound : (s.sin k).recovered = true ∨ (s.sin k).faulted = false)
  (hlow : (s.sin k).level = 0) (hearly : x + 100000000 ≤ s.lt) (hlate : s.lt ≤ x + 2000000000)
include hhigh hruns hk hfn hsound hlow hearly hlate

/-- A pulse of the right length attempts a reset. -/
theorem safetyReset_tries {p : State → Prop} (hp : p (s.setSin k { s.sin k with highSince := none }).tryReset) :
    Gives (.safetyReset k) s p := by
  refine ⟨_, ?_, hp⟩
  change execSafetyReset k s = _
  unfold execSafetyReset
  extract_lets y
  rw [show y.highSince = some x from hhigh]
  have hsound' : y.recovered = true ∨ (!y.faulted) = true := hsound.imp_right fun h => by rw [show y.faulted = false from h]; rfl
  exact congrArg _ (if_pos ⟨hruns, hk, hfn, hsound', hlow, hearly, hlate⟩)

/-- A reset that a demand or the missing heartbeat stands against is ignored, with an entry (R354, R559). -/
theorem safetyReset_refused (hblocked : bit (s.rdN 0x4000 2 dev) 0 = true ∨ s.sup.appMissing = true) :
    Gives (.safetyReset k) s fun t => (t.sin k).highSince = none ∧ t.rd 0x4000 2 dev = s.rd 0x4000 2 dev := by
  refine safetyReset_tries hhigh hruns hk hfn hsound hlow hearly hlate ?_
  rw [State.tryReset_of_blocked (s := s.setSin k _) hblocked]
  refine ⟨?_, State.note_same (k := .reg 0x4000) (by decide) (.refl _ _) 2 dev⟩
  rw [State.sin_of_same (State.note_same (by decide) (.refl _ _)), State.sin_setSin]

theorem safetyReset_accepted (hfree : bit (s.rdN 0x4000 2 dev) 0 = false) (happ : s.sup.appMissing = false) :
    Gives (.safetyReset k) s fun t => t = (s.setSin k { s.sin k with highSince := none }).acceptReset := by
  refine safetyReset_tries hhigh hruns hk hfn hsound hlow hearly hlate ?_
  have hopen : ¬ (bit (s.rdN 0x4000 2 dev) 0 = true ∨ s.sup.appMissing = true) := by simp [hfree, happ]
  exact if_neg hopen

end

theorem resetRequest_gives {s : State} {src : Src} {v : Nat} (hacc : s.Accepts src 0x4007 0 [dev] v resetCheck) :
    Gives (.resetRequest src v) s (SameButNet (resetSet (s.atRequest src) dev)) :=
  ⟨_, rfl, State.writeObj_ok (eff := resetSet) hacc⟩

/-! ## Safe outputs (R337, R356) -/

/-- The same write to another object keeps what two states share. -/
theorem State.wr_both_same {s t : State} {i n j e : Nat} {v : Int} (hne : n ≠ i) (h : State.Same (.reg n) s t) :
    State.Same (.reg n) (s.wr i j e v) (t.wr i j e v) := fun p q => by
  have hs : State.Same (.reg n) s (s.wr i j e v) := State.wr_same (by simpa using hne) (.refl _ s)
  have ht : State.Same (.reg n) t (t.wr i j e v) := State.wr_same (by simpa using hne) (.refl _ t)
  rw [State.rd_of_same ht, State.rd_of_same h, State.rd_of_same hs]

theorem State.sout_wr (s : State) (i j e : Nat) (v : Int) (n : Nat) : (s.wr i j e v).sout n = s.sout n := rfl

/-- What the grant rule reads of an output's request, of the supervisor and of its inputs. -/
structure State.GrantsAs (s t : State) (n : Nat) : Prop where
  request : t.rd 0x4014 (n + 1) dev = s.rd 0x4014 (n + 1) dev
  output : t.sout n = s.sout n
  super : State.Same (.reg 0x4000) s t
  functions : State.Same (.reg 0x4001) s t
  ins : t.sup.ins = s.sup.ins

theorem State.GrantsAs.granted {s t : State} {n : Nat} (h : s.GrantsAs t n) : t.granted n = s.granted n := by
  have hin : ∀ k, t.sin k = s.sin k := State.sin_of_ins h.ins
  have hfn : ∀ k, t.inFn k = s.inFn k := fun k => congrArg Int.toNat (h.functions _ _)
  have hdemand : t.demandPends = s.demandPends := by simp only [State.demandPends, hin, hfn]
  have hruns : t.supRuns = s.supRuns := by rw [State.supRuns, State.supRuns, h.super]
  have hhold : t.rdN 0x4000 2 dev = s.rdN 0x4000 2 dev := congrArg Int.toNat (h.super _ _)
  simp only [State.granted, h.request, h.output, hruns, hhold, hdemand]

theorem State.GrantsAs.refl (s : State) (n : Nat) : s.GrantsAs s n := ⟨rfl, rfl, .refl _ s, .refl _ s, rfl⟩

theorem State.GrantsAs.trans {a s t : State} {n : Nat} (h : a.GrantsAs s n) (g : s.GrantsAs t n) : a.GrantsAs t n :=
  ⟨g.request.trans h.request, g.output.trans h.output, h.super.trans g.super, h.functions.trans g.functions,
    g.ins.trans h.ins⟩

theorem State.GrantsAs.of_same {s t : State} {n : Nat} (h : ∀ k ∈ [Part.reg 0x4000, .reg 0x4001, .reg 0x4014, .sup],
    State.Same k s t) : s.GrantsAs t n :=
  ⟨h (.reg 0x4014) (by decide) _ _, State.sout_of_same (h .sup (by decide)) n, h _ (by decide), h _ (by decide),
    congrArg Super.ins (h .sup (by decide))⟩

theorem State.switchOn_sout (s : State) (n : Nat) : (s.switchOn n).sout n = { s.sout n with on := true, bad := 0 } :=
  (State.sout_of_same (State.freeOut_same (by decide) (.refl _ _)) n).trans (s.sout_setSout n _)

theorem State.switchOn_sout_ne (s : State) {m n : Nat} (h : m ≠ n) : (s.switchOn n).sout m = s.sout m :=
  (State.sout_of_same (State.freeOut_same (by decide) (.refl _ _)) m).trans (s.sout_setSout_ne _ h)

/-- Another output that turns on changes nothing that the grant of this one reads. -/
theorem State.GrantsAs.switchOn (s : State) {m n : Nat} (h : n ≠ m) : s.GrantsAs (s.switchOn m) n where
  request := State.switchOn_same (k := .reg 0x4014) (by decide) (.refl _ s) _ _
  output := s.switchOn_sout_ne h
  super := State.switchOn_same (by decide) (.refl _ s)
  functions := State.switchOn_same (by decide) (.refl _ s)
  ins := State.ins_of_watch (s.watch_switchOn m)

/-- The grant of one output: on when it is off, granted, and not in its off-pulse. -/
def State.grantOutput (s : State) (n : Nat) : State :=
  if !(s.sout n).on ∧ !(s.sout n).pulse ∧ s.granted n then s.switchOn n else s

/-- An output whose request is granted is on after the grants, unless it is in its off-pulse (R337). -/
theorem State.grantOutputs_turnsOn (s : State) : ∀ n ∈ [0, 1, 2, 3], s.granted n = true →
    ((s.grantOutputs).sout n).on = true ∨ (s.sout n).pulse = true := by
  refine each_nodup_reaches (f := State.grantOutput) (q := fun n y => s.GrantsAs y n)
    (p := fun n y => s.granted n = true → (y.sout n).on = true ∨ (s.sout n).pulse = true) (by decide)
    (fun n _ => .refl s n) (fun n _ y hy hgrant => ?_) (fun n _ y m hnm hy => ?_) (fun n _ y m hnm hp hgrant => ?_)
  · by_cases hoff : !(y.sout n).on ∧ !(y.sout n).pulse ∧ y.granted n
    · rw [State.grantOutput, if_pos hoff, State.switchOn_sout]
      exact .inl rfl
    · rw [State.grantOutput, if_neg hoff, hy.output]
      rw [hy.granted, hy.output, hgrant] at hoff
      cases hon : (s.sout n).on
      · exact .inr (by simpa [hon] using hoff)
      · exact .inl rfl
  · unfold State.grantOutput
    split
    · exact hy.trans (.switchOn y hnm)
    · exact hy
  · unfold State.grantOutput
    split
    · rw [y.switchOn_sout_ne hnm]
      exact hp hgrant
    · exact hp hgrant

theorem safeOutputRequest_gives {s : State} {src : Src} {n v : Nat} (hn : n < 4)
    (hacc : s.Accepts src 0x4014 (n + 1) [dev] v (fun _ _ => aDone)) :
    Gives (.safeOutputRequest src n v) s fun t => t.rd 0x4014 (n + 1) dev = v ∧ (v = 0 → (t.sout n).on = false) ∧
      (v = 1 → (s.wr 0x4014 (n + 1) dev 1).granted n = true → (t.sout n).on = true ∨ (s.sout n).pulse = true) := by
  have hnet := (State.writeObj_ok (eff := outputSet n v) hacc).frame
  have hsout {t : State} (h : State.Same .sup (outputSet n v (s.atRequest src) dev) t) :=
    State.sout_of_same h n
  refine ⟨_, rfl, ?_, fun hv => ?_, fun hv hgrant => ?_⟩
  · rw [hnet (.reg 0x4014) (by decide)]
    change State.rd (outputSet n v (s.atRequest src) dev) _ _ _ = _
    unfold outputSet
    extract_lets y
    have hy {t : State} (h : State.Same (.reg 0x4014) y t) : t.rd 0x4014 (n + 1) dev = v :=
      (h (n + 1) dev).trans (State.rd_wr_self ..)
    split
    · split
      · exact hy (State.switchOff_same (by decide) (.refl _ y))
      · exact hy (.refl _ y)
    · split
      · exact hy (.refl _ y)
      · exact hy (State.grantOutputs_same (by decide) (.refl _ y))
  · rw [hsout (hnet .sup (by decide))]
    unfold outputSet
    extract_lets y
    rw [if_pos (by exact_mod_cast hv)]
    split
    case isTrue => rw [State.switchOff_sout]
    case isFalse hoff => simpa using hoff
  · rw [hsout (hnet .sup (by decide))]
    subst hv
    have hfresh : (s.wr 0x4014 (n + 1) dev 1).GrantsAs ((s.atRequest src).wr 0x4014 (n + 1) dev 1) n := by
      have hreq := (s.atRequest_sameButNet src).frame
      exact ⟨by rw [State.rd_wr_self, State.rd_wr_self], State.sout_of_same (hreq .sup (by decide)) n,
        State.wr_both_same (by decide) (hreq _ (by decide)), State.wr_both_same (by decide) (hreq _ (by decide)),
        congrArg Super.ins (hreq .sup (by decide))⟩
    unfold outputSet
    extract_lets y
    have hgranted : y.granted n = true := hfresh.granted.trans hgrant
    rw [if_neg (by decide)]
    split
    case isTrue h => exact .inl h
    case isFalse =>
      refine (y.grantOutputs_turnsOn n (by simp; omega) hgranted).imp_right fun h => ?_
      rwa [← State.sout_wr s 0x4014 (n + 1) dev 1 n, ← hfresh.output]

section
variable {s : State} {n : Nat} (hruns : s.supRuns = true) (hn : n < 4)
include hruns hn

theorem offPulse_gives {k : Nat} (hslot : s.pulseSlot n = some k) (hnew : (s.sout n).slotNo ≠ some k)
    (hfree : (s.sout n).slotAt = none) :
    Gives (.offPulse n) s fun t => (t.sout n).slotNo = some k ∧ (t.sout n).slotAt = some s.lt ∧
      (t.sout n).pulse = ((s.sout n).on && (s.sout n).fault == 0) := by
  refine .of_guard rfl ⟨hruns, hn, by rw [hslot]; rfl, by rw [hslot]; exact Ne.symm hnew, by rw [hfree]; rfl⟩ ?_
  rw [State.sout_setSout]
  exact ⟨hslot, rfl, rfl⟩

end

/-- An output found stuck on is marked and off, sets hold reason [4], and stops the DC link (R356). -/
theorem State.stuckOn_effect (s : State) (n : Nat) :
    (s.stuckOn n).sout n = { s.sout n with
      fault := 2, passed := false, pulse := false, backAt := none, on := false, bad := 0, ss1At := none } ∧
    (s.stuckOn n).rd 0x4000 5 dev = 0x31 ∧ (s.stuckOn n).held 4 = true ∧ StopsWith 15 s (s.stuckOn n) := by
  unfold State.stuckOn
  extract_lets src y
  have hstop {k : Part} (hk : k ∉ [.reg 0x3050, .reg 0x6000, .dies, .power, .trail]) :
      State.Same k (((y.switchOff n).setHold 4).supFault 0x31)
        ((((y.switchOff n).setHold 4).supFault 0x31).controlledStop 15) := State.controlledStop_same hk (.refl k _)
  have hsup : State.Same .sup (y.switchOff n) ((((y.switchOff n).setHold 4).supFault 0x31).controlledStop 15) :=
    State.controlledStop_same (by decide) (State.supFault_same (by decide) (State.setHold_same (by decide) (.refl _ _)))
  refine ⟨?_, (hstop (k := .reg 0x4000) (by decide) 5 dev).trans (State.supFault_shows ..), ?_, ?_⟩
  · rw [State.sout_of_same hsup, State.switchOff_sout, State.sout_setSout]
  · rw [State.held_of_same (hstop (by decide)), State.supFault_held, State.held_setHold_self]
  · exact (State.controlledStop_stops _ 15).after (State.supFault_same (by decide) (State.setHold_same (by decide)
      (State.switchOff_same (by decide) (State.setSout_same (by decide) (.refl _ s)))))

theorem State.overload_sout (s : State) (n : Nat) : (s.overload n).sout n = { s.sout n with
    fault := 3, passed := false, pulse := false, backAt := none, on := false, bad := 0, ss1At := none } := by
  rw [State.overload, State.sout_of_same (State.supFault_same (by decide) (.refl _ _)), State.switchOff_sout,
    State.sout_setSout]

/-- An off-pulse's end clears the slot; what the readback shows is the output's to pass or to be faulted by (R356). -/
theorem offPulseEnd_gives {s : State} {n x : Nat} (rb : Int) (hruns : s.supRuns = true) (hn : n < 4)
    (hslot : (s.sout n).slotAt = some x) (hx : x + s.rdN 0x4013 0 dev * 1000 ≤ s.lt) :
    Gives (.offPulseEnd n rb) s fun t => (t.sout n).slotAt = none ∧ (t.sout n).pulse = false ∧
      ((s.sout n).fault ≠ 0 → (t.sout n).fault = (s.sout n).fault ∧
        (t.sout n).passed = ((s.sout n).passed || decide (rb < 5000))) ∧
      ((s.sout n).fault = 0 → (s.sout n).pulse = true → 5000 ≤ rb → (t.sout n).fault = 2 ∧ (t.sout n).on = false ∧
        t.rd 0x4000 5 dev = 0x31) ∧
      ((s.sout n).fault = 0 → (s.sout n).pulse = true → rb < 5000 → (s.sout n).on = true →
        (t.sout n).backAt = some s.lt) := by
  refine .of_guard rfl ⟨hruns, hn, by rw [hslot]; exact decide_eq_true hx⟩ ?_
  extract_lets y
  split
  case isTrue hfault =>
    rw [State.sout_setSout]
    exact ⟨rfl, rfl, fun _ => ⟨rfl, rfl⟩, fun h => absurd h hfault, fun h => absurd h hfault⟩
  case isFalse hsound =>
    split
    case isTrue hpulse =>
      have hno : (s.sout n).pulse ≠ true := by simpa using hpulse
      rw [State.sout_setSout]
      exact ⟨rfl, rfl, fun h => absurd h hsound, fun _ h => absurd h hno, fun _ h => absurd h hno⟩
    case isFalse =>
      split
      case isTrue hhigh =>
        obtain ⟨hsout, hcode, _, _⟩ := (s.setSout n y).stuckOn_effect n
        rw [hsout, State.sout_setSout]
        exact ⟨rfl, rfl, fun h => absurd h hsound, fun _ _ _ => ⟨rfl, rfl, hcode⟩, fun _ _ h => absurd hhigh (by omega)⟩
      case isFalse hlow =>
        rw [State.sout_setSout]
        exact ⟨rfl, rfl, fun h => absurd h hsound, fun _ _ h => absurd h hlow, fun _ _ _ hon => if_pos hon⟩

theorem outputFault_gives {s : State} {n : Nat} (hruns : s.supRuns = true) (hn : n < 4) (hbad : 3 ≤ (s.sout n).bad)
    (hsound : (s.sout n).fault = 0) :
    Gives (.outputFault n) s fun t => (t.sout n).fault = (if (s.sout n).on = true then 3 else 2) ∧
      (t.sout n).on = false ∧ ((s.sout n).on = false → t.held 4 = true ∧ StopsWith 15 s t) := by
  refine .of_guard rfl ⟨hruns, hn, hbad, hsound⟩ ?_
  split
  case isTrue hon =>
    rw [State.overload_sout]
    exact ⟨rfl, rfl, fun h => absurd (h.symm.trans hon) Bool.false_ne_true⟩
  case isFalse =>
    obtain ⟨hsout, _, hhold, hstops⟩ := s.stuckOn_effect n
    rw [hsout]
    exact ⟨rfl, rfl, fun _ => ⟨hhold, hstops⟩⟩

/-! ## Contactors (R358 to R360) -/

/-- A used drive closes while no hold reason is set (R358). -/
theorem State.closeKdrv_closes_used {s : State} {k : Nat} (hused : s.kdrvUsed k = true)
    (hhold : s.rd 0x4000 2 dev = 0) : ((s.closeKdrv k).kdrv k).close = true := by
  unfold State.closeKdrv
  extract_lets x
  split
  case isTrue => rw [State.kdrv_wr, State.kdrv_setKdrv]
  case isFalse h => simpa [hused, hhold] using h

theorem contactorRequest_gives {s : State} {src : Src} {k v : Nat}
    (hacc : s.Accepts src 0x4023 (k - 1) [dev] v (fun _ _ => aDone)) :
    Gives (.contactorRequest src k v) s fun t => t.rd 0x4023 (k - 1) dev = v ∧ (v ≠ 1 → (t.kdrv k).close = false) ∧
      (v = 1 → s.supRuns = true → s.kdrvUsed k = true → s.rd 0x4000 2 dev = 0 → (t.kdrv k).close = true) := by
  have hnet := (State.writeObj_ok (eff := contactorSet k v) hacc).frame
  have hreq := (s.atRequest_sameButNet src).frame
  have hkdrv {t : State} (h : State.Same .sup (contactorSet k v (s.atRequest src) dev) t) := State.kdrv_of_same h k
  refine ⟨_, rfl, ?_, fun hv => ?_, fun hv hruns hused hhold => ?_⟩
  · rw [hnet (.reg 0x4023) (by decide)]
    change State.rd (contactorSet k v (s.atRequest src) dev) _ _ _ = _
    unfold contactorSet
    extract_lets y
    have hy {t : State} (h : State.Same (.reg 0x4023) y t) : t.rd 0x4023 (k - 1) dev = v :=
      (h (k - 1) dev).trans (State.rd_wr_self ..)
    split
    · split
      · exact hy (State.closeKdrv_same (by decide) (.refl _ y))
      · exact hy (.refl _ y)
    · exact hy (State.openKdrv_same (by decide) (.refl _ y))
  · rw [hkdrv (hnet .sup (by decide)), contactorSet, if_neg (by exact_mod_cast hv)]
    exact State.openKdrv_opens ..
  · rw [hkdrv (hnet .sup (by decide))]
    unfold contactorSet
    extract_lets y
    rw [if_pos (by exact_mod_cast hv)]
    have hstate : State.Same (.reg 0x4000) s y := State.wr_same (by decide) (hreq _ (by decide))
    have huse : State.Same (.reg 0x4020) s y := State.wr_same (by decide) (hreq _ (by decide))
    rw [if_pos (by rw [State.supRuns, hstate]; exact hruns)]
    refine State.closeKdrv_closes_used ?_ ((hstate 2 dev).trans hhold)
    rw [State.kdrvUsed, huse]
    exact hused

/-- A contactor fault opens the drive, shows state 4 and its code, and sets hold reason [3] (R359). -/
theorem State.contactorFault_effect (s : State) (k code : Nat) : ((s.contactorFault k code).kdrv k).close = false ∧
    ((s.contactorFault k code).kdrv k).drvBad = 0 ∧ (s.contactorFault k code).rd 0x4021 (k + 1) dev = 4 ∧
    (s.contactorFault k code).rd 0x4000 5 dev = code ∧ (s.contactorFault k code).held 3 = true := by
  unfold State.contactorFault
  extract_lets y x
  have hfault {p : Part} (hp : p ∉ [.reg 0x4000, .reg 0x6000, .dies, .trail]) (z : State) :
      State.Same p z (z.supFault code) := State.supFault_same hp (.refl p z)
  refine ⟨?_, ?_, ?_, State.supFault_shows .., ?_⟩
  · rw [State.kdrv_of_same (hfault (by decide) _), State.kdrv_wr, State.kdrv_setKdrv]
    exact s.openKdrv_opens k
  · rw [State.kdrv_of_same (hfault (by decide) _), State.kdrv_wr, State.kdrv_setKdrv]
  · rw [hfault (p := .reg 0x4021) (by decide), State.rd_wr_self]
  · rw [State.supFault_held]
    exact State.held_of_rd (State.rd_wr_ne _ _ (by simp)) 3 |>.trans (State.held_setHold_self (s.openKdrv k) 3)

/-- A welded contact is marked, shows state 5 and code 0x43, and sets hold reason [2] (R360). -/
theorem State.weld_effect (s : State) (k : Nat) : ((s.weld k).kdrv k).welded = true ∧
    (s.weld k).rd 0x4021 (k + 1) dev = 5 ∧ (s.weld k).rd 0x4000 5 dev = 0x43 ∧ (s.weld k).held 2 = true := by
  unfold State.weld
  extract_lets x
  have hfault {p : Part} (hp : p ∉ [.reg 0x4000, .reg 0x6000, .dies, .trail]) (z : State) :
      State.Same p z ((z.setHold 2).supFault 0x43) :=
    State.supFault_same hp (State.setHold_same (notMem_of hp (by decide)) (.refl p z))
  refine ⟨?_, ?_, State.supFault_shows .., ?_⟩
  · rw [State.kdrv_of_same (hfault (by decide) _), State.kdrv_wr, State.kdrv_setKdrv]
  · rw [hfault (p := .reg 0x4021) (by decide), State.rd_wr_self]
  · rw [State.supFault_held, State.held_setHold_self]

section
variable {s : State} {k : Nat} (hk : k < 4) (hruns : s.supRuns = true) (hused : s.kdrvUsed k = true)
include hk hruns hused

theorem contactorTimeout_gives (hsettles : (s.kdrv k).settled = false) (htime : (s.kdrv k).cmdAt + 150000000 ≤ s.lt) :
    Gives (.contactorTimeout k) s fun t =>
      if (s.kdrv k).close then (t.kdrv k).close = false ∧ t.rd 0x4021 (k + 1) dev = 4 ∧ t.rd 0x4000 5 dev = 0x41
      else (t.kdrv k).welded = true ∧ t.rd 0x4021 (k + 1) dev = 5 ∧ t.rd 0x4000 5 dev = 0x43 := by
  refine .of_guard rfl ⟨hk, hruns, hused, by rw [hsettles]; rfl, htime⟩ ?_
  split
  · obtain ⟨hopen, _, hshown, hcode, _⟩ := s.contactorFault_effect k 0x41
    exact ⟨hopen, hshown, hcode⟩
  · obtain ⟨hwelded, hshown, hcode, _⟩ := s.weld_effect k
    exact ⟨hwelded, hshown, hcode⟩

theorem contactorFault_gives (hdrive : 3 ≤ (s.kdrv k).drvBad) (hfeedback : (s.kdrv k).bad < 3) :
    Gives (.contactorFault k) s fun t => t.rd 0x4021 (k + 1) dev = 4 ∧ t.rd 0x4000 5 dev = 0x42 ∧
      (t.kdrv k).drvBad = 0 ∧ t.held 3 = true := by
  refine .of_guard rfl ⟨hk, hruns, hused⟩ ?_
  rw [if_neg (fun h => absurd h.1 (by omega)), if_pos hdrive]
  obtain ⟨_, hcount, hshown, hcode, hhold⟩ := s.contactorFault_effect k 0x42
  exact ⟨hshown, hcode, hcount, hhold⟩

theorem weldedContact_gives (hopen : (s.kdrv k).close = false) (hclosed : (s.kdrv k).kfbClosed = true)
    (hbad : 3 ≤ (s.kdrv k).bad) (hnew : (s.kdrv k).welded = false) :
    Gives (.weldedContact k) s fun t => (t.kdrv k).welded = true ∧ t.rd 0x4021 (k + 1) dev = 5 ∧ t.held 2 = true := by
  obtain ⟨hwelded, hshown, _, hhold⟩ := s.weld_effect k
  exact .of_guard rfl ⟨hk, hruns, hused, by rw [hopen]; rfl, hclosed, hbad, by rw [hnew]; rfl⟩ ⟨hwelded, hshown, hhold⟩

end

/-- Settles O44: each command's guard holds, so its effect is read off its operation; an accepted request leaves what
its effect leaves, and the frame is that of the command. -/
theorem safetyResetOutputsContactors : Obligations.SafetyResetOutputsContactors := by
  refine ⟨?refused, ?accepted, ?request, ?output, ?pulse, ?pulseEnd, ?fault, ?contactor, ?timeout, ?mismatch, ?weld⟩
  case refused =>
    intro k x s hhigh hruns hk hfn hsound hlow hearly hlate hblocked
    exact (safetyReset_refused hhigh hruns hk hfn hsound hlow hearly hlate hblocked).framed fun k hk =>
      execSafetyReset_same hk (.refl k s)
  case accepted =>
    intro k x s hhigh hruns hk hfn hsound hlow hearly hlate hfree happ
    exact (safetyReset_accepted hhigh hruns hk hfn hsound hlow hearly hlate hfree happ).framed fun k hk =>
      execSafetyReset_same hk (.refl k s)
  case request =>
    intro src v s hacc
    exact (resetRequest_gives hacc).framed fun k hk => execResetRequest_same hk (.refl k s)
  case output =>
    intro src n v s hn hacc
    exact (safeOutputRequest_gives hn hacc).framed fun k hk => execSafeOutputRequest_same hk (.refl k s)
  case pulse =>
    intro n k s hruns hn hslot hnew hfree
    exact (offPulse_gives hruns hn hslot hnew hfree).framed fun k hk => execOffPulse_same hk (.refl k s)
  case pulseEnd =>
    intro n x rb s hruns hn hslot hx
    exact (offPulseEnd_gives rb hruns hn hslot hx).framed fun k hk => execOffPulseEnd_same hk (.refl k s)
  case fault =>
    intro n s hruns hn hbad hsound
    exact (outputFault_gives hruns hn hbad hsound).framed fun k hk => execOutputFault_same hk (.refl k s)
  case contactor =>
    intro src k v s hacc
    exact (contactorRequest_gives hacc).framed fun k hk => execContactorRequest_same hk (.refl k s)
  case timeout =>
    intro k s hk hruns hused hsettles htime
    exact (contactorTimeout_gives hk hruns hused hsettles htime).framed fun k hk =>
      execContactorTimeout_same hk (.refl k s)
  case mismatch =>
    intro k s hk hruns hused hdrive hfeedback
    exact (contactorFault_gives hk hruns hused hdrive hfeedback).framed fun k hk => execContactorFault_same hk (.refl k s)
  case weld =>
    intro k s hk hruns hused hopen hclosed hbad hnew
    exact (weldedContact_gives hk hruns hused hopen hclosed hbad hnew).framed fun k hk =>
      execWeldedContact_same hk (.refl k s)

end Sys2Proof.Machine
end

section
/-! SUPPORT. What latches and trail entries leave of the dies and of the channels' temperatures. -/

namespace Sys2Proof.Machine

/-! ## Dies that send -/

/-- Of every die, its links and its counts of sent entries alone have changed. -/
structure DiesSend (s t : State) : Prop where
  die : ∀ d, t.die d = { s.die d with sent := (t.die d).sent, up := (t.die d).up, down := (t.die d).down }

namespace DiesSend

theorem refl (s : State) : DiesSend s s := ⟨fun _ => rfl⟩

theorem trans {a s t : State} (h : DiesSend a s) (g : DiesSend s t) : DiesSend a t := by
  refine ⟨fun d => ?_⟩
  rw [g.die d, h.die d]

theorem of_same {s t : State} (h : State.Same .dies s t) : DiesSend s t := by
  refine ⟨fun d => ?_⟩
  rw [State.die_of_same h d]

theorem of_trailOnly {s t : State} (h : TrailOnly s t) : DiesSend s t := by
  refine ⟨fun d => ?_⟩
  obtain ⟨sent, queue, hdie⟩ := h.die d
  rw [hdie]

theorem setDie (s : State) (n : Nat) (l m : Link) : DiesSend s (s.setDie n { s.die n with up := l, down := m }) := by
  refine ⟨fun d => ?_⟩
  by_cases hd : d = n
  · rw [hd, State.die_setDie]
  · rw [State.die_setDie_ne _ _ hd]

theorem setLink (s : State) (n : Nat) (dir : Dir) (l : Link) : DiesSend s (s.setDie n ((s.die n).setLink dir l)) := by
  cases dir with
  | toHub => exact setDie s n l (s.die n).down
  | toDie => exact setDie s n (s.die n).up l

theorem raiseFrame (s : State) (n : Nat) (dir : Dir) (code arg corr : Nat) : DiesSend s (s.raiseFrame n dir code arg corr) :=
  setLink s n dir _

theorem onLink (s : State) (n : Nat) (dir : Dir) (f : Link → Link) : DiesSend s (s.onLink n dir f) := setLink s n dir _

theorem each {α : Type} {l : List α} {f : State → α → State} (s : State) (hf : ∀ y x, DiesSend y (f y x)) :
    DiesSend s (each l f s) :=
  each_induct (.refl s) fun y x _ hy => hy.trans (hf y x)

theorem ite {a s t : State} {c : Prop} [Decidable c] (hs : DiesSend a s) (ht : DiesSend a t) :
    DiesSend a (if c then s else t) := by
  split
  · exact hs
  · exact ht

theorem raiseAll (s : State) (code arg corr : Nat) : DiesSend s (s.raiseAll code arg corr) :=
  each s fun y n => raiseFrame y n .toDie code arg corr

theorem latchOne (s : State) (c cause arg corr : Nat) : DiesSend s (s.latchOne c cause arg corr) := by
  cases h : s.latched c
  case true =>
    rw [State.latchOne_of_latched h]
    exact of_same (State.wr_same (by decide) (State.setChan_same (by decide) (.refl _ s)))
  case false =>
    rw [State.latchOne_of_free h]
    have hoff : State.Same .dies s ((s.setChan c { s.chan c with causeAt := some s.clock.cnt }).gatesOff c) :=
      State.gatesOff_same (by decide) (State.setChan_same (by decide) (.refl _ s))
    have hregs := of_same (hoff.trans (State.latchRegs_same _ c cause arg corr (by decide)))
    have hend (y : State) : State.Same .dies y ((y.dropJobs (dieOf c) (localOf c)).endByLatch c) :=
      State.endByLatch_same (by decide) (State.dropJobs_same (by decide) (.refl _ y))
    exact (hregs.trans (of_trailOnly (State.raise_trailOnly ..))).trans (of_same (hend _))

theorem wr (s : State) (i j e : Nat) (v : Int) : DiesSend s (s.wr i j e v) := ⟨fun _ => rfl⟩

theorem latchChans (s : State) (l : List Nat) (cause arg corr : Nat) : DiesSend s (s.latchChans l cause arg corr) :=
  (each s fun y c => latchOne y c cause arg corr).trans (each _ fun y m => (latchOne y m 3 0 corr).trans (wr ..))

end DiesSend

/-! ## Temperatures of the channels (R348) -/

/-- Every channel's temperature, and its count of comparisons beyond the limit, is as before. -/
structure TempsStay (s t : State) : Prop where
  temp : ∀ c, (t.chan c).temp = (s.chan c).temp
  count : ∀ c, (t.chan c).sup.overTemp = (s.chan c).sup.overTemp

namespace TempsStay

theorem refl (s : State) : TempsStay s s := ⟨fun _ => rfl, fun _ => rfl⟩

theorem trans {a s t : State} (h : TempsStay a s) (g : TempsStay s t) : TempsStay a t :=
  ⟨fun c => (g.temp c).trans (h.temp c), fun c => (g.count c).trans (h.count c)⟩

theorem of_same {s t : State} (h : State.Same .chans s t) : TempsStay s t :=
  ⟨fun c => congrArg Chan.temp (State.chan_of_same h c), fun c => congrArg (·.sup.overTemp) (State.chan_of_same h c)⟩

theorem setChan (s : State) {c : Nat} {x : Chan} (htemp : x.temp = (s.chan c).temp)
    (hcount : x.sup.overTemp = (s.chan c).sup.overTemp) : TempsStay s (s.setChan c x) := by
  constructor
  all_goals
    intro d
    by_cases hd : d = c
    · rw [hd, State.chan_setChan]
      assumption
    · rw [State.chan_setChan_ne _ _ hd]

theorem wr (s : State) (i j e : Nat) (v : Int) : TempsStay s (s.wr i j e v) := ⟨fun _ => rfl, fun _ => rfl⟩

theorem closeStep (s : State) (c row cause lt : Nat) : TempsStay s (s.closeStep c row cause lt) := by
  unfold State.closeStep
  extract_lets y ch src z
  have hz : TempsStay y z := setChan y rfl rfl
  exact ((wr s 0x2402 0x0A c lt).trans hz).trans (.of_same (State.mail_same (by decide) (.refl _ z)))

theorem endRun (s : State) (c result : Nat) : TempsStay s (s.endRun c result) := by
  unfold State.endRun
  extract_lets ch src y
  have hy : TempsStay s y := setChan s rfl rfl
  have hregs : TempsStay y (((y.wr 0x2402 1 c 7).wr 0x2402 3 c result).wr 0x2444 1 c 0) :=
    ((wr ..).trans (wr ..)).trans (wr ..)
  exact (hy.trans hregs).trans (.of_same (State.setWord4_same (by decide) (.refl _ _)))

theorem endByLatch (s : State) (c : Nat) : TempsStay s (s.endByLatch c) := by
  unfold State.endByLatch
  split
  · refine trans ?_ (endRun ..)
    split
    · exact (wr s 0x2402 9 c 5).trans (closeStep ..)
    · exact refl s
  · exact refl s

theorem latchOne (s : State) (c cause arg corr : Nat) : TempsStay s (s.latchOne c cause arg corr) := by
  have hset : TempsStay s (s.setChan c { s.chan c with causeAt := some s.clock.cnt }) := setChan s rfl rfl
  cases h : s.latched c
  case true =>
    rw [State.latchOne_of_latched h]
    exact hset.trans (wr ..)
  case false =>
    rw [State.latchOne_of_free h]
    have hoff (y : State) : TempsStay y (y.gatesOff c) := by
      have hslice : TempsStay y (y.sliceOff c) := setChan y rfl rfl
      exact hslice.trans (.of_same (State.setUnit_same (by decide) (.refl _ _)))
    have hregs (y : State) (data : List Byte) : TempsStay y
        (((y.latchRegs c cause arg corr).raise (dieOf c) c 0x2001 data corr).dropJobs (dieOf c) (localOf c)) :=
      .of_same (State.dropJobs_same (by decide) (State.raise_same (by decide)
        (State.latchRegs_same _ _ _ _ _ (by decide))))
    exact ((hset.trans (hoff _)).trans (hregs _ _)).trans (endByLatch ..)

theorem latchChans (s : State) (l : List Nat) (cause arg corr : Nat) : TempsStay s (s.latchChans l cause arg corr) := by
  have hcs : TempsStay s (each l (fun s c => s.latchOne c cause arg corr) s) :=
    each_induct (.refl s) fun y c _ hy => hy.trans (latchOne y c cause arg corr)
  exact each_induct hcs fun y m _ hy => (hy.trans (latchOne y m 3 0 corr)).trans (wr ..)

end TempsStay

theorem siteChans_nodup (n : Nat) : (siteChans n).Nodup :=
  List.nodup_range.map fun a b h => by simpa [chanOf] using h

end Sys2Proof.Machine
end

section
/-! The statement on doors, cell temperatures and the application heartbeat. -/

namespace Sys2Proof.Machine

/-! ## Latches of a channel (R346, R349) -/

theorem doorLimitLatch_gives {s : State} {c : Nat} (hpop : s.chanPop c = true)
    (hheld : heldFor (s.chan c).sup.door (s.rdN 0x4031 0 dev * 1000000) s.lt = true) (hfree : s.latched c = false) :
    Gives (.doorLimitLatch c) s fun t => t.LatchedBy c 16 :=
  .of_guard rfl ⟨hpop, hheld, by rw [hfree]; rfl⟩ (State.latchNew_latchedBy hfree 16 0)

theorem State.tempBit_self (s : State) (c b : Nat) (on : Bool) : bit ((s.tempBit c b on).rdN 0x4033 0 c) b = on := by
  rw [State.tempBit, State.rdN, State.rd_wr_self]
  cases on
  · exact bit_clearBit_self ..
  · exact bit_setBit_self ..

theorem temperaturePlausibilityFault_gives {s : State} {c : Nat} (hpop : s.chanPop c = true)
    (hwatched : s.tempWatched c = true) (hheld : heldFor (s.chan c).sup.tempDiff 1000000000 s.lt = true)
    (hfree : s.latched c = false) :
    Gives (.temperaturePlausibilityFault c) s fun t => t.LatchedBy c 15 ∧ bit (t.rdN 0x4033 0 c) 1 = true := by
  have hbit : State.Same (.reg 0x4033) (s.tempBit c 1 true) ((s.tempBit c 1 true).latchNew c 15 0) :=
    State.latchNew_same (by decide) (.refl _ _)
  have hstill : (s.tempBit c 1 true).latched c = false :=
    (State.latched_of_same (State.tempBit_same (by decide) (.refl _ s)) c).trans hfree
  refine .of_guard rfl ⟨hpop, hwatched, hheld, by rw [hfree]; rfl⟩ ⟨State.latchNew_latchedBy hstill 15 0, ?_⟩
  rw [State.rdN, hbit 0 c]
  exact s.tempBit_self c 1 true

/-! ## Comparisons with the limit (R348) -/

/-- What the comparison of a channel with its limit reads is as in another state. -/
structure State.ComparesAs (u : State) (c : Nat) (t : State) : Prop where
  watched : t.tempWatched c = u.tempWatched c
  limit : t.rd 0x4032 0 c = u.rd 0x4032 0 c
  temp : (t.chan c).temp = (u.chan c).temp
  count : (t.chan c).sup.overTemp = (u.chan c).sup.overTemp

theorem State.ComparesAs.refl (u : State) (c : Nat) : u.ComparesAs c u := ⟨rfl, rfl, rfl, rfl⟩

theorem State.tempWatched_of_same {s t : State} (hmode : State.Same (.reg 0x4036) s t)
    (hgang : State.Same (.reg 0x2802) s t) (c : Nat) : t.tempWatched c = s.tempWatched c := by
  rw [State.tempWatched, State.tempWatched, State.slave, State.slave, hmode, State.master_of_same hgang]

/-- A second comparison beyond the limit latches the channel and its gang, and sends frame 0x21. -/
def State.overTempLatch (s : State) (c : Nat) : State :=
  ((s.openCorr (dieOf c)).latchChans [c] 14 0 (s.corrId (dieOf c))).raiseFrame (dieOf c) .toHub 0x21 (localOf c)
    (s.corrId (dieOf c))

theorem State.overTempLatch_latches (s : State) (c : Nat) :
    (s.overTempLatch c).latched c = true ∧ LatchesStay s (s.overTempLatch c) := by
  have hframe (y : State) : LatchesStay y (y.raiseFrame (dieOf c) .toHub 0x21 (localOf c) (s.corrId (dieOf c))) :=
    .of_same (State.raiseFrame_same (by decide) (.refl _ y))
  have hopen : LatchesStay s (s.openCorr (dieOf c)) := .of_same (State.openCorr_same (by decide) (.refl _ s))
  exact ⟨(hframe _).latched c (State.latchChans_latches _ _ _ _ (.inl List.mem_cons_self)),
    (hopen.trans (State.latchChans_keeps ..)).trans (hframe _)⟩

theorem State.overTempLatch_temps (s : State) (c : Nat) : TempsStay s (s.overTempLatch c) :=
  ((TempsStay.of_same (State.openCorr_same (by decide) (.refl _ s))).trans (.latchChans ..)).trans
    (.of_same (State.raiseFrame_same (by decide) (.refl _ _)))

theorem State.overTempLatch_dies (s : State) (c : Nat) : DiesSend s (s.overTempLatch c) :=
  ((DiesSend.of_same (State.openCorr_same (by decide) (.refl _ s))).trans (.latchChans ..)).trans (.raiseFrame ..)

/-- A comparison leaves its count alone, or its count and its bits, or then the latch that the second beyond the limit
brings. -/
theorem State.checkTemp_cases (s : State) (c : Nat) : ∃ x v, s.checkTemp c = s.setChan c x ∨
    s.checkTemp c = (s.setChan c x).wr 0x4033 0 c v ∨
    s.checkTemp c = ((s.setChan c x).wr 0x4033 0 c v).overTempLatch c := by
  unfold State.checkTemp State.overTempLatch State.tempBit
  split
  · extract_lets ch src y
    split
    · exact ⟨_, 0, .inl rfl⟩
    · exact ⟨_, 0, .inr (.inl rfl)⟩
  · extract_lets ch beyond n src y z
    split
    · exact ⟨_, _, .inr (.inr rfl)⟩
    · exact ⟨_, _, .inr (.inl rfl)⟩

/-- The comparison of one channel leaves what another's reads, every latch, and every die but for what it sends. -/
theorem State.checkTemp_others (s : State) (x : Nat) :
    (∀ c, c ≠ x → s.ComparesAs c (s.checkTemp x)) ∧ LatchesStay s (s.checkTemp x) ∧ DiesSend s (s.checkTemp x) := by
  have hset (ch : Chan) : LatchesStay s (s.setChan x ch) ∧ DiesSend s (s.setChan x ch) :=
    ⟨.of_same (State.setChan_same (by decide) (.refl _ s)), .of_same (State.setChan_same (by decide) (.refl _ s))⟩
  have hreads {t : State} (ch : Chan) (htemps : TempsStay (s.setChan x ch) t)
      (hregs : ∀ k ∈ [Part.reg 0x4036, .reg 0x2802, .reg 0x4032], State.Same k s t) (c : Nat) (hc : c ≠ x) :
      s.ComparesAs c t :=
    ⟨State.tempWatched_of_same (hregs _ (by decide)) (hregs _ (by decide)) c, hregs (.reg 0x4032) (by decide) 0 c,
      (htemps.temp c).trans (congrArg Chan.temp (s.chan_setChan_ne ch hc)),
      (htemps.count c).trans (congrArg (·.sup.overTemp) (s.chan_setChan_ne ch hc))⟩
  have hregs : ∀ k ∈ [Part.reg 0x4036, .reg 0x2802, .reg 0x4032], State.Same k s (s.checkTemp x) := fun k hk => by
    refine State.checkTemp_same ?_ (.refl k s)
    fin_cases hk
    all_goals decide
  obtain ⟨ch, v, heq | heq | heq⟩ := s.checkTemp_cases x
  all_goals
    rw [heq] at hregs ⊢
    obtain ⟨hlatch, hdie⟩ := hset ch
  · exact ⟨hreads ch (.refl _) hregs, hlatch, hdie⟩
  · have hbit : LatchesStay (s.setChan x ch) ((s.setChan x ch).wr 0x4033 0 x v) :=
      .of_same (State.wr_same (by decide) (.refl _ _))
    exact ⟨hreads ch (.wr ..) hregs, hlatch.trans hbit, hdie.trans (.wr ..)⟩
  · have hbit : LatchesStay (s.setChan x ch) ((s.setChan x ch).wr 0x4033 0 x v) :=
      .of_same (State.wr_same (by decide) (.refl _ _))
    exact ⟨hreads ch ((TempsStay.wr ..).trans (State.overTempLatch_temps ..)) hregs,
      (hlatch.trans hbit).trans (State.overTempLatch_latches ..).2,
      (hdie.trans (.wr ..)).trans (State.overTempLatch_dies _ x)⟩

/-- The second comparison in a row beyond the limit latches the channel (R348). -/
theorem State.checkTemp_latches {s : State} {c : Nat} (hwatched : s.tempWatched c = true)
    (hbeyond : s.rd 0x4032 0 c < (s.chan c).temp) (hcount : (s.chan c).sup.overTemp = 1) :
    (s.checkTemp c).latched c = true := by
  unfold State.checkTemp
  rw [if_neg (by rw [hwatched]; decide)]
  extract_lets ch beyond n src y corr z
  have hn : n = 2 := by
    simp [n, beyond, ch, hbeyond, hcount]
  rw [if_pos hn]
  exact (y.overTempLatch_latches c).1

/-- A second check in a row beyond the limit latches its channel, whatever the other channels' checks latch. -/
theorem overTemperatureCheck_gives {s u : State} {n c : Nat} {codes : List Nat} (hpop : s.sitePop n = true)
    (hc : c ∈ siteChans n) (honce : (s.die n).overAt ≠ some (s.lt / 1000000))
    (hu : each ((siteChans n).zip codes) (fun v x => v.takeTemp x.1 x.2)
      (s.setDie n { s.die n with overAt := some (s.lt / 1000000) }) = u)
    (hwatched : u.tempWatched c = true) (hbeyond : u.rd 0x4032 0 c < (u.chan c).temp)
    (hcount : (u.chan c).sup.overTemp = 1) :
    Gives (.overTemperatureCheck n codes) s fun t =>
      t.latched c = true ∧ (t.die n).overAt = some (s.lt / 1000000) := by
  have hdies : DiesSend u (each (siteChans n) (fun s c => s.checkTemp c) u) :=
    .each u fun y x => (y.checkTemp_others x).2.2
  have hover : (u.die n).overAt = some (s.lt / 1000000) := by
    have htaken : State.Same .dies (s.setDie n { s.die n with overAt := some (s.lt / 1000000) }) u :=
      hu ▸ each_same (.refl _ _) fun _ _ hy => State.takeTemp_same (by decide) hy
    rw [State.die_of_same htaken, State.die_setDie]
  have hlatches := each_nodup_reaches (q := fun c y => u.ComparesAs c y)
    (p := fun c y => u.tempWatched c = true → u.rd 0x4032 0 c < (u.chan c).temp → (u.chan c).sup.overTemp = 1 →
      y.latched c = true) (f := fun s c => s.checkTemp c) (s := u) (siteChans_nodup n) (fun c _ => .refl u c)
    (fun c _ y hy hw hb hn => State.checkTemp_latches (hy.watched.trans hw) (by rw [hy.limit, hy.temp]; exact hb)
      (hy.count.trans hn))
    (fun z _ y x hzx hy => by
      obtain ⟨hw, hl, ht, hn⟩ := (y.checkTemp_others x).1 z hzx
      exact ⟨hw.trans hy.watched, hl.trans hy.limit, ht.trans hy.temp, hn.trans hy.count⟩)
    (fun z _ y x _ hz hw hb hn => (y.checkTemp_others x).2.1.latched z (hz hw hb hn))
  refine .of_guard rfl ⟨hpop, honce⟩ ?_
  dsimp only
  rw [show each _ _ _ = u from hu]
  exact ⟨hlatches c hc hwatched hbeyond hcount, by rw [hdies.die n]; exact hover⟩

/-! ## Comparisons with the measured temperature (R349) -/

/-- What the comparison of a channel with its measured temperature reads is as in another state. -/
structure State.MeasuresAs (u : State) (c : Nat) (t : State) : Prop where
  watched : t.tempWatched c = u.tempWatched c
  chan : t.chan c = u.chan c

/-- A channel's difference is shown, its missing mark cleared, and the mirror taken (R349). -/
def State.ShowsDifference (t : State) (c : Nat) (d : Int) : Prop :=
  t.rd 0x4034 0 c = d ∧ bit (t.rdN 0x4033 0 c) 2 = false ∧ (t.chan c).mTemp = none

/-- A watched channel with a mirror takes it and shows the difference. -/
theorem State.compareTemp_of_mirror {s : State} {c : Nat} {m : Int} (hwatched : s.tempWatched c = true)
    (hmirror : (s.chan c).mTemp = some m) : ∃ x : Chan, x.mTemp = none ∧
      s.compareTemp c = ((s.setChan c x).wr 0x4034 0 c ((s.chan c).temp - m)).tempBit c 2 false := by
  unfold State.compareTemp
  rw [if_neg (by rw [hwatched]; decide)]
  dsimp only
  rw [hmirror]
  exact ⟨_, rfl, rfl⟩

theorem State.compareTemp_shows {s : State} {c : Nat} {m : Int} (hwatched : s.tempWatched c = true)
    (hmirror : (s.chan c).mTemp = some m) : (s.compareTemp c).ShowsDifference c ((s.chan c).temp - m) := by
  obtain ⟨x, hx, heq⟩ := State.compareTemp_of_mirror hwatched hmirror
  rw [heq]
  refine ⟨?_, State.tempBit_self _ c 2 false, ?_⟩
  · rw [State.tempBit, State.rd_wr_ne _ _ (by simp), State.rd_wr_self]
  · exact (congrArg Chan.mTemp (s.chan_setChan c x)).trans hx

/-- The comparison of one channel leaves the record of the channel, a difference, or the bit of its missing mirror. -/
theorem State.compareTemp_cases (s : State) (c : Nat) : ∃ x, s.compareTemp c = s.setChan c x ∨
    (∃ d, s.compareTemp c = ((s.setChan c x).wr 0x4034 0 c d).tempBit c 2 false) ∨
    ∃ y, s.compareTemp c = (((s.setChan c x).setChan c y).tempBit c 2 true).noteAt (dieOf c) c 0x200D [] := by
  unfold State.compareTemp
  extract_lets ch t src t0 z ch' src'
  split
  · exact ⟨_, .inl rfl⟩
  · split
    · exact ⟨_, .inr (.inl ⟨_, rfl⟩)⟩
    · split
      · exact ⟨_, .inr (.inr ⟨_, rfl⟩)⟩
      · exact ⟨_, .inl rfl⟩

/-- The comparison of one channel writes the registers and the record of that channel alone. -/
theorem State.compareTemp_only (s : State) (x : Nat) :
    OnlyChan x s (s.compareTemp x) ∧ OnlyInstance 0x4033 x s (s.compareTemp x) ∧
      OnlyInstance 0x4034 x s (s.compareTemp x) := by
  have hset (y : State) (ch : Chan) : OnlyChan x y (y.setChan x ch) := fun _ h => y.chan_setChan_ne ch h
  have hbit (y : State) (on : Bool) : OnlyInstance 0x4033 x y (y.tempBit x 2 on) := fun _ _ h =>
    State.rd_wr_ne _ _ (by simp [h])
  obtain ⟨ch, heq | ⟨d, heq⟩ | ⟨ch', heq⟩⟩ := s.compareTemp_cases x
  · rw [heq]
    exact ⟨hset s ch, fun _ _ _ => rfl, fun _ _ _ => rfl⟩
  · rw [heq]
    refine ⟨hset s ch, fun j c hc => (hbit _ false j c hc).trans ?_, fun j c hc => ?_⟩
    · exact State.rd_wr_ne _ _ (by simp)
    · rw [State.tempBit, State.rd_wr_ne _ _ (by simp), State.rd_wr_ne _ _ (by simp [hc])]
      rfl
  · rw [heq]
    have hnote {k : Part} (hk : k ∉ [.reg 0x6000, .dies, .trail]) (y : State) :
        State.Same k y (y.noteAt (dieOf x) x 0x200D []) := State.noteAt_same hk (.refl k y)
    refine ⟨fun c hc => ?_, fun j c hc => ?_, fun j c hc => ?_⟩
    · rw [State.chan_of_same (hnote (by decide) _)]
      exact (hset _ ch' c hc).trans (hset s ch c hc)
    · rw [State.rd_of_same (hnote (by decide) _), hbit _ true j c hc]
      rfl
    · rw [State.rd_of_same (hnote (by decide) _), State.tempBit, State.rd_wr_ne _ _ (by simp)]
      rfl

theorem temperaturePlausibilityCheck_gives {s : State} {n c : Nat} {m : Int} (hpop : s.sitePop n = true)
    (hc : c ∈ siteChans n) (honce : (s.die n).plausAt ≠ some (s.lt / 100000000)) (hwatched : s.tempWatched c = true)
    (hmirror : (s.chan c).mTemp = some m) :
    Gives (.temperaturePlausibilityCheck n) s fun t => t.ShowsDifference c ((s.chan c).temp - m) := by
  have hshows := each_nodup_reaches (q := fun c y => s.MeasuresAs c y)
    (p := fun c y => ∀ m, s.tempWatched c = true → (s.chan c).mTemp = some m →
      y.ShowsDifference c ((s.chan c).temp - m)) (f := fun s c => s.compareTemp c)
    (s := s.setDie n { s.die n with plausAt := some (s.lt / 100000000) }) (siteChans_nodup n) (fun c _ => ⟨rfl, rfl⟩)
    (fun c _ y hy m hw hm => by
      rw [← hy.chan] at hm ⊢
      exact State.compareTemp_shows (hy.watched.trans hw) hm)
    (fun z _ y x hzx hy => by
      obtain ⟨hchan, _, _⟩ := y.compareTemp_only x
      have hwatch : (y.compareTemp x).tempWatched z = y.tempWatched z :=
        State.tempWatched_of_same (State.compareTemp_same (by decide) (.refl _ y))
          (State.compareTemp_same (by decide) (.refl _ y)) z
      exact ⟨hwatch.trans hy.watched, (hchan z hzx).trans hy.chan⟩)
    (fun z _ y x hzx hz m hw hm => by
      obtain ⟨hchan, hbits, hdiff⟩ := y.compareTemp_only x
      obtain ⟨hd, hb, hm'⟩ := hz m hw hm
      exact ⟨(hdiff 0 z hzx).trans hd, by rw [State.rdN, hbits 0 z hzx]; exact hb, by rw [hchan z hzx]; exact hm'⟩)
  exact .of_guard rfl ⟨hpop, honce⟩ (hshows c hc m hwatched hmirror)

/-! ## The application heartbeat (R559) -/

/-- Showing the active functions leaves the fault code. -/
theorem State.showActive_fault (s : State) : s.showActive.rd 0x4000 5 dev = s.rd 0x4000 5 dev := by
  unfold State.showActive
  extract_lets a y
  have hy : y.rd 0x4000 5 dev = s.rd 0x4000 5 dev := State.rd_wr_ne s _ (by simp)
  split
  · exact (State.rd_wr_ne y _ (by simp)).trans hy
  · exact (State.rd_wr_ne y _ (by simp)).trans hy

/-- The fire function's outputs are off. -/
def State.fireOff (s : State) (corr : Nat) : State :=
  let s := s.raiseAll 0x03 127 corr
  each (maskOuts (s.rdN 0x4012 3 dev) ++ [s.rdN 0x4016 1 dev, s.rdN 0x4016 2 dev]).eraseDups (fun s n => s.functionOff n) s

theorem State.fireDemand_eq (s : State) (corr : Nat) :
    s.fireDemand corr = ((s.fireOff corr).openAll.afeLow.stopWith 15 corr).waitAdis := by
  unfold State.fireDemand State.fireOff State.waitAdis
  with_reducible rfl

/-- The fire function stops the DC link (R343). -/
theorem State.fireDemand_stops (s : State) (corr : Nat) : StopsWith 15 s (s.fireDemand corr) := by
  have hoff : State.Same (.reg 0x3050) s (s.fireOff corr) :=
    each_same (State.raiseAll_same (by decide) (.refl _ s)) fun _ _ hy => State.functionOff_same (by decide) hy
  have hlow : State.Same (.reg 0x3050) s (s.fireOff corr).openAll.afeLow :=
    State.afeLow_same (by decide) (State.openAll_same (by decide) hoff)
  have hwait (y : State) : State.Same (.reg 0x3050) y y.waitAdis :=
    State.adisDue_same (by decide) (State.setSup_same (by decide) (.refl _ y))
  rw [State.fireDemand_eq]
  exact ((State.stopWith_stops _ 15 corr).after hlow).of_same (hwait _)

/-- A fire demand that no input holds sets hold reason [1], keeps the fault code, and stops the DC link (R343, R559). -/
theorem State.fireAlone_effect (s : State) : s.fireAlone.held 1 = true ∧ s.fireAlone.rd 0x4000 5 dev = s.rd 0x4000 5 dev ∧
    StopsWith 15 s s.fireAlone := by
  unfold State.fireAlone
  extract_lets corr
  have hfire {y : State} : State.Same (.reg 0x4000) y (y.fireDemand corr) := State.fireDemand_same (by decide) (.refl _ y)
  refine ⟨?_, ?_, ?_⟩
  · rw [State.held_of_same hfire, State.activeNote_held, State.showActive_held _ (by decide)]
    exact State.held_setHold_self (s.openCorr 0) 1
  · rw [State.rd_of_same hfire, State.rd_of_same (State.activeNote_same (by decide) (.refl _ _)),
      State.showActive_fault, State.setHold, State.rd_wr_ne _ _ (by simp)]
    exact State.rd_of_same (State.openCorr_same (by decide) (.refl _ s)) 5 dev
  · exact (State.fireDemand_stops _ corr).after (State.activeNote_same (by decide) (State.showActive_same (by decide)
      (State.setHold_same (by decide) (State.openCorr_same (by decide) (.refl _ s)))))

theorem State.watch_fireAlone (s : State) : s.fireAlone.watch = s.watch := by
  rw [State.fireAlone, State.watch_fireDemand]
  exact State.watch_showActive ((s.openCorr 0).setHold 1) _

theorem State.app_of_watch {s t : State} (h : t.watch = s.watch) :
    t.sup.appMissing = s.sup.appMissing ∧ t.sup.appFire = s.sup.appFire :=
  ⟨(congrArg Super.appMissing h : t.watch.appMissing = s.watch.appMissing),
    (congrArg Super.appFire h : t.watch.appFire = s.watch.appFire)⟩

/-- The heartbeat's marks are set. -/
def State.markHeartbeat (s : State) : State := s.setSup { s.sup with appMissing := true, appFire := true }

theorem applicationHeartbeatTimeout_gives {s : State} (hruns : s.supRuns = true) (hfresh : s.sup.appMissing = false) :
    Gives .applicationHeartbeatTimeout s fun t => t.sup.appMissing = true ∧ t.sup.appFire = true ∧
      t.rd 0x4000 5 dev = 0x16 ∧ t.held 1 = true ∧ StopsWith 15 s t := by
  have hwatch : (s.markHeartbeat.supFault 0x16).fireAlone.watch = s.markHeartbeat.watch := by
    rw [State.watch_fireAlone, State.watch_supFault]
  obtain ⟨hhold, hcode, hstops⟩ := (s.markHeartbeat.supFault 0x16).fireAlone_effect
  have hfault : State.Same (.reg 0x3050) s (s.markHeartbeat.supFault 0x16) :=
    State.supFault_same (by decide) (State.setSup_same (by decide) (.refl _ s))
  have hexec : execApplicationHeartbeatTimeout s = .next (s.markHeartbeat.supFault 0x16).fireAlone := by
    unfold execApplicationHeartbeatTimeout State.markHeartbeat
    rw [if_pos ⟨hruns, by rw [hfresh]; rfl⟩]
  obtain ⟨hmissing, hfire⟩ := State.app_of_watch hwatch
  exact ⟨_, hexec, hmissing, hfire, hcode.trans (State.supFault_shows ..), hhold, hstops.after hfault⟩

/-- Settles O43: each command's guard holds, so its effect is read off its operation; in a pass over the channels of a
die, a channel's own comparison is the one that counts. -/
theorem temperatureAndDoors : Obligations.TemperatureAndDoors := by
  refine ⟨?door, ?limit, ?check, ?fault, ?heartbeat⟩
  case door =>
    intro c s hpop hheld hfree
    exact (doorLimitLatch_gives hpop hheld hfree).framed fun k hk => execDoorLimitLatch_same hk (.refl k s)
  case limit =>
    intro n c codes u s hpop _ hc honce hu hwatched hbeyond hcount
    exact (overTemperatureCheck_gives hpop hc honce hu hwatched hbeyond hcount).framed fun k hk =>
      execOverTemperatureCheck_same hk (.refl k s)
  case check =>
    intro n c m s hpop _ hc honce hwatched hmirror
    exact (temperaturePlausibilityCheck_gives hpop hc honce hwatched hmirror).framed fun k hk =>
      execTemperaturePlausibilityCheck_same hk (.refl k s)
  case fault =>
    intro c s hpop hwatched hheld hfree
    exact (temperaturePlausibilityFault_gives hpop hwatched hheld hfree).framed fun k hk =>
      execTemperaturePlausibilityFault_same hk (.refl k s)
  case heartbeat =>
    intro s hruns hfresh
    exact (applicationHeartbeatTimeout_gives hruns hfresh).framed fun k hk =>
      execApplicationHeartbeatTimeout_same hk (.refl k s)

end Sys2Proof.Machine
end

section
/-! The statement on reset requests: only a write to 0x1203 asks for a reset, and what may write it settles the request. -/

namespace Sys2Proof.Machine

/-! ## What settles a request (R411) -/

theorem State.resetReq_of_same {s t : State} (h : State.Same .resetReq s t) (hs : s.resetReq = {}) : t.resetReq = {} :=
  (show t.resetReq = s.resetReq from h).trans hs

theorem State.restart_resetReq (s : State) (keep : Addr → Bool) (scrub : Bool) : (s.restart keep scrub).resetReq = {} := rfl

theorem State.warm_resetReq (s : State) (kind : Nat) : (s.warm kind).resetReq = {} := by
  unfold State.warm
  extract_lets y ran mask z w v src
  have hz : State.Same .resetReq (y.draw.restart keptWarm true) z := State.note_same (by decide) (.refl _ _)
  have hv : State.Same .resetReq (y.draw.restart keptWarm true) v :=
    each_same hz fun _ _ hy => State.endedByReset_same (by decide) hy
  have hwait (u : State) : State.Same .resetReq u (u.setSup { u.sup with fire := true }).adisDue :=
    State.adisDue_same (by decide) (State.setSup_same (by decide) (.refl _ u))
  exact State.resetReq_of_same (hv.trans (hwait v)) (State.restart_resetReq ..)

theorem State.settle_resetReq (s : State) : s.settle.resetReq = {} := by
  unfold State.settle
  extract_lets r y z m
  split
  case isTrue h => exact h
  case isFalse =>
    have hy : y.resetReq = {} := State.pass_same (k := .resetReq) (by decide) (.refl _ { s with resetReq := {} })
    split
    · exact y.warm_resetReq 2
    · have hz : State.Same .resetReq y z := by
        unfold z
        split
        · exact .refl _ y
        · exact State.resetSites_same rfl (by decide) (.refl _ y)
      split
      · exact State.resetReq_of_same hz hy
      · exact State.resetReq_of_same (hz.trans (State.resetEngines_same (by decide) (.refl _ z))) hy

/-! ## What asks for a reset -/

/-- A write of any object but 0x1203 asks for no reset. -/
theorem numSet_resetReq {src : Src} {i j : Nat} {v : Int} {s : State} {e : Nat} (hi : i ≠ 0x1203) :
    State.Same .resetReq s (numSet src i j v s e) := by
  unfold numSet
  have h := State.Same.refl .resetReq s
  repeat' first
    | with_reducible assumption | exact absurd rfl hi | decide | simp
    | with_reducible apply storeSet_same | with_reducible apply epochSet_same | with_reducible apply powerReqSet_same
    | with_reducible apply canModeSet_same | with_reducible apply State.draw_same
    | with_reducible apply restartSet_same | with_reducible apply cancelSet_same
    | with_reducible apply consumerSet_same | with_reducible apply startSet_same | with_reducible apply stopSet_same
    | with_reducible apply continueSet_same | with_reducible apply removeSet_same
    | with_reducible apply State.clearPeak_same | with_reducible apply checkNowSet_same
    | with_reducible apply commitSet_same | with_reducible apply stageSet_same
    | with_reducible apply diagnoseNowSet_same | with_reducible apply powerSet_same
    | with_reducible apply setpointSet_same | with_reducible apply targetSet_same
    | with_reducible apply referenceSet_same | with_reducible apply resetSet_same
    | with_reducible apply outputSet_same | with_reducible apply contactorSet_same
    | with_reducible apply State.endUnlock_same | with_reducible apply applySet_same
    | with_reducible apply State.mailReply_same | with_reducible apply State.doAck_same
    | with_reducible apply State.flushMail_same | with_reducible apply cursorSet_same
    | with_reducible apply severitySet_same | with_reducible apply unfreezeSet_same
    | with_reducible apply clearSet_same | with_reducible apply dieClearSet_same
    | with_reducible apply fltClearSet_same | with_reducible apply bldcClearSet_same
    | with_reducible apply axisClearSet_same | with_reducible apply revokeSet_same
    | with_reducible apply rollbackSet_same | with_reducible apply preferSet_same
    | with_reducible apply loadEndSet_same | with_reducible apply partitionSet_same
    | with_reducible apply debugLockSet_same | with_reducible apply calibrationSet_same
    | with_reducible apply rwpSet_same | with_reducible apply State.afterMask_same
    | with_reducible apply State.afterPeriod_same | with_reducible apply State.wr_same | split

/-- The rows of 0x1203 are written, not read, and not stored. -/
theorem findRow_resets {j e : Nat} {r : Row} (h : findRow ⟨0x1203, j, e⟩ = some r) : r.acc ≠ .rw ∧ r.persist = false := by
  have hrows : ∀ x ∈ rowsOf (0x1203 / 256), x.index ≤ 0x1203 → 0x1203 < x.index + x.count → x.acc ≠ .rw ∧ x.persist = false := by
    decide +kernel
  have hfind : (rowsOf (0x1203 / 256)).find? (fun r => r.covers 0x1203 j && r.scope.admits e) = some r := h
  have hcovers := List.find?_some hfind
  simp only [Row.covers, Bool.and_eq_true, decide_eq_true_eq] at hcovers
  obtain ⟨⟨⟨⟨hlow, hhigh⟩, _⟩, _⟩, _⟩ := hcovers
  exact hrows r (List.mem_of_find?_eq_some hfind) hlow hhigh

theorem index_of_isZeroClear {i j e : Nat} (h : isZeroClear i j e = true) : i ≠ 0x1203 := by
  rintro rfl
  obtain ⟨r, hrow, hr⟩ := Option.any_eq_true .. |>.1 h
  simp only [Bool.and_eq_true, beq_iff_eq] at hr
  exact (findRow_resets hrow).1 hr.1.1

theorem index_of_restorable {a : Addr} (h : restorable a = true) : a.index ≠ 0x1203 := by
  obtain ⟨i, j, e⟩ := a
  rintro rfl
  unfold restorable stored at h
  simp only [Bool.and_eq_true, Option.any_eq_true] at h
  obtain ⟨⟨⟨r, hrow, hr⟩, _⟩, _⟩ := h
  exact absurd hr (by rw [(findRow_resets hrow).2]; decide)

theorem State.setDefaults_resetReq (s : State) (src : Src) : State.Same .resetReq s (s.setDefaults src) := by
  unfold State.setDefaults
  extract_lets as y z
  have hy : State.Same .resetReq s y := by
    refine each_induct (r := fun y => State.Same .resetReq s y) (.refl _ s) fun y a ha hy => ?_
    obtain ⟨x, hx, rfl⟩ := List.mem_map.1 ha
    exact hy.trans (numSet_resetReq (index_of_restorable (List.mem_filter.1 hx).2))
  exact each_same (show State.Same .resetReq s z from hy) fun _ _ hy => State.admitAfter_same (by decide)
    (State.loadPeriods_same (by decide) hy)

/-! ## The commands (R411, log 29) -/

/-- The commands that may leave the reset request other than it was. -/
def maySettle : Instr → Bool
  | .vsysValid .. | .vsysInvalid .. | .resetN .. | .hubWatchdog .. | .warmReset .. | .siteReset .. | .engineReset .. |
    .wakeToStandby .. | .write .. | .writeRange .. | .segEndWrite .. | .segEndRead .. | .apiCall .. => true
  | _ => false

theorem writeZeroToClear_resetReq (src : Src) (i j : Nat) (e : Inst) (v : Int) (s : State) :
    Gives (.writeZeroToClear src i j e v) s (State.Same .resetReq s) := by
  refine ⟨_, rfl, ?_⟩
  split
  case isTrue h =>
    exact State.writeObj_same (by decide) (.refl _ s) fun y e hy => hy.trans (numSet_resetReq (index_of_isZeroClear h))
  case isFalse => exact .refl _ s

theorem restoreDefaults_resetReq (src : Src) (v : Nat) (s : State) :
    Gives (.restoreDefaults src v) s (State.Same .resetReq s) :=
  ⟨_, rfl, State.writeObj_same (by decide) (.refl _ s) fun y e hy => hy.trans (y.setDefaults_resetReq src)⟩

/-- Every other command leaves the reset request. -/
theorem exec_keepsResetReq (i : Instr) (s : State) (h : maySettle i = false) : Gives i s (State.Same .resetReq s) := by
  cases i with
  | vsysValid => exact absurd h Bool.noConfusion
  | vsysInvalid => exact absurd h Bool.noConfusion
  | vmetPowerOn => exact execVmetPowerOn_same (by decide) (.refl _ s)
  | vmetLoss => exact execVmetLoss_same (by decide) (.refl _ s)
  | qmWatchdogExpiry => exact execQmWatchdogExpiry_same (by decide) (.refl _ s)
  | qmBoot => exact execQmBoot_same (by decide) (.refl _ s)
  | siteFramingProbe => exact execSiteFramingProbe_same (by decide) (.refl _ s)
  | resetN => exact absurd h Bool.noConfusion
  | hubWatchdog => exact absurd h Bool.noConfusion
  | warmReset => exact absurd h Bool.noConfusion
  | siteReset => exact absurd h Bool.noConfusion
  | engineReset => exact absurd h Bool.noConfusion
  | recipeScrub => exact execRecipeScrub_same rfl (by decide) (.refl _ s)
  | bootRomCheck => exact execBootRomCheck_same (by decide) (.refl _ s)
  | residentFirmwareStart => exact execResidentFirmwareStart_same rfl (by decide) (.refl _ s)
  | hingeCTraining => exact execHingeCTraining_same (by decide) (.refl _ s)
  | qcfwCheck => exact execQcfwCheck_same rfl (by decide) (.refl _ s)
  | driverArming => exact execDriverArming_same (by decide) (.refl _ s)
  | echoTimeout => exact execEchoTimeout_same (by decide) (.refl _ s)
  | hingeCReplay => exact execHingeCReplay_same (by decide) (.refl _ s)
  | hingeCLinkFailed => exact execHingeCLinkFailed_same (by decide) (.refl _ s)
  | latchFrameSend => exact execLatchFrameSend_same (by decide) (.refl _ s)
  | heartbeat => exact execHeartbeat_same (by decide) (.refl _ s)
  | heartbeatTimeout => exact execHeartbeatTimeout_same (by decide) (.refl _ s)
  | dieWatchdog => exact execDieWatchdog_same (by decide) (.refl _ s)
  | siteRecovery => exact execSiteRecovery_same rfl (by decide) (.refl _ s)
  | metrologyLinkSilent => exact execMetrologyLinkSilent_same (by decide) (.refl _ s)
  | streamLoss => exact execStreamLoss_same (by decide) (.refl _ s)
  | streamReturn => exact execStreamReturn_same (by decide) (.refl _ s)
  | dcovComparator => exact execDcovComparator_same (by decide) (.refl _ s)
  | dcLinkAboveOv2 => exact execDcLinkAboveOv2_same (by decide) (.refl _ s)
  | safetyStop => exact execSafetyStop_same (by decide) (.refl _ s)
  | segmentStop => exact execSegmentStop_same (by decide) (.refl _ s)
  | segmentStopRequest => exact execSegmentStopRequest_same (by decide) (.refl _ s)
  | regenerationInhibit => exact execRegenerationInhibit_same (by decide) (.refl _ s)
  | doorLimit => exact execDoorLimit_same (by decide) (.refl _ s)
  | regenerationRelease => exact execRegenerationRelease_same (by decide) (.refl _ s)
  | doorRelease => exact execDoorRelease_same (by decide) (.refl _ s)
  | runRelease => exact execRunRelease_same (by decide) (.refl _ s)
  | test => exact execTest_same (by decide) (.refl _ s)
  | testEcho => exact execTestEcho_same (by decide) (.refl _ s)
  | segmentBusFault => exact execSegmentBusFault_same (by decide) (.refl _ s)
  | overTemperature => exact execOverTemperature_same (by decide) (.refl _ s)
  | clockLost => exact execClockLost_same (by decide) (.refl _ s)
  | dabStageLatched => exact execDabStageLatched_same (by decide) (.refl _ s)
  | trailEntry => exact execTrailEntry_same (by decide) (.refl _ s)
  | trailFreeze => exact execTrailFreeze_same (by decide) (.refl _ s)
  | identify => exact execIdentify_same (by decide) (.refl _ s)
  | mailboxRead => exact execMailboxRead_same (by decide) (.refl _ s)
  | mailboxSubscribe => exact execMailboxSubscribe_same (by decide) (.refl _ s)
  | ackRecords => exact execAckRecords_same (by decide) (.refl _ s)
  | cellId => exact execCellId_same (by decide) (.refl _ s)
  | stepStart => exact execStepStart_same (by decide) (.refl _ s)
  | stepClose => exact execStepClose_same (by decide) (.refl _ s)
  | reqAdjustImageSegment => exact execReqAdjustImageSegment_same (by decide) (.refl _ s)
  | enterToken => exact execEnterToken_same (by decide) (.refl _ s)
  | leaveToken => exact execLeaveToken_same (by decide) (.refl _ s)
  | auditAcknowledge => exact execAuditAcknowledge_same (by decide) (.refl _ s)
  | calibrationWrite => exact execCalibrationWrite_same (by decide) (.refl _ s)
  | authorityKeySet => exact execAuthorityKeySet_same (by decide) (.refl _ s)
  | softwareAnnounce => exact execSoftwareAnnounce_same (by decide) (.refl _ s)
  | beacon => exact execBeacon_same (by decide) (.refl _ s)
  | mailboxFrameDiscard => exact execMailboxFrameDiscard_same (by decide) (.refl _ s)
  | qmRecordFrame => exact execQmRecordFrame_same (by decide) (.refl _ s)
  | qmBatchRecordFrame => exact execQmBatchRecordFrame_same (by decide) (.refl _ s)
  | mirrorSet => exact execMirrorSet_same rfl (by decide) (.refl _ s)
  | metrologyEvent => exact execMetrologyEvent_same (by decide) (.refl _ s)
  | integratorSample => exact execIntegratorSample_same (by decide) (.refl _ s)
  | mirrorMeans => exact execMirrorMeans_same (by decide) (.refl _ s)
  | periodicRecord => exact execPeriodicRecord_same (by decide) (.refl _ s)
  | acRecord => exact execAcRecord_same (by decide) (.refl _ s)
  | impedanceRecord => exact execImpedanceRecord_same (by decide) (.refl _ s)
  | checkpoint => exact execCheckpoint_same (by decide) (.refl _ s)
  | batchClose => exact execBatchClose_same (by decide) (.refl _ s)
  | adjEnChange => exact execAdjEnChange_same (by decide) (.refl _ s)
  | adjustmentExpiry => exact execAdjustmentExpiry_same (by decide) (.refl _ s)
  | mclkFault => exact execMclkFault_same (by decide) (.refl _ s)
  | mclkReturn => exact execMclkReturn_same (by decide) (.refl _ s)
  | ident => exact execIdent_same (by decide) (.refl _ s)
  | status => exact execStatus_same (by decide) (.refl _ s)
  | audit => exact execAudit_same (by decide) (.refl _ s)
  | record => exact execRecord_same (by decide) (.refl _ s)
  | batch => exact execBatch_same (by decide) (.refl _ s)
  | proof => exact execProof_same (by decide) (.refl _ s)
  | live => exact execLive_same (by decide) (.refl _ s)
  | ac => exact execAc_same (by decide) (.refl _ s)
  | pubkey => exact execPubkey_same (by decide) (.refl _ s)
  | overlapStart => exact execOverlapStart_same (by decide) (.refl _ s)
  | provisionalTakeover => exact execProvisionalTakeover_same (by decide) (.refl _ s)
  | rotationCommit => exact execRotationCommit_same (by decide) (.refl _ s)
  | freedCalibrationPhase => exact execFreedCalibrationPhase_same (by decide) (.refl _ s)
  | freedCalibrationEnd => exact execFreedCalibrationEnd_same (by decide) (.refl _ s)
  | suspectRecalibration => exact execSuspectRecalibration_same (by decide) (.refl _ s)
  | calibrationAgeEvent => exact execCalibrationAgeEvent_same (by decide) (.refl _ s)
  | pathDiagnosis => exact execPathDiagnosis_same rfl (by decide) (.refl _ s)
  | pathDiagnosisResult => exact execPathDiagnosisResult_same rfl (by decide) (.refl _ s)
  | diagnosisRepeat => exact execDiagnosisRepeat_same rfl (by decide) (.refl _ s)
  | diagnoseNow => exact execDiagnoseNow_same rfl (by decide) (.refl _ s)
  | controlAdcCalibrationWrite => exact execControlAdcCalibrationWrite_same rfl (by decide) (.refl _ s)
  | vdrvUndervoltage => exact execVdrvUndervoltage_same (by decide) (.refl _ s)
  | vdrvRelease => exact execVdrvRelease_same (by decide) (.refl _ s)
  | bootstrapHold => exact execBootstrapHold_same (by decide) (.refl _ s)
  | bootstrapRelease => exact execBootstrapRelease_same (by decide) (.refl _ s)
  | forcedRefresh => exact execForcedRefresh_same (by decide) (.refl _ s)
  | edgeWord => exact execEdgeWord_same (by decide) (.refl _ s)
  | edgeTime => exact execEdgeTime_same (by decide) (.refl _ s)
  | deadTimeTurnOn => exact execDeadTimeTurnOn_same (by decide) (.refl _ s)
  | softComparatorTrip => exact execSoftComparatorTrip_same (by decide) (.refl _ s)
  | hardComparatorTrip => exact execHardComparatorTrip_same (by decide) (.refl _ s)
  | blankingEnd => exact execBlankingEnd_same (by decide) (.refl _ s)
  | checkNow => exact execCheckNow_same (by decide) (.refl _ s)
  | contactCheckStart => exact execContactCheckStart_same (by decide) (.refl _ s)
  | contactCheckPhase => exact execContactCheckPhase_same (by decide) (.refl _ s)
  | contactCheckResult => exact execContactCheckResult_same (by decide) (.refl _ s)
  | periodBoundary => exact execPeriodBoundary_same (by decide) (.refl _ s)
  | midPeriodUpdate => exact execMidPeriodUpdate_same (by decide) (.refl _ s)
  | edgeDecision => exact execEdgeDecision_same (by decide) (.refl _ s)
  | commit => exact execCommit_same (by decide) (.refl _ s)
  | outputStart => exact execOutputStart_same (by decide) (.refl _ s)
  | outputStop => exact execOutputStop_same (by decide) (.refl _ s)
  | faultSourceAssert => exact execFaultSourceAssert_same (by decide) (.refl _ s)
  | faultSourceDeassert => exact execFaultSourceDeassert_same (by decide) (.refl _ s)
  | fltInput => exact execFltInput_same (by decide) (.refl _ s)
  | debugHalt => exact execDebugHalt_same (by decide) (.refl _ s)
  | debugResume => exact execDebugResume_same (by decide) (.refl _ s)
  | release => exact execRelease_same (by decide) (.refl _ s)
  | jobStart => exact execJobStart_same (by decide) (.refl _ s)
  | jobEnd => exact execJobEnd_same (by decide) (.refl _ s)
  | engineFault => exact execEngineFault_same (by decide) (.refl _ s)
  | nop => exact execNop_same (by decide) (.refl _ s)
  | lds => exact execLds_same (by decide) (.refl _ s)
  | ldp => exact execLdp_same (by decide) (.refl _ s)
  | ldw => exact execLdw_same (by decide) (.refl _ s)
  | stw => exact execStw_same (by decide) (.refl _ s)
  | ldi => exact execLdi_same (by decide) (.refl _ s)
  | ldh => exact execLdh_same (by decide) (.refl _ s)
  | mov => exact execMov_same (by decide) (.refl _ s)
  | add => exact execAdd_same (by decide) (.refl _ s)
  | sub => exact execSub_same (by decide) (.refl _ s)
  | mul => exact execMul_same (by decide) (.refl _ s)
  | mac => exact execMac_same (by decide) (.refl _ s)
  | acc => exact execAcc_same (by decide) (.refl _ s)
  | sta => exact execSta_same (by decide) (.refl _ s)
  | min => exact execMin_same (by decide) (.refl _ s)
  | max => exact execMax_same (by decide) (.refl _ s)
  | lim => exact execLim_same (by decide) (.refl _ s)
  | shf => exact execShf_same (by decide) (.refl _ s)
  | flt => exact execFlt_same (by decide) (.refl _ s)
  | bqd => exact execBqd_same (by decide) (.refl _ s)
  | pi => exact execPi_same (by decide) (.refl _ s)
  | div => exact execDiv_same (by decide) (.refl _ s)
  | crv => exact execCrv_same (by decide) (.refl _ s)
  | cmp => exact execCmp_same (by decide) (.refl _ s)
  | br => exact execBr_same (by decide) (.refl _ s)
  | trm => exact execTrm_same (by decide) (.refl _ s)
  | edg => exact execEdg_same (by decide) (.refl _ s)
  | cmt => exact execCmt_same (by decide) (.refl _ s)
  | lat => exact execLat_same (by decide) (.refl _ s)
  | pub => exact execPub_same (by decide) (.refl _ s)
  | ldg => exact execLdg_same (by decide) (.refl _ s)
  | yld => exact execYld_same (by decide) (.refl _ s)
  | descriptorLoad => exact execDescriptorLoad_same (by decide) (.refl _ s)
  | descriptorRemove => exact execDescriptorRemove_same rfl (by decide) (.refl _ s)
  | curveTableLoad => exact execCurveTableLoad_same (by decide) (.refl _ s)
  | samplesStale => exact execSamplesStale_same (by decide) (.refl _ s)
  | followingError => exact execFollowingError_same (by decide) (.refl _ s)
  | voltageLimit => exact execVoltageLimit_same (by decide) (.refl _ s)
  | plausibilityFault => exact execPlausibilityFault_same (by decide) (.refl _ s)
  | plausibilityUnavailable => exact execPlausibilityUnavailable_same (by decide) (.refl _ s)
  | recipeLoad => exact execRecipeLoad_same rfl (by decide) (.refl _ s)
  | runStart => exact execRunStart_same (by decide) (.refl _ s)
  | runStop => exact execRunStop_same (by decide) (.refl _ s)
  | runContinue => exact execRunContinue_same (by decide) (.refl _ s)
  | milestoneClose => exact execMilestoneClose_same (by decide) (.refl _ s)
  | groupWaitLimit => exact execGroupWaitLimit_same (by decide) (.refl _ s)
  | groupStart => exact execGroupStart_same (by decide) (.refl _ s)
  | windowCrossing => exact execWindowCrossing_same (by decide) (.refl _ s)
  | ov1Release => exact execOv1Release_same (by decide) (.refl _ s)
  | dcovTrip => exact execDcovTrip_same (by decide) (.refl _ s)
  | dcovRelease => exact execDcovRelease_same (by decide) (.refl _ s)
  | crossCheckDisagreement => exact execCrossCheckDisagreement_same (by decide) (.refl _ s)
  | hubSamplesStale => exact execHubSamplesStale_same (by decide) (.refl _ s)
  | gridLocked => exact execGridLocked_same (by decide) (.refl _ s)
  | gridLoss => exact execGridLoss_same (by decide) (.refl _ s)
  | powerStart => exact execPowerStart_same (by decide) (.refl _ s)
  | powerStop => exact execPowerStop_same (by decide) (.refl _ s)
  | gridSyncTimeout => exact execGridSyncTimeout_same (by decide) (.refl _ s)
  | prechargeComplete => exact execPrechargeComplete_same (by decide) (.refl _ s)
  | prechargeTimeout => exact execPrechargeTimeout_same (by decide) (.refl _ s)
  | mainContactorClosed => exact execMainContactorClosed_same (by decide) (.refl _ s)
  | afeRampComplete => exact execAfeRampComplete_same (by decide) (.refl _ s)
  | segmentBusesReady => exact execSegmentBusesReady_same (by decide) (.refl _ s)
  | controlledStop => exact execControlledStop_same (by decide) (.refl _ s)
  | segmentStopDelay => exact execSegmentStopDelay_same (by decide) (.refl _ s)
  | contactorsOpen => exact execContactorsOpen_same (by decide) (.refl _ s)
  | dcLinkUndervoltage => exact execDcLinkUndervoltage_same (by decide) (.refl _ s)
  | vdcUpdate => exact execVdcUpdate_same (by decide) (.refl _ s)
  | dabAtLimit => exact execDabAtLimit_same (by decide) (.refl _ s)
  | dabSamplesStale => exact execDabSamplesStale_same (by decide) (.refl _ s)
  | chopperOpen => exact execChopperOpen_same (by decide) (.refl _ s)
  | chopperShort => exact execChopperShort_same (by decide) (.refl _ s)
  | chopperOverload => exact execChopperOverload_same (by decide) (.refl _ s)
  | dischargeNoCurrent => exact execDischargeNoCurrent_same (by decide) (.refl _ s)
  | dischargeRelease => exact execDischargeRelease_same (by decide) (.refl _ s)
  | dischargeExhausted => exact execDischargeExhausted_same (by decide) (.refl _ s)
  | zeroCrossing => exact execZeroCrossing_same (by decide) (.refl _ s)
  | commutation => exact execCommutation_same (by decide) (.refl _ s)
  | listenEnd => exact execListenEnd_same (by decide) (.refl _ s)
  | brakeWindow => exact execBrakeWindow_same (by decide) (.refl _ s)
  | brakeFailed => exact execBrakeFailed_same (by decide) (.refl _ s)
  | alignEnd => exact execAlignEnd_same (by decide) (.refl _ s)
  | rampFailed => exact execRampFailed_same (by decide) (.refl _ s)
  | lockedRotor => exact execLockedRotor_same (by decide) (.refl _ s)
  | retryDelayEnd => exact execRetryDelayEnd_same (by decide) (.refl _ s)
  | retryCountReset => exact execRetryCountReset_same (by decide) (.refl _ s)
  | loadFault => exact execLoadFault_same (by decide) (.refl _ s)
  | speedSetpoint => exact execSpeedSetpoint_same (by decide) (.refl _ s)
  | auxSamplesStale => exact execAuxSamplesStale_same (by decide) (.refl _ s)
  | targetPosition => exact execTargetPosition_same (by decide) (.refl _ s)
  | stepEdge => exact execStepEdge_same (by decide) (.refl _ s)
  | inputOverrun => exact execInputOverrun_same (by decide) (.refl _ s)
  | limitSwitch => exact execLimitSwitch_same (by decide) (.refl _ s)
  | holdDelay => exact execHoldDelay_same (by decide) (.refl _ s)
  | referencePosition => exact execReferencePosition_same (by decide) (.refl _ s)
  | sto => exact execSto_same (by decide) (.refl _ s)
  | stoRelease => exact execStoRelease_same (by decide) (.refl _ s)
  | ss1 => exact execSs1_same (by decide) (.refl _ s)
  | ss1Time => exact execSs1Time_same (by decide) (.refl _ s)
  | supervisorCycle => exact execSupervisorCycle_same (by decide) (.refl _ s)
  | inputDemand => exact execInputDemand_same (by decide) (.refl _ s)
  | inputDemandEnd => exact execInputDemandEnd_same (by decide) (.refl _ s)
  | safetyStopDelay => exact execSafetyStopDelay_same (by decide) (.refl _ s)
  | contactorOpenDelay => exact execContactorOpenDelay_same (by decide) (.refl _ s)
  | adisDelay => exact execAdisDelay_same (by decide) (.refl _ s)
  | inputFault => exact execInputFault_same (by decide) (.refl _ s)
  | testPulse => exact execTestPulse_same (by decide) (.refl _ s)
  | discrepancyFault => exact execDiscrepancyFault_same (by decide) (.refl _ s)
  | inputRecovery => exact execInputRecovery_same (by decide) (.refl _ s)
  | doorLimitLatch => exact execDoorLimitLatch_same (by decide) (.refl _ s)
  | overTemperatureCheck => exact execOverTemperatureCheck_same (by decide) (.refl _ s)
  | temperaturePlausibilityCheck => exact execTemperaturePlausibilityCheck_same (by decide) (.refl _ s)
  | temperaturePlausibilityFault => exact execTemperaturePlausibilityFault_same (by decide) (.refl _ s)
  | applicationHeartbeatTimeout => exact execApplicationHeartbeatTimeout_same (by decide) (.refl _ s)
  | safetyReset => exact execSafetyReset_same (by decide) (.refl _ s)
  | resetRequest => exact execResetRequest_same (by decide) (.refl _ s)
  | safeOutputRequest => exact execSafeOutputRequest_same (by decide) (.refl _ s)
  | offPulse => exact execOffPulse_same (by decide) (.refl _ s)
  | offPulseEnd => exact execOffPulseEnd_same (by decide) (.refl _ s)
  | outputFault => exact execOutputFault_same (by decide) (.refl _ s)
  | contactorRequest => exact execContactorRequest_same (by decide) (.refl _ s)
  | contactorTimeout => exact execContactorTimeout_same (by decide) (.refl _ s)
  | contactorFault => exact execContactorFault_same (by decide) (.refl _ s)
  | weldedContact => exact execWeldedContact_same (by decide) (.refl _ s)
  | lockstepFault => exact execLockstepFault_same (by decide) (.refl _ s)
  | supervisorClockFault => exact execSupervisorClockFault_same (by decide) (.refl _ s)
  | supervisorWatchdog => exact execSupervisorWatchdog_same (by decide) (.refl _ s)
  | memoryFault => exact execMemoryFault_same (by decide) (.refl _ s)
  | hSafeSupplyFault => exact execHSafeSupplyFault_same (by decide) (.refl _ s)
  | unlock => exact execUnlock_same (by decide) (.refl _ s)
  | passwordChange => exact execPasswordChange_same (by decide) (.refl _ s)
  | lock => exact execLock_same (by decide) (.refl _ s)
  | rwpWrite => exact execRwpWrite_same (by decide) (.refl _ s)
  | apply => exact execApply_same rfl (by decide) (.refl _ s)
  | unlockTimeout => exact execUnlockTimeout_same (by decide) (.refl _ s)
  | lockoutEnd => exact execLockoutEnd_same (by decide) (.refl _ s)
  | refclkAbsent => exact execRefclkAbsent_same (by decide) (.refl _ s)
  | refclkPresent => exact execRefclkPresent_same (by decide) (.refl _ s)
  | xtal32Failed => exact execXtal32Failed_same (by decide) (.refl _ s)
  | xtal32Return => exact execXtal32Return_same (by decide) (.refl _ s)
  | lockWindow => exact execLockWindow_same (by decide) (.refl _ s)
  | coastLimit => exact execCoastLimit_same (by decide) (.refl _ s)
  | sync => exact execSync_same (by decide) (.refl _ s)
  | syncTimeout => exact execSyncTimeout_same (by decide) (.refl _ s)
  | ltStep => exact execLtStep_same (by decide) (.refl _ s)
  | carrierEpoch => exact execCarrierEpoch_same (by decide) (.refl _ s)
  | epochPeriod => exact execEpochPeriod_same (by decide) (.refl _ s)
  | restEntry => exact execRestEntry_same (by decide) (.refl _ s)
  | windowLeft => exact execWindowLeft_same (by decide) (.refl _ s)
  | restWakeTimer => exact execRestWakeTimer_same (by decide) (.refl _ s)
  | busWithinSetpoint => exact execBusWithinSetpoint_same (by decide) (.refl _ s)
  | runRequest => exact execRunRequest_same (by decide) (.refl _ s)
  | standbyRequest => exact execStandbyRequest_same (by decide) (.refl _ s)
  | sleepRequest => exact execSleepRequest_same (by decide) (.refl _ s)
  | standbyEntry => exact execStandbyEntry_same (by decide) (.refl _ s)
  | sleepWake => exact execSleepWake_same (by decide) (.refl _ s)
  | sleepWakeTimer => exact execSleepWakeTimer_same (by decide) (.refl _ s)
  | wakeToStandby => exact absurd h Bool.noConfusion
  | vioUndervoltage => exact execVioUndervoltage_same (by decide) (.refl _ s)
  | vioRecovery => exact execVioRecovery_same (by decide) (.refl _ s)
  | hubOverTemperature => exact execHubOverTemperature_same (by decide) (.refl _ s)
  | read => exact execRead_same (by decide) (.refl _ s)
  | write => exact absurd h Bool.noConfusion
  | readRange => exact execReadRange_same (by decide) (.refl _ s)
  | writeRange => exact absurd h Bool.noConfusion
  | segInitWrite => exact execSegInitWrite_same (by decide) (.refl _ s)
  | segInitRead => exact execSegInitRead_same (by decide) (.refl _ s)
  | segDataWrite => exact execSegDataWrite_same (by decide) (.refl _ s)
  | segDataRead => exact execSegDataRead_same (by decide) (.refl _ s)
  | segEndWrite => exact absurd h Bool.noConfusion
  | segEndRead => exact absurd h Bool.noConfusion
  | subscribe => exact execSubscribe_same (by decide) (.refl _ s)
  | notify => exact execNotify_same (by decide) (.refl _ s)
  | recordStreamPublish => exact execRecordStreamPublish_same (by decide) (.refl _ s)
  | abortTransfer => exact execAbortTransfer_same (by decide) (.refl _ s)
  | abortSession => exact execAbortSession_same (by decide) (.refl _ s)
  | sessionOpenStage1 => exact execSessionOpenStage1_same (by decide) (.refl _ s)
  | sessionOpenStage3 => exact execSessionOpenStage3_same (by decide) (.refl _ s)
  | datagramDiscard => exact execDatagramDiscard_same (by decide) (.refl _ s)
  | transferTimeout => exact execTransferTimeout_same (by decide) (.refl _ s)
  | handshakeTimeout => exact execHandshakeTimeout_same (by decide) (.refl _ s)
  | sessionIdleTimeout => exact execSessionIdleTimeout_same (by decide) (.refl _ s)
  | keptReplyExpiry => exact execKeptReplyExpiry_same (by decide) (.refl _ s)
  | store => exact execStore_same (by decide) (.refl _ s)
  | storeComplete => exact execStoreComplete_same (by decide) (.refl _ s)
  | restoreDefaults => exact restoreDefaults_resetReq ..
  | hostKeySlot => exact execHostKeySlot_same (by decide) (.refl _ s)
  | canMode => exact execCanMode_same (by decide) (.refl _ s)
  | transmitSubmit => exact execTransmitSubmit_same (by decide) (.refl _ s)
  | cancel => exact execCancel_same (by decide) (.refl _ s)
  | cancelAll => exact execCancelAll_same (by decide) (.refl _ s)
  | deadlineExpiry => exact execDeadlineExpiry_same (by decide) (.refl _ s)
  | arbitrationLost => exact execArbitrationLost_same (by decide) (.refl _ s)
  | frameReceived => exact execFrameReceived_same (by decide) (.refl _ s)
  | frameSent => exact execFrameSent_same (by decide) (.refl _ s)
  | busError => exact execBusError_same (by decide) (.refl _ s)
  | busOffRecovery => exact execBusOffRecovery_same (by decide) (.refl _ s)
  | restart => exact execRestart_same (by decide) (.refl _ s)
  | ringConsumer => exact execRingConsumer_same (by decide) (.refl _ s)
  | customerRootWrite => exact execCustomerRootWrite_same (by decide) (.refl _ s)
  | customerRootRevoke => exact execCustomerRootRevoke_same (by decide) (.refl _ s)
  | rollbackCommit => exact execRollbackCommit_same (by decide) (.refl _ s)
  | preferredSlot => exact execPreferredSlot_same (by decide) (.refl _ s)
  | loadBegin => exact execLoadBegin_same (by decide) (.refl _ s)
  | loadPiece => exact execLoadPiece_same (by decide) (.refl _ s)
  | loadEnd => exact execLoadEnd_same (by decide) (.refl _ s)
  | loadAbandon => exact execLoadAbandon_same (by decide) (.refl _ s)
  | partitionStart => exact execPartitionStart_same (by decide) (.refl _ s)
  | partitionStop => exact execPartitionStop_same (by decide) (.refl _ s)
  | partitionFault => exact execPartitionFault_same (by decide) (.refl _ s)
  | apiCall => exact absurd h Bool.noConfusion
  | debugToken => exact execDebugToken_same (by decide) (.refl _ s)
  | debugLock => exact execDebugLock_same (by decide) (.refl _ s)
  | idcode => exact execIdcode_same (by decide) (.refl _ s)
  | bypass => exact execBypass_same (by decide) (.refl _ s)
  | samplePreload => exact execSamplePreload_same (by decide) (.refl _ s)
  | extest => exact execExtest_same (by decide) (.refl _ s)
  | attestationNonce => exact execAttestationNonce_same (by decide) (.refl _ s)
  | attestationReport => exact execAttestationReport_same (by decide) (.refl _ s)
  | readCursor => exact execReadCursor_same (by decide) (.refl _ s)
  | freezeSeverity => exact execFreezeSeverity_same (by decide) (.refl _ s)
  | unfreeze => exact execUnfreeze_same (by decide) (.refl _ s)
  | writeZeroToClear => exact writeZeroToClear_resetReq ..
  | channelLatchClear => exact execChannelLatchClear_same (by decide) (.refl _ s)
  | dieClear => exact execDieClear_same (by decide) (.refl _ s)
  | fltGroupClear => exact execFltGroupClear_same (by decide) (.refl _ s)
  | bldcClear => exact execBldcClear_same (by decide) (.refl _ s)
  | axisClear => exact execAxisClear_same (by decide) (.refl _ s)
  | supervisorStart => exact execSupervisorStart_same (by decide) (.refl _ s)
  | hubAdcConversion => exact execHubAdcConversion_same (by decide) (.refl _ s)
  | dcovTestEnd => exact execDcovTestEnd_same (by decide) (.refl _ s)
  | bestMasterClock => exact execBestMasterClock_same (by decide) (.refl _ s)
  | switchForward => exact execSwitchForward_same (by decide) (.refl _ s)
  | arpNdpIcmpEcho => exact execArpNdpIcmpEcho_same (by decide) (.refl _ s)
  | unknownOpcode => exact execUnknownOpcode_same (by decide) (.refl _ s)
  | unknownCommand => exact execUnknownCommand_same (by decide) (.refl _ s)

theorem State.resetReq_ite {s t : State} {c : Prop} [Decidable c] (hs : s.resetReq = {}) (ht : t.resetReq = {}) :
    (if c then s else t).resetReq = {} := by
  split
  · exact hs
  · exact ht

theorem State.powerOn_resetReq (s : State) (mv : List Nat) : (s.powerOn mv).resetReq = {} := by
  unfold State.powerOn
  extract_lets src y z w
  have hbanks : State.Same .resetReq z (z.readBanks mv) := State.readBanks_same (by decide) (.refl _ z)
  have hw : State.Same .resetReq z w := State.wr_same (by decide) (State.newNonce_same (by decide) hbanks)
  exact State.resetReq_of_same (hw.trans (State.note_same (by decide) (.refl _ w))) (State.restart_resetReq ..)

theorem State.segEnd_resetReq {s : State} (h : s.resetReq = {}) (src : Src) (t : Nat) (crc : Option Nat) :
    (s.segEnd src t crc).resetReq = {} := by
  cases src with
  | keyway => exact State.settle_resetReq _
  | user => exact h
  | service => exact h

/-- From a state with no request, a command that may change the request has settled it. -/
theorem exec_settles (i : Instr) (s : State) (hi : maySettle i = true) (h : s.resetReq = {}) :
    Gives i s fun t => t.resetReq = {} := by
  cases i with
  | vsysValid mv => exact ⟨_, rfl, State.resetReq_ite h (s.powerOn_resetReq mv)⟩
  | vsysInvalid => exact ⟨_, rfl, State.resetReq_ite rfl h⟩
  | resetN => exact ⟨_, rfl, State.resetReq_ite h (State.resetReq_ite (s.warm_resetReq 1)
      (State.resetReq_ite (s.draw.warm_resetReq 1) h))⟩
  | hubWatchdog => exact ⟨_, rfl, State.resetReq_ite (s.warm_resetReq 3) h⟩
  | warmReset => exact ⟨_, rfl, State.settle_resetReq _⟩
  | siteReset => exact ⟨_, rfl, State.settle_resetReq _⟩
  | engineReset => exact ⟨_, rfl, State.settle_resetReq _⟩
  | wakeToStandby => exact ⟨_, rfl, State.resetReq_ite (State.resetReq_ite (State.resetReq_of_same (State.mail_same
      (by decide) (.refl _ _)) h) (s.restart_resetReq keptWarm true)) h⟩
  | write => exact ⟨_, rfl, State.settle_resetReq _⟩
  | writeRange => exact ⟨_, rfl, State.settle_resetReq _⟩
  | segEndWrite src => exact ⟨_, rfl, State.segEnd_resetReq h src ..⟩
  | segEndRead src => exact ⟨_, rfl, State.segEnd_resetReq h src ..⟩
  | apiCall span payload =>
    cases payload with
    | none => exact ⟨_, rfl, State.resetReq_of_same (State.readReq_same (by decide) (.refl _ s)) h⟩
    | some b => exact ⟨_, rfl, State.settle_resetReq _⟩
  | _ => exact absurd hi Bool.noConfusion

/-- Settles O7: a step is a count of time, which touches no request, or a command, and a command either leaves the
request or settles it. -/
theorem noResetRequestWaits : Obligations.NoResetRequestWaits := by
  intro s t hs hstep
  obtain ⟨_, rfl⟩ | ⟨c, rest, _, hc⟩ := step_cases hstep
  · exact State.resetReq_of_same (State.tick_same (by decide) (.refl _ s)) hs
  · cases hi : maySettle c
    case false => exact State.resetReq_of_same ((exec_keepsResetReq c _ hi).of_exec hc) hs
    case true => exact (exec_settles c { s with pending := rest } hi hs).of_exec hc

end Sys2Proof.Machine
end

section
/-! The statements on the step, the values that reset leaves, and the ring of a CAN port. -/

namespace Sys2Proof.Machine

/-- Settles O1, by the two cases of the queue. -/
theorem stepRunsTheFrontCommand : Obligations.StepRunsTheFrontCommand := by
  refine ⟨fun c rest s => rfl, fun s hempty => ?_⟩
  rw [step, hempty]

/-- Settles O2: no register is set at reset, so each reads the default of its row. -/
theorem resetValues : Obligations.ResetValues := by
  have hlimits : ∀ c < 0x180, State.reset.rd 0x4032 0 c = 60000 := by decide +kernel
  have hdead : ∀ n, 1 ≤ n → n ≤ 6 → State.reset.rd 0x2800 1 (siteI n) = 8 := by
    have hsites : ∀ n < 7, 1 ≤ n → State.reset.rd 0x2800 1 (siteI n) = 8 := by decide +kernel
    exact fun n hlow hhigh => hsites n (by omega) hlow
  refine ⟨rfl, rfl, rfl, rfl, rfl, rfl, rfl, ?_, ?_, hlimits, hdead, ?_, ?_, ?_, ?_, ?_, ?_⟩
  all_goals decide +kernel

/-- Settles O11: every command is carried out, whatever else it keeps. -/
theorem everyCommandAnswersANextState : Obligations.EveryCommandAnswersANextState := by
  intro c s
  obtain ⟨t, hnext, _⟩ := exec_keeps c s
  exact ⟨t, hnext⟩

/-! ## The ring of a CAN port (R465) -/

theorem lookup?_put_ne {α : Type} (t : Tbl α) {k i : Nat} (v : α) (h : i ≠ k) : lookup? i (put t k v) = lookup? i t :=
  lookup?_insertBy_ne id v h t

theorem State.port_inc (s : State) (i j e w p : Nat) : (s.inc i j e w).port p = s.port p := rfl

theorem State.rd_inc_self (s : State) (i j e w : Nat) : (s.inc i j e w).rd i j e = (s.rd i j e + 1) % 2 ^ w :=
  State.rd_wr_self ..

section
variable {p : Nat} {e : RingEntry} {s : State}

/-- A full ring drops the entry and counts it. -/
theorem State.ringPut_of_full
    (h : (s.rdN 0x1418 (p + 1) dev + 65536 - s.rdN 0x1419 (p + 1) dev) % 65536 = 4096) :
    s.ringPut p e = (s.setPort p { s.port p with gap := true }).inc 0x141B (p + 1) dev :=
  if_pos h

/-- A ring with room stores the entry at the producer's place. -/
theorem State.ringPut_of_room
    (h : (s.rdN 0x1418 (p + 1) dev + 65536 - s.rdN 0x1419 (p + 1) dev) % 65536 ≠ 4096) :
    s.ringPut p e = (s.setPort p { s.port p with
      ring := put (s.port p).ring (s.rdN 0x1418 (p + 1) dev % 4096) { e with gap := (s.port p).gap },
      gap := false }).inc 0x1418 (p + 1) dev 16 :=
  if_neg h

end

/-- Settles O10: the producer's place is none of the unread ones while the ring has room, and a full ring stores
nothing. -/
theorem theCanRingNeverOverwrites : Obligations.TheCanRingNeverOverwrites := by
  intro p e s
  refine ⟨fun k hk hfill => ?_, fun hfull => ?_, fun hroom => ?_⟩
  · by_cases hfull : (s.rdN 0x1418 (p + 1) dev + 65536 - s.rdN 0x1419 (p + 1) dev) % 65536 = 4096
    · rw [State.ringPut_of_full hfull, State.port_inc, State.port_setPort]
    · have hne : (s.rdN 0x1419 (p + 1) dev + k) % 4096 ≠ s.rdN 0x1418 (p + 1) dev % 4096 := by omega
      rw [State.ringPut_of_room hfull, State.port_inc, State.port_setPort, lookup?_put_ne _ _ hne]
  · rw [State.ringPut_of_full hfull, State.port_inc, State.port_setPort, State.rd_inc_self]
    exact ⟨rfl, rfl, rfl, State.rd_wr_ne _ _ (by simp)⟩
  · rw [State.ringPut_of_room hroom, State.port_inc, State.port_setPort, State.rd_inc_self]
    exact ⟨lookup?_put_self .., rfl, rfl⟩

end Sys2Proof.Machine
end

section
/-! SUPPORT. What a served request leaves of the network side beyond sessions and replies. -/

namespace Sys2Proof.Machine

/-- The network side but for what serving a request writes: the sessions, the datagrams handed over, the local reply, and
the store's waiting answer. -/
def State.netCore (s : State) : Net :=
  { s.net with sessions := [], out := [], local' := none, storeBy := none, storeAck := (0, 0, 0) }

theorem State.netCore_of_same {s t : State} (h : State.Same .net s t) : t.netCore = s.netCore := by
  rw [State.netCore, State.netCore, show t.net = s.net from h]

theorem State.netCore_hear (s : State) (src : Src) : (s.hear src).netCore = s.netCore := by
  unfold State.hear
  split
  · split
    · rfl
    · rfl
  · rfl
  · rfl

theorem State.netCore_atRequest (s : State) (src : Src) : (s.atRequest src).netCore = s.netCore :=
  s.clearOut.netCore_hear src

theorem State.netCore_answer (s : State) (src : Src) (op st f l : Nat) (p : List Byte) :
    (s.answer src op st f l p).netCore = s.netCore := by
  unfold State.answer
  split
  · split
    · rfl
    · rfl
  · rfl
  · rfl

theorem State.netCore_executed (s : State) (src : Src) : (s.executed src).netCore = s.netCore := by
  unfold State.executed
  split
  · split
    · rfl
    · rfl
  · rfl
  · rfl

/-- A request that is carried out leaves of the network side what its operation leaves. -/
theorem State.netCore_execute {s : State} {src : Src} {op f l : Nat} {k : State → Outcome'} {t : State} {p : List Byte}
    (h : k s = (t, .ok p)) : (s.execute src op f l k).netCore = t.netCore := by
  unfold State.execute
  rw [h]
  dsimp only
  split
  · exact State.netCore_executed ..
  · exact State.netCore_answer ..

theorem State.netCore_serve {s : State} {src : Src} {op f l : Nat} {k : State → Ans} {t : State} {p : List Byte}
    (hears : s.Hears src) (h : k (s.atRequest src) = .ok (t, p)) : (s.serve src op f l k).netCore = t.netCore := by
  unfold State.serve State.serveWith
  simp only [hears.reached, hears.served, if_true]
  refine State.netCore_execute (p := p) ?_
  unfold State.atRequest at h
  rw [h]
  rfl

theorem State.netCore_writeObj {s : State} {src : Src} {i j : Nat} {es : List Nat} {v : Int} {own : State → Nat → Nat}
    {eff : State → Nat → State} (h : s.Accepts src i j es v own) :
    (s.writeObj src i j es v own eff).netCore = (each es (fun s e => eff (s.touch e) e) (s.atRequest src)).netCore := by
  unfold State.writeObj
  refine State.netCore_serve (p := []) h.hears ?_
  rw [h.passes]
  rfl

theorem State.netCore_writeBlob {s : State} {src : Src} {i j : Nat} {es : List Nat} {b : List Byte}
    {own : State → Nat → Nat} {eff : State → Nat → State} (h : s.AcceptsBlob src i j es b own) :
    (s.writeBlob src i j es b own eff).netCore = (each es (fun s e => eff (s.touch e) e) (s.atRequest src)).netCore := by
  unfold State.writeBlob
  refine State.netCore_serve (p := []) h.hears ?_
  rw [h.passes]
  rfl

end Sys2Proof.Machine
end

section
/-! The statement on the safety password, the pending set and its timeouts. -/

namespace Sys2Proof.Machine

/-! ## The unlock and the lockbox (R366, R367) -/

theorem State.unlock_of_core {s t : State} (h : t.netCore = s.netCore) :
    t.net.unlockBy = s.net.unlockBy ∧ t.net.unlockLt = s.net.unlockLt :=
  ⟨(congrArg Net.unlockBy h : t.netCore.unlockBy = s.netCore.unlockBy),
    (congrArg Net.unlockLt h : t.netCore.unlockLt = s.netCore.unlockLt)⟩

theorem State.countWrong_none (s : State) (src : Src) : s.countWrong src none = s := if_neg (by simp)

theorem State.endUnlock_effect (s : State) : s.endUnlock.net.unlockBy = none ∧ s.endUnlock.lockbox.pending = [] := ⟨rfl, rfl⟩

/-- An unlock is the sender's, from the time of the request, with no wrong password counted (R367). -/
theorem unlockSet_effect (src : Src) (s : State) (e : Nat) : (unlockSet src s e).net.unlockBy = some src ∧
    (unlockSet src s e).net.unlockLt = s.lt ∧ (unlockSet src s e).rd 0x40F0 6 dev = 0 := by
  unfold unlockSet
  extract_lets y z net
  have hy : y.rd 0x40F0 6 dev = 0 := State.rd_wr_self ..
  have hlt : State.Same .clock s y := State.wr_same (by decide) (State.endLockout_same (by decide) (.refl _ s))
  have hz {k : Part} (hk : k ∉ [.lockbox, .net]) : State.Same k y z := by
    unfold z
    split
    · exact .refl k y
    · exact State.endUnlock_same hk (.refl k y)
  have hclock : State.Same .clock s z := hlt.trans (hz (by decide))
  exact ⟨rfl, congrArg Clock.lt hclock, (State.rd_of_same (hz (by decide)) 6 dev).trans hy⟩

theorem unlock_gives {s : State} {src : Src} {pw : List Byte}
    (hacc : s.AcceptsBlob src 0x40F0 1 [dev] pw (fun _ e => unlockCheck pw s e))
    (hright : s.blobChecks src 0x40F0 1 [dev] pw (unlockCheck pw) = none) :
    Gives (.unlock src pw) s fun t =>
      t.net.unlockBy = some src ∧ t.net.unlockLt = s.lt ∧ t.rd 0x40F0 6 dev = 0 := by
  have hexec : execUnlock src pw s =
      .next (s.writeBlob src 0x40F0 1 [dev] pw (fun _ e => unlockCheck pw s e) (unlockSet src)) := by
    rw [execUnlock, hright, State.countWrong_none]
  have hnet := (State.writeBlob_ok (eff := unlockSet src) hacc).frame
  obtain ⟨hby, hat⟩ := State.unlock_of_core (State.netCore_writeBlob (eff := unlockSet src) hacc)
  obtain ⟨hby', hat', hcount⟩ := unlockSet_effect src ((s.atRequest src).touch dev) dev
  have hlt : ((s.atRequest src).touch dev).lt = s.lt :=
    congrArg Clock.lt (show _ = s.clock from s.touch_atRequest_same (p := .clock) src dev (by decide))
  exact ⟨_, hexec, hby.trans hby', (hat.trans hat').trans hlt,
    (State.rd_of_same (hnet (.reg 0x40F0) (by decide)) 6 dev).trans hcount⟩

/-- A log entry leaves the password and what is pending. -/
theorem State.logEntry_lockbox (s : State) (src : Src) (kind : Nat) (a : Addr) (old new' : Int) :
    (s.logEntry src kind a old new').lockbox.salt = s.lockbox.salt ∧
      (s.logEntry src kind a old new').lockbox.hash = s.lockbox.hash ∧
      (s.logEntry src kind a old new').lockbox.pending = s.lockbox.pending := ⟨rfl, rfl, rfl⟩

theorem passwordSet_effect (src : Src) (b : List Byte) (s : State) (e : Nat) :
    (passwordSet src b s e).rd 0x40F0 6 dev = 0 ∧
      (passwordSet src b s e).lockbox.salt = (List.range 16).map (Config.freeByte s.free) ∧
      (passwordSet src b s e).lockbox.hash =
        some (sha3 ((List.range 16).map (Config.freeByte s.free) ++ newPassword b)) := by
  unfold passwordSet State.logEvent
  extract_lets salt y src
  refine ⟨?_, ?_, ?_⟩
  · rw [State.rd_of_same (State.logEntry_same (by decide) (.refl _ _))]
    exact State.rd_wr_self ..
  · exact (State.logEntry_lockbox ..).1
  · exact (State.logEntry_lockbox ..).2.1

theorem passwordChange_gives {s : State} {src : Src} {b : List Byte}
    (hacc : s.AcceptsBlob src 0x40F0 2 [dev] b (fun _ e => passwordCheck b s e))
    (hright : s.blobChecks src 0x40F0 2 [dev] b (passwordCheck b) = none) :
    Gives (.passwordChange src b) s fun t => t.rd 0x40F0 6 dev = 0 ∧ ∃ salt, t.lockbox.salt = salt ∧
      salt.length = 16 ∧ t.lockbox.hash = some (sha3 (salt ++ newPassword b)) := by
  have hexec : execPasswordChange src b s =
      .next (s.writeBlob src 0x40F0 2 [dev] b (fun _ e => passwordCheck b s e) (passwordSet src b)) := by
    rw [execPasswordChange, hright, State.countWrong_none]
  have hnet := (State.writeBlob_ok (eff := passwordSet src b) hacc).frame
  obtain ⟨hcount, hsalt, hhash⟩ := passwordSet_effect src b ((s.atRequest src).touch dev) dev
  have hbox := hnet .lockbox (by decide)
  refine ⟨_, hexec, (State.rd_of_same (hnet (.reg 0x40F0) (by decide)) 6 dev).trans hcount, _,
    (congrArg Lockbox.salt hbox).trans hsalt, by simp, (congrArg Lockbox.hash hbox).trans hhash⟩

theorem lock_gives {s : State} {src : Src} {v : Nat} (hacc : s.Accepts src 0x40F0 3 [dev] v (fun _ _ => aDone)) :
    Gives (.lock src v) s fun t => t.net.unlockBy = none ∧ t.lockbox.pending = [] := by
  have hnet := (State.writeObj_ok (eff := fun s _ => s.endUnlock) hacc).frame
  obtain ⟨hby, _⟩ := State.unlock_of_core (State.netCore_writeObj (eff := fun s _ => s.endUnlock) hacc)
  exact ⟨_, rfl, hby, congrArg Lockbox.pending (hnet .lockbox (by decide))⟩

theorem unlockTimeout_gives {s : State} (hset : s.net.unlockBy.isSome = true)
    (htime : s.net.unlockLt + tenMinutes ≤ s.lt) :
    Gives .unlockTimeout s fun t => t.net.unlockBy = none ∧ t.lockbox.pending = [] :=
  .of_guard rfl ⟨hset, htime⟩ s.endUnlock_effect

theorem lockoutEnd_gives {s : State} (hset : s.lockbox.lockedAt.isSome = true) (hend : s.lockedOut = false) :
    Gives .lockoutEnd s fun t => t.lockbox.lockedAt = none ∧ t.rd 0x40F0 6 dev = 0 := by
  refine ⟨_, rfl, ?_⟩
  rw [State.endLockout, if_pos ⟨hset, by rw [hend]; rfl⟩]
  exact ⟨rfl, State.rd_wr_self ..⟩

/-! ## RWP writes and the apply (R341, R368) -/

/-- No object that a request's own service writes is RWP. -/
theorem index_of_isRwp {i j e : Nat} (h : isRwp i j e = true) : i ∉ [0x1200, 0x1210, 0x1310, 0x3101] := by
  have hrows : ∀ x ∈ rowsOf 0x12 ++ rowsOf 0x13 ++ rowsOf 0x31, x.acc ≠ .rwp := by decide +kernel
  intro hi
  obtain ⟨r, hrow, hr⟩ := Option.any_eq_true .. |>.1 h
  have hmem : r ∈ rowsOf (i / 256) := List.mem_of_find?_eq_some hrow
  refine hrows r ?_ (beq_iff_eq.1 hr)
  fin_cases hi
  all_goals simp_all

theorem rwpWrite_gives {s : State} {src : Src} {i j : Nat} {e : Inst} {v : Int} (hrwp : isRwp i j (instOf e) = true)
    (hacc : s.Accepts src i j [instOf e] v (rwpCheck i j v)) :
    Gives (.rwpWrite src i j e v) s fun t => lookup? ⟨i, j, instOf e⟩ t.lockbox.pending = some v ∧
      t.rd i j (instOf e) = s.rd i j (instOf e) ∧ t.net.unlockLt = s.lt := by
  have hnet := (State.writeObj_ok (eff := rwpSet i j v) hacc).frame
  obtain ⟨_, hat⟩ := State.unlock_of_core (State.netCore_writeObj (eff := rwpSet i j v) hacc)
  have htouch {p : Part} (hp : p ∉ [.reg 0x1200, .reg 0x1210, .reg 0x3101, .units, .dies, .net]) :
      State.Same p s ((s.atRequest src).touch (instOf e)) := s.touch_atRequest_same src (instOf e) hp
  have hindex := index_of_isRwp hrwp
  refine .of_guard rfl hrwp ⟨?_, ?_, ?_⟩
  · rw [show (s.writeObj ..).lockbox = _ from hnet .lockbox (by decide)]
    exact lookup?_insertBy_self ..
  · rw [State.rd_of_same (hnet (.reg i) (by simp))]
    exact State.rd_of_same (htouch (p := .reg i) (by simp_all)) j (instOf e)
  · exact hat.trans (congrArg Clock.lt (show _ = s.clock from htouch (p := .clock) (by decide)))

/-- A new configuration touches no hold reason but [0]. -/
theorem State.reconfigure_held (s : State) {b : Nat} (hb : b ≠ 0) : s.reconfigure.held b = s.held b := by
  unfold State.reconfigure
  extract_lets y z
  rw [State.showActive_held _ hb]
  refine State.held_of_same (each_same (each_same (each_same (.refl _ s) fun y k hy => ?_) fun y c hy => ?_)
    fun y n hy => ?_) b
  · split
    · split
      · exact State.wr_same (by decide) hy
      · exact hy
    · exact State.wr_same (by decide) (State.openKdrv_same (by decide) hy)
  · split
    · exact hy
    · exact State.wr_same (by decide) hy
  · split
    · exact State.freeOut_same (by decide) hy
    · exact State.stoOut_same (by decide) hy

/-- An apply empties the pending set and sets hold reason [1] (R368). -/
theorem applySet_effect (src : Src) (s : State) (e : Nat) :
    (applySet src s e).lockbox.pending = [] ∧ (applySet src s e).held 1 = true := by
  unfold applySet
  extract_lets p changed y src' z w v net
  have hw : w.lockbox.pending = z.lockbox.pending :=
    each_keep (fun y : State => y.lockbox.pending) changed (fun s x => s.logEntry src 1 x.1 x.2.1 x.2.2) (fun _ _ => rfl) z
  have hv : State.Same .lockbox (w.logEvent src 5) v := State.reconfigure_same (by decide) (State.clearHold_same (by decide)
    (State.setHold_same (by decide) (.refl _ _)))
  have hhold : v.held 1 = true := by
    unfold v
    rw [State.reconfigure_held _ (by decide), State.held_clearHold_ne _ (by decide), State.held_setHold_self]
  have hz : z.lockbox.pending = [] := rfl
  have hpending : v.lockbox.pending = [] := by
    rw [show v.lockbox = (w.logEvent src 5).lockbox from hv]
    exact hw.trans hz
  clear_value v
  exact ⟨hpending, hhold⟩

theorem apply_gives {s : State} {src : Src} {crc : Nat} (hacc : s.Accepts src 0x40F0 4 [dev] crc (applyCheck src crc)) :
    Gives (.apply src crc) s fun t => t.lockbox.pending = [] ∧ t.held 1 = true := by
  have hnet := (State.writeObj_ok (eff := applySet src) hacc).frame
  obtain ⟨hpending, hhold⟩ := applySet_effect src ((s.atRequest src).touch dev) dev
  exact ⟨_, rfl, (congrArg Lockbox.pending (hnet .lockbox (by decide))).trans hpending,
    (State.held_of_same (hnet (.reg 0x4000) (by decide)) 1).trans hhold⟩

/-- Settles O46: an accepted request leaves what its effect leaves, the unlock among it; the time-outs' guards hold; the
frame is that of the command. -/
theorem parameterProtection : Obligations.ParameterProtection := by
  refine ⟨?unlock, ?password, ?lock, ?write, ?apply, ?timeout, ?lockout⟩
  case unlock =>
    intro src pw s hacc hright
    exact (unlock_gives hacc hright).framed fun k hk => execUnlock_same hk (.refl k s)
  case password =>
    intro src b s hacc hright
    exact (passwordChange_gives hacc hright).framed fun k hk => execPasswordChange_same hk (.refl k s)
  case lock =>
    intro src v s hacc
    exact (lock_gives hacc).framed fun k hk => execLock_same hk (.refl k s)
  case write =>
    intro src i j e v s hrwp hacc
    exact (rwpWrite_gives hrwp hacc).framed fun k hk => execRwpWrite_same hk (.refl k s)
  case apply =>
    intro src crc s hacc
    exact (apply_gives hacc).framedHidden fun k hk hr => execApply_same hr hk (.refl k s)
  case timeout =>
    intro s hset htime
    exact (unlockTimeout_gives hset htime).framed fun k hk => execUnlockTimeout_same hk (.refl k s)
  case lockout =>
    intro s hset hend
    exact (lockoutEnd_gives hset hend).framed fun k hk => execLockoutEnd_same hk (.refl k s)

end Sys2Proof.Machine
end

section
/-! SUPPORT. What latches, entries and corrections leave of the loops, of the clock and of the units that run. -/

namespace Sys2Proof.Machine

/-! ## Loops -/

/-- The loops of the hub's core and of every die. -/
def State.loops (s : State) : Loop × (Nat → Loop) := (s.clock.core, fun n => (s.die n).loop)

theorem State.loop_of_loops {s t : State} (h : t.loops = s.loops) (l : Nat) : t.loop l = s.loop l := by
  have hcore : t.clock.core = s.clock.core := congrArg Prod.fst h
  have hdie : (t.die (loopDie l)).loop = (s.die (loopDie l)).loop := congrFun (congrArg Prod.snd h) (loopDie l)
  rw [State.loop, State.loop, hcore, hdie]

theorem State.loops_of_sends {s t : State} (hclock : State.Same .clock s t) (h : DiesSend s t) : t.loops = s.loops := by
  have hdie : (fun n => (t.die n).loop) = fun n => (s.die n).loop := by
    funext n
    rw [h.die n]
  rw [State.loops, State.loops, show t.clock = s.clock from hclock, hdie]

theorem State.loops_of_same {s t : State} (hclock : State.Same .clock s t) (hdies : State.Same .dies s t) :
    t.loops = s.loops :=
  State.loops_of_sends hclock (.of_same hdies)

theorem State.loops_setDie (s : State) (n : Nat) {x : Die} (h : x.loop = (s.die n).loop) : (s.setDie n x).loops = s.loops := by
  have hdie : (fun d => ((s.setDie n x).die d).loop) = fun d => (s.die d).loop := by
    funext d
    by_cases hd : d = n
    · rw [hd, State.die_setDie, h]
    · rw [State.die_setDie_ne _ _ hd]
  exact congrArg (Prod.mk s.clock.core) hdie

theorem State.loop_setLoop (s : State) (l : Nat) (x : Loop) : (s.setLoop l x).loop l = x := by
  unfold State.setLoop State.loop
  split
  · rfl
  · rw [State.die_setDie]

theorem State.loops_raise (s : State) (n c k : Nat) (b : List Byte) (r : Nat) : (s.raise n c k b r).loops = s.loops :=
  State.loops_of_sends (State.raise_clock ..) (.of_trailOnly (State.raise_trailOnly ..))

theorem State.loops_noteAt (s : State) (n c k : Nat) (b : List Byte) : (s.noteAt n c k b).loops = s.loops :=
  State.loops_of_sends (State.noteAt_clock ..) (.of_trailOnly (State.noteAt_trailOnly ..))

theorem State.loops_note (s : State) (k : Nat) (b : List Byte) : (s.note k b).loops = s.loops :=
  State.loops_of_sends (State.note_clock ..) (.of_trailOnly (State.note_trailOnly ..))

theorem State.loops_raiseFrame (s : State) (n : Nat) (dir : Dir) (code arg corr : Nat) :
    (s.raiseFrame n dir code arg corr).loops = s.loops :=
  State.loops_of_sends (State.raiseFrame_same (by decide) (.refl _ s)) (.raiseFrame ..)

theorem State.loops_raiseAll (s : State) (code arg corr : Nat) : (s.raiseAll code arg corr).loops = s.loops :=
  State.loops_of_sends (State.raiseAll_same (by decide) (.refl _ s)) (.raiseAll ..)

theorem State.loops_latchOne (s : State) (c cause arg corr : Nat) : (s.latchOne c cause arg corr).loops = s.loops :=
  State.loops_of_sends (State.latchOne_same (by decide) (.refl _ s)) (.latchOne ..)

theorem Die.loop_setDab (d : Die) (i : Nat) (x : Dab) : (d.setDab i x).loop = d.loop := by
  unfold Die.setDab
  split
  · rfl
  · rfl

theorem State.loops_latchDab (s : State) (n i cause arg corr : Nat) : (s.latchDab n i cause arg corr).loops = s.loops := by
  unfold State.latchDab
  extract_lets d x y z w v
  split
  · exact s.loops_setDie n (d.loop_setDab i _)
  · have hy : y.loops = s.loops := s.loops_setDie n (d.loop_setDab i _)
    have hw : State.Same .clock y w ∧ State.Same .dies y w :=
      ⟨State.wr_same (by decide) (State.wr_same (by decide) (State.setUnit_same (by decide) (.refl _ y))),
        State.wr_same (by decide) (State.wr_same (by decide) (State.setUnit_same (by decide) (.refl _ y)))⟩
    have hv : v.loops = w.loops := w.loops_raise ..
    have hdrop : (v.dropJobs n (64 + i)).loops = v.loops :=
      State.loops_of_same (State.dropJobs_same (by decide) (.refl _ v)) (State.dropJobs_same (by decide) (.refl _ v))
    rw [State.loops_raiseFrame, hdrop, hv, State.loops_of_same hw.1 hw.2, hy]

theorem State.loops_latchDrive (s : State) (a cause : Nat) : (s.latchDrive a cause).loops = s.loops := by
  unfold State.latchDrive
  extract_lets y src z
  split
  · rfl
  · have hz {k : Part} (hk : k ∉ [.reg 0x341A, .reg 0x3420, .units, .bldc, .engines]) :
        State.Same k s (z.dropJobs 0 (4 + a)) :=
      State.dropJobs_same (notMem_of hk (by decide)) (State.setDrive_same (notMem_of hk (by decide)) (State.wr_same
        (notMem_of hk (by decide)) (State.enterDrive_same (notMem_of hk (by decide)) (State.driveCut_same
        (notMem_of hk (by decide)) (.refl k s)))))
    rw [State.loops_note, State.loops_of_same (hz (by decide)) (hz (by decide))]

theorem State.loops_latchAxis (s : State) (a cause : Nat) : (s.latchAxis a cause).loops = s.loops := by
  unfold State.latchAxis
  extract_lets y src z
  split
  · rfl
  · have hz {k : Part} (hk : k ∉ [.reg 0x344E, .reg 0x344F, .reg 0x3450, .reg 0x3457, .units, .axes, .engines]) :
        State.Same k s ((z.dropJobs 0 (8 + a)).dropJobs 0 (12 + a)) :=
      State.dropJobs_same (notMem_of hk (by decide)) (State.dropJobs_same (notMem_of hk (by decide))
        (State.setAxis_same (notMem_of hk (by decide)) (State.wr_same (notMem_of hk (by decide))
        (State.axisLow_same (notMem_of hk (by decide)) (.refl k s)))))
    rw [State.loops_note, State.loops_of_same (hz (by decide)) (hz (by decide))]

theorem State.loops_latchHubOutputs (s : State) (cause : Nat) : (s.latchHubOutputs cause).loops = s.loops := by
  unfold State.latchHubOutputs
  extract_lets y src z
  have hz {k : Part} (hk : k ∉ [.reg 0x3040, .reg 0x3070, .units, .engines, .power]) : State.Same k s z :=
    State.dropJobs_same (notMem_of hk (by decide)) (State.setUnit_same (notMem_of hk (by decide)) (State.cutUnits_same
      (notMem_of hk (by decide)) (State.chopOff_same (notMem_of hk (by decide)) (State.latchAfe_same
      (notMem_of hk (by decide)) (.refl k s)))))
  rw [each_keep State.loops _ _ (fun u a => (State.loops_latchAxis _ a cause).trans (u.loops_latchDrive a cause)),
    State.loops_of_same (hz (by decide)) (hz (by decide))]

theorem State.loops_stopWith (s : State) (cause corr : Nat) : (s.stopWith cause corr).loops = s.loops := by
  have hnote (y : State) : (y.stopNote cause corr).loops = y.loops := y.loops_raise ..
  unfold State.stopWith
  extract_lets y z
  split
  · exact hnote s
  · have hy : y.loops = s.loops := (hnote _).trans (State.loops_of_same (State.wr_same (by decide)
      (State.setLink_same (by decide) (.refl _ s))) (State.wr_same (by decide) (State.setLink_same (by decide) (.refl _ s))))
    have hz : z.loops = y.loops := by
      unfold z
      rw [State.loops_raiseAll, State.loops_raiseAll]
    exact hz.trans hy

end Sys2Proof.Machine
end

section
/-! The statement on clocks, synchronisation and epochs. -/

namespace Sys2Proof.Machine

/-! ## Sources and loops (R372 to R377) -/

/-- A locked loop that loses lock coasts (R376). -/
theorem State.loseLock_coasts {s : State} {l : Nat} (h : (s.loop l).state = 2) : ((s.loseLock l).loop l).state = 3 := by
  unfold State.loseLock
  extract_lets x y z src
  rw [if_pos h]
  have hy : (y.loop l).state = 3 := congrArg Loop.state (s.loop_setLoop l _)
  have hz : (z.setClock { z.clock with withheld := true }).loops = y.loops := rfl
  rw [State.loopNote, State.loop_of_loops (State.loops_noteAt ..), State.loop_of_loops hz, hy]

/-- A loop that loses lock leaves the other loops, REFCLK's presence, and beacons withheld. -/
theorem State.loseLock_others (s : State) (l : Nat) :
    (∀ n, ((s.loseLock l).die n).refPresent = (s.die n).refPresent) ∧
      (s.clock.withheld = true → (s.loseLock l).clock.withheld = true) ∧
      (l = 0 → ∀ m, m ≠ 0 → (s.loseLock l).loop m = s.loop m) := by
  have hset (y : Loop) : (∀ n, ((s.setLoop l y).die n).refPresent = (s.die n).refPresent) ∧
      (s.clock.withheld = true → (s.setLoop l y).clock.withheld = true) ∧
      (l = 0 → ∀ m, m ≠ 0 → (s.setLoop l y).loop m = s.loop m) := by
    unfold State.setLoop
    split
    case isTrue h =>
      refine ⟨fun _ => rfl, id, fun _ m hm => ?_⟩
      rw [State.loop, State.loop, if_neg hm, if_neg hm]
      rfl
    case isFalse h =>
      refine ⟨fun n => ?_, id, fun h' => absurd h' h⟩
      by_cases hn : n = loopDie l
      · rw [hn, State.die_setDie]
      · rw [State.die_setDie_ne _ _ hn]
  unfold State.loseLock
  extract_lets x y z src
  split
  · obtain ⟨href, _, hother⟩ := hset { x with state := 3, good := 0, off := 0, coastAt := some s.lt }
    refine ⟨fun n => ?_, fun _ => ?_, fun hl m hm => ?_⟩
    · rw [State.loopNote, (DiesSend.of_trailOnly (State.noteAt_trailOnly ..)).die n]
      exact href n
    · rw [State.loopNote, State.noteAt_clock]
      rfl
    · rw [State.loopNote, State.loop_of_loops (State.loops_noteAt ..)]
      exact hother hl m hm
  · exact hset _

theorem refclkAbsent_gives {s : State} {die : Nat} (hpop : s.diePop die = true) (hhere : (s.die die).refPresent = true) :
    Gives (.refclkAbsent die) s fun t => (t.die die).refPresent = false ∧ t.clock.withheld = true ∧
      ((s.die die).loop.state = 2 → (t.loop (die + 1)).state = 3) := by
  refine .of_guard rfl ⟨hpop, hhere⟩ ?_
  extract_lets src y src' z w
  have hnote : DiesSend z (z.sourceNote die) := .of_trailOnly (State.noteAt_trailOnly ..)
  have habsent : ((z.sourceNote die).die die).refPresent = false := by
    rw [hnote.die die]
    exact congrArg Die.refPresent (State.die_setDie s die _)
  have hwithheld : (z.sourceNote die).clock.withheld = true := by
    rw [State.sourceNote, State.noteAt_clock]
    rfl
  have hloop : ((z.sourceNote die).loop (die + 1)) = (s.die die).loop := by
    rw [State.sourceNote, State.loop_of_loops (State.loops_noteAt ..), State.loop, if_neg (by omega), loopDie,
      Nat.add_sub_cancel]
    have hz : z.die die = y.die die := rfl
    exact (congrArg Die.loop (hz.trans (State.die_setDie s die _))).trans rfl
  obtain ⟨href, hkeep, _⟩ := (z.sourceNote die).loseLock_others (die + 1)
  have hcoasts (h : (s.die die).loop.state = 2) : (w.loop (die + 1)).state = 3 :=
    State.loseLock_coasts (by rw [hloop, h])
  split
  · obtain ⟨href', hkeep', hother⟩ := w.loseLock_others 0
    exact ⟨(href' die).trans ((href die).trans habsent), hkeep' (hkeep hwithheld), fun h => by
      rw [hother rfl (die + 1) (by omega)]
      exact hcoasts h⟩
  · exact ⟨(href die).trans habsent, hkeep hwithheld, hcoasts⟩

theorem refclkPresent_gives {s : State} {die : Nat} (hpop : s.diePop die = true)
    (haway : (s.die die).refPresent = false) :
    Gives (.refclkPresent die) s fun t => (t.die die).refPresent = true ∧ (die = 0 → t.clock.phase = 0) := by
  refine .of_guard rfl ⟨hpop, by rw [haway]; rfl⟩ ⟨?_, fun h => ?_⟩
  · rw [State.sourceNote, (DiesSend.of_trailOnly (State.noteAt_trailOnly ..)).die die]
    exact congrArg Die.refPresent (State.die_setDie s die _)
  · rw [State.sourceNote, State.noteAt_clock]
    exact if_pos h

theorem xtal32Failed_gives {s : State} (h : s.clock.xtal = true) :
    Gives .xtal32Failed s fun t => t.clock.xtal = false := by
  refine .of_guard rfl h ?_
  rw [State.sourceNote, State.noteAt_clock]
  rfl

theorem xtal32Return_gives {s : State} (h : s.clock.xtal = false) :
    Gives .xtal32Return s fun t => t.clock.xtal = true := by
  refine .of_guard_not rfl (by rw [h]; decide) ?_
  rw [State.sourceNote, State.noteAt_clock]
  rfl

/-- A loop that declares lock is locked (R375). -/
theorem State.declareLock_locks (s : State) (l : Nat) : ((s.declareLock l).loop l).state = 2 := by
  unfold State.declareLock
  extract_lets x y
  have hy : (y.loop l).state = 2 := congrArg Loop.state (s.loop_setLoop l _)
  have hset (d : Die) (hd : d.loop = (y.die (loopDie l)).loop) : ((y.setDie (loopDie l) d).loop l).state = 2 := by
    rw [State.loop_of_loops (y.loops_setDie _ hd), hy]
  split
  · rw [State.loopNote, State.loop_of_loops (State.loops_noteAt ..), hy]
  · split
    · exact hy
    · exact hset _ rfl

section
variable {s : State} {l : Nat} (count : Nat) (hpop : s.loopPop l = true)
  (href : (s.die (loopDie l)).refPresent = true)
include hpop href

theorem lockWindow_locked (hlocked : (s.loop l).state = 2) : Gives (.lockWindow l count) s fun t => (t.loop l).state =
    if 16 < ((count : Int) - expectedCount l).natAbs ∨
      (2 < ((count : Int) - expectedCount l).natAbs ∧ 1 ≤ (s.loop l).off) then 3 else 2 := by
  refine .of_guard_not rfl (by rw [hpop, href, hlocked]; decide) ?_
  rw [if_pos hlocked]
  split
  · exact State.loseLock_coasts hlocked
  · rw [State.loop_setLoop]
    exact hlocked

theorem lockWindow_settling (hsettles : (s.loop l).state = 1) (hcoast : s.coastDue l = false)
    (hnear : ((count : Int) - expectedCount l).natAbs ≤ 2) : Gives (.lockWindow l count) s fun t =>
    if 3 ≤ (s.loop l).good then (t.loop l).state = 2
    else (t.loop l).state = 1 ∧ (t.loop l).good = (s.loop l).good + 1 := by
  refine .of_guard_not rfl (by rw [hpop, href, hsettles]; decide) ?_
  rw [if_neg (show ¬ (s.loop l).state = 2 by rw [hsettles]; decide), if_neg (show ¬ s.coastDue l = true by rw [hcoast]; decide),
    if_neg (Nat.not_lt.2 hnear)]
  split
  · exact s.declareLock_locks l
  · rw [State.loop_setLoop]
    exact ⟨by rw [hsettles]; rfl, rfl⟩

end

/-- The coast limit leaves its loop in state 4 (R377). -/
theorem State.coastOut_state (s : State) (l : Nat) : ((s.coastOut l).loop l).state = 4 := by
  unfold State.coastOut
  extract_lets src y n corr z u v
  have hy : (y.loop l).state = 4 := congrArg Loop.state (s.loop_setLoop l _)
  have hz : z.loops = y.loops := rfl
  split
  · have hu : u.loops = z.loops := each_keep State.loops _ _ (fun x c => x.loops_latchOne c 17 0 corr) z
    have hv : v.loops = u.loops := each_keep State.loops _ _ (fun x i => x.loops_latchDab n i 17 0 corr) u
    have hall : (v.raiseFrame n .toHub 0x22 127 corr).loops = y.loops := by rw [State.loops_raiseFrame, hv, hu, hz]
    rw [State.loop_of_loops hall, hy]
  · have hdraw (x : State) : x.draw.loops = x.loops := rfl
    have hall (c : Nat) : (((z.draw.latchHubOutputs c).raiseAll 0x04 127 corr).stopWith 16 corr).loops = y.loops := by
      rw [State.loops_stopWith, State.loops_raiseAll, State.loops_latchHubOutputs, hdraw, hz]
    rw [State.loop_of_loops (hall _), hy]

theorem coastLimit_gives {s : State} {l : Nat} (hpop : s.loopPop l = true) (hdue : s.coastDue l = true) :
    Gives (.coastLimit l) s fun t => (t.loop l).state = 4 :=
  .of_guard rfl ⟨hpop, hdue⟩ (s.coastOut_state l)

/-! ## Synchronisation (R381) -/

/-- The lock and leave counts write the sync state alone among the registers, and the two counts of the clock. -/
theorem State.syncCounts_effect (s : State) (offset : Int) :
    (s.syncCounts offset).rd 0x1111 2 dev = s.rd 0x1111 2 dev ∧ (s.syncCounts offset).lt = s.lt ∧
      State.Same (.reg 0x1110) s (s.syncCounts offset) :=
  ⟨State.rd_wr_ne _ _ (by simp), rfl, State.syncCounts_same (by decide) (.refl _ s)⟩

theorem State.trimFor_of_same {s t : State} (h : State.Same (.reg 0x1110) s t) (offset ratio : Int) :
    t.trimFor offset ratio = s.trimFor offset ratio := by
  rw [State.trimFor, State.trimFor, h]

theorem sync_gives {s : State} {gm ratio : Int} {port : Nat} (hslave : s.isSlave = true)
    (hport : s.rd 0x1111 5 dev = port) (hawake : s.rd 0x1200 1 dev ≠ 4) :
    Gives (.sync gm ratio port) s fun t => t.rd 0x1111 2 dev = s.lt - gm ∧ t.clock.lastSync = s.lt ∧
      t.clock.nextRho = s.trimFor (s.lt - gm) ratio ∧
      t.clock.step = (if s.rd 0x1110 6 dev < ((s.lt : Int) - gm).natAbs then some (s.lt - gm) else none) := by
  refine .of_guard rfl ⟨hslave, hport, hawake⟩ ?_
  extract_lets offset y big src z
  obtain ⟨hshown, hlt, hlimits⟩ := (s.wr 0x1111 2 dev offset).syncCounts_effect offset
  have hregs : State.Same (.reg 0x1110) s y := State.Same.trans (State.wr_same (by decide) (.refl _ s)) hlimits
  have hbig : y.rd 0x1110 6 dev = s.rd 0x1110 6 dev := State.rd_of_same hregs 6 dev
  refine ⟨hshown.trans (State.rd_wr_self ..), hlt, State.trimFor_of_same hregs offset ratio, ?_⟩
  exact congrArg (fun x : Int => if x < offset.natAbs then some offset else none) hbig

theorem syncTimeout_gives {s : State} (hstate : s.rd 0x1111 1 dev = 1 ∨ s.rd 0x1111 1 dev = 2)
    (htime : s.clock.lastSync + 3 * s.syncNs < s.lt) :
    Gives .syncTimeout s fun t => t.rd 0x1111 1 dev = 3 ∧ t.clock.step = none ∧ t.clock.nextRho = s.clock.rho :=
  .of_guard rfl ⟨hstate, htime⟩ ⟨State.rd_wr_self .., rfl, rfl⟩

/-! ## Epochs (R382, R384 to R391) -/

/-- Which pulse outputs of the QF run. -/
def State.running (s : State) : Nat → Nat → Bool := fun d u => (s.unit d u).running

theorem State.running_of_same {s t : State} (h : State.Same .units s t) : t.running = s.running := by
  funext d u
  rw [State.running, State.running, State.unit_of_same h]

theorem State.running_setUnit (s : State) (d u : Nat) {x : GenUnit} (h : x.running = (s.unit d u).running) :
    (s.setUnit d u x).running = s.running := by
  funext e v
  unfold State.running State.unit State.setUnit
  dsimp only
  by_cases hv : 128 * e + v = 128 * d + u
  · have hlook : ∀ x y : GenUnit, x.running = y.running →
        (look x s.units (128 * d + u)).running = (look y s.units (128 * d + u)).running := by
      intro x y hxy
      unfold look
      cases lookup? (128 * d + u) s.units with
      | none => exact hxy
      | some z => rfl
    rw [hv, look_put_self, h, State.unit]
    exact hlook _ _ rfl
  · rw [look_put_ne _ _ _ hv]

/-- A correction keeps every unit running that runs. -/
theorem State.running_correctDie (s : State) (d : Nat) (e : Int) : (s.correctDie d e).running = s.running := by
  unfold State.correctDie
  extract_lets x y
  split
  · have hy : State.Same .units s y := by
      exact State.retimeLanes_same (by decide) (State.mapSlices_same (by decide) (State.wr_same (by decide)
        (State.setDie_same (by decide) (.refl _ s))))
    have hunits := each_keep State.running (List.range (if d = 0 then 36 else 66))
      (fun s u => s.setUnit d u ((s.unit d u).correct e)) (fun z u => z.running_setUnit d u rfl) y
    exact hunits.trans (State.running_of_same hy)
  · exact State.running_of_same (State.setDie_same (by decide) (.refl _ s))

/-- LT may step when the same units run, on the same part, in the same run states. -/
theorem State.mayStep_of {s t : State} (hunits : t.running = s.running) (hpart : State.Same .variant s t)
    (hruns : State.Same (.reg 0x2402) s t) : t.mayStep = s.mayStep := by
  have hpop : t.sitePop = s.sitePop := by
    funext n
    rw [State.sitePop, State.sitePop, show t.variant = s.variant from hpart]
  have hsites : t.sites = s.sites := by rw [State.sites, State.sites, hpop]
  have hswitches : t.dieSwitches = s.dieSwitches := by
    funext d
    exact congrArg (fun r : Nat → Nat → Bool => (List.range (if d = 0 then 36 else 66)).any fun u => r d u) hunits
  have hactive : t.active = s.active := by
    funext c
    rw [State.active, State.active, State.runState_of_same hruns]
  rw [State.mayStep, State.mayStep, State.anySwitching, State.anySwitching, State.channels, State.channels, hsites,
    hswitches, hactive]

/-- The epoch begins: a step that may not be made is deferred, the clock takes the epoch and its rate (R382, R389). -/
def State.openEpoch (s : State) (e : Nat) : State :=
  let held := s.clock.withheld
  let s := s.deferStep
  let s := s.setClock { s.clock with
    lastEpoch := e, rho := s.clock.nextRho, beacon := if held || !s.fw then none else some e,
    withheld := held && !s.clocksGood }
  (s.wr 0x1111 3 dev s.clock.rho).wr 0x1101 3 dev (s.epochNumber e)

/-- The corrections, the means, the energy flow, the groups and the waymark of an epoch. -/
def State.epochWork (s : State) (e : Nat) (errs : List Int) : State :=
  let s := each ((0 :: s.sites).zipIdx) (fun s (d, k) => s.correctDie d (errs.getD k 0)) s
  let s := each s.channels (fun s c => s.closeMeans c e) s.energyFlow
  let s := each s.sites (fun s n => (s.strobe n e).flushRepeats n) s
  let s := each (List.range 128) (fun s g => s.groupCheck g) s
  s.waymark (s.epochNumber e)

theorem State.epoch_eq (s : State) (e : Nat) (errs : List Int) : s.epoch e errs = ((s.openEpoch e).epochWork e errs).stepTime := by
  unfold State.epoch State.openEpoch State.epochWork
  with_reducible rfl

theorem State.epochWork_same {k : Part} (hk : k ∉ [.reg 0x1105, .reg 0x2406, .reg 0x2407, .reg 0x3180, .reg 0x3181,
    .reg 0x6000, .chans, .units, .dies, .adcs, .groups, .qm, .trail]) (s : State) (e : Nat) (errs : List Int) :
    State.Same k s (s.epochWork e errs) := by
  unfold State.epochWork
  extract_lets y z w v
  have hy : State.Same k s y := each_same (.refl k s) fun _ _ h => State.correctDie_same (notMem_of hk (by decide)) h
  have hz : State.Same k s z := each_same (State.energyFlow_same (notMem_of hk (by decide)) hy) fun _ _ h =>
    State.closeMeans_same (notMem_of hk (by decide)) h
  have hw : State.Same k s w := each_same hz fun _ _ h => State.flushRepeats_same (notMem_of hk (by decide))
    (State.strobe_same (notMem_of hk (by decide)) h)
  have hv : State.Same k s v := each_same hw fun _ _ h => State.groupCheck_same (notMem_of hk (by decide)) h
  exact State.waymark_same (notMem_of hk (by decide)) hv

theorem State.running_epochWork (s : State) (e : Nat) (errs : List Int) : (s.epochWork e errs).running = s.running := by
  unfold State.epochWork
  extract_lets y z w v
  have hy : y.running = s.running := each_keep State.running _ _ (fun y (x : Nat × Nat) => y.running_correctDie x.1 _) s
  have hz : State.Same .units y z := each_same (State.energyFlow_same (by decide) (.refl _ y)) fun _ _ h =>
    State.closeMeans_same (by decide) h
  have hw : State.Same .units y w := each_same hz fun _ _ h => State.flushRepeats_same (by decide)
    (State.strobe_same (by decide) h)
  have hv : State.Same .units y v := each_same hw fun _ _ h => State.groupCheck_same (by decide) h
  exact (State.running_of_same (State.waymark_same (by decide) hv)).trans hy

/-- The work of an epoch leaves whether LT may step. -/
theorem State.mayStep_epochWork (s : State) (e : Nat) (errs : List Int) : (s.epochWork e errs).mayStep = s.mayStep :=
  State.mayStep_of (s.running_epochWork e errs) (s.epochWork_same (by decide) e errs) (s.epochWork_same (by decide) e errs)

/-- What the epoch shows when it begins; a step that is not deferred still waits. -/
theorem State.openEpoch_effect (s : State) (e : Nat) :
    (s.openEpoch e).clock.lastEpoch = e ∧ (s.openEpoch e).clock.lt = s.clock.lt ∧
      (s.openEpoch e).clock.rho = s.clock.nextRho ∧ (s.openEpoch e).clock.step = s.deferStep.clock.step ∧
      (s.openEpoch e).rd 0x1101 3 dev = s.epochNumber e ∧ (s.openEpoch e).rd 0x1111 3 dev = s.clock.nextRho := by
  have hclock : s.deferStep.clock = { s.clock with step := s.deferStep.clock.step } := by
    unfold State.deferStep
    split
    · split
      · rfl
      · rw [State.note_clock]
        rfl
    · rfl
  have hperiod : State.Same (.reg 0x1101) s s.deferStep := State.deferStep_same (by decide) (.refl _ s)
  have hnumber : s.deferStep.epochNumber e = s.epochNumber e := by
    rw [State.epochNumber, State.epochNumber, State.epochNs, State.epochNs, State.rdN, State.rdN, hperiod]
  unfold State.openEpoch
  extract_lets held y src z
  have hlt : y.clock.lt = s.clock.lt := by rw [hclock]
  have hrho : y.clock.nextRho = s.clock.nextRho := by rw [hclock]
  refine ⟨rfl, hlt, hrho, rfl, ?_, ?_⟩
  · rw [State.rd_wr_self]
    exact_mod_cast hnumber
  · rw [State.rd_wr_ne _ _ (by simp), State.rd_wr_self]
    exact hrho

theorem State.openEpoch_same {k : Part} (hk : k ∉ [.reg 0x1101, .reg 0x1111, .reg 0x6000, .clock, .dies, .trail])
    (s : State) (e : Nat) : State.Same k s (s.openEpoch e) :=
  State.wr_same (notMem_of hk (by decide)) (State.wr_same (notMem_of hk (by decide)) (State.setClock_same
    (notMem_of hk (by decide)) (State.deferStep_same (notMem_of hk (by decide)) (.refl k s))))

theorem State.openEpoch_count (s : State) (e : Nat) : (s.openEpoch e).rd 0x1111 6 dev = s.rd 0x1111 6 dev := by
  have hdefer : State.Same (.reg 0x1111) s s.deferStep := State.deferStep_same (by decide) (.refl _ s)
  unfold State.openEpoch
  extract_lets held y src z
  rw [State.rd_wr_ne _ _ (by simp), State.rd_wr_ne _ _ (by simp)]
  exact State.rd_of_same hdefer 6 dev

theorem State.loadTimeBases_clock (s : State) :
    s.loadTimeBases.clock = { s.clock with tb := fineOf s.lt, tbFrac := 0 } := by
  unfold State.loadTimeBases
  extract_lets src y
  have hset (z : State) (d : Nat) : (z.setDie d { z.die d with tbErr := 0 }).clock = z.clock := rfl
  exact (each_keep State.clock (0 :: y.sites) _ hset y).trans rfl

/-- The epochs' steps (R382): the offset of the Sync is taken off LT, counted and shown. -/
theorem State.stepTime_steps {s : State} {off : Int} (hstep : s.clock.step = some off) (hmay : s.mayStep = true) :
    s.stepTime.clock.lt = ((s.lt : Int) - off).toNat ∧ s.stepTime.clock.step = none ∧
      s.stepTime.rd 0x1111 7 dev = off ∧ s.stepTime.rd 0x1111 6 dev = (s.rd 0x1111 6 dev + 1) % 2 ^ 32 := by
  unfold State.stepTime
  rw [hstep]
  dsimp only
  rw [if_pos hmay]
  generalize hset : s.setClock _ = y
  have hy : State.Same (.reg 0x1111) s y := by
    rw [← hset]
    exact State.setClock_same (by decide) (.refl _ s)
  have hload : State.Same (.reg 0x1111) s y.loadTimeBases := State.loadTimeBases_same (by decide) hy
  have hlt : y.loadTimeBases.clock.lt = ((s.lt : Int) - off).toNat := by
    rw [State.loadTimeBases_clock, ← hset]
    rfl
  have hnone : y.loadTimeBases.clock.step = none := by
    rw [State.loadTimeBases_clock, ← hset]
    rfl
  have hnote (z : State) : State.Same (.reg 0x1111) z (z.note 0x0013 (leInt 8 off)) :=
    State.note_same (by decide) (.refl _ z)
  refine ⟨?_, ?_, ?_, ?_⟩
  · rw [State.note_clock]
    exact hlt
  · rw [State.note_clock]
    exact hnone
  · rw [State.rd_of_same (hnote _), State.rd_wr_self]
  · rw [State.rd_of_same (hnote _), State.rd_wr_ne _ _ (by simp), State.rd_inc_self, State.rd_of_same hload]

theorem State.stepTime_of_none {s : State} (h : s.clock.step = none) : s.stepTime = s := by
  unfold State.stepTime
  rw [h]

theorem State.deferStep_of_may {s : State} (h : s.mayStep = true) : s.deferStep = s := by
  unfold State.deferStep
  split
  · rw [if_pos h]
  · rfl

theorem State.deferStep_of_not {s : State} (h : s.clock.step = none ∨ s.mayStep = false) :
    s.deferStep.clock.step = none := by
  unfold State.deferStep
  split
  case h_1 off hstep =>
    obtain hnone | hmay := h
    · exact absurd (hnone.symm.trans hstep) (by simp)
    · rw [if_neg (by rw [hmay]; decide), State.note_clock]
      rfl
  case h_2 hstep => exact hstep

theorem State.takePubs_keeps {k : Part} (hk : k ∉ [.net, .free]) (s : State) : State.Same k s s.takePubs :=
  State.takePubs_same hk (.refl k s)

theorem ltStep_gives {s : State} {off : Int} {e : Nat} (hstep : s.clock.step = some off) (hdue : s.epochDue = some e)
    (hsys : s.vsys = true) (hmay : s.mayStep = true) :
    Gives .ltStep s fun t => t.lt = ((s.lt : Int) - off).toNat ∧ t.clock.step = none ∧ t.rd 0x1111 7 dev = off ∧
      t.rd 0x1111 6 dev = (s.rd 0x1111 6 dev + 1) % 2 ^ 32 := by
  have hexec : execLtStep s = .next (s.epoch e []).takePubs := by
    rw [execLtStep, hstep, hdue]
    exact congrArg _ (if_pos hsys)
  have hdefer := State.deferStep_of_may hmay
  obtain ⟨_, hlt, _, hwaits, _, _⟩ := s.openEpoch_effect e
  have hwork {k : Part} (hk : k ∉ [.reg 0x1105, .reg 0x2406, .reg 0x2407, .reg 0x3180, .reg 0x3181, .reg 0x6000, .chans,
      .units, .dies, .adcs, .groups, .qm, .trail]) := (s.openEpoch e).epochWork_same hk e []
  have hclock := hwork (k := .clock) (by decide)
  have hopened : (s.openEpoch e).mayStep = true := by
    refine (State.mayStep_of (State.running_of_same ?_) ?_ ?_).trans hmay
    all_goals exact State.openEpoch_same (by decide) s e
  have hcount : (s.openEpoch e).rd 0x1111 6 dev = s.rd 0x1111 6 dev := s.openEpoch_count e
  obtain ⟨hlt', hnone, hshown, hcount'⟩ := State.stepTime_steps (s := (s.openEpoch e).epochWork e [])
    ((congrArg Clock.step hclock).trans (hwaits.trans (by rw [hdefer, hstep])))
    (((s.openEpoch e).mayStep_epochWork e []).trans hopened)
  have hnow : ((s.openEpoch e).epochWork e []).lt = s.lt := (congrArg Clock.lt hclock).trans hlt
  have hcounted := State.rd_of_same (hwork (k := .reg 0x1111) (by decide)) 6 dev
  rw [← State.epoch_eq] at hlt' hnone hshown hcount'
  rw [hnow] at hlt'
  rw [hcounted, hcount] at hcount'
  have hpubs {k : Part} (hk : k ∉ [.net, .free]) := (s.epoch e []).takePubs_keeps hk
  have hend := hpubs (k := .clock) (by decide)
  exact ⟨_, hexec, (congrArg Clock.lt hend).trans hlt', (congrArg Clock.step hend).trans hnone,
    (State.rd_of_same (hpubs (by decide)) 7 dev).trans hshown, (State.rd_of_same (hpubs (by decide)) 6 dev).trans hcount'⟩

theorem carrierEpoch_gives {s : State} {e : Nat} (errs : List Int) (hdue : s.epochDue = some e) (hsys : s.vsys = true)
    (hnot : s.clock.step = none ∨ s.mayStep = false) :
    Gives (.carrierEpoch errs) s fun t => t.clock.lastEpoch = e ∧ t.lt = s.lt ∧ t.clock.rho = s.clock.nextRho ∧
      t.rd 0x1101 3 dev = s.epochNumber e ∧ t.rd 0x1111 3 dev = s.clock.nextRho := by
  have hexec : execCarrierEpoch errs s = .next (s.epoch e errs).takePubs := by
    rw [execCarrierEpoch, hdue]
    exact congrArg _ (if_pos hsys)
  obtain ⟨hlast, hlt, hrho, hstep, hnumber, hshown⟩ := s.openEpoch_effect e
  have hwork {k : Part} (hk : k ∉ [.reg 0x1105, .reg 0x2406, .reg 0x2407, .reg 0x3180, .reg 0x3181, .reg 0x6000, .chans,
      .units, .dies, .adcs, .groups, .qm, .trail]) := (s.openEpoch e).epochWork_same hk e errs
  have hnone : ((s.openEpoch e).epochWork e errs).clock.step = none :=
    (congrArg Clock.step (hwork (k := .clock) (by decide))).trans (hstep.trans (State.deferStep_of_not hnot))
  have hend {k : Part} (hk : k ∉ [.net, .free]) : State.Same k ((s.openEpoch e).epochWork e errs) (s.epoch e errs).takePubs := by
    rw [State.epoch_eq, State.stepTime_of_none hnone]
    exact State.takePubs_keeps hk _
  have hclock := (hwork (k := .clock) (by decide)).trans (hend (by decide))
  refine ⟨_, hexec, (congrArg Clock.lastEpoch hclock).trans hlast, (congrArg Clock.lt hclock).trans hlt,
    (congrArg Clock.rho hclock).trans hrho, ?_, ?_⟩
  · exact (State.rd_of_same ((hwork (k := .reg 0x1101) (by decide)).trans (hend (by decide))) 3 dev).trans hnumber
  · exact (State.rd_of_same ((hwork (k := .reg 0x1111) (by decide)).trans (hend (by decide))) 3 dev).trans hshown

theorem epochPeriod_gives {s : State} {src : Src} {n : Nat} (hacc : s.Accepts src 0x1101 1 [dev] n (epochCheck n)) :
    Gives (.epochPeriod src n) s fun t => t.rd 0x1101 1 dev = n ∧ t.clock.lastEpoch = s.lt := by
  have hnet := (State.writeObj_ok (eff := epochSet n) hacc).frame
  have hlt : ((s.atRequest src).touch dev).lt = s.lt :=
    congrArg Clock.lt (show _ = s.clock from s.touch_atRequest_same (p := .clock) src dev (by decide))
  refine ⟨_, rfl, (State.rd_of_same (hnet (.reg 0x1101) (by decide)) 1 dev).trans ?_,
    (congrArg Clock.lastEpoch (hnet .clock (by decide))).trans hlt⟩
  exact State.rd_wr_self ..

/-- Settles O47: each command's guard holds, so its effect is read off its operation; what an epoch does in between keeps
the clock and whether LT may step; the frame is that of the command. -/
theorem clocksAndSynchronisation : Obligations.ClocksAndSynchronisation := by
  refine ⟨?absent, ?present, ?failed, ?back, ?locked, ?settling, ?coast, ?sync, ?silent, ?step, ?epoch, ?period⟩
  case absent =>
    intro die s hpop hhere
    exact (refclkAbsent_gives hpop hhere).framed fun k hk => execRefclkAbsent_same hk (.refl k s)
  case present =>
    intro die s hpop haway
    exact (refclkPresent_gives hpop haway).framed fun k hk => execRefclkPresent_same hk (.refl k s)
  case failed =>
    intro s h
    exact (xtal32Failed_gives h).framed fun k hk => execXtal32Failed_same hk (.refl k s)
  case back =>
    intro s h
    exact (xtal32Return_gives h).framed fun k hk => execXtal32Return_same hk (.refl k s)
  case locked =>
    intro l count s hpop href hlocked
    exact (lockWindow_locked count hpop href hlocked).framed fun k hk => execLockWindow_same hk (.refl k s)
  case settling =>
    intro l count s hpop href hsettles hcoast hnear
    exact (lockWindow_settling count hpop href hsettles hcoast hnear).framed fun k hk =>
      execLockWindow_same hk (.refl k s)
  case coast =>
    intro l s hpop hdue
    exact (coastLimit_gives hpop hdue).framed fun k hk => execCoastLimit_same hk (.refl k s)
  case sync =>
    intro gm ratio port s hslave hport hawake
    exact (sync_gives hslave hport hawake).framed fun k hk => execSync_same hk (.refl k s)
  case silent =>
    intro s hstate htime
    exact (syncTimeout_gives hstate htime).framed fun k hk => execSyncTimeout_same hk (.refl k s)
  case step =>
    intro off e s hstep hdue hsys hmay
    exact (ltStep_gives hstep hdue hsys hmay).framed fun k hk => execLtStep_same hk (.refl k s)
  case epoch =>
    intro e errs s hdue hsys hnot
    exact (carrierEpoch_gives errs hdue hsys hnot).framed fun k hk => execCarrierEpoch_same hk (.refl k s)
  case period =>
    intro src n s hacc
    exact (epochPeriod_gives hacc).framed fun k hk => execEpochPeriod_same hk (.refl k s)

end Sys2Proof.Machine
end

section
/-! The statement on REST, STANDBY and SLEEP. -/

namespace Sys2Proof.Machine

/-! ## REST (R402 to R404) -/

/-- A die that enters REST shows it, and counts its entry delay no more. -/
theorem State.enterRest_effect (s : State) (n : Nat) :
    (s.enterRest n).rd 0x1200 1 (siteI n) = 2 ∧ ((s.enterRest n).die n).restSince = none := by
  unfold State.enterRest
  extract_lets y z ends src
  have hz : z.rd 0x1200 1 (siteI n) = 2 := by
    unfold z
    rw [State.inc, State.rd_wr_ne _ _ (by simp), State.rd_wr_self]
  clear_value z
  exact ⟨hz, congrArg Die.restSince (z.die_setDie n _)⟩

theorem restEntry_gives {s : State} {n : Nat} (hpop : s.sitePop n = true) (hcond : s.restCond n = true)
    (hheld : heldFor (s.die n).restSince (s.rdN 0x1210 2 (siteI n) * 1000000) s.lt = true) :
    Gives (.restEntry n) s fun t => t.rd 0x1200 1 (siteI n) = 2 ∧ (t.die n).restSince = none := by
  have hexec : execRestEntry n s = .next (s.enterRest n) := by
    unfold execRestEntry
    rw [if_pos ⟨hpop, hcond, hheld⟩]
  exact ⟨_, hexec, s.enterRest_effect n⟩

/-- A DAB stage of a die that wakes starts again while the DC link runs (R404). -/
def State.wakeDab (n : Nat) (s : State) (i : Nat) : State :=
  if s.rd 0x3100 0xA (siteI n) = 1 ∧ (s.rd 0x3050 2 dev = 4 ∨ s.rd 0x3050 2 dev = 5) ∧ !(s.die n).unplanned ∧
      !((s.die n).dab i).latched then
    let d := s.die n
    let x := d.dab i
    let u := s.unit n (64 + i)
    ((s.setDie n (d.setDab i { x with
      started := true, atBus := true, iPair := 0, iInt := 0, dInt := 0, limitSince := none })).setUnit n (64 + i)
      (if u.running then { u with restart := u.stopAt.isSome }
       else { u with startAt := some (s.cnt n), committed := false })).wr 0x3101 (1 + i) (siteI n) 1
  else s

/-- A die is shown awake, with the cause. -/
def State.showAwake (s : State) (n cause : Nat) : State :=
  ((s.setDie n { s.die n with restSince := none, wakeAt := none, busRamp := true }).wr 0x1200 1 (siteI n) 1).wr 0x1210 4
    (siteI n) cause

theorem State.wakeDab_same {k : Part} (hk : k ∉ [.reg 0x3101, .units, .dies]) (n : Nat) (s : State) (i : Nat) :
    State.Same k s (s.wakeDab n i) := by
  unfold State.wakeDab
  split
  · exact State.wr_same (notMem_of hk (by decide)) (State.setUnit_same (notMem_of hk (by decide))
      (State.setDie_same (notMem_of hk (by decide)) (.refl k s)))
  · exact .refl k s

theorem State.wakeDie_of_rest {s : State} {n : Nat} (h : s.rd 0x1200 1 (siteI n) = 2) (cause : Nat) :
    s.wakeDie n cause = each [0, 1] (State.wakeDab n) (s.showAwake n cause) := by
  unfold State.wakeDie State.showAwake State.wakeDab
  rw [if_pos h]

/-- A die that rests wakes, with the cause (R403). -/
theorem State.wakeDie_wakes {s : State} {n : Nat} (h : s.rd 0x1200 1 (siteI n) = 2) (cause : Nat) :
    (s.wakeDie n cause).rd 0x1200 1 (siteI n) = 1 ∧ (s.wakeDie n cause).rd 0x1210 4 (siteI n) = cause := by
  have hdabs {k : Part} (hk : k ∉ [.reg 0x3101, .units, .dies]) :
      State.Same k (s.showAwake n cause) (s.wakeDie n cause) := by
    rw [State.wakeDie_of_rest h]
    exact each_same (.refl k _) fun y i hy => hy.trans (State.wakeDab_same hk n y i)
  refine ⟨(State.rd_of_same (hdabs (by decide)) 1 (siteI n)).trans ?_,
    (State.rd_of_same (hdabs (by decide)) 4 (siteI n)).trans (State.rd_wr_self ..)⟩
  exact (State.rd_wr_ne _ _ (by simp)).trans (State.rd_wr_self ..)

theorem State.leavesBand_setChan (s : State) (c : Nat) {x : Chan} (h : x.law = (s.chan c).law) (v t : Int) :
    (s.setChan c x).leavesBand c v t = s.leavesBand c v t := by
  unfold State.leavesBand
  rw [State.chan_setChan, h]
  rfl

theorem windowLeft_gives {s : State} {c v x : Nat} (hpop : s.chanPop c = true)
    (hrests : s.rd 0x1200 1 (siteI (dieOf c)) = 2)
    (hleaves : s.leavesBand c (s.pathValue c 0 v) (s.pathValue c 2 x) = true) :
    Gives (.windowLeft c v x) s fun t =>
      t.rd 0x1200 1 (siteI (dieOf c)) = 1 ∧ t.rd 0x1210 4 (siteI (dieOf c)) = 1 := by
  refine .of_guard rfl ⟨hpop, hrests⟩ ?_
  extract_lets volts temp ch y
  have hband : y.leavesBand c volts temp = true := (State.leavesBand_setChan s c (by rfl) volts temp).trans hleaves
  rw [if_pos hband]
  exact State.wakeDie_wakes (s := y) hrests 1

theorem restWakeTimer_gives {s : State} {n x : Nat} (hpop : s.sitePop n = true) (hat : (s.die n).wakeAt = some x)
    (hx : x ≤ s.lt) (hrests : s.rd 0x1200 1 (siteI n) = 2) :
    Gives (.restWakeTimer n) s fun t => t.rd 0x1200 1 (siteI n) = 1 ∧ t.rd 0x1210 4 (siteI n) = 2 :=
  .of_guard rfl ⟨hpop, due_of_le hat hx⟩ (State.wakeDie_wakes hrests 2)

theorem busWithinSetpoint_gives {s : State} {n a b : Nat} {v : Int} (hpop : s.sitePop n = true)
    (hbus : s.busUv n (some a) (some b) = some v)
    (hnear : 50 * (v - s.rd 0x3100 4 (siteI n) * 1000).natAbs ≤ (s.rd 0x3100 4 (siteI n) * 1000).natAbs) :
    Gives (.busWithinSetpoint n a b) s fun t => (t.die n).busRamp = false :=
  .of_guard rfl ⟨hpop, by rw [hbus]; exact decide_eq_true hnear⟩ (congrArg Die.busRamp (s.die_setDie n _))

/-! ## STANDBY and SLEEP (R405 to R407) -/

/-- Leaving STANDBY takes back what waits, and locks the loop of the hub's core (R406). -/
theorem State.leaveStandby_effect (s : State) : s.leaveStandby.standbyDue = 0 ∧
    (s.rd 0x1200 1 dev = 3 → s.leaveStandby.clock.core = lockedLoop) := by
  unfold State.leaveStandby
  split
  case isFalse h => exact ⟨rfl, fun hstandby => absurd hstandby h⟩
  case isTrue =>
    extract_lets src y z w v
    have hadmit {k : Part} (hk : k ∉ [.reg 0x2500, .reg 0x6000, .slots, .dies, .trail]) : State.Same k
        { v with standbyDue := 0 } (each (0 :: v.sites) (fun s d => s.admitRestored d) { v with standbyDue := 0 }) :=
      each_same (.refl k _) fun _ _ hy => State.admitRestored_same hk hy
    have hz : State.Same .clock y z := each_same (.refl _ y) fun _ _ hy => State.setDie_same (by decide) hy
    have hv : State.Same .clock w v := each_same (.refl _ w) fun _ _ hy => by
      split
      · exact State.wr_same (by decide) hy
      · exact hy
    have hw : w.clock.core = z.clock.core := (congrArg Clock.core z.loadTimeBases_clock : z.loadTimeBases.clock.core = _)
    refine ⟨hadmit (k := .standbyDue) (by decide), fun _ => ?_⟩
    rw [show (each ..).clock = _ from hadmit (k := .clock) (by decide)]
    exact (congrArg Clock.core hv).trans (hw.trans (congrArg Clock.core hz))

section
variable {s : State} {src : Src}

theorem rd_atRequest (s : State) (src : Src) : ((s.atRequest src).touch dev).rd 0x1200 1 dev = s.rd 0x1200 1 dev :=
  State.rd_of_same ((s.atRequest_sameButNet src).frame (.reg 0x1200) (by decide)) 1 dev

theorem runRequest_gives (hacc : s.Accepts src 0x1201 1 [dev] 1 (powerReqCheck 1)) :
    Gives (.runRequest src) s fun t => t.standbyDue = 0 ∧ (s.rd 0x1200 1 dev = 3 → t.clock.core = lockedLoop) := by
  have hnet := (State.writeObj_ok (eff := powerReqSet 1) hacc).frame
  have hwakes (y : State) {k : Part} (hk : k ∉ [.reg 0x1200, .reg 0x1210, .reg 0x3101, .units, .dies]) :
      State.Same k y.leaveStandby (powerReqSet 1 y dev) := each_same (.refl k _) fun _ _ hy => State.wakeDie_same hk hy
  obtain ⟨hdue, hcore⟩ := ((s.atRequest src).touch dev).leaveStandby_effect
  refine ⟨_, rfl, ?_, fun hstandby => ?_⟩
  · exact Eq.trans ((hwakes _ (k := .standbyDue) (by decide)).trans (hnet .standbyDue (by decide))) hdue
  · exact (congrArg Clock.core ((hwakes _ (k := .clock) (by decide)).trans (hnet .clock (by decide)))).trans
      (hcore ((rd_atRequest s src).trans hstandby))

theorem standbyRequest_gives (hacc : s.Accepts src 0x1201 1 [dev] 3 (powerReqCheck 3)) :
    Gives (.standbyRequest src) s fun t => t.standbyDue = if s.rd 0x1200 1 dev = 3 then 0 else 3 := by
  have hnet := (State.writeObj_ok (eff := powerReqSet 3) hacc).frame
  have hset (y : State) : (powerReqSet 3 y dev).standbyDue = if y.rd 0x1200 1 dev = 3 then 0 else 3 := by
    unfold powerReqSet
    rw [if_neg (by decide)]
    by_cases h : y.rd 0x1200 1 dev = 3
    · rw [if_pos ⟨rfl, h⟩, if_pos h]
    · rw [if_neg fun hboth => h hboth.2, if_neg h]
      rfl
  refine ⟨_, rfl, ?_⟩
  rw [← rd_atRequest s src]
  exact Eq.trans (hnet .standbyDue (by decide)) (hset _)

theorem sleepRequest_gives (hacc : s.Accepts src 0x1201 1 [dev] 4 (powerReqCheck 4)) :
    Gives (.sleepRequest src) s fun t => t.standbyDue = 4 := by
  have hnet := (State.writeObj_ok (eff := powerReqSet 4) hacc).frame
  have hset (y : State) : (powerReqSet 4 y dev).standbyDue = 4 := by
    unfold powerReqSet
    rw [if_neg (by decide), if_neg fun h => absurd h.1 (by decide)]
    rfl
  exact ⟨_, rfl, Eq.trans (hnet .standbyDue (by decide)) (hset _)⟩

end

theorem standbyEntry_gives {s : State} (hwaits : s.standbyDue = 3 ∨ s.standbyDue = 4) (hdue : s.epochDue.isSome = true)
    (hmay : s.mayStandby = true) :
    Gives .standbyEntry s fun t => t.standbyDue = 0 ∧ t.rd 0x1200 1 dev = s.standbyDue := by
  refine .of_guard rfl ⟨by omega, hdue, hmay⟩ ?_
  extract_lets sleep y z
  have hz : z.standbyDue = 0 ∧ z.rd 0x1200 1 dev = 3 := by
    unfold z
    split
    case isTrue h => exact ⟨rfl, h⟩
    case isFalse =>
      exact ⟨State.enterStandby_same (k := .standbyDue) (by decide) (.refl _ y), State.rd_wr_self ..⟩
  obtain ⟨hnone, hstate⟩ := hz
  split
  case isTrue h =>
    exact ⟨Eq.trans (State.enterSleep_same (k := .standbyDue) (by decide) (.refl _ z)) hnone, by
      rw [show s.standbyDue = 4 from h]
      exact State.rd_wr_self ..⟩
  case isFalse h => exact ⟨hnone, by rw [hstate, hwaits.resolve_right h]; rfl⟩

theorem State.wakeBy_wakes {s : State} {k : Nat} (hsleeps : s.rd 0x1200 1 dev = 4) (hk : k < 5)
    (henabled : bit (s.rdN 0x1201 2 dev) k = true) (htimer : k = 4 → s.sleepTimer = true) :
    (s.wakeBy k).waking = true := by
  rw [State.wakeBy, if_pos ⟨hsleeps, hk, henabled, htimer⟩]

theorem wakeToStandby_gives {s : State} (hash : List Byte) (h : s.waking = true) :
    Gives (.wakeToStandby hash) s fun t =>
      t.waking = false ∧ t.rd 0x1200 1 dev = if hash = s.sleepHash then 3 else 5 := by
  refine .of_guard rfl h ?_
  split
  case isTrue hfits =>
    have hmail {k : Part} (hk : k ∉ [.lane, .flight]) (y : State) : State.Same k y (y.mail (.mailboxSubscribe 0x3F)) :=
      State.mail_same hk (.refl k y)
    refine ⟨hmail (k := .waking) (by decide) _, ?_⟩
    rw [State.rd_of_same (hmail (k := .reg 0x1200) (by decide) _), State.rd_wr_ne _ _ (by simp), State.rd_wr_self]
  case isFalse => exact ⟨rfl, State.rd_wr_self ..⟩

/-- Settles O48: each command's guard holds, or its request is accepted, so its effect is read off its operation, and the
frame is that of the command. -/
theorem powerStates : Obligations.PowerStates := by
  refine ⟨?rest, ?window, ?timer, ?bus, ?run, ?standby, ?sleep, ?entry, ?wake, ?wakeTimer, ?resume⟩
  case rest =>
    intro n s hpop _ hcond hheld
    exact (restEntry_gives hpop hcond hheld).framed fun k hk => execRestEntry_same hk (.refl k s)
  case window =>
    intro c v x s hpop hrests hleaves
    exact (windowLeft_gives hpop hrests hleaves).framed fun k hk => execWindowLeft_same hk (.refl k s)
  case timer =>
    intro n x s hpop hat hx hrests
    exact (restWakeTimer_gives hpop hat hx hrests).framed fun k hk => execRestWakeTimer_same hk (.refl k s)
  case bus =>
    intro n a b v s hpop hbus hnear
    exact (busWithinSetpoint_gives hpop hbus hnear).framed fun k hk => execBusWithinSetpoint_same hk (.refl k s)
  case run =>
    intro src s hacc
    exact (runRequest_gives hacc).framed fun k hk => execRunRequest_same hk (.refl k s)
  case standby =>
    intro src s hacc
    exact (standbyRequest_gives hacc).framed fun k hk => execStandbyRequest_same hk (.refl k s)
  case sleep =>
    intro src s hacc
    exact (sleepRequest_gives hacc).framed fun k hk => execSleepRequest_same hk (.refl k s)
  case entry =>
    intro s hwaits hdue hmay
    exact (standbyEntry_gives hwaits hdue hmay).framed fun k hk => execStandbyEntry_same hk (.refl k s)
  case wake =>
    intro k s hsleeps hk henabled
    exact Gives.framed ⟨_, rfl, State.wakeBy_wakes hsleeps (by omega) henabled (by omega)⟩ fun k hk =>
      execSleepWake_same hk (.refl k s)
  case wakeTimer =>
    intro s hsleeps henabled htimer
    exact Gives.framed ⟨_, rfl, State.wakeBy_wakes hsleeps (by decide) henabled fun _ => htimer⟩ fun k hk =>
      execSleepWakeTimer_same hk (.refl k s)
  case resume =>
    intro hash s h
    exact (wakeToStandby_gives hash h).framedHidden fun k hk hr => execWakeToStandby_same hr hk (.refl k s)

end Sys2Proof.Machine
end

section
/-! The statement on VIO banks and the hub's temperature. -/

namespace Sys2Proof.Machine

/-! ## VIO banks (R528, R530, R531) -/

theorem State.vioUnder_of_same {s t : State} (hregs : State.Same (.reg 0x1220) s t) (hqm : State.Same .qm s t) (b : Nat) :
    t.vioUnder b = s.vioUnder b := by
  rw [State.vioUnder, State.vioUnder, State.rdN, State.rdN, hregs, show t.qm = s.qm from hqm]

theorem State.vioUnder_markBank (s : State) (b : Nat) (under : Bool) : (s.markBank b under).vioUnder b = under := by
  unfold State.markBank State.vioUnder
  extract_lets src x
  split
  · exact Bool.not_not under
  · rw [State.rdN, State.rd_wr_self]
    cases under
    · exact bit_clearBit_self ..
    · exact bit_setBit_self ..

/-- A supply event is noted and counted; no bank's bit changes. -/
theorem State.bankNote_keeps (s : State) (b : Nat) (under : Bool) :
    (∀ b', (s.bankNote b under).vioUnder b' = s.vioUnder b') ∧ (s.bankNote b under).bank b = s.bank b := by
  have hnote (y : State) : State.Same (.reg 0x1220) (y.inc 0x1220 5 dev) (y.supplyNote b under) :=
    State.note_same (by decide) (.refl _ _)
  unfold State.bankNote
  split
  · have hqm : State.Same .qm s (s.supplyNote b under) := State.supplyNote_same (by decide) (.refl _ s)
    have hbanks : State.Same .banks s (s.supplyNote b under) := State.supplyNote_same (by decide) (.refl _ s)
    refine ⟨fun b' => ?_, ?_⟩
    · rw [State.vioUnder, State.vioUnder, State.rdN, State.rdN, State.rd_of_same (hnote s), State.inc,
        State.rd_wr_ne _ _ (by simp), show (s.supplyNote b under).qm = s.qm from hqm]
    · rw [State.bank, State.bank, show (s.supplyNote b under).qm = s.qm from hqm,
        show (s.supplyNote b under).banks = s.banks from hbanks]
  · exact ⟨fun _ => rfl, rfl⟩

/-- Without MCLK the supply of the QM still reads as it did. -/
theorem State.mclkFault_vioM (s : State) : s.mclkFault.qm.vioM = s.qm.vioM := by
  unfold State.mclkFault
  split
  · rfl
  · rfl

/-- What the loss of a bank does leaves its bit. -/
theorem State.vioUnder_bankLost (s : State) (b : Nat) : (s.bankLost b).vioUnder b = s.vioUnder b := by
  unfold State.bankLost
  split
  case isTrue =>
    exact State.vioUnder_of_same (State.controlledStop_same (by decide) (State.latchHubOutputs_same (by decide)
      (.refl _ s))) (State.controlledStop_same (by decide) (State.latchHubOutputs_same (by decide) (.refl _ s))) b
  case isFalse =>
    split
    case isTrue =>
      exact State.vioUnder_of_same (State.networkSupply_same (by decide) (.refl _ s))
        (State.networkSupply_same (by decide) (.refl _ s)) b
    case isFalse =>
      split
      case isTrue h => rw [State.vioUnder, State.vioUnder, if_pos h, if_pos h, State.mclkFault_vioM]
      case isFalse =>
        split
        case isTrue =>
          exact State.vioUnder_of_same (State.siteSupply_same (by decide) (.refl _ s))
            (State.siteSupply_same (by decide) (.refl _ s)) b
        case isFalse => rfl

theorem vioUndervoltage_gives {s : State} {b mv : Nat} (hwatched : s.bankWatched b = true)
    (hlow : mv < bankThreshold (s.bank b).cls) (hnew : s.vioUnder b = false) :
    Gives (.vioUndervoltage b mv) s fun t => t.vioUnder b = true := by
  refine .of_guard rfl ⟨hwatched, hlow, by rw [hnew]; rfl⟩ ?_
  rw [State.vioUnder_bankLost, (State.bankNote_keeps _ b true).1, State.vioUnder_markBank]

theorem State.bank_readBank (s : State) (b mv : Nat) :
    (s.readBank b mv).bank b = { cls := bankClass mv, since := s.clock.cnt } := by
  unfold State.readBank State.bank
  extract_lets x
  split
  · rfl
  · exact look_put_self ..

section
variable {s : State} {b mv : Nat} (hwatched : s.bankWatched b = true)
  (htime : (s.bank b).since + 320000 ≤ s.clock.cnt)
include hwatched htime

theorem vioRecovery_valid (hpresent : (s.bank b).cls ≠ 0) (hunder : s.vioUnder b = true)
    (hhigh : bankThreshold (s.bank b).cls ≤ mv) : Gives (.vioRecovery b mv) s fun t => t.vioUnder b = false := by
  refine .of_guard rfl ⟨hwatched, htime⟩ ?_
  rw [if_neg hpresent, if_pos ⟨hunder, hhigh⟩, (State.bankNote_keeps _ b false).1, State.vioUnder_markBank]

theorem vioRecovery_found (habsent : (s.bank b).cls = 0) :
    Gives (.vioRecovery b mv) s fun t => t.bank b = { cls := bankClass mv, since := s.clock.cnt } := by
  refine .of_guard rfl ⟨hwatched, htime⟩ ?_
  rw [if_pos habsent]
  split
  · exact s.bank_readBank b mv
  · rw [(State.bankNote_keeps _ b false).2, s.bank_readBank b mv]

end

/-! ## The hub's temperature (R536) -/

/-- Above its limit the time since it stands there is kept; after 10 ms the controlled stop starts, once. -/
theorem State.hotJob_effect (s : State) : s.hotJob.hot.since = some (s.hot.since.getD s.clock.cnt) ∧
    State.Same (.reg 0x1221) s s.hotJob ∧
    (s.hot.since.getD s.clock.cnt + hotTime ≤ s.clock.cnt → s.hot.acted = false → StopsWith 18 s s.hotJob) := by
  refine ⟨?_, State.hotJob_same (by decide) (.refl _ s), fun htime hfirst => ?_⟩
  · unfold State.hotJob
    extract_lets since src y src'
    split
    · rw [show (State.controlledStop _ 18).hot = _ from State.controlledStop_same (k := .hot) (by decide) (.refl _ _)]
    · rfl
  · unfold State.hotJob
    extract_lets since src y src'
    rw [if_pos ⟨htime, by rw [show y.hot.acted = false from hfirst]; rfl⟩]
    exact (State.controlledStop_stops _ 18).after fun _ _ => rfl

theorem hubOverTemperature_gives {s : State} (x : Int) (hfw : s.fw = true) :
    Gives (.hubOverTemperature x) s fun t => t.rd 0x1221 1 dev = x ∧ t.rd 0x1221 3 dev = max (s.rd 0x1221 3 dev) x ∧
      (x ≤ 10 * s.rd 0x1221 2 dev → t.hot = {}) ∧
      (10 * s.rd 0x1221 2 dev < x → t.hot.since = some (s.hot.since.getD s.clock.cnt) ∧
        (s.hot.since.getD s.clock.cnt + hotTime ≤ s.clock.cnt → s.hot.acted = false → StopsWith 18 s t)) := by
  refine .of_guard rfl hfw ?_
  extract_lets y
  have hnow : y.rd 0x1221 1 dev = x := (State.rd_wr_ne _ _ (by simp)).trans (State.rd_wr_self ..)
  have hpeak : y.rd 0x1221 3 dev = max (s.rd 0x1221 3 dev) x := State.rd_wr_self ..
  have hlimit : y.rd 0x1221 2 dev = s.rd 0x1221 2 dev :=
    (State.rd_wr_ne _ _ (by simp)).trans (State.rd_wr_ne _ _ (by simp))
  rw [hlimit]
  obtain ⟨hsince, hregs, hstops⟩ := y.hotJob_effect
  split
  case isTrue h =>
    refine ⟨(State.rd_of_same hregs 1 dev).trans hnow, (State.rd_of_same hregs 3 dev).trans hpeak,
      fun hle => absurd h (Int.not_lt.2 hle), fun _ => ⟨hsince, fun htime hfirst => ?_⟩⟩
    exact (hstops htime hfirst).after (State.wr_same (by decide) (State.wr_same (by decide) (.refl _ s)))
  case isFalse h => exact ⟨hnow, hpeak, fun _ => rfl, fun hlt => absurd hlt h⟩

/-- Settles O49: each command's guard holds, so its effect is read off its operation, and the frame is that of the
command. -/
theorem supplyBanks : Obligations.SupplyBanks := by
  refine ⟨?lost, ?valid, ?found, ?hot⟩
  case lost =>
    intro b mv s hwatched hlow hnew
    exact (vioUndervoltage_gives hwatched hlow hnew).framed fun k hk => execVioUndervoltage_same hk (.refl k s)
  case valid =>
    intro b mv s hwatched htime hpresent hunder hhigh
    exact (vioRecovery_valid hwatched htime hpresent hunder hhigh).framed fun k hk => execVioRecovery_same hk (.refl k s)
  case found =>
    intro b mv s hwatched htime habsent
    exact (vioRecovery_found hwatched htime habsent).framed fun k hk => execVioRecovery_same hk (.refl k s)
  case hot =>
    intro x s hfw
    exact (hubOverTemperature_gives x hfw).framed fun k hk => execHubOverTemperature_same hk (.refl k s)

end Sys2Proof.Machine
end

section
/-! O16, ReleaseAndDieLatchFrames: a good frame is received, so that its action is what the command does; and what each
action leaves. -/

namespace Sys2Proof.Machine

/-! ## Frames that are received (R31, R508) -/

/-- A die has received a frame: it has left the wire, the replay of its sending has ended, and the die is awake. -/
def State.dieGot (s : State) (n code : Nat) : State := ((s.endAgain n .toDie 0).frameIn n .toDie code).wakeDie n 5

/-- The hub has received a frame. -/
def State.hubGot (s : State) (n code : Nat) : State := (s.endAgain n .toHub 0).frameIn n .toHub code

theorem State.GetsFrame.arrives {s : State} {n code : Nat} {a b w : Frame64} (h : s.GetsFrame n .toDie code a b w)
    (hcode : dieCode code = true) (f : Nat → State → State) :
    s.arrives n code a b f = f (frameCorr w) (s.dieGot n code) := by
  obtain ⟨hlink, hgood, rfl, hclear⟩ := h
  simp [State.arrives, State.dieGot, hlink, hgood, hclear, hcode]

theorem State.GetsFrame.hubFrame {s : State} {n code : Nat} {a b w : Frame64} (h : s.GetsFrame n .toHub code a b w)
    (f : Nat → Nat → State → State) :
    s.hubFrame n code a b f = f (frameArg w) (frameCorr w) (s.hubGot n code) := by
  obtain ⟨hlink, hgood, rfl, hclear⟩ := h
  simp [State.hubFrame, State.hubGot, hlink, hgood, hclear]

theorem State.dieGot_same {k : Part} (s : State) (n code : Nat)
    (hk : k ∉ [.reg 0x1200, .reg 0x1210, .reg 0x3101, .reg 0x6000, .units, .dies, .trail]) :
    State.Same k s (s.dieGot n code) :=
  State.wakeDie_same (notMem_of hk (by decide)) (State.frameIn_same (notMem_of hk (by decide))
    (State.endAgain_same (notMem_of hk (by decide)) (.refl k s)))

theorem State.hubGot_same {k : Part} (s : State) (n code : Nat) (hk : k ∉ [.reg 0x6000, .dies, .trail]) :
    State.Same k s (s.hubGot n code) :=
  State.frameIn_same (notMem_of hk (by decide)) (State.endAgain_same (notMem_of hk (by decide)) (.refl k s))

/-! ## The frames that wait at a die that wakes (R32) -/

theorem Die.up_setDab (d : Die) (i : Nat) (x : Dab) : (d.setDab i x).up = d.up := by
  unfold Die.setDab
  split
  · rfl
  · rfl

theorem State.wakeDie_up (s : State) (n cause : Nat) : ((s.wakeDie n cause).die n).up = (s.die n).up := by
  unfold State.wakeDie
  split
  case isFalse => rw [State.die_setDie]
  case isTrue =>
    extract_lets d y z
    have hz : (z.die n).up = (s.die n).up := by
      have hdie : z.die n = { s.die n with restSince := none, wakeAt := none, busRamp := true } := State.die_setDie ..
      rw [hdie]
    refine each_induct (r := fun y => (y.die n).up = (s.die n).up) hz fun y j _ hy => ?_
    split
    · rw [State.die_wr, State.die_setUnit, State.die_setDie, Die.up_setDab, hy]
    · exact hy

theorem State.raise_others (s : State) (site chan code : Nat) (data : List Byte) (corr n : Nat) :
    ((s.raise site chan code data corr).die n).up.others = (s.die n).up.others := by
  obtain ⟨sent, queue, hdie⟩ := (s.raise_trailOnly site chan code data corr).die n
  rw [hdie]
  rfl

theorem State.onLink_toDie_up (s : State) (n : Nat) (f : Link → Link) : ((s.onLink n .toDie f).die n).up = (s.die n).up := by
  rw [State.onLink, State.die_setDie]
  rfl

theorem State.frameIn_toDie_up (s : State) (n code : Nat) : ((s.frameIn n .toDie code).die n).up = (s.die n).up := by
  unfold State.frameIn
  dsimp only
  split
  · rw [State.die_setDie]
    rfl
  · rfl

theorem State.endAgain_toDie_others (s : State) (n outcome : Nat) :
    ((s.endAgain n .toDie outcome).die n).up.others = (s.die n).up.others := by
  unfold State.endAgain
  extract_lets r
  split
  · rfl
  · rw [State.onLink_toDie_up]
    exact State.raise_others ..

/-- The frames that wait at a die to be sent still do when it has received one. -/
theorem State.dieGot_others (s : State) (n code : Nat) : ((s.dieGot n code).die n).up.others = (s.die n).up.others := by
  rw [State.dieGot, State.wakeDie_up, State.frameIn_toDie_up, State.endAgain_toDie_others]

theorem mem_insFrame_self (f : LFrame) (l : List LFrame) : f ∈ insFrame f l := by
  induction l with
  | nil => exact List.mem_singleton_self f
  | cons g t ih =>
    unfold insFrame
    split
    · exact List.mem_cons_self
    · exact List.mem_cons_of_mem g ih

theorem insFrame_length (f : LFrame) (l : List LFrame) : (insFrame f l).length = l.length + 1 := by
  induction l with
  | nil => rfl
  | cons g t ih =>
    unfold insFrame
    split
    · rfl
    · rw [List.length_cons, ih, List.length_cons]

/-- A frame that finds fewer than 8 others before it is pending (R32). -/
theorem Link.mem_raiseF {l : Link} {f : LFrame} (h : l.others.length < 8) : f ∈ (l.raiseF f).pending := by
  unfold Link.raiseF
  split
  · exact List.mem_append_right _ (List.mem_singleton_self f)
  · have hall : (insFrame f l.others).take 8 = insFrame f l.others :=
      List.take_of_length_le (by rw [insFrame_length]; omega)
    rw [Link.hold, hall]
    exact List.mem_append_right _ (mem_insFrame_self f l.others)

/-! ## Bits of tag 7 (R112) -/

theorem bit_ofNat {b : Nat} (v : Nat) (hb : b < 32) : bit (BitVec.ofNat 32 v).toNat b = bit v b := by
  rw [bit_eq_testBit, bit_eq_testBit, BitVec.toNat_ofNat, Nat.testBit_mod_two_pow, decide_eq_true hb, Bool.true_and]

theorem State.tagBit_self (s : State) (n : Nat) {b : Nat} (hb : b < 32) (on : Bool) :
    bit ((s.tagBit n b on).die n).tag7.toNat b = on := by
  rw [State.tagBit, State.die_setDie, bit_ofNat _ hb]
  cases on with
  | true => exact bit_setBit_self ..
  | false => exact bit_clearBit_self ..

theorem State.tagBit_ne (s : State) (n : Nat) {b x : Nat} (hb : b < 32) (hx : b ≠ x) (on : Bool) :
    bit ((s.tagBit n x on).die n).tag7.toNat b = bit (s.die n).tag7.toNat b := by
  rw [State.tagBit, State.die_setDie, bit_ofNat _ hb]
  cases on with
  | true => exact bit_setBit_ne _ hx
  | false => exact bit_clearBit_ne _ hx

/-! ## The frames to a die -/

section
variable {s : State} {n : Nat} {a b w : Frame64}

/-- The door monitor of a channel ends. -/
def State.endDoor (s : State) (c : Nat) : State :=
  let ch := s.chan c
  if ch.sup.door.isSome then s.setChan c { ch with sup := { ch.sup with door := none } } else s

theorem State.endDoor_self (s : State) (c : Nat) : ((s.endDoor c).chan c).sup.door = none := by
  unfold State.endDoor
  extract_lets ch
  split
  case isTrue => rw [State.chan_setChan]
  case isFalse h => exact Option.not_isSome_iff_eq_none.1 h

theorem State.endDoor_keeps {s : State} {c d : Nat} (h : (s.chan d).sup.door = none) :
    ((s.endDoor c).chan d).sup.door = none := by
  by_cases hd : d = c
  · rw [hd]
    exact s.endDoor_self c
  · unfold State.endDoor
    extract_lets ch
    split
    · rw [State.chan_setChan_ne _ _ hd, h]
    · exact h

theorem State.endDoor_die (s : State) (c d : Nat) : (s.endDoor c).die d = s.die d := by
  unfold State.endDoor
  extract_lets ch
  split
  · rfl
  · rfl

theorem doorRelease_gives (h : s.GetsFrame n .toDie 0x09 a b w) :
    Gives (.doorRelease n a b) s fun t =>
      (t.die n).door = false ∧ ∀ c ∈ siteChans n, (t.chan c).sup.door = none := by
  have hexec : execDoorRelease n a b s = .next (each (siteChans n) State.endDoor
      ((s.dieGot n 0x09).setDie n { (s.dieGot n 0x09).die n with door := false })) := by
    have hact : execDoorRelease n a b s = .next (s.arrives n 0x09 a b fun _ y => each (siteChans n) State.endDoor
        (y.setDie n { y.die n with door := false })) := rfl
    rw [hact, h.arrives (by decide)]
  refine ⟨_, hexec, ?_, fun c hc => ?_⟩
  · rw [each_keep (fun y => y.die n) _ _ fun y c => y.endDoor_die c n, State.die_setDie]
  · exact each_reaches (inv := fun _ => True) (p := fun c y => (y.chan c).sup.door = none) (fun _ _ _ => trivial)
      (fun y c _ => y.endDoor_self c) (fun _ _ _ hy => State.endDoor_keeps hy) trivial (.inl hc)

theorem State.deassertSource_keeps {s : State} {n k : Nat} (j : Nat) (h : bit (s.rdN 0x2803 9 (siteI n)) k = false) :
    bit ((s.deassertSource n j).rdN 0x2803 9 (siteI n)) k = false := by
  by_cases hj : k = j
  · rw [hj]
    exact s.deassertSource_bit n j
  · rw [State.deassertSource, State.rdN, State.rd_wr_self, Int.toNat_natCast, bit_clearBit_ne _ hj, h]

theorem State.deassertSource_die (s : State) (n k d : Nat) : (s.deassertSource n k).die d = s.die d := rfl

theorem runRelease_gives (h : s.GetsFrame n .toDie 0x0A a b w) :
    Gives (.runRelease n a b) s fun t =>
      bit (t.die n).tag7.toNat 0 = false ∧ bit (t.die n).tag7.toNat 1 = false ∧
        ∀ k ∈ [4, 5, 6, 7], bit (t.rdN 0x2803 9 (siteI n)) k = false := by
  have hexec : execRunRelease n a b s = .next (each [4, 5, 6, 7] (fun s k => s.deassertSource n k)
      (((s.dieGot n 0x0A).tagBit n 0 false).tagBit n 1 false)) := by
    unfold execRunRelease
    rw [h.arrives (by decide)]
  have hdie (l : List Nat) (y : State) : (each l (fun s k => s.deassertSource n k) y).die n = y.die n :=
    each_keep (fun y => y.die n) l _ (fun y k => y.deassertSource_die n k n) y
  refine ⟨_, hexec, ?_, ?_, fun k hk => ?_⟩
  · rw [hdie, State.tagBit_ne _ _ (by decide) (by decide), State.tagBit_self _ _ (by decide)]
  · rw [hdie, State.tagBit_self _ _ (by decide)]
  · exact each_reaches (inv := fun _ => True) (p := fun k y => bit (y.rdN 0x2803 9 (siteI n)) k = false)
      (fun _ _ _ => trivial) (fun y k _ => y.deassertSource_bit n k) (fun _ j _ hy => State.deassertSource_keeps j hy)
      trivial (.inl hk)

theorem test_gives (h : s.GetsFrame n .toDie 0x0B a b w) (hroom : ((s.die n).link .toHub).others.length < 8) :
    Gives (.test n a b) s fun t =>
      ⟨0x2B, 127, frameCorr w, s.clock.cnt⟩ ∈ ((t.die n).link .toHub).pending := by
  have hexec : execTest n a b s = .next ((s.dieGot n 0x0B).raiseFrame n .toHub 0x2B 127 (frameCorr w)) := by
    unfold execTest
    rw [h.arrives (by decide)]
  have hclock : (s.dieGot n 0x0B).clock = s.clock := s.dieGot_same (k := .clock) n 0x0B (by decide)
  refine ⟨_, hexec, ?_⟩
  dsimp only
  rw [State.raiseFrame, State.die_setDie, hclock]
  refine Link.mem_raiseF ?_
  have hothers := s.dieGot_others n 0x0B
  exact hothers ▸ hroom

/-! ## The frames to the hub -/

/-- The die's path test has passed (R363). -/
def State.echoed (s : State) (n : Nat) : State := s.setDie n { s.die n with echoAt := none, tested := true }

theorem State.frameIn_echo (s : State) (n code : Nat) :
    ((s.frameIn n .toHub code).die n).echoAt = (s.die n).echoAt := by
  unfold State.frameIn
  dsimp only
  split
  · rw [State.die_setDie]
    rfl
  · rfl

theorem State.endAgain_echo (s : State) (n outcome : Nat) :
    ((s.endAgain n .toHub outcome).die n).echoAt = (s.die n).echoAt := by
  unfold State.endAgain
  extract_lets r
  split
  · rfl
  · rw [State.onLink, State.die_setDie]
    obtain ⟨sent, queue, hdie⟩ := (s.raise_trailOnly (receiverOf n .toHub) noChan 0x0022
      (leNat 1 n ++ leNat 1 (dirField .toHub) ++ leNat 1 r.retries ++ leNat 1 outcome) r.corr).die n
    rw [State.replayNote, hdie]
    rfl

theorem State.hubGot_echo (s : State) (n code : Nat) : ((s.hubGot n code).die n).echoAt = (s.die n).echoAt := by
  rw [State.hubGot, State.frameIn_echo, State.endAgain_echo]

theorem State.armable_of_same {s t : State} (hvariant : State.Same .variant s t) (hbanks : State.Same .banks s t)
    (hpower : State.Same (.reg 0x1200) s t) (hdrivers : State.Same (.reg 0x2800) s t)
    (hsupply : State.Same (.reg 0x1220) s t) (n : Nat) : t.armable n = s.armable n := by
  rw [State.armable, State.armable, State.sitePop, State.sitePop, State.vioOk, State.vioOk, State.rdN, State.rdN,
    State.rd_of_same hpower, State.rd_of_same hdrivers, State.rd_of_same hsupply, show t.variant = s.variant from hvariant,
    show t.banks = s.banks from hbanks]

theorem testEcho_gives {e : Nat} (h : s.GetsFrame n .toHub 0x2B a b w) (hat : (s.die n).echoAt = some e) (hin : s.lt < e) :
    Gives (.testEcho n a b) s fun t =>
      (t.die n).echoAt = none ∧ (t.die n).tested = true ∧ (s.armable n = true → t.rd 0x2800 4 (siteI n) = 1) := by
  have hgot {k : Part} (hk : k ∉ [.reg 0x6000, .dies, .trail]) : State.Same k s (s.hubGot n 0x2B) :=
    s.hubGot_same n 0x2B hk
  have hlt : (s.hubGot n 0x2B).lt < e := by
    rwa [State.lt, show (s.hubGot n 0x2B).clock = s.clock from hgot (k := .clock) (by decide)]
  have hexec : execTestEcho n a b s = .next ((if ((s.hubGot n 0x2B).echoed n).armable n then
      ((s.hubGot n 0x2B).echoed n).wr 0x2800 4 (siteI n) 1 else (s.hubGot n 0x2B).echoed n).testsDone).checkReady := by
    unfold execTestEcho State.echoed
    rw [h.hubFrame]
    dsimp only
    rw [State.hubGot_echo, hat]
    dsimp only
    rw [if_pos hlt]
  have hrest {k : Part} (y : State) (hk : k ∉ [.reg 0x4000, .reg 0x1202, .reg 0x7032, .reg 0x7050, .blob 0x7033, .sec]) :
      State.Same k y (y.testsDone).checkReady :=
    State.checkReady_same (notMem_of hk (by decide)) (State.testsDone_same (notMem_of hk (by decide)) (.refl k y))
  have hdie : (if ((s.hubGot n 0x2B).echoed n).armable n then ((s.hubGot n 0x2B).echoed n).wr 0x2800 4 (siteI n) 1 else
      (s.hubGot n 0x2B).echoed n).die n = { (s.hubGot n 0x2B).die n with echoAt := none, tested := true } := by
    split
    · exact State.die_setDie ..
    · exact State.die_setDie ..
  have hfinal := State.die_of_same (hrest (k := .dies) (if ((s.hubGot n 0x2B).echoed n).armable n then
    ((s.hubGot n 0x2B).echoed n).wr 0x2800 4 (siteI n) 1 else (s.hubGot n 0x2B).echoed n) (by decide)) n
  refine ⟨_, hexec, ?_, ?_, fun harm => ?_⟩
  · rw [hfinal, hdie]
  · rw [hfinal, hdie]
  · have hset {k : Part} (hk : k ∉ [.dies]) (y : State) : State.Same k y (y.echoed n) := State.setDie_same hk (.refl k y)
    have hready : ((s.hubGot n 0x2B).echoed n).armable n = true := by
      have hsame {k : Part} (hk : k ∉ [.reg 0x6000, .dies, .trail]) : State.Same k s ((s.hubGot n 0x2B).echoed n) :=
        (hgot hk).trans (hset (notMem_of hk (by decide)) _)
      rw [State.armable_of_same (hsame (by decide)) (hsame (by decide)) (hsame (by decide)) (hsame (by decide))
        (hsame (by decide)), harm]
    rw [if_pos hready]
    exact (State.rd_of_same (hrest _ (by decide)) 4 (siteI n)).trans (State.rd_wr_self ..)

/-- The segment marks show as soon as one of them is set (R288). -/
theorem State.showMarks_bit {s : State} {n : Nat}
    (h : ((s.die n).markBus || (s.die n).markClk || (s.die n).markRst || (s.die n).markLost) = true) :
    bit ((s.showMarks n).rdN 0x3104 0 (siteI n)) 1 = true := by
  simp only [State.showMarks, if_pos h]
  rw [State.rdN, State.rd_wr_self, Int.toNat_natCast, bit_setBit_self]

/-- The segment of a die is marked, which shows, and is noted. -/
theorem State.markNote_shows (s : State) (n : Nat) {x : Die} (reason corr : Nat)
    (h : (x.markBus || x.markClk || x.markRst || x.markLost) = true) :
    (∃ sent queue, ((((s.setDie n x).showMarks n).markNote n reason corr).die n) =
      { x with sent := sent, up := { x.up with queue := queue } }) ∧
      bit ((((s.setDie n x).showMarks n).markNote n reason corr).rdN 0x3104 0 (siteI n)) 1 = true := by
  constructor
  · obtain ⟨sent, queue, hdie⟩ := (((s.setDie n x).showMarks n).raise_trailOnly 0 noChan 0x3005
      (leNat 1 n ++ leNat 1 reason) corr).die n
    have hmarks : ((s.setDie n x).showMarks n).die n = x := State.die_setDie ..
    exact ⟨sent, queue, by rw [State.markNote, hdie, hmarks]⟩
  · have hnote : State.Same (.reg 0x3104) ((s.setDie n x).showMarks n) (((s.setDie n x).showMarks n).markNote n reason corr) :=
      State.markNote_same (by decide) (.refl _ _)
    rw [State.rdN, State.rd_of_same hnote]
    exact State.showMarks_bit (by rwa [State.die_setDie])

theorem segmentBusFault_gives (h : s.GetsFrame n .toHub 0x20 a b w) :
    Gives (.segmentBusFault n a b) s fun t =>
      (t.die n).markBus = true ∧ bit (t.rdN 0x3104 0 (siteI n)) 1 = true := by
  have hexec : execSegmentBusFault n a b s = .next ((((s.hubGot n 0x20).setDie n
      { (s.hubGot n 0x20).die n with markBus := true }).showMarks n).markNote n 1 (frameCorr w)) := by
    unfold execSegmentBusFault
    rw [h.hubFrame]
  obtain ⟨⟨sent, queue, hdie⟩, hbit⟩ := (s.hubGot n 0x20).markNote_shows n
    (x := { (s.hubGot n 0x20).die n with markBus := true }) 1 (frameCorr w) rfl
  exact ⟨_, hexec, by rw [hdie], hbit⟩

theorem clockLost_gives (h : s.GetsFrame n .toHub 0x22 a b w) :
    Gives (.clockLost n a b) s fun t =>
      (t.die n).markClk = true ∧ bit (t.rdN 0x3104 0 (siteI n)) 1 = true := by
  have hexec : execClockLost n a b s = .next ((((s.hubGot n 0x22).setDie n
      { (s.hubGot n 0x22).die n with markClk := true }).showMarks n).markNote n 2 (frameCorr w)) := by
    unfold execClockLost
    rw [h.hubFrame]
  obtain ⟨⟨sent, queue, hdie⟩, hbit⟩ := (s.hubGot n 0x22).markNote_shows n
    (x := { (s.hubGot n 0x22).die n with markClk := true }) 2 (frameCorr w) (by simp)
  exact ⟨_, hexec, by rw [hdie], hbit⟩

theorem dabStageLatched_gives (h : s.GetsFrame n .toHub 0x23 a b w) :
    Gives (.dabStageLatched n a b) s fun t => bit (t.rdN 0x3104 0 (siteI n)) 0 = true := by
  refine ⟨_, congrArg Host.Outcome.next (h.hubFrame _), ?_⟩
  extract_lets i y
  have hset : bit (y.rdN 0x3104 0 (siteI n)) 0 = true := by
    rw [State.rdN, State.rd_wr_self, Int.toNat_natCast, bit_setBit_self]
  split
  · have hraise (c : Nat) (data : List Byte) (corr : Nat) :
        (y.raise 0 c 0x3004 data corr).rd 0x3104 0 (siteI n) = y.rd 0x3104 0 (siteI n) :=
      State.rd_of_same (State.raise_same (by decide) (.refl _ y)) ..
    exact (congrArg (fun v => bit v.toNat 0) (hraise ..)).trans hset
  · exact hset

/-- A frame of R350 that the hub has received stands in the list, from which those beyond the window are gone. -/
def State.thermalIn (s : State) : State :=
  s.setSup { s.sup with
    thermal := (s.lt :: s.sup.thermal).filter fun t => decide (s.lt ≤ t + s.rdN 0x4035 2 dev * 1000000000) }

theorem State.thermalIn_list (s : State) : s.thermalIn.sup.thermal.head? = some s.lt ∧
    ∀ x ∈ s.thermalIn.sup.thermal, s.lt ≤ x + s.rdN 0x4035 2 dev * 1000000000 := by
  constructor
  · have hnow : s.lt ≤ s.lt + s.rdN 0x4035 2 dev * 1000000000 := Nat.le_add_right ..
    simp [State.thermalIn]
  · intro x hx
    exact of_decide_eq_true (List.mem_filter.1 hx).2

theorem State.thermal_of_watch {s t : State} (h : t.watch = s.watch) : t.sup.thermal = s.sup.thermal :=
  (congrArg Super.thermal h : t.watch.thermal = s.watch.thermal)

theorem overTemperature_gives (h : s.GetsFrame n .toHub 0x21 a b w) :
    Gives (.overTemperature n a b) s fun t =>
      t.sup.thermal.head? = some s.lt ∧ ∀ x ∈ t.sup.thermal, s.lt ≤ x + s.rdN 0x4035 2 dev * 1000000000 := by
  have hgot {k : Part} (hk : k ∉ [.reg 0x6000, .dies, .trail]) : State.Same k s (s.hubGot n 0x21) :=
    s.hubGot_same n 0x21 hk
  have hclock : (s.hubGot n 0x21).lt = s.lt := by
    rw [State.lt, State.lt, show (s.hubGot n 0x21).clock = s.clock from hgot (k := .clock) (by decide)]
  have hlist := (s.hubGot n 0x21).thermalIn_list
  rw [hclock, State.rdN, State.rd_of_same (hgot (k := .reg 0x4035) (by decide)), ← State.rdN] at hlist
  refine ⟨_, congrArg Host.Outcome.next (h.hubFrame _), ?_⟩
  extract_lets span l src y count
  have hy : y.sup.thermal = (s.hubGot n 0x21).thermalIn.sup.thermal := rfl
  have hshows {t : State} (ht : t.sup.thermal = y.sup.thermal) :
      t.sup.thermal.head? = some s.lt ∧ ∀ x ∈ t.sup.thermal, s.lt ≤ x + s.rdN 0x4035 2 dev * 1000000000 := by
    rw [ht, hy]
    exact hlist
  split
  · exact hshows (Eq.trans (State.thermal_of_watch (State.watch_fireAlone _)) rfl)
  · exact hshows rfl

end

/-- Settles O16: a good frame reaches its action; an action's last stages leave what it set. -/
theorem releaseAndDieLatchFrames : Obligations.ReleaseAndDieLatchFrames := by
  refine ⟨?door, ?run, ?test, ?echo, ?bus, ?hot, ?clock, ?dab⟩
  case door =>
    intro n a b w s h
    exact (doorRelease_gives h).framed fun k hk => execDoorRelease_same hk (.refl k s)
  case run =>
    intro n a b w s h
    exact (runRelease_gives h).framed fun k hk => execRunRelease_same hk (.refl k s)
  case test =>
    intro n a b w s h hroom
    exact (test_gives h hroom).framed fun k hk => execTest_same hk (.refl k s)
  case echo =>
    intro n a b w e s h hat hin
    exact (testEcho_gives h hat hin).framed fun k hk => execTestEcho_same hk (.refl k s)
  case bus =>
    intro n a b w s h
    exact (segmentBusFault_gives h).framed fun k hk => execSegmentBusFault_same hk (.refl k s)
  case hot =>
    intro n a b w s h
    exact (overTemperature_gives h).framed fun k hk => execOverTemperature_same hk (.refl k s)
  case clock =>
    intro n a b w s h
    exact (clockLost_gives h).framed fun k hk => execClockLost_same hk (.refl k s)
  case dab =>
    intro n a b w s h
    exact (dabStageLatched_gives h).framed fun k hk => execDabStageLatched_same hk (.refl k s)

end Sys2Proof.Machine
end

section
/-! O15, HubLatchFrames, is refuted. Its clauses ask nothing of the part, and in a part with a die 16, which no part of
R5 has, a trail entry of that die is stored at once, at the producer that stands where channel 1023 has its row 0x4000:
the entry can turn the row's mode into REST, and the channel leaves the group that the source reaches. -/

namespace Sys2Proof.Machine

/-- A mask of group 1 alone reaches no channel while the group is empty (R102). -/
theorem State.maskChans_of_emptyG1 {s : State} {n : Nat} (h : s.groupChans n 1 = []) : s.maskChans n 2 = [] := by
  refine List.filter_eq_nil_iff.2 fun c _ => ?_
  rw [List.any_eq_true]
  rintro ⟨g, hg, hreach⟩
  obtain rfl | hne := eq_or_ne g 1
  · rw [h] at hreach
    simp at hreach
  · have hbit : ∀ g ∈ List.range 8, g ≠ 1 → bit 2 g = false := by decide
    rw [hbit g hg hne, Bool.false_and] at hreach
    exact Bool.false_ne_true hreach

/-- A source whose mask reaches nothing latches nothing (R103). -/
theorem State.assertSource_of_emptyG1 {s : State} {n src : Nat} (corr : Nat)
    (hmask : (s.wr 0x2803 9 (siteI n) (setBit (s.rdN 0x2803 9 (siteI n)) src)).rdN 0x2803 (src + 1) (siteI n) = 2)
    (hempty : (s.wr 0x2803 9 (siteI n) (setBit (s.rdN 0x2803 9 (siteI n)) src)).groupChans n 1 = []) :
    s.assertSource n src corr = s.wr 0x2803 9 (siteI n) (setBit (s.rdN 0x2803 9 (siteI n)) src) := by
  have hstages : maskDabs 2 = [] := by decide
  simp [State.assertSource, State.actSource, hmask, State.maskChans_of_emptyG1 hempty, hstages, State.latchChans]

/-- Frame 0x01 with ARG 0 and CORR 0. -/
def dcovFrame : Frame64 := BitVec.ofNat 56 (2 ^ 48) ++ frameCrc (BitVec.ofNat 56 (2 ^ 48))

/-- On die 16 the source of the comparator reaches group 1, in which channel 1023 discharges in mode 5; a replay of the
die's latch frames is in progress. -/
def dischargesOnDie16 : State :=
  let s := { State.reset with variant := 18, vsys := true }
  let s := (((s.wr 0x2803 6 (siteI 16) 2).wr 0x2402 1 1023 2).wr 0x2402 2 1023 0x4000).wr 0x6000 1 1023 0x5FFFFFFF
  (s.setDie 16 { down := { again := { retries := 1 } } }).setChan 1023
    { s.chan 1023 with law := { (s.chan 1023).law with iLast := -60000 } }

theorem dischargesOnDie16_gets : dischargesOnDie16.GetsFrame 16 .toDie 0x01 dcovFrame dcovFrame dcovFrame :=
  ⟨by decide, by decide +kernel, by decide +kernel, by decide +kernel⟩

theorem dischargesOnDie16_masked :
    1023 ∈ dischargesOnDie16.maskChans 16 (dischargesOnDie16.rdN 0x2803 6 (siteI 16)) := by
  decide +kernel

/-- The state in which die 16 has received the frame, its source standing. -/
def standsOnDie16 : State :=
  (dischargesOnDie16.dieGot 16 0x01).wr 0x2803 9 (siteI 16)
    (setBit ((dischargesOnDie16.dieGot 16 0x01).rdN 0x2803 9 (siteI 16)) 5)

theorem standsOnDie16_mask : standsOnDie16.rdN 0x2803 6 (siteI 16) = 2 := by decide +kernel

/-- The entry of the replay has been stored: the row of channel 1023 rests, and group 1 is empty. -/
theorem standsOnDie16_group : standsOnDie16.groupChans 16 1 = [] := by decide +kernel

theorem standsOnDie16_free : standsOnDie16.latched 1023 = false := by decide +kernel

/-- Refutes O15: in its first clause the channels that the mask reached before the frame came are latched; the entry
that ends a replay of die 16 takes channel 1023 out of the mask's group before the source acts. -/
theorem not_hubLatchFrames : ¬ Obligations.HubLatchFrames := by
  rintro ⟨hclause, -⟩
  have hexec : exec (.dcovComparator 16 dcovFrame dcovFrame) dischargesOnDie16 = .next standsOnDie16 := by
    have hact : exec (.dcovComparator 16 dcovFrame dcovFrame) dischargesOnDie16 =
        .next (dischargesOnDie16.arrives 16 0x01 dcovFrame dcovFrame fun corr s => s.assertSource 16 5 corr) := rfl
    rw [hact, dischargesOnDie16_gets.arrives (by decide)]
    exact congrArg _ (State.assertSource_of_emptyG1 _ standsOnDie16_mask standsOnDie16_group)
  obtain ⟨⟨-, hlatches⟩, -⟩ := (hclause 16 _ _ _ _ dischargesOnDie16_gets).of_exec hexec
  exact Bool.false_ne_true (standsOnDie16_free.symm.trans (hlatches 1023 dischargesOnDie16_masked))

end Sys2Proof.Machine
end

section
/-! O14, LinkSupervision, is refuted: its first clause has every echo timeout end the test of a start, but a timeout at
the arming of a die's drivers (R363) leaves a test that is in progress where it is. -/

namespace Sys2Proof.Machine

/-- Beside a start whose first path test is in progress, die 1 arms its drivers, and its echo is due. -/
def armsBesideStart : State :=
  (State.reset.setPower { State.reset.power with testing := some (0, 10000) }).setDie 1
    { State.reset.die 1 with echoAt := some 0, arming := true }

/-- A timeout at arming touches of the power record the failure alone. -/
theorem echoTimeout_arming {s : State} {n e : Nat} (hat : (s.die n).echoAt = some e) (hdue : e ≤ s.lt)
    (harming : (s.die n).arming = true) :
    Gives (.echoTimeout n) s fun t => t.power.testing = s.power.testing := by
  have hexec : execEchoTimeout n s = .next ((((s.setDie n { s.die n with echoAt := none }).setPower
      { (s.setDie n { s.die n with echoAt := none }).power with testFailed := true }).supFault 0x51).setHold 8) := by
    unfold execEchoTimeout
    simp only [hat, if_pos hdue, if_pos harming]
  have hpower (y : State) : ((y.supFault 0x51).setHold 8).power = y.power := by
    have hsame : State.Same .power y ((y.supFault 0x51).setHold 8) :=
      State.setHold_same (by decide) (State.supFault_same (by decide) (.refl _ y))
    exact hsame
  exact ⟨_, hexec, (congrArg Power.testing (hpower _)).trans rfl⟩

/-- Refutes O14: the echo timeout of die 1 leaves the test of the start in progress. -/
theorem not_linkSupervision : ¬ Obligations.LinkSupervision := by
  rintro ⟨hclause, -⟩
  have hat : (armsBesideStart.die 1).echoAt = some 0 := rfl
  obtain ⟨t, hexec, htesting⟩ := echoTimeout_arming hat (Nat.zero_le _) rfl
  obtain ⟨⟨-, hnone, -⟩, -⟩ := (hclause 1 0 armsBesideStart hat (Nat.zero_le _)).of_exec hexec
  have hsome : armsBesideStart.power.testing = some (0, 10000) := rfl
  exact Option.some_ne_none (0, 10000) (hsome.symm.trans (htesting.symm.trans hnone))

end Sys2Proof.Machine
end

section
/-! O12, PowerOnAndWholeDeviceResets: what the measuring part keeps of its presence, what a restart of the device
leaves, and the resets that carry one out. -/

namespace Sys2Proof.Machine

/-! ## The presence of the measuring part (R201, R410) -/

/-- What the measuring part holds of its supplies, of its firmware and of the sites that it knows. -/
structure UpView where
  powered : Bool
  booted : Bool
  vioM : Bool
  sites : Nat
  mask : Nat

def Qm.upView (q : Qm) : UpView := ⟨q.powered, q.booted, q.vioM, q.sites, q.mask⟩

theorem State.rotationReset_upView (s : State) : s.rotationReset.qm.upView = s.qm.upView := rfl

theorem State.setQc_upView (s : State) (c : Nat) (x : QChan) : (s.setQc c x).qm.upView = s.qm.upView := rfl

theorem State.auditAdd_upView (s : State) (kind target slot : Nat) (old new : List Byte) (nonce : Nat) :
    (s.auditAdd kind target slot old new nonce).qm.upView = s.qm.upView := by
  rw [State.auditAdd_qm]
  rfl

theorem State.sealAgain_upView (s : State) (cause slot nonce : Nat) : (s.sealAgain cause slot nonce).qm.upView = s.qm.upView := by
  rw [State.sealAgain, State.auditAdd_upView]
  rfl

theorem State.swapFw_upView (s : State) : s.swapFw.qm.upView = s.qm.upView := by
  rw [State.swapFw, State.auditAdd_upView]
  rfl

theorem State.checkHold_upView (s : State) : s.checkHold.qm.upView = s.qm.upView := by
  unfold State.checkHold
  split
  · rfl
  · split
    · rfl
    · rfl

theorem State.writeRec_upView (s : State) (kind : Nat) (body : Nat → List Byte) :
    (s.writeRec kind body).qm.upView = s.qm.upView := by
  unfold State.writeRec
  rw [State.checkHold_upView, State.onQm_qm]
  dsimp only
  split
  · rfl
  · rfl

theorem State.closeQStep_upView (s : State) (c endLt cause next : Nat) :
    (s.closeQStep c endLt cause next).qm.upView = s.qm.upView := by
  unfold State.closeQStep
  dsimp only
  split
  · rfl
  · rw [State.setQc_upView]
    exact State.writeRec_upView ..

theorem State.closeAtCheckpoint_upView (s : State) (c : Nat) : (s.closeAtCheckpoint c).qm.upView = s.qm.upView := by
  unfold State.closeAtCheckpoint
  dsimp only
  split
  · rfl
  · rw [State.closeQStep_upView]
    exact State.setQc_upView ..

theorem State.resumeChan_upView (s : State) (c : Nat) (w : Option QStep) (lt : Nat) :
    (s.resumeChan c w lt).qm.upView = s.qm.upView := by
  unfold State.resumeChan
  dsimp only
  split
  · exact State.setQc_upView ..
  · exact State.setQc_upView ..

theorem State.mclkFault_upView (s : State) : s.mclkFault.qm.upView = s.qm.upView := by
  unfold State.mclkFault
  split
  · rfl
  · rfl

/-- A restart of the measuring part leaves its supplies, and neither a booted part nor a site. -/
theorem State.qmRestart_upView (s : State) : s.qmRestart.qm.upView = ⟨s.qm.powered, false, s.qm.vioM, 0, 0⟩ := by
  have hmarks := each_keep (fun y => y.qm.upView) [1, 2, 3, 4, 5, 6] (fun y n => y.unmark 2 n) (fun _ _ => rfl) s
  have hpowered := congrArg UpView.powered hmarks
  have hvio := congrArg UpView.vioM hmarks
  exact congrArg₂ (fun p v => UpView.mk p false v 0 0) hpowered hvio

theorem State.upView_of_same {s t : State} (h : State.Same .qm s t) : t.qm.upView = s.qm.upView :=
  congrArg Qm.upView h

theorem State.ite_upView {s t u : State} {c : Prop} [Decidable c] (ht : t.qm.upView = s.qm.upView)
    (hu : u.qm.upView = s.qm.upView) : (if c then t else u).qm.upView = s.qm.upView := by
  split
  · exact ht
  · exact hu

section
variable {s : State}

theorem State.supplyNote_upView (s : State) (b : Nat) (under : Bool) : (s.supplyNote b under).qm.upView = s.qm.upView :=
  State.upView_of_same (State.supplyNote_same (by decide) (.refl _ s))

theorem vmetPowerOn_gives {v : Nat} (hoff : s.qm.powered = false) :
    Gives (.vmetPowerOn v) s fun t => t.qm.powered = true ∧ t.qm.booted = false ∧ t.qm.sites = 0 ∧ t.qm.mask = 0 ∧
      t.qm.vioM = decide (bankClass v ≠ 0) := by
  refine .of_guard_not rfl (by rw [hoff]; exact Bool.false_ne_true) ?_
  extract_lets y z w
  have hy : y.qm.upView = ⟨true, false, decide (bankClass v ≠ 0), 0, 0⟩ :=
    (State.rotationReset_upView _).trans (State.qmRestart_upView _)
  have hz : z.qm.upView = y.qm.upView := State.ite_upView (y.supplyNote_upView 9 false) rfl
  have hw : w.qm.upView = z.qm.upView := State.ite_upView (z.sealAgain_upView ..) rfl
  have hend : (if w.qm.verified then w.swapFw else w).qm.upView = ⟨true, false, decide (bankClass v ≠ 0), 0, 0⟩ :=
    (State.ite_upView w.swapFw_upView rfl).trans (hw.trans (hz.trans hy))
  exact ⟨congrArg UpView.powered hend, congrArg UpView.booted hend, congrArg UpView.sites hend, congrArg UpView.mask hend,
    congrArg UpView.vioM hend⟩

theorem vmetLoss_gives (hon : s.qm.powered = true) :
    Gives .vmetLoss s fun t => t.qm.powered = false ∧ t.qm.booted = false ∧ t.qm.sites = 0 ∧
      t.qm.leavePower = decide (s.qm.sealSt = 2) := by
  refine .of_guard rfl hon ?_
  extract_lets y
  have hview := y.qmRestart_upView
  have hseal : y.qmRestart.qm.sealSt = s.qm.sealSt := by
    have hy : y.qm = s.qm := by
      unfold y
      split
      · exact State.supplyNote_same (k := .qm) (by decide) (.refl _ s)
      · rfl
    exact (congrArg SealView.sealSt y.qmRestart_sealView).trans (congrArg Qm.sealSt hy)
  exact ⟨rfl, congrArg UpView.booted hview, congrArg UpView.sites hview, congrArg (fun x => decide (x = 2)) hseal⟩

theorem qmWatchdogExpiry_gives (hup : s.qmUp = true) :
    Gives .qmWatchdogExpiry s fun t => t.qm.powered = true ∧ t.qm.booted = false ∧ t.qm.sites = 0 ∧ t.qm.mask = 0 ∧
      t.qm.port = none := by
  have hview := s.qmRestart_upView
  have hpowered : s.qm.powered = true := (Bool.and_eq_true_iff.1 hup).1
  exact .of_guard rfl hup ⟨(congrArg UpView.powered hview).trans hpowered, congrArg UpView.booted hview,
    congrArg UpView.sites hview, congrArg UpView.mask hview, rfl⟩

theorem qmBoot_gives (hon : s.qm.powered = true) (hdown : s.qm.booted = false) :
    Gives .qmBoot s fun t => t.qmUp = true := by
  refine .of_guard rfl ⟨hon, by rw [hdown]; rfl⟩ ?_
  extract_lets chans steps y lt z w
  have hy : y.qm.upView = s.qm.upView := each_keep (fun u => u.qm.upView) _ _ State.closeAtCheckpoint_upView s
  have hz : z.qm.upView = y.qm.upView :=
    each_keep (fun u => u.qm.upView) _ _ (fun u ⟨c, w⟩ => u.resumeChan_upView c w lt) y
  have hw : w.qm.powered = true ∧ w.qm.booted = true := ⟨(congrArg UpView.powered (hz.trans hy)).trans hon, rfl⟩
  have hend : (if w.qm.vioM then w else w.mclkFault).qm.upView = w.qm.upView := State.ite_upView rfl w.mclkFault_upView
  exact Bool.and_eq_true_iff.2 ⟨(congrArg UpView.powered hend).trans hw.1, (congrArg UpView.booted hend).trans hw.2⟩

theorem siteFramingProbe_gives {n : Nat} {framed : Bool} (hup : s.qmUp = true) (hlow : 1 ≤ n) (hhigh : n ≤ 6)
    (hnew : bit s.qm.sites n = false) (hwait : ∀ t, lookup? n s.qm.probes = some t → t + 1000000000 ≤ s.mclkNow) :
    Gives (.siteFramingProbe n framed) s fun t =>
      bit t.qm.sites n = (framed && s.sitePop n) ∧ lookup? n t.qm.probes = some s.mclkNow := by
  have hall : (lookup? n s.qm.probes).all (fun t => decide (t + 1000000000 ≤ s.mclkNow)) = true := by
    cases h : lookup? n s.qm.probes with
    | none => rfl
    | some t =>
      rw [Option.all_some]
      exact decide_eq_true (hwait t h)
  have hguard : s.qmUp ∧ 1 ≤ n ∧ n ≤ 6 ∧ (!bit s.qm.sites n) = true ∧
      (lookup? n s.qm.probes).all (fun t => decide (t + 1000000000 ≤ s.mclkNow)) = true :=
    ⟨hup, hlow, hhigh, by rw [hnew]; rfl, hall⟩
  refine ⟨_, congrArg Host.Outcome.next (if_pos hguard), ?_⟩
  dsimp only
  rw [State.onQm_qm]
  split
  case isTrue h => exact ⟨(bit_setBit_self ..).trans h.symm, lookup?_put_self ..⟩
  case isFalse h => exact ⟨hnew.trans (Bool.eq_false_of_not_eq_true h).symm, lookup?_put_self ..⟩

/-! ## Power-on and the loss of VSYS (R395, R529) -/

/-- What a power-on leaves before its entry is stored. -/
def State.poweredOn (s : State) (mv : List Nat) : State :=
  ((({ s with
    clock := { cnt := s.clock.cnt, xtal := s.clock.xtal }, trail := {}, sup := {},
    dies := [], lockbox := { s.lockbox with lockedAt := s.lockbox.lockedAt.map fun _ => 0 },
    net := { nextId := s.net.nextId },
    sec := { slots := s.sec.slots, bootBlank := s.sec.bootBlank } } : State).restart keptAlways false).readBanks
      mv).newNonce.wr 0x1200 1 dev 5

theorem State.powerOn_eq (s : State) (mv : List Nat) :
    s.powerOn mv = (s.poweredOn mv).note 0x0001 (leNat 1 (s.poweredOn mv).variant ++ leNat 1 (s.poweredOn mv).suffixByte) :=
  rfl

theorem vsysValid_gives {mv : List Nat} (hoff : s.vsys = false) :
    Gives (.vsysValid mv) s fun t => t.vsys = true ∧ t.fw = false ∧ t.lt = 0 ∧ t.rd 0x1200 1 dev = 5 ∧ t.chans = [] ∧
      t.units = [] := by
  refine .of_guard_not rfl (by rw [hoff]; exact Bool.false_ne_true) ?_
  have hnote {k : Part} (hk : k ∉ [.reg 0x6000, .dies, .trail]) : State.Same k (s.poweredOn mv) (s.powerOn mv) := by
    rw [State.powerOn_eq]
    exact State.note_same hk (.refl k _)
  have hclock : (s.powerOn mv).clock = (s.poweredOn mv).clock := hnote (k := .clock) (by decide)
  refine ⟨hnote (k := .vsys) (by decide), hnote (k := .fw) (by decide), congrArg Clock.lt hclock, ?_,
    hnote (k := .chans) (by decide), hnote (k := .units) (by decide)⟩
  rw [State.rd_of_same (hnote (k := .reg 0x1200) (by decide))]
  exact State.rd_wr_self ..

theorem vsysInvalid_gives (hon : s.vsys = true) :
    Gives .vsysInvalid s fun t => t.vsys = false ∧ t.fw = false ∧ t.lt = 0 ∧ t.chans = [] ∧ t.dies = [] ∧ t.trail = {} :=
  .of_guard rfl hon ⟨rfl, rfl, rfl, rfl, rfl, rfl⟩

/-! ## Warm resets (R411) -/

/-- A warm reset leaves the device starting, with its cause. -/
theorem State.warm_shows (s : State) (kind : Nat) : (s.warm kind).fw = false ∧ (s.warm kind).vsys = true ∧
    (s.warm kind).rd 0x1200 1 dev = 5 ∧ (s.warm kind).rd 0x1202 2 dev = kind := by
  unfold State.warm
  extract_lets y ran mask z w v src
  have hz {k : Part} (hk : k ∉ [.reg 0x6000, .dies, .trail]) : State.Same k (y.draw.restart keptWarm true) z :=
    State.note_same hk (.refl k _)
  have hw {k : Part} (hk : k ∉ [.reg 0x1200, .reg 0x1202]) : State.Same k z w :=
    State.wr_same (notMem_of hk (by decide)) (State.wr_same (notMem_of hk (by decide)) (State.wr_same
      (notMem_of hk (by decide)) (.refl k z)))
  have hwait (u : State) {k : Part} (hk : k ∉ [.sup]) : State.Same k u (u.setSup { u.sup with fire := true }).adisDue :=
    State.adisDue_same hk (State.setSup_same hk (.refl k u))
  have hend {k : Part} (hk : k ∉ [.reg 0x2402, .sup]) :
      State.Same k w (v.setSup { v.sup with fire := true }).adisDue := by
    have hv : State.Same k w v :=
      each_same (.refl k w) fun _ _ hy => State.endedByReset_same (notMem_of hk (by decide)) hy
    exact hv.trans (hwait v (notMem_of hk (by decide)))
  have hrestart {k : Part} (hk : k ∉ [.reg 0x6000, .dies, .trail, .reg 0x1200, .reg 0x1202, .reg 0x2402, .sup]) :
      State.Same k (y.draw.restart keptWarm true) (v.setSup { v.sup with fire := true }).adisDue :=
    ((hz (notMem_of hk (by decide))).trans (hw (notMem_of hk (by decide)))).trans (hend (notMem_of hk (by decide)))
  refine ⟨hrestart (k := .fw) (by decide), hrestart (k := .vsys) (by decide), ?_, ?_⟩
  · refine (State.rd_of_same (hend (k := .reg 0x1200) (by decide)) 1 dev).trans ?_
    unfold w
    rw [State.rd_wr_ne _ _ (by simp), State.rd_wr_ne _ _ (by simp), State.rd_wr_self]
  · refine (State.rd_of_same (hend (k := .reg 0x1202) (by decide)) 2 dev).trans ?_
    unfold w
    rw [State.rd_wr_ne _ _ (by simp), State.rd_wr_self]

theorem resetN_gives {lowNs : Nat} (hon : s.vsys = true) (hlong : 1000 ≤ lowNs) :
    Gives (.resetN lowNs) s fun t => t.fw = false ∧ t.vsys = true ∧ t.rd 0x1200 1 dev = 5 ∧ t.rd 0x1202 2 dev = 1 := by
  have hexec : execResetN lowNs s = .next (s.warm 1) := by
    unfold execResetN
    rw [if_neg (show ¬ ((!s.vsys) = true ∨ lowNs < 500) by simp [hon]; omega), if_pos hlong]
  exact ⟨_, hexec, s.warm_shows 1⟩

theorem hubWatchdog_gives (hon : s.vsys = true) :
    Gives .hubWatchdog s fun t => t.fw = false ∧ t.vsys = true ∧ t.rd 0x1200 1 dev = 5 ∧ t.rd 0x1202 2 dev = 3 :=
  .of_guard rfl hon (s.warm_shows 3)

/-- A request for a warm reset ends in the warm reset. -/
theorem State.settle_of_warm {s : State} (h : s.resetReq.warm = true) :
    s.settle = ({ s with resetReq := {} }.pass resetDelay).warm 2 := by
  have hreq : s.resetReq ≠ {} := by
    intro hnone
    rw [hnone] at h
    exact Bool.false_ne_true h
  unfold State.settle
  rw [if_neg hreq]
  simp only [if_pos h]

theorem warmReset_gives {src : Src} {v : Nat} (hacc : s.Accepts src 0x1203 1 [dev] v fun _ _ => aDone) :
    Gives (.warmReset src v) s fun t => t.fw = false ∧ t.vsys = true ∧ t.rd 0x1200 1 dev = 5 ∧ t.rd 0x1202 2 dev = 2 ∧
      t.resetReq = {} := by
  have hset : (s.writeObj src 0x1203 1 [dev] v (fun _ _ => aDone) warmSet).resetReq.warm = true := by
    have hnet := (State.writeObj_ok (eff := warmSet) hacc).frame .resetReq (by decide)
    exact congrArg ResetReq.warm hnet
  refine ⟨_, rfl, ?_⟩
  dsimp only
  rw [State.settle_of_warm hset]
  obtain ⟨hfw, hvsys, hstate, hcause⟩ := State.warm_shows _ 2
  exact ⟨hfw, hvsys, hstate, hcause, State.warm_resetReq ..⟩

end

/-- Settles O12: the restart that a power-on and every reset of the device carry out leaves the defaults, and what
follows it touches the registers named alone. -/
theorem powerOnAndWholeDeviceResets : Obligations.PowerOnAndWholeDeviceResets := by
  refine ⟨?valid, ?invalid, ?on, ?loss, ?expiry, ?boot, ?probe, ?pin, ?dog, ?warm⟩
  case valid =>
    intro mv s hoff
    exact (vsysValid_gives hoff).framedHidden fun k hk hr => execVsysValid_same hr hk (.refl k s)
  case invalid =>
    intro s hon
    exact (vsysInvalid_gives hon).framedHidden fun k hk hr => execVsysInvalid_same hr hk (.refl k s)
  case on =>
    intro v s hoff
    exact (vmetPowerOn_gives hoff).framed fun k hk => execVmetPowerOn_same hk (.refl k s)
  case loss =>
    intro s hon
    exact (vmetLoss_gives hon).framed fun k hk => execVmetLoss_same hk (.refl k s)
  case expiry =>
    intro s hup
    exact (qmWatchdogExpiry_gives hup).framed fun k hk => execQmWatchdogExpiry_same hk (.refl k s)
  case boot =>
    intro s hon hdown
    exact (qmBoot_gives hon hdown).framed fun k hk => execQmBoot_same hk (.refl k s)
  case probe =>
    intro n framed s hup hlow hhigh hnew hwait
    exact (siteFramingProbe_gives hup hlow hhigh hnew hwait).framed fun k hk => execSiteFramingProbe_same hk (.refl k s)
  case pin =>
    intro lowNs s hon hlong
    exact (resetN_gives hon hlong).framedHidden fun k hk hr => execResetN_same hr hk (.refl k s)
  case dog =>
    intro s hon
    exact (hubWatchdog_gives hon).framedHidden fun k hk hr => execHubWatchdog_same hr hk (.refl k s)
  case warm =>
    intro src v s hacc
    exact (warmReset_gives hacc).framedHidden fun k hk hr => execWarmReset_same hr hk (.refl k s)

end Sys2Proof.Machine
end

section
/-! O13, SiteResetsAndStart: the resets that a settled request carries out, the scrub, and what a start leaves. -/

namespace Sys2Proof.Machine

/-! ## Resets of sites (R411, R412) -/

/-- A site whose logic has been reset, before its runs are shown ended. -/
def State.siteCleared (s : State) (n : Nat) : State :=
  let keep (a : Addr) : Bool := siteOfInst a.inst != some n || keptAlways a || isRecipe a || isVdrv a
  { s with
    objs := s.objs.filter fun e => keep e.1, blobs := s.blobs.filter fun e => keep e.1,
    chans := dropDie s.chans 64 (n - 1), units := dropDie s.units 128 n, slots := dropDie s.slots 128 n,
    engines := dropDie s.engines 16 n, descs := dropDie s.descs 64 n, adcs := dropDie s.adcs 16 n,
    dies := put s.dies n { s.freshDie n true with
      bp := s.rd 0x2408 0 dev == 1, markRst := true, losses := (s.die n).losses, recoveryOff := (s.die n).recoveryOff, recycled := (s.die n).recycled } }

theorem State.siteCleared_marks (s : State) (n : Nat) : ((s.siteCleared n).die n).markRst = true := by
  rw [State.die, State.siteCleared, look_put_self]

theorem State.siteCleared_die_ne (s : State) {n d : Nat} (h : d ≠ n) : (s.siteCleared n).die d = s.die d := by
  rw [State.die, State.siteCleared, look_put_ne _ _ _ h]
  rfl

theorem State.resetSite_eq (s : State) (n corr : Nat) : s.resetSite n corr =
    (((each ((siteChans n).filter s.active) (fun s c => s.endedByReset c) (s.siteCleared n)).showMarks n).markNote n 3
      corr).closeSite n (each ((siteChans n).filter s.active) (fun s c => s.endedByReset c) (s.siteCleared n)).lt := by
  unfold State.resetSite State.siteCleared
  with_reducible rfl

/-- What follows the reset of a site's logic leaves the marks of every die. -/
theorem State.resetSite_markRst (s : State) (n corr d : Nat) :
    ((s.resetSite n corr).die d).markRst = ((s.siteCleared n).die d).markRst := by
  have hshow (l : List Nat) (y : State) :
      State.Same .dies y ((each l (fun s c => s.endedByReset c) y).showMarks n) :=
    State.showMarks_same (by decide) (each_same (.refl .dies y) fun _ _ h => State.endedByReset_same (by decide) h)
  have hclose (y : State) (lt : Nat) : State.Same .dies y (y.closeSite n lt) := State.closeSite_same (by decide) (.refl _ y)
  have hnote (y : State) : ((y.markNote n 3 corr).die d).markRst = (y.die d).markRst := by
    obtain ⟨sent, queue, hdie⟩ := (y.raise_trailOnly 0 noChan 0x3005 (leNat 1 n ++ leNat 1 3) corr).die d
    rw [State.markNote, hdie]
  rw [State.resetSite_eq, State.die_of_same (hclose _ _), hnote, State.die_of_same (hshow _ _)]

theorem State.sitePop_of_same {s t : State} (h : State.Same .variant s t) : t.sitePop = s.sitePop := by
  funext n
  rw [State.sitePop, State.sitePop, show t.variant = s.variant from h]

/-- Every site of the mask shows the mark of its reset. -/
theorem State.resetSites_marks {s : State} {m n : Nat} (hn : n ∈ s.maskSites m) :
    ((s.resetSites m).die n).markRst = true := by
  unfold State.resetSites
  extract_lets corr y
  have hmask : y.maskSites m = s.maskSites m := by
    have hvariant : State.Same .variant s y :=
      State.wr_same (by decide) (State.raise_same (by decide) (State.openCorr_same (by decide) (.refl _ s)))
    rw [State.maskSites, State.maskSites, State.sites, State.sites, State.sitePop_of_same hvariant]
  rw [hmask]
  refine each_reaches (inv := fun _ => True) (p := fun n y => (y.die n).markRst = true) (fun _ _ _ => trivial)
    (fun z x _ => ?_) (fun z x d hd => ?_) trivial (.inl hn)
  · rw [State.resetSite_markRst, State.siteCleared_marks]
  · rw [State.resetSite_markRst]
    by_cases hx : d = x
    · rw [hx, State.siteCleared_marks]
    · rw [State.siteCleared_die_ne _ hx, hd]

theorem bit_zero (b : Nat) : bit 0 b = false := by
  rw [bit_eq_testBit, Nat.zero_testBit]

theorem ne_zero_of_bit {m b : Nat} (h : bit m b = true) : m ≠ 0 := by
  rintro rfl
  exact Bool.false_ne_true ((bit_zero b).symm.trans h)

/-- A request for site resets alone ends in them. -/
theorem State.settle_of_sites {s : State} {m : Nat} (h : s.resetReq = { sites := m }) (hm : m ≠ 0) :
    s.settle = ({ s with resetReq := {} }.pass resetDelay).resetSites m := by
  have hnone (l : List Nat) : l.foldl (fun x b => if bit m b then clearBit x b else x) 0 = 0 := by
    induction l with
    | nil => rfl
    | cons b l ih => rw [List.foldl_cons, clearBit, bit_zero, if_neg Bool.false_ne_true, ite_self, ih]
  have hreq : s.resetReq ≠ {} := by
    rw [h]
    exact fun hn => hm (congrArg ResetReq.sites hn)
  unfold State.settle
  rw [if_neg hreq, h]
  simp [hm, hnone]

/-- A request for engine resets alone ends in them. -/
theorem State.settle_of_engines {s : State} {m : Nat} (h : s.resetReq = { engines := m }) (hm : m ≠ 0) :
    s.settle = ({ s with resetReq := {} }.pass resetDelay).resetEngines m := by
  have hall (l : List Nat) : l.foldl (fun x b => if bit 0 b then clearBit x b else x) m = m := by
    induction l with
    | nil => rfl
    | cons b l ih => rw [List.foldl_cons, bit_zero, if_neg Bool.false_ne_true, ih]
  have hreq : s.resetReq ≠ {} := by
    rw [h]
    exact fun hn => hm (congrArg ResetReq.engines hn)
  unfold State.settle
  rw [if_neg hreq, h]
  simp [hm, hall]

theorem State.mem_sites {s : State} {n : Nat} (hn : n ≤ 6) (hpop : s.sitePop n = true) : n ∈ s.sites := by
  have hlow : 1 ≤ n := by
    rw [State.sitePop, Bool.and_eq_true, decide_eq_true_eq] at hpop
    exact hpop.1
  refine List.mem_filter.2 ⟨?_, hpop⟩
  have hrange : (List.range 7).drop 1 = [1, 2, 3, 4, 5, 6] := rfl
  rw [hrange]
  interval_cases n <;> decide

section
variable {s : State}

/-- A write of 0x1203 leaves, of the requests and of the part, its request alone. -/
theorem State.writeResets_shows {src : Src} {j : Nat} {v : Int} {own : State → Nat → Nat} {eff : State → Nat → State}
    (hacc : s.Accepts src 0x1203 j [dev] v own)
    (hpart : ∀ y e, (eff y e).variant = y.variant) :
    (s.writeObj src 0x1203 j [dev] v own eff).resetReq = (eff ((s.atRequest src).touch dev) dev).resetReq ∧
      (s.writeObj src 0x1203 j [dev] v own eff).variant = s.variant := by
  have hnet := (State.writeObj_ok (eff := eff) hacc).frame
  have htouch : ((s.atRequest src).touch dev).variant = s.variant := s.touch_atRequest_same (p := .variant) src dev (by decide)
  exact ⟨hnet .resetReq (by decide), Eq.trans (hnet .variant (by decide)) ((hpart _ _).trans htouch)⟩

theorem siteReset_gives {src : Src} {mask : Nat} (hacc : s.Accepts src 0x1203 2 [dev] mask (siteResetCheck mask))
    (hidle : s.resetReq = {}) :
    Gives (.siteReset src mask) s fun t => t.resetReq = {} ∧
      ∀ n, n ≤ 6 → s.sitePop n = true → bit mask n = true → (t.die n).markRst = true := by
  obtain ⟨hreq, hvariant⟩ := State.writeResets_shows (eff := siteResetSet mask) hacc fun _ _ => rfl
  have hidle' : ((s.atRequest src).touch dev).resetReq = {} :=
    Eq.trans (s.touch_atRequest_same (p := .resetReq) src dev (by decide)) hidle
  have hsites : (siteResetSet mask ((s.atRequest src).touch dev) dev).resetReq = { sites := mask } := by
    rw [siteResetSet, hidle', Int.toNat_natCast]
  refine ⟨_, rfl, State.settle_resetReq _, fun n hn hpop hbit => ?_⟩
  rw [State.settle_of_sites (hreq.trans hsites) (ne_zero_of_bit hbit)]
  refine State.resetSites_marks (List.mem_filter.2 ⟨State.mem_sites hn ?_, hbit⟩)
  have hpass : ({ s.writeObj src 0x1203 2 [dev] mask (siteResetCheck mask) (siteResetSet mask) with
      resetReq := {} }.pass resetDelay).variant =
        (s.writeObj src 0x1203 2 [dev] mask (siteResetCheck mask) (siteResetSet mask)).variant :=
    State.pass_same (k := .variant) (by decide) (.refl .variant { s.writeObj src 0x1203 2 [dev] mask (siteResetCheck mask)
      (siteResetSet mask) with resetReq := {} })
  rw [State.sitePop, hpass, hvariant]
  exact hpop

/-! ## Resets of engines (R412) -/

theorem lookup?_filter_none {α : Type} {k : Nat} {p : Nat → Bool} (h : p k = false) (t : Tbl α) :
    lookup? k (t.filter fun e => p e.1) = none := by
  induction t with
  | nil => rfl
  | cons e t ih =>
    rw [List.filter_cons]
    split
    case isTrue hp =>
      rw [lookup?, if_neg, ih]
      rintro rfl
      exact Bool.false_ne_true (h.symm.trans hp)
    case isFalse => exact ih

theorem lookup?_filter_of_none {α : Type} {k : Nat} (p : Nat → Bool) {t : Tbl α} (h : lookup? k t = none) :
    lookup? k (t.filter fun e => p e.1) = none := by
  induction t with
  | nil => rfl
  | cons e t ih =>
    rw [lookup?] at h
    split at h
    case isTrue => exact absurd h (by simp)
    case isFalse hne =>
      rw [List.filter_cons]
      split
      · rw [lookup?, if_neg hne, ih h]
      · exact ih h

/-- The engine's entry is gone. -/
def State.EngineGone (s : State) (d e : Nat) : Prop := lookup? (16 * d + e) s.engines = none

theorem State.EngineGone.eng {s : State} {d e : Nat} (h : s.EngineGone d e) : s.eng d e = {} := by
  rw [State.eng, look, h]
  rfl

theorem State.resetEngine_engines (s : State) (d : Nat) : (s.resetEngine d).engines = dropDie s.engines 16 d := by
  unfold State.resetEngine
  extract_lets ns src y src2 z
  have hz : State.Same .engines y z := State.setDie_same (by decide) (.refl _ y)
  exact hz.trans (each_same (.refl _ z) fun _ _ h => State.setSlot_same (by decide) h)

theorem State.resetEngine_drops (s : State) {d e : Nat} (he : e < 16) : (s.resetEngine d).EngineGone d e := by
  rw [State.EngineGone, State.resetEngine_engines]
  refine lookup?_filter_none (p := fun k => decide (k / 16 ≠ d)) ?_ _
  have hdie : (16 * d + e) / 16 = d := by omega
  rw [hdie]
  exact decide_eq_false fun h => h rfl

theorem State.EngineGone.resetEngine {s : State} {d e : Nat} (h : s.EngineGone d e) (x : Nat) :
    (s.resetEngine x).EngineGone d e := by
  rw [State.EngineGone, State.resetEngine_engines]
  exact lookup?_filter_of_none (fun k => decide (k / 16 ≠ x)) h

/-- Every engine of a die of the mask is at its reset value. -/
theorem State.resetEngines_clears {s : State} {m d e : Nat} (hd : d = 0 ∨ d ≤ 6 ∧ s.sitePop d = true)
    (hbit : bit m d = true) (he : e < 16) : (s.resetEngines m).eng d e = {} := by
  unfold State.resetEngines
  extract_lets y
  have hvariant : y.variant = s.variant := State.note_same (k := .variant) (by decide) (.refl _ s)
  have hmem : d ∈ (0 :: y.sites).filter (bit m) := by
    refine List.mem_filter.2 ⟨?_, hbit⟩
    obtain rfl | ⟨hlow, hpop⟩ := hd
    · exact List.mem_cons_self
    · refine List.mem_cons_of_mem _ (State.mem_sites hlow ?_)
      rwa [State.sitePop, hvariant]
  have hgone : (each ((0 :: y.sites).filter (bit m)) (fun s d => s.resetEngine d) y).EngineGone d e :=
    each_reaches (inv := fun _ => True) (p := fun d z => z.EngineGone d e) (fun _ _ _ => trivial)
      (fun z x _ => z.resetEngine_drops he) (fun _ x _ hz => hz.resetEngine x) trivial (.inl hmem)
  exact hgone.eng

theorem engineReset_gives {src : Src} {mask : Nat} (hacc : s.Accepts src 0x1203 3 [dev] mask fun _ _ => aDone)
    (hidle : s.resetReq = {}) :
    Gives (.engineReset src mask) s fun t => t.resetReq = {} ∧
      ∀ d e, d ≤ 6 → e < 16 → (d = 0 ∨ s.sitePop d = true) → bit mask d = true → t.eng d e = {} := by
  obtain ⟨hreq, hvariant⟩ := State.writeResets_shows (eff := engineResetSet mask) hacc fun _ _ => rfl
  have hidle' : ((s.atRequest src).touch dev).resetReq = {} :=
    Eq.trans (s.touch_atRequest_same (p := .resetReq) src dev (by decide)) hidle
  have hengines : (engineResetSet mask ((s.atRequest src).touch dev) dev).resetReq = { engines := mask } := by
    rw [engineResetSet, hidle', Int.toNat_natCast]
  refine ⟨_, rfl, State.settle_resetReq _, fun d e hd he hpop hbit => ?_⟩
  rw [State.settle_of_engines (hreq.trans hengines) (ne_zero_of_bit hbit)]
  refine State.resetEngines_clears (hpop.imp_right fun h => ⟨hd, ?_⟩) hbit he
  have hpass : ({ s.writeObj src 0x1203 3 [dev] mask (fun _ _ => aDone) (engineResetSet mask) with
      resetReq := {} }.pass resetDelay).variant =
        (s.writeObj src 0x1203 3 [dev] mask (fun _ _ => aDone) (engineResetSet mask)).variant :=
    State.pass_same (k := .variant) (by decide) (.refl .variant { s.writeObj src 0x1203 3 [dev] mask (fun _ _ => aDone)
      (engineResetSet mask) with resetReq := {} })
  rw [State.sitePop, hpass, hvariant]
  exact h

/-! ## The recipe scrub (R414) -/

/-- A bad row becomes zero, with its entry. -/
def State.scrubRow (n : Nat) (s : State) (b : Nat × Nat) : State :=
  (each (List.range 12) (fun s j => s.wr (0x2000 + b.2) (j + 1) (chanOf n b.1) 0) s).noteAt n (chanOf n b.1) 0x2008 (leNat 2 b.2)

/-- The words of a row of a channel of the die are zero. -/
def State.RowZero (n : Nat) (b : Nat × Nat) (s : State) : Prop :=
  b.2 < 1024 → ∀ j < 12, s.rd (0x2000 + b.2) (j + 1) (chanOf n b.1) = 0

theorem State.RowZero.wr {s : State} {n : Nat} {b : Nat × Nat} (h : s.RowZero n b) (i j e : Nat) :
    (s.wr i j e 0).RowZero n b := by
  intro hb k hk
  rw [State.rd_wr]
  split
  · rfl
  · exact h hb k hk

theorem State.RowZero.noteAt {s : State} {n : Nat} {b : Nat × Nat} (h : s.RowZero n b) (site c code : Nat)
    (data : List Byte) : (s.noteAt site c code data).RowZero n b := by
  intro hb k hk
  rw [(s.noteAt_trailOnly site c code data).rd _ _ _ (by omega)]
  exact h hb k hk

theorem State.scrubRow_zeroes (s : State) (n : Nat) (b : Nat × Nat) : (s.scrubRow n b).RowZero n b := by
  refine State.RowZero.noteAt (n := n) (b := b) (fun hb k hk => ?_) _ _ _ _
  exact each_reaches (inv := fun _ => True) (p := fun k y => y.rd (0x2000 + b.2) (k + 1) (chanOf n b.1) = 0)
    (fun _ _ _ => trivial) (fun y x _ => State.rd_wr_self ..) (fun y x z hz => by
      rw [State.rd_wr]
      split
      · rfl
      · exact hz) trivial (.inl (List.mem_range.2 hk))

theorem State.RowZero.scrubRow {s : State} {n : Nat} {b : Nat × Nat} (h : s.RowZero n b) (x : Nat × Nat) :
    (s.scrubRow n x).RowZero n b :=
  (each_induct (r := fun y => y.RowZero n b) h fun _ _ _ hy => hy.wr _ _ _).noteAt _ _ _ _

theorem recipeScrub_gives {n : Nat} {bad : List (Nat × Nat)} (hon : s.vsys = true) (hpop : s.sitePop n = true)
    (hscrub : (s.die n).scrub = true) :
    Gives (.recipeScrub n bad) s fun t => (t.die n).scrub = false ∧
      ∀ k r j, (k, r) ∈ bad → k < 64 → r < 1024 → j < 12 → t.rd (0x2000 + r) (j + 1) (chanOf n k) = 0 := by
  refine .of_guard (t := (fun y : State => y.setDie n { y.die n with scrub := false })
    (each (bad.filter fun b => decide (b.1 < 64) && decide (b.2 < 1024)) (State.scrubRow n) s)) rfl ⟨hpop, hon, hscrub⟩ ?_
  refine ⟨by rw [State.die_setDie], fun k r j hbad hk hr hj => ?_⟩
  have hmem : (k, r) ∈ bad.filter fun b => decide (b.1 < 64) && decide (b.2 < 1024) :=
    List.mem_filter.2 ⟨hbad, by simp [hk, hr]⟩
  have hzero : (each (bad.filter fun b => decide (b.1 < 64) && decide (b.2 < 1024)) (State.scrubRow n) s).RowZero n (k, r) :=
    each_reaches (inv := fun _ => True) (p := State.RowZero n) (fun _ _ _ => trivial)
      (fun y x _ => y.scrubRow_zeroes n x) (fun _ x _ hz => hz.scrubRow x) trivial (.inl hmem)
  exact hzero hr j hj

/-! ## The start of the hub (R478, R395) -/

theorem bootRomCheck_gives (hon : s.vsys = true) (hfw : s.fw = false) (hnew : s.sec.booted = false)
    (halive : s.sec.dead = false) (hgood : s.bootCheck (s.slotBytes (slotNo 1 (s.preferred 1))) = 0) :
    Gives .bootRomCheck s fun t => t.sec.booted = true ∧ t.sec.runSlot = s.sec.runSlot.set 0 (s.preferred 1) := by
  have hexec : execBootRomCheck s =
      .next (s.setSec { s.sec with booted := true, runSlot := s.sec.runSlot.set 0 (s.preferred 1) }) := by
    unfold execBootRomCheck
    rw [if_pos ⟨hon, by rw [hfw]; rfl, by rw [hnew]; rfl, by rw [halive]; rfl⟩]
    dsimp only
    rw [if_pos hgood]
  exact ⟨_, hexec, rfl, rfl⟩

theorem State.replaceId_regs {i : Nat} (s : State) (die x j e slot mode new : Nat) (hx : i ≠ x) (htrail : i ≠ 0x6000) :
    State.Same (.reg i) s (s.replaceId die x j e slot mode new) := by
  unfold State.replaceId
  extract_lets old
  split
  · exact State.noteAt_same (by simpa using htrail) (State.wr_same (by simpa using hx) (.refl _ s))
  · exact .refl _ s

/-- The replacement of empty IDs writes the three objects that name them, and the trail (R126). -/
theorem State.replaceIds_regs {i : Nat} (s : State) (die : Nat) (hi : i ∉ [0x2511, 0x2514, 0x2523, 0x6000]) :
    State.Same (.reg i) s (s.replaceIds die) := by
  simp only [List.mem_cons, List.not_mem_nil, or_false, not_or] at hi
  obtain ⟨h1, h2, h3, htrail⟩ := hi
  have hone (y : State) (x j e slot mode new : Nat) (hx : i ≠ x) (h : State.Same (.reg i) s y) :
      State.Same (.reg i) s (y.replaceId die x j e slot mode new) :=
    h.trans (y.replaceId_regs die x j e slot mode new hx htrail)
  unfold State.replaceIds
  split
  case isTrue hdie =>
    refine each_same (.refl _ s) fun y k hy => ?_
    rw [← hdie]
    exact hone y _ _ _ _ _ _ h3 hy
  case isFalse =>
    extract_lets y
    have hy : State.Same (.reg i) s y := each_same (.refl _ s) fun z k hz =>
      hone _ _ _ _ _ _ _ h1 (each_same hz fun u m hu => hone u _ _ _ _ _ _ h1 hu)
    exact each_same hy fun z k hz => hone z _ _ _ _ _ _ h2 hz

theorem State.checkReady_fallback (s : State) : s.checkReady.sec.fallback = s.sec.fallback := by
  unfold State.checkReady
  split
  · extract_lets y
    split
    · rfl
    · rfl
  · rfl

/-- The fallback is over, and the hub's empty IDs are replaced. -/
def State.firmwareNamed (s : State) : State := (s.setSec { s.sec with fallback := false }).replaceIds 0

theorem State.firmwareNamed_fallback (s : State) : s.firmwareNamed.sec.fallback = false := by
  have hsec : s.firmwareNamed.sec = (s.setSec { s.sec with fallback := false }).sec :=
    State.replaceIds_same (k := .sec) rfl (by decide) (.refl .sec (s.setSec { s.sec with fallback := false }))
  rw [hsec]
  rfl

theorem State.firmwareNamed_fw (s : State) : s.firmwareNamed.fw = s.fw :=
  State.replaceIds_same (k := .fw) rfl (by decide) (.refl .fw (s.setSec { s.sec with fallback := false }))

theorem State.firmwareNamed_rd {i : Nat} (s : State) (hi : i ∉ [0x2511, 0x2514, 0x2523, 0x6000]) (j e : Nat) :
    s.firmwareNamed.rd i j e = s.rd i j e :=
  (State.rd_of_same ((s.setSec { s.sec with fallback := false }).replaceIds_regs 0 hi) j e).trans rfl

/-- The start of the firmware up to the debug state that it shows. -/
def State.firmwareRuns (s : State) : State :=
  let p := s.sec.runSlot.getD 0 0
  let s := { s with fw := true, metNote := s.lt, lastMet := s.lt }
  let s := ((s.restore fun a => (siteOfInst a.inst).isNone).loadPeriods 0).wr 0x1200 1 dev 1
  ((s.phase 2).runs 1 p).runs 2 (s.preferred 2)

/-- The entry of a fallback, and the ports in their stored modes. -/
def State.firmwarePorts (s : State) (p : Nat) : State :=
  let s := if s.sec.fallback then
      let b := s.slotBytes (slotNo 1 (1 - p))
      s.imageNote 1 (1 - p) (if s.bootCheck b = 0 then 5 else s.bootCheck b)
    else s
  each [0, 1] (fun s k => s.setPort k { mode := s.rdN 0x1400 (k + 1) dev }) s

/-- What the start does once the ports stand. -/
def State.firmwareEnds (s : State) : State :=
  let s := { s with net := { s.net with ip := s.ipNow } }
  let s := s.firmwareNamed
  let s := each s.sites (fun s n => s.closeSite n s.resetLt) s
  (s.admitRestored 0).checkReady

theorem State.startFirmware_eq (s : State) : s.startFirmware =
    ((s.firmwareRuns.noSites.wr 0x7060 4 dev (b2i !s.firmwareRuns.sealedPart)).firmwarePorts
      (s.sec.runSlot.getD 0 0)).firmwareEnds := by
  unfold State.startFirmware State.firmwareRuns State.firmwarePorts State.firmwareEnds State.firmwareNamed
  with_reducible rfl

theorem State.firmwareRuns_shows (s : State) : s.firmwareRuns.fw = true ∧ s.firmwareRuns.sealedPart = s.sealedPart := by
  unfold State.firmwareRuns
  extract_lets p served restored
  have hrestored {k : Part} (hr : k.isObj = false) (hk : k ∉ [.units, .sec]) : State.Same k served restored :=
    State.wr_same (notMem_any hr hk (by decide)) (State.loadPeriods_same (notMem_any hr hk (by decide))
      (State.restore_same hr (.refl k served)))
  have hran {k : Part} (hr : k.isObj = false) (hk : k ∉ [.units, .sec]) :
      State.Same k served (((restored.phase 2).runs 1 p).runs 2 (restored.preferred 2)) :=
    State.runs_same (notMem_any hr hk (by decide)) (State.runs_same (notMem_any hr hk (by decide))
      (State.phase_same (notMem_any hr hk (by decide)) (hrestored hr hk)))
  exact ⟨hran (k := .fw) rfl (by decide), hran (k := .sealedPart) rfl (by decide)⟩

theorem State.firmwarePorts_same {k : Part} (s : State) (p : Nat) (hk : k ∉ [.reg 0x6000, .dies, .trail, .can]) :
    State.Same k s (s.firmwarePorts p) := by
  unfold State.firmwarePorts
  extract_lets image noted
  have hnoted : State.Same k s noted := by
    unfold noted
    split
    · exact State.imageNote_same (notMem_of hk (by decide)) (.refl k s)
    · exact .refl k s
  exact each_same hnoted fun _ _ hy => State.setPort_same (notMem_of hk (by decide)) hy

theorem State.firmwareEnds_shows (s : State) : s.firmwareEnds.fw = s.fw ∧ s.firmwareEnds.sec.fallback = false ∧
    s.firmwareEnds.rd 0x7060 4 dev = s.rd 0x7060 4 dev := by
  have hend {k : Part} (y : State) (hk : k ∉ [.lane, .flight, .reg 0x2500, .reg 0x6000, .slots, .dies, .trail]) :
      State.Same k y ((each y.sites (fun s n => s.closeSite n s.resetLt) y).admitRestored 0) :=
    State.admitRestored_same (notMem_of hk (by decide)) (each_same (.refl k y) fun _ _ hy =>
      State.closeSite_same (notMem_of hk (by decide)) hy)
  have hready {k : Part} (y : State) (hk : k ∉ [.reg 0x1202, .reg 0x7032, .reg 0x7050, .blob 0x7033, .sec]) :
      State.Same k y y.checkReady := State.checkReady_same hk (.refl k y)
  unfold State.firmwareEnds
  extract_lets net addressed named closed
  have haddressed {k : Part} (hk : k ∉ [.net]) : State.Same k s addressed := same_net hk (.refl k s)
  have hname : named = addressed.firmwareNamed := rfl
  clear_value named addressed
  have hnamed : named.fw = addressed.fw ∧ named.sec.fallback = false ∧
      named.rd 0x7060 4 dev = addressed.rd 0x7060 4 dev := by
    rw [hname]
    exact ⟨addressed.firmwareNamed_fw, addressed.firmwareNamed_fallback, addressed.firmwareNamed_rd (by decide) 4 dev⟩
  obtain ⟨hnamedFw, hfallback, hdebug⟩ := hnamed
  refine ⟨?_, ?_, ?_⟩
  · exact Eq.trans (hready (k := .fw) (closed.admitRestored 0) (by decide)) (Eq.trans (hend (k := .fw) named (by decide))
      (hnamedFw.trans (haddressed (k := .fw) (by decide))))
  · have hsec : (closed.admitRestored 0).sec = named.sec := hend (k := .sec) named (by decide)
    rw [State.checkReady_fallback, hsec, hfallback]
  · rw [State.rd_of_same (hready (k := .reg 0x7060) (closed.admitRestored 0) (by decide)),
      State.rd_of_same (hend (k := .reg 0x7060) named (by decide)), hdebug,
      State.rd_of_same (haddressed (k := .reg 0x7060) (by decide))]

theorem State.startFirmware_shows (s : State) : s.startFirmware.fw = true ∧ s.startFirmware.sec.fallback = false ∧
    s.startFirmware.rd 0x7060 4 dev = b2i !s.sealedPart := by
  rw [State.startFirmware_eq]
  obtain ⟨hfw, hsealed⟩ := s.firmwareRuns_shows
  have hopened (v : Int) : (s.firmwareRuns.noSites.wr 0x7060 4 dev v).fw = s.firmwareRuns.fw :=
    State.wr_same (k := .fw) (by decide) (State.noSites_same (by decide) (.refl .fw s.firmwareRuns))
  have hports (y : State) (p : Nat) : (y.firmwarePorts p).fw = y.fw := y.firmwarePorts_same (k := .fw) p (by decide)
  obtain ⟨hendFw, hfallback, hdebug⟩ := ((s.firmwareRuns.noSites.wr 0x7060 4 dev
    (b2i !s.firmwareRuns.sealedPart)).firmwarePorts (s.sec.runSlot.getD 0 0)).firmwareEnds_shows
  refine ⟨?_, hfallback, ?_⟩
  · rw [hendFw, hports, hopened, hfw]
  · rw [hdebug, State.rd_of_same (State.firmwarePorts_same (k := .reg 0x7060) _ _ (by decide)), State.rd_wr_self, hsealed]

theorem residentFirmwareStart_gives (hon : s.vsys = true) (hfw : s.fw = false) (hbooted : s.sec.booted = true)
    (hgood : payloadOk (s.slotBytes (slotNo 1 (s.sec.runSlot.getD 0 0))) = true) :
    Gives .residentFirmwareStart s fun t => t.fw = true ∧ t.sec.fallback = false ∧ t.rd 0x7060 4 dev = b2i !s.sealedPart := by
  have hexec : execResidentFirmwareStart s = .next s.startFirmware := by
    unfold execResidentFirmwareStart
    rw [if_pos ⟨hon, by rw [hfw]; rfl, hbooted⟩]
    dsimp only
    rw [if_pos hgood]
  exact ⟨_, hexec, s.startFirmware_shows⟩

/-! ## The start of a die (R396, R398) -/

/-- A site that fails shows state 6, and of its die its entries alone have changed. -/
theorem State.failSite_shows (s : State) (n result : Nat) : (s.failSite n result).rd 0x1200 1 (siteI n) = 6 ∧
    ((s.failSite n result).die n).trained = (s.die n).trained ∧
    ((s.failSite n result).die n).attempts = (s.die n).attempts := by
  have hready (y : State) : State.Same (.reg 0x1200) y y.checkReady ∧ State.Same .dies y y.checkReady :=
    ⟨State.checkReady_same (by decide) (.refl _ y), State.checkReady_same (by decide) (.refl _ y)⟩
  have hnote (y : State) (data : List Byte) : TrailOnly y (y.note 0x0020 data) := State.note_trailOnly ..
  unfold State.failSite
  refine ⟨?_, ?_⟩
  · rw [State.rd_of_same (hready _).1, (hnote _ _).rd _ _ _ (by decide), State.rd_wr_self]
  · rw [State.die_of_same (hready _).2]
    obtain ⟨sent, queue, hdie⟩ := (hnote (s.wr 0x1200 1 (siteI n) 6)
      (leNat 1 n ++ leNat 1 (s.die n).attempts ++ leNat 1 result)).die n
    rw [hdie]
    exact ⟨rfl, rfl⟩

theorem hingeCTraining_good {n : Nat} (hfw : s.fw = true) (hpop : s.sitePop n = true)
    (hstarts : s.rd 0x1200 1 (siteI n) = 5) (hnew : (s.die n).trained = false) :
    Gives (.hingeCTraining n true) s fun t => (t.die n).trained = true ∧ (t.die n).attempts = (s.die n).attempts + 1 ∧
      t.rd 0x1202 1 dev = max (s.rd 0x1202 1 dev) 3 := by
  refine .of_guard rfl ⟨hfw, hpop, hstarts, by rw [hnew]; rfl⟩ ?_
  extract_lets y
  rw [if_pos rfl, State.die_setDie]
  exact ⟨rfl, rfl, State.rd_wr_self ..⟩

theorem hingeCTraining_bad {n : Nat} (hfw : s.fw = true) (hpop : s.sitePop n = true)
    (hstarts : s.rd 0x1200 1 (siteI n) = 5) (hnew : (s.die n).trained = false) (hlast : 2 ≤ (s.die n).attempts) :
    Gives (.hingeCTraining n false) s fun t => (t.die n).trained = false ∧
      (t.die n).attempts = (s.die n).attempts + 1 ∧ t.rd 0x1200 1 (siteI n) = 6 := by
  refine .of_guard rfl ⟨hfw, hpop, hstarts, by rw [hnew]; rfl⟩ ?_
  extract_lets y z
  rw [if_neg Bool.false_ne_true, if_pos (by omega)]
  obtain ⟨hstate, htrained, hattempts⟩ := z.failSite_shows n 0
  have hz : z.die n = { s.die n with attempts := (s.die n).attempts + 1 } := State.die_setDie ..
  rw [hz] at htrained hattempts
  exact ⟨htrained.trans hnew, hattempts, hstate⟩

/-- A site that comes up shows state 1 (R395). -/
theorem State.siteUp_shows (s : State) (n : Nat) : (s.siteUp n).rd 0x1200 1 (siteI n) = 1 := by
  unfold State.siteUp
  extract_lets y z src w v u
  have hy : y.rd 0x1200 1 (siteI n) = 1 := State.rd_wr_self ..
  have hw : State.Same (.reg 0x1200) y w :=
    State.showMarks_same (by decide) (State.setDie_same (by decide) (State.beatNow_same (by decide) (.refl _ y)))
  have hv : State.Same (.reg 0x1200) w v :=
    State.admitRestored_same (by decide) ((State.phase_same (by decide) (.refl _ w)).trans
      (State.replaceIds_regs _ n (by decide)))
  have hu : State.Same (.reg 0x1200) v u := by
    unfold u
    split
    · exact State.phase_same (by decide) (.refl _ v)
    · exact .refl _ v
  have hup : u.rd 0x1200 1 (siteI n) = 1 := (State.rd_of_same ((hw.trans hv).trans hu) 1 (siteI n)).trans hy
  split
  · exact (State.rd_of_same (State.startDabs_same (by decide) (.refl _ u)) 1 (siteI n)).trans hup
  · exact hup

theorem qcfwCheck_gives {n : Nat} (hfw : s.fw = true) (hpop : s.sitePop n = true)
    (hstarts : s.rd 0x1200 1 (siteI n) = 5) (htrained : (s.die n).trained = true) (hlocked : (s.die n).loop.state = 2) :
    Gives (.qcfwCheck n) s fun t => t.rd 0x1200 1 (siteI n) =
      if s.imageCheck 2 [dieStep n] (s.slotBytes (slotNo 2 (s.sec.runSlot.getD 1 0))) = 0 then 1 else 6 := by
  have hexec : execQcfwCheck n s =
      .next (if s.imageCheck 2 [dieStep n] (s.slotBytes (slotNo 2 (s.sec.runSlot.getD 1 0))) = 0 then s.siteUp n
        else s.failSite n (s.imageCheck 2 [dieStep n] (s.slotBytes (slotNo 2 (s.sec.runSlot.getD 1 0))))) := by
    unfold execQcfwCheck
    rw [if_pos ⟨hfw, hpop, hstarts, htrained, hlocked⟩]
  refine ⟨_, hexec, ?_⟩
  dsimp only
  split
  · exact s.siteUp_shows n
  · exact (s.failSite_shows n _).1

theorem driverArming_gives {n : Nat} (harm : s.armable n = true) (hruns : s.supRuns = true)
    (hheld : s.rd 0x2800 4 (siteI n) = 0) (hnone : (s.die n).echoAt = none) :
    Gives (.driverArming n) s fun t => (t.die n).echoAt = some (s.lt + 50000) ∧ (t.die n).tested = false ∧
      (t.die n).arming = true := by
  refine .of_guard rfl ⟨harm, hruns, hheld, by rw [hnone]; rfl⟩ ?_
  extract_lets y
  have hy : (y.die n).echoAt = some (s.lt + 50000) ∧ (y.die n).tested = false := by
    unfold y State.sendTest State.raiseFrame
    simp only [State.die_setDie]
    exact ⟨rfl, rfl⟩
  rw [State.die_setDie]
  exact ⟨hy.1, hy.2, rfl⟩

end

/-- Settles O13: an accepted request is carried out within its command, on every die that it names; a start shows its
outcome in its last write. -/
theorem siteResetsAndStart : Obligations.SiteResetsAndStart := by
  refine ⟨?site, ?engine, ?scrub, ?rom, ?resident, ?good, ?bad, ?qcfw, ?arming⟩
  case site =>
    intro src mask s hacc hidle
    exact (siteReset_gives hacc hidle).framedHidden fun k hk hr => execSiteReset_same hr hk (.refl k s)
  case engine =>
    intro src mask s hacc hidle
    exact (engineReset_gives hacc hidle).framedHidden fun k hk hr => execEngineReset_same hr hk (.refl k s)
  case scrub =>
    intro n bad s hon hpop hscrub
    exact (recipeScrub_gives hon hpop hscrub).framedHidden fun k hk hr => execRecipeScrub_same hr hk (.refl k s)
  case rom =>
    intro s hon hfw hnew halive hgood
    exact (bootRomCheck_gives hon hfw hnew halive hgood).framed fun k hk => execBootRomCheck_same hk (.refl k s)
  case resident =>
    intro s hon hfw hbooted hgood
    exact (residentFirmwareStart_gives hon hfw hbooted hgood).framedHidden fun k hk hr =>
      execResidentFirmwareStart_same hr hk (.refl k s)
  case good =>
    intro n s hfw hpop hstarts hnew
    exact (hingeCTraining_good hfw hpop hstarts hnew).framed fun k hk => execHingeCTraining_same hk (.refl k s)
  case bad =>
    intro n s hfw hpop hstarts hnew hlast
    exact (hingeCTraining_bad hfw hpop hstarts hnew hlast).framed fun k hk => execHingeCTraining_same hk (.refl k s)
  case qcfw =>
    intro n s hfw hpop hstarts htrained hlocked
    exact (qcfwCheck_gives hfw hpop hstarts htrained hlocked).framedHidden fun k hk hr => execQcfwCheck_same hr hk (.refl k s)
  case arming =>
    intro n s harm hruns hheld hnone
    exact (driverArming_gives harm hruns hheld hnone).framed fun k hk => execDriverArming_same hk (.refl k s)

end Sys2Proof.Machine
end

section
/-! O60, HubServices: the start of the supervisor, hub conversions, the tests of the DCOV comparators, the best master,
the switch, and what the port and the network answer. -/

namespace Sys2Proof.Machine

variable {s : State}

/-! ## The supervisor (R353, R395) -/

theorem supervisorStart_gives {crc : Nat} (hon : s.vsys = true) (halive : s.sec.dead = false)
    (hnew : s.rd 0x4000 1 dev = 0) :
    Gives (.supervisorStart crc) s fun t => t.rd 0x4000 1 dev = 1 ∧
      t.rd 0x4000 2 dev = (if inputsOk s.inFn s.inSrc = true ∧ crc = s.configCrc [] then 0x0102 else 0x0182) ∧
      1 ≤ t.rd 0x1202 1 dev := by
  refine .of_guard rfl ⟨hon, by rw [halive]; rfl, hnew⟩ ?_
  extract_lets bad y src z w
  have hz : State.Same (.reg 0x4000) y z := State.setSup_same (by decide) (.refl _ y)
  have hw : State.Same (.reg 0x4000) z w := each_same (.refl _ z) fun u k hu => by
    split
    · exact hu
    · exact State.wr_same (by decide) hu
  have hend (v : Int) : State.Same (.reg 0x4000) y (w.wr 0x1202 1 dev v) :=
    State.wr_same (by decide) (hz.trans hw)
  have hsum (b : Bool) : (0x0102 + if b then 0x80 else 0 : Int) = if b = false then 0x0102 else 0x0182 := by
    cases b <;> rfl
  have hbad : bad = false ↔ inputsOk s.inFn s.inSrc = true ∧ crc = s.configCrc [] := by
    simp [bad]
  refine ⟨?_, ?_, ?_⟩
  · exact (State.rd_of_same (hend _) 1 dev).trans ((State.rd_wr_ne _ _ (by simp)).trans (State.rd_wr_self ..))
  · refine (State.rd_of_same (hend _) 2 dev).trans ((State.rd_wr_self ..).trans ((hsum bad).trans ?_))
    simp only [hbad]
  · rw [State.rd_wr_self]
    exact le_max_right ..

/-! ## Hub conversions (R271, R272) -/

theorem State.countWindows_setAdc (s : State) (u : Nat) (x : Adc) (k code : Nat) :
    (s.setAdc 0 u x).countWindows k ((s.setAdc 0 u x).hubValue k code) = s.countWindows k (s.hubValue k code) := rfl

theorem State.win_of_same {s t : State} (h : State.Same .wins s t) (k : Nat) : t.win k = s.win k := by
  rw [State.win, State.win, show t.wins = s.wins from h]

/-- What follows a conversion leaves the windows and the frames of the units. -/
theorem State.converted_shows (s : State) (k u : Nat) (w : Win) (e : BitVec 64) (v : Int) (p q : Prop) [Decidable p]
    [Decidable q] :
    State.Same .adcs s (if p then (((s.setWin k w).enqueue u e).addSums k v).watchLink k v
      else if q then (((s.setWin k w).enqueue u e).addSums k v).watchGrid
      else (((s.setWin k w).enqueue u e).addSums k v).watchCurrents k v) ∧
    (if p then (((s.setWin k w).enqueue u e).addSums k v).watchLink k v
      else if q then (((s.setWin k w).enqueue u e).addSums k v).watchGrid
      else (((s.setWin k w).enqueue u e).addSums k v).watchCurrents k v).win k = w := by
  have hsums {x : Part} (hx : x ∉ [.reg 0x3038, .queues, .slots]) :
      State.Same x (s.setWin k w) (((s.setWin k w).enqueue u e).addSums k v) :=
    State.addSums_same (notMem_of hx (by decide)) (State.enqueue_same (notMem_of hx (by decide)) (.refl x _))
  have hend {x : Part} (y : State) (hx : x ∉ [.reg 0x3060, .power]) :
      State.Same x y (if p then y.watchLink k v else if q then y.watchGrid else y.watchCurrents k v) := by
    split
    · exact State.watchLink_same hx (.refl x y)
    · split
      · exact State.watchGrid_same (notMem_of hx (by decide)) (.refl x y)
      · exact State.watchCurrents_same (notMem_of hx (by decide)) (.refl x y)
  have hwins : State.Same .wins (s.setWin k w) _ := (hsums (by decide)).trans (hend _ (by decide))
  refine ⟨(State.setWin_same (by decide) (.refl .adcs s)).trans ((hsums (by decide)).trans (hend _ (by decide))), ?_⟩
  exact (State.win_of_same hwins k).trans (State.win_setWin ..)

theorem hubAdcConversion_gives {u code : Nat} (hu : u < 4) (hidle : (s.adc 0 u).diagUntil = none) :
    Gives (.hubAdcConversion u code) s fun t =>
      t.win (16 * u + frameInput u (s.adc 0 u).turn) = s.countWindows (16 * u + frameInput u (s.adc 0 u).turn)
        (s.hubValue (16 * u + frameInput u (s.adc 0 u).turn) (code % 65536)) ∧
      (t.adc 0 u).turn = ((s.adc 0 u).turn + 1) % 96 := by
  refine .of_guard rfl ⟨hu, by rw [hidle]; rfl⟩ ?_
  extract_lets a k y v w st z
  obtain ⟨hadcs, hwin⟩ := y.converted_shows k u w (queueEntry (y.cnt 0) st k v) v (isDcl k ∨ k = 1 ∨ k = 17)
    (k = 5 ∨ k = 6)
  refine ⟨hwin.trans (s.countWindows_setAdc u _ k (code % 65536)), ?_⟩
  rw [State.adc_of_same hadcs, State.adc_setAdc]

/-! ## The tests of the comparators (R364) -/

theorem dcovTestEnd_first {x : Nat} (hat : s.power.testing = some (0, x)) (hdue : x ≤ s.lt)
    (hseen : s.power.tripSeen = true) (hlow : s.power.testHigh = false) :
    Gives (.dcovTestEnd 0) s fun t => t.power.testing = some (1, s.lt + 10000) ∧ t.power.tripSeen = false := by
  have hexec : execDcovTestEnd 0 s =
      .next (s.setPower { s.power with testing := some (1, s.lt + 10000), tripSeen := false }) := by
    simp [execDcovTestEnd, hat, hdue, hseen, hlow]
  exact ⟨_, hexec, rfl, rfl⟩

theorem dcovTestEnd_second {x : Nat} (hat : s.power.testing = some (1, x)) (hdue : x ≤ s.lt)
    (hseen : s.power.tripSeen = true) (hlow : s.power.testHigh = false) :
    Gives (.dcovTestEnd 1) s fun t =>
      t = (s.setPower { s.power with testing := none, tripSeen := false }).testsDone ∧ t.power.testing = none := by
  have hexec : execDcovTestEnd 1 s =
      .next (s.setPower { s.power with testing := none, tripSeen := false }).testsDone := by
    simp [execDcovTestEnd, hat, hdue, hseen, hlow]
  have hpower (y : State) : y.testsDone.power = y.power := State.testsDone_same (k := .power) (by decide) (.refl _ y)
  exact ⟨_, hexec, rfl, congrArg Power.testing (hpower _)⟩

theorem dcovTestEnd_fails {k x : Nat} (hat : s.power.testing = some (k, x)) (hdue : x ≤ s.lt)
    (hseen : s.power.tripSeen = false) : Gives (.dcovTestEnd k) s fun t => t = s.pathFailed 0x52 := by
  have hexec : execDcovTestEnd k s = .next (s.pathFailed 0x52) := by
    simp [execDcovTestEnd, hat, hdue, hseen]
  exact ⟨_, hexec, rfl⟩

/-! ## The best master (R380, R381) -/

theorem bestMasterClock_self : Gives (.bestMasterClock none) s fun t => t.rd 0x1111 1 dev = 4 ∧ t.rd 0x1111 5 dev = 0xFF := by
  refine ⟨_, rfl, State.rd_wr_self .., ?_⟩
  extract_lets y src
  exact (State.rd_wr_ne _ _ (by simp)).trans (State.rd_wr_self ..)

/-- A grandmaster that is new to the part starts its loop over. -/
def State.newMaster (s : State) : State :=
  (s.setClock { s.clock with lockCount := 0, outCount := 0, lastSync := s.lt, step := none }).wr 0x1111 1 dev 1

theorem bestMasterClock_other {b : List Byte} {p : Nat} (hp : p < 2) (hport : bit (s.rdN 0x1110 5 dev) p = true) :
    Gives (.bestMasterClock (some (b, p))) s fun t => t.rdB 0x1111 4 dev = b ∧ t.rd 0x1111 5 dev = p ∧
      (s.isSlave = false ∨ s.rdB 0x1111 4 dev ≠ b → t.rd 0x1111 1 dev = 1 ∧ t.clock.lockCount = 0 ∧
        t.clock.lastSync = s.lt) := by
  refine .of_guard (t := ((if s.isSlave ∧ s.rdB 0x1111 4 dev = b then s else s.newMaster).wrB 0x1111 4 dev b).wr 0x1111 5
    dev p) rfl ⟨hp, hport⟩ ?_
  refine ⟨?_, State.rd_wr_self .., fun hnew => ?_⟩
  · rw [State.rdB_wr, State.rdB_wrB_self]
  · have hguard : ¬ (s.isSlave = true ∧ s.rdB 0x1111 4 dev = b) := by
      rintro ⟨hslave, hsame⟩
      obtain h | h := hnew
      · exact Bool.false_ne_true (h.symm.trans hslave)
      · exact h hsame
    rw [if_neg hguard]
    exact ⟨(State.rd_wr_ne _ _ (by simp)).trans (State.rd_wr_self ..), rfl, rfl⟩

/-! ## The switch and the echoes (R425, R426) -/

theorem switchForward_sends {port : Nat} {frame : List Byte} (hup : s.netUp = true) (hport : port < 2)
    (hother : frame.take 6 ≠ s.macAddress) (hfits : frame.length ≤ 1522) :
    Gives (.switchForward port frame) s fun t =>
      look [] t.net.egress (1 - port) = look [] s.net.egress (1 - port) ++ [(queueOf frame, frame)] ∧
        look [] t.net.egress port = look [] s.net.egress port := by
  have hpass : ¬ ((!s.netUp) = true ∨ 2 ≤ port ∨ frame.take 6 = s.macAddress) := by
    rw [hup]
    rintro (h | h | h)
    · exact Bool.false_ne_true h
    · omega
    · exact hother h
  refine ⟨_, congrArg Host.Outcome.next ((if_neg hpass).trans (if_neg (by omega))), look_put_self .., look_put_ne _ _ _ (by omega)⟩

theorem switchForward_drops {port : Nat} {frame : List Byte} (hup : s.netUp = true) (hport : port < 2)
    (hother : frame.take 6 ≠ s.macAddress) (hlong : 1522 < frame.length) :
    Gives (.switchForward port frame) s fun t =>
      t.rd 0x1301 (3 + port) dev = (s.rd 0x1301 (3 + port) dev + 1) % 2 ^ 32 ∧ t.net.egress = s.net.egress := by
  have hpass : ¬ ((!s.netUp) = true ∨ 2 ≤ port ∨ frame.take 6 = s.macAddress) := by
    rw [hup]
    rintro (h | h | h)
    · exact Bool.false_ne_true h
    · omega
    · exact hother h
  exact ⟨_, congrArg Host.Outcome.next ((if_neg hpass).trans (if_pos hlong)), State.rd_inc_self .., rfl⟩

theorem arpNdpIcmpEcho_answers {kind vlan : Nat} {addr : List Byte} (hup : s.netUp = true) (hfw : s.fw = true)
    (hvlan : vlan = s.net.ip.vlan) (howns : s.ownsAddress kind addr = true) :
    Gives (.arpNdpIcmpEcho kind vlan false addr) s fun t => t.net.answered = s.net.answered + 1 :=
  .of_guard rfl ⟨hup, hfw, hvlan, rfl, howns⟩ rfl

theorem arpNdpIcmpEcho_discards {kind vlan : Nat} {fragment : Bool} {addr : List Byte}
    (hbad : vlan ≠ s.net.ip.vlan ∨ fragment = true ∨ s.ownsAddress kind addr = false) :
    Gives (.arpNdpIcmpEcho kind vlan fragment addr) s fun t => t = s := by
  refine .of_guard_not rfl ?_ rfl
  rintro ⟨-, -, hvlan, hwhole, howns⟩
  obtain h | h | h := hbad
  · exact h hvlan
  · rw [h] at hwhole
    exact Bool.false_ne_true hwhole
  · exact Bool.false_ne_true (h.symm.trans howns)

/-! ## The metrology port (R246) -/

theorem unknownCommand_gives {cmd clocked : Nat} {arg : List Byte} (hup : s.portUp = true) (hlong : 8 ≤ arg.length)
    (hcmd : cmd = 0 ∨ 9 < cmd) :
    Gives (.unknownCommand cmd arg clocked) s fun t => t.qm.port = some ⟨1, [], clocked⟩ := by
  have hexec : execUnknownCommand cmd arg clocked s = .next (s.portReply 1 [] clocked) := by
    unfold execUnknownCommand State.onPort
    rw [if_pos ⟨hup, hlong⟩]
    dsimp only
    rw [if_neg (show ¬ (1 ≤ cmd ∧ cmd ≤ 9) by omega)]
  exact ⟨_, hexec, rfl⟩

/-- Settles O60: each command's guard holds, and what follows the step named leaves what it set. -/
theorem hubServices : Obligations.HubServices := by
  refine ⟨?start, ?convert, ?first, ?second, ?fails, ?self, ?other, ?sends, ?drops, ?answers, ?discards, ?unknown⟩
  case start =>
    intro crc s hon halive hnew
    exact (supervisorStart_gives hon halive hnew).framed fun k hk => execSupervisorStart_same hk (.refl k s)
  case convert =>
    intro u code s hu hidle
    exact (hubAdcConversion_gives hu hidle).framed fun k hk => execHubAdcConversion_same hk (.refl k s)
  case first =>
    intro x s hat hdue hseen hlow
    exact (dcovTestEnd_first hat hdue hseen hlow).framed fun k hk => execDcovTestEnd_same hk (.refl k s)
  case second =>
    intro x s hat hdue hseen hlow
    exact (dcovTestEnd_second hat hdue hseen hlow).framed fun k hk => execDcovTestEnd_same hk (.refl k s)
  case fails =>
    intro k x s hat hdue hseen
    exact (dcovTestEnd_fails hat hdue hseen).framed fun k hk => execDcovTestEnd_same hk (.refl k s)
  case self =>
    intro s
    exact bestMasterClock_self.framed fun k hk => execBestMasterClock_same (x1 := none) hk (.refl k s)
  case other =>
    intro b p s hp hport
    exact (bestMasterClock_other hp hport).framed fun k hk => execBestMasterClock_same (x1 := some (b, p)) hk (.refl k s)
  case sends =>
    intro port frame s hup hport hother hfits
    exact (switchForward_sends hup hport hother hfits).framed fun k hk => execSwitchForward_same hk (.refl k s)
  case drops =>
    intro port frame s hup hport hother hlong
    exact (switchForward_drops hup hport hother hlong).framed fun k hk => execSwitchForward_same hk (.refl k s)
  case answers =>
    intro kind vlan addr s hup hfw hvlan howns
    exact (arpNdpIcmpEcho_answers hup hfw hvlan howns).framed fun k hk => execArpNdpIcmpEcho_same hk (.refl k s)
  case discards =>
    intro kind vlan fragment addr s hbad
    exact (arpNdpIcmpEcho_discards hbad).framed fun k hk => execArpNdpIcmpEcho_same hk (.refl k s)
  case unknown =>
    intro cmd arg clocked s hup hlong hcmd
    exact (unknownCommand_gives hup hlong hcmd).framed fun k hk => execUnknownCommand_same hk (.refl k s)

end Sys2Proof.Machine
end

section
/-! O17, TrailAndMailbox: entries that reach the hub, the freeze, and what the measuring part answers to the requests of
the mailbox. -/

namespace Sys2Proof.Machine

/-! ## Entries that reach the hub (R498, R500 to R502) -/

theorem Die.link_setLink (d : Die) (dir : Dir) (l : Link) : (d.setLink dir l).link dir = l := by
  cases dir with
  | toHub => rfl
  | toDie => rfl

theorem State.link_onLink (s : State) (n : Nat) (dir : Dir) (f : Link → Link) :
    ((s.onLink n dir f).die n).link dir = f ((s.die n).link dir) := by
  rw [State.onLink, State.die_setDie, Die.link_setLink]

theorem State.placeEntry_setDie (s : State) (n : Nat) (x : Die) (e : Stored) :
    (s.setDie n x).placeEntry e = (s.placeEntry e).setDie n x := by
  unfold State.placeEntry
  dsimp only
  by_cases h : (s.rdN 0x6000 1 dev + 2 ^ 32 - s.rdN 0x6000 2 dev) % 2 ^ 32 = 16384
  · have hx : ((s.setDie n x).rdN 0x6000 1 dev + 2 ^ 32 - (s.setDie n x).rdN 0x6000 2 dev) % 2 ^ 32 = 16384 := h
    rw [if_pos h, if_pos hx]
    rfl
  · have hx : ¬ ((s.setDie n x).rdN 0x6000 1 dev + 2 ^ 32 - (s.setDie n x).rdN 0x6000 2 dev) % 2 ^ 32 = 16384 := h
    rw [if_neg h, if_neg hx]
    rfl

theorem State.armFreeze_setDie (s : State) (n : Nat) (x : Die) (severity : Nat) :
    ((s.setDie n x).armFreeze severity).trail = (s.armFreeze severity).trail := by
  unfold State.armFreeze
  have harmed : (s.setDie n x).trail.armed = s.trail.armed := rfl
  rw [harmed]
  cases s.trail.armed with
  | some k => rfl
  | none =>
    dsimp only
    by_cases h : s.rd 0x6000 5 dev ≤ 4 ∧ s.rd 0x6000 5 dev ≤ severity
    · have hx : (s.setDie n x).rd 0x6000 5 dev ≤ 4 ∧ (s.setDie n x).rd 0x6000 5 dev ≤ severity := h
      rw [if_pos h, if_pos hx]
      rfl
    · have hx : ¬ ((s.setDie n x).rd 0x6000 5 dev ≤ 4 ∧ (s.setDie n x).rd 0x6000 5 dev ≤ severity) := h
      rw [if_neg h, if_neg hx]
      rfl

/-- What storing an entry makes of the trail does not depend on the dies. -/
theorem State.store_trail_onLink (s : State) (n : Nat) (dir : Dir) (f : Link → Link) (e : Stored) :
    ((s.onLink n dir f).store e).trail = (s.store e).trail := by
  unfold State.store State.onLink
  have hfrozen (x : Die) : (s.setDie n x).frozen = s.frozen := rfl
  rw [hfrozen]
  split
  · rfl
  · rw [State.placeEntry_setDie, State.armFreeze_setDie]

theorem State.store_die (s : State) (e : Stored) (n : Nat) : (s.store e).die n = s.die n :=
  State.die_of_same (State.store_same (by decide) (.refl .dies s)) n

/-- With nothing to resend, an entry comes from the queue. -/
theorem State.arriveFlit_fresh {s : State} {n : Nat} {dir : Dir} (hidle : ((s.die n).link dir).replay.retries = 0)
    (hresend : ((s.die n).link dir).resend = []) :
    s.arriveFlit n dir .entry =
      each (Machine.leave [.entry] ((s.die n).link dir).queue).1 (fun s f => s.deliver n dir f)
        ((s.onLink n dir fun l => { l with resend := l.resend.drop 0 }).onLink n dir fun l =>
          { l with queue := (Machine.leave [.entry] ((s.die n).link dir).queue).2 }) := by
  unfold State.arriveFlit
  simp [hidle, hresend, State.endReplay, untilKind, each, State.link_onLink]

section
variable {s : State}

theorem trailEntry_fresh {n : Nat} (hlink : s.linkOk n .toHub = true)
    (hidle : ((s.die n).link .toHub).replay.retries = 0) (hresend : ((s.die n).link .toHub).resend = []) :
    Gives (.trailEntry n) s fun t =>
      t.trail = (match ((s.die n).link .toHub).queue with | e :: _ => (s.store e).trail | [] => s.trail) ∧
        ((t.die n).link .toHub).queue = ((s.die n).link .toHub).queue.tail := by
  refine .of_guard rfl hlink ?_
  rw [State.arriveFlit_fresh hidle hresend]
  cases hqueue : ((s.die n).link .toHub).queue with
  | nil => exact ⟨rfl, by simp [leave, each, State.link_onLink]⟩
  | cons e q =>
    simp only [leave, each, List.foldl_cons, List.foldl_nil, State.deliver]
    exact ⟨by rw [State.store_trail_onLink, State.store_trail_onLink], by simp [State.store_die, State.link_onLink]⟩

/-- Where a replay is in progress and its heartbeat is not late, the first flit to be resent is the one that arrives. -/
theorem State.arriveFlit_resent {s : State} {n : Nat} {dir : Dir} {e : Stored} {l : List Flit}
    (hbeat : s.beatLate n = false) (hresend : ((s.die n).link dir).resend = .entry e :: l) :
    s.arriveFlit n dir .entry = ((s.endReplay n dir 0).onLink n dir fun l => { l with resend := l.resend.drop 1 }).store e := by
  unfold State.arriveFlit
  simp [hbeat, hresend, untilKind, Flit.kind, each, State.deliver]

/-- The replay of a direction ends, and its flits stay. -/
theorem State.endReplay_shows (s : State) (n outcome : Nat) :
    ((((s.endReplay n .toHub outcome).die n).link .toHub).resend = ((s.die n).link .toHub).resend) ∧
      (((s.endReplay n .toHub outcome).die n).link .toHub).replay.retries = 0 := by
  unfold State.endReplay
  extract_lets r
  split
  case isTrue h => exact ⟨rfl, h⟩
  case isFalse =>
    obtain ⟨sent, queue, hdie⟩ := (s.raise_trailOnly (receiverOf n .toHub) noChan 0x0022
      (leNat 1 n ++ leNat 1 (dirField .toHub) ++ leNat 1 r.retries ++ leNat 1 outcome) r.corr).die n
    rw [State.link_onLink, State.replayNote, hdie]
    exact ⟨rfl, rfl⟩

theorem trailEntry_resent {n : Nat} {e : Stored} {l : List Flit} (hlink : s.linkOk n .toHub = true)
    (hbeat : s.beatLate n = false) (hresend : ((s.die n).link .toHub).resend = .entry e :: l) :
    Gives (.trailEntry n) s fun t =>
      t.trail = ((s.endReplay n .toHub 0).store e).trail ∧ ((t.die n).link .toHub).resend = l ∧
        ((t.die n).link .toHub).replay.retries = 0 := by
  refine .of_guard rfl hlink ?_
  obtain ⟨hstays, hdone⟩ := s.endReplay_shows n 0
  rw [State.arriveFlit_resent hbeat hresend, State.store_die, State.link_onLink, State.store_trail_onLink]
  exact ⟨rfl, by rw [hstays, hresend]; rfl, hdone⟩

theorem trailFreeze_gives (harmed : s.trail.armed = some 0) :
    Gives .trailFreeze s fun t => t.trail.armed = none ∧ t.rd 0x6000 7 dev = 1 :=
  .of_guard rfl harmed ⟨rfl, State.rd_wr_self ..⟩

/-! ## Requests of the mailbox (R205, R207) -/

theorem State.mailReply_reply (s : State) (op status : Nat) (payload : List Byte) :
    (s.mailReply op status payload).qm.reply = some ⟨op + 128, s.tag, status, payload⟩ := rfl

theorem State.request_of_up {s : State} (hup : s.qmUp = true) (i : Instr) : s.request i = (s.ahead i).carry i := if_pos hup

theorem State.answered_tag (s : State) (i : Instr) : (s.answered i).tag = s.tag := rfl

theorem State.flushMail_fw (s : State) : s.flushMail.fw = s.fw :=
  State.flushMail_same (k := .fw) (by decide) (.refl _ s)

/-- Metrology is present once its answer has reached the hub (R397). -/
theorem State.metBack_shows (s : State) : s.metBack.qm = s.qm ∧ (s.fw = true → s.metBack.rd 0x1202 5 dev ≠ 0) := by
  refine ⟨State.metBack_same (k := .qm) (by decide) (.refl _ s), fun hfw => ?_⟩
  unfold State.metBack
  split
  case isFalse h => exact fun hzero => h ⟨hfw, hzero⟩
  case isTrue =>
    extract_lets y
    have hy : y.rd 0x1202 5 dev = 1 := by
      have hmail (z : State) (i : Instr) : State.Same (.reg 0x1202) z (z.mail i) := State.mail_same (by decide) (.refl _ z)
      exact (State.rd_of_same (hmail _ _) 5 dev).trans (State.rd_wr_self ..)
    have hend : (if y.metSilent then { y with metSilent := false }.note 0x0030 (leNat 1 1) else y).rd 0x1202 5 dev = 1 := by
      split
      · have hnote (z : State) (data : List Byte) : State.Same (.reg 0x1202) z (z.note 0x0030 data) :=
          State.note_same (by decide) (.refl _ z)
        exact (State.rd_of_same (hnote _ _) 5 dev).trans hy
      · exact hy
    rw [hend]
    decide

theorem identify_gives {u : State} (hup : s.qmUp = true) (hu : s.flushMail = u) :
    Gives .identify s fun t => t.qm.reply = some ⟨0x81, u.tag, 0, u.identBytes ++ leNat 8 u.metNonce⟩ ∧
      (s.fw = true → t.rd 0x1202 5 dev ≠ 0) := by
  refine .of_guard rfl hup ?_
  rw [hu]
  obtain ⟨hqm, hmet⟩ := (u.mailReply 0x01 0 (u.identBytes ++ leNat 8 u.metNonce)).metBack_shows
  refine ⟨by rw [hqm, State.mailReply_reply], fun hfw => hmet ?_⟩
  have hreply : (u.mailReply 0x01 0 (u.identBytes ++ leNat 8 u.metNonce)).fw = u.fw :=
    State.mailReply_same (k := .fw) (by decide) (.refl _ u)
  rw [hreply, ← hu, State.flushMail_fw, hfw]

theorem mailboxRead_gives {i j c : Nat} {u : State} (hup : s.qmUp = true) (hu : s.flushMail = u) :
    Gives (.mailboxRead i j c) s fun t =>
      t.qm.reply = match u.mailRead i j c with | some b => some ⟨0x82, u.tag, 0, b⟩ | none => some ⟨0x82, u.tag, 4, []⟩ := by
  refine .of_guard rfl hup ?_
  rw [hu]
  dsimp only
  cases u.mailRead i j c with
  | some b => rfl
  | none => rfl

theorem mailboxSubscribe_gives {mask : Nat} {u : State} (hup : s.qmUp = true) (hu : s.ahead (.mailboxSubscribe mask) = u) :
    Gives (.mailboxSubscribe mask) s fun t => t.qm.mask = (if mask < 64 then mask else u.qm.mask) ∧
      t.qm.reply = some ⟨0x83, u.tag, if mask < 64 then 0 else 5, []⟩ := by
  refine ⟨_, congrArg Host.Outcome.next (State.request_of_up hup _), ?_⟩
  rw [hu]
  unfold State.carry
  dsimp only
  unfold State.doSubscribe
  by_cases hmask : mask < 64
  · rw [if_pos hmask, if_pos hmask, if_pos hmask]
    exact ⟨rfl, rfl⟩
  · rw [if_neg hmask, if_neg hmask, if_neg hmask]
    exact ⟨rfl, rfl⟩

theorem State.checkHold_ackBat (s : State) : s.checkHold.qm.ackBat = s.qm.ackBat := by
  rw [State.checkHold_qm]

theorem ackRecords_gives {n : Nat} {u : State} (hup : s.qmUp = true) (hu : s.ahead (.ackRecords n) = u) :
    Gives (.ackRecords n) s fun t => t.qm.reply = some ⟨0x84, u.tag, u.ackStatus n, []⟩ ∧
      (u.ackStatus n = 0 → t.qm.ackBat = n) := by
  refine ⟨_, congrArg Host.Outcome.next (State.request_of_up hup _), ?_⟩
  rw [hu]
  unfold State.carry
  extract_lets y
  have htag : (y.doAck n).tag = u.tag := State.doAck_same (k := .tag) (by decide) (.refl .tag y)
  refine ⟨by rw [State.mailReply_reply, htag]; rfl, fun hok => ?_⟩
  have hstatus : y.ackStatus n = 0 := hok
  have hack : (y.doAck n).qm.ackBat = n := by
    rw [State.doAck, if_pos hstatus, State.ackTo]
    exact State.checkHold_ackBat _
  exact hack

theorem State.carry_stepStart (s : State) (c row index mode rate gang origin firstJob loop sub4 sub2 : Nat) :
    s.carry (.stepStart c row index mode rate gang origin firstJob loop sub4 sub2) =
      if (s.answered (.stepStart c row index mode rate gang origin firstJob loop sub4 sub2)).chanPop c then
        ((s.answered (.stepStart c row index mode rate gang origin firstJob loop sub4 sub2)).doStepStart
          (.stepStart c row index mode rate gang origin firstJob loop sub4 sub2)).mailReply 0x06 0 []
      else (s.answered (.stepStart c row index mode rate gang origin firstJob loop sub4 sub2)).mailReply 0x06 4 [] := rfl

theorem State.carry_stepClose (s : State) (c next cause endLt : Nat) :
    s.carry (.stepClose c next cause endLt) =
      if (s.answered (.stepClose c next cause endLt)).chanPop c ∧
          ((s.answered (.stepClose c next cause endLt)).qc c).step.isSome then
        ((s.answered (.stepClose c next cause endLt)).doClose c next cause endLt).mailReply 0x07 0 []
      else (s.answered (.stepClose c next cause endLt)).mailReply 0x07 4 [] := rfl

theorem State.carry_cellId (s : State) (c : Nat) (id : List Byte) :
    s.carry (.cellId c id) = (s.answered (.cellId c id)).doCellId c id := rfl

theorem State.answered_qm (s : State) (i : Instr) : (s.answered i).qm = s.qm := rfl

theorem State.answered_chanPop (s : State) (i : Instr) (c : Nat) : (s.answered i).chanPop c = s.chanPop c := rfl

theorem State.ahead_chanPop (s : State) (i : Instr) (c : Nat) : (s.ahead i).chanPop c = s.chanPop c := by
  rw [State.chanPop, State.chanPop, State.sitePop_of_same (State.ahead_same (by decide) (.refl .variant s))]

theorem cellId_gives {c : Nat} {id : List Byte} {u : State} (hup : s.qmUp = true) (hpop : s.chanPop c = true)
    (hid : id.length ≤ 24) (hu : s.ahead (.cellId c id) = u) :
    Gives (.cellId c id) s fun t => (t.qc c).cellNext = padTo 24 id ∧ t.qm.reply = some ⟨0x85, u.tag, 0, []⟩ := by
  have hy : (u.answered (.cellId c id)).chanPop c = true := by
    rw [State.answered_chanPop, ← hu, State.ahead_chanPop, hpop]
  have hexec : execCellId c id s = .next (((u.answered (.cellId c id)).setQc c
      { (u.answered (.cellId c id)).qc c with cellNext := padTo 24 id }).mailReply 0x05 0 []) := by
    rw [execCellId, State.request_of_up hup, hu, State.carry_cellId, State.doCellId, if_pos ⟨hy, hid⟩]
  refine ⟨_, hexec, ?_, rfl⟩
  have hqc (y : State) : (y.mailReply 0x05 0 []).qc c = y.qc c := rfl
  dsimp only
  rw [hqc, State.qc_setQc_self]

/-! ## Steps (R207, R215) -/

theorem State.holds_of_qm {s t : State} (h : t.qm = s.qm) (c n lt : Nat) : t.holds c n lt = s.holds c n lt := by
  unfold State.holds State.provisional State.rot State.framed State.qc
  rw [h]

/-- A start opens the step that it carries (R215). -/
theorem State.startQStep_opens (s : State) (c row index mode rate gang origin firstJob loop sub4 sub2 : Nat) :
    ∃ w, ((s.startQStep c row index mode rate gang origin firstJob loop sub4 sub2).qc c).step = some w ∧ w.row = row ∧
      w.index = index ∧ w.mode = mode ∧ w.gang = gang ∧ w.loop = loop := by
  unfold State.startQStep
  extract_lets t x a fresh broken y w
  exact ⟨w, by rw [State.qc_setQc_self], rfl, rfl, rfl, rfl, rfl⟩

theorem stepStart_gives {c row index mode rate gang origin firstJob loop sub4 sub2 : Nat} {u : State} (hup : s.qmUp = true)
    (hpop : s.chanPop c = true)
    (hu : s.ahead (.stepStart c row index mode rate gang origin firstJob loop sub4 sub2) = u)
    (hfree : u.holds c gang origin = false) :
    Gives (.stepStart c row index mode rate gang origin firstJob loop sub4 sub2) s fun t =>
      t.qm.reply = some ⟨0x86, u.tag, 0, []⟩ ∧
        ∃ w, (t.qc c).step = some w ∧ w.row = row ∧ w.index = index ∧ w.mode = mode ∧ w.gang = gang ∧ w.loop = loop := by
  have hy : (u.answered (.stepStart c row index mode rate gang origin firstJob loop sub4 sub2)).chanPop c = true := by
    rw [State.answered_chanPop, ← hu, State.ahead_chanPop, hpop]
  have hopen (y : State) (hqm : y.qm = u.qm) :
      y.doStepStart (.stepStart c row index mode rate gang origin firstJob loop sub4 sub2) =
        y.startQStep c row index mode rate gang origin firstJob loop sub4 sub2 :=
    if_neg (by rw [State.holds_of_qm hqm, hfree]; exact Bool.false_ne_true)
  have hexec : execStepStart c row index mode rate gang origin firstJob loop sub4 sub2 s =
      .next (((u.answered (.stepStart c row index mode rate gang origin firstJob loop sub4 sub2)).startQStep c row index mode
        rate gang origin firstJob loop sub4 sub2).mailReply 0x06 0 []) := by
    rw [execStepStart, State.request_of_up hup, hu, State.carry_stepStart, if_pos hy, hopen _ (State.answered_qm ..)]
  have htag (y : State) : (y.startQStep c row index mode rate gang origin firstJob loop sub4 sub2).tag = y.tag :=
    State.startQStep_same (k := .tag) (by decide) (.refl .tag y)
  have hqc (y : State) : (y.mailReply 0x06 0 []).qc c = y.qc c := rfl
  refine ⟨_, hexec, ?_, ?_⟩
  · rw [State.mailReply_reply, htag, State.answered_tag]
  · rw [hqc]
    exact State.startQStep_opens ..

/-- A close leaves no step, the next row, and the window that starts at its end (R215). -/
theorem State.closeQStep_closes {s : State} {c : Nat} (hopen : (s.qc c).step.isSome = true) (endLt cause next : Nat) :
    ((s.closeQStep c endLt cause next).qc c).step = none ∧ ((s.closeQStep c endLt cause next).qc c).nextRow = next ∧
      ((s.closeQStep c endLt cause next).qc c).winStart = endLt := by
  unfold State.closeQStep
  extract_lets x q e
  split
  case h_1 hnone =>
    rw [hnone] at hopen
    exact absurd hopen (by simp)
  case h_2 =>
    extract_lets t y
    rw [State.qc_setQc_self]
    exact ⟨rfl, rfl, rfl⟩

/-- The measuring part keeps the LT of a close (R260). -/
def State.noteClose (s : State) (c endLt : Nat) : State :=
  s.onQm fun q => { q with closes := (c, endLt) :: q.closes.filter fun e => decide (endLt ≤ e.2 + 10000000000) }

theorem State.noteClose_holds (s : State) (c endLt d n lt : Nat) : (s.noteClose c endLt).holds d n lt = s.holds d n lt := rfl

theorem stepClose_gives {c next cause endLt : Nat} {u : State} (hup : s.qmUp = true) (hpop : s.chanPop c = true)
    (hu : s.ahead (.stepClose c next cause endLt) = u) (hopen : (u.qc c).step.isSome = true)
    (hfree : u.holds c (u.qc c).gangSize endLt = false) :
    Gives (.stepClose c next cause endLt) s fun t =>
      t.qm.reply = some ⟨0x87, u.tag, 0, []⟩ ∧ (t.qc c).step = none ∧ (t.qc c).nextRow = next ∧ (t.qc c).winStart = endLt := by
  have hy : (u.answered (.stepClose c next cause endLt)).chanPop c = true := by
    rw [State.answered_chanPop, ← hu, State.ahead_chanPop, hpop]
  have hclose (y : State) (hqm : y.qm = u.qm) :
      y.doClose c next cause endLt = (y.noteClose c endLt).closeQStep c endLt cause next := by
    have hheld : ¬ (y.noteClose c endLt).holds c ((y.noteClose c endLt).qc c).gangSize endLt = true := by
      have hchan : ((y.noteClose c endLt).qc c).gangSize = (u.qc c).gangSize := by
        rw [← State.qc_of_chans (congrArg Qm.chans hqm) c]
        rfl
      rw [State.noteClose_holds, State.holds_of_qm hqm, hchan, hfree]
      exact Bool.false_ne_true
    exact if_neg hheld
  have hexec : execStepClose c next cause endLt s =
      .next ((((u.answered (.stepClose c next cause endLt)).noteClose c endLt).closeQStep c endLt cause next).mailReply
        0x07 0 []) := by
    rw [execStepClose, State.request_of_up hup, hu, State.carry_stepClose, if_pos ⟨hy, hopen⟩,
      hclose _ (State.answered_qm ..)]
  have htag (y : State) : (y.closeQStep c endLt cause next).tag = y.tag :=
    State.closeQStep_same (k := .tag) (by decide) (.refl .tag y)
  have hqc (y : State) : (y.mailReply 0x07 0 []).qc c = y.qc c := rfl
  refine ⟨_, hexec, ?_, ?_⟩
  · rw [State.mailReply_reply, htag]
    rfl
  · rw [hqc]
    exact State.closeQStep_closes (s := (u.answered (.stepClose c next cause endLt)).noteClose c endLt) hopen endLt cause next

/-! ## Image segments (R241) -/

theorem reqAdjustImageSegment_gives {offset : Nat} {data : List Byte} {u : State} (hup : s.qmUp = true)
    (hfits : data.length ≤ 8184) (hu : s.flushMail = u) :
    Gives (.reqAdjustImageSegment offset data) s fun t =>
      t.qm.reply = some ⟨0x88, u.tag, (u.takeSegment offset data).2, []⟩ ∧
        (s.fw = true → t.rd 0x5441 0 dev = (u.takeSegment offset data).2) := by
  have hexec : execReqAdjustImageSegment offset data s =
      .next ((u.takeSegment offset data).1.adjustReply (u.takeSegment offset data).2) := by
    unfold execReqAdjustImageSegment
    rw [if_pos hup, if_pos (show data.length + 8 ≤ 8192 by omega), hu]
  have hkeep {k : Part} (hk : k ∉ [.qm]) : State.Same k u (u.takeSegment offset data).1 :=
    State.takeSegment_same hk (.refl k u)
  refine ⟨_, hexec, ?_, fun hfw => ?_⟩
  · rw [State.adjustReply_qm, show (u.takeSegment offset data).1.tag = u.tag from hkeep (k := .tag) (by decide)]
  · have hup' : ((u.takeSegment offset data).1.mailReply 0x08 (u.takeSegment offset data).2 []).fw = true := by
      have hreply (y : State) (status : Nat) : (y.mailReply 0x08 status []).fw = y.fw := rfl
      rw [hreply, show (u.takeSegment offset data).1.fw = u.fw from hkeep (k := .fw) (by decide), ← hu,
        State.flushMail_fw, hfw]
    simp only [State.adjustReply, if_pos hup', State.rd_wr_self]

end

/-- Settles O17: an entry is stored as it arrives; a request is carried out on what was sent before it, and its reply is
the last thing that the measuring part writes. -/
theorem trailAndMailbox : Obligations.TrailAndMailbox := by
  refine ⟨?fresh, ?resent, ?freeze, ?identify, ?read, ?subscribe, ?ack, ?cell, ?start, ?close, ?segment⟩
  case fresh =>
    intro n s hlink hidle hresend
    exact (trailEntry_fresh hlink hidle hresend).framed fun k hk => execTrailEntry_same hk (.refl k s)
  case resent =>
    intro n e l s hlink hbeat hresend
    exact (trailEntry_resent hlink hbeat hresend).framed fun k hk => execTrailEntry_same hk (.refl k s)
  case freeze =>
    intro s harmed
    exact (trailFreeze_gives harmed).framed fun k hk => execTrailFreeze_same hk (.refl k s)
  case identify =>
    intro u s hup hu
    exact (identify_gives hup hu).framed fun k hk => execIdentify_same hk (.refl k s)
  case read =>
    intro i j c u s hup hu
    exact (mailboxRead_gives hup hu).framed fun k hk => execMailboxRead_same hk (.refl k s)
  case subscribe =>
    intro mask u s hup hu
    exact (mailboxSubscribe_gives hup hu).framed fun k hk => execMailboxSubscribe_same hk (.refl k s)
  case ack =>
    intro n u s hup hu
    exact (ackRecords_gives hup hu).framed fun k hk => execAckRecords_same hk (.refl k s)
  case cell =>
    intro c id u s hup hpop hid hu
    exact (cellId_gives hup hpop hid hu).framed fun k hk => execCellId_same hk (.refl k s)
  case start =>
    intro c row index mode rate gang origin firstJob loop sub4 sub2 u s hup hpop hu hfree
    exact (stepStart_gives hup hpop hu hfree).framed fun k hk => execStepStart_same hk (.refl k s)
  case close =>
    intro c next cause endLt u s hup hpop hu hopen hfree
    exact (stepClose_gives hup hpop hu hopen hfree).framed fun k hk => execStepClose_same hk (.refl k s)
  case segment =>
    intro offset data u s hup hfits hu
    exact (reqAdjustImageSegment_gives hup hfits hu).framed fun k hk => execReqAdjustImageSegment_same hk (.refl k s)

end Sys2Proof.Machine
end

section
/-! The statement on the store, the defaults and the host key slots. -/

namespace Sys2Proof.Machine

theorem State.netCore_storing {s t : State} (h : t.netCore = s.netCore) : t.net.storing = s.net.storing :=
  (congrArg Net.storing h : t.netCore.storing = s.netCore.storing)

theorem storeSet_effect (s : State) (e : Nat) :
    (storeSet s e).rd 0x1010 2 dev = 1 ∧ (storeSet s e).net.storing = true := ⟨State.rd_wr_self .., rfl⟩

/-- A store shows that it runs, and its answer waits (R422). -/
theorem store_gives {s : State} {src : Src} {v : Nat} (hacc : s.Accepts src 0x1010 1 [dev] v storeCheck) :
    Gives (.store src v) s fun t => t.rd 0x1010 2 dev = 1 ∧ t.net.storing = true := by
  have hnet := (State.writeObj_ok (eff := storeSet) hacc).frame
  have hcore := State.netCore_writeObj (eff := storeSet) hacc
  obtain ⟨hstatus, hstoring⟩ := storeSet_effect ((s.atRequest src).touch dev) dev
  exact ⟨_, rfl, (State.rd_of_same (hnet (.reg 0x1010) (by decide)) 2 dev).trans hstatus,
    (State.netCore_storing hcore).trans hstoring⟩

/-- A store that completes shows its result, and none runs any longer, whoever waits for the answer (R422). -/
theorem storeComplete_gives {s : State} {ok : Bool} (hstoring : s.net.storing = true) :
    Gives (.storeComplete ok) s fun t =>
      t.rd 0x1010 2 dev = (if ok then 2 else 3) ∧ t.net.storing = false := by
  refine ⟨_, congrArg Host.Outcome.next (if_pos hstoring), ?_⟩
  extract_lets by' ack y net z
  have hz : z.rd 0x1010 2 dev = (if ok then 2 else 3) ∧ z.net.storing = false := ⟨State.rd_wr_self .., rfl⟩
  clear_value z by'
  cases by' with
  | some src =>
    exact ⟨(State.rd_of_same (State.answer_same (by decide) (.refl _ z)) 2 dev).trans hz.1,
      (State.netCore_storing (State.netCore_answer ..)).trans hz.2⟩
  | none => exact hz

theorem restoreDefaults_gives {s : State} {src : Src} {v : Nat} (hacc : s.Accepts src 0x1010 3 [dev] v restoreCheck) :
    Gives (.restoreDefaults src v) s fun t => SameButNet ((s.atRequest src).setDefaults src) t := by
  have hnet := State.writeObj_ok (eff := restoreSet src) hacc
  have heach (f : State → Nat → State) (x : State) : each [dev] (fun s e => f (s.touch e) e) x = f x dev := rfl
  rw [heach, restoreSet] at hnet
  exact ⟨_, rfl, hnet⟩

theorem hostKeySet_effect (k : Nat) (h : List Byte) (s : State) (e : Nat) :
    (hostKeySet k h s e).rdB 0x1303 k dev = h := State.rdB_wrB_self ..

/-- A host key slot reads the hash written to it (R450). -/
theorem hostKeySlot_gives {s : State} {src : Src} {k : Nat} {b : List Byte}
    (hacc : s.AcceptsBlob src 0x1303 k [dev] b (hostKeyCheck src k b)) :
    Gives (.hostKeySlot src k b) s fun t => t.rdB 0x1303 k dev = b := by
  have hnet := (State.writeBlob_ok (eff := hostKeySet k b) hacc).frame
  exact ⟨_, rfl, (hnet (.blob 0x1303) (by decide) k dev).trans (hostKeySet_effect k b _ dev)⟩

/-- Settles O54: an accepted request leaves what its effect leaves; the end of a store leaves its status whether an
answer waits or not. -/
theorem storeAndHostKeys : Obligations.StoreAndHostKeys := by
  refine ⟨?store, ?complete, ?restore, ?key⟩
  case store =>
    intro src v s hacc
    exact (store_gives hacc).framed fun k hk => execStore_same hk (.refl k s)
  case complete =>
    intro ok s hstoring
    exact (storeComplete_gives hstoring).framed fun k hk => execStoreComplete_same hk (.refl k s)
  case restore =>
    intro src v s hacc
    exact (restoreDefaults_gives hacc).framedHidden fun k hk hr => execRestoreDefaults_same hr hk (.refl k s)
  case key =>
    intro src k b s hacc
    exact (hostKeySlot_gives hacc).framed fun k hk => execHostKeySlot_same hk (.refl k s)

end Sys2Proof.Machine
end

section
/-! SUPPORT. The open sessions: replacing one, closing one, and what sending a datagram leaves of the network side. -/

namespace Sys2Proof.Machine

theorem State.id_of_session? {s : State} {id : Nat} {x : Session} (h : s.session? id = some x) : x.id = id :=
  beq_iff_eq.1 (List.find?_some (p := fun y : Session => y.id == id) h)

/-- A session that is replaced is the one that is found. -/
theorem find?_map_replace {l : List Session} {id : Nat} {x y : Session} (h : l.find? (fun z => z.id == id) = some x)
    (hy : y.id = id) : (l.map fun z => if z.id = y.id then y else z).find? (fun z => z.id == id) = some y := by
  subst hy
  induction l with
  | nil => cases h
  | cons a l ih =>
    by_cases ha : a.id = y.id
    · simp [ha]
    · rw [List.find?_cons_of_neg (by simpa using ha)] at h
      simpa [ha] using ih h

theorem State.session?_setSession {s : State} {id : Nat} {x y : Session} (h : s.session? id = some x) (hy : y.id = id) :
    (s.setSession y).session? id = some y := find?_map_replace h hy

theorem State.session?_of_sessions {s t : State} (h : t.net.sessions = s.net.sessions) (id : Nat) :
    t.session? id = s.session? id := congrArg (List.find? fun x : Session => x.id == id) h

theorem State.session?_send (s : State) (d : Sent) (id : Nat) : (s.send d).session? id = s.session? id := rfl

/-- The sessions and the handshakes of the network side. -/
def Net.peers (n : Net) : List Session × List Handshake × Nat := (n.sessions, n.shakes, n.nextId)

theorem State.peers_shakeOut (s : State) (id seq stage : Nat) (b : List Byte) :
    (s.shakeOut id seq stage b).net.peers = s.net.peers := by
  refine each_keep (fun y : State => y.net.peers) _ _ (fun y d => ?_) s
  split
  · rfl
  · rfl

theorem State.session?_endSession (s : State) (id : Nat) : (s.endSession id).session? id = none := by
  unfold State.endSession
  extract_lets mine y z
  refine List.find?_eq_none.2 fun x hx => ?_
  simpa using (List.mem_filter.1 hx).2

end Sys2Proof.Machine
end

section
/-! The statement on sessions. -/

namespace Sys2Proof.Machine

/-- A session that asks for its own end is gone (R447). -/
theorem abortSession_gives {s : State} {id seq : Nat} (hears : s.Hears (.keyway id seq)) :
    Gives (.abortSession (.keyway id seq)) s fun t => t.session? id = none := by
  refine ⟨_, rfl, ?_⟩
  have hserved : (s.reached (.keyway id seq) && s.serves (.keyway id seq)) = true :=
    Bool.and_eq_true_iff.2 ⟨hears.reached, hears.served⟩
  rw [hserved]
  exact State.session?_endSession ..

/-- A handshake that begins takes the next session ID (R448). -/
theorem State.beginShake_shakes (s : State) (seq : Nat) (p : List Byte) :
    (s.beginShake seq p).net.nextId = s.net.nextId % (2 ^ 32 - 1) + 1 ∧
      ∃ x, (s.beginShake seq p).net.shakes = s.net.shakes ++ [x] ∧ x.id = s.net.nextId ∧ x.seq = seq ∧ x.lastLt = s.lt := by
  unfold State.beginShake
  extract_lets id nonce kem head t2 x drawn net y
  have hpeers := State.peers_shakeOut y id seq 2 (head ++ padTo 3309 (Config.mldsaSign 0 keywayCtx t2))
  have hid := congrArg (fun p => p.2.2) hpeers
  have hshakes := congrArg (fun p => p.2.1) hpeers
  exact ⟨hid, x, hshakes, rfl, rfl, rfl⟩

theorem sessionOpenStage1_gives {s : State} {seq : Nat} {p : List Byte} (hreached : s.reached (.keyway 0 seq) = true)
    (hok : stage1Ok p = true) (hmode : fieldAt p 0 1 ≠ 0 ∨ s.rd 0x1304 0 dev ≠ 1) (hfull : s.sessionsFull = false)
    (hfew : s.net.shakes.length < 2) :
    Gives (.sessionOpenStage1 seq p) s fun t => t.net.nextId = s.net.nextId % (2 ^ 32 - 1) + 1 ∧
      ∃ x, t.net.shakes = s.net.shakes ++ [x] ∧ x.id = s.net.nextId ∧ x.seq = seq ∧ x.lastLt = s.lt := by
  have hreached' : s.clearOut.reached (.keyway 0 seq) = true := hreached
  have hmode' : ¬ (fieldAt p 0 1 = 0 ∧ s.clearOut.rd 0x1304 0 dev = 1) := fun ⟨h0, h1⟩ =>
    hmode.elim (absurd h0) (absurd h1)
  have hroom : ¬ (s.clearOut.sessionsFull = true ∨ 2 ≤ s.clearOut.net.shakes.length) := by
    rintro (h | h)
    · exact Bool.false_ne_true (hfull.symm.trans h)
    · exact absurd hfew (Nat.not_lt.2 h)
  have hexec : execSessionOpenStage1 seq p s = .next (s.clearOut.beginShake seq p) := by
    unfold execSessionOpenStage1
    extract_lets y
    rw [if_neg (by simp [y, hreached', hok]), if_neg hmode', if_neg hroom]
  exact ⟨_, hexec, s.clearOut.beginShake_shakes seq p⟩

/-- The session that a handshake opens is found by the handshake's ID. -/
theorem State.openSession_peers (s : State) (x : Handshake) (key : List Byte) :
    ((s.openSession x key).session? x.id).isSome = true ∧ (s.openSession x key).net.shakes = s.net.shakes := by
  unfold State.openSession
  extract_lets t3 keys y net z
  have hpeers := State.peers_shakeOut z x.id x.seq 4 (padTo 32 (kmac256 (sliceB keys 32 32) t3 32 (text "Keyway finished")))
  have hsessions : _ = s.net.sessions ++ [y] := congrArg Prod.fst hpeers
  have hshakes : _ = s.net.shakes := congrArg (fun p => p.2.1) hpeers
  refine ⟨?_, hshakes⟩
  rw [State.session?, show Net.sessions _ = _ from hsessions, List.find?_isSome]
  exact ⟨y, by simp, beq_self_eq_true _⟩

theorem sessionOpenStage3_gives {s : State} {id seq : Nat} {key sig : List Byte} {x : Handshake}
    (hfind : (s.net.shakes.find? fun x => x.id == id && x.seq == seq) = some x)
    (hreached : s.reached (.keyway id seq) = true) (hkey : key.length = 1952) (hsig : sig.length = 3309)
    (hcode : s.stage3Code x key sig = aDone) :
    Gives (.sessionOpenStage3 id seq key sig) s fun t =>
      (t.session? id).isSome = true ∧ t.net.shakes = s.net.shakes.filter fun y => y.id != id := by
  have hid : x.id = id := by
    have hmatch := List.find?_some hfind
    exact beq_iff_eq.1 (Bool.and_eq_true_iff.1 hmatch).1
  have hreached' : s.clearOut.reached (.keyway id seq) = true := hreached
  have hfind' : (s.clearOut.net.shakes.find? fun x => x.id == id && x.seq == seq) = some x := hfind
  have hcode' : s.clearOut.stage3Code x key sig = aDone := hcode
  have hexec : execSessionOpenStage3 id seq key sig s = .next
      ({ s.clearOut with net := { s.clearOut.net with
        shakes := s.clearOut.net.shakes.filter fun y => y.id != id } }.openSession x key) := by
    unfold execSessionOpenStage3
    extract_lets y
    rw [hfind']
    dsimp only
    rw [if_neg (by simp [y, hreached', hkey, hsig]), if_pos hcode']
  subst hid
  exact ⟨_, hexec, State.openSession_peers _ x key⟩

/-- A datagram that is discarded is counted, whether its tag fails or not (R428). -/
theorem datagramDiscard_gives {s : State} {d : List Byte} (hreached : s.reached (.keyway 0 0) = true)
    (hdiscard : s.discards d = true) :
    Gives (.datagramDiscard d) s fun t => t.rd 0x1310 1 dev = (s.rd 0x1310 1 dev + 1) % 2 ^ 32 := by
  refine ⟨_, congrArg Host.Outcome.next (if_pos ⟨hreached, hdiscard⟩), ?_⟩
  extract_lets y
  have hy : y.rd 0x1310 1 dev = (s.rd 0x1310 1 dev + 1) % 2 ^ 32 := State.rd_inc_self ..
  dsimp only
  split
  · exact (State.rd_wr_ne _ _ (by simp)).trans hy
  · exact hy

theorem handshakeTimeout_gives (s : State) (id : Nat) : Gives (.handshakeTimeout id) s fun t =>
    ∀ x ∈ t.net.shakes, x ∈ s.net.shakes ∧ ¬ (x.id = id ∧ tickOf x.lastLt + 2000 < tickOf s.lt) := by
  refine ⟨_, rfl, fun x hx => ?_⟩
  obtain ⟨hmem, hkeep⟩ := List.mem_filter.1 hx
  refine ⟨hmem, fun ⟨hid, hlate⟩ => ?_⟩
  simp only [Bool.or_eq_true, bne_iff_ne, decide_eq_true_eq] at hkeep
  exact hkeep.elim (absurd hid) fun h => absurd hlate (Nat.not_lt.2 h)

theorem sessionIdleTimeout_gives {s : State} {id : Nat} {x : Session} (hx : s.session? id = some x)
    (hidle : x.lastLt + s.rdN 0x1302 0 dev * 1000000000 < s.lt) :
    Gives (.sessionIdleTimeout id) s fun t => t.session? id = none := by
  have hexec : execSessionIdleTimeout id s = .next (s.endSession id) := by
    unfold execSessionIdleTimeout
    rw [hx]
    dsimp only
    rw [if_pos hidle]
  exact ⟨_, hexec, s.session?_endSession id⟩

/-- A kept reply that has expired is dropped, and no other is (R443). -/
theorem keptReplyExpiry_gives {s : State} {id seq : Nat} {x : Session} (hx : s.session? id = some x) :
    Gives (.keptReplyExpiry id seq) s fun t => ∃ y, t.session? id = some y ∧
      ∀ r ∈ y.kept, r ∈ x.kept ∧ ¬ (r.seq = seq ∧ r.sentLt + 2000000000 < s.lt) := by
  have hexec : execKeptReplyExpiry id seq s = .next (s.setSession { x with
      kept := x.kept.filter fun r => r.seq != seq || decide (s.lt ≤ r.sentLt + 2000000000) }) := by
    unfold execKeptReplyExpiry
    rw [hx]
  have hid := State.id_of_session? hx
  refine ⟨_, hexec, _, State.session?_setSession hx hid, fun r hr => ?_⟩
  obtain ⟨hmem, hkeep⟩ := List.mem_filter.1 hr
  refine ⟨hmem, fun ⟨hseq, hlate⟩ => ?_⟩
  simp only [Bool.or_eq_true, bne_iff_ne, decide_eq_true_eq] at hkeep
  exact hkeep.elim (absurd hseq) fun h => absurd hlate (Nat.not_lt.2 h)

/-- Settles O53: the sessions and handshakes after each command are the filtered, replaced or extended lists of before. -/
theorem sessions : Obligations.Sessions := by
  refine ⟨?abort, ?stage1, ?stage3, ?discard, ?timeout, ?idle, ?expiry⟩
  case abort =>
    intro id seq s hears
    exact (abortSession_gives hears).framed fun k hk => execAbortSession_same (x1 := .keyway id seq) hk (.refl k s)
  case stage1 =>
    intro seq p s hreached hok hmode hfull hfew
    exact (sessionOpenStage1_gives hreached hok hmode hfull hfew).framed fun k hk =>
      execSessionOpenStage1_same hk (.refl k s)
  case stage3 =>
    intro id seq key sig x s hfind hreached hkey hsig hcode
    exact (sessionOpenStage3_gives hfind hreached hkey hsig hcode).framed fun k hk =>
      execSessionOpenStage3_same hk (.refl k s)
  case discard =>
    intro d s hreached hdiscard
    exact (datagramDiscard_gives hreached hdiscard).framed fun k hk => execDatagramDiscard_same hk (.refl k s)
  case timeout =>
    intro id s
    exact (handshakeTimeout_gives s id).framed fun k hk => execHandshakeTimeout_same hk (.refl k s)
  case idle =>
    intro id x s hx hidle
    exact (sessionIdleTimeout_gives hx hidle).framed fun k hk => execSessionIdleTimeout_same hk (.refl k s)
  case expiry =>
    intro id seq x s hx
    exact (keptReplyExpiry_gives hx).framed fun k hk => execKeptReplyExpiry_same hk (.refl k s)

end Sys2Proof.Machine
end

section
/-! SUPPORT. A request of a sender that is heard, and what its answer leaves of the sender's session and hands over. -/

namespace Sys2Proof.Machine

theorem State.Hears.session {s : State} {id seq : Nat} (hears : s.Hears (.keyway id seq)) : ∃ x, s.session? id = some x := by
  have hserved : (_ && _ && (match s.session? id with
      | none => false
      | some x => (s.clearOut.keptReply x seq).isNone && !x.stale seq)) = true := hears.served
  cases hx : s.session? id with
  | none => simp [hx] at hserved
  | some x => exact ⟨x, rfl⟩

theorem State.hear_open {s : State} {id seq : Nat} {x : Session} (hx : s.session? id = some x) :
    s.hear (.keyway id seq) = s.setSession { x with lastLt := s.lt } := by simp only [State.hear, hx]

theorem State.hear_none {s : State} {id seq : Nat} (hx : s.session? id = none) : s.hear (.keyway id seq) = s := by
  simp only [State.hear, hx]

theorem State.answer_open {s : State} {id seq op st f l : Nat} {p : List Byte} {x : Session}
    (hx : s.session? id = some x) : s.answer (.keyway id seq) op st f l p =
      (s.setSession { x with
        kept := ((⟨seq, op, st, f, l, p, s.lt⟩ : Reply) :: x.kept).take 64
        highest := max x.highest seq
        lastLt := s.lt }).send (sentReply id seq op st f l p) := by
  simp only [State.answer, hx]

theorem State.answer_none {s : State} {id seq op st f l : Nat} {p : List Byte} (hx : s.session? id = none) :
    s.answer (.keyway id seq) op st f l p = s := by simp only [State.answer, hx]

theorem State.setSubs_open {s : State} {id seq : Nat} {x : Session} {l : List Subscr} (hx : s.session? id = some x) :
    s.setSubs (.keyway id seq) l = s.setSession { x with subs := l } := by simp only [State.setSubs, hx]

theorem State.setSubs_none {s : State} {id seq : Nat} {l : List Subscr} (hx : s.session? id = none) :
    s.setSubs (.keyway id seq) l = s := by simp only [State.setSubs, hx]

theorem State.atRequest_open {s : State} {id seq : Nat} {x : Session} (hx : s.session? id = some x) :
    s.atRequest (.keyway id seq) = s.clearOut.setSession { x with lastLt := s.lt } :=
  State.hear_open (s := s.clearOut) hx

/-- The session of a request that is heard begins its idle time again (R447). -/
theorem State.session?_atRequest {s : State} {id seq : Nat} {x : Session} (hx : s.session? id = some x) :
    (s.atRequest (.keyway id seq)).session? id = some { x with lastLt := s.lt } := by
  have hid := State.id_of_session? hx
  rw [State.atRequest_open hx]
  exact State.session?_setSession (s := s.clearOut) hx hid

theorem State.out_atRequest (s : State) (src : Src) : (s.atRequest src).net.out = [] := by
  have hhear : (s.clearOut.hear src).net.out = s.clearOut.net.out := by
    unfold State.hear
    split
    · split
      · rfl
      · rfl
    · rfl
    · rfl
  exact hhear

theorem State.storing_atRequest (s : State) (src : Src) : (s.atRequest src).net.storing = s.net.storing :=
  State.netCore_storing (s.netCore_atRequest src)

/-- A request that is carried out and starts no store is answered from the state it leaves. -/
theorem State.serveWith_eq {s : State} {src : Src} {op f l : Nat} {k : State → Outcome'} {t : State} {p : List Byte}
    (hears : s.Hears src) (h : k (s.atRequest src) = (t, .ok p)) (hstoring : t.net.storing = s.net.storing) :
    s.serveWith src op f l k = t.answer src op aDone f l p := by
  have hstore : (t.net.storing && !(s.atRequest src).net.storing) = false := by
    rw [hstoring, State.storing_atRequest, Bool.and_not_self]
  have hserve : s.serveWith src op f l k = (s.atRequest src).execute src op f l k :=
    (if_pos hears.reached).trans (if_pos hears.served)
  rw [hserve, State.execute, h]
  dsimp only
  rw [hstore]
  rfl

theorem State.serve_eq {s : State} {src : Src} {op f l : Nat} {k : State → Ans} {t : State} {p : List Byte}
    (hears : s.Hears src) (h : k (s.atRequest src) = .ok (t, p)) (hstoring : t.net.storing = s.net.storing) :
    s.serve src op f l k = t.answer src op aDone f l p :=
  State.serveWith_eq hears (congrArg (Ans.outcome · (s.atRequest src)) h) hstoring

/-- A request that is refused leaves the state in which it was heard, and its code is the answer (R429). -/
theorem State.serve_error {s : State} {src : Src} {op f l : Nat} {k : State → Ans} {r : Refuse}
    (hears : s.Hears src) (h : k (s.atRequest src) = .error r) :
    s.serve src op f l k =
      (s.atRequest src).answer src op r.code f ((r.inst.map fun e => rangeWord e e).getD l) [] := by
  have hserve : s.serve src op f l k = (s.atRequest src).execute src op f l fun s => (k s).outcome s :=
    (if_pos hears.reached).trans (if_pos hears.served)
  rw [hserve, State.execute, h]
  rfl

theorem Sent.plain_sendRaw (s : State) (d : Sent) :
    (s.sendRaw d).net.out.map Sent.plain = s.net.out.map Sent.plain ++ [d.plain] := List.map_append

/-- Sealing a datagram leaves its header and its payload (R449). -/
theorem Session.plain_seal (x : Session) (d : Sent) : (x.seal d).plain = d.plain := by
  unfold Session.seal
  extract_lets e
  split
  · rfl
  · rfl

theorem Sent.plain_send (s : State) (d : Sent) :
    (s.send d).net.out.map Sent.plain = s.net.out.map Sent.plain ++ [d.plain] := by
  rw [State.send, Sent.plain_sendRaw]
  split
  · rw [Session.plain_seal]
  · rfl

/-- Datagrams sent one after another are handed over in that order. -/
theorem Sent.plain_sendAll (l : List Sent) (s : State) :
    (each l (fun s d => s.send d) s).net.out.map Sent.plain = s.net.out.map Sent.plain ++ l.map Sent.plain := by
  induction l generalizing s with
  | nil => exact (List.append_nil _).symm
  | cons d l ih => rw [each_cons, ih, Sent.plain_send, List.map_cons, List.append_assoc, List.singleton_append]

/-- The answer of a session's request is one datagram, its reply. -/
theorem State.sends_answer {t : State} {id seq op st f l : Nat} {p : List Byte} {x : Session}
    (hx : t.session? id = some x) (hout : t.net.out = []) :
    (t.answer (.keyway id seq) op st f l p).Sends (sentReply id seq op st f l p) := by
  rw [State.Sends, State.answer_open hx, Sent.plain_send]
  change t.net.out.map Sent.plain ++ _ = _
  rw [hout]
  rfl

/-- An answer is kept with the session; nothing else of the session changes but its counts. -/
theorem State.session?_answer {t : State} {id seq op st f l : Nat} {p : List Byte} {x : Session}
    (hx : t.session? id = some x) : (t.answer (.keyway id seq) op st f l p).session? id =
      some { x with
        kept := ((⟨seq, op, st, f, l, p, t.lt⟩ : Reply) :: x.kept).take 64
        highest := max x.highest seq
        lastLt := t.lt } := by
  have hid := State.id_of_session? hx
  rw [State.answer_open hx, State.session?_send]
  exact State.session?_setSession hx hid

theorem State.local_answer {t : State} {src : Src} {op st f l : Nat} {p : List Byte} (h : src = .user ∨ src = .service) :
    (t.answer src op st f l p).net.local' = some (st, p) := by
  obtain rfl | rfl := h
  · rfl
  · rfl

end Sys2Proof.Machine
end

section
/-! The statement on subscriptions. -/

namespace Sys2Proof.Machine

theorem State.subsOf_of_session {s : State} {id seq : Nat} {x : Session} (hx : s.session? id = some x) :
    s.subsOf (.keyway id seq) = x.subs := by simp only [State.subsOf, hx, Option.map_some, Option.getD_some]

theorem State.subsOf_atRequest {s : State} {src : Src} : (s.atRequest src).subsOf src = s.subsOf src := by
  cases src with
  | keyway id seq =>
    cases hx : s.session? id with
    | none =>
      have hheard : s.atRequest (.keyway id seq) = s.clearOut := State.hear_none (s := s.clearOut) hx
      rw [hheard]
      rfl
    | some x => rw [State.subsOf_of_session hx, State.subsOf_of_session (State.session?_atRequest hx)]
  | user => rfl
  | service => rfl

theorem State.subsOf_answer (t : State) (src : Src) (op st f l : Nat) (p : List Byte) :
    (t.answer src op st f l p).subsOf src = t.subsOf src := by
  cases src with
  | keyway id seq =>
    cases hx : t.session? id with
    | none => rw [State.answer_none hx]
    | some x => rw [State.subsOf_of_session hx, State.subsOf_of_session (State.session?_answer hx)]
  | user => rfl
  | service => rfl

/-- The subscriptions set are those read, of a sender that is heard. -/
theorem State.subsOf_putSubs {s : State} {src : Src} {h : Nat} {l : List Subscr} (hsrc : src ≠ .service)
    (hopen : ∀ id seq, src = .keyway id seq → ∃ x, s.session? id = some x) :
    (s.putSubs src h l).subsOf src = l := by
  cases src with
  | keyway id seq =>
    obtain ⟨x, hx⟩ := hopen id seq rfl
    have hid := State.id_of_session? hx
    have hput : (s.putSubs (.keyway id seq) h l).session? id = some { x with subs := l } :=
      (congrArg (State.session? · id) (State.setSubs_open hx)).trans (State.session?_setSession hx hid)
    exact State.subsOf_of_session hput
  | user => rfl
  | service => exact absurd rfl hsrc

theorem State.storing_putSubs (s : State) (src : Src) (h : Nat) (l : List Subscr) :
    (s.putSubs src h l).net.storing = s.net.storing := by
  have hset : (s.setSubs src l).net.storing = s.net.storing := by
    unfold State.setSubs
    split
    · split
      · rfl
      · rfl
    · rfl
    · rfl
  exact hset

/-- A SUBSCRIBE that is carried out leaves the sender the subscriptions it puts. -/
theorem subscribe_of_put {s : State} {src : Src} {period handle count : Nat} {l : List SubEntry} {subs : List Subscr}
    (hsrc : src ≠ .service) (hears : s.Hears src)
    (hput : (s.atRequest src).subscribeTo src period handle count l = done ((s.atRequest src).putSubs src handle subs)) :
    Gives (.subscribe src period handle count l) s fun t => t.subsOf src = subs := by
  have hopen (id seq : Nat) (h : src = .keyway id seq) : ∃ x, (s.atRequest src).session? id = some x := by
    subst h
    obtain ⟨x, hx⟩ := hears.session
    exact ⟨_, State.session?_atRequest hx⟩
  have hexec : execSubscribe src period handle count l s =
      .next (s.serve src opSubscribe 0 0 fun s => s.subscribeTo src period handle count l) := by
    cases src with
    | service => exact absurd rfl hsrc
    | keyway id seq => rfl
    | user => rfl
  have hstoring := ((s.atRequest src).storing_putSubs src handle subs).trans (s.storing_atRequest src)
  rw [State.serve_eq hears hput hstoring] at hexec
  exact ⟨_, hexec, (State.subsOf_answer ..).trans (State.subsOf_putSubs hsrc hopen)⟩

/-! ## The checks of a SUBSCRIBE do not depend on the request's own traces -/

theorem State.entryChecks_of_net {s t : State} (h : SameButNet s t) (l : List SubEntry) :
    t.entryChecks l = s.entryChecks l := (congrArg (State.entryChecks · l) h).trans rfl

theorem State.loadOfSubs_of_net {s t : State} (h : SameButNet s t) (l : List Subscr) :
    t.loadOfSubs l = s.loadOfSubs l := (congrArg (State.loadOfSubs · l) h).trans rfl

theorem State.newSub_atRequest (s : State) (src : Src) (period handle : Nat) (l : List SubEntry) :
    (s.atRequest src).newSub period handle l = s.newSub period handle l := by
  have hcore := s.netCore_atRequest src
  have hrec : (s.atRequest src).net.gotRec = s.net.gotRec :=
    (congrArg Net.gotRec hcore : (s.atRequest src).netCore.gotRec = s.netCore.gotRec)
  have hbat : (s.atRequest src).net.gotBat = s.net.gotBat :=
    (congrArg Net.gotBat hcore : (s.atRequest src).netCore.gotBat = s.netCore.gotBat)
  rw [State.newSub, hrec, hbat]
  rfl

/-- With a sender's subscriptions replaced, the device's subscriptions are the same before and after the request is
heard. -/
theorem State.allSubs_atRequest (s : State) (src : Src) (l : List Subscr) :
    ((s.atRequest src).setSubs src l).allSubs = (s.setSubs src l).allSubs := by
  cases src with
  | keyway id seq =>
    cases hx : s.session? id with
    | none =>
      have hheard : s.atRequest (.keyway id seq) = s.clearOut := State.hear_none (s := s.clearOut) hx
      rw [hheard, State.setSubs_none hx, State.setSubs_none (s := s.clearOut) hx]
      rfl
    | some x =>
      have hid := State.id_of_session? hx
      rw [State.setSubs_open (State.session?_atRequest hx), State.atRequest_open hx, State.setSubs_open hx]
      refine congrArg (· ++ s.net.userSubs) ?_
      simp only [State.setSession, State.clearOut, List.flatMap_map]
      refine List.flatMap_congr fun y _ => ?_
      by_cases hy : y.id = x.id
      · simp [hy]
      · simp [hy]
  | user => rfl
  | service => rfl

theorem State.budgetOk_atRequest (s : State) (src : Src) (x : Subscr) :
    (s.atRequest src).budgetOk src x = s.budgetOk src x := by
  have hset (t : State) (l : List Subscr) : SameButNet t (t.setSubs src l) := by
    unfold State.setSubs
    split
    · split
      · rfl
      · rfl
    · rfl
    · rfl
  have hload (l m : List Subscr) : ((s.atRequest src).setSubs src l).loadOfSubs m = (s.setSubs src l).loadOfSubs m := by
    rw [State.loadOfSubs_of_net (hset ..), State.loadOfSubs_of_net (s.atRequest_sameButNet src),
      State.loadOfSubs_of_net (hset ..)]
  unfold State.budgetOk
  simp only [State.subsOf_atRequest, State.allSubs_atRequest, hload]

/-- A SUBSCRIBE of entries that can be read, within the budget, replaces the subscription of its handle (R438). -/
theorem subscribe_gives {s : State} {src : Src} {period handle : Nat} {l : List SubEntry} (hsrc : src ≠ .service)
    (hears : s.Hears src) (hfrom : 1 ≤ period) (hto : period ≤ 10000) (hhandle : handle ≤ 15) (hsome : 1 ≤ l.length)
    (hfew : l.length ≤ 64) (hstream : (s.newSub period handle l).stream = false)
    (hchecks : firstBad (List.range l.length) (s.entryChecks l) = none)
    (hbudget : s.budgetOk src (s.newSub period handle l) = true) :
    Gives (.subscribe src period handle l.length l) s fun t =>
      t.subsOf src = (s.subsOf src).filter (fun y => y.handle != handle) ++ [s.newSub period handle l] := by
  refine subscribe_of_put hsrc hears ?_
  have hrange : (decide (10000 < period) || decide (15 < handle)) = false := by
    simp only [Bool.or_eq_false_iff, decide_eq_false_iff_not]
    omega
  unfold State.subscribeTo
  rw [State.newSub_atRequest, State.subsOf_atRequest, State.entryChecks_of_net (s.atRequest_sameButNet src)]
  dsimp only
  rw [State.budgetOk_atRequest, hstream, hchecks, hbudget, hrange, if_neg (by omega), if_neg (by omega)]
  rfl

theorem unsubscribe_gives {s : State} {src : Src} {handle count : Nat} {l : List SubEntry} (hsrc : src ≠ .service)
    (hears : s.Hears src) (hhandle : handle ≤ 15) (hsome : 1 ≤ count) (hfew : count ≤ 64) (hlen : l.length = count) :
    Gives (.subscribe src 0 handle count l) s fun t =>
      t.subsOf src = (s.subsOf src).filter fun y => y.handle != handle := by
  refine subscribe_of_put hsrc hears ?_
  have hrange : (decide (10000 < 0) || decide (15 < handle)) = false := by
    simp only [Bool.or_eq_false_iff, decide_eq_false_iff_not]
    omega
  unfold State.subscribeTo
  rw [State.subsOf_atRequest, hrange]
  dsimp only
  rw [if_neg (by omega)]
  rfl

/-! ## Publications -/

theorem partsOf_plain (rsp : Bool) (op id seq f l : Nat) (b : List Byte) :
    (partsOf rsp op id seq f l b).map Sent.plain = partsOf rsp op id seq f l b := List.map_map

/-- A publication to an open session counts the notification and hands over its parts (R439). -/
theorem State.notifyOut_session {s : State} {id number handle : Nat} {b : List Byte} {x : Session}
    (hx : s.session? id = some x) :
    ((s.notifyOut id number handle b).session? id).map (·.notifySeq) = some (x.notifySeq + 1) ∧
      (s.notifyOut id number handle b).net.pubs = s.net.pubs ∧
      (s.notifyOut id number handle b).net.out.map Sent.plain = s.net.out.map Sent.plain ++
        partsOf false opNotify id (x.notifySeq + 1) number (handleWord handle) b := by
  have hid := State.id_of_session? hx
  have hnext : s.nextNotify id = (x.notifySeq + 1, s.setSession { x with notifySeq := x.notifySeq + 1 }) := by
    unfold State.nextNotify
    rw [hx]
  unfold State.notifyOut
  rw [hnext]
  dsimp only
  refine ⟨?_, ?_, ?_⟩
  · rw [each_keep (State.session? · id) _ (fun s d => s.send d) (fun _ _ => rfl), State.session?_setSession hx (by exact hid)]
    rfl
  · exact each_keep (fun y : State => y.net.pubs) (partsOf ..) (fun s d => s.send d) (fun _ _ => rfl) _
  · rw [Sent.plain_sendAll, partsOf_plain]
    rfl

theorem notify_gives {s : State} {p : Pub} {x : Session} (hpubs : s.net.pubs = [p])
    (hx : s.session? p.session = some x) :
    Gives .notify s fun t => t.net.pubs = [] ∧ (t.session? p.session).map (·.notifySeq) = some (x.notifySeq + 1) ∧
      t.net.out.map Sent.plain =
        partsOf false opNotify p.session (x.notifySeq + 1) p.number (handleWord p.handle) p.bytes := by
  have hexec : execNotify s = .next (({ s.clearOut with net := { s.clearOut.net with pubs := [] } } : State).notifyOut
      p.session p.number p.handle p.bytes) := by
    unfold execNotify
    rw [hpubs]
    rfl
  obtain ⟨hcount, hnone, hout⟩ := State.notifyOut_session
    (s := { s.clearOut with net := { s.clearOut.net with pubs := [] } }) (number := p.number) (handle := p.handle)
    (b := p.bytes) hx
  exact ⟨_, hexec, hnone, hcount, hout⟩

/-- A record stream that has octets to send and room to send them publishes and counts the lost records (R440). -/
theorem recordStreamPublish_gives {s : State} {id handle : Nat} {x : Session} {y z : Subscr} {b : List Byte} {lost : Nat}
    (hx : s.session? id = some x) (hy : (x.subs.find? fun y => y.handle == handle && y.stream) = some y)
    (hid : id ≠ 0) (hreached : s.reached (.keyway id 0) = true) (hroom : s.clearOut.streamRoom b.length = true)
    (hnext : s.clearOut.streamNext y = (z, b, lost)) (hb : b ≠ []) :
    Gives (.recordStreamPublish id handle) s fun t =>
      (t.session? id).map (·.notifySeq) = some (x.notifySeq + 1) ∧
        t.rd 0x1310 8 dev = (s.rd 0x1310 8 dev + lost) % 2 ^ 32 := by
  have hxid := State.id_of_session? hx
  have hcleared : s.clearOut.session? id = some x := hx
  have howner : streamOwner id = .keyway id 0 := if_neg hid
  have hreached' : s.clearOut.reached (.keyway id 0) = true := hreached
  let u := s.clearOut.wr 0x1310 8 dev ((s.clearOut.rd 0x1310 8 dev + lost) % 2 ^ 32)
  have hu : u.session? id = some x := hx
  let subs := x.subs.map fun y => if y.handle = handle then z else y
  let v := u.setSession { x with subs := subs }
  have hv : u.setSubs (.keyway id 0) subs = v := State.setSubs_open hu
  have hexec : execRecordStreamPublish id handle s =
      .next ((v.countStream b.length).notifyOut id (v.rdN 0x1101 3 dev) handle b) := by
    unfold execRecordStreamPublish
    extract_lets c src
    rw [show src = _ from howner, State.subsOf_of_session hcleared, hy]
    dsimp only
    rw [hnext]
    dsimp only
    rw [if_pos ⟨hreached', hroom⟩, if_neg hb, State.subsOf_of_session (seq := 0) hu, hv]
  have hv' : (v.countStream b.length).session? id = some { x with subs := subs } := State.session?_setSession hu hxid
  refine ⟨_, hexec, (State.notifyOut_session hv').1, ?_⟩
  have hlost : u.rd 0x1310 8 dev = (s.rd 0x1310 8 dev + lost) % 2 ^ 32 := State.rd_wr_self ..
  have hcount : (v.countStream b.length).rd 0x1310 8 dev = u.rd 0x1310 8 dev := rfl
  rw [← hlost, ← hcount]
  exact State.rd_of_same (State.notifyOut_same (by decide) (.refl _ _)) 8 dev

/-- Settles O52: the answer of a request keeps the subscriptions put, and a publication is the parts of its message. -/
theorem subscriptions : Obligations.Subscriptions := by
  refine ⟨?subscribe, ?unsubscribe, ?notify, ?stream⟩
  case subscribe =>
    intro src period handle l s hsrc hears hfrom hto hhandle hsome hfew hstream hchecks hbudget
    exact (subscribe_gives hsrc hears hfrom hto hhandle hsome hfew hstream hchecks hbudget).framed fun k hk =>
      execSubscribe_same hk (.refl k s)
  case unsubscribe =>
    intro src handle count l s hsrc hears hhandle hsome hfew hlen
    exact (unsubscribe_gives hsrc hears hhandle hsome hfew hlen).framed fun k hk => execSubscribe_same hk (.refl k s)
  case notify =>
    intro p x s hpubs hx
    exact (notify_gives hpubs hx).framed fun k hk => execNotify_same hk (.refl k s)
  case stream =>
    intro id handle x y z b lost s hx hy hid hreached hroom hnext hb
    exact (recordStreamPublish_gives hx hy hid hreached hroom hnext hb).framed fun k hk =>
      execRecordStreamPublish_same hk (.refl k s)

end Sys2Proof.Machine
end

section
/-! SUPPORT. What the ring, the counters and the modes of a CAN port change of the port. -/

namespace Sys2Proof.Machine

/-- What a CAN port holds beside its ring: the mode in force, the mode that waits, the FIFO, the ended recovery. -/
def Can.core (x : Can) : Nat × Option Nat × List CanTx × Bool := (x.mode, x.pendingMode, x.fifo, x.ended)

theorem Can.fifo_of_core {x y : Can} (h : x.core = y.core) : x.fifo = y.fifo := congrArg (fun c => c.2.2.1) h

theorem Can.mode_of_core {x y : Can} (h : x.core = y.core) : x.mode = y.mode := congrArg Prod.fst h

theorem Can.pendingMode_of_core {x y : Can} (h : x.core = y.core) : x.pendingMode = y.pendingMode :=
  congrArg (fun c => c.2.1) h

section
variable (s : State) (p : Nat)

/-- An entry of the ring leaves the port beside it. -/
theorem State.ringPut_core (e : RingEntry) : ((s.ringPut p e).port p).core = (s.port p).core := by
  by_cases hfull : (s.rdN 0x1418 (p + 1) dev + 65536 - s.rdN 0x1419 (p + 1) dev) % 65536 = 4096
  · rw [State.ringPut_of_full hfull, State.port_inc, State.port_setPort]
    rfl
  · rw [State.ringPut_of_room hfull, State.port_inc, State.port_setPort]
    rfl

theorem State.errorEvent_core (st code : Nat) : ((s.errorEvent p st code).port p).core = (s.port p).core :=
  s.ringPut_core p _

/-- Frames removed leave the FIFO without them and the rest of the port. -/
theorem State.removeTx_core (f : CanTx → Bool) (o : CanTx → Nat) :
    ((s.removeTx p f o).port p).core =
      ({ s.port p with fifo := (s.port p).fifo.filter fun t => !f t } : Can).core := by
  unfold State.removeTx
  extract_lets x y
  rw [each_keep (fun z : State => (z.port p).core) _ (fun s t => s.removed p t (o t)) (fun z t => z.ringPut_core p _),
    State.port_setPort]

theorem State.applyMode_mode (v : Nat) : ((s.applyMode p v).port p).mode = v := by
  unfold State.applyMode
  extract_lets x y z w v'
  have hy : (y.port p).mode = v := by rw [State.port_setPort]
  have hz : (z.port p).mode = v := by
    unfold z
    split
    · rw [Can.mode_of_core (y.removeTx_core p _ _)]
      exact hy
    · exact hy
  have hv : (v'.port p).mode = v := by rw [State.port_setPort, hz]
  split
  · rw [Can.mode_of_core (State.errorEvent_core ..)]
    simpa only [State.port_wr] using hv
  · exact hz

end

theorem State.port_of_same {s t : State} (h : State.Same .can s t) (p : Nat) : t.port p = s.port p :=
  congrArg (fun c => look ({} : Can) c p) (show t.can = s.can from h)

theorem State.rd_inc_ne {s : State} {i j e w i' j' e' : Nat} (h : (i', j', e') ≠ (i, j, e)) :
    (s.inc i j e w).rd i' j' e' = s.rd i' j' e' := State.rd_wr_ne _ _ h

section
variable {s : State} {p : Nat}

theorem State.frameEnd_of_none (h : (s.port p).pendingMode = none) : s.frameEnd p = s := by
  simp only [State.frameEnd, h]

/-- A failed attempt of the head leaves the mode that waits. -/
theorem State.headFails_pendingMode (lost : Bool) : ((s.headFails p lost).port p).pendingMode = (s.port p).pendingMode := by
  unfold State.headFails
  split
  · rfl
  · split
    · rw [State.removed, Can.pendingMode_of_core (State.ringPut_core ..), State.port_setPort]
    · rfl

theorem State.rdN_wr_self (i j e n : Nat) : (s.wr i j e n).rdN i j e = n := by rw [State.rdN, State.rd_wr_self, Int.toNat_natCast]

/-- Counters that do not pass 255 stand in their objects, with the error state that they mean (R467). -/
theorem State.setCounters_effect {tec rec' : Nat} (code : Nat) (htec : tec ≤ 255) :
    (s.setCounters p tec rec' code).rd 0x1414 (p + 1) dev = tec ∧
      (s.setCounters p tec rec' code).rd 0x1415 (p + 1) dev = rec' ∧
      (s.setCounters p tec rec' code).canState p = (if 127 < tec ∨ 127 < rec' then 1 else 0) ∧
      ((s.setCounters p tec rec' code).port p).core = (s.port p).core := by
  unfold State.setCounters
  extract_lets t0 r0 y st crossed
  have hrec : y.rd 0x1415 (p + 1) dev = rec' := State.rd_wr_self ..
  have htec' : y.rd 0x1414 (p + 1) dev = tec := (State.rd_wr_ne _ _ (by simp)).trans (State.rd_wr_self ..)
  have hcore : (y.port p).core = (s.port p).core := rfl
  rw [if_neg (by omega)]
  split
  next =>
    let z := y.wr 0x1413 (p + 1) dev st
    have hevent {i : Nat} (hi : Part.reg i ∉ [.reg 0x1418, .reg 0x141B, .can]) (j e : Nat) :
        (z.errorEvent p st code).rd i j e = z.rd i j e :=
      State.rd_of_same (State.errorEvent_same hi (.refl _ z)) j e
    refine ⟨?_, ?_, ?_, (z.errorEvent_core p st code).trans hcore⟩
    · exact (hevent (by decide) ..).trans ((State.rd_wr_ne _ _ (by simp)).trans htec')
    · exact (hevent (by decide) ..).trans ((State.rd_wr_ne _ _ (by simp)).trans hrec)
    · exact (congrArg Int.toNat (hevent (by decide) (p + 1) dev)).trans (State.rdN_wr_self ..)
  next hsame =>
    exact ⟨htec', hrec, (not_not.1 fun h => hsame (.inl h)).symm, hcore⟩

/-- Counters below 96 that stay there in the error-active state give no entry. -/
theorem State.setCounters_quiet {rec' : Nat} (code : Nat) (hstate : s.canState p = 0) (htec : s.rdN 0x1414 (p + 1) dev < 96)
    (hold : s.rdN 0x1415 (p + 1) dev < 96) (hrec : rec' < 96) :
    s.setCounters p (s.rdN 0x1414 (p + 1) dev) rec' code =
      (s.wr 0x1414 (p + 1) dev (s.rdN 0x1414 (p + 1) dev)).wr 0x1415 (p + 1) dev rec' := by
  unfold State.setCounters
  extract_lets t0 r0 y st crossed
  have hst : st = 0 := if_neg (by omega)
  have hcrossed : crossed = false := by
    simp [crossed, t0, r0, Nat.not_le.2 hold, Nat.not_le.2 hrec]
  have hstate' : y.canState p = 0 := by
    rw [State.canState, State.rdN, State.rd_wr_ne _ _ (by simp), State.rd_wr_ne _ _ (by simp)]
    exact hstate
  rw [if_neg (by omega), if_neg (by simp [hst, hcrossed, hstate'])]

/-- Bus off counts, empties the FIFO, and recovers at once where recovery is automatic (R462, R468). -/
theorem State.busOff_effect (code : Nat) :
    (s.busOff p code).rd 0x1416 (p + 1) dev = (s.rd 0x1416 (p + 1) dev + 1) % 2 ^ 32 ∧
      ((s.busOff p code).port p).fifo = [] ∧
      ((s.busOff p code).port p).pendingMode = (s.port p).pendingMode ∧
      (s.busOff p code).canState p = if s.rd 0x140B (p + 1) dev = 0 then 3 else 2 := by
  unfold State.busOff
  extract_lets y z
  let x := (s.wr 0x1413 (p + 1) dev 2).inc 0x1416 (p + 1) dev
  have hz {i : Nat} (hi : Part.reg i ∉ [.reg 0x1418, .reg 0x141B, .can]) (hi' : i ≠ 0x1417) (j e : Nat) :
      z.rd i j e = x.rd i j e :=
    (State.rd_wr_ne _ _ (by simp [hi'])).trans
      (State.rd_of_same (State.removeTx_same hi (State.errorEvent_same hi (.refl _ x))) j e)
  have hy : (y.port p).core = (s.port p).core := x.errorEvent_core p 2 code
  have hcore := y.removeTx_core p (fun _ => true) fun _ => 8
  have hfifo : (z.port p).fifo = [] := by
    rw [State.port_wr, Can.fifo_of_core hcore]
    exact List.filter_false _
  have hpending : (z.port p).pendingMode = (s.port p).pendingMode := by
    rw [State.port_wr, Can.pendingMode_of_core hcore]
    exact Can.pendingMode_of_core (x := y.port p) hy
  have hcount : z.rd 0x1416 (p + 1) dev = (s.rd 0x1416 (p + 1) dev + 1) % 2 ^ 32 := by
    rw [hz (by decide) (by decide), State.rd_inc_self, State.rd_wr_ne _ _ (by simp)]
  have hauto : z.rd 0x140B (p + 1) dev = s.rd 0x140B (p + 1) dev := by
    rw [hz (by decide) (by decide), State.rd_inc_ne (by simp), State.rd_wr_ne _ _ (by simp)]
  have hstate : z.rd 0x1413 (p + 1) dev = 2 := by
    rw [hz (by decide) (by decide), State.rd_inc_ne (by simp), State.rd_wr_self]
  clear_value z
  rw [hauto]
  split
  · exact ⟨(State.rd_wr_ne _ _ (by simp)).trans hcount, hfifo, hpending, State.rdN_wr_self _ _ _ 3⟩
  · exact ⟨hcount, hfifo, hpending, congrArg Int.toNat hstate⟩

/-- Frames picked of which none has started leave the FIFO at once (R460, R461). -/
theorem State.cancelTx_fifo (f : CanTx → Bool) (how : Nat) :
    ((s.cancelTx p f how false).port p).fifo = (s.port p).fifo.filter fun t => !f t := by
  unfold State.cancelTx
  extract_lets x marked y
  have hmarked : marked = (s.port p).fifo := by simp [marked, x, State.hasStarted]
  have hy : (y.port p).fifo = (s.port p).fifo := by rw [State.port_setPort, hmarked]
  rw [Can.fifo_of_core (y.removeTx_core p _ _)]
  simp [hy, State.hasStarted]

end

end Sys2Proof.Machine
end

section
/-! The statements on the CAN FD ports: transmission, and the bus. -/

namespace Sys2Proof.Machine

/-! ## Transmission (R455 to R461) -/

theorem canModeSet_effect (p v : Nat) (busy : Bool) (s : State) (e : Nat) :
    (canModeSet p v busy s e).rd 0x1400 (p + 1) dev = v ∧
      (if busy then ((canModeSet p v busy s e).port p).pendingMode = some v
        else ((canModeSet p v busy s e).port p).mode = v) := by
  unfold canModeSet
  extract_lets y
  have hy : y.rd 0x1400 (p + 1) dev = v := State.rd_wr_self ..
  cases busy with
  | true => exact ⟨hy, congrArg Can.pendingMode (State.port_setPort ..)⟩
  | false =>
    exact ⟨(State.rd_of_same (State.applyMode_same (by decide) (.refl _ y)) (p + 1) dev).trans hy, y.applyMode_mode p v⟩

theorem canMode_gives {s : State} {src : Src} {p v : Nat} {busy : Bool}
    (hacc : s.Accepts src 0x1400 (p + 1) [dev] v (fun _ _ => aDone)) :
    Gives (.canMode src p v busy) s fun t => t.rd 0x1400 (p + 1) dev = v ∧
      (if busy then (t.port p).pendingMode = some v else (t.port p).mode = v) := by
  have hnet := (State.writeObj_ok (eff := canModeSet p v busy) hacc).frame
  obtain ⟨hreg, hport⟩ := canModeSet_effect p v busy ((s.atRequest src).touch dev) dev
  refine ⟨_, rfl, (State.rd_of_same (hnet (.reg 0x1400) (by decide)) (p + 1) dev).trans hreg, ?_⟩
  rw [State.port_of_same (hnet .can (by decide))]
  exact hport

theorem submitSet_fifo {p : Nat} {b : List Byte} {rs : List TxRecord} (hparse : parseTx 118 b = some rs) (s : State)
    (e : Nat) :
    ((submitSet p b s e).port p).fifo = (s.port p).fifo ++ rs.map fun r => r.frame s.lt := by
  unfold submitSet
  rw [State.port_setPort, hparse]
  rfl

theorem transmitSubmit_gives {s : State} {src : Src} {p : Nat} {b : List Byte} {rs : List TxRecord}
    (hparse : parseTx 118 b = some rs) (hacc : s.AcceptsBlob src 0x1410 (p + 1) [dev] b (submitCheck p b)) :
    Gives (.transmitSubmit src p b) s fun t =>
      (t.port p).fifo = (s.port p).fifo ++ rs.map fun r => r.frame s.lt := by
  have hnet := (State.writeBlob_ok (eff := submitSet p b) hacc).frame
  have hclock : State.Same .clock s ((s.atRequest src).touch dev) := s.touch_atRequest_same src dev (by decide)
  have hcan : State.Same .can s ((s.atRequest src).touch dev) := s.touch_atRequest_same src dev (by decide)
  have hset := submitSet_fifo (p := p) hparse ((s.atRequest src).touch dev) dev
  rw [State.port_of_same hcan, show State.lt _ = s.lt from congrArg Clock.lt hclock] at hset
  exact ⟨_, rfl, (congrArg Can.fifo (State.port_of_same (hnet .can (by decide)) p)).trans hset⟩

theorem cancel_gives {s : State} {src : Src} {p h : Nat} {started : Bool}
    (hacc : s.Accepts src 0x1411 (p + 1) [dev] h (cancelCheck p h)) :
    Gives (.cancel src p h started) s fun t => SameButNet (cancelSet p h started (s.atRequest src) dev) t :=
  ⟨_, rfl, State.writeObj_ok (eff := cancelSet p h started) hacc⟩

/-- A cancel of every frame, of which none has started, leaves the FIFO empty (R460). -/
theorem cancelAll_gives {s : State} {src : Src} {p : Nat} {started : Bool}
    (hacc : s.Accepts src 0x1411 (p + 1) [dev] (0x100 : Nat) (cancelCheck p 0x100)) :
    Gives (.cancelAll src p started) s fun t => SameButNet (cancelSet p 0x100 started (s.atRequest src) dev) t ∧
      (started = false → (t.port p).fifo = []) := by
  have hnet := State.writeObj_ok (eff := cancelSet p 0x100 started) hacc
  refine ⟨_, rfl, hnet, fun hidle => ?_⟩
  subst hidle
  refine (congrArg Can.fifo (State.port_of_same (hnet.frame .can (by decide)) p)).trans ?_
  exact (State.cancelTx_fifo (s := (s.atRequest src).touch dev) (picks 0x100) 1).trans (List.filter_false _)

theorem deadlineExpiry_gives {s : State} {p h : Nat} {started : Bool} (hp : p < 2)
    (hdue : ((s.port p).fifo.any fun t => t.handle == h && due t.deadline s.lt) = true) :
    Gives (.deadlineExpiry p h started) s fun t =>
      t = s.cancelTx p (fun t => t.handle == h && due t.deadline s.lt) 2 started ∧
        (started = false → (t.port p).fifo = (s.port p).fifo.filter fun t => !(t.handle == h && due t.deadline s.lt)) := by
  refine .of_guard rfl ⟨hp, hdue⟩ ⟨rfl, fun hidle => ?_⟩
  subst hidle
  exact State.cancelTx_fifo _ 2

theorem arbitrationLost_gives {s : State} {p : Nat} (hon : s.canOn p [1] = true) (hstate : s.canState p < 2)
    (hfifo : (s.port p).fifo ≠ []) :
    Gives (.arbitrationLost p) s fun t => t.rd 0x141E (p + 1) dev = (s.rd 0x141E (p + 1) dev + 1) % 2 ^ 32 := by
  refine .of_guard rfl ⟨hon, hstate, hfifo⟩ ?_
  exact (State.rd_of_same (State.headFails_same (by decide) (.refl _ _)) (p + 1) dev).trans (State.rd_inc_self ..)

/-- A frame of another node, with no mode that waits, is stored and counts REC down. -/
theorem State.frameReceived_exec {s : State} {p sofLt : Nat} {f : CanFrame} (hon : s.canOn p [1, 2] = true)
    (hstate : s.canState p < 2) (hf : canFrameOk f = true) (hmode : (s.port p).pendingMode = none)
    (htec : s.rdN 0x1414 (p + 1) dev ≤ 255) :
    execFrameReceived p f sofLt s = .next ((s.ringPut p ⟨sofLt, f, 0, false, 0, 0⟩).setCounters p
      (s.rdN 0x1414 (p + 1) dev) (s.recDown p) 0).draw := by
  have hcore := (State.setCounters_effect (s := s.ringPut p ⟨sofLt, f, 0, false, 0, 0⟩) (p := p) (rec' := s.recDown p) 0
    htec).2.2.2
  have hend := State.frameEnd_of_none
    ((Can.pendingMode_of_core (hcore.trans (s.ringPut_core p ⟨sofLt, f, 0, false, 0, 0⟩))).trans hmode)
  exact congrArg Host.Outcome.next ((if_pos ⟨hon, hstate, hf⟩).trans (congrArg State.draw hend))

theorem frameReceived_counts {s : State} {p sofLt : Nat} {f : CanFrame} (hon : s.canOn p [1, 2] = true)
    (hstate : s.canState p < 2) (hf : canFrameOk f = true) (hmode : (s.port p).pendingMode = none)
    (htec : s.rdN 0x1414 (p + 1) dev ≤ 255) :
    Gives (.frameReceived p f sofLt) s fun t => t.rd 0x1415 (p + 1) dev = s.recDown p ∧
      t.rdN 0x1414 (p + 1) dev = s.rdN 0x1414 (p + 1) dev := by
  obtain ⟨htec', hrec, _, _⟩ := State.setCounters_effect (s := s.ringPut p ⟨sofLt, f, 0, false, 0, 0⟩) (p := p)
    (rec' := s.recDown p) 0 htec
  exact ⟨_, State.frameReceived_exec hon hstate hf hmode htec, hrec, (congrArg Int.toNat htec').trans (Int.toNat_natCast _)⟩

/-- Settles O55: the FIFO and the counters after each command, by what the shared operations leave of the port. -/
theorem canTransmit : Obligations.CanTransmit := by
  refine ⟨?mode, ?submit, ?cancel, ?cancelAll, ?deadline, ?lost, ?received⟩
  case mode =>
    intro src p v busy s hacc
    exact (canMode_gives hacc).framed fun k hk => execCanMode_same hk (.refl k s)
  case submit =>
    intro src p b rs s hparse hacc
    exact (transmitSubmit_gives hparse hacc).framed fun k hk => execTransmitSubmit_same hk (.refl k s)
  case cancel =>
    intro src p h started s hacc
    exact (cancel_gives hacc).framed fun k hk => execCancel_same hk (.refl k s)
  case cancelAll =>
    intro src p started s hacc
    exact (cancelAll_gives hacc).framed fun k hk => execCancelAll_same hk (.refl k s)
  case deadline =>
    intro p h started s hp hdue
    exact (deadlineExpiry_gives hp hdue).framed fun k hk => execDeadlineExpiry_same hk (.refl k s)
  case lost =>
    intro p s hon hstate hfifo
    exact (arbitrationLost_gives hon hstate hfifo).framed fun k hk => execArbitrationLost_same hk (.refl k s)
  case received =>
    intro p sofLt f s hon hstate hf hmode htec
    exact (frameReceived_counts hon hstate hf hmode htec).framed fun k hk => execFrameReceived_same hk (.refl k s)

/-! ## The bus (R463 to R468) -/

/-- In the error-active state with both counters below 96 a frame received is stored at the producer's place and gives no
other entry. -/
theorem frameReceived_stores {s : State} {p sofLt : Nat} {f : CanFrame} (hon : s.canOn p [1, 2] = true)
    (hstate : s.canState p = 0) (hf : canFrameOk f = true) (hmode : (s.port p).pendingMode = none)
    (htec : s.rdN 0x1414 (p + 1) dev < 96) (hrec : s.rdN 0x1415 (p + 1) dev < 96)
    (hroom : (s.rdN 0x1418 (p + 1) dev + 65536 - s.rdN 0x1419 (p + 1) dev) % 65536 ≠ 4096) :
    Gives (.frameReceived p f sofLt) s fun t =>
      t.rd 0x1418 (p + 1) dev = (s.rd 0x1418 (p + 1) dev + 1) % 65536 ∧
        lookup? (s.rdN 0x1418 (p + 1) dev % 4096) (t.port p).ring = some ⟨sofLt, f, 0, (s.port p).gap, 0, 0⟩ := by
  let y := s.ringPut p ⟨sofLt, f, 0, false, 0, 0⟩
  have hy {i : Nat} (hi : Part.reg i ∉ [.reg 0x1418, .reg 0x141B, .can]) (j e : Nat) : y.rd i j e = s.rd i j e :=
    State.rd_of_same (State.ringPut_same hi (.refl _ s)) j e
  have hyN {i : Nat} (hi : Part.reg i ∉ [.reg 0x1418, .reg 0x141B, .can]) (j e : Nat) : y.rdN i j e = s.rdN i j e :=
    congrArg Int.toNat (hy hi j e)
  have hdown : s.recDown p < 96 := by
    have h127 : ¬ 127 < s.rdN 0x1415 (p + 1) dev := by omega
    have heq : s.recDown p = s.rdN 0x1415 (p + 1) dev - 1 := if_neg h127
    omega
  have hcounters : y.setCounters p (s.rdN 0x1414 (p + 1) dev) (s.recDown p) 0 =
      (y.wr 0x1414 (p + 1) dev (s.rdN 0x1414 (p + 1) dev)).wr 0x1415 (p + 1) dev (s.recDown p) := by
    rw [← hyN (by decide)] at htec hrec ⊢
    exact State.setCounters_quiet 0 ((hyN (by decide) ..).trans hstate) htec hrec hdown
  have hexec := State.frameReceived_exec (sofLt := sofLt) hon (by omega) hf hmode (by omega)
  rw [hcounters] at hexec
  refine ⟨_, hexec, ?_, ?_⟩
  · refine (State.rd_wr_ne _ _ (by simp)).trans ((State.rd_wr_ne _ _ (by simp)).trans ?_)
    unfold y
    rw [State.ringPut_of_room hroom, State.rd_inc_self]
    rfl
  · simp only [State.port_draw, State.port_wr]
    unfold y
    rw [State.ringPut_of_room hroom, State.port_inc, State.port_setPort]
    exact lookup?_put_self ..

/-- A frame sent leaves the FIFO, is stored, and counts TEC down. -/
theorem frameSent_gives {s : State} {p sofLt : Nat} {x : CanTx} {l : List CanTx} (hfifo : (s.port p).fifo = x :: l)
    (hon : s.canOn p [1] = true) (hstate : s.canState p < 2) (hmode : (s.port p).pendingMode = none)
    (htec : s.rdN 0x1414 (p + 1) dev ≤ 255) :
    Gives (.frameSent p sofLt) s fun t =>
      (t.port p).fifo = l ∧ t.rdN 0x1414 (p + 1) dev = s.rdN 0x1414 (p + 1) dev - 1 := by
  let e : RingEntry := ⟨sofLt, { x.frame with esi := s.canState p == 1 }, 1, false, x.handle, if x.stop = 1 then 2 else 1⟩
  let y := s.setPort p { s.port p with fifo := l }
  let z := y.ringPut p e
  have hz : (z.port p).core = ({ s.port p with fifo := l } : Can).core := by
    rw [State.ringPut_core, State.port_setPort]
  have htecz : z.rdN 0x1414 (p + 1) dev = s.rdN 0x1414 (p + 1) dev :=
    congrArg Int.toNat (State.rd_of_same (State.ringPut_same (by decide) (.refl _ y)) (p + 1) dev)
  obtain ⟨htec', _, _, hcore⟩ := State.setCounters_effect (s := z) (p := p) (rec' := z.rdN 0x1415 (p + 1) dev) 0
    (show s.rdN 0x1414 (p + 1) dev - 1 ≤ 255 by omega)
  have hend := State.frameEnd_of_none ((Can.pendingMode_of_core (hcore.trans hz)).trans hmode)
  have hexec : execFrameSent p sofLt s =
      .next (z.setCounters p (s.rdN 0x1414 (p + 1) dev - 1) (z.rdN 0x1415 (p + 1) dev) 0) := by
    unfold execFrameSent
    rw [hfifo]
    dsimp only
    rw [if_pos ⟨hon, hstate⟩, ← hend, ← htecz]
  exact ⟨_, hexec, Can.fifo_of_core (hcore.trans hz), (congrArg Int.toNat htec').trans (Int.toNat_natCast _)⟩

/-- A bus error that leaves TEC within its object counts, and the counters give the error state. -/
theorem busError_counts {s : State} {p code : Nat} {e : CanErr} {own : Bool} (hon : s.canOn p [1, 2] = true)
    (hstate : s.canState p < 2) (hmode : (s.port p).pendingMode = none) (htec : s.errTec p e own ≤ 255) :
    Gives (.busError p e code own) s fun t => t.rd 0x1414 (p + 1) dev = s.errTec p e own ∧
      t.rd 0x1415 (p + 1) dev = s.errRec p e own ∧
      t.canState p = if 127 < s.errTec p e own ∨ 127 < s.errRec p e own then 1 else 0 := by
  obtain ⟨htec', hrec, hstate', hcore⟩ := State.setCounters_effect (s := s) (p := p) (rec' := s.errRec p e own) code htec
  have hmode' := (Can.pendingMode_of_core hcore).trans hmode
  let y := s.setCounters p (s.errTec p e own) (s.errRec p e own) code
  refine .of_guard rfl ⟨hon, hstate⟩ ?_
  dsimp only
  split
  · rw [State.frameEnd_of_none ((State.headFails_pendingMode false).trans hmode')]
    have hfails {i : Nat} (hi : Part.reg i ∉ [.reg 0x1418, .reg 0x141B, .can]) (j e : Nat) :
        (y.headFails p false).rd i j e = y.rd i j e := State.rd_of_same (State.headFails_same hi (.refl _ y)) j e
    exact ⟨(hfails (by decide) ..).trans htec', (hfails (by decide) ..).trans hrec,
      (congrArg Int.toNat (hfails (by decide) (p + 1) dev)).trans hstate'⟩
  · rw [State.frameEnd_of_none hmode']
    exact ⟨htec', hrec, hstate'⟩

/-- A bus error that takes TEC above 255 is bus off (R468). -/
theorem busError_busOff {s : State} {p code : Nat} {e : CanErr} {own : Bool} (hon : s.canOn p [1, 2] = true)
    (hstate : s.canState p < 2) (hmode : (s.port p).pendingMode = none) (htec : 255 < s.errTec p e own) :
    Gives (.busError p e code own) s fun t =>
      t.rd 0x1416 (p + 1) dev = (s.rd 0x1416 (p + 1) dev + 1) % 2 ^ 32 ∧ (t.port p).fifo = [] ∧
        t.canState p = if s.rd 0x140B (p + 1) dev = 0 then 3 else 2 := by
  let y := (s.wr 0x1414 (p + 1) dev (s.errTec p e own)).wr 0x1415 (p + 1) dev (s.errRec p e own)
  have hcounters : s.setCounters p (s.errTec p e own) (s.errRec p e own) code = y.busOff p code := if_pos htec
  obtain ⟨hcount, hfifo, hmode', hstate'⟩ := State.busOff_effect (s := y) (p := p) code
  have hcount' : y.rd 0x1416 (p + 1) dev = s.rd 0x1416 (p + 1) dev :=
    (State.rd_wr_ne _ _ (by simp)).trans (State.rd_wr_ne _ _ (by simp))
  have hauto : y.rd 0x140B (p + 1) dev = s.rd 0x140B (p + 1) dev :=
    (State.rd_wr_ne _ _ (by simp)).trans (State.rd_wr_ne _ _ (by simp))
  have hoff : ¬ (y.busOff p code).canState p < 2 := by
    rw [hstate']
    split
    · decide
    · decide
  refine .of_guard rfl ⟨hon, hstate⟩ ?_
  dsimp only
  rw [hcounters, if_neg fun h => hoff h.2.2, State.frameEnd_of_none (hmode'.trans hmode)]
  exact ⟨hcount.trans (by rw [hcount']), hfifo, hstate'.trans (by rw [hauto])⟩

/-- Sequences of recessive bits count to 128, where the port is error active again (R468). -/
theorem busOffRecovery_gives {s : State} {p n : Nat} (hon : s.canOn p [1, 2] = true) (hstate : s.canState p = 3)
    (hended : (s.port p).ended = false) :
    Gives (.busOffRecovery p n) s fun t => t.rdN 0x1417 (p + 1) dev = min 128 (s.rdN 0x1417 (p + 1) dev + n) ∧
      (128 ≤ s.rdN 0x1417 (p + 1) dev + n → t.rd 0x1414 (p + 1) dev = 0 ∧ t.rd 0x1415 (p + 1) dev = 0 ∧
        t.canState p = 0) := by
  have hended' : (!(s.port p).ended) = true := by rw [hended]; rfl
  let k := min 128 (s.rdN 0x1417 (p + 1) dev + n)
  let y := s.wr 0x1417 (p + 1) dev k
  have hy : y.rdN 0x1417 (p + 1) dev = k := State.rdN_wr_self ..
  refine .of_guard rfl ⟨hon, hstate, hended'⟩ ?_
  dsimp only
  split
  next hfull =>
    let z := ((y.wr 0x1414 (p + 1) dev 0).wr 0x1415 (p + 1) dev 0).wr 0x1413 (p + 1) dev 0
    have hevent {i : Nat} (hi : Part.reg i ∉ [.reg 0x1418, .reg 0x141B, .can]) (j e : Nat) :
        (z.errorEvent p 0 0).rd i j e = z.rd i j e := State.rd_of_same (State.errorEvent_same hi (.refl _ z)) j e
    have hrd {i : Nat} (hi : i ∉ [0x1413, 0x1414, 0x1415]) : z.rd i (p + 1) dev = y.rd i (p + 1) dev := by
      simp only [List.mem_cons, List.not_mem_nil, or_false, not_or] at hi
      obtain ⟨h3, h4, h5⟩ := hi
      exact (State.rd_wr_ne _ _ (by simp [h3])).trans ((State.rd_wr_ne _ _ (by simp [h5])).trans
        (State.rd_wr_ne _ _ (by simp [h4])))
    refine ⟨(congrArg Int.toNat ((hevent (by decide) (p + 1) dev).trans (hrd (by decide)))).trans hy, fun _ => ⟨?_, ?_, ?_⟩⟩
    · exact (hevent (by decide) ..).trans ((State.rd_wr_ne _ _ (by simp)).trans
        ((State.rd_wr_ne _ _ (by simp)).trans (State.rd_wr_self ..)))
    · exact (hevent (by decide) ..).trans ((State.rd_wr_ne _ _ (by simp)).trans (State.rd_wr_self ..))
    · exact (congrArg Int.toNat (hevent (by decide) (p + 1) dev)).trans (State.rdN_wr_self _ _ _ 0)
  next hopen =>
    exact ⟨hy, fun hfull => absurd (Nat.min_eq_left hfull) hopen⟩

theorem restartSet_effect (p : Nat) (s : State) (e : Nat) :
    (restartSet p s e).canState p = 3 ∧ (restartSet p s e).rd 0x1417 (p + 1) dev = 0 :=
  ⟨(congrArg Int.toNat (State.rd_wr_ne _ _ (by simp))).trans (State.rdN_wr_self _ _ _ 3), State.rd_wr_self ..⟩

theorem restart_gives {s : State} {src : Src} {p v : Nat} (hacc : s.Accepts src 0x140C (p + 1) [dev] v (restartCheck p)) :
    Gives (.restart src p v) s fun t => t.canState p = 3 ∧ t.rd 0x1417 (p + 1) dev = 0 := by
  have hnet := (State.writeObj_ok (eff := restartSet p) hacc).frame
  obtain ⟨hstate, hcount⟩ := restartSet_effect p ((s.atRequest src).touch dev) dev
  exact ⟨_, rfl, (congrArg Int.toNat (State.rd_of_same (hnet (.reg 0x1413) (by decide)) (p + 1) dev)).trans hstate,
    (State.rd_of_same (hnet (.reg 0x1417) (by decide)) (p + 1) dev).trans hcount⟩

theorem ringConsumer_gives {s : State} {src : Src} {p v : Nat}
    (hacc : s.Accepts src 0x1419 (p + 1) [dev] v (consumerCheck src p v)) :
    Gives (.ringConsumer src p v) s fun t => t.rd 0x1419 (p + 1) dev = v := by
  have hnet := (State.writeObj_ok (eff := consumerSet p v) hacc).frame
  exact ⟨_, rfl, (State.rd_of_same (hnet (.reg 0x1419) (by decide)) (p + 1) dev).trans (State.rd_wr_self ..)⟩

/-- Settles O56: the ring, the FIFO, the counters and the error state after each command, by what the shared operations
leave of the port. -/
theorem canBus : Obligations.CanBus := by
  refine ⟨?received, ?sent, ?counts, ?busOff, ?recovery, ?restart, ?consumer⟩
  case received =>
    intro p sofLt f s hon hstate hf hmode htec hrec hroom
    exact (frameReceived_stores hon hstate hf hmode htec hrec hroom).framed fun k hk =>
      execFrameReceived_same hk (.refl k s)
  case sent =>
    intro p sofLt x l s hfifo hon hstate hmode htec
    exact (frameSent_gives hfifo hon hstate hmode htec).framed fun k hk => execFrameSent_same hk (.refl k s)
  case counts =>
    intro p code e own s hon hstate hmode htec
    exact (busError_counts hon hstate hmode htec).framed fun k hk => execBusError_same hk (.refl k s)
  case busOff =>
    intro p code e own s hon hstate hmode htec
    exact (busError_busOff hon hstate hmode htec).framed fun k hk => execBusError_same hk (.refl k s)
  case recovery =>
    intro p n s hon hstate hended
    exact (busOffRecovery_gives hon hstate hended).framed fun k hk => execBusOffRecovery_same hk (.refl k s)
  case restart =>
    intro src p v s hacc
    exact (restart_gives hacc).framed fun k hk => execRestart_same hk (.refl k s)
  case consumer =>
    intro src p v s hacc
    exact (ringConsumer_gives hacc).framed fun k hk => execRingConsumer_same hk (.refl k s)

end Sys2Proof.Machine
end

section
/-! The statement on customer roots, rollback counters, preferred slots and image loads. -/

namespace Sys2Proof.Machine

/-! ## Roots, counters and slots (R473, R474, R480, R483) -/

theorem customerRootWrite_gives {s : State} {src : Src} {k : Nat} {h : List Byte}
    (hacc : s.AcceptsBlob src 0x7020 k [dev] h (rootWriteCheck src k h)) :
    Gives (.customerRootWrite src k h) s fun t => t.rdB 0x7020 k dev = h := by
  have hnet := (State.writeBlob_ok (eff := rootWriteSet k h) hacc).frame
  exact ⟨_, rfl, (hnet (.blob 0x7020) (by decide) k dev).trans (State.rdB_wrB_self ..)⟩

theorem customerRootRevoke_gives {s : State} {src : Src} {k v : Nat} (hacc : s.Accepts src 0x7021 k [dev] v (revokeCheck k)) :
    Gives (.customerRootRevoke src k v) s fun t => t.rd 0x7021 k dev = 1 := by
  have hnet := (State.writeObj_ok (eff := revokeSet k) hacc).frame
  exact ⟨_, rfl, (State.rd_of_same (hnet (.reg 0x7021) (by decide)) k dev).trans (State.rd_wr_self ..)⟩

/-- The counter rises to the running value, or stays where it stands above it. -/
theorem rollbackSet_effect (k : Nat) (s : State) (e : Nat) :
    (rollbackSet k s e).rdN 0x7030 k dev = max (s.rdN 0x7030 k dev) (s.rdN 0x7032 k dev) := by
  unfold rollbackSet
  extract_lets r
  split
  next hle => exact (Nat.max_eq_left hle).symm
  next hgt =>
    have hslots (y : State) (l : List Nat) : (each l (fun s p =>
        if s.slotState k p = 1 ∧ imgRollback (s.slotBytes (slotNo k p)) < r then s.setSlotState k p 2 else s) y).rd 0x7030 k dev =
          y.rd 0x7030 k dev := by
      refine each_keep (fun y : State => y.rd 0x7030 k dev) _ _ (fun y p => ?_) y
      split
      · exact State.rd_wr_ne _ _ (by simp)
      · rfl
    rw [State.rdN, hslots, State.rd_wr_self, Int.toNat_natCast, Nat.max_eq_right (Nat.le_of_lt (Nat.lt_of_not_le hgt))]

theorem rollbackCommit_gives {s : State} {src : Src} {k v : Nat} (hacc : s.Accepts src 0x7031 k [dev] v (rollbackCheck k)) :
    Gives (.rollbackCommit src k v) s fun t => t.rdN 0x7030 k dev = max (s.rdN 0x7030 k dev) (s.rdN 0x7032 k dev) := by
  have hnet := (State.writeObj_ok (eff := rollbackSet k) hacc).frame
  have htouch {i : Nat} (hi : Part.reg i ∉ [.reg 0x1200, .reg 0x1210, .reg 0x3101, .units, .dies, .net]) :
      ((s.atRequest src).touch dev).rdN i k dev = s.rdN i k dev :=
    congrArg Int.toNat (State.rd_of_same (s.touch_atRequest_same src dev hi) k dev)
  have heff := rollbackSet_effect k ((s.atRequest src).touch dev) dev
  rw [htouch (by decide), htouch (by decide)] at heff
  exact ⟨_, rfl, (congrArg Int.toNat (State.rd_of_same (hnet (.reg 0x7030) (by decide)) k dev)).trans heff⟩

theorem State.rd_prefer (s : State) (k p : Nat) : (s.prefer k p).rd 0x7034 k dev = p := State.rd_wr_self ..

theorem preferredSlot_gives {s : State} {src : Src} {k v : Nat} (hacc : s.Accepts src 0x7034 k [dev] v (preferCheck k v)) :
    Gives (.preferredSlot src k v) s fun t => t.rd 0x7034 k dev = v := by
  have hnet := (State.writeObj_ok (eff := preferSet k v) hacc).frame
  exact ⟨_, rfl, (State.rd_of_same (hnet (.reg 0x7034) (by decide)) k dev).trans (State.rd_prefer ..)⟩

/-! ## Loads (R485) -/

/-- A load that opens stands with an empty slot, in progress, with result 0. -/
theorem State.openLoad_effect (s : State) (src : Src) (ty total : Nat) :
    (s.openLoad src ty total).rd 0x7040 4 dev = 1 ∧ (s.openLoad src ty total).rd 0x7040 5 dev = 0 ∧
      (s.openLoad src ty total).sec.loadTy = ty ∧ (s.openLoad src ty total).sec.loadBy = some src ∧
      (s.openLoad src ty total).loadPieces = ⟨total, []⟩ := by
  have hprefer : (s.openLoad src ty total).preferred (typeSub ty) = s.preferred (typeSub ty) := by
    refine congrArg Int.toNat ?_
    unfold State.openLoad State.setSlotState
    extract_lets k p y
    exact (State.rd_wr_ne _ _ (by simp)).trans ((State.rd_wr_ne _ _ (by simp)).trans (State.rd_wr_ne _ _ (by simp)))
  have hslot : (s.openLoad src ty total).loadSlot = slotNo (typeSub ty) (1 - s.preferred (typeSub ty)) :=
    congrArg (fun p => slotNo (typeSub ty) (1 - p)) hprefer
  refine ⟨?_, State.rd_wr_self .., rfl, rfl, ?_⟩
  · unfold State.openLoad
    exact (State.rd_wr_ne _ _ (by simp)).trans (State.rd_wr_self ..)
  · rw [State.loadPieces, hslot]
    exact look_put_self ..

theorem State.loadBeginCode_atRequest (s : State) (src : Src) (ty total : Nat) :
    loadBeginCode src ty total (s.atRequest src) = loadBeginCode src ty total s :=
  (congrArg (loadBeginCode src ty total) (s.atRequest_sameButNet src)).trans rfl

theorem loadBegin_gives {s : State} {src : Src} {ty total : Nat} (hears : s.Hears src)
    (hcode : loadBeginCode src ty total s = aDone) :
    Gives (.loadBegin src ty total) s fun t => t.rd 0x7040 4 dev = 1 ∧ t.rd 0x7040 5 dev = 0 ∧ t.sec.loadTy = ty ∧
      t.sec.loadBy = some src ∧ t.loadPieces = ⟨total, []⟩ := by
  have hcarried : needDone (loadBeginCode src ty total (s.atRequest src)) (done ((s.atRequest src).openLoad src ty total)) =
      .ok ((s.atRequest src).openLoad src ty total, []) := by
    rw [State.loadBeginCode_atRequest, hcode]
    rfl
  have hnet := (State.serve_ok (op := opWrite) (f := addrWord 0x7040 1 1) (l := rangeWord dev dev)
    (k := fun s => needDone (loadBeginCode src ty total s) (done (s.openLoad src ty total))) hears hcarried)
  obtain ⟨hstate, hresult, hty, hby, hpieces⟩ := State.openLoad_effect (s.atRequest src) src ty total
  have hsec := hnet.frame .sec (by decide)
  have hload := State.rd_of_same (hnet.frame (.reg 0x7040) (by decide))
  refine ⟨_, rfl, (hload 4 dev).trans hstate, (hload 5 dev).trans hresult, (congrArg Sec.loadTy hsec).trans hty,
    (congrArg Sec.loadBy hsec).trans hby, ?_⟩
  exact ((congrArg State.loadPieces hnet).trans rfl).trans hpieces

/-- A piece is added to those of the open load, at the time of its arrival. -/
theorem pieceSet_effect (off : Nat) (d : List Byte) (s : State) (e : Nat) :
    (pieceSet off d s e).loadPieces.total = s.loadPieces.total ∧
      (pieceSet off d s e).loadPieces.parts = s.loadPieces.parts ++ [(off, d)] ∧
      (pieceSet off d s e).sec.loadLast = s.lt := by
  have hpieces : (pieceSet off d s e).loadPieces = { s.loadPieces with parts := s.loadPieces.parts ++ [(off, d)] } :=
    look_put_self ..
  rw [hpieces]
  exact ⟨rfl, rfl, rfl⟩

theorem loadPiece_gives {s : State} {src : Src} {off : Nat} {d : List Byte}
    (hacc : s.AcceptsBlob src 0x7040 2 [dev] (leNat 4 off ++ d) (pieceCheck off d.length)) :
    Gives (.loadPiece src off d) s fun t => t.loadPieces.total = s.loadPieces.total ∧
      t.loadPieces.parts = s.loadPieces.parts ++ [(off, d)] ∧ t.sec.loadLast = s.lt := by
  have hnet := State.writeBlob_ok (eff := pieceSet off d) hacc
  obtain ⟨htotal, hparts, hlast⟩ := pieceSet_effect off d (s.atRequest src) dev
  have hold : (s.atRequest src).loadPieces = s.loadPieces := (congrArg State.loadPieces (s.atRequest_sameButNet src)).trans rfl
  have hnew : (s.writeBlob ..).loadPieces = (pieceSet off d (s.atRequest src) dev).loadPieces :=
    (congrArg State.loadPieces hnet).trans rfl
  have hclock : State.Same .clock s (s.atRequest src) := (s.atRequest_sameButNet src).frame .clock (by decide)
  rw [hold] at htotal hparts
  rw [show State.lt _ = s.lt from congrArg Clock.lt hclock] at hlast
  refine ⟨_, rfl, (congrArg Pieces.total hnew).trans htotal, (congrArg Pieces.parts hnew).trans hparts,
    (congrArg Sec.loadLast (hnet.frame .sec (by decide))).trans hlast⟩

/-- A load that ends shows its result and its state, and prefers its slot where it has verified. -/
theorem loadEndSet_effect (flashOk : Bool) (s : State) (e : Nat) :
    (loadEndSet flashOk s e).rd 0x7040 5 dev = s.loadResult flashOk ∧
      (loadEndSet flashOk s e).rd 0x7040 4 dev = (if s.loadResult flashOk = 0 then 3 else 4) ∧
      (loadEndSet flashOk s e).sec.loadBy = none ∧
      (s.loadResult flashOk = 0 →
        (loadEndSet flashOk s e).preferred (typeSub s.sec.loadTy) = 1 - s.preferred (typeSub s.sec.loadTy)) := by
  unfold loadEndSet
  extract_lets ty k p r sec y z
  have hnote {q : Part} (hq : q ∉ [.reg 0x6000, .dies, .trail]) : State.Same q z (z.imageNote ty p r) :=
    State.imageNote_same hq (.refl q z)
  have hload := State.rd_of_same (hnote (q := .reg 0x7040) (by decide))
  have hslot := State.rd_of_same (hnote (q := .reg 0x7034) (by decide))
  have hy : y.rd 0x7040 5 dev = r := State.rd_wr_self ..
  have hz : z.rd 0x7040 5 dev = r ∧ z.rd 0x7040 4 dev = (if r = 0 then 3 else 4) ∧ z.sec.loadBy = none ∧
      (r = 0 → z.rd 0x7034 k dev = p) := by
    unfold z
    split
    next hr =>
      refine ⟨?_, State.rd_wr_self .., rfl, fun _ => (State.rd_wr_ne _ _ (by simp)).trans (State.rd_prefer ..)⟩
      exact (State.rd_wr_ne _ _ (by simp)).trans ((State.rd_wr_ne _ _ (by simp)).trans ((State.rd_wr_ne _ _ (by simp)).trans hy))
    next hr =>
      refine ⟨?_, State.rd_wr_self .., rfl, fun h => absurd h hr⟩
      exact (State.rd_wr_ne _ _ (by simp)).trans ((State.rd_wr_ne _ _ (by simp)).trans hy)
  obtain ⟨hresult, hstate, hby, hpreferred⟩ := hz
  clear_value z
  exact ⟨(hload 5 dev).trans hresult, (hload 4 dev).trans hstate, (congrArg Sec.loadBy (hnote (q := .sec) (by decide))).trans hby,
    fun hr => (congrArg Int.toNat ((hslot k dev).trans (hpreferred hr))).trans (Int.toNat_natCast p)⟩

theorem loadEnd_gives {s : State} {src : Src} {v : Nat} {flashOk : Bool} (hacc : s.Accepts src 0x7040 3 [dev] v loadEndCheck) :
    Gives (.loadEnd src v flashOk) s fun t => t.rd 0x7040 5 dev = s.loadResult flashOk ∧
      t.rd 0x7040 4 dev = (if s.loadResult flashOk = 0 then 3 else 4) ∧ t.sec.loadBy = none ∧
      (s.loadResult flashOk = 0 → t.preferred (typeSub s.sec.loadTy) = 1 - s.preferred (typeSub s.sec.loadTy)) := by
  have hnet := (State.writeObj_ok (eff := loadEndSet flashOk) hacc).frame
  have hsame := s.atRequest_sameButNet src
  have hresult : (s.atRequest src).loadResult flashOk = s.loadResult flashOk :=
    (congrArg (State.loadResult · flashOk) hsame).trans rfl
  have hty : (s.atRequest src).sec.loadTy = s.sec.loadTy := congrArg Sec.loadTy (hsame.frame .sec (by decide))
  have hold (k : Nat) : (s.atRequest src).preferred k = s.preferred k := (congrArg (State.preferred · k) hsame).trans rfl
  have heff := loadEndSet_effect flashOk (s.atRequest src) dev
  rw [hresult, hty, hold] at heff
  obtain ⟨hcode, hstate, hby, hpreferred⟩ := heff
  have hload := State.rd_of_same (hnet (.reg 0x7040) (by decide))
  have hslot := State.rd_of_same (hnet (.reg 0x7034) (by decide))
  exact ⟨_, rfl, (hload 5 dev).trans hcode, (hload 4 dev).trans hstate,
    (congrArg Sec.loadBy (hnet .sec (by decide))).trans hby,
    fun hr => (congrArg Int.toNat (hslot (typeSub s.sec.loadTy) dev)).trans (hpreferred hr)⟩

theorem loadAbandon_gives {s : State} (hfw : s.fw = true) (hopen : s.rd 0x7040 4 dev = 1)
    (hlate : s.sec.loadLast + 60000000000 < s.lt) :
    Gives .loadAbandon s fun t => t.rd 0x7040 4 dev = 5 ∧ t.sec.loadBy = none := by
  refine .of_guard rfl ⟨hfw, hopen, hlate⟩ ?_
  rw [State.abandonLoad, if_pos hopen]
  exact ⟨State.rd_wr_self .., rfl⟩

/-- Settles O57: an accepted write leaves its object's effect, and a load's state, result, pieces and slot follow it from
its opening to its end. -/
theorem trustStoreAndImages : Obligations.TrustStoreAndImages := by
  refine ⟨?write, ?revoke, ?rollback, ?prefer, ?opens, ?piece, ?close, ?abandon⟩
  case write =>
    intro src k h s hacc
    exact (customerRootWrite_gives hacc).framed fun k hk => execCustomerRootWrite_same hk (.refl k s)
  case revoke =>
    intro src k v s hacc
    exact (customerRootRevoke_gives hacc).framed fun k hk => execCustomerRootRevoke_same hk (.refl k s)
  case rollback =>
    intro src k v s hacc
    exact (rollbackCommit_gives hacc).framed fun k hk => execRollbackCommit_same hk (.refl k s)
  case prefer =>
    intro src k v s hacc
    exact (preferredSlot_gives hacc).framed fun k hk => execPreferredSlot_same hk (.refl k s)
  case opens =>
    intro src ty total s hears hcode
    exact (loadBegin_gives hears hcode).framed fun k hk => execLoadBegin_same hk (.refl k s)
  case piece =>
    intro src off d s hacc
    exact (loadPiece_gives hacc).framed fun k hk => execLoadPiece_same hk (.refl k s)
  case close =>
    intro src v flashOk s hacc
    exact (loadEnd_gives hacc).framed fun k hk => execLoadEnd_same hk (.refl k s)
  case abandon =>
    intro s hfw hopen hlate
    exact (loadAbandon_gives hfw hopen hlate).framed fun k hk => execLoadAbandon_same hk (.refl k s)

end Sys2Proof.Machine
end

section
/-! The statement on the user partition, debug access, the JTAG instructions and attestation. -/

namespace Sys2Proof.Machine

/-! ## The partition (R487, R488) -/

theorem State.netCore_userSubs {s t : State} (h : t.netCore = s.netCore) : t.net.userSubs = s.net.userSubs :=
  (congrArg Net.userSubs h : t.netCore.userSubs = s.netCore.userSubs)

theorem partStart_effect (s : State) : (partStart s).rd 0x7050 3 dev = 1 ∧ (partStart s).rd 0x7050 4 dev = 0 ∧
    (partStart s).sec.partYield = s.lt :=
  ⟨(State.rd_wr_ne _ _ (by simp)).trans ((State.rd_wr_ne _ _ (by simp)).trans (State.rd_wr_self ..)),
    (State.rd_wr_ne _ _ (by simp)).trans (State.rd_wr_self ..), rfl⟩

theorem partHalt_effect (v : Int) (s : State) : (partHalt v s).rd 0x7050 3 dev = v ∧ (partHalt v s).net.userSubs = [] ∧
    (partHalt v s).sec.userNonce = [] :=
  ⟨(State.rd_wr_ne _ _ (by simp)).trans (State.rd_wr_self ..), rfl, rfl⟩

theorem partitionStart_gives {s : State} {src : Src} (hacc : s.Accepts src 0x7050 1 [dev] 1 (partitionCheck 1)) :
    Gives (.partitionStart src) s fun t => t.rd 0x7050 3 dev = 1 ∧ t.rd 0x7050 4 dev = 0 ∧ t.sec.partYield = s.lt := by
  have hnet := (State.writeObj_ok (eff := partitionSet 1) hacc).frame
  obtain ⟨hstate, hcause, hyield⟩ := partStart_effect (s.atRequest src)
  have hclock : State.Same .clock s (s.atRequest src) := (s.atRequest_sameButNet src).frame .clock (by decide)
  have hrd := State.rd_of_same (hnet (.reg 0x7050) (by decide))
  exact ⟨_, rfl, (hrd 3 dev).trans hstate, (hrd 4 dev).trans hcause,
    (congrArg Sec.partYield (hnet .sec (by decide))).trans (hyield.trans (congrArg Clock.lt hclock))⟩

theorem partitionStop_gives {s : State} {src : Src} (hacc : s.Accepts src 0x7050 1 [dev] 2 (partitionCheck 2))
    (hruns : s.rd 0x7050 3 dev = 1) :
    Gives (.partitionStop src) s fun t => t.rd 0x7050 3 dev = 0 ∧ t.net.userSubs = [] ∧ t.sec.userNonce = [] := by
  have hnet := (State.writeObj_ok (eff := partitionSet 2) hacc).frame
  have hruns' : (s.atRequest src).rd 0x7050 3 dev = 1 :=
    (State.rd_of_same ((s.atRequest_sameButNet src).frame (.reg 0x7050) (by decide)) 3 dev).trans hruns
  have hset : partitionSet 2 (s.atRequest src) dev = partHalt 0 (s.atRequest src) := if_pos hruns'
  obtain ⟨hstate, hsubs, hnonce⟩ := partHalt_effect 0 (s.atRequest src)
  rw [← hset] at hstate hsubs hnonce
  exact ⟨_, rfl, (State.rd_of_same (hnet (.reg 0x7050) (by decide)) 3 dev).trans hstate,
    (State.netCore_userSubs (State.netCore_writeObj (eff := partitionSet 2) hacc)).trans hsubs,
    (congrArg Sec.userNonce (hnet .sec (by decide))).trans hnonce⟩

theorem partitionFault_gives {s : State} {cause : Nat} (hruns : s.rd 0x7050 3 dev = 1) (hfrom : 1 ≤ cause)
    (hto : cause ≤ 3) (hyield : cause = 1 → s.sec.partYield + 100000000 ≤ s.lt) :
    Gives (.partitionFault cause) s fun t =>
      t.rd 0x7050 3 dev = 3 ∧ t.rd 0x7050 4 dev = cause ∧ t.net.userSubs = [] := by
  obtain ⟨hstate, hsubs, _⟩ := partHalt_effect 3 s
  let y := (partHalt 3 s).wr 0x7050 4 dev cause
  have hnote {q : Part} (hq : q ∉ [.reg 0x6000, .dies, .trail]) : State.Same q y (y.note 0x7002 (leNat 1 cause)) :=
    State.note_same hq (.refl q y)
  have hrd := State.rd_of_same (hnote (q := .reg 0x7050) (by decide))
  refine .of_guard rfl ⟨hruns, hfrom, hto, hyield⟩ ⟨?_, ?_, ?_⟩
  · exact (hrd 3 dev).trans ((State.rd_wr_ne _ _ (by simp)).trans hstate)
  · exact (hrd 4 dev).trans (State.rd_wr_self ..)
  · exact (congrArg Net.userSubs (hnote (q := .net) (by decide))).trans hsubs

/-! ## Debug and JTAG (R490, R491) -/

theorem debugSet_effect (s : State) (e : Nat) : (debugSet s e).sec.debug = true ∧ (debugSet s e).rd 0x7060 4 dev = 2 :=
  ⟨rfl, (State.rd_wr_ne _ _ (by simp)).trans (State.rd_wr_self ..)⟩

theorem debugToken_gives {s : State} {src : Src} {root : Nat} {key sig : List Byte}
    (hacc : s.AcceptsBlob src 0x7060 2 [dev] (leNat 4 root ++ key ++ sig) (debugCheck root key sig)) :
    Gives (.debugToken src root key sig) s fun t => t.sec.debug = true ∧ t.rd 0x7060 4 dev = 2 := by
  have hnet := (State.writeBlob_ok (eff := debugSet) hacc).frame
  obtain ⟨hdebug, hstate⟩ := debugSet_effect (s.atRequest src) dev
  exact ⟨_, rfl, (congrArg Sec.debug (hnet .sec (by decide))).trans hdebug,
    (State.rd_of_same (hnet (.reg 0x7060) (by decide)) 4 dev).trans hstate⟩

/-- Debug locks whether or not the service port holds the unlock, which then ends. -/
theorem debugLockSet_effect (s : State) (e : Nat) : (debugLockSet s e).sec.debug = false ∧
    (debugLockSet s e).sec.serviceNonce = [] ∧ (debugLockSet s e).rd 0x7060 4 dev = if s.sealedPart then 0 else 1 := by
  unfold debugLockSet
  extract_lets y
  have hy : y.sealedPart = s.sealedPart := by
    unfold y
    split
    · rfl
    · rfl
  rw [hy]
  exact ⟨rfl, rfl, State.rd_wr_self ..⟩

theorem debugLock_gives {s : State} {src : Src} {v : Nat} (hacc : s.Accepts src 0x7060 3 [dev] v (fun _ _ => aDone)) :
    Gives (.debugLock src v) s fun t => t.sec.debug = false ∧ t.sec.serviceNonce = [] ∧
      t.rd 0x7060 4 dev = if s.sealedPart then 0 else 1 := by
  have hnet := (State.writeObj_ok (eff := debugLockSet) hacc).frame
  obtain ⟨hdebug, hnonce, hstate⟩ := debugLockSet_effect (s.atRequest src) dev
  have hpart : (s.atRequest src).sealedPart = s.sealedPart :=
    (s.atRequest_sameButNet src).frame .sealedPart (by decide)
  have hsec := hnet .sec (by decide)
  rw [hpart] at hstate
  exact ⟨_, rfl, (congrArg Sec.debug hsec).trans hdebug, (congrArg Sec.serviceNonce hsec).trans hnonce,
    (State.rd_of_same (hnet (.reg 0x7060) (by decide)) 4 dev).trans hstate⟩

/-- On a part that is not sealed the TAP takes its instruction while VSYS is valid (R490). -/
theorem State.tap_open {s : State} {f : Sec → Sec} (hvsys : s.vsys = true) (hpart : s.sealedPart = false) :
    s.tap f = .next (s.setSec (f s.sec)) := by
  rw [State.tap, hvsys, hpart]
  rfl

theorem State.tapInstr_of_ne {s : State} (h : s.sec.jtag ≠ 4) : s.tapInstr = s.sec.jtag := if_neg fun k => h k.1

theorem idcode_gives {s : State} (hvsys : s.vsys = true) (hpart : s.sealedPart = false) :
    Gives .idcode s fun t => t.sec.jtag = 1 ∧ t.tapInstr = 1 :=
  ⟨_, State.tap_open (f := fun x => { x with jtag := 1 }) hvsys hpart, rfl, State.tapInstr_of_ne (show (1 : Nat) ≠ 4 by decide)⟩

theorem bypass_gives {s : State} (hvsys : s.vsys = true) (hpart : s.sealedPart = false) :
    Gives .bypass s fun t => t.sec.jtag = 2 ∧ t.tapInstr = 2 :=
  ⟨_, State.tap_open (f := fun x => { x with jtag := 2 }) hvsys hpart, rfl, State.tapInstr_of_ne (show (2 : Nat) ≠ 4 by decide)⟩

theorem samplePreload_gives {s : State} {bits : List Bool} (hvsys : s.vsys = true) (hpart : s.sealedPart = false) :
    Gives (.samplePreload bits) s fun t => t.sec.jtag = 3 ∧ t.tapInstr = 3 ∧ t.sec.boundary = bits :=
  ⟨_, State.tap_open (f := fun x => { x with jtag := 3, boundary := bits }) hvsys hpart, rfl,
    State.tapInstr_of_ne (show (3 : Nat) ≠ 4 by decide), rfl⟩

/-- EXTEST acts as itself only while every driver and the DC link are off. -/
theorem extest_gives {s : State} (hvsys : s.vsys = true) (hpart : s.sealedPart = false) :
    Gives .extest s fun t => t.sec.jtag = 4 ∧ t.tapInstr = if s.extestOk then 4 else 2 := by
  refine ⟨_, State.tap_open (f := fun x => { x with jtag := 4 }) hvsys hpart, rfl, ?_⟩
  have hok : (s.setSec { s.sec with jtag := 4 }).extestOk = s.extestOk := rfl
  unfold State.tapInstr
  rw [hok]
  cases s.extestOk with
  | true => rfl
  | false => rfl

theorem extest_sealed {s : State} (hpart : s.sealedPart = true) : Gives .extest s fun t => t = s := by
  have hexec : execExtest s = .next s := by
    rw [execExtest, State.tap, hpart, Bool.not_true, Bool.and_false]
    rfl
  exact ⟨s, hexec, rfl⟩

/-! ## Attestation (R492, R493) -/

/-- The nonce set is the one read, of a sender that is heard. -/
theorem State.attNonce_setAttNonce {s : State} {src : Src} {b : List Byte}
    (hopen : ∀ id seq, src = .keyway id seq → ∃ x, s.session? id = some x) : (s.setAttNonce src b).attNonce src = b := by
  cases src with
  | keyway id seq =>
    obtain ⟨x, hx⟩ := hopen id seq rfl
    have hset : s.setAttNonce (.keyway id seq) b = s.setSession { x with nonce := b } := by
      simp only [State.setAttNonce, hx]
    have hid := State.id_of_session? hx
    have hsession := State.session?_setSession (y := { x with nonce := b }) hx hid
    simp only [State.attNonce, hset, hsession, Option.map_some, Option.getD_some]
  | user => rfl
  | service => rfl

theorem State.attNonce_answer (t : State) (src : Src) (op st f l : Nat) (p : List Byte) :
    (t.answer src op st f l p).attNonce src = t.attNonce src := by
  cases src with
  | keyway id seq =>
    cases hx : t.session? id with
    | none => rw [State.answer_none hx]
    | some x => simp only [State.attNonce, State.session?_answer hx, hx, Option.map_some]
  | user => rfl
  | service => rfl

theorem State.storing_setAttNonce (s : State) (src : Src) (b : List Byte) :
    (s.setAttNonce src b).net.storing = s.net.storing := by
  unfold State.setAttNonce
  split
  · split
    · rfl
    · rfl
  · rfl
  · rfl

theorem attestationNonce_gives {s : State} {src : Src} {b : List Byte}
    (hacc : s.AcceptsBlob src 0x7070 1 [dev] b (fun _ _ => aDone)) :
    Gives (.attestationNonce src b) s fun t => t.attNonce src = b := by
  have hopen (id seq : Nat) (h : src = .keyway id seq) : ∃ x, (s.atRequest src).session? id = some x := by
    subst h
    obtain ⟨x, hx⟩ := hacc.hears.session
    exact ⟨_, State.session?_atRequest hx⟩
  let eff (s : State) (_ : Nat) : State := s.setAttNonce src b
  have hcarried : (match (s.atRequest src).blobChecks src 0x7070 1 [dev] b (fun _ _ => aDone) with
      | some r => Except.error r
      | none => done (each [dev] (fun s e => eff (s.touch e) e) (s.atRequest src))) =
        .ok ((s.atRequest src).setAttNonce src b, []) := by
    rw [hacc.passes]
    rfl
  have hexec : s.writeBlob src 0x7070 1 [dev] b (fun _ _ => aDone) eff =
      ((s.atRequest src).setAttNonce src b).answer src opWrite aDone (addrWord 0x7070 1 1) (rangeWord dev dev) [] :=
    State.serve_eq hacc.hears hcarried ((State.storing_setAttNonce ..).trans (s.storing_atRequest src))
  exact ⟨_, rfl, (congrArg (State.attNonce · src) hexec).trans
    ((State.attNonce_answer ..).trans (State.attNonce_setAttNonce hopen))⟩

theorem State.readReport_user {s : State} (qm : Bool) (hnonce : s.sec.userNonce ≠ []) :
    ∃ b, s.readReport .user qm = .ok ((s.setAttNonce .user []).draw, b) := ⟨_, if_neg hnonce⟩

/-- A report uses the user partition's nonce up and is returned to it. -/
theorem attestationReport_user {s : State} {q : Bool} (hears : s.Hears .user) (hnonce : s.sec.userNonce ≠ []) :
    Gives (.attestationReport .user q) s fun t => t.sec.userNonce = [] ∧ ∃ b, t.net.local' = some (aDone, b) := by
  obtain ⟨b, hcarried⟩ := State.readReport_user (s := s.atRequest .user) (q && (s.atRequest .user).qmUp) hnonce
  have hstoring : ((s.atRequest .user).setAttNonce .user []).draw.net.storing = s.net.storing :=
    (State.storing_setAttNonce (s.atRequest .user) .user []).trans (s.storing_atRequest .user)
  have hserve := State.serve_eq (op := opRead) (f := spanWord ⟨0x7070, 2, 1, .dev, .dev⟩)
    (l := spanRange ⟨0x7070, 2, 1, .dev, .dev⟩) (k := fun s => s.readReport .user (q && s.qmUp)) hears hcarried hstoring
  exact ⟨_, congrArg Host.Outcome.next hserve, rfl, b, rfl⟩

/-- Settles O58: an accepted write leaves its object's effect, the TAP's instruction is the one given, and a nonce set is
kept with its sender and used up by its report. -/
theorem partitionDebugAttestation : Obligations.PartitionDebugAttestation := by
  refine ⟨?start, ?stop, ?fault, ?token, ?lock, ?idcode, ?bypass, ?sample, ?extest, ?sealed, ?nonce, ?user, ?session⟩
  case start =>
    intro src s hacc
    exact (partitionStart_gives hacc).framed fun k hk => execPartitionStart_same hk (.refl k s)
  case stop =>
    intro src s hacc hruns
    exact (partitionStop_gives hacc hruns).framed fun k hk => execPartitionStop_same hk (.refl k s)
  case fault =>
    intro cause s hruns hfrom hto hyield
    exact (partitionFault_gives hruns hfrom hto hyield).framed fun k hk => execPartitionFault_same hk (.refl k s)
  case token =>
    intro src root key sig s hacc
    exact (debugToken_gives hacc).framed fun k hk => execDebugToken_same hk (.refl k s)
  case lock =>
    intro src v s hacc
    exact (debugLock_gives hacc).framed fun k hk => execDebugLock_same hk (.refl k s)
  case idcode =>
    intro s hvsys hpart
    exact (idcode_gives hvsys hpart).framed fun k hk => execIdcode_same hk (.refl k s)
  case bypass =>
    intro s hvsys hpart
    exact (bypass_gives hvsys hpart).framed fun k hk => execBypass_same hk (.refl k s)
  case sample =>
    intro bits s hvsys hpart
    exact (samplePreload_gives hvsys hpart).framed fun k hk => execSamplePreload_same hk (.refl k s)
  case extest =>
    intro s hvsys hpart
    exact (extest_gives hvsys hpart).framed fun k hk => execExtest_same hk (.refl k s)
  case sealed =>
    intro s hpart
    exact (extest_sealed hpart).framed fun k hk => execExtest_same hk (.refl k s)
  case nonce =>
    intro src b s hacc
    exact (attestationNonce_gives hacc).framed fun k hk => execAttestationNonce_same hk (.refl k s)
  case user =>
    intro q s hears hnonce
    exact (attestationReport_user hears hnonce).framed fun k hk =>
      execAttestationReport_same (x1 := .user) (x2 := q) hk (.refl k s)
  case session =>
    intro cid sid q s
    exact Gives.framed ⟨_, rfl, rfl⟩ fun k hk => execAttestationReport_same (x1 := .keyway cid sid) (x2 := q) hk (.refl k s)

end Sys2Proof.Machine
end

section
/-! O51, SegmentedTransfers, is refuted: a session opens a transfer while the device has fewer than 16, counted before
the request is heard. Where several sessions hold one ID, hearing the request gives each of them the transfers of the
first, and the device is full. -/

namespace Sys2Proof.Machine

/-- Three open transfers of a session. -/
def threeTransfers : List Transfer :=
  [10, 11, 12].map fun n => ⟨n, true, ⟨0x1302, 0, 1, .dev, .dev⟩, ⟨2, []⟩, [], 0⟩

/-- A session with ID 1 and these transfers. -/
def sessionOne (l : List Transfer) : Session := ⟨1, 0, [], l, [], 0, 0, 1, false, [], []⟩

/-- Six sessions share the ID 1; the first has three transfers open, the others none. -/
def sharedId : State :=
  { State.reset with
    fw := true
    net := { State.reset.net with sessions := sessionOne threeTransfers :: List.replicate 5 (sessionOne []) } }

/-- A transfer that finds the device full is refused. -/
theorem State.initWrite_full {s : State} {src : Src} {x : Span} {total : Nat} (hcounts : countsOk x true = true)
    (htotal : totalCheck src x total = aDone) (hchecks : s.initChecks src x total = none)
    (hfull : (s.sender src).any s.transfersFull = true) : s.initWrite src x total = .error ⟨aBusy, none⟩ := by
  unfold State.initWrite
  rw [if_neg (by simp [hcounts, htotal]), hchecks]
  dsimp only
  rw [if_pos hfull]

/-- The payload of a SEG_INIT that announces two octets to write. -/
theorem State.segInit_write (s : State) (id seq : Nat) (x : Span) (qm : Bool) :
    s.segInit (.keyway id seq) x ([1, 0, 0, 0] ++ leNat 4 2) qm =
      s.serve (.keyway id seq) opSegInit (spanWord x) (spanRange x) fun s => s.initWrite (.keyway id seq) x 2 := rfl

/-- Refutes O51: on `sharedId` the device counts 3 transfers before the SEG_INIT is heard and 18 after. -/
theorem not_segmentedTransfers : ¬ Obligations.SegmentedTransfers := by
  rintro ⟨hclause, -⟩
  let src : Src := .keyway 1 1
  let span : Span := ⟨0x1302, 0, 1, .dev, .dev⟩
  have hears : sharedId.Hears src := ⟨by decide +kernel, by decide +kernel⟩
  have hsession : sharedId.session? 1 = some (sessionOne threeTransfers) := rfl
  have hchecks : (sharedId.atRequest src).initChecks src span 2 = none := by decide +kernel
  have hfull : ((sharedId.atRequest src).sender src).any (sharedId.atRequest src).transfersFull = true := by
    decide +kernel
  have hbusy : (sharedId.atRequest src).initWrite src span 2 = .error ⟨aBusy, none⟩ :=
    State.initWrite_full (by decide +kernel) (by decide +kernel) hchecks hfull
  obtain ⟨t, hexec, ⟨y, hy, z, hz, -⟩, -⟩ := hclause 1 1 2 (sessionOne threeTransfers) span sharedId hears hsession
    (by decide +kernel) (by decide) (by decide +kernel) (by decide +kernel) hchecks
  have hserve := State.serve_error (op := opSegInit) (f := spanWord span) (l := spanRange span)
    (k := fun s => s.initWrite src span 2) hears hbusy
  rw [← State.segInit_write sharedId 1 1 span sharedId.qmUp] at hserve
  have ht : t = (sharedId.atRequest src).answer src opSegInit aBusy (spanWord span) (spanRange span) [] :=
    (Host.Outcome.next.inj (hexec.symm.trans (congrArg Host.Outcome.next hserve)))
  rw [ht, State.session?_answer (State.session?_atRequest hsession)] at hy
  have hlength := congrArg List.length ((congrArg Session.transfers (Option.some.inj hy)).trans hz)
  simp [sessionOne, threeTransfers] at hlength

end Sys2Proof.Machine
end

section
/-! SUPPORT. The dictionary requests of an object that its register alone holds: what a read answers and what a write
leaves (R431 to R433, R452). -/

namespace Sys2Proof.Machine

/-! ## Octets -/

theorem leNat_succ (n x : Nat) : leNat (n + 1) x = BitVec.ofNat 8 x :: leNat n (x / 256) := by
  unfold leNat
  rw [List.range_succ_eq_map, List.map_cons, List.map_map]
  refine congrArg₂ List.cons (by rw [Nat.pow_zero, Nat.div_one]) (List.map_congr_left fun k _ => ?_)
  rw [Function.comp_apply, Nat.pow_succ', Nat.div_div_eq_div_mul]

theorem length_leNat (n x : Nat) : (leNat n x).length = n := by rw [leNat, List.length_map, List.length_range]

/-- The octets of a number that fits spell it. -/
theorem ofLe_leNat {n x : Nat} (h : x < 256 ^ n) : ofLe (leNat n x) = x := by
  induction n generalizing x with
  | zero =>
    obtain rfl : x = 0 := by simpa using h
    rfl
  | succ n ih =>
    have hrest : ofLe (leNat n (x / 256)) = x / 256 := ih (Nat.div_lt_of_lt_mul (by rwa [Nat.pow_succ'] at h))
    have hcons (y : Byte) (l : List Byte) : ofLe (y :: l) = y.toNat + 256 * ofLe l := rfl
    rw [leNat_succ, hcons, hrest, BitVec.toNat_ofNat]
    omega

/-! ## Checks -/

/-- A request none of whose checks fails anywhere in its range is not refused. -/
theorem firstBad_none {l : List Nat} {cs : List Check'} {transfer : Bool} (h : ∀ c ∈ cs, ∀ e ∈ l, c.code e = 0) :
    firstBad l cs transfer = none := by
  unfold firstBad
  simp only [List.findSome?_eq_none_iff, Option.map_eq_none_iff, List.find?_eq_none]
  intro st _ e he c hc
  simp [Check'.failsAt, h c hc e he]

theorem State.instCheck_dev (s : State) (i : Nat) : s.instCheck i dev = aDone := by
  have hok : s.instOk dev = true := by simp [State.instOk]
  have hthere : s.mirrorGone i dev = false := rfl
  have hsite : siteOfInst dev = none := rfl
  rw [State.instCheck, hok, hthere, hsite]
  rfl

theorem State.instCheck_of_net {s t : State} (h : SameButNet s t) (i e : Nat) : t.instCheck i e = s.instCheck i e :=
  (congrArg (State.instCheck · i e) h).trans rfl

theorem isRwp_eq_false {i j : Nat} (e : Nat) (h : ∀ r ∈ rowsOf (i / 256), r.covers i j = true → r.acc ≠ .rwp) :
    isRwp i j e = false := by
  unfold isRwp findRow
  refine Option.any_eq_false_iff_get .. |>.2 fun hsome => ?_
  have hfound := Option.eq_some_of_isSome hsome
  have hmatch := List.find?_some hfound
  have hcovers := (Bool.and_eq_true_iff.1 hmatch).1
  simpa using h _ (List.mem_of_find?_eq_some hfound) hcovers

/-! ## Objects that their register holds -/

/-- An object whose row is of an unsigned number that hosts may write, which has no check of its own, no relation, no
descriptor and no admission, is read as its register and written as it. -/
structure Plain (i j : Nat) (r : Row) (es : List Nat) : Prop where
  any : anyRow i j = some r
  row : ∀ e ∈ es, findRow ⟨i, j, e⟩ = some r
  size : Ty.size r.ty ≠ 0
  unsigned : Ty.signed r.ty = false
  acc : r.acc = .rw
  owned : hubOwned i j = false
  index : i ≠ 0x1010 ∧ i ≠ 0x7040 ∧ i ≠ 0x7070
  unmet : met ∉ es
  checks : ∀ src v s e, numCheck src i j v s e = aDone
  relates : ∀ (t : State) e v, t.relationOk i j e v = true
  maps : mapKind i j = none
  admits : ∀ e, admissionOf i j e = none
  reads : ∀ (s : State) src, ∀ e ∈ es, s.number src i j e = s.rd i j e
  sets : ∀ src v s e, numSet src i j v s e = s.wr i j e v

theorem Ty.size_le (t : Ty) : Ty.size t ≤ 8 := by cases t <;> decide

/-- The session idle timeout 0x1302, and the host flag 0x2403.05 of a channel. -/
def idleTimeoutRow : Row := ⟨0x1302, 1, 0, 1, .dev, .u16, .rw, true, 10, 3600, none, [60], "Session idle timeout"⟩
def hostFlagRow : Row := ⟨0x2403, 1, 5, 1, .ch, .u32, .rw, false, 0, 4294967295, none, [0], "Host flag"⟩

theorem plain_idleTimeout : Plain 0x1302 0 idleTimeoutRow [dev] where
  any := by decide +kernel
  row := by decide +kernel
  size := by decide
  unsigned := rfl
  acc := rfl
  owned := rfl
  index := by decide
  unmet := by decide
  checks src v s e := by
    have hrwp : isRwp 0x1302 0 e = false := isRwp_eq_false e (by decide +kernel)
    have hcheck : numCheck src 0x1302 0 v s e = if isRwp 0x1302 0 e then rwpCheck 0x1302 0 v s e else aDone := rfl
    rw [hcheck, hrwp]
    rfl
  relates t e v := rfl
  maps := rfl
  admits e := rfl
  reads s src e he := by
    obtain rfl := List.mem_singleton.1 he
    have hwindow : s.hubWindow 0x1302 0 = none := if_neg (by decide)
    have hformed : s.devNum src 0x1302 0 = none := (show s.devNum src 0x1302 0 = s.hubWindow 0x1302 0 from rfl).trans hwindow
    simp [State.number, hformed, show ¬ dev < 0x180 by decide]
  sets src v s e := by
    have hrwp : isRwp 0x1302 0 e = false := isRwp_eq_false e (by decide +kernel)
    have hset : numSet src 0x1302 0 v s e = if isRwp 0x1302 0 e then rwpSet 0x1302 0 v s e else s.wr 0x1302 0 e v := rfl
    rw [hset, hrwp]
    rfl

theorem plain_hostFlag {es : List Nat} (hes : ∀ e ∈ es, e < 0x180) : Plain 0x2403 5 hostFlagRow es where
  any := by decide +kernel
  row e he := by
    have hrow : ∀ c < 0x180, findRow ⟨0x2403, 5, c⟩ = some hostFlagRow := by decide +kernel
    exact hrow e (hes e he)
  size := by decide
  unsigned := rfl
  acc := rfl
  owned := rfl
  index := by decide
  unmet h := absurd (hes met h) (by decide)
  checks src v s e := by
    have hrwp : isRwp 0x2403 5 e = false := isRwp_eq_false e (by decide +kernel)
    have hcheck : numCheck src 0x2403 5 v s e = if isRwp 0x2403 5 e then rwpCheck 0x2403 5 v s e else aDone := rfl
    rw [hcheck, hrwp]
    rfl
  relates t e v := rfl
  maps := rfl
  admits e := rfl
  reads s src e he := by
    have hformed : s.chanNum e 0x2403 5 = none := rfl
    simp [State.number, hes e he, hformed]
  sets src v s e := by
    have hrwp : isRwp 0x2403 5 e = false := isRwp_eq_false e (by decide +kernel)
    have hset : numSet src 0x2403 5 v s e = if isRwp 0x2403 5 e then rwpSet 0x2403 5 v s e else s.wr 0x2403 5 e v := rfl
    rw [hset, hrwp]
    rfl

section
variable {i j : Nat} {r : Row} {es : List Nat}

theorem Plain.not_octets (h : Plain i j r es) : isOctets i j = false := by
  rw [isOctets, h.any, Option.any_some]
  exact beq_eq_false_iff_ne.2 h.size

theorem Plain.exists (h : Plain i j r es) {e : Nat} (he : e ∈ es) : existCheck i j e = aDone := by
  have hany : (rowsOf (i / 256)).any (fun r => r.covers i j) = true :=
    List.any_eq_true.2 ⟨r, List.mem_of_find?_eq_some h.any, List.find?_some (p := fun r : Row => r.covers i j) h.any⟩
  rw [existCheck, hany, h.row e he]
  rfl

theorem Plain.readable (h : Plain i j r es) {e : Nat} (he : e ∈ es) : readAccess i j e = aDone := by
  simp only [readAccess, h.row e he, h.acc, reduceCtorEq, if_false]

theorem Plain.writable (h : Plain i j r es) {s : State} {src : Src} {e : Nat} (he : e ∈ es)
    (hallowed : partitionDenied src i j = false) : s.accessCheck src i j e = aDone := by
  simp [State.accessCheck, h.row e he, h.acc, h.owned, hallowed]

theorem spanSubs_one (i j : Nat) (f l : Inst) : spanSubs ⟨i, j, 1, f, l⟩ = [j] := rfl

theorem spanInsts_one (i j n : Nat) (f : Inst) : spanInsts ⟨i, j, n, f, f⟩ = [instOf f] := by
  simp [spanInsts, spanFirst, spanLast, instRange]

theorem spanExist_one {f l : Inst} {e : Nat} (h : existCheck i j e = aDone) : spanExist ⟨i, j, 1, f, l⟩ e = aDone := by
  simp [spanExist, spanSubs_one, eachSub, firstCode, h, aDone, aNoObject]

theorem eachSub_one {f l : Inst} {g : Nat → Nat → Nat} {e : Nat} (h : g j e = aDone) :
    eachSub ⟨i, j, 1, f, l⟩ g e = aDone := by
  simp [spanSubs_one, eachSub, firstCode, h, aDone]

theorem overSize_of_le (src : Src) {n : Nat} (h : n ≤ 1408) : overSize src n = false := by
  cases src with
  | keyway id seq => exact decide_eq_false (Nat.not_lt.2 h)
  | user => rfl
  | service => rfl

/-- A read of one such object answers its register. -/
theorem State.readSpan_plain {s : State} {src : Src} {f : Inst} {framed : Bool} (h : Plain i j r [instOf f])
    (hinst : s.instCheck i (instOf f) = aDone) :
    s.readSpan src ⟨i, j, 1, f, f⟩ framed = .ok (s.draw, leInt (Ty.size r.ty) (s.rd i j (instOf f))) := by
  have hmem : instOf f ∈ [instOf f] := List.mem_singleton.2 rfl
  have hcounts : countsOk ⟨i, j, 1, f, f⟩ framed = true := by simp [countsOk, spanFirst, spanLast]
  have hsmall : Ty.size r.ty ≤ 8 := Ty.size_le _
  have hroom : replyRoom ⟨i, j, 1, f, f⟩ framed = Ty.size r.ty := by
    simp [replyRoom, spanInsts_one, spanSubs_one, roomOf, h.row _ hmem, h.size]
  have hsize : overSize src (if framed || !isOctets i j || i == 0x7070 then replyRoom ⟨i, j, 1, f, f⟩ framed else 0) =
      false := overSize_of_le src (by
    rw [hroom]
    split
    · omega
    · omega)
  have hchecks : s.readChecks ⟨i, j, 1, f, f⟩ aDone = none := by
    refine firstBad_none fun c hc e he => ?_
    obtain rfl : e = instOf f := by simpa [spanInsts_one] using he
    simp only [List.mem_cons, List.not_mem_nil, or_false] at hc
    obtain rfl | rfl | rfl | rfl := hc
    · exact hinst
    · exact spanExist_one (h.exists hmem)
    · exact eachSub_one (h.readable hmem)
    · rfl
  have hvalue : s.value src i j (instOf f) = some (leInt (Ty.size r.ty) (s.rd i j (instOf f))) := by
    have hmet : instOf f ≠ met := fun hf => h.unmet (List.mem_singleton.2 hf.symm)
    simp [State.value, h.row _ hmem, h.size, hmet, h.reads s src _ hmem]
  have hgather : s.gather src ⟨i, j, 1, f, f⟩ framed = .ok (leInt (Ty.size r.ty) (s.rd i j (instOf f))) := by
    simp [State.gather, spanInsts_one, spanSubs_one, hvalue, framedBytes, h.not_octets]
  have hlength : (leInt (Ty.size r.ty) (s.rd i j (instOf f))).length = Ty.size r.ty := length_leNat ..
  unfold State.readSpan
  simp only [hcounts, hsize, hchecks, hgather, h.index.2.2, hlength, overSize_of_le src (show Ty.size r.ty ≤ 1408 by omega),
    Bool.not_true, Bool.false_eq_true, if_false, false_and]

/-- A write of one such object over its instances sets its registers, each after its site wakes. -/
theorem State.writeSpan_plain {s : State} {src : Src} {f l : Inst} {range whole : Bool} {v : Nat}
    (h : Plain i j r (spanInsts ⟨i, j, 1, f, l⟩)) (hcounts : countsOk ⟨i, j, 1, f, l⟩ range = true)
    (hfits : v < 256 ^ Ty.size r.ty) (haccepts : r.accepts v = true) (hallowed : partitionDenied src i j = false)
    (hinst : ∀ e ∈ spanInsts ⟨i, j, 1, f, l⟩, s.instCheck i e = aDone) :
    s.writeSpan src ⟨i, j, 1, f, l⟩ (leNat (Ty.size r.ty) v) range whole =
      (each (spanInsts ⟨i, j, 1, f, l⟩) (fun s e => (s.touch e).wr i j e v) s, .ok []) := by
  have hoct : octLength src ⟨i, j, 1, f, l⟩ (leNat (Ty.size r.ty) v).length whole = aDone := by
    simp [octLength, h.any, h.size]
  have hload : isLoadBegin ⟨i, j, 1, f, l⟩ (leNat (Ty.size r.ty) v) = false := by simp [isLoadBegin, h.index.2.1]
  have hitems : itemsOf ⟨i, j, 1, f, l⟩ (leNat (Ty.size r.ty) v) = some [(j, .num v)] := by
    have hdrop : (leNat (Ty.size r.ty) v).drop (Ty.size r.ty) = [] := List.drop_eq_nil_of_le (length_leNat ..).le
    have htake : (leNat (Ty.size r.ty) v).take (Ty.size r.ty) = leNat (Ty.size r.ty) v :=
      List.take_of_length_le (length_leNat ..).le
    simp [itemsOf, h.not_octets, spanSubs_one, numbersOf, h.any, length_leNat, hdrop, htake, h.unsigned, ofLe_leNat hfits]
  have hchecks : s.spanChecks src ⟨i, j, 1, f, l⟩ (some [(j, .num v)]) whole = none := by
    refine firstBad_none fun c hc e he => ?_
    simp only [List.flatMap_cons, List.flatMap_nil, List.append_nil, State.itemChecks, List.mem_append, List.mem_cons,
      List.not_mem_nil, or_false] at hc
    obtain (rfl | rfl | rfl) | rfl | rfl | rfl | rfl | rfl := hc
    · exact hinst e he
    · exact spanExist_one (h.exists he)
    · exact eachSub_one (h.writable he hallowed)
    · simp [rangeCheck, h.row e he, haccepts, aDone]
    · exact h.checks ..
    · simp [h.relates, aDone]
    · simp [State.mapCheck, h.maps, aDone]
    · simp [State.rwiCheck, h.row e he, h.acc, aDone]
  have hadmissions : admissions i (spanInsts ⟨i, j, 1, f, l⟩) [j] = [] := by
    have hnone : (spanInsts ⟨i, j, 1, f, l⟩).flatMap (fun e => [j].filterMap fun j => admissionOf i j e) = [] :=
      List.flatMap_eq_nil_iff.2 fun e _ => by simp [h.admits]
    rw [admissions, hnone]
    rfl
  have hset (t : State) (e : Nat) : each [(j, Val.num v)] (fun s it => s.setItem src i e it) t = t.wr i j e v := by
    simp [each_cons, State.setItem, h.index.1, h.sets]
  unfold State.writeSpan
  simp only [hcounts, hoct, hload, hitems, State.writeItems, hchecks, Option.getD_some, List.map_cons, List.map_nil,
    hadmissions, List.find?_nil, hset, Bool.not_true, Bool.false_eq_true, ne_eq, not_true_eq_false, or_self, if_false]
  rfl

end

/-- Registers that a range sets keep their value while the rest of the range is set. -/
theorem State.rd_each_touch {i j c : Nat} {v : Int} {l : List Nat} {s : State}
    (hi : Part.reg i ∉ [.reg 0x1200, .reg 0x1210, .reg 0x3101, .units, .dies]) (h : c ∈ l ∨ s.rd i j c = v) :
    (each l (fun s e => (s.touch e).wr i j e v) s).rd i j c = v := by
  induction l generalizing s with
  | nil => exact h.resolve_left List.not_mem_nil
  | cons e l ih =>
    rw [each_cons]
    refine ih ?_
    by_cases hc : c = e
    · subst hc
      exact .inr (State.rd_wr_self ..)
    · refine h.imp (fun hmem => (List.mem_cons.1 hmem).resolve_left hc) fun hold => ?_
      rw [State.rd_wr_ne _ _ (by simp [hc]), State.rd_of_same (State.touch_same hi (.refl _ s)), hold]

/-- A write of registers over a range touches neither the network side nor what a reset is asked for. -/
theorem State.each_touch_same {i j : Nat} {v : Int} {l : List Nat} {s : State} {k : Part}
    (hk : k ∉ [.reg i, .reg 0x1200, .reg 0x1210, .reg 0x3101, .units, .dies]) :
    State.Same k s (each l (fun s e => (s.touch e).wr i j e v) s) := by
  refine each_same (.refl k s) fun y e hy => State.wr_same ?_ (State.touch_same ?_ hy)
  · simp_all
  · simp_all

end Sys2Proof.Machine
end

section
/-! The statement on reads and writes, their ranges, the local API and unknown opcodes. -/

namespace Sys2Proof.Machine

/-! ## Requests of the dictionary -/

theorem State.setAttNonce_open {s : State} {id seq : Nat} {b : List Byte} {x : Session} (hx : s.session? id = some x) :
    s.setAttNonce (.keyway id seq) b = s.setSession { x with nonce := b } := by simp only [State.setAttNonce, hx]

/-- A read leaves the state in which it was heard, but for the free values and, of a report, the sender's nonce. -/
theorem State.readSpan_leaves {s u : State} {src : Src} {x : Span} {framed : Bool} {b : List Byte}
    (h : s.readSpan src x framed = .ok (u, b)) : u = s.draw ∨ u = (s.setAttNonce src []).draw := by
  unfold State.readSpan State.readReport at h
  split at h
  · cases h
  · extract_lets size at h
    clear_value size
    split at h
    · cases h
    · split at h
      · split at h
        · cases h
        · exact .inr (congrArg Prod.fst (Except.ok.inj h)).symm
      · split at h
        · split at h
          · cases h
          · exact .inl (congrArg Prod.fst (Except.ok.inj h)).symm
        · cases h

theorem State.storing_readSpan {s u : State} {src : Src} {x : Span} {framed : Bool} {b : List Byte}
    (h : s.readSpan src x framed = .ok (u, b)) : u.net.storing = s.net.storing := by
  obtain rfl | rfl := State.readSpan_leaves h
  · rfl
  · exact State.storing_setAttNonce s src []

/-- A read of a session leaves the session open and hands nothing over before its answer. -/
theorem State.session_readSpan {s u : State} {id seq : Nat} {x : Span} {framed : Bool} {b : List Byte} {y : Session}
    (hy : s.session? id = some y) (h : s.readSpan (.keyway id seq) x framed = .ok (u, b)) :
    (∃ z, u.session? id = some z) ∧ u.net.out = s.net.out := by
  obtain rfl | rfl := State.readSpan_leaves h
  · exact ⟨⟨y, hy⟩, rfl⟩
  · rw [State.setAttNonce_open hy]
    have hid := State.id_of_session? hy
    exact ⟨⟨_, State.session?_setSession (y := { y with nonce := [] }) hy hid⟩, rfl⟩

/-- The answer of a read that is served. -/
theorem State.readReq_eq {s u : State} {src : Src} {x : Span} {range : Bool} {b : List Byte} (hears : s.Hears src)
    (h : (s.atRequest src).readSpan src x range = .ok (u, b)) : s.readReq src x range =
      u.answer src (if range then opReadRange else opRead) aDone (spanWord x) (spanRange x) b :=
  State.serve_eq (k := fun s => s.readSpan src x range) hears h
    ((State.storing_readSpan h).trans (s.storing_atRequest src))

theorem State.readReq_sends {s u : State} {id seq : Nat} {x : Span} {range : Bool} {b : List Byte}
    (hears : s.Hears (.keyway id seq)) (h : (s.atRequest (.keyway id seq)).readSpan (.keyway id seq) x range = .ok (u, b)) :
    (s.readReq (.keyway id seq) x range).Sends
      (sentReply id seq (if range then opReadRange else opRead) aDone (spanWord x) (spanRange x) b) := by
  obtain ⟨y, hy⟩ := hears.session
  obtain ⟨⟨z, hz⟩, hout⟩ := State.session_readSpan (State.session?_atRequest hy) h
  rw [State.readReq_eq hears h]
  exact State.sends_answer hz (hout.trans (s.out_atRequest _))

theorem SameButNet.resetReq {s t : State} (h : SameButNet s t) : t.resetReq = s.resetReq :=
  (congrArg State.resetReq h).trans rfl

theorem State.settle_of_none {s : State} (h : s.resetReq = {}) : s.settle = s := if_pos h

/-- A write that is carried out and asks for no reset leaves, but for the network side, what it has set. -/
theorem State.writeReq_ok {s u : State} {src : Src} {x : Span} {b p : List Byte} {range : Bool} (hears : s.Hears src)
    (h : (s.atRequest src).writeSpan src x b range false = (u, .ok p)) (hreset : u.resetReq = {}) :
    SameButNet u (s.writeReq src x b range) := by
  have hserve : s.serveWith src (if range then opWriteRange else opWrite) (spanWord x) (spanRange x)
      (fun s => s.writeSpan src x b range false) = (s.atRequest src).execute src
        (if range then opWriteRange else opWrite) (spanWord x) (spanRange x) fun s => s.writeSpan src x b range false :=
    (if_pos hears.reached).trans (if_pos hears.served)
  have hnet := State.execute_ok (s := s.atRequest src) (src := src) (op := if range then opWriteRange else opWrite)
    (f := spanWord x) (l := spanRange x) (k := fun s => s.writeSpan src x b range false) h
  rw [← hserve] at hnet
  rw [State.writeReq, State.settle_of_none (hnet.resetReq.trans hreset)]
  exact hnet

/-- The answer of such a write that starts no store. -/
theorem State.writeReq_eq {s u : State} {src : Src} {x : Span} {b p : List Byte} {range : Bool} (hears : s.Hears src)
    (h : (s.atRequest src).writeSpan src x b range false = (u, .ok p)) (hstoring : u.net.storing = s.net.storing)
    (hreset : u.resetReq = {}) : s.writeReq src x b range =
      u.answer src (if range then opWriteRange else opWrite) aDone (spanWord x) (spanRange x) p := by
  rw [State.writeReq, State.serveWith_eq (k := fun s => s.writeSpan src x b range false) hears h hstoring]
  exact State.settle_of_none ((State.answer_sameButNet ..).resetReq.trans hreset)

section
variable {s : State} {src : Src} {i j v : Nat} {r : Row} {f l : Inst} {range : Bool}

/-- A write of a plain object over its instances: the answer, and the registers it leaves. -/
theorem State.writeReq_plain (hears : s.Hears src) (hreset : s.resetReq = {})
    (h : Plain i j r (spanInsts ⟨i, j, 1, f, l⟩)) (hcounts : countsOk ⟨i, j, 1, f, l⟩ range = true)
    (hfits : v < 256 ^ Ty.size r.ty) (haccepts : r.accepts v = true) (hallowed : partitionDenied src i j = false)
    (hi : i ∉ [0x1200, 0x1210, 0x3101]) (hinst : ∀ e ∈ spanInsts ⟨i, j, 1, f, l⟩, s.instCheck i e = aDone) :
    ∃ u : State, u.net = (s.atRequest src).net ∧ (∀ e ∈ spanInsts ⟨i, j, 1, f, l⟩, u.rd i j e = v) ∧
      s.writeReq src ⟨i, j, 1, f, l⟩ (leNat (Ty.size r.ty) v) range =
        u.answer src (if range then opWriteRange else opWrite) aDone (spanWord ⟨i, j, 1, f, l⟩)
          (spanRange ⟨i, j, 1, f, l⟩) [] := by
  have hsame := s.atRequest_sameButNet src
  have hcarried := State.writeSpan_plain (s := s.atRequest src) (whole := false) h hcounts hfits haccepts hallowed fun e he =>
    (State.instCheck_of_net hsame i e).trans (hinst e he)
  let u := each (spanInsts ⟨i, j, 1, f, l⟩) (fun s e => (s.touch e).wr i j e v) (s.atRequest src)
  have hnet : State.Same .net (s.atRequest src) u := State.each_touch_same (by simp)
  have hreq : State.Same .resetReq (s.atRequest src) u := State.each_touch_same (by simp)
  have hnone : u.resetReq = {} := Eq.trans hreq (hsame.resetReq.trans hreset)
  refine ⟨u, hnet, fun e he => State.rd_each_touch (by simpa using hi) (.inl he), ?_⟩
  exact State.writeReq_eq hears hcarried ((congrArg Net.storing hnet).trans (s.storing_atRequest src)) hnone

end

theorem Row.accepts_of_range {r : Row} {v : Int} (hlow : r.lo ≤ v) (hhigh : v ≤ r.hi) : r.accepts v = true := by
  rw [Row.accepts, decide_eq_true hlow, decide_eq_true hhigh]
  rfl

/-! ## One object of the device (R431) -/

theorem read_gives {s u : State} {id seq : Nat} {x : Span} {b : List Byte} (hears : s.Hears (.keyway id seq))
    (h : (s.atRequest (.keyway id seq)).readSpan (.keyway id seq) x false = .ok (u, b)) :
    Gives (.read (.keyway id seq) x) s fun t => t.Sends (sentReply id seq opRead aDone (spanWord x) (spanRange x) b) :=
  ⟨_, rfl, State.readReq_sends (range := false) hears h⟩

theorem read_refused {s : State} {id seq : Nat} {x : Span} {r : Refuse} (hears : s.Hears (.keyway id seq))
    (h : (s.atRequest (.keyway id seq)).readSpan (.keyway id seq) x false = .error r) :
    Gives (.read (.keyway id seq) x) s fun t => t.Sends (sentReply id seq opRead r.code (spanWord x)
      ((r.inst.map fun e => rangeWord e e).getD (spanRange x)) []) := by
  obtain ⟨y, hy⟩ := hears.session
  have hserve := State.serve_error (op := opRead) (f := spanWord x) (l := spanRange x)
    (k := fun s => s.readSpan (.keyway id seq) x false) hears h
  refine ⟨_, congrArg Host.Outcome.next hserve, ?_⟩
  exact State.sends_answer (State.session?_atRequest hy) (s.out_atRequest _)

/-- The register of a plain object does not depend on the request that reads it. -/
theorem State.rd_atRequest (s : State) (src : Src) (i j e : Nat) : (s.atRequest src).rd i j e = s.rd i j e :=
  State.rd_of_same ((s.atRequest_sameButNet src).frame (.reg i) (by simp)) j e

theorem readIdleTimeout_gives {s : State} {id seq : Nat} (hears : s.Hears (.keyway id seq)) :
    Gives (.read (.keyway id seq) ⟨0x1302, 0, 1, .dev, .dev⟩) s fun t =>
      t.Sends (sentReply id seq opRead aDone (addrWord 0x1302 0 1) (rangeWord dev dev) (leInt 2 (s.rd 0x1302 0 dev))) := by
  have hread := State.readSpan_plain (s := s.atRequest (.keyway id seq)) (src := .keyway id seq) (f := .dev)
    (framed := false) plain_idleTimeout (State.instCheck_dev ..)
  rw [State.rd_atRequest] at hread
  exact read_gives hears hread

theorem write_gives {s u : State} {src : Src} {x : Span} {b p : List Byte} (hears : s.Hears src)
    (h : (s.atRequest src).writeSpan src x b false false = (u, .ok p)) (hreset : u.resetReq = {}) :
    Gives (.write src x b) s fun t => SameButNet u t := ⟨_, rfl, State.writeReq_ok hears h hreset⟩

theorem writeIdleTimeout_gives {s : State} {id seq v : Nat} (hears : s.Hears (.keyway id seq)) (hreset : s.resetReq = {})
    (hfrom : 10 ≤ v) (hto : v ≤ 3600) :
    Gives (.write (.keyway id seq) ⟨0x1302, 0, 1, .dev, .dev⟩ (leNat 2 v)) s fun t => t.rd 0x1302 0 dev = v ∧
      t.Sends (sentReply id seq opWrite aDone (addrWord 0x1302 0 1) (rangeWord dev dev) []) := by
  obtain ⟨y, hy⟩ := hears.session
  have haccepts : idleTimeoutRow.accepts v = true :=
    Row.accepts_of_range (show (10 : Int) ≤ v by omega) (show (v : Int) ≤ 3600 by omega)
  obtain ⟨u, hnet, hset, heq⟩ := State.writeReq_plain (range := false) (f := .dev) (l := .dev) (v := v) hears hreset
    plain_idleTimeout rfl (show v < 65536 by omega) haccepts rfl (by decide) fun e he => by
      obtain rfl := List.mem_singleton.1 he
      exact State.instCheck_dev ..
  refine ⟨_, congrArg Host.Outcome.next heq, ?_, ?_⟩
  · exact (State.rd_of_same ((State.answer_sameButNet ..).frame (.reg 0x1302) (by decide)) 0 dev).trans
      (hset dev (List.mem_singleton.2 rfl))
  · refine State.sends_answer ((State.session?_of_sessions (congrArg Net.sessions hnet) id).trans (State.session?_atRequest hy)) ?_
    rw [hnet]
    exact s.out_atRequest _

/-! ## Ranges of channels (R432, R433) -/

theorem readRange_gives {s u : State} {id seq : Nat} {x : Span} {b : List Byte} (hears : s.Hears (.keyway id seq))
    (h : (s.atRequest (.keyway id seq)).readSpan (.keyway id seq) x true = .ok (u, b)) :
    Gives (.readRange (.keyway id seq) x) s fun t =>
      t.Sends (sentReply id seq opReadRange aDone (spanWord x) (spanRange x) b) :=
  ⟨_, rfl, State.readReq_sends (range := true) hears h⟩

/-- A read of the host flag of one channel, framed or not, answers its register. -/
theorem State.readSpan_hostFlag {s : State} (src : Src) {c : Nat} (framed : Bool) (hc : c < 0x180)
    (hinst : s.instCheck 0x2403 c = aDone) :
    (s.atRequest src).readSpan src ⟨0x2403, 5, 1, .ch c, .ch c⟩ framed =
      .ok ((s.atRequest src).draw, leInt 4 (s.rd 0x2403 5 c)) := by
  have hplain : Plain 0x2403 5 hostFlagRow [instOf (.ch c)] := plain_hostFlag fun e he => by
    obtain rfl := List.mem_singleton.1 he
    exact hc
  have hread := State.readSpan_plain (s := s.atRequest src) (src := src) (framed := framed) hplain
    ((State.instCheck_of_net (s.atRequest_sameButNet src) ..).trans hinst)
  rw [State.rd_atRequest] at hread
  exact hread

theorem readHostFlag_gives {s : State} {id seq c : Nat} (hears : s.Hears (.keyway id seq)) (hc : c < 0x180)
    (hinst : s.instCheck 0x2403 c = aDone) :
    Gives (.readRange (.keyway id seq) ⟨0x2403, 5, 1, .ch c, .ch c⟩) s fun t =>
      t.Sends (sentReply id seq opReadRange aDone (addrWord 0x2403 5 1) (rangeWord c c) (leInt 4 (s.rd 0x2403 5 c))) :=
  readRange_gives hears (State.readSpan_hostFlag _ true hc hinst)

theorem writeRange_gives {s u : State} {src : Src} {x : Span} {b p : List Byte} (hears : s.Hears src)
    (h : (s.atRequest src).writeSpan src x b true false = (u, .ok p)) (hreset : u.resetReq = {}) :
    Gives (.writeRange src x b) s fun t => SameButNet u t := ⟨_, rfl, State.writeReq_ok hears h hreset⟩

theorem hostFlagRow_accepts {v : Nat} (hv : v < 2 ^ 32) : hostFlagRow.accepts v = true :=
  Row.accepts_of_range (show (0 : Int) ≤ v by omega) (show (v : Int) ≤ 4294967295 by omega)

theorem mem_spanInsts_ch {i j n a b c : Nat} : c ∈ spanInsts ⟨i, j, n, .ch a, .ch b⟩ ↔ a ≤ c ∧ c ≤ b := by
  simp only [spanInsts, spanFirst, spanLast, instOf, instRange, List.mem_map, List.mem_range]
  constructor
  · rintro ⟨k, hk, rfl⟩
    omega
  · rintro ⟨hlow, hhigh⟩
    exact ⟨c - a, by omega, by omega⟩

/-- A write of the host flag over a range of channels leaves it in each of them. -/
theorem State.writeReq_hostFlag {s : State} {src : Src} {a b v : Nat} {range : Bool} (hears : s.Hears src)
    (hreset : s.resetReq = {}) (hcounts : countsOk ⟨0x2403, 5, 1, .ch a, .ch b⟩ range = true) (hb : b < 0x180)
    (hinst : ∀ c, a ≤ c → c ≤ b → s.instCheck 0x2403 c = aDone) (hv : v < 2 ^ 32) :
    ∃ u : State, (∀ c, a ≤ c → c ≤ b → u.rd 0x2403 5 c = v) ∧
      s.writeReq src ⟨0x2403, 5, 1, .ch a, .ch b⟩ (leNat 4 v) range =
        u.answer src (if range then opWriteRange else opWrite) aDone (spanWord ⟨0x2403, 5, 1, .ch a, .ch b⟩)
          (spanRange ⟨0x2403, 5, 1, .ch a, .ch b⟩) [] := by
  have hplain : Plain 0x2403 5 hostFlagRow (spanInsts ⟨0x2403, 5, 1, .ch a, .ch b⟩) := plain_hostFlag fun e he => by
    obtain ⟨-, hhigh⟩ := mem_spanInsts_ch.1 he
    omega
  have hallowed : partitionDenied src 0x2403 5 = false := by
    cases src with
    | keyway id seq => rfl
    | user => decide
    | service => rfl
  obtain ⟨u, -, hset, heq⟩ := State.writeReq_plain hears hreset hplain hcounts hv (hostFlagRow_accepts hv) hallowed
    (by decide) fun e he => by
      obtain ⟨hlow, hhigh⟩ := mem_spanInsts_ch.1 he
      exact hinst e hlow hhigh
  exact ⟨u, fun c hlow hhigh => hset c (mem_spanInsts_ch.2 ⟨hlow, hhigh⟩), heq⟩

theorem State.rd_answer (u : State) (src : Src) (op st f l : Nat) (p : List Byte) (i j e : Nat) :
    (u.answer src op st f l p).rd i j e = u.rd i j e :=
  State.rd_of_same ((State.answer_sameButNet ..).frame (.reg i) (by simp)) j e

theorem countsOk_one {i j a b : Nat} {range : Bool} (hab : a ≤ b) (hone : range = true ∨ a = b) :
    countsOk ⟨i, j, 1, .ch a, .ch b⟩ range = true := by
  obtain rfl | rfl := hone
  · simp [countsOk, spanFirst, spanLast, instOf, hab]
  · simp [countsOk, spanFirst, spanLast]

theorem writeHostFlags_gives {s : State} {id seq a b v : Nat} (hears : s.Hears (.keyway id seq)) (hreset : s.resetReq = {})
    (hab : a ≤ b) (hb : b < 0x180) (hinst : ∀ c, a ≤ c → c ≤ b → s.instCheck 0x2403 c = aDone) (hv : v < 2 ^ 32) :
    Gives (.writeRange (.keyway id seq) ⟨0x2403, 5, 1, .ch a, .ch b⟩ (leNat 4 v)) s fun t =>
      ∀ c, a ≤ c → c ≤ b → t.rd 0x2403 5 c = v := by
  obtain ⟨u, hset, heq⟩ := State.writeReq_hostFlag (range := true) hears hreset (countsOk_one hab (.inl rfl)) hb hinst hv
  exact ⟨_, congrArg Host.Outcome.next heq, fun c hlow hhigh => (State.rd_answer ..).trans (hset c hlow hhigh)⟩

/-! ## The local API (R486) -/

theorem apiRead_gives {s : State} {c : Nat} (hears : s.Hears .user) (hc : c < 0x180) (hinst : s.instCheck 0x2403 c = aDone) :
    Gives (.apiCall ⟨0x2403, 5, 1, .ch c, .ch c⟩ none) s fun t =>
      t.net.local' = some (aDone, leInt 4 (s.rd 0x2403 5 c)) := by
  have hrange : (instOf (.ch c) != instOf (.ch c)) = false := bne_self_eq_false _
  have hread := State.readReq_eq (range := false) hears (State.readSpan_hostFlag _ false hc hinst)
  rw [← hrange] at hread
  exact ⟨_, congrArg Host.Outcome.next hread, rfl⟩

theorem apiWrite_gives {s : State} {c v : Nat} (hears : s.Hears .user) (hreset : s.resetReq = {}) (hc : c < 0x180)
    (hinst : s.instCheck 0x2403 c = aDone) (hv : v < 2 ^ 32) :
    Gives (.apiCall ⟨0x2403, 5, 1, .ch c, .ch c⟩ (some (leNat 4 v))) s fun t =>
      t.net.local' = some (aDone, []) ∧ t.rd 0x2403 5 c = v := by
  have hrange : (instOf (.ch c) != instOf (.ch c)) = false := bne_self_eq_false _
  obtain ⟨u, hset, heq⟩ := State.writeReq_hostFlag (range := false) hears hreset (countsOk_one le_rfl (.inr rfl)) hc
    (fun e hlow hhigh => by rwa [Nat.le_antisymm hhigh hlow]) hv
  rw [← hrange] at heq
  exact ⟨_, congrArg Host.Outcome.next heq, State.local_answer (.inl rfl),
    (State.rd_answer ..).trans (hset c le_rfl le_rfl)⟩

/-! ## Unknown opcodes (R430) -/

theorem unknownOpcode_gives {s : State} {id seq op w3 w4 : Nat} (hears : s.Hears (.keyway id seq))
    (hop : hostOps.contains op = false) :
    Gives (.unknownOpcode (.keyway id seq) op w3 w4) s fun t => t.Sends (sentReply id seq op aUnknownOp w3 w4 []) := by
  obtain ⟨y, hy⟩ := hears.session
  have hserve := State.serve_error (op := op) (f := w3) (l := w4) (k := fun _ => .error ⟨aUnknownOp, none⟩)
    (r := ⟨aUnknownOp, none⟩) hears rfl
  have hexec : execUnknownOpcode (.keyway id seq) op w3 w4 s =
      .next ((s.atRequest (.keyway id seq)).answer (.keyway id seq) op aUnknownOp w3 w4 []) := by
    rw [execUnknownOpcode, if_neg (by rw [hop]; exact Bool.false_ne_true)]
    exact congrArg Host.Outcome.next hserve
  exact ⟨_, hexec, State.sends_answer (State.session?_atRequest hy) (s.out_atRequest _)⟩

/-- Settles O50: a read or a write that is served is answered from the state that it leaves; the concrete objects are held
by their registers. -/
theorem readsAndWrites : Obligations.ReadsAndWrites := by
  refine ⟨?read, ?refused, ?idleRead, ?write, ?idleWrite, ?readRange, ?flagRead, ?writeRange, ?flagWrite, ?apiRead,
    ?apiWrite, ?unknown⟩
  case read =>
    intro id seq x b u s hears h
    exact (read_gives hears h).framed fun k hk => execRead_same hk (.refl k s)
  case refused =>
    intro id seq x r s hears h
    exact (read_refused hears h).framed fun k hk => execRead_same hk (.refl k s)
  case idleRead =>
    intro id seq s hears
    exact (readIdleTimeout_gives hears).framed fun k hk => execRead_same hk (.refl k s)
  case write =>
    intro src x b p u s hears h hreset
    exact (write_gives hears h hreset).framedHidden fun k hk hr => execWrite_same hr hk (.refl k s)
  case idleWrite =>
    intro id seq v s hears hreset hfrom hto
    exact (writeIdleTimeout_gives hears hreset hfrom hto).framedHidden fun k hk hr => execWrite_same hr hk (.refl k s)
  case readRange =>
    intro id seq x b u s hears h
    exact (readRange_gives hears h).framed fun k hk => execReadRange_same hk (.refl k s)
  case flagRead =>
    intro id seq c s hears hc hinst
    exact (readHostFlag_gives hears hc hinst).framed fun k hk => execReadRange_same hk (.refl k s)
  case writeRange =>
    intro src x b p u s hears h hreset
    exact (writeRange_gives hears h hreset).framedHidden fun k hk hr => execWriteRange_same hr hk (.refl k s)
  case flagWrite =>
    intro id seq a b v s hears hreset hab hb hinst hv
    exact (writeHostFlags_gives hears hreset hab hb hinst hv).framedHidden fun k hk hr =>
      execWriteRange_same hr hk (.refl k s)
  case apiRead =>
    intro c s hears hc hinst
    exact (apiRead_gives hears hc hinst).framedHidden fun k hk hr =>
      execApiCall_same (x1 := ⟨0x2403, 5, 1, .ch c, .ch c⟩) (x2 := none) hr hk (.refl k s)
  case apiWrite =>
    intro c v s hears hreset hc hinst hv
    exact (apiWrite_gives hears hreset hc hinst hv).framedHidden fun k hk hr =>
      execApiCall_same (x1 := ⟨0x2403, 5, 1, .ch c, .ch c⟩) (x2 := some (leNat 4 v)) hr hk (.refl k s)
  case unknown =>
    intro id seq op w3 w4 s hears hop
    exact (unknownOpcode_gives hears hop).framed fun k hk => execUnknownOpcode_same hk (.refl k s)

end Sys2Proof.Machine
end
